-- ==== Sys2Proof/Word.lean ====
section
/-!
DEFINITION. The word types of the T7 and their plainest arithmetic (R3, R4): register words of 32 bits,
bytes, row words of 256 bits, external-memory lines of 512 bits, 48-bit crossing numbers.
-/
namespace Sys2Proof

/-- A control-space register word (R4). -/
abbrev Word := BitVec 32

/-- A byte. -/
abbrev Byte := BitVec 8

/-- A row word of the memory die or of plate storage, without its check bits (R5). -/
abbrev RowWord := BitVec 256

/-- A row of a bank: its 8 row words, word 0 lowest (R231). -/
abbrev Row := BitVec 2048

/-- A 64-byte line of LPDDR5X (R307). -/
abbrev Line := BitVec 512

/-- The payload of a 66-bit block (R126). -/
abbrev Payload := BitVec 64

/-- The modulus of crossing numbers, 2^48 (R37). -/
def crossMod : Nat := 2 ^ 48

/-- Bits `lo` to `lo + w - 1` of a number. -/
def bitsOf (n lo w : Nat) : Nat := (n >>> lo) % 2 ^ w

/-- Bit `i` of a number. -/
def bitOf (n i : Nat) : Bool := n.testBit i

/-- A bit as a number. -/
def bit01 (b : Bool) : Nat := if b then 1 else 0

/-- `n + k` of two crossing numbers, modulo 2^48. -/
def crossAdd (n k : Nat) : Nat := (n + k) % crossMod

/-- `n - k` of two crossing numbers, modulo 2^48. -/
def crossSub (n k : Nat) : Nat := (n + crossMod - k % crossMod) % crossMod

/-- A signed difference of crossing numbers: `a` before `b` in the half circle of 2^47. -/
def crossBefore (a b : Nat) : Bool := 0 < crossSub b a && crossSub b a < 2 ^ 47

/-- Addition that stops at a greatest value, as counters that saturate do. -/
def satAdd (max n k : Nat) : Nat := if n + k ≤ max then n + k else max

/-- Two's complement reading of a field of `w` bits. -/
def signedOf (n w : Nat) : Int := if n % 2 ^ w < 2 ^ (w - 1) then (n % 2 ^ w : Nat) else ((n % 2 ^ w : Nat) : Int) - ((2 ^ w : Nat) : Int)

/-- The two's complement encoding of an integer in `w` bits. -/
def encodeSigned (i : Int) (w : Nat) : Nat := (i % ((2 ^ w : Nat) : Int)).toNat

end Sys2Proof
end

