-- ==== Sys2Proof/Syntax.lean ====
section
/-!
DEFINITION. The commands of the T7: one constructor for each row of the opcode table, in the table's order.
A command that an access makes carries the path code of R86 and the word written; an event carries what the
world outside the model decides about it.
-/
namespace Sys2Proof

/-! ## What an image's records carry ("The Finnak Image Format") -/

/-- The colophon (R339), with its digest as a number, the first byte the most significant; `crcOk` says that COLOPHON_CRC fits. -/
structure Colophon where
  magic       : Nat := 0x4B4E46
  crcOk       : Bool := true
  kind        : Nat := 0
  fmtMinor    : Nat := 1
  fmtMajor    : Nat := 3
  family      : Nat := 0x43
  part        : Nat := 7
  stepMin     : Nat := 0
  stepMax     : Nat := 0xFFFF
  gradeMask   : Nat := 6
  imageId     : BitVec 64 := 0
  baseId      : BitVec 64 := 0
  recordCount : Nat := 0
  hashId      : Nat := 2
  signer      : Nat := 0
  enc         : Bool := false
  imgKey      : Nat := 0
  sigOffset   : Nat := 0
  imageLen    : Nat := 0
  digest      : Nat := 0
deriving DecidableEq, Repr, Inhabited

/-- A record header (R340); `crcOk` says that its CRC fits. -/
structure RecHead where
  kind        : Nat := 0
  major       : Nat := 1
  minor       : Nat := 0
  initPresent : Bool := false
  fence       : Bool := false
  thermal     : Bool := false
  plateValid  : Bool := false
  enc         : Bool := false
  plate       : Nat := 0
  unit        : Nat := 0
  length      : Nat := 0
  slen        : Nat := 0
  index       : Nat := 0
  crcOk       : Bool := true
deriving DecidableEq, Repr, Inhabited

/-- The payload of GALLEY_OPEN (R344). -/
structure GalleyDecl where
  sort     : Bool := false
  withPrev : Bool := false
  decision : Bool := false
  userKind : Nat := 0
  galleyId : Nat := 0
  occL2    : BitVec 256 := 0
  occL4    : BitVec 256 := 0
deriving DecidableEq, Repr, Inhabited

/-- A token of a compressed segment (R346). -/
inductive Token where
  | literal (ws : List RowWord) | zero (n : Nat) | again (n : Nat) | above (n : Nat)
deriving DecidableEq, Repr, Inhabited

/-- The payload of PLATE_FRAMES (R345), its frame data as tokens by segment (none where they break the payload); METHOD RAW is one LITERAL
a segment. -/
structure PlateBody where
  plate    : Nat := 0
  stage    : Nat := 0
  resident : Bool := false
  method   : Nat := 0
  groups   : BitVec 16 := 0
  crcs     : List Word := []
  segs     : Option (List (List Token)) := none
deriving DecidableEq, Repr, Inhabited

/-- An entry of INIT_VALUES (R349). -/
structure InitEntry where
  column : Nat := 0
  die    : Nat := 0
  first  : Nat := 0
  words  : List Word := []
deriving DecidableEq, Repr, Inhabited

/-- An entry of PIN_TABLE (R350). -/
structure PinEntry where
  pin  : Nat := 0
  func : Nat := 0
  safe : Nat := 0
  pull : Nat := 0
deriving DecidableEq, Repr, Inhabited

/-- A section of RING_MAP (R353): rings with BASE and LOG_CAP, or channel map entries. -/
inductive RingSection where
  | rings (l : List (Nat × Nat × Nat)) | chanMap (first : Nat) (entries : List Word) | other
deriving DecidableEq, Repr, Inhabited

/-- A section of MEMORY_PRELOAD (R354). -/
structure Preload where
  addr : Nat := 0
  len  : Nat := 0
  data : List RowWord := []
deriving DecidableEq, Repr, Inhabited

/-- LATENCY (R357). -/
structure LatencyDecl where
  l       : Nat := 0
  r       : Nat := 0
  c       : Nat := 0
  s       : Nat := 0
  n       : Nat := 0
  xbMul   : Nat := 0
  aCol    : Nat := 0
  aDie    : Nat := 0
  aValid  : Bool := false
  bCol    : Nat := 0
  bDie    : Nat := 0
  bValid  : Bool := false
  galleys : List Nat := []
deriving DecidableEq, Repr, Inhabited

/-- The boot record (R370); its defaults are those of a record that is not valid. -/
structure BootRecord where
  order     : Nat := 0x401
  flashA    : Nat := 0
  flashB    : Nat := 0
  xaCode    : Nat := 0
  xbCode    : Nat := 0
  bist      : Bool := false
  octal     : Bool := false
  trunkWait : Nat := 0
  lg16Pll   : Word := 0
  bootLane  : Word := 0
deriving DecidableEq, Repr, Inhabited

/-- The requesters that share a base port, in their order (R248). -/
inductive BaseUser where
  | delivery | laneQueue | ring | master | fill | test
deriving DecidableEq, Repr, Inhabited

/-- A request at a column's base port: its requester, the bank it names and the row cycles it has waited (R236). -/
structure BaseAsk where
  user   : BaseUser := .master
  bank   : Nat := 0
  waited : Nat := 0
deriving DecidableEq, Repr, Inhabited

/-- The requesters of the last place in the order of R236, in their order; a write-back of R240 follows them. -/
inductive SlowUser where
  | fill | scrub | remap | march | test | writeback
deriving DecidableEq, Repr, Inhabited

/-- What else a row cycle holds at a bank when an access asks for it (R236 to R238). -/
structure BankCycle where
  /-- A row cycle in which no two row ports asked for the bank has ended since the last command on it. -/
  calm  : Bool := true
  /-- An operation in progress has a further row cycle at the bank. -/
  busy  : Bool := false
  /-- The next row cycle is one that lane delivery reserves. -/
  hold  : Bool := false
  /-- The row ports that ask for the bank. -/
  lower : Bool := false
  upper : Bool := false
  /-- What else asks at the column's base port. -/
  base  : List BaseAsk := []
  /-- What else asks in the last place. -/
  slow  : List SlowUser := []
deriving DecidableEq, Repr, Inhabited

/-- What befell the transfers of a vertical port's access: attempts whose control parity failed (R30), vias whose bit
arrived wrong, by bundle and position (R29), bits of the stored row upset before it, by row word and position, and the row cycle
in which it asks for its bank. -/
structure PortFound where
  parity : Nat := 0
  vias   : List (Nat × Nat) := []
  upsets : List (Nat × Nat) := []
  cycle  : BankCycle := {}
deriving DecidableEq, Repr, Inhabited

/-- The ports that a row of a fill crosses (R209). -/
inductive FillPort where
  | base | row | config
deriving DecidableEq, Repr, Inhabited

/-- A line of LPDDR5X that a bus agent writes with ECC that fits it (R319): its bytes as stored, TAG and STATE. -/
structure PutLine where
  data  : Line := 0
  tag   : BitVec 40 := 0
  state : BitVec 4 := 10
deriving DecidableEq, Repr, Inhabited

/-- What time and the outside did to a line of LPDDR5X before an access finds it: a line put in its place, then bits upset, 0 to 511 in
its bytes and from 512 on in its metadata word (R311). `ports` tells what befalls the access's transfers over base ports, in order.
`wait` tells that a request of a fabric data port is still outstanding when its command ends (R326). -/
structure Found where
  upsets : List Nat := []
  tamper : Option PutLine := none
  ports  : List PortFound := []
  wait   : Bool := false
deriving DecidableEq, Repr, Inhabited

/-- What else reaches a word port's word in its fabric cycle (R246, R247): the other port's access to the same word, or
the base port in a cycle that TB_HOLD gave it. -/
inductive TwinMeet where
  | alone | withRead | withWrite | baseRead | baseWrite
deriving DecidableEq, Repr, Inhabited

/-- A message as it arrives: its SOM, its data blocks and its EOM (R148). -/
structure WireMsg where
  som  : Payload := 0
  data : List Payload := []
  eom  : Payload := 0
deriving DecidableEq, Repr, Inhabited

/-- What befell plate storage of a column, and its configuration ports, before a copy or a readback of its frame rows (R30, R191,
R212, R225): bits of its frame words upset since the last one, by word (die × 20,736 + row × 8 + word) and position; shafts whose
ownership bits a multi-bit upset has struck, by shaft and bits (1 OWN_L, 2 OWN_U); vias whose bit arrived wrong, by die, frame row,
bundle and position; and the attempts of transfers whose control parity failed, by die and frame row. Dies are L4 where true. -/
structure PlateSeen where
  upsets : List (Nat × Nat) := []
  struck : List (Fin 1024 × Fin 4) := []
  vias   : List (Bool × Fin 2592 × Fin 8 × Fin 266) := []
  parity : List (Bool × Fin 2592) := []
deriving DecidableEq, Repr, Inhabited

/-- What a decision port shows at a capture edge (R52, R292). -/
structure DpSample where
  ready : Bool := false
  tag   : BitVec 12 := 0
  lines : Byte := 0
  busy  : Bool := false
  kick  : Bool := false
deriving DecidableEq, Repr, Inhabited

/-- A node word of an engine's tally tree that an upset has struck: one bit of it, which SEC-DED corrects, or more, or one that
only the residue shows (R281, R282). -/
structure TreeUpset where
  level  : Fin 5 := 0
  node   : Fin 16384 := 0
  double : Bool := false
deriving DecidableEq, Repr, Inhabited

/-- The slice that Peal takes next, with what it finds (R471 to R479). -/
inductive PealWork where
  /-- Kind 1: the relief of a bank begins. -/
  | relief (bank : Fin 8)
  /-- Kind 2: the group's relief bank; whether it fails. -/
  | reliefTest (bad : Bool)
  /-- Kind 3: a plate slot of a tile; the frame rows that fail. -/
  | plate (upper : Bool) (slot : Fin 4) (rows : List (Fin 2592))
  /-- Kind 4: a stage slot of the column; the frame rows that fail. -/
  | stage (slot : Fin 4) (rows : List (Fin 2592))
  /-- Kind 5: an idle tally unit; whether it fails. -/
  | tally (upper : Bool) (unit : Fin 24) (bad : Bool)
  /-- Kind 6: control vias (port class, bundle, via), spares (port class, bundle), shafts and spare clock vias that fail. -/
  | vertical (control : List (Fin 5 × Fin 8 × Fin 300)) (spares : List (Fin 5 × Fin 8)) (shafts : List (Fin 1024)) (clocks : List (Fin 4))
  /-- Kind 7: the lock margin of a PLL; whether it fails. -/
  | pllMargin (bad : Bool)
  /-- Kind 7: a droop sensor; whether it reports a level with its rail at the set value. -/
  | droop (layer : Fin 5) (sensor : Fin 4) (bad : Bool)
  /-- Kind 7: a thermal sensor against the median of its column. -/
  | thermal (layer : Fin 5) (sensor : Fin 2)
  /-- Kind 7: a measurement of a lane's eye begins, or the open width that its measurements found, in 1/64 UI. -/
  | eyeStart (n : Fin 144)
  | eyeWidth (n : Fin 144) (width : Nat)
deriving DecidableEq, Repr, Inhabited

/-- What an access to control space meets: whether the regulator acknowledges a voltage it requests (R429), whether a running
rebuild has passed the node that it reads (R285), what befalls its access over a base port (R256), and, of an image's preloads, what
befalls their transfers. -/
structure AccessMeet where
  ack     : Bool := true
  rebuilt : Bool := false
  port    : PortFound := {}
  ports   : List PortFound := []
deriving DecidableEq, Repr, Inhabited

/-- A command or an event of the T7. -/
inductive Instr where

  /-- CROSSING_EDGE (R38). A rising edge of CROSS_CLK, or a synthetic crossing, begins a crossing and the keeper adds 1 to the 48-bit crossing number. `a` and `b` are what the decision ports of sources A and B show at the capture edge. -/
  | crossingEdge (a : DpSample) (b : DpSample)
  /-- RELEASE (R46). At fabric cycle C of crossing K+R every alignment buffer presents the data stamped K that it holds in full, together with the lane status. -/
  | release (ports : List PortFound)
  /-- DECIDE_LATE (R52). A decision word tagged K that becomes ready after its capture edge is discarded and counted in DECIDE_LATE_COUNT. -/
  | decideLate
  /-- CROSS_LOST (R58). With no CROSS_CLK edge for 2 expected crossing periods the keeper sets CROSS_LOST and enters holdover. -/
  | crossLost
  /-- HOLDOVER_EXPIRY (R58). After 64 Ticks of holdover the T7 switches the fabric roots to XB by stop-switch-restart and sets SYNTHETIC. -/
  | holdoverExpiry
  /-- CROSS_BACK (R59). CROSS_CLK edges reappear after a loss and the keeper sets CROSS_BACK without returning to CROSS_CLK. `kHz` is the frequency of CROSS_CLK from now on. -/
  | crossBack (kHz : Nat)
  /-- ARM (R42). A write of 1 to KEEP_CTRL.ARM arms one load in SYNC_MODE 0b00. -/
  | arm (path : Fin 8)
  /-- RELOCK (R59). A write of 1 to KEEP_CTRL.RELOCK switches the fabric roots onto CROSS_CLK by stop-switch-restart. -/
  | relock (path : Fin 8)
  /-- KEEP_RATIO_WRITE (R44). A write of N or XB_MUL is checked against the grade limit and applied by a root relock once the forme is not running. -/
  | keepRatioWrite (path : Fin 8) (n : Fin 32) (xbMul : Fin 256)
  /-- CROSS_NOW_LO_READ (R39). A read of CROSS_NOW_LO captures all 48 bits of the crossing number for the reading path. -/
  | crossNowLoRead (path : Fin 8)
  /-- LAST_BREACH_LO_READ (R39). A read of LAST_BREACH_LO captures all 48 bits of the most recent breach crossing. -/
  | lastBreachLoRead (path : Fin 8)
  /-- CYC_LO_READ (R412). A read of REG_CYC_LO or TRUNK_CYC_LO captures the whole 64-bit cycle counter for the reading path. `trunk` chooses TRUNK_CYC. -/
  | cycLoRead (path : Fin 8) (trunk : Bool)
  /-- ENABLE (R67). Setting CTRL.ENABLE starts a unit, or holds the enable while the unit is OFF. -/
  | unitEnable (path : Fin 8) (unit : Nat)
  /-- DRAIN_REQ (R76). Clearing ENABLE or setting DRAIN_REQ moves a running unit to DRAINING, where it refuses new work and completes work in flight. `req` tells a write of DRAIN_REQ from one that clears ENABLE. -/
  | drainReq (path : Fin 8) (unit : Nat) (req : Bool)
  /-- RESET (R68). A CTRL.RESET write returns the unit's registers to reset, clears ENABLE, DRAIN_REQ, FAULT and EVENT, and discards work in flight. `enable` is the value of ENABLE in the same write. -/
  | unitReset (path : Fin 8) (unit : Nat) (enable : Bool)
  /-- PROOF_SET (R71). A CTRL write of PROOF_EN and PROOF_DEPTH is stored only in STOPPED and only for an implemented depth, and a galley propagates it to its children. -/
  | proofSet (path : Fin 8) (unit : Nat) (en : Bool) (depth : Fin 4)
  /-- GALLEY_STEP_ADVANCE (R72). When every child of the current step has reached its target state, the galley sequence moves on to the next step of its start or drain, or ends. -/
  | galleyStepAdvance (unit : Nat)
  /-- UNIT_READY (R67). A STARTING unit completes its start and becomes RUNNING, or DEGRADED when a loss stands. -/
  | unitReady (unit : Nat)
  /-- UNIT_EMPTY (R76). A DRAINING unit with no work left in flight reaches STOPPED. -/
  | unitEmpty (unit : Nat)
  /-- DRAIN_LIMIT_EXPIRY (R76). After DRAIN_LIMIT whole Ticks in DRAINING a unit discards its remaining work, sets DRAIN_EXPIRED and goes to STOPPED. -/
  | drainLimitExpiry (unit : Nat)
  /-- VERSION_SEL_WRITE (R78). A VERSION_SEL write is honoured only in OFF or STOPPED and for an implemented interface version, and otherwise sets VER_REJECT. -/
  | versionSelWrite (path : Fin 8) (unit : Nat) (value : Word)
  /-- U_READY (R79). A rising edge of U_READY from the fabric is taken by the shell as ready for its user unit. -/
  | uReady (unit : Nat)
  /-- U_EMPTY (R79). U_EMPTY held at 1 while a user unit is DRAINING is taken as empty. -/
  | uEmpty (unit : Nat)
  /-- U_FAULT (R79). A rising edge of U_FAULT sets FAULT[15:8] of the shell, and bits [11:8] are fatal. -/
  | uFault (unit : Nat) (bits : BitVec 8)
  /-- U_EVENT (R79). A rising edge of U_EVENT sets EVENT[15:9] of the shell. -/
  | uEvent (unit : Nat) (bits : BitVec 7)
  /-- U_LOSS (R79). U_LOSS at 1 is a loss for the user unit. -/
  | uLoss (unit : Nat) (level : Bool)
  /-- REGISTER_WRITE (R92). A granted write to a register that has no row of its own stores the value by its access code; a write from another path to a KW register is DENIED and logged. -/
  | registerWrite (path : Fin 8) (addr : Word) (value : Word) (meet : AccessMeet)
  /-- RC_FIELD_READ (R7). A read of an RC field returns its value and clears it; reading a log's closing register frees the log. -/
  | rcFieldRead (path : Fin 8) (addr : Word) (meet : AccessMeet)
  /-- CTRL_GRANT (R90). The control-space arbiter grants one waiting access per register-clock cycle, round-robin over the path codes. The access is that of the path whose turn it is. -/
  | ctrlGrant (meet : AccessMeet)
  /-- ACCESS_TIMEOUT (R88). A target that does not answer within 80 Ticks ends the access with status TIMEOUT. -/
  | accessTimeout (path : Fin 8)
  /-- CLOCK_GATE_WAKE (R413). A request into a clock-gated area raises a wake, the gate opens within 16 cycles, and the request proceeds. -/
  | clockGateWake (unit : Nat)
  /-- FM_REQ (R87). A fabric master port request is taken when FM_RDY is 1 and presented to the control-space arbiter. -/
  | fmReq (port : Fin 4) (write : Bool) (addr : BitVec 30) (data : Word)
  /-- DIR_WIN_ACCESS (R261). A WIN_DATA access of the ring directory window reads or writes a descriptor word or channel map entry, subject to the ring's state. -/
  | dirWinAccess (path : Fin 8) (write : Bool) (data : Word)
  /-- TREE_WIN_READ (R288). A WIN_DATA read of the tally tree window returns the SUM, STALE and NEAR_FULL of the addressed node. -/
  | treeWinRead (path : Fin 8) (rebuilt : Bool)
  /-- TEST_WIN_ACCESS (R256). A WIN_DATA access of the memory die test window reads or writes one register word, or its check bits, over the base port. -/
  | testWinAccess (path : Fin 8) (write : Bool) (data : Word) (port : PortFound)
  /-- DEBUG_WIN_ACCESS (R85). A WIN_DATA access of the data-space debug window issues a 4-byte data-space read or write, refused for keyed addresses. -/
  | debugWinAccess (path : Fin 8) (write : Bool) (data : Word)
  /-- DEBUG_WIN_DONE (R85). The data-space completion of a debug window access arrives, loads STAT and completes the control-space access. -/
  | debugWinDone (path : Fin 8) (found : Found)
  /-- EVENT_REPEAT (R93). Every EVT_REPEAT x 64 Ticks while the root event stands, a further EVENT message is sent with the next sequence number. -/
  | eventRepeat
  /-- LG_PLL_CFG_WRITE (R103). A write to LG_PLL_CFG takes effect only while the group and its lanes are stopped or off, and otherwise sets PLL_REJECT. -/
  | lgPllCfgWrite (path : Fin 8) (g : Fin 18) (value : Word)
  /-- LG_PLL_LOCK (R104). The group PLL completes VCO calibration and locks, and the lane group galley begins its child step. -/
  | lgPllLock (g : Fin 18) (band : Fin 16)
  /-- LG_LOCK_TIMEOUT (R104). The group PLL does not lock within LG_LOCK_LIMIT Ticks and the galley's start fails with PLL_UNLOCK. -/
  | lgLockTimeout (g : Fin 18)
  /-- REF_LOST (R105). The clock monitor on LREF trips, or the group PLL loses lock, and the galley and its 8 lanes enter FAULTED. -/
  | refLost (g : Fin 18) (pll : Bool)
  /-- REF_BACK (R105). LREF edges return after a loss and LG_EVENT.REF_BACK is set. -/
  | refBack (g : Fin 18) (kHz : Nat)
  /-- LANE_START_TIMEOUT (R110). A lane still STARTING after LANE_START.LIMIT Ticks fails with START_FAIL and a cause bit. -/
  | laneStartTimeout (n : Fin 144)
  /-- LOS_SET (R113). The amplitude stays below the LOS threshold for 500 ns, LOS asserts and a running lane freezes adaptation. -/
  | losSet (n : Fin 144)
  /-- LOS_CLEAR (R113). The amplitude stays above the threshold plus hysteresis for 1 us and LOS clears. -/
  | losClear (n : Fin 144)
  /-- CDR_LOCK (R109). The receiver CDR locks to the incoming signal. -/
  | cdrLock (n : Fin 144) (peak : Fin 32)
  /-- CDR_UNLOCK (R131). The receiver CDR loses lock and the signal ceases to be ready. -/
  | cdrUnlock (n : Fin 144)
  /-- DFE_TAP_STEP (R116). A tap integrator reaches +-2^(8+MU) and the tap moves one LSB. `gain` is what the integrator gains from the bits received since it last changed. -/
  | dfeTapStep (n : Fin 128) (k : Fin 13) (gain : Int)
  /-- CTLE_ADAPT_STEP (R114). In continuous mode the CTLE setting is corrected by at most one step per 2^24 received bits. -/
  | ctleAdaptStep (n : Fin 144) (up : Bool)
  /-- SNAP (R117). A write of DFE_CTRL.SNAP captures h1 to h12 and DLEV at one instant. -/
  | snap (path : Fin 8) (n : Fin 144)
  /-- DFE_LOAD (R117). A write of DFE_LOAD.LOAD sets a frozen tap, or is refused with TAP_REJECT. -/
  | dfeLoad (path : Fin 8) (n : Fin 144) (tap : Fin 16) (value : BitVec 8)
  /-- TX_FIR_WRITE (R120). A TX_FIR write is stored, and a valid setting is applied at the next block boundary, while an invalid one sets FIR_REJECT. -/
  | txFirWrite (path : Fin 8) (n : Fin 144) (pre : Fin 16) (post : Fin 32)
  /-- EYE_START (R121). A START write begins an eye measurement, is held behind a Peal measurement, or is refused with EYE_REJECT. -/
  | eyeStart (path : Fin 8) (n : Fin 144) (dwell : Fin 16) (voff : BitVec 8) (phase : BitVec 6)
  /-- EYE_DONE (R121). An eye measurement completes after its dwell, or ends INVALID on CDR unlock or LOS. -/
  | eyeDone (n : Fin 144) (errors : Nat)
  /-- BLOCK_RECEIVE (R129). A 66-bit block is received and its header is tested for block lock, and it passes the elastic buffer toward the message layer. `reads` counts the blocks the elastic buffer gives out before the next one arrives. -/
  | blockReceive (n : Fin 144) (header : BitVec 2) (payload : Payload) (reads : Fin 16)
  /-- HUNT_EXPIRED (R132). The hunt limit is reached in HUNT and the receiver enters SLIP. -/
  | huntExpired (n : Fin 144)
  /-- BITSLIP (R132). A BITSLIP write in SLIP moves the boundary one bit later, and is otherwise rejected. -/
  | bitslip (path : Fin 8) (n : Fin 144)
  /-- REHUNT (R133). A REHUNT write returns the receiver from SLIP to HUNT, or is rejected. -/
  | rehunt (path : Fin 8) (n : Fin 144)
  /-- FORCE_MANUAL_WRITE (R133). Setting or clearing FORCE_MANUAL moves block lock between HUNT and SLIP as the table gives. -/
  | forceManualWrite (path : Fin 8) (n : Fin 144) (value : Bool)
  /-- QUAD_TRANSMIT (R134). After TX_QUAD.INTERVAL other blocks the transmitter sends one QUAD. -/
  | quadTransmit (n : Fin 144)
  /-- QUAD_MISSING (R137). 4,096 blocks pass in LOCKED without a received QUAD and QUAD_MISSING is set. -/
  | quadMissing (n : Fin 144)
  /-- MARK (R41). A MARK block is received, counts as evidence of completeness and, on the sync lane, gives a sync value. The block as received, its check included. -/
  | mark (n : Fin 144) (block : Payload)
  /-- ANNOUNCE (R161). An ANNOUNCE block is received, may complete an accepted pair that sets the negotiated version and features, and starts or stops ANNOUNCE sending by SEEN. The block as received, its check included. -/
  | announce (n : Fin 144) (block : Payload)
  /-- CREDIT (R168). A CREDIT block updates the transmitter's LIMIT_F and LIMIT_M. The block as received, its check included. -/
  | credit (n : Fin 144) (block : Payload)
  /-- PROOF (R175). A received PROOF block enters or leaves the far-end loop, or is ignored with PROOF_REFUSED. The block as received, its check included. -/
  | proof (n : Fin 144) (block : Payload)
  /-- ALARM (R174). A received ALARM is stored in ALARM_RX and offered to Kryup as REMOTE_ALARM, or dropped when the feature is not agreed. The block as received, its check included. -/
  | alarm (n : Fin 144) (block : Payload)
  /-- HIT (R153). A HIT message received whole enters the alignment buffer, and the rings in direct ring mode, or on a trunk lane the fabric message port. The message as received, its checks included. -/
  | hit (n : Fin 144) (m : WireMsg)
  /-- PRIMITIVE (R153). A PRIMITIVE message received whole enters the alignment buffer or the fabric message port. The message as received, its checks included. -/
  | primitive (n : Fin 144) (m : WireMsg)
  /-- DECISION (R153). A DECISION message received whole is handled on a trunk lane as a PRIMITIVE, and on a hit lane goes to the fabric message port. The message as received, its checks included. -/
  | decision (n : Fin 144) (m : WireMsg)
  /-- ACCEPT (R275). An ACCEPT message on a trunk lane with the feature agreed is queued in every ring engine. The message as received, its checks included. -/
  | accept (n : Fin 144) (m : WireMsg)
  /-- FRAGMENT (R153). A FRAGMENT message received whole goes to the fabric message port. The message as received, its checks included. -/
  | fragment (n : Fin 144) (m : WireMsg)
  /-- MGMT_READ (R156). A MGMT_READ on a trunk lane at version 2.0 or later performs its words in order through control space and queues MGMT_RESP. The message as received, its checks included. -/
  | mgmtRead (n : Fin 144) (m : WireMsg)
  /-- MGMT_WRITE (R156). A MGMT_WRITE on a trunk lane at version 2.0 or later performs its words in order through control space and queues MGMT_RESP. The message as received, its checks included. -/
  | mgmtWrite (n : Fin 144) (m : WireMsg)
  /-- MGMT_RESP (R158). A received MGMT_RESP ends the remote requester's outstanding request, or is counted as stale. The message as received, its checks included. -/
  | mgmtResp (n : Fin 144) (m : WireMsg)
  /-- EVENT (R153). A received EVENT message goes to the fabric message port. The message as received, its checks included. -/
  | eventMessage (n : Fin 144) (m : WireMsg)
  /-- CONTROL (R155). A received CONTROL message renegotiates for code 0x0001, is dropped for other Onren codes, or passes to the fabric message port. The message as received, its checks included. -/
  | control (n : Fin 144) (m : WireMsg)
  /-- ANNOUNCE_TRANSMIT (R160). ANNOUNCE is sent at lock or renegotiation and then every 1,024 blocks until the T7 stops sending. -/
  | announceTransmit (n : Fin 144)
  /-- ANNOUNCE_TIMEOUT (R164). 4,096 blocks with no ANNOUNCE received move negotiation to ASSUMED_1_0. -/
  | announceTimeout (n : Fin 144)
  /-- RENEGOTIATE (R164). A write of LINK_CTRL.RENEGOTIATE restarts negotiation and samples PIN and LINK_FEAT. -/
  | renegotiate (path : Fin 8) (n : Fin 144)
  /-- CREDIT_TRANSMIT (R169). The T7 sends CREDIT on entering UP, within 16 blocks of a rise of a limit, and at least every 1,024 blocks. -/
  | creditTransmit (n : Fin 144)
  /-- MESSAGE_TRANSMIT (R170). At a message boundary the waiting message of highest priority that credit allows begins transmission. -/
  | messageTransmit (n : Fin 144) (ports : List PortFound)
  /-- MARK_TRANSMIT (R173). In a crossing whose number is a multiple of 2^MARK_PERIOD a MARK is sent after fabric cycle MARK_CYCLE. -/
  | markTransmit (n : Fin 144)
  /-- PROOF_ON (R175). A write of LINK_CTRL.PROOF_ON sends a PROOF with ACTION 0x01. -/
  | proofOn (path : Fin 8) (n : Fin 144)
  /-- PROOF_OFF (R175). A write of LINK_CTRL.PROOF_OFF sends a PROOF with ACTION 0x02. -/
  | proofOff (path : Fin 8) (n : Fin 144)
  /-- REM_GO (R158). A REM_CTRL.GO write issues one remote MGMT_READ or MGMT_WRITE, or ends it NOT_SENT, or is rejected while busy. `n` is the trunk lane. -/
  | remGo (path : Fin 8) (n : Fin 16) (write : Bool) (timeout : BitVec 16)
  /-- NO_RESPONSE (R158). REM_CTRL.TIMEOUT Ticks pass without a response and the remote request ends NO_RESPONSE. -/
  | noResponse (n : Fin 16)
  /-- RES_ERR (R185). A tally unit asserts RES_ERR and the tile counts and logs it. Each tally unit that asserts RES_ERR, with its mode. -/
  | resErr (c : Fin 256) (upper : Bool) (slips : List (Fin 24 × BitVec 56))
  /-- DRIVE_CONFLICT (R192). A shaft ownership conflict in the active plate is detected, logged, the plate is marked faulted, and its galleys enter FAULTED. A conflict appears in a plate in force. -/
  | driveConflict (c : Fin 256) (shafts : List (Fin 1024))
  /-- RECEIVE_QUEUE_WRITE (R200). A message for the fabric message port is written into the receive queue once it fits, and the lane's credit rises. -/
  | receiveQueueWrite (n : Fin 144) (ports : List PortFound)
  /-- SEND_QUEUE_EXAMINE (R200). At TX_CYCLE of every crossing the T7 examines the send queue head and queues its valid entries for transmission. -/
  | sendQueueExamine (n : Fin 144) (ports : List PortFound)
  /-- FILL_LP (R209). PCMD OP FILL_LP fills a stage slot from a plate store in LPDDR5X. The PCMD write that gives it; the other operands stand in their registers. -/
  | fillLp (path : Fin 8) (plate : Byte) (sslot : Fin 4) (pslot : Fin 4)
  /-- FILL_STREAM (R210). PCMD OP FILL_STREAM opens PSTREAM_DATA to fill a stage slot from a streamed PLATE_FRAMES record. The PCMD write that gives it; the other operands stand in their registers. -/
  | fillStream (path : Fin 8) (plate : Byte) (sslot : Fin 4) (pslot : Fin 4)
  /-- STAGE (R212). PCMD OP STAGE copies a stage slot into a plate slot in every group of the mask. The PCMD write that gives it; the other operands stand in their registers. -/
  | plateStage (path : Fin 8) (plate : Byte) (sslot : Fin 4) (pslot : Fin 4)
  /-- SWITCH (R216). PCMD OP SWITCH schedules a plate slot to take effect in the groups of the mask at a target crossing. The PCMD write that gives it; the other operands stand in their registers. -/
  | plateSwitch (path : Fin 8) (plate : Byte) (sslot : Fin 4) (pslot : Fin 4)
  /-- CYCLE (R221). PCMD OP CYCLE schedules a cycle list to start in the groups of the mask at a target crossing. The PCMD write that gives it; the other operands stand in their registers. -/
  | plateCycle (path : Fin 8) (plate : Byte) (sslot : Fin 4) (pslot : Fin 4)
  /-- CANCEL (R216). PCMD OP CANCEL removes the pending switch or cycle start of the groups of the mask. The PCMD write that gives it; the other operands stand in their registers. -/
  | plateCancel (path : Fin 8) (plate : Byte) (sslot : Fin 4) (pslot : Fin 4)
  /-- CLEAR (R215). PCMD OP CLEAR empties a plate slot that is not in force. The PCMD write that gives it; the other operands stand in their registers. -/
  | plateClear (path : Fin 8) (plate : Byte) (sslot : Fin 4) (pslot : Fin 4)
  /-- PSTREAM_DATA_WRITE (R210). A word written to PSTREAM_DATA is taken as the next word of the streamed record, or sets STREAM_ERR when no stream fill is open. -/
  | pstreamDataWrite (path : Fin 8) (value : Word)
  /-- FILL_DONE (R209). A fill ends, its groups are marked valid by CRC, and the stage slot becomes READY or EMPTY. `met` lists what its transfers met, by column and port. -/
  | fillDone (met : List (Fin 256 × FillPort × PortFound))
  /-- STAGE_DONE (R212). A staging copy ends, and each plate slot becomes VALID or ACTIVE, or FAULTED by R213. What the copy found, by column. -/
  | stageDone (seen : List (Nat × PlateSeen))
  /-- PLATE_SWITCH_AT_T (R218). At fabric cycle 0 of the target crossing the pending switch or cycle start takes effect in the group, or fails by R220. -/
  | plateSwitchAtT (g : Fin 16)
  /-- PLATE_SCRUB_SLOT (R224). A scrub slot reads back frame rows of plate and stage slots, corrects single-bit errors and detects uncorrectable words and conflicts. -/
  | plateScrubSlot (c : Fin 256) (upper : Bool) (stage : Bool) (slot : Fin 4) (first : Fin 2592) (seen : PlateSeen)
  /-- PLATE_RELOAD (R227). With AUTO_RECOVER set, a faulted slot is reloaded from a READY stage slot holding the same plate when no data command runs. -/
  | plateReload
  /-- RELOAD_DONE (R227). A reload ends good, the slot returns to service and the faulted galleys are reset and re-enabled, or RELOAD_FAIL is set. -/
  | reloadDone (seen : PlateSeen)
  /-- ROW_READ (R234). A row port read is granted and returns a corrected row with its status. `reserved` tells a request whose RP_OP is 0b11. -/
  | rowRead (c : Fin 256) (upper : Bool) (bank : Fin 8) (row : Fin 2048) (reserved : Bool) (found : PortFound)
  /-- ROW_WRITE (R235). A row port write writes the masked row words with fresh check bits. -/
  | rowWrite (c : Fin 256) (upper : Bool) (bank : Fin 8) (row : Fin 2048) (mask : BitVec 8) (data : Row) (found : PortFound)
  /-- ROW_TALLY (R241). A row tally reads a row, adds the increment vector and writes the row, or writes nothing on a residue mismatch. -/
  | rowTally (c : Fin 256) (upper : Bool) (bank : Fin 8) (row : Fin 2048) (wide : Bool) (sat : Bool) (vec : Row) (slips : List (Nat × Nat)) (found : PortFound)
  /-- TWIN_READ (R244). A twin-port read of bank 7 returns a row word, subject to collisions. -/
  | twinRead (c : Fin 256) (portB : Bool) (row : Fin 2048) (word : Fin 8) (meet : TwinMeet) (upsets : List (Nat × Nat))
  /-- TWIN_WRITE (R246). A twin-port write of a row word is performed, or ends BUSY on a collision. -/
  | twinWrite (c : Fin 256) (portB : Bool) (row : Fin 2048) (word : Fin 8) (data : RowWord) (meet : TwinMeet)
  /-- BASE_PORT_READ (R248). A base-port read moves one row word from a bank to B0. -/
  | basePortRead (c : Fin 256) (bank : Fin 8) (row : Fin 2048) (word : Fin 8) (user : BaseUser) (waited : Nat) (found : PortFound)
  /-- BASE_PORT_WRITE (R248). A base-port write writes a row word, by read-modify-write when it is partial. -/
  | basePortWrite (c : Fin 256) (bank : Fin 8) (row : Fin 2048) (word : Fin 8) (ben : BitVec 32) (data : RowWord) (user : BaseUser) (waited : Nat) (found : PortFound)
  /-- VIA_COUNT_DECAY (R29). Every 2^20 row cycles each via's corrected-error count loses 1. -/
  | viaCountDecay
  /-- CORRECTED_WRITEBACK (R240). A corrected row word is written back at priority 5 unless a write reaches it first. -/
  | correctedWriteback (word : Nat) (cycle : BankCycle)
  /-- MEM_SCRUB_ACCESS (R249). The column's scrub engine reads one row, corrects it and logs uncorrectable words. -/
  | memScrubAccess (c : Fin 256) (bank : Fin 9) (row : Fin 2048) (upsets : List (Nat × Nat)) (cycle : BankCycle)
  /-- SCRUB_LATE (R249). A memory scrub pass that does not end within twice its period sets SCRUB_LATE and the next pass starts. -/
  | scrubLate (c : Fin 256)
  /-- ROW_REMAP (R250). A tracked row reaching ROW_THRESH is copied into a spare row and redirected, or ROW_SPARES_OUT is set. Bank 8 is the relief bank of the column's group. -/
  | rowRemap (c : Fin 256) (bank : Fin 9) (row : Fin 2048) (cycle : BankCycle)
  /-- BANK_INIT (R251). When a MEM_Q domain comes on, every row of its banks is written to 0 with correct check bits. -/
  | bankInit (q : Fin 4)
  /-- MARCH_GO (R252). A MARCH_CTRL.GO write starts a march on the named banks, or is ignored with MARCH_REJECT. -/
  | marchGo (path : Fin 8) (c : Fin 256) (mode : Bool) (banks : BitVec 8)
  /-- MARCH_DONE (R252). A march completes and reports the banks tested and the banks with uncovered faults. -/
  | marchDone (c : Fin 256) (faults : List (Fin 8 × Bool × Fin 2128))
  /-- CLOCK_VIA_FAIL (R23). The checker sees 2 missed edges, fences the column, activates the next clock via and faults the column's galleys, or loses the column. -/
  | clockViaFail (c : Fin 256)
  /-- CLOCK_VIA_RESTART (R23). At the first crossing at least 64 fabric cycles after detection the column's clocks restart and its fence releases. -/
  | clockViaRestart (c : Fin 256)
  /-- PUSH (R264). A push port push is carried to its engine's input FIFO, or refused with PP_ERRV. -/
  | push (port : Fin 32) (ring : BitVec 18) (cross : BitVec 48) (tag : Byte) (late : Bool) (data : BitVec 192)
  /-- GAP_RECORD_HANDOFF (R268). The FIFO occupancy falls to RESUME and the overflow record passes to the gap writer. -/
  | gapRecordHandoff (e : Fin 16)
  /-- GAP_WRITTEN (R268). The gap writer has written the gap slots of its record. -/
  | gapWritten (e : Fin 16) (ports : List PortFound) (tree : List TreeUpset)
  /-- SLOT_WRITE (R271). The storage writer writes a slot into its ring, overwriting the oldest when full, and updates the tally tree. -/
  | slotWrite (e : Fin 16) (descBad : Bool) (port : PortFound) (tree : List TreeUpset)
  /-- SWEEP_VISIT (R270). The sweeper visits the next OPEN ring and reclaims and checkpoints it when due. -/
  | sweepVisit (e : Fin 16) (descBad : Bool) (tree : List TreeUpset)
  /-- FLUSH_DONE (R273). A jump flush pass over all descriptors ends and FLUSHING clears. -/
  | flushDone (e : Fin 16) (tree : List TreeUpset)
  /-- OPEN (R262). RING_CMD OP OPEN opens a CLOSED ring after checking its state, capacity and base. -/
  | openRing (path : Fin 8) (e : Fin 16) (ring : Fin 16384)
  /-- CLOSE (R263). RING_CMD OP CLOSE closes a ring and abandons its slots. -/
  | closeRing (path : Fin 8) (e : Fin 16) (ring : Fin 16384)
  /-- REBUILD (R283). RING_CMD OP REBUILD starts a full bottom-up rebuild of the engine's tally tree. -/
  | rebuild (path : Fin 8) (e : Fin 16)
  /-- REBUILD_DONE (R283). A full tree rebuild ends and REBUILD_DONE is set. -/
  | rebuildDone (e : Fin 16)
  /-- EXTRACT (R276). An engine takes the next queued accept and scans the mapped groups' rings for matching slots. -/
  | extract (e : Fin 16) (bad : List Nat) (ports : List PortFound)
  /-- FRAGMENT_SEND (R278). A group's selected slots are sent as FRAGMENT messages to a trunk lane or the readout queue. -/
  | fragmentSend (e : Fin 16)
  /-- READOUT_QUEUE_WRITE (R279). A fragment entry is written into the readout queue once room exists, and RQ_WR advances. -/
  | readoutQueueWrite (e : Fin 16) (ports : List PortFound)
  /-- STK_ACC_SAMPLE (R301). At ACC_CYCLE the port samples STK_ACC and, when it is asserted, extends the accept's crossing and passes it to every ring engine or refuses it. The levels at the input receivers; a proof loop takes the output pads in their place, with `num`, `type` and `acc` the errors on the looped signals at depth 2. -/
  | stkAccSample (acc : Bool) (type : Fin 16) (num : BitVec 12)
  /-- FDP_READ (R321). A fabric data port read of LPDDR5X returns the decrypted verified line, or zeros with a failure status. -/
  | fdpRead (port : Fin 4) (addr : BitVec 56) (found : Found)
  /-- FDP_FULL_WRITE (R322). A full-line write encrypts and writes the line with fresh ECC, TAG and STATE. -/
  | fdpFullWrite (port : Fin 4) (addr : BitVec 56) (data : Line) (poison : Bool) (found : Found)
  /-- FDP_PARTIAL_WRITE (R323). A partial write reads and verifies the line, merges the bytes and rewrites it, or leaves it unchanged on failure. -/
  | fdpPartialWrite (port : Fin 4) (addr : BitVec 56) (ben : BitVec 64) (data : Line) (found : Found)
  /-- MC_INIT_DONE (R327). A controller finishes training and initialisation and completes its start. -/
  | mcInitDone (w : Fin 2) (trained : BitVec 8)
  /-- MC_RETRAIN (R329). Every 64 Ticks each channel is retrained, and a channel failing twice is faulted. -/
  | mcRetrain (w : Fin 2) (failed : BitVec 8)
  /-- MC_SCRUB_LINE (R330). The controller scrub checks one line's ECC and corrects or poisons it. -/
  | mcScrubLine (line : Nat) (found : Found)
  /-- MOVER_GO (R332). A MV_CTRL.GO write starts a descriptor chain at MV_DESC, or is rejected. -/
  | moverGo (path : Fin 8) (m : Fin 8)
  /-- DESCRIPTOR_END (R333). A mover descriptor ends, writes its STAT and continues the chain or stops it. -/
  | descriptorEnd (m : Fin 8) (ports : List PortFound)
  /-- REGION_WRITE (R336). A write to a region register is stored only while the encryption engine is STOPPED or OFF, and otherwise sets CTRL_REJECT. -/
  | regionWrite (path : Fin 8) (r : Fin 16) (k : Fin 4) (value : Word)
  /-- COLOPHON (R339). The 256-byte colophon is received and checked for magic, CRC, format, device, stepping, grade and hash. Here and in the records of an image, `flash` is what a load from SPI0 reads next; a stream brings its words over LD_DATA. -/
  | colophon (flash : List Word)
  /-- SIGNATURE (R359). The signature block is verified against the verification key hash at SIGNER, or the unsigned rule applies. -/
  | signature (flash : List Word) (meet : AccessMeet)
  /-- GALLEY_OPEN (R344). A GALLEY_OPEN record declares a user unit or the forme and its shell and occupancy. -/
  | galleyOpen (flash : List Word)
  /-- GALLEY_CLOSE (R343). A GALLEY_CLOSE record closes the innermost galley. -/
  | galleyClose (flash : List Word)
  /-- PLATE_FRAMES (R345). A PLATE_FRAMES record is decompressed and verified into its stage slot and, when RESIDENT, plate slot 0. `seen` gives, by column, what the staging copy finds. -/
  | plateFrames (flash : List Word) (seen : List (Nat × PlateSeen))
  /-- INIT_VALUES (R349). An INIT_VALUES record loads INIT bits of the named lines into the INIT store. -/
  | initValues (flash : List Word)
  /-- PIN_TABLE (R350). A PIN_TABLE record gives pin functions and safe states, checked for validity. -/
  | pinTable (flash : List Word)
  /-- UNIT_SETTINGS (R351). A UNIT_SETTINGS record sets the unit's interface version and register values to apply before release. -/
  | unitSettings (flash : List Word)
  /-- RING_MAP (R353). A RING_MAP record gives ring descriptors to open and channel map entries to write. -/
  | ringMap (flash : List Word)
  /-- MEMORY_PRELOAD (R354). A MEMORY_PRELOAD record gives data to write into the memory die after initialisation. -/
  | memoryPreload (flash : List Word)
  /-- THERMAL_MAP (R355). A THERMAL_MAP record gives the hot columns of each logic die, checked against the checkerboard. -/
  | thermalMap (flash : List Word)
  /-- DRIVE_MAP (R356). A DRIVE_MAP record gives the shaft ownership and stream digest of one plate number. -/
  | driveMap (flash : List Word)
  /-- LATENCY (R358). A LATENCY record gives L, R, C, S, N, the decision sources and the decision galleys, checked by R358. -/
  | latency (flash : List Word)
  /-- OPTIONAL_RECORD (R342). An optional record of an unimplemented kind is CRC-checked, digested and skipped. -/
  | optionalRecord (flash : List Word)
  /-- END (R362). The END record closes the image, the digest and whole-image checks run, and settings, rings and preloads are applied. -/
  | endRecord (flash : List Word) (meet : AccessMeet)
  /-- POWER_ON (R367). VCC_AO passes its threshold, the AO reset is released, straps are sampled, SIO and the Tick start and Kryup starts. The operands are the straps. -/
  | powerOn (xaFreq : Fin 8) (xaWait : Fin 8) (xbWait : Fin 8)
  /-- SUPPLIES_GOOD (R367). Every required supply reports power-good and after 1.0 ms the start proceeds to FIO start. The rails that report power-good, in the order of R428, and the detected levels of the I/O banks. -/
  | suppliesGood (rails : BitVec 19) (vccio : BitVec 16)
  /-- FIO_STABLE (R391). FIO is judged stable by the cycles `c0` and `c1` counted in two consecutive Ticks, the boot record is read and the crystal delays begin. -/
  | fioStable (c0 c1 : Nat)
  /-- FIO_START_TIMEOUT (R391). FIO is not stable within 64 Ticks, it has failed and waiting nets restart on the Tick. -/
  | fioStartTimeout
  /-- CRYSTAL_DELAY_DONE (R368). A crystal's start delay has run, it is checked for edges, and the PLLs begin to lock. `kHz` is the frequency that the crystal shows, 0 without edges. -/
  | crystalDelayDone (xb : Bool) (kHz : Nat)
  /-- PLL_LOCK (R393). A PLL's phase error stays within its limit for 1,024 reference periods and lock is declared. -/
  | pllLock (p : Fin 4) (mapBad : Bool)
  /-- PLL_LOCK_TIMEOUT (R415). A PLL does not lock within 25 Ticks and its start fails with UNLOCK. -/
  | pllLockTimeout (p : Fin 4) (mapBad : Bool)
  /-- BOOT_BIST_DONE (R468). Boot BIST ends and its faults become repair entries. -/
  | bootBistDone (entries : List Word) (logic : List (Fin 256)) (droop : List (Fin 5 × Fin 256 × Fin 4)) (b0 : Bool) (ms : Nat)
  /-- BOOT_SOURCE_TRY (R372). The loader tries the next boot source entry in ORDER. `tables` tells that the flash has the tables of octal operation. -/
  | bootSourceTry (tables : Bool)
  /-- TRUNK_WAIT_EXPIRY (R372). TRUNK_WAIT Ticks pass without a trunk load and the entry fails. -/
  | trunkWaitExpiry
  /-- LD_OPEN (R374). A write of LD_CTRL.OPEN opens a stream load for the writing path, or sets OPEN_REJECT. -/
  | ldOpen (path : Fin 8)
  /-- ABORT (R374). A write of LD_CTRL.ABORT ends the open load ABORTED and undoes it. -/
  | loadAbort (path : Fin 8)
  /-- REAPPLY (R388). A write of LD_CTRL.REAPPLY rereads the released image and restores its B0 settings and ring maps. -/
  | reapply (path : Fin 8)
  /-- LD_DATA_WRITE (R374). A word written to LD_DATA by the opening path is taken as the next 4 image bytes. -/
  | ldDataWrite (path : Fin 8) (value : Word)
  /-- LOAD_TIMEOUT (R374). No LD_DATA word arrives for TIMEOUT Ticks and the load is rejected TIMEOUT. -/
  | loadTimeout
  /-- MAIN_PATH_RELEASE (R378). At fabric cycle 0 of the target crossing the forme is released: INIT values load, fences release and LATENCY and IMAGE_ID appear. -/
  | mainPathRelease
  /-- STAGED_OUTPUTS (R379). At the outputs edge of a staged release the unit's fence cells release. -/
  | stagedOutputs (unit : Nat)
  /-- STAGED_WRITE_ENABLES (R379). GAP_WE fabric cycles after the outputs stage the unit's hard-port requests take effect. -/
  | stagedWriteEnables (unit : Nat)
  /-- STAGED_RESET (R379). GAP_RST fabric cycles after the write-enable stage the reset hold ends and the unit is RELEASED. -/
  | stagedReset (unit : Nat)
  /-- RESET_N (R460). RESET_N held low for at least 1 us causes a device reset. -/
  | resetN
  /-- RST_REQ_DEVICE (R460). A write of RST_REQ.DEVICE with KEY 0xC3 causes a device reset, and otherwise raises KW_WRITE. -/
  | rstReqDevice (path : Fin 8) (key : Byte)
  /-- RST_REQ_WARM (R460). A write of RST_REQ.WARM with KEY 0xC3 causes a base warm reset, and otherwise raises KW_WRITE. -/
  | rstReqWarm (path : Fin 8) (key : Byte)
  /-- WARM_RESET_END (R461). After the reset hold the B0 units come out to STOPPED and at the next crossing edge the base ports reopen and VFENCE returns to 0. -/
  | warmResetEnd
  /-- MONITOR_TRIP (R406). A clock monitor finds its source dead or out of range and the dependent nets fall back by R406. Monitors 0 to 3 measure SIO, FIO, XA and XB; `kHz` is the frequency measured. -/
  | monitorTrip (m : Fin 4) (dead : Bool) (kHz : Nat)
  /-- SOURCE_BACK (R405). A tripped source is in range for 16 windows, TRIPPED clears and SOURCE_BACK is set. -/
  | sourceBack (m : Fin 4) (kHz : Nat)
  /-- PLL_UNLOCK (R406). CPLL or MPLL loses lock and the dependent net or channels fall back or fault. `mem` tells MPLL from CPLL. -/
  | pllUnlock (mem : Bool)
  /-- ROOT_FAIL (R397). The active fabric root fails and the trunk moves to the aligned standby root, or to FIO. -/
  | rootFail
  /-- STANDBY_ROOT_FAIL (R397). The standby root loses lock or misses edges, enters FAULTED and the trunk loses its standby. -/
  | standbyRootFail
  /-- ROOT_SWAP (R398). A CLK_CMD.ROOT_SWAP write makes the aligned standby root active at the next crossing edge, or is refused. -/
  | rootSwap (path : Fin 8)
  /-- TRUNK_GO (R400). A CLK_CMD.TRUNK_GO write switches CK_TRUNK to TRUNK_TO by stop-switch-restart, or is refused. `to` is TRUNK_TO. -/
  | trunkGo (path : Fin 8) (dest : Fin 4)
  /-- REG_GO (R401). A CLK_CMD.REG_GO write switches CK_REG to REG_TO by stop-switch-restart, or is refused. `to` is REG_TO. -/
  | regGo (path : Fin 8) (dest : Fin 2)
  /-- RELOCK_STANDBY_LOCK (R399). The standby root locks to the new reference and ratio and the trunk is moved to it, or the change is abandoned after 25 Ticks. -/
  | relockStandbyLock (locked : Bool)
  /-- NET_STOP (R401). A net stops at a cycle boundary and the multiplexer moves to the new source. `trunk` tells CK_TRUNK, which stops at a crossing edge, from CK_REG. -/
  | netStop (trunk : Bool)
  /-- SWITCH_FORCED (R402). A stop request not acknowledged within 16 Ticks forces the switch with the counter marked unknown. -/
  | switchForced (trunk : Bool)
  /-- NET_RESTART (R401). After 8 new-clock cycles, or at the restart crossing edge for the trunk, the net restarts and its counter advances. For CK_TRUNK: `lost` counts the fabric cycles of the new clock since the stop edge, and the rest is what the restart edge meets, as CROSSING_EDGE. -/
  | netRestart (trunk : Bool) (lost : Nat) (a : DpSample) (b : DpSample)
  /-- FIO_RETRY (R408). Every 1,024 Ticks after FIO has failed it is restarted once. -/
  | fioRetry
  /-- TICK (R389). A Tick elapses; the supply monitors, thermal sensors and governor and the Tick-counted timers are evaluated. What the sensors read, the register-clock cycles since the last Tick, and the monitors' measurements in kHz. -/
  | tick (common : BitVec 9) (temps : List (Fin 2560 × BitVec 9)) (regCycles : Nat) (freqs : List (Fin 4 × Nat))
  /-- MODE_REQ (R419). A MODE_REQ.GO write requests a mode and the transition begins, or is refused with a code. `ack`: the VCC_FAB regulator acknowledges a request and declares ULINEAR16. -/
  | modeReq (path : Fin 8) (target : Fin 16) (ack : Bool)
  /-- MODE_ENTERED (R421). At the first crossing edge after a transition's steps are done MODE takes the target value. -/
  | modeEntered (ack : Bool)
  /-- PMBUS_SETTLE_DONE (R429). PMB_CFG.SETTLE us after a VOUT_COMMAND the voltage is taken as settled. -/
  | pmbusSettleDone (settled : Bool)
  /-- READ_IOUT (R429). Every 64 Ticks the T7 reads READ_IOUT into PMB_STATUS.IOUT. -/
  | readIout (ack : Bool) (amps : BitVec 16)
  /-- WAKE_N (R423). A falling edge on WAKE_N, when enabled, wakes the T7 from DORMANT. -/
  | wakeN
  /-- SPI1_CS_WAKE (R423). Assertion of the SPI1 chip select, when enabled, wakes the T7 from DORMANT. -/
  | spi1CsWake
  /-- DORM_TIMER (R423). DORM_TIMER Ticks after entry into DORMANT, when enabled, the T7 wakes. -/
  | dormTimer
  /-- PD_WRITE (R425). A write of PD.ON requests a power domain on with its prerequisites, or off, or is refused with DEP_REJECT. -/
  | pdWrite (path : Fin 8) (k : Fin 40) (on : Bool)
  /-- POWER_GOOD (R424). A ramping domain reaches power-good and its units leave OFF. -/
  | powerGood (k : Fin 40)
  /-- RAMP_FAIL (R426). A domain not power-good within 4 Ticks of its request enters FAULT. -/
  | rampFail (k : Fin 40)
  /-- PG_LOST (R426). A domain that is on loses power-good, enters FAULT and its units enter OFF. -/
  | pgLost (k : Fin 40)
  /-- DROOP_SENSE (R433). A droop sensor reports a level and the group enters or raises a Damper episode, with the first swallow within 3 ns. `remain` counts the swallow positions left in the crossing. -/
  | droopSense (c : Fin 256) (layer : Fin 5) (sensor : Fin 4) (two : Bool) (remain : Nat)
  /-- EPISODE_END (R434). No sensor of the group has reported for 64 x (1 + HOLD) fabric cycles and the episode ends. -/
  | episodeEnd (g : Fin 16)
  /-- WIDENED (R434). An episode unbroken for 64 x WIDEN fabric cycles widens to its quadrant and DROOP is offered to Kryup. -/
  | widened (g : Fin 16)
  /-- GROUP_ADMIT (R436). The admission queue admits the next column group after its interval and its fabric clock runs. -/
  | groupAdmit
  /-- BACKGROUND_GRANT (R440). A column's free background token is granted to a waiting staging or reload, or to the next activity in rotation. `paced` marks the activities that their pacing makes wait, by code; `tally` tells that a row tally is in progress in the column. -/
  | backgroundGrant (c : Fin 256) (paced : BitVec 6) (tally : Bool)
  /-- GOVERNOR_P_T_ADJUST (R443). Every 64 Ticks while step 2 stands, P_T rises or falls by P. -/
  | governorPTAdjust (g : Fin 16)
  /-- THERMAL_TRIP (R444). A sensor comparator reaches 110 C, VFAB_EN is driven low within 10 us and the trip latches. -/
  | thermalTrip (layer : Fin 5) (c : Fin 256)
  /-- SUPPLY (R448). A rail outside its limits for 2 consecutive Ticks raises cause SUPPLY. -/
  | supply (rail : Fin 19)
  /-- CAUSE_LATCH_CLEAR (R450). HOLD Ticks after the cause last arrived its latch clears and its actions end. -/
  | causeLatchClear (c : Fin 17)
  /-- WATCHDOG_KICK (R459). A change of level of DP_KICK at source A restarts the watchdog count. -/
  | watchdogKick
  /-- WATCHDOG (R459). PERIOD Ticks pass without a kick and Kryup raises WATCHDOG, again at every Tick until a kick. -/
  | watchdog
  /-- PROP_OPEN (R456). A write of PROP_CTRL.OPEN empties and opens the proposal buffer. -/
  | propOpen (path : Fin 8)
  /-- PROP_DATA_WRITE (R456). A word written to PROP_DATA while open is appended to the proposal. -/
  | propDataWrite (path : Fin 8) (value : Word)
  /-- SUBMIT (R456). A write of PROP_CTRL.SUBMIT closes the buffer for application at the next device reset. -/
  | propSubmit (path : Fin 8)
  /-- DISCARD (R456). A write of PROP_CTRL.DISCARD discards the staged proposal. -/
  | propDiscard (path : Fin 8)
  /-- BIST_CMD (R469). A BIST_CMD.GO write runs a destructive service BIST on the named groups, or is ignored with BIST_REJECT. -/
  | bistCmd (path : Fin 8) (b0 : Bool) (groups : BitVec 16)
  /-- BIST_DONE (R469). A service BIST ends, its repairs apply and the tested storage is initialised. The entries it makes, columns with a logic fault, an uncovered fault of B0, and its duration. -/
  | bistDone (entries : List Word) (logic : List (Fin 256)) (b0 : Bool) (ms : Nat)
  /-- PEAL_SLICE (R471). Peal starts its next slice of the tour when the mode permits and the column's token is granted. -/
  | pealSlice (c : Fin 256) (work : PealWork) (tour : Bool) (late : Bool)
  /-- RELIEF_PHASE_END (R472). A bank relief's copy-out, march or copy-back ends and the relief moves to its next phase or ends. -/
  | reliefPhaseEnd (g : Fin 16) (faults : List (Bool × Fin 2128))
  /-- PEAL_PRIV (R480). A PEAL_PRIV.GO write isolates, tests and releases a privileged unit in PROOF mode, or is ignored with PRIV_REJECT. -/
  | pealPriv (path : Fin 8) (target : Fin 4)
  /-- PRIV_DONE (R480). A privileged-unit test ends, the unit is released and the result reported. -/
  | privDone (fail : Bool)
  /-- COMMIT (R484). REP_CMD OP COMMIT appends one log entry's W0 to the soft repair map. -/
  | repCommit (path : Fin 8) (index : Fin 4096)
  /-- COMMIT_ALL (R484). REP_CMD OP COMMIT_ALL appends every qualifying log entry to the soft repair map. -/
  | repCommitAll (path : Fin 8) (index : Fin 4096)
  /-- REMOVE (R484). REP_CMD OP REMOVE removes one soft map entry, refused LOCKED while the fuse is closed. -/
  | repRemove (path : Fin 8) (index : Fin 4096)
  /-- ERASE (R484). REP_CMD OP ERASE empties the soft repair map, refused LOCKED while the fuse is closed. -/
  | repErase (path : Fin 8) (index : Fin 4096)
  /-- REP_CMD_DONE (R484). A repair map command ends and REP_STATUS reports its result. -/
  | repCmdDone (flashErr : Bool)
  /-- REP_FUSE_WRITE (R485). A write of REP_FUSE by Kryup burns one repair entry into the fuse array, or sets FUSE_FAIL. -/
  | repFuseWrite (path : Fin 8) (value : Word)
  /-- SCAN_ENTER (R487). The JTAG SCAN_ENTER instruction, when permitted, zeroises keys and connects the scan chains, else selects BYPASS. -/
  | scanEnter
  /-- INJECT (R493). A PRF_CTRL.INJECT write corrupts the next item generated by the proof loop. -/
  | proofInject (path : Fin 8) (unit : Nat)
  /-- PROOF_SYNC_LOSS (R494). More than 1,000 bit errors in 1,024 blocks clear the checker's SYNC, and it reseeds. -/
  | proofSyncLoss (n : Fin 144)
  /-- PIN_MUX_WRITE (R509). A PIN_MUX write switches pin functions with the pad latched through the switch, refusing invalid codes. -/
  | pinMuxWrite (path : Fin 8) (k : Fin 40) (value : Word)
  /-- PIN_IRQ (R512). An edge or level on a pin sets its IRQ_PEND bit by IRQ_MODE. `level` is the level that the world now shows on the pad. -/
  | pinIrq (p : Fin 320) (level : Bool)
  /-- VCCIO_LOSS (R514). A bank's VCCIO falls below threshold and its pins enter hot-socket state within 1 us. -/
  | vccioLoss (b : Fin 8)
  /-- SPI1_FRAME (R517). An SPI1 frame delimited by CS_N carries one control-space READ or WRITE. -/
  | spi1Frame (bytes : List Byte)
  /-- JTAG_DEBUG (R519). An Update-DR of the DEBUG register with GO issues a control-space access on path 0x6. -/
  | jtagDebug (addr : Word) (data : Word) (write : Bool) (go : Bool)
  /-- EXTEST (R519). The JTAG EXTEST instruction connects the boundary register to the pins. `cells` gives what Update-DR loads: high impedance, low or high, by pin, and from 320 on by Strike Port pair. -/
  | extest (cells : List (Fin 340 × Fin 3))
  /-- IDCODE (R519). The JTAG IDCODE instruction selects the 32-bit identity register. -/
  | idcode
  /-- SAMPLE_PRELOAD (R519). The JTAG SAMPLE/PRELOAD instruction selects the boundary register without driving it. -/
  | samplePreload (cells : List (Fin 340 × Fin 3))
  /-- CLAMP (R519). The JTAG CLAMP instruction holds the boundary values with bypass selected. -/
  | clamp
  /-- HIGHZ (R519). The JTAG HIGHZ instruction places outputs in high impedance with bypass selected. -/
  | highz
  /-- EXTEST_PULSE (R519). The JTAG EXTEST_PULSE instruction drives the IEEE 1149.6 lane cells. -/
  | extestPulse
  /-- EXTEST_TRAIN (R519). The JTAG EXTEST_TRAIN instruction drives the IEEE 1149.6 lane cells. -/
  | extestTrain
  /-- BYPASS (R519). The JTAG BYPASS instruction, or any unlisted opcode, selects the 1-bit bypass register. -/
  | bypass
  /-- SER_CMD (R518). A SER_CMD.GO write issues an SPI0 or I2C host command, or is refused with CMD_REJECT. -/
  | serCmd (path : Fin 8) (p : Fin 6) (value : Word)
  /-- SER_CMD_DONE (R518). A serial command ends and DONE, ERR or ARB_LOST is set. -/
  | serCmdDone (p : Fin 6) (sent : Nat) (got : List Byte) (err : Bool) (arb : Bool)
  /-- SER_TX_WRITE (R518). A SER_TX write pushes a byte into the TX FIFO, or is dropped with ERR when the FIFO is full. -/
  | serTxWrite (path : Fin 8) (p : Fin 6) (x : Byte)
  /-- SER_RX_READ (R518). A SER_RX read returns and removes the head of the RX FIFO. -/
  | serRxRead (path : Fin 8) (p : Fin 6)
  /-- SERIAL_BYTE_RECEIVED (R518). A UART or I2C target byte is received into the RX FIFO, or dropped or NAKed when it is full. -/
  | serialByteReceived (p : Fin 6) (x : Byte) (bad : Bool)
  /-- READ (R520). FL_CMD OP READ reads one embedded flash word into FL_DATA. The address and data are those that FL_ADDR and FL_DATA hold. -/
  | flashRead (path : Fin 8)
  /-- PROGRAM (R520). FL_CMD OP PROGRAM writes one flash word, or ends LOCKED in a protected area. The address and data are those that FL_ADDR and FL_DATA hold. -/
  | flashProgram (path : Fin 8)
  /-- ERASE_SECTOR (R520). FL_CMD OP ERASE clears one 4 KiB flash sector, or ends LOCKED in a protected area. The address and data are those that FL_ADDR and FL_DATA hold. -/
  | eraseSector (path : Fin 8)
  /-- FL_CMD_DONE (R520). A flash command ends and FL_STATUS reports OK, LOCKED or FAIL. -/
  | flCmdDone (fail : Bool)
  /-- VCCIO_GOOD (R514). A bank's VCCIO returns above its threshold, Kryup declares it good, BANK_EVENT.PG_BACK is set and its pins may leave hot-socket state. -/
  | vccioGood (b : Fin 8) (level : Fin 3)
  /-- VCC_AO_LOSS (R548). VCC_AO falls below its threshold, every pin enters hot-socket state, VFAB_EN is pulled low and a dip of 10 us or more forces a power-on reset. `long` tells that it lasts 10 µs or more. -/
  | vccAoLoss (long : Bool)
  /-- DROOP_SENSOR_CLEAR (R434). The droop sensors of a group stop reporting a level, or drop from level 2 to level 1, and the episode falls to level 1 and begins its quiet interval. -/
  | droopSensorClear (g : Fin 16) (one : Bool)
  /-- REF_SEL_WRITE (R399). A write that changes KEEP_CTRL.REF_SEL starts a change of the fabric roots' reference by the relock sequence. -/
  | refSelWrite (path : Fin 8) (xb : Bool)
  /-- VSET_WRITE (R429). A VSET write for the mode in force issues a PMBus VOUT_COMMAND request at once, which may fail with PMB_ERR. `b` tells VSET_B from VSET_A. -/
  | vsetWrite (path : Fin 8) (b : Bool) (value : Word) (ack : Bool)
  /-- DRAM_HOT (R307). An LPDDR5X device reports via MR4 a changed refresh rate, the controller rescales refresh and sets DRAM_HOT when the rate exceeds 2x. -/
  | dramHot (w : Fin 2) (rate : Nat)
  /-- SERIAL_BYTE_SENT (R518). A UART transmits, or an I2C target host reads, the byte at the head of the TX FIFO, and DONE is set when the UART TX FIFO empties. -/
  | serialByteSent (p : Fin 6)
deriving DecidableEq, Repr, Inhabited

end Sys2Proof
end

