-- ==== Sys2Proof/Config.lean ====
section
/-!
DEFINITION. The free values and the uninterpreted functions of the model. Every constant here has no body:
nothing can be proved of its value, so a statement about it holds whatever it is. A free value is taken by
applying the constant to the state's counter `free`, which the step then advances (log entry 2).
-/
namespace Sys2Proof

/-! ## What the plate bits of a tile select (R177 to R194)

The spec gives the resources, what each can do and how many plate bits it takes (R178); the places and the codes of those bits are
Finnak's (log entry 113). -/

/-- The set/reset modes of a flip-flop (R180). -/
inductive SrMode where
  | none | syncSet | syncReset | asyncSet | asyncReset
deriving DecidableEq, Repr, Inhabited

/-- A value inside a cell: a LUT output, a sum bit of the carry or a flip-flop, each of its first or its second half. -/
inductive CellTap where
  | lut (second : Bool) | sum (second : Bool) | flop (second : Bool)
deriving DecidableEq, Repr, Inhabited

/-- A cell as configured (R177, R178, R180): its truth table, whether the LUT is split, what its two outputs show, what its two
flip-flops take, and their set/reset modes. -/
structure CellSetup where
  table : BitVec 64 := 0
  split : Bool := false
  outA  : CellTap := .lut false
  outB  : CellTap := .lut true
  dataA : CellTap := .lut false
  dataB : CellTap := .lut true
  modeA : SrMode := .none
  modeB : SrMode := .none
deriving DecidableEq, Repr, Inhabited

/-- The inputs of a cell that its line's crossbar feeds (R177). -/
inductive CellPin where
  | lut (k : Fin 6) | enable (second : Bool) | setReset (second : Bool)
deriving DecidableEq, Repr, Inhabited

/-- What the crossbar takes: 64 routing inputs and the 32 cell outputs of its own line (R177). -/
inductive LinePick where
  | routed (k : Fin 64) | own (k : Fin 32)
deriving DecidableEq, Repr, Inhabited

/-- A bit of an input of a tally unit (R182). -/
inductive TallyIn where
  | a (i : Fin 24) | b (i : Fin 18) | d (i : Fin 24) | c (i : Fin 56)
deriving DecidableEq, Repr, Inhabited

inductive TallyMode where
  | mac | popcount | compare
deriving DecidableEq, Repr, Inhabited

/-- The pre-adder: A alone, A + D or A − D. -/
inductive PreAdd where
  | off | plus | minus
deriving DecidableEq, Repr, Inhabited

/-- The term Z: 0, the held P or C. -/
inductive TallyZ where
  | zero | held | c
deriving DecidableEq, Repr, Inhabited

/-- A tally unit as configured (R182). -/
structure TallySetup where
  used     : Bool := false
  mode     : TallyMode := .mac
  negate   : Bool := false
  pre      : PreAdd := .off
  z        : TallyZ := .zero
  saturate : Bool := false
  /-- C comes from the unit to the south. -/
  cascade  : Bool := false
  thr      : Fin 49 := 0
  /-- COMPARE reads X and C as signed numbers. -/
  signed   : Bool := false
deriving DecidableEq, Repr, Inhabited

/-- The fence cells of a tile (R187, R194): on its outgoing lateral wires, at its end of each shaft, and 8 of each line. -/
inductive FenceCell where
  | lateral (k : Fin 1536) | shaft (s : Fin 1024) | inner (k : Fin 6912)
deriving DecidableEq, Repr, Inhabited

/-- Signals of hard ports into the fabric: USER0 to USER2 of a shell (R80), IO_I of a pin (R507), and the others, numbered. -/
inductive HardIn where
  | user (shell : Bool) (reg : Fin 3) (bit : Fin 32) | pad (p : Fin 320) | other (k : Nat)
deriving DecidableEq, Repr, Inhabited

/-- Signals of the fabric into hard ports: USER3 and USER4 of a shell (R80), IO_O and IO_OE of a pin (R507), and the others. -/
inductive HardOut where
  | user (shell second : Bool) (bit : Nat) | pad (p : Nat) | padEnable (p : Nat) | other (k : Nat)
deriving DecidableEq, Repr, Inhabited

/-- Line pitches that a routing segment spans (R186). -/
inductive SegSpan where
  | one | four | twelve
deriving DecidableEq, Repr, Inhabited

/-- A routing segment of a tile (R186): the line where its multiplexer stands, its direction 0 north, 1 east, 2 south or 3 west, its span,
and its number among those alike. -/
structure Segment where
  line  : Fin 864 := 0
  dir   : Fin 4 := 0
  span  : SegSpan := .one
  track : Nat := 0
deriving DecidableEq, Repr, Inhabited

/-- What a multiplexer can select (R186): 0, a cell output, a segment, an arriving lateral wire, a shaft's receiver, a fence cell of a
line, a signal of a tally unit, or a hard port's. -/
inductive Source where
  | low
  | cell (k : Fin 27648)
  | segment (s : Segment)
  | lateral (k : Fin 1536)
  | shaft (s : Fin 1024)
  | inner (k : Fin 6912)
  | result (u : Fin 24) (bit : Fin 56)
  | flag (u : Fin 24) (k : Fin 3)
  | resErr (u : Fin 24)
  | port (p : HardIn)
deriving DecidableEq, Repr, Inhabited

/-- The wires that have a multiplexer of their own (R186): routing inputs of a line, segments, outgoing lateral wires, shaft drivers,
fence cells of lines, tally operands and hard ports. -/
inductive Sink where
  | routed (line k : Nat)
  | segment (s : Segment)
  | lateral (k : Fin 1536)
  | shaft (s : Fin 1024)
  | inner (k : Fin 6912)
  | tally (u : Nat) (i : TallyIn)
  | port (p : HardOut)
deriving DecidableEq, Repr, Inhabited

/-- A place in a tile that carries a value; tiles are numbered column × 2 + die. -/
inductive Node where
  | source (t : Nat) (s : Source)
  | sink (t : Nat) (s : Sink)
  | pin (t cell : Nat) (p : CellPin)
  | tap (t cell : Nat) (x : CellTap)
  | carry (t cell : Nat) (second : Bool)
  | fence (t : Nat) (f : FenceCell)
deriving DecidableEq, Repr, Inhabited

/-- The plate bits of one tile in one slot, frame word after frame word. -/
abbrev PlateBits := Nat → Bool

end Sys2Proof

namespace Sys2Proof.Config

/-- What the crossbar of a cell's line feeds to an input of the cell. -/
opaque crossbar : PlateBits → Nat → CellPin → LinePick

/-- The segment that an outgoing lateral wire continues, but for its direction, which is the edge's (R186). -/
opaque lateralSegment : Fin 1536 → Segment

/-- The I/O bank whose supply the Strike Port's pairs take; the spec names none (log entry 128). -/
opaque strikeBank : Fin 8

/-- The one driver of a wire (R186). -/
opaque driver : PlateBits → Sink → Source

/-- Whether a multiplexer in use selects a shaft's receiver. -/
opaque readsShaft : PlateBits → Nat → Bool

opaque cellSetup : PlateBits → Nat → CellSetup

/-- A bit of a cell's carry (R181): the sum bit and the carry out, from the LUT outputs and the carry in, which the first bit of a
chain does not have. -/
opaque carryBit : PlateBits → Nat → Bool → Bool → Bool → Option Bool → Bool × Bool

opaque tallySetup : PlateBits → Nat → TallySetup

/-- The default of a fence cell (R194). -/
opaque fenceDef : PlateBits → FenceCell → Fin 4

/-- The place of a shaft's ownership bit among the plate bits of a tile (R189). -/
opaque ownPlace : Nat → Nat

/-- The logic die that drives the port of a pin, from the plate's L2 part: the upper one where true (R507). -/
opaque padUpper : PlateBits → Nat → Bool

/-- Where several user units have logic in a tile, the one that a fence cell, a tally unit, a line or a pin belongs to, as a place in
their list. -/
opaque fenceOwner : PlateBits → FenceCell → Nat
opaque tallyOwner : PlateBits → Nat → Nat
opaque lineOwner : PlateBits → Nat → Nat
/-- The place among the units of some tiles of the one that drives the requests of a hard port (R379). -/
opaque portOwner : PlateBits → Nat → Nat
opaque padOwner : PlateBits → Nat → Nat

/-- What a wire that is not connected shows (R186) and the cascade into the southernmost tally unit, what a hard port's other signals
show, and the value of a loop of logic that does not settle: by fabric cycle and place. -/
opaque looseWire : Nat → Nat → Bool
opaque hardSignal : Nat → Nat → Nat → Bool
opaque unsettled : Nat → Node → Bool

/-- A number the spec leaves open: the k-th one drawn. -/
opaque freeNat : Nat → Nat

/-- A number the spec leaves open at a place within the k-th draw: the draw, then the place. -/
opaque freeAt : Nat → Nat → Nat

/-- A truth value the spec leaves open: the k-th one drawn. -/
opaque freeBool : Nat → Bool

/-- A row word the spec leaves open (the data of a COLLIDED twin read, R246). -/
opaque freeRowWord : Nat → RowWord

/-- An external-memory line the spec leaves open. -/
opaque freeLine : Nat → Line

/-! ## External memory that no write of the model has reached (R327: the contents are whatever the devices hold) -/

/-- What a line holds, by power-up of its devices and line number: its bytes as stored, the bits of each half and its ECC that differ from
a code word, TAG and STATE. -/
opaque foundLine : Nat → Nat → Line
opaque foundErr : Nat → Nat → BitVec 266 × BitVec 266
opaque foundTag : Nat → Nat → BitVec 40
opaque foundState : Nat → Nat → BitVec 4

/-- The check bits of a row word (R240). -/
opaque checkBits : RowWord → BitVec 10

/-- What a pass of a via loop does (R498), by draw: its transfers beyond the first, of which the spec gives no number, and the vias that
it finds failing, as PRF_LOG.INFO. -/
opaque viaPass : Nat → Nat × List (BitVec 17)

/-- Fuse words 0 to 511 (R520): identity, trim, the verification key hashes and their revoke fuses, as each device holds them. -/
opaque fuseWord : Nat → Word

/-! ## The state after scan has been entered (R487: the functional state is undefined) -/

/-- Register words and bytes of the memory die that differ from what reset leaves, by draw. -/
opaque scanRegs : Nat → List (Nat × Word)
opaque scanBytes : Nat → List (Nat × Byte)

end Sys2Proof.Config
end

