-- ==== Sys2Proof/Machine/RegMap.lean ====
section
/-!
DEFINITION. The registers of control space as their own tables give them: for every register its offset in
its unit's window, its value after reset (R9) and the bits under each access code (R6), and for every field a
named place in its register. A row with a count above 1 is an array of registers of one layout.
-/
namespace Sys2Proof.Machine

/-- A field of a register: the register's offset, the field's lowest bit and its width. -/
structure Fld where
  off   : Nat
  lo    : Nat
  width : Nat
deriving DecidableEq, Repr, Inhabited

/-- One register, or an array of `count` registers every `stride` bytes: the reset value and the masks of the
bits under the access codes of R6; the bits in no mask are RO or reserved. -/
structure RegRow where
  name   : String
  off    : Nat
  stride : Nat
  count  : Nat
  reset  : Nat
  rw     : Nat
  w1c    : Nat
  w1p    : Nat
  kw     : Nat
  rc     : Nat
deriving DecidableEq, Repr, Inhabited

/-- The same field of element `k` of an array of word-spaced registers. -/
def Fld.elem (f : Fld) (k : Nat) : Fld := { f with off := f.off + 4 * k }

/-- The same field in a register block that begins at `b`. -/
def Fld.shift (f : Fld) (b : Nat) : Fld := { f with off := f.off + b }

namespace Reg

/-! Fields: block colB0. -/

/-- VLINK_STATE ("The Stack"). -/
def VLINK_STATE.off : Nat := 0x100
def VLINK_STATE.CLOCK : Fld := ⟨0x100, 12, 2⟩
def VLINK_STATE.SHAFTS : Fld := ⟨0x100, 10, 2⟩
def VLINK_STATE.CFG_UPPER : Fld := ⟨0x100, 8, 2⟩
def VLINK_STATE.CFG_LOWER : Fld := ⟨0x100, 6, 2⟩
def VLINK_STATE.BASE : Fld := ⟨0x100, 4, 2⟩
def VLINK_STATE.UPPER_ROW : Fld := ⟨0x100, 2, 2⟩
def VLINK_STATE.LOWER_ROW : Fld := ⟨0x100, 0, 2⟩
/-- SPARE_USE ("The Stack"). -/
def SPARE_USE.off : Nat := 0x104
def SPARE_USE.SHAFTS : Fld := ⟨0x104, 25, 5⟩
def SPARE_USE.CFG_UPPER : Fld := ⟨0x104, 20, 5⟩
def SPARE_USE.CFG_LOWER : Fld := ⟨0x104, 15, 5⟩
def SPARE_USE.BASE : Fld := ⟨0x104, 10, 5⟩
def SPARE_USE.UPPER_ROW : Fld := ⟨0x104, 5, 5⟩
def SPARE_USE.LOWER_ROW : Fld := ⟨0x104, 0, 5⟩
/-- CLK_VIA ("The Stack"). -/
def CLK_VIA.off : Nat := 0x108
def CLK_VIA.FAILED : Fld := ⟨0x108, 4, 4⟩
def CLK_VIA.ACTIVE : Fld := ⟨0x108, 0, 2⟩
/-- VLINK_HALF ("The Stack"). -/
def VLINK_HALF.off : Nat := 0x10C
def VLINK_HALF.CFG_UPPER : Fld := ⟨0x10C, 24, 8⟩
def VLINK_HALF.CFG_LOWER : Fld := ⟨0x10C, 16, 8⟩
def VLINK_HALF.UPPER_ROW : Fld := ⟨0x10C, 8, 8⟩
def VLINK_HALF.LOWER_ROW : Fld := ⟨0x10C, 0, 8⟩
/-- VLINK_HALF2 ("The Stack"). -/
def VLINK_HALF2.off : Nat := 0x110
def VLINK_HALF2.BASE : Fld := ⟨0x110, 0, 1⟩
/-- VIA_THRESH ("The Stack"). -/
def VIA_THRESH.off : Nat := 0x114
def VIA_THRESH.THRESH : Fld := ⟨0x114, 0, 8⟩
/-- VIA_EVENT ("The Stack"). -/
def VIA_EVENT.off : Nat := 0x118
def VIA_EVENT.CTRL_PARITY : Fld := ⟨0x118, 5, 1⟩
def VIA_EVENT.CLOCK_LOST : Fld := ⟨0x118, 4, 1⟩
def VIA_EVENT.CLOCK_SPARE : Fld := ⟨0x118, 3, 1⟩
def VIA_EVENT.PORT_LOST : Fld := ⟨0x118, 2, 1⟩
def VIA_EVENT.HALF_WIDTH : Fld := ⟨0x118, 1, 1⟩
def VIA_EVENT.SPARE_TAKEN : Fld := ⟨0x118, 0, 1⟩
/-- VIA_LOG ("The Stack"). -/
def VIA_LOG.off : Nat := 0x11C
def VIA_LOG.VIA : Fld := ⟨0x11C, 8, 9⟩
def VIA_LOG.BUNDLE : Fld := ⟨0x11C, 4, 3⟩
def VIA_LOG.CLASS : Fld := ⟨0x11C, 0, 4⟩
/-- DEAD_SHAFTS ("The Stack"). -/
def DEAD_SHAFTS.off : Nat := 0x120
def DEAD_SHAFTS.COUNT : Fld := ⟨0x120, 0, 11⟩

/-! Fields: block keeper. -/

/-- KEEP_CTRL ("Crossings"). -/
def KEEP_CTRL.off : Nat := 0x100
def KEEP_CTRL.RELOCK : Fld := ⟨0x100, 17, 1⟩
def KEEP_CTRL.ARM : Fld := ⟨0x100, 16, 1⟩
def KEEP_CTRL.REF_SEL : Fld := ⟨0x100, 12, 1⟩
def KEEP_CTRL.SYNC_LANE : Fld := ⟨0x100, 4, 8⟩
def KEEP_CTRL.SYNC_MODE : Fld := ⟨0x100, 2, 2⟩
def KEEP_CTRL.SYNC_SRC : Fld := ⟨0x100, 0, 2⟩
/-- KEEP_RATIO ("Crossings"). -/
def KEEP_RATIO.off : Nat := 0x104
def KEEP_RATIO.XB_MUL : Fld := ⟨0x104, 16, 8⟩
def KEEP_RATIO.N : Fld := ⟨0x104, 0, 5⟩
/-- SYNC_VALUE_LO ("Crossings"). -/
def SYNC_VALUE_LO.off : Nat := 0x108
def SYNC_VALUE_LO.VALUE_LO : Fld := ⟨0x108, 0, 32⟩
/-- SYNC_VALUE_HI ("Crossings"). -/
def SYNC_VALUE_HI.off : Nat := 0x10C
def SYNC_VALUE_HI.VALUE_HI : Fld := ⟨0x10C, 0, 16⟩
/-- MARK_ADJ ("Crossings"). -/
def MARK_ADJ.off : Nat := 0x110
def MARK_ADJ.ADJ : Fld := ⟨0x110, 0, 12⟩
/-- LATENCY ("Crossings"). -/
def LATENCY.off : Nat := 0x114
def LATENCY.ALIGN_C : Fld := ⟨0x114, 20, 4⟩
def LATENCY.ALIGN_R : Fld := ⟨0x114, 16, 4⟩
def LATENCY.S : Fld := ⟨0x114, 12, 4⟩
def LATENCY.L : Fld := ⟨0x114, 0, 12⟩
/-- CROSS_NOW_LO ("Crossings"). -/
def CROSS_NOW_LO.off : Nat := 0x118
def CROSS_NOW_LO.NOW_LO : Fld := ⟨0x118, 0, 32⟩
/-- CROSS_NOW_HI ("Crossings"). -/
def CROSS_NOW_HI.off : Nat := 0x11C
def CROSS_NOW_HI.NOW_HI : Fld := ⟨0x11C, 0, 16⟩
/-- KEEP_STATUS ("Crossings"). -/
def KEEP_STATUS.off : Nat := 0x120
def KEEP_STATUS.RATIO_ERR : Fld := ⟨0x120, 5, 1⟩
def KEEP_STATUS.ROOT : Fld := ⟨0x120, 4, 1⟩
def KEEP_STATUS.ARMED : Fld := ⟨0x120, 3, 1⟩
def KEEP_STATUS.HOLDOVER : Fld := ⟨0x120, 2, 1⟩
def KEEP_STATUS.SYNTHETIC : Fld := ⟨0x120, 1, 1⟩
def KEEP_STATUS.LOCKED : Fld := ⟨0x120, 0, 1⟩
/-- KEEP_EVENT ("Crossings"). -/
def KEEP_EVENT.off : Nat := 0x124
def KEEP_EVENT.DATA_LATE : Fld := ⟨0x124, 6, 1⟩
def KEEP_EVENT.DECIDE_LATE : Fld := ⟨0x124, 5, 1⟩
def KEEP_EVENT.LATENCY_BREACH : Fld := ⟨0x124, 4, 1⟩
def KEEP_EVENT.CROSS_BACK : Fld := ⟨0x124, 3, 1⟩
def KEEP_EVENT.CROSS_LOST : Fld := ⟨0x124, 2, 1⟩
def KEEP_EVENT.CROSS_JUMP : Fld := ⟨0x124, 1, 1⟩
def KEEP_EVENT.SYNC_SLIP : Fld := ⟨0x124, 0, 1⟩
/-- BREACH_COUNT ("Crossings"). -/
def BREACH_COUNT.off : Nat := 0x128
def BREACH_COUNT.COUNT : Fld := ⟨0x128, 0, 32⟩
/-- DECIDE_LATE_COUNT ("Crossings"). -/
def DECIDE_LATE_COUNT.off : Nat := 0x12C
def DECIDE_LATE_COUNT.COUNT : Fld := ⟨0x12C, 0, 32⟩
/-- LAST_BREACH_LO ("Crossings"). -/
def LAST_BREACH_LO.off : Nat := 0x130
def LAST_BREACH_LO.CROSS_LO : Fld := ⟨0x130, 0, 32⟩
/-- LAST_BREACH_HI ("Crossings"). -/
def LAST_BREACH_HI.off : Nat := 0x134
def LAST_BREACH_HI.CROSS_HI : Fld := ⟨0x134, 0, 16⟩

/-! Fields: block ucb. -/

/-- UNIT_ID ("Units"). -/
def UNIT_ID.off : Nat := 0x000
def UNIT_ID.KIND : Fld := ⟨0x000, 24, 8⟩
def UNIT_ID.LAYER : Fld := ⟨0x000, 20, 4⟩
def UNIT_ID.INSTANCE : Fld := ⟨0x000, 4, 16⟩
def UNIT_ID.VERSIONS : Fld := ⟨0x000, 3, 1⟩
def UNIT_ID.PRIVILEGED : Fld := ⟨0x000, 2, 1⟩
def UNIT_ID.USER : Fld := ⟨0x000, 1, 1⟩
def UNIT_ID.GALLEY : Fld := ⟨0x000, 0, 1⟩
/-- UNIT_VER ("Units"). -/
def UNIT_VER.off : Nat := 0x004
def UNIT_VER.NATIVE_MAJOR : Fld := ⟨0x004, 24, 8⟩
def UNIT_VER.NATIVE_MINOR : Fld := ⟨0x004, 16, 8⟩
def UNIT_VER.MAJOR : Fld := ⟨0x004, 8, 8⟩
def UNIT_VER.MINOR : Fld := ⟨0x004, 0, 8⟩
/-- UNIT_CAPS ("Units"). -/
def UNIT_CAPS.off : Nat := 0x008
def UNIT_CAPS.PROOF_DEPTHS : Fld := ⟨0x008, 28, 4⟩
def UNIT_CAPS.SPECIFIC : Fld := ⟨0x008, 0, 24⟩
/-- CHILD_INFO ("Units"). -/
def CHILD_INFO.off : Nat := 0x00C
def CHILD_INFO.COUNT : Fld := ⟨0x00C, 16, 16⟩
def CHILD_INFO.TABLE_OFFSET : Fld := ⟨0x00C, 0, 16⟩
/-- CTRL ("Units"). -/
def CTRL.off : Nat := 0x010
def CTRL.PROOF_DEPTH : Fld := ⟨0x010, 4, 2⟩
def CTRL.PROOF_EN : Fld := ⟨0x010, 3, 1⟩
def CTRL.RESET : Fld := ⟨0x010, 2, 1⟩
def CTRL.DRAIN_REQ : Fld := ⟨0x010, 1, 1⟩
def CTRL.ENABLE : Fld := ⟨0x010, 0, 1⟩
/-- STATE ("Units"). -/
def STATE.off : Nat := 0x014
def STATE.NOT_RUNNING : Fld := ⟨0x014, 16, 8⟩
def STATE.SELF : Fld := ⟨0x014, 4, 3⟩
def STATE.STATE : Fld := ⟨0x014, 0, 3⟩
/-- FAULT ("Units"). -/
def FAULT.off : Nat := 0x018
def FAULT.SPECIFIC : Fld := ⟨0x018, 8, 24⟩
def FAULT.PLATE : Fld := ⟨0x018, 4, 1⟩
def FAULT.FENCED : Fld := ⟨0x018, 3, 1⟩
def FAULT.CLOCK_VIA : Fld := ⟨0x018, 2, 1⟩
def FAULT.START_FAIL : Fld := ⟨0x018, 1, 1⟩
def FAULT.DRAIN_EXPIRED : Fld := ⟨0x018, 0, 1⟩
/-- DRAIN_LIMIT ("Units"). -/
def DRAIN_LIMIT.off : Nat := 0x01C
def DRAIN_LIMIT.LIMIT : Fld := ⟨0x01C, 0, 24⟩
/-- EVENT_EN ("Units"). -/
def EVENT_EN.off : Nat := 0x020
def EVENT_EN.EN : Fld := ⟨0x020, 0, 32⟩
/-- EVENT ("Units"). -/
def EVENT.off : Nat := 0x024
def EVENT.SPECIFIC : Fld := ⟨0x024, 9, 23⟩
def EVENT.UNIT : Fld := ⟨0x024, 8, 1⟩
def EVENT.VER_REJECT : Fld := ⟨0x024, 4, 1⟩
def EVENT.CTRL_REJECT : Fld := ⟨0x024, 3, 1⟩
def EVENT.FAULT : Fld := ⟨0x024, 2, 1⟩
def EVENT.STATE_CHANGE : Fld := ⟨0x024, 1, 1⟩
def EVENT.CHILD : Fld := ⟨0x024, 0, 1⟩
/-- VERSION_SEL ("Units"). -/
def VERSION_SEL.off : Nat := 0x028
def VERSION_SEL.OLDEST_MAJOR : Fld := ⟨0x028, 24, 8⟩
def VERSION_SEL.SEL_MAJOR : Fld := ⟨0x028, 8, 8⟩
def VERSION_SEL.SEL_MINOR : Fld := ⟨0x028, 0, 8⟩

/-! Fields: block root. -/

/-- DEV_ID ("Control Space"). -/
def DEV_ID.off : Nat := 0x400
def DEV_ID.FAMILY : Fld := ⟨0x400, 24, 8⟩
def DEV_ID.PART : Fld := ⟨0x400, 16, 8⟩
def DEV_ID.SPEED : Fld := ⟨0x400, 12, 4⟩
def DEV_ID.TEMP : Fld := ⟨0x400, 8, 4⟩
/-- DEV_STEP ("Control Space"). -/
def DEV_STEP.off : Nat := 0x404
def DEV_STEP.MAJOR : Fld := ⟨0x404, 8, 8⟩
def DEV_STEP.MINOR : Fld := ⟨0x404, 0, 8⟩
/-- ACC_ERR ("Control Space"). -/
def ACC_ERR.off : Nat := 0x408
def ACC_ERR.PATH : Fld := ⟨0x408, 0, 8⟩
/-- ACC_ERR_ADDR ("Control Space"). -/
def ACC_ERR_ADDR.off : Nat := 0x40C
def ACC_ERR_ADDR.ADDR : Fld := ⟨0x40C, 2, 30⟩
def ACC_ERR_ADDR.VALID : Fld := ⟨0x40C, 0, 1⟩
/-- PATH_EN ("Control Space"). -/
def PATH_EN.off : Nat := 0x410
def PATH_EN.EN : Fld := ⟨0x410, 0, 7⟩
/-- IRQ_CTRL ("Control Space"). -/
def IRQ_CTRL.off : Nat := 0x414
def IRQ_CTRL.EVT_REPEAT : Fld := ⟨0x414, 24, 8⟩
def IRQ_CTRL.EVT_LANE : Fld := ⟨0x414, 16, 4⟩
def IRQ_CTRL.EVT_EN : Fld := ⟨0x414, 1, 1⟩
def IRQ_CTRL.IRQ_EN : Fld := ⟨0x414, 0, 1⟩
/-- LD_CTRL ("Start-up"). -/
def LD_CTRL.off : Nat := 0x500
def LD_CTRL.PSLOT : Fld := ⟨0x500, 4, 2⟩
def LD_CTRL.REAPPLY : Fld := ⟨0x500, 2, 1⟩
def LD_CTRL.ABORT : Fld := ⟨0x500, 1, 1⟩
def LD_CTRL.OPEN : Fld := ⟨0x500, 0, 1⟩
/-- LD_CFG ("Start-up"). -/
def LD_CFG.off : Nat := 0x504
def LD_CFG.LEAD : Fld := ⟨0x504, 16, 8⟩
def LD_CFG.TIMEOUT : Fld := ⟨0x504, 0, 16⟩
/-- REL_GAP ("Start-up"). -/
def REL_GAP.off : Nat := 0x508
def REL_GAP.GAP_RST : Fld := ⟨0x508, 8, 8⟩
def REL_GAP.GAP_WE : Fld := ⟨0x508, 0, 8⟩
/-- LD_STATUS ("Start-up"). -/
def LD_STATUS.off : Nat := 0x50C
def LD_STATUS.CAUSE : Fld := ⟨0x50C, 16, 8⟩
def LD_STATUS.SOURCE : Fld := ⟨0x50C, 8, 4⟩
def LD_STATUS.PATH : Fld := ⟨0x50C, 4, 3⟩
def LD_STATUS.PARTIAL : Fld := ⟨0x50C, 3, 1⟩
def LD_STATUS.STATE : Fld := ⟨0x50C, 0, 3⟩
/-- LD_INDEX ("Start-up"). -/
def LD_INDEX.off : Nat := 0x510
def LD_INDEX.INDEX : Fld := ⟨0x510, 0, 32⟩
/-- LD_DATA ("Start-up"). -/
def LD_DATA.off : Nat := 0x514
def LD_DATA.DATA : Fld := ⟨0x514, 0, 32⟩
/-- LD_BYTES ("Start-up"). -/
def LD_BYTES.off : Nat := 0x518
def LD_BYTES.BYTES : Fld := ⟨0x518, 0, 32⟩
/-- IMAGE_ID_LO ("Start-up"). -/
def IMAGE_ID_LO.off : Nat := 0x51C
def IMAGE_ID_LO.ID_LO : Fld := ⟨0x51C, 0, 32⟩
/-- IMAGE_ID_HI ("Start-up"). -/
def IMAGE_ID_HI.off : Nat := 0x520
def IMAGE_ID_HI.ID_HI : Fld := ⟨0x520, 0, 32⟩
/-- LD_EVENT ("Start-up"). -/
def LD_EVENT.off : Nat := 0x524
def LD_EVENT.WARM : Fld := ⟨0x524, 5, 1⟩
def LD_EVENT.OPEN_REJECT : Fld := ⟨0x524, 4, 1⟩
def LD_EVENT.FOREIGN : Fld := ⟨0x524, 3, 1⟩
def LD_EVENT.RELEASED : Fld := ⟨0x524, 2, 1⟩
def LD_EVENT.REJECTED : Fld := ⟨0x524, 1, 1⟩
def LD_EVENT.LOADED : Fld := ⟨0x524, 0, 1⟩
/-- BOOT_INFO ("Start-up"). -/
def BOOT_INFO.off : Nat := 0x528
def BOOT_INFO.ENTRY : Fld := ⟨0x528, 12, 4⟩
def BOOT_INFO.BIST_RAN : Fld := ⟨0x528, 11, 1⟩
def BOOT_INFO.XB_CODE : Fld := ⟨0x528, 8, 3⟩
def BOOT_INFO.XA_CODE : Fld := ⟨0x528, 4, 3⟩
def BOOT_INFO.REC_VALID : Fld := ⟨0x528, 0, 1⟩

/-! Fields: block lane. -/

/-- LANE_CFG ("Lanes: Electrical"). -/
def LANE_CFG.off : Nat := 0x100
def LANE_CFG.RX_POL : Fld := ⟨0x100, 9, 1⟩
def LANE_CFG.TX_POL : Fld := ⟨0x100, 8, 1⟩
def LANE_CFG.RX_DIV : Fld := ⟨0x100, 4, 2⟩
def LANE_CFG.TX_DIV : Fld := ⟨0x100, 0, 2⟩
/-- LANE_START ("Lanes: Electrical"). -/
def LANE_START.off : Nat := 0x104
def LANE_START.LIMIT : Fld := ⟨0x104, 0, 16⟩
/-- LANE_STATUS ("Lanes: Electrical"). -/
def LANE_STATUS.off : Nat := 0x108
def LANE_STATUS.ADAPTING : Fld := ⟨0x108, 3, 1⟩
def LANE_STATUS.TX_ACTIVE : Fld := ⟨0x108, 2, 1⟩
def LANE_STATUS.CDR_LOCK : Fld := ⟨0x108, 1, 1⟩
def LANE_STATUS.LOS : Fld := ⟨0x108, 0, 1⟩
/-- LANE_RATE ("Lanes: Electrical"). -/
def LANE_RATE.off : Nat := 0x10C
def LANE_RATE.TX_RATE : Fld := ⟨0x10C, 16, 16⟩
def LANE_RATE.RX_RATE : Fld := ⟨0x10C, 0, 16⟩
/-- LANE_EVENT ("Lanes: Electrical"). -/
def LANE_EVENT.off : Nat := 0x110
def LANE_EVENT.EYE_REJECT : Fld := ⟨0x110, 7, 1⟩
def LANE_EVENT.EYE_DONE : Fld := ⟨0x110, 6, 1⟩
def LANE_EVENT.FIR_REJECT : Fld := ⟨0x110, 5, 1⟩
def LANE_EVENT.TAP_REJECT : Fld := ⟨0x110, 4, 1⟩
def LANE_EVENT.TAP_RAIL : Fld := ⟨0x110, 3, 1⟩
def LANE_EVENT.CDR_UNLOCK : Fld := ⟨0x110, 2, 1⟩
def LANE_EVENT.LOS_CLEAR : Fld := ⟨0x110, 1, 1⟩
def LANE_EVENT.LOS_SET : Fld := ⟨0x110, 0, 1⟩
/-- TX_CTRL ("Lanes: Electrical"). -/
def TX_CTRL.off : Nat := 0x114
def TX_CTRL.AMP : Fld := ⟨0x114, 0, 4⟩
/-- LOS_CTRL ("Lanes: Electrical"). -/
def LOS_CTRL.off : Nat := 0x11C
def LOS_CTRL.TH : Fld := ⟨0x11C, 0, 3⟩
/-- CTLE_CTRL ("Lanes: Electrical"). -/
def CTLE_CTRL.off : Nat := 0x120
def CTLE_CTRL.MODE : Fld := ⟨0x120, 8, 2⟩
def CTLE_CTRL.PEAK : Fld := ⟨0x120, 0, 5⟩
/-- CTLE_STATUS ("Lanes: Electrical"). -/
def CTLE_STATUS.off : Nat := 0x124
def CTLE_STATUS.PEAK : Fld := ⟨0x124, 0, 5⟩
/-- EYE_CTRL ("Lanes: Electrical"). -/
def EYE_CTRL.off : Nat := 0x180
def EYE_CTRL.START : Fld := ⟨0x180, 31, 1⟩
def EYE_CTRL.DWELL : Fld := ⟨0x180, 16, 4⟩
def EYE_CTRL.VOFF : Fld := ⟨0x180, 8, 8⟩
def EYE_CTRL.PHASE : Fld := ⟨0x180, 0, 6⟩
/-- EYE_RESULT ("Lanes: Electrical"). -/
def EYE_RESULT.off : Nat := 0x184
def EYE_RESULT.DONE : Fld := ⟨0x184, 31, 1⟩
def EYE_RESULT.INVALID : Fld := ⟨0x184, 30, 1⟩
def EYE_RESULT.ERRORS : Fld := ⟨0x184, 0, 30⟩
/-- BLK_CTRL ("Lanes: Blocks"). -/
def BLK_CTRL.off : Nat := 0x200
def BLK_CTRL.REHUNT : Fld := ⟨0x200, 2, 1⟩
def BLK_CTRL.BITSLIP : Fld := ⟨0x200, 1, 1⟩
def BLK_CTRL.FORCE_MANUAL : Fld := ⟨0x200, 0, 1⟩
/-- BLK_HUNT_LIMIT ("Lanes: Blocks"). -/
def BLK_HUNT_LIMIT.off : Nat := 0x204
def BLK_HUNT_LIMIT.LIMIT : Fld := ⟨0x204, 0, 24⟩
/-- BLK_STATUS ("Lanes: Blocks"). -/
def BLK_STATUS.off : Nat := 0x208
def BLK_STATUS.EB_OCC : Fld := ⟨0x208, 16, 4⟩
def BLK_STATUS.OFFSET : Fld := ⟨0x208, 8, 7⟩
def BLK_STATUS.RUN : Fld := ⟨0x208, 0, 7⟩
/-- BLK_STATE ("Lanes: Blocks"). -/
def BLK_STATE.off : Nat := 0x20C
def BLK_STATE.WAITING : Fld := ⟨0x20C, 2, 1⟩
def BLK_STATE.STATE : Fld := ⟨0x20C, 0, 2⟩
/-- BLK_EVENT ("Lanes: Blocks"). -/
def BLK_EVENT.off : Nat := 0x210
def BLK_EVENT.EB_OVERFLOW : Fld := ⟨0x210, 5, 1⟩
def BLK_EVENT.QUAD_MISSING : Fld := ⟨0x210, 4, 1⟩
def BLK_EVENT.BLK_REJECT : Fld := ⟨0x210, 3, 1⟩
def BLK_EVENT.HUNT_EXPIRED : Fld := ⟨0x210, 2, 1⟩
def BLK_EVENT.LOCK_LOST : Fld := ⟨0x210, 1, 1⟩
def BLK_EVENT.LOCK : Fld := ⟨0x210, 0, 1⟩
/-- TX_QUAD ("Lanes: Blocks"). -/
def TX_QUAD.off : Nat := 0x214
def TX_QUAD.INTERVAL : Fld := ⟨0x214, 0, 13⟩
/-- ALIGN_CFG ("Lanes: Blocks"). -/
def ALIGN_CFG.off : Nat := 0x218
def ALIGN_CFG.DEPTH : Fld := ⟨0x218, 16, 4⟩
def ALIGN_CFG.EN : Fld := ⟨0x218, 0, 1⟩
/-- ALIGN_STATUS ("Lanes: Blocks"). -/
def ALIGN_STATUS.off : Nat := 0x21C
def ALIGN_STATUS.FILL : Fld := ⟨0x21C, 16, 12⟩
def ALIGN_STATUS.LAST : Fld := ⟨0x21C, 0, 2⟩
/-- HDR_ERR_COUNT ("Lanes: Blocks"). -/
def HDR_ERR_COUNT.off : Nat := 0x220
def HDR_ERR_COUNT.COUNT : Fld := ⟨0x220, 0, 32⟩
/-- LOCK_LOSS_COUNT ("Lanes: Blocks"). -/
def LOCK_LOSS_COUNT.off : Nat := 0x224
def LOCK_LOSS_COUNT.COUNT : Fld := ⟨0x224, 0, 32⟩
/-- QUAD_DEL_COUNT ("Lanes: Blocks"). -/
def QUAD_DEL_COUNT.off : Nat := 0x228
def QUAD_DEL_COUNT.COUNT : Fld := ⟨0x228, 0, 32⟩
/-- QUAD_INS_COUNT ("Lanes: Blocks"). -/
def QUAD_INS_COUNT.off : Nat := 0x22C
def QUAD_INS_COUNT.COUNT : Fld := ⟨0x22C, 0, 32⟩
/-- EB_OVF_COUNT ("Lanes: Blocks"). -/
def EB_OVF_COUNT.off : Nat := 0x230
def EB_OVF_COUNT.COUNT : Fld := ⟨0x230, 0, 32⟩
/-- LATE_COUNT ("Lanes: Blocks"). -/
def LATE_COUNT.off : Nat := 0x234
def LATE_COUNT.COUNT : Fld := ⟨0x234, 0, 32⟩
/-- EARLY_COUNT ("Lanes: Blocks"). -/
def EARLY_COUNT.off : Nat := 0x238
def EARLY_COUNT.COUNT : Fld := ⟨0x238, 0, 32⟩
/-- LINK_VER ("Molmevo"). -/
def LINK_VER.off : Nat := 0x02C
def LINK_VER.PEER_HIGH : Fld := ⟨0x02C, 24, 8⟩
def LINK_VER.PEER_LOW : Fld := ⟨0x02C, 16, 8⟩
def LINK_VER.NEGOTIATED : Fld := ⟨0x02C, 8, 8⟩
def LINK_VER.PIN : Fld := ⟨0x02C, 0, 8⟩
/-- LINK_FEAT ("Molmevo"). -/
def LINK_FEAT.off : Nat := 0x030
def LINK_FEAT.CONTROL : Fld := ⟨0x030, 7, 1⟩
def LINK_FEAT.ALARM : Fld := ⟨0x030, 6, 1⟩
def LINK_FEAT.PROOF : Fld := ⟨0x030, 5, 1⟩
def LINK_FEAT.PRIORITY : Fld := ⟨0x030, 4, 1⟩
def LINK_FEAT.ACCEPT : Fld := ⟨0x030, 3, 1⟩
def LINK_FEAT.FRAGMENT : Fld := ⟨0x030, 2, 1⟩
def LINK_FEAT.EVENT : Fld := ⟨0x030, 1, 1⟩
def LINK_FEAT.MGMT : Fld := ⟨0x030, 0, 1⟩
/-- PEER_FEAT ("Molmevo"). -/
def PEER_FEAT.off : Nat := 0x034
def PEER_FEAT.FEATURES : Fld := ⟨0x034, 0, 32⟩
/-- AGREED_FEAT ("Molmevo"). -/
def AGREED_FEAT.off : Nat := 0x038
def AGREED_FEAT.FEATURES : Fld := ⟨0x038, 0, 32⟩
/-- LINK_STATE ("Molmevo"). -/
def LINK_STATE.off : Nat := 0x03C
def LINK_STATE.LOOPED : Fld := ⟨0x03C, 7, 1⟩
def LINK_STATE.ANNOUNCE_TX : Fld := ⟨0x03C, 6, 1⟩
def LINK_STATE.SEEN_RX : Fld := ⟨0x03C, 5, 1⟩
def LINK_STATE.SEEN_TX : Fld := ⟨0x03C, 4, 1⟩
def LINK_STATE.NEGO : Fld := ⟨0x03C, 0, 3⟩
/-- LINK_CTRL ("Molmevo"). -/
def LINK_CTRL.off : Nat := 0x300
def LINK_CTRL.FRAG_MAX : Fld := ⟨0x300, 16, 8⟩
def LINK_CTRL.MARK_CYCLE : Fld := ⟨0x300, 12, 4⟩
def LINK_CTRL.MARK_PERIOD : Fld := ⟨0x300, 8, 4⟩
def LINK_CTRL.MARK_TX_EN : Fld := ⟨0x300, 6, 1⟩
def LINK_CTRL.ALARM_TX_EN : Fld := ⟨0x300, 5, 1⟩
def LINK_CTRL.PROOF_ACCEPT : Fld := ⟨0x300, 4, 1⟩
def LINK_CTRL.PROOF_OFF : Fld := ⟨0x300, 2, 1⟩
def LINK_CTRL.PROOF_ON : Fld := ⟨0x300, 1, 1⟩
def LINK_CTRL.RENEGOTIATE : Fld := ⟨0x300, 0, 1⟩
/-- LINK_EVENT ("Molmevo"). -/
def LINK_EVENT.off : Nat := 0x304
def LINK_EVENT.STALE_RESP : Fld := ⟨0x304, 13, 1⟩
def LINK_EVENT.REM_REJECT : Fld := ⟨0x304, 12, 1⟩
def LINK_EVENT.REM_DONE : Fld := ⟨0x304, 11, 1⟩
def LINK_EVENT.PROOF_REFUSED : Fld := ⟨0x304, 10, 1⟩
def LINK_EVENT.PROOF_EXITED : Fld := ⟨0x304, 9, 1⟩
def LINK_EVENT.PROOF_ENTERED : Fld := ⟨0x304, 8, 1⟩
def LINK_EVENT.ALARM_RX : Fld := ⟨0x304, 7, 1⟩
def LINK_EVENT.PROTO_ERR : Fld := ⟨0x304, 6, 1⟩
def LINK_EVENT.LOSS : Fld := ⟨0x304, 5, 1⟩
def LINK_EVENT.VERSION_CHANGE : Fld := ⟨0x304, 4, 1⟩
def LINK_EVENT.ANNOUNCE_LATE : Fld := ⟨0x304, 3, 1⟩
def LINK_EVENT.NO_COMMON : Fld := ⟨0x304, 2, 1⟩
def LINK_EVENT.ASSUMED_1_0 : Fld := ⟨0x304, 1, 1⟩
def LINK_EVENT.UP : Fld := ⟨0x304, 0, 1⟩
/-- CREDIT_STATUS ("Molmevo"). -/
def CREDIT_STATUS.off : Nat := 0x308
def CREDIT_STATUS.AVAIL_M : Fld := ⟨0x308, 16, 16⟩
def CREDIT_STATUS.AVAIL_F : Fld := ⟨0x308, 0, 16⟩
/-- CREDIT_RX ("Molmevo"). -/
def CREDIT_RX.off : Nat := 0x30C
def CREDIT_RX.BUF_M : Fld := ⟨0x30C, 16, 16⟩
def CREDIT_RX.BUF_F : Fld := ⟨0x30C, 0, 16⟩
/-- ALARM_RX ("Molmevo"). -/
def ALARM_RX.off : Nat := 0x330
def ALARM_RX.DETAIL_LO : Fld := ⟨0x330, 8, 24⟩
def ALARM_RX.CAUSE : Fld := ⟨0x330, 0, 8⟩
/-- REM_ADDR ("Molmevo"). -/
def REM_ADDR.off : Nat := 0x340
def REM_ADDR.ADDR : Fld := ⟨0x340, 2, 30⟩
/-- REM_WDATA ("Molmevo"). -/
def REM_WDATA.off : Nat := 0x344
def REM_WDATA.DATA : Fld := ⟨0x344, 0, 32⟩
/-- REM_RDATA ("Molmevo"). -/
def REM_RDATA.off : Nat := 0x348
def REM_RDATA.DATA : Fld := ⟨0x348, 0, 32⟩
/-- REM_CTRL ("Molmevo"). -/
def REM_CTRL.off : Nat := 0x34C
def REM_CTRL.TIMEOUT : Fld := ⟨0x34C, 8, 16⟩
def REM_CTRL.WRITE : Fld := ⟨0x34C, 1, 1⟩
def REM_CTRL.GO : Fld := ⟨0x34C, 0, 1⟩
/-- REM_STATUS ("Molmevo"). -/
def REM_STATUS.off : Nat := 0x350
def REM_STATUS.TAG : Fld := ⟨0x350, 16, 8⟩
def REM_STATUS.STATUS : Fld := ⟨0x350, 8, 8⟩
def REM_STATUS.DONE : Fld := ⟨0x350, 1, 1⟩
def REM_STATUS.BUSY : Fld := ⟨0x350, 0, 1⟩
/-- PORT_COL ("Fabric"). -/
def PORT_COL.off : Nat := 0x400
def PORT_COL.COLUMN : Fld := ⟨0x400, 0, 8⟩
/-- PORT_DLV ("Fabric"). -/
def PORT_DLV.off : Nat := 0x404
def PORT_DLV.BASE_ROW : Fld := ⟨0x404, 16, 11⟩
def PORT_DLV.FRAME_WORDS : Fld := ⟨0x404, 4, 3⟩
def PORT_DLV.EN : Fld := ⟨0x404, 0, 1⟩
/-- PORT_RXQ ("Fabric"). -/
def PORT_RXQ.off : Nat := 0x408
def PORT_RXQ.EN : Fld := ⟨0x408, 16, 1⟩
def PORT_RXQ.LOG_ROWS : Fld := ⟨0x408, 12, 4⟩
def PORT_RXQ.ROW : Fld := ⟨0x408, 0, 11⟩
/-- PORT_TXQ ("Fabric"). -/
def PORT_TXQ.off : Nat := 0x40C
def PORT_TXQ.TX_CYCLE : Fld := ⟨0x40C, 24, 4⟩
def PORT_TXQ.EN : Fld := ⟨0x40C, 16, 1⟩
def PORT_TXQ.LOG_ROWS : Fld := ⟨0x40C, 12, 4⟩
def PORT_TXQ.ROW : Fld := ⟨0x40C, 0, 11⟩
/-- DLV_TRUNC_COUNT ("Fabric"). -/
def DLV_TRUNC_COUNT.off : Nat := 0x410
def DLV_TRUNC_COUNT.COUNT : Fld := ⟨0x410, 0, 32⟩
/-- MSGQ_DROP_COUNT ("Fabric"). -/
def MSGQ_DROP_COUNT.off : Nat := 0x414
def MSGQ_DROP_COUNT.COUNT : Fld := ⟨0x414, 0, 32⟩
/-- PORT_EVENT ("Fabric"). -/
def PORT_EVENT.off : Nat := 0x418
def PORT_EVENT.DROP : Fld := ⟨0x418, 2, 1⟩
def PORT_EVENT.TRUNC : Fld := ⟨0x418, 1, 1⟩
def PORT_EVENT.CFG_ERR : Fld := ⟨0x418, 0, 1⟩
/-- CRC_ERR_COUNT ("Molmevo"). -/
def CRC_ERR_COUNT.off : Nat := 0x310
def CRC_ERR_COUNT.COUNT : Fld := ⟨0x310, 0, 32⟩
/-- HDR_CHK_COUNT ("Molmevo"). -/
def HDR_CHK_COUNT.off : Nat := 0x314
def HDR_CHK_COUNT.COUNT : Fld := ⟨0x314, 0, 32⟩
/-- CTL_CHK_COUNT ("Molmevo"). -/
def CTL_CHK_COUNT.off : Nat := 0x318
def CTL_CHK_COUNT.COUNT : Fld := ⟨0x318, 0, 32⟩
/-- UNKNOWN_CTL_COUNT ("Molmevo"). -/
def UNKNOWN_CTL_COUNT.off : Nat := 0x31C
def UNKNOWN_CTL_COUNT.COUNT : Fld := ⟨0x31C, 0, 32⟩
/-- ORPHAN_COUNT ("Molmevo"). -/
def ORPHAN_COUNT.off : Nat := 0x320
def ORPHAN_COUNT.COUNT : Fld := ⟨0x320, 0, 32⟩
/-- PROTO_ERR_COUNT ("Molmevo"). -/
def PROTO_ERR_COUNT.off : Nat := 0x324
def PROTO_ERR_COUNT.COUNT : Fld := ⟨0x324, 0, 32⟩
/-- DRAIN_DROP_COUNT ("Molmevo"). -/
def DRAIN_DROP_COUNT.off : Nat := 0x328
def DRAIN_DROP_COUNT.COUNT : Fld := ⟨0x328, 0, 32⟩
/-- STALE_RESP_COUNT ("Molmevo"). -/
def STALE_RESP_COUNT.off : Nat := 0x32C
def STALE_RESP_COUNT.COUNT : Fld := ⟨0x32C, 0, 32⟩

/-! Fields: block trunkOnly. -/

/-- TX_FIR ("Lanes: Electrical"). -/
def TX_FIR.off : Nat := 0x118
def TX_FIR.MAIN : Fld := ⟨0x118, 16, 6⟩
def TX_FIR.POST : Fld := ⟨0x118, 8, 5⟩
def TX_FIR.PRE : Fld := ⟨0x118, 0, 4⟩

/-! Fields: block hit. -/

/-- DFE_CTRL ("Lanes: Electrical"). -/
def DFE_CTRL.off : Nat := 0x130
def DFE_CTRL.SNAP : Fld := ⟨0x130, 31, 1⟩
def DFE_CTRL.FREEZE : Fld := ⟨0x130, 16, 12⟩
def DFE_CTRL.MU : Fld := ⟨0x130, 2, 2⟩
def DFE_CTRL.ADAPT_EN : Fld := ⟨0x130, 0, 1⟩
/-- DFE_LOAD ("Lanes: Electrical"). -/
def DFE_LOAD.off : Nat := 0x134
def DFE_LOAD.LOAD : Fld := ⟨0x134, 31, 1⟩
def DFE_LOAD.TAP : Fld := ⟨0x134, 16, 4⟩
def DFE_LOAD.VALUE : Fld := ⟨0x134, 0, 8⟩
/-- DFE_TAP ("Lanes: Electrical"). -/
def DFE_TAP.off : Nat := 0x140
def DFE_TAP.AT_LIMIT : Fld := ⟨0x140, 8, 1⟩
def DFE_TAP.VALUE : Fld := ⟨0x140, 0, 8⟩
/-- DFE_DLEV ("Lanes: Electrical"). -/
def DFE_DLEV.off : Nat := 0x170
def DFE_DLEV.DLEV : Fld := ⟨0x170, 0, 7⟩
/-- DIRECT_CFG ("Rings"). -/
def DIRECT_CFG.off : Nat := 0x500
def DIRECT_CFG.MAP_BASE : Fld := ⟨0x500, 12, 17⟩
def DIRECT_CFG.MAP_LOG : Fld := ⟨0x500, 4, 5⟩
def DIRECT_CFG.EN : Fld := ⟨0x500, 0, 1⟩
/-- DIRECT_DROP_COUNT ("Rings"). -/
def DIRECT_DROP_COUNT.off : Nat := 0x504
def DIRECT_DROP_COUNT.COUNT : Fld := ⟨0x504, 0, 32⟩

/-! Fields: block lg. -/

/-- LG_PLL_CFG ("Lanes: Electrical"). -/
def LG_PLL_CFG.off : Nat := 0x100
def LG_PLL_CFG.MF : Fld := ⟨0x100, 8, 24⟩
def LG_PLL_CFG.MI : Fld := ⟨0x100, 0, 8⟩
/-- LG_STATUS ("Lanes: Electrical"). -/
def LG_STATUS.off : Nat := 0x104
def LG_STATUS.VCO_BAND : Fld := ⟨0x104, 4, 4⟩
def LG_STATUS.CAL_DONE : Fld := ⟨0x104, 2, 1⟩
def LG_STATUS.PLL_LOCK : Fld := ⟨0x104, 1, 1⟩
def LG_STATUS.REF_PRESENT : Fld := ⟨0x104, 0, 1⟩
/-- LG_VCO_MHZ ("Lanes: Electrical"). -/
def LG_VCO_MHZ.off : Nat := 0x108
def LG_VCO_MHZ.MHZ : Fld := ⟨0x108, 0, 16⟩
/-- LG_EVENT ("Lanes: Electrical"). -/
def LG_EVENT.off : Nat := 0x10C
def LG_EVENT.REF_BACK : Fld := ⟨0x10C, 3, 1⟩
def LG_EVENT.PLL_REJECT : Fld := ⟨0x10C, 2, 1⟩
def LG_EVENT.PLL_UNLOCK : Fld := ⟨0x10C, 1, 1⟩
def LG_EVENT.REF_LOST : Fld := ⟨0x10C, 0, 1⟩
/-- LG_LOCK_LIMIT ("Lanes: Electrical"). -/
def LG_LOCK_LIMIT.off : Nat := 0x110
def LG_LOCK_LIMIT.LIMIT : Fld := ⟨0x110, 0, 16⟩

/-! Fields: block tile. -/

/-- TILE_STATUS ("Fabric"). -/
def TILE_STATUS.off : Nat := 0x100
def TILE_STATUS.CONFLICT : Fld := ⟨0x100, 3, 1⟩
def TILE_STATUS.GALLEY_FENCE : Fld := ⟨0x100, 2, 1⟩
def TILE_STATUS.COLUMN_FENCE : Fld := ⟨0x100, 1, 1⟩
def TILE_STATUS.CLK_RUN : Fld := ⟨0x100, 0, 1⟩
/-- TALLY_RES_COUNT ("Fabric"). -/
def TALLY_RES_COUNT.off : Nat := 0x104
def TALLY_RES_COUNT.COUNT : Fld := ⟨0x104, 0, 32⟩
/-- TALLY_RES_LOG ("Fabric"). -/
def TALLY_RES_LOG.off : Nat := 0x108
def TALLY_RES_LOG.CROSS : Fld := ⟨0x108, 16, 16⟩
def TALLY_RES_LOG.MODE : Fld := ⟨0x108, 7, 2⟩
def TALLY_RES_LOG.UNIT : Fld := ⟨0x108, 2, 5⟩
def TALLY_RES_LOG.VALID : Fld := ⟨0x108, 0, 1⟩
/-- DRIVE_LOG ("Fabric"). -/
def DRIVE_LOG.off : Nat := 0x10C
def DRIVE_LOG.SOURCE : Fld := ⟨0x10C, 14, 2⟩
def DRIVE_LOG.SLOT : Fld := ⟨0x10C, 12, 2⟩
def DRIVE_LOG.SHAFT : Fld := ⟨0x10C, 0, 10⟩
/-- DRIVE_LOG_V ("Fabric"). -/
def DRIVE_LOG_V.off : Nat := 0x110
def DRIVE_LOG_V.VALID : Fld := ⟨0x110, 0, 1⟩
/-- TILE_EVENT ("Fabric"). -/
def TILE_EVENT.off : Nat := 0x114
def TILE_EVENT.FENCE_RELEASED : Fld := ⟨0x114, 3, 1⟩
def TILE_EVENT.FENCE_ENGAGED : Fld := ⟨0x114, 2, 1⟩
def TILE_EVENT.DRIVE_CONFLICT : Fld := ⟨0x114, 1, 1⟩
def TILE_EVENT.RES_ERR : Fld := ⟨0x114, 0, 1⟩

/-! Fields: block config. -/

/-- PLATE_CTRL ("Plates"). -/
def PLATE_CTRL.off : Nat := 0x100
def PLATE_CTRL.AUTO_RECOVER : Fld := ⟨0x100, 1, 1⟩
def PLATE_CTRL.SCRUB_EN : Fld := ⟨0x100, 0, 1⟩
/-- PCMD ("Plates"). -/
def PCMD.off : Nat := 0x104
def PCMD.GO : Fld := ⟨0x104, 31, 1⟩
def PCMD.OP : Fld := ⟨0x104, 16, 4⟩
def PCMD.PLATE : Fld := ⟨0x104, 8, 8⟩
def PCMD.STAGE_SLOT : Fld := ⟨0x104, 4, 2⟩
def PCMD.PLATE_SLOT : Fld := ⟨0x104, 0, 2⟩
/-- PCMD_GROUPS ("Plates"). -/
def PCMD_GROUPS.off : Nat := 0x108
def PCMD_GROUPS.MASK : Fld := ⟨0x108, 0, 16⟩
/-- PCMD_STATUS ("Plates"). -/
def PCMD_STATUS.off : Nat := 0x10C
def PCMD_STATUS.DATA_BUSY : Fld := ⟨0x10C, 31, 1⟩
def PCMD_STATUS.GROUP : Fld := ⟨0x10C, 16, 4⟩
def PCMD_STATUS.STATUS : Fld := ⟨0x10C, 0, 8⟩
/-- PSW_TARGET_LO ("Plates"). -/
def PSW_TARGET_LO.off : Nat := 0x110
def PSW_TARGET_LO.CROSS_LO : Fld := ⟨0x110, 0, 32⟩
/-- PSW_TARGET_HI ("Plates"). -/
def PSW_TARGET_HI.off : Nat := 0x114
def PSW_TARGET_HI.CROSS_HI : Fld := ⟨0x114, 0, 16⟩
/-- PCYCLE ("Plates"). -/
def PCYCLE.off : Nat := 0x118
def PCYCLE.K : Fld := ⟨0x118, 12, 4⟩
def PCYCLE.LEN : Fld := ⟨0x118, 8, 1⟩
def PCYCLE.LIST : Fld := ⟨0x118, 0, 8⟩
/-- PLATE_EVENT ("Plates"). -/
def PLATE_EVENT.off : Nat := 0x11C
def PLATE_EVENT.RELOAD_FAIL : Fld := ⟨0x11C, 11, 1⟩
def PLATE_EVENT.RELOAD_DONE : Fld := ⟨0x11C, 10, 1⟩
def PLATE_EVENT.DED : Fld := ⟨0x11C, 9, 1⟩
def PLATE_EVENT.SEC : Fld := ⟨0x11C, 8, 1⟩
def PLATE_EVENT.CANCELLED : Fld := ⟨0x11C, 7, 1⟩
def PLATE_EVENT.SWITCH_FAIL : Fld := ⟨0x11C, 6, 1⟩
def PLATE_EVENT.SWITCHED : Fld := ⟨0x11C, 5, 1⟩
def PLATE_EVENT.STAGE_FAIL : Fld := ⟨0x11C, 4, 1⟩
def PLATE_EVENT.STAGE_DONE : Fld := ⟨0x11C, 3, 1⟩
def PLATE_EVENT.FILL_FAIL : Fld := ⟨0x11C, 2, 1⟩
def PLATE_EVENT.FILL_DONE : Fld := ⟨0x11C, 1, 1⟩
def PLATE_EVENT.STREAM_ERR : Fld := ⟨0x11C, 0, 1⟩
/-- STAGE_SRC_LO ("Plates"). -/
def STAGE_SRC_LO.off : Nat := 0x120
def STAGE_SRC_LO.ADDR_LO : Fld := ⟨0x120, 12, 20⟩
/-- STAGE_SRC_HI ("Plates"). -/
def STAGE_SRC_HI.off : Nat := 0x124
def STAGE_SRC_HI.ADDR_HI : Fld := ⟨0x124, 0, 24⟩
/-- STAGE_STATE ("Plates"). -/
def STAGE_STATE.off : Nat := 0x128
def STAGE_STATE.STATE : Fld := ⟨0x128, 0, 8⟩
/-- STAGE_INFO ("Plates"). -/
def STAGE_INFO.off : Nat := 0x130
def STAGE_INFO.VALID : Fld := ⟨0x130, 16, 16⟩
def STAGE_INFO.PLATE : Fld := ⟨0x130, 0, 8⟩
/-- PSLOT_G ("Plates"). -/
def PSLOT_G.off : Nat := 0x140
def PSLOT_G.PENDING : Fld := ⟨0x140, 19, 1⟩
def PSLOT_G.CYCLING : Fld := ⟨0x140, 18, 1⟩
def PSLOT_G.IN_FORCE : Fld := ⟨0x140, 16, 2⟩
def PSLOT_G.STATE : Fld := ⟨0x140, 0, 16⟩
/-- PSLOT_ID_G ("Plates"). -/
def PSLOT_ID_G.off : Nat := 0x180
def PSLOT_ID_G.PLATE : Fld := ⟨0x180, 0, 32⟩
/-- SCRUB_CTRL ("Plates"). -/
def SCRUB_CTRL.off : Nat := 0x1C0
def SCRUB_CTRL.PERIOD : Fld := ⟨0x1C0, 0, 8⟩
/-- SEC_COUNT ("Plates"). -/
def SEC_COUNT.off : Nat := 0x1C4
def SEC_COUNT.COUNT : Fld := ⟨0x1C4, 0, 32⟩
/-- DED_COUNT ("Plates"). -/
def DED_COUNT.off : Nat := 0x1C8
def DED_COUNT.COUNT : Fld := ⟨0x1C8, 0, 32⟩
/-- DED_LOG ("Plates"). -/
def DED_LOG.off : Nat := 0x1CC
def DED_LOG.COLUMN : Fld := ⟨0x1CC, 24, 8⟩
def DED_LOG.STAGE : Fld := ⟨0x1CC, 21, 1⟩
def DED_LOG.DIE : Fld := ⟨0x1CC, 20, 1⟩
def DED_LOG.SLOT : Fld := ⟨0x1CC, 18, 2⟩
def DED_LOG.VALID : Fld := ⟨0x1CC, 16, 1⟩
def DED_LOG.FRAME_ROW : Fld := ⟨0x1CC, 0, 12⟩
/-- PSTREAM_DATA ("Plates"). -/
def PSTREAM_DATA.off : Nat := 0x1D0
def PSTREAM_DATA.DATA : Fld := ⟨0x1D0, 0, 32⟩

/-! Fields: block colM1. -/

/-- MEM_CTRL ("The Memory Die"). -/
def MEM_CTRL.off : Nat := 0x100
def MEM_CTRL.BASE_WAIT_MAX : Fld := ⟨0x100, 8, 8⟩
def MEM_CTRL.ROW_REPAIR_EN : Fld := ⟨0x100, 2, 1⟩
def MEM_CTRL.SCRUB_EN : Fld := ⟨0x100, 1, 1⟩
def MEM_CTRL.TWIN : Fld := ⟨0x100, 0, 1⟩
/-- MEM_STATUS ("The Memory Die"). -/
def MEM_STATUS.off : Nat := 0x104
def MEM_STATUS.DEAD : Fld := ⟨0x104, 16, 8⟩
def MEM_STATUS.RELIEF_ACTIVE : Fld := ⟨0x104, 15, 1⟩
def MEM_STATUS.RELIEF_BANK : Fld := ⟨0x104, 12, 3⟩
def MEM_STATUS.INIT_DONE : Fld := ⟨0x104, 3, 1⟩
def MEM_STATUS.MARCH_BUSY : Fld := ⟨0x104, 2, 1⟩
def MEM_STATUS.TWIN_ACTIVE : Fld := ⟨0x104, 0, 1⟩
/-- MEM_EVENT ("The Memory Die"). -/
def MEM_EVENT.off : Nat := 0x108
def MEM_EVENT.MARCH_REJECT : Fld := ⟨0x108, 10, 1⟩
def MEM_EVENT.ROW_SPARES_OUT : Fld := ⟨0x108, 9, 1⟩
def MEM_EVENT.BANK_DEAD : Fld := ⟨0x108, 8, 1⟩
def MEM_EVENT.ROW_REMAP : Fld := ⟨0x108, 7, 1⟩
def MEM_EVENT.MARCH_FAIL : Fld := ⟨0x108, 6, 1⟩
def MEM_EVENT.MARCH_DONE : Fld := ⟨0x108, 5, 1⟩
def MEM_EVENT.SCRUB_LATE : Fld := ⟨0x108, 4, 1⟩
def MEM_EVENT.TWIN_BUSY : Fld := ⟨0x108, 3, 1⟩
def MEM_EVENT.RT_RES_ERR : Fld := ⟨0x108, 2, 1⟩
def MEM_EVENT.DED : Fld := ⟨0x108, 1, 1⟩
def MEM_EVENT.SEC : Fld := ⟨0x108, 0, 1⟩
/-- MEM_SEC_COUNT ("The Memory Die"). -/
def MEM_SEC_COUNT.off : Nat := 0x10C
def MEM_SEC_COUNT.COUNT : Fld := ⟨0x10C, 0, 32⟩
/-- MEM_DED_COUNT ("The Memory Die"). -/
def MEM_DED_COUNT.off : Nat := 0x110
def MEM_DED_COUNT.COUNT : Fld := ⟨0x110, 0, 32⟩
/-- RT_RES_COUNT ("The Memory Die"). -/
def RT_RES_COUNT.off : Nat := 0x114
def RT_RES_COUNT.COUNT : Fld := ⟨0x114, 0, 32⟩
/-- TWIN_BUSY_COUNT ("The Memory Die"). -/
def TWIN_BUSY_COUNT.off : Nat := 0x118
def TWIN_BUSY_COUNT.COUNT : Fld := ⟨0x118, 0, 32⟩
/-- MEM_DED_LOG ("The Memory Die"). -/
def MEM_DED_LOG.off : Nat := 0x11C
def MEM_DED_LOG.SOURCE : Fld := ⟨0x11C, 19, 3⟩
def MEM_DED_LOG.RELIEF : Fld := ⟨0x11C, 18, 1⟩
def MEM_DED_LOG.BANK : Fld := ⟨0x11C, 15, 3⟩
def MEM_DED_LOG.ROW : Fld := ⟨0x11C, 4, 11⟩
def MEM_DED_LOG.WORD : Fld := ⟨0x11C, 1, 3⟩
def MEM_DED_LOG.VALID : Fld := ⟨0x11C, 0, 1⟩
/-- MEM_SCRUB ("The Memory Die"). -/
def MEM_SCRUB.off : Nat := 0x120
def MEM_SCRUB.PERIOD : Fld := ⟨0x120, 0, 8⟩
/-- MARCH_CTRL ("The Memory Die"). -/
def MARCH_CTRL.off : Nat := 0x124
def MARCH_CTRL.GO : Fld := ⟨0x124, 31, 1⟩
def MARCH_CTRL.MODE : Fld := ⟨0x124, 16, 1⟩
def MARCH_CTRL.BANKS : Fld := ⟨0x124, 0, 8⟩
/-- MARCH_STATUS ("The Memory Die"). -/
def MARCH_STATUS.off : Nat := 0x128
def MARCH_STATUS.FAIL : Fld := ⟨0x128, 8, 8⟩
def MARCH_STATUS.DONE : Fld := ⟨0x128, 0, 8⟩
/-- ROW_THRESH ("The Memory Die"). -/
def ROW_THRESH.off : Nat := 0x12C
def ROW_THRESH.THRESH : Fld := ⟨0x12C, 0, 8⟩
/-- SPARE_ROWS ("The Memory Die"). -/
def SPARE_ROWS.off : Nat := 0x130
def SPARE_ROWS.USED : Fld := ⟨0x130, 0, 32⟩
/-- SPARE_BL ("The Memory Die"). -/
def SPARE_BL.off : Nat := 0x134
def SPARE_BL.USED : Fld := ⟨0x134, 0, 32⟩

/-! Fields: block ring. -/

/-- ENG_CTRL ("Rings"). -/
def ENG_CTRL.off : Nat := 0x100
def ENG_CTRL.ACCQ_THRESH : Fld := ⟨0x100, 24, 8⟩
def ENG_CTRL.BUSY_EN : Fld := ⟨0x100, 16, 1⟩
def ENG_CTRL.STK_PRIO : Fld := ⟨0x100, 12, 4⟩
def ENG_CTRL.SWEEP : Fld := ⟨0x100, 8, 4⟩
def ENG_CTRL.NF : Fld := ⟨0x100, 0, 4⟩
/-- ENG_RETAIN ("Rings"). -/
def ENG_RETAIN.off : Nat := 0x104
def ENG_RETAIN.W : Fld := ⟨0x104, 0, 24⟩
/-- FIFO_CFG ("Rings"). -/
def FIFO_CFG.off : Nat := 0x108
def FIFO_CFG.RESUME : Fld := ⟨0x108, 16, 12⟩
def FIFO_CFG.THRESH : Fld := ⟨0x108, 0, 12⟩
/-- ENG_GUARD ("Rings"). -/
def ENG_GUARD.off : Nat := 0x10C
def ENG_GUARD.SCAN_SLACK : Fld := ⟨0x10C, 8, 8⟩
def ENG_GUARD.AGE_GUARD : Fld := ⟨0x10C, 0, 8⟩
/-- ENG_OCC_LIMIT ("Rings"). -/
def ENG_OCC_LIMIT.off : Nat := 0x110
def ENG_OCC_LIMIT.LIMIT : Fld := ⟨0x110, 0, 32⟩
/-- RING_CMD ("Rings"). -/
def RING_CMD.off : Nat := 0x114
def RING_CMD.GO : Fld := ⟨0x114, 31, 1⟩
def RING_CMD.OP : Fld := ⟨0x114, 16, 2⟩
def RING_CMD.RING : Fld := ⟨0x114, 0, 14⟩
/-- RING_CMD_STATUS ("Rings"). -/
def RING_CMD_STATUS.off : Nat := 0x118
def RING_CMD_STATUS.STATUS : Fld := ⟨0x118, 0, 8⟩
/-- RQ_BASE_LO ("Rings"). -/
def RQ_BASE_LO.off : Nat := 0x11C
def RQ_BASE_LO.ADDR_LO : Fld := ⟨0x11C, 5, 27⟩
/-- RQ_BASE_HI ("Rings"). -/
def RQ_BASE_HI.off : Nat := 0x120
def RQ_BASE_HI.ADDR_HI : Fld := ⟨0x120, 0, 24⟩
/-- RQ_SIZE ("Rings"). -/
def RQ_SIZE.off : Nat := 0x124
def RQ_SIZE.LOG : Fld := ⟨0x124, 0, 5⟩
/-- RQ_WR ("Rings"). -/
def RQ_WR.off : Nat := 0x128
def RQ_WR.COUNT : Fld := ⟨0x128, 0, 32⟩
/-- RQ_RD ("Rings"). -/
def RQ_RD.off : Nat := 0x12C
def RQ_RD.COUNT : Fld := ⟨0x12C, 0, 32⟩
/-- ENG_STATUS ("Rings"). -/
def ENG_STATUS.off : Nat := 0x130
def ENG_STATUS.RING_BUSY : Fld := ⟨0x130, 31, 1⟩
def ENG_STATUS.NEAR_FULL : Fld := ⟨0x130, 30, 1⟩
def ENG_STATUS.REBUILDING : Fld := ⟨0x130, 29, 1⟩
def ENG_STATUS.FLUSHING : Fld := ⟨0x130, 28, 1⟩
def ENG_STATUS.GAP : Fld := ⟨0x130, 26, 2⟩
def ENG_STATUS.ACCQ : Fld := ⟨0x130, 16, 9⟩
def ENG_STATUS.FIFO : Fld := ⟨0x130, 0, 13⟩
/-- ENG_OCC ("Rings"). -/
def ENG_OCC.off : Nat := 0x134
def ENG_OCC.SLOTS : Fld := ⟨0x134, 0, 32⟩
/-- ENG_EVENT ("Rings"). -/
def ENG_EVENT.off : Nat := 0x138
def ENG_EVENT.PUSH_ERR : Fld := ⟨0x138, 13, 1⟩
def ENG_EVENT.JUMP_FLUSH : Fld := ⟨0x138, 12, 1⟩
def ENG_EVENT.DIR_REJECT : Fld := ⟨0x138, 11, 1⟩
def ENG_EVENT.REBUILD_DONE : Fld := ⟨0x138, 10, 1⟩
def ENG_EVENT.TREE_DED : Fld := ⟨0x138, 9, 1⟩
def ENG_EVENT.TREE_SEC : Fld := ⟨0x138, 8, 1⟩
def ENG_EVENT.FRAG_ERR : Fld := ⟨0x138, 7, 1⟩
def ENG_EVENT.ACC_DROP : Fld := ⟨0x138, 6, 1⟩
def ENG_EVENT.RD_ERR : Fld := ⟨0x138, 5, 1⟩
def ENG_EVENT.WR_ERR : Fld := ⟨0x138, 4, 1⟩
def ENG_EVENT.RING_DEAD : Fld := ⟨0x138, 3, 1⟩
def ENG_EVENT.PREM_LOSS : Fld := ⟨0x138, 2, 1⟩
def ENG_EVENT.GAP_WRITTEN : Fld := ⟨0x138, 1, 1⟩
def ENG_EVENT.OVERFLOW : Fld := ⟨0x138, 0, 1⟩
/-- DEAD_LOG ("Rings"). -/
def DEAD_LOG.off : Nat := 0x13C
def DEAD_LOG.VALID : Fld := ⟨0x13C, 31, 1⟩
def DEAD_LOG.RING : Fld := ⟨0x13C, 0, 14⟩
/-- ACC_TYPE_CFG ("Rings"). -/
def ACC_TYPE_CFG.off : Nat := 0x140
def ACC_TYPE_CFG.AFTER : Fld := ⟨0x140, 24, 8⟩
def ACC_TYPE_CFG.BEFORE : Fld := ⟨0x140, 16, 8⟩
def ACC_TYPE_CFG.MAP : Fld := ⟨0x140, 0, 16⟩
/-- GRP_DEST ("Rings"). -/
def GRP_DEST.off : Nat := 0x180
def GRP_DEST.STREAM : Fld := ⟨0x180, 16, 16⟩
def GRP_DEST.EN : Fld := ⟨0x180, 9, 1⟩
def GRP_DEST.RQ : Fld := ⟨0x180, 8, 1⟩
def GRP_DEST.LANE : Fld := ⟨0x180, 0, 4⟩
/-- PUSH_ERR_COUNT ("Rings"). -/
def PUSH_ERR_COUNT.off : Nat := 0x1C0
def PUSH_ERR_COUNT.COUNT : Fld := ⟨0x1C0, 0, 32⟩
/-- FIFO_DISC_COUNT ("Rings"). -/
def FIFO_DISC_COUNT.off : Nat := 0x1C4
def FIFO_DISC_COUNT.COUNT : Fld := ⟨0x1C4, 0, 32⟩
/-- PREM_LOSS_COUNT ("Rings"). -/
def PREM_LOSS_COUNT.off : Nat := 0x1C8
def PREM_LOSS_COUNT.COUNT : Fld := ⟨0x1C8, 0, 32⟩
/-- WR_ERR_COUNT ("Rings"). -/
def WR_ERR_COUNT.off : Nat := 0x1CC
def WR_ERR_COUNT.COUNT : Fld := ⟨0x1CC, 0, 32⟩
/-- RD_ERR_COUNT ("Rings"). -/
def RD_ERR_COUNT.off : Nat := 0x1D0
def RD_ERR_COUNT.COUNT : Fld := ⟨0x1D0, 0, 32⟩
/-- ACC_DONE_COUNT ("Rings"). -/
def ACC_DONE_COUNT.off : Nat := 0x1D4
def ACC_DONE_COUNT.COUNT : Fld := ⟨0x1D4, 0, 32⟩
/-- ACC_DROP_COUNT ("Rings"). -/
def ACC_DROP_COUNT.off : Nat := 0x1D8
def ACC_DROP_COUNT.COUNT : Fld := ⟨0x1D8, 0, 32⟩
/-- FRAG_COUNT ("Rings"). -/
def FRAG_COUNT.off : Nat := 0x1DC
def FRAG_COUNT.COUNT : Fld := ⟨0x1DC, 0, 32⟩
/-- FRAG_ERR_COUNT ("Rings"). -/
def FRAG_ERR_COUNT.off : Nat := 0x1E0
def FRAG_ERR_COUNT.COUNT : Fld := ⟨0x1E0, 0, 32⟩
/-- TREE_SEC_COUNT ("Rings"). -/
def TREE_SEC_COUNT.off : Nat := 0x1E4
def TREE_SEC_COUNT.COUNT : Fld := ⟨0x1E4, 0, 32⟩
/-- TREE_DED_COUNT ("Rings"). -/
def TREE_DED_COUNT.off : Nat := 0x1E8
def TREE_DED_COUNT.COUNT : Fld := ⟨0x1E8, 0, 32⟩
/-- DESC_DED_COUNT ("Rings"). -/
def DESC_DED_COUNT.off : Nat := 0x1EC
def DESC_DED_COUNT.COUNT : Fld := ⟨0x1EC, 0, 32⟩

/-! Fields: block strike. -/

/-- STK_CTRL ("The Strike Port"). -/
def STK_CTRL.off : Nat := 0x100
def STK_CTRL.BUSY_MIN : Fld := ⟨0x100, 16, 4⟩
def STK_CTRL.THR_MASK : Fld := ⟨0x100, 8, 8⟩
def STK_CTRL.THR_EN : Fld := ⟨0x100, 3, 1⟩
def STK_CTRL.HOLD_ACC : Fld := ⟨0x100, 2, 1⟩
def STK_CTRL.FORCE_BUSY : Fld := ⟨0x100, 1, 1⟩
def STK_CTRL.HOLD : Fld := ⟨0x100, 0, 1⟩
/-- STK_SRC ("The Strike Port"). -/
def STK_SRC.off : Nat := 0x104
def STK_SRC.B_VALID : Fld := ⟨0x104, 25, 1⟩
def STK_SRC.B_DIE : Fld := ⟨0x104, 24, 1⟩
def STK_SRC.B_COL : Fld := ⟨0x104, 16, 8⟩
def STK_SRC.A_VALID : Fld := ⟨0x104, 9, 1⟩
def STK_SRC.A_DIE : Fld := ⟨0x104, 8, 1⟩
def STK_SRC.A_COL : Fld := ⟨0x104, 0, 8⟩
/-- STK_ACC_CFG ("The Strike Port"). -/
def STK_ACC_CFG.off : Nat := 0x108
def STK_ACC_CFG.ACC_CYCLE : Fld := ⟨0x108, 16, 4⟩
def STK_ACC_CFG.TYPE_EN : Fld := ⟨0x108, 0, 16⟩
/-- STK_BUSY_EN ("The Strike Port"). -/
def STK_BUSY_EN.off : Nat := 0x10C
def STK_BUSY_EN.ACCEPT : Fld := ⟨0x10C, 2, 1⟩
def STK_BUSY_EN.FABRIC : Fld := ⟨0x10C, 1, 1⟩
def STK_BUSY_EN.RINGS : Fld := ⟨0x10C, 0, 1⟩
/-- STK_STATUS ("The Strike Port"). -/
def STK_STATUS.off : Nat := 0x110
def STK_STATUS.BUSY_SRC : Fld := ⟨0x110, 16, 6⟩
def STK_STATUS.HOLD_STATE : Fld := ⟨0x110, 12, 1⟩
def STK_STATUS.HOLD_MODE : Fld := ⟨0x110, 11, 1⟩
def STK_STATUS.HOLD_SW : Fld := ⟨0x110, 10, 1⟩
def STK_STATUS.HOLD_THERMAL : Fld := ⟨0x110, 9, 1⟩
def STK_STATUS.HOLD_KRYUP : Fld := ⟨0x110, 8, 1⟩
def STK_STATUS.HOLD : Fld := ⟨0x110, 4, 1⟩
def STK_STATUS.BUSY : Fld := ⟨0x110, 3, 1⟩
def STK_STATUS.LAST_STATUS : Fld := ⟨0x110, 0, 3⟩
/-- STK_LAST ("The Strike Port"). -/
def STK_LAST.off : Nat := 0x114
def STK_LAST.CROSS : Fld := ⟨0x114, 16, 16⟩
def STK_LAST.WORD : Fld := ⟨0x114, 0, 16⟩
/-- STK_EVENT ("The Strike Port"). -/
def STK_EVENT.off : Nat := 0x118
def STK_EVENT.BUSY_ON : Fld := ⟨0x118, 7, 1⟩
def STK_EVENT.ACC_DROP : Fld := ⟨0x118, 6, 1⟩
def STK_EVENT.HOLD_LEFT : Fld := ⟨0x118, 5, 1⟩
def STK_EVENT.HOLD_ENTERED : Fld := ⟨0x118, 4, 1⟩
def STK_EVENT.THROTTLED : Fld := ⟨0x118, 3, 1⟩
def STK_EVENT.DISAGREE : Fld := ⟨0x118, 2, 1⟩
def STK_EVENT.BREACH : Fld := ⟨0x118, 1, 1⟩
def STK_EVENT.NOT_READY : Fld := ⟨0x118, 0, 1⟩
/-- DISAGREE_LOG ("The Strike Port"). -/
def DISAGREE_LOG.off : Nat := 0x13C
def DISAGREE_LOG.VALID : Fld := ⟨0x13C, 31, 1⟩
def DISAGREE_LOG.CROSS : Fld := ⟨0x13C, 16, 12⟩
def DISAGREE_LOG.LINES_B : Fld := ⟨0x13C, 8, 8⟩
def DISAGREE_LOG.LINES_A : Fld := ⟨0x13C, 0, 8⟩
/-- STK_ACC_LAST ("The Strike Port"). -/
def STK_ACC_LAST.off : Nat := 0x140
def STK_ACC_LAST.CROSS : Fld := ⟨0x140, 16, 16⟩
def STK_ACC_LAST.TYPE : Fld := ⟨0x140, 8, 4⟩
/-- STK_ACC_LAST_J ("The Strike Port"). -/
def STK_ACC_LAST_J.off : Nat := 0x144
def STK_ACC_LAST_J.CROSS : Fld := ⟨0x144, 0, 16⟩
/-- NOT_READY_COUNT ("The Strike Port"). -/
def NOT_READY_COUNT.off : Nat := 0x11C
def NOT_READY_COUNT.COUNT : Fld := ⟨0x11C, 0, 32⟩
/-- BREACH_PRESENT_COUNT ("The Strike Port"). -/
def BREACH_PRESENT_COUNT.off : Nat := 0x120
def BREACH_PRESENT_COUNT.COUNT : Fld := ⟨0x120, 0, 32⟩
/-- DISAGREE_COUNT ("The Strike Port"). -/
def DISAGREE_COUNT.off : Nat := 0x124
def DISAGREE_COUNT.COUNT : Fld := ⟨0x124, 0, 32⟩
/-- THROTTLE_COUNT ("The Strike Port"). -/
def THROTTLE_COUNT.off : Nat := 0x128
def THROTTLE_COUNT.COUNT : Fld := ⟨0x128, 0, 32⟩
/-- HOLD_COUNT ("The Strike Port"). -/
def HOLD_COUNT.off : Nat := 0x12C
def HOLD_COUNT.COUNT : Fld := ⟨0x12C, 0, 32⟩
/-- BUSY_COUNT ("The Strike Port"). -/
def BUSY_COUNT.off : Nat := 0x130
def BUSY_COUNT.COUNT : Fld := ⟨0x130, 0, 32⟩
/-- STK_ACC_COUNT ("The Strike Port"). -/
def STK_ACC_COUNT.off : Nat := 0x134
def STK_ACC_COUNT.COUNT : Fld := ⟨0x134, 0, 32⟩
/-- STK_ACC_DROP_COUNT ("The Strike Port"). -/
def STK_ACC_DROP_COUNT.off : Nat := 0x138
def STK_ACC_DROP_COUNT.COUNT : Fld := ⟨0x138, 0, 32⟩

/-! Fields: block mc. -/

/-- MC_CFG ("External Memory"). -/
def MC_CFG.off : Nat := 0x100
def MC_CFG.INIT : Fld := ⟨0x100, 8, 2⟩
def MC_CFG.RANKS : Fld := ⟨0x100, 5, 1⟩
def MC_CFG.DENSITY : Fld := ⟨0x100, 3, 2⟩
def MC_CFG.RATE : Fld := ⟨0x100, 0, 3⟩
/-- MC_STATUS ("External Memory"). -/
def MC_STATUS.off : Nat := 0x104
def MC_STATUS.SELF_REFRESH : Fld := ⟨0x104, 17, 1⟩
def MC_STATUS.MPLL_LOCK : Fld := ⟨0x104, 16, 1⟩
def MC_STATUS.FAULTED : Fld := ⟨0x104, 8, 8⟩
def MC_STATUS.TRAINED : Fld := ⟨0x104, 0, 8⟩
/-- MC_EVENT ("External Memory"). -/
def MC_EVENT.off : Nat := 0x108
def MC_EVENT.DRAM_HOT : Fld := ⟨0x108, 4, 1⟩
def MC_EVENT.CH_FAULT : Fld := ⟨0x108, 3, 1⟩
def MC_EVENT.INIT_DONE : Fld := ⟨0x108, 2, 1⟩
def MC_EVENT.DED : Fld := ⟨0x108, 1, 1⟩
def MC_EVENT.SEC : Fld := ⟨0x108, 0, 1⟩
/-- MC_SCRUB ("External Memory"). -/
def MC_SCRUB.off : Nat := 0x10C
def MC_SCRUB.POISON : Fld := ⟨0x10C, 17, 1⟩
def MC_SCRUB.EN : Fld := ⟨0x10C, 16, 1⟩
def MC_SCRUB.PERIOD : Fld := ⟨0x10C, 0, 16⟩
/-- MC_SEC_COUNT ("External Memory"). -/
def MC_SEC_COUNT.off : Nat := 0x110
def MC_SEC_COUNT.COUNT : Fld := ⟨0x110, 0, 32⟩
/-- MC_DED_COUNT ("External Memory"). -/
def MC_DED_COUNT.off : Nat := 0x114
def MC_DED_COUNT.COUNT : Fld := ⟨0x114, 0, 32⟩
/-- MC_RETRAIN_COUNT ("External Memory"). -/
def MC_RETRAIN_COUNT.off : Nat := 0x118
def MC_RETRAIN_COUNT.COUNT : Fld := ⟨0x118, 0, 32⟩

/-! Fields: block crypto. -/

/-- CRY_EVENT ("External Memory"). -/
def CRY_EVENT.off : Nat := 0x100
def CRY_EVENT.POISON : Fld := ⟨0x100, 3, 1⟩
def CRY_EVENT.KEY : Fld := ⟨0x100, 2, 1⟩
def CRY_EVENT.UNCORR : Fld := ⟨0x100, 1, 1⟩
def CRY_EVENT.TAG : Fld := ⟨0x100, 0, 1⟩
/-- CRY_LOG_ADDR ("External Memory"). -/
def CRY_LOG_ADDR.off : Nat := 0x104
def CRY_LOG_ADDR.ADDR : Fld := ⟨0x104, 6, 26⟩
def CRY_LOG_ADDR.VALID : Fld := ⟨0x104, 0, 1⟩
/-- CRY_LOG_INFO ("External Memory"). -/
def CRY_LOG_INFO.off : Nat := 0x108
def CRY_LOG_INFO.KEY : Fld := ⟨0x108, 28, 4⟩
def CRY_LOG_INFO.CLASS : Fld := ⟨0x108, 25, 3⟩
def CRY_LOG_INFO.CAUSE : Fld := ⟨0x108, 22, 3⟩
def CRY_LOG_INFO.ADDR_HI : Fld := ⟨0x108, 8, 5⟩
def CRY_LOG_INFO.CHANNEL : Fld := ⟨0x108, 4, 4⟩
/-- KEY_SLOT ("External Memory"). -/
def KEY_SLOT.off : Nat := 0x800
def KEY_SLOT.STATE : Fld := ⟨0x800, 30, 2⟩
def KEY_SLOT.PERM_CFG : Fld := ⟨0x800, 18, 1⟩
def KEY_SLOT.PERM_RING : Fld := ⟨0x800, 17, 1⟩
def KEY_SLOT.PERM_FDP : Fld := ⟨0x800, 16, 1⟩
def KEY_SLOT.KCV : Fld := ⟨0x800, 0, 16⟩
/-- TAG_FAIL_COUNT ("External Memory"). -/
def TAG_FAIL_COUNT.off : Nat := 0x10C
def TAG_FAIL_COUNT.COUNT : Fld := ⟨0x10C, 0, 32⟩
/-- KEY_REFUSE_COUNT ("External Memory"). -/
def KEY_REFUSE_COUNT.off : Nat := 0x110
def KEY_REFUSE_COUNT.COUNT : Fld := ⟨0x110, 0, 32⟩
/-- POISON_COUNT ("External Memory"). -/
def POISON_COUNT.off : Nat := 0x114
def POISON_COUNT.COUNT : Fld := ⟨0x114, 0, 32⟩
/-- REG_BASE ("External Memory"). -/
def REG_BASE.off : Nat := 0x200
def REG_BASE.BASE : Fld := ⟨0x200, 0, 32⟩
/-- REG_SIZE ("External Memory"). -/
def REG_SIZE.off : Nat := 0x204
def REG_SIZE.SIZE : Fld := ⟨0x204, 0, 32⟩
/-- REG_LBN_LO ("External Memory"). -/
def REG_LBN_LO.off : Nat := 0x208
def REG_LBN_LO.LBN_LO : Fld := ⟨0x208, 0, 32⟩
/-- REG_LBN_HI ("External Memory"). -/
def REG_LBN_HI.off : Nat := 0x20C
def REG_LBN_HI.EN : Fld := ⟨0x20C, 31, 1⟩
def REG_LBN_HI.SECTOR : Fld := ⟨0x20C, 30, 1⟩
def REG_LBN_HI.LBN_HI : Fld := ⟨0x20C, 0, 16⟩

/-! Fields: block mover. -/

/-- MV_CTRL ("External Memory"). -/
def MV_CTRL.off : Nat := 0x100
def MV_CTRL.GO : Fld := ⟨0x100, 0, 1⟩
/-- MV_DESC_LO ("External Memory"). -/
def MV_DESC_LO.off : Nat := 0x104
def MV_DESC_LO.ADDR_LO : Fld := ⟨0x104, 5, 27⟩
/-- MV_DESC_HI ("External Memory"). -/
def MV_DESC_HI.off : Nat := 0x108
def MV_DESC_HI.ADDR_HI : Fld := ⟨0x108, 0, 24⟩
/-- MV_STATUS ("External Memory"). -/
def MV_STATUS.off : Nat := 0x10C
def MV_STATUS.BUSY : Fld := ⟨0x10C, 31, 1⟩
def MV_STATUS.ERR : Fld := ⟨0x10C, 8, 8⟩
/-- MV_EVENT ("External Memory"). -/
def MV_EVENT.off : Nat := 0x110
def MV_EVENT.CHAIN_ERR : Fld := ⟨0x110, 2, 1⟩
def MV_EVENT.CHAIN_DONE : Fld := ⟨0x110, 1, 1⟩
def MV_EVENT.DESC_DONE : Fld := ⟨0x110, 0, 1⟩
/-- MV_BYTES_COUNT ("External Memory"). -/
def MV_BYTES_COUNT.off : Nat := 0x114
def MV_BYTES_COUNT.COUNT : Fld := ⟨0x114, 0, 32⟩

/-! Fields: block clkgen. -/

/-- CLK_STATUS ("Clock Sources"). -/
def CLK_STATUS.off : Nat := 0x100
def CLK_STATUS.XA_FREQ : Fld := ⟨0x100, 21, 3⟩
def CLK_STATUS.FIO_OK : Fld := ⟨0x100, 20, 1⟩
def CLK_STATUS.XB_OK : Fld := ⟨0x100, 19, 1⟩
def CLK_STATUS.XA_OK : Fld := ⟨0x100, 18, 1⟩
def CLK_STATUS.SIO_OK : Fld := ⟨0x100, 17, 1⟩
def CLK_STATUS.TICK_SRC : Fld := ⟨0x100, 14, 2⟩
def CLK_STATUS.TRUNK_SRC : Fld := ⟨0x100, 10, 2⟩
def CLK_STATUS.REG_SRC : Fld := ⟨0x100, 8, 2⟩
def CLK_STATUS.TRUNK_SEQ : Fld := ⟨0x100, 4, 3⟩
def CLK_STATUS.REG_SEQ : Fld := ⟨0x100, 0, 3⟩
/-- CLK_CMD ("Clock Sources"). -/
def CLK_CMD.off : Nat := 0x104
def CLK_CMD.ROOT_SWAP : Fld := ⟨0x104, 5, 1⟩
def CLK_CMD.TRUNK_GO : Fld := ⟨0x104, 4, 1⟩
def CLK_CMD.TRUNK_TO : Fld := ⟨0x104, 2, 2⟩
def CLK_CMD.REG_GO : Fld := ⟨0x104, 1, 1⟩
def CLK_CMD.REG_TO : Fld := ⟨0x104, 0, 1⟩
/-- CLK_EVENT ("Clock Sources"). -/
def CLK_EVENT.off : Nat := 0x108
def CLK_EVENT.CMD_REJECT : Fld := ⟨0x108, 9, 1⟩
def CLK_EVENT.SOURCE_BACK : Fld := ⟨0x108, 8, 1⟩
def CLK_EVENT.TICK_FALLBACK : Fld := ⟨0x108, 7, 1⟩
def CLK_EVENT.CRAWL : Fld := ⟨0x108, 6, 1⟩
def CLK_EVENT.RELOCK_FAIL : Fld := ⟨0x108, 5, 1⟩
def CLK_EVENT.ROOT_SWAPPED : Fld := ⟨0x108, 4, 1⟩
def CLK_EVENT.FAILOVER : Fld := ⟨0x108, 3, 1⟩
def CLK_EVENT.SWITCH_FORCED : Fld := ⟨0x108, 2, 1⟩
def CLK_EVENT.TRUNK_SWITCHED : Fld := ⟨0x108, 1, 1⟩
def CLK_EVENT.REG_SWITCHED : Fld := ⟨0x108, 0, 1⟩
/-- CLK_STATE ("Clock Sources"). -/
def CLK_STATE.off : Nat := 0x10C
def CLK_STATE.TRUNK_UNK : Fld := ⟨0x10C, 1, 1⟩
def CLK_STATE.REG_UNK : Fld := ⟨0x10C, 0, 1⟩
/-- REG_CYC_LO ("Clock Sources"). -/
def REG_CYC_LO.off : Nat := 0x110
def REG_CYC_LO.CYC : Fld := ⟨0x110, 0, 32⟩
/-- REG_CYC_HI ("Clock Sources"). -/
def REG_CYC_HI.off : Nat := 0x114
def REG_CYC_HI.CYC : Fld := ⟨0x114, 0, 32⟩
/-- TRUNK_CYC_LO ("Clock Sources"). -/
def TRUNK_CYC_LO.off : Nat := 0x118
def TRUNK_CYC_LO.CYC : Fld := ⟨0x118, 0, 32⟩
/-- TRUNK_CYC_HI ("Clock Sources"). -/
def TRUNK_CYC_HI.off : Nat := 0x11C
def TRUNK_CYC_HI.CYC : Fld := ⟨0x11C, 0, 32⟩
/-- SW_LOST ("Clock Sources"). -/
def SW_LOST.off : Nat := 0x120
def SW_LOST.TRUNK : Fld := ⟨0x120, 16, 16⟩
def SW_LOST.REG : Fld := ⟨0x120, 0, 16⟩

/-! Fields: block pll. -/

/-- PLL_STATUS ("Clock Sources"). -/
def PLL_STATUS.off : Nat := 0x100
def PLL_STATUS.REF : Fld := ⟨0x100, 6, 2⟩
def PLL_STATUS.ALIGNED : Fld := ⟨0x100, 3, 1⟩
def PLL_STATUS.ACTIVE : Fld := ⟨0x100, 2, 1⟩
def PLL_STATUS.HOLDOVER : Fld := ⟨0x100, 1, 1⟩
def PLL_STATUS.LOCK : Fld := ⟨0x100, 0, 1⟩
/-- PLL_LOCK_LOSS_COUNT ("Clock Sources"). -/
def PLL_LOCK_LOSS_COUNT.off : Nat := 0x104
def PLL_LOCK_LOSS_COUNT.COUNT : Fld := ⟨0x104, 0, 32⟩

/-! Fields: block monitor. -/

/-- MON_CFG ("Clock Sources"). -/
def MON_CFG.off : Nat := 0x100
def MON_CFG.WIN : Fld := ⟨0x100, 16, 4⟩
def MON_CFG.TOL : Fld := ⟨0x100, 8, 5⟩
def MON_CFG.EN : Fld := ⟨0x100, 0, 1⟩
/-- MON_STATUS ("Clock Sources"). -/
def MON_STATUS.off : Nat := 0x104
def MON_STATUS.TRIPPED : Fld := ⟨0x104, 31, 1⟩
def MON_STATUS.DEAD : Fld := ⟨0x104, 30, 1⟩
def MON_STATUS.RUNNING : Fld := ⟨0x104, 29, 1⟩
/-- MON_FREQ ("Clock Sources"). -/
def MON_FREQ.off : Nat := 0x108
def MON_FREQ.KHZ : Fld := ⟨0x108, 0, 32⟩
/-- MON_TRIP_COUNT ("Clock Sources"). -/
def MON_TRIP_COUNT.off : Nat := 0x10C
def MON_TRIP_COUNT.COUNT : Fld := ⟨0x10C, 0, 32⟩

/-! Fields: block power. -/

/-- MODE_REQ ("Modes and Power"). -/
def MODE_REQ.off : Nat := 0x100
def MODE_REQ.GO : Fld := ⟨0x100, 31, 1⟩
def MODE_REQ.TARGET : Fld := ⟨0x100, 0, 4⟩
/-- MODE_STATUS ("Modes and Power"). -/
def MODE_STATUS.off : Nat := 0x104
def MODE_STATUS.REFUSE : Fld := ⟨0x104, 24, 4⟩
def MODE_STATUS.TARGET : Fld := ⟨0x104, 16, 4⟩
def MODE_STATUS.CHANGING : Fld := ⟨0x104, 8, 1⟩
def MODE_STATUS.MODE : Fld := ⟨0x104, 0, 4⟩
/-- MODE_EVENT ("Modes and Power"). -/
def MODE_EVENT.off : Nat := 0x108
def MODE_EVENT.PMB_FAIL : Fld := ⟨0x108, 3, 1⟩
def MODE_EVENT.WAKE : Fld := ⟨0x108, 2, 1⟩
def MODE_EVENT.REFUSED : Fld := ⟨0x108, 1, 1⟩
def MODE_EVENT.ENTERED : Fld := ⟨0x108, 0, 1⟩
/-- PWR_CFG ("Modes and Power"). -/
def PWR_CFG.off : Nat := 0x10C
def PWR_CFG.WAKE_TICK_EN : Fld := ⟨0x10C, 3, 1⟩
def PWR_CFG.WAKE_SPI_EN : Fld := ⟨0x10C, 2, 1⟩
def PWR_CFG.WAKE_N_EN : Fld := ⟨0x10C, 1, 1⟩
def PWR_CFG.SURGE_EN : Fld := ⟨0x10C, 0, 1⟩
/-- DORM_TIMER ("Modes and Power"). -/
def DORM_TIMER.off : Nat := 0x110
def DORM_TIMER.TICKS : Fld := ⟨0x110, 0, 32⟩
/-- VSET_A ("Modes and Power"). -/
def VSET_A.off : Nat := 0x114
def VSET_A.SURGE : Fld := ⟨0x114, 24, 8⟩
def VSET_A.ROLL : Fld := ⟨0x114, 16, 8⟩
def VSET_A.STRIKE : Fld := ⟨0x114, 8, 8⟩
def VSET_A.IDLE : Fld := ⟨0x114, 0, 8⟩
/-- VSET_B ("Modes and Power"). -/
def VSET_B.off : Nat := 0x118
def VSET_B.PROOF : Fld := ⟨0x118, 8, 8⟩
def VSET_B.ASSURED : Fld := ⟨0x118, 0, 8⟩
/-- PMB_CFG ("Modes and Power"). -/
def PMB_CFG.off : Nat := 0x11C
def PMB_CFG.SETTLE : Fld := ⟨0x11C, 16, 16⟩
def PMB_CFG.PAGE : Fld := ⟨0x11C, 8, 8⟩
def PMB_CFG.EN : Fld := ⟨0x11C, 7, 1⟩
def PMB_CFG.ADDR : Fld := ⟨0x11C, 0, 7⟩
/-- PMB_STATUS ("Modes and Power"). -/
def PMB_STATUS.off : Nat := 0x120
def PMB_STATUS.PMB_ERR : Fld := ⟨0x120, 23, 1⟩
def PMB_STATUS.IOUT : Fld := ⟨0x120, 0, 16⟩

/-! Fields: block pdctl. -/

/-- PD ("Modes and Power"). -/
def PD.off : Nat := 0x100
def PD.HELD : Fld := ⟨0x100, 9, 1⟩
def PD.PGOOD : Fld := ⟨0x100, 8, 1⟩
def PD.STATE : Fld := ⟨0x100, 4, 3⟩
def PD.ON : Fld := ⟨0x100, 0, 1⟩
/-- PD_EVENT ("Modes and Power"). -/
def PD_EVENT.off : Nat := 0x1A0
def PD_EVENT.RAMP_FAIL : Fld := ⟨0x1A0, 2, 1⟩
def PD_EVENT.PG_LOST : Fld := ⟨0x1A0, 1, 1⟩
def PD_EVENT.DEP_REJECT : Fld := ⟨0x1A0, 0, 1⟩

/-! Fields: block damper. -/

/-- DMP_CFG ("Modes and Power"). -/
def DMP_CFG.off : Nat := 0x100
def DMP_CFG.WIDEN : Fld := ⟨0x100, 24, 8⟩
def DMP_CFG.HOLD : Fld := ⟨0x100, 16, 4⟩
def DMP_CFG.P2 : Fld := ⟨0x100, 8, 5⟩
def DMP_CFG.P1 : Fld := ⟨0x100, 0, 5⟩
/-- DMP_TH ("Modes and Power"). -/
def DMP_TH.off : Nat := 0x104
def DMP_TH.TH2 : Fld := ⟨0x104, 8, 8⟩
def DMP_TH.TH1 : Fld := ⟨0x104, 0, 8⟩
/-- DMP_ADMIT ("Modes and Power"). -/
def DMP_ADMIT.off : Nat := 0x108
def DMP_ADMIT.NS : Fld := ⟨0x108, 0, 16⟩
/-- DMP_ACTIVE ("Modes and Power"). -/
def DMP_ACTIVE.off : Nat := 0x10C
def DMP_ACTIVE.WIDE : Fld := ⟨0x10C, 16, 4⟩
def DMP_ACTIVE.GROUPS : Fld := ⟨0x10C, 0, 16⟩
/-- DMP_EVENT ("Modes and Power"). -/
def DMP_EVENT.off : Nat := 0x110
def DMP_EVENT.OVER_BUDGET : Fld := ⟨0x110, 3, 1⟩
def DMP_EVENT.WIDENED : Fld := ⟨0x110, 2, 1⟩
def DMP_EVENT.LEVEL2 : Fld := ⟨0x110, 1, 1⟩
def DMP_EVENT.EPISODE : Fld := ⟨0x110, 0, 1⟩
/-- DMP_LOG ("Modes and Power"). -/
def DMP_LOG.off : Nat := 0x120
def DMP_LOG.CROSS : Fld := ⟨0x120, 16, 16⟩
def DMP_LOG.GROUP : Fld := ⟨0x120, 12, 4⟩
def DMP_LOG.LAYER : Fld := ⟨0x120, 5, 3⟩
def DMP_LOG.LEVEL : Fld := ⟨0x120, 1, 1⟩
def DMP_LOG.VALID : Fld := ⟨0x120, 0, 1⟩
/-- DMP_SWALLOW_COUNT ("Modes and Power"). -/
def DMP_SWALLOW_COUNT.off : Nat := 0x114
def DMP_SWALLOW_COUNT.COUNT : Fld := ⟨0x114, 0, 32⟩
/-- DMP_EPISODE_COUNT ("Modes and Power"). -/
def DMP_EPISODE_COUNT.off : Nat := 0x118
def DMP_EPISODE_COUNT.COUNT : Fld := ⟨0x118, 0, 32⟩
/-- DMP_WIDEN_COUNT ("Modes and Power"). -/
def DMP_WIDEN_COUNT.off : Nat := 0x11C
def DMP_WIDEN_COUNT.COUNT : Fld := ⟨0x11C, 0, 32⟩

/-! Fields: block column. -/

/-- TEMP ("Heat"). -/
def TEMP.off : Nat := 0x200
def TEMP.VALID1 : Fld := ⟨0x200, 31, 1⟩
def TEMP.S1 : Fld := ⟨0x200, 16, 9⟩
def TEMP.VALID0 : Fld := ⟨0x200, 15, 1⟩
def TEMP.S0 : Fld := ⟨0x200, 0, 9⟩
/-- TEMP_PEAK ("Heat"). -/
def TEMP_PEAK.off : Nat := 0x204
def TEMP_PEAK.PEAK : Fld := ⟨0x204, 0, 9⟩

/-! Fields: block kryup. -/

/-- THM_TH ("Heat"). -/
def THM_TH.off : Nat := 0x800
def THM_TH.HOLD : Fld := ⟨0x800, 24, 8⟩
def THM_TH.EVT : Fld := ⟨0x800, 16, 8⟩
def THM_TH.SW : Fld := ⟨0x800, 8, 8⟩
def THM_TH.BG : Fld := ⟨0x800, 0, 8⟩
/-- THM_CFG ("Heat"). -/
def THM_CFG.off : Nat := 0x804
def THM_CFG.P : Fld := ⟨0x804, 8, 5⟩
def THM_CFG.HYST : Fld := ⟨0x804, 0, 4⟩
/-- THM_STATUS ("Heat"). -/
def THM_STATUS.off : Nat := 0x808
def THM_STATUS.TRIPPED : Fld := ⟨0x808, 31, 1⟩
def THM_STATUS.STEP : Fld := ⟨0x808, 28, 3⟩
def THM_STATUS.HOT_TEMP : Fld := ⟨0x808, 16, 9⟩
def THM_STATUS.HOT_COL : Fld := ⟨0x808, 8, 8⟩
/-- THM_EVENT ("Heat"). -/
def THM_EVENT.off : Nat := 0x80C
def THM_EVENT.SENSOR_LOST : Fld := ⟨0x80C, 5, 1⟩
def THM_EVENT.TRIP : Fld := ⟨0x80C, 4, 1⟩
def THM_EVENT.HOLD : Fld := ⟨0x80C, 3, 1⟩
def THM_EVENT.HOT : Fld := ⟨0x80C, 2, 1⟩
def THM_EVENT.SWALLOW : Fld := ⟨0x80C, 1, 1⟩
def THM_EVENT.BG_SUSPEND : Fld := ⟨0x80C, 0, 1⟩
/-- KRY_STATUS ("Kryup"). -/
def KRY_STATUS.off : Nat := 0x100
def KRY_STATUS.ZEROISED : Fld := ⟨0x100, 7, 1⟩
def KRY_STATUS.HOLD : Fld := ⟨0x100, 6, 1⟩
def KRY_STATUS.ALARM : Fld := ⟨0x100, 5, 1⟩
def KRY_STATUS.WDG_RUN : Fld := ⟨0x100, 4, 1⟩
def KRY_STATUS.SEC_CLOSED : Fld := ⟨0x100, 3, 1⟩
def KRY_STATUS.POLICY : Fld := ⟨0x100, 0, 2⟩
/-- CAUSE_PEND ("Kryup"). -/
def CAUSE_PEND.off : Nat := 0x104
def CAUSE_PEND.LATCH : Fld := ⟨0x104, 1, 16⟩
/-- RESET_CAUSE ("Kryup"). -/
def RESET_CAUSE.off : Nat := 0x108
def RESET_CAUSE.WARM_COUNT : Fld := ⟨0x108, 16, 16⟩
def RESET_CAUSE.POLICY_CAUSE : Fld := ⟨0x108, 8, 8⟩
def RESET_CAUSE.LAST : Fld := ⟨0x108, 0, 3⟩
/-- RST_REQ ("Kryup"). -/
def RST_REQ.off : Nat := 0x10C
def RST_REQ.KEY : Fld := ⟨0x10C, 8, 8⟩
def RST_REQ.WARM : Fld := ⟨0x10C, 1, 1⟩
def RST_REQ.DEVICE : Fld := ⟨0x10C, 0, 1⟩
/-- WDG_CFG ("Kryup"). -/
def WDG_CFG.off : Nat := 0x110
def WDG_CFG.EN : Fld := ⟨0x110, 16, 1⟩
def WDG_CFG.PERIOD : Fld := ⟨0x110, 0, 16⟩
/-- WDG_STATUS ("Kryup"). -/
def WDG_STATUS.off : Nat := 0x114
def WDG_STATUS.SINCE : Fld := ⟨0x114, 0, 16⟩
/-- LOG_HEAD ("Kryup"). -/
def LOG_HEAD.off : Nat := 0x118
def LOG_HEAD.COUNT : Fld := ⟨0x118, 0, 32⟩
/-- PROP_CTRL ("Kryup"). -/
def PROP_CTRL.off : Nat := 0x11C
def PROP_CTRL.DISCARD : Fld := ⟨0x11C, 2, 1⟩
def PROP_CTRL.SUBMIT : Fld := ⟨0x11C, 1, 1⟩
def PROP_CTRL.OPEN : Fld := ⟨0x11C, 0, 1⟩
/-- PROP_DATA ("Kryup"). -/
def PROP_DATA.off : Nat := 0x120
def PROP_DATA.DATA : Fld := ⟨0x120, 0, 32⟩
/-- PROP_STATUS ("Kryup"). -/
def PROP_STATUS.off : Nat := 0x124
def PROP_STATUS.REJECT : Fld := ⟨0x124, 16, 8⟩
def PROP_STATUS.WORDS : Fld := ⟨0x124, 2, 13⟩
def PROP_STATUS.STATE : Fld := ⟨0x124, 0, 2⟩
/-- FUSE_SEC ("Kryup"). -/
def FUSE_SEC.off : Nat := 0x128
def FUSE_SEC.REVOKED : Fld := ⟨0x128, 4, 4⟩
def FUSE_SEC.PRESENT : Fld := ⟨0x128, 0, 4⟩
/-- POL_ENTRY0 ("Kryup"). -/
def POL_ENTRY0.off : Nat := 0x410
def POL_ENTRY0.HOLD : Fld := ⟨0x410, 16, 16⟩
def POL_ENTRY0.ACTIONS : Fld := ⟨0x410, 0, 8⟩
/-- POL_ENTRY1 ("Kryup"). -/
def POL_ENTRY1.off : Nat := 0x414
def POL_ENTRY1.DOM_LO : Fld := ⟨0x414, 0, 32⟩
/-- POL_ENTRY2 ("Kryup"). -/
def POL_ENTRY2.off : Nat := 0x418
def POL_ENTRY2.DOM_HI : Fld := ⟨0x418, 0, 8⟩
/-- POL_ENTRY3 ("Kryup"). -/
def POL_ENTRY3.off : Nat := 0x41C

/-! Fields: block stctl. -/

/-- BIST_STATUS ("Self-Test"). -/
def BIST_STATUS.off : Nat := 0x100
def BIST_STATUS.RAN : Fld := ⟨0x100, 31, 1⟩
def BIST_STATUS.B0_FAIL : Fld := ⟨0x100, 30, 1⟩
def BIST_STATUS.GROUPS_FAIL : Fld := ⟨0x100, 0, 16⟩
/-- BIST_TIME ("Self-Test"). -/
def BIST_TIME.off : Nat := 0x104
def BIST_TIME.MS : Fld := ⟨0x104, 0, 16⟩
/-- BIST_CMD ("Self-Test"). -/
def BIST_CMD.off : Nat := 0x108
def BIST_CMD.GO : Fld := ⟨0x108, 31, 1⟩
def BIST_CMD.B0 : Fld := ⟨0x108, 16, 1⟩
def BIST_CMD.GROUPS : Fld := ⟨0x108, 0, 16⟩
/-- PEAL_CTRL ("Self-Test"). -/
def PEAL_CTRL.off : Nat := 0x10C
def PEAL_CTRL.KIND_EN : Fld := ⟨0x10C, 1, 7⟩
def PEAL_CTRL.EN : Fld := ⟨0x10C, 0, 1⟩
/-- PEAL_CFG ("Self-Test"). -/
def PEAL_CFG.off : Nat := 0x110
def PEAL_CFG.EYE_MIN : Fld := ⟨0x110, 26, 6⟩
def PEAL_CFG.TH_DIFF : Fld := ⟨0x110, 20, 6⟩
def PEAL_CFG.PACE : Fld := ⟨0x110, 12, 8⟩
def PEAL_CFG.TOUR : Fld := ⟨0x110, 0, 12⟩
/-- PEAL_STATUS ("Self-Test"). -/
def PEAL_STATUS.off : Nat := 0x114
def PEAL_STATUS.RUNNING : Fld := ⟨0x114, 31, 1⟩
def PEAL_STATUS.KIND : Fld := ⟨0x114, 28, 3⟩
def PEAL_STATUS.COLUMN : Fld := ⟨0x114, 20, 8⟩
def PEAL_STATUS.RELIEF : Fld := ⟨0x114, 0, 16⟩
/-- PEAL_EVENT ("Self-Test"). -/
def PEAL_EVENT.off : Nat := 0x118
def PEAL_EVENT.PRIV_REJECT : Fld := ⟨0x118, 6, 1⟩
def PEAL_EVENT.PRIV_DONE : Fld := ⟨0x118, 5, 1⟩
def PEAL_EVENT.BIST_REJECT : Fld := ⟨0x118, 4, 1⟩
def PEAL_EVENT.BIST_DONE : Fld := ⟨0x118, 3, 1⟩
def PEAL_EVENT.ANALOGUE : Fld := ⟨0x118, 2, 1⟩
def PEAL_EVENT.FAIL : Fld := ⟨0x118, 1, 1⟩
def PEAL_EVENT.TOUR_LATE : Fld := ⟨0x118, 0, 1⟩
/-- PEAL_PRIV ("Self-Test"). -/
def PEAL_PRIV.off : Nat := 0x11C
def PEAL_PRIV.GO : Fld := ⟨0x11C, 31, 1⟩
def PEAL_PRIV.FAIL : Fld := ⟨0x11C, 8, 1⟩
def PEAL_PRIV.TARGET : Fld := ⟨0x11C, 0, 2⟩
/-- REP_CMD ("Self-Test"). -/
def REP_CMD.off : Nat := 0x128
def REP_CMD.GO : Fld := ⟨0x128, 31, 1⟩
def REP_CMD.OP : Fld := ⟨0x128, 16, 4⟩
def REP_CMD.INDEX : Fld := ⟨0x128, 0, 12⟩
/-- REP_STATUS ("Self-Test"). -/
def REP_STATUS.off : Nat := 0x12C
def REP_STATUS.FUSE_FAIL : Fld := ⟨0x12C, 31, 1⟩
def REP_STATUS.MAP_BAD : Fld := ⟨0x12C, 30, 1⟩
def REP_STATUS.MAP_COUNT : Fld := ⟨0x12C, 16, 13⟩
def REP_STATUS.LOG_COUNT : Fld := ⟨0x12C, 8, 8⟩
def REP_STATUS.STATUS : Fld := ⟨0x12C, 0, 3⟩
/-- REP_LOG_IDX ("Self-Test"). -/
def REP_LOG_IDX.off : Nat := 0x130
def REP_LOG_IDX.INDEX : Fld := ⟨0x130, 0, 8⟩
/-- REP_LOG_W0 ("Self-Test"). -/
def REP_LOG_W0.off : Nat := 0x134
def REP_LOG_W0.W0 : Fld := ⟨0x134, 0, 32⟩
/-- REP_LOG_W1 ("Self-Test"). -/
def REP_LOG_W1.off : Nat := 0x138
def REP_LOG_W1.W1 : Fld := ⟨0x138, 0, 32⟩
/-- REP_FUSE ("Self-Test"). -/
def REP_FUSE.off : Nat := 0x13C
def REP_FUSE.W0 : Fld := ⟨0x13C, 0, 32⟩
/-- SCAN_PERMIT ("Self-Test"). -/
def SCAN_PERMIT.off : Nat := 0x140
def SCAN_PERMIT.REFUSED : Fld := ⟨0x140, 16, 16⟩
def SCAN_PERMIT.ENTERED : Fld := ⟨0x140, 1, 1⟩
def SCAN_PERMIT.EN : Fld := ⟨0x140, 0, 1⟩
/-- PEAL_TOUR_COUNT ("Self-Test"). -/
def PEAL_TOUR_COUNT.off : Nat := 0x120
def PEAL_TOUR_COUNT.COUNT : Fld := ⟨0x120, 0, 32⟩
/-- PEAL_FAIL_COUNT ("Self-Test"). -/
def PEAL_FAIL_COUNT.off : Nat := 0x124
def PEAL_FAIL_COUNT.COUNT : Fld := ⟨0x124, 0, 32⟩

/-! Fields: block prf. -/

/-- PRF_CTRL ("Proof Loops"). -/
def PRF_CTRL.off : Nat := 0x000
def PRF_CTRL.INJECT : Fld := ⟨0x000, 31, 1⟩
def PRF_CTRL.LEN : Fld := ⟨0x000, 16, 8⟩
def PRF_CTRL.PATTERN : Fld := ⟨0x000, 0, 2⟩
/-- PRF_STATUS ("Proof Loops"). -/
def PRF_STATUS.off : Nat := 0x004
def PRF_STATUS.SYNC_LOSS : Fld := ⟨0x004, 16, 16⟩
def PRF_STATUS.SYNC : Fld := ⟨0x004, 2, 1⟩
def PRF_STATUS.LOOPING : Fld := ⟨0x004, 1, 1⟩
def PRF_STATUS.GEN : Fld := ⟨0x004, 0, 1⟩
/-- PRF_TX_COUNT ("Proof Loops"). -/
def PRF_TX_COUNT.off : Nat := 0x008
def PRF_TX_COUNT.COUNT : Fld := ⟨0x008, 0, 32⟩
/-- PRF_RX_COUNT ("Proof Loops"). -/
def PRF_RX_COUNT.off : Nat := 0x00C
def PRF_RX_COUNT.COUNT : Fld := ⟨0x00C, 0, 32⟩
/-- PRF_ERR_COUNT ("Proof Loops"). -/
def PRF_ERR_COUNT.off : Nat := 0x010
def PRF_ERR_COUNT.COUNT : Fld := ⟨0x010, 0, 32⟩
/-- PRF_LOG ("Proof Loops"). -/
def PRF_LOG.off : Nat := 0x014
def PRF_LOG.VALID : Fld := ⟨0x014, 31, 1⟩
def PRF_LOG.INFO : Fld := ⟨0x014, 0, 31⟩

/-! Fields: block prfmc. -/

/-- PRF_ADDR ("Proof Loops"). -/
def PRF_ADDR.off : Nat := 0x218
def PRF_ADDR.VALUE : Fld := ⟨0x218, 0, 27⟩
/-- PRF_LINES ("Proof Loops"). -/
def PRF_LINES.off : Nat := 0x21C
def PRF_LINES.VALUE : Fld := ⟨0x21C, 0, 27⟩

/-! Fields: block pins. -/

/-- PIN_MUX ("Pins"). -/
def PIN_MUX.off : Nat := 0x100
def PIN_MUX.FUNC0 : Fld := ⟨0x100, 0, 4⟩
def PIN_MUX.FUNC1 : Fld := ⟨0x100, 4, 4⟩
def PIN_MUX.FUNC2 : Fld := ⟨0x100, 8, 4⟩
def PIN_MUX.FUNC3 : Fld := ⟨0x100, 12, 4⟩
def PIN_MUX.FUNC4 : Fld := ⟨0x100, 16, 4⟩
def PIN_MUX.FUNC5 : Fld := ⟨0x100, 20, 4⟩
def PIN_MUX.FUNC6 : Fld := ⟨0x100, 24, 4⟩
def PIN_MUX.FUNC7 : Fld := ⟨0x100, 28, 4⟩
/-- PIN_EVENT ("Pins"). -/
def PIN_EVENT.off : Nat := 0x1A0
def PIN_EVENT.MUX_REJECT : Fld := ⟨0x1A0, 0, 1⟩

/-! Fields: block gpio. -/

/-- GPIO_DATA_LO ("Pins"). -/
def GPIO_DATA_LO.off : Nat := 0x100
def GPIO_DATA_LO.PINS : Fld := ⟨0x100, 0, 32⟩
/-- GPIO_DATA_HI ("Pins"). -/
def GPIO_DATA_HI.off : Nat := 0x104
def GPIO_DATA_HI.PINS : Fld := ⟨0x104, 0, 8⟩
/-- GPIO_OE_LO ("Pins"). -/
def GPIO_OE_LO.off : Nat := 0x108
def GPIO_OE_LO.PINS : Fld := ⟨0x108, 0, 32⟩
/-- GPIO_OE_HI ("Pins"). -/
def GPIO_OE_HI.off : Nat := 0x10C
def GPIO_OE_HI.PINS : Fld := ⟨0x10C, 0, 8⟩
/-- GPIO_IN_LO ("Pins"). -/
def GPIO_IN_LO.off : Nat := 0x110
def GPIO_IN_LO.PINS : Fld := ⟨0x110, 0, 32⟩
/-- GPIO_IN_HI ("Pins"). -/
def GPIO_IN_HI.off : Nat := 0x114
def GPIO_IN_HI.PINS : Fld := ⟨0x114, 0, 8⟩
/-- IRQ_PEND_LO ("Pins"). -/
def IRQ_PEND_LO.off : Nat := 0x118
def IRQ_PEND_LO.PINS : Fld := ⟨0x118, 0, 32⟩
/-- IRQ_PEND_HI ("Pins"). -/
def IRQ_PEND_HI.off : Nat := 0x11C
def IRQ_PEND_HI.PINS : Fld := ⟨0x11C, 0, 8⟩
/-- BANK_STATUS ("Pins"). -/
def BANK_STATUS.off : Nat := 0x120
def BANK_STATUS.VCCIO : Fld := ⟨0x120, 1, 2⟩
def BANK_STATUS.PGOOD : Fld := ⟨0x120, 0, 1⟩
/-- BANK_EVENT ("Pins"). -/
def BANK_EVENT.off : Nat := 0x124
def BANK_EVENT.PG_BACK : Fld := ⟨0x124, 1, 1⟩
def BANK_EVENT.PG_LOST : Fld := ⟨0x124, 0, 1⟩
/-- PIN_CFG ("Pins"). -/
def PIN_CFG.off : Nat := 0x140
def PIN_CFG.IRQ_MODE : Fld := ⟨0x140, 8, 3⟩
def PIN_CFG.IDLE : Fld := ⟨0x140, 6, 1⟩
def PIN_CFG.SLEW : Fld := ⟨0x140, 5, 1⟩
def PIN_CFG.DRIVE : Fld := ⟨0x140, 3, 2⟩
def PIN_CFG.PULL : Fld := ⟨0x140, 1, 2⟩
def PIN_CFG.HS : Fld := ⟨0x140, 0, 1⟩

/-! Fields: block serial. -/

/-- SER_CFG ("Pins"). -/
def SER_CFG.off : Nat := 0x100
def SER_CFG.DIV : Fld := ⟨0x100, 16, 16⟩
def SER_CFG.DUMMY : Fld := ⟨0x100, 8, 8⟩
def SER_CFG.TARGET : Fld := ⟨0x100, 7, 1⟩
def SER_CFG.TADDR_MODE : Fld := ⟨0x100, 0, 7⟩
/-- SER_TX ("Pins"). -/
def SER_TX.off : Nat := 0x104
def SER_TX.BYTE : Fld := ⟨0x104, 0, 8⟩
/-- SER_RX ("Pins"). -/
def SER_RX.off : Nat := 0x108
def SER_RX.BAD : Fld := ⟨0x108, 9, 1⟩
def SER_RX.VALID : Fld := ⟨0x108, 8, 1⟩
def SER_RX.BYTE : Fld := ⟨0x108, 0, 8⟩
/-- SER_STATUS ("Pins"). -/
def SER_STATUS.off : Nat := 0x10C
def SER_STATUS.RX_LEVEL : Fld := ⟨0x10C, 16, 7⟩
def SER_STATUS.TX_LEVEL : Fld := ⟨0x10C, 8, 7⟩
def SER_STATUS.BUSY : Fld := ⟨0x10C, 0, 1⟩
/-- SER_EVENT ("Pins"). -/
def SER_EVENT.off : Nat := 0x110
def SER_EVENT.RX_DATA : Fld := ⟨0x110, 6, 1⟩
def SER_EVENT.OCTAL_FALLBACK : Fld := ⟨0x110, 5, 1⟩
def SER_EVENT.CMD_REJECT : Fld := ⟨0x110, 4, 1⟩
def SER_EVENT.ARB_LOST : Fld := ⟨0x110, 3, 1⟩
def SER_EVENT.RX_OVF : Fld := ⟨0x110, 2, 1⟩
def SER_EVENT.ERR : Fld := ⟨0x110, 1, 1⟩
def SER_EVENT.DONE : Fld := ⟨0x110, 0, 1⟩
/-- SER_CMD ("Pins"). -/
def SER_CMD.off : Nat := 0x114
def SER_CMD.GO : Fld := ⟨0x114, 31, 1⟩
def SER_CMD.OP_ADDR : Fld := ⟨0x114, 16, 8⟩
def SER_CMD.WRITE : Fld := ⟨0x114, 15, 1⟩
def SER_CMD.ADDR_EN : Fld := ⟨0x114, 14, 1⟩
def SER_CMD.RD_LEN : Fld := ⟨0x114, 7, 7⟩
def SER_CMD.WR_LEN : Fld := ⟨0x114, 0, 7⟩
/-- SER_ARG ("Pins"). -/
def SER_ARG.off : Nat := 0x118
def SER_ARG.ADDR : Fld := ⟨0x118, 0, 32⟩

/-! Fields: block serialGalley. -/

/-- FL_ADDR ("Pins"). -/
def FL_ADDR.off : Nat := 0x100
def FL_ADDR.ADDR : Fld := ⟨0x100, 2, 21⟩
/-- FL_DATA ("Pins"). -/
def FL_DATA.off : Nat := 0x104
def FL_DATA.DATA : Fld := ⟨0x104, 0, 32⟩
/-- FL_CMD ("Pins"). -/
def FL_CMD.off : Nat := 0x108
def FL_CMD.GO : Fld := ⟨0x108, 31, 1⟩
def FL_CMD.OP : Fld := ⟨0x108, 0, 2⟩
/-- FL_STATUS ("Pins"). -/
def FL_STATUS.off : Nat := 0x10C
def FL_STATUS.BUSY : Fld := ⟨0x10C, 31, 1⟩
def FL_STATUS.STATUS : Fld := ⟨0x10C, 0, 2⟩
/-- FUSE_ADDR ("Pins"). -/
def FUSE_ADDR.off : Nat := 0x110
def FUSE_ADDR.WORD : Fld := ⟨0x110, 0, 11⟩
/-- FUSE_DATA ("Pins"). -/
def FUSE_DATA.off : Nat := 0x114
def FUSE_DATA.DATA : Fld := ⟨0x114, 0, 32⟩

end Reg

/-! The rows. Each list is one register block, in its chapter's order. -/

/-- Vertical-link registers, B0 column windows. -/
def rowsColB0 : List RegRow :=
  [⟨"VLINK_STATE", 0x100, 4, 1, 0x0, 0x0, 0x0, 0x0, 0x0, 0x0⟩,
   ⟨"SPARE_USE", 0x104, 4, 1, 0x0, 0x0, 0x0, 0x0, 0x0, 0x0⟩,
   ⟨"CLK_VIA", 0x108, 4, 1, 0x0, 0x0, 0x0, 0x0, 0x0, 0x0⟩,
   ⟨"VLINK_HALF", 0x10C, 4, 1, 0x0, 0x0, 0x0, 0x0, 0x0, 0x0⟩,
   ⟨"VLINK_HALF2", 0x110, 4, 1, 0x0, 0x0, 0x0, 0x0, 0x0, 0x0⟩,
   ⟨"VIA_THRESH", 0x114, 4, 1, 0x10, 0xFF, 0x0, 0x0, 0x0, 0x0⟩,
   ⟨"VIA_EVENT", 0x118, 4, 1, 0x0, 0x0, 0x3F, 0x0, 0x0, 0x0⟩,
   ⟨"VIA_LOG", 0x11C, 4, 1, 0x0, 0x0, 0x0, 0x0, 0x0, 0x0⟩,
   ⟨"DEAD_SHAFTS", 0x120, 4, 1, 0x0, 0x0, 0x0, 0x0, 0x0, 0x0⟩]

/-- The crossing keeper. -/
def rowsKeeper : List RegRow :=
  [⟨"KEEP_CTRL", 0x100, 4, 1, 0x8, 0x1FFF, 0x0, 0x30000, 0x0, 0x0⟩,
   ⟨"KEEP_RATIO", 0x104, 4, 1, 0x100008, 0xFF001F, 0x0, 0x0, 0x0, 0x0⟩,
   ⟨"SYNC_VALUE_LO", 0x108, 4, 1, 0x0, 0xFFFFFFFF, 0x0, 0x0, 0x0, 0x0⟩,
   ⟨"SYNC_VALUE_HI", 0x10C, 4, 1, 0x0, 0xFFFF, 0x0, 0x0, 0x0, 0x0⟩,
   ⟨"MARK_ADJ", 0x110, 4, 1, 0x0, 0xFFF, 0x0, 0x0, 0x0, 0x0⟩,
   ⟨"LATENCY", 0x114, 4, 1, 0x0, 0x0, 0x0, 0x0, 0x0, 0x0⟩,
   ⟨"CROSS_NOW_LO", 0x118, 4, 1, 0x0, 0x0, 0x0, 0x0, 0x0, 0x0⟩,
   ⟨"CROSS_NOW_HI", 0x11C, 4, 1, 0x0, 0x0, 0x0, 0x0, 0x0, 0x0⟩,
   ⟨"KEEP_STATUS", 0x120, 4, 1, 0x0, 0x0, 0x0, 0x0, 0x0, 0x0⟩,
   ⟨"KEEP_EVENT", 0x124, 4, 1, 0x0, 0x0, 0x7F, 0x0, 0x0, 0x0⟩,
   ⟨"BREACH_COUNT", 0x128, 4, 1, 0x0, 0x0, 0x0, 0x0, 0x0, 0xFFFFFFFF⟩,
   ⟨"DECIDE_LATE_COUNT", 0x12C, 4, 1, 0x0, 0x0, 0x0, 0x0, 0x0, 0xFFFFFFFF⟩,
   ⟨"LAST_BREACH_LO", 0x130, 4, 1, 0x0, 0x0, 0x0, 0x0, 0x0, 0x0⟩,
   ⟨"LAST_BREACH_HI", 0x134, 4, 1, 0x0, 0x0, 0x0, 0x0, 0x0, 0x0⟩]

/-- The Unit Control Block (R61). -/
def rowsUcb : List RegRow :=
  [⟨"UNIT_ID", 0x000, 4, 1, 0x0, 0x0, 0x0, 0x0, 0x0, 0x0⟩,
   ⟨"UNIT_VER", 0x004, 4, 1, 0x0, 0x0, 0x0, 0x0, 0x0, 0x0⟩,
   ⟨"UNIT_CAPS", 0x008, 4, 1, 0x0, 0x0, 0x0, 0x0, 0x0, 0x0⟩,
   ⟨"CHILD_INFO", 0x00C, 4, 1, 0x0, 0x0, 0x0, 0x0, 0x0, 0x0⟩,
   ⟨"CTRL", 0x010, 4, 1, 0x0, 0x3B, 0x0, 0x4, 0x0, 0x0⟩,
   ⟨"STATE", 0x014, 4, 1, 0x11, 0x0, 0x0, 0x0, 0x0, 0x0⟩,
   ⟨"FAULT", 0x018, 4, 1, 0x0, 0x0, 0xFFFFFF1F, 0x0, 0x0, 0x0⟩,
   ⟨"DRAIN_LIMIT", 0x01C, 4, 1, 0x64, 0xFFFFFF, 0x0, 0x0, 0x0, 0x0⟩,
   ⟨"EVENT_EN", 0x020, 4, 1, 0x5, 0xFFFFFFFF, 0x0, 0x0, 0x0, 0x0⟩,
   ⟨"EVENT", 0x024, 4, 1, 0x0, 0x0, 0xFFFFFE1E, 0x0, 0x0, 0x0⟩,
   ⟨"VERSION_SEL", 0x028, 4, 1, 0x0, 0xFFFF, 0x0, 0x0, 0x0, 0x0⟩]

/-- The root window: identity, access and loader registers. -/
def rowsRoot : List RegRow :=
  [⟨"DEV_ID", 0x400, 4, 1, 0x43070E00, 0x0, 0x0, 0x0, 0x0, 0x0⟩,
   ⟨"DEV_STEP", 0x404, 4, 1, 0x0, 0x0, 0x0, 0x0, 0x0, 0x0⟩,
   ⟨"ACC_ERR", 0x408, 4, 1, 0x0, 0x0, 0xFF, 0x0, 0x0, 0x0⟩,
   ⟨"ACC_ERR_ADDR", 0x40C, 4, 1, 0x0, 0x0, 0x0, 0x0, 0x0, 0xFFFFFFFD⟩,
   ⟨"PATH_EN", 0x410, 4, 1, 0x7F, 0x0, 0x0, 0x0, 0x7F, 0x0⟩,
   ⟨"IRQ_CTRL", 0x414, 4, 1, 0x1, 0xFF0F0003, 0x0, 0x0, 0x0, 0x0⟩,
   ⟨"LD_CTRL", 0x500, 4, 1, 0x10, 0x30, 0x0, 0x7, 0x0, 0x0⟩,
   ⟨"LD_CFG", 0x504, 4, 1, 0x41388, 0xFFFFFF, 0x0, 0x0, 0x0, 0x0⟩,
   ⟨"REL_GAP", 0x508, 4, 1, 0x404, 0xFFFF, 0x0, 0x0, 0x0, 0x0⟩,
   ⟨"LD_STATUS", 0x50C, 4, 1, 0x1, 0x0, 0x0, 0x0, 0x0, 0x0⟩,
   ⟨"LD_INDEX", 0x510, 4, 1, 0x0, 0x0, 0x0, 0x0, 0x0, 0x0⟩,
   ⟨"LD_DATA", 0x514, 4, 1, 0x0, 0xFFFFFFFF, 0x0, 0x0, 0x0, 0x0⟩,
   ⟨"LD_BYTES", 0x518, 4, 1, 0x0, 0x0, 0x0, 0x0, 0x0, 0x0⟩,
   ⟨"IMAGE_ID_LO", 0x51C, 4, 1, 0x0, 0x0, 0x0, 0x0, 0x0, 0x0⟩,
   ⟨"IMAGE_ID_HI", 0x520, 4, 1, 0x0, 0x0, 0x0, 0x0, 0x0, 0x0⟩,
   ⟨"LD_EVENT", 0x524, 4, 1, 0x0, 0x0, 0x3F, 0x0, 0x0, 0x0⟩] ++
  [⟨"BOOT_INFO", 0x528, 4, 1, 0xF000, 0x0, 0x0, 0x0, 0x0, 0x0⟩]

/-- A lane group galley. -/
def rowsLg : List RegRow :=
  [⟨"LG_PLL_CFG", 0x100, 4, 1, 0xA0, 0xFFFFFFFF, 0x0, 0x0, 0x0, 0x0⟩,
   ⟨"LG_STATUS", 0x104, 4, 1, 0x0, 0x0, 0x0, 0x0, 0x0, 0x0⟩,
   ⟨"LG_VCO_MHZ", 0x108, 4, 1, 0x0, 0x0, 0x0, 0x0, 0x0, 0x0⟩,
   ⟨"LG_EVENT", 0x10C, 4, 1, 0x0, 0x0, 0xF, 0x0, 0x0, 0x0⟩,
   ⟨"LG_LOCK_LIMIT", 0x110, 4, 1, 0x64, 0xFFFF, 0x0, 0x0, 0x0, 0x0⟩]

/-- Tile registers, L2 and L4 column windows. -/
def rowsTile : List RegRow :=
  [⟨"TILE_STATUS", 0x100, 4, 1, 0x0, 0x0, 0x0, 0x0, 0x0, 0x0⟩,
   ⟨"TALLY_RES_COUNT", 0x104, 4, 1, 0x0, 0x0, 0x0, 0x0, 0x0, 0xFFFFFFFF⟩,
   ⟨"TALLY_RES_LOG", 0x108, 4, 1, 0x0, 0x0, 0x0, 0x0, 0x0, 0xFFFF01FD⟩,
   ⟨"DRIVE_LOG", 0x10C, 4, 1, 0x0, 0x0, 0x0, 0x0, 0x0, 0xF3FF⟩,
   ⟨"DRIVE_LOG_V", 0x110, 4, 1, 0x0, 0x0, 0x0, 0x0, 0x0, 0x1⟩,
   ⟨"TILE_EVENT", 0x114, 4, 1, 0x0, 0x0, 0xF, 0x0, 0x0, 0x0⟩]

/-- The configuration controller. -/
def rowsConfig : List RegRow :=
  [⟨"PLATE_CTRL", 0x100, 4, 1, 0x3, 0x3, 0x0, 0x0, 0x0, 0x0⟩,
   ⟨"PCMD", 0x104, 4, 1, 0x0, 0xFFF33, 0x0, 0x80000000, 0x0, 0x0⟩,
   ⟨"PCMD_GROUPS", 0x108, 4, 1, 0x0, 0xFFFF, 0x0, 0x0, 0x0, 0x0⟩,
   ⟨"PCMD_STATUS", 0x10C, 4, 1, 0x0, 0x0, 0x0, 0x0, 0x0, 0x0⟩,
   ⟨"PSW_TARGET_LO", 0x110, 4, 1, 0x0, 0xFFFFFFFF, 0x0, 0x0, 0x0, 0x0⟩,
   ⟨"PSW_TARGET_HI", 0x114, 4, 1, 0x0, 0xFFFF, 0x0, 0x0, 0x0, 0x0⟩,
   ⟨"PCYCLE", 0x118, 4, 1, 0x1000, 0xF1FF, 0x0, 0x0, 0x0, 0x0⟩,
   ⟨"PLATE_EVENT", 0x11C, 4, 1, 0x0, 0x0, 0xFFF, 0x0, 0x0, 0x0⟩,
   ⟨"STAGE_SRC_LO", 0x120, 4, 1, 0x0, 0xFFFFF000, 0x0, 0x0, 0x0, 0x0⟩,
   ⟨"STAGE_SRC_HI", 0x124, 4, 1, 0x0, 0xFFFFFF, 0x0, 0x0, 0x0, 0x0⟩,
   ⟨"STAGE_STATE", 0x128, 4, 1, 0x0, 0x0, 0x0, 0x0, 0x0, 0x0⟩,
   ⟨"STAGE_INFO", 0x130, 4, 4, 0x0, 0x0, 0x0, 0x0, 0x0, 0x0⟩,
   ⟨"PSLOT_G", 0x140, 4, 16, 0x0, 0x0, 0x0, 0x0, 0x0, 0x0⟩,
   ⟨"PSLOT_ID_G", 0x180, 4, 16, 0x0, 0x0, 0x0, 0x0, 0x0, 0x0⟩,
   ⟨"SCRUB_CTRL", 0x1C0, 4, 1, 0xA, 0xFF, 0x0, 0x0, 0x0, 0x0⟩,
   ⟨"SEC_COUNT", 0x1C4, 4, 1, 0x0, 0x0, 0x0, 0x0, 0x0, 0xFFFFFFFF⟩] ++
  [⟨"DED_COUNT", 0x1C8, 4, 1, 0x0, 0x0, 0x0, 0x0, 0x0, 0xFFFFFFFF⟩,
   ⟨"DED_LOG", 0x1CC, 4, 1, 0x0, 0x0, 0x0, 0x0, 0x0, 0xFF3D0FFF⟩,
   ⟨"PSTREAM_DATA", 0x1D0, 4, 1, 0x0, 0xFFFFFFFF, 0x0, 0x0, 0x0, 0x0⟩]

/-- Memory registers, M1 column windows. -/
def rowsColM1 : List RegRow :=
  [⟨"MEM_CTRL", 0x100, 4, 1, 0x1006, 0xFF07, 0x0, 0x0, 0x0, 0x0⟩,
   ⟨"MEM_STATUS", 0x104, 4, 1, 0x0, 0x0, 0x0, 0x0, 0x0, 0x0⟩,
   ⟨"MEM_EVENT", 0x108, 4, 1, 0x0, 0x0, 0x7FF, 0x0, 0x0, 0x0⟩,
   ⟨"MEM_SEC_COUNT", 0x10C, 4, 1, 0x0, 0x0, 0x0, 0x0, 0x0, 0xFFFFFFFF⟩,
   ⟨"MEM_DED_COUNT", 0x110, 4, 1, 0x0, 0x0, 0x0, 0x0, 0x0, 0xFFFFFFFF⟩,
   ⟨"RT_RES_COUNT", 0x114, 4, 1, 0x0, 0x0, 0x0, 0x0, 0x0, 0xFFFFFFFF⟩,
   ⟨"TWIN_BUSY_COUNT", 0x118, 4, 1, 0x0, 0x0, 0x0, 0x0, 0x0, 0xFFFFFFFF⟩,
   ⟨"MEM_DED_LOG", 0x11C, 4, 1, 0x0, 0x0, 0x0, 0x0, 0x0, 0x3FFFFF⟩,
   ⟨"MEM_SCRUB", 0x120, 4, 1, 0x64, 0xFF, 0x0, 0x0, 0x0, 0x0⟩,
   ⟨"MARCH_CTRL", 0x124, 4, 1, 0x0, 0x100FF, 0x0, 0x80000000, 0x0, 0x0⟩,
   ⟨"MARCH_STATUS", 0x128, 4, 1, 0x0, 0x0, 0x0, 0x0, 0x0, 0x0⟩,
   ⟨"ROW_THRESH", 0x12C, 4, 1, 0x8, 0xFF, 0x0, 0x0, 0x0, 0x0⟩,
   ⟨"SPARE_ROWS", 0x130, 4, 1, 0x0, 0x0, 0x0, 0x0, 0x0, 0x0⟩,
   ⟨"SPARE_BL", 0x134, 4, 1, 0x0, 0x0, 0x0, 0x0, 0x0, 0x0⟩]

/-- A ring engine. -/
def rowsRing : List RegRow :=
  [⟨"ENG_CTRL", 0x100, 4, 1, 0xC001000C, 0xFF01FF0F, 0x0, 0x0, 0x0, 0x0⟩,
   ⟨"ENG_RETAIN", 0x104, 4, 1, 0x400, 0xFFFFFF, 0x0, 0x0, 0x0, 0x0⟩,
   ⟨"FIFO_CFG", 0x108, 4, 1, 0x8000C00, 0xFFF0FFF, 0x0, 0x0, 0x0, 0x0⟩,
   ⟨"ENG_GUARD", 0x10C, 4, 1, 0x1010, 0xFFFF, 0x0, 0x0, 0x0, 0x0⟩,
   ⟨"ENG_OCC_LIMIT", 0x110, 4, 1, 0x0, 0xFFFFFFFF, 0x0, 0x0, 0x0, 0x0⟩,
   ⟨"RING_CMD", 0x114, 4, 1, 0x0, 0x33FFF, 0x0, 0x80000000, 0x0, 0x0⟩,
   ⟨"RING_CMD_STATUS", 0x118, 4, 1, 0x0, 0x0, 0x0, 0x0, 0x0, 0x0⟩,
   ⟨"RQ_BASE_LO", 0x11C, 4, 1, 0x0, 0xFFFFFFE0, 0x0, 0x0, 0x0, 0x0⟩,
   ⟨"RQ_BASE_HI", 0x120, 4, 1, 0x0, 0xFFFFFF, 0x0, 0x0, 0x0, 0x0⟩,
   ⟨"RQ_SIZE", 0x124, 4, 1, 0xC, 0x1F, 0x0, 0x0, 0x0, 0x0⟩,
   ⟨"RQ_WR", 0x128, 4, 1, 0x0, 0x0, 0x0, 0x0, 0x0, 0x0⟩,
   ⟨"RQ_RD", 0x12C, 4, 1, 0x0, 0xFFFFFFFF, 0x0, 0x0, 0x0, 0x0⟩,
   ⟨"ENG_STATUS", 0x130, 4, 1, 0x80000000, 0x0, 0x0, 0x0, 0x0, 0x0⟩,
   ⟨"ENG_OCC", 0x134, 4, 1, 0x0, 0x0, 0x0, 0x0, 0x0, 0x0⟩,
   ⟨"ENG_EVENT", 0x138, 4, 1, 0x0, 0x0, 0x3FFF, 0x0, 0x0, 0x0⟩,
   ⟨"DEAD_LOG", 0x13C, 4, 1, 0x0, 0x0, 0x0, 0x0, 0x0, 0x80003FFF⟩] ++
  [⟨"ACC_TYPE_CFG", 0x140, 4, 16, 0x0, 0xFFFFFFFF, 0x0, 0x0, 0x0, 0x0⟩,
   ⟨"GRP_DEST", 0x180, 4, 16, 0x0, 0xFFFF030F, 0x0, 0x0, 0x0, 0x0⟩,
   ⟨"PUSH_ERR_COUNT", 0x1C0, 4, 1, 0x0, 0x0, 0x0, 0x0, 0x0, 0xFFFFFFFF⟩,
   ⟨"FIFO_DISC_COUNT", 0x1C4, 4, 1, 0x0, 0x0, 0x0, 0x0, 0x0, 0xFFFFFFFF⟩,
   ⟨"PREM_LOSS_COUNT", 0x1C8, 4, 1, 0x0, 0x0, 0x0, 0x0, 0x0, 0xFFFFFFFF⟩,
   ⟨"WR_ERR_COUNT", 0x1CC, 4, 1, 0x0, 0x0, 0x0, 0x0, 0x0, 0xFFFFFFFF⟩,
   ⟨"RD_ERR_COUNT", 0x1D0, 4, 1, 0x0, 0x0, 0x0, 0x0, 0x0, 0xFFFFFFFF⟩,
   ⟨"ACC_DONE_COUNT", 0x1D4, 4, 1, 0x0, 0x0, 0x0, 0x0, 0x0, 0xFFFFFFFF⟩,
   ⟨"ACC_DROP_COUNT", 0x1D8, 4, 1, 0x0, 0x0, 0x0, 0x0, 0x0, 0xFFFFFFFF⟩,
   ⟨"FRAG_COUNT", 0x1DC, 4, 1, 0x0, 0x0, 0x0, 0x0, 0x0, 0xFFFFFFFF⟩,
   ⟨"FRAG_ERR_COUNT", 0x1E0, 4, 1, 0x0, 0x0, 0x0, 0x0, 0x0, 0xFFFFFFFF⟩,
   ⟨"TREE_SEC_COUNT", 0x1E4, 4, 1, 0x0, 0x0, 0x0, 0x0, 0x0, 0xFFFFFFFF⟩,
   ⟨"TREE_DED_COUNT", 0x1E8, 4, 1, 0x0, 0x0, 0x0, 0x0, 0x0, 0xFFFFFFFF⟩,
   ⟨"DESC_DED_COUNT", 0x1EC, 4, 1, 0x0, 0x0, 0x0, 0x0, 0x0, 0xFFFFFFFF⟩]

/-- The Strike Port. -/
def rowsStrike : List RegRow :=
  [⟨"STK_CTRL", 0x100, 4, 1, 0x0, 0xFFF0F, 0x0, 0x0, 0x0, 0x0⟩,
   ⟨"STK_SRC", 0x104, 4, 1, 0x0, 0x0, 0x0, 0x0, 0x0, 0x0⟩,
   ⟨"STK_ACC_CFG", 0x108, 4, 1, 0x4FFFF, 0xFFFFF, 0x0, 0x0, 0x0, 0x0⟩,
   ⟨"STK_BUSY_EN", 0x10C, 4, 1, 0x7, 0x7, 0x0, 0x0, 0x0, 0x0⟩,
   ⟨"STK_STATUS", 0x110, 4, 1, 0x101D, 0x0, 0x0, 0x0, 0x0, 0x0⟩,
   ⟨"STK_LAST", 0x114, 4, 1, 0x5, 0x0, 0x0, 0x0, 0x0, 0x0⟩,
   ⟨"STK_EVENT", 0x118, 4, 1, 0x0, 0x0, 0xFF, 0x0, 0x0, 0x0⟩,
   ⟨"DISAGREE_LOG", 0x13C, 4, 1, 0x0, 0x0, 0x0, 0x0, 0x0, 0x8FFFFFFF⟩,
   ⟨"STK_ACC_LAST", 0x140, 4, 1, 0x0, 0x0, 0x0, 0x0, 0x0, 0x0⟩,
   ⟨"STK_ACC_LAST_J", 0x144, 4, 1, 0x0, 0x0, 0x0, 0x0, 0x0, 0x0⟩,
   ⟨"NOT_READY_COUNT", 0x11C, 4, 1, 0x0, 0x0, 0x0, 0x0, 0x0, 0xFFFFFFFF⟩,
   ⟨"BREACH_PRESENT_COUNT", 0x120, 4, 1, 0x0, 0x0, 0x0, 0x0, 0x0, 0xFFFFFFFF⟩,
   ⟨"DISAGREE_COUNT", 0x124, 4, 1, 0x0, 0x0, 0x0, 0x0, 0x0, 0xFFFFFFFF⟩,
   ⟨"THROTTLE_COUNT", 0x128, 4, 1, 0x0, 0x0, 0x0, 0x0, 0x0, 0xFFFFFFFF⟩,
   ⟨"HOLD_COUNT", 0x12C, 4, 1, 0x0, 0x0, 0x0, 0x0, 0x0, 0xFFFFFFFF⟩,
   ⟨"BUSY_COUNT", 0x130, 4, 1, 0x0, 0x0, 0x0, 0x0, 0x0, 0xFFFFFFFF⟩] ++
  [⟨"STK_ACC_COUNT", 0x134, 4, 1, 0x0, 0x0, 0x0, 0x0, 0x0, 0xFFFFFFFF⟩,
   ⟨"STK_ACC_DROP_COUNT", 0x138, 4, 1, 0x0, 0x0, 0x0, 0x0, 0x0, 0xFFFFFFFF⟩]

/-- An LPDDR5X controller. -/
def rowsMc : List RegRow :=
  [⟨"MC_CFG", 0x100, 4, 1, 0x11D, 0x33F, 0x0, 0x0, 0x0, 0x0⟩,
   ⟨"MC_STATUS", 0x104, 4, 1, 0x0, 0x0, 0x0, 0x0, 0x0, 0x0⟩,
   ⟨"MC_EVENT", 0x108, 4, 1, 0x0, 0x0, 0x1F, 0x0, 0x0, 0x0⟩,
   ⟨"MC_SCRUB", 0x10C, 4, 1, 0x30E10, 0x3FFFF, 0x0, 0x0, 0x0, 0x0⟩,
   ⟨"MC_SEC_COUNT", 0x110, 4, 1, 0x0, 0x0, 0x0, 0x0, 0x0, 0xFFFFFFFF⟩,
   ⟨"MC_DED_COUNT", 0x114, 4, 1, 0x0, 0x0, 0x0, 0x0, 0x0, 0xFFFFFFFF⟩,
   ⟨"MC_RETRAIN_COUNT", 0x118, 4, 1, 0x0, 0x0, 0x0, 0x0, 0x0, 0xFFFFFFFF⟩]

/-- The encryption engine. -/
def rowsCrypto : List RegRow :=
  [⟨"CRY_EVENT", 0x100, 4, 1, 0x0, 0x0, 0xF, 0x0, 0x0, 0x0⟩,
   ⟨"CRY_LOG_ADDR", 0x104, 4, 1, 0x0, 0x0, 0x0, 0x0, 0x0, 0xFFFFFFC1⟩,
   ⟨"CRY_LOG_INFO", 0x108, 4, 1, 0x0, 0x0, 0x0, 0x0, 0x0, 0xFFC01FF0⟩,
   ⟨"KEY_SLOT", 0x800, 4, 16, 0x0, 0x0, 0x0, 0x0, 0xC007FFFF, 0x0⟩,
   ⟨"TAG_FAIL_COUNT", 0x10C, 4, 1, 0x0, 0x0, 0x0, 0x0, 0x0, 0xFFFFFFFF⟩,
   ⟨"KEY_REFUSE_COUNT", 0x110, 4, 1, 0x0, 0x0, 0x0, 0x0, 0x0, 0xFFFFFFFF⟩,
   ⟨"POISON_COUNT", 0x114, 4, 1, 0x0, 0x0, 0x0, 0x0, 0x0, 0xFFFFFFFF⟩,
   ⟨"REG_BASE", 0x200, 16, 16, 0x0, 0xFFFFFFFF, 0x0, 0x0, 0x0, 0x0⟩,
   ⟨"REG_SIZE", 0x204, 16, 16, 0x0, 0xFFFFFFFF, 0x0, 0x0, 0x0, 0x0⟩,
   ⟨"REG_LBN_LO", 0x208, 16, 16, 0x0, 0xFFFFFFFF, 0x0, 0x0, 0x0, 0x0⟩,
   ⟨"REG_LBN_HI", 0x20C, 16, 16, 0x0, 0xC000FFFF, 0x0, 0x0, 0x0, 0x0⟩]

/-- A mover. -/
def rowsMover : List RegRow :=
  [⟨"MV_CTRL", 0x100, 4, 1, 0x0, 0x0, 0x0, 0x1, 0x0, 0x0⟩,
   ⟨"MV_DESC_LO", 0x104, 4, 1, 0x0, 0xFFFFFFE0, 0x0, 0x0, 0x0, 0x0⟩,
   ⟨"MV_DESC_HI", 0x108, 4, 1, 0x0, 0xFFFFFF, 0x0, 0x0, 0x0, 0x0⟩,
   ⟨"MV_STATUS", 0x10C, 4, 1, 0x0, 0x0, 0x0, 0x0, 0x0, 0x0⟩,
   ⟨"MV_EVENT", 0x110, 4, 1, 0x0, 0x0, 0x7, 0x0, 0x0, 0x0⟩,
   ⟨"MV_BYTES_COUNT", 0x114, 4, 1, 0x0, 0x0, 0x0, 0x0, 0x0, 0xFFFFFFFF⟩]

/-- The clock generation galley. -/
def rowsClkgen : List RegRow :=
  [⟨"CLK_STATUS", 0x100, 4, 1, 0x20E00, 0x0, 0x0, 0x0, 0x0, 0x0⟩,
   ⟨"CLK_CMD", 0x104, 4, 1, 0x0, 0xD, 0x0, 0x32, 0x0, 0x0⟩,
   ⟨"CLK_EVENT", 0x108, 4, 1, 0x0, 0x0, 0x3FF, 0x0, 0x0, 0x0⟩,
   ⟨"CLK_STATE", 0x10C, 4, 1, 0x0, 0x0, 0x0, 0x0, 0x0, 0x0⟩,
   ⟨"REG_CYC_LO", 0x110, 4, 1, 0x0, 0x0, 0x0, 0x0, 0x0, 0x0⟩,
   ⟨"REG_CYC_HI", 0x114, 4, 1, 0x0, 0x0, 0x0, 0x0, 0x0, 0x0⟩,
   ⟨"TRUNK_CYC_LO", 0x118, 4, 1, 0x0, 0x0, 0x0, 0x0, 0x0, 0x0⟩,
   ⟨"TRUNK_CYC_HI", 0x11C, 4, 1, 0x0, 0x0, 0x0, 0x0, 0x0, 0x0⟩,
   ⟨"SW_LOST", 0x120, 4, 1, 0x0, 0x0, 0x0, 0x0, 0x0, 0x0⟩]

/-- A PLL. -/
def rowsPll : List RegRow :=
  [⟨"PLL_STATUS", 0x100, 4, 1, 0xC0, 0x0, 0x0, 0x0, 0x0, 0x0⟩,
   ⟨"PLL_LOCK_LOSS_COUNT", 0x104, 4, 1, 0x0, 0x0, 0x0, 0x0, 0x0, 0xFFFFFFFF⟩]

/-- A clock monitor. -/
def rowsMonitor : List RegRow :=
  [⟨"MON_CFG", 0x100, 4, 1, 0x60A01, 0x0, 0x0, 0x0, 0xF1F01, 0x0⟩,
   ⟨"MON_STATUS", 0x104, 4, 1, 0x0, 0x0, 0x0, 0x0, 0x0, 0x0⟩,
   ⟨"MON_FREQ", 0x108, 4, 1, 0x0, 0x0, 0x0, 0x0, 0x0, 0x0⟩,
   ⟨"MON_TRIP_COUNT", 0x10C, 4, 1, 0x0, 0x0, 0x0, 0x0, 0x0, 0xFFFFFFFF⟩]

/-- The power galley. -/
def rowsPower : List RegRow :=
  [⟨"MODE_REQ", 0x100, 4, 1, 0x2, 0xF, 0x0, 0x80000000, 0x0, 0x0⟩,
   ⟨"MODE_STATUS", 0x104, 4, 1, 0x10001, 0x0, 0x0, 0x0, 0x0, 0x0⟩,
   ⟨"MODE_EVENT", 0x108, 4, 1, 0x0, 0x0, 0xF, 0x0, 0x0, 0x0⟩,
   ⟨"PWR_CFG", 0x10C, 4, 1, 0x6, 0xF, 0x0, 0x0, 0x0, 0x0⟩,
   ⟨"DORM_TIMER", 0x110, 4, 1, 0x0, 0xFFFFFFFF, 0x0, 0x0, 0x0, 0x0⟩,
   ⟨"VSET_A", 0x114, 4, 1, 0x1E1E1E1E, 0xFFFFFFFF, 0x0, 0x0, 0x0, 0x0⟩,
   ⟨"VSET_B", 0x118, 4, 1, 0x1E14, 0xFFFF, 0x0, 0x0, 0x0, 0x0⟩,
   ⟨"PMB_CFG", 0x11C, 4, 1, 0xC800C0, 0xFFFFFFFF, 0x0, 0x0, 0x0, 0x0⟩,
   ⟨"PMB_STATUS", 0x120, 4, 1, 0x0, 0x0, 0x0, 0x0, 0x0, 0x0⟩]

/-- The domain controller. -/
def rowsPdctl : List RegRow :=
  [⟨"PD", 0x100, 4, 40, 0x0, 0x1, 0x0, 0x0, 0x0, 0x0⟩,
   ⟨"PD_EVENT", 0x1A0, 4, 1, 0x0, 0x0, 0x7, 0x0, 0x0, 0x0⟩]

/-- The Damper. -/
def rowsDamper : List RegRow :=
  [⟨"DMP_CFG", 0x100, 4, 1, 0x4000803, 0xFF0F1F1F, 0x0, 0x0, 0x0, 0x0⟩,
   ⟨"DMP_TH", 0x104, 4, 1, 0x3C1E, 0xFFFF, 0x0, 0x0, 0x0, 0x0⟩,
   ⟨"DMP_ADMIT", 0x108, 4, 1, 0xC8, 0xFFFF, 0x0, 0x0, 0x0, 0x0⟩,
   ⟨"DMP_ACTIVE", 0x10C, 4, 1, 0x0, 0x0, 0x0, 0x0, 0x0, 0x0⟩,
   ⟨"DMP_EVENT", 0x110, 4, 1, 0x0, 0x0, 0xF, 0x0, 0x0, 0x0⟩,
   ⟨"DMP_LOG", 0x120, 4, 1, 0x0, 0x0, 0x0, 0x0, 0x0, 0xFFFFF0E3⟩,
   ⟨"DMP_SWALLOW_COUNT", 0x114, 4, 1, 0x0, 0x0, 0x0, 0x0, 0x0, 0xFFFFFFFF⟩,
   ⟨"DMP_EPISODE_COUNT", 0x118, 4, 1, 0x0, 0x0, 0x0, 0x0, 0x0, 0xFFFFFFFF⟩,
   ⟨"DMP_WIDEN_COUNT", 0x11C, 4, 1, 0x0, 0x0, 0x0, 0x0, 0x0, 0xFFFFFFFF⟩]

/-- Temperature registers of every column window. -/
def rowsColumn : List RegRow :=
  [⟨"TEMP", 0x200, 4, 1, 0x0, 0x0, 0x0, 0x0, 0x0, 0x0⟩,
   ⟨"TEMP_PEAK", 0x204, 4, 1, 0x0, 0x0, 0x0, 0x0, 0x0, 0x1FF⟩]

/-- Kryup, the heat registers among them. -/
def rowsKryup : List RegRow :=
  [⟨"THM_TH", 0x800, 4, 1, 0x6964615F, 0x0, 0x0, 0x0, 0xFFFFFFFF, 0x0⟩,
   ⟨"THM_CFG", 0x804, 4, 1, 0x203, 0x0, 0x0, 0x0, 0x1F0F, 0x0⟩,
   ⟨"THM_STATUS", 0x808, 4, 1, 0x0, 0x0, 0x0, 0x0, 0x0, 0x0⟩,
   ⟨"THM_EVENT", 0x80C, 4, 1, 0x0, 0x0, 0x3F, 0x0, 0x0, 0x0⟩,
   ⟨"KRY_STATUS", 0x100, 4, 1, 0x0, 0x0, 0x0, 0x0, 0x0, 0x0⟩,
   ⟨"CAUSE_PEND", 0x104, 4, 1, 0x0, 0x0, 0x0, 0x0, 0x0, 0x0⟩,
   ⟨"RESET_CAUSE", 0x108, 4, 1, 0x0, 0x0, 0x0, 0x0, 0x0, 0x0⟩,
   ⟨"RST_REQ", 0x10C, 4, 1, 0x0, 0xFF00, 0x0, 0x3, 0x0, 0x0⟩,
   ⟨"WDG_CFG", 0x110, 4, 1, 0x32, 0x0, 0x0, 0x0, 0x1FFFF, 0x0⟩,
   ⟨"WDG_STATUS", 0x114, 4, 1, 0x0, 0x0, 0x0, 0x0, 0x0, 0x0⟩,
   ⟨"LOG_HEAD", 0x118, 4, 1, 0x0, 0x0, 0x0, 0x0, 0x0, 0x0⟩,
   ⟨"PROP_CTRL", 0x11C, 4, 1, 0x0, 0x0, 0x0, 0x7, 0x0, 0x0⟩,
   ⟨"PROP_DATA", 0x120, 4, 1, 0x0, 0xFFFFFFFF, 0x0, 0x0, 0x0, 0x0⟩,
   ⟨"PROP_STATUS", 0x124, 4, 1, 0x0, 0x0, 0x0, 0x0, 0x0, 0x0⟩,
   ⟨"FUSE_SEC", 0x128, 4, 1, 0x0, 0x0, 0x0, 0x0, 0x0, 0x0⟩,
   ⟨"POL_ENTRY0", 0x410, 16, 16, 0x0, 0x0, 0x0, 0x0, 0x0, 0x0⟩] ++
  [⟨"POL_ENTRY1", 0x414, 16, 16, 0x0, 0x0, 0x0, 0x0, 0x0, 0x0⟩,
   ⟨"POL_ENTRY2", 0x418, 16, 16, 0x0, 0x0, 0x0, 0x0, 0x0, 0x0⟩,
   ⟨"POL_ENTRY3", 0x41C, 16, 16, 0x0, 0x0, 0x0, 0x0, 0x0, 0x0⟩]

/-- The self-test controller. -/
def rowsStctl : List RegRow :=
  [⟨"BIST_STATUS", 0x100, 4, 1, 0x0, 0x0, 0x0, 0x0, 0x0, 0x0⟩,
   ⟨"BIST_TIME", 0x104, 4, 1, 0x0, 0x0, 0x0, 0x0, 0x0, 0x0⟩,
   ⟨"BIST_CMD", 0x108, 4, 1, 0x0, 0x1FFFF, 0x0, 0x80000000, 0x0, 0x0⟩,
   ⟨"PEAL_CTRL", 0x10C, 4, 1, 0xFF, 0xFF, 0x0, 0x0, 0x0, 0x0⟩,
   ⟨"PEAL_CFG", 0x110, 4, 1, 0x40870E10, 0xFFFFFFFF, 0x0, 0x0, 0x0, 0x0⟩,
   ⟨"PEAL_STATUS", 0x114, 4, 1, 0x0, 0x0, 0x0, 0x0, 0x0, 0x0⟩,
   ⟨"PEAL_EVENT", 0x118, 4, 1, 0x0, 0x0, 0x7F, 0x0, 0x0, 0x0⟩,
   ⟨"PEAL_PRIV", 0x11C, 4, 1, 0x0, 0x3, 0x0, 0x80000000, 0x0, 0x0⟩,
   ⟨"REP_CMD", 0x128, 4, 1, 0x0, 0xF0FFF, 0x0, 0x80000000, 0x0, 0x0⟩,
   ⟨"REP_STATUS", 0x12C, 4, 1, 0x0, 0x0, 0x80000000, 0x0, 0x0, 0x0⟩,
   ⟨"REP_LOG_IDX", 0x130, 4, 1, 0x0, 0xFF, 0x0, 0x0, 0x0, 0x0⟩,
   ⟨"REP_LOG_W0", 0x134, 4, 1, 0x0, 0x0, 0x0, 0x0, 0x0, 0x0⟩,
   ⟨"REP_LOG_W1", 0x138, 4, 1, 0x0, 0x0, 0x0, 0x0, 0x0, 0x0⟩,
   ⟨"REP_FUSE", 0x13C, 4, 1, 0x0, 0x0, 0x0, 0x0, 0xFFFFFFFF, 0x0⟩,
   ⟨"SCAN_PERMIT", 0x140, 4, 1, 0x0, 0x0, 0x0, 0x0, 0x1, 0x0⟩,
   ⟨"PEAL_TOUR_COUNT", 0x120, 4, 1, 0x0, 0x0, 0x0, 0x0, 0x0, 0xFFFFFFFF⟩] ++
  [⟨"PEAL_FAIL_COUNT", 0x124, 4, 1, 0x0, 0x0, 0x0, 0x0, 0x0, 0xFFFFFFFF⟩]

/-- Proof registers, offsets from their base (R493). -/
def rowsPrf : List RegRow :=
  [⟨"PRF_CTRL", 0x000, 4, 1, 0x80000, 0xFF0003, 0x0, 0x80000000, 0x0, 0x0⟩,
   ⟨"PRF_STATUS", 0x004, 4, 1, 0x0, 0x0, 0x0, 0x0, 0x0, 0x0⟩,
   ⟨"PRF_TX_COUNT", 0x008, 4, 1, 0x0, 0x0, 0x0, 0x0, 0x0, 0xFFFFFFFF⟩,
   ⟨"PRF_RX_COUNT", 0x00C, 4, 1, 0x0, 0x0, 0x0, 0x0, 0x0, 0xFFFFFFFF⟩,
   ⟨"PRF_ERR_COUNT", 0x010, 4, 1, 0x0, 0x0, 0x0, 0x0, 0x0, 0xFFFFFFFF⟩,
   ⟨"PRF_LOG", 0x014, 4, 1, 0x0, 0x0, 0x0, 0x0, 0x0, 0xFFFFFFFF⟩]

/-- Proof registers of controllers only. -/
def rowsPrfmc : List RegRow :=
  [⟨"PRF_ADDR", 0x218, 4, 1, 0x0, 0x7FFFFFF, 0x0, 0x0, 0x0, 0x0⟩,
   ⟨"PRF_LINES", 0x21C, 4, 1, 0x0, 0x7FFFFFF, 0x0, 0x0, 0x0, 0x0⟩]

/-- The pins galley. -/
def rowsPins : List RegRow :=
  [⟨"PIN_MUX", 0x100, 4, 40, 0x0, 0xFFFFFFFF, 0x0, 0x0, 0x0, 0x0⟩,
   ⟨"PIN_EVENT", 0x1A0, 4, 1, 0x0, 0x0, 0x1, 0x0, 0x0, 0x0⟩]

/-- A GPIO bank. -/
def rowsGpio : List RegRow :=
  [⟨"GPIO_DATA_LO", 0x100, 4, 1, 0x0, 0xFFFFFFFF, 0x0, 0x0, 0x0, 0x0⟩,
   ⟨"GPIO_DATA_HI", 0x104, 4, 1, 0x0, 0xFF, 0x0, 0x0, 0x0, 0x0⟩,
   ⟨"GPIO_OE_LO", 0x108, 4, 1, 0x0, 0xFFFFFFFF, 0x0, 0x0, 0x0, 0x0⟩,
   ⟨"GPIO_OE_HI", 0x10C, 4, 1, 0x0, 0xFF, 0x0, 0x0, 0x0, 0x0⟩,
   ⟨"GPIO_IN_LO", 0x110, 4, 1, 0x0, 0x0, 0x0, 0x0, 0x0, 0x0⟩,
   ⟨"GPIO_IN_HI", 0x114, 4, 1, 0x0, 0x0, 0x0, 0x0, 0x0, 0x0⟩,
   ⟨"IRQ_PEND_LO", 0x118, 4, 1, 0x0, 0x0, 0xFFFFFFFF, 0x0, 0x0, 0x0⟩,
   ⟨"IRQ_PEND_HI", 0x11C, 4, 1, 0x0, 0x0, 0xFF, 0x0, 0x0, 0x0⟩,
   ⟨"BANK_STATUS", 0x120, 4, 1, 0x0, 0x0, 0x0, 0x0, 0x0, 0x0⟩,
   ⟨"BANK_EVENT", 0x124, 4, 1, 0x0, 0x0, 0x3, 0x0, 0x0, 0x0⟩,
   ⟨"PIN_CFG", 0x140, 4, 40, 0x49, 0x77F, 0x0, 0x0, 0x0, 0x0⟩]

/-- A serial port. -/
def rowsSerial : List RegRow :=
  [⟨"SER_CFG", 0x100, 4, 1, 0x800, 0xFFFFFFFF, 0x0, 0x0, 0x0, 0x0⟩,
   ⟨"SER_TX", 0x104, 4, 1, 0x0, 0xFF, 0x0, 0x0, 0x0, 0x0⟩,
   ⟨"SER_RX", 0x108, 4, 1, 0x0, 0x0, 0x0, 0x0, 0x0, 0x3FF⟩,
   ⟨"SER_STATUS", 0x10C, 4, 1, 0x0, 0x0, 0x0, 0x0, 0x0, 0x0⟩,
   ⟨"SER_EVENT", 0x110, 4, 1, 0x0, 0x0, 0x7F, 0x0, 0x0, 0x0⟩,
   ⟨"SER_CMD", 0x114, 4, 1, 0x0, 0xFFFFFF, 0x0, 0x80000000, 0x0, 0x0⟩,
   ⟨"SER_ARG", 0x118, 4, 1, 0x0, 0xFFFFFFFF, 0x0, 0x0, 0x0, 0x0⟩]

/-- The serial ports galley: embedded flash and fuse registers. -/
def rowsSerialGalley : List RegRow :=
  [⟨"FL_ADDR", 0x100, 4, 1, 0x0, 0x7FFFFC, 0x0, 0x0, 0x0, 0x0⟩,
   ⟨"FL_DATA", 0x104, 4, 1, 0x0, 0xFFFFFFFF, 0x0, 0x0, 0x0, 0x0⟩,
   ⟨"FL_CMD", 0x108, 4, 1, 0x0, 0x3, 0x0, 0x80000000, 0x0, 0x0⟩,
   ⟨"FL_STATUS", 0x10C, 4, 1, 0x0, 0x0, 0x0, 0x0, 0x0, 0x0⟩,
   ⟨"FUSE_ADDR", 0x110, 4, 1, 0x0, 0x7FF, 0x0, 0x0, 0x0, 0x0⟩,
   ⟨"FUSE_DATA", 0x114, 4, 1, 0x0, 0x0, 0x0, 0x0, 0x0, 0x0⟩]

/-- A hit lane. -/
def rowsHitLane : List RegRow :=
  [⟨"LANE_CFG", 0x100, 4, 1, 0x0, 0x333, 0x0, 0x0, 0x0, 0x0⟩,
   ⟨"LANE_START", 0x104, 4, 1, 0xFA, 0xFFFF, 0x0, 0x0, 0x0, 0x0⟩,
   ⟨"LANE_STATUS", 0x108, 4, 1, 0x1, 0x0, 0x0, 0x0, 0x0, 0x0⟩,
   ⟨"LANE_RATE", 0x10C, 4, 1, 0x0, 0x0, 0x0, 0x0, 0x0, 0x0⟩,
   ⟨"LANE_EVENT", 0x110, 4, 1, 0x0, 0x0, 0xFF, 0x0, 0x0, 0x0⟩,
   ⟨"TX_CTRL", 0x114, 4, 1, 0xA, 0xF, 0x0, 0x0, 0x0, 0x0⟩,
   ⟨"LOS_CTRL", 0x11C, 4, 1, 0x3, 0x7, 0x0, 0x0, 0x0, 0x0⟩,
   ⟨"CTLE_CTRL", 0x120, 4, 1, 0x210, 0x31F, 0x0, 0x0, 0x0, 0x0⟩,
   ⟨"CTLE_STATUS", 0x124, 4, 1, 0x10, 0x0, 0x0, 0x0, 0x0, 0x0⟩,
   ⟨"EYE_CTRL", 0x180, 4, 1, 0x40000, 0xFFF3F, 0x0, 0x80000000, 0x0, 0x0⟩,
   ⟨"EYE_RESULT", 0x184, 4, 1, 0x0, 0x0, 0x0, 0x0, 0x0, 0x0⟩,
   ⟨"BLK_CTRL", 0x200, 4, 1, 0x0, 0x1, 0x0, 0x6, 0x0, 0x0⟩,
   ⟨"BLK_HUNT_LIMIT", 0x204, 4, 1, 0x10000, 0xFFFFFF, 0x0, 0x0, 0x0, 0x0⟩,
   ⟨"BLK_STATUS", 0x208, 4, 1, 0x0, 0x0, 0x0, 0x0, 0x0, 0x0⟩,
   ⟨"BLK_STATE", 0x20C, 4, 1, 0x0, 0x0, 0x0, 0x0, 0x0, 0x0⟩,
   ⟨"BLK_EVENT", 0x210, 4, 1, 0x0, 0x0, 0x3F, 0x0, 0x0, 0x0⟩] ++
  [⟨"TX_QUAD", 0x214, 4, 1, 0x400, 0x1FFF, 0x0, 0x0, 0x0, 0x0⟩,
   ⟨"ALIGN_CFG", 0x218, 4, 1, 0x40001, 0xF0000, 0x0, 0x0, 0x0, 0x0⟩,
   ⟨"ALIGN_STATUS", 0x21C, 4, 1, 0x3, 0x0, 0x0, 0x0, 0x0, 0x0⟩,
   ⟨"HDR_ERR_COUNT", 0x220, 4, 1, 0x0, 0x0, 0x0, 0x0, 0x0, 0xFFFFFFFF⟩,
   ⟨"LOCK_LOSS_COUNT", 0x224, 4, 1, 0x0, 0x0, 0x0, 0x0, 0x0, 0xFFFFFFFF⟩,
   ⟨"QUAD_DEL_COUNT", 0x228, 4, 1, 0x0, 0x0, 0x0, 0x0, 0x0, 0xFFFFFFFF⟩,
   ⟨"QUAD_INS_COUNT", 0x22C, 4, 1, 0x0, 0x0, 0x0, 0x0, 0x0, 0xFFFFFFFF⟩,
   ⟨"EB_OVF_COUNT", 0x230, 4, 1, 0x0, 0x0, 0x0, 0x0, 0x0, 0xFFFFFFFF⟩,
   ⟨"LATE_COUNT", 0x234, 4, 1, 0x0, 0x0, 0x0, 0x0, 0x0, 0xFFFFFFFF⟩,
   ⟨"EARLY_COUNT", 0x238, 4, 1, 0x0, 0x0, 0x0, 0x0, 0x0, 0xFFFFFFFF⟩,
   ⟨"LINK_VER", 0x02C, 4, 1, 0x21, 0xFF, 0x0, 0x0, 0x0, 0x0⟩,
   ⟨"LINK_FEAT", 0x030, 4, 1, 0xE0, 0xE0, 0x0, 0x0, 0x0, 0x0⟩,
   ⟨"PEER_FEAT", 0x034, 4, 1, 0x0, 0x0, 0x0, 0x0, 0x0, 0x0⟩,
   ⟨"AGREED_FEAT", 0x038, 4, 1, 0x0, 0x0, 0x0, 0x0, 0x0, 0x0⟩,
   ⟨"LINK_STATE", 0x03C, 4, 1, 0x0, 0x0, 0x0, 0x0, 0x0, 0x0⟩,
   ⟨"LINK_CTRL", 0x300, 4, 1, 0xFE0020, 0xFFFF70, 0x0, 0x7, 0x0, 0x0⟩] ++
  [⟨"LINK_EVENT", 0x304, 4, 1, 0x0, 0x0, 0x3FFF, 0x0, 0x0, 0x0⟩,
   ⟨"CREDIT_STATUS", 0x308, 4, 1, 0x0, 0x0, 0x0, 0x0, 0x0, 0x0⟩,
   ⟨"CREDIT_RX", 0x30C, 4, 1, 0x40000, 0x0, 0x0, 0x0, 0x0, 0x0⟩,
   ⟨"ALARM_RX", 0x330, 4, 1, 0x0, 0x0, 0x0, 0x0, 0x0, 0x0⟩,
   ⟨"REM_ADDR", 0x340, 4, 1, 0x0, 0xFFFFFFFC, 0x0, 0x0, 0x0, 0x0⟩,
   ⟨"REM_WDATA", 0x344, 4, 1, 0x0, 0xFFFFFFFF, 0x0, 0x0, 0x0, 0x0⟩,
   ⟨"REM_RDATA", 0x348, 4, 1, 0x0, 0x0, 0x0, 0x0, 0x0, 0x0⟩,
   ⟨"REM_CTRL", 0x34C, 4, 1, 0x6400, 0xFFFF02, 0x0, 0x1, 0x0, 0x0⟩,
   ⟨"REM_STATUS", 0x350, 4, 1, 0x0, 0x0, 0x2, 0x0, 0x0, 0x0⟩,
   ⟨"PORT_COL", 0x400, 4, 1, 0x0, 0xFF, 0x0, 0x0, 0x0, 0x0⟩,
   ⟨"PORT_DLV", 0x404, 4, 1, 0x20, 0x7FF0071, 0x0, 0x0, 0x0, 0x0⟩,
   ⟨"PORT_RXQ", 0x408, 4, 1, 0x0, 0x1F7FF, 0x0, 0x0, 0x0, 0x0⟩,
   ⟨"PORT_TXQ", 0x40C, 4, 1, 0x0, 0xF01F7FF, 0x0, 0x0, 0x0, 0x0⟩,
   ⟨"DLV_TRUNC_COUNT", 0x410, 4, 1, 0x0, 0x0, 0x0, 0x0, 0x0, 0xFFFFFFFF⟩,
   ⟨"MSGQ_DROP_COUNT", 0x414, 4, 1, 0x0, 0x0, 0x0, 0x0, 0x0, 0xFFFFFFFF⟩,
   ⟨"PORT_EVENT", 0x418, 4, 1, 0x0, 0x0, 0x7, 0x0, 0x0, 0x0⟩] ++
  [⟨"CRC_ERR_COUNT", 0x310, 4, 1, 0x0, 0x0, 0x0, 0x0, 0x0, 0xFFFFFFFF⟩,
   ⟨"HDR_CHK_COUNT", 0x314, 4, 1, 0x0, 0x0, 0x0, 0x0, 0x0, 0xFFFFFFFF⟩,
   ⟨"CTL_CHK_COUNT", 0x318, 4, 1, 0x0, 0x0, 0x0, 0x0, 0x0, 0xFFFFFFFF⟩,
   ⟨"UNKNOWN_CTL_COUNT", 0x31C, 4, 1, 0x0, 0x0, 0x0, 0x0, 0x0, 0xFFFFFFFF⟩,
   ⟨"ORPHAN_COUNT", 0x320, 4, 1, 0x0, 0x0, 0x0, 0x0, 0x0, 0xFFFFFFFF⟩,
   ⟨"PROTO_ERR_COUNT", 0x324, 4, 1, 0x0, 0x0, 0x0, 0x0, 0x0, 0xFFFFFFFF⟩,
   ⟨"DRAIN_DROP_COUNT", 0x328, 4, 1, 0x0, 0x0, 0x0, 0x0, 0x0, 0xFFFFFFFF⟩,
   ⟨"STALE_RESP_COUNT", 0x32C, 4, 1, 0x0, 0x0, 0x0, 0x0, 0x0, 0xFFFFFFFF⟩,
   ⟨"DFE_CTRL", 0x130, 4, 1, 0x9, 0xFFF000D, 0x0, 0x80000000, 0x0, 0x0⟩,
   ⟨"DFE_LOAD", 0x134, 4, 1, 0x10000, 0xF00FF, 0x0, 0x80000000, 0x0, 0x0⟩,
   ⟨"DFE_TAP", 0x140, 4, 12, 0x0, 0x0, 0x0, 0x0, 0x0, 0x0⟩,
   ⟨"DFE_DLEV", 0x170, 4, 1, 0x28, 0x0, 0x0, 0x0, 0x0, 0x0⟩,
   ⟨"DIRECT_CFG", 0x500, 4, 1, 0x0, 0x1FFFF1F1, 0x0, 0x0, 0x0, 0x0⟩,
   ⟨"DIRECT_DROP_COUNT", 0x504, 4, 1, 0x0, 0x0, 0x0, 0x0, 0x0, 0xFFFFFFFF⟩]

/-- A trunk lane. -/
def rowsTrunkLane : List RegRow :=
  [⟨"LANE_CFG", 0x100, 4, 1, 0x0, 0x333, 0x0, 0x0, 0x0, 0x0⟩,
   ⟨"LANE_START", 0x104, 4, 1, 0xFA, 0xFFFF, 0x0, 0x0, 0x0, 0x0⟩,
   ⟨"LANE_STATUS", 0x108, 4, 1, 0x1, 0x0, 0x0, 0x0, 0x0, 0x0⟩,
   ⟨"LANE_RATE", 0x10C, 4, 1, 0x0, 0x0, 0x0, 0x0, 0x0, 0x0⟩,
   ⟨"LANE_EVENT", 0x110, 4, 1, 0x0, 0x0, 0xFF, 0x0, 0x0, 0x0⟩,
   ⟨"TX_CTRL", 0x114, 4, 1, 0xA, 0xF, 0x0, 0x0, 0x0, 0x0⟩,
   ⟨"LOS_CTRL", 0x11C, 4, 1, 0x3, 0x7, 0x0, 0x0, 0x0, 0x0⟩,
   ⟨"CTLE_CTRL", 0x120, 4, 1, 0x110, 0x31F, 0x0, 0x0, 0x0, 0x0⟩,
   ⟨"CTLE_STATUS", 0x124, 4, 1, 0x10, 0x0, 0x0, 0x0, 0x0, 0x0⟩,
   ⟨"EYE_CTRL", 0x180, 4, 1, 0x40000, 0xFFF3F, 0x0, 0x80000000, 0x0, 0x0⟩,
   ⟨"EYE_RESULT", 0x184, 4, 1, 0x0, 0x0, 0x0, 0x0, 0x0, 0x0⟩,
   ⟨"BLK_CTRL", 0x200, 4, 1, 0x0, 0x1, 0x0, 0x6, 0x0, 0x0⟩,
   ⟨"BLK_HUNT_LIMIT", 0x204, 4, 1, 0x10000, 0xFFFFFF, 0x0, 0x0, 0x0, 0x0⟩,
   ⟨"BLK_STATUS", 0x208, 4, 1, 0x0, 0x0, 0x0, 0x0, 0x0, 0x0⟩,
   ⟨"BLK_STATE", 0x20C, 4, 1, 0x0, 0x0, 0x0, 0x0, 0x0, 0x0⟩,
   ⟨"BLK_EVENT", 0x210, 4, 1, 0x0, 0x0, 0x3F, 0x0, 0x0, 0x0⟩] ++
  [⟨"TX_QUAD", 0x214, 4, 1, 0x400, 0x1FFF, 0x0, 0x0, 0x0, 0x0⟩,
   ⟨"ALIGN_CFG", 0x218, 4, 1, 0x40000, 0xF0001, 0x0, 0x0, 0x0, 0x0⟩,
   ⟨"ALIGN_STATUS", 0x21C, 4, 1, 0x3, 0x0, 0x0, 0x0, 0x0, 0x0⟩,
   ⟨"HDR_ERR_COUNT", 0x220, 4, 1, 0x0, 0x0, 0x0, 0x0, 0x0, 0xFFFFFFFF⟩,
   ⟨"LOCK_LOSS_COUNT", 0x224, 4, 1, 0x0, 0x0, 0x0, 0x0, 0x0, 0xFFFFFFFF⟩,
   ⟨"QUAD_DEL_COUNT", 0x228, 4, 1, 0x0, 0x0, 0x0, 0x0, 0x0, 0xFFFFFFFF⟩,
   ⟨"QUAD_INS_COUNT", 0x22C, 4, 1, 0x0, 0x0, 0x0, 0x0, 0x0, 0xFFFFFFFF⟩,
   ⟨"EB_OVF_COUNT", 0x230, 4, 1, 0x0, 0x0, 0x0, 0x0, 0x0, 0xFFFFFFFF⟩,
   ⟨"LATE_COUNT", 0x234, 4, 1, 0x0, 0x0, 0x0, 0x0, 0x0, 0xFFFFFFFF⟩,
   ⟨"EARLY_COUNT", 0x238, 4, 1, 0x0, 0x0, 0x0, 0x0, 0x0, 0xFFFFFFFF⟩,
   ⟨"LINK_VER", 0x02C, 4, 1, 0x21, 0xFF, 0x0, 0x0, 0x0, 0x0⟩,
   ⟨"LINK_FEAT", 0x030, 4, 1, 0xFF, 0xFE, 0x0, 0x0, 0x0, 0x0⟩,
   ⟨"PEER_FEAT", 0x034, 4, 1, 0x0, 0x0, 0x0, 0x0, 0x0, 0x0⟩,
   ⟨"AGREED_FEAT", 0x038, 4, 1, 0x0, 0x0, 0x0, 0x0, 0x0, 0x0⟩,
   ⟨"LINK_STATE", 0x03C, 4, 1, 0x0, 0x0, 0x0, 0x0, 0x0, 0x0⟩,
   ⟨"LINK_CTRL", 0x300, 4, 1, 0xFE0020, 0xFFFF70, 0x0, 0x7, 0x0, 0x0⟩] ++
  [⟨"LINK_EVENT", 0x304, 4, 1, 0x0, 0x0, 0x3FFF, 0x0, 0x0, 0x0⟩,
   ⟨"CREDIT_STATUS", 0x308, 4, 1, 0x0, 0x0, 0x0, 0x0, 0x0, 0x0⟩,
   ⟨"CREDIT_RX", 0x30C, 4, 1, 0x200040, 0x0, 0x0, 0x0, 0x0, 0x0⟩,
   ⟨"ALARM_RX", 0x330, 4, 1, 0x0, 0x0, 0x0, 0x0, 0x0, 0x0⟩,
   ⟨"REM_ADDR", 0x340, 4, 1, 0x0, 0xFFFFFFFC, 0x0, 0x0, 0x0, 0x0⟩,
   ⟨"REM_WDATA", 0x344, 4, 1, 0x0, 0xFFFFFFFF, 0x0, 0x0, 0x0, 0x0⟩,
   ⟨"REM_RDATA", 0x348, 4, 1, 0x0, 0x0, 0x0, 0x0, 0x0, 0x0⟩,
   ⟨"REM_CTRL", 0x34C, 4, 1, 0x6400, 0xFFFF02, 0x0, 0x1, 0x0, 0x0⟩,
   ⟨"REM_STATUS", 0x350, 4, 1, 0x0, 0x0, 0x2, 0x0, 0x0, 0x0⟩,
   ⟨"PORT_COL", 0x400, 4, 1, 0x0, 0xFF, 0x0, 0x0, 0x0, 0x0⟩,
   ⟨"PORT_DLV", 0x404, 4, 1, 0x20, 0x7FF0071, 0x0, 0x0, 0x0, 0x0⟩,
   ⟨"PORT_RXQ", 0x408, 4, 1, 0x0, 0x1F7FF, 0x0, 0x0, 0x0, 0x0⟩,
   ⟨"PORT_TXQ", 0x40C, 4, 1, 0x0, 0xF01F7FF, 0x0, 0x0, 0x0, 0x0⟩,
   ⟨"DLV_TRUNC_COUNT", 0x410, 4, 1, 0x0, 0x0, 0x0, 0x0, 0x0, 0xFFFFFFFF⟩,
   ⟨"MSGQ_DROP_COUNT", 0x414, 4, 1, 0x0, 0x0, 0x0, 0x0, 0x0, 0xFFFFFFFF⟩,
   ⟨"PORT_EVENT", 0x418, 4, 1, 0x0, 0x0, 0x7, 0x0, 0x0, 0x0⟩] ++
  [⟨"CRC_ERR_COUNT", 0x310, 4, 1, 0x0, 0x0, 0x0, 0x0, 0x0, 0xFFFFFFFF⟩,
   ⟨"HDR_CHK_COUNT", 0x314, 4, 1, 0x0, 0x0, 0x0, 0x0, 0x0, 0xFFFFFFFF⟩,
   ⟨"CTL_CHK_COUNT", 0x318, 4, 1, 0x0, 0x0, 0x0, 0x0, 0x0, 0xFFFFFFFF⟩,
   ⟨"UNKNOWN_CTL_COUNT", 0x31C, 4, 1, 0x0, 0x0, 0x0, 0x0, 0x0, 0xFFFFFFFF⟩,
   ⟨"ORPHAN_COUNT", 0x320, 4, 1, 0x0, 0x0, 0x0, 0x0, 0x0, 0xFFFFFFFF⟩,
   ⟨"PROTO_ERR_COUNT", 0x324, 4, 1, 0x0, 0x0, 0x0, 0x0, 0x0, 0xFFFFFFFF⟩,
   ⟨"DRAIN_DROP_COUNT", 0x328, 4, 1, 0x0, 0x0, 0x0, 0x0, 0x0, 0xFFFFFFFF⟩,
   ⟨"STALE_RESP_COUNT", 0x32C, 4, 1, 0x0, 0x0, 0x0, 0x0, 0x0, 0xFFFFFFFF⟩,
   ⟨"TX_FIR", 0x118, 4, 1, 0x3F0000, 0x1F0F, 0x0, 0x0, 0x0, 0x0⟩]

end Sys2Proof.Machine
end

