-- ==== Sys2Proof/Machine/Windows.lean ====
section
/-!
DEFINITION. The unit tree and the control-space map: which unit owns an address (R15, R61, R62, R79, R82),
what its identity registers read (R63 and the chapters), its children in enable order (R62, R64), its power
domain (R424) and the value every register has after reset (R9).
-/
namespace Sys2Proof.Machine

/-- The kinds of register window of the T7 (R63, R82). -/
inductive Blk where
  | root | layer | forme | kryup | clkgen | pll | keeper | monitor | power | pdctl | damper
  | config | pins | gpio | serialGalley | serial | strike | stGalley | stctl | memsys | mc | crypto
  | mover | hitLane | trunkLane | laneGroup | ring | column | shell
deriving DecidableEq, Repr, Inhabited

/-- A unit: its kind, the base of its window and its number within the kind. -/
structure Unit where
  blk  : Blk
  base : Nat
  idx  : Nat
deriving DecidableEq, Repr, Inhabited

/-! ## Window bases -/

def laneBase (n : Nat) : Nat := 0x100000 + n * 0x1000
def laneGroupBase (g : Nat) : Nat := 0x190000 + g * 0x1000
def ringBase (e : Nat) : Nat := 0x200000 + e * 0x10000
/-- The column unit of layer `l`, column `c` (R15). -/
def columnBase (l c : Nat) : Nat := 0x400000 + l * 0x100000 + c * 0x1000
/-- The shell `s` of the tile of column `c` in logic die `d` (R79). -/
def shellBase (d c s : Nat) : Nat := 0x900000 + d * 0x200000 + c * 0x2000 + s * 0x1000
def layerBase (l : Nat) : Nat := 0x2000 + l * 0x1000
def gpioBase (b : Nat) : Nat := 0x51000 + b * 0x1000
def serialBase (i : Nat) : Nat := 0x61000 + i * 0x1000
def moverBase (m : Nat) : Nat := 0x98000 + m * 0x1000
/-- FPLL_A, FPLL_B and CPLL are PLL 0, 1 and 2 (R414). -/
def pllBase (p : Nat) : Nat := 0x21000 + p * 0x1000
/-- The monitors of SIO, FIO, XA and XB are 0 to 3 (R414). -/
def monitorBase (m : Nat) : Nat := 0x29000 + m * 0x1000
def mcBase (w : Nat) : Nat := 0x91000 + w * 0x1000
def rootBase : Nat := 0
def formeBase : Nat := 0x8000
def kryupBase : Nat := 0x10000
def clkBase : Nat := 0x20000
def keeperBase : Nat := 0x28000
def powerBase : Nat := 0x30000
def pdBase : Nat := 0x31000
def damperBase : Nat := 0x32000
def configBase : Nat := 0x40000
def pinsBase : Nat := 0x50000
def serialGalleyBase : Nat := 0x60000
def strikeBase : Nat := 0x70000
def selfTestBase : Nat := 0x80000
def stctlBase : Nat := 0x81000
def memsysBase : Nat := 0x90000
def cryptoBase : Nat := 0x94000

/-- The unit whose window holds the address (R82). -/
def unitAt (a : Nat) : Option Unit :=
  let w := a / 0x1000
  if a < 0x1000 then some ⟨.root, 0, 0⟩
  else if 0x2 ≤ w ∧ w < 0x7 then some ⟨.layer, w * 0x1000, w - 2⟩
  else if w = 0x8 then some ⟨.forme, formeBase, 0⟩
  else if 0x10 ≤ w ∧ w < 0x20 then some ⟨.kryup, kryupBase, 0⟩
  else if w = 0x20 then some ⟨.clkgen, clkBase, 0⟩
  else if 0x21 ≤ w ∧ w < 0x24 then some ⟨.pll, w * 0x1000, w - 0x21⟩
  else if w = 0x28 then some ⟨.keeper, keeperBase, 0⟩
  else if 0x29 ≤ w ∧ w < 0x2D then some ⟨.monitor, w * 0x1000, w - 0x29⟩
  else if w = 0x30 then some ⟨.power, powerBase, 0⟩
  else if w = 0x31 then some ⟨.pdctl, pdBase, 0⟩
  else if w = 0x32 then some ⟨.damper, damperBase, 0⟩
  else if w = 0x40 then some ⟨.config, configBase, 0⟩
  else if w = 0x50 then some ⟨.pins, pinsBase, 0⟩
  else if 0x51 ≤ w ∧ w < 0x59 then some ⟨.gpio, w * 0x1000, w - 0x51⟩
  else if w = 0x60 then some ⟨.serialGalley, serialGalleyBase, 0⟩
  else if 0x61 ≤ w ∧ w < 0x67 then some ⟨.serial, w * 0x1000, w - 0x61⟩
  else if w = 0x70 then some ⟨.strike, strikeBase, 0⟩
  else if w = 0x80 then some ⟨.stGalley, selfTestBase, 0⟩
  else if w = 0x81 then some ⟨.stctl, stctlBase, 0⟩
  else if w = 0x90 then some ⟨.memsys, memsysBase, 0⟩
  else if w = 0x91 ∨ w = 0x92 then some ⟨.mc, w * 0x1000, w - 0x91⟩
  else if w = 0x94 then some ⟨.crypto, cryptoBase, 0⟩
  else if 0x98 ≤ w ∧ w < 0xA0 then some ⟨.mover, w * 0x1000, w - 0x98⟩
  else if 0x100 ≤ w ∧ w < 0x180 then some ⟨.hitLane, w * 0x1000, w - 0x100⟩
  else if 0x180 ≤ w ∧ w < 0x190 then some ⟨.trunkLane, w * 0x1000, w - 0x100⟩
  else if 0x190 ≤ w ∧ w < 0x1A2 then some ⟨.laneGroup, w * 0x1000, w - 0x190⟩
  else if 0x200 ≤ w ∧ w < 0x300 then some ⟨.ring, a / 0x10000 * 0x10000, w / 16 - 0x20⟩
  else if 0x400 ≤ w ∧ w < 0x900 then some ⟨.column, w * 0x1000, w - 0x400⟩
  else if 0x900 ≤ w ∧ w < 0xD00 then some ⟨.shell, w * 0x1000, w - 0x900⟩
  else none

/-- The layer of a column unit, from its number. -/
def Unit.layer (u : Unit) : Nat := u.idx / 256

/-- The column of a column unit, from its number. -/
def Unit.column (u : Unit) : Nat := u.idx % 256

/-- The unit at a window base; the root galley stands for a base that is none. -/
def unitOf (base : Nat) : Unit := (unitAt base).getD ⟨.root, 0, 0⟩

/-! ## The stack's geometry (R11 to R14) -/

def columnX (c : Nat) : Nat := c % 16
def columnY (c : Nat) : Nat := c / 16
def groupOf (c : Nat) : Nat := columnY c / 4 * 4 + columnX c / 4
def quadrantOf (c : Nat) : Nat := columnY c / 8 * 2 + columnX c / 8
/-- The quadrant that holds a column group. -/
def groupQuadrant (g : Nat) : Nat := g / 4 / 2 * 2 + g % 4 / 2
/-- The half of the configuration die that holds a column. -/
def halfOf (c : Nat) : Nat := columnY c / 8
/-- The 16 columns of a group, in index order. -/
def groupColumns (g : Nat) : List Nat := (List.range 256).filter fun c => groupOf c == g

/-! ## Children (R62, R64) -/

/-- A galley's children in enable order, each with WITH_PREV; the forme's come from its image. -/
def hardChildren (u : Unit) : List (Bool × Nat) :=
  match u.blk with
  | .root =>
    [(false, kryupBase), (false, clkBase), (false, powerBase), (false, pinsBase), (false, serialGalleyBase),
     (false, selfTestBase), (false, configBase), (false, memsysBase)] ++
    (List.range 5).map (fun l => (false, layerBase l)) ++
    [(false, laneGroupBase 16), (false, laneGroupBase 17)] ++
    (List.range 16).map (fun e => (false, ringBase e)) ++
    (List.range 16).map (fun g => (false, laneGroupBase g)) ++
    [(false, formeBase), (false, strikeBase)]
  | .layer => (List.range 256).map fun c => (false, columnBase u.idx c)
  | .clkgen =>
    [(false, monitorBase 0), (true, monitorBase 1), (true, monitorBase 2), (true, monitorBase 3),
     (false, pllBase 2), (false, pllBase 0), (true, pllBase 1), (false, keeperBase)]
  | .power => [(false, pdBase), (false, damperBase)]
  | .pins => (List.range 8).map fun b => (decide (0 < b), gpioBase b)
  | .serialGalley => (List.range 6).map fun i => (decide (0 < i), serialBase i)
  | .stGalley => [(false, stctlBase)]
  | .memsys =>
    [(false, cryptoBase), (false, mcBase 0), (true, mcBase 1)] ++
    (List.range 8).map (fun m => (decide (0 < m), moverBase m))
  | .laneGroup => (List.range 8).map fun i => (decide (0 < i), laneBase (8 * u.idx + i))
  | _ => []

/-- A unit that holds children (R60). -/
def Unit.isGalley (u : Unit) : Bool :=
  match u.blk with
  | .root | .layer | .forme | .clkgen | .power | .pins | .serialGalley | .stGalley | .memsys | .laneGroup => true
  | _ => false

/-- A unit that ignores propagated CTRL writes (R73): Kryup, the Strike Port, the PLLs (R415), the monitors
(R416), the domain controller and the Damper (R417). -/
def Unit.isPrivileged (u : Unit) : Bool :=
  match u.blk with
  | .kryup | .strike | .pll | .monitor | .pdctl | .damper => true
  | _ => false

/-- The offset of the child table (R61 and the chapters); 0 for a sort. -/
def Unit.tableOffset (u : Unit) : Nat :=
  match u.blk with
  | .root | .layer => 0x100
  | .forme | .clkgen | .power | .pins | .serialGalley | .stGalley | .memsys | .laneGroup => 0x40
  | _ => 0

/-! ## Identity registers (R63, R97 and the chapters) -/

/-- UNIT_ID of a hard unit; user shells read theirs from the image. -/
def Unit.unitId (u : Unit) : Nat :=
  match u.blk with
  | .root => 0x01F00001
  | .layer => 0x09000001 + u.idx * 0x00100010
  | .forme => 0x02F00001
  | .kryup => 0x60000004
  | .clkgen => 0x08000011
  | .pll => if u.idx = 2 then 0x12000024 else 0x12000004 + u.idx * 0x10
  | .keeper => 0x13000000
  | .monitor => 0x14000004 + u.idx * 0x10
  | .power => 0x08000021
  | .pdctl => 0x18000004
  | .damper => 0x19000004
  | .config => 0x20000000
  | .pins => 0x08000031
  | .gpio => 0x28000000 + u.idx * 0x10
  | .serialGalley => 0x08000041
  | .serial => 0x29000008 + u.idx * 0x10
  | .strike => 0x30000004
  | .stGalley => 0x08000051
  | .stctl => 0x38000000
  | .memsys => 0x08000071
  | .mc => 0x40000008 + u.idx * 0x10
  | .crypto => 0x41000000
  | .mover => 0x42000008 + u.idx * 0x10
  | .hitLane => 0x10000008 + u.idx * 0x10
  | .trunkLane => 0x11000008 + u.idx * 0x10
  | .laneGroup => 0x0A000009 + u.idx * 0x10
  | .ring => 0x48000008 + u.idx * 0x10
  | .column => 0x50000000 + u.layer * 0x100000 + u.column * 0x10
  | .shell => 0

/-- UNIT_CAPS of a hard unit (R488 and the chapters). -/
def Unit.unitCaps (u : Unit) : Nat :=
  match u.blk with
  | .hitLane => 0xF000000A
  | .trunkLane => 0xF000000D
  | .strike => 0x60000000
  | .mc => 0xE0000000
  | .gpio => 0x60000000
  | .serial => 0x20000000
  | .column => if u.layer = 0 then 0x40000000 else 0
  | _ => 0

/-- The native interface version, major and minor (R97). -/
def Unit.native (u : Unit) : Nat × Nat :=
  match u.blk with
  | .hitLane | .trunkLane => (3, 0)
  | .laneGroup | .ring => (2, 1)
  | .mc | .mover => (2, 0)
  | .serial => (1, 3)
  | _ => (1, 0)

/-- The oldest major a unit presents (R97). -/
def Unit.oldestMajor (u : Unit) : Nat :=
  match u.blk with
  | .hitLane | .trunkLane => 2
  | _ => 1

/-- The highest minor at which the unit implements a major, when it implements it (R97). -/
def Unit.minorOf (u : Unit) (major : Nat) : Option Nat :=
  if major = u.native.1 then some u.native.2
  else if u.oldestMajor ≤ major ∧ major < u.native.1 then some 0
  else none

/-- The proof depths a unit implements, one bit each (R488). -/
def Unit.proofDepths (u : Unit) : Nat := u.unitCaps >>> 28

/-! ## Power domains (R424) -/

/-- The switched domain a hard unit belongs to; `none` for the AO domain and for user shells, whose domains
the image decides (R550). -/
def Unit.domain (u : Unit) : Option Nat :=
  match u.blk with
  | .kryup | .power | .pdctl | .damper => none
  | .clkgen | .pll | .monitor | .keeper => some 0
  | .config => some 2
  | .mc => some (3 + u.idx)
  | .mover => some (if u.idx < 4 then 3 else 4)
  | .crypto => some 5
  | .ring => some 6
  | .strike => some 7
  | .hitLane | .trunkLane => some (8 + u.idx / 8)
  | .laneGroup => some (8 + u.idx)
  | .column =>
    if u.layer = 0 then some 0
    else if u.layer = 1 then some (26 + quadrantOf u.column)
    else if u.layer = 2 then some (32 + quadrantOf u.column)
    else if u.layer = 3 then some (30 + halfOf u.column)
    else some (36 + quadrantOf u.column)
  | .shell => none
  | _ => some 1

/-- The prerequisites of a domain (R424). -/
def domainPrereqs (d : Nat) : List Nat :=
  if d = 0 then []
  else if d = 1 then [0]
  else if d = 3 ∨ d = 4 then [1, 5]
  else if d < 32 then [1]
  else if d < 36 then [26 + (d - 32), 30 + (d - 32) / 2]
  else [32 + (d - 36), 30 + (d - 36) / 2]

/-- The domains that list a domain as a prerequisite. -/
def domainDependents (d : Nat) : List Nat := (List.range 40).filter fun e => (domainPrereqs e).contains d

/-! ## Register rows and reset values (R9) -/

/-- The rows of a unit's registers above its UCB. -/
def Unit.rows (u : Unit) : List RegRow :=
  match u.blk with
  | .root => rowsRoot
  | .kryup => rowsKryup
  | .clkgen => rowsClkgen
  | .pll => rowsPll
  | .keeper => rowsKeeper
  | .monitor => rowsMonitor
  | .power => rowsPower
  | .pdctl => rowsPdctl
  | .damper => rowsDamper
  | .config => rowsConfig
  | .pins => rowsPins
  | .gpio => rowsGpio
  | .serialGalley => rowsSerialGalley
  | .serial => rowsSerial
  | .strike => rowsStrike ++ rowsPrf.map fun r => { r with off := r.off + 0x200 }
  | .stctl => rowsStctl
  | .mc => rowsMc ++ (rowsPrf.map fun r => { r with off := r.off + 0x200 }) ++ rowsPrfmc
  | .crypto => rowsCrypto
  | .mover => rowsMover
  | .hitLane => rowsHitLane ++ rowsPrf.map fun r => { r with off := r.off + 0x600 }
  | .trunkLane => rowsTrunkLane ++ rowsPrf.map fun r => { r with off := r.off + 0x600 }
  | .laneGroup => rowsLg
  | .ring => rowsRing
  | .column =>
    if u.layer = 0 then rowsColB0 ++ rowsColumn ++ rowsPrf.map fun r => { r with off := r.off + 0x300 }
    else if u.layer = 1 then rowsColM1 ++ rowsColumn
    else if u.layer = 3 then rowsColumn
    else rowsTile ++ rowsColumn
  | .shell => rowsShell
  | _ => []
where
  /-- USER0 to USER4 of a shell (R80): the fabric writes USER3 and USER4. -/
  rowsShell : List RegRow :=
    [⟨"USER", 0x2C, 4, 3, 0, 0xFFFFFFFF, 0, 0, 0, 0⟩, ⟨"USER", 0x38, 4, 2, 0, 0, 0, 0, 0, 0⟩]

/-- Whether a row holds the register at an offset. -/
def RegRow.covers (r : RegRow) (off : Nat) : Bool :=
  r.off ≤ off && (off - r.off) % r.stride == 0 && (off - r.off) / r.stride < r.count

/-- The row of a unit's register at an offset, UCB included. -/
def Unit.rowAt (u : Unit) (off : Nat) : Option RegRow :=
  if off < 0x2C then rowsUcb.find? (·.covers off) else u.rows.find? (·.covers off)

/-- The reset value of PIN_MUX*k*: pins 0 to 10 take code 2 and pins 11 to 15 code 3 (R506). -/
def pinMuxReset (k : Nat) : Nat :=
  if k = 0 then 0x22222222 else if k = 1 then 0x33333222 else 0

/-- The built-in policy (R449, R455): ACTIONS and HOLD of causes 0x01 to 0x10. -/
def builtinPolicy : List (Nat × Nat) :=
  [(0xF, 64), (0x7, 64), (0x3, 64), (0xF, 64), (0x7, 64), (0x3, 64), (0xF, 64), (0xF, 0),
   (0x3, 64), (0x7, 64), (0x3, 64), (0x3, 64), (0xF, 0), (0x1, 64), (0x1, 64), (0x3, 64)]

/-- Kryup's registers that start from the built-in policy. -/
def kryupReset (off : Nat) : Option Nat :=
  if off = Reg.KRY_STATUS.off then some 1
  else if 0x410 ≤ off ∧ off < 0x510 ∧ off % 16 = 0 then
    let e := builtinPolicy.getD ((off - 0x410) / 16) (0, 0)
    some (e.2 * 0x10000 + e.1)
  else none

/-- The reset value of a unit's register (R9). A unit of a switched domain is OFF, one of the AO domain
STOPPED, and Kryup, which runs whenever VCC_AO is good, RUNNING; user shells are OFF. -/
def Unit.resetReg (u : Unit) (off : Nat) : Nat :=
  if off = 0x00 then u.unitId
  else if off = 0x04 then u.native.1 * 0x1000000 + u.native.2 * 0x10000 + u.native.1 * 0x100 + u.native.2
  else if off = 0x08 then u.unitCaps
  else if off = 0x0C then (hardChildren u).length * 0x10000 + u.tableOffset
  else if off = 0x14 then
    match u.blk with
    | .kryup => 0x33
    | .power | .pdctl | .damper => 0x11
    | _ => 0
  else if off = 0x28 then u.oldestMajor * 0x1000000 + u.native.1 * 0x100 + u.native.2
  else if u.blk = .pins ∧ 0x100 ≤ off ∧ off < 0x1A0 then pinMuxReset ((off - 0x100) / 4)
  else if u.blk = .serial ∧ off = 0x100 then serialCfg u.idx
  else if u.blk = .kryup ∧ (kryupReset off).isSome then (kryupReset off).getD 0
  else if u.blk = .stctl ∧ off = Reg.SCAN_PERMIT.off then 1
  else match u.rowAt off with
    | some r => r.reset
    | none => 0
where
  /-- SER_CFG after reset: DIV in the I2C ports and the UARTs, DUMMY in SPI0; a field that a port kind does
  not use is reserved in that kind. -/
  serialCfg (i : Nat) : Nat :=
    if i = 0 then 0x00000800 else if i = 2 ∨ i = 3 then 0x02710000 else if 4 ≤ i then 0x087A0000 else 0

/-- The value every control-space address holds after reset; an address with no register holds 0. -/
def resetValue (a : Nat) : Word :=
  match unitAt a with
  | some u => BitVec.ofNat 32 (u.resetReg (a - u.base))
  | none => 0

end Sys2Proof.Machine
end

