-- ==== Sys2Proof/Machine/State.lean ====
section
/-!
DEFINITION. The state of the T7 as plain data, its reset value, and the reasons a step can stop. Control-space
registers have one home, the sparse register file `regs`, whose unlisted addresses read their reset values
(R9); the records hold the state that no register shows.
-/
namespace Sys2Proof.Machine

/-- A sparse map from numbers, kept with its keys strictly rising. -/
structure SMap (α : Type) where
  items : List (Nat × α) := []
deriving DecidableEq, Repr, Inhabited

/-- The states of a unit (R66). -/
inductive UState where
  | off | stopped | starting | running | draining | faulted | isolated | degraded
deriving DecidableEq, Repr, Inhabited

/-! ## The stack ("The Stack and Its Columns") -/

/-- Vertical connections of the columns beyond their registers. -/
structure StackRec where
  /-- Corrected errors of each via, keyed by `viaKey` (R29). -/
  viaCount   : SMap Nat := {}
  /-- Vias of a bundle replaced by spares, keyed by `bundleKey` (R17, R29). -/
  repaired   : SMap (List Nat) := {}
  /-- Failed vias of a bundle that no spare replaces (R32). -/
  unrepaired : SMap (List Nat) := {}
  /-- Dead shafts of a column (R31). -/
  deadShafts : SMap (List Nat) := {}
  /-- Fenced columns: 1 until the clock restart of R23, 2 until the next power-on or device reset (R24, R33). -/
  fence      : SMap Nat := {}
  /-- The repair maps have been applied since power-on or device reset (R27, R28). -/
  mapped     : Bool := false
  /-- While a command runs: what befalls its transfers over base ports, in order, and, by column, what they have met so far (R29,
  R30). Both are empty between commands. -/
  meets      : List PortFound := []
  met        : List (Nat × PortFound) := []
deriving DecidableEq, Repr, Inhabited

/-! ## The crossing keeper ("Crossings and the Latency Contract") -/

/-- The keeper beyond its registers. -/
structure KeeperRec where
  /-- The 48-bit crossing number (R38). -/
  now          : Nat := 0
  /-- The crossing of the most recent breach (R55). -/
  lastBreach   : Nat := 0
  /-- The sync value waiting for the next crossing edge (R40, R41). -/
  pendingSync  : Option Nat := none
  /-- Recent breach crossings, for the decisions they reach (R55). -/
  breaches     : List Nat := []
  /-- A breach of R56 has arisen in the present crossing. -/
  breachNow    : Bool := false
  /-- Crossings still to be presented not ready after a jump (R43). -/
  notReadyLeft : Nat := 0
  /-- The Tick count at entry into holdover, until its 64 Ticks have been acted on (R58). -/
  holdoverTick : Option Nat := none
  /-- The release of the present crossing has taken place (R46, R140). -/
  released     : Bool := false
  /-- The present crossing begins half-way through a row cycle (R20). -/
  rowHalf      : Bool := false
  /-- Trunk pulses the Damper and the governor swallow in each group in the present crossing (R53, R435). -/
  swallowed    : SMap Nat := {}
  /-- The greatest P that has been in force in each group in the present crossing (R433). -/
  topP         : SMap Nat := {}
  /-- Plate-switch hold cycles of each group in the present crossing (R54). -/
  holds        : SMap Nat := {}
  /-- The frequency of CROSS_CLK in kHz as the board supplies it; 0 shows no edges (R37, R44). -/
  crossKHz     : Nat := 0
  /-- The frequency at which CROSS_CLK last showed edges, which the roots hold in holdover (R58); 0 before any. -/
  lastKHz      : Nat := 0
deriving DecidableEq, Repr, Inhabited

/-! ## Units and galleys ("Units, Sorts and Galleys") -/

/-- A galley's own sequence in progress (R72): a start or a drain, and the step it is in. -/
structure GSeq where
  drain : Bool := false
  step  : Nat := 0
deriving DecidableEq, Repr, Inhabited

/-- The state of release of a user unit or of the forme (R382). -/
inductive RelState where
  | loading | held | outputs | writes | released
deriving DecidableEq, Repr, Inhabited

/-- A user unit that the image declares (R344), by its shell's window base. -/
structure UserUnit where
  unitId      : Nat := 0
  caps        : Nat := 0
  childTable  : List (Bool × Nat) := []
  initPresent : Bool := false
  occL2       : List Nat := []
  occL4       : List Nat := []
  rel         : RelState := .loading
  relTarget   : Option Nat := none
  /-- The edges of a staged release passed are counted from this crossing (R379). -/
  relCross    : Nat := 0
  /-- The fabric cycle in it at which the last stage stands (R379). -/
  relCycle    : Nat := 0
  /-- U_READY rose between the write-enable and the reset stage (R379). -/
  readySeen   : Bool := false
  /-- A partial image for the unit was rejected: every ENABLE ends in START_FAIL (R385). -/
  badImage    : Bool := false
deriving DecidableEq, Repr, Inhabited

/-- What no register of the unit tree shows. -/
structure UnitsRec where
  /-- Sequences in progress, by galley base (R72). -/
  seq        : SMap GSeq := {}
  /-- Tick count at entry into DRAINING (R76). -/
  drainTick  : SMap Nat := {}
  /-- Tick count at entry into STARTING (R110, R104, R415). -/
  startTick  : SMap Nat := {}
  /-- Bases of units with a standing loss of capacity (R67). -/
  loss       : SMap Nat := {}
  /-- Units running a proof loop when PROOF was left: PROOF_EN clears at STOPPED (R491). -/
  proofEnds  : SMap Nat := {}
  /-- FAULT bits whose cause stands, by base (R68). -/
  standing   : SMap Nat := {}
  /-- User units and the forme, by base. -/
  user       : SMap UserUnit := {}
  /-- One-cycle pulses sent on U_RST and U_DISCARD, counted by shell base (R79). -/
  uRst       : SMap Nat := {}
  uDiscard   : SMap Nat := {}
deriving DecidableEq, Repr, Inhabited

/-! ## Control space ("Control Space and Data Space") -/

/-- An access waiting for the arbiter (R90): its path, address and, for a write, its data. -/
structure Access where
  path  : Nat := 0
  write : Bool := false
  addr  : Nat := 0
  data  : Word := 0
  /-- The lane of a management word. -/
  lane  : Option Nat := none
  /-- The Tick count when it was presented (R88). -/
  since : Nat := 0
deriving DecidableEq, Repr, Inhabited

/-- The completion of an access: the status of R88 and the word read. -/
structure Done where
  status : Nat := 0
  data   : Word := 0
deriving DecidableEq, Repr, Inhabited

/-- The control-space machinery that no register shows. -/
structure CtlRec where
  /-- Waiting accesses, each path's in issue order. -/
  waiting    : List Access := []
  /-- The path granted last, for the round robin of R90. -/
  lastPath   : Nat := 7
  /-- The last completion of each path (R88). -/
  done       : SMap Done := {}
  /-- Completions given to each path, counted (FM_ACK and the responses of R517 and R519). -/
  acks       : SMap Nat := {}
  /-- The next EVENT sequence number (R93). -/
  eventSeq   : Nat := 0
  /-- Whether the root raised its event when last looked at (R93). -/
  rootRaised : Bool := false
  /-- The Tick count at the last EVENT message (R93). -/
  eventTick  : Nat := 0
  /-- Captured high halves, by path × 4 + counter (R39, R412). -/
  capture    : SMap Nat := {}
  /-- Debug-window accesses waiting for their data-space completion, by path (R85). -/
  debugPend  : SMap Access := {}
deriving DecidableEq, Repr, Inhabited

/-! ## Lanes ("Lanes: Electrical Layer", "Lanes: Blocks", "The Molmevo Link Protocol") -/

/-- A message as it travels: the header fields of its SOM and its data blocks (R145, R148). -/
structure Msg where
  typ   : Nat := 0
  stamp : Nat := 0
  route : Nat := 0
  body  : List Payload := []
deriving DecidableEq, Repr, Inhabited

/-- Who queued an outbound message, and so receives an error completion (R171). -/
inductive Originator where
  /-- A fabric entry is known by the row word of its header in the send queue (R200). -/
  | engine (e : Nat) | fabric (word : Nat) | mgmt | remote (tag : Nat) | eventNotice
deriving DecidableEq, Repr, Inhabited

/-- An outbound message. A response of R156 keeps its request's TAG until its SOM leaves the lane. -/
structure TxMsg where
  msg  : Msg := {}
  orig : Originator := .mgmt
deriving DecidableEq, Repr, Inhabited

/-- What a lane transmitted last: a control block, a data block of a far-end loop, or a message with its SOM and EOM. -/
inductive TxItem where
  | control (p : Payload)
  | data (p : Payload)
  | message (som : Payload) (data : List Payload) (eom : Payload)
deriving DecidableEq, Repr, Inhabited

/-- A message being received: its SOM passed HCHK (R151). -/
structure RxMsg where
  som   : Payload := 0
  data  : List Payload := []
  /-- The crossing, the version in force and the agreed features when the SOM was received (R149, R165). -/
  cross : Nat := 0
  ver   : Nat := 0
  feat  : Nat := 0
deriving DecidableEq, Repr, Inhabited

/-- The message layer's place in the block stream (R151, R152). -/
inductive RxState where
  | outside
  | inside (m : RxMsg)
  | discarding
deriving DecidableEq, Repr, Inhabited

/-- An entry of the elastic buffer: a block, or the error marker of R130. -/
inductive EbItem where
  | block (control : Bool) (p : Payload)
  | marker
deriving DecidableEq, Repr, Inhabited

/-- A message held in an alignment buffer under its 48-bit crossing (R139). -/
structure Held where
  cross : Nat := 0
  msg   : Msg := {}
deriving DecidableEq, Repr, Inhabited

/-- A range of crossings affected by a possible loss (R152); `hi` is `none` until the next good message. -/
structure GapRange where
  lo : Nat := 0
  hi : Option Nat := none
deriving DecidableEq, Repr, Inhabited

/-- A delivered frame still in its row: its crossing and its header word (R197, R152). -/
structure FrameRow where
  cross : Nat := 0
  stat  : Nat := 0
deriving DecidableEq, Repr, Inhabited

/-- The eye monitor of a lane (R121, R122). -/
inductive EyeState where
  | idle | software | peal | pealHeld
deriving DecidableEq, Repr, Inhabited

/-- A lane beyond its registers. -/
structure LaneRec where
  /-- LANE_CFG, ALIGN_CFG, DIRECT_CFG, PORT_COL, PORT_DLV, PORT_RXQ and PORT_TXQ as sampled at the start. -/
  cfg        : Word := 0
  alignCfg   : Word := 0
  directCfg  : Word := 0
  portCol    : Word := 0
  portDlv    : Word := 0
  portRxq    : Word := 0
  portTxq    : Word := 0
  /-- LOS has been asserted since the transition into STARTING (R110). -/
  losWhole   : Bool := false
  /-- Ticks spent in SLIP during this start, and the Tick count at entry into SLIP (R110). -/
  slipTicks  : Nat := 0
  slipSince  : Nat := 0
  /-- Live DFE taps h1 to h12 and data level (R115). -/
  taps       : List Int := [0, 0, 0, 0, 0, 0, 0, 0, 0, 0, 0, 0]
  dlev       : Nat := 40
  /-- The adapter's integrators, DLEV's first and then those of h1 to h12 (R116). -/
  integ      : List Int := [0, 0, 0, 0, 0, 0, 0, 0, 0, 0, 0, 0, 0]
  /-- The Tick count at the last CTLE step in service (R114), and at the start of the software's eye measurement (R121). -/
  ctleTick   : Option Nat := none
  eyeTick    : Nat := 0
  /-- DWELL as written with the START of a software measurement. -/
  eyeDwell   : Nat := 0
  /-- FIR weights in use, PRE and POST (R119). -/
  firPre     : Nat := 0
  firPost    : Nat := 0
  /-- The swing in use, TX_CTRL.AMP (R118). -/
  amp        : Nat := 10
  eye        : EyeState := .idle
  /-- The receiver's descrambler memory, newest bit least significant (R128). -/
  descr      : BitVec 58 := 0
  /-- Block counts: in HUNT, in the window of R130, invalid in it, since a QUAD. -/
  huntCount  : Nat := 0
  winPos     : Nat := 0
  winBad     : Nat := 0
  sinceQuad  : Nat := 0
  eb         : List EbItem := []
  rx         : RxState := .outside
  /-- The newest stamp that counts as evidence since the last block lock (R47, R152). -/
  evidence   : Option Nat := none
  /-- The stamp of the last good HIT, PRIMITIVE or DECISION, or MARK, since the last block lock (R152). -/
  lastStamp  : Option Nat := none
  gaps       : List GapRange := []
  held       : List Held := []
  /-- Frames written into bank 7, by row slot (R197). -/
  frames     : SMap FrameRow := {}
  /-- The port settings failed the check of R201 at the start. -/
  portBad    : Bool := false
deriving DecidableEq, Repr, Inhabited

/-- A management request whose response has not left the lane (R156, R157). -/
structure MgmtReq where
  tag    : Nat := 0
  write  : Bool := false
  count  : Nat := 1
  addr   : Nat := 0
  fixed  : Bool := false
  data   : List Word := []
  /-- The status of a request that is answered without being performed; 0 for one that is performed. -/
  err    : Nat := 0
  /-- Its LEN, which its credit units follow (R167). -/
  len    : Nat := 0
deriving DecidableEq, Repr, Inhabited

/-- A request being performed word by word: the next word, and the words read so far (R156). -/
structure MgmtJob where
  req   : MgmtReq := {}
  index : Nat := 0
  got   : List Word := []
deriving DecidableEq, Repr, Inhabited

/-- An entry taken from a send queue: its header's row word, the position after it, and whether it has ended. -/
structure TxqEntry where
  word  : Nat := 0
  after : Nat := 1
  done  : Bool := false
deriving DecidableEq, Repr, Inhabited

/-- A lane's link layer beyond its registers. -/
structure LinkRec where
  /-- PIN and LINK_FEAT as sampled (R166). -/
  pin        : Nat := 0
  feat       : Nat := 0
  /-- The version held by R165 after RENEGOTIATE, and whether one was ever agreed since block lock. -/
  held       : Nat := 0
  /-- The last ANNOUNCE received, for the pair of R161. -/
  lastAnn    : Option Payload := none
  /-- An ANNOUNCE has been received since the negotiation state's entry (R164). -/
  annSeen    : Bool := false
  /-- Transmit credit: LIMIT and CONSUMED of classes F and M (R168). -/
  limitF     : Nat := 0
  limitM     : Nat := 0
  consF      : Nat := 0
  consM      : Nat := 0
  /-- Receive credit: the limits sent and the units received (R168, R169). -/
  rxLimF     : Nat := 0
  rxLimM     : Nat := 0
  rxGotF     : Nat := 0
  rxGotM     : Nat := 0
  /-- A limit has risen since the last CREDIT sent (R169). -/
  creditDue  : Bool := false
  /-- Waiting messages, in the order queued (R170). -/
  txQueue    : List TxMsg := []
  lastTx     : Option TxItem := none
  /-- The scrambler's memory, newest bit least significant (R128), the 66 bits sent last in the order sent, the first least
  significant (R127), and the blocks sent since the last QUAD (R134). -/
  scr        : BitVec 58 := 0
  line       : BitVec 66 := 0
  txCount    : Nat := 0
  /-- Requests that wait for room for their response (R157). -/
  mgmtWait   : List MgmtReq := []
  mgmtJob    : Option MgmtJob := none
  /-- TAGs of requests whose response has not begun (R156). -/
  mgmtTags   : List Nat := []
  /-- The remote requester's next TAG and the Tick count of its request (R158). -/
  nextTag    : Nat := 0
  remTick    : Nat := 0
  /-- The outstanding remote request is a write (R158). -/
  remWrite   : Bool := false
  /-- Messages in the receive buffer waiting for the receive queue (R200), with their credit units. -/
  rxWait     : List Held := []
  /-- The next word the T7 writes in the receive queue and examines in the send queue, with the passes (R199, R200). -/
  rxqPos     : Nat := 1
  rxqPass    : Bool := true
  /-- The crossing in which the receive control word was read last, and the read position it gave (R200). -/
  rxqRead    : Option (Nat × Nat) := none
  txqPos     : Nat := 1
  txqPass    : Bool := true
  /-- Entries of the send queue examined whose STATUS is due or whose predecessors' is, oldest first. -/
  txqOut     : List TxqEntry := []
deriving DecidableEq, Repr, Inhabited

/-- A lane group beyond its registers. -/
structure GroupRec where
  /-- The frequency on LREF in kHz as the board supplies it; 0 shows no edges (R101). -/
  lrefKHz : Nat := 156250
  /-- The Tick count at the domain's power-good (R104). -/
  pgTick  : Nat := 0
  /-- LG16 starts for the boot lanes: TL00 and TL01 alone start with it (R373). -/
  boot    : Bool := false
deriving DecidableEq, Repr, Inhabited

/-! ## Fabric and plates ("Fabric", "Plates") -/

/-- A tally unit (R182 to R184): its input registers, with the residue of a C that came over the cascade, the product and the C that
goes with it, the result P with its residue, FLAG and RES_ERR. A residue of 7 marks a C that came with RES_ERR. -/
structure TallyRec where
  a    : Nat := 0
  b    : Nat := 0
  d    : Nat := 0
  c    : Nat := 0
  rc   : Option Nat := none
  m    : Int := 0
  rm   : Nat := 0
  mc   : Nat := 0
  rmc  : Nat := 0
  p    : BitVec 56 := 0
  rp   : Nat := 0
  flag : Nat := 0
  err  : Bool := false
deriving DecidableEq, Repr, Inhabited

/-- The stores of the logic dies that no register shows. -/
structure FabricRec where
  /-- INIT bits of a line's flip-flops, keyed by (column × 2 + die) × 1024 + line (R179). -/
  initStore : SMap Nat := {}
  /-- Flip-flops of a line, keyed as the INIT store: bit 2c + f is flip-flop f of cell c (R177, R349). -/
  flops     : SMap Nat := {}
  /-- Columns whose tile clocks run, keyed column × 2 + die (R34, R436). -/
  clkRun    : SMap Nat := {}
  /-- Tally units, keyed (die × 256 + column) × 24 + unit; one not listed holds 0 (R183, R349). -/
  tally     : SMap TallyRec := {}
  /-- Fabric cycles of the present crossing that have ended, by group, and under 16 those of the trunk (R45, R53, R258). -/
  cycle     : SMap Nat := {}
  /-- Engaged fence cells, keyed by `fenceKey`: 1 + the value present at the engaging edge (R194 to R196). -/
  fences    : SMap Nat := {}
  /-- Fabric cycles delivered so far, by which free values of the fabric are drawn. -/
  ticks     : Nat := 0
deriving DecidableEq, Repr, Inhabited

/-- The data command or reload that runs (R206, R227). -/
inductive DataCmd where
  | fillLp (slot groups base : Nat)
  | fillStream (slot : Nat)
  | stage (sslot pslot groups : Nat)
  | reload (column slot sslot : Nat) (galleys : List Nat)
deriving DecidableEq, Repr, Inhabited

/-- A pending switch or cycle start of a group (R216): a list of one slot is a switch. -/
structure PendSwitch where
  cycle  : Bool := false
  target : Nat := 0
  list   : List Nat := []
  k      : Nat := 1
deriving DecidableEq, Repr, Inhabited

/-- A reload that waits (R227): the column and the plate slot, with the galleys it faulted. -/
structure ReloadReq where
  column  : Nat := 0
  slot    : Nat := 0
  galleys : List Nat := []
deriving DecidableEq, Repr, Inhabited

/-- A DRIVE_MAP entry (R204, R356): the shafts of each column the plate drives, by owner field, and the digest
of its stream. -/
structure DriveMap where
  owners : SMap (List Nat) := {}
  digest : Nat := 0
deriving DecidableEq, Repr, Inhabited

/-- The configuration controller and plate storage beyond their registers. -/
structure PlateRec where
  /-- Frame words of stage slots and of plate slots, keyed by `frameKey` (R203). -/
  stageFrames : SMap RowWord := {}
  plateFrames : SMap RowWord := {}
  /-- Bits of a stored frame word that differ from the code word last written, check bits above the data (R203). -/
  stageErr    : SMap (BitVec 266) := {}
  plateErr    : SMap (BitVec 266) := {}
  /-- Ownership bits struck by multi-bit upsets, keyed (column × 4 + slot) × 1,024 + shaft: 1 OWN_L, 2 OWN_U (R192). -/
  ownUpset    : SMap Nat := {}
  dataCmd     : Option DataCmd := none
  /-- Words of the streamed record so far, oldest first (R210). -/
  stream      : List Word := []
  pending     : SMap PendSwitch := {}
  /-- Running cycle lists, by group (R221). -/
  cycling     : SMap PendSwitch := {}
  /-- Groups whose logic uses the slot in force, or the list (R215, R347). -/
  logic       : SMap Nat := {}
  /-- Standing ownership conflicts, keyed column × 4 + slot (R192, R228). -/
  conflict    : SMap Nat := {}
  /-- Columns of a plate slot with an uncorrectable frame word, keyed column × 4 + slot (R226). -/
  uncorr      : SMap Nat := {}
  driveMaps   : SMap DriveMap := {}
  reloads     : List ReloadReq := []
deriving DecidableEq, Repr, Inhabited

/-! ## The memory die ("The Memory Die: Banks, Rows and Row Tally") -/

/-- What a port's last access answered: its status (R239) and, for a read, its words. -/
structure PortResp where
  status : Nat := 0
  words  : List RowWord := []
deriving DecidableEq, Repr, Inhabited

/-- A relief bank in use (R253, R472): the bank it stands for (column × 8 + bank), for good or by Peal. -/
structure Relief where
  bank      : Nat := 0
  permanent : Bool := false
  /-- Peal's phase: 0 copy-out, 1 march, 2 copy-back; the relief is being wound up (R474). -/
  phase     : Nat := 0
  wind      : Bool := false
deriving DecidableEq, Repr, Inhabited

/-- The memory die beyond its registers. -/
structure MemRec where
  /-- Bytes by data-space offset (R95), each word as last written; relief banks lie above 2^30. An unlisted
  byte reads 0, as R251 leaves it. -/
  bytes    : SMap Byte := {}
  /-- Bits of a stored row word that differ from the code word last written: data in [255:0], check bits
  above; keyed by byte offset / 32. -/
  err      : SMap (BitVec 266) := {}
  /-- Words read corrected and not yet written back, with the address they were read at (R240). -/
  corr     : SMap Nat := {}
  /-- Turn bits of the banks, column × 8 + bank; 1 is UPPER (R237). -/
  turn     : SMap Nat := {}
  /-- Columns whose bank 7 is in twin mode (R243). -/
  twin     : SMap Nat := {}
  /-- Rows with corrected errors and their counts, most recent first, at most 4 a bank (R250); the relief bank of group `g` is bank
  2,048 + `g`. -/
  tracked  : SMap (List (Nat × Nat)) := {}
  /-- Rows redirected into spare rows, and bit lines replaced, by bank; the relief bank of group `g` is bank 2,048 + `g`
  (R250, R253). -/
  remapped : SMap (List Nat) := {}
  bitLines : SMap (List Nat) := {}
  /-- Relief banks in use, by column group. -/
  relief   : SMap Relief := {}
  /-- Marches that run: banks and MODE, by column (R252). -/
  march    : SMap (Nat × Nat) := {}
  /-- The scrub pass of a column: the Tick count at its start and the rows read in it (R249). -/
  scrub    : SMap (Nat × Nat) := {}
  /-- Last answers: row ports column × 2 + port, word ports column × 2 + port, base ports by column. -/
  rowOut   : SMap PortResp := {}
  twinOut  : SMap PortResp := {}
  baseOut  : SMap PortResp := {}
deriving DecidableEq, Repr, Inhabited

/-! ## Rings ("Rings, Ring Engines and the Tally Tree") -/

/-- The states of a ring (R260). -/
inductive RingState where
  | closed | opened | dead
deriving DecidableEq, Repr, Inhabited

/-- A ring's descriptor (R260). -/
structure Desc where
  base      : Nat := 0
  logCap    : Nat := 0
  state     : RingState := .closed
  premValid : Bool := false
  wr        : Nat := 0
  age       : Nat := 0
  ckWr      : Nat := 0
  ckCross   : Nat := 0
  premLast  : Nat := 0
deriving DecidableEq, Repr, Inhabited

/-- A slot on its way to a ring (R259, R267). -/
structure RingSlot where
  ring : Nat := 0
  word : RowWord := 0
deriving DecidableEq, Repr, Inhabited

/-- The states of an overflow episode (R268). -/
inductive GapState where
  | closed | opened | writing
deriving DecidableEq, Repr, Inhabited

/-- An overflow record (R268). -/
structure GapRecord where
  rings  : List Nat := []
  count  : Nat := 0
  oldest : Nat := 0
  newest : Nat := 0
deriving DecidableEq, Repr, Inhabited

/-- A queued accept (R275). -/
structure Accept where
  cross  : Nat := 0
  before : Nat := 0
  after  : Nat := 0
  map    : Nat := 0
  prio   : Nat := 0
deriving DecidableEq, Repr, Inhabited

/-- A fragment ready to be sent (R278): its group, its header fields and its slots. -/
structure Frag where
  group     : Nat := 0
  cross     : Nat := 0
  seq       : Nat := 0
  last      : Bool := false
  truncated : Bool := false
  gap       : Bool := false
  late      : Bool := false
  stream    : Nat := 0
  slots     : List RowWord := []
deriving DecidableEq, Repr, Inhabited

/-- A ring engine beyond its registers. -/
structure EngineRec where
  fifo      : List RingSlot := []
  gap       : GapState := .closed
  record    : GapRecord := {}
  /-- The record that the gap writer holds. -/
  writing   : GapRecord := {}
  accepts   : List Accept := []
  /-- Fragments of the accept under extraction, oldest first. -/
  frags     : List Frag := []
  /-- Fragments that wait for room in the readout queue (R279). -/
  rqWait    : List Frag := []
  /-- Rings the flush pass has visited, while one runs (R273). -/
  flushing  : Bool := false
  flushed   : SMap Nat := {}
  /-- While a full rebuild runs, the occupancies of the leaves at its start: what a node not yet rebuilt holds (R283). -/
  frozen    : Option (SMap Nat) := none
  /-- The ring the sweeper visited last (R270). -/
  sweepAt   : Nat := 0
  /-- The crossing number that a jump set, for its flush pass (R273). -/
  flushTo   : Nat := 0
  /-- Node words struck and not yet met by an update, keyed by `nodeKey`: 1 for one bit, 2 for more (R282). -/
  upset     : SMap Nat := {}
  /-- STALE nodes outside a full rebuild: the fabric cycles until each is rebuilt (R282, R283). -/
  stale     : SMap Nat := {}
deriving DecidableEq, Repr, Inhabited

/-- The rings of the device. -/
structure RingRec where
  /-- Descriptors by 18-bit ring id, and the channel map (R265). -/
  desc    : SMap Desc := {}
  chanMap : SMap Word := {}
  engines : SMap EngineRec := {}
  /-- The last error pulse of each push port, code × 2^18 + ring (R264). -/
  pushErr : SMap Nat := {}
deriving DecidableEq, Repr, Inhabited

/-! ## The Strike Port ("The Strike Port") -/

/-- The Strike Port beyond its registers. -/
structure StrikeRec where
  /-- The words captured at the edge that began the present crossing. -/
  capA      : DpSample := {}
  capB      : DpSample := {}
  /-- Safe-hold sources that held at that edge, as STK_STATUS[12:8] (R302). -/
  holdCap   : Nat := 16
  /-- ASSURED was the mode at that edge. -/
  assured   : Bool := false
  /-- Busy sources seen in the present crossing, as STK_STATUS[21:16] (R298). -/
  busySeen  : Nat := 0
  /-- Crossings for which STK_BUSY must still stay asserted (R299). -/
  busyLeft  : Nat := 0
  /-- The outputs have left hot-socket state (R305, R522). -/
  driven    : Bool := false
  /-- Accepts refused since the last edge, for the ACCEPT source of R298. -/
  refused   : Bool := false
  /-- Shell bases of the units that hold sources A and B, and of the decision galleys (R293, R358). -/
  galleyA   : Nat := 0
  galleyB   : Nat := 0
  galleys   : List Nat := []
  /-- Decision groups: groups that hold a column of a decision galley (R54). -/
  groups    : List Nat := []
  /-- Columns of the decision galleys (R56). -/
  columns   : List Nat := []
  /-- STK_ACC has been sampled in the present crossing (R300). -/
  sampled   : Bool := false
  /-- A change of level of DP_KICK at source A is on its way to Kryup (R409, R459). -/
  kicked    : Bool := false
deriving DecidableEq, Repr, Inhabited

/-! ## External memory ("External Memory and Inline Encryption") -/

/-- A line of LPDDR5X as stored (R311, R312): its bytes, which are ciphertext under a key identifier other than 0, and its metadata word.
Its bytes are held as they were written, and of each half the bits of data and ECC that have been upset since (ECC from bit 256 on). -/
structure ExtLine where
  data  : Line := 0
  errLo : BitVec 266 := 0
  errHi : BitVec 266 := 0
  tag   : BitVec 40 := 0
  state : BitVec 4 := 10
deriving DecidableEq, Repr, Inhabited

/-- What a line that no write has reached holds (R327): what the devices held, where the number tells one power-up from another; POISON
in the metadata word alone; or zeros, with a tag under the key given. -/
inductive ExtFill where
  | asFound (k : Nat)
  | poison (k : Nat)
  | zeros (k3 : BitVec 256)
deriving DecidableEq, Repr, Inhabited

/-- The keys of a key slot (R312). -/
structure KeySet where
  k1 : BitVec 256 := 0
  k2 : BitVec 256 := 0
  k3 : BitVec 256 := 0
deriving DecidableEq, Repr, Inhabited

/-- A mover's running chain (R332). -/
structure Chain where
  desc  : Nat := 0
deriving DecidableEq, Repr, Inhabited

/-- A request that a fabric data port has taken and not yet completed (R326); `refused` tells that it ends REFUSED (R331). -/
structure FdpReq where
  write   : Bool := false
  addr    : Nat := 0
  ben     : Nat := 0
  poison  : Bool := false
  data    : Line := 0
  found   : Found := {}
  refused : Bool := false
deriving DecidableEq, Repr, Inhabited

/-- The completion of a fabric data port access (R326), with the count of its FD_ACK pulses. -/
structure FdpResp where
  status : Nat := 0
  data   : Line := 0
  acks   : Nat := 0
deriving DecidableEq, Repr, Inhabited

/-- External memory beyond its registers. -/
structure ExtRec where
  /-- Lines by v / 64 (R309). -/
  lines      : SMap ExtLine := {}
  /-- What unlisted lines hold, by channel 0 to 15. -/
  fill       : SMap ExtFill := {}
  /-- Slots 1 to 15 the key store holds keys for, and those zeroised since the last device reset (R315), as masks. -/
  keyStore   : Nat := 0
  zeroised   : Nat := 0
  /-- The keys of the key store, by slot; those of slot 0 are its K3 alone. -/
  keySets    : SMap KeySet := {}
  /-- Permissions of the keys of the key store, PERM by slot (R316). -/
  keyPerm    : SMap Nat := {}
  /-- The keys in the key slots of the engine (R312, R315). -/
  slots      : SMap KeySet := {}
  /-- Channels whose last retraining failed (R329), by channel 0 to 15. -/
  retrainBad : SMap Nat := {}
  /-- The controllers' devices were placed in self-refresh and keep their contents (R328). -/
  retained   : SMap Nat := {}
  /-- MC_CFG as sampled at the start, by controller. -/
  cfg        : SMap Word := {}
  /-- The refresh rate of a controller's devices as MR4 last gave it, in quarters of the nominal rate. -/
  refresh    : SMap Nat := {}
  chains     : SMap Chain := {}
  fdp        : SMap FdpResp := {}
  /-- The outstanding requests of each fabric data port, the first first (R326). -/
  fdpQueue   : SMap (List FdpReq) := {}
  /-- Keyed accesses are refused since scan was entered (R487). -/
  scanLocked : Bool := false
deriving DecidableEq, Repr, Inhabited

/-! ## Images and the loader ("The Finnak Image Format", "Start-up, Loading and Release") -/

/-- A unit that an image declares (R344). -/
structure Decl where
  base        : Nat := 0
  galleyId    : Nat := 0
  /-- Window base of the enclosing unit; 0 for the forme. -/
  parent      : Nat := 0
  sort        : Bool := false
  withPrev    : Bool := false
  decision    : Bool := false
  thermal     : Bool := false
  initPresent : Bool := false
  fence       : Bool := false
  userKind    : Nat := 0
  occL2       : List Nat := []
  occL4       : List Nat := []
  /-- INDEX of its record. -/
  index       : Nat := 0
deriving DecidableEq, Repr, Inhabited

/-- A UNIT_SETTINGS record (R351). -/
structure Settings where
  index : Nat := 0
  base  : Nat := 0
  major : Nat := 0
  minor : Nat := 0
  pairs : List (Nat × Word) := []
deriving DecidableEq, Repr, Inhabited

/-- A plate that an image carries (R345). -/
structure PlateUse where
  index    : Nat := 0
  plate    : Nat := 0
  stage    : Nat := 0
  resident : Bool := false
  groups   : List Nat := []
deriving DecidableEq, Repr, Inhabited

/-- An image: as far as it has been read, verified or released; and the source code of where it came from (R371). -/
structure Image where
  colophon : Colophon := {}
  source   : Nat := 0
  decls    : List Decl := []
  plates   : List PlateUse := []
  drives   : List Nat := []
  /-- Lines of the INIT store that the image names, each with the unit that encloses its record (R349). -/
  initUsed : List (Nat × Nat) := []
  /-- Columns of each die that INIT_VALUES records directly inside the forme name, with the INDEX of the record: (INDEX, die, column). -/
  formeInit : List (Nat × Nat × Nat) := []
  pins     : Option (List PinEntry) := none
  settings : List Settings := []
  /-- RING_MAP sections and MEMORY_PRELOAD sections, with the INDEX of their records. -/
  rings    : List (Nat × RingSection) := []
  preloads : List (Nat × Preload) := []
  thermal  : Option (List Nat × List Nat) := none
  latency  : Option (Nat × LatencyDecl) := none
deriving DecidableEq, Repr, Inhabited

/-- Why an image is read. -/
inductive LoadMode where
  | idle | boot | stream | reapply
deriving DecidableEq, Repr, Inhabited

/-- The steps of R367 that an event ends; `power` stands for a T7 without VCC_AO, `idle` for the end of the start. -/
inductive BootStep where
  | power | supplies | fio | crystals | locking | bist | loading | idle
deriving DecidableEq, Repr, Inhabited

/-- The loader and the start sequence beyond their registers. -/
structure LoadRec where
  mode       : LoadMode := .idle
  step       : BootStep := .supplies
  boot       : BootRecord := {}
  /-- The next ORDER entry, and the source code of the one under trial (R371, R372). -/
  entry      : Nat := 0
  trying     : Option Nat := none
  /-- The Tick count at the start of the boot lanes, once they have started (R373). -/
  lanesTick  : Option Nat := none
  /-- The Tick count at the last LD_DATA word (R374). -/
  idleTick   : Nat := 0
  /-- A REAPPLY reads SPI0 (R388). -/
  spi        : Bool := false
  /-- PSLOT when the load was opened (R383, R384). -/
  pslot      : Nat := 1
  /-- The words of the stream not yet taken as part of the image (R374), the words of its colophon and those of its records so far. -/
  words      : List Word := []
  head       : List Word := []
  body       : List Word := []
  /-- The image being read, from its colophon on; the galleys open in it, innermost first; the records seen and the first INDEX that
  was wrong. -/
  image      : Option Image := none
  openUnits  : List Nat := []
  index      : Nat := 0
  badIndex   : Option Nat := none
  /-- The signature has verified, or none is needed; END has arrived. -/
  signed     : Bool := false
  ended      : Bool := false
  /-- The verified image that waits for release, and the released one. -/
  verified   : Option Image := none
  released   : Option Image := none
  /-- The target crossing of the main-path release (R377), and the release request that waits. -/
  target     : Option Nat := none
  requested  : Bool := false
  /-- Plate slots that a verified partial image switches groups to at its galley's outputs edge, by the galley's base (R384). -/
  partPlates : SMap (List (Nat × Nat)) := {}
  /-- The main-path release has taken place. -/
  opened     : Bool := false
  /-- Kryup's pin safe-state table: SAFE + 4 × PULL + 16, by pin (R350). -/
  pinSafe    : SMap Nat := {}
deriving DecidableEq, Repr, Inhabited

/-! ## Clocks ("Clock Sources, Switching and Domain Crossings") -/

/-- The run state of an oscillator (R389, R391). -/
inductive OscState where
  | off | starting | running | failed
deriving DecidableEq, Repr, Inhabited

/-- The sources a net can run from (R394). -/
inductive NetSrc where
  | loop | fio | tick | none
deriving DecidableEq, Repr, Inhabited

/-- The states of a clock sequencer (R403). -/
inductive SeqState where
  | run | stopping | switching | waitFio | restart | relock
deriving DecidableEq, Repr, Inhabited

/-- One net's stop, switch and restart sequencer (R401 to R403). -/
structure NetSeq where
  state    : SeqState := .run
  /-- The source being switched to. -/
  target   : NetSrc := .none
  /-- The Tick count at the stop request (R402). -/
  reqTick  : Nat := 0
  /-- The switch under way was forced (R402). -/
  forced   : Bool := false
  /-- An edge spanned by the stop has come before the stop, and the Strike Port has latched its static word (R304, R402). -/
  latched  : Bool := false
deriving DecidableEq, Repr, Inhabited

/-- A change of the roots' reference or ratio under way (R399). -/
structure Relock where
  /-- The new reference: 0 CROSS_CLK, 1 XB (PLL_STATUS.REF). -/
  ref      : Nat := 0
  /-- The new N and XB_MUL, and the root that the trunk moves to. -/
  n        : Nat := 8
  xb       : Nat := 16
  root     : Nat := 0
  /-- The change is made on the only healthy root, which relocks while the trunk is stopped. -/
  single   : Bool := false
  /-- The trunk comes back to a root that keeps its reference and ratio. -/
  kept     : Bool := false
  /-- That root relocks to the former reference and ratio. -/
  back     : Bool := false
  /-- The Tick count at which the change began (the 25-Tick limit). -/
  tick     : Nat := 0
deriving DecidableEq, Repr, Inhabited

/-- Clock generation beyond its registers. -/
structure ClockRec where
  /-- Ticks since the AO reset was released. -/
  tick        : Nat := 0
  fio         : OscState := .off
  fioTick     : Nat := 0
  /-- FIO has failed and starts again (R408). -/
  fioAgain    : Bool := false
  xa          : OscState := .off
  xb          : OscState := .off
  /-- Straps sampled at step 1: XA_FREQ, XA_WAIT, XB_WAIT (R368, R390). -/
  xaFreq      : Nat := 0
  xaWait      : Nat := 0
  xbWait      : Nat := 0
  /-- The Tick count at which the start delays began. -/
  delayTick   : Nat := 0
  /-- The frequency of XB in kHz as the board supplies it. -/
  xbKHz       : Nat := 0
  /-- The fabric frequency in kHz that the roots hold since they locked last. -/
  fabKHz      : Nat := 0
  reg         : NetSeq := {}
  trunk       : NetSeq := {}
  /-- The 64-bit cycle counters of CK_REG and CK_TRUNK (R401, R412). -/
  regCyc      : BitVec 64 := 0
  trunkCyc    : BitVec 64 := 0
  /-- The reference the roots now hold: 0 CROSS_CLK, 1 XB, 3 none. -/
  rootRef     : Nat := 3
  /-- N and XB_MUL in force in the roots, while a later write waits (R44, R399). -/
  ratioN      : Nat := 8
  ratioXb     : Nat := 16
  relock      : Option Relock := none
  /-- A change stored while the forme runs (R399). -/
  changeHeld  : Bool := false
  /-- A ROOT_SWAP waits for the crossing edge (R398). -/
  swapPending : Bool := false
  mpllLock    : Bool := false
  /-- The Tick counts since which the sources of tripped monitors have been in range (R405). -/
  inRange     : SMap Nat := {}
  /-- PLLs that a command took out of service while a net ran from them; empty between commands. -/
  loopsDown   : List Nat := []
deriving DecidableEq, Repr, Inhabited

/-! ## Modes, domains and the Damper ("Operating Modes, Power Domains and the Damper") -/

/-- The supply voltage request that runs on the PMBus (R429): its voltage and why it was made. -/
inductive VoutWhy where
  /-- Step 1 of a transition, step 5 of one, or a VSET write for the mode in force. -/
  | before | after | vset
deriving DecidableEq, Repr, Inhabited

structure VoutReq where
  mv  : Nat := 0
  why : VoutWhy := .vset
deriving DecidableEq, Repr, Inhabited

/-- A Damper episode of a column group (R433, R434). -/
structure Episode where
  /-- The level its sensors report; 0 in the quiet interval. -/
  level : Nat := 0
  /-- The fabric cycle counter when the episode began, and when its quiet interval did. -/
  began : BitVec 64 := 0
  quiet : BitVec 64 := 0
deriving DecidableEq, Repr, Inhabited

/-- Power control beyond its registers. -/
structure PowerRec where
  /-- Tick count at entry into DORMANT (R423). -/
  dormTick  : Nat := 0
  /-- The PMBus request whose voltage has not settled (R429). -/
  voutReq   : Option VoutReq := none
  /-- Tick count at the last READ_IOUT (R429). -/
  ioutTick  : Nat := 0
  /-- VCC_FAB as last requested, in mV; 0 while it stands at the regulator's power-on value. -/
  voutMv    : Nat := 0
  /-- The step of R421 that a transition waits in: 1 voltage, 2 Peal, 3 domains and clocks, 4 the edge; 0 without one. -/
  stage     : Nat := 0
  /-- Requests for a domain that wait for its prerequisites (R424), by domain. -/
  waiting   : List Nat := []
  /-- Tick counts at the requests of ramping domains (R426). -/
  rampTick  : SMap Nat := {}
  /-- Groups that wait for admission (R436). -/
  admission     : List Nat := []
  /-- Damper episodes by group. -/
  episodes  : SMap Episode := {}
  /-- Rails whose power-good is present, as a bit mask in the order of R428 (R367). -/
  railsGood : Nat := 0
  /-- Detected levels of the I/O banks whose VCCIO is good, as BANK_STATUS.VCCIO, by bank (R514). -/
  vccio     : SMap Nat := {}
deriving DecidableEq, Repr, Inhabited

/-! ## Heat ("Heat in the Stack") -/

/-- The background activities of R440. -/
inductive Activity where
  | staging | plateScrub | stageScrub | memScrub | march | peal
deriving DecidableEq, Repr, Inhabited

/-- The thermal governor and the background scheduler beyond their registers. -/
structure HeatRec where
  /-- The readings of the sensors at the last Tick, as TEMP codes: that of most, and those that differ, by sensor key. Before
  the first Tick every sensor reads 0, which is below the range of R438. -/
  common    : Nat := 0
  readings  : SMap Nat := {}
  /-- Governor steps 1, 3 and 4 that a column holds in force, bits 0 to 2, by column. -/
  colStep   : SMap Nat := {}
  /-- P_T of the groups in which step 2 stands, and the Tick of its last change (R443). -/
  pT        : SMap Nat := {}
  pTick     : SMap Nat := {}
  /-- Step 4 stands for the device. -/
  hold      : Bool := false
  /-- Sensors that Peal has marked failed, keyed (layer × 256 + column) × 2 + sensor (R438). -/
  failed    : SMap Nat := {}
  /-- The thermal map of the image: hot columns of each die, keyed die × 256 + column (R355). -/
  hotMap    : SMap Nat := {}
  /-- Holders of the background tokens, by column (R440). -/
  token     : SMap Activity := {}
  /-- The last rotating activity granted, by column, and columns whose next slot stays idle (R439). -/
  lastBg    : SMap Nat := {}
  idleSlot  : SMap Nat := {}
deriving DecidableEq, Repr, Inhabited

/-! ## Kryup ("Kryup Safety Partition") -/

/-- A log entry (R458). -/
structure LogEntry where
  w0 : Word := 0
  w1 : Word := 0
deriving DecidableEq, Repr, Inhabited

/-- What a proposal stored in flash (R456): its pairs, its policy and whether it is unsigned. -/
structure StoredProposal where
  seq      : Nat := 0
  signer   : Nat := 0
  pairs    : List (Nat × Word) := []
  policy   : List Word := []
  unsigned : Bool := false
deriving DecidableEq, Repr, Inhabited

/-- Kryup beyond its registers. -/
structure KryupRec where
  /-- Tick counts at the last arrivals of causes, by code (R450). -/
  lastTick  : SMap Nat := {}
  /-- Causes offered by an access and not yet taken: codes and detail words. -/
  due       : List (Nat × Word) := []
  log       : SMap LogEntry := {}
  /-- Words of the proposal buffer (R456). -/
  prop      : List Word := []
  stored    : Option StoredProposal := none
  /-- Ticks since the last kick (R459). -/
  wdgTicks  : Nat := 0
  /-- A base warm reset is in progress (R461): its 1,024 cycles have run when `warmHeld` is false. -/
  warm      : Bool := false
  warmHeld  : Bool := false
  /-- CROSS_CLK_LOST stands: CROSS_CLK is lost and has not come back (R450). -/
  crossLost : Bool := false
  /-- ALARM_N as driven low by the halted policy of R455. -/
  halted    : Bool := false
deriving DecidableEq, Repr, Inhabited

/-! ## Self-test and repair ("Self-Test, Peal and Repair") -/

/-- A repair log entry (R481). -/
structure RepEntry where
  w0 : Word := 0
  w1 : Word := 0
deriving DecidableEq, Repr, Inhabited

/-- The self-test controller beyond its registers. -/
structure TestRec where
  /-- The repair log, oldest first (R483), and the soft map (R482). -/
  log       : List RepEntry := []
  softMap   : List Word := []
  /-- The repair command that runs (R484): the soft map it leaves. -/
  repRun    : Option (List Word) := none
  /-- A service BIST runs on these groups (R469); bit 16 is B0. -/
  bist      : Option Nat := none
  /-- The privileged unit under test (R480). -/
  priv      : Option Nat := none
  /-- Frame rows replaced by spares, and storages with a failed row, keyed by storage (R476). -/
  frameSpare : SMap (List Nat) := {}
  frameBad   : SMap Nat := {}
  /-- Relief banks that failed their own test, by group (R473). -/
  reliefBad  : SMap Nat := {}
  /-- Droop sensors that Peal excludes, keyed (layer × 256 + column) × 4 + sensor (R479). -/
  droopOut   : SMap Nat := {}
  /-- Failed tally units, keyed (die × 256 + column) × 24 + unit (R477). -/
  tallyBad   : SMap Nat := {}
  /-- Consecutive thermal cross-check differences, by sensor key (R479). -/
  thDiff     : SMap Nat := {}
  /-- SCAN_ENTER has been taken: the functional state is undefined (R487). -/
  scanned    : Bool := false
deriving DecidableEq, Repr, Inhabited

/-! ## Proof loops ("Proof Loops") -/

/-- A unit's running proof loop beyond its registers, by the unit's base. -/
structure ProofRec where
  /-- The next generated item is corrupted (R493). -/
  inject   : Bool := false
  /-- The item under way is the corrupted one. -/
  bad      : Bool := false
  /-- Blocks counted toward the next 1,024. -/
  txBlocks : Nat := 0
  rxBlocks : Nat := 0
  /-- Bits the checker has seeded itself with, and the last 31 bits of its sequence, the newest least significant (R494). -/
  seed     : Nat := 0
  seq      : BitVec 31 := 0
  /-- The number of blocks checked, and those with bit errors among the last 1,024, with their errors. -/
  pos      : Nat := 0
  errs     : List (Nat × Nat) := []
deriving DecidableEq, Repr, Inhabited

/-! ## Pins, serial ports, JTAG, flash and fuses ("Pins, Multiplexing and Serial Ports") -/

/-- A byte of a receive FIFO and its BAD mark (R518). -/
structure RxByte where
  byte : Byte := 0
  bad  : Bool := false
deriving DecidableEq, Repr, Inhabited

/-- A serial port beyond its registers. -/
structure SerialRec where
  tx     : List Byte := []
  rx     : List RxByte := []
  /-- A command runs (SER_CMD). -/
  busy   : Bool := false
deriving DecidableEq, Repr, Inhabited

/-- The JTAG instructions of R519. -/
inductive JtagInstr where
  | extest | idcode | sample | clamp | highz | extestPulse | extestTrain | debug | scan | bypass
deriving DecidableEq, Repr, Inhabited

/-- Pins, flash and fuses beyond their registers. -/
structure PinRec where
  /-- Pad levels as the world, and functions whose output the model does not compute, show them, by pin. -/
  pad      : SMap Nat := {}
  /-- Pins that a pad latch holds as outputs (R508, R512, R513): 1 + the level, by pin. -/
  held     : SMap Nat := {}
  /-- What the logic of a FABRIC pin drove at its last live edge (R507, R508): 0 high impedance, 1 low, 2 high. -/
  fabric   : SMap Nat := {}
  serial   : SMap SerialRec := {}
  jtag     : JtagInstr := .idcode
  /-- What the boundary register drives (R519): 1 low, 2 high, by pin, from 320 on by Strike Port pair. -/
  boundary : SMap Nat := {}
  /-- The running flash command: OP, word address and data. -/
  flashRun : Option (Nat × Nat × Word) := none
  /-- Words of the user areas of embedded flash that differ from 0xFFFF_FFFF, by word address (R520). -/
  flash    : SMap Word := {}
  /-- Fuse words, by index (R520). -/
  fuses    : SMap Word := {}
  /-- Read words of wrapped keys and trim are hidden; the repair words burned so far (R485). -/
  burned   : Nat := 0
deriving DecidableEq, Repr, Inhabited

/-- What differs from device to device: identity and fused choices (R390, R97). -/
structure IdentRec where
  speed     : Nat := 2
  stepMajor : Nat := 1
  stepMinor : Nat := 0
  /-- The security-level fuse is closed, and the PRESENT and REVOKED fuses of the key hashes. -/
  closed    : Bool := false
  /-- Image key slots that hold a key, as a mask, and the keys (R361). -/
  imgKeys   : Nat := 0
  imageKeys : SMap (BitVec 256) := {}
  present   : Nat := 0
  revoked   : Nat := 0
  /-- The verification key hashes, by index; the first byte of each the most significant (R359, R455). -/
  keyHash   : SMap (BitVec 384) := {}
deriving DecidableEq, Repr, Inhabited

/-! ## The whole machine -/

/-- Everything the spec gives the T7, apart from the queue of commands. -/
structure Dev where
  /-- The counter of free values drawn (log entry 2): the model's own, not the spec's. -/
  free   : Nat := 0
  /-- Control-space registers; an unlisted address reads its reset value. -/
  regs   : SMap Word := {}
  units  : UnitsRec := {}
  ctl    : CtlRec := {}
  stack  : StackRec := {}
  keeper : KeeperRec := {}
  clk    : ClockRec := {}
  ident  : IdentRec := {}
  lanes  : SMap LaneRec := {}
  links  : SMap LinkRec := {}
  groups : SMap GroupRec := {}
  fabric : FabricRec := {}
  plates : PlateRec := {}
  mem    : MemRec := {}
  rings  : RingRec := {}
  strike : StrikeRec := {}
  ext    : ExtRec := {}
  load   : LoadRec := {}
  power  : PowerRec := {}
  heat   : HeatRec := {}
  kryup  : KryupRec := {}
  test   : TestRec := {}
  proof  : SMap ProofRec := {}
  pins   : PinRec := {}
deriving DecidableEq, Repr, Inhabited

/-- The machine and the commands that wait, first in first out. -/
structure State where
  pending : List Instr := []
  dev     : Dev := {}
deriving DecidableEq, Repr

/-- The machine right after reset: start-up stands at step 2 of R367, every switched domain is off and every
register holds its reset value. -/
def State.reset : State := {}

/-- Faults. There are none: every command of the T7 has an effect the spec gives, and an event that the spec
says cannot occur in a state leaves the state as it is (log entry 3), which is unsafe as that entry says. -/
inductive Fault where
deriving DecidableEq, Repr

/-- Refusals. -/
inductive Refusal where
  /-- Raised by exec's arm of a command that has no meaning yet (safe: the run stops). -/
  | notModelled (mnemonic : String)
deriving DecidableEq, Repr

end Sys2Proof.Machine
end

