-- ==== Sys2Proof/Machine/Ops.lean ====
section
/-!
DEFINITION. The named operations over the state: sparse maps, registers and their fields, event and counter
bits, unit states, free values.
-/
namespace Sys2Proof.Machine

/-! ## Sparse maps -/

/-- Insertion or replacement in a list whose keys rise. -/
def putItem {α : Type} (k : Nat) (v : α) : List (Nat × α) → List (Nat × α)
  | [] => [(k, v)]
  | (k', v') :: t =>
    if k < k' then (k, v) :: (k', v') :: t
    else if k = k' then (k, v) :: t
    else (k', v') :: putItem k v t

/-- Removal of a key, wherever it stands. -/
def delItem {α : Type} (k : Nat) : List (Nat × α) → List (Nat × α)
  | [] => []
  | (k', v') :: t => if k = k' then delItem k t else (k', v') :: delItem k t

/-- The entry at a key. -/
def lookItem {α : Type} (k : Nat) : List (Nat × α) → Option α
  | [] => none
  | (k', v') :: t => if k = k' then some v' else lookItem k t

/-- Keys strictly rising, all above a bound when one is given. -/
def risingFrom {α : Type} (lo : Option Nat) : List (Nat × α) → Bool
  | [] => true
  | (k, _) :: t => (match lo with | none => true | some b => decide (b < k)) && risingFrom (some k) t

variable {α : Type}

def SMap.look (m : SMap α) (k : Nat) : Option α := lookItem k m.items
def SMap.put (m : SMap α) (k : Nat) (v : α) : SMap α := ⟨putItem k v m.items⟩
def SMap.del (m : SMap α) (k : Nat) : SMap α := ⟨delItem k m.items⟩
/-- The value at a key, `d` where the map lists none. -/
def SMap.at (m : SMap α) (k : Nat) (d : α) : α := (m.look k).getD d
/-- Writing the value an unlisted key reads as removes the entry. -/
def SMap.set [DecidableEq α] (m : SMap α) (k : Nat) (d v : α) : SMap α := if v = d then m.del k else m.put k v
/-- The canonical form: keys strictly rising. -/
def SMap.rising (m : SMap α) : Bool := risingFrom none m.items
/-- The canonical form of a map with defaults: keys rising and no entry equal to its default. -/
def SMap.wf [DecidableEq α] (m : SMap α) (d : Nat → α) : Bool :=
  m.rising && m.items.all fun e => !decide (e.2 = d e.1)

def SMap.has (m : SMap α) (k : Nat) : Bool := (m.look k).isSome
def SMap.num (m : SMap Nat) (k : Nat) : Nat := m.at k 0
def SMap.setNum (m : SMap Nat) (k v : Nat) : SMap Nat := m.set k 0 v
def SMap.bump (m : SMap Nat) (k : Nat) : SMap Nat := m.setNum k (m.num k + 1)
/-- Membership in a map used as a set of numbers. -/
def SMap.mem (m : SMap Nat) (k : Nat) : Bool := m.num k != 0
/-- Keeps the entries of a map whose keys meet a condition. -/
def SMap.keep (m : SMap α) (p : Nat → Bool) : SMap α := ⟨m.items.filter fun e => p e.1⟩
def SMap.keys (m : SMap α) : List Nat := m.items.map (·.1)

/-! ## Fields of a word -/

/-- The bits of a field, in place. -/
def Fld.mask (f : Fld) : Word := BitVec.ofNat 32 ((2 ^ f.width - 1) <<< f.lo)

/-- The value of a field of a word. -/
def fget (w : Word) (f : Fld) : Nat := bitsOf w.toNat f.lo f.width

/-- A word with one field replaced; a value too wide for the field loses its high bits. -/
def fset (w : Word) (f : Fld) (n : Nat) : Word :=
  (w &&& ~~~f.mask) ||| (BitVec.ofNat 32 (n % 2 ^ f.width) <<< f.lo)

/-! ## Registers -/

/-- The register word at an address. -/
def Dev.reg (d : Dev) (a : Nat) : Word := d.regs.at a (resetValue a)

/-- The state with the register word at an address replaced. -/
def Dev.setReg (d : Dev) (a : Nat) (v : Word) : Dev := { d with regs := d.regs.set a (resetValue a) v }

/-- A field of the unit whose window begins at `b`. -/
def Dev.fld (d : Dev) (b : Nat) (f : Fld) : Nat := fget (d.reg (b + f.off)) f

/-- The field of an array element, or of a block at an offset. -/
def Dev.fldAt (d : Dev) (b : Nat) (f : Fld) (k : Nat) : Nat := d.fld b (f.elem k)

/-- A one-bit field as a truth value. -/
def Dev.flag (d : Dev) (b : Nat) (f : Fld) : Bool := d.fld b f != 0

/-- The state with one field replaced. -/
def Dev.setFld (d : Dev) (b : Nat) (f : Fld) (n : Nat) : Dev :=
  d.setReg (b + f.off) (fset (d.reg (b + f.off)) f n)

/-- Sets a one-bit field, such as an event bit (R6: hardware's set of a W1C bit). -/
def Dev.raise (d : Dev) (b : Nat) (f : Fld) : Dev := d.setFld b f 1

/-- Sets a one-bit field when a condition holds. -/
def Dev.raiseIf (d : Dev) (c : Bool) (b : Nat) (f : Fld) : Dev := if c then d.raise b f else d

/-- Counts `k` into a field, which saturates at its greatest value. -/
def Dev.countBy (d : Dev) (b : Nat) (f : Fld) (k : Nat) : Dev :=
  d.setFld b f (satAdd (2 ^ f.width - 1) (d.fld b f) k)

/-- Counts one. -/
def Dev.count (d : Dev) (b : Nat) (f : Fld) : Dev := d.countBy b f 1

/-- Applies an update when a condition holds. -/
def Dev.when (d : Dev) (c : Bool) (f : Dev → Dev) : Dev := if c then f d else d

/-- Returns the registers at addresses that meet a condition to their reset values. -/
def Dev.resetRegs (d : Dev) (p : Nat → Bool) : Dev :=
  { d with regs := ⟨d.regs.items.filter fun e => !p e.1⟩ }

/-! ## Free values (log entry 2) -/

/-- Advances the counter after a free value has been drawn. -/
def Dev.drew (d : Dev) : Dev := { d with free := d.free + 1 }

/-! ## Unit states (R66) -/

def UState.code : UState → Nat
  | .off => 0 | .stopped => 1 | .starting => 2 | .running => 3
  | .draining => 4 | .faulted => 5 | .isolated => 6 | .degraded => 7

def UState.ofCode : Nat → UState
  | 0 => .off | 1 => .stopped | 2 => .starting | 3 => .running
  | 4 => .draining | 5 => .faulted | 6 => .isolated | _ => .degraded

/-- The rank of a state, used when a galley aggregates (R66, R74). -/
def UState.rank : UState → Nat
  | .running => 0 | .degraded => 1 | .stopped => 2 | .off => 3
  | .starting => 4 | .draining => 5 | .isolated => 6 | .faulted => 7

/-- The state of a unit's own sequencer: SELF, which in a sort equals STATE. -/
def Dev.ust (d : Dev) (b : Nat) : UState := .ofCode (d.fld b Reg.STATE.SELF)

/-- RUNNING or DEGRADED: doing work. -/
def Dev.runs (d : Dev) (b : Nat) : Bool :=
  match d.ust b with | .running | .degraded => true | _ => false

/-- STOPPED or OFF. -/
def Dev.atRest (d : Dev) (b : Nat) : Bool :=
  match d.ust b with | .stopped | .off => true | _ => false

/-- Records FAULT bits of a unit (R69): EVENT.FAULT is set. -/
def Dev.faultBits (d : Dev) (b : Nat) (mask : Nat) : Dev :=
  (d.setReg (b + Reg.FAULT.START_FAIL.off) (d.reg (b + Reg.FAULT.START_FAIL.off) ||| BitVec.ofNat 32 mask)).raise
    b Reg.EVENT.FAULT

/-- Records a specific event bit in the unit's EVENT register. -/
def Dev.eventBits (d : Dev) (b : Nat) (mask : Nat) : Dev :=
  d.setReg (b + Reg.EVENT.FAULT.off) (d.reg (b + Reg.EVENT.FAULT.off) ||| BitVec.ofNat 32 mask)

/-- CTRL_REJECT (R67, R71). -/
def Dev.ctrlReject (d : Dev) (b : Nat) : Dev := d.raise b Reg.EVENT.CTRL_REJECT

/-! ## Records by number -/

def Dev.lane (d : Dev) (n : Nat) : LaneRec := d.lanes.at n {}
def Dev.modLane (d : Dev) (n : Nat) (f : LaneRec → LaneRec) : Dev := { d with lanes := d.lanes.set n {} (f (d.lane n)) }
def Dev.link (d : Dev) (n : Nat) : LinkRec := d.links.at n {}
def Dev.modLink (d : Dev) (n : Nat) (f : LinkRec → LinkRec) : Dev := { d with links := d.links.set n {} (f (d.link n)) }
def Dev.group (d : Dev) (g : Nat) : GroupRec := d.groups.at g {}
def Dev.modGroup (d : Dev) (g : Nat) (f : GroupRec → GroupRec) : Dev := { d with groups := d.groups.set g {} (f (d.group g)) }
def Dev.engine (d : Dev) (e : Nat) : EngineRec := d.rings.engines.at e {}
def Dev.modEngine (d : Dev) (e : Nat) (f : EngineRec → EngineRec) : Dev :=
  { d with rings := { d.rings with engines := d.rings.engines.set e {} (f (d.engine e)) } }
def Dev.serialRec (d : Dev) (i : Nat) : SerialRec := d.pins.serial.at i {}
def Dev.modSerial (d : Dev) (i : Nat) (f : SerialRec → SerialRec) : Dev :=
  { d with pins := { d.pins with serial := d.pins.serial.set i {} (f (d.serialRec i)) } }
def Dev.proofRec (d : Dev) (b : Nat) : ProofRec := d.proof.at b {}
def Dev.modProof (d : Dev) (b : Nat) (f : ProofRec → ProofRec) : Dev := { d with proof := d.proof.set b {} (f (d.proofRec b)) }
def Dev.modPower (d : Dev) (f : PowerRec → PowerRec) : Dev := { d with power := f d.power }
def Dev.modKeeper (d : Dev) (f : KeeperRec → KeeperRec) : Dev := { d with keeper := f d.keeper }
def Dev.modClk (d : Dev) (f : ClockRec → ClockRec) : Dev := { d with clk := f d.clk }
def Dev.modPlates (d : Dev) (f : PlateRec → PlateRec) : Dev := { d with plates := f d.plates }
def Dev.modMem (d : Dev) (f : MemRec → MemRec) : Dev := { d with mem := f d.mem }
def Dev.modExt (d : Dev) (f : ExtRec → ExtRec) : Dev := { d with ext := f d.ext }
def Dev.modStrike (d : Dev) (f : StrikeRec → StrikeRec) : Dev := { d with strike := f d.strike }
def Dev.modLoad (d : Dev) (f : LoadRec → LoadRec) : Dev := { d with load := f d.load }
def Dev.modHeat (d : Dev) (f : HeatRec → HeatRec) : Dev := { d with heat := f d.heat }
def Dev.modKryup (d : Dev) (f : KryupRec → KryupRec) : Dev := { d with kryup := f d.kryup }
def Dev.modTest (d : Dev) (f : TestRec → TestRec) : Dev := { d with test := f d.test }
def Dev.modPins (d : Dev) (f : PinRec → PinRec) : Dev := { d with pins := f d.pins }
def Dev.modCtl (d : Dev) (f : CtlRec → CtlRec) : Dev := { d with ctl := f d.ctl }
def Dev.modUnits (d : Dev) (f : UnitsRec → UnitsRec) : Dev := { d with units := f d.units }
def Dev.modStack (d : Dev) (f : StackRec → StackRec) : Dev := { d with stack := f d.stack }
def Dev.modFabric (d : Dev) (f : FabricRec → FabricRec) : Dev := { d with fabric := f d.fabric }
def Dev.modRings (d : Dev) (f : RingRec → RingRec) : Dev := { d with rings := f d.rings }
def Dev.user (d : Dev) (b : Nat) : UserUnit := d.units.user.at b {}
/-- Changes a declared user unit; nothing where the image declares none. -/
def Dev.modUser (d : Dev) (b : Nat) (f : UserUnit → UserUnit) : Dev :=
  match d.units.user.look b with
  | some u => { d with units := { d.units with user := d.units.user.put b (f u) } }
  | none => d

/-- Folds an update over a list. -/
def Dev.each {α : Type} (d : Dev) (l : List α) (f : Dev → α → Dev) : Dev := l.foldl f d

/-- The Tick count (R389). -/
def Dev.tick (d : Dev) : Nat := d.clk.tick
/-- The crossing number (R38). -/
def Dev.now (d : Dev) : Nat := d.keeper.now
/-- The crossings from a release request to its target (R377). -/
def Dev.lead (d : Dev) : Nat := max 2 (d.fld rootBase Reg.LD_CFG.LEAD)

/-! ## Path codes (R86) -/

def pathSpi1 : Nat := 0
def pathMgmt : Nat := 1
def pathJtag : Nat := 6
def pathKryup : Nat := 7

/-! ## Wide values captured by path (R39, R412): their codes in the capture map -/

def capNow : Nat := 0
def capBreach : Nat := 1
def capReg : Nat := 2
def capTrunk : Nat := 3

/-! ## Commands on the whole state -/

/-- What a command answers. -/
abbrev Answer := Host.Outcome State Fault Refusal

end Sys2Proof.Machine
end

