-- ==== Sys2Proof/Machine/Domains.lean ====
section
/-!
DEFINITION. The requests of the domain controller (R424 to R427): a request for a domain with its prerequisites, and
the ramp that begins when they stand. What a change of a domain does to units is in Power.lean.
-/
namespace Sys2Proof.Machine

/-- A state in which a lane receives and transmits. -/
def UState.active : UState → Bool
  | .starting | .running | .draining | .degraded => true
  | _ => false

/-- PDd.STATE codes. -/
def pdOff : Nat := 0
def pdRamping : Nat := 1
def pdOn : Nat := 2
def pdFencing : Nat := 3
def pdFault : Nat := 4

/-- The state of a domain. -/
def Dev.pd (d : Dev) (k : Nat) : Nat := d.fld pdBase (Reg.PD.STATE.elem k)
def Dev.setPd (d : Dev) (k st : Nat) : Dev := d.setFld pdBase (Reg.PD.STATE.elem k) st
def Dev.domainOn (d : Dev) (k : Nat) : Bool := d.pd k == pdOn

/-- A domain that depends on another still has power. -/
def Dev.dependentOn (d : Dev) (k : Nat) : Bool :=
  (domainDependents k).any fun e => d.domainOn e || d.pd e == pdRamping

/-- Starts the ramp of a requested domain whose prerequisites are all on, and otherwise lets it wait; a domain whose
prerequisite is in FAULT is not turned on (R427). -/
def Dev.beginRamp (d : Dev) (k : Nat) : Dev :=
  if (domainPrereqs k).all d.domainOn then
    (d.setPd k pdRamping).modPower fun p =>
      { p with rampTick := p.rampTick.put k (p.rampTick.at k d.tick), waiting := p.waiting.filter (· != k) }
  else d.modPower fun p =>
    { p with rampTick := p.rampTick.put k (p.rampTick.at k d.tick)
             waiting := if p.waiting.contains k then p.waiting else p.waiting ++ [k] }

/-- A request to turn a domain on: its prerequisites first, in the order of R424 (R425). A domain that ramps, is on or
is in FAULT is left. The first argument bounds the depth of the prerequisites. -/
def Dev.requestOn : Nat → Dev → Nat → Dev
  | 0, d, _ => d
  | n + 1, d, k =>
    let d := (domainPrereqs k).foldl (fun d p => Dev.requestOn n d p) d
    if d.pd k == pdOff then (d.setFld pdBase (Reg.PD.ON.elem k) 1).beginRamp k else d

/-- The depth of the prerequisite order (R424). -/
def domainDepth : Nat := 6

/-- A request made by a unit or a wake (R425): HELD is set and the domain is turned on as by a write of ON. -/
def Dev.holdOn (d : Dev) (k : Nat) : Dev := (d.setFld pdBase (Reg.PD.HELD.elem k) 1).requestOn domainDepth k

/-- The domains a user unit belongs to (R550). -/
def UserUnit.domains (u : UserUnit) : List Nat :=
  (List.range 4).filter (fun q => u.occL2.any fun c => quadrantOf c == q) |>.map (32 + ·) |>.append
    ((List.range 4).filter (fun q => u.occL4.any fun c => quadrantOf c == q) |>.map (36 + ·))

/-- Whether every domain of a unit is on; units of the AO domain always have theirs. -/
def Dev.powered (d : Dev) (b : Nat) : Bool :=
  let u := unitOf b
  match u.blk with
  | .shell => (d.user b).domains.all d.domainOn
  | _ => match u.domain with
    | none => true
    | some k => d.domainOn k

/-- The proof depth of a unit that runs a proof loop in place of its function (R489). -/
def Dev.proofDepth (d : Dev) (b : Nat) : Option Nat :=
  if d.flag b Reg.CTRL.PROOF_EN then
    match d.ust b with
    | .starting | .running | .draining | .degraded => some (d.fld b Reg.CTRL.PROOF_DEPTH)
    | _ => none
  else none

/-- A unit that runs a proof loop. -/
def Dev.proving (d : Dev) (b : Nat) : Bool := (d.proofDepth b).isSome

/-! ## The roots and the sources of the nets (R393, R394, R396) -/

/-- The PLL of CK_REG, and the number by which a cause's detail names MPLL, which has no unit (R393). -/
def cpll : Nat := 2
def mpll : Nat := 3

/-- The active root, which KEEP_STATUS.ROOT names, and the other one. -/
def Dev.activeRoot (d : Dev) : Nat := d.fld keeperBase Reg.KEEP_STATUS.ROOT
def Dev.standbyRoot (d : Dev) : Nat := 1 - d.activeRoot

def NetSrc.ofCode : Nat → NetSrc
  | 0 => .loop | 1 => .fio | 2 => .tick | _ => .none

def NetSrc.code : NetSrc → Nat
  | .loop => 0 | .fio => 1 | .tick => 2 | .none => 3

/-- The source a net runs from. -/
def Dev.netSrc (d : Dev) (trunk : Bool) : NetSrc :=
  .ofCode (d.fld clkBase (if trunk then Reg.CLK_STATUS.TRUNK_SRC else Reg.CLK_STATUS.REG_SRC))

/-- A root drives CK_TRUNK, as PLL_STATUS.ACTIVE shows (R396). -/
def Dev.rootDrives (d : Dev) (p : Nat) : Bool := decide (p < 2) && p == d.activeRoot && d.netSrc true == .loop

/-! ## Modes -/

/-- The mode in force (R418). -/
def Dev.mode (d : Dev) : Nat := d.fld powerBase Reg.MODE_STATUS.MODE

def modeDormant : Nat := 0
def modeStart : Nat := 1
def modeIdle : Nat := 2
def modeStrike : Nat := 3
def modeRoll : Nat := 4
def modeSurge : Nat := 5
def modeAssured : Nat := 6
def modeProof : Nat := 7

/-- STRIKE, ROLL, SURGE and ASSURED: the modes in which the forme runs. -/
def Dev.runMode (d : Dev) : Bool := decide (3 ≤ d.mode ∧ d.mode ≤ 6)

/-! ## Clocks -/

/-- The fabric clock in kHz (R44, R57, R394): what the roots hold, the FIO trunk, the Tick trunk, or nothing. -/
def Dev.fabricKHz (d : Dev) : Nat :=
  match d.fld clkBase Reg.CLK_STATUS.TRUNK_SRC with
  | 0 => d.clk.fabKHz
  | 1 => 200000
  | 2 => 25
  | _ => 0

/-- Above 800 MHz a plate switch costs a hold cycle (R219). -/
def Dev.fastFabric (d : Dev) : Bool := decide (800000 < d.fabricKHz)

/-! ## What the Strike Port notes of the crossing (R298) -/

/-- Bits of STK_STATUS.BUSY_SRC. -/
def busyRings : Nat := 0
def busyFabric : Nat := 1
def busyAccept : Nat := 2
def busyForce : Nat := 3
def busyHold : Nat := 4
def busyState : Nat := 5

/-- A busy source is asserted at an instant of the present crossing. -/
def Dev.busySees (d : Dev) (bit : Nat) : Dev := d.modStrike fun s => { s with busySeen := s.busySeen ||| 2 ^ bit }

/-! ## Causes offered to Kryup (R449) -/

def causeSupply : Nat := 0x01
def causeClock : Nat := 0x02
def causeRoot : Nat := 0x03
def causeCrossLost : Nat := 0x04
def causeDomain : Nat := 0x05
def causeDroop : Nat := 0x06
def causeThermalHold : Nat := 0x07
def causeTrip : Nat := 0x08
def causeBreach : Nat := 0x09
def causeIntegrity : Nat := 0x0A
def causeUncorr : Nat := 0x0B
def causeRemote : Nat := 0x0C
def causeWatchdog : Nat := 0x0D
def causeKwWrite : Nat := 0x0E
def causeScan : Nat := 0x0F
def causeProposal : Nat := 0x10

/-- A cause is offered to Kryup, which takes it when the command ends. -/
def Dev.offer (d : Dev) (cause : Nat) (detail : Word) : Dev := d.modKryup fun k => { k with due := k.due ++ [(cause, detail)] }

/-! ## Latency and breaches (R50 to R56) -/

/-- L and R of LATENCY. -/
def Dev.latL (d : Dev) : Nat := d.fld keeperBase Reg.LATENCY.L
def Dev.latR (d : Dev) : Nat := d.fld keeperBase Reg.LATENCY.ALIGN_R

/-- The modes in which a breach is offered to Kryup (R418). -/
def Dev.breachOffered (d : Dev) : Bool := d.mode == modeStrike || d.mode == modeRoll || d.mode == modeAssured

/-- The present crossing is a breach (R55, R56), where the released image has decision groups; a crossing counts once. -/
def Dev.breach (d : Dev) : Dev :=
  if d.strike.groups = [] || d.latL = 0 || d.keeper.breachNow then d
  else
    let d := d.modKeeper fun k => { k with breachNow := true, lastBreach := k.now, breaches := k.now :: k.breaches }
    let d := (d.count keeperBase Reg.BREACH_COUNT.COUNT).raise keeperBase Reg.KEEP_EVENT.LATENCY_BREACH
    if d.breachOffered then d.offer causeBreach (BitVec.ofNat 32 d.now) else d

/-! ## Swallowed pulses (R53, R54, R433 to R435, R443) -/

/-- The level of a group's own episode: that its sensors report, 1 in the quiet interval, 0 without an episode. -/
def Dev.ownLevel (d : Dev) (g : Nat) : Nat := match d.power.episodes.look g with | none => 0 | some e => max 1 e.level

/-- The level in force in a group: in a widened quadrant the highest of its groups (R434). -/
def Dev.dampLevel (d : Dev) (g : Nat) : Nat :=
  let q := groupQuadrant g
  if bitOf (d.fld damperBase Reg.DMP_ACTIVE.WIDE) q then
    ((List.range 16).filter fun h => groupQuadrant h == q).foldl (fun m h => max m (d.ownLevel h)) 0
  else d.ownLevel g

/-- The greatest number of pulses swallowed in a crossing, 2N − 2. -/
def Dev.swallowMax (d : Dev) : Nat := 2 * d.clk.ratioN - 2

/-- P of an episode level (R433). -/
def Dev.dampP (d : Dev) (level : Nat) : Nat :=
  if level = 0 then 0
  else min d.swallowMax (max 1 (d.fld damperBase (if level = 1 then Reg.DMP_CFG.P1 else Reg.DMP_CFG.P2)))

/-- A decision group (R54). -/
def Dev.decisionGroup (d : Dev) (g : Nat) : Bool := d.strike.groups.contains g

/-- Pulses swallowed in a whole crossing: the larger of the Damper's count and the governor's (R435). -/
def Dev.groupP (d : Dev) (g : Nat) : Nat :=
  max (d.dampP (d.dampLevel g)) (if d.decisionGroup g then 0 else min d.swallowMax (d.heat.pT.num g))

/-- A decision group has swallowed more than S − 2h (R54, R55, R435). -/
def Dev.checkBudget (d : Dev) (g : Nat) : Dev :=
  let p := d.keeper.swallowed.num g
  if d.decisionGroup g && p != 0 && decide (d.fld keeperBase Reg.LATENCY.S < p + 2 * d.keeper.holds.num g) then
    (d.raise damperBase Reg.DMP_EVENT.OVER_BUDGET).breach
  else d

/-! ## Thermal sensors (R437, R438) -/

/-- The key of a sensor. -/
def sensorKey (layer c i : Nat) : Nat := (layer * 256 + c) * 2 + i

/-- What a sensor read at the last Tick. -/
def Dev.reading (d : Dev) (key : Nat) : Nat := d.heat.readings.at key d.heat.common

/-- The sensors of a layer of a column have power. -/
def Dev.sensorsOn (d : Dev) (layer c : Nat) : Bool :=
  if layer = 0 then true
  else if layer = 1 then d.domainOn (26 + quadrantOf c)
  else if layer = 3 then d.domainOn (30 + halfOf c)
  else if layer = 2 then d.domainOn (32 + quadrantOf c)
  else d.domainOn (36 + quadrantOf c)

/-- A reading is valid: its domain on, from −40 °C to 150 °C, the sensor not marked failed. -/
def Dev.sensorValid (d : Dev) (layer c i : Nat) : Bool :=
  let k := sensorKey layer c i
  d.sensorsOn layer c && decide (48 ≤ d.reading k ∧ d.reading k ≤ 428) && !d.heat.failed.mem k

/-- The highest valid reading of a layer of a column, 0 when there is none. -/
def Dev.layerTemp (d : Dev) (layer c : Nat) : Nat :=
  max (if d.sensorValid layer c 0 then d.reading (sensorKey layer c 0) else 0)
    (if d.sensorValid layer c 1 then d.reading (sensorKey layer c 1) else 0)

/-! ## The background token (R440) -/

/-- The activity holds the column's token. -/
def Dev.holdsToken (d : Dev) (c : Nat) (a : Activity) : Bool := decide (d.heat.token.look c = some a)

/-- The column's token falls free. -/
def Dev.freeToken (d : Dev) (c : Nat) : Dev := d.modHeat fun h => { h with token := h.token.del c }

end Sys2Proof.Machine
end

