-- ==== Sys2Proof/Machine/Flags.lean ====
section
/-!
DEFINITION. The check computations of the spec: the CRC-8 of control blocks (R146), the CRC-16 and CRC-32C of messages
(R150), the CRC-32C of image data (R345) and residues modulo 7 (R241, R281).
-/
namespace Sys2Proof.Machine

/-- Eight bits of a byte, most significant first, folded into a value. -/
def byteMsb {α : Type} (f : α → Bool → α) (c : α) (b : Byte) : α :=
  (List.range 8).foldl (fun c i => f c (b.getLsbD (7 - i))) c

/-- Eight bits of a byte, least significant first. -/
def byteLsb {α : Type} (f : α → Bool → α) (c : α) (b : Byte) : α :=
  (List.range 8).foldl (fun c i => f c (b.getLsbD i)) c

/-- CRC-8 of ITU-T I.432.1: x^8 + x^2 + x + 1, final XOR 0x55 (R146). -/
def crc8 (bs : List Byte) : BitVec 8 :=
  (bs.foldl (byteMsb fun (c : BitVec 8) b => if c.msb ^^ b then (c <<< 1) ^^^ 0x07#8 else c <<< 1) 0#8) ^^^ 0x55#8

/-- FCS-16 of ISO/IEC 13239 (R150). -/
def crc16 (bs : List Byte) : BitVec 16 :=
  ~~~(bs.foldl (byteLsb fun (c : BitVec 16) b => if c.getLsbD 0 ^^ b then (c >>> 1) ^^^ 0x8408#16 else c >>> 1) 0xFFFF#16)

/-- One byte of CRC-32C (RFC 3720), reflected. -/
def crc32Byte : BitVec 32 → Byte → BitVec 32 :=
  byteLsb fun (c : BitVec 32) b => if c.getLsbD 0 ^^ b then (c >>> 1) ^^^ 0x82F63B78#32 else c >>> 1

/-- CRC-32C of a byte string (R150). -/
def crc32c (bs : List Byte) : BitVec 32 := ~~~(bs.foldl crc32Byte 0xFFFFFFFF#32)

/-- Byte `i` of a number. -/
def byteOf (n i : Nat) : Byte := BitVec.ofNat 8 (n >>> (8 * i))

/-- The first `k` bytes of a number, least significant first (R4). -/
def bytesOf (k n : Nat) : List Byte := (List.range k).map (byteOf n)

/-- The number whose bytes are given, least significant first. -/
def ofBytes : List Byte → Nat
  | [] => 0
  | b :: t => b.toNat + 256 * ofBytes t

/-- The six bytes P[15:8] to P[55:48] of a control block (R146, R150). -/
def checkedBytes (p : Payload) : List Byte := (List.range 6).map fun i => byteOf p.toNat (i + 1)

/-- CHK or HCHK as it should stand in P[63:56]. -/
def chkOf (p : Payload) : Nat := (crc8 (checkedBytes p)).toNat

/-- Whether a checked block passes its check. -/
def chkOk (p : Payload) : Bool := bitsOf p.toNat 56 8 == chkOf p

/-- The bytes that both message CRCs cover (R150). -/
def messageBytes (som : Payload) (data : List Payload) : List Byte :=
  checkedBytes som ++ data.flatMap fun p => bytesOf 8 p.toNat

end Sys2Proof.Machine
end

