-- ==== Sys2Proof/Machine/MemOps.lean ====
section
/-!
DEFINITION. Row words of the memory die: where they lie (R95, R231), how they are read through SEC-DED and written (R240,
R248), and when an access is refused (R254, R255). Word `w` of the die is the row word at byte offset 32 × `w`; the words
of the relief bank of group `g` follow 2^25 (R253).
-/
namespace Sys2Proof.Machine

/-- Statuses of R239. -/
def memOk : Nat := 0
def memCorrected : Nat := 1
def memBusy : Nat := 2
def memCollided : Nat := 3
def memUncorr : Nat := 4
def memResErr : Nat := 5
def memRefused : Nat := 6
def memParity : Nat := 7

/-- The row word of a column, bank, row and place in the row (R95). -/
def wordIndex (column bank row word : Nat) : Nat := ((column * 8 + bank) * 2048 + row) * 8 + word
/-- The bank (column × 8 + bank) that holds a word. -/
def wordBank (w : Nat) : Nat := w / 16384
def wordColumn (w : Nat) : Nat := w / 131072
def wordRow (w : Nat) : Nat := w / 8 % 2048
/-- A word of the relief bank of a group. -/
def reliefWord (g row word : Nat) : Nat := 2 ^ 25 + g * 16384 + row * 8 + word

/-- The quadrant of a bank; the relief bank of group `g` is bank 2,048 + `g`. -/
def bankQuadrant (bank : Nat) : Nat := if bank < 2048 then quadrantOf (bank / 8) else groupQuadrant (bank - 2048)

/-- The relief bank stands in for a bank from the end of Peal's copy-out, or for good (R253, R472). -/
def Dev.relieved (d : Dev) (bank : Nat) : Option Nat :=
  let g := groupOf (bank / 8)
  match d.mem.relief.look g with
  | some r => if r.bank = bank ∧ (r.permanent ∨ r.phase ≠ 0) then some g else none
  | none => none

/-- The word that an access to a word reaches. -/
def Dev.physWord (d : Dev) (w : Nat) : Nat :=
  match d.relieved (wordBank w) with
  | some g => reliefWord g (wordRow w) (w % 8)
  | none => w

/-! ## Stored words -/

/-- The one form of the memory dies' contents: addresses rising, and no byte listed that holds 0, which an unlisted byte reads
as (R251). -/
def Dev.memWf (d : Dev) : Bool := d.mem.bytes.wf fun _ => 0

/-- The data bits last written to a word. -/
def Dev.wordData (d : Dev) (p : Nat) : RowWord :=
  BitVec.ofNat 256 (ofBytes ((List.range 32).map fun i => d.mem.bytes.at (32 * p + i) 0))

/-- Writes a word with fresh check bits. -/
def Dev.putWord (d : Dev) (p : Nat) (v : RowWord) : Dev :=
  d.modMem fun m =>
    { m with
      bytes := (List.range 32).foldl (fun b i => b.set (32 * p + i) 0 (byteOf v.toNat i)) m.bytes
      err := m.err.del p
      corr := m.corr.del p }

/-- Ones among the bits of a number below 2^n. -/
def popCount (n : Nat) (x : Nat) : Nat := ((List.range n).filter fun i => x.testBit i).length

/-- The status of a word that differs from a code word in the bits given (R240). -/
def errStatus (e : BitVec 266) : Nat :=
  match popCount 266 e.toNat with
  | 0 => memOk
  | 1 => memCorrected
  | _ => memUncorr

/-- What SEC-DED finds in a stored word: OK, a single-bit error it corrects, or more (R240). -/
def Dev.wordCheck (d : Dev) (p : Nat) : Nat :=
  errStatus (d.mem.err.at p 0)

/-- The data bits exactly as stored. -/
def Dev.wordStored (d : Dev) (p : Nat) : RowWord := d.wordData p ^^^ (d.mem.err.at p 0).truncate 256

/-- What a read answers: corrected, or as stored when it cannot be corrected (R240). -/
def Dev.wordRead (d : Dev) (p : Nat) : RowWord :=
  if d.wordCheck p = memUncorr then d.wordStored p else d.wordData p

/-! ## What a read records -/

/-- Counts a corrected error of a tracked row (R250): four rows a bank, the least recently counted replaced. -/
def trackRow (l : List (Nat × Nat)) (row : Nat) : List (Nat × Nat) :=
  let n := ((l.find? fun e => e.1 == row).map (·.2)).getD 0
  ((row, n + 1) :: l.filter fun e => e.1 != row).take 4

/-- SOURCE codes of MEM_DED_LOG. -/
def srcLower : Nat := 0
def srcUpper : Nat := 1
def srcBase : Nat := 2
def srcTwinA : Nat := 3
def srcTwinB : Nat := 4
def srcScrub : Nat := 5
def srcTest : Nat := 6

/-- The first uncorrectable word since the log was freed. -/
def Dev.logDed (d : Dev) (w : Nat) (relief : Bool) (src : Nat) : Dev :=
  let b := columnBase 1 (wordColumn w)
  if d.flag b Reg.MEM_DED_LOG.VALID then d
  else
    d.setReg (b + Reg.MEM_DED_LOG.off) (BitVec.ofNat 32
      (src * 2 ^ 19 + bit01 relief * 2 ^ 18 + (wordBank w % 8) * 2 ^ 15 + wordRow w * 16 + (w % 8) * 2 + 1))

/-- A row word is corrected by SEC-DED, whether read or on its way to the bank (R240). -/
def Dev.countSec (d : Dev) (c : Nat) : Dev :=
  (d.count (columnBase 1 c) Reg.MEM_SEC_COUNT.COUNT).raise (columnBase 1 c) Reg.MEM_EVENT.SEC

/-- A read of word `w` at `p` over a port whose vias change the bits given (R29, R240): its status and word. -/
def Dev.readOver (d : Dev) (w p src : Nat) (via : BitVec 266) : Dev × Nat × RowWord :=
  let b := columnBase 1 (wordColumn w)
  let stored := d.mem.err.at p 0
  let e := stored ^^^ via
  let st := errStatus e
  if st = memCorrected then
    let d := d.countSec (wordColumn w)
    let d := if stored = 0 then d
      else d.modMem fun m =>
        { m with tracked := m.tracked.put (p / 16384) (trackRow (m.tracked.at (p / 16384) []) (wordRow w))
                 corr := m.corr.put p w }
    (d, st, d.wordData p)
  else if st = memUncorr then
    (((d.count b Reg.MEM_DED_COUNT.COUNT).raise b Reg.MEM_EVENT.DED).logDed w (decide (p ≠ w)) src, st,
      d.wordData p ^^^ e.truncate 256)
  else (d, st, d.wordData p)

/-- The record of reading word `w`, which lies at `p`, with no via at fault (R240, R250). -/
def Dev.noteRead (d : Dev) (w p src : Nat) : Dev := (d.readOver w p src 0).1

/-! ## Reliefs (R472 to R474). Bank `k` is numbered `k`, the relief bank of group `g` 2,048 + `g`. -/

/-- A bank takes the contents of another, with fresh check bits for every word that SEC-DED corrects. The errors of the words read
count for the bank `home`, logged with source scrub (log entry 127). -/
def Dev.copyBank (d : Dev) (src dst home : Nat) : Dev :=
  (d.each (d.mem.err.keys.filter fun p => p / 16384 == src) fun d p => d.noteRead (home * 16384 + p % 16384) p srcScrub).modMem fun m =>
    let from_ := m.bytes.items.filter fun e => e.1 / 2 ^ 19 == src
    let errs := m.err.items.filter fun e => e.1 / 16384 == src && errStatus e.2 == memUncorr
    { m with
      bytes := from_.foldl (fun b e => b.put (dst * 2 ^ 19 + e.1 % 2 ^ 19) e.2) (m.bytes.keep fun a => a / 2 ^ 19 != dst)
      err := errs.foldl (fun b e => b.put (dst * 16384 + e.1 % 16384) e.2) (m.err.keep fun p => p / 16384 != dst)
      corr := m.corr.keep fun p => p / 16384 != dst }

/-- A destructive march leaves a bank at 0 with correct check bits. -/
def Dev.zeroBank (d : Dev) (bank : Nat) : Dev :=
  d.modMem fun m =>
    { m with bytes := m.bytes.keep fun a => a / 2 ^ 19 != bank
             err := m.err.keep fun p => p / 16384 != bank
             corr := m.corr.keep fun p => p / 16384 != bank }

/-- MEM_STATUS and PEAL_STATUS show whether the relief bank of a group stands in for a bank. -/
def Dev.showRelief (d : Dev) (g bank : Nat) (on : Bool) : Dev :=
  let b := columnBase 1 (bank / 8)
  let d := (d.setFld b Reg.MEM_STATUS.RELIEF_ACTIVE (bit01 on)).setFld b Reg.MEM_STATUS.RELIEF_BANK (if on then bank % 8 else 0)
  d.setFld stctlBase ⟨Reg.PEAL_STATUS.off, g, 1⟩ (bit01 on)

/-- A relief of a group is gone; its bank, if it had left service, returns. -/
def Dev.endRelief (d : Dev) (g : Nat) (r : Relief) : Dev :=
  let d := d.modMem fun m => { m with relief := m.relief.del g }
  let d := d.showRelief g r.bank false
  if d.holdsToken (r.bank / 8) .peal then d.freeToken (r.bank / 8) else d

/-- A relief is wound up (R474): in its copy-out it ends, in its march the copy-back begins. -/
def Dev.windUp (d : Dev) (g : Nat) : Dev :=
  match d.mem.relief.look g with
  | none => d
  | some r =>
    if r.permanent then d
    else if r.phase = 0 then d.endRelief g r
    else d.modMem fun m => { m with relief := m.relief.put g { r with phase := 2, wind := true } }

/-- A relief of Peal is in progress in a group. -/
def Dev.relieving (d : Dev) (g : Nat) : Bool := match d.mem.relief.look g with | some r => !r.permanent | none => false

/-- The work of the self-test controller is given up: reliefs are wound up, tests end (R465, R474). -/
def Dev.stopTests (d : Dev) : Dev :=
  (d.each (List.range 16) Dev.windUp).modTest fun t => { t with bist := none, priv := none }

/-! ## Arbitration at a bank (R236 to R238, R248) -/

/-- The place of a requester in the order of R248. -/
def baseRank : BaseUser → Nat
  | .delivery => 0 | .laneQueue => 1 | .ring => 2 | .master => 3 | .fill => 4 | .test => 5

/-- The place of a requester in the last class of R236. -/
def slowRank : SlowUser → Nat
  | .fill => 0 | .scrub => 1 | .remap => 2 | .march => 3 | .test => 4 | .writeback => 5

/-- What asks for a bank. -/
inductive Asker where
  | lower | upper | base (a : BaseAsk) | slow (u : SlowUser)
deriving DecidableEq, Repr

/-- The place of a base port's user among those of the last class of R236: a configuration fill and the test access window stand there
alone among them, and no wait promotes them (DEDUCED, log entry 127). -/
def baseSlow : BaseUser → Option SlowUser
  | .fill => some .fill
  | .test => some .test
  | _ => none

/-- A base-port request in the second class of R236: lane delivery, or one that has waited BASE_WAIT_MAX row cycles. -/
def Dev.promoted (d : Dev) (c : Nat) (a : BaseAsk) : Bool :=
  let limit := d.fld (columnBase 1 c) Reg.MEM_CTRL.BASE_WAIT_MAX
  decide (a.user = .delivery) || ((baseSlow a.user).isNone && limit != 0 && decide (limit ≤ a.waited))

/-- The request that a base port carries: the first in the order of R248. -/
def basePick : List BaseAsk → Option BaseAsk
  | [] => none
  | a :: l => match basePick l with
    | some b => if baseRank b.user < baseRank a.user then some b else some a
    | none => some a

/-- Both row ports ask for the bank. -/
def bothRows (me : Asker) (x : BankCycle) : Bool := (x.lower || me == .lower) && (x.upper || me == .upper)

/-- RP_HOLD of a bank (R238): the next row cycle is reserved by a lane that delivers into bank 7 of the column. -/
def Dev.rpHold (d : Dev) (c bank : Nat) (x : BankCycle) : Bool :=
  x.hold && bank == 7 && d.lanes.items.any fun e =>
    fget e.2.portCol Reg.PORT_COL.COLUMN == c && fget e.2.portDlv Reg.PORT_DLV.EN == 1 && !e.2.portBad && (d.ust (laneBase e.1)).active

/-- The number of a relief bank among banks. -/
def reliefNumber (g : Nat) : Nat := 2048 + g

/-- The number of a bank of a column; bank 8 is the relief bank of its group. -/
def bankNumber (c bank : Nat) : Nat := if bank = 8 then reliefNumber (groupOf c) else c * 8 + bank

/-- The bank grants an access in a row cycle. In twin mode the base port takes port A's place and the row ports are refused (R243,
R247). -/
def Dev.bankGrants (d : Dev) (c bank : Nat) (me : Asker) (x : BankCycle) : Bool :=
  let mine := match me with | .base a => [{ a with bank := bank }] | _ => []
  let pick := (basePick (mine ++ x.base)).filter fun a => a.bank == bank
  let above := match pick with | some a => d.promoted c a | none => false
  let twin := bank == 7 && d.mem.twin.mem c
  let rows := (x.lower || x.upper) && !d.rpHold c bank x && !twin
  let first (u : SlowUser) : Bool := x.slow.all fun v => decide (slowRank u ≤ slowRank v)
  !x.busy && match me with
    | .lower => twin || !(d.rpHold c bank x || above) && (!x.upper || !d.mem.turn.mem (bankNumber c bank))
    | .upper => twin || !(d.rpHold c bank x || above) && (!x.lower || d.mem.turn.mem (bankNumber c bank))
    | .base a => pick == some { a with bank := bank } &&
        (above || !rows && match baseSlow a.user with | some u => first u | none => true)
    | .slow u => !rows && first u &&
        match pick with
        | none => true
        | some a => match baseSlow a.user with | some v => decide (slowRank u ≤ slowRank v) | none => false

/-- An access asks for a bank in a row cycle: the turn bit after it (R237), and whether it is granted. -/
def Dev.asks (d : Dev) (c bank : Nat) (me : Asker) (x : BankCycle) : Dev × Bool :=
  let k := bankNumber c bank
  let d := if x.calm then d.modMem fun m => { m with turn := m.turn.del k } else d
  let go := d.bankGrants c bank me x
  let turn := bothRows me x && (if go ∧ me = .lower then true else if go ∧ me = .upper then false else d.mem.turn.mem k)
  (d.modMem fun m => { m with turn := m.turn.setNum k (bit01 turn) }, go)

/-! ## Base-port accesses -/

/-- Whether a column is fenced (R34). -/
def Dev.fenced (d : Dev) (c : Nat) : Bool := d.stack.fence.num c != 0

/-- Whether a bank is dead (R254). -/
def Dev.bankDead (d : Dev) (bank : Nat) : Bool := bitOf (d.fld (columnBase 1 (bank / 8)) Reg.MEM_STATUS.DEAD) (bank % 8)

/-- A column's banks refuse every access (R239, R255), or its via loop runs (R498). The accesses exempt from the unit-state part
are the initialisation and the loader's preloads. -/
def Dev.columnBarred (d : Dev) (exempt : Bool) (c : Nat) : Bool :=
  let stateOk := match d.ust (columnBase 1 c) with
    | .running | .degraded => true
    | .stopped | .starting => exempt
    | _ => false
  !stateOk || d.fenced c || d.proving (columnBase 0 c)

/-- An access to a word is refused, its bank being dead or its column's banks closed (R239, R254). -/
def Dev.memBarred (d : Dev) (exempt : Bool) (w : Nat) : Bool := d.columnBarred exempt (wordColumn w) || d.bankDead (wordBank w)

/-- The base port refuses an access, as it also does while a base warm reset holds its fence (R461). -/
def Dev.baseBarred (d : Dev) (exempt : Bool) (w : Nat) : Bool := d.kryup.warm || d.memBarred exempt w

/-- The bank that a relief bank of a group stands in for, or the first of a column. -/
def Dev.reliefHome (d : Dev) (g c : Nat) : Nat := match d.mem.relief.look g with | some r => r.bank | none => c * 8

/-- A word of a bank, or of a relief bank. -/
def bankPlace (k i : Nat) : Nat := k * 16384 + i

/-- The bits that the vias of a bundle change. -/
def viaBits (vias : List (Nat × Nat)) (bundle : Nat) : BitVec 266 :=
  vias.foldl (fun e v => if v.1 = bundle ∧ v.2 < 266 then e ^^^ BitVec.ofNat 266 (2 ^ v.2) else e) 0

/-- The bits of a row that were upset before an access finds it. -/
def Dev.wearAt (d : Dev) (place : Nat → Nat) (upsets : List (Nat × Nat)) : Dev :=
  d.each (upsets.filter fun u => decide (u.1 < 8 ∧ u.2 < 266)) fun d u =>
    let p := place u.1
    d.modMem fun m => { m with err := m.err.set p 0 (m.err.at p 0 ^^^ BitVec.ofNat 266 (2 ^ u.2)) }

/-- The same, in the row that an access to word `w` reaches. -/
def Dev.wearRow (d : Dev) (w : Nat) (upsets : List (Nat × Nat)) : Dev := d.wearAt (fun i => d.physWord (w + i)) upsets

/-- Where an access over a base port goes: its word, the place that holds it, whether it names the relief bank, its requester, the source
that a log names, and whether the unit's state does not bar it (R255). -/
structure BaseTo where
  word   : Nat
  place  : Nat
  relief : Bool := false
  user   : BaseUser
  src    : Nat := srcBase
  exempt : Bool := false

/-- A requester's access to a word of the die. -/
def Dev.toWord (d : Dev) (u : BaseUser) (w : Nat) : BaseTo := { word := w, place := d.physWord w, user := u }

/-- It is refused. -/
def Dev.toBarred (d : Dev) (x : BaseTo) : Bool :=
  if x.relief then d.kryup.warm || d.columnBarred x.exempt (wordColumn x.word) else d.baseBarred x.exempt x.word

/-- A request is presented at its bank in row cycle after row cycle until one grants it (R236): what befalls its transfer. The entries
tell of the row cycles in order, and after them nothing else asks. -/
def Dev.awaitBank (d : Dev) (x : BaseTo) : Nat → List PortFound → Dev × List PortFound × PortFound
  | n, l =>
    let bank := if x.relief then 8 else wordBank x.word % 8
    match l with
    | [] => ((d.asks (wordColumn x.word) bank (.base { user := x.user, waited := n }) {}).1, [], {})
    | f :: t =>
      let (d, go) := d.asks (wordColumn x.word) bank (.base { user := x.user, waited := n }) f.cycle
      if go then (d, t, f) else d.awaitBank x (n + 1) t

/-- The bank is granted to the command's next transfer over a base port. -/
def Dev.nextMeet (d : Dev) (x : BaseTo) : Dev × PortFound :=
  let (d, l, f) := d.awaitBank x 0 d.stack.meets
  (d.modStack fun s => { s with meets := l }, f)

/-- What a transfer over a column's base port has met: its parity failures, and the vias whose bit SEC-DED corrected. -/
def Dev.noteMeet (d : Dev) (c : Nat) (f : PortFound) (corrected : Bool) : Dev :=
  if f.parity = 0 ∧ f.vias = [] then d
  else d.modStack fun s => { s with met := s.met ++ [(c, { parity := f.parity, vias := if corrected then f.vias else [] })] }

/-- The bits of the row that an access finds upset. -/
def Dev.wearTo (d : Dev) (x : BaseTo) (upsets : List (Nat × Nat)) : Dev :=
  if x.relief then d.wearAt (fun i => reliefWord (groupOf (wordColumn x.word)) (wordRow x.word) i) upsets
  else d.wearRow (x.word / 8 * 8) upsets

/-- A base-port read of a row word: its status and word (R248); PARITY where a transfer fails twice (R30). -/
def Dev.readTo (d : Dev) (x : BaseTo) : Dev × Nat × RowWord :=
  if d.toBarred x then (d, memRefused, 0)
  else
    let c := wordColumn x.word
    let (d, f) := d.nextMeet x
    if 2 ≤ f.parity then (d.noteMeet c f false, memParity, 0)
    else
      let (d, st, v) := (d.wearTo x f.upsets).readOver x.word x.place x.src (viaBits f.vias 0)
      (d.noteMeet c f (st == memCorrected), st, v)

def Dev.baseRead (d : Dev) (u : BaseUser) (w : Nat) : Dev × Nat × RowWord := d.readTo (d.toWord u w)

/-- The bytes of a word with those under a mask replaced. -/
def mergeBytes (old new : RowWord) (mask : Nat) : RowWord :=
  BitVec.ofNat 256 (ofBytes ((List.range 32).map fun i => if bitOf mask i then byteOf new.toNat i else byteOf old.toNat i))

/-- All 32 byte enables. -/
def fullMask : Nat := 2 ^ 32 - 1

/-- A bit of a written word that a via changes is corrected at the bank (R240); where more are changed, the word is stored so. -/
def Dev.viaWritten (d : Dev) (x : BaseTo) (st : Nat) (f : PortFound) : Dev :=
  let e := viaBits f.vias 0
  let d := d.noteMeet (wordColumn x.word) f (errStatus e == memCorrected)
  if errStatus e = memCorrected then d.countSec (wordColumn x.word)
  else if errStatus e = memUncorr ∧ st ≠ memUncorr then d.modMem fun m => { m with err := m.err.set x.place 0 e }
  else d

/-- A base-port write of the bytes under a mask, where nothing befalls its transfer: by read-modify-write when it is partial
(R248). -/
def Dev.putTo (d : Dev) (x : BaseTo) (mask : Nat) (v : RowWord) : Dev × Nat :=
  if mask % 2 ^ 32 = fullMask then (d.putWord x.place v, memOk)
  else
    let st := d.wordCheck x.place
    let old := d.wordRead x.place
    let d := d.noteRead x.word x.place x.src
    if st = memUncorr then (d, memUncorr) else (d.putWord x.place (mergeBytes old v mask), st)

/-- A base-port write of the bytes under a mask; with none, it completes without any access to the bank. -/
def Dev.writeTo (d : Dev) (x : BaseTo) (mask : Nat) (v : RowWord) : Dev × Nat :=
  if d.toBarred x then (d, memRefused)
  else if mask % 2 ^ 32 = 0 then (d, memOk)
  else
    let (d, f) := d.nextMeet x
    if 2 ≤ f.parity then (d.noteMeet (wordColumn x.word) f false, memParity)
    else
      let (d, st) := (d.wearTo x f.upsets).putTo x mask v
      (d.viaWritten x st f, st)

def Dev.baseWrite (d : Dev) (u : BaseUser) (w mask : Nat) (v : RowWord) : Dev × Nat := d.writeTo (d.toWord u w) mask v

end Sys2Proof.Machine
end

