-- ==== Sys2Proof/Machine/PinOps.lean ====
section
/-!
DEFINITION. General-purpose pins: functions, settings and hot-socket state (R501 to R514), and what a pad shows.
-/
namespace Sys2Proof.Machine

/-! ## Functions (R503, R504) -/

def funcFabric : Nat := 0
def funcGpio : Nat := 1
def funcStrikeCopy : Nat := 8
def funcCrossSync : Nat := 9
def funcTick : Nat := 10
def funcAlarm : Nat := 11
def funcTest : Nat := 12

/-- A pin offers a function. -/
def pinOffers (p f : Nat) : Bool :=
  decide (p < 320) &&
  match f with
  | 2 => decide (p ≤ 10)
  | 3 => decide (11 ≤ p ∧ p ≤ 15)
  | 4 => decide (p = 16 ∨ p = 17)
  | 5 => decide (p = 18 ∨ p = 19)
  | 6 => decide (20 ≤ p ∧ p ≤ 23)
  | 7 => decide (24 ≤ p ∧ p ≤ 27)
  | _ => decide (f ≤ 12)

/-- The function field of a pin in PIN_MUX. -/
def muxField (p : Nat) : Fld := ⟨Reg.PIN_MUX.off + 4 * (p / 8), 4 * (p % 8), 4⟩

def Dev.pinFunc (d : Dev) (p : Nat) : Nat := d.fld pinsBase (muxField p)

/-- A pin's bank, and a field of its PIN_CFG. -/
def pinBank (p : Nat) : Nat := gpioBase (p / 40)
def Dev.pinCfg (d : Dev) (p : Nat) (f : Fld) : Nat := d.fld (pinBank p) (f.elem (p % 40))
def Dev.setPinCfg (d : Dev) (p : Nat) (f : Fld) (v : Nat) : Dev := d.setFld (pinBank p) (f.elem (p % 40)) v

/-- The bit of a pin in a register pair of its bank whose low half is at an offset. -/
def pinBit (p off : Nat) : Fld := ⟨off + 4 * (p % 40 / 32), p % 40 % 32, 1⟩
def Dev.pinFlag (d : Dev) (p off : Nat) : Bool := d.flag (pinBank p) (pinBit p off)

/-- One function field of a PIN_MUX write: a code the pin does not offer leaves it (R504). -/
def Dev.setMux (d : Dev) (p f : Nat) : Dev :=
  if !pinOffers p f then d.raise pinsBase Reg.PIN_EVENT.MUX_REJECT
  else
    let d := if d.pinFunc p = f then d else d.modPins fun r => { r with held := r.held.del p }
    d.setFld pinsBase (muxField p) f

/-- A write of PIN_MUX`k`. -/
def Dev.muxWrite (d : Dev) (k : Nat) (w : Word) : Dev :=
  d.each (List.range 8) fun d j => d.setMux (8 * k + j) (bitsOf w.toNat (4 * j) 4)

/-! ## Hot-socket state (R505, R506, R514) -/

/-- VCCIO of a bank is above its threshold. -/
def Dev.bankGood (d : Dev) (b : Nat) : Bool := d.power.vccio.mem b

/-- BANK_STATUS follows the supply of a bank. -/
def Dev.showBank (d : Dev) (b : Nat) : Dev :=
  (d.setFld (gpioBase b) Reg.BANK_STATUS.PGOOD (bit01 (d.bankGood b))).setFld (gpioBase b) Reg.BANK_STATUS.VCCIO (d.power.vccio.num b)

def Dev.hotSocket (d : Dev) (p : Nat) : Bool := d.pinCfg p Reg.PIN_CFG.HS != 0 || !d.bankGood (p / 40)

/-- A write of HS: a pin leaves hot-socket state only while its supply is good, and the latch of one that enters it lets go. -/
def Dev.setHs (d : Dev) (p v : Nat) : Dev :=
  let v := if d.bankGood (p / 40) then v else 1
  (if v = 1 then d.modPins fun r => { r with held := r.held.del p } else d).setPinCfg p Reg.PIN_CFG.HS v

/-- A write of a PIN_CFG: a reserved interrupt mode is refused. -/
def Dev.pinCfgWrite (d : Dev) (p : Nat) (w : Word) : Dev :=
  let d := (d.setPinCfg p Reg.PIN_CFG.IDLE (fget w Reg.PIN_CFG.IDLE)).setPinCfg p Reg.PIN_CFG.SLEW (fget w Reg.PIN_CFG.SLEW)
  let d := (d.setPinCfg p Reg.PIN_CFG.DRIVE (fget w Reg.PIN_CFG.DRIVE)).setPinCfg p Reg.PIN_CFG.PULL (fget w Reg.PIN_CFG.PULL)
  let d := d.setHs p (fget w Reg.PIN_CFG.HS)
  if fget w Reg.PIN_CFG.IRQ_MODE ≤ 5 then d.setPinCfg p Reg.PIN_CFG.IRQ_MODE (fget w Reg.PIN_CFG.IRQ_MODE)
  else d.raise pinsBase Reg.PIN_EVENT.MUX_REJECT

/-- Kryup declares the supply of the Strike Port's bank good: with the STRIKE domain on, its outputs leave hot-socket state (R305). -/
def Dev.driveStrike (d : Dev) : Dev :=
  if d.domainOn 7 && d.bankGood Config.strikeBank then d.modStrike fun s => { s with driven := true } else d

/-- The pins of a bank. -/
def bankPins (b : Nat) : List Nat := (List.range 40).map fun i => 40 * b + i

/-- Pins take their places in a start: hot-socket, but for pins 0 to 15 when their bank is good (R506, R513). -/
def Dev.pinsStart (d : Dev) : Dev :=
  let d := d.each (List.range 8) Dev.showBank
  d.each (List.range 320) fun d p => d.setHs p (bit01 (decide (16 ≤ p)))

/-- The pin table is applied at step 9 (R350, R367, R506). -/
def Dev.applyPins (d : Dev) (l : List PinEntry) : Dev :=
  let d := d.each l fun d e =>
    ((d.setMux e.pin e.func).setPinCfg e.pin Reg.PIN_CFG.PULL e.pull).setHs e.pin 0
  d.modLoad fun r =>
    { r with pinSafe := l.foldl (fun m e => m.put e.pin (e.safe + 4 * e.pull + 16)) {} }

/-! ## Pad latches (R508, R512, R513) -/

/-- What GPIO drives on a pin, if it drives it. -/
def Dev.gpioLevel (d : Dev) (p : Nat) : Option Bool :=
  if !d.hotSocket p && d.pinFunc p == funcGpio && d.pinFlag p Reg.GPIO_OE_LO.off then some (d.pinFlag p Reg.GPIO_DATA_LO.off) else none

/-- The latches of pins take what GPIO drives there. -/
def Dev.latchedPins (d : Dev) (l : List Nat) : SMap Nat :=
  l.foldl (fun m p => match d.gpioLevel p with | some v => m.put p (1 + bit01 v) | none => m) d.pins.held

/-- A bank stops running and its latches close, or runs and they open (R512). -/
def Dev.bankHook (d : Dev) (b : Nat) (old new : UState) : Dev :=
  let up (u : UState) : Bool := match u with | .running | .degraded => true | _ => false
  if up old && !up new || (up new && d.proofDepth b == some 1) then
    let held := d.latchedPins (bankPins b)
    d.modPins fun r => { r with held := held }
  else if up new && !up old then d.modPins fun r => { r with held := r.held.keep fun p => p / 40 != b }
  else d

end Sys2Proof.Machine
end

