-- ==== Sys2Proof/Machine/PlateOps.lean ====
section
/-!
DEFINITION. Plate slots and stage slots as the configuration controller shows them, and what becomes of them when a command
is abandoned or a die loses its supply (R211, R215, R229, R230).
-/
namespace Sys2Proof.Machine

/-! ## Where storage lies -/

/-- The key of a frame word of a stage slot. -/
def stageKey (column slot die row word : Nat) : Nat := (((column * 4 + slot) * 2 + die) * 2592 + row) * 8 + word
/-- The key of a frame word of a plate slot. -/
def plateKey (die column slot row word : Nat) : Nat := (((die * 256 + column) * 4 + slot) * 2592 + row) * 8 + word
def stageKeyColumn (k : Nat) : Nat := k / 20736 / 8
def stageKeySlot (k : Nat) : Nat := k / 20736 / 2 % 4
/-- The place of a word of a column (die × 20,736 + row × 8 + word) in a stage slot or a plate slot, and the word at a place. -/
def stagePlace (c slot w : Nat) : Nat := (c * 4 + slot) * 41472 + w
def platePlace (c slot w : Nat) : Nat := plateKey (w / 20736) c slot 0 0 + w % 20736
def plateKeyDie (k : Nat) : Nat := k / 20736 / 1024
def plateKeyColumn (k : Nat) : Nat := k / 20736 / 4 % 256
def plateKeySlot (k : Nat) : Nat := k / 20736 % 4

def stageWordOf (c slot k : Nat) : Option Nat := if k / 41472 = c * 4 + slot then some (k % 41472) else none
def plateWordOf (c slot k : Nat) : Option Nat :=
  if plateKeyColumn k = c ∧ plateKeySlot k = slot then some (plateKeyDie k * 20736 + k % 20736) else none

/-! ## Slots (R205, R211, R215) -/

def slotEmpty : Nat := 0
def slotLoading : Nat := 1
def slotValid : Nat := 2
def slotActive : Nat := 3
def slotFaulted : Nat := 4
def stageEmpty : Nat := 0
def stageFilling : Nat := 1
def stageReady : Nat := 2

/-- The state of plate slot `s` of group `g`, and the number of the plate it holds. -/
def Dev.pslot (d : Dev) (g s : Nat) : Nat := d.fld configBase ⟨Reg.PSLOT_G.off + 4 * g, 4 * s, 3⟩
def Dev.setPslot (d : Dev) (g s st : Nat) : Dev := d.setFld configBase ⟨Reg.PSLOT_G.off + 4 * g, 4 * s, 3⟩ st
def Dev.pslotPlate (d : Dev) (g s : Nat) : Nat := d.fld configBase ⟨Reg.PSLOT_ID_G.off + 4 * g, 8 * s, 8⟩
def Dev.setPslotPlate (d : Dev) (g s p : Nat) : Dev := d.setFld configBase ⟨Reg.PSLOT_ID_G.off + 4 * g, 8 * s, 8⟩ p

/-- The state of stage slot `s`, the plate it holds and the groups valid in it. -/
def Dev.stageSt (d : Dev) (s : Nat) : Nat := d.fld configBase ⟨Reg.STAGE_STATE.off, 2 * s, 2⟩
def Dev.setStage (d : Dev) (s st : Nat) : Dev := d.setFld configBase ⟨Reg.STAGE_STATE.off, 2 * s, 2⟩ st
def Dev.stagePlate (d : Dev) (s : Nat) : Nat := d.fldAt configBase Reg.STAGE_INFO.PLATE s
def Dev.stageValid (d : Dev) (s : Nat) : Nat := d.fldAt configBase Reg.STAGE_INFO.VALID s
def Dev.setStageInfo (d : Dev) (s plate valid : Nat) : Dev :=
  (d.setFld configBase (Reg.STAGE_INFO.PLATE.elem s) plate).setFld configBase (Reg.STAGE_INFO.VALID.elem s) valid

/-- The slots in force in a group (R215): the list of a cycling group, else the slot last switched to. -/
def Dev.forceList (d : Dev) (g : Nat) : List Nat :=
  if !d.plates.logic.mem g then []
  else match d.plates.cycling.look g with
    | some p => p.list
    | none => [d.fldAt configBase Reg.PSLOT_G.IN_FORCE g]

def Dev.inForce (d : Dev) (g s : Nat) : Bool := (d.forceList g).contains s

/-- A loaded slot's state: ACTIVE where the slot is in force (R215). -/
def Dev.slotGood (d : Dev) (g s : Nat) : Dev := d.setPslot g s (if d.inForce g s then slotActive else slotValid)

/-- A load of a slot is abandoned (R215, R229). -/
def Dev.slotAbandon (d : Dev) (g s : Nat) : Dev := d.setPslot g s (if d.inForce g s then slotFaulted else slotEmpty)

/-- A group of a stage slot is no longer valid; the slot becomes EMPTY with its last group (R211). -/
def Dev.stageInvalid (d : Dev) (s g : Nat) : Dev :=
  let v := d.stageValid s
  if bitOf v g then
    let d := d.setFld configBase (Reg.STAGE_INFO.VALID.elem s) (v - 2 ^ g)
    if v = 2 ^ g ∧ d.stageSt s = stageReady then d.setStage s stageEmpty else d
  else d

/-- The groups of a mask, lowest first. -/
def maskGroups (mask : Nat) : List Nat := (List.range 16).filter fun g => bitOf mask g

/-! ## The ends of what runs (R229, R230) -/

/-- The data command that runs, which DATA_BUSY shows (R206). -/
def Dev.setData (d : Dev) (c : Option DataCmd) : Dev :=
  (d.modPlates fun p => { p with dataCmd := c }).setFld configBase Reg.PCMD_STATUS.DATA_BUSY (bit01 c.isSome)

/-- A pending switch or cycle start is removed. -/
def Dev.unpend (d : Dev) (g : Nat) : Dev :=
  (d.modPlates fun p => { p with pending := p.pending.del g }).setFld configBase (Reg.PSLOT_G.PENDING.elem g) 0

def Dev.unpendAll (d : Dev) : Dev := d.each d.plates.pending.keys Dev.unpend

/-- The data command or reload that runs is abandoned, waiting reloads are dropped and pending switches are lost. -/
def Dev.plateAbandon (d : Dev) : Dev :=
  let d := match d.plates.dataCmd with
    | some (.fillLp s _ _) | some (.fillStream s) => (d.setStage s stageEmpty).setStageInfo s (d.stagePlate s) 0
    | some (.stage _ p m) => d.each (maskGroups m) fun d g => if d.pslot g p = slotLoading then d.slotAbandon g p else d
    | some (.reload c s _ _) => d.slotAbandon (groupOf c) s
    | none => d
  ((d.setData none).modPlates fun p => { p with stream := [], reloads := [] }).unpendAll

/-- The configuration points of a group lose their supply: no slot of it holds a plate. -/
def Dev.slotsLost (d : Dev) (g : Nat) : Dev :=
  let d := (d.each (List.range 4) fun d s => d.setPslot g s slotEmpty).setFld configBase (Reg.PSLOT_G.CYCLING.elem g) 0
  let d := d.setFld configBase (Reg.PSLOT_G.IN_FORCE.elem g) 0
  d.modPlates fun p =>
    { p with logic := p.logic.del g, cycling := p.cycling.del g
             conflict := p.conflict.keep fun k => groupOf (k / 4) != g
             uncorr := p.uncorr.keep fun k => groupOf (k / 4) != g
             ownUpset := p.ownUpset.keep fun k => groupOf (k / 4096) != g }

/-- Registers that show plate storage, which a reset of the controller and the loss of its domain leave (R230). -/
def plateShown (off : Nat) : Bool := decide (Reg.STAGE_STATE.off ≤ off ∧ off < 0x1C0)

end Sys2Proof.Machine
end

