-- ==== Sys2Proof/Machine/Tally.lean ====
section
/-!
DEFINITION. Tally units: their operands, what each mode computes, and the residues that check it (R182 to R185).
-/
namespace Sys2Proof

open Machine

/-- The residue of a value: its mathematical value mod 7, from 0 to 6 (R184). -/
def Machine.residue (v : Int) : Nat := (v % 7).toNat

/-- A residue field that reads 0b111: a C over the cascade from a unit that asserted RES_ERR (R184, R185). -/
def Machine.residueBad : Nat := 7

/-- The inputs of a tally unit in a fabric cycle, as bits, and for C its residue where it comes over the cascade. -/
structure Machine.TallyInput where
  a       : Nat := 0
  b       : Nat := 0
  d       : Nat := 0
  c       : Nat := 0
  south   : Option Nat := none

/-! ## Operands as the mode reads them (R182, R184) -/

/-- A with the pre-adder's width: 24 bits, or 23 where it is used, whose bit 23 is ignored. The spec gives neither A nor B of a MAC a
sign of its own; the accumulator is signed, and so are they (DEDUCED, log entry 114). -/
def TallySetup.valA (u : TallySetup) (a : Nat) : Int := if u.pre = .off then signedOf a 24 else signedOf a 23
def TallySetup.valD (_ : TallySetup) (d : Nat) : Int := signedOf d 23
def TallySetup.valB (_ : TallySetup) (b : Nat) : Int := signedOf b 18
def TallySetup.valC (u : TallySetup) (c : Nat) : Int :=
  if u.mode = .compare then (if u.signed then signedOf c 48 else ((c % 2 ^ 48 : Nat) : Int)) else signedOf c 56
/-- X = D above A, as COMPARE reads it. -/
def TallySetup.valX (u : TallySetup) (a d : Nat) : Int :=
  let x := a % 2 ^ 24 + d % 2 ^ 24 * 2 ^ 24
  if u.signed then signedOf x 48 else (x : Int)
/-- The residue of C: that which came over the cascade, or formed at the input register (R184). -/
def TallySetup.resC (u : TallySetup) (t : TallyRec) : Nat := t.rc.getD (residue (u.valC t.c))
/-- Ones among the bits of D and A. -/
def Machine.tallyOnes (a d : Nat) : Nat := ((List.range 24).filter fun i => a.testBit i).length + ((List.range 24).filter fun i => d.testBit i).length

/-- ±(A or A ± D) of two numbers: of the operands, or of their residues. -/
def TallySetup.preAdd (u : TallySetup) (a d : Int) : Int :=
  match u.pre with
  | .off => a
  | .plus => a + d
  | .minus => a - d
def TallySetup.sign (u : TallySetup) (v : Int) : Int := if u.negate then -v else v

/-! ## Results -/

/-- A sum that the accumulator takes: P, the residue that its operands predict, and whether it wrapped or was saturated. A wrap
corrects the residue by 4, since 2^56 mod 7 = 4; a saturated value gives its own. -/
def TallySetup.accumulate (u : TallySetup) (v : Int) (r : Nat) : BitVec 56 × Nat × Bool :=
  let lo : Int := -(2 ^ 55)
  let hi : Int := 2 ^ 55 - 1
  if lo ≤ v ∧ v ≤ hi then (BitVec.ofInt 56 v, r % 7, false)
  else if u.saturate then
    let s := if v < lo then lo else hi
    (BitVec.ofInt 56 s, residue s, true)
  else
    let p := BitVec.ofInt 56 v
    (p, residue (r - 4 * ((v - p.toInt) / 2 ^ 56)), true)

/-- What a unit's last stage makes of its registers: P, the predicted residue, FLAG, and whether a residue carried in reads 0b111: that of the term the mode
takes, since a C that is not taken carries none in (DESIGN CHOICE, log entry 126). -/
def TallySetup.result (u : TallySetup) (t : TallyRec) : BitVec 56 × Nat × Nat × Bool :=
  match u.mode with
  | .mac =>
    let (z, rz) : Int × Nat := match u.z with | .zero => (0, 0) | .held => (t.p.toInt, t.rp) | .c => (signedOf t.mc 56, t.rmc)
    let (p, r, wrap) := u.accumulate (t.m + z) (t.rm + rz)
    (p, r, bit01 wrap, rz == residueBad)
  | .popcount =>
    let n := tallyOnes t.a t.d
    let (z, rz) : Int × Nat := match u.z with | .zero => (0, 0) | .held => (t.p.toInt, t.rp) | .c => (u.valC t.c, u.resC t)
    let (p, r, _) := u.accumulate (n + z) (n % 7 + rz)
    (p, r, bit01 (decide (u.thr.val ≤ n)), rz == residueBad)
  | .compare =>
    let x := u.valX t.a t.d
    let c := u.valC t.c
    (BitVec.ofInt 56 (x - c), residue ((residue x : Int) - (u.resC t : Int)),
      bit01 (decide (c < x)) + bit01 (decide (x = c)) * 2 + bit01 (decide (x < c)) * 4, u.resC t == residueBad)

/-- A fabric cycle of a unit in use (R182 to R184): its registers take the inputs, a MAC's product follows one cycle later with the
residue that its operands' residues give, and P another. The latencies are 3 for MAC and 2 otherwise. `slip` is what a fault of the unit changes in P. The
residue that P keeps is the predicted one, which a later cycle that holds P carries in (DESIGN CHOICE, log entry 114). -/
def TallySetup.cycle (u : TallySetup) (t : TallyRec) (i : TallyInput) (slip : BitVec 56) : TallyRec :=
  let (p, r, flag, bad) := u.result t
  let p := p ^^^ slip
  let t' : TallyRec :=
    { t with a := i.a, b := i.b, d := i.d, c := i.c, rc := i.south
             p := p, rp := r, flag := flag, err := bad || residue p.toInt != r }
  if u.mode = .mac then
    { t' with m := u.sign (u.preAdd (u.valA t.a) (u.valD t.d)) * u.valB t.b
              rm := residue (u.sign (u.preAdd (residue (u.valA t.a)) (residue (u.valD t.d))) * residue (u.valB t.b))
              mc := t.c, rmc := u.resC t }
  else t'

/-- The residue that a unit hands north with P: 0b111 with RES_ERR (R185). -/
def Machine.TallyRec.northResidue (t : TallyRec) : Nat := if t.err then residueBad else t.rp

/-- The code of a mode in TALLY_RES_LOG. -/
def Machine.tallyModeCode : TallyMode → Nat
  | .mac => 0
  | .popcount => 1
  | .compare => 2

end Sys2Proof
end

