-- ==== Sys2Proof/Machine/Fabric.lean ====
section
/-!
DEFINITION. The tiles' logic under the plate in force: configuration points and shaft ownership (R189 to R193, R203, R218, R221), the
owners of a tile's resources, cells, carry and routing (R177, R180, R181, R186 to R188), fence cells (R194 to R196) and the INIT
values (R179). Tiles are numbered column × 2 + die, 0 being L2.
-/
namespace Sys2Proof.Machine

/-! ## Configuration points (R189, R192, R203) -/

/-- A frame word as its configuration points act: SEC-DED corrects one struck bit before it can act (R192). -/
def Dev.frameActs (d : Dev) (k : Nat) : RowWord :=
  let e := d.plates.plateErr.at k 0
  let w := d.plates.plateFrames.at k 0
  if errStatus e = memUncorr then w ^^^ e.truncate 256 else w

/-- The plate bits of a tile in a slot. -/
def Dev.tileBits (d : Dev) (t slot : Nat) : PlateBits := fun i =>
  (d.frameActs (plateKey (t % 2) (t / 2) slot 0 0 + i / 256)).getLsbD (i % 256)

/-- No frame word of a tile, in any of its slots, has a bit set. The wires of such a tile show free values, and its flip-flops and
tally units stand (DESIGN CHOICE, log entry 113). -/
def Dev.tileBlank (d : Dev) (t : Nat) : Bool :=
  let here (k : Nat) : Bool := plateKeyDie k == t % 2 && plateKeyColumn k == t / 2
  !(d.plates.plateFrames.keys.any here || d.plates.plateErr.keys.any here)

/-- The key of a shaft in a slot of a column. -/
def ownKey (c slot s : Nat) : Nat := (c * 4 + slot) * 1024 + s

/-- The ownership field of a shaft in a plate slot: OWN_U above OWN_L (R189). -/
def Dev.owner (d : Dev) (c slot s : Nat) : Nat :=
  let bit (die : Nat) : Nat := bit01 (d.tileBits (c * 2 + die) slot (Config.ownPlace s))
  (bit 1 * 2 + bit 0) ^^^ d.plates.ownUpset.num (ownKey c slot s)

/-- No bit of a slot is set in a column: no shaft has an owner there. -/
def Dev.slotBlank (d : Dev) (c slot : Nat) : Bool :=
  let here (k : Nat) : Bool := plateKeyColumn k == c && plateKeySlot k == slot
  !(d.plates.plateFrames.keys.any here || d.plates.plateErr.keys.any here || d.plates.ownUpset.keys.any fun k => k / 1024 == c * 4 + slot)

/-- The shafts of a slot whose ownership meets a condition, lowest first; `blank` tells whether 0b00 meets it everywhere. -/
def Dev.ownersBy (d : Dev) (c slot : Nat) (p : Nat → Nat → Bool) : List Nat :=
  (List.range 1024).filter fun s => p s (if d.slotBlank c slot then 0 else d.owner c slot s)

/-- The fabric cycles that the present crossing delivers in a group (R45, R53). -/
def Dev.delivered (d : Dev) (g : Nat) : Nat := d.clk.ratioN - (d.keeper.swallowed.num g + 1) / 2

/-- The slot in force in a group in its present fabric cycle (R215, R221, R222): LIST[(i div k) mod LEN] in a cycling group. -/
def Dev.slotNow (d : Dev) (g : Nat) : Option Nat :=
  if !d.plates.logic.mem g then none
  else match d.plates.cycling.look g with
    | some p => p.list[(min (d.fabric.cycle.num g) (d.delivered g - 1) / max 1 p.k) % p.list.length]?
    | none => some (d.fldAt configBase Reg.PSLOT_G.IN_FORCE g)

/-- The plate bits in force in a tile. -/
def Dev.bitsNow (d : Dev) (t : Nat) : PlateBits :=
  match d.slotNow (groupOf (t / 2)) with
  | some s => d.tileBits t s
  | none => fun _ => false

/-! ## Owners of a tile's resources (R179, R195, R344) -/

/-- A state in which a unit's fence cells are engaged whatever its release. -/
def UState.fences : UState → Bool
  | .faulted | .isolated | .off => true
  | _ => false

/-- A release state in which a unit's fence cells are released unless its state engages them. -/
def RelState.past : RelState → Bool
  | .outputs | .writes | .released => true
  | _ => false

/-- A unit's fences are engaged (R195). -/
def Dev.unitFenced (d : Dev) (b : Nat) : Bool := !(d.user b).rel.past || (d.ust b).fences

/-- The units that the image being loaded declares and the tree does not yet hold: their records have not all verified. -/
def Dev.loadingUnits (d : Dev) : List Decl :=
  match d.load.image with
  | some img => img.decls.filter fun u => !d.units.user.has u.base
  | none => []

/-- The user units with logic in a tile: those of the tree, and those of an image being loaded. -/
def Dev.tileUnits (d : Dev) (t : Nat) : List Nat :=
  let tree := d.units.user.items.filter fun e => e.1 != formeBase && (if t % 2 = 0 then e.2.occL2 else e.2.occL4).contains (t / 2)
  let fresh := d.loadingUnits.filter fun u => (if t % 2 = 0 then u.occL2 else u.occL4).contains (t / 2)
  tree.map (·.1) ++ fresh.map (·.base)

/-- A unit of a list: the one there is, or the one at a place that the plate decides. -/
def pickUnit (l : List Nat) (i : Nat) : Option Nat :=
  match l with
  | [] => none
  | [b] => some b
  | _ => l[i % l.length]?

/-- The hard ports whose requests take effect from the write-enable stage of the unit that drives them (R379), numbered within a tile. -/
def portRow : Nat := 0
def portTwin : Nat := 1
def portPush : Nat := 2
def portMaster : Nat := 4
def portData : Nat := 5
def portDecision : Nat := 6

/-- The requests of a hard port in some tiles are live: the unit that drives them is past its write-enable stage (R379, R381). Which unit
drives them the plate decides; where no user unit has logic there, nothing forces them off (DESIGN CHOICE, log entry 131). -/
def Dev.portLive (d : Dev) (tiles : List Nat) (port : Nat) : Bool :=
  match pickUnit (tiles.flatMap d.tileUnits).eraseDups (Config.portOwner (d.bitsNow (tiles.headD 0)) port) with
  | some b => match (d.user b).rel with | .writes | .released => true | _ => false
  | none => true

/-- The tiles of a column group in both logic dies. -/
def portTiles (g : Nat) : List Nat := (groupColumns g).flatMap fun c => [c * 2, c * 2 + 1]

/-- The column group at which the fabric master port and the fabric data port of a quadrant are attached (R87, R326). -/
def quadrantGroup (q : Nat) : Nat := [0, 3, 12, 15].getD q 0

/-- The galley of a fence cell: that which drives its signal, for a shaft's in the other die (R194). -/
def Dev.fenceUnit (d : Dev) (t : Nat) (f : FenceCell) : Option Nat :=
  let home := match f with | .shaft _ => t / 2 * 2 + (1 - t % 2) | _ => t
  pickUnit (d.tileUnits home) (Config.fenceOwner (d.bitsNow t) f)

/-- The key of a line in the INIT store. -/
def lineKey (t line : Nat) : Nat := t * 1024 + line

/-- The unit of a line: that whose INIT_VALUES record names it, or the one that the plate gives it. -/
def Dev.lineUnit (d : Dev) (t line : Nat) : Option Nat :=
  let named : List (Nat × Nat) := match d.load.released.orElse fun _ => d.load.verified with
    | some img => img.initUsed.filter fun e => e.2 == lineKey t line
    | none => []
  match named with
  | e :: _ => some e.1
  | [] => pickUnit (d.tileUnits t) (Config.lineOwner (d.bitsNow t) line)

/-- The key of a tally unit (R477). -/
def tallyKey (die c unit : Nat) : Nat := (die * 256 + c) * 24 + unit
def Dev.tallyAt (d : Dev) (t u : Nat) : TallyRec := d.fabric.tally.at (tallyKey (t % 2) (t / 2) u) {}
def Dev.tallyUnit (d : Dev) (t u : Nat) : Option Nat := pickUnit (d.tileUnits t) (Config.tallyOwner (d.bitsNow t) u)

/-- The reset hold of a unit's logic: until the reset stage of its release (R179, R379, R381). -/
def Dev.unitHeld (d : Dev) (b : Option Nat) : Bool :=
  match b with
  | some b => (d.user b).rel != .released
  | none => false

/-! ## INIT values (R179, R349) -/

/-- The flip-flops of a unit take their INIT values. -/
def Dev.loadInit (d : Dev) (b : Nat) : Dev :=
  let lines := (d.fabric.flops.keys ++ d.fabric.initStore.keys).filter fun k => d.lineUnit (k / 1024) (k % 1024) == some b
  d.modFabric fun f => { f with flops := lines.foldl (fun m k => m.setNum k (f.initStore.num k)) f.flops }

/-- The held values of a unit's tally units start at 0 at its release. -/
def Dev.zeroTallies (d : Dev) (b : Nat) : Dev :=
  d.modFabric fun f =>
    { f with tally := f.tally.keep fun k => d.tallyUnit (k / 24 % 256 * 2 + k / 24 / 256) (k % 24) != some b }

/-! ## Wires (R186 to R190, R193) -/

/-- Columns that a lateral wire spans, by its number at its edge: 256 wires span one, 96 span 4 and 32 span 12. Edges are numbered
0 north, 1 east, 2 south, 3 west, with 384 wires each (DESIGN CHOICE, log entry 113). -/
def lateralSpan (n : Nat) : Nat := if n < 256 then 1 else if n < 352 then 4 else 12

/-- Where an arriving lateral wire comes from: the tile and its outgoing wire; none past the edge of the die (R186). -/
def arrivesFrom (t k : Nat) : Option (Nat × Nat) :=
  let n := k % 384
  let sp := lateralSpan n
  let x := columnX (t / 2)
  let y := columnY (t / 2)
  let tile (x y : Nat) : Nat := (y * 16 + x) * 2 + t % 2
  match k / 384 with
  | 0 => if y + sp < 16 then some (tile x (y + sp), 2 * 384 + n) else none
  | 1 => if x + sp < 16 then some (tile (x + sp) y, 3 * 384 + n) else none
  | 2 => if sp ≤ y then some (tile x (y - sp), n) else none
  | _ => if sp ≤ x then some (tile (x - sp) y, 384 + n) else none

/-- The line pitches of a span. -/
def spanPitches : SegSpan → Nat
  | .one => 1 | .four => 4 | .twelve => 12

/-- A segment passes a line: one that lies in its direction within its span. The lines of a tile stand in 54 rows of 16 (R177). -/
def segmentPasses (s : Segment) (line : Nat) : Bool :=
  let x := s.line.val % 16
  let y := s.line.val / 16
  let x' := line % 16
  let y' := line / 16
  let n := spanPitches s.span
  match s.dir.val with
  | 0 => decide (x' = x ∧ y ≤ y' ∧ y' ≤ y + n)
  | 1 => decide (y' = y ∧ x ≤ x' ∧ x' ≤ x + n)
  | 2 => decide (x' = x ∧ y' ≤ y ∧ y ≤ y' + n)
  | _ => decide (y' = y ∧ x' ≤ x ∧ x ≤ x' + n)

/-- The line at which a multiplexer stands, where the spec places it at one. -/
def sinkLine : Sink → Option Nat
  | .routed line _ => some line
  | .inner k => some (k.val / 8)
  | .segment s => some s.line.val
  | _ => none

/-- A multiplexer has an input: of the segments, only those that pass its line. -/
def sinkSelects (s : Sink) : Source → Bool
  | .segment g => match sinkLine s with | some l => segmentPasses g l | none => true
  | _ => true

/-- The segment that an outgoing lateral wire continues, in the direction of its edge (R186). -/
def lateralSegment (k : Fin 1536) : Segment := { Config.lateralSegment k with dir := Fin.ofNat 4 (k.val / 384) }

/-- A tile holds logic of user units none of which is past LOADING and HELD: its clock is gated (R381). -/
def Dev.tileHeld (d : Dev) (t : Nat) : Bool :=
  let units := d.tileUnits t
  !units.isEmpty && units.all fun b => !(d.user b).rel.past

/-- A column's tile clock runs: it is not gated, and the column is not fenced (R34, R381). -/
def Dev.colClock (d : Dev) (c die : Nat) : Bool := d.fabric.clkRun.mem (c * 2 + die) && !d.fenced c && !d.tileHeld (c * 2 + die)

/-- What a hard port's signal into a tile shows: USER0 to USER2, IO_I of a FABRIC pin, IDLE of any other (R80, R507, R509), or a free
value (log entry 113). -/
def Dev.hardSignal (d : Dev) (t : Nat) : HardIn → Bool
  | .user s r i => (d.reg (shellBase (t % 2) (t / 2) (bit01 s) + 0x2C + 4 * r.val)).getLsbD i
  | .pad p =>
    if d.pinFunc p ≠ funcFabric then d.pinCfg p Reg.PIN_CFG.IDLE != 0
    else if d.hotSocket p then d.pins.pad.mem p
    else match d.pins.fabric.num p with
      | 1 => false
      | 2 => true
      | _ => d.pins.pad.mem p
  | .other k => Config.hardSignal d.fabric.ticks t k

/-- The value on a shaft (R189, R192, R193): the owner's, the L2 driver's on a conflict, and 0 without an owner, on a dead shaft and
in a fenced column. -/
def Dev.shaftValue (d : Dev) (r : Node → Bool) (c : Nat) (s : Fin 1024) : Bool :=
  if (d.stack.deadShafts.at c []).contains s.val || d.fenced c then false
  else match d.slotNow (groupOf c) with
    | none => false
    | some slot =>
      match (if d.slotBlank c slot then 0 else d.owner c slot s) with
      | 0 => false
      | 2 => r (.sink (c * 2 + 1) (.shaft s))
      | _ => r (.sink (c * 2) (.shaft s))

/-! ## Cells (R177, R180, R181) -/

def Dev.cellSetup (d : Dev) (t cell : Nat) : CellSetup := Config.cellSetup (d.bitsNow t) cell
def cellOut (u : CellSetup) (second : Bool) : CellTap := if second then u.outB else u.outA
def cellData (u : CellSetup) (second : Bool) : CellTap := if second then u.dataB else u.dataA
def cellMode (u : CellSetup) (second : Bool) : SrMode := if second then u.modeB else u.modeA

/-- A LUT's output: of all 6 inputs, or of the 5 that the two halves of a split LUT share. -/
def Dev.lutOut (d : Dev) (r : Node → Bool) (t cell : Nat) (second : Bool) : Bool :=
  let u := d.cellSetup t cell
  let i := (List.finRange 6).foldl (fun n k => n + bit01 (r (.pin t cell (.lut k))) * 2 ^ k.val) 0
  u.table.getLsbD (if u.split then i % 32 + 32 * bit01 second else i)

/-- A bit of the carry: the sum and the carry out. The chain runs through the 16 cells of a line, 2 bits each, and on into the line
to the north, 16 lines further (R181, R349). -/
def Dev.carryAt (d : Dev) (r : Node → Bool) (t cell : Nat) (second : Bool) : Bool × Bool :=
  let cin : Option Bool :=
    if second then some (r (.carry t cell false))
    else if cell % 16 ≠ 0 then some (r (.carry t (cell - 1) true))
    else if 256 ≤ cell then some (r (.carry t (cell - 256 + 15) true))
    else none
  Config.carryBit (d.bitsNow t) cell second (r (.tap t cell (.lut false))) (r (.tap t cell (.lut true))) cin

/-- A flip-flop as stored: bit 2c + f of its line (R349). -/
def Dev.flopBit (d : Dev) (t cell : Nat) (second : Bool) : Bool :=
  bitOf (d.fabric.flops.num (lineKey t (cell / 16))) (2 * (cell % 16) + bit01 second)

/-- A flip-flop as its output shows it: an asynchronous set or reset takes effect at once (R180). -/
def Dev.flopOut (d : Dev) (r : Node → Bool) (t cell : Nat) (second : Bool) : Bool :=
  if d.unitHeld (d.lineUnit t (cell / 16)) then d.flopBit t cell second
  else match (cellMode (d.cellSetup t cell) second) with
    | .asyncSet => r (.pin t cell (.setReset second)) || d.flopBit t cell second
    | .asyncReset => !r (.pin t cell (.setReset second)) && d.flopBit t cell second
    | _ => d.flopBit t cell second

/-- What a flip-flop captures at the end of a fabric cycle, in the order of R180. -/
def Dev.flopNext (d : Dev) (r : Node → Bool) (t cell : Nat) (second : Bool) : Bool :=
  if d.unitHeld (d.lineUnit t (cell / 16)) then
    bitOf (d.fabric.initStore.num (lineKey t (cell / 16))) (2 * (cell % 16) + bit01 second)
  else
    let u := d.cellSetup t cell
    let next := if r (.pin t cell (.enable second)) then r (.tap t cell (cellData u second)) else d.flopBit t cell second
    match cellMode u second, r (.pin t cell (.setReset second)) with
    | .asyncSet, true | .syncSet, true => true
    | .asyncReset, true | .syncReset, true => false
    | _, _ => next

/-! ## Fence cells (R194 to R196) -/

/-- The key of a fence cell. -/
def fenceKey (t : Nat) : FenceCell → Nat
  | .lateral k => t * 16384 + k
  | .shaft s => t * 16384 + 1536 + s
  | .inner k => t * 16384 + 2560 + k

/-- The fence cell of a lateral wire or a shaft, which a column fence engages. -/
def edgeCell : FenceCell → Bool
  | .inner _ => false
  | _ => true

/-- A condition of R195 holds for a fence cell; 0b11 takes only the column fence (R194). -/
def Dev.fenceDue (d : Dev) (t : Nat) (f : FenceCell) : Bool :=
  (edgeCell f && d.fenced (t / 2)) ||
  match d.fenceUnit t f with
  | some b => d.unitFenced b && Config.fenceDef (d.bitsNow t) f != 3
  | none => false

/-- The signal that a fence cell passes. -/
def Dev.fencePass (d : Dev) (r : Node → Bool) (t : Nat) : FenceCell → Bool
  | .lateral k => r (.sink t (.lateral k))
  | .shaft s => d.shaftValue r (t / 2) s
  | .inner k => r (.sink t (.inner k))

/-- The output of a fence cell (R194). -/
def Dev.fenceOut (d : Dev) (r : Node → Bool) (t : Nat) (f : FenceCell) : Bool :=
  match d.fabric.fences.look (fenceKey t f) with
  | none => d.fencePass r t f
  | some v =>
    match (Config.fenceDef (d.bitsNow t) f).val with
    | 0 => false
    | 1 => true
    | 2 => v == 2
    | _ => !(edgeCell f && d.fenced (t / 2)) && d.fencePass r t f

/-! ## Values -/

/-- What a source that a multiplexer selects shows. -/
def Dev.sourceValue (d : Dev) (r : Node → Bool) (t : Nat) : Source → Bool
  | .low => false
  | .cell k => r (.tap t (k / 2) (cellOut (d.cellSetup t (k / 2)) (k.val % 2 == 1)))
  | .segment s => r (.sink t (.segment s))
  | .lateral k =>
    match arrivesFrom t k with
    | some (t', j) => r (.fence t' (.lateral (Fin.ofNat 1536 j)))
    | none => Config.looseWire d.fabric.ticks (t * 1536 + k)
  | .shaft s => r (.fence t (.shaft s))
  | .inner k => r (.fence t (.inner k))
  | .result u i => (d.tallyAt t u).p.getLsbD i
  | .flag u i => bitOf (d.tallyAt t u).flag i
  | .resErr u => (d.tallyAt t u).err
  | .port p => d.hardSignal t p

/-- The value at a place, from the values at the places it depends on. -/
def Dev.sigStep (d : Dev) (r : Node → Bool) : Node → Bool
  | .sink t s =>
    if d.tileBlank t then Config.unsettled d.fabric.ticks (.sink t s)
    else
      match s with
      | .lateral k => r (.sink t (.segment (lateralSegment k)))
      | s =>
        let x := Config.driver (d.bitsNow t) s
        r (.source t (if sinkSelects s x then x else .low))
  | .source t s => d.sourceValue r t s
  | .pin t cell p =>
    match Config.crossbar (d.bitsNow t) cell p with
    | .routed k => r (.sink t (.routed (cell / 16) k))
    | .own k => r (.source t (.cell (Fin.ofNat 27648 (cell / 16 * 32 + k))))
  | .tap t cell x =>
    match x with
    | .lut h => d.lutOut r t cell h
    | .sum h => (d.carryAt r t cell h).1
    | .flop h => d.flopOut r t cell h
  | .carry t cell h => (d.carryAt r t cell h).2
  | .fence t f => d.fenceOut r t f

/-- The value at a place after a number of steps of logic and wire; what has not settled by then is free (log entry 113). -/
def Dev.sig (d : Dev) : Nat → Node → Bool
  | 0, n => Config.unsettled d.fabric.ticks n
  | k + 1, n => d.sigStep (Dev.sig d k) n

/-- More steps than the device has places: a value that depends on no loop has settled. -/
def settleSteps : Nat := 2 ^ 32

def Dev.value (d : Dev) (n : Node) : Bool := d.sig settleSteps n

/-- Bits of a word on wires. -/
def Dev.valueWord (d : Dev) (t w : Nat) (s : Nat → Sink) : Nat :=
  (List.range w).foldl (fun n i => n + bit01 (d.value (.sink t (s i))) * 2 ^ i) 0

/-- The fence cells of a tile. -/
def fenceCells : List FenceCell :=
  (List.finRange 1536).map .lateral ++ (List.finRange 1024).map .shaft ++ (List.finRange 6912).map .inner

/-- The tiles of a group that hold a plate. -/
def Dev.groupTiles (d : Dev) (g : Nat) : List Nat :=
  ((groupColumns g).flatMap fun c => [c * 2, c * 2 + 1]).filter fun t => !d.tileBlank t

/-- The fence cells of a group engage, and where `edge` says so release, as `d` stands; one that engages notes the value that the logic
presented before (R194 to R196). -/
def Dev.fenceMove (d before : Dev) (edge : Bool) (g : Nat) : Dev :=
  let cells := (d.groupTiles g).flatMap fun t => fenceCells.map fun f => (t, f)
  d.modFabric fun x =>
    { x with fences := cells.foldl (fun m e =>
        let k := fenceKey e.1 e.2
        if !d.fenceDue e.1 e.2 then if edge then m.del k else m
        else if m.has k then m
        else m.put k (1 + bit01 (before.value (.fence e.1 e.2)))) x.fences }

/-- The fence cells of a group engage and release at a fabric clock edge, after which `d` stands. -/
def Dev.fenceUpdate (d before : Dev) (g : Nat) : Dev := d.fenceMove before true g

end Sys2Proof.Machine
end

