-- ==== Sys2Proof/Machine/LinkOps.lean ====
section
/-!
DEFINITION. What every part of a lane shares: the layout of blocks and messages (R144 to R154), which version carries what
(R159, R163), the transmit queue and its completions (R170, R171, R200), the alignment buffer's fill and the loss of block
lock (R130, R133, R142, R151, R152).
-/
namespace Sys2Proof.Machine

/-- Lanes 128 to 143 are trunk lanes (R98). -/
def isTrunk (n : Nat) : Bool := 128 ≤ n

/-! ## Blocks and messages -/

def ctlQuad : Nat := 0x4B
def ctlMark : Nat := 0x55
def ctlAnnounce : Nat := 0x66
def ctlSom : Nat := 0x78
def ctlEom : Nat := 0x87
def ctlCredit : Nat := 0x99
def ctlIdle : Nat := 0xAA
def ctlProof : Nat := 0xB4
def ctlAlarm : Nat := 0xCC

def msgHit : Nat := 0x01
def msgPrimitive : Nat := 0x02
def msgDecision : Nat := 0x03
def msgAccept : Nat := 0x04
def msgFragment : Nat := 0x05
def msgMgmtRead : Nat := 0x10
def msgMgmtWrite : Nat := 0x11
def msgMgmtResp : Nat := 0x12
def msgEvent : Nat := 0x13
def msgControl : Nat := 0x20

/-- The type byte of a control block (R145). -/
def ctlType (p : Payload) : Nat := bitsOf p.toNat 0 8
def somType (p : Payload) : Nat := bitsOf p.toNat 8 8
def somLen (p : Payload) : Nat := bitsOf p.toNat 16 8
def somStamp (p : Payload) : Nat := bitsOf p.toNat 24 16
def somRoute (p : Payload) : Nat := bitsOf p.toNat 40 16

/-- A control block with its CHK in P[63:56] (R146). -/
def withChk (n : Nat) : Payload :=
  let p := BitVec.ofNat 64 (n % 2 ^ 56)
  BitVec.ofNat 64 (n % 2 ^ 56 + chkOf p * 2 ^ 56)

/-- The SOM of a message (R145). -/
def somOf (m : Msg) : Payload :=
  withChk (ctlSom + m.typ % 256 * 2 ^ 8 + m.body.length % 256 * 2 ^ 16 + m.stamp % 2 ^ 16 * 2 ^ 24 + m.route % 2 ^ 16 * 2 ^ 40)

/-- The EOM of a message sent at a version (R145, R150). -/
def eomOf (version : Nat) (som : Payload) (data : List Payload) : Payload :=
  let bs := messageBytes som data
  BitVec.ofNat 64 (ctlEom + data.length % 256 * 2 ^ 8 + (crc16 bs).toNat * 2 ^ 16 +
    (if 0x11 ≤ version then (crc32c bs).toNat * 2 ^ 32 else 0))

/-- The units of 256 bytes a message of LEN data blocks costs (R167). -/
def msgUnits (len : Nat) : Nat := max 1 ((len + 31) / 32)

/-- The credit classes (R153, R167). -/
inductive CreditClass where
  | none | f | m
deriving DecidableEq, Repr

def creditClass (typ : Nat) : CreditClass :=
  if typ = msgFragment then .f
  else if typ = msgMgmtRead ∨ typ = msgMgmtWrite ∨ typ = msgMgmtResp ∨ typ = msgEvent ∨ typ = msgControl then .m
  else .none

/-- The types bound to a crossing that R152 and the alignment buffer concern. -/
def crossTyped (typ : Nat) : Bool := typ == msgHit || typ == msgPrimitive || typ == msgDecision

/-! ## Version and features in force (R159, R163, R165) -/

def Dev.version (d : Dev) (n : Nat) : Nat := d.fld (laneBase n) Reg.LINK_VER.NEGOTIATED
def Dev.agreed (d : Dev) (n i : Nat) : Bool := bitOf (d.fld (laneBase n) Reg.AGREED_FEAT.FEATURES) i

def featMgmt : Nat := 0
def featEvent : Nat := 1
def featFragment : Nat := 2
def featAccept : Nat := 3
def featPriority : Nat := 4
def featProof : Nat := 5
def featAlarm : Nat := 6
def featControl : Nat := 7

/-- Whether a version and agreed features carry a message type (R153, R159, R163). The side that serves management requests, on a
trunk lane, needs version 2.0 only; the side that issues them needs the MGMT feature agreed. -/
def carriesAt (v feats : Nat) (serves : Bool) (typ : Nat) : Bool :=
  if typ = msgHit then decide (0x10 ≤ v)
  else if typ = msgPrimitive ∨ typ = msgDecision then decide (0x11 ≤ v)
  else if typ = msgAccept then decide (0x11 ≤ v) && bitOf feats featAccept
  else if typ = msgFragment then decide (0x20 ≤ v) && bitOf feats featFragment
  else if typ = msgMgmtRead ∨ typ = msgMgmtWrite ∨ typ = msgMgmtResp then decide (0x20 ≤ v) && (serves || bitOf feats featMgmt)
  else if typ = msgEvent then decide (0x20 ≤ v) && bitOf feats featEvent
  else if typ = msgControl then decide (0x11 ≤ v) && bitOf feats featControl
  else false

/-- The lane sends messages of a type: responses as the serving side, requests as the T7's own (R163, R171). -/
def Dev.carries (d : Dev) (n typ : Nat) : Bool :=
  carriesAt (d.version n) (d.fld (laneBase n) Reg.AGREED_FEAT.FEATURES) (isTrunk n && typ == msgMgmtResp) typ

/-- The lane takes a message of a type whose SOM it received under a version and agreed features: requests as the serving side,
responses as those to its own (R163, R165, R172). -/
def takes (n v feats typ : Nat) : Bool := carriesAt v feats (isTrunk n && (typ == msgMgmtRead || typ == msgMgmtWrite)) typ

/-! ## What the transmitter sends -/

/-- One payload bit: the memory's bits 38 and 57 are the bits sent 39 and 58 before (R128). -/
def scrambleBit (s : BitVec 58 × Nat) (i : Nat) (p : Payload) : BitVec 58 × Nat :=
  let b := (p.getLsbD i ^^ s.1.getLsbD 38) ^^ s.1.getLsbD 57
  ((s.1 <<< 1) ||| BitVec.ofNat 58 (bit01 b), s.2 + bit01 b * 2 ^ i)

/-- The scrambler's memory after a payload, and the payload as it is sent. -/
def scramble (mem : BitVec 58) (p : Payload) : BitVec 58 × Payload :=
  let r := (List.range 64).foldl (fun s i => scrambleBit s i p) (mem, 0)
  (r.1, BitVec.ofNat 64 r.2)

/-- The bits of a block in the order sent: H[0] first, then H[1], then P[0] to P[63], each inverted where TX_POL is 1 (R126, R127). -/
def lineBits (pol : Bool) (header : Nat) (sent : Payload) : BitVec 66 :=
  let w := BitVec.ofNat 66 (header + sent.toNat * 4)
  if pol then ~~~w else w

/-- A block leaves the transmitter. -/
def LinkRec.put (l : LinkRec) (pol control : Bool) (p : Payload) : LinkRec :=
  let s := scramble l.scr p
  { l with scr := s.1, line := lineBits pol (if control then 2 else 1) s.2 }

/-- TX_QUAD.INTERVAL, which acts as 4,095 outside its range (R134). -/
def quadInterval (i : Nat) : Nat := if 16 ≤ i ∧ i ≤ 4095 then i else 4095

/-- A block leaves, with a QUAD after every `interval` blocks that are none. -/
def LinkRec.send (l : LinkRec) (interval : Nat) (pol control : Bool) (p : Payload) : LinkRec :=
  let l := l.put pol control p
  if interval ≤ l.txCount + 1 then { l.put pol true (BitVec.ofNat 64 ctlQuad) with txCount := 0 }
  else { l with txCount := l.txCount + 1 }

/-- TX_POL as the lane sampled it at its start (R103). -/
def Dev.txPol (d : Dev) (n : Nat) : Bool := fget (d.lane n).cfg Reg.LANE_CFG.TX_POL == 1

/-- Blocks leave a lane in order, each a control block or a data block. -/
def Dev.sendBlocks (d : Dev) (n : Nat) (bs : List (Bool × Payload)) : Dev :=
  let i := quadInterval (d.fld (laneBase n) Reg.TX_QUAD.INTERVAL)
  d.modLink n fun l => bs.foldl (fun l b => l.send i (d.txPol n) b.1 b.2) l

/-- A lane in the far-end loop (R175, R496). -/
def Dev.looped (d : Dev) (n : Nat) : Bool := d.flag (laneBase n) Reg.LINK_STATE.LOOPED

/-- A control block leaves at the next block boundary (R170). In the far-end loop the transmitter sends received blocks and QUADs
alone (R495, R496). -/
def Dev.sendControl (d : Dev) (n : Nat) (p : Payload) : Dev :=
  if d.looped n then d else (d.sendBlocks n [(true, p)]).modLink n fun l => { l with lastTx := some (.control p) }

/-- The row word at a place in a queue of a lane's port column (R200). -/
def queueWord (portCol setting pos : Nat) : Nat := wordIndex (bitsOf portCol 0 8) 7 (bitsOf setting 0 11) 0 + pos

/-- Takes the ended entries off the front of a list of send-queue entries: the rest and the position after them. -/
def popDone : List TxqEntry → Option Nat × List TxqEntry
  | [] => (none, [])
  | e :: t => if e.done then let r := popDone t; (some (r.1.getD e.after), r.2) else (none, e :: t)

/-- The T7 writes STATUS back into an entry of the send queue and advances its read position (R199, R200). -/
def Dev.txqStatus (d : Dev) (n w st : Nat) : Dev :=
  let r := d.lane n
  let old := d.wordRead (d.physWord w)
  let v := BitVec.ofNat 256 (old.toNat - bitsOf old.toNat 80 2 * 2 ^ 80 + st * 2 ^ 80)
  let d := (d.baseWrite .laneQueue w (2 ^ 10) v).1
  let l := (d.link n).txqOut.map fun e => if e.word = w then { e with done := true } else e
  let (pos, rest) := popDone l
  let d := d.modLink n fun k => { k with txqOut := rest }
  match pos with
  | some p => (d.baseWrite .laneQueue (queueWord r.portCol.toNat r.portTxq.toNat 0) fullMask (BitVec.ofNat 256 p)).1
  | none => d

/-- The end of a remote request (R158). -/
def Dev.remoteEnd (d : Dev) (n status : Nat) : Dev :=
  let b := laneBase n
  (((d.setFld b Reg.REM_STATUS.STATUS status).setFld b Reg.REM_STATUS.BUSY 0).setFld b Reg.REM_STATUS.DONE 1).raise b
    Reg.LINK_EVENT.REM_DONE

/-- The end of an outbound message: sent, or discarded with an error completion to its originator (R171, R200, R279). -/
def Dev.txEnd (d : Dev) (n : Nat) (o : Originator) (sent : Bool) : Dev :=
  match o with
  | .engine e =>
    let b := ringBase e
    if sent then d.count b Reg.FRAG_COUNT.COUNT
    else (d.count b Reg.FRAG_ERR_COUNT.COUNT).raise b Reg.ENG_EVENT.FRAG_ERR
  | .fabric w => d.txqStatus n w (if sent then 1 else 2)
  | .remote tag =>
    if !sent && d.flag (laneBase n) Reg.REM_STATUS.BUSY && d.fld (laneBase n) Reg.REM_STATUS.TAG == tag then d.remoteEnd n 0x21
    else d
  | .mgmt | .eventNotice => d

/-- A message the lane does not send (R171, R175). -/
def Dev.txBarred (d : Dev) (n : Nat) (m : Msg) : Bool :=
  !d.carries n m.typ || (d.looped n && creditClass m.typ == .none)

/-- A message is queued on a lane, or discarded with an error completion (R170, R171). -/
def Dev.txEnqueue (d : Dev) (n : Nat) (t : TxMsg) : Dev :=
  if d.txBarred n t.msg then d.txEnd n t.orig false else d.modLink n fun l => { l with txQueue := l.txQueue ++ [t] }

/-- Waiting messages that the lane no longer carries are discarded (R171, R175). -/
def Dev.txPurge (d : Dev) (n : Nat) : Dev :=
  let out := (d.link n).txQueue.filter fun t => d.txBarred n t.msg
  let d := d.modLink n fun l =>
    { l with txQueue := l.txQueue.filter fun t => !d.txBarred n t.msg
             mgmtTags := (out.filter fun t => t.msg.typ == msgMgmtResp).foldl (fun s t => s.erase (t.msg.route % 256)) l.mgmtTags }
  d.each out fun d t => d.txEnd n t.orig false

/-- Every waiting message is discarded (R77). -/
def Dev.txDiscard (d : Dev) (n : Nat) : Dev :=
  let out := (d.link n).txQueue
  (d.modLink n fun l => { l with txQueue := [], mgmtTags := [] }).each out fun d t => d.txEnd n t.orig false

/-! ## The alignment buffer -/

/-- Blocks a message occupies (R139). -/
def Msg.blocks (m : Msg) : Nat := m.body.length + 2

/-- ALIGN_STATUS.FILL follows the buffer. -/
def Dev.showFill (d : Dev) (n : Nat) : Dev :=
  d.setFld (laneBase n) Reg.ALIGN_STATUS.FILL (satAdd 0xFFF 0 ((d.lane n).held.foldl (fun s h => s + h.msg.blocks) 0))

/-- The buffer is emptied and every message counted late (R43, R77, R142). -/
def Dev.flushHeld (d : Dev) (n : Nat) : Dev :=
  let k := (d.lane n).held.length
  ((d.modLane n fun r => { r with held := [] }).countBy (laneBase n) Reg.LATE_COUNT.COUNT k).showFill n

/-- A message of which blocks lie in the receiver: its SOM with the crossing in which that was received and the version then in force
(R165), and whether its EOM has arrived. -/
structure EbMessage where
  som   : Payload := 0
  cross : Nat := 0
  ver   : Nat := 0
  whole : Bool := false
deriving DecidableEq, Repr

/-- The messages of which the elastic buffer holds blocks, the one being assembled first (R137, R142). -/
def ebMessages (now ver : Nat) : Option EbMessage → List EbItem → List EbMessage
  | o, [] => o.toList
  | o, .block true p :: t =>
    if ctlType p = ctlSom then
      o.toList ++ ebMessages now ver (if chkOk p then some { som := p, cross := now, ver := ver } else none) t
    else if ctlType p = ctlEom then o.toList.map (fun m => { m with whole := true }) ++ ebMessages now ver none t
    else ebMessages now ver o t
  | o, _ :: t => ebMessages now ver o t

/-- The message that a lane assembles, where it does. -/
def Dev.rxOpen (d : Dev) (n : Nat) : Option EbMessage :=
  match (d.lane n).rx with
  | .inside m => some { som := m.som, cross := m.cross, ver := m.ver }
  | _ => none

/-- The messages that the receiver of a lane is in the midst of. -/
def Dev.rxMessages (d : Dev) (n : Nat) : List EbMessage := ebMessages d.now (d.version n) (d.rxOpen n) (d.lane n).eb

/-- The alignment buffer takes messages of a type (R139). -/
def Dev.bufferTakes (d : Dev) (n typ : Nat) : Bool :=
  if isTrunk n then (d.lane n).alignCfg.getLsbD 0 && (typ == msgPrimitive || typ == msgDecision)
  else typ == msgHit || typ == msgPrimitive

/-! ## Losses (R151, R152) -/

/-- The oldest crossing whose release cycle has not passed. -/
def Dev.oldestHeld (d : Dev) : Nat :=
  let r := d.fld keeperBase Reg.LATENCY.ALIGN_R
  crossSub d.now (if d.keeper.released then r - 1 else r)

/-- A crossing lies in a range of affected crossings. -/
def GapRange.holds (g : GapRange) (k : Nat) : Bool :=
  match g.hi with
  | some h => !crossBefore h g.lo && decide (crossSub k g.lo ≤ crossSub h g.lo)
  | none => decide (crossSub k g.lo < 2 ^ 47)

/-- Frames of affected crossings that have been delivered have their STATUS rewritten to GAP (R152). -/
def Dev.rewriteGaps (d : Dev) (n : Nat) : Dev :=
  let r := d.lane n
  if r.portDlv.getLsbD 0 && !r.portBad then
    d.each r.frames.items fun d e =>
      if r.gaps.any (·.holds e.2.cross) then
        let w := wordIndex (bitsOf r.portCol.toNat 0 8) 7 (bitsOf r.portDlv.toNat 16 11 + e.1) 0
        let old := d.wordRead (d.physWord w)
        (d.baseWrite .delivery w (2 ^ 6) (BitVec.ofNat 256 (old.toNat - bitsOf old.toNat 48 2 * 2 ^ 48 + 2 * 2 ^ 48))).1
      else d
  else d

/-- A gap range arises. -/
def Dev.addGap (d : Dev) (n : Nat) (g : GapRange) : Dev :=
  (d.modLane n fun r => { r with gaps := r.gaps ++ [g] }).rewriteGaps n

/-- A possible loss other than a CRC failure (R152): its affected crossings run from the newest evidence to the next. -/
def Dev.orphan (d : Dev) (n : Nat) : Dev :=
  let b := laneBase n
  let d := (d.count b Reg.ORPHAN_COUNT.COUNT).raise b Reg.LINK_EVENT.LOSS
  d.addGap n { lo := (d.lane n).lastStamp.getD d.oldestHeld }

/-- STAMP extended to 48 bits against the present crossing (R149). -/
def extendStamp (j stamp : Nat) : Nat :=
  (((j : Int) + signedOf (stamp % 2 ^ 16 + 2 ^ 16 - j % 2 ^ 16) 16) % ((crossMod : Nat) : Int)).toNat

/-- The receive buffer takes back the units of a message it has finished with; while a trunk lane drains its limits do
not rise, and a limit never runs more than the buffer size ahead of the units received (R168, R169). -/
def Dev.creditBack (d : Dev) (n typ len : Nat) : Dev :=
  let b := laneBase n
  if isTrunk n && (d.ust b = .draining) then d
  else
    let rise (lim got size : Nat) : Nat :=
      (got + min size ((lim + msgUnits len + 2 ^ 16 - got % 2 ^ 16) % 2 ^ 16)) % 2 ^ 16
    match creditClass typ with
    | .none => d
    | .f => d.modLink n fun l =>
        { l with rxLimF := rise l.rxLimF l.rxGotF (d.fld b Reg.CREDIT_RX.BUF_F), creditDue := true }
    | .m => d.modLink n fun l =>
        { l with rxLimM := rise l.rxLimM l.rxGotM (d.fld b Reg.CREDIT_RX.BUF_M), creditDue := true }

/-- Room of the receive buffer for a class: units the limit still allows. -/
def LinkRec.room (l : LinkRec) : CreditClass → Nat
  | .none => 2 ^ 16
  | .f => (l.rxLimF + 2 ^ 16 - l.rxGotF) % 2 ^ 16
  | .m => (l.rxLimM + 2 ^ 16 - l.rxGotM) % 2 ^ 16

/-- The receive buffer takes the units of a message. -/
def Dev.creditTake (d : Dev) (n typ len : Nat) : Dev :=
  match creditClass typ with
  | .none => d
  | .f => d.modLink n fun l => { l with rxGotF := (l.rxGotF + msgUnits len) % 2 ^ 16 }
  | .m => d.modLink n fun l => { l with rxGotM := (l.rxGotM + msgUnits len) % 2 ^ 16 }

/-- A message dropped before it reached its consumer: its units are received and removed (R168), when they fitted and its SOM
came under a version with credits. -/
def Dev.creditDrop (d : Dev) (n ver typ len : Nat) : Dev :=
  if 0x11 ≤ ver ∧ msgUnits len ≤ (d.link n).room (creditClass typ) then (d.creditTake n typ len).creditBack n typ len
  else d

/-- A message that did not end good (R151): dropped, counted, and a possible loss of its own crossing when its type is
bound to one (R152); `ver` is the version in force at its SOM (R165). -/
def Dev.crcFail (d : Dev) (n ver : Nat) (som : Payload) (cross : Nat) : Dev :=
  let b := laneBase n
  let d := ((d.count b Reg.CRC_ERR_COUNT.COUNT).raise b Reg.LINK_EVENT.LOSS).creditDrop n ver (somType som) (somLen som)
  if crossTyped (somType som) then
    let x := extendStamp cross (somStamp som)
    d.addGap n { lo := x, hi := some x }
  else d

/-- The message being received is cut short (R151, R142). -/
def Dev.rxBreak (d : Dev) (n : Nat) : Dev :=
  match (d.lane n).rx with
  | .inside m => (d.modLane n fun r => { r with rx := .outside }).crcFail n m.ver m.som m.cross
  | _ => d.modLane n fun r => { r with rx := .outside }

/-! ## Negotiation down, the far-end loop (R164, R175) -/

/-- The far-end loop ends. -/
def Dev.loopEnd (d : Dev) (n : Nat) : Dev :=
  let b := laneBase n
  if d.looped n && !d.flag b Reg.CTRL.PROOF_EN then (d.setFld b Reg.LINK_STATE.LOOPED 0).raise b Reg.LINK_EVENT.PROOF_EXITED else d

/-- The words of a lane's management request are accessed no more; one that waits for its data-space completion tells no lane of
it (R156, R164). -/
def CtlRec.forgetLane (c : CtlRec) (n : Nat) : CtlRec :=
  { c with waiting := c.waiting.filter fun a => a.lane != some n
           debugPend := ⟨c.debugPend.items.map fun e => (e.1, if e.2.lane = some n then { e.2 with lane := none } else e.2)⟩ }

/-- Loss of lock takes negotiation to DOWN: no version is in force, and waiting messages are discarded (R164, R165, R171). -/
def Dev.linkDown (d : Dev) (n : Nat) : Dev :=
  let b := laneBase n
  let d := ((d.loopEnd n).setFld b Reg.LINK_STATE.NEGO 0).setFld b Reg.LINK_STATE.ANNOUNCE_TX 0
  let d := (d.setFld b Reg.LINK_VER.NEGOTIATED 0).setReg (b + Reg.AGREED_FEAT.FEATURES.off) 0
  let d := d.modLink n fun l => { l with lastAnn := none, annSeen := false, mgmtWait := [], mgmtJob := none, mgmtTags := [] }
  (d.modCtl fun c => c.forgetLane n).txPurge n

/-! ## Block lock (R130 to R133) -/

def blkIdle : Nat := 0
def blkHunt : Nat := 1
def blkSlip : Nat := 2
def blkLocked : Nat := 3

def Dev.blkState (d : Dev) (n : Nat) : Nat := d.fld (laneBase n) Reg.BLK_STATE.STATE
def Dev.setBlk (d : Dev) (n st : Nat) : Dev := d.setFld (laneBase n) Reg.BLK_STATE.STATE st

/-- The PLL of a lane's group is locked (R104). -/
def Dev.groupLocked (d : Dev) (n : Nat) : Bool := d.flag (laneGroupBase (n / 8)) Reg.LG_STATUS.PLL_LOCK

/-- The signal is ready (R131). At proof depths 0 and 1 the receiver's front is passed by, and at depth 2 its LOS detector
(R495). -/
def Dev.signalReady (d : Dev) (n : Nat) : Bool :=
  let cdr := d.flag (laneBase n) Reg.LANE_STATUS.CDR_LOCK
  match d.proofDepth (laneBase n) with
  | some 0 | some 1 => true
  | some 2 => cdr
  | _ => cdr && !d.flag (laneBase n) Reg.LANE_STATUS.LOS

/-- Entry into HUNT, or SLIP while FORCE_MANUAL is 1: the run and the hunt count begin at 0 (R131, R133). -/
def Dev.beginHunt (d : Dev) (n : Nat) (slip : Bool) : Dev :=
  let b := laneBase n
  let d := (d.setBlk n (if slip then blkSlip else blkHunt)).setFld b Reg.BLK_STATUS.RUN 0
  d.modLane n fun r => { r with huntCount := 0, slipSince := d.tick }

/-- The elastic buffer is emptied, and the messages given are handled as messages with a CRC failure. -/
def Dev.rxDrop (d : Dev) (n : Nat) (lost : List EbMessage) : Dev :=
  (((d.modLane n fun r => { r with rx := .outside, eb := [] }).each lost fun d m => d.crcFail n m.ver m.som m.cross).modLane n fun r =>
    { r with evidence := none, lastStamp := none, winPos := 0, winBad := 0, sinceQuad := 0 }).setFld (laneBase n) Reg.BLK_STATUS.EB_OCC 0

/-- Loss of block lock (R130, R131). A message that stands whole in the elastic buffer is lost with it and counts as one cut short
(DESIGN CHOICE, log entry 124). -/
def Dev.lockLost (d : Dev) (n : Nat) : Dev :=
  let b := laneBase n
  if d.blkState n = blkLocked then
    let d := ((d.count b Reg.LOCK_LOSS_COUNT.COUNT).raise b Reg.BLK_EVENT.LOCK_LOST).rxDrop n (d.rxMessages n)
    (d.beginHunt n (d.flag b Reg.BLK_CTRL.FORCE_MANUAL)).linkDown n
  else d.setFld b Reg.BLK_STATUS.RUN 0

/-- A message on the hard path to the alignment buffer: whole, and of a type that the buffer takes (R138, R142). -/
def Dev.onHardPath (d : Dev) (n : Nat) (m : EbMessage) : Bool := m.whole && d.bufferTakes n (somType m.som)

/-- A lane leaves STARTING, RUNNING, DEGRADED and DRAINING: block lock is IDLE, the transmitter is idle, negotiation is
DOWN, and what the alignment buffer and the hard path hold is counted late (R133, R142). The other messages of which the receiver
holds blocks are cut short and count as CRC failures (DESIGN CHOICE, log entry 124). -/
def Dev.laneLeaves (d : Dev) (n : Nat) : Dev :=
  let b := laneBase n
  let l := d.rxMessages n
  let late := (l.filter fun m => d.onHardPath n m).length
  let cut := l.filter fun m => !d.onHardPath n m
  let d := ((d.flushHeld n).countBy b Reg.LATE_COUNT.COUNT late).setFld b Reg.ALIGN_STATUS.LAST 3
  let d := ((d.rxDrop n cut).setBlk n blkIdle).setFld b Reg.BLK_STATUS.RUN 0
  let d := (d.linkDown n).txDiscard n
  (d.setFld b Reg.LANE_STATUS.TX_ACTIVE 0).setFld b Reg.LINK_STATE.LOOPED 0

end Sys2Proof.Machine
end

