-- ==== Sys2Proof/Machine/Cipher.lean ====
section
/-!
DEFINITION. The ciphers that the spec names by their standards: AES-256 (FIPS 197), XTS (IEEE 1619, R312 to R314), AES-CMAC (SP 800-38B,
R318) and AES-256-GCM (SP 800-38D, R361). Bytes are numbers below 256, in the order of the standards.
-/
namespace Sys2Proof.Machine

/-! ## Bytes -/

/-- The `n` bytes of a number, the most significant first. -/
def bigBytes (n x : Nat) : List Nat := (List.range n).map fun i => x >>> (8 * (n - 1 - i)) % 256

/-- The number that bytes spell, the most significant first. -/
def bigNum (l : List Nat) : Nat := l.foldl (fun n b => n * 256 + b) 0

/-- The `n` bytes of a number, the least significant first (R4). -/
def smallBytes (n x : Nat) : List Nat := (List.range n).map fun i => x >>> (8 * i) % 256

/-- The number that bytes spell, the least significant first (R4). -/
def smallNum (l : List Nat) : Nat := l.foldr (fun b n => n * 256 + b) 0

/-- The bytes of words, each in the order of R4. -/
def wordBytes (ws : List Word) : List Nat := ws.flatMap fun w => smallBytes 4 w.toNat

def xorBytes (a b : List Nat) : List Nat := List.zipWith (· ^^^ ·) a b

/-- The lists of `n` items that a list falls into; the first argument bounds how many. -/
def chunks {α : Type} (n : Nat) : Nat → List α → List (List α)
  | 0, _ => []
  | _, [] => []
  | k + 1, l => l.take n :: chunks n k (l.drop n)

/-- A list cut into parts of `n` items. -/
def partsOf {α : Type} (n : Nat) (l : List α) : List (List α) := chunks n l.length l

/-! ## AES-256 -/

/-- The S-box, 32 entries a number, the first in the lowest byte. -/
def boxRows : List Nat :=
  [0xC072A49CAFA2D4ADF04759FA7DC982CA76ABD7FE2B670130C56F6BF27B777C63,
   0x75B227EBE28012079A059618C323C7041531D871F1E5A534CCF73F362693FDB7,
   0xCF584C4A39BECB6A5BB1FC20ED00D153842FE329B3D63B52A05A6E1B1A2C8309,
   0xD2F3FF1021DAB6BCF5389D928F40A351A89F3C507F02F94585334D43FBAAEFD0,
   0xDB0B5EDE14B8EE4688902A22DC4F816073195D643D7EA7C41744975FEC130CCD,
   0x8AE7A65EAF4566CA94ED58D6D37C8E779E4959162ACD3C25C2406490A3A32E0,
   0x9E1DC186B95735610EF6034866B53E708A8BBD4B1F74DDE8C6B4A61C2E2578BA,
   0x16BB54B00F2D99416842E6BF0D89A18CDF2855CEE9871E9B948ED9691198F8E1]

/-- The inverse S-box. -/
def backRows : List Nat :=
  [0xCBE9DEC444438E3487FF2F9B8239E37CFBD7F3819EA340BF38A53630D56A0952,
   0x25D18B6D49A25B76B224D92866A12E084EC3FA420B954CEE3D23C2A632947B54,
   0x849D8DA75746155EDAB9EDFD5048706C92B6655DCC5CA4D41698688664F6F872,
   0x6B8A130103BDAFC1020F3FCA8F1E2CD00645B3B80558E4F70AD3BC8C00ABD890,
   0x6EDF751CE837F9E28535ADE72274AC9673E6B4F0CECFF297EADC674F4111913A,
   0xF45ACD78FEC0DB9A2079D2C64B3E56FC1BBE18AA0E62B76F89C5291D711AF147,
   0xEF9CC9939F7AE52D0D4AB519A97F51605FEC8027591012B131C7078833A8DD1F,
   0x7D0C2155631469E126D677BA7E042B17619953833CBBEBC8B0F52AAE4D3BE0A0]

/-- An entry of a box. -/
def boxAt (rows : List Nat) (x : Nat) : Nat := rows.getD (x / 32) 0 >>> (8 * (x % 32)) % 256

/-- The double of a byte in the field of AES. -/
def twice (x : Nat) : Nat := if x < 128 then 2 * x else (2 * x - 256) ^^^ 0x1B

/-- The columns of a state mixed. -/
def mixed : List Nat → List Nat
  | a :: b :: c :: d :: t =>
    let all := a ^^^ b ^^^ c ^^^ d
    (a ^^^ all ^^^ twice (a ^^^ b)) :: (b ^^^ all ^^^ twice (b ^^^ c)) :: (c ^^^ all ^^^ twice (c ^^^ d)) ::
      (d ^^^ all ^^^ twice (d ^^^ a)) :: mixed t
  | l => l

/-- The inverse of the mix: what it adds first, and the mix. -/
def unmixed : List Nat → List Nat
  | a :: b :: c :: d :: t =>
    let u := twice (twice (a ^^^ c))
    let v := twice (twice (b ^^^ d))
    mixed [a ^^^ u, b ^^^ v, c ^^^ u, d ^^^ v] ++ unmixed t
  | l => l

/-- The rows of a state turned, row `r` by `r` or by `4 - r` places. -/
def turned (back : Bool) (l : List Nat) : List Nat :=
  (List.range 16).map fun i => l.getD ((i + (if back then 12 else 4) * (i % 4)) % 16) 0

/-- The words of the key schedule, the last first: `n` more of them, from word `i` on, with the round constant. -/
def keyWords : Nat → Nat → Nat → List (List Nat) → List (List Nat)
  | 0, _, _, acc => acc
  | n + 1, i, rc, acc =>
    let w := acc.headD []
    let w := if i % 8 = 0 then xorBytes ((w.drop 1 ++ w.take 1).map (boxAt boxRows)) [rc, 0, 0, 0]
      else if i % 8 = 4 then w.map (boxAt boxRows) else w
    keyWords n (i + 1) (if i % 8 = 0 then twice rc else rc) (xorBytes (acc.getD 7 []) w :: acc)

/-- The 15 round keys of a 256-bit key, whose first byte is its most significant. -/
def roundKeys (key : BitVec 256) : List (List Nat) :=
  (partsOf 4 (keyWords 52 8 1 (partsOf 4 (bigBytes 32 key.toNat)).reverse).reverse).map List.flatten

/-- Rounds of the cipher; the last has no mix. -/
def cipherRounds : List (List Nat) → List Nat → List Nat
  | [], x => x
  | [k], x => xorBytes (turned false (x.map (boxAt boxRows))) k
  | k :: t, x => cipherRounds t (xorBytes (mixed (turned false (x.map (boxAt boxRows)))) k)

/-- A block of 16 bytes enciphered under round keys. -/
def cipher (ks : List (List Nat)) (x : List Nat) : List Nat := cipherRounds (ks.drop 1) (xorBytes x (ks.headD []))

/-- Rounds of the inverse cipher, over the round keys from the last. -/
def plainRounds : List (List Nat) → List Nat → List Nat
  | [], x => x
  | [k], x => xorBytes ((turned true x).map (boxAt backRows)) k
  | k :: t, x => plainRounds t (unmixed (xorBytes ((turned true x).map (boxAt backRows)) k))

/-- A block deciphered. -/
def decipher (ks : List (List Nat)) (x : List Nat) : List Nat :=
  let r := ks.reverse
  plainRounds (r.drop 1) (xorBytes x (r.headD []))

/-! ## XTS (R312, R314) -/

/-- The tweak of the next block: the product with α. -/
def nextTweak (t : Nat) : Nat := if t < 2 ^ 127 then 2 * t else (2 * t - 2 ^ 128) ^^^ 0x87

/-- A number of next blocks. -/
def tweakAt : Nat → Nat → Nat
  | 0, t => t
  | j + 1, t => tweakAt j (nextTweak t)

/-- Blocks under one key, each with its tweak. -/
def xtsBlocks (f : List Nat → List Nat) : Nat → List (List Nat) → List Nat
  | _, [] => []
  | t, x :: l => xorBytes (f (xorBytes x (smallBytes 16 t))) (smallBytes 16 t) ++ xtsBlocks f (nextTweak t) l

/-- The blocks of a sector from block `j` on, enciphered or deciphered, under K1 and K2 with the tweak value `i`. -/
def xts (back : Bool) (k1 k2 : BitVec 256) (i j : Nat) (x : List Nat) : List Nat :=
  let ks := roundKeys k1
  let t := smallNum (cipher (roundKeys k2) (smallBytes 16 i))
  xtsBlocks (if back then decipher ks else cipher ks) (tweakAt j t) (partsOf 16 x)

/-! ## CMAC (R318) -/

/-- The double of a block, its first byte the most significant. -/
def macDouble (x : Nat) : Nat := if x < 2 ^ 127 then 2 * x else (2 * x - 2 ^ 128) ^^^ 0x87

/-- The chain over whole blocks, the last of which takes the subkey. -/
def macChain (ks : List (List Nat)) (sub : List Nat) : List Nat → List (List Nat) → List Nat
  | c, [] => c
  | c, [x] => cipher ks (xorBytes (xorBytes c x) sub)
  | c, x :: t => macChain ks sub (cipher ks (xorBytes c x)) t

/-- AES-CMAC of a message of whole blocks. -/
def cmac (key : BitVec 256) (m : List Nat) : List Nat :=
  let ks := roundKeys key
  let zero := smallBytes 16 0
  macChain ks (bigBytes 16 (macDouble (bigNum (cipher ks zero)))) zero (partsOf 16 m)

/-! ## GCM (R361) -/

/-- A product in the field of GCM, whose first bit is the most significant: `n` bits of `y` are still to be taken. -/
def ghashMul (y : Nat) : Nat → Nat → Nat → Nat
  | 0, _, z => z
  | n + 1, v, z =>
    let z := if y.testBit n then z ^^^ v else z
    ghashMul y n (if v % 2 = 1 then v / 2 ^^^ (0xE1 * 2 ^ 120) else v / 2) z

/-- GHASH over blocks. -/
def ghash (h : Nat) (l : List (List Nat)) : Nat := l.foldl (fun x b => ghashMul (x ^^^ bigNum b) 128 h 0) 0

/-- Bytes filled up with zeros to whole blocks. -/
def wholeBlocks (l : List Nat) : List (List Nat) := partsOf 16 (l ++ List.replicate ((16 - l.length % 16) % 16) 0)

/-- The key stream from a counter on, added to blocks. -/
def counterMode (ks : List (List Nat)) (iv : List Nat) : Nat → List (List Nat) → List Nat
  | _, [] => []
  | n, x :: t => xorBytes x (cipher ks (iv ++ bigBytes 4 n)) ++ counterMode ks iv (n + 1) t

/-- AES-256-GCM of a 12-byte IV, additional data and ciphertext: the plaintext, and the tag that belongs to them. -/
def gcm (key : BitVec 256) (iv aad text : List Nat) : List Nat × List Nat :=
  let ks := roundKeys key
  let h := bigNum (cipher ks (smallBytes 16 0))
  let lens := bigBytes 8 (8 * aad.length) ++ bigBytes 8 (8 * text.length)
  let s := ghash h (wholeBlocks aad ++ wholeBlocks text ++ [lens])
  (counterMode ks iv 2 (partsOf 16 text), xorBytes (bigBytes 16 s) (cipher ks (iv ++ bigBytes 4 1)))

end Sys2Proof.Machine
end

