-- ==== Sys2Proof/Machine/ExtOps.lean ====
section
/-!
DEFINITION. Accesses to data space ("External Memory and Inline Encryption"): the decode of R94, the map of R309, the keys
and tweaks of R312 to R316, the statuses of R320 and what an access to a line reads, writes and records (R318, R321 to R325).
Causes are offered to Kryup in the list `due`, which the command that made the access hands over (Causes.lean).
-/
namespace Sys2Proof.Machine

/-! ## Statuses (R320) and requester classes (CRY_LOG_INFO.CLASS) -/

def dsOk : Nat := 0
def dsCorrected : Nat := 1
def dsDecode : Nat := 2
def dsKey : Nat := 3
def dsTag : Nat := 4
def dsUncorr : Nat := 5
def dsPoison : Nat := 6
def dsRefused : Nat := 7

def clsFdp : Nat := 0
def clsRing : Nat := 1
def clsConfig : Nat := 2
def clsMover : Nat := 3
def clsDebug : Nat := 4
def clsScrub : Nat := 5

/-- The access was performed. -/
def dsDone (st : Nat) : Bool := st == dsOk || st == dsCorrected

/-- The status of a memory die access in R320's codes (R320). -/
def dsOfMem (st : Nat) : Nat :=
  if st = memOk then dsOk else if st = memCorrected then dsCorrected else if st = memUncorr then dsUncorr else dsRefused

/-- Which of two statuses of one access it ends with. -/
def dsWorse (x y : Nat) : Nat := if dsDone x then (if dsDone y then max x y else y) else x

/-- STATE codes (R311). -/
def lineGood : BitVec 4 := 10
def linePoison : BitVec 4 := 5

/-! ## Addresses (R94, R309) -/

def dsKeyOf (addr : Nat) : Nat := bitsOf addr 52 4
def dsOffset (addr : Nat) : Nat := addr % 2 ^ 52
/-- The first LPDDR5X offset. -/
def extFirst : Nat := 2 ^ 36

/-- MC_CFG as a controller's start sampled it. -/
def Dev.mcCfg (d : Dev) (w : Nat) : Word := d.ext.cfg.at w (d.reg (mcBase w + Reg.MC_CFG.off))

/-- The raw capacity of one channel, in bytes (R308, R335). -/
def Dev.chanBytes (d : Dev) : Nat := 2 ^ (30 + fget (d.mcCfg 0) Reg.MC_CFG.DENSITY)

/-- The visible capacity: seven eighths of 16 channels (R308). -/
def Dev.visible (d : Dev) : Nat := 14 * d.chanBytes

/-- Where a data-space offset lies. -/
inductive DsTarget where
  | memory | external (v : Nat) | nowhere
deriving DecidableEq, Repr

def Dev.dsTarget (d : Dev) (a : Nat) : DsTarget :=
  if a < 2 ^ 30 then .memory
  else if extFirst ≤ a ∧ a < extFirst + d.visible then .external (a - extFirst)
  else .nowhere

/-- The channel of a visible offset, and the controller that serves it. -/
def extChannel (v : Nat) : Nat := bitsOf v 8 4
def extController (v : Nat) : Nat := extChannel v / 8

/-- Where the byte of a visible offset lies in its channel (R309). A line is stored under its visible offset: the map is one to one
(`extPlace_inj` in Laws), and a channel address is seen by no command but a start with another density (`Dev.densityMoved`). -/
def extChanAddr (v : Nat) : Nat := bitsOf v 12 40 * 256 + v % 256

/-- Where the 8 metadata bytes of a line lie in its channel (R309), above the data of every visible line. -/
def Dev.extMetaAddr (d : Dev) (v : Nat) : Nat := 7 * d.chanBytes / 8 + extChanAddr v / 64 * 8

/-! ## Stored lines -/

/-- The first 40 bits of the CMAC under K3 over a line as stored, its address and the key identifier (R318). -/
def lineTag (k3 : BitVec 256) (k n : Nat) (data : Line) : BitVec 40 :=
  BitVec.ofNat 40 (bigNum ((cmac k3 (smallBytes 64 data.toNat ++ smallBytes 16 (n % 2 ^ 46 + k * 2 ^ 48))).take 5))

/-- A line as the devices hold it. -/
def foundExtLine (k n : Nat) : ExtLine :=
  { data := Config.foundLine k n, errLo := (Config.foundErr k n).1, errHi := (Config.foundErr k n).2, tag := Config.foundTag k n
    state := Config.foundState k n }

/-- A line that no write has reached. -/
def fillLine (f : ExtFill) (n : Nat) : ExtLine :=
  match f with
  | .asFound k => foundExtLine k n
  | .poison k => { foundExtLine k n with state := linePoison }
  | .zeros k3 => { tag := lineTag k3 0 n 0 }

def Dev.extFill (d : Dev) (n : Nat) : ExtFill := d.ext.fill.at (extChannel (64 * n)) (.asFound 0)

def Dev.extLine (d : Dev) (n : Nat) : ExtLine := (d.ext.lines.look n).getD (fillLine (d.extFill n) n)

def Dev.putLine (d : Dev) (n : Nat) (l : ExtLine) : Dev :=
  d.modExt fun x =>
    { x with lines := match d.extFill n with
        | .zeros k3 => x.lines.set n (fillLine (.zeros k3) n) l
        | _ => x.lines.put n l }

/-- A bit of a line or of its metadata word is upset (R311). -/
def ExtLine.upset (l : ExtLine) (i : Nat) : ExtLine :=
  let bit (w n : Nat) : BitVec w := BitVec.ofNat w (2 ^ n)
  if i < 256 then { l with errLo := l.errLo ^^^ bit 266 i }
  else if i < 512 then { l with errHi := l.errHi ^^^ bit 266 (i - 256) }
  else if i < 522 then { l with errLo := l.errLo ^^^ bit 266 (i - 256) }
  else if i < 532 then { l with errHi := l.errHi ^^^ bit 266 (i - 266) }
  else if i < 572 then { l with tag := l.tag ^^^ bit 40 (i - 532) }
  else if i < 576 then { l with state := l.state ^^^ bit 4 (i - 572) }
  else l

/-- What befell a line before the access that finds it. -/
def Dev.wearLine (d : Dev) (n : Nat) (f : Found) : Dev :=
  if f.upsets = [] ∧ f.tamper = none then d
  else
    let l := match f.tamper with
      | some t => { data := t.data, tag := t.tag, state := t.state }
      | none => d.extLine n
    d.putLine n (f.upsets.foldl ExtLine.upset l)

/-! ## Tweaks and keys -/

/-- An enabled region holds a visible offset (R313, R336). -/
def Dev.regionHolds (d : Dev) (v r : Nat) : Bool :=
  let b := d.fld cryptoBase (Reg.REG_BASE.BASE.shift (16 * r))
  let n := d.fld cryptoBase (Reg.REG_SIZE.SIZE.shift (16 * r))
  d.flag cryptoBase (Reg.REG_LBN_HI.EN.shift (16 * r)) && decide (b ≤ v / 4096 ∧ v / 4096 < b + n)

/-- The tweak of a line (R313, R314): the logical block number of its sector, and the number of its first block in the sector. -/
def Dev.tweak (d : Dev) (v : Nat) : Nat × Nat :=
  match (List.range 16).find? (d.regionHolds v) with
  | some r =>
    let first := d.fld cryptoBase (Reg.REG_LBN_LO.LBN_LO.shift (16 * r)) + d.fld cryptoBase (Reg.REG_LBN_HI.LBN_HI.shift (16 * r)) * 2 ^ 32
    let sector := if d.flag cryptoBase (Reg.REG_LBN_HI.SECTOR.shift (16 * r)) then 512 else 4096
    (first + (v - 4096 * d.fld cryptoBase (Reg.REG_BASE.BASE.shift (16 * r))) / sector, v % sector / 16)
  | none => (v / 4096, v % 4096 / 16)

/-- The keys in a slot of the engine. -/
def Dev.keys (d : Dev) (k : Nat) : KeySet := d.ext.slots.at k {}

/-- The STATE of a key slot. -/
def Dev.slotState (d : Dev) (k : Nat) : Nat := fget (d.reg (cryptoBase + Reg.KEY_SLOT.off + 4 * k)) Reg.KEY_SLOT.STATE

/-- R316 refuses an access. -/
def Dev.keyRefused (d : Dev) (cls k : Nat) : Bool :=
  d.slotState 0 == 0 || d.slotState k != 1 ||
    (k != 0 && (d.ext.scanLocked ||
      !(decide (cls < 3) && bitOf (d.reg (cryptoBase + Reg.KEY_SLOT.off + 4 * k)).toNat (16 + cls))))

/-- A unit serves an access: new ones while it runs, accepted ones while it drains as well (R331). -/
def Dev.serves (d : Dev) (accepted : Bool) (b : Nat) : Bool := d.runs b || (accepted && d.ust b == .draining)

/-- The engine, the controller or the channel turns an access away (R320, R329, R331, R497). -/
def Dev.extRefused (d : Dev) (v : Nat) (accepted : Bool := false) : Bool :=
  let mc := mcBase (extController v)
  d.kryup.warm || !d.serves accepted cryptoBase || !d.serves accepted mc || d.proving mc ||
    bitOf (d.fld mc Reg.MC_STATUS.FAULTED) (extChannel v % 8)

/-- What keeps an access from its line: REFUSED before KEY. -/
def Dev.extBar (d : Dev) (cls k v : Nat) (accepted : Bool := false) : Option Nat :=
  if d.extRefused v accepted then some dsRefused else if d.keyRefused cls k then some dsKey else none

/-- What SEC-DED finds in the halves of a line (R311). -/
def ExtLine.check (l : ExtLine) : Nat :=
  if errStatus l.errLo = memUncorr ∨ errStatus l.errHi = memUncorr then dsUncorr
  else if l.errLo = 0 ∧ l.errHi = 0 then dsOk
  else dsCorrected

/-- A line with what SEC-DED corrects put right. -/
def ExtLine.mended (l : ExtLine) : ExtLine := { l with errLo := 0, errHi := 0 }

/-- Whether a line verifies under the K3 of a slot (R318, R320): POISON, then UNCORR, then TAG. -/
def ExtLine.verify (l : ExtLine) (k3 : BitVec 256) (k n : Nat) : Nat :=
  if l.state = linePoison then dsPoison
  else if l.check = dsUncorr then dsUncorr
  else if l.state ≠ lineGood ∨ l.tag ≠ lineTag k3 k n l.data then dsTag
  else l.check

/-! ## What an access records (R325) -/


/-- CRY_LOG takes a failed access when it holds none and the crypto engine is on (R65). -/
def Dev.cryLog (d : Dev) (cls k v st : Nat) : Dev :=
  if d.ust cryptoBase = .off ∨ d.flag cryptoBase Reg.CRY_LOG_ADDR.VALID then d
  else
    (d.setReg (cryptoBase + Reg.CRY_LOG_ADDR.off) (BitVec.ofNat 32 (bitsOf v 6 26 * 64 + 1))).setReg (cryptoBase + Reg.CRY_LOG_INFO.off)
      (BitVec.ofNat 32 (k * 2 ^ 28 + cls * 2 ^ 25 + st * 2 ^ 22 + bitsOf v 32 5 * 2 ^ 8 + extChannel v * 2 ^ 4))

/-- The event, the counter, the log and the cause of an outcome; MEM_INTEGRITY is cause 0x0A and MEM_UNCORR 0x0B. -/
def Dev.extNote (d : Dev) (cls k v st : Nat) : Dev :=
  let mc := mcBase (extController v)
  let alarm (d : Dev) (cause : Nat) : Dev :=
    let d := d.cryLog cls k v st
    d.offer cause (d.reg (cryptoBase + Reg.CRY_LOG_INFO.off))
  if st = dsCorrected then (d.count mc Reg.MC_SEC_COUNT.COUNT).raise mc Reg.MC_EVENT.SEC
  else if st = dsKey then (d.count cryptoBase Reg.KEY_REFUSE_COUNT.COUNT).raise cryptoBase Reg.CRY_EVENT.KEY
  else if st = dsPoison then (d.count cryptoBase Reg.POISON_COUNT.COUNT).raise cryptoBase Reg.CRY_EVENT.POISON
  else if st = dsTag then alarm ((d.count cryptoBase Reg.TAG_FAIL_COUNT.COUNT).raise cryptoBase Reg.CRY_EVENT.TAG) 0x0A
  else if st = dsUncorr then
    alarm (((d.count mc Reg.MC_DED_COUNT.COUNT).raise mc Reg.MC_EVENT.DED).raiseIf (cls != clsScrub) cryptoBase Reg.CRY_EVENT.UNCORR) 0x0B
  else d

/-! ## Accesses to a line of LPDDR5X -/

/-- A line through the cipher (R312): enciphered, or back. -/
def Dev.crypt (d : Dev) (back : Bool) (k v : Nat) (x : Line) : Line :=
  if k = 0 then x
  else
    let (i, j) := d.tweak v
    BitVec.ofNat 512 (smallNum (xts back (d.keys k).k1 (d.keys k).k2 i j (smallBytes 64 x.toNat)))

/-- A line's plaintext as an access sees it. -/
def Dev.decrypt (d : Dev) (k v : Nat) (l : ExtLine) : Line := d.crypt true k v l.data

/-- A line as a write stores it, with fresh ECC and TAG (R322). -/
def Dev.sealLine (d : Dev) (k v : Nat) (state : BitVec 4) (plain : Line) : ExtLine :=
  let c := d.crypt false k v plain
  { data := c, tag := lineTag (d.keys k).k3 k (v / 64) c, state := state }

/-- Whether a line verifies for an access under a key identifier. -/
def Dev.verify (d : Dev) (k v : Nat) (l : ExtLine) : Nat := l.verify (d.keys k).k3 k (v / 64)

/-- A read (R321): zeros when it fails; a corrected line is written back. -/
def Dev.extRead (d : Dev) (cls k v : Nat) (f : Found) (accepted : Bool := false) : Dev × Nat × Line :=
  match d.extBar cls k v accepted with
  | some st => (d.extNote cls k v st, st, 0)
  | none =>
    let d := d.wearLine (v / 64) f
    let l := d.extLine (v / 64)
    let st := d.verify k v l
    let d := if st = dsCorrected then d.putLine (v / 64) l.mended else d
    (d.extNote cls k v st, st, if dsDone st then d.decrypt k v l else 0)

/-- A full-line write (R322). -/
def Dev.extWriteFull (d : Dev) (cls k v : Nat) (poison : Bool) (data : Line) (accepted : Bool := false) : Dev × Nat :=
  match d.extBar cls k v accepted with
  | some st => (d.extNote cls k v st, st)
  | none => (d.putLine (v / 64) (d.sealLine k v (if poison then linePoison else lineGood) data), dsOk)

/-- The bytes of a line with those under a mask replaced. -/
def mergeLine (old new : Line) (mask : Nat) : Line :=
  BitVec.ofNat 512 (ofBytes ((List.range 64).map fun i => if bitOf mask i then byteOf new.toNat i else byteOf old.toNat i))

/-- A partial write (R323): read, verified under its key, merged and written, or left unchanged. -/
def Dev.extWritePart (d : Dev) (cls k v mask : Nat) (data : Line) (f : Found) (accepted : Bool := false) : Dev × Nat :=
  match d.extBar cls k v accepted with
  | some st => (d.extNote cls k v st, st)
  | none =>
    let d := d.wearLine (v / 64) f
    let l := d.extLine (v / 64)
    let st := d.verify k v l
    let d := if dsDone st then d.putLine (v / 64) (d.sealLine k v lineGood (mergeLine (d.decrypt k v l) data mask)) else d
    (d.extNote cls k v st, st)

/-! ## Accesses to data space (R94, R96) -/

/-- The row word in a half of a line. -/
def lineHalf (l : Line) (i : Nat) : RowWord := l.extractLsb' (256 * i) 256

/-- The status with which the decode ends an access; none where it goes on. The spec names no status for a memory-die access under a
key but for the movers and the debug window: the model gives DECODE (DESIGN CHOICE, log entry 94). -/
def Dev.dsBar (d : Dev) (cls addr : Nat) : Option Nat :=
  let k := dsKeyOf addr
  match d.dsTarget (dsOffset addr) with
  | .nowhere => some dsDecode
  | .memory => if k = 0 then none else some (if cls = clsMover ∨ cls = clsDebug then dsKey else dsDecode)
  | .external _ => none

/-- A data-space requester at a base port (R248). -/
def dsUser (cls : Nat) : BaseUser := if cls = clsRing then .ring else .master

/-- A read of the 64 bytes at an address whose low 6 bits do not count; of the memory die only the row words that the
mask of needed bytes names are read. -/
def Dev.dsRead (d : Dev) (cls addr need : Nat) (f : Found) (accepted : Bool := false) : Dev × Nat × Line :=
  let a := dsOffset addr / 64 * 64
  match d.dsBar cls addr with
  | some st => (d, st, 0)
  | none =>
    match d.dsTarget a with
    | .external v => d.extRead cls (dsKeyOf addr) v f accepted
    | _ =>
      let half (d : Dev) (i : Nat) : Dev × Nat × RowWord :=
        if bitsOf need (32 * i) 32 = 0 then (d, memOk, 0) else d.baseRead (dsUser cls) (a / 32 + i)
      let (d, s0, w0) := half d 0
      let (d, s1, w1) := half d 1
      (d, dsWorse (dsOfMem s0) (dsOfMem s1), w1 ++ w0)

/-- A write of the bytes under a mask. One with no byte enable set completes with no access (R323). -/
def Dev.dsWrite (d : Dev) (cls addr mask : Nat) (poison : Bool) (data : Line) (f : Found) (accepted : Bool := false) :
    Dev × Nat :=
  let a := dsOffset addr / 64 * 64
  if mask % 2 ^ 64 = 0 then (d, dsOk)
  else
    match d.dsBar cls addr with
    | some st => (d, st)
    | none =>
      match d.dsTarget a with
      | .external v =>
        if mask % 2 ^ 64 = 2 ^ 64 - 1 then d.extWriteFull cls (dsKeyOf addr) v poison data accepted
        else d.extWritePart cls (dsKeyOf addr) v mask data f accepted
      | _ =>
        let (d, s0) := d.baseWrite (dsUser cls) (a / 32) (bitsOf mask 0 32) (lineHalf data 0)
        let (d, s1) := d.baseWrite (dsUser cls) (a / 32 + 1) (bitsOf mask 32 32) (lineHalf data 1)
        (d, dsWorse (dsOfMem s0) (dsOfMem s1))

/-- A read of the aligned 32 bytes at an address: a slot or a descriptor. -/
def Dev.dsRead32 (d : Dev) (cls addr : Nat) : Dev × Nat × RowWord :=
  let i := addr / 32 % 2
  let (d, st, l) := d.dsRead cls addr ((2 ^ 32 - 1) * 2 ^ (32 * i)) {}
  (d, st, lineHalf l i)

/-- A write of the aligned 32 bytes at an address. -/
def Dev.dsWrite32 (d : Dev) (cls addr : Nat) (w : RowWord) : Dev × Nat :=
  let i := addr / 32 % 2
  d.dsWrite cls addr ((2 ^ 32 - 1) * 2 ^ (32 * i)) false (w ++ w) {}

/-! ## What the devices hold (R327, R328) -/

/-- Sets what every line of some channels holds. -/
def Dev.fillExt (d : Dev) (chans : List Nat) (f : ExtFill) : Dev :=
  d.modExt fun x =>
    { x with lines := x.lines.keep fun n => !chans.contains (extChannel (64 * n)), fill := chans.foldl (fun m c => m.put c f) x.fill }

/-- The channels of a controller. -/
def mcChannels (w : Nat) : List Nat := (List.range 8).map fun c => 8 * w + c

/-- A controller's devices lose their contents. -/
def Dev.extLost (d : Dev) (w : Nat) : Dev :=
  ((d.fillExt (mcChannels w) (.asFound (d.free + 1))).modExt fun x => { x with retained := x.retained.del w, cfg := x.cfg.del w }).drew

/-- A controller starts with another raw capacity of its channels than before, in bytes: the metadata words lie elsewhere (R309), and
what stands there, like what lay above the data of the smaller capacity, is left open (log entry 129). -/
def Dev.densityMoved (d : Dev) (w old new : Nat) : Dev :=
  if old = new then d
  else
    let k := d.free + 1
    let mine (n : Nat) : Bool := decide (extController (64 * n) = w)
    let kept (n : Nat) : Bool := decide (extChanAddr (64 * n) < 7 * min old new / 8)
    (d.modExt fun x =>
      { x with
        lines := ⟨(x.lines.items.filter fun e => !mine e.1 || kept e.1).map fun e =>
          if mine e.1 then (e.1, { foundExtLine k e.1 with data := e.2.data }) else e⟩
        fill := (mcChannels w).foldl (fun m c => m.put c (.asFound k)) x.fill }).drew

/-- What outlasts a device reset, a sleep and a power cycle in the external memory and the key store. -/
def ExtRec.lasting (x : ExtRec) : ExtRec :=
  { lines := x.lines, fill := x.fill, keyStore := x.keyStore, keySets := x.keySets, keyPerm := x.keyPerm }

/-- The lines that a controller's loop tests in each channel (R497): the first index, and how many; none lies beyond 7C/8. -/
def Dev.loopSpan (d : Dev) (w : Nat) : Nat × Nat :=
  let first := d.fld (mcBase w) Reg.PRF_ADDR.VALUE
  (first, min (first + max 1 (d.fld (mcBase w) Reg.PRF_LINES.VALUE)) (d.visible / 1024) - first)

/-- The place of a pass's `k`-th line: its channel in the controller and its line index. A pass goes through the channels line by line
(DESIGN CHOICE, log entry 73). -/
def loopPlace (first k : Nat) : Nat × Nat := (k % 8, first + k / 8)

/-- The number, in visible order, of a line of a controller's channel (R309). -/
def loopLine (w : Nat) (p : Nat × Nat) : Nat := p.2 / 4 * 64 + (8 * w + p.1) * 4 + p.2 % 4

/-- A line that a controller's DRAM loop has written, by whether it has been marked: one not yet marked fails its tag when next read
(R497), which the model holds as a STATE that is INVALID. -/
def loopMark (poison : Bool) : ExtLine := { state := if poison then linePoison else 0 }

/-- The lines that a controller's DRAM loop has written are marked POISON when it stops, and otherwise no longer verify (R497). -/
def Dev.loopLines (d : Dev) (w : Nat) (poison : Bool) : Dev :=
  let (first, n) := d.loopSpan w
  if d.proofDepth (mcBase w) = some 3 then
    d.each (List.range (min (d.proof.at (mcBase w) {}).pos (8 * n))) fun d k =>
      d.putLine (loopLine w (loopPlace first k)) (loopMark poison)
  else d

/-- A controller places its devices in self-refresh before its domain turns off (R328). -/
def Dev.extRetain (d : Dev) (w : Nat) : Dev :=
  if d.ext.cfg.has w then d.modExt fun x => { x with retained := x.retained.put w 1 } else d

/-- What INIT selects at a start (R327, R335): interface 1 has only bit [8], where 1 is ZERO. -/
def Dev.initMode (d : Dev) (w : Nat) : Nat :=
  let v := fget (d.mcCfg w) Reg.MC_CFG.INIT
  if d.fld (mcBase w) Reg.UNIT_VER.MAJOR = 1 then (if v % 2 = 1 then 2 else 0) else v

/-! ## The ends of a mover's chain (R332 to R334) -/

/-- The chain stops. -/
def Dev.moverStop (d : Dev) (m : Nat) : Dev :=
  (d.modExt fun x => { x with chains := x.chains.del m }).setFld (moverBase m) Reg.MV_STATUS.BUSY 0

/-- The chain stops on an error. -/
def Dev.moverErr (d : Dev) (m err : Nat) : Dev :=
  ((d.moverStop m).setFld (moverBase m) Reg.MV_STATUS.ERR err).raise (moverBase m) Reg.MV_EVENT.CHAIN_ERR

/-- STAT is written back into a descriptor. -/
def Dev.moverStat (d : Dev) (desc st : Nat) : Dev × Nat :=
  let i := desc % 64 + 31
  d.dsWrite clsMover desc (2 ^ i) false (BitVec.ofNat 512 (st * 2 ^ (8 * i))) {}

def mvOk : Nat := 0
def mvBusError : Nat := 1
def mvKey : Nat := 2
def mvAborted : Nat := 3
def mvBadDesc : Nat := 4
def mvRejected : Nat := 5
def mvDescRead : Nat := 6

/-- IRQ of the descriptor that a mover is executing, as it was read (R332). -/
def Dev.descIrq (d : Dev) (desc : Nat) : Bool :=
  match d.dsTarget (dsOffset desc) with
  | .memory => (d.wordRead (d.physWord (dsOffset desc / 32))).toNat.testBit 126
  | .external v => (lineHalf (d.extLine (v / 64)).data (desc / 32 % 2)).toNat.testBit 126
  | .nowhere => false

/-- The running descriptor ends ABORTED (R334, R77). -/
def Dev.moverAbort (d : Dev) (m : Nat) : Dev :=
  match d.ext.chains.look m with
  | some c =>
    let irq := d.descIrq c.desc
    ((d.moverStat c.desc mvAborted).1.raiseIf irq (moverBase m) Reg.MV_EVENT.DESC_DONE).moverErr m mvAborted
  | none => d

/-! ## Outstanding requests of the fabric data ports (R326, R331) -/

/-- The outstanding requests of a port. -/
def Dev.fdpWaiting (d : Dev) (port : Nat) : List FdpReq := d.ext.fdpQueue.at port []

/-- A request whose line a unit serves: the engine serves every line of LPDDR5X. -/
def Dev.reqOf (d : Dev) (b : Nat) (r : FdpReq) : Bool :=
  match d.dsTarget (dsOffset r.addr) with
  | .external v => b == cryptoBase || b == mcBase (extController v)
  | _ => false

/-- A unit has requests to serve. -/
def Dev.reqsLeft (d : Dev) (b : Nat) : Bool := (List.range 4).any fun p => (d.fdpWaiting p).any fun r => !r.refused && d.reqOf b r

/-- The outstanding requests of a unit end REFUSED. -/
def Dev.refuseReqs (d : Dev) (b : Nat) : Dev :=
  d.modExt fun x =>
    { x with fdpQueue := ⟨x.fdpQueue.items.map fun e => (e.1, e.2.map fun r => { r with refused := r.refused || d.reqOf b r })⟩ }

end Sys2Proof.Machine
end

