-- ==== Sys2Proof/Machine/RingOps.lean ====
section
/-!
DEFINITION. What the commands on rings share: slots and descriptors (R259, R260), the occupancies of the tally tree (R280,
R284), input FIFOs and overflow records (R267, R268), writes into rings and their losses (R263, R271, R272), jump flushes
(R273) and fragments (R278, R279).
-/
namespace Sys2Proof.Machine

/-! ## Slots (R259) -/

/-- A slot word. -/
def slotWord (cross : Nat) (late gap cont hdr : Bool) (tag payload : Nat) : RowWord :=
  BitVec.ofNat 256 (cross % 2 ^ 48 + bit01 late * 2 ^ 48 + bit01 gap * 2 ^ 49 + bit01 cont * 2 ^ 50 + bit01 hdr * 2 ^ 51 +
    tag % 256 * 2 ^ 56 + payload * 2 ^ 64)

def slotCross (w : RowWord) : Nat := bitsOf w.toNat 0 48
def slotLate (w : RowWord) : Bool := bitOf w.toNat 48
def slotGap (w : RowWord) : Bool := bitOf w.toNat 49
def slotFirst (w : RowWord) : Nat := bitsOf w.toNat 96 48
def slotLast (w : RowWord) : Nat := bitsOf w.toNat 144 48

/-! ## Descriptors (R260) -/

def Dev.desc (d : Dev) (r : Nat) : Desc := d.rings.desc.at r {}
def Dev.putDesc (d : Dev) (r : Nat) (x : Desc) : Dev := d.modRings fun g => { g with desc := g.desc.set r {} x }
def ringEngine (r : Nat) : Nat := r / 16384
def ringLocal (r : Nat) : Nat := r % 16384

/-- The occupancy of a ring, 0 unless it is OPEN: the leaf's SUM. -/
def Desc.occ (x : Desc) : Nat := if x.state = .opened then (x.wr + 2 ^ 32 - x.age) % 2 ^ 32 else 0
def Desc.cap (x : Desc) : Nat := 2 ^ x.logCap
/-- The data-space address of slot `j`, with the key identifier of BASE. -/
def Desc.slotAddr (x : Desc) (j : Nat) : Nat := x.base + 32 * (j % x.cap)

/-- Rings of an engine that its directory lists, by local index. -/
def Dev.ringsOf (d : Dev) (e : Nat) : List Nat :=
  (d.rings.desc.keys.filter fun r => ringEngine r == e).map ringLocal
def ringId (e l : Nat) : Nat := e * 16384 + l

/-! ## The tally tree (R280, R284) -/

/-- The interface in force of a ring engine. -/
def Dev.ringMajor (d : Dev) (e : Nat) : Nat := d.fld (ringBase e) Reg.UNIT_VER.MAJOR

/-- A leaf's NEAR_FULL. -/
def Dev.leafNear (d : Dev) (r : Nat) : Bool :=
  let x := d.desc r
  x.state == .opened && decide (max 1 (d.fld (ringBase (ringEngine r)) Reg.ENG_CTRL.NF) * x.cap ≤ 16 * x.occ)

/-- The engine's exact total (ENG_OCC). -/
def Dev.engOcc (d : Dev) (e : Nat) : Nat := ((d.ringsOf e).map fun l => (d.desc (ringId e l)).occ).foldl (· + ·) 0

/-- The engine root's NEAR_FULL; every node is STALE from the start of a full rebuild. -/
def Dev.engNear (d : Dev) (e : Nat) : Bool :=
  let lim := d.fld (ringBase e) Reg.ENG_OCC_LIMIT.LIMIT
  (d.engine e).frozen.isSome || (d.engine e).stale.items != [] || decide (lim ≠ 0 ∧ lim ≤ min (d.engOcc e) 0x3FFFFFFF) || (d.ringsOf e).any fun l => d.leafNear (ringId e l)

/-- RING_BUSY of an engine (R284). -/
def Dev.ringBusy (d : Dev) (e : Nat) : Bool :=
  let b := ringBase e
  let t := d.fld b Reg.ENG_CTRL.ACCQ_THRESH
  d.flag b Reg.ENG_CTRL.BUSY_EN &&
  (decide (d.fld b Reg.FIFO_CFG.THRESH < (d.engine e).fifo.length) || decide (t ≠ 0 ∧ t ≤ (d.engine e).accepts.length) ||
    d.engNear e || !d.runs b)

/-- RING_BUSY of an engine at this instant counts for STK_BUSY (R298). -/
def Dev.seeBusy (d : Dev) (e : Nat) : Dev := if d.ringBusy e then d.busySees busyRings else d

/-- ENG_STATUS as it reads. -/
def Dev.engStatus (d : Dev) (e : Nat) : Word :=
  let r := d.engine e
  let gap := match r.gap with | .closed => 0 | .opened => 1 | .writing => 2
  BitVec.ofNat 32 (bit01 (d.ringBusy e) * 2 ^ 31 + bit01 (d.engNear e) * 2 ^ 30 + bit01 r.frozen.isSome * 2 ^ 29 +
    bit01 r.flushing * 2 ^ 28 + gap * 2 ^ 26 + r.accepts.length * 2 ^ 16 + r.fifo.length)

/-- The key of a node: level 0 for leaves to 4 for the engine root. -/
def nodeKey (level node : Nat) : Nat := level * 16384 + node

/-- Local rings below a node of a level, 0 for leaves to 4 for the engine root. -/
def nodeSpan (level : Nat) : Nat := if level = 0 then 1 else if level = 1 then 16 else if level = 2 then 256 else if level = 3 then 4096 else 16384

/-- What the tree window reads of a node (R288): SUM, STALE and NEAR_FULL; `rebuilt` tells whether a running rebuild has
passed the node. -/
def Dev.treeNode (d : Dev) (e level node : Nat) (rebuilt : Bool) : Nat × Bool × Bool :=
  let n := nodeSpan level
  let here := (List.range n).map fun i => node * n + i
  let ls := (d.ringsOf e).filter fun l => l / n == node
  let near := (d.engine e).stale.keys.any fun k => decide (k / 16384 ≤ level) && k % 16384 * nodeSpan (k / 16384) / n == node
  match (d.engine e).frozen, rebuilt with
  | some f, false => (min 0x3FFFFFFF ((here.map f.num).foldl (· + ·) 0), true, true)
  | _, _ =>
    if (d.engine e).stale.has (nodeKey level node) then (Config.freeAt d.free (nodeKey level node) % 2 ^ 30, true, true)
    else
    let sum := min 0x3FFFFFFF ((ls.map fun l => (d.desc (ringId e l)).occ).foldl (· + ·) 0)
    let lim := d.fld (ringBase e) Reg.ENG_OCC_LIMIT.LIMIT
    (sum, false, near || (ls.any fun l => d.leafNear (ringId e l)) || (decide (level = 4) && decide (lim ≠ 0 ∧ lim ≤ sum)))

/-- A full rebuild starts: every node is STALE and holds what it held (R283). -/
def Dev.rebuild (d : Dev) (e : Nat) : Dev :=
  let f := (d.ringsOf e).foldl (fun m l => m.setNum l (d.desc (ringId e l)).occ) ({} : SMap Nat)
  (d.modEngine e fun r => { r with frozen := some f }).seeBusy e

/-- Node words of an engine are struck; no update has met them yet. -/
def Dev.treeStruck (d : Dev) (e : Nat) (l : List TreeUpset) : Dev :=
  if l = [] then d
  else d.modEngine e fun r =>
    { r with upset := l.foldl (fun m u =>
               let k := nodeKey u.level (u.node % (16384 / nodeSpan u.level))
               m.put k (if u.double then 2 else max 1 (m.num k))) r.upset }

/-- An update checks a node's word (R281, R282): a struck bit is corrected and written back; a word that is uncorrectable, or whose
residue differs, makes the node STALE until it is rebuilt. -/
def Dev.nodeUpdate (d : Dev) (e k : Nat) : Dev :=
  let b := ringBase e
  match (d.engine e).upset.look k with
  | none => d
  | some n =>
    let d := d.modEngine e fun r => { r with upset := r.upset.del k }
    if n = 1 then (d.count b Reg.TREE_SEC_COUNT.COUNT).raise b Reg.ENG_EVENT.TREE_SEC
    else
      let d := d.modEngine e fun r => { r with stale := r.stale.put k (if k < 16384 then 1 else 17) }
      (((d.count b Reg.TREE_DED_COUNT.COUNT).raise b Reg.ENG_EVENT.TREE_DED).faultBits b (2 ^ 10)).seeBusy e

/-- A change of a leaf goes up to the engine root; a STALE node ignores it (R283). -/
def Dev.treeUpdate (d : Dev) (r : Nat) : Dev :=
  let e := ringEngine r
  if (d.engine e).frozen.isSome || (d.engine e).upset.items == [] then d
  else d.each (List.range 5) fun d level =>
    let k := nodeKey level (ringLocal r / nodeSpan level)
    if (d.engine e).stale.has k then d else d.nodeUpdate e k

/-- A descriptor changes; where its ring's occupancy does, the tree is updated. -/
def Dev.setDesc (d : Dev) (r : Nat) (x : Desc) : Dev :=
  let was := (d.desc r).occ
  let d := d.putDesc r x
  if x.occ = was then d else d.treeUpdate r

/-- A STALE node whose children are not comes one fabric cycle nearer to its rebuild, which ends in the last of them (R283). -/
def Dev.nodeRebuild (d : Dev) (e k : Nat) : Dev :=
  let r := d.engine e
  let level := k / 16384
  let child := r.stale.keys.any fun c => c / 16384 + 1 == level && c % 16384 * nodeSpan (level - 1) / nodeSpan level == k % 16384
  if child then d
  else d.modEngine e fun r =>
    { r with stale := if r.stale.num k ≤ 1 then r.stale.del k else r.stale.put k (r.stale.num k - 1)
             upset := r.upset.del k }

/-- A fabric cycle of an engine's tree. -/
def Dev.treeCycle (d : Dev) (e : Nat) : Dev := d.each (d.engine e).stale.keys fun d k => d.nodeRebuild e k

/-! ## Dead rings (R263) -/

/-- A ring becomes DEAD. -/
def Dev.ringDead (d : Dev) (r : Nat) : Dev :=
  let e := ringEngine r
  let b := ringBase e
  if (d.desc r).state = .dead then d
  else
    let d := d.setDesc r { d.desc r with state := .dead }
    let d := (d.raise b Reg.ENG_EVENT.RING_DEAD).faultBits b (2 ^ 8)
    if d.flag b Reg.DEAD_LOG.VALID then d
    else d.setReg (b + Reg.DEAD_LOG.off) (BitVec.ofNat 32 (2 ^ 31 + ringLocal r))

/-- A descriptor is found uncorrectable (R263, R282). -/
def Dev.descDead (d : Dev) (r : Nat) : Dev :=
  (d.count (ringBase (ringEngine r)) Reg.DESC_DED_COUNT.COUNT).ringDead r

/-! ## Jump flushes (R273) -/

/-- A ring's flush. -/
def Dev.flushRing (d : Dev) (r : Nat) : Dev :=
  let x := d.desc r
  (d.setDesc r { x with age := x.wr, ckWr := x.wr, ckCross := (d.engine (ringEngine r)).flushTo }).modEngine (ringEngine r) fun g =>
    { g with flushed := g.flushed.put (ringLocal r) 1 }

/-- The writer or the extractor reaches a ring that a flush pass has not yet visited. -/
def Dev.flushFirst (d : Dev) (r : Nat) : Dev :=
  let g := d.engine (ringEngine r)
  if g.flushing && !g.flushed.mem (ringLocal r) then d.flushRing r else d

/-- Marks the last fragment of the accept under extraction TRUNCATED. -/
def truncateLast : List Frag → List Frag
  | [] => []
  | [f] => [{ f with truncated := true }]
  | f :: t => f :: truncateLast t

/-- A jump of the crossing number reaches an engine; `dest` is the new number. -/
def Dev.jumpFlush (d : Dev) (e dest : Nat) : Dev :=
  let b := ringBase e
  if d.ust b = .off then d
  else
    let n := (d.engine e).accepts.length
    let d := (d.countBy b Reg.ACC_DROP_COUNT.COUNT n).raiseIf (n != 0) b Reg.ENG_EVENT.ACC_DROP
    (d.modEngine e fun r =>
      { r with accepts := [], frags := truncateLast r.frags, flushing := true, flushed := {}, flushTo := dest }).raise b Reg.ENG_EVENT.JUMP_FLUSH

/-! ## Input FIFOs and overflow (R267, R268) -/

/-- Discarded slots enter an overflow record. -/
def GapRecord.add (g : GapRecord) (ring n cross : Nat) : GapRecord :=
  if g.count = 0 then { rings := [ring], count := n, oldest := cross, newest := cross }
  else
    { rings := if g.rings.contains ring then g.rings else g.rings ++ [ring]
      count := satAdd 0xFFFFFFFF g.count n
      oldest := if crossBefore cross g.oldest then cross else g.oldest
      newest := if crossBefore g.newest cross then cross else g.newest }

/-- Slots of one message are discarded. -/
def Dev.fifoDiscard (d : Dev) (e ring n cross : Nat) : Dev :=
  let b := ringBase e
  let start := (d.engine e).gap == .closed
  let d := (d.countBy b Reg.FIFO_DISC_COUNT.COUNT n).raiseIf start b Reg.ENG_EVENT.OVERFLOW
  d.modEngine e fun r => { r with gap := if start then .opened else r.gap, record := r.record.add ring n cross }

/-- The slots of one message, or of one push, are offered to an engine: they enter its FIFO together or not at all. -/
def Dev.fifoOffer (d : Dev) (ring : Nat) (cross : Nat) (ws : List RowWord) : Dev :=
  let e := ringEngine ring
  if (d.engine e).fifo.length + ws.length ≤ 4096 then
    (d.modEngine e fun r => { r with fifo := r.fifo ++ ws.map fun w => { ring := ringLocal ring, word := w } }).seeBusy e
  else d.fifoDiscard e (ringLocal ring) ws.length cross

/-! ## Writes into rings (R271, R272) -/

/-- A premature loss. -/
def Dev.premLoss (d : Dev) (e : Nat) : Dev :=
  let b := ringBase e
  (d.count b Reg.PREM_LOSS_COUNT.COUNT).raise b Reg.ENG_EVENT.PREM_LOSS

/-- A slot write fails: its slot is lost, and WR stays. -/
def Dev.slotLost (d : Dev) (e : Nat) : Dev :=
  let b := ringBase e
  ((d.count b Reg.WR_ERR_COUNT.COUNT).raise b Reg.ENG_EVENT.WR_ERR).faultBits b (2 ^ 9)

/-- The aligned 32 bytes at an address of the memory die are one row word, which a ring's access reaches over its base port. -/
def ringInDie (a : Nat) : Bool := decide (dsOffset a < 2 ^ 30) && dsKeyOf a == 0

/-- What an access of a ring ended with: `some true` good, `some false` REFUSED in the memory die, none for any other failure. -/
def slotEnd (inDie : Bool) (st : Nat) : Option Bool :=
  if inDie then (if st = memOk ∨ st = memCorrected then some true else if st = memRefused then some false else none)
  else if dsDone st then some true else none

/-- A slot is written into a ring; a ring that is not OPEN takes none. -/
def Dev.ringWrite (d : Dev) (r : Nat) (w : RowWord) : Dev :=
  let d := d.flushFirst r
  let x := d.desc r
  let e := ringEngine r
  if x.state ≠ .opened then d
  else
    let a := x.slotAddr x.wr
    let (d, st) := if ringInDie a then d.baseWrite .ring (dsOffset a / 32) fullMask w else d.dsWrite32 clsRing a w
    match slotEnd (ringInDie a) st with
    | some true =>
      let full := decide (x.cap ≤ x.occ)
      let y := { x with wr := (x.wr + 1) % 2 ^ 32 }
      let y := if full then { y with age := (x.age + 1) % 2 ^ 32, premValid := true, premLast := d.now } else y
      let d := (d.setDesc r y).seeBusy e
      if full then d.premLoss e else d
    | some false => (d.ringDead r).slotLost e
    | none => d.slotLost e

/-- The gap slot of a record (R259, R268); its TAG is left open by the spec. -/
def GapRecord.slot (g : GapRecord) (tag : Nat) : RowWord :=
  slotWord g.newest false true false false tag (g.count + g.oldest * 2 ^ 32 + g.newest * 2 ^ 80)

/-! ## Direct ring mode (R265, R266) -/

/-- The slots of a HIT's body: 24 bytes each, the rest of the last one 0. -/
def hitSlots (cross : Nat) (late : Bool) (route : Nat) (body : List Payload) : List RowWord :=
  let bytes := body.foldr (fun p n => p.toNat + 2 ^ 64 * n) 0
  (List.range ((8 * body.length + 23) / 24)).map fun i =>
    slotWord cross late false (decide (i ≠ 0)) false route (bitsOf bytes (192 * i) 192)

/-- A HIT received good in direct ring mode; an early one is looked up and not written. -/
def Dev.directHit (d : Dev) (n cross : Nat) (early late : Bool) (route : Nat) (body : List Payload) : Dev :=
  let cfg := (d.lane n).directCfg.toNat
  if !bitOf cfg 0 then d
  else
    let k := min 16 (bitsOf cfg 4 5)
    let entry := d.rings.chanMap.at ((bitsOf cfg 12 17 + route % 2 ^ k) % 131072) 0
    if 2 ^ k ≤ route ∨ !entry.getLsbD 31 then d.count (laneBase n) Reg.DIRECT_DROP_COUNT.COUNT
    else
      let ring := bitsOf entry.toNat 0 18
      let ws := hitSlots cross late route body
      if ws = [] ∨ early then d
      else if d.runs (ringBase (ringEngine ring)) then d.fifoOffer ring cross ws
      else if d.ust (ringBase (ringEngine ring)) = .off then d
      else d.countBy (ringBase (ringEngine ring)) Reg.FIFO_DISC_COUNT.COUNT ws.length

/-! ## Accepts (R275) -/

/-- An accept reaches an engine. -/
def Dev.acceptTo (d : Dev) (e : Nat) (a : Accept) : Dev :=
  let b := ringBase e
  if d.ust b = .off then d
  else if d.runs b && decide ((d.engine e).accepts.length < 256) then
    let a := if d.ringMajor e = 1 then { a with prio := 0 } else a
    (d.modEngine e fun r => { r with accepts := r.accepts ++ [a] }).seeBusy e
  else (d.count b Reg.ACC_DROP_COUNT.COUNT).raise b Reg.ENG_EVENT.ACC_DROP

/-! ## Fragments (R278, R279) -/

/-- The first two blocks of a FRAGMENT (R154). -/
def Frag.block0 (e : Nat) (f : Frag) : Nat :=
  f.cross + e * 2 ^ 48 + bit01 f.last * 2 ^ 56 + bit01 f.truncated * 2 ^ 57 + bit01 f.gap * 2 ^ 58 + bit01 f.late * 2 ^ 59
def Frag.block1 (e : Nat) (f : Frag) : Nat :=
  f.seq % 2 ^ 16 + (16 * e + f.group) * 2 ^ 16 + f.slots.length * 2 ^ 32

/-- The FRAGMENT message of a fragment; its STAMP may hold any value (R149). -/
def Frag.msg (e stamp : Nat) (f : Frag) : Msg :=
  { typ := msgFragment, stamp := stamp % 2 ^ 16, route := f.stream
    body := [BitVec.ofNat 64 (f.block0 e), BitVec.ofNat 64 (f.block1 e)] ++
      f.slots.flatMap fun w => (List.range 4).map fun i => BitVec.ofNat 64 (bitsOf w.toNat (64 * i) 64) }

/-- A fragment's destination: the trunk lane, or none for the readout queue. -/
def Dev.fragLane (d : Dev) (e group : Nat) : Option Nat :=
  if d.flag (ringBase e) (Reg.GRP_DEST.RQ.elem group) then none else some (128 + d.fld (ringBase e) (Reg.GRP_DEST.LANE.elem group))

/-- The size of a readout queue in bytes. -/
def Dev.rqSize (d : Dev) (e : Nat) : Nat :=
  let l := d.fld (ringBase e) Reg.RQ_SIZE.LOG
  2 ^ (if 12 ≤ l ∧ l ≤ 30 then l else 12)

/-- Bytes an entry takes in the readout queue. -/
def Frag.bytes (f : Frag) : Nat := 32 * (f.slots.length + 1)

/-- The readout queue has room for an entry. -/
def Dev.rqRoom (d : Dev) (e : Nat) (f : Frag) : Bool :=
  let b := ringBase e
  let used := (d.fld b Reg.RQ_WR.COUNT + 2 ^ 32 - d.fld b Reg.RQ_RD.COUNT) % 2 ^ 32
  decide (used + f.bytes ≤ d.rqSize e)

/-- Writes the words of an entry in order until one fails. -/
def Dev.rqWrites (d : Dev) (base size : Nat) : Nat → List RowWord → Dev × Bool
  | _, [] => (d, true)
  | pos, w :: t =>
    let (d, st) := d.dsWrite32 clsRing (base + pos % size) w
    if dsDone st then Dev.rqWrites d base size (pos + 32) t else (d, false)

/-- An entry is written into the readout queue (R279). -/
def Dev.rqEntry (d : Dev) (e : Nat) (f : Frag) : Dev :=
  let b := ringBase e
  let base := (d.reg (b + Reg.RQ_BASE_LO.ADDR_LO.off)).toNat + d.fld b Reg.RQ_BASE_HI.ADDR_HI * 2 ^ 32
  let wr := d.fld b Reg.RQ_WR.COUNT
  let head : RowWord := BitVec.ofNat 256 (f.block0 e + f.block1 e * 2 ^ 64 + f.stream * 2 ^ 128)
  let (d, ok) := d.rqWrites base (d.rqSize e) wr (head :: f.slots)
  if ok then (d.setFld b Reg.RQ_WR.COUNT (wr + f.bytes)).count b Reg.FRAG_COUNT.COUNT
  else (d.count b Reg.FRAG_ERR_COUNT.COUNT).raise b Reg.ENG_EVENT.FRAG_ERR

/-- A fragment is sent to its trunk lane, or passes to the readout queue's writer. -/
def Dev.fragOut (d : Dev) (e : Nat) (f : Frag) : Dev :=
  match d.fragLane e f.group with
  | some n => (d.txEnqueue n { msg := f.msg e (Config.freeAt d.free 0), orig := .engine e }).drew
  | none => d.modEngine e fun r => { r with rqWait := r.rqWait ++ [f] }

/-- The discard completions of an engine (R286): the fragment under construction is closed with TRUNCATED and sent. -/
def Dev.ringDiscard (d : Dev) (e : Nat) : Dev :=
  let b := ringBase e
  let r := d.engine e
  let n := r.accepts.length
  let d := d.countBy b Reg.FIFO_DISC_COUNT.COUNT r.fifo.length
  let d := (d.countBy b Reg.ACC_DROP_COUNT.COUNT n).raiseIf (n != 0) b Reg.ENG_EVENT.ACC_DROP
  let d := d.modEngine e fun r =>
    { r with fifo := [], accepts := [], frags := [], gap := .closed, record := {}, writing := {} }
  let d := match r.frags with
    | [] => d
    | f :: _ => d.fragOut e { f with truncated := true, last := true }
  let out := (d.engine e).rqWait
  (d.modEngine e fun r => { r with rqWait := [] }).each out fun d f => if d.rqRoom e f then d.rqEntry e f else d

/-- RESET of an engine (R287): its rings are CLOSED and keep BASE and LOG_CAP; its FIFO, queue and episode are empty. -/
def Dev.ringReset (d : Dev) (e : Nat) : Dev :=
  d.modRings fun g =>
    { g with desc := ⟨g.desc.items.filterMap fun p =>
               if ringEngine p.1 = e then
                 if p.2.base = 0 ∧ p.2.logCap = 0 then none else some (p.1, { base := p.2.base, logCap := p.2.logCap })
               else some p⟩
             engines := g.engines.del e }

end Sys2Proof.Machine
end

