-- ==== Sys2Proof/Machine/Hooks.lean ====
section
/-!
DEFINITION. What a unit of each kind does to its own work and records when its state changes: the discard
completions of R76 and R77, the registers and records that a RESET or a loss of power clears, the settings a start
samples, and the release states of user units (R380, R382). The state table itself is in Units.lean.
-/
namespace Sys2Proof.Machine

/-- U_DISCARD pulses in a user unit's shell, at DRAIN_LIMIT expiry or a fatal cause (R79). -/
def Dev.pulseDiscard (d : Dev) (b : Nat) : Dev :=
  if (unitOf b).blk = .shell then d.modUnits fun r => { r with uDiscard := r.uDiscard.bump b } else d

/-- U_RST pulses in a user unit's shell, on RESET (R79). -/
def Dev.pulseReset (d : Dev) (b : Nat) : Dev :=
  if (unitOf b).blk = .shell then d.modUnits fun r => { r with uRst := r.uRst.bump b } else d

/-- A column's part of a slot in force is at fault: the slot is FAULTED, by an uncorrectable frame word or an ownership conflict of the
column (R192, R226). -/
def Dev.columnPlateBad (d : Dev) (c : Nat) : Bool :=
  (d.forceList (groupOf c)).any fun s =>
    d.pslot (groupOf c) s == slotFaulted && (d.plates.conflict.has (c * 4 + s) || d.plates.uncorr.has (c * 4 + s))

/-- The causes that the T7 gives a user unit of itself: its logic sits in a fenced column, or in one whose plate is faulted (R80). -/
def Dev.shellCauses (d : Dev) (b : Nat) : Nat :=
  if (unitOf b).blk = .shell then
    let cols := (d.user b).occL2 ++ (d.user b).occL4
    bit01 (cols.any d.fenced) * 8 + bit01 (cols.any d.columnPlateBad) * 16
  else 0

/-- The discard completions of a unit's work (R77). -/
def Dev.discardWork (d : Dev) (b : Nat) : Dev :=
  match (unitOf b).blk with
  | .hitLane | .trunkLane => d.laneLeaves (unitOf b).idx
  | .mover => d.moverAbort (unitOf b).idx
  | .mc => (d.loopLines (unitOf b).idx false).refuseReqs b
  | .crypto => d.refuseReqs b
  | .ring => d.ringDiscard (unitOf b).idx
  | .stctl => d.stopTests
  | .serial => d.modSerial (unitOf b).idx fun _ => {}
  | .gpio => if d.runs b then d.modPins fun r => { r with held := d.latchedPins (bankPins (unitOf b).idx) } else d
  | .config => if d.plates.pending.items == [] then d.plateAbandon else d.plateAbandon.raise configBase Reg.PLATE_EVENT.CANCELLED
  | _ => d

/-! ## Fence events of the tiles (R195) -/

/-- A fence of a tile engages or releases; a tile without power records nothing. -/
def Dev.tileRaise (d : Dev) (layer c : Nat) (f : Fld) : Dev :=
  let b := columnBase layer c
  if d.ust b = .off then d else d.raise b f

/-- The fences of a user unit engage or release in every tile that holds its logic. -/
def Dev.fenceNotes (d : Dev) (b : Nat) (f : Fld) : Dev :=
  let u := d.user b
  (d.each u.occL2 fun d c => d.tileRaise 2 c f).each u.occL4 fun d c => d.tileRaise 4 c f

/-- A release that the forme has requested and not yet had is dropped with its start. -/
def Dev.dropRequest (d : Dev) (b : Nat) : Dev :=
  if b = formeBase ∧ !d.load.opened then d.modLoad fun l => { l with target := none, requested := false } else d

/-- The end of a staged release before its reset stage (R380, R382): the unit returns to HELD. -/
def Dev.releaseBack (d : Dev) (b : Nat) : Dev :=
  let d := d.dropRequest b
  match (d.user b).rel with
  | .outputs | .writes =>
    ((d.loadInit b).fenceNotes b Reg.TILE_EVENT.FENCE_ENGAGED).modUser b fun u => { u with rel := .held, relTarget := none, readySeen := false }
  | .held => d.modUser b fun u => { u with relTarget := none }
  | _ => d


/-! ## The start of a lane (R101 to R111, R115, R201) -/

/-- The VCO frequency of a lane group in kHz, rounded to the nearest (R101). -/
def Dev.vcoKHz (d : Dev) (g : Nat) : Nat :=
  let b := laneGroupBase g
  let x := (d.group g).lrefKHz * (d.fld b Reg.LG_PLL_CFG.MI * 2 ^ 24 + d.fld b Reg.LG_PLL_CFG.MF)
  (2 * x + 2 ^ 24) / (2 * 2 ^ 24)

/-- The same in MHz, as LG_VCO_MHZ shows it. -/
def Dev.vcoMHz (d : Dev) (g : Nat) : Nat := (2 * d.vcoKHz g + 1000) / 2000

/-- MI lies within its range (R101, R104). -/
def Dev.miOk (d : Dev) (g : Nat) : Bool := decide (40 ≤ d.fld (laneGroupBase g) Reg.LG_PLL_CFG.MI)

/-- The VCO frequency lies within its range (R101, R104). The chapter's worked example starts a group whose exact frequency lies
4 Hz above 29.0 GHz: the model judges the frequency to the kHz in which it holds LREF (DESIGN CHOICE, log entry 108). -/
def Dev.vcoOk (d : Dev) (g : Nat) : Bool := decide (14500000 ≤ d.vcoKHz g ∧ d.vcoKHz g ≤ 29000000)

/-- D of a divider code; 0 for the reserved code (R102). -/
def laneDiv (code : Nat) : Nat := if code = 0 then 1 else if code = 1 then 2 else if code = 2 then 4 else 0

/-- The greatest line rate of the speed grade, in Mb/s (R102). -/
def Dev.rateMax (d : Dev) : Nat := if d.ident.speed = 2 then 58000 else 44000

/-- A line rate is within the grade's range. -/
def Dev.rateOk (d : Dev) (g code : Nat) : Bool :=
  let k := laneDiv code
  decide (k ≠ 0) && decide (8000000 * k ≤ 2 * d.vcoKHz g ∧ 2 * d.vcoKHz g ≤ d.rateMax * 1000 * k)

/-- A FIR setting is valid (R119). -/
def firOk (pre post : Nat) : Bool := decide (pre + post ≤ 24)

/-- The dividers that count: at proof depths 1 and 2 both directions run at the transmit rate, and at depth 3 at the
receive rate (R495). -/
def Dev.divsInUse (d : Dev) (n tx rx : Nat) : Nat × Nat :=
  match d.proofDepth (laneBase n) with
  | some 1 | some 2 => (tx, tx)
  | some 3 => (rx, rx)
  | _ => (tx, rx)

/-- LANE_RATE follows the group PLL and the dividers in use. -/
def Dev.showRate (d : Dev) (n : Nat) : Dev :=
  let g := n / 8
  let c := (d.lane n).cfg.toNat
  let rate (code : Nat) := if laneDiv code = 0 then 0 else d.fld (laneGroupBase g) Reg.LG_VCO_MHZ.MHZ / (5 * laneDiv code)
  let (tx, rx) := d.divsInUse n (bitsOf c 0 2) (bitsOf c 4 2)
  (d.setFld (laneBase n) Reg.LANE_RATE.TX_RATE (rate tx)).setFld (laneBase n) Reg.LANE_RATE.RX_RATE (rate rx)

/-- The regions of bank 7 that a lane's settings use: first row and rows (R197, R200). -/
def portRegions (dlv rxq txq : Nat) : List (Nat × Nat) :=
  (if bitOf dlv 0 then [(bitsOf dlv 16 11, 32)] else []) ++
  (if bitOf rxq 16 then [(bitsOf rxq 0 11, 2 ^ bitsOf rxq 12 4)] else []) ++
  (if bitOf txq 16 then [(bitsOf txq 0 11, 2 ^ bitsOf txq 12 4)] else [])

/-- Two row ranges share a row. -/
def overlaps (a b : Nat × Nat) : Bool := decide (a.1 < b.1 + b.2 ∧ b.1 < a.1 + a.2)

/-- A lane whose port regions are in use (R201). -/
def Dev.portInUse (d : Dev) (n : Nat) : Bool :=
  !(d.lane n).portBad &&
  match d.ust (laneBase n) with
  | .starting | .running | .degraded | .draining => true
  | _ => false

/-- The check of R201, of the settings a lane has just sampled; what is not enabled is not checked. -/
def Dev.portCheck (d : Dev) (n : Nat) : Bool :=
  let r := d.lane n
  let dlv := r.portDlv.toNat
  let rxq := r.portRxq.toNat
  let txq := r.portTxq.toNat
  let words := bitsOf dlv 4 3
  let own := portRegions dlv rxq txq
  (!bitOf dlv 0 || decide (2 ≤ words ∧ words + 1 ≤ d.clk.ratioN / 2)) &&
  (!bitOf rxq 16 || decide (bitsOf rxq 12 4 ≤ 8)) && (!bitOf txq 16 || decide (bitsOf txq 12 4 ≤ 8)) &&
  own.all (fun x => decide (x.1 + x.2 ≤ 2048)) &&
  (List.range 144).all fun m =>
    m == n || !d.portInUse m || bitsOf (d.lane m).portCol.toNat 0 8 != bitsOf r.portCol.toNat 0 8 ||
    (portRegions (d.lane m).portDlv.toNat (d.lane m).portRxq.toNat (d.lane m).portTxq.toNat).all fun y =>
      own.all fun x => !overlaps x y

/-- A lane moves from STOPPED to STARTING: settings are sampled, the DFE begins anew, the transmitter leaves idle and the
receiver hunts (R103, R109, R115, R133, R143, R201). -/
def Dev.laneStart (d : Dev) (n : Nat) : Dev :=
  let b := laneBase n
  let d := d.modLane n fun r =>
    { r with cfg := d.reg (b + Reg.LANE_CFG.TX_DIV.off), alignCfg := d.reg (b + Reg.ALIGN_CFG.EN.off)
             directCfg := d.reg (b + Reg.DIRECT_CFG.EN.off), portCol := d.reg (b + Reg.PORT_COL.COLUMN.off)
             portDlv := d.reg (b + Reg.PORT_DLV.EN.off), portRxq := d.reg (b + Reg.PORT_RXQ.EN.off)
             portTxq := d.reg (b + Reg.PORT_TXQ.EN.off)
             losWhole := d.flag b Reg.LANE_STATUS.LOS, slipTicks := 0, slipSince := d.tick
             taps := List.replicate 12 0, dlev := 40, integ := List.replicate 13 0, ctleTick := none, firPre := d.fld b Reg.TX_FIR.PRE, firPost := d.fld b Reg.TX_FIR.POST
             amp := d.fld b Reg.TX_CTRL.AMP, descr := 0, eb := [], rx := .outside, evidence := none, gaps := [], frames := {} }
  let bad := !d.portCheck n
  let d := (d.modLane n fun r => { r with portBad := bad }).raiseIf bad b Reg.PORT_EVENT.CFG_ERR
  let d := d.modLink n fun l => { l with rxqPos := 1, rxqPass := true, rxqRead := none, txqPos := 1, txqPass := true, txqOut := [], txCount := 0 }
  let d := if d.fld b Reg.CTLE_CTRL.MODE = 0 then d.setFld b Reg.CTLE_STATUS.PEAK (d.fld b Reg.CTLE_CTRL.PEAK) else d
  let d := (d.showRate n).beginHunt n (d.flag b Reg.BLK_CTRL.FORCE_MANUAL)
  let d := if isTrunk n then d.setFld b Reg.TX_FIR.MAIN (63 - (d.lane n).firPre - (d.lane n).firPost) else d
  let d := if d.proofDepth b = some 3 then d.setFld b Reg.LINK_STATE.LOOPED 1 else d
  d.setFld b Reg.LANE_STATUS.TX_ACTIVE 1

/-- A lane group galley starts: the band is calibrated and the PLL locks anew (R104). -/
def Dev.groupStart (d : Dev) (g : Nat) : Dev :=
  let b := laneGroupBase g
  let d := ((d.setFld b Reg.LG_STATUS.CAL_DONE 0).setFld b Reg.LG_STATUS.PLL_LOCK 0).setFld b Reg.LG_VCO_MHZ.MHZ 0
  (d.setFld b Reg.LG_STATUS.REF_PRESENT (bit01 ((d.group g).lrefKHz != 0))).each (List.range 8) fun d i => d.showRate (8 * g + i)

/-- A controller starts: its settings are sampled and its devices leave self-refresh (R103, R327, R328). -/
def Dev.mcStart (d : Dev) (w : Nat) : Dev :=
  let b := mcBase w
  let capacity (v : Word) : Nat := 2 ^ (30 + fget v Reg.MC_CFG.DENSITY)
  let d := match d.ext.cfg.look w with
    | some old => d.densityMoved w (capacity old) (capacity (d.reg (b + Reg.MC_CFG.off)))
    | none => d
  let d := (d.modExt fun x =>
    { x with cfg := x.cfg.put w (d.reg (b + Reg.MC_CFG.off)), retrainBad := x.retrainBad.keep fun c => c / 8 != w }).modUnits
      fun r => { r with loss := r.loss.del b }
  ((d.setFld b Reg.MC_STATUS.SELF_REFRESH 0).setFld b Reg.MC_STATUS.TRAINED 0).setFld b Reg.MC_STATUS.FAULTED 0

/-- The cause bits of the conditions that hold, when any does. -/
def causeBits (l : List (Bool × Nat)) : Option Nat :=
  let l := l.filter (·.1)
  if l.isEmpty then none else some (l.foldl (fun s x => s + x.2) 0)

/-- The bits a lane's start fails with at the transition into STARTING (R111). -/
def Dev.laneStartBar (d : Dev) (n : Nat) : Option Nat :=
  let b := laneBase n
  let depth := d.fld b Reg.CTRL.PROOF_DEPTH
  let loop := d.flag b Reg.CTRL.PROOF_EN
  let txOk := (loop && depth == 3) || d.rateOk (n / 8) (d.fld b Reg.LANE_CFG.TX_DIV)
  let rxOk := (loop && (depth == 1 || depth == 2)) || d.rateOk (n / 8) (d.fld b Reg.LANE_CFG.RX_DIV)
  let firBad := isTrunk n && !firOk (d.fld b Reg.TX_FIR.PRE) (d.fld b Reg.TX_FIR.POST)
  causeBits [(!(txOk && rxOk), 2 ^ 13), (firBad, 2 ^ 12)]

/-- The cause bits with which a unit's start fails at once, if it does (R104, R111). -/
def Dev.startBar (d : Dev) (b : Nat) : Option Nat :=
  let u := unitOf b
  match u.blk with
  | .hitLane | .trunkLane => d.laneStartBar u.idx
  | .laneGroup =>
    let edges := (d.group u.idx).lrefKHz != 0
    causeBits [(!edges, 2 ^ 8), (!d.miOk u.idx || (edges && !d.vcoOk u.idx), 2 ^ 10)]
  | .mc =>
    let cfg (w : Nat) := (d.reg (mcBase w + Reg.MC_CFG.off)).toNat
    if bitsOf (cfg 0) 3 3 = bitsOf (cfg 1) 3 3 then none else some (2 ^ 9)
  | _ => none

/-- Where a unit's proof registers lie (R493). -/
def proofOff (b : Nat) : Option Nat :=
  let u := unitOf b
  match u.blk with
  | .hitLane | .trunkLane => some 0x600
  | .mc | .strike => some 0x200
  | .column => if u.layer = 0 then some 0x300 else none
  | _ => none

/-- PRF_STATUS and the generator and checker of a proof loop as its unit changes state (R489, R492, R493). -/
def Dev.proofHook (d : Dev) (b : Nat) (new : UState) : Dev :=
  match proofOff b with
  | none => d
  | some o =>
    if !d.flag b Reg.CTRL.PROOF_EN then d
    else
      let far := decide ((unitOf b).blk = .hitLane ∨ (unitOf b).blk = .trunkLane) && d.fld b Reg.CTRL.PROOF_DEPTH == 3
      let gen := bit01 !far
      match new with
      | .starting =>
        { d.setReg (b + o + Reg.PRF_STATUS.off) (BitVec.ofNat 32 (2 + gen)) with proof := d.proof.del b }
      | .running | .degraded => d
      | .draining => d.setFld (b + o) Reg.PRF_STATUS.GEN 0
      | _ => ((d.setFld (b + o) Reg.PRF_STATUS.GEN 0).setFld (b + o) Reg.PRF_STATUS.LOOPING 0).setFld (b + o) Reg.PRF_STATUS.SYNC 0

/-- What a change of a unit's own state does beside the state table. -/
def Dev.stateHook (d : Dev) (b : Nat) (old new : UState) : Dev :=
  let u := unitOf b
  let d := d.proofHook b new
  match u.blk with
  | .hitLane | .trunkLane =>
    if old.active && !new.active then d.laneLeaves u.idx
    else if new = .draining then d.loopEnd u.idx
    else d
  | .pll =>
    if old.active && !new.active then
      let held := d.rootDrives u.idx || u.idx == cpll
      (d.when held fun d => d.modClk fun c => { c with loopsDown := c.loopsDown ++ [u.idx] }).setReg (b + Reg.PLL_STATUS.off)
        (resetValue (b + Reg.PLL_STATUS.off))
    else d
  | .ring => d.seeBusy u.idx
  | .gpio => d.bankHook u.idx old new
  | .strike =>
    match new with
    | .running | .degraded => d
    | _ => d.busySees busyState
  | .shell =>
    if (d.user b).rel.past && new.fences && !old.fences then d.fenceNotes b Reg.TILE_EVENT.FENCE_ENGAGED else d
  | _ => d

/-- The reference that the roots lock to at the start: CROSS_CLK when REF_SEL is 0 and it shows edges, else XB (R57). -/
def Dev.startRef (d : Dev) : Nat := if d.fld keeperBase Reg.KEEP_CTRL.REF_SEL = 0 ∧ d.keeper.crossKHz ≠ 0 then 0 else 1

/-- What a start does beyond the state table: settings sampled, a release requested (R377, R379). -/
def Dev.startHook (d : Dev) (b : Nat) : Dev :=
  match (unitOf b).blk with
  | .forme | .shell =>
    if d.load.opened then
      if (d.user b).rel = .held then
        d.modUser b fun u => { u with relTarget := if d.runMode then some (crossAdd d.now d.lead) else none, readySeen := false }
      else d
    else if b = formeBase then
      d.modLoad fun l =>
        { l with requested := true
                 target := if d.runMode && l.verified.isSome && l.target.isNone then some (crossAdd d.now d.lead) else l.target }
    else d
  | .hitLane | .trunkLane => d.laneStart (unitOf b).idx
  | .laneGroup => d.groupStart (unitOf b).idx
  | .mc => d.mcStart (unitOf b).idx
  | .pll =>
    let p := (unitOf b).idx
    d.setFld b Reg.PLL_STATUS.REF (if p = 2 then 2 else if d.clk.rootRef = 3 then d.startRef else d.clk.rootRef)
  | .ring =>
    let e := (unitOf b).idx
    let dead := (d.ringsOf e).any fun l => (d.desc (ringId e l)).state == .dead
    (d.modUnits fun r => { r with loss := r.loss.setNum b (bit01 dead) }).rebuild e
  | .column =>
    let u := unitOf b
    if u.layer = 1 then
      let on := d.flag b Reg.MEM_CTRL.TWIN
      (d.modMem fun m => { m with twin := if on then m.twin.put u.column 1 else m.twin.del u.column }).setFld b
        Reg.MEM_STATUS.TWIN_ACTIVE (bit01 on)
    else d
  | _ => d

/-- What entry into DRAINING does beyond the state table. -/
def Dev.drainHook (d : Dev) (b : Nat) : Dev := if b = stctlBase then d.each (List.range 16) Dev.windUp else d

/-- ENABLE held in OFF; a lane group galley requests its domain (R107). -/
def Dev.enableOff (d : Dev) (b : Nat) : Dev :=
  match (unitOf b).blk with
  | .laneGroup => d.holdOn (8 + (unitOf b).idx)
  | _ => d

/-- The size of a unit's window (R61). -/
def windowSize (b : Nat) : Nat :=
  match (unitOf b).blk with
  | .ring | .kryup => 0x10000
  | _ => 0x1000

/-- Registers that RESET keeps although they are unit-specific (R551, R315), and those that show what stands whatever the unit
does (log entry 64): in columns the vertical connections and the banks, in the clock galley the nets and their sources, in the domain
controller and the power galley the domains and the mode, whose other fields `resetRecord` returns to reset, in a monitor its source. -/
def keptReg (b off : Nat) : Bool :=
  match (unitOf b).blk with
  | .crypto => decide (0x800 ≤ off)
  | .config => plateShown off
  | .column =>
    if (unitOf b).layer = 0 then decide (Reg.VLINK_STATE.off ≤ off ∧ off ≤ Reg.VLINK_HALF2.off) || off == Reg.DEAD_SHAFTS.off
    else if (unitOf b).layer = 1 then off == Reg.MEM_STATUS.off || off == Reg.SPARE_ROWS.off || off == Reg.SPARE_BL.off
    else false
  | .clkgen => off == Reg.CLK_STATUS.off || off == Reg.CLK_STATE.off
  | .monitor => off == Reg.MON_STATUS.off
  | .power => off == Reg.MODE_STATUS.off
  | .pdctl => decide (Reg.PD.off ≤ off ∧ off < Reg.PD.off + 160)
  | .damper => off == Reg.DMP_ACTIVE.off
  | .strike => off == Reg.STK_SRC.off
  | .keeper => off == Reg.KEEP_RATIO.off || off == Reg.LATENCY.off || off == Reg.KEEP_STATUS.off || off == Reg.KEEP_CTRL.off
  | _ => false

/-- Addresses of the unit-specific registers that RESET returns to reset (R68). -/
def resettable (b a : Nat) : Bool :=
  decide (b + 0x2C ≤ a ∧ a < b + windowSize b) && !keptReg b (a - b)

/-- Registers of a column that show repairs and what stands in its vertical connections and banks: they last until power-on or
device reset (R24, R28, R33, R253, R254). -/
def repairShown (b off : Nat) : Bool :=
  decide ((unitOf b).blk = .column ∧ (unitOf b).layer < 2) && keptReg b off

/-- Addresses of the registers lost with the unit's domain (R65). -/
def powerLost (b a : Nat) : Bool :=
  decide (b + 0x2C ≤ a ∧ a < b + windowSize b) && !(decide (b = configBase) && plateShown (a - b)) &&
    a != strikeBase + Reg.STK_SRC.off && !repairShown b (a - b)

/-- The records of a unit that RESET clears. -/
def Dev.resetRecord (d : Dev) (b : Nat) : Dev :=
  let d := { d with proof := d.proof.del b }
  match (unitOf b).blk with
  | .shell =>
    let d := if (d.user b).rel.past && !(d.ust b).fences then d.fenceNotes b Reg.TILE_EVENT.FENCE_ENGAGED else d
    (d.loadInit b).modUser b fun u =>
      { u with rel := if u.rel = .loading then .loading else .held, relTarget := none, readySeen := false }
  | .forme => (d.dropRequest b).modUser b fun u => { u with rel := if u.rel = .loading then .loading else .held, relTarget := none, readySeen := false }
  | .hitLane | .trunkLane => { d with lanes := d.lanes.del (unitOf b).idx, links := d.links.del (unitOf b).idx }
  | .mover => d.modExt fun x => { x with chains := x.chains.del (unitOf b).idx }
  | .serial => d.modSerial (unitOf b).idx fun _ => {}
  | .gpio => d.showBank (unitOf b).idx
  | .laneGroup => d.modGroup (unitOf b).idx fun r => { r with boot := false }
  | .serialGalley => d.modPins fun p => { p with flashRun := none }
  | .keeper =>
    let ref := d.fld b Reg.KEEP_CTRL.REF_SEL
    ((((d.setReg (b + Reg.KEEP_CTRL.off) (resetValue (b + Reg.KEEP_CTRL.off))).setFld b Reg.KEEP_CTRL.REF_SEL ref).setFld b
      Reg.KEEP_STATUS.ARMED 0).modKeeper fun k => { k with lastBreach := 0 }).modCtl fun c =>
        { c with capture := c.capture.keep fun k => 32 ≤ k || k % 4 != capBreach }
  | .config => d.plateAbandon
  | .pdctl =>
    d.each (List.range 40) fun d k => (d.setFld b (Reg.PD.ON.elem k) 0).setFld b (Reg.PD.HELD.elem k) 0
  | .power =>
    let d := d.setFld b Reg.MODE_STATUS.REFUSE 0
    if d.flag b Reg.MODE_STATUS.CHANGING then d else d.setFld b Reg.MODE_STATUS.TARGET 1
  | .ring => (d.modUnits fun r => { r with loss := r.loss.del b }).ringReset (unitOf b).idx
  | .column =>
    if (unitOf b).layer = 1 then
      (d.modMem fun m => { m with twin := m.twin.del (unitOf b).column }).setFld b Reg.MEM_STATUS.TWIN_ACTIVE 0
    else d
  | _ => d

/-- The relief bank of a group stands in for good for a bank of a column (R253). -/
def Dev.reliefStands (d : Dev) (c : Nat) : Bool :=
  match d.mem.relief.look (groupOf c) with
  | some r => r.permanent && decide (r.bank / 8 = c)
  | none => false

/-- The records of a unit that are lost with its domain. Of MEM_STATUS the dead banks stay, and a relief bank that stands in for
good. -/
def Dev.powerLostRecord (d : Dev) (b : Nat) : Dev :=
  let d := d.resetRecord b
  if repairShown b Reg.MEM_STATUS.off && decide ((unitOf b).layer = 1) then
    let off := b + Reg.MEM_STATUS.off
    d.setReg off (d.reg off &&& BitVec.ofNat 32 (if d.reliefStands (unitOf b).column then 0xFFF000 else 0xFF0000))
  else d

end Sys2Proof.Machine
end

