-- ==== Sys2Proof/Machine/Units.lean ====
section
/-!
DEFINITION. The state table of a unit and the sequences of a galley (R66 to R77): states and their aggregation,
start, drain, expiry, reset, fatal causes, losses, isolation and power, and a write of CTRL.
-/
namespace Sys2Proof.Machine

/-! ## The tree as it stands -/

/-- The children of a galley, with WITH_PREV, in enable order (R64). -/
def Dev.children (d : Dev) (b : Nat) : List (Bool × Nat) :=
  match (unitOf b).blk with
  | .forme | .shell => (d.user b).childTable
  | _ => hardChildren (unitOf b)

/-- Whether the unit is a galley: UNIT_ID bit 0. -/
def Dev.isGalley (d : Dev) (b : Nat) : Bool :=
  match (unitOf b).blk with
  | .shell => bitOf (d.user b).unitId 0
  | _ => (unitOf b).isGalley

/-- The galley that holds a unit (R60). -/
def Dev.parent (d : Dev) (b : Nat) : Option Nat :=
  let u := unitOf b
  match u.blk with
  | .root => none
  | .column => some (layerBase u.layer)
  | .hitLane | .trunkLane => some (laneGroupBase (u.idx / 8))
  | .pll | .keeper | .monitor => some clkBase
  | .pdctl | .damper => some powerBase
  | .gpio => some pinsBase
  | .serial => some serialGalleyBase
  | .stctl => some selfTestBase
  | .mc | .crypto | .mover => some memsysBase
  | .shell => (d.units.user.items.find? fun e => e.2.childTable.any fun c => c.2 == b).map (·.1)
  | _ => some rootBase

/-- A bound on the depth of the unit tree. -/
def Dev.depth (d : Dev) : Nat := d.units.user.items.length + 4

/-- The children that form each step of a galley's sequence (R64). -/
def stepsOf : List (Bool × Nat) → List (List Nat)
  | [] => []
  | (_, b) :: t =>
    match t, stepsOf t with
    | (true, _) :: _, s :: ss => (b :: s) :: ss
    | _, ss => [b] :: ss

def Dev.steps (d : Dev) (b : Nat) : List (List Nat) := stepsOf (d.children b)

/-! ## STATE and its aggregation (R74) -/

/-- The STATE of a unit. -/
def Dev.stateOf (d : Dev) (b : Nat) : UState := .ofCode (d.fld b Reg.STATE.STATE)

/-- The state of higher rank. -/
def UState.worse (x y : UState) : UState := if x.rank < y.rank then y else x

/-- The state that what stands in a column sets for its five units alike (R35): FAULTED under a standing cause, DEGRADED under a
loss, and nothing worse than RUNNING otherwise. The B0 unit's record of either is that of the column. -/
def Dev.columnState (d : Dev) (c : Nat) : UState :=
  if d.units.standing.mem (columnBase 0 c) then .faulted
  else if d.units.loss.mem (columnBase 0 c) then .degraded else .running

/-- What STATE should show: SELF in a sort, in a column unit the worse of it and the column's, in a galley the highest rank among
SELF and the children. -/
def Dev.aggregate (d : Dev) (b : Nat) : UState :=
  if d.isGalley b then (d.children b).foldl (fun u c => u.worse (d.stateOf c.2)) (d.ust b)
  else if (unitOf b).blk = .column then (d.ust b).worse (d.columnState (unitOf b).column)
  else d.ust b

/-- Brings STATE up to date, and that of the galleys above when it changes; a change sets STATE_CHANGE. -/
def Dev.refresh : Nat → Dev → Nat → Dev
  | 0, d, _ => d
  | n + 1, d, b =>
    let u := d.aggregate b
    if d.stateOf b = u then d
    else
      let d := (d.setFld b Reg.STATE.STATE u.code).raise b Reg.EVENT.STATE_CHANGE
      match d.parent b with
      | none => d
      | some p => Dev.refresh n d p

/-- Children neither RUNNING nor DEGRADED (STATE.NOT_RUNNING). -/
def Dev.notRunning (d : Dev) (b : Nat) : Nat :=
  satAdd 0xFF 0 ((d.children b).filter fun c => match d.stateOf c.2 with | .running | .degraded => false | _ => true).length

/-- What a unit's own registers and timers do on entry into a state: hardware clears ENABLE on entry into DRAINING or FAULTED and
DRAIN_REQ on reaching STOPPED; the Tick counts of R76 and of the start limits begin. -/
def Dev.entered (d : Dev) (b : Nat) (u : UState) : Dev :=
  match u with
  | .draining => (d.setFld b Reg.CTRL.ENABLE 0).modUnits fun r => { r with drainTick := r.drainTick.put b d.tick }
  | .faulted => d.setFld b Reg.CTRL.ENABLE 0
  | .stopped =>
    let d := d.setFld b Reg.CTRL.DRAIN_REQ 0
    if d.units.proofEnds.mem b then
      (d.setFld b Reg.CTRL.PROOF_EN 0).modUnits fun r => { r with proofEnds := r.proofEnds.del b }
    else d
  | .starting => d.modUnits fun r => { r with startTick := r.startTick.put b d.tick }
  | _ => d

/-- Moves a unit's own sequencer to a state. -/
def Dev.setUst (d : Dev) (b : Nat) (u : UState) : Dev :=
  if d.ust b = u then d
  else (((d.setFld b Reg.STATE.SELF u.code).entered b u).stateHook b (d.ust b) u).refresh d.depth b

/-! ## Causes, losses, readiness -/

def Dev.cancelSeq (d : Dev) (b : Nat) : Dev := d.modUnits fun r => { r with seq := r.seq.del b }

/-- A fatal cause (R67, R69): recorded, the work discarded, FAULTED. -/
def Dev.fatal (d : Dev) (b mask : Nat) : Dev :=
  let s := d.ust b
  let d := if s = .off then d else d.pulseDiscard b
  match s with
  | .off => d
  | .faulted => d.faultBits b mask
  | .running | .draining | .degraded =>
    ((((d.discardWork b).releaseBack b).cancelSeq b).faultBits b mask).setUst b .faulted
  | _ => (((d.releaseBack b).cancelSeq b).faultBits b mask).setUst b .faulted

/-- A fatal cause that stands (R68). -/
def Dev.fatalStanding (d : Dev) (b mask : Nat) : Dev :=
  (d.modUnits fun r => { r with standing := r.standing.setNum b (r.standing.num b ||| mask) }).fatal b mask

/-- The bit of START_FAIL in FAULT. -/
def faultStartFail : Nat := 2
def faultClockVia : Nat := 4
def faultFenced : Nat := 8
def faultPlate : Nat := 16
def faultDrainExpired : Nat := 1

/-- A start that cannot complete (R67): START_FAIL with its specific causes. -/
def Dev.startFail (d : Dev) (b mask : Nat) : Dev := d.fatal b (mask ||| faultStartFail)

/-- A loss of capacity (R67). One that arises in OFF, where the table has a dash, is recorded as well, so that it stands at the next
start (DESIGN CHOICE, log entry 106). -/
def Dev.lose (d : Dev) (b : Nat) : Dev :=
  let d := d.modUnits fun r => { r with loss := r.loss.setNum b 1 }
  if d.ust b = .running then d.setUst b .degraded else d

/-- A STARTING unit has completed its start (R67). -/
def Dev.ready (d : Dev) (b : Nat) : Dev :=
  if d.ust b = .starting then d.setUst b (if d.units.loss.mem b then .degraded else .running) else d

/-- A DRAINING unit has no work left (R67). -/
def Dev.empty (d : Dev) (b : Nat) : Dev :=
  if d.ust b = .draining then (d.cancelSeq b).setUst b .stopped else d

/-- DRAIN_LIMIT expires in a DRAINING unit (R76). -/
def Dev.expire (d : Dev) (b : Nat) : Dev :=
  if d.ust b = .draining then
    ((((d.discardWork b).pulseDiscard b).cancelSeq b).faultBits b faultDrainExpired).setUst b .stopped
  else d

/-- The forced expiry a galley imposes on a child (R72). -/
def Dev.forceExpire : Nat → Dev → Nat → Dev
  | 0, d, _ => d
  | n + 1, d, b =>
    if (unitOf b).isPrivileged then d
    else
      let d := if d.isGalley b then (d.children b).foldl (fun d c => Dev.forceExpire n d c.2) d else d
      match d.ust b with
      | .starting | .running | .degraded => ((d.releaseBack b).setUst b .draining).expire b
      | _ => d.expire b

/-- The expiry of a unit's own limit; a galley forces it on every child not yet STOPPED. -/
def Dev.limitExpired (d : Dev) (b : Nat) : Dev :=
  if d.ust b = .draining then
    (if d.isGalley b then (d.children b).foldl (fun d c => d.forceExpire d.depth c.2) d else d).expire b
  else d

/-! ## Start -/

/-- A unit of which R490 forbids the start: B0 columns and the Strike Port run proof loops only in PROOF. -/
def Dev.startBarred (d : Dev) (b : Nat) : Bool :=
  let u := unitOf b
  let kind := match u.blk with
    | .strike => true
    | .column => u.layer == 0
    | _ => false
  kind && d.flag b Reg.CTRL.PROOF_EN && d.mode != modeProof

/-- Galleys whose own resources come before their child sequence: lane groups wait for their PLL (R104), the forme
for its release (R377, R379). -/
def Dev.seqWaits (d : Dev) (b : Nat) : Bool :=
  match (unitOf b).blk with
  | .laneGroup => true
  | .forme => !(d.load.opened && decide ((d.user b).rel = .released))
  | _ => false

/-- ENABLE set (R67), in a galley with the sequence of R72. -/
def Dev.enable : Nat → Dev → Nat → Dev
  | 0, d, _ => d
  | n + 1, d, b =>
    match d.ust b with
    | .off => (d.setFld b Reg.CTRL.ENABLE 1).enableOff b
    | .stopped =>
      if d.startBarred b then d.ctrlReject b
      else
        let bar := d.startBar b
        let d := (d.setFld b Reg.CTRL.ENABLE 1).setUst b .starting
        let d := match bar with
          | some mask => d.startFail b mask
          | none => d.startHook b
        let d := if (d.units.user.at b {}).badImage then d.startFail b 0 else d
        if d.isGalley b && !d.seqWaits b && (d.ust b = .starting) then
          let d := d.modUnits fun r => { r with seq := r.seq.put b {} }
          ((d.steps b).getD 0 []).foldl (fun d c => if (unitOf c).isPrivileged then d else Dev.enable n d c) d
        else d
    | .starting | .running | .degraded => d.setFld b Reg.CTRL.ENABLE 1
    | _ => d.ctrlReject b

/-- Begins the child sequence of a galley that waited for its own resources. -/
def Dev.beginSeq (d : Dev) (b : Nat) : Dev :=
  if d.ust b = .starting then
    let d := d.modUnits fun r => { r with seq := r.seq.put b {} }
    d.each ((d.steps b).getD 0 []) fun d c => if (unitOf c).isPrivileged then d else d.enable d.depth c
  else d

/-! ## Drain -/

/-- ENABLE cleared or DRAIN_REQ set (R67), in a galley with the sequence of R72 in reverse order. -/
def Dev.drain : Nat → Dev → Nat → Dev
  | 0, d, _ => d
  | n + 1, d, b =>
    match d.ust b with
    | .off => (d.setFld b Reg.CTRL.ENABLE 0).setFld b Reg.CTRL.DRAIN_REQ 0
    | .starting | .running | .degraded =>
      let d := ((d.releaseBack b).setUst b .draining).drainHook b
      if d.isGalley b then
        let k := (d.steps b).length - 1
        let d := d.modUnits fun r => { r with seq := r.seq.put b { drain := true, step := k } }
        ((d.steps b).getD k []).foldl (fun d c => if (unitOf c).isPrivileged then d else Dev.drain n d c) d
      else d
    | .draining => d
    | _ => (d.setFld b Reg.CTRL.ENABLE 0).setFld b Reg.CTRL.DRAIN_REQ 0

/-- A child has reached the target of the sequence: RUNNING, DEGRADED or FAULTED in a start; STOPPED, FAULTED or OFF
in a drain; a privileged child answers at once (R73). -/
def Dev.childDone (d : Dev) (drain : Bool) (b : Nat) : Bool :=
  (unitOf b).isPrivileged ||
  match d.stateOf b, drain with
  | .faulted, _ => true
  | .running, false | .degraded, false => true
  | .stopped, true | .off, true => true
  | _, _ => false

/-- A galley's sequence moves on when every child of its step is done (R72). The spec does not say whether a child found FAULTED ends
a start at once: the model waits for the whole step, and only a child of the step in hand ends it (DESIGN CHOICE, log entry 107). -/
def Dev.advance (d : Dev) (b : Nat) : Dev :=
  match d.units.seq.look b with
  | none => d
  | some q =>
    let step := (d.steps b).getD q.step []
    if !step.all (d.childDone q.drain) then d
    else if q.drain then
      if q.step = 0 then
        if (d.children b).all (fun c => d.childDone true c.2) then d.empty b else d
      else
        let d := d.modUnits fun r => { r with seq := r.seq.put b { q with step := q.step - 1 } }
        d.each ((d.steps b).getD (q.step - 1) []) fun d c => if (unitOf c).isPrivileged then d else d.drain d.depth c
    else if step.any fun c => decide (d.stateOf c = .faulted) && !(unitOf c).isPrivileged then
      ((d.cancelSeq b).setFld b Reg.CTRL.ENABLE 0).setUst b .stopped
    else if q.step + 1 < (d.steps b).length then
      let d := d.modUnits fun r => { r with seq := r.seq.put b { q with step := q.step + 1 } }
      d.each ((d.steps b).getD (q.step + 1) []) fun d c => if (unitOf c).isPrivileged then d else d.enable d.depth c
    else if decide ((unitOf b).blk = .shell) && !decide ((d.user b).rel = .released) then d
    else (d.cancelSeq b).ready b

/-! ## Reset -/

/-- The causes that stand for a unit: recorded as standing (R68), or given to its shell (R80). -/
def Dev.causesLeft (d : Dev) (b : Nat) : Nat := d.units.standing.num b ||| d.shellCauses b

/-- RESET of a column unit clears the column's causes that do not stand in its five units together, so that they stay the same
(R36). -/
def Dev.clearColumn (d : Dev) (b : Nat) : Dev :=
  if (unitOf b).blk = .column then
    d.each ((List.range 5).map fun l => columnBase l (unitOf b).column) fun d u =>
      let a := u + Reg.FAULT.START_FAIL.off
      d.setReg a (d.reg a &&& BitVec.ofNat 32 (0xFFFF00FF ||| d.units.standing.num u))
  else d

/-- The unit's own part of RESET (R68): registers, records, ENABLE, DRAIN_REQ, FAULT and EVENT; standing causes are set
again. -/
def Dev.resetSelf (d : Dev) (b : Nat) : Dev :=
  let s := d.ust b
  let d := match s with
    | .running | .draining | .degraded => d.discardWork b
    | _ => d
  let d := (((d.cancelSeq b).resetRegs (resettable b)).resetRecord b).pulseReset b
  let d := (d.setFld b Reg.CTRL.ENABLE 0).setFld b Reg.CTRL.DRAIN_REQ 0
  let d := ((d.clearColumn b).setReg (b + Reg.FAULT.START_FAIL.off) 0).setReg (b + Reg.EVENT.FAULT.off) 0
  match s with
  | .off | .isolated => d
  | _ =>
    let st := d.causesLeft b
    if st = 0 then d.setUst b .stopped else (d.faultBits b st).setUst b .faulted

/-- RESET: each child in reverse table order, then the unit (R72). -/
def Dev.reset : Nat → Dev → Nat → Dev
  | 0, d, _ => d
  | n + 1, d, b =>
    let d := if d.isGalley b then
        (d.children b).reverse.foldl (fun d c => if (unitOf c.2).isPrivileged then d else Dev.reset n d c.2) d
      else d
    d.resetSelf b

/-! ## Power and isolation -/

/-- The unit's domain turns off (R67): work discarded, the registers of its domain lost, OFF. -/
def Dev.unitOff (d : Dev) (b : Nat) : Dev :=
  match d.ust b with
  | .off => d
  | s =>
    let d := match s with
      | .running | .draining | .degraded => d.discardWork b
      | _ => d
    ((((d.releaseBack b).cancelSeq b).resetRegs (powerLost b)).powerLostRecord b).setUst b .off

/-- The unit's domain is on again (R67): FAULTED while a cause stands, else STARTING with ENABLE at 1, else STOPPED. -/
def Dev.unitOn (d : Dev) (b : Nat) : Dev :=
  if d.ust b = .off then
    let st := d.causesLeft b
    if st ≠ 0 then (d.faultBits b st).setUst b .faulted
    else
      let en := d.flag b Reg.CTRL.ENABLE
      let d := d.setUst b .stopped
      if en then d.enable d.depth b else d
  else d

/-- Isolation by self-test (R67). -/
def Dev.isolate (d : Dev) (b : Nat) : Dev := if d.ust b = .stopped then d.setUst b .isolated else d

/-- The end of isolation: the unit is reinitialised and STOPPED (R67). -/
def Dev.unisolate (d : Dev) (b : Nat) : Dev :=
  if d.ust b = .isolated then ((d.resetRegs (resettable b)).resetRecord b).setUst b .stopped else d

/-! ## A write of CTRL -/

/-- Whether a unit implements a proof depth (R71, R488); galleys are not checked. -/
def Dev.depthOk (d : Dev) (b depth : Nat) : Bool := d.isGalley b || bitOf (unitOf b).proofDepths depth

/-- PROOF_EN and PROOF_DEPTH written (R71). A galley in STOPPED stores them whatever they are and propagates them (R72); a sort
that lacks the depth is left with PROOF_EN at 0. -/
def Dev.setProof : Nat → Dev → Nat → Nat → Nat → Dev
  | 0, d, _, _, _ => d
  | n + 1, d, b, en, depth =>
    let same := d.fld b Reg.CTRL.PROOF_EN = en ∧ d.fld b Reg.CTRL.PROOF_DEPTH = depth
    if d.ust b ≠ .stopped ∨ !d.depthOk b depth then (if same then d else d.ctrlReject b)
    else
      let d := (d.setFld b Reg.CTRL.PROOF_EN en).setFld b Reg.CTRL.PROOF_DEPTH depth
      if d.isGalley b then
        (d.children b).foldl (fun d c =>
          if d.isGalley c.2 || bitOf (unitOf c.2).proofDepths depth then Dev.setProof n d c.2 en depth
          else Dev.setProof n d c.2 0 (d.fld c.2 Reg.CTRL.PROOF_DEPTH)) d
      else d

/-- A CTRL write that clears ENABLE would stop a PLL in use (R415). -/
def Dev.stopBarred (d : Dev) (b : Nat) : Bool :=
  match (unitOf b).blk with
  | .pll => d.rootDrives (unitOf b).idx || ((unitOf b).idx == 2 && d.fld clkBase Reg.CLK_STATUS.REG_SRC == 0)
  | _ => false

/-- The drain part of a CTRL write. -/
def Dev.drainWrite (d : Dev) (b : Nat) (req : Bool) : Dev :=
  if d.stopBarred b then d.ctrlReject b
  else
    let d := d.drain d.depth b
    let d := if d.ust b = .draining then d.setFld b Reg.CTRL.DRAIN_REQ (bit01 req) else d
    if (unitOf b).blk = .pll then d.empty b else d

/-- A write of CTRL (R67 to R72): RESET acts first, then the proof fields, then ENABLE and DRAIN_REQ. The root's CTRL
ignores writes. -/
def Dev.ctrlWrite (d : Dev) (b : Nat) (w : Word) : Dev :=
  if b = rootBase then d
  else
    let rst := fget w Reg.CTRL.RESET != 0
    let en := fget w Reg.CTRL.ENABLE != 0
    if rst && !en && d.stopBarred b then d.ctrlReject b
    else
    let d := if rst then d.reset d.depth b else d
    let d := d.setProof d.depth b (fget w Reg.CTRL.PROOF_EN) (fget w Reg.CTRL.PROOF_DEPTH)
    let req := fget w Reg.CTRL.DRAIN_REQ != 0
    if req || (d.flag b Reg.CTRL.ENABLE && !en) then d.drainWrite b req
    else if en && !d.flag b Reg.CTRL.ENABLE then d.enable d.depth b
    else if d.ust b = .draining then d.setFld b Reg.CTRL.DRAIN_REQ 0
    else d

/-! ## VERSION_SEL (R78) -/

/-- Registers whose layout an older major changes: offset and the bits presented, `none` for a register it lacks (R124,
R125, R289, R335, R337). -/
def olderLayout (u : Unit) (major : Nat) : List (Nat × Option Nat) :=
  if major = u.native.1 then []
  else match u.blk with
    | .hitLane => [(Reg.DFE_CTRL.off, some 0x80010001), (Reg.EYE_CTRL.off, none), (Reg.EYE_RESULT.off, none)]
    | .trunkLane => [(Reg.EYE_CTRL.off, none), (Reg.EYE_RESULT.off, none)]
    | .laneGroup => [(Reg.LG_PLL_CFG.off, some 0xFF)]
    | .ring => [(Reg.ENG_CTRL.off, some 0xFFFF0FFF), (Reg.FIFO_CFG.off, some 0xFFF), (Reg.ENG_GUARD.off, some 0xFF)]
    | .mc => [(Reg.MC_CFG.off, some 0x13F), (Reg.MC_SCRUB.off, none)]
    | .mover => [(Reg.MV_DESC_HI.off, some 0)]
    | _ => []

/-- The bits of a register that the presented version lays out; `none` where it has no such register (R78). -/
def Dev.presented (d : Dev) (u : Unit) (off : Nat) : Option Nat :=
  match (olderLayout u (d.fld u.base Reg.UNIT_VER.MAJOR)).find? fun e => e.1 == off with
  | some e => e.2
  | none => some (2 ^ 32 - 1)

/-- Fields that the presented version lacks keep their reset values (R78). -/
def Dev.dropAbsent (d : Dev) (b major : Nat) : Dev :=
  d.each (olderLayout (unitOf b) major) fun d e =>
    let m := BitVec.ofNat 32 (e.2.getD 0)
    d.setReg (b + e.1) ((d.reg (b + e.1) &&& m) ||| (resetValue (b + e.1) &&& ~~~m))

/-- A write of VERSION_SEL. -/
def Dev.versionWrite (d : Dev) (b : Nat) (w : Word) : Dev :=
  let major := fget w Reg.VERSION_SEL.SEL_MAJOR
  let minor := fget w Reg.VERSION_SEL.SEL_MINOR
  match (unitOf b).minorOf major with
  | some m =>
    if d.atRest b && decide (minor ≤ m) then
      ((((d.setFld b Reg.VERSION_SEL.SEL_MAJOR major).setFld b Reg.VERSION_SEL.SEL_MINOR m).setFld b
        Reg.UNIT_VER.MAJOR major).setFld b Reg.UNIT_VER.MINOR m).dropAbsent b major
    else d.raise b Reg.EVENT.VER_REJECT
  | none => d.raise b Reg.EVENT.VER_REJECT

end Sys2Proof.Machine
end

