-- ==== Sys2Proof/Machine/LoadOps.lean ====
section
/-!
DEFINITION. The loader (R363, R372 to R376): its status, the undoing of a load, the withdrawal of a released image, and what
the writes of its registers do.
-/
namespace Sys2Proof.Machine

/-! ## LD_STATUS (R375) -/

def ldNone : Nat := 0
def ldWaiting : Nat := 1
def ldLoading : Nat := 2
def ldVerified : Nat := 3
def ldReleased : Nat := 4
def ldRejected : Nat := 5

/-- The LD_INDEX of a failure in the colophon, in the signature, or in no record. -/
def noIndex : Nat := 0xFFFFFFFF

def Dev.ldState (d : Dev) (st : Nat) : Dev := d.setFld rootBase Reg.LD_STATUS.STATE st

/-- Cause codes of R365 and R375. -/
def ldMagic : Nat := 0x01
def ldColophonCrc : Nat := 0x02
def ldFormat : Nat := 0x03
def ldDevice : Nat := 0x04
def ldStepping : Nat := 0x05
def ldGrade : Nat := 0x06
def ldHash : Nat := 0x07
def ldUnsigned : Nat := 0x08
def ldSigner : Nat := 0x09
def ldSignature : Nat := 0x0A
def ldRecordCrc : Nat := 0x0B
def ldDigest : Nat := 0x0C
def ldDecrypt : Nat := 0x0D
def ldKind : Nat := 0x0E
def ldRecordVersion : Nat := 0x0F
def ldUnitVersion : Nat := 0x10
def ldNesting : Nat := 0x11
def ldCount : Nat := 0x12
def ldUnit : Nat := 0x13
def ldLatency : Nat := 0x14
def ldDriveMap : Nat := 0x15
def ldPlate : Nat := 0x16
def ldPins : Nat := 0x17
def ldRingMap : Nat := 0x18
def ldPreload : Nat := 0x19
def ldBaseId : Nat := 0x1A
def ldThermal : Nat := 0x1B
def ldSettings : Nat := 0x1C
def ldLength : Nat := 0x1D
def ldPlacement : Nat := 0x1E
def ldAborted : Nat := 0x20
def ldTimeout : Nat := 0x21
def ldNoSource : Nat := 0x22
def ldMismatch : Nat := 0x23
def ldFormeBusy : Nat := 0x24
def ldUnitBusy : Nat := 0x25

/-! ## Images -/

/-- A partial image (R339, R366); in format 2 every image is full (R364). -/
def partialImage (c : Colophon) : Bool := c.fmtMajor != 2 && c.kind == 1

/-- A unit of a tree of declarations and the units inside it; parents come before their children. -/
def subtree (decls : List Decl) (b : Nat) : List Nat :=
  decls.foldl (fun acc u => if acc.contains u.parent then acc ++ [u.base] else acc) [b]

/-- The columns of a 256-bit mask. -/
def maskColumns (m : BitVec 256) : List Nat := (List.range 256).filter fun c => m.getLsbD c

/-- The plate slot that RESIDENT plates go into: 0, or in a partial image the PSLOT with which its load was opened (R384). -/
def Dev.residentSlot (d : Dev) (c : Colophon) : Nat := if partialImage c then d.load.pslot else 0

/-! ## The end of a load (R363, R375) -/

/-- The loader stands idle; the boot entry under trial, if any, has ended. -/
def Dev.closeLoad (d : Dev) : Dev :=
  (d.modLoad fun l =>
    { l with mode := .idle, trying := none, spi := false, words := [], head := [], body := [], image := none, openUnits := [], index := 0
             badIndex := none, signed := false, ended := false }).setFld rootBase Reg.LD_STATUS.PATH 0

/-- What has been written while the image streamed is undone: stage slots and plate slots, the INIT store, drive maps. A
REAPPLY wrote none of it (R388). -/
def Dev.undoStreamed (d : Dev) : Dev :=
  match d.load.image with
  | none => d
  | some img =>
    if d.load.mode = .reapply then d
    else
      let slot := d.residentSlot img.colophon
      let part := partialImage img.colophon
      let d := d.each img.plates fun d p =>
        let d := (d.setStage p.stage stageEmpty).setStageInfo p.stage p.plate 0
        if p.resident then
          d.each p.groups fun d g =>
            let d := d.setPslot g slot slotEmpty
            if part then d else d.modPlates fun x => { x with logic := x.logic.del g }
        else d
      let d := d.modFabric fun f =>
        { f with initStore := if part then f.initStore.keep fun l => !img.initUsed.any (fun e => e.2 == l) else {} }
      d.modPlates fun p => { p with driveMaps := img.drives.foldl (fun m n => m.del n) p.driveMaps }

/-- Units that wait in STARTING for a load that is rejected fail (R382); after a partial image they stay barred until a good
one verifies (R385). -/
def Dev.loadingFails (d : Dev) (part : Bool) : Dev :=
  let units := (formeBase :: d.units.user.keys).eraseDups.filter fun b => (d.user b).rel == .loading
  let d := d.each units fun d b => if d.ust b = .starting then d.startFail b 0 else d
  if part then d.each units fun d b => d.modUser b fun u => { u with badImage := true } else d

/-- The load is rejected with a cause and the INDEX of the failing record. -/
def Dev.imageReject (d : Dev) (cause index : Nat) : Dev :=
  let again := d.load.mode == .reapply
  let part := match d.load.image with | some i => partialImage i.colophon | none => false
  let d := d.undoStreamed.closeLoad
  let d := ((d.ldState ldRejected).setFld rootBase Reg.LD_STATUS.CAUSE cause).setFld rootBase Reg.LD_INDEX.INDEX index
  let d := d.raise rootBase Reg.LD_EVENT.REJECTED
  if again then d else d.loadingFails part

/-! ## The withdrawal of an image (R376) -/

/-- A user unit returns to LOADING, behind its fences; its flip-flops are held at INIT (R381). -/
def Dev.toLoading (d : Dev) (b : Nat) : Dev :=
  let d := if (d.user b).rel.past && !(d.ust b).fences then d.fenceNotes b Reg.TILE_EVENT.FENCE_ENGAGED else d
  (d.loadInit b).modUser b fun u => { u with rel := .loading, relTarget := none, readySeen := false, badImage := false }

/-- No plate is in force any more: ACTIVE slots are VALID again (R215). -/
def Dev.dropForce (d : Dev) : Dev :=
  let d := d.unpendAll.each (List.range 16) fun d g =>
    let d := d.each (d.forceList g) fun d s => if d.pslot g s = slotActive then d.setPslot g s slotValid else d
    (d.setFld configBase (Reg.PSLOT_G.CYCLING.elem g) 0).setFld configBase (Reg.PSLOT_G.IN_FORCE.elem g) 0
  d.modPlates fun p => { p with logic := {}, cycling := {} }

/-- The released or verified image is withdrawn. With it ends the window of R140: what the alignment buffers hold is discarded and
counted late, so that they never hold more than R141 says (DESIGN CHOICE, log entry 112). -/
def Dev.withdraw (d : Dev) : Dev :=
  let d := d.modFabric fun f => { f with initStore := {} }
  let d := (d.each d.units.user.keys Dev.toLoading).dropForce
  let d := d.each d.lanes.keys Dev.flushHeld
  let d := (d.setReg (keeperBase + Reg.LATENCY.off) 0).setReg (strikeBase + Reg.STK_SRC.off) 0
  let d := (d.setReg (rootBase + Reg.IMAGE_ID_LO.off) 0).setReg (rootBase + Reg.IMAGE_ID_HI.off) 0
  let d := d.modStrike fun s => { s with galleyA := 0, galleyB := 0, galleys := [], groups := [], columns := [] }
  let d := d.modPlates fun p => { p with driveMaps := {} }
  d.modLoad fun l => { l with verified := none, released := none, target := none, opened := false, partPlates := {} }

/-! ## The loader's registers (R373, R374, R388) -/

/-- The place in the list of sources that says that the list is exhausted. -/
def entriesTried : Nat := 5

/-- The paths that the boot entry under trial, or the exhausted list, opens the loader to. -/
def Dev.mayOpen (d : Dev) (path : Nat) : Bool :=
  match d.load.step with
  | .idle => true
  | .loading =>
    match d.load.trying with
    | some 3 => path == pathMgmt
    | some 4 => path == pathSpi1 || path == pathJtag
    | some _ => false
    | none => decide (d.load.entry = entriesTried)
  | _ => false

/-- A load opens. -/
def Dev.beginLoad (d : Dev) (mode : LoadMode) (source path : Nat) (spi : Bool) : Dev :=
  let d := d.modLoad fun l =>
    { l with mode := mode, spi := spi, pslot := d.fld rootBase Reg.LD_CTRL.PSLOT, words := [], head := [], body := [], image := none
             openUnits := [], index := 0, badIndex := none, signed := false, ended := false, idleTick := d.tick }
  let d := ((d.ldState ldLoading).setFld rootBase Reg.LD_STATUS.SOURCE source).setFld rootBase Reg.LD_STATUS.PATH path
  (d.setFld rootBase Reg.LD_STATUS.PARTIAL 0).setFld rootBase Reg.LD_BYTES.BYTES 0

/-- The source code that names a stream by its path (R371). -/
def streamSource (path : Nat) : Nat := if path = pathMgmt then 3 else 4

/-- OPEN by a path. -/
def Dev.ldOpen (d : Dev) (path : Nat) : Dev :=
  if d.load.mode ≠ .idle ∨ !d.mayOpen path then d.raise rootBase Reg.LD_EVENT.OPEN_REJECT
  else d.beginLoad .stream (streamSource path) path false

/-- A load that a stream feeds is open. -/
def Dev.streaming (d : Dev) : Bool := d.load.mode == .stream || (d.load.mode == .reapply && !d.load.spi)

/-- ABORT by any path ends the open load, whatever feeds it. -/
def Dev.ldAbort (d : Dev) : Dev := if d.load.mode = .idle then d else d.imageReject ldAborted noIndex

/-- REAPPLY by a path: the released image is read again from its source. -/
def Dev.ldReapply (d : Dev) (path : Nat) : Dev :=
  if d.load.mode ≠ .idle then d.raise rootBase Reg.LD_EVENT.OPEN_REJECT
  else
    match d.load.released with
    | none => d
    | some img =>
      let src := img.source
      d.beginLoad .reapply src (if src = 1 ∨ src = 2 then 0 else path) (src == 1 || src == 2)

/-- A write of LD_CTRL. -/
def Dev.ldCtrl (d : Dev) (path : Nat) (w : Word) : Dev :=
  let d := d.setFld rootBase Reg.LD_CTRL.PSLOT (fget w Reg.LD_CTRL.PSLOT)
  let d := if fget w Reg.LD_CTRL.ABORT = 1 then d.ldAbort else d
  let d := if fget w Reg.LD_CTRL.REAPPLY = 1 then d.ldReapply path else d
  if fget w Reg.LD_CTRL.OPEN = 1 then d.ldOpen path else d

/-- A write of LD_DATA: the next word of the image that a stream brings (R374). With no stream open it is a write like any other: reads return the last word written, and no load takes it. -/
def Dev.ldData (d : Dev) (path : Nat) (w : Word) : Dev :=
  if !d.streaming then d.setReg (rootBase + Reg.LD_DATA.off) w
  else if d.fld rootBase Reg.LD_STATUS.PATH ≠ path then d.raise rootBase Reg.LD_EVENT.FOREIGN
  else
    ((d.setReg (rootBase + Reg.LD_DATA.off) w).countBy rootBase Reg.LD_BYTES.BYTES 4).modLoad fun l =>
      { l with idleTick := d.tick, words := l.words ++ [w] }

/-- The words of the image that come next: those of the stream, or those that a read of SPI0 brings. -/
def Dev.imageWords (d : Dev) (flash : List Word) : List Word := if d.streaming then d.load.words else flash

/-- Words of the image are taken. -/
def Dev.takeWords (d : Dev) (n : Nat) : Dev :=
  if d.streaming then d.modLoad fun l => { l with words := l.words.drop n } else d.countBy rootBase Reg.LD_BYTES.BYTES (4 * n)

end Sys2Proof.Machine
end

