-- ==== Sys2Proof/Machine/Power.lean ====
section
/-!
DEFINITION. What a change of a power domain does (R424 to R427): the units that enter or leave OFF, the storage that is
lost with it, and the keys and pins that come back.
-/
namespace Sys2Proof.Machine

/-- The hard units of a domain (R424). -/
def domainUnits (k : Nat) : List Nat :=
  let cols (l : Nat) (p : Nat → Bool) := ((List.range 256).filter p).map (columnBase l)
  if k = 0 then
    [clkBase, pllBase 0, pllBase 1, pllBase 2] ++ (List.range 4).map monitorBase ++ [keeperBase] ++ cols 0 fun _ => true
  else if k = 1 then
    [rootBase] ++ (List.range 5).map layerBase ++ [formeBase, pinsBase] ++ (List.range 8).map gpioBase ++
    [serialGalleyBase] ++ (List.range 6).map serialBase ++ [selfTestBase, stctlBase, memsysBase]
  else if k = 2 then [configBase]
  else if k = 3 then [mcBase 0] ++ (List.range 4).map moverBase
  else if k = 4 then [mcBase 1] ++ (List.range 4).map fun m => moverBase (m + 4)
  else if k = 5 then [cryptoBase]
  else if k = 6 then (List.range 16).map ringBase
  else if k = 7 then [strikeBase]
  else if k < 26 then [laneGroupBase (k - 8)] ++ (List.range 8).map fun i => laneBase (8 * (k - 8) + i)
  else if k < 30 then cols 1 fun c => quadrantOf c == k - 26
  else if k < 32 then cols 3 fun c => halfOf c == k - 30
  else if k < 36 then cols 2 fun c => quadrantOf c == k - 32
  else cols 4 fun c => quadrantOf c == k - 36

/-- The declared user units that have logic in a domain (R550). -/
def Dev.domainUsers (d : Dev) (k : Nat) : List Nat :=
  (d.units.user.items.filter fun e => e.1 != formeBase && e.2.domains.contains k).map (·.1)

/-! ## Where storage lies -/

/-- Whether a byte of the memory die, or of a relief bank, lies in a quadrant. -/
def byteInQuadrant (q a : Nat) : Bool :=
  bankQuadrant (a / 2 ^ 19) == q

/-- A key check value (R315): the first two bytes of E(K1, 0), the first of them the least significant (DEDUCED from R4, log entry 10). -/
def keyCheck (k1 : BitVec 256) : Nat := smallNum ((cipher (roundKeys k1) (smallBytes 16 0)).take 2)

/-- Key slots when CRYPTO comes on (R315): slot 0 LOADED, the others by the key store and the zeroised record; Kryup's copies hold 0
since SCAN_ENTER (R487). -/
def Dev.fillKeys (d : Dev) : Dev :=
  let held (s : Nat) : Bool := !d.ext.scanLocked && (s == 0 || (!bitOf d.ext.zeroised s && bitOf d.ext.keyStore s))
  let d := d.modExt fun x => { x with slots := x.keySets.keep held }
  (List.range 16).foldl (fun d s =>
    let st := if s = 0 then 1 else if bitOf d.ext.zeroised s then 2 else if bitOf d.ext.keyStore s then 1 else 0
    let perm := if s = 0 then 7 else if st = 1 then d.ext.keyPerm.num s else 0
    let kcv := if s ≠ 0 ∧ st = 1 then keyCheck (d.keys s).k1 else 0
    d.setReg (cryptoBase + 0x800 + 4 * s) (BitVec.ofNat 32 (st * 2 ^ 30 + perm * 2 ^ 16 + kcv))) d

/-- Slots 1 to 15 become ZEROISED (R315); Kryup keeps the record in the AO domain. -/
def Dev.zeroise (d : Dev) : Dev :=
  let d := (d.modExt fun x => { x with zeroised := 0xFFFE }).raise kryupBase Reg.KRY_STATUS.ZEROISED
  if d.domainOn 5 then
    let d := d.modExt fun x => { x with slots := x.slots.keep fun s => s == 0 }
    (List.range 15).foldl (fun d s => d.setReg (cryptoBase + 0x804 + 4 * s) (BitVec.ofNat 32 (2 * 2 ^ 30))) d
  else d

/-- UCB registers that are lost with MGMT (R65, R427): all but STATE and CTRL, of which each unit keeps a copy, outside the
AO domain. -/
def mgmtHeld (a : Nat) : Bool :=
  match unitAt a with
  | none => false
  | some u =>
    decide (a - u.base < 0x2C) && a != u.base + Reg.STATE.SELF.off && a != u.base + Reg.CTRL.ENABLE.off &&
      match u.blk with
      | .kryup | .power | .pdctl | .damper => false
      | _ => true

/-- The storage lost with a domain (R230, R251, R287, R315, R422). -/
def Dev.storageLost (d : Dev) (k : Nat) : Dev :=
  if k = 0 then
    { d with keeper := { crossKHz := d.keeper.crossKHz }, stack := { d.stack with viaCount := {} }
             clk := { tick := d.clk.tick, xaFreq := d.clk.xaFreq, xaWait := d.clk.xaWait, xbWait := d.clk.xbWait, xbKHz := d.clk.xbKHz } }
  else if k = 1 then
    (((d.modCtl fun c => { eventSeq := c.eventSeq, lastPath := c.lastPath, done := c.done, acks := c.acks }).resetRegs mgmtHeld).modLoad
      fun l => { l with mode := .idle, step := .idle, image := none, openUnits := [], requested := false }).modTest
        fun t => { t with repRun := none, bist := none, priv := none }
  else if k = 2 then
    d.plateAbandon
  else if k = 7 then
    d.modStrike fun s => { s with capA := {}, capB := {}, holdCap := 16, busySeen := 0, busyLeft := 0, refused := false, driven := false }
  else if k = 3 ∨ k = 4 then if d.ext.retained.mem (k - 3) then d else d.extLost (k - 3)
  else if k = 5 then d.modExt fun x => { x with slots := {} }
  else if k = 6 then { d with rings := {} }
  else if 26 ≤ k ∧ k < 30 then
    let out := fun c => quadrantOf c != k - 26
    d.modMem fun m =>
      { m with
        bytes := m.bytes.keep fun a => !byteInQuadrant (k - 26) a
        err := m.err.keep fun w => !byteInQuadrant (k - 26) (32 * w)
        corr := m.corr.keep fun w => !byteInQuadrant (k - 26) (32 * w)
        twin := m.twin.keep out
        tracked := m.tracked.keep fun b => bankQuadrant b != k - 26
        scrub := m.scrub.keep out
        relief := ⟨m.relief.items.filter fun e => groupQuadrant e.1 != k - 26 || e.2.permanent⟩
        march := m.march.keep out }
  else if 30 ≤ k ∧ k < 32 then
    let out := fun f => halfOf (stageKeyColumn f) != k - 30
    (d.modPlates fun p => { p with stageFrames := p.stageFrames.keep out, stageErr := p.stageErr.keep out }).each
      ((List.range 16).filter fun g => g / 8 == k - 30) fun d g => d.each (List.range 4) fun d s => d.stageInvalid s g
  else if 32 ≤ k then
    let die := (k - 32) / 4
    let q := (k - 32) % 4
    let d := d.each ((List.range 16).filter fun g => groupQuadrant g == q) Dev.slotsLost
    let out (t : Nat) : Bool := !(t % 2 == die && quadrantOf (t / 2) == q)
    let frame (f : Nat) : Bool := out (plateKeyColumn f * 2 + plateKeyDie f)
    (d.modPlates fun p => { p with plateFrames := p.plateFrames.keep frame, plateErr := p.plateErr.keep frame }).modFabric fun f =>
      { f with
        initStore := f.initStore.keep fun l => out (l / 1024)
        flops := f.flops.keep fun l => out (l / 1024)
        tally := f.tally.keep fun u => out (u / 24 % 256 * 2 + u / 6144)
        fences := f.fences.keep fun k => out (k / 16384)
        clkRun := f.clkRun.keep out }
  else d

/-- Every unit of a domain enters OFF (R425, R426). -/
def Dev.unitsLost (d : Dev) (k : Nat) : Dev := (d.each (d.domainUsers k) Dev.unitOff).each (domainUnits k).reverse Dev.unitOff

/-- A domain loses its power: its units enter OFF and its storage is lost. -/
def Dev.domainLost (d : Dev) (k : Nat) : Dev := (d.unitsLost k).storageLost k

/-- A domain gives up its power: before that its units enter OFF, and the fences of the galleys with logic in it engage on the values
that they present (R195, R425). -/
def Dev.domainYields (d : Dev) (k : Nat) : Dev :=
  let e := d.unitsLost k
  (if 32 ≤ k then e.each (List.range 16) fun e g => e.fenceMove d false g else e).storageLost k

/-- The order in which domains turn off: the reverse of R424's, in which no domain goes before one that lists it as a prerequisite, so
that CRYPTO follows the memory controllers. -/
def offOrder : List Nat := ((List.range 34).map (39 - ·)) ++ [4, 3, 5, 2, 1, 0]

/-- A domain is turned off. -/
def Dev.turnOff (d : Dev) (k : Nat) : Dev :=
  let d := if (k = 3 ∨ k = 4) ∧ d.pd k = pdOn then d.extRetain (k - 3) else d
  let d := if d.pd k = pdOff then d else d.domainYields k
  let d := (((d.setPd k pdOff).setFld pdBase (Reg.PD.ON.elem k) 0).setFld pdBase (Reg.PD.HELD.elem k) 0).setFld pdBase
    (Reg.PD.PGOOD.elem k) 0
  d.modPower fun p => { p with rampTick := p.rampTick.del k, waiting := p.waiting.filter (· != k) }

/-- What comes back with a domain besides its units. -/
def Dev.domainBack (d : Dev) (k : Nat) : Dev :=
  if k = 0 then d.setFld (monitorBase 0) Reg.MON_STATUS.RUNNING 1
  else if k = 5 then d.fillKeys
  else if k = 3 ∨ k = 4 then d.setFld (mcBase (k - 3)) Reg.MC_STATUS.SELF_REFRESH (bit01 (d.ext.retained.mem (k - 3)))
  else if 8 ≤ k ∧ k < 26 then
    (d.modGroup (k - 8) fun g => { g with pgTick := d.tick }).setFld (laneGroupBase (k - 8)) Reg.LG_STATUS.REF_PRESENT
      (bit01 ((d.group (k - 8)).lrefKHz != 0))
  else if k = 1 then d.pinsStart
  else if k = 7 then d.driveStrike
  else d

/-- A ramping domain has reached power-good (R424): its units leave OFF, and the domains that waited for it ramp. -/
def Dev.domainGood (d : Dev) (k : Nat) : Dev :=
  if d.pd k = pdRamping then
    let d := (d.setPd k pdOn).setFld pdBase (Reg.PD.PGOOD.elem k) 1
    let d := (d.modPower fun p => { p with rampTick := p.rampTick.del k }).domainBack k
    let d := d.each (domainUnits k) Dev.unitOn
    let d := d.each (d.domainUsers k) fun d b => if d.powered b then d.unitOn b else d
    d.each d.power.waiting fun d w => if (domainPrereqs w).contains k then d.beginRamp w else d
  else d

/-- The domain enters FAULT (R426); it stays off until software writes ON to 0 and then to 1. -/
def Dev.domainFault (d : Dev) (k : Nat) : Dev :=
  let d := if d.pd k = pdOn then d.domainLost k else d
  let d := (d.setPd k pdFault).setFld pdBase (Reg.PD.PGOOD.elem k) 0
  d.modPower fun p => { p with rampTick := p.rampTick.del k, waiting := p.waiting.filter (· != k) }

end Sys2Proof.Machine
end

