-- ==== Sys2Proof/Machine/Sha.lean ====
section
/-!
DEFINITION. SHA-384 (FIPS 180-4, R339) and the verification of ECDSA P-384 signatures (FIPS 186-5, R359).
-/
namespace Sys2Proof.Machine

/-! ## SHA-384 -/

/-- The 80 constants, 16 a number, the first in the lowest 64 bits. -/
def shaRows : List Nat :=
  [0xC19BF174CF6926949BDC06A725C7123580DEB1FE3B1696B172BE5D74F27B896F550C7DC3D5FFB4E2243185BE4EE4B28C12835B0145706FBED807AA98A3030242AB1C5ED5DA6D8118923F82A4AF194F9B59F111F1B605D0193956C25BF348B538E9B5DBA58189DBBCB5C0FBCFEC4D3B2F7137449123EF65CD428A2F98D728AE22,
   0x142929670A0E6E7006CA6351E003826FD5A79147930AA725C6E00BF33DA88FC2BF597FC7BEEF0EE4B00327C898FB213FA831C66D2DB43210983E5152EE66DFAB76F988DA831153B55CB0A9DCBD41FBD44A7484AA6EA6E4832DE92C6F592B0275240CA1CC77AC9C650FC19DC68B8CD5B5EFBE4786384F25E3E49B69C19EF14AD2,
   0x106AA07032BBD1B8F40E35855771202AD69906245565A910D192E819D6EF5218C76C51A30654BE30C24B8B70D0F89791A81A664BBC423001A2BFE8A14CF1036492722C851482353B81C2C92E47EDAEE6766A0ABB3C77B2A8650A73548BAF63DE53380D139D95B3DF4D2C6DFC5AC42AED2E1B21385C26C92627B70A8546D22FFC,
   0xC67178F2E372532BBEF9A3F7B2C67915A4506CEBDE82BDE990BEFFFA23631E288CC702081A6439EC84C87814A1F0AB7278A5636F43172F60748F82EE5DEFB2FC682E6FF3D6B2B8A35B9CCA4F7763E3734ED8AA4AE3418ACB391C0CB3C5C95A6334B0BCB5E19B48A82748774CDF8EEB991E376C085141AB5319A4C116B8D2D0C8,
   0x6C44198C4A4758175FCB6FAB3AD6FAEC597F299CFC657E2A4CC5D4BECB3E42B6431D67C49C100D4C3C9EBE0A15C9BEBC32CAAB7B40C7249328DB77F523047D841B710B35131C471B113F9804BEF90DAE0A637DC5A2C898A606F067AA72176FBAF57D4F7FEE6ED178EADA7DD6CDE0EB1ED186B8C721C0C207CA273ECEEA26619C]

/-- The 8 words that the hash begins with. -/
def shaStart : List Nat :=
  [0xCBBB9D5DC1059ED8,
   0x629A292A367CD507,
   0x9159015A3070DD17,
   0x152FECD8F70E5939,
   0x67332667FFC00B31,
   0x8EB44A8768581511,
   0xDB0C2E0D64F98FA7,
   0x47B5481DBEFA4FA4]

/-- A constant of the hash. -/
def shaConst (t : Nat) : Nat := shaRows.getD (t / 16) 0 >>> (64 * (t % 16)) % 2 ^ 64

/-- A 64-bit word turned right. -/
def turn (n x : Nat) : Nat := (x >>> n) ||| (x <<< (64 - n) % 2 ^ 64)

/-- The message schedule: `n` more words, from the 16 before them, the latest first. -/
def shaWords : Nat → List Nat → List Nat
  | 0, w => w
  | n + 1, w =>
    let a := w.getD 14 0
    let b := w.getD 1 0
    let s0 := turn 1 a ^^^ turn 8 a ^^^ (a >>> 7)
    let s1 := turn 19 b ^^^ turn 61 b ^^^ (b >>> 6)
    shaWords n ((s1 + w.getD 6 0 + s0 + w.getD 15 0) % 2 ^ 64 :: w)

/-- Rounds over the schedule, from round `t` on. -/
def shaRounds : Nat → List Nat → List Nat → List Nat
  | t, w :: rest, [a, b, c, d, e, f, g, h] =>
    let x := (h + (turn 14 e ^^^ turn 18 e ^^^ turn 41 e) + ((e &&& f) ^^^ ((2 ^ 64 - 1 - e) &&& g)) + shaConst t + w) % 2 ^ 64
    let y := ((turn 28 a ^^^ turn 34 a ^^^ turn 39 a) + ((a &&& b) ^^^ (a &&& c) ^^^ (b &&& c))) % 2 ^ 64
    shaRounds (t + 1) rest [(x + y) % 2 ^ 64, a, b, c, (d + x) % 2 ^ 64, e, f, g]
  | _, _, l => l

/-- A block of 128 bytes taken into the hash. -/
def shaBlock (hash block : List Nat) : List Nat :=
  let w := (shaWords 64 ((partsOf 8 block).map bigNum).reverse).reverse
  List.zipWith (fun a b => (a + b) % 2 ^ 64) hash (shaRounds 0 w hash)

/-- The message with its padding and length. -/
def shaPadded (m : List Nat) : List Nat :=
  m ++ 0x80 :: List.replicate ((239 - m.length % 128) % 128) 0 ++ bigBytes 16 (8 * m.length)

/-- SHA-384 of bytes: 48 bytes. -/
def sha384 (m : List Nat) : List Nat :=
  (((partsOf 128 (shaPadded m)).foldl shaBlock shaStart).take 6).flatMap (bigBytes 8)

/-! ## The curve P-384. A point is (X, Y, Z) with x = X / Z² and y = Y / Z³; Z = 0 is the point at infinity. -/

def curveP : Nat := 2 ^ 384 - 2 ^ 128 - 2 ^ 96 + 2 ^ 32 - 1
def curveB : Nat := 0xB3312FA7E23EE7E4988E056BE3F82D19181D9C6EFE8141120314088F5013875AC656398D8A2ED19D2A85C8EDD3EC2AEF
def curveN : Nat := 0xFFFFFFFFFFFFFFFFFFFFFFFFFFFFFFFFFFFFFFFFFFFFFFFFC7634D81F4372DDF581A0DB248B0A77AECEC196ACCC52973
def curveG : Nat × Nat × Nat :=
  (0xAA87CA22BE8B05378EB1C71EF320AD746E1D3B628BA79B9859F741E082542A385502F25DBF55296C3A545E3872760AB7,
   0x3617DE4A96262C6F5D9E98BF9292DC29F8F41DBD289A147CE9DA3113B5F0B8C00A60B1CE1D7E819D7A431D7C90EA0E5F, 1)

/-- A difference modulo the field's prime. -/
def lessP (a b : Nat) : Nat := (a + curveP - b % curveP) % curveP

/-- The double of a point. -/
def pointDouble (a : Nat × Nat × Nat) : Nat × Nat × Nat :=
  let (x, y, z) := a
  let zz := z * z % curveP
  let yy := y * y % curveP
  let s := 4 * x * yy % curveP
  let m := 3 * (lessP x zz) * (x + zz) % curveP
  let x3 := lessP (m * m) (2 * s)
  (x3, lessP (m * lessP s x3) (8 * yy * yy), 2 * y * z % curveP)

/-- The sum of two points. -/
def pointAdd (a b : Nat × Nat × Nat) : Nat × Nat × Nat :=
  let (x1, y1, z1) := a
  let (x2, y2, z2) := b
  if z1 = 0 then b
  else if z2 = 0 then a
  else
    let u1 := x1 * (z2 * z2 % curveP) % curveP
    let u2 := x2 * (z1 * z1 % curveP) % curveP
    let s1 := y1 * (z2 * z2 % curveP * z2 % curveP) % curveP
    let s2 := y2 * (z1 * z1 % curveP * z1 % curveP) % curveP
    if u1 = u2 then (if s1 = s2 then pointDouble a else (1, 1, 0))
    else
      let h := lessP u2 u1
      let r := lessP s2 s1
      let hh := h * h % curveP
      let v := u1 * hh % curveP
      let x3 := lessP (r * r) (h * hh + 2 * v)
      (x3, lessP (r * lessP v x3) (s1 * (h * hh % curveP)), h * z1 % curveP * z2 % curveP)

/-- A multiple of a point, by the `n` lowest bits of a number, the highest first. -/
def pointTimes (k : Nat) (a : Nat × Nat × Nat) : Nat → Nat × Nat × Nat → Nat × Nat × Nat
  | 0, acc => acc
  | n + 1, acc =>
    let acc := pointDouble acc
    pointTimes k a n (if k.testBit n then pointAdd acc a else acc)

/-- A power modulo a number, by the `n` lowest bits of the exponent, the highest first. -/
def powerMod (m b e : Nat) : Nat → Nat → Nat
  | 0, acc => acc
  | n + 1, acc => powerMod m b e n (if e.testBit n then acc * acc % m * b % m else acc * acc % m)

/-- The inverse modulo a prime below 2^384. -/
def inverseMod (m x : Nat) : Nat := powerMod m (x % m) (m - 2) 384 1

/-- A point of the curve. -/
def onCurve (x y : Nat) : Bool :=
  decide (x < curveP ∧ y < curveP ∧ y * y % curveP = (x * x * x + (curveP - 3) * x + curveB) % curveP)

/-- An ECDSA P-384 signature (r, s) by the key (x, y) belongs to a message hashed with SHA-384 (FIPS 186-5). -/
def ecdsaVerify (x y r s : Nat) (m : List Nat) : Bool :=
  if !onCurve x y || r = 0 || curveN ≤ r || s = 0 || curveN ≤ s then false
  else
    let w := inverseMod curveN s
    let e := bigNum (sha384 m)
    let (px, _, pz) := pointAdd (pointTimes (e * w % curveN) curveG 384 (1, 1, 0)) (pointTimes (r * w % curveN) (x, y, 1) 384 (1, 1, 0))
    pz != 0 && px * inverseMod curveP (pz * pz % curveP) % curveP % curveN == r

/-- The parts of a signature block (R359): the key's hash, and whether its signature belongs to a message. -/
def blockKey (b : List Nat) : List Nat := sha384 (b.take 96)
def blockSigns (b m : List Nat) : Bool :=
  match (partsOf 48 b).map bigNum with
  | [x, y, r, s] => ecdsaVerify x y r s m
  | _ => false

/-- Kryup holds the hash of a block's key at an index that is not revoked (R359, R455). -/
def Dev.keyHeld (d : Dev) (i : Nat) (block : List Nat) : Bool :=
  bitOf d.ident.present i && !bitOf d.ident.revoked i && bigNum (blockKey block) == (d.ident.keyHash.at i 0).toNat

end Sys2Proof.Machine
end

