-- ==== Sys2Proof/Machine/Resets.lean ====
section
/-!
DEFINITION. Kryup's log and latches, the proposal check, and the resets of the device (R386, R387, R455 to R463): the
operations that the causes and the reset commands share.
-/
namespace Sys2Proof.Machine

/-! ## The policy (R454) -/

/-- ACTIONS and HOLD of a cause, codes 1 to 16. -/
def Dev.polActions (d : Dev) (c : Nat) : Nat := fget (d.reg (kryupBase + 0x400 + 16 * c)) Reg.POL_ENTRY0.ACTIONS
def Dev.polHold (d : Dev) (c : Nat) : Nat := fget (d.reg (kryupBase + 0x400 + 16 * c)) Reg.POL_ENTRY0.HOLD
/-- DOM of a cause, 40 bits. -/
def Dev.polDom (d : Dev) (c : Nat) : Nat :=
  (d.reg (kryupBase + 0x404 + 16 * c)).toNat + fget (d.reg (kryupBase + 0x408 + 16 * c)) Reg.POL_ENTRY2.DOM_HI * 2 ^ 32

def actLog : Nat := 0
def actEvent : Nat := 1
def actAlarm : Nat := 2
def actHold : Nat := 3
def actZeroise : Nat := 4
def actDomains : Nat := 5
def actWarm : Nat := 6
def actDevice : Nat := 7

/-- Whether a cause's latch is set (R450). -/
def Dev.latched (d : Dev) (c : Nat) : Bool := bitOf (d.reg (kryupBase + Reg.CAUSE_PEND.LATCH.off)).toNat c
/-- Whether some set latch has an action. -/
def Dev.anyLatch (d : Dev) (act : Nat) : Bool :=
  (List.range 17).any fun c => decide (1 ≤ c) && d.latched c && bitOf (d.polActions c) act
/-- Kryup's safe hold line (R451). -/
def Dev.kryHold (d : Dev) : Bool := d.anyLatch actHold
/-- ALARM_N is driven low (R453, R455). -/
def Dev.alarm (d : Dev) : Bool := d.kryup.halted || d.anyLatch actAlarm

/-- VFAB_EN, an output of the AO bank: low while VCC_AO is below its threshold, and while the trip latch holds (R444 to R446, R502,
R522). -/
def Dev.vfabEn (d : Dev) : Bool := d.load.step != .power && !d.flag kryupBase Reg.THM_STATUS.TRIPPED

/-- KRY_STATUS follows the latches. -/
def Dev.showLatches (d : Dev) : Dev :=
  (d.setFld kryupBase Reg.KRY_STATUS.HOLD (bit01 d.kryHold)).setFld kryupBase Reg.KRY_STATUS.ALARM (bit01 d.alarm)

def Dev.setLatch (d : Dev) (c : Nat) (v : Bool) : Dev :=
  d.setFld kryupBase ⟨Reg.CAUSE_PEND.LATCH.off, c, 1⟩ (bit01 v)

/-- A log entry (R458). -/
def Dev.kryLog (d : Dev) (c : Nat) (detail : Word) : Dev :=
  let head := (d.reg (kryupBase + Reg.LOG_HEAD.off)).toNat
  let e : LogEntry := { w0 := BitVec.ofNat 32 (c + d.tick % 2 ^ 24 * 2 ^ 8), w1 := detail }
  (d.modKryup fun k => { k with log := k.log.put (head % 512) e }).setReg (kryupBase + Reg.LOG_HEAD.off)
    (BitVec.ofNat 32 (head + 1))

/-! ## The policy and proposals at a reset (R454 to R457) -/

/-- The MAGIC word of a proposal, and the sizes of its policy and signature in words. A buffer that was overrun keeps one word more
than it holds. -/
def propMagic : Nat := 0x0152504B
def policyWords : Nat := 64
/-- The words of the staging buffer. -/
def bufferWords : Nat := 4096
def signatureWords : Nat := 48

/-- A policy's words, 4 for each cause in code order, written to POL_ENTRY. -/
def Dev.loadPolicy (d : Dev) (ws : List Word) : Dev :=
  (List.range policyWords).foldl (fun d i => d.setReg (kryupBase + 0x410 + 4 * i) (ws.getD i 0)) d

/-- Bits of a policy that R454 requires to be 0. -/
def policyReservedOk (ws : List Word) : Bool :=
  (List.range policyWords).all fun i =>
    let w := (ws.getD i 0).toNat
    match i % 4 with
    | 0 => bitsOf w 8 8 == 0
    | 1 => true
    | 2 => bitsOf w 8 24 == 0
    | _ => w == 0

/-- The address names a KW register that a proposal may write (R457, code 0x05). -/
def pairOk (a : Nat) : Bool :=
  a % 4 == 0 && !(decide (cryptoBase + 0x800 ≤ a ∧ a < cryptoBase + 0x840)) &&
  match unitAt a with
  | none => false
  | some u =>
    match u.rowAt (a - u.base) with
    | some r => r.kw != 0 || (a - u.base == Reg.CTRL.ENABLE.off && (u.blk == .kryup || u.blk == .monitor))
    | none => false

/-- A proposal read from its buffer. -/
structure Proposal where
  seq      : Nat
  pairs    : List (Nat × Word)
  policy   : List Word
  persist  : Bool
  unsigned : Bool
  signer   : Nat
deriving DecidableEq, Repr

/-- The register pairs in a list of words. -/
def pairsOf : List Word → List (Nat × Word)
  | a :: v :: t => (a.toNat, v) :: pairsOf t
  | _ => []

/-- The check of a proposal (R457): the proposal, or the first code that applies. -/
def Dev.checkProposal (d : Dev) : Nat ⊕ Proposal :=
  let ws := d.kryup.prop
  let word (i : Nat) := (ws.getD i 0).toNat
  let n := word 2
  let policy := bitOf (word 3) 0
  let unsigned := bitOf (word 3) 2
  let signer := bitsOf (word 3) 8 2
  let size := 4 + 2 * n + (if policy then policyWords else 0) + (if unsigned then 0 else signatureWords)
  let block := wordBytes ((ws.take size).drop (size - signatureWords))
  let pairs := pairsOf ((ws.drop 4).take (2 * n))
  let pol := if policy then (ws.drop (4 + 2 * n)).take policyWords else []
  if word 0 ≠ propMagic ∨ ws.length < size ∨ bufferWords < ws.length then .inl 1
  else if word 1 ≤ (d.kryup.stored.map (·.seq)).getD 0 then .inl 2
  else if unsigned && d.ident.closed then .inl 3
  else if !unsigned &&
      !(d.keyHeld signer block && blockSigns block (wordBytes (ws.take (size - signatureWords)))) then .inl 4
  else if !pairs.all (fun p => pairOk p.1) then .inl 5
  else if policy && !policyReservedOk pol then .inl 6
  else .inr { seq := word 1, pairs := pairs, policy := pol, persist := bitOf (word 3) 1, unsigned := unsigned, signer := signer }

/-- Kryup's write of REP_FUSE stores the word (R6) and burns it (R485): only with VCC_FUSE (rail 18) within its limits and a word
free. -/
def Dev.burnRepair (d : Dev) (w : Word) : Dev :=
  let d := d.setReg (stctlBase + Reg.REP_FUSE.W0.off) w
  if bitOf d.power.railsGood 18 && decide (d.pins.burned < 1536) then
    d.modPins fun p => { p with fuses := p.fuses.set (512 + p.burned) 0 w, burned := p.burned + 1 }
  else d.raise stctlBase Reg.REP_STATUS.FUSE_FAIL

/-- Kryup's own write of a register, as the pairs of a proposal make it. -/
def Dev.kryWrite (d : Dev) (p : Nat × Word) : Dev :=
  if p.1 = stctlBase + Reg.REP_FUSE.W0.off then d.burnRepair p.2
  else
    match (unitAt p.1).bind fun u => (u.rowAt (p.1 - u.base)) with
    | some r => d.setReg p.1 ((d.reg p.1 &&& ~~~BitVec.ofNat 32 (r.kw ||| r.rw)) ||| (p.2 &&& BitVec.ofNat 32 (r.kw ||| r.rw)))
    | none => d

/-- Whether what is stored in flash acts (R454, R456): unsigned contents only while the fuse is open, signed ones only
under a key that is present and not revoked. -/
def Dev.storedActs (d : Dev) (s : StoredProposal) : Bool :=
  if s.unsigned then !d.ident.closed else bitOf d.ident.present s.signer && !bitOf d.ident.revoked s.signer

/-- Kryup at power-on or device reset: stored pairs and a submitted proposal, then the policy table (R454 to R457).
Answers the state and the rejection code of the proposal, if any. -/
def Dev.kryupStart (d : Dev) : Dev × Option Nat :=
  let d := match d.kryup.stored with
    | some s => if d.storedActs s then d.each s.pairs Dev.kryWrite else d
    | none => d
  let (d, once, code) : Dev × List Word × Option Nat :=
    if d.fld kryupBase Reg.PROP_STATUS.STATE = 2 then
      let d' := d.modKryup fun k => { k with prop := [] }
      let d' := d'.setFld kryupBase Reg.PROP_STATUS.WORDS 0
      match d.checkProposal with
      | .inl c => ((d'.setFld kryupBase Reg.PROP_STATUS.REJECT c).setFld kryupBase Reg.PROP_STATUS.STATE 0, [], some c)
      | .inr p =>
        let d' := (d'.each p.pairs Dev.kryWrite).setFld kryupBase Reg.PROP_STATUS.STATE 3
        let d' := if p.persist then
            d'.modKryup fun k =>
              { k with stored := some { seq := p.seq, signer := p.signer, pairs := p.pairs, policy := p.policy, unsigned := p.unsigned } }
          else d'
        (d', p.policy, none)
    else (d, [], none)
  let pol := if once ≠ [] then once
    else match d.kryup.stored with
      | some s => if d.storedActs s then s.policy else []
      | none => []
  let d := if pol ≠ [] then (d.loadPolicy pol).setFld kryupBase Reg.KRY_STATUS.POLICY 0
    else if d.ident.closed then
      (((d.setFld kryupBase Reg.KRY_STATUS.POLICY 2).modKryup fun k => { k with halted := true }).setFld kryupBase
        Reg.KRY_STATUS.ALARM 1).modClk fun c => { c with fio := .starting, fioTick := c.tick }
    else d.setFld kryupBase Reg.KRY_STATUS.POLICY 1
  (d, code)

/-! ## Reset states -/

/-- The registers of the identity and the fuses, as a reset leaves them. -/
def Dev.showIdent (d : Dev) : Dev :=
  let d := (d.setFld kryupBase Reg.KRY_STATUS.SEC_CLOSED (bit01 d.ident.closed)).setFld kryupBase Reg.FUSE_SEC.PRESENT d.ident.present
  let d := d.setFld kryupBase Reg.FUSE_SEC.REVOKED d.ident.revoked
  let d := (d.setFld rootBase Reg.DEV_ID.SPEED d.ident.speed).setFld rootBase Reg.DEV_STEP.MAJOR d.ident.stepMajor
  let d := d.setFld rootBase Reg.DEV_STEP.MINOR d.ident.stepMinor
  d.setFld stctlBase Reg.SCAN_PERMIT.EN (bit01 (!d.ident.closed))

/-- The hottest valid reading of the sensors of the powered layers, as a TEMP code; 0 when none is valid. -/
def Dev.hottest (d : Dev) : Nat :=
  (List.range 1280).foldl (fun m u => max m (d.layerTemp (u / 256) (u % 256))) 0

/-- A threshold in °C as a TEMP code (R437: code × 0.5 − 64 °C). -/
def tempCode (c : Nat) : Nat := 2 * c + 128

/-- The EVT threshold in force: a value above its reset value acts as that (governor registers). -/
def Dev.thEvt (d : Dev) : Nat := tempCode (min 0x64 (d.fld kryupBase Reg.THM_TH.EVT))

/-- A device reset (R386, R460): everything outside the AO domain, the latches and the KW registers return to reset; the
fuses, the log, a submitted proposal, RESET_CAUSE and a standing trip latch stay (R446). LPDDR5X keeps what its devices hold
in self-refresh (R328). The start runs from step 2. -/
def Dev.deviceReset (d : Dev) (last cause : Nat) : Dev × Option Nat :=
  let tripped := d.flag kryupBase Reg.THM_STATUS.TRIPPED && !decide (d.hottest < d.thEvt)
  let trip := d.flag kryupBase Reg.THM_EVENT.TRIP
  let k := d.kryup
  let submitted := d.fld kryupBase Reg.PROP_STATUS.STATE = 2
  let d := (List.range 2).foldl (fun d w => if d.ext.retained.mem w then d else d.extLost w) d
  let n : Dev :=
    { free := d.free, ident := d.ident, keeper := { crossKHz := d.keeper.crossKHz, lastKHz := d.keeper.crossKHz }
      clk := { tick := d.clk.tick, xaFreq := d.clk.xaFreq, xaWait := d.clk.xaWait, xbWait := d.clk.xbWait, xbKHz := d.clk.xbKHz }
      groups := ⟨d.groups.items.map fun e => (e.1, { lrefKHz := e.2.lrefKHz })⟩
      ext := { d.ext.lasting with retained := d.ext.retained }
      power := { railsGood := d.power.railsGood, vccio := d.power.vccio }
      kryup := { log := k.log, prop := if submitted then k.prop else [], stored := k.stored }
      heat := { common := d.heat.common, readings := d.heat.readings }
      test := { softMap := d.test.softMap }
      pins := { pad := d.pins.pad, jtag := d.pins.jtag, boundary := d.pins.boundary, flash := d.pins.flash, fuses := d.pins.fuses, burned := d.pins.burned } }
  let n := n.showIdent
  let n := n.setReg (kryupBase + Reg.LOG_HEAD.off) (d.reg (kryupBase + Reg.LOG_HEAD.off))
  let n := if submitted then n.setFld kryupBase Reg.PROP_STATUS.STATE 2 else n
  let n := (n.setFld kryupBase Reg.RESET_CAUSE.LAST last).setFld kryupBase Reg.RESET_CAUSE.POLICY_CAUSE cause
  let n := (n.setFld kryupBase Reg.THM_STATUS.TRIPPED (bit01 tripped)).setFld kryupBase Reg.THM_EVENT.TRIP (bit01 trip)
  n.kryupStart

/-- The B0 units a base warm reset returns to reset (R387, R460): all but Kryup, the clock generation and power
galleys, the pins galley, the forme, and the layer galleys above B0. -/
def warmUnits : List Nat :=
  [rootBase, layerBase 0, serialGalleyBase] ++ (List.range 6).map serialBase ++ [selfTestBase, stctlBase, configBase, memsysBase,
    cryptoBase, mcBase 0, mcBase 1] ++ (List.range 8).map moverBase ++ (List.range 16).map ringBase ++ [strikeBase] ++
  (List.range 18).map laneGroupBase ++ (List.range 144).map laneBase ++ (List.range 256).map (columnBase 0)

/-- Registers of a warm-reset unit that stay: the loader's (R387) and the link state of the B0 columns, whose vertical
connections the reset leaves (R460). -/
def warmKept (b off : Nat) : Bool :=
  match (unitOf b).blk with
  | .root =>
    off == Reg.LD_STATUS.off || off == Reg.IMAGE_ID_LO.off || off == Reg.IMAGE_ID_HI.off || off == Reg.LD_CFG.off ||
    off == Reg.REL_GAP.off || off == Reg.BOOT_INFO.off || off == Reg.DEV_ID.off || off == Reg.DEV_STEP.off
  | .column =>
    off == Reg.VLINK_STATE.off || off == Reg.SPARE_USE.off || off == Reg.CLK_VIA.off || off == Reg.VLINK_HALF.off ||
    off == Reg.VLINK_HALF2.off || off == Reg.DEAD_SHAFTS.off
  | .crypto => decide (0x800 ≤ off)
  | .config => plateShown off
  | .strike => off == Reg.STK_SRC.off
  | _ => false

/-- One unit in a base warm reset: reset values, STOPPED while its domain is on; standing causes stay. -/
def Dev.warmUnit (d : Dev) (b : Nat) : Dev :=
  let s := d.ust b
  let d := match s with
    | .running | .draining | .degraded => d.discardWork b
    | _ => d
  let d := ((d.clearColumn b).cancelSeq b |>.resetRecord b).resetRegs fun a => decide (b ≤ a ∧ a < b + windowSize b) && !warmKept b (a - b)
  if s = .off then d
  else
    let st := d.causesLeft b
    let d := d.setFld b Reg.STATE.SELF UState.stopped.code
    if st = 0 then d.refresh d.depth b else (d.faultBits b st).setUst b .faulted

/-- A base warm reset begins (R461): traffic through B0 is fenced and the B0 units are reset; an open load ends
ABORTED (R387). One requested while another is in progress is dropped (R452). -/
def Dev.warmReset (d : Dev) : Dev :=
  if d.kryup.warm then d
  else
    let d := d.countBy kryupBase Reg.RESET_CAUSE.WARM_COUNT 1
    let d := d.each warmUnits Dev.warmUnit
    let d := d.modCtl fun c => { eventSeq := c.eventSeq, lastPath := c.lastPath, done := c.done, acks := c.acks }
    let d := d.modKryup fun k => { k with warm := true, warmHeld := true }
    let d := (d.setFld rootBase Reg.LD_STATUS.PARTIAL 0).setFld rootBase Reg.LD_STATUS.CAUSE 0
    let d := if d.load.mode = .idle then d.setFld rootBase Reg.LD_STATUS.PATH 0 else d.imageReject ldAborted noIndex
    d.raise rootBase Reg.LD_EVENT.WARM

end Sys2Proof.Machine
end

