-- ==== Sys2Proof/Machine/Causes.lean ====
section
/-!
DEFINITION. Causes as they arrive at Kryup and the actions of the policy (R449 to R453).
-/
namespace Sys2Proof.Machine

/-- The ALARM block of a cause (R145, R174). -/
def alarmBlock (cause : Nat) (detail : Word) : Payload := withChk (ctlAlarm + cause % 256 * 2 ^ 8 + detail.toNat * 2 ^ 24)

/-- ALARM blocks leave on every lane whose ALARM feature is agreed and whose ALARM_TX_EN is 1 (R174, R453). -/
def Dev.sendAlarms (d : Dev) (cause : Nat) (detail : Word) : Dev :=
  if cause = causeRemote then d
  else d.each (List.range 144) fun d n =>
    if d.agreed n featAlarm && d.flag (laneBase n) Reg.LINK_CTRL.ALARM_TX_EN then d.sendControl n (alarmBlock cause detail)
    else d

/-- RESET_DOMAINS (R451): the domains named that are on, ramp or are in FAULT are turned off, dependents first, and then on again;
CLKGEN and MGMT, and those that are off, are left. One with a dependent that stays on is refused as a write of ON would be (R425). -/
def Dev.resetDomains (d : Dev) (mask : Nat) : Dev :=
  let named := offOrder.filter fun k => bitOf mask k && decide (2 ≤ k) && d.pd k != pdOff
  let d := d.each named fun d k => if d.dependentOn k then d.raise pdBase Reg.PD_EVENT.DEP_REJECT else d.turnOff k
  d.each named.reverse fun d k => if d.pd k = pdOff then d.requestOn domainDepth k else d

/-- The actions of newly set latches other than the resets, for one cause (R451). -/
def Dev.causeActions (d : Dev) (cause : Nat) (detail : Word) : Dev :=
  let acts := d.polActions cause
  let d := if bitOf acts actLog then d.kryLog cause detail else d
  let d := if bitOf acts actAlarm then d.sendAlarms cause detail else d
  if bitOf acts actZeroise then d.zeroise else d

/-- The first arrival of each cause. -/
def firstOf (l : List (Nat × Word)) : List (Nat × Word) :=
  l.foldl (fun acc c => if acc.any fun x => x.1 == c.1 then acc else acc ++ [c]) []

/-- Causes that arrive together (R450 to R452): latches set, actions taken once for each latch newly set, and the widest
reset among them alone. A device reset may raise PROPOSAL_REJECT in its turn. -/
def Dev.raiseCauses : Nat → Dev → List (Nat × Word) → Dev
  | 0, d, _ => d
  | n + 1, d, cs =>
    let fresh := firstOf (cs.filter fun c => !d.latched c.1)
    let d := d.each cs fun d c =>
      (d.setLatch c.1 true).modKryup fun k => { k with lastTick := k.lastTick.put c.1 d.tick }
    let d := (d.each fresh fun d c => d.causeActions c.1 c.2).showLatches
    match fresh.find? fun c => bitOf (d.polActions c.1) actDevice with
    | some c =>
      let (d, reject) := d.deviceReset 3 c.1
      match reject with
      | some code => Dev.raiseCauses n d [(causeProposal, BitVec.ofNat 32 code)]
      | none => d
    | none =>
      if fresh.any fun c => bitOf (d.polActions c.1) actWarm then d.warmReset
      else d.each (fresh.filter fun c => bitOf (d.polActions c.1) actDomains) fun d c => d.resetDomains (d.polDom c.1)

/-- A cause arrives. -/
def Dev.raiseCause (d : Dev) (cause : Nat) (detail : Nat) : Dev := d.raiseCauses 2 [(cause, BitVec.ofNat 32 detail)]

/-- A device reset from a source other than a policy (R460). -/
def Dev.resetDevice (d : Dev) (last : Nat) : Dev :=
  let (d, reject) := d.deviceReset last 0
  match reject with
  | some code => d.raiseCause causeProposal code
  | none => d

end Sys2Proof.Machine
end

