-- ==== Sys2Proof/Machine/Events.lean ====
section
/-!
DEFINITION. The events of the unit tree with IRQ_N and EVENT messages (R65, R74, R93).
-/
namespace Sys2Proof.Machine

/-- The event registers whose bits feed EVENT.UNIT. -/
def eventRegs (u : Unit) : List Nat :=
  match u.blk with
  | .root => [Reg.LD_EVENT.off]
  | .kryup => [Reg.THM_EVENT.off]
  | .clkgen => [Reg.CLK_EVENT.off]
  | .keeper => [Reg.KEEP_EVENT.off]
  | .power => [Reg.MODE_EVENT.off]
  | .pdctl => [Reg.PD_EVENT.off]
  | .damper => [Reg.DMP_EVENT.off]
  | .config => [Reg.PLATE_EVENT.off]
  | .pins => [Reg.PIN_EVENT.off]
  | .gpio => [Reg.IRQ_PEND_LO.off, Reg.IRQ_PEND_HI.off, Reg.BANK_EVENT.off]
  | .serial => [Reg.SER_EVENT.off]
  | .strike => [Reg.STK_EVENT.off]
  | .stctl => [Reg.PEAL_EVENT.off]
  | .mc => [Reg.MC_EVENT.off]
  | .crypto => [Reg.CRY_EVENT.off]
  | .mover => [Reg.MV_EVENT.off]
  | .hitLane | .trunkLane => [Reg.LANE_EVENT.off, Reg.BLK_EVENT.off, Reg.LINK_EVENT.off, Reg.PORT_EVENT.off]
  | .laneGroup => [Reg.LG_EVENT.off]
  | .ring => [Reg.ENG_EVENT.off]
  | .column =>
    if u.layer = 0 then [Reg.VIA_EVENT.off]
    else if u.layer = 1 then [Reg.MEM_EVENT.off]
    else if u.layer = 3 then []
    else [Reg.TILE_EVENT.off]
  | _ => []

/-- EVENT.UNIT: some bit of the unit's own event registers is set; in Kryup also the latches with action EVENT (R451). -/
def Dev.unitEvent (d : Dev) (b : Nat) : Bool :=
  let u := unitOf b
  (eventRegs u).any (fun o => d.reg (b + o) != 0) || (u.blk == .kryup && d.anyLatch actEvent)

/-- EVENT as it reads but for CHILD. -/
def Dev.ownEvent (d : Dev) (b : Nat) : Word :=
  fset (d.reg (b + Reg.EVENT.FAULT.off)) Reg.EVENT.UNIT (bit01 (d.unitEvent b))

/-- A unit raises its event (R65), judged to a depth of the tree. -/
def Dev.raises : Nat → Dev → Nat → Bool
  | 0, _, _ => false
  | n + 1, d, b =>
    let en := d.reg (b + Reg.EVENT_EN.EN.off)
    (d.ownEvent b &&& en) != 0 ||
      (d.isGalley b && en.getLsbD 0 && (d.children b).any fun c => Dev.raises n d c.2)

/-- EVENT as it reads. -/
def Dev.eventWord (d : Dev) (b : Nat) : Word :=
  fset (d.ownEvent b) Reg.EVENT.CHILD (bit01 (d.isGalley b && (d.children b).any fun c => d.raises d.depth c.2))

/-- The event of a unit reaches the root through EVENT_EN.CHILD of every galley above it. -/
def Dev.reaches : Nat → Dev → Nat → Bool
  | 0, _, _ => false
  | n + 1, d, b =>
    match d.parent b with
    | none => b == rootBase
    | some p => (d.reg (p + Reg.EVENT_EN.EN.off)).getLsbD 0 && Dev.reaches n d p

/-- The root galley raises its event (R93): a unit with a register away from reset raises its own, and it reaches the
root. A unit all of whose registers hold their reset values raises none. -/
def Dev.rootRaises (d : Dev) : Bool :=
  let bases := (kryupBase :: d.regs.keys.filterMap fun a => (unitAt a).map (·.base)).eraseDups
  bases.any fun b => (d.ownEvent b &&& d.reg (b + Reg.EVENT_EN.EN.off)) != 0 && d.reaches d.depth b

/-- IRQ_N is driven low (R93). -/
def Dev.irqLow (d : Dev) : Bool := d.flag rootBase Reg.IRQ_CTRL.IRQ_EN && d.rootRaises

/-- An EVENT message is queued for EVT_LANE, when that lane carries it (R93, R154); its sequence number is given when it is sent. -/
def Dev.sendEvent (d : Dev) : Dev :=
  let n := 128 + d.fld rootBase Reg.IRQ_CTRL.EVT_LANE
  if d.carries n msgEvent then
    let body := BitVec.ofNat 64 ((d.eventWord rootBase).toNat + d.fld rootBase Reg.STATE.STATE * 2 ^ 32)
    d.txEnqueue n { msg := { typ := msgEvent, stamp := d.now % 2 ^ 16, body := [body] }, orig := .eventNotice }
  else d

/-- While EVT_EN is 1, a first notice goes out each time the root begins to raise its event (R93). -/
def Dev.irqUpdate (d : Dev) : Dev :=
  if d.flag rootBase Reg.IRQ_CTRL.EVT_EN then
    let up := d.rootRaises
    let first := up && !d.ctl.rootRaised
    let d := d.modCtl fun c => { c with rootRaised := up }
    if first then d.sendEvent.modCtl fun c => { c with eventTick := d.tick } else d
  else d

end Sys2Proof.Machine
end

