-- ==== Sys2Proof/Machine/ClockOps.lean ====
section
/-!
DEFINITION. The fabric roots, the clock nets and their sequencers (R391 to R408), and the end of every command: the causes it
offered reach Kryup, and a change of the roots that waited for the forme begins.
-/
namespace Sys2Proof.Machine

/-! ## Sources (R389, R391, R405) -/

/-- The monitors of SIO, FIO, XA and XB. -/
def monSio : Nat := 0
def monFio : Nat := 1
def monXa : Nat := 2
def monXb : Nat := 3

def Dev.monTripped (d : Dev) (m : Nat) : Bool := d.flag (monitorBase m) Reg.MON_STATUS.TRIPPED

/-- The frequencies that XA_FREQ names, in kHz (R390). -/
def xaFreqs : List Nat := [20000, 25000, 26000, 30000, 38400, 40000, 50000, 60000]

/-- A frequency in kHz lies in a monitor's range (R405); that of FIO is never tested. TOL below 6 acts as 6. -/
def Dev.monInRange (d : Dev) (m kHz : Nat) : Bool :=
  let tol := max 6 (d.fld (monitorBase m) Reg.MON_CFG.TOL)
  let f := xaFreqs.getD d.clk.xaFreq 0
  if m = monSio then decide (35 ≤ kHz ∧ kHz ≤ 65)
  else if m = monFio then kHz != 0
  else if m = monXa then decide (100 * kHz ≤ f * (100 + tol) ∧ f * (100 - tol) ≤ 100 * kHz)
  else decide (20000 * (100 - tol) ≤ 100 * kHz ∧ 100 * kHz ≤ 60000 * (100 + tol))

/-- CLK_STATUS shows which sources run and are not tripped. -/
def Dev.showSources (d : Dev) : Dev :=
  let ok (o : OscState) (m : Nat) := bit01 (decide (o = .running) && !d.monTripped m)
  (((d.setFld clkBase Reg.CLK_STATUS.FIO_OK (ok d.clk.fio monFio)).setFld clkBase Reg.CLK_STATUS.XB_OK (ok d.clk.xb monXb)).setFld
    clkBase Reg.CLK_STATUS.XA_OK (ok d.clk.xa monXa)).setFld clkBase Reg.CLK_STATUS.SIO_OK (bit01 (!d.monTripped monSio))

/-- FIO starts (R391, R408). -/
def Dev.fioStart (d : Dev) : Dev :=
  ((d.modClk fun c => { c with fio := .starting, fioTick := c.tick, fioAgain := decide (c.fio = .failed) }).setFld (monitorBase monFio) Reg.MON_STATUS.RUNNING 1).showSources

/-! ## The fabric roots (R392, R396) -/

/-- FAULT bits of a PLL (R415). -/
def pllUnlock : Nat := 2 ^ 8
def pllNoRef : Nat := 2 ^ 9

/-- A PLL runs and is locked. -/
def Dev.pllOk (d : Dev) (p : Nat) : Bool := d.runs (pllBase p) && d.flag (pllBase p) Reg.PLL_STATUS.LOCK

/-- The standby root is aligned with the active one. -/
def Dev.standbyAligned (d : Dev) : Bool := d.flag (pllBase d.standbyRoot) Reg.PLL_STATUS.ALIGNED

/-- The roots exchange roles, or a root takes the active role. -/
def Dev.setActive (d : Dev) (r : Nat) : Dev :=
  (d.setFld keeperBase Reg.KEEP_STATUS.ROOT r).setFld (pllBase r) Reg.PLL_STATUS.ALIGNED 0

/-- A root begins to lock to a reference. -/
def Dev.rootSeeks (d : Dev) (r ref : Nat) : Dev :=
  ((((d.setFld (pllBase r) Reg.PLL_STATUS.LOCK 0).setFld (pllBase r) Reg.PLL_STATUS.ALIGNED 0).setFld (pllBase r)
    Reg.PLL_STATUS.HOLDOVER 0).setFld (pllBase r) Reg.PLL_STATUS.REF ref)

/-- A PLL loses lock or fails: a lock that stood is counted lost, and its unit enters FAULTED with UNLOCK (R397, R406, R415). -/
def Dev.pllLost (d : Dev) (p : Nat) : Dev :=
  let d := if d.flag (pllBase p) Reg.PLL_STATUS.LOCK then d.count (pllBase p) Reg.PLL_LOCK_LOSS_COUNT.COUNT else d
  (d.setFld (pllBase p) Reg.PLL_STATUS.LOCK 0).fatal (pllBase p) pllUnlock

/-! ## References and ratios (R44, R57) -/

/-- The references of the roots, as PLL_STATUS.REF codes them. -/
def refCross : Nat := 0
def refXb : Nat := 1

/-- The reference shows edges. -/
def Dev.refEdges (d : Dev) (ref : Nat) : Bool :=
  if ref = refCross then d.keeper.crossKHz != 0 else decide (d.clk.xb = .running) && d.clk.xbKHz != 0

/-- The frequency of CROSS_CLK in kHz; while it shows no edges, that at which it last did, which holdover keeps (R58). -/
def Dev.crossFreq (d : Dev) : Nat := if d.keeper.crossKHz = 0 then d.keeper.lastKHz else d.keeper.crossKHz

/-- The fabric clock in kHz that a reference and a ratio give. -/
def Dev.ratioKHz (d : Dev) (ref n xb : Nat) : Nat := if ref = refCross then d.crossFreq * n else d.clk.xbKHz * xb

/-- The limit of the fabric clock in kHz: the grade's, and 800 MHz in ASSURED (R44, R418). -/
def Dev.fabLimit (d : Dev) : Nat :=
  if d.ident.speed = 2 ∧ d.mode ≠ modeAssured then 1000000 else 800000

/-- A ratio that the roots may lock at: values the registers define, within the grade's limit (log entry 31). -/
def Dev.ratioOk (d : Dev) (ref n xb : Nat) : Bool :=
  decide (4 ≤ n ∧ n ≤ 16 ∧ 1 ≤ xb ∧ xb ≤ 50 ∧ d.ratioKHz ref n xb ≤ d.fabLimit)

/-! ## Nets and sequencers (R394, R401 to R403) -/

def SeqState.code : SeqState → Nat
  | .run => 0 | .stopping => 1 | .switching => 2 | .waitFio => 3 | .restart => 4 | .relock => 5

/-- The sequencer of CK_TRUNK, or that of CK_REG. -/
def Dev.seq (d : Dev) (trunk : Bool) : NetSeq := if trunk then d.clk.trunk else d.clk.reg

def Dev.setSeq (d : Dev) (trunk : Bool) (q : NetSeq) : Dev :=
  if trunk then (d.modClk fun c => { c with trunk := q }).setFld clkBase Reg.CLK_STATUS.TRUNK_SEQ q.state.code
  else (d.modClk fun c => { c with reg := q }).setFld clkBase Reg.CLK_STATUS.REG_SEQ q.state.code

def Dev.setSrc (d : Dev) (trunk : Bool) (s : NetSrc) : Dev :=
  d.setFld clkBase (if trunk then Reg.CLK_STATUS.TRUNK_SRC else Reg.CLK_STATUS.REG_SRC) s.code

/-- The next source of a net's chain (R394): FIO unless it has failed, then the Tick. -/
def Dev.nextSrc (d : Dev) : NetSrc → NetSrc
  | .loop => if d.clk.fio = .running ∨ d.clk.fio = .starting then .fio else .tick
  | _ => .tick

/-- The trunk is being moved to a root that relocks while it is stopped (R399). -/
def Dev.relocksStopped (d : Dev) : Bool := match d.clk.relock with | some r => r.single | none => false

/-- The root the trunk is being moved to. -/
def Dev.targetRoot (d : Dev) : Nat := match d.clk.relock with | some r => r.root | none => d.activeRoot

/-- The source being switched to is ready. -/
def Dev.targetReady (d : Dev) (trunk : Bool) : NetSrc → Bool
  | .loop => if trunk then d.pllOk d.targetRoot else d.pllOk cpll
  | .fio => decide (d.clk.fio = .running)
  | .tick => true
  | .none => false

/-- The multiplexer moves to the source switched to, when it is ready, and the root it moves to becomes active; a source that has
failed gives way to the next (R403). -/
def Dev.netMove : Nat → Dev → Bool → Dev
  | 0, d, _ => d
  | n + 1, d, trunk =>
    let q := d.seq trunk
    if q.state ≠ .switching then d
    else if d.targetReady trunk q.target then
      let d := if q.target = .loop ∧ trunk then d.setActive d.targetRoot else d
      ((d.setSrc trunk q.target).setSeq trunk { q with state := .restart }).raiseIf (decide (q.target = .tick)) clkBase Reg.CLK_EVENT.CRAWL
    else if q.target = .fio ∧ d.clk.fio = .starting then d.setSeq trunk { q with state := .waitFio }
    else if q.target = .loop ∧ trunk ∧ d.relocksStopped then d
    else
      let d := if q.target = .loop ∧ trunk then d.modClk fun c => { c with relock := none } else d
      Dev.netMove n (d.setSeq trunk { q with target := d.nextSrc q.target }) trunk

/-- The depth of a chain. -/
def chainDepth : Nat := 3

/-- A request to stop a net toward a source. -/
def Dev.netRequest (d : Dev) (trunk : Bool) (dest : NetSrc) : Dev :=
  d.setSeq trunk { state := .stopping, target := dest, reqTick := d.tick, forced := false }

/-- A source fails (R403): a net that runs from it begins to move to the next source, and a net being switched to it takes
a lower one. A source that is being left only stops (log entry 32). -/
def Dev.netTrip (d : Dev) (trunk : Bool) (s : NetSrc) : Dev :=
  let q := d.seq trunk
  match q.state with
  | .run | .relock =>
    if d.netSrc trunk = s then
      let d := if q.state = .relock then (d.modClk fun c => { c with relock := none }) else d
      d.netRequest trunk (d.nextSrc s)
    else d
  | .stopping =>
    if q.target = s then
      let d := if s = .loop ∧ trunk then (d.modClk fun c => { c with relock := none }) else d
      d.setSeq trunk { q with target := d.nextSrc s }
    else d
  | .switching | .restart =>
    if q.target = s then
      let d := if s = .loop ∧ trunk then (d.modClk fun c => { c with relock := none }) else d
      Dev.netMove chainDepth (d.setSeq trunk { q with state := .switching, target := d.nextSrc s }) trunk
    else d
  | .waitFio => d

/-- FIO is stable, or its start has failed: nets that waited for it go on (R403, R407). -/
def Dev.fioWaiters (d : Dev) (stable : Bool) : Dev :=
  [false, true].foldl (fun d t =>
    if (d.seq t).state = .waitFio then
      let dest : NetSrc := if stable then .fio else .tick
      ((d.setSrc t dest).setSeq t { d.seq t with state := .restart, target := dest }).raiseIf (!stable) clkBase Reg.CLK_EVENT.CRAWL
    else d) d

/-- The trunk is stopped or switching (R400, R402). -/
def Dev.trunkStopped (d : Dev) : Bool :=
  match d.clk.trunk.state with
  | .switching | .waitFio | .restart => true
  | _ => false

/-- The clock that a net runs from has itself stopped, so that no stop is acknowledged (R402). -/
def Dev.netDead (d : Dev) (trunk : Bool) : Bool :=
  match d.netSrc trunk with
  | .loop => trunk && !d.runs (pllBase d.activeRoot)
  | .fio => decide (d.clk.fio ≠ .running)
  | _ => false

/-! ## Changes of the roots' reference or ratio (R399) -/

/-- The forme is STARTING, RUNNING, DEGRADED or DRAINING (R399). -/
def Dev.formeActive (d : Dev) : Bool := (d.ust formeBase).active

/-- The ratio that a change takes: KEEP_RATIO's, or the one in force while the forme is active, since N changes only while it is not
RUNNING (R44). -/
def Dev.ratioWanted (d : Dev) : Nat × Nat :=
  if d.formeActive then (d.clk.ratioN, d.clk.ratioXb)
  else (d.fld keeperBase Reg.KEEP_RATIO.N, d.fld keeperBase Reg.KEEP_RATIO.XB_MUL)

/-- Roots that no net runs from take a reference and a ratio where they stand (R395): the trunk stays on its source. -/
def Dev.retune (d : Dev) (ref n xb : Nat) : Dev :=
  let roots := [0, 1].filter fun r => d.runs (pllBase r)
  if roots = [] then d
  else
    let d := d.each roots fun d r => d.rootSeeks r ref
    let d := d.modClk fun c => { c with rootRef := ref, ratioN := n, ratioXb := xb, fabKHz := d.ratioKHz ref n xb }
    (d.modKeeper fun k => { k with holdoverTick := none }).setFld keeperBase Reg.KEEP_STATUS.HOLDOVER 0

/-- The standby root, or a root that the trunk comes up to, locks to the new reference and ratio first (R399 step 1). -/
def Dev.seekFirst (d : Dev) (c : Relock) : Dev :=
  ((d.rootSeeks c.root c.ref).modClk fun k => { k with relock := some c }).setSeq true { d.clk.trunk with state := .relock }

/-- A change begins, to a reference at the ratio wanted: the standby root locks to it first, or the only healthy root relocks while
the trunk is stopped (R399). A ratio above the limit leaves the one in force, with RATIO_ERR (R44); where that too is above it under
the new reference, nothing changes (log entry 31). With the trunk off the roots, `up` alone moves it to them (R395). -/
def Dev.beginChange (d : Dev) (ref : Nat) (up : Bool) : Dev :=
  let w := d.ratioWanted
  let ok := d.ratioOk ref w.1 w.2
  let (n, xb) := if ok then w else (d.clk.ratioN, d.clk.ratioXb)
  let d := d.setFld keeperBase Reg.KEEP_STATUS.RATIO_ERR (bit01 !ok)
  let change (r : Nat) (single : Bool) : Relock := { ref := ref, n := n, xb := xb, root := r, single := single, tick := d.tick }
  if !d.ratioOk ref n xb || d.netSrc true == .none then d
  else if d.netSrc true = .loop then
    if d.pllOk d.standbyRoot then d.seekFirst (change d.standbyRoot false)
    else if d.refEdges ref then
      (d.modClk fun c => { c with relock := some (change d.activeRoot true) }).netRequest true .loop
    else d.raise clkBase Reg.CLK_EVENT.RELOCK_FAIL
  else if !up then d.retune ref n xb
  else
    match [d.activeRoot, d.standbyRoot].find? fun r => d.runs (pllBase r) with
    | some r => d.seekFirst (change r false)
    | none => d.raise clkBase Reg.CLK_EVENT.CMD_REJECT

/-- A change that software asks for (R399, R403): refused while the trunk's sequencer is at work. -/
def Dev.askChange (d : Dev) (ref : Nat) (up : Bool) : Dev :=
  if d.clk.trunk.state ≠ .run then d.raise clkBase Reg.CLK_EVENT.CMD_REJECT
  else d.beginChange ref up

/-- A ratio is requested by software or an image (R44, R399): it is stored, a reserved N as its reset value (R8). One above the limit
leaves the roots as they were, with RATIO_ERR; one that differs from theirs is applied by a relock, once the forme is not
running. -/
def Dev.askRatio (d : Dev) (asked xb : Nat) : Dev :=
  let n := if 4 ≤ asked ∧ asked ≤ 16 then asked else 8
  let ref := if d.clk.rootRef = 3 then d.fld keeperBase Reg.KEEP_CTRL.REF_SEL else d.clk.rootRef
  let ok := d.ratioOk ref n xb
  let d := ((d.setFld keeperBase Reg.KEEP_STATUS.RATIO_ERR (bit01 !ok)).setFld keeperBase Reg.KEEP_RATIO.N n).setFld keeperBase
    Reg.KEEP_RATIO.XB_MUL xb
  if !ok || d.clk.rootRef == 3 || (n == d.clk.ratioN && (ref == refCross || xb == d.clk.ratioXb)) then
    d.modClk fun c => { c with changeHeld := false }
  else if d.formeActive then d.modClk fun c => { c with changeHeld := true }
  else d.askChange ref false

/-- The change made on the trunk's restart (R399 steps 2 and 3): the former active root follows, and the reference and ratio are those
of the change. A root that came back to a lost CROSS_CLK is in holdover still (R58). -/
def Dev.rootsMoved (d : Dev) : Dev :=
  match d.clk.relock with
  | none => d
  | some r =>
    let o := 1 - r.root
    let d := if r.single then d
      else if r.kept then d.setFld (pllBase o) Reg.PLL_STATUS.ALIGNED (bit01 (d.pllOk o))
      else if d.runs (pllBase o) then d.rootSeeks o r.ref
      else d
    let d := d.raiseIf r.back clkBase Reg.CLK_EVENT.RELOCK_FAIL
    let ref := if r.back then d.clk.rootRef else r.ref
    let n := if r.back then d.clk.ratioN else r.n
    let xb := if r.back then d.clk.ratioXb else r.xb
    let d := d.modClk fun c => { c with relock := none, rootRef := ref, ratioN := n, ratioXb := xb, fabKHz := d.ratioKHz ref n xb }
    let d := d.setFld keeperBase Reg.KEEP_STATUS.SYNTHETIC (bit01 (ref == refXb))
    if (r.kept || r.back) && ref == refCross && d.keeper.crossKHz == 0 then d
    else (d.modKeeper fun k => { k with holdoverTick := none }).setFld keeperBase Reg.KEEP_STATUS.HOLDOVER 0

/-- CLOCK_FAULT with the instance of a monitor or a PLL. -/
def Dev.clockFault (d : Dev) (inst : Nat) : Dev := d.offer causeClock (BitVec.ofNat 32 inst)

/-- The change under way is abandoned (R399, R403). -/
def Dev.abandonChange (d : Dev) : Dev :=
  if d.clk.trunk.state = .relock then
    (d.modClk fun c => { c with relock := none }).setSeq true { d.clk.trunk with state := .run }
  else d

/-- The trunk stops, or has stopped, to leave a root (R403). -/
def Dev.trunkLeaves (d : Dev) (a : Nat) : Bool :=
  match d.clk.trunk.state with
  | .stopping | .switching | .waitFio => d.clk.trunk.target != .loop || d.targetRoot != a
  | _ => false

/-- A root that was active serves no longer (R397, R406): the trunk moves to an aligned standby root, or down its chain. Kryup is
offered CLOCK_FAULT when both roots are lost, else ROOT_LOST. -/
def Dev.rootDown (d : Dev) (a : Nat) : Dev :=
  if d.standbyAligned && d.pllOk d.standbyRoot then
    (((d.setActive d.standbyRoot).raise clkBase Reg.CLK_EVENT.FAILOVER).offer causeRoot (BitVec.ofNat 32 a)).breach
  else
    let one := d.runs (pllBase d.standbyRoot)
    let d := if d.trunkLeaves a then d else d.abandonChange.netTrip true .loop
    (if one then d.offer causeRoot (BitVec.ofNat 32 a) else d.clockFault a).breach

/-- A root that the trunk does not run from serves no longer (R397, R399, R403): a change toward it is abandoned, or the trunk takes
the next source. -/
def Dev.idleRootDown (d : Dev) (r : Nat) : Dev :=
  let target := d.clk.relock.isSome && d.targetRoot == r
  let failed := target && d.clk.trunk.state == .relock
  let d := (if failed then d.abandonChange else d).raiseIf failed clkBase Reg.CLK_EVENT.RELOCK_FAIL
  (if target && !failed then d.netTrip true .loop else d).clockFault r

/-! ## The end of a command -/

/-- A net runs from a loop that its own clock command did not move: one that a RESET took out of service. -/
def Dev.ranOn (d : Dev) (p : Nat) : Bool :=
  let q := d.seq (p != cpll)
  d.netSrc (p != cpll) == .loop && (q.state == .run || q.state == .relock) && (p == cpll || p == d.activeRoot)

/-- PLLs that the command took out of service while a net ran from them: the net goes on as at a failure (R397, R406). -/
def Dev.loopsFall (d : Dev) : Dev :=
  if d.clk.loopsDown = [] then d
  else
    let down := d.clk.loopsDown
    (d.modClk fun c => { c with loopsDown := [] }).each down fun d p =>
      if !d.ranOn p then d else if p = cpll then (d.netTrip false .loop).clockFault p else d.rootDown p

/-- The forme is in STOPPED, OFF or LOADING (R399). -/
def Dev.formeRests (d : Dev) : Bool :=
  match d.ust formeBase with
  | .stopped | .off => true
  | _ => false

/-- A change stored while the forme ran begins when it next reaches STOPPED, OFF or LOADING (R399). -/
def Dev.heldChange (d : Dev) : Dev :=
  if d.clk.changeHeld && d.formeRests && decide (d.clk.trunk.state = .run) && d.clk.rootRef != 3 then
    (d.modClk fun c => { c with changeHeld := false }).beginChange d.clk.rootRef false
  else d

/-- The causes offered by the command arrive together (R450). -/
def Dev.takeDue (d : Dev) : Dev :=
  if d.kryup.due = [] then d
  else ((d.modKryup fun k => { k with due := [] }).raiseCauses 2 d.kryup.due).modKryup fun k => { k with due := [] }

/-- What follows every command. -/
def Dev.settle (d : Dev) : Dev := d.loopsFall.takeDue.heldChange.irqUpdate

/-- A command whose effect is an update of everything but the queue. -/
def onDev (f : Dev → Dev) (s : State) : Answer := .next { s with dev := (f s.dev).settle }

end Sys2Proof.Machine
end

