-- ==== Sys2Proof/Machine/Columns.lean ====
section
/-!
DEFINITION. Faults of a column and of its vertical connections (R22 to R36): the causes its five units share, fences, spare
vias and what follows when they run out.
-/
namespace Sys2Proof.Machine

/-! ## The five units of a column (R35, R36) -/

/-- FAULT bits of a column, by number (R36). -/
def colCtrlParity : Nat := 8
def colHalfWidth : Nat := 9
def colPortLost : Nat := 10
def colClockLost : Nat := 11
def colClockSpare : Nat := 12
def colBankDead : Nat := 13
def colLogicFault : Nat := 14
def colSensorsLost : Nat := 15

/-- An update of every unit of a column. -/
def Dev.colEach (d : Dev) (c : Nat) (f : Dev → Nat → Dev) : Dev := d.each ((List.range 5).map fun l => columnBase l c) f

/-- A cause recorded in the five units, whatever their states (R36), which is not fatal. -/
def Dev.colBit (d : Dev) (c bit : Nat) : Dev := d.colEach c fun d b => d.faultBits b (2 ^ bit)

/-- A cause that is a loss. -/
def Dev.colLose (d : Dev) (c bit : Nat) : Dev :=
  d.colEach c fun d b => (d.faultBits b (2 ^ bit)).lose b

/-- A fatal cause that stands; a unit in OFF records it and shows FAULTED as well (R35, R36). -/
def Dev.colFatal (d : Dev) (c bit : Nat) : Dev :=
  d.colEach c fun d b =>
    let d := (d.faultBits b (2 ^ bit)).fatalStanding b (2 ^ bit)
    d.refresh d.depth b

/-- The user units with logic in a column (R344). -/
def Dev.usersIn (d : Dev) (c : Nat) : List Nat :=
  (d.units.user.items.filter fun e => e.2.occL2.contains c || e.2.occL4.contains c).map (·.1)

/-- A column is fenced (R34); the fence of a decision galley's column makes a breach of the crossing (R56). A column that is
fenced already stays fenced, for good where either fence is (R24, R33). -/
def Dev.fenceColumn (d : Dev) (c kind galleyCause : Nat) : Dev :=
  let old := d.stack.fence.num c
  let d := d.modStack fun s => { s with fence := s.fence.put c (max old kind) }
  let d := if old ≠ 0 then d
    else
      let d := [2, 4].foldl (fun d l => d.tileRaise l c Reg.TILE_EVENT.FENCE_ENGAGED) d
      if d.strike.columns.contains c then d.breach else d
  d.each (d.usersIn c) fun d b => d.fatal b galleyCause

/-! ## The repair log (R481, R483) -/

def originFuse : Nat := 0
def originMap : Nat := 1
def originBoot : Nat := 2
def originService : Nat := 3
def originPeal : Nat := 4
def originBist : Nat := 5

def repApplied : Nat := 0
def repDuplicate : Nat := 1
def repNoSpare : Nat := 2
def repDeferred : Nat := 3
def repRecorded : Nat := 4

/-- The word W0 of a repair entry. -/
def repWord (cls col sub pos : Nat) : Nat := cls * 2 ^ 28 + col * 2 ^ 20 + sub * 2 ^ 16 + pos

/-- An entry joins the log, which holds the newest 256. -/
def Dev.repLog (d : Dev) (w0 origin result : Nat) : Dev :=
  let e : RepEntry := { w0 := BitVec.ofNat 32 w0, w1 := BitVec.ofNat 32 (origin * 2 ^ 28 + result * 2 ^ 24 + d.tick % 2 ^ 24) }
  d.modTest fun t => { t with log := (t.log ++ [e]).drop (t.log.length + 1 - 256) }

/-! ## Clock vias (R22 to R24) -/

/-- No clock via of the column is left (R24). -/
def Dev.clocksLost (d : Dev) (c : Nat) : Dev :=
  let b := columnBase 0 c
  let d := (d.setFld b Reg.VLINK_STATE.CLOCK 3).raise b Reg.VIA_EVENT.CLOCK_LOST
  (d.fenceColumn c 2 faultFenced).colFatal c colClockLost

/-- The active clock via fails. -/
def Dev.clockViaFail (d : Dev) (c : Nat) : Dev :=
  let b := columnBase 0 c
  let a := d.fld b Reg.CLK_VIA.ACTIVE
  let d := d.setFld b Reg.CLK_VIA.FAILED (d.fld b Reg.CLK_VIA.FAILED ||| 2 ^ a)
  match (List.range 4).find? fun v => decide (a < v) && !bitOf (d.fld b Reg.CLK_VIA.FAILED) v with
  | some v =>
    let d := (d.setFld b Reg.CLK_VIA.ACTIVE v).setFld b Reg.VLINK_STATE.CLOCK 2
    (((d.fenceColumn c 1 faultClockVia).raise b Reg.VIA_EVENT.CLOCK_SPARE).colBit c colClockSpare).repLog (repWord 2 c 0 a)
      originService repApplied
  | none =>
    (d.clocksLost c).repLog (repWord 2 c 0 a) originService repNoSpare

/-! ## Bundles (R16, R17, R29 to R33) -/

/-- Port classes of VIA_LOG. -/
def viaLower : Nat := 0
def viaUpper : Nat := 1
def viaBase : Nat := 2
def viaCfgLower : Nat := 3
def viaCfgUpper : Nat := 4

def bundleKey (c cls bundle : Nat) : Nat := (c * 8 + cls) * 8 + bundle
def viaKey (c cls bundle via : Nat) : Nat := bundleKey c cls bundle * 512 + via

/-- A class's fields of VLINK_STATE, SPARE_USE and, of a bundle, the half-width registers. -/
def linkField (cls : Nat) : Fld :=
  if cls = viaLower then Reg.VLINK_STATE.LOWER_ROW else if cls = viaUpper then Reg.VLINK_STATE.UPPER_ROW
  else if cls = viaBase then Reg.VLINK_STATE.BASE else if cls = viaCfgLower then Reg.VLINK_STATE.CFG_LOWER
  else Reg.VLINK_STATE.CFG_UPPER
def spareField (cls : Nat) : Fld :=
  if cls = viaLower then Reg.SPARE_USE.LOWER_ROW else if cls = viaUpper then Reg.SPARE_USE.UPPER_ROW
  else if cls = viaBase then Reg.SPARE_USE.BASE else if cls = viaCfgLower then Reg.SPARE_USE.CFG_LOWER
  else Reg.SPARE_USE.CFG_UPPER
def halfField (cls bundle : Nat) : Fld :=
  if cls = viaLower then ⟨Reg.VLINK_HALF.off, bundle, 1⟩ else if cls = viaUpper then ⟨Reg.VLINK_HALF.off, 8 + bundle, 1⟩
  else if cls = viaBase then Reg.VLINK_HALF2.BASE else if cls = viaCfgLower then ⟨Reg.VLINK_HALF.off, 16 + bundle, 1⟩
  else ⟨Reg.VLINK_HALF.off, 24 + bundle, 1⟩

/-- The half of its row word that a data or check via carries; none for a control via. -/
def viaHalf (via : Nat) : Option Nat :=
  if via < 128 then some 0 else if via < 256 then some 1 else if via < 261 then some 0 else if via < 266 then some 1 else none

/-- The vias of one half, or fewer, have failed: half-width serves (R32, R33). -/
def halfServes (l : List Nat) : Bool :=
  l.all (fun v => viaHalf v == some 0) || l.all fun v => viaHalf v == some 1

/-- A port of a column is lost (R33). -/
def Dev.portLost (d : Dev) (c cls : Nat) : Dev :=
  let b := columnBase 0 c
  let d := (d.setFld b (linkField cls) 3).raise b Reg.VIA_EVENT.PORT_LOST
  (d.fenceColumn c 2 faultFenced).colFatal c colPortLost

/-- The number of vias of a bundle that carry a row word or control signals (R16, R17): none where the class has no such
bundle. -/
def bundleVias (cls bundle : Nat) : Nat :=
  if cls = viaBase then (if bundle = 0 then 298 else 0)
  else if 8 ≤ bundle then 0
  else if cls = viaLower ∨ cls = viaUpper then 274
  else if cls = viaCfgLower ∨ cls = viaCfgUpper then 270
  else 0

/-- A failed via that no spare replaces is on record; what follows is `spareRules`. -/
def Dev.viaOpen (d : Dev) (c cls bundle via : Nat) : Dev :=
  let k := bundleKey c cls bundle
  d.modStack fun s => { s with unrepaired := s.unrepaired.put k (via :: s.unrepaired.at k []) }

/-- The rules for exhausted spares act on a bundle (R32, R33): it falls back to half-width once, or its port is lost. -/
def Dev.spareRules (d : Dev) (c cls bundle : Nat) : Dev :=
  let b := columnBase 0 c
  let l := d.stack.unrepaired.at (bundleKey c cls bundle) []
  if l.isEmpty ∨ d.fld b (linkField cls) = 3 then d
  else if halfServes l then
    if d.flag b (halfField cls bundle) then d
    else
      let d := ((d.setFld b (linkField cls) 2).setFld b (halfField cls bundle) 1).raise b Reg.VIA_EVENT.HALF_WIDTH
      d.colLose c colHalfWidth
  else d.portLost c cls

/-- The release: the rules for exhausted spares apply to what the boot left without a spare (R27). -/
def Dev.sparesAtRelease (d : Dev) : Dev :=
  d.each d.stack.unrepaired.keys fun d k => d.spareRules (k / 64) (k / 8 % 8) (k % 8)

/-- A spare via that has itself failed (R478) is entered among those used, by a number that no via has. -/
def deadSpare : Nat := 4096

/-- A failed via takes a spare of its bundle while one is left (R17): whether one was. Without one it stays on record. -/
def Dev.viaTake (d : Dev) (c cls bundle via : Nat) : Dev × Bool :=
  let b := columnBase 0 c
  let k := bundleKey c cls bundle
  let used := d.stack.repaired.at k []
  if used.length < 16 then
    let d := d.modStack fun s => { s with repaired := s.repaired.put k (via :: used) }
    let d := d.setFld b (spareField cls) (max (d.fld b (spareField cls)) ((used.filter fun v => decide (v < deadSpare)).length + 1))
    (if d.fld b (linkField cls) = 0 then d.setFld b (linkField cls) 1 else d, true)
  else (d.viaOpen c cls bundle via, false)

/-- A via is declared failed in service (R29): repaired from its spares, with the event and the log. Its count starts again at 0 (DESIGN
CHOICE, log entry 122). -/
def Dev.viaFailedBy (d : Dev) (origin c cls bundle via : Nat) : Dev :=
  let b := columnBase 0 c
  let d := d.modStack fun s => { s with viaCount := s.viaCount.del (viaKey c cls bundle via) }
  if (d.stack.unrepaired.at (bundleKey c cls bundle) []).contains via ∨ bundleVias cls bundle ≤ via then d
  else
    let (d, ok) := d.viaTake c cls bundle via
    let d := d.repLog (repWord 1 c cls (bundle * 2 ^ 13 + via)) origin (if ok then repApplied else repNoSpare)
    if ok then
      (d.setReg (b + Reg.VIA_LOG.off) (BitVec.ofNat 32 (via * 2 ^ 8 + bundle * 2 ^ 4 + cls))).raise b Reg.VIA_EVENT.SPARE_TAKEN
    else d.spareRules c cls bundle

def Dev.viaFailed (d : Dev) (c cls bundle via : Nat) : Dev := d.viaFailedBy originService c cls bundle via

/-- A corrected error that SEC-DED attributes to a via (R29). -/
def Dev.viaError (d : Dev) (c cls bundle via : Nat) : Dev :=
  let t := d.fld (columnBase 0 c) Reg.VIA_THRESH.THRESH
  let n := d.stack.viaCount.num (viaKey c cls bundle via) + 1
  let d := d.modStack fun s => { s with viaCount := s.viaCount.put (viaKey c cls bundle via) n }
  if t ≠ 0 ∧ t ≤ n then d.viaFailed c cls bundle via else d

/-- The vias of an access whose bit SEC-DED corrected are counted: those alone in a bundle whose word ends CORRECTED. An error of the
stored bit, which has the same syndrome, is not laid to the via (DESIGN CHOICE, log entry 122). -/
def Dev.viaErrors (d : Dev) (c cls : Nat) (vias : List (Nat × Nat)) (corrected : Nat → Bool) : Dev :=
  d.each (vias.filter fun v => decide (v.2 < 266) && corrected v.1) fun d v => d.viaError c cls v.1 v.2

/-- Control parity failed on an access (R30). -/
def Dev.parityFail (d : Dev) (c : Nat) : Dev :=
  (d.raise (columnBase 0 c) Reg.VIA_EVENT.CTRL_PARITY).colBit c colCtrlParity

/-- What the transfers of a command over base ports will meet. -/
def Dev.portsIn (d : Dev) (ports : List PortFound) : Dev := d.modStack fun s => { s with meets := ports, met := [] }

/-- What they have met is counted and raised (R29, R30); `old` is what stood before. -/
def Dev.portsOut (d : Dev) (old : StackRec) : Dev :=
  (d.modStack fun s => { s with meets := old.meets, met := old.met }).each d.stack.met fun d m =>
    (if 1 ≤ m.2.parity then d.parityFail m.1 else d).viaErrors m.1 viaBase m.2.vias fun i => i == 0

/-- A command whose transfers over base ports meet what `ports` lists, in order (R29, R30). -/
def Dev.withPorts (d : Dev) (ports : List PortFound) (f : Dev → Dev) : Dev :=
  if ports = [] then f d
  else
    (f (d.portsIn ports)).portsOut d.stack

/-! ## Banks (R254) -/

/-- A bank is marked dead. -/
def Dev.bankDies (d : Dev) (c bank : Nat) : Dev :=
  let b := columnBase 1 c
  if d.bankDead (c * 8 + bank) then d
  else ((d.setFld b ⟨Reg.MEM_STATUS.DEAD.off, 16 + bank, 1⟩ 1).raise b Reg.MEM_EVENT.BANK_DEAD).colLose c colBankDead

/-- Spare rows, or spare bit lines, that a bank has used. -/
def Dev.sparesUsed (d : Dev) (bank : Nat) (line : Bool) : List Nat := (if line then d.mem.bitLines else d.mem.remapped).at bank []

/-- SPARE_ROWS and SPARE_BL of a bank's column follow the spares used. -/
def Dev.showSpares (d : Dev) (bank : Nat) : Dev :=
  if 2048 ≤ bank then d
  else
    let b := columnBase 1 (bank / 8)
    (d.setFld b ⟨Reg.SPARE_ROWS.off, 4 * (bank % 8), 4⟩ (d.sparesUsed bank false).length).setFld b
      ⟨Reg.SPARE_BL.off, 4 * (bank % 8), 4⟩ (d.sparesUsed bank true).length

/-- A bank uses one more spare, for a row or a bit line (R253): whether one was free. -/
def Dev.takeSpare (d : Dev) (bank : Nat) (line : Bool) (pos : Nat) : Dev × Bool :=
  let used := d.sparesUsed bank line
  if used.length < (if line then 8 else 12) then
    let d := d.modMem fun m =>
      if line then { m with bitLines := m.bitLines.put bank (pos :: used) } else { m with remapped := m.remapped.put bank (pos :: used) }
    (d.showSpares bank, true)
  else (d, false)

end Sys2Proof.Machine
end

