-- ==== Sys2Proof/Machine/Ctl.lean ====
section
/-!
DEFINITION. Control space as every access meets it: which addresses answer (R82, R83, R65), the statuses of R88, ACC_ERR,
KW writes (R6, R92), the arbiter with the accesses that wait for it (R90, R91), and the wakes of gated areas (R413).
-/
namespace Sys2Proof.Machine

/-! ## Statuses (R88) -/

def stOk : Nat := 0
def stDenied : Nat := 1
def stProtected : Nat := 2
def stDisabled : Nat := 3
def stTimeout : Nat := 4
def stAlign : Nat := 5

/-- The access of a path completes with a status and the word read. -/
def Dev.complete (d : Dev) (path st : Nat) (data : Word) : Dev :=
  d.modCtl fun c => { c with done := c.done.put path { status := st, data := data }, acks := c.acks.bump path }

/-- An access that was granted completes: the round robin of R90 goes on after its path. -/
def Dev.finish (d : Dev) (path st : Nat) (data : Word) : Dev :=
  d.modCtl fun c => { c with done := c.done.put path { status := st, data := data }, acks := c.acks.bump path, lastPath := path }

/-- The path's bit of ACC_ERR, and ACC_ERR_ADDR when it is empty (R83, R88). -/
def Dev.accErr (d : Dev) (path addr : Nat) : Dev :=
  let d := d.setReg (rootBase + Reg.ACC_ERR.off) (d.reg (rootBase + Reg.ACC_ERR.off) ||| BitVec.ofNat 32 (2 ^ path))
  if d.flag rootBase Reg.ACC_ERR_ADDR.VALID then d
  else d.setReg (rootBase + Reg.ACC_ERR_ADDR.off) (BitVec.ofNat 32 (addr / 4 * 4 + 1))

/-- An access that is not performed. -/
def Dev.refuse (d : Dev) (path addr st : Nat) : Dev := (d.accErr path addr).finish path st 0

/-- The protected ranges of R82. -/
def protectedAddr (a : Nat) : Bool := decide (0x18000 ≤ a ∧ a < 0x20000 ∨ 0x94800 ≤ a ∧ a < 0x95000)

/-- Control space answers: MGMT is on and no base warm reset holds it (R427, R461). Under the halted policy SPI1 and JTAG
reach the Kryup window alone (R455). -/
def Dev.ctlAnswers (d : Dev) : Bool := (d.kryup.halted && decide (d.clk.fio = .running)) || (d.domainOn 1 && !d.kryup.warmHeld)

/-- The status with which an access ends before it reaches a register; 0 when it goes on. Of several that apply it is the first of
DISABLED, ALIGN and PROTECTED, and DENIED comes after them (DESIGN CHOICE, log entry 123). -/
def Dev.admission (d : Dev) (path addr : Nat) : Nat :=
  if d.kryup.halted && !((path == pathSpi1 || path == pathJtag) && decide (kryupBase ≤ addr ∧ addr < kryupBase + 0x10000)) then
    (if path = pathSpi1 ∨ path = pathJtag then stDisabled else stTimeout)
  else if !d.ctlAnswers then stTimeout
  else if path < 7 && !bitOf (d.fld rootBase Reg.PATH_EN.EN) path then stDisabled
  else if d.kryup.warm && decide (2 ≤ path ∧ path ≤ 5) then stDisabled
  else if addr % 4 ≠ 0 then stAlign
  else if path = pathJtag && protectedAddr addr then stProtected
  else stOk

/-! ## The indirect windows (R84) -/

def winDir : Nat := 0
def winTree : Nat := 1
def winTest : Nat := 2
def winDebug : Nat := 3

/-- The first register of a path's set in a window: WIN_ADDR; WIN_DATA, WIN_CTRL and WIN_ADDR_HI follow it. -/
def winSet (win path : Nat) : Nat := 0x1000000 + 0x1000 * win + 0x100 * path
def winDataAddr (win path : Nat) : Nat := winSet win path + 4
def winOf (a : Nat) : Nat := (a - 0x1000000) / 0x1000

/-- The indirect windows of R82: each path has its own set of registers (R84). -/
def winRegister (path addr : Nat) : Bool :=
  decide (0x1000000 ≤ addr ∧ addr < 0x1004000) && (addr / 0x100 % 16 == path) &&
  (addr % 0x100 == 0 || addr % 0x100 == 4 || addr % 0x100 == 8 || (addr % 0x100 == 0xC && decide (0x1003000 ≤ addr)))

/-- Kryup's log window. -/
def logAddr (a : Nat) : Bool := decide (kryupBase + 0x1000 ≤ a ∧ a < kryupBase + 0x2000)

/-- A register lies at the address (R83). -/
def Dev.implemented (d : Dev) (path addr : Nat) : Bool :=
  winRegister path addr || protectedAddr addr || logAddr addr ||
  match unitAt addr with
  | none => false
  | some u =>
    let off := addr - u.base
    ((u.rowAt off).isSome && (d.presented u off).isSome) ||
      (d.isGalley u.base &&
        decide (u.tableOffset ≠ 0 ∨ u.blk = .shell) &&
        decide ((if u.blk = .shell then 0x40 else u.tableOffset) ≤ off ∧
          off < (if u.blk = .shell then 0x40 else u.tableOffset) + 4 * (d.children u.base).length))

/-- An access to a register that a unit in OFF turns away (R65); the regions of the crypto unit are stored in OFF (R336). -/
def Dev.turnedAway (d : Dev) (addr : Nat) : Bool :=
  match unitAt addr with
  | none => false
  | some u =>
    let off := addr - u.base
    decide (0x2C ≤ off) && decide (d.ust u.base = .off) && (u.domain.isSome || u.blk == .shell) &&
      !(protectedAddr addr && (u.rowAt off).isNone) && !(u.blk == .crypto && decide (0x200 ≤ off ∧ off < 0x300))

/-- A granted access of a path to a register: what it does, with the status and the word it answers, when it is admitted. -/
def Dev.perform (d : Dev) (path addr : Nat) (f : Dev → Dev × Nat × Word) : Dev :=
  let st := d.admission path addr
  if st ≠ stOk then d.refuse path addr st
  else if !d.implemented path addr || d.turnedAway addr then (d.accErr path addr).finish path stOk 0
  else
    let (d, s, w) := f d
    (if s = stOk then d else d.accErr path addr).finish path s w

/-! ## Gated areas (R413) -/

/-- The group whose column clock an access needs while it is gated: a register of a tile that is on and not fenced. -/
def Dev.gatedGroup (d : Dev) (addr : Nat) : Option Nat :=
  match unitAt addr with
  | none => none
  | some u =>
    if u.blk = .column ∧ (u.layer = 2 ∨ u.layer = 4) ∧ 0x2C ≤ addr - u.base ∧ d.ust u.base ≠ .off ∧ d.fenced u.column = false ∧
        d.fabric.clkRun.mem (u.column * 2 + (u.layer - 2) / 2) = false then
      some (groupOf u.column)
    else none

/-- A WIN_DATA access to the storage of the rings, which waits for its domain. -/
def ringWindow (path addr : Nat) : Bool :=
  winRegister path addr && (addr == winDataAddr winDir path || addr == winDataAddr winTree path)

/-- What an access needs is awake. -/
def Dev.awake (d : Dev) (path addr : Nat) : Bool := (!ringWindow path addr || d.domainOn 6) && (d.gatedGroup addr).isNone

/-- The wake that an access raises where it needs one: the domain turns on, or the column group joins the admission queue of R436. -/
def Dev.wakeFor (d : Dev) (path addr : Nat) : Dev :=
  if d.admission path addr ≠ stOk then d
  else if ringWindow path addr && !d.domainOn 6 then d.holdOn 6
  else
    match d.gatedGroup addr with
    | some g => if d.power.admission.contains g then d else d.modPower fun p => { p with admission := p.admission ++ [g] }
    | none => d

/-! ## The arbiter (R90, R91, R404) -/

/-- An access waits for its grant, with the wake it raises. -/
def Dev.enqueue (d : Dev) (a : Access) : Dev := (d.wakeFor a.path a.addr).modCtl fun c => { c with waiting := c.waiting ++ [{ a with since := d.tick }] }

/-- CK_REG runs: it has not stopped for a switch, and the clock it is leaving has not stopped of itself (R402, R404). -/
def Dev.regRuns (d : Dev) : Bool :=
  match d.clk.reg.state with
  | .run => true
  | .stopping => !d.netDead false
  | _ => false

/-- An access that a grant can perform: CK_REG runs, control space answers it, its path has none outstanding, and what it needs is
awake, unless it ends before it reaches a register. -/
def Dev.grantable (d : Dev) (path addr : Nat) : Bool :=
  d.regRuns && d.admission path addr != stTimeout && !d.ctl.debugPend.has path &&
    (d.admission path addr != stOk || d.awake path addr)

/-- The first waiting access of a path. -/
def Dev.headOf (d : Dev) (path : Nat) : Option Access := d.ctl.waiting.find? fun a => a.path == path

/-- The access that the arbiter grants next: round-robin over the path codes. -/
def Dev.nextGrant (d : Dev) : Option Access :=
  (List.range 8).findSome? fun i => (d.headOf ((d.ctl.lastPath + 1 + i) % 8)).filter fun a => d.grantable a.path a.addr

/-- An access that comes now is granted before anything else: no access waits that the arbiter could grant, and nothing of its own
path is before it. -/
def Dev.grantedNow (d : Dev) (path addr : Nat) : Bool :=
  d.nextGrant.isNone && (d.headOf path).isNone && d.grantable path addr

/-- An access of a path: performed where it is granted now, and otherwise waiting for its grant, with the wake it raises. -/
def Dev.arrive (d : Dev) (a : Access) (f : Dev → Dev × Nat × Word) : Dev :=
  if d.grantedNow a.path a.addr then d.perform a.path a.addr f else d.enqueue a

/-- A read of a register by a path. -/
def Dev.viaRead (d : Dev) (path addr : Nat) (f : Dev → Dev × Nat × Word) : Dev := d.arrive { path := path, addr := addr } f

/-- A write of a word by a path. -/
def Dev.viaWord (d : Dev) (path addr : Nat) (w : Word) (f : Dev → Dev) : Dev :=
  d.arrive { path := path, write := true, addr := addr, data := w } fun d => (f d, stOk, 0)

/-- A register as stored, with fields replaced. -/
def Dev.regWith (d : Dev) (addr : Nat) (l : List (Fld × Nat)) : Word := l.foldl (fun w p => fset w p.1 p.2) (d.reg addr)

/-- A write by a path of a register as stored, with fields replaced. -/
def Dev.viaCtl (d : Dev) (path addr : Nat) (l : List (Fld × Nat)) (f : Dev → Dev) : Dev := d.viaWord path addr (d.regWith addr l) f

/-- Cause KW_WRITE, with the path in [31:28] and the address in [23:0] (R449). -/
def Dev.kwCause (d : Dev) (path addr : Nat) : Dev := d.raiseCause causeKwWrite (path % 16 * 2 ^ 28 + addr % 2 ^ 24)

/-- A write of a KW register: Kryup's is stored, any other path's ends DENIED and is logged (R6, R92). -/
def Dev.viaKw (d : Dev) (path addr : Nat) (w : Word) (f : Dev → Dev) : Dev :=
  d.arrive { path := path, write := true, addr := addr, data := w } fun d =>
    if path = pathKryup then (f d, stOk, 0) else (d.kwCause path addr, stDenied, 0)

/-- Stores the RW bits of a written word, as the presented version lays them out. -/
def Dev.storeRw (d : Dev) (addr : Nat) (w : Word) : Dev :=
  match unitAt addr with
  | none => d
  | some u =>
    match u.rowAt (addr - u.base) with
    | none => d
    | some r =>
      let m := BitVec.ofNat 32 r.rw &&& BitVec.ofNat 32 ((d.presented u (addr - u.base)).getD 0)
      d.setReg addr ((d.reg addr &&& ~~~m) ||| (w &&& m))

end Sys2Proof.Machine
end

