-- ==== Sys2Proof/Machine/PinCmds.lean ====
section
/-!
DEFINITION. The commands on pins, serial ports, JTAG and embedded flash (R501 to R520), but for those that the loader and the
access paths share.
-/
namespace Sys2Proof.Machine

/-! ## Pad levels (R500, R503, R508, R510, R519) -/

/-- RTSCTS of a UART. -/
def uartRtsCts (d : Dev) (i : Nat) : Bool := d.flag (serialBase i) ⟨Reg.SER_CFG.off, 6, 1⟩

/-- RTS_N of a UART under RTSCTS: high while its RX FIFO holds more than 48 bytes (R518). -/
def Dev.rtsLevel (d : Dev) (i : Nat) : Option Bool :=
  if d.runs (serialBase i) && uartRtsCts d i then some (decide (48 < (d.serialRec i).rx.length)) else none

/-- The level that a pin's function drives, where the model computes it. A FABRIC pin shows what its logic, or its latch, drives (R507,
R508), and its SAFE state where that logic has never been released; what the serial ports drive, the world shows. -/
def Dev.funcLevel (d : Dev) (p : Nat) : Option Bool :=
  match d.pinFunc p with
  | 0 =>
    match d.pins.fabric.look p with
    | some v => if v = 1 then some false else if v = 2 then some true else none
    | none =>
      match d.load.pinSafe.look p with
      | some v => if v % 4 = 1 then some false else if v % 4 = 2 then some true else none
      | none => none
  | 1 => if d.runs (pinBank p) then d.gpioLevel p else none
  | 6 => if p = 22 then d.rtsLevel 4 else none
  | 7 => if p = 26 then d.rtsLevel 5 else none
  | 3 => if p == 15 && d.irqLow then some false else none
  | 8 =>
    let k := p % 20
    if k < 16 then some (bitOf (d.fld strikeBase Reg.STK_LAST.WORD) k)
    else if k = 16 then some (d.flag strikeBase Reg.STK_STATUS.BUSY)
    else if k = 19 then some false
    else none
  | 11 => some (!d.alarm)
  | 12 => if d.test.scanned then none else some false
  | _ => none

/-- The level on a pad. -/
def Dev.padLevel (d : Dev) (p : Nat) : Bool :=
  let world := d.pins.pad.mem p
  let held := (d.pins.held.look p).map fun v => v == 2
  if d.ust (pinBank p) = .off then held.getD world
  else if d.hotSocket p then world
  else match d.pins.jtag with
    | .highz => world
    | .extest | .clamp => ((d.pins.boundary.look p).map fun v => v == 2).getD world
    | _ =>
      match d.proofDepth (pinBank p) with
      | some 1 => held.getD world
      | some _ => d.pinFlag p Reg.GPIO_DATA_LO.off
      | none => held.getD ((d.funcLevel p).getD world)

/-- The latches as they close on entry into DORMANT: every pin not in hot-socket state is held as it is driven (R513). -/
def Dev.drivenPins (d : Dev) : SMap Nat :=
  (List.range 320).foldl (fun m p =>
    if d.hotSocket p || m.has p then m
    else match d.funcLevel p with
      | some v => m.put p (1 + bit01 v)
      | none => m) d.pins.held

/-- The level that GPIO_IN and the pin interrupt see: at proof depth 1, GPIO_DATA (R500). -/
def Dev.inLevel (d : Dev) (p : Nat) : Bool :=
  if d.proofDepth (pinBank p) = some 1 then d.pinFlag p Reg.GPIO_DATA_LO.off else d.padLevel p

/-- GPIO_IN of a bank, low or high half. -/
def Dev.gpioIn (d : Dev) (b : Nat) (hi : Bool) : Word :=
  BitVec.ofNat 32 ((List.range (if hi then 8 else 32)).foldl
    (fun n i => n + bit01 (d.inLevel (40 * b + (if hi then 32 else 0) + i)) * 2 ^ i) 0)

/-! ## Pin interrupts (R512) -/

/-- A pin interrupts by its IRQ_MODE, on its level before and now; a bank that does not run sets nothing. -/
def Dev.pinSense (d : Dev) (p : Nat) (old : Bool) : Dev :=
  let new := d.inLevel p
  let set := match d.pinCfg p Reg.PIN_CFG.IRQ_MODE with
    | 1 => !old && new
    | 2 => old && !new
    | 3 => old != new
    | 4 => new
    | 5 => !new
    | _ => false
  if set && d.runs (pinBank p) then d.setFld (pinBank p) (pinBit p Reg.IRQ_PEND_LO.off) 1 else d

/-- A change of pins, with the interrupts it raises. -/
def Dev.pinChange (d : Dev) (l : List Nat) (f : Dev → Dev) : Dev :=
  let d' := f d
  d'.each l fun d'' p => d''.pinSense p (d.inLevel p)

def opPinIrq (p : Fin 320) (level : Bool) (d : Dev) : Dev :=
  d.pinChange [p.val] fun d => d.modPins fun r => { r with pad := r.pad.setNum p (bit01 level) }
def execPinIrq (p : Fin 320) (level : Bool) (s : State) : Answer := onDev (opPinIrq p level) s

def opPinMuxWrite (path : Fin 8) (k : Fin 40) (value : Word) (d : Dev) : Dev :=
  d.viaWord path (pinsBase + Reg.PIN_MUX.off + 4 * k) value fun d =>
    d.pinChange ((List.range 8).map fun j => 8 * k + j) fun d => d.muxWrite k value
def execPinMuxWrite (path : Fin 8) (k : Fin 40) (value : Word) (s : State) : Answer := onDev (opPinMuxWrite path k value) s

/-! ## Bank supplies (R514) -/

/-- The rail of a bank's supply (R428). -/
def bankRail (b : Nat) : Nat := 9 + b

def opVccioLoss (b : Fin 8) (d : Dev) : Dev :=
  if !d.bankGood b then d
  else
    let d := d.modPower fun p => { p with vccio := p.vccio.del b, railsGood := p.railsGood &&& ((2 ^ 19 - 1) ^^^ 2 ^ bankRail b) }
    let d := d.each (bankPins b) fun d p => d.setHs p 1
    let d := if b = Config.strikeBank then d.modStrike fun s => { s with driven := false } else d
    (d.showBank b).raise (gpioBase b) Reg.BANK_EVENT.PG_LOST
def execVccioLoss (b : Fin 8) (s : State) : Answer := onDev (opVccioLoss b) s

/-- Kryup declares a bank's supply good, at 1.2, 1.5 or 1.8 V. During START pins 0 to 15 leave hot-socket state with it (R506), and
with the STRIKE domain on the Strike Port's outputs do (R305). -/
def opVccioGood (b : Fin 8) (level : Fin 3) (d : Dev) : Dev :=
  if d.load.step = .power then d
  else if d.bankGood b then (if b = Config.strikeBank then d.driveStrike else d)
  else
    let d := d.modPower fun p => { p with vccio := p.vccio.put b (level + 1), railsGood := p.railsGood ||| 2 ^ bankRail b }
    let d := (d.showBank b).raise (gpioBase b) Reg.BANK_EVENT.PG_BACK
    let d := if b = Config.strikeBank then d.driveStrike else d
    if b.val = 0 ∧ d.mode = modeStart then d.each (List.range 16) fun d p => d.setHs p 0 else d
def execVccioGood (b : Fin 8) (level : Fin 3) (s : State) : Answer := onDev (opVccioGood b level) s

/-! ## SPI1 (R517) and the JTAG debug register (R519) -/


/-- A 32-bit number whose most significant byte comes first. -/
def bigEndian (bs : List Byte) : Nat := bs.foldl (fun n b => n * 256 + b.toNat) 0

/-- Every pin of a list has a function. -/
def Dev.pinsHave (d : Dev) (l : List Nat) (f : Nat) : Bool := l.all fun p => d.pinFunc p == f

/-- SPI1 answers: its pins select it, and it is neither off, draining nor looped. Under the halted policy it always does (R455). -/
def Dev.spi1Open (d : Dev) : Bool :=
  d.pinsHave [11, 12, 13, 14] 3 &&
    (d.kryup.halted || (match d.ust (serialBase 1) with | .off | .draining => false | _ => !d.proving (serialBase 1)))

/-- A frame, with the MOSI bytes that came before CS_N rose. -/
def opSpi1Frame (bytes : List Byte) (d : Dev) : Dev :=
  let err := d.raise (serialBase 1) Reg.SER_EVENT.ERR
  if !d.spi1Open then d
  else match bytes with
    | [] => err
    | c :: rest =>
      let addr := bigEndian (rest.take 4)
      if c = 0x0B#8 then
        if rest.length < 4 then err else d.enqueue { path := pathSpi1, write := false, addr := addr, data := 0 }
      else if c = 0x02#8 then
        if rest.length < 8 then err
        else d.enqueue { path := pathSpi1, write := true, addr := addr, data := BitVec.ofNat 32 (bigEndian ((rest.drop 4).take 4)) }
      else err
def execSpi1Frame (bytes : List Byte) (s : State) : Answer := onDev (opSpi1Frame bytes) s

/-- The debug register has an access pending. -/
def Dev.jtagPending (d : Dev) : Bool := d.ctl.waiting.any (fun a => a.path == pathJtag) || d.ctl.debugPend.has pathJtag

def opJtagDebug (addr data : Word) (write go : Bool) (d : Dev) : Dev :=
  let d := d.modPins fun r => { r with jtag := .debug }
  if go && !d.jtagPending then d.enqueue { path := pathJtag, write := write, addr := addr.toNat, data := data } else d
def execJtagDebug (addr data : Word) (write go : Bool) (s : State) : Answer := onDev (opJtagDebug addr data write go) s

/-! ## JTAG instructions (R519) -/

/-- An instruction is selected. -/
def Dev.setJtag (d : Dev) (j : JtagInstr) : Dev := d.modPins fun r => { r with jtag := j }

/-- An update of the boundary register: high impedance, low or high, by pin and pair. -/
def Dev.setBoundary (d : Dev) (cells : List (Fin 340 × Fin 3)) : Dev :=
  d.modPins fun r => { r with boundary := cells.foldl (fun m c => m.setNum c.1 c.2) r.boundary }

/-- A change of what the boundary register drives may be an edge for any pin. -/
def Dev.jtagChange (d : Dev) (f : Dev → Dev) : Dev := d.pinChange (List.range 320) f

def opExtest (cells : List (Fin 340 × Fin 3)) (d : Dev) : Dev := d.jtagChange fun d => (d.setBoundary cells).setJtag .extest
def execExtest (cells : List (Fin 340 × Fin 3)) (s : State) : Answer := onDev (opExtest cells) s
def opIdcode (d : Dev) : Dev := d.jtagChange fun d => d.setJtag .idcode
def execIdcode (s : State) : Answer := onDev opIdcode s
def opSamplePreload (cells : List (Fin 340 × Fin 3)) (d : Dev) : Dev := d.jtagChange fun d => (d.setBoundary cells).setJtag .sample
def execSamplePreload (cells : List (Fin 340 × Fin 3)) (s : State) : Answer := onDev (opSamplePreload cells) s
def opClamp (d : Dev) : Dev := d.jtagChange fun d => d.setJtag .clamp
def execClamp (s : State) : Answer := onDev opClamp s
def opHighz (d : Dev) : Dev := d.jtagChange fun d => d.setJtag .highz
def execHighz (s : State) : Answer := onDev opHighz s
def opExtestPulse (d : Dev) : Dev := d.jtagChange fun d => d.setJtag .extestPulse
def execExtestPulse (s : State) : Answer := onDev opExtestPulse s
def opExtestTrain (d : Dev) : Dev := d.jtagChange fun d => d.setJtag .extestTrain
def execExtestTrain (s : State) : Answer := onDev opExtestTrain s
def opBypass (d : Dev) : Dev := d.jtagChange fun d => d.setJtag .bypass
def execBypass (s : State) : Answer := onDev opBypass s

/-- The 32-bit identity register. -/
def Dev.idcode (d : Dev) : Word := BitVec.ofNat 32 (d.ident.stepMajor * 2 ^ 28 + 0xC707 * 2 ^ 12 + 0x4D5 * 2 + 1)

/-! ## Serial ports (R515 to R518) -/

/-- The bits of a port's registers that its kind uses; others are reserved in it. -/
def serialMask (i off : Nat) : Nat :=
  if off = Reg.SER_CFG.off then
    (if i = 0 then 0xFF01 else if i = 2 then 0xFFFF0000 else if i = 3 then 0xFFFF00FF else if i = 1 then 0 else 0xFFFF0078)
  else if off = Reg.SER_CMD.off then (if i = 0 then 0xFFFFFF else if i = 2 ∨ i = 3 then 0x7F3FFF else 0)
  else if off = Reg.SER_ARG.off then (if i = 0 then 0xFFFFFFFF else 0)
  else 0xFFFFFFFF

/-- A port issues commands: SPI0 and the I2C hosts. -/
def Dev.hostPort (d : Dev) (i : Nat) : Bool := i == 0 || i == 2 || (i == 3 && !d.flag (serialBase 3) Reg.SER_CFG.TARGET)

/-- A boot entry or a REAPPLY reads SPI0 (R516). -/
def Dev.bootReads (d : Dev) : Bool := d.load.spi || decide (d.load.mode = .boot)

/-- A UART transmits, and SER_STATUS.BUSY is 1, while its TX FIFO holds bytes. -/
def Dev.serBusy (d : Dev) (i : Nat) : Bool :=
  (d.serialRec i).busy || (4 ≤ i && d.runs (serialBase i) && !(d.serialRec i).tx.isEmpty)

/-- The FIFO depth. -/
def fifoBytes : Nat := 64

/-- SER_CMD.GO. -/
def Dev.serGo (d : Dev) (i : Nat) : Dev :=
  let b := serialBase i
  if !d.hostPort i then d
  else if d.serBusy i || !d.runs b || d.proving b || (i == 0 && d.bootReads) then d.raise b Reg.SER_EVENT.CMD_REJECT
  else d.modSerial i fun r => { r with busy := true }

/-- A write of SER_CMD. -/
def Dev.serCmdWrite (d : Dev) (i : Nat) (w : Word) : Dev :=
  let d := d.setReg (serialBase i + Reg.SER_CMD.off) (w &&& BitVec.ofNat 32 (serialMask i Reg.SER_CMD.off))
  if fget w Reg.SER_CMD.GO = 1 then d.serGo i else d

/-- The command that `value` holds is issued. -/
def opSerCmd (path : Fin 8) (i : Fin 6) (value : Word) (d : Dev) : Dev :=
  d.viaWord path (serialBase i + Reg.SER_CMD.off) (fset value Reg.SER_CMD.GO 1) fun d => d.serCmdWrite i (fset value Reg.SER_CMD.GO 1)
def execSerCmd (path : Fin 8) (i : Fin 6) (value : Word) (s : State) : Answer := onDev (opSerCmd path i value) s

/-- A received byte enters the RX FIFO, or is dropped when that is full. -/
def Dev.serPush (d : Dev) (i : Nat) (x : RxByte) : Dev :=
  let b := serialBase i
  if fifoBytes ≤ (d.serialRec i).rx.length then d.raise b Reg.SER_EVENT.RX_OVF
  else (d.modSerial i fun r => { r with rx := r.rx ++ [x] }).raise b Reg.SER_EVENT.RX_DATA

/-- A command ends, with how many TX bytes it sent, the bytes it read, and whether it ended in an error or a lost arbitration. -/
def opSerCmdDone (i : Fin 6) (sent : Nat) (got : List Byte) (err arb : Bool) (d : Dev) : Dev :=
  let b := serialBase i
  if !(d.serialRec i).busy then d
  else
    let spi := i.val == 0
    let wr := d.flag b Reg.SER_CMD.WRITE
    let sent := if spi && !wr then 0 else min sent (min fifoBytes (d.fld b Reg.SER_CMD.WR_LEN))
    let got := if spi && wr then [] else got.take (min fifoBytes (d.fld b Reg.SER_CMD.RD_LEN))
    let d := d.modSerial i fun r => { r with busy := false, tx := r.tx.drop sent }
    let d := d.each got fun d x => d.serPush i { byte := x, bad := false }
    ((d.raise b Reg.SER_EVENT.DONE).raiseIf err b Reg.SER_EVENT.ERR).raiseIf (arb && !spi) b Reg.SER_EVENT.ARB_LOST
def execSerCmdDone (i : Fin 6) (sent : Nat) (got : List Byte) (err arb : Bool) (s : State) : Answer :=
  onDev (opSerCmdDone i sent got err arb) s

/-- A byte written to SER_TX. -/
def Dev.serTx (d : Dev) (i : Nat) (x : Byte) : Dev :=
  let b := serialBase i
  let d := d.setFld b Reg.SER_TX.BYTE x.toNat
  if fifoBytes ≤ (d.serialRec i).tx.length then d.raise b Reg.SER_EVENT.ERR
  else d.modSerial i fun r => { r with tx := r.tx ++ [x] }

def opSerTxWrite (path : Fin 8) (i : Fin 6) (x : Byte) (d : Dev) : Dev :=
  d.viaWord path (serialBase i + Reg.SER_TX.off) (BitVec.ofNat 32 x.toNat) fun d => d.serTx i x
def execSerTxWrite (path : Fin 8) (i : Fin 6) (x : Byte) (s : State) : Answer := onDev (opSerTxWrite path i x) s

/-- A read of SER_RX removes the head of the FIFO. -/
def Dev.serRx (d : Dev) (i : Nat) : Dev × Word :=
  match (d.serialRec i).rx with
  | [] => (d, 0)
  | x :: t => (d.modSerial i fun r => { r with rx := t }, BitVec.ofNat 32 (bit01 x.bad * 2 ^ 9 + 2 ^ 8 + x.byte.toNat))

def opSerRxRead (path : Fin 8) (i : Fin 6) (d : Dev) : Dev :=
  d.viaRead path (serialBase i + Reg.SER_RX.off) fun d => let (d, w) := d.serRx i; (d, stOk, w)
def execSerRxRead (path : Fin 8) (i : Fin 6) (s : State) : Answer := onDev (opSerRxRead path i) s

/-- The port receives from its pins: a UART whose RXD selects it, or I2C1 as a target. -/
def Dev.serReceives (d : Dev) (i : Nat) : Bool :=
  d.runs (serialBase i) && !d.proving (serialBase i) &&
    (if i = 4 then d.pinsHave [21] 6 else if i = 5 then d.pinsHave [25] 7
     else i == 3 && d.flag (serialBase 3) Reg.SER_CFG.TARGET && d.pinsHave [18, 19] 5)

/-- A UART byte with a parity or framing error is marked; a byte that finds the FIFO full is dropped by a UART and answered NAK by
I2C1. -/
def opSerialByteReceived (i : Fin 6) (x : Byte) (bad : Bool) (d : Dev) : Dev :=
  if !d.serReceives i then d
  else if i.val = 3 then
    if fifoBytes ≤ (d.serialRec i).rx.length then d else d.serPush i { byte := x, bad := false }
  else (d.serPush i { byte := x, bad := bad }).raiseIf bad (serialBase i) Reg.SER_EVENT.ERR
def execSerialByteReceived (i : Fin 6) (x : Byte) (bad : Bool) (s : State) : Answer := onDev (opSerialByteReceived i x bad) s

/-- CTS_N of a UART is asserted, low, or not asked for (R518); while its pin has another function it shows IDLE (R505). -/
def Dev.ctsOk (d : Dev) (i : Nat) : Bool :=
  let p := 23 + 4 * (i - 4)
  !uartRtsCts d i || !(if d.pinFunc p = i + 2 then d.padLevel p else d.pinCfg p Reg.PIN_CFG.IDLE != 0)

/-- The port's transmitter takes bytes from its TX FIFO by itself: a UART that its partner lets send, I2C1 as a target, and any port in
its loop. -/
def Dev.serSends (d : Dev) (i : Nat) : Bool :=
  match d.ust (serialBase i) with
  | .running | .degraded | .draining =>
    d.proving (serialBase i) || (decide (4 ≤ i) && d.ctsOk i) ||
      (i == 3 && d.flag (serialBase 3) Reg.SER_CFG.TARGET && d.pinsHave [18, 19] 5)
  | _ => false

/-- The byte at the head of the TX FIFO leaves; in a loop it comes back to the port's receiver (R500). A target host that finds
the FIFO empty reads 0xFF. -/
def opSerialByteSent (i : Fin 6) (d : Dev) : Dev :=
  if !d.serSends i then d
  else match (d.serialRec i).tx with
    | [] => d
    | x :: t =>
      let loop := d.proving (serialBase i)
      let d := d.modSerial i fun r => { r with tx := t }
      let d := if loop then d.serPush i { byte := x, bad := false } else d
      d.raiseIf (4 ≤ i.val && t.isEmpty) (serialBase i) Reg.SER_EVENT.DONE
def execSerialByteSent (i : Fin 6) (s : State) : Answer := onDev (opSerialByteSent i) s

/-! ## Embedded flash and fuses (R520) -/

def flCmdAddr : Nat := serialGalleyBase + Reg.FL_CMD.off
def flRead : Nat := 0
def flProgram : Nat := 1
def flErase : Nat := 2

/-- Software may program and erase at a byte address: the boot record and the user area. -/
def flashOpen (a : Nat) : Bool := decide (a < 0x1000 ∨ 0x40000 ≤ a)

/-- The words of the soft map's area (R482): the count, the entries, and a CRC-32C over both. -/
def softArea (m : List Word) : List Word :=
  let ws := BitVec.ofNat 32 m.length :: m
  ws ++ [crc32c (ws.flatMap fun w => bytesOf 4 w.toNat)]

/-- The word that software reads at a byte address. How Kryup lays out its area the spec does not say: its words are free. -/
def Dev.flashWord (d : Dev) (a : Nat) : Dev × Word :=
  if flashOpen a then (d, d.pins.flash.at (a / 4) 0xFFFFFFFF)
  else if a < 0x10000 then (d.drew, BitVec.ofNat 32 (Config.freeNat d.free))
  else if a < 0x20000 then (d, (softArea d.test.softMap).getD ((a - 0x10000) / 4) 0xFFFFFFFF)
  else (d, 0)

/-- FL_CMD.GO: the command runs at the address and with the data that the registers hold. -/
def Dev.flGo (d : Dev) : Dev :=
  let b := serialGalleyBase
  if d.pins.flashRun.isSome then d
  else
    let run := (d.fld b Reg.FL_CMD.OP, 4 * d.fld b Reg.FL_ADDR.ADDR, d.reg (b + Reg.FL_DATA.off))
    (d.modPins fun p => { p with flashRun := some run }).setFld b Reg.FL_STATUS.BUSY 1

/-- A write of FL_CMD with GO. -/
def Dev.flBy (d : Dev) (path op : Nat) : Dev := 
  d.viaCtl path flCmdAddr [(Reg.FL_CMD.OP, op), (Reg.FL_CMD.GO, 1)] fun d => (d.setFld serialGalleyBase Reg.FL_CMD.OP op).flGo

def opFlashRead (path : Fin 8) (d : Dev) : Dev := d.flBy path flRead
def execFlashRead (path : Fin 8) (s : State) : Answer := onDev (opFlashRead path) s
def opFlashProgram (path : Fin 8) (d : Dev) : Dev := d.flBy path flProgram
def execFlashProgram (path : Fin 8) (s : State) : Answer := onDev (opFlashProgram path) s
def opEraseSector (path : Fin 8) (d : Dev) : Dev := d.flBy path flErase
def execEraseSector (path : Fin 8) (s : State) : Answer := onDev (opEraseSector path) s

def flOk : Nat := 0
def flLocked : Nat := 1
def flFail : Nat := 2

/-- A flash command ends; `fail` tells that the flash reports a failure. -/
def opFlCmdDone (fail : Bool) (d : Dev) : Dev :=
  let b := serialGalleyBase
  match d.pins.flashRun with
  | none => d
  | some (op, a, w) =>
    let d := (d.modPins fun p => { p with flashRun := none }).setFld b Reg.FL_STATUS.BUSY 0
    let ends (d : Dev) (st : Nat) : Dev := d.setFld b Reg.FL_STATUS.STATUS st
    if (op = flProgram ∨ op = flErase) ∧ !flashOpen a then ends d flLocked
    else if fail || decide (2 < op) then ends d flFail
    else if op = flRead then
      let (d, v) := d.flashWord a
      ends (d.setReg (b + Reg.FL_DATA.off) v) flOk
    else if op = flProgram then
      ends (d.modPins fun p => { p with flash := p.flash.set (a / 4) 0xFFFFFFFF w }) flOk
    else ends (d.modPins fun p => { p with flash := p.flash.keep fun k => k / 1024 != a / 4096 }) flOk
def execFlCmdDone (fail : Bool) (s : State) : Answer := onDev (opFlCmdDone fail) s

/-- FUSE_DATA of a fuse word: what the device was made with, or a repair word burned since. -/
def Dev.fuseWord (d : Dev) (k : Nat) : Word := if k < 512 then Config.fuseWord k else d.pins.fuses.at k 0

end Sys2Proof.Machine
end

