-- ==== Sys2Proof/Machine/Repair.lean ====
section
/-!
DEFINITION. Repair entries and the order in which a boot applies them (R22, R27, R253, R468, R476, R481 to R485).
-/
namespace Sys2Proof.Machine

/-! ## Frame rows (R476) -/

/-- The key of a storage: a stage slot of a column, or a plate slot of a tile. -/
def stageRowKey (c slot : Nat) : Nat := 2 ^ 20 + c * 4 + slot
def plateRowKey (die c slot : Nat) : Nat := (die * 256 + c) * 4 + slot

/-- The storage that a class 0x6 entry names. -/
def frameStorage (c sub : Nat) : Nat :=
  if sub / 4 = 2 then stageRowKey c (sub % 4) else plateRowKey (sub / 4) c (sub % 4)

/-- A frame row takes one of the 4 spares of its storage: whether one was free. -/
def Dev.takeFrameSpare (d : Dev) (key row : Nat) : Dev × Bool :=
  let used := d.test.frameSpare.at key []
  if used.length < 4 then (d.modTest fun t => { t with frameSpare := t.frameSpare.put key (row :: used) }, true)
  else (d.modTest fun t => { t with frameBad := t.frameBad.put key 1 }, false)

/-! ## Entries -/

def repClass (w0 : Nat) : Nat := bitsOf w0 28 4
def repCol (w0 : Nat) : Nat := bitsOf w0 20 8
def repSub (w0 : Nat) : Nat := bitsOf w0 16 4
def repPos (w0 : Nat) : Nat := bitsOf w0 0 16

/-- The SUB of a shaft. -/
def viaShaft : Nat := 5

/-- A shaft takes a spare of its bundle, and is dead when none is left (R31). -/
def Dev.shaftTake (d : Dev) (c bundle via : Nat) : Dev × Nat :=
  let b := columnBase 0 c
  let k := bundleKey c viaShaft bundle
  let shaft := bundle * 256 + via
  let used := d.stack.repaired.at k []
  let dead := d.stack.deadShafts.at c []
  if used.contains via ∨ dead.contains shaft then (d, repDuplicate)
  else if used.length < 16 then
    let d := d.modStack fun s => { s with repaired := s.repaired.put k (via :: used) }
    let d := d.setFld b Reg.SPARE_USE.SHAFTS (max (d.fld b Reg.SPARE_USE.SHAFTS)
      ((used.filter fun v => decide (v < deadSpare)).length + 1))
    (d.setFld b Reg.VLINK_STATE.SHAFTS (max 1 (d.fld b Reg.VLINK_STATE.SHAFTS)), repApplied)
  else
    let d := d.modStack fun s => { s with deadShafts := s.deadShafts.put c (shaft :: dead) }
    ((d.setFld b Reg.DEAD_SHAFTS.COUNT (dead.length + 1)).setFld b Reg.VLINK_STATE.SHAFTS 2, repNoSpare)

/-- A clock via is marked failed at boot, and the lowest one that is not is made active (R22, R24). -/
def Dev.clockViaMark (d : Dev) (c via : Nat) : Dev × Nat :=
  let b := columnBase 0 c
  let failed := d.fld b Reg.CLK_VIA.FAILED
  if bitOf failed via then (d, repDuplicate)
  else
    let d := d.setFld b Reg.CLK_VIA.FAILED (failed ||| 2 ^ via)
    match (List.range 4).find? fun v => !bitOf (failed ||| 2 ^ via) v with
    | some v => ((d.setFld b Reg.CLK_VIA.ACTIVE v).setFld b Reg.VLINK_STATE.CLOCK (bit01 (v != 0)), repApplied)
    | none => (d.clocksLost c, repNoSpare)

/-- The relief bank of a group becomes the permanent replacement of a bank (R253). -/
def Dev.reliefForGood (d : Dev) (bank : Nat) : Dev :=
  let b := columnBase 1 (bank / 8)
  let d := d.modMem fun m => { m with relief := m.relief.put (groupOf (bank / 8)) { bank := bank, permanent := true, phase := 0 } }
  (d.setFld b Reg.MEM_STATUS.RELIEF_ACTIVE 1).setFld b Reg.MEM_STATUS.RELIEF_BANK (bank % 8)

/-- The relief bank of a group may still be assigned. -/
def Dev.reliefFree (d : Dev) (g : Nat) : Bool := !d.mem.relief.has g && !d.test.reliefBad.mem g

/-- An entry is applied (R27, R481): the state and its RESULT. Entries of a reserved class are skipped as duplicates (R482), and
so are those of class 1 that name no via of R17, of which the spec says nothing (DESIGN CHOICE, log entry 71). A via that finds no
spare is on record until the release applies the rules for exhausted spares. -/
def Dev.repApply (d : Dev) (w0 : Nat) : Dev × Nat :=
  let c := repCol w0
  let sub := repSub w0
  let pos := repPos w0
  let bundle := pos / 2 ^ 13
  let via := pos % 2 ^ 13
  let spare (line : Bool) : Dev × Nat :=
    let bank := if sub = 8 then reliefNumber (groupOf c) else c * 8 + sub
    if 8 < sub ∨ (d.sparesUsed bank line).contains pos then (d, repDuplicate)
    else
      let (d, ok) := d.takeSpare bank line pos
      (d, if ok then repApplied else repNoSpare)
  match repClass w0 with
  | 1 =>
    if sub < 5 ∧ via < bundleVias sub bundle then
      let k := bundleKey c sub bundle
      if (d.stack.repaired.at k []).contains via ∨ (d.stack.unrepaired.at k []).contains via then (d, repDuplicate)
      else
        let (d, ok) := d.viaTake c sub bundle via
        (d, if ok then repApplied else repNoSpare)
    else if sub = viaShaft ∧ bundle < 4 ∧ via < 256 then d.shaftTake c bundle via
    else (d, repDuplicate)
  | 2 => if pos < 4 then d.clockViaMark c pos else (d, repDuplicate)
  | 3 => spare false
  | 4 => spare true
  | 5 =>
    if sub < 8 ∧ d.reliefFree (groupOf c) then (d.reliefForGood (c * 8 + sub), repApplied) else (d, repDuplicate)
  | 6 =>
    let key := frameStorage c sub
    if 2 < sub / 4 ∨ (d.test.frameSpare.at key []).contains pos then (d, repDuplicate)
    else
      let (d, ok) := d.takeFrameSpare key pos
      (d, if ok then repApplied else repNoSpare)
  | 7 => (d.modHeat fun h => { h with failed := h.failed.put (sensorKey sub c (pos % 2)) 1 }, repRecorded)
  | 8 => (d.modTest fun t => { t with tallyBad := t.tallyBad.put (tallyKey (sub % 2) c pos) 1 }, repRecorded)
  | _ => (d, repDuplicate)

/-- An entry is applied and logged: the state and whether no spare covered it. -/
def Dev.repair (d : Dev) (origin w0 : Nat) : Dev × Bool :=
  let (d, r) := d.repApply w0
  (d.repLog w0 origin r, r == repNoSpare)

/-- The repair words of the fuse array burned so far, in order (R485). -/
def Dev.fuseEntries (d : Dev) : List Nat := (List.range d.pins.burned).map fun i => (d.pins.fuses.at (512 + i) 0).toNat

/-- The repair maps are applied during step 6 of R367: the fuse entries, then the soft map unless its CRC fails (R27, R482). A wake
from DORMANT finds their repairs in place, which last until power-on or device reset, and a changed map waits for these too
(R28, R484). -/
def Dev.applyMaps (d : Dev) (mapBad : Bool) : Dev :=
  if d.stack.mapped then d
  else
    let d := (d.modStack fun s => { s with mapped := true }).each d.fuseEntries fun d w => (d.repair originFuse w).1
    if mapBad then d.raise stctlBase Reg.REP_STATUS.MAP_BAD
    else d.each d.test.softMap fun d w => (d.repair originMap w.toNat).1

/-! ## What a BIST finds (R466 to R469) -/

/-- One entry found by a BIST. A bank whose spares are used up takes the group's relief bank while it is free, and is dead
otherwise (R253, R254, R468). Whether the fault stays uncovered. -/
def Dev.bistEntry (d : Dev) (origin w0 : Nat) : Dev × Bool :=
  let (d, bad) := d.repair origin w0
  let c := repCol w0
  let bank := c * 8 + repSub w0
  if repClass w0 = 8 then ((d.fenceColumn c 2 faultFenced).colFatal c colLogicFault, true)
  else if !bad then (d, false)
  else if (repClass w0 = 3 ∨ repClass w0 = 4) ∧ repSub w0 < 8 then
    if d.reliefFree (groupOf c) then
      ((d.reliefForGood bank).repLog (repWord 5 c (repSub w0) 0) origin repApplied, false)
    else (d.bankDies c (repSub w0), true)
  else if (repClass w0 = 3 ∨ repClass w0 = 4) ∧ repSub w0 = 8 then
    (d.modTest fun t => { t with reliefBad := t.reliefBad.put (groupOf c) 1 }, true)
  else (d, true)

/-- The groups with an uncovered fault, as a mask, that a BIST's entries leave. -/
def Dev.bistEntries (d : Dev) (origin : Nat) (l : List Nat) : Dev × Nat :=
  l.foldl (fun (d, fail) w =>
    let (d, bad) := d.bistEntry origin w
    (d, if bad then fail ||| 2 ^ groupOf (repCol w) else fail)) (d, 0)

/-- A logic or tally-unit fault (R36, R468): the column is fenced and FAULTED until the next reset. -/
def Dev.logicFault (d : Dev) (c : Nat) : Dev := (d.fenceColumn c 2 faultFenced).colFatal c colLogicFault

end Sys2Proof.Machine
end

