-- ==== Sys2Proof/Machine/Plates.lean ====
section
/-!
DEFINITION. The configuration controller ("Plates"): plate commands, fills, staging, switching at a crossing, scrub, reloads,
and ownership conflicts of shafts (R191, R192).
-/
namespace Sys2Proof.Machine

/-! ## Faults of plates (R191, R192, R213, R226) -/

def srcStaging : Nat := 0
def srcPlateScrub : Nat := 1
def srcLive : Nat := 2

/-- The galleys with logic in a column enter FAULTED with cause PLATE. -/
def Dev.plateFault (d : Dev) (c : Nat) : Dev := d.each (d.usersIn c) fun d b => d.fatal b faultPlate

/-- A load into a slot of a group ends FAULTED in a running staging. -/
def Dev.faultSlot (d : Dev) (g s : Nat) : Dev := d.setPslot g s slotFaulted

/-- An ownership conflict is logged in both column units, the first one that stands (R192). -/
def Dev.driveLog (d : Dev) (c shaft slot src : Nat) : Dev :=
  [2, 4].foldl (fun d l =>
    let b := columnBase l c
    if d.ust b = .off then d
    else
      let d := d.raise b Reg.TILE_EVENT.DRIVE_CONFLICT
      if d.flag b Reg.DRIVE_LOG_V.VALID then d
      else
        ((((d.setFld b Reg.DRIVE_LOG.SHAFT shaft).setFld b Reg.DRIVE_LOG.SLOT slot).setFld b Reg.DRIVE_LOG.SOURCE src).setFld b
          Reg.DRIVE_LOG_V.VALID 1)) d

/-- A conflict on a shaft of a column in a plate slot (R192, R215). -/
def Dev.driveConflict (d : Dev) (c shaft slot src : Nat) : Dev :=
  let g := groupOf c
  if d.pslot g slot = slotEmpty then d
  else
    let d := (d.driveLog c shaft slot src).modPlates fun p => { p with conflict := p.conflict.put (c * 4 + slot) 1 }
    let d := d.faultSlot g slot
    if d.inForce g slot then d.plateFault c else d

/-- A slot of a group with a standing conflict, which no reload mends (R228). -/
def Dev.conflictStands (d : Dev) (g s : Nat) : Bool := d.plates.conflict.keys.any fun k => groupOf (k / 4) == g && k % 4 == s

/-- Multi-bit upsets strike ownership bits of a slot of a column. -/
def Dev.strikeOwners (d : Dev) (c slot : Nat) (struck : List (Nat × Nat)) : Dev :=
  d.modPlates fun p =>
    { p with ownUpset := struck.foldl (fun m s => m.setNum (ownKey c slot s.1) (m.num (ownKey c slot s.1) ^^^ s.2)) p.ownUpset }

/-- The lowest of some shafts. -/
def lowestShaft : List (Fin 1024) → Option (Fin 1024)
  | [] => none
  | s :: t => some (t.foldl min s)

/-- Ownership fields of the slot in force become 0b11: the lowest-numbered shaft is found live, and the others by the next scrub
(R191, R192). -/
def opDriveConflict (c : Fin 256) (shafts : List (Fin 1024)) (d : Dev) : Dev :=
  match d.slotNow (groupOf c), lowestShaft shafts with
  | some slot, some s =>
    (d.strikeOwners c slot (shafts.eraseDups.map fun (s : Fin 1024) => (s.val, d.owner c slot s.val ^^^ 3))).driveConflict c s slot srcLive
  | _, _ => d
def execDriveConflict (c : Fin 256) (shafts : List (Fin 1024)) (s : State) : Answer := onDev (opDriveConflict c shafts) s

/-- DED of a frame word (R211, R226): counted, and logged while the log is empty. -/
def Dev.dedFound (d : Dev) (c row slot die : Nat) (stage : Bool) : Dev :=
  let b := configBase
  let d := (d.count b Reg.DED_COUNT.COUNT).raise b Reg.PLATE_EVENT.DED
  if d.flag b Reg.DED_LOG.VALID then d
  else
    let d := (d.setFld b Reg.DED_LOG.COLUMN c).setFld b Reg.DED_LOG.STAGE (bit01 stage)
    let d := (d.setFld b Reg.DED_LOG.DIE (if stage then 0 else die)).setFld b Reg.DED_LOG.SLOT slot
    (d.setFld b Reg.DED_LOG.FRAME_ROW row).setFld b Reg.DED_LOG.VALID 1

/-- The stage slot that a reload of a slot of a group reads: READY, of the same plate, with the group valid (R227). Of several the
lowest-numbered one (DESIGN CHOICE, log entry 120). -/
def Dev.reloadSource (d : Dev) (g s : Nat) : Option Nat :=
  (List.range 4).find? fun t => d.stageSt t == stageReady && d.stagePlate t == d.pslotPlate g s && bitOf (d.stageValid t) g

/-- A reload of the slot waits or runs. -/
def Dev.reloading (d : Dev) (g s : Nat) : Bool :=
  (d.plates.reloads.any fun r => groupOf r.column == g && r.slot == s) ||
  match d.plates.dataCmd with
  | some (.reload c t _ _) => groupOf c == g && t == s
  | _ => false

/-- An uncorrectable frame word in a plate slot of a column (R215, R226, R227). -/
def Dev.plateDed (d : Dev) (c slot die row : Nat) : Dev :=
  let g := groupOf c
  let st := d.pslot g slot
  let d := d.dedFound c row slot die false
  if st = slotEmpty then d
  else
    let d := (d.faultSlot g slot).modPlates fun p => { p with uncorr := p.uncorr.put (c * 4 + slot) 1 }
    let galleys := if d.inForce g slot then d.usersIn c else []
    let d := if d.inForce g slot then d.plateFault c else d
    let wait (d : Dev) : Dev :=
      if d.plates.reloads.any fun r => r.column == c && r.slot == slot then d
      else d.modPlates fun p => { p with reloads := p.reloads ++ [{ column := c, slot := slot, galleys := galleys }] }
    if st = slotLoading || d.conflictStands g slot then d
    else if d.reloading g slot then wait d
    else if st = slotFaulted || !d.flag configBase Reg.PLATE_CTRL.AUTO_RECOVER then d
    else if (d.reloadSource g slot).isNone then d.raise configBase Reg.PLATE_EVENT.RELOAD_FAIL
    else wait d

/-- A reload of a slot fails (R227): the slot stays FAULTED, and the reloads of its other columns are dropped (DESIGN CHOICE, log
entry 116). -/
def Dev.reloadFails (d : Dev) (g s : Nat) : Dev :=
  (d.modPlates fun p => { p with reloads := p.reloads.filter fun r => !(groupOf r.column == g && r.slot == s) }).raise configBase
    Reg.PLATE_EVENT.RELOAD_FAIL

/-- An uncorrectable frame word in a stage slot of a column (R211). -/
def Dev.stageDed (d : Dev) (c slot row : Nat) : Dev := (d.dedFound c row slot 0 true).stageInvalid slot (groupOf c)

/-! ## Commands (R206, R207) -/

def pstOk : Nat := 0x00
def pstBusy : Nat := 0x01
def pstSlotState : Nat := 0x02
def pstNotReady : Nat := 0x03
def pstLate : Nat := 0x04
def pstMode : Nat := 0x05
def pstClock : Nat := 0x06
def pstHoldBudget : Nat := 0x07
def pstBadArg : Nat := 0x08
def pstPending : Nat := 0x09
def pstNoMap : Nat := 0x0A
def pstFaultedGroup : Nat := 0x0B

def Dev.pcmdStatus (d : Dev) (st g : Nat) : Dev :=
  (d.setFld configBase Reg.PCMD_STATUS.STATUS st).setFld configBase Reg.PCMD_STATUS.GROUP g

/-- The groups of PCMD_GROUPS. -/
def Dev.pcmdMask (d : Dev) : Nat := d.fld configBase Reg.PCMD_GROUPS.MASK

/-- The first check of a list that fails. -/
def firstFail : List (Bool × Nat) → Nat
  | [] => pstOk
  | (bad, st) :: t => if bad then st else firstFail t

/-- Checks every group of the mask; performs the command when none fails, and otherwise reports the lowest failing group. -/
def Dev.checked (d : Dev) (check : Nat → Nat) (run : Dev → Dev) : Dev :=
  match (maskGroups d.pcmdMask).find? fun g => check g != pstOk with
  | some g => d.pcmdStatus (check g) g
  | none => (run d).pcmdStatus pstOk 0

/-- The target crossing of PSW_TARGET. -/
def Dev.switchTarget (d : Dev) : Nat :=
  (d.reg (configBase + Reg.PSW_TARGET_LO.off)).toNat + d.fld configBase Reg.PSW_TARGET_HI.CROSS_HI * 2 ^ 32

/-- A target of R216 is accepted. -/
def Dev.targetOk (d : Dev) (t : Nat) : Bool := decide (2 ≤ crossSub t d.now ∧ crossSub t d.now ≤ 2 ^ 47 - 1)

/-- The group holds a fenced column or a FAULTED column unit (R220). -/
def Dev.groupFaulted (d : Dev) (g : Nat) : Bool :=
  (groupColumns g).any fun c => d.fenced c || (List.range 5).any fun l => decide (d.ust (columnBase l c) = .faulted)

/-- The hold budget of R217 refuses a switch in the group. -/
def Dev.holdRefused (d : Dev) (g : Nat) : Bool :=
  d.strike.groups.contains g && d.fastFabric && decide (d.fld keeperBase Reg.LATENCY.S < 2)

/-- A cycle list with its k is valid (R221). -/
def Dev.cycleOk (d : Dev) (list : List Nat) (k : Nat) : Bool := list.Nodup && decide (1 ≤ k ∧ k + 1 ≤ d.clk.ratioN)

/-- The entries of PCYCLE. -/
def Dev.cycleList (d : Dev) : List Nat :=
  let l := d.fld configBase Reg.PCYCLE.LIST
  (List.range (if d.flag configBase Reg.PCYCLE.LEN then 4 else 2)).map fun i => bitsOf l (2 * i) 2

/-- The plate of a slot drives or reads, in a column, a shaft that is recorded as dead (R31, R193). -/
def Dev.usesDead (d : Dev) (c slot : Nat) : Bool :=
  !d.slotBlank c slot && (d.stack.deadShafts.at c []).any fun s =>
    d.owner c slot s != 0 || Config.readsShaft (d.tileBits (c * 2) slot) s || Config.readsShaft (d.tileBits (c * 2 + 1) slot) s

/-- A slot can be made active in a group: VALID or ACTIVE (R207, R215), and without a dead shaft (R31). -/
def Dev.slotUsable (d : Dev) (g s : Nat) : Bool :=
  (d.pslot g s == slotValid || d.pslot g s == slotActive) && !(groupColumns g).any fun c => d.usesDead c s

/-- The checks that a switch to slots shares with a cycle start. -/
def Dev.switchChecks (d : Dev) (slots : List Nat) (g : Nat) : List (Bool × Nat) :=
  [(!d.targetOk d.switchTarget, pstLate),
   (slots.any fun s => !d.slotUsable g s, pstSlotState),
   (d.plates.pending.has g, pstPending),
   (d.groupFaulted g, pstFaultedGroup),
   (d.holdRefused g, pstHoldBudget)]

/-- A switch or cycle start is scheduled in every group of the mask. -/
def Dev.pend (d : Dev) (p : PendSwitch) : Dev :=
  d.each (maskGroups d.pcmdMask) fun d g =>
    (d.modPlates fun x => { x with pending := x.pending.put g p }).setFld configBase (Reg.PSLOT_G.PENDING.elem g) 1

/-- A data command must wait: one runs, or a reload does (R206). -/
def Dev.dataBusy (d : Dev) : Bool := d.plates.dataCmd.isSome

/-- A stage slot that a waiting reload reads. -/
def Dev.reloadReads (d : Dev) (t : Nat) : Bool :=
  d.plates.reloads.any fun r => d.reloadSource (groupOf r.column) r.slot == some t

/-- A stage slot is cleared and filling (R209, R210). -/
def Dev.beginFill (d : Dev) (s plate : Nat) : Dev := (d.setStage s stageFilling).setStageInfo s plate 0

/-- FILL_LP (R208, R209). -/
def Dev.cmdFillLp (d : Dev) (slot : Nat) : Dev :=
  let base := (d.reg (configBase + Reg.STAGE_SRC_LO.off)).toNat / 2 ^ 12 * 2 ^ 12 +
    d.fld configBase Reg.STAGE_SRC_HI.ADDR_HI * 2 ^ 32
  let first := (maskGroups d.pcmdMask).headD 0
  if d.dataBusy then d.pcmdStatus pstBusy first
  else if d.reloadReads slot then d.pcmdStatus pstSlotState first
  else
    let (d, st, w) := d.dsRead32 clsConfig base
    let plate := d.fld configBase Reg.PCMD.PLATE
    let ok := dsDone st && bitsOf w.toNat 0 8 == plate
    d.checked (fun g => if ok && bitOf w.toNat (16 + g) then pstOk else pstNotReady) fun d =>
      (d.beginFill slot plate).setData (some (.fillLp slot d.pcmdMask base))

/-- FILL_STREAM (R210). -/
def Dev.cmdFillStream (d : Dev) (slot : Nat) : Dev :=
  if d.dataBusy then d.pcmdStatus pstBusy 0
  else if d.reloadReads slot then d.pcmdStatus pstSlotState 0
  else
    let d := (d.beginFill slot 0).setData (some (.fillStream slot))
    (d.modPlates fun p => { p with stream := [] }).pcmdStatus pstOk 0

/-- The DRIVE_MAP of the released image has an entry for a plate number (R204). -/
def Dev.mapReleased (d : Dev) (plate : Nat) : Bool :=
  d.plates.driveMaps.has plate && match d.load.released with
    | some img => img.drives.contains plate
    | none => false

/-- STAGE (R204, R212). -/
def Dev.cmdStage (d : Dev) (sslot pslot : Nat) : Dev :=
  let plate := d.stagePlate sslot
  d.checked (fun g => firstFail
      [(d.dataBusy, pstBusy),
       (d.stageSt sslot != stageReady || !bitOf (d.stageValid sslot) g, pstNotReady),
       (!d.mapReleased plate, pstNoMap),
       (d.pslot g pslot == slotLoading || d.pslot g pslot == slotActive, pstSlotState),
       ((d.plates.pending.at g {}).list.contains pslot, pstPending)]) fun d =>
    (d.each (maskGroups d.pcmdMask) fun d g => (d.setPslot g pslot slotLoading).setPslotPlate g pslot plate).setData
      (some (.stage sslot pslot d.pcmdMask))

/-- SWITCH (R216, R217). -/
def Dev.cmdSwitch (d : Dev) (slot : Nat) : Dev :=
  d.checked (fun g => firstFail (d.switchChecks [slot] g)) fun d => d.pend { target := d.switchTarget, list := [slot] }

/-- CYCLE (R220, R221). -/
def Dev.cmdCycle (d : Dev) : Dev :=
  let list := d.cycleList
  let k := d.fld configBase Reg.PCYCLE.K
  d.checked (fun g => firstFail (d.switchChecks list g ++
      [(!d.cycleOk list k, pstBadArg), (d.mode != modeRoll && d.mode != modeSurge, pstMode), (d.fastFabric, pstClock)])) fun d =>
    d.pend { cycle := true, target := d.switchTarget, list := list, k := k }

/-- CANCEL (R216). -/
def Dev.cmdCancel (d : Dev) : Dev := d.checked (fun _ => pstOk) fun d => d.each (maskGroups d.pcmdMask) Dev.unpend

/-- The standing conflicts of a slot of a group end, and what its columns held uncorrectable is gone. -/
def Dev.conflictEnds (d : Dev) (g s : Nat) : Dev :=
  let other (k : Nat) : Bool := !(groupOf (k / 4) == g && k % 4 == s)
  d.modPlates fun p => { p with conflict := p.conflict.keep other, uncorr := p.uncorr.keep other }

/-- CLEAR (R215): a FAULTED slot becomes EMPTY, a VALID one stays. -/
def Dev.cmdClear (d : Dev) (slot : Nat) : Dev :=
  d.checked (fun g => if d.inForce g slot || d.pslot g slot == slotLoading then pstSlotState else pstOk) fun d =>
    d.each (maskGroups d.pcmdMask) fun d g =>
      if d.pslot g slot = slotFaulted then (d.setPslot g slot slotEmpty).conflictEnds g slot else d

/-- The command that PCMD holds is given. -/
def Dev.pcmdGo (d : Dev) : Dev :=
  let op := d.fld configBase Reg.PCMD.OP
  let s := d.fld configBase Reg.PCMD.STAGE_SLOT
  let p := d.fld configBase Reg.PCMD.PLATE_SLOT
  let first := (maskGroups d.pcmdMask).headD 0
  if !d.runs configBase then d.pcmdStatus pstBusy first
  else if op ≠ 2 ∧ d.pcmdMask = 0 then d.pcmdStatus pstBadArg 0
  else match op with
    | 1 => d.cmdFillLp s
    | 2 => d.cmdFillStream s
    | 3 => d.cmdStage s p
    | 4 => d.cmdSwitch p
    | 5 => d.cmdCycle
    | 6 => d.cmdCancel
    | 7 => d.cmdClear p
    | _ => d.pcmdStatus pstBadArg first

/-- A write of PCMD. -/
def Dev.pcmdWrite (d : Dev) (w : Word) : Dev :=
  let d := d.storeRw (configBase + Reg.PCMD.off) w
  (if fget w Reg.PCMD.GO = 1 then d.pcmdGo else d)

/-- A PCMD word with GO. -/
def pcmdWord (op : Nat) (plate : Byte) (sslot pslot : Fin 4) : Word :=
  BitVec.ofNat 32 (2 ^ 31 + op * 2 ^ 16 + plate.toNat * 2 ^ 8 + sslot.val * 2 ^ 4 + pslot.val)

/-- A write of PCMD by a path. -/
def Dev.pcmdBy (d : Dev) (path : Nat) (w : Word) : Dev := d.viaWord path (configBase + Reg.PCMD.off) w fun d => d.pcmdWrite w

def opFillLp (path : Fin 8) (plate : Byte) (sslot pslot : Fin 4) (d : Dev) : Dev := d.pcmdBy path (pcmdWord 1 plate sslot pslot)
def execFillLp (path : Fin 8) (plate : Byte) (sslot pslot : Fin 4) (s : State) : Answer := onDev (opFillLp path plate sslot pslot) s
def opFillStream (path : Fin 8) (plate : Byte) (sslot pslot : Fin 4) (d : Dev) : Dev := d.pcmdBy path (pcmdWord 2 plate sslot pslot)
def execFillStream (path : Fin 8) (plate : Byte) (sslot pslot : Fin 4) (s : State) : Answer :=
  onDev (opFillStream path plate sslot pslot) s
def opPlateStage (path : Fin 8) (plate : Byte) (sslot pslot : Fin 4) (d : Dev) : Dev := d.pcmdBy path (pcmdWord 3 plate sslot pslot)
def execPlateStage (path : Fin 8) (plate : Byte) (sslot pslot : Fin 4) (s : State) : Answer :=
  onDev (opPlateStage path plate sslot pslot) s
def opPlateSwitch (path : Fin 8) (plate : Byte) (sslot pslot : Fin 4) (d : Dev) : Dev := d.pcmdBy path (pcmdWord 4 plate sslot pslot)
def execPlateSwitch (path : Fin 8) (plate : Byte) (sslot pslot : Fin 4) (s : State) : Answer :=
  onDev (opPlateSwitch path plate sslot pslot) s
def opPlateCycle (path : Fin 8) (plate : Byte) (sslot pslot : Fin 4) (d : Dev) : Dev := d.pcmdBy path (pcmdWord 5 plate sslot pslot)
def execPlateCycle (path : Fin 8) (plate : Byte) (sslot pslot : Fin 4) (s : State) : Answer :=
  onDev (opPlateCycle path plate sslot pslot) s
def opPlateCancel (path : Fin 8) (plate : Byte) (sslot pslot : Fin 4) (d : Dev) : Dev := d.pcmdBy path (pcmdWord 6 plate sslot pslot)
def execPlateCancel (path : Fin 8) (plate : Byte) (sslot pslot : Fin 4) (s : State) : Answer :=
  onDev (opPlateCancel path plate sslot pslot) s
def opPlateClear (path : Fin 8) (plate : Byte) (sslot pslot : Fin 4) (d : Dev) : Dev := d.pcmdBy path (pcmdWord 7 plate sslot pslot)
def execPlateClear (path : Fin 8) (plate : Byte) (sslot pslot : Fin 4) (s : State) : Answer :=
  onDev (opPlateClear path plate sslot pslot) s

/-! ## Fills (R208 to R210, R345, R346, R348) -/

/-- Frame words of a segment, and of a row. -/
def segmentWords : Nat := 20736

/-- The columns and dies of a group in the order of R208. -/
def groupSegments (g : Nat) : List (Nat × Nat) := (groupColumns g).flatMap fun c => [(c, 0), (c, 1)]

/-- The bytes of a frame word. -/
def frameBytes (w : RowWord) : List Byte := bytesOf 32 w.toNat

/-- A segment's words are stored in a stage slot, with fresh check bits; the ports of a fenced column carry nothing (R34). -/
def Dev.putSegment (d : Dev) (slot : Nat) (seg : Nat × Nat) (ws : List RowWord) : Dev :=
  if d.fenced seg.1 then d
  else
  let put (m : SMap RowWord) (x : Nat × RowWord) := m.set (stageKey seg.1 slot seg.2 (x.1 / 8) (x.1 % 8)) 0 x.2
  d.modPlates fun p =>
    { p with stageFrames := ((List.range segmentWords).zip ws).foldl put p.stageFrames
             stageErr := p.stageErr.keep fun k => k / 20736 != stageKey seg.1 slot seg.2 0 0 / 20736 }

/-- A frame row of a stage slot that no spare serves makes every fill into the slot fail (R476). -/
def Dev.stageRowsBad (d : Dev) (slot : Nat) : Bool := (List.range 256).any fun c => d.test.frameBad.mem (stageRowKey c slot)
/-- The same of a plate slot in a group. -/
def Dev.plateRowsBad (d : Dev) (g slot : Nat) : Bool :=
  (groupColumns g).any fun c => d.test.frameBad.mem (plateRowKey 0 c slot) || d.test.frameBad.mem (plateRowKey 1 c slot)

/-- Reads one segment of a plate store: whether every read was good, and the words. -/
def Dev.readSegment (d : Dev) (base : Nat) (seg : Nat × Nat) : Dev × Bool × List RowWord :=
  let start := base + 0x1000 + (seg.1 * 2 + seg.2) * 2592 * 256
  let (d, ok, ws) := (List.range segmentWords).foldl (fun (x : Dev × Bool × List RowWord) i =>
    let (d, st, w) := x.1.dsRead32 clsConfig (start + 32 * i)
    (d, x.2.1 && dsDone st, w :: x.2.2)) (d, true, [])
  (d, ok, ws.reverse)

/-- The rows of a group can reach its stage slot: a column fenced until the next reset is passed over, and one fenced until its clock
restarts fails the group (DESIGN CHOICE, log entry 115). -/
def Dev.groupReached (d : Dev) (g : Nat) : Bool := (groupColumns g).all fun c => d.stack.fence.num c != 1

/-- Reads a group of a plate store into a stage slot and checks its CRC-32C (R209). -/
def Dev.fillGroup (d : Dev) (slot base g : Nat) : Dev × Bool :=
  let crcAt := base + 4 + 4 * g
  let (d, st, w) := d.dsRead32 clsConfig crcAt
  let want := bitsOf w.toNat (8 * (crcAt % 32)) 32
  let (d, ok, crc) := (groupSegments g).foldl (fun (x : Dev × Bool × BitVec 32) seg =>
    let (d, ok, ws) := x.1.readSegment base seg
    (d.putSegment slot seg ws, x.2.1 && ok, ws.foldl (fun c w => (frameBytes w).foldl crc32Byte c) x.2.2)) (d, true, 0xFFFFFFFF#32)
  (d, ok && dsDone st && (~~~crc).toNat == want && !d.stageRowsBad slot && d.groupReached g)

/-- The fill of a slot ends with its valid groups (R209). -/
def Dev.fillEnds (d : Dev) (slot plate valid : Nat) (failed : Bool) : Dev :=
  let d := (d.setStage slot (if valid = 0 then stageEmpty else stageReady)).setStageInfo slot plate valid
  ((d.setData none).raiseIf failed configBase Reg.PLATE_EVENT.FILL_FAIL)

/-- The class of a port that a fill crosses, and the bundles that carry its row words there: one over the base port, eight over the
lower row port and the lower configuration port (R16, R209). -/
def fillCls : FillPort → Nat
  | .base => viaBase | .row => viaLower | .config => viaCfgLower
def fillBundles : FillPort → List Nat
  | .base => [0] | _ => List.range 8

/-- A transfer of a fill over a port carries its row words (R29, R30). -/
def portCarries (p : FillPort) (f : PortFound) : Bool :=
  decide (f.parity < 2) && (fillBundles p).all fun i => errStatus (viaBits f.vias i) != memUncorr

/-- What a fill's transfers met, by column and port (R29, R30); a fenced column's ports carry none. -/
def Dev.fillMeets (d : Dev) (met : List (Fin 256 × FillPort × PortFound)) : Dev :=
  d.each (met.filter fun m => !d.fenced m.1) fun d m =>
    let f := m.2.2
    (if 1 ≤ f.parity then d.parityFail m.1 else d).viaErrors m.1 (fillCls m.2.1) f.vias fun i =>
      decide (f.parity < 2) && (fillBundles m.2.1).contains i && errStatus (viaBits f.vias i) == memCorrected

def opFillDone (met : List (Fin 256 × FillPort × PortFound)) (d : Dev) : Dev :=
  match d.plates.dataCmd with
  | some (.fillLp slot mask base) =>
    let met := met.filter fun m => !d.fenced m.1
    let (d, valid) := (maskGroups mask).foldl (fun (x : Dev × Nat) g =>
      let (d, ok) := x.1.fillGroup slot base g
      let carried := met.all fun m => groupOf m.1 != g || portCarries m.2.1 m.2.2
      (d, if ok && carried then x.2 + 2 ^ g else x.2)) (d.fillMeets met, 0)
    ((d.fillEnds slot (d.stagePlate slot) valid (valid != mask)).raise configBase Reg.PLATE_EVENT.FILL_DONE)
  | _ => d
def execFillDone (met : List (Fin 256 × FillPort × PortFound)) (s : State) : Answer := onDev (opFillDone met) s

/-- What a token adds to a segment (R346), newest word first: none where it breaks a rule of the segment. -/
def tokenWords (acc : List RowWord) : Token → Option (List RowWord)
  | .literal ws => some (ws.reverse ++ acc)
  | .zero n => some (List.replicate n 0 ++ acc)
  | .again n => match acc with | [] => none | w :: _ => some (List.replicate n w ++ acc)
  | .above n =>
    if acc.length < 8 then none else some ((List.range n).foldl (fun a _ => a.getD 7 0 :: a) acc)

/-- The frame words of a segment; none where its tokens do not make exactly one segment. -/
def segmentOf (ts : List Token) : Option (List RowWord) :=
  let r := ts.foldl (fun (a : Option (List RowWord)) t =>
    a.bind fun acc => (tokenWords acc t).bind fun acc => if acc.length ≤ segmentWords then some acc else none) (some [])
  r.bind fun acc => if acc.length = segmentWords then some acc.reverse else none

/-- A row word from eight words of a record. -/
def rowOfWords (ws : List Word) : RowWord := BitVec.ofNat 256 (ws.foldr (fun w n => w.toNat + 2 ^ 32 * n) 0)

/-- Eight words at a time. -/
def rowsOfWords : Nat → List Word → List RowWord
  | 0, _ => []
  | n + 1, ws => rowOfWords (ws.take 8) :: rowsOfWords n (ws.drop 8)

/-- One token of a RUN segment and the words after it. -/
def takeToken : List Word → Option (Token × Nat × List Word)
  | [] => none
  | w :: t =>
    let n := bitsOf w.toNat 0 24 + 1
    match bitsOf w.toNat 30 2 with
    | 0 => if t.length < 8 * n then none else some (.literal (rowsOfWords n t), n, t.drop (8 * n))
    | 1 => some (.zero n, n, t)
    | 2 => some (.again n, n, t)
    | _ => some (.above n, n, t)

/-- The tokens of one RUN segment and the words after it, with a bound on their number. -/
def takeSegment : Nat → Nat → List Word → Option (List Token × List Word)
  | 0, _, _ => none
  | fuel + 1, have_, ws =>
    if have_ = segmentWords then some ([], ws)
    else if segmentWords < have_ then none
    else
      match takeToken ws with
      | none => none
      | some (t, n, rest) =>
        match takeSegment fuel (have_ + n) rest with
        | none => none
        | some (ts, ws) => some (t :: ts, ws)

/-- The segments of a record's frame data; none where they do not end with it. -/
def takeSegments (run : Bool) : Nat → List Word → Option (List (List Token))
  | 0, ws => if ws.isEmpty then some [] else none
  | n + 1, ws =>
    let one : Option (List Token × List Word) :=
      if run then takeSegment (segmentWords + 1) 0 ws
      else if ws.length < 8 * segmentWords then none
      else some ([.literal (rowsOfWords segmentWords ws)], ws.drop (8 * segmentWords))
    match one with
    | none => none
    | some (ts, rest) => (takeSegments run n rest).map (ts :: ·)

/-- The frame words of the groups of a mask, by group, when every segment is whole and every GROUP_CRC matches (R345, R346). -/
def plateData (mask : Nat) (crcs : List Word) (segs : List (List Token)) : Option (List ((Nat × Nat) × List RowWord)) :=
  match segs.mapM segmentOf with
  | none => none
  | some ws =>
    let order := (maskGroups mask).flatMap groupSegments
    let l := order.zip ws
    if order.length = ws.length ∧
        (maskGroups mask).all (fun g =>
          let c := (l.filter fun x => groupOf x.1.1 == g).foldl
            (fun c x => x.2.foldl (fun c w => (frameBytes w).foldl crc32Byte c) c) 0xFFFFFFFF#32
          crcs.getD g 0 == ~~~c)
    then some l
    else none

/-- The segments are stored in a stage slot. -/
def Dev.putPlate (d : Dev) (slot : Nat) (l : List ((Nat × Nat) × List RowWord)) : Dev := d.each l fun d x => d.putSegment slot x.1 x.2

/-- A streamed PLATE_FRAMES record, complete with its header (R340, R345, R348): its plate, its groups and its frames, when it
verifies. -/
def Dev.streamPlate (d : Dev) (ws : List Word) : Option (Nat × Nat × List ((Nat × Nat) × List RowWord)) :=
  let h (i : Nat) := (ws.getD i 0).toNat
  let body := ws.drop 8
  let p0 := (body.headD 0).toNat
  let bytes := (ws.take 7 ++ body).flatMap fun w => bytesOf 4 w.toNat
  let plate := bitsOf p0 0 8
  let mask := bitsOf p0 16 16
  let method := bitsOf p0 12 4
  let headOk := bitsOf (h 0) 0 8 == 0x10 && bitsOf (h 0) 12 4 == 1 && bitOf (h 0) 19 && !bitOf (h 0) 20 &&
    bitsOf (h 0) 24 8 == plate && h 2 == h 3 && decide (68 ≤ h 2) && crc32c bytes == ws.getD 7 0 && decide (method ≤ 1)
  let digestOk := !d.ident.closed || (d.mapReleased plate && (d.plates.driveMaps.at plate {}).digest == bigNum (sha384 (wordBytes body)))
  if headOk && digestOk then
    match takeSegments (method == 1) (32 * (maskGroups mask).length) (body.drop 17) with
    | none => none
    | some segs => (plateData mask ((body.drop 1).take 16) segs).map fun l => (plate, mask, l)
  else none

/-- The words of a streamed record, once its header gives its stored length. -/
def streamLength (ws : List Word) : Option Nat := if ws.length < 8 then none else some (8 + (ws.getD 3 0).toNat / 4)

def Dev.pstreamWrite (d : Dev) (w : Word) : Dev :=
  match d.plates.dataCmd with
  | some (.fillStream slot) =>
    let d := (d.setReg (configBase + Reg.PSTREAM_DATA.off) w).modPlates fun p => { p with stream := p.stream ++ [w] }
    let ws := d.plates.stream
    match streamLength ws with
    | none => d
    | some n =>
      if ws.length < n then d
      else
        let d := d.modPlates fun p => { p with stream := [] }
        match (if d.stageRowsBad slot then none else d.streamPlate ws) with
        | some (plate, mask, l) =>
          let valid := ((maskGroups mask).filter d.groupReached).foldl (fun m g => m + 2 ^ g) 0
          ((d.putPlate slot l).fillEnds slot plate valid (valid != mask)).raise configBase Reg.PLATE_EVENT.FILL_DONE
        | none => d.fillEnds slot (d.stagePlate slot) 0 true
  | _ => d.raise configBase Reg.PLATE_EVENT.STREAM_ERR

def opPstreamDataWrite (path : Fin 8) (value : Word) (d : Dev) : Dev :=
  d.viaWord path (configBase + Reg.PSTREAM_DATA.off) value fun d => d.pstreamWrite value
def execPstreamDataWrite (path : Fin 8) (value : Word) (s : State) : Answer := onDev (opPstreamDataWrite path value) s

/-! ## Staging and reloads (R212, R213, R227) -/

/-! ### Frame words as they arrive (R29, R30, R203, R212, R225) -/

/-- The vias of a configuration port whose bit arrived wrong in a frame row. -/
def seenVias (seen : PlateSeen) (die row : Nat) : List (Nat × Nat) :=
  (seen.vias.filter fun v => bit01 v.1 == die && v.2.1.val == row).map fun v => (v.2.2.1.val, v.2.2.2.val)

/-- A frame row whose transfer failed parity twice does not arrive. -/
def rowLost (seen : PlateSeen) (die row : Nat) : Bool :=
  decide (2 ≤ (seen.parity.filter fun p => bit01 p.1 == die && p.2.val == row).length)

/-- Upsets strike words of a store of frame words. -/
def wearErr (m : SMap (BitVec 266)) (place : Nat → Nat) (upsets : List (Nat × Nat)) : SMap (BitVec 266) :=
  (upsets.filter fun u => decide (u.1 < 41472 ∧ u.2 < 266)).foldl (fun m u =>
    m.set (place u.1) 0 (m.at (place u.1) 0 ^^^ BitVec.ofNat 266 (2 ^ u.2))) m

/-- The words of a slot of a column that arrive with an error, each with the bits that differ. -/
def arrivals (m : SMap (BitVec 266)) (wordOf : Nat → Option Nat) (place : Nat → Nat) (seen : PlateSeen) : List (Nat × BitVec 266) :=
  let hit := seen.vias.map fun v => bit01 v.1 * 20736 + v.2.1.val * 8 + v.2.2.1.val
  ((m.keys.filterMap wordOf ++ hit).eraseDups.filter fun w => !rowLost seen (w / 20736) (w / 8 % 2592)).map fun w =>
    (w, m.at (place w) 0 ^^^ viaBits (seenVias seen (w / 20736) (w / 8 % 2592)) (w % 8))

/-- Parity failures of a column's configuration ports, and the vias whose bit SEC-DED corrected, each on its port (R29, R30). -/
def Dev.cfgNotes (d : Dev) (c : Nat) (seen : PlateSeen) (errs : List (Nat × BitVec 266)) : Dev :=
  let d := if seen.parity = [] then d else d.parityFail c
  let good := seen.vias.filter fun v => errs.any fun e =>
    e.1 == bit01 v.1 * 20736 + v.2.1.val * 8 + v.2.2.1.val && errStatus e.2 == memCorrected
  d.each good fun d v => d.viaErrors c (if v.1 then viaCfgUpper else viaCfgLower) [(v.2.2.1.val, v.2.2.2.val)] fun _ => true

/-- Corrected frame words are counted (R212, R225). -/
def Dev.secFound (d : Dev) (errs : List (Nat × BitVec 266)) : Dev :=
  let n := (errs.filter fun e => errStatus e.2 == memCorrected).length
  (d.countBy configBase Reg.SEC_COUNT.COUNT n).raiseIf (n != 0) configBase Reg.PLATE_EVENT.SEC

/-- The frame rows that hold uncorrectable words, once for each. -/
def uncorrRows (errs : List (Nat × BitVec 266)) : List (Nat × Nat) :=
  (errs.filter fun e => errStatus e.2 == memUncorr).map fun e => (e.1 / 20736, e.1 / 8 % 2592)

/-- The frame rows of a column move from a stage slot into a plate slot, in both dies, corrected and with fresh check bits. Words that
do not correct arrive as they are. -/
def Dev.copyColumn (d : Dev) (c sslot pslot : Nat) (seen : PlateSeen) (errs : List (Nat × BitVec 266)) : Dev :=
  d.modPlates fun p =>
    let other (k : Nat) : Bool := !(plateKeyColumn k == c && plateKeySlot k == pslot)
    let moved := p.stageFrames.items.filter fun e =>
      stageKeyColumn e.1 == c && stageKeySlot e.1 == sslot && !rowLost seen (e.1 / 20736 % 2) (e.1 / 8 % 2592)
    let frames := moved.foldl (fun m e => m.put (platePlace c pslot (e.1 % 41472)) e.2) (p.plateFrames.keep other)
    let bad := errs.filter fun e => errStatus e.2 == memUncorr
    { p with plateFrames := bad.foldl (fun m e =>
               m.set (platePlace c pslot e.1) 0 (m.at (platePlace c pslot e.1) 0 ^^^ e.2.truncate 256)) frames
             plateErr := p.plateErr.keep other
             ownUpset := p.ownUpset.keep fun k => k / 1024 != c * 4 + pslot }

/-- The shafts of a slot whose ownership differs from that of the plate in DRIVE_MAP, lowest first (R191). -/
def Dev.ownersDiffer (d : Dev) (c slot plate : Nat) : List Nat :=
  let own := (d.plates.driveMaps.at plate {}).owners.at c []
  d.ownersBy c slot fun s o => o != own.getD s 0

/-- A load of a column from a stage slot (R212, R213): whether it is good; a difference of ownership is logged with source staging
check. The configuration ports of a fenced column carry nothing (R34): its part is passed over where the fence stands until the next
reset, and fails otherwise (DESIGN CHOICE, log entry 115). -/
def Dev.loadColumn (d : Dev) (c sslot pslot plate : Nat) (seen : PlateSeen) : Dev × Bool :=
  if d.fenced c then (d, d.stack.fence.num c != 1)
  else
    let d := d.modPlates fun p => { p with stageErr := wearErr p.stageErr (stagePlace c sslot) seen.upsets }
    let errs := arrivals d.plates.stageErr (stageWordOf c sslot) (stagePlace c sslot) seen
    let d := ((d.copyColumn c sslot pslot seen errs).cfgNotes c seen errs).secFound errs
    let d := d.each (uncorrRows errs) fun d r => d.stageDed c sslot r.2
    let d := d.strikeOwners c pslot (seen.struck.map fun s => (s.1.val, s.2.val))
    let differ := d.ownersDiffer c pslot plate
    let d := match differ with
      | s :: _ => (d.driveLog c s pslot srcStaging).modPlates fun p => { p with conflict := p.conflict.put (c * 4 + pslot) 1 }
      | [] => d
    (d, (uncorrRows errs).isEmpty && !(seen.parity.any fun p => rowLost seen (bit01 p.1) p.2) && differ.isEmpty &&
      !d.usesDead c pslot && !d.plateRowsBad (groupOf c) pslot)

/-- A group's part of a staging: its columns are loaded. -/
def Dev.loadGroup (d : Dev) (g sslot pslot plate : Nat) (seen : List (Nat × PlateSeen)) : Dev × Bool :=
  (groupColumns g).foldl (fun (x : Dev × Bool) c =>
    let (d, ok) := x.1.loadColumn c sslot pslot plate ((seen.lookup c).getD {})
    (d, x.2 && ok)) (d.conflictEnds g pslot, true)

/-- Every column of the mask holds its token for the staging; the tokens fall free when it ends. -/
def Dev.stagingGranted (d : Dev) (cols : List Nat) : Bool := cols.all fun c => d.holdsToken c .staging

/-- `seen` gives, by column, what the copy found. -/
def opStageDone (seen : List (Nat × PlateSeen)) (d : Dev) : Dev :=
  match d.plates.dataCmd with
  | some (.stage sslot pslot mask) =>
    let cols := (maskGroups mask).flatMap groupColumns
    if d.stagingGranted cols then
      let plate := d.stagePlate sslot
      let (d, failed) := (maskGroups mask).foldl (fun (x : Dev × Bool) g =>
        if x.1.pslot g pslot = slotLoading then
          let (d, ok) := x.1.loadGroup g sslot pslot plate seen
          if ok then (d.slotGood g pslot, x.2) else (d.faultSlot g pslot, true)
        else (x.1, true)) (d, false)
      let d := (d.each cols Dev.freeToken).setData none
      (d.raiseIf failed configBase Reg.PLATE_EVENT.STAGE_FAIL).raise configBase Reg.PLATE_EVENT.STAGE_DONE
    else d
  | _ => d
def execStageDone (seen : List (Nat × PlateSeen)) (s : State) : Answer := onDev (opStageDone seen) s

/-- The first reload that waits begins, when no data command runs (R227): one that waits is carried out although AUTO_RECOVER has been
cleared since (DESIGN CHOICE, log entry 120). -/
def opPlateReload (d : Dev) : Dev :=
  match d.plates.reloads with
  | [] => d
  | r :: t =>
    if d.dataBusy || !(d.runs configBase || decide (d.ust configBase = .draining)) then d
    else
      let g := groupOf r.column
      let d := d.modPlates fun p => { p with reloads := t }
      if d.pslot g r.slot ≠ slotFaulted ∨ d.conflictStands g r.slot = true then d
      else
        match d.reloadSource g r.slot with
        | some s => d.setData (some (.reload r.column r.slot s r.galleys))
        | none => d.reloadFails g r.slot
def execPlateReload (s : State) : Answer := onDev opPlateReload s

/-- The galleys of a reload are reset and enabled again (R227). -/
def Dev.reenable (d : Dev) (b : Nat) : Dev :=
  d.ctrlWrite b (fset (fset (fset (d.reg (b + Reg.CTRL.ENABLE.off)) Reg.CTRL.RESET 1) Reg.CTRL.DRAIN_REQ 0) Reg.CTRL.ENABLE 1)

def opReloadDone (seen : PlateSeen) (d : Dev) : Dev :=
  match d.plates.dataCmd with
  | some (.reload c slot sslot galleys) =>
    if d.stagingGranted [c] then
      let g := groupOf c
      let (d, ok) := d.loadColumn c sslot slot (d.stagePlate sslot) seen
      let d := (d.freeToken c).setData none
      let d := if ok then d.modPlates fun p => { p with uncorr := p.uncorr.del (c * 4 + slot) } else d
      if ok && d.pslot g slot == slotFaulted && !d.conflictStands g slot then
        match d.plates.reloads.find? fun r => groupOf r.column == g && r.slot == slot with
        | some r =>
          -- Another column of the slot still waits for its reload: the galleys return to service with the slot.
          (d.modPlates fun p =>
            { p with reloads := p.reloads.map fun x => if x = r then { x with galleys := x.galleys ++ galleys } else x }).raise
            configBase Reg.PLATE_EVENT.RELOAD_DONE
        | none => ((d.slotGood g slot).raise configBase Reg.PLATE_EVENT.RELOAD_DONE).each galleys Dev.reenable
      else d.reloadFails g slot
    else d
  | _ => d
def execReloadDone (seen : PlateSeen) (s : State) : Answer := onDev (opReloadDone seen) s

/-! ## Switching at a crossing (R218 to R223) -/

/-- A pending switch or cycle start is not performed (R220). -/
def Dev.switchBarred (d : Dev) (g : Nat) (p : PendSwitch) : Bool :=
  (p.list.any fun s => !d.slotUsable g s) || d.groupFaulted g || (p.cycle && d.fastFabric)

/-- A group waits for admission of its clocks (R436). -/
def Dev.awaitAdmission (d : Dev) (g : Nat) : Dev :=
  d.modPower fun p => { p with admission := if p.admission.contains g then p.admission else p.admission ++ [g] }

/-- Slots take effect in a group at fabric cycle 0 (R218, R219, R221, R223). -/
def Dev.switchTo (d : Dev) (g : Nat) (p : PendSwitch) : Dev :=
  let before := d
  let old := d.forceList g
  let first := p.list.headD 0
  let d := d.each old fun d s => if d.pslot g s = slotActive then d.setPslot g s slotValid else d
  let d := d.each p.list fun d s => d.setPslot g s slotActive
  let d := (d.setFld configBase (Reg.PSLOT_G.IN_FORCE.elem g) first).setFld configBase (Reg.PSLOT_G.CYCLING.elem g) (bit01 p.cycle)
  let d := d.modPlates fun x =>
    { x with logic := x.logic.put g 1, cycling := if p.cycle then x.cycling.put g p else x.cycling.del g }
  let d := d.fenceUpdate before g
  let d := if d.fastFabric then (d.modKeeper fun k => { k with holds := k.holds.bump g }).checkBudget g else d
  if old.isEmpty && d.runMode then d.awaitAdmission g else d

/-- A SWITCH to the slot already in force performs nothing (R217). -/
def Dev.switchIdle (d : Dev) (g : Nat) (p : PendSwitch) : Bool :=
  !p.cycle && !d.plates.cycling.has g && d.forceList g == p.list

/-- The switch or cycle start pending in a group takes effect, where its target is the present crossing and that crossing's fabric cycle 0
has not passed (R216, R218). -/
def Dev.switchDue (d : Dev) (g : Nat) : Dev :=
  match d.plates.pending.look g with
  | none => d
  | some p =>
    if p.target ≠ d.now ∨ d.fabric.cycle.num g ≠ 0 then d
    else
      let d := d.unpend g
      if d.switchBarred g p then d.raise configBase Reg.PLATE_EVENT.SWITCH_FAIL
      else if d.switchIdle g p then d
      else (d.switchTo g p).raise configBase Reg.PLATE_EVENT.SWITCHED

/-- Every switch that is due takes effect before its crossing's fabric cycle 0 ends, and before the crossing does (log entry 121). -/
def Dev.switchesDue (d : Dev) : Dev := d.each d.plates.pending.keys Dev.switchDue

def opPlateSwitchAtT (g : Fin 16) (d : Dev) : Dev := d.switchDue g
def execPlateSwitchAtT (g : Fin 16) (s : State) : Answer := onDev (opPlateSwitchAtT g) s

/-! ## Scrub (R211, R224 to R226) -/

/-- The modes in which plates are scrubbed. -/
def Dev.plateScrubOn (d : Dev) : Bool :=
  d.flag configBase Reg.PLATE_CTRL.SCRUB_EN && d.runs configBase && decide (2 ≤ d.mode ∧ d.mode ≤ 6)

/-- A staging or reload of the column runs, for which the scrub waits (R214). -/
def Dev.columnStaging (d : Dev) (c : Nat) : Bool :=
  match d.plates.dataCmd with
  | some (.stage _ _ m) => bitOf m (groupOf c)
  | some (.reload x _ _ _) => x == c
  | _ => false

/-- A frame row lies in the scrub slot that begins with a row: up to 64 rows. -/
def inSlot (first row : Nat) : Bool := decide (first ≤ row ∧ row < first + 64)

/-- Readback of frame rows of a stage slot, in C3 (R211, R224, R225). -/
def Dev.scrubStage (d : Dev) (c die slot first : Nat) (seen : PlateSeen) : Dev :=
  let d := d.modPlates fun p => { p with stageErr := wearErr p.stageErr (stagePlace c slot) seen.upsets }
  let errs := (arrivals d.plates.stageErr (stageWordOf c slot) (stagePlace c slot) {}).filter fun e =>
    e.1 / 20736 == die && inSlot first (e.1 / 8 % 2592)
  let fixed := (errs.filter fun e => errStatus e.2 == memCorrected).map fun e => stagePlace c slot e.1
  let d := (d.modPlates fun p => { p with stageErr := p.stageErr.keep fun k => !fixed.contains k }).secFound errs
  d.each (uncorrRows errs) fun d r => d.stageDed c slot r.2

/-- Readback of frame rows of a plate slot through a configuration port (R224 to R226, R191). -/
def Dev.scrubPlate (d : Dev) (c die slot first : Nat) (seen : PlateSeen) : Dev :=
  let d := d.modPlates fun p => { p with plateErr := wearErr p.plateErr (platePlace c slot) seen.upsets }
  let d := d.strikeOwners c slot (seen.struck.map fun s => (s.1.val, s.2.val))
  let seen : PlateSeen :=
    { seen with vias := seen.vias.filter fun v => bit01 v.1 == die && inSlot first v.2.1
                parity := seen.parity.filter fun p => bit01 p.1 == die && inSlot first p.2 }
  let errs := (arrivals d.plates.plateErr (plateWordOf c slot) (platePlace c slot) seen).filter fun e =>
    e.1 / 20736 == die && inSlot first (e.1 / 8 % 2592)
  let fixed := (errs.filter fun e => errStatus e.2 == memCorrected).map fun e => platePlace c slot e.1
  let d := ((d.modPlates fun p => { p with plateErr := p.plateErr.keep fun k => !fixed.contains k }).cfgNotes c seen errs).secFound errs
  let struck := (d.ownersBy c slot fun _ o => o == 3).filter fun s =>
    inSlot first (Config.ownPlace s / 2048) && !rowLost seen die (Config.ownPlace s / 2048)
  let d := d.each (uncorrRows errs) fun d r => d.plateDed c slot die r.2
  d.each struck fun d s => d.driveConflict c s slot srcPlateScrub

/-- One scrub slot of a column: up to 64 frame rows, from `first`, of a plate slot or a stage slot in one die. -/
def opPlateScrubSlot (c : Fin 256) (upper stage : Bool) (slot : Fin 4) (first : Fin 2592) (seen : PlateSeen) (d : Dev) : Dev :=
  let a := if stage then Activity.stageScrub else Activity.plateScrub
  if d.plateScrubOn && d.holdsToken c a && !d.columnStaging c && !d.fenced c then
    let d := d.freeToken c
    if stage then d.scrubStage c (bit01 upper) slot first seen else d.scrubPlate c (bit01 upper) slot first seen
  else d
def execPlateScrubSlot (c : Fin 256) (upper stage : Bool) (slot : Fin 4) (first : Fin 2592) (seen : PlateSeen) (s : State) : Answer :=
  onDev (opPlateScrubSlot c upper stage slot first seen) s

end Sys2Proof.Machine
end

