-- ==== Sys2Proof/Machine/Lanes.lean ====
section
/-!
DEFINITION. The electrical layer of the lanes and the lane group PLLs ("Lanes: Electrical Layer and Equalisation").
-/
namespace Sys2Proof.Machine

/-! ## Lane groups (R103 to R105) -/

/-- A unit in STOPPED or OFF, by its own sequencer. -/
def Dev.groupIdle (d : Dev) (g : Nat) : Bool :=
  d.atRest (laneGroupBase g) && (List.range 8).all fun i => d.atRest (laneBase (8 * g + i))

/-- A write of LG_PLL_CFG takes effect only while the group and its lanes rest (R103). -/
def Dev.pllCfgWrite (d : Dev) (g : Nat) (w : Word) : Dev :=
  let b := laneGroupBase g
  if d.groupIdle g then d.storeRw (b + Reg.LG_PLL_CFG.off) w else d.raise b Reg.LG_EVENT.PLL_REJECT

def opLgPllCfgWrite (path : Fin 8) (g : Fin 18) (value : Word) (d : Dev) : Dev :=
  d.viaWord path (laneGroupBase g + Reg.LG_PLL_CFG.off) value fun d => d.pllCfgWrite g value
def execLgPllCfgWrite (path : Fin 8) (g : Fin 18) (value : Word) (s : State) : Answer := onDev (opLgPllCfgWrite path g value) s

/-- The band chosen by calibration is the hardware's own. When LG16 starts for the boot lanes, those two start and the galley waits
for nothing else. -/
def opLgPllLock (g : Fin 18) (band : Fin 16) (d : Dev) : Dev :=
  let b := laneGroupBase g
  if d.ust b = .starting ∧ !(d.units.seq.has b) then
    let d := ((d.setFld b Reg.LG_STATUS.CAL_DONE 1).setFld b Reg.LG_STATUS.PLL_LOCK 1).setFld b Reg.LG_STATUS.VCO_BAND band
    let d := (d.setFld b Reg.LG_VCO_MHZ.MHZ (d.vcoMHz g)).each (List.range 8) fun d i => d.showRate (8 * g + i)
    if (d.group g).boot then
      let d := d.modLoad fun l => { l with lanesTick := some d.tick }
      (d.modGroup g fun r => { r with boot := false }).each [8 * g.val, 8 * g.val + 1] (fun d n => d.enable d.depth (laneBase n)) |>.ready b
    else d.beginSeq b
  else d
def execLgPllLock (g : Fin 18) (band : Fin 16) (s : State) : Answer := onDev (opLgPllLock g band) s

def opLgLockTimeout (g : Fin 18) (d : Dev) : Dev :=
  let b := laneGroupBase g
  let since := max (d.group g).pgTick (d.units.startTick.num b)
  if d.ust b = .starting ∧ !d.flag b Reg.LG_STATUS.PLL_LOCK ∧ since + d.fld b Reg.LG_LOCK_LIMIT.LIMIT ≤ d.tick then
    d.startFail b (2 ^ 9)
  else d
def execLgLockTimeout (g : Fin 18) (s : State) : Answer := onDev (opLgLockTimeout g) s

/-- The reference stops, or, with `pll`, the group PLL loses lock (R105). -/
def opRefLost (g : Fin 18) (pll : Bool) (d : Dev) : Dev :=
  let b := laneGroupBase g
  if d.ust b = .off then (if pll then d else d.modGroup g fun r => { r with lrefKHz := 0 })
  else
    let d := if pll then d.raise b Reg.LG_EVENT.PLL_UNLOCK
      else ((d.modGroup g fun r => { r with lrefKHz := 0 }).setFld b Reg.LG_STATUS.REF_PRESENT 0).raise b Reg.LG_EVENT.REF_LOST
    let d := (d.setFld b Reg.LG_STATUS.PLL_LOCK 0).setFld b Reg.LG_VCO_MHZ.MHZ 0
    let d := d.each (List.range 8) fun d i => d.showRate (8 * g + i)
    match d.ust b with
    | .starting | .running | .degraded =>
      let d := d.each (List.range 8) fun d i => d.fatal (laneBase (8 * g + i)) (2 ^ 8)
      d.fatal b (if pll then 2 ^ 9 else 2 ^ 8)
    | _ => d
def execRefLost (g : Fin 18) (pll : Bool) (s : State) : Answer := onDev (opRefLost g pll) s

/-- Edges return on LREF at a frequency in kHz. -/
def opRefBack (g : Fin 18) (kHz : Nat) (d : Dev) : Dev :=
  let b := laneGroupBase g
  if (d.group g).lrefKHz = 0 then
    let d := d.modGroup g fun r => { r with lrefKHz := kHz }
    if d.ust b = .off then d else (d.setFld b Reg.LG_STATUS.REF_PRESENT 1).raise b Reg.LG_EVENT.REF_BACK
  else d
def execRefBack (g : Fin 18) (kHz : Nat) (s : State) : Answer := onDev (opRefBack g kHz) s

/-! ## The receiver's signal (R109 to R114, R131) -/

/-- The receiver's front has a signal to adapt to: the CDR is locked and LOS is clear (R112, R116); at proof depth 2 the CTLE and
the DFE hold their values (R495). -/
def Dev.signalGood (d : Dev) (n : Nat) : Bool :=
  let b := laneBase n
  d.flag b Reg.LANE_STATUS.CDR_LOCK && !d.flag b Reg.LANE_STATUS.LOS && d.proofDepth b != some 2

/-- DFE adaptation is active under R116. -/
def Dev.adapting (d : Dev) (n : Nat) : Bool :=
  let b := laneBase n
  !isTrunk n && d.flag b Reg.DFE_CTRL.ADAPT_EN && d.signalGood n && d.blkState n == blkLocked && (d.ust b).active

/-- Block alignment waits for its signal, as BLK_STATE.WAITING shows (R131). -/
def Dev.waiting (d : Dev) (n : Nat) : Bool := !d.signalReady n && d.blkState n != blkIdle

/-- An eye measurement ends at once when the CDR unlocks or LOS asserts; a software START held behind a Peal measurement
then begins, and ends at once too with DONE and INVALID (R121, R122). That it ends so, and that EYE_DONE stays as it is, are the
model's choice (DESIGN CHOICE, log entry 111). -/
def Dev.eyeAbort (d : Dev) (n : Nat) : Dev :=
  let b := laneBase n
  let invalid (d : Dev) : Dev :=
    ((d.setFld b Reg.EYE_RESULT.DONE 1).setFld b Reg.EYE_RESULT.INVALID 1).modLane n fun r => { r with eye := .idle }
  match (d.lane n).eye with
  | .idle => d
  | .software => invalid d
  | .peal => d.modLane n fun r => { r with eye := .idle }
  | .pealHeld => invalid (d.setFld b Reg.EYE_RESULT.ERRORS 0)

/-- The CDR has unlocked or LOS has asserted: a measurement of the eye ends (R121), and block lock is lost where the signal has
ceased to be ready (R131). -/
def Dev.signalDrops (d : Dev) (n : Nat) : Dev :=
  let d := d.eyeAbort n
  if d.signalReady n then d else d.lockLost n

/-- The lane's circuits are powered. -/
def Dev.laneOn (d : Dev) (n : Nat) : Bool := !decide (d.ust (laneBase n) = .off)

def opLosSet (n : Fin 144) (d : Dev) : Dev :=
  let b := laneBase n
  if d.laneOn n && !d.flag b Reg.LANE_STATUS.LOS then
    ((d.setFld b Reg.LANE_STATUS.LOS 1).raise b Reg.LANE_EVENT.LOS_SET).signalDrops n
  else d
def execLosSet (n : Fin 144) (s : State) : Answer := onDev (opLosSet n) s

def opLosClear (n : Fin 144) (d : Dev) : Dev :=
  let b := laneBase n
  if d.laneOn n && d.flag b Reg.LANE_STATUS.LOS then
    ((d.setFld b Reg.LANE_STATUS.LOS 0).raise b Reg.LANE_EVENT.LOS_CLEAR).modLane n fun r => { r with losWhole := false }
  else d
def execLosClear (n : Fin 144) (s : State) : Answer := onDev (opLosClear n) s

/-- The CDR locks, on a clock of the group's PLL (R104, R108); `peak` is the CTLE setting that adaptation at the start has found, which CTLE_CTRL.MODE 0 ignores. -/
def opCdrLock (n : Fin 144) (peak : Fin 32) (d : Dev) : Dev :=
  let b := laneBase n
  if d.laneOn n && d.groupLocked n && !d.flag b Reg.LANE_STATUS.CDR_LOCK then
    let d := d.setFld b Reg.LANE_STATUS.CDR_LOCK 1
    if d.ust b = .starting ∧ (d.fld b Reg.CTLE_CTRL.MODE = 1 ∨ d.fld b Reg.CTLE_CTRL.MODE = 2) then
      d.setFld b Reg.CTLE_STATUS.PEAK peak
    else d
  else d
def execCdrLock (n : Fin 144) (peak : Fin 32) (s : State) : Answer := onDev (opCdrLock n peak) s

def opCdrUnlock (n : Fin 144) (d : Dev) : Dev :=
  let b := laneBase n
  if d.laneOn n && d.flag b Reg.LANE_STATUS.CDR_LOCK then
    ((d.setFld b Reg.LANE_STATUS.CDR_LOCK 0).raise b Reg.LANE_EVENT.CDR_UNLOCK).signalDrops n
  else d
def execCdrUnlock (n : Fin 144) (s : State) : Answer := onDev (opCdrUnlock n) s

/-- LIMIT whole Ticks of a start, not counting those spent in SLIP (R110). -/
def opLaneStartTimeout (n : Fin 144) (d : Dev) : Dev :=
  let b := laneBase n
  let limit := d.fld b Reg.LANE_START.LIMIT
  let r := d.lane n
  if d.ust b = .starting ∧ limit ≠ 0 ∧ d.blkState n ≠ blkSlip ∧ d.units.startTick.num b + r.slipTicks + limit ≤ d.tick then
    d.startFail b (if r.losWhole then 2 ^ 9 else if !d.flag b Reg.LANE_STATUS.CDR_LOCK then 2 ^ 10 else 2 ^ 11)
  else d
def execLaneStartTimeout (n : Fin 144) (s : State) : Answer := onDev (opLaneStartTimeout n) s

/-! ## Equalisation (R114 to R117) -/

/-- The range of tap `k` (R115). -/
def tapLimit (k : Nat) : Int := if k = 1 then 63 else if k ≤ 4 then 31 else 15

/-- FREEZE of tap `k`; interface 2 has one bit for all taps (R124). -/
def Dev.frozen (d : Dev) (n k : Nat) : Bool :=
  let b := laneBase n
  let f := d.fld b Reg.DFE_CTRL.FREEZE
  if d.fld b Reg.UNIT_VER.MAJOR = 2 then bitOf f 0 else bitOf f (k - 1)

/-- The DFE may move: adaptation is active, or converges during a start (R109, R116). That no tap moves in a start with ADAPT_EN at
0 is the model's choice (DESIGN CHOICE, log entry 109). -/
def Dev.dfeMoves (d : Dev) (n : Nat) : Bool :=
  d.adapting n ||
    (!isTrunk n && decide (d.ust (laneBase n) = .starting) && d.flag (laneBase n) Reg.DFE_CTRL.ADAPT_EN && d.signalGood n)

/-- The level at which an integrator moves its tap (R116). -/
def Dev.integLimit (d : Dev) (n : Nat) : Int := 2 ^ (8 + d.fld (laneBase n) Reg.DFE_CTRL.MU)

/-- Tap `k`, or DLEV for 0, moves one LSB; a tap at its limit stays there, which is when the model sets AT_LIMIT and TAP_RAIL
(R116; DESIGN CHOICE, log entry 110). -/
def Dev.tapMoves (d : Dev) (n k : Nat) (up : Bool) : Dev :=
  let b := laneBase n
  if k = 0 then d.modLane n fun r => { r with dlev := if up then min 127 (r.dlev + 1) else r.dlev - 1 }
  else
    let v := (d.lane n).taps.getD (k - 1) 0 + if up then 1 else -1
    if -tapLimit k ≤ v ∧ v ≤ tapLimit k then d.modLane n fun r => { r with taps := r.taps.set (k - 1) v }
    else (d.setFld b (Reg.DFE_TAP.AT_LIMIT.elem (k - 1)) 1).raise b Reg.LANE_EVENT.TAP_RAIL

/-- The integrator of tap `k`, or of DLEV for 0, gains the sum of the signs that bits received have given it, and at its limit
moves the tap and returns to 0. That a positive sum raises the tap is how the model reads "the direction that reduces the error"
(DEDUCED, log entry 110). -/
def opDfeTapStep (n : Fin 128) (k : Fin 13) (gain : Int) (d : Dev) : Dev :=
  if !d.dfeMoves n || (k.val != 0 && d.frozen n k) then d
  else
    let v := (d.lane n).integ.getD k 0 + gain
    let limit := d.integLimit n
    let set (x : Int) (d : Dev) : Dev := d.modLane n fun r => { r with integ := r.integ.set k x }
    if limit ≤ v then (set 0 d).tapMoves n k true
    else if v ≤ -limit then (set 0 d).tapMoves n k false
    else set v d
def execDfeTapStep (n : Fin 128) (k : Fin 13) (gain : Int) (s : State) : Answer := onDev (opDfeTapStep n k gain) s

/-- The most bits that a lane can have received since a Tick count, at the rate of its receiver, in units of 10 Mb/s: the Ticks are whole,
of 23.5 µs at the most (R5). -/
def Dev.bitsSince (d : Dev) (n since : Nat) : Nat :=
  (d.tick + 1 - since) * (d.fld (laneBase n) Reg.LANE_RATE.RX_RATE * 235)

/-- At least 2^24 bits have been received since the last CTLE step in service (R114). -/
def Dev.ctleDue (d : Dev) (n : Nat) : Bool :=
  match (d.lane n).ctleTick with
  | none => true
  | some t => decide (2 ^ 24 ≤ d.bitsSince n t)

/-- One CTLE step: in service on a hit lane in continuous mode, or during an adapted start (R114). -/
def opCtleAdaptStep (n : Fin 144) (up : Bool) (d : Dev) : Dev :=
  let b := laneBase n
  let mode := d.fld b Reg.CTLE_CTRL.MODE
  let p := d.fld b Reg.CTLE_STATUS.PEAK
  let step (d : Dev) : Dev := d.setFld b Reg.CTLE_STATUS.PEAK (if up then min 31 (p + 1) else p - 1)
  if !d.signalGood n then d
  else if d.ust b = .starting then (if mode = 1 ∨ mode = 2 then step d else d)
  else if !isTrunk n && mode == 2 && d.runs b && d.ctleDue n then (step d).modLane n fun r => { r with ctleTick := some d.tick }
  else d
def execCtleAdaptStep (n : Fin 144) (up : Bool) (s : State) : Answer := onDev (opCtleAdaptStep n up) s

/-- The capture of h1 to h12 and DLEV (R117). -/
def Dev.snapTaps (d : Dev) (n : Nat) : Dev :=
  let b := laneBase n
  let r := d.lane n
  let d := d.each (List.range 12) fun d i =>
    let v := r.taps.getD i 0
    (d.setFld b (Reg.DFE_TAP.VALUE.elem i) (encodeSigned v 8)).setFld b (Reg.DFE_TAP.AT_LIMIT.elem i)
      (bit01 (decide (v = tapLimit (i + 1) ∨ v = -tapLimit (i + 1))))
  d.setFld b Reg.DFE_DLEV.DLEV r.dlev

/-- A write of DFE_CTRL: a tap whose FREEZE bit clears goes on from its value with its integrator at 0 (R117). -/
def Dev.dfeCtrlWrite (d : Dev) (n : Nat) (write : Dev → Dev) : Dev :=
  let was := (List.range 13).filter fun k => k != 0 && d.frozen n k
  let d := write d
  d.each was fun d k => if d.frozen n k then d else d.modLane n fun r => { r with integ := r.integ.set k 0 }

/-- A write of DFE_CTRL with SNAP at 1. -/
def opSnap (path : Fin 8) (n : Fin 144) (d : Dev) : Dev :=
  d.viaCtl path (laneBase n + Reg.DFE_CTRL.off) [(Reg.DFE_CTRL.SNAP, 1)] fun d => d.snapTaps n
def execSnap (path : Fin 8) (n : Fin 144) (s : State) : Answer := onDev (opSnap path n) s

/-- A write of DFE_LOAD with LOAD at 1 (R117, R124). -/
def Dev.dfeLoad (d : Dev) (n tap : Nat) (value : BitVec 8) : Dev :=
  let b := laneBase n
  let d := (d.setFld b Reg.DFE_LOAD.TAP tap).setFld b Reg.DFE_LOAD.VALUE value.toNat
  let v := value.toInt
  if 1 ≤ tap ∧ tap ≤ 12 ∧ d.frozen n tap ∧ -tapLimit tap ≤ v ∧ v ≤ tapLimit tap then
    d.modLane n fun r => { r with taps := r.taps.set (tap - 1) v }
  else d.raise b Reg.LANE_EVENT.TAP_REJECT

def opDfeLoad (path : Fin 8) (n : Fin 144) (tap : Fin 16) (value : BitVec 8) (d : Dev) : Dev :=
  d.viaCtl path (laneBase n + Reg.DFE_LOAD.off) [(Reg.DFE_LOAD.TAP, tap), (Reg.DFE_LOAD.VALUE, value.toNat), (Reg.DFE_LOAD.LOAD, 1)]
    fun d => d.dfeLoad n tap value
def execDfeLoad (path : Fin 8) (n : Fin 144) (tap : Fin 16) (value : BitVec 8) (s : State) : Answer :=
  onDev (opDfeLoad path n tap value) s

/-! ## The transmitter (R118 to R120) -/

/-- A FIR setting stored in a lane: applied at the next block boundary where the transmitter runs and it is valid. -/
def Dev.firWrite (d : Dev) (n pre post : Nat) : Dev :=
  let b := laneBase n
  let d := (d.setFld b Reg.TX_FIR.PRE pre).setFld b Reg.TX_FIR.POST post
  if !firOk pre post then d.raise b Reg.LANE_EVENT.FIR_REJECT
  else if (d.ust b).active then
    (d.modLane n fun r => { r with firPre := pre, firPost := post }).setFld b Reg.TX_FIR.MAIN (63 - pre - post)
  else d

/-- TX_CTRL as stored: its swing takes effect at the next block boundary in service (R118). -/
def Dev.ampWrite (d : Dev) (n : Nat) : Dev :=
  let b := laneBase n
  if (d.ust b).active then d.modLane n fun r => { r with amp := d.fld b Reg.TX_CTRL.AMP } else d

def opTxFirWrite (path : Fin 8) (n : Fin 144) (pre : Fin 16) (post : Fin 32) (d : Dev) : Dev :=
  d.viaCtl path (laneBase n + Reg.TX_FIR.off) [(Reg.TX_FIR.PRE, pre), (Reg.TX_FIR.POST, post)] fun d => d.firWrite n pre post
def execTxFirWrite (path : Fin 8) (n : Fin 144) (pre : Fin 16) (post : Fin 32) (s : State) : Answer :=
  onDev (opTxFirWrite path n pre post) s

/-! ## The eye monitor (R121, R122) -/

/-- A software measurement begins: DONE, INVALID and ERRORS are cleared. -/
def Dev.eyeBegin (d : Dev) (n : Nat) : Dev :=
  (d.setReg (laneBase n + Reg.EYE_RESULT.off) 0).modLane n fun r => { r with eye := .software, eyeTick := d.tick }

/-- EYE_CTRL.START: the measurement's length is the one written with it. That a measurement begins although the CDR is unlocked or LOS asserted already, and then ends as any other, is
the model's choice (DESIGN CHOICE, log entry 111). -/
def Dev.eyeStart (d : Dev) (n : Nat) : Dev :=
  let dwell := d.fld (laneBase n) Reg.EYE_CTRL.DWELL
  match (d.lane n).eye with
  | .idle => (d.modLane n fun r => { r with eyeDwell := dwell }).eyeBegin n
  | .peal => d.modLane n fun r => { r with eye := .pealHeld, eyeDwell := dwell }
  | .software | .pealHeld => d.raise (laneBase n) Reg.LANE_EVENT.EYE_REJECT

/-- A write of EYE_CTRL with START at 1. -/
def opEyeStart (path : Fin 8) (n : Fin 144) (dwell : Fin 16) (voff : BitVec 8) (phase : BitVec 6) (d : Dev) : Dev :=
  let b := laneBase n
  let l := [(Reg.EYE_CTRL.DWELL, dwell.val), (Reg.EYE_CTRL.VOFF, voff.toNat), (Reg.EYE_CTRL.PHASE, phase.toNat)]
  d.viaCtl path (b + Reg.EYE_CTRL.off) (l ++ [(Reg.EYE_CTRL.START, 1)]) fun d => (d.setReg (b + Reg.EYE_CTRL.off) (d.regWith (b + Reg.EYE_CTRL.off) l)).eyeStart n
def execEyeStart (path : Fin 8) (n : Fin 144) (dwell : Fin 16) (voff : BitVec 8) (phase : BitVec 6) (s : State) : Answer :=
  onDev (opEyeStart path n dwell voff phase) s

/-- A measurement completes with its count of mismatches, once it can have run over its 2^(16 + DWELL) bits. -/
def opEyeDone (n : Fin 144) (errors : Nat) (d : Dev) : Dev :=
  let b := laneBase n
  match (d.lane n).eye with
  | .idle => d
  | .software =>
    let bits := 2 ^ (16 + (d.lane n).eyeDwell)
    if d.bitsSince n (d.lane n).eyeTick < bits then d
    else
      (((d.setFld b Reg.EYE_RESULT.DONE 1).setFld b Reg.EYE_RESULT.ERRORS (min errors (min bits (2 ^ 30 - 1)))).raise b
        Reg.LANE_EVENT.EYE_DONE).modLane n fun r => { r with eye := .idle }
  | .peal => d.modLane n fun r => { r with eye := .idle }
  | .pealHeld => d.eyeBegin n
def execEyeDone (n : Fin 144) (errors : Nat) (s : State) : Answer := onDev (opEyeDone n errors) s

end Sys2Proof.Machine
end

