-- ==== Sys2Proof/Machine/Receive.lean ====
section
/-!
DEFINITION. What a lane does with what it receives: negotiation (R160 to R166), the alignment buffer and evidence (R47,
R139, R140, R152), the message types (R153 to R157), control blocks (R147, R173 to R175) and the assembly of messages (R148
to R152).
-/
namespace Sys2Proof.Machine

/-! ## Negotiation (R160 to R168) -/

/-- PIN as a version: a value that is none is treated as the next lower one (R162). -/
def pinVersion (p : Nat) : Nat := if 0x21 ≤ p then 0x21 else if 0x20 ≤ p then 0x20 else if 0x11 ≤ p then 0x11 else 0x10

/-- The highest version in a range (R162). -/
def bestVersion (lo hi : Nat) : Option Nat := [0x21, 0x20, 0x11, 0x10].find? fun v => decide (lo ≤ v ∧ v ≤ hi)

/-- The features that a version carries (R163). -/
def featMask (v : Nat) : Nat := if 0x21 ≤ v then 0xFF else if 0x20 ≤ v then 0xCF else if 0x11 ≤ v then 0xC8 else 0

/-- NEGO codes. -/
def negoDown : Nat := 0
def negoAnnouncing : Nat := 1
def negoUp : Nat := 2
def negoAssumed : Nat := 3
def negoNoCommon : Nat := 4

def Dev.nego (d : Dev) (n : Nat) : Nat := d.fld (laneBase n) Reg.LINK_STATE.NEGO
def Dev.setNego (d : Dev) (n st : Nat) : Dev := d.setFld (laneBase n) Reg.LINK_STATE.NEGO st

/-- The ANNOUNCE block the T7 sends (R160). -/
def Dev.announceBlock (d : Dev) (n : Nat) : Payload :=
  let l := d.link n
  BitVec.ofNat 64 (ctlAnnounce + l.pin * 2 ^ 8 + 0x10 * 2 ^ 16 + d.fld (laneBase n) Reg.LINK_STATE.SEEN_TX * 2 ^ 24 + l.feat * 2 ^ 32)

def Dev.sendAnnounce (d : Dev) (n : Nat) : Dev := d.sendControl n (d.announceBlock n)

/-- PIN and LINK_FEAT are sampled and ANNOUNCE begins with SEEN 0 (R160, R166). Both blocks of a pair come after this (DESIGN CHOICE, log
entry 125). -/
def Dev.beginAnnounce (d : Dev) (n : Nat) : Dev :=
  let b := laneBase n
  let d := d.modLink n fun l =>
    { l with pin := pinVersion (d.fld b Reg.LINK_VER.PIN), feat := bitsOf (d.reg (b + Reg.LINK_FEAT.off)).toNat 0 8
             lastAnn := none, annSeen := false }
  let d := ((d.setFld b Reg.LINK_STATE.SEEN_TX 0).setFld b Reg.LINK_STATE.SEEN_RX 0).setFld b Reg.LINK_STATE.ANNOUNCE_TX 1
  (d.setNego n negoAnnouncing).sendAnnounce n

/-- Block lock starts negotiation under 1.0 rules (R164, R165). A loop entered through CTRL does not negotiate (R496). -/
def Dev.negoLock (d : Dev) (n : Nat) : Dev :=
  let b := laneBase n
  if d.flag b Reg.CTRL.PROOF_EN then d else (d.setFld b Reg.LINK_VER.NEGOTIATED 0x10).beginAnnounce n

/-- RENEGOTIATE: a version in force is held (R164, R165). -/
def Dev.renegotiate (d : Dev) (n : Nat) : Dev :=
  let b := laneBase n
  if d.nego n = negoDown then d
  else
    let d := d.loopEnd n
    let d := if d.version n = 0 then d.setFld b Reg.LINK_VER.NEGOTIATED 0x10 else d
    d.beginAnnounce n

/-- The credit counts of a lane begin anew (R168, R169). -/
def Dev.creditReset (d : Dev) (n : Nat) : Dev :=
  let b := laneBase n
  d.modLink n fun l =>
    { l with limitF := 0, limitM := 0, consF := 0, consM := 0
             rxLimF := d.fld b Reg.CREDIT_RX.BUF_F, rxLimM := d.fld b Reg.CREDIT_RX.BUF_M, rxGotF := 0, rxGotM := 0
             creditDue := true }

/-- A pair is accepted (R162, R164). -/
def Dev.acceptPair (d : Dev) (n : Nat) (p : Payload) : Dev :=
  let b := laneBase n
  let hi := bitsOf p.toNat 8 8
  let lo := bitsOf p.toNat 16 8
  let feats := bitsOf p.toNat 32 32
  let l := d.link n
  let old := d.nego n
  let d := ((d.setFld b Reg.LINK_VER.PEER_HIGH hi).setFld b Reg.LINK_VER.PEER_LOW lo).setReg (b + Reg.PEER_FEAT.FEATURES.off)
    (BitVec.ofNat 32 feats)
  let d := d.setFld b Reg.LINK_STATE.SEEN_TX 1
  let d := if old = negoAssumed then
      ((d.raise b Reg.LINK_EVENT.ANNOUNCE_LATE).setFld b Reg.LINK_STATE.ANNOUNCE_TX 1).sendAnnounce n
    else d
  match bestVersion lo (min l.pin hi) with
  | some v =>
    let changed := decide (d.version n ≠ v)
    let d := (d.setNego n negoUp).raiseIf (old != negoUp) b Reg.LINK_EVENT.UP
    let d := d.raiseIf (old == negoUp && changed) b Reg.LINK_EVENT.VERSION_CHANGE
    let d := (d.setFld b Reg.LINK_VER.NEGOTIATED v).setReg (b + Reg.AGREED_FEAT.FEATURES.off)
      (BitVec.ofNat 32 (l.feat &&& feats &&& featMask v))
    (if old ≠ negoUp ∨ changed then d.creditReset n else d).txPurge n
  | none =>
    let d := (d.setNego n negoNoCommon).raiseIf (old != negoNoCommon) b Reg.LINK_EVENT.NO_COMMON
    let d := if old = negoAnnouncing then d.creditReset n else d
    ((d.setFld b Reg.LINK_VER.NEGOTIATED 0).setReg (b + Reg.AGREED_FEAT.FEATURES.off) 0).txPurge n

/-- Equal HIGH, LOW and FEATURES (R161), whose reserved bits are ignored (R163). -/
def samePair (p q : Payload) : Bool :=
  bitsOf p.toNat 8 16 == bitsOf q.toNat 8 16 && bitsOf p.toNat 32 8 == bitsOf q.toNat 32 8

/-- An ANNOUNCE is received (R160, R161, R164): a pair is accepted first, then SEEN takes effect in the state reached. -/
def Dev.announce (d : Dev) (n : Nat) (p : Payload) : Dev :=
  let b := laneBase n
  if d.nego n = negoDown then d
  else
    let seen := bitOf p.toNat 24
    let pair := match (d.link n).lastAnn with | some q => samePair p q | none => false
    let d := (d.modLink n fun l => { l with lastAnn := some p, annSeen := true }).raiseIf seen b Reg.LINK_STATE.SEEN_RX
    let d := if pair then d.acceptPair n p else d
    if d.nego n = negoUp ∨ d.nego n = negoNoCommon then
      if seen then d.setFld b Reg.LINK_STATE.ANNOUNCE_TX 0
      else if d.flag b Reg.LINK_STATE.ANNOUNCE_TX then d
      else (d.setFld b Reg.LINK_STATE.ANNOUNCE_TX 1).sendAnnounce n
    else d

/-! ## The crossing contract at a lane (R46 to R48, R139, R140) -/

/-- The keeper counts crossings: CLKGEN is on and the trunk has a source (R38, R394). -/
def Dev.counting (d : Dev) : Bool := d.domainOn 0 && d.fld clkBase Reg.CLK_STATUS.TRUNK_SRC != 3

/-- There is an alignment window (R140). -/
def Dev.windowed (d : Dev) : Bool := d.counting && d.fld keeperBase Reg.LATENCY.L != 0

/-- The lane's alignment buffer is in use (R139). -/
def Dev.aligns (d : Dev) (n : Nat) : Bool := !isTrunk n || (d.lane n).alignCfg.getLsbD 0

/-- Where a message stamped X falls in the window of the present crossing. -/
inductive Fit where
  | early | late | kept
deriving DecidableEq, Repr

/-- The judgement of R140. -/
def Dev.judge (d : Dev) (n x : Nat) : Fit :=
  if !d.windowed then .early
  else
    let depth := max 1 (bitsOf (d.lane n).alignCfg.toNat 16 4)
    let r := d.fld keeperBase Reg.LATENCY.ALIGN_R
    let first := if d.keeper.released then crossSub d.now (r - 1) else crossSub d.now r
    if crossBefore (crossAdd d.now depth) x then .early
    else if (r = 0 ∧ d.keeper.released ∧ x = d.now) ∨ crossBefore x first then .late
    else .kept

/-- A message for the alignment buffer (R139, R140, R48). -/
def Dev.alignInsert (d : Dev) (n x : Nat) (m : Msg) : Dev :=
  let b := laneBase n
  match d.judge n x with
  | .early => d.count b Reg.EARLY_COUNT.COUNT
  | .late => (d.count b Reg.LATE_COUNT.COUNT).raise keeperBase Reg.KEEP_EVENT.DATA_LATE
  | .kept => (d.modLane n fun r => { r with held := r.held ++ [{ cross := x, msg := m }] }).showFill n

/-- A good HIT, PRIMITIVE or DECISION, or a MARK, with its stamp: open ranges of affected crossings end with it (R152), and
it is evidence of completeness while a window exists (R47, R140). -/
def Dev.stamped (d : Dev) (n x : Nat) : Dev :=
  let ev := d.windowed
  d.modLane n fun r =>
    { r with
      gaps := r.gaps.map fun g => if g.hi.isNone then { g with hi := some x } else g
      lastStamp := some x
      evidence := if ev then
          (match r.evidence with
           | some e => some (if crossBefore e x then x else e)
           | none => some x)
        else r.evidence }

/-! ## The fabric message port's receive side (R200, R201) -/

/-- A message for the fabric message port: it waits in the receive buffer, or is dropped where the port is not in use. -/
def Dev.toPort (d : Dev) (n x : Nat) (m : Msg) : Dev :=
  let b := laneBase n
  let r := d.lane n
  if r.portBad || !r.portRxq.getLsbD 16 then
    ((d.count b Reg.MSGQ_DROP_COUNT.COUNT).raise b Reg.PORT_EVENT.DROP).creditBack n m.typ m.body.length
  else d.modLink n fun l => { l with rxWait := l.rxWait ++ [{ cross := x, msg := m }] }

/-! ## Management requests (R156, R157) -/

/-- Units of transmit credit left for class M, less those that waiting messages of the class will take. -/
def LinkRec.roomM (l : LinkRec) : Nat :=
  let avail := (l.limitM + 2 ^ 16 - l.consM % 2 ^ 16) % 2 ^ 16
  avail - ((l.txQueue.filter fun t => creditClass t.msg.typ == .m).foldl (fun s t => s + msgUnits t.msg.body.length) 0)

/-- LEN of the response to a request. -/
def MgmtReq.respLen (q : MgmtReq) : Nat := if q.write then 1 else 1 + (q.count + 1) / 2

/-- Words packed two to a block (R154). -/
def packWords : List Word → List Payload
  | [] => []
  | [w] => [BitVec.ofNat 64 w.toNat]
  | w :: v :: t => BitVec.ofNat 64 (w.toNat + v.toNat * 2 ^ 32) :: packWords t

/-- The words packed in blocks. -/
def unpackWords (ps : List Payload) : List Word :=
  ps.flatMap fun p => [BitVec.ofNat 32 p.toNat, BitVec.ofNat 32 (p.toNat / 2 ^ 32)]

/-- The response to a request is queued, and its units come back; its STAMP may hold any value (R149). -/
def Dev.mgmtRespond (d : Dev) (n : Nat) (q : MgmtReq) (st index : Nat) (got : List Word) : Dev :=
  let words := if q.write then [] else packWords ((got ++ List.replicate (q.count - got.length) 0).take q.count)
  let m : Msg :=
    { typ := msgMgmtResp, stamp := Config.freeAt d.free 0 % 2 ^ 16, route := q.tag + (q.count - 1) * 2 ^ 8
      body := BitVec.ofNat 64 (st + index * 2 ^ 8) :: words }
  let d := d.drew.creditBack n (if q.write then msgMgmtWrite else msgMgmtRead) q.len
  if d.txBarred n m then d.modLink n fun l => { l with mgmtTags := l.mgmtTags.erase q.tag }
  else d.txEnqueue n { msg := m, orig := .mgmt }

/-- The access of the next word of a request being performed. -/
def MgmtJob.access (j : MgmtJob) (n tick : Nat) : Access :=
  { path := 1, since := tick, write := j.req.write
    addr := (j.req.addr + if j.req.fixed then 0 else 4 * j.index) % 2 ^ 32
    data := j.req.data.getD j.index 0, lane := some n }

/-- Requests are taken up in the order received, each once there is room for its response; one that is not performed is
answered at once. The first argument bounds how many. -/
def Dev.mgmtPump : Nat → Dev → Nat → Dev
  | 0, d, _ => d
  | k + 1, d, n =>
    let l := d.link n
    match l.mgmtJob, l.mgmtWait with
    | none, q :: rest =>
      if msgUnits q.respLen ≤ l.roomM then
        let d := d.modLink n fun l => { l with mgmtWait := rest }
        if q.err ≠ 0 then Dev.mgmtPump k (d.mgmtRespond n q q.err 0 []) n
        else
          let j : MgmtJob := { req := q }
          (d.modLink n fun l => { l with mgmtJob := some j }).enqueue (j.access n d.tick)
      else d
    | _, _ => d

/-- Requests that can now be taken up are. -/
def Dev.mgmtServe (d : Dev) (n : Nat) : Dev := d.mgmtPump (d.link n).mgmtWait.length n

/-- A word of a request has been granted and completed with a status. -/
def Dev.mgmtWord (d : Dev) (n st : Nat) (w : Word) : Dev :=
  match (d.link n).mgmtJob with
  | none => d
  | some j =>
    if st ≠ 0 then ((d.modLink n fun l => { l with mgmtJob := none }).mgmtRespond n j.req st j.index j.got).mgmtServe n
    else
      let j := { j with index := j.index + 1, got := j.got ++ [w] }
      if j.index < j.req.count then
        (d.modLink n fun l => { l with mgmtJob := some j }).enqueue (j.access n d.tick)
      else ((d.modLink n fun l => { l with mgmtJob := none }).mgmtRespond n j.req 0 0 j.got).mgmtServe n

/-- A MGMT_READ or MGMT_WRITE on a trunk lane (R156, R172). -/
def Dev.mgmtArrive (d : Dev) (n typ route : Nat) (lenOk : Bool) (body : List Payload) : Dev :=
  let tag := bitsOf route 0 8
  let head := (body.getD 0 0).toNat
  let err := if d.ust (laneBase n) = .draining then 0x10
    else if !lenOk then 0x11
    else if (d.link n).mgmtTags.contains tag then 0x12
    else 0
  let q : MgmtReq :=
    { tag := tag, write := typ == msgMgmtWrite, count := bitsOf route 8 6 + 1, addr := head % 2 ^ 32, fixed := bitOf head 32
      data := unpackWords (body.drop 1), err := err, len := body.length }
  (d.modLink n fun l => { l with mgmtWait := l.mgmtWait ++ [q], mgmtTags := l.mgmtTags ++ [tag] }).mgmtServe n

/-- A MGMT_RESP for the remote requester (R158). -/
def Dev.mgmtResponse (d : Dev) (n route : Nat) (body : List Payload) : Dev :=
  let b := laneBase n
  let d := d.creditBack n msgMgmtResp body.length
  if d.flag b Reg.REM_STATUS.BUSY && d.fld b Reg.REM_STATUS.TAG == bitsOf route 0 8 then
    let d := if (d.link n).remWrite || body.length < 2 then d
      else d.setReg (b + Reg.REM_RDATA.DATA.off) (BitVec.ofNat 32 (body.getD 1 0).toNat)
    d.remoteEnd n (bitsOf (body.getD 0 0).toNat 0 8)
  else (d.count b Reg.STALE_RESP_COUNT.COUNT).raise b Reg.LINK_EVENT.STALE_RESP

/-! ## A message received good (R151, R153, R172) -/

/-- A protocol error of R172. -/
def Dev.protoErr (d : Dev) (n : Nat) : Dev :=
  let b := laneBase n
  (d.count b Reg.PROTO_ERR_COUNT.COUNT).raise b Reg.LINK_EVENT.PROTO_ERR

/-- LEN is in the range of R153. -/
def lenRight (typ len route : Nat) : Bool :=
  let words := bitsOf route 8 6 + 1
  if typ = msgPrimitive ∨ typ = msgDecision then decide (1 ≤ len)
  else if typ = msgAccept then len == 2
  else if typ = msgFragment then decide (2 ≤ len) && (len - 2) % 4 == 0 && decide (len ≤ 254)
  else if typ = msgMgmtRead ∨ typ = msgEvent then len == 1
  else if typ = msgMgmtWrite then len == 1 + (words + 1) / 2
  else if typ = msgMgmtResp then len == 1 || len == 1 + (words + 1) / 2
  else true

/-- The accept of an ACCEPT message (R154, R275); PRIORITY counts only where its feature was agreed at the SOM (R165). -/
def acceptOf (feat : Nat) (body : List Payload) : Accept :=
  let b0 := (body.getD 0 0).toNat
  let b1 := (body.getD 1 0).toNat
  { cross := bitsOf b0 0 48, before := bitsOf b0 48 8, after := bitsOf b0 56 8, map := bitsOf b1 0 16
    prio := if bitOf feat featPriority then bitsOf b1 20 4 else 0 }

/-- CONTROL (R155). -/
def Dev.controlMsg (d : Dev) (n x : Nat) (m : Msg) : Dev :=
  if m.route = 1 then (d.creditBack n msgControl m.body.length).renegotiate n
  else if m.route < 0x100 then (d.creditBack n msgControl m.body.length).count (laneBase n) Reg.PROTO_ERR_COUNT.COUNT
  else d.toPort n x m

/-- A message goes where R153 sends it; `feat` are the features agreed at its SOM. -/
def Dev.deliver (d : Dev) (n x feat : Nat) (m : Msg) : Dev :=
  if m.typ = msgHit then
    if isTrunk n then (d.stamped n x).toPort n x m
    else
      let fit := d.judge n x
      let d := d.directHit n x (decide (fit = .early)) (decide (fit = .late)) m.route m.body
      (d.alignInsert n x m).stamped n x
  else if m.typ = msgPrimitive then
    (if d.aligns n then d.alignInsert n x m else d.toPort n x m).stamped n x
  else if m.typ = msgDecision then
    (if isTrunk n && d.aligns n then d.alignInsert n x m else d.toPort n x m).stamped n x
  else if m.typ = msgAccept then d.each (List.range 16) fun d e => d.acceptTo e (acceptOf feat m.body)
  else if m.typ = msgMgmtRead ∨ m.typ = msgMgmtWrite then d.mgmtArrive n m.typ m.route true m.body
  else if m.typ = msgMgmtResp then d.mgmtResponse n m.route m.body
  else if m.typ = msgControl then d.controlMsg n x m
  else d.toPort n x m

/-- A message received good: the version and the features in force at its SOM decide what becomes of it (R165). -/
def Dev.messageGood (d : Dev) (n : Nat) (r : RxMsg) : Dev :=
  let b := laneBase n
  let som := r.som
  let data := r.data
  let typ := somType som
  let len := somLen som
  let x := extendStamp r.cross (somStamp som)
  let m : Msg := { typ := typ, stamp := somStamp som, route := somRoute som, body := data }
  let request := typ == msgMgmtRead || typ == msgMgmtWrite
  if !isTrunk n && d.ust b = .draining then (d.count b Reg.DRAIN_DROP_COUNT.COUNT).creditDrop n r.ver typ len
  else if !takes n r.ver r.feat typ then (d.protoErr n).creditDrop n r.ver typ len
  else if !lenRight typ len m.route && !request then (d.protoErr n).creditDrop n r.ver typ len
  else if 0x11 ≤ r.ver ∧ (d.link n).room (creditClass typ) < msgUnits len then d.protoErr n
  else
    let d := if 0x11 ≤ r.ver then d.creditTake n typ len else d
    if lenRight typ len m.route then d.deliver n x r.feat m else (d.protoErr n).mgmtArrive n typ m.route false data

/-- The CRC of R150 matches, by the version in force at the SOM. -/
def crcMatches (ver : Nat) (som : Payload) (data : List Payload) (eom : Payload) : Bool :=
  let bs := messageBytes som data
  if 0x11 ≤ ver then bitsOf eom.toNat 32 32 == (crc32c bs).toNat else bitsOf eom.toNat 16 16 == (crc16 bs).toNat

/-- A message ends good (R151). -/
def messageOk (ver : Nat) (som : Payload) (data : List Payload) (eom : Payload) : Bool :=
  data.length == somLen som && bitsOf eom.toNat 8 8 == somLen som && crcMatches ver som data eom

/-! ## Control blocks (R146, R147, R173 to R175) -/

/-- A MARK (R41, R47, R173). The spec does not say what two sync values for one crossing do: the later one takes the place of the
earlier (DESIGN CHOICE, log entry 29). -/
def Dev.markBlock (d : Dev) (n : Nat) (p : Payload) : Dev :=
  if d.version n = 0 then d.protoErr n
  else
    let m := bitsOf p.toNat 8 48
    let d := d.stamped n m
    if d.fld keeperBase Reg.KEEP_CTRL.SYNC_SRC = 2 ∧ d.fld keeperBase Reg.KEEP_CTRL.SYNC_LANE = n then
      d.modKeeper fun k =>
        { k with pendingSync := some (((m : Int) + signedOf (d.fld keeperBase Reg.MARK_ADJ.ADJ) 12) % ((crossMod : Nat) : Int)).toNat }
    else d

/-- A CREDIT (R168). -/
def Dev.creditBlock (d : Dev) (n : Nat) (p : Payload) : Dev :=
  if d.version n < 0x11 then d.protoErr n
  else (d.modLink n fun l => { l with limitF := bitsOf p.toNat 8 16, limitM := bitsOf p.toNat 24 16 }).mgmtServe n

/-- An ALARM (R174). -/
def Dev.alarmReceived (d : Dev) (n : Nat) (p : Payload) : Dev :=
  let b := laneBase n
  if d.agreed n featAlarm then
    let cause := bitsOf p.toNat 8 8
    let d := (d.setFld b Reg.ALARM_RX.CAUSE cause).setFld b Reg.ALARM_RX.DETAIL_LO (bitsOf p.toNat 24 24)
    (d.raise b Reg.LINK_EVENT.ALARM_RX).raiseCause causeRemote (n + cause * 2 ^ 8)
  else d.protoErr n

/-- A PROOF (R175): ACTION 2 ends a loop whatever is agreed. -/
def Dev.proofBlock (d : Dev) (n : Nat) (p : Payload) : Dev :=
  let b := laneBase n
  let action := bitsOf p.toNat 8 8
  if action = 2 ∧ d.looped n ∧ d.flag b Reg.CTRL.PROOF_EN = false then d.loopEnd n
  else if !d.agreed n featProof then d.raise b Reg.LINK_EVENT.PROOF_REFUSED
  else if action = 1 then
    if d.flag b Reg.LINK_CTRL.PROOF_ACCEPT && !d.flag b Reg.CTRL.PROOF_EN then
      ((d.setFld b Reg.LINK_STATE.LOOPED 1).raise b Reg.LINK_EVENT.PROOF_ENTERED).txPurge n
    else d.raise b Reg.LINK_EVENT.PROOF_REFUSED
  else d

/-- A control block other than SOM and EOM. -/
def Dev.controlBlock (d : Dev) (n : Nat) (p : Payload) : Dev :=
  let b := laneBase n
  let t := ctlType p
  let checked (f : Dev → Dev) : Dev := if chkOk p then f d else d.count b Reg.CTL_CHK_COUNT.COUNT
  if t = ctlQuad ∨ t = ctlIdle then d
  else if t = ctlAnnounce then d.announce n p
  else if t = ctlMark then checked fun d => d.markBlock n p
  else if t = ctlCredit then checked fun d => d.creditBlock n p
  else if t = ctlProof then checked fun d => d.proofBlock n p
  else if t = ctlAlarm then checked fun d => d.alarmReceived n p
  else d.count b Reg.UNKNOWN_CTL_COUNT.COUNT

/-! ## The message layer's place in the stream (R148, R151, R152) -/

/-- A SOM: one inside a message ends the old message as a failure. -/
def Dev.somBlock (d : Dev) (n : Nat) (p : Payload) : Dev :=
  let d := d.rxBreak n
  if chkOk p then d.modLane n fun r => { r with rx := .inside { som := p, data := [], cross := d.now, ver := d.version n, feat := d.fld (laneBase n) Reg.AGREED_FEAT.FEATURES } }
  else
    ((d.count (laneBase n) Reg.HDR_CHK_COUNT.COUNT).orphan n).modLane n fun r => { r with rx := .discarding }

/-- A block, or an error marker, as the elastic buffer gives it out. -/
def Dev.rxItem (d : Dev) (n : Nat) (i : EbItem) : Dev :=
  match i, (d.lane n).rx with
  | .marker, .inside _ => d.rxBreak n
  | .marker, .discarding => d
  | .marker, .outside => d.orphan n
  | .block false p, .inside m => d.modLane n fun r => { r with rx := .inside { m with data := m.data ++ [p] } }
  | .block false _, .discarding => d
  | .block false _, .outside => d.orphan n
  | .block true p, .inside m =>
    if ctlType p = ctlSom then d.somBlock n p
    else if ctlType p = ctlEom then
      let d := d.modLane n fun r => { r with rx := .outside }
      if messageOk m.ver m.som m.data p then d.messageGood n m else d.crcFail n m.ver m.som m.cross
    else d.controlBlock n p
  | .block true p, .discarding =>
    if ctlType p = ctlEom then d.modLane n fun r => { r with rx := .outside }
    else if ctlType p = ctlSom then d
    else d.controlBlock n p
  | .block true p, .outside =>
    if ctlType p = ctlSom then d.somBlock n p
    else if ctlType p = ctlEom then d.orphan n
    else d.controlBlock n p

/-- The items of a whole message. -/
def wireItems (m : WireMsg) : List EbItem := .block true m.som :: (m.data.map (.block false) ++ [.block true m.eom])

/-- The lane passes what it receives to its message layer: it is block-locked and runs no proof loop of CTRL (R489). -/
def Dev.listens (d : Dev) (n : Nat) : Bool :=
  (d.ust (laneBase n)).active && d.blkState n == blkLocked && !d.proving (laneBase n)

/-- The lane runs the far-end loop of CTRL, block-locked to its partner. -/
def Dev.loopsBack (d : Dev) (n : Nat) : Bool := d.blkState n == blkLocked && d.proofDepth (laneBase n) == some 3

end Sys2Proof.Machine
end

