-- ==== Sys2Proof/Machine/FabricCycle.lean ====
section
/-!
DEFINITION. A fabric cycle: flip-flops, tally units and fence cells at its edge, RES_ERR, and the FABRIC pins (R45, R53, R180, R182 to
R185, R194 to R196, R219, R222, R507, R508).
-/
namespace Sys2Proof.Machine

/-! ## Which logic advances -/

/-- A group has a fabric cycle of the present crossing still to come (R45, R53). -/
def Dev.groupTicks (d : Dev) (g : Nat) : Bool := d.counting && !d.trunkStopped && decide (d.fabric.cycle.num g < d.delivered g)

/-- The fabric clock of a column group runs: tiles of the group have it, and it is not stopped (R53, R436). -/
def Dev.groupClocked (d : Dev) (g : Nat) : Bool :=
  d.counting && !d.trunkStopped && (groupColumns g).any fun c => d.fabric.clkRun.mem (c * 2) || d.fabric.clkRun.mem (c * 2 + 1)

/-- The key of the trunk among the groups' counts of fabric cycles. -/
def trunkCycle : Nat := 16

/-- The trunk has a fabric cycle of the present crossing still to come: N of them, whatever the groups swallow (R53, R258). -/
def Dev.trunkTicks (d : Dev) : Bool := d.counting && !d.trunkStopped && decide (d.fabric.cycle.num trunkCycle < d.clk.ratioN)

/-- The present fabric cycle of a group is the hold cycle of a plate switch (R219). -/
def Dev.holdCycle (d : Dev) (g : Nat) : Bool := d.fabric.cycle.num g == 0 && d.keeper.holds.num g != 0

/-- The tiles of a group whose fabric clock runs and that hold a plate. -/
def Dev.clockedTiles (d : Dev) (g : Nat) : List Nat := (d.groupTiles g).filter fun t => d.colClock (t / 2) (t % 2)

/-- The tiles whose flip-flops capture at the end of the present fabric cycle. -/
def Dev.tickingTiles (d : Dev) : List Nat :=
  ((List.range 16).filter fun g => d.groupTicks g && !d.holdCycle g).flatMap d.clockedTiles

/-! ## Flip-flops (R179, R180) -/

/-- The flip-flops of a line at the end of a fabric cycle. -/
def Dev.lineNext (d : Dev) (t line : Nat) : Nat :=
  (List.range 32).foldl (fun n i => n + bit01 (d.flopNext d.value t (line * 16 + i / 2) (i % 2 == 1)) * 2 ^ i) 0

/-- The flip-flops of a tile as the edge leaves them, from the values that `d` shows before it. -/
def Dev.tileFlops (d : Dev) (m : SMap Nat) (t : Nat) : SMap Nat :=
  (List.range 864).foldl (fun m l => m.setNum (lineKey t l) (d.lineNext t l)) m

/-! ## Tally units (R182 to R185) -/

def Dev.tallySetupAt (d : Dev) (t u : Nat) : TallySetup := Config.tallySetup (d.bitsNow t) u

/-- The inputs of a tally unit; C comes over the cascade from the unit to the south where the plate says so. -/
def Dev.tallyInput (d : Dev) (t u : Nat) : TallyInput :=
  let fin (w i : Nat) (h : 0 < w) : Fin w := ⟨i % w, Nat.mod_lt _ h⟩
  let word (w : Nat) (s : Nat → TallyIn) : Nat := d.valueWord t w fun i => .tally u (s i)
  let c : Nat × Option Nat :=
    if !(d.tallySetupAt t u).cascade then (word 56 fun i => .c (fin 56 i (by decide)), none)
    else if u = 0 then
      ((List.range 56).foldl (fun n i => n + bit01 (Config.looseWire d.fabric.ticks (2 ^ 20 + t * 64 + i)) * 2 ^ i) 0, none)
    else ((d.tallyAt t (u - 1)).p.toNat, some (d.tallyAt t (u - 1)).northResidue)
  { a := word 24 fun i => .a (fin 24 i (by decide)), b := word 18 fun i => .b (fin 18 i (by decide))
    d := word 24 fun i => .d (fin 24 i (by decide)), c := c.1, south := c.2 }

/-- The bits in which faults change the results of units. -/
def slipOf (slips : List (Fin 24 × BitVec 56)) (u : Nat) : BitVec 56 :=
  slips.foldl (fun p s => if s.1.val = u then p ^^^ s.2 else p) 0

/-- A unit that the plate uses advances, but while its logic is held for release. -/
def Dev.tallyRuns (d : Dev) (t u : Nat) : Bool := (d.tallySetupAt t u).used && !d.unitHeld (d.tallyUnit t u)

def Dev.tallyNext (d : Dev) (slips : List (Fin 24 × BitVec 56)) (t u : Nat) : TallyRec :=
  if d.tallyRuns t u then (d.tallySetupAt t u).cycle (d.tallyAt t u) (d.tallyInput t u) (slipOf slips u) else d.tallyAt t u

def Dev.tileTallies (d : Dev) (slips : List (Fin 24 × BitVec 56)) (m : SMap TallyRec) (t : Nat) : SMap TallyRec :=
  (List.range 24).foldl (fun m u => m.set (tallyKey (t % 2) (t / 2) u) {} (d.tallyNext slips t u)) m

/-- The units of a tile that assert RES_ERR after the edge. -/
def Dev.resErrs (before d : Dev) (t : Nat) : List Nat := (List.range 24).filter fun u => before.tallyRuns t u && (d.tallyAt t u).err

/-- RES_ERR of a tile (R185): the units that assert it are counted, the lowest-numbered one is logged where the log holds no valid
entry, and no unit changes state. -/
def Dev.noteResErr (before d : Dev) (t : Nat) : Dev :=
  let b := columnBase (2 + t % 2 * 2) (t / 2)
  let errs := before.resErrs d t
  match errs with
  | [] => d
  | u :: _ =>
    if d.ust b = .off then d
    else
      let d := (d.countBy b Reg.TALLY_RES_COUNT.COUNT errs.length).raise b Reg.TILE_EVENT.RES_ERR
      if d.flag b Reg.TALLY_RES_LOG.VALID then d
      else
        d.setReg (b + Reg.TALLY_RES_LOG.off)
          (BitVec.ofNat 32 (d.now % 2 ^ 16 * 2 ^ 16 + tallyModeCode (before.tallySetupAt t u).mode * 2 ^ 7 + u * 2 ^ 2 + 1))

/-! ## FABRIC pins (R507, R508) -/

/-- The edge column of a pin's fabric port. -/
def pinColumn (p : Nat) : Nat :=
  let b := p / 40
  let e := b % 2 * 8 + p % 40 / 5
  match b / 2 with
  | 0 => e
  | 1 => e * 16 + 15
  | 2 => 15 * 16 + e
  | _ => e * 16

/-- The tile whose logic drives a pin. -/
def Dev.pinTile (d : Dev) (p : Nat) : Nat := pinColumn p * 2 + bit01 (Config.padUpper (d.bitsNow (pinColumn p * 2)) p)

/-- The logic that drives a FABRIC pin is live: its unit is past the hold of its release, and its tile is clocked (R508). -/
def Dev.pinLive (d : Dev) (p : Nat) : Bool :=
  let t := d.pinTile p
  d.pinFunc p == funcFabric && !d.tileBlank t && d.colClock (t / 2) (t % 2) &&
    match pickUnit (d.tileUnits t) (Config.padOwner (d.bitsNow t) p) with
    | some b => (d.user b).rel.past
    | none => false

/-- What the logic drives on a pin. -/
def Dev.pinDrive (d : Dev) (p : Nat) : Nat :=
  let t := d.pinTile p
  if !d.value (.sink t (.port (.padEnable p))) then 0 else if d.value (.sink t (.port (.pad p))) then 2 else 1

/-- The pins whose fabric port lies in a tile that holds a plate. -/
def Dev.portPins (d : Dev) : List Nat :=
  if d.plates.plateFrames.items.isEmpty then [] else (List.range 320).filter d.pinLive

/-- FABRIC pins show what their live logic drives, and keep it while that is not live. -/
def Dev.pinsFollow (d : Dev) : Dev :=
  let l := d.portPins
  if l = [] then d
  else d.pinChange l fun d => d.modPins fun r => { r with fabric := l.foldl (fun m p => m.put p (d.pinDrive p)) r.fabric }

/-! ## The cycle -/

/-- The edge that ends the present fabric cycle of every group that has one to come; `slips` are the faults of tally units, by tile. -/
def Dev.fabricEdge (d : Dev) (slips : Nat → List (Fin 24 × BitVec 56)) : Dev :=
  let groups := (List.range 16).filter d.groupTicks
  let tiles := d.tickingTiles
  let next := d.modFabric fun f =>
    { f with flops := tiles.foldl d.tileFlops f.flops
             tally := tiles.foldl (fun m t => d.tileTallies (slips t) m t) f.tally
             cycle := groups.foldl SMap.bump (f.cycle.bump trunkCycle), ticks := f.ticks + 1 }
  let next := next.each groups fun x g => x.fenceUpdate d g
  next.each tiles fun x t => d.noteResErr x t

/-- A fabric cycle of the whole device, and with it a cycle of the tally trees. -/
def Dev.fabricCycle (d : Dev) (slips : Nat → List (Fin 24 × BitVec 56)) : Dev :=
  if d.trunkTicks then
    (((d.switchesDue.fabricEdge slips).pinsFollow).each (List.range 16) Dev.treeCycle)
  else d

/-- A fabric cycle in which tally units of one tile deliver wrong bits. -/
def opResErr (c : Fin 256) (upper : Bool) (slips : List (Fin 24 × BitVec 56)) (d : Dev) : Dev :=
  d.fabricCycle fun t => if t = c * 2 + bit01 upper then slips else []
def execResErr (c : Fin 256) (upper : Bool) (slips : List (Fin 24 × BitVec 56)) (s : State) : Answer := onDev (opResErr c upper slips) s

end Sys2Proof.Machine
end

