-- ==== Sys2Proof/Machine/ExtCmds.lean ====
section
/-!
DEFINITION. The commands on external memory: fabric data ports, controllers, region registers and movers ("External Memory and
Inline Encryption"). Commands that touch lines hand the causes they offer to Kryup.
-/
namespace Sys2Proof.Machine

/-! ## Fabric data ports (R326) -/

/-- A port's access completes. -/
def Dev.fdpEnd (d : Dev) (port st : Nat) (data : Line) : Dev :=
  d.modExt fun x => { x with fdp := x.fdp.put port { status := st, data := data, acks := (x.fdp.at port {}).acks + 1 } }

/-- A port can take a request: fewer than 16 are outstanding, and its group's fabric clock runs. -/
def Dev.fdpReady (d : Dev) (port : Nat) : Bool := d.groupClocked (quadrantGroup port) && decide ((d.fdpWaiting port).length < 16)

/-- A port's first outstanding request is performed and completes; one that ends REFUSED is not performed. While a base warm reset
fences B0 every request ends REFUSED (R462). -/
def Dev.fdpServe (d : Dev) (port : Nat) (r : FdpReq) : Dev :=
  let d := d.modExt fun x => { x with fdpQueue := x.fdpQueue.set port [] ((d.fdpWaiting port).drop 1) }
  if r.refused || d.kryup.warm then d.fdpEnd port dsRefused 0
  else
    d.withPorts r.found.ports fun d =>
      if r.write then
        let (d, st) := d.dsWrite clsFdp r.addr r.ben r.poison r.data r.found true
        d.fdpEnd port st 0
      else
        let (d, st, l) := d.dsRead clsFdp r.addr (2 ^ 64 - 1) r.found true
        d.fdpEnd port st l

/-- A port completes its outstanding requests in request order, while its group's fabric clock runs. -/
def Dev.fdpComplete (d : Dev) (port : Nat) : Dev :=
  if d.groupClocked (quadrantGroup port) then (d.fdpWaiting port).foldl (fun d r => d.fdpServe port r) d else d

/-- A request at a port is taken, and completes with those before it unless it is still outstanding when the command ends. A unit that
no longer accepts it when it is taken has it end REFUSED (R331). The request of a unit that is not released is forced off (R379). -/
def Dev.fdpRequest (d : Dev) (port : Nat) (r : FdpReq) : Dev :=
  if d.fdpReady port && d.portLive (portTiles (quadrantGroup port)) portData then
    let refused := match d.dsTarget (dsOffset r.addr) with
      | .external v => d.extRefused v && !(r.write && r.ben % 2 ^ 64 == 0)
      | _ => false
    let d := d.modExt fun x =>
      { x with fdpQueue := x.fdpQueue.set port [] (d.fdpWaiting port ++ [{ r with refused := d.kryup.warm || refused }]) }
    if r.found.wait then d else d.fdpComplete port
  else d

def opFdpRead (port : Fin 4) (addr : BitVec 56) (found : Found) (d : Dev) : Dev :=
  d.fdpRequest port { addr := addr.toNat, found := found }
def execFdpRead (port : Fin 4) (addr : BitVec 56) (found : Found) (s : State) : Answer := onDev (opFdpRead port addr found) s

/-- A write with all 64 byte enables set. -/
def opFdpFullWrite (port : Fin 4) (addr : BitVec 56) (data : Line) (poison : Bool) (found : Found) (d : Dev) : Dev :=
  d.fdpRequest port { write := true, addr := addr.toNat, ben := 2 ^ 64 - 1, poison := poison, data := data, found := found }
def execFdpFullWrite (port : Fin 4) (addr : BitVec 56) (data : Line) (poison : Bool) (found : Found) (s : State) : Answer :=
  onDev (opFdpFullWrite port addr data poison found) s

/-- A write with some byte enables clear; one with all of them set is a full-line write, without the poison attribute. -/
def opFdpPartialWrite (port : Fin 4) (addr : BitVec 56) (ben : BitVec 64) (data : Line) (found : Found) (d : Dev) : Dev :=
  d.fdpRequest port { write := true, addr := addr.toNat, ben := ben.toNat, data := data, found := found }
def execFdpPartialWrite (port : Fin 4) (addr : BitVec 56) (ben : BitVec 64) (data : Line) (found : Found) (s : State) : Answer :=
  onDev (opFdpPartialWrite port addr ben data found) s

/-! ## Controllers -/

/-- Training has ended with the channels named, and initialisation with it (R327, R328). -/
def opMcInitDone (w : Fin 2) (trained : BitVec 8) (d : Dev) : Dev :=
  let b := mcBase w
  if d.ust b = .starting && d.clk.mpllLock then
    if trained = 0 then (((d.setFld b Reg.MC_STATUS.FAULTED 255).raise b Reg.MC_EVENT.CH_FAULT).lose b).startFail b (2 ^ 9)
    else
      let d := (d.setFld b Reg.MC_STATUS.TRAINED trained.toNat).setFld b Reg.MC_STATUS.FAULTED (255 - trained.toNat)
      let kept := d.ext.retained.mem w
      let mode := if d.proving b then 0 else d.initMode w
      let chans := (mcChannels w).filter fun c => trained.getLsbD (c % 8)
      let d :=
        if kept then d
        else if mode = 1 then (d.fillExt chans (.poison (d.free + 1))).drew
        else if mode = 2 then d.fillExt chans (.zeros (d.keys 0).k3)
        else d
      let d := (d.modExt fun x => { x with retained := x.retained.del w }).raise b Reg.MC_EVENT.INIT_DONE
      let d := if trained.toNat = 255 then d else (d.raise b Reg.MC_EVENT.CH_FAULT).lose b
      d.ready b
  else d
def execMcInitDone (w : Fin 2) (trained : BitVec 8) (s : State) : Answer := onDev (opMcInitDone w trained) s

/-- One channel of a controller is faulted (R329). -/
def Dev.faultChannel (d : Dev) (w c : Nat) : Dev :=
  let b := mcBase w
  ((d.setFld b ⟨Reg.MC_STATUS.FAULTED.off, 8 + c, 1⟩ 1).raise b Reg.MC_EVENT.CH_FAULT).lose b

/-- A retraining round: one bit for each channel whose retraining failed (R329). -/
def opMcRetrain (w : Fin 2) (failed : BitVec 8) (d : Dev) : Dev :=
  let b := mcBase w
  if d.runs b || d.ust b = .draining then
    d.each (List.range 8) fun d c =>
      let ch := 8 * w + c
      if bitOf (d.fld b Reg.MC_STATUS.FAULTED) c then d
      else if failed.getLsbD c then
        let again := d.ext.retrainBad.mem ch
        let d := d.count b Reg.MC_RETRAIN_COUNT.COUNT
        if again then d.faultChannel w c else d.modExt fun x => { x with retrainBad := x.retrainBad.put ch 1 }
      else d.modExt fun x => { x with retrainBad := x.retrainBad.del ch }
  else d
def execMcRetrain (w : Fin 2) (failed : BitVec 8) (s : State) : Answer := onDev (opMcRetrain w failed) s

/-- MC_SCRUB as it acts: interface 1 has EN 1 and POISON 0 (R335). -/
def Dev.mcScrub (d : Dev) (b : Nat) (f : Fld) : Bool :=
  if d.fld b Reg.UNIT_VER.MAJOR = 1 then f == Reg.MC_SCRUB.EN else d.flag b f

/-- The scrub reads a line of a controller's channels; it checks ECC only, and holds no key (R330). -/
def opMcScrubLine (line : Nat) (found : Found) (d : Dev) : Dev :=
  let v := 64 * line
  let b := mcBase (extController v)
  if v < d.visible && d.mcScrub b Reg.MC_SCRUB.EN && (d.runs b || d.ust b = .draining) &&
      !bitOf (d.fld b Reg.MC_STATUS.FAULTED) (extChannel v % 8) then
    let d := d.wearLine line found
    let l := d.extLine line
    if l.check = dsOk then d
    else if l.check = dsCorrected then (d.putLine line l.mended).extNote clsScrub 0 v dsCorrected
    else
      let d := if d.mcScrub b Reg.MC_SCRUB.POISON then d.putLine line { l with state := linePoison } else d
      (d.extNote clsScrub 0 v dsUncorr)
  else d
def execMcScrubLine (line : Nat) (found : Found) (s : State) : Answer := onDev (opMcScrubLine line found) s

/-- MR4 gives a refresh rate, in quarters of the nominal one. -/
def opDramHot (w : Fin 2) (rate : Nat) (d : Dev) : Dev :=
  let b := mcBase w
  if d.runs b || d.ust b = .draining then
    (d.modExt fun x => { x with refresh := x.refresh.put w rate }).raiseIf (decide (8 < rate)) b Reg.MC_EVENT.DRAM_HOT
  else d
def execDramHot (w : Fin 2) (rate : Nat) (s : State) : Answer := onDev (opDramHot w rate) s

/-- The address of word `k` of region `r`'s registers. -/
def regionAddr (r k : Nat) : Nat := cryptoBase + Reg.REG_BASE.off + 16 * r + 4 * k

/-- A write of a region register is stored only while the engine is STOPPED or OFF (R336). -/
def Dev.regionWrite (d : Dev) (a : Nat) (w : Word) : Dev := if d.atRest cryptoBase then d.storeRw a w else d.ctrlReject cryptoBase

def opRegionWrite (path : Fin 8) (r : Fin 16) (k : Fin 4) (value : Word) (d : Dev) : Dev :=
  d.viaWord path (regionAddr r k) value fun d => d.regionWrite (regionAddr r k) value
def execRegionWrite (path : Fin 8) (r : Fin 16) (k : Fin 4) (value : Word) (s : State) : Answer :=
  onDev (opRegionWrite path r k value) s

/-! ## Movers (R332 to R334, R337) -/

/-- MV_CTRL.GO starts the chain at MV_DESC. -/
def Dev.moverGo (d : Dev) (m : Nat) : Dev :=
  let b := moverBase m
  if d.ext.chains.has m || !d.runs b then d.setFld b Reg.MV_STATUS.ERR mvRejected
  else
    let a := (d.reg (b + Reg.MV_DESC_LO.ADDR_LO.off)).toNat + d.fld b Reg.MV_DESC_HI.ADDR_HI * 2 ^ 32
    (d.modExt fun x => { x with chains := x.chains.put m { desc := a } }).setFld b Reg.MV_STATUS.BUSY 1

def opMoverGo (path : Fin 8) (m : Fin 8) (d : Dev) : Dev :=
  d.viaCtl path (moverBase m + Reg.MV_CTRL.GO.off) [(Reg.MV_CTRL.GO, 1)] fun d => d.moverGo m
def execMoverGo (path : Fin 8) (m : Fin 8) (s : State) : Answer := onDev (opMoverGo path m) s

/-- A descriptor's fields (R332). -/
structure MoverDesc where
  src  : Nat
  dst  : Nat
  fill : Bool
  irq  : Bool
  last : Bool
  len  : Nat
  next : Nat
deriving DecidableEq, Repr

/-- The fields a mover of an interface reads: KEY replaces the key identifiers when KEY_SEL is 1; interface 1 takes KEY,
KEY_SEL and OP as 0 (R317, R337). -/
def moverDesc (major : Nat) (w : RowWord) : MoverDesc :=
  let n := w.toNat
  let keyed := major != 1 && bitOf n 124
  let pick (a : Nat) : Nat := if keyed then a % 2 ^ 52 + bitsOf n 120 4 * 2 ^ 52 else a
  { src := pick (bitsOf n 0 56), dst := pick (bitsOf n 64 56), fill := major != 1 && bitOf n 125, irq := bitOf n 126
    last := bitOf n 127, len := bitsOf n 128 24, next := bitsOf n 192 56 }

/-- The status with which a descriptor ends before any access (R317, R333); a FILL has no source address. -/
def MoverDesc.bar (m : MoverDesc) : Option Nat :=
  if m.len = 0 ∨ m.next % 32 ≠ 0 then some mvBadDesc
  else if dsKeyOf m.dst ≠ 0 ∨ (!m.fill && dsKeyOf m.src != 0) then some mvKey
  else none

/-- Reads `n` bytes, at most 64, at a byte address; the first byte is the lowest of the number. -/
def Dev.moverFetch (d : Dev) (a n : Nat) : Dev × Bool × Nat :=
  let o := a % 64
  let (d, s0, l0) := d.dsRead clsMover a ((2 ^ n - 1) * 2 ^ o) {}
  if !dsDone s0 then (d, false, 0)
  else if o + n ≤ 64 then (d, true, l0.toNat >>> (8 * o))
  else
    let (d, s1, l1) := d.dsRead clsMover (a + 64) (2 ^ (o + n - 64) - 1) {}
    (d, dsDone s1, (l0.toNat + l1.toNat * 2 ^ 512) >>> (8 * o))

/-- The fill word's bytes from a place in the transfer on. -/
def fillBytes (word done : Nat) : Nat := ofBytes ((List.range 64).map fun i => byteOf word ((done + i) % 4))

/-- The transfer in ascending order, one line of the destination at a time: whether it ended, and the bytes written. -/
def Dev.moverRun (m : MoverDesc) : Nat → Dev → Nat → Dev × Bool × Nat
  | 0, d, done => (d, true, done)
  | f + 1, d, done =>
    if m.len ≤ done then (d, true, done)
    else
      let t := m.dst + done
      let o := t % 64
      let n := min (64 - o) (m.len - done)
      let (d, ok, bytes) := if m.fill then (d, true, fillBytes m.src done) else d.moverFetch (m.src + done) n
      if !ok then (d, false, done)
      else
        let (d, st) := d.dsWrite clsMover t ((2 ^ n - 1) * 2 ^ o) false (BitVec.ofNat 512 (bytes * 2 ^ (8 * o))) {}
        if dsDone st then Dev.moverRun m f d (done + n) else (d, false, done)

/-- The running descriptor ends. The mover executes it here whole: reads it, moves its bytes, writes STAT and goes on to
the next or stops the chain. -/
def opDescriptorEnd (m : Fin 8) (ports : List PortFound) (d : Dev) : Dev :=
  d.withPorts ports fun d =>
  let b := moverBase m
  match d.ext.chains.look m with
  | none => d
  | some c =>
    if !(d.runs b || d.ust b = .draining) then d
    else
      let (d, st, w) := d.dsRead32 clsMover c.desc
      if !dsDone st then (d.moverErr m mvDescRead)
      else
        let q := moverDesc (d.fld b Reg.UNIT_VER.MAJOR) w
        let (d, res) : Dev × Nat :=
          match q.bar with
          | some r => (d, r)
          | none =>
            let (d, ok, n) := Dev.moverRun q (q.len / 64 + 2) d 0
            (d.countBy b Reg.MV_BYTES_COUNT.COUNT n, if ok then mvOk else mvBusError)
        let (d, ws) := d.moverStat c.desc res
        let res := if res = mvOk && !dsDone ws then mvBusError else res
        let d := d.raiseIf q.irq b Reg.MV_EVENT.DESC_DONE
        let d :=
          if res ≠ mvOk then d.moverErr m res
          else if q.last then (d.moverStop m).raise b Reg.MV_EVENT.CHAIN_DONE
          else if d.ust b = .draining then d.moverStop m
          else d.modExt fun x => { x with chains := x.chains.put m { desc := q.next } }
        d
def execDescriptorEnd (m : Fin 8) (ports : List PortFound) (s : State) : Answer := onDev (opDescriptorEnd m ports) s

end Sys2Proof.Machine
end

