-- ==== Sys2Proof/Machine/Blocks.lean ====
section
/-!
DEFINITION. The block layer of a lane: headers, the descrambler, block lock, the elastic buffer (R126 to R137) and the
checker of a proof loop (R494 to R496).
-/
namespace Sys2Proof.Machine

/-! ## The descrambler (R128) -/

/-- One payload bit: the memory's bits 38 and 57 are the bits received 39 and 58 before. -/
def descrambleBit (s : BitVec 58 × Nat) (i : Nat) (p : Payload) : BitVec 58 × Nat :=
  let b := p.getLsbD i
  let o := (b ^^ s.1.getLsbD 38) ^^ s.1.getLsbD 57
  ((s.1 <<< 1) ||| BitVec.ofNat 58 (bit01 b), s.2 + bit01 o * 2 ^ i)

/-- The descrambler's memory after a payload, and the payload it recovers. -/
def descramble (mem : BitVec 58) (p : Payload) : BitVec 58 × Payload :=
  let r := (List.range 64).foldl (fun s i => descrambleBit s i p) (mem, 0)
  (r.1, BitVec.ofNat 64 r.2)

/-! ## The checker of a proof loop (R494) -/

/-- The next bit of a pattern from the last 31, the newest least significant; the PRBS31 of ITU-T O.150 is inverted
(PRESUMED, log entry 24). -/
def patternNext (pattern : Nat) (h : BitVec 31) : Bool :=
  if pattern = 1 then h.getLsbD 6 ^^ h.getLsbD 5
  else if pattern = 2 then !h.getLsbD 0
  else !(h.getLsbD 30 ^^ h.getLsbD 27)

/-- A payload bit meets the checker: the sequence, the bits seeded and the errors. -/
def checkBit (pattern : Nat) (s : BitVec 31 × Nat × Nat) (b : Bool) : BitVec 31 × Nat × Nat :=
  if s.2.1 < 31 then ((s.1 <<< 1) ||| BitVec.ofNat 31 (bit01 b), s.2.1 + 1, s.2.2)
  else
    let e := patternNext pattern s.1
    ((s.1 <<< 1) ||| BitVec.ofNat 31 (bit01 e), s.2.1, s.2.2 + bit01 (e ^^ b))

/-- The first error since the log was read. -/
def Dev.proofLog (d : Dev) (o info : Nat) : Dev :=
  if d.flag o Reg.PRF_LOG.VALID then d else (d.setFld o Reg.PRF_LOG.INFO info).raise o Reg.PRF_LOG.VALID

/-- A data block reaches a lane's checker. -/
def Dev.proofCheck (d : Dev) (n : Nat) (p : Payload) : Dev :=
  let b := laneBase n
  let o := b + 0x600
  let r := d.proofRec b
  let s := (List.range 64).foldl (fun s i => checkBit (d.fld o Reg.PRF_CTRL.PATTERN) s (p.getLsbD i)) (r.seq, r.seed, 0)
  let errs := s.2.2
  let d := d.modProof b fun r =>
    { r with seq := s.1, seed := s.2.1, pos := r.pos + 1
             errs := (if errs = 0 then r.errs else r.errs ++ [(r.pos, errs)]).filter fun e => decide (r.pos < e.1 + 1024) }
  let d := if s.2.1 = 31 then d.setFld o Reg.PRF_STATUS.SYNC 1 else d
  if errs = 0 then d else (d.countBy o Reg.PRF_ERR_COUNT.COUNT errs).proofLog o (min errs 0xFF)

/-- Counts a block toward the next 1,024. -/
def Dev.proofBlocks (d : Dev) (n : Nat) (tx : Bool) : Dev :=
  let b := laneBase n
  let k := (if tx then (d.proofRec b).txBlocks else (d.proofRec b).rxBlocks) + 1
  let d := d.modProof b fun r => if tx then { r with txBlocks := k % 1024 } else { r with rxBlocks := k % 1024 }
  if k = 1024 then d.count (b + 0x600) (if tx then Reg.PRF_TX_COUNT.COUNT else Reg.PRF_RX_COUNT.COUNT) else d

/-! ## Block lock (R129 to R133) -/

/-- The time a start spends in SLIP does not count toward its limit (R110). -/
def Dev.slipEnds (d : Dev) (n : Nat) : Dev :=
  if d.blkState n = blkSlip then
    d.modLane n fun r => { r with slipTicks := r.slipTicks + (d.tick - r.slipSince), slipSince := d.tick }
  else d

/-- The filler with which the elastic buffer starts (R136). -/
def idleItem : EbItem := .block true (BitVec.ofNat 64 ctlIdle)

/-- BLK_STATUS.EB_OCC follows the buffer. -/
def Dev.showOcc (d : Dev) (n : Nat) : Dev := d.setFld (laneBase n) Reg.BLK_STATUS.EB_OCC (d.lane n).eb.length

/-- Block lock is declared: the lane's ready when it is STARTING (R109, R129). -/
def Dev.lockGained (d : Dev) (n : Nat) : Dev :=
  let b := laneBase n
  let d := (((d.slipEnds n).setBlk n blkLocked).setFld b Reg.BLK_STATUS.RUN 64).raise b Reg.BLK_EVENT.LOCK
  let d := d.modLane n fun r =>
    { r with eb := [idleItem, idleItem], winPos := 0, winBad := 0, sinceQuad := 0, evidence := none, lastStamp := none, rx := .outside }
  ((d.showOcc n).negoLock n).ready b

/-- A header is tested in HUNT or SLIP. -/
def Dev.huntBlock (d : Dev) (n : Nat) (valid : Bool) : Dev :=
  let b := laneBase n
  let hunt := d.blkState n == blkHunt
  let d := if hunt then d.modLane n fun r => { r with huntCount := r.huntCount + 1 } else d
  if valid then
    let run := d.fld b Reg.BLK_STATUS.RUN + 1
    if run = 64 then d.lockGained n else d.setFld b Reg.BLK_STATUS.RUN run
  else
    let d := d.setFld b Reg.BLK_STATUS.RUN 0
    if hunt then d.setFld b Reg.BLK_STATUS.OFFSET ((d.fld b Reg.BLK_STATUS.OFFSET + 1) % 66) else d

/-! ## The elastic buffer (R134 to R137) -/

def EbItem.isQuad : EbItem → Bool
  | .block true p => ctlType p == ctlQuad
  | _ => false

/-- Blocks of a message: those that R147 does not let stand anywhere. -/
def EbItem.ofMessage : EbItem → Bool
  | .block true p => ctlType p == ctlSom || ctlType p == ctlEom
  | .block false _ => true
  | .marker => true

/-- A write finds the buffer full (R137). -/
def Dev.ebOverflow (d : Dev) (n : Nat) (i : EbItem) : Dev :=
  let b := laneBase n
  let gone := (d.lane n).eb ++ [i]
  let lost := ebMessages d.now (d.version n) (d.rxOpen n) gone
  let d := (d.raise b Reg.BLK_EVENT.EB_OVERFLOW).count b Reg.EB_OVF_COUNT.COUNT
  let d := d.modLane n fun r => { r with eb := [idleItem, idleItem] }
  if gone.any EbItem.ofMessage then
    (d.modLane n fun r => { r with rx := .outside }).each lost fun d m => d.crcFail n m.ver m.som m.cross
  else d

/-- Deletes QUADs at the head while the occupancy is 3 or more (R136). -/
def Dev.ebTrim : Nat → Dev → Nat → Dev
  | 0, d, _ => d
  | k + 1, d, n =>
    match (d.lane n).eb with
    | i :: t =>
      if i.isQuad && decide (2 ≤ t.length) then
        Dev.ebTrim k ((d.modLane n fun r => { r with eb := t }).count (laneBase n) Reg.QUAD_DEL_COUNT.COUNT) n
      else d
    | [] => d

/-- A block or an error marker enters the buffer. -/
def Dev.ebWrite (d : Dev) (n : Nat) (i : EbItem) : Dev :=
  let d := d.modLane n fun r => { r with sinceQuad := if i.isQuad then 0 else r.sinceQuad + 1 }
  if 8 ≤ (d.lane n).eb.length then d.ebOverflow n i
  else (d.modLane n fun r => { r with eb := r.eb ++ [i] }).ebTrim 8 n

/-- In the far-end loop every block that leaves the buffer is sent again, scrambled anew; a QUAD among them is none of R134's. What
goes out in the place of a block with an invalid header is left open (R496). -/
def Dev.retransmit (d : Dev) (n : Nat) (i : EbItem) : Dev :=
  if !d.looped n then d
  else match i with
    | .block c p =>
      if i.isQuad then d.modLink n fun l => { l.put (d.txPol n) true p with lastTx := some (.control p) }
      else (d.sendBlocks n [(c, p)]).modLink n fun l => { l with lastTx := some (if c then .control p else .data p) }
    | .marker =>
      let p := BitVec.ofNat 64 (Config.freeAt d.free 0)
      (d.drew.sendBlocks n [(Config.freeBool d.free, p)]).modLink n fun l => { l with lastTx := none }

/-- What the buffer gives out goes to the message layer, or to the checker of a proof loop, and in the far-end loop to the
transmitter. A PROOF that meets a loop of CTRL is refused (R175). -/
def Dev.ebOut (d : Dev) (n : Nat) (i : EbItem) : Dev :=
  let d := d.retransmit n i
  if d.proving (laneBase n) then
    match i with
    | .block false p => d.proofCheck n p
    | .block true p => if ctlType p = ctlProof then d.controlBlock n p else d
    | .marker => d
  else d.rxItem n i

/-- The buffer is read: at an occupancy of 1 it gives out an inserted QUAD (R136). -/
def Dev.ebRead : Nat → Dev → Nat → Dev
  | 0, d, _ => d
  | k + 1, d, n =>
    match (d.lane n).eb with
    | [] => d
    | [_] => Dev.ebRead k ((d.count (laneBase n) Reg.QUAD_INS_COUNT.COUNT).retransmit n (.block true (BitVec.ofNat 64 ctlQuad))) n
    | i :: t => Dev.ebRead k (((d.modLane n fun r => { r with eb := t }).ebOut n i).ebTrim 8 n) n

/-- A block in LOCKED (R130, R136). -/
def Dev.lockedBlock (d : Dev) (n : Nat) (valid : Bool) (i : EbItem) (reads : Nat) : Dev :=
  let b := laneBase n
  let r := d.lane n
  let bad := r.winBad + bit01 (!valid)
  let last := decide (r.winPos + 1 = 64)
  let d := if valid then d else d.count b Reg.HDR_ERR_COUNT.COUNT
  if !valid && decide (16 ≤ bad) then d.lockLost n
  else
    let d := d.modLane n fun r => { r with winPos := if last then 0 else r.winPos + 1, winBad := if last then 0 else bad }
    ((d.ebWrite n (if valid then i else .marker)).ebRead reads n).showOcc n

/-! ## The commands -/

/-- A bit of a looped stream that INJECT flips (R493): which one is left open. -/
def Dev.injectBlock (d : Dev) (n : Nat) (p : Payload) : Dev × Payload :=
  let b := laneBase n
  if (d.proofRec b).inject then
    ((d.modProof b fun r => { r with inject := false }).drew, p ^^^ BitVec.ofNat 64 (2 ^ (Config.freeAt d.free 0 % 64)))
  else (d, p)

/-- A 66-bit block at the boundary in force: its header H[1:0] and its payload as they arrive (R126 to R133). At depth 0 the
line receiver is ignored. -/
def opBlockReceive (n : Fin 144) (header : BitVec 2) (payload : Payload) (reads : Fin 16) (d : Dev) : Dev :=
  let b := laneBase n
  let depth := d.proofDepth b
  let inner := depth == some 1 || depth == some 2
  if !(d.ust b).active || depth == some 0 || d.blkState n == blkIdle || !d.signalReady n || !d.groupLocked n then d
  else
    let d := if inner then d.proofBlocks n true else d
    let (d, payload) := if inner then d.injectBlock n payload else (d, payload)
    let d := if inner then d.modLink n fun l => { l with line := lineBits (d.txPol n) header.toNat payload } else d
    let pol := !inner && fget (d.lane n).cfg Reg.LANE_CFG.RX_POL == 1
    let h := if pol then ~~~header else header
    let p := if pol then ~~~payload else payload
    let (mem, q) := descramble (d.lane n).descr p
    let d := d.modLane n fun r => { r with descr := mem }
    let valid := h == 1#2 || h == 2#2
    if d.blkState n = blkLocked then
      let d := if depth.isSome then d.proofBlocks n false else d
      d.lockedBlock n valid (.block (h == 2#2) q) reads
    else d.huntBlock n valid
def execBlockReceive (n : Fin 144) (header : BitVec 2) (payload : Payload) (reads : Fin 16) (s : State) : Answer :=
  onDev (opBlockReceive n header payload reads) s

/-- The hunt limit is reached (R132). -/
def opHuntExpired (n : Fin 144) (d : Dev) : Dev :=
  let b := laneBase n
  let limit := d.fld b Reg.BLK_HUNT_LIMIT.LIMIT
  if d.blkState n = blkHunt ∧ limit ≠ 0 ∧ limit ≤ (d.lane n).huntCount then
    ((d.setBlk n blkSlip).raise b Reg.BLK_EVENT.HUNT_EXPIRED).modLane n fun r => { r with slipSince := d.tick }
  else d
def execHuntExpired (n : Fin 144) (s : State) : Answer := onDev (opHuntExpired n) s

/-- A write of 1 to BITSLIP (R132, R133). -/
def Dev.bitslip (d : Dev) (n : Nat) : Dev :=
  let b := laneBase n
  if d.blkState n = blkSlip then
    (d.setFld b Reg.BLK_STATUS.OFFSET ((d.fld b Reg.BLK_STATUS.OFFSET + 1) % 66)).setFld b Reg.BLK_STATUS.RUN 0
  else d.raise b Reg.BLK_EVENT.BLK_REJECT

/-- SLIP returns to HUNT, where the limit restarts. -/
def Dev.slipToHunt (d : Dev) (n : Nat) : Dev :=
  ((d.slipEnds n).setBlk n blkHunt).modLane n fun r => { r with huntCount := 0 }

/-- A write of 1 to REHUNT (R133). -/
def Dev.rehunt (d : Dev) (n : Nat) : Dev :=
  let b := laneBase n
  if d.blkState n = blkSlip && !d.flag b Reg.BLK_CTRL.FORCE_MANUAL then d.slipToHunt n
  else d.raise b Reg.BLK_EVENT.BLK_REJECT

/-- FORCE_MANUAL takes a value (R133). -/
def Dev.forceManual (d : Dev) (n : Nat) (v : Bool) : Dev :=
  let b := laneBase n
  let old := d.flag b Reg.BLK_CTRL.FORCE_MANUAL
  let d := d.setFld b Reg.BLK_CTRL.FORCE_MANUAL (bit01 v)
  if v && !old && d.blkState n == blkHunt then (d.setBlk n blkSlip).modLane n fun r => { r with slipSince := d.tick }
  else if !v && old && d.blkState n == blkSlip then d.slipToHunt n
  else d

def blkCtrlAddr (n : Nat) : Nat := laneBase n + Reg.BLK_CTRL.off

def opBitslip (path : Fin 8) (n : Fin 144) (d : Dev) : Dev := 
  d.viaCtl path (blkCtrlAddr n) [(Reg.BLK_CTRL.BITSLIP, 1)] fun d => d.bitslip n
def execBitslip (path : Fin 8) (n : Fin 144) (s : State) : Answer := onDev (opBitslip path n) s

def opRehunt (path : Fin 8) (n : Fin 144) (d : Dev) : Dev := 
  d.viaCtl path (blkCtrlAddr n) [(Reg.BLK_CTRL.REHUNT, 1)] fun d => d.rehunt n
def execRehunt (path : Fin 8) (n : Fin 144) (s : State) : Answer := onDev (opRehunt path n) s

def opForceManualWrite (path : Fin 8) (n : Fin 144) (value : Bool) (d : Dev) : Dev :=
  d.viaCtl path (blkCtrlAddr n) [(Reg.BLK_CTRL.FORCE_MANUAL, bit01 value)] fun d => d.forceManual n value
def execForceManualWrite (path : Fin 8) (n : Fin 144) (value : Bool) (s : State) : Answer :=
  onDev (opForceManualWrite path n value) s

/-- INTERVAL other blocks have left since the last QUAD, those that the model has not seen being IDLEs, and the transmitter sends a
QUAD (R134). In the far-end loop the blocks between are those received. -/
def opQuadTransmit (n : Fin 144) (d : Dev) : Dev :=
  if !d.flag (laneBase n) Reg.LANE_STATUS.TX_ACTIVE || d.looped n then d
  else
    let i := quadInterval (d.fld (laneBase n) Reg.TX_QUAD.INTERVAL)
    let idles := List.replicate (max 1 (i - (d.link n).txCount)) (true, BitVec.ofNat 64 ctlIdle)
    (d.sendBlocks n idles).modLink n fun l => { l with lastTx := some (.control (BitVec.ofNat 64 ctlQuad)) }
def execQuadTransmit (n : Fin 144) (s : State) : Answer := onDev (opQuadTransmit n) s

/-- More than 4,096 blocks have passed in LOCKED without a QUAD, and again after every 4,096 more (R137). -/
def opQuadMissing (n : Fin 144) (d : Dev) : Dev :=
  if d.blkState n = blkLocked ∧ 4096 < (d.lane n).sinceQuad then
    (d.raise (laneBase n) Reg.BLK_EVENT.QUAD_MISSING).modLane n fun r => { r with sinceQuad := r.sinceQuad - 4096 }
  else d
def execQuadMissing (n : Fin 144) (s : State) : Answer := onDev (opQuadMissing n) s

end Sys2Proof.Machine
end

