-- ==== Sys2Proof/Machine/Molmevo.lean ====
section
/-!
DEFINITION. The Molmevo commands: control blocks and messages as they arrive whole, and what a lane transmits ("The Molmevo
Link Protocol").
-/
namespace Sys2Proof.Machine

/-! ## Control blocks received -/

/-- A whole control block of a type reaches the message layer, or the loop of CTRL that sends it back (R489). -/
def Dev.blockIn (d : Dev) (n typ : Nat) (p : Payload) : Dev :=
  if (d.listens n || d.loopsBack n) && ctlType p == typ then d.ebOut n (.block true p) else d

def opMark (n : Fin 144) (block : Payload) (d : Dev) : Dev := d.blockIn n ctlMark block
def execMark (n : Fin 144) (block : Payload) (s : State) : Answer := onDev (opMark n block) s

def opAnnounce (n : Fin 144) (block : Payload) (d : Dev) : Dev := d.blockIn n ctlAnnounce block
def execAnnounce (n : Fin 144) (block : Payload) (s : State) : Answer := onDev (opAnnounce n block) s

def opCredit (n : Fin 144) (block : Payload) (d : Dev) : Dev := d.blockIn n ctlCredit block
def execCredit (n : Fin 144) (block : Payload) (s : State) : Answer := onDev (opCredit n block) s

def opProof (n : Fin 144) (block : Payload) (d : Dev) : Dev := d.blockIn n ctlProof block
def execProof (n : Fin 144) (block : Payload) (s : State) : Answer := onDev (opProof n block) s

def opAlarm (n : Fin 144) (block : Payload) (d : Dev) : Dev := d.blockIn n ctlAlarm block
def execAlarm (n : Fin 144) (block : Payload) (s : State) : Answer := onDev (opAlarm n block) s

/-! ## Messages received -/

/-- A whole message of a type reaches the message layer. -/
def Dev.messageIn (d : Dev) (n typ : Nat) (m : WireMsg) : Dev :=
  if d.listens n && somType m.som == typ then d.each (wireItems m) fun d i => d.ebOut n i else d

/-- The message echo of proof depth 0: a generated message returns to the message checks and the next one is generated (R495).
An injected error corrupts its CRC (R493). -/
def Dev.echo (d : Dev) (n : Nat) (m : WireMsg) : Dev :=
  let b := laneBase n
  let o := b + 0x600
  if d.flag o Reg.PRF_STATUS.LOOPING then
    let hurt := (d.proofRec b).inject
    let good := !hurt && chkOk m.som && messageOk 0x21 m.som m.data m.eom && messageOk 0x10 m.som m.data m.eom
    let d := (d.modProof b fun r => { r with inject := false }).setFld o Reg.PRF_STATUS.SYNC 1
    let d := if d.flag o Reg.PRF_STATUS.GEN then d.count o Reg.PRF_TX_COUNT.COUNT else d
    let d := d.count o Reg.PRF_RX_COUNT.COUNT
    if good then d
    else
      let bits := if hurt then Config.freeAt d.free 0 % 256
        else min 255 (popCount 64 (m.eom ^^^ eomOf 0x21 m.som m.data).toNat)
      (d.drew.count o Reg.PRF_ERR_COUNT.COUNT).proofLog o bits
  else d

/-- At proof depth 0 the command is the loop's own message. -/
def opHit (n : Fin 144) (m : WireMsg) (d : Dev) : Dev :=
  if d.proofDepth (laneBase n) = some 0 then d.echo n m else d.messageIn n msgHit m
def execHit (n : Fin 144) (m : WireMsg) (s : State) : Answer := onDev (opHit n m) s

def opPrimitive (n : Fin 144) (m : WireMsg) (d : Dev) : Dev := d.messageIn n msgPrimitive m
def execPrimitive (n : Fin 144) (m : WireMsg) (s : State) : Answer := onDev (opPrimitive n m) s

def opDecision (n : Fin 144) (m : WireMsg) (d : Dev) : Dev := d.messageIn n msgDecision m
def execDecision (n : Fin 144) (m : WireMsg) (s : State) : Answer := onDev (opDecision n m) s

def opAccept (n : Fin 144) (m : WireMsg) (d : Dev) : Dev := d.messageIn n msgAccept m
def execAccept (n : Fin 144) (m : WireMsg) (s : State) : Answer := onDev (opAccept n m) s

def opFragment (n : Fin 144) (m : WireMsg) (d : Dev) : Dev := d.messageIn n msgFragment m
def execFragment (n : Fin 144) (m : WireMsg) (s : State) : Answer := onDev (opFragment n m) s

def opMgmtRead (n : Fin 144) (m : WireMsg) (d : Dev) : Dev := d.messageIn n msgMgmtRead m
def execMgmtRead (n : Fin 144) (m : WireMsg) (s : State) : Answer := onDev (opMgmtRead n m) s

def opMgmtWrite (n : Fin 144) (m : WireMsg) (d : Dev) : Dev := d.messageIn n msgMgmtWrite m
def execMgmtWrite (n : Fin 144) (m : WireMsg) (s : State) : Answer := onDev (opMgmtWrite n m) s

def opMgmtResp (n : Fin 144) (m : WireMsg) (d : Dev) : Dev := d.messageIn n msgMgmtResp m
def execMgmtResp (n : Fin 144) (m : WireMsg) (s : State) : Answer := onDev (opMgmtResp n m) s

def opEventMessage (n : Fin 144) (m : WireMsg) (d : Dev) : Dev := d.messageIn n msgEvent m
def execEventMessage (n : Fin 144) (m : WireMsg) (s : State) : Answer := onDev (opEventMessage n m) s

def opControl (n : Fin 144) (m : WireMsg) (d : Dev) : Dev := d.messageIn n msgControl m
def execControl (n : Fin 144) (m : WireMsg) (s : State) : Answer := onDev (opControl n m) s

/-! ## Negotiation -/

/-- ANNOUNCE leaves, every 1,024 blocks while the T7 sends it (R160). -/
def opAnnounceTransmit (n : Fin 144) (d : Dev) : Dev :=
  if d.flag (laneBase n) Reg.LINK_STATE.ANNOUNCE_TX then d.sendAnnounce n else d
def execAnnounceTransmit (n : Fin 144) (s : State) : Answer := onDev (opAnnounceTransmit n) s

/-- 4,096 blocks have passed in ANNOUNCING and no ANNOUNCE was received (R164). -/
def opAnnounceTimeout (n : Fin 144) (d : Dev) : Dev :=
  let b := laneBase n
  if d.nego n = negoAnnouncing ∧ !(d.link n).annSeen then
    let d := ((d.setNego n negoAssumed).setFld b Reg.LINK_STATE.ANNOUNCE_TX 0).raise b Reg.LINK_EVENT.ASSUMED_1_0
    ((d.setFld b Reg.LINK_VER.NEGOTIATED 0x10).setReg (b + Reg.AGREED_FEAT.FEATURES.off) 0).txPurge n
  else d
def execAnnounceTimeout (n : Fin 144) (s : State) : Answer := onDev (opAnnounceTimeout n) s

def linkCtrlAddr (n : Nat) : Nat := laneBase n + Reg.LINK_CTRL.off

def opRenegotiate (path : Fin 8) (n : Fin 144) (d : Dev) : Dev := 
  d.viaCtl path (linkCtrlAddr n) [(Reg.LINK_CTRL.RENEGOTIATE, 1)] fun d => d.renegotiate n
def execRenegotiate (path : Fin 8) (n : Fin 144) (s : State) : Answer := onDev (opRenegotiate path n) s

/-! ## What a lane transmits (R168 to R175) -/

/-- CREDIT leaves at 1.1 and later (R169). -/
def opCreditTransmit (n : Fin 144) (d : Dev) : Dev :=
  if d.version n < 0x11 || d.looped n then d
  else
    let l := d.link n
    (d.sendControl n (withChk (ctlCredit + l.rxLimF % 2 ^ 16 * 2 ^ 8 + l.rxLimM % 2 ^ 16 * 2 ^ 24))).modLink n fun l =>
      { l with creditDue := false }
def execCreditTransmit (n : Fin 144) (s : State) : Answer := onDev (opCreditTransmit n) s

/-- The rank of a message type at a message boundary (R170). -/
def txRank (typ : Nat) : Nat :=
  if typ = msgDecision then 0 else if typ = msgAccept then 1 else if typ = msgPrimitive then 2 else if typ = msgHit then 3
  else match creditClass typ with | .f => 5 | _ => 4

/-- One originator, whichever of its messages. -/
def Originator.same : Originator → Originator → Bool
  | .engine a, .engine b => a == b
  | .fabric _, .fabric _ => true
  | .mgmt, .mgmt => true
  | .remote _, .remote _ => true
  | .eventNotice, .eventNotice => true
  | _, _ => false

/-- Credit allows a message; in the far-end loop credited messages wait (R168, R175). -/
def Dev.txAllowed (d : Dev) (n : Nat) (m : Msg) : Bool :=
  let l := d.link n
  let u := msgUnits m.body.length
  match creditClass m.typ with
  | .none => true
  | .f => !d.looped n && decide (u ≤ (l.limitF + 2 ^ 16 - l.consF % 2 ^ 16) % 2 ^ 16)
  | .m => !d.looped n && decide (u ≤ (l.limitM + 2 ^ 16 - l.consM % 2 ^ 16) % 2 ^ 16)

/-- The waiting message that begins: the best rank among those credit allows, in queue order within a type and originator. -/
def txBest (allowed : Msg → Bool) : List TxMsg → List TxMsg → Option TxMsg → Option TxMsg
  | _, [], best => best
  | before, t :: rest, best =>
    let first := !before.any fun u => u.msg.typ == t.msg.typ && u.orig.same t.orig
    let better := match best with | none => true | some u => decide (txRank t.msg.typ < txRank u.msg.typ)
    txBest allowed (before ++ [t]) rest (if first && allowed t.msg && better then some t else best)

/-- An EVENT message takes its sequence number as it begins, so that one not sent uses none (R93). -/
def Dev.numbered (d : Dev) (t : TxMsg) : Dev × TxMsg :=
  match t.orig with
  | .eventNotice =>
    (d.modCtl fun c => { c with eventSeq := (c.eventSeq + 1) % 2 ^ 16 }, { t with msg := { t.msg with route := d.ctl.eventSeq } })
  | _ => (d, t)

/-- An ACCEPT leaves with PRIORITY at 0 where that feature is not agreed (R154, R163). -/
def Dev.shaped (d : Dev) (n : Nat) (m : Msg) : Msg :=
  if m.typ = msgAccept ∧ d.agreed n featPriority = false then
    { m with body := m.body.mapIdx fun i p => if i = 1 then p &&& ~~~(BitVec.ofNat 64 (15 * 2 ^ 20)) else p }
  else m

/-- A message begins and is sent whole (R150, R168, R170, R200, R279). -/
def Dev.transmit (d : Dev) (n : Nat) (first : TxMsg) : Dev :=
  let (d, t) := d.numbered first
  let t := { t with msg := d.shaped n t.msg }
  let som := somOf t.msg
  let u := msgUnits t.msg.body.length
  let ver := d.version n
  let blocks := (true, som) :: (t.msg.body.map fun p => (false, p)) ++ [(true, eomOf ver som t.msg.body)]
  let d := (d.sendBlocks n blocks).modLink n fun l =>
    { l with
      txQueue := l.txQueue.erase first
      lastTx := some (.message som t.msg.body (eomOf ver som t.msg.body))
      consF := if creditClass t.msg.typ = .f then (l.consF + u) % 2 ^ 16 else l.consF
      consM := if creditClass t.msg.typ = .m then (l.consM + u) % 2 ^ 16 else l.consM
      mgmtTags := if t.msg.typ = msgMgmtResp ∧ t.orig = .mgmt then l.mgmtTags.erase (t.msg.route % 256) else l.mgmtTags }
  (d.txEnd n t.orig true).mgmtServe n

def opMessageTransmit (n : Fin 144) (ports : List PortFound) (d : Dev) : Dev :=
  d.withPorts ports fun d =>
    match txBest (d.txAllowed n) [] (d.link n).txQueue none with
    | some t => d.transmit n t
    | none => d
def execMessageTransmit (n : Fin 144) (ports : List PortFound) (s : State) : Answer := onDev (opMessageTransmit n ports) s

/-- A MARK leaves in a crossing whose number is a multiple of 2^MARK_PERIOD (R173). -/
def opMarkTransmit (n : Fin 144) (d : Dev) : Dev :=
  let b := laneBase n
  if d.flag b Reg.LINK_CTRL.MARK_TX_EN && d.version n != 0 && d.now % 2 ^ d.fld b Reg.LINK_CTRL.MARK_PERIOD == 0 then
    d.sendControl n (withChk (ctlMark + d.now * 2 ^ 8))
  else d
def execMarkTransmit (n : Fin 144) (s : State) : Answer := onDev (opMarkTransmit n) s

/-- PROOF leaves when its feature is agreed (R175). -/
def Dev.proofSend (d : Dev) (n action : Nat) : Dev :=
  if d.agreed n featProof then d.sendControl n (withChk (ctlProof + action * 2 ^ 8)) else d

def opProofOn (path : Fin 8) (n : Fin 144) (d : Dev) : Dev := 
  d.viaCtl path (linkCtrlAddr n) [(Reg.LINK_CTRL.PROOF_ON, 1)] fun d => d.proofSend n 1
def execProofOn (path : Fin 8) (n : Fin 144) (s : State) : Answer := onDev (opProofOn path n) s

def opProofOff (path : Fin 8) (n : Fin 144) (d : Dev) : Dev := 
  d.viaCtl path (linkCtrlAddr n) [(Reg.LINK_CTRL.PROOF_OFF, 1)] fun d => d.proofSend n 2
def execProofOff (path : Fin 8) (n : Fin 144) (s : State) : Answer := onDev (opProofOff path n) s

/-! ## The remote requester (R158) -/

/-- A request leaves, or ends at once as NOT_SENT. -/
def Dev.remGo (d : Dev) (n : Nat) : Dev :=
  let b := laneBase n
  if d.flag b Reg.REM_STATUS.BUSY then d.raise b Reg.LINK_EVENT.REM_REJECT
  else if d.version n < 0x20 || !d.agreed n featMgmt then d.remoteEnd n 0x21
  else
    let tag := (d.link n).nextTag
    let write := d.flag b Reg.REM_CTRL.WRITE
    let addr := BitVec.ofNat 64 (d.fld b Reg.REM_ADDR.ADDR * 4)
    let m : Msg :=
      { typ := if write then msgMgmtWrite else msgMgmtRead, stamp := Config.freeAt d.free 0 % 2 ^ 16, route := tag
        body := if write then [addr, BitVec.ofNat 64 (d.fld b Reg.REM_WDATA.DATA)] else [addr] }
    let d := d.drew.modLink n fun l => { l with nextTag := (tag + 1) % 256, remTick := d.tick, remWrite := write }
    let d := ((d.setFld b Reg.REM_STATUS.TAG tag).setFld b Reg.REM_STATUS.BUSY 1).setFld b Reg.REM_STATUS.STATUS 0
    d.txEnqueue n { msg := m, orig := .remote tag }

/-- A write of REM_CTRL with GO at 1. -/
def opRemGo (path : Fin 8) (n : Fin 16) (write : Bool) (timeout : BitVec 16) (d : Dev) : Dev :=
  let b := laneBase (128 + n)
  d.viaCtl path (b + Reg.REM_CTRL.off)
    [(Reg.REM_CTRL.WRITE, bit01 write), (Reg.REM_CTRL.TIMEOUT, timeout.toNat), (Reg.REM_CTRL.GO, 1)] fun d =>
    ((d.setFld b Reg.REM_CTRL.WRITE (bit01 write)).setFld b Reg.REM_CTRL.TIMEOUT timeout.toNat).remGo (128 + n)
def execRemGo (path : Fin 8) (n : Fin 16) (write : Bool) (timeout : BitVec 16) (s : State) : Answer :=
  onDev (opRemGo path n write timeout) s

/-- TIMEOUT Ticks have passed without a response. -/
def opNoResponse (n : Fin 16) (d : Dev) : Dev :=
  let b := laneBase (128 + n)
  if d.flag b Reg.REM_STATUS.BUSY && decide ((d.link (128 + n)).remTick + d.fld b Reg.REM_CTRL.TIMEOUT ≤ d.tick) then
    d.remoteEnd (128 + n) 0x20
  else d
def execNoResponse (n : Fin 16) (s : State) : Answer := onDev (opNoResponse n) s

end Sys2Proof.Machine
end

