-- ==== Sys2Proof/Machine/Ports.lean ====
section
/-!
DEFINITION. Lane ports: release and delivery frames, the message queues in bank 7 (R46 to R48, R142, R197 to R201).
-/
namespace Sys2Proof.Machine

/-! ## Entries (R199) -/

/-- An entry header word. -/
def entryHead (m : Msg) (cross : Nat) (phase : Bool) : RowWord :=
  BitVec.ofNat 256 (m.typ % 2 ^ 8 + m.body.length % 2 ^ 8 * 2 ^ 8 + m.route % 2 ^ 16 * 2 ^ 16 + cross % 2 ^ 48 * 2 ^ 32 +
    bit01 phase * 2 ^ 255)

/-- Four blocks to a word. -/
def bodyWords : List Payload → List RowWord
  | a :: b :: c :: e :: t => (e ++ c ++ b ++ a) :: bodyWords t
  | [] => []
  | l => [BitVec.ofNat 256 (l.foldr (fun p n => p.toNat + 2 ^ 64 * n) 0)]

/-- Words an entry takes. -/
def Msg.words (m : Msg) : Nat := 1 + (m.body.length + 3) / 4

/-! ## Delivery (R197, R198, R201) -/

/-- The messages of a crossing that fit in a frame, in order, and how many do not. -/
def fitFrame (room : Nat) : List Held → List Held × Nat
  | [] => ([], 0)
  | h :: t =>
    if h.msg.words ≤ room then let r := fitFrame (room - h.msg.words) t; (h :: r.1, r.2)
    else let r := fitFrame room t; (r.1, r.2 + 1)

/-- Writes the words of a frame until a write fails: how many were written. -/
def Dev.frameWrites (d : Dev) (u : BaseUser) : Nat → List RowWord → Dev × Nat
  | _, [] => (d, 0)
  | w, v :: t =>
    let (d, st) := d.baseWrite u w fullMask v
    if st = memOk ∨ st = memCorrected then let r := Dev.frameWrites d u (w + 1) t; (r.1, r.2 + 1) else (d, 0)

/-- Messages of a frame whose words were not all written. -/
def unwritten (pos done : Nat) : List Held → Nat
  | [] => 0
  | h :: t => bit01 (decide (done < pos + h.msg.words)) + unwritten (pos + h.msg.words) done t

/-- The frame of crossing `k` is written into its row. PHASE of its entry headers, which belongs to the passes of a queue, is 0 (DESIGN
CHOICE, log entry 126). -/
def Dev.deliverFrame (d : Dev) (n k st : Nat) (held : List Held) : Dev :=
  let b := laneBase n
  let r := d.lane n
  let words := bitsOf r.portDlv.toNat 4 3
  let (fit, extra) := fitFrame (words - 1) held
  let used := fit.foldl (fun s h => s + h.msg.words) 1
  let head : RowWord := BitVec.ofNat 256
    (k + st * 2 ^ 48 + bit01 (extra != 0) * 2 ^ 50 + fit.length * 2 ^ 51 + used * 2 ^ 59)
  let d := (d.countBy b Reg.DLV_TRUNC_COUNT.COUNT extra).raiseIf (extra != 0) b Reg.PORT_EVENT.TRUNC
  let w := wordIndex (bitsOf r.portCol.toNat 0 8) 7 (bitsOf r.portDlv.toNat 16 11 + k % 32) 0
  let (d, done) := d.frameWrites .delivery w (head :: fit.flatMap fun h => entryHead h.msg h.cross false :: bodyWords h.msg.body)
  let d := if done = 0 then d else d.modLane n fun r => { r with frames := r.frames.put (k % 32) { cross := k, stat := st } }
  let late := unwritten 1 done fit
  if done = used then d
  else (d.countBy b Reg.LATE_COUNT.COUNT late).raise keeperBase Reg.KEEP_EVENT.DATA_LATE

/-- The status a lane presents with crossing `k` (R47, R142): 0 CLOSED, 1 OPEN, 2 GAP, 3 SILENT. -/
def Dev.laneStatus (d : Dev) (n k : Nat) : Nat :=
  let r := d.lane n
  if !(d.runs (laneBase n) && d.blkState n == blkLocked) then 3
  else if r.gaps.any fun g => g.holds k then 2
  else match r.evidence with
    | some e => if crossBefore k e then 0 else 1
    | none => 1

/-- A lane's alignment buffer presents crossing `k`. -/
def Dev.releaseLane (d : Dev) (n k : Nat) : Dev :=
  let b := laneBase n
  if !(d.ust b).active || d.proving b then d
  else
    let st := d.laneStatus n k
    let out := (d.lane n).held.filter fun h => h.cross == k
    let d := d.setFld b Reg.ALIGN_STATUS.LAST st
    let d := (d.modLane n fun r =>
      { r with held := r.held.filter fun h => h.cross != k
               gaps := r.gaps.filter fun g => match g.hi with | some h => !crossBefore h k | none => true }).showFill n
    let r := d.lane n
    if !r.portDlv.getLsbD 0 then d
    else if r.portBad then d.countBy b Reg.LATE_COUNT.COUNT out.length
    else d.deliverFrame n k st out

/-- The lanes whose alignment buffer is in use. -/
def Dev.alignLanes (d : Dev) : List Nat := d.lanes.keys.filter d.aligns

/-- Fabric cycle C of crossing K+R begins (R46). -/
def opRelease (ports : List PortFound) (d : Dev) : Dev :=
  if !d.windowed || d.keeper.released || d.trunkStopped then d
  else
    let k := crossSub d.now (d.fld keeperBase Reg.LATENCY.ALIGN_R)
    let d := d.modKeeper fun x => { x with released := true }
    d.withPorts ports fun d => d.each d.alignLanes fun d n => d.releaseLane n k
def execRelease (ports : List PortFound) (s : State) : Answer := onDev (opRelease ports) s

/-! ## The receive queue (R200) -/

/-- Words of a queue. -/
def queueSize (setting : Word) : Nat := 8 * 2 ^ bitsOf setting.toNat 12 4

/-- A position in the queue after another. -/
def queueNext (size pos : Nat) : Nat := if size ≤ pos then 1 else pos

/-- Where an entry of `w` words goes: the position and whether the queue wraps before it; none when it does not fit behind the
read position, which it must not reach. -/
def queueRoom (size pos rp w : Nat) : Option (Nat × Bool) :=
  if rp ≤ pos then
    if pos + w < size ∨ (pos + w = size ∧ rp ≠ 1) then some (pos, false)
    else if 1 + w < rp then some (1, true)
    else none
  else if pos + w < rp then some (pos, false)
  else none

/-- Writes words from a place on until a write fails. -/
def Dev.queueWrites (d : Dev) (w : Nat) (l : List RowWord) : Dev × Bool :=
  let r := d.frameWrites .laneQueue w l
  (r.1, decide (r.2 = l.length))

/-- The read position that the receive control word gives, read once in a crossing (R200); none where the read fails. -/
def Dev.queueRead (d : Dev) (n : Nat) : Dev × Option Nat :=
  match (d.link n).rxqRead.filter fun x => x.1 == d.now with
  | some x => (d, some x.2)
  | none =>
    let r := d.lane n
    let (d, st, ctl) := d.baseRead .laneQueue (queueWord r.portCol.toNat r.portRxq.toNat 0)
    if st = memOk ∨ st = memCorrected then
      let rp := max 1 (bitsOf ctl.toNat 0 16)
      (d.modLink n fun l => { l with rxqRead := some (d.now, rp) }, some rp)
    else (d, none)

/-- A message's entry is written, its header last; a queue that wraps first gets a header of TYPE 0. -/
def Dev.queueEntry (d : Dev) (n : Nat) (h : Held) : Dev × Bool :=
  let r := d.lane n
  let l := d.link n
  let at_ := queueWord r.portCol.toNat r.portRxq.toNat
  let size := queueSize r.portRxq
  let (d, pos) := d.queueRead n
  match pos with
  | none => (d, false)
  | some rp =>
    match queueRoom size l.rxqPos rp h.msg.words with
    | none => (d, false)
    | some (pos, wrap) =>
      let phase := if wrap then !l.rxqPass else l.rxqPass
      let (d, ok) := d.queueWrites (at_ (pos + 1)) (bodyWords h.msg.body)
      if !ok then (d, false)
      else
        let (d, ok) := d.queueWrites (at_ pos) [entryHead h.msg h.cross phase]
        if !ok then (d, false)
        else
          let (d, ok) := if wrap then d.queueWrites (at_ l.rxqPos) [entryHead {} 0 l.rxqPass] else (d, true)
          if !ok then (d, false)
          else
            let next := pos + h.msg.words
            let d := d.modLink n fun l =>
              { l with rxqPos := queueNext size next, rxqPass := if size ≤ next then !phase else phase }
            (d, true)

/-- Removes the message at a place of a list. -/
def dropAt {α : Type} : Nat → List α → List α
  | _, [] => []
  | 0, _ :: t => t
  | k + 1, x :: t => x :: dropAt k t

/-- Waiting messages in order: the first that is written, or that is uncredited and dropped, ends the step. -/
def Dev.queueTry (d : Dev) (n : Nat) : Nat → List Held → Dev
  | _, [] => d
  | i, h :: t =>
    let b := laneBase n
    let gone (d : Dev) : Dev := d.modLink n fun l => { l with rxWait := dropAt i l.rxWait }
    let (d, ok) := d.queueEntry n h
    if ok then (gone d).creditBack n h.msg.typ h.msg.body.length
    else if creditClass h.msg.typ = .none then
      ((gone d).count b Reg.MSGQ_DROP_COUNT.COUNT).raise b Reg.PORT_EVENT.DROP
    else Dev.queueTry d n (i + 1) t

def opReceiveQueueWrite (n : Fin 144) (ports : List PortFound) (d : Dev) : Dev :=
  d.withPorts ports fun d => d.queueTry n 0 (d.link n).rxWait
def execReceiveQueueWrite (n : Fin 144) (ports : List PortFound) (s : State) : Answer := onDev (opReceiveQueueWrite n ports) s

/-! ## The send queue (R200) -/

/-- Blocks of a message body read from consecutive words. -/
def Dev.readBody (d : Dev) : Nat → Nat → Dev × Option (List Payload)
  | _, 0 => (d, some [])
  | w, k + 1 =>
    let (d, st, v) := d.baseRead .laneQueue w
    if st = memOk ∨ st = memCorrected then
      let r := Dev.readBody d (w + 1) k
      (r.1, r.2.map fun l => (List.range 4).map (fun i => BitVec.ofNat 64 (bitsOf v.toNat (64 * i) 64)) ++ l)
    else (d, none)

/-- Valid entries are read in order and queued for transmission. The first argument bounds how many. -/
def Dev.sendEntries : Nat → Dev → Nat → Dev
  | 0, d, _ => d
  | k + 1, d, n =>
    let r := d.lane n
    let l := d.link n
    let size := queueSize r.portTxq
    let w := queueWord r.portCol.toNat r.portTxq.toNat l.txqPos
    let (d, st, v) := d.baseRead .laneQueue w
    if !(st = memOk || st = memCorrected) || v.getLsbD 255 != l.txqPass then d
    else
      let h := v.toNat
      let len := bitsOf h 8 8
      let next := l.txqPos + 1 + (len + 3) / 4
      if bitsOf h 0 8 = 0 then
        if l.txqPos = 1 then d
        else Dev.sendEntries k (d.modLink n fun l => { l with txqPos := 1, txqPass := !l.txqPass }) n
      else if size < next then d
      else
        let (d, body) := d.readBody (w + 1) ((len + 3) / 4)
        match body with
        | none => d
        | some body =>
          let m : Msg := { typ := bitsOf h 0 8, stamp := bitsOf h 32 16, route := bitsOf h 16 16, body := body.take len }
          let after := queueNext size next
          let d := d.modLink n fun l =>
            { l with txqPos := after, txqPass := if size ≤ next then !l.txqPass else l.txqPass
                     txqOut := l.txqOut ++ [{ word := w, after := after }] }
          Dev.sendEntries k (d.txEnqueue n { msg := m, orig := .fabric w }) n

/-- The T7 examines the head of the send queue at TX_CYCLE of a crossing. -/
def opSendQueueExamine (n : Fin 144) (ports : List PortFound) (d : Dev) : Dev :=
  let r := d.lane n
  if (d.ust (laneBase n)).active && !d.proving (laneBase n) && r.portTxq.getLsbD 16 && !r.portBad then
    d.withPorts ports fun d => Dev.sendEntries (queueSize r.portTxq) d n
  else d
def execSendQueueExamine (n : Fin 144) (ports : List PortFound) (s : State) : Answer := onDev (opSendQueueExamine n ports) s

end Sys2Proof.Machine
end

