-- ==== Sys2Proof/Machine/Edge.lean ====
section
/-!
DEFINITION. Crossing edges: the count and its loads (R38 to R45), the pulses swallowed (R53), the Strike Port's capture, word
and busy line (R291 to R304), and accepts (R300, R301).
-/
namespace Sys2Proof.Machine

/-! ## The edge at the keeper (R38 to R43) -/

/-- A crossing ends whose release did not occur: the data it would have presented is late (R48, R400). -/
def Dev.missRelease (d : Dev) : Dev :=
  if !d.windowed || d.keeper.released then d
  else
    let k := crossSub d.now d.latR
    d.each d.alignLanes fun d n =>
      let out := ((d.lane n).held.filter fun h => h.cross == k).length
      if out = 0 then d
      else
        (((d.modLane n fun r => { r with held := r.held.filter fun h => h.cross != k }).countBy (laneBase n) Reg.LATE_COUNT.COUNT
          out).showFill n).raise keeperBase Reg.KEEP_EVENT.DATA_LATE

/-- A sync value applies to the crossing that begins (R42): the number that crossing takes. A value that falls at an edge
where the trunk is stopped or switching is dropped; that the restart edge itself still counts as such an edge is the model's choice
(DESIGN CHOICE, log entry 29). -/
def Dev.syncApply (d : Dev) : Dev × Nat :=
  let next := crossAdd d.now 1
  match d.keeper.pendingSync with
  | none => (d, next)
  | some v =>
    let d := d.modKeeper fun k => { k with pendingSync := none }
    let armed := d.flag keeperBase Reg.KEEP_STATUS.ARMED
    let disarmed := d.setFld keeperBase Reg.KEEP_STATUS.ARMED 0
    let slip := d.raise keeperBase Reg.KEEP_EVENT.SYNC_SLIP
    if d.trunkStopped then (d, next)
    else
      match d.fld keeperBase Reg.KEEP_CTRL.SYNC_MODE with
      | 0 =>
        if armed then if v = next then (disarmed, next) else (disarmed.raise keeperBase Reg.KEEP_EVENT.CROSS_JUMP, v)
        else if v = next then (d, next)
        else (slip, next)
      | 1 => if v = next then (d, next) else (slip.raise keeperBase Reg.KEEP_EVENT.CROSS_JUMP, v)
      | _ => if v = next then (d, next) else (slip, next)

/-- A jump (R43, R220, R273): the alignment buffers empty, the engines flush, pending plate switches are cancelled, and L
crossings are presented not ready. -/
def Dev.jump (d : Dev) (dest : Nat) : Dev :=
  let d := d.each d.alignLanes fun d n => d.flushHeld n
  let d := d.each (List.range 16) fun d e => d.jumpFlush e dest
  let d := if d.plates.pending.items == [] then d else d.unpendAll.raise configBase Reg.PLATE_EVENT.CANCELLED
  d.modKeeper fun k => { k with notReadyLeft := d.latL }

/-- Breaches keep their distance to the decisions they reach when the number jumps (R43, R55). -/
def Dev.shiftBreaches (d : Dev) (next dest : Nat) : Dev :=
  d.modKeeper fun k => { k with breaches := k.breaches.map fun j => crossAdd j (crossSub dest next) }

/-- The level of CROSS_SYNC: that of the lowest-numbered pin that selects it, function code 9; 0 when none does (R40, R504). -/
def Dev.syncLevel (d : Dev) : Bool :=
  match (List.range 320).find? fun p => d.pinFunc p == 9 with
  | some p => d.padLevel p
  | none => false

/-- CROSS_SYNC is sampled at an edge (R40). -/
def Dev.sampleSync (d : Dev) : Dev :=
  if d.syncLevel && d.fld keeperBase Reg.KEEP_CTRL.SYNC_SRC == 1 then
    let v := (d.reg (keeperBase + Reg.SYNC_VALUE_LO.VALUE_LO.off)).toNat + d.fld keeperBase Reg.SYNC_VALUE_HI.VALUE_HI * 2 ^ 32
    d.modKeeper fun k => { k with pendingSync := some v }
  else d

/-- A crossing begins with a number: what belongs to one crossing begins anew, its fabric cycles among it (R45), one of the crossings that a jump leaves not ready
has passed (R43), and breaches that no later decision meets are forgotten. -/
def Dev.beginCrossing (d : Dev) (now : Nat) : Dev :=
  (d.modFabric fun f => { f with cycle := {} }).modKeeper fun k =>
    { k with now := now, released := false, breachNow := false, swallowed := {}, topP := {}, holds := {}
             notReadyLeft := k.notReadyLeft - 1
             breaches := k.breaches.filter fun j => decide (crossSub now j ≤ d.latL) }

/-- The pulses that each group's divider swallows in the crossing that begins (R53, R54). -/
def Dev.swallow (d : Dev) : Dev :=
  d.each (List.range 16) fun d g =>
    let p := d.groupP g
    if p = 0 then d
    else
      ((d.modKeeper fun k => { k with swallowed := k.swallowed.put g p, topP := k.topP.put g p }).countBy damperBase Reg.DMP_SWALLOW_COUNT.COUNT p).checkBudget g

/-- Decision columns that are fenced make a breach of every crossing (R56). -/
def Dev.fenceBreach (d : Dev) : Dev := if d.strike.columns.any d.fenced then d.breach else d

/-! ## The Strike Port's word (R291, R295) -/

def stNormal : Nat := 0
def stNotReady : Nat := 1
def stThrottled : Nat := 2
def stBreach : Nat := 3
def stDisagree : Nat := 4
def stHold : Nat := 5

/-- Sources of safe hold at this instant, as STK_STATUS[12:8] (R302). -/
def Dev.holdSources (d : Dev) : Nat :=
  bit01 d.kryHold + bit01 d.heat.hold * 2 + bit01 (d.flag strikeBase Reg.STK_CTRL.HOLD) * 4 + bit01 (d.mode == modeProof) * 8 +
    bit01 (!d.runs strikeBase || d.proving strikeBase) * 16

/-- A breach reaches the decision of crossing K (R55). -/
def Dev.breachDue (d : Dev) (k : Nat) : Bool :=
  d.keeper.breaches.any fun j => decide (d.latR ≤ crossSub j k ∧ crossSub j k + 2 ≤ d.latL)

/-- A captured word is ready and tagged K (R52). -/
def sampleGood (s : DpSample) (k : Nat) : Bool := s.ready && s.tag.toNat == k % 2 ^ 12

/-- The word as it stands on STK_D. -/
def strikeWord (k st lines : Nat) : Nat :=
  k % 16 * 2 ^ 12 + lines * 2 ^ 4 + bit01 (st == stNormal || st == stThrottled) * 2 ^ 3 + st

/-- The busy sources of the evaluation interval that ends, those that are enabled (R298). -/
def Dev.busySources (d : Dev) (hold : Bool) : Nat :=
  let s := d.strike
  let seen (i : Nat) := bitOf s.busySeen i
  let en (f : Fld) := d.flag strikeBase f
  let rings := seen busyRings || (List.range 16).any d.ringBusy
  bit01 (en Reg.STK_BUSY_EN.RINGS && rings) +
    bit01 (en Reg.STK_BUSY_EN.FABRIC && (s.capA.busy || s.capB.busy)) * 2 ^ busyFabric +
    bit01 (en Reg.STK_BUSY_EN.ACCEPT && s.refused) * 2 ^ busyAccept +
    bit01 (seen busyForce || en Reg.STK_CTRL.FORCE_BUSY) * 2 ^ busyForce +
    bit01 hold * 2 ^ busyHold + bit01 (seen busyState || !d.runs strikeBase) * 2 ^ busyState

/-- STK_BUSY as presented in the crossing that begins (R299): the line, its counter and its event. -/
def Dev.showBusy (d : Dev) (src : Nat) : Dev × Bool :=
  let b := strikeBase
  let was := d.flag b Reg.STK_STATUS.BUSY
  let left := if src != 0 && !was then d.fld b Reg.STK_CTRL.BUSY_MIN else d.strike.busyLeft
  let busy := src != 0 || left != 0
  let d := d.modStrike fun s => { s with busyLeft := left - 1 }
  let d := if busy && !was then (d.setFld b Reg.STK_STATUS.BUSY_SRC src).raise b Reg.STK_EVENT.BUSY_ON else d
  let d := if busy then d.count b Reg.BUSY_COUNT.COUNT else d
  (d.setFld b Reg.STK_STATUS.BUSY (bit01 busy), busy)

/-- The counter and the event of a presented status (R295). -/
def Dev.countStatus (d : Dev) (st : Nat) : Dev :=
  let b := strikeBase
  let was := d.flag b Reg.STK_STATUS.HOLD
  let d := d.setFld b Reg.STK_STATUS.HOLD (bit01 (st == stHold))
  let d := if was && st != stHold then d.raise b Reg.STK_EVENT.HOLD_LEFT else d
  if st = stNotReady then (d.count b Reg.NOT_READY_COUNT.COUNT).raise b Reg.STK_EVENT.NOT_READY
  else if st = stThrottled then (d.count b Reg.THROTTLE_COUNT.COUNT).raise b Reg.STK_EVENT.THROTTLED
  else if st = stBreach then (d.count b Reg.BREACH_PRESENT_COUNT.COUNT).raise b Reg.STK_EVENT.BREACH
  else if st = stHold && !was then (d.count b Reg.HOLD_COUNT.COUNT).raise b Reg.STK_EVENT.HOLD_ENTERED
  else d

/-- A disagreement of the sources, presented or monitored (R294). -/
def Dev.disagree (d : Dev) (k : Nat) : Dev :=
  let b := strikeBase
  let d := (d.count b Reg.DISAGREE_COUNT.COUNT).raise b Reg.STK_EVENT.DISAGREE
  if d.flag b Reg.DISAGREE_LOG.VALID then d
  else
    d.setReg (b + Reg.DISAGREE_LOG.off)
      (BitVec.ofNat 32 (2 ^ 31 + k % 2 ^ 12 * 2 ^ 16 + d.strike.capB.lines.toNat * 2 ^ 8 + d.strike.capA.lines.toNat))

/-- What the pads carry (R291, R299): STK_LAST and LAST_STATUS. -/
def Dev.showWord (d : Dev) (k st word : Nat) : Dev :=
  (d.setReg (strikeBase + Reg.STK_LAST.off) (BitVec.ofNat 32 (k % 2 ^ 16 * 2 ^ 16 + word))).setFld strikeBase
    Reg.STK_STATUS.LAST_STATUS st

/-- The pattern of the port's proof loop in a crossing (R499), with an injected error in bit 0 (R493). -/
def Dev.loopWord (d : Dev) : Nat :=
  let j := d.now % 2 ^ 16
  let w := if j % 2 = 0 then j else 2 ^ 16 - 1 - j
  if (d.proofRec strikeBase).bad then (if w % 2 = 0 then w + 1 else w - 1) else w

/-- The word of the crossing that begins, from what the edge before captured. -/
def Dev.strikePresent (d : Dev) : Dev :=
  let s := d.strike
  let k := crossSub d.now d.latL
  let hold := s.holdCap != 0
  let (d, busy) := d.showBusy (d.busySources hold)
  let okA := sampleGood s.capA k
  let okB := sampleGood s.capB k
  let jump := d.keeper.notReadyLeft != 0
  let lines := s.capA.lines.toNat
  let mask := d.fld strikeBase Reg.STK_CTRL.THR_MASK
  let differ := s.capA.lines != s.capB.lines
  let throttled := d.flag strikeBase Reg.STK_CTRL.THR_EN && busy && (lines &&& mask) != 0
  let st :=
    if hold then stHold
    else if d.breachDue k then stBreach
    else if jump || !okA || (s.assured && !okB) then stNotReady
    else if s.assured && differ then stDisagree
    else if throttled then stThrottled
    else stNormal
  let out := if st = stThrottled then lines &&& (255 - mask) else if st = stNormal then lines else 0
  let d := d.countStatus st
  let named := d.flag strikeBase Reg.STK_SRC.B_VALID
  let d := if st = stDisagree || (!s.assured && named && okA && okB && differ) then d.disagree k else d
  if d.proofDepth strikeBase = some 2 && d.runs strikeBase then
    (d.showWord k stHold d.loopWord).setFld strikeBase Reg.STK_STATUS.BUSY (d.now % 2)
  else d.showWord k st (strikeWord k st out)

/-- The pads latch the static word of a trunk stop, which carries the CHECK of the crossing due; each spanned crossing counts
(R304). -/
def Dev.strikeStatic (d : Dev) (first : Bool) : Dev :=
  let b := strikeBase
  if !d.domainOn 7 then d
  else
    let d := d.countStatus stBreach
    let was := d.flag b Reg.STK_STATUS.BUSY
    let d := if was then d else (d.setFld b Reg.STK_STATUS.BUSY_SRC 0).raise b Reg.STK_EVENT.BUSY_ON
    let d := d.modStrike fun s => { s with busyLeft := (if was then s.busyLeft else d.fld b Reg.STK_CTRL.BUSY_MIN) - 1 }
    let d := (d.setFld b Reg.STK_STATUS.BUSY 1).count b Reg.BUSY_COUNT.COUNT
    if first then
      let k := crossSub d.now d.latL
      d.showWord k stBreach (strikeWord k stBreach 0)
    else d

/-! ## Capture (R52, R292, R293) -/

/-- The port takes what a source shows: its column is not fenced and its fences are not engaged. -/
def Dev.sampleTaken (d : Dev) (valid : Bool) (col galley : Nat) : Bool :=
  valid && !d.fenced col && (d.user galley).rel.past && !(d.ust galley).fences

/-- What a source shows, as the port takes it, with READY as 0 where its galley does not run or the request of the port
is forced off (R379). -/
def Dev.takeSample (d : Dev) (valid : Bool) (col die galley : Nat) (s : DpSample) : DpSample :=
  if !d.sampleTaken valid col galley then {}
  else
    match d.stateOf galley with
    | .running | .degraded => { s with ready := s.ready && d.portLive [col * 2 + die] portDecision }
    | _ => { s with ready := false }

/-- The busy sources asserted at the edge, where the next evaluation interval begins (R298). -/
def Dev.busyNow (d : Dev) : Nat :=
  bit01 ((List.range 16).any d.ringBusy) * 2 ^ busyRings + bit01 (d.flag strikeBase Reg.STK_CTRL.FORCE_BUSY) * 2 ^ busyForce +
    bit01 (!d.runs strikeBase) * 2 ^ busyState

/-- The capture at an edge; at an edge of a trunk stop no word is captured. A change of the level of DP_KICK at source A, where the
port takes it, goes to Kryup (R409, R459). -/
def Dev.strikeCapture (d : Dev) (stopped : Bool) (a b : DpSample) : Dev :=
  let src := strikeBase
  let sampled := !stopped && d.sampleTaken (d.flag src Reg.STK_SRC.A_VALID) (d.fld src Reg.STK_SRC.A_COL) d.strike.galleyA
  let level := d.strike.capA.kick
  let a := if stopped then {} else
    d.takeSample (d.flag src Reg.STK_SRC.A_VALID) (d.fld src Reg.STK_SRC.A_COL) (d.fld src Reg.STK_SRC.A_DIE) d.strike.galleyA a
  let b := if stopped then {} else
    d.takeSample (d.flag src Reg.STK_SRC.B_VALID) (d.fld src Reg.STK_SRC.B_COL) (d.fld src Reg.STK_SRC.B_DIE) d.strike.galleyB b
  let a := if sampled then a else { a with kick := level }
  d.modStrike fun s =>
    { s with capA := a, capB := b, holdCap := d.holdSources, assured := d.mode == modeAssured, busySeen := d.busyNow, refused := false
             sampled := false
             kicked := s.kicked || (sampled && a.kick != s.capA.kick) }

/-- What the port's unit does at an edge (R303, R499): a start completes or fails, a drain ends. -/
def Dev.strikeUnit (d : Dev) : Dev :=
  match d.ust strikeBase with
  | .starting => if d.proving strikeBase || d.latL != 0 then d.ready strikeBase else d.startFail strikeBase (2 ^ 8)
  | .draining => d.empty strikeBase
  | _ => d

/-- The generator of the port's proof loop begins an item at each edge (R493). -/
def Dev.strikeLoop (d : Dev) : Dev :=
  if d.proving strikeBase && d.runs strikeBase then
    (d.modProof strikeBase fun p => { p with inject := false, bad := p.inject }).count (strikeBase + 0x200) Reg.PRF_TX_COUNT.COUNT
  else d

/-! ## The edge -/

/-- The row clock's phase where the next crossing begins (R20): an odd N moves it by half a row cycle; a jump and a restart
realign it. -/
def Dev.nextHalf (d : Dev) (realign : Bool) : Bool := !realign && (d.keeper.rowHalf ^^ (d.clk.ratioN % 2 == 1))

/-- An edge that begins fabric cycle 0 of the next crossing, at which a plate list goes back to its first entry (R221), `cycles` fabric cycles of the trunk after the one before. -/
def Dev.runningEdge (d : Dev) (cycles : Nat) (a b : DpSample) : Dev :=
  let next := crossAdd d.now 1
  let restart := d.trunkStopped
  let (d, dest) := (if restart then d else d.switchesDue).missRelease.syncApply
  let d := d.modClk fun c => { c with trunkCyc := c.trunkCyc + BitVec.ofNat 64 cycles }
  let half := d.nextHalf (restart || dest != next)
  let d := if dest = next then d else d.shiftBreaches next dest
  let before := d
  let d := (d.beginCrossing dest).modKeeper fun k => { k with rowHalf := half }
  let d := d.each d.plates.cycling.keys fun d g => d.fenceUpdate before g
  let d := if dest = next then d else d.jump dest
  let d := d.sampleSync
  let d := if d.clk.swapPending then
      let d := d.modClk fun c => { c with swapPending := false }
      if d.standbyAligned && d.pllOk d.standbyRoot then
        let o := d.activeRoot
        ((d.setActive d.standbyRoot).setFld (pllBase o) Reg.PLL_STATUS.ALIGNED (bit01 (d.pllOk o))).raise clkBase
          Reg.CLK_EVENT.ROOT_SWAPPED
      else d
    else d
  let d := d.swallow.fenceBreach
  let d := if d.domainOn 7 then (d.strikeLoop.strikePresent.strikeUnit).strikeCapture false a b else d
  if d.kryup.warm && !d.kryup.warmHeld then
    d.modKryup fun k => { k with warm := false }
  else d

/-- An edge that the stop of the trunk spans (R400): the number rises by 1, and the crossing it begins is a breach. -/
def Dev.spannedEdge (d : Dev) (first : Bool) : Dev :=
  let d := ((if d.trunkStopped then d else d.switchesDue).missRelease.beginCrossing (crossAdd d.now 1)).modKeeper fun k => { k with pendingSync := none }
  ((d.breach.strikeStatic first).strikeCapture true {} {})

/-- The trunk stops at a crossing edge, after the N cycles of the crossing that ends; the multiplexer then moves (R400, R403). -/
def Dev.stopEdge (d : Dev) : Dev :=
  let d := d.modClk fun c => { c with trunkCyc := c.trunkCyc + BitVec.ofNat 64 c.ratioN }
  let d := (d.spannedEdge true).setSeq true { d.clk.trunk with state := .switching }
  let d := match d.clk.relock with
    | some r =>
      if r.single then
        (d.rootSeeks r.root r.ref).modClk fun c => { c with relock := some { r with tick := c.tick } }
      else d
    | none => d
  Dev.netMove chainDepth d true

/-- The restart edge, with the fabric cycles of the new clock not delivered since the stop (R400): it begins fabric cycle 0. -/
def Dev.restartEdge (d : Dev) (lost : Nat) (a b : DpSample) : Dev :=
  let q := d.clk.trunk
  let loop := q.target == .loop
  let d := if loop then d.rootsMoved else d
  let d := d.setFld keeperBase Reg.KEEP_STATUS.LOCKED (bit01 loop)
  let d := d.setFld clkBase Reg.SW_LOST.TRUNK (if q.forced then 0xFFFF else min 0xFFFE lost)
  let d := if q.forced then d.setFld clkBase Reg.CLK_STATE.TRUNK_UNK 1 else d
  let d := d.runningEdge (if q.forced then 8 else lost) a b
  (d.setSeq true { d.clk.trunk with state := .run }).raise clkBase Reg.CLK_EVENT.TRUNK_SWITCHED

/-- A reference gives crossing edges while the trunk is stopped: CROSS_CLK, where it shows edges (R400). -/
def Dev.edgesFrom (d : Dev) (s : NetSrc) (ref : Nat) : Bool := s == .loop && ref == refCross && d.keeper.crossKHz != 0

/-- The reference of the roots that the trunk is being moved to. -/
def Dev.targetRef (d : Dev) : Nat :=
  match d.clk.relock with
  | some r => if r.back then d.clk.rootRef else r.ref
  | none => d.clk.rootRef

/-- A crossing edge at the keeper, which counts whenever CLKGEN is on (R38, R551). From the stop of the trunk on it counts those of the
new source's reference (R59, R400), and where the old clock has itself stopped, those of the reference it had (log entry 32). -/
def opCrossingEdge (a b : DpSample) (d : Dev) : Dev :=
  if !d.domainOn 0 then d
  else
    let q := d.clk.trunk
    match q.state with
    | .run | .relock => d.runningEdge (if d.netSrc true = .none then 0 else d.clk.ratioN) a b
    | .stopping =>
      if !d.netDead true then d.stopEdge
      else if d.edgesFrom (d.netSrc true) d.clk.rootRef then
        (d.spannedEdge (!q.latched)).setSeq true { q with latched := true }
      else d
    | _ => if d.edgesFrom q.target d.targetRef then d.spannedEdge false else d
def execCrossingEdge (a b : DpSample) (s : State) : Answer := onDev (opCrossingEdge a b) s

/-- A decision word became ready after its capture edge (R52). -/
def opDecideLate (d : Dev) : Dev :=
  if d.counting && d.latL != 0 then
    (d.count keeperBase Reg.DECIDE_LATE_COUNT.COUNT).raise keeperBase Reg.KEEP_EVENT.DECIDE_LATE
  else d
def execDecideLate (s : State) : Answer := onDev opDecideLate s

/-! ## Accepts (R300, R301, R499) -/

/-- The crossing an accept names: K with K mod 4,096 as given and (J − K) from L to L + 4,095. -/
def Dev.acceptCross (d : Dev) (num : Nat) : Nat :=
  let near := crossSub d.now d.latL
  crossSub near ((near % 4096 + 4096 - num % 4096) % 4096)

/-- The window and the port map of a type at an engine (R275). -/
def Dev.strikeAccept (d : Dev) (e t k : Nat) : Accept :=
  let b := ringBase e
  { cross := k, before := d.fld b (Reg.ACC_TYPE_CFG.BEFORE.elem t), after := d.fld b (Reg.ACC_TYPE_CFG.AFTER.elem t)
    map := d.fld b (Reg.ACC_TYPE_CFG.MAP.elem t), prio := d.fld b Reg.ENG_CTRL.STK_PRIO }

/-- The loop's comparison at the sample (R499): the returned signals that differ from the pattern, as bits [16:0] of PRF_LOG.
The first sample seeds the checker (R494). -/
def Dev.loopSample (d : Dev) (err : Nat) : Dev :=
  let b := strikeBase + 0x200
  let d := d.count b Reg.PRF_RX_COUNT.COUNT
  if !d.flag b Reg.PRF_STATUS.SYNC then d.setFld b Reg.PRF_STATUS.SYNC 1
  else if err = 0 then d
  else
    let d := d.count b Reg.PRF_ERR_COUNT.COUNT
    if d.flag b Reg.PRF_LOG.VALID then d
    else d.setReg (b + Reg.PRF_LOG.off) (BitVec.ofNat 32 (2 ^ 31 + d.now % 2 ^ 8 * 2 ^ 20 + err))

def opStkAccSample (acc : Bool) (type : Fin 16) (num : BitVec 12) (d : Dev) : Dev :=
  let b := strikeBase
  if !d.domainOn 7 || !d.counting || d.trunkStopped || d.strike.sampled then d
  else
    let d := d.modStrike fun s => { s with sampled := true }
    match d.proofDepth b with
    | some depth =>
      if !d.runs b then d
      else
        let bad := bit01 (d.proofRec b).bad
        d.loopSample (if depth = 2 then bad ^^^ (num.toNat + type.val * 2 ^ 12 + bit01 acc * 2 ^ 16) else bad)
    | none =>
      if !acc then d
      else if !d.runs b || (d.flag b Reg.STK_STATUS.HOLD && d.flag b Reg.STK_CTRL.HOLD_ACC) ||
          !bitOf (d.fld b Reg.STK_ACC_CFG.TYPE_EN) type then
        ((d.count b Reg.STK_ACC_DROP_COUNT.COUNT).raise b Reg.STK_EVENT.ACC_DROP).modStrike fun s => { s with refused := true }
      else
        let k := d.acceptCross num.toNat
        let d := d.count b Reg.STK_ACC_COUNT.COUNT
        let d := d.setReg (b + Reg.STK_ACC_LAST.off) (BitVec.ofNat 32 (k % 2 ^ 16 * 2 ^ 16 + type.val * 2 ^ 8))
        let d := d.setReg (b + Reg.STK_ACC_LAST_J.off) (BitVec.ofNat 32 (d.now % 2 ^ 16))
        d.each (List.range 16) fun d e => d.acceptTo e (d.strikeAccept e type k)
def execStkAccSample (acc : Bool) (type : Fin 16) (num : BitVec 12) (s : State) : Answer := onDev (opStkAccSample acc type num) s

end Sys2Proof.Machine
end

