-- ==== Sys2Proof/Machine/Clocks.lean ====
section
/-!
DEFINITION. The commands on clocks: the keeper's reference and its registers (R57 to R59, R39), monitors, loops and roots
(R396 to R399, R405, R406), and the stop, switch and restart of the nets (R400 to R403).
-/
namespace Sys2Proof.Machine

/-- Clock generation is on. -/
def Dev.clkOn (d : Dev) : Bool := d.domainOn 0

/-! ## CROSS_CLK (R58, R59) -/

/-- Both roots hold their frequency without a reference, or follow one again. -/
def Dev.holdRoots (d : Dev) (v : Nat) : Dev :=
  [0, 1].foldl (fun d r => if d.pllOk r then d.setFld (pllBase r) Reg.PLL_STATUS.HOLDOVER v else d) d

/-- CROSS_CLK shows no edges. The T7 enters holdover when it was locked to it, which it no longer is in holdover. -/
def opCrossLost (d : Dev) : Dev :=
  let follows := [0, 1].any fun r => d.pllOk r && d.fld (pllBase r) Reg.PLL_STATUS.REF == refCross
  let locked := d.clkOn && follows && d.keeper.crossKHz != 0 && !d.flag keeperBase Reg.KEEP_STATUS.HOLDOVER
  let d := d.modKeeper fun k => { k with crossKHz := 0, lastKHz := if k.crossKHz = 0 then k.lastKHz else k.crossKHz }
  if locked then
    let d := (d.raise keeperBase Reg.KEEP_EVENT.CROSS_LOST).setFld keeperBase Reg.KEEP_STATUS.HOLDOVER 1
    let d := (d.holdRoots 1).modKeeper fun k => { k with holdoverTick := some d.tick }
    (d.modKryup fun k => { k with crossLost := true }).offer causeCrossLost (BitVec.ofNat 32 d.now)
  else d
def execCrossLost (s : State) : Answer := onDev opCrossLost s

/-- Holdover has lasted 64 Ticks (R58); a trunk switch under way goes first. -/
def opHoldoverExpiry (d : Dev) : Dev :=
  match d.keeper.holdoverTick with
  | none => d
  | some t =>
    if t + 64 ≤ d.tick ∧ d.clk.trunk.state = .run ∧ d.netSrc true ≠ .none then
      (d.modKeeper fun k => { k with holdoverTick := none }).beginChange refXb false
    else d
def execHoldoverExpiry (s : State) : Answer := onDev opHoldoverExpiry s

/-- CROSS_CLK shows edges, again where it has shown them before. -/
def opCrossBack (kHz : Nat) (d : Dev) : Dev :=
  if kHz = 0 then d
  else
    let again := d.keeper.crossKHz = 0 ∧ d.keeper.lastKHz ≠ 0
    let d := (d.modKeeper fun k => { k with crossKHz := kHz }).modKryup fun k => { k with crossLost := false }
    d.raiseIf (decide again && d.clkOn) keeperBase Reg.KEEP_EVENT.CROSS_BACK
def execCrossBack (kHz : Nat) (s : State) : Answer := onDev (opCrossBack kHz) s

/-! ## The keeper's registers -/

/-- The address of KEEP_CTRL. -/
def keepCtrlAddr : Nat := keeperBase + Reg.KEEP_CTRL.off

/-- What a write of 1 to ARM and to RELOCK does. -/
def Dev.armNow (d : Dev) : Dev := d.setFld keeperBase Reg.KEEP_STATUS.ARMED 1
def Dev.relockNow (d : Dev) : Dev := d.askChange refCross true

/-- A change of REF_SEL (R399). -/
def Dev.refSel (d : Dev) (v : Nat) : Dev :=
  if d.fld keeperBase Reg.KEEP_CTRL.REF_SEL = v then d
  else (d.setFld keeperBase Reg.KEEP_CTRL.REF_SEL v).askChange (if v = 1 then refXb else refCross) false

def opArm (path : Fin 8) (d : Dev) : Dev := d.viaCtl path keepCtrlAddr [(Reg.KEEP_CTRL.ARM, 1)] Dev.armNow
def execArm (path : Fin 8) (s : State) : Answer := onDev (opArm path) s

def opRelock (path : Fin 8) (d : Dev) : Dev := d.viaCtl path keepCtrlAddr [(Reg.KEEP_CTRL.RELOCK, 1)] Dev.relockNow
def execRelock (path : Fin 8) (s : State) : Answer := onDev (opRelock path) s

def opRefSelWrite (path : Fin 8) (xb : Bool) (d : Dev) : Dev := 
  d.viaCtl path keepCtrlAddr [(Reg.KEEP_CTRL.REF_SEL, bit01 xb)] fun d => d.refSel (bit01 xb)
def execRefSelWrite (path : Fin 8) (xb : Bool) (s : State) : Answer := onDev (opRefSelWrite path xb) s

def opKeepRatioWrite (path : Fin 8) (n : Fin 32) (xbMul : Fin 256) (d : Dev) : Dev :=
  d.viaCtl path (keeperBase + Reg.KEEP_RATIO.off) [(Reg.KEEP_RATIO.N, n), (Reg.KEEP_RATIO.XB_MUL, xbMul)] fun d => d.askRatio n xbMul
def execKeepRatioWrite (path : Fin 8) (n : Fin 32) (xbMul : Fin 256) (s : State) : Answer := onDev (opKeepRatioWrite path n xbMul) s

/-- A read of the low half captures the whole value for the path; a read of the high half returns that capture's rest. -/
def Dev.readLo (d : Dev) (path code v : Nat) : Dev × Nat × Word :=
  (d.modCtl fun c => { c with capture := c.capture.put (path * 4 + code) v }, stOk, BitVec.ofNat 32 v)
def Dev.readHi (d : Dev) (path code : Nat) : Word := BitVec.ofNat 32 (d.ctl.capture.num (path * 4 + code) / 2 ^ 32)

def opCrossNowLoRead (path : Fin 8) (d : Dev) : Dev :=
  d.viaRead path (keeperBase + Reg.CROSS_NOW_LO.NOW_LO.off) fun d => d.readLo path capNow d.now
def execCrossNowLoRead (path : Fin 8) (s : State) : Answer := onDev (opCrossNowLoRead path) s

def opLastBreachLoRead (path : Fin 8) (d : Dev) : Dev :=
  d.viaRead path (keeperBase + Reg.LAST_BREACH_LO.CROSS_LO.off) fun d => d.readLo path capBreach d.keeper.lastBreach
def execLastBreachLoRead (path : Fin 8) (s : State) : Answer := onDev (opLastBreachLoRead path) s

def opCycLoRead (path : Fin 8) (trunk : Bool) (d : Dev) : Dev :=
  if trunk then
    d.viaRead path (clkBase + Reg.TRUNK_CYC_LO.CYC.off) fun d => d.readLo path capTrunk d.clk.trunkCyc.toNat
  else d.viaRead path (clkBase + Reg.REG_CYC_LO.CYC.off) fun d => d.readLo path capReg d.clk.regCyc.toNat
def execCycLoRead (path : Fin 8) (trunk : Bool) (s : State) : Answer := onDev (opCycLoRead path trunk) s

/-! ## Monitors (R405, R406, R416) -/

/-- CPLL is lost: its unit faults, and CK_REG moves on when it ran from it. -/
def Dev.cpllLost (d : Dev) : Dev := ((d.pllLost cpll).netTrip false .loop)

/-- The source of the Tick fails (R394): the Tick moves without a stop. -/
def Dev.tickMoves (d : Dev) (from_ : Nat) : Dev :=
  if d.fld clkBase Reg.CLK_STATUS.TICK_SRC ≠ from_ then d
  else if from_ = 0 then
    (d.setFld clkBase Reg.CLK_STATUS.TICK_SRC (if d.clk.fio = .running then 1 else 2)).raise clkBase Reg.CLK_EVENT.TICK_FALLBACK
  else if from_ = 1 then d.setFld clkBase Reg.CLK_STATUS.TICK_SRC 2
  else d

/-- What a trip of a monitor does to the nets (R406). A start of FIO under way ends by its own limit (R391, R407). -/
def Dev.tripEffects (d : Dev) (m : Nat) : Dev :=
  if m = monSio then d.tickMoves 0
  else if m = monFio then
    if d.clk.fio = .starting then d
    else
      let d := d.modClk fun c => { c with fio := .failed, fioTick := c.tick }
      ((d.netTrip false .fio).netTrip true .fio).tickMoves 1
  else if m = monXa then (d.modClk fun c => { c with xa := .failed }).cpllLost
  else
    let d := d.modClk fun c => { c with xb := .failed }
    if d.clk.rootRef = refXb then d.holdRoots 1 else d

/-- The source that a monitor measures has been started. -/
def Dev.monRunning (d : Dev) (m : Nat) : Bool := d.flag (monitorBase m) Reg.MON_STATUS.RUNNING

/-- An enabled monitor trips. -/
def Dev.monTrip (d : Dev) (m : Nat) (dead : Bool) (kHz : Nat) : Dev :=
  let b := monitorBase m
  if !d.flag b Reg.MON_CFG.EN then d
  else
    let d := ((d.setFld b Reg.MON_STATUS.TRIPPED 1).setFld b Reg.MON_STATUS.DEAD (bit01 dead)).count b Reg.MON_TRIP_COUNT.COUNT
    let d := (d.setFld b Reg.MON_FREQ.KHZ (if dead then 0 else kHz)).modClk fun c => { c with inRange := c.inRange.del m }
    ((d.tripEffects m).showSources).clockFault m

/-- A frequency at which a monitor trips; FIO is never tested for its range. -/
def Dev.monBad (d : Dev) (m kHz : Nat) : Bool := m != monFio && !d.monInRange m kHz

/-- A monitor's source is dead or out of range. -/
def opMonitorTrip (m : Fin 4) (dead : Bool) (kHz : Nat) (d : Dev) : Dev :=
  if d.clkOn && d.monRunning m && !d.monTripped m && (dead || d.monBad m kHz) then d.monTrip m dead kHz else d
def execMonitorTrip (m : Fin 4) (dead : Bool) (kHz : Nat) (s : State) : Answer := onDev (opMonitorTrip m dead kHz) s

/-- What a monitor measures in a Tick (R405): an enabled monitor trips on it, and a tripped one notes since when its source is in
range. -/
def Dev.measure (d : Dev) (m kHz : Nat) : Dev :=
  let b := monitorBase m
  if !(d.clkOn && d.monRunning m) then d
  else if d.monTripped m then
    let since := if d.monInRange m kHz then d.clk.inRange.put m (d.clk.inRange.at m d.tick) else d.clk.inRange.del m
    (d.setFld b Reg.MON_FREQ.KHZ kHz).modClk fun c => { c with inRange := since }
  else if d.monBad m kHz && d.flag b Reg.MON_CFG.EN then d.monTrip m (kHz == 0) kHz
  else d.setFld b Reg.MON_FREQ.KHZ kHz

/-- The Ticks that 16 windows of a monitor take at the least: 2^(10+WIN) cycles each of FIO, or of XA for the monitor of FIO. A Tick has
at most 9,870 cycles of FIO and 1,411 of XA (R389, R405). -/
def Dev.windows16 (d : Dev) (m : Nat) : Nat :=
  16 * 2 ^ (10 + d.fld (monitorBase m) Reg.MON_CFG.WIN) / (if m = monFio then 1411 else 9870)

/-- A tripped source has been in range for 16 windows. -/
def opSourceBack (m : Fin 4) (kHz : Nat) (d : Dev) : Dev :=
  let b := monitorBase m
  let long := match d.clk.inRange.look m with
    | some t => decide (t + d.windows16 m ≤ d.tick)
    | none => false
  if d.clkOn && d.monTripped m && d.monInRange m kHz && long then
    let d := d.modClk fun c => { c with inRange := c.inRange.del m }
    let d := (d.setFld b Reg.MON_STATUS.TRIPPED 0).setFld b Reg.MON_FREQ.KHZ kHz
    let d := d.modClk fun c =>
      if m.val = monXa then { c with xa := .running } else if m.val = monXb then { c with xb := .running, xbKHz := kHz } else c
    (d.raise clkBase Reg.CLK_EVENT.SOURCE_BACK).showSources
  else d
def execSourceBack (m : Fin 4) (kHz : Nat) (s : State) : Answer := onDev (opSourceBack m kHz) s

/-! ## Loops (R397, R406) -/

/-- MPLL is lost: every channel of both controllers faults. -/
def Dev.mpllLost (d : Dev) : Dev :=
  let d := d.modClk fun c => { c with mpllLock := false }
  [0, 1].foldl (fun d w =>
    if d.runs (mcBase w) || decide (d.ust (mcBase w) = .draining) then d.each (List.range 8) fun d c => d.faultChannel w c else d) d

def opPllUnlock (mem : Bool) (d : Dev) : Dev :=
  if !d.clkOn then d
  else if mem then (if d.clk.mpllLock then d.mpllLost.clockFault mpll else d)
  else if d.pllOk cpll then d.cpllLost.clockFault cpll
  else d
def execPllUnlock (mem : Bool) (s : State) : Answer := onDev (opPllUnlock mem) s

/-- The root that KEEP_STATUS.ROOT names fails (R397): while it drives the trunk, that moves to an aligned standby root, or down its
chain. -/
def opRootFail (d : Dev) : Dev :=
  let a := d.activeRoot
  if !(d.clkOn && d.runs (pllBase a)) then d
  else if d.rootDrives a then (d.pllLost a).rootDown a
  else (d.pllLost a).idleRootDown a
def execRootFail (s : State) : Answer := onDev opRootFail s

/-- The standby root fails while the active one is healthy (R397). -/
def opStandbyRootFail (d : Dev) : Dev :=
  let o := d.standbyRoot
  if !(d.clkOn && d.runs (pllBase o)) then d else (d.pllLost o).idleRootDown o
def execStandbyRootFail (s : State) : Answer := onDev opStandbyRootFail s

/-! ## CLK_CMD (R395, R398, R400, R401) -/

/-- The address of CLK_CMD. -/
def clkCmdAddr : Nat := clkBase + Reg.CLK_CMD.ROOT_SWAP.off

def Dev.cmdReject (d : Dev) : Dev := d.raise clkBase Reg.CLK_EVENT.CMD_REJECT

def Dev.rootSwap (d : Dev) : Dev :=
  if d.standbyAligned && decide (d.clk.trunk.state = .run) then d.modClk fun c => { c with swapPending := true } else d.cmdReject

def Dev.trunkGo (d : Dev) : Dev :=
  let dest := d.fld clkBase Reg.CLK_CMD.TRUNK_TO
  if d.clk.trunk.state ≠ .run then d.cmdReject
  else if dest = 0 then
    if d.clk.rootRef = 3 then d.cmdReject
    else if d.netSrc true = .loop then d.beginChange d.clk.rootRef true
    else if !d.ratioOk d.clk.rootRef d.clk.ratioN d.clk.ratioXb then d.cmdReject
    else
      match [d.activeRoot, d.standbyRoot].find? d.pllOk with
      | some r =>
        (d.modClk fun c =>
          { c with relock := some { ref := c.rootRef, n := c.ratioN, xb := c.ratioXb, root := r, kept := true, tick := c.tick } }).netRequest
            true .loop
      | none => d.cmdReject
  else if dest = 1 then (if d.clk.fio = .running then d.netRequest true .fio else d.cmdReject)
  else d.cmdReject

def Dev.regGo (d : Dev) : Dev :=
  let ready := if d.fld clkBase Reg.CLK_CMD.REG_TO = 0 then d.pllOk cpll else decide (d.clk.fio = .running)
  if d.clk.reg.state = .run ∧ ready then
    d.netRequest false (if d.fld clkBase Reg.CLK_CMD.REG_TO = 0 then .loop else .fio)
  else d.cmdReject

/-- A write of CLK_CMD: its fields are stored, then its requests act. -/
def Dev.clkCmdWrite (d : Dev) (w : Word) : Dev :=
  let d := (d.setFld clkBase Reg.CLK_CMD.TRUNK_TO (fget w Reg.CLK_CMD.TRUNK_TO)).setFld clkBase Reg.CLK_CMD.REG_TO
    (fget w Reg.CLK_CMD.REG_TO)
  let d := if fget w Reg.CLK_CMD.ROOT_SWAP = 1 then d.rootSwap else d
  let d := if fget w Reg.CLK_CMD.TRUNK_GO = 1 then d.trunkGo else d
  if fget w Reg.CLK_CMD.REG_GO = 1 then d.regGo else d

/-- CLK_CMD written as stored, with fields replaced. -/
def Dev.clkCmdBy (d : Dev) (path : Nat) (l : List (Fld × Nat)) : Dev :=
  d.viaCtl path clkCmdAddr l fun d => d.clkCmdWrite (d.regWith clkCmdAddr l)

def opRootSwap (path : Fin 8) (d : Dev) : Dev :=
  d.clkCmdBy path [(Reg.CLK_CMD.ROOT_SWAP, 1)]
def execRootSwap (path : Fin 8) (s : State) : Answer := onDev (opRootSwap path) s

def opTrunkGo (path : Fin 8) (dest : Fin 4) (d : Dev) : Dev :=
  d.clkCmdBy path [(Reg.CLK_CMD.TRUNK_TO, dest), (Reg.CLK_CMD.TRUNK_GO, 1)]
def execTrunkGo (path : Fin 8) (dest : Fin 4) (s : State) : Answer := onDev (opTrunkGo path dest) s

def opRegGo (path : Fin 8) (dest : Fin 2) (d : Dev) : Dev :=
  d.clkCmdBy path [(Reg.CLK_CMD.REG_TO, dest), (Reg.CLK_CMD.REG_GO, 1)]
def execRegGo (path : Fin 8) (dest : Fin 2) (s : State) : Answer := onDev (opRegGo path dest) s

/-! ## Sequencers (R399 to R403) -/

/-- The standby root has locked to the new reference and ratio, or 25 Ticks have passed without it. -/
def opRelockStandbyLock (locked : Bool) (d : Dev) : Dev :=
  match d.clk.relock with
  | none => d
  | some r =>
    if d.clk.trunk.state ≠ .relock then d
    else if locked then (d.setFld (pllBase r.root) Reg.PLL_STATUS.LOCK 1).netRequest true .loop
    else if r.tick + 25 ≤ d.tick then
      (d.abandonChange.raise clkBase Reg.CLK_EVENT.RELOCK_FAIL).fatal (pllBase r.root) pllUnlock
    else d
def execRelockStandbyLock (locked : Bool) (s : State) : Answer := onDev (opRelockStandbyLock locked) s

/-- A net that runs stops at a cycle boundary, the trunk at a crossing edge, and the multiplexer moves when it can. -/
def opNetStop (trunk : Bool) (d : Dev) : Dev :=
  let q := d.seq trunk
  if !d.clkOn || q.state ≠ .stopping || d.netDead trunk then d
  else if trunk then d.stopEdge
  else Dev.netMove chainDepth (d.setSeq false { q with state := .switching }) false
def execNetStop (trunk : Bool) (s : State) : Answer := onDev (opNetStop trunk) s

/-- The stop request has gone unacknowledged for 16 Ticks (R402). -/
def opSwitchForced (trunk : Bool) (d : Dev) : Dev :=
  let q := d.seq trunk
  if d.clkOn && decide (q.state = .stopping) && decide (q.reqTick + 16 ≤ d.tick) then
    let d := d.raise clkBase Reg.CLK_EVENT.SWITCH_FORCED
    let d := if trunk && !q.latched then d.spannedEdge true else d
    Dev.netMove chainDepth (d.setSeq trunk { q with state := .switching, forced := true }) trunk
  else d
def execSwitchForced (trunk : Bool) (s : State) : Answer := onDev (opSwitchForced trunk) s

/-- CK_REG restarts after 8 cycles of its new clock. -/
def Dev.regRestart (d : Dev) : Dev :=
  let q := d.clk.reg
  let d := d.modClk fun c => { c with regCyc := c.regCyc + 8 }
  let d := d.setFld clkBase Reg.SW_LOST.REG (if q.forced then 0xFFFF else 8)
  let d := if q.forced then d.setFld clkBase Reg.CLK_STATE.REG_UNK 1 else d
  (d.setSeq false { q with state := .run }).raise clkBase Reg.CLK_EVENT.REG_SWITCHED

/-- A net restarts: the trunk at the first crossing edge at least 8 fabric cycles of its new clock after the stop. -/
def opNetRestart (trunk : Bool) (lost : Nat) (a b : DpSample) (d : Dev) : Dev :=
  if !d.clkOn || (d.seq trunk).state ≠ .restart then d
  else if !trunk then d.regRestart
  else if lost < 8 then d
  else d.restartEdge lost a b
def execNetRestart (trunk : Bool) (lost : Nat) (a b : DpSample) (s : State) : Answer :=
  onDev (opNetRestart trunk lost a b) s

/-- 1,024 Ticks after FIO has failed it is started again (R408). -/
def opFioRetry (d : Dev) : Dev :=
  if d.clkOn && decide (d.clk.fio = .failed) && decide (d.clk.fioTick + 1024 ≤ d.tick) then d.fioStart else d
def execFioRetry (s : State) : Answer := onDev opFioRetry s

end Sys2Proof.Machine
end

