-- ==== Sys2Proof/Machine/MemCmds.lean ====
section
/-!
DEFINITION. The commands on the memory die and on clock vias: row ports, word ports, base ports, scrub, remap, initialisation
and march ("The Memory Die: Banks, Rows and Row Tally", "The Stack and Its Columns").
-/
namespace Sys2Proof.Machine

/-! ## Row ports (R233 to R238) -/

/-- Word `i` of a row. -/
def rowWordOf (r : Row) (i : Nat) : RowWord := r.extractLsb' (256 * i) 256

/-- The row made of words. -/
def rowOf (ws : List RowWord) : Row := BitVec.ofNat 2048 (ws.foldr (fun w n => w.toNat + 2 ^ 256 * n) 0)

/-- A row port's access completes. -/
def Dev.rowEnd (d : Dev) (c : Nat) (upper : Bool) (st : Nat) (ws : List RowWord) : Dev :=
  d.modMem fun m => { m with rowOut := m.rowOut.put (2 * c + bit01 upper) { status := st, words := ws } }

/-- What ends a row port's access before it reaches the bank: REFUSED, then PARITY (R239, R30). -/
def Dev.rowBar (d : Dev) (c bank : Nat) (w : Nat) (reserved : Bool) (found : PortFound) : Option Nat :=
  if d.memBarred false w || (bank == 7 && d.mem.twin.mem c) || reserved then some memRefused
  else if 2 ≤ found.parity then some memParity
  else none

/-- A row port's access: where it is granted, with the parity failures it met. One that is not waits for the next row cycle. -/
def Dev.rowAccess (d : Dev) (c : Nat) (upper : Bool) (bank row : Nat) (reserved : Bool) (found : PortFound)
    (f : Dev → Nat → Dev × Nat × List RowWord) : Dev :=
  if !d.portLive [c * 2 + bit01 upper] portRow then d
  else
  let (d, go) := d.asks c bank (if upper then .upper else .lower) found.cycle
  if !go then d
  else
    let w := wordIndex c bank row 0
    let bar := d.rowBar c bank w reserved found
    let d := if bar ≠ some memRefused ∧ 1 ≤ found.parity then d.parityFail c else d
    match bar with
    | some st => d.rowEnd c upper st []
    | none =>
      let (d, st, ws) := f (d.wearRow w found.upsets) w
      d.rowEnd c upper st ws

/-- The words of a row read over a row port, with the status of each. -/
def Dev.readRow (d : Dev) (w src : Nat) (vias : List (Nat × Nat)) : Dev × List (Nat × RowWord) :=
  (List.range 8).foldl (fun (d, l) i =>
    let (d, st, v) := d.readOver (w + i) (d.physWord (w + i)) src (viaBits vias i)
    (d, l ++ [(st, v)])) (d, [])

/-- The status of a row: UNCORR before CORRECTED before OK. -/
def rowStatus (l : List (Nat × RowWord)) : Nat :=
  if l.any fun x => x.1 == memUncorr then memUncorr else if l.any fun x => x.1 == memCorrected then memCorrected else memOk

/-- Vias whose errors were corrected in a row read. -/
def Dev.rowVias (d : Dev) (c : Nat) (upper : Bool) (vias : List (Nat × Nat)) (l : List (Nat × RowWord)) : Dev :=
  d.viaErrors c (if upper then viaUpper else viaLower) vias fun i => (l.getD i (0, 0)).1 == memCorrected

/-- A read, or a request with the reserved operation. -/
def opRowRead (c : Fin 256) (upper : Bool) (bank : Fin 8) (row : Fin 2048) (reserved : Bool) (found : PortFound) (d : Dev) : Dev :=
  d.rowAccess c upper bank row reserved found fun d w =>
    let (d, l) := d.readRow w (if upper then srcUpper else srcLower) found.vias
    (d.rowVias c upper found.vias l, rowStatus l, l.map (·.2))
def execRowRead (c : Fin 256) (upper : Bool) (bank : Fin 8) (row : Fin 2048) (reserved : Bool) (found : PortFound) (s : State) :
    Answer := onDev (opRowRead c upper bank row reserved found) s

/-- One word of a write arrives over its bundle: corrected when one via changed it, stored as it arrives when more did. -/
def Dev.writeOver (d : Dev) (p : Nat) (v : RowWord) (via : BitVec 266) : Dev :=
  let d := d.putWord p v
  if errStatus via = memUncorr then d.modMem fun m => { m with err := m.err.set p 0 via } else d

/-- The words of a row under a mask are written (R235). -/
def Dev.writeRow (d : Dev) (c : Nat) (upper : Bool) (w mask : Nat) (data : Row) (vias : List (Nat × Nat)) : Dev :=
  let d := d.each ((List.range 8).filter fun i => bitOf mask i) fun d i =>
    let one := errStatus (viaBits vias i) = memCorrected
    let d := d.writeOver (d.physWord (w + i)) (rowWordOf data i) (viaBits vias i)
    if one then d.countSec c else d
  d.viaErrors c (if upper then viaUpper else viaLower) vias fun i =>
    bitOf mask i && errStatus (viaBits vias i) == memCorrected

def opRowWrite (c : Fin 256) (upper : Bool) (bank : Fin 8) (row : Fin 2048) (mask : BitVec 8) (data : Row)
    (found : PortFound) (d : Dev) : Dev :=
  d.rowAccess c upper bank row false found fun d w => (d.writeRow c upper w mask.toNat data found.vias, memOk, [])
def execRowWrite (c : Fin 256) (upper : Bool) (bank : Fin 8) (row : Fin 2048) (mask : BitVec 8) (data : Row)
    (found : PortFound) (s : State) : Answer := onDev (opRowWrite c upper bank row mask data found) s

/-! ## Row tally (R241, R242) -/

/-- The width of a counter. -/
def tallyWidth (wide : Bool) : Nat := if wide then 32 else 16

/-- A counter after an increment. -/
def tallyAdd (width : Nat) (sat : Bool) (x y : Nat) : Nat :=
  if x + y < 2 ^ width then x + y else if sat then 2 ^ width - 1 else x + y - 2 ^ width

/-- The residue predicted for a counter. -/
def tallyPredict (width : Nat) (sat : Bool) (x y : Nat) : Nat :=
  if x + y < 2 ^ width then (x % 7 + y % 7) % 7
  else if sat then (2 ^ width - 1) % 7
  else (x % 7 + y % 7 + 7 - 2 ^ width % 7) % 7

/-- The counters of a row, as the adder leaves them; `slips` are its errors, by counter and the bits they change. -/
def tallySums (wide sat : Bool) (old vec : Nat) (slips : List (Nat × Nat)) : List Nat :=
  let n := tallyWidth wide
  (List.range (2048 / n)).map fun i =>
    let s := tallyAdd n sat (bitsOf old (n * i) n) (bitsOf vec (n * i) n)
    slips.foldl (fun s e => if e.1 = i then (s ^^^ e.2) % 2 ^ n else s) s

/-- Whether every counter's residue agrees with its prediction. -/
def tallyAgrees (wide sat : Bool) (old vec : Nat) (sums : List Nat) : Bool :=
  let n := tallyWidth wide
  (List.range (2048 / n)).all fun i =>
    tallyPredict n sat (bitsOf old (n * i) n) (bitsOf vec (n * i) n) == sums.getD i 0 % 7

/-- The row of counters. -/
def tallyRow (wide : Bool) (sums : List Nat) : Row :=
  BitVec.ofNat 2048 (sums.foldr (fun s n => s + 2 ^ tallyWidth wide * n) 0)

/-- The increment vector as it arrives over the port: a word that one via changed is corrected, one that more changed is taken as it
arrives. -/
def arrives (vec : Row) (vias : List (Nat × Nat)) : Row :=
  rowOf ((List.range 8).map fun i =>
    if errStatus (viaBits vias i) = memUncorr then rowWordOf vec i ^^^ (viaBits vias i).truncate 256 else rowWordOf vec i)

def opRowTally (c : Fin 256) (upper : Bool) (bank : Fin 8) (row : Fin 2048) (wide sat : Bool) (sent : Row) (slips : List (Nat × Nat))
    (found : PortFound) (d : Dev) : Dev :=
  d.rowAccess c upper bank row false found fun d w =>
    let vec := arrives sent found.vias
    let (d, l) := d.readRow w (if upper then srcUpper else srcLower) []
    let one (i : Nat) : Bool := errStatus (viaBits found.vias i) == memCorrected
    let d := d.each ((List.range 8).filter one) fun d _ => d.countSec c
    let d := d.viaErrors c (if upper then viaUpper else viaLower) found.vias one
    let old := (rowOf (l.map (·.2))).toNat
    let sums := tallySums wide sat old vec.toNat slips
    let b := columnBase 1 c
    if !tallyAgrees wide sat old vec.toNat sums then
      ((d.count b Reg.RT_RES_COUNT.COUNT).raise b Reg.MEM_EVENT.RT_RES_ERR, memResErr, [])
    else if rowStatus l = memUncorr then (d, memUncorr, [])
    else (d.writeRow c upper w 0xFF (tallyRow wide sums) [], rowStatus l, [])
def execRowTally (c : Fin 256) (upper : Bool) (bank : Fin 8) (row : Fin 2048) (wide sat : Bool) (vec : Row)
    (slips : List (Nat × Nat)) (found : PortFound) (s : State) : Answer :=
  onDev (opRowTally c upper bank row wide sat vec slips found) s

/-! ## Word ports (R243 to R247) -/

/-- A word port's access completes; a BUSY is counted. -/
def Dev.twinEnd (d : Dev) (c : Nat) (portB : Bool) (st : Nat) (ws : List RowWord) : Dev :=
  let b := columnBase 1 c
  let d := d.modMem fun m => { m with twinOut := m.twinOut.put (2 * c + bit01 portB) { status := st, words := ws } }
  if st = memBusy then (d.count b Reg.TWIN_BUSY_COUNT.COUNT).raise b Reg.MEM_EVENT.TWIN_BUSY else d

/-- A word port's access is refused. -/
def Dev.twinBarred (d : Dev) (c w : Nat) : Bool := d.memBarred false w || !d.mem.twin.mem c

def opTwinRead (c : Fin 256) (portB : Bool) (row : Fin 2048) (word : Fin 8) (meet : TwinMeet) (upsets : List (Nat × Nat)) (d : Dev) :
    Dev :=
  let w := wordIndex c 7 row word
  let normal (d : Dev) : Dev :=
    let d := d.wearRow (w - word) upsets
    let (d, st, v) := d.readOver w (d.physWord w) (if portB then srcTwinB else srcTwinA) 0
    d.twinEnd c portB st [v]
  if !d.portLive [c * 2 + bit01 portB] portTwin then d
  else if d.twinBarred c w then d.twinEnd c portB memRefused []
  else
    match meet, portB with
    | .alone, _ | .withRead, _ => normal d
    | .withWrite, false => (d.twinEnd c portB memCollided [Config.freeRowWord d.free]).drew
    | .baseRead, true => normal d
    | .withWrite, true | .baseWrite, true => d.twinEnd c portB memBusy []
    | .baseRead, false | .baseWrite, false => d.twinEnd c portB memBusy []
def execTwinRead (c : Fin 256) (portB : Bool) (row : Fin 2048) (word : Fin 8) (meet : TwinMeet) (upsets : List (Nat × Nat))
    (s : State) : Answer := onDev (opTwinRead c portB row word meet upsets) s

def opTwinWrite (c : Fin 256) (portB : Bool) (row : Fin 2048) (word : Fin 8) (data : RowWord) (meet : TwinMeet) (d : Dev) : Dev :=
  let w := wordIndex c 7 row word
  let normal (d : Dev) : Dev := (d.putWord (d.physWord w) data).twinEnd c portB memOk []
  if !d.portLive [c * 2 + bit01 portB] portTwin then d
  else if d.twinBarred c w then d.twinEnd c portB memRefused []
  else
    match meet, portB with
    | .alone, _ => normal d
    | .withRead, false | .withWrite, false => normal d
    | _, _ => d.twinEnd c portB memBusy []
def execTwinWrite (c : Fin 256) (portB : Bool) (row : Fin 2048) (word : Fin 8) (data : RowWord) (meet : TwinMeet) (s : State) :
    Answer := onDev (opTwinWrite c portB row word data meet) s

/-! ## Base ports (R248) -/

/-- A base port's access completes. -/
def Dev.baseEnd (d : Dev) (c st : Nat) (ws : List RowWord) : Dev :=
  d.modMem fun m => { m with baseOut := m.baseOut.put c { status := st, words := ws } }

/-- A base port's access: where it is granted, with the parity failures it met. One that is not waits for the next row cycle. -/
def Dev.baseAccess (d : Dev) (c w : Nat) (user : BaseUser) (waited : Nat) (found : PortFound)
    (f : Dev → Dev × Nat × List RowWord) : Dev :=
  let (d, go) := d.asks c (wordBank w % 8) (.base { user := user, waited := waited }) found.cycle
  if !go then d
  else if d.baseBarred false w then d.baseEnd c memRefused []
  else
    let d := if 1 ≤ found.parity then d.parityFail c else d
    if 2 ≤ found.parity then d.baseEnd c memParity []
    else
      let (d, st, ws) := f (d.wearRow (w / 8 * 8) found.upsets)
      d.baseEnd c st ws

def opBasePortRead (c : Fin 256) (bank : Fin 8) (row : Fin 2048) (word : Fin 8) (user : BaseUser) (waited : Nat) (found : PortFound)
    (d : Dev) : Dev :=
  let w := wordIndex c bank row word
  d.baseAccess c w user waited found fun d =>
    let (d, st, v) := d.readOver w (d.physWord w) srcBase (viaBits found.vias 0)
    (d.viaErrors c viaBase found.vias fun i => i == 0 && st == memCorrected, st, [v])
def execBasePortRead (c : Fin 256) (bank : Fin 8) (row : Fin 2048) (word : Fin 8) (user : BaseUser) (waited : Nat) (found : PortFound)
    (s : State) : Answer := onDev (opBasePortRead c bank row word user waited found) s

/-- A write with no byte enabled completes with no access; one of 1 to 31 bytes reads, merges and writes. -/
def opBasePortWrite (c : Fin 256) (bank : Fin 8) (row : Fin 2048) (word : Fin 8) (ben : BitVec 32) (data : RowWord)
    (user : BaseUser) (waited : Nat) (found : PortFound) (d : Dev) : Dev :=
  let w := wordIndex c bank row word
  if ben = 0 then d.baseEnd c (if d.baseBarred false w then memRefused else memOk) []
  else
    d.baseAccess c w user waited found fun d =>
      let one := errStatus (viaBits found.vias 0) = memCorrected
      let d := if one then (d.countSec c).viaErrors c viaBase found.vias fun i => i == 0 else d
      let (d, st) := d.putTo (d.toWord user w) ben.toNat data
      let lost := errStatus (viaBits found.vias 0) = memUncorr ∧ st ≠ memUncorr
      (if lost then d.modMem fun m => { m with err := m.err.set (d.physWord w) 0 (viaBits found.vias 0) } else d, st, [])
def execBasePortWrite (c : Fin 256) (bank : Fin 8) (row : Fin 2048) (word : Fin 8) (ben : BitVec 32) (data : RowWord)
    (user : BaseUser) (waited : Nat) (found : PortFound) (s : State) : Answer :=
  onDev (opBasePortWrite c bank row word ben data user waited found) s

/-! ## Upkeep -/

/-- Every via's count of corrected errors loses 1. -/
def opViaCountDecay (d : Dev) : Dev :=
  d.modStack fun s =>
    { s with viaCount := ⟨(s.viaCount.items.map fun e => (e.1, e.2 - 1)).filter fun e => e.2 != 0⟩ }
def execViaCountDecay (s : State) : Answer := onDev opViaCountDecay s

/-- A corrected word is written back, unless a write has reached it. Words of the relief banks follow those of the die. -/
def opCorrectedWriteback (word : Nat) (cycle : BankCycle) (d : Dev) : Dev :=
  match d.mem.corr.look word with
  | some w =>
    let (d, go) := d.asks (wordColumn w) (wordBank w % 8) (.slow .writeback) cycle
    if go then d.modMem fun m => { m with err := m.err.del word, corr := m.corr.del word } else d
  | none => d
def execCorrectedWriteback (word : Nat) (cycle : BankCycle) (s : State) : Answer := onDev (opCorrectedWriteback word cycle) s

/-- Modes in which the banks are scrubbed (R249). -/
def Dev.scrubMode (d : Dev) : Bool := decide (2 ≤ d.mode ∧ d.mode ≤ 6)

/-- The scrub engine of a column works: SCRUB_EN is 1, the mode and the unit allow it and the column is not fenced. -/
def Dev.scrubs (d : Dev) (c : Nat) : Bool :=
  d.flag (columnBase 1 c) Reg.MEM_CTRL.SCRUB_EN && d.scrubMode && d.runs (columnBase 1 c) && !d.fenced c

/-- The scrub period of the mode in Ticks of 20 µs. -/
def Dev.scrubPeriod (d : Dev) (c : Nat) : Nat :=
  let p := 50 * max 1 (d.fld (columnBase 1 c) Reg.MEM_SCRUB.PERIOD)
  if d.mode = modeSurge then 4 * p else if d.mode = modeAssured then min 1000 (p / 5) else p

/-- The rows of a column's own banks, which a pass reads. -/
def passRows : Nat := 16384

/-- A row is read in the pass of its column, which ends with the last of its rows, and the next begins. The rows read are one bit each. -/
def Dev.passStep (d : Dev) (c row : Nat) : Dev :=
  let (t, seen) := d.mem.scrub.at c (d.tick, 0)
  let seen := seen ||| 2 ^ row
  d.modMem fun m => { m with scrub := m.scrub.put c (if seen = 2 ^ passRows - 1 then (d.tick, 0) else (t, seen)) }

/-- The scrub engine of a column, which holds the background token (R440), reads one row of a bank in a row cycle that grants it;
bank 8 is the relief bank of its group. -/
def opMemScrubAccess (c : Fin 256) (bank : Fin 9) (row : Fin 2048) (upsets : List (Nat × Nat)) (cycle : BankCycle) (d : Dev) : Dev :=
  if d.scrubs c && d.holdsToken c .memScrub then
    let (d, go) := d.asks c bank (.slow .scrub) cycle
    if !go then d
    else
      let d := d.freeToken c
      if bank.val = 8 then
        let g := groupOf c
        let home := d.reliefHome g c
        (d.wearAt (fun i => reliefWord g row i) upsets).each (List.range 8) fun d i =>
          (d.readOver (home * 16384 + row * 8 + i) (reliefWord g row i) srcScrub 0).1
      else
        let d := d.passStep c (bank * 2048 + row)
        if d.bankDead (c * 8 + bank) then d
        else
          let w := wordIndex c bank row 0
          ((d.wearRow w upsets).readRow w srcScrub []).1
  else d
def execMemScrubAccess (c : Fin 256) (bank : Fin 9) (row : Fin 2048) (upsets : List (Nat × Nat)) (cycle : BankCycle) (s : State) :
    Answer := onDev (opMemScrubAccess c bank row upsets cycle) s

/-- A scrub pass of a column has not ended within twice its period: the next begins. Where none has begun, one begins. -/
def opScrubLate (c : Fin 256) (d : Dev) : Dev :=
  if !d.scrubs c then d
  else
    let again := d.modMem fun m => { m with scrub := m.scrub.put c (d.tick, 0) }
    match d.mem.scrub.look c with
    | none => again
    | some (t, _) => if t + 2 * d.scrubPeriod c ≤ d.tick then again.raise (columnBase 1 c) Reg.MEM_EVENT.SCRUB_LATE else d
def execScrubLate (c : Fin 256) (s : State) : Answer := onDev (opScrubLate c) s

/-- A tracked row whose count has reached the threshold moves to a spare row (R250): its words are copied corrected. What the copy reads
counts (R240), logged with source scrub (DESIGN CHOICE, log entry 127). -/
def opRowRemap (c : Fin 256) (bank : Fin 9) (row : Fin 2048) (cycle : BankCycle) (d : Dev) : Dev :=
  let b := columnBase 1 c
  let k := bankNumber c bank
  let home := if bank.val = 8 then d.reliefHome (groupOf c) c else k
  let t := d.fld b Reg.ROW_THRESH.THRESH
  let n := (((d.mem.tracked.at k []).find? fun e => e.1 == row.val).map (·.2)).getD 0
  if d.flag b Reg.MEM_CTRL.ROW_REPAIR_EN && decide (t ≠ 0 ∧ t ≤ n) then
    let (d, go) := d.asks c bank (.slow .remap) cycle
    if !go then d
    else
      let (d, ok) := d.takeSpare k false row
      if ok then
        let d := d.each (List.range 8) fun d i =>
          d.noteRead (home * 16384 + row.val * 8 + i) (bankPlace k (row.val * 8 + i)) srcScrub
        let d := d.modMem fun m => { m with tracked := m.tracked.put k ((m.tracked.at k []).filter fun e => e.1 != row.val) }
        let d := d.each (List.range 8) fun d i =>
          let p := bankPlace k (row.val * 8 + i)
          if d.wordCheck p = memCorrected then d.modMem fun m => { m with err := m.err.del p, corr := m.corr.del p } else d
        (d.raise b Reg.MEM_EVENT.ROW_REMAP).repLog (repWord 3 c bank row) originService repApplied
      else d.raise b Reg.MEM_EVENT.ROW_SPARES_OUT
  else d
def execRowRemap (c : Fin 256) (bank : Fin 9) (row : Fin 2048) (cycle : BankCycle) (s : State) : Answer :=
  onDev (opRowRemap c bank row cycle) s

/-- The banks and the relief banks of a quadrant are zeroed after its domain has come on (R251); a fenced column and a dead bank
are not reached (R255). -/
def opBankInit (q : Fin 4) (d : Dev) : Dev :=
  let cols := (List.range 256).filter fun c => quadrantOf c == q.val && !d.fenced c
  if d.domainOn (26 + q) && cols.all fun c => !d.flag (columnBase 1 c) Reg.MEM_STATUS.INIT_DONE then
    let kept (bank : Nat) : Bool :=
      bankQuadrant bank != q.val || (decide (bank < 2048) && (d.fenced (bank / 8) || d.bankDead bank))
    (d.modMem fun m =>
      { m with bytes := m.bytes.keep fun a => kept (a / 2 ^ 19)
               err := m.err.keep fun w => kept (w / 16384)
               corr := m.corr.keep fun w => kept (w / 16384)
               tracked := m.tracked.keep kept }).each cols fun d c => d.setFld (columnBase 1 c) Reg.MEM_STATUS.INIT_DONE 1
  else d
def execBankInit (q : Fin 4) (s : State) : Answer := onDev (opBankInit q) s

/-! ## March (R252) -/

/-- The unit rests as a march needs it (R252). -/
def Dev.marchRests (d : Dev) (c : Nat) : Bool :=
  match d.ust (columnBase 1 c) with | .stopped | .isolated => true | _ => false

/-- MARCH_CTRL.GO with the mode and banks of the same write. -/
def Dev.marchGo (d : Dev) (c mode banks : Nat) : Dev :=
  let b := columnBase 1 c
  let d := (d.setFld b Reg.MARCH_CTRL.MODE mode).setFld b Reg.MARCH_CTRL.BANKS banks
  if !d.marchRests c || d.mem.march.has c then d.raise b Reg.MEM_EVENT.MARCH_REJECT
  else (d.modMem fun m => { m with march := m.march.put c (banks, mode) }).setFld b Reg.MEM_STATUS.MARCH_BUSY 1

/-- A write of MARCH_CTRL with GO. -/
def opMarchGo (path : Fin 8) (c : Fin 256) (mode : Bool) (banks : BitVec 8) (d : Dev) : Dev :=
  d.viaCtl path (columnBase 1 c + Reg.MARCH_CTRL.GO.off)
    [(Reg.MARCH_CTRL.MODE, bit01 mode), (Reg.MARCH_CTRL.BANKS, banks.toNat), (Reg.MARCH_CTRL.GO, 1)] fun d => d.marchGo c (bit01 mode) banks.toNat
def execMarchGo (path : Fin 8) (c : Fin 256) (mode : Bool) (banks : BitVec 8) (s : State) : Answer :=
  onDev (opMarchGo path c mode banks) s

/-- A march ends: the faults it found, by bank, kind (a bit line where true) and position, each covered by a spare row or by a spare
bit line while one is free. Outside STOPPED and ISOLATED it does not run, and so does not end. -/
def opMarchDone (c : Fin 256) (faults : List (Fin 8 × Bool × Fin 2128)) (d : Dev) : Dev :=
  let b := columnBase 1 c
  match d.mem.march.look c with
  | none => d
  | some (banks, mode) =>
    if !d.marchRests c then d
    else
    let d := (d.modMem fun m => { m with march := m.march.del c }).setFld b Reg.MEM_STATUS.MARCH_BUSY 0
    let d := if mode = 0 then
        d.each ((List.range 8).filter fun k => bitOf banks k) fun d k => d.zeroBank (c * 8 + k)
      else d
    let (d, fail) := (faults.filter fun f => bitOf banks f.1).foldl (fun (d, fail) f =>
      let (d, ok) := d.takeSpare (c * 8 + f.1) f.2.1 f.2.2
      let d := d.repLog (repWord (if f.2.1 then 4 else 3) c f.1 f.2.2) originService (if ok then repApplied else repNoSpare)
      (d, if ok then fail else fail ||| 2 ^ f.1.val)) (d, 0)
    let d := ((d.setFld b Reg.MARCH_STATUS.DONE banks).setFld b Reg.MARCH_STATUS.FAIL fail).raise b Reg.MEM_EVENT.MARCH_DONE
    let d := d.raiseIf (fail != 0) b Reg.MEM_EVENT.MARCH_FAIL
    d.each ((List.range 8).filter fun k => bitOf fail k && (d.relieved (c * 8 + k)).isNone) fun d k => d.bankDies c k
def execMarchDone (c : Fin 256) (faults : List (Fin 8 × Bool × Fin 2128)) (s : State) : Answer := onDev (opMarchDone c faults) s

/-! ## Clock vias (R22 to R24) -/

/-- The checker declares the active clock via of a column failed, fenced or not, while one is left (R22). -/
def opClockViaFail (c : Fin 256) (d : Dev) : Dev :=
  if d.ust (columnBase 0 c) = .off ∨ d.fld (columnBase 0 c) Reg.VLINK_STATE.CLOCK = 3 then d else d.clockViaFail c
def execClockViaFail (c : Fin 256) (s : State) : Answer := onDev (opClockViaFail c) s

/-- The clocks of a column that switched to a spare via restart, and its fence releases unless it stands for another cause. -/
def opClockViaRestart (c : Fin 256) (d : Dev) : Dev :=
  let b := columnBase 0 c
  if d.fld b Reg.VLINK_STATE.CLOCK = 2 then
    let d := d.setFld b Reg.VLINK_STATE.CLOCK (if d.fld b Reg.CLK_VIA.ACTIVE = 0 then 0 else 1)
    if d.stack.fence.num c = 1 then
      let d := [2, 4].foldl (fun d l => d.tileRaise l c Reg.TILE_EVENT.FENCE_RELEASED) d
      d.modStack fun s => { s with fence := s.fence.del c }
    else d
  else d
def execClockViaRestart (c : Fin 256) (s : State) : Answer := onDev (opClockViaRestart c) s

end Sys2Proof.Machine
end

