-- ==== Sys2Proof/Machine/ModeOps.lean ====
section
/-!
DEFINITION. Modes and what moves them: column clocks and their admission (R421, R436), the voltage of VCC_FAB (R429, R430), the
steps of a transition (R421), and the entries into START, IDLE and DORMANT (R367, R369, R422, R423).
-/
namespace Sys2Proof.Machine

/-! ## Column clocks (R421, R436) -/

/-- A group's column clocks are not gated. -/
def Dev.groupClock (d : Dev) (g : Nat) : Bool :=
  (groupColumns g).any fun c => d.fabric.clkRun.mem (c * 2) || d.fabric.clkRun.mem (c * 2 + 1)

/-- The column clocks of a group open in the dies that are on. -/
def Dev.openGroup (d : Dev) (g : Nat) : Dev :=
  let dies := [0, 1].filter fun k => d.domainOn (32 + 4 * k + groupQuadrant g)
  d.modFabric fun f =>
    { f with clkRun := (groupColumns g).foldl (fun m c => dies.foldl (fun m k => m.put (c * 2 + k) 1) m) f.clkRun }

/-- The column clocks are gated (R420). -/
def Dev.gateColumns (d : Dev) : Dev := (d.modFabric fun f => { f with clkRun := {} }).modPower fun p => { p with admission := [] }

/-- A domain ramps, or waits for its prerequisites. -/
def Dev.coming (d : Dev) (k : Nat) : Bool := d.pd k == pdRamping || d.power.waiting.contains k

/-- A group has a plate in force. -/
def Dev.groupInForce (d : Dev) (g : Nat) : Bool := !(d.forceList g).isEmpty

/-- The logic domains of a group are on, as far as they have been requested (R421, R436). -/
def Dev.logicOn (d : Dev) (g : Nat) : Bool :=
  let q := groupQuadrant g
  d.domainOn (32 + q) && !d.coming (36 + q)

/-- A group enters the admission queue. -/
def Dev.queueGroup (d : Dev) (g : Nat) : Dev :=
  if d.power.admission.contains g || d.groupClock g then d else d.modPower fun p => { p with admission := p.admission ++ [g] }

/-- The queue as it admits: decision groups first, in ascending index; none of a quadrant in which a group is in an episode. -/
def Dev.nextAdmit (d : Dev) : Option Nat :=
  let free (g : Nat) := !((List.range 16).any fun h => groupQuadrant h == groupQuadrant g && d.power.episodes.has h)
  let ready := (List.range 16).filter fun g => d.power.admission.contains g && free g
  (ready.find? d.decisionGroup).orElse fun _ => ready.head?

/-! ## The voltage of VCC_FAB (R429, R430) -/

/-- VSET of a mode in mV; START and DORMANT have none. -/
def Dev.vset (d : Dev) (m : Nat) : Option Nat :=
  let f : Option Fld :=
    if m = modeIdle then some Reg.VSET_A.IDLE else if m = modeStrike then some Reg.VSET_A.STRIKE
    else if m = modeRoll then some Reg.VSET_A.ROLL else if m = modeSurge then some Reg.VSET_A.SURGE
    else if m = modeAssured then some Reg.VSET_B.ASSURED else if m = modeProof then some Reg.VSET_B.PROOF else none
  f.map fun f => 700 + 5 * min 30 (d.fld powerBase f)

/-- The setting in force: that requested last, or VSET of the mode before any request. -/
def Dev.vfab (d : Dev) : Nat := if d.power.voutMv = 0 then (d.vset d.mode).getD 0 else d.power.voutMv

/-- A PMBus request fails. -/
def Dev.pmbFail (d : Dev) : Dev := (d.setFld powerBase Reg.PMB_STATUS.PMB_ERR 1).raise powerBase Reg.MODE_EVENT.PMB_FAIL

/-- A request for a voltage, over a setting in force; `ack` tells that the regulator acknowledges and declares ULINEAR16; while
I2C0 is looped no request succeeds (R500). A
request made while another settles takes its place. Whether it succeeded. -/
def Dev.vout (d : Dev) (cur mv : Nat) (why : VoutWhy) (ack : Bool) : Dev × Bool :=
  if !d.flag powerBase Reg.PMB_CFG.EN then if cur < mv then (d.pmbFail, false) else (d, true)
  else if !ack || d.proving (serialBase 2) then (d.pmbFail, false)
  else
    let why := match d.power.voutReq with | some { why := .before, .. } => .before | _ => why
    ((d.setFld powerBase Reg.PMB_STATUS.PMB_ERR 0).modPower fun p => { p with voutMv := mv, voutReq := some { mv := mv, why := why } }, true)

/-! ## The steps of a transition (R421) -/

/-- The mode being entered. -/
def Dev.modeTarget (d : Dev) : Nat := d.fld powerBase Reg.MODE_STATUS.TARGET
/-- A transition is in progress. -/
def Dev.changing (d : Dev) : Bool := d.power.stage != 0

/-- STRIKE, ROLL, SURGE or ASSURED. -/
def runningMode (m : Nat) : Bool := decide (3 ≤ m ∧ m ≤ 6)

/-- A request is refused with a code. -/
def Dev.modeRefuse (d : Dev) (code : Nat) : Dev :=
  (d.setFld powerBase Reg.MODE_STATUS.REFUSE code).raise powerBase Reg.MODE_EVENT.REFUSED

def refFrom : Nat := 1
def refForme : Nat := 2
def refNoImage : Nat := 3
def refCycling : Nat := 4
def refSourceB : Nat := 5
def refClock : Nat := 6
def refSurgeOff : Nat := 7
def refBusy : Nat := 8
def refRail : Nat := 9
def refNoWake : Nat := 10

/-- A transition ends without its target. -/
def Dev.modeBack (d : Dev) (code : Nat) : Dev :=
  ((d.modPower fun p => { p with stage := 0 }).setFld powerBase Reg.MODE_STATUS.CHANGING 0).modeRefuse code

/-- Step 3 from IDLE toward a mode in which the forme runs: the logic domains of the forme's OCC bits are turned on, and the
groups whose logic domains are on enter the admission queue, the others when theirs have come on or failed. -/
def Dev.openForme (d : Dev) : Dev :=
  let u := d.user formeBase
  let wanted := (u.occL2.map fun c => 32 + quadrantOf c) ++ u.occL4.map fun c => 36 + quadrantOf c
  d.each ((List.range 40).filter wanted.contains) fun d k =>
    if d.pd k = pdOff then (d.setFld pdBase (Reg.PD.ON.elem k) 1).requestOn domainDepth k else d

/-- The groups that step 3 opens now. -/
def Dev.queueForme (d : Dev) : Dev :=
  d.each (List.range 16) fun d g => if d.groupInForce g && d.logicOn g then d.queueGroup g else d

/-- Step 3 has ended: every group with a plate in force, whose logic domains are on or come on, has its clocks running. -/
def Dev.formeOpenDone (d : Dev) : Bool :=
  (List.range 16).all fun g =>
    !d.groupInForce g || d.groupClock g || !(d.domainOn (32 + groupQuadrant g) || d.coming (32 + groupQuadrant g))

/-- The transition opens the forme: it leaves IDLE for a mode in which the forme runs. -/
def Dev.opens (d : Dev) : Bool := d.mode == modeIdle && runningMode d.modeTarget

/-- A transition goes on as far as what it waits for allows; the argument bounds the steps. -/
def Dev.modeStep : Nat → Dev → Dev
  | 0, d => d
  | n + 1, d =>
    let next (d : Dev) (k : Nat) : Dev := Dev.modeStep n (d.modPower fun p => { p with stage := k })
    match d.power.stage with
    | 1 =>
      match d.power.voutReq with
      | some { why := .before, .. } => d
      | _ =>
        let t := d.modeTarget
        let d := if t = modeStrike then
            d.each ((List.range 16).filter d.decisionGroup) Dev.windUp
          else if t = modeIdle ∨ t = modeSurge ∨ t = modeAssured then d.each (List.range 16) Dev.windUp
          else d
        next d 2
    | 2 =>
      if d.modeTarget = modeStrike ∧ (List.range 16).any fun g => d.decisionGroup g && d.relieving g then d
      else next (if d.opens then d.openForme else d) 3
    | 3 =>
      let d := if d.opens then d.queueForme else d
      if d.opens && !d.formeOpenDone then d else next d 4
    | _ => d

/-- More steps than a transition has. -/
def modeSteps : Nat := 5

/-- What a request that R419 accepts begins. -/
def Dev.beginMode (d : Dev) (t : Nat) (ack : Bool) : Dev :=
  let d := (d.setFld powerBase Reg.MODE_STATUS.TARGET t).setFld powerBase Reg.MODE_STATUS.CHANGING 1
  let d := d.modPower fun p => { p with stage := 1 }
  match d.vset t with
  | some mv =>
    if d.vfab < mv then
      let (d, ok) := d.vout d.vfab mv .before ack
      if ok then d.modeStep modeSteps else d.modeBack refRail
    else d.modeStep modeSteps
  | none => d.modeStep modeSteps

/-- No release has taken place, or the forme is STOPPED, OFF or LOADING. -/
def Dev.formeQuiet (d : Dev) : Bool :=
  !d.load.opened || decide ((d.user formeBase).rel = .loading) ||
    match d.stateOf formeBase with | .stopped | .off => true | _ => false

/-- The first condition of R419 that fails, as its code; 0 when none does. -/
def Dev.modeBar (d : Dev) (t : Nat) : Nat :=
  let m := d.mode
  let cfg (f : Fld) := d.flag powerBase f
  let noImage := d.load.verified.isNone && d.load.released.isNone
  let cycling := !d.plates.cycling.items.isEmpty
  let running := m == modeIdle || runningMode m
  let first (l : List (Bool × Nat)) : Nat := ((l.find? (·.1)).map (·.2)).getD 0
  if t = modeStart ∨ modeProof < t then refFrom
  else if d.changing then refBusy
  else if t = modeDormant then
    first [(m != modeIdle, refFrom), (!d.formeQuiet, refForme),
      (!(cfg Reg.PWR_CFG.WAKE_TICK_EN || cfg Reg.PWR_CFG.WAKE_SPI_EN || cfg Reg.PWR_CFG.WAKE_N_EN), refNoWake)]
  else if t = modeIdle then first [(!(runningMode m || m == modeProof), refFrom), (!d.formeQuiet, refForme)]
  else if t = modeStrike then first [(!running, refFrom), (noImage, refNoImage), (cycling, refCycling)]
  else if t = modeRoll then first [(!running, refFrom), (noImage, refNoImage)]
  else if t = modeSurge then first [(!running, refFrom), (noImage, refNoImage), (!cfg Reg.PWR_CFG.SURGE_EN, refSurgeOff)]
  else if t = modeAssured then
    first [(!running, refFrom), (noImage, refNoImage), (!d.flag strikeBase Reg.STK_SRC.B_VALID, refSourceB),
      (d.fastFabric, refClock), (cycling, refCycling)]
  else if t = modeProof then first [(m != modeIdle, refFrom), (!d.formeQuiet, refForme)]
  else refFrom

/-- A request for a mode (R419). -/
def Dev.modeRequest (d : Dev) (t : Nat) (ack : Bool) : Dev :=
  if t = d.mode ∧ t ≠ modeStart then d
  else
    match d.modeBar t with
    | 0 => d.beginMode t ack
    | code => d.modeRefuse code

/-! ## Entries -/

/-- MODE takes a value. -/
def Dev.setMode (d : Dev) (m : Nat) : Dev :=
  (d.setFld powerBase Reg.MODE_STATUS.MODE m).raise powerBase Reg.MODE_EVENT.ENTERED

/-- Units of the AO domain that keep their registers in DORMANT. -/
def aoUnit (a : Nat) : Bool :=
  match unitAt a with
  | none => true
  | some u => match u.blk with | .kryup | .power | .pdctl | .damper => true | _ => false

/-- A register that DORMANT leaves: those of the AO units, and those that show what lasts until power-on or device reset (R28). -/
def sleepKept (a : Nat) : Bool := aoUnit a || ((unitAt a).map fun u => repairShown u.base (a - u.base)).getD false

/-- A unit of a column. -/
def inColumn (b : Nat) : Bool := decide ((unitOf b).blk = .column)

/-- The switched domains turn off in the reverse of the order of R424, and what they held is lost (R422). The repairs made, the
causes that stand in columns and the repair log last until power-on or device reset (R24, R28, R33, R36, R483). -/
def Dev.sleep (d : Dev) : Dev :=
  let held := d.drivenPins
  let d := d.each offOrder Dev.turnOff
  let d := d.resetRegs fun a => !sleepKept a
  let d := (d.setFld damperBase Reg.DMP_ACTIVE.WIDE 0).setFld damperBase Reg.DMP_ACTIVE.GROUPS 0
  let n : Dev := {}
  let d := d.modPower fun p => { p with episodes := {}, admission := [], voutReq := none, dormTick := d.tick }
  { d with
    units := { n.units with standing := d.units.standing.keep inColumn, loss := d.units.loss.keep inColumn }
    mem := { remapped := d.mem.remapped, bitLines := d.mem.bitLines, relief := ⟨d.mem.relief.items.filter fun e => e.2.permanent⟩ }
    lanes := {}, links := {}, fabric := {}, plates := {}, rings := {}, strike := {}, proof := {}
    groups := ⟨d.groups.items.map fun e => (e.1, { lrefKHz := e.2.lrefKHz })⟩
    ext := { d.ext.lasting with retained := d.ext.retained, zeroised := d.ext.zeroised, scanLocked := d.ext.scanLocked }
    load := { step := .idle }
    heat := { failed := d.heat.failed, common := d.heat.common, readings := d.heat.readings }
    test := { softMap := d.test.softMap, scanned := d.test.scanned, log := d.test.log, frameSpare := d.test.frameSpare
              droopOut := d.test.droopOut, tallyBad := d.test.tallyBad }
    ctl := { lastPath := d.ctl.lastPath, eventSeq := d.ctl.eventSeq, done := d.ctl.done, acks := d.ctl.acks }
    pins := { pad := d.pins.pad, held := held, jtag := d.pins.jtag, boundary := d.pins.boundary, flash := d.pins.flash, fuses := d.pins.fuses, burned := d.pins.burned } }

/-- Units that run a proof loop drain, and leave it when they reach STOPPED (R491). -/
def Dev.leaveProof (d : Dev) : Dev :=
  let keys := d.regs.keys.filterMap fun a => (unitAt a).bind fun u => if a = u.base + Reg.CTRL.ENABLE.off then some u.base else none
  let units := keys.filter fun b => !d.isGalley b && d.proving b
  let d := d.modUnits fun r => { r with proofEnds := units.foldl (fun m b => m.put b 1) r.proofEnds }
  d.each units fun d b => d.drain d.depth b

/-- The units that wait in STARTING for a staged release which no mode has let begin (R377, R379). -/
def Dev.takeStaged (d : Dev) : Dev :=
  if d.runMode && d.load.opened then
    d.modUnits fun r =>
      { r with user := ⟨r.user.items.map fun e =>
          if e.2.rel = .held ∧ d.ust e.1 = .starting ∧ e.2.relTarget = none then (e.1, { e.2 with relTarget := some (crossAdd d.now d.lead) })
          else e⟩ }
  else d

/-- Waiting release requests are taken in the crossing that begins (R377, R379, R421). -/
def Dev.takeRequest (d : Dev) : Dev :=
  let d := d.takeStaged
  if d.runMode && d.load.requested && d.load.verified.isSome && d.load.target.isNone then
    d.modLoad fun l => { l with target := some (crossAdd d.now d.lead) }
  else d

/-- MODE takes the target's value (R421, steps 4 and 5). -/
def Dev.enterMode (d : Dev) (ack : Bool) : Dev :=
  let t := d.modeTarget
  let old := d.mode
  let cur := d.vfab
  let d := (d.modPower fun p => { p with stage := 0 }).setFld powerBase Reg.MODE_STATUS.CHANGING 0
  let d := d.setMode t
  let d := if runningMode t then (d.modKryup fun k => { k with wdgTicks := 0 }).takeRequest else d.gateColumns
  let d := if old = modeProof then d.leaveProof else d
  let d := match d.vset t with
    | some mv => if mv < cur then (d.vout cur mv .after ack).1 else d
    | none => d
  if t = modeDormant then d.sleep else d

/-! ## START (R367 step 3, R420, R427) -/

/-- The domains that START turns on: all but the lane groups. -/
def startDomains : List Nat := (List.range 40).filter fun k => !(decide (8 ≤ k ∧ k < 26))

/-- The start runs from step 3. -/
def Dev.beginStart (d : Dev) : Dev :=
  let d := d.each startDomains fun d k => (d.setFld pdBase (Reg.PD.ON.elem k) 1).requestOn domainDepth k
  (d.modLoad fun l => { l with step := .fio }).fioStart

/-- An enabled wake source wakes the T7 from DORMANT (R423). -/
def Dev.wake (d : Dev) (en : Fld) : Dev :=
  if d.mode = modeDormant ∧ d.flag powerBase en then ((d.raise powerBase Reg.MODE_EVENT.WAKE).setMode modeStart).beginStart else d

/-- A verified image ends START (R369). -/
def Dev.enterIdle (d : Dev) : Dev :=
  if d.mode = modeStart then (d.setMode modeIdle).gateColumns.modLoad fun l => { l with step := .idle } else d

end Sys2Proof.Machine
end

