-- ==== Sys2Proof/Machine/Modes.lean ====
section
/-!
DEFINITION. The commands on modes, power domains and the Damper (R418 to R436).
-/
namespace Sys2Proof.Machine

/-! ## Modes (R419 to R423) -/

def modeReqAddr : Nat := powerBase + Reg.MODE_REQ.off

def opModeReq (path : Fin 8) (target : Fin 16) (ack : Bool) (d : Dev) : Dev :=
  d.viaCtl path modeReqAddr [(Reg.MODE_REQ.TARGET, target), (Reg.MODE_REQ.GO, 1)] fun d => (d.setFld powerBase Reg.MODE_REQ.TARGET target).modeRequest target ack
def execModeReq (path : Fin 8) (target : Fin 16) (ack : Bool) (s : State) : Answer := onDev (opModeReq path target ack) s

def opModeEntered (ack : Bool) (d : Dev) : Dev := if d.power.stage = 4 then d.enterMode ack else d
def execModeEntered (ack : Bool) (s : State) : Answer := onDev (opModeEntered ack) s

/-- The wait after VOUT_COMMAND ends. A transition whose voltage does not settle is refused (R421). -/
def opPmbusSettleDone (settled : Bool) (d : Dev) : Dev :=
  match d.power.voutReq with
  | none => d
  | some r =>
    let d := d.modPower fun p => { p with voutReq := none }
    if r.why = .before ∧ d.changing then if settled then d.modeStep modeSteps else d.modeBack refRail else d
def execPmbusSettleDone (settled : Bool) (s : State) : Answer := onDev (opPmbusSettleDone settled) s

/-- 64 Ticks after the last one, the T7 reads READ_IOUT. -/
def opReadIout (ack : Bool) (amps : BitVec 16) (d : Dev) : Dev :=
  if !d.domainOn 1 || !d.flag powerBase Reg.PMB_CFG.EN || decide (d.tick < d.power.ioutTick + 64) then d
  else
  let d := d.modPower fun p => { p with ioutTick := d.tick }
  if ack && !d.proving (serialBase 2) then d.setFld powerBase Reg.PMB_STATUS.IOUT amps.toNat
  else d.pmbFail
def execReadIout (ack : Bool) (amps : BitVec 16) (s : State) : Answer := onDev (opReadIout ack amps) s

/-- A write of VSET_A, or of VSET_B: one that covers the mode in force is requested at once. -/
def Dev.vsetWrite (d : Dev) (b : Bool) (value : Word) (ack : Bool) : Dev :=
  let cur := d.vfab
  let m := d.mode
  let d := d.storeRw (powerBase + (if b then Reg.VSET_B.off else Reg.VSET_A.off)) value
  let covers := if b then m == modeProof || m == modeAssured else decide (modeIdle ≤ m ∧ m ≤ modeSurge)
  match d.vset m with
  | some mv => if covers then (d.vout cur mv .vset ack).1 else d
  | none => d
def opVsetWrite (path : Fin 8) (b : Bool) (value : Word) (ack : Bool) (d : Dev) : Dev :=
  d.viaWord path (powerBase + (if b then Reg.VSET_B.off else Reg.VSET_A.off)) value fun d => d.vsetWrite b value ack
def execVsetWrite (path : Fin 8) (b : Bool) (value : Word) (ack : Bool) (s : State) : Answer := onDev (opVsetWrite path b value ack) s

def opWakeN (d : Dev) : Dev := d.wake Reg.PWR_CFG.WAKE_N_EN
def execWakeN (s : State) : Answer := onDev opWakeN s

def opSpi1CsWake (d : Dev) : Dev := d.wake Reg.PWR_CFG.WAKE_SPI_EN
def execSpi1CsWake (s : State) : Answer := onDev opSpi1CsWake s

def opDormTimer (d : Dev) : Dev :=
  if d.power.dormTick + max 1 (d.fld powerBase Reg.DORM_TIMER.TICKS) ≤ d.tick then d.wake Reg.PWR_CFG.WAKE_TICK_EN else d
def execDormTimer (s : State) : Answer := onDev opDormTimer s

/-! ## Domains (R424 to R427) -/

/-- A write of PDd.ON (R425, R426). -/
def Dev.pdWrite (d : Dev) (k : Nat) (on : Bool) : Dev :=
  if on then (d.setFld pdBase (Reg.PD.ON.elem k) 1).requestOn domainDepth k
  else if k < 2 || d.dependentOn k then d.raise pdBase Reg.PD_EVENT.DEP_REJECT
  else d.turnOff k

def opPdWrite (path : Fin 8) (k : Fin 40) (on : Bool) (d : Dev) : Dev :=
  d.viaCtl path (pdBase + (Reg.PD.ON.elem k).off) [(Reg.PD.ON.elem k, bit01 on)] fun d => (d.pdWrite k on).modeStep modeSteps
def execPdWrite (path : Fin 8) (k : Fin 40) (on : Bool) (s : State) : Answer := onDev (opPdWrite path k on) s

/-- A logic quadrant has come on: its groups with a plate in force queue for admission while the forme runs (R436). -/
def Dev.quadrantUp (d : Dev) (k : Nat) : Dev :=
  if k < 32 || !d.runMode then d
  else
    d.each ((List.range 16).filter fun g => groupQuadrant g == k % 4) fun d g =>
      if d.groupInForce g && d.logicOn g then d.queueGroup g else d

def opPowerGood (k : Fin 40) (d : Dev) : Dev :=
  if d.pd k = pdRamping then ((d.domainGood k).quadrantUp k).modeStep modeSteps else d
def execPowerGood (k : Fin 40) (s : State) : Answer := onDev (opPowerGood k) s

/-- A domain enters FAULT, and Kryup hears of it. -/
def Dev.domainFails (d : Dev) (k : Nat) (f : Fld) : Dev :=
  (((d.domainFault k).raise pdBase f).offer causeDomain (BitVec.ofNat 32 k)).modeStep modeSteps

def opRampFail (k : Fin 40) (d : Dev) : Dev :=
  if d.coming k && decide (d.power.rampTick.at k d.tick + 4 ≤ d.tick) then d.domainFails k Reg.PD_EVENT.RAMP_FAIL else d
def execRampFail (k : Fin 40) (s : State) : Answer := onDev (opRampFail k) s

def opPgLost (k : Fin 40) (d : Dev) : Dev := if d.pd k = pdOn then d.domainFails k Reg.PD_EVENT.PG_LOST else d
def execPgLost (k : Fin 40) (s : State) : Answer := onDev (opPgLost k) s

/-! ## The Damper (R432 to R435) -/

/-- DMP_ACTIVE.GROUPS shows the groups in an episode, their own or a widened one. -/
def Dev.showEpisodes (d : Dev) : Dev :=
  d.setFld damperBase Reg.DMP_ACTIVE.GROUPS
    ((List.range 16).foldl (fun m g => if d.dampLevel g = 0 then m else m ||| 2 ^ g) 0)

/-- A group's episode takes a level, and its divider swallows, at the positions that remain in the crossing, what the level adds to
the greatest P of the crossing so far (R433). -/
def Dev.dampRise (d : Dev) (g level remain : Nat) (began : BitVec 64) : Dev :=
  let d := (d.modPower fun p => { p with episodes := p.episodes.put g { level := level, began := began } }).showEpisodes
  d.each (List.range 16) fun d h =>
    let p := d.groupP h
    let extra := min remain (p - d.keeper.topP.num h)
    if extra = 0 then d
    else
      let d := d.modKeeper fun k => { k with swallowed := k.swallowed.put h (k.swallowed.num h + extra), topP := k.topP.put h p }
      (d.countBy damperBase Reg.DMP_SWALLOW_COUNT.COUNT extra).checkBudget h

/-- DMP_LOG takes the first episode since it was read. -/
def Dev.dampLog (d : Dev) (g layer : Nat) (two : Bool) : Dev :=
  if d.flag damperBase Reg.DMP_LOG.VALID then d
  else
    d.setReg (damperBase + Reg.DMP_LOG.off)
      (BitVec.ofNat 32 (d.now % 2 ^ 16 * 2 ^ 16 + g * 2 ^ 12 + layer * 2 ^ 5 + bit01 two * 2 + 1))

/-- Sensors of a column in a layer (R432): 4 on each logic die, 2 on M1 and C3. -/
def droopSensors (layer : Nat) : Nat := if layer = 0 then 0 else if layer = 2 ∨ layer = 4 then 4 else 2

/-- The key of a droop sensor. -/
def droopKey (layer c i : Nat) : Nat := (layer * 256 + c) * 4 + i

def opDroopSense (c : Fin 256) (layer : Fin 5) (sensor : Fin 4) (two : Bool) (remain : Nat) (d : Dev) : Dev :=
  let g := groupOf c
  let level := if two then 2 else 1
  if !d.domainOn 0 || d.fabricKHz == 0 || decide (droopSensors layer ≤ sensor) || d.test.droopOut.mem (droopKey layer c sensor) then d
  else
    match d.power.episodes.look g with
    | none =>
      let d := (d.raise damperBase Reg.DMP_EVENT.EPISODE).count damperBase Reg.DMP_EPISODE_COUNT.COUNT
      ((d.raiseIf two damperBase Reg.DMP_EVENT.LEVEL2).dampLog g layer two).dampRise g level remain d.clk.trunkCyc
    | some e =>
      if level ≤ e.level then d
      else (d.raiseIf two damperBase Reg.DMP_EVENT.LEVEL2).dampRise g level remain e.began
def execDroopSense (c : Fin 256) (layer : Fin 5) (sensor : Fin 4) (two : Bool) (remain : Nat) (s : State) : Answer :=
  onDev (opDroopSense c layer sensor two remain) s

/-- The sensors of a group report less: level 1 when `one`, else none, and its quiet interval begins. -/
def opDroopSensorClear (g : Fin 16) (one : Bool) (d : Dev) : Dev :=
  match d.power.episodes.look g with
  | some e =>
    if e.level = 2 ∨ (e.level = 1 ∧ !one) then
      d.modPower fun p => { p with episodes := p.episodes.put g { e with level := bit01 one, quiet := d.clk.trunkCyc } }
    else d
  | none => d
def execDroopSensorClear (g : Fin 16) (one : Bool) (s : State) : Answer := onDev (opDroopSensorClear g one) s

/-- No fewer than `n` fabric cycles can have passed since the counter showed `t`: it counts whole crossings, and the present one
adds at most its N (DESIGN CHOICE, log entry 118). -/
def Dev.cyclesPassed (d : Dev) (t : BitVec 64) (n : Nat) : Bool := decide (n ≤ (d.clk.trunkCyc - t).toNat + d.clk.ratioN)

/-- A group's episode ends after its quiet interval. -/
def opEpisodeEnd (g : Fin 16) (d : Dev) : Dev :=
  match d.power.episodes.look g with
  | some e =>
    if e.level ≠ 0 ∨ !d.cyclesPassed e.quiet (64 * (1 + d.fld damperBase Reg.DMP_CFG.HOLD)) then d
    else
      let d := d.modPower fun p => { p with episodes := p.episodes.del g }
      let q := groupQuadrant g
      let quiet := !((List.range 16).any fun h => groupQuadrant h == q && d.power.episodes.has h)
      (if quiet then d.setFld damperBase ⟨Reg.DMP_ACTIVE.WIDE.off, 16 + q, 1⟩ 0 else d).showEpisodes
  | none => d
def execEpisodeEnd (g : Fin 16) (s : State) : Answer := onDev (opEpisodeEnd g) s

/-- An episode has run without a break for 64 × WIDEN fabric cycles. -/
def opWidened (g : Fin 16) (d : Dev) : Dev :=
  let q := groupQuadrant g
  let long := match d.power.episodes.look g with
    | some e => d.cyclesPassed e.began (64 * max 1 (d.fld damperBase Reg.DMP_CFG.WIDEN))
    | none => false
  if !long || bitOf (d.fld damperBase Reg.DMP_ACTIVE.WIDE) q then d
  else
    let d := (d.setFld damperBase ⟨Reg.DMP_ACTIVE.WIDE.off, 16 + q, 1⟩ 1).showEpisodes
    ((d.raise damperBase Reg.DMP_EVENT.WIDENED).count damperBase Reg.DMP_WIDEN_COUNT.COUNT).offer causeDroop (BitVec.ofNat 32 q)
def execWidened (g : Fin 16) (s : State) : Answer := onDev (opWidened g) s

/-- The next group of the admission queue is admitted, and its clock runs (R436). -/
def opGroupAdmit (d : Dev) : Dev :=
  match d.nextAdmit with
  | some g => ((d.modPower fun p => { p with admission := p.admission.filter (· != g) }).openGroup g).modeStep modeSteps
  | none => d
def execGroupAdmit (s : State) : Answer := onDev opGroupAdmit s

end Sys2Proof.Machine
end

