-- ==== Sys2Proof/Machine/Heat.lean ====
section
/-!
DEFINITION. The background token (R439 to R441), the thermal governor and its trip (R442 to R446), and the Tick (R389).
-/
namespace Sys2Proof.Machine

/-! ## The background token -/

/-- The activities, in the order of their rotation. -/
def activities : List Activity := [.staging, .plateScrub, .stageScrub, .memScrub, .march, .peal]

def Activity.code : Activity → Nat
  | .staging => 0 | .plateScrub => 1 | .stageScrub => 2 | .memScrub => 3 | .march => 4 | .peal => 5

/-- The modes and groups in which Peal starts slices (R470). -/
def Dev.pealPermits (d : Dev) (g : Nat) : Bool := d.mode == modeRoll || (d.mode == modeStrike && !d.decisionGroup g)

/-- A relief of Peal in a column. -/
def Dev.columnRelief (d : Dev) (c : Nat) : Bool :=
  match d.mem.relief.look (groupOf c) with
  | some r => !r.permanent && r.bank / 8 == c
  | none => false

/-- An activity has work to do in a column; pacing apart, it may wait for the token. -/
def Dev.mayWait (d : Dev) (c : Nat) : Activity → Bool
  | .staging => d.columnStaging c
  | .plateScrub | .stageScrub => d.plateScrubOn && !d.fenced c
  | .memScrub =>
    let b := columnBase 1 c
    d.flag b Reg.MEM_CTRL.SCRUB_EN && d.scrubMode && d.runs b && !d.fenced c
  | .march => d.mem.march.has c
  | .peal => (d.flag stctlBase Reg.PEAL_CTRL.EN && d.runs stctlBase && d.pealPermits (groupOf c)) || d.columnRelief c

/-- An activity that counts as running in M1. -/
def Dev.inM1 (d : Dev) (c : Nat) : Activity → Bool
  | .memScrub | .march => true
  | .peal => d.columnRelief c
  | _ => false

/-- The token is held by an activity whose slot has not ended: marches and slices end theirs with the grant that follows. -/
def Dev.tokenHeld (d : Dev) (c : Nat) : Bool :=
  match d.heat.token.look c with
  | none => false
  | some .march | some .peal => false
  | some a => d.mayWait c a

/-- The scheduler's choice: staging and reload first, then the next in rotation. -/
def Dev.nextActivity (d : Dev) (c : Nat) (paced : Nat) (tally : Bool) : Option Activity :=
  if d.mayWait c .staging then some .staging
  else if bitOf (d.heat.colStep.num c) 0 then none
  else
    let ok (a : Activity) := a != .staging && bitOf paced a.code && d.mayWait c a && (!tally || d.inM1 c a)
    let last := d.heat.lastBg.num c
    (activities.find? fun a => decide (last < a.code) && ok a).orElse fun _ => activities.find? ok

/-- A slot of a column's background work. In a hot column the slot after one that was granted stays idle. -/
def opBackgroundGrant (c : Fin 256) (paced : BitVec 6) (tally : Bool) (d : Dev) : Dev :=
  if !d.domainOn 0 || d.tokenHeld c then d
  else
    let hot := d.heat.hotMap.mem c || d.heat.hotMap.mem (256 + c)
    if hot && d.heat.idleSlot.mem c then
      d.modHeat fun h => { h with idleSlot := h.idleSlot.del c, token := h.token.del c }
    else
      match d.nextActivity c paced.toNat tally with
      | none => d.modHeat fun h => { h with token := h.token.del c }
      | some a =>
        d.modHeat fun h =>
          { h with token := h.token.put c a
                   lastBg := if a = .staging then h.lastBg else h.lastBg.put c a.code
                   idleSlot := if hot then h.idleSlot.put c 1 else h.idleSlot }
def execBackgroundGrant (c : Fin 256) (paced : BitVec 6) (tally : Bool) (s : State) : Answer := onDev (opBackgroundGrant c paced tally) s

/-! ## The governor -/

/-- A threshold in force, as a TEMP code: a value above the reset value acts as that. -/
def Dev.threshold (d : Dev) (f : Fld) : Nat :=
  tempCode (min (fget (resetValue (kryupBase + Reg.THM_TH.off)) f) (d.fld kryupBase f))

/-- HYST as a difference of codes, and P. -/
def Dev.hyst (d : Dev) : Nat := 2 * max 1 (d.fld kryupBase Reg.THM_CFG.HYST)
def Dev.thmP (d : Dev) : Nat := max 1 (d.fld kryupBase Reg.THM_CFG.P)

/-- A powered layer of a column has no valid sensor (R438). -/
def Dev.sensorLost (d : Dev) (c : Nat) : Bool :=
  (List.range 5).any fun l => d.sensorsOn l c && !d.sensorValid l c 0 && !d.sensorValid l c 1

/-- The column temperature, as the governor takes it. -/
def Dev.columnTemp (d : Dev) (c : Nat) : Nat :=
  let t := (List.range 5).foldl (fun m l => max m (d.layerTemp l c)) 0
  if d.sensorLost c then max t (d.threshold Reg.THM_TH.SW) else t

/-- A step in force after a Tick: it begins at its threshold and ends below the threshold less HYST. -/
def Dev.stepStands (d : Dev) (f : Fld) (was : Bool) (t : Nat) : Bool :=
  decide (d.threshold f ≤ t) || (was && decide (d.threshold f ≤ t + d.hyst))

/-- The governor's evaluation of one column. -/
def Dev.governColumn (d : Dev) (c : Nat) : Dev :=
  let t := d.columnTemp c
  let was := d.heat.colStep.num c
  let bg := d.stepStands Reg.THM_TH.BG (bitOf was 0) t
  let evt := d.stepStands Reg.THM_TH.EVT (bitOf was 1) t
  let hold := d.stepStands Reg.THM_TH.HOLD (bitOf was 2) t
  let d := (d.modHeat fun h => { h with colStep := h.colStep.setNum c (bit01 bg + 2 * bit01 evt + 4 * bit01 hold) }).raiseIf
    (bg && !bitOf was 0) kryupBase Reg.THM_EVENT.BG_SUSPEND
  let d := d.raiseIf (d.sensorLost c) kryupBase Reg.THM_EVENT.SENSOR_LOST
  let g := groupOf c
  if decide (d.threshold Reg.THM_TH.SW ≤ t) && !d.decisionGroup g && !d.heat.pT.has g then
    (d.modHeat fun h => { h with pT := h.pT.put g (min d.swallowMax d.thmP), pTick := h.pTick.put g d.tick }).raise kryupBase
      Reg.THM_EVENT.SWALLOW
  else d

/-- The hottest column: its temperature and its index, the lowest of equals. -/
def Dev.hottestColumn (d : Dev) : Nat × Nat :=
  (List.range 256).foldl (fun m c => if m.1 < d.columnTemp c then (d.columnTemp c, c) else m) (0, 0)

/-- A step stands for the device: some column holds it in force. -/
def HeatRec.stands (h : HeatRec) (i : Nat) : Bool := h.colStep.items.any fun e => bitOf e.2 i

/-- THM_STATUS.STEP, the highest step in force. -/
def Dev.thermalStep (d : Dev) : Nat :=
  if d.flag kryupBase Reg.THM_STATUS.TRIPPED then 5
  else if d.heat.hold then 4
  else if d.heat.stands 1 then 3
  else if !d.heat.pT.items.isEmpty then 2
  else if d.heat.stands 0 then 1
  else 0

/-- The governor's evaluation at a Tick (R442). -/
def Dev.govern (d : Dev) : Dev :=
  let hot := d.heat.stands 1
  let held := d.heat.hold
  let d := d.each (List.range 256) Dev.governColumn
  let d := d.raiseIf (d.heat.stands 1 && !hot) kryupBase Reg.THM_EVENT.HOT
  let now := d.heat.stands 2
  let d := (d.modHeat fun h => { h with hold := now }).raiseIf (now && !held) kryupBase Reg.THM_EVENT.HOLD
  let (t, c) := d.hottestColumn
  let d := (d.setFld kryupBase Reg.THM_STATUS.HOT_TEMP t).setFld kryupBase Reg.THM_STATUS.HOT_COL c
  let d := d.setFld kryupBase Reg.THM_STATUS.STEP d.thermalStep
  if now then d.offer causeThermalHold (BitVec.ofNat 32 c) else d

/-- TEMP_PEAK of a layer of a column. -/
def Dev.notePeak (d : Dev) (u : Nat) : Dev :=
  let b := 0x400000 + u * 0x1000
  let t := d.layerTemp (u / 256) (u % 256)
  if d.ust b ≠ .off ∧ d.fld b Reg.TEMP_PEAK.PEAK < t then d.setFld b Reg.TEMP_PEAK.PEAK t else d

/-- P_T of a group moves 64 Ticks after its last change (R443). -/
def opGovernorPTAdjust (g : Fin 16) (d : Dev) : Dev :=
  match d.heat.pT.look g with
  | none => d
  | some p =>
    if d.tick < d.heat.pTick.num g + 64 then d
    else
      let d := d.modHeat fun h => { h with pTick := h.pTick.put g d.tick }
      let cols := groupColumns g
      let sw := d.threshold Reg.THM_TH.SW
      if cols.any fun c => decide (sw ≤ d.columnTemp c) then
        d.modHeat fun h => { h with pT := h.pT.put g (min d.swallowMax (p + d.thmP)) }
      else if cols.all fun c => decide (d.columnTemp c + d.hyst < sw) then
        let d := d.modHeat fun h =>
          if p ≤ d.thmP then { h with pT := h.pT.del g, pTick := h.pTick.del g } else { h with pT := h.pT.put g (p - d.thmP) }
        d.setFld kryupBase Reg.THM_STATUS.STEP d.thermalStep
      else d
def execGovernorPTAdjust (g : Fin 16) (s : State) : Answer := onDev (opGovernorPTAdjust g) s

/-- A sensor of a powered layer reaches 110 °C (R444). VFAB_EN is low while the latch holds. -/
def opThermalTrip (layer : Fin 5) (c : Fin 256) (d : Dev) : Dev :=
  if !d.sensorsOn layer c then d
  else
    let d := (d.setFld kryupBase Reg.THM_STATUS.TRIPPED 1).raise kryupBase Reg.THM_EVENT.TRIP
    (d.setFld kryupBase Reg.THM_STATUS.STEP 5).offer causeTrip (BitVec.ofNat 32 c)
def execThermalTrip (layer : Fin 5) (c : Fin 256) (s : State) : Answer := onDev (opThermalTrip layer c) s

/-! ## The Tick -/

/-- The watchdog counts (R459). -/
def Dev.wdgRuns (d : Dev) : Bool := d.flag kryupBase Reg.WDG_CFG.EN && d.load.opened && d.runMode

/-- A Tick elapses. The readings that differ from `common` are given by sensor key, the monitors' measurements by monitor. -/
def opTick (common : BitVec 9) (temps : List (Fin 2560 × BitVec 9)) (regCycles : Nat) (freqs : List (Fin 4 × Nat)) (d : Dev) : Dev :=
  let d := d.modClk fun c => { c with tick := c.tick + 1, regCyc := c.regCyc + BitVec.ofNat 64 regCycles }
  let d := d.each freqs fun d f => d.measure f.1 f.2
  let readings := temps.foldl (fun (m : SMap Nat) e => m.put e.1 e.2.toNat) {}
  let d := d.modHeat fun h => { h with common := common.toNat, readings := readings }
  let d := (d.each (List.range 1280) Dev.notePeak).govern
  let d := if d.kryup.crossLost then d.offer causeCrossLost (BitVec.ofNat 32 d.now) else d
  if d.wdgRuns then d.modKryup fun k => { k with wdgTicks := k.wdgTicks + 1 } else d
def execTick (common : BitVec 9) (temps : List (Fin 2560 × BitVec 9)) (regCycles : Nat) (freqs : List (Fin 4 × Nat)) (s : State) : Answer :=
  onDev (opTick common temps regCycles freqs) s

end Sys2Proof.Machine
end

