-- ==== Sys2Proof/Machine/Kryup.lean ====
section
/-!
DEFINITION. The commands on Kryup (R448 to R463): supplies, latches, the watchdog, proposals, and the resets that software and
pins ask for.
-/
namespace Sys2Proof.Machine

/-- A rail outside its limits for 2 consecutive Ticks; the fuse rail is not monitored. LPDDR5X loses its contents with the rails
that keep it (R328). -/
def opSupply (rail : Fin 19) (d : Dev) : Dev :=
  if rail.val = 18 then d
  else
    let d := if rail.val = 7 then (d.extLost 0).extLost 1 else d
    d.offer causeSupply (BitVec.ofNat 32 rail)
def execSupply (rail : Fin 19) (s : State) : Answer := onDev (opSupply rail) s

/-- HOLD Ticks have passed since the end of the Tick in which a cause last arrived (R450). -/
def opCauseLatchClear (c : Fin 17) (d : Dev) : Dev :=
  let hold := d.polHold c
  if d.latched c && decide (hold ≠ 0 ∧ d.kryup.lastTick.num c + 1 + hold ≤ d.tick) then (d.setLatch c false).showLatches else d
def execCauseLatchClear (c : Fin 17) (s : State) : Answer := onDev (opCauseLatchClear c) s

/-- A change of level that a capture edge saw at source A arrives from the Strike Port. -/
def opWatchdogKick (d : Dev) : Dev :=
  if d.strike.kicked then (d.modStrike fun s => { s with kicked := false }).modKryup fun k => { k with wdgTicks := 0 } else d
def execWatchdogKick (s : State) : Answer := onDev opWatchdogKick s

/-- PERIOD Ticks have passed without a kick. -/
def opWatchdog (d : Dev) : Dev :=
  if d.wdgRuns && decide (max 1 (d.fld kryupBase Reg.WDG_CFG.PERIOD) ≤ d.kryup.wdgTicks) then
    d.offer causeWatchdog (BitVec.ofNat 32 d.kryup.wdgTicks)
  else d
def execWatchdog (s : State) : Answer := onDev opWatchdog s

/-! ## Proposals (R456) -/

def propCtrlAddr : Nat := kryupBase + Reg.PROP_CTRL.off
def propDataAddr : Nat := kryupBase + Reg.PROP_DATA.off

def propEmpty : Nat := 0
def propOpened : Nat := 1
def propSubmitted : Nat := 2

/-- PROP_STATUS.STATE. -/
def Dev.propState (d : Dev) : Nat := d.fld kryupBase Reg.PROP_STATUS.STATE

/-- The buffer is empty, in a state. -/
def Dev.emptyProp (d : Dev) (st : Nat) : Dev :=
  ((d.modKryup fun k => { k with prop := [] }).setFld kryupBase Reg.PROP_STATUS.WORDS 0).setFld kryupBase Reg.PROP_STATUS.STATE st

def Dev.propOpen (d : Dev) : Dev := d.emptyProp propOpened
def Dev.propSubmit (d : Dev) : Dev :=
  if d.propState = propOpened then d.setFld kryupBase Reg.PROP_STATUS.STATE propSubmitted else d
def Dev.propDiscard (d : Dev) : Dev :=
  if d.propState = propOpened ∨ d.propState = propSubmitted then d.emptyProp propEmpty else d

/-- A word written to PROP_DATA. -/
def Dev.propData (d : Dev) (w : Word) : Dev :=
  let d := d.setReg propDataAddr w
  if d.propState ≠ propOpened ∨ bufferWords < d.kryup.prop.length then d
  else
    (d.modKryup fun k => { k with prop := k.prop ++ [w] }).setFld kryupBase Reg.PROP_STATUS.WORDS
      (min bufferWords (d.kryup.prop.length + 1))

/-- A write of PROP_CTRL: DISCARD acts first, then SUBMIT, then OPEN. -/
def Dev.propCtrl (d : Dev) (w : Word) : Dev :=
  let d := if fget w Reg.PROP_CTRL.DISCARD = 1 then d.propDiscard else d
  let d := if fget w Reg.PROP_CTRL.SUBMIT = 1 then d.propSubmit else d
  if fget w Reg.PROP_CTRL.OPEN = 1 then d.propOpen else d

def opPropOpen (path : Fin 8) (d : Dev) : Dev := d.viaCtl path propCtrlAddr [(Reg.PROP_CTRL.OPEN, 1)] Dev.propOpen
def execPropOpen (path : Fin 8) (s : State) : Answer := onDev (opPropOpen path) s

def opPropDataWrite (path : Fin 8) (value : Word) (d : Dev) : Dev := d.viaWord path propDataAddr value fun d => d.propData value
def execPropDataWrite (path : Fin 8) (value : Word) (s : State) : Answer := onDev (opPropDataWrite path value) s

def opPropSubmit (path : Fin 8) (d : Dev) : Dev := d.viaCtl path propCtrlAddr [(Reg.PROP_CTRL.SUBMIT, 1)] Dev.propSubmit
def execPropSubmit (path : Fin 8) (s : State) : Answer := onDev (opPropSubmit path) s

def opPropDiscard (path : Fin 8) (d : Dev) : Dev := d.viaCtl path propCtrlAddr [(Reg.PROP_CTRL.DISCARD, 1)] Dev.propDiscard
def execPropDiscard (path : Fin 8) (s : State) : Answer := onDev (opPropDiscard path) s

/-! ## Resets (R460, R461) -/

def rstReqAddr : Nat := kryupBase + Reg.RST_REQ.off

/-- RESET_CAUSE.LAST. -/
def lastPin : Nat := 1
def lastReq : Nat := 2

def opResetN (d : Dev) : Dev := if d.load.step = .power then d else d.resetDevice lastPin
def execResetN (s : State) : Answer := onDev opResetN s

/-- A write of RST_REQ (R460): with the key, a device reset, or else a base warm reset; with any other, KW_WRITE alone. -/
def Dev.rstReq (d : Dev) (path key : Nat) (device warm : Bool) : Dev :=
  if key ≠ 0xC3 then d.kwCause path rstReqAddr
  else
    let d := d.setFld kryupBase Reg.RST_REQ.KEY key
    if device then d.resetDevice lastReq else if warm then d.warmReset else d

def opRstReqDevice (path : Fin 8) (key : Byte) (d : Dev) : Dev := 
  d.viaCtl path rstReqAddr [(Reg.RST_REQ.KEY, key.toNat), (Reg.RST_REQ.DEVICE, 1)] fun d => d.rstReq path key.toNat true false
def execRstReqDevice (path : Fin 8) (key : Byte) (s : State) : Answer := onDev (opRstReqDevice path key) s

def opRstReqWarm (path : Fin 8) (key : Byte) (d : Dev) : Dev := 
  d.viaCtl path rstReqAddr [(Reg.RST_REQ.KEY, key.toNat), (Reg.RST_REQ.WARM, 1)] fun d => d.rstReq path key.toNat false true
def execRstReqWarm (path : Fin 8) (key : Byte) (s : State) : Answer := onDev (opRstReqWarm path key) s

end Sys2Proof.Machine
end

