-- ==== Sys2Proof/Machine/SelfTest.lean ====
section
/-!
DEFINITION. The commands on self-test (R465 to R487): the service BIST, Peal's slices and reliefs, tests of privileged units,
the soft repair map, fuse repairs and scan.
-/
namespace Sys2Proof.Machine

/-! ## Service BIST (R466 to R469) -/

def bistCmdAddr : Nat := stctlBase + Reg.BIST_CMD.off

/-- BIST_CMD.GO: performed in PROOF, while the forme is not released and the controller accepts work. -/
def Dev.bistGo (d : Dev) : Dev :=
  if d.mode = modeProof ∧ !d.load.opened ∧ d.runs stctlBase ∧ d.test.bist.isNone then
    d.modTest fun t => { t with bist := some (d.fld stctlBase Reg.BIST_CMD.GROUPS + d.fld stctlBase Reg.BIST_CMD.B0 * 2 ^ 16) }
  else d.raise stctlBase Reg.PEAL_EVENT.BIST_REJECT

def opBistCmd (path : Fin 8) (b0 : Bool) (groups : BitVec 16) (d : Dev) : Dev :=
  d.viaCtl path bistCmdAddr
    [(Reg.BIST_CMD.B0, bit01 b0), (Reg.BIST_CMD.GROUPS, groups.toNat), (Reg.BIST_CMD.GO, 1)] fun d =>
    ((d.setFld stctlBase Reg.BIST_CMD.B0 (bit01 b0)).setFld stctlBase Reg.BIST_CMD.GROUPS groups.toNat).bistGo
def execBistCmd (path : Fin 8) (b0 : Bool) (groups : BitVec 16) (s : State) : Answer := onDev (opBistCmd path b0 groups) s

/-- What a group's storage holds after a BIST: banks of zeros, and empty plate slots. -/
def Dev.bistGroup (d : Dev) (g : Nat) : Dev :=
  let cols := groupColumns g
  let d := d.zeroBank (reliefNumber g)
  let d := d.each cols fun d c => d.each (List.range 8) fun d k => d.zeroBank (c * 8 + k)
  let d := d.each (List.range 4) fun d s => (d.setPslot g s slotEmpty).setPslotPlate g s 0
  d.modPlates fun p =>
    { p with plateFrames := p.plateFrames.keep fun k => groupOf (plateKeyColumn k) != g
             plateErr := p.plateErr.keep fun k => groupOf (plateKeyColumn k) != g
             stageFrames := p.stageFrames.keep fun k => groupOf (stageKeyColumn k) != g
             stageErr := p.stageErr.keep fun k => groupOf (stageKeyColumn k) != g
             ownUpset := p.ownUpset.keep fun k => groupOf (k / 4096) != g }

/-- What the test of B0 destroys: ring directories, tally trees and input FIFOs, and what the alignment buffers hold. -/
def Dev.bistBase (d : Dev) : Dev := ({ d with rings := {} }).each (List.range 144) fun d n => d.modLane n fun r => { r with held := [] }

/-- An entry of a service BIST: via repairs take effect at the next boot. -/
def Dev.serviceEntry (d : Dev) (w0 : Nat) : Dev × Bool :=
  if repClass w0 = 1 ∨ repClass w0 = 2 then (d.repLog w0 originBist repDeferred, false) else d.bistEntry originBist w0

/-- What a BIST reports: the groups tested, those with an uncovered fault, B0 and the duration. -/
def Dev.bistReport (d : Dev) (tested fail : Nat) (b0Fail : Bool) (ms : Nat) : Dev :=
  let b := stctlBase
  let old := d.fld b Reg.BIST_STATUS.GROUPS_FAIL
  let d := d.setFld b Reg.BIST_STATUS.GROUPS_FAIL ((old &&& (tested ^^^ 0xFFFF)) ||| fail)
  let d := if bitOf tested 16 then d.setFld b Reg.BIST_STATUS.B0_FAIL (bit01 b0Fail) else d
  (d.setFld b Reg.BIST_STATUS.RAN 1).setFld b Reg.BIST_TIME.MS (min ms 0xFFFF)

/-- The groups of columns, as a mask. -/
def groupMask (cols : List Nat) : Nat := cols.foldl (fun m c => m ||| 2 ^ groupOf c) 0

/-- A service BIST ends, with the entries it makes, columns with a logic fault, and whether B0 holds an uncovered fault. -/
def opBistDone (entries : List Word) (logic : List (Fin 256)) (b0 : Bool) (ms : Nat) (d : Dev) : Dev :=
  match d.test.bist with
  | none => d
  | some mask =>
    let d := d.modTest fun t => { t with bist := none }
    let named (w : Word) := bitOf mask (groupOf (repCol w.toNat))
    let (d, fail) := (entries.filter named).foldl (fun (x : Dev × Nat) w =>
      let (d, bad) := x.1.serviceEntry w.toNat
      (d, if bad then x.2 ||| 2 ^ groupOf (repCol w.toNat) else x.2)) (d, 0)
    let cols := (logic.map fun c => c.val).filter fun c => bitOf mask (groupOf c)
    let d := d.each cols Dev.logicFault
    let d := d.bistReport mask (fail ||| groupMask cols) b0 ms
    let d := d.each (maskGroups mask) Dev.bistGroup
    let d := if mask % 2 ^ 16 = 0 then d else d.each (List.range 4) fun d s => (d.setStage s stageEmpty).setStageInfo s 0 0
    let d := if bitOf mask 16 then d.bistBase else d
    d.raise stctlBase Reg.PEAL_EVENT.BIST_DONE
def execBistDone (entries : List Word) (logic : List (Fin 256)) (b0 : Bool) (ms : Nat) (s : State) : Answer :=
  onDev (opBistDone entries logic b0 ms) s

/-! ## Peal (R470 to R479) -/

/-- The kind of a slice. -/
def pealKind : PealWork → Nat
  | .relief _ => 1 | .reliefTest _ => 2 | .plate _ _ _ => 3 | .stage _ _ => 4 | .tally _ _ _ => 5 | .vertical _ _ _ _ => 6 | _ => 7

/-- Peal finds a fault. -/
def Dev.pealFail (d : Dev) : Dev := (d.raise stctlBase Reg.PEAL_EVENT.FAIL).count stctlBase Reg.PEAL_FAIL_COUNT.COUNT

def Dev.pealFails (d : Dev) : Nat → Dev
  | 0 => d
  | n + 1 => (Dev.pealFails d n).pealFail

/-- An analogue check fails. -/
def Dev.pealAnalogue (d : Dev) : Dev := d.pealFail.raise stctlBase Reg.PEAL_EVENT.ANALOGUE

/-- A slice that Peal may take now (R472, R475, R477). -/
def Dev.pealFits (d : Dev) (c : Nat) : PealWork → Bool
  | .relief bank =>
    let b := columnBase 1 c
    let k := c * 8 + bank.val
    d.runs b && !d.fenced c && !d.bankDead k && !(bank.val == 7 && d.mem.twin.mem c) && d.reliefFree (groupOf c)
  | .reliefTest _ => d.reliefFree (groupOf c)
  | .plate _ slot _ =>
    let g := groupOf c
    let named := match d.plates.pending.look g with | some p => p.list.contains slot.val | none => false
    !d.inForce g slot && !named && d.pslot g slot != slotLoading
  | .stage slot _ =>
    match d.plates.dataCmd with
    | some (.fillLp s _ _) | some (.fillStream s) | some (.stage s _ _) | some (.reload _ _ s _) => s != slot.val
    | none => true
  | .tally upper unit _ =>
    let t := c * 2 + bit01 upper
    !d.plates.cycling.has (groupOf c) &&
      (d.tileBlank t || (d.slotNow (groupOf c)).isNone || !(Config.tallySetup (d.bitsNow t) unit).used)
  | .eyeStart n => decide ((d.lane n).eye = .idle) && d.runs (laneBase n)
  | _ => true

/-- A frame row that fails takes a spare of its storage; a slot that is not EMPTY has then met an uncorrectable word (R476). -/
def Dev.pealRow (d : Dev) (c sub row : Nat) (ded : Dev → Dev) : Dev :=
  let (d, ok) := d.takeFrameSpare (frameStorage c sub) row
  let d := (d.repLog (repWord 6 c sub row) originPeal (if ok then repApplied else repNoSpare)).pealFail
  if ok then ded d else d

/-- The valid readings of a column. -/
def Dev.validReadings (d : Dev) (c : Nat) : List Nat :=
  (List.range 10).filterMap fun i => if d.sensorValid (i / 2) c (i % 2) then some (d.reading (sensorKey (i / 2) c (i % 2))) else none

/-- Twice the median of a list; of an even number of readings, the two in the middle together. -/
def median2 (l : List Nat) : Nat :=
  let s := l.mergeSort
  let n := s.length
  s.getD ((n - 1) / 2) 0 + s.getD (n / 2) 0

/-- A thermal sensor's check: the fourth difference in a row marks it failed. -/
def Dev.pealThermal (d : Dev) (layer c i : Nat) : Dev :=
  let k := sensorKey layer c i
  if !d.sensorValid layer c i then d
  else
    let m := median2 (d.validReadings c)
    let r := 2 * d.reading k
    let far := decide (4 * max 1 (d.fld stctlBase Reg.PEAL_CFG.TH_DIFF) < max (r - m) (m - r))
    let n := if far then d.test.thDiff.num k + 1 else 0
    let d := d.modTest fun t => { t with thDiff := t.thDiff.setNum k n }
    if n < 4 then d
    else
      let d := d.modHeat fun h => { h with failed := h.failed.put k 1 }
      (d.repLog (repWord 7 c layer i) originPeal repRecorded).pealAnalogue

/-- A droop sensor that reports at its set value is excluded; the last one of a tile degrades the units of its column with cause
SENSORS_LOST (R36, R479). -/
def Dev.droopExclude (d : Dev) (layer c i : Nat) : Dev :=
  if d.test.droopOut.mem (droopKey layer c i) then d
  else
    let d := d.modTest fun t => { t with droopOut := t.droopOut.put (droopKey layer c i) 1 }
    if droopSensors layer = 4 ∧ (List.range 4).all fun j => d.test.droopOut.mem (droopKey layer c j) then
      d.colLose c colSensorsLost
    else d

/-- What a slice does to a column. -/
def Dev.pealRun (d : Dev) (c : Nat) : PealWork → Dev
  | .relief bank => d.modMem fun m => { m with relief := m.relief.put (groupOf c) { bank := c * 8 + bank } }
  | .reliefTest bad =>
    if bad then (d.modTest fun t => { t with reliefBad := t.reliefBad.put (groupOf c) 1 }).pealFail
    else d
  | .plate upper slot rows =>
    let full := d.pslot (groupOf c) slot != slotEmpty
    d.each rows fun d row => d.pealRow c (bit01 upper * 4 + slot) row fun d =>
      if full then d.plateDed c slot (bit01 upper) row else d
  | .stage slot rows =>
    let full := d.stageSt slot != stageEmpty
    d.each rows fun d row => d.pealRow c (8 + slot) row fun d => if full then d.stageDed c slot row else d
  | .tally upper unit bad =>
    if bad then
      let d := d.modTest fun t => { t with tallyBad := t.tallyBad.put (tallyKey (bit01 upper) c unit) 1 }
      (d.repLog (repWord 8 c (bit01 upper) unit) originPeal repRecorded).pealFail
    else d
  | .vertical control spares shafts clocks =>
    let located := if bitOf (d.reg (columnBase 0 c + Reg.FAULT.START_FAIL.off)).toNat 8 then control.filter fun v => decide (266 ≤ v.2.2.val) else []
    let d := d.each located fun d v => (d.viaFailedBy originPeal c v.1 v.2.1 v.2.2).pealFail
    let free := spares.filter fun v => decide ((d.stack.repaired.at (bundleKey c v.1 v.2) []).length < 16)
    let d := d.each free fun d v =>
      let k := bundleKey c v.1 v.2
      let used := d.stack.repaired.at k []
      (d.modStack fun s => { s with repaired := s.repaired.put k ((deadSpare + used.length) :: used) }).pealFail
    let owned := (List.range 4).filter fun s => d.pslot (groupOf c) s != slotEmpty && !d.slotBlank c s
    let unowned : List (Fin 1024) := shafts.filter fun v => !owned.any fun s => d.owner c s v.val != 0
    let d := d.each unowned fun d v =>
      let k := bundleKey c viaShaft (v.val / 256)
      let w0 := repWord 1 c viaShaft (v.val / 256 * 2 ^ 13 + v.val % 256)
      if (d.stack.repaired.at k []).length < 16 then (d.repLog w0 originPeal repDeferred).pealFail
      else
        let (d, r) := d.shaftTake c (v.val / 256) (v.val % 256)
        (d.repLog w0 originPeal r).pealFail
    d.each clocks fun d v =>
      let b := columnBase 0 c
      if d.fld b Reg.CLK_VIA.ACTIVE = v.val then d
      else
        let d := d.setFld b Reg.CLK_VIA.FAILED (d.fld b Reg.CLK_VIA.FAILED ||| 2 ^ v.val)
        (d.repLog (repWord 2 c 0 v) originPeal repApplied).pealFail
  | .pllMargin bad => if bad then d.pealAnalogue else d
  | .droop layer sensor bad => if bad && decide (sensor.val < droopSensors layer) then (d.droopExclude layer c sensor).pealAnalogue else d
  | .thermal layer sensor => d.pealThermal layer c sensor
  | .eyeStart n => d.modLane n fun r => { r with eye := .peal }
  | .eyeWidth _ width => if width < d.fld stctlBase Reg.PEAL_CFG.EYE_MIN then d.pealAnalogue else d

/-- Peal takes its next slice in a column whose token it holds; `tour` tells that the slice ends a tour, and `late` that the
tour overran. -/
def opPealSlice (c : Fin 256) (work : PealWork) (tour late : Bool) (d : Dev) : Dev :=
  let b := stctlBase
  if d.runs b && d.flag b Reg.PEAL_CTRL.EN && bitOf (d.fld b Reg.PEAL_CTRL.KIND_EN) ((pealKind work) - 1) && d.pealPermits (groupOf c) &&
      d.holdsToken c .peal && !bitOf (d.heat.colStep.num c) 0 && d.pealFits c work then
    let d := ((d.freeToken c).setFld b Reg.PEAL_STATUS.KIND (pealKind work)).setFld b Reg.PEAL_STATUS.COLUMN c
    let d := d.pealRun c work
    let d := if tour then d.count b Reg.PEAL_TOUR_COUNT.COUNT else d
    d.raiseIf late b Reg.PEAL_EVENT.TOUR_LATE
  else d
def execPealSlice (c : Fin 256) (work : PealWork) (tour late : Bool) (s : State) : Answer := onDev (opPealSlice c work tour late) s

/-- The faults of a relief's march: each takes a spare (R473). Whether all were covered. -/
def Dev.reliefFaults (d : Dev) (bank : Nat) (faults : List (Bool × Fin 2128)) : Dev × Bool :=
  faults.foldl (fun (x : Dev × Bool) f =>
    let (d, ok) := x.1.takeSpare bank f.1 f.2
    let d := d.repLog (repWord (if f.1 then 4 else 3) (bank / 8) (bank % 8) f.2) originPeal (if ok then repApplied else repNoSpare)
    (d.pealFail, x.2 && ok)) (d, true)

/-- A phase of a group's relief ends, with the faults that a march found: a bit line where true, and its position. -/
def opReliefPhaseEnd (g : Fin 16) (faults : List (Bool × Fin 2128)) (d : Dev) : Dev :=
  match d.mem.relief.look g with
  | none => d
  | some r =>
    let c := r.bank / 8
    if r.permanent || (bitOf (d.heat.colStep.num c) 0 && !r.wind) then d
    else if r.phase = 0 then
      ((d.copyBank r.bank (reliefNumber g) r.bank).modMem fun m => { m with relief := m.relief.put g { r with phase := 1 } }).showRelief g r.bank true
    else if r.phase = 1 then
      let (d, ok) := (d.zeroBank r.bank).reliefFaults r.bank faults
      if ok then d.modMem fun m => { m with relief := m.relief.put g { r with phase := 2 } }
      else
        let d := (d.reliefForGood r.bank).raise (columnBase 1 c) Reg.MEM_EVENT.BANK_DEAD
        let d := d.repLog (repWord 5 c (r.bank % 8) 0) originPeal repApplied
        (d.setFld stctlBase ⟨Reg.PEAL_STATUS.off, g, 1⟩ 0).modeStep modeSteps
    else ((d.copyBank (reliefNumber g) r.bank r.bank).endRelief g r).modeStep modeSteps
def execReliefPhaseEnd (g : Fin 16) (faults : List (Bool × Fin 2128)) (s : State) : Answer := onDev (opReliefPhaseEnd g faults) s

/-! ## Privileged units (R480) -/

def pealPrivAddr : Nat := stctlBase + Reg.PEAL_PRIV.off

/-- The unit that a TARGET names. -/
def Dev.privUnit (d : Dev) (t : Nat) : Option Nat :=
  if t = 0 then some cryptoBase else if t = 1 then some (pllBase d.standbyRoot) else if t = 2 then some strikeBase else none

/-- PEAL_PRIV.GO. -/
def Dev.privGo (d : Dev) : Dev :=
  match d.privUnit (d.fld stctlBase Reg.PEAL_PRIV.TARGET) with
  | some b =>
    if d.mode = modeProof ∧ d.ust b = .stopped ∧ d.test.priv.isNone then
      (d.isolate b).modTest fun t => { t with priv := some b }
    else d.raise stctlBase Reg.PEAL_EVENT.PRIV_REJECT
  | none => d.raise stctlBase Reg.PEAL_EVENT.PRIV_REJECT

def opPealPriv (path : Fin 8) (target : Fin 4) (d : Dev) : Dev :=
  d.viaCtl path pealPrivAddr [(Reg.PEAL_PRIV.TARGET, target), (Reg.PEAL_PRIV.GO, 1)] fun d => (d.setFld stctlBase Reg.PEAL_PRIV.TARGET target).privGo
def execPealPriv (path : Fin 8) (target : Fin 4) (s : State) : Answer := onDev (opPealPriv path target) s

def opPrivDone (fail : Bool) (d : Dev) : Dev :=
  match d.test.priv with
  | none => d
  | some b =>
    let d := (d.unisolate b).modTest fun t => { t with priv := none }
    (d.setFld stctlBase Reg.PEAL_PRIV.FAIL (bit01 fail)).raise stctlBase Reg.PEAL_EVENT.PRIV_DONE
def execPrivDone (fail : Bool) (s : State) : Answer := onDev (opPrivDone fail) s

/-! ## The soft map and the fuses (R482 to R485) -/

def repCmdAddr : Nat := stctlBase + Reg.REP_CMD.off

def rstOk : Nat := 0
def rstBusy : Nat := 1
def rstFull : Nat := 2
def rstLocked : Nat := 3
def rstBadOp : Nat := 4
def rstFlashErr : Nat := 5

def Dev.repStatus (d : Dev) (st : Nat) : Dev := d.setFld stctlBase Reg.REP_STATUS.STATUS st

/-- Entries join a map, those already present apart. -/
def appendNew (m : List Word) (l : List Word) : List Word := l.foldl (fun m w => if m.contains w then m else m ++ [w]) m

/-- An entry that COMMIT_ALL takes. -/
def RepEntry.lasting (e : RepEntry) : Bool :=
  let o := bitsOf e.w1.toNat 28 4
  let r := bitsOf e.w1.toNat 24 4
  decide (2 ≤ o ∧ o ≤ 5) && (r == repApplied || r == repDeferred || r == repRecorded)

/-- The command that REP_CMD holds is given. -/
def Dev.repGo (d : Dev) : Dev :=
  let i := d.fld stctlBase Reg.REP_CMD.INDEX
  let m := d.test.softMap
  let run (m' : List Word) : Dev :=
    if 4096 < m'.length then d.repStatus rstFull else (d.modTest fun t => { t with repRun := some m' }).repStatus rstBusy
  if d.test.repRun.isSome then d.repStatus rstBusy
  else
    match d.fld stctlBase Reg.REP_CMD.OP with
    | 1 => run (appendNew m ((d.test.log[i]?).toList.map (·.w0)))
    | 2 => run (appendNew m ((d.test.log.filter RepEntry.lasting).map (·.w0)))
    | 3 => if d.ident.closed then d.repStatus rstLocked else run (m.eraseIdx i)
    | 4 => if d.ident.closed then d.repStatus rstLocked else run []
    | _ => d.repStatus rstBadOp

/-- A write of REP_CMD with GO. -/
def Dev.repBy (d : Dev) (path op index : Nat) : Dev :=
  d.viaCtl path repCmdAddr [(Reg.REP_CMD.OP, op), (Reg.REP_CMD.INDEX, index), (Reg.REP_CMD.GO, 1)] fun d => ((d.setFld stctlBase Reg.REP_CMD.OP op).setFld stctlBase Reg.REP_CMD.INDEX index).repGo

def opRepCommit (path : Fin 8) (index : Fin 4096) (d : Dev) : Dev := d.repBy path 1 index
def execRepCommit (path : Fin 8) (index : Fin 4096) (s : State) : Answer := onDev (opRepCommit path index) s

def opRepCommitAll (path : Fin 8) (index : Fin 4096) (d : Dev) : Dev := d.repBy path 2 index
def execRepCommitAll (path : Fin 8) (index : Fin 4096) (s : State) : Answer := onDev (opRepCommitAll path index) s

def opRepRemove (path : Fin 8) (index : Fin 4096) (d : Dev) : Dev := d.repBy path 3 index
def execRepRemove (path : Fin 8) (index : Fin 4096) (s : State) : Answer := onDev (opRepRemove path index) s

def opRepErase (path : Fin 8) (index : Fin 4096) (d : Dev) : Dev := d.repBy path 4 index
def execRepErase (path : Fin 8) (index : Fin 4096) (s : State) : Answer := onDev (opRepErase path index) s

/-- A command ends; a flash error leaves the map as it was. -/
def opRepCmdDone (flashErr : Bool) (d : Dev) : Dev :=
  match d.test.repRun with
  | none => d
  | some m =>
    let d := d.modTest fun t => { t with repRun := none, softMap := if flashErr then t.softMap else m }
    d.repStatus (if flashErr then rstFlashErr else rstOk)
def execRepCmdDone (flashErr : Bool) (s : State) : Answer := onDev (opRepCmdDone flashErr) s

def opRepFuseWrite (path : Fin 8) (value : Word) (d : Dev) : Dev :=
  d.viaKw path (stctlBase + Reg.REP_FUSE.W0.off) value fun d => d.burnRepair value
def execRepFuseWrite (path : Fin 8) (value : Word) (s : State) : Answer := onDev (opRepFuseWrite path value) s

end Sys2Proof.Machine
end

