-- ==== Sys2Proof/Machine/Start.lean ====
section
/-!
DEFINITION. The start of the T7 (R367 to R373): supplies, oscillators, the boot record, the loops, the repair maps and boot BIST,
the boot sources; the loss of VCC_AO; and the end of a base warm reset (R461).
-/
namespace Sys2Proof.Machine

/-! ## VCC_AO (R367 step 1, R514, R548) -/

/-- The T7 after its power has been away: what is stored in flash and fuses, and the board, stay. -/
def Dev.powerCycled (d : Dev) (step : BootStep) (clk : ClockRec) : Dev :=
  let d := (d.extLost 0).extLost 1
  { free := d.free, ident := d.ident, keeper := { crossKHz := d.keeper.crossKHz }, clk := clk
    groups := ⟨d.groups.items.map fun e => (e.1, { lrefKHz := e.2.lrefKHz })⟩
    ext := d.ext.lasting
    load := { step := step }
    power := { railsGood := d.power.railsGood, vccio := d.power.vccio }
    kryup := { stored := d.kryup.stored }
    test := { softMap := d.test.softMap }
    pins := { pad := d.pins.pad, flash := d.pins.flash, fuses := d.pins.fuses, burned := d.pins.burned } }

/-- VCC_AO falls below its threshold. A dip of 10 µs or more forces a power-on reset; whether a shorter one does is open. -/
def opVccAoLoss (long : Bool) (d : Dev) : Dev :=
  let reset := long || Config.freeBool d.free
  let d := if long then d else d.drew
  if reset then d.powerCycled .power { xbKHz := d.clk.xbKHz }
  else (d.each (List.range 320) fun d p => d.setHs p 1).modStrike fun s => { s with driven := false }
def execVccAoLoss (long : Bool) (s : State) : Answer := onDev (opVccAoLoss long) s

/-- VCC_AO passes its threshold: the straps are sampled and Kryup starts. -/
def opPowerOn (xaFreq xaWait xbWait : Fin 8) (d : Dev) : Dev :=
  if d.load.step ≠ .power then d
  else
    let d := d.powerCycled .supplies { xaFreq := xaFreq, xaWait := xaWait, xbWait := xbWait, xbKHz := d.clk.xbKHz }
    d.showIdent.kryupStart.1
def execPowerOn (xaFreq xaWait xbWait : Fin 8) (s : State) : Answer := onDev (opPowerOn xaFreq xaWait xbWait) s

/-! ## Supplies (R367 step 2, R446, R521) -/

/-- The rails that step 2 waits for, in the order of R428. -/
def startRails : List Nat := [1, 2, 3, 4, 5, 6, 17, bankRail 0]

/-- Supplies report power-good; `vccio` gives the levels of the I/O banks, as BANK_STATUS.VCCIO. A standing trip latch holds
the start until every valid sensor reads below the EVT threshold. -/
def opSuppliesGood (rails : BitVec 19) (vccio : BitVec 16) (d : Dev) : Dev :=
  if d.load.step ≠ .supplies ∨ d.kryup.halted then d
  else
    let good (k : Nat) := rails.getLsbD k
    let levels := (List.range 8).foldl (fun (m : SMap Nat) b =>
      if good (bankRail b) then m.put b (max 1 (bitsOf vccio.toNat (2 * b) 2)) else m) {}
    let d := (d.modPower fun p => { p with railsGood := rails.toNat, vccio := levels }).driveStrike
    let hot := d.flag kryupBase Reg.THM_STATUS.TRIPPED && !decide (d.hottest < d.thEvt)
    if hot || !startRails.all good then d
    else (d.setFld kryupBase Reg.THM_STATUS.TRIPPED 0).beginStart
def execSuppliesGood (rails : BitVec 19) (vccio : BitVec 16) (s : State) : Answer := onDev (opSuppliesGood rails vccio) s

/-! ## FIO and the boot record (R370, R371, R391) -/

/-- The boot record as embedded flash holds it, when it is valid. -/
def Dev.bootRecord (d : Dev) : Option BootRecord :=
  let w (i : Nat) : Word := d.pins.flash.at i 0xFFFFFFFF
  let bytes := (List.range 15).flatMap fun i => bytesOf 4 (w i).toNat
  let bits (i lo n : Nat) := bitsOf (w i).toNat lo n
  if w 0 = 0x544F4F42 ∧ crc32c bytes = w 15 then
    some { order := (w 1).toNat, flashA := (w 2).toNat, flashB := (w 3).toNat, xaCode := bits 4 0 3, xbCode := bits 4 4 3
           bist := bits 4 8 1 == 1, octal := bits 4 9 1 == 1, trunkWait := (w 5).toNat, lg16Pll := w 6, bootLane := w 7 }
  else none

/-- The source codes of a list, up to its end. -/
def bootSources (r : BootRecord) : List Nat := ((List.range 4).map fun i => bitsOf r.order (8 * i) 4).takeWhile (· != 0)

/-- The list of sources holds TRUNK. -/
def Dev.trunkBoot (d : Dev) : Bool := (bootSources d.load.boot).contains 3

/-- Steps 4 and 5: the boot record is read, and XA and XB start their delays (R368). -/
def Dev.readBoot (d : Dev) : Dev :=
  let rec? := d.bootRecord
  let r := rec?.getD {}
  let d := d.setFld rootBase Reg.BOOT_INFO.REC_VALID (bit01 rec?.isSome)
  let d := (d.setFld rootBase Reg.BOOT_INFO.XA_CODE (max d.clk.xaWait r.xaCode)).setFld rootBase Reg.BOOT_INFO.XB_CODE
    (max d.clk.xbWait r.xbCode)
  let d := d.modLoad fun l => { l with step := .crystals, boot := r, entry := 0, trying := none }
  let d := d.modClk fun c => { c with xa := .starting, xb := .starting, delayTick := c.tick }
  let d := (d.setFld (monitorBase monXa) Reg.MON_STATUS.RUNNING 1).setFld (monitorBase monXb) Reg.MON_STATUS.RUNNING 1
  if d.trunkBoot then (d.setFld pdBase (Reg.PD.ON.elem 24) 1).requestOn domainDepth 24 else d

/-- FIO is judged stable, by the cycles counted in two consecutive Ticks (R391). Under the halted policy CK_REG then runs from it
(R455). -/
def opFioStable (c0 c1 : Nat) (d : Dev) : Dev :=
  let ok (c : Nat) := decide (5600000 ≤ c ∧ c ≤ 10400000)
  if d.clk.fio ≠ .starting ∨ !ok c0 ∨ !ok c1 ∨ d.tick < d.clk.fioTick + 2 ∨ d.clk.fioTick + 64 < d.tick then d
  else
    let again := d.clk.fioAgain
    let d := ((d.modClk fun c => { c with fio := .running, fioAgain := false }).showSources).fioWaiters true
    let d := d.raiseIf again clkBase Reg.CLK_EVENT.SOURCE_BACK
    if d.kryup.halted then d.setSrc false .fio
    else if d.load.step = .fio then d.readBoot else d
def execFioStable (c0 c1 : Nat) (s : State) : Answer := onDev (opFioStable c0 c1) s

/-- FIO has not been stable within 64 Ticks: it has failed, and the nets that wait restart on the Tick. The 1,024 Ticks of R408
count from a restart that failed, as they do from the failure that came first. -/
def opFioStartTimeout (d : Dev) : Dev :=
  if d.clk.fio = .starting ∧ d.clk.fioTick + 64 ≤ d.tick then
    ((d.modClk fun c => { c with fio := .failed, fioTick := if c.fioAgain then c.fioTick else c.tick }).showSources).fioWaiters false
  else d
def execFioStartTimeout (s : State) : Answer := onDev opFioStartTimeout s

/-! ## Crystals and loops (R57, R368, R391 to R396, R415) -/

/-- The boot lanes start (R373): LG16 and its first two lanes, as the boot record sets them. -/
def Dev.bootLanes (d : Dev) : Dev :=
  let b := laneGroupBase 16
  let d := d.setReg (b + Reg.LG_PLL_CFG.off) d.load.boot.lg16Pll
  let d := d.each [128, 129] fun d n => d.storeRw (laneBase n + Reg.LANE_CFG.TX_DIV.off) d.load.boot.bootLane
  let d := d.modLoad fun l => { l with lanesTick := none }
  (d.modGroup 16 fun r => { r with boot := true }).enable d.depth b

/-- Step 6 begins: the loops start, and the boot lanes when the list of sources holds TRUNK. -/
def Dev.startLoops (d : Dev) : Dev :=
  let d := d.modLoad fun l => { l with step := .locking }
  let d := d.each [2, 0, 1] fun d p => if d.atRest (pllBase p) then d.enable d.depth (pllBase p) else d
  if d.trunkBoot then d.bootLanes else d

/-- The delay in Ticks of a code (R368). -/
def startDelay (code : Nat) : Nat := 25 * 2 ^ code

/-- A crystal's start delay has run, with the frequency it shows; a source without edges, at 0, trips its monitor (R391). -/
def opCrystalDelayDone (xb : Bool) (kHz : Nat) (d : Dev) : Dev :=
  let code := d.fld rootBase (if xb then Reg.BOOT_INFO.XB_CODE else Reg.BOOT_INFO.XA_CODE)
  let st := if xb then d.clk.xb else d.clk.xa
  if d.load.step ≠ .crystals ∨ st ≠ .starting ∨ d.tick < d.clk.delayTick + startDelay code then d
  else
    let v : OscState := if kHz = 0 then .failed else .running
    let d := (d.modClk fun c => if xb then { c with xb := v, xbKHz := kHz } else { c with xa := v }).showSources
    let d := if kHz ≠ 0 then d else d.monTrip (if xb then monXb else monXa) true 0
    if d.clk.xa ≠ .starting ∧ d.clk.xb ≠ .starting then d.startLoops else d
def execCrystalDelayDone (xb : Bool) (kHz : Nat) (s : State) : Answer := onDev (opCrystalDelayDone xb kHz) s

/-- The ratio at which the roots lock at the start: KEEP_RATIO, or the largest one within the limit (R367). -/
def Dev.startRatio (d : Dev) (ref : Nat) : Nat × Nat :=
  let n := d.fld keeperBase Reg.KEEP_RATIO.N
  let xb := d.fld keeperBase Reg.KEEP_RATIO.XB_MUL
  if d.ratioOk ref n xb then (n, xb)
  else if ref = refCross then (((List.range 17).reverse.find? fun k => d.ratioOk ref k 16).getD 4, xb)
  else (n, ((List.range 51).reverse.find? fun k => d.ratioOk ref 8 k).getD 1)

/-- The loops have locked or failed to: each net takes the first source of its chain that runs, and the repair maps are applied
(R27, R367, R394). -/
def Dev.loopsDone (d : Dev) (mapBad : Bool) : Dev :=
  let waits (p : Nat) := match d.ust (pllBase p) with | .starting | .off => true | _ => false
  if d.load.step ≠ .locking ∨ [0, 1, 2].any waits then d
  else
    let d := match [0, 1].find? d.pllOk with
      | some r =>
        let ref := d.fld (pllBase r) Reg.PLL_STATUS.REF
        let (n, xb) := d.startRatio ref
        let d := (d.setActive r).modClk fun c => { c with rootRef := ref, ratioN := n, ratioXb := xb, fabKHz := d.ratioKHz ref n xb }
        let d := (d.setSrc true .loop).setFld keeperBase Reg.KEEP_STATUS.LOCKED 1
        let d := d.setFld keeperBase Reg.KEEP_STATUS.SYNTHETIC (bit01 (ref == refXb))
        d.setFld (pllBase (1 - r)) Reg.PLL_STATUS.ALIGNED (bit01 (d.pllOk (1 - r) &&
          d.fld (pllBase (1 - r)) Reg.PLL_STATUS.REF == ref))
      | none => d.setSrc true (d.nextSrc .loop)
    let d := d.setSrc false (if d.pllOk cpll then .loop else d.nextSrc .loop)
    let d := d.applyMaps mapBad
    d.modLoad fun l => { l with step := if l.boot.bist then .bist else .loading }

/-- The single root that relocks while the trunk is stopped (R399). -/
def Dev.relocking (d : Dev) (p : Nat) : Option Relock :=
  match d.clk.relock with
  | some r => if r.single ∧ r.root = p ∧ d.clk.trunk.state = .switching then some r else none
  | none => none

/-- A loop has an input with edges. -/
def Dev.pllRef (d : Dev) (p : Nat) : Bool :=
  if p = 2 ∨ p = 3 then decide (d.clk.xa = .running) else d.refEdges (d.fld (pllBase p) Reg.PLL_STATUS.REF)

/-- The loops have been waited for (R367 step 6). -/
def Dev.started (d : Dev) : Bool :=
  match d.load.step with
  | .bist | .loading | .idle => true
  | _ => false

/-- A root locks although none did at the start: the reference and ratio of the roots are its own, and the trunk can be sent to it
(R395, R398). -/
def Dev.adoptRoot (d : Dev) (r : Nat) : Dev :=
  let ref := d.fld (pllBase r) Reg.PLL_STATUS.REF
  let (n, xb) := d.startRatio ref
  (d.setActive r).modClk fun c => { c with rootRef := ref, ratioN := n, ratioXb := xb, fabKHz := d.ratioKHz ref n xb }

/-- A PLL declares lock; number 3 is MPLL. `mapBad` tells that the soft repair map fails its CRC. -/
def opPllLock (p : Fin 4) (mapBad : Bool) (d : Dev) : Dev :=
  let b := pllBase p
  if !d.clkOn || !d.pllRef p then d
  else if p.val = mpll then
    if d.clk.mpllLock then d
    else
      d.modClk fun c => { c with mpllLock := true }
  else
    match d.ust b with
    | .starting | .running | .degraded =>
      if d.flag b Reg.PLL_STATUS.LOCK then d
      else
        let d := (d.setFld b Reg.PLL_STATUS.LOCK 1).ready b
        if (d.relocking p).isSome then Dev.netMove chainDepth d true
        else
          let a := d.activeRoot
          let joins := p.val ≠ cpll ∧ d.clk.rootRef ≠ 3 ∧ p.val ≠ a ∧ d.pllOk a ∧
            d.fld b Reg.PLL_STATUS.REF = d.fld (pllBase a) Reg.PLL_STATUS.REF
          let d := if joins then d.setFld b Reg.PLL_STATUS.ALIGNED 1 else d
          let d := if p.val < cpll ∧ d.clk.rootRef = 3 ∧ d.started then d.adoptRoot p else d
          d.loopsDone mapBad
    | _ => d
def execPllLock (p : Fin 4) (mapBad : Bool) (s : State) : Answer := onDev (opPllLock p mapBad) s

/-- A PLL has not locked within 25 Ticks. A single root that relocked goes back to the former reference, and fails for good when
it does not lock to that either (R399). -/
def opPllLockTimeout (p : Fin 4) (mapBad : Bool) (d : Dev) : Dev :=
  let b := pllBase p
  let late (since : Nat) := decide (since + 25 ≤ d.tick)
  if !d.clkOn then d
  else if p.val = mpll then
    if d.clk.mpllLock then d
    else
      d.each [0, 1] fun d w =>
        if d.ust (mcBase w) = .starting ∧ late (d.units.startTick.num (mcBase w)) then d.startFail (mcBase w) (2 ^ 8) else d
  else
    match d.relocking p with
    | some r =>
      if !late r.tick then d
      else if r.back then
        let d := (d.modClk fun c => { c with relock := none }).raise clkBase Reg.CLK_EVENT.RELOCK_FAIL
        let d := d.pllLost p
        (Dev.netMove chainDepth (d.setSeq true { d.clk.trunk with target := d.nextSrc .loop }) true).clockFault p
      else
        (d.rootSeeks p d.clk.rootRef).modClk fun c => { c with relock := some { r with back := true, tick := c.tick } }
    | none =>
      if d.ust b = .starting ∧ late (d.units.startTick.num b) then
        (d.startFail b (pllUnlock + if d.pllRef p then 0 else pllNoRef)).loopsDone mapBad
      else d
def execPllLockTimeout (p : Fin 4) (mapBad : Bool) (s : State) : Answer := onDev (opPllLockTimeout p mapBad) s

/-! ## Boot BIST (R466 to R468) -/

/-- Boot BIST ends, with the entries it makes, columns with a logic fault, droop sensors that report at their set value, whether
B0 holds an uncovered fault, and its duration. -/
def opBootBistDone (entries : List Word) (logic : List (Fin 256)) (droop : List (Fin 5 × Fin 256 × Fin 4)) (b0 : Bool) (ms : Nat)
    (d : Dev) : Dev :=
  if d.load.step ≠ .bist then d
  else
    let (d, fail) := d.bistEntries originBoot (entries.map (·.toNat))
    let cols := logic.map fun c => c.val
    let d := d.each cols Dev.logicFault
    let d := d.each droop fun d s => d.droopExclude s.1 s.2.1 s.2.2
    let d := d.bistReport (2 ^ 17 - 1) (fail ||| groupMask cols) b0 ms
    (d.setFld rootBase Reg.BOOT_INFO.BIST_RAN 1).modLoad fun l => { l with step := .loading }
def execBootBistDone (entries : List Word) (logic : List (Fin 256)) (droop : List (Fin 5 × Fin 256 × Fin 4)) (b0 : Bool) (ms : Nat)
    (s : State) : Answer := onDev (opBootBistDone entries logic droop b0 ms) s

/-! ## Boot sources (R371 to R373, R516) -/

/-- The list is exhausted (R369, R372, R375): the loader is open to every path. -/
def Dev.noSource (d : Dev) : Dev :=
  let d := d.modLoad fun l => { l with entry := entriesTried, trying := none }
  let d := ((d.ldState ldRejected).setFld rootBase Reg.LD_STATUS.CAUSE ldNoSource).setFld rootBase Reg.LD_INDEX.INDEX noIndex
  d.raise rootBase Reg.LD_EVENT.REJECTED

/-- SPI0 reads the flash, in octal mode where the boot record asks for it and the flash has the tables (R516). -/
def Dev.readSpi0 (d : Dev) (source : Nat) (tables : Bool) : Dev :=
  let b := serialBase 0
  let d := if d.load.boot.octal then
      if tables then d.setFld b ⟨Reg.SER_CFG.off, 0, 1⟩ 1 else d.raise b Reg.SER_EVENT.OCTAL_FALLBACK
    else d
  (d.modLoad fun l => { l with trying := some source }).beginLoad .boot source 0 true

/-- The next entry of the list is tried; reserved codes are skipped. -/
def opBootSourceTry (tables : Bool) (d : Dev) : Dev :=
  if d.load.step ≠ .loading ∨ d.load.mode ≠ .idle ∨ d.load.trying.isSome ∨ d.load.entry = entriesTried then d
  else
    match ((bootSources d.load.boot).zipIdx.drop d.load.entry).find? fun e => decide (e.1 ≤ 4) with
    | none => d.noSource
    | some (code, i) =>
      let d := d.modLoad fun l => { l with entry := i + 1 }
      if code ≤ 2 then d.readSpi0 code tables
      else
        ((d.ldState ldWaiting).setFld rootBase Reg.LD_STATUS.SOURCE code).modLoad fun l => { l with trying := some code }
def execBootSourceTry (tables : Bool) (s : State) : Answer := onDev (opBootSourceTry tables) s

/-- TRUNK_WAIT Ticks have passed since TL00 and TL01 started, without a load. -/
def opTrunkWaitExpiry (d : Dev) : Dev :=
  let w := d.load.boot.trunkWait
  match d.load.lanesTick with
  | some t =>
    if d.load.trying = some 3 ∧ d.load.mode = .idle ∧ w ≠ 0 ∧ t + w ≤ d.tick then d.modLoad fun l => { l with trying := none } else d
  | none => d
def execTrunkWaitExpiry (s : State) : Answer := onDev opTrunkWaitExpiry s

/-! ## The end of a base warm reset (R387, R461) -/

/-- The 1,024 cycles have passed: the B0 units stand STOPPED, and the boot lanes restart. -/
def opWarmResetEnd (d : Dev) : Dev :=
  if !(d.kryup.warm && d.kryup.warmHeld) then d
  else
    let d := d.modKryup fun k => { k with warmHeld := false }
    if d.trunkBoot then d.bootLanes else d
def execWarmResetEnd (s : State) : Answer := onDev opWarmResetEnd s

end Sys2Proof.Machine
end

