-- ==== Sys2Proof/Machine/Proof.lean ====
section
/-!
DEFINITION. What software and scan do to proof loops and to the device under test: an injected error, a checker that loses its
sequence (R493, R494), and the entry into scan (R486, R487).
-/
namespace Sys2Proof.Machine

/-- A write of PRF_CTRL at a unit: its fields are stored, and INJECT marks the next item of a running loop. -/
def Dev.prfWrite (d : Dev) (unit o : Nat) (w : Word) : Dev :=
  let d := d.storeRw (unit + o + Reg.PRF_CTRL.off) w
  if fget w Reg.PRF_CTRL.INJECT = 1 ∧ d.proving unit then d.modProof unit fun p => { p with inject := true } else d

/-- A unit without proof registers has no PRF_CTRL to write. -/
def opProofInject (path : Fin 8) (unit : Nat) (d : Dev) : Dev :=
  match proofOff unit with
  | none => d
  | some o =>
    let a := unit + o + Reg.PRF_CTRL.off
    d.viaCtl path a [(Reg.PRF_CTRL.INJECT, 1)] fun d => d.prfWrite unit o (fset (d.reg a) Reg.PRF_CTRL.INJECT 1)
def execProofInject (path : Fin 8) (unit : Nat) (s : State) : Answer := onDev (opProofInject path unit) s

/-- Bit errors among the last 1,024 blocks that a checker has seen. -/
def ProofRec.errors (p : ProofRec) : Nat := p.errs.foldl (fun n e => n + e.2) 0

/-- More than 1,000 bit errors within 1,024 blocks: SYNC clears and the checker seeds itself again (R494). -/
def opProofSyncLoss (n : Fin 144) (d : Dev) : Dev :=
  let b := laneBase n
  let o := b + 0x600
  if d.proving b && d.flag o Reg.PRF_STATUS.SYNC && decide (1000 < (d.proofRec b).errors) then
    ((d.setFld o Reg.PRF_STATUS.SYNC 0).count o Reg.PRF_STATUS.SYNC_LOSS).modProof b fun p => { p with seed := 0, errs := [] }
  else d
def execProofSyncLoss (n : Fin 144) (s : State) : Answer := onDev (opProofSyncLoss n) s

/-! ## Scan (R486, R487) -/

end Sys2Proof.Machine

namespace Sys2Proof.Config

/-- The functional state of the T7 in scan, by draw. -/
opaque scanState : Nat → Machine.Dev

end Sys2Proof.Config

namespace Sys2Proof.Machine

/-- Registers of the AO domain and SCAN_PERMIT, which scan leaves. -/
def scanKept (a : Nat) : Bool := aoUnit a || a == stctlBase + Reg.SCAN_PERMIT.off

/-- The scan chains are connected: the functional state is undefined. What Kryup, the fuses, the flash and the board hold stays. -/
def Dev.scanConnected (d : Dev) : Dev :=
  let o := Config.scanState d.free
  let n : Dev :=
    { o with
      free := d.free + 1, regs := d.regs.keep scanKept, ident := d.ident, kryup := d.kryup, ext := d.ext, pins := d.pins
      test := { o.test with softMap := d.test.softMap, scanned := true }
      clk := { o.clk with tick := d.clk.tick, xaFreq := d.clk.xaFreq, xaWait := d.clk.xaWait, xbWait := d.clk.xbWait, xbKHz := d.clk.xbKHz }
      keeper := { o.keeper with now := o.keeper.now % crossMod, crossKHz := d.keeper.crossKHz }
      power := { o.power with railsGood := d.power.railsGood, vccio := d.power.vccio }
      mem := { o.mem with bytes := (Config.scanBytes d.free).foldl (fun m e => m.set e.1 0 e.2) {} } }
  (Config.scanRegs d.free).foldl (fun d e => if scanKept e.1 then d else d.setReg e.1 e.2) n

/-- The JTAG instruction SCAN_ENTER: where SCAN_PERMIT allows it, Kryup raises SCAN_ENTRY, the keys are zeroised, `scanLocked` records
that Kryup's copies of the key store and of the image keys hold 0 and that keyed accesses are refused until the next device reset,
and the chains are connected; otherwise BYPASS. -/
def opScanEnter (d : Dev) : Dev :=
  let b := stctlBase
  if d.flag b Reg.SCAN_PERMIT.EN then
    let d := d.raiseCause causeScan 0
    let d := d.zeroise.modExt fun x => { x with scanLocked := true }
    ((d.setJtag .scan).setFld b Reg.SCAN_PERMIT.ENTERED 1).scanConnected
  else (d.setJtag .bypass).count b Reg.SCAN_PERMIT.REFUSED
def execScanEnter (s : State) : Answer := onDev opScanEnter s

end Sys2Proof.Machine
end

