-- ==== Sys2Proof/Machine/Record.lean ====
section
/-!
DEFINITION. What the words of an image spell ("The Finnak Image Format"): the colophon (R339), record headers (R340) and the payloads
of the record kinds (R344 to R357). An image is a list of words, each of 4 bytes in the order of R4 (R338).
-/
namespace Sys2Proof.Machine

/-- A word of a list as a number. -/
def wordNo (ws : List Word) (i : Nat) : Nat := (ws.getD i 0).toNat

/-- The words that bytes spell. -/
def bytesWords (b : List Nat) : List Word := (partsOf 4 b).map fun x => BitVec.ofNat 32 (smallNum x)

/-- CRC-32C of bytes (RFC 3720). -/
def bytesCrc (b : List Nat) : Word := crc32c (b.map fun x => BitVec.ofNat 8 x)

/-- A mask of the 256 columns from 8 words, the lowest columns first. -/
def wordMask (ws : List Word) : BitVec 256 := rowOfWords (ws.take 8)

/-! ## The colophon and the headers -/

/-- The words of a colophon and of a signature block. -/
def colophonWords : Nat := 64
def blockWords : Nat := 48

/-- The colophon that 64 words spell (R339). -/
def colophonOf (ws : List Word) : Colophon :=
  let w := wordNo ws
  { magic := bitsOf (w 0) 0 24, kind := bitsOf (w 0) 24 8, fmtMinor := bitsOf (w 1) 0 8, fmtMajor := bitsOf (w 1) 8 8
    family := bitsOf (w 1) 16 8, part := bitsOf (w 1) 24 8, stepMin := bitsOf (w 2) 0 16, stepMax := bitsOf (w 2) 16 16
    gradeMask := bitsOf (w 3) 0 8, imageId := BitVec.ofNat 64 (w 4 + w 5 * 2 ^ 32), baseId := BitVec.ofNat 64 (w 6 + w 7 * 2 ^ 32)
    recordCount := w 8, hashId := bitsOf (w 9) 0 8, signer := bitsOf (w 9) 8 2, enc := bitOf (w 9) 16, imgKey := bitsOf (w 9) 20 4
    sigOffset := w 10, imageLen := w 11, digest := bigNum (wordBytes ((ws.drop 12).take 12))
    crcOk := bytesCrc (wordBytes (ws.take 63)) == ws.getD 63 0 }

/-- The record that begins a list of words, when all of it is there. -/
def recordAt (ws : List Word) : Option (List Word) :=
  let n := 8 + (wordNo ws 3 + 3) / 4
  if ws.length < 8 ∨ ws.length < n then none else some (ws.take n)

/-- The stored payload of a record. -/
def storedBytes (r : List Word) : List Nat := (wordBytes (r.drop 8)).take (wordNo r 3)

/-- The header of a record (R340). -/
def recordHead (r : List Word) : RecHead :=
  let w := wordNo r
  { kind := bitsOf (w 0) 0 8, minor := bitsOf (w 0) 8 4, major := bitsOf (w 0) 12 4, initPresent := bitOf (w 0) 16
    fence := bitOf (w 0) 17, thermal := bitOf (w 0) 18, plateValid := bitOf (w 0) 19, enc := bitOf (w 0) 20
    plate := bitsOf (w 0) 24 8, unit := w 1, length := w 2, slen := w 3, index := w 4
    crcOk := bytesCrc (wordBytes (r.take 7) ++ storedBytes r) == r.getD 7 0 }

/-! ## Payloads -/

/-- GALLEY_OPEN (R344). -/
def galleyOf (p : List Word) : GalleyDecl :=
  let w := wordNo p
  { sort := bitOf (w 0) 0, withPrev := bitOf (w 0) 1, decision := bitOf (w 0) 2, userKind := bitsOf (w 0) 8 8
    galleyId := bitsOf (w 1) 0 16, occL2 := wordMask (p.drop 4), occL4 := wordMask (p.drop 12) }

/-- The head of PLATE_FRAMES (R345) and its segments (R346): none where the segments do not end with the payload. -/
def plateOf (p : List Word) : PlateBody :=
  let w := wordNo p 0
  let groups : BitVec 16 := BitVec.ofNat 16 (bitsOf w 16 16)
  let method := bitsOf w 12 4
  { plate := bitsOf w 0 8, stage := bitsOf w 8 2, resident := bitOf w 10, method := method, groups := groups
    crcs := (p.drop 1).take 16, segs := takeSegments (method == 1) (32 * (maskGroups groups.toNat).length) (p.drop 17) }

/-- The entries of INIT_VALUES (R349): none where the last is not whole. The first argument bounds how many. -/
def initEntries : Nat → List Word → Option (List InitEntry)
  | _, [] => some []
  | fuel + 1, a :: b :: t =>
    let n := bitsOf b.toNat 0 10 + 1
    if t.length < n then none
    else (initEntries fuel (t.drop n)).map
      ({ column := bitsOf a.toNat 0 8, die := bitsOf a.toNat 8 1, first := bitsOf a.toNat 16 10, words := t.take n } :: ·)
  | _, _ => none
def initOf (p : List Word) : Option (List InitEntry) := initEntries p.length p

/-- PIN_TABLE (R350). -/
def pinsOf (p : List Word) : List PinEntry := p.map fun w =>
  { pin := bitsOf w.toNat 0 9, func := bitsOf w.toNat 12 4, safe := bitsOf w.toNat 16 2, pull := bitsOf w.toNat 18 2 }

/-- The pairs of UNIT_SETTINGS (R351): none where the last has no value. -/
def settingPairs : List Word → Option (List (Nat × Word))
  | [] => some []
  | a :: v :: t => (settingPairs t).map ((bitsOf a.toNat 0 12, v) :: ·)
  | _ => none

/-- The sections of RING_MAP (R353): none where the last is not whole. Nothing follows a section of a reserved TYPE. -/
def ringSections : Nat → List Word → Option (List RingSection)
  | _, [] => some []
  | 0, _ => none
  | fuel + 1, a :: t =>
    let n := bitsOf a.toNat 0 28
    match bitsOf a.toNat 28 4 with
    | 1 =>
      if t.length < 3 * n then none
      else (ringSections fuel (t.drop (3 * n))).map
        (.rings ((List.range n).map fun i => (bitsOf (wordNo t (3 * i)) 0 18, wordNo t (3 * i + 1), wordNo t (3 * i + 2))) :: ·)
    | 2 =>
      if t.length < n + 1 then none
      else (ringSections fuel (t.drop (n + 1))).map (.chanMap (bitsOf (wordNo t 0) 0 17) ((t.drop 1).take n) :: ·)
    | _ => some [.other]
def ringsOf (p : List Word) : Option (List RingSection) := ringSections p.length p

/-- The sections of MEMORY_PRELOAD (R354): none where the last is not whole. Nothing follows a section whose LENGTH is no multiple of 32. -/
def preloadSections : Nat → List Word → Option (List Preload)
  | _, [] => some []
  | fuel + 1, a :: b :: n :: t =>
    let addr := a.toNat + b.toNat * 2 ^ 32
    if n.toNat % 32 ≠ 0 then some [{ addr := addr, len := n.toNat }]
    else if t.length < n.toNat / 4 then none
    else (preloadSections fuel (t.drop (n.toNat / 4))).map
      ({ addr := addr, len := n.toNat, data := rowsOfWords (n.toNat / 32) t } :: ·)
  | _, _ => none
def preloadsOf (p : List Word) : Option (List Preload) := preloadSections p.length p

/-- DRIVE_MAP (R356, R364): the plate, the digest and, for each column named, the ownership codes of its shafts; none where they are not
all there. -/
def driveOf (format2 : Bool) (p : List Word) : Option (Nat × Nat × List (Nat × List Nat)) :=
  let c := if format2 then 1 else 13
  let cols := maskColumns (wordMask (p.drop c))
  let o := p.drop (c + 8)
  if p.length < c + 8 ∨ o.length < 64 * cols.length then none
  else
    let codes (i : Nat) := (List.range 1024).map fun s => bitsOf (wordNo o (64 * i + s / 16)) (2 * s % 32) 2
    some (bitsOf (wordNo p 0) 0 8, if format2 then 0 else bigNum (wordBytes ((p.drop 1).take 12)), cols.zipIdx.map fun e => (e.1, codes e.2))

/-- LATENCY (R357): none where galleys are missing. -/
def latencyDeclOf (p : List Word) : Option LatencyDecl :=
  let w := wordNo p
  let n := bitsOf (w 3) 0 16
  if p.length < 4 + n then none
  else some
    { l := bitsOf (w 0) 0 12, r := bitsOf (w 0) 16 4, c := bitsOf (w 0) 20 4, s := bitsOf (w 0) 24 4
      n := bitsOf (w 1) 0 5, xbMul := bitsOf (w 1) 8 8
      aCol := bitsOf (w 2) 0 8, aDie := bitsOf (w 2) 8 1, aValid := bitOf (w 2) 15
      bCol := bitsOf (w 2) 16 8, bDie := bitsOf (w 2) 24 1, bValid := bitOf (w 2) 31
      galleys := ((p.drop 4).take n).map fun x => bitsOf x.toNat 0 16 }

end Sys2Proof.Machine
end

