-- ==== Sys2Proof/Machine/Image.lean ====
section
/-!
DEFINITION. The records of an image as they arrive (R338 to R366): the colophon, and every kind of record but END, checked and
taken in. A command takes the words that the open load reads next: those that a stream has brought over LD_DATA, or those that SPI0
gives the loader. Without an open load, or where the words do not make a whole record of the command's kind, it changes nothing (DESIGN
CHOICE, log entry 130).
-/
namespace Sys2Proof.Machine

/-! ## The colophon (R339, R360, R364, R366, R376) -/

/-- Cause of the first check of a list that fails; 0 when none does. -/
def firstCause : List (Bool × Nat) → Nat
  | [] => 0
  | (bad, c) :: t => if bad then c else firstCause t

/-- The IMAGE_ID of the released image. -/
def Dev.releasedId (d : Dev) : Nat :=
  (d.reg (rootBase + Reg.IMAGE_ID_LO.off)).toNat + (d.reg (rootBase + Reg.IMAGE_ID_HI.off)).toNat * 2 ^ 32

/-- The forme may not be replaced: an image is released, and the forme is neither STOPPED nor OFF (R376). -/
def Dev.formeBusy (d : Dev) : Bool :=
  d.load.released.isSome && match d.stateOf formeBase with | .stopped | .off => false | _ => true

/-- The checks that the colophon meets, in the order of R362. -/
def Dev.colophonCause (d : Dev) (c : Colophon) : Nat :=
  let step := d.ident.stepMajor * 256 + d.ident.stepMinor
  let part := partialImage c
  let again := d.load.mode == .reapply
  firstCause [
    (c.magic != 0x4B4E46, ldMagic), (!c.crcOk, ldColophonCrc),
    (!(c.fmtMajor == 2 || c.fmtMajor == 3) || (c.fmtMajor == 3 && decide (1 < c.kind)), ldFormat),
    (c.family != 0x43 || c.part != 7, ldDevice),
    (decide (step < c.stepMin ∨ c.stepMax < step), ldStepping),
    (!bitOf c.gradeMask d.ident.speed, ldGrade), (c.hashId != 2, ldHash),
    (part && !again && (d.load.released.isNone || c.baseId.toNat != d.releasedId), ldBaseId),
    (again && c.imageId.toNat != d.releasedId, ldMismatch),
    (c.sigOffset == 0 && d.ident.closed, ldUnsigned),
    (c.sigOffset != 0 && c.sigOffset != c.imageLen, ldSignature),
    (!part && !again && d.formeBusy, ldFormeBusy)]

def opColophon (flash : List Word) (d : Dev) : Dev :=
  let head := (d.imageWords flash).take colophonWords
  if d.load.mode = .idle ∨ d.load.image.isSome ∨ head.length < colophonWords then d
  else
    let c := colophonOf head
    let cause := d.colophonCause c
    let d := d.takeWords colophonWords
    if cause ≠ 0 then d.imageReject cause noIndex
    else
      let part := partialImage c
      let d := if part ∨ d.load.mode = .reapply then d else d.withdraw
      (d.setFld rootBase Reg.LD_STATUS.PARTIAL (bit01 part)).modLoad fun l =>
        { l with head := head, image := some { colophon := c, source := d.fld rootBase Reg.LD_STATUS.SOURCE }, signed := c.sigOffset == 0 }
def execColophon (flash : List Word) (s : State) : Answer := onDev (opColophon flash) s

/-! ## What every record meets (R340, R341, R361, R364) -/

/-- The declaration of a unit of the image being read. -/
def declOf (img : Image) (b : Nat) : Option Decl := img.decls.find? fun u => u.base == b

/-- The image key of an image: none where its slot is empty, or Kryup's copies hold 0 (R361, R487). -/
def Dev.imageKey (d : Dev) (img : Image) : Option (BitVec 256) :=
  let k := img.colophon.imgKey
  if k = 0 ∨ d.ext.scanLocked ∨ !bitOf d.ident.imgKeys k then none else some (d.ident.imageKeys.at k 0)

/-- The payload of a record; none where it does not decrypt (R361). -/
def Dev.payload (d : Dev) (img : Image) (r : List Word) : Option (List Word) :=
  let stored := storedBytes r
  if !(recordHead r).enc then some (bytesWords stored)
  else
    match (if img.colophon.enc && decide (28 ≤ stored.length) then d.imageKey img else none) with
    | none => none
    | some key =>
      let n := stored.length - 16
      let (plain, tag) := gcm key (stored.take 12) (wordBytes (r.take 7)) ((stored.take n).drop 12)
      if tag = stored.drop n then some (bytesWords plain) else none

/-- LENGTH and SLEN of a header do not agree (R340). -/
def lengthBad (h : RecHead) : Bool := h.length % 4 != 0 || h.slen != h.length + (if h.enc then 28 else 0)

/-- A record's checks in the order of R362: CRC, placement and count, version, decryption, length and those of its kind. `need` is the
least payload that its kind needs, in bytes. -/
def Dev.recordCause (d : Dev) (img : Image) (r : List Word) (place need : Nat) (check : List Word → Nat) : Nat :=
  let h := recordHead r
  let p := d.payload img r
  firstCause [
    (!h.crcOk, ldRecordCrc), (place != 0, place), (h.major != 1, ldRecordVersion), (p.isNone, ldDecrypt),
    (lengthBad h || decide (h.length < need), ldLength), (check (p.getD []) != 0, check (p.getD []))]

/-- A record is counted as it arrives. -/
def Dev.recordSeen (d : Dev) (r : List Word) : Dev :=
  let i := (recordHead r).index
  (d.takeWords r.length).modLoad fun l =>
    { l with index := l.index + 1, body := l.body ++ r, badIndex := if l.badIndex.isNone ∧ i ≠ l.index then some i else l.badIndex }

/-- The record of the open load that comes next, if all of it is there. The signature of an image in SPI0 is judged before its records
(R362). -/
def Dev.nextRecord (d : Dev) (flash : List Word) : Option (Image × List Word) :=
  match d.load.image with
  | none => none
  | some img =>
    if d.load.ended ∨ (!d.streaming && !d.load.signed) then none else (recordAt (d.imageWords flash)).map fun r => (img, r)

/-- A record of a kind arrives: its placement, its length and the checks of its kind give a cause or 0, and a good record is taken. -/
def Dev.onRecord (d : Dev) (flash : List Word) (kind : Nat) (place : RecHead → Image → Nat) (need : Nat)
    (check : RecHead → List Word → Image → Nat) (take : RecHead → List Word → Image → Dev → Dev) : Dev :=
  match d.nextRecord flash with
  | none => d
  | some (img, r) =>
    let h := recordHead r
    if h.kind ≠ kind then d
    else
      let c := d.recordCause img r (place h img) need fun p => check h p img
      let e := d.recordSeen r
      if c ≠ 0 then e.imageReject c h.index else take h ((d.payload img r).getD []) img e

/-- The image being read is replaced. -/
def Dev.setImage (d : Dev) (img : Image) : Dev := d.modLoad fun l => { l with image := some img }

/-- A record is applied as it arrives, but in a REAPPLY (R388). -/
def Dev.unlessAgain (d : Dev) (f : Dev → Dev) : Dev := if d.load.mode = .reapply then d else f d

/-- The innermost open galley is a user sort. -/
def Dev.inSort (d : Dev) (img : Image) : Bool :=
  match d.load.openUnits with
  | b :: _ => match declOf img b with | some u => u.sort | none => false
  | [] => false

def Dev.loadDepth (d : Dev) : Nat := d.load.openUnits.length

/-- Placement of a record of depth 1 (R341): `unit` is the UNIT of its kind, `full` says that only a full image carries it,
`many` that its count is reached. -/
def Dev.depthOne (d : Dev) (h : RecHead) (unit : Nat) (full many : Bool) (img : Image) : Nat :=
  firstCause [
    (d.load.index == 0 || d.inSort img || d.loadDepth != 1 || many || (full && partialImage img.colophon), ldPlacement), (h.unit != unit, ldUnit)]

/-! ## Galleys (R343, R344, R366, R383) -/

/-- The column and die of a shell window (R79); none where the address is none. -/
def shellPlace (b : Nat) : Option (Nat × Nat) :=
  if b % 0x1000 = 0 ∧ 0x900000 ≤ b ∧ b < 0xD00000 then some ((b - 0x900000) % 0x200000 / 0x2000, (b - 0x900000) / 0x200000) else none

/-- The galley of the released forme that a partial image may replace (R366). -/
def Dev.replaceable (d : Dev) (b : Nat) : Option Decl :=
  match d.load.released with
  | none => none
  | some img => (declOf img b).filter fun u => u.base != formeBase && u.fence

/-- The units of the released forme that the partial image being read replaces. -/
def Dev.replaced (d : Dev) (root : Nat) : List Nat :=
  match d.load.released with | some r => subtree r.decls root | none => []

/-- Placement, count and UNIT of GALLEY_OPEN (R341, R366): a shell that no other unit has, the forme first in a full image, and in a partial
one a galley that may be replaced. -/
def Dev.openPlace (d : Dev) (h : RecHead) (img : Image) : Nat :=
  let part := partialImage img.colophon
  let first := d.load.index == 0
  let root := (img.decls.headD {}).base
  let taken := part && (match d.load.released with
    | some r => r.decls.any fun u => u.base == h.unit && !(d.replaced root).contains u.base
    | none => false)
  let unitBad := if first then (if part then (d.replaceable h.unit).isNone else h.unit != formeBase)
    else (shellPlace h.unit).isNone || taken
  firstCause [
    (!first && (d.loadDepth == 0 || d.inSort img), ldNesting), (img.decls.any fun u => u.base == h.unit, ldPlacement), (unitBad, ldUnit)]

/-- The checks of GALLEY_OPEN: a user unit's shell lies in a column that its OCC bits name (R344), and a replaced galley is the same
(R366). -/
def Dev.openCause (d : Dev) (h : RecHead) (p : List Word) (img : Image) : Nat :=
  let g := galleyOf p
  let named (p : Nat × Nat) := (if p.2 = 0 then g.occL2 else g.occL4).getLsbD p.1
  let shell := match shellPlace h.unit with | some p => named p | none => false
  let same (u : Decl) := u.galleyId == g.galleyId && u.occL2 == maskColumns g.occL2 && u.occL4 == maskColumns g.occL4
  if d.load.index = 0 then
    if partialImage img.colophon then
      firstCause [((d.replaceable h.unit).all fun u => !same u, ldUnit),
        (match d.stateOf h.unit with | .stopped | .faulted => false | _ => true, ldUnitBusy)]
    else firstCause [(g.galleyId != 0, ldNesting)]
  else firstCause [(!shell, ldUnit), (g.galleyId == 0 || img.decls.any fun u => u.galleyId == g.galleyId, ldNesting)]

/-- The first record of a partial image: its galley, with the units inside it, enters LOADING, and its lines of the INIT store
return to 0 (R383, R385). -/
def Dev.partialBegins (d : Dev) (b : Nat) : Dev :=
  let units := d.replaced b
  let lines : List Nat := match d.load.released with
    | some r => (r.initUsed.filter fun e => units.contains e.1).map (·.2)
    | none => []
  let d := d.modFabric fun f => { f with initStore := f.initStore.keep fun l => !lines.contains l }
  d.each units Dev.toLoading

def opGalleyOpen (flash : List Word) (d : Dev) : Dev :=
  d.onRecord flash 0x01 d.openPlace 80 d.openCause fun h p img d =>
    let g := galleyOf p
    let u : Decl :=
      { base := h.unit, galleyId := g.galleyId, parent := d.load.openUnits.headD 0, sort := g.sort, withPrev := g.withPrev
        decision := g.decision, thermal := h.thermal, initPresent := h.initPresent, fence := h.fence, userKind := g.userKind
        occL2 := maskColumns g.occL2, occL4 := maskColumns g.occL4, index := h.index }
    let first := img.decls.isEmpty
    let d := if first ∧ partialImage img.colophon then d.unlessAgain fun d => d.partialBegins h.unit else d
    let tiles (d : Dev) : Dev :=
      if h.unit = formeBase ∨ d.units.user.has h.unit = true then d
      else (d.each u.occL2 fun d c => d.tileRaise 2 c Reg.TILE_EVENT.FENCE_ENGAGED).each u.occL4 fun d c =>
        d.tileRaise 4 c Reg.TILE_EVENT.FENCE_ENGAGED
    ((d.unlessAgain tiles).setImage { img with decls := img.decls ++ [u] }).modLoad fun l =>
      { l with openUnits := h.unit :: l.openUnits }
def execGalleyOpen (flash : List Word) (s : State) : Answer := onDev (opGalleyOpen flash) s

def opGalleyClose (flash : List Word) (d : Dev) : Dev :=
  let place (h : RecHead) (_ : Image) := if d.load.openUnits.head? = some h.unit then 0 else ldNesting
  d.onRecord flash 0x02 place 0 (fun _ _ _ => 0) fun _ _ _ d => d.modLoad fun l => { l with openUnits := l.openUnits.drop 1 }
def execGalleyClose (flash : List Word) (s : State) : Answer := onDev (opGalleyClose flash) s

/-! ## Plates (R345 to R347, R384) -/

/-- A RESIDENT plate of a partial image finds its slot in force or named by a pending switch (R384). -/
def Dev.slotNamed (d : Dev) (g s : Nat) : Bool :=
  d.inForce g s || match d.plates.pending.look g with | some p => p.list.contains s | none => false

/-- The frame words of a plate, when its segments and CRCs are good. -/
def plateFrames (p : PlateBody) : Option (List ((Nat × Nat) × List RowWord)) :=
  p.segs.bind fun segs => plateData p.groups.toNat p.crcs segs

def Dev.plateCause (d : Dev) (h : RecHead) (ws : List Word) (img : Image) : Nat :=
  let p := plateOf ws
  let groups := maskGroups p.groups.toNat
  let slot := d.residentSlot img.colophon
  let part := partialImage img.colophon
  firstCause [
    (!h.plateValid || h.plate != p.plate || decide (1 < p.method), ldPlate),
    ((plateFrames p).isNone, ldPlate),
    (!part && img.plates.any fun q => q.stage == p.stage || (p.resident && q.resident && q.groups.any groups.contains), ldPlate),
    (d.stageRowsBad p.stage, ldPlate),
    (part && p.resident && groups.any fun g => d.slotNamed g slot, ldPlate)]

/-- The groups of a RESIDENT plate are staged; `seen` gives, by column, what the copy found (R347). -/
def Dev.loadResident (d : Dev) (p : PlateBody) (slot : Nat) (part : Bool) (seen : List (Nat × PlateSeen)) : Dev × Bool :=
  (maskGroups p.groups.toNat).foldl (fun (x : Dev × Bool) g =>
    let (d, ok) := x.1.loadGroup g p.stage slot p.plate seen
    let d := (d.setPslotPlate g slot p.plate).setPslot g slot (if ok then slotValid else slotFaulted)
    let d := if ok && !part then
        ((d.modPlates fun y => { y with logic := y.logic.put g 1 }).setFld configBase (Reg.PSLOT_G.IN_FORCE.elem g) slot).setPslot g slot
          slotActive
      else d
    (d, x.2 && ok)) (d, true)

/-- A PLATE_FRAMES record stands after the DRIVE_MAP of its plate (R341). -/
def Dev.platePlace (d : Dev) (h : RecHead) (img : Image) : Nat :=
  d.depthOne h 0 false (decide (4 ≤ img.plates.length) || !(d.plates.driveMaps.has h.plate || img.drives.contains h.plate)) img

def opPlateFrames (flash : List Word) (seen : List (Nat × PlateSeen)) (d : Dev) : Dev :=
  d.onRecord flash 0x10 d.platePlace 68 d.plateCause fun h ws img d =>
    let p := plateOf ws
    let use : PlateUse := { index := h.index, plate := p.plate, stage := p.stage, resident := p.resident, groups := maskGroups p.groups.toNat }
    let d := d.setImage { img with plates := img.plates ++ [use] }
    if d.load.mode = .reapply then d
    else
      let d := d.putPlate p.stage ((plateFrames p).getD [])
      let d := (d.setStage p.stage stageReady).setStageInfo p.stage p.plate p.groups.toNat
      if !p.resident then d
      else
        let (d, ok) := d.loadResident p (d.residentSlot img.colophon) (partialImage img.colophon) seen
        if ok then d else d.imageReject ldPlate h.index
def execPlateFrames (flash : List Word) (seen : List (Nat × PlateSeen)) (s : State) : Answer := onDev (opPlateFrames flash seen) s

/-! ## Values, pins, settings (R349 to R352) -/

/-- The lines of an entry. -/
def entryLines (e : InitEntry) : List Nat := (List.range e.words.length).map fun i => lineKey (e.column * 2 + e.die) (e.first + i)

/-- A record that stands inside a unit is at depth 0. -/
def Dev.outside (d : Dev) : Bool := d.load.index == 0 || d.loadDepth == 0

/-- Lines that the released forme's other galleys have: a partial image writes the INIT store only in its galley's lines (R385). -/
def Dev.foreignLines (d : Dev) (img : Image) : List Nat :=
  match d.load.released with
  | some r =>
    if partialImage img.colophon then
      (r.initUsed.filter fun e => !(d.replaced (img.decls.headD {}).base).contains e.1).map (·.2)
    else []
  | none => []

/-- The checks of INIT_VALUES. The columns of the forme are those of its children, and are judged when the whole image is there. -/
def Dev.initCause (d : Dev) (_ : RecHead) (p : List Word) (img : Image) : Nat :=
  let entries := (initOf p).getD []
  let u := (declOf img (d.load.openUnits.headD 0)).getD {}
  let occ (e : InitEntry) := u.base == formeBase || (if e.die = 0 then u.occL2 else u.occL4).contains e.column
  let lines := entries.flatMap entryLines
  firstCause [
    ((initOf p).isNone, ldLength), (!(entries.all fun e => occ e && decide (e.first + e.words.length ≤ 864)), ldPlacement),
    (lines.any fun l => img.initUsed.any (fun x => x.2 == l) || (d.foreignLines img).contains l, ldPlacement)]

def opInitValues (flash : List Word) (d : Dev) : Dev :=
  let place (h : RecHead) (_ : Image) := firstCause [(d.outside, ldPlacement), (h.unit != 0, ldUnit)]
  d.onRecord flash 0x11 place 0 d.initCause fun h p img d =>
    let entries := (initOf p).getD []
    let own := d.load.openUnits.headD 0
    let forme := if own = formeBase then entries.map fun e => (h.index, e.die, e.column) else []
    let d := d.setImage { img with initUsed := img.initUsed ++ (entries.flatMap entryLines).map fun l => (own, l)
                                   formeInit := img.formeInit ++ forme }
    d.unlessAgain fun d =>
      d.modFabric fun f =>
        { f with initStore := entries.foldl (fun m e =>
            ((entryLines e).zip e.words).foldl (fun m x => m.setNum x.1 x.2.toNat) m) f.initStore }
def execInitValues (flash : List Word) (s : State) : Answer := onDev (opInitValues flash) s

def pinCause (entries : List PinEntry) : Nat :=
  firstCause [
    (!(entries.all fun e => decide (e.pin < 320) && e.safe != 3 && pinOffers e.pin e.func), ldPins),
    (!(entries.map (·.pin)).Nodup, ldPins)]

def opPinTable (flash : List Word) (d : Dev) : Dev :=
  d.onRecord flash 0x12 (fun h img => d.depthOne h pinsBase true img.pins.isSome img) 0 (fun _ p _ => pinCause (pinsOf p)) fun _ p img d =>
    d.setImage { img with pins := some (pinsOf p) }
def execPinTable (flash : List Word) (s : State) : Answer := onDev (opPinTable flash) s

/-- A register at an offset of a unit, as the interface of a major lays it out (R78). -/
def laidOut (u : Unit) (major off : Nat) : Bool :=
  (u.rowAt off).isSome && match (olderLayout u major).find? fun e => e.1 == off with | some e => e.2.isSome | none => true

/-- A pair of UNIT_SETTINGS that rejects the image (R351); one that only a higher minor than the unit has defines is no such
pair (R352). -/
def pairBad (u : Unit) (major : Nat) (higher : Bool) (p : Nat × Word) : Bool :=
  decide (p.1 ≤ 0x28) || p.1 % 4 != 0 ||
  (if laidOut u major p.1 then match u.rowAt p.1 with | some r => r.kw != 0 | none => true else !higher)

/-- Placement and UNIT of UNIT_SETTINGS: a hard unit at depth 1 of a full image, or the enclosing unit's shell (R341, R366). -/
def Dev.settingsPlace (d : Dev) (h : RecHead) (img : Image) : Nat :=
  let hard := (match unitAt h.unit with | some v => v.base == h.unit && v.blk != .shell | none => false)
  let own := d.load.openUnits.head? == some h.unit && h.unit != formeBase
  let part := partialImage img.colophon
  firstCause [(d.outside || (part && hard), ldPlacement), (!(if d.loadDepth = 1 ∧ !part then hard else own), ldUnit)]

/-- REQ_MAJOR and REQ_MINOR of a payload. -/
def reqMajor (p : List Word) : Nat := bitsOf (wordNo p 0) 8 8
def reqMinor (p : List Word) : Nat := bitsOf (wordNo p 0) 0 8

def settingsCause (h : RecHead) (p : List Word) (img : Image) : Nat :=
  let u := unitOf h.unit
  let major := reqMajor p
  let pairs := (settingPairs (p.drop 1)).getD []
  let higher := match u.minorOf major with | some m => decide (m < reqMinor p) | none => false
  firstCause [
    ((settingPairs (p.drop 1)).isNone, ldLength),
    ((u.minorOf major).isNone || img.settings.any fun s => s.base == h.unit && s.major != major, ldUnitVersion),
    (pairs.any (pairBad u major higher), ldSettings)]

def opUnitSettings (flash : List Word) (d : Dev) : Dev :=
  d.onRecord flash 0x13 d.settingsPlace 4 settingsCause fun h p img d =>
    d.setImage { img with settings := img.settings ++
      [{ index := h.index, base := h.unit, major := reqMajor p, minor := reqMinor p, pairs := (settingPairs (p.drop 1)).getD [] }] }
def execUnitSettings (flash : List Word) (s : State) : Answer := onDev (opUnitSettings flash) s

/-! ## Rings, preloads, maps, latency (R353 to R358) -/

/-- The rings that sections name. -/
def sectionRings (l : List RingSection) : List Nat :=
  l.flatMap fun s => match s with | .rings r => r.map (·.1) | _ => []

def ringCause (_ : RecHead) (p : List Word) (img : Image) : Nat :=
  let sections := (ringsOf p).getD []
  let runOk (s : RingSection) := match s with
    | .chanMap first es => decide (first + es.length ≤ 131072)
    | .rings _ => true
    | .other => false
  firstCause [
    ((ringsOf p).isNone, ldLength), (!sections.all runOk, ldRingMap),
    (!(sectionRings (img.rings.map (·.2)) ++ sectionRings sections).Nodup, ldRingMap)]

def opRingMap (flash : List Word) (d : Dev) : Dev :=
  d.onRecord flash 0x14 (fun h => d.depthOne h 0 true false) 0 ringCause fun h p img d =>
    d.setImage { img with rings := img.rings ++ ((ringsOf p).getD []).map fun s => (h.index, s) }
def execRingMap (flash : List Word) (s : State) : Answer := onDev (opRingMap flash) s

/-- The columns that a preload section reaches. -/
def preloadColumns (p : Preload) : List Nat := (List.range 256).filter fun c => decide (p.addr < (c + 1) * 2 ^ 22 ∧ c * 2 ^ 22 < p.addr + p.len)

def preloadCause (_ : RecHead) (p : List Word) (img : Image) : Nat :=
  let sections := (preloadsOf p).getD []
  let u := img.decls.headD {}
  let bad (p : Preload) := p.addr % 32 != 0 || p.len % 32 != 0 || decide (2 ^ 30 < p.addr + p.len)
  let out (p : Preload) := partialImage img.colophon && !(preloadColumns p).all fun c => u.occL2.contains c || u.occL4.contains c
  firstCause [
    ((preloadsOf p).isNone, ldLength), (sections.any bad, ldPreload), (sections.any out, ldPlacement)]

def opMemoryPreload (flash : List Word) (d : Dev) : Dev :=
  d.onRecord flash 0x15 (fun h => d.depthOne h 0 false false) 0 preloadCause fun h p img d =>
    d.setImage { img with preloads := img.preloads ++ ((preloadsOf p).getD []).map fun x => (h.index, x) }
def execMemoryPreload (flash : List Word) (s : State) : Answer := onDev (opMemoryPreload flash) s

/-- A column may be hot in L2 where x + y is even, and in L4 where it is odd (R355). -/
def evenColumn (c : Nat) : Bool := (columnX c + columnY c) % 2 == 0

/-- The hot columns of each die that a THERMAL_MAP names. -/
def hotOf (p : List Word) : List Nat × List Nat := (maskColumns (wordMask p), maskColumns (wordMask (p.drop 8)))

def opThermalMap (flash : List Word) (d : Dev) : Dev :=
  let check (_ : RecHead) (p : List Word) (_ : Image) :=
    firstCause [(!(hotOf p).1.all evenColumn || (hotOf p).2.any evenColumn, ldThermal)]
  d.onRecord flash 0x16 (fun h img => d.depthOne h 0 true img.thermal.isSome img) 64 check fun _ p img d =>
    d.setImage { img with thermal := some (hotOf p) }
def execThermalMap (flash : List Word) (s : State) : Answer := onDev (opThermalMap flash) s

/-- A DRIVE_MAP's parts, by the image's format. -/
def drivesOf (img : Image) (p : List Word) : Option (Nat × Nat × List (Nat × List Nat)) := driveOf (img.colophon.fmtMajor == 2) p

/-- The checks of DRIVE_MAP. A plate that the forme maps already has no place in a partial image (R366). -/
def Dev.driveCause (d : Dev) (_ : RecHead) (p : List Word) (img : Image) : Nat :=
  match drivesOf img p with
  | none => ldLength
  | some (plate, _, owners) =>
    firstCause [
      (owners.any fun e => e.2.any fun c => c == 3, ldDriveMap), (img.drives.contains plate, ldDriveMap),
      (partialImage img.colophon && d.load.mode != .reapply && d.plates.driveMaps.has plate, ldPlacement)]

def opDriveMap (flash : List Word) (d : Dev) : Dev :=
  d.onRecord flash 0x17 (fun h => d.depthOne h 0 false false) 36 d.driveCause fun _ p img d =>
    match drivesOf img p with
    | none => d
    | some (plate, digest, owners) =>
      let d := d.setImage { img with drives := img.drives ++ [plate] }
      let m : DriveMap := { owners := owners.foldl (fun m e => m.put e.1 e.2) ({} : SMap (List Nat)), digest := digest }
      d.unlessAgain fun d => d.modPlates fun p => { p with driveMaps := p.driveMaps.put plate m }
def execDriveMap (flash : List Word) (s : State) : Answer := onDev (opDriveMap flash) s

/-- Source B as the format reads it (R364). -/
def latencyB (img : Image) (l : LatencyDecl) : Bool := l.bValid && img.colophon.fmtMajor != 2

/-- The checks of LATENCY that the record itself decides (R358). -/
def latencyCause (l : LatencyDecl) (img : Image) : Nat :=
  firstCause [
    (decide (l.n < 4 ∨ 16 < l.n ∨ l.r < 1 ∨ 15 < l.r ∨ l.n ≤ l.c ∨ l.n ≤ l.s ∨ l.l < l.r + 2 ∨ 4095 < l.l), ldLatency),
    (!l.aValid || (latencyB img l && l.aDie == l.bDie), ldLatency)]

def opLatency (flash : List Word) (d : Dev) : Dev :=
  let check (_ : RecHead) (p : List Word) (img : Image) :=
    match latencyDeclOf p with
    | none => ldLength
    | some l => latencyCause l img
  d.onRecord flash 0x18 (fun h img => d.depthOne h keeperBase true img.latency.isSome img) 16 check fun h p img d =>
    d.setImage { img with latency := (latencyDeclOf p).map fun l => (h.index, l) }
def execLatency (flash : List Word) (s : State) : Answer := onDev (opLatency flash) s

/-- The kinds of R341. -/
def knownKinds : List Nat := [0x01, 0x02, 0x10, 0x11, 0x12, 0x13, 0x14, 0x15, 0x16, 0x17, 0x18, 0x7F]

/-- An optional record of a kind that the T7 does not implement is skipped after its CRC (R342, R364); any other unknown kind
rejects the image. -/
def opOptionalRecord (flash : List Word) (d : Dev) : Dev :=
  match d.nextRecord flash with
  | none => d
  | some (img, r) =>
    let h := recordHead r
    if knownKinds.contains h.kind then d
    else
      let c := firstCause [
        (!h.crcOk, ldRecordCrc), (decide (h.kind < 0x80) || img.colophon.fmtMajor == 2, ldKind),
        (d.outside || d.inSort img, ldPlacement), (lengthBad h, ldLength)]
      let d := d.recordSeen r
      if c ≠ 0 then d.imageReject c h.index else d
def execOptionalRecord (flash : List Word) (s : State) : Answer := onDev (opOptionalRecord flash) s

end Sys2Proof.Machine
end

