-- ==== Sys2Proof/Machine/Release.lean ====
section
/-!
DEFINITION. The loader's registers and limits (R374, R388) and the release of a verified image: the main path (R377, R378) and
the stages of the fall-back path (R379 to R385).
-/
namespace Sys2Proof.Machine

/-! ## The loader (R373, R374, R388) -/

def ldCtrlAddr : Nat := rootBase + Reg.LD_CTRL.off
def ldDataAddr : Nat := rootBase + Reg.LD_DATA.off

/-- LD_CTRL written as stored, with one of its pulse bits. -/
def Dev.ldCtrlBy (d : Dev) (path : Nat) (f : Fld) : Dev :=
  d.viaCtl path ldCtrlAddr [(f, 1)] fun d => d.ldCtrl path (d.regWith ldCtrlAddr [(f, 1)])

def opLdOpen (path : Fin 8) (d : Dev) : Dev := d.ldCtrlBy path Reg.LD_CTRL.OPEN
def execLdOpen (path : Fin 8) (s : State) : Answer := onDev (opLdOpen path) s

def opLoadAbort (path : Fin 8) (d : Dev) : Dev := d.ldCtrlBy path Reg.LD_CTRL.ABORT
def execLoadAbort (path : Fin 8) (s : State) : Answer := onDev (opLoadAbort path) s

def opReapply (path : Fin 8) (d : Dev) : Dev := d.ldCtrlBy path Reg.LD_CTRL.REAPPLY
def execReapply (path : Fin 8) (s : State) : Answer := onDev (opReapply path) s

def opLdDataWrite (path : Fin 8) (value : Word) (d : Dev) : Dev := d.viaWord path ldDataAddr value fun d => d.ldData path value
def execLdDataWrite (path : Fin 8) (value : Word) (s : State) : Answer := onDev (opLdDataWrite path value) s

/-- No LD_DATA word has arrived for TIMEOUT Ticks; 0 means no limit. -/
def opLoadTimeout (d : Dev) : Dev :=
  let limit := d.fld rootBase Reg.LD_CFG.TIMEOUT
  if d.streaming && decide (limit ≠ 0 ∧ d.load.idleTick + limit ≤ d.tick) then d.imageReject ldTimeout noIndex else d
def execLoadTimeout (s : State) : Answer := onDev opLoadTimeout s

/-! ## The main path (R377, R378) -/

/-- A user unit is released: its flip-flops take their INIT values, its tally units start at 0 and its fences let go (R195, R349,
R378). -/
def Dev.releaseMain (d : Dev) (b : Nat) : Dev :=
  let d := ((d.loadInit b).zeroTallies b).modUser b fun u => { u with rel := .released, relTarget := none }
  if (d.ust b).fences then d else d.fenceNotes b Reg.TILE_EVENT.FENCE_RELEASED

/-- A unit without INIT_PRESENT that software enabled before T: its staged release follows at T (R382). -/
def Dev.releaseHeld (d : Dev) (b : Nat) : Dev :=
  if d.ust b = .starting then d.modUser b fun u => { u with relTarget := some d.now } else d

/-- The image's latency and identity appear (R378). -/
def Dev.showRelease (d : Dev) (img : Image) : Dev :=
  let l := (img.latency.map (·.2)).getD {}
  let d := (((d.setFld keeperBase Reg.LATENCY.L l.l).setFld keeperBase Reg.LATENCY.ALIGN_R l.r).setFld keeperBase Reg.LATENCY.ALIGN_C l.c).setFld
    keeperBase Reg.LATENCY.S l.s
  let id := img.colophon.imageId.toNat
  let d := (d.setReg (rootBase + Reg.IMAGE_ID_LO.off) (BitVec.ofNat 32 id)).setReg (rootBase + Reg.IMAGE_ID_HI.off)
    (BitVec.ofNat 32 (id / 2 ^ 32))
  (d.ldState ldReleased).raise rootBase Reg.LD_EVENT.RELEASED

/-- The release of the forme: its own sequencer, the units with INIT_PRESENT and the clocks of the groups with a plate in force,
and the rules for exhausted spares (R27); the forme then sequences its children. -/
def Dev.releaseForme (d : Dev) (img : Image) : Dev :=
  let before := d
  let d := d.modLoad fun l => { l with released := some img, verified := none, opened := true, target := none, requested := false }
  let d := d.releaseMain formeBase
  let d := d.each (img.decls.filter fun u => u.base != formeBase) fun d u =>
    if u.initPresent then
      if (d.user u.base).rel = .held then d.releaseMain u.base else d
    else d.releaseHeld u.base
  let d := d.each (List.range 16) fun d g =>
    if d.groupInForce g && d.logicOn g then (d.modPower fun p => { p with admission := p.admission.filter (· != g) }).openGroup g else d
  let d := d.each (List.range 16) fun d g => d.fenceUpdate before g
  (d.sparesAtRelease.showRelease img).beginSeq formeBase

/-- Fabric cycle 0 of the target crossing, or of the first crossing after it in which the trunk runs. -/
def opMainPathRelease (d : Dev) : Dev :=
  match d.load.target, d.load.verified with
  | some t, some img =>
    if d.load.opened || crossBefore d.now t || d.ust formeBase != .starting || d.trunkStopped then d else d.releaseForme img
  | _, _ => d
def execMainPathRelease (s : State) : Answer := onDev opMainPathRelease s

/-! ## The staged release (R379, R384, R385) -/

/-- The groups that a partial image's plates switch at the outputs edge of its galley (R384). -/
def Dev.partialSwitch (d : Dev) (b : Nat) : List (Nat × Nat) := d.load.partPlates.at b []

/-- A switch that the release makes is one that R217 or R220 refuses. -/
def Dev.partialBarred (d : Dev) (l : List (Nat × Nat)) : Bool :=
  l.any fun e => d.holdRefused e.1 || d.switchBarred e.1 { target := d.now, list := [e.2], cycle := false }

/-- The column groups that hold a unit's logic. -/
def Dev.unitGroups (d : Dev) (b : Nat) : List Nat := (((d.user b).occL2 ++ (d.user b).occL4).map groupOf).eraseDups

/-- The outputs edge of a unit at T or after it. -/
def opStagedOutputs (unit : Nat) (d : Dev) : Dev :=
  let u := d.user unit
  match u.relTarget with
  | none => d
  | some t =>
    if u.rel ≠ .held ∨ d.ust unit ≠ .starting ∨ crossBefore d.now t ∨ d.trunkStopped then d
    else
      let sw := d.partialSwitch unit
      if d.partialBarred sw then d.startFail unit 0
      else
        let before := d
        let d := d.each sw fun d e => d.switchTo e.1 { target := d.now, list := [e.2], cycle := false }
        let d := d.modLoad fun l => { l with partPlates := l.partPlates.del unit }
        let d := (d.modUser unit fun u => { u with rel := .outputs, relCross := d.now, relCycle := 0 }).fenceNotes unit
          Reg.TILE_EVENT.FENCE_RELEASED
        d.each (d.unitGroups unit) fun d g => d.fenceUpdate before g
def execStagedOutputs (unit : Nat) (s : State) : Answer := onDev (opStagedOutputs unit) s

/-- Fabric cycles that a stage follows another by (REL_GAP): 0 acts as 1. -/
def Dev.gapOf (d : Dev) (f : Fld) : Nat := max 1 (d.fld rootBase f)

/-- The crossing and the fabric cycle in it of a stage `gap` fabric cycles after the last one (R379). -/
def Dev.stageAt (d : Dev) (unit gap : Nat) : Nat × Nat :=
  let u := d.user unit
  (crossAdd u.relCross ((u.relCycle + gap) / d.clk.ratioN), (u.relCycle + gap) % d.clk.ratioN)

/-- The edge of a stage is there: its fabric cycle has begun in every group of the unit, or a later crossing. -/
def Dev.stageDue (d : Dev) (unit gap : Nat) : Bool :=
  let s := d.stageAt unit gap
  crossBefore s.1 d.now || (s.1 == d.now && (d.unitGroups unit).all fun g => decide (s.2 ≤ d.fabric.cycle.num g))

/-- A stage takes effect: the later ones keep their spacing from its edge, which is a crossing edge where its own cycle was omitted. -/
def Dev.passStage (d : Dev) (unit gap : Nat) : Dev :=
  let s := d.stageAt unit gap
  d.modUser unit fun u => { u with relCross := d.now, relCycle := if s.1 = d.now then s.2 else 0 }

/-- GAP_WE fabric cycles after the outputs edge. -/
def opStagedWriteEnables (unit : Nat) (d : Dev) : Dev :=
  let gap := d.gapOf Reg.REL_GAP.GAP_WE
  if (d.user unit).rel ≠ .outputs ∨ d.trunkStopped ∨ !d.stageDue unit gap then d
  else (d.passStage unit gap).modUser unit fun u => { u with rel := .writes }
def execStagedWriteEnables (unit : Nat) (s : State) : Answer := onDev (opStagedWriteEnables unit) s

/-- GAP_RST fabric cycles after the write-enable stage; a U_READY seen since then completes the start, and the forme sequences
its children. -/
def opStagedReset (unit : Nat) (d : Dev) : Dev :=
  let gap := d.gapOf Reg.REL_GAP.GAP_RST
  if (d.user unit).rel ≠ .writes ∨ d.trunkStopped ∨ !d.stageDue unit gap then d
  else
    let seen := (d.user unit).readySeen
    let d := (((d.loadInit unit).zeroTallies unit).passStage unit gap).modUser unit fun u => { u with rel := .released, relTarget := none, readySeen := false }
    if unit = formeBase then d.beginSeq unit else if seen && !d.isGalley unit then d.ready unit else d
def execStagedReset (unit : Nat) (s : State) : Answer := onDev (opStagedReset unit) s

end Sys2Proof.Machine
end

