-- ==== Sys2Proof/Machine/RingCmds.lean ====
section
/-!
DEFINITION. The commands on rings, ring engines and the tally tree ("Rings, Ring Engines and the Tally Tree").
-/
namespace Sys2Proof.Machine

/-- A DEAD ring is a loss of its engine (R263). -/
def Dev.ringLoss (d : Dev) (e : Nat) : Dev :=
  if (d.ringsOf e).any fun l => (d.desc (ringId e l)).state == .dead then d.lose (ringBase e) else d

/-- A state in which an engine writes out and extracts. -/
def Dev.ringWorks (d : Dev) (e : Nat) : Bool := d.runs (ringBase e) || d.ust (ringBase e) == .draining

/-- A descriptor found uncorrectable kills its ring (R263). -/
def Dev.meetDesc (d : Dev) (r : Nat) (bad : Bool) : Dev := if bad then (d.descDead r).ringLoss (ringEngine r) else d

/-! ## Feeding (R264, R267, R268) -/

/-- A push at port PPg_i, numbered 2g + i. -/
def opPush (port : Fin 32) (ring : BitVec 18) (cross : BitVec 48) (tag : Byte) (late : Bool) (data : BitVec 192) (d : Dev) : Dev :=
  let corner := (groupColumns (port / 2)).headD 0
  if !d.portLive [corner * 2, corner * 2 + 1] (portPush + port % 2) then d
  else
  let r := ring.toNat
  let e := ringEngine r
  let b := ringBase e
  let refuse (code : Nat) : Dev :=
    let d := d.modRings fun g => { g with pushErr := g.pushErr.put port (code * 2 ^ 18 + r) }
    if d.ust b = .off then d else (d.count b Reg.PUSH_ERR_COUNT.COUNT).raise b Reg.ENG_EVENT.PUSH_ERR
  if d.kryup.warm || !d.runs b then refuse 1
  else
    match (d.desc r).state with
    | .closed => refuse 2
    | .dead => refuse 3
    | .opened => d.fifoOffer r cross.toNat [slotWord cross.toNat late false false false tag.toNat data.toNat]
def execPush (port : Fin 32) (ring : BitVec 18) (cross : BitVec 48) (tag : Byte) (late : Bool) (data : BitVec 192) (s : State) :
    Answer := onDev (opPush port ring cross tag late data) s

/-- The occupancy at which an episode closes; interface 1 has no RESUME (R289). -/
def Dev.resumeAt (d : Dev) (e : Nat) : Nat :=
  if d.ringMajor e = 1 then 2048 else d.fld (ringBase e) Reg.FIFO_CFG.RESUME

def opGapRecordHandoff (e : Fin 16) (d : Dev) : Dev :=
  let r := d.engine e
  if r.gap = .opened ∧ r.fifo.length ≤ d.resumeAt e then
    d.modEngine e fun r => { r with gap := .writing, writing := r.record, record := {} }
  else d
def execGapRecordHandoff (e : Fin 16) (s : State) : Answer := onDev (opGapRecordHandoff e) s

/-- The gap writer writes a gap slot into each ring of its record. -/
def opGapWritten (e : Fin 16) (ports : List PortFound) (tree : List TreeUpset) (d : Dev) : Dev :=
  let r := d.engine e
  if r.gap = .writing ∧ d.ringWorks e then
    let d := (d.treeStruck e tree).withPorts ports fun d => d.each r.writing.rings fun d l =>
      d.ringWrite (ringId e l) (r.writing.slot (Config.freeAt d.free l))
    let d := d.drew.modEngine e fun r =>
      { r with writing := {}, gap := if r.record.count = 0 then .closed else .opened }
    ((d.raise (ringBase e) Reg.ENG_EVENT.GAP_WRITTEN).ringLoss e)
  else d
def execGapWritten (e : Fin 16) (ports : List PortFound) (tree : List TreeUpset) (s : State) : Answer :=
  onDev (opGapWritten e ports tree) s

/-- The slot at the head of the FIFO is written. -/
def opSlotWrite (e : Fin 16) (descBad : Bool) (port : PortFound) (tree : List TreeUpset) (d : Dev) : Dev :=
  match (d.engine e).fifo with
  | [] => d
  | s :: t =>
    if d.ringWorks e then
      let d := (d.modEngine e fun r => { r with fifo := t }).treeStruck e tree
      let d := d.meetDesc (ringId e s.ring) descBad
      ((d.withPorts [port] fun d => d.ringWrite (ringId e s.ring) s.word).ringLoss e)
    else d
def execSlotWrite (e : Fin 16) (descBad : Bool) (port : PortFound) (tree : List TreeUpset) (s : State) : Answer :=
  onDev (opSlotWrite e descBad port tree) s

/-! ## Ageing (R270, R273) -/

/-- W and G of an engine. -/
def Dev.retain (d : Dev) (e : Nat) : Nat := max 1 (d.fld (ringBase e) Reg.ENG_RETAIN.W)
def Dev.ageGuard (d : Dev) (e : Nat) : Nat := d.fld (ringBase e) Reg.ENG_GUARD.AGE_GUARD

/-- A visit of an OPEN ring by the sweeper. -/
def Dev.sweepRing (d : Dev) (r : Nat) : Dev :=
  let x := d.desc r
  let e := ringEngine r
  if d.retain e + d.ageGuard e ≤ crossSub d.now x.ckCross then
    let age := if (x.ckWr + 2 ^ 32 - x.age) % 2 ^ 32 ≤ x.occ then x.ckWr else x.age
    d.setDesc r { x with age := age, ckWr := x.wr, ckCross := d.now }
  else d

/-- The OPEN ring that follows a local index, in index order and around the end. -/
def Dev.nextOpen (d : Dev) (e after : Nat) : Option Nat :=
  let l := (d.ringsOf e).filter fun l => (d.desc (ringId e l)).state == .opened
  match l.find? fun i => after < i with
  | some i => some i
  | none => l.head?

def opSweepVisit (e : Fin 16) (descBad : Bool) (tree : List TreeUpset) (d : Dev) : Dev :=
  if d.ringWorks e then
    match d.nextOpen e (d.engine e).sweepAt with
    | some l =>
      let d := ((d.modEngine e fun r => { r with sweepAt := l }).treeStruck e tree).meetDesc (ringId e l) descBad
      if (d.desc (ringId e l)).state = .opened then d.sweepRing (ringId e l) else d
    | none => d
  else d
def execSweepVisit (e : Fin 16) (descBad : Bool) (tree : List TreeUpset) (s : State) : Answer := onDev (opSweepVisit e descBad tree) s

/-- A flush pass ends: every one of the 16,384 descriptors that it had still to visit is flushed. -/
def opFlushDone (e : Fin 16) (tree : List TreeUpset) (d : Dev) : Dev :=
  let g := d.engine e
  if g.flushing then
    ((d.treeStruck e tree).each ((List.range 16384).filter fun l => !g.flushed.mem l) fun d l => d.flushRing (ringId e l)).modEngine e
      fun r => { r with flushing := false, flushed := {} }
  else d
def execFlushDone (e : Fin 16) (tree : List TreeUpset) (s : State) : Answer := onDev (opFlushDone e tree) s

/-! ## RING_CMD (R262, R263, R283) -/

/-- A ring's bytes lie where R262 wants them. -/
def Dev.baseOk (d : Dev) (x : Desc) : Bool :=
  let a := dsOffset x.base
  let n := 32 * x.cap
  x.base % 32 == 0 &&
  ((dsKeyOf x.base == 0 && decide (a + n ≤ 2 ^ 30)) || decide (extFirst ≤ a ∧ a + n ≤ extFirst + d.visible))

/-- OPEN: the ring's new state and the status of R262. -/
def Dev.openRing (d : Dev) (e ring : Nat) : Dev × Nat :=
  let r := ringId e ring
  let x := d.desc r
  if (d.engine e).frozen.isSome then (d, 1)
  else if x.state ≠ .closed then (d, 2)
  else if x.logCap < 4 ∨ 16 < x.logCap then (d, 3)
  else if !d.baseOk x then (d, 4)
  else (d.setDesc r { x with state := .opened, wr := 0, age := 0, ckWr := 0, ckCross := d.now, premValid := false }, 0)

/-- CLOSE. -/
def Dev.closeRing (d : Dev) (e ring : Nat) : Dev := d.setDesc (ringId e ring) { d.desc (ringId e ring) with state := .closed }

/-- A command of RING_CMD with its status; OP 0b11 returns BAD_CAP. -/
def Dev.ringGo (d : Dev) (e op ring : Nat) : Dev :=
  let b := ringBase e
  let d := (d.setFld b Reg.RING_CMD.OP op).setFld b Reg.RING_CMD.RING ring
  let (d, st) := match op with
    | 0 => d.openRing e ring
    | 1 => (d.closeRing e ring, 0)
    | 2 => (d.rebuild e, 0)
    | _ => (d, 3)
  d.setFld b Reg.RING_CMD_STATUS.STATUS st

/-- A write of RING_CMD with GO. -/
def Dev.ringCmd (d : Dev) (path e op ring : Nat) : Dev :=
  d.viaCtl path (ringBase e + Reg.RING_CMD.GO.off)
    [(Reg.RING_CMD.OP, op), (Reg.RING_CMD.RING, ring), (Reg.RING_CMD.GO, 1)] fun d => d.ringGo e op ring

def opOpenRing (path : Fin 8) (e : Fin 16) (ring : Fin 16384) (d : Dev) : Dev := d.ringCmd path e 0 ring
def execOpenRing (path : Fin 8) (e : Fin 16) (ring : Fin 16384) (s : State) : Answer := onDev (opOpenRing path e ring) s

def opCloseRing (path : Fin 8) (e : Fin 16) (ring : Fin 16384) (d : Dev) : Dev :=
  d.ringCmd path e 1 ring
def execCloseRing (path : Fin 8) (e : Fin 16) (ring : Fin 16384) (s : State) : Answer := onDev (opCloseRing path e ring) s

def opRebuild (path : Fin 8) (e : Fin 16) (d : Dev) : Dev :=
  d.ringCmd path e 2 (d.fld (ringBase e) Reg.RING_CMD.RING)
def execRebuild (path : Fin 8) (e : Fin 16) (s : State) : Answer := onDev (opRebuild path e) s

/-- A full rebuild ends, every node's word written anew; it completes the start of a STARTING engine (R285). -/
def opRebuildDone (e : Fin 16) (d : Dev) : Dev :=
  if (d.engine e).frozen.isSome then
    ((d.modEngine e fun r => { r with frozen := none, stale := {}, upset := {} }).raise (ringBase e) Reg.ENG_EVENT.REBUILD_DONE).ready (ringBase e)
  else d
def execRebuildDone (e : Fin 16) (s : State) : Answer := onDev (opRebuildDone e) s

/-! ## Extraction (R269, R276 to R278) -/

/-- A slot is live (R269). -/
def Dev.slotLive (d : Dev) (e : Nat) (cross : Nat) : Bool :=
  let x := crossSub d.now cross
  decide (x ≤ d.retain e ∨ 2 ^ 47 ≤ x)

/-- An accept's window holds a crossing. -/
def Accept.holds (a : Accept) (k : Nat) : Bool := decide (crossSub k (crossSub a.cross a.before) ≤ a.before + a.after)

/-- An accept selects a slot, which must be live: by its crossing, or, of a gap slot, by its range (R269, R276). -/
def Dev.selects (d : Dev) (e : Nat) (a : Accept) (w : RowWord) : Bool :=
  d.slotLive e (slotCross w) &&
  if slotGap w then
    !crossBefore (slotLast w) (crossSub a.cross a.before) && !crossBefore (crossAdd a.cross a.after) (slotFirst w)
  else a.holds (slotCross w)

/-- What a scan of a ring finds: its selected slots in write order, and whether a read failed. -/
structure Scan where
  slots  : List RowWord := []
  failed : Bool := false

/-- The crossing at which a scan stops; interface 1 scans to AGE (R276, R289). -/
def Dev.scanStop (d : Dev) (e : Nat) (a : Accept) : Option Nat :=
  if d.ringMajor e = 1 then none
  else some (crossSub a.cross (a.before + d.fld (ringBase e) Reg.ENG_GUARD.SCAN_SLACK))

/-- The scan from slot `age + n - 1` back to AGE. -/
def Dev.scan (e r : Nat) (a : Accept) (stop : Option Nat) : Nat → Dev → Scan → Dev × Scan
  | 0, d, s => (d, s)
  | n + 1, d, s =>
    let x := d.desc r
    let addr := x.slotAddr (x.age + n)
    let b := ringBase e
    let missed (d : Dev) : Dev := (d.count b Reg.RD_ERR_COUNT.COUNT).raise b Reg.ENG_EVENT.RD_ERR
    let (d, st, w) := if ringInDie addr then d.baseRead .ring (dsOffset addr / 32) else d.dsRead32 clsRing addr
    match slotEnd (ringInDie addr) st with
    | some true =>
      if (match stop with | some k => crossBefore (slotCross w) k | none => false) then (d, s)
      else Dev.scan e r a stop n d (if d.selects e a w then { s with slots := w :: s.slots } else s)
    | some false => ((missed d).ringDead r, { s with failed := true })
    | none => Dev.scan e r a stop n (missed d) { s with failed := true }

/-- A ring's part of a group's output: its id, its slots and PREM. -/
structure RingPart where
  ring  : Nat
  slots : List RowWord
  prem  : Bool

/-- A ring header (R259): what it holds beside RING_HDR, RING, COUNT and PREM the spec leaves open. -/
def ringHeader (open_ : Nat) (p : RingPart) (count : Nat) : RowWord :=
  slotWord open_ false false false true (open_ >>> 48) (p.ring + count * 2 ^ 32 + bit01 p.prem * 2 ^ 48)

/-- Adds a ring's slots to fragments of at most `cap` slots, the last of which is still open. -/
def packRing (cap : Nat) (hdr : Nat → RowWord) : Nat → List RowWord → List (List RowWord) → List RowWord → List (List RowWord) × List RowWord
  | 0, _, done, cur => (done, cur)
  | f + 1, slots, done, cur =>
    if slots = [] then (done, cur)
    else if cap < cur.length + 2 then packRing cap hdr f slots (done ++ [cur]) []
    else
      let n := min slots.length (cap - cur.length - 1)
      packRing cap hdr f (slots.drop n) done (cur ++ hdr n :: slots.take n)

/-- The fragments of a group's rings; one of no slots where nothing was selected. A lane that carries one slot a fragment
takes each header and slot by itself. -/
def packParts (cap : Nat) (open_ : Nat → Nat) (ps : List RingPart) : List (List RowWord) :=
  if cap < 2 then
    match ps.flatMap fun p => (ringHeader (open_ p.ring) p 0 :: p.slots).map fun w => [w] with
    | [] => [[]]
    | l => l
  else
    let r := ps.foldl (fun (done, cur) p => packRing cap (ringHeader (open_ p.ring) p) (2 * p.slots.length + 2) p.slots done cur)
      (([] : List (List RowWord)), ([] : List RowWord))
    r.1 ++ (if r.2 = [] ∧ r.1 ≠ [] then [] else [r.2])

/-- The most slots a fragment of a group holds: 63, or what FRAG_MAX of its lane allows. -/
def Dev.fragCap (d : Dev) (e g : Nat) : Nat :=
  match d.fragLane e g with
  | some n => min 63 (max 1 ((d.fld (laneBase n) Reg.LINK_CTRL.FRAG_MAX - 2) / 4))
  | none => 63

/-- One group of an accept is extracted: its fragments. -/
def Dev.extractGroup (d : Dev) (e : Nat) (a : Accept) (bad : List Nat) (g : Nat) : Dev × List Frag :=
  let inGroup := (d.ringsOf e).filter fun l => l / 1024 == g
  let old := crossBefore (crossSub a.cross a.before) (crossSub d.now (d.retain e))
  let d := d.each (inGroup.filter fun l => bad.contains l && ((d.desc (ringId e l)).state == .opened)) fun d l => d.descDead (ringId e l)
  let visit := inGroup.filter fun l => decide ((d.desc (ringId e l)).occ ≠ 0)
  let (d, parts, failed) := visit.foldl (fun (d, parts, failed) l =>
    let r := ringId e l
    let d := d.flushFirst r
    let x := d.desc r
    let (d, s) := Dev.scan e r a (d.scanStop e a) x.occ d {}
    let prem := x.premValid && !crossBefore x.premLast (crossSub a.cross (a.before + d.ageGuard e))
    (d, if s.slots = [] then parts else parts ++ [{ ring := r, slots := s.slots, prem := prem }], failed || s.failed))
    (d, ([] : List RingPart), false)
  let dead := inGroup.any fun l => (d.desc (ringId e l)).state == .dead
  let slots := parts.flatMap (·.slots)
  let gap := slots.any slotGap || dead || failed || parts.any (·.prem) || old
  let late := slots.any slotLate
  let lists := packParts (d.fragCap e g) (Config.freeAt d.free) parts
  let stream := d.fld (ringBase e) (Reg.GRP_DEST.STREAM.elem g)
  (d.drew, lists.zipIdx.map fun p =>
    { group := g, cross := a.cross, seq := p.2, last := p.2 + 1 == lists.length, gap := gap, late := late, stream := stream
      slots := p.1 })

/-- The accept served next: the highest priority, the earliest within it. -/
def nextAccept : List Accept → Option Accept
  | [] => none
  | a :: t => some (t.foldl (fun m x => if m.prio < x.prio then x else m) a)

/-- An engine whose output is clear takes its next accept (R277) and scans the groups it maps; `bad` names local rings whose descriptors are found
uncorrectable. -/
def opExtract (e : Fin 16) (bad : List Nat) (ports : List PortFound) (d : Dev) : Dev :=
  d.withPorts ports fun d =>
  let r := d.engine e
  match nextAccept r.accepts with
  | none => d
  | some a =>
    if d.ringWorks e && r.frags == [] && r.rqWait == [] then
      let d := d.modEngine e fun r => { r with accepts := r.accepts.erase a }
      let groups := (List.range 16).filter fun g => bitOf a.map g && d.flag (ringBase e) (Reg.GRP_DEST.EN.elem g)
      let (d, fs) := groups.foldl (fun (d, fs) g =>
        let (d, l) := d.extractGroup e a bad g
        (d, fs ++ l)) (d, ([] : List Frag))
      let d := d.modEngine e fun r => { r with frags := fs }
      let d := if fs = [] then d.count (ringBase e) Reg.ACC_DONE_COUNT.COUNT else d
      (d.ringLoss e)
    else d
def execExtract (e : Fin 16) (bad : List Nat) (ports : List PortFound) (s : State) : Answer := onDev (opExtract e bad ports) s

/-- The next fragment leaves for its trunk lane, or for the readout queue; while one waits there for room, the engine waits (R277). The
accept is done with its last fragment. -/
def opFragmentSend (e : Fin 16) (d : Dev) : Dev :=
  match (d.engine e).frags with
  | [] => d
  | f :: t =>
    if d.ringWorks e && (d.engine e).rqWait == [] then
      let lane := (d.fragLane e f.group).isSome
      let d := (d.modEngine e fun r => { r with frags := t }).fragOut e f
      if t = [] ∧ lane then d.count (ringBase e) Reg.ACC_DONE_COUNT.COUNT else d
    else d
def execFragmentSend (e : Fin 16) (s : State) : Answer := onDev (opFragmentSend e) s

def opReadoutQueueWrite (e : Fin 16) (ports : List PortFound) (d : Dev) : Dev :=
  d.withPorts ports fun d =>
  match (d.engine e).rqWait with
  | [] => d
  | f :: t =>
    if d.ringWorks e && d.rqRoom e f then
      let done := t == [] && (d.engine e).frags == []
      let d := (d.modEngine e fun r => { r with rqWait := t }).rqEntry e f
      if done then d.count (ringBase e) Reg.ACC_DONE_COUNT.COUNT else d
    else d
def execReadoutQueueWrite (e : Fin 16) (ports : List PortFound) (s : State) : Answer := onDev (opReadoutQueueWrite e ports) s

end Sys2Proof.Machine
end

