-- ==== Sys2Proof/Machine/Access.lean ====
section
/-!
DEFINITION. Accesses to control space whatever register they reach: what a write and a read of each register do (R6 to R8), the
indirect windows (R84, R85, R256, R261, R288), the arbiter and the paths (R87, R88, R90 to R92), wakes (R413) and repeated EVENT
messages (R93).
-/
namespace Sys2Proof.Machine

/-! ## Writes -/

/-- A written word with reserved encodings replaced by the reset value of their field, and reserved enables at 0 (R8, R65). -/
def fixReserved (u : Unit) (off : Nat) (w : Word) : Word :=
  if off = Reg.EVENT_EN.EN.off then w &&& 0xFFFFFF1F
  else match u.blk with
    | .keeper =>
      if off = Reg.KEEP_CTRL.off then
        let w := if fget w Reg.KEEP_CTRL.SYNC_SRC = 3 then fset w Reg.KEEP_CTRL.SYNC_SRC 0 else w
        let w := if fget w Reg.KEEP_CTRL.SYNC_MODE = 3 then fset w Reg.KEEP_CTRL.SYNC_MODE 2 else w
        if 144 ≤ fget w Reg.KEEP_CTRL.SYNC_LANE then fset w Reg.KEEP_CTRL.SYNC_LANE 0 else w
      else w
    | .hitLane | .trunkLane =>
      if off = Reg.LANE_CFG.TX_DIV.off then
        let w := if fget w Reg.LANE_CFG.RX_DIV = 3 then fset w Reg.LANE_CFG.RX_DIV 0 else w
        if fget w Reg.LANE_CFG.TX_DIV = 3 then fset w Reg.LANE_CFG.TX_DIV 0 else w
      else if off = Reg.CTLE_CTRL.MODE.off ∧ fget w Reg.CTLE_CTRL.MODE = 3 then
        fset w Reg.CTLE_CTRL.MODE (fget (resetValue (u.base + off)) Reg.CTLE_CTRL.MODE)
      else w
    | .mc => if off = Reg.MC_CFG.off ∧ 6 ≤ fget w Reg.MC_CFG.RATE then fset w Reg.MC_CFG.RATE 5 else w
    | _ => w

/-- RW bits are stored, W1C bits written 1 cleared (R6), as the presented version lays them out (R78). -/
def Dev.plainWrite (d : Dev) (u : Unit) (off : Nat) (w : Word) : Dev :=
  match u.rowAt off with
  | none => d
  | some r =>
    let p := BitVec.ofNat 32 ((d.presented u off).getD 0)
    let rw := BitVec.ofNat 32 r.rw &&& p
    let old := (d.reg (u.base + off) &&& ~~~rw) ||| (fixReserved u off w &&& rw)
    d.setReg (u.base + off) (old &&& ~~~(w &&& BitVec.ofNat 32 r.w1c &&& p))

/-- A bit of a written word. -/
def sets (w : Word) (f : Fld) : Bool := fget w f != 0

/-- A write of a lane's register. Of the bits of one BLK_CTRL write FORCE_MANUAL acts first, then BITSLIP, then REHUNT (DESIGN CHOICE, log
entry 124). -/
def Dev.laneWrite (d : Dev) (u : Unit) (off : Nat) (w : Word) : Dev :=
  let n := u.idx
  let b := u.base
  let s := d.plainWrite u off w
  if off = Reg.TX_FIR.off ∧ isTrunk n then d.firWrite n (fget w Reg.TX_FIR.PRE) (fget w Reg.TX_FIR.POST)
  else if off = Reg.TX_CTRL.AMP.off then s.ampWrite n
  else if off = Reg.CTLE_CTRL.MODE.off then
    if s.fld b Reg.CTLE_CTRL.MODE = 0 ∧ s.laneOn n then s.setFld b Reg.CTLE_STATUS.PEAK (s.fld b Reg.CTLE_CTRL.PEAK) else s
  else if off = Reg.DFE_CTRL.off then
    (d.dfeCtrlWrite n fun d => d.plainWrite u off w).when (sets w Reg.DFE_CTRL.SNAP) fun d => d.snapTaps n
  else if off = Reg.DFE_LOAD.off then
    if sets w Reg.DFE_LOAD.LOAD then
      s.dfeLoad n (fget w Reg.DFE_LOAD.TAP) (BitVec.ofNat 8 (fget w Reg.DFE_LOAD.VALUE))
    else s
  else if off = Reg.EYE_CTRL.off then s.when (sets w Reg.EYE_CTRL.START) fun d => d.eyeStart n
  else if off = Reg.BLK_CTRL.off then
    let d := d.forceManual n (sets w Reg.BLK_CTRL.FORCE_MANUAL)
    let d := d.when (sets w Reg.BLK_CTRL.BITSLIP) fun d => d.bitslip n
    d.when (sets w Reg.BLK_CTRL.REHUNT) fun d => d.rehunt n
  else if off = Reg.LINK_CTRL.off then
    let d := s.when (sets w Reg.LINK_CTRL.RENEGOTIATE) fun d => d.renegotiate n
    let d := d.when (sets w Reg.LINK_CTRL.PROOF_ON) fun d => d.proofSend n 1
    d.when (sets w Reg.LINK_CTRL.PROOF_OFF) fun d => d.proofSend n 2
  else if off = Reg.REM_CTRL.GO.off then s.when (sets w Reg.REM_CTRL.GO) fun d => d.remGo n
  else if off = 0x600 + Reg.PRF_CTRL.off then d.prfWrite b 0x600 w
  else s

/-- A write of a GPIO bank's register: the pins it changes may interrupt, and a level that stands sets its bit again (R512). -/
def Dev.gpioWrite (d : Dev) (u : Unit) (off : Nat) (w : Word) : Dev :=
  let pins := bankPins u.idx
  if 0x140 ≤ off ∧ off < 0x1E0 then
    let p := 40 * u.idx + (off - 0x140) / 4
    d.pinChange [p] fun d => d.pinCfgWrite p w
  else d.pinChange pins fun d => d.plainWrite u off w

/-- A write of the self-test controller's registers. -/
def Dev.stctlWrite (d : Dev) (u : Unit) (off : Nat) (w : Word) : Dev :=
  let s := d.plainWrite u off w
  if off = Reg.BIST_CMD.GROUPS.off then s.when (sets w Reg.BIST_CMD.GO) Dev.bistGo
  else if off = Reg.PEAL_CTRL.EN.off then
    if sets w Reg.PEAL_CTRL.EN then s else s.each (List.range 16) Dev.windUp
  else if off = Reg.PEAL_PRIV.TARGET.off then s.when (sets w Reg.PEAL_PRIV.GO) Dev.privGo
  else if off = Reg.REP_CMD.OP.off then s.when (sets w Reg.REP_CMD.GO) Dev.repGo
  else s

/-- A write of the keeper's registers. -/
def Dev.keeperWrite (d : Dev) (u : Unit) (off : Nat) (w : Word) : Dev :=
  if off = Reg.KEEP_CTRL.off then
    let ref := fget w Reg.KEEP_CTRL.REF_SEL
    let s := d.plainWrite u off (fset w Reg.KEEP_CTRL.REF_SEL (d.fld keeperBase Reg.KEEP_CTRL.REF_SEL))
    let s := s.refSel ref
    let s := s.when (sets w Reg.KEEP_CTRL.ARM) Dev.armNow
    s.when (sets w Reg.KEEP_CTRL.RELOCK) Dev.relockNow
  else if off = Reg.KEEP_RATIO.N.off then d.askRatio (fget w Reg.KEEP_RATIO.N) (fget w Reg.KEEP_RATIO.XB_MUL)
  else d.plainWrite u off w

/-- A write of Kryup's registers that any path may write. -/
def Dev.kryupWrite (d : Dev) (path : Nat) (u : Unit) (off : Nat) (w : Word) : Dev :=
  if off = Reg.RST_REQ.off then
    d.rstReq path (fget w Reg.RST_REQ.KEY) (sets w Reg.RST_REQ.DEVICE) (sets w Reg.RST_REQ.WARM)
  else if off = Reg.PROP_CTRL.OPEN.off then d.propCtrl w
  else if off = Reg.PROP_DATA.off then d.propData w
  else d.plainWrite u off w

/-- A write of a serial port's registers. -/
def Dev.serialWrite (d : Dev) (u : Unit) (off : Nat) (w : Word) : Dev :=
  if off = Reg.SER_TX.off then d.serTx u.idx (BitVec.ofNat 8 w.toNat)
  else if off = Reg.SER_CMD.off then d.serCmdWrite u.idx w
  else if off = Reg.SER_CFG.off ∨ off = Reg.SER_ARG.off then
    d.setReg (u.base + off) (w &&& BitVec.ofNat 32 (serialMask u.idx off))
  else d.plainWrite u off w

/-- A write of a column unit's registers. -/
def Dev.columnWrite (d : Dev) (u : Unit) (off : Nat) (w : Word) : Dev :=
  if u.layer = 1 ∧ off = Reg.MARCH_CTRL.GO.off ∧ sets w Reg.MARCH_CTRL.GO then
    d.marchGo u.column (fget w Reg.MARCH_CTRL.MODE) (fget w Reg.MARCH_CTRL.BANKS)
  else if u.layer = 0 ∧ off = 0x300 + Reg.PRF_CTRL.off then d.prfWrite u.base 0x300 w
  else d.plainWrite u off w

/-- A write of FAULT: the specific bits of a column are those of its five units, and clear in all of them (R36). -/
def Dev.faultWrite (d : Dev) (u : Unit) (w : Word) : Dev :=
  let d := d.plainWrite u Reg.FAULT.START_FAIL.off w
  if u.blk = .column then
    d.each ((List.range 5).map fun l => columnBase l u.column) fun d b =>
      let a := b + Reg.FAULT.START_FAIL.off
      d.setReg a (d.reg a &&& ~~~(w &&& 0xFFFFFF00))
  else d

/-- What a write does beyond storing, register by register; the UCB's CTRL and VERSION_SEL first. -/
def Dev.effectWrite (d : Dev) (path : Nat) (u : Unit) (off : Nat) (w : Word) (m : AccessMeet) : Dev :=
  let b := u.base
  if off = Reg.CTRL.ENABLE.off then d.ctrlWrite b w
  else if off = Reg.VERSION_SEL.SEL_MINOR.off then d.versionWrite b w
  else if off = Reg.FAULT.START_FAIL.off then d.faultWrite u w
  else if off < 0x2C then d.plainWrite u off w
  else
    let s := d.plainWrite u off w
    match u.blk with
    | .root =>
      if off = Reg.IRQ_CTRL.off then
        if sets w Reg.IRQ_CTRL.EVT_EN && !d.flag b Reg.IRQ_CTRL.EVT_EN then
          s.modCtl fun c => { c with rootRaised := d.rootRaises, eventTick := d.tick }
        else s
      else if off = Reg.LD_CTRL.off then d.ldCtrl path w else if off = Reg.LD_DATA.off then d.ldData path w else s
    | .kryup => d.kryupWrite path u off w
    | .clkgen => if off = Reg.CLK_CMD.off then d.clkCmdWrite w else s
    | .keeper => d.keeperWrite u off w
    | .power =>
      if off = Reg.MODE_REQ.off then
        s.when (sets w Reg.MODE_REQ.GO) fun d => d.modeRequest (fget w Reg.MODE_REQ.TARGET) m.ack
      else if off = Reg.VSET_A.off then d.vsetWrite false w m.ack
      else if off = Reg.VSET_B.off then d.vsetWrite true w m.ack
      else s
    | .pdctl =>
      if off < 0x1A0 then (d.pdWrite ((off - 0x100) / 4) (w.getLsbD 0)).modeStep modeSteps else s
    | .config =>
      if off = Reg.PCMD.off then d.pcmdWrite w else if off = Reg.PSTREAM_DATA.off then d.pstreamWrite w else s
    | .pins =>
      if off < 0x1A0 then
        let k := (off - 0x100) / 4
        d.pinChange ((List.range 8).map fun j => 8 * k + j) fun d => d.muxWrite k w
      else s
    | .gpio => d.gpioWrite u off w
    | .serial => d.serialWrite u off w
    | .serialGalley => if off = flCmdAddr - serialGalleyBase then s.when (sets w Reg.FL_CMD.GO) Dev.flGo else s
    | .strike =>
      if off = Reg.STK_CTRL.HOLD.off then if sets w Reg.STK_CTRL.FORCE_BUSY then s.busySees busyForce else s
      else if off = 0x200 + Reg.PRF_CTRL.off then d.prfWrite b 0x200 w
      else s
    | .stctl => d.stctlWrite u off w
    | .mc => if off = 0x200 + Reg.PRF_CTRL.off then d.prfWrite b 0x200 w else s
    | .crypto => if 0x200 ≤ off ∧ off < 0x300 then d.regionWrite (b + off) w else s
    | .mover => if off = Reg.MV_CTRL.GO.off then s.when (sets w Reg.MV_CTRL.GO) fun d => d.moverGo u.idx else s
    | .hitLane | .trunkLane => d.laneWrite u off w
    | .laneGroup => if off = Reg.LG_PLL_CFG.off then d.pllCfgWrite u.idx w else s
    | .ring =>
      if off = Reg.RING_CMD.GO.off then
        if sets w Reg.RING_CMD.GO then d.ringGo u.idx (fget w Reg.RING_CMD.OP) (fget w Reg.RING_CMD.RING) else s
      else s.seeBusy u.idx
    | .column => d.columnWrite u off w
    | _ => s

/-- A KW register (R6): Kryup's CTRL and the monitors' (R73, R416), and those their tables name. -/
def Unit.kwAt (u : Unit) (off : Nat) : Bool :=
  (off == Reg.CTRL.ENABLE.off && (u.blk == .kryup || u.blk == .monitor)) ||
  match u.rowAt off with
  | some r => r.kw != 0
  | none => false

/-- A write of a register: its new state and status. -/
def Dev.writeReg (d : Dev) (path addr : Nat) (w : Word) (m : AccessMeet) : Dev × Nat :=
  match unitAt addr with
  | none => (d, stOk)
  | some u =>
    let off := addr - u.base
    if u.kwAt off then
      if path ≠ pathKryup then (d.kwCause path addr, stDenied)
      else if off = Reg.CTRL.ENABLE.off then (d.ctrlWrite u.base w, stOk)
      else (d.kryWrite (addr, w), stOk)
    else (d.effectWrite path u off w m, stOk)

/-! ## Reads -/

/-- A word of a child table (R64). -/
def childWord (c : Bool × Nat) : Word := BitVec.ofNat 32 (bit01 c.1 * 2 ^ 31 + c.2 / 0x1000)

/-- A shaft fence cell of a tile is engaged by its galley, one of the other die (R194 to R196). -/
def Dev.shaftFence (d : Dev) (t : Nat) : Bool :=
  d.fabric.fences.keys.any fun k =>
    k / 16384 == t && decide (1536 ≤ k % 16384 ∧ k % 16384 < 2560) &&
      match d.fenceUnit t (.shaft (Fin.ofNat 1024 (k % 16384 - 1536))) with
      | some b => d.unitFenced b
      | none => false

/-- Fence cells of a galley are engaged in a tile (R195, R196): one that the tree holds, or one whose records a load has yet to
verify. -/
def Dev.galleyFence (d : Dev) (layer c : Nat) : Bool :=
  (d.units.user.items.any fun e => (if layer = 2 then e.2.occL2 else e.2.occL4).contains c && d.unitFenced e.1) ||
    (d.loadingUnits.any fun u => u.base != formeBase && (if layer = 2 then u.occL2 else u.occL4).contains c) ||
    d.shaftFence (c * 2 + bit01 (layer == 4))

/-- TILE_STATUS. -/
def Dev.tileStatus (d : Dev) (layer c : Nat) : Word :=
  BitVec.ofNat 32 (bit01 (d.plates.conflict.keys.any fun k => k / 4 == c) * 8 + bit01 (d.galleyFence layer c) * 4 +
    bit01 (d.fenced c) * 2 + bit01 (d.colClock c (if layer = 2 then 0 else 1)))

/-- TEMP of a column unit (R438). -/
def Dev.tempWord (d : Dev) (layer c : Nat) : Word :=
  let s (i : Nat) := bit01 (d.sensorValid layer c i) * 2 ^ 15 + d.reading (sensorKey layer c i) % 512
  BitVec.ofNat 32 (s 1 * 2 ^ 16 + s 0)

/-- An entry of the repair log, 0 beyond those held. -/
def Dev.repEntry (d : Dev) : RepEntry := (d.test.log[d.fld stctlBase Reg.REP_LOG_IDX.INDEX]?).getD {}

/-- A word of Kryup's log window (R458). -/
def Dev.logWord (d : Dev) (a : Nat) : Word :=
  let i := (a - (kryupBase + 0x1000)) / 4
  let e := d.kryup.log.at (i / 2) {}
  if i % 2 = 0 then e.w0 else e.w1

/-- What a register whose value follows other state reads; none where it reads as stored. -/
def Dev.derived (d : Dev) (u : Unit) (off : Nat) : Option Word :=
  let v := d.reg (u.base + off)
  if off = Reg.EVENT.FAULT.off then some (d.eventWord u.base)
  else if off = Reg.STATE.SELF.off then
    some (if d.isGalley u.base then fset v Reg.STATE.NOT_RUNNING (d.notRunning u.base) else v)
  else match u.blk with
    | .kryup =>
      if off = Reg.KRY_STATUS.off then some (fset v Reg.KRY_STATUS.WDG_RUN (bit01 d.wdgRuns))
      else if off = Reg.WDG_STATUS.SINCE.off then some (BitVec.ofNat 32 (min 0xFFFF d.kryup.wdgTicks))
      else none
    | .clkgen => if off = Reg.CLK_STATUS.off then some (fset v Reg.CLK_STATUS.XA_FREQ d.clk.xaFreq) else none
    | .pll => if off = Reg.PLL_STATUS.off then some (fset v Reg.PLL_STATUS.ACTIVE (bit01 (d.rootDrives u.idx))) else none
    | .mc =>
      if off = Reg.MC_STATUS.off then
        some (fset v Reg.MC_STATUS.MPLL_LOCK (bit01 (d.clk.mpllLock && decide (d.ust u.base ≠ .off))))
      else none
    | .gpio =>
      if off = Reg.GPIO_IN_LO.PINS.off then some (d.gpioIn u.idx false)
      else if off = Reg.GPIO_IN_HI.PINS.off then some (d.gpioIn u.idx true)
      else none
    | .serial =>
      let r := d.serialRec u.idx
      if off = Reg.SER_STATUS.BUSY.off then
        some (BitVec.ofNat 32 (r.rx.length * 2 ^ 16 + r.tx.length * 2 ^ 8 + bit01 (d.serBusy u.idx)))
      else none
    | .serialGalley =>
      if off = Reg.FUSE_DATA.DATA.off then some (d.fuseWord (d.fld u.base Reg.FUSE_ADDR.WORD)) else none
    | .strike =>
      if off = Reg.STK_STATUS.off then some ((v &&& 0xFFFFE0FF) ||| BitVec.ofNat 32 (d.holdSources % 32 * 2 ^ 8)) else none
    | .stctl =>
      if off = Reg.PEAL_STATUS.off then some (fset v Reg.PEAL_STATUS.RUNNING (bit01 ((List.range 16).any d.relieving)))
      else if off = Reg.REP_STATUS.off then
        some (fset (fset v Reg.REP_STATUS.MAP_COUNT d.test.softMap.length) Reg.REP_STATUS.LOG_COUNT (min 0xFF d.test.log.length))
      else if off = Reg.REP_LOG_W0.W0.off then some d.repEntry.w0
      else if off = Reg.REP_LOG_W1.W1.off then some d.repEntry.w1
      else none
    | .mover =>
      (d.ext.chains.look u.idx).bind fun c =>
        if off = Reg.MV_DESC_LO.ADDR_LO.off then some (BitVec.ofNat 32 c.desc)
        else if off = Reg.MV_DESC_HI.ADDR_HI.off then some (BitVec.ofNat 32 (c.desc / 2 ^ 32))
        else none
    | .hitLane | .trunkLane =>
      let l := d.link u.idx
      if off = Reg.LANE_STATUS.off then some (fset v Reg.LANE_STATUS.ADAPTING (bit01 (d.adapting u.idx)))
      else if off = Reg.BLK_STATE.off then some (fset v Reg.BLK_STATE.WAITING (bit01 (d.waiting u.idx)))
      else if off = Reg.CREDIT_STATUS.AVAIL_F.off then
        some (BitVec.ofNat 32 ((l.limitM + 2 ^ 16 - l.consM) % 2 ^ 16 * 2 ^ 16 + (l.limitF + 2 ^ 16 - l.consF) % 2 ^ 16))
      else none
    | .ring =>
      if off = Reg.ENG_STATUS.FIFO.off then some (d.engStatus u.idx)
      else if off = Reg.ENG_OCC.SLOTS.off then some (BitVec.ofNat 32 (d.engOcc u.idx))
      else none
    | .column =>
      if off = Reg.TEMP.S0.off then some (d.tempWord u.layer u.column)
      else if off = Reg.TILE_STATUS.CLK_RUN.off ∧ (u.layer = 2 ∨ u.layer = 4) then some (d.tileStatus u.layer u.column)
      else none
    | _ => none

/-- USER3 or USER4 of a shell: tile (column × 2 + die) and shell follow from its base (R79). -/
def Dev.userWord (d : Dev) (base off : Nat) : Nat :=
  let n := (base - shellBase 0 0 0) / 0x1000
  d.valueWord (n % 512 / 2 * 2 + n / 512) 32 fun i => .port (.user (n % 2 == 1) (decide (0x3C ≤ off)) i)

/-- The other pairs of registers that hold one value wider than 32 bits: the offset of the low one, which the high one follows, and the
field of that which carries the high bits (R412). -/
def pairOf (u : Unit) : List (Nat × Fld) :=
  match u.blk with
  | .root => [(Reg.IMAGE_ID_LO.off, Reg.IMAGE_ID_HI.ID_HI)]
  | .keeper => [(Reg.SYNC_VALUE_LO.off, Reg.SYNC_VALUE_HI.VALUE_HI)]
  | .config => [(Reg.PSW_TARGET_LO.off, Reg.PSW_TARGET_HI.CROSS_HI), (Reg.STAGE_SRC_LO.off, Reg.STAGE_SRC_HI.ADDR_HI)]
  | .ring => [(Reg.RQ_BASE_LO.off, Reg.RQ_BASE_HI.ADDR_HI)]
  | .mover => [(Reg.MV_DESC_LO.off, Reg.MV_DESC_HI.ADDR_HI)]
  | .crypto => (List.range 16).map fun i => (Reg.REG_LBN_LO.off + 16 * i, Reg.REG_LBN_HI.LBN_HI.shift (16 * i))
  | _ => []

/-- Where the capture of a pair is held, by the address of its low register and the path. -/
def pairKey (lo path : Nat) : Nat := 32 + lo * 8 + path

/-- What a register reads: its value, or what follows from other state. -/
def Dev.shown (d : Dev) (u : Unit) (off : Nat) : Word := (d.derived u off).getD (d.reg (u.base + off))

/-- A read of one half of a pair (R412): the low half captures the high one for the path, and the high half answers that capture; before
any, what stands (log entry 119). -/
def Dev.pairRead (d : Dev) (path : Nat) (u : Unit) (off : Nat) (w : Word) : Dev × Word :=
  match (pairOf u).find? fun p => p.1 == off || p.2.off == off with
  | none => (d, w)
  | some (lo, hi) =>
    let key := pairKey (u.base + lo) path
    if off = lo then (d.modCtl fun c => { c with capture := c.capture.put key (fget (d.shown u hi.off) hi) }, w)
    else (d, fset w hi (d.ctl.capture.at key (fget w hi)))

/-- A read of a register: RC fields are cleared, W1P bits read 0, wide values are captured by path (R6, R7, R39, R412). USER3 and
USER4 of a shell show what the fabric drives (R80). -/
def Dev.readReg (d : Dev) (path addr : Nat) : Dev × Nat × Word :=
  if logAddr addr then (d, stOk, d.logWord addr)
  else match unitAt addr with
    | none => (d, stOk, 0)
    | some u =>
      let off := addr - u.base
      let kids := if u.blk = .shell then 0x40 else u.tableOffset
      match u.rowAt off with
      | none =>
        if d.isGalley u.base ∧ kids ≤ off then (d, stOk, (((d.children u.base)[(off - kids) / 4]?).map childWord).getD 0)
        else (d, stOk, 0)
      | some r =>
        if u.blk = .keeper ∧ off = Reg.CROSS_NOW_LO.NOW_LO.off then d.readLo path capNow d.now
        else if u.blk = .keeper ∧ off = Reg.CROSS_NOW_HI.NOW_HI.off then (d, stOk, d.readHi path capNow)
        else if u.blk = .keeper ∧ off = Reg.LAST_BREACH_LO.CROSS_LO.off then d.readLo path capBreach d.keeper.lastBreach
        else if u.blk = .keeper ∧ off = Reg.LAST_BREACH_HI.CROSS_HI.off then (d, stOk, d.readHi path capBreach)
        else if u.blk = .clkgen ∧ off = Reg.REG_CYC_LO.CYC.off then d.readLo path capReg d.clk.regCyc.toNat
        else if u.blk = .clkgen ∧ off = Reg.REG_CYC_HI.CYC.off then (d, stOk, d.readHi path capReg)
        else if u.blk = .clkgen ∧ off = Reg.TRUNK_CYC_LO.CYC.off then d.readLo path capTrunk d.clk.trunkCyc.toNat
        else if u.blk = .clkgen ∧ off = Reg.TRUNK_CYC_HI.CYC.off then (d, stOk, d.readHi path capTrunk)
        else if u.blk = .serial ∧ off = Reg.SER_RX.off then let (d, w) := d.serRx u.idx; (d, stOk, w)
        else if u.blk = .shell ∧ 0x38 ≤ off then (d, stOk, BitVec.ofNat 32 (d.userWord u.base off))
        else
          let p := BitVec.ofNat 32 ((d.presented u off).getD 0)
          let (d, w) := d.pairRead path u off (d.shown u off)
          let d := if r.rc = 0 then d else d.setReg addr (d.reg addr &&& ~~~BitVec.ofNat 32 r.rc)
          (d, stOk, w &&& ~~~BitVec.ofNat 32 r.w1p &&& p)

/-! ## Indirect windows (R84) -/

/-- The address that a set holds. -/
def Dev.winAddr (d : Dev) (win path : Nat) : Nat :=
  let b := winSet win path
  (d.reg b).toNat + if win = winDebug then (d.reg (b + 0xC)).toNat * 2 ^ 32 else 0

/-- A number with `k` added within bits [lo + n - 1 : lo]. -/
def fieldAdd (a lo n k : Nat) : Nat := a - bitsOf a lo n * 2 ^ lo + (bitsOf a lo n + k) % 2 ^ n * 2 ^ lo

/-- WIN_ADDR after a WIN_DATA access under INC. -/
def winNext (win a : Nat) : Nat :=
  if win = winDir then if bitOf a 23 then fieldAdd a 0 17 1 else fieldAdd a 0 21 1
  else if win = winTree then fieldAdd a 0 14 1
  else if win = winTest then fieldAdd a 2 28 1
  else (a + 4) % 2 ^ 56

/-- A WIN_DATA access has been performed, with the STAT it leaves. -/
def Dev.winDone (d : Dev) (win path : Nat) (stat : Option Nat) : Dev :=
  let b := winSet win path
  let ctrl := (d.reg (b + 8)).toNat
  let d := match stat with
    | some s => d.setReg (b + 8) (BitVec.ofNat 32 (ctrl % 2 + s * 2))
    | none => d
  if ctrl % 2 = 1 then
    let a := winNext win (d.winAddr win path)
    let d := d.setReg b (BitVec.ofNat 32 a)
    if win = winDebug then d.setReg (b + 0xC) (BitVec.ofNat 32 (a / 2 ^ 32)) else d
  else d

/-! ### The ring directory (R261) -/

/-- A descriptor's bits (R260). -/
def Desc.bits (x : Desc) : Nat :=
  let st := match x.state with | .closed => 0 | .opened => 1 | .dead => 2
  x.base % 2 ^ 56 + x.logCap % 32 * 2 ^ 56 + st * 2 ^ 61 + bit01 x.premValid * 2 ^ 63 + x.wr % 2 ^ 32 * 2 ^ 64 +
    x.age % 2 ^ 32 * 2 ^ 96 + x.ckWr % 2 ^ 32 * 2 ^ 128 + x.ckCross % 2 ^ 48 * 2 ^ 160 + x.premLast % 2 ^ 48 * 2 ^ 208

/-- The directory at an address. -/
def Dev.dirRead (d : Dev) (a : Nat) : Word :=
  if bitOf a 23 then d.rings.chanMap.at (bitsOf a 0 17) 0
  else BitVec.ofNat 32 ((d.desc (bitsOf a 3 18)).bits / 2 ^ (32 * (a % 8)))

/-- Words 0 and 1 of a CLOSED ring's descriptor are stored, but for STATE and PREM_VALID; a channel map entry keeps RING and VALID
(R265). -/
def Dev.dirWrite (d : Dev) (a : Nat) (w : Word) : Dev :=
  if bitOf a 23 then
    d.modRings fun r => { r with chanMap := r.chanMap.set (bitsOf a 0 17) 0 (w &&& 0x8003FFFF) }
  else
    let r := bitsOf a 3 18
    let x := d.desc r
    if x.state = .closed ∧ a % 8 = 0 then d.setDesc r { x with base := x.base / 2 ^ 32 * 2 ^ 32 + w.toNat }
    else if x.state = .closed ∧ a % 8 = 1 then
      d.setDesc r { x with base := x.base % 2 ^ 32 + bitsOf w.toNat 0 24 * 2 ^ 32, logCap := bitsOf w.toNat 24 5 }
    else d.raise (ringBase (ringEngine r)) Reg.ENG_EVENT.DIR_REJECT

/-! ### The tally tree (R288) -/

/-- The word of a node. A level above 5 names none. -/
def Dev.treeWord (d : Dev) (a : Nat) (rebuilt : Bool) : Word :=
  let level := bitsOf a 16 3
  let node := bitsOf a 0 14
  let word (x : Nat × Bool × Bool) : Word := BitVec.ofNat 32 (x.1 + bit01 x.2.1 * 2 ^ 30 + bit01 x.2.2 * 2 ^ 31)
  if level ≤ 4 then word (d.treeNode (bitsOf a 19 4) level node rebuilt)
  else if level = 5 ∧ node = 0 then
    word ((List.range 16).foldl (fun (s : Nat × Bool × Bool) e =>
      let t := d.treeNode e 4 0 rebuilt
      (min 0x3FFFFFFF (s.1 + t.1), s.2.1 || t.2.1, s.2.2 || t.2.2)) (0, false, false))
  else 0

/-! ### Test access of the memory die (R256) -/

/-- The access was not performed. -/
def notDone (st : Nat) : Bool := st == memRefused || st == memParity

/-- The check bits of a row word are written raw. -/
def Dev.checkWrite (d : Dev) (x : BaseTo) (data : Word) : Dev × Nat × Word :=
  if d.toBarred x then (d, memRefused, 0)
  else
    let c := wordColumn x.word
    let (d, f) := d.nextMeet x
    if 2 ≤ f.parity then (d.noteMeet c f false, memParity, 0)
    else
      let d := (d.wearTo x f.upsets).noteMeet c f false
      let diff := Config.checkBits (d.wordData x.place) ^^^ BitVec.ofNat 10 data.toNat
      let err := (diff ++ ((d.mem.err.at x.place 0).truncate 256 : RowWord) : BitVec 266)
      (d.modMem fun m => { m with err := m.err.set x.place 0 err, corr := m.corr.del x.place }, memOk, 0)

/-- One access over the base port: its status and the word read. A write with CHECK at 0 is a read-modify-write under R248. -/
def Dev.testAccess (d : Dev) (a : Nat) (write : Bool) (data : Word) : Dev × Nat × Word :=
  let w := bitsOf a 5 25
  let part := bitsOf a 2 3
  let place := if bitOf a 31 then reliefWord (groupOf (wordColumn w)) (wordRow w) (w % 8) else d.physWord w
  let x : BaseTo := { word := w, place := place, relief := bitOf a 31, user := .test, src := srcTest }
  if write && bitOf a 30 then d.checkWrite x data
  else if write then
    let (d, st) := d.writeTo x (0xF * 2 ^ (4 * part)) (BitVec.ofNat 256 (data.toNat * 2 ^ (32 * part)))
    (d, st, 0)
  else
    let via := viaBits (d.nextMeet x).2.vias 0
    let (d, st, v) := d.readTo x
    if notDone st then (d, st, 0)
    else if bitOf a 30 then
      (d, st, BitVec.ofNat 32 (Config.checkBits (d.wordData place) ^^^ (d.mem.err.at place 0 ^^^ via).extractLsb' 256 10).toNat)
    else (d, st, v.extractLsb' (32 * part) 32)

/-! ### Accesses of a set -/

/-- WIN_DATA of the directory, the tree and the test window. -/
def Dev.winData (d : Dev) (win path : Nat) (write : Bool) (data : Word) (m : AccessMeet) : Dev × Nat × Word :=
  let a := d.winAddr win path
  if win = winDir then
    if write then ((d.dirWrite a data).winDone win path none, stOk, 0) else (d.winDone win path none, stOk, d.dirRead a)
  else if win = winTree then (d.winDone win path none, stOk, d.treeWord a m.rebuilt)
  else
    let (x, st, w) := (d.portsIn [m.port]).testAccess a write data
    ((x.portsOut d.stack).winDone win path (some st), stOk, w)

/-- An access to a register of a path's own set, but for WIN_DATA of the debug window. -/
def Dev.winAccess (d : Dev) (path addr : Nat) (write : Bool) (data : Word) (m : AccessMeet) : Dev × Nat × Word :=
  let win := winOf addr
  let off := addr % 0x100
  if off = 4 then d.winData win path write data m
  else if write then
    let mask : Nat := if off = 0 then (if win = winDebug then 0xFFFFFFFC else 0xFFFFFFFF) else if off = 8 then 1 else 0xFFFFFF
    (d.setReg addr ((d.reg addr &&& ~~~BitVec.ofNat 32 mask) ||| (data &&& BitVec.ofNat 32 mask)), stOk, 0)
  else (d, stOk, d.reg addr)

/-! ## The arbiter and the paths -/

/-- The completion of a path is known to the lane of a management word. -/
def Dev.tellLane (d : Dev) (a : Access) : Dev :=
  match a.lane with
  | none => d
  | some n => let r := d.ctl.done.at a.path {}; d.mgmtWord n r.status r.data

/-- The data-space address of a debug window access. -/
def Dev.debugAddr (d : Dev) (path : Nat) : Nat := d.winAddr winDebug path

/-- A debug window access: refused as KEY, or issued, and its path waits (R85, R96). -/
def Dev.debugIssue (d : Dev) (a : Access) : Dev :=
  if dsKeyOf (d.debugAddr a.path) ≠ 0 then
    ((d.winDone winDebug a.path (some dsKey)).finish a.path stOk 0).tellLane a
  else d.modCtl fun c => { c with debugPend := c.debugPend.put a.path { a with since := d.tick } }

/-- An access that has been granted. -/
def Dev.access (d : Dev) (a : Access) (m : AccessMeet) : Dev :=
  let debug := winRegister a.path a.addr && a.addr == winDataAddr winDebug a.path
  let treeWrite := a.write && winRegister a.path a.addr && a.addr == winDataAddr winTree a.path
  if debug && d.admission a.path a.addr == stOk then d.debugIssue a
  else if treeWrite && d.admission a.path a.addr == stOk then ((d.accErr a.path a.addr).finish a.path stOk 0).tellLane a
  else
    (d.perform a.path a.addr fun d =>
      if winRegister a.path a.addr then d.winAccess a.path a.addr a.write a.data m
      else if a.write then let (d, st) := d.writeReg a.path a.addr a.data m; (d, st, 0)
      else d.readReg a.path a.addr).tellLane a

/-- It leaves the queue. -/
def Dev.popAccess (d : Dev) (path : Nat) : Dev :=
  d.modCtl fun c => { c with waiting := c.waiting.eraseP fun a => a.path == path }

def opCtrlGrant (m : AccessMeet) (d : Dev) : Dev :=
  match d.nextGrant with
  | none => d
  | some a => ((d.popAccess a.path).modCtl fun c => { c with lastPath := a.path }).access a m
def execCtrlGrant (meet : AccessMeet) (s : State) : Answer := onDev (opCtrlGrant meet) s

/-- An access that comes now: performed where it is granted now, and otherwise waiting (R90, R91). -/
def Dev.present (d : Dev) (a : Access) (m : AccessMeet) : Dev :=
  if d.grantedNow a.path a.addr then (d.modCtl fun c => { c with lastPath := a.path }).access a m
  else d.enqueue a

def opRegisterWrite (path : Fin 8) (addr value : Word) (m : AccessMeet) (d : Dev) : Dev :=
  d.present { path := path, write := true, addr := addr.toNat, data := value } m
def execRegisterWrite (path : Fin 8) (addr value : Word) (meet : AccessMeet) (s : State) : Answer :=
  onDev (opRegisterWrite path addr value meet) s

def opRcFieldRead (path : Fin 8) (addr : Word) (m : AccessMeet) (d : Dev) : Dev :=
  d.present { path := path, addr := addr.toNat } m
def execRcFieldRead (path : Fin 8) (addr : Word) (meet : AccessMeet) (s : State) : Answer := onDev (opRcFieldRead path addr meet) s

/-- 80 Ticks after an access was presented its target has not answered (R88). -/
def opAccessTimeout (path : Fin 8) (d : Dev) : Dev :=
  let late (a : Access) : Bool := decide (a.since + 80 ≤ d.tick)
  let ends (d : Dev) (a : Access) : Dev :=
    ((d.accErr path a.addr).complete path stTimeout 0).tellLane a
  match d.ctl.debugPend.look path with
  | some a => if late a then ends (d.modCtl fun c => { c with debugPend := c.debugPend.del path }) a else d
  | none =>
    match d.headOf path with
    | some a => if late a && !d.grantable path a.addr then ends (d.popAccess path) a else d
    | none => d
def execAccessTimeout (path : Fin 8) (s : State) : Answer := onDev (opAccessTimeout path) s

/-- A wake goes to power control where the domain of the area is off, and to the admission queue where the column's clocks are
gated (R413, R425, R436). CLKGEN and MGMT return by a reset alone (R427). -/
def opClockGateWake (unit : Nat) (d : Dev) : Dev :=
  let u := unitOf unit
  let domains := if u.blk = .shell then (d.user u.base).domains else u.domain.toList
  let off := domains.filter fun k => d.pd k == pdOff && decide (2 ≤ k)
  let d' := d.each off Dev.holdOn
  if u.blk = .column ∧ off = [] ∧ (u.layer = 2 ∨ u.layer = 4) ∧ d.logicOn (groupOf u.column) then d'.queueGroup (groupOf u.column) else d'
def execClockGateWake (unit : Nat) (s : State) : Answer := onDev (opClockGateWake unit) s

/-- A fabric master port takes a request while it holds fewer than 4 (R87). -/
def opFmReq (port : Fin 4) (write : Bool) (addr : BitVec 30) (data : Word) (d : Dev) : Dev :=
  let p := 2 + port.val
  let held := (d.ctl.waiting.filter fun a => a.path == p).length + bit01 (d.ctl.debugPend.has p)
  if !d.portLive (portTiles (quadrantGroup port)) portMaster then d
  else if held < 4 then d.enqueue { path := p, write := write, addr := 4 * addr.toNat, data := data } else d
def execFmReq (port : Fin 4) (write : Bool) (addr : BitVec 30) (data : Word) (s : State) : Answer :=
  onDev (opFmReq port write addr data) s

/-! ## The windows' own commands -/

def opDirWinAccess (path : Fin 8) (write : Bool) (data : Word) (d : Dev) : Dev :=
  d.present { path := path, write := write, addr := winDataAddr winDir path, data := data } {}
def execDirWinAccess (path : Fin 8) (write : Bool) (data : Word) (s : State) : Answer := onDev (opDirWinAccess path write data) s

def opTreeWinRead (path : Fin 8) (rebuilt : Bool) (d : Dev) : Dev :=
  d.present { path := path, addr := winDataAddr winTree path } { rebuilt := rebuilt }
def execTreeWinRead (path : Fin 8) (rebuilt : Bool) (s : State) : Answer := onDev (opTreeWinRead path rebuilt) s

def opTestWinAccess (path : Fin 8) (write : Bool) (data : Word) (port : PortFound) (d : Dev) : Dev :=
  d.present { path := path, write := write, addr := winDataAddr winTest path, data := data } { port := port }
def execTestWinAccess (path : Fin 8) (write : Bool) (data : Word) (port : PortFound) (s : State) : Answer :=
  onDev (opTestWinAccess path write data port) s

def opDebugWinAccess (path : Fin 8) (write : Bool) (data : Word) (d : Dev) : Dev :=
  d.present { path := path, write := write, addr := winDataAddr winDebug path, data := data } {}
def execDebugWinAccess (path : Fin 8) (write : Bool) (data : Word) (s : State) : Answer := onDev (opDebugWinAccess path write data) s

/-- The completion of a path's debug window access: STAT, and the access ends OK whatever it is (R85). -/
def opDebugWinDone (path : Fin 8) (found : Found) (d : Dev) : Dev :=
  match d.ctl.debugPend.look path with
  | none => d
  | some a =>
    let d := d.modCtl fun c => { c with debugPend := c.debugPend.del path }
    let addr := d.debugAddr path
    let place := addr % 64
    let mask := 0xF * 2 ^ place
    d.withPorts found.ports fun d =>
    let (d, st, w) : Dev × Nat × Word :=
      if a.write then
        let (d, st) := d.dsWrite clsDebug addr mask false (BitVec.ofNat 512 (a.data.toNat * 2 ^ (8 * place))) found
        (d, st, 0)
      else
        let (d, st, l) := d.dsRead clsDebug addr mask found
        (d, st, if dsDone st then l.extractLsb' (8 * place) 32 else 0)
    ((d.winDone winDebug path (some st)).complete path stOk w).tellLane a
def execDebugWinDone (path : Fin 8) (found : Found) (s : State) : Answer := onDev (opDebugWinDone path found) s

/-! ## Repeated EVENT messages (R93) -/

def opEventRepeat (d : Dev) : Dev :=
  let every := d.fld rootBase Reg.IRQ_CTRL.EVT_REPEAT * 64
  if d.ctl.rootRaised && d.flag rootBase Reg.IRQ_CTRL.EVT_EN && every != 0 && decide (d.ctl.eventTick + every ≤ d.tick) then
    d.sendEvent.modCtl fun c => { c with eventTick := d.tick }
  else d
def execEventRepeat (s : State) : Answer := onDev opEventRepeat s

end Sys2Proof.Machine
end

