-- ==== Sys2Proof/Machine/Finish.lean ====
section
/-!
DEFINITION. The end of an image: END and the signature (R359, R360, R362), the checks that need the whole image (R355, R356, R358),
what a load applies and undoes (R351 to R354, R363, R388), and what a verified image brings (R344, R369, R382, R384, R385).
-/
namespace Sys2Proof.Machine

/-! ## The units of the forme with the image in it -/

/-- The units of the forme once the image is verified: those declared, or for a partial image the released ones with the galley
replaced. -/
def Dev.mergedDecls (d : Dev) (img : Image) : List Decl :=
  if !partialImage img.colophon then img.decls
  else
    match d.load.released, img.decls with
    | some r, g :: inner =>
      let gone := subtree r.decls g.base
      let parent := ((declOf r g.base).getD {}).parent
      r.decls.flatMap fun u =>
        if u.base = g.base then { g with parent := parent } :: inner else if gone.contains u.base then [] else [u]
    | _, _ => img.decls

/-- The LATENCY of the forme: a partial image carries none, and that of the released image stays. -/
def Dev.latencyOf (d : Dev) (img : Image) : Option (Nat × LatencyDecl) :=
  if partialImage img.colophon then d.load.released.bind (·.latency) else img.latency

/-- The hot columns of each die; none where the image names none (R341, R355). -/
def Dev.hotColumns (d : Dev) (img : Image) : List Nat × List Nat :=
  ((if partialImage img.colophon then d.load.released.bind (·.thermal) else img.thermal).getD ([], []))

/-- The columns of a unit in a die: 0 L2, 1 L4. -/
def Decl.occ (u : Decl) (die : Nat) : List Nat := if die = 0 then u.occL2 else u.occL4

/-! ## The checks that need the whole image (R362, step 5) -/

/-- The columns of a unit in a die; those of the forme are its children's (R344). -/
def unitColumns (decls : List Decl) (u : Decl) (die : Nat) : List Nat :=
  if u.base = formeBase then (List.range 256).filter fun c => decls.any fun v => v.parent == formeBase && (v.occ die).contains c
  else u.occ die

/-- A hot galley with logic outside the hot columns. -/
def coldGalley (hot : List Nat × List Nat) (decls : List Decl) : Option Decl :=
  decls.find? fun u => u.thermal && !((unitColumns decls u 0).all hot.1.contains && (unitColumns decls u 1).all hot.2.contains)

/-- A record of INIT values of the forme that names a column outside the forme's: its INDEX (R349). -/
def formeInitBad (img : Image) : Option Nat :=
  (img.formeInit.find? fun e => !(unitColumns img.decls { base := formeBase } e.2.1).contains e.2.2).map (·.1)

/-- The decision galleys of a list of identifiers. -/
def decisionUnits (decls : List Decl) (l : LatencyDecl) : List Decl := decls.filter fun u => l.galleys.contains u.galleyId

/-- The list names every galley with DECISION set, and only those, each once; and each source lies in one of them (R358). -/
def galleysOk (decls : List Decl) (l : LatencyDecl) (b : Bool) : Bool :=
  let named := decisionUnits decls l
  let held (die col : Nat) := named.any fun u => (u.occ die).contains col
  (decls.all fun u => u.decision == l.galleys.contains u.galleyId) &&
  decide (l.galleys.Nodup) && decide (named.length = l.galleys.length) &&
  held l.aDie l.aCol && (!b || held l.bDie l.bCol)

/-- The checks of step 5 but for the ratio: the cause and the INDEX of the failing record, or cause 0. `last` is the INDEX of
END. -/
def Dev.wholeCause (d : Dev) (img : Image) (last : Nat) : Nat × Nat :=
  let decls := d.mergedDecls img
  match formeInitBad img with
  | some i => (ldPlacement, i)
  | none =>
  match coldGalley (d.hotColumns img) img.decls with
  | some u => (ldThermal, u.index)
  | none =>
    match d.latencyOf img with
    | none => (ldLatency, last)
    | some (i, l) =>
      if !galleysOk decls l (latencyB img l) then (ldLatency, if partialImage img.colophon then last else i)
      else
        match img.plates.find? fun p => !(img.drives.contains p.plate || d.plates.driveMaps.has p.plate) with
        | some p => (ldDriveMap, p.index)
        | none => (0, 0)

/-- The keeper is set to the ratio of the image (R357, R358). A REAPPLY and a partial image leave it. -/
def Dev.imageRatio (d : Dev) (img : Image) : Dev :=
  match img.latency with
  | some (_, l) => if d.load.mode = .reapply then d else d.askRatio l.n l.xbMul
  | none => d

/-- The ratio that an image needs is refused. -/
def Dev.ratioRefused (d : Dev) (img : Image) : Bool :=
  img.latency.isSome && d.load.mode != .reapply && d.flag keeperBase Reg.KEEP_STATUS.RATIO_ERR

/-! ## Settings, rings and preloads (R351 to R354, R363, R388) -/

/-- What is applied after step 5, in record order. -/
abbrev Act := Settings ⊕ RingSection ⊕ Preload

/-- Keeps a list of records in the order of their INDEX; equal ones stay in the order they come. -/
def putAct (e : Nat × Act) : List (Nat × Act) → List (Nat × Act)
  | [] => [e]
  | x :: t => if e.1 < x.1 then e :: x :: t else x :: putAct e t

/-- The records that an image applies. -/
def Image.acts (img : Image) : List (Nat × Act) :=
  let s := img.settings.map fun s => (s.index, (.inl s : Act))
  let r := img.rings.map fun x => (x.1, (.inr (.inl x.2) : Act))
  let p := img.preloads.map fun x => (x.1, (.inr (.inr x.2) : Act))
  (s ++ r ++ p).foldl (fun l e => putAct e l) []

/-- A load as it applies its records, with what a rejection takes back. -/
structure Applied where
  dev   : Dev := {}
  regs  : List Nat := []
  vers  : List Nat := []
  rings : List Nat := []
  banks : List Nat := []
  /-- The cause and INDEX of the failing record. -/
  fail  : Option (Nat × Nat) := none
deriving Inhabited

/-- A load that goes on: nothing has failed, and no record has ended it. -/
def Applied.goes (x : Applied) : Bool := x.fail.isNone && x.dev.load.mode != .idle

/-- A value is written to a register of a unit (R351): one of a unit in OFF is turned away (R65), and one that the presented
version lacks is as a reserved field (R8, R352). -/
def Dev.settingWrite (d : Dev) (b off : Nat) (w : Word) (m : AccessMeet) : Dev :=
  if (unitOf b).blk = .shell then (if d.powered b then d.storeRw (b + off) w else d)
  else if d.turnedAway (b + off) then d
  else if !laidOut (unitOf b) (d.fld b Reg.UNIT_VER.MAJOR) off then d
  else d.effectWrite pathKryup (unitOf b) off w m

/-- A unit presents the major that its record requires, with the write of VERSION_SEL that R352 names. -/
def Applied.present (x : Applied) (s : Settings) : Applied :=
  let d := x.dev.versionWrite s.base (fset 0 Reg.VERSION_SEL.SEL_MAJOR s.major)
  let x := { x with dev := d, vers := if x.dev.atRest s.base then s.base :: x.vers else x.vers }
  if d.fld s.base Reg.UNIT_VER.MAJOR = s.major then x else { x with fail := some (ldUnitVersion, s.index) }

/-- A UNIT_SETTINGS record. -/
def Applied.settings (x : Applied) (m : AccessMeet) (s : Settings) : Applied :=
  let x := x.present s
  s.pairs.foldl (fun x p =>
    if x.goes then { x with dev := x.dev.settingWrite s.base p.1 p.2 m, regs := (s.base + p.1) :: x.regs } else x) x

/-- A write over the ring directory, which takes none while the RINGS domain is off. -/
def Dev.ringDirWrite (d : Dev) (a : Nat) (w : Word) : Dev := if d.domainOn 6 then d.dirWrite a w else d

/-- A ring of a RING_MAP record: its descriptor is written and OPEN is issued, whose result RING_CMD_STATUS shows (R262). -/
def Applied.ring (x : Applied) (index : Nat) (e : Nat × Nat × Nat) : Applied :=
  if !x.goes then x
  else
    let n := ringEngine e.1
    let d := (x.dev.ringDirWrite (e.1 * 8) (BitVec.ofNat 32 e.2.1)).ringDirWrite (e.1 * 8 + 1) (BitVec.ofNat 32 e.2.2)
    if d.ust (ringBase n) = .off then { x with dev := d, fail := some (ldRingMap, index) }
    else
      let d := d.ringGo n 0 (ringLocal e.1)
      if d.fld (ringBase n) Reg.RING_CMD_STATUS.STATUS = 0 then { x with dev := d, rings := e.1 :: x.rings }
      else { x with dev := d, fail := some (ldRingMap, index) }

/-- A section of a RING_MAP record. -/
def Applied.ringSection (x : Applied) (index : Nat) : RingSection → Applied
  | .rings l => l.foldl (fun x e => x.ring index e) x
  | .chanMap first es =>
    { x with dev := x.dev.each es.zipIdx fun d e => d.ringDirWrite (2 ^ 23 + first + e.2) e.1 }
  | .other => x

/-- A section of a MEMORY_PRELOAD record, over the base ports. -/
def Applied.preload (x : Applied) (index : Nat) (p : Preload) : Applied :=
  p.data.zipIdx.foldl (fun x e =>
    if !x.goes then x
    else
      let w := p.addr / 32 + e.2
      let (d, st) := x.dev.writeTo { x.dev.toWord .master w with exempt := true } fullMask e.1
      let k := wordBank (x.dev.physWord w)
      let x := { x with dev := d, banks := if x.banks.contains k then x.banks else k :: x.banks }
      if st = memRefused ∨ st = memParity then { x with fail := some (ldPreload, index) } else x) x

/-- A unit of the base die (R388, R460). -/
def isBaseUnit (b : Nat) : Bool :=
  let u := unitOf b
  match u.blk with
  | .column => u.layer == 0
  | .layer => u.idx == 0
  | .shell => false
  | _ => true

/-- A REAPPLY takes only settings of B0 units and RING_MAP records (R388). -/
def reapplied : Act → Bool
  | .inl s => isBaseUnit s.base
  | .inr (.inl _) => true
  | .inr (.inr _) => false

def Applied.act (x : Applied) (m : AccessMeet) (e : Nat × Act) : Applied :=
  if !x.goes then x
  else match e.2 with
    | .inl s => x.settings m s
    | .inr (.inl r) => x.ringSection e.1 r
    | .inr (.inr p) => x.preload e.1 p

/-- The records of an image are applied. -/
def Dev.applyImage (d : Dev) (img : Image) (m : AccessMeet) : Applied :=
  let acts := if d.load.mode = .reapply then img.acts.filter fun e => reapplied e.2 else img.acts
  acts.foldl (fun x e => x.act m e) { dev := d }

/-- What was applied is taken back (R363): registers at their reset values, native versions, rings closed, preloaded banks 0. -/
def Applied.undo (x : Applied) : Dev :=
  let d := x.dev.each x.banks Dev.zeroBank
  let d := d.each x.rings fun d r => d.closeRing (ringEngine r) (ringLocal r)
  let d := d.each x.regs fun d a => d.setReg a (resetValue a)
  d.each x.vers fun d b =>
    let v := b + Reg.VERSION_SEL.SEL_MAJOR.off
    let n := b + Reg.UNIT_VER.MAJOR.off
    (d.setReg v (resetValue v)).setReg n (resetValue n)

/-! ## A verified image (R344, R350, R363, R369, R382, R384, R385) -/

/-- The child table of a unit, in record order; WITH_PREV is 0 in its first entry (R64, R343). -/
def tableOf (decls : List Decl) (b : Nat) : List (Bool × Nat) :=
  match (decls.filter fun u => u.parent == b).map fun u => (u.withPrev, u.base) with
  | [] => []
  | (_, c) :: t => (false, c) :: t

/-- UNIT_ID of a user unit (R63, R79). -/
def userUnitId (u : Decl) : Nat := (if u.sort then 0x04F00002 else 0x03F00003) + (u.base - 0x900000) / 0x1000 * 16

/-- A unit takes its place in the tree, in HELD. A start that has waited for the image goes on to a staged release where the
main path is past (R382). -/
def Dev.declare (d : Dev) (decls : List Decl) (u : Decl) : Dev :=
  let kids := tableOf decls u.base
  let shell := u.base != formeBase
  let waits := d.load.opened && d.runMode && decide (d.ust u.base = .starting)
  let r : UserUnit :=
    { unitId := if shell then userUnitId u else 0, caps := u.userKind * 2 ^ 16, childTable := kids, initPresent := u.initPresent
      occL2 := unitColumns decls u 0, occL4 := unitColumns decls u 1, rel := .held
      relTarget := if waits then some (crossAdd d.now d.lead) else none }
  let d := d.modUnits fun x => { x with user := x.user.put u.base r }
  let d := if shell then
      (d.setReg (u.base + Reg.UNIT_ID.KIND.off) (BitVec.ofNat 32 r.unitId)).setReg (u.base + Reg.UNIT_CAPS.SPECIFIC.off)
        (BitVec.ofNat 32 r.caps)
    else d
  let table := if !shell || !u.sort then 0x40 else 0
  let d := d.setReg (u.base + Reg.CHILD_INFO.COUNT.off) (BitVec.ofNat 32 (kids.length % 2 ^ 16 * 2 ^ 16 + table))
  let d := if shell then d.loadInit u.base else d
  let d := if shell && d.powered u.base then d.unitOn u.base else d
  let st := d.shellCauses u.base
  if st = 0 ∨ d.ust u.base = .off ∨ d.ust u.base = .faulted then d else d.fatal u.base st

/-- Shells that the image no longer declares read as shells without a unit. -/
def Dev.undeclare (d : Dev) (decls : List Decl) : Dev :=
  let gone := d.units.user.keys.filter fun b => b != formeBase && !decls.any fun u => u.base == b
  let d := d.each gone fun d b => d.resetRegs fun a => decide (b ≤ a ∧ a < b + 0x1000)
  d.modUnits fun x => { x with user := x.user.keep fun b => !gone.contains b }

/-- The units of the image stand in the tree: all of them, or those of a partial image. -/
def Dev.declareAll (d : Dev) (decls fresh : List Decl) : Dev :=
  let d := d.undeclare decls
  let d := d.each (decls.filter fun u => fresh.any fun v => v.base == u.base) fun d u => d.declare decls u
  d.each decls.reverse fun d u => d.refresh d.depth u.base

/-- The sources, the decision galleys and the hot columns that the port, the Damper and the governor use (R54, R56, R292, R355). -/
def Dev.takeDecisions (d : Dev) (img : Image) (decls : List Decl) : Dev :=
  match d.latencyOf img with
  | none => d
  | some (_, l) =>
    let named := decisionUnits decls l
    let b := latencyB img l
    let home (die col : Nat) := ((named.find? fun u => (u.occ die).contains col).map (·.base)).getD 0
    let cols := (List.range 256).filter fun c => named.any fun u => u.occL2.contains c || u.occL4.contains c
    let src := (if b then l.bCol % 256 * 2 ^ 16 + l.bDie % 2 * 2 ^ 24 + 2 ^ 25 else 0) + l.aCol % 256 + l.aDie % 2 * 2 ^ 8 + 2 ^ 9
    let d := d.setReg (strikeBase + Reg.STK_SRC.off) (BitVec.ofNat 32 src)
    let d := d.modStrike fun s =>
      { s with galleyA := home l.aDie l.aCol, galleyB := if b then home l.bDie l.bCol else 0, galleys := named.map (·.base)
               columns := cols, groups := (cols.map groupOf).eraseDups }
    let hot := d.hotColumns img
    d.modHeat fun h => { h with hotMap := (hot.1 ++ hot.2.map (256 + ·)).foldl (fun m k => m.put k 1) {} }

/-- The image is kept: a full one waits for its release, a partial one becomes part of the released forme. -/
def Dev.keepImage (d : Dev) (img : Image) (decls : List Decl) : Dev :=
  if !partialImage img.colophon then d.modLoad fun l => { l with verified := some img }
  else
    let root := (img.decls.headD {}).base
    let slot := d.residentSlot img.colophon
    let gone := d.replaced root
    let switches := (img.plates.filter (·.resident)).flatMap fun p => p.groups.map fun g => (g, slot)
    d.modLoad fun l =>
      { l with released := l.released.map fun r =>
                 { r with decls := decls, drives := r.drives ++ img.drives, initUsed := (r.initUsed.filter fun e => !gone.contains e.1) ++ img.initUsed }
               partPlates := l.partPlates.put root switches }

/-- The loader shows that the load verified, and the boot entry that yielded it. -/
def Dev.showVerified (d : Dev) : Dev :=
  let d := (d.ldState ldVerified).raise rootBase Reg.LD_EVENT.LOADED
  if d.load.trying.isSome then d.setFld rootBase Reg.BOOT_INFO.ENTRY (d.load.entry - 1) else d

/-- The image has verified and its records are applied. -/
def Dev.imageVerified (d : Dev) (img : Image) : Dev :=
  if d.load.mode = .reapply then ((d.ldState ldReleased).raise rootBase Reg.LD_EVENT.LOADED).closeLoad
  else
    let decls := d.mergedDecls img
    let d := d.takeDecisions img decls
    let d := (d.keepImage img decls).declareAll decls img.decls
    let d := match img.pins with
      | some l => d.applyPins l
      | none => d
    (d.showVerified.closeLoad.enterIdle).takeRequest

/-- Step 5 and what follows it; `last` is the INDEX of END. -/
def Dev.finishLoad (d : Dev) (last : Nat) (m : AccessMeet) : Dev :=
  match d.load.image with
  | none => d
  | some img =>
    let (cause, index) := d.wholeCause img last
    if cause ≠ 0 then d.imageReject cause index
    else
      let d := d.imageRatio img
      if d.ratioRefused img then d.imageReject ldLatency ((img.latency.map (·.1)).getD last)
      else
        d.withPorts m.ports fun d =>
          let x := d.applyImage img m
          if x.dev.load.mode = .idle then x.undo
          else match x.fail with
            | some (c, i) => x.undo.imageReject c i
            | none => x.dev.imageVerified img

/-! ## END and the signature (R359, R360, R362) -/

/-- The check of END once the signature has verified, or none is needed: the count, the indices, the length and the digest. Answers the
cause and the INDEX. -/
def Dev.endCause (d : Dev) (img : Image) : Nat × Nat :=
  let last := d.load.index - 1
  if d.load.badIndex.isSome ∨ img.colophon.recordCount ≠ d.load.index ∨ img.colophon.imageLen ≠ 4 * (colophonWords + d.load.body.length) then
    (ldCount, d.load.badIndex.getD last)
  else if img.colophon.digest ≠ bigNum (sha384 (wordBytes d.load.body)) then (ldDigest, last)
  else (0, last)

/-- Steps 4 and 5 of R362. -/
def Dev.endLoad (d : Dev) (m : AccessMeet) : Dev :=
  match d.load.image with
  | none => d
  | some img =>
    let (cause, index) := d.endCause img
    if cause ≠ 0 then d.imageReject cause index else d.finishLoad index m

/-- END. A signed image that a stream brings waits for its signature block, which follows (R338, R362). -/
def opEndRecord (flash : List Word) (m : AccessMeet) (d : Dev) : Dev :=
  let place (h : RecHead) (_ : Image) := firstCause [(d.load.index == 0, ldPlacement), (d.loadDepth != 0, ldNesting), (h.unit != 0, ldUnit)]
  d.onRecord flash 0x7F place 0 (fun _ _ _ => 0) fun _ _ _ d =>
    let d := d.modLoad fun l => { l with ended := true }
    if d.load.signed then d.endLoad m else d
def execEndRecord (flash : List Word) (meet : AccessMeet) (s : State) : Answer := onDev (opEndRecord flash meet) s

/-- The signature block of a signed image (R359): the key must be one that Kryup holds the hash of, at an index not revoked, and the
signature must verify over the colophon. A stream brings it after END, SPI0 gives it first (R362). -/
def opSignature (flash : List Word) (m : AccessMeet) (d : Dev) : Dev :=
  match d.load.image with
  | none => d
  | some img =>
    let ws := (d.imageWords flash).take blockWords
    if d.load.signed ∨ ws.length < blockWords ∨ (d.streaming && !d.load.ended) then d
    else
      let block := wordBytes ws
      let d := d.takeWords blockWords
      if !d.keyHeld img.colophon.signer block then d.imageReject ldSigner noIndex
      else if !blockSigns block (wordBytes d.load.head) then d.imageReject ldSignature noIndex
      else
        let d := d.modLoad fun l => { l with signed := true }
        if d.load.ended then d.endLoad m else d
def execSignature (flash : List Word) (meet : AccessMeet) (s : State) : Answer := onDev (opSignature flash meet) s

end Sys2Proof.Machine
end

