-- ==== Sys2Proof/Machine/UnitCmds.lean ====
section
/-!
DEFINITION. The commands on units: writes of CTRL and VERSION_SEL, the events of the state table and the fabric's signals to
UCB shells ("Units, Sorts and Galleys").
-/
namespace Sys2Proof.Machine

/-- The address of a unit's CTRL. -/
def ctrlAddr (b : Nat) : Nat := b + Reg.CTRL.ENABLE.off

/-- CTRL as stored, without RESET. -/
def Dev.ctrlWord (d : Dev) (b : Nat) : Word := d.reg (ctrlAddr b)

/-- A write of CTRL by a path; Kryup's and the monitors' is KW (R73, R416). -/
def Dev.ctrlBy (d : Dev) (path b : Nat) (w : Word) : Dev :=
  match (unitOf b).blk with
  | .kryup | .monitor => d.viaKw path (ctrlAddr b) w fun d => d.ctrlWrite b w
  | _ => d.viaWord path (ctrlAddr b) w fun d => d.ctrlWrite b w

/-- A write that sets ENABLE. -/
def opEnable (path : Fin 8) (unit : Nat) (d : Dev) : Dev :=
  d.ctrlBy path unit (fset (fset (d.ctrlWord unit) Reg.CTRL.ENABLE 1) Reg.CTRL.DRAIN_REQ 0)
def execUnitEnable (path : Fin 8) (unit : Nat) (s : State) : Answer := onDev (opEnable path unit) s

/-- A write that sets DRAIN_REQ, or clears ENABLE. -/
def opDrainReq (path : Fin 8) (unit : Nat) (req : Bool) (d : Dev) : Dev :=
  d.ctrlBy path unit (if req then fset (d.ctrlWord unit) Reg.CTRL.DRAIN_REQ 1 else fset (d.ctrlWord unit) Reg.CTRL.ENABLE 0)
def execDrainReq (path : Fin 8) (unit : Nat) (req : Bool) (s : State) : Answer := onDev (opDrainReq path unit req) s

/-- A write of RESET, with ENABLE as it carries. -/
def opUnitReset (path : Fin 8) (unit : Nat) (enable : Bool) (d : Dev) : Dev :=
  d.ctrlBy path unit
    (fset (fset (fset (d.ctrlWord unit) Reg.CTRL.RESET 1) Reg.CTRL.DRAIN_REQ 0) Reg.CTRL.ENABLE (bit01 enable))
def execUnitReset (path : Fin 8) (unit : Nat) (enable : Bool) (s : State) : Answer := onDev (opUnitReset path unit enable) s

/-- A write of the proof fields. -/
def opProofSet (path : Fin 8) (unit : Nat) (en : Bool) (depth : Fin 4) (d : Dev) : Dev :=
  d.ctrlBy path unit (fset (fset (d.ctrlWord unit) Reg.CTRL.PROOF_EN (bit01 en)) Reg.CTRL.PROOF_DEPTH depth)
def execProofSet (path : Fin 8) (unit : Nat) (en : Bool) (depth : Fin 4) (s : State) : Answer :=
  onDev (opProofSet path unit en depth) s

/-- A galley's sequencer lies in MGMT or, in a shell, stands still without it (R427). -/
def opGalleyStepAdvance (unit : Nat) (d : Dev) : Dev := if d.domainOn 1 then d.advance unit else d
def execGalleyStepAdvance (unit : Nat) (s : State) : Answer := onDev (opGalleyStepAdvance unit) s

/-- Kinds whose start completes by nothing but their own readiness; the others complete by an event of their own. An M1
column unit waits for the initialisation of its banks (R251); a lane or a controller becomes ready alone in its inner proof loops
(R495, R497). -/
def Dev.readyAlone (d : Dev) (b : Nat) : Bool :=
  let u := unitOf b
  match u.blk with
  | .hitLane | .trunkLane => d.proofDepth b == some 0 && d.groupLocked u.idx
  | .mc => (d.proofDepth b == some 1 || d.proofDepth b == some 2) && d.clk.mpllLock
  | .column => u.layer != 1 || d.flag b Reg.MEM_STATUS.INIT_DONE
  | .keeper | .monitor | .pdctl | .damper | .config | .gpio | .serial | .stctl | .crypto | .mover => true
  | _ => false

def opUnitReady (unit : Nat) (d : Dev) : Dev := if d.readyAlone unit then d.ready unit else d
def execUnitReady (unit : Nat) (s : State) : Answer := onDev (opUnitReady unit) s

/-- Work of a unit that is in flight (R76, R77). A galley is empty when its sequence ends, a user unit when its logic says
so. -/
def Dev.workLeft (d : Dev) (b : Nat) : Bool :=
  let u := unitOf b
  match u.blk with
  | .hitLane | .trunkLane =>
    !((d.lane u.idx).held == [] && (d.link u.idx).txQueue == [] && (d.link u.idx).mgmtWait == [] && (d.link u.idx).rxWait == [])
  | .ring =>
    let e := d.engine u.idx
    !(e.fifo == [] && e.accepts == [] && e.frags == [] && e.rqWait == [] && e.gap == .closed)
  | .mover => d.ext.chains.has u.idx
  | .mc | .crypto => d.reqsLeft b
  | .config => d.plates.dataCmd.isSome || !(d.plates.pending.items == []) || !(d.plates.reloads == [])
  | .serial => !((d.serialRec u.idx).tx == []) || (d.serialRec u.idx).busy
  | .shell => true
  | _ => d.isGalley b

def opUnitEmpty (unit : Nat) (d : Dev) : Dev :=
  if d.workLeft unit then d
  else
    match (unitOf unit).blk with
    | .mc => if d.ust unit = .draining then (d.loopLines (unitOf unit).idx true).empty unit else d
    | _ => d.empty unit
def execUnitEmpty (unit : Nat) (s : State) : Answer := onDev (opUnitEmpty unit) s

/-- LIMIT whole Ticks have passed in DRAINING (R76). -/
def opDrainLimitExpiry (unit : Nat) (d : Dev) : Dev :=
  let limit := d.fld unit Reg.DRAIN_LIMIT.LIMIT
  if limit ≠ 0 ∧ d.units.drainTick.num unit + limit ≤ d.tick then d.limitExpired unit else d
def execDrainLimitExpiry (unit : Nat) (s : State) : Answer := onDev (opDrainLimitExpiry unit) s

def opVersionSelWrite (path : Fin 8) (unit : Nat) (value : Word) (d : Dev) : Dev :=
  d.viaWord path (unit + Reg.VERSION_SEL.SEL_MINOR.off) value fun d => d.versionWrite unit value
def execVersionSelWrite (path : Fin 8) (unit : Nat) (value : Word) (s : State) : Answer :=
  onDev (opVersionSelWrite path unit value) s

/-! ## Signals from the fabric to a shell (R79) -/

/-- The window is a shell that holds a declared unit. -/
def Dev.isUser (d : Dev) (b : Nat) : Bool := decide ((unitOf b).blk = .shell) && d.units.user.has b

/-- U_READY takes effect from the write-enable stage, and completes the start from the reset stage (R379). A user galley
becomes RUNNING by its sequence (R72). -/
def opUReady (unit : Nat) (d : Dev) : Dev :=
  if d.isUser unit && !d.isGalley unit then
    match (d.user unit).rel with
    | .released => d.ready unit
    | .writes => d.modUser unit fun u => { u with readySeen := true }
    | _ => d
  else d
def execUReady (unit : Nat) (s : State) : Answer := onDev (opUReady unit) s

def opUEmpty (unit : Nat) (d : Dev) : Dev := if d.isUser unit && !d.isGalley unit then d.empty unit else d
def execUEmpty (unit : Nat) (s : State) : Answer := onDev (opUEmpty unit) s

/-- Rising edges of U_FAULT: FAULT[15:8], of which bits [11:8] are fatal. -/
def opUFault (unit : Nat) (bits : BitVec 8) (d : Dev) : Dev :=
  if d.isUser unit && bits != 0 then
    let mask := bits.toNat * 2 ^ 8
    if bits.toNat % 16 = 0 then (if d.ust unit = .off then d else d.faultBits unit mask) else d.fatal unit mask
  else d
def execUFault (unit : Nat) (bits : BitVec 8) (s : State) : Answer := onDev (opUFault unit bits) s

/-- Rising edges of U_EVENT: EVENT[15:9]. -/
def opUEvent (unit : Nat) (bits : BitVec 7) (d : Dev) : Dev :=
  if d.isUser unit then d.eventBits unit (bits.toNat * 2 ^ 9) else d
def execUEvent (unit : Nat) (bits : BitVec 7) (s : State) : Answer := onDev (opUEvent unit bits) s

/-- U_LOSS as a level: a loss while it is 1. -/
def opULoss (unit : Nat) (level : Bool) (d : Dev) : Dev :=
  if d.isUser unit then
    if level then d.lose unit else d.modUnits fun r => { r with loss := r.loss.del unit }
  else d
def execULoss (unit : Nat) (level : Bool) (s : State) : Answer := onDev (opULoss unit level) s

end Sys2Proof.Machine
end

