-- ==== Sys2Proof/Machine/Dispatch.lean ====
section
/-!
DEFINITION. The dispatch of commands to their meanings: one arm for each command of the opcode table.
-/
namespace Sys2Proof.Machine

def exec (i : Instr) (s : State) : Host.Outcome State Fault Refusal :=
  match i with
  | .crossingEdge a b => Sys2Proof.Machine.execCrossingEdge a b s
  | .release ports => Sys2Proof.Machine.execRelease ports s
  | .decideLate => Sys2Proof.Machine.execDecideLate s
  | .crossLost => Sys2Proof.Machine.execCrossLost s
  | .holdoverExpiry => Sys2Proof.Machine.execHoldoverExpiry s
  | .crossBack kHz => Sys2Proof.Machine.execCrossBack kHz s
  | .arm path => Sys2Proof.Machine.execArm path s
  | .relock path => Sys2Proof.Machine.execRelock path s
  | .keepRatioWrite path n xbMul => Sys2Proof.Machine.execKeepRatioWrite path n xbMul s
  | .crossNowLoRead path => Sys2Proof.Machine.execCrossNowLoRead path s
  | .lastBreachLoRead path => Sys2Proof.Machine.execLastBreachLoRead path s
  | .cycLoRead path trunk => Sys2Proof.Machine.execCycLoRead path trunk s
  | .unitEnable path unit => Sys2Proof.Machine.execUnitEnable path unit s
  | .drainReq path unit req => Sys2Proof.Machine.execDrainReq path unit req s
  | .unitReset path unit enable => Sys2Proof.Machine.execUnitReset path unit enable s
  | .proofSet path unit en depth => Sys2Proof.Machine.execProofSet path unit en depth s
  | .galleyStepAdvance unit => Sys2Proof.Machine.execGalleyStepAdvance unit s
  | .unitReady unit => Sys2Proof.Machine.execUnitReady unit s
  | .unitEmpty unit => Sys2Proof.Machine.execUnitEmpty unit s
  | .drainLimitExpiry unit => Sys2Proof.Machine.execDrainLimitExpiry unit s
  | .versionSelWrite path unit value => Sys2Proof.Machine.execVersionSelWrite path unit value s
  | .uReady unit => Sys2Proof.Machine.execUReady unit s
  | .uEmpty unit => Sys2Proof.Machine.execUEmpty unit s
  | .uFault unit bits => Sys2Proof.Machine.execUFault unit bits s
  | .uEvent unit bits => Sys2Proof.Machine.execUEvent unit bits s
  | .uLoss unit level => Sys2Proof.Machine.execULoss unit level s
  | .registerWrite path addr value meet => Sys2Proof.Machine.execRegisterWrite path addr value meet s
  | .rcFieldRead path addr meet => Sys2Proof.Machine.execRcFieldRead path addr meet s
  | .ctrlGrant meet => Sys2Proof.Machine.execCtrlGrant meet s
  | .accessTimeout path => Sys2Proof.Machine.execAccessTimeout path s
  | .clockGateWake unit => Sys2Proof.Machine.execClockGateWake unit s
  | .fmReq port write addr data => Sys2Proof.Machine.execFmReq port write addr data s
  | .dirWinAccess path write data => Sys2Proof.Machine.execDirWinAccess path write data s
  | .treeWinRead path rebuilt => Sys2Proof.Machine.execTreeWinRead path rebuilt s
  | .testWinAccess path write data port => Sys2Proof.Machine.execTestWinAccess path write data port s
  | .debugWinAccess path write data => Sys2Proof.Machine.execDebugWinAccess path write data s
  | .debugWinDone path found => Sys2Proof.Machine.execDebugWinDone path found s
  | .eventRepeat => Sys2Proof.Machine.execEventRepeat s
  | .lgPllCfgWrite path g value => Sys2Proof.Machine.execLgPllCfgWrite path g value s
  | .lgPllLock g band => Sys2Proof.Machine.execLgPllLock g band s
  | .lgLockTimeout g => Sys2Proof.Machine.execLgLockTimeout g s
  | .refLost g pll => Sys2Proof.Machine.execRefLost g pll s
  | .refBack g kHz => Sys2Proof.Machine.execRefBack g kHz s
  | .laneStartTimeout n => Sys2Proof.Machine.execLaneStartTimeout n s
  | .losSet n => Sys2Proof.Machine.execLosSet n s
  | .losClear n => Sys2Proof.Machine.execLosClear n s
  | .cdrLock n peak => Sys2Proof.Machine.execCdrLock n peak s
  | .cdrUnlock n => Sys2Proof.Machine.execCdrUnlock n s
  | .dfeTapStep n k gain => Sys2Proof.Machine.execDfeTapStep n k gain s
  | .ctleAdaptStep n up => Sys2Proof.Machine.execCtleAdaptStep n up s
  | .snap path n => Sys2Proof.Machine.execSnap path n s
  | .dfeLoad path n tap value => Sys2Proof.Machine.execDfeLoad path n tap value s
  | .txFirWrite path n pre post => Sys2Proof.Machine.execTxFirWrite path n pre post s
  | .eyeStart path n dwell voff phase => Sys2Proof.Machine.execEyeStart path n dwell voff phase s
  | .eyeDone n errors => Sys2Proof.Machine.execEyeDone n errors s
  | .blockReceive n header payload reads => Sys2Proof.Machine.execBlockReceive n header payload reads s
  | .huntExpired n => Sys2Proof.Machine.execHuntExpired n s
  | .bitslip path n => Sys2Proof.Machine.execBitslip path n s
  | .rehunt path n => Sys2Proof.Machine.execRehunt path n s
  | .forceManualWrite path n value => Sys2Proof.Machine.execForceManualWrite path n value s
  | .quadTransmit n => Sys2Proof.Machine.execQuadTransmit n s
  | .quadMissing n => Sys2Proof.Machine.execQuadMissing n s
  | .mark n block => Sys2Proof.Machine.execMark n block s
  | .announce n block => Sys2Proof.Machine.execAnnounce n block s
  | .credit n block => Sys2Proof.Machine.execCredit n block s
  | .proof n block => Sys2Proof.Machine.execProof n block s
  | .alarm n block => Sys2Proof.Machine.execAlarm n block s
  | .hit n m => Sys2Proof.Machine.execHit n m s
  | .primitive n m => Sys2Proof.Machine.execPrimitive n m s
  | .decision n m => Sys2Proof.Machine.execDecision n m s
  | .accept n m => Sys2Proof.Machine.execAccept n m s
  | .fragment n m => Sys2Proof.Machine.execFragment n m s
  | .mgmtRead n m => Sys2Proof.Machine.execMgmtRead n m s
  | .mgmtWrite n m => Sys2Proof.Machine.execMgmtWrite n m s
  | .mgmtResp n m => Sys2Proof.Machine.execMgmtResp n m s
  | .eventMessage n m => Sys2Proof.Machine.execEventMessage n m s
  | .control n m => Sys2Proof.Machine.execControl n m s
  | .announceTransmit n => Sys2Proof.Machine.execAnnounceTransmit n s
  | .announceTimeout n => Sys2Proof.Machine.execAnnounceTimeout n s
  | .renegotiate path n => Sys2Proof.Machine.execRenegotiate path n s
  | .creditTransmit n => Sys2Proof.Machine.execCreditTransmit n s
  | .messageTransmit n ports => Sys2Proof.Machine.execMessageTransmit n ports s
  | .markTransmit n => Sys2Proof.Machine.execMarkTransmit n s
  | .proofOn path n => Sys2Proof.Machine.execProofOn path n s
  | .proofOff path n => Sys2Proof.Machine.execProofOff path n s
  | .remGo path n write timeout => Sys2Proof.Machine.execRemGo path n write timeout s
  | .noResponse n => Sys2Proof.Machine.execNoResponse n s
  | .resErr c upper slips => Sys2Proof.Machine.execResErr c upper slips s
  | .driveConflict c shafts => Sys2Proof.Machine.execDriveConflict c shafts s
  | .receiveQueueWrite n ports => Sys2Proof.Machine.execReceiveQueueWrite n ports s
  | .sendQueueExamine n ports => Sys2Proof.Machine.execSendQueueExamine n ports s
  | .fillLp path plate sslot pslot => Sys2Proof.Machine.execFillLp path plate sslot pslot s
  | .fillStream path plate sslot pslot => Sys2Proof.Machine.execFillStream path plate sslot pslot s
  | .plateStage path plate sslot pslot => Sys2Proof.Machine.execPlateStage path plate sslot pslot s
  | .plateSwitch path plate sslot pslot => Sys2Proof.Machine.execPlateSwitch path plate sslot pslot s
  | .plateCycle path plate sslot pslot => Sys2Proof.Machine.execPlateCycle path plate sslot pslot s
  | .plateCancel path plate sslot pslot => Sys2Proof.Machine.execPlateCancel path plate sslot pslot s
  | .plateClear path plate sslot pslot => Sys2Proof.Machine.execPlateClear path plate sslot pslot s
  | .pstreamDataWrite path value => Sys2Proof.Machine.execPstreamDataWrite path value s
  | .fillDone met => Sys2Proof.Machine.execFillDone met s
  | .stageDone seen => Sys2Proof.Machine.execStageDone seen s
  | .plateSwitchAtT g => Sys2Proof.Machine.execPlateSwitchAtT g s
  | .plateScrubSlot c upper stage slot first seen => Sys2Proof.Machine.execPlateScrubSlot c upper stage slot first seen s
  | .plateReload => Sys2Proof.Machine.execPlateReload s
  | .reloadDone seen => Sys2Proof.Machine.execReloadDone seen s
  | .rowRead c upper bank row reserved found => Sys2Proof.Machine.execRowRead c upper bank row reserved found s
  | .rowWrite c upper bank row mask data found => Sys2Proof.Machine.execRowWrite c upper bank row mask data found s
  | .rowTally c upper bank row wide sat vec slips found => Sys2Proof.Machine.execRowTally c upper bank row wide sat vec slips found s
  | .twinRead c portB row word meet upsets => Sys2Proof.Machine.execTwinRead c portB row word meet upsets s
  | .twinWrite c portB row word data meet => Sys2Proof.Machine.execTwinWrite c portB row word data meet s
  | .basePortRead c bank row word user waited found => Sys2Proof.Machine.execBasePortRead c bank row word user waited found s
  | .basePortWrite c bank row word ben data user waited found => Sys2Proof.Machine.execBasePortWrite c bank row word ben data user waited found s
  | .viaCountDecay => Sys2Proof.Machine.execViaCountDecay s
  | .correctedWriteback word cycle => Sys2Proof.Machine.execCorrectedWriteback word cycle s
  | .memScrubAccess c bank row upsets cycle => Sys2Proof.Machine.execMemScrubAccess c bank row upsets cycle s
  | .scrubLate c => Sys2Proof.Machine.execScrubLate c s
  | .rowRemap c bank row cycle => Sys2Proof.Machine.execRowRemap c bank row cycle s
  | .bankInit q => Sys2Proof.Machine.execBankInit q s
  | .marchGo path c mode banks => Sys2Proof.Machine.execMarchGo path c mode banks s
  | .marchDone c faults => Sys2Proof.Machine.execMarchDone c faults s
  | .clockViaFail c => Sys2Proof.Machine.execClockViaFail c s
  | .clockViaRestart c => Sys2Proof.Machine.execClockViaRestart c s
  | .push port ring cross tag late data => Sys2Proof.Machine.execPush port ring cross tag late data s
  | .gapRecordHandoff e => Sys2Proof.Machine.execGapRecordHandoff e s
  | .gapWritten e ports tree => Sys2Proof.Machine.execGapWritten e ports tree s
  | .slotWrite e descBad port tree => Sys2Proof.Machine.execSlotWrite e descBad port tree s
  | .sweepVisit e descBad tree => Sys2Proof.Machine.execSweepVisit e descBad tree s
  | .flushDone e tree => Sys2Proof.Machine.execFlushDone e tree s
  | .openRing path e ring => Sys2Proof.Machine.execOpenRing path e ring s
  | .closeRing path e ring => Sys2Proof.Machine.execCloseRing path e ring s
  | .rebuild path e => Sys2Proof.Machine.execRebuild path e s
  | .rebuildDone e => Sys2Proof.Machine.execRebuildDone e s
  | .extract e bad ports => Sys2Proof.Machine.execExtract e bad ports s
  | .fragmentSend e => Sys2Proof.Machine.execFragmentSend e s
  | .readoutQueueWrite e ports => Sys2Proof.Machine.execReadoutQueueWrite e ports s
  | .stkAccSample acc type num => Sys2Proof.Machine.execStkAccSample acc type num s
  | .fdpRead port addr found => Sys2Proof.Machine.execFdpRead port addr found s
  | .fdpFullWrite port addr data poison found => Sys2Proof.Machine.execFdpFullWrite port addr data poison found s
  | .fdpPartialWrite port addr ben data found => Sys2Proof.Machine.execFdpPartialWrite port addr ben data found s
  | .mcInitDone w trained => Sys2Proof.Machine.execMcInitDone w trained s
  | .mcRetrain w failed => Sys2Proof.Machine.execMcRetrain w failed s
  | .mcScrubLine line found => Sys2Proof.Machine.execMcScrubLine line found s
  | .moverGo path m => Sys2Proof.Machine.execMoverGo path m s
  | .descriptorEnd m ports => Sys2Proof.Machine.execDescriptorEnd m ports s
  | .regionWrite path r k value => Sys2Proof.Machine.execRegionWrite path r k value s
  | .colophon flash => Sys2Proof.Machine.execColophon flash s
  | .signature flash meet => Sys2Proof.Machine.execSignature flash meet s
  | .galleyOpen flash => Sys2Proof.Machine.execGalleyOpen flash s
  | .galleyClose flash => Sys2Proof.Machine.execGalleyClose flash s
  | .plateFrames flash seen => Sys2Proof.Machine.execPlateFrames flash seen s
  | .initValues flash => Sys2Proof.Machine.execInitValues flash s
  | .pinTable flash => Sys2Proof.Machine.execPinTable flash s
  | .unitSettings flash => Sys2Proof.Machine.execUnitSettings flash s
  | .ringMap flash => Sys2Proof.Machine.execRingMap flash s
  | .memoryPreload flash => Sys2Proof.Machine.execMemoryPreload flash s
  | .thermalMap flash => Sys2Proof.Machine.execThermalMap flash s
  | .driveMap flash => Sys2Proof.Machine.execDriveMap flash s
  | .latency flash => Sys2Proof.Machine.execLatency flash s
  | .optionalRecord flash => Sys2Proof.Machine.execOptionalRecord flash s
  | .endRecord flash meet => Sys2Proof.Machine.execEndRecord flash meet s
  | .powerOn xaFreq xaWait xbWait => Sys2Proof.Machine.execPowerOn xaFreq xaWait xbWait s
  | .suppliesGood rails vccio => Sys2Proof.Machine.execSuppliesGood rails vccio s
  | .fioStable c0 c1 => Sys2Proof.Machine.execFioStable c0 c1 s
  | .fioStartTimeout => Sys2Proof.Machine.execFioStartTimeout s
  | .crystalDelayDone xb kHz => Sys2Proof.Machine.execCrystalDelayDone xb kHz s
  | .pllLock p mapBad => Sys2Proof.Machine.execPllLock p mapBad s
  | .pllLockTimeout p mapBad => Sys2Proof.Machine.execPllLockTimeout p mapBad s
  | .bootBistDone entries logic droop b0 ms => Sys2Proof.Machine.execBootBistDone entries logic droop b0 ms s
  | .bootSourceTry tables => Sys2Proof.Machine.execBootSourceTry tables s
  | .trunkWaitExpiry => Sys2Proof.Machine.execTrunkWaitExpiry s
  | .ldOpen path => Sys2Proof.Machine.execLdOpen path s
  | .loadAbort path => Sys2Proof.Machine.execLoadAbort path s
  | .reapply path => Sys2Proof.Machine.execReapply path s
  | .ldDataWrite path value => Sys2Proof.Machine.execLdDataWrite path value s
  | .loadTimeout => Sys2Proof.Machine.execLoadTimeout s
  | .mainPathRelease => Sys2Proof.Machine.execMainPathRelease s
  | .stagedOutputs unit => Sys2Proof.Machine.execStagedOutputs unit s
  | .stagedWriteEnables unit => Sys2Proof.Machine.execStagedWriteEnables unit s
  | .stagedReset unit => Sys2Proof.Machine.execStagedReset unit s
  | .resetN => Sys2Proof.Machine.execResetN s
  | .rstReqDevice path key => Sys2Proof.Machine.execRstReqDevice path key s
  | .rstReqWarm path key => Sys2Proof.Machine.execRstReqWarm path key s
  | .warmResetEnd => Sys2Proof.Machine.execWarmResetEnd s
  | .monitorTrip m dead kHz => Sys2Proof.Machine.execMonitorTrip m dead kHz s
  | .sourceBack m kHz => Sys2Proof.Machine.execSourceBack m kHz s
  | .pllUnlock mem => Sys2Proof.Machine.execPllUnlock mem s
  | .rootFail => Sys2Proof.Machine.execRootFail s
  | .standbyRootFail => Sys2Proof.Machine.execStandbyRootFail s
  | .rootSwap path => Sys2Proof.Machine.execRootSwap path s
  | .trunkGo path dest => Sys2Proof.Machine.execTrunkGo path dest s
  | .regGo path dest => Sys2Proof.Machine.execRegGo path dest s
  | .relockStandbyLock locked => Sys2Proof.Machine.execRelockStandbyLock locked s
  | .netStop trunk => Sys2Proof.Machine.execNetStop trunk s
  | .switchForced trunk => Sys2Proof.Machine.execSwitchForced trunk s
  | .netRestart trunk lost a b => Sys2Proof.Machine.execNetRestart trunk lost a b s
  | .fioRetry => Sys2Proof.Machine.execFioRetry s
  | .tick common temps regCycles freqs => Sys2Proof.Machine.execTick common temps regCycles freqs s
  | .modeReq path target ack => Sys2Proof.Machine.execModeReq path target ack s
  | .modeEntered ack => Sys2Proof.Machine.execModeEntered ack s
  | .pmbusSettleDone settled => Sys2Proof.Machine.execPmbusSettleDone settled s
  | .readIout ack amps => Sys2Proof.Machine.execReadIout ack amps s
  | .wakeN => Sys2Proof.Machine.execWakeN s
  | .spi1CsWake => Sys2Proof.Machine.execSpi1CsWake s
  | .dormTimer => Sys2Proof.Machine.execDormTimer s
  | .pdWrite path k on => Sys2Proof.Machine.execPdWrite path k on s
  | .powerGood k => Sys2Proof.Machine.execPowerGood k s
  | .rampFail k => Sys2Proof.Machine.execRampFail k s
  | .pgLost k => Sys2Proof.Machine.execPgLost k s
  | .droopSense c layer sensor two remain => Sys2Proof.Machine.execDroopSense c layer sensor two remain s
  | .episodeEnd g => Sys2Proof.Machine.execEpisodeEnd g s
  | .widened g => Sys2Proof.Machine.execWidened g s
  | .groupAdmit => Sys2Proof.Machine.execGroupAdmit s
  | .backgroundGrant c paced tally => Sys2Proof.Machine.execBackgroundGrant c paced tally s
  | .governorPTAdjust g => Sys2Proof.Machine.execGovernorPTAdjust g s
  | .thermalTrip layer c => Sys2Proof.Machine.execThermalTrip layer c s
  | .supply rail => Sys2Proof.Machine.execSupply rail s
  | .causeLatchClear c => Sys2Proof.Machine.execCauseLatchClear c s
  | .watchdogKick => Sys2Proof.Machine.execWatchdogKick s
  | .watchdog => Sys2Proof.Machine.execWatchdog s
  | .propOpen path => Sys2Proof.Machine.execPropOpen path s
  | .propDataWrite path value => Sys2Proof.Machine.execPropDataWrite path value s
  | .propSubmit path => Sys2Proof.Machine.execPropSubmit path s
  | .propDiscard path => Sys2Proof.Machine.execPropDiscard path s
  | .bistCmd path b0 groups => Sys2Proof.Machine.execBistCmd path b0 groups s
  | .bistDone entries logic b0 ms => Sys2Proof.Machine.execBistDone entries logic b0 ms s
  | .pealSlice c work tour late => Sys2Proof.Machine.execPealSlice c work tour late s
  | .reliefPhaseEnd g faults => Sys2Proof.Machine.execReliefPhaseEnd g faults s
  | .pealPriv path target => Sys2Proof.Machine.execPealPriv path target s
  | .privDone fail => Sys2Proof.Machine.execPrivDone fail s
  | .repCommit path index => Sys2Proof.Machine.execRepCommit path index s
  | .repCommitAll path index => Sys2Proof.Machine.execRepCommitAll path index s
  | .repRemove path index => Sys2Proof.Machine.execRepRemove path index s
  | .repErase path index => Sys2Proof.Machine.execRepErase path index s
  | .repCmdDone flashErr => Sys2Proof.Machine.execRepCmdDone flashErr s
  | .repFuseWrite path value => Sys2Proof.Machine.execRepFuseWrite path value s
  | .scanEnter => Sys2Proof.Machine.execScanEnter s
  | .proofInject path unit => Sys2Proof.Machine.execProofInject path unit s
  | .proofSyncLoss n => Sys2Proof.Machine.execProofSyncLoss n s
  | .pinMuxWrite path k value => Sys2Proof.Machine.execPinMuxWrite path k value s
  | .pinIrq p level => Sys2Proof.Machine.execPinIrq p level s
  | .vccioLoss b => Sys2Proof.Machine.execVccioLoss b s
  | .spi1Frame bytes => Sys2Proof.Machine.execSpi1Frame bytes s
  | .jtagDebug addr data write go => Sys2Proof.Machine.execJtagDebug addr data write go s
  | .extest cells => Sys2Proof.Machine.execExtest cells s
  | .idcode => Sys2Proof.Machine.execIdcode s
  | .samplePreload cells => Sys2Proof.Machine.execSamplePreload cells s
  | .clamp => Sys2Proof.Machine.execClamp s
  | .highz => Sys2Proof.Machine.execHighz s
  | .extestPulse => Sys2Proof.Machine.execExtestPulse s
  | .extestTrain => Sys2Proof.Machine.execExtestTrain s
  | .bypass => Sys2Proof.Machine.execBypass s
  | .serCmd path p value => Sys2Proof.Machine.execSerCmd path p value s
  | .serCmdDone p sent got err arb => Sys2Proof.Machine.execSerCmdDone p sent got err arb s
  | .serTxWrite path p x => Sys2Proof.Machine.execSerTxWrite path p x s
  | .serRxRead path p => Sys2Proof.Machine.execSerRxRead path p s
  | .serialByteReceived p x bad => Sys2Proof.Machine.execSerialByteReceived p x bad s
  | .flashRead path => Sys2Proof.Machine.execFlashRead path s
  | .flashProgram path => Sys2Proof.Machine.execFlashProgram path s
  | .eraseSector path => Sys2Proof.Machine.execEraseSector path s
  | .flCmdDone fail => Sys2Proof.Machine.execFlCmdDone fail s
  | .vccioGood b level => Sys2Proof.Machine.execVccioGood b level s
  | .vccAoLoss long => Sys2Proof.Machine.execVccAoLoss long s
  | .droopSensorClear g one => Sys2Proof.Machine.execDroopSensorClear g one s
  | .refSelWrite path xb => Sys2Proof.Machine.execRefSelWrite path xb s
  | .vsetWrite path b value ack => Sys2Proof.Machine.execVsetWrite path b value ack s
  | .dramHot w rate => Sys2Proof.Machine.execDramHot w rate s
  | .serialByteSent p => Sys2Proof.Machine.execSerialByteSent p s

end Sys2Proof.Machine
end

