-- ==== Sys2Proof/Machine/Idle.lean ====
section
/-!
DEFINITION. What time brings that no row of the command table names: an idle block completes what is outstanding at the fabric data ports
(R326) and runs a fabric cycle, an item of each running loop of a memory controller (R497) and a pass of each running via loop (R498).
-/
namespace Sys2Proof.Machine

/-- The generator of a unit's proof loop sends. -/
def Dev.loopSends (d : Dev) (b o : Nat) : Bool := d.runs b && d.proving b && d.flag (b + o) Reg.PRF_STATUS.GEN

/-- A controller's loop writes its next line and reads it back; an injected bit makes it a mismatch (R493, R497). -/
def Dev.mcLoop (d : Dev) (w : Nat) : Dev :=
  let b := mcBase w
  let o := b + 0x200
  let (first, n) := d.loopSpan w
  if !d.loopSends b 0x200 || n == 0 then d
  else
    let r := d.proofRec b
    let p := loopPlace first (r.pos % (8 * n))
    let d := if d.proofDepth b = some 3 then d.putLine (loopLine w p) (loopMark false) else d
    let d := d.modProof b fun r => { r with pos := r.pos + 1, inject := false }
    let d := ((d.count o Reg.PRF_TX_COUNT.COUNT).count o Reg.PRF_RX_COUNT.COUNT).setFld o Reg.PRF_STATUS.SYNC 1
    if r.inject then (d.count o Reg.PRF_ERR_COUNT.COUNT).proofLog o ((8 * w + p.1) * 2 ^ 27 + p.2) else d

/-- A column's via loop completes a pass: its transfers and the failing vias it finds are free, an injected bit among them (R498). -/
def Dev.viaLoop (d : Dev) (c : Nat) : Dev :=
  let b := columnBase 0 c
  let o := b + 0x300
  if !d.loopSends b 0x300 then d
  else
    let (more, vias) := Config.viaPass d.free
    let found := if (d.proofRec b).inject then BitVec.ofNat 17 (Config.freeNat d.free) :: vias else vias
    let d := (d.modProof b fun r => { r with inject := false }).drew
    let d := (d.countBy o Reg.PRF_TX_COUNT.COUNT (more + 1)).count o Reg.PRF_RX_COUNT.COUNT
    let d := (d.setFld o Reg.PRF_STATUS.SYNC 1).countBy o Reg.PRF_ERR_COUNT.COUNT found.length
    match found with
    | v :: _ => d.proofLog o v.toNat
    | [] => d

/-- The via loops of the columns, which run in PROOF only (R490). -/
def Dev.viaLoops (d : Dev) : Dev := if d.mode = modeProof then d.each (List.range 256) Dev.viaLoop else d

/-- What an idle block does (log entry 1). -/
def opIdle (d : Dev) : Dev :=
  let d := d.each (List.range 4) Dev.fdpComplete
  ((d.fabricCycle fun _ => []).each [0, 1] Dev.mcLoop).viaLoops

end Sys2Proof.Machine
end

