-- ==== Sys2Proof/Machine/Step.lean ====
section
/-!
DEFINITION. A step of the T7: the command at the front of the queue takes effect. On an empty queue time passes as Idle.lean says;
what else it brings reaches the model as commands (log entry 1).
-/
namespace Sys2Proof.Machine

/-- The front command acts on the machine with the rest of the queue. -/
def step (s : State) : Host.Outcome State Fault Refusal :=
  match s.pending with
  | [] => onDev opIdle s
  | c :: rest => exec c { s with pending := rest }

/-- The machine with the command that a word spells put at the front of its queue. -/
def State.withFetchWord (s : State) (nbits w : Nat) : State :=
  match Sys2Proof.decodeTableWord nbits w with
  | some c => { s with pending := c :: s.pending }
  | none => s

end Sys2Proof.Machine
end

