-- ==== Sys2Proof/Safety.lean ====
section
/-!
DEFINITION. What holds of the machine between commands, in the words that the statements use.
-/
namespace Sys2Proof.Machine

/-- No cause is on its way to Kryup (R450), no change of the roots' ratio waits for the forme (R399), no loop has been taken from
under a net (R397), and the root sends no EVENT messages (R93): a command that brings none of these leaves nothing to follow it.
Nor has a command left anything that a transfer over a base port is to meet. -/
def Dev.quiet (d : Dev) : Bool :=
  decide (d.kryup.due = []) && !d.clk.changeHeld && decide (d.clk.loopsDown = []) && !d.flag rootBase Reg.IRQ_CTRL.EVT_EN &&
    decide (d.stack.meets = [])

def State.quiet (s : State) : Bool := s.dev.quiet

/-- A stored change of the ratio could begin: the forme is in STOPPED, OFF or LOADING, and the trunk's sequencer is free (R399). -/
def Dev.changeReady (d : Dev) : Bool :=
  d.clk.changeHeld && d.formeRests && decide (d.clk.trunk.state = .run) && d.clk.rootRef != 3

/-- Between commands no cause waits to be taken, no stored change waits that could begin, and nothing is left that a transfer over a
base port is to meet. -/
def State.settled (s : State) : Bool :=
  decide (s.dev.kryup.due = []) && !s.dev.changeReady && decide (s.dev.stack.meets = [])

/-- The sparse maps that the T7's stores are kept in have one form each: addresses rising, nothing listed that an unlisted address
holds. -/
def Dev.canonical (d : Dev) : Bool :=
  d.regs.wf resetValue && d.memWf && d.ext.lines.rising

/-! ## What a command leaves -/

/-- A command completes: exec answers a next state, whose queue is the one it was given, and the machine after it meets a
condition. -/
def Completes (c : Instr) (s : State) (P : Dev → Prop) : Prop := ∃ t, exec c s = .next t ∧ t.pending = s.pending ∧ P t.dev

/-- The parts of the machine. -/
inductive Part where
  | free | regs | units | ctl | stack | keeper | clk | ident | lanes | links | groups | fabric | plates | mem | rings | strike
  | ext | load | power | heat | kryup | test | proof | pins
deriving DecidableEq, Repr

/-- A part is as it was. -/
def Part.same : Part → Dev → Dev → Prop
  | .free, d, e => e.free = d.free
  | .regs, d, e => e.regs = d.regs
  | .units, d, e => e.units = d.units
  | .ctl, d, e => e.ctl = d.ctl
  | .stack, d, e => e.stack = d.stack
  | .keeper, d, e => e.keeper = d.keeper
  | .clk, d, e => e.clk = d.clk
  | .ident, d, e => e.ident = d.ident
  | .lanes, d, e => e.lanes = d.lanes
  | .links, d, e => e.links = d.links
  | .groups, d, e => e.groups = d.groups
  | .fabric, d, e => e.fabric = d.fabric
  | .plates, d, e => e.plates = d.plates
  | .mem, d, e => e.mem = d.mem
  | .rings, d, e => e.rings = d.rings
  | .strike, d, e => e.strike = d.strike
  | .ext, d, e => e.ext = d.ext
  | .load, d, e => e.load = d.load
  | .power, d, e => e.power = d.power
  | .heat, d, e => e.heat = d.heat
  | .kryup, d, e => e.kryup = d.kryup
  | .test, d, e => e.test = d.test
  | .proof, d, e => e.proof = d.proof
  | .pins, d, e => e.pins = d.pins

/-- Only the parts listed may have changed. -/
def OnlyParts (l : List Part) (d e : Dev) : Prop := ∀ p, p ∉ l → p.same d e

/-- Only the registers listed may have changed. -/
def OnlyRegs (l : List Nat) (d e : Dev) : Prop := ∀ a, a ∉ l → e.reg a = d.reg a

/-- Only registers from one address up to another may have changed. -/
def OnlyRange (lo hi : Nat) (d e : Dev) : Prop := ∀ a, ¬(lo ≤ a ∧ a < hi) → e.reg a = d.reg a

/-- Only registers of one unit's window may have changed. -/
def OnlyWindow (b : Nat) (d e : Dev) : Prop := OnlyRange b (b + 0x1000) d e

/-- A counter has risen by a number, or to its greatest value. -/
def Counted (b : Nat) (f : Fld) (k : Nat) (d e : Dev) : Prop := e.fld b f = satAdd (2 ^ f.width - 1) (d.fld b f) k

/-- Beside the registers listed, only STATE and EVENT registers of units may have changed. -/
def OnlyStates (l : List Nat) (d e : Dev) : Prop :=
  ∀ a, a ∉ l → a % 0x1000 ≠ Reg.STATE.STATE.off → a % 0x1000 ≠ Reg.EVENT.FAULT.off → e.reg a = d.reg a

/-- Units whose change of state has no effect but the state table's: the crossing keeper, the domain controller, the Damper, the
crypto engine, the movers and the serial ports. -/
def plainSorts : List Nat :=
  [keeperBase, pdBase, damperBase, cryptoBase] ++ (List.range 8).map moverBase ++ (List.range 6).map serialBase

/-- Galleys whose change of state has no effect but the state table's: those of clocks, power, pins, serial ports, self-test and
external memory, the layers and the lane groups. -/
def plainGalleys : List Nat :=
  [clkBase, powerBase, pinsBase, serialGalleyBase, selfTestBase, memsysBase] ++ (List.range 5).map layerBase ++
    (List.range 18).map laneGroupBase

/-- An access of a path that comes now reaches the register at an address: nothing waits before it (R90, R91), the path and control
space are open to it, a register lies there, and its unit is not in OFF (R83, R88, R65). -/
def Dev.reached (d : Dev) (path addr : Nat) : Bool :=
  d.grantedNow path addr && decide (d.admission path addr = stOk) && d.implemented path addr && !d.turnedAway addr

/-- The last access of a path completed with a status and a word read. -/
def Dev.answered (d : Dev) (path st : Nat) (w : Word) : Prop := d.ctl.done.look path = some { status := st, data := w }

/-- What a read of a field shows: of one that follows other state, the value that it has there. -/
def Dev.shows (d : Dev) (b : Nat) (f : Fld) : Nat := fget ((d.derived (unitOf b) f.off).getD (d.reg (b + f.off))) f

/-- A lane's message layer stands between messages and takes what the lane receives. -/
def Dev.between (d : Dev) (n : Nat) : Bool := d.listens n && decide ((d.lane n).rx = .outside)

/-- A whole message arrives good at a lane that takes its type now (R148, R151, R153, R168, R172): framed, its checks right, its
type carried, its LEN in range, its units within the credit given, and no hit lane draining. -/
def Dev.takes (d : Dev) (n typ : Nat) (m : WireMsg) : Bool :=
  d.between n && ctlType m.som == ctlSom && somType m.som == typ && chkOk m.som && ctlType m.eom == ctlEom &&
    messageOk (d.version n) m.som m.data m.eom &&
    Sys2Proof.Machine.takes n (d.version n) (d.fld (laneBase n) Reg.AGREED_FEAT.FEATURES) typ && lenRight typ (somLen m.som) (somRoute m.som) &&
    (decide (d.version n < 0x11) || decide (msgUnits (somLen m.som) ≤ (d.link n).room (creditClass typ))) &&
    (isTrunk n || !decide (d.ust (laneBase n) = .draining))

/-- A message as the message layer hands it on. -/
def innerMsg (m : WireMsg) : Msg :=
  { typ := somType m.som, stamp := somStamp m.som, route := somRoute m.som, body := m.data }

/-- The registers in which a path's errors are logged (R83, R88). -/
def accErrRegs : List Nat := [rootBase + Reg.ACC_ERR.off, rootBase + Reg.ACC_ERR_ADDR.off]

end Sys2Proof.Machine
end

