-- ==== Sys2Proof/Certificates/Slice0/Obligations.lean ====
section
/-!
DEFINITION. The statements about the model, family by family, in the order of the spec's sections.
-/
section

open Sys2Proof Sys2Proof.Machine

/-! ## The machine as a block -/

/-- A step takes the command at the front of the queue and lets it act on the machine with the rest of the queue. On an empty queue time
passes as the model chooses (log entry 1): each group with a fabric cycle of the present crossing still to come has one, and where there
is none, no loop of a memory controller runs and the mode is not PROOF, nothing changes. -/
def Obligations.StepTakesTheFrontCommandOrIdles : Prop :=
  (∀ (c : Instr) (rest : List Instr) (d : Dev),
    step { pending := c :: rest, dev := d } = exec c { pending := rest, dev := d }) ∧
  ∀ d : Dev, d.quiet = true →
    (∀ g : Fin 16, d.groupTicks g = true →
      ∃ e : Dev, step { pending := [], dev := d } = .next { pending := [], dev := e } ∧
        e.fabric.cycle.num g = d.fabric.cycle.num g + 1) ∧
    ((∀ g : Fin 16, d.groupTicks g = false) → (∀ w : Fin 2, d.loopSends (mcBase w) 0x200 = false) → d.mode ≠ modeProof →
      step { pending := [], dev := d } = .next { pending := [], dev := d })

/-- Every command completes on every machine, leaves the queue as it finds it, and leaves no cause waiting to be taken and no stored change of
the ratio that could begin (R450, R399). Every step of a settled machine leaves it settled. -/
def Obligations.EveryStepCompletesAndStaysSettled : Prop :=
  (∀ (c : Instr) (s : State), Completes c s fun e => e.kryup.due = [] ∧ e.changeReady = false) ∧
  ∀ s t : State, s.settled = true → step s = .next t → t.settled = true

/-- After reset the machine is settled and quiet, its stores have their one form, and no command waits; the mode is START, the 40 switched
domains are off with their units, and Kryup runs with the cause of its reset shown as a power-on. The model's choice here is log entry 5. -/
def Obligations.ResetIsSettledAndCanonical : Prop :=
  State.reset.settled = true ∧ State.reset.quiet = true ∧ State.reset.dev.canonical = true ∧ State.reset.pending = [] ∧
  State.reset.dev.mode = modeStart ∧ (∀ k : Fin 40, State.reset.dev.pd k = pdOff) ∧ State.reset.dev.ust kryupBase = .running ∧
  (∀ b ∈ [formeBase, strikeBase, configBase, keeperBase], State.reset.dev.ust b = .off) ∧
  State.reset.dev.fld kryupBase Reg.RESET_CAUSE.LAST = 0

/-- Every step keeps the one form of the T7's stores: the addresses of registers away from reset, of bytes of the memory dies away from 0 and of LPDDR5X
lines rise, and no register or byte is listed that holds what an unlisted one holds. -/
def Obligations.StepKeepsStoresCanonical : Prop :=
  ∀ s t : State, s.dev.canonical = true → step s = .next t → t.dev.canonical = true

/-! ## The crossing keeper ("Crossings and the Latency Contract") -/

/-- DECIDE_LATE, while crossings are counted under a latency contract, counts one in DECIDE_LATE_COUNT, which saturates, and sets
KEEP_EVENT.DECIDE_LATE; no other register and no other part changes (R52). ARM sets KEEP_STATUS.ARMED, and a read of CROSS_NOW_LO,
LAST_BREACH_LO, REG_CYC_LO or TRUNK_CYC_LO answers the low 32 bits of the value and captures all of it for the reading path (R42, R39,
R412). A ratio asked for is stored, a reserved N as 8 (R8, R44, R399). One that the speed grade does not allow leaves the roots as they are and
sets KEEP_STATUS.RATIO_ERR; one it allows, while the forme is STARTING, RUNNING, DEGRADED or DRAINING, waits, and without a reference of the
roots no relock follows. The model's choice here is log entry 31. -/
def Obligations.KeeperCountsLatenessAndChecksRatios : Prop :=
  ((∀ s : State, s.quiet = true → s.dev.counting = true → s.dev.latL ≠ 0 →
    Completes .decideLate s fun e =>
      Counted keeperBase Reg.DECIDE_LATE_COUNT.COUNT 1 s.dev e ∧
      e.fld keeperBase Reg.KEEP_EVENT.DECIDE_LATE = 1 ∧ OnlyParts [.regs] s.dev e ∧
      OnlyRegs [keeperBase + Reg.DECIDE_LATE_COUNT.COUNT.off, keeperBase + Reg.KEEP_EVENT.DECIDE_LATE.off] s.dev e) ∧
  ∀ (s : State) (path : Fin 8), s.quiet = true →
    (s.dev.reached path keepCtrlAddr = true →
      Completes (.arm path) s fun e =>
        e.fld keeperBase Reg.KEEP_STATUS.ARMED = 1 ∧ e.answered path stOk 0 ∧ OnlyParts [.regs, .ctl] s.dev e ∧
        OnlyRegs [keeperBase + Reg.KEEP_STATUS.ARMED.off] s.dev e) ∧
    (s.dev.reached path (keeperBase + Reg.CROSS_NOW_LO.NOW_LO.off) = true →
      Completes (.crossNowLoRead path) s fun e =>
        e.answered path stOk (BitVec.ofNat 32 s.dev.now) ∧ e.ctl.capture.num (path * 4 + capNow) = s.dev.now ∧
        OnlyParts [.ctl] s.dev e) ∧
    (s.dev.reached path (keeperBase + Reg.LAST_BREACH_LO.CROSS_LO.off) = true →
      Completes (.lastBreachLoRead path) s fun e =>
        e.answered path stOk (BitVec.ofNat 32 s.dev.keeper.lastBreach) ∧
        e.ctl.capture.num (path * 4 + capBreach) = s.dev.keeper.lastBreach ∧ OnlyParts [.ctl] s.dev e) ∧
    (s.dev.reached path (clkBase + Reg.REG_CYC_LO.CYC.off) = true →
      Completes (.cycLoRead path false) s fun e =>
        e.answered path stOk (s.dev.clk.regCyc.setWidth 32) ∧ e.ctl.capture.num (path * 4 + capReg) = s.dev.clk.regCyc.toNat ∧
        OnlyParts [.ctl] s.dev e) ∧
    (s.dev.reached path (clkBase + Reg.TRUNK_CYC_LO.CYC.off) = true →
      Completes (.cycLoRead path true) s fun e =>
        e.answered path stOk (s.dev.clk.trunkCyc.setWidth 32) ∧
        e.ctl.capture.num (path * 4 + capTrunk) = s.dev.clk.trunkCyc.toNat ∧ OnlyParts [.ctl] s.dev e)) ∧
  ∀ (s : State) (path : Fin 8) (n : Fin 32) (xb : Fin 256), s.quiet = true →
    s.dev.reached path (keeperBase + Reg.KEEP_RATIO.off) = true →
    let m : Nat := if 4 ≤ n.val ∧ n.val ≤ 16 then n else 8
    let ref := if s.dev.clk.rootRef = 3 then s.dev.fld keeperBase Reg.KEEP_CTRL.REF_SEL else s.dev.clk.rootRef
    let stored (err : Nat) (e : Dev) : Prop :=
      e.fld keeperBase Reg.KEEP_RATIO.N = m ∧ e.fld keeperBase Reg.KEEP_RATIO.XB_MUL = xb ∧
      e.fld keeperBase Reg.KEEP_STATUS.RATIO_ERR = err ∧ e.answered path stOk 0 ∧ OnlyParts [.regs, .ctl, .clk] s.dev e ∧
      OnlyRegs [keeperBase + Reg.KEEP_STATUS.RATIO_ERR.off, keeperBase + Reg.KEEP_RATIO.N.off] s.dev e
    (s.dev.ratioOk ref m xb = false → Completes (.keepRatioWrite path n xb) s fun e => stored 1 e ∧ e.clk = s.dev.clk) ∧
    (s.dev.ratioOk ref m xb = true → s.dev.clk.rootRef = 3 →
      Completes (.keepRatioWrite path n xb) s fun e => stored 0 e ∧ e.clk = s.dev.clk) ∧
    (s.dev.ratioOk ref m xb = true → s.dev.clk.rootRef ≠ 3 → s.dev.formeActive = true →
      ¬(m = s.dev.clk.ratioN ∧ (s.dev.clk.rootRef = refCross ∨ xb = s.dev.clk.ratioXb)) →
      Completes (.keepRatioWrite path n xb) s fun e => stored 0 e ∧ e.clk = { s.dev.clk with changeHeld := true })

/-- While the fabric runs from a root, the trunk's sequencer is free and the other root is locked, a change of the reference begins with that
root, which seeks the new reference at KEEP_RATIO's ratio, or at the one in force while the forme is active (R44): RELOCK and a REF_SEL write of
0 ask for CROSS_CLK, a REF_SEL write of 1 and 64 Ticks of holdover for XB (R58, R59, R399). CROSS_LOST with a root locked to CROSS_CLK sets the event and HOLDOVER, and begins holdover; the number stands. CROSS_BACK records
the edges, and after a loss sets KEEP_EVENT.CROSS_BACK without leaving the reference in use (R58, R59). The cause that a loss raises is taken by
the latch already set. -/
def Obligations.ReferenceIsLeftAndFoundAgain : Prop :=
  (∀ (s : State) (path : Fin 8) (xb : Bool), s.quiet = true → s.dev.clk.rootRef ≠ 3 → s.dev.clk.trunk.state = .run →
    s.dev.netSrc true = .loop → s.dev.activeRoot ≤ 1 → s.dev.pllOk s.dev.standbyRoot = true →
    let seeks (ref : Nat) (e : Dev) : Prop :=
      e.clk.trunk.state = .relock ∧ e.fld (pllBase s.dev.standbyRoot) Reg.PLL_STATUS.REF = ref ∧
      e.fld (pllBase s.dev.standbyRoot) Reg.PLL_STATUS.LOCK = 0 ∧
      e.clk.relock = some { ref := ref, n := s.dev.ratioWanted.1, xb := s.dev.ratioWanted.2, root := s.dev.standbyRoot, tick := s.dev.tick }
    let fits (ref : Nat) : Prop := s.dev.ratioOk ref s.dev.ratioWanted.1 s.dev.ratioWanted.2 = true
    (s.dev.reached path keepCtrlAddr = true → fits refCross →
      Completes (.relock path) s fun e => seeks refCross e ∧ e.answered path stOk 0 ∧ OnlyParts [.regs, .ctl, .clk] s.dev e) ∧
    (s.dev.reached path keepCtrlAddr = true → fits (bit01 xb) → s.dev.fld keeperBase Reg.KEEP_CTRL.REF_SEL ≠ bit01 xb →
      Completes (.refSelWrite path xb) s fun e =>
        seeks (bit01 xb) e ∧ e.fld keeperBase Reg.KEEP_CTRL.REF_SEL = bit01 xb ∧ e.answered path stOk 0 ∧
        OnlyParts [.regs, .ctl, .clk] s.dev e) ∧
    (∀ t, s.dev.keeper.holdoverTick = some t → t + 64 ≤ s.dev.tick → fits refXb →
      Completes .holdoverExpiry s fun e =>
        seeks refXb e ∧ e.keeper = { s.dev.keeper with holdoverTick := none } ∧ OnlyParts [.regs, .keeper, .clk] s.dev e)) ∧
  (∀ s : State, s.quiet = true → s.dev.clkOn = true → s.dev.keeper.crossKHz ≠ 0 →
    (∃ r ∈ [0, 1], s.dev.pllOk r = true ∧ s.dev.fld (pllBase r) Reg.PLL_STATUS.REF = refCross) →
    s.dev.fld keeperBase Reg.KEEP_STATUS.HOLDOVER = 0 → s.dev.latched causeCrossLost = true →
    Completes .crossLost s fun e =>
      e.fld keeperBase Reg.KEEP_EVENT.CROSS_LOST = 1 ∧ e.fld keeperBase Reg.KEEP_STATUS.HOLDOVER = 1 ∧
      e.keeper = { s.dev.keeper with crossKHz := 0, lastKHz := s.dev.keeper.crossKHz, holdoverTick := some s.dev.tick } ∧ e.kryup.crossLost = true ∧
      OnlyParts [.regs, .keeper, .kryup] s.dev e) ∧
  (∀ (s : State) (kHz : Nat), s.quiet = true → kHz ≠ 0 → s.dev.clkOn = true → s.dev.keeper.crossKHz = 0 → s.dev.keeper.lastKHz ≠ 0 →
    Completes (.crossBack kHz) s fun e =>
      e.fld keeperBase Reg.KEEP_EVENT.CROSS_BACK = 1 ∧ e.keeper = { s.dev.keeper with crossKHz := kHz } ∧
      e.kryup = { s.dev.kryup with crossLost := false } ∧ OnlyParts [.regs, .keeper, .kryup] s.dev e ∧
      OnlyRegs [keeperBase + Reg.KEEP_EVENT.CROSS_BACK.off] s.dev e)

/-- A crossing edge of the running trunk, with no sync value waiting, no plate switch pending and the Strike Port's domain off: the number rises
by 1 modulo 2^48, what belongs to one crossing begins anew, its fabric cycles among it, each group's swallowed pulses are those of its divider
and are counted, the trunk counts N cycles, and the level of CROSS_SYNC makes the value of SYNC_VALUE wait where SYNC_SRC selects it (R38, R40,
R45, R53, R401). At such an edge a waiting sync value is used by SYNC_MODE (R42, R43): a value that agrees with the next number ends
an armed load, an armed load of another value sets the number, and a value that disagrees in mode 2 sets SYNC_SLIP and is not loaded. An
edge of the new source's reference that a stop of the trunk spans adds 1 to the number, drops a waiting sync value, and makes the crossing it begins a breach of a forme
with decision groups: counted, and LAST_BREACH takes the number (R400, R55, R56). The model's choice here is log entry 29. -/
def Obligations.EdgesBeginCrossings : Prop :=
  ((∀ (s : State) (a b : DpSample), s.quiet = true → s.dev.counting = true → s.dev.clk.trunk.state = .run →
    s.dev.keeper.released = true → s.dev.keeper.pendingSync = none → s.dev.clk.swapPending = false → s.dev.plates.pending = {} →
    s.dev.domainOn 7 = false → s.dev.strike.groups = [] → s.dev.kryup.warm = false →
    let value := (s.dev.reg (keeperBase + Reg.SYNC_VALUE_LO.VALUE_LO.off)).toNat +
      s.dev.fld keeperBase Reg.SYNC_VALUE_HI.VALUE_HI * 2 ^ 32
    Completes (.crossingEdge a b) s fun e =>
      e.now = (s.dev.now + 1) % 2 ^ 48 ∧ e.keeper.released = false ∧ e.keeper.breachNow = false ∧ e.keeper.holds = {} ∧
      e.keeper.pendingSync =
        (if s.dev.fld keeperBase Reg.KEEP_CTRL.SYNC_SRC = 1 ∧ s.dev.syncLevel = true then some value else none) ∧
      (∀ g : Fin 16, e.keeper.swallowed.num g = s.dev.groupP g) ∧
      e.clk = { s.dev.clk with trunkCyc := s.dev.clk.trunkCyc + BitVec.ofNat 64 s.dev.clk.ratioN } ∧
      e.fabric = { s.dev.fabric with cycle := {}, fences := e.fabric.fences } ∧
      OnlyParts [.regs, .keeper, .clk, .fabric] s.dev e ∧ OnlyRegs [damperBase + Reg.DMP_SWALLOW_COUNT.COUNT.off] s.dev e) ∧
  ∀ (s : State) (a b : DpSample) (v : Nat), s.quiet = true → s.dev.counting = true → s.dev.clk.trunk.state = .run →
    s.dev.keeper.released = true → s.dev.keeper.pendingSync = some v → s.dev.clk.swapPending = false → s.dev.plates.pending = {} →
    s.dev.domainOn 7 = false → s.dev.strike.groups = [] → s.dev.kryup.warm = false →
    s.dev.fld keeperBase Reg.KEEP_CTRL.SYNC_SRC = 0 →
    let next := (s.dev.now + 1) % 2 ^ 48
    let mode := s.dev.fld keeperBase Reg.KEEP_CTRL.SYNC_MODE
    let armed (e : Dev) := e.fld keeperBase Reg.KEEP_STATUS.ARMED
    (mode = 0 → armed s.dev = 1 → v = next →
      Completes (.crossingEdge a b) s fun e =>
        e.now = next ∧ armed e = 0 ∧ e.keeper.pendingSync = none ∧ OnlyParts [.regs, .keeper, .clk, .fabric] s.dev e) ∧
    (mode = 0 → armed s.dev = 1 → v ≠ next →
      Completes (.crossingEdge a b) s fun e =>
        e.now = v ∧ armed e = 0 ∧ e.fld keeperBase Reg.KEEP_EVENT.CROSS_JUMP = 1 ∧ e.keeper.notReadyLeft = s.dev.latL ∧
        e.keeper.pendingSync = none) ∧
    (mode = 2 → v ≠ next →
      Completes (.crossingEdge a b) s fun e =>
        e.now = next ∧ e.fld keeperBase Reg.KEEP_EVENT.SYNC_SLIP = 1 ∧ armed e = armed s.dev ∧
        e.keeper.pendingSync = none ∧ OnlyParts [.regs, .keeper, .clk, .fabric] s.dev e)) ∧
  ∀ (s : State) (a b : DpSample), s.quiet = true → s.dev.counting = true → s.dev.clk.trunk.state = .switching →
    s.dev.edgesFrom s.dev.clk.trunk.target s.dev.targetRef = true →
    s.dev.keeper.released = true → s.dev.domainOn 7 = false → s.dev.strike.groups ≠ [] → s.dev.latL ≠ 0 →
    s.dev.breachOffered = false →
    Completes (.crossingEdge a b) s fun e =>
      e.now = (s.dev.now + 1) % 2 ^ 48 ∧ e.keeper.lastBreach = e.now ∧ e.keeper.breachNow = true ∧
      e.keeper.pendingSync = none ∧ e.keeper.released = false ∧ e.fabric = { s.dev.fabric with cycle := {} } ∧
      Counted keeperBase Reg.BREACH_COUNT.COUNT 1 s.dev e ∧
      e.fld keeperBase Reg.KEEP_EVENT.LATENCY_BREACH = 1 ∧ OnlyParts [.regs, .keeper, .strike, .fabric] s.dev e ∧
      OnlyRegs [keeperBase + Reg.BREACH_COUNT.COUNT.off, keeperBase + Reg.KEEP_EVENT.LATENCY_BREACH.off] s.dev e

/-- RELEASE at one running lane without delivery frames: the data stamped K, R crossings before the present one, leaves the
buffer, and the lane shows CLOSED where evidence of a later crossing has come and OPEN where none has (R46, R47, R142). -/
def Obligations.ReleasePresentsTheDataOfK : Prop :=
  ∀ (s : State) (n : Nat), s.quiet = true → s.dev.windowed = true → s.dev.keeper.released = false → s.dev.trunkStopped = false →
    s.dev.alignLanes = [n] → s.dev.runs (laneBase n) = true → s.dev.proving (laneBase n) = false →
    s.dev.blkState n = blkLocked → (s.dev.lane n).gaps = [] → (s.dev.lane n).portDlv.getLsbD 0 = false →
    let k := crossSub s.dev.now s.dev.latR
    Completes (.release []) s fun e =>
      e.keeper = { s.dev.keeper with released := true } ∧
      (e.lane n).held = (s.dev.lane n).held.filter (fun h => h.cross != k) ∧
      e.fld (laneBase n) Reg.ALIGN_STATUS.LAST =
        (match (s.dev.lane n).evidence with | some j => if crossBefore k j then 0 else 1 | none => 1) ∧
      OnlyParts [.regs, .keeper, .lanes] s.dev e ∧ OnlyRegs [laneBase n + Reg.ALIGN_STATUS.LAST.off] s.dev e

/-- A fabric cycle that a tile takes part in, with any faults of its tally units (R180, R182 to R185): every flip-flop captures its next
value and every tally unit takes its next state; the units in use that then assert RES_ERR are counted, set TILE_EVENT.RES_ERR, and the
lowest of them enters the log while it is free. Residues that agree with their operands predict every result: a unit without a fault never
asserts RES_ERR, and one whose P has any single bit wrong asserts it (R184). The model's choices here are log entries 113 and 114. -/
def Obligations.ResidueErrorsAreCountedAndLogged : Prop :=
  (∀ (s : State) (c : Fin 256) (upper : Bool) (slips : List (Fin 24 × BitVec 56)), s.quiet = true →
    let t := c.val * 2 + bit01 upper
    let b := columnBase (2 + bit01 upper * 2) c
    let errs := (List.range 24).filter fun u => s.dev.tallyRuns t u && (s.dev.tallyNext slips t u).err
    t ∈ s.dev.tickingTiles →
      Completes (.resErr c upper slips) s fun e =>
        (∀ u : Fin 24, e.tallyAt t u = s.dev.tallyNext slips t u) ∧
        (∀ line : Fin 864, e.fabric.flops.num (lineKey t line) = s.dev.lineNext t line) ∧
        (s.dev.ust b ≠ .off →
          Counted b Reg.TALLY_RES_COUNT.COUNT errs.length s.dev e ∧
          (errs ≠ [] → e.fld b Reg.TILE_EVENT.RES_ERR = 1) ∧
          (s.dev.fld b Reg.TALLY_RES_LOG.VALID = 1 ∨ errs = [] →
            e.reg (b + Reg.TALLY_RES_LOG.off) = s.dev.reg (b + Reg.TALLY_RES_LOG.off)) ∧
          (s.dev.fld b Reg.TALLY_RES_LOG.VALID = 0 → ∀ u, errs.head? = some u →
            e.fld b Reg.TALLY_RES_LOG.VALID = 1 ∧ e.fld b Reg.TALLY_RES_LOG.UNIT = u ∧
            e.fld b Reg.TALLY_RES_LOG.MODE = tallyModeCode (s.dev.tallySetupAt t u).mode ∧
            e.fld b Reg.TALLY_RES_LOG.CROSS = s.dev.now % 2 ^ 16))) ∧
  (∀ (s : State) (c : Fin 256) (upper : Bool) (slips : List (Fin 24 × BitVec 56)), s.quiet = true →
    (∀ g : Fin 16, s.dev.groupTicks g = false) →
    Completes (.resErr c upper slips) s fun e => e = s.dev) ∧
  ∀ (u : TallySetup) (t : TallyRec) (i : TallyInput),
    t.rp = residue t.p.toInt → t.rm = residue t.m → t.rmc = residue (signedOf t.mc 56) →
    (∀ r, t.rc = some r → r = residue (u.valC t.c) ∧ u.mode ≠ .compare) →
    let t' := u.cycle t i 0
    t'.err = false ∧ t'.rp = residue t'.p.toInt ∧ t'.rm = residue t'.m ∧ t'.rmc = residue (signedOf t'.mc 56) ∧
      ∀ k : Fin 56, (u.cycle t i (1#56 <<< k.val)).err = true

/-! ## Units, sorts and galleys -/

/-- The state table of R67 for the sorts whose change of state has no other effect: a write of ENABLE starts a stopped unit, readiness makes it
RUNNING, or DEGRADED while a loss stands, a write of DRAIN_REQ or one that clears ENABLE makes it drain, which clears ENABLE, and emptiness stops
it and clears DRAIN_REQ. Beside the unit's CTRL, only STATE and EVENT registers change. A unit of those sorts, the movers and the serial ports
apart, whose DRAIN_LIMIT has run out stops with DRAIN_EXPIRED, and one that is RESET while it runs or is FAULTED, with no standing cause, stops
with FAULT, ENABLE and DRAIN_REQ cleared and every register that RESET returns at its reset value (R76, R68). -/
def Obligations.SortsFollowTheStateTable : Prop :=
  (∀ (s : State) (path : Fin 8) (b : Nat), s.quiet = true → b ∈ plainSorts → s.dev.units.user.look b = none →
    (s.dev.reached path (ctrlAddr b) = true → s.dev.fld b Reg.CTRL.RESET = 0 → s.dev.ust b = .stopped →
      s.dev.fld b Reg.CTRL.ENABLE = 0 →
      Completes (.unitEnable path b) s fun e =>
        e.ust b = .starting ∧ e.fld b Reg.CTRL.ENABLE = 1 ∧ e.answered path stOk 0 ∧ OnlyParts [.regs, .ctl, .units] s.dev e ∧
        OnlyStates [ctrlAddr b] s.dev e) ∧
    (s.dev.ust b = .starting →
      Completes (.unitReady b) s fun e =>
        e.ust b = (if s.dev.units.loss.mem b then .degraded else .running) ∧ OnlyParts [.regs] s.dev e ∧
        OnlyStates [] s.dev e) ∧
    (∀ req : Bool, s.dev.reached path (ctrlAddr b) = true → s.dev.fld b Reg.CTRL.RESET = 0 →
      s.dev.ust b = .starting ∨ s.dev.ust b = .running ∨ s.dev.ust b = .degraded →
      s.dev.fld b Reg.CTRL.ENABLE = 1 → s.dev.fld b Reg.CTRL.DRAIN_REQ = 0 →
      Completes (.drainReq path b req) s fun e =>
        e.ust b = .draining ∧ e.fld b Reg.CTRL.ENABLE = 0 ∧ e.fld b Reg.CTRL.DRAIN_REQ = bit01 req ∧ e.answered path stOk 0 ∧
        OnlyParts [.regs, .ctl, .units] s.dev e ∧ OnlyStates [ctrlAddr b] s.dev e) ∧
    (s.dev.ust b = .draining → s.dev.workLeft b = false →
      Completes (.unitEmpty b) s fun e =>
        e.ust b = .stopped ∧ e.fld b Reg.CTRL.DRAIN_REQ = 0 ∧ OnlyParts [.regs, .units] s.dev e ∧
        OnlyStates [ctrlAddr b] s.dev e)) ∧
  ∀ (s : State) (path : Fin 8) (b : Nat), s.quiet = true → b ∈ [pdBase, damperBase, cryptoBase] →
    s.dev.units.user.look b = none →
    (s.dev.ust b = .draining → s.dev.fld b Reg.DRAIN_LIMIT.LIMIT ≠ 0 →
      s.dev.units.drainTick.num b + s.dev.fld b Reg.DRAIN_LIMIT.LIMIT ≤ s.dev.tick →
      Completes (.drainLimitExpiry b) s fun e =>
        e.ust b = .stopped ∧ e.fld b Reg.FAULT.DRAIN_EXPIRED = 1 ∧ e.fld b Reg.CTRL.DRAIN_REQ = 0 ∧
        OnlyParts [.regs, .units] s.dev e ∧ OnlyStates [ctrlAddr b, b + Reg.FAULT.START_FAIL.off] s.dev e) ∧
    (s.dev.reached path (ctrlAddr b) = true → s.dev.ust b = .running ∨ s.dev.ust b = .faulted →
      s.dev.units.standing.num b = 0 → s.dev.units.proofEnds.mem b = false →
      Completes (.unitReset path b false) s fun e =>
        e.ust b = .stopped ∧ e.reg (b + Reg.FAULT.START_FAIL.off) = 0 ∧ e.fld b Reg.CTRL.ENABLE = 0 ∧
        e.fld b Reg.CTRL.DRAIN_REQ = 0 ∧ (∀ a, resettable b a = true → e.reg a = resetValue a) ∧ e.answered path stOk 0 ∧
        OnlyParts [.regs, .ctl, .units, .proof] s.dev e)

/-- GALLEY_STEP_ADVANCE at the end of a galley's sequence (R72): when every child of the last step of a start is done and none
has faulted, the galley runs; when a child has faulted, it returns to STOPPED with ENABLE cleared; when every child has stopped at
the end of a drain, it is STOPPED. The sequence is over in each case. -/
def Obligations.GalleySequenceEnds : Prop :=
  ∀ (s : State) (b : Nat) (q : GSeq), s.quiet = true → b ∈ plainGalleys → s.dev.domainOn 1 = true →
    s.dev.units.seq.look b = some q →
    let step := (s.dev.steps b).getD q.step []
    let bad (c : Nat) : Bool := decide (s.dev.stateOf c = .faulted) && !(unitOf c).isPrivileged
    (q.drain = false → step.all (s.dev.childDone false) = true → s.dev.ust b = .starting →
      (step.any bad = false → (s.dev.steps b).length ≤ q.step + 1 →
        Completes (.galleyStepAdvance b) s fun e =>
          e.ust b = (if s.dev.units.loss.mem b then .degraded else .running) ∧ e.units.seq.look b = none ∧
          OnlyParts [.regs, .units] s.dev e ∧ OnlyStates [] s.dev e) ∧
      (step.any bad = true →
        Completes (.galleyStepAdvance b) s fun e =>
          e.ust b = .stopped ∧ e.fld b Reg.CTRL.ENABLE = 0 ∧ e.units.seq.look b = none ∧
          OnlyParts [.regs, .units] s.dev e ∧ OnlyStates [ctrlAddr b] s.dev e)) ∧
    (q.drain = true → q.step = 0 → step.all (s.dev.childDone true) = true →
      (s.dev.children b).all (fun c => s.dev.childDone true c.2) = true → s.dev.ust b = .draining →
      Completes (.galleyStepAdvance b) s fun e =>
        e.ust b = .stopped ∧ e.fld b Reg.CTRL.DRAIN_REQ = 0 ∧ e.units.seq.look b = none ∧
        OnlyParts [.regs, .units] s.dev e ∧ OnlyStates [ctrlAddr b] s.dev e)

/-- The proof fields of a sort's CTRL are stored while it is STOPPED, for a depth it implements; a change in another state or to another depth
leaves them and sets EVENT.CTRL_REJECT (R71). A write of VERSION_SEL is honoured only while the unit is OFF or STOPPED, and only for an
implemented major at a minor it reaches: the unit then presents that major at the highest minor it implements; any other write sets VER_REJECT
alone (R78). -/
def Obligations.ProofAndVersionFieldsChangeAtRest : Prop :=
  (∀ (s : State) (path : Fin 8) (b : Nat) (en : Bool) (depth : Fin 4), s.quiet = true →
    (unitOf b).blk ≠ .kryup → (unitOf b).blk ≠ .monitor → b ≠ rootBase → s.dev.isGalley b = false →
    s.dev.reached path (ctrlAddr b) = true → s.dev.fld b Reg.CTRL.RESET = 0 → s.dev.fld b Reg.CTRL.DRAIN_REQ = 0 →
    (s.dev.ust b = .stopped → bitOf (unitOf b).proofDepths depth = true →
      Completes (.proofSet path b en depth) s fun e =>
        e.fld b Reg.CTRL.PROOF_EN = bit01 en ∧ e.fld b Reg.CTRL.PROOF_DEPTH = depth ∧
        e.fld b Reg.CTRL.ENABLE = s.dev.fld b Reg.CTRL.ENABLE ∧ e.answered path stOk 0 ∧
        OnlyParts [.regs, .ctl] s.dev e ∧ OnlyRegs [ctrlAddr b] s.dev e) ∧
    (s.dev.ust b ≠ .stopped ∨ bitOf (unitOf b).proofDepths depth = false → s.dev.ust b ≠ .draining →
      ¬(s.dev.fld b Reg.CTRL.PROOF_EN = bit01 en ∧ s.dev.fld b Reg.CTRL.PROOF_DEPTH = depth) →
      Completes (.proofSet path b en depth) s fun e =>
        e.fld b Reg.EVENT.CTRL_REJECT = 1 ∧ e.answered path stOk 0 ∧ OnlyParts [.regs, .ctl] s.dev e ∧
        OnlyRegs [b + Reg.EVENT.CTRL_REJECT.off] s.dev e)) ∧
  ∀ (s : State) (path : Fin 8) (b : Nat) (w : Word), s.quiet = true →
    s.dev.reached path (b + Reg.VERSION_SEL.SEL_MINOR.off) = true →
    (∀ m, (unitOf b).minorOf (fget w Reg.VERSION_SEL.SEL_MAJOR) = some m → fget w Reg.VERSION_SEL.SEL_MINOR ≤ m →
      s.dev.atRest b = true →
      Completes (.versionSelWrite path b w) s fun e =>
        e.fld b Reg.VERSION_SEL.SEL_MAJOR = fget w Reg.VERSION_SEL.SEL_MAJOR ∧ e.fld b Reg.VERSION_SEL.SEL_MINOR = m ∧
        e.fld b Reg.UNIT_VER.MAJOR = fget w Reg.VERSION_SEL.SEL_MAJOR ∧ e.fld b Reg.UNIT_VER.MINOR = m ∧
        e.answered path stOk 0 ∧ OnlyParts [.regs, .ctl] s.dev e) ∧
    ((∀ m, (unitOf b).minorOf (fget w Reg.VERSION_SEL.SEL_MAJOR) = some m →
        ¬(fget w Reg.VERSION_SEL.SEL_MINOR ≤ m ∧ s.dev.atRest b = true)) →
      Completes (.versionSelWrite path b w) s fun e =>
        e.fld b Reg.EVENT.VER_REJECT = 1 ∧ e.answered path stOk 0 ∧ OnlyParts [.regs, .ctl] s.dev e ∧
        OnlyRegs [b + Reg.EVENT.VER_REJECT.off] s.dev e)

/-- The signals of the fabric to the shell of a user sort that stands directly under the forme (R79): U_READY completes a start once the
unit is released, U_EMPTY ends a drain, U_LOSS degrades a running unit, U_EVENT sets EVENT[15:9], and a bit of U_FAULT[7:4] sets its bit of
FAULT[15:12] and does not stop the unit. The model's choice here is log entry 23. -/
def Obligations.ShellTakesTheFabricSignals : Prop :=
  ∀ (s : State) (die : Fin 2) (c : Fin 256) (k : Fin 2), s.quiet = true →
    let b := shellBase die c k
    s.dev.isUser b = true → s.dev.isGalley b = false → s.dev.parent b = some formeBase →
    (s.dev.ust b = .starting → (s.dev.user b).rel = .released →
      Completes (.uReady b) s fun e =>
        e.ust b = (if s.dev.units.loss.mem b then .degraded else .running) ∧ OnlyParts [.regs] s.dev e ∧
        OnlyStates [] s.dev e) ∧
    (s.dev.ust b = .draining →
      Completes (.uEmpty b) s fun e =>
        e.ust b = .stopped ∧ e.fld b Reg.CTRL.DRAIN_REQ = 0 ∧ OnlyParts [.regs, .units] s.dev e ∧
        OnlyStates [ctrlAddr b] s.dev e) ∧
    (s.dev.ust b = .running →
      Completes (.uLoss b true) s fun e =>
        e.ust b = .degraded ∧ e.units.loss.mem b = true ∧ OnlyParts [.regs, .units] s.dev e ∧ OnlyStates [] s.dev e) ∧
    (∀ bits : BitVec 7,
      Completes (.uEvent b bits) s fun e =>
        e.reg (b + Reg.EVENT.FAULT.off) = s.dev.reg (b + Reg.EVENT.FAULT.off) ||| BitVec.ofNat 32 (bits.toNat * 2 ^ 9) ∧
        OnlyParts [.regs] s.dev e ∧ OnlyRegs [b + Reg.EVENT.FAULT.off] s.dev e) ∧
    (∀ bits : BitVec 8, bits ≠ 0 → bits.toNat % 16 = 0 → s.dev.ust b ≠ .off →
      Completes (.uFault b bits) s fun e =>
        e.reg (b + Reg.FAULT.START_FAIL.off) =
          s.dev.reg (b + Reg.FAULT.START_FAIL.off) ||| BitVec.ofNat 32 (bits.toNat * 2 ^ 8) ∧
        e.fld b Reg.EVENT.FAULT = 1 ∧ e.ust b = s.dev.ust b ∧ OnlyParts [.regs] s.dev e ∧
        OnlyRegs [b + Reg.FAULT.START_FAIL.off, b + Reg.EVENT.FAULT.off] s.dev e)

/-! ## Control space -/

/-- Accesses to registers that have no row of their own. A write of a UCB register stores its RW bits and clears the W1C bits written 1; one
of a KW register by a path other than Kryup's ends DENIED, is logged and changes no register of the target; a read clears RC fields and
answers their value (R6, R7, R8, R92). The model's choices here are log entries 16 and 17. -/
def Obligations.RegisterAccessesFollowTheirCodes : Prop :=
  ∀ (s : State) (path : Fin 8) (addr w : Word) (m : AccessMeet) (u : Machine.Unit) (r : RegRow), s.quiet = true →
    s.dev.ctl.debugPend.has path = false → winRegister path addr.toNat = false → logAddr addr.toNat = false →
    s.dev.reached path addr.toNat = true → unitAt addr.toNat = some u → u.rowAt (addr.toNat - u.base) = some r →
    let off := addr.toNat - u.base
    let shown (i : Nat) : Bool := bitOf ((s.dev.presented u off).getD 0) i
    (u.kwAt off = false → off < 0x2C → off ≠ Reg.CTRL.ENABLE.off → off ≠ Reg.VERSION_SEL.SEL_MINOR.off →
      Completes (.registerWrite path addr w m) s fun e =>
        (∀ i : Fin 32, (e.reg addr.toNat).getLsbD i =
          ((if bitOf r.rw i && shown i then (fixReserved u off w).getLsbD i else (s.dev.reg addr.toNat).getLsbD i) &&
            !(bitOf r.w1c i && shown i && w.getLsbD i))) ∧
        e.answered path stOk 0 ∧ OnlyParts [.regs, .ctl] s.dev e ∧ OnlyRegs [addr.toNat] s.dev e) ∧
    (u.kwAt off = true → path ≠ 7 → s.dev.latched causeKwWrite = true →
      Completes (.registerWrite path addr w m) s fun e =>
        e.answered path stDenied 0 ∧ (e.reg (rootBase + Reg.ACC_ERR.off)).getLsbD path = true ∧
        OnlyParts [.regs, .ctl, .kryup] s.dev e ∧
        OnlyRegs (accErrRegs ++ [kryupBase + Reg.CAUSE_PEND.LATCH.off, kryupBase + Reg.KRY_STATUS.HOLD.off]) s.dev e) ∧
    (u.blk ∉ [.keeper, .clkgen, .serial, .shell] → s.dev.derived u off = none →
      Completes (.rcFieldRead path addr m) s fun e =>
        (∀ i : Fin 32, (e.reg addr.toNat).getLsbD i = ((s.dev.reg addr.toNat).getLsbD i && !bitOf r.rc i)) ∧
        e.answered path stOk (s.dev.reg addr.toNat &&& ~~~BitVec.ofNat 32 r.w1p &&&
          BitVec.ofNat 32 ((s.dev.presented u off).getD 0)) ∧
        OnlyParts [.regs, .ctl] s.dev e ∧ OnlyRegs [addr.toNat] s.dev e)

/-- The arbiter and the paths. Of the accesses that can be performed it grants the one at the head of the path that comes next after the path
granted last, and performs it as R6 and R7 say; where none can be, nothing changes. A fabric master port whose requests are live takes one while fewer
than 4 of its own wait, with the wake that it raises. An access whose target has not answered after 80 Ticks ends TIMEOUT and is logged. A wake into a unit whose domain is off turns
the domain on, and one into a column whose clocks are gated has its group join the admission queue. While EVT_EN is 1, a notice is queued when
the root begins to raise its event and again after EVT_REPEAT x 64 Ticks; its sequence number is given when it is sent (R87, R88, R90, R93,
R413). The model's choices here are log entries 13, 18, 19 and 131. -/
def Obligations.ArbiterAndPaths : Prop :=
  (∀ s : State, s.quiet = true →
    let d := s.dev
    let turn (path : Nat) : Nat := (path + 7 * (d.ctl.lastPath + 1)) % 8
    (∀ a : Access, d.nextGrant = some a →
      a ∈ d.ctl.waiting ∧ d.grantable a.path a.addr = true ∧
      (∀ b : Access, d.headOf b.path = some b → b.path < 8 → d.grantable b.path b.addr = true → turn a.path ≤ turn b.path)) ∧
    (∀ (a : Access) (m : AccessMeet) (u : Machine.Unit) (r : RegRow), d.nextGrant = some a → a.lane = none →
      d.admission a.path a.addr = stOk → d.implemented a.path a.addr = true → d.turnedAway a.addr = false →
      winRegister a.path a.addr = false → logAddr a.addr = false → unitAt a.addr = some u → u.rowAt (a.addr - u.base) = some r →
      let off := a.addr - u.base
      let shown (i : Nat) : Bool := bitOf ((d.presented u off).getD 0) i
      let granted (w : Word) (e : Dev) : Prop :=
        e.ctl.waiting = d.ctl.waiting.eraseP (fun b => b.path == a.path) ∧ e.ctl.lastPath = a.path ∧ e.answered a.path stOk w ∧
        OnlyParts [.regs, .ctl] d e ∧ OnlyRegs [a.addr] d e
      (a.write = false → u.blk ∉ [.keeper, .clkgen, .serial, .shell] → d.derived u off = none →
        Completes (.ctrlGrant m) s fun e =>
          (∀ i : Fin 32, (e.reg a.addr).getLsbD i = ((d.reg a.addr).getLsbD i && !bitOf r.rc i)) ∧
          granted (d.reg a.addr &&& ~~~BitVec.ofNat 32 r.w1p &&& BitVec.ofNat 32 ((d.presented u off).getD 0)) e) ∧
      (a.write = true → u.kwAt off = false → off < 0x2C → off ≠ Reg.CTRL.ENABLE.off → off ≠ Reg.VERSION_SEL.SEL_MINOR.off →
        Completes (.ctrlGrant m) s fun e =>
          (∀ i : Fin 32, (e.reg a.addr).getLsbD i =
            ((if bitOf r.rw i && shown i then (fixReserved u off a.data).getLsbD i else (d.reg a.addr).getLsbD i) &&
              !(bitOf r.w1c i && shown i && a.data.getLsbD i))) ∧
          granted 0 e)) ∧
    (d.nextGrant = none → ∀ m : AccessMeet, Completes (.ctrlGrant m) s fun e => e = d) ∧
    (∀ (port : Fin 4) (write : Bool) (addr : BitVec 30) (data : Word),
      d.portLive (portTiles (quadrantGroup port)) portMaster = true →
      (d.ctl.waiting.filter fun a => a.path == 2 + port.val).length + bit01 (d.ctl.debugPend.has (2 + port)) < 4 →
      Completes (.fmReq port write addr data) s fun e =>
        e.ctl = { d.ctl with waiting := d.ctl.waiting ++
          [{ path := 2 + port, write := write, addr := 4 * addr.toNat, data := data, since := d.tick }] } ∧
        OnlyParts [.regs, .ctl, .power] d e ∧
        (d.admission (2 + port) (4 * addr.toNat) ≠ stOk ∨ d.awake (2 + port) (4 * addr.toNat) = true → OnlyParts [.ctl] d e)) ∧
    (∀ (path : Fin 8) (a : Access), a.since + 80 ≤ d.tick → a.lane = none →
      let ended (e : Dev) : Prop :=
        e.answered path stTimeout 0 ∧ (e.reg (rootBase + Reg.ACC_ERR.off)).getLsbD path = true ∧ OnlyParts [.regs, .ctl] d e ∧
        OnlyRegs accErrRegs d e
      (d.ctl.debugPend.look path = some a →
        Completes (.accessTimeout path) s fun e =>
          ended e ∧ e.ctl.debugPend.look path = none ∧ e.ctl.waiting = d.ctl.waiting) ∧
      (d.ctl.debugPend.look path = none → d.headOf path = some a → d.grantable path a.addr = false →
        Completes (.accessTimeout path) s fun e =>
          ended e ∧ e.ctl.debugPend = d.ctl.debugPend ∧ e.ctl.waiting = d.ctl.waiting.eraseP fun b => b.path == path.val)) ∧
    let pdAt (j : Nat) : Nat := pdBase + (Reg.PD.ON.elem j).off
    (∀ (unit k : Nat), (unitOf unit).blk ≠ .shell → (unitOf unit).domain = some k → 2 ≤ k → d.pd k = pdOff →
      (domainPrereqs k).all d.domainOn = true →
      Completes (.clockGateWake unit) s fun e =>
        e.pd k = pdRamping ∧ e.fld pdBase (Reg.PD.HELD.elem k) = 1 ∧ e.fld pdBase (Reg.PD.ON.elem k) = 1 ∧
        (∀ j : Fin 40, d.pd j ≠ pdOff → e.reg (pdAt j) = d.reg (pdAt j)) ∧ OnlyParts [.regs, .power] d e ∧
        OnlyRegs ((List.range 40).map pdAt) d e) ∧
    ∀ (upper : Bool) (c : Fin 256),
      let l := 2 + bit01 upper * 2
      let g := groupOf c
      (∀ k, (unitOf (columnBase l c)).domain = some k → d.pd k ≠ pdOff) → d.logicOn g = true → d.groupClock g = false →
      d.power.admission.contains g = false →
      Completes (.clockGateWake (columnBase l c)) s fun e =>
        e.power = { d.power with admission := d.power.admission ++ [g] } ∧ OnlyParts [.power] d e) ∧
  ∀ s : State, s.dev.kryup.due = [] → s.dev.clk.changeHeld = false → s.dev.clk.loopsDown = [] →
    let d := s.dev
    let evt := 128 + d.fld rootBase Reg.IRQ_CTRL.EVT_LANE
    let body : Payload := BitVec.ofNat 64 ((d.eventWord rootBase).toNat + d.fld rootBase Reg.STATE.STATE * 2 ^ 32)
    let notice : TxMsg := { msg := { typ := msgEvent, stamp := d.now % 2 ^ 16, body := [body] }, orig := .eventNotice }
    let noticed (e : Dev) : Prop :=
      e.ctl = { d.ctl with eventTick := d.tick, rootRaised := true } ∧ e.link evt = { d.link evt with txQueue := (d.link evt).txQueue ++ [notice] } ∧
      OnlyParts [.ctl, .links] d e
    d.fld rootBase Reg.IRQ_CTRL.EVT_EN = 1 → d.rootRaises = true → d.carries evt msgEvent = true →
    (d.ctl.rootRaised = true → d.fld rootBase Reg.IRQ_CTRL.EVT_REPEAT ≠ 0 →
      d.ctl.eventTick + d.fld rootBase Reg.IRQ_CTRL.EVT_REPEAT * 64 ≤ d.tick → Completes .eventRepeat s noticed) ∧
    (d.ctl.rootRaised = false → Completes .eventRepeat s noticed)

/-- The indirect windows. A WIN_DATA access of the ring directory answers a word of the addressed descriptor, or writes word 0 of a CLOSED
ring's, and a write of words 2 to 7 only sets DIR_REJECT; one of the tally tree answers SUM, STALE and NEAR_FULL of the addressed node; one
of the test window reads, or replaces, 32 bits of an error-free row word with STAT 0; each advances WIN_ADDR under INC (R84, R256, R261,
R288). The model's choice here is log entry 14. -/
def Obligations.WindowsReachTheirStores : Prop :=
  ∀ (s : State) (path : Fin 8) (w : Word), s.quiet = true → s.dev.ctl.debugPend.has path = false → s.dev.domainOn 6 = true →
    let inc (win : Nat) : Bool := (s.dev.reg (winSet win path + 8)).getLsbD 0
    let next (win : Nat) (e : Dev) : Prop :=
      e.winAddr win path = if inc win then winNext win (s.dev.winAddr win path) else s.dev.winAddr win path
    let regs (win : Nat) : List Nat := [winSet win path, winSet win path + 8]
    (∀ (r : Fin 262144) (i : Fin 8), s.dev.reached path (winDataAddr winDir path) = true →
      s.dev.winAddr winDir path = 8 * r + i →
      Completes (.dirWinAccess path false w) s (fun e =>
        e.answered path stOk (BitVec.ofNat 32 ((s.dev.desc r).bits / 2 ^ (32 * i.val))) ∧ next winDir e ∧
        OnlyParts [.regs, .ctl] s.dev e ∧ OnlyRegs (regs winDir) s.dev e) ∧
      ((s.dev.desc r).state = .closed → i = 0 →
        Completes (.dirWinAccess path true w) s fun e =>
          e.desc r = { s.dev.desc r with base := (s.dev.desc r).base / 2 ^ 32 * 2 ^ 32 + w.toNat } ∧ e.answered path stOk 0 ∧
          next winDir e ∧ OnlyParts [.regs, .ctl, .rings] s.dev e ∧ OnlyRegs (regs winDir) s.dev e) ∧
      ((s.dev.desc r).state ≠ .closed ∨ 2 ≤ i →
        Completes (.dirWinAccess path true w) s fun e =>
          e.fld (ringBase (ringEngine r)) Reg.ENG_EVENT.DIR_REJECT = 1 ∧ e.answered path stOk 0 ∧ next winDir e ∧
          OnlyParts [.regs, .ctl] s.dev e ∧
          OnlyRegs ((ringBase (ringEngine r) + Reg.ENG_EVENT.DIR_REJECT.off) :: regs winDir) s.dev e)) ∧
    (∀ (g : Fin 16) (level : Fin 5) (node : Fin 16384) (rebuilt : Bool),
      s.dev.reached path (winDataAddr winTree path) = true →
      s.dev.winAddr winTree path = g * 2 ^ 19 + level * 2 ^ 16 + node →
      let x := s.dev.treeNode g level node rebuilt
      Completes (.treeWinRead path rebuilt) s fun e =>
        e.answered path stOk (BitVec.ofNat 32 (x.1 + bit01 x.2.1 * 2 ^ 30 + bit01 x.2.2 * 2 ^ 31)) ∧ next winTree e ∧
        OnlyParts [.regs, .ctl] s.dev e ∧ OnlyRegs (regs winTree) s.dev e) ∧
    (∀ (x : Fin (2 ^ 25)) (i : Fin 8), s.dev.reached path (winDataAddr winTest path) = true →
      s.dev.winAddr winTest path = x * 32 + i * 4 → s.dev.baseBarred false x = false → s.dev.relieved (wordBank x) = none →
      s.dev.mem.err.look x = none →
      Completes (.testWinAccess path false w {}) s (fun e =>
        e.answered path stOk ((s.dev.wordData x).extractLsb' (32 * i) 32) ∧
        fget (e.reg (winSet winTest path + 8)) ⟨0, 1, 3⟩ = memOk ∧ next winTest e ∧ OnlyParts [.regs, .ctl] s.dev e ∧
        OnlyRegs (regs winTest) s.dev e) ∧
      Completes (.testWinAccess path true w {}) s fun e =>
        (e.wordData x).extractLsb' (32 * i) 32 = w ∧
        (∀ j : Fin 8, j ≠ i → (e.wordData x).extractLsb' (32 * j) 32 = (s.dev.wordData x).extractLsb' (32 * j) 32) ∧
        (∀ y : Nat, y / 32 ≠ x → e.mem.bytes.at y 0 = s.dev.mem.bytes.at y 0) ∧ e.answered path stOk 0 ∧
        fget (e.reg (winSet winTest path + 8)) ⟨0, 1, 3⟩ = memOk ∧ next winTest e ∧ OnlyParts [.regs, .ctl, .mem] s.dev e ∧
        OnlyRegs (regs winTest) s.dev e)

/-- The data-space debug window: an address with a key ends KEY at once; another is issued, and its path waits for the completion, which loads
STAT and ends the access OK (R85, R94, R96). A read of a word of the memory die without an error, or of a line of LPDDR5X that verifies in
plaintext, answers the 4 bytes at the address with STAT 0, and a write replaces those 4 bytes and no other; where neither memory lies at the
address, STAT is DECODE and no memory changes. -/
def Obligations.DebugWindowIssuesAndCompletes : Prop :=
  ∀ (s : State) (path : Fin 8) (write : Bool) (w : Word), s.quiet = true →
    let d := s.dev
    let stat (e : Dev) : Nat := fget (e.reg (winSet winDebug path + 8)) ⟨0, 1, 3⟩
    let addr := d.winAddr winDebug path
    let off := dsOffset addr
    let set (e : Dev) : Prop := OnlyRange (winSet winDebug path) (winSet winDebug path + 0x10) d e
    (d.reached path (winDataAddr winDebug path) = true →
      (dsKeyOf addr ≠ 0 →
        Completes (.debugWinAccess path write w) s fun e =>
          e.answered path stOk 0 ∧ stat e = dsKey ∧ OnlyParts [.regs, .ctl] d e ∧ set e) ∧
      (dsKeyOf addr = 0 →
        Completes (.debugWinAccess path write w) s fun e =>
          e.ctl = { d.ctl with
            lastPath := path
            debugPend := d.ctl.debugPend.put path
              { path := path, write := write, addr := winDataAddr winDebug path, data := w, since := d.tick } } ∧
          OnlyParts [.ctl] d e)) ∧
    ∀ a : Access, d.ctl.debugPend.look path = some a → a.lane = none → a.path = path → dsKeyOf addr = 0 → addr % 4 = 0 →
      let ended (st : Nat) (x : Word) (e : Dev) : Prop :=
        e.answered path stOk x ∧ stat e = st ∧ e.ctl.debugPend.look path = none ∧ set e
      let p := d.physWord (off / 32)
      let v := off - extFirst
      let l := d.extLine (v / 64)
      (2 ^ 30 ≤ off → off < extFirst → ∀ f : Found,
        Completes (.debugWinDone path f) s fun e => ended dsDecode 0 e ∧ OnlyParts [.regs, .ctl] d e) ∧
      (off < 2 ^ 30 → d.baseBarred false (off / 32) = false → d.wordCheck p = memOk →
        (a.write = false →
          Completes (.debugWinDone path {}) s fun e =>
            ended dsOk ((d.wordData p).extractLsb' (8 * (off % 32)) 32) e ∧ OnlyParts [.regs, .ctl] d e) ∧
        (a.write = true →
          Completes (.debugWinDone path {}) s fun e =>
            ended dsOk 0 e ∧
            (∀ b, e.mem.bytes.at b 0 =
              if 32 * p + off % 32 ≤ b ∧ b < 32 * p + off % 32 + 4 then byteOf a.data.toNat (b - (32 * p + off % 32)) else d.mem.bytes.at b 0) ∧
            OnlyParts [.regs, .ctl, .mem] d e)) ∧
      (extFirst ≤ off → v < d.visible → d.extRefused v = false → d.keyRefused clsDebug 0 = false → d.verify 0 v l = dsOk →
        (a.write = false →
          Completes (.debugWinDone path {}) s fun e =>
            ended dsOk (l.data.extractLsb' (8 * (off % 64)) 32) e ∧ OnlyParts [.regs, .ctl] d e) ∧
        (a.write = true →
          Completes (.debugWinDone path {}) s fun e =>
            ended dsOk 0 e ∧ (∀ n, n ≠ v / 64 → e.extLine n = d.extLine n) ∧
            (∀ i : Fin 64, byteOf (e.extLine (v / 64)).data.toNat i =
              if off % 64 ≤ i ∧ i < off % 64 + 4 then byteOf a.data.toNat (i - off % 64) else byteOf l.data.toNat i) ∧
            e.verify 0 v (e.extLine (v / 64)) = dsOk ∧ OnlyParts [.regs, .ctl, .ext] d e))

/-! ## Lanes: electrical layer -/

/-- The lane group PLL (R103 to R105). A write of LG_PLL_CFG is taken while the group and its lanes rest and else sets
PLL_REJECT; a lock shows calibration, the band and the VCO frequency and begins the galley's child step; a start that has not locked
within LG_LOCK_LIMIT fails with PLL_UNLOCK; the loss of LREF is recorded, faults a running group and each of its lanes that has
power, and its return sets REF_BACK. -/
def Obligations.LaneGroupPll : Prop :=
  ∀ (s : State) (g : Fin 18), s.quiet = true →
    let b := laneGroupBase g
    let up := s.dev.ust b = .starting ∨ s.dev.ust b = .running ∨ s.dev.ust b = .degraded
    (∀ (path : Fin 8) (w : Word), s.dev.reached path (b + Reg.LG_PLL_CFG.off) = true →
      (s.dev.groupIdle g = true → s.dev.fld b Reg.UNIT_VER.MAJOR = (unitOf b).native.1 →
        Completes (.lgPllCfgWrite path g w) s fun e =>
          e.reg (b + Reg.LG_PLL_CFG.off) = w ∧ e.answered path stOk 0 ∧ OnlyParts [.regs, .ctl] s.dev e ∧
          OnlyRegs [b + Reg.LG_PLL_CFG.off] s.dev e) ∧
      (s.dev.groupIdle g = false →
        Completes (.lgPllCfgWrite path g w) s fun e =>
          e.fld b Reg.LG_EVENT.PLL_REJECT = 1 ∧ e.answered path stOk 0 ∧ OnlyParts [.regs, .ctl] s.dev e ∧
          OnlyRegs [b + Reg.LG_EVENT.PLL_REJECT.off] s.dev e)) ∧
    (∀ band : Fin 16, s.dev.ust b = .starting → s.dev.units.seq.look b = none → (s.dev.group g).boot = false →
      Completes (.lgPllLock g band) s fun e =>
        e.fld b Reg.LG_STATUS.PLL_LOCK = 1 ∧ e.fld b Reg.LG_STATUS.CAL_DONE = 1 ∧ e.fld b Reg.LG_STATUS.VCO_BAND = band ∧
        e.fld b Reg.LG_VCO_MHZ.MHZ = s.dev.vcoMHz g % 2 ^ 16 ∧ e.units.seq.look b = some { drain := false, step := 0 }) ∧
    (s.dev.ust b = .starting → s.dev.fld b Reg.LG_STATUS.PLL_LOCK = 0 →
      max (s.dev.group g).pgTick (s.dev.units.startTick.num b) + s.dev.fld b Reg.LG_LOCK_LIMIT.LIMIT ≤ s.dev.tick →
      Completes (.lgLockTimeout g) s fun e =>
        e.ust b = .faulted ∧ e.fld b Reg.FAULT.START_FAIL = 1 ∧ bitOf (e.fld b Reg.FAULT.SPECIFIC) 1 = true ∧
        e.fld b Reg.CTRL.ENABLE = 0 ∧ OnlyParts [.regs, .units] s.dev e ∧
        OnlyStates [ctrlAddr b, b + Reg.FAULT.START_FAIL.off] s.dev e) ∧
    (∀ pll : Bool, s.dev.ust b ≠ .off →
      Completes (.refLost g pll) s fun e =>
        (if pll then e.fld b Reg.LG_EVENT.PLL_UNLOCK = 1
          else (e.group g).lrefKHz = 0 ∧ e.fld b Reg.LG_STATUS.REF_PRESENT = 0 ∧ e.fld b Reg.LG_EVENT.REF_LOST = 1) ∧
        e.fld b Reg.LG_STATUS.PLL_LOCK = 0 ∧
        (up → e.ust b = .faulted ∧ ∀ i : Fin 8, s.dev.ust (laneBase (8 * g + i)) ≠ .off →
          e.ust (laneBase (8 * g + i)) = .faulted)) ∧
    (∀ kHz : Nat, (s.dev.group g).lrefKHz = 0 → s.dev.ust b ≠ .off →
      Completes (.refBack g kHz) s fun e =>
        (e.group g).lrefKHz = kHz ∧ e.fld b Reg.LG_STATUS.REF_PRESENT = 1 ∧ e.fld b Reg.LG_EVENT.REF_BACK = 1 ∧
        OnlyParts [.regs, .groups] s.dev e ∧
        OnlyRegs [b + Reg.LG_STATUS.REF_PRESENT.off, b + Reg.LG_EVENT.REF_BACK.off] s.dev e)

/-- The receiver's signal (R109, R110, R113, R131). LOS asserting, or the CDR unlocking, on a locked lane sets its event, takes block lock back
to HUNT, counts the loss and ends the version in force; LOS clearing and the CDR locking set theirs, the latter with the CTLE setting that an
adapted start found; a start that its limit ends fails with the cause that stands first. Adaptation moves by single steps (R114 to R117). The
integrator of a free tap of an adapting hit lane, or of DLEV, adds up signs, and at 2^(8 + MU) it returns to 0 and moves its tap one LSB, which
stops at its limit and sets TAP_RAIL; a CTLE step in service, at most one each 2^24 bits, moves PEAK by one within its range; SNAP captures the
taps and DLEV; DFE_LOAD sets a frozen tap within its range and else sets TAP_REJECT. The model's choices here are log entries 109 and 110. -/
def Obligations.ReceiverSignalAndAdaptation : Prop :=
  (∀ (s : State) (n : Fin 144), s.quiet = true → s.dev.ust (laneBase n) ≠ .off →
    let b := laneBase n
    let lost (e : Dev) : Prop :=
      e.blkState n = blkHunt ∧ Counted b Reg.LOCK_LOSS_COUNT.COUNT 1 s.dev e ∧ e.fld b Reg.BLK_EVENT.LOCK_LOST = 1 ∧
      e.version n = 0 ∧ e.adapting n = false ∧ (e.lane n).eb = [] ∧
      OnlyParts [.regs, .lanes, .links, .mem] s.dev e
    let locked : Prop :=
      s.dev.proofDepth b = none ∧ s.dev.blkState n = blkLocked ∧ s.dev.fld b Reg.BLK_CTRL.FORCE_MANUAL = 0 ∧
      (s.dev.link n).txQueue = []
    (s.dev.fld b Reg.LANE_STATUS.LOS = 0 → locked →
      Completes (.losSet n) s fun e =>
        e.fld b Reg.LANE_STATUS.LOS = 1 ∧ e.fld b Reg.LANE_EVENT.LOS_SET = 1 ∧ lost e) ∧
    (s.dev.fld b Reg.LANE_STATUS.LOS = 1 →
      Completes (.losClear n) s fun e =>
        e.fld b Reg.LANE_STATUS.LOS = 0 ∧ e.fld b Reg.LANE_EVENT.LOS_CLEAR = 1 ∧ OnlyParts [.regs, .lanes] s.dev e ∧
        OnlyRegs [b + Reg.LANE_STATUS.LOS.off, b + Reg.LANE_EVENT.LOS_SET.off, b + Reg.BLK_STATE.STATE.off] s.dev e) ∧
    (∀ peak : Fin 32, s.dev.fld b Reg.LANE_STATUS.CDR_LOCK = 0 → s.dev.groupLocked n = true →
      Completes (.cdrLock n peak) s fun e =>
        e.fld b Reg.LANE_STATUS.CDR_LOCK = 1 ∧
        e.fld b Reg.CTLE_STATUS.PEAK = (if s.dev.ust b = .starting ∧ (s.dev.fld b Reg.CTLE_CTRL.MODE = 1 ∨
          s.dev.fld b Reg.CTLE_CTRL.MODE = 2) then peak.val else s.dev.fld b Reg.CTLE_STATUS.PEAK) ∧
        OnlyParts [.regs] s.dev e ∧
        OnlyRegs [b + Reg.LANE_STATUS.LOS.off, b + Reg.CTLE_STATUS.PEAK.off, b + Reg.BLK_STATE.STATE.off] s.dev e) ∧
    (s.dev.fld b Reg.LANE_STATUS.CDR_LOCK = 1 → locked →
      Completes (.cdrUnlock n) s fun e =>
        e.fld b Reg.LANE_STATUS.CDR_LOCK = 0 ∧ e.fld b Reg.LANE_EVENT.CDR_UNLOCK = 1 ∧ lost e) ∧
    (s.dev.ust b = .starting → s.dev.fld b Reg.LANE_START.LIMIT ≠ 0 → s.dev.blkState n ≠ blkSlip →
      s.dev.units.startTick.num b + (s.dev.lane n).slipTicks + s.dev.fld b Reg.LANE_START.LIMIT ≤ s.dev.tick →
      Completes (.laneStartTimeout n) s fun e =>
        e.ust b = .faulted ∧ e.fld b Reg.FAULT.START_FAIL = 1 ∧
        bitOf (e.fld b Reg.FAULT.SPECIFIC)
          (if (s.dev.lane n).losWhole then 1 else if s.dev.fld b Reg.LANE_STATUS.CDR_LOCK = 0 then 2 else 3) = true ∧
        e.blkState n = blkIdle ∧ e.version n = 0)) ∧
  ∀ (s : State) (n : Fin 128), s.quiet = true →
    let b := laneBase n
    let r := s.dev.lane n
    let tap (k : Nat) : Int := r.taps.getD (k - 1) 0
    (∀ (k : Fin 13) (gain : Int), s.dev.dfeMoves n = true → (k ≠ 0 → s.dev.frozen n k = false) →
      let sum : Int := r.integ.getD k 0 + gain
      let limit : Int := 2 ^ (8 + s.dev.fld b Reg.DFE_CTRL.MU)
      let spent : LaneRec := { r with integ := r.integ.set k 0 }
      let v : Int := tap k + if limit ≤ sum then 1 else -1
      (-limit < sum → sum < limit →
        Completes (.dfeTapStep n k gain) s fun e =>
          e.lane n = { r with integ := r.integ.set k sum } ∧ OnlyParts [.lanes] s.dev e) ∧
      (sum ≤ -limit ∨ limit ≤ sum → k ≠ 0 → -tapLimit k ≤ v → v ≤ tapLimit k →
        Completes (.dfeTapStep n k gain) s fun e =>
          e.lane n = { spent with taps := r.taps.set (k - 1) v } ∧ OnlyParts [.lanes] s.dev e) ∧
      (sum ≤ -limit ∨ limit ≤ sum → k ≠ 0 → v < -tapLimit k ∨ tapLimit k < v →
        Completes (.dfeTapStep n k gain) s fun e =>
          e.lane n = spent ∧ e.fld b (Reg.DFE_TAP.AT_LIMIT.elem (k - 1)) = 1 ∧ e.fld b Reg.LANE_EVENT.TAP_RAIL = 1 ∧
          OnlyParts [.regs, .lanes] s.dev e ∧
          OnlyRegs [b + (Reg.DFE_TAP.AT_LIMIT.elem (k - 1)).off, b + Reg.LANE_EVENT.TAP_RAIL.off] s.dev e) ∧
      (sum ≤ -limit ∨ limit ≤ sum → k = 0 →
        Completes (.dfeTapStep n k gain) s fun e =>
          e.lane n = { spent with dlev := if limit ≤ sum then min 127 (r.dlev + 1) else r.dlev - 1 } ∧
          OnlyParts [.lanes] s.dev e)) ∧
    (∀ up : Bool, s.dev.signalGood n = true → s.dev.runs b = true → s.dev.fld b Reg.CTLE_CTRL.MODE = 2 →
      (∀ t, r.ctleTick = some t → 2 ^ 24 ≤ s.dev.bitsSince n t) →
      Completes (.ctleAdaptStep (n.castLE (by decide)) up) s fun e =>
        e.fld b Reg.CTLE_STATUS.PEAK =
          (if up then min 31 (s.dev.fld b Reg.CTLE_STATUS.PEAK + 1) else s.dev.fld b Reg.CTLE_STATUS.PEAK - 1) ∧
        e.lane n = { r with ctleTick := some s.dev.tick } ∧
        OnlyParts [.regs, .lanes] s.dev e ∧ OnlyRegs [b + Reg.CTLE_STATUS.PEAK.off] s.dev e) ∧
    (∀ path : Fin 8, s.dev.reached path (b + Reg.DFE_CTRL.off) = true →
      Completes (.snap path (n.castLE (by decide))) s fun e =>
        (∀ i : Fin 12, e.fld b (Reg.DFE_TAP.VALUE.elem i) = encodeSigned (tap (i + 1)) 8 % 256 ∧
          e.fld b (Reg.DFE_TAP.AT_LIMIT.elem i) = bit01 (decide (tap (i + 1) = tapLimit (i + 1) ∨ tap (i + 1) = -tapLimit (i + 1)))) ∧
        e.fld b Reg.DFE_DLEV.DLEV = r.dlev % 2 ^ 7 ∧ e.answered path stOk 0 ∧ OnlyParts [.regs, .ctl] s.dev e ∧
        OnlyRange (b + Reg.DFE_TAP.VALUE.off) (b + Reg.DFE_DLEV.DLEV.off + 4) s.dev e) ∧
    (∀ (path : Fin 8) (k : Fin 16) (v : BitVec 8), s.dev.reached path (b + Reg.DFE_LOAD.off) = true →
      (1 ≤ k → k ≤ 12 → s.dev.frozen n k = true → -tapLimit k ≤ v.toInt → v.toInt ≤ tapLimit k →
        Completes (.dfeLoad path (n.castLE (by decide)) k v) s fun e =>
          e.lane n = { r with taps := r.taps.set (k - 1) v.toInt } ∧ e.answered path stOk 0 ∧
          OnlyParts [.regs, .ctl, .lanes] s.dev e ∧ OnlyRegs [b + Reg.DFE_LOAD.off] s.dev e) ∧
      (k = 0 ∨ 12 < k ∨ s.dev.frozen n k = false ∨ v.toInt < -tapLimit k ∨ tapLimit k < v.toInt →
        Completes (.dfeLoad path (n.castLE (by decide)) k v) s fun e =>
          e.fld b Reg.LANE_EVENT.TAP_REJECT = 1 ∧ e.answered path stOk 0 ∧ OnlyParts [.regs, .ctl] s.dev e ∧
          OnlyRegs [b + Reg.DFE_LOAD.off, b + Reg.LANE_EVENT.TAP_REJECT.off] s.dev e))

/-- Rule R120, for a trunk lane. A write of TX_FIR is stored in every state. While the transmitter runs, a valid setting is in use with MAIN
as the rest of 63, and one whose weights exceed 24 leaves the weights in use and sets FIR_REJECT. A stored setting that is not valid
makes the lane's next start fail with FIR_INVALID, and a valid one lets it begin. -/
def Obligations.FirSettingIsStoredAndApplied : Prop :=
  ∀ (s : State) (path : Fin 8) (k : Fin 16) (pre : Fin 16) (post : Fin 32), s.quiet = true →
    let d := s.dev
    let n : Fin 144 := ⟨128 + k, by omega⟩
    let b := laneBase n
    let rejected := b + Reg.LANE_EVENT.FIR_REJECT.off
    let starts : Prop := d.reached path (ctrlAddr b) = true ∧ d.ust b = .stopped ∧ (d.reg (ctrlAddr b)).toNat = 0 ∧
      d.rateOk (n.val / 8) (d.fld b Reg.LANE_CFG.TX_DIV) = true ∧ d.rateOk (n.val / 8) (d.fld b Reg.LANE_CFG.RX_DIV) = true
    let stored := d.fld b Reg.TX_FIR.PRE + d.fld b Reg.TX_FIR.POST
    (d.reached path (b + Reg.TX_FIR.off) = true →
      Completes (.txFirWrite path n pre post) s fun e =>
        e.fld b Reg.TX_FIR.PRE = pre ∧ e.fld b Reg.TX_FIR.POST = post ∧ e.answered path stOk 0 ∧
        OnlyParts [.regs, .ctl, .lanes] d e ∧ OnlyRegs [b + Reg.TX_FIR.off, rejected] d e ∧
        ((d.ust b).active = true → pre.val + post ≤ 24 →
          e.lane n = { d.lane n with firPre := pre, firPost := post } ∧ e.fld b Reg.TX_FIR.MAIN = 63 - pre - post ∧
          e.reg rejected = d.reg rejected) ∧
        ((d.ust b).active = true → 24 < pre.val + post →
          e.fld b Reg.LANE_EVENT.FIR_REJECT = 1 ∧ e.lanes = d.lanes ∧ e.fld b Reg.TX_FIR.MAIN = d.fld b Reg.TX_FIR.MAIN) ∧
        ((d.ust b).active = false → e.lanes = d.lanes ∧
          (pre.val + post ≤ 24 → e.reg rejected = d.reg rejected) ∧ (24 < pre.val + post → e.fld b Reg.LANE_EVENT.FIR_REJECT = 1))) ∧
    (starts → 24 < stored →
      Completes (.unitEnable path b) s fun e =>
        e.ust b = .faulted ∧ e.fld b Reg.FAULT.START_FAIL = 1 ∧ bitOf (e.fld b Reg.FAULT.SPECIFIC) 4 = true ∧
        e.fld b Reg.CTRL.ENABLE = 0 ∧ e.answered path stOk 0) ∧
    (starts → stored ≤ 24 →
      Completes (.unitEnable path b) s fun e =>
        e.ust b = .starting ∧ e.fld b Reg.FAULT.START_FAIL = d.fld b Reg.FAULT.START_FAIL ∧ e.answered path stOk 0)

/-- The eye monitor (R121, R122). START begins a measurement, waits behind Peal's and is refused behind software's own; a measurement that
has compared its 2^(16 + DWELL) bits, by the DWELL of its START, shows DONE and its errors, and the end of one of Peal's lets the waiting one begin. -/
def Obligations.EyeMonitorMeasures : Prop :=
  ∀ (s : State) (path : Fin 8) (n : Fin 144), s.quiet = true →
    let b := laneBase n
    let r := s.dev.lane n
    let bits := 2 ^ (16 + r.eyeDwell)
    (∀ (dwell : Fin 16) (voff : BitVec 8) (phase : BitVec 6), s.dev.reached path (b + Reg.EYE_CTRL.off) = true →
      Completes (.eyeStart path n dwell voff phase) s fun e =>
        e.fld b Reg.EYE_CTRL.DWELL = dwell ∧ e.fld b Reg.EYE_CTRL.VOFF = voff.toNat ∧
        e.fld b Reg.EYE_CTRL.PHASE = phase.toNat ∧ e.answered path stOk 0 ∧ OnlyParts [.regs, .ctl, .lanes] s.dev e ∧
        (r.eye = .idle → e.lane n = { r with eye := .software, eyeTick := s.dev.tick, eyeDwell := dwell } ∧
          e.reg (b + Reg.EYE_RESULT.off) = 0 ∧ OnlyRegs [b + Reg.EYE_CTRL.off, b + Reg.EYE_RESULT.off] s.dev e) ∧
        (r.eye = .peal → e.lane n = { r with eye := .pealHeld, eyeDwell := dwell } ∧ OnlyRegs [b + Reg.EYE_CTRL.off] s.dev e) ∧
        (r.eye = .software ∨ r.eye = .pealHeld → e.lane n = r ∧ e.fld b Reg.LANE_EVENT.EYE_REJECT = 1 ∧
          OnlyRegs [b + Reg.EYE_CTRL.off, b + Reg.LANE_EVENT.EYE_REJECT.off] s.dev e)) ∧
    (∀ errors : Nat, r.eye = .software → bits ≤ s.dev.bitsSince n r.eyeTick →
      Completes (.eyeDone n errors) s fun e =>
        e.fld b Reg.EYE_RESULT.DONE = 1 ∧ e.fld b Reg.EYE_RESULT.ERRORS = min errors (min bits (2 ^ 30 - 1)) ∧
        e.fld b Reg.LANE_EVENT.EYE_DONE = 1 ∧ e.lane n = { r with eye := .idle } ∧ OnlyParts [.regs, .lanes] s.dev e ∧
        OnlyRegs [b + Reg.EYE_RESULT.off, b + Reg.LANE_EVENT.EYE_DONE.off] s.dev e) ∧
    (∀ errors : Nat, r.eye = .pealHeld →
      Completes (.eyeDone n errors) s fun e =>
        e.lane n = { r with eye := .software, eyeTick := s.dev.tick } ∧ e.reg (b + Reg.EYE_RESULT.off) = 0 ∧ OnlyParts [.regs, .lanes] s.dev e ∧
        OnlyRegs [b + Reg.EYE_RESULT.off] s.dev e)

/-! ## Lanes: blocks -/

/-- Block lock (R129 to R133). A hunting receiver counts blocks; a valid header lengthens its run and an invalid one ends it and moves the
boundary one bit; the sixteenth invalid header of a window of 64 loses lock, with the loss counted; the hunt limit leads to SLIP, where BITSLIP
moves the boundary and REHUNT returns to HUNT; FORCE_MANUAL moves HUNT to SLIP and back; BITSLIP and REHUNT elsewhere only set BLK_REJECT. Blocks
in LOCKED and QUADs (R134, R136, R137). A block with a valid header enters the elastic buffer with its payload descrambled, here with room and
nothing read; a transmitter sends QUAD; more than 4,096 blocks without a QUAD set QUAD_MISSING; and a receiver whose memory agrees with the
transmitter's gets back each payload as it was before it was scrambled (R128). -/
def Obligations.BlockLockAndElasticBuffer : Prop :=
  (∀ (s : State) (path : Fin 8) (n : Fin 144) (p : Payload) (reads : Fin 16), s.quiet = true →
    let b := laneBase n
    let open_ : Prop := (s.dev.ust b).active = true ∧ s.dev.proofDepth b = none ∧ s.dev.signalReady n = true ∧
      s.dev.groupLocked n = true
    let bad (h : BitVec 2) : Prop := h = 0 ∨ h = 3
    (∀ h : BitVec 2, open_ → s.dev.blkState n = blkHunt →
      Completes (.blockReceive n h p reads) s fun e =>
        (bad h → e.fld b Reg.BLK_STATUS.RUN = 0 ∧
          e.fld b Reg.BLK_STATUS.OFFSET = (s.dev.fld b Reg.BLK_STATUS.OFFSET + 1) % 66 ∧
          (e.lane n).huntCount = (s.dev.lane n).huntCount + 1 ∧ OnlyParts [.regs, .lanes] s.dev e ∧
          OnlyRegs [b + Reg.BLK_STATUS.RUN.off] s.dev e) ∧
        (¬bad h → s.dev.fld b Reg.BLK_STATUS.RUN < 63 →
          e.fld b Reg.BLK_STATUS.RUN = s.dev.fld b Reg.BLK_STATUS.RUN + 1 ∧
          e.fld b Reg.BLK_STATUS.OFFSET = s.dev.fld b Reg.BLK_STATUS.OFFSET ∧ OnlyParts [.regs, .lanes] s.dev e ∧
          OnlyRegs [b + Reg.BLK_STATUS.RUN.off] s.dev e) ∧
        (¬bad h → s.dev.fld b Reg.BLK_STATUS.RUN = 63 → e.blkState n = blkLocked ∧ e.fld b Reg.BLK_EVENT.LOCK = 1)) ∧
    (∀ h : BitVec 2, open_ → s.dev.blkState n = blkLocked → bad h → 15 ≤ (s.dev.lane n).winBad → (s.dev.link n).txQueue = [] →
      s.dev.fld b Reg.BLK_CTRL.FORCE_MANUAL = 0 →
      Completes (.blockReceive n h p reads) s fun e =>
        e.blkState n = blkHunt ∧ Counted b Reg.LOCK_LOSS_COUNT.COUNT 1 s.dev e ∧ Counted b Reg.HDR_ERR_COUNT.COUNT 1 s.dev e ∧
        e.version n = 0) ∧
    (s.dev.blkState n = blkHunt → s.dev.fld b Reg.BLK_HUNT_LIMIT.LIMIT ≠ 0 →
      s.dev.fld b Reg.BLK_HUNT_LIMIT.LIMIT ≤ (s.dev.lane n).huntCount →
      Completes (.huntExpired n) s fun e =>
        e.blkState n = blkSlip ∧ e.fld b Reg.BLK_EVENT.HUNT_EXPIRED = 1 ∧ OnlyParts [.regs, .lanes] s.dev e ∧
        OnlyRegs [b + Reg.BLK_STATE.STATE.off, b + Reg.BLK_EVENT.LOCK.off] s.dev e) ∧
    (s.dev.reached path (blkCtrlAddr n) = true →
      let rejected (e : Dev) : Prop :=
        e.fld b Reg.BLK_EVENT.BLK_REJECT = 1 ∧ e.answered path stOk 0 ∧ OnlyParts [.regs, .ctl] s.dev e ∧
        OnlyRegs [b + Reg.BLK_EVENT.BLK_REJECT.off] s.dev e
      Completes (.bitslip path n) s (fun e =>
        (s.dev.blkState n = blkSlip → e.fld b Reg.BLK_STATUS.OFFSET = (s.dev.fld b Reg.BLK_STATUS.OFFSET + 1) % 66 ∧
          e.fld b Reg.BLK_STATUS.RUN = 0 ∧ e.answered path stOk 0 ∧ OnlyParts [.regs, .ctl] s.dev e ∧
          OnlyRegs [b + Reg.BLK_STATUS.RUN.off] s.dev e) ∧
        (s.dev.blkState n ≠ blkSlip → rejected e)) ∧
      Completes (.rehunt path n) s (fun e =>
        (s.dev.blkState n = blkSlip → s.dev.fld b Reg.BLK_CTRL.FORCE_MANUAL = 0 →
          e.blkState n = blkHunt ∧ (e.lane n).huntCount = 0 ∧ e.answered path stOk 0 ∧
          OnlyParts [.regs, .ctl, .lanes] s.dev e ∧ OnlyRegs [b + Reg.BLK_STATE.STATE.off] s.dev e) ∧
        (s.dev.blkState n ≠ blkSlip ∨ s.dev.fld b Reg.BLK_CTRL.FORCE_MANUAL = 1 → rejected e)) ∧
      ∀ v : Bool, Completes (.forceManualWrite path n v) s fun e =>
        e.fld b Reg.BLK_CTRL.FORCE_MANUAL = bit01 v ∧ e.answered path stOk 0 ∧
        e.blkState n = (if s.dev.fld b Reg.BLK_CTRL.FORCE_MANUAL = bit01 v then s.dev.blkState n
          else if v ∧ s.dev.blkState n = blkHunt then blkSlip
          else if !v ∧ s.dev.blkState n = blkSlip then blkHunt else s.dev.blkState n) ∧
        OnlyParts [.regs, .ctl, .lanes] s.dev e ∧
        OnlyRegs [b + Reg.BLK_CTRL.FORCE_MANUAL.off, b + Reg.BLK_STATE.STATE.off] s.dev e)) ∧
  ∀ (s : State) (n : Fin 144) (h : BitVec 2) (p : Payload), s.quiet = true →
    let b := laneBase n
    let r := s.dev.lane n
    let q := descramble r.descr p
    ((s.dev.ust b).active = true → s.dev.proofDepth b = none → s.dev.signalReady n = true → s.dev.groupLocked n = true →
      s.dev.blkState n = blkLocked → fget r.cfg Reg.LANE_CFG.RX_POL = 0 → h = 1 ∨ h = 2 → r.eb.length < 8 → r.eb.head?.any EbItem.isQuad = false → r.eb ≠ [] →
      Completes (.blockReceive n h p 0) s fun e =>
        (e.lane n).eb = r.eb ++ [.block (h == 2) q.2] ∧ (e.lane n).descr = q.1 ∧
        e.fld b Reg.BLK_STATUS.EB_OCC = r.eb.length + 1 ∧ OnlyParts [.regs, .lanes] s.dev e ∧
        OnlyRegs [b + Reg.BLK_STATUS.EB_OCC.off] s.dev e) ∧
    (s.dev.fld b Reg.LANE_STATUS.TX_ACTIVE = 1 → s.dev.looped n = false →
      Completes (.quadTransmit n) s fun e =>
        (e.link n).lastTx = some (.control (BitVec.ofNat 64 ctlQuad)) ∧ (e.link n).txCount = 0 ∧
        (∃ mem, (e.link n).line = lineBits (s.dev.txPol n) 2 (scramble mem (BitVec.ofNat 64 ctlQuad)).2) ∧
        (e.link n).txQueue = (s.dev.link n).txQueue ∧ OnlyParts [.links] s.dev e) ∧
    (∀ mem : BitVec 58, descramble mem (scramble mem p).2 = ((scramble mem p).1, p)) ∧
    (s.dev.blkState n = blkLocked → 4096 < r.sinceQuad →
      Completes (.quadMissing n) s fun e =>
        e.fld b Reg.BLK_EVENT.QUAD_MISSING = 1 ∧ e.lane n = { r with sinceQuad := r.sinceQuad - 4096 } ∧
        OnlyParts [.regs, .lanes] s.dev e ∧ OnlyRegs [b + Reg.BLK_EVENT.QUAD_MISSING.off] s.dev e)

/-! ## The Molmevo link protocol -/

/-- Control blocks between messages (R41, R47, R161, R162, R168, R174, R175). MARK is evidence of its crossing and, on the sync
lane, the sync value with MARK_ADJ added; the second of two equal ANNOUNCE blocks brings the highest common version into force;
CREDIT sets both limits; PROOF with ACTION 0x01 enters the loop where it is accepted; ALARM is stored and offered to Kryup, here with
the latch of its cause set. -/
def Obligations.ControlBlocksAct : Prop :=
  ∀ (s : State) (n : Fin 144) (p : Payload), s.quiet = true → s.dev.between n = true →
    let b := laneBase n
    let l := s.dev.link n
    (ctlType p = ctlMark → chkOk p = true → s.dev.version n ≠ 0 → s.dev.windowed = true → (s.dev.lane n).evidence = none →
      let m := bitsOf p.toNat 8 48
      Completes (.mark n p) s fun e =>
        (e.lane n).lastStamp = some m ∧ (e.lane n).evidence = some m ∧
        e.keeper.pendingSync = (if s.dev.fld keeperBase Reg.KEEP_CTRL.SYNC_SRC = 2 ∧ s.dev.fld keeperBase Reg.KEEP_CTRL.SYNC_LANE = n
          then some (((m : Int) + signedOf (s.dev.fld keeperBase Reg.MARK_ADJ.ADJ) 12) % 2 ^ 48).toNat
          else s.dev.keeper.pendingSync) ∧
        OnlyParts [.lanes, .keeper] s.dev e) ∧
    (∀ q : Payload, ctlType p = ctlAnnounce → l.lastAnn = some q → samePair q p = true → s.dev.nego n = negoAnnouncing →
      l.txQueue = [] → ∀ v, bestVersion (bitsOf p.toNat 16 8) (min l.pin (bitsOf p.toNat 8 8)) = some v →
      Completes (.announce n p) s fun e =>
        e.nego n = negoUp ∧ e.version n = v ∧ e.fld b Reg.LINK_EVENT.UP = 1 ∧
        e.fld b Reg.LINK_VER.PEER_HIGH = bitsOf p.toNat 8 8 ∧ e.fld b Reg.LINK_VER.PEER_LOW = bitsOf p.toNat 16 8 ∧
        e.fld b Reg.AGREED_FEAT.FEATURES = (l.feat &&& bitsOf p.toNat 32 32 &&& featMask v) % 2 ^ 32 ∧
        e.fld b Reg.LINK_STATE.SEEN_TX = 1 ∧ OnlyParts [.regs, .links] s.dev e ∧ OnlyWindow b s.dev e) ∧
    (ctlType p = ctlCredit → chkOk p = true → 0x11 ≤ s.dev.version n → l.mgmtWait = [] →
      Completes (.credit n p) s fun e =>
        e.link n = { l with limitF := bitsOf p.toNat 8 16, limitM := bitsOf p.toNat 24 16 } ∧ OnlyParts [.links] s.dev e) ∧
    (ctlType p = ctlProof → chkOk p = true → bitsOf p.toNat 8 8 = 1 → s.dev.agreed n featProof = true → l.txQueue = [] →
      s.dev.fld b Reg.LINK_CTRL.PROOF_ACCEPT = 1 → s.dev.fld b Reg.CTRL.PROOF_EN = 0 → s.dev.runs b = true →
      Completes (.proof n p) s fun e =>
        e.looped n = true ∧ e.fld b Reg.LINK_EVENT.PROOF_ENTERED = 1 ∧ OnlyParts [.regs, .links] s.dev e ∧
        OnlyRegs [b + Reg.LINK_STATE.LOOPED.off, b + Reg.LINK_EVENT.UP.off] s.dev e) ∧
    (ctlType p = ctlAlarm → chkOk p = true → s.dev.agreed n featAlarm = true → s.dev.latched causeRemote = true →
      Completes (.alarm n p) s fun e =>
        e.fld b Reg.ALARM_RX.CAUSE = bitsOf p.toNat 8 8 ∧ e.fld b Reg.ALARM_RX.DETAIL_LO = bitsOf p.toNat 24 24 ∧
        e.fld b Reg.LINK_EVENT.ALARM_RX = 1 ∧ e.kryup.lastTick.look causeRemote = some s.dev.tick ∧
        OnlyParts [.regs, .kryup] s.dev e)

/-- Rule R161. Of two ANNOUNCE blocks received one after the other, the second is the second of a pair exactly when HIGH, LOW and FEATURES are
equal in both (of FEATURES, the bits that are not ignored on receipt, R163), whatever SEEN is in either: the pair is then accepted, and the lane shows the partner's versions and features. An ANNOUNCE
that makes no pair leaves them and the negotiation as they are, and is the first of the next. -/
def Obligations.AnnouncePairIsAcceptedAtItsSecond : Prop :=
  ∀ (s : State) (n : Fin 144) (p : Payload), s.quiet = true → s.dev.between n = true → ctlType p = ctlAnnounce →
    s.dev.nego n ≠ negoDown → (s.dev.link n).txQueue = [] →
    let b := laneBase n
    let l := s.dev.link n
    let high (x : Payload) := bitsOf x.toNat 8 8
    let low (x : Payload) := bitsOf x.toNat 16 8
    let features (x : Payload) := bitsOf x.toNat 32 32
    let pair : Bool := match l.lastAnn with
      | some q => high q == high p && low q == low p && features q % 256 == features p % 256
      | none => false
    Completes (.announce n p) s fun e =>
      (e.link n).lastAnn = some p ∧ OnlyParts [.regs, .links] s.dev e ∧ OnlyWindow b s.dev e ∧
      (pair = true →
        e.fld b Reg.LINK_VER.PEER_HIGH = high p ∧ e.fld b Reg.LINK_VER.PEER_LOW = low p ∧
        e.fld b Reg.PEER_FEAT.FEATURES = features p ∧ e.fld b Reg.LINK_STATE.SEEN_TX = 1 ∧
        e.nego n = (if (bestVersion (low p) (min l.pin (high p))).isSome then negoUp else negoNoCommon)) ∧
      (pair = false →
        e.reg (b + Reg.LINK_VER.PEER_HIGH.off) = s.dev.reg (b + Reg.LINK_VER.PEER_HIGH.off) ∧
        e.reg (b + Reg.PEER_FEAT.FEATURES.off) = s.dev.reg (b + Reg.PEER_FEAT.FEATURES.off) ∧
        e.fld b Reg.LINK_STATE.SEEN_TX = s.dev.fld b Reg.LINK_STATE.SEEN_TX ∧ e.nego n = s.dev.nego n ∧
        e.version n = s.dev.version n)

/-- Messages received good reach their consumers (R139, R140, R153, R155, R275). HIT on a hit lane outside direct ring mode, PRIMITIVE, and
DECISION on a trunk lane with its alignment buffer in use, enter the buffer when their crossing lies in its window; DECISION on a hit lane,
FRAGMENT and EVENT wait for the receive queue, where the port is in use; ACCEPT enters every running ring engine with room; CONTROL code
0x0001 renegotiates. The model's choice here is log entry 82. -/
def Obligations.MessagesReachTheirConsumers : Prop :=
  ∀ (s : State) (n : Fin 144) (m : WireMsg), s.quiet = true → s.dev.proofDepth (laneBase n) = none →
    let b := laneBase n
    let r := s.dev.lane n
    let x := extendStamp s.dev.now (somStamp m.som)
    let held (e : Dev) : Prop :=
      (e.lane n).held = r.held ++ [{ cross := x, msg := innerMsg m }] ∧ (e.lane n).lastStamp = some x ∧
      OnlyParts [.regs, .lanes] s.dev e ∧ OnlyRegs [b + Reg.ALIGN_STATUS.FILL.off] s.dev e
    let port : Prop := r.portBad = false ∧ r.portRxq.getLsbD 16 = true
    let waits (e : Dev) : Prop :=
      (e.link n).rxWait = (s.dev.link n).rxWait ++ [{ cross := x, msg := innerMsg m }] ∧
      OnlyParts [.regs, .lanes, .links] s.dev e ∧ e.regs = s.dev.regs
    (s.dev.takes n msgHit m = true → isTrunk n = false → r.directCfg.getLsbD 0 = false → s.dev.judge n x = .kept →
      Completes (.hit n m) s held) ∧
    (s.dev.takes n msgPrimitive m = true → s.dev.aligns n = true → s.dev.judge n x = .kept → Completes (.primitive n m) s held) ∧
    (s.dev.takes n msgDecision m = true → isTrunk n = true → s.dev.aligns n = true → s.dev.judge n x = .kept →
      Completes (.decision n m) s held) ∧
    (s.dev.takes n msgDecision m = true → isTrunk n = false → port → Completes (.decision n m) s waits) ∧
    (s.dev.takes n msgFragment m = true → port → Completes (.fragment n m) s waits) ∧
    (s.dev.takes n msgEvent m = true → port → Completes (.eventMessage n m) s waits) ∧
    (s.dev.takes n msgAccept m = true →
      Completes (.accept n m) s fun e => ∀ i : Fin 16, s.dev.runs (ringBase i) = true → (s.dev.engine i).accepts.length < 256 →
        s.dev.ringMajor i ≠ 1 → (e.engine i).accepts = (s.dev.engine i).accepts ++ [acceptOf (s.dev.fld b Reg.AGREED_FEAT.FEATURES) m.data]) ∧
    (s.dev.takes n msgControl m = true → somRoute m.som = 1 → s.dev.nego n ≠ negoDown →
      Completes (.control n m) s fun e =>
        e.nego n = negoAnnouncing ∧ e.fld b Reg.LINK_STATE.SEEN_TX = 0 ∧ e.fld b Reg.LINK_STATE.ANNOUNCE_TX = 1 ∧
        OnlyParts [.regs, .lanes, .links] s.dev e ∧ OnlyWindow b s.dev e)

/-- Management on a trunk lane (R156, R158). A request with room for its response, and none before it, is performed word by word through
control space from its address on; a response with the TAG of the outstanding request ends it; GO issues one request with the next TAG, ends
NOT_SENT where the feature is not agreed and is rejected while one is outstanding; and TIMEOUT Ticks end it NO_RESPONSE. The model's choices
here are log entry 88. -/
def Obligations.ManagementOverTrunkLanes : Prop :=
  ∀ (s : State) (k : Fin 16) (m : WireMsg), s.quiet = true →
    let n : Fin 144 := ⟨128 + k, by omega⟩
    let b := laneBase n
    let l := s.dev.link n
    let tag := somRoute m.som % 256
    let count := somRoute m.som / 256 % 64 + 1
    let idle : Prop := l.mgmtJob = none ∧ l.mgmtWait = [] ∧ l.mgmtTags.contains tag = false ∧ s.dev.ust b ≠ .draining
    let first (write : Bool) (e : Dev) : Prop :=
      e.ctl = { s.dev.ctl with waiting := s.dev.ctl.waiting ++
        [{ path := 1, write := write, addr := (m.data.getD 0 0).toNat % 2 ^ 32,
           data := if write then BitVec.ofNat 32 (m.data.getD 1 0).toNat else 0, lane := some n.val, since := s.dev.tick }] } ∧
      (e.link n).mgmtTags = l.mgmtTags ++ [tag] ∧
      (s.dev.admission 1 ((m.data.getD 0 0).toNat % 2 ^ 32) ≠ stOk ∨ s.dev.awake 1 ((m.data.getD 0 0).toNat % 2 ^ 32) = true →
        OnlyParts [.ctl, .lanes, .links] s.dev e)
    (s.dev.takes n msgMgmtRead m = true → idle → msgUnits (1 + (count + 1) / 2) ≤ l.roomM →
      Completes (.mgmtRead n m) s (first false)) ∧
    (s.dev.takes n msgMgmtWrite m = true → idle → 1 ≤ l.roomM → Completes (.mgmtWrite n m) s (first true)) ∧
    (s.dev.takes n msgMgmtResp m = true → s.dev.fld b Reg.REM_STATUS.BUSY = 1 → s.dev.fld b Reg.REM_STATUS.TAG = tag →
      Completes (.mgmtResp n m) s fun e =>
        e.fld b Reg.REM_STATUS.BUSY = 0 ∧ e.fld b Reg.REM_STATUS.DONE = 1 ∧ e.fld b Reg.LINK_EVENT.REM_DONE = 1 ∧
        e.fld b Reg.REM_STATUS.STATUS = (m.data.getD 0 0).toNat % 256 ∧
        (l.remWrite = false → 2 ≤ m.data.length →
          e.reg (b + Reg.REM_RDATA.DATA.off) = BitVec.ofNat 32 (m.data.getD 1 0).toNat) ∧
        OnlyParts [.regs, .lanes, .links] s.dev e ∧
        OnlyRegs [b + Reg.REM_STATUS.BUSY.off, b + Reg.LINK_EVENT.REM_DONE.off, b + Reg.REM_RDATA.DATA.off] s.dev e) ∧
    (∀ (path : Fin 8) (write : Bool) (timeout : BitVec 16), s.dev.reached path (b + Reg.REM_CTRL.off) = true →
      Completes (.remGo path k write timeout) s fun e =>
        e.fld b Reg.REM_CTRL.WRITE = bit01 write ∧ e.fld b Reg.REM_CTRL.TIMEOUT = timeout.toNat ∧ e.answered path stOk 0 ∧
        (s.dev.fld b Reg.REM_STATUS.BUSY = 1 → e.fld b Reg.LINK_EVENT.REM_REJECT = 1 ∧
          e.reg (b + Reg.REM_STATUS.off) = s.dev.reg (b + Reg.REM_STATUS.off) ∧ OnlyParts [.regs, .ctl] s.dev e) ∧
        (s.dev.fld b Reg.REM_STATUS.BUSY = 0 → s.dev.agreed n featMgmt = false →
          e.fld b Reg.REM_STATUS.STATUS = 0x21 ∧ e.fld b Reg.REM_STATUS.DONE = 1 ∧ e.fld b Reg.REM_STATUS.BUSY = 0 ∧
          e.fld b Reg.LINK_EVENT.REM_DONE = 1 ∧ OnlyParts [.regs, .ctl] s.dev e) ∧
        (s.dev.fld b Reg.REM_STATUS.BUSY = 0 → s.dev.agreed n featMgmt = true → 0x20 ≤ s.dev.version n → l.nextTag < 256 →
          e.fld b Reg.REM_STATUS.BUSY = 1 ∧ e.fld b Reg.REM_STATUS.TAG = l.nextTag ∧
          (e.link n).nextTag = (l.nextTag + 1) % 256 ∧
          (e.link n).txQueue.map (fun t => (t.msg.typ, t.msg.route, t.msg.body.headD 0)) =
            l.txQueue.map (fun t => (t.msg.typ, t.msg.route, t.msg.body.headD 0)) ++
              [(if write then msgMgmtWrite else msgMgmtRead, l.nextTag, BitVec.ofNat 64 (s.dev.fld b Reg.REM_ADDR.ADDR * 4))] ∧
          OnlyParts [.free, .regs, .ctl, .links] s.dev e)) ∧
    (s.dev.fld b Reg.REM_STATUS.BUSY = 1 → l.remTick + s.dev.fld b Reg.REM_CTRL.TIMEOUT ≤ s.dev.tick →
      Completes (.noResponse k) s fun e =>
        e.fld b Reg.REM_STATUS.STATUS = 0x20 ∧ e.fld b Reg.REM_STATUS.BUSY = 0 ∧ e.fld b Reg.REM_STATUS.DONE = 1 ∧
        e.fld b Reg.LINK_EVENT.REM_DONE = 1 ∧ OnlyParts [.regs] s.dev e ∧
        OnlyRegs [b + Reg.REM_STATUS.BUSY.off, b + Reg.LINK_EVENT.REM_DONE.off] s.dev e)

/-- What a lane transmits (R160, R164, R169, R170, R173, R175): ANNOUNCE while it announces, ASSUMED_1_0 where none was answered, ANNOUNCING
again on RENEGOTIATE, CREDIT with both limits, MARK in a crossing of its period with the crossing number, PROOF where its feature is agreed,
and at a message boundary the one waiting message that credit allows, an EVENT with the next sequence number; in the far-end loop it waits
(R93, R168). Each block leaves scrambled, and a QUAD follows the INTERVAL-th (R128, R134). The model's choice here is log entry 85. -/
def Obligations.LaneTransmits : Prop :=
  ∀ (s : State) (path : Fin 8) (n : Fin 144), s.quiet = true →
    let b := laneBase n
    let l := s.dev.link n
    let sends (p : Payload) (e : Dev) : Prop := (e.link n).lastTx = some (.control p)
    let quadDue : Bool := decide (quadInterval (s.dev.fld b Reg.TX_QUAD.INTERVAL) ≤ l.txCount + 1)
    let scr := scramble l.scr (s.dev.announceBlock n)
    (s.dev.fld b Reg.LINK_STATE.ANNOUNCE_TX = 1 → s.dev.looped n = false →
      Completes (.announceTransmit n) s fun e =>
        sends (s.dev.announceBlock n) e ∧ (e.link n).txQueue = l.txQueue ∧
        (quadDue = false → (e.link n).line = lineBits (s.dev.txPol n) 2 scr.2 ∧ (e.link n).scr = scr.1 ∧ (e.link n).txCount = l.txCount + 1) ∧
        (quadDue = true →
          (e.link n).line = lineBits (s.dev.txPol n) 2 (scramble scr.1 (BitVec.ofNat 64 ctlQuad)).2 ∧ (e.link n).txCount = 0) ∧
        OnlyParts [.links] s.dev e) ∧
    (s.dev.nego n = negoAnnouncing → l.annSeen = false → l.txQueue = [] →
      Completes (.announceTimeout n) s fun e =>
        e.nego n = negoAssumed ∧ e.version n = 0x10 ∧ e.fld b Reg.LINK_STATE.ANNOUNCE_TX = 0 ∧
        e.fld b Reg.LINK_EVENT.ASSUMED_1_0 = 1 ∧ e.reg (b + Reg.AGREED_FEAT.FEATURES.off) = 0 ∧
        OnlyParts [.regs, .links] s.dev e ∧ OnlyWindow b s.dev e) ∧
    (s.dev.reached path (linkCtrlAddr n) = true →
      (s.dev.nego n ≠ negoDown → s.dev.version n ≠ 0 →
        Completes (.renegotiate path n) s fun e =>
          e.nego n = negoAnnouncing ∧ e.version n = s.dev.version n ∧ e.fld b Reg.LINK_STATE.SEEN_TX = 0 ∧
          e.fld b Reg.LINK_STATE.ANNOUNCE_TX = 1 ∧ (e.link n).lastAnn = none ∧ e.answered path stOk 0 ∧
          OnlyParts [.regs, .ctl, .links] s.dev e ∧ OnlyWindow b s.dev e) ∧
      (s.dev.agreed n featProof = true → s.dev.looped n = false →
        Completes (.proofOn path n) s (fun e =>
          sends (withChk (ctlProof + 1 * 2 ^ 8)) e ∧ e.answered path stOk 0 ∧ OnlyParts [.ctl, .links] s.dev e) ∧
        Completes (.proofOff path n) s fun e =>
          sends (withChk (ctlProof + 2 * 2 ^ 8)) e ∧ e.answered path stOk 0 ∧ OnlyParts [.ctl, .links] s.dev e)) ∧
    (0x11 ≤ s.dev.version n → s.dev.looped n = false → l.rxLimF < 2 ^ 16 → l.rxLimM < 2 ^ 16 →
      Completes (.creditTransmit n) s fun e =>
        sends (withChk (ctlCredit + l.rxLimF * 2 ^ 8 + l.rxLimM * 2 ^ 24)) e ∧ (e.link n).creditDue = false ∧
        OnlyParts [.links] s.dev e) ∧
    (s.dev.fld b Reg.LINK_CTRL.MARK_TX_EN = 1 → s.dev.version n ≠ 0 → s.dev.looped n = false →
      s.dev.now % 2 ^ s.dev.fld b Reg.LINK_CTRL.MARK_PERIOD = 0 →
      Completes (.markTransmit n) s fun e => sends (withChk (ctlMark + s.dev.now * 2 ^ 8)) e ∧ OnlyParts [.links] s.dev e) ∧
    ∀ t : TxMsg, l.txQueue = [t] → l.mgmtWait = [] →
      let leaves (m : Msg) (e : Dev) : Prop :=
        (e.link n).txQueue = [] ∧ (e.link n).lastTx = some (.message (somOf m) m.body (eomOf (s.dev.version n) (somOf m) m.body))
      (t.orig = .eventNotice → t.msg.typ = msgEvent → s.dev.looped n = false →
        msgUnits t.msg.body.length ≤ (l.limitM + 2 ^ 16 - l.consM % 2 ^ 16) % 2 ^ 16 →
        Completes (.messageTransmit n []) s fun e =>
          leaves { t.msg with route := s.dev.ctl.eventSeq } e ∧ e.ctl = { s.dev.ctl with eventSeq := (s.dev.ctl.eventSeq + 1) % 2 ^ 16 } ∧
          (e.link n).consM = (l.consM + msgUnits t.msg.body.length) % 2 ^ 16 ∧ (e.link n).consF = l.consF ∧
          OnlyParts [.ctl, .links] s.dev e) ∧
      (∀ i : Fin 16, t.orig = .engine i → t.msg.typ = msgFragment → s.dev.looped n = false →
        msgUnits t.msg.body.length ≤ (l.limitF + 2 ^ 16 - l.consF % 2 ^ 16) % 2 ^ 16 →
        Completes (.messageTransmit n []) s fun e =>
          leaves t.msg e ∧ (e.link n).consF = (l.consF + msgUnits t.msg.body.length) % 2 ^ 16 ∧ (e.link n).consM = l.consM ∧
          Counted (ringBase i) Reg.FRAG_COUNT.COUNT 1 s.dev e ∧ OnlyParts [.regs, .links] s.dev e ∧
          OnlyRegs [ringBase i + Reg.FRAG_COUNT.COUNT.off] s.dev e) ∧
      (t.msg.typ = msgMgmtResp → t.orig = .mgmt → s.dev.looped n = true → Completes (.messageTransmit n []) s fun e => e = s.dev)

/-! ## Lane ports and plates -/

/-- The message queues of a lane port (R199, R200). A waiting message that fits is written as an entry, its header with the queue's pass as
PHASE and its body behind it, and nothing else of the bank; one that does not fit waits where it is credited, and is dropped and counted in
MSGQ_DROP_COUNT where it is not; the read position is read once in a crossing. An entry of the send queue whose PHASE is the current pass is queued for transmission with its TYPE, ROUTE,
STAMP and body; the entry after it, not valid yet, is not. The model's choice here is log entry 89. -/
def Obligations.PortQueuesCarryMessages : Prop :=
  ∀ (s : State) (n : Fin 144) (h : Held), s.quiet = true →
    let r := s.dev.lane n
    let l := s.dev.link n
    let b := laneBase n
    let rx (i : Nat) : Nat := queueWord r.portCol.toNat r.portRxq.toNat i
    let tx (i : Nat) : Nat := queueWord r.portCol.toNat r.portTxq.toNat i
    let good (w : Nat) : Prop := s.dev.baseBarred false w = false ∧ s.dev.wordCheck (s.dev.physWord w) = memOk
    let size := queueSize r.portRxq
    let rp := ((l.rxqRead.filter fun x => x.1 == s.dev.now).map (·.2)).getD (max 1 (bitsOf (s.dev.wordData (s.dev.physWord (rx 0))).toNat 0 16))
    let room := queueRoom size l.rxqPos rp h.msg.words
    (l.rxWait = [h] → good (rx 0) →
      (∀ pos, room = some (pos, false) → 1 ≤ pos → bitsOf r.portRxq.toNat 0 11 * 8 + size ≤ 16384 → size < 2 ^ 16 →
        Completes (.receiveQueueWrite n []) s fun e =>
          e.wordData (s.dev.physWord (rx pos)) = entryHead h.msg h.cross l.rxqPass ∧
          (∀ i < (bodyWords h.msg.body).length,
            e.wordData (s.dev.physWord (rx (pos + 1 + i))) = (bodyWords h.msg.body).getD i 0) ∧
          (∀ p, (∀ i < h.msg.words, p ≠ s.dev.physWord (rx (pos + i))) → e.wordData p = s.dev.wordData p) ∧
          (e.link n).rxWait = [] ∧ (e.link n).rxqPos = queueNext size (pos + h.msg.words) ∧
          OnlyParts [.links, .mem] s.dev e) ∧
      (room = none → creditClass h.msg.typ = .none →
        Completes (.receiveQueueWrite n []) s fun e =>
          (e.link n).rxWait = [] ∧ Counted b Reg.MSGQ_DROP_COUNT.COUNT 1 s.dev e ∧ e.fld b Reg.PORT_EVENT.DROP = 1 ∧
          OnlyParts [.regs, .links] s.dev e ∧
          OnlyRegs [b + Reg.MSGQ_DROP_COUNT.COUNT.off, b + Reg.PORT_EVENT.DROP.off] s.dev e) ∧
      (room = none → creditClass h.msg.typ ≠ .none →
        Completes (.receiveQueueWrite n []) s fun e =>
          e.link n = { l with rxqRead := some (s.dev.now, rp) } ∧ OnlyParts [.links] s.dev e)) ∧
    (∀ (head : RowWord) (len : Nat), s.dev.ust b = .running → s.dev.proving b = false → r.portTxq.getLsbD 16 = true →
      r.portBad = false → (∀ i ≤ 1 + (len + 3) / 4, good (tx (l.txqPos + i))) → head = s.dev.wordData (s.dev.physWord (tx l.txqPos)) →
      head.getLsbD 255 = l.txqPass → bitsOf head.toNat 0 8 = msgDecision → bitsOf head.toNat 8 8 = len →
      l.txqPos + 1 + (len + 3) / 4 < queueSize r.portTxq →
      (s.dev.wordData (s.dev.physWord (tx (l.txqPos + 1 + (len + 3) / 4)))).getLsbD 255 ≠ l.txqPass →
      s.dev.txBarred n { typ := msgDecision, stamp := bitsOf head.toNat 32 16, route := bitsOf head.toNat 16 16,
                         body := ((s.dev.readBody (tx l.txqPos + 1) ((len + 3) / 4)).2.getD []).take len } = false →
      Completes (.sendQueueExamine n []) s fun e =>
        (e.link n).txQueue = l.txQueue ++ [{
          msg := { typ := msgDecision, stamp := bitsOf head.toNat 32 16, route := bitsOf head.toNat 16 16,
                   body := ((s.dev.readBody (tx l.txqPos + 1) ((len + 3) / 4)).2.getD []).take len }
          orig := .fabric (tx l.txqPos) }] ∧
        (e.link n).txqPos = l.txqPos + 1 + (len + 3) / 4 ∧ OnlyParts [.links] s.dev e)

/-- Plate commands that pass every check of R207. FILL_LP and FILL_STREAM clear the stage slot's groups and set it FILLING; STAGE sets the
plate slot LOADING with the plate's number in every group of the mask; SWITCH and CYCLE schedule a switch in every group; CANCEL removes the
pending ones; CLEAR turns FAULTED slots EMPTY. STATUS is OK (R206 to R216). The model's choice here is log entry 95. -/
def Obligations.PlateCommandsAreAccepted : Prop :=
  ∀ (s : State) (path : Fin 8) (plate : Byte) (t p : Fin 4), s.quiet = true →
    let b := configBase
    let d := s.dev
    let mask := d.pcmdMask
    let base := (d.reg (b + Reg.STAGE_SRC_LO.off)).toNat / 2 ^ 12 * 2 ^ 12 + d.fld b Reg.STAGE_SRC_HI.ADDR_HI * 2 ^ 32
    let free : Prop := d.plates.dataCmd = none ∧ d.reloadReads t = false
    let ready (l : List Nat) : Prop := d.targetOk d.switchTarget = true ∧ ∀ g ∈ maskGroups mask,
      (∀ x ∈ l, d.slotUsable g x = true) ∧ d.plates.pending.look g = none ∧
      d.groupFaulted g = false ∧ d.holdRefused g = false
    let done (e : Dev) : Prop := e.fld b Reg.PCMD_STATUS.STATUS = pstOk ∧ e.answered path stOk 0 ∧ OnlyWindow b d e
    let filling (c : DataCmd) (e : Dev) : Prop :=
      e.stageSt t = stageFilling ∧ e.stageValid t = 0 ∧ e.plates.dataCmd = some c ∧ e.fld b Reg.PCMD_STATUS.DATA_BUSY = 1 ∧
      done e ∧ OnlyParts [.regs, .ctl, .plates] d e
    let pended (q : PendSwitch) (e : Dev) : Prop :=
      (∀ g ∈ maskGroups mask, e.plates.pending.look g = some q ∧ e.fldAt b Reg.PSLOT_G.PENDING g = 1) ∧ done e ∧
      OnlyParts [.regs, .ctl, .plates] d e
    d.reached path (b + Reg.PCMD.off) = true → d.runs b = true →
    (∀ w, free → mask ≠ 0 → d.dsRead32 clsConfig base = (d, dsOk, w) → bitsOf w.toNat 0 8 = plate.toNat →
      (∀ g ∈ maskGroups mask, bitOf w.toNat (16 + g) = true) →
      Completes (.fillLp path plate t p) s (filling (.fillLp t mask base))) ∧
    (free → Completes (.fillStream path plate t p) s (filling (.fillStream t))) ∧
    (free → mask ≠ 0 → d.stageSt t = stageReady → d.mapReleased (d.stagePlate t) = true →
      (∀ g ∈ maskGroups mask, bitOf (d.stageValid t) g = true ∧ d.pslot g p ≠ slotLoading ∧ d.pslot g p ≠ slotActive ∧
        p.val ∉ (d.plates.pending.at g {}).list) →
      Completes (.plateStage path plate t p) s fun e =>
        (∀ g ∈ maskGroups mask, e.pslot g p = slotLoading ∧ e.pslotPlate g p = d.stagePlate t) ∧
        e.plates = { d.plates with dataCmd := some (.stage t p mask) } ∧ e.fld b Reg.PCMD_STATUS.DATA_BUSY = 1 ∧
        done e ∧ OnlyParts [.regs, .ctl, .plates] d e) ∧
    (mask ≠ 0 → ready [p] →
      Completes (.plateSwitch path plate t p) s (pended { target := d.switchTarget, list := [p.val] })) ∧
    (mask ≠ 0 → ready d.cycleList → d.cycleOk d.cycleList (d.fld b Reg.PCYCLE.K) = true →
      d.mode = modeRoll ∨ d.mode = modeSurge → d.fastFabric = false →
      Completes (.plateCycle path plate t p) s
        (pended { cycle := true, target := d.switchTarget, list := d.cycleList, k := d.fld b Reg.PCYCLE.K })) ∧
    (mask ≠ 0 → Completes (.plateCancel path plate t p) s fun e =>
      (∀ g : Fin 16, e.plates.pending.look g = if bitOf mask g then none else d.plates.pending.look g) ∧
      (∀ g ∈ maskGroups mask, e.fldAt b Reg.PSLOT_G.PENDING g = 0) ∧ done e ∧ OnlyParts [.regs, .ctl, .plates] d e) ∧
    (mask ≠ 0 → (∀ g ∈ maskGroups mask, d.inForce g p = false ∧ d.pslot g p ≠ slotLoading) →
      Completes (.plateClear path plate t p) s fun e =>
        (∀ g ∈ maskGroups mask, e.pslot g p = if d.pslot g p = slotFaulted then slotEmpty else d.pslot g p) ∧
        done e ∧ OnlyParts [.regs, .ctl, .plates] d e)

/-- The ends of fills (R209, R210, R211). FILL_DONE makes the slot READY with the one group filled where its store was read and its CRC-32C
matches, else EMPTY with FILL_FAIL. A word written to PSTREAM_DATA joins the record; the word that completes it makes the slot READY with
the record's plate and groups where it verifies, and EMPTY with FILL_FAIL where it does not; with no FILL_STREAM open the write only sets
STREAM_ERR. Staging and reloads (R191, R212, R213, R215, R227), in columns that hold their tokens. STAGE_DONE of a load that is good leaves the
plate slot VALID, or ACTIVE where it is in force, and of one that is not FAULTED with STAGE_FAIL; a reload starts from a READY
stage slot of the same plate, or sets RELOAD_FAIL where there is none; one that is good restores its column and the slot with
RELOAD_DONE, and one that is not leaves the slot FAULTED with RELOAD_FAIL. Words without an error arrive as the stage slot holds them, and
the stage slot's own words stay. A load is good where no word is uncorrectable, no ownership differs from DRIVE_MAP, and the plate uses no
dead shaft. The model's choices here are log entries 8 and 11. -/
def Obligations.PlateFillsAndCopiesEnd : Prop :=
  (∀ (s : State) (path : Fin 8) (w : Word) (t : Fin 4) (g : Fin 16), s.quiet = true →
    let b := configBase
    let d := s.dev
    let ended (plate valid : Nat) (e : Dev) : Prop :=
      e.stageSt t = (if valid = 0 then stageEmpty else stageReady) ∧ e.stagePlate t = plate ∧ e.stageValid t = valid ∧
      e.plates.dataCmd = none ∧ e.fld b Reg.PCMD_STATUS.DATA_BUSY = 0
    let ws := d.plates.stream ++ [w]
    let whole : Bool := match streamLength ws with | some n => decide (n ≤ ws.length) | none => false
    (∀ base, d.plates.dataCmd = some (.fillLp t (2 ^ g.val) base) → d.latched 0x0A = true → d.latched 0x0B = true →
      let r := d.fillGroup t base g
      Completes (.fillDone []) s fun e =>
        ended (d.stagePlate t) (if r.2 then 2 ^ g.val else 0) e ∧ e.fld b Reg.PLATE_EVENT.FILL_DONE = 1 ∧
        (r.2 = false → e.fld b Reg.PLATE_EVENT.FILL_FAIL = 1) ∧ e.plates.stageFrames = r.1.plates.stageFrames ∧
        OnlyParts [.regs, .plates, .mem, .ext, .kryup] d e) ∧
    (d.reached path (b + Reg.PSTREAM_DATA.off) = true →
      (d.plates.dataCmd = none →
        Completes (.pstreamDataWrite path w) s fun e =>
          e.fld b Reg.PLATE_EVENT.STREAM_ERR = 1 ∧ e.answered path stOk 0 ∧ OnlyParts [.regs, .ctl] d e ∧
          OnlyRegs [b + Reg.PLATE_EVENT.FILL_DONE.off] d e) ∧
      (d.plates.dataCmd = some (.fillStream t) →
        (whole = false →
          Completes (.pstreamDataWrite path w) s fun e =>
            e.plates = { d.plates with stream := ws } ∧ e.answered path stOk 0 ∧ OnlyParts [.regs, .ctl, .plates] d e ∧
            OnlyRegs [b + Reg.PSTREAM_DATA.off] d e) ∧
        (∀ (plate mask : Nat) (l : List ((Nat × Nat) × List RowWord)), whole = true → d.stageRowsBad t = false →
          d.streamPlate ws = some (plate, mask, l) → mask < 2 ^ 16 → plate < 2 ^ 8 →
          Completes (.pstreamDataWrite path w) s fun e =>
            ended plate mask e ∧ e.fld b Reg.PLATE_EVENT.FILL_DONE = 1 ∧ e.plates.stream = [] ∧
            e.plates.stageFrames = (d.putPlate t l).plates.stageFrames ∧ e.answered path stOk 0 ∧
            OnlyParts [.regs, .ctl, .plates] d e ∧ OnlyWindow b d e) ∧
        (whole = true → d.streamPlate ws = none →
          Completes (.pstreamDataWrite path w) s fun e =>
            ended (d.stagePlate t) 0 e ∧ e.fld b Reg.PLATE_EVENT.FILL_FAIL = 1 ∧ e.plates.stream = [] ∧
            e.plates.stageFrames = d.plates.stageFrames ∧ e.answered path stOk 0 ∧
            OnlyParts [.regs, .ctl, .plates] d e ∧ OnlyWindow b d e)))) ∧
  ∀ (s : State) (t p : Fin 4) (g : Fin 16) (c : Fin 256), s.quiet = true →
    let b := configBase
    let d := s.dev
    let plate := d.stagePlate t
    let copied (k : Nat) (e : Dev) : Prop := ∀ (die : Fin 2) (row : Fin 2592) (i : Fin 8),
      e.plates.plateFrames.at (plateKey die k p row i) 0 = d.plates.stageFrames.at (stageKey k t die row i) 0
    let whole (k : Nat) : Prop := d.fenced k = false ∧ ∀ w < 41472, d.plates.stageErr.look (stagePlace k t w) = none
    let good (e : Dev) : Prop :=
      e.pslot g p = (if d.inForce g p then slotActive else slotValid) ∧ e.plates.stageFrames = d.plates.stageFrames ∧
      e.plates.dataCmd = none ∧ e.fld b Reg.PCMD_STATUS.DATA_BUSY = 0 ∧ OnlyParts [.regs, .plates, .heat] d e ∧ OnlyWindow b d e
    (d.plates.dataCmd = some (.stage t p (2 ^ g.val)) → d.stagingGranted (groupColumns g) = true → d.pslot g p = slotLoading →
      (∀ k ∈ groupColumns g, whole k) →
      ((d.loadGroup g t p plate []).2 = true →
        Completes (.stageDone []) s fun e =>
          (∀ k ∈ groupColumns g, copied k e ∧ e.heat.token.look k = none) ∧ e.fld b Reg.PLATE_EVENT.STAGE_DONE = 1 ∧ good e) ∧
      ((d.loadGroup g t p plate []).2 = false →
        Completes (.stageDone []) s fun e =>
          (∀ k ∈ groupColumns g, copied k e ∧ e.heat.token.look k = none) ∧ e.pslot g p = slotFaulted ∧
          e.fld b Reg.PLATE_EVENT.STAGE_DONE = 1 ∧ e.fld b Reg.PLATE_EVENT.STAGE_FAIL = 1 ∧ e.plates.dataCmd = none ∧
          OnlyParts [.regs, .plates, .heat] d e)) ∧
    (∀ r : ReloadReq, d.plates.reloads = [r] → groupOf r.column = g → r.slot = p → d.dataBusy = false → d.runs b = true →
      d.pslot g p = slotFaulted → d.conflictStands g p = false →
      Completes .plateReload s fun e =>
        e.plates.reloads = [] ∧ (e.plates.dataCmd = match d.reloadSource g p with
          | some x => some (.reload r.column p x r.galleys) | none => none) ∧
        (d.reloadSource g p = none → e.fld b Reg.PLATE_EVENT.RELOAD_FAIL = 1) ∧ OnlyParts [.regs, .plates] d e ∧
        OnlyRegs [b + Reg.PCMD_STATUS.STATUS.off, b + Reg.PLATE_EVENT.FILL_DONE.off] d e) ∧
    (d.plates.dataCmd = some (.reload c p t []) → groupOf c = g → d.stagingGranted [c.val] = true → d.pslot g p = slotFaulted →
      d.conflictStands g p = false → d.plates.reloads = [] → whole c →
      ((d.loadColumn c t p plate {}).2 = true →
        Completes (.reloadDone {}) s fun e =>
          copied c e ∧ e.heat.token.look c = none ∧ e.fld b Reg.PLATE_EVENT.RELOAD_DONE = 1 ∧ good e) ∧
      ((d.loadColumn c t p plate {}).2 = false →
        Completes (.reloadDone {}) s fun e =>
          copied c e ∧ e.heat.token.look c = none ∧ e.pslot g p = slotFaulted ∧ e.fld b Reg.PLATE_EVENT.RELOAD_FAIL = 1 ∧
          e.plates.dataCmd = none ∧ OnlyParts [.regs, .plates, .heat] d e))

/-- What becomes of plates in service (R192, R216 to R218, R220 to R222, R225, R226). A pending switch at its crossing makes its slots ACTIVE
and in force and the slot before them VALID, or, where it is barred, only sets SWITCH_FAIL; a cycling group has in force LIST[(i div k) mod
LEN] in fabric cycle i, as long as the crossing delivers cycles; a scrub slot corrects and counts words with one bit in error and marks a
slot with an uncorrectable word FAULTED; ownership fields of the slot in force that become 0b11 are read as conflicts from then on, and the
lowest of them is logged in both column units and faults the slot. Here no galley has logic in the column and nothing is reloaded. The
model's choice here is log entry 95. -/
def Obligations.PlatesInService : Prop :=
  ∀ (s : State) (g : Fin 16) (c : Fin 256) (slot : Fin 4), s.quiet = true →
    let b := configBase
    let d := s.dev
    (∀ q : PendSwitch, d.plates.pending.look g = some q → q.target = d.now → d.fabric.cycle.num g = 0 → d.groupTicks g = true →
      (d.switchBarred g q = false → d.switchIdle g q = false → d.fastFabric = false → ∀ old : Fin 4, d.forceList g = [old.val] →
        q.list.headD 4 < 4 → (∀ x ∈ q.list, x < 4) →
        Completes (.plateSwitchAtT g) s fun e =>
          (∀ x ∈ q.list, e.pslot g x = slotActive) ∧
          (old.val ∉ q.list → e.pslot g old = if d.pslot g old = slotActive then slotValid else d.pslot g old) ∧
          e.forceList g = (if q.cycle then q.list else [q.list.headD 0]) ∧ e.fldAt b Reg.PSLOT_G.IN_FORCE g = q.list.headD 0 ∧
          e.fldAt b Reg.PSLOT_G.CYCLING g = bit01 q.cycle ∧ e.plates.pending.look g = none ∧
          e.fld b Reg.PLATE_EVENT.SWITCHED = 1 ∧ OnlyParts [.regs, .plates, .fabric] d e ∧
          OnlyRegs [b + Reg.PSLOT_G.off + 4 * g, b + Reg.PLATE_EVENT.FILL_DONE.off] d e) ∧
      (d.switchBarred g q = true →
        Completes (.plateSwitchAtT g) s fun e =>
          e.plates = { d.plates with pending := d.plates.pending.del g } ∧ e.fldAt b Reg.PSLOT_G.PENDING g = 0 ∧
          e.fld b Reg.PLATE_EVENT.SWITCH_FAIL = 1 ∧ OnlyParts [.regs, .plates] d e ∧
          OnlyRegs [b + Reg.PSLOT_G.off + 4 * g, b + Reg.PLATE_EVENT.FILL_DONE.off] d e)) ∧
    (groupOf c = g → d.usersIn c = [] →
      (∀ (upper : Bool) (first : Fin 2592), d.plateScrubOn = true → d.holdsToken c .plateScrub = true → d.columnStaging c = false →
        d.fenced c = false →
        let errs := (arrivals d.plates.plateErr (plateWordOf c slot) (platePlace c slot) {}).filter fun x =>
          x.1 / 20736 == bit01 upper && inSlot first (x.1 / 8 % 2592)
        d.ownersBy c slot (fun _ x => x == 3) = [] →
        ((∀ x ∈ errs, errStatus x.2 = memCorrected) →
          Completes (.plateScrubSlot c upper false slot first {}) s fun e =>
            Counted b Reg.SEC_COUNT.COUNT errs.length d e ∧ (errs ≠ [] → e.fld b Reg.PLATE_EVENT.SEC = 1) ∧
            (∀ x ∈ errs, e.plates.plateErr.look (platePlace c slot x.1) = none) ∧ e.plates.plateFrames = d.plates.plateFrames ∧
            e.heat.token.look c = none ∧ OnlyParts [.regs, .plates, .heat] d e ∧
            OnlyRegs [b + Reg.SEC_COUNT.COUNT.off, b + Reg.PLATE_EVENT.FILL_DONE.off] d e) ∧
        (∀ (w : Nat) (x : BitVec 266), errs = [(w, x)] → errStatus x = memUncorr → d.pslot g slot = slotValid →
          d.fld b Reg.PLATE_CTRL.AUTO_RECOVER = 0 → d.reloading g slot = false → d.fld b Reg.DED_LOG.VALID = 0 →
          Completes (.plateScrubSlot c upper false slot first {}) s fun e =>
            e.pslot g slot = slotFaulted ∧ e.fld b Reg.PLATE_EVENT.DED = 1 ∧ e.fld b Reg.DED_LOG.COLUMN = c ∧
            e.fld b Reg.DED_LOG.SLOT = slot ∧ e.fld b Reg.DED_LOG.FRAME_ROW = w / 8 % 2592 ∧ e.fld b Reg.DED_LOG.DIE = bit01 upper ∧
            e.fld b Reg.DED_LOG.VALID = 1 ∧ Counted b Reg.DED_COUNT.COUNT 1 d e ∧ OnlyParts [.regs, .heat] d e ∧
            OnlyRegs [b + Reg.PSLOT_G.off + 4 * g, b + Reg.PLATE_EVENT.FILL_DONE.off, b + Reg.DED_LOG.VALID.off,
              b + Reg.DED_COUNT.COUNT.off] d e)) ∧
      (∀ (shaft : Fin 1024) (more : List (Fin 1024)), d.slotNow g = some slot.val → d.pslot g slot = slotActive →
        (∀ x ∈ more, shaft < x) →
        Completes (.driveConflict c (more ++ [shaft])) s fun e =>
          e.pslot g slot = slotFaulted ∧ e.conflictStands g slot = true ∧
          (∀ x ∈ shaft :: more, e.owner c slot x = 3) ∧
          (∀ l ∈ [2, 4], d.ust (columnBase l c) ≠ .off →
            e.fld (columnBase l c) Reg.TILE_EVENT.DRIVE_CONFLICT = 1 ∧
            (d.fld (columnBase l c) Reg.DRIVE_LOG_V.VALID = 0 →
              e.fld (columnBase l c) Reg.DRIVE_LOG.SHAFT = shaft ∧ e.fld (columnBase l c) Reg.DRIVE_LOG.SLOT = slot ∧
              e.fld (columnBase l c) Reg.DRIVE_LOG.SOURCE = srcLive ∧ e.fld (columnBase l c) Reg.DRIVE_LOG_V.VALID = 1)) ∧
          OnlyParts [.regs, .plates] d e)) ∧
    ∀ p : PendSwitch, d.plates.logic.mem g = true → d.plates.cycling.look g = some p → 1 ≤ p.k →
      d.fabric.cycle.num g < d.delivered g →
      d.slotNow g = p.list[(d.fabric.cycle.num g / p.k) % p.list.length]?

/-! ## The memory die and the clock vias -/

/-- Row ports (R233 to R242, R248). A bank that is free grants the one row port that asks; of two it grants the one whose turn it is, and the
turn then passes to the other; where RP_HOLD is 1, or a base-port request of the second class waits, it grants neither, and the request waits
with nothing changed. Granted, a read answers the eight words, each corrected where one bit is wrong, with the row's status, counts what it
met and leaves memory as it is; a write stores the words under its mask and no other; a tally of good words adds the operand into the row's
counters, or ends RES_ERR and changes nothing where a residue disagrees; the reserved operation, and any access where the banks are closed,
ends REFUSED. -/
def Obligations.RowPortsReadWriteAndTally : Prop :=
  ∀ (s : State) (c : Fin 256) (upper : Bool) (bank : Fin 8) (row : Fin 2048) (x : BankCycle), s.quiet = true →
    let b := columnBase 1 c
    let d := s.dev
    let k := c.val * 8 + bank.val
    let w := wordIndex c bank row 0
    let at_ (i : Nat) : Nat := d.physWord (w + i)
    let me : Asker := if upper then .upper else .lower
    let rival := if upper then x.lower else x.upper
    let mine : Bool := (!x.calm && d.mem.turn.mem k) == upper
    let go := (d.asks c bank me x).2
    let found : PortFound := { cycle := x }
    let live := d.portLive [c.val * 2 + bit01 upper] portRow
    let kept (e : Dev) : Prop := e.mem.bytes = d.mem.bytes ∧ e.mem.err = d.mem.err
    let turn (e : Dev) : Prop := e.mem.turn.mem k = if rival then (if go then !upper else !x.calm && d.mem.turn.mem k) else false
    let answer (st : Nat) (ws : List RowWord) (e : Dev) : Prop :=
      e.mem.rowOut.look (2 * c.val + bit01 upper) = some { status := st, words := ws } ∧ turn e
    let n (st : Nat) : Nat := ((List.range 8).filter fun i => d.wordCheck (at_ i) == st).length
    let others (mask : Nat) (e : Dev) : Prop := ∀ p, (∀ i < 8, bitOf mask i = true → p ≠ at_ i) → e.wordData p = d.wordData p
    let old := (rowOf ((List.range 8).map fun i => d.wordData (at_ i))).toNat
    (x.busy = false → (bank.val = 7 → d.mem.twin.mem c = false) →
      (x.base = [] → d.rpHold c bank x = false → go = (!rival || mine)) ∧
      (d.rpHold c bank x = true → go = false) ∧
      (∀ a : BaseAsk, x.base = [a] → a.bank = bank → d.promoted c a = true → go = false)) ∧
    (live = false → Completes (.rowRead c upper bank row false found) s fun e => e = d) ∧
    (live = true → go = false → Completes (.rowRead c upper bank row false found) s fun e =>
      kept e ∧ turn e ∧ e.mem.rowOut = d.mem.rowOut ∧ OnlyParts [.mem] d e) ∧
    (live = true → go = true → d.rowBar c bank w false {} = some memRefused →
      Completes (.rowRead c upper bank row false found) s fun e => answer memRefused [] e ∧ kept e ∧ OnlyParts [.mem] d e) ∧
    (live = true → go = true → Completes (.rowRead c upper bank row true found) s fun e =>
      answer memRefused [] e ∧ kept e ∧ OnlyParts [.mem] d e) ∧
    (live = true → go = true → d.rowBar c bank w false {} = none →
      Completes (.rowRead c upper bank row false found) s (fun e =>
        answer (if n memUncorr ≠ 0 then memUncorr else if n memCorrected ≠ 0 then memCorrected else memOk)
          ((List.range 8).map fun i => d.wordRead (at_ i)) e ∧
        Counted b Reg.MEM_SEC_COUNT.COUNT (n memCorrected) d e ∧ Counted b Reg.MEM_DED_COUNT.COUNT (n memUncorr) d e ∧
        kept e ∧ OnlyParts [.regs, .mem] d e ∧ OnlyWindow b d e) ∧
      (∀ (mask : BitVec 8) (data : Row),
        Completes (.rowWrite c upper bank row mask data found) s fun e =>
          answer memOk [] e ∧ (∀ i < 8, bitOf mask.toNat i = true → e.wordData (at_ i) = rowWordOf data i ∧
            e.wordCheck (at_ i) = memOk) ∧ others mask.toNat e ∧ OnlyParts [.mem] d e) ∧
      (∀ (wide sat : Bool) (vec : Row) (slips : List (Nat × Nat)), (∀ i < 8, d.wordCheck (at_ i) = memOk) →
        let sums := tallySums wide sat old vec.toNat slips
        (slips = [] →
          Completes (.rowTally c upper bank row wide sat vec [] found) s fun e =>
            answer memOk [] e ∧ (∀ i < 8, e.wordData (at_ i) = rowWordOf (tallyRow wide sums) i) ∧ others 0xFF e ∧
            OnlyParts [.mem] d e) ∧
        (tallyAgrees wide sat old vec.toNat sums = false →
          Completes (.rowTally c upper bank row wide sat vec slips found) s fun e =>
            answer memResErr [] e ∧ Counted b Reg.RT_RES_COUNT.COUNT 1 d e ∧ e.fld b Reg.MEM_EVENT.RT_RES_ERR = 1 ∧
            kept e ∧ OnlyParts [.regs, .mem] d e ∧
            OnlyRegs [b + Reg.RT_RES_COUNT.COUNT.off, b + Reg.MEM_EVENT.RT_RES_ERR.off] d e)))

/-- Word ports in twin mode and base ports (R239, R243 to R248). An access alone reads the word, corrected, or writes it; a port-A read that
meets port B's write answers COLLIDED with a value left open, port B's write then answers BUSY, and a port whose word the base port writes
answers BUSY and counts it. A base port is granted in a row cycle that no row port asks for; a base-port read answers the word, corrected,
and a write of some bytes replaces those and no others. Outside twin mode a word port is REFUSED. The
model's choices here are log entries 2 and 93. -/
def Obligations.WordAndBasePorts : Prop :=
  ∀ (s : State) (c : Fin 256) (portB : Bool) (bank : Fin 8) (row : Fin 2048) (word : Fin 8) (data : RowWord) (user : BaseUser)
      (waited : Nat) (y : BankCycle), s.quiet = true →
    let b := columnBase 1 c
    let d := s.dev
    let w := wordIndex c 7 row word
    let x := wordIndex c bank row word
    let p := d.physWord w
    let live := d.portLive [c.val * 2 + bit01 portB] portTwin
    let q := d.physWord x
    let twin (st : Nat) (ws : List RowWord) (e : Dev) : Prop :=
      e.mem.twinOut.look (2 * c.val + bit01 portB) = some { status := st, words := ws }
    let base (st : Nat) (ws : List RowWord) (e : Dev) : Prop := e.mem.baseOut.look c = some { status := st, words := ws }
    let kept (e : Dev) : Prop := e.mem.bytes = d.mem.bytes ∧ e.mem.err = d.mem.err
    let wrote (p : Nat) (v : RowWord) (e : Dev) : Prop :=
      e.wordData p = v ∧ e.wordCheck p = memOk ∧ ∀ y, y ≠ p → e.wordData y = d.wordData y
    let busy (e : Dev) : Prop := twin memBusy [] e ∧ Counted b Reg.TWIN_BUSY_COUNT.COUNT 1 d e ∧ e.fld b Reg.MEM_EVENT.TWIN_BUSY = 1 ∧
      kept e ∧ OnlyParts [.regs, .mem] d e ∧ OnlyRegs [b + Reg.TWIN_BUSY_COUNT.COUNT.off, b + Reg.MEM_EVENT.TWIN_BUSY.off] d e
    (live = true → d.twinBarred c w = false →
      Completes (.twinRead c portB row word .alone []) s (fun e =>
        twin (d.wordCheck p) [d.wordRead p] e ∧ kept e ∧ OnlyParts [.regs, .mem] d e ∧ OnlyWindow b d e) ∧
      Completes (.twinWrite c portB row word data .alone) s (fun e => twin memOk [] e ∧ wrote p data e ∧ OnlyParts [.mem] d e) ∧
      (portB = false → Completes (.twinRead c portB row word .withWrite []) s fun e =>
        twin memCollided [Config.freeRowWord d.free] e ∧ kept e ∧ OnlyParts [.free, .mem] d e) ∧
      (portB = true → Completes (.twinWrite c portB row word data .withWrite) s busy) ∧
      Completes (.twinWrite c portB row word data .baseWrite) s busy ∧ Completes (.twinRead c portB row word .baseWrite []) s busy) ∧
    (live = true → d.mem.twin.mem c = false →
      Completes (.twinRead c portB row word .alone []) s (fun e => twin memRefused [] e ∧ kept e ∧ OnlyParts [.mem] d e) ∧
      Completes (.twinWrite c portB row word data .alone) s fun e => twin memRefused [] e ∧ kept e ∧ OnlyParts [.mem] d e) ∧
    let go := (d.asks c bank (.base { user := user, waited := waited }) y).2
    (y.busy = false → y.base = [] → y.lower = false → y.upper = false → go = true) ∧
    (go = true → d.baseBarred false x = true →
      Completes (.basePortRead c bank row word user waited { cycle := y }) s fun e =>
        base memRefused [] e ∧ kept e ∧ OnlyParts [.mem] d e) ∧
    (go = true → d.baseBarred false x = false →
      Completes (.basePortRead c bank row word user waited { cycle := y }) s (fun e =>
        base (d.wordCheck q) [d.wordRead q] e ∧ kept e ∧ OnlyParts [.regs, .mem] d e ∧ OnlyWindow b d e) ∧
      (∀ ben : BitVec 32, d.wordCheck q ≠ memUncorr →
        Completes (.basePortWrite c bank row word ben data user waited { cycle := y }) s fun e =>
          base (if ben = 0 ∨ ben.toNat = fullMask then memOk else d.wordCheck q) [] e ∧
          (∀ i < 32, e.mem.bytes.at (32 * q + i) 0 =
            if bitOf ben.toNat i then byteOf data.toNat i else d.mem.bytes.at (32 * q + i) 0) ∧
          (∀ z, z ≠ q → e.wordData z = d.wordData z) ∧ OnlyParts [.regs, .mem] d e ∧ OnlyWindow b d e) ∧
      (∀ ben : BitVec 32, d.wordCheck q = memUncorr → ben ≠ 0 → ben.toNat ≠ fullMask →
        Completes (.basePortWrite c bank row word ben data user waited { cycle := y }) s fun e =>
          base memUncorr [] e ∧ kept e ∧ Counted b Reg.MEM_DED_COUNT.COUNT 1 d e))

/-- Upkeep of the banks (R240, R249 to R251, R255), in row cycles that grant it. A word read corrected is written back; the scrub engine that
holds its column's token reads a row, frees the token and goes on with its pass; a pass that has not ended within twice its period sets
SCRUB_LATE and begins anew; a row at the threshold moves to a spare, its single errors gone; and a quadrant whose domain has come on is zeroed
but for fenced columns and dead banks, with INIT_DONE in each column. March and clock vias (R22 to R24, R252). A march that GO starts
in a STOPPED column, or that GO is rejected for, ends with DONE, its faults covered by spares while they last, and in MODE 0 its banks at
zero. The active clock via's failure fences the column, and a higher-numbered via that has not failed becomes active, which restarts the
column's clocks and ends that fence. Here no galley has logic in the column and no decision galley lies in it. The model's choices here are
log entry 92. -/
def Obligations.BanksMarchesAndClockVias : Prop :=
  (∀ (s : State) (c : Fin 256) (bank : Fin 8) (row : Fin 2048) (q : Fin 4), s.quiet = true →
    let b := columnBase 1 c
    let d := s.dev
    let k := c.val * 8 + bank.val
    let seen := ((d.mem.tracked.at k []).find? fun e => e.1 == row.val).map (·.2)
    let t := d.fld b Reg.ROW_THRESH.THRESH
    let late : Prop := ∃ x, d.mem.scrub.look c = some x ∧ x.1 + 2 * d.scrubPeriod c ≤ d.tick
    (∀ (p w : Nat) (x : BankCycle), d.mem.corr.look p = some w →
      (d.asks (wordColumn w) (wordBank w % 8) (.slow .writeback) x).2 = true →
      Completes (.correctedWriteback p x) s fun e =>
        e.mem = { d.mem with err := d.mem.err.del p, corr := d.mem.corr.del p, turn := e.mem.turn } ∧ OnlyParts [.mem] d e) ∧
    (∀ x : BankCycle, d.scrubs c = true → d.holdsToken c .memScrub = true → (d.asks c bank (.slow .scrub) x).2 = true →
      d.bankDead k = false → (∀ i < 8, d.wordCheck (d.physWord (wordIndex c bank row i)) = memOk) →
      Completes (.memScrubAccess c (bank.castLE (by decide)) row [] x) s fun e =>
        e.heat.token.look c = none ∧ e.mem = { d.mem with turn := e.mem.turn, scrub := (d.passStep c (bank * 2048 + row)).mem.scrub } ∧
        OnlyParts [.mem, .heat] d e) ∧
    (d.scrubs c = true → late →
      Completes (.scrubLate c) s fun e =>
        e.fld b Reg.MEM_EVENT.SCRUB_LATE = 1 ∧ e.mem = { d.mem with scrub := d.mem.scrub.put c (d.tick, 0) } ∧
        OnlyParts [.regs, .mem] d e ∧ OnlyRegs [b + Reg.MEM_EVENT.SEC.off] d e) ∧
    (d.mem.scrub.has c = true → ¬late → Completes (.scrubLate c) s fun e => e = d) ∧
    (∀ x : BankCycle, d.fld b Reg.MEM_CTRL.ROW_REPAIR_EN = 1 → t ≠ 0 → t ≤ seen.getD 0 →
      (d.asks c bank (.slow .remap) x).2 = true →
      ((d.sparesUsed k false).length < 12 →
        Completes (.rowRemap c (bank.castLE (by decide)) row x) s fun e =>
          e.mem.remapped.at k [] = row.val :: d.sparesUsed k false ∧ e.fld b Reg.MEM_EVENT.ROW_REMAP = 1 ∧
          e.fld b ⟨Reg.SPARE_ROWS.off, 4 * bank, 4⟩ = (d.sparesUsed k false).length + 1 ∧
          (∀ i < 8, e.wordCheck (k * 16384 + row * 8 + i) ≠ memCorrected) ∧ e.mem.bytes = d.mem.bytes ∧
          OnlyParts [.regs, .mem, .test] d e ∧ OnlyWindow b d e) ∧
      (12 ≤ (d.sparesUsed k false).length →
        Completes (.rowRemap c (bank.castLE (by decide)) row x) s fun e =>
          e.fld b Reg.MEM_EVENT.ROW_SPARES_OUT = 1 ∧ e.mem = { d.mem with turn := e.mem.turn } ∧ OnlyParts [.regs, .mem] d e ∧
          OnlyRegs [b + Reg.MEM_EVENT.SEC.off] d e)) ∧
    (d.domainOn (26 + q) = true →
      (∀ x < 256, quadrantOf x = q.val → d.fenced x = false → d.fld (columnBase 1 x) Reg.MEM_STATUS.INIT_DONE = 0) →
      Completes (.bankInit q) s fun e =>
        (∀ a < 2 ^ 30, e.mem.bytes.at a 0 =
          if quadrantOf (wordColumn (a / 32)) = q.val ∧ d.fenced (wordColumn (a / 32)) = false ∧ d.bankDead (wordBank (a / 32)) = false
          then 0 else d.mem.bytes.at a 0) ∧
        (∀ x < 256, e.fld (columnBase 1 x) Reg.MEM_STATUS.INIT_DONE =
          if quadrantOf x = q.val ∧ d.fenced x = false then 1 else d.fld (columnBase 1 x) Reg.MEM_STATUS.INIT_DONE) ∧
        OnlyParts [.regs, .mem] d e) ∧
    Completes .viaCountDecay s fun e =>
      (∀ x, e.stack.viaCount.num x = d.stack.viaCount.num x - 1) ∧ OnlyParts [.stack] d e) ∧
  ∀ (s : State) (path : Fin 8) (c : Fin 256) (mode : Bool) (banks : BitVec 8) (v : Fin 4), s.quiet = true →
    let b := columnBase 1 c
    let v0 := columnBase 0 c
    let d := s.dev
    let set (e : Dev) : Prop := e.fld b Reg.MARCH_CTRL.MODE = bit01 mode ∧ e.fld b Reg.MARCH_CTRL.BANKS = banks.toNat ∧
      e.answered path stOk 0 ∧ OnlyWindow b d e
    (d.reached path (b + Reg.MARCH_CTRL.GO.off) = true →
      (d.ust b = .stopped ∨ d.ust b = .isolated → d.mem.march.has c = false →
        Completes (.marchGo path c mode banks) s fun e =>
          set e ∧ e.mem = { d.mem with march := d.mem.march.put c (banks.toNat, bit01 mode) } ∧
          e.fld b Reg.MEM_STATUS.MARCH_BUSY = 1 ∧ OnlyParts [.regs, .ctl, .mem] d e) ∧
      (d.runs b = true → Completes (.marchGo path c mode banks) s fun e =>
        set e ∧ e.fld b Reg.MEM_EVENT.MARCH_REJECT = 1 ∧ OnlyParts [.regs, .ctl] d e)) ∧
    (d.mem.march.look c = some (banks.toNat, bit01 mode) → d.marchRests c = true →
      Completes (.marchDone c []) s (fun e =>
        (∀ p, e.wordData p = if !mode && wordColumn p == c.val && decide (p < 2 ^ 25) && bitOf banks.toNat (wordBank p % 8)
          then 0 else d.wordData p) ∧
        e.mem.march.has c = false ∧ e.fld b Reg.MARCH_STATUS.DONE = banks.toNat ∧ e.fld b Reg.MARCH_STATUS.FAIL = 0 ∧
        e.fld b Reg.MEM_STATUS.MARCH_BUSY = 0 ∧ e.fld b Reg.MEM_EVENT.MARCH_DONE = 1 ∧ OnlyParts [.regs, .mem] d e ∧
        OnlyWindow b d e) ∧
      (∀ (bank : Fin 8) (line : Bool) (pos : Fin 2128), bitOf banks.toNat bank = true →
        (d.sparesUsed (c.val * 8 + bank) line).length < (if line then 8 else 12) →
        Completes (.marchDone c [(bank, line, pos)]) s fun e =>
          e.sparesUsed (c.val * 8 + bank) line = pos.val :: d.sparesUsed (c.val * 8 + bank) line ∧
          e.fld b Reg.MARCH_STATUS.FAIL = 0 ∧ e.fld b Reg.MEM_EVENT.MARCH_DONE = 1 ∧ OnlyParts [.regs, .mem, .test] d e)) ∧
    (d.usersIn c = [] → d.strike.columns.contains c.val = false → d.ust v0 ≠ .off →
      d.fld v0 Reg.VLINK_STATE.CLOCK ≠ 3 → d.fld v0 Reg.CLK_VIA.ACTIVE = v → (∀ u < 4, v.val < u → bitOf (d.fld v0 Reg.CLK_VIA.FAILED) u = false) → v ≠ 3 →
      Completes (.clockViaFail c) s fun e =>
        e.fld v0 Reg.CLK_VIA.ACTIVE = v.val + 1 ∧ bitOf (e.fld v0 Reg.CLK_VIA.FAILED) v = true ∧ e.fenced c = true ∧
        e.fld v0 Reg.VIA_EVENT.CLOCK_SPARE = 1 ∧ e.fld v0 Reg.VLINK_STATE.CLOCK = 2 ∧ OnlyParts [.regs, .stack, .test] d e) ∧
    (d.stack.fence.num c = 1 → d.fld v0 Reg.VLINK_STATE.CLOCK = 2 → Completes (.clockViaRestart c) s fun e =>
      e.fenced c = false ∧ e.fld v0 Reg.VLINK_STATE.CLOCK = (if d.fld v0 Reg.CLK_VIA.ACTIVE = 0 then 0 else 1) ∧
      (∀ l ∈ [2, 4], d.ust (columnBase l c) ≠ .off → e.fld (columnBase l c) Reg.TILE_EVENT.FENCE_RELEASED = 1) ∧
      OnlyParts [.regs, .stack] d e)

/-! ## Rings -/

/-- Slots on their way into rings (R259, R264, R267, R268, R271). A push into an OPEN ring of a running engine enters its FIFO, or, where
the FIFO is full, is discarded and begins an episode, and one into a CLOSED ring is refused with its code; the slot at the FIFO's head is
written at WR, over slot AGE where the ring is full, which is a premature loss; an episode passes to the gap writer at RESUME and ends once
every ring of its record has its gap slot. The model's choice here is log entry 98. -/
def Obligations.SlotsEnterRings : Prop :=
  ∀ (s : State) (port : Fin 32) (e : Fin 16) (l : Fin 16384) (cross : BitVec 48) (tag : Byte) (late : Bool) (data : BitVec 192),
    s.quiet = true →
    let b := ringBase e
    let d := s.dev
    let g := d.engine e
    let corner := (groupColumns (port / 2)).headD 0
    let live := d.portLive [corner * 2, corner * 2 + 1] (portPush + port % 2)
    let r := ringId e l
    let x := d.desc r
    let ring : BitVec 18 := BitVec.ofNat 18 r
    let w := slotWord cross.toNat late false false false tag.toNat data.toNat
    (live = true → d.kryup.warm = false → d.runs b = true →
      (x.state = .opened → g.fifo.length < 4096 →
        Completes (.push port ring cross tag late data) s fun t =>
          t.engine e = { g with fifo := g.fifo ++ [{ ring := l, word := w }] } ∧ t.rings.desc = d.rings.desc ∧
          OnlyParts [.rings, .strike] d t) ∧
      (x.state = .opened → g.fifo.length = 4096 → g.gap = .closed → g.record.count = 0 →
        Completes (.push port ring cross tag late data) s fun t =>
          t.engine e = { g with gap := .opened, record := { rings := [l.val], count := 1, oldest := cross.toNat, newest := cross.toNat } } ∧
          Counted b Reg.FIFO_DISC_COUNT.COUNT 1 d t ∧ t.fld b Reg.ENG_EVENT.OVERFLOW = 1 ∧ OnlyParts [.regs, .rings] d t ∧
          OnlyRegs [b + Reg.FIFO_DISC_COUNT.COUNT.off, b + Reg.ENG_EVENT.OVERFLOW.off] d t) ∧
      (x.state = .closed →
        Completes (.push port ring cross tag late data) s fun t =>
          t.rings.pushErr.look port = some (2 * 2 ^ 18 + r) ∧ t.engine e = g ∧ Counted b Reg.PUSH_ERR_COUNT.COUNT 1 d t ∧
          t.fld b Reg.ENG_EVENT.PUSH_ERR = 1 ∧ OnlyParts [.regs, .rings] d t ∧
          OnlyRegs [b + Reg.PUSH_ERR_COUNT.COUNT.off, b + Reg.ENG_EVENT.PUSH_ERR.off] d t)) ∧
    (∀ rest : List RingSlot, d.ringWorks e = true → g.fifo = { ring := l, word := w } :: rest → g.flushing = false →
      x.state = .opened → x.wr < 2 ^ 32 → x.age < 2 ^ 32 → x.base % 32 = 0 → x.slotAddr x.wr < 2 ^ 30 →
      d.baseBarred false (x.slotAddr x.wr / 32) = false → (d.ringsOf e).any (fun i => (d.desc (ringId e i)).state == .dead) = false →
      g.upset = {} →
      let p := d.physWord (x.slotAddr x.wr / 32)
      let full : Bool := decide (x.cap ≤ x.occ)
      Completes (.slotWrite e false {} []) s fun t =>
        t.wordData p = w ∧ (∀ y, y ≠ p → t.wordData y = d.wordData y) ∧ (t.engine e).fifo = rest ∧
        t.desc r = { x with wr := (x.wr + 1) % 2 ^ 32, age := if full then (x.age + 1) % 2 ^ 32 else x.age,
                            premValid := x.premValid || full, premLast := if full then d.now else x.premLast } ∧
        (full = true → Counted b Reg.PREM_LOSS_COUNT.COUNT 1 d t ∧ t.fld b Reg.ENG_EVENT.PREM_LOSS = 1) ∧
        OnlyParts [.regs, .mem, .rings, .strike] d t ∧
        OnlyRegs [b + Reg.PREM_LOSS_COUNT.COUNT.off, b + Reg.ENG_EVENT.PREM_LOSS.off] d t) ∧
    (g.gap = .opened → g.fifo.length ≤ d.resumeAt e →
      Completes (.gapRecordHandoff e) s fun t =>
        t.engine e = { g with gap := .writing, writing := g.record, record := {} } ∧ OnlyParts [.rings] d t) ∧
    (g.gap = .writing → d.ringWorks e = true → g.writing.rings = [l.val] → g.flushing = false → x.state = .opened →
      x.base % 32 = 0 → x.slotAddr x.wr < 2 ^ 30 → d.baseBarred false (x.slotAddr x.wr / 32) = false → x.occ < x.cap →
      (d.ringsOf e).any (fun i => (d.desc (ringId e i)).state == .dead) = false → g.upset = {} →
      Completes (.gapWritten e [] []) s fun t =>
        (∃ o, t.wordData (d.physWord (x.slotAddr x.wr / 32)) = g.writing.slot o) ∧ (t.desc r).wr = (x.wr + 1) % 2 ^ 32 ∧
        (t.engine e).writing = {} ∧ (t.engine e).gap = (if g.record.count = 0 then .closed else .opened) ∧
        t.fld b Reg.ENG_EVENT.GAP_WRITTEN = 1 ∧ OnlyParts [.free, .regs, .mem, .rings, .strike] d t)

/-- Rule R271. A slot that the storage writer writes into a full ring overwrites slot AGE, in the memory die or in LPDDR5X, and adds 1 to
AGE: a premature loss, counted in PREM_LOSS_COUNT, with PREM_LOSS and PREM_VALID set and PREM_LAST at the current crossing. The write is one
that succeeds; the latches of the causes that a memory may offer are set. -/
def Obligations.FullRingLosesItsOldestSlot : Prop :=
  ∀ (s : State) (e : Fin 16) (l : Fin 16384) (w : RowWord) (rest : List RingSlot), s.quiet = true →
    let d := s.dev
    let b := ringBase e
    let g := d.engine e
    let r := ringId e l
    let x := d.desc r
    let oldest := x.slotAddr x.age
    let put := if ringInDie oldest then d.baseWrite .ring (dsOffset oldest / 32) fullMask w else d.dsWrite32 clsRing oldest w
    d.ringWorks e = true → d.latched 0x0A = true → d.latched 0x0B = true → g.fifo = { ring := l, word := w } :: rest → g.flushing = false →
    (d.ringsOf e).any (fun i => (d.desc (ringId e i)).state == .dead) = false → x.state = .opened → x.logCap ≤ 16 →
    x.wr < 2 ^ 32 → x.age < 2 ^ 32 → x.base % 32 = 0 → x.occ = x.cap → slotEnd (ringInDie oldest) put.2 = some true → g.upset = {} →
    Completes (.slotWrite e false {} []) s fun t =>
      t.mem = put.1.mem ∧ t.ext = put.1.ext ∧
      (ringInDie oldest = true → t.wordData (t.physWord (dsOffset oldest / 32)) = w) ∧
      t.desc r = { x with wr := (x.wr + 1) % 2 ^ 32, age := (x.age + 1) % 2 ^ 32, premValid := true, premLast := d.now } ∧
      Counted b Reg.PREM_LOSS_COUNT.COUNT 1 d t ∧ t.fld b Reg.ENG_EVENT.PREM_LOSS = 1 ∧ (t.engine e).fifo = rest ∧
      OnlyParts [.regs, .mem, .rings, .strike, .ext, .kryup] d t

/-- Rings open, age and close (R262, R270, R273, R283, R285). OPEN sets a CLOSED ring with a capacity and a base it may have to empty at
this crossing, and CLOSE closes one; REBUILD makes every node STALE until REBUILD_DONE, which also completes a start; the sweeper moves on
to the next OPEN ring and, after W + G crossings, reclaims up to its checkpoint and takes a new one; a flush empties every ring it had
still to visit, with the jump's new number as its checkpoint. An update that meets a leaf's node word with one bit struck corrects and counts
it; one it cannot correct makes the node STALE, with TREE_DED and NEAR_FULL (R281 to R283). The model's choice here is log entry 98. -/
def Obligations.RingsOpenAgeAndClose : Prop :=
  ∀ (s : State) (path : Fin 8) (e : Fin 16) (l : Fin 16384), s.quiet = true →
    let b := ringBase e
    let d := s.dev
    let g := d.engine e
    let r := ringId e l
    let x := d.desc r
    let said (st : Nat) (t : Dev) : Prop := t.fld b Reg.RING_CMD_STATUS.STATUS = st ∧ t.fld b Reg.RING_CMD.RING = l ∧
      t.answered path stOk 0 ∧ OnlyRegs [b + Reg.RING_CMD.OP.off, b + Reg.RING_CMD_STATUS.STATUS.off] d t
    (d.reached path (b + Reg.RING_CMD.GO.off) = true → x.state = .opened → x.occ ≠ 0 → g.frozen = none →
      g.stale.has (nodeKey 0 l) = false →
      (g.upset.items = [(nodeKey 0 l, 1)] →
        Completes (.closeRing path e l) s fun t =>
          Counted b Reg.TREE_SEC_COUNT.COUNT 1 d t ∧ t.fld b Reg.ENG_EVENT.TREE_SEC = 1 ∧ (t.engine e).stale = g.stale ∧
          (t.engine e).upset.items = [] ∧ OnlyParts [.regs, .ctl, .rings] d t) ∧
      (g.upset.items = [(nodeKey 0 l, 2)] →
        Completes (.closeRing path e l) s fun t =>
          Counted b Reg.TREE_DED_COUNT.COUNT 1 d t ∧ t.fld b Reg.ENG_EVENT.TREE_DED = 1 ∧ t.engNear e = true ∧
          (t.engine e).stale.has (nodeKey 0 l) = true ∧ bitOf (t.fld b Reg.FAULT.SPECIFIC) 2 = true ∧
          OnlyParts [.regs, .ctl, .rings, .strike] d t)) ∧
    (d.reached path (b + Reg.RING_CMD.GO.off) = true → g.upset = {} →
      (g.frozen = none → x.state = .closed → 4 ≤ x.logCap → x.logCap ≤ 16 → d.baseOk x = true →
        Completes (.openRing path e l) s fun t =>
          t.desc r = { x with state := .opened, wr := 0, age := 0, ckWr := 0, ckCross := d.now, premValid := false } ∧
          said 0 t ∧ OnlyParts [.regs, .ctl, .rings] d t) ∧
      (g.frozen = none → x.state = .opened →
        Completes (.openRing path e l) s fun t => said 2 t ∧ OnlyParts [.regs, .ctl] d t) ∧
      Completes (.closeRing path e l) s (fun t =>
        t.desc r = { x with state := .closed } ∧ (∀ i, i ≠ r → t.desc i = d.desc i) ∧ said 0 t ∧
        OnlyParts [.regs, .ctl, .rings] d t) ∧
      (d.fld b Reg.RING_CMD.RING = l → x.state = .opened →
        Completes (.rebuild path e) s fun t =>
          (t.engine e).frozen.map (·.num l) = some x.occ ∧ t.rings.desc = d.rings.desc ∧ said 0 t ∧
          OnlyParts [.regs, .ctl, .rings, .strike] d t)) ∧
    (g.frozen.isSome = true → d.ust b ≠ .starting →
      Completes (.rebuildDone e) s fun t =>
        t.engine e = { g with frozen := none } ∧ t.fld b Reg.ENG_EVENT.REBUILD_DONE = 1 ∧ OnlyParts [.regs, .rings] d t ∧
        OnlyRegs [b + Reg.ENG_EVENT.OVERFLOW.off] d t) ∧
    (d.ringWorks e = true → d.nextOpen e g.sweepAt = some l.val → g.upset = {} →
      Completes (.sweepVisit e false []) s fun t =>
        (t.engine e).sweepAt = l ∧ (∀ i, i ≠ r → t.desc i = d.desc i) ∧
        (crossSub d.now x.ckCross < d.retain e + d.ageGuard e → t.desc r = x) ∧
        (d.retain e + d.ageGuard e ≤ crossSub d.now x.ckCross →
          t.desc r = { x with age := if (x.ckWr + 2 ^ 32 - x.age) % 2 ^ 32 ≤ x.occ then x.ckWr else x.age, ckWr := x.wr, ckCross := d.now }) ∧
        OnlyParts [.rings] d t) ∧
    (g.flushing = true → g.upset = {} →
      Completes (.flushDone e []) s fun t =>
        (t.engine e).flushing = false ∧
        (g.flushed.mem l = false → t.desc r = { x with age := x.wr, ckWr := x.wr, ckCross := g.flushTo } ∧ (t.desc r).occ = 0) ∧
        (g.flushed.mem l = true → t.desc r = x) ∧ OnlyParts [.rings] d t)

/-- Accepts (R275 to R279, R295). The Strike Port's accept reaches every running engine with room. Of the waiting accepts the first of the
highest priority is extracted: a mapped group with nothing selected still gives one empty fragment with LAST set, and one slot that the
window selects gives a fragment of a ring header and that slot. A fragment leaves by its trunk lane or for the readout queue, whose writer
advances RQ_WR when the whole entry has been written and otherwise counts FRAG_ERR; with the last one the accept is done. While a fragment
waits for the queue the next one waits. The model's choice here is log entry 98. -/
def Obligations.AcceptsAreServed : Prop :=
  ∀ (s : State) (e k : Fin 16) (type : Fin 16) (num : BitVec 12) (a : Accept) (f : Frag), s.quiet = true →
    let b := ringBase e
    let d := s.dev
    let g := d.engine e
    let cross := d.acceptCross num.toNat
    let served : Prop := d.ringWorks e = true ∧ g.frags = [] ∧ nextAccept g.accepts = some a ∧
      (d.ringsOf e).any (fun i => (d.desc (ringId e i)).state == .dead) = false ∧
      (List.range 16).filter (fun i => bitOf a.map i && d.flag b (Reg.GRP_DEST.EN.elem i)) = [k.val]
    let old := crossBefore (crossSub a.cross a.before) (crossSub d.now (d.retain e))
    let frag : Frag := { group := k, cross := a.cross, seq := 0, last := true, gap := old, late := false,
                         stream := d.fld b (Reg.GRP_DEST.STREAM.elem k), slots := [] }
    let busy := (d.ringsOf e).filter fun i => i / 1024 == k.val && decide ((d.desc (ringId e i)).occ ≠ 0)
    let base := (d.reg (b + Reg.RQ_BASE_LO.ADDR_LO.off)).toNat + d.fld b Reg.RQ_BASE_HI.ADDR_HI * 2 ^ 32
    let head : RowWord := BitVec.ofNat 256 (f.block0 e + f.block1 e * 2 ^ 64 + f.stream * 2 ^ 128)
    let put := d.rqWrites base (d.rqSize e) (d.fld b Reg.RQ_WR.COUNT) (head :: f.slots)
    (d.domainOn 7 = true → d.counting = true → d.trunkStopped = false → d.strike.sampled = false → d.proofDepth strikeBase = none → d.runs strikeBase = true →
      d.fld strikeBase Reg.STK_STATUS.HOLD = 0 → bitOf (d.fld strikeBase Reg.STK_ACC_CFG.TYPE_EN) type = true →
      Completes (.stkAccSample true type num) s fun t =>
        (d.runs b = true → g.accepts.length < 256 → d.ringMajor e ≠ 1 →
          (t.engine e).accepts = g.accepts ++ [d.strikeAccept e type cross]) ∧
        Counted strikeBase Reg.STK_ACC_COUNT.COUNT 1 d t ∧
        t.reg (strikeBase + Reg.STK_ACC_LAST.off) = BitVec.ofNat 32 (cross % 2 ^ 16 * 2 ^ 16 + type.val * 2 ^ 8) ∧
        OnlyParts [.regs, .rings, .strike] d t) ∧
    (served → busy = [] →
      Completes (.extract e [] []) s fun t =>
        (t.engine e).frags = [frag] ∧ (t.engine e).accepts = g.accepts.erase a ∧ OnlyParts [.free, .rings] d t) ∧
    (∀ (l : Fin 16384) (w : RowWord), served → busy = [l.val] → g.flushing = false →
      let x := d.desc (ringId e l)
      let addr := x.slotAddr x.age
      x.occ = 1 → 2 ≤ d.fragCap e k →
      (if ringInDie addr then d.baseRead .ring (dsOffset addr / 32) else d.dsRead32 clsRing addr) = (d, 0, w) → slotGap w = false →
      d.slotLive e (slotCross w) = true → a.holds (slotCross w) = true → x.premValid = false →
      (∀ stop, d.scanStop e a = some stop → crossBefore (slotCross w) stop = false) →
      Completes (.extract e [] []) s fun t =>
        (∃ o, (t.engine e).frags =
          [{ frag with late := slotLate w, slots := [ringHeader o { ring := ringId e l, slots := [w], prem := false } 1, w] }]) ∧
        (t.engine e).accepts = g.accepts.erase a ∧ OnlyParts [.free, .rings] d t) ∧
    (g.frags = [f] → g.rqWait ≠ [] → Completes (.fragmentSend e) s fun t => t = d) ∧
    (d.ringWorks e = true → g.frags = [f] → g.rqWait = [] →
      (∀ n, d.fragLane e f.group = some n → d.txBarred n (f.msg e 0) = false →
        Completes (.fragmentSend e) s fun t =>
          (t.engine e).frags = [] ∧ Counted b Reg.ACC_DONE_COUNT.COUNT 1 d t ∧
          (t.link n).txQueue.length = (d.link n).txQueue.length + 1 ∧
          (∃ stamp, (t.link n).txQueue = (d.link n).txQueue ++ [{ msg := f.msg e stamp, orig := .engine e }]) ∧
          OnlyParts [.free, .regs, .links, .rings] d t ∧ OnlyRegs [b + Reg.ACC_DONE_COUNT.COUNT.off] d t) ∧
      (d.fragLane e f.group = none →
        Completes (.fragmentSend e) s fun t =>
          t.engine e = { g with frags := [], rqWait := [f] } ∧ OnlyParts [.rings] d t)) ∧
    (d.ringWorks e = true → g.rqWait = [f] → d.rqRoom e f = true → d.latched 0x0A = true → d.latched 0x0B = true →
      Completes (.readoutQueueWrite e []) s fun t =>
        (t.engine e).rqWait = [] ∧ t.ext.lines = put.1.ext.lines ∧
        Counted b Reg.ACC_DONE_COUNT.COUNT (if g.frags = [] then 1 else 0) d t ∧
        (put.2 = true → t.fld b Reg.RQ_WR.COUNT = (d.fld b Reg.RQ_WR.COUNT + f.bytes) % 2 ^ 32 ∧ Counted b Reg.FRAG_COUNT.COUNT 1 d t) ∧
        (put.2 = false → t.fld b Reg.RQ_WR.COUNT = d.fld b Reg.RQ_WR.COUNT ∧ Counted b Reg.FRAG_ERR_COUNT.COUNT 1 d t ∧
          t.fld b Reg.ENG_EVENT.FRAG_ERR = 1) ∧
        OnlyParts [.regs, .mem, .rings, .ext, .kryup] d t)

/-! ## External memory and movers -/

/-- A fabric data port's access to a line of LPDDR5X that the engine, the controller and the key let pass (R312, R318, R320 to R323, R325,
R326), at a port that can take it and has none outstanding. A full-line write stores the data as enciphered under the key and the tweak of its address, under key 0 as
they are, with STATE GOOD, or POISON; a read answers the plaintext where the line verifies, and zeros with its status where it does not; a
partial write of a line that verifies replaces its bytes. A key that R316 refuses ends KEY and is counted. No other line changes. A port with
16 outstanding, or whose group's clock does not run, takes nothing. The model's choices here are log entries 10 and 94. -/
def Obligations.FabricDataPortsReachLines : Prop :=
  ∀ (s : State) (port : Fin 4) (k : Fin 16) (n : Nat) (ben : BitVec 64) (data : Line) (poison : Bool), s.quiet = true →
    let d := s.dev
    let addr : BitVec 56 := BitVec.ofNat 56 (k.val * 2 ^ 52 + extFirst + 64 * n)
    let v := 64 * n
    let l := d.extLine n
    let state : BitVec 4 := if poison then linePoison else lineGood
    let found := d.verify k v l
    let ends (st : Nat) (x : Line) (e : Dev) : Prop :=
      e.ext.fdp.look port = some { status := st, data := x, acks := (d.ext.fdp.at port {}).acks + 1 } ∧
      e.ext.fdpQueue.look port = none ∧ ∀ m, m ≠ n → e.extLine m = d.extLine m
    (d.fdpReady port = false → Completes (.fdpRead port addr {}) s fun e => e = d) ∧
    (v < d.visible → d.visible ≤ 2 ^ 37 → d.latched 0x0A = true → d.latched 0x0B = true → d.fdpReady port = true →
      d.fdpWaiting port = [] → d.portLive (portTiles (quadrantGroup port)) portData = true →
      (d.extRefused v = false → d.keyRefused clsFdp k = false →
        Completes (.fdpFullWrite port addr data poison {}) s (fun e =>
          ends dsOk 0 e ∧ e.extLine n = d.sealLine k v state data ∧ (e.extLine n).state = state ∧
          (k = 0 → (e.extLine n).data = data) ∧ OnlyParts [.ext] d e) ∧
        (found = dsOk →
          Completes (.fdpRead port addr {}) s (fun e =>
            ends dsOk (d.decrypt k v l) e ∧ (k = 0 → d.decrypt k v l = l.data) ∧ e.extLine n = l ∧ OnlyParts [.ext] d e) ∧
          (ben ≠ 0 → ben ≠ BitVec.allOnes 64 →
            Completes (.fdpPartialWrite port addr ben data {}) s fun e =>
              ends dsOk 0 e ∧ e.extLine n = d.sealLine k v lineGood (mergeLine (d.decrypt k v l) data ben.toNat) ∧
              OnlyParts [.ext] d e)) ∧
        (dsDone found = false →
          Completes (.fdpRead port addr {}) s (fun e =>
            ends found 0 e ∧ e.extLine n = l ∧
            (found = dsTag → Counted cryptoBase Reg.TAG_FAIL_COUNT.COUNT 1 d e ∧ e.fld cryptoBase Reg.CRY_EVENT.TAG = 1) ∧
            (found = dsPoison → Counted cryptoBase Reg.POISON_COUNT.COUNT 1 d e ∧ e.fld cryptoBase Reg.CRY_EVENT.POISON = 1) ∧
            OnlyParts [.regs, .ext, .kryup] d e) ∧
          (ben ≠ 0 → ben ≠ BitVec.allOnes 64 →
            Completes (.fdpPartialWrite port addr ben data {}) s fun e => ends found 0 e ∧ e.extLine n = l))) ∧
      (d.extRefused v = false → d.keyRefused clsFdp k = true →
        Completes (.fdpRead port addr {}) s fun e =>
          ends dsKey 0 e ∧ e.extLine n = l ∧ Counted cryptoBase Reg.KEY_REFUSE_COUNT.COUNT 1 d e ∧
          e.fld cryptoBase Reg.CRY_EVENT.KEY = 1 ∧ OnlyParts [.regs, .ext] d e))

/-- Memory controllers and regions (R313, R327 to R330, R336). A start whose eight channels train fills the lines of the controller as INIT
selects, unless they were retained, and the controller runs; a retraining round counts a channel's first failure and faults the channel at
its second in a row; the scrub mends a single flip; MR4's rate above twice the nominal one sets DRAM_HOT; and a region register is stored
while the engine is STOPPED and turned away with CTRL_REJECT while it runs. The model's choice here is log entry 94. -/
def Obligations.ControllersAndRegions : Prop :=
  ∀ (s : State) (path : Fin 8) (w : Fin 2) (c : Fin 8) (r : Fin 16) (k : Fin 4) (n rate : Nat) (value : Word), s.quiet = true →
    let d := s.dev
    let b := mcBase w
    let ch := 8 * w.val + c.val
    let served : Prop := d.ust b = .running ∧ bitOf (d.fld b Reg.MC_STATUS.FAULTED) c = false
    let once (e : Dev) : Prop := Counted b Reg.MC_RETRAIN_COUNT.COUNT 1 d e
    let v := 64 * n
    let line (d : Dev) : ExtLine := d.extLine n
    (d.ust b = .starting → d.clk.mpllLock = true → d.proving b = false → d.units.loss.mem b = false →
      d.units.user.look b = none →
      Completes (.mcInitDone w 255) s fun e =>
        e.ust b = .running ∧ e.fld b Reg.MC_STATUS.TRAINED = 255 ∧ e.fld b Reg.MC_STATUS.FAULTED = 0 ∧
        e.fld b Reg.MC_EVENT.INIT_DONE = 1 ∧ e.ext.retained.mem w = false ∧
        (extController v = w → d.ext.retained.mem w = false →
          (d.initMode w = 1 → (line e).state = linePoison) ∧
          (d.initMode w = 2 → line e = { tag := lineTag (d.keys 0).k3 0 n 0 }) ∧
          (d.initMode w ≠ 1 → d.initMode w ≠ 2 → line e = line d)) ∧
        (extController v ≠ w ∨ d.ext.retained.mem w = true → line e = line d) ∧ OnlyParts [.free, .regs, .ext] d e) ∧
    (d.ust b = .starting → d.clk.mpllLock = true →
      Completes (.mcInitDone w 0) s fun e =>
        e.ust b = .faulted ∧ e.fld b Reg.MC_STATUS.FAULTED = 255 ∧ e.fld b Reg.MC_EVENT.CH_FAULT = 1 ∧ e.fld b Reg.FAULT.START_FAIL = 1) ∧
    (served → (∀ x < 8, x ≠ c.val → d.ext.retrainBad.has (8 * w + x) = false) →
      (d.ext.retrainBad.mem ch = false →
        Completes (.mcRetrain w (BitVec.ofNat 8 (2 ^ c.val))) s fun e =>
          e.ext.retrainBad.mem ch = true ∧ once e ∧ OnlyParts [.regs, .ext] d e ∧
          OnlyRegs [b + Reg.MC_RETRAIN_COUNT.COUNT.off] d e) ∧
      (d.ext.retrainBad.mem ch = true →
        Completes (.mcRetrain w (BitVec.ofNat 8 (2 ^ c.val))) s fun e =>
          bitOf (e.fld b Reg.MC_STATUS.FAULTED) c = true ∧ e.fld b Reg.MC_EVENT.CH_FAULT = 1 ∧ once e ∧ e.ust b = .degraded)) ∧
    (extController v = w → v < d.visible → extChannel v % 8 = c → served → d.mcScrub b Reg.MC_SCRUB.EN = true →
      (line d).check = dsCorrected →
      Completes (.mcScrubLine n {}) s fun e =>
        line e = (line d).mended ∧ Counted b Reg.MC_SEC_COUNT.COUNT 1 d e ∧ e.fld b Reg.MC_EVENT.SEC = 1 ∧
        OnlyParts [.regs, .ext] d e ∧ OnlyRegs [b + Reg.MC_SEC_COUNT.COUNT.off, b + Reg.MC_EVENT.SEC.off] d e) ∧
    (served → 8 < rate →
      Completes (.dramHot w rate) s fun e =>
        e.fld b Reg.MC_EVENT.DRAM_HOT = 1 ∧ e.ext = { d.ext with refresh := d.ext.refresh.put w rate } ∧
        OnlyParts [.regs, .ext] d e ∧ OnlyRegs [b + Reg.MC_EVENT.DRAM_HOT.off] d e) ∧
    (d.reached path (regionAddr r k) = true →
      (d.ust cryptoBase = .stopped →
        Completes (.regionWrite path r k value) s fun e =>
          (k.val ≤ 2 → e.reg (regionAddr r k) = value) ∧
          (k.val = 3 → ∀ f ∈ [Reg.REG_LBN_HI.EN, Reg.REG_LBN_HI.SECTOR, Reg.REG_LBN_HI.LBN_HI],
            fget (e.reg (regionAddr r k)) f = fget value f) ∧
          e.answered path stOk 0 ∧ OnlyParts [.regs, .ctl] d e ∧ OnlyRegs [regionAddr r k] d e) ∧
      (d.runs cryptoBase = true →
        Completes (.regionWrite path r k value) s fun e =>
          e.reg (regionAddr r k) = d.reg (regionAddr r k) ∧ e.fld cryptoBase Reg.EVENT.CTRL_REJECT = 1 ∧ e.answered path stOk 0 ∧
          OnlyParts [.regs, .ctl] d e ∧ OnlyRegs [cryptoBase + Reg.EVENT.CTRL_REJECT.off] d e))

/-- Movers (R332 to R334). GO starts the chain at MV_DESC with BUSY set, or is REJECTED while one runs. A last descriptor that
fills bytes of one line of the memory die writes the fill word's bytes there, its STAT 0, and no other byte, counts the bytes, clears
BUSY and sets CHAIN_DONE; one that names a key ends the chain with KEY in its STAT. -/
def Obligations.MoversRunDescriptors : Prop :=
  ∀ (s : State) (path : Fin 8) (m : Fin 8) (c : Chain) (q : MoverDesc), s.quiet = true →
    let d := s.dev
    let b := moverBase m
    let start := (d.reg (b + Reg.MV_DESC_LO.ADDR_LO.off)).toNat + d.fld b Reg.MV_DESC_HI.ADDR_HI * 2 ^ 32
    let place (a : Nat) : Nat := 32 * d.physWord (a / 32) + a % 32
    let good (line : Nat) : Prop := ∀ i < 2,
      d.baseBarred false (2 * line + i) = false ∧ d.wordCheck (d.physWord (2 * line + i)) = memOk
    let word := d.wordData (d.physWord (c.desc / 32))
    (d.reached path (b + Reg.MV_CTRL.GO.off) = true →
      (d.ext.chains.look m = none → d.runs b = true →
        Completes (.moverGo path m) s fun e =>
          e.ext = { d.ext with chains := d.ext.chains.put m { desc := start } } ∧ e.fld b Reg.MV_STATUS.BUSY = 1 ∧
          e.answered path stOk 0 ∧ OnlyParts [.regs, .ctl, .ext] d e ∧ OnlyRegs [b + Reg.MV_STATUS.BUSY.off] d e) ∧
      (d.ext.chains.look m = some c →
        Completes (.moverGo path m) s fun e =>
          e.fld b Reg.MV_STATUS.ERR = mvRejected ∧ e.answered path stOk 0 ∧ OnlyParts [.regs, .ctl] d e ∧
          OnlyRegs [b + Reg.MV_STATUS.BUSY.off] d e)) ∧
    (d.ext.chains.look m = some c → d.runs b = true → c.desc % 32 = 0 → c.desc < 2 ^ 30 → good (c.desc / 64) →
      q = moverDesc (d.fld b Reg.UNIT_VER.MAJOR) word →
      (q.bar = none → q.fill = true → q.last = true → q.dst % 64 + q.len ≤ 64 → q.dst + q.len ≤ 2 ^ 30 →
        q.dst / 64 ≠ c.desc / 64 → good (q.dst / 64) →
        Completes (.descriptorEnd m []) s fun e =>
          (∀ i < q.len, e.mem.bytes.at (place (q.dst + i)) 0 = byteOf q.src (i % 4)) ∧
          e.mem.bytes.at (place (c.desc + 31)) 0 = 0 ∧
          (∀ a, (∀ i < q.len, a ≠ place (q.dst + i)) → a ≠ place (c.desc + 31) → e.mem.bytes.at a 0 = d.mem.bytes.at a 0) ∧
          Counted b Reg.MV_BYTES_COUNT.COUNT q.len d e ∧ e.fld b Reg.MV_STATUS.BUSY = 0 ∧ e.fld b Reg.MV_EVENT.CHAIN_DONE = 1 ∧
          (q.irq = true → e.fld b Reg.MV_EVENT.DESC_DONE = 1) ∧ e.ext.chains.look m = none ∧ OnlyParts [.regs, .mem, .ext] d e ∧
          OnlyWindow b d e) ∧
      (q.bar = some mvKey →
        Completes (.descriptorEnd m []) s fun e =>
          e.mem.bytes.at (place (c.desc + 31)) 0 = BitVec.ofNat 8 mvKey ∧
          (∀ a, a ≠ place (c.desc + 31) → e.mem.bytes.at a 0 = d.mem.bytes.at a 0) ∧ e.fld b Reg.MV_STATUS.ERR = mvKey ∧
          e.fld b Reg.MV_STATUS.BUSY = 0 ∧ e.fld b Reg.MV_EVENT.CHAIN_ERR = 1 ∧ e.ext.chains.look m = none))

/-! ## The image and the loader -/

/-- Records that an open load of a full image only takes in, each whole and in its place (R338, R340 to R344, R350 to R358, R364). GALLEY_OPEN opens
a galley inside the innermost one and GALLEY_CLOSE closes it; PIN_TABLE, UNIT_SETTINGS, RING_MAP, MEMORY_PRELOAD, THERMAL_MAP and LATENCY are
kept, as their words spell them, until the whole image has verified; an optional record of an unknown kind is skipped. Each counts as one
record more, and its words are taken from the image. Where the words that come next are no whole record of the command's kind, nothing
changes. The model's choices here are log entries 40 and 130. -/
def Obligations.ImageRecordsAreTaken : Prop :=
  ∀ (s : State) (flash : List Word) (img : Image) (r : List Word), s.quiet = true →
    let d := s.dev
    let h := recordHead r
    let p := (d.payload img r).getD []
    let good (kind place need : Nat) (check : List Word → Nat) : Prop := h.kind = kind ∧ d.recordCause img r place need check = 0
    let seen : LoadRec :=
      { d.load with words := if d.streaming then d.load.words.drop r.length else d.load.words
                    index := d.load.index + 1, body := d.load.body ++ r
                    badIndex := if d.load.badIndex.isNone ∧ h.index ≠ d.load.index then some h.index else d.load.badIndex }
    let counted : Fld := Reg.LD_BYTES.BYTES
    let left (l : LoadRec) (e : Dev) : Prop :=
      e.load = l ∧ OnlyParts [.regs, .load] d e ∧ OnlyRegs [rootBase + counted.off] d e
    let kept (i : Image) : Dev → Prop := left { seen with image := some i }
    let g := galleyOf p
    let u : Decl :=
      { base := h.unit, galleyId := g.galleyId, parent := d.load.openUnits.headD 0, sort := g.sort, withPrev := g.withPrev,
        decision := g.decision, thermal := h.thermal, initPresent := h.initPresent, fence := h.fence, userKind := g.userKind,
        occL2 := maskColumns g.occL2, occL4 := maskColumns g.occL4, index := h.index }
    let opened : LoadRec :=
      { seen with image := some { img with decls := img.decls ++ [u] }, openUnits := h.unit :: d.load.openUnits }
    (d.nextRecord flash = none → Completes (.galleyClose flash) s fun e => e = d) ∧
    (d.nextRecord flash = some (img, r) → h.kind ≠ 0x02 → Completes (.galleyClose flash) s fun e => e = d) ∧
    (d.nextRecord flash = some (img, r) → partialImage img.colophon = false →
      (good 0x01 (d.openPlace h img) 80 (fun p => d.openCause h p img) →
        (h.unit = formeBase ∨ d.units.user.has h.unit = true ∨ d.load.mode = .reapply →
          Completes (.galleyOpen flash) s (left opened)) ∧
        (h.unit ≠ formeBase → d.units.user.has h.unit = false → d.load.mode ≠ .reapply →
          Completes (.galleyOpen flash) s fun e =>
            e.load = opened ∧ OnlyParts [.regs, .load] d e ∧
            (∀ c ∈ u.occL2, d.ust (columnBase 2 c) ≠ .off → e.fld (columnBase 2 c) Reg.TILE_EVENT.FENCE_ENGAGED = 1) ∧
            (∀ c ∈ u.occL4, d.ust (columnBase 4 c) ≠ .off → e.fld (columnBase 4 c) Reg.TILE_EVENT.FENCE_ENGAGED = 1))) ∧
      (d.load.openUnits.head? = some h.unit → good 0x02 0 0 (fun _ => 0) →
        Completes (.galleyClose flash) s (left { seen with openUnits := d.load.openUnits.drop 1 })) ∧
      (good 0x12 (d.depthOne h pinsBase true img.pins.isSome img) 0 (fun p => pinCause (pinsOf p)) →
        Completes (.pinTable flash) s (kept { img with pins := some (pinsOf p) })) ∧
      (∀ pairs, good 0x13 (d.settingsPlace h img) 4 (fun p => settingsCause h p img) → settingPairs (p.drop 1) = some pairs →
        Completes (.unitSettings flash) s (kept { img with settings := img.settings ++
          [{ index := h.index, base := h.unit, major := reqMajor p, minor := reqMinor p, pairs := pairs }] })) ∧
      (∀ secs, good 0x14 (d.depthOne h 0 true false img) 0 (fun p => ringCause h p img) → ringsOf p = some secs →
        Completes (.ringMap flash) s (kept { img with rings := img.rings ++ secs.map fun x => (h.index, x) })) ∧
      (∀ pre, good 0x15 (d.depthOne h 0 false false img) 0 (fun p => preloadCause h p img) → preloadsOf p = some pre →
        Completes (.memoryPreload flash) s (kept { img with preloads := img.preloads ++ pre.map fun x => (h.index, x) })) ∧
      (good 0x16 (d.depthOne h 0 true img.thermal.isSome img) 64 (fun _ => 0) → (hotOf p).1.all evenColumn = true →
        (hotOf p).2.any evenColumn = false →
        Completes (.thermalMap flash) s (kept { img with thermal := some (hotOf p) })) ∧
      (∀ lat, good 0x18 (d.depthOne h keeperBase true img.latency.isSome img) 16 (fun _ => 0) → latencyDeclOf p = some lat →
        latencyCause lat img = 0 → Completes (.latency flash) s (kept { img with latency := some (h.index, lat) })) ∧
      (0x80 ≤ h.kind → h.crcOk = true → lengthBad h = false → img.colophon.fmtMajor ≠ 2 → d.outside = false → d.inSort img = false →
        Completes (.optionalRecord flash) s (left seen)))

/-- Records whose contents are stored as they arrive, and one that fails (R345 to R349, R356, R362, R363). INIT_VALUES fills its lines of
the INIT store; DRIVE_MAP stores its plate's map; PLATE_FRAMES fills its stage slot, which is READY with its plate and groups. A record
whose CRC is wrong rejects the image with its INDEX, and the load is over. The colophon, END and the signature (R338, R339, R359 to R363,
R376). An accepted colophon of a full image withdraws the one before and opens the records; one with the wrong magic is rejected with no
INDEX. END of a signed image that a stream brings waits for the signature block; in SPI0 a right signature stands before the records; a key
that Kryup does not hold, a signature that does not verify, and a wrong digest reject. END of a whole image that passes every check leaves it
VERIFIED, LOADED set, and the loader idle. The model's choices here are log entries 42, 47 and 130. -/
def Obligations.StoredRecordsColophonAndEnd : Prop :=
  (∀ (s : State) (flash : List Word) (img : Image) (r : List Word) (init : InitEntry) (plate digest : Nat) (owners : List (Nat × List Nat)),
    s.quiet = true →
    let d := s.dev
    let h := recordHead r
    let ws := (d.payload img r).getD []
    let p := plateOf ws
    let again : Prop := d.load.mode = .reapply
    let lines := entryLines init
    let good (kind place need : Nat) (check : List Word → Nat) : Prop := h.kind = kind ∧ d.recordCause img r place need check = 0
    let counted (e : Dev) : Prop :=
      e.load.index = d.load.index + 1 ∧ e.load.body = d.load.body ++ r ∧ e.load.openUnits = d.load.openUnits
    d.nextRecord flash = some (img, r) →
    (d.outside = false → h.unit = 0 → good 0x11 0 0 (fun p => d.initCause h p img) → initOf ws = some [init] → ¬again →
      Completes (.initValues flash) s fun e =>
        (∀ i < init.words.length, e.fabric.initStore.num (lineKey (init.column * 2 + init.die) (init.first + i)) = (init.words.getD i 0).toNat) ∧
        (∀ k, k ∉ lines → e.fabric.initStore.num k = d.fabric.initStore.num k) ∧ counted e ∧
        OnlyParts [.regs, .fabric, .load] d e ∧ OnlyRegs [rootBase + Reg.LD_BYTES.BYTES.off] d e) ∧
    (good 0x17 (d.depthOne h 0 false false img) 36 (fun p => d.driveCause h p img) → drivesOf img ws = some (plate, digest, owners) → ¬again →
      Completes (.driveMap flash) s fun e =>
        e.plates.driveMaps.look plate = some { owners := owners.foldl (fun m x => m.put x.1 x.2) ({} : SMap (List Nat)), digest := digest } ∧
        counted e ∧ OnlyParts [.regs, .plates, .load] d e ∧ OnlyRegs [rootBase + Reg.LD_BYTES.BYTES.off] d e) ∧
    (good 0x10 (d.platePlace h img) 68 (fun p => d.plateCause h p img) → ¬again → p.resident = false →
      Completes (.plateFrames flash []) s fun e =>
        e.stageSt p.stage = stageReady ∧ e.stagePlate p.stage = p.plate ∧ e.stageValid p.stage = p.groups.toNat ∧
        e.plates.stageFrames = (d.putPlate p.stage ((plateFrames p).getD [])).plates.stageFrames ∧
        counted e ∧ OnlyParts [.regs, .plates, .load] d e) ∧
    (h.kind = 0x02 → h.crcOk = false → d.units.user.keys = [] → d.ust formeBase ≠ .starting →
      Completes (.galleyClose flash) s fun e =>
        e.fld rootBase Reg.LD_STATUS.STATE = ldRejected ∧ e.fld rootBase Reg.LD_STATUS.CAUSE = ldRecordCrc ∧
        e.fld rootBase Reg.LD_INDEX.INDEX = h.index ∧ e.fld rootBase Reg.LD_EVENT.REJECTED = 1 ∧
        e.load.image = none ∧ e.load.mode = .idle)) ∧
  ∀ (s : State) (flash : List Word) (img : Image) (r : List Word) (i : Nat) (l : LatencyDecl), s.quiet = true →
    let d := s.dev
    let ws := d.imageWords flash
    let c := colophonOf (ws.take colophonWords)
    let block := wordBytes (ws.take blockWords)
    let rejected (cause index : Nat) (e : Dev) : Prop :=
      e.fld rootBase Reg.LD_STATUS.STATE = ldRejected ∧ e.fld rootBase Reg.LD_STATUS.CAUSE = cause ∧
      e.fld rootBase Reg.LD_INDEX.INDEX = index ∧ e.fld rootBase Reg.LD_EVENT.REJECTED = 1 ∧ e.load.mode = .idle
    let calm : Prop := d.units.user.keys = [] ∧ d.ust formeBase ≠ .starting
    let last := d.load.index
    let read : Dev := (d.recordSeen r).modLoad fun l => { l with ended := true }
    let signer := img.colophon.signer
    (colophonWords ≤ ws.length → d.load.image = none →
      (d.colophonCause c = 0 → partialImage c = false → d.load.mode = .stream →
        Completes (.colophon flash) s fun e =>
          e.load.image = some { colophon := c, source := d.fld rootBase Reg.LD_STATUS.SOURCE } ∧
          e.load.words = d.load.words.drop colophonWords ∧ e.load.head = ws.take colophonWords ∧
          e.load.signed = (c.sigOffset == 0) ∧
          e.load.verified = none ∧ e.load.released = none ∧ e.fld rootBase Reg.LD_STATUS.PARTIAL = 0 ∧
          e.reg (keeperBase + Reg.LATENCY.off) = 0 ∧ e.reg (strikeBase + Reg.STK_SRC.off) = 0 ∧
          e.plates.driveMaps = {} ∧ e.fabric.initStore = {}) ∧
      (d.load.mode ≠ .idle → c.magic ≠ 0x4B4E46 → calm → Completes (.colophon flash) s (rejected ldMagic noIndex))) ∧
    (d.nextRecord flash = some (img, r) → (recordHead r).kind = 0x7F → (recordHead r).unit = 0 → d.load.index ≠ 0 → d.loadDepth = 0 →
      d.recordCause img r 0 0 (fun _ => 0) = 0 → last < 2 ^ 32 →
      (d.load.mode = .stream → d.load.signed = false →
        Completes (.endRecord flash {}) s fun e =>
          e.load.ended = true ∧ e.load.image = some img ∧ e.load.index = last + 1 ∧
          e.load.words = d.load.words.drop r.length ∧ OnlyParts [.load] d e) ∧
      (d.load.signed = true → read.load.badIndex = none → img.colophon.recordCount = last + 1 →
        img.colophon.imageLen = 4 * (colophonWords + read.load.body.length) →
        img.colophon.digest ≠ bigNum (sha384 (wordBytes read.load.body)) → calm →
        Completes (.endRecord flash {}) s (rejected ldDigest last)) ∧
      (d.load.signed = true → read.endCause img = (0, last) → d.load.mode = .stream → partialImage img.colophon = false →
        d.wholeCause img last = (0, 0) → img.latency = some (i, l) → d.clk.rootRef ≠ 3 → d.ratioOk d.clk.rootRef l.n l.xbMul = true →
        l.n = d.clk.ratioN → l.xbMul = d.clk.ratioXb → img.acts = [] → img.pins = none → d.mode ≠ modeStart →
        d.load.requested = false →
        Completes (.endRecord flash {}) s fun e =>
          e.load.verified = some img ∧ e.load.mode = .idle ∧ e.load.image = none ∧
          e.fld rootBase Reg.LD_STATUS.STATE = ldVerified ∧ e.fld rootBase Reg.LD_EVENT.LOADED = 1 ∧
          e.strike.galleys = (decisionUnits img.decls l).map (·.base) ∧
          (∀ u ∈ img.decls, (e.user u.base).rel = .held))) ∧
    (d.load.image = some img → d.load.signed = false → blockWords ≤ ws.length → (d.streaming = true → d.load.ended = true) →
      (d.keyHeld signer block = false → calm → Completes (.signature flash {}) s (rejected ldSigner noIndex)) ∧
      (d.keyHeld signer block = true → blockSigns block (wordBytes d.load.head) = false → calm →
        Completes (.signature flash {}) s (rejected ldSignature noIndex)) ∧
      (d.streaming = false → d.load.ended = false → d.keyHeld signer block = true → blockSigns block (wordBytes d.load.head) = true →
        Completes (.signature flash {}) s fun e =>
          e.load = { d.load with signed := true } ∧ Counted rootBase Reg.LD_BYTES.BYTES (4 * blockWords) d e ∧
          OnlyParts [.regs, .load] d e ∧ OnlyRegs [rootBase + Reg.LD_BYTES.BYTES.off] d e))

/-! ## The start -/

/-- Power, oscillators and crystals (R367 steps 1 to 5, R368, R391). When VCC_AO is good the T7 waits for its supplies, with the straps
sampled and nothing in memory; when every rail that step 2 names is good, and the T7 is not too hot after a trip, FIO starts; FIO stable
leads to the boot record, with the longer of strap and record as each crystal's delay, and FIO not stable after 64 Ticks has failed; a
crystal runs once its delay is over, and the loops start when both have run. Loops and boot BIST (R367 steps 6 and 7, R392, R393). A loop
whose input runs and that declares lock has LOCK set, and its unit runs; MPLL shows it in both controllers; one that has not locked after 25
Ticks fails its start. The lock of the last loop ends step 6: the trunk runs from the loop, and BIST follows where the boot record enables
it, else the load. BIST's end leads to the load. The model's choices here are log entries 34, 35 and 38. -/
def Obligations.SuppliesOscillatorsAndLoopsStart : Prop :=
  (∀ (s : State) (xaFreq xaWait xbWait : Fin 8) (rails : BitVec 19) (vccio : BitVec 16) (xb : Bool) (kHz : Nat), s.quiet = true →
    let d := s.dev
    let boot := d.bootRecord
    let r := boot.getD {}
    let other := if xb then d.clk.xa else d.clk.xb
    (d.load.step = .power →
      Completes (.powerOn xaFreq xaWait xbWait) s fun e =>
        e.load.step = .supplies ∧ e.clk.xaFreq = xaFreq ∧ e.clk.xaWait = xaWait ∧ e.clk.xbWait = xbWait ∧
        e.shows clkBase Reg.CLK_STATUS.XA_FREQ = xaFreq ∧ e.mem = {} ∧ e.units = {} ∧ e.pins.flash = d.pins.flash ∧
        e.pins.fuses = d.pins.fuses ∧ e.ident = d.ident) ∧
    (d.load.step = .supplies → d.kryup.halted = false → d.fld kryupBase Reg.THM_STATUS.TRIPPED = 0 →
      (startRails.all (fun k => rails.getLsbD k) = true →
        Completes (.suppliesGood rails vccio) s fun e =>
          e.load = { d.load with step := .fio } ∧ e.clk.fio = .starting ∧ e.clk.fioTick = d.tick ∧ e.power.railsGood = rails.toNat ∧
          (∀ k ∈ startDomains, e.fld pdBase (Reg.PD.ON.elem k) = 1) ∧ OnlyParts [.regs, .clk, .load, .power] d e) ∧
      (startRails.all (fun k => rails.getLsbD k) = false →
        Completes (.suppliesGood rails vccio) s fun e =>
          e.load = d.load ∧ e.power.railsGood = rails.toNat ∧ OnlyParts [.power] d e)) ∧
    (d.clk.fio = .starting →
      (∀ c0 c1, 5600000 ≤ c0 → c0 ≤ 10400000 → 5600000 ≤ c1 → c1 ≤ 10400000 → d.clk.fioTick + 2 ≤ d.tick → d.tick ≤ d.clk.fioTick + 64 →
        d.load.step = .fio → d.kryup.halted = false →
        Completes (.fioStable c0 c1) s fun e =>
          e.clk.fio = .running ∧ e.clk.xa = .starting ∧ e.clk.xb = .starting ∧ e.clk.delayTick = d.tick ∧
          e.load.step = .crystals ∧ e.load.boot = r ∧ e.load.entry = 0 ∧
          e.fld rootBase Reg.BOOT_INFO.REC_VALID = bit01 boot.isSome ∧
          e.fld rootBase Reg.BOOT_INFO.XA_CODE = max d.clk.xaWait r.xaCode % 8 ∧
          e.fld rootBase Reg.BOOT_INFO.XB_CODE = max d.clk.xbWait r.xbCode % 8 ∧ OnlyParts [.regs, .clk, .load, .power] d e) ∧
      (d.clk.fioTick + 64 ≤ d.tick → d.clk.trunk.state ≠ .waitFio → d.clk.reg.state ≠ .waitFio →
        Completes .fioStartTimeout s fun e =>
          e.clk = { d.clk with fio := .failed, fioTick := if d.clk.fioAgain then d.clk.fioTick else d.tick } ∧
          e.fld clkBase Reg.CLK_STATUS.FIO_OK = 0 ∧
          OnlyParts [.regs, .clk] d e ∧ OnlyRegs [clkBase + Reg.CLK_STATUS.FIO_OK.off] d e)) ∧
    (d.load.step = .crystals → (if xb then d.clk.xb else d.clk.xa) = .starting → kHz ≠ 0 →
      d.clk.delayTick + startDelay (d.fld rootBase (if xb then Reg.BOOT_INFO.XB_CODE else Reg.BOOT_INFO.XA_CODE)) ≤ d.tick →
      (other = .starting →
        Completes (.crystalDelayDone xb kHz) s fun e =>
          e.clk = (if xb then { d.clk with xb := .running, xbKHz := kHz } else { d.clk with xa := .running }) ∧
          e.load = d.load ∧ OnlyParts [.regs, .clk] d e ∧ OnlyRegs [clkBase + Reg.CLK_STATUS.FIO_OK.off] d e) ∧
      (other = .running →
        Completes (.crystalDelayDone xb kHz) s fun e =>
          (if xb then e.clk.xb else e.clk.xa) = .running ∧ e.load.step = .locking))) ∧
  ∀ (s : State) (p : Fin 4) (ms : Nat), s.quiet = true →
    let d := s.dev
    let b := pllBase p
    let steady : Prop := d.units.loss.mem b = false ∧ d.units.user.look b = none
    d.clkOn = true → d.clk.relock = none →
    (p.val < 3 → d.pllRef p = true → d.ust b = .starting → steady → d.fld b Reg.PLL_STATUS.LOCK = 0 →
      (d.load.step ≠ .locking → p.val = cpll →
        Completes (.pllLock p false) s fun e =>
          e.fld b Reg.PLL_STATUS.LOCK = 1 ∧ e.ust b = .running ∧ OnlyParts [.regs] d e ∧
          OnlyStates [b + Reg.PLL_STATUS.LOCK.off] d e) ∧
      (d.load.step = .locking → p.val = cpll → d.pllOk 0 = true → d.pllOk 1 = true → d.fuseEntries = [] →
        Completes (.pllLock p true) s fun e =>
          e.fld b Reg.PLL_STATUS.LOCK = 1 ∧ e.fld clkBase Reg.CLK_STATUS.TRUNK_SRC = 0 ∧ e.fld keeperBase Reg.KEEP_STATUS.LOCKED = 1 ∧
          e.clk.rootRef = d.fld (pllBase 0) Reg.PLL_STATUS.REF ∧
          e.clk.ratioN = (d.startRatio (d.fld (pllBase 0) Reg.PLL_STATUS.REF)).1 ∧
          e.load.step = (if d.load.boot.bist then .bist else .loading))) ∧
    (p.val = mpll → d.pllRef p = true → d.clk.mpllLock = false →
      Completes (.pllLock p false) s fun e =>
        e.clk = { d.clk with mpllLock := true } ∧
        (∀ w : Fin 2, d.ust (mcBase w) ≠ .off → e.shows (mcBase w) Reg.MC_STATUS.MPLL_LOCK = 1) ∧ OnlyParts [.clk] d e) ∧
    (p.val < 3 → d.ust b = .starting → d.units.startTick.num b + 25 ≤ d.tick →
      Completes (.pllLockTimeout p false) s fun e =>
        e.ust b = .faulted ∧ e.fld b Reg.CTRL.ENABLE = d.fld b Reg.CTRL.ENABLE ∧
        e.fld b Reg.FAULT.START_FAIL = 1 ∧ e.fld b Reg.FAULT.SPECIFIC % 2 = 1) ∧
    (d.load.step = .bist → ms < 2 ^ 16 →
      Completes (.bootBistDone [] [] [] false ms) s fun e =>
        e.load = { d.load with step := .loading } ∧ e.fld rootBase Reg.BOOT_INFO.BIST_RAN = 1 ∧
        e.fld stctlBase Reg.BIST_STATUS.RAN = 1 ∧ e.fld stctlBase Reg.BIST_STATUS.GROUPS_FAIL = 0 ∧
        e.fld stctlBase Reg.BIST_TIME.MS = ms ∧ OnlyParts [.regs, .load, .test] d e)

/-- Boot sources and the loader's registers (R371 to R375, R388). The next entry of the list is tried: SPI0 is read, or a stream is waited
for, or, with no entry left, the loader is REJECTED with NO_SOURCE. OPEN opens a stream for its path where none is open; only that path's
words count; ABORT and TIMEOUT reject what is open, and REAPPLY reads the released image again. TRUNK_WAIT's end moves on to the next entry.
The model's choice here is log entry 39. -/
def Obligations.LoaderOpensAndEnds : Prop :=
  ∀ (s : State) (path : Fin 8) (value : Word) (img : Image), s.quiet = true →
    let d := s.dev
    let b := rootBase
    let next := ((bootSources d.load.boot).zipIdx.drop d.load.entry).find? fun e => decide (e.1 ≤ 4)
    let opened (mode : LoadMode) (src : Nat) (e : Dev) : Prop :=
      e.load.mode = mode ∧ e.load.image = none ∧ e.load.index = 0 ∧ e.load.words = [] ∧ e.load.body = [] ∧ e.load.idleTick = d.tick ∧
      e.fld b Reg.LD_STATUS.STATE = ldLoading ∧ e.fld b Reg.LD_STATUS.SOURCE = src ∧ e.fld b Reg.LD_BYTES.BYTES = 0
    let rejected (cause : Nat) (e : Dev) : Prop :=
      e.fld b Reg.LD_STATUS.STATE = ldRejected ∧ e.fld b Reg.LD_STATUS.CAUSE = cause ∧ e.fld b Reg.LD_INDEX.INDEX = noIndex ∧
      e.fld b Reg.LD_EVENT.REJECTED = 1
    let ends (cause : Nat) (e : Dev) : Prop := rejected cause e ∧ e.load.mode = .idle ∧ e.load.image = none
    let calm : Prop := d.load.mode = .stream ∧ d.units.user.keys = [] ∧ d.ust formeBase ≠ .starting
    (d.load.step = .loading → d.load.mode = .idle → d.load.trying = none → d.load.entry ≠ entriesTried →
      (∀ code i, next = some (code, i) → (code = 1 ∨ code = 2) → d.load.boot.octal = false →
        Completes (.bootSourceTry true) s fun e =>
          opened .boot code e ∧ e.load.trying = some code ∧ e.load.entry = i + 1 ∧ OnlyParts [.regs, .load] d e ∧ OnlyWindow b d e) ∧
      (∀ code i, next = some (code, i) → (code = 3 ∨ code = 4) →
        Completes (.bootSourceTry true) s fun e =>
          e.load = { d.load with entry := i + 1, trying := some code } ∧ e.fld b Reg.LD_STATUS.STATE = ldWaiting ∧
          e.fld b Reg.LD_STATUS.SOURCE = code ∧ OnlyParts [.regs, .load] d e ∧ OnlyRegs [b + Reg.LD_STATUS.STATE.off] d e) ∧
      (next = none →
        Completes (.bootSourceTry true) s fun e =>
          rejected ldNoSource e ∧ e.load = { d.load with entry := entriesTried } ∧ OnlyParts [.regs, .load] d e ∧ OnlyWindow b d e)) ∧
    (∀ t, d.load.trying = some 3 → d.load.mode = .idle → d.load.boot.trunkWait ≠ 0 → d.load.lanesTick = some t →
      t + d.load.boot.trunkWait ≤ d.tick →
      Completes .trunkWaitExpiry s fun e => e.load = { d.load with trying := none } ∧ OnlyParts [.load] d e) ∧
    (d.reached path ldCtrlAddr = true →
      (d.load.mode = .idle → d.mayOpen path = true → (d.reg ldCtrlAddr).toNat % 8 = 0 →
        Completes (.ldOpen path) s fun e =>
          opened .stream (streamSource path) e ∧ e.fld b Reg.LD_STATUS.PATH = path ∧ e.answered path stOk 0 ∧
          OnlyParts [.regs, .ctl, .load] d e ∧ OnlyWindow b d e) ∧
      (calm → d.load.image = none → (d.reg ldCtrlAddr).toNat % 8 = 0 →
        Completes (.ldOpen path) s (fun e =>
          e.load = d.load ∧ e.fld b Reg.LD_EVENT.OPEN_REJECT = 1 ∧ e.answered path stOk 0 ∧ OnlyParts [.regs, .ctl] d e ∧
          OnlyWindow b d e) ∧
        Completes (.loadAbort path) s fun e => ends ldAborted e ∧ e.answered path stOk 0) ∧
      (d.load.mode = .idle → d.load.released = some img → img.source = 3 → (d.reg ldCtrlAddr).toNat % 8 = 0 →
        Completes (.reapply path) s fun e =>
          opened .reapply 3 e ∧ e.fld b Reg.LD_STATUS.PATH = path ∧ e.load.released = some img ∧ e.answered path stOk 0 ∧
          OnlyParts [.regs, .ctl, .load] d e)) ∧
    (calm → d.load.image = none → d.fld b Reg.LD_CFG.TIMEOUT ≠ 0 → d.load.idleTick + d.fld b Reg.LD_CFG.TIMEOUT ≤ d.tick →
      Completes .loadTimeout s (ends ldTimeout)) ∧
    (d.reached path ldDataAddr = true → d.load.mode = .stream →
      (d.fld b Reg.LD_STATUS.PATH = path →
        Completes (.ldDataWrite path value) s fun e =>
          e.reg ldDataAddr = value ∧ Counted b Reg.LD_BYTES.BYTES 4 d e ∧ e.load = { d.load with idleTick := d.tick, words := d.load.words ++ [value] } ∧
          e.answered path stOk 0 ∧ OnlyParts [.regs, .ctl, .load] d e ∧ OnlyRegs [ldDataAddr, b + Reg.LD_BYTES.BYTES.off] d e) ∧
      (d.fld b Reg.LD_STATUS.PATH ≠ path →
        Completes (.ldDataWrite path value) s fun e =>
          e.load = d.load ∧ e.fld b Reg.LD_EVENT.FOREIGN = 1 ∧ e.answered path stOk 0 ∧ OnlyParts [.regs, .ctl] d e ∧
          OnlyRegs [b + Reg.LD_EVENT.FOREIGN.off] d e))

/-- Release (R377 to R379). At the target crossing of a verified image the main path releases the forme and its units with INIT_PRESENT, and
L, R, C, S and IMAGE_ID appear, with STATE RELEASED. A HELD unit whose staged release is due passes, at the outputs edge, the write-enable
edge GAP_WE cycles later and the reset edge GAP_RST after that, through OUTPUTS and WRITES to RELEASED. The model's choices here are log
entry 50. -/
def Obligations.ImagesAndUnitsAreReleased : Prop :=
  ∀ (s : State) (img : Image) (l : LatencyDecl) (i b t : Nat), s.quiet = true →
    let d := s.dev
    let u := d.user b
    let id := img.colophon.imageId.toNat
    let we := d.gapOf Reg.REL_GAP.GAP_WE
    let rst := d.gapOf Reg.REL_GAP.GAP_RST
    let n := d.clk.ratioN
    let edgeAt (gap : Nat) : Nat × Nat := (crossAdd u.relCross ((u.relCycle + gap) / n), (u.relCycle + gap) % n)
    let edge (gap : Nat) : Nat := if (edgeAt gap).1 = d.now then (edgeAt gap).2 else 0
    let due (gap : Nat) : Bool := crossBefore (edgeAt gap).1 d.now ||
      ((edgeAt gap).1 == d.now && (d.unitGroups b).all fun g => decide ((edgeAt gap).2 ≤ d.fabric.cycle.num g))
    (d.load.target = some t → d.load.verified = some img → d.load.opened = false → crossBefore d.now t = false →
      d.ust formeBase = .starting → d.trunkStopped = false → img.latency = some (i, l) →
      Completes .mainPathRelease s fun e =>
        e.load.released = some img ∧ e.load.opened = true ∧ e.load.target = none ∧ (e.user formeBase).rel = .released ∧
        (∀ x ∈ img.decls, x.initPresent = true → (d.user x.base).rel = .held → (e.user x.base).rel = .released) ∧
        e.fld keeperBase Reg.LATENCY.L = l.l % 2 ^ 12 ∧ e.fld keeperBase Reg.LATENCY.ALIGN_R = l.r % 2 ^ 4 ∧
        e.fld keeperBase Reg.LATENCY.ALIGN_C = l.c % 2 ^ 4 ∧ e.fld keeperBase Reg.LATENCY.S = l.s % 2 ^ 4 ∧
        (e.reg (rootBase + Reg.IMAGE_ID_LO.off)).toNat = id % 2 ^ 32 ∧ (e.reg (rootBase + Reg.IMAGE_ID_HI.off)).toNat = id / 2 ^ 32 ∧
        e.fld rootBase Reg.LD_STATUS.STATE = ldReleased ∧ e.fld rootBase Reg.LD_EVENT.RELEASED = 1) ∧
    (d.trunkStopped = false →
      (u.relTarget = some t → u.rel = .held → d.ust b = .starting → crossBefore d.now t = false → d.partialSwitch b = [] →
        Completes (.stagedOutputs b) s fun e =>
          e.user b = { u with rel := .outputs, relCross := d.now, relCycle := 0 } ∧ OnlyParts [.regs, .units, .load] d e) ∧
      (u.rel = .outputs → due we = true →
        Completes (.stagedWriteEnables b) s fun e => e.user b = { u with rel := .writes, relCross := d.now, relCycle := edge we } ∧ OnlyParts [.units] d e) ∧
      (u.rel = .writes → due rst = true → b ≠ formeBase →
        u.readySeen = false →
        Completes (.stagedReset b) s fun e =>
          e.user b = { u with rel := .released, relTarget := none, relCross := d.now, relCycle := edge rst } ∧
          OnlyParts [.units, .fabric] d e) ∧
      (u.rel = .outputs → due we = false → Completes (.stagedWriteEnables b) s fun e => e = d) ∧
      (u.rel = .writes → due rst = false → Completes (.stagedReset b) s fun e => e = d))

/-! ## Clocks -/

/-- Monitors and oscillators (R405, R406, R408). A trip of an enabled monitor is shown and counted; SIO's moves the Tick to FIO or XA, FIO's
moves a net that runs from it toward the Tick, XB's puts locked roots that follow it in holdover; a cause that it offers finds its latch set
here. A source that has been in range for 16 windows clears
TRIPPED and sets SOURCE_BACK. Losses of loops (R397, R398, R406), with the latch of the cause set. MPLL's
loss shows in both controllers and degrades each that runs; CPLL's faults its unit and starts CK_REG, which ran from it, toward FIO; an
active root that fails gives way to an aligned standby root, or, with none, the trunk starts toward FIO; a standby root that fails leaves
the trunk alone. A failed loop's loss is counted, and its unit is FAULTED with UNLOCK. ROOT_SWAP waits for the edge when the standby root is
aligned and is refused when it is not. The model's choice here is log entry 35. -/
def Obligations.MonitorsLoopsAndRootsFail : Prop :=
  (∀ (s : State) (m : Fin 4) (dead : Bool) (kHz : Nat), s.quiet = true → s.dev.clkOn = true →
    let d := s.dev
    let b := monitorBase m
    let unmeasured := d.clk.inRange.del m
    let oscs (e : Dev) : OscState × OscState × OscState := (e.clk.fio, e.clk.xa, e.clk.xb)
    let tripped (e : Dev) : Prop :=
      e.fld b Reg.MON_STATUS.TRIPPED = 1 ∧ e.fld b Reg.MON_STATUS.DEAD = bit01 dead ∧ Counted b Reg.MON_TRIP_COUNT.COUNT 1 d e ∧
      e.fld b Reg.MON_FREQ.KHZ = (if dead then 0 else kHz % 2 ^ Reg.MON_FREQ.KHZ.width)
    (d.monRunning m = true → d.monTripped m = false → d.flag b Reg.MON_CFG.EN = true → d.latched causeClock = true →
      dead = true ∨ d.monBad m kHz = true →
      (m.val = monSio → d.fld clkBase Reg.CLK_STATUS.TICK_SRC = 0 →
        Completes (.monitorTrip m dead kHz) s fun e =>
          tripped e ∧ e.fld clkBase Reg.CLK_STATUS.TICK_SRC = (if d.clk.fio = .running then 1 else 2) ∧
          e.fld clkBase Reg.CLK_EVENT.TICK_FALLBACK = 1 ∧ e.fld clkBase Reg.CLK_STATUS.SIO_OK = 0 ∧
          e.clk = { d.clk with inRange := unmeasured } ∧ OnlyParts [.regs, .clk, .kryup] d e) ∧
      (m.val = monFio → dead = true → d.clk.fio ≠ .starting → d.clk.reg.state = .run → d.netSrc false = .fio → d.clk.trunk.state = .run → d.netSrc true = .loop →
        Completes (.monitorTrip m dead kHz) s fun e =>
          tripped e ∧ e.clk = { d.clk with
            inRange := unmeasured, fio := .failed, fioTick := d.tick, reg := { state := .stopping, target := .tick, reqTick := d.tick } } ∧
          OnlyParts [.regs, .clk, .kryup] d e) ∧
      (m.val = monXb → d.clk.rootRef = refXb →
        Completes (.monitorTrip m dead kHz) s fun e =>
          tripped e ∧ e.clk = { d.clk with inRange := unmeasured, xb := .failed } ∧
          (∀ r : Fin 2, d.pllOk r = true → e.fld (pllBase r) Reg.PLL_STATUS.HOLDOVER = 1) ∧ OnlyParts [.regs, .clk, .kryup] d e)) ∧
    (d.monTripped m = true → d.monInRange m kHz = false → Completes (.sourceBack m kHz) s fun e => e = d) ∧
    (∀ t, d.monTripped m = true → d.monInRange m kHz = true → d.clk.inRange.look m = some t →
      (d.tick < t + d.windows16 m → Completes (.sourceBack m kHz) s fun e => e = d) ∧
      (t + d.windows16 m ≤ d.tick →
      Completes (.sourceBack m kHz) s fun e =>
        e.fld b Reg.MON_STATUS.TRIPPED = 0 ∧ e.fld b Reg.MON_FREQ.KHZ = kHz % 2 ^ Reg.MON_FREQ.KHZ.width ∧ e.fld clkBase Reg.CLK_EVENT.SOURCE_BACK = 1 ∧
        oscs e = (d.clk.fio, if m.val = monXa then .running else d.clk.xa, if m.val = monXb then .running else d.clk.xb) ∧
        OnlyParts [.regs, .clk] d e ∧
        OnlyRegs [b + Reg.MON_STATUS.TRIPPED.off, b + Reg.MON_FREQ.KHZ.off, clkBase + Reg.CLK_EVENT.SOURCE_BACK.off,
          clkBase + Reg.CLK_STATUS.FIO_OK.off] d e))) ∧
  ∀ (s : State) (path : Fin 8), s.quiet = true → s.dev.clkOn = true →
    let d := s.dev
    let a := d.activeRoot
    let o := d.standbyRoot
    let failed (p : Nat) (e : Dev) : Prop :=
      e.ust (pllBase p) = .faulted ∧ bitOf (e.reg (pllBase p + Reg.FAULT.START_FAIL.off)).toNat 8 = true ∧
      e.fld (pllBase p) Reg.PLL_STATUS.LOCK = 0 ∧
      Counted (pllBase p) Reg.PLL_LOCK_LOSS_COUNT.COUNT (d.fld (pllBase p) Reg.PLL_STATUS.LOCK) d e
    let toFio : NetSeq := { state := .stopping, target := .fio, reqTick := d.tick }
    (d.latched causeClock = true →
      (d.clk.mpllLock = true → (∀ w : Fin 2, d.ust (mcBase w) = .running ∨ d.ust (mcBase w) = .stopped) →
        Completes (.pllUnlock true) s fun e =>
          e.clk = { d.clk with mpllLock := false } ∧
          (∀ w : Fin 2, e.shows (mcBase w) Reg.MC_STATUS.MPLL_LOCK = 0 ∧
            (d.ust (mcBase w) = .running → e.ust (mcBase w) = .degraded ∧ e.fld (mcBase w) Reg.MC_STATUS.FAULTED = 0xFF ∧
              e.fld (mcBase w) Reg.MC_EVENT.CH_FAULT = 1)) ∧
          OnlyParts [.regs, .units, .clk, .kryup] d e) ∧
      (d.ust (pllBase cpll) = .running → d.fld (pllBase cpll) Reg.PLL_STATUS.LOCK = 1 → d.clk.reg.state = .run → d.netSrc false = .loop →
        d.clk.fio = .running →
        Completes (.pllUnlock false) s fun e =>
          failed cpll e ∧ e.clk = { d.clk with reg := toFio } ∧ OnlyParts [.regs, .units, .clk, .kryup] d e) ∧
      (d.ust (pllBase o) = .running → o ≤ 1 → d.clk.relock = none →
        Completes .standbyRootFail s fun e => failed o e ∧ OnlyParts [.regs, .units, .kryup] d e) ∧
      (d.ust (pllBase a) = .running → a ≤ 1 → d.rootDrives a = true → d.standbyAligned = false → d.runs (pllBase d.standbyRoot) = false →
        d.clk.trunk.state = .run → d.clk.fio = .running → d.latL = 0 →
        Completes .rootFail s fun e =>
          failed a e ∧ e.clk = { d.clk with trunk := toFio } ∧ OnlyParts [.regs, .units, .clk, .kryup] d e)) ∧
    (d.latched causeRoot = true → d.ust (pllBase a) = .running → d.rootDrives a = true →
      d.standbyAligned = true → d.pllOk o = true → d.latL = 0 →
      Completes .rootFail s fun e =>
        failed a e ∧ e.activeRoot = o ∧ e.shows (pllBase o) Reg.PLL_STATUS.ACTIVE = 1 ∧ e.shows (pllBase a) Reg.PLL_STATUS.ACTIVE = 0 ∧
        e.fld clkBase Reg.CLK_EVENT.FAILOVER = 1 ∧ OnlyParts [.regs, .units, .kryup] d e) ∧
    (d.reached path clkCmdAddr = true →
      (d.clk.trunk.state = .run → d.standbyAligned = true →
        Completes (.rootSwap path) s fun e =>
          e.clk = { d.clk with swapPending := true } ∧ e.answered path stOk 0 ∧ OnlyParts [.ctl, .clk] d e) ∧
      (d.clk.trunk.state ≠ .run ∨ d.standbyAligned = false →
        Completes (.rootSwap path) s fun e =>
          e.fld clkBase Reg.CLK_EVENT.CMD_REJECT = 1 ∧ e.answered path stOk 0 ∧ OnlyParts [.regs, .ctl] d e ∧
          OnlyRegs [clkBase + Reg.CLK_EVENT.CMD_REJECT.off] d e))

/-- Rule R408, as the model reads it. A failed FIO is started again when 1,024 Ticks have passed since it failed or was last started, and not before; a restart
that is not stable within its 64 Ticks leaves that count as it is; one that is judged stable sets SOURCE_BACK. No net moves: one that runs
from the Tick still runs from it. The model's choice here is log entry 34. -/
def Obligations.FailedFioIsRestarted : Prop :=
  ∀ s : State, s.quiet = true →
    let d := s.dev
    let stays (e : Dev) : Prop := ∀ t : Bool, (d.seq t).state ≠ .waitFio → e.seq t = d.seq t ∧ e.netSrc t = d.netSrc t
    let sources := clkBase + Reg.CLK_STATUS.FIO_OK.off
    (d.clkOn = true → d.clk.fio = .failed →
      (d.clk.fioTick + 1024 ≤ d.tick →
        Completes .fioRetry s fun e =>
          e.clk = { d.clk with fio := .starting, fioTick := d.tick, fioAgain := true } ∧ stays e ∧
          e.fld (monitorBase monFio) Reg.MON_STATUS.RUNNING = 1 ∧ OnlyParts [.regs, .clk] d e ∧
          OnlyRegs [monitorBase monFio + Reg.MON_STATUS.RUNNING.off, sources] d e) ∧
      (d.tick < d.clk.fioTick + 1024 → Completes .fioRetry s fun e => e = d)) ∧
    (d.clk.fio = .starting → d.clk.fioAgain = true →
      (d.clk.fioTick + 64 ≤ d.tick →
        Completes .fioStartTimeout s fun e =>
          e.clk.fio = .failed ∧ e.clk.fioTick = d.clk.fioTick ∧ stays e ∧ OnlyParts [.regs, .clk] d e) ∧
      (∀ c0 c1, 5600000 ≤ c0 → c0 ≤ 10400000 → 5600000 ≤ c1 → c1 ≤ 10400000 → d.clk.fioTick + 2 ≤ d.tick → d.tick ≤ d.clk.fioTick + 64 →
        d.kryup.halted = false → d.load.step ≠ .fio →
        Completes (.fioStable c0 c1) s fun e =>
          e.clk.fio = .running ∧ e.clk.fioAgain = false ∧ e.fld clkBase Reg.CLK_EVENT.SOURCE_BACK = 1 ∧ stays e ∧
          OnlyParts [.regs, .clk] d e))

/-- Switches of a net (R399 to R403). A request for a source that runs stops the net toward it, and one made while the net switches, or for a
source that does not run, is refused; a stop acknowledged, or forced after 16 Ticks, moves the multiplexer to a source that is ready; and the
net restarts, CK_REG after 8 cycles of the new clock, with SW_LOST and its counter telling how many cycles were not delivered. A standby root
that locks to a new reference sends the trunk toward it, and one that has not after 25 Ticks ends the change. -/
def Obligations.NetsStopMoveAndRestart : Prop :=
  ∀ (s : State) (path : Fin 8) (x y : DpSample) (lost : Nat) (r : Relock), s.quiet = true → s.dev.clkOn = true →
    let d := s.dev
    let q := d.clk.reg
    let t := d.clk.trunk
    let toward (src : NetSrc) : NetSeq := { state := .stopping, target := src, reqTick := d.tick }
    let refused (e : Dev) : Prop :=
      e.fld clkBase Reg.CLK_EVENT.CMD_REJECT = 1 ∧ e.clk = d.clk ∧ e.answered path stOk 0 ∧ OnlyParts [.regs, .ctl] d e ∧
      OnlyRegs [clkBase + Reg.CLK_CMD.ROOT_SWAP.off, clkBase + Reg.CLK_EVENT.CMD_REJECT.off] d e
    let begun (c : ClockRec) (e : Dev) : Prop :=
      e.clk = c ∧ e.answered path stOk 0 ∧ OnlyParts [.regs, .ctl, .clk] d e ∧
      OnlyRegs [clkBase + Reg.CLK_CMD.ROOT_SWAP.off, clkBase + Reg.CLK_STATUS.FIO_OK.off] d e
    (d.reached path clkCmdAddr = true → d.reg clkCmdAddr = 0 →
      ((q.state ≠ .run ∨ d.clk.fio ≠ .running) → Completes (.regGo path 1) s refused) ∧
      (q.state = .run → d.clk.fio = .running → Completes (.regGo path 1) s (begun { d.clk with reg := toward .fio })) ∧
      (q.state = .run → d.pllOk cpll = true → Completes (.regGo path 0) s (begun { d.clk with reg := toward .loop })) ∧
      ((t.state ≠ .run ∨ d.clk.fio ≠ .running) → Completes (.trunkGo path 1) s refused) ∧
      (t.state = .run → d.clk.fio = .running → Completes (.trunkGo path 1) s (begun { d.clk with trunk := toward .fio }))) ∧
    (q.state = .stopping → q.target = .fio → d.clk.fio = .running →
      (d.netDead false = false →
        Completes (.netStop false) s fun e =>
          e.clk = { d.clk with reg := { q with state := .restart } } ∧ e.netSrc false = .fio ∧ OnlyParts [.regs, .clk] d e ∧
          OnlyRegs [clkBase + Reg.CLK_STATUS.FIO_OK.off] d e) ∧
      (q.reqTick + 16 ≤ d.tick →
        Completes (.switchForced false) s fun e =>
          e.clk = { d.clk with reg := { q with state := .restart, forced := true } } ∧ e.netSrc false = .fio ∧
          e.fld clkBase Reg.CLK_EVENT.SWITCH_FORCED = 1 ∧ OnlyParts [.regs, .clk] d e)) ∧
    (t.state = .stopping → t.target = .fio → d.clk.fio = .running → d.netDead true = false → d.clk.relock = none → d.latL = 0 →
      d.keeper.released = true → d.strike.groups = [] →
      Completes (.netStop true) s fun e =>
        e.clk = { d.clk with trunk := { t with state := .restart }, trunkCyc := d.clk.trunkCyc + BitVec.ofNat 64 d.clk.ratioN } ∧
        e.netSrc true = .fio ∧ e.now = (d.now + 1) % 2 ^ 48) ∧
    (q.state = .restart →
      Completes (.netRestart false lost x y) s fun e =>
        e.clk = { d.clk with regCyc := d.clk.regCyc + 8, reg := { q with state := .run } } ∧
        e.fld clkBase Reg.SW_LOST.REG = (if q.forced then 0xFFFF else 8) ∧
        (q.forced = true → e.fld clkBase Reg.CLK_STATE.REG_UNK = 1) ∧ e.fld clkBase Reg.CLK_EVENT.REG_SWITCHED = 1 ∧
        OnlyParts [.regs, .clk] d e) ∧
    (t.state = .restart → t.target = .fio → t.forced = false → 8 ≤ lost → d.keeper.released = true → d.keeper.pendingSync = none →
      d.clk.swapPending = false → d.domainOn 7 = false → d.strike.groups = [] → d.kryup.warm = false →
      Completes (.netRestart true lost x y) s fun e =>
        e.clk = { d.clk with trunkCyc := d.clk.trunkCyc + BitVec.ofNat 64 lost, trunk := { t with state := .run } } ∧
        e.now = (d.now + 1) % 2 ^ 48 ∧ e.fld clkBase Reg.SW_LOST.TRUNK = min 0xFFFE lost ∧
        e.fld keeperBase Reg.KEEP_STATUS.LOCKED = 0 ∧ e.fld clkBase Reg.CLK_EVENT.TRUNK_SWITCHED = 1 ∧
        e.fabric = { d.fabric with cycle := {}, fences := e.fabric.fences } ∧ OnlyParts [.regs, .keeper, .clk, .fabric] d e) ∧
    (t.state = .relock → d.clk.relock = some r → r.root ≤ 1 →
      Completes (.relockStandbyLock true) s (fun e =>
        e.fld (pllBase r.root) Reg.PLL_STATUS.LOCK = 1 ∧ e.clk = { d.clk with trunk := toward .loop } ∧ OnlyParts [.regs, .clk] d e ∧
        OnlyRegs [pllBase r.root + Reg.PLL_STATUS.LOCK.off, clkBase + Reg.CLK_STATUS.FIO_OK.off] d e) ∧
      (r.tick + 25 ≤ d.tick → d.ust (pllBase r.root) = .running →
        Completes (.relockStandbyLock false) s fun e =>
          e.clk = { d.clk with relock := none, trunk := { t with state := .run } } ∧ e.fld clkBase Reg.CLK_EVENT.RELOCK_FAIL = 1 ∧
          e.ust (pllBase r.root) = .faulted ∧ OnlyParts [.regs, .units, .clk] d e))

/-! ## Resets -/

/-- Resets (R386, R387, R446, R460, R461, R514). RESET_N and RST_REQ.DEVICE with KEY 0xC3, with no proposal submitted, none stored and the
security fuse open, return every unit and memory to its reset state and keep the log, the fuses, the flash and the Tick; RST_REQ.WARM begins
a base warm reset, which keeps clocks, keeper and power; another KEY changes only what KW_WRITE does, whose latch is set here. After the
1,024 cycles the base stays fenced until the next crossing edge. A VCC_AO dip of 10 us or more returns everything, and whether a shorter one
does is a free value (log entry 2). The model's choices here are log entries 37 and 64. -/
def Obligations.ResetsLeaveWhatTheyKeep : Prop :=
  ∀ (s : State) (path : Fin 8) (key : Byte), s.quiet = true →
    let d := s.dev
    let k := kryupBase
    let shown : List Nat :=
      [k + Reg.KRY_STATUS.HOLD.off, k + Reg.FUSE_SEC.PRESENT.off, k + Reg.LOG_HEAD.off, k + Reg.PROP_STATUS.off, propDataAddr,
        k + Reg.RESET_CAUSE.LAST.off, k + Reg.THM_STATUS.TRIPPED.off, k + Reg.THM_EVENT.TRIP.off, rootBase + Reg.DEV_ID.off,
        rootBase + Reg.DEV_STEP.off, stctlBase + Reg.SCAN_PERMIT.EN.off, clkBase + Reg.CLK_STATUS.FIO_OK.off]
    let fresh (e : Dev) : Prop :=
      e.units = {} ∧ e.mem = {} ∧ e.plates = {} ∧ e.rings = {} ∧ e.strike = {} ∧ e.stack = {} ∧ e.load = {} ∧ e.links = {} ∧
      e.lanes = {} ∧ e.proof = {} ∧ e.pins.flash = d.pins.flash ∧ e.pins.fuses = d.pins.fuses ∧ e.ident = d.ident
    let device (last : Nat) (e : Dev) : Prop :=
      fresh e ∧ e.kryup = { log := d.kryup.log, prop := d.kryup.prop } ∧ e.tick = d.tick ∧
      e.reg (k + Reg.LOG_HEAD.off) = d.reg (k + Reg.LOG_HEAD.off) ∧ e.fld k Reg.RESET_CAUSE.LAST = last ∧
      e.fld k Reg.RESET_CAUSE.POLICY_CAUSE = 0 ∧ e.fld k Reg.RESET_CAUSE.WARM_COUNT = 0 ∧
      e.fld k Reg.THM_EVENT.TRIP = d.fld k Reg.THM_EVENT.TRIP ∧ e.fld k Reg.KRY_STATUS.POLICY = 1 ∧
      (∀ a, a ∉ shown → e.reg a = resetValue a)
    (d.fld k Reg.PROP_STATUS.STATE ≠ 2 → d.kryup.stored = none → d.ident.closed = false →
      (d.load.step ≠ .power → Completes .resetN s fun e => device lastPin e ∧ e.ctl = {}) ∧
      (d.reached path rstReqAddr = true → key = 0xC3 → Completes (.rstReqDevice path key) s fun e =>
        device lastReq e ∧ e.answered path stOk 0)) ∧
    (d.reached path rstReqAddr = true → key = 0xC3 → d.kryup.warm = false → d.load.mode = .idle →
      Completes (.rstReqWarm path key) s fun e =>
        e.kryup = { d.kryup with warm := true, warmHeld := true } ∧ Counted k Reg.RESET_CAUSE.WARM_COUNT 1 d e ∧
        e.fld rootBase Reg.LD_EVENT.WARM = 1 ∧ e.clk = d.clk ∧ e.keeper = d.keeper ∧ e.power = d.power ∧ e.pins.flash = d.pins.flash) ∧
    (d.reached path rstReqAddr = true → key ≠ 0xC3 → d.latched causeKwWrite = true →
      Completes (.rstReqWarm path key) s (fun e => e.answered path stOk 0 ∧ OnlyParts [.regs, .ctl, .kryup] d e) ∧
      Completes (.rstReqDevice path key) s fun e => e.answered path stOk 0 ∧ OnlyParts [.regs, .ctl, .kryup] d e) ∧
    (d.kryup.warm = true → d.kryup.warmHeld = true → d.trunkBoot = false →
      Completes .warmResetEnd s fun e => e.kryup = { d.kryup with warmHeld := false } ∧ OnlyParts [.kryup] d e) ∧
    Completes (.vccAoLoss true) s (fun e =>
      fresh { e with load := {} } ∧ e.ctl = {} ∧ e.load = { step := .power } ∧ e.kryup = { stored := d.kryup.stored } ∧
      (∀ a, e.reg a = resetValue a)) ∧
    Completes (.vccAoLoss false) s fun e =>
      e.free = d.free + 1 ∧ (e.load = { step := .power } ∨ OnlyParts [.free, .regs, .strike, .pins] d e)

/-! ## Kryup and heat -/

/-- Causes and their latches (R448 to R451, R458, R459). A rail outside its limits, the fuse rail apart, offers SUPPLY: a latch newly set
logs the cause where its policy says LOG alone, and one already set takes no action again. A latch clears HOLD Ticks after the end of the
Tick of the last arrival. A kick restarts the watchdog's count, and PERIOD Ticks without one offer WATCHDOG. A proposal in its buffer
(R456): OPEN empties the buffer and opens it; a word is stored while it is open and has room; SUBMIT holds an open proposal for the next
reset; DISCARD drops one that is open or submitted. The model's choices here are log entries 60 and 61. -/
def Obligations.CausesLatchAndProposalsAreStaged : Prop :=
  (∀ (s : State) (rail : Fin 19) (c : Fin 17), s.quiet = true →
    let d := s.dev
    let k := kryupBase
    let head := (d.reg (k + Reg.LOG_HEAD.off)).toNat
    let pend := k + Reg.CAUSE_PEND.LATCH.off
    let again (cause : Nat) (e : Dev) : Prop :=
      e.kryup = { d.kryup with lastTick := d.kryup.lastTick.put cause d.tick } ∧ e.latched cause = true ∧ OnlyParts [.regs, .kryup] d e ∧
      OnlyRegs [k + Reg.KRY_STATUS.HOLD.off] d e
    (rail.val ≠ 7 → rail.val ≠ 18 → d.latched causeSupply = false → d.polActions causeSupply = 2 ^ actLog →
      Completes (.supply rail) s fun e =>
        e.latched causeSupply = true ∧ (e.reg (k + Reg.LOG_HEAD.off)).toNat = (head + 1) % 2 ^ 32 ∧
        e.kryup = { d.kryup with
          lastTick := d.kryup.lastTick.put causeSupply d.tick
          log := d.kryup.log.put (head % 512)
            { w0 := BitVec.ofNat 32 (causeSupply + d.tick % 2 ^ 24 * 2 ^ 8), w1 := BitVec.ofNat 32 rail } } ∧
        OnlyParts [.regs, .kryup] d e ∧ OnlyRegs [pend, k + Reg.LOG_HEAD.off, k + Reg.KRY_STATUS.HOLD.off] d e) ∧
    (rail.val ≠ 7 → rail.val ≠ 18 → d.latched causeSupply = true → Completes (.supply rail) s (again causeSupply)) ∧
    (rail.val = 18 → Completes (.supply rail) s fun e => e = d) ∧
    (d.latched c = true → d.polHold c ≠ 0 → d.kryup.lastTick.num c + 1 + d.polHold c ≤ d.tick →
      Completes (.causeLatchClear c) s fun e =>
        e.latched c = false ∧ (∀ x : Fin 17, x ≠ c → e.latched x = d.latched x) ∧ e.fld k Reg.KRY_STATUS.HOLD = bit01 e.kryHold ∧
        e.fld k Reg.KRY_STATUS.ALARM = bit01 e.alarm ∧ OnlyParts [.regs] d e ∧ OnlyRegs [pend, k + Reg.KRY_STATUS.HOLD.off] d e) ∧
    Completes .watchdogKick s (fun e =>
      (d.strike.kicked = true →
        e.kryup = { d.kryup with wdgTicks := 0 } ∧ e.strike = { d.strike with kicked := false } ∧ OnlyParts [.kryup, .strike] d e) ∧
      (d.strike.kicked = false → e = d)) ∧
    (d.flag k Reg.WDG_CFG.EN = true → d.load.opened = true → d.runMode = true → max 1 (d.fld k Reg.WDG_CFG.PERIOD) ≤ d.kryup.wdgTicks →
      d.latched causeWatchdog = true → Completes .watchdog s (again causeWatchdog))) ∧
  ∀ (s : State) (path : Fin 8) (v : Word), s.quiet = true →
    let d := s.dev
    let k := kryupBase
    let st (e : Dev) := e.fld k Reg.PROP_STATUS.STATE
    let n := d.kryup.prop.length
    let emptied (x : Nat) (e : Dev) : Prop :=
      st e = x ∧ e.fld k Reg.PROP_STATUS.WORDS = 0 ∧ e.kryup = { d.kryup with prop := [] } ∧ e.answered path stOk 0 ∧
      OnlyParts [.regs, .ctl, .kryup] d e ∧ OnlyRegs [k + Reg.PROP_STATUS.off] d e
    let left (e : Dev) : Prop := st e = st d ∧ e.answered path stOk 0 ∧ OnlyParts [.ctl] d e
    d.reached path propDataAddr = true →
    Completes (.propOpen path) s (emptied propOpened) ∧
    (st d = propOpened → n < bufferWords →
      Completes (.propDataWrite path v) s fun e =>
        e.kryup = { d.kryup with prop := d.kryup.prop ++ [v] } ∧ e.fld k Reg.PROP_STATUS.WORDS = n + 1 ∧ e.reg propDataAddr = v ∧
        st e = propOpened ∧ e.answered path stOk 0 ∧ OnlyParts [.regs, .ctl, .kryup] d e ∧
        OnlyRegs [k + Reg.PROP_STATUS.off, propDataAddr] d e) ∧
    (st d ≠ propOpened → Completes (.propDataWrite path v) s fun e =>
      e.kryup = d.kryup ∧ e.answered path stOk 0 ∧ OnlyParts [.regs, .ctl] d e ∧ OnlyRegs [propDataAddr] d e) ∧
    Completes (.propSubmit path) s (fun e =>
      (st d = propOpened → st e = propSubmitted ∧ e.kryup = d.kryup ∧ e.answered path stOk 0 ∧ OnlyParts [.regs, .ctl] d e ∧
        OnlyRegs [k + Reg.PROP_STATUS.off] d e) ∧
      (st d ≠ propOpened → left e)) ∧
    Completes (.propDiscard path) s fun e =>
      (st d = propOpened ∨ st d = propSubmitted → emptied propEmpty e) ∧ (st d ≠ propOpened → st d ≠ propSubmitted → left e)

/-- The Tick, the governor and the background token (R389, R438 to R444, R459), with the latches of what the governor may offer set. A Tick
counts, takes the sensors' readings, keeps each powered layer's peak, and names the hottest column. P_T moves by P at most every 64 Ticks,
up in a hot group, down in a cool one. A sensor at its trip point latches the trip. A free token goes to staging first, else to the next
activity in rotation, and in a hot column not in the slot after one that was granted. The model's choice here is log entry 58. -/
def Obligations.TicksHeatAndTokens : Prop :=
  ∀ (s : State) (common : BitVec 9) (temps : List (Fin 2560 × BitVec 9)) (cycles : Nat) (freqs : List (Fin 4 × Nat)) (g : Fin 16)
    (layer : Fin 5) (c : Fin 256) (paced : BitVec 6) (tally : Bool), s.quiet = true →
    let d := s.dev
    let k := kryupBase
    let sw := d.threshold Reg.THM_TH.SW
    let staging := d.columnStaging c
    (d.latched causeThermalHold = true → d.latched causeCrossLost = true →
      Completes (.tick common temps cycles freqs) s fun e =>
        e.clk = { d.clk with tick := d.tick + 1, regCyc := d.clk.regCyc + BitVec.ofNat 64 cycles } ∧
        e.heat.common = common.toNat ∧ (∀ x, e.heat.readings.look x =
          ((temps.reverse.find? fun t => t.1.val == x).map fun t => t.2.toNat)) ∧
        (∀ u : Fin 1280, d.ust (0x400000 + u * 0x1000) ≠ .off →
          e.fld (0x400000 + u * 0x1000) Reg.TEMP_PEAK.PEAK =
            max (d.fld (0x400000 + u * 0x1000) Reg.TEMP_PEAK.PEAK) (e.layerTemp (u / 256) (u % 256))) ∧
        (e.fld k Reg.THM_STATUS.HOT_TEMP, e.fld k Reg.THM_STATUS.HOT_COL) = e.hottestColumn ∧
        e.kryup.wdgTicks = d.kryup.wdgTicks + bit01 d.wdgRuns ∧ OnlyParts [.regs, .clk, .heat, .kryup] d e) ∧
    (∀ p, d.heat.pT.look g = some p → d.heat.pTick.num g + 64 ≤ d.tick →
      ((groupColumns g).any (fun c => decide (sw ≤ d.columnTemp c)) = true →
        Completes (.governorPTAdjust g) s fun e =>
          e.heat.pT.look g = some (min d.swallowMax (p + d.thmP)) ∧ e.heat.pTick.look g = some d.tick ∧ OnlyParts [.heat] d e) ∧
      ((groupColumns g).all (fun c => decide (d.columnTemp c + d.hyst < sw)) = true →
        Completes (.governorPTAdjust g) s fun e =>
          e.heat.pT.look g = (if p ≤ d.thmP then none else some (p - d.thmP)) ∧ e.fld k Reg.THM_STATUS.STEP = e.thermalStep ∧
          OnlyParts [.regs, .heat] d e ∧ OnlyRegs [k + Reg.THM_STATUS.STEP.off] d e)) ∧
    (d.sensorsOn layer c = true → d.latched causeTrip = true →
      Completes (.thermalTrip layer c) s fun e =>
        e.fld k Reg.THM_STATUS.TRIPPED = 1 ∧ e.fld k Reg.THM_EVENT.TRIP = 1 ∧ e.fld k Reg.THM_STATUS.STEP = 5 ∧
        OnlyParts [.regs, .kryup] d e ∧
        OnlyRegs [k + Reg.THM_STATUS.STEP.off, k + Reg.THM_EVENT.TRIP.off, k + Reg.KRY_STATUS.HOLD.off] d e) ∧
    (d.domainOn 0 = true → d.tokenHeld c = false →
      let hot := d.heat.hotMap.mem c || d.heat.hotMap.mem (256 + c)
      let grant (x : Option Activity) (e : Dev) : Prop := e.heat.token.look c = x ∧ OnlyParts [.heat] d e
      let free := hot = false ∨ d.heat.idleSlot.mem c = false
      (hot = true → d.heat.idleSlot.mem c = true →
        Completes (.backgroundGrant c paced tally) s fun e => grant none e ∧ e.heat.idleSlot.mem c = false) ∧
      (free → staging = true → Completes (.backgroundGrant c paced tally) s fun e =>
        grant (some .staging) e ∧ e.heat.lastBg = d.heat.lastBg ∧ (hot = true → e.heat.idleSlot.mem c = true)) ∧
      (free → staging = false → bitOf (d.heat.colStep.num c) 0 = true → Completes (.backgroundGrant c paced tally) s (grant none)) ∧
      ∀ a, free → staging = false → d.nextActivity c paced.toNat tally = some a →
        Completes (.backgroundGrant c paced tally) s fun e =>
          grant (some a) e ∧ e.heat.lastBg.look c = some a.code ∧ (hot = true → e.heat.idleSlot.mem c = true))

/-! ## Modes, domains and the Damper -/

/-- Modes and the PMBus (R419 to R423, R429, R430). A request for the mode in force changes only TARGET; one that a condition bars loads
REFUSE, in the order of R419, and BUSY while a transition runs, but FROM for a target that is never taken; one for ROLL from another running mode begins a transition, which waits for a higher voltage and else
for the edge that enters the mode. A voltage that does not settle, or a request that is not acknowledged, refuses it with RAIL. READ_IOUT
and VSET are stored, and a VSET that covers the mode in force requests it. An enabled wake source begins the start. The model's choices here
are log entries 51 and 52. -/
def Obligations.ModesAreEnteredAndLeft : Prop :=
  ∀ (s : State) (path : Fin 8) (t : Fin 16) (ack b : Bool) (amps : BitVec 16) (v : Word), s.quiet = true →
    let d := s.dev
    let w := powerBase
    let status (e : Dev) := (e.fld w Reg.MODE_STATUS.MODE, e.fld w Reg.MODE_STATUS.CHANGING)
    let refused (code : Nat) (e : Dev) : Prop :=
      status e = (d.mode, 0) ∧ e.fld w Reg.MODE_STATUS.REFUSE = code ∧ e.fld w Reg.MODE_EVENT.REFUSED = 1 ∧ OnlyParts [.regs, .ctl, .power] d e
    let fits : Prop := runningMode d.mode = true ∧ d.mode ≠ modeRoll ∧ d.load.verified ≠ none ∧ d.power.stage = 0
    let mv := (d.vset modeRoll).getD 0
    let begun (p : PowerRec) (e : Dev) : Prop :=
      status e = (d.mode, 1) ∧ e.modeTarget = modeRoll ∧ e.power = p ∧ OnlyParts [.regs, .ctl, .power] d e
    (d.reached path modeReqAddr = true →
      (t.val = d.mode → t.val ≠ modeStart → Completes (.modeReq path t ack) s fun e =>
        e.answered path stOk 0 ∧ OnlyParts [.regs, .ctl] d e ∧ OnlyRegs [modeReqAddr] d e) ∧
      (t.val ≠ d.mode → d.power.stage = 0 → d.fld w Reg.MODE_STATUS.CHANGING = 0 → d.modeBar t ≠ 0 →
        Completes (.modeReq path t ack) s fun e => refused (d.modeBar t) e ∧ e.power = d.power) ∧
      (t.val ≠ d.mode → d.power.stage ≠ 0 → Completes (.modeReq path t ack) s fun e =>
        status e = status d ∧
        e.fld w Reg.MODE_STATUS.REFUSE = (if t.val = modeStart ∨ modeProof < t.val then refFrom else refBusy) ∧ e.power = d.power ∧ OnlyParts [.regs, .ctl] d e) ∧
      (t.val = modeRoll → fits → d.power.voutReq = none →
        (mv ≤ d.vfab → Completes (.modeReq path t ack) s (begun { d.power with stage := 4 })) ∧
        (d.vfab < mv → d.flag w Reg.PMB_CFG.EN = true → d.proving (serialBase 2) = false →
          Completes (.modeReq path t true) s
            (begun { d.power with stage := 1, voutMv := mv, voutReq := some { mv := mv, why := .before } }) ∧
          Completes (.modeReq path t false) s fun e =>
            refused refRail e ∧ e.fld w Reg.PMB_STATUS.PMB_ERR = 1 ∧ e.fld w Reg.MODE_EVENT.PMB_FAIL = 1))) ∧
    (∀ x, d.power.voutReq = some { mv := x, why := .before } → d.power.stage = 1 → d.modeTarget = modeRoll → d.mode ≠ modeIdle →
      Completes (.pmbusSettleDone true) s (fun e => e.power = { d.power with voutReq := none, stage := 4 } ∧ OnlyParts [.power] d e) ∧
      Completes (.pmbusSettleDone false) s fun e => refused refRail e ∧ e.power = { d.power with voutReq := none, stage := 0 }) ∧
    (d.power.stage = 4 → d.modeTarget = modeRoll → d.mode ≠ modeProof → d.vfab ≤ mv → d.load.requested = false →
      Completes (.modeEntered ack) s fun e =>
        status e = (modeRoll, 0) ∧ e.fld w Reg.MODE_EVENT.ENTERED = 1 ∧ e.power = { d.power with stage := 0 } ∧
        e.kryup = { d.kryup with wdgTicks := 0 } ∧ OnlyParts [.regs, .units, .power, .kryup] d e ∧
        (d.load.opened = false → e.units = d.units) ∧
        OnlyRegs [w + Reg.MODE_STATUS.MODE.off, w + Reg.MODE_EVENT.ENTERED.off] d e) ∧
    (d.domainOn 1 = true → d.flag w Reg.PMB_CFG.EN = true → d.proving (serialBase 2) = false →
      (d.power.ioutTick + 64 ≤ d.tick →
        let read (e : Dev) : Prop := e.power = { d.power with ioutTick := d.tick } ∧ OnlyParts [.regs, .power] d e
        Completes (.readIout true amps) s (fun e =>
          e.fld w Reg.PMB_STATUS.IOUT = amps.toNat ∧ read e ∧ OnlyRegs [w + Reg.PMB_STATUS.IOUT.off] d e) ∧
        Completes (.readIout false amps) s fun e =>
          e.fld w Reg.PMB_STATUS.PMB_ERR = 1 ∧ e.fld w Reg.MODE_EVENT.PMB_FAIL = 1 ∧ read e) ∧
      (d.tick < d.power.ioutTick + 64 → Completes (.readIout ack amps) s fun e => e = d)) ∧
    (let a := w + (if b then Reg.VSET_B.off else Reg.VSET_A.off)
     let covers : Prop := if b then d.mode = modeProof ∨ d.mode = modeAssured else 2 ≤ d.mode ∧ d.mode ≤ 5
     d.reached path a = true →
      (¬covers → Completes (.vsetWrite path b v ack) s fun e =>
        e = { d with regs := e.regs, ctl := e.ctl } ∧ e = { d.storeRw a v with ctl := e.ctl } ∧ e.answered path stOk 0) ∧
      (covers → d.flag w Reg.PMB_CFG.EN = true → d.proving (serialBase 2) = false → d.power.voutReq = none →
        Completes (.vsetWrite path b v true) s fun e =>
          e.power = { d.power with
            voutMv := (e.vset d.mode).getD 0, voutReq := some { mv := (e.vset d.mode).getD 0, why := .vset } } ∧
          e.reg a = (d.storeRw a v).reg a ∧ e.answered path stOk 0 ∧ OnlyParts [.regs, .ctl, .power] d e)) ∧
    (d.mode = modeDormant →
      let wakes (e : Dev) : Prop :=
        status e = (modeStart, d.fld w Reg.MODE_STATUS.CHANGING) ∧ e.fld w Reg.MODE_EVENT.WAKE = 1 ∧ e.load = { d.load with step := .fio } ∧
        e.clk.fio = .starting ∧ (∀ k ∈ startDomains, e.fld pdBase (Reg.PD.ON.elem k) = 1) ∧ OnlyParts [.regs, .clk, .load, .power] d e
      (d.flag w Reg.PWR_CFG.WAKE_N_EN = true → Completes .wakeN s wakes) ∧
      (d.flag w Reg.PWR_CFG.WAKE_SPI_EN = true → Completes .spi1CsWake s wakes) ∧
      (d.flag w Reg.PWR_CFG.WAKE_TICK_EN = true → d.power.dormTick + max 1 (d.fld w Reg.DORM_TIMER.TICKS) ≤ d.tick →
        Completes .dormTimer s wakes) ∧
      (d.flag w Reg.PWR_CFG.WAKE_N_EN = false → Completes .wakeN s fun e => e = d))

/-- Domains (R424 to R427). A request for a domain whose prerequisites are on starts its ramp; one to turn off is refused for CLKGEN, MGMT
and while a dependent has power, and else turns the domain and its units off; power-good turns it on, with its units STOPPED; a domain that
is not good 4 Ticks after its request, or that loses power-good, is in FAULT with its units OFF. The latch of POWER_DOMAIN is set here. The
model's choice here is log entry 54. -/
def Obligations.DomainsTurnOnOffAndFail : Prop :=
  ∀ (s : State) (path : Fin 8) (k : Fin 40), s.quiet = true → s.dev.power.stage = 0 →
    let d := s.dev
    let pdAt (j : Nat) : Nat := pdBase + (Reg.PD.ON.elem j).off
    let on (e : Dev) := e.fld pdBase (Reg.PD.ON.elem k)
    let off (e : Dev) : Prop := ∀ b ∈ domainUnits k, e.ust b = .off
    let forgets (e : Dev) : Prop := e.power.rampTick.look k = none ∧ e.power.waiting = d.power.waiting.filter (· != k.val)
    let single : Prop := k.val = 2 ∨ k.val = 5 ∨ k.val = 7
    (d.reached path (pdBase + (Reg.PD.ON.elem k).off) = true →
      (d.pd k = pdOff → (domainPrereqs k).all d.domainOn = true →
        Completes (.pdWrite path k true) s fun e =>
          on e = 1 ∧ e.pd k = pdRamping ∧ e.power.rampTick.look k = some (d.power.rampTick.at k d.tick) ∧
          e.power.waiting.contains k.val = false ∧ e.power = { d.power with rampTick := e.power.rampTick, waiting := e.power.waiting } ∧
          (∀ j : Fin 40, d.pd j ≠ pdOff → e.reg (pdAt j) = d.reg (pdAt j) ∧ e.power.rampTick.look j = d.power.rampTick.look j) ∧
          e.answered path stOk 0 ∧ OnlyParts [.regs, .ctl, .power] d e ∧ OnlyRegs ((List.range 40).map pdAt) d e) ∧
      (k.val < 2 ∨ d.dependentOn k = true →
        Completes (.pdWrite path k false) s fun e =>
          e.fld pdBase Reg.PD_EVENT.DEP_REJECT = 1 ∧ e.answered path stOk 0 ∧ OnlyParts [.regs, .ctl] d e ∧
          OnlyRegs [pdBase + Reg.PD_EVENT.DEP_REJECT.off] d e) ∧
      (single → d.dependentOn k = false → d.pd k = pdOn →
        Completes (.pdWrite path k false) s fun e =>
          on e = 0 ∧ e.pd k = pdOff ∧ e.fld pdBase (Reg.PD.PGOOD.elem k) = 0 ∧ off e ∧ forgets e ∧ e.answered path stOk 0)) ∧
    (single → d.pd k = pdRamping → d.power.waiting = [] →
      (∀ b ∈ domainUnits k, d.ust b = .off ∧ d.units.standing.num b = 0 ∧ d.fld b Reg.CTRL.ENABLE = 0) →
      Completes (.powerGood k) s fun e =>
        e.pd k = pdOn ∧ e.fld pdBase (Reg.PD.PGOOD.elem k) = 1 ∧ (∀ b ∈ domainUnits k, e.ust b = .stopped) ∧ forgets e) ∧
    (d.latched causeDomain = true →
      (d.pd k = pdRamping → d.power.rampTick.at k d.tick + 4 ≤ d.tick →
        Completes (.rampFail k) s fun e =>
          e.pd k = pdFault ∧ e.fld pdBase (Reg.PD.PGOOD.elem k) = 0 ∧ e.fld pdBase Reg.PD_EVENT.RAMP_FAIL = 1 ∧ on e = on d ∧ forgets e ∧
          OnlyParts [.regs, .power, .kryup] d e ∧
          OnlyRegs [pdBase + (Reg.PD.ON.elem k).off, pdBase + Reg.PD_EVENT.DEP_REJECT.off, kryupBase + Reg.KRY_STATUS.HOLD.off] d e) ∧
      (single → d.pd k = pdOn →
        Completes (.pgLost k) s fun e =>
          e.pd k = pdFault ∧ e.fld pdBase (Reg.PD.PGOOD.elem k) = 0 ∧ e.fld pdBase Reg.PD_EVENT.PG_LOST = 1 ∧ on e = on d ∧ off e ∧
          forgets e))

/-- The Damper and admission (R432 to R436), with no decision groups and no widening in force. A sensor that reports begins an episode at
its level, counted and logged while the log is free, or raises one, and the divider swallows at the positions that remain; sensors that
report less put it at level 1 or in its quiet interval, whose end ends it; an episode that lasts is widened to its quadrant, offering DROOP,
whose latch is set here. The next group of the admission queue has its clocks opened. The model's choices here are log entries 56 and 57. -/
def Obligations.DamperAndAdmission : Prop :=
  ∀ (s : State) (c : Fin 256) (layer : Fin 5) (i : Fin 4) (two one : Bool) (remain : Nat) (g : Fin 16), s.quiet = true →
    let d := s.dev
    let q := groupQuadrant g
    let eps := d.power.episodes
    let x := groupOf c
    let level := if two then 2 else 1
    let passed (t : BitVec 64) (n : Nat) : Prop := n ≤ (d.clk.trunkCyc - t).toNat + d.clk.ratioN
    let rise (began : BitVec 64) (e : Dev) : Prop :=
      e.power = { d.power with episodes := eps.put x { level := level, began := began } } ∧ (two = true → e.fld damperBase Reg.DMP_EVENT.LEVEL2 = 1) ∧
      bitOf (e.fld damperBase Reg.DMP_ACTIVE.GROUPS) x = true ∧
      e.keeper.swallowed.num x = d.keeper.swallowed.num x + min remain (e.groupP x - d.keeper.topP.num x) ∧
      OnlyParts [.regs, .power, .keeper] d e
    d.strike.groups = [] → d.fld damperBase Reg.DMP_ACTIVE.WIDE = 0 →
    (d.domainOn 0 = true → d.fabricKHz ≠ 0 → i.val < droopSensors layer → d.test.droopOut.mem (droopKey layer c i) = false →
      (eps.look x = none →
        Completes (.droopSense c layer i two remain) s fun e =>
          rise d.clk.trunkCyc e ∧ e.fld damperBase Reg.DMP_EVENT.EPISODE = 1 ∧ Counted damperBase Reg.DMP_EPISODE_COUNT.COUNT 1 d e ∧
          (d.fld damperBase Reg.DMP_LOG.VALID = 0 → (e.reg (damperBase + Reg.DMP_LOG.off)).toNat =
            d.now % 2 ^ 16 * 2 ^ 16 + x * 2 ^ 12 + layer * 2 ^ 5 + bit01 two * 2 + 1)) ∧
      (∀ e0, eps.look x = some e0 → e0.level < level → Completes (.droopSense c layer i two remain) s (rise e0.began))) ∧
    (∀ e0, eps.look g = some e0 →
      (e0.level = 2 ∨ (e0.level = 1 ∧ one = false) →
        Completes (.droopSensorClear g one) s fun e =>
          e.power = { d.power with episodes := eps.put g { e0 with level := bit01 one, quiet := d.clk.trunkCyc } } ∧ OnlyParts [.power] d e) ∧
      (e0.level = 0 → passed e0.quiet (64 * (1 + d.fld damperBase Reg.DMP_CFG.HOLD)) →
        Completes (.episodeEnd g) s fun e =>
          e.power = { d.power with episodes := eps.del g } ∧ bitOf (e.fld damperBase Reg.DMP_ACTIVE.GROUPS) g = false ∧
          OnlyParts [.regs, .power] d e ∧ OnlyRegs [damperBase + Reg.DMP_ACTIVE.GROUPS.off] d e) ∧
      (e0.level ≠ 0 ∨ ¬passed e0.quiet (64 * (1 + d.fld damperBase Reg.DMP_CFG.HOLD)) → Completes (.episodeEnd g) s fun e => e = d) ∧
      (d.latched causeDroop = true → passed e0.began (64 * max 1 (d.fld damperBase Reg.DMP_CFG.WIDEN)) →
        Completes (.widened g) s fun e =>
          e.fld damperBase Reg.DMP_ACTIVE.WIDE = 2 ^ q ∧ e.fld damperBase Reg.DMP_EVENT.WIDENED = 1 ∧
          Counted damperBase Reg.DMP_WIDEN_COUNT.COUNT 1 d e ∧
          (∀ h : Fin 16, groupQuadrant h = q → bitOf (e.fld damperBase Reg.DMP_ACTIVE.GROUPS) h = true ∧ d.ownLevel g ≤ e.dampLevel h) ∧
          OnlyParts [.regs, .kryup] d e)) ∧
    (d.nextAdmit = some g → d.power.stage = 0 →
      Completes .groupAdmit s fun e =>
        e.power = { d.power with admission := d.power.admission.filter (· != g.val) } ∧
        (∀ y ∈ groupColumns g, ∀ die : Fin 2, d.domainOn (32 + 4 * die + q) = true → e.colClock y die = true) ∧
        OnlyParts [.power, .fabric] d e)

/-! ## Self-test, repair, scan and proof loops -/

/-- Service BIST and privileged tests (R469, R480). BIST_CMD begins in PROOF with the forme not released and the controller at work, and is
refused outside PROOF; a BIST that finds nothing reports the groups it tested and leaves their banks at 0 and their plate slots and the
stage slots EMPTY, and B0's rings gone. PEAL_PRIV isolates a stopped unit in PROOF, is refused for a reserved target, and its end leaves the
unit STOPPED with the registers that RESET returns at reset. SCAN_ENTER (R486, R487), with the latch of SCAN_ENTRY set. Where SCAN_PERMIT
forbids it, BYPASS is selected and the refusal counted. Where it allows it, keys are zeroised and refused until the next device reset (the
model's reading of their loss, not the spec's words), the chains are connected, and what Kryup, fuses, flash and the AO domain hold stays;
the rest of the functional state is a free value (log entry 2). The model's choice here is log entry 65. -/
def Obligations.ServiceTestsAndScan : Prop :=
  (∀ (s : State) (path : Fin 8) (b0 : Bool) (groups : BitVec 16) (t : Fin 4) (ms mask u : Nat), s.quiet = true →
    let d := s.dev
    let b := stctlBase
    let rejected (f : Fld) (e : Dev) : Prop := e.fld b f = 1 ∧ e.answered path stOk 0 ∧ OnlyParts [.regs, .ctl] d e
    (d.reached path bistCmdAddr = true → d.test.bist = none →
      (d.mode = modeProof → d.load.opened = false → d.runs b = true →
        Completes (.bistCmd path b0 groups) s fun e =>
          e.test = { d.test with bist := some (groups.toNat + bit01 b0 * 2 ^ 16) } ∧ e.answered path stOk 0 ∧
          OnlyParts [.regs, .ctl, .test] d e ∧ OnlyRegs [bistCmdAddr] d e) ∧
      (d.mode ≠ modeProof ∨ d.load.opened = true → Completes (.bistCmd path b0 groups) s (rejected Reg.PEAL_EVENT.BIST_REJECT))) ∧
    (d.test.bist = some mask → mask < 2 ^ 17 →
      Completes (.bistDone [] [] b0 ms) s fun e =>
        e.test.bist = none ∧ e.fld b Reg.BIST_STATUS.RAN = 1 ∧ e.fld b Reg.BIST_TIME.MS = min ms 0xFFFF ∧
        e.fld b Reg.BIST_STATUS.GROUPS_FAIL = d.fld b Reg.BIST_STATUS.GROUPS_FAIL &&& (mask ^^^ 0xFFFF) ∧
        e.fld b Reg.PEAL_EVENT.BIST_DONE = 1 ∧
        (∀ g : Fin 16, mask.testBit g = true → (∀ k : Fin 4, e.pslot g k = slotEmpty ∧ e.stageSt k = stageEmpty) ∧
          ∀ c ∈ groupColumns g, ∀ x, x / 2 ^ 22 = c → e.mem.bytes.at x 0 = 0) ∧
        (mask.testBit 16 = true → e.rings = {} ∧ e.fld b Reg.BIST_STATUS.B0_FAIL = bit01 b0) ∧
        OnlyParts [.regs, .plates, .mem, .rings, .lanes, .test] d e) ∧
    (d.reached path pealPrivAddr = true → d.test.priv = none →
      (t.val = 0 → d.mode = modeProof → d.ust cryptoBase = .stopped →
        Completes (.pealPriv path t) s fun e =>
          e.ust cryptoBase = .isolated ∧ e.test = { d.test with priv := some cryptoBase } ∧ e.answered path stOk 0 ∧
          OnlyParts [.regs, .ctl, .test] d e ∧ OnlyStates [pealPrivAddr] d e) ∧
      (t.val = 3 → Completes (.pealPriv path t) s (rejected Reg.PEAL_EVENT.PRIV_REJECT))) ∧
    (d.test.priv = some u → u = cryptoBase → d.ust u = .isolated →
      Completes (.privDone b0) s fun e =>
        e.ust u = .stopped ∧ (∀ a, resettable u a = true → e.reg a = resetValue a) ∧ e.test = { d.test with priv := none } ∧
        e.fld b Reg.PEAL_PRIV.FAIL = bit01 b0 ∧ e.fld b Reg.PEAL_EVENT.PRIV_DONE = 1)) ∧
  ∀ s : State, s.quiet = true →
    let d := s.dev
    let b := stctlBase
    (d.fld b Reg.SCAN_PERMIT.EN = 0 →
      Completes .scanEnter s fun e =>
        e.pins = { d.pins with jtag := .bypass } ∧ Counted b Reg.SCAN_PERMIT.REFUSED 1 d e ∧ OnlyParts [.regs, .pins] d e ∧
        OnlyRegs [b + Reg.SCAN_PERMIT.EN.off] d e) ∧
    (d.fld b Reg.SCAN_PERMIT.EN = 1 → d.latched causeScan = true →
      Completes .scanEnter s fun e =>
        e.pins = { d.pins with jtag := .scan } ∧ e.fld b Reg.SCAN_PERMIT.ENTERED = 1 ∧ e.ext.zeroised = 0xFFFE ∧ e.ext.scanLocked = true ∧
        e.fld kryupBase Reg.KRY_STATUS.ZEROISED = 1 ∧ e.kryup.log = d.kryup.log ∧ e.ident = d.ident ∧ e.tick = d.tick ∧
        e.test.softMap = d.test.softMap ∧ e.test.scanned = true ∧ e.free = d.free + 1 ∧
        (∀ a, scanKept a = true → a ≠ kryupBase + Reg.KRY_STATUS.ZEROISED.off → a ≠ b + Reg.SCAN_PERMIT.EN.off → e.reg a = d.reg a))

/-- Peal (R470 to R474). A slice with the column's token relieves a bank, or marks a failing relief bank, and frees the token; a relief's
copy-out copies its bank to the relief bank, its march leaves the bank at 0, a fault it finds takes a spare, and its copy-back returns the
bank and ends it. The model's choices here are log entries 67 and 69. -/
def Obligations.PealRelievesBanks : Prop :=
  ∀ (s : State) (c : Fin 256) (bank : Fin 8) (tour late bad : Bool) (g : Fin 16) (r : Relief), s.quiet = true →
    let d := s.dev
    let b := stctlBase
    let x := groupOf c
    let old := r.bank
    let spare := reliefNumber g
    let byte (e : Dev) (k a : Nat) : Byte := e.mem.bytes.at (k * 2 ^ 19 + a) 0
    let may (kind : Nat) : Prop :=
      d.runs b = true ∧ d.flag b Reg.PEAL_CTRL.EN = true ∧ bitOf (d.fld b Reg.PEAL_CTRL.KIND_EN) (kind - 1) = true ∧
      d.pealPermits x = true ∧ d.holdsToken c .peal = true ∧ bitOf (d.heat.colStep.num c) 0 = false
    let slice (kind : Nat) (e : Dev) : Prop :=
      e.fld b Reg.PEAL_STATUS.KIND = kind ∧ e.fld b Reg.PEAL_STATUS.COLUMN = c ∧ e.heat = { d.heat with token := d.heat.token.del c } ∧
      Counted b Reg.PEAL_TOUR_COUNT.COUNT (bit01 tour) d e ∧ (late = true → e.fld b Reg.PEAL_EVENT.TOUR_LATE = 1)
    (may 1 → d.pealFits c (.relief bank) = true →
      Completes (.pealSlice c (.relief bank) tour late) s fun e =>
        slice 1 e ∧ e.mem = { d.mem with relief := d.mem.relief.put x { bank := c * 8 + bank } } ∧ OnlyParts [.regs, .mem, .heat] d e) ∧
    (may 2 → d.reliefFree x = true →
      Completes (.pealSlice c (.reliefTest bad) tour late) s fun e =>
        slice 2 e ∧ (bad = true → e.test.reliefBad.look x = some 1 ∧ e.fld b Reg.PEAL_EVENT.FAIL = 1 ∧
          Counted b Reg.PEAL_FAIL_COUNT.COUNT 1 d e) ∧ OnlyParts [.regs, .heat, .test] d e) ∧
    (d.mem.relief.look g = some r → r.permanent = false → old < 2048 → d.canonical = true →
      bitOf (d.heat.colStep.num (old / 8)) 0 = false →
      (r.phase = 0 →
        Completes (.reliefPhaseEnd g []) s fun e =>
          e.mem.relief.look g = some { r with phase := 1 } ∧ (∀ a, a < 2 ^ 19 → byte e spare a = byte d old a ∧ byte e old a = byte d old a) ∧
          e.fld (columnBase 1 (old / 8)) Reg.MEM_STATUS.RELIEF_ACTIVE = 1 ∧
          e.fld (columnBase 1 (old / 8)) Reg.MEM_STATUS.RELIEF_BANK = old % 8 ∧ OnlyParts [.regs, .mem] d e) ∧
      (r.phase = 1 →
        Completes (.reliefPhaseEnd g []) s (fun e =>
          e.mem.relief.look g = some { r with phase := 2 } ∧ (∀ a, a < 2 ^ 19 → byte e old a = 0 ∧ byte e spare a = byte d spare a) ∧
          OnlyParts [.mem] d e) ∧
        ∀ row : Fin 2128, (d.sparesUsed old false).length = 0 →
          Completes (.reliefPhaseEnd g [(false, row)]) s fun e =>
            e.mem.relief.look g = some { r with phase := 2 } ∧ row.val ∈ e.sparesUsed old false ∧ e.fld b Reg.PEAL_EVENT.FAIL = 1 ∧
            Counted b Reg.PEAL_FAIL_COUNT.COUNT 1 d e) ∧
      (r.phase = 2 → d.power.stage = 0 →
        Completes (.reliefPhaseEnd g []) s fun e =>
          e.mem.relief.look g = none ∧ (∀ a, a < 2 ^ 19 → byte e old a = byte d spare a) ∧
          e.fld (columnBase 1 (old / 8)) Reg.MEM_STATUS.RELIEF_ACTIVE = 0 ∧ OnlyParts [.regs, .mem, .heat] d e))

/-- The soft repair map, the fuses and the proof registers (R484, R485, R493, R494). With no command running and room in the map, COMMIT
takes the log's entry, COMMIT_ALL the lasting ones, REMOVE and ERASE take away while the security fuse is open and are LOCKED when it is
closed; the end of a command writes the map, or leaves it after a flash error. Kryup's write of REP_FUSE burns the next word while VCC_FUSE
is good, and any other path's is DENIED with KW_WRITE, whose latch is set here. INJECT marks a running loop, and too many errors end its
synchronism. The model's choice here is log entry 70. -/
def Obligations.RepairsLastAndLoopsAreTested : Prop :=
  ∀ (s : State) (path : Fin 8) (i : Fin 4096) (w : Word) (err : Bool) (n : Fin 144), s.quiet = true →
    let d := s.dev
    let b := stctlBase
    let m := d.test.softMap
    let o := laneBase n + 0x600
    let fuse := b + Reg.REP_FUSE.W0.off
    let runs (m' : List Word) (e : Dev) : Prop :=
      e.test = { d.test with repRun := some m' } ∧ e.fld b Reg.REP_STATUS.STATUS = rstBusy ∧ e.answered path stOk 0 ∧
      OnlyParts [.regs, .ctl, .test] d e ∧ OnlyRegs [repCmdAddr, b + Reg.REP_STATUS.STATUS.off] d e
    let answers (st : Nat) (e : Dev) : Prop :=
      e.fld b Reg.REP_STATUS.STATUS = st ∧ e.answered path stOk 0 ∧ OnlyParts [.regs, .ctl] d e ∧
      OnlyRegs [repCmdAddr, b + Reg.REP_STATUS.STATUS.off] d e
    (d.reached path repCmdAddr = true → d.test.repRun = none → m.length + d.test.log.length ≤ 4096 →
      (∀ x, d.test.log[i.val]? = some x →
        Completes (.repCommit path i) s (runs (if m.contains x.w0 then m else m ++ [x.w0]))) ∧
      Completes (.repCommitAll path i) s (runs (appendNew m ((d.test.log.filter RepEntry.lasting).map (·.w0)))) ∧
      (d.ident.closed = false → Completes (.repRemove path i) s (runs (m.eraseIdx i)) ∧ Completes (.repErase path i) s (runs [])) ∧
      (d.ident.closed = true →
        Completes (.repRemove path i) s (answers rstLocked) ∧ Completes (.repErase path i) s (answers rstLocked))) ∧
    (d.reached path repCmdAddr = true → d.test.repRun ≠ none → Completes (.repCommit path i) s (answers rstBusy)) ∧
    (∀ m', d.test.repRun = some m' →
      Completes (.repCmdDone err) s fun e =>
        e.test = { d.test with repRun := none, softMap := if err then m else m' } ∧
        e.fld b Reg.REP_STATUS.STATUS = (if err then rstFlashErr else rstOk) ∧ OnlyParts [.regs, .test] d e ∧
        OnlyRegs [b + Reg.REP_STATUS.STATUS.off] d e) ∧
    (d.reached path fuse = true →
      (path.val = pathKryup → bitOf d.power.railsGood 18 = true → d.pins.burned < 1536 →
        Completes (.repFuseWrite path w) s fun e =>
          e.pins = { d.pins with fuses := d.pins.fuses.set (512 + d.pins.burned) 0 w, burned := d.pins.burned + 1 } ∧
          e.reg fuse = w ∧ e.answered path stOk 0 ∧ OnlyParts [.regs, .ctl, .pins] d e ∧ OnlyRegs [fuse] d e) ∧
      (path.val = pathKryup → bitOf d.power.railsGood 18 = false ∨ d.pins.burned = 1536 →
        Completes (.repFuseWrite path w) s fun e =>
          e.fld b Reg.REP_STATUS.FUSE_FAIL = 1 ∧ e.reg fuse = w ∧ e.answered path stOk 0 ∧ OnlyParts [.regs, .ctl] d e) ∧
      (path.val ≠ pathKryup → d.latched causeKwWrite = true →
        Completes (.repFuseWrite path w) s fun e => e.answered path stDenied 0 ∧ OnlyParts [.regs, .ctl, .kryup] d e)) ∧
    (d.reached path (o + Reg.PRF_CTRL.off) = true → d.proving (laneBase n) = true →
      Completes (.proofInject path (laneBase n)) s fun e =>
        (e.proofRec (laneBase n)) = { d.proofRec (laneBase n) with inject := true } ∧ e.answered path stOk 0 ∧
        OnlyParts [.regs, .ctl, .proof] d e ∧ OnlyRegs [o + Reg.PRF_CTRL.off] d e) ∧
    (d.proving (laneBase n) = true → d.fld o Reg.PRF_STATUS.SYNC = 1 → 1000 < (d.proofRec (laneBase n)).errors →
      Completes (.proofSyncLoss n) s fun e =>
        e.fld o Reg.PRF_STATUS.SYNC = 0 ∧ Counted o Reg.PRF_STATUS.SYNC_LOSS 1 d e ∧
        (e.proofRec (laneBase n)) = { d.proofRec (laneBase n) with seed := 0, errs := [] } ∧ OnlyParts [.regs, .proof] d e ∧
        OnlyRegs [o + Reg.PRF_STATUS.off] d e)

/-! ## Pins, serial ports and JTAG -/

/-- Pins and their supplies (R503 to R506, R512, R514). A change of an input pad sets the pin's interrupt by its mode, while its bank runs.
A PIN_MUX write gives each of 8 pins a function it offers and leaves, with MUX_REJECT, one that does not offer it. A bank that loses its
supply has its pins in hot-socket state; its return shows the level. Embedded flash (R520). A command starts with the address and data that
the registers hold, while none runs. At its end a read of the boot record or the user area gives the word, a program stores it, an erase
clears its sector, a program or erase elsewhere is LOCKED and changes nothing, and a failure that the flash reports is FAIL. The model's
choices here are log entries 75 and 81. -/
def Obligations.PinsSuppliesAndFlash : Prop :=
  (∀ (s : State) (path : Fin 8) (p : Fin 320) (level : Bool) (k : Fin 40) (v : Word) (b : Fin 8) (x : Fin 3), s.quiet = true →
    let d := s.dev
    let old := d.pins.pad.mem p
    let mode := d.pinCfg p Reg.PIN_CFG.IRQ_MODE
    let fires : Bool := match mode with
      | 1 => !old && level
      | 2 => old && !level
      | 3 => old != level
      | 4 => level
      | 5 => !level
      | _ => false
    let pend := pinBit p Reg.IRQ_PEND_LO.off
    (d.hotSocket p = true → d.runs (pinBank p) = true → d.proofDepth (pinBank p) = none →
      Completes (.pinIrq p level) s fun e =>
        e.pins.pad.mem p = level ∧ e.fld (pinBank p) pend = (if fires then 1 else d.fld (pinBank p) pend) ∧ OnlyParts [.regs, .pins] d e ∧
        OnlyRegs [pinBank p + pend.off] d e) ∧
    (d.runs (pinBank p) = false → Completes (.pinIrq p level) s fun e => e.pins.pad.mem p = level ∧ OnlyParts [.pins] d e) ∧
    (d.reached path (pinsBase + Reg.PIN_MUX.off + 4 * k) = true →
      Completes (.pinMuxWrite path k v) s fun e =>
        (∀ j : Fin 8,
          let q := 8 * k.val + j
          let f := bitsOf v.toNat (4 * j) 4
          (pinOffers q f = true → e.pinFunc q = f) ∧
          (pinOffers q f = false → e.pinFunc q = d.pinFunc q ∧ e.fld pinsBase Reg.PIN_EVENT.MUX_REJECT = 1)) ∧
        (∀ q : Fin 320, q.val / 8 ≠ k.val → e.pinFunc q = d.pinFunc q) ∧ e.pins.pad = d.pins.pad ∧ e.answered path stOk 0 ∧
        OnlyParts [.regs, .ctl, .pins] d e) ∧
    (d.bankGood b = true →
      Completes (.vccioLoss b) s fun e =>
        e.bankGood b = false ∧ (∀ q ∈ bankPins b, e.pinCfg q Reg.PIN_CFG.HS = 1 ∧ e.hotSocket q = true) ∧
        e.fld (gpioBase b) Reg.BANK_STATUS.PGOOD = 0 ∧ e.fld (gpioBase b) Reg.BANK_EVENT.PG_LOST = 1 ∧
        OnlyParts [.regs, .power, .pins] d e ∧ OnlyWindow (gpioBase b) d e) ∧
    (d.bankGood b = false → d.load.step ≠ .power → d.mode ≠ modeStart →
      Completes (.vccioGood b x) s fun e =>
        e.bankGood b = true ∧ e.fld (gpioBase b) Reg.BANK_STATUS.PGOOD = 1 ∧ e.fld (gpioBase b) Reg.BANK_STATUS.VCCIO = x + 1 ∧
        e.fld (gpioBase b) Reg.BANK_EVENT.PG_BACK = 1 ∧ bitOf e.power.railsGood (bankRail b) = true ∧ OnlyParts [.regs, .power] d e ∧
        OnlyRegs [gpioBase b + Reg.BANK_STATUS.PGOOD.off, gpioBase b + Reg.BANK_EVENT.PG_LOST.off] d e)) ∧
  ∀ (s : State) (path : Fin 8) (op addr : Nat) (w : Word), s.quiet = true →
    let d := s.dev
    let b := serialGalleyBase
    let starts (o : Nat) (e : Dev) : Prop :=
      e.pins = { d.pins with flashRun := some (o, 4 * d.fld b Reg.FL_ADDR.ADDR, d.reg (b + Reg.FL_DATA.off)) } ∧
      e.fld b Reg.FL_STATUS.BUSY = 1 ∧ e.answered path stOk 0 ∧ OnlyParts [.regs, .ctl, .pins] d e ∧
      OnlyRegs [flCmdAddr, b + Reg.FL_STATUS.BUSY.off] d e
    let ends (st : Nat) (e : Dev) : Prop :=
      e.fld b Reg.FL_STATUS.BUSY = 0 ∧ e.fld b Reg.FL_STATUS.STATUS = st ∧ e.pins.flashRun = none ∧ OnlyParts [.regs, .pins] d e ∧
      OnlyRegs [b + Reg.FL_STATUS.BUSY.off, b + Reg.FL_DATA.off] d e
    let word (e : Dev) (a : Nat) : Word := e.pins.flash.at a 0xFFFFFFFF
    (d.reached path flCmdAddr = true → d.pins.flashRun = none →
      Completes (.flashRead path) s (starts flRead) ∧ Completes (.flashProgram path) s (starts flProgram) ∧
      Completes (.eraseSector path) s (starts flErase)) ∧
    (d.pins.flashRun = some (op, addr, w) →
      (op = flRead → flashOpen addr = true →
        Completes (.flCmdDone false) s fun e => ends flOk e ∧ e.reg (b + Reg.FL_DATA.off) = word d (addr / 4) ∧ e.pins.flash = d.pins.flash) ∧
      (op = flProgram → flashOpen addr = true →
        Completes (.flCmdDone false) s fun e =>
          ends flOk e ∧ word e (addr / 4) = w ∧ (∀ a, a ≠ addr / 4 → word e a = word d a)) ∧
      (op = flErase → flashOpen addr = true →
        Completes (.flCmdDone false) s fun e =>
          ends flOk e ∧ ∀ a, word e a = (if a / 1024 = addr / 4096 then 0xFFFFFFFF else word d a)) ∧
      (op = flProgram ∨ op = flErase → flashOpen addr = false →
        Completes (.flCmdDone false) s fun e => ends flLocked e ∧ e.pins.flash = d.pins.flash) ∧
      (op = flProgram ∨ op = flErase → flashOpen addr = true →
        Completes (.flCmdDone true) s fun e => ends flFail e ∧ e.pins.flash = d.pins.flash))

/-- SPI1 frames and JTAG (R517, R519). A whole READ or WRITE frame queues its access for path 0 and any shorter frame, or an unknown
command, sets ERR. DEBUG with GO queues an access for path 6 unless one is pending. Each other instruction is selected, EXTEST and
SAMPLE/PRELOAD with what the boundary register then drives; only interrupts of pins may follow. Serial ports (R515, R516, R518, R500). A
host port at rest issues a command, and refuses one while busy; its end moves the bytes sent and read and sets DONE. A byte written enters a
TX FIFO with room and is an error in a full one; a read takes the head of the RX FIFO; a received byte enters the RX FIFO, or is dropped, by
a UART with RX_OVF; a port that sends takes the head of its TX FIFO, which in its loop comes back to it. The model's choices here are log
entries 79 and 80. -/
def Obligations.FramesJtagAndSerialPorts : Prop :=
  (∀ (s : State) (a3 a2 a1 a0 v3 v2 v1 v0 c : Byte) (rest : List Byte) (addr data : Word) (write : Bool) (cells : List (Fin 340 × Fin 3)),
    s.quiet = true →
    let d := s.dev
    let sp := serialBase 1
    let at_ := bigEndian [a3, a2, a1, a0]
    let queued (a : Access) (e : Dev) : Prop := e.ctl = { d.ctl with waiting := d.ctl.waiting ++ [{ a with since := d.tick }] }
    let pend : List Nat := (List.range 8).flatMap fun b => [gpioBase b + Reg.IRQ_PEND_LO.off, gpioBase b + Reg.IRQ_PEND_HI.off]
    let drives : SMap Nat := cells.foldl (fun m x => m.setNum x.1 x.2) d.pins.boundary
    let selects (j : JtagInstr) (e : Dev) : Prop := e.pins = { d.pins with jtag := j } ∧ OnlyParts [.regs, .pins] d e ∧ OnlyRegs pend d e
    let sampled (j : JtagInstr) (e : Dev) : Prop :=
      e.pins = { d.pins with jtag := j, boundary := drives } ∧ OnlyParts [.regs, .pins] d e ∧ OnlyRegs pend d e
    (d.spi1Open = true →
      Completes (.spi1Frame ([0x0B, a3, a2, a1, a0] ++ rest)) s (fun e =>
        queued { path := pathSpi1, write := false, addr := at_, data := 0 } e ∧ OnlyParts [.ctl] d e) ∧
      Completes (.spi1Frame ([0x02, a3, a2, a1, a0, v3, v2, v1, v0] ++ rest)) s (fun e =>
        queued { path := pathSpi1, write := true, addr := at_, data := BitVec.ofNat 32 (bigEndian [v3, v2, v1, v0]) } e ∧
        OnlyParts [.ctl] d e) ∧
      ((c ≠ 0x0B ∨ rest.length < 4) → (c ≠ 0x02 ∨ rest.length < 8) →
        Completes (.spi1Frame (c :: rest)) s fun e =>
          e.fld sp Reg.SER_EVENT.ERR = 1 ∧ OnlyParts [.regs] d e ∧ OnlyRegs [sp + Reg.SER_EVENT.ERR.off] d e)) ∧
    (d.spi1Open = false → Completes (.spi1Frame rest) s fun e => e = d) ∧
    (d.jtagPending = false →
      Completes (.jtagDebug addr data write true) s fun e =>
        e.pins = { d.pins with jtag := .debug } ∧ queued { path := pathJtag, write := write, addr := addr.toNat, data := data } e ∧
        OnlyParts [.ctl, .pins] d e) ∧
    (d.jtagPending = true →
      Completes (.jtagDebug addr data write true) s fun e => e.pins = { d.pins with jtag := .debug } ∧ OnlyParts [.pins] d e) ∧
    Completes (.extest cells) s (sampled .extest) ∧ Completes (.samplePreload cells) s (sampled .sample) ∧
    Completes .idcode s (selects .idcode) ∧ Completes .clamp s (selects .clamp) ∧ Completes .highz s (selects .highz) ∧
    Completes .extestPulse s (selects .extestPulse) ∧ Completes .extestTrain s (selects .extestTrain) ∧ Completes .bypass s (selects .bypass)) ∧
  ∀ (s : State) (path : Fin 8) (i : Fin 6) (w : Word) (x : Byte) (bad arb : Bool) (got : List Byte) (sent : Nat), s.quiet = true →
    let d := s.dev
    let b := serialBase i
    let r := d.serialRec i
    let ev := b + Reg.SER_EVENT.ERR.off
    let room := r.rx.length < 64
    let cmd : Word := fset w Reg.SER_CMD.GO 1 &&& BitVec.ofNat 32 (serialMask i Reg.SER_CMD.off)
    (d.reached path (b + Reg.SER_CMD.off) = true → d.hostPort i = true →
      (d.serBusy i = false → d.runs b = true → d.proving b = false → d.bootReads = false →
        Completes (.serCmd path i w) s fun e =>
          e.serialRec i = { r with busy := true } ∧ e.reg (b + Reg.SER_CMD.off) = cmd ∧ e.answered path stOk 0 ∧
          OnlyParts [.regs, .ctl, .pins] d e ∧ OnlyRegs [b + Reg.SER_CMD.off] d e) ∧
      (d.serBusy i = true →
        Completes (.serCmd path i w) s fun e =>
          e.fld b Reg.SER_EVENT.CMD_REJECT = 1 ∧ e.pins = d.pins ∧ e.answered path stOk 0 ∧ OnlyParts [.regs, .ctl] d e ∧
          OnlyRegs [b + Reg.SER_CMD.off, ev] d e)) ∧
    (i.val = 2 ∨ i.val = 3 ∨ (i.val = 0 ∧ if d.flag b Reg.SER_CMD.WRITE then got = [] else sent = 0) → r.busy = true → r.rx.length + got.length ≤ 64 → got.length ≤ d.fld b Reg.SER_CMD.RD_LEN →
      sent ≤ d.fld b Reg.SER_CMD.WR_LEN → sent ≤ 64 →
      Completes (.serCmdDone i sent got bad arb) s fun e =>
        e.serialRec i = { r with busy := false, tx := r.tx.drop sent, rx := r.rx ++ got.map fun y => { byte := y, bad := false } } ∧
        e.fld b Reg.SER_EVENT.DONE = 1 ∧ (bad = true → e.fld b Reg.SER_EVENT.ERR = 1) ∧
        (arb = true → i.val ≠ 0 → e.fld b Reg.SER_EVENT.ARB_LOST = 1) ∧ OnlyParts [.regs, .pins] d e ∧ OnlyRegs [ev] d e) ∧
    (d.reached path (b + Reg.SER_TX.off) = true →
      Completes (.serTxWrite path i x) s fun e =>
        e.answered path stOk 0 ∧ e.fld b Reg.SER_TX.BYTE = x.toNat ∧
        (r.tx.length < 64 → e.serialRec i = { r with tx := r.tx ++ [x] } ∧ OnlyParts [.regs, .ctl, .pins] d e ∧
          OnlyRegs [b + Reg.SER_TX.off] d e) ∧
        (64 ≤ r.tx.length → e.pins = d.pins ∧ e.fld b Reg.SER_EVENT.ERR = 1 ∧ OnlyParts [.regs, .ctl] d e ∧
          OnlyRegs [b + Reg.SER_TX.off, ev] d e)) ∧
    (d.reached path (b + Reg.SER_RX.off) = true →
      (r.rx = [] → Completes (.serRxRead path i) s fun e => e.answered path stOk 0 ∧ OnlyParts [.ctl] d e) ∧
      (∀ y ys, r.rx = y :: ys →
        Completes (.serRxRead path i) s fun e =>
          e.serialRec i = { r with rx := ys } ∧ e.answered path stOk (BitVec.ofNat 32 (bit01 y.bad * 2 ^ 9 + 2 ^ 8 + y.byte.toNat)) ∧
          OnlyParts [.ctl, .pins] d e)) ∧
    (d.serReceives i = true →
      (room → Completes (.serialByteReceived i x bad) s fun e =>
        e.serialRec i = { r with rx := r.rx ++ [{ byte := x, bad := bad && i.val != 3 }] } ∧ e.fld b Reg.SER_EVENT.RX_DATA = 1 ∧
        (bad = true → i.val ≠ 3 → e.fld b Reg.SER_EVENT.ERR = 1) ∧ OnlyParts [.regs, .pins] d e ∧ OnlyRegs [ev] d e) ∧
      (¬room → i.val ≠ 3 → bad = false → Completes (.serialByteReceived i x bad) s fun e =>
        e.pins = d.pins ∧ e.fld b Reg.SER_EVENT.RX_OVF = 1 ∧ OnlyParts [.regs] d e ∧ OnlyRegs [ev] d e) ∧
      (¬room → i.val = 3 → Completes (.serialByteReceived i x bad) s fun e => e = d)) ∧
    ∀ y ys, d.serSends i = true → r.tx = y :: ys →
      (d.proving b = false → Completes (.serialByteSent i) s fun e =>
        e.serialRec i = { r with tx := ys } ∧ (4 ≤ i.val → ys = [] → e.fld b Reg.SER_EVENT.DONE = 1) ∧ OnlyParts [.regs, .pins] d e ∧
        OnlyRegs [ev] d e) ∧
      (d.proving b = true → room → Completes (.serialByteSent i) s fun e =>
        e.serialRec i = { r with tx := ys, rx := r.rx ++ [{ byte := y, bad := false }] } ∧ e.fld b Reg.SER_EVENT.RX_DATA = 1 ∧
        OnlyParts [.regs, .pins] d e ∧ OnlyRegs [ev] d e)

end
end

