-- ==== Sys2Proof/Laws/Maps.lean ====
section
/-!
SUPPORT. The sparse maps: what a look finds after a put, a removal and a set, and that each keeps the canonical form.
-/
namespace Sys2Proof.Machine

variable {α : Type}

@[simp] theorem lookItem_putItem_same (k : Nat) (v : α) (l : List (Nat × α)) : lookItem k (putItem k v l) = some v := by
  induction l with
  | nil => simp [putItem, lookItem]
  | cons h t ih =>
    obtain ⟨k', v'⟩ := h
    unfold putItem
    split
    · simp [lookItem]
    · split
      · simp [lookItem]
      · rename_i h2; simp [lookItem, h2, ih]

theorem lookItem_putItem_other {k j : Nat} (h : j ≠ k) (v : α) (l : List (Nat × α)) :
    lookItem j (putItem k v l) = lookItem j l := by
  induction l with
  | nil => simp [putItem, lookItem, h]
  | cons e t ih =>
    obtain ⟨k', v'⟩ := e
    unfold putItem
    split
    · simp [lookItem, h]
    · split
      · rename_i h2; subst h2; simp [lookItem, h]
      · simp [lookItem, ih]

@[simp] theorem lookItem_delItem_same (k : Nat) (l : List (Nat × α)) : lookItem k (delItem k l) = none := by
  induction l with
  | nil => simp [delItem, lookItem]
  | cons e t ih =>
    obtain ⟨k', v'⟩ := e
    unfold delItem
    split
    · exact ih
    · rename_i h; simp [lookItem, h, ih]

theorem lookItem_delItem_other {k j : Nat} (h : j ≠ k) (l : List (Nat × α)) : lookItem j (delItem k l) = lookItem j l := by
  induction l with
  | nil => simp [delItem]
  | cons e t ih =>
    obtain ⟨k', v'⟩ := e
    unfold delItem
    split
    · rename_i h2; subst h2; simp [lookItem, h, ih]
    · simp [lookItem, ih]

@[simp] theorem SMap.look_put_same (m : SMap α) (k : Nat) (v : α) : (m.put k v).look k = some v :=
  lookItem_putItem_same k v m.items

theorem SMap.look_put_other (m : SMap α) {k j : Nat} (h : j ≠ k) (v : α) : (m.put k v).look j = m.look j :=
  lookItem_putItem_other h v m.items

@[simp] theorem SMap.look_del_same (m : SMap α) (k : Nat) : (m.del k).look k = none := lookItem_delItem_same k m.items

theorem SMap.look_del_other (m : SMap α) {k j : Nat} (h : j ≠ k) : (m.del k).look j = m.look j :=
  lookItem_delItem_other h m.items

/-- What a map with a default reads after a set. -/
theorem SMap.at_set [DecidableEq α] (m : SMap α) (k j : Nat) (d v d' : α) (h : j = k → d' = d) :
    (m.set k d v).at j d' = if j = k then v else m.at j d' := by
  unfold SMap.at SMap.set
  by_cases hj : j = k
  · subst hj; cases h rfl
    by_cases hv : v = d <;> simp [hv]
  · by_cases hv : v = d <;> simp [hv, hj, look_del_other, look_put_other]

@[simp] theorem SMap.num_setNum (m : SMap Nat) (k j v : Nat) : (m.setNum k v).num j = if j = k then v else m.num j :=
  at_set m k j 0 v 0 fun _ => rfl

@[simp] theorem SMap.num_bump (m : SMap Nat) (k j : Nat) : (m.bump k).num j = if j = k then m.num k + 1 else m.num j := by
  simp [SMap.bump]

/-! ## The canonical form -/

/-- A bound that lies below another admits what the other admits. -/
theorem risingFrom_weaken {a b : Nat} (h : a ≤ b) (l : List (Nat × α)) (hl : risingFrom (some b) l) : risingFrom (some a) l := by
  cases l with
  | nil => rfl
  | cons e t =>
    simp only [risingFrom, Bool.and_eq_true, decide_eq_true_eq] at hl ⊢
    exact ⟨by omega, hl.2⟩

theorem risingFrom_none {lo : Option Nat} {l : List (Nat × α)} (h : risingFrom lo l) : risingFrom none l := by
  cases l with
  | nil => rfl
  | cons e t => simp only [risingFrom, Bool.and_eq_true] at h ⊢; exact ⟨trivial, h.2⟩

theorem risingFrom_putItem (k : Nat) (v : α) (l : List (Nat × α)) :
    ∀ lo : Option Nat, (∀ b, lo = some b → b < k) → risingFrom lo l → risingFrom lo (putItem k v l) := by
  induction l with
  | nil => intro lo hk _; cases lo <;> simp_all [putItem, risingFrom]
  | cons e t ih =>
    obtain ⟨k', v'⟩ := e
    intro lo hk hl
    simp only [risingFrom, Bool.and_eq_true] at hl
    unfold putItem
    split
    · rename_i h
      cases lo <;> simp_all [risingFrom]
    · split
      · rename_i h; subst h
        simp only [risingFrom, Bool.and_eq_true]; exact hl
      · simp only [risingFrom, Bool.and_eq_true]
        exact ⟨hl.1, ih (some k') (by intro b hb; cases hb; omega) hl.2⟩

theorem risingFrom_filter (p : Nat × α → Bool) (l : List (Nat × α)) :
    ∀ lo : Option Nat, risingFrom lo l → risingFrom lo (l.filter p) := by
  induction l with
  | nil => intro lo h; exact h
  | cons e t ih =>
    obtain ⟨k', v'⟩ := e
    intro lo hl
    simp only [risingFrom, Bool.and_eq_true] at hl
    by_cases hp : p (k', v')
    · simp only [List.filter_cons, hp, if_true, risingFrom, Bool.and_eq_true]
      exact ⟨hl.1, ih _ hl.2⟩
    · simp only [List.filter_cons, hp]
      cases lo with
      | none => exact risingFrom_none (ih _ hl.2)
      | some b =>
        have hb : b < k' := by simpa using hl.1
        exact risingFrom_weaken (Nat.le_of_lt hb) _ (ih _ hl.2)

theorem delItem_eq_filter (k : Nat) (l : List (Nat × α)) : delItem k l = l.filter fun e => !decide (k = e.1) := by
  induction l with
  | nil => rfl
  | cons e t ih =>
    obtain ⟨k', v'⟩ := e
    unfold delItem
    split
    · rename_i h; simpa [h] using h ▸ ih
    · rename_i h; simp [h, ih]

/-- What `putItem` lists is the new entry or was listed. -/
theorem mem_putItem {k : Nat} {v : α} {e : Nat × α} : ∀ {l : List (Nat × α)}, e ∈ putItem k v l → e = (k, v) ∨ e ∈ l
  | [], h => by simpa [putItem] using h
  | (k', v') :: t, h => by
    unfold putItem at h
    split at h
    · simpa using h
    · split at h
      · rcases List.mem_cons.mp h with h | h
        · exact .inl h
        · exact .inr (List.mem_cons_of_mem _ h)
      · rcases List.mem_cons.mp h with h | h
        · exact .inr (h ▸ List.mem_cons_self)
        · rcases mem_putItem h with h | h
          · exact .inl h
          · exact .inr (List.mem_cons_of_mem _ h)

theorem SMap.rising_put {m : SMap α} (k : Nat) (v : α) (h : m.rising) : (m.put k v).rising :=
  risingFrom_putItem k v m.items none (by simp) h

theorem SMap.rising_del {m : SMap α} (k : Nat) (h : m.rising) : (m.del k).rising := by
  unfold SMap.rising SMap.del; rw [delItem_eq_filter]; exact risingFrom_filter _ _ _ h

theorem SMap.rising_set [DecidableEq α] {m : SMap α} (k : Nat) (d v : α) (h : m.rising) : (m.set k d v).rising := by
  unfold SMap.set; split
  · exact rising_del k h
  · exact rising_put k v h

theorem SMap.rising_keep {m : SMap α} (p : Nat → Bool) (h : m.rising) : (m.keep p).rising := risingFrom_filter _ _ _ h

/-- Setting keeps the canonical form of a map with defaults. -/
theorem SMap.wf_set [DecidableEq α] {m : SMap α} {d : Nat → α} (k : Nat) (v : α) (h : m.wf d) : (m.set k (d k) v).wf d := by
  simp only [SMap.wf, Bool.and_eq_true, List.all_eq_true, Bool.not_eq_true', decide_eq_false_iff_not] at h ⊢
  refine ⟨rising_set k (d k) v h.1, fun e he => ?_⟩
  unfold SMap.set at he
  split at he
  · unfold SMap.del at he; rw [delItem_eq_filter] at he
    exact h.2 e (List.mem_filter.mp he).1
  · rename_i hv
    rcases mem_putItem he with rfl | he
    · exact hv
    · exact h.2 e he

/-- Leaving entries out keeps it. -/
theorem SMap.wf_filter [DecidableEq α] {m : SMap α} {d : Nat → α} (p : Nat × α → Bool) (h : m.wf d) :
    SMap.wf ⟨m.items.filter p⟩ d := by
  simp only [SMap.wf, Bool.and_eq_true, List.all_eq_true] at h ⊢
  exact ⟨risingFrom_filter _ _ _ h.1, fun e he => h.2 e (List.mem_filter.mp he).1⟩

end Sys2Proof.Machine
end

