-- ==== Sys2Proof/Laws/Regs.lean ====
section
/-!
SUPPORT. Registers and their fields: what a register and a field read after one is written.
-/
namespace Sys2Proof.Machine

/-! ## Fields of a word -/

theorem testBit_bitsOf (n lo w i : Nat) : (bitsOf n lo w).testBit i = (decide (i < w) && n.testBit (lo + i)) := by
  unfold bitsOf
  rw [Nat.testBit_mod_two_pow, Nat.testBit_shiftRight]

theorem testBit_fget (w : Word) (f : Fld) (i : Nat) :
    (fget w f).testBit i = (decide (i < f.width) && w.getLsbD (f.lo + i)) := by
  unfold fget; rw [testBit_bitsOf]; rfl

/-- A field lies within its word. -/
def Fld.fits (f : Fld) : Bool := decide (f.lo + f.width ≤ 32)

/-- Two fields of one register share no bit. -/
def Fld.apart (f g : Fld) : Bool := decide (f.lo + f.width ≤ g.lo ∨ g.lo + g.width ≤ f.lo)

theorem getLsbD_fset (w : Word) (f : Fld) (n i : Nat) :
    (fset w f n).getLsbD i =
      if f.lo ≤ i ∧ i < f.lo + f.width ∧ i < 32 then n.testBit (i - f.lo) else w.getLsbD i := by
  unfold fset Fld.mask
  rw [BitVec.getLsbD_or, BitVec.getLsbD_and, BitVec.getLsbD_not, BitVec.getLsbD_ofNat, BitVec.getLsbD_shiftLeft,
    BitVec.getLsbD_ofNat, Nat.testBit_shiftLeft, Nat.testBit_two_pow_sub_one, Nat.testBit_mod_two_pow]
  by_cases h32 : i < 32
  · by_cases hlo : f.lo ≤ i
    · by_cases hw : i < f.lo + f.width
      · have h1 : i - f.lo < f.width := by omega
        have h2 : i - f.lo < 32 := by omega
        simp [h32, hlo, hw, h1, h2, Nat.not_lt.mpr hlo]
      · have h1 : ¬ i - f.lo < f.width := by omega
        simp [h32, hlo, hw, h1]
    · have : i < f.lo := by omega
      simp [h32, hlo, this]
  · have := BitVec.getLsbD_of_ge w i (by omega)
    simp [h32, this]

theorem fget_fset_same {w : Word} {f : Fld} {n : Nat} (h : f.fits) : fget (fset w f n) f = n % 2 ^ f.width := by
  have h : f.lo + f.width ≤ 32 := by simpa [Fld.fits] using h
  apply Nat.eq_of_testBit_eq; intro i
  rw [testBit_fget, getLsbD_fset, Nat.testBit_mod_two_pow]
  by_cases hi : i < f.width
  · have h1 : f.lo + i < f.lo + f.width := by omega
    have h2 : f.lo + i < 32 := by omega
    simp [hi, h2]
  · simp [hi]

theorem fget_fset_apart {w : Word} {f g : Fld} {n : Nat} (h : f.apart g) : fget (fset w f n) g = fget w g := by
  have h : f.lo + f.width ≤ g.lo ∨ g.lo + g.width ≤ f.lo := by simpa [Fld.apart] using h
  apply Nat.eq_of_testBit_eq; intro i
  rw [testBit_fget, testBit_fget, getLsbD_fset]
  by_cases hi : i < g.width
  · rw [if_neg (by omega)]
  · simp [hi]

/-! ## Registers -/

/-- A register reads what was written to it; every other keeps its word. -/
@[simp] theorem reg_setReg (d : Dev) (a b : Nat) (v : Word) : (d.setReg a v).reg b = if b = a then v else d.reg b := by
  unfold Dev.setReg Dev.reg
  exact SMap.at_set d.regs a b (resetValue a) v (resetValue b) (by rintro rfl; rfl)

@[simp] theorem reg_setFld (d : Dev) (b a : Nat) (f : Fld) (n : Nat) :
    (d.setFld b f n).reg a = if a = b + f.off then fset (d.reg (b + f.off)) f n else d.reg a := by
  unfold Dev.setFld; rw [reg_setReg]

@[simp] theorem reg_raise (d : Dev) (b a : Nat) (f : Fld) :
    (d.raise b f).reg a = if a = b + f.off then fset (d.reg (b + f.off)) f 1 else d.reg a := reg_setFld d b a f 1

@[simp] theorem reg_drew (d : Dev) (a : Nat) : d.drew.reg a = d.reg a := rfl

/-- A field reads what was written to it, as far as it is wide. -/
theorem fld_setFld_same {d : Dev} {b : Nat} {f : Fld} {n : Nat} (h : f.fits) : (d.setFld b f n).fld b f = n % 2 ^ f.width := by
  unfold Dev.fld; rw [reg_setFld, if_pos rfl, fget_fset_same h]

/-- A bit that is raised reads 1. -/
theorem fld_raise_same {d : Dev} {b : Nat} {f : Fld} (h : f.fits) (hw : 0 < f.width) : (d.raise b f).fld b f = 1 := by
  unfold Dev.raise; rw [fld_setFld_same h]
  exact Nat.mod_eq_of_lt (Nat.one_lt_two_pow (by omega))

/-- Another field of the same register keeps its value. -/
theorem fld_setFld_apart {d : Dev} {b : Nat} {f g : Fld} {n : Nat} (ho : g.off = f.off) (h : f.apart g) :
    (d.setFld b f n).fld b g = d.fld b g := by
  unfold Dev.fld; rw [reg_setFld, ho, if_pos rfl, fget_fset_apart h]

/-- A field of another register keeps its value. -/
theorem fld_setFld_other {d : Dev} {b c : Nat} {f g : Fld} {n : Nat} (h : c + g.off ≠ b + f.off) :
    (d.setFld b f n).fld c g = d.fld c g := by
  unfold Dev.fld; rw [reg_setFld, if_neg h]

theorem fld_setReg_other {d : Dev} {a c : Nat} {g : Fld} {v : Word} (h : c + g.off ≠ a) :
    (d.setReg a v).fld c g = d.fld c g := by
  unfold Dev.fld; rw [reg_setReg, if_neg h]

theorem fld_setReg_same {d : Dev} {b : Nat} {g : Fld} {v : Word} : (d.setReg (b + g.off) v).fld b g = fget v g := by
  unfold Dev.fld; rw [reg_setReg, if_pos rfl]

/-- A counter that saturates reads its sum, or its greatest value. -/
theorem fld_countBy_same {d : Dev} {b : Nat} {f : Fld} {k : Nat} (h : f.fits) :
    (d.countBy b f k).fld b f = satAdd (2 ^ f.width - 1) (d.fld b f) k := by
  unfold Dev.countBy; rw [fld_setFld_same h]
  apply Nat.mod_eq_of_lt
  have : 0 < 2 ^ f.width := Nat.two_pow_pos _
  unfold satAdd; split <;> omega

@[simp] theorem reg_countBy (d : Dev) (b a : Nat) (f : Fld) (k : Nat) :
    (d.countBy b f k).reg a =
      if a = b + f.off then fset (d.reg (b + f.off)) f (satAdd (2 ^ f.width - 1) (d.fld b f) k) else d.reg a := reg_setFld ..

@[simp] theorem reg_count (d : Dev) (b a : Nat) (f : Fld) :
    (d.count b f).reg a =
      if a = b + f.off then fset (d.reg (b + f.off)) f (satAdd (2 ^ f.width - 1) (d.fld b f) 1) else d.reg a := reg_setFld ..

/-- The register file keeps its canonical form. -/
theorem regs_wf_setReg {d : Dev} {a : Nat} {v : Word} (h : d.regs.wf resetValue) : (d.setReg a v).regs.wf resetValue :=
  SMap.wf_set a v h

theorem regs_wf_resetRegs {d : Dev} {p : Nat → Bool} (h : d.regs.wf resetValue) : (d.resetRegs p).regs.wf resetValue :=
  SMap.wf_filter _ h

/-- A register returned to reset reads its reset value; the others keep their words. -/
theorem reg_resetRegs (d : Dev) (p : Nat → Bool) (a : Nat) : (d.resetRegs p).reg a = if p a then resetValue a else d.reg a := by
  have key : ∀ l : List (Nat × Word), lookItem a (l.filter fun e => !p e.1) = if p a then none else lookItem a l := by
    intro l
    induction l with
    | nil => simp [lookItem]
    | cons e t ih =>
      obtain ⟨k, v⟩ := e
      by_cases hk : a = k
      · subst hk; by_cases hp : p a <;> simp [hp, lookItem, ih]
      · by_cases hp : p k <;> simp [hp, lookItem, hk, ih]
  simp only [Dev.reg, Dev.resetRegs, SMap.at, SMap.look, key]
  by_cases hp : p a <;> simp [hp]

end Sys2Proof.Machine
end

