-- ==== Sys2Proof/Laws/State.lean ====
section
/-!
SUPPORT. What each update of the machine leaves of its parts: one lemma for a part and an update, so that no proof unfolds an
update.
-/
namespace Sys2Proof.Machine

variable (d : Dev)

/-- Whether a machine is quiet hangs on Kryup, the clocks, the meets of base ports and IRQ_CTRL alone. -/
theorem quiet_congr {d e : Dev} (h1 : e.kryup = d.kryup) (h2 : e.clk = d.clk)
    (h3 : e.reg (rootBase + Reg.IRQ_CTRL.off) = d.reg (rootBase + Reg.IRQ_CTRL.off)) (h5 : e.stack.meets = d.stack.meets) :
    e.quiet = d.quiet := by
  have h4 : Reg.IRQ_CTRL.EVT_EN.off = Reg.IRQ_CTRL.off := rfl
  simp only [Dev.quiet, Dev.flag, Dev.fld, h1, h2, h4, h3, h5]

theorem onlyParts_refl (l : List Part) (d : Dev) : OnlyParts l d d := by intro p _; cases p <;> rfl

theorem OnlyParts.trans {l : List Part} {d e f : Dev} (h1 : OnlyParts l d e) (h2 : OnlyParts l e f) : OnlyParts l d f := by
  intro p hp
  have a := h1 p hp
  have b := h2 p hp
  cases p <;> simp only [Part.same] at a b ⊢ <;> exact b.trans a

theorem OnlyParts.mono {l m : List Part} {d e : Dev} (h : OnlyParts l d e) (hl : ∀ p ∈ l, p ∈ m) : OnlyParts m d e :=
  fun p hp => h p fun k => hp (hl p k)

theorem OnlyParts.symm {l : List Part} {d e : Dev} (h : OnlyParts l d e) : OnlyParts l e d := by
  intro p hp
  have a := h p hp
  cases p <;> simp only [Part.same] at a ⊢ <;> exact a.symm

@[simp] theorem onlyParts_self (l : List Part) (d : Dev) : OnlyParts l d d ↔ True := iff_true_intro (onlyParts_refl l d)

/-- An update of a listed part adds nothing. -/
theorem onlyParts_iff {l : List Part} {p : Part} {d e f : Dev} (h : OnlyParts [p] e f) (hp : p ∈ l) :
    OnlyParts l d f ↔ OnlyParts l d e :=
  have h' : OnlyParts l e f := h.mono fun q hq => by rw [List.mem_singleton] at hq; exact hq ▸ hp
  ⟨fun k => k.trans h'.symm, fun k => k.trans h'⟩

/-! `setReg` -/

@[simp] theorem setReg_free (a : Nat) (v : Word) : (d.setReg a v).free = d.free := rfl
@[simp] theorem setReg_units (a : Nat) (v : Word) : (d.setReg a v).units = d.units := rfl
@[simp] theorem setReg_ctl (a : Nat) (v : Word) : (d.setReg a v).ctl = d.ctl := rfl
@[simp] theorem setReg_stack (a : Nat) (v : Word) : (d.setReg a v).stack = d.stack := rfl
@[simp] theorem setReg_keeper (a : Nat) (v : Word) : (d.setReg a v).keeper = d.keeper := rfl
@[simp] theorem setReg_clk (a : Nat) (v : Word) : (d.setReg a v).clk = d.clk := rfl
@[simp] theorem setReg_ident (a : Nat) (v : Word) : (d.setReg a v).ident = d.ident := rfl
@[simp] theorem setReg_lanes (a : Nat) (v : Word) : (d.setReg a v).lanes = d.lanes := rfl
@[simp] theorem setReg_links (a : Nat) (v : Word) : (d.setReg a v).links = d.links := rfl
@[simp] theorem setReg_groups (a : Nat) (v : Word) : (d.setReg a v).groups = d.groups := rfl
@[simp] theorem setReg_fabric (a : Nat) (v : Word) : (d.setReg a v).fabric = d.fabric := rfl
@[simp] theorem setReg_plates (a : Nat) (v : Word) : (d.setReg a v).plates = d.plates := rfl
@[simp] theorem setReg_mem (a : Nat) (v : Word) : (d.setReg a v).mem = d.mem := rfl
@[simp] theorem setReg_rings (a : Nat) (v : Word) : (d.setReg a v).rings = d.rings := rfl
@[simp] theorem setReg_strike (a : Nat) (v : Word) : (d.setReg a v).strike = d.strike := rfl
@[simp] theorem setReg_ext (a : Nat) (v : Word) : (d.setReg a v).ext = d.ext := rfl
@[simp] theorem setReg_load (a : Nat) (v : Word) : (d.setReg a v).load = d.load := rfl
@[simp] theorem setReg_power (a : Nat) (v : Word) : (d.setReg a v).power = d.power := rfl
@[simp] theorem setReg_heat (a : Nat) (v : Word) : (d.setReg a v).heat = d.heat := rfl
@[simp] theorem setReg_kryup (a : Nat) (v : Word) : (d.setReg a v).kryup = d.kryup := rfl
@[simp] theorem setReg_test (a : Nat) (v : Word) : (d.setReg a v).test = d.test := rfl
@[simp] theorem setReg_proof (a : Nat) (v : Word) : (d.setReg a v).proof = d.proof := rfl
@[simp] theorem setReg_pins (a : Nat) (v : Word) : (d.setReg a v).pins = d.pins := rfl
theorem parts_setReg (a : Nat) (v : Word) : OnlyParts [.regs] d (d.setReg a v) := by intro p hp; cases p <;> first | rfl | exact absurd (by simp) hp
@[simp] theorem onlyParts_setReg (a : Nat) (v : Word) {l : List Part} {c : Dev} (h : Part.regs ∈ l) : OnlyParts l c (d.setReg a v) ↔ OnlyParts l c d := onlyParts_iff (parts_setReg d a v) h
@[simp] theorem quiet_setReg (a : Nat) (v : Word) (h : rootBase + Reg.IRQ_CTRL.off ≠ a) : (d.setReg a v).quiet = d.quiet :=
  quiet_congr rfl rfl (h5 := rfl) (by simp only [reg_setReg, if_neg h])

/-! `setFld` -/

@[simp] theorem setFld_free (b : Nat) (f : Fld) (n : Nat) : (d.setFld b f n).free = d.free := rfl
@[simp] theorem setFld_units (b : Nat) (f : Fld) (n : Nat) : (d.setFld b f n).units = d.units := rfl
@[simp] theorem setFld_ctl (b : Nat) (f : Fld) (n : Nat) : (d.setFld b f n).ctl = d.ctl := rfl
@[simp] theorem setFld_stack (b : Nat) (f : Fld) (n : Nat) : (d.setFld b f n).stack = d.stack := rfl
@[simp] theorem setFld_keeper (b : Nat) (f : Fld) (n : Nat) : (d.setFld b f n).keeper = d.keeper := rfl
@[simp] theorem setFld_clk (b : Nat) (f : Fld) (n : Nat) : (d.setFld b f n).clk = d.clk := rfl
@[simp] theorem setFld_ident (b : Nat) (f : Fld) (n : Nat) : (d.setFld b f n).ident = d.ident := rfl
@[simp] theorem setFld_lanes (b : Nat) (f : Fld) (n : Nat) : (d.setFld b f n).lanes = d.lanes := rfl
@[simp] theorem setFld_links (b : Nat) (f : Fld) (n : Nat) : (d.setFld b f n).links = d.links := rfl
@[simp] theorem setFld_groups (b : Nat) (f : Fld) (n : Nat) : (d.setFld b f n).groups = d.groups := rfl
@[simp] theorem setFld_fabric (b : Nat) (f : Fld) (n : Nat) : (d.setFld b f n).fabric = d.fabric := rfl
@[simp] theorem setFld_plates (b : Nat) (f : Fld) (n : Nat) : (d.setFld b f n).plates = d.plates := rfl
@[simp] theorem setFld_mem (b : Nat) (f : Fld) (n : Nat) : (d.setFld b f n).mem = d.mem := rfl
@[simp] theorem setFld_rings (b : Nat) (f : Fld) (n : Nat) : (d.setFld b f n).rings = d.rings := rfl
@[simp] theorem setFld_strike (b : Nat) (f : Fld) (n : Nat) : (d.setFld b f n).strike = d.strike := rfl
@[simp] theorem setFld_ext (b : Nat) (f : Fld) (n : Nat) : (d.setFld b f n).ext = d.ext := rfl
@[simp] theorem setFld_load (b : Nat) (f : Fld) (n : Nat) : (d.setFld b f n).load = d.load := rfl
@[simp] theorem setFld_power (b : Nat) (f : Fld) (n : Nat) : (d.setFld b f n).power = d.power := rfl
@[simp] theorem setFld_heat (b : Nat) (f : Fld) (n : Nat) : (d.setFld b f n).heat = d.heat := rfl
@[simp] theorem setFld_kryup (b : Nat) (f : Fld) (n : Nat) : (d.setFld b f n).kryup = d.kryup := rfl
@[simp] theorem setFld_test (b : Nat) (f : Fld) (n : Nat) : (d.setFld b f n).test = d.test := rfl
@[simp] theorem setFld_proof (b : Nat) (f : Fld) (n : Nat) : (d.setFld b f n).proof = d.proof := rfl
@[simp] theorem setFld_pins (b : Nat) (f : Fld) (n : Nat) : (d.setFld b f n).pins = d.pins := rfl
theorem parts_setFld (b : Nat) (f : Fld) (n : Nat) : OnlyParts [.regs] d (d.setFld b f n) := by intro p hp; cases p <;> first | rfl | exact absurd (by simp) hp
@[simp] theorem onlyParts_setFld (b : Nat) (f : Fld) (n : Nat) {l : List Part} {c : Dev} (h : Part.regs ∈ l) : OnlyParts l c (d.setFld b f n) ↔ OnlyParts l c d := onlyParts_iff (parts_setFld d b f n) h
@[simp] theorem quiet_setFld (b : Nat) (f : Fld) (n : Nat) (h : rootBase + Reg.IRQ_CTRL.off ≠ b + f.off) : (d.setFld b f n).quiet = d.quiet :=
  quiet_congr rfl rfl (h5 := rfl) (by simp only [reg_setFld, if_neg h])

/-! `raise` -/

@[simp] theorem raise_free (b : Nat) (f : Fld) : (d.raise b f).free = d.free := rfl
@[simp] theorem raise_units (b : Nat) (f : Fld) : (d.raise b f).units = d.units := rfl
@[simp] theorem raise_ctl (b : Nat) (f : Fld) : (d.raise b f).ctl = d.ctl := rfl
@[simp] theorem raise_stack (b : Nat) (f : Fld) : (d.raise b f).stack = d.stack := rfl
@[simp] theorem raise_keeper (b : Nat) (f : Fld) : (d.raise b f).keeper = d.keeper := rfl
@[simp] theorem raise_clk (b : Nat) (f : Fld) : (d.raise b f).clk = d.clk := rfl
@[simp] theorem raise_ident (b : Nat) (f : Fld) : (d.raise b f).ident = d.ident := rfl
@[simp] theorem raise_lanes (b : Nat) (f : Fld) : (d.raise b f).lanes = d.lanes := rfl
@[simp] theorem raise_links (b : Nat) (f : Fld) : (d.raise b f).links = d.links := rfl
@[simp] theorem raise_groups (b : Nat) (f : Fld) : (d.raise b f).groups = d.groups := rfl
@[simp] theorem raise_fabric (b : Nat) (f : Fld) : (d.raise b f).fabric = d.fabric := rfl
@[simp] theorem raise_plates (b : Nat) (f : Fld) : (d.raise b f).plates = d.plates := rfl
@[simp] theorem raise_mem (b : Nat) (f : Fld) : (d.raise b f).mem = d.mem := rfl
@[simp] theorem raise_rings (b : Nat) (f : Fld) : (d.raise b f).rings = d.rings := rfl
@[simp] theorem raise_strike (b : Nat) (f : Fld) : (d.raise b f).strike = d.strike := rfl
@[simp] theorem raise_ext (b : Nat) (f : Fld) : (d.raise b f).ext = d.ext := rfl
@[simp] theorem raise_load (b : Nat) (f : Fld) : (d.raise b f).load = d.load := rfl
@[simp] theorem raise_power (b : Nat) (f : Fld) : (d.raise b f).power = d.power := rfl
@[simp] theorem raise_heat (b : Nat) (f : Fld) : (d.raise b f).heat = d.heat := rfl
@[simp] theorem raise_kryup (b : Nat) (f : Fld) : (d.raise b f).kryup = d.kryup := rfl
@[simp] theorem raise_test (b : Nat) (f : Fld) : (d.raise b f).test = d.test := rfl
@[simp] theorem raise_proof (b : Nat) (f : Fld) : (d.raise b f).proof = d.proof := rfl
@[simp] theorem raise_pins (b : Nat) (f : Fld) : (d.raise b f).pins = d.pins := rfl
theorem parts_raise (b : Nat) (f : Fld) : OnlyParts [.regs] d (d.raise b f) := by intro p hp; cases p <;> first | rfl | exact absurd (by simp) hp
@[simp] theorem onlyParts_raise (b : Nat) (f : Fld) {l : List Part} {c : Dev} (h : Part.regs ∈ l) : OnlyParts l c (d.raise b f) ↔ OnlyParts l c d := onlyParts_iff (parts_raise d b f) h
@[simp] theorem quiet_raise (b : Nat) (f : Fld) (h : rootBase + Reg.IRQ_CTRL.off ≠ b + f.off) : (d.raise b f).quiet = d.quiet :=
  quiet_congr rfl rfl (h5 := rfl) (by simp only [reg_raise, if_neg h])

/-! `countBy` -/

@[simp] theorem countBy_free (b : Nat) (f : Fld) (k : Nat) : (d.countBy b f k).free = d.free := rfl
@[simp] theorem countBy_units (b : Nat) (f : Fld) (k : Nat) : (d.countBy b f k).units = d.units := rfl
@[simp] theorem countBy_ctl (b : Nat) (f : Fld) (k : Nat) : (d.countBy b f k).ctl = d.ctl := rfl
@[simp] theorem countBy_stack (b : Nat) (f : Fld) (k : Nat) : (d.countBy b f k).stack = d.stack := rfl
@[simp] theorem countBy_keeper (b : Nat) (f : Fld) (k : Nat) : (d.countBy b f k).keeper = d.keeper := rfl
@[simp] theorem countBy_clk (b : Nat) (f : Fld) (k : Nat) : (d.countBy b f k).clk = d.clk := rfl
@[simp] theorem countBy_ident (b : Nat) (f : Fld) (k : Nat) : (d.countBy b f k).ident = d.ident := rfl
@[simp] theorem countBy_lanes (b : Nat) (f : Fld) (k : Nat) : (d.countBy b f k).lanes = d.lanes := rfl
@[simp] theorem countBy_links (b : Nat) (f : Fld) (k : Nat) : (d.countBy b f k).links = d.links := rfl
@[simp] theorem countBy_groups (b : Nat) (f : Fld) (k : Nat) : (d.countBy b f k).groups = d.groups := rfl
@[simp] theorem countBy_fabric (b : Nat) (f : Fld) (k : Nat) : (d.countBy b f k).fabric = d.fabric := rfl
@[simp] theorem countBy_plates (b : Nat) (f : Fld) (k : Nat) : (d.countBy b f k).plates = d.plates := rfl
@[simp] theorem countBy_mem (b : Nat) (f : Fld) (k : Nat) : (d.countBy b f k).mem = d.mem := rfl
@[simp] theorem countBy_rings (b : Nat) (f : Fld) (k : Nat) : (d.countBy b f k).rings = d.rings := rfl
@[simp] theorem countBy_strike (b : Nat) (f : Fld) (k : Nat) : (d.countBy b f k).strike = d.strike := rfl
@[simp] theorem countBy_ext (b : Nat) (f : Fld) (k : Nat) : (d.countBy b f k).ext = d.ext := rfl
@[simp] theorem countBy_load (b : Nat) (f : Fld) (k : Nat) : (d.countBy b f k).load = d.load := rfl
@[simp] theorem countBy_power (b : Nat) (f : Fld) (k : Nat) : (d.countBy b f k).power = d.power := rfl
@[simp] theorem countBy_heat (b : Nat) (f : Fld) (k : Nat) : (d.countBy b f k).heat = d.heat := rfl
@[simp] theorem countBy_kryup (b : Nat) (f : Fld) (k : Nat) : (d.countBy b f k).kryup = d.kryup := rfl
@[simp] theorem countBy_test (b : Nat) (f : Fld) (k : Nat) : (d.countBy b f k).test = d.test := rfl
@[simp] theorem countBy_proof (b : Nat) (f : Fld) (k : Nat) : (d.countBy b f k).proof = d.proof := rfl
@[simp] theorem countBy_pins (b : Nat) (f : Fld) (k : Nat) : (d.countBy b f k).pins = d.pins := rfl
theorem parts_countBy (b : Nat) (f : Fld) (k : Nat) : OnlyParts [.regs] d (d.countBy b f k) := by intro p hp; cases p <;> first | rfl | exact absurd (by simp) hp
@[simp] theorem onlyParts_countBy (b : Nat) (f : Fld) (k : Nat) {l : List Part} {c : Dev} (h : Part.regs ∈ l) : OnlyParts l c (d.countBy b f k) ↔ OnlyParts l c d := onlyParts_iff (parts_countBy d b f k) h
@[simp] theorem quiet_countBy (b : Nat) (f : Fld) (k : Nat) (h : rootBase + Reg.IRQ_CTRL.off ≠ b + f.off) : (d.countBy b f k).quiet = d.quiet :=
  quiet_congr rfl rfl (h5 := rfl) (by simp only [reg_countBy, if_neg h])

/-! `count` -/

@[simp] theorem count_free (b : Nat) (f : Fld) : (d.count b f).free = d.free := rfl
@[simp] theorem count_units (b : Nat) (f : Fld) : (d.count b f).units = d.units := rfl
@[simp] theorem count_ctl (b : Nat) (f : Fld) : (d.count b f).ctl = d.ctl := rfl
@[simp] theorem count_stack (b : Nat) (f : Fld) : (d.count b f).stack = d.stack := rfl
@[simp] theorem count_keeper (b : Nat) (f : Fld) : (d.count b f).keeper = d.keeper := rfl
@[simp] theorem count_clk (b : Nat) (f : Fld) : (d.count b f).clk = d.clk := rfl
@[simp] theorem count_ident (b : Nat) (f : Fld) : (d.count b f).ident = d.ident := rfl
@[simp] theorem count_lanes (b : Nat) (f : Fld) : (d.count b f).lanes = d.lanes := rfl
@[simp] theorem count_links (b : Nat) (f : Fld) : (d.count b f).links = d.links := rfl
@[simp] theorem count_groups (b : Nat) (f : Fld) : (d.count b f).groups = d.groups := rfl
@[simp] theorem count_fabric (b : Nat) (f : Fld) : (d.count b f).fabric = d.fabric := rfl
@[simp] theorem count_plates (b : Nat) (f : Fld) : (d.count b f).plates = d.plates := rfl
@[simp] theorem count_mem (b : Nat) (f : Fld) : (d.count b f).mem = d.mem := rfl
@[simp] theorem count_rings (b : Nat) (f : Fld) : (d.count b f).rings = d.rings := rfl
@[simp] theorem count_strike (b : Nat) (f : Fld) : (d.count b f).strike = d.strike := rfl
@[simp] theorem count_ext (b : Nat) (f : Fld) : (d.count b f).ext = d.ext := rfl
@[simp] theorem count_load (b : Nat) (f : Fld) : (d.count b f).load = d.load := rfl
@[simp] theorem count_power (b : Nat) (f : Fld) : (d.count b f).power = d.power := rfl
@[simp] theorem count_heat (b : Nat) (f : Fld) : (d.count b f).heat = d.heat := rfl
@[simp] theorem count_kryup (b : Nat) (f : Fld) : (d.count b f).kryup = d.kryup := rfl
@[simp] theorem count_test (b : Nat) (f : Fld) : (d.count b f).test = d.test := rfl
@[simp] theorem count_proof (b : Nat) (f : Fld) : (d.count b f).proof = d.proof := rfl
@[simp] theorem count_pins (b : Nat) (f : Fld) : (d.count b f).pins = d.pins := rfl
theorem parts_count (b : Nat) (f : Fld) : OnlyParts [.regs] d (d.count b f) := by intro p hp; cases p <;> first | rfl | exact absurd (by simp) hp
@[simp] theorem onlyParts_count (b : Nat) (f : Fld) {l : List Part} {c : Dev} (h : Part.regs ∈ l) : OnlyParts l c (d.count b f) ↔ OnlyParts l c d := onlyParts_iff (parts_count d b f) h
@[simp] theorem quiet_count (b : Nat) (f : Fld) (h : rootBase + Reg.IRQ_CTRL.off ≠ b + f.off) : (d.count b f).quiet = d.quiet :=
  quiet_congr rfl rfl (h5 := rfl) (by simp only [reg_count, if_neg h])

/-! `faultBits` -/

@[simp] theorem faultBits_free (b m : Nat) : (d.faultBits b m).free = d.free := rfl
@[simp] theorem faultBits_units (b m : Nat) : (d.faultBits b m).units = d.units := rfl
@[simp] theorem faultBits_ctl (b m : Nat) : (d.faultBits b m).ctl = d.ctl := rfl
@[simp] theorem faultBits_stack (b m : Nat) : (d.faultBits b m).stack = d.stack := rfl
@[simp] theorem faultBits_keeper (b m : Nat) : (d.faultBits b m).keeper = d.keeper := rfl
@[simp] theorem faultBits_clk (b m : Nat) : (d.faultBits b m).clk = d.clk := rfl
@[simp] theorem faultBits_ident (b m : Nat) : (d.faultBits b m).ident = d.ident := rfl
@[simp] theorem faultBits_lanes (b m : Nat) : (d.faultBits b m).lanes = d.lanes := rfl
@[simp] theorem faultBits_links (b m : Nat) : (d.faultBits b m).links = d.links := rfl
@[simp] theorem faultBits_groups (b m : Nat) : (d.faultBits b m).groups = d.groups := rfl
@[simp] theorem faultBits_fabric (b m : Nat) : (d.faultBits b m).fabric = d.fabric := rfl
@[simp] theorem faultBits_plates (b m : Nat) : (d.faultBits b m).plates = d.plates := rfl
@[simp] theorem faultBits_mem (b m : Nat) : (d.faultBits b m).mem = d.mem := rfl
@[simp] theorem faultBits_rings (b m : Nat) : (d.faultBits b m).rings = d.rings := rfl
@[simp] theorem faultBits_strike (b m : Nat) : (d.faultBits b m).strike = d.strike := rfl
@[simp] theorem faultBits_ext (b m : Nat) : (d.faultBits b m).ext = d.ext := rfl
@[simp] theorem faultBits_load (b m : Nat) : (d.faultBits b m).load = d.load := rfl
@[simp] theorem faultBits_power (b m : Nat) : (d.faultBits b m).power = d.power := rfl
@[simp] theorem faultBits_heat (b m : Nat) : (d.faultBits b m).heat = d.heat := rfl
@[simp] theorem faultBits_kryup (b m : Nat) : (d.faultBits b m).kryup = d.kryup := rfl
@[simp] theorem faultBits_test (b m : Nat) : (d.faultBits b m).test = d.test := rfl
@[simp] theorem faultBits_proof (b m : Nat) : (d.faultBits b m).proof = d.proof := rfl
@[simp] theorem faultBits_pins (b m : Nat) : (d.faultBits b m).pins = d.pins := rfl
theorem parts_faultBits (b m : Nat) : OnlyParts [.regs] d (d.faultBits b m) := by intro p hp; cases p <;> first | rfl | exact absurd (by simp) hp
@[simp] theorem onlyParts_faultBits (b m : Nat) {l : List Part} {c : Dev} (h : Part.regs ∈ l) : OnlyParts l c (d.faultBits b m) ↔ OnlyParts l c d := onlyParts_iff (parts_faultBits d b m) h
@[simp] theorem quiet_faultBits (b m : Nat) (h : rootBase + Reg.IRQ_CTRL.off ≠ b + Reg.FAULT.START_FAIL.off) (h' : rootBase + Reg.IRQ_CTRL.off ≠ b + Reg.EVENT.FAULT.off) :
    (d.faultBits b m).quiet = d.quiet := by
  unfold Dev.faultBits; rw [quiet_raise _ _ _ h', quiet_setReg _ _ _ h]

/-! `eventBits` -/

@[simp] theorem eventBits_free (b m : Nat) : (d.eventBits b m).free = d.free := rfl
@[simp] theorem eventBits_units (b m : Nat) : (d.eventBits b m).units = d.units := rfl
@[simp] theorem eventBits_ctl (b m : Nat) : (d.eventBits b m).ctl = d.ctl := rfl
@[simp] theorem eventBits_stack (b m : Nat) : (d.eventBits b m).stack = d.stack := rfl
@[simp] theorem eventBits_keeper (b m : Nat) : (d.eventBits b m).keeper = d.keeper := rfl
@[simp] theorem eventBits_clk (b m : Nat) : (d.eventBits b m).clk = d.clk := rfl
@[simp] theorem eventBits_ident (b m : Nat) : (d.eventBits b m).ident = d.ident := rfl
@[simp] theorem eventBits_lanes (b m : Nat) : (d.eventBits b m).lanes = d.lanes := rfl
@[simp] theorem eventBits_links (b m : Nat) : (d.eventBits b m).links = d.links := rfl
@[simp] theorem eventBits_groups (b m : Nat) : (d.eventBits b m).groups = d.groups := rfl
@[simp] theorem eventBits_fabric (b m : Nat) : (d.eventBits b m).fabric = d.fabric := rfl
@[simp] theorem eventBits_plates (b m : Nat) : (d.eventBits b m).plates = d.plates := rfl
@[simp] theorem eventBits_mem (b m : Nat) : (d.eventBits b m).mem = d.mem := rfl
@[simp] theorem eventBits_rings (b m : Nat) : (d.eventBits b m).rings = d.rings := rfl
@[simp] theorem eventBits_strike (b m : Nat) : (d.eventBits b m).strike = d.strike := rfl
@[simp] theorem eventBits_ext (b m : Nat) : (d.eventBits b m).ext = d.ext := rfl
@[simp] theorem eventBits_load (b m : Nat) : (d.eventBits b m).load = d.load := rfl
@[simp] theorem eventBits_power (b m : Nat) : (d.eventBits b m).power = d.power := rfl
@[simp] theorem eventBits_heat (b m : Nat) : (d.eventBits b m).heat = d.heat := rfl
@[simp] theorem eventBits_kryup (b m : Nat) : (d.eventBits b m).kryup = d.kryup := rfl
@[simp] theorem eventBits_test (b m : Nat) : (d.eventBits b m).test = d.test := rfl
@[simp] theorem eventBits_proof (b m : Nat) : (d.eventBits b m).proof = d.proof := rfl
@[simp] theorem eventBits_pins (b m : Nat) : (d.eventBits b m).pins = d.pins := rfl
theorem parts_eventBits (b m : Nat) : OnlyParts [.regs] d (d.eventBits b m) := by intro p hp; cases p <;> first | rfl | exact absurd (by simp) hp
@[simp] theorem onlyParts_eventBits (b m : Nat) {l : List Part} {c : Dev} (h : Part.regs ∈ l) : OnlyParts l c (d.eventBits b m) ↔ OnlyParts l c d := onlyParts_iff (parts_eventBits d b m) h
@[simp] theorem quiet_eventBits (b m : Nat) (h : rootBase + Reg.IRQ_CTRL.off ≠ b + Reg.EVENT.FAULT.off) : (d.eventBits b m).quiet = d.quiet :=
  quiet_setReg _ _ _ h

/-! `ctrlReject` -/

@[simp] theorem ctrlReject_free (b : Nat) : (d.ctrlReject b).free = d.free := rfl
@[simp] theorem ctrlReject_units (b : Nat) : (d.ctrlReject b).units = d.units := rfl
@[simp] theorem ctrlReject_ctl (b : Nat) : (d.ctrlReject b).ctl = d.ctl := rfl
@[simp] theorem ctrlReject_stack (b : Nat) : (d.ctrlReject b).stack = d.stack := rfl
@[simp] theorem ctrlReject_keeper (b : Nat) : (d.ctrlReject b).keeper = d.keeper := rfl
@[simp] theorem ctrlReject_clk (b : Nat) : (d.ctrlReject b).clk = d.clk := rfl
@[simp] theorem ctrlReject_ident (b : Nat) : (d.ctrlReject b).ident = d.ident := rfl
@[simp] theorem ctrlReject_lanes (b : Nat) : (d.ctrlReject b).lanes = d.lanes := rfl
@[simp] theorem ctrlReject_links (b : Nat) : (d.ctrlReject b).links = d.links := rfl
@[simp] theorem ctrlReject_groups (b : Nat) : (d.ctrlReject b).groups = d.groups := rfl
@[simp] theorem ctrlReject_fabric (b : Nat) : (d.ctrlReject b).fabric = d.fabric := rfl
@[simp] theorem ctrlReject_plates (b : Nat) : (d.ctrlReject b).plates = d.plates := rfl
@[simp] theorem ctrlReject_mem (b : Nat) : (d.ctrlReject b).mem = d.mem := rfl
@[simp] theorem ctrlReject_rings (b : Nat) : (d.ctrlReject b).rings = d.rings := rfl
@[simp] theorem ctrlReject_strike (b : Nat) : (d.ctrlReject b).strike = d.strike := rfl
@[simp] theorem ctrlReject_ext (b : Nat) : (d.ctrlReject b).ext = d.ext := rfl
@[simp] theorem ctrlReject_load (b : Nat) : (d.ctrlReject b).load = d.load := rfl
@[simp] theorem ctrlReject_power (b : Nat) : (d.ctrlReject b).power = d.power := rfl
@[simp] theorem ctrlReject_heat (b : Nat) : (d.ctrlReject b).heat = d.heat := rfl
@[simp] theorem ctrlReject_kryup (b : Nat) : (d.ctrlReject b).kryup = d.kryup := rfl
@[simp] theorem ctrlReject_test (b : Nat) : (d.ctrlReject b).test = d.test := rfl
@[simp] theorem ctrlReject_proof (b : Nat) : (d.ctrlReject b).proof = d.proof := rfl
@[simp] theorem ctrlReject_pins (b : Nat) : (d.ctrlReject b).pins = d.pins := rfl
theorem parts_ctrlReject (b : Nat) : OnlyParts [.regs] d (d.ctrlReject b) := by intro p hp; cases p <;> first | rfl | exact absurd (by simp) hp
@[simp] theorem onlyParts_ctrlReject (b : Nat) {l : List Part} {c : Dev} (h : Part.regs ∈ l) : OnlyParts l c (d.ctrlReject b) ↔ OnlyParts l c d := onlyParts_iff (parts_ctrlReject d b) h
@[simp] theorem quiet_ctrlReject (b : Nat) (h : rootBase + Reg.IRQ_CTRL.off ≠ b + Reg.EVENT.CTRL_REJECT.off) : (d.ctrlReject b).quiet = d.quiet :=
  quiet_raise _ _ _ h

/-! `resetRegs` -/

@[simp] theorem resetRegs_free (p : Nat → Bool) : (d.resetRegs p).free = d.free := rfl
@[simp] theorem resetRegs_units (p : Nat → Bool) : (d.resetRegs p).units = d.units := rfl
@[simp] theorem resetRegs_ctl (p : Nat → Bool) : (d.resetRegs p).ctl = d.ctl := rfl
@[simp] theorem resetRegs_stack (p : Nat → Bool) : (d.resetRegs p).stack = d.stack := rfl
@[simp] theorem resetRegs_keeper (p : Nat → Bool) : (d.resetRegs p).keeper = d.keeper := rfl
@[simp] theorem resetRegs_clk (p : Nat → Bool) : (d.resetRegs p).clk = d.clk := rfl
@[simp] theorem resetRegs_ident (p : Nat → Bool) : (d.resetRegs p).ident = d.ident := rfl
@[simp] theorem resetRegs_lanes (p : Nat → Bool) : (d.resetRegs p).lanes = d.lanes := rfl
@[simp] theorem resetRegs_links (p : Nat → Bool) : (d.resetRegs p).links = d.links := rfl
@[simp] theorem resetRegs_groups (p : Nat → Bool) : (d.resetRegs p).groups = d.groups := rfl
@[simp] theorem resetRegs_fabric (p : Nat → Bool) : (d.resetRegs p).fabric = d.fabric := rfl
@[simp] theorem resetRegs_plates (p : Nat → Bool) : (d.resetRegs p).plates = d.plates := rfl
@[simp] theorem resetRegs_mem (p : Nat → Bool) : (d.resetRegs p).mem = d.mem := rfl
@[simp] theorem resetRegs_rings (p : Nat → Bool) : (d.resetRegs p).rings = d.rings := rfl
@[simp] theorem resetRegs_strike (p : Nat → Bool) : (d.resetRegs p).strike = d.strike := rfl
@[simp] theorem resetRegs_ext (p : Nat → Bool) : (d.resetRegs p).ext = d.ext := rfl
@[simp] theorem resetRegs_load (p : Nat → Bool) : (d.resetRegs p).load = d.load := rfl
@[simp] theorem resetRegs_power (p : Nat → Bool) : (d.resetRegs p).power = d.power := rfl
@[simp] theorem resetRegs_heat (p : Nat → Bool) : (d.resetRegs p).heat = d.heat := rfl
@[simp] theorem resetRegs_kryup (p : Nat → Bool) : (d.resetRegs p).kryup = d.kryup := rfl
@[simp] theorem resetRegs_test (p : Nat → Bool) : (d.resetRegs p).test = d.test := rfl
@[simp] theorem resetRegs_proof (p : Nat → Bool) : (d.resetRegs p).proof = d.proof := rfl
@[simp] theorem resetRegs_pins (p : Nat → Bool) : (d.resetRegs p).pins = d.pins := rfl
theorem parts_resetRegs (p : Nat → Bool) : OnlyParts [.regs] d (d.resetRegs p) := by intro p hp; cases p <;> first | rfl | exact absurd (by simp) hp
@[simp] theorem onlyParts_resetRegs (p : Nat → Bool) {l : List Part} {c : Dev} (h : Part.regs ∈ l) : OnlyParts l c (d.resetRegs p) ↔ OnlyParts l c d := onlyParts_iff (parts_resetRegs d p) h
theorem quiet_resetRegs (p : Nat → Bool) (h : d.quiet) : (d.resetRegs p).quiet := by
  have hr : (d.resetRegs p).flag rootBase Reg.IRQ_CTRL.EVT_EN = (!p (rootBase + Reg.IRQ_CTRL.off) && d.flag rootBase Reg.IRQ_CTRL.EVT_EN) := by
    simp only [Dev.flag, Dev.fld, reg_resetRegs]
    have : Reg.IRQ_CTRL.EVT_EN.off = Reg.IRQ_CTRL.off := rfl
    rw [this]
    by_cases hp : p (rootBase + Reg.IRQ_CTRL.off) = true
    · simp [hp]; decide
    · simp [hp]
  simp only [Dev.quiet, hr, Bool.and_eq_true, Bool.not_eq_true'] at h ⊢
  simp_all

/-! `drew` -/

@[simp] theorem drew_regs : (d.drew).regs = d.regs := rfl
@[simp] theorem drew_units : (d.drew).units = d.units := rfl
@[simp] theorem drew_ctl : (d.drew).ctl = d.ctl := rfl
@[simp] theorem drew_stack : (d.drew).stack = d.stack := rfl
@[simp] theorem drew_keeper : (d.drew).keeper = d.keeper := rfl
@[simp] theorem drew_clk : (d.drew).clk = d.clk := rfl
@[simp] theorem drew_ident : (d.drew).ident = d.ident := rfl
@[simp] theorem drew_lanes : (d.drew).lanes = d.lanes := rfl
@[simp] theorem drew_links : (d.drew).links = d.links := rfl
@[simp] theorem drew_groups : (d.drew).groups = d.groups := rfl
@[simp] theorem drew_fabric : (d.drew).fabric = d.fabric := rfl
@[simp] theorem drew_plates : (d.drew).plates = d.plates := rfl
@[simp] theorem drew_mem : (d.drew).mem = d.mem := rfl
@[simp] theorem drew_rings : (d.drew).rings = d.rings := rfl
@[simp] theorem drew_strike : (d.drew).strike = d.strike := rfl
@[simp] theorem drew_ext : (d.drew).ext = d.ext := rfl
@[simp] theorem drew_load : (d.drew).load = d.load := rfl
@[simp] theorem drew_power : (d.drew).power = d.power := rfl
@[simp] theorem drew_heat : (d.drew).heat = d.heat := rfl
@[simp] theorem drew_kryup : (d.drew).kryup = d.kryup := rfl
@[simp] theorem drew_test : (d.drew).test = d.test := rfl
@[simp] theorem drew_proof : (d.drew).proof = d.proof := rfl
@[simp] theorem drew_pins : (d.drew).pins = d.pins := rfl
theorem parts_drew : OnlyParts [.free] d (d.drew) := by intro p hp; cases p <;> first | rfl | exact absurd (by simp) hp
@[simp] theorem onlyParts_drew {l : List Part} {c : Dev} (h : Part.free ∈ l) : OnlyParts l c (d.drew) ↔ OnlyParts l c d := onlyParts_iff (parts_drew d ) h
@[simp] theorem quiet_drew : (d.drew).quiet = d.quiet := rfl

/-! `modLane` -/

@[simp] theorem modLane_free (n : Nat) (f : LaneRec → LaneRec) : (d.modLane n f).free = d.free := rfl
@[simp] theorem modLane_regs (n : Nat) (f : LaneRec → LaneRec) : (d.modLane n f).regs = d.regs := rfl
@[simp] theorem modLane_units (n : Nat) (f : LaneRec → LaneRec) : (d.modLane n f).units = d.units := rfl
@[simp] theorem modLane_ctl (n : Nat) (f : LaneRec → LaneRec) : (d.modLane n f).ctl = d.ctl := rfl
@[simp] theorem modLane_stack (n : Nat) (f : LaneRec → LaneRec) : (d.modLane n f).stack = d.stack := rfl
@[simp] theorem modLane_keeper (n : Nat) (f : LaneRec → LaneRec) : (d.modLane n f).keeper = d.keeper := rfl
@[simp] theorem modLane_clk (n : Nat) (f : LaneRec → LaneRec) : (d.modLane n f).clk = d.clk := rfl
@[simp] theorem modLane_ident (n : Nat) (f : LaneRec → LaneRec) : (d.modLane n f).ident = d.ident := rfl
@[simp] theorem modLane_links (n : Nat) (f : LaneRec → LaneRec) : (d.modLane n f).links = d.links := rfl
@[simp] theorem modLane_groups (n : Nat) (f : LaneRec → LaneRec) : (d.modLane n f).groups = d.groups := rfl
@[simp] theorem modLane_fabric (n : Nat) (f : LaneRec → LaneRec) : (d.modLane n f).fabric = d.fabric := rfl
@[simp] theorem modLane_plates (n : Nat) (f : LaneRec → LaneRec) : (d.modLane n f).plates = d.plates := rfl
@[simp] theorem modLane_mem (n : Nat) (f : LaneRec → LaneRec) : (d.modLane n f).mem = d.mem := rfl
@[simp] theorem modLane_rings (n : Nat) (f : LaneRec → LaneRec) : (d.modLane n f).rings = d.rings := rfl
@[simp] theorem modLane_strike (n : Nat) (f : LaneRec → LaneRec) : (d.modLane n f).strike = d.strike := rfl
@[simp] theorem modLane_ext (n : Nat) (f : LaneRec → LaneRec) : (d.modLane n f).ext = d.ext := rfl
@[simp] theorem modLane_load (n : Nat) (f : LaneRec → LaneRec) : (d.modLane n f).load = d.load := rfl
@[simp] theorem modLane_power (n : Nat) (f : LaneRec → LaneRec) : (d.modLane n f).power = d.power := rfl
@[simp] theorem modLane_heat (n : Nat) (f : LaneRec → LaneRec) : (d.modLane n f).heat = d.heat := rfl
@[simp] theorem modLane_kryup (n : Nat) (f : LaneRec → LaneRec) : (d.modLane n f).kryup = d.kryup := rfl
@[simp] theorem modLane_test (n : Nat) (f : LaneRec → LaneRec) : (d.modLane n f).test = d.test := rfl
@[simp] theorem modLane_proof (n : Nat) (f : LaneRec → LaneRec) : (d.modLane n f).proof = d.proof := rfl
@[simp] theorem modLane_pins (n : Nat) (f : LaneRec → LaneRec) : (d.modLane n f).pins = d.pins := rfl
@[simp] theorem reg_modLane (n : Nat) (f : LaneRec → LaneRec) (i : Nat) : (d.modLane n f).reg i = d.reg i := rfl
@[simp] theorem ust_modLane (n : Nat) (f : LaneRec → LaneRec) (u : Nat) : (d.modLane n f).ust u = d.ust u := rfl
@[simp] theorem fld_modLane (n : Nat) (f : LaneRec → LaneRec) (u : Nat) (x : Fld) : (d.modLane n f).fld u x = d.fld u x := rfl
theorem parts_modLane (n : Nat) (f : LaneRec → LaneRec) : OnlyParts [.lanes] d (d.modLane n f) := by intro p hp; cases p <;> first | rfl | exact absurd (by simp) hp
@[simp] theorem onlyParts_modLane (n : Nat) (f : LaneRec → LaneRec) {l : List Part} {c : Dev} (h : Part.lanes ∈ l) : OnlyParts l c (d.modLane n f) ↔ OnlyParts l c d := onlyParts_iff (parts_modLane d n f) h
@[simp] theorem quiet_modLane (n : Nat) (f : LaneRec → LaneRec) : (d.modLane n f).quiet = d.quiet := rfl

/-! `modLink` -/

@[simp] theorem modLink_free (n : Nat) (f : LinkRec → LinkRec) : (d.modLink n f).free = d.free := rfl
@[simp] theorem modLink_regs (n : Nat) (f : LinkRec → LinkRec) : (d.modLink n f).regs = d.regs := rfl
@[simp] theorem modLink_units (n : Nat) (f : LinkRec → LinkRec) : (d.modLink n f).units = d.units := rfl
@[simp] theorem modLink_ctl (n : Nat) (f : LinkRec → LinkRec) : (d.modLink n f).ctl = d.ctl := rfl
@[simp] theorem modLink_stack (n : Nat) (f : LinkRec → LinkRec) : (d.modLink n f).stack = d.stack := rfl
@[simp] theorem modLink_keeper (n : Nat) (f : LinkRec → LinkRec) : (d.modLink n f).keeper = d.keeper := rfl
@[simp] theorem modLink_clk (n : Nat) (f : LinkRec → LinkRec) : (d.modLink n f).clk = d.clk := rfl
@[simp] theorem modLink_ident (n : Nat) (f : LinkRec → LinkRec) : (d.modLink n f).ident = d.ident := rfl
@[simp] theorem modLink_lanes (n : Nat) (f : LinkRec → LinkRec) : (d.modLink n f).lanes = d.lanes := rfl
@[simp] theorem modLink_groups (n : Nat) (f : LinkRec → LinkRec) : (d.modLink n f).groups = d.groups := rfl
@[simp] theorem modLink_fabric (n : Nat) (f : LinkRec → LinkRec) : (d.modLink n f).fabric = d.fabric := rfl
@[simp] theorem modLink_plates (n : Nat) (f : LinkRec → LinkRec) : (d.modLink n f).plates = d.plates := rfl
@[simp] theorem modLink_mem (n : Nat) (f : LinkRec → LinkRec) : (d.modLink n f).mem = d.mem := rfl
@[simp] theorem modLink_rings (n : Nat) (f : LinkRec → LinkRec) : (d.modLink n f).rings = d.rings := rfl
@[simp] theorem modLink_strike (n : Nat) (f : LinkRec → LinkRec) : (d.modLink n f).strike = d.strike := rfl
@[simp] theorem modLink_ext (n : Nat) (f : LinkRec → LinkRec) : (d.modLink n f).ext = d.ext := rfl
@[simp] theorem modLink_load (n : Nat) (f : LinkRec → LinkRec) : (d.modLink n f).load = d.load := rfl
@[simp] theorem modLink_power (n : Nat) (f : LinkRec → LinkRec) : (d.modLink n f).power = d.power := rfl
@[simp] theorem modLink_heat (n : Nat) (f : LinkRec → LinkRec) : (d.modLink n f).heat = d.heat := rfl
@[simp] theorem modLink_kryup (n : Nat) (f : LinkRec → LinkRec) : (d.modLink n f).kryup = d.kryup := rfl
@[simp] theorem modLink_test (n : Nat) (f : LinkRec → LinkRec) : (d.modLink n f).test = d.test := rfl
@[simp] theorem modLink_proof (n : Nat) (f : LinkRec → LinkRec) : (d.modLink n f).proof = d.proof := rfl
@[simp] theorem modLink_pins (n : Nat) (f : LinkRec → LinkRec) : (d.modLink n f).pins = d.pins := rfl
@[simp] theorem reg_modLink (n : Nat) (f : LinkRec → LinkRec) (i : Nat) : (d.modLink n f).reg i = d.reg i := rfl
@[simp] theorem ust_modLink (n : Nat) (f : LinkRec → LinkRec) (u : Nat) : (d.modLink n f).ust u = d.ust u := rfl
@[simp] theorem fld_modLink (n : Nat) (f : LinkRec → LinkRec) (u : Nat) (x : Fld) : (d.modLink n f).fld u x = d.fld u x := rfl
theorem parts_modLink (n : Nat) (f : LinkRec → LinkRec) : OnlyParts [.links] d (d.modLink n f) := by intro p hp; cases p <;> first | rfl | exact absurd (by simp) hp
@[simp] theorem onlyParts_modLink (n : Nat) (f : LinkRec → LinkRec) {l : List Part} {c : Dev} (h : Part.links ∈ l) : OnlyParts l c (d.modLink n f) ↔ OnlyParts l c d := onlyParts_iff (parts_modLink d n f) h
@[simp] theorem quiet_modLink (n : Nat) (f : LinkRec → LinkRec) : (d.modLink n f).quiet = d.quiet := rfl

/-! `modGroup` -/

@[simp] theorem modGroup_free (n : Nat) (f : GroupRec → GroupRec) : (d.modGroup n f).free = d.free := rfl
@[simp] theorem modGroup_regs (n : Nat) (f : GroupRec → GroupRec) : (d.modGroup n f).regs = d.regs := rfl
@[simp] theorem modGroup_units (n : Nat) (f : GroupRec → GroupRec) : (d.modGroup n f).units = d.units := rfl
@[simp] theorem modGroup_ctl (n : Nat) (f : GroupRec → GroupRec) : (d.modGroup n f).ctl = d.ctl := rfl
@[simp] theorem modGroup_stack (n : Nat) (f : GroupRec → GroupRec) : (d.modGroup n f).stack = d.stack := rfl
@[simp] theorem modGroup_keeper (n : Nat) (f : GroupRec → GroupRec) : (d.modGroup n f).keeper = d.keeper := rfl
@[simp] theorem modGroup_clk (n : Nat) (f : GroupRec → GroupRec) : (d.modGroup n f).clk = d.clk := rfl
@[simp] theorem modGroup_ident (n : Nat) (f : GroupRec → GroupRec) : (d.modGroup n f).ident = d.ident := rfl
@[simp] theorem modGroup_lanes (n : Nat) (f : GroupRec → GroupRec) : (d.modGroup n f).lanes = d.lanes := rfl
@[simp] theorem modGroup_links (n : Nat) (f : GroupRec → GroupRec) : (d.modGroup n f).links = d.links := rfl
@[simp] theorem modGroup_fabric (n : Nat) (f : GroupRec → GroupRec) : (d.modGroup n f).fabric = d.fabric := rfl
@[simp] theorem modGroup_plates (n : Nat) (f : GroupRec → GroupRec) : (d.modGroup n f).plates = d.plates := rfl
@[simp] theorem modGroup_mem (n : Nat) (f : GroupRec → GroupRec) : (d.modGroup n f).mem = d.mem := rfl
@[simp] theorem modGroup_rings (n : Nat) (f : GroupRec → GroupRec) : (d.modGroup n f).rings = d.rings := rfl
@[simp] theorem modGroup_strike (n : Nat) (f : GroupRec → GroupRec) : (d.modGroup n f).strike = d.strike := rfl
@[simp] theorem modGroup_ext (n : Nat) (f : GroupRec → GroupRec) : (d.modGroup n f).ext = d.ext := rfl
@[simp] theorem modGroup_load (n : Nat) (f : GroupRec → GroupRec) : (d.modGroup n f).load = d.load := rfl
@[simp] theorem modGroup_power (n : Nat) (f : GroupRec → GroupRec) : (d.modGroup n f).power = d.power := rfl
@[simp] theorem modGroup_heat (n : Nat) (f : GroupRec → GroupRec) : (d.modGroup n f).heat = d.heat := rfl
@[simp] theorem modGroup_kryup (n : Nat) (f : GroupRec → GroupRec) : (d.modGroup n f).kryup = d.kryup := rfl
@[simp] theorem modGroup_test (n : Nat) (f : GroupRec → GroupRec) : (d.modGroup n f).test = d.test := rfl
@[simp] theorem modGroup_proof (n : Nat) (f : GroupRec → GroupRec) : (d.modGroup n f).proof = d.proof := rfl
@[simp] theorem modGroup_pins (n : Nat) (f : GroupRec → GroupRec) : (d.modGroup n f).pins = d.pins := rfl
@[simp] theorem reg_modGroup (n : Nat) (f : GroupRec → GroupRec) (i : Nat) : (d.modGroup n f).reg i = d.reg i := rfl
@[simp] theorem ust_modGroup (n : Nat) (f : GroupRec → GroupRec) (u : Nat) : (d.modGroup n f).ust u = d.ust u := rfl
@[simp] theorem fld_modGroup (n : Nat) (f : GroupRec → GroupRec) (u : Nat) (x : Fld) : (d.modGroup n f).fld u x = d.fld u x := rfl
theorem parts_modGroup (n : Nat) (f : GroupRec → GroupRec) : OnlyParts [.groups] d (d.modGroup n f) := by intro p hp; cases p <;> first | rfl | exact absurd (by simp) hp
@[simp] theorem onlyParts_modGroup (n : Nat) (f : GroupRec → GroupRec) {l : List Part} {c : Dev} (h : Part.groups ∈ l) : OnlyParts l c (d.modGroup n f) ↔ OnlyParts l c d := onlyParts_iff (parts_modGroup d n f) h
@[simp] theorem quiet_modGroup (n : Nat) (f : GroupRec → GroupRec) : (d.modGroup n f).quiet = d.quiet := rfl

/-! `modEngine` -/

@[simp] theorem modEngine_free (n : Nat) (f : EngineRec → EngineRec) : (d.modEngine n f).free = d.free := rfl
@[simp] theorem modEngine_regs (n : Nat) (f : EngineRec → EngineRec) : (d.modEngine n f).regs = d.regs := rfl
@[simp] theorem modEngine_units (n : Nat) (f : EngineRec → EngineRec) : (d.modEngine n f).units = d.units := rfl
@[simp] theorem modEngine_ctl (n : Nat) (f : EngineRec → EngineRec) : (d.modEngine n f).ctl = d.ctl := rfl
@[simp] theorem modEngine_stack (n : Nat) (f : EngineRec → EngineRec) : (d.modEngine n f).stack = d.stack := rfl
@[simp] theorem modEngine_keeper (n : Nat) (f : EngineRec → EngineRec) : (d.modEngine n f).keeper = d.keeper := rfl
@[simp] theorem modEngine_clk (n : Nat) (f : EngineRec → EngineRec) : (d.modEngine n f).clk = d.clk := rfl
@[simp] theorem modEngine_ident (n : Nat) (f : EngineRec → EngineRec) : (d.modEngine n f).ident = d.ident := rfl
@[simp] theorem modEngine_lanes (n : Nat) (f : EngineRec → EngineRec) : (d.modEngine n f).lanes = d.lanes := rfl
@[simp] theorem modEngine_links (n : Nat) (f : EngineRec → EngineRec) : (d.modEngine n f).links = d.links := rfl
@[simp] theorem modEngine_groups (n : Nat) (f : EngineRec → EngineRec) : (d.modEngine n f).groups = d.groups := rfl
@[simp] theorem modEngine_fabric (n : Nat) (f : EngineRec → EngineRec) : (d.modEngine n f).fabric = d.fabric := rfl
@[simp] theorem modEngine_plates (n : Nat) (f : EngineRec → EngineRec) : (d.modEngine n f).plates = d.plates := rfl
@[simp] theorem modEngine_mem (n : Nat) (f : EngineRec → EngineRec) : (d.modEngine n f).mem = d.mem := rfl
@[simp] theorem modEngine_strike (n : Nat) (f : EngineRec → EngineRec) : (d.modEngine n f).strike = d.strike := rfl
@[simp] theorem modEngine_ext (n : Nat) (f : EngineRec → EngineRec) : (d.modEngine n f).ext = d.ext := rfl
@[simp] theorem modEngine_load (n : Nat) (f : EngineRec → EngineRec) : (d.modEngine n f).load = d.load := rfl
@[simp] theorem modEngine_power (n : Nat) (f : EngineRec → EngineRec) : (d.modEngine n f).power = d.power := rfl
@[simp] theorem modEngine_heat (n : Nat) (f : EngineRec → EngineRec) : (d.modEngine n f).heat = d.heat := rfl
@[simp] theorem modEngine_kryup (n : Nat) (f : EngineRec → EngineRec) : (d.modEngine n f).kryup = d.kryup := rfl
@[simp] theorem modEngine_test (n : Nat) (f : EngineRec → EngineRec) : (d.modEngine n f).test = d.test := rfl
@[simp] theorem modEngine_proof (n : Nat) (f : EngineRec → EngineRec) : (d.modEngine n f).proof = d.proof := rfl
@[simp] theorem modEngine_pins (n : Nat) (f : EngineRec → EngineRec) : (d.modEngine n f).pins = d.pins := rfl
@[simp] theorem reg_modEngine (n : Nat) (f : EngineRec → EngineRec) (i : Nat) : (d.modEngine n f).reg i = d.reg i := rfl
@[simp] theorem ust_modEngine (n : Nat) (f : EngineRec → EngineRec) (u : Nat) : (d.modEngine n f).ust u = d.ust u := rfl
@[simp] theorem fld_modEngine (n : Nat) (f : EngineRec → EngineRec) (u : Nat) (x : Fld) : (d.modEngine n f).fld u x = d.fld u x := rfl
theorem parts_modEngine (n : Nat) (f : EngineRec → EngineRec) : OnlyParts [.rings] d (d.modEngine n f) := by intro p hp; cases p <;> first | rfl | exact absurd (by simp) hp
@[simp] theorem onlyParts_modEngine (n : Nat) (f : EngineRec → EngineRec) {l : List Part} {c : Dev} (h : Part.rings ∈ l) : OnlyParts l c (d.modEngine n f) ↔ OnlyParts l c d := onlyParts_iff (parts_modEngine d n f) h
@[simp] theorem quiet_modEngine (n : Nat) (f : EngineRec → EngineRec) : (d.modEngine n f).quiet = d.quiet := rfl

/-! `modSerial` -/

@[simp] theorem modSerial_free (n : Nat) (f : SerialRec → SerialRec) : (d.modSerial n f).free = d.free := rfl
@[simp] theorem modSerial_regs (n : Nat) (f : SerialRec → SerialRec) : (d.modSerial n f).regs = d.regs := rfl
@[simp] theorem modSerial_units (n : Nat) (f : SerialRec → SerialRec) : (d.modSerial n f).units = d.units := rfl
@[simp] theorem modSerial_ctl (n : Nat) (f : SerialRec → SerialRec) : (d.modSerial n f).ctl = d.ctl := rfl
@[simp] theorem modSerial_stack (n : Nat) (f : SerialRec → SerialRec) : (d.modSerial n f).stack = d.stack := rfl
@[simp] theorem modSerial_keeper (n : Nat) (f : SerialRec → SerialRec) : (d.modSerial n f).keeper = d.keeper := rfl
@[simp] theorem modSerial_clk (n : Nat) (f : SerialRec → SerialRec) : (d.modSerial n f).clk = d.clk := rfl
@[simp] theorem modSerial_ident (n : Nat) (f : SerialRec → SerialRec) : (d.modSerial n f).ident = d.ident := rfl
@[simp] theorem modSerial_lanes (n : Nat) (f : SerialRec → SerialRec) : (d.modSerial n f).lanes = d.lanes := rfl
@[simp] theorem modSerial_links (n : Nat) (f : SerialRec → SerialRec) : (d.modSerial n f).links = d.links := rfl
@[simp] theorem modSerial_groups (n : Nat) (f : SerialRec → SerialRec) : (d.modSerial n f).groups = d.groups := rfl
@[simp] theorem modSerial_fabric (n : Nat) (f : SerialRec → SerialRec) : (d.modSerial n f).fabric = d.fabric := rfl
@[simp] theorem modSerial_plates (n : Nat) (f : SerialRec → SerialRec) : (d.modSerial n f).plates = d.plates := rfl
@[simp] theorem modSerial_mem (n : Nat) (f : SerialRec → SerialRec) : (d.modSerial n f).mem = d.mem := rfl
@[simp] theorem modSerial_rings (n : Nat) (f : SerialRec → SerialRec) : (d.modSerial n f).rings = d.rings := rfl
@[simp] theorem modSerial_strike (n : Nat) (f : SerialRec → SerialRec) : (d.modSerial n f).strike = d.strike := rfl
@[simp] theorem modSerial_ext (n : Nat) (f : SerialRec → SerialRec) : (d.modSerial n f).ext = d.ext := rfl
@[simp] theorem modSerial_load (n : Nat) (f : SerialRec → SerialRec) : (d.modSerial n f).load = d.load := rfl
@[simp] theorem modSerial_power (n : Nat) (f : SerialRec → SerialRec) : (d.modSerial n f).power = d.power := rfl
@[simp] theorem modSerial_heat (n : Nat) (f : SerialRec → SerialRec) : (d.modSerial n f).heat = d.heat := rfl
@[simp] theorem modSerial_kryup (n : Nat) (f : SerialRec → SerialRec) : (d.modSerial n f).kryup = d.kryup := rfl
@[simp] theorem modSerial_test (n : Nat) (f : SerialRec → SerialRec) : (d.modSerial n f).test = d.test := rfl
@[simp] theorem modSerial_proof (n : Nat) (f : SerialRec → SerialRec) : (d.modSerial n f).proof = d.proof := rfl
@[simp] theorem reg_modSerial (n : Nat) (f : SerialRec → SerialRec) (i : Nat) : (d.modSerial n f).reg i = d.reg i := rfl
@[simp] theorem ust_modSerial (n : Nat) (f : SerialRec → SerialRec) (u : Nat) : (d.modSerial n f).ust u = d.ust u := rfl
@[simp] theorem fld_modSerial (n : Nat) (f : SerialRec → SerialRec) (u : Nat) (x : Fld) : (d.modSerial n f).fld u x = d.fld u x := rfl
theorem parts_modSerial (n : Nat) (f : SerialRec → SerialRec) : OnlyParts [.pins] d (d.modSerial n f) := by intro p hp; cases p <;> first | rfl | exact absurd (by simp) hp
@[simp] theorem onlyParts_modSerial (n : Nat) (f : SerialRec → SerialRec) {l : List Part} {c : Dev} (h : Part.pins ∈ l) : OnlyParts l c (d.modSerial n f) ↔ OnlyParts l c d := onlyParts_iff (parts_modSerial d n f) h
@[simp] theorem quiet_modSerial (n : Nat) (f : SerialRec → SerialRec) : (d.modSerial n f).quiet = d.quiet := rfl

/-! `finish` -/

@[simp] theorem finish_free (p st : Nat) (w : Word) : (d.finish p st w).free = d.free := rfl
@[simp] theorem finish_regs (p st : Nat) (w : Word) : (d.finish p st w).regs = d.regs := rfl
@[simp] theorem finish_units (p st : Nat) (w : Word) : (d.finish p st w).units = d.units := rfl
@[simp] theorem finish_stack (p st : Nat) (w : Word) : (d.finish p st w).stack = d.stack := rfl
@[simp] theorem finish_keeper (p st : Nat) (w : Word) : (d.finish p st w).keeper = d.keeper := rfl
@[simp] theorem finish_clk (p st : Nat) (w : Word) : (d.finish p st w).clk = d.clk := rfl
@[simp] theorem finish_ident (p st : Nat) (w : Word) : (d.finish p st w).ident = d.ident := rfl
@[simp] theorem finish_lanes (p st : Nat) (w : Word) : (d.finish p st w).lanes = d.lanes := rfl
@[simp] theorem finish_links (p st : Nat) (w : Word) : (d.finish p st w).links = d.links := rfl
@[simp] theorem finish_groups (p st : Nat) (w : Word) : (d.finish p st w).groups = d.groups := rfl
@[simp] theorem finish_fabric (p st : Nat) (w : Word) : (d.finish p st w).fabric = d.fabric := rfl
@[simp] theorem finish_plates (p st : Nat) (w : Word) : (d.finish p st w).plates = d.plates := rfl
@[simp] theorem finish_mem (p st : Nat) (w : Word) : (d.finish p st w).mem = d.mem := rfl
@[simp] theorem finish_rings (p st : Nat) (w : Word) : (d.finish p st w).rings = d.rings := rfl
@[simp] theorem finish_strike (p st : Nat) (w : Word) : (d.finish p st w).strike = d.strike := rfl
@[simp] theorem finish_ext (p st : Nat) (w : Word) : (d.finish p st w).ext = d.ext := rfl
@[simp] theorem finish_load (p st : Nat) (w : Word) : (d.finish p st w).load = d.load := rfl
@[simp] theorem finish_power (p st : Nat) (w : Word) : (d.finish p st w).power = d.power := rfl
@[simp] theorem finish_heat (p st : Nat) (w : Word) : (d.finish p st w).heat = d.heat := rfl
@[simp] theorem finish_kryup (p st : Nat) (w : Word) : (d.finish p st w).kryup = d.kryup := rfl
@[simp] theorem finish_test (p st : Nat) (w : Word) : (d.finish p st w).test = d.test := rfl
@[simp] theorem finish_proof (p st : Nat) (w : Word) : (d.finish p st w).proof = d.proof := rfl
@[simp] theorem finish_pins (p st : Nat) (w : Word) : (d.finish p st w).pins = d.pins := rfl
@[simp] theorem reg_finish (p st : Nat) (w : Word) (i : Nat) : (d.finish p st w).reg i = d.reg i := rfl
@[simp] theorem ust_finish (p st : Nat) (w : Word) (u : Nat) : (d.finish p st w).ust u = d.ust u := rfl
@[simp] theorem fld_finish (p st : Nat) (w : Word) (u : Nat) (x : Fld) : (d.finish p st w).fld u x = d.fld u x := rfl
theorem parts_finish (p st : Nat) (w : Word) : OnlyParts [.ctl] d (d.finish p st w) := by intro p hp; cases p <;> first | rfl | exact absurd (by simp) hp
@[simp] theorem onlyParts_finish (p st : Nat) (w : Word) {l : List Part} {c : Dev} (h : Part.ctl ∈ l) : OnlyParts l c (d.finish p st w) ↔ OnlyParts l c d := onlyParts_iff (parts_finish d p st w) h
@[simp] theorem quiet_finish (p st : Nat) (w : Word) : (d.finish p st w).quiet = d.quiet := rfl

/-! `modProof` -/

@[simp] theorem modProof_free (n : Nat) (f : ProofRec → ProofRec) : (d.modProof n f).free = d.free := rfl
@[simp] theorem modProof_regs (n : Nat) (f : ProofRec → ProofRec) : (d.modProof n f).regs = d.regs := rfl
@[simp] theorem modProof_units (n : Nat) (f : ProofRec → ProofRec) : (d.modProof n f).units = d.units := rfl
@[simp] theorem modProof_ctl (n : Nat) (f : ProofRec → ProofRec) : (d.modProof n f).ctl = d.ctl := rfl
@[simp] theorem modProof_stack (n : Nat) (f : ProofRec → ProofRec) : (d.modProof n f).stack = d.stack := rfl
@[simp] theorem modProof_keeper (n : Nat) (f : ProofRec → ProofRec) : (d.modProof n f).keeper = d.keeper := rfl
@[simp] theorem modProof_clk (n : Nat) (f : ProofRec → ProofRec) : (d.modProof n f).clk = d.clk := rfl
@[simp] theorem modProof_ident (n : Nat) (f : ProofRec → ProofRec) : (d.modProof n f).ident = d.ident := rfl
@[simp] theorem modProof_lanes (n : Nat) (f : ProofRec → ProofRec) : (d.modProof n f).lanes = d.lanes := rfl
@[simp] theorem modProof_links (n : Nat) (f : ProofRec → ProofRec) : (d.modProof n f).links = d.links := rfl
@[simp] theorem modProof_groups (n : Nat) (f : ProofRec → ProofRec) : (d.modProof n f).groups = d.groups := rfl
@[simp] theorem modProof_fabric (n : Nat) (f : ProofRec → ProofRec) : (d.modProof n f).fabric = d.fabric := rfl
@[simp] theorem modProof_plates (n : Nat) (f : ProofRec → ProofRec) : (d.modProof n f).plates = d.plates := rfl
@[simp] theorem modProof_mem (n : Nat) (f : ProofRec → ProofRec) : (d.modProof n f).mem = d.mem := rfl
@[simp] theorem modProof_rings (n : Nat) (f : ProofRec → ProofRec) : (d.modProof n f).rings = d.rings := rfl
@[simp] theorem modProof_strike (n : Nat) (f : ProofRec → ProofRec) : (d.modProof n f).strike = d.strike := rfl
@[simp] theorem modProof_ext (n : Nat) (f : ProofRec → ProofRec) : (d.modProof n f).ext = d.ext := rfl
@[simp] theorem modProof_load (n : Nat) (f : ProofRec → ProofRec) : (d.modProof n f).load = d.load := rfl
@[simp] theorem modProof_power (n : Nat) (f : ProofRec → ProofRec) : (d.modProof n f).power = d.power := rfl
@[simp] theorem modProof_heat (n : Nat) (f : ProofRec → ProofRec) : (d.modProof n f).heat = d.heat := rfl
@[simp] theorem modProof_kryup (n : Nat) (f : ProofRec → ProofRec) : (d.modProof n f).kryup = d.kryup := rfl
@[simp] theorem modProof_test (n : Nat) (f : ProofRec → ProofRec) : (d.modProof n f).test = d.test := rfl
@[simp] theorem modProof_pins (n : Nat) (f : ProofRec → ProofRec) : (d.modProof n f).pins = d.pins := rfl
@[simp] theorem reg_modProof (n : Nat) (f : ProofRec → ProofRec) (i : Nat) : (d.modProof n f).reg i = d.reg i := rfl
@[simp] theorem ust_modProof (n : Nat) (f : ProofRec → ProofRec) (u : Nat) : (d.modProof n f).ust u = d.ust u := rfl
@[simp] theorem fld_modProof (n : Nat) (f : ProofRec → ProofRec) (u : Nat) (x : Fld) : (d.modProof n f).fld u x = d.fld u x := rfl
theorem parts_modProof (n : Nat) (f : ProofRec → ProofRec) : OnlyParts [.proof] d (d.modProof n f) := by intro p hp; cases p <;> first | rfl | exact absurd (by simp) hp
@[simp] theorem onlyParts_modProof (n : Nat) (f : ProofRec → ProofRec) {l : List Part} {c : Dev} (h : Part.proof ∈ l) : OnlyParts l c (d.modProof n f) ↔ OnlyParts l c d := onlyParts_iff (parts_modProof d n f) h
@[simp] theorem quiet_modProof (n : Nat) (f : ProofRec → ProofRec) : (d.modProof n f).quiet = d.quiet := rfl

/-! `modPower` -/

@[simp] theorem modPower_free (f : PowerRec → PowerRec) : (d.modPower f).free = d.free := rfl
@[simp] theorem modPower_regs (f : PowerRec → PowerRec) : (d.modPower f).regs = d.regs := rfl
@[simp] theorem modPower_units (f : PowerRec → PowerRec) : (d.modPower f).units = d.units := rfl
@[simp] theorem modPower_ctl (f : PowerRec → PowerRec) : (d.modPower f).ctl = d.ctl := rfl
@[simp] theorem modPower_stack (f : PowerRec → PowerRec) : (d.modPower f).stack = d.stack := rfl
@[simp] theorem modPower_keeper (f : PowerRec → PowerRec) : (d.modPower f).keeper = d.keeper := rfl
@[simp] theorem modPower_clk (f : PowerRec → PowerRec) : (d.modPower f).clk = d.clk := rfl
@[simp] theorem modPower_ident (f : PowerRec → PowerRec) : (d.modPower f).ident = d.ident := rfl
@[simp] theorem modPower_lanes (f : PowerRec → PowerRec) : (d.modPower f).lanes = d.lanes := rfl
@[simp] theorem modPower_links (f : PowerRec → PowerRec) : (d.modPower f).links = d.links := rfl
@[simp] theorem modPower_groups (f : PowerRec → PowerRec) : (d.modPower f).groups = d.groups := rfl
@[simp] theorem modPower_fabric (f : PowerRec → PowerRec) : (d.modPower f).fabric = d.fabric := rfl
@[simp] theorem modPower_plates (f : PowerRec → PowerRec) : (d.modPower f).plates = d.plates := rfl
@[simp] theorem modPower_mem (f : PowerRec → PowerRec) : (d.modPower f).mem = d.mem := rfl
@[simp] theorem modPower_rings (f : PowerRec → PowerRec) : (d.modPower f).rings = d.rings := rfl
@[simp] theorem modPower_strike (f : PowerRec → PowerRec) : (d.modPower f).strike = d.strike := rfl
@[simp] theorem modPower_ext (f : PowerRec → PowerRec) : (d.modPower f).ext = d.ext := rfl
@[simp] theorem modPower_load (f : PowerRec → PowerRec) : (d.modPower f).load = d.load := rfl
@[simp] theorem modPower_power (f : PowerRec → PowerRec) : (d.modPower f).power = f d.power := rfl
@[simp] theorem modPower_heat (f : PowerRec → PowerRec) : (d.modPower f).heat = d.heat := rfl
@[simp] theorem modPower_kryup (f : PowerRec → PowerRec) : (d.modPower f).kryup = d.kryup := rfl
@[simp] theorem modPower_test (f : PowerRec → PowerRec) : (d.modPower f).test = d.test := rfl
@[simp] theorem modPower_proof (f : PowerRec → PowerRec) : (d.modPower f).proof = d.proof := rfl
@[simp] theorem modPower_pins (f : PowerRec → PowerRec) : (d.modPower f).pins = d.pins := rfl
@[simp] theorem reg_modPower (f : PowerRec → PowerRec) (i : Nat) : (d.modPower f).reg i = d.reg i := rfl
@[simp] theorem ust_modPower (f : PowerRec → PowerRec) (u : Nat) : (d.modPower f).ust u = d.ust u := rfl
@[simp] theorem fld_modPower (f : PowerRec → PowerRec) (u : Nat) (x : Fld) : (d.modPower f).fld u x = d.fld u x := rfl
theorem parts_modPower (f : PowerRec → PowerRec) : OnlyParts [.power] d (d.modPower f) := by intro p hp; cases p <;> first | rfl | exact absurd (by simp) hp
@[simp] theorem onlyParts_modPower (f : PowerRec → PowerRec) {l : List Part} {c : Dev} (h : Part.power ∈ l) : OnlyParts l c (d.modPower f) ↔ OnlyParts l c d := onlyParts_iff (parts_modPower d f) h
@[simp] theorem quiet_modPower (f : PowerRec → PowerRec) : (d.modPower f).quiet = d.quiet := rfl

/-! `modKeeper` -/

@[simp] theorem modKeeper_free (f : KeeperRec → KeeperRec) : (d.modKeeper f).free = d.free := rfl
@[simp] theorem modKeeper_regs (f : KeeperRec → KeeperRec) : (d.modKeeper f).regs = d.regs := rfl
@[simp] theorem modKeeper_units (f : KeeperRec → KeeperRec) : (d.modKeeper f).units = d.units := rfl
@[simp] theorem modKeeper_ctl (f : KeeperRec → KeeperRec) : (d.modKeeper f).ctl = d.ctl := rfl
@[simp] theorem modKeeper_stack (f : KeeperRec → KeeperRec) : (d.modKeeper f).stack = d.stack := rfl
@[simp] theorem modKeeper_keeper (f : KeeperRec → KeeperRec) : (d.modKeeper f).keeper = f d.keeper := rfl
@[simp] theorem modKeeper_clk (f : KeeperRec → KeeperRec) : (d.modKeeper f).clk = d.clk := rfl
@[simp] theorem modKeeper_ident (f : KeeperRec → KeeperRec) : (d.modKeeper f).ident = d.ident := rfl
@[simp] theorem modKeeper_lanes (f : KeeperRec → KeeperRec) : (d.modKeeper f).lanes = d.lanes := rfl
@[simp] theorem modKeeper_links (f : KeeperRec → KeeperRec) : (d.modKeeper f).links = d.links := rfl
@[simp] theorem modKeeper_groups (f : KeeperRec → KeeperRec) : (d.modKeeper f).groups = d.groups := rfl
@[simp] theorem modKeeper_fabric (f : KeeperRec → KeeperRec) : (d.modKeeper f).fabric = d.fabric := rfl
@[simp] theorem modKeeper_plates (f : KeeperRec → KeeperRec) : (d.modKeeper f).plates = d.plates := rfl
@[simp] theorem modKeeper_mem (f : KeeperRec → KeeperRec) : (d.modKeeper f).mem = d.mem := rfl
@[simp] theorem modKeeper_rings (f : KeeperRec → KeeperRec) : (d.modKeeper f).rings = d.rings := rfl
@[simp] theorem modKeeper_strike (f : KeeperRec → KeeperRec) : (d.modKeeper f).strike = d.strike := rfl
@[simp] theorem modKeeper_ext (f : KeeperRec → KeeperRec) : (d.modKeeper f).ext = d.ext := rfl
@[simp] theorem modKeeper_load (f : KeeperRec → KeeperRec) : (d.modKeeper f).load = d.load := rfl
@[simp] theorem modKeeper_power (f : KeeperRec → KeeperRec) : (d.modKeeper f).power = d.power := rfl
@[simp] theorem modKeeper_heat (f : KeeperRec → KeeperRec) : (d.modKeeper f).heat = d.heat := rfl
@[simp] theorem modKeeper_kryup (f : KeeperRec → KeeperRec) : (d.modKeeper f).kryup = d.kryup := rfl
@[simp] theorem modKeeper_test (f : KeeperRec → KeeperRec) : (d.modKeeper f).test = d.test := rfl
@[simp] theorem modKeeper_proof (f : KeeperRec → KeeperRec) : (d.modKeeper f).proof = d.proof := rfl
@[simp] theorem modKeeper_pins (f : KeeperRec → KeeperRec) : (d.modKeeper f).pins = d.pins := rfl
@[simp] theorem reg_modKeeper (f : KeeperRec → KeeperRec) (i : Nat) : (d.modKeeper f).reg i = d.reg i := rfl
@[simp] theorem ust_modKeeper (f : KeeperRec → KeeperRec) (u : Nat) : (d.modKeeper f).ust u = d.ust u := rfl
@[simp] theorem fld_modKeeper (f : KeeperRec → KeeperRec) (u : Nat) (x : Fld) : (d.modKeeper f).fld u x = d.fld u x := rfl
theorem parts_modKeeper (f : KeeperRec → KeeperRec) : OnlyParts [.keeper] d (d.modKeeper f) := by intro p hp; cases p <;> first | rfl | exact absurd (by simp) hp
@[simp] theorem onlyParts_modKeeper (f : KeeperRec → KeeperRec) {l : List Part} {c : Dev} (h : Part.keeper ∈ l) : OnlyParts l c (d.modKeeper f) ↔ OnlyParts l c d := onlyParts_iff (parts_modKeeper d f) h
@[simp] theorem quiet_modKeeper (f : KeeperRec → KeeperRec) : (d.modKeeper f).quiet = d.quiet := rfl

/-! `modClk` -/

@[simp] theorem modClk_free (f : ClockRec → ClockRec) : (d.modClk f).free = d.free := rfl
@[simp] theorem modClk_regs (f : ClockRec → ClockRec) : (d.modClk f).regs = d.regs := rfl
@[simp] theorem modClk_units (f : ClockRec → ClockRec) : (d.modClk f).units = d.units := rfl
@[simp] theorem modClk_ctl (f : ClockRec → ClockRec) : (d.modClk f).ctl = d.ctl := rfl
@[simp] theorem modClk_stack (f : ClockRec → ClockRec) : (d.modClk f).stack = d.stack := rfl
@[simp] theorem modClk_keeper (f : ClockRec → ClockRec) : (d.modClk f).keeper = d.keeper := rfl
@[simp] theorem modClk_clk (f : ClockRec → ClockRec) : (d.modClk f).clk = f d.clk := rfl
@[simp] theorem modClk_ident (f : ClockRec → ClockRec) : (d.modClk f).ident = d.ident := rfl
@[simp] theorem modClk_lanes (f : ClockRec → ClockRec) : (d.modClk f).lanes = d.lanes := rfl
@[simp] theorem modClk_links (f : ClockRec → ClockRec) : (d.modClk f).links = d.links := rfl
@[simp] theorem modClk_groups (f : ClockRec → ClockRec) : (d.modClk f).groups = d.groups := rfl
@[simp] theorem modClk_fabric (f : ClockRec → ClockRec) : (d.modClk f).fabric = d.fabric := rfl
@[simp] theorem modClk_plates (f : ClockRec → ClockRec) : (d.modClk f).plates = d.plates := rfl
@[simp] theorem modClk_mem (f : ClockRec → ClockRec) : (d.modClk f).mem = d.mem := rfl
@[simp] theorem modClk_rings (f : ClockRec → ClockRec) : (d.modClk f).rings = d.rings := rfl
@[simp] theorem modClk_strike (f : ClockRec → ClockRec) : (d.modClk f).strike = d.strike := rfl
@[simp] theorem modClk_ext (f : ClockRec → ClockRec) : (d.modClk f).ext = d.ext := rfl
@[simp] theorem modClk_load (f : ClockRec → ClockRec) : (d.modClk f).load = d.load := rfl
@[simp] theorem modClk_power (f : ClockRec → ClockRec) : (d.modClk f).power = d.power := rfl
@[simp] theorem modClk_heat (f : ClockRec → ClockRec) : (d.modClk f).heat = d.heat := rfl
@[simp] theorem modClk_kryup (f : ClockRec → ClockRec) : (d.modClk f).kryup = d.kryup := rfl
@[simp] theorem modClk_test (f : ClockRec → ClockRec) : (d.modClk f).test = d.test := rfl
@[simp] theorem modClk_proof (f : ClockRec → ClockRec) : (d.modClk f).proof = d.proof := rfl
@[simp] theorem modClk_pins (f : ClockRec → ClockRec) : (d.modClk f).pins = d.pins := rfl
@[simp] theorem reg_modClk (f : ClockRec → ClockRec) (i : Nat) : (d.modClk f).reg i = d.reg i := rfl
@[simp] theorem ust_modClk (f : ClockRec → ClockRec) (u : Nat) : (d.modClk f).ust u = d.ust u := rfl
@[simp] theorem fld_modClk (f : ClockRec → ClockRec) (u : Nat) (x : Fld) : (d.modClk f).fld u x = d.fld u x := rfl
theorem parts_modClk (f : ClockRec → ClockRec) : OnlyParts [.clk] d (d.modClk f) := by intro p hp; cases p <;> first | rfl | exact absurd (by simp) hp
@[simp] theorem onlyParts_modClk (f : ClockRec → ClockRec) {l : List Part} {c : Dev} (h : Part.clk ∈ l) : OnlyParts l c (d.modClk f) ↔ OnlyParts l c d := onlyParts_iff (parts_modClk d f) h

/-! `modPlates` -/

@[simp] theorem modPlates_free (f : PlateRec → PlateRec) : (d.modPlates f).free = d.free := rfl
@[simp] theorem modPlates_regs (f : PlateRec → PlateRec) : (d.modPlates f).regs = d.regs := rfl
@[simp] theorem modPlates_units (f : PlateRec → PlateRec) : (d.modPlates f).units = d.units := rfl
@[simp] theorem modPlates_ctl (f : PlateRec → PlateRec) : (d.modPlates f).ctl = d.ctl := rfl
@[simp] theorem modPlates_stack (f : PlateRec → PlateRec) : (d.modPlates f).stack = d.stack := rfl
@[simp] theorem modPlates_keeper (f : PlateRec → PlateRec) : (d.modPlates f).keeper = d.keeper := rfl
@[simp] theorem modPlates_clk (f : PlateRec → PlateRec) : (d.modPlates f).clk = d.clk := rfl
@[simp] theorem modPlates_ident (f : PlateRec → PlateRec) : (d.modPlates f).ident = d.ident := rfl
@[simp] theorem modPlates_lanes (f : PlateRec → PlateRec) : (d.modPlates f).lanes = d.lanes := rfl
@[simp] theorem modPlates_links (f : PlateRec → PlateRec) : (d.modPlates f).links = d.links := rfl
@[simp] theorem modPlates_groups (f : PlateRec → PlateRec) : (d.modPlates f).groups = d.groups := rfl
@[simp] theorem modPlates_fabric (f : PlateRec → PlateRec) : (d.modPlates f).fabric = d.fabric := rfl
@[simp] theorem modPlates_plates (f : PlateRec → PlateRec) : (d.modPlates f).plates = f d.plates := rfl
@[simp] theorem modPlates_mem (f : PlateRec → PlateRec) : (d.modPlates f).mem = d.mem := rfl
@[simp] theorem modPlates_rings (f : PlateRec → PlateRec) : (d.modPlates f).rings = d.rings := rfl
@[simp] theorem modPlates_strike (f : PlateRec → PlateRec) : (d.modPlates f).strike = d.strike := rfl
@[simp] theorem modPlates_ext (f : PlateRec → PlateRec) : (d.modPlates f).ext = d.ext := rfl
@[simp] theorem modPlates_load (f : PlateRec → PlateRec) : (d.modPlates f).load = d.load := rfl
@[simp] theorem modPlates_power (f : PlateRec → PlateRec) : (d.modPlates f).power = d.power := rfl
@[simp] theorem modPlates_heat (f : PlateRec → PlateRec) : (d.modPlates f).heat = d.heat := rfl
@[simp] theorem modPlates_kryup (f : PlateRec → PlateRec) : (d.modPlates f).kryup = d.kryup := rfl
@[simp] theorem modPlates_test (f : PlateRec → PlateRec) : (d.modPlates f).test = d.test := rfl
@[simp] theorem modPlates_proof (f : PlateRec → PlateRec) : (d.modPlates f).proof = d.proof := rfl
@[simp] theorem modPlates_pins (f : PlateRec → PlateRec) : (d.modPlates f).pins = d.pins := rfl
@[simp] theorem reg_modPlates (f : PlateRec → PlateRec) (i : Nat) : (d.modPlates f).reg i = d.reg i := rfl
@[simp] theorem ust_modPlates (f : PlateRec → PlateRec) (u : Nat) : (d.modPlates f).ust u = d.ust u := rfl
@[simp] theorem fld_modPlates (f : PlateRec → PlateRec) (u : Nat) (x : Fld) : (d.modPlates f).fld u x = d.fld u x := rfl
theorem parts_modPlates (f : PlateRec → PlateRec) : OnlyParts [.plates] d (d.modPlates f) := by intro p hp; cases p <;> first | rfl | exact absurd (by simp) hp
@[simp] theorem onlyParts_modPlates (f : PlateRec → PlateRec) {l : List Part} {c : Dev} (h : Part.plates ∈ l) : OnlyParts l c (d.modPlates f) ↔ OnlyParts l c d := onlyParts_iff (parts_modPlates d f) h
@[simp] theorem quiet_modPlates (f : PlateRec → PlateRec) : (d.modPlates f).quiet = d.quiet := rfl

/-! `modMem` -/

@[simp] theorem modMem_free (f : MemRec → MemRec) : (d.modMem f).free = d.free := rfl
@[simp] theorem modMem_regs (f : MemRec → MemRec) : (d.modMem f).regs = d.regs := rfl
@[simp] theorem modMem_units (f : MemRec → MemRec) : (d.modMem f).units = d.units := rfl
@[simp] theorem modMem_ctl (f : MemRec → MemRec) : (d.modMem f).ctl = d.ctl := rfl
@[simp] theorem modMem_stack (f : MemRec → MemRec) : (d.modMem f).stack = d.stack := rfl
@[simp] theorem modMem_keeper (f : MemRec → MemRec) : (d.modMem f).keeper = d.keeper := rfl
@[simp] theorem modMem_clk (f : MemRec → MemRec) : (d.modMem f).clk = d.clk := rfl
@[simp] theorem modMem_ident (f : MemRec → MemRec) : (d.modMem f).ident = d.ident := rfl
@[simp] theorem modMem_lanes (f : MemRec → MemRec) : (d.modMem f).lanes = d.lanes := rfl
@[simp] theorem modMem_links (f : MemRec → MemRec) : (d.modMem f).links = d.links := rfl
@[simp] theorem modMem_groups (f : MemRec → MemRec) : (d.modMem f).groups = d.groups := rfl
@[simp] theorem modMem_fabric (f : MemRec → MemRec) : (d.modMem f).fabric = d.fabric := rfl
@[simp] theorem modMem_plates (f : MemRec → MemRec) : (d.modMem f).plates = d.plates := rfl
@[simp] theorem modMem_mem (f : MemRec → MemRec) : (d.modMem f).mem = f d.mem := rfl
@[simp] theorem modMem_rings (f : MemRec → MemRec) : (d.modMem f).rings = d.rings := rfl
@[simp] theorem modMem_strike (f : MemRec → MemRec) : (d.modMem f).strike = d.strike := rfl
@[simp] theorem modMem_ext (f : MemRec → MemRec) : (d.modMem f).ext = d.ext := rfl
@[simp] theorem modMem_load (f : MemRec → MemRec) : (d.modMem f).load = d.load := rfl
@[simp] theorem modMem_power (f : MemRec → MemRec) : (d.modMem f).power = d.power := rfl
@[simp] theorem modMem_heat (f : MemRec → MemRec) : (d.modMem f).heat = d.heat := rfl
@[simp] theorem modMem_kryup (f : MemRec → MemRec) : (d.modMem f).kryup = d.kryup := rfl
@[simp] theorem modMem_test (f : MemRec → MemRec) : (d.modMem f).test = d.test := rfl
@[simp] theorem modMem_proof (f : MemRec → MemRec) : (d.modMem f).proof = d.proof := rfl
@[simp] theorem modMem_pins (f : MemRec → MemRec) : (d.modMem f).pins = d.pins := rfl
@[simp] theorem reg_modMem (f : MemRec → MemRec) (i : Nat) : (d.modMem f).reg i = d.reg i := rfl
@[simp] theorem ust_modMem (f : MemRec → MemRec) (u : Nat) : (d.modMem f).ust u = d.ust u := rfl
@[simp] theorem fld_modMem (f : MemRec → MemRec) (u : Nat) (x : Fld) : (d.modMem f).fld u x = d.fld u x := rfl
theorem parts_modMem (f : MemRec → MemRec) : OnlyParts [.mem] d (d.modMem f) := by intro p hp; cases p <;> first | rfl | exact absurd (by simp) hp
@[simp] theorem onlyParts_modMem (f : MemRec → MemRec) {l : List Part} {c : Dev} (h : Part.mem ∈ l) : OnlyParts l c (d.modMem f) ↔ OnlyParts l c d := onlyParts_iff (parts_modMem d f) h
@[simp] theorem quiet_modMem (f : MemRec → MemRec) : (d.modMem f).quiet = d.quiet := rfl

/-! `modExt` -/

@[simp] theorem modExt_free (f : ExtRec → ExtRec) : (d.modExt f).free = d.free := rfl
@[simp] theorem modExt_regs (f : ExtRec → ExtRec) : (d.modExt f).regs = d.regs := rfl
@[simp] theorem modExt_units (f : ExtRec → ExtRec) : (d.modExt f).units = d.units := rfl
@[simp] theorem modExt_ctl (f : ExtRec → ExtRec) : (d.modExt f).ctl = d.ctl := rfl
@[simp] theorem modExt_stack (f : ExtRec → ExtRec) : (d.modExt f).stack = d.stack := rfl
@[simp] theorem modExt_keeper (f : ExtRec → ExtRec) : (d.modExt f).keeper = d.keeper := rfl
@[simp] theorem modExt_clk (f : ExtRec → ExtRec) : (d.modExt f).clk = d.clk := rfl
@[simp] theorem modExt_ident (f : ExtRec → ExtRec) : (d.modExt f).ident = d.ident := rfl
@[simp] theorem modExt_lanes (f : ExtRec → ExtRec) : (d.modExt f).lanes = d.lanes := rfl
@[simp] theorem modExt_links (f : ExtRec → ExtRec) : (d.modExt f).links = d.links := rfl
@[simp] theorem modExt_groups (f : ExtRec → ExtRec) : (d.modExt f).groups = d.groups := rfl
@[simp] theorem modExt_fabric (f : ExtRec → ExtRec) : (d.modExt f).fabric = d.fabric := rfl
@[simp] theorem modExt_plates (f : ExtRec → ExtRec) : (d.modExt f).plates = d.plates := rfl
@[simp] theorem modExt_mem (f : ExtRec → ExtRec) : (d.modExt f).mem = d.mem := rfl
@[simp] theorem modExt_rings (f : ExtRec → ExtRec) : (d.modExt f).rings = d.rings := rfl
@[simp] theorem modExt_strike (f : ExtRec → ExtRec) : (d.modExt f).strike = d.strike := rfl
@[simp] theorem modExt_ext (f : ExtRec → ExtRec) : (d.modExt f).ext = f d.ext := rfl
@[simp] theorem modExt_load (f : ExtRec → ExtRec) : (d.modExt f).load = d.load := rfl
@[simp] theorem modExt_power (f : ExtRec → ExtRec) : (d.modExt f).power = d.power := rfl
@[simp] theorem modExt_heat (f : ExtRec → ExtRec) : (d.modExt f).heat = d.heat := rfl
@[simp] theorem modExt_kryup (f : ExtRec → ExtRec) : (d.modExt f).kryup = d.kryup := rfl
@[simp] theorem modExt_test (f : ExtRec → ExtRec) : (d.modExt f).test = d.test := rfl
@[simp] theorem modExt_proof (f : ExtRec → ExtRec) : (d.modExt f).proof = d.proof := rfl
@[simp] theorem modExt_pins (f : ExtRec → ExtRec) : (d.modExt f).pins = d.pins := rfl
@[simp] theorem reg_modExt (f : ExtRec → ExtRec) (i : Nat) : (d.modExt f).reg i = d.reg i := rfl
@[simp] theorem ust_modExt (f : ExtRec → ExtRec) (u : Nat) : (d.modExt f).ust u = d.ust u := rfl
@[simp] theorem fld_modExt (f : ExtRec → ExtRec) (u : Nat) (x : Fld) : (d.modExt f).fld u x = d.fld u x := rfl
theorem parts_modExt (f : ExtRec → ExtRec) : OnlyParts [.ext] d (d.modExt f) := by intro p hp; cases p <;> first | rfl | exact absurd (by simp) hp
@[simp] theorem onlyParts_modExt (f : ExtRec → ExtRec) {l : List Part} {c : Dev} (h : Part.ext ∈ l) : OnlyParts l c (d.modExt f) ↔ OnlyParts l c d := onlyParts_iff (parts_modExt d f) h
@[simp] theorem quiet_modExt (f : ExtRec → ExtRec) : (d.modExt f).quiet = d.quiet := rfl

/-! `modStrike` -/

@[simp] theorem modStrike_free (f : StrikeRec → StrikeRec) : (d.modStrike f).free = d.free := rfl
@[simp] theorem modStrike_regs (f : StrikeRec → StrikeRec) : (d.modStrike f).regs = d.regs := rfl
@[simp] theorem modStrike_units (f : StrikeRec → StrikeRec) : (d.modStrike f).units = d.units := rfl
@[simp] theorem modStrike_ctl (f : StrikeRec → StrikeRec) : (d.modStrike f).ctl = d.ctl := rfl
@[simp] theorem modStrike_stack (f : StrikeRec → StrikeRec) : (d.modStrike f).stack = d.stack := rfl
@[simp] theorem modStrike_keeper (f : StrikeRec → StrikeRec) : (d.modStrike f).keeper = d.keeper := rfl
@[simp] theorem modStrike_clk (f : StrikeRec → StrikeRec) : (d.modStrike f).clk = d.clk := rfl
@[simp] theorem modStrike_ident (f : StrikeRec → StrikeRec) : (d.modStrike f).ident = d.ident := rfl
@[simp] theorem modStrike_lanes (f : StrikeRec → StrikeRec) : (d.modStrike f).lanes = d.lanes := rfl
@[simp] theorem modStrike_links (f : StrikeRec → StrikeRec) : (d.modStrike f).links = d.links := rfl
@[simp] theorem modStrike_groups (f : StrikeRec → StrikeRec) : (d.modStrike f).groups = d.groups := rfl
@[simp] theorem modStrike_fabric (f : StrikeRec → StrikeRec) : (d.modStrike f).fabric = d.fabric := rfl
@[simp] theorem modStrike_plates (f : StrikeRec → StrikeRec) : (d.modStrike f).plates = d.plates := rfl
@[simp] theorem modStrike_mem (f : StrikeRec → StrikeRec) : (d.modStrike f).mem = d.mem := rfl
@[simp] theorem modStrike_rings (f : StrikeRec → StrikeRec) : (d.modStrike f).rings = d.rings := rfl
@[simp] theorem modStrike_strike (f : StrikeRec → StrikeRec) : (d.modStrike f).strike = f d.strike := rfl
@[simp] theorem modStrike_ext (f : StrikeRec → StrikeRec) : (d.modStrike f).ext = d.ext := rfl
@[simp] theorem modStrike_load (f : StrikeRec → StrikeRec) : (d.modStrike f).load = d.load := rfl
@[simp] theorem modStrike_power (f : StrikeRec → StrikeRec) : (d.modStrike f).power = d.power := rfl
@[simp] theorem modStrike_heat (f : StrikeRec → StrikeRec) : (d.modStrike f).heat = d.heat := rfl
@[simp] theorem modStrike_kryup (f : StrikeRec → StrikeRec) : (d.modStrike f).kryup = d.kryup := rfl
@[simp] theorem modStrike_test (f : StrikeRec → StrikeRec) : (d.modStrike f).test = d.test := rfl
@[simp] theorem modStrike_proof (f : StrikeRec → StrikeRec) : (d.modStrike f).proof = d.proof := rfl
@[simp] theorem modStrike_pins (f : StrikeRec → StrikeRec) : (d.modStrike f).pins = d.pins := rfl
@[simp] theorem reg_modStrike (f : StrikeRec → StrikeRec) (i : Nat) : (d.modStrike f).reg i = d.reg i := rfl
@[simp] theorem ust_modStrike (f : StrikeRec → StrikeRec) (u : Nat) : (d.modStrike f).ust u = d.ust u := rfl
@[simp] theorem fld_modStrike (f : StrikeRec → StrikeRec) (u : Nat) (x : Fld) : (d.modStrike f).fld u x = d.fld u x := rfl
theorem parts_modStrike (f : StrikeRec → StrikeRec) : OnlyParts [.strike] d (d.modStrike f) := by intro p hp; cases p <;> first | rfl | exact absurd (by simp) hp
@[simp] theorem onlyParts_modStrike (f : StrikeRec → StrikeRec) {l : List Part} {c : Dev} (h : Part.strike ∈ l) : OnlyParts l c (d.modStrike f) ↔ OnlyParts l c d := onlyParts_iff (parts_modStrike d f) h
@[simp] theorem quiet_modStrike (f : StrikeRec → StrikeRec) : (d.modStrike f).quiet = d.quiet := rfl

/-! `modLoad` -/

@[simp] theorem modLoad_free (f : LoadRec → LoadRec) : (d.modLoad f).free = d.free := rfl
@[simp] theorem modLoad_regs (f : LoadRec → LoadRec) : (d.modLoad f).regs = d.regs := rfl
@[simp] theorem modLoad_units (f : LoadRec → LoadRec) : (d.modLoad f).units = d.units := rfl
@[simp] theorem modLoad_ctl (f : LoadRec → LoadRec) : (d.modLoad f).ctl = d.ctl := rfl
@[simp] theorem modLoad_stack (f : LoadRec → LoadRec) : (d.modLoad f).stack = d.stack := rfl
@[simp] theorem modLoad_keeper (f : LoadRec → LoadRec) : (d.modLoad f).keeper = d.keeper := rfl
@[simp] theorem modLoad_clk (f : LoadRec → LoadRec) : (d.modLoad f).clk = d.clk := rfl
@[simp] theorem modLoad_ident (f : LoadRec → LoadRec) : (d.modLoad f).ident = d.ident := rfl
@[simp] theorem modLoad_lanes (f : LoadRec → LoadRec) : (d.modLoad f).lanes = d.lanes := rfl
@[simp] theorem modLoad_links (f : LoadRec → LoadRec) : (d.modLoad f).links = d.links := rfl
@[simp] theorem modLoad_groups (f : LoadRec → LoadRec) : (d.modLoad f).groups = d.groups := rfl
@[simp] theorem modLoad_fabric (f : LoadRec → LoadRec) : (d.modLoad f).fabric = d.fabric := rfl
@[simp] theorem modLoad_plates (f : LoadRec → LoadRec) : (d.modLoad f).plates = d.plates := rfl
@[simp] theorem modLoad_mem (f : LoadRec → LoadRec) : (d.modLoad f).mem = d.mem := rfl
@[simp] theorem modLoad_rings (f : LoadRec → LoadRec) : (d.modLoad f).rings = d.rings := rfl
@[simp] theorem modLoad_strike (f : LoadRec → LoadRec) : (d.modLoad f).strike = d.strike := rfl
@[simp] theorem modLoad_ext (f : LoadRec → LoadRec) : (d.modLoad f).ext = d.ext := rfl
@[simp] theorem modLoad_load (f : LoadRec → LoadRec) : (d.modLoad f).load = f d.load := rfl
@[simp] theorem modLoad_power (f : LoadRec → LoadRec) : (d.modLoad f).power = d.power := rfl
@[simp] theorem modLoad_heat (f : LoadRec → LoadRec) : (d.modLoad f).heat = d.heat := rfl
@[simp] theorem modLoad_kryup (f : LoadRec → LoadRec) : (d.modLoad f).kryup = d.kryup := rfl
@[simp] theorem modLoad_test (f : LoadRec → LoadRec) : (d.modLoad f).test = d.test := rfl
@[simp] theorem modLoad_proof (f : LoadRec → LoadRec) : (d.modLoad f).proof = d.proof := rfl
@[simp] theorem modLoad_pins (f : LoadRec → LoadRec) : (d.modLoad f).pins = d.pins := rfl
@[simp] theorem reg_modLoad (f : LoadRec → LoadRec) (i : Nat) : (d.modLoad f).reg i = d.reg i := rfl
@[simp] theorem ust_modLoad (f : LoadRec → LoadRec) (u : Nat) : (d.modLoad f).ust u = d.ust u := rfl
@[simp] theorem fld_modLoad (f : LoadRec → LoadRec) (u : Nat) (x : Fld) : (d.modLoad f).fld u x = d.fld u x := rfl
theorem parts_modLoad (f : LoadRec → LoadRec) : OnlyParts [.load] d (d.modLoad f) := by intro p hp; cases p <;> first | rfl | exact absurd (by simp) hp
@[simp] theorem onlyParts_modLoad (f : LoadRec → LoadRec) {l : List Part} {c : Dev} (h : Part.load ∈ l) : OnlyParts l c (d.modLoad f) ↔ OnlyParts l c d := onlyParts_iff (parts_modLoad d f) h
@[simp] theorem quiet_modLoad (f : LoadRec → LoadRec) : (d.modLoad f).quiet = d.quiet := rfl

/-! `modHeat` -/

@[simp] theorem modHeat_free (f : HeatRec → HeatRec) : (d.modHeat f).free = d.free := rfl
@[simp] theorem modHeat_regs (f : HeatRec → HeatRec) : (d.modHeat f).regs = d.regs := rfl
@[simp] theorem modHeat_units (f : HeatRec → HeatRec) : (d.modHeat f).units = d.units := rfl
@[simp] theorem modHeat_ctl (f : HeatRec → HeatRec) : (d.modHeat f).ctl = d.ctl := rfl
@[simp] theorem modHeat_stack (f : HeatRec → HeatRec) : (d.modHeat f).stack = d.stack := rfl
@[simp] theorem modHeat_keeper (f : HeatRec → HeatRec) : (d.modHeat f).keeper = d.keeper := rfl
@[simp] theorem modHeat_clk (f : HeatRec → HeatRec) : (d.modHeat f).clk = d.clk := rfl
@[simp] theorem modHeat_ident (f : HeatRec → HeatRec) : (d.modHeat f).ident = d.ident := rfl
@[simp] theorem modHeat_lanes (f : HeatRec → HeatRec) : (d.modHeat f).lanes = d.lanes := rfl
@[simp] theorem modHeat_links (f : HeatRec → HeatRec) : (d.modHeat f).links = d.links := rfl
@[simp] theorem modHeat_groups (f : HeatRec → HeatRec) : (d.modHeat f).groups = d.groups := rfl
@[simp] theorem modHeat_fabric (f : HeatRec → HeatRec) : (d.modHeat f).fabric = d.fabric := rfl
@[simp] theorem modHeat_plates (f : HeatRec → HeatRec) : (d.modHeat f).plates = d.plates := rfl
@[simp] theorem modHeat_mem (f : HeatRec → HeatRec) : (d.modHeat f).mem = d.mem := rfl
@[simp] theorem modHeat_rings (f : HeatRec → HeatRec) : (d.modHeat f).rings = d.rings := rfl
@[simp] theorem modHeat_strike (f : HeatRec → HeatRec) : (d.modHeat f).strike = d.strike := rfl
@[simp] theorem modHeat_ext (f : HeatRec → HeatRec) : (d.modHeat f).ext = d.ext := rfl
@[simp] theorem modHeat_load (f : HeatRec → HeatRec) : (d.modHeat f).load = d.load := rfl
@[simp] theorem modHeat_power (f : HeatRec → HeatRec) : (d.modHeat f).power = d.power := rfl
@[simp] theorem modHeat_heat (f : HeatRec → HeatRec) : (d.modHeat f).heat = f d.heat := rfl
@[simp] theorem modHeat_kryup (f : HeatRec → HeatRec) : (d.modHeat f).kryup = d.kryup := rfl
@[simp] theorem modHeat_test (f : HeatRec → HeatRec) : (d.modHeat f).test = d.test := rfl
@[simp] theorem modHeat_proof (f : HeatRec → HeatRec) : (d.modHeat f).proof = d.proof := rfl
@[simp] theorem modHeat_pins (f : HeatRec → HeatRec) : (d.modHeat f).pins = d.pins := rfl
@[simp] theorem reg_modHeat (f : HeatRec → HeatRec) (i : Nat) : (d.modHeat f).reg i = d.reg i := rfl
@[simp] theorem ust_modHeat (f : HeatRec → HeatRec) (u : Nat) : (d.modHeat f).ust u = d.ust u := rfl
@[simp] theorem fld_modHeat (f : HeatRec → HeatRec) (u : Nat) (x : Fld) : (d.modHeat f).fld u x = d.fld u x := rfl
theorem parts_modHeat (f : HeatRec → HeatRec) : OnlyParts [.heat] d (d.modHeat f) := by intro p hp; cases p <;> first | rfl | exact absurd (by simp) hp
@[simp] theorem onlyParts_modHeat (f : HeatRec → HeatRec) {l : List Part} {c : Dev} (h : Part.heat ∈ l) : OnlyParts l c (d.modHeat f) ↔ OnlyParts l c d := onlyParts_iff (parts_modHeat d f) h
@[simp] theorem quiet_modHeat (f : HeatRec → HeatRec) : (d.modHeat f).quiet = d.quiet := rfl

/-! `modKryup` -/

@[simp] theorem modKryup_free (f : KryupRec → KryupRec) : (d.modKryup f).free = d.free := rfl
@[simp] theorem modKryup_regs (f : KryupRec → KryupRec) : (d.modKryup f).regs = d.regs := rfl
@[simp] theorem modKryup_units (f : KryupRec → KryupRec) : (d.modKryup f).units = d.units := rfl
@[simp] theorem modKryup_ctl (f : KryupRec → KryupRec) : (d.modKryup f).ctl = d.ctl := rfl
@[simp] theorem modKryup_stack (f : KryupRec → KryupRec) : (d.modKryup f).stack = d.stack := rfl
@[simp] theorem modKryup_keeper (f : KryupRec → KryupRec) : (d.modKryup f).keeper = d.keeper := rfl
@[simp] theorem modKryup_clk (f : KryupRec → KryupRec) : (d.modKryup f).clk = d.clk := rfl
@[simp] theorem modKryup_ident (f : KryupRec → KryupRec) : (d.modKryup f).ident = d.ident := rfl
@[simp] theorem modKryup_lanes (f : KryupRec → KryupRec) : (d.modKryup f).lanes = d.lanes := rfl
@[simp] theorem modKryup_links (f : KryupRec → KryupRec) : (d.modKryup f).links = d.links := rfl
@[simp] theorem modKryup_groups (f : KryupRec → KryupRec) : (d.modKryup f).groups = d.groups := rfl
@[simp] theorem modKryup_fabric (f : KryupRec → KryupRec) : (d.modKryup f).fabric = d.fabric := rfl
@[simp] theorem modKryup_plates (f : KryupRec → KryupRec) : (d.modKryup f).plates = d.plates := rfl
@[simp] theorem modKryup_mem (f : KryupRec → KryupRec) : (d.modKryup f).mem = d.mem := rfl
@[simp] theorem modKryup_rings (f : KryupRec → KryupRec) : (d.modKryup f).rings = d.rings := rfl
@[simp] theorem modKryup_strike (f : KryupRec → KryupRec) : (d.modKryup f).strike = d.strike := rfl
@[simp] theorem modKryup_ext (f : KryupRec → KryupRec) : (d.modKryup f).ext = d.ext := rfl
@[simp] theorem modKryup_load (f : KryupRec → KryupRec) : (d.modKryup f).load = d.load := rfl
@[simp] theorem modKryup_power (f : KryupRec → KryupRec) : (d.modKryup f).power = d.power := rfl
@[simp] theorem modKryup_heat (f : KryupRec → KryupRec) : (d.modKryup f).heat = d.heat := rfl
@[simp] theorem modKryup_kryup (f : KryupRec → KryupRec) : (d.modKryup f).kryup = f d.kryup := rfl
@[simp] theorem modKryup_test (f : KryupRec → KryupRec) : (d.modKryup f).test = d.test := rfl
@[simp] theorem modKryup_proof (f : KryupRec → KryupRec) : (d.modKryup f).proof = d.proof := rfl
@[simp] theorem modKryup_pins (f : KryupRec → KryupRec) : (d.modKryup f).pins = d.pins := rfl
@[simp] theorem reg_modKryup (f : KryupRec → KryupRec) (i : Nat) : (d.modKryup f).reg i = d.reg i := rfl
@[simp] theorem ust_modKryup (f : KryupRec → KryupRec) (u : Nat) : (d.modKryup f).ust u = d.ust u := rfl
@[simp] theorem fld_modKryup (f : KryupRec → KryupRec) (u : Nat) (x : Fld) : (d.modKryup f).fld u x = d.fld u x := rfl
theorem parts_modKryup (f : KryupRec → KryupRec) : OnlyParts [.kryup] d (d.modKryup f) := by intro p hp; cases p <;> first | rfl | exact absurd (by simp) hp
@[simp] theorem onlyParts_modKryup (f : KryupRec → KryupRec) {l : List Part} {c : Dev} (h : Part.kryup ∈ l) : OnlyParts l c (d.modKryup f) ↔ OnlyParts l c d := onlyParts_iff (parts_modKryup d f) h

/-! `modTest` -/

@[simp] theorem modTest_free (f : TestRec → TestRec) : (d.modTest f).free = d.free := rfl
@[simp] theorem modTest_regs (f : TestRec → TestRec) : (d.modTest f).regs = d.regs := rfl
@[simp] theorem modTest_units (f : TestRec → TestRec) : (d.modTest f).units = d.units := rfl
@[simp] theorem modTest_ctl (f : TestRec → TestRec) : (d.modTest f).ctl = d.ctl := rfl
@[simp] theorem modTest_stack (f : TestRec → TestRec) : (d.modTest f).stack = d.stack := rfl
@[simp] theorem modTest_keeper (f : TestRec → TestRec) : (d.modTest f).keeper = d.keeper := rfl
@[simp] theorem modTest_clk (f : TestRec → TestRec) : (d.modTest f).clk = d.clk := rfl
@[simp] theorem modTest_ident (f : TestRec → TestRec) : (d.modTest f).ident = d.ident := rfl
@[simp] theorem modTest_lanes (f : TestRec → TestRec) : (d.modTest f).lanes = d.lanes := rfl
@[simp] theorem modTest_links (f : TestRec → TestRec) : (d.modTest f).links = d.links := rfl
@[simp] theorem modTest_groups (f : TestRec → TestRec) : (d.modTest f).groups = d.groups := rfl
@[simp] theorem modTest_fabric (f : TestRec → TestRec) : (d.modTest f).fabric = d.fabric := rfl
@[simp] theorem modTest_plates (f : TestRec → TestRec) : (d.modTest f).plates = d.plates := rfl
@[simp] theorem modTest_mem (f : TestRec → TestRec) : (d.modTest f).mem = d.mem := rfl
@[simp] theorem modTest_rings (f : TestRec → TestRec) : (d.modTest f).rings = d.rings := rfl
@[simp] theorem modTest_strike (f : TestRec → TestRec) : (d.modTest f).strike = d.strike := rfl
@[simp] theorem modTest_ext (f : TestRec → TestRec) : (d.modTest f).ext = d.ext := rfl
@[simp] theorem modTest_load (f : TestRec → TestRec) : (d.modTest f).load = d.load := rfl
@[simp] theorem modTest_power (f : TestRec → TestRec) : (d.modTest f).power = d.power := rfl
@[simp] theorem modTest_heat (f : TestRec → TestRec) : (d.modTest f).heat = d.heat := rfl
@[simp] theorem modTest_kryup (f : TestRec → TestRec) : (d.modTest f).kryup = d.kryup := rfl
@[simp] theorem modTest_test (f : TestRec → TestRec) : (d.modTest f).test = f d.test := rfl
@[simp] theorem modTest_proof (f : TestRec → TestRec) : (d.modTest f).proof = d.proof := rfl
@[simp] theorem modTest_pins (f : TestRec → TestRec) : (d.modTest f).pins = d.pins := rfl
@[simp] theorem reg_modTest (f : TestRec → TestRec) (i : Nat) : (d.modTest f).reg i = d.reg i := rfl
@[simp] theorem ust_modTest (f : TestRec → TestRec) (u : Nat) : (d.modTest f).ust u = d.ust u := rfl
@[simp] theorem fld_modTest (f : TestRec → TestRec) (u : Nat) (x : Fld) : (d.modTest f).fld u x = d.fld u x := rfl
theorem parts_modTest (f : TestRec → TestRec) : OnlyParts [.test] d (d.modTest f) := by intro p hp; cases p <;> first | rfl | exact absurd (by simp) hp
@[simp] theorem onlyParts_modTest (f : TestRec → TestRec) {l : List Part} {c : Dev} (h : Part.test ∈ l) : OnlyParts l c (d.modTest f) ↔ OnlyParts l c d := onlyParts_iff (parts_modTest d f) h
@[simp] theorem quiet_modTest (f : TestRec → TestRec) : (d.modTest f).quiet = d.quiet := rfl

/-! `modPins` -/

@[simp] theorem modPins_free (f : PinRec → PinRec) : (d.modPins f).free = d.free := rfl
@[simp] theorem modPins_regs (f : PinRec → PinRec) : (d.modPins f).regs = d.regs := rfl
@[simp] theorem modPins_units (f : PinRec → PinRec) : (d.modPins f).units = d.units := rfl
@[simp] theorem modPins_ctl (f : PinRec → PinRec) : (d.modPins f).ctl = d.ctl := rfl
@[simp] theorem modPins_stack (f : PinRec → PinRec) : (d.modPins f).stack = d.stack := rfl
@[simp] theorem modPins_keeper (f : PinRec → PinRec) : (d.modPins f).keeper = d.keeper := rfl
@[simp] theorem modPins_clk (f : PinRec → PinRec) : (d.modPins f).clk = d.clk := rfl
@[simp] theorem modPins_ident (f : PinRec → PinRec) : (d.modPins f).ident = d.ident := rfl
@[simp] theorem modPins_lanes (f : PinRec → PinRec) : (d.modPins f).lanes = d.lanes := rfl
@[simp] theorem modPins_links (f : PinRec → PinRec) : (d.modPins f).links = d.links := rfl
@[simp] theorem modPins_groups (f : PinRec → PinRec) : (d.modPins f).groups = d.groups := rfl
@[simp] theorem modPins_fabric (f : PinRec → PinRec) : (d.modPins f).fabric = d.fabric := rfl
@[simp] theorem modPins_plates (f : PinRec → PinRec) : (d.modPins f).plates = d.plates := rfl
@[simp] theorem modPins_mem (f : PinRec → PinRec) : (d.modPins f).mem = d.mem := rfl
@[simp] theorem modPins_rings (f : PinRec → PinRec) : (d.modPins f).rings = d.rings := rfl
@[simp] theorem modPins_strike (f : PinRec → PinRec) : (d.modPins f).strike = d.strike := rfl
@[simp] theorem modPins_ext (f : PinRec → PinRec) : (d.modPins f).ext = d.ext := rfl
@[simp] theorem modPins_load (f : PinRec → PinRec) : (d.modPins f).load = d.load := rfl
@[simp] theorem modPins_power (f : PinRec → PinRec) : (d.modPins f).power = d.power := rfl
@[simp] theorem modPins_heat (f : PinRec → PinRec) : (d.modPins f).heat = d.heat := rfl
@[simp] theorem modPins_kryup (f : PinRec → PinRec) : (d.modPins f).kryup = d.kryup := rfl
@[simp] theorem modPins_test (f : PinRec → PinRec) : (d.modPins f).test = d.test := rfl
@[simp] theorem modPins_proof (f : PinRec → PinRec) : (d.modPins f).proof = d.proof := rfl
@[simp] theorem modPins_pins (f : PinRec → PinRec) : (d.modPins f).pins = f d.pins := rfl
@[simp] theorem reg_modPins (f : PinRec → PinRec) (i : Nat) : (d.modPins f).reg i = d.reg i := rfl
@[simp] theorem ust_modPins (f : PinRec → PinRec) (u : Nat) : (d.modPins f).ust u = d.ust u := rfl
@[simp] theorem fld_modPins (f : PinRec → PinRec) (u : Nat) (x : Fld) : (d.modPins f).fld u x = d.fld u x := rfl
theorem parts_modPins (f : PinRec → PinRec) : OnlyParts [.pins] d (d.modPins f) := by intro p hp; cases p <;> first | rfl | exact absurd (by simp) hp
@[simp] theorem onlyParts_modPins (f : PinRec → PinRec) {l : List Part} {c : Dev} (h : Part.pins ∈ l) : OnlyParts l c (d.modPins f) ↔ OnlyParts l c d := onlyParts_iff (parts_modPins d f) h
@[simp] theorem quiet_modPins (f : PinRec → PinRec) : (d.modPins f).quiet = d.quiet := rfl

/-! `modCtl` -/

@[simp] theorem modCtl_free (f : CtlRec → CtlRec) : (d.modCtl f).free = d.free := rfl
@[simp] theorem modCtl_regs (f : CtlRec → CtlRec) : (d.modCtl f).regs = d.regs := rfl
@[simp] theorem modCtl_units (f : CtlRec → CtlRec) : (d.modCtl f).units = d.units := rfl
@[simp] theorem modCtl_ctl (f : CtlRec → CtlRec) : (d.modCtl f).ctl = f d.ctl := rfl
@[simp] theorem modCtl_stack (f : CtlRec → CtlRec) : (d.modCtl f).stack = d.stack := rfl
@[simp] theorem modCtl_keeper (f : CtlRec → CtlRec) : (d.modCtl f).keeper = d.keeper := rfl
@[simp] theorem modCtl_clk (f : CtlRec → CtlRec) : (d.modCtl f).clk = d.clk := rfl
@[simp] theorem modCtl_ident (f : CtlRec → CtlRec) : (d.modCtl f).ident = d.ident := rfl
@[simp] theorem modCtl_lanes (f : CtlRec → CtlRec) : (d.modCtl f).lanes = d.lanes := rfl
@[simp] theorem modCtl_links (f : CtlRec → CtlRec) : (d.modCtl f).links = d.links := rfl
@[simp] theorem modCtl_groups (f : CtlRec → CtlRec) : (d.modCtl f).groups = d.groups := rfl
@[simp] theorem modCtl_fabric (f : CtlRec → CtlRec) : (d.modCtl f).fabric = d.fabric := rfl
@[simp] theorem modCtl_plates (f : CtlRec → CtlRec) : (d.modCtl f).plates = d.plates := rfl
@[simp] theorem modCtl_mem (f : CtlRec → CtlRec) : (d.modCtl f).mem = d.mem := rfl
@[simp] theorem modCtl_rings (f : CtlRec → CtlRec) : (d.modCtl f).rings = d.rings := rfl
@[simp] theorem modCtl_strike (f : CtlRec → CtlRec) : (d.modCtl f).strike = d.strike := rfl
@[simp] theorem modCtl_ext (f : CtlRec → CtlRec) : (d.modCtl f).ext = d.ext := rfl
@[simp] theorem modCtl_load (f : CtlRec → CtlRec) : (d.modCtl f).load = d.load := rfl
@[simp] theorem modCtl_power (f : CtlRec → CtlRec) : (d.modCtl f).power = d.power := rfl
@[simp] theorem modCtl_heat (f : CtlRec → CtlRec) : (d.modCtl f).heat = d.heat := rfl
@[simp] theorem modCtl_kryup (f : CtlRec → CtlRec) : (d.modCtl f).kryup = d.kryup := rfl
@[simp] theorem modCtl_test (f : CtlRec → CtlRec) : (d.modCtl f).test = d.test := rfl
@[simp] theorem modCtl_proof (f : CtlRec → CtlRec) : (d.modCtl f).proof = d.proof := rfl
@[simp] theorem modCtl_pins (f : CtlRec → CtlRec) : (d.modCtl f).pins = d.pins := rfl
@[simp] theorem reg_modCtl (f : CtlRec → CtlRec) (i : Nat) : (d.modCtl f).reg i = d.reg i := rfl
@[simp] theorem ust_modCtl (f : CtlRec → CtlRec) (u : Nat) : (d.modCtl f).ust u = d.ust u := rfl
@[simp] theorem fld_modCtl (f : CtlRec → CtlRec) (u : Nat) (x : Fld) : (d.modCtl f).fld u x = d.fld u x := rfl
theorem parts_modCtl (f : CtlRec → CtlRec) : OnlyParts [.ctl] d (d.modCtl f) := by intro p hp; cases p <;> first | rfl | exact absurd (by simp) hp
@[simp] theorem onlyParts_modCtl (f : CtlRec → CtlRec) {l : List Part} {c : Dev} (h : Part.ctl ∈ l) : OnlyParts l c (d.modCtl f) ↔ OnlyParts l c d := onlyParts_iff (parts_modCtl d f) h
@[simp] theorem quiet_modCtl (f : CtlRec → CtlRec) : (d.modCtl f).quiet = d.quiet := rfl

/-! `modUnits` -/

@[simp] theorem modUnits_free (f : UnitsRec → UnitsRec) : (d.modUnits f).free = d.free := rfl
@[simp] theorem modUnits_regs (f : UnitsRec → UnitsRec) : (d.modUnits f).regs = d.regs := rfl
@[simp] theorem modUnits_units (f : UnitsRec → UnitsRec) : (d.modUnits f).units = f d.units := rfl
@[simp] theorem modUnits_ctl (f : UnitsRec → UnitsRec) : (d.modUnits f).ctl = d.ctl := rfl
@[simp] theorem modUnits_stack (f : UnitsRec → UnitsRec) : (d.modUnits f).stack = d.stack := rfl
@[simp] theorem modUnits_keeper (f : UnitsRec → UnitsRec) : (d.modUnits f).keeper = d.keeper := rfl
@[simp] theorem modUnits_clk (f : UnitsRec → UnitsRec) : (d.modUnits f).clk = d.clk := rfl
@[simp] theorem modUnits_ident (f : UnitsRec → UnitsRec) : (d.modUnits f).ident = d.ident := rfl
@[simp] theorem modUnits_lanes (f : UnitsRec → UnitsRec) : (d.modUnits f).lanes = d.lanes := rfl
@[simp] theorem modUnits_links (f : UnitsRec → UnitsRec) : (d.modUnits f).links = d.links := rfl
@[simp] theorem modUnits_groups (f : UnitsRec → UnitsRec) : (d.modUnits f).groups = d.groups := rfl
@[simp] theorem modUnits_fabric (f : UnitsRec → UnitsRec) : (d.modUnits f).fabric = d.fabric := rfl
@[simp] theorem modUnits_plates (f : UnitsRec → UnitsRec) : (d.modUnits f).plates = d.plates := rfl
@[simp] theorem modUnits_mem (f : UnitsRec → UnitsRec) : (d.modUnits f).mem = d.mem := rfl
@[simp] theorem modUnits_rings (f : UnitsRec → UnitsRec) : (d.modUnits f).rings = d.rings := rfl
@[simp] theorem modUnits_strike (f : UnitsRec → UnitsRec) : (d.modUnits f).strike = d.strike := rfl
@[simp] theorem modUnits_ext (f : UnitsRec → UnitsRec) : (d.modUnits f).ext = d.ext := rfl
@[simp] theorem modUnits_load (f : UnitsRec → UnitsRec) : (d.modUnits f).load = d.load := rfl
@[simp] theorem modUnits_power (f : UnitsRec → UnitsRec) : (d.modUnits f).power = d.power := rfl
@[simp] theorem modUnits_heat (f : UnitsRec → UnitsRec) : (d.modUnits f).heat = d.heat := rfl
@[simp] theorem modUnits_kryup (f : UnitsRec → UnitsRec) : (d.modUnits f).kryup = d.kryup := rfl
@[simp] theorem modUnits_test (f : UnitsRec → UnitsRec) : (d.modUnits f).test = d.test := rfl
@[simp] theorem modUnits_proof (f : UnitsRec → UnitsRec) : (d.modUnits f).proof = d.proof := rfl
@[simp] theorem modUnits_pins (f : UnitsRec → UnitsRec) : (d.modUnits f).pins = d.pins := rfl
@[simp] theorem reg_modUnits (f : UnitsRec → UnitsRec) (i : Nat) : (d.modUnits f).reg i = d.reg i := rfl
@[simp] theorem ust_modUnits (f : UnitsRec → UnitsRec) (u : Nat) : (d.modUnits f).ust u = d.ust u := rfl
@[simp] theorem fld_modUnits (f : UnitsRec → UnitsRec) (u : Nat) (x : Fld) : (d.modUnits f).fld u x = d.fld u x := rfl
theorem parts_modUnits (f : UnitsRec → UnitsRec) : OnlyParts [.units] d (d.modUnits f) := by intro p hp; cases p <;> first | rfl | exact absurd (by simp) hp
@[simp] theorem onlyParts_modUnits (f : UnitsRec → UnitsRec) {l : List Part} {c : Dev} (h : Part.units ∈ l) : OnlyParts l c (d.modUnits f) ↔ OnlyParts l c d := onlyParts_iff (parts_modUnits d f) h
@[simp] theorem quiet_modUnits (f : UnitsRec → UnitsRec) : (d.modUnits f).quiet = d.quiet := rfl

/-! `modStack` -/

@[simp] theorem modStack_free (f : StackRec → StackRec) : (d.modStack f).free = d.free := rfl
@[simp] theorem modStack_regs (f : StackRec → StackRec) : (d.modStack f).regs = d.regs := rfl
@[simp] theorem modStack_units (f : StackRec → StackRec) : (d.modStack f).units = d.units := rfl
@[simp] theorem modStack_ctl (f : StackRec → StackRec) : (d.modStack f).ctl = d.ctl := rfl
@[simp] theorem modStack_stack (f : StackRec → StackRec) : (d.modStack f).stack = f d.stack := rfl
@[simp] theorem modStack_keeper (f : StackRec → StackRec) : (d.modStack f).keeper = d.keeper := rfl
@[simp] theorem modStack_clk (f : StackRec → StackRec) : (d.modStack f).clk = d.clk := rfl
@[simp] theorem modStack_ident (f : StackRec → StackRec) : (d.modStack f).ident = d.ident := rfl
@[simp] theorem modStack_lanes (f : StackRec → StackRec) : (d.modStack f).lanes = d.lanes := rfl
@[simp] theorem modStack_links (f : StackRec → StackRec) : (d.modStack f).links = d.links := rfl
@[simp] theorem modStack_groups (f : StackRec → StackRec) : (d.modStack f).groups = d.groups := rfl
@[simp] theorem modStack_fabric (f : StackRec → StackRec) : (d.modStack f).fabric = d.fabric := rfl
@[simp] theorem modStack_plates (f : StackRec → StackRec) : (d.modStack f).plates = d.plates := rfl
@[simp] theorem modStack_mem (f : StackRec → StackRec) : (d.modStack f).mem = d.mem := rfl
@[simp] theorem modStack_rings (f : StackRec → StackRec) : (d.modStack f).rings = d.rings := rfl
@[simp] theorem modStack_strike (f : StackRec → StackRec) : (d.modStack f).strike = d.strike := rfl
@[simp] theorem modStack_ext (f : StackRec → StackRec) : (d.modStack f).ext = d.ext := rfl
@[simp] theorem modStack_load (f : StackRec → StackRec) : (d.modStack f).load = d.load := rfl
@[simp] theorem modStack_power (f : StackRec → StackRec) : (d.modStack f).power = d.power := rfl
@[simp] theorem modStack_heat (f : StackRec → StackRec) : (d.modStack f).heat = d.heat := rfl
@[simp] theorem modStack_kryup (f : StackRec → StackRec) : (d.modStack f).kryup = d.kryup := rfl
@[simp] theorem modStack_test (f : StackRec → StackRec) : (d.modStack f).test = d.test := rfl
@[simp] theorem modStack_proof (f : StackRec → StackRec) : (d.modStack f).proof = d.proof := rfl
@[simp] theorem modStack_pins (f : StackRec → StackRec) : (d.modStack f).pins = d.pins := rfl
@[simp] theorem reg_modStack (f : StackRec → StackRec) (i : Nat) : (d.modStack f).reg i = d.reg i := rfl
@[simp] theorem ust_modStack (f : StackRec → StackRec) (u : Nat) : (d.modStack f).ust u = d.ust u := rfl
@[simp] theorem fld_modStack (f : StackRec → StackRec) (u : Nat) (x : Fld) : (d.modStack f).fld u x = d.fld u x := rfl
theorem parts_modStack (f : StackRec → StackRec) : OnlyParts [.stack] d (d.modStack f) := by intro p hp; cases p <;> first | rfl | exact absurd (by simp) hp
@[simp] theorem onlyParts_modStack (f : StackRec → StackRec) {l : List Part} {c : Dev} (h : Part.stack ∈ l) : OnlyParts l c (d.modStack f) ↔ OnlyParts l c d := onlyParts_iff (parts_modStack d f) h
@[simp] theorem quiet_modStack (f : StackRec → StackRec) (h : (f d.stack).meets = d.stack.meets) :
    (d.modStack f).quiet = d.quiet := quiet_congr rfl rfl rfl h

/-! `modFabric` -/

@[simp] theorem modFabric_free (f : FabricRec → FabricRec) : (d.modFabric f).free = d.free := rfl
@[simp] theorem modFabric_regs (f : FabricRec → FabricRec) : (d.modFabric f).regs = d.regs := rfl
@[simp] theorem modFabric_units (f : FabricRec → FabricRec) : (d.modFabric f).units = d.units := rfl
@[simp] theorem modFabric_ctl (f : FabricRec → FabricRec) : (d.modFabric f).ctl = d.ctl := rfl
@[simp] theorem modFabric_stack (f : FabricRec → FabricRec) : (d.modFabric f).stack = d.stack := rfl
@[simp] theorem modFabric_keeper (f : FabricRec → FabricRec) : (d.modFabric f).keeper = d.keeper := rfl
@[simp] theorem modFabric_clk (f : FabricRec → FabricRec) : (d.modFabric f).clk = d.clk := rfl
@[simp] theorem modFabric_ident (f : FabricRec → FabricRec) : (d.modFabric f).ident = d.ident := rfl
@[simp] theorem modFabric_lanes (f : FabricRec → FabricRec) : (d.modFabric f).lanes = d.lanes := rfl
@[simp] theorem modFabric_links (f : FabricRec → FabricRec) : (d.modFabric f).links = d.links := rfl
@[simp] theorem modFabric_groups (f : FabricRec → FabricRec) : (d.modFabric f).groups = d.groups := rfl
@[simp] theorem modFabric_fabric (f : FabricRec → FabricRec) : (d.modFabric f).fabric = f d.fabric := rfl
@[simp] theorem modFabric_plates (f : FabricRec → FabricRec) : (d.modFabric f).plates = d.plates := rfl
@[simp] theorem modFabric_mem (f : FabricRec → FabricRec) : (d.modFabric f).mem = d.mem := rfl
@[simp] theorem modFabric_rings (f : FabricRec → FabricRec) : (d.modFabric f).rings = d.rings := rfl
@[simp] theorem modFabric_strike (f : FabricRec → FabricRec) : (d.modFabric f).strike = d.strike := rfl
@[simp] theorem modFabric_ext (f : FabricRec → FabricRec) : (d.modFabric f).ext = d.ext := rfl
@[simp] theorem modFabric_load (f : FabricRec → FabricRec) : (d.modFabric f).load = d.load := rfl
@[simp] theorem modFabric_power (f : FabricRec → FabricRec) : (d.modFabric f).power = d.power := rfl
@[simp] theorem modFabric_heat (f : FabricRec → FabricRec) : (d.modFabric f).heat = d.heat := rfl
@[simp] theorem modFabric_kryup (f : FabricRec → FabricRec) : (d.modFabric f).kryup = d.kryup := rfl
@[simp] theorem modFabric_test (f : FabricRec → FabricRec) : (d.modFabric f).test = d.test := rfl
@[simp] theorem modFabric_proof (f : FabricRec → FabricRec) : (d.modFabric f).proof = d.proof := rfl
@[simp] theorem modFabric_pins (f : FabricRec → FabricRec) : (d.modFabric f).pins = d.pins := rfl
@[simp] theorem reg_modFabric (f : FabricRec → FabricRec) (i : Nat) : (d.modFabric f).reg i = d.reg i := rfl
@[simp] theorem ust_modFabric (f : FabricRec → FabricRec) (u : Nat) : (d.modFabric f).ust u = d.ust u := rfl
@[simp] theorem fld_modFabric (f : FabricRec → FabricRec) (u : Nat) (x : Fld) : (d.modFabric f).fld u x = d.fld u x := rfl
theorem parts_modFabric (f : FabricRec → FabricRec) : OnlyParts [.fabric] d (d.modFabric f) := by intro p hp; cases p <;> first | rfl | exact absurd (by simp) hp
@[simp] theorem onlyParts_modFabric (f : FabricRec → FabricRec) {l : List Part} {c : Dev} (h : Part.fabric ∈ l) : OnlyParts l c (d.modFabric f) ↔ OnlyParts l c d := onlyParts_iff (parts_modFabric d f) h
@[simp] theorem quiet_modFabric (f : FabricRec → FabricRec) : (d.modFabric f).quiet = d.quiet := rfl

/-! `modRings` -/

@[simp] theorem modRings_free (f : RingRec → RingRec) : (d.modRings f).free = d.free := rfl
@[simp] theorem modRings_regs (f : RingRec → RingRec) : (d.modRings f).regs = d.regs := rfl
@[simp] theorem modRings_units (f : RingRec → RingRec) : (d.modRings f).units = d.units := rfl
@[simp] theorem modRings_ctl (f : RingRec → RingRec) : (d.modRings f).ctl = d.ctl := rfl
@[simp] theorem modRings_stack (f : RingRec → RingRec) : (d.modRings f).stack = d.stack := rfl
@[simp] theorem modRings_keeper (f : RingRec → RingRec) : (d.modRings f).keeper = d.keeper := rfl
@[simp] theorem modRings_clk (f : RingRec → RingRec) : (d.modRings f).clk = d.clk := rfl
@[simp] theorem modRings_ident (f : RingRec → RingRec) : (d.modRings f).ident = d.ident := rfl
@[simp] theorem modRings_lanes (f : RingRec → RingRec) : (d.modRings f).lanes = d.lanes := rfl
@[simp] theorem modRings_links (f : RingRec → RingRec) : (d.modRings f).links = d.links := rfl
@[simp] theorem modRings_groups (f : RingRec → RingRec) : (d.modRings f).groups = d.groups := rfl
@[simp] theorem modRings_fabric (f : RingRec → RingRec) : (d.modRings f).fabric = d.fabric := rfl
@[simp] theorem modRings_plates (f : RingRec → RingRec) : (d.modRings f).plates = d.plates := rfl
@[simp] theorem modRings_mem (f : RingRec → RingRec) : (d.modRings f).mem = d.mem := rfl
@[simp] theorem modRings_rings (f : RingRec → RingRec) : (d.modRings f).rings = f d.rings := rfl
@[simp] theorem modRings_strike (f : RingRec → RingRec) : (d.modRings f).strike = d.strike := rfl
@[simp] theorem modRings_ext (f : RingRec → RingRec) : (d.modRings f).ext = d.ext := rfl
@[simp] theorem modRings_load (f : RingRec → RingRec) : (d.modRings f).load = d.load := rfl
@[simp] theorem modRings_power (f : RingRec → RingRec) : (d.modRings f).power = d.power := rfl
@[simp] theorem modRings_heat (f : RingRec → RingRec) : (d.modRings f).heat = d.heat := rfl
@[simp] theorem modRings_kryup (f : RingRec → RingRec) : (d.modRings f).kryup = d.kryup := rfl
@[simp] theorem modRings_test (f : RingRec → RingRec) : (d.modRings f).test = d.test := rfl
@[simp] theorem modRings_proof (f : RingRec → RingRec) : (d.modRings f).proof = d.proof := rfl
@[simp] theorem modRings_pins (f : RingRec → RingRec) : (d.modRings f).pins = d.pins := rfl
@[simp] theorem reg_modRings (f : RingRec → RingRec) (i : Nat) : (d.modRings f).reg i = d.reg i := rfl
@[simp] theorem ust_modRings (f : RingRec → RingRec) (u : Nat) : (d.modRings f).ust u = d.ust u := rfl
@[simp] theorem fld_modRings (f : RingRec → RingRec) (u : Nat) (x : Fld) : (d.modRings f).fld u x = d.fld u x := rfl
theorem parts_modRings (f : RingRec → RingRec) : OnlyParts [.rings] d (d.modRings f) := by intro p hp; cases p <;> first | rfl | exact absurd (by simp) hp
@[simp] theorem onlyParts_modRings (f : RingRec → RingRec) {l : List Part} {c : Dev} (h : Part.rings ∈ l) : OnlyParts l c (d.modRings f) ↔ OnlyParts l c d := onlyParts_iff (parts_modRings d f) h
@[simp] theorem quiet_modRings (f : RingRec → RingRec) : (d.modRings f).quiet = d.quiet := rfl

end Sys2Proof.Machine
end

