-- ==== Sys2Proof/Laws/Step.lean ====
section
/-!
SUPPORT. A step, the end of a command and an access of a path, each said once.
-/
namespace Sys2Proof.Machine

theorem step_nil {s : State} (h : s.pending = []) : step s = onDev opIdle s := by unfold step; rw [h]

theorem step_cons {s : State} {c : Instr} {rest : List Instr} (h : s.pending = c :: rest) :
    step s = exec c { s with pending := rest } := by unfold step; rw [h]

/-- A command that an update of the machine makes answers a next state and leaves the queue. -/
theorem onDev_next (f : Dev → Dev) (s : State) : onDev f s = .next { s with dev := (f s.dev).settle } := rfl

theorem Dev.quiet_iff (d : Dev) : d.quiet = true ↔
    d.kryup.due = [] ∧ d.clk.changeHeld = false ∧ d.clk.loopsDown = [] ∧ d.flag rootBase Reg.IRQ_CTRL.EVT_EN = false ∧
      d.stack.meets = [] := by
  simp [Dev.quiet, and_assoc]

@[simp] theorem State.quiet_eq (s : State) : s.quiet = s.dev.quiet := rfl

theorem heldChange_none {d : Dev} (h : d.clk.changeHeld = false) : d.heldChange = d := by
  unfold Dev.heldChange; rw [h]; simp

theorem irqUpdate_off {d : Dev} (h : d.flag rootBase Reg.IRQ_CTRL.EVT_EN = false) : d.irqUpdate = d := by
  unfold Dev.irqUpdate; rw [h]; simp

theorem loopsFall_none {d : Dev} (h : d.clk.loopsDown = []) : d.loopsFall = d := by unfold Dev.loopsFall; rw [if_pos h]

/-- Nothing follows a command that leaves the machine quiet. -/
theorem settle_of_quiet {d : Dev} (h : d.quiet) : d.settle = d := by
  obtain ⟨h1, h2, h3, h4, -⟩ := d.quiet_iff.mp h
  have e : d.takeDue = d := by unfold Dev.takeDue; rw [if_pos h1]
  unfold Dev.settle
  rw [loopsFall_none h3, e, heldChange_none h2, irqUpdate_off h4]

/-- A command of a quiet machine that touches neither the causes nor the clocks is its update and nothing more. -/
theorem onDev_quiet {f : Dev → Dev} {s : State} (h : (f s.dev).quiet) : onDev f s = .next { s with dev := f s.dev } := by
  rw [onDev_next, settle_of_quiet h]

/-- A completion shown by what the update leaves, in a machine that it leaves quiet. -/
theorem completes_quiet {c : Instr} {s : State} {f : Dev → Dev} {P : Dev → Prop} (he : exec c s = onDev f s)
    (hq : (f s.dev).quiet) (hp : P (f s.dev)) : Completes c s P :=
  ⟨_, he.trans (onDev_quiet hq), rfl, hp⟩

theorem completes_any {c : Instr} {s : State} {f : Dev → Dev} {P : Dev → Prop} (he : exec c s = onDev f s)
    (hp : P (f s.dev).settle) : Completes c s P :=
  ⟨_, he.trans (onDev_next f s), rfl, hp⟩

/-! ## Accesses -/

theorem Dev.reached_iff (d : Dev) (path addr : Nat) :
    d.reached path addr = true ↔ d.grantedNow path addr = true ∧ d.admission path addr = stOk ∧
      d.implemented path addr = true ∧ d.turnedAway addr = false := by
  simp [Dev.reached, and_assoc]

/-- An access that reaches its register does what it does, and completes. -/
theorem arrive_reached {d : Dev} {a : Access} {f : Dev → Dev × Nat × Word} (h : d.reached a.path a.addr) :
    d.arrive a f =
      (if (f d).2.1 = stOk then (f d).1 else (f d).1.accErr a.path a.addr).finish a.path (f d).2.1 (f d).2.2 := by
  obtain ⟨h0, h1, h2, h3⟩ := (d.reached_iff _ _).mp h
  simp [Dev.arrive, Dev.perform, h0, h1, h2, h3, stOk]

/-- A read that reaches its register answers what it reads. -/
theorem viaRead_reached {d : Dev} {path addr : Nat} {f : Dev → Dev × Nat × Word} (h : d.reached path addr) :
    d.viaRead path addr f =
      (if (f d).2.1 = stOk then (f d).1 else (f d).1.accErr path addr).finish path (f d).2.1 (f d).2.2 :=
  arrive_reached (a := { path := path, addr := addr }) h

/-- A write that reaches its register has its effect and completes with status 0. -/
theorem viaWord_reached {d : Dev} {path addr : Nat} {w : Word} {f : Dev → Dev} (h : d.reached path addr) :
    d.viaWord path addr w f = (f d).finish path stOk 0 := by
  unfold Dev.viaWord
  rw [arrive_reached (a := { path := path, write := true, addr := addr, data := w }) h]; simp

theorem viaCtl_reached {d : Dev} {path addr : Nat} {l : List (Fld × Nat)} {f : Dev → Dev} (h : d.reached path addr) :
    d.viaCtl path addr l f = (f d).finish path stOk 0 := viaWord_reached h

/-- A write of a KW register by another path than Kryup's is refused and changes nothing of its target (R6, R92). -/
theorem viaKw_denied {d : Dev} {path addr : Nat} {w : Word} {f : Dev → Dev} (h : d.reached path addr) (hp : path ≠ pathKryup) :
    d.viaKw path addr w f = ((d.kwCause path addr).accErr path addr).finish path stDenied 0 := by
  unfold Dev.viaKw
  rw [arrive_reached (a := { path := path, write := true, addr := addr, data := w }) h]; simp [hp, stDenied, stOk]

/-- An access that comes where no register answers completes, reads 0 and is logged (R83). -/
theorem arrive_absent {d : Dev} {a : Access} {f : Dev → Dev × Nat × Word} (h0 : d.grantedNow a.path a.addr = true)
    (h1 : d.admission a.path a.addr = stOk) (h2 : d.implemented a.path a.addr = false ∨ d.turnedAway a.addr = true) :
    d.arrive a f = (d.accErr a.path a.addr).finish a.path stOk 0 := by
  simp only [Dev.arrive, Dev.perform, h0, h1]
  rcases h2 with h2 | h2 <;> simp [h2]

/-- An access that cannot be granted now waits, and no register of its target changes. -/
theorem arrive_waits {d : Dev} {a : Access} {f : Dev → Dev × Nat × Word} (h : d.grantedNow a.path a.addr = false) :
    d.arrive a f = d.enqueue a := by simp [Dev.arrive, h]

@[simp] theorem finish_answered (d : Dev) (p st : Nat) (w : Word) : (d.finish p st w).answered p st w := by
  simp [Dev.finish, Dev.answered]

end Sys2Proof.Machine
end

