-- ==== Sys2Proof/Laws/Causes.lean ====
section
/-!
SUPPORT. A cause that arrives while its latch is set: it is counted as an arrival, and no action is taken (R450, R451).
-/
namespace Sys2Proof.Machine

/-- The machine after a cause has arrived whose latch is set. -/
def Dev.arrivesAgain (d : Dev) (c : Nat) : Dev :=
  ((d.setLatch c true).modKryup fun k => { k with lastTick := k.lastTick.put c d.tick }).showLatches

theorem raiseCauses_latched (n : Nat) (d : Dev) (c : Nat) (w : Word) (h : d.latched c) :
    Dev.raiseCauses (n + 1) d [(c, w)] = d.arrivesAgain c := by
  simp [Dev.raiseCauses, h, firstOf, Dev.each, Dev.arrivesAgain, Dev.tick, Dev.setLatch]

/-- The arrival touches Kryup's registers and records alone. -/
theorem arrivesAgain_parts (d : Dev) (c : Nat) : OnlyParts [.regs, .kryup] d (d.arrivesAgain c) := by
  intro p hp
  cases p <;> simp_all [Part.same, Dev.arrivesAgain, Dev.showLatches, Dev.setLatch]

/-- The registers that an arrival writes are CAUSE_PEND and KRY_STATUS. -/
theorem reg_arrivesAgain (d : Dev) (c a : Nat) (h1 : a ≠ kryupBase + Reg.CAUSE_PEND.LATCH.off)
    (h2 : a ≠ kryupBase + Reg.KRY_STATUS.HOLD.off) : (d.arrivesAgain c).reg a = d.reg a := by
  have h3 : a ≠ kryupBase + Reg.KRY_STATUS.ALARM.off := h2
  simp only [Dev.arrivesAgain, Dev.showLatches, Dev.setLatch, reg_setFld, reg_modKryup, if_neg h1, if_neg h2, if_neg h3]

/-- Nothing waits after it. -/
theorem arrivesAgain_due (d : Dev) (c : Nat) : (d.arrivesAgain c).kryup.due = d.kryup.due := by
  simp [Dev.arrivesAgain, Dev.showLatches, Dev.setLatch]

/-- Nor do the clocks or IRQ_CTRL change. -/
theorem arrivesAgain_clk (d : Dev) (c : Nat) : (d.arrivesAgain c).clk = d.clk := by
  simp [Dev.arrivesAgain, Dev.showLatches, Dev.setLatch]

theorem arrivesAgain_irq (d : Dev) (c : Nat) :
    (d.arrivesAgain c).flag rootBase Reg.IRQ_CTRL.EVT_EN = d.flag rootBase Reg.IRQ_CTRL.EVT_EN := by
  have h1 : rootBase + Reg.IRQ_CTRL.EVT_EN.off ≠ kryupBase + Reg.CAUSE_PEND.LATCH.off := by decide
  have h2 : rootBase + Reg.IRQ_CTRL.EVT_EN.off ≠ kryupBase + Reg.KRY_STATUS.HOLD.off := by decide
  unfold Dev.flag Dev.fld
  rw [reg_arrivesAgain _ _ _ h1 h2]

theorem takeDue_latched {d : Dev} {c : Nat} {w : Word} (hd : d.kryup.due = [(c, w)]) (hl : d.latched c) :
    d.takeDue = ((d.modKryup fun k => { k with due := [] }).arrivesAgain c).modKryup fun k => { k with due := [] } := by
  unfold Dev.takeDue
  rw [if_neg (by simp [hd]), hd, raiseCauses_latched]
  exact hl

/-- A command that offers one cause, whose latch is set: what follows is the arrival alone. -/
theorem settle_latched {d : Dev} {c : Nat} {w : Word} (hd : d.kryup.due = [(c, w)]) (hl : d.latched c)
    (hc : d.clk.changeHeld = false) (hn : d.clk.loopsDown = []) (hi : d.flag rootBase Reg.IRQ_CTRL.EVT_EN = false) :
    d.settle = ((d.modKryup fun k => { k with due := [] }).arrivesAgain c).modKryup fun k => { k with due := [] } := by
  unfold Dev.settle
  rw [loopsFall_none hn, takeDue_latched hd hl, heldChange_none, irqUpdate_off]
  · unfold Dev.flag at hi ⊢
    have := arrivesAgain_irq (d.modKryup fun k => { k with due := [] }) c
    unfold Dev.flag at this
    rw [fld_modKryup, this, fld_modKryup, hi]
  · rw [modKryup_clk, arrivesAgain_clk]; exact hc

end Sys2Proof.Machine
end

