-- ==== Sys2Proof/Laws/Memory.lean ====
section
/-!
SUPPORT. The bytes of the memory dies: what a write of a row word leaves, and that every operation on banks keeps the one form of
the store; and that the places of LPDDR5X bytes are all different.
-/
namespace Sys2Proof.Machine

variable {d : Dev}

theorem SMap.wf_keep {α : Type} [DecidableEq α] {m : SMap α} {f : Nat → α} (p : Nat → Bool) (h : m.wf f) : (m.keep p).wf f :=
  wf_filter _ h

/-- Putting a value that is no default keeps the form. -/
theorem SMap.wf_put {α : Type} [DecidableEq α] {m : SMap α} {f : Nat → α} {k : Nat} {v : α} (hv : v ≠ f k) (h : m.wf f) :
    (m.put k v).wf f := by
  have := wf_set k v h
  rwa [SMap.set, if_neg hv] at this

theorem SMap.wf_empty {α : Type} [DecidableEq α] (f : Nat → α) : (⟨[]⟩ : SMap α).wf f := rfl

/-- What a run of sets at consecutive addresses reads. -/
theorem at_setRun (f : Nat → Byte) (base a : Nat) (l : List Nat) (m : SMap Byte) (hl : l.Nodup) :
    (l.foldl (fun b i => b.set (base + i) 0 (f i)) m).at a 0 =
      if base ≤ a ∧ a - base ∈ l then f (a - base) else m.at a 0 := by
  induction l generalizing m with
  | nil => simp
  | cons i t ih =>
    obtain ⟨hi, ht⟩ := List.nodup_cons.mp hl
    rw [List.foldl_cons, ih _ ht, SMap.at_set _ _ _ _ _ _ fun _ => rfl]
    by_cases h1 : base ≤ a
    · by_cases h2 : a - base ∈ t
      · simp [h1, h2]
      · by_cases h3 : a = base + i
        · subst h3; simp
        · have : a - base ≠ i := by omega
          simp [h1, h2, h3, this]
    · have : a ≠ base + i := by omega
      simp [h1, this]

/-- A byte after a row word is written: the word's own 32 bytes change, and no other. -/
theorem putWord_byte (p a : Nat) (v : RowWord) :
    (d.putWord p v).mem.bytes.at a 0 = if a / 32 = p then byteOf v.toNat (a % 32) else d.mem.bytes.at a 0 := by
  have h : 32 * p ≤ a ∧ a - 32 * p ∈ List.range 32 ↔ a / 32 = p := by rw [List.mem_range]; omega
  simp only [Dev.putWord, Dev.modMem, at_setRun _ _ _ _ _ List.nodup_range, h]
  split
  · rename_i h2; rw [← h2]; congr 1; omega
  · rfl

/-- Every other word keeps its data. -/
theorem putWord_wordData {p q : Nat} (h : q ≠ p) (v : RowWord) : (d.putWord p v).wordData q = d.wordData q := by
  unfold Dev.wordData
  congr 2
  refine List.map_congr_left fun i hi => ?_
  rw [putWord_byte, if_neg]
  rw [List.mem_range] at hi; omega

/-- A word just written has no error. -/
@[simp] theorem putWord_wordCheck (p : Nat) (v : RowWord) : (d.putWord p v).wordCheck p = memOk := by
  have h : (d.putWord p v).mem.err.at p 0 = 0 := by simp [Dev.putWord, Dev.modMem, SMap.at]
  rw [Dev.wordCheck, h]; decide

theorem putWord_frame (p : Nat) (v : RowWord) : d.putWord p v = { d with mem := (d.putWord p v).mem } := rfl

/-- What a map reads once the keys that fail a condition are dropped. -/
theorem lookItem_keep {α : Type} (p : Nat → Bool) (a : Nat) (l : List (Nat × α)) :
    lookItem a (l.filter fun e => p e.1) = if p a then lookItem a l else none := by
  induction l with
  | nil => simp [lookItem]
  | cons e t ih =>
    obtain ⟨k, x⟩ := e
    by_cases h : p k = true
    · rw [List.filter_cons_of_pos (p := fun e : Nat × α => p e.1) h, lookItem, lookItem, ih]
      by_cases hk : a = k
      · subst hk; simp [h]
      · simp [hk]
    · rw [List.filter_cons_of_neg (p := fun e : Nat × α => p e.1) h, ih, lookItem]
      by_cases hk : a = k
      · subst hk; simp [h]
      · simp [hk]

theorem SMap.look_keep {α : Type} (m : SMap α) (p : Nat → Bool) (a : Nat) :
    (m.keep p).look a = if p a then m.look a else none := lookItem_keep p a m.items

/-- A marched bank holds 0, and no other bank changes. -/
theorem zeroBank_byte (bank a : Nat) :
    (d.zeroBank bank).mem.bytes.at a 0 = if a / 2 ^ 19 = bank then 0 else d.mem.bytes.at a 0 := by
  show ((d.mem.bytes.keep fun a => a / 2 ^ 19 != bank).look a).getD 0 = _
  rw [SMap.look_keep]
  by_cases h : a / 2 ^ 19 = bank
  · rw [if_pos h, if_neg (by rw [h]; simp)]; rfl
  · rw [if_neg h, if_pos (bne_iff_ne.mpr h)]; rfl

/-! ## The one form is kept -/

theorem setRun_wf (f : Nat → Byte) (base : Nat) (l : List Nat) (m : SMap Byte) (h : m.wf fun _ => 0) :
    (l.foldl (fun b i => b.set (base + i) 0 (f i)) m).wf fun _ => 0 := by
  induction l generalizing m with
  | nil => exact h
  | cons i t ih => exact ih _ (SMap.wf_set _ _ h)

theorem putWord_wf (p : Nat) (v : RowWord) (h : d.memWf) : (d.putWord p v).memWf := setRun_wf _ _ _ _ h

theorem zeroBank_wf (bank : Nat) (h : d.memWf) : (d.zeroBank bank).memWf := SMap.wf_keep _ h

theorem putRun_wf (g : Nat × Byte → Nat) (l : List (Nat × Byte)) (m : SMap Byte) (hl : ∀ e ∈ l, e.2 ≠ 0)
    (h : m.wf fun _ => 0) : (l.foldl (fun b e => b.put (g e) e.2) m).wf fun _ => 0 := by
  induction l generalizing m with
  | nil => exact h
  | cons e t ih => exact ih _ (fun x hx => hl x (List.mem_cons_of_mem _ hx)) (SMap.wf_put (hl e List.mem_cons_self) h)

/-- A read over a port changes no byte. -/
@[simp] theorem readOver_bytes (w p src : Nat) (via : BitVec 266) : (d.readOver w p src via).1.mem.bytes = d.mem.bytes := by
  have hs : (d.countSec (wordColumn w)).mem = d.mem := rfl
  have hl (e : Dev) (r : Bool) : (e.logDed w r src).mem = e.mem := by unfold Dev.logDed; simp only; split <;> rfl
  unfold Dev.readOver
  simp only
  split
  · split <;> simp [Dev.modMem, hs]
  · split
    · simp only [hl]; rfl
    · rfl

theorem copyBank_wf (src dst home : Nat) (h : d.memWf) : (d.copyBank src dst home).memWf := by
  have hr (l : List Nat) (e : Dev) :
      (l.foldl (fun d p => d.noteRead (home * 16384 + p % 16384) p srcScrub) e).mem.bytes = e.mem.bytes := by
    induction l generalizing e with
    | nil => rfl
    | cons p t ih => rw [List.foldl_cons, ih]; exact readOver_bytes ..
  unfold Dev.copyBank Dev.each
  simp only [Dev.memWf, Dev.modMem, hr]
  refine putRun_wf _ _ _ (fun e he => ?_) (SMap.wf_keep _ h)
  have hm := (List.mem_filter.mp he).1
  simp only [Dev.memWf, SMap.wf, Bool.and_eq_true, List.all_eq_true] at h
  simpa using h.2 e hm

/-- Updates of the memory that leave the bytes alone, or drop some, keep the form. -/
theorem modMem_wf {f : MemRec → MemRec} (hf : (f d.mem).bytes = d.mem.bytes) (h : d.memWf) : (d.modMem f).memWf := by
  unfold Dev.memWf Dev.modMem; rw [hf]; exact h

theorem modMem_keep_wf {f : MemRec → MemRec} {p : Nat → Bool} (hf : (f d.mem).bytes = d.mem.bytes.keep p) (h : d.memWf) :
    (d.modMem f).memWf := by
  unfold Dev.memWf Dev.modMem; rw [hf]; exact SMap.wf_keep _ h

theorem reset_memWf : State.reset.dev.memWf := by decide

/-- No two bytes of the data space lie at one place of the LPDDR5X (R309). -/
theorem extPlace_inj {v w : Nat} (hv : v < 2 ^ 52) (hw : w < 2 ^ 52) (hc : extChannel v = extChannel w)
    (ha : extChanAddr v = extChanAddr w) : v = w := by
  simp only [extChannel, extChanAddr, bitsOf, Nat.shiftRight_eq_div_pow, Nat.reducePow] at *
  omega

end Sys2Proof.Machine
end

