-- ==== Sys2Proof/Laws/Units.lean ====
section
/-!
SUPPORT. Units: a change of a unit's state touches, above the unit, the STATE and EVENT registers of the galleys that hold it
and nothing else (R74).
-/
namespace Sys2Proof.Machine

/-- A hard unit: a window base that is no shell's. -/
def Hard (b : Nat) : Prop := b % 0x1000 = 0 ∧ (unitOf b).blk ≠ .shell

theorem ite_some {α : Type} {c : Prop} [Decidable c] {x u : α} {y : Option α} (P : α → Prop) (hx : c → P x)
    (hy : ¬c → y = some u → P u) (h : (if c then some x else y) = some u) : P u := by
  by_cases hc : c
  · rw [if_pos hc] at h; injection h with h; subst h; exact hx hc
  · rw [if_neg hc] at h; exact hy hc h

/-- Column units and lanes are as many as the stack and the lane groups hold. -/
theorem unitAt_bounds {a : Nat} {u : Machine.Unit} (h : unitAt a = some u) :
    (u.blk = .column → u.idx < 0x500) ∧ (u.blk = .hitLane ∨ u.blk = .trunkLane → u.idx < 144) := by
  unfold unitAt at h
  dsimp only at h
  revert h
  repeat'
    (intro h
     refine ite_some (fun u => (u.blk = .column → u.idx < 0x500) ∧
       (u.blk = .hitLane ∨ u.blk = .trunkLane → u.idx < 144)) ?_ ?_ h <;> clear h <;> intro hc)
  all_goals first
    | (intro h; cases h; done)
    | (refine ⟨fun k => ?_, fun k => ?_⟩ <;> first | (dsimp only; omega) | (exfalso; simp at k))

theorem unitOf_bounds (b : Nat) :
    ((unitOf b).blk = .column → (unitOf b).idx < 0x500) ∧
      ((unitOf b).blk = .hitLane ∨ (unitOf b).blk = .trunkLane → (unitOf b).idx < 144) := by
  unfold unitOf
  cases h : unitAt b with
  | none => exact ⟨fun k => absurd k (by decide), fun k => absurd k (by decide)⟩
  | some u => exact unitAt_bounds h

theorem hard_layer {l : Nat} (h : l < 5) : Hard (layerBase l) := by
  rcases (show l = 0 ∨ l = 1 ∨ l = 2 ∨ l = 3 ∨ l = 4 by omega) with rfl | rfl | rfl | rfl | rfl <;> exact ⟨rfl, by decide⟩

theorem hard_laneGroup {g : Nat} (h : g < 18) : Hard (laneGroupBase g) := by
  have : ∀ g : Fin 18, laneGroupBase g % 0x1000 = 0 ∧ (unitOf (laneGroupBase g)).blk ≠ .shell := by decide
  exact this ⟨g, h⟩

/-- The tree above a unit depends on the user units alone. -/
theorem parent_congr {d e : Dev} (h : e.units.user = d.units.user) (b : Nat) : e.parent b = d.parent b := by
  unfold Dev.parent; rw [h]

theorem parent_hard {d : Dev} {b p : Nat} (hb : Hard b) (hp : d.parent b = some p) : Hard p := by
  unfold Dev.parent at hp
  have hs := hb.2
  cases hk : (unitOf b).blk <;> simp only [hk] at hp hs
  all_goals first | (exact absurd rfl hs) | (cases hp; done) | skip
  all_goals simp only [Option.some.injEq] at hp
  all_goals subst hp
  all_goals first
    | exact ⟨rfl, by decide⟩
    | exact hard_layer (by have := (unitOf_bounds b).1 hk; unfold Unit.layer; omega)
    | exact hard_laneGroup (by have := (unitOf_bounds b).2 (by simp [hk]); omega)

/-- Bringing STATE up to date writes STATE and EVENT registers of units alone. -/
theorem reg_refresh (n : Nat) : ∀ (d : Dev) (b : Nat), Hard b → ∀ a : Nat, a % 0x1000 ≠ Reg.STATE.STATE.off →
    a % 0x1000 ≠ Reg.EVENT.FAULT.off → (d.refresh n b).reg a = d.reg a := by
  induction n with
  | zero => intros; rfl
  | succ n ih =>
    intro d b hb a h1 h2
    have e1 : a ≠ b + Reg.STATE.STATE.off := by
      rintro rfl; apply h1; have := hb.1; simp only [Reg.STATE.STATE]; omega
    have e2 : a ≠ b + Reg.EVENT.STATE_CHANGE.off := by
      rintro rfl; apply h2; have := hb.1; simp only [Reg.EVENT.STATE_CHANGE, Reg.EVENT.FAULT]; omega
    unfold Dev.refresh
    simp only
    split
    · rfl
    · split
      · simp only [reg_raise, reg_setFld, if_neg e1, if_neg e2]
      · rename_i hp
        rw [ih _ _ (parent_hard hb hp) a h1 h2]
        simp only [reg_raise, reg_setFld, if_neg e1, if_neg e2]

/-- No unit's own sequencer moves. -/
theorem self_refresh (n : Nat) : ∀ (d : Dev) (b : Nat), Hard b → ∀ c : Nat, c % 0x1000 = 0 →
    (d.refresh n b).fld c Reg.STATE.SELF = d.fld c Reg.STATE.SELF := by
  induction n with
  | zero => intros; rfl
  | succ n ih =>
    intro d b hb c hc
    have e2 : c + Reg.STATE.SELF.off ≠ b + Reg.EVENT.STATE_CHANGE.off := by
      have := hb.1; simp only [Reg.EVENT.STATE_CHANGE, Reg.STATE.SELF]; omega
    have key : ((d.setFld b Reg.STATE.STATE (d.aggregate b).code).raise b Reg.EVENT.STATE_CHANGE).fld c Reg.STATE.SELF =
        d.fld c Reg.STATE.SELF := by
      unfold Dev.raise
      rw [fld_setFld_other e2]
      by_cases hcb : c = b
      · subst hcb; exact fld_setFld_apart (by rfl) (by decide)
      · exact fld_setFld_other (by have := hb.1; simp only [Reg.STATE.SELF, Reg.STATE.STATE]; omega)
    unfold Dev.refresh
    simp only
    split
    · rfl
    · split
      · exact key
      · rename_i hp
        rw [ih _ _ (parent_hard hb hp) c hc]
        exact key

/-- Nothing but registers changes. -/
theorem refresh_parts (n : Nat) : ∀ (d : Dev) (b : Nat), OnlyParts [.regs] d (d.refresh n b) := by
  induction n with
  | zero => intro d b; exact onlyParts_refl _ d
  | succ n ih =>
    intro d b p hp
    unfold Dev.refresh
    simp only
    split
    · exact onlyParts_refl _ d p hp
    · split
      · cases p <;> simp_all [Part.same]
      · have := ih ((d.setFld b Reg.STATE.STATE (d.aggregate b).code).raise b Reg.EVENT.STATE_CHANGE) (by assumption) p hp
        cases p <;> simp_all [Part.same]

theorem UState.ofCode_code (u : UState) : UState.ofCode u.code = u := by cases u <;> rfl
theorem UState.code_lt (u : UState) : u.code < 8 := by cases u <;> decide

theorem ust_refresh (n : Nat) {d : Dev} {b : Nat} (h : Hard b) : (d.refresh n b).ust b = d.ust b := by
  unfold Dev.ust; rw [self_refresh n d b h b h.1]

theorem ust_of_fld {d : Dev} {b : Nat} {u : UState} (h : d.fld b Reg.STATE.SELF = u.code) : d.ust b = u := by
  unfold Dev.ust; rw [h]; exact u.ofCode_code

/-! ## Entry into a state -/

/-- Entry into a state leaves SELF. -/
theorem self_entered (d : Dev) (b : Nat) (u : UState) : (d.entered b u).fld b Reg.STATE.SELF = d.fld b Reg.STATE.SELF := by
  have h1 : b + Reg.STATE.SELF.off ≠ b + Reg.CTRL.ENABLE.off := by simp [Reg.STATE.SELF, Reg.CTRL.ENABLE]
  have h2 : b + Reg.STATE.SELF.off ≠ b + Reg.CTRL.DRAIN_REQ.off := by simp [Reg.STATE.SELF, Reg.CTRL.DRAIN_REQ]
  have h3 : b + Reg.STATE.SELF.off ≠ b + Reg.CTRL.PROOF_EN.off := by simp [Reg.STATE.SELF, Reg.CTRL.PROOF_EN]
  unfold Dev.entered
  cases u <;> simp only [fld_modUnits, fld_setFld_other h1]
  split <;> simp only [fld_modUnits, fld_setFld_other h2, fld_setFld_other h3]

/-- It writes the unit's CTRL alone. -/
theorem reg_entered (d : Dev) (b : Nat) (u : UState) (a : Nat) (h : a ≠ b + Reg.CTRL.ENABLE.off) : (d.entered b u).reg a = d.reg a := by
  have h2 : a ≠ b + Reg.CTRL.DRAIN_REQ.off := h
  have h3 : a ≠ b + Reg.CTRL.PROOF_EN.off := h
  unfold Dev.entered
  cases u <;> simp only [reg_modUnits, reg_setFld, if_neg h]
  split <;> simp only [reg_modUnits, reg_setFld, if_neg h2, if_neg h3]

/-- Nothing but registers and the timers of units changes. -/
theorem entered_parts (d : Dev) (b : Nat) (u : UState) : OnlyParts [.regs, .units] d (d.entered b u) := by
  intro p hp
  unfold Dev.entered
  cases u <;> first | exact onlyParts_refl [.regs, .units] d p hp | (cases p <;> simp_all [Part.same]; done) | skip
  simp only
  split <;> cases p <;> simp_all [Part.same]

theorem entered_run (d : Dev) (b : Nat) (u : UState) (h : u = .running ∨ u = .degraded) : d.entered b u = d := by
  rcases h with rfl | rfl <;> rfl

theorem entered_starting (d : Dev) (b a : Nat) : (d.entered b .starting).reg a = d.reg a := rfl

theorem entered_draining (d : Dev) (b : Nat) :
    (d.entered b .draining).fld b Reg.CTRL.ENABLE = 0 ∧
      (d.entered b .draining).fld b Reg.CTRL.DRAIN_REQ = d.fld b Reg.CTRL.DRAIN_REQ := by
  simp only [Dev.entered, fld_modUnits]
  exact ⟨fld_setFld_same (by decide), fld_setFld_apart (by rfl) (by decide)⟩

theorem entered_stopped (d : Dev) (b : Nat) :
    (d.entered b .stopped).fld b Reg.CTRL.DRAIN_REQ = 0 ∧
      (d.entered b .stopped).fld b Reg.CTRL.ENABLE = d.fld b Reg.CTRL.ENABLE := by
  simp only [Dev.entered]
  split <;> try simp only [fld_modUnits]
  · exact ⟨(fld_setFld_apart (by rfl) (by decide)).trans (fld_setFld_same (by decide)),
      (fld_setFld_apart (by rfl) (by decide)).trans (fld_setFld_apart (by rfl) (by decide))⟩
  · exact ⟨fld_setFld_same (by decide), fld_setFld_apart (by rfl) (by decide)⟩

/-! ## A change of a hard unit's state that has no other effect -/

/-- Such a change, before the galleys above take notice. -/
theorem setUst_inert {d : Dev} {b : Nat} {u : UState} (hu : d.ust b ≠ u)
    (hk : ((d.setFld b Reg.STATE.SELF u.code).entered b u).stateHook b (d.ust b) u =
      (d.setFld b Reg.STATE.SELF u.code).entered b u) :
    d.setUst b u = ((d.setFld b Reg.STATE.SELF u.code).entered b u).refresh d.depth b := by
  unfold Dev.setUst; rw [if_neg hu, hk]

theorem ust_entered (d : Dev) (b : Nat) (u : UState) : ((d.setFld b Reg.STATE.SELF u.code).entered b u).ust b = u := by
  apply ust_of_fld
  rw [self_entered, fld_setFld_same (by decide)]
  exact Nat.mod_eq_of_lt u.code_lt

/-- The unit's sequencer stands in the new state; registers beside the unit's CTRL, STATE and EVENT registers of units apart, and
parts beside registers and the timers of units stay. -/
theorem setUst_frame {d : Dev} {b : Nat} {u : UState} (hb : Hard b) (hu : d.ust b ≠ u)
    (hk : ((d.setFld b Reg.STATE.SELF u.code).entered b u).stateHook b (d.ust b) u =
      (d.setFld b Reg.STATE.SELF u.code).entered b u) :
    (d.setUst b u).ust b = u ∧ OnlyParts [.regs, .units] d (d.setUst b u) ∧
      OnlyStates [b + Reg.CTRL.ENABLE.off] d (d.setUst b u) := by
  rw [setUst_inert hu hk]
  refine ⟨by rw [ust_refresh _ hb]; exact ust_entered d b u, ?_, ?_⟩
  · intro p hp
    have h1 := entered_parts (d.setFld b Reg.STATE.SELF u.code) b u p hp
    have h2 := refresh_parts d.depth ((d.setFld b Reg.STATE.SELF u.code).entered b u) b p
      (fun k => hp (by simp at k; simp [k]))
    cases p <;> simp_all [Part.same]
  · intro a ha h1 h2
    have h3 : a ≠ b + Reg.STATE.SELF.off := by
      rintro rfl; apply h1; have := hb.1; simp only [Reg.STATE.SELF, Reg.STATE.STATE]; omega
    simp only [List.mem_singleton] at ha
    rw [reg_refresh _ _ _ hb a h1 h2, reg_entered _ _ _ _ ha, reg_setFld, if_neg h3]

/-- A field of the unit's CTRL after such a change. -/
theorem ctrl_setUst {d : Dev} {b : Nat} {u : UState} (hb : Hard b) (hu : d.ust b ≠ u)
    (hk : ((d.setFld b Reg.STATE.SELF u.code).entered b u).stateHook b (d.ust b) u =
      (d.setFld b Reg.STATE.SELF u.code).entered b u) (f : Fld) (hf : f.off = Reg.CTRL.ENABLE.off) :
    (d.setUst b u).fld b f = ((d.setFld b Reg.STATE.SELF u.code).entered b u).fld b f := by
  rw [setUst_inert hu hk]
  unfold Dev.fld
  rw [reg_refresh _ _ _ hb]
  · rw [hf]; have := hb.1; simp only [Reg.CTRL.ENABLE, Reg.STATE.STATE]; omega
  · rw [hf]; have := hb.1; simp only [Reg.CTRL.ENABLE, Reg.EVENT.FAULT]; omega

/-! ## Plain sorts -/

theorem plain_hard : ∀ b ∈ plainSorts, Hard b := by
  have : ∀ b ∈ plainSorts, b % 0x1000 = 0 ∧ (unitOf b).blk ≠ .shell := by decide
  exact this

theorem plain_facts : ∀ b ∈ plainSorts, proofOff b = none ∧ (unitOf b).isGalley = false ∧ b ≠ formeBase ∧ b ≠ stctlBase ∧
    b ≠ rootBase ∧ (unitOf b).blk ∈ [Blk.keeper, .pdctl, .damper, .crypto, .mover, .serial] := by decide

/-- A plain sort's change of state does nothing beside the state table. -/
theorem plain_hook {d : Dev} {b : Nat} (h : b ∈ plainSorts) (o n : UState) : d.stateHook b o n = d := by
  obtain ⟨h1, h2, h3, h4, h5, h6⟩ := plain_facts b h
  unfold Dev.stateHook Dev.proofHook
  simp only [h1]
  revert h6; cases (unitOf b).blk <;> simp

end Sys2Proof.Machine
end

