-- ==== Sys2Proof/WellFormed.lean ====
section
/-!
DEFINITION. Which terms stand for a command that can reach the T7: every number that an event
carries lies in the field that the spec gives it, and every unit operand names a unit's window. Most operands are bounded
by their types. The meanings do not rest on these checks.
-/
namespace Sys2Proof

/-- A number fits a field of `n` bits. -/
def fits (n x : Nat) : Bool := decide (x < 2 ^ n)

/-- The window base of a unit (R61). -/
def namesUnit (b : Nat) : Bool :=
  match Machine.unitAt b with
  | some u => u.base == b
  | none => false

/-- A unit declared by an image, in its shell, or the forme (R79). -/
def namesUserUnit (b : Nat) : Bool :=
  match Machine.unitAt b with
  | some u => u.base == b && (u.blk == .shell || u.blk == .forme)
  | none => false

/-- Positions of changed bits: each place below its bound, each bit below the width. -/
def bitsWf (places width : Nat) (l : List (Nat × Nat)) : Bool := l.all fun e => decide (e.1 < places ∧ e.2 < width)

/-- A row port's or base port's transfers (R29): vias by bundle and position, upsets by row word and code word bit. -/
def PortFound.wf (f : PortFound) : Bool := bitsWf 8 300 f.vias && bitsWf 8 266 f.upsets

def portsWf (l : List PortFound) : Bool := l.all PortFound.wf

/-- What an access to control space meets at base ports (R256, R354). -/
def AccessMeet.wf (m : AccessMeet) : Bool := m.port.wf && portsWf m.ports

/-- Upsets of a column's frame words: 2 dies of 20,736 words, by code word bit (R203). -/
def PlateSeen.wf (p : PlateSeen) : Bool := bitsWf 41472 266 p.upsets

/-- What columns are found in, by column × 2 + die. -/
def seenWf (l : List (Nat × PlateSeen)) : Bool := l.all fun e => decide (e.1 < 512) && e.2.wf

/-- Words of SPI0's flash, whose addresses are 32 bits (R372). -/
def flashWf (l : List Word) : Bool := decide (l.length ≤ 2 ^ 30)

/-- The command can reach the T7. -/
def Instr.wf : Instr → Bool
  | .unitEnable _ u | .drainReq _ u _ | .unitReset _ u _ | .proofSet _ u _ _ | .galleyStepAdvance u | .unitReady u | .unitEmpty u
  | .drainLimitExpiry u | .versionSelWrite _ u _ | .clockGateWake u | .proofInject _ u => namesUnit u
  | .uReady u | .uEmpty u | .uFault u _ | .uEvent u _ | .uLoss u _ | .stagedOutputs u | .stagedWriteEnables u
  | .stagedReset u => namesUserUnit u
  | .registerWrite _ _ _ m | .rcFieldRead _ _ m | .ctrlGrant m => m.wf
  | .testWinAccess _ _ _ f | .rowRead _ _ _ _ _ f | .rowWrite _ _ _ _ _ _ f | .basePortRead _ _ _ _ _ _ f
  | .basePortWrite _ _ _ _ _ _ _ _ f => f.wf
  | .rowTally _ _ _ _ _ _ _ slips f => bitsWf 128 (2 ^ 32) slips && f.wf
  | .release ports | .messageTransmit _ ports | .receiveQueueWrite _ ports | .sendQueueExamine _ ports | .descriptorEnd _ ports
  | .readoutQueueWrite _ ports | .gapWritten _ ports _ => portsWf ports
  | .slotWrite _ _ port _ => port.wf
  | .fillDone met => met.all fun e => e.2.2.wf
  | .twinRead _ _ _ _ _ upsets | .memScrubAccess _ _ _ upsets _ => bitsWf 8 266 upsets
  | .stageDone seen => seenWf seen
  | .plateScrubSlot _ _ _ _ _ seen | .reloadDone seen => seen.wf
  | .correctedWriteback w _ => decide (w < 2 ^ 25 + 2 ^ 18)
  | .mcScrubLine line f => fits 46 line && portsWf f.ports
  | .debugWinDone _ f | .fdpRead _ _ f | .fdpFullWrite _ _ _ _ f | .fdpPartialWrite _ _ _ _ f => portsWf f.ports
  | .colophon flash | .galleyOpen flash | .galleyClose flash | .initValues flash | .pinTable flash | .unitSettings flash | .ringMap flash
  | .memoryPreload flash | .thermalMap flash | .driveMap flash | .latency flash | .optionalRecord flash => flashWf flash
  | .plateFrames flash seen => flashWf flash && seenWf seen
  | .signature flash m | .endRecord flash m => flashWf flash && m.wf
  | .extract _ bad ports => bad.all (fits 14) && portsWf ports
  | .eyeDone _ errors => fits 32 errors
  | .dramHot _ rate => fits 6 rate
  | _ => true

end Sys2Proof
end

