-- ==== Sys2Proof/Tests/Slice0.lean ====
section
/-!
SUPPORT. Tests: ill-formed commands that the checks refuse, single steps with results from the spec's text, and for every statement
states and operands that meet its hypotheses, clause by clause.
-/
section
set_option Elab.async false
set_option synthInstance.maxSize 1000
set_option maxRecDepth 4000

open Sys2Proof Sys2Proof.Machine

/-- A machine with the domains 0 to 6 on. -/
def up : Dev := (({} : Dev).each (List.range 7) fun d k => d.setPd k pdOn).setFld clkBase Reg.CLK_STATUS.TRUNK_SRC 0
/-- Sets the states of units. -/
def Sys2Proof.Machine.Dev.put (d : Dev) (l : List (Nat × UState)) : Dev := d.each l fun d e => d.setFld e.1 Reg.STATE.SELF e.2.code
/-- Sets fields. -/
def Sys2Proof.Machine.Dev.flds (d : Dev) (l : List (Nat × Fld × Nat)) : Dev := d.each l fun d e => d.setFld e.1 e.2.1 e.2.2

/-- The machine after a command. -/
def runDev (o : Answer) : Dev := match o with | .next t => t.dev | _ => {}

/-! ## Ill-formed commands are refused, check by check -/

/-- Not a unit's window (R61, R82). -/
theorem test_wf_unit : (Instr.unitReady 0x13 : Instr).wf = false ∧ (Instr.unitReady keeperBase : Instr).wf = true := by decide +kernel
/-- A hard unit is no unit of an image (R79). -/
theorem test_wf_user_unit : (Instr.uReady keeperBase : Instr).wf = false ∧ (Instr.uReady 0x900000 : Instr).wf = true := by decide +kernel
/-- A port has 8 bundles of 300 vias, and a row 8 words of 266 bits (R17, R29). -/
theorem test_wf_ports : (Instr.registerWrite 0 0 0 { port := { vias := [(8, 0)] } }).wf = false ∧
    (Instr.ctrlGrant { port := { upsets := [(0, 266)] } }).wf = false ∧ (Instr.testWinAccess 0 false 0 { vias := [(7, 300)] }).wf = false ∧
    (Instr.rowTally 0 false 0 0 false false 0 [(128, 0)] {}).wf = false ∧ (Instr.twinRead 0 false 0 0 .alone [(8, 0)]).wf = false := by
  decide +kernel
/-- What copies find: 512 column sides, 41,472 words of 266 bits, 8 bundles of vias (R203, R208, R29). -/
theorem test_wf_copies : (Instr.stageDone [(512, {})]).wf = false ∧ (Instr.reloadDone { upsets := [(41472, 0)] }).wf = false ∧
    (Instr.plateScrubSlot 0 false false 0 0 { upsets := [(0, 266)] }).wf = false ∧ (Instr.fillDone [(0, .base, { vias := [(8, 0)] })]).wf = false := by
  decide +kernel
/-- Words, lines, slots, counts and rates have bounds (R230, R310, R275, R121, R320). -/
theorem test_wf_numbers : (Instr.correctedWriteback (2 ^ 25 + 2 ^ 18) {}).wf = false ∧ (Instr.mcScrubLine (2 ^ 46) {}).wf = false ∧
    (Instr.extract 0 [2 ^ 14] []).wf = false ∧ (Instr.eyeDone 0 (2 ^ 32)).wf = false ∧ (Instr.dramHot 0 64).wf = false := by decide +kernel
/-- Ports that a record's application meets have 8 bundles of vias (R29), and rows that staging meets 41,472 words a side (R208). -/
theorem test_wf_records : (Instr.endRecord [] { port := { vias := [(8, 0)] } }).wf = false ∧
    (Instr.signature [] { port := { vias := [(8, 0)] } }).wf = false ∧ (Instr.plateFrames [] [(512, {})]).wf = false ∧
    (Instr.colophon [1, 2]).wf = true := by decide +kernel

/-! ## Known answers of the standards that the spec names -/

/-- CRC-32C of the nine digits (RFC 3720's polynomial, R4). -/
theorem test_crc32c : bytesCrc [49, 50, 51, 52, 53, 54, 55, 56, 57] = 0xE3069283 := by decide +kernel
/-- FIPS 197, C.3: AES-256 and back. -/
theorem test_aes256 : let ks := roundKeys (BitVec.ofNat 256 (bigNum (List.range 32)))
    let x := bigBytes 16 0x00112233445566778899AABBCCDDEEFF
    bigNum (cipher ks x) = 0x8EA2B7CA516745BFEAFC49904B496089 ∧ decipher ks (cipher ks x) = x := by decide +kernel
/-- SP 800-38B, D.3: AES-256-CMAC of 16 bytes. -/
theorem test_cmac : bigNum (cmac 0x603DEB1015CA71BE2B73AEF0857D77811F352C073B6108D72D9810A30914DFF4#256
    (bigBytes 16 0x6BC1BEE22E409F96E93D7E117393172A)) = 0x28A7023F452E8F82BD4BF28D8C37C35C := by decide +kernel
/-- The GCM specification's test cases 13 and 14. -/
theorem test_gcm : gcm 0 (List.replicate 12 0) [] [] = ([], bigBytes 16 0x530F8AFBC74536B9A963B4F1C4CB738B) ∧
    gcm 0 (List.replicate 12 0) [] (bigBytes 16 0xCEA7403D4D606B6E074EC5D3BAF39D18) =
      (List.replicate 16 0, bigBytes 16 0xD0D1C8A799996BF0265B98B5D48AB919) := by decide +kernel
/-- FIPS 180-4's example: SHA-384 of "abc". -/
theorem test_sha384 : bigNum (sha384 [97, 98, 99]) =
    0xCB00753F45A35E8BB5A03D699AC65007272C32AB0EDED1631A8B605A43FF5BED8086072BA1E7CC2358BAECA134C825A7 := by decide +kernel

/-! ## The spec's worked examples -/

/-- "Worked example: locating a column": column 105 is in G6, and its windows in L2 and B0. -/
theorem test_locating_a_column : groupOf 105 = 6 ∧ columnBase 2 105 = 0x00669000 ∧ columnBase 0 105 = 0x00469000 := by decide +kernel
/-- "Worked example: decoding two data-space addresses": the word at 0x1A79_2340, and a key of 3. -/
theorem test_data_space_addresses : 32 * wordIndex 105 7 291 2 = 0x1A792340 ∧ dsKeyOf 0x30001240001000 = 3 ∧
    dsOffset 0x30001240001000 = 0x1240001000 := by decide +kernel
/-- "Worked example: walking the tree to a fault": CHILD_INFO of the root and of LG16, and a child table entry of each. -/
theorem test_walking_the_tree : [0x0C, 0x134, 0x1A000C, 0x1A004C].map (fun a => (up.readReg 0 a).2.2) =
    [0x00310100, 0x1A0, 0x00080040, 0x80000183] := by decide +kernel
/-- The chapter on lanes: UNIT_ID of TL03. -/
theorem test_unit_id_of_tl03 : (up.readReg 0 0x183000).2.2 = 0x11000838 := by decide +kernel
/-- "Worked example: rates and transmit settings": a write of 0x0000_0903 to TX_FIR of TL05 reads back 0x0033_0903. -/
theorem test_trunk_fir : (runDev (exec (.txFirWrite 0 133 3 9) ⟨[], (up.setPd 24 pdOn).put [(0x185000, .running)]⟩)).reg 0x185118 = 0x00330903 := by
  decide +kernel
/-- "Worked example: TL04 against a 1.0 partner": LINK_VER and LINK_STATE after 4,096 blocks. -/
theorem test_assumed_1_0 : ((fun d : Dev => (d.reg 0x18402C, d.reg 0x18403C)) (runDev (exec (.announceTimeout 132) ⟨[],
    ((up.setPd 24 pdOn).put [(0x184000, .running)]).flds [(0x184000, Reg.BLK_STATE.STATE, 3), (0x184000, Reg.LINK_STATE.NEGO, 1),
      (0x184000, Reg.LINK_STATE.ANNOUNCE_TX, 1)]⟩))) = (0x00001021, 0x3) := by decide +kernel
/-- "Worked example: from address to tweak": region 3 with sectors of 512 bytes. -/
theorem test_address_to_tweak : (up.flds [(cryptoBase, Reg.REG_BASE.BASE.shift 48, 0x240000), (cryptoBase, Reg.REG_SIZE.SIZE.shift 48, 2),
    (cryptoBase, Reg.REG_LBN_LO.LBN_LO.shift 48, 0x100000), (cryptoBase, Reg.REG_LBN_HI.EN.shift 48, 1),
    (cryptoBase, Reg.REG_LBN_HI.SECTOR.shift 48, 1)]).tweak 0x240001A40 = (0x10000D, 4) ∧ 0x240001A40 / 64 = 0x9000069 := by decide +kernel
/-- The same example, with channels of 8 GiB: channel 10, and the places of the line and of its metadata (R309). -/
theorem test_channel_place : extChannel 0x240001A40 = 10 ∧ extChanAddr 0x240001A40 = 0x24000140 ∧
    (up.setFld (mcBase 0) Reg.MC_CFG.DENSITY 3).extMetaAddr 0x240001A40 = 0x1C4800028 := by decide +kernel
/-- "Worked example: reading a plate record": the header's first five words and the payload's first. -/
theorem test_plate_record : (fun h : RecHead => (h.kind, h.major, h.minor, h.plateValid, h.plate, h.enc, h.length, h.slen, h.index))
      (recordHead [0x07081010, 0, 0x005DC1C4, 0x005DC1C4, 5, 0, 0, 0]) = (0x10, 1, 0, true, 7, false, 6144452, 6144452, 5) ∧
    (fun p : PlateBody => (p.plate, p.stage, p.resident, p.method, p.groups)) (plateOf [0x00201507]) = (7, 1, true, 1, 0x20) := by
  decide +kernel
/-- "Worked example: giving pin 20 to UART0": a write of PIN_MUX2. -/
theorem test_pin_20 : (fun d : Dev => (d.pinFunc 16, d.pinFunc 18, d.pinFunc 20, d.pinFunc 21, d.pinFunc 22))
    (runDev (exec (.pinMuxWrite 0 2 0x11665544) ⟨[], up.put [(pinsBase, .running)]⟩)) = (4, 5, 6, 6, 1) := by decide +kernel

/-! ## Hypotheses that speak of a step -/

def armQueued : State := { pending := [.arm 0], dev := up.put [(keeperBase, .running)] }
/-- A settled machine whose step is an ARM that its path reaches. -/
theorem test_wit_EveryStepCompletesAndStaysSettled : armQueued.settled = true ∧ ∃ t, step armQueued = .next t := ⟨by decide +kernel, _, rfl⟩
/-- The same machine has stores in their one form. -/
theorem test_wit_StepKeepsStoresCanonical : armQueued.dev.canonical = true ∧ ∃ t, step armQueued = .next t := ⟨by decide +kernel, _, rfl⟩
/-- A fill of stage slot 3 with group 15 that runs. -/
def fillingLp : State := ⟨[], { up with plates := { dataCmd := some (.fillLp 3 (2 ^ 15) 0) } }.flds
  [(kryupBase, ⟨Reg.CAUSE_PEND.LATCH.off, 0x0A, 1⟩, 1), (kryupBase, ⟨Reg.CAUSE_PEND.LATCH.off, 0x0B, 1⟩, 1)]⟩
theorem test_wit_PlateFillsAndCopiesEnd_fill : fillingLp.quiet = true ∧ fillingLp.dev.plates.dataCmd = some (.fillLp 3 (2 ^ 15) 0) ∧
    fillingLp.dev.latched 0x0A = true ∧ fillingLp.dev.latched 0x0B = true := by decide +kernel

/-! ## States that meet the hypotheses of the statements -/

namespace Witness02

def kS (c : ClockRec) (k : KeeperRec) (l : List (Nat × UState)) (fl : List (Nat × Fld × Nat)) (f : Dev → Dev := id) : State :=
  ⟨[], f (({up with clk := {c with tick := 500}, keeper := k}.put ((rootBase, .stopped) :: (clkBase, .running) :: (keeperBase, .running) :: l)).flds fl)⟩
def lt (c : Nat) : Nat × Fld × Nat := (kryupBase, ⟨Reg.CAUSE_PEND.LATCH.off, c, 1⟩, 1)
def m02_1 : State := kS {rootRef := 0} {now := 5} [] [(keeperBase, Reg.LATENCY.L, 4), (keeperBase, Reg.KEEP_STATUS.LOCKED, 1)]
def m02_4 : State := kS {rootRef := 0} {crossKHz := 100000} [(formeBase, .draining)] []
def m02_5 : State := kS {rootRef := 1, xb := .running, xbKHz := 40000} {crossKHz := 100000, holdoverTick := some 436} [(pllBase 1, .running)] [(pllBase 1, Reg.PLL_STATUS.LOCK, 1)]

end Witness02

namespace Witness03

def w1 : Dev := { up with clk := { rootRef := 0 }, keeper := { released := true, now := 2^48-1, crossKHz := 40000, holds := {items := [(3,1)]}, breachNow := true }, heat := {pT := {items := [(0,3),(15,2)]}} }
def w2 (mode armed v : Nat) : Dev := { w1 with keeper := {w1.keeper with pendingSync := some v} }.flds [(keeperBase, Reg.KEEP_CTRL.SYNC_MODE, mode), (keeperBase, Reg.KEEP_STATUS.ARMED, armed), (keeperBase, Reg.LATENCY.L, 5)]
def w3 : Dev := { w1.flds [(keeperBase, Reg.LATENCY.L, 5), (keeperBase, Reg.BREACH_COUNT.COUNT, 5)] with clk := { w1.clk with trunk := { state := .switching } }, strike := { groups := [3], columns := [48] } }
def w4 (ev : Option Nat) : Dev := { w1.flds [(keeperBase, Reg.LATENCY.L, 9), (keeperBase, Reg.LATENCY.ALIGN_R, 4),(laneBase 3, Reg.STATE.SELF, 3), (laneBase 3, Reg.BLK_STATE.STATE, 3)] with keeper := { now := 100, crossKHz := 40000 }, lanes := {items := [(3, { evidence := ev, held := [{cross := 96}, {cross := 97}] })]} }
def m03_1 : State := ⟨[], w1⟩
def m03_2 : State := ⟨[], w2 0 1 0⟩
def m03_3 : State := ⟨[], w2 0 1 7⟩
def m03_4 : State := ⟨[], w2 2 1 7⟩
def m03_5 : State := ⟨[], w3⟩
def m03_6 : State := ⟨[], w4 (some 97)⟩

end Witness03

namespace Witness04

def uS (l : List (Nat × UState)) (fl : List (Nat × Fld × Nat)) (f : Dev → Dev := id) : State :=
  ⟨[], f (({up with clk := {tick := 500}}.put ((rootBase, .stopped) :: l)).flds fl)⟩
def m04_3 : State := uS [(keeperBase, .starting)] [(keeperBase, Reg.CTRL.ENABLE, 1)]
def m04_7 : State := uS [(cryptoBase, .faulted)] [(cryptoBase, Reg.CTRL.DRAIN_REQ, 1), (cryptoBase, Reg.DRAIN_LIMIT.LIMIT, 500)]
def m04_6 : State := uS [(pdBase, .draining)] [(pdBase, Reg.CTRL.DRAIN_REQ, 1), (pdBase, Reg.DRAIN_LIMIT.LIMIT, 500)]

end Witness04

namespace Witness05

def uS (l : List (Nat × UState)) (fl : List (Nat × Fld × Nat)) (f : Dev → Dev := id) : State :=
  ⟨[], f (({up with clk := {tick := 500}}.put ((rootBase, .stopped) :: l)).flds fl)⟩
def gsq (b : Nat) (q : GSeq) (d : Dev) : Dev := {d with units := {seq := ⟨[(b, q)]⟩}}
def m05_1 : State := uS [(powerBase, .starting), (pdBase, .running), (damperBase, .running)] [(pdBase, Reg.STATE.STATE, 3), (damperBase, Reg.STATE.STATE, 3)] (gsq powerBase {step := 7})
def m05_2 : State := uS [(pinsBase, .starting)] ((List.range 8).map fun i => (gpioBase i, Reg.STATE.STATE, 5)) (gsq pinsBase {step := 0})
def m05_3 : State := uS [(pinsBase, .draining)] ((List.range 8).map fun i => (gpioBase i, Reg.STATE.STATE, 1)) (gsq pinsBase {step := 0, drain := true})
def m05_4 : State := uS [(laneBase 0, .stopped)] [(pdBase, Reg.PD.STATE.elem 8, 2)]
def m05_5 : State := uS [(laneBase 0, .running)] [(pdBase, Reg.PD.STATE.elem 8, 2)]
def m05_6 : State := uS [(laneBase 0, .stopped)] [(pdBase, Reg.PD.STATE.elem 8, 2)]
def v05_6_3 : BitVec 32 := BitVec.ofNat 32 (fset 0 Reg.VERSION_SEL.SEL_MAJOR 2).toNat

end Witness05

namespace Witness06

def hS (die : Nat) (c : Nat) (k : Nat) (st : UState) (rel : RelState) : State :=
  ⟨[], ({up with units := {user := ⟨[(formeBase, {unitId := 1, childTable := [(false, shellBase die c k)]}), (shellBase die c k, {rel := rel, occL2 := [c]})]⟩}}.put ((rootBase, .stopped) :: (shellBase die c k, st) :: []))⟩
def m06_1 : State := hS 0 255 1 .starting .released
def m06_2 : State := hS 1 0 0 .running .released
def m06_3 : State := hS 1 0 0 .draining .released

end Witness06

namespace Witness07

def x1 : State := ⟨[], up⟩
def x2 : State := ⟨[], { up with ctl := { lastPath := 3, waiting := [{path := 0, addr := keeperBase + Reg.EVENT_EN.EN.off}, {path := 5, addr := keeperBase + Reg.EVENT_EN.EN.off}], debugPend := {} } }⟩
def x3 : State := ⟨[], { up with clk := {tick := 100}, ctl := { debugPend := ⟨[(1, {path := 1, addr := winDataAddr winDebug 1, since := 20})]⟩} }⟩
def acc0 : Access := {path := 1, addr := winDataAddr winDebug 1, since := 20}
def x4 : State := ⟨[], { (up.flds [(rootBase, Reg.IRQ_CTRL.EVT_EN,1), (rootBase, Reg.IRQ_CTRL.EVT_REPEAT,2), (rootBase, Reg.EVENT_EN.EN, 8), (rootBase, Reg.EVENT.CTRL_REJECT, 1), (laneBase 128, Reg.LINK_VER.NEGOTIATED, 0x20), (laneBase 128, Reg.AGREED_FEAT.FEATURES, 2)]) with ctl := {eventTick := 3, rootRaised := true}, clk := {tick := 131} }⟩
def x5 (win a c : Nat) : State := ⟨[], ((up.setReg (winSet win 1) (BitVec.ofNat 32 a)).setReg (winSet win 1 + 8) (BitVec.ofNat 32 c)).put [(columnBase 1 0, .running)]⟩
def x6 (hi : Nat) : State := ⟨[], (up.setReg (winSet 3 1) (BitVec.ofNat 32 0x40000000)).setReg (winSet 3 1 + 0xC) (BitVec.ofNat 32 hi)⟩
def m07_15 : State := ⟨[], up.setFld kryupBase (⟨Reg.CAUSE_PEND.LATCH.off, 14,1⟩) 1⟩
def v07_15_2 : BitVec 32 := BitVec.ofNat 32 (kryupBase+Reg.CTRL.ENABLE.off)
def m07_4 : State := x2
def v07_4_1 : Access := ({path := 0, addr := keeperBase + Reg.EVENT_EN.EN.off} : Access)
def m07_7 : State := x5 winDir 80 1
def m07_8 : State := x5 winDir 83 0

end Witness07

namespace Witness08

def lg3 (g : UState) (ls : List UState) (l : List (Nat × Fld × Nat)) : Dev := ((up.setPd 11 pdOn).put ((laneGroupBase 3, g) :: ls.zipIdx.map fun x => (laneBase (24 + x.2), x.1))).flds l
def q1 : State := ⟨[], lg3 .stopped (List.replicate 8 .stopped) []⟩
def q2 : State := ⟨[], { lg3 .starting (List.replicate 8 .stopped) [] with clk := {tick := 100000}}⟩
def q4 : State := ⟨[], { lg3 .running [.running,.off,.stopped,.starting,.draining,.faulted,.degraded,.running] [] with groups := ⟨[(3,{lrefKHz := 0})]⟩ }⟩
def q5 (u : UState) (l : List (Nat × Fld × Nat)) : State := ⟨[], { (up.put [(laneBase 5, u)]).flds l with clk := {tick := 1000000} }⟩
def B := laneBase 5
def q6 (t : List Int) (l : List (Nat × Fld × Nat)) : State := ⟨[], { (up.put [(laneBase 5, .running)]).flds ([(B,Reg.LANE_STATUS.LOS,0),(B,Reg.LANE_STATUS.CDR_LOCK,1),(B, Reg.BLK_STATE.STATE,3),(B, Reg.CTLE_CTRL.MODE, 2), (B, Reg.DFE_CTRL.ADAPT_EN,1)] ++ l) with lanes := ⟨[(5, {taps := t})]⟩ }⟩
def q7 (e : EyeState) : State := ⟨[], { up.put [(laneBase 130, .running)] with lanes := ⟨[(130, {eye := e})]⟩ }⟩
def m08_2 : State := q2
def m08_1 : State := q1
def m08_4 : State := q4
def m08_7 : State := q5 .starting [(B, Reg.BLK_STATE.STATE,1), (B, Reg.CTLE_CTRL.MODE, 2)]
def m08_8 : State := q6 [63,-31,31,5,-15,0,0,0,0,0,0,15] []
def m08_9 : State := q6 [63,-31,31,5,-15,0,0,0,0,0,0,15] [(B, Reg.DFE_CTRL.FREEZE, 0xFFF)]
def m08_13 : State := q7 .pealHeld

end Witness08

namespace Witness09

def L5 := laneBase 5
def l1 (blk run : Nat) (r : LaneRec) (l : List (Nat × Fld × Nat)) : State := ⟨[], { (up.put [(L5, .running)]).flds ([(L5,Reg.LANE_STATUS.LOS,0),(L5,Reg.LANE_STATUS.CDR_LOCK,1),(L5,Reg.BLK_STATE.STATE,blk),(L5,Reg.BLK_STATUS.RUN,run)]++l) with lanes := ⟨[(5,r)]⟩ }⟩
def m09_2 : State := l1 1 63 {huntCount := 1000000} []
def m09_5 : State := l1 3 63 {winBad := 15} []
def m09_6 : State := l1 3 63 {sinceQuad := 4097, eb := [idleItem, .block true 0x4B]} [(L5,Reg.LANE_STATUS.TX_ACTIVE,1)]

end Witness09

namespace Witness10

def lk (n ver : Nat) (r : LaneRec) (k : LinkRec) (l : List (Nat × Fld × Nat)) : State :=
 let b := laneBase n
 ⟨[], { ((up.setPd (8+n/8) pdOn).put [(b, .running)]).flds ([(b,Reg.LANE_STATUS.LOS,0),(b,Reg.LANE_STATUS.CDR_LOCK,1),(b,Reg.BLK_STATE.STATE,3),(b,Reg.LINK_VER.NEGOTIATED,ver),(keeperBase, Reg.LATENCY.L, 8)]++l) with lanes := ⟨[(n,r)]⟩, links := ⟨[(n,k)]⟩, keeper := {now := 70000} }⟩
def mk : Payload := withChk (ctlMark + 5000 * 256)
def an : Payload := BitVec.ofNat 64 (ctlAnnounce + 0x21*256 + 0x10*65536 + 2^24 + 0x8F * 2^32)
def wm (typ stamp route : Nat) (body : List Payload) : WireMsg := let s := somOf {typ := typ, stamp := stamp, route := route, body := body}; { som := s, data := body, eom := eomOf 0x21 s body }
def en (s : State) : State := {s with dev := s.dev.put [(ringBase 3, .running), (ringBase 5, .degraded)]}
def nrS : State := let s := lk 130 0x20 {} {} [(laneBase 130,Reg.REM_STATUS.BUSY,1),(laneBase 130,Reg.REM_CTRL.TIMEOUT,65535)]; {s with dev := {s.dev with clk := {tick := 65535}}}
def v10_1_2 : Payload := mk
def m10_2 : State := lk 5 0x10 {} {pin := 0x20, feat := 0xFF, lastAnn := some an} [(laneBase 5, Reg.LINK_STATE.NEGO, 1)]
def v10_2_2 : Payload := an
def m10_3 : State := lk 5 0x11 {} {} []
def v10_3_2 : Payload := withChk (ctlCredit + 77 * 256 + 65535 * 2^24)
def m10_4 : State := lk 5 0x11 {} {} [(laneBase 5, Reg.AGREED_FEAT.FEATURES, 0x20), (laneBase 5, Reg.LINK_CTRL.PROOF_ACCEPT, 1)]
def v10_4_2 : Payload := withChk (ctlProof + 1 * 256)
def m10_5 : State := lk 5 0x11 {} {} [(laneBase 5, Reg.AGREED_FEAT.FEATURES, 0x40), (kryupBase, ⟨Reg.CAUSE_PEND.LATCH.off,12,1⟩,1)]
def v10_5_2 : Payload := withChk (ctlAlarm + 9 * 256 + 0xABCDEF * 2^24)
def v10_6_2 : WireMsg := wm 1 70000 5 [7]
def v10_7_2 : WireMsg := wm 2 70000 5 [7,8,9]
def m10_8 : State := lk 130 0x21 {alignCfg := 1} {} []
def v10_8_2 : WireMsg := wm 3 70000 5 [7,8,9]
def m10_9 : State := lk 5 0x21 {portRxq := 0x10000} {} []
def m10_10 : State := lk 5 0x21 {portRxq := 0x10000} {rxLimF := 1} [(laneBase 5, Reg.AGREED_FEAT.FEATURES, 0xFF)]
def v10_10_2 : WireMsg := wm 5 70000 5 [7,8]
def m10_11 : State := lk 5 0x21 {portRxq := 0x10000} {rxLimM := 1} [(laneBase 5, Reg.AGREED_FEAT.FEATURES, 0xFF)]
def v10_11_2 : WireMsg := wm 0x13 70000 5 [7]
def m10_12 : State := en (lk 130 0x21 {} {} [(laneBase 130, Reg.AGREED_FEAT.FEATURES, 0xFF)])
def v10_12_2 : WireMsg := wm 4 70000 5 [7,8]
def m10_13 : State := lk 130 0x21 {} {rxLimM := 1} [(laneBase 130, Reg.AGREED_FEAT.FEATURES, 0xFF),(laneBase 130, Reg.LINK_STATE.NEGO, 2)]
def v10_13_2 : WireMsg := wm 0x20 70000 1 []
def m10_14 : State := lk 130 0x20 {} {rxLimM := 1, limitM := 65535, consM := 65530} []
def v10_14_2 : WireMsg := wm 0x10 70000 0x3F07 [0x28004]
def m10_15 : State := lk 130 0x20 {} {rxLimM := 2, limitM := 0, consM := 65535} []
def v10_15_2 : WireMsg := wm 0x11 70000 0x0107 [0x28004,0x1122334455]
def m10_19 : State := lk 5 0x21 {} {rxLimF := 65535, txQueue := [{orig := .eventNotice, msg := {typ := 1, body := [3]}}]} [(laneBase 5, Reg.AGREED_FEAT.FEATURES, 0xFF), (laneBase 5, Reg.LINK_STATE.NEGO, 1), (laneBase 5, Reg.LINK_STATE.ANNOUNCE_TX, 1), (laneBase 5, Reg.LINK_CTRL.MARK_TX_EN, 1)]
def m10_20 : State := lk 5 0x21 {} {} [ (laneBase 5, Reg.LINK_STATE.NEGO, 1)]

end Witness10

namespace Witness11

def msg5 : Msg := {typ := 0x13, stamp := 7, route := 9, body := [1,2,3,4,5]}
def pq (mem : SMap Byte) (r : LaneRec) (l : LinkRec) : State :=
 ⟨[], { ((up.setPd 26 pdOn).put [(laneBase 5, .running), (columnBase 1 0, .running)]).flds [] with lanes := ⟨[(5, r)]⟩, links := ⟨[(5, l)]⟩, mem := {bytes := mem} }⟩
def rr : LaneRec := {portCol := 0, portRxq := 0x17FF, portTxq := 0x10010 }
def hw : RowWord := entryHead {typ := 3, route := 9, body := [1,2,3,4,5]} 0xABCDE true
def txS : State := let s := pq {} rr {}
  {s with dev := (s.dev.putWord (queueWord 0 0x10010 1) hw).putWord (queueWord 0 0x10010 2) 77}
def cfgS (l : List (Nat × Fld × Nat)) (f : Dev → Dev) : State := ⟨[], f ((up.put [(configBase, .running)]).flds l)⟩
def lpS : State := cfgS [(configBase, Reg.PCMD_GROUPS.MASK, 0x8001), (configBase, Reg.STAGE_SRC_HI.ADDR_HI, 16), (cryptoBase, Reg.KEY_SLOT.STATE, 1)] fun d => ((d.put [(cryptoBase,.running),(mcBase 0,.running)])).putLine 0 (d.sealLine 0 0 lineGood 0x80010003)
def txS2 : State := {txS with dev := txS.dev.flds [(laneBase 5, Reg.LINK_VER.NEGOTIATED, 0x20)]}
def m11_1 : State := pq {} {rr with portRxq := 0x17FE} {rxWait := [{cross := 5, msg := msg5}]}
def v11_1_2 : Held := {cross := 5, msg := msg5}
def m11_2 : State := pq {} {rr with portRxq := 0x7FF} {rxWait := [{cross := 5, msg := {msg5 with typ := 5}}], rxqPos := 6}
def v11_2_2 : Held := {cross := 5, msg := {msg5 with typ := 5}}
def m11_3 : State := pq {} {rr with portRxq := 0x7FF} {rxWait := [{cross := 5, msg := {msg5 with typ := 1}}], rxqPos := 6}
def v11_3_2 : Held := {cross := 5, msg := {msg5 with typ := 1}}
def m11_9 : State := txS2
def m11_5 : State := cfgS [(configBase, Reg.PCMD_GROUPS.MASK, 0x8001), (configBase, Reg.PSW_TARGET_LO.CROSS_LO, 2), (configBase, ⟨Reg.PSLOT_G.off,8,3⟩, 2), (configBase, ⟨Reg.PSLOT_G.off+60,8,3⟩, 3)] id
def m11_6 : State := cfgS [(configBase, Reg.PCMD_GROUPS.MASK, 0x8001), (configBase, ⟨Reg.STAGE_STATE.off,2,2⟩, 2), (configBase, Reg.STAGE_INFO.PLATE.elem 1, 3), (configBase, Reg.STAGE_INFO.VALID.elem 1, 0xFFFF), (configBase, ⟨Reg.PSLOT_G.off,8,3⟩, 4), (configBase, ⟨Reg.PSLOT_G.off+60,8,3⟩, 2)] fun d => d.modPlates fun p => {p with driveMaps := ⟨[(3, {})]⟩, pending := ⟨[(4, {})]⟩}
def m11_7 : State := cfgS [(configBase, Reg.PCMD_GROUPS.MASK, 1), (configBase, Reg.PSW_TARGET_LO.CROSS_LO, 2), (configBase, ⟨Reg.PSLOT_G.off,0,3⟩, 2), (configBase, ⟨Reg.PSLOT_G.off,4,3⟩, 3), (configBase, Reg.PCYCLE.LIST, 4), (configBase, Reg.PCYCLE.K, 1), (powerBase, Reg.MODE_STATUS.MODE, 4)] id
def m11_8 : State := lpS
def v11_8_2 : Byte := 3

end Witness11

namespace Witness12

def cfgS (l : List (Nat × Fld × Nat)) (f : Dev → Dev) : State := ⟨[], f ((up.put [(configBase, .running)]).flds l)⟩
def P (f : PlateRec → PlateRec) (d : Dev) : Dev := d.modPlates f
def tok (g : Nat) (d : Dev) : Dev := d.modHeat fun h => {h with token := ⟨(groupColumns g).map fun c => (c, Activity.staging)⟩}
def cpS (g p : Nat) (st : Nat) (f : PlateRec → PlateRec) : State := cfgS [(configBase, ⟨Reg.PSLOT_G.off + 4*g,4*p,3⟩, st),(configBase, ⟨Reg.STAGE_STATE.off,2,2⟩, 2), (configBase, Reg.STAGE_INFO.PLATE.elem 1, 0), (configBase, Reg.STAGE_INFO.VALID.elem 1, 0xFFFF)] (fun d => tok g ((d.modPlates f).modPlates fun x => {x with stageFrames := ⟨[(stageKey (groupColumns g)[0]! 1 0 5 3, 7), (stageKey (groupColumns g)[0]! 1 1 2591 7, 9)]⟩, plateFrames := ⟨[(plateKey 0 (groupColumns g)[0]! 2 5 4, 7)]⟩}))
def sw (l : List (Nat × Fld × Nat)) (f : PlateRec → PlateRec) : State := cfgS ([(configBase, ⟨Reg.PSLOT_G.off + 60,0,3⟩, 3),(configBase, ⟨Reg.PSLOT_G.off + 60,4,3⟩, 2)]++l) (fun d => (d.modPlates f).modHeat fun h => {h with token := ⟨[(255, .plateScrub)]⟩})
def recBody : List Word := BitVec.ofNat 32 9 :: List.replicate 16 0
def recHead : List Word := [BitVec.ofNat 32 (0x10 + 2^12 + 2^19 + 9 * 2^24), 0, 68, 68, 0, 0, 0]
def recBytes : List Byte := (recHead ++ recBody).flatMap fun w => bytesOf 4 w.toNat
def recWords : List Word := recHead ++ [crc32c recBytes] ++ recBody
def strS : State := cfgS [(configBase, ⟨Reg.STAGE_STATE.off,2,2⟩, 1)] (P fun p => {p with dataCmd := some (.fillStream 1), stream := recWords.dropLast})
def rlS : State := cfgS [(configBase, ⟨Reg.PSLOT_G.off + 12,8,3⟩, 4)] (P fun p => {p with reloads := [{column := 12, slot := 2}]})
def m12_2 : State := cfgS [] (P fun p => {p with dataCmd := some (.fillStream 1), stream := List.replicate 6 0})
def m12_12 : State := rlS
def v12_12_5 : ReloadReq := ({column := 12, slot := 2} : ReloadReq)
def m12_9 : State := sw [(powerBase, Reg.MODE_STATUS.MODE, 4), (configBase, Reg.PLATE_CTRL.SCRUB_EN, 1), (configBase, Reg.PLATE_CTRL.AUTO_RECOVER, 0)] (fun p => {p with logic := ⟨[(15,1)]⟩, pending := ⟨[(15,{list := [1,0], cycle := true, target := 0})]⟩})
def m12_8 : State := sw [] (fun p => {p with logic := ⟨[(15,1)]⟩, pending := ⟨[(15,{list := [3], target := 0})]⟩})
def m12_7 : State := sw [] (fun p => {p with logic := ⟨[(15,1)]⟩, pending := ⟨[(15,{list := [1], target := 0})]⟩})

end Witness12

namespace Witness13

def colS (c : Nat) (l : List (Nat × Fld × Nat)) (f : MemRec → MemRec) : State := ⟨[], (((up.each [7,8,9,10,11,12,13,14,15,16,17,18,19,20,21,22,23,24,25,26,27,28,29,30,31,32,33] fun d k => d.setPd k pdOn).put [(columnBase 1 c, .running)]).flds l).modMem f⟩
def dirty (m : MemRec) : MemRec := let w := wordIndex 255 7 2047 0; { m with bytes := ⟨[(32*w, 5),(32*w+255,255),(32*(w+7)+31,7)]⟩, err := ⟨[(w, 2#266), (w+3, 2^265+1)]⟩ }
def tk (s : State) : State := {s with dev := s.dev.modHeat fun h => {h with token := ⟨[(255,.memScrub)]⟩}}
def st (s : State) : State := {s with dev := s.dev.put [(columnBase 1 255, .stopped), (columnBase 0 255, .running), (columnBase 2 255, .running)] }
def fe (s : State) : State := {s with dev := (s.dev.put [(columnBase 2 255, .running), (columnBase 0 255, .running)]).modStack fun x => {x with fence := ⟨[(255,1)]⟩} }
def m13_2 : State := colS 255 [] (fun m => {dirty m with err := {}, turn := ⟨[(2047,1)]⟩})
def v13_2_11 : List (ℕ × ℕ) := ([(3,1)] : List (Nat×Nat))
def m13_4 : State := colS 255 [] (fun m => {dirty m with twin := ⟨[(255,1)]⟩})
def m13_5 : State := colS 255 [] (fun m => {dirty m with twin := ⟨[(255,1)]⟩})
def m13_7 : State := tk (colS 255 [(columnBase 1 255, Reg.MEM_CTRL.SCRUB_EN, 1), (columnBase 1 255, Reg.MEM_CTRL.ROW_REPAIR_EN, 1), (columnBase 1 255, Reg.ROW_THRESH.THRESH, 3), (powerBase, Reg.MODE_STATUS.MODE, 4)] (fun m => {dirty m with err := ⟨[(wordIndex 255 7 2047 0, 2#266)]⟩, corr := ⟨[(wordIndex 255 7 2047 0, 5)]⟩, tracked := ⟨[(2047,[(2047,3)])]⟩}))
def m13_9 : State := tk (colS 255 [(columnBase 1 255, Reg.MEM_CTRL.SCRUB_EN, 1), (columnBase 1 255, Reg.MEM_CTRL.ROW_REPAIR_EN, 1), (columnBase 1 255, Reg.ROW_THRESH.THRESH, 3), (powerBase, Reg.MODE_STATUS.MODE, 4)] (fun m => {m with remapped := ⟨[(2047, List.range 12)]⟩, tracked := ⟨[(2047,[(2047,3)])]⟩}))
def m13_10 : State := st (colS 255 [] dirty)

end Witness13

namespace Witness14

def rS (e : Nat) (l : List (Nat × Fld × Nat)) (ds : List (Nat × Desc)) (g : EngineRec) : State := ⟨[], { (((up.each ((List.range 27).map (· + 7)) fun d k => d.setPd k pdOn).put ([(strikeBase, .running),(cryptoBase,.running),(mcBase 0,.running),(mcBase 1,.running)]++ ([0, 255].map fun c => (columnBase 1 c, .running))++[(ringBase e, .running)])).flds ([(keeperBase, Reg.LATENCY.L, 8), (cryptoBase, Reg.KEY_SLOT.STATE, 1)]++l)) with rings := { desc := ⟨ds⟩, engines := ⟨[(e, g)]⟩ }, keeper := {now := 70000} }⟩
def dsc : Desc := {state := .opened, logCap := 4, base := 0x3FFFFE00, wr := 0xFFFFFFFF, age := 0xFFFFFFF0}
def sl (e l : Nat) (w : RowWord) : RingSlot := {ring := l, word := w}
def wd : RowWord := slotWord 70001 true false false false 7 9
def ac : Accept := {cross := 70001, before := 3, after := 5, map := 0x8000, prio := 2}
def dest (rq : Nat) : List (Nat × Fld × Nat) := [(ringBase 15, Reg.GRP_DEST.EN.elem 15, 1), (ringBase 15, Reg.GRP_DEST.RQ.elem 15, rq), (ringBase 15, Reg.GRP_DEST.STREAM.elem 15, 0xABCD),(strikeBase, Reg.STK_ACC_CFG.TYPE_EN, 0xFFFF),(strikeBase, Reg.STK_STATUS.HOLD, 0),(clkBase, Reg.CLK_STATUS.TRUNK_SRC, 0)]
def la : List (Nat × Fld × Nat) := [(kryupBase, ⟨Reg.CAUSE_PEND.LATCH.off,10,1⟩,1),(kryupBase, ⟨Reg.CAUSE_PEND.LATCH.off,11,1⟩,1),(keeperBase, Reg.STATE.SELF, UState.running.code)]
def fr : Frag := {group := 15, cross := 9, slots := [7]}
def pw (d : State) (w : RowWord) : State := {d with dev := d.dev.putWord (0x3FFFFE00/32) w}
def m14_3 : State := rS 15 [] [(ringId 15 16383, {dsc with state := .closed})] {fifo := [{}], gap := .opened, record := {count := 5}}
def m14_2 : State := rS 15 [] [(ringId 15 16383, dsc)] {fifo := List.replicate 4096 {}}
def m14_5 : State := rS 15 [] [(ringId 15 16383, {dsc with age := 0xFFFFFFF8})] {fifo := [sl 15 16383 wd,{}], gap := .writing, writing := {rings := [16383], count := 8, oldest := 5, newest := 6}}
def m14_9 : State := rS 15 (dest 1) [(ringId 15 16383, {dsc with age := dsc.wr})] {accepts := [{},ac]}
def m14_10 : State := pw (rS 15 (dest 1) [(ringId 15 16383, {dsc with age := 0xFFFFFFF0, wr := 0xFFFFFFF1})] {accepts := [{},ac]}) wd
def m14_11 : State := rS 15 (dest 1) [(ringId 15 16383, {dsc with age := dsc.wr})] {frags := [fr]}
def m14_12 : State := rS 15 (dest 0++[(laneBase 128,Reg.LINK_VER.NEGOTIATED,0x21),(laneBase 128, Reg.AGREED_FEAT.FEATURES, 0xFF)]) [(ringId 15 16383, {dsc with age := dsc.wr})] {frags := [fr]}
def m14_14 : State := rS 15 (dest 1++la++[(ringBase 15, Reg.RQ_WR.COUNT, 0xFFFFFFC0),(ringBase 15, Reg.RQ_RD.COUNT, 0xFFFFFFC0)]) [(ringId 15 16383, {dsc with age := dsc.wr})] {rqWait := [fr]}

end Witness14

namespace Witness15

def la : List (Nat × Fld × Nat) := [(kryupBase, ⟨Reg.CAUSE_PEND.LATCH.off,10,1⟩,1),(kryupBase, ⟨Reg.CAUSE_PEND.LATCH.off,11,1⟩,1),(keeperBase, Reg.STATE.SELF, UState.running.code)]
def keys : List (Nat × Fld × Nat) := (List.range 16).flatMap fun k => [(cryptoBase, Reg.KEY_SLOT.STATE.elem k, 1), (cryptoBase, ⟨Reg.KEY_SLOT.off+4*k, 16,3⟩, 7)]
def xS (l : List (Nat × Fld × Nat)) (lines : List (Nat × ExtLine)) (f : Dev → Dev): State := ⟨[], f { (((up.each ((List.range 27).map (· + 7)) fun d k => d.setPd k pdOn).put ([(cryptoBase,.running),(mcBase 0,.running),(mcBase 1,.running),(columnBase 1 0, .running)])).flds (la++keys++l)) with ext := {lines := ⟨lines⟩} }⟩
def lnAt (n : Nat) : ExtLine := ({} : Dev).sealLine 15 (64 * n) lineGood 5
def ln : ExtLine := lnAt 33
def mvS (l : List (Nat × Fld × Nat)) (f : Dev → Dev) : State := xS l [] fun d => f (d.put [(moverBase 7, .running)])
def dw : RowWord := BitVec.ofNat 256 (0xA1B2C3D4 + 61*2^64 + (2^125+2^126+2^127) + 3*2^128)
def dk : RowWord := BitVec.ofNat 256 (0xA1B2C3D4 + (61+2^55)*2^64 + (2^126+2^127) + 3*2^128)
def m15_1 : State := xS [] [(33, ln)] id
def m15_4 : State := xS [(cryptoBase, Reg.KEY_SLOT.STATE.elem 15, 2)] [(33, {ln with state := linePoison})] id
def m15_5 : State := xS [(mcBase 0, Reg.MC_CFG.INIT, 2)] [(3, ln)] (fun d => (d.modClk fun c => { c with mpllLock := true }).put [(mcBase 0, .starting),(cryptoBase,.stopped)])
def m15_6 : State := xS [(mcBase 0, Reg.MC_CFG.INIT, 2)] [(3, {ln with errLo := 1})] (fun d => d)
def m15_7 : State := xS [(mcBase 1, Reg.MC_CFG.INIT, 2)] [(63, {ln with errLo := 1})] (fun d => d.modExt fun x => {x with retrainBad := ⟨[(15,1)]⟩})
def m15_9 : State := mvS [] (fun d => (d.putWord 2 dw).modExt fun x => {x with chains := ⟨[(7,{desc := 64})]⟩})
def v15_9_3 : Chain := {desc := 64}
def v15_9_4 : MoverDesc := (moverDesc 2 dw)
def m15_8 : State := mvS [(moverBase 7, Reg.MV_DESC_HI.ADDR_HI, 3)] id
def m15_10 : State := mvS [] (fun d => (d.putWord 2 dk).modExt fun x => {x with chains := ⟨[(7,{desc := 64})]⟩})
def v15_10_3 : Chain := {desc := 64}

end Witness15

namespace Witness16

def iS (l : List (Nat × Fld × Nat)) (r : LoadRec) (f : Dev → Dev) : State := ⟨[], { f (up.flds l) with load := r }⟩
/-- A record with a right CRC: its kind and flags, UNIT, INDEX and payload. -/
def recW (kind unit index : Nat) (p : List Word := []) : List Word :=
  let h : List Word := [BitVec.ofNat 32 (kind + 2 ^ 12), BitVec.ofNat 32 unit, BitVec.ofNat 32 (4 * p.length), BitVec.ofNat 32 (4 * p.length),
    BitVec.ofNat 32 index, 0, 0]
  h ++ bytesCrc (wordBytes (h ++ p)) :: p
def zeros (n : Nat) : List Word := List.replicate n 0
def fm : Decl := {base := formeBase, galleyId := 0}
def col (n len : Nat) : Colophon := {magic := 0x4B4E46, fmtMajor := 3, family := 0x43, part := 7, stepMax := 0xFFFF, gradeMask := 0xFF, hashId := 2, recordCount := n, imageLen := len}
def img0 : Image := {colophon := col 3 700, decls := [fm]}
def rec1 : LoadRec := {mode := .stream, step := .idle, image := some img0, openUnits := [formeBase], index := 1, signed := true}
/-- A load at which the words of a record stand next. -/
def at_ (l : LoadRec) (r : List Word) (f : Dev → Dev := id) : State := iS [] { l with words := r ++ [0xDEADBEEF] } f
def opens : List Word := recW (1 + 2 ^ 16 + 2 ^ 17) 0x900000 1 ([5 * 2 ^ 8 + 4, 5, 0, 0, 1] ++ zeros 7 ++ [3] ++ zeros 7)
def closes : List Word := recW 2 formeBase 1
def pins : List Word := recW 0x12 pinsBase 1 [319, 5 + 2 ^ 16 + 2 ^ 19]
def settings : List Word := recW 0x13 keeperBase 1 [0x100, 0x100, 7]
def rings : List Word := recW 0x14 0 1 [2 ^ 28 + 1, 5, 0x1000, 0x10, 2 ^ 29 + 2, 131070, 7, 9]
def preload : List Word := recW 0x15 0 1 ([2 ^ 30 - 32, 0, 32] ++ zeros 7 ++ [3])
def thermal : List Word := recW 0x16 0 1 ([1] ++ zeros 7 ++ [2] ++ zeros 7)
def latWords (decision : Nat) : List Word := [8 + 2 ^ 16, 4 + 4 * 2 ^ 8, 7 + 2 ^ 8 + 2 ^ 15, 1, BitVec.ofNat 32 decision]
def lats : List Word := recW 0x18 keeperBase 1 (latWords 5)
def other : List Word := recW 0x80 5 1 [1, 2]
def struckRec : List Word := (recW 2 formeBase 1).set 4 3
def img1 : Image := {img0 with decls := [fm, {base := 0x900000, galleyId := 5, occL4 := [7]}]}
def init : List Word := recW 0x11 0 2 [7 + 2 ^ 8 + 862 * 2 ^ 16, 1, 5, 6]
def drive : List Word := recW 0x17 0 2 ([3] ++ zeros 11 ++ [9] ++ zeros 8)
def plate : List Word := recW (0x10 + 2 ^ 19 + 3 * 2 ^ 24) 0 2 ((3 + 2 * 2 ^ 8) :: zeros 16)
def lat2 : LatencyDecl := {n := 4, r := 1, l := 8, xbMul := 4, aValid := true, aDie := 1, aCol := 7, galleys := [5]}
def ended : List Word := recW 0x7F 0 3
def img2 : Image := {img1 with colophon := { col 4 384 with digest := bigNum (sha384 (wordBytes (closes ++ closes ++ closes ++ ended))) }, decls := [fm, {base := 0x900000, galleyId := 5, occL4 := [7], decision := true}], latency := some (2, lat2)}
def img3 : Image := {img2 with colophon := {img2.colophon with digest := 5}}
def recE (sg : Bool) : LoadRec := {rec1 with image := some img2, openUnits := [], index := 3, body := closes ++ closes ++ closes, signed := sg}
/-- A colophon with a right CRC. -/
def colWords (magic : Nat) : List Word :=
  let w : List Word := [BitVec.ofNat 32 magic, 3 * 2 ^ 8 + 0x43 * 2 ^ 16 + 7 * 2 ^ 24, 0xFFFF0000, 0xFF, 5, 0, 0, 0, 3, 2, 0, 700] ++ zeros 51
  w ++ [bytesCrc (wordBytes w)]
def fresh : LoadRec := {mode := .stream, step := .idle, verified := some {}}
def ends (sg : Bool) : State := iS [(powerBase, Reg.MODE_STATUS.MODE, 2)] { recE sg with words := ended ++ [7] } (fun d => {d with clk := {d.clk with rootRef := 0, ratioN := 4, ratioXb := 4}, keeper := {d.keeper with crossKHz := 40000}})
/-- A signature block made outside the model: the key 0x1234567890ABCDEF1234567890ABCDEF, the empty message. -/
def signedBlock : List Word :=
 [0x4652D1BF, 0xB9E55854, 0xEA03A9F1, 0x9530F0FE, 0xC552FDEB, 0xBE97EAF9, 0x9491DE74, 0xB4CF5F35, 0x3197C00E, 0xFD6ADF5A,
  0xF421BAEF, 0x485B624B, 0xFF8E0517, 0x75D11A9A, 0x9C5E67A4, 0x28B00C73, 0xC5AE76EC, 0x6DA5F744, 0x8C4D1658, 0xB40204FC,
  0x4CE7C489, 0xA7C38D91, 0x9D215C7F, 0x45E2B831, 0xF859A8FD, 0x5AAFA2B, 0xE1BBE696, 0xE462440, 0xC0192E3C, 0xBD26BB3A, 0xA4A5939A,
  0x6BD7CC61, 0x8B714F5F, 0x398E6551, 0xD05C2214, 0x23155360, 0xFD518832, 0x9C4DCEB0, 0x3D7A3F05, 0x8F15DE53, 0x34F52D37, 0x6A3CF1B,
  0x4CE7B3CE, 0x596BCEBB, 0x74BF2474, 0x3F064756, 0x839917AB, 0x1C44706D]
def signer : IdentRec := { present := 1, keyHash := ⟨[(0, 6702316802544249884099810976029043463214904102682570858302621052378825191998374753737742246572544147150180725078652#384)]⟩ }
def signs (l : LoadRec) : State := iS [] { l with image := some img0, signed := false } fun d => { d with ident := signer }

end Witness16

namespace Witness17

def bS (f : Dev → Dev) : State := ⟨[], f (up.put [(rootBase, .stopped)])⟩
def ld (r : LoadRec) (d : Dev) : Dev := {d with load := r}
def ls (st : BootStep) (l : List (Nat × UState)) (fl : List (Nat × Fld × Nat)) (f : Dev → Dev): State := bS fun d => ld {step := st} (f ({d with clk := {d.clk with xa := .running, xb := .running, xbKHz := 40000, tick := 25}}.put l |>.flds fl))
def lb (l : LoadRec) (fl : List (Nat × Fld × Nat)) : State := bS fun d => ld l ({d with clk := {d.clk with tick := 500}}.flds fl)
def rl (u : List (Nat × UserUnit)) (l : List (Nat × UState)) (r : LoadRec) : State := bS fun d => ld r ({d with units := {d.units with user := ⟨u⟩}}.put l)
def lat2 : LatencyDecl := {n := 4, r := 1, l := 8, xbMul := 4, aValid := true, aDie := 1, aCol := 7, galleys := [5]}
def imr : Image := {colophon := {imageId := 0x123456789ABCDEF0}, decls := [{base := formeBase}, {base := 0x900000, initPresent := true, occL2 := [0]}], latency := some (2, lat2)}
def m17_4 : State := bS (fun d => (ld {step := .fio} {d with clk := {d.clk with fio := .starting, xaWait := 7, tick := 64}}))
def m17_1 : State := bS (ld {step := .power})
def m17_5 : State := bS (fun d => (ld {step := .crystals} {d with clk := {d.clk with xa := .starting, xb := .starting, tick := 25}}))
def m17_6 : State := bS (fun d => (ld {step := .crystals} {d with clk := {d.clk with xa := .starting, xb := .running, tick := 25}}))
def m17_7 : State := ls .loading [(pllBase 2, .starting)] [] id
def m17_9 : State := ls .bist [(mcBase 0, .starting)] [] id
def m17_8 : State := ls .locking [(pllBase 2, .starting),(pllBase 0, .running),(pllBase 1, .running)] [(pllBase 0, Reg.PLL_STATUS.LOCK, 1), (pllBase 1, Reg.PLL_STATUS.LOCK, 1)] (fun d => {d with pins := {d.pins with burned := 0}})
def m17_14 : State := lb {mode := .stream, step := .idle} [(rootBase, Reg.LD_CFG.TIMEOUT, 500),(rootBase, Reg.LD_STATUS.PATH, 6)]
def m17_10 : State := lb {step := .loading, boot := {order := 0x9201}, entry := 1} []
def m17_12 : State := lb {step := .loading, boot := {order := 0x4203}, entry := 2} []
def m17_22 : State := lb {step := .loading, boot := {order := 0x4203}, entry := 0} []
def m17_18 : State := rl [(formeBase, {rel := .held}), (0x900000, {rel := .held, relTarget := some 0})] [(formeBase, .starting),(0x900000, .starting)] {step := .idle, target := some 0, verified := some imr}
def v17_18_1 : Image := imr
def v17_18_2 : LatencyDecl := lat2
def m17_19 : State := rl [(formeBase, {rel := .held}), (0x900000, {rel := .outputs, relCross := 2^48-1})] [(formeBase, .starting),(0x900000, .starting)] {step := .idle}
def m17_20 : State := rl [(formeBase, {rel := .held}), (0x900000, {rel := .writes, relCross := 2^48-1})] [(formeBase, .starting),(0x900000, .starting)] {step := .idle}

end Witness17

namespace Witness18

def cS (c : ClockRec) (l : List (Nat × UState)) (fl : List (Nat × Fld × Nat)) (f : Dev → Dev := id) : State :=
  ⟨[], (f {up with clk := {c with tick := 2000}}).put ((rootBase, .stopped) :: (clkBase, .stopped) :: l) |>.flds fl⟩
def mon (m : Nat) : List (Nat × Fld × Nat) := [(monitorBase m, Reg.MON_STATUS.RUNNING, 1), (monitorBase m, Reg.MON_CFG.EN, 1), (kryupBase, ⟨Reg.CAUSE_PEND.LATCH.off, causeClock, 1⟩, 1), (kryupBase, ⟨Reg.CAUSE_PEND.LATCH.off, causeRoot, 1⟩, 1)]
def ns (c : ClockRec) (fl : List (Nat × Fld × Nat) := []) : State := cS c [(pllBase 2, .running),(pllBase 1, .running),(pllBase 0, .running)] ([(pllBase 2, Reg.PLL_STATUS.LOCK, 1), (pllBase 0, Reg.PLL_STATUS.ACTIVE, 1)] ++ fl) fun d => {d with keeper := {d.keeper with released := true, now := 2^48-1}}
def m18_3 : State := cS {fio := .failed, fioTick := 976, rootRef := 1} [(pllBase 0, .running)] ((pllBase 0, Reg.PLL_STATUS.LOCK, 1) :: mon 3)
def m18_1 : State := cS {fio := .running} [] (mon 0)
def m18_2 : State := cS {fio := .running} [] ((clkBase, Reg.CLK_STATUS.REG_SRC, 1) :: mon 1)
def m18_4 : State := cS {fio := .failed, fioTick := 976, rootRef := 1} [(pllBase 0, .running)] ((monitorBase 3, Reg.MON_STATUS.TRIPPED, 1) :: mon 3)
def m18_5 : State := cS {fio := .running, mpllLock := true} [(pllBase 2, .running),(pllBase 1, .running),(pllBase 0, .running),(mcBase 0, .running),(mcBase 1,.stopped)] ([(clkBase, Reg.CLK_STATUS.REG_SRC, 0),(pllBase 2, Reg.PLL_STATUS.LOCK, 1), (pllBase 0, Reg.PLL_STATUS.ACTIVE, 1)] ++ mon 1)
def m18_6 : State := cS {fio := .running, mpllLock := true} [(pllBase 2, .running),(pllBase 1, .running),(pllBase 0, .running),(mcBase 0, .running),(mcBase 1,.stopped)] ([(clkBase, Reg.CLK_STATUS.REG_SRC, 0),(pllBase 2, Reg.PLL_STATUS.LOCK, 1), (pllBase 0, Reg.PLL_STATUS.ACTIVE, 1),(pllBase 1, Reg.PLL_STATUS.ALIGNED, 1),(pllBase 1, Reg.PLL_STATUS.LOCK, 1)] ++ mon 1)
def m18_8 : State := ns {fio := .failed, trunk := {state := .relock}, relock := some {root := 1, tick := 1975}}
def v18_8_5 : Relock := {root := 1, tick := 1975}
def m18_9 : State := ns {fio := .running, reg := {state := .stopping, target := .fio, reqTick := 1984}, trunk := {state := .stopping, target := .fio}}
def m18_10 : State := ns {fio := .running, reg := {state := .restart, target := .fio, forced := true}, trunk := {state := .restart, target := .fio}}
def m18_7 : State := ns {fio := .running, reg := {state := .run, forced := true}}

end Witness18

namespace Witness19

def rS (f : Dev → Dev) (l : List (Nat × UState)) (fl : List (Nat × Fld × Nat)) : State :=
  ⟨[], f (((up).put ((rootBase, .stopped) :: (clkBase, .stopped) :: l)).flds fl)⟩
def m19_2 : State := rS id [(kryupBase, .running)] [(kryupBase, Reg.THM_EVENT.TRIP, 1), (kryupBase, ⟨Reg.CAUSE_PEND.LATCH.off, causeKwWrite, 1⟩, 1)]
def v19_2_2 : Byte := 0xC2
def m19_3 : State := rS (fun d => {d with kryup := {warm := true, warmHeld := true}}) [(kryupBase, .running)] [(kryupBase, Reg.THM_EVENT.TRIP, 1), (kryupBase, ⟨Reg.CAUSE_PEND.LATCH.off, causeKwWrite, 1⟩, 1)]

end Witness19

namespace Witness20

def kS (f : Dev → Dev) (l : List (Nat × UState)) (fl : List (Nat × Fld × Nat)) : State :=
  ⟨[], f (({up with clk := {tick := 2^24+6}}.put ((rootBase, .stopped) :: (kryupBase, .running) :: l)).flds fl)⟩
def lt (c : Nat) : Nat × Fld × Nat := (kryupBase, ⟨Reg.CAUSE_PEND.LATCH.off, c, 1⟩, 1)
def m20_2 : State := kS (fun d => {d with kryup := {lastTick := ⟨[(causeClock, 2^24+6-65)]⟩}}) [] [lt causeSupply, lt causeClock]
def m20_3 : State := kS (fun d => {d with load := {opened := true}, kryup := {wdgTicks := 1}}) [] [lt causeWatchdog, (kryupBase, Reg.WDG_CFG.EN, 1), (kryupBase, Reg.WDG_CFG.PERIOD, 0), (powerBase, Reg.MODE_STATUS.MODE, 3)]
def m20_1 : State := kS (fun d => d.setReg (kryupBase + 0x410) (fset (d.reg (kryupBase+0x410)) Reg.POL_ENTRY0.ACTIONS 1)) [] [(kryupBase, ⟨Reg.LOG_HEAD.off, 0, 32⟩, 2^32-1)]
def m20_5 : State := kS (fun d => {d with kryup := {prop := List.replicate 4095 7}}) [] [(kryupBase, Reg.PROP_STATUS.STATE, 1)]
def m20_8 : State := kS (fun d => {d with clk := {d.clk with ratioN := 4}, heat := {pT := ⟨[(15, 2)]⟩, pTick := ⟨[(15, 2^24+6-64)]⟩, common := 200, hotMap := ⟨[(255, 1)]⟩, lastBg := ⟨[(255, 5)]⟩}}) [(columnBase 0 5, .stopped), (columnBase 1 255, .running), (stctlBase, .running)] [lt causeThermalHold, lt causeCrossLost, lt causeTrip, (columnBase 1 255, Reg.MEM_CTRL.SCRUB_EN, 1), (stctlBase, Reg.PEAL_CTRL.EN, 1), (powerBase, Reg.MODE_STATUS.MODE, 4), (pdBase, Reg.PD.STATE.elem 29, pdOn)]
def v20_8_8 : BitVec 6 := 63
def m20_7 : State := kS (fun d => {d with clk := {d.clk with ratioN := 4}, heat := {pT := ⟨[(15, 5)]⟩, pTick := ⟨[(15, 2^24+6-64)]⟩, common := 400, hotMap := ⟨[(511, 1)]⟩, idleSlot := ⟨[(255, 1)]⟩}}) [(columnBase 0 5, .stopped)] [lt causeThermalHold, lt causeCrossLost, lt causeTrip]
def m20_11 : State := kS (fun d => {d with plates := {dataCmd := some (.reload 255 0 0 [])}, heat := {hotMap := ⟨[(511, 1)]⟩}}) [] []
def m20_10 : State := kS (fun d => {d with  heat := {colStep := ⟨[(255, 1)]⟩}}) [] []

end Witness20

namespace Witness21

def mS (f : Dev → Dev) (l : List (Nat × UState)) (fl : List (Nat × Fld × Nat)) : State :=
  ⟨[], f (({up with clk := {tick := 500}}.put ((rootBase, .stopped) :: (powerBase, .running) :: l)).flds fl)⟩
def mode (m : Nat) : Nat × Fld × Nat := (powerBase, Reg.MODE_STATUS.MODE, m)
def vr (l : LoadRec) (p : PowerRec) (d : Dev) : Dev := {d with load := l, power := p}
def m21_9 : State := ⟨[], ({ clk := {tick := 500}, power := {dormTick := 499} } : Dev).flds [(powerBase, Reg.PWR_CFG.WAKE_N_EN, 1), (powerBase, Reg.PWR_CFG.WAKE_SPI_EN, 1), (powerBase, Reg.PWR_CFG.WAKE_TICK_EN, 1), (powerBase, Reg.MODE_STATUS.MODE, 0), (powerBase, Reg.DORM_TIMER.TICKS, 0)]⟩
def m21_6 : State := mS (vr {verified := some {}} {voutMv := 700}) [] [mode 3,(powerBase, Reg.PMB_CFG.EN, 1)]
def m21_7 : State := mS (vr {verified := some {}} {voutReq := some {mv := 800, why := .before}, stage := 1}) [] [mode 3,(powerBase, Reg.PMB_CFG.EN, 1),(powerBase, Reg.MODE_STATUS.CHANGING, 1),(powerBase, Reg.MODE_STATUS.TARGET, 4)]
def m21_1 : State := mS id [] [mode 4]
def m21_8 : State := mS (vr {verified := some {}} {stage := 4}) [] [mode 3,(powerBase, Reg.PMB_CFG.EN, 1),(powerBase, Reg.MODE_STATUS.CHANGING, 1),(powerBase, Reg.MODE_STATUS.TARGET, 4)]
def m21_10 : State := ⟨[], ({ clk := {tick := 500}, power := {dormTick := 499} } : Dev).flds [(powerBase, Reg.PWR_CFG.WAKE_N_EN, 0), (powerBase, Reg.MODE_STATUS.MODE, 0)]⟩

end Witness21

namespace Witness22

def dS (f : Dev → Dev) (l : List (Nat × UState)) (fl : List (Nat × Fld × Nat)) : State :=
  ⟨[], f (({up with clk := {tick := 500, fabKHz := 800000}}.put ((rootBase, .stopped) :: (pdBase, .running) :: l)).flds ((kryupBase, ⟨Reg.CAUSE_PEND.LATCH.off, causeDomain, 1⟩, 1) :: (kryupBase, ⟨Reg.CAUSE_PEND.LATCH.off, causeDroop, 1⟩, 1) :: fl))⟩
def pds (k st : Nat) : Nat × Fld × Nat := (pdBase, Reg.PD.STATE.elem k, st)
def m22_2 : State := dS (fun d => {d with power := {rampTick := ⟨[(7,496)]⟩}}) [] [pds 7 1]
def m22_3 : State := dS id [(cryptoBase, .running)] []
def m22_11 : State := dS (fun d => {d with power := {admission := [15, 3], episodes := ⟨[(15, {level := 1})]⟩}}) [] [pds 35 2]
def m22_9 : State := dS id [] []

end Witness22

namespace Witness23

def tS (f : Dev → Dev) (l : List (Nat × UState)) (fl : List (Nat × Fld × Nat)) : State :=
  ⟨[], f (({up with clk := {tick := 500}}.put ((rootBase, .stopped) :: (kryupBase, .running) :: (stctlBase, .running) :: l)).flds ((powerBase, Reg.MODE_STATUS.MODE, 7) :: (kryupBase, ⟨Reg.CAUSE_PEND.LATCH.off, causeScan, 1⟩, 1) :: (kryupBase, ⟨Reg.CAUSE_PEND.LATCH.off, causeKwWrite, 1⟩, 1) :: fl))⟩
def pl (r : Relief) (f : Dev → Dev := id) : State := tS (fun d => f {d with heat := {token := ⟨[(255, .peal)]⟩}, mem := {relief := ⟨[(15, r)]⟩, bytes := ⟨[(2040 * 2^19 + 7, 6), (2063 * 2^19 + 7, 1)]⟩}}) [(columnBase 1 255, .running)] [(stctlBase, Reg.PEAL_CTRL.EN, 1), (stctlBase, Reg.PEAL_CTRL.KIND_EN, 127), (powerBase, Reg.MODE_STATUS.MODE, 4)]
def rl (t : TestRec) (f : Dev → Dev) (fl : List (Nat × Fld × Nat)) : State := tS (fun d => f {d with test := t}) [(laneBase 143, .running), (laneGroupBase 17, .running)] ([(pdBase, Reg.PD.STATE.elem 25, 2), (laneBase 143, Reg.CTRL.PROOF_EN, 1), (laneBase 143 + 0x600, Reg.PRF_STATUS.SYNC, 1)] ++ fl)
def m23_3 : State := tS (fun d => {d with test := {bist := some 0x18001, priv := some cryptoBase}, mem := {bytes := ⟨[(5, 7), (255 * 2^22+9, 8)]⟩}}) [(cryptoBase, .isolated)] [(stctlBase, Reg.BIST_STATUS.GROUPS_FAIL, 0xFFFF)]
def m23_1 : State := tS id [(cryptoBase, .stopped)] []
def m23_2 : State := tS id [(cryptoBase, .stopped)] [(powerBase, Reg.MODE_STATUS.MODE, 2)]
def m23_12 : State := tS id [] [(stctlBase, Reg.SCAN_PERMIT.EN, 0)]
def m23_4 : State := pl {} (fun d => {d with mem := {}})
def m23_6 : State := pl {bank := 2040, phase := 1}
def v23_6_7 : Relief := {bank := 2040, phase := 1}
def m23_5 : State := pl {bank := 2040}
def v23_5_7 : Relief := {bank := 2040}
def m23_7 : State := pl {bank := 2040, phase := 2}
def v23_7_7 : Relief := {bank := 2040, phase := 2}
def m23_8 : State := rl {log := [{w0 := 5, w1 := 0x20000000}], softMap := [3, 4]} (fun d => {d with ident := {d.ident with closed := true}, proof := ⟨[(laneBase 143, {errs := [(5, 1001)]})]⟩}) []
def m23_9 : State := rl {log := [{w0 := 5, w1 := 0x20000000}], softMap := [3, 4]} (fun d => {d with power := {railsGood := 2^18}, pins := {burned := 1535}}) []
def m23_10 : State := rl {log := [{w0 := 5, w1 := 0x20000000}], softMap := [3, 4], repRun := some []} (fun d => {d with power := {railsGood := 2^18}, pins := {burned := 1535}}) []

end Witness23

namespace Witness24

def pS (f : Dev → Dev) (l : List (Nat × UState)) (fl : List (Nat × Fld × Nat)) : State :=
  ⟨[], f (({up with clk := {tick := 500}}.put ((rootBase, .stopped) :: (pinsBase, .running) :: (serialGalleyBase, .running) :: l)).flds ((powerBase, Reg.MODE_STATUS.MODE, 7) :: fl))⟩
def sr (i : Nat) (r : SerialRec) (l : List (Nat × Fld × Nat) := []) : State := pS (fun d => {d with pins := {serial := ⟨[(i, r)]⟩}}) [(serialBase i, .running)] l
def fr (r : Option (Nat × Nat × Word)) : State := pS (fun d => {d with pins := {flashRun := r, flash := ⟨[(65, 7), (65536, 8), (66560, 9)]⟩}}) [] []
def m24_1 : State := pS id [(gpioBase 7, .running)] [(gpioBase 7, Reg.PIN_CFG.IRQ_MODE.elem 39, 3)]
def m24_2 : State := pS (fun d => {d with power := {vccio := ⟨[(7,3)]⟩}}) [] [(gpioBase 7, Reg.PIN_CFG.IRQ_MODE.elem 39, 3)]
def m24_11 : State := fr (some (1, 0x40000, 10))
def v24_12_4 : Word := 10
def m24_3 : State := pS id [(serialBase 1, .stopped)] []
def m24_4 : State := pS (fun d => {d with ctl := {waiting := [{path := 6, write := true, addr := 0, data := 0}]}}) [(serialBase 1, .off)] []
def m24_7 : State := sr 5 {tx := [7]} [(pinsBase, muxField 25, 7)]
def m24_6 : State := sr 2 {tx := List.replicate 64 1, busy := true, rx := [⟨5, true⟩]} [(serialBase 2, Reg.SER_CMD.RD_LEN, 2), (serialBase 2, Reg.SER_CMD.WR_LEN, 63)]
def m24_5 : State := sr 0 {}
def m24_16 : State := sr 3 {tx := [7], rx := List.replicate 64 ⟨5, true⟩} [(serialBase 3, Reg.SER_CFG.TARGET, 1), (pinsBase, muxField 18, 5), (pinsBase, muxField 19, 5)]

end Witness24

namespace Witness25

def lk (n ver : Nat) (r : LaneRec) (k : LinkRec) (l : List (Nat × Fld × Nat)) : State :=
 let b := laneBase n
 ⟨[], { ((up.setPd (8+n/8) pdOn).put [(b, .running)]).flds ([(b,Reg.LANE_STATUS.LOS,0),(b,Reg.LANE_STATUS.CDR_LOCK,1),(b,Reg.BLK_STATE.STATE,3),(b,Reg.LINK_VER.NEGOTIATED,ver),(keeperBase, Reg.LATENCY.L, 8)]++l) with lanes := ⟨[(n,r)]⟩, links := ⟨[(n,k)]⟩, keeper := {now := 70000} }⟩
def an (hi lo ft sn : Nat) : Payload := BitVec.ofNat 64 (ctlAnnounce + hi*256 + lo*65536 + sn*2^24 + ft * 2^32)
def f7 (u : UState) (l : List (Nat × Fld × Nat)) : State := ⟨[], ((up.setPd 24 pdOn).put [(laneBase 130, u)]).flds l⟩
def cS (c : ClockRec) (l : List (Nat × UState)) (fl : List (Nat × Fld × Nat)) (f : Dev → Dev := id) : State :=
  ⟨[], (f {up with clk := {c with tick := 2000}}).put ((rootBase, .stopped) :: (clkBase, .stopped) :: l) |>.flds fl⟩
def rS (e : Nat) (l : List (Nat × Fld × Nat)) (ds : List (Nat × Desc)) (g : EngineRec) : State := ⟨[], { (((up.each ((List.range 27).map (· + 7)) fun d k => d.setPd k pdOn).put ([(strikeBase, .running),(cryptoBase,.running),(mcBase 0,.running),(mcBase 1,.running)]++ ([0, 255].map fun c => (columnBase 1 c, .running))++[(ringBase e, .running)])).flds ([(keeperBase, Reg.LATENCY.L, 8), (cryptoBase, Reg.KEY_SLOT.STATE, 1)]++l)) with rings := { desc := ⟨ds⟩, engines := ⟨[(e, g)]⟩ }, keeper := {now := 70000} }⟩
def dsc : Desc := {state := .opened, logCap := 4, base := 0x3FFFFE00, wr := 0xFFFFFFFF, age := 0xFFFFFFF0}
def sl (e l : Nat) (w : RowWord) : RingSlot := {ring := l, word := w}
def wd : RowWord := slotWord 70001 true false false false 7 9
def la : List (Nat × Fld × Nat) := [(kryupBase, ⟨Reg.CAUSE_PEND.LATCH.off,10,1⟩,1),(kryupBase, ⟨Reg.CAUSE_PEND.LATCH.off,11,1⟩,1),(keeperBase, Reg.STATE.SELF, UState.running.code)]
def m25_1 : State := lk 5 0x10 {} {pin := 0x20, feat := 0xFF, lastAnn := some (an 0x21 0x10 0x8F 0)} [(laneBase 5, Reg.LINK_STATE.NEGO, 1)]
def v25_1_2 : Payload := an 0x21 0x10 0x8F 1
def m25_6 : State := f7 .running []
def m25_7 : State := f7 .stopped [(laneBase 130, Reg.TX_FIR.PRE, 15),(laneBase 130, Reg.TX_FIR.POST, 10)]
def m25_8 : State := f7 .stopped [(laneBase 130, Reg.TX_FIR.PRE, 15),(laneBase 130, Reg.TX_FIR.POST, 9)]
def m25_11 : State := cS {fio := .starting, fioAgain := true, fioTick := 977} [] [(clkBase, Reg.CLK_STATUS.REG_SRC, 2)] (fun d => {d with load := {step := .loading}})
def m25_9 : State := cS {fio := .failed, fioTick := 976} [] [(clkBase, Reg.CLK_STATUS.REG_SRC, 2)]
def m25_10 : State := cS {fio := .failed, fioTick := 977} [] []
def m25_12 : State := rS 15 la [(ringId 15 16383, {dsc with age := 0xFFFFFFEF})] {fifo := [sl 15 16383 wd]}

end Witness25

namespace More

/-- The machine with every domain on. -/
def allOn : Dev := up.each ((List.range 33).map (· + 7)) fun d k => d.setPd k pdOn
/-- A fabric that ticks, with logic in group 15. -/
def ticking (v : Nat) : State := ⟨[], { ((up.put [(columnBase 4 255, .running)]).flds [(columnBase 4 255, Reg.TALLY_RES_LOG.VALID, v)]) with
  clk := { rootRef := 0 }, keeper := { crossKHz := 40000 }, plates := { logic := ⟨[(15, 1)]⟩, plateFrames := ⟨[(plateKey 1 255 0 0 0, 1)]⟩ }, fabric := { clkRun := ⟨[(511, 1)]⟩ } }⟩
/-- An access that waits. -/
def waits (a : Access) (tick : Nat := 0) (run : SeqState := .run) : State := ⟨[], { up.put [(damperBase, .running)] with
  clk := { tick := tick, reg := { state := run } }, ctl := { lastPath := 3, waiting := [a] } }⟩
def evEn : Nat := damperBase + Reg.EVENT_EN.EN.off
/-- The first notice of the root's event. -/
def firstNotice : State := { Witness07.x4 with dev := { Witness07.x4.dev with ctl := { rootRaised := false } } }
/-- An access through the debug window of path 1 that waits for its completion. -/
def debugAt (lo hi : Nat) (write : Bool) (f : Dev → Dev := id) : State := ⟨[], { (f ((up.setReg (winSet winDebug 1) (BitVec.ofNat 32 lo)).setReg
  (winSet winDebug 1 + 12) (BitVec.ofNat 32 hi))) with ctl := { debugPend := ⟨[(1, { path := 1, write := write, addr := winDataAddr winDebug 1, data := 0xA1B2C3D4 })]⟩ } }⟩
def memUp (d : Dev) : Dev := (d.each ((List.range 33).map (· + 7)) fun d k => d.setPd k pdOn).put
  ([0, 255].map (fun c => (columnBase 1 c, UState.running)) ++ [(cryptoBase, .running), (mcBase 0, .running), (mcBase 1, .running)])
def extUp (d : Dev) : Dev := ((memUp d).flds [(cryptoBase, Reg.KEY_SLOT.STATE, 1)]).putLine 1 (d.sealLine 0 64 lineGood 0x0102030405060708)
/-- A lane whose group's loop is locked. -/
def locked (n : Nat) (s : State) : State := { s with dev := s.dev.setFld (laneGroupBase (n / 8)) Reg.LG_STATUS.PLL_LOCK 1 }
def cdrWaits : State := locked 5 (Witness08.q5 .starting [(laneBase 5, Reg.BLK_STATE.STATE, 1), (laneBase 5, Reg.CTLE_CTRL.MODE, 2), (laneBase 5, Reg.LANE_STATUS.LOS, 0)])
def eyeRuns : State := ⟨[], { (up.put [(laneBase 130, .running)]).flds [(laneBase 130, Reg.LANE_RATE.RX_RATE, 100)] with
  lanes := ⟨[(130, { eye := .software })]⟩, clk := { tick := 1000000 } }⟩
def respIn : State := Witness10.lk 130 0x20 {} { rxLimM := 2 } [(laneBase 130, Reg.REM_STATUS.BUSY, 1), (laneBase 130, Reg.REM_STATUS.TAG, 7), (laneBase 130, Reg.AGREED_FEAT.FEATURES, 0xFF)]
def sendsOne (t : TxMsg) (loop : Nat := 0) : State := Witness10.lk 5 0x21 {} { limitF := 10, limitM := 10, txQueue := [t] }
  [(laneBase 5, Reg.AGREED_FEAT.FEATURES, 0xFF), (laneBase 5, Reg.LINK_STATE.LOOPED, loop)]
def txEvent : TxMsg := { orig := .eventNotice, msg := { typ := msgEvent, body := [3] } }
def txFrag : TxMsg := { orig := .engine 15, msg := { typ := msgFragment, body := [3, 4] } }
def txResp : TxMsg := { orig := .mgmt, msg := { typ := msgMgmtResp, body := [3] } }
def stages : State := { Witness11.m11_6 with dev := { Witness11.m11_6.dev with load := { released := some { drives := [3] } } } }
/-- A load whose plate's ownership differs from DRIVE_MAP. -/
def mapped (ok : Bool) (c : Nat) : SMap DriveMap := ⟨if ok then [] else [(0, { owners := ⟨[(c, [1, 2])]⟩ })]⟩
def blank (s : State) : State := { s with dev := s.dev.modPlates fun p => { p with stageFrames := {}, plateFrames := {} } }
def staging (ok : Bool) : State := blank (Witness12.cpS 3 2 1 fun p => { p with dataCmd := some (.stage 1 2 8), driveMaps := mapped ok ((groupColumns 3).headD 0) })
def reloads (ok : Bool) : State := blank (Witness12.cpS 15 2 4 fun p => { p with dataCmd := some (.reload 255 2 1 []), driveMaps := mapped ok 255 })
/-- A word of slot 1 of column 255, of the upper die, with bits in error. -/
def struck (e : BitVec 266) : State := Witness12.sw [(configBase, Reg.PLATE_CTRL.SCRUB_EN, 1), (configBase, Reg.PLATE_CTRL.AUTO_RECOVER, 0), (powerBase, Reg.MODE_STATUS.MODE, 4)] fun p =>
  { p with plateErr := ⟨[(platePlace 255 1 (20736 + 8 * 5 + 3), e)]⟩ }
/-- Group 15 cycles through slots 1 and 2. -/
def cycles : State :=
  let s := Witness12.sw [] fun p => { p with logic := ⟨[(15, 1)]⟩, cycling := ⟨[(15, { list := [1, 2], target := 5, cycle := true, k := 3 })]⟩ }
  { s with dev := { s.dev with clk := { s.dev.clk with ratioN := 8 }, fabric := { cycle := ⟨[(15, 7)]⟩ } } }
/-- A word of slot 1 with two check bits in error. -/
def struckTwice : State :=
  let s := struck (3#266 <<< 256)
  { s with dev := s.dev.setFld configBase ⟨Reg.PSLOT_G.off + 60, 4, 3⟩ 2 }
def inService : State :=
  let s := Witness12.sw [] fun p => { p with logic := ⟨[(15, 1)]⟩ }
  { s with dev := s.dev.put [(columnBase 2 255, .running), (columnBase 4 255, .degraded)] }
def rowS : State :=
  let s := Witness13.colS 255 [] id
  { s with dev := { s.dev.put [(laneBase 3, .running)] with lanes := ⟨[(3, { portCol := 255, portDlv := 1 })]⟩ } }
def passing (t tick : Nat) : State :=
  let s := Witness13.colS 255 [(columnBase 1 255, Reg.MEM_CTRL.SCRUB_EN, 1)] fun m => { m with scrub := ⟨[(255, (t, 5))]⟩ }
  { s with dev := { s.dev with clk := { tick := tick } } }
def runPass (t tick : Nat) : State :=
  let s := passing t tick
  { s with dev := s.dev.setFld powerBase Reg.MODE_STATUS.MODE 4 }
def wornRow (spares : List Nat) : State := Witness13.colS 255 [(columnBase 1 255, Reg.MEM_CTRL.ROW_REPAIR_EN, 1), (columnBase 1 255, Reg.ROW_THRESH.THRESH, 3)] fun m =>
  { m with err := ⟨[(wordIndex 255 7 2047 0, 2#266)]⟩, remapped := ⟨if spares = [] then [] else [(2047, spares)]⟩, tracked := ⟨[(2047, [(2047, 3)])]⟩ }
def marching : State := Witness13.st (Witness13.colS 255 [] fun m => { Witness13.dirty m with march := ⟨[(255, (0x81, 0))]⟩ })
def restarts : State :=
  let s := Witness13.fe (Witness13.colS 255 [] id)
  { s with dev := s.dev.flds [(columnBase 0 255, Reg.VLINK_STATE.CLOCK, 2), (columnBase 0 255, Reg.CLK_VIA.ACTIVE, 1)] }
/-- Ring 5 of engine 15. -/
def ringS (x : Desc) (g : EngineRec) (l : List (Nat × Fld × Nat) := []) : State := Witness14.rS 15 l [(ringId 15 5, x)] g
def ringD : Desc := Witness14.dsc
def pushed : RowWord := slotWord (BitVec.toNat (70001#48)) true false false false (BitVec.toNat (7#8)) (BitVec.toNat (9#192))
def serS (i : Nat) (r : SerialRec) (l : List (Nat × Fld × Nat) := []) : State := Witness24.sr i r l
/-- A unit in a stage of its release that is due in a later fabric cycle of this crossing. -/
def notYet (r : RelState) : State := { Witness17.m17_19 with dev := (Witness17.m17_19.dev.modUser 0x900000 fun u => { u with rel := r, relCross := 5, relCycle := 0, occL2 := [255] }).modKeeper fun k => { k with now := 5 } }
def kicked : State := { Witness20.m20_3 with dev := { Witness20.m20_3.dev with strike := { kicked := true } } }
def early : State := { Witness21.m21_6 with dev := { Witness21.m21_6.dev with power := { ioutTick := Witness21.m21_6.dev.tick } } }
/-- An episode of group 15 that began and fell quiet long ago. -/
def episode (level : Nat) : State := Witness22.dS (fun d => { d with clk := { d.clk with trunkCyc := 100000 }, power := { admission := [15], episodes := ⟨[(15, { level := level })]⟩ } }) []
  [(pdBase, Reg.PD.STATE.elem 35, 2), (kryupBase, ⟨Reg.CAUSE_PEND.LATCH.off, causeDroop, 1⟩, 1)]
def rowHeld : State := { rowS with dev := rowS.dev.modUnits fun u => { u with user := ⟨[(0x900000, { rel := .held, occL2 := [255] })]⟩ } }
def portRuns (s : State) : State := { s with dev := s.dev.modFabric fun f => { f with clkRun := ⟨[((groupColumns 0).headD 0 * 2, 1)]⟩ } }
def plainLine : State := Witness15.xS [] [(33, ({} : Dev).sealLine 0 (64 * 33) lineGood 5)] id
def mcStarts (i : Nat) : State := { Witness15.m15_5 with dev := Witness15.m15_5.dev.setFld (mcBase 0) Reg.MC_CFG.INIT i }
def loads (r : LoadRec) (l : List (Nat × Fld × Nat) := []) : State := Witness17.lb r l
def inRangeSince (t : Nat) : State := { Witness18.m18_4 with dev := { Witness18.m18_4.dev with clk := { Witness18.m18_4.dev.clk with inRange := ⟨[(3, t)]⟩ } } }
def loneRoot : State := { Witness18.m18_5 with dev := Witness18.m18_5.dev.put [(pllBase 1, .stopped)] }
def fioComes : State := { Witness25.m25_11 with dev := { Witness25.m25_11.dev with clk := { Witness25.m25_11.dev.clk with fioTick := Witness25.m25_11.dev.tick - 2 } } }
def noQueue : State := { Witness14.m14_14 with dev := Witness14.m14_14.dev.setFld (ringBase 15) Reg.RQ_BASE_HI.ADDR_HI 255 }
def waitsForQueue : State := { Witness14.m14_14 with dev := Witness14.m14_14.dev.modEngine 15 fun r => { r with frags := [Witness14.fr] } }
def asks : State := Witness10.lk 130 0x20 {} {} [(laneBase 130, Reg.AGREED_FEAT.FEATURES, 0xFF)]
def fencesUp : State := Witness16.at_ Witness16.rec1 Witness16.opens fun d =>
  let g := galleyOf (Witness16.opens.drop 8)
  d.put ((maskColumns g.occL2).map (fun c => (columnBase 2 c, .running)) ++ (maskColumns g.occL4).map fun c => (columnBase 4 c, .running))
def at6_1 : State := Witness02.kS {rootRef := 0} {lastKHz := 100000} [] []
def at15_3 : State := waits { path := 5, addr := evEn } 80 .switching
def at35_1 : State := ringS ringD { fifo := [{ ring := 5, word := pushed }, {}] }
def at35_2 : State := ringS { ringD with age := 0xFFFFFFEF } { fifo := [{ ring := 5, word := pushed }] }
def at37_1 : State := ringS ringD { upset := ⟨[(nodeKey 0 5, 1)]⟩ }
def at37_2 : State := ringS ringD { upset := ⟨[(nodeKey 0 5, 2)]⟩ }
def at37_4 : State := ringS ringD {} [(ringBase 15, Reg.RING_CMD.RING, 5)]
def at37_5 : State := ringS ringD { frozen := some {}, flushing := true, flushed := ⟨[(5, 1)]⟩ }
def at37_6 : State := ringS { ringD with ckWr := 0xFFFFFFF5, ckCross := 0 } { flushing := true, flushTo := 7 }
def at60_4 : State := serS 5 { rx := List.replicate 64 ⟨5, true⟩, tx := [7, 8] } [(pinsBase, muxField 25, 7)]
def at60_7 : State := serS 3 { tx := [7] } [(serialBase 3, Reg.CTRL.PROOF_EN, 1)]
def at60_8 : State := serS 5 { tx := [7] } [(pinsBase, muxField 24, 7), (pinsBase, muxField 25, 7)]
def at42_2 : State := Witness16.iS [] { Witness16.rec1 with mode := .boot, spi := true } id
def at42_20 : State := Witness16.at_ Witness16.rec1 Witness16.opens fun d => d.modUnits fun u => { u with user := u.user.put 0x900000 {} }
def at43_1 : State := Witness16.at_ { Witness16.rec1 with openUnits := [0x900000, formeBase], index := 2, image := some Witness16.img1 } Witness16.init
def at43_3 : State := Witness16.at_ { Witness16.rec1 with index := 2, image := some Witness16.img1 } Witness16.plate fun d => d.modPlates fun p => { p with driveMaps := ⟨[(3, {})]⟩ }
def at43_4 : State := Witness16.at_ { Witness16.rec1 with index := 2, image := some Witness16.img1 } Witness16.struckRec
def at43_5 : State := Witness16.iS [] { Witness16.fresh with words := Witness16.colWords (0x4B4E46) ++ [5] } id
def at43_6 : State := Witness16.iS [] { Witness16.fresh with words := Witness16.colWords 5 ++ [5] } id
def at7_1 : State := { Witness03.m03_5 with dev := { Witness03.m03_5.dev with clk := { rootRef := 0, trunk := { state := .switching, target := .loop } } } }
def at6_2 : State := Witness02.kS {rootRef := 0} {crossKHz := 100000} [(pllBase 0, .running)] [(pllBase 0, Reg.PLL_STATUS.LOCK, 1), (pllBase 0, Reg.PLL_STATUS.REF, 0), Witness02.lt causeCrossLost]
def at45_7 : State := loads { mode := .idle, step := .idle, released := some { source := 3 } }
def at45_8 : State := loads { step := .loading, boot := { order := 0x4203, trunkWait := 400 }, entry := 2, trying := some 3, lanesTick := some 100 }
def at45_9 : State := loads { mode := .stream, step := .idle } [(rootBase, Reg.LD_STATUS.PATH, 5)]
def at43_2 : State := Witness16.at_ { Witness16.rec1 with index := 2, image := some Witness16.img1 } Witness16.drive
def at43_9 : State := let s := Witness16.ends true; { s with dev := s.dev.modLoad fun l => { l with image := some { Witness16.img2 with colophon := { Witness16.img2.colophon with digest := 5 } } } }
def at43_10 : State := Witness16.signs { mode := .stream, step := .idle, ended := true, words := List.replicate 50 7 }
def at43_11 : State := Witness16.signs { mode := .stream, step := .idle, ended := true, head := [1], words := Witness16.signedBlock }
def at43_12 : State := Witness16.signs { mode := .boot, step := .idle, spi := true }
def closedRing : State := ringS { ringD with state := .closed } {}

end More

/-! ## Every clause of every statement has a state and operands that meet its hypotheses -/

open More

theorem test_wit_StepTakesTheFrontCommandOrIdles :
    (Witness03.w1.groupTicks 8 = true ∧
     Witness03.w1.quiet = true) ∧
    (({ } : Dev).mode ≠ modeProof ∧
     (∀ (w : Fin 2), ({ } : Dev).loopSends (mcBase ↑w) 512 = false) ∧
     (∀ (g : Fin 16), ({ } : Dev).groupTicks ↑g = false) ∧
     ({ } : Dev).quiet = true) := by and_intros <;> decide +kernel

theorem test_wit_KeeperCountsLatenessAndChecksRatios :
    (Witness02.m02_4.dev.reached (0) keepCtrlAddr = true ∧
     Witness02.m02_4.quiet = true) ∧
    (Witness02.m02_1.dev.latL ≠ 0 ∧
     Witness02.m02_1.dev.counting = true ∧
     Witness02.m02_1.quiet = true) ∧
    (Witness02.m02_4.dev.reached (0) (clkBase + Reg.REG_CYC_LO.CYC.off) = true ∧
     Witness02.m02_4.quiet = true) ∧
    (Witness02.m02_4.dev.reached (0) (clkBase + Reg.TRUNK_CYC_LO.CYC.off) = true ∧
     Witness02.m02_4.quiet = true) ∧
    (Witness02.m02_4.dev.reached (0) (keeperBase + Reg.CROSS_NOW_LO.NOW_LO.off) = true ∧
     Witness02.m02_4.quiet = true) ∧
    (Witness02.m02_4.dev.reached (0) (keeperBase + Reg.LAST_BREACH_LO.CROSS_LO.off) = true ∧
     Witness02.m02_4.quiet = true) ∧
    ((Witness02.m02_1.dev.ratioOk (if Witness02.m02_1.dev.clk.rootRef = 3 then Witness02.m02_1.dev.fld keeperBase Reg.KEEP_CTRL.REF_SEL else Witness02.m02_1.dev.clk.rootRef) (if 4 ≤ 1 ∧ 1 ≤ 16 then 1 else 8) 255 = false) ∧
     Witness02.m02_1.dev.reached (4) (keeperBase + Reg.KEEP_RATIO.off) = true ∧
     Witness02.m02_1.quiet = true) ∧
    ((Witness02.kS { } { } [] [] : State).dev.clk.rootRef = 3 ∧
     ((Witness02.kS { } { } [] [] : State).dev.ratioOk (if (Witness02.kS { } { } [] [] : State).dev.clk.rootRef = 3 then (Witness02.kS { } { } [] [] : State).dev.fld keeperBase Reg.KEEP_CTRL.REF_SEL else (Witness02.kS { } { } [] [] : State).dev.clk.rootRef) (if 4 ≤ ↑8 ∧ ↑8 ≤ 16 then ↑8 else 8) ↑25 = true) ∧
     (Witness02.kS { } { } [] [] : State).dev.reached (↑0) (keeperBase + Reg.KEEP_RATIO.off) = true ∧
     (Witness02.kS { } { } [] [] : State).quiet = true) ∧
    ((¬((if 4 ≤ 7 ∧ 7 ≤ 16 then 7 else 8) = Witness02.m02_4.dev.clk.ratioN ∧ (Witness02.m02_4.dev.clk.rootRef = refCross ∨ 1 = Witness02.m02_4.dev.clk.ratioXb))) ∧
     Witness02.m02_4.dev.formeActive = true ∧
     Witness02.m02_4.dev.clk.rootRef ≠ 3 ∧
     (Witness02.m02_4.dev.ratioOk (if Witness02.m02_4.dev.clk.rootRef = 3 then Witness02.m02_4.dev.fld keeperBase Reg.KEEP_CTRL.REF_SEL else Witness02.m02_4.dev.clk.rootRef) (if 4 ≤ 7 ∧ 7 ≤ 16 then 7 else 8) 1 = true) ∧
     Witness02.m02_4.dev.reached (1) (keeperBase + Reg.KEEP_RATIO.off) = true ∧
     Witness02.m02_4.quiet = true) := by and_intros <;> decide +kernel

theorem test_wit_ReferenceIsLeftAndFoundAgain :
    (More.at6_1.dev.keeper.lastKHz ≠ 0 ∧
     More.at6_1.dev.keeper.crossKHz = 0 ∧
     More.at6_1.dev.clkOn = true ∧
     100000 ≠ 0 ∧
     More.at6_1.quiet = true) ∧
    (More.at6_2.dev.latched causeCrossLost = true ∧
     More.at6_2.dev.fld keeperBase Reg.KEEP_STATUS.HOLDOVER = 0 ∧
     (∃ r ∈ [0, 1], More.at6_2.dev.pllOk r = true ∧ More.at6_2.dev.fld (pllBase r) Reg.PLL_STATUS.REF = refCross) ∧
     More.at6_2.dev.keeper.crossKHz ≠ 0 ∧
     More.at6_2.dev.clkOn = true ∧
     More.at6_2.quiet = true) ∧
    (Witness02.m02_5.dev.ratioOk refCross Witness02.m02_5.dev.ratioWanted.1 Witness02.m02_5.dev.ratioWanted.2 = true ∧
     Witness02.m02_5.dev.reached (3) keepCtrlAddr = true ∧
     Witness02.m02_5.dev.pllOk Witness02.m02_5.dev.standbyRoot = true ∧
     Witness02.m02_5.dev.activeRoot ≤ 1 ∧
     Witness02.m02_5.dev.netSrc true = NetSrc.loop ∧
     Witness02.m02_5.dev.clk.trunk.state = SeqState.run ∧
     Witness02.m02_5.dev.clk.rootRef ≠ 3 ∧
     Witness02.m02_5.quiet = true) ∧
    (Witness02.m02_5.dev.ratioOk refXb Witness02.m02_5.dev.ratioWanted.1 Witness02.m02_5.dev.ratioWanted.2 = true ∧
     (436 : ℕ) + 64 ≤ Witness02.m02_5.dev.tick ∧
     Witness02.m02_5.dev.keeper.holdoverTick = some (436 : ℕ) ∧
     Witness02.m02_5.dev.pllOk Witness02.m02_5.dev.standbyRoot = true ∧
     Witness02.m02_5.dev.activeRoot ≤ 1 ∧
     Witness02.m02_5.dev.netSrc true = NetSrc.loop ∧
     Witness02.m02_5.dev.clk.trunk.state = SeqState.run ∧
     Witness02.m02_5.dev.clk.rootRef ≠ 3 ∧
     Witness02.m02_5.quiet = true) ∧
    (Witness02.m02_5.dev.fld keeperBase Reg.KEEP_CTRL.REF_SEL ≠ bit01 true ∧
     Witness02.m02_5.dev.ratioOk (bit01 true) Witness02.m02_5.dev.ratioWanted.1 Witness02.m02_5.dev.ratioWanted.2 = true ∧
     Witness02.m02_5.dev.reached (3) keepCtrlAddr = true ∧
     Witness02.m02_5.dev.pllOk Witness02.m02_5.dev.standbyRoot = true ∧
     Witness02.m02_5.dev.activeRoot ≤ 1 ∧
     Witness02.m02_5.dev.netSrc true = NetSrc.loop ∧
     Witness02.m02_5.dev.clk.trunk.state = SeqState.run ∧
     Witness02.m02_5.dev.clk.rootRef ≠ 3 ∧
     Witness02.m02_5.quiet = true) := by and_intros <;> decide +kernel

theorem test_wit_EdgesBeginCrossings :
    ((7 : ℕ) ≠ (Witness03.m03_4.dev.now + 1) % 2 ^ 48 ∧
     Witness03.m03_4.dev.fld keeperBase Reg.KEEP_CTRL.SYNC_MODE = 2 ∧
     Witness03.m03_4.dev.fld keeperBase Reg.KEEP_CTRL.SYNC_SRC = 0 ∧
     Witness03.m03_4.dev.kryup.warm = false ∧
     Witness03.m03_4.dev.strike.groups = [] ∧
     Witness03.m03_4.dev.domainOn 7 = false ∧
     Witness03.m03_4.dev.plates.pending = { } ∧
     Witness03.m03_4.dev.clk.swapPending = false ∧
     Witness03.m03_4.dev.keeper.pendingSync = some (7 : ℕ) ∧
     Witness03.m03_4.dev.keeper.released = true ∧
     Witness03.m03_4.dev.clk.trunk.state = SeqState.run ∧
     Witness03.m03_4.dev.counting = true ∧
     Witness03.m03_4.quiet = true) ∧
    ((0 : ℕ) = (Witness03.m03_2.dev.now + 1) % 2 ^ 48 ∧
     Witness03.m03_2.dev.fld keeperBase Reg.KEEP_STATUS.ARMED = 1 ∧
     Witness03.m03_2.dev.fld keeperBase Reg.KEEP_CTRL.SYNC_MODE = 0 ∧
     Witness03.m03_2.dev.fld keeperBase Reg.KEEP_CTRL.SYNC_SRC = 0 ∧
     Witness03.m03_2.dev.kryup.warm = false ∧
     Witness03.m03_2.dev.strike.groups = [] ∧
     Witness03.m03_2.dev.domainOn 7 = false ∧
     Witness03.m03_2.dev.plates.pending = { } ∧
     Witness03.m03_2.dev.clk.swapPending = false ∧
     Witness03.m03_2.dev.keeper.pendingSync = some (0 : ℕ) ∧
     Witness03.m03_2.dev.keeper.released = true ∧
     Witness03.m03_2.dev.clk.trunk.state = SeqState.run ∧
     Witness03.m03_2.dev.counting = true ∧
     Witness03.m03_2.quiet = true) ∧
    ((7 : ℕ) ≠ (Witness03.m03_3.dev.now + 1) % 2 ^ 48 ∧
     Witness03.m03_3.dev.fld keeperBase Reg.KEEP_STATUS.ARMED = 1 ∧
     Witness03.m03_3.dev.fld keeperBase Reg.KEEP_CTRL.SYNC_MODE = 0 ∧
     Witness03.m03_3.dev.fld keeperBase Reg.KEEP_CTRL.SYNC_SRC = 0 ∧
     Witness03.m03_3.dev.kryup.warm = false ∧
     Witness03.m03_3.dev.strike.groups = [] ∧
     Witness03.m03_3.dev.domainOn 7 = false ∧
     Witness03.m03_3.dev.plates.pending = { } ∧
     Witness03.m03_3.dev.clk.swapPending = false ∧
     Witness03.m03_3.dev.keeper.pendingSync = some (7 : ℕ) ∧
     Witness03.m03_3.dev.keeper.released = true ∧
     Witness03.m03_3.dev.clk.trunk.state = SeqState.run ∧
     Witness03.m03_3.dev.counting = true ∧
     Witness03.m03_3.quiet = true) ∧
    (More.at7_1.dev.breachOffered = false ∧
     More.at7_1.dev.latL ≠ 0 ∧
     More.at7_1.dev.strike.groups ≠ [] ∧
     More.at7_1.dev.domainOn 7 = false ∧
     More.at7_1.dev.keeper.released = true ∧
     More.at7_1.dev.edgesFrom More.at7_1.dev.clk.trunk.target More.at7_1.dev.targetRef = true ∧
     More.at7_1.dev.clk.trunk.state = SeqState.switching ∧
     More.at7_1.dev.counting = true ∧
     More.at7_1.quiet = true) ∧
    (Witness03.m03_1.dev.kryup.warm = false ∧
     Witness03.m03_1.dev.strike.groups = [] ∧
     Witness03.m03_1.dev.domainOn 7 = false ∧
     Witness03.m03_1.dev.plates.pending = { } ∧
     Witness03.m03_1.dev.clk.swapPending = false ∧
     Witness03.m03_1.dev.keeper.pendingSync = none ∧
     Witness03.m03_1.dev.keeper.released = true ∧
     Witness03.m03_1.dev.clk.trunk.state = SeqState.run ∧
     Witness03.m03_1.dev.counting = true ∧
     Witness03.m03_1.quiet = true) := by and_intros <;> decide +kernel

theorem test_wit_ReleasePresentsTheDataOfK :
    BitVec.getLsbD (Witness03.m03_6.dev.lane (Witness03.m03_6.dev.blkState 3 : ℕ)).portDlv 0 = false ∧
     (Witness03.m03_6.dev.lane (Witness03.m03_6.dev.blkState 3 : ℕ)).gaps = [] ∧
     Witness03.m03_6.dev.blkState (Witness03.m03_6.dev.blkState 3 : ℕ) = blkLocked ∧
     Witness03.m03_6.dev.proving (laneBase (Witness03.m03_6.dev.blkState 3 : ℕ)) = false ∧
     Witness03.m03_6.dev.runs (laneBase (Witness03.m03_6.dev.blkState 3 : ℕ)) = true ∧
     Witness03.m03_6.dev.alignLanes = [(Witness03.m03_6.dev.blkState 3 : ℕ)] ∧
     Witness03.m03_6.dev.trunkStopped = false ∧
     Witness03.m03_6.dev.keeper.released = false ∧
     Witness03.m03_6.dev.windowed = true ∧
     Witness03.m03_6.quiet = true := by and_intros <;> decide +kernel

theorem test_wit_ResidueErrorsAreCountedAndLogged :
    ((∀ (r : ℕ), ({ } : TallyRec).rc = some r → r = residue (({ } : TallySetup).valC ({ } : TallyRec).c) ∧ ({ } : TallySetup).mode ≠ TallyMode.compare) ∧
     ({ } : TallyRec).rmc = residue (signedOf ({ } : TallyRec).mc 56) ∧
     ({ } : TallyRec).rm = residue ({ } : TallyRec).m ∧
     ({ } : TallyRec).rp = residue ({ } : TallyRec).p.toInt) ∧
    ((∀ (g : Fin 16), ({ } : State).dev.groupTicks ↑g = false) ∧
     ({ } : State).quiet = true) ∧
    (255 * 2 + bit01 true ∈ (More.ticking 1 : State).dev.tickingTiles ∧
     (More.ticking 1 : State).quiet = true) := by and_intros <;> decide +kernel

theorem test_wit_SortsFollowTheStateTable :
    (Witness04.m04_3.dev.ust keeperBase = UState.starting ∧
     Witness04.m04_3.dev.units.user.look keeperBase = none ∧
     keeperBase ∈ plainSorts ∧
     Witness04.m04_3.quiet = true) ∧
    (Witness04.m04_6.dev.workLeft pdBase = false ∧
     Witness04.m04_6.dev.ust pdBase = UState.draining ∧
     Witness04.m04_6.dev.units.user.look pdBase = none ∧
     pdBase ∈ plainSorts ∧
     Witness04.m04_6.quiet = true) ∧
    (Witness04.m04_7.dev.fld pdBase Reg.CTRL.ENABLE = 0 ∧
     Witness04.m04_7.dev.ust pdBase = UState.stopped ∧
     Witness04.m04_7.dev.fld pdBase Reg.CTRL.RESET = 0 ∧
     Witness04.m04_7.dev.reached (7) (ctrlAddr pdBase) = true ∧
     Witness04.m04_7.dev.units.user.look pdBase = none ∧
     pdBase ∈ plainSorts ∧
     Witness04.m04_7.quiet = true) ∧
    (Witness04.m04_6.dev.units.drainTick.num pdBase + Witness04.m04_6.dev.fld pdBase Reg.DRAIN_LIMIT.LIMIT ≤ Witness04.m04_6.dev.tick ∧
     Witness04.m04_6.dev.fld pdBase Reg.DRAIN_LIMIT.LIMIT ≠ 0 ∧
     Witness04.m04_6.dev.ust pdBase = UState.draining ∧
     Witness04.m04_6.dev.units.user.look pdBase = none ∧
     pdBase ∈ [pdBase, damperBase, cryptoBase] ∧
     Witness04.m04_6.quiet = true) ∧
    (Witness04.m04_3.dev.fld keeperBase Reg.CTRL.DRAIN_REQ = 0 ∧
     Witness04.m04_3.dev.fld keeperBase Reg.CTRL.ENABLE = 1 ∧
     (Witness04.m04_3.dev.ust keeperBase = UState.starting ∨ Witness04.m04_3.dev.ust keeperBase = UState.running ∨ Witness04.m04_3.dev.ust keeperBase = UState.degraded) ∧
     Witness04.m04_3.dev.fld keeperBase Reg.CTRL.RESET = 0 ∧
     Witness04.m04_3.dev.reached (1) (ctrlAddr keeperBase) = true ∧
     Witness04.m04_3.dev.units.user.look keeperBase = none ∧
     keeperBase ∈ plainSorts ∧
     Witness04.m04_3.quiet = true) ∧
    (Witness04.m04_7.dev.units.proofEnds.mem cryptoBase = false ∧
     Witness04.m04_7.dev.units.standing.num cryptoBase = 0 ∧
     (Witness04.m04_7.dev.ust cryptoBase = UState.running ∨ Witness04.m04_7.dev.ust cryptoBase = UState.faulted) ∧
     Witness04.m04_7.dev.reached (7) (ctrlAddr cryptoBase) = true ∧
     Witness04.m04_7.dev.units.user.look cryptoBase = none ∧
     cryptoBase ∈ [pdBase, damperBase, cryptoBase] ∧
     Witness04.m04_7.quiet = true) := by and_intros <;> decide +kernel

theorem test_wit_GalleySequenceEnds :
    (Witness05.m05_3.dev.ust pinsBase = UState.draining ∧
     (((Witness05.m05_3.dev.children pinsBase).all fun c => Witness05.m05_3.dev.childDone true c.2) = true) ∧
     ((Witness05.m05_3.dev.steps pinsBase).getD ({ drain := true, step := 0 } : GSeq).step []).all (Witness05.m05_3.dev.childDone true) = true ∧
     ({ drain := true, step := 0 } : GSeq).step = 0 ∧
     ({ drain := true, step := 0 } : GSeq).drain = true ∧
     Witness05.m05_3.dev.units.seq.look pinsBase = some ({ drain := true, step := 0 } : GSeq) ∧
     Witness05.m05_3.dev.domainOn 1 = true ∧
     pinsBase ∈ plainGalleys ∧
     Witness05.m05_3.quiet = true) ∧
    (((((Witness05.m05_2.dev.steps pinsBase).getD ({ drain := false, step := 0 } : GSeq).step []).any fun c => decide (Witness05.m05_2.dev.stateOf c = UState.faulted) && !(unitOf c).isPrivileged) = true) ∧
     Witness05.m05_2.dev.ust pinsBase = UState.starting ∧
     ((Witness05.m05_2.dev.steps pinsBase).getD ({ drain := false, step := 0 } : GSeq).step []).all (Witness05.m05_2.dev.childDone false) = true ∧
     ({ drain := false, step := 0 } : GSeq).drain = false ∧
     Witness05.m05_2.dev.units.seq.look pinsBase = some ({ drain := false, step := 0 } : GSeq) ∧
     Witness05.m05_2.dev.domainOn 1 = true ∧
     pinsBase ∈ plainGalleys ∧
     Witness05.m05_2.quiet = true) ∧
    ((Witness05.m05_1.dev.steps powerBase).length ≤ ({ drain := false, step := 7 } : GSeq).step + 1 ∧
     ((((Witness05.m05_1.dev.steps powerBase).getD ({ drain := false, step := 7 } : GSeq).step []).any fun c => decide (Witness05.m05_1.dev.stateOf c = UState.faulted) && !(unitOf c).isPrivileged) = false) ∧
     Witness05.m05_1.dev.ust powerBase = UState.starting ∧
     ((Witness05.m05_1.dev.steps powerBase).getD ({ drain := false, step := 7 } : GSeq).step []).all (Witness05.m05_1.dev.childDone false) = true ∧
     ({ drain := false, step := 7 } : GSeq).drain = false ∧
     Witness05.m05_1.dev.units.seq.look powerBase = some ({ drain := false, step := 7 } : GSeq) ∧
     Witness05.m05_1.dev.domainOn 1 = true ∧
     powerBase ∈ plainGalleys ∧
     Witness05.m05_1.quiet = true) := by and_intros <;> decide +kernel

theorem test_wit_ProofAndVersionFieldsChangeAtRest :
    (Witness05.m05_6.dev.atRest (laneBase 0 : ℕ) = true ∧
     fget Witness05.v05_6_3 Reg.VERSION_SEL.SEL_MINOR ≤ (0 : ℕ) ∧
     (unitOf (laneBase 0 : ℕ)).minorOf (fget Witness05.v05_6_3 Reg.VERSION_SEL.SEL_MAJOR) = some (0 : ℕ) ∧
     Witness05.m05_6.dev.reached (2) ((laneBase 0 : ℕ) + Reg.VERSION_SEL.SEL_MINOR.off) = true ∧
     Witness05.m05_6.quiet = true) ∧
    ((∀ (m : ℕ), (unitOf (Witness05.m05_4.dev.fld (laneBase 0) Reg.CTRL.RESET : ℕ)).minorOf (fget (2147483648#32 : Word) Reg.VERSION_SEL.SEL_MAJOR) = some m → ¬(fget (2147483648#32 : Word) Reg.VERSION_SEL.SEL_MINOR ≤ m ∧ Witness05.m05_6.dev.atRest (Witness05.m05_4.dev.fld (laneBase 0) Reg.CTRL.RESET : ℕ) = true)) ∧
     Witness05.m05_6.dev.reached (1) ((Witness05.m05_4.dev.fld (laneBase 0) Reg.CTRL.RESET : ℕ) + Reg.VERSION_SEL.SEL_MINOR.off) = true ∧
     Witness05.m05_6.quiet = true) ∧
    (bitOf (unitOf (laneBase 0 : ℕ)).proofDepths 1 = true ∧
     Witness05.m05_6.dev.ust (laneBase 0 : ℕ) = UState.stopped ∧
     Witness05.m05_6.dev.fld (laneBase 0 : ℕ) Reg.CTRL.DRAIN_REQ = 0 ∧
     Witness05.m05_6.dev.fld (laneBase 0 : ℕ) Reg.CTRL.RESET = 0 ∧
     Witness05.m05_6.dev.reached (1) (ctrlAddr (laneBase 0 : ℕ)) = true ∧
     Witness05.m05_6.dev.isGalley (laneBase 0 : ℕ) = false ∧
     (laneBase 0 : ℕ) ≠ rootBase ∧
     (unitOf (laneBase 0 : ℕ)).blk ≠ Blk.monitor ∧
     (unitOf (laneBase 0 : ℕ)).blk ≠ Blk.kryup ∧
     Witness05.m05_6.quiet = true) ∧
    ((¬(Witness05.m05_5.dev.fld (laneBase 0 + Reg.VERSION_SEL.SEL_MINOR.off : ℕ) Reg.CTRL.PROOF_EN = bit01 false ∧ Witness05.m05_5.dev.fld (laneBase 0 + Reg.VERSION_SEL.SEL_MINOR.off : ℕ) Reg.CTRL.PROOF_DEPTH = 1)) ∧
     Witness05.m05_5.dev.ust (laneBase 0 + Reg.VERSION_SEL.SEL_MINOR.off : ℕ) ≠ UState.draining ∧
     (Witness05.m05_5.dev.ust (laneBase 0 + Reg.VERSION_SEL.SEL_MINOR.off : ℕ) ≠ UState.stopped ∨ bitOf (unitOf (laneBase 0 + Reg.VERSION_SEL.SEL_MINOR.off : ℕ)).proofDepths 1 = false) ∧
     Witness05.m05_5.dev.fld (laneBase 0 + Reg.VERSION_SEL.SEL_MINOR.off : ℕ) Reg.CTRL.DRAIN_REQ = 0 ∧
     Witness05.m05_5.dev.fld (laneBase 0 + Reg.VERSION_SEL.SEL_MINOR.off : ℕ) Reg.CTRL.RESET = 0 ∧
     Witness05.m05_5.dev.reached (7) (ctrlAddr (laneBase 0 + Reg.VERSION_SEL.SEL_MINOR.off : ℕ)) = true ∧
     Witness05.m05_5.dev.isGalley (laneBase 0 + Reg.VERSION_SEL.SEL_MINOR.off : ℕ) = false ∧
     (laneBase 0 + Reg.VERSION_SEL.SEL_MINOR.off : ℕ) ≠ rootBase ∧
     (unitOf (laneBase 0 + Reg.VERSION_SEL.SEL_MINOR.off : ℕ)).blk ≠ Blk.monitor ∧
     (unitOf (laneBase 0 + Reg.VERSION_SEL.SEL_MINOR.off : ℕ)).blk ≠ Blk.kryup ∧
     Witness05.m05_5.quiet = true) := by and_intros <;> decide +kernel

theorem test_wit_ShellTakesTheFabricSignals :
    (Witness06.m06_2.dev.ust (shellBase 1 0 0) = UState.running ∧
     Witness06.m06_2.dev.parent (shellBase 1 0 0) = some formeBase ∧
     Witness06.m06_2.dev.isGalley (shellBase 1 0 0) = false ∧
     Witness06.m06_2.dev.isUser (shellBase 1 0 0) = true ∧
     Witness06.m06_2.quiet = true) ∧
    (Witness06.m06_3.dev.ust (shellBase 1 0 0) = UState.draining ∧
     Witness06.m06_3.dev.parent (shellBase 1 0 0) = some formeBase ∧
     Witness06.m06_3.dev.isGalley (shellBase 1 0 0) = false ∧
     Witness06.m06_3.dev.isUser (shellBase 1 0 0) = true ∧
     Witness06.m06_3.quiet = true) ∧
    ((Witness06.m06_1.dev.user (shellBase 0 255 1)).rel = RelState.released ∧
     Witness06.m06_1.dev.ust (shellBase 0 255 1) = UState.starting ∧
     Witness06.m06_1.dev.parent (shellBase 0 255 1) = some formeBase ∧
     Witness06.m06_1.dev.isGalley (shellBase 0 255 1) = false ∧
     Witness06.m06_1.dev.isUser (shellBase 0 255 1) = true ∧
     Witness06.m06_1.quiet = true) ∧
    (Witness06.m06_2.dev.parent (shellBase 1 0 0) = some formeBase ∧
     Witness06.m06_2.dev.isGalley (shellBase 1 0 0) = false ∧
     Witness06.m06_2.dev.isUser (shellBase 1 0 0) = true ∧
     Witness06.m06_2.quiet = true) ∧
    (Witness06.m06_1.dev.ust (shellBase 0 255 1) ≠ UState.off ∧
     (16#8 : BitVec 8).toNat % 16 = 0 ∧
     (16#8 : BitVec 8) ≠ 0 ∧
     Witness06.m06_1.dev.parent (shellBase 0 255 1) = some formeBase ∧
     Witness06.m06_1.dev.isGalley (shellBase 0 255 1) = false ∧
     Witness06.m06_1.dev.isUser (shellBase 0 255 1) = true ∧
     Witness06.m06_1.quiet = true) := by and_intros <;> decide +kernel

theorem test_wit_RegisterAccessesFollowTheirCodes :
    (Witness07.m07_15.dev.latched causeKwWrite = true ∧
     (1 : Fin 8) ≠ 7 ∧
     ({ blk := Sys2Proof.Machine.Blk.kryup, base := 65536, idx := 0 } : Machine.Unit).kwAt (BitVec.toNat Witness07.v07_15_2 - ({ blk := Sys2Proof.Machine.Blk.kryup, base := 65536, idx := 0 } : Machine.Unit).base) = true ∧
     ({ blk := Sys2Proof.Machine.Blk.kryup, base := 65536, idx := 0 } : Machine.Unit).rowAt (BitVec.toNat Witness07.v07_15_2 - ({ blk := Sys2Proof.Machine.Blk.kryup, base := 65536, idx := 0 } : Machine.Unit).base) = some ({ name := "CTRL", off := 16, stride := 4, count := 1, reset := 0, rw := 59, w1c := 0, w1p := 4, kw := 0, rc := 0 } : RegRow) ∧
     unitAt (BitVec.toNat Witness07.v07_15_2) = some ({ blk := Sys2Proof.Machine.Blk.kryup, base := 65536, idx := 0 } : Machine.Unit) ∧
     Witness07.m07_15.dev.reached (1) (BitVec.toNat Witness07.v07_15_2) = true ∧
     logAddr (BitVec.toNat Witness07.v07_15_2) = false ∧
     winRegister (1) (BitVec.toNat Witness07.v07_15_2) = false ∧
     Witness07.m07_15.dev.ctl.debugPend.has 1 = false ∧
     Witness07.m07_15.quiet = true) ∧
    (Witness07.m07_15.dev.derived ({ blk := Sys2Proof.Machine.Blk.root, base := 0, idx := 0 } : Machine.Unit) (BitVec.toNat (8#32 : Word) - ({ blk := Sys2Proof.Machine.Blk.root, base := 0, idx := 0 } : Machine.Unit).base) = none ∧
     ({ blk := Sys2Proof.Machine.Blk.root, base := 0, idx := 0 } : Machine.Unit).blk ∉ [Blk.keeper, Blk.clkgen, Blk.serial, Blk.shell] ∧
     ({ blk := Sys2Proof.Machine.Blk.root, base := 0, idx := 0 } : Machine.Unit).rowAt (BitVec.toNat (8#32 : Word) - ({ blk := Sys2Proof.Machine.Blk.root, base := 0, idx := 0 } : Machine.Unit).base) = some ({ name := "UNIT_CAPS", off := 8, stride := 4, count := 1, reset := 0, rw := 0, w1c := 0, w1p := 0, kw := 0, rc := 0 } : RegRow) ∧
     unitAt (BitVec.toNat (8#32 : Word)) = some ({ blk := Sys2Proof.Machine.Blk.root, base := 0, idx := 0 } : Machine.Unit) ∧
     Witness07.m07_15.dev.reached (↑7) (BitVec.toNat (8#32 : Word)) = true ∧
     logAddr (BitVec.toNat (8#32 : Word)) = false ∧
     winRegister (↑7) (BitVec.toNat (8#32 : Word)) = false ∧
     Witness07.m07_15.dev.ctl.debugPend.has ↑7 = false ∧
     Witness07.m07_15.quiet = true) ∧
    (BitVec.toNat (8#32 : Word) - ({ blk := Sys2Proof.Machine.Blk.root, base := 0, idx := 0 } : Machine.Unit).base ≠ Reg.VERSION_SEL.SEL_MINOR.off ∧
     BitVec.toNat (8#32 : Word) - ({ blk := Sys2Proof.Machine.Blk.root, base := 0, idx := 0 } : Machine.Unit).base ≠ Reg.CTRL.ENABLE.off ∧
     BitVec.toNat (8#32 : Word) - ({ blk := Sys2Proof.Machine.Blk.root, base := 0, idx := 0 } : Machine.Unit).base < 44 ∧
     ({ blk := Sys2Proof.Machine.Blk.root, base := 0, idx := 0 } : Machine.Unit).kwAt (BitVec.toNat (8#32 : Word) - ({ blk := Sys2Proof.Machine.Blk.root, base := 0, idx := 0 } : Machine.Unit).base) = false ∧
     ({ blk := Sys2Proof.Machine.Blk.root, base := 0, idx := 0 } : Machine.Unit).rowAt (BitVec.toNat (8#32 : Word) - ({ blk := Sys2Proof.Machine.Blk.root, base := 0, idx := 0 } : Machine.Unit).base) = some ({ name := "UNIT_CAPS", off := 8, stride := 4, count := 1, reset := 0, rw := 0, w1c := 0, w1p := 0, kw := 0, rc := 0 } : RegRow) ∧
     unitAt (BitVec.toNat (8#32 : Word)) = some ({ blk := Sys2Proof.Machine.Blk.root, base := 0, idx := 0 } : Machine.Unit) ∧
     Witness07.m07_15.dev.reached (↑7) (BitVec.toNat (8#32 : Word)) = true ∧
     logAddr (BitVec.toNat (8#32 : Word)) = false ∧
     winRegister (↑7) (BitVec.toNat (8#32 : Word)) = false ∧
     Witness07.m07_15.dev.ctl.debugPend.has ↑7 = false ∧
     Witness07.m07_15.quiet = true) := by and_intros <;> decide +kernel

theorem test_wit_ArbiterAndPaths :
    (More.at15_3.dev.nextGrant = none ∧
     More.at15_3.quiet = true) ∧
    (Witness07.m07_4.dev.nextGrant = some ({ path := 5, write := false, addr := 163872, data := 0x00000000#32, lane := none, since := 0 } : Access) ∧
     Witness07.m07_4.quiet = true) ∧
    (Witness07.x3.dev.ctl.debugPend.look 1 = some Witness07.acc0 ∧
     Witness07.acc0.lane = none ∧
     Witness07.acc0.since + 80 ≤ Witness07.x3.dev.tick ∧
     Witness07.x3.quiet = true) ∧
    ((domainPrereqs (8 : ℕ)).all Witness07.x1.dev.domainOn = true ∧
     Witness07.x1.dev.pd (8 : ℕ) = pdOff ∧
     2 ≤ (8 : ℕ) ∧
     (unitOf (laneBase 0 : ℕ)).domain = some (8 : ℕ) ∧
     (unitOf (laneBase 0 : ℕ)).blk ≠ Blk.shell ∧
     Witness07.x1.quiet = true) ∧
    (((List.filter (fun a => a.path == 2 + 0) More.at15_3.dev.ctl.waiting).length + bit01 (More.at15_3.dev.ctl.debugPend.has (2 + 0)) < 4) ∧
     More.at15_3.dev.portLive (portTiles (quadrantGroup 0)) portMaster = true ∧
     More.at15_3.quiet = true) ∧
    (Witness07.m07_4.dev.grantable Witness07.v07_4_1.path Witness07.v07_4_1.addr = true ∧
     Witness07.v07_4_1.path < 8 ∧
     Witness07.m07_4.dev.headOf Witness07.v07_4_1.path = some Witness07.v07_4_1 ∧
     Witness07.m07_4.dev.nextGrant = some ({ path := 5, write := false, addr := 163872, data := 0x00000000#32, lane := none, since := 0 } : Access) ∧
     Witness07.m07_4.quiet = true) ∧
    (More.firstNotice.dev.ctl.rootRaised = false ∧
     More.firstNotice.dev.carries (128 + More.firstNotice.dev.fld rootBase Reg.IRQ_CTRL.EVT_LANE) msgEvent = true ∧
     More.firstNotice.dev.rootRaises = true ∧
     More.firstNotice.dev.fld rootBase Reg.IRQ_CTRL.EVT_EN = 1 ∧
     More.firstNotice.dev.clk.loopsDown = [] ∧
     More.firstNotice.dev.clk.changeHeld = false ∧
     More.firstNotice.dev.kryup.due = []) ∧
    (More.at15_3.dev.grantable (↑5) ({ path := 5, addr := More.evEn } : Access).addr = false ∧
     More.at15_3.dev.headOf ↑5 = some ({ path := 5, addr := More.evEn } : Access) ∧
     More.at15_3.dev.ctl.debugPend.look ↑5 = none ∧
     ({ path := 5, addr := More.evEn } : Access).lane = none ∧
     ({ path := 5, addr := More.evEn } : Access).since + 80 ≤ More.at15_3.dev.tick ∧
     More.at15_3.quiet = true) ∧
    (({ dev := More.allOn } : State).dev.power.admission.contains (groupOf 8) = false ∧
     ({ dev := More.allOn } : State).dev.groupClock (groupOf 8) = false ∧
     ({ dev := More.allOn } : State).dev.logicOn (groupOf 8) = true ∧
     (∀ (k : ℕ), (unitOf (columnBase (2 + bit01 false * 2) 8)).domain = some k → ({ dev := More.allOn } : State).dev.pd k ≠ pdOff) ∧
     ({ dev := More.allOn } : State).quiet = true) ∧
    (Witness07.x4.dev.ctl.eventTick + Witness07.x4.dev.fld rootBase Reg.IRQ_CTRL.EVT_REPEAT * 64 ≤ Witness07.x4.dev.tick ∧
     Witness07.x4.dev.fld rootBase Reg.IRQ_CTRL.EVT_REPEAT ≠ 0 ∧
     Witness07.x4.dev.ctl.rootRaised = true ∧
     Witness07.x4.dev.carries (128 + Witness07.x4.dev.fld rootBase Reg.IRQ_CTRL.EVT_LANE) msgEvent = true ∧
     Witness07.x4.dev.rootRaises = true ∧
     Witness07.x4.dev.fld rootBase Reg.IRQ_CTRL.EVT_EN = 1 ∧
     Witness07.x4.dev.clk.loopsDown = [] ∧
     Witness07.x4.dev.clk.changeHeld = false ∧
     Witness07.x4.dev.kryup.due = []) ∧
    ((More.waits { path := 5, addr := More.evEn } : State).dev.derived ({ blk := Sys2Proof.Machine.Blk.damper, base := 204800, idx := 0 } : Machine.Unit) (({ path := 5, write := false, addr := 204832, data := 0x00000000#32, lane := none, since := 0 } : Access).addr - ({ blk := Sys2Proof.Machine.Blk.damper, base := 204800, idx := 0 } : Machine.Unit).base) = none ∧
     ({ blk := Sys2Proof.Machine.Blk.damper, base := 204800, idx := 0 } : Machine.Unit).blk ∉ [Blk.keeper, Blk.clkgen, Blk.serial, Blk.shell] ∧
     ({ path := 5, write := false, addr := 204832, data := 0x00000000#32, lane := none, since := 0 } : Access).write = false ∧
     ({ blk := Sys2Proof.Machine.Blk.damper, base := 204800, idx := 0 } : Machine.Unit).rowAt (({ path := 5, write := false, addr := 204832, data := 0x00000000#32, lane := none, since := 0 } : Access).addr - ({ blk := Sys2Proof.Machine.Blk.damper, base := 204800, idx := 0 } : Machine.Unit).base) = some ({ name := "EVENT_EN", off := 32, stride := 4, count := 1, reset := 5, rw := 4294967295, w1c := 0, w1p := 0, kw := 0, rc := 0 } : RegRow) ∧
     unitAt ({ path := 5, write := false, addr := 204832, data := 0x00000000#32, lane := none, since := 0 } : Access).addr = some ({ blk := Sys2Proof.Machine.Blk.damper, base := 204800, idx := 0 } : Machine.Unit) ∧
     logAddr ({ path := 5, write := false, addr := 204832, data := 0x00000000#32, lane := none, since := 0 } : Access).addr = false ∧
     winRegister ({ path := 5, write := false, addr := 204832, data := 0x00000000#32, lane := none, since := 0 } : Access).path ({ path := 5, write := false, addr := 204832, data := 0x00000000#32, lane := none, since := 0 } : Access).addr = false ∧
     (More.waits { path := 5, addr := More.evEn } : State).dev.turnedAway ({ path := 5, write := false, addr := 204832, data := 0x00000000#32, lane := none, since := 0 } : Access).addr = false ∧
     (More.waits { path := 5, addr := More.evEn } : State).dev.implemented ({ path := 5, write := false, addr := 204832, data := 0x00000000#32, lane := none, since := 0 } : Access).path ({ path := 5, write := false, addr := 204832, data := 0x00000000#32, lane := none, since := 0 } : Access).addr = true ∧
     (More.waits { path := 5, addr := More.evEn } : State).dev.admission ({ path := 5, write := false, addr := 204832, data := 0x00000000#32, lane := none, since := 0 } : Access).path ({ path := 5, write := false, addr := 204832, data := 0x00000000#32, lane := none, since := 0 } : Access).addr = stOk ∧
     ({ path := 5, write := false, addr := 204832, data := 0x00000000#32, lane := none, since := 0 } : Access).lane = none ∧
     (More.waits { path := 5, addr := More.evEn } : State).dev.nextGrant = some ({ path := 5, write := false, addr := 204832, data := 0x00000000#32, lane := none, since := 0 } : Access) ∧
     (More.waits { path := 5, addr := More.evEn } : State).quiet = true) ∧
    (({ path := 5, write := true, addr := 204832, data := 0x00000009#32, lane := none, since := 0 } : Access).addr - ({ blk := Sys2Proof.Machine.Blk.damper, base := 204800, idx := 0 } : Machine.Unit).base ≠ Reg.VERSION_SEL.SEL_MINOR.off ∧
     ({ path := 5, write := true, addr := 204832, data := 0x00000009#32, lane := none, since := 0 } : Access).addr - ({ blk := Sys2Proof.Machine.Blk.damper, base := 204800, idx := 0 } : Machine.Unit).base ≠ Reg.CTRL.ENABLE.off ∧
     ({ path := 5, write := true, addr := 204832, data := 0x00000009#32, lane := none, since := 0 } : Access).addr - ({ blk := Sys2Proof.Machine.Blk.damper, base := 204800, idx := 0 } : Machine.Unit).base < 44 ∧
     ({ blk := Sys2Proof.Machine.Blk.damper, base := 204800, idx := 0 } : Machine.Unit).kwAt (({ path := 5, write := true, addr := 204832, data := 0x00000009#32, lane := none, since := 0 } : Access).addr - ({ blk := Sys2Proof.Machine.Blk.damper, base := 204800, idx := 0 } : Machine.Unit).base) = false ∧
     ({ path := 5, write := true, addr := 204832, data := 0x00000009#32, lane := none, since := 0 } : Access).write = true ∧
     ({ blk := Sys2Proof.Machine.Blk.damper, base := 204800, idx := 0 } : Machine.Unit).rowAt (({ path := 5, write := true, addr := 204832, data := 0x00000009#32, lane := none, since := 0 } : Access).addr - ({ blk := Sys2Proof.Machine.Blk.damper, base := 204800, idx := 0 } : Machine.Unit).base) = some ({ name := "EVENT_EN", off := 32, stride := 4, count := 1, reset := 5, rw := 4294967295, w1c := 0, w1p := 0, kw := 0, rc := 0 } : RegRow) ∧
     unitAt ({ path := 5, write := true, addr := 204832, data := 0x00000009#32, lane := none, since := 0 } : Access).addr = some ({ blk := Sys2Proof.Machine.Blk.damper, base := 204800, idx := 0 } : Machine.Unit) ∧
     logAddr ({ path := 5, write := true, addr := 204832, data := 0x00000009#32, lane := none, since := 0 } : Access).addr = false ∧
     winRegister ({ path := 5, write := true, addr := 204832, data := 0x00000009#32, lane := none, since := 0 } : Access).path ({ path := 5, write := true, addr := 204832, data := 0x00000009#32, lane := none, since := 0 } : Access).addr = false ∧
     (More.waits { path := 5, write := true, addr := More.evEn, data := 9 } : State).dev.turnedAway ({ path := 5, write := true, addr := 204832, data := 0x00000009#32, lane := none, since := 0 } : Access).addr = false ∧
     (More.waits { path := 5, write := true, addr := More.evEn, data := 9 } : State).dev.implemented ({ path := 5, write := true, addr := 204832, data := 0x00000009#32, lane := none, since := 0 } : Access).path ({ path := 5, write := true, addr := 204832, data := 0x00000009#32, lane := none, since := 0 } : Access).addr = true ∧
     (More.waits { path := 5, write := true, addr := More.evEn, data := 9 } : State).dev.admission ({ path := 5, write := true, addr := 204832, data := 0x00000009#32, lane := none, since := 0 } : Access).path ({ path := 5, write := true, addr := 204832, data := 0x00000009#32, lane := none, since := 0 } : Access).addr = stOk ∧
     ({ path := 5, write := true, addr := 204832, data := 0x00000009#32, lane := none, since := 0 } : Access).lane = none ∧
     (More.waits { path := 5, write := true, addr := More.evEn, data := 9 } : State).dev.nextGrant = some ({ path := 5, write := true, addr := 204832, data := 0x00000009#32, lane := none, since := 0 } : Access) ∧
     (More.waits { path := 5, write := true, addr := More.evEn, data := 9 } : State).quiet = true) := by and_intros <;> decide +kernel

theorem test_wit_WindowsReachTheirStores :
    (Witness07.m07_8.dev.mem.err.look ↑(Fin.ofNat (2 ^ 25) 0 : Fin (2 ^ 25)) = none ∧
     Witness07.m07_8.dev.relieved (wordBank ↑(Fin.ofNat (2 ^ 25) 0 : Fin (2 ^ 25))) = none ∧
     Witness07.m07_8.dev.baseBarred false ↑(Fin.ofNat (2 ^ 25) 0 : Fin (2 ^ 25)) = false ∧
     Witness07.m07_8.dev.winAddr winTest 3 = ↑(Fin.ofNat (2 ^ 25) 0 : Fin (2 ^ 25)) * 32 + 0 * 4 ∧
     Witness07.m07_8.dev.reached (3) (winDataAddr winTest 3) = true ∧
     Witness07.m07_8.dev.domainOn 6 = true ∧
     Witness07.m07_8.dev.ctl.debugPend.has 3 = false ∧
     Witness07.m07_8.quiet = true) ∧
    (Witness07.m07_8.dev.winAddr winDir 4 = 8 * 0 + ↑0 ∧
     Witness07.m07_8.dev.reached (4) (winDataAddr winDir 4) = true ∧
     Witness07.m07_8.dev.domainOn 6 = true ∧
     Witness07.m07_8.dev.ctl.debugPend.has 4 = false ∧
     Witness07.m07_8.quiet = true) ∧
    (Witness07.m07_7.dev.winAddr winTree 6 = 0 * 2 ^ 19 + 0 * 2 ^ 16 + 0 ∧
     Witness07.m07_7.dev.reached (6) (winDataAddr winTree 6) = true ∧
     Witness07.m07_7.dev.domainOn 6 = true ∧
     Witness07.m07_7.dev.ctl.debugPend.has 6 = false ∧
     Witness07.m07_7.quiet = true) ∧
    (0 = 0 ∧
     (Witness07.m07_8.dev.desc 0).state = RingState.closed ∧
     Witness07.m07_8.dev.winAddr winDir 4 = 8 * 0 + ↑0 ∧
     Witness07.m07_8.dev.reached (4) (winDataAddr winDir 4) = true ∧
     Witness07.m07_8.dev.domainOn 6 = true ∧
     Witness07.m07_8.dev.ctl.debugPend.has 4 = false ∧
     Witness07.m07_8.quiet = true) ∧
    (((Witness07.m07_8.dev.desc 10).state ≠ RingState.closed ∨ 2 ≤ (3 : Fin 8)) ∧
     Witness07.m07_8.dev.winAddr winDir 1 = 8 * 10 + 3 ∧
     Witness07.m07_8.dev.reached (1) (winDataAddr winDir 1) = true ∧
     Witness07.m07_8.dev.domainOn 6 = true ∧
     Witness07.m07_8.dev.ctl.debugPend.has 1 = false ∧
     Witness07.m07_8.quiet = true) := by and_intros <;> decide +kernel

theorem test_wit_DebugWindowIssuesAndCompletes :
    (dsKeyOf ((Witness07.x6 8388608 : State).dev.winAddr winDebug 1) ≠ 0 ∧
     (Witness07.x6 8388608 : State).dev.reached (1) (winDataAddr winDebug 1) = true ∧
     (Witness07.x6 8388608 : State).quiet = true) ∧
    (dsOffset ((More.debugAt 1073741824 0 true : State).dev.winAddr winDebug 1) < extFirst ∧
     2 ^ 30 ≤ dsOffset ((More.debugAt 1073741824 0 true : State).dev.winAddr winDebug 1) ∧
     (More.debugAt 1073741824 0 true : State).dev.winAddr winDebug 1 % 4 = 0 ∧
     dsKeyOf ((More.debugAt 1073741824 0 true : State).dev.winAddr winDebug 1) = 0 ∧
     ({ path := 1, write := true, addr := 16789764, data := 0xa1b2c3d4#32, lane := none, since := 0 } : Access).path = 1 ∧
     ({ path := 1, write := true, addr := 16789764, data := 0xa1b2c3d4#32, lane := none, since := 0 } : Access).lane = none ∧
     (More.debugAt 1073741824 0 true : State).dev.ctl.debugPend.look 1 = some ({ path := 1, write := true, addr := 16789764, data := 0xa1b2c3d4#32, lane := none, since := 0 } : Access) ∧
     (More.debugAt 1073741824 0 true : State).quiet = true) ∧
    (({ path := 1, write := true, addr := 16789764, data := 0xa1b2c3d4#32, lane := none, since := 0 } : Access).write = true ∧
     (More.debugAt 100 0 true More.memUp : State).dev.wordCheck ((More.debugAt 100 0 true More.memUp : State).dev.physWord (dsOffset ((More.debugAt 100 0 true More.memUp : State).dev.winAddr winDebug 1) / 32)) = memOk ∧
     (More.debugAt 100 0 true More.memUp : State).dev.baseBarred false (dsOffset ((More.debugAt 100 0 true More.memUp : State).dev.winAddr winDebug 1) / 32) = false ∧
     dsOffset ((More.debugAt 100 0 true More.memUp : State).dev.winAddr winDebug 1) < 2 ^ 30 ∧
     (More.debugAt 100 0 true More.memUp : State).dev.winAddr winDebug 1 % 4 = 0 ∧
     dsKeyOf ((More.debugAt 100 0 true More.memUp : State).dev.winAddr winDebug 1) = 0 ∧
     ({ path := 1, write := true, addr := 16789764, data := 0xa1b2c3d4#32, lane := none, since := 0 } : Access).path = 1 ∧
     ({ path := 1, write := true, addr := 16789764, data := 0xa1b2c3d4#32, lane := none, since := 0 } : Access).lane = none ∧
     (More.debugAt 100 0 true More.memUp : State).dev.ctl.debugPend.look 1 = some ({ path := 1, write := true, addr := 16789764, data := 0xa1b2c3d4#32, lane := none, since := 0 } : Access) ∧
     (More.debugAt 100 0 true More.memUp : State).quiet = true) ∧
    (({ path := 1, write := false, addr := 16789764, data := 0xa1b2c3d4#32, lane := none, since := 0 } : Access).write = false ∧
     (More.debugAt 100 0 false More.memUp : State).dev.wordCheck ((More.debugAt 100 0 false More.memUp : State).dev.physWord (dsOffset ((More.debugAt 100 0 false More.memUp : State).dev.winAddr winDebug 1) / 32)) = memOk ∧
     (More.debugAt 100 0 false More.memUp : State).dev.baseBarred false (dsOffset ((More.debugAt 100 0 false More.memUp : State).dev.winAddr winDebug 1) / 32) = false ∧
     dsOffset ((More.debugAt 100 0 false More.memUp : State).dev.winAddr winDebug 1) < 2 ^ 30 ∧
     (More.debugAt 100 0 false More.memUp : State).dev.winAddr winDebug 1 % 4 = 0 ∧
     dsKeyOf ((More.debugAt 100 0 false More.memUp : State).dev.winAddr winDebug 1) = 0 ∧
     ({ path := 1, write := false, addr := 16789764, data := 0xa1b2c3d4#32, lane := none, since := 0 } : Access).path = 1 ∧
     ({ path := 1, write := false, addr := 16789764, data := 0xa1b2c3d4#32, lane := none, since := 0 } : Access).lane = none ∧
     (More.debugAt 100 0 false More.memUp : State).dev.ctl.debugPend.look 1 = some ({ path := 1, write := false, addr := 16789764, data := 0xa1b2c3d4#32, lane := none, since := 0 } : Access) ∧
     (More.debugAt 100 0 false More.memUp : State).quiet = true) ∧
    (({ path := 1, write := true, addr := 16789764, data := 0xa1b2c3d4#32, lane := none, since := 0 } : Access).write = true ∧
     (More.debugAt 68 16 true More.extUp : State).dev.verify 0 (dsOffset ((More.debugAt 68 16 true More.extUp : State).dev.winAddr winDebug 1) - extFirst) ((More.debugAt 68 16 true More.extUp : State).dev.extLine ((dsOffset ((More.debugAt 68 16 true More.extUp : State).dev.winAddr winDebug 1) - extFirst) / 64)) = dsOk ∧
     (More.debugAt 68 16 true More.extUp : State).dev.keyRefused clsDebug 0 = false ∧
     (More.debugAt 68 16 true More.extUp : State).dev.extRefused (dsOffset ((More.debugAt 68 16 true More.extUp : State).dev.winAddr winDebug 1) - extFirst) = false ∧
     dsOffset ((More.debugAt 68 16 true More.extUp : State).dev.winAddr winDebug 1) - extFirst < (More.debugAt 68 16 true More.extUp : State).dev.visible ∧
     extFirst ≤ dsOffset ((More.debugAt 68 16 true More.extUp : State).dev.winAddr winDebug 1) ∧
     (More.debugAt 68 16 true More.extUp : State).dev.winAddr winDebug 1 % 4 = 0 ∧
     dsKeyOf ((More.debugAt 68 16 true More.extUp : State).dev.winAddr winDebug 1) = 0 ∧
     ({ path := 1, write := true, addr := 16789764, data := 0xa1b2c3d4#32, lane := none, since := 0 } : Access).path = 1 ∧
     ({ path := 1, write := true, addr := 16789764, data := 0xa1b2c3d4#32, lane := none, since := 0 } : Access).lane = none ∧
     (More.debugAt 68 16 true More.extUp : State).dev.ctl.debugPend.look 1 = some ({ path := 1, write := true, addr := 16789764, data := 0xa1b2c3d4#32, lane := none, since := 0 } : Access) ∧
     (More.debugAt 68 16 true More.extUp : State).quiet = true) ∧
    (({ path := 1, write := false, addr := 16789764, data := 0xa1b2c3d4#32, lane := none, since := 0 } : Access).write = false ∧
     (More.debugAt 68 16 false More.extUp : State).dev.verify 0 (dsOffset ((More.debugAt 68 16 false More.extUp : State).dev.winAddr winDebug ↑1) - extFirst) ((More.debugAt 68 16 false More.extUp : State).dev.extLine ((dsOffset ((More.debugAt 68 16 false More.extUp : State).dev.winAddr winDebug ↑1) - extFirst) / 64)) = dsOk ∧
     (More.debugAt 68 16 false More.extUp : State).dev.keyRefused clsDebug 0 = false ∧
     (More.debugAt 68 16 false More.extUp : State).dev.extRefused (dsOffset ((More.debugAt 68 16 false More.extUp : State).dev.winAddr winDebug ↑1) - extFirst) = false ∧
     dsOffset ((More.debugAt 68 16 false More.extUp : State).dev.winAddr winDebug ↑1) - extFirst < (More.debugAt 68 16 false More.extUp : State).dev.visible ∧
     extFirst ≤ dsOffset ((More.debugAt 68 16 false More.extUp : State).dev.winAddr winDebug ↑1) ∧
     (More.debugAt 68 16 false More.extUp : State).dev.winAddr winDebug ↑1 % 4 = 0 ∧
     dsKeyOf ((More.debugAt 68 16 false More.extUp : State).dev.winAddr winDebug ↑1) = 0 ∧
     ({ path := 1, write := false, addr := 16789764, data := 0xa1b2c3d4#32, lane := none, since := 0 } : Access).path = ↑1 ∧
     ({ path := 1, write := false, addr := 16789764, data := 0xa1b2c3d4#32, lane := none, since := 0 } : Access).lane = none ∧
     (More.debugAt 68 16 false More.extUp : State).dev.ctl.debugPend.look ↑1 = some ({ path := 1, write := false, addr := 16789764, data := 0xa1b2c3d4#32, lane := none, since := 0 } : Access) ∧
     (More.debugAt 68 16 false More.extUp : State).quiet = true) ∧
    (dsKeyOf ((Witness07.x6 8388608 : State).dev.winAddr winDebug 7) = 0 ∧
     (Witness07.x6 8388608 : State).dev.reached (7) (winDataAddr winDebug 7) = true ∧
     (Witness07.x6 8388608 : State).quiet = true) := by and_intros <;> decide +kernel

theorem test_wit_LaneGroupPll :
    (max (Witness08.m08_2.dev.group 3).pgTick (Witness08.m08_2.dev.units.startTick.num (laneGroupBase 3)) + Witness08.m08_2.dev.fld (laneGroupBase 3) Reg.LG_LOCK_LIMIT.LIMIT ≤ Witness08.m08_2.dev.tick ∧
     Witness08.m08_2.dev.fld (laneGroupBase 3) Reg.LG_STATUS.PLL_LOCK = 0 ∧
     Witness08.m08_2.dev.ust (laneGroupBase 3) = UState.starting ∧
     Witness08.m08_2.quiet = true) ∧
    (Witness08.m08_4.dev.ust (laneGroupBase 3) ≠ UState.off ∧
     Witness08.m08_4.quiet = true) ∧
    (Witness08.m08_4.dev.ust (laneGroupBase 3) ≠ UState.off ∧
     (Witness08.m08_4.dev.group 3).lrefKHz = 0 ∧
     Witness08.m08_4.quiet = true) ∧
    (Witness08.m08_4.dev.groupIdle 3 = false ∧
     Witness08.m08_4.dev.reached (0) (laneGroupBase 3 + Reg.LG_PLL_CFG.off) = true ∧
     Witness08.m08_4.quiet = true) ∧
    ((Witness08.m08_2.dev.group 3).boot = false ∧
     Witness08.m08_2.dev.units.seq.look (laneGroupBase 3) = none ∧
     Witness08.m08_2.dev.ust (laneGroupBase 3) = UState.starting ∧
     Witness08.m08_2.quiet = true) ∧
    (Witness08.m08_1.dev.fld (laneGroupBase 3) Reg.UNIT_VER.MAJOR = (unitOf (laneGroupBase 3)).native.1 ∧
     Witness08.m08_1.dev.groupIdle 3 = true ∧
     Witness08.m08_1.dev.reached (0) (laneGroupBase 3 + Reg.LG_PLL_CFG.off) = true ∧
     Witness08.m08_1.quiet = true) := by and_intros <;> decide +kernel

theorem test_wit_ReceiverSignalAndAdaptation :
    (More.cdrWaits.dev.reached (5) (laneBase 5 + Reg.DFE_CTRL.off) = true ∧
     More.cdrWaits.quiet = true) ∧
    (Witness08.m08_7.dev.fld (laneBase 5) Reg.LANE_STATUS.LOS = 1 ∧
     Witness08.m08_7.dev.ust (laneBase 5) ≠ UState.off ∧
     Witness08.m08_7.quiet = true) ∧
    (More.cdrWaits.dev.groupLocked 5 = true ∧
     More.cdrWaits.dev.fld (laneBase 5) Reg.LANE_STATUS.CDR_LOCK = 0 ∧
     More.cdrWaits.dev.ust (laneBase 5) ≠ UState.off ∧
     More.cdrWaits.quiet = true) ∧
    (((1 : Fin 16) = 0 ∨ 12 < (1 : Fin 16) ∨ More.cdrWaits.dev.frozen 5 1 = false ∨ (1#8 : BitVec 8).toInt < -tapLimit 1 ∨ tapLimit 1 < (1#8 : BitVec 8).toInt) ∧
     More.cdrWaits.dev.reached (0) (laneBase 5 + Reg.DFE_LOAD.off) = true ∧
     More.cdrWaits.quiet = true) ∧
    ((300000000#8 : BitVec 8).toInt ≤ tapLimit 1 ∧
     -tapLimit 1 ≤ (300000000#8 : BitVec 8).toInt ∧
     Witness08.m08_9.dev.frozen 5 1 = true ∧
     (1 : Fin 16) ≤ 12 ∧
     1 ≤ (1 : Fin 16) ∧
     Witness08.m08_9.dev.reached (7) (laneBase 5 + Reg.DFE_LOAD.off) = true ∧
     Witness08.m08_9.quiet = true) ∧
    ((∀ (t : ℕ), (Witness08.m08_8.dev.lane 5).ctleTick = some t → 2 ^ 24 ≤ Witness08.m08_8.dev.bitsSince (5) t) ∧
     Witness08.m08_8.dev.fld (laneBase 5) Reg.CTLE_CTRL.MODE = 2 ∧
     Witness08.m08_8.dev.runs (laneBase 5) = true ∧
     Witness08.m08_8.dev.signalGood 5 = true ∧
     Witness08.m08_8.quiet = true) ∧
    ((Witness08.m08_8.dev.lane 5).integ.getD (↑4) 0 + 13 < 2 ^ (8 + Witness08.m08_8.dev.fld (laneBase 5) Reg.DFE_CTRL.MU) ∧
     -2 ^ (8 + Witness08.m08_8.dev.fld (laneBase 5) Reg.DFE_CTRL.MU) < (Witness08.m08_8.dev.lane 5).integ.getD (↑4) 0 + 13 ∧
     (4 ≠ 0 → Witness08.m08_8.dev.frozen 5 ↑4 = false) ∧
     Witness08.m08_8.dev.dfeMoves 5 = true ∧
     Witness08.m08_8.quiet = true) ∧
    ((Witness08.m08_9.dev.proofDepth (laneBase 5) = none ∧ Witness08.m08_9.dev.blkState 5 = blkLocked ∧ Witness08.m08_9.dev.fld (laneBase 5) Reg.BLK_CTRL.FORCE_MANUAL = 0 ∧ (Witness08.m08_9.dev.link 5).txQueue = []) ∧
     Witness08.m08_9.dev.fld (laneBase 5) Reg.LANE_STATUS.LOS = 0 ∧
     Witness08.m08_9.dev.ust (laneBase 5) ≠ UState.off ∧
     Witness08.m08_9.quiet = true) ∧
    ((Witness08.m08_9.dev.proofDepth (laneBase 5) = none ∧ Witness08.m08_9.dev.blkState 5 = blkLocked ∧ Witness08.m08_9.dev.fld (laneBase 5) Reg.BLK_CTRL.FORCE_MANUAL = 0 ∧ (Witness08.m08_9.dev.link 5).txQueue = []) ∧
     Witness08.m08_9.dev.fld (laneBase 5) Reg.LANE_STATUS.CDR_LOCK = 1 ∧
     Witness08.m08_9.dev.ust (laneBase 5) ≠ UState.off ∧
     Witness08.m08_9.quiet = true) ∧
    ((0 : Fin 13) = 0 ∧
     ((Witness08.m08_9.dev.lane 5).integ.getD (0) 0 + 300000000 ≤ -2 ^ (8 + Witness08.m08_9.dev.fld (laneBase 5) Reg.DFE_CTRL.MU) ∨ 2 ^ (8 + Witness08.m08_9.dev.fld (laneBase 5) Reg.DFE_CTRL.MU) ≤ (Witness08.m08_9.dev.lane 5).integ.getD (0) 0 + 300000000) ∧
     ((0 : Fin 13) ≠ 0 → Witness08.m08_9.dev.frozen 5 0 = false) ∧
     Witness08.m08_9.dev.dfeMoves 5 = true ∧
     Witness08.m08_9.quiet = true) ∧
    (More.cdrWaits.dev.units.startTick.num (laneBase 5) + (More.cdrWaits.dev.lane 5).slipTicks + More.cdrWaits.dev.fld (laneBase 5) Reg.LANE_START.LIMIT ≤ More.cdrWaits.dev.tick ∧
     More.cdrWaits.dev.blkState 5 ≠ blkSlip ∧
     More.cdrWaits.dev.fld (laneBase 5) Reg.LANE_START.LIMIT ≠ 0 ∧
     More.cdrWaits.dev.ust (laneBase 5) = UState.starting ∧
     More.cdrWaits.dev.ust (laneBase 5) ≠ UState.off ∧
     More.cdrWaits.quiet = true) ∧
    ((((Witness08.m08_8.dev.lane ↑5).taps.getD (5 - 1) 0 + if 2 ^ (8 + Witness08.m08_8.dev.fld (laneBase ↑5) Reg.DFE_CTRL.MU) ≤ (Witness08.m08_8.dev.lane ↑5).integ.getD (5) 0 + 300000000 then 1 else -1) ≤ tapLimit 5) ∧
     (-tapLimit 5 ≤ (Witness08.m08_8.dev.lane ↑5).taps.getD (5 - 1) 0 + if 2 ^ (8 + Witness08.m08_8.dev.fld (laneBase ↑5) Reg.DFE_CTRL.MU) ≤ (Witness08.m08_8.dev.lane ↑5).integ.getD (5) 0 + 300000000 then 1 else -1) ∧
     (5 : Fin 13) ≠ 0 ∧
     ((Witness08.m08_8.dev.lane ↑5).integ.getD (5) 0 + 300000000 ≤ -2 ^ (8 + Witness08.m08_8.dev.fld (laneBase ↑5) Reg.DFE_CTRL.MU) ∨ 2 ^ (8 + Witness08.m08_8.dev.fld (laneBase ↑5) Reg.DFE_CTRL.MU) ≤ (Witness08.m08_8.dev.lane ↑5).integ.getD (5) 0 + 300000000) ∧
     ((5 : Fin 13) ≠ 0 → Witness08.m08_8.dev.frozen ↑5 5 = false) ∧
     Witness08.m08_8.dev.dfeMoves ↑5 = true ∧
     Witness08.m08_8.quiet = true) ∧
    ((((Witness08.m08_8.dev.lane 5).taps.getD (1 - 1) 0 + if 2 ^ (8 + Witness08.m08_8.dev.fld (laneBase 5) Reg.DFE_CTRL.MU) ≤ (Witness08.m08_8.dev.lane 5).integ.getD (1) 0 + 300000000 then 1 else -1) < -tapLimit 1 ∨ tapLimit 1 < (Witness08.m08_8.dev.lane 5).taps.getD (1 - 1) 0 + if 2 ^ (8 + Witness08.m08_8.dev.fld (laneBase 5) Reg.DFE_CTRL.MU) ≤ (Witness08.m08_8.dev.lane 5).integ.getD (1) 0 + 300000000 then 1 else -1) ∧
     (1 : Fin 13) ≠ 0 ∧
     ((Witness08.m08_8.dev.lane 5).integ.getD (1) 0 + 300000000 ≤ -2 ^ (8 + Witness08.m08_8.dev.fld (laneBase 5) Reg.DFE_CTRL.MU) ∨ 2 ^ (8 + Witness08.m08_8.dev.fld (laneBase 5) Reg.DFE_CTRL.MU) ≤ (Witness08.m08_8.dev.lane 5).integ.getD (1) 0 + 300000000) ∧
     ((1 : Fin 13) ≠ 0 → Witness08.m08_8.dev.frozen 5 1 = false) ∧
     Witness08.m08_8.dev.dfeMoves 5 = true ∧
     Witness08.m08_8.quiet = true) := by and_intros <;> decide +kernel

theorem test_wit_FirSettingIsStoredAndApplied :
    (Witness25.m25_6.dev.reached (3) (laneBase 130 + Reg.TX_FIR.off) = true ∧
     Witness25.m25_6.quiet = true) ∧
    (24 < Witness25.m25_7.dev.fld (laneBase 130) Reg.TX_FIR.PRE + Witness25.m25_7.dev.fld (laneBase 130) Reg.TX_FIR.POST ∧
     (Witness25.m25_7.dev.reached (7) (ctrlAddr (laneBase 130)) = true ∧ Witness25.m25_7.dev.ust (laneBase 130) = UState.stopped ∧ BitVec.toNat (Witness25.m25_7.dev.reg (ctrlAddr (laneBase 130))) = 0 ∧ Witness25.m25_7.dev.rateOk (130 / 8) (Witness25.m25_7.dev.fld (laneBase 130) Reg.LANE_CFG.TX_DIV) = true ∧ Witness25.m25_7.dev.rateOk (130 / 8) (Witness25.m25_7.dev.fld (laneBase 130) Reg.LANE_CFG.RX_DIV) = true) ∧
     Witness25.m25_7.quiet = true) ∧
    (Witness25.m25_8.dev.fld (laneBase 130) Reg.TX_FIR.PRE + Witness25.m25_8.dev.fld (laneBase 130) Reg.TX_FIR.POST ≤ 24 ∧
     (Witness25.m25_8.dev.reached (0) (ctrlAddr (laneBase 130)) = true ∧ Witness25.m25_8.dev.ust (laneBase 130) = UState.stopped ∧ BitVec.toNat (Witness25.m25_8.dev.reg (ctrlAddr (laneBase 130))) = 0 ∧ Witness25.m25_8.dev.rateOk (130 / 8) (Witness25.m25_8.dev.fld (laneBase 130) Reg.LANE_CFG.TX_DIV) = true ∧ Witness25.m25_8.dev.rateOk (130 / 8) (Witness25.m25_8.dev.fld (laneBase 130) Reg.LANE_CFG.RX_DIV) = true) ∧
     Witness25.m25_8.quiet = true) := by and_intros <;> decide +kernel

theorem test_wit_EyeMonitorMeasures :
    ((Witness08.m08_13.dev.lane 130).eye = EyeState.pealHeld ∧
     Witness08.m08_13.quiet = true) ∧
    (More.eyeRuns.dev.reached (7) (laneBase 130 + Reg.EYE_CTRL.off) = true ∧
     More.eyeRuns.quiet = true) ∧
    (2 ^ (16 + (More.eyeRuns.dev.lane 130).eyeDwell) ≤ More.eyeRuns.dev.bitsSince (130) (More.eyeRuns.dev.lane 130).eyeTick ∧
     (More.eyeRuns.dev.lane 130).eye = EyeState.software ∧
     More.eyeRuns.quiet = true) := by and_intros <;> decide +kernel

theorem test_wit_BlockLockAndElasticBuffer :
    (Witness09.m09_5.dev.reached (5) (blkCtrlAddr ↑5) = true ∧
     Witness09.m09_5.quiet = true) ∧
    (({ } : State).quiet = true) ∧
    (4096 < (Witness09.m09_6.dev.lane 5).sinceQuad ∧
     Witness09.m09_6.dev.blkState 5 = blkLocked ∧
     Witness09.m09_6.quiet = true) ∧
    (Witness09.m09_6.dev.looped 5 = false ∧
     Witness09.m09_6.dev.fld (laneBase 5) Reg.LANE_STATUS.TX_ACTIVE = 1 ∧
     Witness09.m09_6.quiet = true) ∧
    ((More.locked 5 Witness09.m09_2 : State).dev.fld (laneBase 5) Reg.BLK_HUNT_LIMIT.LIMIT ≤ ((More.locked 5 Witness09.m09_2 : State).dev.lane 5).huntCount ∧
     (More.locked 5 Witness09.m09_2 : State).dev.fld (laneBase 5) Reg.BLK_HUNT_LIMIT.LIMIT ≠ 0 ∧
     (More.locked 5 Witness09.m09_2 : State).dev.blkState 5 = blkHunt ∧
     (More.locked 5 Witness09.m09_2 : State).quiet = true) ∧
    ((More.locked 5 Witness09.m09_2 : State).dev.blkState 5 = blkHunt ∧
     (((More.locked 5 Witness09.m09_2 : State).dev.ust (laneBase 5)).active = true ∧ (More.locked 5 Witness09.m09_2 : State).dev.proofDepth (laneBase 5) = none ∧ (More.locked 5 Witness09.m09_2 : State).dev.signalReady 5 = true ∧ (More.locked 5 Witness09.m09_2 : State).dev.groupLocked 5 = true) ∧
     (More.locked 5 Witness09.m09_2 : State).quiet = true) ∧
    ((More.locked 5 Witness09.m09_5 : State).dev.fld (laneBase 5) Reg.BLK_CTRL.FORCE_MANUAL = 0 ∧
     ((More.locked 5 Witness09.m09_5 : State).dev.link 5).txQueue = [] ∧
     15 ≤ ((More.locked 5 Witness09.m09_5 : State).dev.lane 5).winBad ∧
     ((256#2 : BitVec 2) = 0 ∨ (256#2 : BitVec 2) = 3) ∧
     (More.locked 5 Witness09.m09_5 : State).dev.blkState 5 = blkLocked ∧
     (((More.locked 5 Witness09.m09_5 : State).dev.ust (laneBase 5)).active = true ∧ (More.locked 5 Witness09.m09_5 : State).dev.proofDepth (laneBase 5) = none ∧ (More.locked 5 Witness09.m09_5 : State).dev.signalReady 5 = true ∧ (More.locked 5 Witness09.m09_5 : State).dev.groupLocked 5 = true) ∧
     (More.locked 5 Witness09.m09_5 : State).quiet = true) ∧
    (((More.locked 5 Witness09.m09_6 : State).dev.lane 5).eb ≠ [] ∧
     Option.any EbItem.isQuad ((More.locked 5 Witness09.m09_6 : State).dev.lane 5).eb.head? = false ∧
     ((More.locked 5 Witness09.m09_6 : State).dev.lane 5).eb.length < 8 ∧
     ((1025#2 : BitVec 2) = 1 ∨ (1025#2 : BitVec 2) = 2) ∧
     fget ((More.locked 5 Witness09.m09_6 : State).dev.lane 5).cfg Reg.LANE_CFG.RX_POL = 0 ∧
     (More.locked 5 Witness09.m09_6 : State).dev.blkState 5 = blkLocked ∧
     (More.locked 5 Witness09.m09_6 : State).dev.groupLocked 5 = true ∧
     (More.locked 5 Witness09.m09_6 : State).dev.signalReady 5 = true ∧
     (More.locked 5 Witness09.m09_6 : State).dev.proofDepth (laneBase 5) = none ∧
     ((More.locked 5 Witness09.m09_6 : State).dev.ust (laneBase 5)).active = true ∧
     (More.locked 5 Witness09.m09_6 : State).quiet = true) := by and_intros <;> decide +kernel

theorem test_wit_ControlBlocksAct :
    ((Witness10.m10_5.dev.link 5).mgmtWait = [] ∧
     17 ≤ Witness10.m10_5.dev.version 5 ∧
     chkOk Witness10.v10_3_2 = true ∧
     ctlType Witness10.v10_3_2 = ctlCredit ∧
     Witness10.m10_5.dev.between 5 = true ∧
     Witness10.m10_5.quiet = true) ∧
    (Witness10.m10_5.dev.latched causeRemote = true ∧
     Witness10.m10_5.dev.agreed (5) featAlarm = true ∧
     chkOk Witness10.v10_5_2 = true ∧
     ctlType Witness10.v10_5_2 = ctlAlarm ∧
     Witness10.m10_5.dev.between 5 = true ∧
     Witness10.m10_5.quiet = true) ∧
    ((Witness10.m10_3.dev.lane 5).evidence = none ∧
     Witness10.m10_3.dev.windowed = true ∧
     Witness10.m10_3.dev.version 5 ≠ 0 ∧
     chkOk Witness10.v10_1_2 = true ∧
     ctlType Witness10.v10_1_2 = ctlMark ∧
     Witness10.m10_3.dev.between 5 = true ∧
     Witness10.m10_3.quiet = true) ∧
    (Witness10.m10_4.dev.runs (laneBase 5) = true ∧
     Witness10.m10_4.dev.fld (laneBase 5) Reg.CTRL.PROOF_EN = 0 ∧
     Witness10.m10_4.dev.fld (laneBase 5) Reg.LINK_CTRL.PROOF_ACCEPT = 1 ∧
     (Witness10.m10_4.dev.link 5).txQueue = [] ∧
     Witness10.m10_4.dev.agreed (5) featProof = true ∧
     bitsOf (BitVec.toNat Witness10.v10_4_2) 8 8 = 1 ∧
     chkOk Witness10.v10_4_2 = true ∧
     ctlType Witness10.v10_4_2 = ctlProof ∧
     Witness10.m10_4.dev.between 5 = true ∧
     Witness10.m10_4.quiet = true) ∧
    (bestVersion (bitsOf (BitVec.toNat Witness10.v10_2_2) 16 8) (min (Witness10.m10_2.dev.link 5).pin (bitsOf (BitVec.toNat Witness10.v10_2_2) 8 8)) = some (32 : ℕ) ∧
     (Witness10.m10_2.dev.link 5).txQueue = [] ∧
     Witness10.m10_2.dev.nego 5 = negoAnnouncing ∧
     samePair (0x0000008f01102166#64 : Payload) Witness10.v10_2_2 = true ∧
     (Witness10.m10_2.dev.link 5).lastAnn = some (0x0000008f01102166#64 : Payload) ∧
     ctlType Witness10.v10_2_2 = ctlAnnounce ∧
     Witness10.m10_2.dev.between 5 = true ∧
     Witness10.m10_2.quiet = true) := by and_intros <;> decide +kernel

theorem test_wit_AnnouncePairIsAcceptedAtItsSecond :
    (Witness25.m25_1.dev.link 5).txQueue = [] ∧
     Witness25.m25_1.dev.nego 5 ≠ negoDown ∧
     ctlType Witness25.v25_1_2 = ctlAnnounce ∧
     Witness25.m25_1.dev.between 5 = true ∧
     Witness25.m25_1.quiet = true := by and_intros <;> decide +kernel

theorem test_wit_MessagesReachTheirConsumers :
    (Witness10.m10_12.dev.takes (130) msgAccept Witness10.v10_12_2 = true ∧
     Witness10.m10_12.dev.proofDepth (laneBase 130) = none ∧
     Witness10.m10_12.quiet = true) ∧
    (Witness10.m10_13.dev.nego 130 ≠ negoDown ∧
     somRoute Witness10.v10_13_2.som = 1 ∧
     Witness10.m10_13.dev.takes (130) msgControl Witness10.v10_13_2 = true ∧
     Witness10.m10_13.dev.proofDepth (laneBase 130) = none ∧
     Witness10.m10_13.quiet = true) ∧
    (((Witness10.m10_11.dev.lane 5).portBad = false ∧ BitVec.getLsbD (Witness10.m10_11.dev.lane 5).portRxq 16 = true) ∧
     Witness10.m10_11.dev.takes (5) msgEvent Witness10.v10_11_2 = true ∧
     Witness10.m10_11.dev.proofDepth (laneBase 5) = none ∧
     Witness10.m10_11.quiet = true) ∧
    (((Witness10.m10_10.dev.lane 5).portBad = false ∧ BitVec.getLsbD (Witness10.m10_10.dev.lane 5).portRxq 16 = true) ∧
     Witness10.m10_10.dev.takes (5) msgFragment Witness10.v10_10_2 = true ∧
     Witness10.m10_10.dev.proofDepth (laneBase 5) = none ∧
     Witness10.m10_10.quiet = true) ∧
    (((Witness10.m10_11.dev.lane 5).portBad = false ∧ BitVec.getLsbD (Witness10.m10_11.dev.lane 5).portRxq 16 = true) ∧
     isTrunk 5 = false ∧
     Witness10.m10_11.dev.takes (5) msgDecision Witness10.v10_8_2 = true ∧
     Witness10.m10_11.dev.proofDepth (laneBase 5) = none ∧
     Witness10.m10_11.quiet = true) ∧
    (Witness10.m10_9.dev.judge (5) (extendStamp Witness10.m10_9.dev.now (somStamp Witness10.v10_7_2.som)) = Fit.kept ∧
     Witness10.m10_9.dev.aligns 5 = true ∧
     Witness10.m10_9.dev.takes (5) msgPrimitive Witness10.v10_7_2 = true ∧
     Witness10.m10_9.dev.proofDepth (laneBase 5) = none ∧
     Witness10.m10_9.quiet = true) ∧
    (Witness10.m10_8.dev.judge (130) (extendStamp Witness10.m10_8.dev.now (somStamp Witness10.v10_8_2.som)) = Fit.kept ∧
     Witness10.m10_8.dev.aligns 130 = true ∧
     isTrunk 130 = true ∧
     Witness10.m10_8.dev.takes (130) msgDecision Witness10.v10_8_2 = true ∧
     Witness10.m10_8.dev.proofDepth (laneBase 130) = none ∧
     Witness10.m10_8.quiet = true) ∧
    (Witness10.m10_10.dev.judge (5) (extendStamp Witness10.m10_10.dev.now (somStamp Witness10.v10_6_2.som)) = Fit.kept ∧
     BitVec.getLsbD (Witness10.m10_10.dev.lane 5).directCfg 0 = false ∧
     isTrunk 5 = false ∧
     Witness10.m10_10.dev.takes (5) msgHit Witness10.v10_6_2 = true ∧
     Witness10.m10_10.dev.proofDepth (laneBase 5) = none ∧
     Witness10.m10_10.quiet = true) := by and_intros <;> decide +kernel

theorem test_wit_ManagementOverTrunkLanes :
    (More.asks.dev.reached (↑0) (laneBase 130 + Reg.REM_CTRL.off) = true ∧
     More.asks.quiet = true) ∧
    ((Witness10.nrS.dev.link 130).remTick + Witness10.nrS.dev.fld (laneBase 130) Reg.REM_CTRL.TIMEOUT ≤ Witness10.nrS.dev.tick ∧
     Witness10.nrS.dev.fld (laneBase 130) Reg.REM_STATUS.BUSY = 1 ∧
     Witness10.nrS.quiet = true) ∧
    (More.respIn.dev.fld (laneBase 130) Reg.REM_STATUS.TAG = somRoute (Witness10.wm 18 70000 263 [26, 73588229205] : WireMsg).som % 256 ∧
     More.respIn.dev.fld (laneBase 130) Reg.REM_STATUS.BUSY = 1 ∧
     More.respIn.dev.takes (130) msgMgmtResp (Witness10.wm 18 70000 263 [26, 73588229205] : WireMsg) = true ∧
     More.respIn.quiet = true) ∧
    (1 ≤ (Witness10.m10_15.dev.link 130).roomM ∧
     ((Witness10.m10_15.dev.link 130).mgmtJob = none ∧ (Witness10.m10_15.dev.link 130).mgmtWait = [] ∧ (Witness10.m10_15.dev.link 130).mgmtTags.contains (somRoute Witness10.v10_15_2.som % 256) = false ∧ Witness10.m10_15.dev.ust (laneBase 130) ≠ UState.draining) ∧
     Witness10.m10_15.dev.takes (130) msgMgmtWrite Witness10.v10_15_2 = true ∧
     Witness10.m10_15.quiet = true) ∧
    (msgUnits (1 + (somRoute Witness10.v10_14_2.som / 256 % 64 + 1 + 1) / 2) ≤ (Witness10.m10_14.dev.link 130).roomM ∧
     ((Witness10.m10_14.dev.link 130).mgmtJob = none ∧ (Witness10.m10_14.dev.link 130).mgmtWait = [] ∧ (Witness10.m10_14.dev.link 130).mgmtTags.contains (somRoute Witness10.v10_14_2.som % 256) = false ∧ Witness10.m10_14.dev.ust (laneBase 130) ≠ UState.draining) ∧
     Witness10.m10_14.dev.takes (130) msgMgmtRead Witness10.v10_14_2 = true ∧
     Witness10.m10_14.quiet = true) := by and_intros <;> decide +kernel

theorem test_wit_LaneTransmits :
    (Witness10.m10_19.dev.looped 5 = false ∧
     Witness10.m10_19.dev.agreed (5) featProof = true ∧
     Witness10.m10_19.dev.reached (2) (linkCtrlAddr 5) = true ∧
     Witness10.m10_19.quiet = true) ∧
    ((More.sendsOne More.txResp 1 : State).dev.looped 5 = true ∧
     More.txResp.orig = Originator.mgmt ∧
     More.txResp.msg.typ = msgMgmtResp ∧
     ((More.sendsOne More.txResp 1 : State).dev.link 5).mgmtWait = [] ∧
     ((More.sendsOne More.txResp 1 : State).dev.link 5).txQueue = [More.txResp] ∧
     (More.sendsOne More.txResp 1 : State).quiet = true) ∧
    (Witness10.m10_19.dev.looped 5 = false ∧
     Witness10.m10_19.dev.fld (laneBase 5) Reg.LINK_STATE.ANNOUNCE_TX = 1 ∧
     Witness10.m10_19.quiet = true) ∧
    (Witness10.m10_20.dev.version 5 ≠ 0 ∧
     Witness10.m10_20.dev.nego 5 ≠ negoDown ∧
     Witness10.m10_20.dev.reached (1) (linkCtrlAddr 5) = true ∧
     Witness10.m10_20.quiet = true) ∧
    ((Witness10.m10_20.dev.link 5).txQueue = [] ∧
     (Witness10.m10_20.dev.link 5).annSeen = false ∧
     Witness10.m10_20.dev.nego 5 = negoAnnouncing ∧
     Witness10.m10_20.quiet = true) ∧
    ((Witness10.m10_20.dev.link 5).rxLimM < 2 ^ 16 ∧
     (Witness10.m10_20.dev.link 5).rxLimF < 2 ^ 16 ∧
     Witness10.m10_20.dev.looped 5 = false ∧
     17 ≤ Witness10.m10_20.dev.version 5 ∧
     Witness10.m10_20.quiet = true) ∧
    (Witness10.m10_19.dev.now % 2 ^ Witness10.m10_19.dev.fld (laneBase 5) Reg.LINK_CTRL.MARK_PERIOD = 0 ∧
     Witness10.m10_19.dev.looped 5 = false ∧
     Witness10.m10_19.dev.version 5 ≠ 0 ∧
     Witness10.m10_19.dev.fld (laneBase 5) Reg.LINK_CTRL.MARK_TX_EN = 1 ∧
     Witness10.m10_19.quiet = true) ∧
    (msgUnits More.txFrag.msg.body.length ≤ (((More.sendsOne More.txFrag : State).dev.link 5).limitF + 2 ^ 16 - ((More.sendsOne More.txFrag : State).dev.link 5).consF % 2 ^ 16) % 2 ^ 16 ∧
     (More.sendsOne More.txFrag : State).dev.looped 5 = false ∧
     More.txFrag.msg.typ = msgFragment ∧
     More.txFrag.orig = Originator.engine 15 ∧
     ((More.sendsOne More.txFrag : State).dev.link 5).mgmtWait = [] ∧
     ((More.sendsOne More.txFrag : State).dev.link 5).txQueue = [More.txFrag] ∧
     (More.sendsOne More.txFrag : State).quiet = true) ∧
    (msgUnits More.txEvent.msg.body.length ≤ (((More.sendsOne More.txEvent : State).dev.link 5).limitM + 2 ^ 16 - ((More.sendsOne More.txEvent : State).dev.link 5).consM % 2 ^ 16) % 2 ^ 16 ∧
     (More.sendsOne More.txEvent : State).dev.looped 5 = false ∧
     More.txEvent.msg.typ = msgEvent ∧
     More.txEvent.orig = Originator.eventNotice ∧
     ((More.sendsOne More.txEvent : State).dev.link 5).mgmtWait = [] ∧
     ((More.sendsOne More.txEvent : State).dev.link 5).txQueue = [More.txEvent] ∧
     (More.sendsOne More.txEvent : State).quiet = true) := by and_intros <;> decide +kernel

theorem test_wit_PortQueuesCarryMessages :
    ((Witness11.m11_9.dev.lane 5).portBad = false ∧
     BitVec.getLsbD (Witness11.m11_9.dev.lane 5).portTxq 16 = true ∧
     Witness11.m11_9.dev.proving (laneBase 5) = false ∧
     Witness11.m11_9.dev.ust (laneBase 5) = UState.running ∧
     Witness11.m11_9.quiet = true) ∧
    (creditClass Witness11.v11_3_2.msg.typ = CreditClass.none ∧
     (queueRoom (queueSize (Witness11.m11_3.dev.lane 5).portRxq) (Witness11.m11_3.dev.link 5).rxqPos ((Option.map (fun x => x.2) (Option.filter (fun x => x.1 == Witness11.m11_3.dev.now) (Witness11.m11_3.dev.link 5).rxqRead)).getD (max 1 (bitsOf (BitVec.toNat (Witness11.m11_3.dev.wordData (Witness11.m11_3.dev.physWord (queueWord (BitVec.toNat (Witness11.m11_3.dev.lane 5).portCol) (BitVec.toNat (Witness11.m11_3.dev.lane 5).portRxq) 0)))) 0 16))) Witness11.v11_3_2.msg.words = none) ∧
     (Witness11.m11_3.dev.baseBarred false (queueWord (BitVec.toNat (Witness11.m11_3.dev.lane 5).portCol) (BitVec.toNat (Witness11.m11_3.dev.lane 5).portRxq) 0) = false ∧ Witness11.m11_3.dev.wordCheck (Witness11.m11_3.dev.physWord (queueWord (BitVec.toNat (Witness11.m11_3.dev.lane 5).portCol) (BitVec.toNat (Witness11.m11_3.dev.lane 5).portRxq) 0)) = memOk) ∧
     (Witness11.m11_3.dev.link 5).rxWait = [Witness11.v11_3_2] ∧
     Witness11.m11_3.quiet = true) ∧
    (creditClass Witness11.v11_2_2.msg.typ ≠ CreditClass.none ∧
     (queueRoom (queueSize (Witness11.m11_2.dev.lane 5).portRxq) (Witness11.m11_2.dev.link 5).rxqPos ((Option.map (fun x => x.2) (Option.filter (fun x => x.1 == Witness11.m11_2.dev.now) (Witness11.m11_2.dev.link 5).rxqRead)).getD (max 1 (bitsOf (BitVec.toNat (Witness11.m11_2.dev.wordData (Witness11.m11_2.dev.physWord (queueWord (BitVec.toNat (Witness11.m11_2.dev.lane 5).portCol) (BitVec.toNat (Witness11.m11_2.dev.lane 5).portRxq) 0)))) 0 16))) Witness11.v11_2_2.msg.words = none) ∧
     (Witness11.m11_2.dev.baseBarred false (queueWord (BitVec.toNat (Witness11.m11_2.dev.lane 5).portCol) (BitVec.toNat (Witness11.m11_2.dev.lane 5).portRxq) 0) = false ∧ Witness11.m11_2.dev.wordCheck (Witness11.m11_2.dev.physWord (queueWord (BitVec.toNat (Witness11.m11_2.dev.lane 5).portCol) (BitVec.toNat (Witness11.m11_2.dev.lane 5).portRxq) 0)) = memOk) ∧
     (Witness11.m11_2.dev.link 5).rxWait = [Witness11.v11_2_2] ∧
     Witness11.m11_2.quiet = true) ∧
    (queueSize (Witness11.m11_1.dev.lane 5).portRxq < 2 ^ 16 ∧
     bitsOf (BitVec.toNat (Witness11.m11_1.dev.lane 5).portRxq) 0 11 * 8 + queueSize (Witness11.m11_1.dev.lane 5).portRxq ≤ 16384 ∧
     (1 ≤ ((Option.map (fun x => x.2) (Option.filter (fun x => x.1 == Witness11.m11_1.dev.now) (Witness11.m11_1.dev.link 5).rxqRead)).getD (max 1 (bitsOf (BitVec.toNat (Witness11.m11_1.dev.wordData (Witness11.m11_1.dev.physWord (queueWord (BitVec.toNat (Witness11.m11_1.dev.lane 5).portCol) (BitVec.toNat (Witness11.m11_1.dev.lane 5).portRxq) 0)))) 0 16)) : ℕ)) ∧
     (queueRoom (queueSize (Witness11.m11_1.dev.lane 5).portRxq) (Witness11.m11_1.dev.link 5).rxqPos ((Option.map (fun x => x.2) (Option.filter (fun x => x.1 == Witness11.m11_1.dev.now) (Witness11.m11_1.dev.link 5).rxqRead)).getD (max 1 (bitsOf (BitVec.toNat (Witness11.m11_1.dev.wordData (Witness11.m11_1.dev.physWord (queueWord (BitVec.toNat (Witness11.m11_1.dev.lane 5).portCol) (BitVec.toNat (Witness11.m11_1.dev.lane 5).portRxq) 0)))) 0 16))) Witness11.v11_1_2.msg.words = some (((Option.map (fun x => x.2) (Option.filter (fun x => x.1 == Witness11.m11_1.dev.now) (Witness11.m11_1.dev.link 5).rxqRead)).getD (max 1 (bitsOf (BitVec.toNat (Witness11.m11_1.dev.wordData (Witness11.m11_1.dev.physWord (queueWord (BitVec.toNat (Witness11.m11_1.dev.lane 5).portCol) (BitVec.toNat (Witness11.m11_1.dev.lane 5).portRxq) 0)))) 0 16)) : ℕ), false)) ∧
     (Witness11.m11_1.dev.baseBarred false (queueWord (BitVec.toNat (Witness11.m11_1.dev.lane 5).portCol) (BitVec.toNat (Witness11.m11_1.dev.lane 5).portRxq) 0) = false ∧ Witness11.m11_1.dev.wordCheck (Witness11.m11_1.dev.physWord (queueWord (BitVec.toNat (Witness11.m11_1.dev.lane 5).portCol) (BitVec.toNat (Witness11.m11_1.dev.lane 5).portRxq) 0)) = memOk) ∧
     (Witness11.m11_1.dev.link 5).rxWait = [Witness11.v11_1_2] ∧
     Witness11.m11_1.quiet = true) := by and_intros <;> decide +kernel

theorem test_wit_PlateCommandsAreAccepted :
    (More.stages.dev.pcmdMask ≠ 0 ∧
     More.stages.dev.runs configBase = true ∧
     More.stages.dev.reached (1) (configBase + Reg.PCMD.off) = true ∧
     More.stages.quiet = true) ∧
    ((More.stages.dev.plates.dataCmd = none ∧ More.stages.dev.reloadReads 3 = false) ∧
     More.stages.dev.runs configBase = true ∧
     More.stages.dev.reached (1) (configBase + Reg.PCMD.off) = true ∧
     More.stages.quiet = true) ∧
    ((∀ g ∈ maskGroups More.stages.dev.pcmdMask, More.stages.dev.inForce g 2 = false ∧ More.stages.dev.pslot g 2 ≠ slotLoading) ∧
     More.stages.dev.pcmdMask ≠ 0 ∧
     More.stages.dev.runs configBase = true ∧
     More.stages.dev.reached (1) (configBase + Reg.PCMD.off) = true ∧
     More.stages.quiet = true) ∧
    ((Witness11.m11_5.dev.targetOk Witness11.m11_5.dev.switchTarget = true ∧ ∀ g ∈ maskGroups Witness11.m11_5.dev.pcmdMask, (∀ x ∈ [2], Witness11.m11_5.dev.slotUsable g x = true) ∧ Witness11.m11_5.dev.plates.pending.look g = none ∧ Witness11.m11_5.dev.groupFaulted g = false ∧ Witness11.m11_5.dev.holdRefused g = false) ∧
     Witness11.m11_5.dev.pcmdMask ≠ 0 ∧
     Witness11.m11_5.dev.runs configBase = true ∧
     Witness11.m11_5.dev.reached (0) (configBase + Reg.PCMD.off) = true ∧
     Witness11.m11_5.quiet = true) ∧
    ((∀ g ∈ maskGroups More.stages.dev.pcmdMask, bitOf (More.stages.dev.stageValid 1) g = true ∧ More.stages.dev.pslot g 1 ≠ slotLoading ∧ More.stages.dev.pslot g 1 ≠ slotActive ∧ 1 ∉ (More.stages.dev.plates.pending.at g { }).list) ∧
     More.stages.dev.mapReleased (More.stages.dev.stagePlate 1) = true ∧
     More.stages.dev.stageSt 1 = stageReady ∧
     More.stages.dev.pcmdMask ≠ 0 ∧
     (More.stages.dev.plates.dataCmd = none ∧ More.stages.dev.reloadReads 1 = false) ∧
     More.stages.dev.runs configBase = true ∧
     More.stages.dev.reached (7) (configBase + Reg.PCMD.off) = true ∧
     More.stages.quiet = true) ∧
    (Witness11.m11_7.dev.fastFabric = false ∧
     (Witness11.m11_7.dev.mode = modeRoll ∨ Witness11.m11_7.dev.mode = modeSurge) ∧
     Witness11.m11_7.dev.cycleOk Witness11.m11_7.dev.cycleList (Witness11.m11_7.dev.fld configBase Reg.PCYCLE.K) = true ∧
     (Witness11.m11_7.dev.targetOk Witness11.m11_7.dev.switchTarget = true ∧ ∀ g ∈ maskGroups Witness11.m11_7.dev.pcmdMask, (∀ x ∈ Witness11.m11_7.dev.cycleList, Witness11.m11_7.dev.slotUsable g x = true) ∧ Witness11.m11_7.dev.plates.pending.look g = none ∧ Witness11.m11_7.dev.groupFaulted g = false ∧ Witness11.m11_7.dev.holdRefused g = false) ∧
     Witness11.m11_7.dev.pcmdMask ≠ 0 ∧
     Witness11.m11_7.dev.runs configBase = true ∧
     Witness11.m11_7.dev.reached (7) (configBase + Reg.PCMD.off) = true ∧
     Witness11.m11_7.quiet = true) ∧
    ((∀ g ∈ maskGroups Witness11.m11_8.dev.pcmdMask, bitOf (BitVec.toNat ((Witness11.m11_8.dev.dsRead32 clsConfig (BitVec.toNat (Witness11.m11_8.dev.reg (configBase + Reg.STAGE_SRC_LO.off)) / 4096 * 4096 + Witness11.m11_8.dev.fld configBase Reg.STAGE_SRC_HI.ADDR_HI * 4294967296)).2.2 : RowWord)) (16 + g) = true) ∧
     bitsOf (BitVec.toNat ((Witness11.m11_8.dev.dsRead32 clsConfig (BitVec.toNat (Witness11.m11_8.dev.reg (configBase + Reg.STAGE_SRC_LO.off)) / 4096 * 4096 + Witness11.m11_8.dev.fld configBase Reg.STAGE_SRC_HI.ADDR_HI * 4294967296)).2.2 : RowWord)) 0 8 = BitVec.toNat Witness11.v11_8_2 ∧
     Witness11.m11_8.dev.dsRead32 clsConfig (BitVec.toNat (Witness11.m11_8.dev.reg (configBase + Reg.STAGE_SRC_LO.off)) / 2 ^ 12 * 2 ^ 12 + Witness11.m11_8.dev.fld configBase Reg.STAGE_SRC_HI.ADDR_HI * 2 ^ 32) = (Witness11.m11_8.dev, dsOk, ((Witness11.m11_8.dev.dsRead32 clsConfig (BitVec.toNat (Witness11.m11_8.dev.reg (configBase + Reg.STAGE_SRC_LO.off)) / 4096 * 4096 + Witness11.m11_8.dev.fld configBase Reg.STAGE_SRC_HI.ADDR_HI * 4294967296)).2.2 : RowWord)) ∧
     Witness11.m11_8.dev.pcmdMask ≠ 0 ∧
     (Witness11.m11_8.dev.plates.dataCmd = none ∧ Witness11.m11_8.dev.reloadReads 0 = false) ∧
     Witness11.m11_8.dev.runs configBase = true ∧
     Witness11.m11_8.dev.reached (2) (configBase + Reg.PCMD.off) = true ∧
     Witness11.m11_8.quiet = true) := by and_intros <;> decide +kernel

theorem test_wit_PlateFillsAndCopiesEnd :
    (Witness12.m12_12.dev.plates.dataCmd = none ∧
     Witness12.m12_12.dev.reached (2) (configBase + Reg.PSTREAM_DATA.off) = true ∧
     Witness12.m12_12.quiet = true) ∧
    (fillingLp.dev.latched 11 = true ∧
     fillingLp.dev.latched 10 = true ∧
     fillingLp.dev.plates.dataCmd = some (DataCmd.fillLp (3) (2 ^ 15) 0) ∧
     fillingLp.quiet = true) ∧
    (Witness12.m12_12.dev.conflictStands 3 2 = false ∧
     Witness12.m12_12.dev.pslot 3 2 = slotFaulted ∧
     Witness12.m12_12.dev.runs configBase = true ∧
     Witness12.m12_12.dev.dataBusy = false ∧
     Witness12.v12_12_5.slot = 2 ∧
     groupOf Witness12.v12_12_5.column = 3 ∧
     Witness12.m12_12.dev.plates.reloads = [Witness12.v12_12_5] ∧
     Witness12.m12_12.quiet = true) ∧
    ((match streamLength (Witness12.m12_2.dev.plates.stream ++ [(305419896#32 : Word)]) with | some n => decide (n ≤ (Witness12.m12_2.dev.plates.stream ++ [(305419896#32 : Word)]).length) | none => false) = false ∧
     Witness12.m12_2.dev.plates.dataCmd = some (DataCmd.fillStream 1) ∧
     Witness12.m12_2.dev.reached (0) (configBase + Reg.PSTREAM_DATA.off) = true ∧
     Witness12.m12_2.quiet = true) ∧
    (Witness12.strS.dev.streamPlate (Witness12.strS.dev.plates.stream ++ [(2#32 : Word)]) = none ∧
     (match streamLength (Witness12.strS.dev.plates.stream ++ [(2#32 : Word)]) with | some n => decide (n ≤ (Witness12.strS.dev.plates.stream ++ [(2#32 : Word)]).length) | none => false) = true ∧
     Witness12.strS.dev.plates.dataCmd = some (DataCmd.fillStream ↑1) ∧
     Witness12.strS.dev.reached (↑0) (configBase + Reg.PSTREAM_DATA.off) = true ∧
     Witness12.strS.quiet = true) ∧
    (((More.staging true : State).dev.loadGroup (3) (1) (2) ((More.staging true : State).dev.stagePlate 1) []).2 = true ∧
     (∀ k ∈ groupColumns 3, (More.staging true : State).dev.fenced k = false ∧ ∀ w < 41472, (More.staging true : State).dev.plates.stageErr.look (stagePlace k (1) w) = none) ∧
     (More.staging true : State).dev.pslot 3 2 = slotLoading ∧
     (More.staging true : State).dev.stagingGranted (groupColumns 3) = true ∧
     (More.staging true : State).dev.plates.dataCmd = some (DataCmd.stage (1) (2) (2 ^ 3)) ∧
     (More.staging true : State).quiet = true) ∧
    (((More.staging false : State).dev.loadGroup (3) (1) (2) ((More.staging false : State).dev.stagePlate 1) []).2 = false ∧
     (∀ k ∈ groupColumns 3, (More.staging false : State).dev.fenced k = false ∧ ∀ w < 41472, (More.staging false : State).dev.plates.stageErr.look (stagePlace k (1) w) = none) ∧
     (More.staging false : State).dev.pslot 3 2 = slotLoading ∧
     (More.staging false : State).dev.stagingGranted (groupColumns 3) = true ∧
     (More.staging false : State).dev.plates.dataCmd = some (DataCmd.stage (1) (2) (2 ^ 3)) ∧
     (More.staging false : State).quiet = true) ∧
    (9 < 2 ^ 8 ∧
     0 < 2 ^ 16 ∧
     Witness12.strS.dev.streamPlate (Witness12.strS.dev.plates.stream ++ [(0#32 : Word)]) = some (9, 0, ([] : List ((ℕ × ℕ) × List RowWord))) ∧
     Witness12.strS.dev.stageRowsBad ↑1 = false ∧
     (match streamLength (Witness12.strS.dev.plates.stream ++ [(0#32 : Word)]) with | some n => decide (n ≤ (Witness12.strS.dev.plates.stream ++ [(0#32 : Word)]).length) | none => false) = true ∧
     Witness12.strS.dev.plates.dataCmd = some (DataCmd.fillStream ↑1) ∧
     Witness12.strS.dev.reached (4) (configBase + Reg.PSTREAM_DATA.off) = true ∧
     Witness12.strS.quiet = true) ∧
    (((More.reloads true : State).dev.loadColumn (↑255) (↑1) (↑2) ((More.reloads true : State).dev.stagePlate ↑1) { }).2 = true ∧
     ((More.reloads true : State).dev.fenced ↑255 = false ∧ ∀ w < 41472, (More.reloads true : State).dev.plates.stageErr.look (stagePlace (↑255) (↑1) w) = none) ∧
     (More.reloads true : State).dev.plates.reloads = [] ∧
     (More.reloads true : State).dev.conflictStands ↑15 ↑2 = false ∧
     (More.reloads true : State).dev.pslot ↑15 ↑2 = slotFaulted ∧
     (More.reloads true : State).dev.stagingGranted [↑255] = true ∧
     groupOf ↑255 = ↑15 ∧
     (More.reloads true : State).dev.plates.dataCmd = some (DataCmd.reload ↑255 ↑2 ↑1 []) ∧
     (More.reloads true : State).quiet = true) ∧
    (((More.reloads false : State).dev.loadColumn (↑255) (↑1) (↑2) ((More.reloads false : State).dev.stagePlate ↑1) { }).2 = false ∧
     ((More.reloads false : State).dev.fenced ↑255 = false ∧ ∀ w < 41472, (More.reloads false : State).dev.plates.stageErr.look (stagePlace (↑255) (↑1) w) = none) ∧
     (More.reloads false : State).dev.plates.reloads = [] ∧
     (More.reloads false : State).dev.conflictStands ↑15 ↑2 = false ∧
     (More.reloads false : State).dev.pslot ↑15 ↑2 = slotFaulted ∧
     (More.reloads false : State).dev.stagingGranted [↑255] = true ∧
     groupOf ↑255 = ↑15 ∧
     (More.reloads false : State).dev.plates.dataCmd = some (DataCmd.reload ↑255 ↑2 ↑1 []) ∧
     (More.reloads false : State).quiet = true) := by
  and_intros
  all_goals first | exact by intro k hk; exact ⟨by revert k; decide +kernel, fun w _ => rfl⟩ | exact fun w _ => rfl | decide +kernel

theorem test_wit_PlatesInService :
    ((∀ x ∈ ([] : List (Fin 1024)), 7 < x) ∧
     More.inService.dev.pslot ↑15 0 = slotActive ∧
     More.inService.dev.slotNow ↑15 = some 0 ∧
     More.inService.dev.usersIn 255 = [] ∧
     groupOf 255 = ↑15 ∧
     More.inService.quiet = true) ∧
    (More.cycles.dev.fabric.cycle.num 15 < More.cycles.dev.delivered 15 ∧
     1 ≤ ({ cycle := true, target := 5, list := [1, 2], k := 3 } : PendSwitch).k ∧
     More.cycles.dev.plates.cycling.look 15 = some ({ cycle := true, target := 5, list := [1, 2], k := 3 } : PendSwitch) ∧
     More.cycles.dev.plates.logic.mem 15 = true ∧
     More.cycles.quiet = true) ∧
    (Witness12.m12_8.dev.switchBarred (15) ({ cycle := false, target := 0, list := [3], k := 1 } : PendSwitch) = true ∧
     Witness12.m12_8.dev.groupTicks 15 = true ∧
     Witness12.m12_8.dev.fabric.cycle.num 15 = 0 ∧
     ({ cycle := false, target := 0, list := [3], k := 1 } : PendSwitch).target = Witness12.m12_8.dev.now ∧
     Witness12.m12_8.dev.plates.pending.look 15 = some ({ cycle := false, target := 0, list := [3], k := 1 } : PendSwitch) ∧
     Witness12.m12_8.quiet = true) ∧
    ((∀ x ∈ List.filter (fun x => x.1 / 20736 == bit01 true && inSlot (5) (x.1 / 8 % 2592)) (arrivals Witness12.m12_9.dev.plates.plateErr (plateWordOf 255 3) (platePlace 255 3) { }), errStatus x.2 = memCorrected) ∧
     ((Witness12.m12_9.dev.ownersBy 255 3 fun x x_1 => x_1 == 3) = []) ∧
     Witness12.m12_9.dev.fenced 255 = false ∧
     Witness12.m12_9.dev.columnStaging 255 = false ∧
     Witness12.m12_9.dev.holdsToken (255) Activity.plateScrub = true ∧
     Witness12.m12_9.dev.plateScrubOn = true ∧
     Witness12.m12_9.dev.usersIn 255 = [] ∧
     groupOf 255 = 15 ∧
     Witness12.m12_9.quiet = true) ∧
    ((∀ x ∈ ({ cycle := false, target := 0, list := [1], k := 1 } : PendSwitch).list, x < 4) ∧
     ({ cycle := false, target := 0, list := [1], k := 1 } : PendSwitch).list.headD 4 < 4 ∧
     Witness12.m12_7.dev.forceList 15 = [0] ∧
     Witness12.m12_7.dev.fastFabric = false ∧
     Witness12.m12_7.dev.switchIdle (15) ({ cycle := false, target := 0, list := [1], k := 1 } : PendSwitch) = false ∧
     Witness12.m12_7.dev.switchBarred (15) ({ cycle := false, target := 0, list := [1], k := 1 } : PendSwitch) = false ∧
     Witness12.m12_7.dev.groupTicks 15 = true ∧
     Witness12.m12_7.dev.fabric.cycle.num 15 = 0 ∧
     ({ cycle := false, target := 0, list := [1], k := 1 } : PendSwitch).target = Witness12.m12_7.dev.now ∧
     Witness12.m12_7.dev.plates.pending.look 15 = some ({ cycle := false, target := 0, list := [1], k := 1 } : PendSwitch) ∧
     Witness12.m12_7.quiet = true) ∧
    (cycles.quiet = true ∧
     cycles.dev.plates.logic.mem 15 = true ∧
     cycles.dev.plates.cycling.look 15 = some { list := [1, 2], target := 5, cycle := true, k := 3 } ∧
     cycles.dev.fabric.cycle.num 15 < cycles.dev.delivered 15) := by and_intros <;> decide +kernel

theorem struck_acts (k : Nat) : struckTwice.dev.frameActs k = 0 := by
  have h : struckTwice.dev.plates.plateErr = ⟨[(platePlace 255 1 (20736 + 8 * 5 + 3), 3#266 <<< 256)]⟩ := rfl
  have g : struckTwice.dev.plates.plateFrames = {} := rfl
  unfold Dev.frameActs
  rw [h, g]
  by_cases e : platePlace 255 1 (20736 + 8 * 5 + 3) = k
  · subst e; decide +kernel
  · have : (⟨[(platePlace 255 1 (20736 + 8 * 5 + 3), 3#266 <<< 256)]⟩ : SMap (BitVec 266)).at k 0 = 0 := by
      show (lookItem k [_]).getD 0 = 0
      unfold lookItem; rw [if_neg (by simpa [eq_comm] using e)]; rfl
    rw [this]; rfl
theorem struck_owners : struckTwice.dev.ownersBy 255 1 (fun _ x => x == 3) = [] := by
  have h : struckTwice.dev.plates.ownUpset = {} := rfl
  have z (k : Nat) : (lookItem k ([] : List (Nat × Nat))).getD 0 = 0 := rfl
  simp [Dev.ownersBy, Dev.owner, Dev.tileBits, struck_acts, h, bit01, SMap.num, SMap.at, SMap.look, z]
theorem test_wit_PlatesInService_uncorrectable :
    struckTwice.quiet = true ∧ groupOf 255 = 15 ∧ struckTwice.dev.plateScrubOn = true ∧ struckTwice.dev.holdsToken 255 .plateScrub = true ∧ struckTwice.dev.columnStaging 255 = false ∧
    struckTwice.dev.fenced 255 = false ∧ struckTwice.dev.ownersBy 255 1 (fun _ x => x == 3) = [] ∧
    ((arrivals struckTwice.dev.plates.plateErr (plateWordOf 255 1) (platePlace 255 1) {}).filter fun x =>
      x.1 / 20736 == bit01 true && inSlot 5 (x.1 / 8 % 2592)) = [(20736 + 8 * 5 + 3, 3#266 <<< 256)] ∧
    errStatus (3#266 <<< 256) = memUncorr ∧ struckTwice.dev.pslot 15 1 = slotValid ∧
    struckTwice.dev.fld configBase Reg.PLATE_CTRL.AUTO_RECOVER = 0 ∧ struckTwice.dev.reloading 15 1 = false ∧
    struckTwice.dev.fld configBase Reg.DED_LOG.VALID = 0 := by
  and_intros <;> first | exact struck_owners | decide +kernel

theorem test_wit_RowPortsReadWriteAndTally :
    (More.rowHeld.dev.portLive [↑255 * 2 + bit01 false] portRow = false ∧
     More.rowHeld.quiet = true) ∧
    (More.rowS.dev.rowBar (↑255) (0) (wordIndex (↑255) (0) (↑2047) 0) false { } = none ∧
     ((More.rowS.dev.asks (↑255) (0) (if true = true then Asker.upper else Asker.lower) ({ } : BankCycle)).2 = true) ∧
     More.rowS.dev.portLive [↑255 * 2 + bit01 true] portRow = true ∧
     More.rowS.quiet = true) ∧
    (More.rowS.dev.rpHold (255) (7) ({ hold := true } : BankCycle) = true ∧
     (7 = 7 → More.rowS.dev.mem.twin.mem 255 = false) ∧
     ({ hold := true } : BankCycle).busy = false ∧
     More.rowS.quiet = true) ∧
    (More.rowS.dev.rpHold (↑255) (0) ({ } : BankCycle) = false ∧
     ({ } : BankCycle).base = [] ∧
     (0 = 7 → More.rowS.dev.mem.twin.mem ↑255 = false) ∧
     ({ } : BankCycle).busy = false ∧
     More.rowS.quiet = true) ∧
    (((More.rowS.dev.asks (↑255) (0) (if true = true then Asker.upper else Asker.lower) ({ } : BankCycle)).2 = true) ∧
     More.rowS.dev.portLive [↑255 * 2 + bit01 true] portRow = true ∧
     More.rowS.quiet = true) ∧
    (((More.rowS.dev.asks (255) (7) (if false = true then Asker.upper else Asker.lower) ({ hold := true } : BankCycle)).2 = false) ∧
     More.rowS.dev.portLive [255 * 2 + bit01 false] portRow = true ∧
     More.rowS.quiet = true) ∧
    (More.rowS.dev.rowBar (1) (7) (wordIndex (1) (7) (↑2047) 0) false { } = some memRefused ∧
     ((More.rowS.dev.asks (1) (7) (if true = true then Asker.upper else Asker.lower) ({ hold := true } : BankCycle)).2 = true) ∧
     More.rowS.dev.portLive [1 * 2 + bit01 true] portRow = true ∧
     More.rowS.quiet = true) ∧
    (([] : List (ℕ × ℕ)) = [] ∧
     (∀ i < 8, More.rowS.dev.wordCheck (More.rowS.dev.physWord (wordIndex (↑255) (0) (↑2047) 0 + i)) = memOk) ∧
     More.rowS.dev.rowBar (↑255) (0) (wordIndex (↑255) (0) (↑2047) 0) false { } = none ∧
     ((More.rowS.dev.asks (↑255) (0) (if true = true then Asker.upper else Asker.lower) ({ } : BankCycle)).2 = true) ∧
     More.rowS.dev.portLive [↑255 * 2 + bit01 true] portRow = true ∧
     More.rowS.quiet = true) ∧
    (More.rowS.dev.promoted (↑255) ({ user := BaseUser.delivery, bank := 7 } : BaseAsk) = true ∧
     ({ user := BaseUser.delivery, bank := 7 } : BaseAsk).bank = ↑7 ∧
     ({ base := [{ user := BaseUser.delivery, bank := 7 }] } : BankCycle).base = [({ user := BaseUser.delivery, bank := 7 } : BaseAsk)] ∧
     (↑7 = 7 → More.rowS.dev.mem.twin.mem ↑255 = false) ∧
     ({ base := [{ user := BaseUser.delivery, bank := 7 }] } : BankCycle).busy = false ∧
     More.rowS.quiet = true) ∧
    ((tallyAgrees true false (BitVec.toNat (rowOf (List.map (fun i => More.rowS.dev.wordData (More.rowS.dev.physWord (wordIndex (255) (0) (7) 0 + i))) (List.range 8)))) (BitVec.toNat (rowOf (List.map (fun i => Witness13.m13_2.dev.wordData (Witness13.m13_2.dev.physWord (wordIndex 255 1 2047 0 + i))) (List.range 8)) : Row)) (tallySums true false (BitVec.toNat (rowOf (List.map (fun i => More.rowS.dev.wordData (More.rowS.dev.physWord (wordIndex (255) (0) (7) 0 + i))) (List.range 8)))) (BitVec.toNat (rowOf (List.map (fun i => Witness13.m13_2.dev.wordData (Witness13.m13_2.dev.physWord (wordIndex 255 1 2047 0 + i))) (List.range 8)) : Row)) Witness13.v13_2_11) = false) ∧
     (∀ i < 8, More.rowS.dev.wordCheck (More.rowS.dev.physWord (wordIndex (255) (0) (7) 0 + i)) = memOk) ∧
     More.rowS.dev.rowBar (255) (0) (wordIndex (255) (0) (7) 0) false { } = none ∧
     ((More.rowS.dev.asks (255) (0) (if false = true then Asker.upper else Asker.lower) ({ base := [{ user := BaseUser.delivery, bank := 7 }] } : BankCycle)).2 = true) ∧
     More.rowS.dev.portLive [255 * 2 + bit01 false] portRow = true ∧
     More.rowS.quiet = true) := by and_intros <;> decide +kernel

theorem test_wit_WordAndBasePorts :
    (Witness13.m13_4.dev.twinBarred (255) (wordIndex (255) 7 7 0) = false ∧
     Witness13.m13_4.dev.portLive [255 * 2 + bit01 true] portTwin = true ∧
     Witness13.m13_4.quiet = true) ∧
    (Witness13.m13_4.dev.mem.twin.mem 7 = false ∧
     Witness13.m13_4.dev.portLive [7 * 2 + bit01 true] portTwin = true ∧
     Witness13.m13_4.quiet = true) ∧
    (({ } : BankCycle).upper = false ∧
     ({ } : BankCycle).lower = false ∧
     ({ } : BankCycle).base = [] ∧
     ({ } : BankCycle).busy = false ∧
     Witness13.m13_4.quiet = true) ∧
    (true = true ∧
     Witness13.m13_4.dev.twinBarred (255) (wordIndex (255) 7 7 0) = false ∧
     Witness13.m13_4.dev.portLive [255 * 2 + bit01 true] portTwin = true ∧
     Witness13.m13_4.quiet = true) ∧
    (false = false ∧
     Witness13.m13_4.dev.twinBarred (255) (wordIndex (255) 7 3 7) = false ∧
     Witness13.m13_4.dev.portLive [255 * 2 + bit01 false] portTwin = true ∧
     Witness13.m13_4.quiet = true) ∧
    (Witness13.m13_4.dev.baseBarred false (wordIndex 7 3 2 2) = true ∧
     (Witness13.m13_4.dev.asks (7) (3) (Asker.base { user := BaseUser.delivery, waited := 1025 }) ({ } : BankCycle)).2 = true ∧
     Witness13.m13_4.quiet = true) ∧
    (Witness13.m13_4.dev.baseBarred false (wordIndex 255 0 3 7) = false ∧
     (Witness13.m13_4.dev.asks (255) (0) (Asker.base { user := BaseUser.fill, waited := 1025 }) ({ } : BankCycle)).2 = true ∧
     Witness13.m13_4.quiet = true) ∧
    (Witness13.m13_4.dev.wordCheck (Witness13.m13_4.dev.physWord (wordIndex 255 0 3 7)) ≠ memUncorr ∧
     Witness13.m13_4.dev.baseBarred false (wordIndex 255 0 3 7) = false ∧
     (Witness13.m13_4.dev.asks (255) (0) (Asker.base { user := BaseUser.fill, waited := 1025 }) ({ } : BankCycle)).2 = true ∧
     Witness13.m13_4.quiet = true) ∧
    ((8#32 : BitVec 32).toNat ≠ fullMask ∧
     (8#32 : BitVec 32) ≠ 0 ∧
     Witness13.m13_5.dev.wordCheck (Witness13.m13_5.dev.physWord (wordIndex 255 7 2047 3)) = memUncorr ∧
     Witness13.m13_5.dev.baseBarred false (wordIndex 255 7 2047 3) = false ∧
     (Witness13.m13_5.dev.asks (255) (7) (Asker.base { user := BaseUser.master, waited := 0 }) ({ } : BankCycle)).2 = true ∧
     Witness13.m13_5.quiet = true) := by and_intros <;> decide +kernel

theorem test_wit_BanksMarchesAndClockVias :
    ((¬∃ x, (More.runPass 0 5000 : State).dev.mem.scrub.look 255 = some x ∧ x.1 + 2 * (More.runPass 0 5000 : State).dev.scrubPeriod 255 ≤ (More.runPass 0 5000 : State).dev.tick) ∧
     (More.runPass 0 5000 : State).dev.mem.scrub.has 255 = true ∧
     (More.runPass 0 5000 : State).quiet = true) ∧
    (More.restarts.quiet = true) ∧
    (More.restarts.dev.fld (columnBase 0 255) Reg.VLINK_STATE.CLOCK = 2 ∧
     More.restarts.dev.stack.fence.num 255 = 1 ∧
     More.restarts.quiet = true) ∧
    (More.marching.dev.marchRests 255 = true ∧
     More.marching.dev.mem.march.look 255 = some ((129#8 : BitVec 8).toNat, bit01 false) ∧
     More.marching.quiet = true) ∧
    (More.restarts.dev.runs (columnBase 1 255) = true ∧
     More.restarts.dev.reached (7) (columnBase 1 255 + Reg.MARCH_CTRL.GO.off) = true ∧
     More.restarts.quiet = true) ∧
    ((∀ x < 256, quadrantOf x = 3 → More.restarts.dev.fenced x = false → More.restarts.dev.fld (columnBase 1 x) Reg.MEM_STATUS.INIT_DONE = 0) ∧
     More.restarts.dev.domainOn (26 + 3) = true ∧
     More.restarts.quiet = true) ∧
    ((Witness13.m13_7.dev.asks (wordColumn (5 : ℕ)) (wordBank (5 : ℕ) % 8) (Asker.slow SlowUser.writeback) ({ } : BankCycle)).2 = true ∧
     Witness13.m13_7.dev.mem.corr.look (wordIndex 255 7 2047 0 : ℕ) = some (5 : ℕ) ∧
     Witness13.m13_7.quiet = true) ∧
    ((∃ x, (More.runPass 0 50000 : State).dev.mem.scrub.look 255 = some x ∧ x.1 + 2 * (More.runPass 0 50000 : State).dev.scrubPeriod 255 ≤ (More.runPass 0 50000 : State).dev.tick) ∧
     (More.runPass 0 50000 : State).dev.scrubs 255 = true ∧
     (More.runPass 0 50000 : State).quiet = true) ∧
    (((More.marching.dev.sparesUsed (255 * 8 + ↑7) false).length < if false = true then 8 else 12) ∧
     bitOf (129#8 : BitVec 8).toNat ↑7 = true ∧
     More.marching.dev.marchRests 255 = true ∧
     More.marching.dev.mem.march.look 255 = some ((129#8 : BitVec 8).toNat, bit01 false) ∧
     More.marching.quiet = true) ∧
    (Witness13.m13_10.dev.mem.march.has 255 = false ∧
     (Witness13.m13_10.dev.ust (columnBase 1 255) = UState.stopped ∨ Witness13.m13_10.dev.ust (columnBase 1 255) = UState.isolated) ∧
     Witness13.m13_10.dev.reached (2) (columnBase 1 255 + Reg.MARCH_CTRL.GO.off) = true ∧
     Witness13.m13_10.quiet = true) ∧
    ((∀ i < 8, Witness13.m13_9.dev.wordCheck (Witness13.m13_9.dev.physWord (wordIndex (255) (7) (1025) i)) = memOk) ∧
     Witness13.m13_9.dev.bankDead (255 * 8 + 7) = false ∧
     (Witness13.m13_9.dev.asks (255) (7) (Asker.slow SlowUser.scrub) ({ } : BankCycle)).2 = true ∧
     Witness13.m13_9.dev.holdsToken (255) Activity.memScrub = true ∧
     Witness13.m13_9.dev.scrubs 255 = true ∧
     Witness13.m13_9.quiet = true) ∧
    (0 ≠ 3 ∧
     (∀ u < 4, ↑0 < u → bitOf (More.marching.dev.fld (columnBase 0 ↑255) Reg.CLK_VIA.FAILED) u = false) ∧
     More.marching.dev.fld (columnBase 0 ↑255) Reg.CLK_VIA.ACTIVE = ↑0 ∧
     More.marching.dev.fld (columnBase 0 ↑255) Reg.VLINK_STATE.CLOCK ≠ 3 ∧
     More.marching.dev.ust (columnBase 0 ↑255) ≠ UState.off ∧
     More.marching.dev.strike.columns.contains ↑255 = false ∧
     More.marching.dev.usersIn ↑255 = [] ∧
     More.marching.quiet = true) ∧
    (((More.wornRow [] : State).dev.sparesUsed (255 * 8 + 7) false).length < 12 ∧
     ((More.wornRow [] : State).dev.asks (255) (7) (Asker.slow SlowUser.remap) ({ } : BankCycle)).2 = true ∧
     ((More.wornRow [] : State).dev.fld (columnBase 1 255) Reg.ROW_THRESH.THRESH ≤ (Option.map (fun x => x.2) (List.find? (fun e => e.1 == ↑2047) ((More.wornRow [] : State).dev.mem.tracked.at (255 * 8 + 7) []))).getD 0) ∧
     (More.wornRow [] : State).dev.fld (columnBase 1 255) Reg.ROW_THRESH.THRESH ≠ 0 ∧
     (More.wornRow [] : State).dev.fld (columnBase 1 255) Reg.MEM_CTRL.ROW_REPAIR_EN = 1 ∧
     (More.wornRow [] : State).quiet = true) ∧
    (12 ≤ ((More.wornRow (List.range 12) : State).dev.sparesUsed (255 * 8 + ↑7) false).length ∧
     ((More.wornRow (List.range 12) : State).dev.asks (255) (↑7) (Asker.slow SlowUser.remap) ({ } : BankCycle)).2 = true ∧
     ((More.wornRow (List.range 12) : State).dev.fld (columnBase 1 255) Reg.ROW_THRESH.THRESH ≤ (Option.map (fun x => x.2) (List.find? (fun e => e.1 == 2047) ((More.wornRow (List.range 12) : State).dev.mem.tracked.at (255 * 8 + ↑7) []))).getD 0) ∧
     (More.wornRow (List.range 12) : State).dev.fld (columnBase 1 255) Reg.ROW_THRESH.THRESH ≠ 0 ∧
     (More.wornRow (List.range 12) : State).dev.fld (columnBase 1 255) Reg.MEM_CTRL.ROW_REPAIR_EN = 1 ∧
     (More.wornRow (List.range 12) : State).quiet = true) := by and_intros <;> decide +kernel

theorem test_wit_SlotsEnterRings :
    ((Witness14.m14_3.dev.engine 15).fifo.length ≤ Witness14.m14_3.dev.resumeAt 15 ∧
     (Witness14.m14_3.dev.engine 15).gap = GapState.opened ∧
     Witness14.m14_3.quiet = true) ∧
    ((More.at35_1.dev.desc (ringId ↑15 1)).state = RingState.closed ∧
     More.at35_1.dev.runs (ringBase ↑15) = true ∧
     More.at35_1.dev.kryup.warm = false ∧
     More.at35_1.dev.portLive [(groupColumns (9 / 2)).headD 0 * 2, (groupColumns (9 / 2)).headD 0 * 2 + 1] (portPush + 9 % 2) = true ∧
     More.at35_1.quiet = true) ∧
    ((More.at35_2.dev.engine 15).fifo.length < 4096 ∧
     (More.at35_2.dev.desc (ringId 15 ↑5)).state = RingState.opened ∧
     More.at35_2.dev.runs (ringBase 15) = true ∧
     More.at35_2.dev.kryup.warm = false ∧
     More.at35_2.dev.portLive [(groupColumns (1 / 2)).headD 0 * 2, (groupColumns (1 / 2)).headD 0 * 2 + 1] (portPush + 1 % 2) = true ∧
     More.at35_2.quiet = true) ∧
    ((Witness14.m14_2.dev.engine 15).record.count = 0 ∧
     (Witness14.m14_2.dev.engine 15).gap = GapState.closed ∧
     (Witness14.m14_2.dev.engine 15).fifo.length = 4096 ∧
     (Witness14.m14_2.dev.desc (ringId 15 16383)).state = RingState.opened ∧
     Witness14.m14_2.dev.runs (ringBase 15) = true ∧
     Witness14.m14_2.dev.kryup.warm = false ∧
     Witness14.m14_2.dev.portLive [(groupColumns (1 / 2)).headD 0 * 2, (groupColumns (1 / 2)).headD 0 * 2 + 1] (portPush + 1 % 2) = true ∧
     Witness14.m14_2.quiet = true) ∧
    ((Witness14.m14_5.dev.engine 15).upset = { } ∧
     (((Witness14.m14_5.dev.ringsOf 15).any fun i => (Witness14.m14_5.dev.desc (ringId (15) i)).state == RingState.dead) = false) ∧
     (Witness14.m14_5.dev.desc (ringId 15 16383)).occ < (Witness14.m14_5.dev.desc (ringId 15 16383)).cap ∧
     Witness14.m14_5.dev.baseBarred false ((Witness14.m14_5.dev.desc (ringId 15 16383)).slotAddr (Witness14.m14_5.dev.desc (ringId 15 16383)).wr / 32) = false ∧
     (Witness14.m14_5.dev.desc (ringId 15 16383)).slotAddr (Witness14.m14_5.dev.desc (ringId 15 16383)).wr < 2 ^ 30 ∧
     (Witness14.m14_5.dev.desc (ringId 15 16383)).base % 32 = 0 ∧
     (Witness14.m14_5.dev.desc (ringId 15 16383)).state = RingState.opened ∧
     (Witness14.m14_5.dev.engine 15).flushing = false ∧
     (Witness14.m14_5.dev.engine 15).writing.rings = [16383] ∧
     Witness14.m14_5.dev.ringWorks 15 = true ∧
     (Witness14.m14_5.dev.engine 15).gap = GapState.writing ∧
     Witness14.m14_5.quiet = true) ∧
    ((More.at35_2.dev.engine 15).upset = { } ∧
     (((More.at35_2.dev.ringsOf 15).any fun i => (More.at35_2.dev.desc (ringId (15) i)).state == RingState.dead) = false) ∧
     More.at35_2.dev.baseBarred false ((More.at35_2.dev.desc (ringId 15 ↑5)).slotAddr (More.at35_2.dev.desc (ringId 15 ↑5)).wr / 32) = false ∧
     (More.at35_2.dev.desc (ringId 15 ↑5)).slotAddr (More.at35_2.dev.desc (ringId 15 ↑5)).wr < 2 ^ 30 ∧
     (More.at35_2.dev.desc (ringId 15 ↑5)).base % 32 = 0 ∧
     (More.at35_2.dev.desc (ringId 15 ↑5)).age < 2 ^ 32 ∧
     (More.at35_2.dev.desc (ringId 15 ↑5)).wr < 2 ^ 32 ∧
     (More.at35_2.dev.desc (ringId 15 ↑5)).state = RingState.opened ∧
     (More.at35_2.dev.engine 15).flushing = false ∧
     (More.at35_2.dev.engine 15).fifo = { ring := ↑5, word := slotWord (70001#48 : BitVec 48).toNat true false false false (BitVec.toNat (7#8 : Byte)) (9#192 : BitVec 192).toNat } :: ([] : List RingSlot) ∧
     More.at35_2.dev.ringWorks 15 = true ∧
     More.at35_2.quiet = true) ∧
    ((ringS ringD { fifo := [{ ring := 5, word := pushed }, {}] }).quiet = true ∧
     (ringS ringD { fifo := [{ ring := 5, word := pushed }, {}] }).dev.ringWorks 15 = true ∧
     ((ringS ringD { fifo := [{ ring := 5, word := pushed }, {}] }).dev.engine 15).fifo = { ring := 5, word := slotWord (70001#48).toNat true false false false (7#8).toNat (9#192).toNat } :: [{}] ∧
     ((ringS ringD { fifo := [{ ring := 5, word := pushed }, {}] }).dev.engine 15).flushing = false ∧
     ringD.state = .opened ∧
     ringD.wr < 2 ^ 32 ∧
     ringD.age < 2 ^ 32 ∧
     ringD.base % 32 = 0 ∧
     ringD.slotAddr ringD.wr < 2 ^ 30 ∧
     (ringS ringD { fifo := [{ ring := 5, word := pushed }, {}] }).dev.baseBarred false (ringD.slotAddr ringD.wr / 32) = false ∧
     (((ringS ringD { fifo := [{ ring := 5, word := pushed }, {}] }).dev.ringsOf 15).any (fun i => ((ringS ringD { fifo := [{ ring := 5, word := pushed }, {}] }).dev.desc (ringId 15 i)).state == .dead) = false) ∧
     ((ringS ringD { fifo := [{ ring := 5, word := pushed }, {}] }).dev.engine 15).upset = {} ∧
     (ringS ringD { fifo := [{ ring := 5, word := pushed }, {}] }).dev.desc (ringId 15 5) = ringD) := by and_intros <;> decide +kernel

theorem test_wit_FullRingLosesItsOldestSlot :
    (Witness25.m25_12.dev.engine ↑15).upset = { } ∧
     (slotEnd (ringInDie ((Witness25.m25_12.dev.desc (ringId ↑15 ↑16383)).slotAddr (Witness25.m25_12.dev.desc (ringId ↑15 ↑16383)).age)) (if ringInDie ((Witness25.m25_12.dev.desc (ringId ↑15 ↑16383)).slotAddr (Witness25.m25_12.dev.desc (ringId ↑15 ↑16383)).age) = true then Witness25.m25_12.dev.baseWrite BaseUser.ring (dsOffset ((Witness25.m25_12.dev.desc (ringId ↑15 ↑16383)).slotAddr (Witness25.m25_12.dev.desc (ringId ↑15 ↑16383)).age) / 32) fullMask Witness25.wd else Witness25.m25_12.dev.dsWrite32 clsRing ((Witness25.m25_12.dev.desc (ringId ↑15 ↑16383)).slotAddr (Witness25.m25_12.dev.desc (ringId ↑15 ↑16383)).age) Witness25.wd).2 = some true) ∧
     (Witness25.m25_12.dev.desc (ringId ↑15 ↑16383)).occ = (Witness25.m25_12.dev.desc (ringId ↑15 ↑16383)).cap ∧
     (Witness25.m25_12.dev.desc (ringId ↑15 ↑16383)).base % 32 = 0 ∧
     (Witness25.m25_12.dev.desc (ringId ↑15 ↑16383)).age < 2 ^ 32 ∧
     (Witness25.m25_12.dev.desc (ringId ↑15 ↑16383)).wr < 2 ^ 32 ∧
     (Witness25.m25_12.dev.desc (ringId ↑15 ↑16383)).logCap ≤ 16 ∧
     (Witness25.m25_12.dev.desc (ringId ↑15 ↑16383)).state = RingState.opened ∧
     (((Witness25.m25_12.dev.ringsOf ↑15).any fun i => (Witness25.m25_12.dev.desc (ringId (↑15) i)).state == RingState.dead) = false) ∧
     (Witness25.m25_12.dev.engine ↑15).flushing = false ∧
     (Witness25.m25_12.dev.engine ↑15).fifo = { ring := ↑16383, word := Witness25.wd } :: ([] : List RingSlot) ∧
     Witness25.m25_12.dev.latched 11 = true ∧
     Witness25.m25_12.dev.latched 10 = true ∧
     Witness25.m25_12.dev.ringWorks ↑15 = true ∧
     Witness25.m25_12.quiet = true := by and_intros <;> decide +kernel

theorem test_wit_RingsOpenAgeAndClose :
    ((More.at37_5.dev.engine ↑15).upset = { } ∧
     (More.at37_5.dev.engine ↑15).flushing = true ∧
     More.at37_5.quiet = true) ∧
    (More.at37_5.dev.ust (ringBase ↑15) ≠ UState.starting ∧
     (More.at37_5.dev.engine ↑15).frozen.isSome = true ∧
     More.at37_5.quiet = true) ∧
    ((More.at37_6.dev.engine ↑15).upset = { } ∧
     More.at37_6.dev.reached (1) (ringBase ↑15 + Reg.RING_CMD.GO.off) = true ∧
     More.at37_6.quiet = true) ∧
    ((More.at37_4.dev.engine ↑15).upset = { } ∧
     More.at37_4.dev.nextOpen (↑15) (More.at37_4.dev.engine ↑15).sweepAt = some ↑5 ∧
     More.at37_4.dev.ringWorks ↑15 = true ∧
     More.at37_4.quiet = true) ∧
    ((More.at37_4.dev.desc (ringId ↑15 ↑5)).state = RingState.opened ∧
     (More.at37_4.dev.engine ↑15).frozen = none ∧
     (More.at37_4.dev.engine ↑15).upset = { } ∧
     More.at37_4.dev.reached (↑0) (ringBase ↑15 + Reg.RING_CMD.GO.off) = true ∧
     More.at37_4.quiet = true) ∧
    ((More.at37_4.dev.desc (ringId ↑15 ↑5)).state = RingState.opened ∧
     More.at37_4.dev.fld (ringBase ↑15) Reg.RING_CMD.RING = ↑5 ∧
     (More.at37_4.dev.engine ↑15).upset = { } ∧
     More.at37_4.dev.reached (↑0) (ringBase ↑15 + Reg.RING_CMD.GO.off) = true ∧
     More.at37_4.quiet = true) ∧
    ((More.at37_1.dev.engine ↑15).upset.items = [(nodeKey 0 ↑5, 1)] ∧
     (More.at37_1.dev.engine ↑15).stale.has (nodeKey 0 ↑5) = false ∧
     (More.at37_1.dev.engine ↑15).frozen = none ∧
     (More.at37_1.dev.desc (ringId ↑15 ↑5)).occ ≠ 0 ∧
     (More.at37_1.dev.desc (ringId ↑15 ↑5)).state = RingState.opened ∧
     More.at37_1.dev.reached (↑0) (ringBase ↑15 + Reg.RING_CMD.GO.off) = true ∧
     More.at37_1.quiet = true) ∧
    ((More.at37_2.dev.engine ↑15).upset.items = [(nodeKey 0 ↑5, 2)] ∧
     (More.at37_2.dev.engine ↑15).stale.has (nodeKey 0 ↑5) = false ∧
     (More.at37_2.dev.engine ↑15).frozen = none ∧
     (More.at37_2.dev.desc (ringId ↑15 ↑5)).occ ≠ 0 ∧
     (More.at37_2.dev.desc (ringId ↑15 ↑5)).state = RingState.opened ∧
     More.at37_2.dev.reached (↑0) (ringBase ↑15 + Reg.RING_CMD.GO.off) = true ∧
     More.at37_2.quiet = true) ∧
    (More.closedRing.dev.baseOk (More.closedRing.dev.desc (ringId ↑15 ↑5)) = true ∧
     (More.closedRing.dev.desc (ringId ↑15 ↑5)).logCap ≤ 16 ∧
     4 ≤ (More.closedRing.dev.desc (ringId ↑15 ↑5)).logCap ∧
     (More.closedRing.dev.desc (ringId ↑15 ↑5)).state = RingState.closed ∧
     (More.closedRing.dev.engine ↑15).frozen = none ∧
     (More.closedRing.dev.engine ↑15).upset = { } ∧
     More.closedRing.dev.reached (↑0) (ringBase ↑15 + Reg.RING_CMD.GO.off) = true ∧
     More.closedRing.quiet = true) := by and_intros <;> decide +kernel

theorem test_wit_AcceptsAreServed :
    ((More.waitsForQueue.dev.engine ↑15).rqWait ≠ [] ∧
     (More.waitsForQueue.dev.engine ↑15).frags = [Witness14.fr] ∧
     More.waitsForQueue.quiet = true) ∧
    (Witness14.m14_11.dev.fragLane (15) Witness14.fr.group = none ∧
     (Witness14.m14_11.dev.engine 15).rqWait = [] ∧
     (Witness14.m14_11.dev.engine 15).frags = [Witness14.fr] ∧
     Witness14.m14_11.dev.ringWorks 15 = true ∧
     Witness14.m14_11.quiet = true) ∧
    (More.noQueue.dev.latched 11 = true ∧
     More.noQueue.dev.latched 10 = true ∧
     More.noQueue.dev.rqRoom (↑15) Witness14.fr = true ∧
     (More.noQueue.dev.engine ↑15).rqWait = [Witness14.fr] ∧
     More.noQueue.dev.ringWorks ↑15 = true ∧
     More.noQueue.quiet = true) ∧
    (Witness14.m14_12.dev.txBarred (128 : ℕ) (Frag.msg (↑15) 0 Witness14.fr) = false ∧
     Witness14.m14_12.dev.fragLane (↑15) Witness14.fr.group = some (128 : ℕ) ∧
     (Witness14.m14_12.dev.engine ↑15).rqWait = [] ∧
     (Witness14.m14_12.dev.engine ↑15).frags = [Witness14.fr] ∧
     Witness14.m14_12.dev.ringWorks ↑15 = true ∧
     Witness14.m14_12.quiet = true) ∧
    (bitOf (More.noQueue.dev.fld strikeBase Reg.STK_ACC_CFG.TYPE_EN) 0 = true ∧
     More.noQueue.dev.fld strikeBase Reg.STK_STATUS.HOLD = 0 ∧
     More.noQueue.dev.runs strikeBase = true ∧
     More.noQueue.dev.proofDepth strikeBase = none ∧
     More.noQueue.dev.strike.sampled = false ∧
     More.noQueue.dev.trunkStopped = false ∧
     More.noQueue.dev.counting = true ∧
     More.noQueue.dev.domainOn 7 = true ∧
     More.noQueue.quiet = true) ∧
    ((List.filter (fun i => i / 1024 == ↑15 && decide ((Witness14.m14_9.dev.desc (ringId (↑15) i)).occ ≠ 0)) (Witness14.m14_9.dev.ringsOf ↑15) = []) ∧
     (Witness14.m14_9.dev.ringWorks ↑15 = true ∧ (Witness14.m14_9.dev.engine ↑15).frags = [] ∧ nextAccept (Witness14.m14_9.dev.engine ↑15).accepts = some Witness14.ac ∧ ((Witness14.m14_9.dev.ringsOf ↑15).any fun i => (Witness14.m14_9.dev.desc (ringId (↑15) i)).state == RingState.dead) = false ∧ List.filter (fun i => bitOf Witness14.ac.map i && Witness14.m14_9.dev.flag (ringBase ↑15) (Reg.GRP_DEST.EN.elem i)) (List.range 16) = [↑15]) ∧
     Witness14.m14_9.quiet = true) ∧
    ((∀ (stop : ℕ), Witness14.m14_10.dev.scanStop (↑15) Witness14.ac = some stop → crossBefore (slotCross Witness14.wd) stop = false) ∧
     (Witness14.m14_10.dev.desc (ringId ↑15 ↑16383)).premValid = false ∧
     Witness14.ac.holds (slotCross Witness14.wd) = true ∧
     Witness14.m14_10.dev.slotLive (↑15) (slotCross Witness14.wd) = true ∧
     slotGap Witness14.wd = false ∧
     ((if ringInDie ((Witness14.m14_10.dev.desc (ringId ↑15 ↑16383)).slotAddr (Witness14.m14_10.dev.desc (ringId ↑15 ↑16383)).age) = true then Witness14.m14_10.dev.baseRead BaseUser.ring (dsOffset ((Witness14.m14_10.dev.desc (ringId ↑15 ↑16383)).slotAddr (Witness14.m14_10.dev.desc (ringId ↑15 ↑16383)).age) / 32) else Witness14.m14_10.dev.dsRead32 clsRing ((Witness14.m14_10.dev.desc (ringId ↑15 ↑16383)).slotAddr (Witness14.m14_10.dev.desc (ringId ↑15 ↑16383)).age)) = (Witness14.m14_10.dev, 0, Witness14.wd)) ∧
     2 ≤ Witness14.m14_10.dev.fragCap ↑15 ↑15 ∧
     (Witness14.m14_10.dev.desc (ringId ↑15 ↑16383)).occ = 1 ∧
     (Witness14.m14_10.dev.engine ↑15).flushing = false ∧
     (List.filter (fun i => i / 1024 == ↑15 && decide ((Witness14.m14_10.dev.desc (ringId (↑15) i)).occ ≠ 0)) (Witness14.m14_10.dev.ringsOf ↑15) = [↑16383]) ∧
     (Witness14.m14_10.dev.ringWorks ↑15 = true ∧ (Witness14.m14_10.dev.engine ↑15).frags = [] ∧ nextAccept (Witness14.m14_10.dev.engine ↑15).accepts = some Witness14.ac ∧ ((Witness14.m14_10.dev.ringsOf ↑15).any fun i => (Witness14.m14_10.dev.desc (ringId (↑15) i)).state == RingState.dead) = false ∧ List.filter (fun i => bitOf Witness14.ac.map i && Witness14.m14_10.dev.flag (ringBase ↑15) (Reg.GRP_DEST.EN.elem i)) (List.range 16) = [↑15]) ∧
     Witness14.m14_10.quiet = true) := by and_intros <;> decide +kernel

theorem test_wit_FabricDataPortsReachLines :
    (({ } : State).dev.fdpReady 0 = false ∧
     ({ } : State).quiet = true) ∧
    ((More.portRuns More.plainLine : State).dev.keyRefused clsFdp ↑0 = false ∧
     (More.portRuns More.plainLine : State).dev.extRefused (64 * 33) = false ∧
     (More.portRuns More.plainLine : State).dev.portLive (portTiles (quadrantGroup ↑0)) portData = true ∧
     (More.portRuns More.plainLine : State).dev.fdpWaiting ↑0 = [] ∧
     (More.portRuns More.plainLine : State).dev.fdpReady ↑0 = true ∧
     (More.portRuns More.plainLine : State).dev.latched 11 = true ∧
     (More.portRuns More.plainLine : State).dev.latched 10 = true ∧
     (More.portRuns More.plainLine : State).dev.visible ≤ 2 ^ 37 ∧
     64 * 33 < (More.portRuns More.plainLine : State).dev.visible ∧
     (More.portRuns More.plainLine : State).quiet = true) ∧
    ((More.portRuns Witness15.m15_4 : State).dev.keyRefused clsFdp ↑15 = true ∧
     (More.portRuns Witness15.m15_4 : State).dev.extRefused (64 * 15) = false ∧
     (More.portRuns Witness15.m15_4 : State).dev.portLive (portTiles (quadrantGroup ↑0)) portData = true ∧
     (More.portRuns Witness15.m15_4 : State).dev.fdpWaiting ↑0 = [] ∧
     (More.portRuns Witness15.m15_4 : State).dev.fdpReady ↑0 = true ∧
     (More.portRuns Witness15.m15_4 : State).dev.latched 11 = true ∧
     (More.portRuns Witness15.m15_4 : State).dev.latched 10 = true ∧
     (More.portRuns Witness15.m15_4 : State).dev.visible ≤ 2 ^ 37 ∧
     64 * 15 < (More.portRuns Witness15.m15_4 : State).dev.visible ∧
     (More.portRuns Witness15.m15_4 : State).quiet = true) ∧
    ((More.portRuns More.plainLine : State).dev.verify (↑0) (64 * 33) ((More.portRuns More.plainLine : State).dev.extLine 33) = dsOk ∧
     (More.portRuns More.plainLine : State).dev.keyRefused clsFdp ↑0 = false ∧
     (More.portRuns More.plainLine : State).dev.extRefused (64 * 33) = false ∧
     (More.portRuns More.plainLine : State).dev.portLive (portTiles (quadrantGroup ↑0)) portData = true ∧
     (More.portRuns More.plainLine : State).dev.fdpWaiting ↑0 = [] ∧
     (More.portRuns More.plainLine : State).dev.fdpReady ↑0 = true ∧
     (More.portRuns More.plainLine : State).dev.latched 11 = true ∧
     (More.portRuns More.plainLine : State).dev.latched 10 = true ∧
     (More.portRuns More.plainLine : State).dev.visible ≤ 2 ^ 37 ∧
     64 * 33 < (More.portRuns More.plainLine : State).dev.visible ∧
     (More.portRuns More.plainLine : State).quiet = true) ∧
    (0 = 0 ∧
     (More.portRuns More.plainLine : State).dev.verify (↑0) (64 * 33) ((More.portRuns More.plainLine : State).dev.extLine 33) = dsOk ∧
     (More.portRuns More.plainLine : State).dev.keyRefused clsFdp ↑0 = false ∧
     (More.portRuns More.plainLine : State).dev.extRefused (64 * 33) = false ∧
     (More.portRuns More.plainLine : State).dev.portLive (portTiles (quadrantGroup ↑0)) portData = true ∧
     (More.portRuns More.plainLine : State).dev.fdpWaiting ↑0 = [] ∧
     (More.portRuns More.plainLine : State).dev.fdpReady ↑0 = true ∧
     (More.portRuns More.plainLine : State).dev.latched 11 = true ∧
     (More.portRuns More.plainLine : State).dev.latched 10 = true ∧
     (More.portRuns More.plainLine : State).dev.visible ≤ 2 ^ 37 ∧
     64 * 33 < (More.portRuns More.plainLine : State).dev.visible ∧
     (More.portRuns More.plainLine : State).quiet = true) ∧
    (dsDone ((More.portRuns Witness15.m15_1 : State).dev.verify (1) (64 * 33) ((More.portRuns Witness15.m15_1 : State).dev.extLine 33)) = false ∧
     (More.portRuns Witness15.m15_1 : State).dev.keyRefused clsFdp 1 = false ∧
     (More.portRuns Witness15.m15_1 : State).dev.extRefused (64 * 33) = false ∧
     (More.portRuns Witness15.m15_1 : State).dev.portLive (portTiles (quadrantGroup ↑0)) portData = true ∧
     (More.portRuns Witness15.m15_1 : State).dev.fdpWaiting ↑0 = [] ∧
     (More.portRuns Witness15.m15_1 : State).dev.fdpReady ↑0 = true ∧
     (More.portRuns Witness15.m15_1 : State).dev.latched 11 = true ∧
     (More.portRuns Witness15.m15_1 : State).dev.latched 10 = true ∧
     (More.portRuns Witness15.m15_1 : State).dev.visible ≤ 2 ^ 37 ∧
     64 * 33 < (More.portRuns Witness15.m15_1 : State).dev.visible ∧
     (More.portRuns Witness15.m15_1 : State).quiet = true) ∧
    ((512#64 : BitVec 64) ≠ BitVec.allOnes 64 ∧
     (512#64 : BitVec 64) ≠ 0 ∧
     (More.portRuns More.plainLine : State).dev.verify (↑0) (64 * 33) ((More.portRuns More.plainLine : State).dev.extLine 33) = dsOk ∧
     (More.portRuns More.plainLine : State).dev.keyRefused clsFdp ↑0 = false ∧
     (More.portRuns More.plainLine : State).dev.extRefused (64 * 33) = false ∧
     (More.portRuns More.plainLine : State).dev.portLive (portTiles (quadrantGroup ↑0)) portData = true ∧
     (More.portRuns More.plainLine : State).dev.fdpWaiting ↑0 = [] ∧
     (More.portRuns More.plainLine : State).dev.fdpReady ↑0 = true ∧
     (More.portRuns More.plainLine : State).dev.latched 11 = true ∧
     (More.portRuns More.plainLine : State).dev.latched 10 = true ∧
     (More.portRuns More.plainLine : State).dev.visible ≤ 2 ^ 37 ∧
     64 * 33 < (More.portRuns More.plainLine : State).dev.visible ∧
     (More.portRuns More.plainLine : State).quiet = true) ∧
    ((5#64 : BitVec 64) ≠ BitVec.allOnes 64 ∧
     (5#64 : BitVec 64) ≠ 0 ∧
     dsDone ((More.portRuns Witness15.m15_1 : State).dev.verify (1) (64 * 33) ((More.portRuns Witness15.m15_1 : State).dev.extLine 33)) = false ∧
     (More.portRuns Witness15.m15_1 : State).dev.keyRefused clsFdp 1 = false ∧
     (More.portRuns Witness15.m15_1 : State).dev.extRefused (64 * 33) = false ∧
     (More.portRuns Witness15.m15_1 : State).dev.portLive (portTiles (quadrantGroup ↑0)) portData = true ∧
     (More.portRuns Witness15.m15_1 : State).dev.fdpWaiting ↑0 = [] ∧
     (More.portRuns Witness15.m15_1 : State).dev.fdpReady ↑0 = true ∧
     (More.portRuns Witness15.m15_1 : State).dev.latched 11 = true ∧
     (More.portRuns Witness15.m15_1 : State).dev.latched 10 = true ∧
     (More.portRuns Witness15.m15_1 : State).dev.visible ≤ 2 ^ 37 ∧
     64 * 33 < (More.portRuns Witness15.m15_1 : State).dev.visible ∧
     (More.portRuns Witness15.m15_1 : State).quiet = true) := by and_intros <;> decide +kernel

theorem test_wit_ControllersAndRegions :
    ((Witness15.m15_6.dev.extLine 3).check = dsCorrected ∧
     Witness15.m15_6.dev.mcScrub (mcBase ↑0) Reg.MC_SCRUB.EN = true ∧
     (Witness15.m15_6.dev.ust (mcBase ↑0) = UState.running ∧ bitOf (Witness15.m15_6.dev.fld (mcBase ↑0) Reg.MC_STATUS.FAULTED) ↑0 = false) ∧
     extChannel (64 * 3) % 8 = ↑0 ∧
     64 * 3 < Witness15.m15_6.dev.visible ∧
     extController (64 * 3) = ↑0 ∧
     Witness15.m15_6.quiet = true) ∧
    (Witness15.m15_5.dev.clk.mpllLock = true ∧
     Witness15.m15_5.dev.ust (mcBase 0) = UState.starting ∧
     Witness15.m15_5.quiet = true) ∧
    (Witness15.m15_7.dev.runs cryptoBase = true ∧
     Witness15.m15_7.dev.reached (↑7) (regionAddr 1 ↑3) = true ∧
     Witness15.m15_7.quiet = true) ∧
    (Witness15.m15_5.dev.ust cryptoBase = UState.stopped ∧
     Witness15.m15_5.dev.reached (3) (regionAddr 0 ↑3) = true ∧
     Witness15.m15_5.quiet = true) ∧
    (8 < 9 ∧
     (Witness15.m15_5.dev.ust (mcBase 1) = UState.running ∧ bitOf (Witness15.m15_5.dev.fld (mcBase 1) Reg.MC_STATUS.FAULTED) ↑3 = false) ∧
     Witness15.m15_5.quiet = true) ∧
    (Witness15.m15_5.dev.units.user.look (mcBase 0) = none ∧
     Witness15.m15_5.dev.units.loss.mem (mcBase 0) = false ∧
     Witness15.m15_5.dev.proving (mcBase 0) = false ∧
     Witness15.m15_5.dev.clk.mpllLock = true ∧
     Witness15.m15_5.dev.ust (mcBase 0) = UState.starting ∧
     Witness15.m15_5.quiet = true) ∧
    (Witness15.m15_5.dev.ext.retrainBad.mem (8 * 1 + ↑0) = false ∧
     (∀ x < 8, x ≠ ↑0 → Witness15.m15_5.dev.ext.retrainBad.has (8 * 1 + x) = false) ∧
     (Witness15.m15_5.dev.ust (mcBase 1) = UState.running ∧ bitOf (Witness15.m15_5.dev.fld (mcBase 1) Reg.MC_STATUS.FAULTED) ↑0 = false) ∧
     Witness15.m15_5.quiet = true) ∧
    (Witness15.m15_7.dev.ext.retrainBad.mem (8 * ↑1 + ↑7) = true ∧
     (∀ x < 8, x ≠ ↑7 → Witness15.m15_7.dev.ext.retrainBad.has (8 * ↑1 + x) = false) ∧
     (Witness15.m15_7.dev.ust (mcBase ↑1) = UState.running ∧ bitOf (Witness15.m15_7.dev.fld (mcBase ↑1) Reg.MC_STATUS.FAULTED) ↑7 = false) ∧
     Witness15.m15_7.quiet = true) ∧
    ((extController (64 * 32) ≠ ↑0 ∨ Witness15.m15_5.dev.ext.retained.mem ↑0 = true) ∧
     Witness15.m15_5.dev.units.user.look (mcBase ↑0) = none ∧
     Witness15.m15_5.dev.units.loss.mem (mcBase ↑0) = false ∧
     Witness15.m15_5.dev.proving (mcBase ↑0) = false ∧
     Witness15.m15_5.dev.clk.mpllLock = true ∧
     Witness15.m15_5.dev.ust (mcBase ↑0) = UState.starting ∧
     Witness15.m15_5.quiet = true) ∧
    (Witness15.m15_5.dev.initMode 0 = 2 ∧
     Witness15.m15_5.dev.ext.retained.mem 0 = false ∧
     extController (64 * 3) = 0 ∧
     Witness15.m15_5.dev.units.user.look (mcBase 0) = none ∧
     Witness15.m15_5.dev.units.loss.mem (mcBase 0) = false ∧
     Witness15.m15_5.dev.proving (mcBase 0) = false ∧
     Witness15.m15_5.dev.clk.mpllLock = true ∧
     Witness15.m15_5.dev.ust (mcBase 0) = UState.starting ∧
     Witness15.m15_5.quiet = true) ∧
    ((More.mcStarts 1 : State).dev.initMode ↑0 = 1 ∧
     (More.mcStarts 1 : State).dev.ext.retained.mem ↑0 = false ∧
     extController (64 * 4) = ↑0 ∧
     (More.mcStarts 1 : State).dev.units.user.look (mcBase ↑0) = none ∧
     (More.mcStarts 1 : State).dev.units.loss.mem (mcBase ↑0) = false ∧
     (More.mcStarts 1 : State).dev.proving (mcBase ↑0) = false ∧
     (More.mcStarts 1 : State).dev.clk.mpllLock = true ∧
     (More.mcStarts 1 : State).dev.ust (mcBase ↑0) = UState.starting ∧
     (More.mcStarts 1 : State).quiet = true) ∧
    ((More.mcStarts 0 : State).dev.initMode ↑0 ≠ 2 ∧
     (More.mcStarts 0 : State).dev.initMode ↑0 ≠ 1 ∧
     (More.mcStarts 0 : State).dev.ext.retained.mem ↑0 = false ∧
     extController (64 * 3) = ↑0 ∧
     (More.mcStarts 0 : State).dev.units.user.look (mcBase ↑0) = none ∧
     (More.mcStarts 0 : State).dev.units.loss.mem (mcBase ↑0) = false ∧
     (More.mcStarts 0 : State).dev.proving (mcBase ↑0) = false ∧
     (More.mcStarts 0 : State).dev.clk.mpllLock = true ∧
     (More.mcStarts 0 : State).dev.ust (mcBase ↑0) = UState.starting ∧
     (More.mcStarts 0 : State).quiet = true) := by and_intros <;> decide +kernel

theorem test_wit_MoversRunDescriptors :
    (Witness15.m15_9.dev.ext.chains.look 7 = some Witness15.v15_9_3 ∧
     Witness15.m15_9.dev.reached (0) (moverBase 7 + Reg.MV_CTRL.GO.off) = true ∧
     Witness15.m15_9.quiet = true) ∧
    (Witness15.m15_8.dev.runs (moverBase 7) = true ∧
     Witness15.m15_8.dev.ext.chains.look 7 = none ∧
     Witness15.m15_8.dev.reached (2) (moverBase 7 + Reg.MV_CTRL.GO.off) = true ∧
     Witness15.m15_8.quiet = true) ∧
    ((moverDesc (Witness15.m15_10.dev.fld (moverBase 7) Reg.UNIT_VER.MAJOR) (Witness15.m15_10.dev.wordData (Witness15.m15_10.dev.physWord (Witness15.v15_10_3.desc / 32))) : MoverDesc).bar = some mvKey ∧
     (moverDesc (Witness15.m15_10.dev.fld (moverBase 7) Reg.UNIT_VER.MAJOR) (Witness15.m15_10.dev.wordData (Witness15.m15_10.dev.physWord (Witness15.v15_10_3.desc / 32))) : MoverDesc) = moverDesc (Witness15.m15_10.dev.fld (moverBase 7) Reg.UNIT_VER.MAJOR) (Witness15.m15_10.dev.wordData (Witness15.m15_10.dev.physWord (Witness15.v15_9_3.desc / 32))) ∧
     (∀ i < 2, Witness15.m15_10.dev.baseBarred false (2 * (Witness15.v15_9_3.desc / 64) + i) = false ∧ Witness15.m15_10.dev.wordCheck (Witness15.m15_10.dev.physWord (2 * (Witness15.v15_9_3.desc / 64) + i)) = memOk) ∧
     Witness15.v15_9_3.desc < 2 ^ 30 ∧
     Witness15.v15_9_3.desc % 32 = 0 ∧
     Witness15.m15_10.dev.runs (moverBase 7) = true ∧
     Witness15.m15_10.dev.ext.chains.look 7 = some Witness15.v15_9_3 ∧
     Witness15.m15_10.quiet = true) ∧
    ((∀ i < 2, Witness15.m15_9.dev.baseBarred false (2 * (Witness15.v15_9_4.dst / 64) + i) = false ∧ Witness15.m15_9.dev.wordCheck (Witness15.m15_9.dev.physWord (2 * (Witness15.v15_9_4.dst / 64) + i)) = memOk) ∧
     Witness15.v15_9_4.dst / 64 ≠ Witness15.v15_9_3.desc / 64 ∧
     Witness15.v15_9_4.dst + Witness15.v15_9_4.len ≤ 2 ^ 30 ∧
     Witness15.v15_9_4.dst % 64 + Witness15.v15_9_4.len ≤ 64 ∧
     Witness15.v15_9_4.last = true ∧
     Witness15.v15_9_4.fill = true ∧
     Witness15.v15_9_4.bar = none ∧
     Witness15.v15_9_4 = moverDesc (Witness15.m15_9.dev.fld (moverBase 7) Reg.UNIT_VER.MAJOR) (Witness15.m15_9.dev.wordData (Witness15.m15_9.dev.physWord (Witness15.v15_9_3.desc / 32))) ∧
     (∀ i < 2, Witness15.m15_9.dev.baseBarred false (2 * (Witness15.v15_9_3.desc / 64) + i) = false ∧ Witness15.m15_9.dev.wordCheck (Witness15.m15_9.dev.physWord (2 * (Witness15.v15_9_3.desc / 64) + i)) = memOk) ∧
     Witness15.v15_9_3.desc < 2 ^ 30 ∧
     Witness15.v15_9_3.desc % 32 = 0 ∧
     Witness15.m15_9.dev.runs (moverBase 7) = true ∧
     Witness15.m15_9.dev.ext.chains.look 7 = some Witness15.v15_9_3 ∧
     Witness15.m15_9.quiet = true) := by and_intros <;> decide +kernel

theorem test_wit_ImageRecordsAreTaken :
    (More.at42_2.dev.nextRecord ([] : List Word) = none ∧
     More.at42_2.quiet = true) ∧
    ((recordHead Witness16.lats).kind ≠ 2 ∧
     More.at42_2.dev.nextRecord Witness16.lats = some (Witness16.img0, Witness16.lats) ∧
     More.at42_2.quiet = true) ∧
    (((recordHead Witness16.closes).kind = 2 ∧ (More.at42_2.dev.recordCause Witness16.img0 Witness16.closes 0 0 fun x => 0) = 0) ∧
     More.at42_2.dev.load.openUnits.head? = some (recordHead Witness16.closes).unit ∧
     partialImage Witness16.img0.colophon = false ∧
     More.at42_2.dev.nextRecord Witness16.closes = some (Witness16.img0, Witness16.closes) ∧
     More.at42_2.quiet = true) ∧
    (More.at42_2.dev.inSort Witness16.img0 = false ∧
     More.at42_2.dev.outside = false ∧
     Witness16.img0.colophon.fmtMajor ≠ 2 ∧
     lengthBad (recordHead Witness16.other) = false ∧
     (recordHead Witness16.other).crcOk = true ∧
     128 ≤ (recordHead Witness16.other).kind ∧
     partialImage Witness16.img0.colophon = false ∧
     More.at42_2.dev.nextRecord (Witness16.other ++ [5] : List Word) = some (Witness16.img0, Witness16.other) ∧
     More.at42_2.quiet = true) ∧
    (((recordHead Witness16.pins).kind = 18 ∧ (More.at42_2.dev.recordCause Witness16.img0 Witness16.pins (More.at42_2.dev.depthOne (recordHead Witness16.pins) pinsBase true Witness16.img0.pins.isSome Witness16.img0) 0 fun p => pinCause (pinsOf p)) = 0) ∧
     partialImage Witness16.img0.colophon = false ∧
     More.at42_2.dev.nextRecord (Witness16.pins ++ [5] : List Word) = some (Witness16.img0, Witness16.pins) ∧
     More.at42_2.quiet = true) ∧
    (((recordHead Witness16.opens).unit = formeBase ∨ More.at42_20.dev.units.user.has (recordHead Witness16.opens).unit = true ∨ More.at42_20.dev.load.mode = LoadMode.reapply) ∧
     ((recordHead Witness16.opens).kind = 1 ∧ (More.at42_20.dev.recordCause Witness16.img0 Witness16.opens (More.at42_20.dev.openPlace (recordHead Witness16.opens) Witness16.img0) 80 fun p => More.at42_20.dev.openCause (recordHead Witness16.opens) p Witness16.img0) = 0) ∧
     partialImage Witness16.img0.colophon = false ∧
     More.at42_20.dev.nextRecord ([] : List Word) = some (Witness16.img0, Witness16.opens) ∧
     More.at42_20.quiet = true) ∧
    (More.fencesUp.dev.load.mode ≠ LoadMode.reapply ∧
     More.fencesUp.dev.units.user.has (recordHead Witness16.opens).unit = false ∧
     (recordHead Witness16.opens).unit ≠ formeBase ∧
     ((recordHead Witness16.opens).kind = 1 ∧ (More.fencesUp.dev.recordCause Witness16.img0 Witness16.opens (More.fencesUp.dev.openPlace (recordHead Witness16.opens) Witness16.img0) 80 fun p => More.fencesUp.dev.openCause (recordHead Witness16.opens) p Witness16.img0) = 0) ∧
     partialImage Witness16.img0.colophon = false ∧
     More.fencesUp.dev.nextRecord ([] : List Word) = some (Witness16.img0, Witness16.opens) ∧
     More.fencesUp.quiet = true) ∧
    (settingPairs (List.drop 1 ((More.at42_2.dev.payload Witness16.img0 Witness16.settings).getD [])) = some ([(256, 0x00000007#32)] : List (ℕ × Word)) ∧
     ((recordHead Witness16.settings).kind = 19 ∧ (More.at42_2.dev.recordCause Witness16.img0 Witness16.settings (More.at42_2.dev.settingsPlace (recordHead Witness16.settings) Witness16.img0) 4 fun p => settingsCause (recordHead Witness16.settings) p Witness16.img0) = 0) ∧
     partialImage Witness16.img0.colophon = false ∧
     More.at42_2.dev.nextRecord (Witness16.settings ++ [5] : List Word) = some (Witness16.img0, Witness16.settings) ∧
     More.at42_2.quiet = true) ∧
    ((hotOf ((More.at42_2.dev.payload Witness16.img0 Witness16.thermal).getD [])).2.any evenColumn = false ∧
     (hotOf ((More.at42_2.dev.payload Witness16.img0 Witness16.thermal).getD [])).1.all evenColumn = true ∧
     ((recordHead Witness16.thermal).kind = 22 ∧ (More.at42_2.dev.recordCause Witness16.img0 Witness16.thermal (More.at42_2.dev.depthOne (recordHead Witness16.thermal) 0 true Witness16.img0.thermal.isSome Witness16.img0) 64 fun x => 0) = 0) ∧
     partialImage Witness16.img0.colophon = false ∧
     More.at42_2.dev.nextRecord (Witness16.thermal ++ [5] : List Word) = some (Witness16.img0, Witness16.thermal) ∧
     More.at42_2.quiet = true) ∧
    (ringsOf ((More.at42_2.dev.payload Witness16.img0 Witness16.rings).getD []) = some ([Sys2Proof.RingSection.rings [(5, 4096, 16)], Sys2Proof.RingSection.chanMap 131070 [0x00000007#32, 0x00000009#32]] : List RingSection) ∧
     ((recordHead Witness16.rings).kind = 20 ∧ (More.at42_2.dev.recordCause Witness16.img0 Witness16.rings (More.at42_2.dev.depthOne (recordHead Witness16.rings) 0 true false Witness16.img0) 0 fun p => ringCause (recordHead Witness16.rings) p Witness16.img0) = 0) ∧
     partialImage Witness16.img0.colophon = false ∧
     More.at42_2.dev.nextRecord Witness16.rings = some (Witness16.img0, Witness16.rings) ∧
     More.at42_2.quiet = true) ∧
    (preloadsOf ((More.at42_2.dev.payload Witness16.img0 Witness16.preload).getD []) = some ([{ addr := 1073741792, len := 32, data := [0x0000000300000000000000000000000000000000000000000000000000000000#256] }] : List Preload) ∧
     ((recordHead Witness16.preload).kind = 21 ∧ (More.at42_2.dev.recordCause Witness16.img0 Witness16.preload (More.at42_2.dev.depthOne (recordHead Witness16.preload) 0 false false Witness16.img0) 0 fun p => preloadCause (recordHead Witness16.preload) p Witness16.img0) = 0) ∧
     partialImage Witness16.img0.colophon = false ∧
     More.at42_2.dev.nextRecord Witness16.preload = some (Witness16.img0, Witness16.preload) ∧
     More.at42_2.quiet = true) ∧
    (latencyCause ({ l := 8, r := 1, c := 0, s := 0, n := 4, xbMul := 4, aCol := 7, aDie := 1, aValid := true, bCol := 0, bDie := 0, bValid := false, galleys := [5] } : LatencyDecl) Witness16.img0 = 0 ∧
     latencyDeclOf ((More.at42_2.dev.payload Witness16.img0 Witness16.lats).getD []) = some ({ l := 8, r := 1, c := 0, s := 0, n := 4, xbMul := 4, aCol := 7, aDie := 1, aValid := true, bCol := 0, bDie := 0, bValid := false, galleys := [5] } : LatencyDecl) ∧
     ((recordHead Witness16.lats).kind = 24 ∧ (More.at42_2.dev.recordCause Witness16.img0 Witness16.lats (More.at42_2.dev.depthOne (recordHead Witness16.lats) keeperBase true Witness16.img0.latency.isSome Witness16.img0) 16 fun x => 0) = 0) ∧
     partialImage Witness16.img0.colophon = false ∧
     More.at42_2.dev.nextRecord Witness16.lats = some (Witness16.img0, Witness16.lats) ∧
     More.at42_2.quiet = true) := by and_intros <;> decide +kernel

theorem test_wit_StoredRecordsColophonAndEnd :
    (More.at43_4.dev.ust formeBase ≠ UState.starting ∧
     More.at43_4.dev.units.user.keys = [] ∧
     (recordHead Witness16.struckRec).crcOk = false ∧
     (recordHead Witness16.struckRec).kind = 2 ∧
     More.at43_4.dev.nextRecord ([] : List Word) = some (Witness16.img1, Witness16.struckRec) ∧
     More.at43_4.quiet = true) ∧
    ((More.at43_6.dev.units.user.keys = [] ∧ More.at43_6.dev.ust formeBase ≠ UState.starting) ∧
     (colophonOf (List.take colophonWords (More.at43_6.dev.imageWords ([] : List Word)))).magic ≠ 4935238 ∧
     More.at43_6.dev.load.mode ≠ LoadMode.idle ∧
     More.at43_6.dev.load.image = none ∧
     colophonWords ≤ (More.at43_6.dev.imageWords ([] : List Word)).length ∧
     More.at43_6.quiet = true) ∧
    (More.at43_5.dev.load.mode = LoadMode.stream ∧
     partialImage (colophonOf (List.take colophonWords (More.at43_5.dev.imageWords ([] : List Word)))) = false ∧
     More.at43_5.dev.colophonCause (colophonOf (List.take colophonWords (More.at43_5.dev.imageWords ([] : List Word)))) = 0 ∧
     More.at43_5.dev.load.image = none ∧
     colophonWords ≤ (More.at43_5.dev.imageWords ([] : List Word)).length ∧
     More.at43_5.quiet = true) ∧
    ((More.at43_10.dev.units.user.keys = [] ∧ More.at43_10.dev.ust formeBase ≠ UState.starting) ∧
     More.at43_10.dev.keyHeld Witness16.img0.colophon.signer (wordBytes (List.take blockWords (More.at43_10.dev.imageWords Witness16.ended))) = false ∧
     (More.at43_10.dev.streaming = true → More.at43_10.dev.load.ended = true) ∧
     blockWords ≤ (More.at43_10.dev.imageWords Witness16.ended).length ∧
     More.at43_10.dev.load.signed = false ∧
     More.at43_10.dev.load.image = some Witness16.img0 ∧
     More.at43_10.quiet = true) ∧
    ((plateOf ((More.at43_3.dev.payload Witness16.img1 Witness16.plate).getD [])).resident = false ∧
     (¬More.at43_3.dev.load.mode = LoadMode.reapply) ∧
     ((recordHead Witness16.plate).kind = 16 ∧ (More.at43_3.dev.recordCause Witness16.img1 Witness16.plate (More.at43_3.dev.platePlace (recordHead Witness16.plate) Witness16.img1) 68 fun p => More.at43_3.dev.plateCause (recordHead Witness16.plate) p Witness16.img1) = 0) ∧
     More.at43_3.dev.nextRecord Witness16.plate = some (Witness16.img1, Witness16.plate) ∧
     More.at43_3.quiet = true) ∧
    ((¬More.at43_1.dev.load.mode = LoadMode.reapply) ∧
     initOf ((More.at43_1.dev.payload Witness16.img1 Witness16.init).getD []) = some [(((initOf (List.drop 8 Witness16.init)).getD []).headD { } : InitEntry)] ∧
     ((recordHead Witness16.init).kind = 17 ∧ (More.at43_1.dev.recordCause Witness16.img1 Witness16.init 0 0 fun p => More.at43_1.dev.initCause (recordHead Witness16.init) p Witness16.img1) = 0) ∧
     (recordHead Witness16.init).unit = 0 ∧
     More.at43_1.dev.outside = false ∧
     More.at43_1.dev.nextRecord Witness16.init = some (Witness16.img1, Witness16.init) ∧
     More.at43_1.quiet = true) ∧
    ((¬More.at43_2.dev.load.mode = LoadMode.reapply) ∧
     drivesOf Witness16.img1 ((More.at43_2.dev.payload Witness16.img1 Witness16.drive).getD []) = some (3, 150994944, ([] : List (ℕ × List ℕ))) ∧
     ((recordHead Witness16.drive).kind = 23 ∧ (More.at43_2.dev.recordCause Witness16.img1 Witness16.drive (More.at43_2.dev.depthOne (recordHead Witness16.drive) 0 false false Witness16.img1) 36 fun p => More.at43_2.dev.driveCause (recordHead Witness16.drive) p Witness16.img1) = 0) ∧
     More.at43_2.dev.nextRecord ([] : List Word) = some (Witness16.img1, Witness16.drive) ∧
     More.at43_2.quiet = true) ∧
    ((Witness16.ends false : State).dev.load.signed = false ∧
     (Witness16.ends false : State).dev.load.mode = LoadMode.stream ∧
     (Witness16.ends false : State).dev.load.index < 2 ^ 32 ∧
     (((Witness16.ends false : State).dev.recordCause Witness16.img2 Witness16.ended 0 0 fun x => 0) = 0) ∧
     (Witness16.ends false : State).dev.loadDepth = 0 ∧
     (Witness16.ends false : State).dev.load.index ≠ 0 ∧
     (recordHead Witness16.ended).unit = 0 ∧
     (recordHead Witness16.ended).kind = 127 ∧
     (Witness16.ends false : State).dev.nextRecord ([] : List Word) = some (Witness16.img2, Witness16.ended) ∧
     (Witness16.ends false : State).quiet = true) ∧
    (blockSigns (wordBytes (List.take blockWords (More.at43_12.dev.imageWords Witness16.signedBlock))) (wordBytes More.at43_12.dev.load.head) = true ∧
     More.at43_12.dev.keyHeld Witness16.img0.colophon.signer (wordBytes (List.take blockWords (More.at43_12.dev.imageWords Witness16.signedBlock))) = true ∧
     More.at43_12.dev.load.ended = false ∧
     More.at43_12.dev.streaming = false ∧
     (More.at43_12.dev.streaming = true → More.at43_12.dev.load.ended = true) ∧
     blockWords ≤ (More.at43_12.dev.imageWords Witness16.signedBlock).length ∧
     More.at43_12.dev.load.signed = false ∧
     More.at43_12.dev.load.image = some Witness16.img0 ∧
     More.at43_12.quiet = true) ∧
    ((More.at43_11.dev.units.user.keys = [] ∧ More.at43_11.dev.ust formeBase ≠ UState.starting) ∧
     blockSigns (wordBytes (List.take blockWords (More.at43_11.dev.imageWords Witness16.ended))) (wordBytes More.at43_11.dev.load.head) = false ∧
     More.at43_11.dev.keyHeld Witness16.img0.colophon.signer (wordBytes (List.take blockWords (More.at43_11.dev.imageWords Witness16.ended))) = true ∧
     (More.at43_11.dev.streaming = true → More.at43_11.dev.load.ended = true) ∧
     blockWords ≤ (More.at43_11.dev.imageWords Witness16.ended).length ∧
     More.at43_11.dev.load.signed = false ∧
     More.at43_11.dev.load.image = some Witness16.img0 ∧
     More.at43_11.quiet = true) ∧
    ((Witness16.ends true : State).dev.load.requested = false ∧
     (Witness16.ends true : State).dev.mode ≠ modeStart ∧
     Witness16.img2.pins = none ∧
     Witness16.img2.acts = [] ∧
     Witness16.lat2.xbMul = (Witness16.ends true : State).dev.clk.ratioXb ∧
     Witness16.lat2.n = (Witness16.ends true : State).dev.clk.ratioN ∧
     (Witness16.ends true : State).dev.ratioOk (Witness16.ends true : State).dev.clk.rootRef Witness16.lat2.n Witness16.lat2.xbMul = true ∧
     (Witness16.ends true : State).dev.clk.rootRef ≠ 3 ∧
     Witness16.img2.latency = some (2, Witness16.lat2) ∧
     (Witness16.ends true : State).dev.wholeCause Witness16.img2 (Witness16.ends true : State).dev.load.index = (0, 0) ∧
     partialImage Witness16.img2.colophon = false ∧
     (Witness16.ends true : State).dev.load.mode = LoadMode.stream ∧
     ((((Witness16.ends true : State).dev.recordSeen Witness16.ended).modLoad fun l => { l with ended := true }).endCause Witness16.img2 = (0, (Witness16.ends true : State).dev.load.index)) ∧
     (Witness16.ends true : State).dev.load.signed = true ∧
     (Witness16.ends true : State).dev.load.index < 2 ^ 32 ∧
     (((Witness16.ends true : State).dev.recordCause Witness16.img2 Witness16.ended 0 0 fun x => 0) = 0) ∧
     (Witness16.ends true : State).dev.loadDepth = 0 ∧
     (Witness16.ends true : State).dev.load.index ≠ 0 ∧
     (recordHead Witness16.ended).unit = 0 ∧
     (recordHead Witness16.ended).kind = 127 ∧
     (Witness16.ends true : State).dev.nextRecord Witness16.ended = some (Witness16.img2, Witness16.ended) ∧
     (Witness16.ends true : State).quiet = true) ∧
    ((More.at43_9.dev.units.user.keys = [] ∧ More.at43_9.dev.ust formeBase ≠ UState.starting) ∧
     (Witness16.img3.colophon.digest ≠ bigNum (sha384 (wordBytes ((More.at43_9.dev.recordSeen Witness16.ended).modLoad fun l => { l with ended := true }).load.body))) ∧
     (Witness16.img3.colophon.imageLen = 4 * (colophonWords + ((More.at43_9.dev.recordSeen Witness16.ended).modLoad fun l => { l with ended := true }).load.body.length)) ∧
     Witness16.img3.colophon.recordCount = More.at43_9.dev.load.index + 1 ∧
     (((More.at43_9.dev.recordSeen Witness16.ended).modLoad fun l => { l with ended := true }).load.badIndex = none) ∧
     More.at43_9.dev.load.signed = true ∧
     More.at43_9.dev.load.index < 2 ^ 32 ∧
     ((More.at43_9.dev.recordCause Witness16.img3 Witness16.ended 0 0 fun x => 0) = 0) ∧
     More.at43_9.dev.loadDepth = 0 ∧
     More.at43_9.dev.load.index ≠ 0 ∧
     (recordHead Witness16.ended).unit = 0 ∧
     (recordHead Witness16.ended).kind = 127 ∧
     More.at43_9.dev.nextRecord ([] : List Word) = some (Witness16.img3, Witness16.ended) ∧
     More.at43_9.quiet = true) := by and_intros <;> decide +kernel

theorem test_wit_SuppliesOscillatorsAndLoopsStart :
    (2 = cpll ∧
     Witness17.m17_7.dev.load.step ≠ BootStep.locking ∧
     Witness17.m17_7.dev.fld (pllBase 2) Reg.PLL_STATUS.LOCK = 0 ∧
     (Witness17.m17_7.dev.units.loss.mem (pllBase 2) = false ∧ Witness17.m17_7.dev.units.user.look (pllBase 2) = none) ∧
     Witness17.m17_7.dev.ust (pllBase 2) = UState.starting ∧
     Witness17.m17_7.dev.pllRef 2 = true ∧
     2 < 3 ∧
     Witness17.m17_7.dev.clk.relock = none ∧
     Witness17.m17_7.dev.clkOn = true ∧
     Witness17.m17_7.quiet = true) ∧
    (Witness17.m17_1.dev.load.step = BootStep.power ∧
     Witness17.m17_1.quiet = true) ∧
    (3 < 2 ^ 16 ∧
     Witness17.m17_9.dev.load.step = BootStep.bist ∧
     Witness17.m17_9.dev.clk.relock = none ∧
     Witness17.m17_9.dev.clkOn = true ∧
     Witness17.m17_9.quiet = true) ∧
    (Witness17.m17_7.dev.clk.mpllLock = false ∧
     Witness17.m17_7.dev.pllRef 3 = true ∧
     3 = mpll ∧
     Witness17.m17_7.dev.clk.relock = none ∧
     Witness17.m17_7.dev.clkOn = true ∧
     Witness17.m17_7.quiet = true) ∧
    (((startRails.all fun k => (3#19 : BitVec 19).getLsbD k) = false) ∧
     ({ } : State).dev.fld kryupBase Reg.THM_STATUS.TRIPPED = 0 ∧
     ({ } : State).dev.kryup.halted = false ∧
     ({ } : State).dev.load.step = BootStep.supplies ∧
     ({ } : State).quiet = true) ∧
    (Witness17.m17_8.dev.units.startTick.num (pllBase 2) + 25 ≤ Witness17.m17_8.dev.tick ∧
     Witness17.m17_8.dev.ust (pllBase 2) = UState.starting ∧
     2 < 3 ∧
     Witness17.m17_8.dev.clk.relock = none ∧
     Witness17.m17_8.dev.clkOn = true ∧
     Witness17.m17_8.quiet = true) ∧
    (((startRails.all fun k => (4294967295#19 : BitVec 19).getLsbD k) = true) ∧
     ({ } : State).dev.fld kryupBase Reg.THM_STATUS.TRIPPED = 0 ∧
     ({ } : State).dev.kryup.halted = false ∧
     ({ } : State).dev.load.step = BootStep.supplies ∧
     ({ } : State).quiet = true) ∧
    (Witness17.m17_4.dev.clk.reg.state ≠ SeqState.waitFio ∧
     Witness17.m17_4.dev.clk.trunk.state ≠ SeqState.waitFio ∧
     Witness17.m17_4.dev.clk.fioTick + 64 ≤ Witness17.m17_4.dev.tick ∧
     Witness17.m17_4.dev.clk.fio = OscState.starting ∧
     Witness17.m17_4.quiet = true) ∧
    (Witness17.m17_4.dev.kryup.halted = false ∧
     Witness17.m17_4.dev.load.step = BootStep.fio ∧
     Witness17.m17_4.dev.tick ≤ Witness17.m17_4.dev.clk.fioTick + 64 ∧
     Witness17.m17_4.dev.clk.fioTick + 2 ≤ Witness17.m17_4.dev.tick ∧
     8000000 ≤ 10400000 ∧
     5600000 ≤ 8000000 ∧
     Witness17.m17_4.dev.clk.fio = OscState.starting ∧
     Witness17.m17_4.quiet = true) ∧
    (((if false = true then Witness17.m17_6.dev.clk.xa else Witness17.m17_6.dev.clk.xb) = OscState.running) ∧
     (Witness17.m17_6.dev.clk.delayTick + startDelay (Witness17.m17_6.dev.fld rootBase (if false = true then Reg.BOOT_INFO.XB_CODE else Reg.BOOT_INFO.XA_CODE)) ≤ Witness17.m17_6.dev.tick) ∧
     4294967295 ≠ 0 ∧
     ((if false = true then Witness17.m17_6.dev.clk.xb else Witness17.m17_6.dev.clk.xa) = OscState.starting) ∧
     Witness17.m17_6.dev.load.step = BootStep.crystals ∧
     Witness17.m17_6.quiet = true) ∧
    (Witness17.m17_8.dev.fuseEntries = [] ∧
     Witness17.m17_8.dev.pllOk 1 = true ∧
     Witness17.m17_8.dev.pllOk 0 = true ∧
     2 = cpll ∧
     Witness17.m17_8.dev.load.step = BootStep.locking ∧
     Witness17.m17_8.dev.fld (pllBase 2) Reg.PLL_STATUS.LOCK = 0 ∧
     (Witness17.m17_8.dev.units.loss.mem (pllBase 2) = false ∧ Witness17.m17_8.dev.units.user.look (pllBase 2) = none) ∧
     Witness17.m17_8.dev.ust (pllBase 2) = UState.starting ∧
     Witness17.m17_8.dev.pllRef 2 = true ∧
     2 < 3 ∧
     Witness17.m17_8.dev.clk.relock = none ∧
     Witness17.m17_8.dev.clkOn = true ∧
     Witness17.m17_8.quiet = true) ∧
    (((if true = true then Witness17.m17_5.dev.clk.xa else Witness17.m17_5.dev.clk.xb) = OscState.starting) ∧
     (Witness17.m17_5.dev.clk.delayTick + startDelay (Witness17.m17_5.dev.fld rootBase (if true = true then Reg.BOOT_INFO.XB_CODE else Reg.BOOT_INFO.XA_CODE)) ≤ Witness17.m17_5.dev.tick) ∧
     (Witness17.m17_7.dev.units.startTick.num (pllBase 2) + 25 : ℕ) ≠ 0 ∧
     ((if true = true then Witness17.m17_5.dev.clk.xb else Witness17.m17_5.dev.clk.xa) = OscState.starting) ∧
     Witness17.m17_5.dev.load.step = BootStep.crystals ∧
     Witness17.m17_5.quiet = true) := by and_intros <;> decide +kernel

theorem test_wit_LoaderOpensAndEnds :
    (BitVec.toNat (More.at45_9.dev.reg ldCtrlAddr) % 8 = 0 ∧
     More.at45_9.dev.load.image = none ∧
     (More.at45_9.dev.load.mode = LoadMode.stream ∧ More.at45_9.dev.units.user.keys = [] ∧ More.at45_9.dev.ust formeBase ≠ UState.starting) ∧
     More.at45_9.dev.reached (5) ldCtrlAddr = true ∧
     More.at45_9.quiet = true) ∧
    (More.at45_9.dev.fld rootBase Reg.LD_STATUS.PATH = 5 ∧
     More.at45_9.dev.load.mode = LoadMode.stream ∧
     More.at45_9.dev.reached (5) ldDataAddr = true ∧
     More.at45_9.quiet = true) ∧
    (More.at45_9.dev.fld rootBase Reg.LD_STATUS.PATH ≠ ↑6 ∧
     More.at45_9.dev.load.mode = LoadMode.stream ∧
     More.at45_9.dev.reached (↑6) ldDataAddr = true ∧
     More.at45_9.quiet = true) ∧
    (BitVec.toNat (More.at45_8.dev.reg ldCtrlAddr) % 8 = 0 ∧
     More.at45_8.dev.mayOpen 1 = true ∧
     More.at45_8.dev.load.mode = LoadMode.idle ∧
     More.at45_8.dev.reached (1) ldCtrlAddr = true ∧
     More.at45_8.quiet = true) ∧
    ((100 : ℕ) + More.at45_8.dev.load.boot.trunkWait ≤ More.at45_8.dev.tick ∧
     More.at45_8.dev.load.lanesTick = some (100 : ℕ) ∧
     More.at45_8.dev.load.boot.trunkWait ≠ 0 ∧
     More.at45_8.dev.load.mode = LoadMode.idle ∧
     More.at45_8.dev.load.trying = some 3 ∧
     More.at45_8.quiet = true) ∧
    (BitVec.toNat (More.at45_7.dev.reg ldCtrlAddr) % 8 = 0 ∧
     ({ source := 3 } : Image).source = 3 ∧
     More.at45_7.dev.load.released = some ({ source := 3 } : Image) ∧
     More.at45_7.dev.load.mode = LoadMode.idle ∧
     More.at45_7.dev.reached (↑6) ldCtrlAddr = true ∧
     More.at45_7.quiet = true) ∧
    ((List.find? (fun e => decide (e.1 ≤ 4)) (List.drop Witness17.m17_12.dev.load.entry (bootSources Witness17.m17_12.dev.load.boot).zipIdx) = none) ∧
     Witness17.m17_12.dev.load.entry ≠ entriesTried ∧
     Witness17.m17_12.dev.load.trying = none ∧
     Witness17.m17_12.dev.load.mode = LoadMode.idle ∧
     Witness17.m17_12.dev.load.step = BootStep.loading ∧
     Witness17.m17_12.quiet = true) ∧
    ((3 = 3 ∨ 3 = 4) ∧
     (List.find? (fun e => decide (e.1 ≤ 4)) (List.drop Witness17.m17_22.dev.load.entry (bootSources Witness17.m17_22.dev.load.boot).zipIdx) = some (3, 0)) ∧
     Witness17.m17_22.dev.load.entry ≠ entriesTried ∧
     Witness17.m17_22.dev.load.trying = none ∧
     Witness17.m17_22.dev.load.mode = LoadMode.idle ∧
     Witness17.m17_22.dev.load.step = BootStep.loading ∧
     Witness17.m17_22.quiet = true) ∧
    (Witness17.m17_14.dev.load.idleTick + Witness17.m17_14.dev.fld rootBase Reg.LD_CFG.TIMEOUT ≤ Witness17.m17_14.dev.tick ∧
     Witness17.m17_14.dev.fld rootBase Reg.LD_CFG.TIMEOUT ≠ 0 ∧
     Witness17.m17_14.dev.load.image = none ∧
     (Witness17.m17_14.dev.load.mode = LoadMode.stream ∧ Witness17.m17_14.dev.units.user.keys = [] ∧ Witness17.m17_14.dev.ust formeBase ≠ UState.starting) ∧
     Witness17.m17_14.quiet = true) ∧
    (Witness17.m17_10.dev.load.boot.octal = false ∧
     (2 = 1 ∨ 2 = 2) ∧
     (List.find? (fun e => decide (e.1 ≤ 4)) (List.drop Witness17.m17_10.dev.load.entry (bootSources Witness17.m17_10.dev.load.boot).zipIdx) = some (2, 1)) ∧
     Witness17.m17_10.dev.load.entry ≠ entriesTried ∧
     Witness17.m17_10.dev.load.trying = none ∧
     Witness17.m17_10.dev.load.mode = LoadMode.idle ∧
     Witness17.m17_10.dev.load.step = BootStep.loading ∧
     Witness17.m17_10.quiet = true) := by and_intros <;> decide +kernel

theorem test_wit_ImagesAndUnitsAreReleased :
    (((crossBefore (crossAdd ((More.notYet RelState.writes : State).dev.user 9437184).relCross ((((More.notYet RelState.writes : State).dev.user 9437184).relCycle + (More.notYet RelState.writes : State).dev.gapOf Reg.REL_GAP.GAP_RST) / (More.notYet RelState.writes : State).dev.clk.ratioN), (((More.notYet RelState.writes : State).dev.user 9437184).relCycle + (More.notYet RelState.writes : State).dev.gapOf Reg.REL_GAP.GAP_RST) % (More.notYet RelState.writes : State).dev.clk.ratioN).1 (More.notYet RelState.writes : State).dev.now || (crossAdd ((More.notYet RelState.writes : State).dev.user 9437184).relCross ((((More.notYet RelState.writes : State).dev.user 9437184).relCycle + (More.notYet RelState.writes : State).dev.gapOf Reg.REL_GAP.GAP_RST) / (More.notYet RelState.writes : State).dev.clk.ratioN), (((More.notYet RelState.writes : State).dev.user 9437184).relCycle + (More.notYet RelState.writes : State).dev.gapOf Reg.REL_GAP.GAP_RST) % (More.notYet RelState.writes : State).dev.clk.ratioN).1 == (More.notYet RelState.writes : State).dev.now && ((More.notYet RelState.writes : State).dev.unitGroups 9437184).all fun g => decide ((crossAdd ((More.notYet RelState.writes : State).dev.user 9437184).relCross ((((More.notYet RelState.writes : State).dev.user 9437184).relCycle + (More.notYet RelState.writes : State).dev.gapOf Reg.REL_GAP.GAP_RST) / (More.notYet RelState.writes : State).dev.clk.ratioN), (((More.notYet RelState.writes : State).dev.user 9437184).relCycle + (More.notYet RelState.writes : State).dev.gapOf Reg.REL_GAP.GAP_RST) % (More.notYet RelState.writes : State).dev.clk.ratioN).2 ≤ (More.notYet RelState.writes : State).dev.fabric.cycle.num g)) = false) ∧
     ((More.notYet RelState.writes : State).dev.user 9437184).rel = RelState.writes ∧
     (More.notYet RelState.writes : State).dev.trunkStopped = false ∧
     (More.notYet RelState.writes : State).quiet = true) ∧
    (((crossBefore (crossAdd ((More.notYet RelState.outputs : State).dev.user 9437184).relCross ((((More.notYet RelState.outputs : State).dev.user 9437184).relCycle + (More.notYet RelState.outputs : State).dev.gapOf Reg.REL_GAP.GAP_WE) / (More.notYet RelState.outputs : State).dev.clk.ratioN), (((More.notYet RelState.outputs : State).dev.user 9437184).relCycle + (More.notYet RelState.outputs : State).dev.gapOf Reg.REL_GAP.GAP_WE) % (More.notYet RelState.outputs : State).dev.clk.ratioN).1 (More.notYet RelState.outputs : State).dev.now || (crossAdd ((More.notYet RelState.outputs : State).dev.user 9437184).relCross ((((More.notYet RelState.outputs : State).dev.user 9437184).relCycle + (More.notYet RelState.outputs : State).dev.gapOf Reg.REL_GAP.GAP_WE) / (More.notYet RelState.outputs : State).dev.clk.ratioN), (((More.notYet RelState.outputs : State).dev.user 9437184).relCycle + (More.notYet RelState.outputs : State).dev.gapOf Reg.REL_GAP.GAP_WE) % (More.notYet RelState.outputs : State).dev.clk.ratioN).1 == (More.notYet RelState.outputs : State).dev.now && ((More.notYet RelState.outputs : State).dev.unitGroups 9437184).all fun g => decide ((crossAdd ((More.notYet RelState.outputs : State).dev.user 9437184).relCross ((((More.notYet RelState.outputs : State).dev.user 9437184).relCycle + (More.notYet RelState.outputs : State).dev.gapOf Reg.REL_GAP.GAP_WE) / (More.notYet RelState.outputs : State).dev.clk.ratioN), (((More.notYet RelState.outputs : State).dev.user 9437184).relCycle + (More.notYet RelState.outputs : State).dev.gapOf Reg.REL_GAP.GAP_WE) % (More.notYet RelState.outputs : State).dev.clk.ratioN).2 ≤ (More.notYet RelState.outputs : State).dev.fabric.cycle.num g)) = false) ∧
     ((More.notYet RelState.outputs : State).dev.user 9437184).rel = RelState.outputs ∧
     (More.notYet RelState.outputs : State).dev.trunkStopped = false ∧
     (More.notYet RelState.outputs : State).quiet = true) ∧
    (Witness17.m17_18.dev.partialSwitch 9437184 = [] ∧
     crossBefore Witness17.m17_18.dev.now Witness17.m17_19.dev.now = false ∧
     Witness17.m17_18.dev.ust 9437184 = UState.starting ∧
     (Witness17.m17_18.dev.user 9437184).rel = RelState.held ∧
     (Witness17.m17_18.dev.user 9437184).relTarget = some Witness17.m17_19.dev.now ∧
     Witness17.m17_18.dev.trunkStopped = false ∧
     Witness17.m17_18.quiet = true) ∧
    (Witness17.v17_18_1.latency = some (2, Witness17.v17_18_2) ∧
     Witness17.m17_18.dev.trunkStopped = false ∧
     Witness17.m17_18.dev.ust formeBase = UState.starting ∧
     crossBefore Witness17.m17_18.dev.now Witness17.m17_19.dev.now = false ∧
     Witness17.m17_18.dev.load.opened = false ∧
     Witness17.m17_18.dev.load.verified = some Witness17.v17_18_1 ∧
     Witness17.m17_18.dev.load.target = some Witness17.m17_19.dev.now ∧
     Witness17.m17_18.quiet = true) ∧
    (((crossBefore (crossAdd (Witness17.m17_19.dev.user 9437184).relCross (((Witness17.m17_19.dev.user 9437184).relCycle + Witness17.m17_19.dev.gapOf Reg.REL_GAP.GAP_WE) / Witness17.m17_19.dev.clk.ratioN), ((Witness17.m17_19.dev.user 9437184).relCycle + Witness17.m17_19.dev.gapOf Reg.REL_GAP.GAP_WE) % Witness17.m17_19.dev.clk.ratioN).1 Witness17.m17_19.dev.now || (crossAdd (Witness17.m17_19.dev.user 9437184).relCross (((Witness17.m17_19.dev.user 9437184).relCycle + Witness17.m17_19.dev.gapOf Reg.REL_GAP.GAP_WE) / Witness17.m17_19.dev.clk.ratioN), ((Witness17.m17_19.dev.user 9437184).relCycle + Witness17.m17_19.dev.gapOf Reg.REL_GAP.GAP_WE) % Witness17.m17_19.dev.clk.ratioN).1 == Witness17.m17_19.dev.now && (Witness17.m17_19.dev.unitGroups 9437184).all fun g => decide ((crossAdd (Witness17.m17_19.dev.user 9437184).relCross (((Witness17.m17_19.dev.user 9437184).relCycle + Witness17.m17_19.dev.gapOf Reg.REL_GAP.GAP_WE) / Witness17.m17_19.dev.clk.ratioN), ((Witness17.m17_19.dev.user 9437184).relCycle + Witness17.m17_19.dev.gapOf Reg.REL_GAP.GAP_WE) % Witness17.m17_19.dev.clk.ratioN).2 ≤ Witness17.m17_19.dev.fabric.cycle.num g)) = true) ∧
     (Witness17.m17_19.dev.user 9437184).rel = RelState.outputs ∧
     Witness17.m17_19.dev.trunkStopped = false ∧
     Witness17.m17_19.quiet = true) ∧
    ((Witness17.m17_20.dev.user 9437184).readySeen = false ∧
     9437184 ≠ formeBase ∧
     ((crossBefore (crossAdd (Witness17.m17_20.dev.user 9437184).relCross (((Witness17.m17_20.dev.user 9437184).relCycle + Witness17.m17_20.dev.gapOf Reg.REL_GAP.GAP_RST) / Witness17.m17_20.dev.clk.ratioN), ((Witness17.m17_20.dev.user 9437184).relCycle + Witness17.m17_20.dev.gapOf Reg.REL_GAP.GAP_RST) % Witness17.m17_20.dev.clk.ratioN).1 Witness17.m17_20.dev.now || (crossAdd (Witness17.m17_20.dev.user 9437184).relCross (((Witness17.m17_20.dev.user 9437184).relCycle + Witness17.m17_20.dev.gapOf Reg.REL_GAP.GAP_RST) / Witness17.m17_20.dev.clk.ratioN), ((Witness17.m17_20.dev.user 9437184).relCycle + Witness17.m17_20.dev.gapOf Reg.REL_GAP.GAP_RST) % Witness17.m17_20.dev.clk.ratioN).1 == Witness17.m17_20.dev.now && (Witness17.m17_20.dev.unitGroups 9437184).all fun g => decide ((crossAdd (Witness17.m17_20.dev.user 9437184).relCross (((Witness17.m17_20.dev.user 9437184).relCycle + Witness17.m17_20.dev.gapOf Reg.REL_GAP.GAP_RST) / Witness17.m17_20.dev.clk.ratioN), ((Witness17.m17_20.dev.user 9437184).relCycle + Witness17.m17_20.dev.gapOf Reg.REL_GAP.GAP_RST) % Witness17.m17_20.dev.clk.ratioN).2 ≤ Witness17.m17_20.dev.fabric.cycle.num g)) = true) ∧
     (Witness17.m17_20.dev.user 9437184).rel = RelState.writes ∧
     Witness17.m17_20.dev.trunkStopped = false ∧
     Witness17.m17_20.quiet = true) := by and_intros <;> decide +kernel

theorem test_wit_MonitorsLoopsAndRootsFail :
    (Witness18.m18_4.dev.monInRange (3) 0 = false ∧
     Witness18.m18_4.dev.monTripped 3 = true ∧
     Witness18.m18_4.dev.clkOn = true ∧
     Witness18.m18_4.quiet = true) ∧
    ((0 : ℕ) + (More.inRangeSince 0 : State).dev.windows16 ↑3 ≤ (More.inRangeSince 0 : State).dev.tick ∧
     (More.inRangeSince 0 : State).dev.clk.inRange.look ↑3 = some (0 : ℕ) ∧
     (More.inRangeSince 0 : State).dev.monInRange (↑3) 40000 = true ∧
     (More.inRangeSince 0 : State).dev.monTripped ↑3 = true ∧
     (More.inRangeSince 0 : State).dev.clkOn = true ∧
     (More.inRangeSince 0 : State).quiet = true) ∧
    ((More.inRangeSince 2000 : State).dev.tick < (2000 : ℕ) + (More.inRangeSince 2000 : State).dev.windows16 ↑3 ∧
     (More.inRangeSince 2000 : State).dev.clk.inRange.look ↑3 = some (2000 : ℕ) ∧
     (More.inRangeSince 2000 : State).dev.monInRange (↑3) 40000 = true ∧
     (More.inRangeSince 2000 : State).dev.monTripped ↑3 = true ∧
     (More.inRangeSince 2000 : State).dev.clkOn = true ∧
     (More.inRangeSince 2000 : State).quiet = true) ∧
    ((More.loneRoot.dev.clk.trunk.state ≠ SeqState.run ∨ More.loneRoot.dev.standbyAligned = false) ∧
     More.loneRoot.dev.reached (4) clkCmdAddr = true ∧
     More.loneRoot.dev.clkOn = true ∧
     More.loneRoot.quiet = true) ∧
    (Witness18.m18_6.dev.standbyAligned = true ∧
     Witness18.m18_6.dev.clk.trunk.state = SeqState.run ∧
     Witness18.m18_6.dev.reached (3) clkCmdAddr = true ∧
     Witness18.m18_6.dev.clkOn = true ∧
     Witness18.m18_6.quiet = true) ∧
    ((∀ (w : Fin 2), More.loneRoot.dev.ust (mcBase ↑w) = UState.running ∨ More.loneRoot.dev.ust (mcBase ↑w) = UState.stopped) ∧
     More.loneRoot.dev.clk.mpllLock = true ∧
     More.loneRoot.dev.latched causeClock = true ∧
     More.loneRoot.dev.clkOn = true ∧
     More.loneRoot.quiet = true) ∧
    (Witness18.m18_5.dev.clk.relock = none ∧
     Witness18.m18_5.dev.standbyRoot ≤ 1 ∧
     Witness18.m18_5.dev.ust (pllBase Witness18.m18_5.dev.standbyRoot) = UState.running ∧
     Witness18.m18_5.dev.latched causeClock = true ∧
     Witness18.m18_5.dev.clkOn = true ∧
     Witness18.m18_5.quiet = true) ∧
    (More.loneRoot.dev.clk.fio = OscState.running ∧
     More.loneRoot.dev.netSrc false = NetSrc.loop ∧
     More.loneRoot.dev.clk.reg.state = SeqState.run ∧
     More.loneRoot.dev.fld (pllBase cpll) Reg.PLL_STATUS.LOCK = 1 ∧
     More.loneRoot.dev.ust (pllBase cpll) = UState.running ∧
     More.loneRoot.dev.latched causeClock = true ∧
     More.loneRoot.dev.clkOn = true ∧
     More.loneRoot.quiet = true) ∧
    (Witness18.m18_3.dev.clk.rootRef = refXb ∧
     3 = monXb ∧
     (true = true ∨ Witness18.m18_3.dev.monBad (3) Witness18.m18_3.dev.clk.rootRef = true) ∧
     Witness18.m18_3.dev.latched causeClock = true ∧
     Witness18.m18_3.dev.flag (monitorBase 3) Reg.MON_CFG.EN = true ∧
     Witness18.m18_3.dev.monTripped 3 = false ∧
     Witness18.m18_3.dev.monRunning 3 = true ∧
     Witness18.m18_3.dev.clkOn = true ∧
     Witness18.m18_3.quiet = true) ∧
    (Witness18.m18_6.dev.latL = 0 ∧
     Witness18.m18_6.dev.pllOk Witness18.m18_6.dev.standbyRoot = true ∧
     Witness18.m18_6.dev.standbyAligned = true ∧
     Witness18.m18_6.dev.rootDrives Witness18.m18_6.dev.activeRoot = true ∧
     Witness18.m18_6.dev.ust (pllBase Witness18.m18_6.dev.activeRoot) = UState.running ∧
     Witness18.m18_6.dev.latched causeRoot = true ∧
     Witness18.m18_6.dev.clkOn = true ∧
     Witness18.m18_6.quiet = true) ∧
    (Witness18.m18_1.dev.fld clkBase Reg.CLK_STATUS.TICK_SRC = 0 ∧
     0 = monSio ∧
     (true = true ∨ Witness18.m18_1.dev.monBad (0) (Witness18.m18_5.dev.fld (pllBase Witness18.m18_5.dev.activeRoot) Reg.PLL_STATUS.ACTIVE : ℕ) = true) ∧
     Witness18.m18_1.dev.latched causeClock = true ∧
     Witness18.m18_1.dev.flag (monitorBase 0) Reg.MON_CFG.EN = true ∧
     Witness18.m18_1.dev.monTripped 0 = false ∧
     Witness18.m18_1.dev.monRunning 0 = true ∧
     Witness18.m18_1.dev.clkOn = true ∧
     Witness18.m18_1.quiet = true) ∧
    (More.loneRoot.dev.latL = 0 ∧
     More.loneRoot.dev.clk.fio = OscState.running ∧
     More.loneRoot.dev.clk.trunk.state = SeqState.run ∧
     More.loneRoot.dev.runs (pllBase More.loneRoot.dev.standbyRoot) = false ∧
     More.loneRoot.dev.standbyAligned = false ∧
     More.loneRoot.dev.rootDrives More.loneRoot.dev.activeRoot = true ∧
     More.loneRoot.dev.activeRoot ≤ 1 ∧
     More.loneRoot.dev.ust (pllBase More.loneRoot.dev.activeRoot) = UState.running ∧
     More.loneRoot.dev.latched causeClock = true ∧
     More.loneRoot.dev.clkOn = true ∧
     More.loneRoot.quiet = true) ∧
    (Witness18.m18_2.dev.netSrc true = NetSrc.loop ∧
     Witness18.m18_2.dev.clk.trunk.state = SeqState.run ∧
     Witness18.m18_2.dev.netSrc false = NetSrc.fio ∧
     Witness18.m18_2.dev.clk.reg.state = SeqState.run ∧
     Witness18.m18_2.dev.clk.fio ≠ OscState.starting ∧
     true = true ∧
     1 = monFio ∧
     (true = true ∨ Witness18.m18_2.dev.monBad (1) 3 = true) ∧
     Witness18.m18_2.dev.latched causeClock = true ∧
     Witness18.m18_2.dev.flag (monitorBase 1) Reg.MON_CFG.EN = true ∧
     Witness18.m18_2.dev.monTripped 1 = false ∧
     Witness18.m18_2.dev.monRunning 1 = true ∧
     Witness18.m18_2.dev.clkOn = true ∧
     Witness18.m18_2.quiet = true) := by and_intros <;> decide +kernel

theorem test_wit_FailedFioIsRestarted :
    (Witness25.m25_10.dev.tick < Witness25.m25_10.dev.clk.fioTick + 1024 ∧
     Witness25.m25_10.dev.clk.fio = OscState.failed ∧
     Witness25.m25_10.dev.clkOn = true ∧
     Witness25.m25_10.quiet = true) ∧
    (Witness25.m25_9.dev.clk.fioTick + 1024 ≤ Witness25.m25_9.dev.tick ∧
     Witness25.m25_9.dev.clk.fio = OscState.failed ∧
     Witness25.m25_9.dev.clkOn = true ∧
     Witness25.m25_9.quiet = true) ∧
    (Witness25.m25_11.dev.clk.fioTick + 64 ≤ Witness25.m25_11.dev.tick ∧
     Witness25.m25_11.dev.clk.fioAgain = true ∧
     Witness25.m25_11.dev.clk.fio = OscState.starting ∧
     Witness25.m25_11.quiet = true) ∧
    (More.fioComes.dev.load.step ≠ BootStep.fio ∧
     More.fioComes.dev.kryup.halted = false ∧
     More.fioComes.dev.tick ≤ More.fioComes.dev.clk.fioTick + 64 ∧
     More.fioComes.dev.clk.fioTick + 2 ≤ More.fioComes.dev.tick ∧
     8000000 ≤ 10400000 ∧
     5600000 ≤ 8000000 ∧
     More.fioComes.dev.clk.fioAgain = true ∧
     More.fioComes.dev.clk.fio = OscState.starting ∧
     More.fioComes.quiet = true) := by and_intros <;> decide +kernel

theorem test_wit_NetsStopMoveAndRestart :
    (Witness18.m18_10.dev.clk.reg.state = SeqState.restart ∧
     Witness18.m18_10.dev.clkOn = true ∧
     Witness18.m18_10.quiet = true) ∧
    (Witness18.v18_8_5.root ≤ 1 ∧
     Witness18.m18_8.dev.clk.relock = some Witness18.v18_8_5 ∧
     Witness18.m18_8.dev.clk.trunk.state = SeqState.relock ∧
     Witness18.m18_8.dev.clkOn = true ∧
     Witness18.m18_8.quiet = true) ∧
    (Witness18.m18_7.dev.pllOk cpll = true ∧
     Witness18.m18_7.dev.clk.reg.state = SeqState.run ∧
     Witness18.m18_7.dev.reg clkCmdAddr = 0 ∧
     Witness18.m18_7.dev.reached (7) clkCmdAddr = true ∧
     Witness18.m18_7.dev.clkOn = true ∧
     Witness18.m18_7.quiet = true) ∧
    (Witness18.m18_7.dev.clk.fio = OscState.running ∧
     Witness18.m18_7.dev.clk.reg.state = SeqState.run ∧
     Witness18.m18_7.dev.reg clkCmdAddr = 0 ∧
     Witness18.m18_7.dev.reached (7) clkCmdAddr = true ∧
     Witness18.m18_7.dev.clkOn = true ∧
     Witness18.m18_7.quiet = true) ∧
    (Witness18.m18_7.dev.clk.fio = OscState.running ∧
     Witness18.m18_7.dev.clk.trunk.state = SeqState.run ∧
     Witness18.m18_7.dev.reg clkCmdAddr = 0 ∧
     Witness18.m18_7.dev.reached (7) clkCmdAddr = true ∧
     Witness18.m18_7.dev.clkOn = true ∧
     Witness18.m18_7.quiet = true) ∧
    ((Witness18.m18_8.dev.clk.reg.state ≠ SeqState.run ∨ Witness18.m18_8.dev.clk.fio ≠ OscState.running) ∧
     Witness18.m18_8.dev.reg clkCmdAddr = 0 ∧
     Witness18.m18_8.dev.reached (0) clkCmdAddr = true ∧
     Witness18.m18_8.dev.clkOn = true ∧
     Witness18.m18_8.quiet = true) ∧
    ((Witness18.m18_8.dev.clk.trunk.state ≠ SeqState.run ∨ Witness18.m18_8.dev.clk.fio ≠ OscState.running) ∧
     Witness18.m18_8.dev.reg clkCmdAddr = 0 ∧
     Witness18.m18_8.dev.reached (0) clkCmdAddr = true ∧
     Witness18.m18_8.dev.clkOn = true ∧
     Witness18.m18_8.quiet = true) ∧
    (Witness18.m18_9.dev.netDead false = false ∧
     Witness18.m18_9.dev.clk.fio = OscState.running ∧
     Witness18.m18_9.dev.clk.reg.target = NetSrc.fio ∧
     Witness18.m18_9.dev.clk.reg.state = SeqState.stopping ∧
     Witness18.m18_9.dev.clkOn = true ∧
     Witness18.m18_9.quiet = true) ∧
    (Witness18.m18_9.dev.clk.reg.reqTick + 16 ≤ Witness18.m18_9.dev.tick ∧
     Witness18.m18_9.dev.clk.fio = OscState.running ∧
     Witness18.m18_9.dev.clk.reg.target = NetSrc.fio ∧
     Witness18.m18_9.dev.clk.reg.state = SeqState.stopping ∧
     Witness18.m18_9.dev.clkOn = true ∧
     Witness18.m18_9.quiet = true) ∧
    (Witness18.m18_8.dev.ust (pllBase Witness18.v18_8_5.root) = UState.running ∧
     Witness18.v18_8_5.tick + 25 ≤ Witness18.m18_8.dev.tick ∧
     Witness18.v18_8_5.root ≤ 1 ∧
     Witness18.m18_8.dev.clk.relock = some Witness18.v18_8_5 ∧
     Witness18.m18_8.dev.clk.trunk.state = SeqState.relock ∧
     Witness18.m18_8.dev.clkOn = true ∧
     Witness18.m18_8.quiet = true) ∧
    (Witness18.m18_9.dev.strike.groups = [] ∧
     Witness18.m18_9.dev.keeper.released = true ∧
     Witness18.m18_9.dev.latL = 0 ∧
     Witness18.m18_9.dev.clk.relock = none ∧
     Witness18.m18_9.dev.netDead true = false ∧
     Witness18.m18_9.dev.clk.fio = OscState.running ∧
     Witness18.m18_9.dev.clk.trunk.target = NetSrc.fio ∧
     Witness18.m18_9.dev.clk.trunk.state = SeqState.stopping ∧
     Witness18.m18_9.dev.clkOn = true ∧
     Witness18.m18_9.quiet = true) ∧
    (Witness18.m18_10.dev.kryup.warm = false ∧
     Witness18.m18_10.dev.strike.groups = [] ∧
     Witness18.m18_10.dev.domainOn 7 = false ∧
     Witness18.m18_10.dev.clk.swapPending = false ∧
     Witness18.m18_10.dev.keeper.pendingSync = none ∧
     Witness18.m18_10.dev.keeper.released = true ∧
     8 ≤ (Witness18.v18_8_5.tick + 25 : ℕ) ∧
     Witness18.m18_10.dev.clk.trunk.forced = false ∧
     Witness18.m18_10.dev.clk.trunk.target = NetSrc.fio ∧
     Witness18.m18_10.dev.clk.trunk.state = SeqState.restart ∧
     Witness18.m18_10.dev.clkOn = true ∧
     Witness18.m18_10.quiet = true) := by and_intros <;> decide +kernel

theorem test_wit_ResetsLeaveWhatTheyKeep :
    (Witness19.m19_2.quiet = true) ∧
    (Witness19.m19_2.dev.latched causeKwWrite = true ∧
     Witness19.v19_2_2 ≠ 195 ∧
     Witness19.m19_2.dev.reached (7) rstReqAddr = true ∧
     Witness19.m19_2.quiet = true) ∧
    (Witness19.m19_3.dev.trunkBoot = false ∧
     Witness19.m19_3.dev.kryup.warmHeld = true ∧
     Witness19.m19_3.dev.kryup.warm = true ∧
     Witness19.m19_3.quiet = true) ∧
    (Witness19.m19_2.dev.load.mode = LoadMode.idle ∧
     Witness19.m19_2.dev.kryup.warm = false ∧
     195 = 195 ∧
     Witness19.m19_2.dev.reached (7) rstReqAddr = true ∧
     Witness19.m19_2.quiet = true) ∧
    (Witness19.m19_2.dev.load.step ≠ BootStep.power ∧
     Witness19.m19_2.dev.ident.closed = false ∧
     Witness19.m19_2.dev.kryup.stored = none ∧
     Witness19.m19_2.dev.fld kryupBase Reg.PROP_STATUS.STATE ≠ 2 ∧
     Witness19.m19_2.quiet = true) ∧
    (195 = 195 ∧
     Witness19.m19_2.dev.reached (7) rstReqAddr = true ∧
     Witness19.m19_2.dev.ident.closed = false ∧
     Witness19.m19_2.dev.kryup.stored = none ∧
     Witness19.m19_2.dev.fld kryupBase Reg.PROP_STATUS.STATE ≠ 2 ∧
     Witness19.m19_2.quiet = true) := by and_intros <;> decide +kernel

theorem test_wit_CausesLatchAndProposalsAreStaged :
    (More.kicked.dev.reached (0) propDataAddr = true ∧
     More.kicked.quiet = true) ∧
    (18 = 18 ∧
     More.kicked.quiet = true) ∧
    (More.kicked.dev.fld kryupBase Reg.PROP_STATUS.STATE ≠ propOpened ∧
     More.kicked.dev.reached (0) propDataAddr = true ∧
     More.kicked.quiet = true) ∧
    (Witness20.m20_5.dev.kryup.prop.length < bufferWords ∧
     Witness20.m20_5.dev.fld kryupBase Reg.PROP_STATUS.STATE = propOpened ∧
     Witness20.m20_5.dev.reached (3) propDataAddr = true ∧
     Witness20.m20_5.quiet = true) ∧
    (More.kicked.quiet = true) ∧
    (({ } : State).dev.strike.kicked = false ∧
     ({ } : State).quiet = true) ∧
    (Witness20.m20_2.dev.latched causeSupply = true ∧
     0 ≠ 18 ∧
     0 ≠ 7 ∧
     Witness20.m20_2.quiet = true) ∧
    (Witness20.m20_1.dev.polActions causeSupply = 2 ^ actLog ∧
     Witness20.m20_1.dev.latched causeSupply = false ∧
     16 ≠ 18 ∧
     16 ≠ 7 ∧
     Witness20.m20_1.quiet = true) ∧
    (Witness20.m20_5.dev.fld kryupBase Reg.PROP_STATUS.STATE = propOpened ∧
     Witness20.m20_5.dev.reached (3) propDataAddr = true ∧
     Witness20.m20_5.quiet = true) ∧
    (Witness20.m20_2.dev.kryup.lastTick.num 2 + 1 + Witness20.m20_2.dev.polHold 2 ≤ Witness20.m20_2.dev.tick ∧
     Witness20.m20_2.dev.polHold 2 ≠ 0 ∧
     Witness20.m20_2.dev.latched 2 = true ∧
     Witness20.m20_2.quiet = true) ∧
    (More.kicked.dev.fld kryupBase Reg.PROP_STATUS.STATE ≠ propSubmitted ∧
     More.kicked.dev.fld kryupBase Reg.PROP_STATUS.STATE ≠ propOpened ∧
     More.kicked.dev.reached (0) propDataAddr = true ∧
     More.kicked.quiet = true) ∧
    ((Witness20.m20_5.dev.fld kryupBase Reg.PROP_STATUS.STATE = propOpened ∨ Witness20.m20_5.dev.fld kryupBase Reg.PROP_STATUS.STATE = propSubmitted) ∧
     Witness20.m20_5.dev.reached (3) propDataAddr = true ∧
     Witness20.m20_5.quiet = true) ∧
    (More.kicked.dev.latched causeWatchdog = true ∧
     max 1 (More.kicked.dev.fld kryupBase Reg.WDG_CFG.PERIOD) ≤ More.kicked.dev.kryup.wdgTicks ∧
     More.kicked.dev.runMode = true ∧
     More.kicked.dev.load.opened = true ∧
     More.kicked.dev.flag kryupBase Reg.WDG_CFG.EN = true ∧
     More.kicked.quiet = true) := by and_intros <;> decide +kernel

theorem test_wit_TicksHeatAndTokens :
    (Witness20.m20_7.dev.latched causeTrip = true ∧
     Witness20.m20_7.dev.sensorsOn 0 5 = true ∧
     Witness20.m20_7.quiet = true) ∧
    (Witness20.m20_8.dev.latched causeCrossLost = true ∧
     Witness20.m20_8.dev.latched causeThermalHold = true ∧
     Witness20.m20_8.quiet = true) ∧
    (Witness20.m20_7.dev.heat.idleSlot.mem 255 = true ∧
     (Witness20.m20_7.dev.heat.hotMap.mem 255 || Witness20.m20_7.dev.heat.hotMap.mem (256 + 255)) = true ∧
     Witness20.m20_7.dev.tokenHeld 255 = false ∧
     Witness20.m20_7.dev.domainOn 0 = true ∧
     Witness20.m20_7.quiet = true) ∧
    ((((groupColumns 15).any fun c => decide (Witness20.m20_7.dev.threshold Reg.THM_TH.SW ≤ Witness20.m20_7.dev.columnTemp c)) = true) ∧
     Witness20.m20_7.dev.heat.pTick.num 15 + 64 ≤ Witness20.m20_7.dev.tick ∧
     Witness20.m20_7.dev.heat.pT.look 15 = some (5 : ℕ) ∧
     Witness20.m20_7.quiet = true) ∧
    ((((groupColumns 15).all fun c => decide (Witness20.m20_8.dev.columnTemp c + Witness20.m20_8.dev.hyst < Witness20.m20_8.dev.threshold Reg.THM_TH.SW)) = true) ∧
     Witness20.m20_8.dev.heat.pTick.num 15 + 64 ≤ Witness20.m20_8.dev.tick ∧
     Witness20.m20_8.dev.heat.pT.look 15 = some (2 : ℕ) ∧
     Witness20.m20_8.quiet = true) ∧
    (Witness20.m20_11.dev.columnStaging 255 = true ∧
     ((Witness20.m20_11.dev.heat.hotMap.mem 255 || Witness20.m20_11.dev.heat.hotMap.mem (256 + 255)) = false ∨ Witness20.m20_11.dev.heat.idleSlot.mem 255 = false) ∧
     Witness20.m20_11.dev.tokenHeld 255 = false ∧
     Witness20.m20_11.dev.domainOn 0 = true ∧
     Witness20.m20_11.quiet = true) ∧
    (bitOf (Witness20.m20_10.dev.heat.colStep.num 255) 0 = true ∧
     Witness20.m20_10.dev.columnStaging 255 = false ∧
     ((Witness20.m20_10.dev.heat.hotMap.mem 255 || Witness20.m20_10.dev.heat.hotMap.mem (256 + 255)) = false ∨ Witness20.m20_10.dev.heat.idleSlot.mem 255 = false) ∧
     Witness20.m20_10.dev.tokenHeld 255 = false ∧
     Witness20.m20_10.dev.domainOn 0 = true ∧
     Witness20.m20_10.quiet = true) ∧
    (Witness20.m20_8.dev.nextActivity (5) Witness20.v20_8_8.toNat false = some (Sys2Proof.Machine.Activity.peal : Activity) ∧
     Witness20.m20_8.dev.columnStaging 5 = false ∧
     ((Witness20.m20_8.dev.heat.hotMap.mem 5 || Witness20.m20_8.dev.heat.hotMap.mem (256 + 5)) = false ∨ Witness20.m20_8.dev.heat.idleSlot.mem 5 = false) ∧
     Witness20.m20_8.dev.tokenHeld 5 = false ∧
     Witness20.m20_8.dev.domainOn 0 = true ∧
     Witness20.m20_8.quiet = true) := by and_intros <;> decide +kernel

theorem test_wit_ModesAreEnteredAndLeft :
    (Witness21.m21_6.dev.proving (serialBase 2) = false ∧
     Witness21.m21_6.dev.flag powerBase Reg.PMB_CFG.EN = true ∧
     Witness21.m21_6.dev.vfab < (Witness21.m21_6.dev.vset modeRoll).getD 0 ∧
     Witness21.m21_6.dev.power.voutReq = none ∧
     (runningMode Witness21.m21_6.dev.mode = true ∧ Witness21.m21_6.dev.mode ≠ modeRoll ∧ Witness21.m21_6.dev.load.verified ≠ none ∧ Witness21.m21_6.dev.power.stage = 0) ∧
     4 = modeRoll ∧
     Witness21.m21_6.dev.reached (1) modeReqAddr = true ∧
     Witness21.m21_6.quiet = true) ∧
    (Witness21.m21_7.dev.mode ≠ modeIdle ∧
     Witness21.m21_7.dev.modeTarget = modeRoll ∧
     Witness21.m21_7.dev.power.stage = 1 ∧
     Witness21.m21_7.dev.power.voutReq = some { mv := 800, why := VoutWhy.before } ∧
     Witness21.m21_7.quiet = true) ∧
    (Witness21.m21_9.dev.flag powerBase Reg.PWR_CFG.WAKE_N_EN = true ∧
     Witness21.m21_9.dev.mode = modeDormant ∧
     Witness21.m21_9.quiet = true) ∧
    (Witness21.m21_9.dev.flag powerBase Reg.PWR_CFG.WAKE_SPI_EN = true ∧
     Witness21.m21_9.dev.mode = modeDormant ∧
     Witness21.m21_9.quiet = true) ∧
    (Witness21.m21_10.dev.flag powerBase Reg.PWR_CFG.WAKE_N_EN = false ∧
     Witness21.m21_10.dev.mode = modeDormant ∧
     Witness21.m21_10.quiet = true) ∧
    (Witness21.m21_7.dev.power.stage ≠ 0 ∧
     2 ≠ Witness21.m21_7.dev.mode ∧
     Witness21.m21_7.dev.reached (5) modeReqAddr = true ∧
     Witness21.m21_7.quiet = true) ∧
    (More.early.dev.modeBar 1 ≠ 0 ∧
     More.early.dev.fld powerBase Reg.MODE_STATUS.CHANGING = 0 ∧
     More.early.dev.power.stage = 0 ∧
     1 ≠ More.early.dev.mode ∧
     More.early.dev.reached (4) modeReqAddr = true ∧
     More.early.quiet = true) ∧
    (More.early.dev.tick < More.early.dev.power.ioutTick + 64 ∧
     More.early.dev.proving (serialBase 2) = false ∧
     More.early.dev.flag powerBase Reg.PMB_CFG.EN = true ∧
     More.early.dev.domainOn 1 = true ∧
     More.early.quiet = true) ∧
    (Witness21.m21_7.dev.power.ioutTick + 64 ≤ Witness21.m21_7.dev.tick ∧
     Witness21.m21_7.dev.proving (serialBase 2) = false ∧
     Witness21.m21_7.dev.flag powerBase Reg.PMB_CFG.EN = true ∧
     Witness21.m21_7.dev.domainOn 1 = true ∧
     Witness21.m21_7.quiet = true) ∧
    (Witness21.m21_8.dev.load.requested = false ∧
     Witness21.m21_8.dev.vfab ≤ (Witness21.m21_8.dev.vset modeRoll).getD 0 ∧
     Witness21.m21_8.dev.mode ≠ modeProof ∧
     Witness21.m21_8.dev.modeTarget = modeRoll ∧
     Witness21.m21_8.dev.power.stage = 4 ∧
     Witness21.m21_8.quiet = true) ∧
    (Witness21.m21_9.dev.power.dormTick + max 1 (Witness21.m21_9.dev.fld powerBase Reg.DORM_TIMER.TICKS) ≤ Witness21.m21_9.dev.tick ∧
     Witness21.m21_9.dev.flag powerBase Reg.PWR_CFG.WAKE_TICK_EN = true ∧
     Witness21.m21_9.dev.mode = modeDormant ∧
     Witness21.m21_9.quiet = true) ∧
    ((More.early.dev.vset modeRoll).getD 0 ≤ More.early.dev.vfab ∧
     More.early.dev.power.voutReq = none ∧
     (runningMode More.early.dev.mode = true ∧ More.early.dev.mode ≠ modeRoll ∧ More.early.dev.load.verified ≠ none ∧ More.early.dev.power.stage = 0) ∧
     4 = modeRoll ∧
     More.early.dev.reached (4) modeReqAddr = true ∧
     More.early.quiet = true) ∧
    (4 ≠ modeStart ∧
     4 = Witness21.m21_1.dev.mode ∧
     Witness21.m21_1.dev.reached (0) modeReqAddr = true ∧
     Witness21.m21_1.quiet = true) ∧
    ((¬if true = true then More.early.dev.mode = modeProof ∨ More.early.dev.mode = modeAssured else 2 ≤ More.early.dev.mode ∧ More.early.dev.mode ≤ 5) ∧
     (More.early.dev.reached (4) (powerBase + if true = true then Reg.VSET_B.off else Reg.VSET_A.off) = true) ∧
     More.early.quiet = true) ∧
    (More.early.dev.power.voutReq = none ∧
     More.early.dev.proving (serialBase 2) = false ∧
     More.early.dev.flag powerBase Reg.PMB_CFG.EN = true ∧
     (if false = true then More.early.dev.mode = modeProof ∨ More.early.dev.mode = modeAssured else 2 ≤ More.early.dev.mode ∧ More.early.dev.mode ≤ 5) ∧
     (More.early.dev.reached (4) (powerBase + if false = true then Reg.VSET_B.off else Reg.VSET_A.off) = true) ∧
     More.early.quiet = true) := by and_intros <;> decide +kernel

theorem test_wit_DomainsTurnOnOffAndFail :
    (Witness22.m22_3.dev.pd 2 = pdOn ∧
     (2 = 2 ∨ 2 = 5 ∨ 2 = 7) ∧
     Witness22.m22_3.dev.latched causeDomain = true ∧
     Witness22.m22_3.dev.power.stage = 0 ∧
     Witness22.m22_3.quiet = true) ∧
    ((domainPrereqs 7).all Witness22.m22_3.dev.domainOn = true ∧
     Witness22.m22_3.dev.pd 7 = pdOff ∧
     Witness22.m22_3.dev.reached (5) (pdBase + (Reg.PD.ON.elem 7).off) = true ∧
     Witness22.m22_3.dev.power.stage = 0 ∧
     Witness22.m22_3.quiet = true) ∧
    (Witness22.m22_3.dev.pd 2 = pdOn ∧
     Witness22.m22_3.dev.dependentOn 2 = false ∧
     (2 = 2 ∨ 2 = 5 ∨ 2 = 7) ∧
     Witness22.m22_3.dev.reached (2) (pdBase + (Reg.PD.ON.elem 2).off) = true ∧
     Witness22.m22_3.dev.power.stage = 0 ∧
     Witness22.m22_3.quiet = true) ∧
    (Witness22.m22_2.dev.power.rampTick.at (7) Witness22.m22_2.dev.tick + 4 ≤ Witness22.m22_2.dev.tick ∧
     Witness22.m22_2.dev.pd 7 = pdRamping ∧
     Witness22.m22_2.dev.latched causeDomain = true ∧
     Witness22.m22_2.dev.power.stage = 0 ∧
     Witness22.m22_2.quiet = true) ∧
    ((1 < 2 ∨ Witness22.m22_3.dev.dependentOn 1 = true) ∧
     Witness22.m22_3.dev.reached (4) (pdBase + (Reg.PD.ON.elem 1).off) = true ∧
     Witness22.m22_3.dev.power.stage = 0 ∧
     Witness22.m22_3.quiet = true) ∧
    ((∀ b ∈ domainUnits 7, Witness22.m22_2.dev.ust b = UState.off ∧ Witness22.m22_2.dev.units.standing.num b = 0 ∧ Witness22.m22_2.dev.fld b Reg.CTRL.ENABLE = 0) ∧
     Witness22.m22_2.dev.power.waiting = [] ∧
     Witness22.m22_2.dev.pd 7 = pdRamping ∧
     (7 = 2 ∨ 7 = 5 ∨ 7 = 7) ∧
     Witness22.m22_2.dev.power.stage = 0 ∧
     Witness22.m22_2.quiet = true) := by and_intros <;> decide +kernel

theorem test_wit_DamperAndAdmission :
    ((({ level := 1, began := 0x0000000000000000#64, quiet := 0x0000000000000000#64 } : Episode).level ≠ 0 ∨ ¬64 * (1 + Witness22.m22_11.dev.fld damperBase Reg.DMP_CFG.HOLD) ≤ (Witness22.m22_11.dev.clk.trunkCyc - ({ level := 1, began := 0x0000000000000000#64, quiet := 0x0000000000000000#64 } : Episode).quiet).toNat + Witness22.m22_11.dev.clk.ratioN) ∧
     Witness22.m22_11.dev.power.episodes.look 15 = some ({ level := 1, began := 0x0000000000000000#64, quiet := 0x0000000000000000#64 } : Episode) ∧
     Witness22.m22_11.dev.fld damperBase Reg.DMP_ACTIVE.WIDE = 0 ∧
     Witness22.m22_11.dev.strike.groups = [] ∧
     Witness22.m22_11.quiet = true) ∧
    (Witness22.m22_11.dev.power.stage = 0 ∧
     Witness22.m22_11.dev.nextAdmit = some 3 ∧
     Witness22.m22_11.dev.fld damperBase Reg.DMP_ACTIVE.WIDE = 0 ∧
     Witness22.m22_11.dev.strike.groups = [] ∧
     Witness22.m22_11.quiet = true) ∧
    (Witness22.m22_9.dev.power.episodes.look (groupOf 2) = none ∧
     Witness22.m22_9.dev.test.droopOut.mem (droopKey 2 2 1) = false ∧
     1 < droopSensors 2 ∧
     Witness22.m22_9.dev.fabricKHz ≠ 0 ∧
     Witness22.m22_9.dev.domainOn 0 = true ∧
     Witness22.m22_9.dev.fld damperBase Reg.DMP_ACTIVE.WIDE = 0 ∧
     Witness22.m22_9.dev.strike.groups = [] ∧
     Witness22.m22_9.quiet = true) ∧
    ((({ level := 1, began := 0x0000000000000000#64, quiet := 0x0000000000000000#64 } : Episode).level = 2 ∨ ({ level := 1, began := 0x0000000000000000#64, quiet := 0x0000000000000000#64 } : Episode).level = 1 ∧ false = false) ∧
     Witness22.m22_11.dev.power.episodes.look 15 = some ({ level := 1, began := 0x0000000000000000#64, quiet := 0x0000000000000000#64 } : Episode) ∧
     Witness22.m22_11.dev.fld damperBase Reg.DMP_ACTIVE.WIDE = 0 ∧
     Witness22.m22_11.dev.strike.groups = [] ∧
     Witness22.m22_11.quiet = true) ∧
    ((({ level := 1, began := 0x0000000000000000#64, quiet := 0x0000000000000000#64 } : Episode).level < if true = true then 2 else 1) ∧
     Witness22.m22_11.dev.power.episodes.look (groupOf 255) = some ({ level := 1, began := 0x0000000000000000#64, quiet := 0x0000000000000000#64 } : Episode) ∧
     Witness22.m22_11.dev.test.droopOut.mem (droopKey 3 255 0) = false ∧
     0 < droopSensors 3 ∧
     Witness22.m22_11.dev.fabricKHz ≠ 0 ∧
     Witness22.m22_11.dev.domainOn 0 = true ∧
     Witness22.m22_11.dev.fld damperBase Reg.DMP_ACTIVE.WIDE = 0 ∧
     Witness22.m22_11.dev.strike.groups = [] ∧
     Witness22.m22_11.quiet = true) ∧
    (64 * max 1 ((More.episode 0 : State).dev.fld damperBase Reg.DMP_CFG.WIDEN) ≤ ((More.episode 0 : State).dev.clk.trunkCyc - ({ level := 0, began := 0x0000000000000000#64, quiet := 0x0000000000000000#64 } : Episode).began).toNat + (More.episode 0 : State).dev.clk.ratioN ∧
     (More.episode 0 : State).dev.latched causeDroop = true ∧
     (More.episode 0 : State).dev.power.episodes.look 15 = some ({ level := 0, began := 0x0000000000000000#64, quiet := 0x0000000000000000#64 } : Episode) ∧
     (More.episode 0 : State).dev.fld damperBase Reg.DMP_ACTIVE.WIDE = 0 ∧
     (More.episode 0 : State).dev.strike.groups = [] ∧
     (More.episode 0 : State).quiet = true) ∧
    (64 * (1 + (More.episode 0 : State).dev.fld damperBase Reg.DMP_CFG.HOLD) ≤ ((More.episode 0 : State).dev.clk.trunkCyc - ({ level := 0, began := 0x0000000000000000#64, quiet := 0x0000000000000000#64 } : Episode).quiet).toNat + (More.episode 0 : State).dev.clk.ratioN ∧
     ({ level := 0, began := 0x0000000000000000#64, quiet := 0x0000000000000000#64 } : Episode).level = 0 ∧
     (More.episode 0 : State).dev.power.episodes.look 15 = some ({ level := 0, began := 0x0000000000000000#64, quiet := 0x0000000000000000#64 } : Episode) ∧
     (More.episode 0 : State).dev.fld damperBase Reg.DMP_ACTIVE.WIDE = 0 ∧
     (More.episode 0 : State).dev.strike.groups = [] ∧
     (More.episode 0 : State).quiet = true) := by and_intros <;> decide +kernel

theorem test_wit_ServiceTestsAndScan :
    (Witness23.m23_1.dev.ust cryptoBase = UState.stopped ∧
     Witness23.m23_1.dev.mode = modeProof ∧
     0 = 0 ∧
     Witness23.m23_1.dev.test.priv = none ∧
     Witness23.m23_1.dev.reached (7) pealPrivAddr = true ∧
     Witness23.m23_1.quiet = true) ∧
    (98305 < 2 ^ 17 ∧
     Witness23.m23_3.dev.test.bist = some 98305 ∧
     Witness23.m23_3.quiet = true) ∧
    (Witness23.m23_12.dev.fld stctlBase Reg.SCAN_PERMIT.EN = 0 ∧
     Witness23.m23_12.quiet = true) ∧
    (3 = 3 ∧
     Witness23.m23_1.dev.test.priv = none ∧
     Witness23.m23_1.dev.reached (2) pealPrivAddr = true ∧
     Witness23.m23_1.quiet = true) ∧
    (Witness23.m23_3.dev.latched causeScan = true ∧
     Witness23.m23_3.dev.fld stctlBase Reg.SCAN_PERMIT.EN = 1 ∧
     Witness23.m23_3.quiet = true) ∧
    (Witness23.m23_3.dev.ust cryptoBase = UState.isolated ∧
     cryptoBase = cryptoBase ∧
     Witness23.m23_3.dev.test.priv = some cryptoBase ∧
     Witness23.m23_3.quiet = true) ∧
    ((Witness23.m23_2.dev.mode ≠ modeProof ∨ Witness23.m23_2.dev.load.opened = true) ∧
     Witness23.m23_2.dev.test.bist = none ∧
     Witness23.m23_2.dev.reached (7) bistCmdAddr = true ∧
     Witness23.m23_2.quiet = true) ∧
    (Witness23.m23_1.dev.runs stctlBase = true ∧
     Witness23.m23_1.dev.load.opened = false ∧
     Witness23.m23_1.dev.mode = modeProof ∧
     Witness23.m23_1.dev.test.bist = none ∧
     Witness23.m23_1.dev.reached (2) bistCmdAddr = true ∧
     Witness23.m23_1.quiet = true) := by and_intros <;> decide +kernel

theorem test_wit_PealRelievesBanks :
    (8 < 2 ^ 19 ∧
     Witness23.v23_5_7.phase = 0 ∧
     bitOf (Witness23.m23_5.dev.heat.colStep.num (Witness23.v23_5_7.bank / 8)) 0 = false ∧
     Witness23.m23_5.dev.canonical = true ∧
     Witness23.v23_5_7.bank < 2048 ∧
     Witness23.v23_5_7.permanent = false ∧
     Witness23.m23_5.dev.mem.relief.look 15 = some Witness23.v23_5_7 ∧
     Witness23.m23_5.quiet = true) ∧
    (8 < 2 ^ 19 ∧
     Witness23.v23_6_7.phase = 1 ∧
     bitOf (Witness23.m23_6.dev.heat.colStep.num (Witness23.v23_6_7.bank / 8)) 0 = false ∧
     Witness23.m23_6.dev.canonical = true ∧
     Witness23.v23_6_7.bank < 2048 ∧
     Witness23.v23_6_7.permanent = false ∧
     Witness23.m23_6.dev.mem.relief.look 15 = some Witness23.v23_6_7 ∧
     Witness23.m23_6.quiet = true) ∧
    (Witness23.v23_5_7.phase = 0 ∧
     bitOf (Witness23.m23_5.dev.heat.colStep.num (Witness23.v23_5_7.bank / 8)) 0 = false ∧
     Witness23.m23_5.dev.canonical = true ∧
     Witness23.v23_5_7.bank < 2048 ∧
     Witness23.v23_5_7.permanent = false ∧
     Witness23.m23_5.dev.mem.relief.look 15 = some Witness23.v23_5_7 ∧
     Witness23.m23_5.quiet = true) ∧
    (Witness23.v23_6_7.phase = 1 ∧
     bitOf (Witness23.m23_6.dev.heat.colStep.num (Witness23.v23_6_7.bank / 8)) 0 = false ∧
     Witness23.m23_6.dev.canonical = true ∧
     Witness23.v23_6_7.bank < 2048 ∧
     Witness23.v23_6_7.permanent = false ∧
     Witness23.m23_6.dev.mem.relief.look 15 = some Witness23.v23_6_7 ∧
     Witness23.m23_6.quiet = true) ∧
    (Witness23.m23_7.dev.power.stage = 0 ∧
     Witness23.v23_7_7.phase = 2 ∧
     bitOf (Witness23.m23_7.dev.heat.colStep.num (Witness23.v23_7_7.bank / 8)) 0 = false ∧
     Witness23.m23_7.dev.canonical = true ∧
     Witness23.v23_7_7.bank < 2048 ∧
     Witness23.v23_7_7.permanent = false ∧
     Witness23.m23_7.dev.mem.relief.look 15 = some Witness23.v23_7_7 ∧
     Witness23.m23_7.quiet = true) ∧
    (8 < 2 ^ 19 ∧
     Witness23.m23_7.dev.power.stage = 0 ∧
     Witness23.v23_7_7.phase = 2 ∧
     bitOf (Witness23.m23_7.dev.heat.colStep.num (Witness23.v23_7_7.bank / 8)) 0 = false ∧
     Witness23.m23_7.dev.canonical = true ∧
     Witness23.v23_7_7.bank < 2048 ∧
     Witness23.v23_7_7.permanent = false ∧
     Witness23.m23_7.dev.mem.relief.look 15 = some Witness23.v23_7_7 ∧
     Witness23.m23_7.quiet = true) ∧
    ((Witness23.m23_6.dev.sparesUsed Witness23.v23_6_7.bank false).length = 0 ∧
     Witness23.v23_6_7.phase = 1 ∧
     bitOf (Witness23.m23_6.dev.heat.colStep.num (Witness23.v23_6_7.bank / 8)) 0 = false ∧
     Witness23.m23_6.dev.canonical = true ∧
     Witness23.v23_6_7.bank < 2048 ∧
     Witness23.v23_6_7.permanent = false ∧
     Witness23.m23_6.dev.mem.relief.look 15 = some Witness23.v23_6_7 ∧
     Witness23.m23_6.quiet = true) ∧
    (Witness23.m23_4.dev.reliefFree (groupOf 255) = true ∧
     (Witness23.m23_4.dev.runs stctlBase = true ∧ Witness23.m23_4.dev.flag stctlBase Reg.PEAL_CTRL.EN = true ∧ bitOf (Witness23.m23_4.dev.fld stctlBase Reg.PEAL_CTRL.KIND_EN) (2 - 1) = true ∧ Witness23.m23_4.dev.pealPermits (groupOf 255) = true ∧ Witness23.m23_4.dev.holdsToken (255) Activity.peal = true ∧ bitOf (Witness23.m23_4.dev.heat.colStep.num 255) 0 = false) ∧
     Witness23.m23_4.quiet = true) ∧
    (Witness23.m23_4.dev.pealFits (255) (PealWork.relief 0) = true ∧
     (Witness23.m23_4.dev.runs stctlBase = true ∧ Witness23.m23_4.dev.flag stctlBase Reg.PEAL_CTRL.EN = true ∧ bitOf (Witness23.m23_4.dev.fld stctlBase Reg.PEAL_CTRL.KIND_EN) (1 - 1) = true ∧ Witness23.m23_4.dev.pealPermits (groupOf 255) = true ∧ Witness23.m23_4.dev.holdsToken (255) Activity.peal = true ∧ bitOf (Witness23.m23_4.dev.heat.colStep.num 255) 0 = false) ∧
     Witness23.m23_4.quiet = true) := by and_intros <;> decide +kernel

theorem test_wit_RepairsLastAndLoopsAreTested :
    (Witness23.m23_8.dev.ident.closed = true ∧
     Witness23.m23_8.dev.test.softMap.length + Witness23.m23_8.dev.test.log.length ≤ 4096 ∧
     Witness23.m23_8.dev.test.repRun = none ∧
     Witness23.m23_8.dev.reached (1) repCmdAddr = true ∧
     Witness23.m23_8.quiet = true) ∧
    (Witness23.m23_9.dev.ident.closed = false ∧
     Witness23.m23_9.dev.test.softMap.length + Witness23.m23_9.dev.test.log.length ≤ 4096 ∧
     Witness23.m23_9.dev.test.repRun = none ∧
     Witness23.m23_9.dev.reached (5) repCmdAddr = true ∧
     Witness23.m23_9.quiet = true) ∧
    (Witness23.m23_10.dev.test.repRun = some ([] : List Word) ∧
     Witness23.m23_10.quiet = true) ∧
    (Witness23.m23_10.dev.test.repRun ≠ none ∧
     Witness23.m23_10.dev.reached (1) repCmdAddr = true ∧
     Witness23.m23_10.quiet = true) ∧
    (Witness23.m23_8.dev.proving (laneBase 143) = true ∧
     Witness23.m23_8.dev.reached (7) (laneBase 143 + 1536 + Reg.PRF_CTRL.off) = true ∧
     Witness23.m23_8.quiet = true) ∧
    (Witness23.m23_9.dev.latched causeKwWrite = true ∧
     5 ≠ pathKryup ∧
     Witness23.m23_9.dev.reached (5) (stctlBase + Reg.REP_FUSE.W0.off) = true ∧
     Witness23.m23_9.quiet = true) ∧
    (Witness23.m23_9.dev.test.softMap.length + Witness23.m23_9.dev.test.log.length ≤ 4096 ∧
     Witness23.m23_9.dev.test.repRun = none ∧
     Witness23.m23_9.dev.reached (5) repCmdAddr = true ∧
     Witness23.m23_9.quiet = true) ∧
    (1000 < (Witness23.m23_8.dev.proofRec (laneBase 143)).errors ∧
     Witness23.m23_8.dev.fld (laneBase 143 + 1536) Reg.PRF_STATUS.SYNC = 1 ∧
     Witness23.m23_8.dev.proving (laneBase 143) = true ∧
     Witness23.m23_8.quiet = true) ∧
    (Witness23.m23_10.dev.pins.burned < 1536 ∧
     bitOf Witness23.m23_10.dev.power.railsGood 18 = true ∧
     7 = pathKryup ∧
     Witness23.m23_10.dev.reached (7) (stctlBase + Reg.REP_FUSE.W0.off) = true ∧
     Witness23.m23_10.quiet = true) ∧
    ((bitOf Witness23.m23_8.dev.power.railsGood 18 = false ∨ Witness23.m23_8.dev.pins.burned = 1536) ∧
     7 = pathKryup ∧
     Witness23.m23_8.dev.reached (7) (stctlBase + Reg.REP_FUSE.W0.off) = true ∧
     Witness23.m23_8.quiet = true) ∧
    (Witness23.m23_8.dev.test.log[0]? = some ({ w0 := 0x00000005#32, w1 := 0x20000000#32 } : RepEntry) ∧
     Witness23.m23_8.dev.test.softMap.length + Witness23.m23_8.dev.test.log.length ≤ 4096 ∧
     Witness23.m23_8.dev.test.repRun = none ∧
     Witness23.m23_8.dev.reached (1) repCmdAddr = true ∧
     Witness23.m23_8.quiet = true) := by and_intros <;> decide +kernel

theorem test_wit_PinsSuppliesAndFlash :
    (Witness24.m24_2.dev.pins.flashRun = none ∧
     Witness24.m24_2.dev.reached (3) flCmdAddr = true ∧
     Witness24.m24_2.quiet = true) ∧
    (flashOpen 262144 = true ∧
     flProgram = flProgram ∧
     Witness24.m24_11.dev.pins.flashRun = some (flProgram, 262144, Witness24.v24_12_4) ∧
     Witness24.m24_11.quiet = true) ∧
    (flashOpen 262144 = true ∧
     2 = flErase ∧
     (Witness24.fr (some (2, 262144, 10)) : State).dev.pins.flashRun = some (2, 262144, (10#32 : Word)) ∧
     (Witness24.fr (some (2, 262144, 10)) : State).quiet = true) ∧
    (Witness24.m24_2.dev.bankGood 7 = true ∧
     Witness24.m24_2.quiet = true) ∧
    (({ } : State).dev.runs (pinBank 10) = false ∧
     ({ } : State).quiet = true) ∧
    (Witness24.m24_1.dev.reached (7) (pinsBase + Reg.PIN_MUX.off + 4 * 2) = true ∧
     Witness24.m24_1.quiet = true) ∧
    (Witness24.m24_1.dev.mode ≠ modeStart ∧
     Witness24.m24_1.dev.load.step ≠ BootStep.power ∧
     Witness24.m24_1.dev.bankGood 4 = false ∧
     Witness24.m24_1.quiet = true) ∧
    (Witness24.m24_1.dev.proofDepth (pinBank 319) = none ∧
     Witness24.m24_1.dev.runs (pinBank 319) = true ∧
     Witness24.m24_1.dev.hotSocket 319 = true ∧
     Witness24.m24_1.quiet = true) ∧
    (0 ≠ 262144 / 4 ∧
     flashOpen 262144 = true ∧
     flProgram = flProgram ∧
     Witness24.m24_11.dev.pins.flashRun = some (flProgram, 262144, Witness24.v24_12_4) ∧
     Witness24.m24_11.quiet = true) ∧
    (flashOpen 260 = true ∧
     0 = flRead ∧
     (Witness24.fr (some (0, 260, 8)) : State).dev.pins.flashRun = some (0, 260, (8#32 : Word)) ∧
     (Witness24.fr (some (0, 260, 8)) : State).quiet = true) ∧
    (flashOpen 262144 = true ∧
     (flProgram = flProgram ∨ flProgram = flErase) ∧
     Witness24.m24_11.dev.pins.flashRun = some (flProgram, 262144, Witness24.v24_12_4) ∧
     Witness24.m24_11.quiet = true) ∧
    (flashOpen 4096 = false ∧
     (2 = flProgram ∨ 2 = flErase) ∧
     (Witness24.fr (some (2, 4096, 10)) : State).dev.pins.flashRun = some (2, 4096, (10#32 : Word)) ∧
     (Witness24.fr (some (2, 4096, 10)) : State).quiet = true) := by and_intros <;> decide +kernel

theorem test_wit_FramesJtagAndSerialPorts :
    (More.at60_4.quiet = true) ∧
    (More.at60_4.dev.spi1Open = false ∧
     More.at60_4.quiet = true) ∧
    (Witness24.m24_3.dev.spi1Open = true ∧
     Witness24.m24_3.quiet = true) ∧
    (3 = 3 ∧
     (¬(Witness24.m24_16.dev.serialRec 3).rx.length < 64) ∧
     Witness24.m24_16.dev.serReceives 3 = true ∧
     Witness24.m24_16.quiet = true) ∧
    (More.at60_4.dev.jtagPending = false ∧
     More.at60_4.quiet = true) ∧
    (Witness24.m24_4.dev.jtagPending = true ∧
     Witness24.m24_4.quiet = true) ∧
    (More.at60_4.dev.reached (7) (serialBase ↑5 + Reg.SER_TX.off) = true ∧
     More.at60_4.quiet = true) ∧
    ((More.at60_8.dev.serialRec ↑5).rx.length < 64 ∧
     More.at60_8.dev.serReceives ↑5 = true ∧
     More.at60_8.quiet = true) ∧
    (false = false ∧
     ↑5 ≠ 3 ∧
     (¬(More.at60_4.dev.serialRec ↑5).rx.length < 64) ∧
     More.at60_4.dev.serReceives ↑5 = true ∧
     More.at60_4.quiet = true) ∧
    ((More.at60_7.dev.serialRec ↑3).rx = [] ∧
     More.at60_7.dev.reached (7) (serialBase ↑3 + Reg.SER_RX.off) = true ∧
     More.at60_7.quiet = true) ∧
    ((7 ≠ 2 ∨ ([8] : List Byte).length < 8) ∧
     (7 ≠ 11 ∨ ([8] : List Byte).length < 4) ∧
     Witness24.m24_3.dev.spi1Open = true ∧
     Witness24.m24_3.quiet = true) ∧
    (More.at60_8.dev.proving (serialBase ↑5) = false ∧
     (More.at60_8.dev.serialRec ↑5).tx = 7 :: ([] : List Byte) ∧
     More.at60_8.dev.serSends ↑5 = true ∧
     More.at60_8.quiet = true) ∧
    (Witness24.m24_6.dev.serBusy 2 = true ∧
     Witness24.m24_6.dev.hostPort 2 = true ∧
     Witness24.m24_6.dev.reached (2) (serialBase 2 + Reg.SER_CMD.off) = true ∧
     Witness24.m24_6.quiet = true) ∧
    ((More.at60_7.dev.serialRec ↑3).rx.length < 64 ∧
     More.at60_7.dev.proving (serialBase ↑3) = true ∧
     (More.at60_7.dev.serialRec ↑3).tx = 7 :: ([] : List Byte) ∧
     More.at60_7.dev.serSends ↑3 = true ∧
     More.at60_7.quiet = true) ∧
    ((Witness24.m24_6.dev.serialRec 2).rx = ({ byte := 5, bad := true } : RxByte) :: ((Witness24.m24_7.dev.serialRec 5).rx : List RxByte) ∧
     Witness24.m24_6.dev.reached (0) (serialBase 2 + Reg.SER_RX.off) = true ∧
     Witness24.m24_6.quiet = true) ∧
    (Witness24.m24_5.dev.bootReads = false ∧
     Witness24.m24_5.dev.proving (serialBase 0) = false ∧
     Witness24.m24_5.dev.runs (serialBase 0) = true ∧
     Witness24.m24_5.dev.serBusy 0 = false ∧
     Witness24.m24_5.dev.hostPort 0 = true ∧
     Witness24.m24_5.dev.reached (1) (serialBase 0 + Reg.SER_CMD.off) = true ∧
     Witness24.m24_5.quiet = true) ∧
    (12 ≤ 64 ∧
     12 ≤ Witness24.m24_6.dev.fld (serialBase 2) Reg.SER_CMD.WR_LEN ∧
     ([8] : List Byte).length ≤ Witness24.m24_6.dev.fld (serialBase 2) Reg.SER_CMD.RD_LEN ∧
     (Witness24.m24_6.dev.serialRec 2).rx.length + ([8] : List Byte).length ≤ 64 ∧
     (Witness24.m24_6.dev.serialRec 2).busy = true ∧
     (2 = 2 ∨ 2 = 3 ∨ 2 = 0 ∧ if Witness24.m24_6.dev.flag (serialBase 2) Reg.SER_CMD.WRITE = true then ([8] : List Byte) = [] else 12 = 0) ∧
     Witness24.m24_6.quiet = true) := by and_intros <;> decide +kernel

end
end

/-! # The trunk lane's FIR setting (R120) -/

namespace Sys2Proof.Machine

/-- Trunk lane 128 in STOPPED with power domain 1 on and the reset FIR setting, and with a rejected partial image recorded against
the lane's own window (R385). R79 places an image's units in shells alone, so no image makes this record; the statement
quantifies over every quiet machine and does not exclude it. -/
def trunkLaneOfRejectedImage : Dev :=
  ((({} : Dev).setPd 1 pdOn).setFld (laneBase 128) Reg.STATE.SELF UState.stopped.code).modUnits
    fun u => { u with user := u.user.put (laneBase 128) { badImage := true } }

theorem trunkLaneOfRejectedImage_quiet : trunkLaneOfRejectedImage.quiet = true := by decide +kernel

/-- Nothing that R120 or R111 names stands against the lane's start. -/
theorem trunkLaneOfRejectedImage_starts :
    trunkLaneOfRejectedImage.reached 7 (ctrlAddr (laneBase 128)) = true ∧
      trunkLaneOfRejectedImage.ust (laneBase 128) = .stopped ∧
      (trunkLaneOfRejectedImage.reg (ctrlAddr (laneBase 128))).toNat = 0 ∧
      trunkLaneOfRejectedImage.rateOk (128 / 8) (trunkLaneOfRejectedImage.fld (laneBase 128) Reg.LANE_CFG.TX_DIV) = true ∧
      trunkLaneOfRejectedImage.rateOk (128 / 8) (trunkLaneOfRejectedImage.fld (laneBase 128) Reg.LANE_CFG.RX_DIV) = true := by
  decide +kernel

theorem trunkLaneOfRejectedImage_firValid :
    trunkLaneOfRejectedImage.fld (laneBase 128) Reg.TX_FIR.PRE + trunkLaneOfRejectedImage.fld (laneBase 128) Reg.TX_FIR.POST ≤ 24 := by
  decide +kernel

/-- The rejected image ends the start in FAULTED all the same. -/
theorem trunkLaneOfRejectedImage_enable_faults :
    (opEnable 7 (laneBase 128) trunkLaneOfRejectedImage).settle.ust (laneBase 128) = .faulted := by decide +kernel

/-- What an ENABLE completes with is its update of the machine, settled. -/
theorem completes_unitEnable_iff {path : Fin 8} {b : Nat} {s : State} {P : Dev → Prop} :
    Completes (.unitEnable path b) s P ↔ P (opEnable path b s.dev).settle := by
  have he : exec (.unitEnable path b) s = onDev (opEnable path b) s := rfl
  refine ⟨?_, completes_any he⟩
  rintro ⟨t, ht, -, hP⟩
  rw [he, onDev_next] at ht
  cases ht
  exact hP

/-- Refutes O20 in its last clause: a valid stored setting does not let every stopped lane begin. `Dev.enable` fails the start of
any unit, a trunk lane too, against which a rejected partial image is recorded (R385), and no hypothesis of the statement keeps such
a record from the lane. -/
theorem not_firSettingIsStoredAndApplied : ¬ Obligations.FirSettingIsStoredAndApplied := by
  unfold Obligations.FirSettingIsStoredAndApplied
  intro h
  obtain ⟨-, -, hValid⟩ := h { dev := trunkLaneOfRejectedImage } 7 0 0 0 trunkLaneOfRejectedImage_quiet
  have hBegins := hValid trunkLaneOfRejectedImage_starts trunkLaneOfRejectedImage_firValid
  obtain ⟨hStarting, -, -⟩ := completes_unitEnable_iff.mp hBegins
  exact absurd (hStarting.symm.trans trunkLaneOfRejectedImage_enable_faults) (by decide)

end Sys2Proof.Machine

/-! # ANNOUNCE pairs (R161) -/

namespace Sys2Proof.Machine

/-! ## Whole registers and fields of one window -/

/-- A write of a register that is one field is a write of the field. -/
theorem setReg_eq_setFld {d : Dev} {b : Nat} {f : Fld} {v : Word} (hlo : f.lo = 0) (hw : f.width = 32) :
    d.setReg (b + f.off) v = d.setFld b f v.toNat := by
  have hv : fset (d.reg (b + f.off)) f v.toNat = v := by
    refine BitVec.eq_of_getLsbD_eq fun i hi => ?_
    rw [getLsbD_fset, if_pos (by omega), hlo]
    rfl
  rw [Dev.setFld, hv]

/-- Two fields of one window share no bit: they lie in different registers, or apart in one. -/
def Fld.clear (f g : Fld) : Bool := decide (f.off ≠ g.off) || f.apart g

theorem fld_setFld_clear {d : Dev} {b : Nat} {f g : Fld} {n : Nat} (h : f.clear g) : (d.setFld b f n).fld b g = d.fld b g := by
  by_cases ho : f.off = g.off
  · exact fld_setFld_apart ho.symm (by simpa [Fld.clear, ho] using h)
  · exact fld_setFld_other (by omega)

/-! ## What a lane sends and negotiates, said of its registers and its link record -/

@[simp] theorem link_modLink_same (d : Dev) (n : Nat) (f : LinkRec → LinkRec) : (d.modLink n f).link n = f (d.link n) := by
  simp [Dev.link, Dev.modLink, SMap.at_set]

/-- The sampled PIN, the waiting messages and the last ANNOUNCE received are as they were. -/
structure LinkKept (k l : LinkRec) : Prop where
  pin : l.pin = k.pin
  txQueue : l.txQueue = k.txQueue
  lastAnn : l.lastAnn = k.lastAnn

theorem LinkKept.refl (k : LinkRec) : LinkKept k k := ⟨rfl, rfl, rfl⟩

theorem LinkKept.trans {k l m : LinkRec} (h1 : LinkKept k l) (h2 : LinkKept l m) : LinkKept k m :=
  ⟨h2.pin.trans h1.pin, h2.txQueue.trans h1.txQueue, h2.lastAnn.trans h1.lastAnn⟩

/-- Only fields listed of lane `n`'s window may have changed, and of link records, but what negotiation reads of lane `n`'s is kept. -/
structure LinkStep (n : Nat) (fs : List Fld) (d e : Dev) : Prop where
  parts : OnlyParts [.regs, .links] d e
  regs : OnlyRegs (fs.map fun f => laneBase n + f.off) d e
  flds : ∀ g : Fld, (∀ f ∈ fs, f.clear g) → e.fld (laneBase n) g = d.fld (laneBase n) g
  link : LinkKept (d.link n) (e.link n)

namespace LinkStep

variable {n : Nat} {fs gs : List Fld} {c d e : Dev}

theorem refl (n : Nat) (fs : List Fld) (d : Dev) : LinkStep n fs d d :=
  ⟨onlyParts_refl _ d, fun _ _ => rfl, fun _ _ => rfl, .refl _⟩

theorem trans (h1 : LinkStep n fs c d) (h2 : LinkStep n fs d e) : LinkStep n fs c e :=
  ⟨h1.parts.trans h2.parts, fun a ha => (h2.regs a ha).trans (h1.regs a ha),
    fun g hg => (h2.flds g hg).trans (h1.flds g hg), h1.link.trans h2.link⟩

theorem mono (h : LinkStep n fs d e) (hs : fs ⊆ gs) : LinkStep n gs d e :=
  ⟨h.parts, fun a ha => h.regs a fun k => ha (List.map_subset _ hs k), fun g hg => h.flds g fun f hf => hg f (hs hf), h.link⟩

/-- The registers lie in the lane's window. -/
theorem window (h : LinkStep n fs d e) (hs : ∀ f ∈ fs, f.off < 0x1000) : OnlyWindow (laneBase n) d e := by
  intro a ha
  refine h.regs a fun hm => ha ?_
  obtain ⟨f, hf, rfl⟩ := List.mem_map.mp hm
  have := hs f hf
  omega

theorem setFld (h : LinkStep n fs c d) {f : Fld} (hf : f ∈ fs) (v : Nat) : LinkStep n fs c (d.setFld (laneBase n) f v) where
  parts := (onlyParts_setFld d _ f v (by simp)).mpr h.parts
  regs a ha := by
    rw [reg_setFld, if_neg (by rintro rfl; exact ha (List.mem_map_of_mem hf)), h.regs a ha]
  flds g hg := (fld_setFld_clear (hg f hf)).trans (h.flds g hg)
  link := h.link

theorem setReg (h : LinkStep n fs c d) {f : Fld} (hf : f ∈ fs) (hlo : f.lo = 0) (hw : f.width = 32) (v : Word) :
    LinkStep n fs c (d.setReg (laneBase n + f.off) v) := by
  rw [setReg_eq_setFld hlo hw]; exact h.setFld hf _

theorem raise (h : LinkStep n fs c d) {f : Fld} (hf : f ∈ fs) : LinkStep n fs c (d.raise (laneBase n) f) := h.setFld hf 1

theorem raiseIf (h : LinkStep n fs c d) {f : Fld} (hf : f ∈ fs) (p : Bool) : LinkStep n fs c (d.raiseIf p (laneBase n) f) := by
  unfold Dev.raiseIf; split
  · exact h.raise hf
  · exact h

theorem ite {p : Prop} [Decidable p] (hd : LinkStep n fs c d) (he : LinkStep n fs c e) :
    LinkStep n fs c (if p then d else e) := by
  split <;> assumption

theorem modLink (h : LinkStep n fs c d) {f : LinkRec → LinkRec} (hf : LinkKept (d.link n) (f (d.link n))) :
    LinkStep n fs c (d.modLink n f) where
  parts := (onlyParts_modLink d n f (by simp)).mpr h.parts
  regs := h.regs
  flds := h.flds
  link := by rw [link_modLink_same]; exact h.link.trans hf

end LinkStep

theorem put_kept (l : LinkRec) (pol control : Bool) (p : Payload) : LinkKept l (l.put pol control p) := ⟨rfl, rfl, rfl⟩

theorem send_kept (l : LinkRec) (i : Nat) (pol control : Bool) (p : Payload) : LinkKept l (l.send i pol control p) := by
  unfold LinkRec.send
  dsimp only
  split <;> exact ⟨rfl, rfl, rfl⟩

theorem foldl_send_kept (i : Nat) (pol : Bool) (bs : List (Bool × Payload)) (l : LinkRec) :
    LinkKept l (bs.foldl (fun l b => l.send i pol b.1 b.2) l) := by
  induction bs generalizing l with
  | nil => exact .refl l
  | cons b bs ih => exact (send_kept l i pol b.1 b.2).trans (ih _)

namespace LinkStep

variable {n : Nat} {fs : List Fld} {c d : Dev}

theorem sendBlocks (h : LinkStep n fs c d) (bs : List (Bool × Payload)) : LinkStep n fs c (d.sendBlocks n bs) := by
  unfold Dev.sendBlocks
  exact h.modLink (foldl_send_kept _ _ bs _)

theorem sendControl (h : LinkStep n fs c d) (p : Payload) : LinkStep n fs c (d.sendControl n p) :=
  ite h ((h.sendBlocks _).modLink ⟨rfl, rfl, rfl⟩)

theorem sendAnnounce (h : LinkStep n fs c d) : LinkStep n fs c (d.sendAnnounce n) := h.sendControl _

theorem creditReset (h : LinkStep n fs c d) : LinkStep n fs c (d.creditReset n) := by
  unfold Dev.creditReset
  exact h.modLink ⟨rfl, rfl, rfl⟩

theorem creditResetIf (h : LinkStep n fs c d) (p : Prop) [Decidable p] :
    LinkStep n fs c (if p then d.creditReset n else d) := ite h.creditReset h

/-- Nothing waits, so nothing is discarded. -/
theorem txPurge (h : LinkStep n fs c d) (hq : (c.link n).txQueue = []) : LinkStep n fs c (d.txPurge n) := by
  have hd : (d.link n).txQueue = [] := h.link.txQueue.trans hq
  unfold Dev.txPurge
  simp only [hd, List.filter_nil, Dev.each, List.foldl_nil]
  exact h.modLink ⟨rfl, by simp [hd], rfl⟩

end LinkStep

/-- The far-end loop sends a block again and touches nothing but the lane's link record. -/
theorem retransmit_block_step (n : Nat) (d : Dev) (control : Bool) (p : Payload) :
    LinkStep n [] d (d.retransmit n (.block control p)) := by
  have h := LinkStep.refl n [] d
  exact .ite h (.ite (h.modLink ⟨rfl, rfl, rfl⟩) ((h.sendBlocks _).modLink ⟨rfl, rfl, rfl⟩))

/-- A command confined to a lane's window and link record leaves a quiet machine quiet. -/
theorem quiet_of_lane_window {n : Nat} {d e : Dev} (hp : OnlyParts [.regs, .links] d e) (hw : OnlyWindow (laneBase n) d e) :
    e.quiet = d.quiet := by
  have hstack : e.stack = d.stack := hp .stack (by simp)
  refine quiet_congr (hp .kryup (by simp)) (hp .clk (by simp)) (hw _ ?_) (by rw [hstack])
  simp only [laneBase, rootBase, Reg.IRQ_CTRL.off]
  omega

/-! ## A pair is accepted -/

/-- The first part of an acceptance: the partner's versions and features are shown, and SEEN goes out as 1 from now on. -/
def Dev.showsPeer (d : Dev) (n : Nat) (p : Payload) : Dev :=
  let b := laneBase n
  (((d.setFld b Reg.LINK_VER.PEER_HIGH (bitsOf p.toNat 8 8)).setFld b Reg.LINK_VER.PEER_LOW (bitsOf p.toNat 16 8)).setReg
    (b + Reg.PEER_FEAT.FEATURES.off) (BitVec.ofNat 32 (bitsOf p.toNat 32 32))).setFld b Reg.LINK_STATE.SEEN_TX 1

/-- The fields that show an accepted pair. -/
def peerFlds : List Fld := [Reg.LINK_VER.PEER_HIGH, Reg.LINK_VER.PEER_LOW, Reg.PEER_FEAT.FEATURES, Reg.LINK_STATE.SEEN_TX]

/-- What an acceptance writes before NEGO, where negotiation had assumed version 1.0. -/
def resumeFlds : List Fld := [Reg.LINK_EVENT.ANNOUNCE_LATE, Reg.LINK_STATE.ANNOUNCE_TX]

/-- What it writes after NEGO: the version and features in force, and the events. -/
def agreeFlds : List Fld :=
  [Reg.LINK_EVENT.UP, Reg.LINK_EVENT.VERSION_CHANGE, Reg.LINK_EVENT.NO_COMMON, Reg.LINK_VER.NEGOTIATED, Reg.AGREED_FEAT.FEATURES]

/-- NEGO after an acceptance (R162, R164). -/
def negoAfter (pin : Nat) (p : Payload) : Nat :=
  if (bestVersion (bitsOf p.toNat 16 8) (min pin (bitsOf p.toNat 8 8))).isSome then negoUp else negoNoCommon

theorem showsPeer_step (n : Nat) (d : Dev) (p : Payload) : LinkStep n peerFlds d (d.showsPeer n p) :=
  ((((LinkStep.refl n peerFlds d).setFld (by simp [peerFlds]) _).setFld (by simp [peerFlds]) _).setReg
    (by simp [peerFlds]) rfl rfl _).setFld (by simp [peerFlds]) _

theorem bitsOf_lt (x lo w : Nat) : bitsOf x lo w < 2 ^ w := Nat.mod_lt _ (Nat.two_pow_pos w)

theorem fld_showsPeer (n : Nat) (d : Dev) (p : Payload) :
    let e := d.showsPeer n p
    e.fld (laneBase n) Reg.LINK_VER.PEER_HIGH = bitsOf p.toNat 8 8 ∧ e.fld (laneBase n) Reg.LINK_VER.PEER_LOW = bitsOf p.toNat 16 8 ∧
      e.fld (laneBase n) Reg.PEER_FEAT.FEATURES = bitsOf p.toNat 32 32 ∧ e.fld (laneBase n) Reg.LINK_STATE.SEEN_TX = 1 := by
  have hmod (lo w : Nat) : bitsOf p.toNat lo w % 2 ^ w = bitsOf p.toNat lo w := Nat.mod_eq_of_lt (bitsOf_lt _ _ _)
  simp only [Dev.showsPeer, setReg_eq_setFld (f := Reg.PEER_FEAT.FEATURES) rfl rfl, BitVec.toNat_ofNat, hmod]
  refine ⟨?_, ?_, ?_, fld_setFld_same (by decide)⟩
  · rw [fld_setFld_clear (by decide), fld_setFld_clear (by decide), fld_setFld_clear (by decide), fld_setFld_same (by decide)]
    exact hmod 8 8
  · rw [fld_setFld_clear (by decide), fld_setFld_clear (by decide), fld_setFld_same (by decide)]
    exact hmod 16 8
  · rw [fld_setFld_clear (by decide), fld_setFld_same (by decide)]
    exact hmod 32 32

/-- Where version 1.0 had been assumed, the pair came late and the lane announces again (R164). -/
def Dev.resumesAnnounce (d : Dev) (n old : Nat) : Dev :=
  if old = negoAssumed then
    ((d.raise (laneBase n) Reg.LINK_EVENT.ANNOUNCE_LATE).setFld (laneBase n) Reg.LINK_STATE.ANNOUNCE_TX 1).sendAnnounce n
  else d

theorem resumesAnnounce_step (n : Nat) (d : Dev) (old : Nat) : LinkStep n resumeFlds d (d.resumesAnnounce n old) :=
  .ite (((LinkStep.refl _ _ _).raise (by simp [resumeFlds])).setFld (by simp [resumeFlds]) _).sendAnnounce (.refl _ _ _)

/-- After the partner is shown an acceptance sets NEGO, and from there it writes the version, the features and the events alone. -/
theorem acceptPair_afterNego {n : Nat} {d : Dev} (p : Payload) (hq : (d.link n).txQueue = []) :
    LinkStep n agreeFlds (((d.showsPeer n p).resumesAnnounce n (d.nego n)).setNego n (negoAfter (d.link n).pin p))
      (d.acceptPair n p) := by
  have hmq : (((d.showsPeer n p).resumesAnnounce n (d.nego n)).link n).txQueue = [] :=
    ((showsPeer_step n d p).link.trans (resumesAnnounce_step n _ _).link).txQueue.trans hq
  have h0 := LinkStep.refl n agreeFlds
  unfold Dev.acceptPair negoAfter
  cases hv : bestVersion (bitsOf p.toNat 16 8) (min (d.link n).pin (bitsOf p.toNat 8 8)) with
  | some v =>
    simp only [hv]
    exact (((((h0 _).raiseIf (by simp [agreeFlds]) _).raiseIf (by simp [agreeFlds]) _).setFld (by simp [agreeFlds]) _).setReg
      (by simp [agreeFlds]) rfl rfl _).creditResetIf _ |>.txPurge hmq
  | none =>
    simp only [hv]
    exact ((((h0 _).raiseIf (by simp [agreeFlds]) _).creditResetIf _).setFld (by simp [agreeFlds]) _).setReg
      (by simp [agreeFlds]) rfl rfl _ |>.txPurge hmq

/-- All that an acceptance may write. -/
def acceptFlds : List Fld := peerFlds ++ resumeFlds ++ Reg.LINK_STATE.NEGO :: agreeFlds

theorem acceptPair_step {n : Nat} {d : Dev} (p : Payload) (hq : (d.link n).txQueue = []) :
    LinkStep n acceptFlds d (d.acceptPair n p) := by
  have h1 := (showsPeer_step n d p).mono (gs := acceptFlds) (by simp [acceptFlds])
  have h2 := (resumesAnnounce_step n (d.showsPeer n p) (d.nego n)).mono (gs := acceptFlds) (by simp [acceptFlds])
  have h3 := (acceptPair_afterNego p hq).mono (gs := acceptFlds) fun f hf => by simp [acceptFlds, hf]
  exact ((h1.trans h2).setFld (by simp [acceptFlds]) _).trans h3

/-- An accepted pair is shown by NEGO (R162, R164). -/
theorem nego_acceptPair {n : Nat} {d : Dev} (p : Payload) (hq : (d.link n).txQueue = []) :
    (d.acceptPair n p).nego n = negoAfter (d.link n).pin p := by
  have hlt : negoAfter (d.link n).pin p < 2 ^ 3 := by unfold negoAfter; split <;> decide
  calc (d.acceptPair n p).nego n
      = (((d.showsPeer n p).resumesAnnounce n (d.nego n)).setNego n (negoAfter (d.link n).pin p)).nego n :=
        (acceptPair_afterNego p hq).flds _ (by decide)
    _ = negoAfter (d.link n).pin p % 2 ^ 3 := fld_setFld_same (by decide)
    _ = negoAfter (d.link n).pin p := Nat.mod_eq_of_lt hlt

/-- What shows the partner is not written again. -/
theorem fld_acceptPair_peer {n : Nat} {d : Dev} (p : Payload) (hq : (d.link n).txQueue = []) {g : Fld} (hg : g ∈ peerFlds) :
    (d.acceptPair n p).fld (laneBase n) g = (d.showsPeer n p).fld (laneBase n) g := by
  have hclear : ∀ g ∈ peerFlds, ∀ f ∈ resumeFlds ++ Reg.LINK_STATE.NEGO :: agreeFlds, f.clear g := by decide
  have hf (f : Fld) (hf : f ∈ resumeFlds ++ Reg.LINK_STATE.NEGO :: agreeFlds) : f.clear g := hclear g hg f hf
  calc (d.acceptPair n p).fld (laneBase n) g
      = (((d.showsPeer n p).resumesAnnounce n (d.nego n)).setNego n (negoAfter (d.link n).pin p)).fld (laneBase n) g :=
        (acceptPair_afterNego p hq).flds g fun f h => hf f (by simp [h])
    _ = ((d.showsPeer n p).resumesAnnounce n (d.nego n)).fld (laneBase n) g := fld_setFld_clear (hf _ (by simp))
    _ = (d.showsPeer n p).fld (laneBase n) g := (resumesAnnounce_step n _ _).flds g fun f h => hf f (by simp [h])

/-! ## An ANNOUNCE is received -/

/-- The ANNOUNCE received is the second of a pair. -/
def LinkRec.pairs (l : LinkRec) (p : Payload) : Bool :=
  match l.lastAnn with
  | some q => samePair p q
  | none => false

theorem LinkKept.pairs {k l : LinkRec} (h : LinkKept k l) (p : Payload) : l.pairs p = k.pairs p := by
  rw [LinkRec.pairs, h.lastAnn, LinkRec.pairs]

/-- The machine once the ANNOUNCE received stands as the last one. -/
def Dev.heardAnnounce (d : Dev) (n : Nat) (p : Payload) : Dev := d.modLink n fun l => { l with lastAnn := some p, annSeen := true }

/-- The effect of SEEN in the state reached: the lane stops announcing, or starts again (R160). -/
def Dev.answersSeen (d : Dev) (n : Nat) (seen : Bool) : Dev :=
  if d.nego n = negoUp ∨ d.nego n = negoNoCommon then
    if seen then d.setFld (laneBase n) Reg.LINK_STATE.ANNOUNCE_TX 0
    else if d.flag (laneBase n) Reg.LINK_STATE.ANNOUNCE_TX then d
    else (d.setFld (laneBase n) Reg.LINK_STATE.ANNOUNCE_TX 1).sendAnnounce n
  else d

/-- The steps of an ANNOUNCE, in their order. -/
theorem announce_eq {d : Dev} {n : Nat} (p : Payload) (h : d.nego n ≠ negoDown) :
    d.announce n p =
      ((((d.heardAnnounce n p).raiseIf (bitOf p.toNat 24) (laneBase n) Reg.LINK_STATE.SEEN_RX).when ((d.link n).pairs p)
        fun d => d.acceptPair n p).answersSeen n (bitOf p.toNat 24)) := by
  unfold Dev.announce LinkRec.pairs
  rw [if_neg h]
  rfl

theorem answersSeen_step (n : Nat) (d : Dev) (seen : Bool) :
    LinkStep n [Reg.LINK_STATE.ANNOUNCE_TX] d (d.answersSeen n seen) := by
  have h := LinkStep.refl n [Reg.LINK_STATE.ANNOUNCE_TX] d
  exact .ite (.ite (h.setFld (by simp) 0) (.ite h (h.setFld (by simp) 1).sendAnnounce)) h

theorem raiseSeen_step (n : Nat) (d : Dev) (seen : Bool) :
    LinkStep n [Reg.LINK_STATE.SEEN_RX] d (d.raiseIf seen (laneBase n) Reg.LINK_STATE.SEEN_RX) :=
  (LinkStep.refl n _ d).raiseIf (by simp) seen

/-- An ANNOUNCE that makes no pair touches SEEN_RX and ANNOUNCE_TX alone. -/
theorem announce_noPair_step {d : Dev} {n : Nat} {p : Payload} (h : d.nego n ≠ negoDown) (hp : (d.link n).pairs p = false) :
    LinkStep n [Reg.LINK_STATE.SEEN_RX, Reg.LINK_STATE.ANNOUNCE_TX] (d.heardAnnounce n p) (d.announce n p) := by
  rw [announce_eq p h, hp, Dev.when, if_neg (by decide)]
  exact ((raiseSeen_step n _ _).mono (by simp)).trans ((answersSeen_step n _ _).mono (by simp))

/-- An ANNOUNCE that makes one is accepted, in a machine that has heard it and shows its SEEN. -/
theorem announce_pair_steps {d : Dev} {n : Nat} {p : Payload} (h : d.nego n ≠ negoDown) (hp : (d.link n).pairs p = true) :
    ∃ m, LinkStep n [Reg.LINK_STATE.SEEN_RX] (d.heardAnnounce n p) m ∧
      LinkStep n [Reg.LINK_STATE.ANNOUNCE_TX] (m.acceptPair n p) (d.announce n p) := by
  refine ⟨_, raiseSeen_step n _ (bitOf p.toNat 24), ?_⟩
  rw [announce_eq p h, hp, Dev.when, if_pos rfl]
  exact answersSeen_step n _ _

/-- All that an ANNOUNCE may write of the lane's registers. -/
def announceFlds : List Fld := Reg.LINK_STATE.SEEN_RX :: acceptFlds

theorem announce_step {d : Dev} {n : Nat} {p : Payload} (h : d.nego n ≠ negoDown) (hq : (d.link n).txQueue = []) :
    LinkStep n announceFlds (d.heardAnnounce n p) (d.announce n p) := by
  cases hp : (d.link n).pairs p with
  | false => exact (announce_noPair_step h hp).mono (by simp [announceFlds, acceptFlds, resumeFlds])
  | true =>
    obtain ⟨m, hm, he⟩ := announce_pair_steps h hp
    have hmq : (m.link n).txQueue = [] := hm.link.txQueue.trans (by simp [Dev.heardAnnounce, hq])
    exact ((hm.mono (by simp [announceFlds])).trans ((acceptPair_step p hmq).mono (by simp [announceFlds]))).trans
      (he.mono (by simp [announceFlds, acceptFlds, resumeFlds]))

/-- A pair accepted: the partner's versions and features are shown, SEEN goes out as 1, and NEGO says how it ended. -/
theorem announce_pair_shows {d : Dev} {n : Nat} {p : Payload} (h : d.nego n ≠ negoDown) (hq : (d.link n).txQueue = [])
    (hp : (d.link n).pairs p = true) :
    let e := d.announce n p
    e.fld (laneBase n) Reg.LINK_VER.PEER_HIGH = bitsOf p.toNat 8 8 ∧ e.fld (laneBase n) Reg.LINK_VER.PEER_LOW = bitsOf p.toNat 16 8 ∧
      e.fld (laneBase n) Reg.PEER_FEAT.FEATURES = bitsOf p.toNat 32 32 ∧ e.fld (laneBase n) Reg.LINK_STATE.SEEN_TX = 1 ∧
      e.nego n = negoAfter (d.link n).pin p := by
  obtain ⟨m, hm, he⟩ := announce_pair_steps h hp
  have hmq : (m.link n).txQueue = [] := hm.link.txQueue.trans (by simp [Dev.heardAnnounce, hq])
  have hpin : (m.link n).pin = (d.link n).pin := hm.link.pin.trans (by simp [Dev.heardAnnounce])
  have hpeer (g : Fld) (hg : g ∈ peerFlds) :
      (d.announce n p).fld (laneBase n) g = (m.showsPeer n p).fld (laneBase n) g := by
    have hclear : ∀ g ∈ peerFlds, Reg.LINK_STATE.ANNOUNCE_TX.clear g := by decide
    rw [he.flds g (by simpa using hclear g hg), fld_acceptPair_peer p hmq hg]
  obtain ⟨hHigh, hLow, hFeat, hSeen⟩ := fld_showsPeer n m p
  refine ⟨?_, ?_, ?_, ?_, ?_⟩
  · rw [hpeer _ (by simp [peerFlds]), hHigh]
  · rw [hpeer _ (by simp [peerFlds]), hLow]
  · rw [hpeer _ (by simp [peerFlds]), hFeat]
  · rw [hpeer _ (by simp [peerFlds]), hSeen]
  · rw [← hpin, ← nego_acceptPair p hmq]
    exact he.flds _ (by decide)

/-! ## The command -/

theorem proving_congr {d e : Dev} (h : ∀ a, e.reg a = d.reg a) (b : Nat) : e.proving b = d.proving b := by
  have hfld : e.fld = d.fld := funext fun b => funext fun f => by rw [Dev.fld, h, Dev.fld]
  unfold Dev.proving Dev.proofDepth Dev.flag Dev.ust
  rw [hfld]

/-- Between messages a control block that is no SOM and no EOM reaches the message layer, after the far-end loop where one runs. -/
theorem blockIn_between {d : Dev} {n t : Nat} {p : Payload} (h : d.between n = true) (ht : ctlType p = t) (hs : t ≠ ctlSom)
    (he : t ≠ ctlEom) : d.blockIn n t p = (d.retransmit n (.block true p)).controlBlock n p := by
  simp only [Dev.between, Dev.listens, Bool.and_eq_true, Bool.not_eq_true', decide_eq_true_eq] at h
  obtain ⟨⟨⟨hactive, hlocked⟩, hproving⟩, hrx⟩ := h
  have hr := retransmit_block_step n d true p
  have hproving' : (d.retransmit n (.block true p)).proving (laneBase n) = false :=
    (proving_congr (fun a => hr.regs a (by simp)) _).trans hproving
  have hrx' : ((d.retransmit n (.block true p)).lane n).rx = .outside := by
    have hlanes : (d.retransmit n (.block true p)).lanes = d.lanes := hr.parts .lanes (by simp)
    rw [Dev.lane, hlanes]; exact hrx
  simp [Dev.blockIn, Dev.listens, hactive, hlocked, hproving, ht, Dev.ebOut, hproving', Dev.rxItem, hrx', hs, he]

theorem controlBlock_announce {d : Dev} {n : Nat} {p : Payload} (ht : ctlType p = ctlAnnounce) :
    d.controlBlock n p = d.announce n p := by
  simp [Dev.controlBlock, ht, ctlAnnounce, ctlQuad, ctlIdle]

/-- R161's comparison of HIGH, LOW and the FEATURES bits that are not ignored, field by field. -/
theorem samePair_eq (p q : Payload) :
    samePair p q = (bitsOf q.toNat 8 8 == bitsOf p.toNat 8 8 && bitsOf q.toNat 16 8 == bitsOf p.toNat 16 8 &&
      bitsOf q.toNat 32 32 % 256 == bitsOf p.toNat 32 32 % 256) := by
  have hver (x : Nat) : bitsOf x 8 16 = bitsOf x 8 8 + 256 * bitsOf x 16 8 := by
    simp only [bitsOf, Nat.shiftRight_eq_div_pow]; omega
  have hfeat (x : Nat) : bitsOf x 32 8 = bitsOf x 32 32 % 256 := by
    simp only [bitsOf]; omega
  have hlt (x lo : Nat) : bitsOf x lo 8 < 256 := bitsOf_lt x lo 8
  have hq := hlt q.toNat 8
  have hp := hlt p.toNat 8
  rw [Bool.eq_iff_iff]
  simp only [samePair, hver, hfeat, Bool.and_eq_true, beq_iff_eq]
  omega

theorem opAnnounce_between {d : Dev} {n : Fin 144} {p : Payload} (h : d.between n = true) (ht : ctlType p = ctlAnnounce) :
    opAnnounce n p d = (d.retransmit n (.block true p)).announce n p := by
  rw [opAnnounce, blockIn_between h ht (by decide) (by decide), controlBlock_announce ht]

/-- The statement's comparison with the last ANNOUNCE is the model's. -/
theorem pairs_eq (l : LinkRec) (p : Payload) :
    l.pairs p = (match l.lastAnn with
      | some q => bitsOf q.toNat 8 8 == bitsOf p.toNat 8 8 && bitsOf q.toNat 16 8 == bitsOf p.toNat 16 8 &&
          bitsOf q.toNat 32 32 % 256 == bitsOf p.toNat 32 32 % 256
      | none => false) := by
  unfold LinkRec.pairs
  cases l.lastAnn with
  | none => rfl
  | some q => exact samePair_eq p q

/-- The machine that has heard the ANNOUNCE, which the far-end loop may have sent again, differs in link records alone. -/
theorem heardAnnounce_frame {d r : Dev} {n : Nat} {p : Payload} (hr : LinkStep n [] d r) :
    OnlyParts [.regs, .links] d (r.heardAnnounce n p) ∧ ∀ a, (r.heardAnnounce n p).reg a = d.reg a :=
  ⟨(onlyParts_modLink r n _ (by simp)).mpr hr.parts, fun a => hr.regs a (by simp)⟩

/-- Settles O24: the comparison of the model is R161's, an acceptance writes each field that shows it once, and without a pair only
SEEN_RX and ANNOUNCE_TX are written. -/
theorem announcePairIsAcceptedAtItsSecond : Obligations.AnnouncePairIsAcceptedAtItsSecond := by
  unfold Obligations.AnnouncePairIsAcceptedAtItsSecond
  intro s n p hquiet hbetween ht hnego hq b l high low features pair
  have hr := retransmit_block_step n s.dev true p
  have hop := opAnnounce_between hbetween ht
  generalize s.dev.retransmit n (.block true p) = r at hr hop
  have hpair : (r.link n).pairs p = pair := (hr.link.pairs p).trans (pairs_eq _ p)
  have hrnego : r.nego n ≠ negoDown := by rw [Dev.nego, hr.flds _ (by simp)]; exact hnego
  have hrq : (r.link n).txQueue = [] := hr.link.txQueue.trans hq
  have hstep := announce_step (p := p) hrnego hrq
  obtain ⟨hparts, hregs⟩ := heardAnnounce_frame (p := p) hr
  have hflds (f : Fld) : (r.heardAnnounce n p).fld b f = s.dev.fld b f := by rw [Dev.fld, hregs, Dev.fld]
  have honly : OnlyParts [.regs, .links] s.dev (r.announce n p) := hparts.trans hstep.parts
  have hwindow : OnlyWindow b s.dev (r.announce n p) := fun a ha =>
    (hstep.window (by decide) a ha).trans (hregs a)
  refine completes_quiet (f := opAnnounce n p) rfl ?_ ?_
  · rw [hop, quiet_of_lane_window honly hwindow]; exact hquiet
  rw [hop]
  refine ⟨?_, honly, hwindow, fun hp => ?_, fun hp => ?_⟩
  · rw [hstep.link.lastAnn]; simp [Dev.heardAnnounce]
  · have hshows := announce_pair_shows hrnego hrq (hpair.trans hp)
    rwa [hr.link.pin] at hshows
  · have hno := announce_noPair_step hrnego (hpair.trans hp)
    have hreg (o : Nat) (ho : o ≠ 0x03C) : (r.announce n p).reg (b + o) = s.dev.reg (b + o) :=
      (hno.regs _ (by simp [Reg.LINK_STATE.SEEN_RX, Reg.LINK_STATE.ANNOUNCE_TX, b, ho])).trans (hregs _)
    have hfld (f : Fld) (hf : ∀ g ∈ [Reg.LINK_STATE.SEEN_RX, Reg.LINK_STATE.ANNOUNCE_TX], g.clear f) :
        (r.announce n p).fld b f = s.dev.fld b f := (hno.flds f hf).trans (hflds f)
    exact ⟨hreg _ (by decide), hreg _ (by decide), hfld _ (by decide), hfld _ (by decide), hfld _ (by decide)⟩

end Sys2Proof.Machine

/-! # The write into a full ring (R271) -/

namespace Sys2Proof.Machine

/-! ## A transfer over a base port that meets nothing -/

/-- A base port's transfers meet nothing that befalls them: none is listed, or one that finds all well. -/
def Dev.meetsNothing (d : Dev) : Prop := d.stack.meets = [] ∨ d.stack.meets = [{}]

/-- A bank has been granted to a base port that asked alone: its turn bit is 0 (R237), and no meet is left. -/
def Dev.bankTaken (d : Dev) (bank : Nat) : Dev :=
  (d.modMem fun m => { m with turn := (m.turn.del bank).setNum bank 0 }).modStack fun s => { s with meets := [] }

/-- A base port that asks for a bank alone is granted it at once (R236). -/
theorem asks_alone (d : Dev) (c bank : Nat) (a : BaseAsk) :
    d.asks c bank (.base a) {} =
      (d.modMem fun m => { m with turn := (m.turn.del (bankNumber c bank)).setNum (bankNumber c bank) 0 }, true) := by
  cases h : baseSlow a.user <;>
    simp [Dev.asks, Dev.bankGrants, bothRows, basePick, Dev.modMem, bit01, h]

/-- The bank that an access over a base port asks for. -/
def BaseTo.bank (x : BaseTo) : Nat := bankNumber (wordColumn x.word) (if x.relief then 8 else wordBank x.word % 8)

theorem nextMeet_nothing {d : Dev} (x : BaseTo) (h : d.meetsNothing) : d.nextMeet x = (d.bankTaken x.bank, {}) := by
  rcases h with h | h <;> simp [Dev.nextMeet, h, Dev.awaitBank, asks_alone, Dev.bankTaken, BaseTo.bank]

theorem wearTo_nil (d : Dev) (x : BaseTo) : d.wearTo x [] = d := by
  simp [Dev.wearTo, Dev.wearRow, Dev.wearAt, Dev.each]

/-- A word in which no bit differs from a code word is good (R240). -/
theorem errStatus_zero : errStatus 0 = memOk := by
  simp only [errStatus, BitVec.ofNat_eq_ofNat, BitVec.toNat_zero]; rfl

theorem viaWritten_nothing (d : Dev) (x : BaseTo) (st : Nat) : d.viaWritten x st {} = d := by
  have h : errStatus (viaBits [] 0) = memOk := errStatus_zero
  simp [Dev.viaWritten, Dev.noteMeet, h, memOk, memCorrected, memUncorr]

theorem putTo_full (d : Dev) (x : BaseTo) (v : RowWord) : d.putTo x fullMask v = (d.putWord x.place v, memOk) :=
  if_pos (by decide)

/-- A whole row word that nothing bars is written where it belongs, and the write is good. -/
theorem writeTo_full {d : Dev} {x : BaseTo} (v : RowWord) (hm : d.meetsNothing) (hb : d.toBarred x = false) :
    d.writeTo x fullMask v = ((d.bankTaken x.bank).putWord x.place v, memOk) := by
  have hmask : ¬fullMask % 2 ^ 32 = 0 := by decide
  rw [Dev.writeTo, hb, if_neg (by decide), if_neg hmask, nextMeet_nothing x hm]
  simp [wearTo_nil, putTo_full, viaWritten_nothing]

theorem writeTo_barred {d : Dev} {x : BaseTo} (mask : Nat) (v : RowWord) (hb : d.toBarred x = true) :
    d.writeTo x mask v = (d, memRefused) := by
  simp [Dev.writeTo, hb]

/-- A number's bytes, put together again. -/
theorem ofBytes_bytesOf (k n : Nat) : ofBytes (bytesOf k n) = n % 256 ^ k := by
  induction k generalizing n with
  | zero => simp [bytesOf, ofBytes, Nat.mod_one]
  | succ k ih =>
    have hhead : (byteOf n 0).toNat = n % 256 := by simp [byteOf]
    have htail : (List.range k).map (fun i => byteOf n (i + 1)) = bytesOf k (n / 256) := by
      refine List.map_congr_left fun i _ => ?_
      simp only [byteOf, Nat.shiftRight_eq_div_pow, Nat.div_div_eq_div_mul]
      rw [show 2 ^ (8 * (i + 1)) = 256 * 2 ^ (8 * i) by rw [Nat.mul_add, Nat.pow_add]; omega]
    have hcut : bytesOf (k + 1) n = byteOf n 0 :: bytesOf k (n / 256) := by
      rw [← htail]; simp [bytesOf, List.range_succ_eq_map]
    rw [hcut, ofBytes, ih, hhead, Nat.pow_succ', Nat.mod_mul]

/-- A word reads as it was written. -/
theorem wordData_putWord_same (d : Dev) (p : Nat) (v : RowWord) : (d.putWord p v).wordData p = v := by
  have hbytes : (List.range 32).map (fun i => (d.putWord p v).mem.bytes.at (32 * p + i) 0) = bytesOf 32 v.toNat := by
    refine List.map_congr_left fun i hi => ?_
    rw [List.mem_range] at hi
    rw [putWord_byte, if_pos (by omega)]
    congr 1; omega
  have hlt := v.isLt
  rw [Dev.wordData, hbytes, ofBytes_bytesOf, Nat.mod_eq_of_lt (by simpa using hlt)]
  simp

/-! ## A slot written into LPDDR5X -/

/-- The byte enables of the half of a line at an address. -/
def halfMask (a : Nat) : Nat := (2 ^ 32 - 1) * 2 ^ (32 * (a / 32 % 2))

theorem halfMask_partial (a : Nat) : halfMask a % 2 ^ 64 ≠ 0 ∧ halfMask a % 2 ^ 64 ≠ 2 ^ 64 - 1 := by
  rcases Nat.mod_two_eq_zero_or_one (a / 32) with h | h <;> simp [halfMask, h]

/-- A ring's write of half a line of LPDDR5X is a partial write of the line (R323). -/
theorem dsWrite32_external {d : Dev} {a v : Nat} (w : RowWord) (hbar : d.dsBar clsRing a = none)
    (hv : d.dsTarget (dsOffset a / 64 * 64) = .external v) :
    d.dsWrite32 clsRing a w = d.extWritePart clsRing (dsKeyOf a) v (halfMask a) (w ++ w) {} := by
  obtain ⟨hnone, hall⟩ := halfMask_partial a
  have hd : d.dsWrite32 clsRing a w = d.dsWrite clsRing a (halfMask a) false (w ++ w) {} := rfl
  simp only [hd, Dev.dsWrite, if_neg hnone, hbar, hv, if_neg hall]

theorem dsWrite32_barred {d : Dev} {a st : Nat} (w : RowWord) (hbar : d.dsBar clsRing a = some st) :
    d.dsWrite32 clsRing a w = (d, st) := by
  have hd : d.dsWrite32 clsRing a w = d.dsWrite clsRing a (halfMask a) false (w ++ w) {} := rfl
  simp only [hd, Dev.dsWrite, if_neg (halfMask_partial a).1, hbar]

/-- An address outside the memory die that the decode lets through lies in a line of LPDDR5X (R94). -/
theorem dsTarget_line {d : Dev} {a : Nat} (hout : ringInDie a = false) (hbar : d.dsBar clsRing a = none) :
    ∃ v, d.dsTarget (dsOffset a / 64 * 64) = .external v := by
  have hfar : extFirst ≤ dsOffset a ∧ dsOffset a < extFirst + d.visible := by
    by_contra hno
    by_cases hdie : dsOffset a < 2 ^ 30
    · have hkey : dsKeyOf a ≠ 0 := fun hk => by simp [ringInDie, hk] at hout; omega
      have ht : d.dsTarget (dsOffset a) = .memory := if_pos hdie
      simp [Dev.dsBar, ht, hkey] at hbar
    · have ht : d.dsTarget (dsOffset a) = .nowhere := by rw [Dev.dsTarget, if_neg hdie, if_neg hno]
      simp [Dev.dsBar, ht] at hbar
  have hfirst : extFirst = 2 ^ 36 := rfl
  refine ⟨dsOffset a / 64 * 64 - extFirst, ?_⟩
  rw [Dev.dsTarget, if_neg (by omega), if_pos (by omega)]

theorem extWritePart_barred {d : Dev} {cls k v st : Nat} (mask : Nat) (data : Line) (hbar : d.extBar cls k v = some st) :
    (d.extWritePart cls k v mask data {}).2 = st := by
  simp [Dev.extWritePart, hbar]

theorem extWritePart_open {d : Dev} {cls k v : Nat} (mask : Nat) (data : Line) (hopen : d.extBar cls k v = none) :
    (d.extWritePart cls k v mask data {}).2 = d.verify k v (d.extLine (v / 64)) := by
  simp [Dev.extWritePart, hopen, Dev.wearLine]

/-- A partial write of a line that verifies: the line is stored again under its key, and the outcome noted (R323, R325). -/
theorem extWritePart_verified {d : Dev} {cls k v : Nat} (mask : Nat) (data : Line) (hopen : d.extBar cls k v = none)
    (hdone : dsDone (d.verify k v (d.extLine (v / 64)))) :
    (d.extWritePart cls k v mask data {}).1 =
      (d.putLine (v / 64) (d.sealLine k v lineGood (mergeLine (d.decrypt k v (d.extLine (v / 64))) data mask))).extNote cls k v
        (d.verify k v (d.extLine (v / 64))) := by
  simp [Dev.extWritePart, hopen, Dev.wearLine, hdone]

theorem extBar_not_done {d : Dev} {cls k v st : Nat} (h : d.extBar cls k v = some st) : dsDone st = false := by
  unfold Dev.extBar at h
  split at h
  · cases h; decide
  · split at h
    · cases h; decide
    · cases h

theorem dsBar_ring_eq_decode {d : Dev} {a st : Nat} (h : d.dsBar clsRing a = some st) : st = dsDecode := by
  unfold Dev.dsBar at h
  cases ht : d.dsTarget (dsOffset a) with
  | nowhere => simpa [ht, eq_comm] using h
  | memory =>
    by_cases hk : dsKeyOf a = 0
    · simp [ht, hk] at h
    · simpa [ht, hk, clsRing, clsMover, clsDebug, eq_comm] using h
  | external v => simp [ht] at h

/-- How a line that holds an address verifies for its access (R320). -/
def Dev.lineStatus (d : Dev) (a v : Nat) : Nat := d.verify (dsKeyOf a) v (d.extLine (v / 64))

/-- The half of a line at an address of LPDDR5X that takes a ring's write: nothing bars it, and the line verifies under its key (R316,
R320, R323). -/
structure Dev.takesHalf (d : Dev) (a v : Nat) : Prop where
  decoded : d.dsBar clsRing a = none
  target : d.dsTarget (dsOffset a / 64 * 64) = .external v
  unbarred : d.extBar clsRing (dsKeyOf a) v = none
  verified : dsDone (d.lineStatus a v)

theorem takesHalf_of_done {d : Dev} {a : Nat} {w : RowWord} (hout : ringInDie a = false) (h : dsDone (d.dsWrite32 clsRing a w).2) :
    ∃ v, d.takesHalf a v := by
  cases hbar : d.dsBar clsRing a with
  | some st =>
    rw [dsWrite32_barred w hbar, dsBar_ring_eq_decode hbar] at h
    cases h
  | none =>
    obtain ⟨v, hv⟩ := dsTarget_line hout hbar
    rw [dsWrite32_external w hbar hv] at h
    cases hext : d.extBar clsRing (dsKeyOf a) v with
    | some st => rw [extWritePart_barred _ _ hext, extBar_not_done hext] at h; cases h
    | none => exact ⟨v, hbar, hv, hext, by rwa [extWritePart_open _ _ hext] at h⟩

/-- The line as it is stored with its half at an address replaced. -/
def Dev.halfPut (d : Dev) (a v : Nat) (w : RowWord) : Dev :=
  d.putLine (v / 64) (d.sealLine (dsKeyOf a) v lineGood
    (mergeLine (d.decrypt (dsKeyOf a) v (d.extLine (v / 64))) (w ++ w) (halfMask a)))

/-- A corrected error of the controller that serves a visible offset is counted (R325). -/
def Dev.lineCorrected (d : Dev) (v : Nat) : Dev :=
  (d.count (mcBase (extController v)) Reg.MC_SEC_COUNT.COUNT).raise (mcBase (extController v)) Reg.MC_EVENT.SEC

/-- What an access that was performed records: at most a corrected error. -/
theorem extNote_done {d : Dev} {cls k v st : Nat} (h : dsDone st) :
    d.extNote cls k v st = d.when (st == dsCorrected) fun d => d.lineCorrected v := by
  have hst : st = dsOk ∨ st = dsCorrected := by simpa [dsDone] using h
  rcases hst with rfl | rfl <;> rfl

theorem dsWrite32_takesHalf {d : Dev} {a v : Nat} (w : RowWord) (h : d.takesHalf a v) :
    d.dsWrite32 clsRing a w =
      ((d.halfPut a v w).when (d.lineStatus a v == dsCorrected) fun d => d.lineCorrected v, d.lineStatus a v) := by
  rw [dsWrite32_external w h.decoded h.target]
  refine Prod.ext ?_ (extWritePart_open _ _ h.unbarred)
  have hdone : dsDone (d.verify (dsKeyOf a) v (d.extLine (v / 64))) := h.verified
  rw [extWritePart_verified _ _ h.unbarred hdone, extNote_done hdone, Dev.halfPut, Dev.lineStatus]

/-! ## A slot written into its place -/

/-- A slot is put at an address, in the memory die or in LPDDR5X. -/
def Dev.slotPut (d : Dev) (a : Nat) (w : RowWord) : Dev × Nat :=
  if ringInDie a then d.baseWrite .ring (dsOffset a / 32) fullMask w else d.dsWrite32 clsRing a w

/-- What putting a slot touches beside the memories: the meets of base ports, and registers of the memory controllers. -/
structure SlotPutFrame (d t : Dev) : Prop where
  parts : OnlyParts [.regs, .mem, .ext, .stack] d t
  stack : ∃ l, t.stack = { d.stack with meets := l }
  regs : ∀ a, a < mcBase 0 ∨ mcBase 2 ≤ a → t.reg a = d.reg a

/-- The writer at work, with rings as they are by then: its write is about to meet nothing. -/
def Dev.writerAtWork (d : Dev) (r : RingRec) : Dev :=
  (d.modRings fun _ => r).modStack fun k => { k with meets := [{}], met := [] }

/-- A slot's place in the memory die is not barred when the slot's write is good. -/
theorem unbarred_of_slotEnd {d : Dev} {a : Nat} {w : RowWord} (hin : ringInDie a = true)
    (h : slotEnd (ringInDie a) (d.slotPut a w).2 = some true) : d.toBarred (d.toWord .ring (dsOffset a / 32)) = false := by
  by_contra hb
  rw [Bool.not_eq_false] at hb
  rw [Dev.slotPut, if_pos hin, Dev.baseWrite, writeTo_barred _ _ hb, hin] at h
  cases h

theorem takesHalf_of_slotEnd {d : Dev} {a : Nat} {w : RowWord} (hout : ringInDie a = false)
    (h : slotEnd (ringInDie a) (d.slotPut a w).2 = some true) : ∃ v, d.takesHalf a v := by
  rw [Dev.slotPut, hout, if_neg (by decide), slotEnd, if_neg (by decide)] at h
  refine takesHalf_of_done hout (w := w) ?_
  by_contra hno
  rw [if_neg hno] at h
  cases h

theorem slotPut_inDie {d : Dev} {a : Nat} (w : RowWord) (hm : d.meetsNothing) (hin : ringInDie a = true)
    (hb : d.toBarred (d.toWord .ring (dsOffset a / 32)) = false) :
    d.slotPut a w = ((d.bankTaken (d.toWord .ring (dsOffset a / 32)).bank).putWord (d.physWord (dsOffset a / 32)) w, memOk) := by
  rw [Dev.slotPut, if_pos hin, Dev.baseWrite, writeTo_full w hm hb]
  rfl

theorem slotPut_line {d : Dev} {a v : Nat} (w : RowWord) (hout : ringInDie a = false) (h : d.takesHalf a v) :
    d.slotPut a w =
      ((d.halfPut a v w).when (d.lineStatus a v == dsCorrected) fun d => d.lineCorrected v, d.lineStatus a v) := by
  rw [Dev.slotPut, hout, if_neg (by decide), dsWrite32_takesHalf w h]

/-- There are two memory controllers. -/
theorem extController_lt (v : Nat) : extController v < 2 := by
  have := bitsOf_lt v 8 4
  unfold extController extChannel
  omega

/-- A corrected error of a line is noted at its controller alone. -/
theorem reg_lineCorrected (d : Dev) (v : Nat) {i : Nat} (hi : i < mcBase 0 ∨ mcBase 2 ≤ i) : (d.lineCorrected v).reg i = d.reg i := by
  have hc := extController_lt v
  have h1 : i ≠ mcBase (extController v) + Reg.MC_SEC_COUNT.COUNT.off := by
    simp only [mcBase, Reg.MC_SEC_COUNT.COUNT] at hi ⊢; omega
  have h2 : i ≠ mcBase (extController v) + Reg.MC_EVENT.SEC.off := by
    simp only [mcBase, Reg.MC_EVENT.SEC] at hi ⊢; omega
  simp only [Dev.lineCorrected, reg_raise, if_neg h2, reg_count, if_neg h1]

/-- A slot whose write is good changes the memories, and of the registers those of a memory controller alone. -/
theorem slotPut_frame {d : Dev} {a : Nat} {w : RowWord} (hm : d.meetsNothing)
    (h : slotEnd (ringInDie a) (d.slotPut a w).2 = some true) : SlotPutFrame d (d.slotPut a w).1 := by
  cases hin : ringInDie a with
  | true =>
    rw [slotPut_inDie w hm hin (unbarred_of_slotEnd hin h)]
    exact ⟨by simp [Dev.putWord, Dev.bankTaken], ⟨[], rfl⟩, fun _ _ => rfl⟩
  | false =>
    obtain ⟨v, hv⟩ := takesHalf_of_slotEnd hin h
    have hparts : OnlyParts [.regs, .mem, .ext, .stack] d (d.halfPut a v w) := by simp [Dev.halfPut, Dev.putLine]
    rw [slotPut_line w hin hv]
    cases d.lineStatus a v == dsCorrected with
    | false => exact ⟨hparts, ⟨_, rfl⟩, fun _ _ => rfl⟩
    | true => exact ⟨by simpa [Dev.when, Dev.lineCorrected] using hparts, ⟨_, rfl⟩, fun _ hi => reg_lineCorrected _ v hi⟩

/-- The writer's rings and the meets of its base port take no part in where a slot goes or in how its write ends. -/
theorem slotPut_atWork {d : Dev} {a : Nat} {w : RowWord} (r : RingRec) (hm : d.meetsNothing)
    (h : slotEnd (ringInDie a) (d.slotPut a w).2 = some true) :
    ((d.writerAtWork r).slotPut a w).2 = (d.slotPut a w).2 ∧ ((d.writerAtWork r).slotPut a w).1.mem = (d.slotPut a w).1.mem ∧
      ((d.writerAtWork r).slotPut a w).1.ext = (d.slotPut a w).1.ext := by
  cases hin : ringInDie a with
  | true =>
    have hb := unbarred_of_slotEnd hin h
    have hb' : (d.writerAtWork r).toBarred ((d.writerAtWork r).toWord .ring (dsOffset a / 32)) = false := hb
    rw [slotPut_inDie w hm hin hb, slotPut_inDie w (.inr rfl) hin hb']
    exact ⟨rfl, rfl, rfl⟩
  | false =>
    obtain ⟨v, hv⟩ := takesHalf_of_slotEnd hin h
    have hv' : (d.writerAtWork r).takesHalf a v := ⟨hv.decoded, hv.target, hv.unbarred, hv.verified⟩
    have hst : (d.writerAtWork r).lineStatus a v = d.lineStatus a v := rfl
    rw [slotPut_line w hin hv, slotPut_line w hin hv', hst]
    cases d.lineStatus a v == dsCorrected <;> exact ⟨rfl, rfl, rfl⟩

/-- A slot written into the memory die reads back where its address lies, relieved or not (R253). -/
theorem wordData_slotPut {d : Dev} {a : Nat} {w : RowWord} (hm : d.meetsNothing) (hin : ringInDie a = true)
    (h : slotEnd (ringInDie a) (d.slotPut a w).2 = some true) :
    let t := (d.slotPut a w).1
    t.wordData (t.physWord (dsOffset a / 32)) = w := by
  rw [slotPut_inDie w hm hin (unbarred_of_slotEnd hin h)]
  exact wordData_putWord_same _ _ w

/-! ## The descriptor of a full ring -/

/-- The descriptor of a full ring after the writer has overwritten its oldest slot (R271). -/
def Desc.losesOldest (x : Desc) (now : Nat) : Desc :=
  { x with wr := (x.wr + 1) % 2 ^ 32, age := (x.age + 1) % 2 ^ 32, premValid := true, premLast := now }

/-- The loss of a slot leaves the ring as full as it was. -/
theorem occ_losesOldest {x : Desc} (now : Nat) (hwr : x.wr < 2 ^ 32) (hage : x.age < 2 ^ 32) :
    (x.losesOldest now).occ = x.occ := by
  have : ((x.wr + 1) % 2 ^ 32 + 2 ^ 32 - (x.age + 1) % 2 ^ 32) % 2 ^ 32 = (x.wr + 2 ^ 32 - x.age) % 2 ^ 32 := by omega
  simp only [Desc.losesOldest, Desc.occ, this]

/-- In a full ring WR and AGE name one place (R271). -/
theorem slotAddr_full {x : Desc} (hopen : x.state = .opened) (hcap : x.logCap ≤ 16) (hage : x.age < 2 ^ 32)
    (hfull : x.occ = x.cap) : x.slotAddr x.wr = x.slotAddr x.age := by
  have hlaps : 2 ^ 32 = x.cap * 2 ^ (32 - x.logCap) := by rw [Desc.cap, ← Nat.pow_add]; congr 1; omega
  have hocc : (x.wr + 2 ^ 32 - x.age) % 2 ^ 32 = x.cap := by rw [← hfull, Desc.occ, if_pos hopen]
  have hmod : (x.wr + 2 ^ 32) % x.cap = x.age % x.cap := by
    have hdiv := Nat.div_add_mod (x.wr + 2 ^ 32 - x.age) (2 ^ 32)
    rw [hocc] at hdiv
    have hsum : x.wr + 2 ^ 32 = x.age + x.cap * (2 ^ (32 - x.logCap) * ((x.wr + 2 ^ 32 - x.age) / 2 ^ 32) + 1) := by
      rw [Nat.mul_add, ← Nat.mul_assoc, ← hlaps]; omega
    rw [hsum, Nat.add_mul_mod_self_left]
  rw [hlaps, Nat.add_mul_mod_self_left] at hmod
  rw [Desc.slotAddr, Desc.slotAddr, hmod]

/-! ## A write into a full ring -/

theorem seeBusy_parts (d : Dev) (e : Nat) : OnlyParts [.strike] d (d.seeBusy e) := by
  unfold Dev.seeBusy
  split
  · exact parts_modStrike d _
  · exact onlyParts_refl _ d

theorem flushFirst_idle {d : Dev} {r : Nat} (h : (d.engine (ringEngine r)).flushing = false) : d.flushFirst r = d := by
  simp [Dev.flushFirst, h]

/-- A descriptor whose ring's occupancy stays is stored, and the tally tree does not hear of it (R281). -/
theorem setDesc_sameOcc {d : Dev} {r : Nat} {x : Desc} (h : x.occ = (d.desc r).occ) : d.setDesc r x = d.putDesc r x := by
  simp [Dev.setDesc, h]

/-- The machine after a full ring's oldest slot has been overwritten. -/
def Dev.oldestLost (d : Dev) (r : Nat) : Dev :=
  ((d.putDesc r ((d.desc r).losesOldest d.now)).seeBusy (ringEngine r)).premLoss (ringEngine r)

/-- A good write into a full ring puts the slot in place of the oldest, which is lost. -/
theorem ringWrite_full {d : Dev} {r : Nat} {w : RowWord} {x : Desc} (hx : d.desc r = x) (hm : d.meetsNothing)
    (hflush : (d.engine (ringEngine r)).flushing = false) (hopen : x.state = .opened) (hwr : x.wr < 2 ^ 32) (hage : x.age < 2 ^ 32)
    (hcap : x.logCap ≤ 16) (hfull : x.occ = x.cap)
    (hend : slotEnd (ringInDie (x.slotAddr x.age)) (d.slotPut (x.slotAddr x.age) w).2 = some true) :
    d.ringWrite r w = (d.slotPut (x.slotAddr x.age) w).1.oldestLost r := by
  have hrings := (slotPut_frame hm hend).parts .rings (by simp)
  have hdesc : (d.slotPut (x.slotAddr x.age) w).1.desc r = x := by rw [Dev.desc, hrings, ← hx, Dev.desc]
  have hset : ∀ now, (d.slotPut (x.slotAddr x.age) w).1.setDesc r (x.losesOldest now) =
      (d.slotPut (x.slotAddr x.age) w).1.putDesc r (x.losesOldest now) := fun now =>
    setDesc_sameOcc (by rw [hdesc, occ_losesOldest now hwr hage])
  have hstate : ¬x.state ≠ .opened := not_not.mpr hopen
  rw [Dev.oldestLost, hdesc, ← hset, Dev.ringWrite, flushFirst_idle hflush, hx]
  rw [Dev.slotPut] at hend ⊢
  simp only [if_neg hstate, slotAddr_full hopen hcap hage hfull, hend, hfull, le_refl, decide_true, if_true]
  rfl

/-! ## What the loss of the oldest slot leaves -/

theorem seeBusy_rings (d : Dev) (e : Nat) : (d.seeBusy e).rings = d.rings := seeBusy_parts d e .rings (by simp)

theorem seeBusy_reg (d : Dev) (e i : Nat) : (d.seeBusy e).reg i = d.reg i := by
  have h : (d.seeBusy e).regs = d.regs := seeBusy_parts d e .regs (by simp)
  rw [Dev.reg, h, Dev.reg]

theorem desc_putDesc (d : Dev) (r i : Nat) (x : Desc) : (d.putDesc r x).desc i = if i = r then x else d.desc i := by
  rw [Dev.desc, Dev.putDesc, modRings_rings, SMap.at_set _ _ _ _ _ _ fun _ => rfl]; rfl

theorem oldestLost_parts (d : Dev) (r : Nat) : OnlyParts [.regs, .rings, .strike] d (d.oldestLost r) := by
  have h1 : OnlyParts [.regs, .rings, .strike] d (d.putDesc r ((d.desc r).losesOldest d.now)) := by simp [Dev.putDesc]
  have h2 := h1.trans ((seeBusy_parts _ (ringEngine r)).mono (by simp))
  simpa [Dev.oldestLost, Dev.premLoss] using h2

theorem oldestLost_rings (d : Dev) (r : Nat) : (d.oldestLost r).rings = (d.putDesc r ((d.desc r).losesOldest d.now)).rings := by
  simp [Dev.oldestLost, Dev.premLoss, seeBusy_rings]

theorem desc_oldestLost (d : Dev) (r i : Nat) :
    (d.oldestLost r).desc i = if i = r then (d.desc r).losesOldest d.now else d.desc i := by
  rw [← desc_putDesc]
  exact congrArg (fun g => g.desc.at i {}) (oldestLost_rings d r)

/-- A premature loss writes its counter and its event bit alone. -/
theorem reg_oldestLost {d : Dev} {r i : Nat} (h1 : i ≠ ringBase (ringEngine r) + Reg.PREM_LOSS_COUNT.COUNT.off)
    (h2 : i ≠ ringBase (ringEngine r) + Reg.ENG_EVENT.PREM_LOSS.off) : (d.oldestLost r).reg i = d.reg i := by
  simp only [Dev.oldestLost, Dev.premLoss, reg_raise, if_neg h2, reg_count, if_neg h1, seeBusy_reg]
  rfl

/-- A premature loss is counted, and its event stands (R271). -/
theorem counted_oldestLost (d : Dev) (r : Nat) :
    Counted (ringBase (ringEngine r)) Reg.PREM_LOSS_COUNT.COUNT 1 d (d.oldestLost r) ∧
      (d.oldestLost r).fld (ringBase (ringEngine r)) Reg.ENG_EVENT.PREM_LOSS = 1 := by
  refine ⟨?_, fld_raise_same (by decide) (by decide)⟩
  have hfld (x : Dev) (f : Fld) : (x.seeBusy (ringEngine r)).fld (ringBase (ringEngine r)) f = x.fld (ringBase (ringEngine r)) f := by
    rw [Dev.fld, seeBusy_reg, Dev.fld]
  rw [Counted, Dev.oldestLost, Dev.premLoss, Dev.raise, fld_setFld_clear (by decide), Dev.count, fld_countBy_same (by decide), hfld]
  rfl

/-- Only what was listed, or is put, is listed after a set. -/
theorem mem_keys_set {α : Type} [DecidableEq α] {m : SMap α} {k i : Nat} {d v : α} (hi : i ∈ (m.set k d v).keys) :
    i = k ∨ i ∈ m.keys := by
  obtain ⟨x, hx, rfl⟩ := List.mem_map.mp hi
  unfold SMap.set at hx
  split at hx
  · rw [SMap.del, delItem_eq_filter] at hx
    exact .inr (List.mem_map_of_mem (List.mem_filter.mp hx).1)
  · rcases mem_putItem hx with rfl | hx
    · exact .inl rfl
    · exact .inr (List.mem_map_of_mem hx)

/-- No ring of an engine is DEAD (R263). -/
def Dev.noneDead (d : Dev) (e : Nat) : Prop := (d.ringsOf e).any (fun i => (d.desc (ringId e i)).state == .dead) = false

theorem ringLoss_noneDead {d : Dev} {e : Nat} (h : d.noneDead e) : d.ringLoss e = d := by
  rw [Dev.ringLoss, if_neg (by rw [h]; decide)]

theorem noneDead_congr {d t : Dev} {e : Nat} (hr : t.rings = d.rings) : t.noneDead e ↔ d.noneDead e := by
  unfold Dev.noneDead Dev.ringsOf Dev.desc
  rw [hr]

/-- An OPEN ring that loses its oldest slot is not DEAD, nor does another ring become so. -/
theorem noneDead_oldestLost {d : Dev} {r e : Nat} (hopen : (d.desc r).state = .opened) (h : d.noneDead e) :
    (d.oldestLost r).noneDead e := by
  simp only [Dev.noneDead, List.any_eq_false, beq_iff_eq, Dev.ringsOf, List.mem_map, List.mem_filter] at h ⊢
  rintro l ⟨i, ⟨hi, he⟩, rfl⟩
  have hid : ringId e (ringLocal i) = i := by
    simp only [ringEngine, ringId, ringLocal] at he ⊢; omega
  rw [hid, desc_oldestLost]
  split
  · simp [Desc.losesOldest, hopen]
  · rename_i hne
    rw [oldestLost_rings] at hi
    rcases mem_keys_set hi with hir | hi
    · exact absurd hir hne
    · simpa [hid] using h (ringLocal i) ⟨i, ⟨hi, he⟩, rfl⟩

/-! ## The command -/

/-- The storage writer of an engine has taken the slot at the head of its FIFO, and is at work. -/
def Dev.slotTaken (d : Dev) (e : Nat) (rest : List RingSlot) : Dev :=
  d.writerAtWork (d.modEngine e fun g => { g with fifo := rest }).rings

/-- The writer is done: what the machine's base ports had met before stands again. -/
def Dev.writerDone (d : Dev) (old : StackRec) : Dev := d.modStack fun s => { s with meets := old.meets, met := old.met }

/-- A slot's write whose base port has met nothing that counts. -/
theorem portsOut_none {d : Dev} (old : StackRec) (h : d.stack.met = []) : d.portsOut old = d.writerDone old := by
  rw [Dev.portsOut, h]; rfl

theorem opSlotWrite_head {d : Dev} {e : Fin 16} {slot : RingSlot} {rest : List RingSlot} (hfifo : (d.engine e).fifo = slot :: rest)
    (hworks : d.ringWorks e = true) :
    opSlotWrite e false {} [] d =
      (((d.slotTaken e rest).ringWrite (ringId e slot.ring) slot.word).portsOut d.stack).ringLoss e := by
  rw [opSlotWrite, hfifo]
  simp only [hworks, if_true]
  rfl

/-- A part that comes back as it was need not be listed. -/
theorem OnlyParts.drop {l : List Part} {p : Part} {d t : Dev} (h : OnlyParts (p :: l) d t) (hp : p.same d t) : OnlyParts l d t := by
  intro q hq
  by_cases hqp : q = p
  · exact hqp ▸ hp
  · exact h q (by simp [hqp, hq])

theorem desc_congr {d t : Dev} (h : t.rings = d.rings) (r : Nat) : t.desc r = d.desc r := by rw [Dev.desc, h, Dev.desc]

theorem wordData_congr {d t : Dev} (h : t.mem = d.mem) (p : Nat) : t.wordData p = d.wordData p := by
  rw [Dev.wordData, h, Dev.wordData]

theorem physWord_congr {d t : Dev} (h : t.mem = d.mem) (w : Nat) : t.physWord w = d.physWord w := by
  unfold Dev.physWord Dev.relieved
  rw [h]

theorem slotTaken_parts (d : Dev) (e : Nat) (rest : List RingSlot) : OnlyParts [.rings, .stack] d (d.slotTaken e rest) := by
  simp [Dev.slotTaken, Dev.writerAtWork]

theorem reg_slotTaken (d : Dev) (e i : Nat) (rest : List RingSlot) : (d.slotTaken e rest).reg i = d.reg i := rfl

theorem engine_slotTaken (d : Dev) (e : Nat) (rest : List RingSlot) :
    (d.slotTaken e rest).engine e = { d.engine e with fifo := rest } := by
  rw [Dev.engine, Dev.slotTaken, Dev.writerAtWork, modStack_rings, modRings_rings, Dev.modEngine,
    SMap.at_set _ _ _ _ _ _ fun _ => rfl, if_pos rfl]

/-- The machine after the writer has overwritten the oldest slot, at an address, of a full ring. -/
def Dev.oldestOverwritten (d : Dev) (e : Nat) (rest : List RingSlot) (a : Nat) (w : RowWord) (r : Nat) : Dev :=
  (((d.slotTaken e rest).slotPut a w).1.oldestLost r).writerDone d.stack

section
variable {d : Dev} {e a r : Nat} {w : RowWord} {rest : List RingSlot} (hm : d.meetsNothing)
  (hend : slotEnd (ringInDie a) (d.slotPut a w).2 = some true)
include hm hend

/-- The write ends for the writer at work as it does for the machine it works in. -/
theorem slotPut_slotTaken : ((d.slotTaken e rest).slotPut a w).2 = (d.slotPut a w).2 ∧
    ((d.slotTaken e rest).slotPut a w).1.mem = (d.slotPut a w).1.mem ∧
    ((d.slotTaken e rest).slotPut a w).1.ext = (d.slotPut a w).1.ext := by
  rw [Dev.slotTaken]
  exact slotPut_atWork _ hm hend

theorem slotEnd_slotTaken : slotEnd (ringInDie a) ((d.slotTaken e rest).slotPut a w).2 = some true := by
  rwa [(slotPut_slotTaken hm hend).1]

theorem slotPut_slotTaken_frame : SlotPutFrame (d.slotTaken e rest) ((d.slotTaken e rest).slotPut a w).1 :=
  slotPut_frame (.inr rfl) (slotEnd_slotTaken hm hend)

/-- Base ports have met nothing that counts (R29, R30). -/
theorem met_oldestLost : (((d.slotTaken e rest).slotPut a w).1.oldestLost r).stack.met = [] := by
  obtain ⟨ms, hstack⟩ := (slotPut_slotTaken_frame (e := e) (rest := rest) hm hend).stack
  rw [oldestLost_parts _ r .stack (by simp), hstack]
  rfl

theorem stack_oldestOverwritten : (d.oldestOverwritten e rest a w r).stack = d.stack := by
  obtain ⟨ms, hstack⟩ := (slotPut_slotTaken_frame (e := e) (rest := rest) hm hend).stack
  rw [Dev.oldestOverwritten, Dev.writerDone, modStack_stack, oldestLost_parts _ r .stack (by simp), hstack]
  rfl

theorem oldestOverwritten_parts :
    OnlyParts [.regs, .mem, .rings, .strike, .ext] d (d.oldestOverwritten e rest a w r) := by
  have htaken : OnlyParts [.stack, .regs, .mem, .rings, .strike, .ext] d (d.slotTaken e rest) :=
    (slotTaken_parts d e rest).mono (by simp)
  have hput := htaken.trans ((slotPut_slotTaken_frame (e := e) (rest := rest) hm hend).parts.mono (by simp))
  have hlost := hput.trans ((oldestLost_parts _ r).mono (by simp))
  exact OnlyParts.drop (p := .stack) (by simpa [Dev.oldestOverwritten, Dev.writerDone] using hlost)
    (stack_oldestOverwritten hm hend)

/-- The memories are as the write of the slot leaves them. -/
theorem memories_oldestOverwritten :
    (d.oldestOverwritten e rest a w r).mem = (d.slotPut a w).1.mem ∧ (d.oldestOverwritten e rest a w r).ext = (d.slotPut a w).1.ext := by
  obtain ⟨-, hmem, hext⟩ := slotPut_slotTaken (e := e) (rest := rest) hm hend
  rw [Dev.oldestOverwritten, Dev.writerDone, modStack_mem, modStack_ext]
  exact ⟨(oldestLost_parts _ r .mem (by simp)).trans hmem, (oldestLost_parts _ r .ext (by simp)).trans hext⟩

theorem rings_slotPut_slotTaken : ((d.slotTaken e rest).slotPut a w).1.rings = (d.slotTaken e rest).rings :=
  (slotPut_slotTaken_frame hm hend).parts .rings (by simp)

theorem desc_slotPut_slotTaken (i : Nat) : ((d.slotTaken e rest).slotPut a w).1.desc i = d.desc i :=
  desc_congr (rings_slotPut_slotTaken hm hend) i

theorem rings_oldestOverwritten : (d.oldestOverwritten e rest a w r).rings =
    { (d.slotTaken e rest).rings with desc := (d.slotTaken e rest).rings.desc.set r {} ((d.desc r).losesOldest d.now) } := by
  have hkeeper := (slotPut_slotTaken_frame (e := e) (rest := rest) hm hend).parts .keeper (by simp)
  have hnow : ((d.slotTaken e rest).slotPut a w).1.now = d.now := by rw [Dev.now, hkeeper]; rfl
  rw [Dev.oldestOverwritten, Dev.writerDone, modStack_rings, oldestLost_rings, Dev.putDesc, modRings_rings,
    rings_slotPut_slotTaken hm hend, desc_slotPut_slotTaken hm hend, hnow]

/-- The ring's descriptor shows the loss, at the current crossing (R271). -/
theorem desc_oldestOverwritten : (d.oldestOverwritten e rest a w r).desc r = (d.desc r).losesOldest d.now := by
  rw [Dev.desc, rings_oldestOverwritten hm hend, SMap.at_set _ _ _ _ _ _ fun _ => rfl, if_pos rfl]

/-- The engine has the slot no more in its FIFO. -/
theorem fifo_oldestOverwritten : ((d.oldestOverwritten e rest a w r).engine e).fifo = rest := by
  have hengine : (d.oldestOverwritten e rest a w r).engine e = (d.slotTaken e rest).engine e := by
    rw [Dev.engine, rings_oldestOverwritten hm hend, Dev.engine]
  rw [hengine, engine_slotTaken]

/-- Registers that belong neither to a memory controller nor to the ring's losses are as they were. -/
theorem reg_oldestOverwritten {i : Nat} (hi : i < mcBase 0 ∨ mcBase 2 ≤ i)
    (h1 : i ≠ ringBase (ringEngine r) + Reg.PREM_LOSS_COUNT.COUNT.off) (h2 : i ≠ ringBase (ringEngine r) + Reg.ENG_EVENT.PREM_LOSS.off) :
    (d.oldestOverwritten e rest a w r).reg i = d.reg i := by
  rw [Dev.oldestOverwritten, Dev.writerDone, reg_modStack, reg_oldestLost h1 h2, (slotPut_slotTaken_frame hm hend).regs i hi,
    reg_slotTaken]

/-- The loss is counted, and its event stands. -/
theorem counted_oldestOverwritten :
    Counted (ringBase (ringEngine r)) Reg.PREM_LOSS_COUNT.COUNT 1 d (d.oldestOverwritten e rest a w r) ∧
      (d.oldestOverwritten e rest a w r).fld (ringBase (ringEngine r)) Reg.ENG_EVENT.PREM_LOSS = 1 := by
  obtain ⟨hcount, hevent⟩ := counted_oldestLost ((d.slotTaken e rest).slotPut a w).1 r
  have hreg := (slotPut_slotTaken_frame (e := e) (rest := rest) hm hend).regs
    (ringBase (ringEngine r) + Reg.PREM_LOSS_COUNT.COUNT.off) (.inr (by simp only [mcBase, ringBase]; omega))
  rw [Dev.oldestOverwritten, Dev.writerDone, Counted, fld_modStack, fld_modStack]
  have hfld : ((d.slotTaken e rest).slotPut a w).1.fld (ringBase (ringEngine r)) Reg.PREM_LOSS_COUNT.COUNT =
      d.fld (ringBase (ringEngine r)) Reg.PREM_LOSS_COUNT.COUNT := by
    rw [Dev.fld, hreg, reg_slotTaken, Dev.fld]
  exact ⟨hfld ▸ hcount, hevent⟩

/-- Nothing follows the write: no cause arose, and the clocks and the root's events are as they were. -/
theorem quiet_oldestOverwritten : (d.oldestOverwritten e rest a w r).quiet = d.quiet := by
  have hparts := oldestOverwritten_parts (e := e) (r := r) (rest := rest) hm hend
  refine quiet_congr (hparts .kryup (by simp)) (hparts .clk (by simp)) (reg_oldestOverwritten hm hend ?_ ?_ ?_)
    (by rw [stack_oldestOverwritten hm hend])
  all_goals simp only [mcBase, ringBase, rootBase, Reg.IRQ_CTRL.off]; omega

end

theorem ringEngine_ringId (e : Fin 16) (l : Fin 16384) : ringEngine (ringId e l) = e := by
  simp only [ringEngine, ringId]; omega

/-- The command, where the slot at the head of the FIFO goes into a full ring and its write is good. -/
theorem opSlotWrite_full {d : Dev} {e : Fin 16} {l : Fin 16384} {w : RowWord} {rest : List RingSlot} {x : Desc}
    (hx : d.desc (ringId e l) = x) (hworks : d.ringWorks e = true) (hm : d.meetsNothing)
    (hfifo : (d.engine e).fifo = { ring := l, word := w } :: rest) (hflush : (d.engine e).flushing = false)
    (hdead : d.noneDead e) (hopen : x.state = .opened) (hcap : x.logCap ≤ 16) (hwr : x.wr < 2 ^ 32) (hage : x.age < 2 ^ 32)
    (hfull : x.occ = x.cap) (hend : slotEnd (ringInDie (x.slotAddr x.age)) (d.slotPut (x.slotAddr x.age) w).2 = some true) :
    opSlotWrite e false {} [] d = d.oldestOverwritten e rest (x.slotAddr x.age) w (ringId e l) := by
  have hwrite := ringWrite_full (r := ringId e l) (w := w) (d := d.slotTaken e rest) hx (.inr rfl)
    (by rw [ringEngine_ringId, engine_slotTaken]; exact hflush) hopen hwr hage hcap hfull (slotEnd_slotTaken hm hend)
  have hdesc := (desc_slotPut_slotTaken (e := e) (rest := rest) hm hend (ringId e l)).trans hx
  rw [opSlotWrite_head hfifo hworks, hwrite, portsOut_none _ (met_oldestLost hm hend)]
  refine ringLoss_noneDead ((noneDead_congr (modStack_rings _ _)).mpr (noneDead_oldestLost (hdesc.symm ▸ hopen) ?_))
  exact (noneDead_congr (rings_slotPut_slotTaken hm hend)).mpr hdead

/-- Settles O36: WR and AGE of a full ring name one place, so a good write lands on the oldest slot and moves both on; the occupancy
stays, so the tally tree hears of nothing, and a write that is good offers Kryup no cause, so nothing follows the command. -/
theorem fullRingLosesItsOldestSlot : Obligations.FullRingLosesItsOldestSlot := by
  unfold Obligations.FullRingLosesItsOldestSlot
  intro s e l w rest hquiet d b g r x oldest put hworks _ _ hfifo hflush hdead hopen hcap hwr hage _ hfull hend _
  obtain ⟨-, -, -, -, hmeets⟩ := d.quiet_iff.mp hquiet
  have hm : d.meetsNothing := .inl hmeets
  have hengine : ringEngine r = e := ringEngine_ringId e l
  have hop := opSlotWrite_full rfl hworks hm hfifo hflush hdead hopen hcap hwr hage hfull hend
  obtain ⟨hmem, hext⟩ := memories_oldestOverwritten (e := e) (r := r) (rest := rest) hm hend
  obtain ⟨hcount, hevent⟩ := counted_oldestOverwritten (e := e) (r := r) (rest := rest) hm hend
  rw [hengine] at hcount hevent
  refine completes_quiet (f := opSlotWrite e false {} []) rfl ?_ ?_
  · rw [hop, quiet_oldestOverwritten hm hend]; exact hquiet
  rw [hop]
  refine ⟨hmem, hext, fun hin => ?_, desc_oldestOverwritten hm hend, hcount, hevent, fifo_oldestOverwritten hm hend,
    (oldestOverwritten_parts hm hend).mono (by simp)⟩
  rw [wordData_congr hmem, physWord_congr hmem]
  exact wordData_slotPut hm hin hend

end Sys2Proof.Machine

/-! # Whole frames that do not hold (R36, R84, R85, R237) -/

namespace Sys2Proof.Machine

set_option Elab.async false

/-- What a command completes with is its update of the machine, settled. -/
theorem completes_iff {c : Instr} {s : State} {f : Dev → Dev} {P : Dev → Prop} (he : exec c s = onDev f s) :
    Completes c s P ↔ P (f s.dev).settle := by
  refine ⟨?_, completes_any he⟩
  rintro ⟨t, ht, -, hP⟩
  rw [he, onDev_next] at ht
  cases ht
  exact hP

/-- The machine of reset with MGMT on, so that control space answers. -/
def managed : Dev := ({} : Dev).setPd 1 pdOn

/-! ## A write of a column unit's FAULT (R36) -/

/-- The FAULT register of column 0's unit in a layer. -/
def columnFaultAddr (layer : Nat) : Nat := columnBase layer 0 + Reg.FAULT.START_FAIL.off

/-- Column 0 with its first specific cause recorded, which its five units show alike; its B0 unit is in STOPPED. -/
def columnWithCause : Dev :=
  (managed.setFld (columnBase 0 0) Reg.STATE.SELF UState.stopped.code).setReg (columnFaultAddr 1) 0x100

theorem columnWithCause_quiet : columnWithCause.quiet = true := by decide +kernel

/-- The B0 unit's FAULT register and the row of its bits. -/
def columnFaultUnit : Machine.Unit := unitOf (columnFaultAddr 0)

theorem columnFault_row : unitAt (columnFaultAddr 0) = some columnFaultUnit ∧
    (columnFaultUnit.rowAt (columnFaultAddr 0 - columnFaultUnit.base)).isSome = true ∧
    columnFaultUnit.kwAt (columnFaultAddr 0 - columnFaultUnit.base) = false ∧
    columnFaultAddr 0 - columnFaultUnit.base = Reg.FAULT.START_FAIL.off := by decide +kernel

/-- The write to the B0 unit clears the cause in the M1 unit as well. -/
theorem columnFaultWrite_clearsOther :
    (opRegisterWrite 7 (BitVec.ofNat 32 (columnFaultAddr 0)) 0x100 {} columnWithCause).settle.reg (columnFaultAddr 1) ≠
      columnWithCause.reg (columnFaultAddr 1) := by decide +kernel

/-- Refutes O14 in its first clause: a write of a column unit's FAULT clears the column's specific causes in all five units (R36), so
it is not the addressed register alone that changes. -/
theorem not_registerAccessesFollowTheirCodes : ¬ Obligations.RegisterAccessesFollowTheirCodes := by
  unfold Obligations.RegisterAccessesFollowTheirCodes
  intro h
  obtain ⟨hAt, hRow, hKw, hOff⟩ := columnFault_row
  obtain ⟨r, hr⟩ := Option.isSome_iff_exists.mp hRow
  obtain ⟨hWrite, -, -⟩ := h { dev := columnWithCause } 7 (BitVec.ofNat 32 (columnFaultAddr 0)) 0x100 {} columnFaultUnit r
    columnWithCause_quiet (by decide) (by decide) (by decide) (by decide +kernel) hAt hr
  have hDone := hWrite hKw (by rw [show (BitVec.ofNat 32 (columnFaultAddr 0)).toNat = columnFaultAddr 0 from rfl, hOff]; decide)
    (by rw [show (BitVec.ofNat 32 (columnFaultAddr 0)).toNat = columnFaultAddr 0 from rfl, hOff]; decide)
    (by rw [show (BitVec.ofNat 32 (columnFaultAddr 0)).toNat = columnFaultAddr 0 from rfl, hOff]; decide)
  obtain ⟨-, -, -, hRegs⟩ := (completes_iff (f := opRegisterWrite 7 (BitVec.ofNat 32 (columnFaultAddr 0)) 0x100 {}) rfl).mp hDone
  exact columnFaultWrite_clearsOther (hRegs _ (by decide))

/-- The same write, waiting for the arbiter. -/
def columnFaultAccess : Access := { path := 7, write := true, addr := columnFaultAddr 0, data := 0x100 }

def columnFaultWaits : Dev := columnWithCause.modCtl fun c => { c with waiting := [columnFaultAccess] }

theorem columnFaultWaits_next : columnFaultWaits.quiet = true ∧ columnFaultWaits.nextGrant = some columnFaultAccess ∧
    columnFaultWaits.admission 7 (columnFaultAddr 0) = stOk ∧ columnFaultWaits.implemented 7 (columnFaultAddr 0) = true ∧
    columnFaultWaits.turnedAway (columnFaultAddr 0) = false := by decide +kernel

theorem columnFaultGrant_clearsOther :
    (opCtrlGrant {} columnFaultWaits).settle.reg (columnFaultAddr 1) ≠ columnFaultWaits.reg (columnFaultAddr 1) := by decide +kernel

/-- Refutes O15 in its clause of a granted write, by the write of O14. -/
theorem not_arbiterAndPaths : ¬ Obligations.ArbiterAndPaths := by
  unfold Obligations.ArbiterAndPaths
  intro h
  obtain ⟨hAt, hRow, hKw, hOff⟩ := columnFault_row
  obtain ⟨r, hr⟩ := Option.isSome_iff_exists.mp hRow
  obtain ⟨hQuiet, hNext, hAdm, hImpl, hAway⟩ := columnFaultWaits_next
  obtain ⟨-, hGrant, -⟩ := h.1 { dev := columnFaultWaits } hQuiet
  obtain ⟨-, hWrite⟩ := hGrant columnFaultAccess {} columnFaultUnit r hNext rfl hAdm hImpl hAway (by decide) (by decide) hAt hr
  have hDone := hWrite rfl hKw (by rw [show columnFaultAccess.addr = columnFaultAddr 0 from rfl, hOff]; decide)
    (by rw [show columnFaultAccess.addr = columnFaultAddr 0 from rfl, hOff]; decide)
    (by rw [show columnFaultAccess.addr = columnFaultAddr 0 from rfl, hOff]; decide)
  obtain ⟨-, -, -, -, -, hRegs⟩ := (completes_iff (f := opCtrlGrant {}) rfl).mp hDone
  exact columnFaultGrant_clearsOther (hRegs _ (by decide))

/-! ## An access over a base port returns its bank's turn to LOWER (R237) -/

/-- Column 0's M1 unit runs, domain 6 is on, and the turn of its bank 0 is UPPER's, as it is after a row cycle in which both row ports
asked and LOWER was granted. -/
def upperTurn : Dev :=
  { (managed.setPd 6 pdOn).setFld (columnBase 1 0) Reg.STATE.SELF UState.running.code with mem := { turn := ({} : SMap Nat).put 0 1 } }

theorem upperTurn_reads : upperTurn.quiet = true ∧ upperTurn.domainOn 6 = true ∧ upperTurn.reached 7 (winDataAddr winTest 7) = true ∧
    upperTurn.winAddr winTest 7 = 0 ∧ upperTurn.baseBarred false 0 = false := by decide +kernel

theorem testRead_turn : (opTestWinAccess 7 false 0 {} upperTurn).settle.mem ≠ upperTurn.mem := by decide +kernel

/-- Refutes O16 in its clause of a test-window read: the access is a request at the bank, and a row cycle in which not both row ports
ask leaves the turn bit at LOWER (R237), so the memory's record changes where the bit was UPPER. -/
theorem not_windowsReachTheirStores : ¬ Obligations.WindowsReachTheirStores := by
  unfold Obligations.WindowsReachTheirStores
  intro h
  obtain ⟨hQuiet, hOn, hReached, hAddr, hOpen⟩ := upperTurn_reads
  obtain ⟨-, -, hTest⟩ := h { dev := upperTurn } 7 0 hQuiet rfl hOn
  have hRead := (hTest 0 0 hReached hAddr hOpen rfl rfl).1
  obtain ⟨-, -, -, hParts, -⟩ := (completes_iff (f := opTestWinAccess 7 false 0 {}) rfl).mp hRead
  exact testRead_turn (hParts .mem (by decide))

/-- The same machine with a read of the debug window outstanding at address 0. -/
def upperTurnDebug : Dev :=
  upperTurn.modCtl fun c => { c with debugPend := c.debugPend.put 7 { path := 7, addr := winDataAddr winDebug 7 } }

/-- Its data-space offset, within the die. -/
def upperTurnOffset : Nat := dsOffset (upperTurnDebug.winAddr winDebug 7)

theorem upperTurnDebug_reads : upperTurnDebug.quiet = true ∧ dsKeyOf (upperTurnDebug.winAddr winDebug 7) = 0 ∧
    upperTurnDebug.winAddr winDebug 7 % 4 = 0 ∧ upperTurnOffset < 2 ^ 30 ∧
    upperTurnDebug.baseBarred false (upperTurnOffset / 32) = false ∧
    upperTurnDebug.wordCheck (upperTurnDebug.physWord (upperTurnOffset / 32)) = memOk := by decide +kernel

theorem debugRead_turn : (opDebugWinDone 7 {} upperTurnDebug).settle.mem ≠ upperTurnDebug.mem := by decide +kernel

/-- Refutes O17 in its clause of a read of the memory die, by the turn bit of O16. -/
theorem not_debugWindowIssuesAndCompletes : ¬ Obligations.DebugWindowIssuesAndCompletes := by
  unfold Obligations.DebugWindowIssuesAndCompletes
  intro h
  obtain ⟨hQuiet, hKey, hAlign, hOff, hOpen, hCheck⟩ := upperTurnDebug_reads
  obtain ⟨-, hDone⟩ := h { dev := upperTurnDebug } 7 false 0 hQuiet
  obtain ⟨-, hDie, -⟩ := hDone { path := 7, addr := winDataAddr winDebug 7 } rfl rfl rfl hKey hAlign
  have hRead := (hDie hOff hOpen hCheck).1 rfl
  obtain ⟨-, hParts⟩ := (completes_iff (f := opDebugWinDone 7 {}) rfl).mp hRead
  exact debugRead_turn (hParts .mem (by decide))

/-! ## A receive queue without room (R200) -/

/-- Lane 0's receive queue lies in column 0's bank 7, whose turn is UPPER's. -/
def upperTurnQueue : Dev :=
  { managed.setFld (columnBase 1 0) Reg.STATE.SELF UState.running.code with
    mem := { turn := ({} : SMap Nat).put 7 1 }
    links := ({} : SMap LinkRec).put 0 { rxWait := [{ msg := { typ := msgEvent, body := List.replicate 25 0 } }] } }

/-- The message that waits there, of 8 words in a queue of 8. -/
def eightWordEvent : Held := { msg := { typ := msgEvent, body := List.replicate 25 0 } }

/-- The row word that holds the receive control word. -/
def upperTurnControl : Nat :=
  queueWord (upperTurnQueue.lane 0).portCol.toNat (upperTurnQueue.lane 0).portRxq.toNat 0

theorem upperTurnQueue_waits : upperTurnQueue.quiet = true ∧ (upperTurnQueue.link 0).rxWait = [eightWordEvent] ∧
    upperTurnQueue.baseBarred false upperTurnControl = false ∧
    upperTurnQueue.wordCheck (upperTurnQueue.physWord upperTurnControl) = memOk ∧ creditClass eightWordEvent.msg.typ ≠ .none := by
  decide +kernel

theorem queueRead_turn : (opReceiveQueueWrite 0 [] upperTurnQueue).settle.mem ≠ upperTurnQueue.mem := by decide +kernel

/-- Refutes O28 in its clause of a credited message that waits: the read of the receive control word is a request at bank 7, which
returns the bank's turn to LOWER (R237), as in O16. -/
theorem not_portQueuesCarryMessages : ¬ Obligations.PortQueuesCarryMessages := by
  unfold Obligations.PortQueuesCarryMessages
  intro h
  obtain ⟨hQuiet, hWait, hOpen, hCheck, hClass⟩ := upperTurnQueue_waits
  obtain ⟨hReceive, -⟩ := h { dev := upperTurnQueue } 0 eightWordEvent hQuiet
  obtain ⟨-, -, hFull⟩ := hReceive hWait ⟨hOpen, hCheck⟩
  obtain ⟨-, hParts⟩ := (completes_iff (f := opReceiveQueueWrite 0 []) rfl).mp (hFull (by decide +kernel) hClass)
  exact queueRead_turn (hParts .mem (by decide))

/-! ## Counts of corrected errors that are listed twice -/

/-- A via listed twice among the counts of corrected errors. The statement's machine is any quiet one, and the one form of the sparse maps
of O4 does not cover this map. -/
def viaListedTwice : Dev := { stack := { viaCount := ⟨[(5, 1), (5, 7)]⟩ } }

theorem viaListedTwice_quiet : viaListedTwice.quiet = true := by decide +kernel

theorem viaListedTwice_decays : (opViaCountDecay viaListedTwice).settle.stack.viaCount.num 5 ≠ viaListedTwice.stack.viaCount.num 5 - 1 := by
  decide +kernel

/-- Refutes O34 in its clause of the decay of via counts: an entry that falls to 0 is taken out, and a second entry of the same via, which
nothing in the statement excludes, then shows in its place. -/
theorem not_banksMarchesAndClockVias : ¬ Obligations.BanksMarchesAndClockVias := by
  unfold Obligations.BanksMarchesAndClockVias
  intro h
  obtain ⟨-, -, -, -, -, -, hDecay⟩ := h.1 { dev := viaListedTwice } 0 0 0 0 viaListedTwice_quiet
  obtain ⟨hCount, -⟩ := (completes_iff (f := opViaCountDecay) rfl).mp hDecay
  exact viaListedTwice_decays (hCount 5)

end Sys2Proof.Machine

/-! # The machine as a block (R53) -/

namespace Sys2Proof.Machine

set_option Elab.async false

/-- The trunk runs from FIO in a crossing in which every group swallows two pulses and has had its seven fabric cycles, so that the
trunk alone has its eighth still to come. -/
def trunkAlone : Dev :=
  { (({} : Dev).setPd 0 pdOn).setFld clkBase Reg.CLK_STATUS.TRUNK_SRC NetSrc.fio.code with
    keeper := { swallowed := ⟨(List.range 16).map fun g => (g, 2)⟩ }
    fabric := { cycle := ⟨(List.range 17).map fun g => (g, 7)⟩ } }

theorem trunkAlone_rests : trunkAlone.quiet = true ∧ (∀ g : Fin 16, trunkAlone.groupTicks g = false) ∧
    (∀ w : Fin 2, trunkAlone.loopSends (mcBase w) 0x200 = false) ∧ trunkAlone.mode ≠ modeProof := by decide +kernel

theorem idle_trunkAlone : (opIdle trunkAlone).settle.fabric.ticks ≠ trunkAlone.fabric.ticks := by decide +kernel

/-- What a step answers tells the machine it leaves. -/
theorem dev_of_onDev {f : Dev → Dev} {s t : State} (h : onDev f s = .next t) : (f s.dev).settle = t.dev := by
  rw [onDev_next] at h
  cases h
  rfl

theorem opIdle_of_step {d e : Dev} (h : step { pending := [], dev := d } = .next { pending := [], dev := e }) : (opIdle d).settle = e := by
  rw [step_nil rfl] at h
  exact dev_of_onDev (f := opIdle) (s := { pending := [], dev := d }) (t := { pending := [], dev := e }) h

/-- Refutes O1 in its last clause: a crossing in which no group has a fabric cycle to come may still have one of the trunk, and a step
on an empty queue is then that cycle (R53). -/
theorem not_stepTakesTheFrontCommandOrIdles : ¬ Obligations.StepTakesTheFrontCommandOrIdles := by
  unfold Obligations.StepTakesTheFrontCommandOrIdles
  intro h
  obtain ⟨hQuiet, hGroups, hLoops, hMode⟩ := trunkAlone_rests
  have hStays := (h.2 trunkAlone hQuiet).2 hGroups hLoops hMode
  exact idle_trunkAlone (congrArg (fun d => d.fabric.ticks) (opIdle_of_step hStays))

theorem resErr_trunkAlone : (opResErr 0 false [] trunkAlone).settle.fabric.ticks ≠ trunkAlone.fabric.ticks := by decide +kernel

/-- Refutes O9 in its second clause, by the machine of O1: the trunk's own cycle is counted though no group takes part in it. -/
theorem not_residueErrorsAreCountedAndLogged : ¬ Obligations.ResidueErrorsAreCountedAndLogged := by
  unfold Obligations.ResidueErrorsAreCountedAndLogged
  intro h
  obtain ⟨hQuiet, hGroups, -, -⟩ := trunkAlone_rests
  obtain ⟨-, hNone, -⟩ := h
  have hStays : (opResErr 0 false [] trunkAlone).settle = trunkAlone :=
    (completes_iff (f := opResErr 0 false []) rfl).mp (hNone { dev := trunkAlone } 0 false [] hQuiet hGroups)
  exact resErr_trunkAlone (by rw [hStays])

/-- Settles O3: the reset state is one machine, of which each part is evaluated. -/
theorem resetIsSettledAndCanonical : Obligations.ResetIsSettledAndCanonical := by
  unfold Obligations.ResetIsSettledAndCanonical
  decide +kernel

end Sys2Proof.Machine

/-! # What a loop, a release and a loss take with them (R164, R168, R380) -/

namespace Sys2Proof.Machine

set_option Elab.async false

/-! ## A lane in the far-end loop sends what it receives again (R168) -/

/-- Lane 5 runs block-locked in the far-end loop with 2.1 in force, while crossings are counted under a latency contract. -/
def loopedLane : Dev :=
  (((((managed.setPd 0 pdOn).setFld clkBase Reg.CLK_STATUS.TRUNK_SRC NetSrc.fio.code).setFld keeperBase Reg.LATENCY.L 1).setFld
    (laneBase 5) Reg.STATE.SELF UState.running.code).setBlk 5 blkLocked).setFld (laneBase 5) Reg.LINK_VER.NEGOTIATED 0x21
    |>.setFld (laneBase 5) Reg.LINK_STATE.LOOPED 1

/-- The MARK of crossing 0. -/
def markZero : Payload := withChk ctlMark

theorem loopedLane_takesMark : loopedLane.quiet = true ∧ loopedLane.between (5 : Fin 144) = true ∧ ctlType markZero = ctlMark ∧
    chkOk markZero = true ∧ loopedLane.version (5 : Fin 144) ≠ 0 ∧ loopedLane.windowed = true ∧
    (loopedLane.lane (5 : Fin 144)).evidence = none := by decide +kernel

theorem mark_loopedLane : (opMark 5 markZero loopedLane).settle.links.items ≠ loopedLane.links.items := by decide +kernel

/-- Refutes O23 in its clause of MARK: the lane may stand in the far-end loop, whose transmitter then sends the MARK again (R168). -/
theorem not_controlBlocksAct : ¬ Obligations.ControlBlocksAct := by
  unfold Obligations.ControlBlocksAct
  intro h
  obtain ⟨hQuiet, hBetween, hType, hChk, hVersion, hWindow, hEvidence⟩ := loopedLane_takesMark
  obtain ⟨hMark, -⟩ := h { dev := loopedLane } 5 markZero hQuiet hBetween
  obtain ⟨-, -, -, hParts⟩ := (completes_iff (f := opMark 5 markZero) rfl).mp (hMark hType hChk hVersion hWindow hEvidence)
  exact mark_loopedLane (congrArg SMap.items (hParts .links (by decide)))

/-- A HIT of crossing 0 with one block of data. -/
def hitZero : WireMsg :=
  { som := somOf { typ := msgHit, body := [0] }, data := [0], eom := eomOf 0x21 (somOf { typ := msgHit, body := [0] }) [0] }

theorem loopedLane_takesHit : loopedLane.proofDepth (laneBase (5 : Fin 144)) = none ∧
    loopedLane.takes (5 : Fin 144) msgHit hitZero = true ∧ isTrunk (5 : Fin 144) = false ∧
    (loopedLane.lane (5 : Fin 144)).directCfg.getLsbD 0 = false ∧
    loopedLane.judge (5 : Fin 144) (extendStamp loopedLane.now (somStamp hitZero.som)) = .kept := by decide +kernel

theorem hit_loopedLane : (opHit 5 hitZero loopedLane).settle.links.items ≠ loopedLane.links.items := by decide +kernel

/-- Refutes O25 in its clause of HIT, by the lane of O23. -/
theorem not_messagesReachTheirConsumers : ¬ Obligations.MessagesReachTheirConsumers := by
  unfold Obligations.MessagesReachTheirConsumers
  intro h
  obtain ⟨hDepth, hTakes, hTrunk, hDirect, hFit⟩ := loopedLane_takesHit
  obtain ⟨hHit, -⟩ := h { dev := loopedLane } 5 hitZero loopedLane_takesMark.1 hDepth
  obtain ⟨-, -, hParts, -⟩ := (completes_iff (f := opHit 5 hitZero) rfl).mp (hHit hTakes hTrunk hDirect hFit)
  exact hit_loopedLane (congrArg SMap.items (hParts .links (by decide)))

/-! ## Loss of lock takes the lane's management accesses with it (R164) -/

/-- Trunk lane 128 runs block-locked, and an access that a management request brought over it waits for the arbiter. -/
def managedTrunk : Dev :=
  (((managed.setFld (laneBase 128) Reg.STATE.SELF UState.running.code).setBlk 128 blkLocked).setFld
    (laneBase 128) Reg.LANE_STATUS.LOS 0).modCtl fun c => { c with waiting := [{ path := 5, lane := some 128 }] }

theorem managedTrunk_locked : managedTrunk.quiet = true ∧ managedTrunk.ust (laneBase (128 : Fin 144)) ≠ .off ∧
    managedTrunk.fld (laneBase (128 : Fin 144)) Reg.LANE_STATUS.LOS = 0 ∧
    managedTrunk.proofDepth (laneBase (128 : Fin 144)) = none ∧ managedTrunk.blkState (128 : Fin 144) = blkLocked ∧
    managedTrunk.fld (laneBase (128 : Fin 144)) Reg.BLK_CTRL.FORCE_MANUAL = 0 ∧
    (managedTrunk.link (128 : Fin 144)).txQueue = [] := by decide +kernel

theorem losSet_managedTrunk : (opLosSet 128 managedTrunk).settle.ctl.waiting ≠ managedTrunk.ctl.waiting := by decide +kernel

/-- Refutes O19 in its clause of LOS asserting: negotiation goes DOWN with lock, and the access that waits for a request of the lane
is dropped (R164), so control space changes. -/
theorem not_receiverSignalAndAdaptation : ¬ Obligations.ReceiverSignalAndAdaptation := by
  unfold Obligations.ReceiverSignalAndAdaptation
  intro h
  obtain ⟨hQuiet, hOn, hLos, hDepth, hLock, hManual, hQueue⟩ := managedTrunk_locked
  obtain ⟨hSet, -⟩ := h.1 { dev := managedTrunk } 128 hQuiet hOn
  obtain ⟨-, -, -, -, -, -, -, -, hParts⟩ :=
    (completes_iff (f := opLosSet 128) rfl).mp (hSet hLos ⟨hDepth, hLock, hManual, hQueue⟩)
  exact losSet_managedTrunk (congrArg CtlRec.waiting (hParts .ctl (by decide)))

/-! ## A start that fails drops a release that has begun (R380) -/

/-- Lane group 0 starts past its limit, with the outputs of its staged release enabled and logic in column 0 of B1, which has
power. -/
def releasingGroup : Dev :=
  (((managed.setFld (laneGroupBase 0) Reg.STATE.SELF UState.starting.code).setFld (laneGroupBase 0) Reg.LG_LOCK_LIMIT.LIMIT 0).setFld
    (columnBase 2 0) Reg.STATE.SELF UState.stopped.code).modUnits fun r =>
      { r with user := ({} : SMap UserUnit).put (laneGroupBase 0) { rel := .outputs, occL2 := [0] } }

/-- The TILE_EVENT register of that column's tile in B1. -/
def releasingTileEvent : Nat := columnBase 2 0 + Reg.TILE_EVENT.FENCE_ENGAGED.off

theorem releasingGroup_late : releasingGroup.quiet = true ∧ releasingGroup.ust (laneGroupBase (0 : Fin 18)) = .starting ∧
    releasingGroup.fld (laneGroupBase (0 : Fin 18)) Reg.LG_STATUS.PLL_LOCK = 0 ∧
    max (releasingGroup.group (0 : Fin 18)).pgTick (releasingGroup.units.startTick.num (laneGroupBase (0 : Fin 18))) +
      releasingGroup.fld (laneGroupBase (0 : Fin 18)) Reg.LG_LOCK_LIMIT.LIMIT ≤ releasingGroup.tick := by decide +kernel

theorem lockTimeout_releasingGroup :
    (opLgLockTimeout 0 releasingGroup).settle.reg releasingTileEvent ≠ releasingGroup.reg releasingTileEvent := by decide +kernel

theorem releasingTileEvent_apart : releasingTileEvent ∉ [ctrlAddr (laneGroupBase (0 : Fin 18)),
      laneGroupBase (0 : Fin 18) + Reg.FAULT.START_FAIL.off] ∧
    releasingTileEvent % 0x1000 ≠ Reg.STATE.STATE.off ∧ releasingTileEvent % 0x1000 ≠ Reg.EVENT.FAULT.off := by decide

/-- Refutes O18 in its clause of the start limit: a failed start takes back a staged release that has begun, and the fences of its
tiles engage, which TILE_EVENT records (R195, R380). -/
theorem not_laneGroupPll : ¬ Obligations.LaneGroupPll := by
  unfold Obligations.LaneGroupPll
  intro h
  obtain ⟨hQuiet, hStart, hLock, hLate⟩ := releasingGroup_late
  obtain ⟨hList, hState, hEvent⟩ := releasingTileEvent_apart
  obtain ⟨-, -, hTimeout, -⟩ := h { dev := releasingGroup } 0 hQuiet
  obtain ⟨-, -, -, -, -, hStates⟩ := (completes_iff (f := opLgLockTimeout 0) rfl).mp (hTimeout hStart hLock hLate)
  exact lockTimeout_releasingGroup (hStates _ hList hState hEvent)

end Sys2Proof.Machine

/-! # Plate storage that copies and scrubs leave otherwise (R212, R225, R226) -/

namespace Sys2Proof.Machine

set_option Elab.async false

/-! ## A slot marked FAULTED records its column (R226) -/

/-- One frame word, the first of the lower die in plate slot 0 of column 0, has two bits in error. -/
def struckWord : SMap (BitVec 266) := ({} : SMap (BitVec 266)).put 0 3

/-- Plate slot 0 of group 0 is VALID and not in force, and the plate scrub holds the token of column 0. -/
def scrubbedSlot : Dev :=
  { (((((({} : Dev).setFld powerBase Reg.MODE_STATUS.MODE modeRoll).setFld configBase Reg.STATE.SELF UState.running.code).setFld configBase
      Reg.PLATE_CTRL.SCRUB_EN 1).setFld configBase Reg.PLATE_CTRL.AUTO_RECOVER 0).setPslot 0 0 slotValid) with
    plates := { plateErr := struckWord }
    heat := { token := ({} : SMap Activity).put 0 .plateScrub } }

/-- No frame word of the upper die is struck, so no shaft has both its ownership bits set. -/
theorem ownersBy_struckWord {d : Dev} (hFrames : d.plates.plateFrames = {}) (hUpset : d.plates.ownUpset = {})
    (hErr : d.plates.plateErr = struckWord) :
    d.ownersBy (0 : Fin 256) (0 : Fin 4) (fun _ o => o == 3) = [] := by
  have hUpper (i : Nat) : d.tileBits 1 0 i = false := by
    have hKey : plateKey (1 % 2) (1 / 2) 0 0 0 + i / 256 ≠ 0 := by simp [plateKey]
    have hLook : struckWord.at (plateKey (1 % 2) (1 / 2) 0 0 0 + i / 256) 0 = 0 := by
      simp only [struckWord, SMap.at, SMap.look_put_other _ hKey]
      rfl
    simp only [Dev.tileBits, Dev.frameActs, hErr, hFrames, hLook]
    have hRead : (({} : SMap RowWord).at (plateKey (1 % 2) (1 / 2) 0 0 0 + i / 256) 0) = 0 := rfl
    rw [hRead]
    have hStatus : errStatus 0 ≠ memUncorr := by decide +kernel
    rw [if_neg hStatus]
    exact BitVec.getLsbD_zero
  have hOwner (s : Nat) : d.owner 0 0 s ≠ 3 := by
    have hNum : ({} : SMap Nat).num (ownKey 0 0 s) = 0 := rfl
    simp only [Dev.owner, hUpper, hUpset, hNum]
    cases d.tileBits (0 * 2 + 0) 0 (Config.ownPlace s) <;> decide
  refine List.filter_eq_nil_iff.mpr fun s _ => ?_
  split
  · exact Bool.false_ne_true
  · simpa using hOwner s

theorem scrubbedSlot_scrubs : scrubbedSlot.quiet = true ∧ scrubbedSlot.usersIn (0 : Fin 256) = [] ∧ scrubbedSlot.plateScrubOn = true ∧
    scrubbedSlot.holdsToken (0 : Fin 256) .plateScrub = true ∧ scrubbedSlot.columnStaging (0 : Fin 256) = false ∧
    scrubbedSlot.fenced (0 : Fin 256) = false ∧ errStatus 3 = memUncorr ∧ scrubbedSlot.pslot (0 : Fin 16) (0 : Fin 4) = slotValid ∧
    scrubbedSlot.fld configBase Reg.PLATE_CTRL.AUTO_RECOVER = 0 ∧ scrubbedSlot.reloading (0 : Fin 16) (0 : Fin 4) = false ∧
    scrubbedSlot.fld configBase Reg.DED_LOG.VALID = 0 := by decide +kernel

theorem scrubbedSlot_found :
    ((arrivals scrubbedSlot.plates.plateErr (plateWordOf (0 : Fin 256) (0 : Fin 4)) (platePlace (0 : Fin 256) (0 : Fin 4)) {}).filter
      fun x => x.1 / 20736 == bit01 false && inSlot (0 : Fin 2592) (x.1 / 8 % 2592)) = [(0, 3)] := by decide +kernel

theorem scrubbedSlot_unowned : scrubbedSlot.ownersBy (0 : Fin 256) (0 : Fin 4) (fun _ o => o == 3) = [] :=
  ownersBy_struckWord (by decide +kernel) (by decide +kernel) (by decide +kernel)

theorem scrubSlot_scrubbedSlot :
    (opPlateScrubSlot 0 false false 0 0 {} scrubbedSlot).settle.plates.uncorr.items ≠ scrubbedSlot.plates.uncorr.items := by
  have hEnters : (scrubbedSlot.plateScrubOn && scrubbedSlot.holdsToken (0 : Fin 256) .plateScrub && !scrubbedSlot.columnStaging (0 : Fin 256) &&
      !scrubbedSlot.fenced (0 : Fin 256)) = true := by decide +kernel
  unfold opPlateScrubSlot
  simp only [Bool.false_eq_true, if_false, hEnters, if_true]
  unfold Dev.scrubPlate
  dsimp only
  rw [ownersBy_struckWord (by decide +kernel) (by decide +kernel) (by decide +kernel)]
  decide +kernel

/-- Refutes O31 in its clause of an uncorrectable word: the slot's column is noted as holding one, in the record of the plates
(R226, R228), which the statement says is as it was. -/
theorem not_platesInService : ¬ Obligations.PlatesInService := by
  unfold Obligations.PlatesInService
  intro h
  obtain ⟨hQuiet, hUsers, hOn, hToken, hStaging, hFence, hUncorr, hSlot, hAuto, hReload, hLog⟩ := scrubbedSlot_scrubs
  obtain ⟨-, hColumn, -⟩ := h { dev := scrubbedSlot } 0 0 0 hQuiet
  obtain ⟨hScrub, -⟩ := hColumn rfl hUsers
  obtain ⟨-, hDed⟩ := hScrub false 0 hOn hToken hStaging hFence scrubbedSlot_unowned
  obtain ⟨-, -, -, -, -, -, -, -, hParts, -⟩ := (completes_iff (f := opPlateScrubSlot 0 false false 0 0 {}) rfl).mp
    (hDed 0 3 scrubbedSlot_found hUncorr hSlot hAuto hReload hLog)
  have hSame : (opPlateScrubSlot 0 false false 0 0 {} scrubbedSlot).settle.plates = scrubbedSlot.plates := hParts .plates (by decide)
  exact scrubSlot_scrubbedSlot (congrArg (fun p => p.uncorr.items) hSame)

/-! ## A copy of frame words takes them as they are listed (R212) -/

/-- The first frame word of column 0's stage slot 0, listed twice: 1, and 0 behind it. -/
def doubledFrames : SMap RowWord := ⟨[(0, 1), (0, 0)]⟩

/-- A reload of column 0 from stage slot 0 into plate slot 0, which is FAULTED, holds the column's token. -/
def doubledReload : Dev :=
  { ({} : Dev).setPslot 0 0 slotFaulted with
    plates := { stageFrames := doubledFrames, dataCmd := some (.reload 0 0 0 []) }
    heat := { token := ({} : SMap Activity).put 0 .staging } }

theorem doubledReload_reloads : doubledReload.quiet = true ∧
    doubledReload.plates.dataCmd = some (.reload (0 : Fin 256) (0 : Fin 4) (0 : Fin 4) []) ∧
    doubledReload.stagingGranted [(0 : Fin 256).val] = true ∧ doubledReload.pslot (0 : Fin 16) (0 : Fin 4) = slotFaulted ∧
    doubledReload.conflictStands (0 : Fin 16) (0 : Fin 4) = false ∧ doubledReload.plates.reloads = [] ∧
    doubledReload.fenced (0 : Fin 256) = false := by decide +kernel

/-- Where a slot's frame words are all 0, no shaft has an owner. -/
theorem ownersDiffer_blank {d : Dev} (hFrames : d.plates.plateFrames = ({} : SMap RowWord).put 0 0)
    (hErr : d.plates.plateErr = {}) (hUpset : d.plates.ownUpset = {}) (hMaps : d.plates.driveMaps = {}) (c slot plate : Nat) :
    d.ownersDiffer c slot plate = [] := by
  have hWord (k : Nat) : d.frameActs k = 0 := by
    have hNone : ({} : SMap (BitVec 266)).at k 0 = 0 := rfl
    have hStatus : errStatus 0 ≠ memUncorr := by decide +kernel
    simp only [Dev.frameActs, hErr, hFrames, hNone]
    rw [if_neg hStatus]
    by_cases hk : k = 0
    · subst hk; rfl
    · simp only [SMap.at, SMap.look_put_other _ hk]; rfl
  have hBits (t i : Nat) : d.tileBits t slot i = false := by
    simp only [Dev.tileBits, hWord]
    exact BitVec.getLsbD_zero
  have hOwner (s : Nat) : d.owner c slot s = 0 := by
    have hNum : ({} : SMap Nat).num (ownKey c slot s) = 0 := rfl
    simp only [Dev.owner, hBits, hUpset, hNum]
    rfl
  refine List.filter_eq_nil_iff.mpr fun s _ => ?_
  have hMap : (({} : SMap DriveMap).at plate {}).owners.at c [] = [] := rfl
  simp [hOwner, hMaps, hMap]

theorem reloadDone_doubledReload :
    (opReloadDone {} doubledReload).settle.plates.plateFrames.at (plateKey (0 : Fin 2) (0 : Fin 256) (0 : Fin 4) (0 : Fin 2592) (0 : Fin 8)) 0 ≠
      doubledReload.plates.stageFrames.at (stageKey (0 : Fin 256) (0 : Fin 4) (0 : Fin 2) (0 : Fin 2592) (0 : Fin 8)) 0 := by
  unfold opReloadDone
  simp only [doubledReload_reloads.2.1, doubledReload_reloads.2.2.1, if_true]
  unfold Dev.loadColumn
  simp only [doubledReload_reloads.2.2.2.2.2.2, Bool.false_eq_true, if_false]
  rw [ownersDiffer_blank (by decide +kernel) (by decide +kernel) (by decide +kernel) (by decide +kernel)]
  decide +kernel

/-- Refutes O30 in its clause of a reload, which copies every frame word of the column: where the stage slot's map lists a word twice, a
read finds the first of the two and the copy leaves the last. -/
theorem not_plateFillsAndCopiesEnd : ¬ Obligations.PlateFillsAndCopiesEnd := by
  unfold Obligations.PlateFillsAndCopiesEnd
  intro h
  obtain ⟨hQuiet, hCmd, hToken, hSlot, hConflict, hReloads, hFence⟩ := doubledReload_reloads
  obtain ⟨-, -, hReload⟩ := h.2 { dev := doubledReload } 0 0 0 0 hQuiet
  obtain ⟨hGood, hBad⟩ := hReload hCmd rfl hToken hSlot hConflict hReloads ⟨hFence, fun _ _ => rfl⟩
  have hCopied : (opReloadDone {} doubledReload).settle.plates.plateFrames.at (plateKey (0 : Fin 2) (0 : Fin 256) (0 : Fin 4) (0 : Fin 2592) (0 : Fin 8)) 0 =
      doubledReload.plates.stageFrames.at (stageKey (0 : Fin 256) (0 : Fin 4) (0 : Fin 2) (0 : Fin 2592) (0 : Fin 8)) 0 := by
    cases hOk : (doubledReload.loadColumn (0 : Fin 256) (0 : Fin 4) (0 : Fin 4) (doubledReload.stagePlate (0 : Fin 4)) {}).2 with
    | true =>
      obtain ⟨hCopied, -⟩ := (completes_iff (f := opReloadDone {}) rfl).mp (hGood hOk)
      simpa only using hCopied 0 0 0
    | false =>
      obtain ⟨hCopied, -⟩ := (completes_iff (f := opReloadDone {}) rfl).mp (hBad hOk)
      simpa only using hCopied 0 0 0
  exact reloadDone_doubledReload hCopied

end Sys2Proof.Machine

/-! # Row cycles of a base port (R236) -/

namespace Sys2Proof.Machine

set_option Elab.async false

/-- A row cycle in which a configuration fill asks for the bank, behind the row ports. -/
def fillCycle : BankCycle := { slow := [.fill] }

theorem reset_quiet : ({} : State).quiet = true := by decide +kernel

theorem asks_testBehindFill : (({} : State).dev.asks (0 : Fin 256) (0 : Fin 8) (.base { user := .test, waited := 0 }) fillCycle).2 = false := by
  decide +kernel

/-- Refutes O33 in its clause of a row cycle that no row port asks for: a base-port request of the test window stands in the last class
of R236, behind a configuration fill that asks as well. -/
theorem not_wordAndBasePorts : ¬ Obligations.WordAndBasePorts := by
  unfold Obligations.WordAndBasePorts
  intro h
  obtain ⟨-, -, hFree, -⟩ := h {} 0 false 0 0 0 0 .test 0 fillCycle reset_quiet
  exact Bool.false_ne_true (asks_testBehindFill.symm.trans (hFree rfl rfl rfl rfl))

end Sys2Proof.Machine

/-! # Rebuilds and extractions of a ring engine (R277, R283) -/

namespace Sys2Proof.Machine

set_option Elab.async false

/-- Engine 0 rebuilds its tree while the node of ring 0 is STALE of itself. -/
def staleRebuild : Dev :=
  { rings := { engines := ({} : SMap EngineRec).put 0 { frozen := some {}, stale := ({} : SMap Nat).put 0 1 } } }

theorem staleRebuild_rebuilds : staleRebuild.quiet = true ∧ (staleRebuild.engine (0 : Fin 16)).frozen.isSome = true ∧
    staleRebuild.ust (ringBase (0 : Fin 16)) ≠ .starting := by decide +kernel

theorem rebuildDone_staleRebuild : ((opRebuildDone 0 staleRebuild).settle.engine (0 : Fin 16)).stale ≠
    (staleRebuild.engine (0 : Fin 16)).stale := by decide +kernel

/-- Refutes O37 in its clause of REBUILD_DONE: the rebuild writes every node's word anew, so the nodes that were STALE or struck of
themselves are so no more (R283). -/
theorem not_ringsOpenAgeAndClose : ¬ Obligations.RingsOpenAgeAndClose := by
  unfold Obligations.RingsOpenAgeAndClose
  intro h
  obtain ⟨hQuiet, hFrozen, hState⟩ := staleRebuild_rebuilds
  obtain ⟨-, -, hRebuild, -⟩ := h { dev := staleRebuild } 0 0 0 hQuiet
  obtain ⟨hEngine, -⟩ := (completes_iff (f := opRebuildDone 0) rfl).mp (hRebuild hFrozen hState)
  have hStale : ((opRebuildDone 0 staleRebuild).settle.engine (0 : Fin 16)).stale = (staleRebuild.engine (0 : Fin 16)).stale := by
    simpa only using congrArg EngineRec.stale hEngine
  exact rebuildDone_staleRebuild hStale

/-- An accept that maps group 0. -/
def mappedAccept : Accept := { map := 1 }

/-- Engine 0 runs with an accept queued, while a fragment of an earlier one waits for the readout queue. -/
def queuedFragment : Dev :=
  { ((({} : Dev).setFld (ringBase 0) Reg.STATE.SELF UState.running.code).setFld (ringBase 0) (Reg.GRP_DEST.EN.elem 0) 1) with
    rings := { engines := ({} : SMap EngineRec).put 0 { accepts := [mappedAccept], rqWait := [{}] } } }

theorem queuedFragment_served : queuedFragment.quiet = true ∧ queuedFragment.ringWorks (0 : Fin 16) = true ∧
    (queuedFragment.engine (0 : Fin 16)).frags = [] ∧ nextAccept (queuedFragment.engine (0 : Fin 16)).accepts = some mappedAccept ∧
    (queuedFragment.ringsOf (0 : Fin 16)).any (fun i => (queuedFragment.desc (ringId (0 : Fin 16) i)).state == .dead) = false ∧
    (List.range 16).filter (fun i => bitOf mappedAccept.map i &&
      queuedFragment.flag (ringBase (0 : Fin 16)) (Reg.GRP_DEST.EN.elem i)) = [(0 : Fin 16).val] ∧
    ((queuedFragment.ringsOf (0 : Fin 16)).filter fun i => i / 1024 == (0 : Fin 16).val &&
      decide ((queuedFragment.desc (ringId (0 : Fin 16) i)).occ ≠ 0)) = [] := by decide +kernel

theorem extract_queuedFragment : ((opExtract 0 [] [] queuedFragment).settle.engine (0 : Fin 16)).frags = [] := by decide +kernel

/-- Refutes O38 in its clause of an accept that selects nothing: while a fragment waits for the readout queue the engine serves no
accept (R277). -/
theorem not_acceptsAreServed : ¬ Obligations.AcceptsAreServed := by
  unfold Obligations.AcceptsAreServed
  intro h
  obtain ⟨hQuiet, hWorks, hFrags, hNext, hDead, hGroups, hBusy⟩ := queuedFragment_served
  obtain ⟨-, hExtract, -⟩ := h { dev := queuedFragment } 0 0 0 0 mappedAccept {} hQuiet
  obtain ⟨hFrag, -⟩ := (completes_iff (f := opExtract 0 [] []) rfl).mp (hExtract ⟨hWorks, hFrags, hNext, hDead, hGroups⟩ hBusy)
  exact List.cons_ne_nil _ _ (hFrag.symm.trans extract_queuedFragment)

end Sys2Proof.Machine

/-! # Clocks, releases and resets (R387, R397, R405, R436, R456) -/

namespace Sys2Proof.Machine

set_option Elab.async false

/-! ## A relock on the root that drives the trunk (R397, R399) -/

/-- The trunk still runs from root 0 while its sequencer waits for that same root to relock, for 25 Ticks now. -/
def relocksActive : Dev :=
  { (((({} : Dev).setPd 0 pdOn).setFld (pllBase 0) Reg.STATE.SELF UState.running.code).setFld clkBase Reg.CLK_STATUS.TRUNK_SRC
      NetSrc.loop.code) with
    clk := { tick := 25, trunk := { state := .relock }, relock := some {} } }

theorem relocksActive_waits : relocksActive.quiet = true ∧ relocksActive.clkOn = true ∧
    relocksActive.clk.trunk.state = .relock ∧ relocksActive.clk.relock = some {} ∧ (0 : Nat) + 25 ≤ relocksActive.tick ∧
    relocksActive.ust (pllBase ({} : Relock).root) = .running := by decide +kernel

theorem relockLimit_relocksActive : (opRelockStandbyLock false relocksActive).settle.clk.trunk.state = .stopping := by decide +kernel

/-- Refutes O49 in its clause of a change that ends after 25 Ticks: where the root that did not lock is the one that the trunk runs from,
its unit is FAULTED and the trunk leaves it (R397). -/
theorem not_netsStopMoveAndRestart : ¬ Obligations.NetsStopMoveAndRestart := by
  unfold Obligations.NetsStopMoveAndRestart
  intro h
  obtain ⟨hQuiet, hOn, hState, hRelock, hTick, hRoot⟩ := relocksActive_waits
  obtain ⟨-, -, -, -, -, hStandby⟩ := h { dev := relocksActive } 0 {} {} 0 {} hQuiet hOn
  obtain ⟨-, hLimit⟩ := hStandby hState hRelock (by decide)
  obtain ⟨hClk, -⟩ := (completes_iff (f := opRelockStandbyLock false) rfl).mp (hLimit hTick hRoot)
  have hRun : (opRelockStandbyLock false relocksActive).settle.clk.trunk.state = .run := by
    simpa only using congrArg (fun c => c.trunk.state) hClk
  exact absurd (relockLimit_relocksActive.symm.trans hRun) (by decide)

/-! ## A proposal that is open at a device reset (R456, R460) -/

/-- A proposal of one word is open and not submitted. -/
def openProposal : Dev :=
  { (({} : Dev).setFld kryupBase Reg.PROP_STATUS.STATE propOpened) with kryup := { prop := [0] } }

theorem openProposal_open : openProposal.quiet = true ∧ openProposal.fld kryupBase Reg.PROP_STATUS.STATE ≠ 2 ∧
    openProposal.kryup.stored = none ∧ openProposal.ident.closed = false ∧ openProposal.load.step ≠ .power := by decide +kernel

theorem resetN_openProposal : (opResetN openProposal).settle.kryup.prop = [] := by decide +kernel

/-- Refutes O50 in its clause of RESET_N: a proposal that is not submitted is dropped at the reset, and the statement keeps its words
(R456). -/
theorem not_resetsLeaveWhatTheyKeep : ¬ Obligations.ResetsLeaveWhatTheyKeep := by
  unfold Obligations.ResetsLeaveWhatTheyKeep
  intro h
  obtain ⟨hQuiet, hState, hStored, hFuse, hStep⟩ := openProposal_open
  obtain ⟨hDevice, -⟩ := h { dev := openProposal } 0 0 hQuiet
  obtain ⟨hPin, -⟩ := hDevice hState hStored hFuse
  obtain ⟨⟨-, hKryup, -⟩, -⟩ := (completes_iff (f := opResetN) rfl).mp (hPin hStep)
  have hProp : (opResetN openProposal).settle.kryup.prop = [0] := by
    simpa only [show openProposal.kryup.prop = [0] by decide +kernel] using congrArg KryupRec.prop hKryup
  exact absurd (resetN_openProposal.symm.trans hProp) (by decide)

/-! ## A Tick that a monitor measures in (R405) -/

/-- XB is tripped, and its monitor runs. -/
def trippedXb : Dev :=
  ((({} : Dev).setPd 0 pdOn).setFld (monitorBase monXb) Reg.MON_STATUS.RUNNING 1).setFld (monitorBase monXb) Reg.MON_STATUS.TRIPPED 1

theorem trippedXb_quiet : trippedXb.quiet = true := by decide +kernel

/-- Every latch is set. -/
def trippedXbLatched : Dev := trippedXb.setReg (kryupBase + Reg.CAUSE_PEND.LATCH.off) 0xFFFFFFFF

theorem trippedXbLatched_latched : trippedXbLatched.quiet = true ∧ trippedXbLatched.latched causeThermalHold = true ∧
    trippedXbLatched.latched causeCrossLost = true ∧ trippedXbLatched.clk.inRange.has monXb = false := by decide +kernel

theorem each_fixed {α : Type} {d : Dev} {l : List α} {f : Dev → α → Dev} (h : ∀ x ∈ l, f d x = d) : d.each l f = d := by
  induction l with
  | nil => rfl
  | cons x xs ih =>
    have hTail : d.each xs f = d := ih fun y hy => h y (List.mem_cons_of_mem x hy)
    simpa only [Dev.each, List.foldl_cons, h x List.mem_cons_self] using hTail

/-- No unit of a layer that is OFF notes a peak. -/
theorem notePeak_off {d : Dev} {u : Nat} (h : d.ust (0x400000 + u * 0x1000) = .off) : d.notePeak u = d := by
  simp [Dev.notePeak, h]

/-- A column without a step in force, below every threshold, with its sensors at work, stays as it is. -/
theorem governColumn_cool {d : Dev} {c : Nat} (hStep : d.heat.colStep = {})
    (hBg : d.stepStands Reg.THM_TH.BG false (d.columnTemp c) = false) (hEvt : d.stepStands Reg.THM_TH.EVT false (d.columnTemp c) = false)
    (hHold : d.stepStands Reg.THM_TH.HOLD false (d.columnTemp c) = false) (hSw : ¬d.threshold Reg.THM_TH.SW ≤ d.columnTemp c)
    (hLost : d.sensorLost c = false) : d.governColumn c = d := by
  have hHeat : (d.modHeat fun h => { h with colStep := h.colStep.setNum c 0 }) = d := by
    have hSame : d.heat.colStep.setNum c 0 = d.heat.colStep := by
      rw [hStep]
      rfl
    show { d with heat := { d.heat with colStep := d.heat.colStep.setNum c 0 } } = d
    rw [hSame]
  have hNum : bitOf (d.heat.colStep.num c) = bitOf 0 := by rw [hStep]; rfl
  have hBit (i : Nat) : bitOf 0 i = false := by simp [bitOf]
  unfold Dev.governColumn
  simp only [hNum, hBit, hBg, hEvt, hHold]
  have hMask : bit01 false + 2 * bit01 false + 4 * bit01 false = 0 := rfl
  simp only [hMask, hHeat]
  simp [Dev.raiseIf, hLost, hSw]

/-- The machine in a Tick, when the monitors have measured and the sensors' readings are taken. -/
def Dev.measured (d : Dev) (common : BitVec 9) (temps : List (Fin 2560 × BitVec 9)) (cycles : Nat) (freqs : List (Fin 4 × Nat)) : Dev :=
  ((d.modClk fun c => { c with tick := c.tick + 1, regCyc := c.regCyc + BitVec.ofNat 64 cycles }).each freqs
    fun d f => d.measure f.1 f.2).modHeat fun h =>
      { h with common := common.toNat, readings := temps.foldl (fun (m : SMap Nat) e => m.put e.1 e.2.toNat) {} }

/-- What follows the governor in a Tick. -/
def Dev.tickEnds (d : Dev) : Dev :=
  let d := if d.kryup.crossLost then d.offer causeCrossLost (BitVec.ofNat 32 d.now) else d
  if d.wdgRuns then d.modKryup fun k => { k with wdgTicks := k.wdgTicks + 1 } else d

theorem opTick_eq (common : BitVec 9) (temps : List (Fin 2560 × BitVec 9)) (cycles : Nat) (freqs : List (Fin 4 × Nat)) (d : Dev) :
    opTick common temps cycles freqs d =
      (((d.measured common temps cycles freqs).each (List.range 1280) Dev.notePeak).govern).tickEnds := by
  unfold opTick Dev.measured Dev.tickEnds
  dsimp only

/-- Where no column has a step in force, the governor shows the hottest one and offers nothing. By the equation of its definition: to compare
it with its value the kernel would run the search for that column. -/
theorem govern_cool {d : Dev} (hColumns : d.each (List.range 256) Dev.governColumn = d) (hStep : d.heat.colStep = {}) :
    ∃ t c s, d.govern = (((d.modHeat fun h => { h with hold := false }).setFld kryupBase Reg.THM_STATUS.HOT_TEMP t).setFld kryupBase
      Reg.THM_STATUS.HOT_COL c).setFld kryupBase Reg.THM_STATUS.STEP s := by
  have hStands (i : Nat) : d.heat.stands i = false := by simp [HeatRec.stands, hStep]
  rw [Dev.govern.eq_1]
  generalize Dev.hottestColumn _ = hottest
  obtain ⟨t, c⟩ := hottest
  simp only [hColumns, hStands, Dev.raiseIf, Bool.false_and, Bool.false_eq_true, if_false]
  exact ⟨t, c, _, rfl⟩

theorem quiet_governed {d : Dev} (t c s : Nat) (h : d.quiet = true) :
    ((((d.modHeat fun h => { h with hold := false }).setFld kryupBase Reg.THM_STATUS.HOT_TEMP t).setFld kryupBase
      Reg.THM_STATUS.HOT_COL c).setFld kryupBase Reg.THM_STATUS.STEP s).quiet = true := by
  rw [Dev.quiet_iff] at h ⊢
  unfold Dev.flag at h ⊢
  rw [fld_setFld_other (by decide), fld_setFld_other (by decide), fld_setFld_other (by decide)]
  simpa using h

/-- XB's monitor has measured it in range, and every sensor reads -14 °C. -/
def measuredXb : Dev := trippedXbLatched.measured 100 [] 0 [((3 : Fin 4), 30000)]

theorem measuredXb_peaks : measuredXb.each (List.range 1280) Dev.notePeak = measuredXb := by
  have hOff : (List.range 1280).all (fun u => decide (measuredXb.ust (0x400000 + u * 0x1000) = .off)) = true := by decide +kernel
  exact each_fixed fun u hu => notePeak_off (of_decide_eq_true (List.all_eq_true.mp hOff u hu))

theorem measuredXb_columns : measuredXb.each (List.range 256) Dev.governColumn = measuredXb := by
  have hCool : (List.range 256).all (fun c => !measuredXb.stepStands Reg.THM_TH.BG false (measuredXb.columnTemp c) &&
      !measuredXb.stepStands Reg.THM_TH.EVT false (measuredXb.columnTemp c) &&
      !measuredXb.stepStands Reg.THM_TH.HOLD false (measuredXb.columnTemp c) &&
      !decide (measuredXb.threshold Reg.THM_TH.SW ≤ measuredXb.columnTemp c) && !measuredXb.sensorLost c) = true := by decide +kernel
  refine each_fixed fun c hc => ?_
  have hAll := List.all_eq_true.mp hCool c hc
  simp only [Bool.and_eq_true, Bool.not_eq_true', decide_eq_false_iff_not] at hAll
  obtain ⟨⟨⟨⟨hBg, hEvt⟩, hHold⟩, hSw⟩, hLost⟩ := hAll
  exact governColumn_cool (by decide +kernel) hBg hEvt hHold hSw hLost

theorem tick_trippedXb :
    (opTick 100 [] 0 [((3 : Fin 4), 30000)] trippedXbLatched).settle.clk.inRange.has monXb = true := by
  obtain ⟨t, c, st, hGovern⟩ := govern_cool measuredXb_columns (by decide +kernel)
  have hEnds : opTick 100 [] 0 [((3 : Fin 4), 30000)] trippedXbLatched = measuredXb.govern := by
    rw [opTick_eq]
    show ((measuredXb.each (List.range 1280) Dev.notePeak).govern).tickEnds = _
    have hLost : measuredXb.kryup.crossLost = false := by decide +kernel
    have hOpened : measuredXb.load.opened = false := by decide +kernel
    rw [measuredXb_peaks, hGovern]
    simp [Dev.tickEnds, Dev.wdgRuns, hLost, hOpened]
  have hQuiet : measuredXb.govern.quiet = true := by
    rw [hGovern]
    exact quiet_governed t c st (by decide +kernel)
  have hRange : measuredXb.clk.inRange.has monXb = true := by decide +kernel
  rw [hEnds, settle_of_quiet hQuiet, hGovern]
  exact hRange

/-- Refutes O52 in its clause of the Tick: a monitor that measures a tripped source in range notes since when (R405), which the statement
leaves out of the clocks' record. -/
theorem not_ticksHeatAndTokens : ¬ Obligations.TicksHeatAndTokens := by
  unfold Obligations.TicksHeatAndTokens
  intro h
  obtain ⟨hQuiet, hHold, hLost, hNot⟩ := trippedXbLatched_latched
  obtain ⟨hTick, -⟩ := h { dev := trippedXbLatched } 100 [] 0 [((3 : Fin 4), 30000)] 0 0 0 0 false hQuiet
  obtain ⟨hClk, -⟩ := (completes_iff (f := opTick 100 [] 0 [((3 : Fin 4), 30000)]) rfl).mp (hTick hHold hLost)
  have hSame : (opTick 100 [] 0 [((3 : Fin 4), 30000)] trippedXbLatched).settle.clk.inRange = trippedXbLatched.clk.inRange := by
    simpa only using congrArg ClockRec.inRange hClk
  rw [← hSame, tick_trippedXb] at hNot
  exact Bool.noConfusion hNot

/-! ## A fenced column at admission (R34, R436) -/

/-- Group 0 waits for its clocks with its lower die on, and column 0 of it is fenced. -/
def fencedGroup : Dev :=
  { (({} : Dev).setPd 32 pdOn) with
    power := { admission := [0] }
    stack := { fence := ({} : SMap Nat).put 0 1 } }

theorem fencedGroup_waits : fencedGroup.quiet = true ∧ fencedGroup.strike.groups = [] ∧
    fencedGroup.fld damperBase Reg.DMP_ACTIVE.WIDE = 0 ∧ fencedGroup.nextAdmit = some (0 : Fin 16).val ∧ fencedGroup.power.stage = 0 ∧
    0 ∈ groupColumns (0 : Fin 16) ∧ fencedGroup.domainOn (32 + 4 * (0 : Fin 2) + groupQuadrant (0 : Fin 16)) = true := by decide +kernel

theorem groupAdmit_fencedGroup : (opGroupAdmit fencedGroup).settle.colClock 0 (0 : Fin 2) = false := by decide +kernel

/-- Refutes O55 in its clause of admission: the clocks of a fenced column stay still though its group is admitted (R34). -/
theorem not_damperAndAdmission : ¬ Obligations.DamperAndAdmission := by
  unfold Obligations.DamperAndAdmission
  intro h
  obtain ⟨hQuiet, hGroups, hWide, hNext, hStage, hColumn, hOn⟩ := fencedGroup_waits
  obtain ⟨-, -, hAdmit⟩ := h { dev := fencedGroup } 0 0 0 false false 0 0 hQuiet hGroups hWide
  obtain ⟨-, hClock, -⟩ := (completes_iff (f := opGroupAdmit) rfl).mp (hAdmit hNext hStage)
  exact Bool.false_ne_true (groupAdmit_fencedGroup.symm.trans (hClock 0 hColumn 0 hOn))

/-! ## An SPI1 frame that wakes the rings' domain (R88, R517) -/

/-- MGMT is on and pins 11 to 14 are SPI1's, whose unit rests; the domain of the rings is off. -/
def spiOpen : Dev :=
  (((((({} : Dev).setPd 1 pdOn).setFld pinsBase (muxField 11) 3).setFld pinsBase (muxField 12) 3).setFld pinsBase (muxField 13) 3).setFld
    pinsBase (muxField 14) 3).setFld (serialBase 1) Reg.STATE.SELF UState.stopped.code

theorem spiOpen_open : spiOpen.quiet = true ∧ spiOpen.spi1Open = true := by decide +kernel

/-- The frame reads WIN_DATA of path 0's ring directory window. -/
theorem frame_spiOpen :
    (opSpi1Frame ([0x0B, 0x01, 0x00, 0x00, 0x04] ++ []) spiOpen).settle.power ≠ spiOpen.power := by decide +kernel

/-- Refutes O60 in its clause of a READ frame: an access that waits for a domain in OFF raises its wake as it is queued, and the domain
ramps (R88). -/
theorem not_framesJtagAndSerialPorts : ¬ Obligations.FramesJtagAndSerialPorts := by
  unfold Obligations.FramesJtagAndSerialPorts
  intro h
  obtain ⟨hQuiet, hOpen⟩ := spiOpen_open
  obtain ⟨hFrames, -⟩ := h
  obtain ⟨hSpi, -⟩ := hFrames { dev := spiOpen } 0x01 0x00 0x00 0x04 0 0 0 0 0 [] 0 0 false [] hQuiet
  obtain ⟨hRead, -⟩ := hSpi hOpen
  obtain ⟨-, hParts⟩ := (completes_iff (f := opSpi1Frame ([0x0B, 0x01, 0x00, 0x00, 0x04] ++ [])) rfl).mp hRead
  exact frame_spiOpen (hParts .power (by decide))

end Sys2Proof.Machine

/-! # Loops, releases and supplies (R56, R305, R349, R397, R453) -/

namespace Sys2Proof.Machine

set_option Elab.async false

/-! ## A lost root whose lines are named in the image (R349, R397) -/

/-- Root 1 stands by and runs; the released image names line 0 of tile 0 with its unit, whose staged release stands at its outputs. -/
def rootWithLines : Dev :=
  { ((({} : Dev).setPd 0 pdOn).setFld (pllBase 1) Reg.STATE.SELF UState.running.code).setReg (kryupBase + Reg.CAUSE_PEND.LATCH.off)
      0xFFFFFFFF with
    units := { user := ({} : SMap UserUnit).put (pllBase 1) { rel := .outputs } }
    load := { released := some { initUsed := [(pllBase 1, 0)] } }
    fabric := { initStore := ({} : SMap Nat).put 0 1 } }

theorem rootWithLines_standby : rootWithLines.quiet = true ∧ rootWithLines.clkOn = true ∧ rootWithLines.latched causeClock = true ∧
    rootWithLines.ust (pllBase rootWithLines.standbyRoot) = .running ∧ rootWithLines.standbyRoot ≤ 1 ∧
    rootWithLines.clk.relock = none := by decide +kernel

theorem standbyFail_rootWithLines : (opStandbyRootFail rootWithLines).settle.fabric.flops.items ≠ rootWithLines.fabric.flops.items := by
  decide +kernel

/-- Refutes O47 in its clause of a standby root: a release under way of the failed unit goes back, and the lines that the image gives it take
their INIT values, so the fabric is not as it was. -/
theorem not_monitorsLoopsAndRootsFail : ¬ Obligations.MonitorsLoopsAndRootsFail := by
  unfold Obligations.MonitorsLoopsAndRootsFail
  intro h
  obtain ⟨hQuiet, hOn, hLatch, hRuns, hRoot, hRelock⟩ := rootWithLines_standby
  obtain ⟨-, hLoops⟩ := h
  obtain ⟨hFails, -⟩ := hLoops { dev := rootWithLines } 0 hQuiet hOn
  obtain ⟨-, -, hStandby, -⟩ := hFails hLatch
  obtain ⟨-, hParts⟩ := (completes_iff (f := opStandbyRootFail) rfl).mp (hStandby hRuns hRoot hRelock)
  have hFabric : (opStandbyRootFail rootWithLines).settle.fabric = rootWithLines.fabric := hParts .fabric (by decide)
  exact standbyFail_rootWithLines (congrArg (fun f => f.flops.items) hFabric)

/-! ## A release that fences a decision column (R27, R56, R453) -/

/-- A control via of column 0's lower row port is on record without a spare. -/
def lostPort : StackRec := { unrepaired := ({} : SMap (List Nat)).put 0 [300] }

/-- The image to be released declares no unit. -/
def bareImage : Image := { latency := some (0, {}) }

/-- The forme waits for its release in ROLL, column 0 holds a decision galley, and Kryup's policy answers a breach with a device reset. -/
def releaseBreaches : Dev :=
  { (((({} : Dev).setFld powerBase Reg.MODE_STATUS.MODE modeRoll).setFld formeBase Reg.STATE.SELF UState.starting.code).setFld keeperBase
      Reg.LATENCY.L 2).setReg (kryupBase + 0x400 + 16 * causeBreach) (BitVec.ofNat 32 (2 ^ actDevice)) with
    stack := lostPort
    strike := { groups := [0], columns := [0] }
    load := { target := some 0, verified := some bareImage } }

theorem releaseBreaches_waits : releaseBreaches.quiet = true ∧ releaseBreaches.load.target = some 0 ∧
    releaseBreaches.load.verified = some bareImage ∧ releaseBreaches.load.opened = false ∧ crossBefore releaseBreaches.now 0 = false ∧
    releaseBreaches.ust formeBase = .starting ∧ releaseBreaches.trunkStopped = false ∧ bareImage.latency = some (0, {}) := by
  decide +kernel

theorem release_releaseBreaches : (opMainPathRelease releaseBreaches).settle.load.opened = false := by decide +kernel

/-- Refutes O46 in its clause of the main path: the rules for exhausted spares fence a decision column at the release (R27), the crossing is a
breach (R56), and where the policy answers it with a device reset nothing of the release stays (R453). -/
theorem not_imagesAndUnitsAreReleased : ¬ Obligations.ImagesAndUnitsAreReleased := by
  unfold Obligations.ImagesAndUnitsAreReleased
  intro h
  obtain ⟨hQuiet, hTarget, hImage, hOpened, hNow, hForme, hTrunk, hLatency⟩ := releaseBreaches_waits
  obtain ⟨hMain, -⟩ := h { dev := releaseBreaches } bareImage {} 0 0 0 hQuiet
  have hReleased := hMain hTarget hImage hOpened hNow hForme hTrunk hLatency
  obtain ⟨-, hDone, -⟩ := (completes_iff (f := opMainPathRelease) rfl).mp hReleased
  have hOpen : (opMainPathRelease releaseBreaches).settle.load.opened = true := by simpa only using hDone
  rw [release_releaseBreaches] at hOpen
  exact Bool.noConfusion hOpen

/-! ## The supply of the Strike Port's bank (R305, R514) -/

/-- The supplies of all eight banks. -/
def eightBanks : SMap Nat := (List.range 8).foldl (fun m b => m.put b 1) {}

/-- Every bank has its supply, and the Strike Port's outputs are driven. -/
def drivenBanks : Dev := { power := { vccio := eightBanks }, strike := { driven := true } }

/-- What the loss of the supply of the Strike Port's bank leaves. -/
def strikeBankLost (b : Fin 8) (d : Dev) : Dev :=
  let d := d.modPower fun p => { p with vccio := p.vccio.del b, railsGood := p.railsGood &&& ((2 ^ 19 - 1) ^^^ 2 ^ bankRail b) }
  let d := d.each (bankPins b) fun d p => d.setHs p 1
  let d := d.modStrike fun s => { s with driven := false }
  (d.showBank b).raise (gpioBase b) Reg.BANK_EVENT.PG_LOST

theorem vccioLoss_strikeBank {d : Dev} (h : d.bankGood Config.strikeBank = true) :
    opVccioLoss Config.strikeBank d = strikeBankLost Config.strikeBank d := by
  simp [opVccioLoss, strikeBankLost, h]

theorem drivenBanks_good : drivenBanks.quiet = true ∧ ∀ b : Fin 8, drivenBanks.bankGood b = true := by decide +kernel

theorem strikeBankLost_drivenBanks : ∀ b : Fin 8, (strikeBankLost b drivenBanks).settle.strike.driven = false := by decide +kernel

/-- Refutes O59 in its clause of a bank that loses its supply: with the Strike Port's bank the port's outputs are driven no more (R305), which
is of the port's record. -/
theorem not_pinsSuppliesAndFlash : ¬ Obligations.PinsSuppliesAndFlash := by
  unfold Obligations.PinsSuppliesAndFlash
  intro h
  obtain ⟨hQuiet, hGood⟩ := drivenBanks_good
  obtain ⟨hPins, -⟩ := h
  obtain ⟨-, -, -, hLoss, -⟩ := hPins { dev := drivenBanks } 0 0 false 0 0 Config.strikeBank 0 hQuiet
  obtain ⟨-, -, -, -, hParts, -⟩ := (completes_iff (f := opVccioLoss Config.strikeBank) rfl).mp (hLoss (hGood _))
  have hStrike : (opVccioLoss Config.strikeBank drivenBanks).settle.strike = drivenBanks.strike := hParts .strike (by decide)
  rw [vccioLoss_strikeBank (hGood _)] at hStrike
  have hDriven : (strikeBankLost Config.strikeBank drivenBanks).settle.strike.driven = true := congrArg StrikeRec.driven hStrike
  exact Bool.false_ne_true ((strikeBankLost_drivenBanks _).symm.trans hDriven)

end Sys2Proof.Machine

/-! # Frames of registers, and what a command leaves when its cause is latched -/

namespace Sys2Proof.Machine

set_option Elab.async false

/-! ## Frames of registers, update by update -/

section

variable {d c : Dev} {l : List Nat}

theorem onlyRegs_refl (l : List Nat) (d : Dev) : OnlyRegs l d d := fun _ _ => rfl

@[simp] theorem onlyRegs_self : OnlyRegs l d d ↔ True := iff_true_intro (onlyRegs_refl l d)

theorem OnlyRegs.trans {e : Dev} (h1 : OnlyRegs l c d) (h2 : OnlyRegs l d e) : OnlyRegs l c e := fun a ha => (h2 a ha).trans (h1 a ha)

theorem OnlyRegs.mono {m : List Nat} (h : OnlyRegs l c d) (hl : ∀ a ∈ l, a ∈ m) : OnlyRegs m c d := fun a ha => h a fun k => ha (hl a k)

/-- A write of a listed register adds nothing. -/
@[simp] theorem onlyRegs_setReg {a : Nat} {v : Word} (h : a ∈ l) : OnlyRegs l c (d.setReg a v) ↔ OnlyRegs l c d :=
  forall₂_congr fun x hx => by rw [reg_setReg, if_neg (by rintro rfl; exact hx h)]

@[simp] theorem onlyRegs_setFld {b n : Nat} {f : Fld} (h : b + f.off ∈ l) : OnlyRegs l c (d.setFld b f n) ↔ OnlyRegs l c d :=
  onlyRegs_setReg h

@[simp] theorem onlyRegs_raise {b : Nat} {f : Fld} (h : b + f.off ∈ l) : OnlyRegs l c (d.raise b f) ↔ OnlyRegs l c d :=
  onlyRegs_setReg h

@[simp] theorem onlyRegs_countBy {b k : Nat} {f : Fld} (h : b + f.off ∈ l) : OnlyRegs l c (d.countBy b f k) ↔ OnlyRegs l c d :=
  onlyRegs_setReg h

@[simp] theorem onlyRegs_count {b : Nat} {f : Fld} (h : b + f.off ∈ l) : OnlyRegs l c (d.count b f) ↔ OnlyRegs l c d :=
  onlyRegs_setReg h

@[simp] theorem onlyRegs_modLane (n : Nat) (f : LaneRec → LaneRec) : OnlyRegs l c (d.modLane n f) ↔ OnlyRegs l c d := Iff.rfl
@[simp] theorem onlyRegs_modLink (n : Nat) (f : LinkRec → LinkRec) : OnlyRegs l c (d.modLink n f) ↔ OnlyRegs l c d := Iff.rfl
@[simp] theorem onlyRegs_modGroup (n : Nat) (f : GroupRec → GroupRec) : OnlyRegs l c (d.modGroup n f) ↔ OnlyRegs l c d := Iff.rfl
@[simp] theorem onlyRegs_modProof (n : Nat) (f : ProofRec → ProofRec) : OnlyRegs l c (d.modProof n f) ↔ OnlyRegs l c d := Iff.rfl
@[simp] theorem onlyRegs_finish (p st : Nat) (w : Word) : OnlyRegs l c (d.finish p st w) ↔ OnlyRegs l c d := Iff.rfl
@[simp] theorem onlyRegs_modCtl (f : CtlRec → CtlRec) : OnlyRegs l c (d.modCtl f) ↔ OnlyRegs l c d := Iff.rfl
@[simp] theorem onlyRegs_modUnits (f : UnitsRec → UnitsRec) : OnlyRegs l c (d.modUnits f) ↔ OnlyRegs l c d := Iff.rfl
@[simp] theorem onlyRegs_modKeeper (f : KeeperRec → KeeperRec) : OnlyRegs l c (d.modKeeper f) ↔ OnlyRegs l c d := Iff.rfl
@[simp] theorem onlyRegs_modClk (f : ClockRec → ClockRec) : OnlyRegs l c (d.modClk f) ↔ OnlyRegs l c d := Iff.rfl
@[simp] theorem onlyRegs_modPower (f : PowerRec → PowerRec) : OnlyRegs l c (d.modPower f) ↔ OnlyRegs l c d := Iff.rfl
@[simp] theorem onlyRegs_modPlates (f : PlateRec → PlateRec) : OnlyRegs l c (d.modPlates f) ↔ OnlyRegs l c d := Iff.rfl
@[simp] theorem onlyRegs_modMem (f : MemRec → MemRec) : OnlyRegs l c (d.modMem f) ↔ OnlyRegs l c d := Iff.rfl
@[simp] theorem onlyRegs_modExt (f : ExtRec → ExtRec) : OnlyRegs l c (d.modExt f) ↔ OnlyRegs l c d := Iff.rfl
@[simp] theorem onlyRegs_modLoad (f : LoadRec → LoadRec) : OnlyRegs l c (d.modLoad f) ↔ OnlyRegs l c d := Iff.rfl
@[simp] theorem onlyRegs_modHeat (f : HeatRec → HeatRec) : OnlyRegs l c (d.modHeat f) ↔ OnlyRegs l c d := Iff.rfl
@[simp] theorem onlyRegs_modKryup (f : KryupRec → KryupRec) : OnlyRegs l c (d.modKryup f) ↔ OnlyRegs l c d := Iff.rfl
@[simp] theorem onlyRegs_modTest (f : TestRec → TestRec) : OnlyRegs l c (d.modTest f) ↔ OnlyRegs l c d := Iff.rfl
@[simp] theorem onlyRegs_modPins (f : PinRec → PinRec) : OnlyRegs l c (d.modPins f) ↔ OnlyRegs l c d := Iff.rfl
@[simp] theorem onlyRegs_modStrike (f : StrikeRec → StrikeRec) : OnlyRegs l c (d.modStrike f) ↔ OnlyRegs l c d := Iff.rfl
@[simp] theorem onlyRegs_modRings (f : RingRec → RingRec) : OnlyRegs l c (d.modRings f) ↔ OnlyRegs l c d := Iff.rfl
@[simp] theorem onlyRegs_modStack (f : StackRec → StackRec) : OnlyRegs l c (d.modStack f) ↔ OnlyRegs l c d := Iff.rfl
@[simp] theorem onlyRegs_modFabric (f : FabricRec → FabricRec) : OnlyRegs l c (d.modFabric f) ↔ OnlyRegs l c d := Iff.rfl
end

/-- A field that fits its register reads the value that was written to it. -/
theorem fld_setFld_lt {d : Dev} {b n : Nat} {f : Fld} (h : f.fits) (hn : n < 2 ^ f.width) : (d.setFld b f n).fld b f = n := by
  rw [fld_setFld_same h, Nat.mod_eq_of_lt hn]

@[simp] theorem quiet_modKryup (d : Dev) (f : KryupRec → KryupRec) (h : (f d.kryup).due = d.kryup.due) :
    (d.modKryup f).quiet = d.quiet := by
  unfold Dev.quiet
  rw [modKryup_kryup, h, modKryup_clk, modKryup_stack]
  rfl

@[simp] theorem quiet_modClk (d : Dev) (f : ClockRec → ClockRec) (h1 : (f d.clk).changeHeld = d.clk.changeHeld)
    (h2 : (f d.clk).loopsDown = d.clk.loopsDown) : (d.modClk f).quiet = d.quiet := by
  unfold Dev.quiet
  rw [modClk_clk, h1, h2, modClk_kryup, modClk_stack]
  rfl

/-! ## A command that is an access of a path, or offers a cause whose latch is set -/

/-- A write that reaches its register completes when its effect leaves the machine quiet. -/
theorem completes_viaWord {c : Instr} {s : State} {path addr : Nat} {w : Word} {f : Dev → Dev} {P : Dev → Prop}
    (he : exec c s = onDev (fun d => d.viaWord path addr w f) s) (h : s.dev.reached path addr) (hq : (f s.dev).quiet)
    (hp : P ((f s.dev).finish path stOk 0)) : Completes c s P := by
  refine completes_quiet he ?_ ?_
  · rw [viaWord_reached h]; exact hq
  · rwa [viaWord_reached h]

/-- Kryup's write of a KW register has its effect and completes (R6). -/
theorem viaKw_kryup {d : Dev} {path addr : Nat} {w : Word} {f : Dev → Dev} (h : d.reached path addr) (hp : path = pathKryup) :
    d.viaKw path addr w f = (f d).finish path stOk 0 := by
  unfold Dev.viaKw
  rw [arrive_reached (a := { path := path, write := true, addr := addr, data := w }) h]
  simp [hp]

theorem arrivesAgain_quiet (d : Dev) (c : Nat) : (d.arrivesAgain c).quiet = d.quiet := by
  have hStack : (d.arrivesAgain c).stack = d.stack := arrivesAgain_parts d c .stack (by simp)
  rw [Dev.quiet, arrivesAgain_due, arrivesAgain_clk, arrivesAgain_irq, hStack, Dev.quiet]

/-- The write of a KW register that another path makes while the latch of KW_WRITE is set arrives there again, is refused and logged. -/
theorem viaKw_latched {d : Dev} {path addr : Nat} {w : Word} {f : Dev → Dev} (h : d.reached path addr) (hp : path ≠ pathKryup)
    (hl : d.latched causeKwWrite = true) :
    d.viaKw path addr w f = ((d.arrivesAgain causeKwWrite).accErr path addr).finish path stDenied 0 := by
  rw [viaKw_denied h hp, Dev.kwCause, Dev.raiseCause, raiseCauses_latched _ _ _ _ hl]

theorem accErr_parts (d : Dev) (path addr : Nat) : OnlyParts [.regs] d (d.accErr path addr) := by
  unfold Dev.accErr; dsimp only; split <;> simp

theorem accErr_quiet (d : Dev) (path addr : Nat) : (d.accErr path addr).quiet = d.quiet := by
  unfold Dev.accErr; dsimp only
  split
  · rw [quiet_setReg _ _ _ (by decide)]
  · rw [quiet_setReg _ _ _ (by decide), quiet_setReg _ _ _ (by decide)]

/-- What follows a command that offers one cause, whose latch is set: CAUSE_PEND, KRY_STATUS and Kryup's records may change. -/
theorem settle_latched_frame {d : Dev} {c : Nat} {w : Word} (hd : d.kryup.due = [(c, w)]) (hl : d.latched c)
    (hc : d.clk.changeHeld = false) (hn : d.clk.loopsDown = []) (hi : d.flag rootBase Reg.IRQ_CTRL.EVT_EN = false) :
    OnlyParts [.regs, .kryup] d d.settle ∧
      OnlyRegs [kryupBase + Reg.CAUSE_PEND.LATCH.off, kryupBase + Reg.KRY_STATUS.HOLD.off] d d.settle := by
  rw [settle_latched hd hl hc hn hi]
  refine ⟨?_, fun a ha => ?_⟩
  · rw [onlyParts_modKryup _ _ (by simp)]
    exact (parts_modKryup d _ |>.mono (by simp)).trans (arrivesAgain_parts _ c)
  · simp only [List.mem_cons, List.not_mem_nil, or_false, not_or] at ha
    rw [reg_modKryup, reg_arrivesAgain _ _ _ ha.1 ha.2, reg_modKryup]

end Sys2Proof.Machine

/-! # Repair commands, repair fuses and proof registers (R484, R485, R493, R494) -/

namespace Sys2Proof.Machine

set_option Elab.async false

/-! ## Repair commands -/

theorem appendNew_length (m l : List Word) : (appendNew m l).length ≤ m.length + l.length := by
  induction l generalizing m with
  | nil => simp [appendNew]
  | cons w l ih =>
    have hTail := ih (if m.contains w then m else m ++ [w])
    have hHead : (if m.contains w then m else m ++ [w]).length ≤ m.length + 1 := by split <;> simp
    simp only [appendNew, List.foldl_cons, List.length_cons] at hTail ⊢
    omega

/-- REP_CMD as a command writes it. -/
def Dev.repCommand (d : Dev) (op i : Nat) : Dev := (d.setFld stctlBase Reg.REP_CMD.OP op).setFld stctlBase Reg.REP_CMD.INDEX i

theorem fld_repCommand {d : Dev} {op i : Nat} (hop : op < 16) (hi : i < 4096) :
    (d.repCommand op i).fld stctlBase Reg.REP_CMD.OP = op ∧ (d.repCommand op i).fld stctlBase Reg.REP_CMD.INDEX = i := by
  refine ⟨?_, fld_setFld_lt (by decide) hi⟩
  rw [Dev.repCommand, fld_setFld_clear (by decide), fld_setFld_lt (by decide) hop]

/-- A map that fits is written, and the command runs. -/
def Dev.repRuns (d : Dev) (m : List Word) : Dev := (d.modTest fun t => { t with repRun := some m }).repStatus rstBusy

/-- A command that is accepted, with the map it writes (R484). -/
theorem repGo_runs {d : Dev} {op i : Nat} {m : List Word} (hi : i < 4096) (hRun : d.test.repRun = none) (hLen : m.length ≤ 4096)
    (hOp : op = 1 ∧ m = appendNew d.test.softMap ((d.test.log[i]?).toList.map (·.w0)) ∨
      op = 2 ∧ m = appendNew d.test.softMap ((d.test.log.filter RepEntry.lasting).map (·.w0)) ∨
      op = 3 ∧ d.ident.closed = false ∧ m = d.test.softMap.eraseIdx i ∨ op = 4 ∧ d.ident.closed = false ∧ m = []) :
    (d.repCommand op i).repGo = (d.repCommand op i).repRuns m := by
  have hlt : op < 16 := by omega
  obtain ⟨hfop, hfi⟩ := fld_repCommand (d := d) hlt hi
  have hTest : (d.repCommand op i).test = d.test := rfl
  have hIdent : (d.repCommand op i).ident = d.ident := rfl
  unfold Dev.repGo
  simp only [hTest, hIdent, hRun, hfop, hfi, Option.isSome_none, Bool.false_eq_true, if_false]
  rcases hOp with ⟨rfl, rfl⟩ | ⟨rfl, rfl⟩ | ⟨rfl, hOpen, rfl⟩ | ⟨rfl, hOpen, rfl⟩
  · exact if_neg (by omega)
  · exact if_neg (by omega)
  · simp only [hOpen, Bool.false_eq_true, if_false]
    exact if_neg (by omega)
  · simp only [hOpen, Bool.false_eq_true, if_false]
    rfl

/-- A command that only shows a status: one is running, or the security fuse is closed (R484). -/
theorem repGo_answers {d : Dev} {op i : Nat} (hi : i < 4096) (hlt : op < 16) :
    (d.test.repRun ≠ none → (d.repCommand op i).repGo = (d.repCommand op i).repStatus rstBusy) ∧
      (d.test.repRun = none → d.ident.closed = true → op = 3 ∨ op = 4 →
        (d.repCommand op i).repGo = (d.repCommand op i).repStatus rstLocked) := by
  obtain ⟨hfop, -⟩ := fld_repCommand (d := d) hlt hi
  have hTest : (d.repCommand op i).test = d.test := rfl
  have hIdent : (d.repCommand op i).ident = d.ident := rfl
  unfold Dev.repGo
  simp only [hTest, hIdent, hfop]
  refine ⟨fun hRun => if_pos (Option.isSome_iff_ne_none.mpr hRun), fun hRun hClosed hOp => ?_⟩
  rw [if_neg (by simp [hRun])]
  rcases hOp with rfl | rfl <;> simp [hClosed]

/-- What every repair command leaves: its status, its answer and its frame. -/
theorem repStatus_leaves {d e : Dev} {l : List Part} {path op i st : Nat} (hst : st < 8) (hl : Part.regs ∈ l ∧ Part.ctl ∈ l)
    (hParts : OnlyParts l d e) (hRegs : e.regs = (d.repCommand op i).regs) :
    ((e.repStatus st).finish path stOk 0).fld stctlBase Reg.REP_STATUS.STATUS = st ∧
      ((e.repStatus st).finish path stOk 0).answered path stOk 0 ∧ OnlyParts l d ((e.repStatus st).finish path stOk 0) ∧
      OnlyRegs [repCmdAddr, stctlBase + Reg.REP_STATUS.STATUS.off] d ((e.repStatus st).finish path stOk 0) := by
  have hOnly : OnlyRegs [repCmdAddr, stctlBase + Reg.REP_STATUS.STATUS.off] d e := fun a ha => by
    have hReg : e.reg a = (d.repCommand op i).reg a := by rw [Dev.reg, hRegs, Dev.reg]
    rw [hReg]
    simp only [List.mem_cons, List.not_mem_nil, or_false, not_or, repCmdAddr] at ha
    simp only [Dev.repCommand, reg_setFld, show Reg.REP_CMD.OP.off = Reg.REP_CMD.off from rfl,
      show Reg.REP_CMD.INDEX.off = Reg.REP_CMD.off from rfl, if_neg ha.1]
  refine ⟨?_, finish_answered .., ?_, ?_⟩
  · rw [fld_finish, Dev.repStatus, fld_setFld_lt (by decide) hst]
  · simpa [Dev.repStatus, hl] using hParts
  · simpa [Dev.repStatus] using hOnly

theorem repCommand_quiet (d : Dev) (op i st : Nat) :
    ((d.repCommand op i).repStatus st).quiet = d.quiet ∧ ∀ m, ((d.repCommand op i).repRuns m).quiet = d.quiet := by
  have h1 : rootBase + Reg.IRQ_CTRL.off ≠ stctlBase + Reg.REP_STATUS.STATUS.off := by decide
  have h2 : rootBase + Reg.IRQ_CTRL.off ≠ stctlBase + Reg.REP_CMD.INDEX.off := by decide
  have h3 : rootBase + Reg.IRQ_CTRL.off ≠ stctlBase + Reg.REP_CMD.OP.off := by decide
  simp [Dev.repCommand, Dev.repRuns, Dev.repStatus, h1, h2, h3]

/-! ## Repair fuses -/

theorem completes_viaKw {c : Instr} {s : State} {path addr : Nat} {w : Word} {f : Dev → Dev} {P : Dev → Prop}
    (he : exec c s = onDev (fun d => d.viaKw path addr w f) s) (h : s.dev.reached path addr) (hp : path = pathKryup)
    (hq : (f s.dev).quiet) (hP : P ((f s.dev).finish path stOk 0)) : Completes c s P := by
  refine completes_quiet he ?_ ?_
  · rw [viaKw_kryup h hp]; exact hq
  · rwa [viaKw_kryup h hp]

/-- The burn of a repair word, where VCC_FUSE is good and a word is free; else FUSE_FAIL alone (R485). -/
theorem burnRepair_eq (d : Dev) (w : Word) :
    d.burnRepair w =
      if bitOf d.power.railsGood 18 = true ∧ d.pins.burned < 1536 then
        (d.setReg (stctlBase + Reg.REP_FUSE.W0.off) w).modPins
          fun p => { p with fuses := p.fuses.set (512 + p.burned) 0 w, burned := p.burned + 1 }
      else (d.setReg (stctlBase + Reg.REP_FUSE.W0.off) w).raise stctlBase Reg.REP_STATUS.FUSE_FAIL := by
  unfold Dev.burnRepair
  dsimp only
  exact if_congr (by rw [Bool.and_eq_true, decide_eq_true_iff]; rfl) rfl rfl

theorem burnRepair_quiet (d : Dev) (w : Word) : (d.burnRepair w).quiet = d.quiet := by
  rw [burnRepair_eq]
  split
  · rw [quiet_modPins, quiet_setReg _ _ _ (by decide)]
  · rw [quiet_raise _ _ _ (by decide), quiet_setReg _ _ _ (by decide)]

/-! ## Proof registers -/

theorem proofOff_lane (n : Fin 144) : proofOff (laneBase n) = some 0x600 := by
  have hLane : ∀ n : Fin 144, proofOff (laneBase n) = some 0x600 := by decide
  exact hLane n

theorem proofRec_modProof (d : Dev) (b : Nat) (f : ProofRec → ProofRec) : (d.modProof b f).proofRec b = f (d.proofRec b) := by
  simp [Dev.proofRec, Dev.modProof, SMap.at_set]

@[simp] theorem proofRec_finish (d : Dev) (p st : Nat) (w : Word) (b : Nat) : (d.finish p st w).proofRec b = d.proofRec b := rfl

/-- A write of a register stores some word there, or finds none and changes nothing. -/
theorem storeRw_cases (d : Dev) (a : Nat) (w : Word) : d.storeRw a w = d ∨ ∃ v, d.storeRw a w = d.setReg a v := by
  unfold Dev.storeRw
  split
  · exact .inl rfl
  · split
    · exact .inl rfl
    · exact .inr ⟨_, rfl⟩

theorem storeRw_frame (d : Dev) (a : Nat) (w : Word) : OnlyParts [.regs] d (d.storeRw a w) ∧ OnlyRegs [a] d (d.storeRw a w) := by
  rcases storeRw_cases d a w with h | ⟨v, h⟩ <;> simp [h]

theorem proving_setReg {d : Dev} {a b : Nat} {v : Word} (h1 : b + Reg.CTRL.PROOF_EN.off ≠ a) (h2 : b + Reg.STATE.SELF.off ≠ a) :
    (d.setReg a v).proving b = d.proving b := by
  unfold Dev.proving Dev.proofDepth Dev.flag Dev.ust
  rw [fld_setReg_other h1, fld_setReg_other h2, fld_setReg_other (g := Reg.CTRL.PROOF_DEPTH) h1]

/-- INJECT at a lane that runs a proof loop: PRF_CTRL is stored and the next item is marked (R493). -/
theorem prfWrite_injects {d : Dev} {b o : Nat} {w : Word} (ho : 0x600 ≤ o) (hp : d.proving b = true) :
    d.prfWrite b o (fset w Reg.PRF_CTRL.INJECT 1) =
      (d.storeRw (b + o + Reg.PRF_CTRL.off) (fset w Reg.PRF_CTRL.INJECT 1)).modProof b fun p => { p with inject := true } := by
  have hProves : (d.storeRw (b + o + Reg.PRF_CTRL.off) (fset w Reg.PRF_CTRL.INJECT 1)).proving b = true := by
    rcases storeRw_cases d (b + o + Reg.PRF_CTRL.off) (fset w Reg.PRF_CTRL.INJECT 1) with h | ⟨v, h⟩
    · rw [h]; exact hp
    · rw [h, proving_setReg]
      · exact hp
      · simp only [Reg.CTRL.PROOF_EN, Reg.PRF_CTRL.off]; omega
      · simp only [Reg.STATE.SELF, Reg.PRF_CTRL.off]; omega
  have hInject : fget (fset w Reg.PRF_CTRL.INJECT 1) Reg.PRF_CTRL.INJECT = 1 := fget_fset_same (by decide)
  exact if_pos ⟨hInject, hProves⟩

theorem laneWindow_quiet {n : Nat} {d e : Dev} {l : List Nat} (hl : Part.kryup ∉ ([.regs, .ctl, .proof] : List Part))
    (hp : OnlyParts [.regs, .ctl, .proof] d e) (hr : OnlyRegs l d e) (hn : ∀ a ∈ l, laneBase n ≤ a) : e.quiet = d.quiet := by
  have hStack : e.stack = d.stack := hp .stack (by simp)
  refine quiet_congr (hp .kryup hl) (hp .clk (by simp)) (hr _ fun k => ?_) (by rw [hStack])
  have := hn _ k
  simp only [laneBase, rootBase, Reg.IRQ_CTRL.off] at this
  omega

/-- The checker of a running loop loses its sequence (R494). -/
theorem opProofSyncLoss_eq {n : Fin 144} {d : Dev} (hp : d.proving (laneBase n) = true)
    (hs : d.fld (laneBase n + 0x600) Reg.PRF_STATUS.SYNC = 1) (he : 1000 < (d.proofRec (laneBase n)).errors) :
    opProofSyncLoss n d = ((d.setFld (laneBase n + 0x600) Reg.PRF_STATUS.SYNC 0).count (laneBase n + 0x600)
      Reg.PRF_STATUS.SYNC_LOSS).modProof (laneBase n) fun p => { p with seed := 0, errs := [] } := by
  simp [opProofSyncLoss, hp, Dev.flag, hs, he]

/-- Settles O58, command by command: each access reaches its register, and what it starts or ends touches the test record, the fuses or
the proof record alone. -/
theorem repairsLastAndLoopsAreTested : Obligations.RepairsLastAndLoopsAreTested := by
  unfold Obligations.RepairsLastAndLoopsAreTested
  intro s path i w err n hquiet d b m o fuse runs answers
  have hq : s.dev.quiet = true := hquiet
  have hRuns (op : Nat) (m' : List Word) : runs m' (((d.repCommand op i).repRuns m').finish path stOk 0) := by
    refine ⟨rfl, repStatus_leaves (op := op) (i := i) (by decide) (by simp) ?_ rfl⟩
    simp [Dev.repCommand]
  have hAnswers (op st : Nat) (hst : st < 8) : answers st (((d.repCommand op i).repStatus st).finish path stOk 0) :=
    repStatus_leaves (op := op) (i := i) hst (by simp) (by simp [Dev.repCommand]) rfl
  have hRunsQ (op : Nat) (m' : List Word) : ((d.repCommand op i).repRuns m').quiet = true := by
    rw [(repCommand_quiet d op i 0).2]; exact hq
  have hAnswersQ (op st : Nat) : ((d.repCommand op i).repStatus st).quiet = true := by
    rw [(repCommand_quiet d op i st).1]; exact hq
  refine ⟨fun hReach hRun hLen => ?_, fun hReach hRun => ?_, fun m' hRun => ?_, fun hReach => ⟨?_, ?_, ?_⟩, fun hReach hProve => ?_,
    fun hProve hSync hErrors => ?_⟩
  · have hLog : ((d.test.log.filter RepEntry.lasting).map (·.w0)).length ≤ d.test.log.length := by
      rw [List.length_map]; exact List.length_filter_le _ _
    have hCompletes (op : Nat) (m' : List Word) {c : Instr} (he : exec c s = onDev (fun d => d.repBy path op i) s)
        (hGo : (d.repCommand op i).repGo = (d.repCommand op i).repRuns m') : Completes c s (runs m') := by
      refine completes_viaWord he hReach ?_ ?_
      · show ((d.repCommand op i).repGo).quiet = true
        rw [hGo]; exact hRunsQ op m'
      · show runs m' (((d.repCommand op i).repGo).finish path stOk 0)
        rw [hGo]; exact hRuns op m'
    refine ⟨fun x hx => ?_, ?_, fun hOpen => ⟨?_, ?_⟩, fun hClosed => ?_⟩
    · have hNew : (if m.contains x.w0 then m else m ++ [x.w0]) = appendNew m ((d.test.log[i.val]?).toList.map (·.w0)) := by
        rw [hx]; rfl
      have hSome : 1 ≤ d.test.log.length := by
        have := (List.getElem?_eq_some_iff.mp hx).1
        omega
      rw [hNew]
      refine hCompletes 1 _ rfl (repGo_runs i.isLt hRun ?_ (.inl ⟨rfl, rfl⟩))
      refine (appendNew_length _ _).trans ?_
      rw [hx, Option.toList_some, List.map_singleton, List.length_singleton]
      exact le_trans (Nat.add_le_add_left hSome _) hLen
    · refine hCompletes 2 _ rfl (repGo_runs i.isLt hRun ?_ (.inr (.inl ⟨rfl, rfl⟩)))
      exact (appendNew_length _ _).trans (le_trans (Nat.add_le_add_left hLog _) hLen)
    · refine hCompletes 3 _ rfl (repGo_runs i.isLt hRun ?_ (.inr (.inr (.inl ⟨rfl, hOpen, rfl⟩))))
      exact (List.length_eraseIdx_le _ _).trans (le_trans (Nat.le_add_right _ _) hLen)
    · exact hCompletes 4 _ rfl (repGo_runs i.isLt hRun (by simp) (.inr (.inr (.inr ⟨rfl, hOpen, rfl⟩))))
    · have hLocked (op : Nat) (hlt : op < 16) (hop : op = 3 ∨ op = 4) {c : Instr}
          (he : exec c s = onDev (fun d => d.repBy path op i) s) : Completes c s (answers rstLocked) := by
        have hGo := (repGo_answers (d := d) i.isLt hlt).2 hRun hClosed hop
        refine completes_viaWord he hReach ?_ ?_
        · show ((d.repCommand op i).repGo).quiet = true
          rw [hGo]; exact hAnswersQ op _
        · show answers rstLocked (((d.repCommand op i).repGo).finish path stOk 0)
          rw [hGo]; exact hAnswers op _ (by decide)
      exact ⟨hLocked 3 (by decide) (.inl rfl) rfl, hLocked 4 (by decide) (.inr rfl) rfl⟩
  · have hGo := (repGo_answers (d := d) i.isLt (show 1 < 16 by decide)).1 hRun
    refine completes_viaWord (f := fun d => (d.repCommand 1 i).repGo) rfl hReach ?_ ?_
    · show ((d.repCommand 1 i).repGo).quiet = true
      rw [hGo]; exact hAnswersQ 1 _
    · show answers rstBusy (((d.repCommand 1 i).repGo).finish path stOk 0)
      rw [hGo]; exact hAnswers 1 _ (by decide)
  · have hOp : opRepCmdDone err s.dev = (d.modTest fun t =>
        { t with repRun := none, softMap := if err then t.softMap else m' }).repStatus (if err then rstFlashErr else rstOk) := by
      unfold opRepCmdDone
      rw [hRun]
    have hSt : (if err then rstFlashErr else rstOk) < 2 ^ Reg.REP_STATUS.STATUS.width := by cases err <;> decide
    refine completes_quiet (f := opRepCmdDone err) rfl ?_ ?_
    · rw [hOp, Dev.repStatus, quiet_setFld _ _ _ _ (by decide)]; exact hq
    · rw [hOp]
      exact ⟨rfl, fld_setFld_lt (by decide) hSt, by simp [Dev.repStatus, d], by simp [Dev.repStatus, d, b]⟩
  · intro hPath hRail hFree
    refine completes_viaKw (f := fun d => d.burnRepair w) rfl hReach hPath (by rw [burnRepair_quiet]; exact hq) ?_
    rw [burnRepair_eq, if_pos ⟨hRail, hFree⟩]
    exact ⟨rfl, by simp [fuse, b], finish_answered .., by simp [d], by simp [fuse, b, d]⟩
  · intro hPath hBad
    refine completes_viaKw (f := fun d => d.burnRepair w) rfl hReach hPath (by rw [burnRepair_quiet]; exact hq) ?_
    rw [burnRepair_eq, if_neg]
    · refine ⟨?_, ?_, finish_answered .., by simp [d]⟩
      · rw [fld_finish, fld_raise_same (by decide) (by decide)]
      rw [reg_finish, reg_raise, if_neg (by decide), reg_setReg, if_pos rfl]
    · rintro ⟨hRail, hFree⟩
      rcases hBad with hBad | hBad
      · exact absurd (hBad.symm.trans hRail) (by decide)
      · exact absurd hBad (Nat.ne_of_lt hFree)
  · intro hPath hLatched
    refine completes_quiet (f := opRepFuseWrite path w) rfl ?_ ?_
    · rw [opRepFuseWrite, viaKw_latched hReach hPath hLatched, quiet_finish, accErr_quiet, arrivesAgain_quiet]; exact hq
    · rw [opRepFuseWrite, viaKw_latched hReach hPath hLatched]
      refine ⟨finish_answered .., ?_⟩
      rw [onlyParts_finish _ _ _ _ (by simp)]
      exact ((arrivesAgain_parts _ _).mono (by simp)).trans ((accErr_parts _ _ _).mono (by simp))
  · have hOp : opProofInject path (laneBase n) s.dev = ((s.dev.storeRw (o + Reg.PRF_CTRL.off) (fset (s.dev.reg (o + Reg.PRF_CTRL.off))
        Reg.PRF_CTRL.INJECT 1)).modProof (laneBase n) fun p => { p with inject := true }).finish path stOk 0 := by
      unfold opProofInject
      rw [proofOff_lane]
      dsimp only
      rw [viaCtl_reached hReach, prfWrite_injects (le_refl _) hProve]
    obtain ⟨hParts, hRegs⟩ := storeRw_frame s.dev (o + Reg.PRF_CTRL.off) (fset (s.dev.reg (o + Reg.PRF_CTRL.off)) Reg.PRF_CTRL.INJECT 1)
    generalize s.dev.storeRw (o + Reg.PRF_CTRL.off) (fset (s.dev.reg (o + Reg.PRF_CTRL.off)) Reg.PRF_CTRL.INJECT 1) = e at hOp hParts hRegs
    have hAll : OnlyParts [.regs, .ctl, .proof] d (opProofInject path (laneBase n) s.dev) ∧
        OnlyRegs [o + Reg.PRF_CTRL.off] d (opProofInject path (laneBase n) s.dev) := by
      rw [hOp]
      exact ⟨by simpa using hParts.mono (by simp), by simpa using hRegs⟩
    have hRec : e.proofRec (laneBase n) = d.proofRec (laneBase n) := by
      rw [Dev.proofRec, hParts .proof (by simp), Dev.proofRec]
    refine completes_quiet (f := opProofInject path (laneBase n)) rfl ?_ ?_
    · rw [laneWindow_quiet (n := n) (by simp) hAll.1 hAll.2 (by simp [o]; omega)]; exact hq
    · refine ⟨?_, ?_, hAll⟩
      · rw [hOp, ← hRec, proofRec_finish, proofRec_modProof]
      · rw [hOp]; exact finish_answered ..
  · have hOp := opProofSyncLoss_eq hProve hSync hErrors
    have hAll : OnlyParts [.regs, .proof] d (opProofSyncLoss n s.dev) ∧ OnlyRegs [o + Reg.PRF_STATUS.off] d (opProofSyncLoss n s.dev) := by
      rw [hOp]
      exact ⟨by simp [d], by simp [d, o, Reg.PRF_STATUS.SYNC, Reg.PRF_STATUS.SYNC_LOSS, Reg.PRF_STATUS.off]⟩
    refine completes_quiet (f := opProofSyncLoss n) rfl ?_ ?_
    · rw [laneWindow_quiet (n := n) (by simp) (hAll.1.mono (by simp)) hAll.2 (by simp [o]; omega)]; exact hq
    · refine ⟨?_, ?_, ?_, hAll⟩
      · rw [hOp, fld_modProof, Dev.count, Dev.countBy, fld_setFld_clear (by decide), fld_setFld_same (by decide), Nat.zero_mod]
      · rw [hOp, Counted, fld_modProof, Dev.count, fld_countBy_same (by decide), fld_setFld_clear (by decide)]
      · rw [hOp, proofRec_modProof]
        simp only [Dev.proofRec, count_proof, setFld_proof, d]

end Sys2Proof.Machine

/-! # Causes, the watchdog and proposals (R448 to R451, R456, R458, R459) -/

namespace Sys2Proof.Machine

set_option Elab.async false

/-! ## Latches -/

theorem fset_bit_set {w : Word} {c o : Nat} (h : bitOf w.toNat c = true) : fset w ⟨o, c, 1⟩ 1 = w := by
  refine BitVec.eq_of_getLsbD_eq fun i hi => ?_
  rw [getLsbD_fset]
  split
  · rename_i hc
    obtain rfl : i = c := by simp only at hc; omega
    simpa [bitOf, BitVec.getLsbD] using h.symm
  · rfl

theorem latched_setLatch (d : Dev) {c x : Nat} (v : Bool) (hx : x < 32) :
    (d.setLatch c v).latched x = if x = c then v else d.latched x := by
  have hBit (w : Word) : bitOf w.toNat x = w.getLsbD x := rfl
  unfold Dev.latched Dev.setLatch
  rw [hBit, hBit, reg_setFld, if_pos rfl, getLsbD_fset]
  by_cases h : x = c
  · subst h
    rw [if_pos (by simp only; omega), if_pos rfl]
    cases v <;> simp [bit01]
  · rw [if_neg (by simp only; omega), if_neg h]

theorem setLatch_quiet (d : Dev) (c : Nat) (v : Bool) : (d.setLatch c v).quiet = d.quiet :=
  quiet_setFld _ _ _ _ (show rootBase + Reg.IRQ_CTRL.off ≠ kryupBase + Reg.CAUSE_PEND.off by decide)

/-- The register of latches stays as it is where the latch that arrives is set. -/
theorem reg_setLatch_set {d : Dev} {c a : Nat} (h : d.latched c = true) : (d.setLatch c true).reg a = d.reg a := by
  rw [Dev.setLatch, reg_setFld]
  split
  · rename_i ha
    rw [ha]
    exact fset_bit_set h
  · rfl

theorem polActions_setLatch (d : Dev) (c x : Nat) (v : Bool) : (d.setLatch c v).polActions x = d.polActions x := by
  unfold Dev.polActions Dev.setLatch
  rw [reg_setFld, if_neg (by simp only [Reg.CAUSE_PEND.LATCH]; omega)]

/-- What the safe hold line and ALARM_N show hangs on the latches and the policy. -/
theorem anyLatch_congr {d e : Dev} (h : ∀ a, a ≠ kryupBase + Reg.KRY_STATUS.off → e.reg a = d.reg a) (act : Nat) :
    e.anyLatch act = d.anyLatch act := by
  have hPol (c : Nat) : e.polActions c = d.polActions c := by
    unfold Dev.polActions
    rw [h _ (by simp only [Reg.KRY_STATUS.off]; omega)]
  unfold Dev.anyLatch Dev.latched
  simp only [hPol, h (kryupBase + Reg.CAUSE_PEND.LATCH.off) (by decide)]

theorem showLatches_reg {d : Dev} {a : Nat} (h : a ≠ kryupBase + Reg.KRY_STATUS.off) : d.showLatches.reg a = d.reg a := by
  have h1 : a ≠ kryupBase + Reg.KRY_STATUS.HOLD.off := h
  have h2 : a ≠ kryupBase + Reg.KRY_STATUS.ALARM.off := h
  rw [Dev.showLatches, reg_setFld, if_neg h2, reg_setFld, if_neg h1]

theorem showLatches_parts (d : Dev) : OnlyParts [.regs] d d.showLatches := by simp [Dev.showLatches]

theorem showLatches_quiet (d : Dev) : d.showLatches.quiet = d.quiet := by
  rw [Dev.showLatches, quiet_setFld _ _ _ _ (by decide), quiet_setFld _ _ _ _ (by decide)]

/-- KRY_STATUS shows the safe hold line and ALARM_N. -/
theorem fld_showLatches (d : Dev) :
    d.showLatches.fld kryupBase Reg.KRY_STATUS.HOLD = bit01 d.showLatches.kryHold ∧
      d.showLatches.fld kryupBase Reg.KRY_STATUS.ALARM = bit01 d.showLatches.alarm := by
  have hLatch := anyLatch_congr (e := d.showLatches) fun a ha => showLatches_reg ha
  have hBit (b : Bool) (n : Nat) (hn : n = 1) : bit01 b % 2 ^ n = bit01 b := by subst hn; cases b <;> rfl
  have hHold : d.showLatches.kryHold = d.kryHold := hLatch actHold
  have hAlarm : d.showLatches.alarm = d.alarm := by
    rw [Dev.alarm, hLatch, Dev.alarm, Dev.showLatches, setFld_kryup, setFld_kryup]
  rw [hHold, hAlarm]
  refine ⟨?_, ?_⟩
  · rw [Dev.showLatches, fld_setFld_clear (by decide), fld_setFld_same (by decide)]
    exact hBit _ _ rfl
  · rw [Dev.showLatches, fld_setFld_same (by decide)]
    exact hBit _ _ rfl

/-! ## A cause that arrives -/

/-- A command that offers causes is settled when Kryup has taken them. -/
theorem settle_due {d : Dev} (hd : d.kryup.due ≠ []) (hn : d.clk.loopsDown = [])
    (hq : ((Dev.raiseCauses 2 (d.modKryup fun k => { k with due := [] }) d.kryup.due).modKryup fun k => { k with due := [] }).quiet = true) :
    d.settle = (Dev.raiseCauses 2 (d.modKryup fun k => { k with due := [] }) d.kryup.due).modKryup fun k => { k with due := [] } := by
  obtain ⟨-, hHeld, -, hIrq, -⟩ := (Dev.quiet_iff _).mp hq
  unfold Dev.settle
  rw [loopsFall_none hn, Dev.takeDue, if_neg hd, heldChange_none hHeld, irqUpdate_off hIrq]

/-- A command of a quiet machine that offers one cause. -/
theorem settle_offer {d : Dev} {c : Nat} {w : Word} (hq : d.quiet = true) (hr : (Dev.raiseCauses 2 d [(c, w)]).quiet = true) :
    (d.offer c w).settle = Dev.raiseCauses 2 d [(c, w)] := by
  obtain ⟨hDue, -, hDown, -, -⟩ := d.quiet_iff.mp hq
  obtain ⟨hEnd, -, -, -, -⟩ := (Dev.quiet_iff _).mp hr
  have hOffer : (d.offer c w).kryup.due = [(c, w)] := by simp [Dev.offer, hDue]
  have hClear (e : Dev) (he : e.kryup.due = []) : (e.modKryup fun k => { k with due := [] }) = e := by
    show { e with kryup := { e.kryup with due := [] } } = e
    rw [← he]
  have hBack : ((d.offer c w).modKryup fun k => { k with due := [] }) = d := hClear d hDue
  rw [settle_due (d := d.offer c w) (by rw [hOffer]; simp) hDown, hBack, hOffer, hClear _ hEnd]
  rw [hBack, hOffer, hClear _ hEnd]
  exact hr

/-- A cause that arrives while its latch is set, offered by a command of a quiet machine: it is noted at its Tick. -/
theorem settle_offer_latched {d : Dev} {c : Nat} {w : Word} (hq : d.quiet = true) (hl : d.latched c = true) :
    (d.offer c w).settle = d.arrivesAgain c := by
  have hRaise := raiseCauses_latched 1 d c w hl
  rw [settle_offer hq (by rw [hRaise, arrivesAgain_quiet]; exact hq), hRaise]

/-- What an arrival leaves whose latch is set. -/
theorem arrivesAgain_leaves {d : Dev} {c : Nat} (hl : d.latched c = true) :
    (d.arrivesAgain c).kryup = { d.kryup with lastTick := d.kryup.lastTick.put c d.tick } ∧ (d.arrivesAgain c).latched c = true ∧
      OnlyParts [.regs, .kryup] d (d.arrivesAgain c) ∧ OnlyRegs [kryupBase + Reg.KRY_STATUS.HOLD.off] d (d.arrivesAgain c) := by
  have hReg (a : Nat) (ha : a ≠ kryupBase + Reg.KRY_STATUS.off) : (d.arrivesAgain c).reg a = d.reg a := by
    rw [Dev.arrivesAgain, showLatches_reg ha, reg_modKryup, reg_setLatch_set hl]
  refine ⟨?_, ?_, arrivesAgain_parts d c, fun a ha => hReg a fun h => ha (List.mem_singleton.mpr h)⟩
  · rw [Dev.arrivesAgain, showLatches_parts _ .kryup (by simp)]
    rfl
  · rw [Dev.latched, hReg _ (by decide)]
    exact hl

/-- A cause that arrives while its latch is clear, under a policy of LOG alone (R450, R451, R458). -/
def Dev.logsArrival (d : Dev) (c : Nat) (w : Word) : Dev :=
  (((d.setLatch c true).modKryup fun k => { k with lastTick := k.lastTick.put c d.tick }).kryLog c w).showLatches

theorem raiseCauses_logged {d : Dev} {c : Nat} {w : Word} (hl : d.latched c = false) (hp : d.polActions c = 2 ^ actLog) (n : Nat) :
    Dev.raiseCauses (n + 1) d [(c, w)] = d.logsArrival c w := by
  have hPol (e : Dev) (he : ∀ x, x ≠ kryupBase + Reg.CAUSE_PEND.off → x ≠ kryupBase + Reg.LOG_HEAD.off →
      x ≠ kryupBase + Reg.KRY_STATUS.off → e.reg x = d.reg x) : e.polActions c = 1 := by
    rw [Dev.polActions, he _ (by simp only [Reg.CAUSE_PEND.off]; omega) (by simp only [Reg.LOG_HEAD.off]; omega)
      (by simp only [Reg.KRY_STATUS.off]; omega)]
    exact hp
  have hFresh : firstOf ([(c, w)].filter fun c => !d.latched c.1) = [(c, w)] := by simp [hl, firstOf]
  have hLatch (x : Nat) (hx : x ≠ kryupBase + Reg.CAUSE_PEND.off) :
      ((d.setLatch c true).modKryup fun k => { k with lastTick := k.lastTick.put c d.tick }).reg x = d.reg x := by
    rw [reg_modKryup, Dev.setLatch, reg_setFld]
    exact if_neg hx
  have hActs : (Dev.causeActions ((d.setLatch c true).modKryup fun k => { k with lastTick := k.lastTick.put c d.tick }) c w).showLatches =
      d.logsArrival c w := by
    have hOne := hPol _ fun x hx _ _ => hLatch x hx
    unfold Dev.causeActions
    simp only [hOne]
    rfl
  have hEnd : (d.logsArrival c w).polActions c = 1 := hPol _ fun x h1 h2 h3 => by
    have h2' : x ≠ kryupBase + Reg.LOG_HEAD.off := h2
    rw [Dev.logsArrival, showLatches_reg h3, Dev.kryLog, reg_setReg, if_neg h2', reg_modKryup, hLatch x h1]
  unfold Dev.raiseCauses
  rw [hFresh]
  simp only [Dev.each, List.foldl_cons, List.foldl_nil]
  simp only [hActs]
  have hDevice : bitOf ((d.logsArrival c w).polActions c) actDevice = false := by rw [hEnd]; decide
  have hWarm : bitOf ((d.logsArrival c w).polActions c) actWarm = false := by rw [hEnd]; decide
  have hDomains : bitOf ((d.logsArrival c w).polActions c) actDomains = false := by rw [hEnd]; decide
  simp [hDevice, hWarm, hDomains]

theorem logsArrival_quiet (d : Dev) (c : Nat) (w : Word) : (d.logsArrival c w).quiet = d.quiet := by
  rw [Dev.logsArrival, showLatches_quiet, Dev.kryLog, quiet_setReg _ _ _ (by decide), quiet_modKryup _ _ rfl, quiet_modKryup _ _ rfl,
    setLatch_quiet]

/-- What such an arrival leaves. -/
theorem logsArrival_leaves (d : Dev) {c : Nat} (w : Word) (hc : c < 32) :
    let head := (d.reg (kryupBase + Reg.LOG_HEAD.off)).toNat
    let e := d.logsArrival c w
    e.latched c = true ∧ (e.reg (kryupBase + Reg.LOG_HEAD.off)).toNat = (head + 1) % 2 ^ 32 ∧
      e.kryup = { d.kryup with
        lastTick := d.kryup.lastTick.put c d.tick
        log := d.kryup.log.put (head % 512) { w0 := BitVec.ofNat 32 (c + d.tick % 2 ^ 24 * 2 ^ 8), w1 := w } } ∧
      OnlyParts [.regs, .kryup] d e ∧
      OnlyRegs [kryupBase + Reg.CAUSE_PEND.LATCH.off, kryupBase + Reg.LOG_HEAD.off, kryupBase + Reg.KRY_STATUS.HOLD.off] d e := by
  intro head e
  have hHead : (d.setLatch c true).reg (kryupBase + Reg.LOG_HEAD.off) = d.reg (kryupBase + Reg.LOG_HEAD.off) := by
    rw [Dev.setLatch, reg_setFld]
    exact if_neg (show kryupBase + Reg.LOG_HEAD.off ≠ kryupBase + Reg.CAUSE_PEND.off by decide)
  refine ⟨?_, ?_, ?_, ?_, fun a ha => ?_⟩
  · have hLatch := latched_setLatch d (c := c) true hc
    rw [if_pos rfl] at hLatch
    rw [← hLatch, Dev.latched, Dev.latched]
    show bitOf (e.reg _).toNat c = _
    rw [show e.reg (kryupBase + Reg.CAUSE_PEND.LATCH.off) = _ from showLatches_reg (by decide), Dev.kryLog, reg_setReg,
      if_neg (by decide), reg_modKryup, reg_modKryup]
  · rw [show e.reg (kryupBase + Reg.LOG_HEAD.off) = _ from showLatches_reg (by decide), Dev.kryLog, reg_setReg, if_pos rfl, reg_modKryup,
      hHead, BitVec.toNat_ofNat]
  · rw [show e.kryup = _ from showLatches_parts _ .kryup (by simp), Dev.kryLog, setReg_kryup, modKryup_kryup, reg_modKryup, hHead]
    rfl
  · exact ((by simp [Dev.kryLog, Dev.setLatch] : OnlyParts [.regs, .kryup] d _)).trans ((showLatches_parts _).mono (by simp))
  · simp only [List.mem_cons, List.not_mem_nil, or_false, not_or] at ha
    obtain ⟨hPend, hLog, hStatus⟩ := ha
    rw [show e.reg a = _ from showLatches_reg hStatus, Dev.kryLog, reg_setReg, if_neg hLog, reg_modKryup, reg_modKryup, Dev.setLatch,
      reg_setFld]
    exact if_neg hPend

/-! ## Proposals (R456) -/

/-- Two registers of Kryup's that bear alike on whether control space answers. -/
theorem admission_kryup {d : Dev} {path a b : Nat} (ha : kryupBase ≤ a ∧ a < kryupBase + 0x1000 ∧ a % 4 = 0)
    (hb : kryupBase ≤ b ∧ b < kryupBase + 0x1000 ∧ b % 4 = 0) : d.admission path a = d.admission path b := by
  have hWindow {x : Nat} (hx : kryupBase ≤ x ∧ x < kryupBase + 0x1000 ∧ x % 4 = 0) :
      decide (kryupBase ≤ x ∧ x < kryupBase + 0x10000) = true ∧ protectedAddr x = false ∧ x % 4 = 0 := by
    refine ⟨decide_eq_true (by omega), ?_, hx.2.2⟩
    simp only [kryupBase] at hx
    simp only [protectedAddr, decide_eq_false_iff_not]
    omega
  obtain ⟨ha1, ha2, ha3⟩ := hWindow ha
  obtain ⟨hb1, hb2, hb3⟩ := hWindow hb
  unfold Dev.admission
  rw [ha1, ha2, ha3, hb1, hb2, hb3]

/-- PROP_CTRL is reached where PROP_DATA is: they are registers of one unit that is never OFF. -/
theorem reached_propCtrl {d : Dev} {path : Nat} (h : d.reached path propDataAddr = true) : d.reached path propCtrlAddr = true := by
  have hAdm : d.admission path propCtrlAddr = d.admission path propDataAddr := admission_kryup (by decide) (by decide)
  have hWin : winRegister path propCtrlAddr = false ∧ winRegister path propDataAddr = false := by
    constructor <;> simp [winRegister, propCtrlAddr, propDataAddr, kryupBase, Reg.PROP_CTRL.off, Reg.PROP_DATA.off]
  have hAwake (a : Nat) (u : Machine.Unit) (hw : winRegister path a = false) (hu : unitAt a = some u) (hb : u.blk ≠ .column) :
      d.awake path a = true := by
    simp [Dev.awake, ringWindow, hw, Dev.gatedGroup, hu, hb]
  have hCtrl : unitAt propCtrlAddr = some (unitOf kryupBase) := by decide +kernel
  have hData : unitAt propDataAddr = some (unitOf kryupBase) := by decide +kernel
  have hBlk : (unitOf kryupBase).blk = .kryup := by decide +kernel
  have hRow : ((unitOf kryupBase).rowAt (propCtrlAddr - (unitOf kryupBase).base)).isSome = true := by decide +kernel
  have hDomain : (unitOf kryupBase).domain = none := by decide +kernel
  have hOlder (m : Nat) : olderLayout (unitOf kryupBase) m = [] := by simp [olderLayout, hBlk]
  obtain ⟨hGrant, hOk, -, -⟩ := (d.reached_iff _ _).mp h
  refine (d.reached_iff _ _).mpr ⟨?_, hAdm.trans hOk, ?_, ?_⟩
  · simp only [Dev.grantedNow, Dev.grantable, Bool.and_eq_true] at hGrant ⊢
    rw [hAdm, hAwake propCtrlAddr _ hWin.1 hCtrl (by simp [hBlk])]
    rw [hAwake propDataAddr _ hWin.2 hData (by simp [hBlk])] at hGrant
    exact hGrant
  · simp [Dev.implemented, hCtrl, hRow, Dev.presented, hOlder]
  · simp [Dev.turnedAway, hCtrl, hDomain, hBlk]

theorem emptyProp_quiet (d : Dev) (st : Nat) : (d.emptyProp st).quiet = d.quiet := by
  rw [Dev.emptyProp, quiet_setFld _ _ _ _ (by decide), quiet_setFld _ _ _ _ (by decide), quiet_modKryup _ _ rfl]

/-- What emptying the buffer leaves. -/
theorem emptyProp_leaves (d : Dev) {st : Nat} (path : Nat) (hst : st < 4) :
    let e := (d.emptyProp st).finish path stOk 0
    e.fld kryupBase Reg.PROP_STATUS.STATE = st ∧ e.fld kryupBase Reg.PROP_STATUS.WORDS = 0 ∧ e.kryup = { d.kryup with prop := [] } ∧
      e.answered path stOk 0 ∧ OnlyParts [.regs, .ctl, .kryup] d e ∧ OnlyRegs [kryupBase + Reg.PROP_STATUS.off] d e := by
  refine ⟨?_, ?_, rfl, finish_answered .., by simp [Dev.emptyProp], by simp [Dev.emptyProp, Reg.PROP_STATUS.STATE, Reg.PROP_STATUS.WORDS,
    Reg.PROP_STATUS.off]⟩
  · rw [fld_finish, Dev.emptyProp, fld_setFld_lt (by decide) hst]
  · rw [fld_finish, Dev.emptyProp, fld_setFld_clear (by decide), fld_setFld_same (by decide), Nat.zero_mod]

/-- A word of an open proposal that has room (R456). -/
theorem propData_stored {d : Dev} {v : Word} (hOpen : d.fld kryupBase Reg.PROP_STATUS.STATE = propOpened)
    (hRoom : d.kryup.prop.length < bufferWords) :
    d.propData v = ((d.setReg propDataAddr v).modKryup fun k => { k with prop := k.prop ++ [v] }).setFld kryupBase Reg.PROP_STATUS.WORDS
      (d.kryup.prop.length + 1) := by
  have hState : (d.setReg propDataAddr v).propState = propOpened := by
    rw [Dev.propState, fld_setReg_other (by decide), hOpen]
  have hMin : min bufferWords (d.kryup.prop.length + 1) = d.kryup.prop.length + 1 := Nat.min_eq_right hRoom
  unfold Dev.propData
  dsimp only
  rw [setReg_kryup, hState, hMin, if_neg]
  rintro (h | h)
  · exact h rfl
  · exact absurd hRoom (Nat.lt_asymm h)

/-- A word written where no proposal is open only shows in PROP_DATA. -/
theorem propData_unopened {d : Dev} {v : Word} (hState : d.fld kryupBase Reg.PROP_STATUS.STATE ≠ propOpened) :
    d.propData v = d.setReg propDataAddr v := by
  have hKept : (d.setReg propDataAddr v).propState ≠ propOpened := by
    rw [Dev.propState, fld_setReg_other (by decide)]
    exact hState
  unfold Dev.propData
  exact if_pos (.inl hKept)

/-- Settles O51: a supply's cause is either logged as it latches or noted as it arrives again, latches clear by their HOLD, and the
accesses of a proposal act on the buffer by PROP_STATUS.STATE. -/
theorem causesLatchAndProposalsAreStaged : Obligations.CausesLatchAndProposalsAreStaged := by
  unfold Obligations.CausesLatchAndProposalsAreStaged
  constructor
  · intro s rail c hquiet d k head pend again
    have hq : d.quiet = true := hquiet
    have hSupply (h7 : rail.val ≠ 7) (h18 : rail.val ≠ 18) : opSupply rail d = d.offer causeSupply (BitVec.ofNat 32 rail) := by
      rw [opSupply, if_neg h18]
      simp only [if_neg h7]
    refine ⟨fun h7 h18 hClear hPolicy => ?_, fun h7 h18 hSet => ?_, fun h18 => ?_, fun hSet hHold hTicks => ?_, ?_, ?_⟩
    · have hRaise := raiseCauses_logged (w := BitVec.ofNat 32 rail) hClear hPolicy 1
      refine (completes_iff (f := opSupply rail) rfl).mpr ?_
      show _ ∧ _
      rw [show opSupply rail s.dev = _ from hSupply h7 h18, settle_offer hq (by rw [hRaise, logsArrival_quiet]; exact hq), hRaise]
      exact logsArrival_leaves d _ (by decide)
    · refine (completes_iff (f := opSupply rail) rfl).mpr ?_
      rw [show opSupply rail s.dev = _ from hSupply h7 h18, settle_offer_latched hq hSet]
      exact arrivesAgain_leaves hSet
    · have hOp : opSupply rail s.dev = d := if_pos h18
      exact completes_quiet (f := opSupply rail) rfl (by rw [hOp]; exact hq) hOp
    · have hOp : opCauseLatchClear c s.dev = (d.setLatch c false).showLatches := by
        unfold opCauseLatchClear
        exact if_pos (Bool.and_eq_true_iff.mpr ⟨hSet, decide_eq_true ⟨hHold, hTicks⟩⟩)
      have hc : c.val < 32 := by omega
      have hLatched (x : Nat) : (d.setLatch c false).showLatches.latched x = (d.setLatch c false).latched x := by
        rw [Dev.latched, showLatches_reg (by decide), Dev.latched]
      obtain ⟨hShowsHold, hShowsAlarm⟩ := fld_showLatches (d.setLatch c false)
      refine completes_quiet (f := opCauseLatchClear c) rfl ?_ ?_
      · rw [hOp, showLatches_quiet, setLatch_quiet]
        exact hq
      · rw [hOp]
        refine ⟨?_, fun x hx => ?_, hShowsHold, hShowsAlarm, ?_, fun a ha => ?_⟩
        · rw [hLatched, latched_setLatch _ _ hc, if_pos rfl]
        · rw [hLatched, latched_setLatch _ _ (by omega), if_neg (Fin.val_ne_of_ne hx)]
        · exact ((by simp [Dev.setLatch] : OnlyParts [.regs] d _)).trans (showLatches_parts _)
        · simp only [List.mem_cons, List.not_mem_nil, or_false, not_or] at ha
          rw [showLatches_reg ha.2, Dev.setLatch, reg_setFld]
          exact if_neg ha.1
    · cases hKicked : d.strike.kicked with
      | true =>
        have hOp : opWatchdogKick s.dev =
            (d.modStrike fun s => { s with kicked := false }).modKryup fun k => { k with wdgTicks := 0 } := if_pos hKicked
        refine completes_quiet (f := opWatchdogKick) rfl ?_ ?_
        · rw [hOp, quiet_modKryup _ _ rfl, quiet_modStrike]; exact hq
        · rw [hOp]
          exact ⟨fun _ => ⟨rfl, rfl, by simp⟩, fun h => absurd h (by simp)⟩
      | false =>
        have hOp : opWatchdogKick s.dev = d := if_neg (by rw [hKicked]; decide)
        refine completes_quiet (f := opWatchdogKick) rfl (by rw [hOp]; exact hq) ⟨fun h => absurd h (by simp), fun _ => hOp⟩
    · intro hEn hLoad hMode hTicks hSet
      have hOp : opWatchdog s.dev = d.offer causeWatchdog (BitVec.ofNat 32 d.kryup.wdgTicks) := by
        unfold opWatchdog
        refine if_pos ?_
        rw [Bool.and_eq_true, decide_eq_true_iff]
        refine ⟨?_, hTicks⟩
        show (d.flag kryupBase Reg.WDG_CFG.EN && d.load.opened && d.runMode) = true
        rw [hEn, hLoad, hMode]; rfl
      refine (completes_iff (f := opWatchdog) rfl).mpr ?_
      rw [hOp, settle_offer_latched hq hSet]
      exact arrivesAgain_leaves hSet
  · intro s path v hquiet d k st n emptied left hReach
    have hq : d.quiet = true := hquiet
    have hCtrl := reached_propCtrl hReach
    have hState : k + Reg.PROP_STATUS.off ≠ rootBase + Reg.IRQ_CTRL.off := by decide
    have hLeft : left (d.finish path stOk 0) := ⟨rfl, finish_answered .., by simp⟩
    refine ⟨?_, fun hOpen hRoom => ?_, fun hOpen => ?_, ?_, ?_⟩
    · refine completes_viaWord (f := Dev.propOpen) rfl hCtrl ?_ (emptyProp_leaves d path (by decide))
      rw [Dev.propOpen, emptyProp_quiet]; exact hq
    · have hData := propData_stored (v := v) hOpen hRoom
      refine completes_viaWord (f := fun d => d.propData v) rfl hReach ?_ ?_
      · rw [hData, quiet_setFld _ _ _ _ (by decide), quiet_modKryup _ _ rfl, quiet_setReg _ _ _ (by decide)]; exact hq
      · rw [hData]
        refine ⟨rfl, ?_, ?_, ?_, finish_answered .., by simp [d], by simp [d, k, Reg.PROP_STATUS.WORDS, Reg.PROP_STATUS.off]⟩
        · rw [fld_finish, fld_setFld_lt (by decide) (lt_of_le_of_lt (Nat.succ_le_of_lt hRoom) (by decide))]
        · rw [reg_finish, reg_setFld, if_neg (by decide), reg_modKryup, reg_setReg, if_pos rfl]
        · show Dev.fld _ _ _ = _
          rw [fld_finish, fld_setFld_clear (by decide), fld_modKryup, fld_setReg_other (by decide)]
          exact hOpen
    · have hData := propData_unopened (v := v) hOpen
      refine completes_viaWord (f := fun d => d.propData v) rfl hReach ?_ ?_
      · rw [hData, quiet_setReg _ _ _ (by decide)]; exact hq
      · rw [hData]
        exact ⟨rfl, finish_answered .., by simp [d], by simp [d]⟩
    · by_cases hOpen : st d = propOpened
      · have hSubmit : s.dev.propSubmit = d.setFld kryupBase Reg.PROP_STATUS.STATE propSubmitted := if_pos hOpen
        refine completes_viaWord (f := Dev.propSubmit) rfl hCtrl ?_ ?_
        · rw [hSubmit, quiet_setFld _ _ _ _ (by decide)]; exact hq
        · rw [hSubmit]
          refine ⟨fun _ => ⟨?_, rfl, finish_answered .., by simp, by simp [k, Reg.PROP_STATUS.STATE, Reg.PROP_STATUS.off]⟩,
            fun h => absurd hOpen h⟩
          show Dev.fld _ _ _ = _
          rw [fld_finish, fld_setFld_lt (by decide) (by decide)]
      · have hSubmit : s.dev.propSubmit = d := if_neg hOpen
        refine completes_viaWord (f := Dev.propSubmit) rfl hCtrl (by rw [hSubmit]; exact hq) ?_
        rw [hSubmit]
        exact ⟨fun h => absurd h hOpen, fun _ => hLeft⟩
    · by_cases hHeld : st d = propOpened ∨ st d = propSubmitted
      · have hDiscard : s.dev.propDiscard = d.emptyProp propEmpty := if_pos hHeld
        refine completes_viaWord (f := Dev.propDiscard) rfl hCtrl (by rw [hDiscard, emptyProp_quiet]; exact hq) ?_
        rw [hDiscard]
        exact ⟨fun _ => emptyProp_leaves d path (by decide), fun h1 h2 => absurd hHeld (by simp [h1, h2])⟩
      · have hDiscard : s.dev.propDiscard = d := if_neg hHeld
        refine completes_viaWord (f := Dev.propDiscard) rfl hCtrl (by rw [hDiscard]; exact hq) ?_
        rw [hDiscard]
        exact ⟨fun h => absurd h hHeld, fun _ _ => hLeft⟩

end Sys2Proof.Machine

/-! # A failed FIO and its restarts (R408) -/

namespace Sys2Proof.Machine

set_option Elab.async false

/-- A step that changes clocks and registers of the clock galley and of monitors, but neither what a net runs from nor its sequencer, and
nothing that a command's end looks at. -/
structure NetsStay (d e : Dev) : Prop where
  parts : OnlyParts [.regs, .clk] d e
  quiet : e.quiet = d.quiet
  seq : ∀ t, e.seq t = d.seq t
  src : ∀ t, e.netSrc t = d.netSrc t

theorem NetsStay.trans {c d e : Dev} (h1 : NetsStay c d) (h2 : NetsStay d e) : NetsStay c e :=
  ⟨h1.parts.trans h2.parts, h2.quiet.trans h1.quiet, fun t => (h2.seq t).trans (h1.seq t), fun t => (h2.src t).trans (h1.src t)⟩

/-- The fields of the clock galley that name the sources of the nets. -/
def netSrcFlds : List Fld := [Reg.CLK_STATUS.TRUNK_SRC, Reg.CLK_STATUS.REG_SRC]

theorem netSrc_setFld {d : Dev} {b n : Nat} {f : Fld} (h : b = clkBase ∧ (∀ g ∈ netSrcFlds, f.clear g) ∨ b + f.off ≠ clkBase + Reg.CLK_STATUS.off)
    (t : Bool) : (d.setFld b f n).netSrc t = d.netSrc t := by
  have hFld (g : Fld) (hg : g ∈ netSrcFlds) : (d.setFld b f n).fld clkBase g = d.fld clkBase g := by
    rcases h with ⟨rfl, hClear⟩ | hOther
    · exact fld_setFld_clear (hClear g hg)
    · have hOff : g.off = Reg.CLK_STATUS.off := by
        simp only [netSrcFlds, List.mem_cons, List.not_mem_nil, or_false] at hg
        rcases hg with rfl | rfl <;> rfl
      exact fld_setFld_other (by rw [hOff]; exact Ne.symm hOther)
  unfold Dev.netSrc
  cases t
  · rw [hFld _ (by simp [netSrcFlds])]
  · rw [hFld _ (by simp [netSrcFlds])]

theorem netsStay_setFld {d : Dev} {b n : Nat} {f : Fld}
    (h : b = clkBase ∧ (∀ g ∈ netSrcFlds, f.clear g) ∨ b + f.off ≠ clkBase + Reg.CLK_STATUS.off)
    (hi : rootBase + Reg.IRQ_CTRL.off ≠ b + f.off) : NetsStay d (d.setFld b f n) :=
  ⟨by simp, quiet_setFld _ _ _ _ hi, fun t => by cases t <;> rfl, netSrc_setFld h⟩

/-- CLK_STATUS shows the sources that run. -/
theorem showSources_stay (d : Dev) : NetsStay d d.showSources := by
  unfold Dev.showSources
  exact (((netsStay_setFld (.inl ⟨rfl, by decide⟩) (by decide)).trans (netsStay_setFld (.inl ⟨rfl, by decide⟩) (by decide))).trans
    (netsStay_setFld (.inl ⟨rfl, by decide⟩) (by decide))).trans (netsStay_setFld (.inl ⟨rfl, by decide⟩) (by decide))

theorem showSources_clk (d : Dev) : d.showSources.clk = d.clk := rfl

/-- A change of the oscillators' records that leaves the nets'. -/
theorem netsStay_modClk {d : Dev} {f : ClockRec → ClockRec} (h1 : (f d.clk).changeHeld = d.clk.changeHeld)
    (h2 : (f d.clk).loopsDown = d.clk.loopsDown) (h3 : (f d.clk).trunk = d.clk.trunk) (h4 : (f d.clk).reg = d.clk.reg) :
    NetsStay d (d.modClk f) :=
  ⟨by simp, quiet_modClk _ _ h1 h2, fun t => by cases t; exacts [h4, h3], fun t => by cases t <;> rfl⟩

/-! ## Nets that wait for FIO -/

/-- A net that waits for FIO goes on. -/
def Dev.fioWaiter (d : Dev) (stable : Bool) (t : Bool) : Dev :=
  if (d.seq t).state = .waitFio then
    let dest : NetSrc := if stable then .fio else .tick
    ((d.setSrc t dest).setSeq t { d.seq t with state := .restart, target := dest }).raiseIf (!stable) clkBase Reg.CLK_EVENT.CRAWL
  else d

theorem fioWaiters_eq (d : Dev) (stable : Bool) : d.fioWaiters stable = (d.fioWaiter stable false).fioWaiter stable true := rfl

/-- What the end of a start of FIO may change: the nets that wait for it, and their fields. -/
structure FioStep (d e : Dev) : Prop where
  parts : OnlyParts [.regs, .clk] d e
  quiet : e.quiet = d.quiet
  fio : e.clk.fio = d.clk.fio ∧ e.clk.fioTick = d.clk.fioTick ∧ e.clk.fioAgain = d.clk.fioAgain
  nets : ∀ t : Bool, (d.seq t).state ≠ .waitFio → e.seq t = d.seq t ∧ e.netSrc t = d.netSrc t

theorem fioWaiter_step (d : Dev) (stable t : Bool) : FioStep d (d.fioWaiter stable t) := by
  unfold Dev.fioWaiter
  split
  case isFalse => exact ⟨by simp, rfl, ⟨rfl, rfl, rfl⟩, fun _ _ => ⟨rfl, rfl⟩⟩
  case isTrue h =>
    dsimp only
    generalize (if stable = true then NetSrc.fio else NetSrc.tick) = dest
    have hRaise (e : Dev) : NetsStay e (e.raiseIf (!stable) clkBase Reg.CLK_EVENT.CRAWL) := by
      unfold Dev.raiseIf
      split
      · exact netsStay_setFld (.inr (by decide)) (by decide)
      · exact ⟨by simp, rfl, fun _ => rfl, fun _ => rfl⟩
    have hClk (e : Dev) : (e.raiseIf (!stable) clkBase Reg.CLK_EVENT.CRAWL).clk = e.clk := by
      unfold Dev.raiseIf
      split <;> rfl
    refine ⟨OnlyParts.trans ?_ (hRaise _).parts, (hRaise _).quiet.trans ?_, ?_, fun u hu => ⟨((hRaise _).seq u).trans ?_,
      ((hRaise _).src u).trans ?_⟩⟩
    · cases t <;> simp [Dev.setSeq, Dev.setSrc]
    · cases t
      · exact ((quiet_setFld _ _ _ _ (by decide)).trans (quiet_modClk _ _ rfl rfl)).trans (quiet_setFld _ _ _ _ (by decide))
      · exact ((quiet_setFld _ _ _ _ (by decide)).trans (quiet_modClk _ _ rfl rfl)).trans (quiet_setFld _ _ _ _ (by decide))
    · rw [hClk]
      cases t <;> exact ⟨rfl, rfl, rfl⟩
    · obtain rfl : u = !t := Bool.eq_not.mpr fun hSame => hu (hSame ▸ h)
      cases t <;> rfl
    · obtain rfl : u = !t := Bool.eq_not.mpr fun hSame => hu (hSame ▸ h)
      cases t
      · show Dev.netSrc (Dev.setFld (Dev.modClk (Dev.setFld d clkBase Reg.CLK_STATUS.REG_SRC dest.code) _) clkBase
          Reg.CLK_STATUS.REG_SEQ _) true = d.netSrc true
        unfold Dev.netSrc
        simp only [if_true, fld_modClk, fld_setFld_clear (f := Reg.CLK_STATUS.REG_SEQ) (g := Reg.CLK_STATUS.TRUNK_SRC) (by decide),
          fld_setFld_clear (f := Reg.CLK_STATUS.REG_SRC) (g := Reg.CLK_STATUS.TRUNK_SRC) (by decide)]
      · show Dev.netSrc (Dev.setFld (Dev.modClk (Dev.setFld d clkBase Reg.CLK_STATUS.TRUNK_SRC dest.code) _) clkBase
          Reg.CLK_STATUS.TRUNK_SEQ _) false = d.netSrc false
        unfold Dev.netSrc
        simp only [Bool.false_eq_true, if_false, fld_modClk,
          fld_setFld_clear (f := Reg.CLK_STATUS.TRUNK_SEQ) (g := Reg.CLK_STATUS.REG_SRC) (by decide),
          fld_setFld_clear (f := Reg.CLK_STATUS.TRUNK_SRC) (g := Reg.CLK_STATUS.REG_SRC) (by decide)]

theorem fioWaiters_step (d : Dev) (stable : Bool) : FioStep d (d.fioWaiters stable) := by
  have h1 := fioWaiter_step d stable false
  have h2 := fioWaiter_step (d.fioWaiter stable false) stable true
  obtain ⟨hFio1, hTick1, hAgain1⟩ := h1.fio
  obtain ⟨hFio2, hTick2, hAgain2⟩ := h2.fio
  refine ⟨h1.parts.trans h2.parts, h2.quiet.trans h1.quiet, ⟨hFio2.trans hFio1, hTick2.trans hTick1, hAgain2.trans hAgain1⟩, fun t ht => ?_⟩
  obtain ⟨hSeq1, hSrc1⟩ := h1.nets t ht
  obtain ⟨hSeq2, hSrc2⟩ := h2.nets t (by rw [hSeq1]; exact ht)
  exact ⟨hSeq2.trans hSeq1, hSrc2.trans hSrc1⟩

/-- The end of a start of FIO: its record changes, CLK_STATUS shows it, and the nets that wait for it go on. -/
theorem fioEnds_step {d : Dev} {f : ClockRec → ClockRec} {stable : Bool} (h1 : (f d.clk).changeHeld = d.clk.changeHeld)
    (h2 : (f d.clk).loopsDown = d.clk.loopsDown) (h3 : (f d.clk).trunk = d.clk.trunk) (h4 : (f d.clk).reg = d.clk.reg) :
    let e := ((d.modClk f).showSources).fioWaiters stable
    OnlyParts [.regs, .clk] d e ∧ e.quiet = d.quiet ∧
      (e.clk.fio = (f d.clk).fio ∧ e.clk.fioTick = (f d.clk).fioTick ∧ e.clk.fioAgain = (f d.clk).fioAgain) ∧
      ∀ t : Bool, (d.seq t).state ≠ .waitFio → e.seq t = d.seq t ∧ e.netSrc t = d.netSrc t := by
  have hRec := (netsStay_modClk h1 h2 h3 h4).trans (showSources_stay _)
  have hNets := fioWaiters_step ((d.modClk f).showSources) stable
  refine ⟨hRec.parts.trans hNets.parts, hNets.quiet.trans hRec.quiet, hNets.fio, fun t ht => ?_⟩
  obtain ⟨hSeq, hSrc⟩ := hNets.nets t (by rw [hRec.seq]; exact ht)
  exact ⟨hSeq.trans (hRec.seq t), hSrc.trans (hRec.src t)⟩

/-- FIO starts: its record, its monitor and CLK_STATUS alone change. -/
theorem fioStart_leaves {d : Dev} (h : d.clk.fio = .failed) :
    NetsStay d d.fioStart ∧ d.fioStart.clk = { d.clk with fio := .starting, fioTick := d.tick, fioAgain := true } ∧
      d.fioStart.fld (monitorBase monFio) Reg.MON_STATUS.RUNNING = 1 ∧
      OnlyRegs [monitorBase monFio + Reg.MON_STATUS.RUNNING.off, clkBase + Reg.CLK_STATUS.FIO_OK.off] d d.fioStart := by
  have hShown (e : Dev) : OnlyRegs [clkBase + Reg.CLK_STATUS.FIO_OK.off] e e.showSources := by
    simp [Dev.showSources, Reg.CLK_STATUS.FIO_OK, Reg.CLK_STATUS.XB_OK, Reg.CLK_STATUS.XA_OK, Reg.CLK_STATUS.SIO_OK]
  unfold Dev.fioStart
  refine ⟨((netsStay_modClk rfl rfl rfl rfl).trans (netsStay_setFld (.inr (by decide)) (by decide))).trans (showSources_stay _), ?_, ?_, ?_⟩
  · rw [showSources_clk, setFld_clk, modClk_clk, h]
    rfl
  · rw [Dev.fld, hShown _ _ (by decide)]
    exact fld_setFld_same (by decide)
  · exact OnlyRegs.trans (by simp) ((hShown _).mono (by simp))

/-- Settles O48: a start of FIO changes its record, its monitor's RUNNING and CLK_STATUS; at its end only nets that wait for FIO move. -/
theorem failedFioIsRestarted : Obligations.FailedFioIsRestarted := by
  unfold Obligations.FailedFioIsRestarted
  intro s hquiet d stays sources
  have hq : d.quiet = true := hquiet
  refine ⟨fun hOn hFailed => ⟨fun hDue => ?_, fun hEarly => ?_⟩, fun hStarts hAgain => ⟨fun hDue => ?_, ?_⟩⟩
  · have hOp : opFioRetry s.dev = d.fioStart := by
      unfold opFioRetry
      exact if_pos (by rw [Bool.and_eq_true, Bool.and_eq_true, decide_eq_true_iff, decide_eq_true_iff]; exact ⟨⟨hOn, hFailed⟩, hDue⟩)
    obtain ⟨hStay, hClk, hRuns, hRegs⟩ := fioStart_leaves hFailed
    refine completes_quiet (f := opFioRetry) rfl (by rw [hOp, hStay.quiet]; exact hq) ?_
    rw [hOp]
    exact ⟨hClk, fun t _ => ⟨hStay.seq t, hStay.src t⟩, hRuns, hStay.parts, hRegs⟩
  · have hOp : opFioRetry s.dev = d := by
      unfold opFioRetry
      exact if_neg (by rw [Bool.and_eq_true, decide_eq_true_iff]; exact fun h => Nat.not_le_of_lt hEarly h.2)
    exact completes_quiet (f := opFioRetry) rfl (by rw [hOp]; exact hq) hOp
  · have hOp : opFioStartTimeout s.dev = ((d.modClk fun c =>
        { c with fio := .failed, fioTick := if c.fioAgain then c.fioTick else c.tick }).showSources).fioWaiters false :=
      if_pos ⟨hStarts, hDue⟩
    obtain ⟨hParts, hQuiet, ⟨hFio, hTick, -⟩, hNets⟩ := fioEnds_step (d := d) (stable := false)
      (f := fun c => { c with fio := .failed, fioTick := if c.fioAgain then c.fioTick else c.tick }) rfl rfl rfl rfl
    refine completes_quiet (f := opFioStartTimeout) rfl (by rw [hOp, hQuiet]; exact hq) ?_
    rw [hOp]
    exact ⟨hFio, hTick.trans (if_pos hAgain), hNets, hParts⟩
  · intro c0 c1 hLow0 hHigh0 hLow1 hHigh1 hTwo hSixtyFour hRuns hStep
    obtain ⟨hParts, hQuiet, ⟨hFio, -, hAgainClear⟩, hNets⟩ := fioEnds_step (d := d) (stable := true)
      (f := fun c => { c with fio := .running, fioAgain := false }) rfl rfl rfl rfl
    have hOp : opFioStable c0 c1 s.dev = (((d.modClk fun c => { c with fio := .running, fioAgain := false }).showSources).fioWaiters
        true).raise clkBase Reg.CLK_EVENT.SOURCE_BACK := by
      unfold opFioStable
      have hOk0 : decide (5600000 ≤ c0 ∧ c0 ≤ 10400000) = true := decide_eq_true ⟨hLow0, hHigh0⟩
      have hOk1 : decide (5600000 ≤ c1 ∧ c1 ≤ 10400000) = true := decide_eq_true ⟨hLow1, hHigh1⟩
      simp only [hOk0, hOk1, show s.dev.clk.fioAgain = true from hAgain, show s.dev.clk.fio = .starting from hStarts]
      rw [if_neg (by simpa using ⟨hTwo, hSixtyFour⟩)]
      have hHalted := (congrArg KryupRec.halted (hParts .kryup (by simp))).trans hRuns
      have hLoad := congrArg LoadRec.step (hParts .load (by simp))
      simp only [Dev.raiseIf, if_true, raise_kryup, raise_load]
      rw [if_neg (fun h => absurd (hHalted.symm.trans h) (by decide)), if_neg fun h => hStep (hLoad.symm.trans h)]
    have hStay := netsStay_setFld (d := ((d.modClk fun c => { c with fio := .running, fioAgain := false }).showSources).fioWaiters true)
      (b := clkBase) (f := Reg.CLK_EVENT.SOURCE_BACK) (n := 1) (.inr (by decide)) (by decide)
    refine completes_quiet (f := opFioStable c0 c1) rfl (by rw [hOp, Dev.raise, hStay.quiet, hQuiet]; exact hq) ?_
    rw [hOp]
    refine ⟨hFio, hAgainClear, fld_raise_same (by decide) (by decide), fun t ht => ?_, hParts.trans hStay.parts⟩
    obtain ⟨hSeq, hSrc⟩ := hNets t ht
    exact ⟨(hStay.seq t).trans hSeq, (hStay.src t).trans hSrc⟩

end Sys2Proof.Machine

/-! # The loader tries its sources, opens streams and ends them (R371 to R375, R388) -/

namespace Sys2Proof.Machine

set_option Elab.async false

/-! ## Frames of a unit's window -/

section

variable {c d : Dev} {lo hi : Nat}

theorem onlyRange_refl (lo hi : Nat) (d : Dev) : OnlyRange lo hi d d := fun _ _ => rfl

/-- A write of a register that lies in the range adds nothing. -/
theorem OnlyRange.setReg {a : Nat} {v : Word} (h : OnlyRange lo hi c d) (ha : lo ≤ a ∧ a < hi) : OnlyRange lo hi c (d.setReg a v) :=
  fun x hx => by rw [reg_setReg, if_neg (by rintro rfl; exact hx ha), h x hx]

theorem OnlyRange.setFld {b n : Nat} {f : Fld} (h : OnlyRange lo hi c d) (ha : lo ≤ b + f.off ∧ b + f.off < hi) :
    OnlyRange lo hi c (d.setFld b f n) := h.setReg ha

theorem OnlyRange.raise {b : Nat} {f : Fld} (h : OnlyRange lo hi c d) (ha : lo ≤ b + f.off ∧ b + f.off < hi) :
    OnlyRange lo hi c (d.raise b f) := h.setReg ha

/-- An update that leaves the registers adds nothing. -/
theorem OnlyRange.of_reg {e : Dev} (h : OnlyRange lo hi c d) (he : ∀ a, e.reg a = d.reg a) : OnlyRange lo hi c e :=
  fun x hx => (he x).trans (h x hx)

end

/-! ## A load opens -/

/-- A load has opened: what LD_STATUS and the loader's record show (R372, R374). -/
def LoadOpened (d : Dev) (mode : LoadMode) (src : Nat) (e : Dev) : Prop :=
  e.load.mode = mode ∧ e.load.image = none ∧ e.load.index = 0 ∧ e.load.words = [] ∧ e.load.body = [] ∧ e.load.idleTick = d.tick ∧
    e.fld rootBase Reg.LD_STATUS.STATE = ldLoading ∧ e.fld rootBase Reg.LD_STATUS.SOURCE = src ∧ e.fld rootBase Reg.LD_BYTES.BYTES = 0

/-- The loader shows a rejection that no record caused (R375). -/
def LoadRejected (cause : Nat) (e : Dev) : Prop :=
  e.fld rootBase Reg.LD_STATUS.STATE = ldRejected ∧ e.fld rootBase Reg.LD_STATUS.CAUSE = cause ∧
    e.fld rootBase Reg.LD_INDEX.INDEX = noIndex ∧ e.fld rootBase Reg.LD_EVENT.REJECTED = 1

@[simp] theorem loadOpened_finish {d e : Dev} {mode : LoadMode} {src p st : Nat} {w : Word} :
    LoadOpened d mode src (e.finish p st w) ↔ LoadOpened d mode src e := Iff.rfl

@[simp] theorem loadRejected_finish {e : Dev} {cause p st : Nat} {w : Word} :
    LoadRejected cause (e.finish p st w) ↔ LoadRejected cause e := Iff.rfl

@[simp] theorem onlyRange_finish {c d : Dev} {lo hi p st : Nat} {w : Word} : OnlyRange lo hi c (d.finish p st w) ↔ OnlyRange lo hi c d := Iff.rfl

@[simp] theorem onlyWindow_finish {c d : Dev} {b p st : Nat} {w : Word} : OnlyWindow b c (d.finish p st w) ↔ OnlyWindow b c d := Iff.rfl

/-- What the opening of a load leaves. -/
theorem beginLoad_leaves (d : Dev) (mode : LoadMode) {source path : Nat} (spi : Bool) (hs : source < 16) (hp : path < 8) :
    let e := d.beginLoad mode source path spi
    LoadOpened d mode source e ∧
      e.fld rootBase Reg.LD_STATUS.PATH = path ∧
      (e.load.trying = d.load.trying ∧ e.load.entry = d.load.entry ∧ e.load.released = d.load.released) ∧
      e.quiet = d.quiet ∧ OnlyParts [.regs, .load] d e ∧ OnlyWindow rootBase d e := by
  refine ⟨⟨rfl, rfl, rfl, rfl, rfl, rfl, ?_, ?_, ?_⟩, ?_, ⟨rfl, rfl, rfl⟩, ?_, ?_, ?_⟩
  · rw [Dev.beginLoad, fld_setFld_clear (by decide), fld_setFld_clear (by decide), fld_setFld_clear (by decide),
      fld_setFld_clear (by decide), Dev.ldState, fld_setFld_lt (by decide) (by decide)]
  · rw [Dev.beginLoad, fld_setFld_clear (by decide), fld_setFld_clear (by decide), fld_setFld_clear (by decide),
      fld_setFld_lt (by decide) hs]
  · rw [Dev.beginLoad, fld_setFld_lt (by decide) (by decide)]
  · rw [Dev.beginLoad, fld_setFld_clear (by decide), fld_setFld_clear (by decide), fld_setFld_lt (by decide) hp]
  · rw [Dev.beginLoad, quiet_setFld _ _ _ _ (by decide), quiet_setFld _ _ _ _ (by decide), quiet_setFld _ _ _ _ (by decide),
      quiet_setFld _ _ _ _ (by decide), Dev.ldState, quiet_setFld _ _ _ _ (by decide), quiet_modLoad]
  · simp [Dev.beginLoad, Dev.ldState]
  · exact (((((onlyRange_refl _ _ d).of_reg (e := d.modLoad _) fun a => rfl).setFld (by decide)).setFld (by decide)).setFld
      (by decide)).setFld (by decide) |>.setFld (by decide)

/-! ## A load is rejected -/

/-- The loader shows a rejection (R375). -/
def Dev.showsReject (d : Dev) (cause : Nat) : Dev :=
  (((d.ldState ldRejected).setFld rootBase Reg.LD_STATUS.CAUSE cause).setFld rootBase Reg.LD_INDEX.INDEX noIndex).raise rootBase
    Reg.LD_EVENT.REJECTED

theorem showsReject_leaves (d : Dev) {cause : Nat} (hc : cause < 256) :
    let e := d.showsReject cause
    LoadRejected cause e ∧ e.load = d.load ∧ e.quiet = d.quiet ∧ OnlyParts [.regs] d e ∧ OnlyWindow rootBase d e := by
  refine ⟨⟨?_, ?_, ?_, fld_raise_same (by decide) (by decide)⟩, rfl, ?_, ?_, ?_⟩
  · rw [Dev.showsReject, Dev.raise, fld_setFld_clear (by decide), fld_setFld_clear (by decide), fld_setFld_clear (by decide), Dev.ldState,
      fld_setFld_lt (by decide) (by decide)]
  · rw [Dev.showsReject, Dev.raise, fld_setFld_clear (by decide), fld_setFld_clear (by decide), fld_setFld_lt (by decide) hc]
  · rw [Dev.showsReject, Dev.raise, fld_setFld_clear (by decide), fld_setFld_lt (by decide) (by decide)]
  · rw [Dev.showsReject, quiet_raise _ _ _ (by decide), quiet_setFld _ _ _ _ (by decide), quiet_setFld _ _ _ _ (by decide), Dev.ldState,
      quiet_setFld _ _ _ _ (by decide)]
  · simp [Dev.showsReject, Dev.ldState]
  · exact ((((onlyRange_refl _ _ d).setFld (by decide)).setFld (by decide)).setFld (by decide)).raise (by decide)

/-- A stream is open, no user unit is declared, and the forme is not starting: nothing waits for the load. -/
def Dev.loadAlone (d : Dev) : Prop :=
  d.load.mode = .stream ∧ d.units.user.keys = [] ∧ d.ust formeBase ≠ .starting ∧ d.load.image = none

/-- A load that nothing waits for, and that has taken no colophon, is rejected: the loader stands idle and shows it. -/
theorem imageReject_alone {d : Dev} (h : d.loadAlone) (cause : Nat) : d.imageReject cause noIndex = d.closeLoad.showsReject cause := by
  obtain ⟨hMode, hKeys, hForme, hImage⟩ := h
  have hUndo : d.undoStreamed = d := by rw [Dev.undoStreamed, hImage]
  have hFails : (d.closeLoad.showsReject cause).loadingFails false = d.closeLoad.showsReject cause := by
    have hForme' : (d.closeLoad.showsReject cause).ust formeBase ≠ .starting := by
      have hUst : (d.closeLoad.showsReject cause).ust formeBase = d.ust formeBase := by
        unfold Dev.ust
        rw [Dev.showsReject, Dev.raise, fld_setFld_other (by decide), fld_setFld_other (by decide), fld_setFld_other (by decide),
          Dev.ldState, fld_setFld_other (by decide), Dev.closeLoad, fld_setFld_other (by decide), fld_modLoad]
      rwa [hUst]
    have hKeys' : (d.closeLoad.showsReject cause).units.user.keys = [] := hKeys
    unfold Dev.loadingFails
    dsimp only
    rw [if_neg (by decide), hKeys']
    refine each_fixed fun b hb => ?_
    have hOnly : ([formeBase] : List Nat).eraseDups = [formeBase] := by decide
    obtain rfl : b = formeBase := List.mem_singleton.mp (hOnly ▸ (List.mem_filter.mp hb).1)
    exact if_neg hForme'
  unfold Dev.imageReject
  simp only [hMode, hImage, hUndo]
  exact hFails

theorem closeLoad_quiet (d : Dev) : d.closeLoad.quiet = d.quiet := by
  rw [Dev.closeLoad, quiet_setFld _ _ _ _ (by decide), quiet_modLoad]

/-- What such a rejection leaves. -/
theorem imageReject_leaves {d : Dev} (h : d.loadAlone) {cause : Nat} (hc : cause < 256) :
    let e := d.imageReject cause noIndex
    (LoadRejected cause e ∧
      e.load.mode = .idle ∧ e.load.image = none) ∧ e.quiet = d.quiet := by
  obtain ⟨hShown, hLoad, hQuiet, -, -⟩ := showsReject_leaves d.closeLoad hc
  rw [imageReject_alone h]
  dsimp only
  rw [hLoad]
  exact ⟨⟨hShown, rfl, rfl⟩, hQuiet.trans (closeLoad_quiet d)⟩

/-! ## Writes of LD_CTRL -/

/-- The machine that takes a write of LD_CTRL, before its pulses act. -/
def Dev.ldCtrlTaken (d : Dev) (w : Word) : Dev := d.setFld rootBase Reg.LD_CTRL.PSLOT (fget w Reg.LD_CTRL.PSLOT)

theorem ldCtrlTaken_leaves (d : Dev) (w : Word) :
    (d.ldCtrlTaken w).load = d.load ∧ (d.ldCtrlTaken w).quiet = d.quiet ∧ OnlyParts [.regs] d (d.ldCtrlTaken w) ∧
      OnlyWindow rootBase d (d.ldCtrlTaken w) ∧ (d.loadAlone → (d.ldCtrlTaken w).loadAlone) := by
  refine ⟨rfl, quiet_setFld _ _ _ _ (by decide), by simp [Dev.ldCtrlTaken], (onlyRange_refl _ _ d).setFld (by decide), ?_⟩
  rintro ⟨hMode, hKeys, hForme, hImage⟩
  refine ⟨hMode, hKeys, ?_, hImage⟩
  unfold Dev.ust Dev.ldCtrlTaken
  rw [fld_setFld_other (by decide)]
  exact hForme

/-- The pulse bits of LD_CTRL. -/
def ldPulses : List Fld := [Reg.LD_CTRL.OPEN, Reg.LD_CTRL.ABORT, Reg.LD_CTRL.REAPPLY]

theorem ldPulse_zero {w : Word} (h : w.toNat % 8 = 0) {f : Fld} (hf : f ∈ ldPulses) : fget w f = 0 := by
  simp only [ldPulses, List.mem_cons, List.not_mem_nil, or_false] at hf
  rcases hf with rfl | rfl | rfl <;>
    (simp only [fget, bitsOf, Nat.shiftRight_eq_div_pow, Reg.LD_CTRL.OPEN, Reg.LD_CTRL.ABORT, Reg.LD_CTRL.REAPPLY]; omega)

/-- A write of LD_CTRL as stored with one of its pulses acts by that pulse alone. -/
theorem ldCtrl_pulse {d : Dev} {path : Nat} (h : (d.reg ldCtrlAddr).toNat % 8 = 0) {f : Fld} (hf : f ∈ ldPulses) :
    d.ldCtrl path (d.regWith ldCtrlAddr [(f, 1)]) =
      let e := d.ldCtrlTaken (d.regWith ldCtrlAddr [(f, 1)])
      if f = Reg.LD_CTRL.OPEN then e.ldOpen path else if f = Reg.LD_CTRL.ABORT then e.ldAbort else e.ldReapply path := by
  have hWord : d.regWith ldCtrlAddr [(f, 1)] = fset (d.reg ldCtrlAddr) f 1 := rfl
  have hSame : ∀ f ∈ ldPulses, fget (fset (d.reg ldCtrlAddr) f 1) f = 1 := fun f hf => by
    have hFits : ∀ f ∈ ldPulses, f.fits ∧ f.width = 1 := by decide
    rw [fget_fset_same (hFits f hf).1, (hFits f hf).2]
    rfl
  have hOther (f g : Fld) (hg : g ∈ ldPulses) (ha : f.apart g) : fget (fset (d.reg ldCtrlAddr) f 1) g = 0 := by
    rw [fget_fset_apart ha, ldPulse_zero h hg]
  have hDistinct : Reg.LD_CTRL.ABORT ≠ Reg.LD_CTRL.OPEN ∧ Reg.LD_CTRL.REAPPLY ≠ Reg.LD_CTRL.OPEN ∧
      Reg.LD_CTRL.REAPPLY ≠ Reg.LD_CTRL.ABORT := by decide
  unfold Dev.ldCtrl
  rw [hWord]
  simp only [ldPulses, List.mem_cons, List.not_mem_nil, or_false] at hf
  rcases hf with rfl | rfl | rfl
  · rw [hOther _ Reg.LD_CTRL.ABORT (by decide) (by decide), hOther _ Reg.LD_CTRL.REAPPLY (by decide) (by decide), hSame _ (by decide)]
    simp [Dev.ldCtrlTaken]
  · rw [hOther _ Reg.LD_CTRL.OPEN (by decide) (by decide), hOther _ Reg.LD_CTRL.REAPPLY (by decide) (by decide), hSame _ (by decide)]
    simp [Dev.ldCtrlTaken, hDistinct]
  · rw [hOther _ Reg.LD_CTRL.ABORT (by decide) (by decide), hOther _ Reg.LD_CTRL.OPEN (by decide) (by decide), hSame _ (by decide)]
    simp [Dev.ldCtrlTaken, hDistinct]

/-! ## The commands -/

/-- The next entry of the list of boot sources, and its place (R371). -/
def Dev.nextEntry (d : Dev) : Option (Nat × Nat) :=
  ((bootSources d.load.boot).zipIdx.drop d.load.entry).find? fun e => decide (e.1 ≤ 4)

/-- The next entry of the list is tried. -/
theorem opBootSourceTry_eq {d : Dev} {tables : Bool} (hStep : d.load.step = .loading) (hMode : d.load.mode = .idle)
    (hTrying : d.load.trying = none) (hEntry : d.load.entry ≠ entriesTried) :
    opBootSourceTry tables d = (match d.nextEntry with
      | none => d.noSource
      | some (code, i) =>
        let d := d.modLoad fun l => { l with entry := i + 1 }
        if code ≤ 2 then d.readSpi0 code tables
        else
          ((d.ldState ldWaiting).setFld rootBase Reg.LD_STATUS.SOURCE code).modLoad fun l => { l with trying := some code }) := by
  unfold opBootSourceTry
  rw [if_neg (by simp [hStep, hMode, hTrying, hEntry])]
  rfl

/-- A write of LD_CTRL that reaches its register, by its pulse. -/
theorem completes_ldPulse {c : Instr} {s : State} {path : Nat} {f : Fld} {P : Dev → Prop} {g : Dev → Dev} (hf : f ∈ ldPulses)
    (he : exec c s = onDev (fun d => d.ldCtrlBy path f) s) (hReach : s.dev.reached path ldCtrlAddr)
    (hZero : (s.dev.reg ldCtrlAddr).toNat % 8 = 0)
    (hg : ∀ e : Dev, (if f = Reg.LD_CTRL.OPEN then e.ldOpen path else if f = Reg.LD_CTRL.ABORT then e.ldAbort else e.ldReapply path) = g e)
    (hP : ∀ w, (g (s.dev.ldCtrlTaken w)).quiet = true ∧ P ((g (s.dev.ldCtrlTaken w)).finish path stOk 0)) : Completes c s P := by
  have hWrite : s.dev.ldCtrl path (s.dev.regWith ldCtrlAddr [(f, 1)]) = g (s.dev.ldCtrlTaken (s.dev.regWith ldCtrlAddr [(f, 1)])) :=
    (ldCtrl_pulse hZero hf).trans (hg _)
  refine completes_viaWord (f := fun d => d.ldCtrl path (d.regWith ldCtrlAddr [(f, 1)])) he hReach ?_ ?_
  · rw [hWrite]
    exact (hP _).1
  · rw [hWrite]
    exact (hP _).2

/-- The next entry of the list of boot sources is tried (R371, R372). -/
theorem bootSourceTry_completes {d : Dev} {q : List Instr} (hq : d.quiet = true)
    (hStep : d.load.step = .loading) (hMode : d.load.mode = .idle)
    (hTrying : d.load.trying = none) (hEntry : d.load.entry ≠ entriesTried) :
    (∀ code i, d.nextEntry = some (code, i) → (code = 1 ∨ code = 2) → d.load.boot.octal = false →
      Completes (.bootSourceTry true) { dev := d, pending := q } fun e =>
        LoadOpened d .boot code e ∧ e.load.trying = some code ∧ e.load.entry = i + 1 ∧ OnlyParts [.regs, .load] d e ∧
          OnlyWindow rootBase d e) ∧
    (∀ code i, d.nextEntry = some (code, i) → (code = 3 ∨ code = 4) →
      Completes (.bootSourceTry true) { dev := d, pending := q } fun e =>
        e.load = { d.load with entry := i + 1, trying := some code } ∧ e.fld rootBase Reg.LD_STATUS.STATE = ldWaiting ∧
          e.fld rootBase Reg.LD_STATUS.SOURCE = code ∧ OnlyParts [.regs, .load] d e ∧ OnlyRegs [rootBase + Reg.LD_STATUS.STATE.off] d e) ∧
    (d.nextEntry = none →
      Completes (.bootSourceTry true) { dev := d, pending := q } fun e =>
        LoadRejected ldNoSource e ∧ e.load = { d.load with entry := entriesTried } ∧ OnlyParts [.regs, .load] d e ∧
          OnlyWindow rootBase d e) := by
  have hOp := opBootSourceTry_eq (tables := true) hStep hMode hTrying hEntry
  refine ⟨fun code i hNext hCode hOctal => ?_, fun code i hNext hCode => ?_, fun hNext => ?_⟩
  · rw [hNext] at hOp
    have hRead : opBootSourceTry true d = ((d.modLoad fun l => { l with entry := i + 1 }).modLoad fun l =>
        { l with trying := some code }).beginLoad .boot code 0 true := by
      rw [hOp]
      dsimp only
      rw [if_pos (by omega), Dev.readSpi0]
      rw [if_neg (by rw [modLoad_load]; exact Bool.eq_false_iff.mp hOctal)]
    obtain ⟨hOpened, -, ⟨hTry, hAt, -⟩, hQuiet, hParts, hWindow⟩ := beginLoad_leaves ((d.modLoad fun l =>
      { l with entry := i + 1 }).modLoad fun l => { l with trying := some code }) .boot (source := code) (path := 0) true (by omega)
      (by decide)
    refine completes_quiet (f := opBootSourceTry true) rfl ?_ ?_
    · rw [hRead, hQuiet, quiet_modLoad, quiet_modLoad]; exact hq
    · rw [hRead]
      refine ⟨hOpened, hTry, hAt, OnlyParts.trans (by simp) hParts, fun a ha => (hWindow a ha).trans rfl⟩
  · rw [hNext] at hOp
    have hWaits : opBootSourceTry true d = (((d.modLoad fun l => { l with entry := i + 1 }).ldState ldWaiting).setFld rootBase
        Reg.LD_STATUS.SOURCE code).modLoad fun l => { l with trying := some code } := by
      rw [hOp]
      dsimp only
      rw [if_neg (by omega)]
    refine completes_quiet (f := opBootSourceTry true) rfl ?_ ?_
    · rw [hWaits, quiet_modLoad, quiet_setFld _ _ _ _ (by decide), Dev.ldState,
        quiet_setFld _ _ _ _ (by decide), quiet_modLoad]
      exact hq
    · rw [hWaits]
      refine ⟨rfl, ?_, ?_, by simp [Dev.ldState], ?_⟩
      · rw [fld_modLoad, fld_setFld_clear (by decide), Dev.ldState, fld_setFld_lt (by decide) (by decide)]
      · rw [fld_modLoad, fld_setFld_lt (by decide) (lt_of_le_of_lt (show code ≤ 4 by omega) (by decide))]
      · simp [Dev.ldState, Reg.LD_STATUS.STATE, Reg.LD_STATUS.SOURCE]
  · rw [hNext] at hOp
    have hNone : opBootSourceTry true d = (d.modLoad fun l => { l with entry := entriesTried, trying := none }).showsReject ldNoSource :=
      hOp
    obtain ⟨hShown, hLoad, hQuiet, hParts, hWindow⟩ := showsReject_leaves (d.modLoad fun l =>
      { l with entry := entriesTried, trying := none }) (cause := ldNoSource) (by decide)
    refine completes_quiet (f := opBootSourceTry true) rfl ?_ ?_
    · rw [hNone, hQuiet, quiet_modLoad]; exact hq
    · rw [hNone]
      refine ⟨hShown, hLoad.trans ?_, OnlyParts.trans (by simp) (hParts.mono (by simp)), fun a ha => (hWindow a ha).trans rfl⟩
      rw [modLoad_load, ← hTrying]

/-- OPEN opens a stream for its path (R374). -/
theorem ldOpen_completes {d : Dev} {q : List Instr} (hq : d.quiet = true) {path : Fin 8}
    (hReach : d.reached path ldCtrlAddr = true) (hMode : d.load.mode = .idle)
    (hOpen : d.mayOpen path = true) (hZero : (d.reg ldCtrlAddr).toNat % 8 = 0) :
    Completes (.ldOpen path) { dev := d, pending := q } fun e =>
      LoadOpened d .stream (streamSource path) e ∧ e.fld rootBase Reg.LD_STATUS.PATH = path ∧ e.answered path stOk 0 ∧
        OnlyParts [.regs, .ctl, .load] d e ∧ OnlyWindow rootBase d e := by
  refine completes_ldPulse (f := Reg.LD_CTRL.OPEN) (g := fun e => e.ldOpen path) (by decide) rfl hReach hZero
    (fun e => if_pos rfl) fun w => ?_
  obtain ⟨hLoad, hQuiet, hParts, hWindow, -⟩ := ldCtrlTaken_leaves d w
  have hSource : streamSource path < 16 := by unfold streamSource; split <;> decide
  obtain ⟨hOpened, hPath, -, hBeginQuiet, hBeginParts, hBeginWindow⟩ := beginLoad_leaves (d.ldCtrlTaken w) .stream
    (source := streamSource path) (path := path) false hSource path.isLt
  have hMay : (d.ldCtrlTaken w).mayOpen path = true := hOpen
  have hOp : (d.ldCtrlTaken w).ldOpen path = (d.ldCtrlTaken w).beginLoad .stream (streamSource path) path false :=
    if_neg (by rw [hLoad, hMay]; simp [hMode])
  rw [hOp]
  refine ⟨by rw [hBeginQuiet, hQuiet]; exact hq, loadOpened_finish.mpr ?_, by rw [fld_finish, hPath], finish_answered .., ?_,
    onlyWindow_finish.mpr fun a ha => (hBeginWindow a ha).trans (hWindow a ha)⟩
  · exact hOpened
  · rw [onlyParts_finish _ _ _ _ (by simp)]
    exact (hParts.mono (by simp)).trans (hBeginParts.mono (by simp))

/-- While a stream is open OPEN is refused, and ABORT ends it (R374). -/
theorem ldOpen_ldAbort_complete {d : Dev} {q : List Instr} (hq : d.quiet = true) {path : Fin 8}
    (hReach : d.reached path ldCtrlAddr = true) (hAlone : d.loadAlone)
    (hZero : (d.reg ldCtrlAddr).toNat % 8 = 0) :
    Completes (.ldOpen path) { dev := d, pending := q } (fun e =>
      e.load = d.load ∧ e.fld rootBase Reg.LD_EVENT.OPEN_REJECT = 1 ∧ e.answered path stOk 0 ∧ OnlyParts [.regs, .ctl] d e ∧
        OnlyWindow rootBase d e) ∧
    Completes (.loadAbort path) { dev := d, pending := q } fun e =>
      (LoadRejected ldAborted e ∧ e.load.mode = .idle ∧ e.load.image = none) ∧ e.answered path stOk 0 := by
  refine ⟨?_, ?_⟩
  · refine completes_ldPulse (f := Reg.LD_CTRL.OPEN) (g := fun e => e.ldOpen path) (by decide) rfl hReach hZero
      (fun e => if_pos rfl) fun w => ?_
    obtain ⟨hLoad, hQuiet, hParts, hWindow, -⟩ := ldCtrlTaken_leaves d w
    have hOp : (d.ldCtrlTaken w).ldOpen path = (d.ldCtrlTaken w).raise rootBase Reg.LD_EVENT.OPEN_REJECT :=
      if_pos (.inl (by rw [hLoad, hAlone.1]; decide))
    rw [hOp]
    refine ⟨?_, hLoad, by rw [fld_finish, fld_raise_same (by decide) (by decide)], finish_answered .., ?_,
      onlyWindow_finish.mpr (hWindow.raise (by decide))⟩
    · rw [quiet_raise _ _ _ (by decide), hQuiet]; exact hq
    · rw [onlyParts_finish _ _ _ _ (by simp), onlyParts_raise _ _ _ (by simp)]
      exact hParts.mono (by simp)
  · refine completes_ldPulse (f := Reg.LD_CTRL.ABORT) (g := fun e => e.ldAbort) (by decide) rfl hReach hZero
      (fun e => (if_neg (by decide)).trans (if_pos rfl)) fun w => ?_
    obtain ⟨hLoad, hQuiet, -, -, hKept⟩ := ldCtrlTaken_leaves d w
    obtain ⟨hEnds, hEndQuiet⟩ := imageReject_leaves (hKept hAlone) (cause := ldAborted) (by decide)
    have hOp : (d.ldCtrlTaken w).ldAbort = (d.ldCtrlTaken w).imageReject ldAborted noIndex :=
      if_neg (by rw [hLoad, hAlone.1]; decide)
    rw [hOp]
    obtain ⟨hShown, hIdle, hNone⟩ := hEnds
    exact ⟨by rw [hEndQuiet, hQuiet]; exact hq, ⟨loadRejected_finish.mpr hShown, hIdle, hNone⟩, finish_answered ..⟩

/-- REAPPLY reads the released image again (R388). -/
theorem reapply_completes {d : Dev} {q : List Instr} (hq : d.quiet = true) {path : Fin 8} {img : Image}
    (hReach : d.reached path ldCtrlAddr = true)
    (hMode : d.load.mode = .idle) (hReleased : d.load.released = some img) (hSource : img.source = 3)
    (hZero : (d.reg ldCtrlAddr).toNat % 8 = 0) :
    Completes (.reapply path) { dev := d, pending := q } fun e =>
      LoadOpened d .reapply 3 e ∧ e.fld rootBase Reg.LD_STATUS.PATH = path ∧ e.load.released = some img ∧ e.answered path stOk 0 ∧
        OnlyParts [.regs, .ctl, .load] d e := by
  refine completes_ldPulse (f := Reg.LD_CTRL.REAPPLY) (g := fun e => e.ldReapply path) (by decide) rfl hReach hZero
    (fun e => (if_neg (by decide)).trans (if_neg (by decide))) fun w => ?_
  obtain ⟨hLoad, hQuiet, hParts, -, -⟩ := ldCtrlTaken_leaves d w
  obtain ⟨hOpened, hPath, ⟨-, -, hKept⟩, hBeginQuiet, hBeginParts, -⟩ := beginLoad_leaves (d.ldCtrlTaken w) .reapply
    (source := 3) (path := path) false (by decide) path.isLt
  have hOp : (d.ldCtrlTaken w).ldReapply path = (d.ldCtrlTaken w).beginLoad .reapply 3 path false := by
    unfold Dev.ldReapply
    rw [if_neg (by rw [hLoad, hMode]; simp), hLoad, hReleased]
    dsimp only
    rw [hSource]
    rfl
  rw [hOp]
  refine ⟨by rw [hBeginQuiet, hQuiet]; exact hq, loadOpened_finish.mpr hOpened, by rw [fld_finish, hPath],
    hKept.trans (hLoad ▸ hReleased), finish_answered .., ?_⟩
  rw [onlyParts_finish _ _ _ _ (by simp)]
  exact (hParts.mono (by simp)).trans (hBeginParts.mono (by simp))

/-- Words of an open stream count for its own path alone (R374). -/
theorem ldDataWrite_completes {d : Dev} {q : List Instr} (hq : d.quiet = true) {path : Fin 8} {value : Word}
    (hReach : d.reached path ldDataAddr = true)
    (hMode : d.load.mode = .stream) :
    (d.fld rootBase Reg.LD_STATUS.PATH = path →
      Completes (.ldDataWrite path value) { dev := d, pending := q } fun e =>
        e.reg ldDataAddr = value ∧ Counted rootBase Reg.LD_BYTES.BYTES 4 d e ∧
          e.load = { d.load with idleTick := d.tick, words := d.load.words ++ [value] } ∧ e.answered path stOk 0 ∧
          OnlyParts [.regs, .ctl, .load] d e ∧ OnlyRegs [ldDataAddr, rootBase + Reg.LD_BYTES.BYTES.off] d e) ∧
    (d.fld rootBase Reg.LD_STATUS.PATH ≠ path →
      Completes (.ldDataWrite path value) { dev := d, pending := q } fun e =>
        e.load = d.load ∧ e.fld rootBase Reg.LD_EVENT.FOREIGN = 1 ∧ e.answered path stOk 0 ∧ OnlyParts [.regs, .ctl] d e ∧
          OnlyRegs [rootBase + Reg.LD_EVENT.FOREIGN.off] d e) := by
  have hStream : d.streaming = true := by rw [Dev.streaming, hMode]; rfl
  refine ⟨fun hPath => ?_, fun hPath => ?_⟩
  · have hOp : d.ldData path value = ((d.setReg ldDataAddr value).countBy rootBase Reg.LD_BYTES.BYTES 4).modLoad fun l =>
        { l with idleTick := d.tick, words := l.words ++ [value] } := by
      unfold Dev.ldData
      rw [if_neg (by rw [hStream]; decide), if_neg (not_not.mpr hPath)]
      rfl
    refine completes_viaWord (f := fun d => d.ldData path value) rfl hReach ?_ ?_
    · rw [hOp, quiet_modLoad, quiet_countBy _ _ _ _ (by decide), quiet_setReg _ _ _ (by decide)]; exact hq
    · rw [hOp]
      refine ⟨?_, ?_, rfl, finish_answered .., by simp, by simp⟩
      · rw [reg_finish, reg_modLoad, reg_countBy, if_neg (by decide), reg_setReg, if_pos rfl]
      · rw [Counted, fld_finish, fld_modLoad, fld_countBy_same (by decide), fld_setReg_other (by decide)]
  · have hOp : d.ldData path value = d.raise rootBase Reg.LD_EVENT.FOREIGN := by
      unfold Dev.ldData
      rw [if_neg (by rw [hStream]; decide), if_pos hPath]
    refine completes_viaWord (f := fun d => d.ldData path value) rfl hReach ?_ ?_
    · rw [hOp, quiet_raise _ _ _ (by decide)]; exact hq
    · rw [hOp]
      exact ⟨rfl, by rw [fld_finish, fld_raise_same (by decide) (by decide)], finish_answered .., by simp, by simp⟩

/-- Settles O45: the opening of a load, and the rejection of one that nothing waits for, write the loader's record and registers of the
root's window alone; the words of a stream count for its own path. -/
theorem loaderOpensAndEnds : Obligations.LoaderOpensAndEnds := by
  unfold Obligations.LoaderOpensAndEnds
  intro s path value img hquiet d b next opened rejected ends calm
  have hq : d.quiet = true := hquiet
  refine ⟨bootSourceTry_completes hq, fun t hTrying hMode hWait hLanes hTicks => ?_, fun hReach => ⟨ldOpen_completes hq hReach,
    fun ⟨hMode, hKeys, hForme⟩ hImage => ldOpen_ldAbort_complete hq hReach ⟨hMode, hKeys, hForme, hImage⟩,
    reapply_completes hq hReach⟩, ?_, ldDataWrite_completes hq⟩
  · have hOp : opTrunkWaitExpiry s.dev = d.modLoad fun l => { l with trying := none } := by
      unfold opTrunkWaitExpiry
      dsimp only
      rw [show s.dev.load.lanesTick = some t from hLanes]
      exact if_pos ⟨hTrying, hMode, hWait, hTicks⟩
    refine completes_quiet (f := opTrunkWaitExpiry) rfl (by rw [hOp, quiet_modLoad]; exact hq) ?_
    rw [hOp]
    exact ⟨rfl, by simp⟩
  · intro hCalm hImage hLimit hTicks
    obtain ⟨hMode, hKeys, hForme⟩ := hCalm
    obtain ⟨hEnds, hEndQuiet⟩ := imageReject_leaves (d := d) ⟨hMode, hKeys, hForme, hImage⟩ (cause := ldTimeout) (by decide)
    have hOp : opLoadTimeout s.dev = d.imageReject ldTimeout noIndex := by
      unfold opLoadTimeout
      refine if_pos (Bool.and_eq_true_iff.mpr ⟨?_, decide_eq_true ⟨hLimit, hTicks⟩⟩)
      rw [Dev.streaming, show s.dev.load.mode = _ from hMode]
      rfl
    refine completes_quiet (f := opLoadTimeout) rfl (by rw [hOp, hEndQuiet]; exact hq) ?_
    rw [hOp]
    exact hEnds

end Sys2Proof.Machine

/-! # RELEASE of an alignment buffer (R46, R47, R142) -/

namespace Sys2Proof.Machine

set_option Elab.async false

/-! ## Registers and records of lanes -/

/-- No lane's register is IRQ_CTRL. -/
theorem irq_ne_lane (n o : Nat) : rootBase + Reg.IRQ_CTRL.off ≠ laneBase n + o := by
  simp only [laneBase, rootBase, Reg.IRQ_CTRL.off]
  omega

theorem quiet_laneFld (d : Dev) (n : Nat) (f : Fld) (v : Nat) : (d.setFld (laneBase n) f v).quiet = d.quiet :=
  quiet_setFld _ _ _ _ (irq_ne_lane n f.off)

theorem quiet_laneRaise (d : Dev) (n : Nat) (f : Fld) : (d.raise (laneBase n) f).quiet = d.quiet := quiet_laneFld d n f 1

theorem quiet_laneReg (d : Dev) (n o : Nat) (v : Word) : (d.setReg (laneBase n + o) v).quiet = d.quiet :=
  quiet_setReg _ _ _ (irq_ne_lane n o)

@[simp] theorem lane_modLane_same (d : Dev) (n : Nat) (f : LaneRec → LaneRec) : (d.modLane n f).lane n = f (d.lane n) := by
  simp [Dev.lane, Dev.modLane, SMap.at_set]

theorem lane_setFld (d : Dev) (b n v : Nat) (f : Fld) : (d.setFld b f v).lane n = d.lane n := rfl

theorem lane_raise (d : Dev) (b n : Nat) (f : Fld) : (d.raise b f).lane n = d.lane n := rfl

@[simp] theorem lane_finish (d : Dev) (p st n : Nat) (w : Word) : (d.finish p st w).lane n = d.lane n := rfl

/-! ## One lane -/

/-- A lane's buffer at RELEASE, without delivery frames: LAST shows the crossing's status, and what is stamped K leaves. -/
def Dev.presentsK (d : Dev) (n k : Nat) : Dev :=
  ((d.setFld (laneBase n) Reg.ALIGN_STATUS.LAST (d.laneStatus n k)).modLane n fun r =>
    { r with held := r.held.filter fun h => h.cross != k
             gaps := r.gaps.filter fun g => match g.hi with | some h => !crossBefore h k | none => true }).showFill n

theorem releaseLane_eq {d : Dev} {n k : Nat} (hRuns : d.runs (laneBase n) = true) (hProve : d.proving (laneBase n) = false)
    (hDlv : (d.lane n).portDlv.getLsbD 0 = false) : d.releaseLane n k = d.presentsK n k := by
  have hActive : (d.ust (laneBase n)).active = true := by
    unfold Dev.runs at hRuns
    revert hRuns
    cases d.ust (laneBase n) <;> simp [UState.active]
  have hSame : ((d.presentsK n k).lane n).portDlv = (d.lane n).portDlv := by
    rw [Dev.presentsK, Dev.showFill, lane_setFld, lane_modLane_same, lane_setFld]
  have hDlv' : (!((d.presentsK n k).lane n).portDlv.getLsbD 0) = true := by rw [hSame, hDlv]; rfl
  unfold Dev.releaseLane
  dsimp only
  rw [if_neg (by rw [hActive, hProve]; decide)]
  exact if_pos hDlv'

theorem laneStatus_lt (d : Dev) (n k : Nat) : d.laneStatus n k < 4 := by
  unfold Dev.laneStatus
  dsimp only
  split
  · decide
  · split
    · decide
    · split
      · split <;> decide
      · decide

theorem presentsK_leaves (d : Dev) (n k : Nat) :
    let e := d.presentsK n k
    (e.lane n).held = (d.lane n).held.filter (fun h => h.cross != k) ∧
      e.fld (laneBase n) Reg.ALIGN_STATUS.LAST = d.laneStatus n k ∧ e.quiet = d.quiet ∧ OnlyParts [.regs, .lanes] d e ∧
      OnlyRegs [laneBase n + Reg.ALIGN_STATUS.LAST.off] d e := by
  refine ⟨?_, ?_, ?_, ?_, ?_⟩
  · rw [Dev.presentsK, Dev.showFill, lane_setFld, lane_modLane_same, lane_setFld]
  · rw [Dev.presentsK, Dev.showFill, fld_setFld_clear (by decide), fld_modLane, fld_setFld_lt (by decide) (laneStatus_lt d n k)]
  · rw [Dev.presentsK, Dev.showFill, quiet_laneFld, quiet_modLane, quiet_laneFld]
  · simp [Dev.presentsK, Dev.showFill]
  · simp [Dev.presentsK, Dev.showFill, Reg.ALIGN_STATUS.LAST, Reg.ALIGN_STATUS.FILL]

/-- Settles O8: the one lane in use presents crossing K, and its status is what its evidence and its gaps say. -/
theorem releasePresentsTheDataOfK : Obligations.ReleasePresentsTheDataOfK := by
  unfold Obligations.ReleasePresentsTheDataOfK
  intro s n hquiet hWindowed hReleased hStopped hLanes hRuns hProve hLocked hGaps hDlv k
  have hq : s.dev.quiet = true := hquiet
  have hOp : opRelease [] s.dev = (s.dev.modKeeper fun x => { x with released := true }).presentsK n k := by
    unfold opRelease
    rw [if_neg (by rw [hWindowed, hReleased, hStopped]; decide)]
    have hLanes' : (s.dev.modKeeper fun x => { x with released := true }).alignLanes = [n] := hLanes
    simp only [Dev.withPorts, if_true, hLanes', Dev.each, List.foldl_cons, List.foldl_nil]
    exact releaseLane_eq (d := s.dev.modKeeper fun x => { x with released := true }) hRuns hProve hDlv
  have hStatus : (s.dev.modKeeper fun x => { x with released := true }).laneStatus n k =
      (match (s.dev.lane n).evidence with | some j => if crossBefore k j then 0 else 1 | none => 1) := by
    show s.dev.laneStatus n k = _
    unfold Dev.laneStatus
    simp only [hRuns, hLocked, hGaps]
    simp <;> rfl
  obtain ⟨hHeld, hLast, hQuiet, hParts, hRegs⟩ := presentsK_leaves (s.dev.modKeeper fun x => { x with released := true }) n k
  refine completes_quiet (f := opRelease []) rfl (by rw [hOp, hQuiet, quiet_modKeeper]; exact hq) ?_
  rw [hOp]
  exact ⟨hParts .keeper (by simp), hHeld, hLast.trans hStatus, OnlyParts.trans (by simp) (hParts.mono (by simp)),
    OnlyRegs.trans (by simp) hRegs⟩

end Sys2Proof.Machine

/-! # The eye monitor (R121, R122) -/

namespace Sys2Proof.Machine

set_option Elab.async false

/-- EYE_CTRL as a START writes it. -/
def Dev.eyeSetting (d : Dev) (n dwell voff phase : Nat) : Dev :=
  d.setReg (laneBase n + Reg.EYE_CTRL.off) (d.regWith (laneBase n + Reg.EYE_CTRL.off)
    [(Reg.EYE_CTRL.DWELL, dwell), (Reg.EYE_CTRL.VOFF, voff), (Reg.EYE_CTRL.PHASE, phase)])

theorem fld_eyeSetting (d : Dev) (n : Nat) {dwell voff phase : Nat} (hd : dwell < 16) (hv : voff < 256) (hp : phase < 64) :
    let e := d.eyeSetting n dwell voff phase
    e.fld (laneBase n) Reg.EYE_CTRL.DWELL = dwell ∧ e.fld (laneBase n) Reg.EYE_CTRL.VOFF = voff ∧
      e.fld (laneBase n) Reg.EYE_CTRL.PHASE = phase := by
  have hReg : (d.eyeSetting n dwell voff phase).reg (laneBase n + Reg.EYE_CTRL.off) =
      fset (fset (fset (d.reg (laneBase n + Reg.EYE_CTRL.off)) Reg.EYE_CTRL.DWELL dwell) Reg.EYE_CTRL.VOFF voff) Reg.EYE_CTRL.PHASE phase := by
    rw [Dev.eyeSetting, reg_setReg, if_pos rfl]
    rfl
  have hFld (f : Fld) (ho : f.off = Reg.EYE_CTRL.off) : (d.eyeSetting n dwell voff phase).fld (laneBase n) f =
      fget (fset (fset (fset (d.reg (laneBase n + Reg.EYE_CTRL.off)) Reg.EYE_CTRL.DWELL dwell) Reg.EYE_CTRL.VOFF voff)
        Reg.EYE_CTRL.PHASE phase) f := by
    rw [Dev.fld, ho, hReg]
  refine ⟨?_, ?_, ?_⟩
  · rw [hFld _ rfl, fget_fset_apart (by decide), fget_fset_apart (by decide), fget_fset_same (by decide)]
    exact Nat.mod_eq_of_lt hd
  · rw [hFld _ rfl, fget_fset_apart (by decide), fget_fset_same (by decide)]
    exact Nat.mod_eq_of_lt hv
  · rw [hFld _ rfl, fget_fset_same (by decide)]
    exact Nat.mod_eq_of_lt hp

/-- A measurement that begins clears EYE_RESULT and is software's. -/
theorem eyeBegin_leaves (d : Dev) (n : Nat) :
    let e := d.eyeBegin n
    e.lane n = { d.lane n with eye := .software, eyeTick := d.tick } ∧ e.reg (laneBase n + Reg.EYE_RESULT.off) = 0 ∧
      e.quiet = d.quiet ∧ OnlyParts [.regs, .lanes] d e ∧ OnlyRegs [laneBase n + Reg.EYE_RESULT.off] d e := by
  refine ⟨?_, ?_, ?_, by simp [Dev.eyeBegin], by simp [Dev.eyeBegin]⟩
  · rw [Dev.eyeBegin, lane_modLane_same]
    rfl
  · rw [Dev.eyeBegin, reg_modLane, reg_setReg, if_pos rfl]
  · rw [Dev.eyeBegin, quiet_modLane, quiet_laneReg]

/-- START, by what the monitor does: it begins a measurement, waits behind Peal's, or is refused. -/
theorem eyeStart_leaves (d : Dev) (n : Nat) :
    let e := d.eyeStart n
    let b := laneBase n
    let r := d.lane n
    let dwell := d.fld b Reg.EYE_CTRL.DWELL
    OnlyParts [.regs, .lanes] d e ∧ e.quiet = d.quiet ∧ e.reg (b + Reg.EYE_CTRL.off) = d.reg (b + Reg.EYE_CTRL.off) ∧
      (r.eye = .idle → e.lane n = { r with eye := .software, eyeTick := d.tick, eyeDwell := dwell } ∧ e.reg (b + Reg.EYE_RESULT.off) = 0 ∧
        OnlyRegs [b + Reg.EYE_RESULT.off] d e) ∧
      (r.eye = .peal → e.lane n = { r with eye := .pealHeld, eyeDwell := dwell } ∧ OnlyRegs [] d e) ∧
      (r.eye = .software ∨ r.eye = .pealHeld → e.lane n = r ∧ e.fld b Reg.LANE_EVENT.EYE_REJECT = 1 ∧
        OnlyRegs [b + Reg.LANE_EVENT.EYE_REJECT.off] d e) := by
  intro e b r dwell
  have hRefused (h : r.eye = .software ∨ r.eye = .pealHeld) : d.eyeStart n = d.raise b Reg.LANE_EVENT.EYE_REJECT := by
    unfold Dev.eyeStart
    rcases h with h | h <;> simp only [show (d.lane n).eye = _ from h] <;> rfl
  have hOther (o : Nat) (ho : o ≠ Reg.EYE_CTRL.off) : b + Reg.EYE_CTRL.off ≠ b + o := by omega
  have hRefusedAll (h : r.eye = .software ∨ r.eye = .pealHeld) : OnlyParts [.regs, .lanes] d e ∧ e.quiet = d.quiet ∧
      e.reg (b + Reg.EYE_CTRL.off) = d.reg (b + Reg.EYE_CTRL.off) ∧ e.lane n = r ∧ e.fld b Reg.LANE_EVENT.EYE_REJECT = 1 ∧
      OnlyRegs [b + Reg.LANE_EVENT.EYE_REJECT.off] d e := by
    rw [show e = _ from hRefused h]
    refine ⟨by simp, quiet_laneRaise .., ?_, rfl, fld_raise_same (by decide) (by decide), by simp⟩
    rw [reg_raise, if_neg (hOther _ (by decide))]
  cases hEye : r.eye with
  | idle =>
    have hBegins : e = (d.modLane n fun r => { r with eyeDwell := dwell }).eyeBegin n := by
      show d.eyeStart n = _
      unfold Dev.eyeStart
      simp only [show (d.lane n).eye = _ from hEye]
      rfl
    obtain ⟨hLane, hResult, hQuiet, hParts, hRegs⟩ := eyeBegin_leaves (d.modLane n fun r => { r with eyeDwell := dwell }) n
    rw [hBegins]
    refine ⟨OnlyParts.trans (by simp) hParts, hQuiet.trans (quiet_modLane ..), hRegs _ (by rw [List.mem_singleton]; exact hOther Reg.EYE_RESULT.off (by decide)),
      fun _ => ?_,
      fun h => absurd h (by simp), fun h => absurd h (by simp)⟩
    refine ⟨?_, hResult, OnlyRegs.trans (by simp) hRegs⟩
    rw [hLane, lane_modLane_same]
    rfl
  | peal =>
    have hHeld : e = d.modLane n fun r => { r with eye := .pealHeld, eyeDwell := dwell } := by
      show d.eyeStart n = _
      unfold Dev.eyeStart
      simp only [show (d.lane n).eye = _ from hEye]
      rfl
    rw [hHeld]
    exact ⟨by simp, quiet_modLane .., rfl, fun h => absurd h (by simp), fun _ => ⟨lane_modLane_same .., by simp⟩,
      fun h => absurd h (by simp)⟩
  | software =>
    obtain ⟨hParts, hQuiet, hKept, hRest⟩ := hRefusedAll (.inl hEye)
    exact ⟨hParts, hQuiet, hKept, fun h => absurd h (by simp), fun h => absurd h (by simp), fun _ => hRest⟩
  | pealHeld =>
    obtain ⟨hParts, hQuiet, hKept, hRest⟩ := hRefusedAll (.inr hEye)
    exact ⟨hParts, hQuiet, hKept, fun h => absurd h (by simp), fun h => absurd h (by simp), fun _ => hRest⟩

/-- Settles O21, by the state of the monitor. -/
theorem eyeMonitorMeasures : Obligations.EyeMonitorMeasures := by
  unfold Obligations.EyeMonitorMeasures
  intro s path n hquiet b r bits
  have hq : s.dev.quiet = true := hquiet
  refine ⟨fun dwell voff phase hReach => ?_, fun errors hEye hBits => ?_, fun errors hEye => ?_⟩
  · obtain ⟨hDwell, hVoff, hPhase⟩ := fld_eyeSetting s.dev n dwell.isLt voff.isLt phase.isLt
    have hSet : OnlyParts [.regs] s.dev (s.dev.eyeSetting n dwell voff.toNat phase.toNat) ∧
        OnlyRegs [b + Reg.EYE_CTRL.off] s.dev (s.dev.eyeSetting n dwell voff.toNat phase.toNat) ∧
        (s.dev.eyeSetting n dwell voff.toNat phase.toNat).quiet = s.dev.quiet ∧
        (s.dev.eyeSetting n dwell voff.toNat phase.toNat).lane n = r ∧
        (s.dev.eyeSetting n dwell voff.toNat phase.toNat).tick = s.dev.tick :=
      ⟨by simp [Dev.eyeSetting], by simp [Dev.eyeSetting, b], quiet_laneReg .., rfl, rfl⟩
    obtain ⟨hParts, hQuiet, hCtrl, hIdle, hPeal, hBusy⟩ := eyeStart_leaves (s.dev.eyeSetting n dwell voff.toNat phase.toNat) n
    refine completes_viaWord (f := fun d => (d.eyeSetting n dwell voff.toNat phase.toNat).eyeStart n) rfl hReach ?_ ?_
    · show ((s.dev.eyeSetting n dwell voff.toNat phase.toNat).eyeStart n).quiet = true
      rw [hQuiet, hSet.2.2.1]; exact hq
    · show _ ∧ _
      generalize (s.dev.eyeSetting n dwell voff.toNat phase.toNat) = m at hDwell hVoff hPhase hSet hParts hQuiet hCtrl hIdle hPeal hBusy
      generalize m.eyeStart n = e at hParts hQuiet hCtrl hIdle hPeal hBusy
      obtain ⟨hSetParts, hSetRegs, -, hSetLane, hSetTick⟩ := hSet
      have hFld (f : Fld) (ho : f.off = Reg.EYE_CTRL.off) : (e.finish path stOk 0).fld b f = m.fld b f := by
        rw [fld_finish, Dev.fld, ho, hCtrl, Dev.fld, ho]
      have hMore (l : List Nat) (h : OnlyRegs l m e) : OnlyRegs ((b + Reg.EYE_CTRL.off) :: l) s.dev (e.finish path stOk 0) :=
        (onlyRegs_finish ..).mpr ((hSetRegs.mono (by simp)).trans (h.mono (by simp +contextual)))
      rw [hSetLane, hSetTick, hDwell] at hIdle
      rw [hSetLane, hDwell] at hPeal
      rw [hSetLane] at hBusy
      refine ⟨(hFld _ rfl).trans hDwell, (hFld _ rfl).trans hVoff, (hFld _ rfl).trans hPhase, finish_answered .., ?_, fun h => ?_, fun h => ?_,
        fun h => ?_⟩
      · rw [onlyParts_finish _ _ _ _ (by simp)]
        exact (hSetParts.mono (by simp)).trans (hParts.mono (by simp))
      · obtain ⟨hLane, hResult, hRegs⟩ := hIdle h
        exact ⟨hLane, hResult, hMore _ hRegs⟩
      · obtain ⟨hLane, hRegs⟩ := hPeal h
        exact ⟨hLane, hMore _ hRegs⟩
      · obtain ⟨hLane, hReject, hRegs⟩ := hBusy h
        exact ⟨hLane, by rw [fld_finish, hReject], hMore _ hRegs⟩
  · have hOp : opEyeDone n errors s.dev = (((s.dev.setFld b Reg.EYE_RESULT.DONE 1).setFld b Reg.EYE_RESULT.ERRORS
        (min errors (min bits (2 ^ 30 - 1)))).raise b Reg.LANE_EVENT.EYE_DONE).modLane n fun r => { r with eye := .idle } := by
      unfold opEyeDone
      simp only [show (s.dev.lane n).eye = _ from hEye]
      exact if_neg (Nat.not_lt.mpr hBits)
    have hErrors : min errors (min bits (2 ^ 30 - 1)) < 2 ^ 30 := by omega
    refine completes_quiet (f := opEyeDone n errors) rfl ?_ ?_
    · rw [hOp, quiet_modLane, quiet_laneRaise, quiet_laneFld, quiet_laneFld]; exact hq
    · rw [hOp]
      refine ⟨?_, ?_, ?_, ?_, by simp, by simp [b, Reg.EYE_RESULT.DONE, Reg.EYE_RESULT.ERRORS, Reg.EYE_RESULT.off]⟩
      · rw [fld_modLane, Dev.raise, fld_setFld_clear (by decide), fld_setFld_clear (by decide), fld_setFld_lt (by decide) (by decide)]
      · rw [fld_modLane, Dev.raise, fld_setFld_clear (by decide), fld_setFld_lt (by decide) hErrors]
      · rw [fld_modLane, fld_raise_same (by decide) (by decide)]
      · rw [lane_modLane_same, lane_raise, lane_setFld, lane_setFld]
  · have hOp : opEyeDone n errors s.dev = s.dev.eyeBegin n := by
      unfold opEyeDone
      simp only [show (s.dev.lane n).eye = _ from hEye]
    obtain ⟨hLane, hResult, hQuiet, hParts, hRegs⟩ := eyeBegin_leaves s.dev n
    refine completes_quiet (f := opEyeDone n errors) rfl (by rw [hOp, hQuiet]; exact hq) ?_
    rw [hOp]
    exact ⟨hLane, hResult, hParts, hRegs⟩

end Sys2Proof.Machine

/-! # Proof fields and VERSION_SEL (R71, R78) -/

namespace Sys2Proof.Machine

set_option Elab.async false

/-! ## Fields that a unit of any place holds -/

/-- A write of a field that lies apart from EVT_EN in its word leaves a quiet machine quiet, wherever the register lies. -/
theorem quiet_setFld_apart {d : Dev} {b n : Nat} {f : Fld} (h : f.apart Reg.IRQ_CTRL.EVT_EN) : (d.setFld b f n).quiet = d.quiet := by
  have hFlag : (d.setFld b f n).flag rootBase Reg.IRQ_CTRL.EVT_EN = d.flag rootBase Reg.IRQ_CTRL.EVT_EN := by
    unfold Dev.flag Dev.fld
    rw [reg_setFld]
    split
    · rename_i hAt
      rw [fget_fset_apart h, hAt]
    · rfl
  unfold Dev.quiet
  rw [hFlag, setFld_kryup, setFld_clk, setFld_stack]

/-- So does one that clears a field. -/
theorem quiet_setFld_zero {d : Dev} {b : Nat} {f : Fld} (h : d.quiet = true) : (d.setFld b f 0).quiet = true := by
  obtain ⟨hDue, hHeld, hDown, hIrq, hMeets⟩ := d.quiet_iff.mp h
  refine (Dev.quiet_iff _).mpr ⟨hDue, hHeld, hDown, ?_, hMeets⟩
  have hClear : (d.reg (rootBase + Reg.IRQ_CTRL.EVT_EN.off)).getLsbD 1 = false := by
    have hZero : fget (d.reg (rootBase + Reg.IRQ_CTRL.EVT_EN.off)) Reg.IRQ_CTRL.EVT_EN = 0 := by
      simpa [Dev.flag, Dev.fld] using hIrq
    have hBit := testBit_fget (d.reg (rootBase + Reg.IRQ_CTRL.EVT_EN.off)) Reg.IRQ_CTRL.EVT_EN 0
    rw [hZero] at hBit
    simpa [Reg.IRQ_CTRL.EVT_EN] using hBit.symm
  have hReg : ((d.setFld b f 0).reg (rootBase + Reg.IRQ_CTRL.EVT_EN.off)).getLsbD 1 = false := by
    rw [reg_setFld]
    split
    · rename_i hAt
      rw [getLsbD_fset, ← hAt, hClear]
      simp
    · exact hClear
  have hFld : fget ((d.setFld b f 0).reg (rootBase + Reg.IRQ_CTRL.EVT_EN.off)) Reg.IRQ_CTRL.EVT_EN = 0 := by
    refine Nat.eq_of_testBit_eq fun i => ?_
    rw [testBit_fget, Nat.zero_testBit]
    by_cases hi : i = 0
    · subst hi
      simpa [Reg.IRQ_CTRL.EVT_EN] using hReg
    · simp [Reg.IRQ_CTRL.EVT_EN, hi]
  rw [Dev.flag, Dev.fld, hFld]
  rfl

/-- Below the root's end every address lies in the root. -/
theorem unitOf_root {b : Nat} (h : b < 0x1000) : (unitOf b).blk = .root := by
  unfold unitOf unitAt
  simp [h]

/-- A unit that is not the root has no register where IRQ_CTRL is. -/
theorem irq_ne_unit {b : Nat} (h : (unitOf b).blk ≠ .root) (o : Nat) : rootBase + Reg.IRQ_CTRL.off ≠ b + o := by
  have hb : ¬b < 0x1000 := fun hLow => h (unitOf_root hLow)
  simp only [rootBase, Reg.IRQ_CTRL.off]
  omega

/-! ## A write of CTRL that only carries proof fields -/

/-- CTRL as a write of the proof fields carries it. -/
def Dev.proofWord (d : Dev) (b : Nat) (en : Bool) (depth : Nat) : Word :=
  fset (fset (d.ctrlWord b) Reg.CTRL.PROOF_EN (bit01 en)) Reg.CTRL.PROOF_DEPTH depth

theorem fget_proofWord (d : Dev) (b : Nat) (en : Bool) {depth : Nat} (hd : depth < 4) :
    fget (d.proofWord b en depth) Reg.CTRL.PROOF_EN = bit01 en ∧ fget (d.proofWord b en depth) Reg.CTRL.PROOF_DEPTH = depth ∧
      ∀ f : Fld, f.off = Reg.CTRL.off → Reg.CTRL.PROOF_EN.apart f → Reg.CTRL.PROOF_DEPTH.apart f →
        fget (d.proofWord b en depth) f = d.fld b f := by
  refine ⟨?_, ?_, fun f ho h1 h2 => ?_⟩
  · rw [Dev.proofWord, fget_fset_apart (by decide), fget_fset_same (by decide)]
    cases en <;> rfl
  · rw [Dev.proofWord, fget_fset_same (by decide)]
    exact Nat.mod_eq_of_lt hd
  · rw [Dev.proofWord, fget_fset_apart h2, fget_fset_apart h1, Dev.fld, ho]
    rfl

/-- A sort takes proof fields: it stores them in STOPPED at a depth it implements, and else rejects a change (R71). -/
theorem setProof_sort {d : Dev} {b en depth n : Nat} (hs : d.isGalley b = false) :
    d.setProof (n + 1) b en depth =
      if d.ust b ≠ .stopped ∨ bitOf (unitOf b).proofDepths depth = false then
        (if d.fld b Reg.CTRL.PROOF_EN = en ∧ d.fld b Reg.CTRL.PROOF_DEPTH = depth then d else d.ctrlReject b)
      else (d.setFld b Reg.CTRL.PROOF_EN en).setFld b Reg.CTRL.PROOF_DEPTH depth := by
  have hs' (f : Fld) (k : Nat) (e : Dev) (he : e.isGalley b = false) : (e.setFld b f k).isGalley b = false := he
  have hStored := hs' Reg.CTRL.PROOF_DEPTH depth _ (hs' Reg.CTRL.PROOF_EN en d hs)
  unfold Dev.setProof
  simp only [Dev.depthOk, hs, hStored, Bool.false_or, Bool.not_eq_true', Bool.false_eq_true, if_false]

/-- A write of CTRL whose ENABLE stands already, without RESET and DRAIN_REQ: the proof fields alone act, where the unit is not draining
after them. -/
theorem ctrlWrite_proof {d : Dev} {b : Nat} {w : Word} (hRoot : b ≠ rootBase) (hReset : fget w Reg.CTRL.RESET = 0)
    (hDrain : fget w Reg.CTRL.DRAIN_REQ = 0) {e : Dev}
    (he : d.setProof d.depth b (fget w Reg.CTRL.PROOF_EN) (fget w Reg.CTRL.PROOF_DEPTH) = e)
    (hEnable : e.fld b Reg.CTRL.ENABLE = fget w Reg.CTRL.ENABLE) (hUst : e.ust b ≠ .draining) : d.ctrlWrite b w = e := by
  unfold Dev.ctrlWrite
  rw [if_neg hRoot]
  simp only [hReset, hDrain, bne_self_eq_false, Bool.false_and, Bool.false_or, Bool.false_eq_true, if_false, he, Dev.flag, hEnable]
  cases hEn : (fget w Reg.CTRL.ENABLE != 0) <;> simp [hUst]

theorem ctrlBy_plain {d : Dev} {path b : Nat} {w : Word} (h1 : (unitOf b).blk ≠ .kryup) (h2 : (unitOf b).blk ≠ .monitor) :
    d.ctrlBy path b w = d.viaWord path (ctrlAddr b) w fun d => d.ctrlWrite b w := by
  unfold Dev.ctrlBy
  split
  · rename_i h; exact absurd h h1
  · rename_i h; exact absurd h h2
  · rfl

/-! ## A write of VERSION_SEL -/

/-- What the older layouts of a unit lack lies above its control registers. -/
theorem olderLayout_off {u : Machine.Unit} {major : Nat} {e : Nat × Option Nat} (h : e ∈ olderLayout u major) :
    0x2C ≤ e.1 ∧ u.blk ≠ .root := by
  unfold olderLayout at h
  split at h
  · simp at h
  · split at h <;> simp only [List.mem_cons, List.not_mem_nil, or_false] at h <;>
      rename_i hBlk <;> refine ⟨?_, by rw [hBlk]; decide⟩
    · rcases h with rfl | rfl | rfl <;> decide
    · rcases h with rfl | rfl <;> decide
    · subst h; decide
    · rcases h with rfl | rfl | rfl <;> decide
    · rcases h with rfl | rfl <;> decide
    · subst h; decide

theorem each_setReg_frame {α : Type} (l : List α) (a : α → Nat) (v : Dev → α → Word) (d : Dev) :
    OnlyParts [.regs] d (d.each l fun d x => d.setReg (a x) (v d x)) ∧
      ∀ r, (∀ x ∈ l, a x ≠ r) → (d.each l fun d x => d.setReg (a x) (v d x)).reg r = d.reg r := by
  induction l generalizing d with
  | nil => exact ⟨onlyParts_refl _ d, fun _ _ => rfl⟩
  | cons x xs ih =>
    obtain ⟨hParts, hRegs⟩ := ih (d.setReg (a x) (v d x))
    refine ⟨OnlyParts.trans (by simp) hParts, fun r hr => ?_⟩
    have hHead : r ≠ a x := (hr x List.mem_cons_self).symm
    refine (hRegs r fun y hy => hr y (List.mem_cons_of_mem x hy)).trans ?_
    rw [reg_setReg, if_neg hHead]

/-- What an older version lacks returns to reset, above the control registers. -/
theorem dropAbsent_frame (d : Dev) (b major : Nat) :
    OnlyParts [.regs] d (d.dropAbsent b major) ∧ (∀ o < 0x2C, (d.dropAbsent b major).reg (b + o) = d.reg (b + o)) ∧
      (d.dropAbsent b major).quiet = d.quiet := by
  obtain ⟨hParts, hRegs⟩ := each_setReg_frame (olderLayout (unitOf b) major) (fun e => b + e.1)
    (fun d e => (d.reg (b + e.1) &&& BitVec.ofNat 32 (e.2.getD 0)) ||| (resetValue (b + e.1) &&& ~~~BitVec.ofNat 32 (e.2.getD 0))) d
  have hStack : (d.dropAbsent b major).stack = d.stack := hParts .stack (by simp)
  refine ⟨hParts, fun o ho => hRegs _ fun e he => ?_, quiet_congr (hParts .kryup (by simp)) (hParts .clk (by simp))
    (hRegs _ fun e he => ?_) (by rw [hStack])⟩
  · have := (olderLayout_off he).1
    omega
  · exact (irq_ne_unit (olderLayout_off he).2 e.1).symm

/-- A version that is honoured (R78). -/
def Dev.presents (d : Dev) (b major m : Nat) : Dev :=
  ((((d.setFld b Reg.VERSION_SEL.SEL_MAJOR major).setFld b Reg.VERSION_SEL.SEL_MINOR m).setFld b
    Reg.UNIT_VER.MAJOR major).setFld b Reg.UNIT_VER.MINOR m).dropAbsent b major

theorem minorOf_lt {u : Machine.Unit} {major m : Nat} (h : u.minorOf major = some m) : m < 256 ∧ (u.blk = .root → m = 0) := by
  unfold Unit.minorOf at h
  split at h
  · cases h
    unfold Unit.native
    cases u.blk <;> simp
  · split at h
    · cases h
      simp
    · cases h

theorem presents_leaves (d : Dev) {b major m : Nat} (hMajor : major < 256) (h : (unitOf b).minorOf major = some m) :
    let e := d.presents b major m
    (e.fld b Reg.VERSION_SEL.SEL_MAJOR = major ∧ e.fld b Reg.VERSION_SEL.SEL_MINOR = m ∧ e.fld b Reg.UNIT_VER.MAJOR = major ∧
      e.fld b Reg.UNIT_VER.MINOR = m) ∧ OnlyParts [.regs] d e ∧ (d.quiet = true → e.quiet = true) := by
  obtain ⟨hm, hZero⟩ := minorOf_lt h
  obtain ⟨hParts, hRegs, hQuiet⟩ := dropAbsent_frame ((((d.setFld b Reg.VERSION_SEL.SEL_MAJOR major).setFld b
    Reg.VERSION_SEL.SEL_MINOR m).setFld b Reg.UNIT_VER.MAJOR major).setFld b Reg.UNIT_VER.MINOR m) b major
  have hFld (f : Fld) (ho : f.off < 0x2C) : (d.presents b major m).fld b f = ((((d.setFld b Reg.VERSION_SEL.SEL_MAJOR major).setFld b
      Reg.VERSION_SEL.SEL_MINOR m).setFld b Reg.UNIT_VER.MAJOR major).setFld b Reg.UNIT_VER.MINOR m).fld b f := by
    rw [Dev.fld, Dev.presents, hRegs _ ho, Dev.fld]
  refine ⟨⟨?_, ?_, ?_, ?_⟩, OnlyParts.trans (by simp) hParts, fun hq => ?_⟩
  · rw [hFld _ (by decide), fld_setFld_clear (by decide), fld_setFld_clear (by decide), fld_setFld_clear (by decide),
      fld_setFld_lt (by decide) hMajor]
  · rw [hFld _ (by decide), fld_setFld_clear (by decide), fld_setFld_clear (by decide), fld_setFld_lt (by decide) hm]
  · rw [hFld _ (by decide), fld_setFld_clear (by decide), fld_setFld_lt (by decide) hMajor]
  · rw [hFld _ (by decide), fld_setFld_lt (by decide) hm]
  · have hMinor (f : Fld) (e : Dev) (he : e.quiet = true) : (e.setFld b f m).quiet = true := by
      by_cases hRoot : (unitOf b).blk = .root
      · rw [hZero hRoot]
        exact quiet_setFld_zero he
      · rw [quiet_setFld _ _ _ _ (irq_ne_unit hRoot _)]
        exact he
    have hMajorQ (f : Fld) (hf : f.apart Reg.IRQ_CTRL.EVT_EN) (e : Dev) (he : e.quiet = true) : (e.setFld b f major).quiet = true := by
      rw [quiet_setFld_apart hf]
      exact he
    rw [show (d.presents b major m).quiet = _ from hQuiet]
    exact hMinor _ _ (hMajorQ _ (by decide) _ (hMinor _ _ (hMajorQ _ (by decide) _ hq)))

/-- Settles O12: a write of CTRL that changes proof fields alone comes down to `setProof`, and VERSION_SEL to `presents`; wherever the
registers lie, neither sets EVT_EN. -/
theorem proofAndVersionFieldsChangeAtRest : Obligations.ProofAndVersionFieldsChangeAtRest := by
  unfold Obligations.ProofAndVersionFieldsChangeAtRest
  constructor
  · intro s path b en depth hquiet hKryup hMonitor hRoot hSort hReach hReset hDrain
    have hq : s.dev.quiet = true := hquiet
    obtain ⟨hEn, hDepth, hKept⟩ := fget_proofWord s.dev b en depth.isLt
    have hWrite {e : Dev} (he : s.dev.setProof s.dev.depth b (bit01 en) depth = e)
        (hEnable : e.fld b Reg.CTRL.ENABLE = s.dev.fld b Reg.CTRL.ENABLE) (hUst : e.ust b ≠ .draining) :
        s.dev.ctrlWrite b (s.dev.proofWord b en depth) = e :=
      ctrlWrite_proof hRoot ((hKept _ rfl (by decide) (by decide)).trans hReset) ((hKept _ rfl (by decide) (by decide)).trans hDrain)
        (by rw [hEn, hDepth]; exact he) (hEnable.trans (hKept _ rfl (by decide) (by decide)).symm) hUst
    have hCompletes {e : Dev} {P : Dev → Prop} (he : s.dev.ctrlWrite b (s.dev.proofWord b en depth) = e) (hQuiet : e.quiet = true)
        (hP : P (e.finish path stOk 0)) : Completes (.proofSet path b en depth) s P := by
      refine completes_quiet (f := opProofSet path b en depth) rfl ?_ ?_
      · rw [opProofSet, ctrlBy_plain hKryup hMonitor, viaWord_reached hReach, quiet_finish]
        exact he ▸ hQuiet
      · rw [opProofSet, ctrlBy_plain hKryup hMonitor, viaWord_reached hReach]
        exact he ▸ hP
    have hProof := setProof_sort (n := s.dev.units.user.items.length + 3) (en := bit01 en) (depth := depth) hSort
    refine ⟨fun hStopped hImplements => ?_, fun hBad hNotDraining hChange => ?_⟩
    · rw [if_neg (by simp [hStopped, hImplements])] at hProof
      have hUst : ((s.dev.setFld b Reg.CTRL.PROOF_EN (bit01 en)).setFld b Reg.CTRL.PROOF_DEPTH depth).ust b = .stopped := by
        unfold Dev.ust
        rw [fld_setFld_clear (by decide), fld_setFld_clear (by decide)]
        exact hStopped
      have hEnable : ((s.dev.setFld b Reg.CTRL.PROOF_EN (bit01 en)).setFld b Reg.CTRL.PROOF_DEPTH depth).fld b Reg.CTRL.ENABLE =
          s.dev.fld b Reg.CTRL.ENABLE := by
        rw [fld_setFld_clear (by decide), fld_setFld_clear (by decide)]
      refine hCompletes (hWrite hProof hEnable (by rw [hUst]; decide)) ?_ ⟨?_, ?_, hEnable, finish_answered .., by simp, ?_⟩
      · rw [quiet_setFld_apart (by decide), quiet_setFld_apart (by decide)]
        exact hq
      · rw [fld_finish, fld_setFld_clear (by decide), fld_setFld_lt (by decide) (by cases en <;> decide)]
      · rw [fld_finish, fld_setFld_lt (by decide) depth.isLt]
      · simp [ctrlAddr, Reg.CTRL.PROOF_EN, Reg.CTRL.PROOF_DEPTH, Reg.CTRL.ENABLE]
    · rw [if_pos hBad, if_neg hChange] at hProof
      have hUst : (s.dev.ctrlReject b).ust b = s.dev.ust b := by
        unfold Dev.ust Dev.ctrlReject Dev.raise
        rw [fld_setFld_clear (by decide)]
      have hEnable : (s.dev.ctrlReject b).fld b Reg.CTRL.ENABLE = s.dev.fld b Reg.CTRL.ENABLE := by
        unfold Dev.ctrlReject Dev.raise
        rw [fld_setFld_clear (by decide)]
      refine hCompletes (hWrite hProof hEnable (by rw [hUst]; exact hNotDraining)) ?_ ⟨?_, finish_answered .., by simp, ?_⟩
      · rw [Dev.ctrlReject, Dev.raise, quiet_setFld_apart (by decide)]
        exact hq
      · rw [fld_finish, Dev.ctrlReject, fld_raise_same (by decide) (by decide)]
      · simp [Dev.ctrlReject]
  · intro s path b w hquiet hReach
    have hq : s.dev.quiet = true := hquiet
    refine ⟨fun m hMinor hLe hRest => ?_, fun hBarred => ?_⟩
    · have hMajor : fget w Reg.VERSION_SEL.SEL_MAJOR < 256 := bitsOf_lt _ _ _
      obtain ⟨⟨hSelMajor, hSelMinor, hVerMajor, hVerMinor⟩, hParts, hQuiet⟩ := presents_leaves s.dev hMajor hMinor
      have hOp : s.dev.versionWrite b w = s.dev.presents b (fget w Reg.VERSION_SEL.SEL_MAJOR) m := by
        unfold Dev.versionWrite
        simp only [hMinor, hRest, hLe, decide_true, Bool.and_self, if_true]
        rfl
      refine completes_viaWord (f := fun d => d.versionWrite b w) rfl hReach (by rw [hOp]; exact hQuiet hq) ?_
      rw [hOp]
      generalize s.dev.presents b (fget w Reg.VERSION_SEL.SEL_MAJOR) m = e at hSelMajor hSelMinor hVerMajor hVerMinor hParts
      simp only [fld_finish]
      exact ⟨hSelMajor, hSelMinor, hVerMajor, hVerMinor, finish_answered .., by simpa using hParts.mono (by simp)⟩
    · have hOp : s.dev.versionWrite b w = s.dev.raise b Reg.EVENT.VER_REJECT := by
        unfold Dev.versionWrite
        dsimp only
        split
        · rename_i m hMinor
          refine if_neg fun h => hBarred m hMinor ?_
          rw [Bool.and_eq_true, decide_eq_true_iff] at h
          exact h.symm
        · rfl
      refine completes_viaWord (f := fun d => d.versionWrite b w) rfl hReach ?_ ?_
      · rw [hOp, Dev.raise, quiet_setFld_apart (by decide)]
        exact hq
      · rw [hOp]
        exact ⟨by rw [fld_finish, fld_raise_same (by decide) (by decide)], finish_answered .., by simp, by simp⟩

end Sys2Proof.Machine

/-! # Changes of state of shells and galleys (R72, R79) -/

namespace Sys2Proof.Machine

set_option Elab.async false

/-! ## A unit whose galleys are hard -/

/-- A window base whose galley, if any, is a hard unit. -/
def Dev.HardAbove (d : Dev) (b : Nat) : Prop := b % 0x1000 = 0 ∧ ∀ p, d.parent b = some p → Hard p

theorem hardAbove_of_hard {d : Dev} {b : Nat} (h : Hard b) : d.HardAbove b := ⟨h.1, fun _ hp => parent_hard h hp⟩

/-- STATE as a change shows it. -/
def Dev.showsState (d : Dev) (b : Nat) : Dev := (d.setFld b Reg.STATE.STATE (d.aggregate b).code).raise b Reg.EVENT.STATE_CHANGE

theorem refresh_succ (d : Dev) (n b : Nat) :
    d.refresh (n + 1) b = if d.stateOf b = d.aggregate b then d
      else match d.parent b with
        | none => d.showsState b
        | some p => Dev.refresh n (d.showsState b) p := by
  have hParent : (d.showsState b).parent b = d.parent b := parent_congr rfl b
  rw [Dev.refresh]
  dsimp only
  rw [← hParent]
  rfl

theorem onlyStates_trans {l : List Nat} {c d e : Dev} (h1 : OnlyStates l c d) (h2 : OnlyStates l d e) : OnlyStates l c e :=
  fun a ha hs he => (h2 a ha hs he).trans (h1 a ha hs he)

theorem onlyStates_mono {l m : List Nat} {c d : Dev} (h : OnlyStates l c d) (hl : ∀ a ∈ l, a ∈ m) : OnlyStates m c d :=
  fun a ha => h a fun k => ha (hl a k)

theorem onlyStates_refl (l : List Nat) (d : Dev) : OnlyStates l d d := fun _ _ _ _ => rfl

/-- STATE and EVENT registers of units, and registers listed, may be written. -/
theorem onlyStates_setFld {l : List Nat} {d : Dev} {b n : Nat} {f : Fld} (hb : b % 0x1000 = 0)
    (hf : f.off = Reg.STATE.off ∨ f.off = Reg.EVENT.off ∨ b + f.off ∈ l) : OnlyStates l d (d.setFld b f n) := by
  intro a ha hs he
  rw [reg_setFld, if_neg]
  rintro rfl
  simp only [Reg.STATE.STATE, Reg.EVENT.FAULT, Reg.STATE.off, Reg.EVENT.off] at hs he hf
  rcases hf with hf | hf | hf
  · omega
  · omega
  · exact ha hf

theorem showsState_states {d : Dev} {b : Nat} (hb : b % 0x1000 = 0) : OnlyStates [] d (d.showsState b) :=
  onlyStates_trans (onlyStates_setFld hb (.inl rfl)) (onlyStates_setFld hb (.inr (.inl rfl)))

theorem self_showsState {d : Dev} {b : Nat} : (d.showsState b).fld b Reg.STATE.SELF = d.fld b Reg.STATE.SELF := by
  rw [Dev.showsState, Dev.raise, fld_setFld_clear (by decide), fld_setFld_clear (by decide)]

/-- Bringing STATE up to date writes STATE and EVENT registers of units alone, and leaves the unit's own sequencer. -/
theorem refresh_states {d : Dev} {b : Nat} (h : d.HardAbove b) (n : Nat) :
    OnlyStates [] d (d.refresh n b) ∧ (d.refresh n b).ust b = d.ust b := by
  cases n with
  | zero => exact ⟨onlyStates_refl _ _, rfl⟩
  | succ n =>
    have hSelf : (d.showsState b).ust b = d.ust b := by rw [Dev.ust, self_showsState, Dev.ust]
    rw [refresh_succ]
    split
    · exact ⟨onlyStates_refl _ _, rfl⟩
    · split
      · exact ⟨showsState_states h.1, hSelf⟩
      · rename_i p hp
        have hHard := h.2 p hp
        refine ⟨onlyStates_trans (showsState_states h.1) fun a _ hs he => reg_refresh n _ p hHard a hs he, ?_⟩
        rw [Dev.ust, self_refresh n _ p hHard b h.1, ← Dev.ust, hSelf]

/-- A change of a unit's state whose hook does nothing: its entry into the state, and then STATE and EVENT registers. -/
theorem setUst_states {d : Dev} {b : Nat} {u : UState} (h : d.HardAbove b) (hu : d.ust b ≠ u)
    (hk : ∀ e : Dev, e.units.user = d.units.user → e.stateHook b (d.ust b) u = e) :
    let e := (d.setFld b Reg.STATE.SELF u.code).entered b u
    (d.setUst b u).ust b = u ∧ OnlyParts [.regs] e (d.setUst b u) ∧ OnlyStates [] e (d.setUst b u) := by
  intro e
  have hUser : e.units.user = d.units.user := by
    show ((d.setFld b Reg.STATE.SELF u.code).entered b u).units.user = _
    cases u with
    | stopped =>
      unfold Dev.entered
      dsimp only
      split <;> rfl
    | _ => rfl
  have hAbove : e.HardAbove b := ⟨h.1, fun p hp => h.2 p (by rwa [parent_congr hUser] at hp)⟩
  obtain ⟨hStates, hUst⟩ := refresh_states hAbove d.depth
  rw [setUst_inert hu (hk _ hUser)]
  exact ⟨hUst.trans (ust_entered d b u), refresh_parts d.depth e b, hStates⟩

/-- Such a change leaves a quiet machine quiet. -/
theorem quiet_of_onlyStates {l : List Nat} {d e : Dev} (hp : OnlyParts [.regs, .units] d e) (hs : OnlyStates l d e)
    (hl : rootBase + Reg.IRQ_CTRL.off ∉ l) : e.quiet = d.quiet := by
  have hStack : e.stack = d.stack := hp .stack (by simp)
  exact quiet_congr (hp .kryup (by simp)) (hp .clk (by simp)) (hs _ hl (by decide) (by decide)) (by rw [hStack])

/-- RUNNING and DEGRADED are entered without any effect beside the state table. -/
theorem setUst_run {d : Dev} {b : Nat} {u : UState} (h : d.HardAbove b) (hu : d.ust b ≠ u) (hRun : u = .running ∨ u = .degraded)
    (hk : ∀ e : Dev, e.units.user = d.units.user → e.stateHook b (d.ust b) u = e) :
    (d.setUst b u).ust b = u ∧ OnlyParts [.regs] d (d.setUst b u) ∧ OnlyStates [] d (d.setUst b u) := by
  obtain ⟨hUst, hParts, hStates⟩ := setUst_states h hu hk
  rw [entered_run _ _ _ hRun] at hParts hStates
  exact ⟨hUst, OnlyParts.trans (by simp) hParts, onlyStates_trans (onlyStates_setFld h.1 (.inl rfl)) hStates⟩

/-- STOPPED is entered with DRAIN_REQ cleared, and with PROOF_EN cleared where a proof ends. -/
theorem setUst_stopped {d : Dev} {b : Nat} (h : d.HardAbove b) (hu : d.ust b ≠ .stopped)
    (hk : ∀ e : Dev, e.units.user = d.units.user → e.stateHook b (d.ust b) .stopped = e) :
    let e := d.setUst b .stopped
    e.ust b = .stopped ∧ e.fld b Reg.CTRL.DRAIN_REQ = 0 ∧ e.fld b Reg.CTRL.ENABLE = d.fld b Reg.CTRL.ENABLE ∧
      e.units.seq = d.units.seq ∧ OnlyParts [.regs, .units] d e ∧ OnlyStates [b + Reg.CTRL.off] d e := by
  intro e
  obtain ⟨hUst, hParts, hStates⟩ := setUst_states h hu hk
  obtain ⟨hReq, hEnable⟩ := entered_stopped (d.setFld b Reg.STATE.SELF UState.stopped.code) b
  have hFld (f : Fld) (ho : f.off = Reg.CTRL.off) :
      e.fld b f = ((d.setFld b Reg.STATE.SELF UState.stopped.code).entered b .stopped).fld b f := by
    rw [Dev.fld, ho, hStates _ (by simp) (by have := h.1; simp only [Reg.STATE.STATE, Reg.CTRL.off]; omega)
      (by have := h.1; simp only [Reg.EVENT.FAULT, Reg.CTRL.off]; omega), Dev.fld, ho]
  have hEntered : OnlyStates [b + Reg.CTRL.off] d ((d.setFld b Reg.STATE.SELF UState.stopped.code).entered b .stopped) := by
    refine onlyStates_trans (onlyStates_setFld h.1 (.inl rfl)) fun a ha _ _ => reg_entered _ _ _ a ?_
    rintro rfl
    exact ha (List.mem_singleton.mpr rfl)
  refine ⟨hUst, (hFld _ rfl).trans hReq, ?_, ?_, ?_, onlyStates_trans hEntered (onlyStates_mono hStates (by simp))⟩
  · rw [hFld _ rfl, hEnable, fld_setFld_clear (by decide)]
  · rw [show e.units = _ from hParts .units (by simp)]
    unfold Dev.entered
    dsimp only
    split <;> rfl
  · exact ((by simp : OnlyParts [.regs, .units] d (d.setFld b Reg.STATE.SELF UState.stopped.code)).trans (entered_parts _ _ _)).trans
      (hParts.mono (by simp))

/-- STOPPED entered from a discarded sequence leaves no more than its own entry. -/
theorem setUst_stopped_quiet {d : Dev} {b : Nat} {a : Nat} (hb : (unitOf b).blk ≠ .root) (hq : d.quiet = true) (ha : a = b + Reg.CTRL.off)
    {e : Dev} (hp : OnlyParts [.regs, .units] d e) (hs : OnlyStates [a] d e) : e.quiet = true := by
  rw [quiet_of_onlyStates hp hs, hq]
  rw [List.mem_singleton, ha]
  exact irq_ne_unit hb _

/-! ## O13: the fabric's signals to a shell -/

theorem unitOf_shellBase (die : Fin 2) (c : Fin 256) (k : Fin 2) :
    (unitOf (shellBase die c k)).blk = .shell ∧ shellBase die c k % 0x1000 = 0 := by
  revert die c k
  decide +kernel

/-- A shell's hook acts on a fence alone. -/
theorem stateHook_shell {e : Dev} {b : Nat} {old u : UState} (hb : (unitOf b).blk = .shell) (hu : u.fences = false) :
    e.stateHook b old u = e := by
  unfold Dev.stateHook Dev.proofHook proofOff
  simp [hb, hu]

/-- A shell directly under the forme. -/
structure ShellOfForme (d : Dev) (b : Nat) : Prop where
  aligned : b % 0x1000 = 0
  shell : (unitOf b).blk = .shell
  parent : d.parent b = some formeBase

theorem ShellOfForme.hardAbove {d : Dev} {b : Nat} (h : ShellOfForme d b) : d.HardAbove b := by
  refine ⟨h.aligned, fun p hp => ?_⟩
  rw [h.parent, Option.some.injEq] at hp
  subst hp
  exact ⟨rfl, by decide⟩

theorem ShellOfForme.congr {d e : Dev} {b : Nat} (h : ShellOfForme d b) (he : e.units.user = d.units.user) : ShellOfForme e b :=
  ⟨h.aligned, h.shell, (parent_congr he b).trans h.parent⟩

section
variable {d : Dev} {b : Nat} (hs : ShellOfForme d b)
include hs

theorem ShellOfForme.notRoot : (unitOf b).blk ≠ .root := by
  rw [hs.shell]
  decide

theorem ShellOfForme.run {u : UState} (hu : d.ust b ≠ u) (hRun : u = .running ∨ u = .degraded) :
    (d.setUst b u).ust b = u ∧ OnlyParts [.regs] d (d.setUst b u) ∧ OnlyStates [] d (d.setUst b u) :=
  setUst_run hs.hardAbove hu hRun fun _ _ => stateHook_shell hs.shell (by rcases hRun with rfl | rfl <;> rfl)

/-- U_READY in a shell that starts. -/
theorem ShellOfForme.ready (hu : d.ust b = .starting) :
    (d.ready b).ust b = (if d.units.loss.mem b then .degraded else .running) ∧ OnlyParts [.regs] d (d.ready b) ∧
      OnlyStates [] d (d.ready b) := by
  rw [Dev.ready, if_pos hu]
  refine hs.run ?_ ?_
  · rw [hu]
    split <;> decide
  · split
    · exact .inr rfl
    · exact .inl rfl

/-- U_EMPTY in a shell that drains. -/
theorem ShellOfForme.empty (hu : d.ust b = .draining) :
    (d.empty b).ust b = .stopped ∧ (d.empty b).fld b Reg.CTRL.DRAIN_REQ = 0 ∧ OnlyParts [.regs, .units] d (d.empty b) ∧
      OnlyStates [ctrlAddr b] d (d.empty b) := by
  have hCancel : ShellOfForme (d.cancelSeq b) b := hs.congr rfl
  have hUst : (d.cancelSeq b).ust b = .draining := hu
  rw [Dev.empty, if_pos hu]
  obtain ⟨hStopped, hReq, _, _, hParts, hStates⟩ :=
    setUst_stopped hCancel.hardAbove (by rw [hUst]; decide) fun _ _ => stateHook_shell hs.shell rfl
  exact ⟨hStopped, hReq, OnlyParts.trans (by simp [Dev.cancelSeq]) hParts, hStates⟩

/-- U_LOSS in a shell that runs. -/
theorem ShellOfForme.lose (hu : d.ust b = .running) :
    (d.lose b).ust b = .degraded ∧ (d.lose b).units.loss.mem b = true ∧ OnlyParts [.regs, .units] d (d.lose b) ∧
      OnlyStates [] d (d.lose b) := by
  have hLoss : ShellOfForme (d.modUnits fun r => { r with loss := r.loss.setNum b 1 }) b := hs.congr rfl
  have hUst : (d.modUnits fun r => { r with loss := r.loss.setNum b 1 }).ust b = .running := hu
  rw [Dev.lose, if_pos hUst]
  obtain ⟨hDegraded, hParts, hStates⟩ := hLoss.run (u := .degraded) (by rw [hUst]; decide) (.inr rfl)
  refine ⟨hDegraded, ?_, OnlyParts.trans (by simp) (hParts.mono (by simp)), hStates⟩
  rw [hParts .units (by simp)]
  simp [SMap.mem, SMap.num_setNum]

end

/-- FAULT bits added leave the unit's state and show in FAULT and EVENT. -/
theorem faultBits_leaves {d : Dev} {b mask : Nat} :
    (d.faultBits b mask).reg (b + Reg.FAULT.START_FAIL.off) = d.reg (b + Reg.FAULT.START_FAIL.off) ||| BitVec.ofNat 32 mask ∧
      (d.faultBits b mask).fld b Reg.EVENT.FAULT = 1 ∧ (d.faultBits b mask).ust b = d.ust b := by
  refine ⟨?_, ?_, ?_⟩
  · rw [Dev.faultBits, reg_raise, if_neg (by simp [Reg.FAULT.START_FAIL, Reg.EVENT.FAULT]), reg_setReg, if_pos rfl]
  · rw [Dev.faultBits, fld_raise_same (by decide) (by decide)]
  · have hSelf (v : Word) : (d.setReg (b + Reg.FAULT.START_FAIL.off) v).fld b Reg.STATE.SELF = d.fld b Reg.STATE.SELF := by
      rw [Dev.fld, reg_setReg, if_neg (by simp [Reg.FAULT.START_FAIL, Reg.STATE.SELF]), Dev.fld]
    rw [Dev.ust, Dev.faultBits, Dev.raise, fld_setFld_clear (by decide), hSelf, Dev.ust]

section
variable {s : State} {b : Nat} (hs : ShellOfForme s.dev b) (hq : s.dev.quiet = true) (hUser : s.dev.isUser b = true)
include hs hq hUser

theorem uReady_completes (hSort : s.dev.isGalley b = false) (hStarting : s.dev.ust b = .starting) (hRel : (s.dev.user b).rel = .released) :
    Completes (.uReady b) s fun e =>
      e.ust b = (if s.dev.units.loss.mem b then .degraded else .running) ∧ OnlyParts [.regs] s.dev e ∧ OnlyStates [] s.dev e := by
  have hOp : opUReady b s.dev = s.dev.ready b := by
    rw [opUReady, if_pos (by rw [hUser, hSort]; rfl), hRel]
  obtain ⟨hUst, hParts, hStates⟩ := hs.ready hStarting
  refine completes_quiet (f := opUReady b) rfl ?_ ?_
  · rw [hOp, quiet_of_onlyStates (hParts.mono (by simp)) hStates (by simp), hq]
  · rw [hOp]
    exact ⟨hUst, hParts, hStates⟩

theorem uEmpty_completes (hSort : s.dev.isGalley b = false) (hDraining : s.dev.ust b = .draining) :
    Completes (.uEmpty b) s fun e =>
      e.ust b = .stopped ∧ e.fld b Reg.CTRL.DRAIN_REQ = 0 ∧ OnlyParts [.regs, .units] s.dev e ∧ OnlyStates [ctrlAddr b] s.dev e := by
  have hOp : opUEmpty b s.dev = s.dev.empty b := by
    rw [opUEmpty, if_pos (by rw [hUser, hSort]; rfl)]
  obtain ⟨hUst, hReq, hParts, hStates⟩ := hs.empty hDraining
  refine completes_quiet (f := opUEmpty b) rfl ?_ ?_
  · rw [hOp]
    exact setUst_stopped_quiet hs.notRoot hq rfl hParts hStates
  · rw [hOp]
    exact ⟨hUst, hReq, hParts, hStates⟩

theorem uLoss_completes (hRunning : s.dev.ust b = .running) :
    Completes (.uLoss b true) s fun e =>
      e.ust b = .degraded ∧ e.units.loss.mem b = true ∧ OnlyParts [.regs, .units] s.dev e ∧ OnlyStates [] s.dev e := by
  have hOp : opULoss b true s.dev = s.dev.lose b := by
    rw [opULoss, if_pos hUser, if_pos rfl]
  obtain ⟨hUst, hLoss, hParts, hStates⟩ := hs.lose hRunning
  refine completes_quiet (f := opULoss b true) rfl ?_ ?_
  · rw [hOp, quiet_of_onlyStates hParts hStates (by simp), hq]
  · rw [hOp]
    exact ⟨hUst, hLoss, hParts, hStates⟩

theorem uEvent_completes (bits : BitVec 7) :
    Completes (.uEvent b bits) s fun e =>
      e.reg (b + Reg.EVENT.FAULT.off) = s.dev.reg (b + Reg.EVENT.FAULT.off) ||| BitVec.ofNat 32 (bits.toNat * 2 ^ 9) ∧
      OnlyParts [.regs] s.dev e ∧ OnlyRegs [b + Reg.EVENT.FAULT.off] s.dev e := by
  have hOp : opUEvent b bits s.dev = s.dev.eventBits b (bits.toNat * 2 ^ 9) := by
    rw [opUEvent, if_pos hUser]
  refine completes_quiet (f := opUEvent b bits) rfl ?_ ?_
  · rw [hOp, quiet_eventBits _ _ _ (irq_ne_unit hs.notRoot _), hq]
  · rw [hOp]
    exact ⟨by rw [Dev.eventBits, reg_setReg, if_pos rfl], by simp, by simp [Dev.eventBits]⟩

theorem uFault_completes {bits : BitVec 8} (hBits : bits ≠ 0) (hHigh : bits.toNat % 16 = 0) (hOff : s.dev.ust b ≠ .off) :
    Completes (.uFault b bits) s fun e =>
      e.reg (b + Reg.FAULT.START_FAIL.off) = s.dev.reg (b + Reg.FAULT.START_FAIL.off) ||| BitVec.ofNat 32 (bits.toNat * 2 ^ 8) ∧
      e.fld b Reg.EVENT.FAULT = 1 ∧ e.ust b = s.dev.ust b ∧ OnlyParts [.regs] s.dev e ∧
      OnlyRegs [b + Reg.FAULT.START_FAIL.off, b + Reg.EVENT.FAULT.off] s.dev e := by
  have hOp : opUFault b bits s.dev = s.dev.faultBits b (bits.toNat * 2 ^ 8) := by
    rw [opUFault, if_pos (by rw [hUser, bne_iff_ne.mpr hBits]; rfl), if_pos hHigh, if_neg hOff]
  obtain ⟨hFault, hEvent, hUst⟩ := faultBits_leaves (d := s.dev) (b := b) (mask := bits.toNat * 2 ^ 8)
  have hIrq := irq_ne_unit hs.notRoot
  refine completes_quiet (f := opUFault b bits) rfl ?_ ?_
  · rw [hOp, Dev.faultBits, quiet_raise _ _ _ (hIrq _), quiet_setReg _ _ _ (hIrq _), hq]
  · rw [hOp]
    exact ⟨hFault, hEvent, hUst, by simp, by simp [Dev.faultBits]⟩

end

/-- Settles O13: a shell under the forme has hard units alone above it and a hook that acts on fences alone, so each signal comes down to its
change of state. -/
theorem shellTakesTheFabricSignals : Obligations.ShellTakesTheFabricSignals := by
  unfold Obligations.ShellTakesTheFabricSignals
  intro s die c k hquiet b hUser hSort hParent
  have hq : s.dev.quiet = true := hquiet
  obtain ⟨hBlk, hAligned⟩ := unitOf_shellBase die c k
  have hs : ShellOfForme s.dev b := ⟨hAligned, hBlk, hParent⟩
  clear_value b
  exact ⟨uReady_completes hs hq hUser hSort, uEmpty_completes hs hq hUser hSort, uLoss_completes hs hq hUser,
    uEvent_completes hs hq hUser, fun _ => uFault_completes hs hq hUser⟩

/-! ## O11: the end of a galley's sequence -/

/-- Galleys of these kinds have no hook. -/
theorem plainGalley_hard {b : Nat} (hb : b ∈ plainGalleys) :
    Hard b ∧ (unitOf b).blk ≠ .root ∧ ∀ (e : Dev) (old u : UState), e.stateHook b old u = e := by
  have hKind : ∀ b ∈ plainGalleys, b % 0x1000 = 0 ∧
      (unitOf b).blk ∈ [Blk.clkgen, .power, .pins, .serialGalley, .stGalley, .memsys, .layer, .laneGroup] := by decide +kernel
  obtain ⟨hAligned, hBlk⟩ := hKind b hb
  have hNone : (unitOf b).blk ≠ .shell ∧ (unitOf b).blk ≠ .root ∧ proofOff b = none := by
    unfold proofOff
    simp only [List.mem_cons, List.not_mem_nil, or_false] at hBlk
    rcases hBlk with h | h | h | h | h | h | h | h <;> simp [h]
  refine ⟨⟨hAligned, hNone.1⟩, hNone.2.1, fun e old u => ?_⟩
  unfold Dev.stateHook Dev.proofHook
  rw [hNone.2.2]
  simp only [List.mem_cons, List.not_mem_nil, or_false] at hBlk
  rcases hBlk with h | h | h | h | h | h | h | h <;> simp [h]

/-- A child of a step that ends a start: one that is FAULTED and not privileged. -/
def Dev.endsStart (d : Dev) (c : Nat) : Bool := decide (d.stateOf c = .faulted) && !(unitOf c).isPrivileged

section
variable {d : Dev} {b : Nat} {q : GSeq} (hSeq : d.units.seq.look b = some q)
include hSeq

theorem advance_started (hb : b ∈ plainGalleys) (hDir : q.drain = false) (hDone : ((d.steps b).getD q.step []).all (d.childDone false) = true)
    (hGood : ((d.steps b).getD q.step []).any d.endsStart = false) (hLast : (d.steps b).length ≤ q.step + 1) :
    d.advance b = (d.cancelSeq b).ready b := by
  obtain ⟨hHard, _, _⟩ := plainGalley_hard hb
  have hAny : (((d.steps b).getD q.step []).any fun c => decide (d.stateOf c = .faulted) && !(unitOf c).isPrivileged) = false := hGood
  unfold Dev.advance
  simp only [hSeq, hDir, hDone, hAny, Nat.not_lt.mpr hLast, hHard.2, decide_false, Bool.not_true, Bool.false_and, Bool.false_eq_true, if_false]

theorem advance_failed (hDir : q.drain = false) (hDone : ((d.steps b).getD q.step []).all (d.childDone false) = true)
    (hBad : ((d.steps b).getD q.step []).any d.endsStart = true) :
    d.advance b = ((d.cancelSeq b).setFld b Reg.CTRL.ENABLE 0).setUst b .stopped := by
  have hAny : (((d.steps b).getD q.step []).any fun c => decide (d.stateOf c = .faulted) && !(unitOf c).isPrivileged) = true := hBad
  unfold Dev.advance
  simp only [hSeq, hDir, hDone, hAny, Bool.not_true, Bool.false_eq_true, if_false, if_true]

theorem advance_drained (hDir : q.drain = true) (hStep : q.step = 0) (hDone : ((d.steps b).getD q.step []).all (d.childDone true) = true)
    (hAll : ((d.children b).all fun c => d.childDone true c.2) = true) : d.advance b = d.empty b := by
  unfold Dev.advance
  rw [hStep] at hDone
  simp only [hSeq, hDir, hDone, hAll, hStep, Bool.not_true, Bool.false_eq_true, if_false, if_true]

end

theorem cancelSeq_ended (d : Dev) (b : Nat) : (d.cancelSeq b).units.seq.look b = none := by
  simp [Dev.cancelSeq]

section
variable {s : State} {b : Nat} (hb : b ∈ plainGalleys) (hq : s.dev.quiet = true)
include hb

/-- The last step of a start without a fault: the galley runs. -/
theorem galley_runs {d : Dev} (hStarting : d.ust b = .starting) :
    let e := (d.cancelSeq b).ready b
    e.ust b = (if d.units.loss.mem b then .degraded else .running) ∧ e.units.seq.look b = none ∧
      OnlyParts [.regs, .units] d e ∧ OnlyStates [] d e := by
  obtain ⟨hHard, _, hHook⟩ := plainGalley_hard hb
  have hUst : (d.cancelSeq b).ust b = .starting := hStarting
  have hLoss : (d.cancelSeq b).units.loss = d.units.loss := rfl
  rw [Dev.ready, if_pos hUst, hLoss]
  have hTo : (if d.units.loss.mem b then UState.degraded else .running) = .running ∨
      (if d.units.loss.mem b then UState.degraded else .running) = .degraded := by
    split
    · exact .inr rfl
    · exact .inl rfl
  generalize (if d.units.loss.mem b then UState.degraded else .running) = u at hTo
  obtain ⟨hRun, hParts, hStates⟩ := setUst_run (d := d.cancelSeq b) (hardAbove_of_hard hHard)
    (by rw [hUst]; rcases hTo with rfl | rfl <;> decide) hTo fun _ _ => hHook _ _ _
  refine ⟨hRun, ?_, OnlyParts.trans (by simp [Dev.cancelSeq]) (hParts.mono (by simp)), hStates⟩
  rw [hParts .units (by simp)]
  exact cancelSeq_ended d b

/-- A galley whose sequence is over is STOPPED. -/
theorem galley_stops {d e : Dev} (hUst : e.ust b ≠ .stopped) (hSeq : e.units.seq.look b = none) (hParts : OnlyParts [.regs, .units] d e)
    (hStates : OnlyStates [ctrlAddr b] d e) :
    let f := e.setUst b .stopped
    f.ust b = .stopped ∧ f.fld b Reg.CTRL.DRAIN_REQ = 0 ∧ f.fld b Reg.CTRL.ENABLE = e.fld b Reg.CTRL.ENABLE ∧
      f.units.seq.look b = none ∧ OnlyParts [.regs, .units] d f ∧ OnlyStates [ctrlAddr b] d f := by
  obtain ⟨hHard, _, hHook⟩ := plainGalley_hard hb
  obtain ⟨hStopped, hReq, hEnable, hKept, hP, hS⟩ := setUst_stopped (hardAbove_of_hard hHard) hUst fun _ _ => hHook _ _ _
  exact ⟨hStopped, hReq, hEnable, by rw [hKept, hSeq], hParts.trans hP, onlyStates_trans hStates hS⟩

include hq

theorem galleyStepAdvance_completes {P : Dev → Prop} {e : Dev} (hOn : s.dev.domainOn 1 = true) (he : s.dev.advance b = e)
    (hParts : OnlyParts [.regs, .units] s.dev e) (hStates : OnlyStates [ctrlAddr b] s.dev e) (hP : P e) :
    Completes (.galleyStepAdvance b) s P := by
  have hOp : opGalleyStepAdvance b s.dev = e := by rw [opGalleyStepAdvance, if_pos hOn, he]
  refine completes_quiet (f := opGalleyStepAdvance b) rfl ?_ (hOp ▸ hP)
  rw [hOp]
  exact setUst_stopped_quiet (plainGalley_hard hb).2.1 hq rfl hParts hStates

end

/-- Settles O11: where every child of the last step is done, `advance` ends the sequence in RUNNING, or in STOPPED by a fault or a drain. -/
theorem galleySequenceEnds : Obligations.GalleySequenceEnds := by
  unfold Obligations.GalleySequenceEnds
  intro s b q hquiet hb hOn hSeq step bad
  have hq : s.dev.quiet = true := hquiet
  refine ⟨fun hDir hDone hStarting => ⟨fun hGood hLast => ?_, fun hBad => ?_⟩, fun hDir hStep hDone hAll hDraining => ?_⟩
  · obtain ⟨hUst, hOver, hParts, hStates⟩ := galley_runs hb hStarting
    exact galleyStepAdvance_completes hb hq hOn (advance_started hSeq hb hDir hDone hGood hLast) hParts
      (onlyStates_mono hStates (by simp)) ⟨hUst, hOver, hParts, hStates⟩
  · have hUst : ((s.dev.cancelSeq b).setFld b Reg.CTRL.ENABLE 0).ust b ≠ .stopped := by
      have hKept : ((s.dev.cancelSeq b).setFld b Reg.CTRL.ENABLE 0).ust b = .starting := by
        rw [Dev.ust, fld_setFld_clear (by decide)]
        exact hStarting
      rw [hKept]
      decide
    obtain ⟨hStopped, _, hEnable, hOver, hParts, hStates⟩ := galley_stops hb hUst (cancelSeq_ended s.dev b)
      (d := s.dev) (by simp [Dev.cancelSeq]) (onlyStates_setFld (plainGalley_hard hb).1.1 (.inr (.inr (by simp [ctrlAddr]))))
    refine galleyStepAdvance_completes hb hq hOn (advance_failed hSeq hDir hDone hBad) hParts hStates
      ⟨hStopped, ?_, hOver, hParts, hStates⟩
    rw [hEnable, fld_setFld_lt (by decide) (by decide)]
  · have hUst : (s.dev.cancelSeq b).ust b ≠ .stopped := by
      have hKept : (s.dev.cancelSeq b).ust b = .draining := hDraining
      rw [hKept]
      decide
    obtain ⟨hStopped, hReq, _, hOver, hParts, hStates⟩ := galley_stops hb hUst (cancelSeq_ended s.dev b) (d := s.dev)
      (by simp [Dev.cancelSeq]) fun _ _ _ _ => rfl
    have hAdvance : s.dev.advance b = (s.dev.cancelSeq b).setUst b .stopped := by
      rw [advance_drained hSeq hDir hStep hDone hAll, Dev.empty, if_pos hDraining]
    exact galleyStepAdvance_completes hb hq hOn hAdvance hParts hStates ⟨hStopped, hReq, hOver, hParts, hStates⟩

end Sys2Proof.Machine

/-! # Modes and the PMBus (R419 to R423, R429, R430) -/

namespace Sys2Proof.Machine

set_option Elab.async false

/-! ## The parts of a request -/

/-- MODE and CHANGING. -/
def Dev.modeStatus (d : Dev) : Nat × Nat := (d.fld powerBase Reg.MODE_STATUS.MODE, d.fld powerBase Reg.MODE_STATUS.CHANGING)

/-- A request is refused with a code, and the mode stands. -/
def ModeRefused (d : Dev) (code : Nat) (e : Dev) : Prop :=
  e.modeStatus = (d.mode, 0) ∧ e.fld powerBase Reg.MODE_STATUS.REFUSE = code ∧ e.fld powerBase Reg.MODE_EVENT.REFUSED = 1 ∧
    OnlyParts [.regs, .ctl, .power] d e

theorem ModeRefused.finish {d e : Dev} {code path st : Nat} {w : Word} (h : ModeRefused d code e) : ModeRefused d code (e.finish path st w) := by
  obtain ⟨hStatus, hCode, hEvent, hParts⟩ := h
  refine ⟨hStatus, ?_, ?_, by simpa using hParts⟩
  · rw [fld_finish, hCode]
  · rw [fld_finish, hEvent]

theorem modeRefuse_refused {c d : Dev} {code : Nat} (hCode : code < 16) (hStatus : d.modeStatus = (c.mode, 0))
    (hParts : OnlyParts [.regs, .ctl, .power] c d) : ModeRefused c code (d.modeRefuse code) := by
  refine ⟨?_, ?_, ?_, by simpa [Dev.modeRefuse] using hParts⟩
  · rw [← hStatus]
    simp (disch := decide) only [Dev.modeStatus, Dev.modeRefuse, Dev.raise, fld_setFld_clear]
  · rw [Dev.modeRefuse, Dev.raise, fld_setFld_clear (by decide), fld_setFld_lt (by decide) hCode]
  · rw [Dev.modeRefuse, fld_raise_same (by decide) (by decide)]

theorem modeBack_refused {c d : Dev} {code : Nat} (hCode : code < 16) (hMode : d.mode = c.mode)
    (hParts : OnlyParts [.regs, .ctl, .power] c d) : ModeRefused c code (d.modeBack code) := by
  refine modeRefuse_refused hCode ?_ (by simpa using hParts)
  rw [Dev.modeStatus, fld_setFld_clear (by decide), fld_setFld_lt (by decide) (by decide), fld_modPower, ← hMode, Dev.mode]

theorem modeBack_power (d : Dev) (code : Nat) : (d.modeBack code).power = { d.power with stage := 0 } := rfl

theorem quiet_modeBack (d : Dev) (code : Nat) : (d.modeBack code).quiet = d.quiet := by
  rw [Dev.modeBack, Dev.modeRefuse, quiet_raise _ _ _ (by decide), quiet_setFld _ _ _ _ (by decide), quiet_setFld _ _ _ _ (by decide),
    quiet_modPower]

/-- The voltages that the modes have follow VSET alone. -/
theorem vset_congr {d e : Dev} (hA : e.reg (powerBase + Reg.VSET_A.off) = d.reg (powerBase + Reg.VSET_A.off))
    (hB : e.reg (powerBase + Reg.VSET_B.off) = d.reg (powerBase + Reg.VSET_B.off)) (m : Nat) : e.vset m = d.vset m := by
  have hFld (f : Fld) (hf : f.off = Reg.VSET_A.off ∨ f.off = Reg.VSET_B.off) : e.fld powerBase f = d.fld powerBase f := by
    rcases hf with hf | hf <;> rw [Dev.fld, Dev.fld, hf]
    · rw [hA]
    · rw [hB]
  unfold Dev.vset
  dsimp only
  split_ifs <;> simp (disch := decide) only [Option.map, hFld]

theorem vset_setFld {d : Dev} {b n : Nat} {f : Fld} (h : b = powerBase) (hA : f.off ≠ Reg.VSET_A.off) (hB : f.off ≠ Reg.VSET_B.off) (m : Nat) :
    (d.setFld b f n).vset m = d.vset m :=
  vset_congr (by rw [reg_setFld, if_neg (by omega)]) (by rw [reg_setFld, if_neg (by omega)]) m

/-- A write of MODE_REQ bears on no condition of R419. -/
theorem modeBar_setFld_req (d : Dev) (n t : Nat) : (d.setFld powerBase Reg.MODE_REQ.TARGET n).modeBar t = d.modeBar t := by
  generalize he : d.setFld powerBase Reg.MODE_REQ.TARGET n = e
  have hSame (f : Fld) (hf : Reg.MODE_REQ.TARGET.clear f) : e.fld powerBase f = d.fld powerBase f := he ▸ fld_setFld_clear hf
  have hOther (b : Nat) (f : Fld) (hf : b + f.off ≠ powerBase + Reg.MODE_REQ.TARGET.off) : e.fld b f = d.fld b f :=
    he ▸ fld_setFld_other hf
  have hMode : e.mode = d.mode := hSame _ (by decide)
  have hState : e.stateOf formeBase = d.stateOf formeBase := congrArg UState.ofCode (hOther _ _ (by decide))
  have hFlag (f : Fld) (hf : Reg.MODE_REQ.TARGET.clear f) : e.flag powerBase f = d.flag powerBase f := congrArg (· != 0) (hSame f hf)
  have hSource : e.flag strikeBase Reg.STK_SRC.B_VALID = d.flag strikeBase Reg.STK_SRC.B_VALID := congrArg (· != 0) (hOther _ _ (by decide))
  have hLoad : e.load = d.load := by rw [← he, setFld_load]
  have hPower : e.power = d.power := by rw [← he, setFld_power]
  have hPlates : e.plates = d.plates := by rw [← he, setFld_plates]
  have hUser (b : Nat) : e.user b = d.user b := by rw [← he]; rfl
  have hFast : e.fastFabric = d.fastFabric := by
    have hClk : e.clk = d.clk := by rw [← he, setFld_clk]
    have hKHz : e.fabricKHz = d.fabricKHz := by
      unfold Dev.fabricKHz
      rw [hOther _ _ (by decide), hClk]
    rw [Dev.fastFabric, hKHz, Dev.fastFabric]
  have hQuiet : e.formeQuiet = d.formeQuiet := by rw [Dev.formeQuiet, hLoad, hUser, hState, Dev.formeQuiet]
  unfold Dev.modeBar Dev.changing
  rw [hMode, hQuiet, hFast, hLoad, hPower, hPlates, hSource]
  simp only [hFlag Reg.PWR_CFG.WAKE_TICK_EN (by decide), hFlag Reg.PWR_CFG.WAKE_SPI_EN (by decide), hFlag Reg.PWR_CFG.WAKE_N_EN (by decide),
    hFlag Reg.PWR_CFG.SURGE_EN (by decide)]

/-- What the voltage of VCC_FAB follows is as it was. -/
structure SameRail (d e : Dev) : Prop where
  mode : e.mode = d.mode
  vset : ∀ m, e.vset m = d.vset m
  vfab : e.vfab = d.vfab
  enabled : e.flag powerBase Reg.PMB_CFG.EN = d.flag powerBase Reg.PMB_CFG.EN
  proving : e.proving (serialBase 2) = d.proving (serialBase 2)

theorem SameRail.trans {c d e : Dev} (h1 : SameRail c d) (h2 : SameRail d e) : SameRail c e :=
  ⟨h2.mode.trans h1.mode, fun m => (h2.vset m).trans (h1.vset m), h2.vfab.trans h1.vfab, h2.enabled.trans h1.enabled,
    h2.proving.trans h1.proving⟩

/-- The registers of VSET. -/
def vsetOffs : List Nat := [Reg.VSET_A.off, Reg.VSET_B.off]

theorem sameRail_setFld {d : Dev} {f : Fld} {n : Nat} (hVset : f.off ∉ vsetOffs) (hMode : f.clear Reg.MODE_STATUS.MODE)
    (hEn : f.clear Reg.PMB_CFG.EN) (hOff : f.off < 0x1000) : SameRail d (d.setFld powerBase f n) := by
  have hA : f.off ≠ Reg.VSET_A.off := fun h => hVset (h ▸ by decide)
  have hB : f.off ≠ Reg.VSET_B.off := fun h => hVset (h ▸ by decide)
  have hModeEq : (d.setFld powerBase f n).mode = d.mode := fld_setFld_clear hMode
  have hV := vset_setFld (d := d) (b := powerBase) (n := n) (f := f) rfl hA hB
  refine ⟨hModeEq, hV, ?_, ?_, ?_⟩
  · rw [Dev.vfab, hModeEq, hV, setFld_power, Dev.vfab]
  · rw [Dev.flag, fld_setFld_clear hEn, Dev.flag]
  · have hApart (o : Nat) (ho : o < 0x1000) : serialBase 2 + o ≠ powerBase + f.off := by
      simp only [serialBase, powerBase]
      omega
    rw [Dev.setFld, proving_setReg (hApart _ (by decide)) (hApart _ (by decide))]

/-- A transition goes on to a step. -/
def Dev.atStage (d : Dev) (k : Nat) : Dev := d.modPower fun p => { p with stage := k }

theorem sameRail_atStage (d : Dev) (k : Nat) : SameRail d (d.atStage k) :=
  ⟨rfl, fun _ => rfl, rfl, rfl, rfl⟩

/-! ## The steps of a transition toward ROLL -/

theorem atStage_atStage (d : Dev) (j k : Nat) : (d.atStage j).atStage k = d.atStage k := rfl

section
variable {d : Dev} (n : Nat) (hTarget : d.modeTarget = modeRoll) (hOpens : d.opens = false)
include hTarget

theorem modeStep_voltage (hStage : d.power.stage = 1) (hReq : d.power.voutReq = none) : d.modeStep (n + 1) = (d.atStage 2).modeStep n := by
  rw [Dev.modeStep]
  simp only [hStage, hReq, hTarget]
  rfl

include hOpens

theorem modeStep_forme (hStage : d.power.stage = 2) : d.modeStep (n + 1) = (d.atStage 3).modeStep n := by
  rw [Dev.modeStep]
  simp only [hStage, hTarget, hOpens]
  rfl

omit hTarget in
theorem modeStep_groups (hStage : d.power.stage = 3) : d.modeStep (n + 1) = (d.atStage 4).modeStep n := by
  rw [Dev.modeStep]
  simp only [hStage, hOpens, Bool.false_eq_true, if_false, Bool.false_and]
  rfl

omit hTarget hOpens in
theorem modeStep_edge (hStage : d.power.stage = 4) : d.modeStep (n + 1) = d := by
  rw [Dev.modeStep]
  simp only [hStage]

omit hTarget hOpens in
/-- A transition waits for a voltage that it has asked for. -/
theorem modeStep_waits {mv : Nat} (hStage : d.power.stage = 1) (hReq : d.power.voutReq = some { mv := mv, why := .before }) :
    d.modeStep (n + 1) = d := by
  rw [Dev.modeStep]
  simp only [hStage, hReq]

/-- A transition toward ROLL that does not start in IDLE has nothing to wind up, and no logic of the forme to open. -/
theorem modeStep_roll (hStage : d.power.stage = 1) (hReq : d.power.voutReq = none) : d.modeStep modeSteps = d.atStage 4 := by
  calc d.modeStep modeSteps = (d.atStage 2).modeStep 4 := modeStep_voltage 4 hTarget hStage hReq
    _ = (d.atStage 3).modeStep 3 := modeStep_forme (d := d.atStage 2) 3 hTarget hOpens rfl
    _ = (d.atStage 4).modeStep 2 := modeStep_groups (d := d.atStage 3) 2 hOpens rfl
    _ = d.atStage 4 := modeStep_edge (d := d.atStage 4) 1 rfl

end

theorem opens_of_mode {d : Dev} (h : d.mode ≠ modeIdle) : d.opens = false := by
  rw [Dev.opens, beq_eq_false_iff_ne.mpr h, Bool.false_and]

/-! ## Requests -/

/-- The request as MODE_REQ shows it. -/
def Dev.requested (d : Dev) (t : Nat) : Dev := d.setFld powerBase Reg.MODE_REQ.TARGET t

theorem requested_leaves (d : Dev) (t : Nat) :
    (d.requested t).modeStatus = d.modeStatus ∧ OnlyParts [.regs] d (d.requested t) ∧ (d.requested t).quiet = d.quiet := by
  refine ⟨?_, by simp [Dev.requested], quiet_setFld _ _ _ _ (by decide)⟩
  simp (disch := decide) only [Dev.modeStatus, Dev.requested, fld_setFld_clear]

theorem modeBar_requested (d : Dev) (t : Nat) : (d.requested t).modeBar t = d.modeBar t := modeBar_setFld_req d t t

theorem modeBar_lt (d : Dev) (t : Nat) : d.modeBar t < 16 := by
  have hFirst (l : List (Bool × Nat)) (hl : l.all fun x => decide (x.2 < 16)) : ((l.find? (·.1)).map (·.2)).getD 0 < 16 := by
    cases h : l.find? (·.1) with
    | none => decide
    | some x => exact of_decide_eq_true (List.all_eq_true.mp hl x (List.mem_of_find?_eq_some h))
  unfold Dev.modeBar
  dsimp only
  split_ifs
  iterate 2 · decide
  iterate 7 · exact hFirst _ rfl
  · decide

/-- While a transition runs a request is refused. -/
theorem modeBar_changing {d : Dev} {t : Nat} (h : d.power.stage ≠ 0) :
    d.modeBar t = if t = modeStart ∨ modeProof < t then refFrom else refBusy := by
  unfold Dev.modeBar Dev.changing
  simp [h]

/-- The conditions on ROLL from another running mode, with an image. -/
theorem modeBar_roll {d : Dev} (hMode : runningMode d.mode = true) (hImage : d.load.verified ≠ none) (hStage : d.power.stage = 0) :
    d.modeBar modeRoll = 0 := by
  have hSome : d.load.verified.isNone = false := by
    rw [Option.isNone_eq_false_iff, Option.isSome_iff_ne_none]
    exact hImage
  unfold Dev.modeBar Dev.changing
  simp [hMode, hSome, hStage, modeRoll, modeStart, modeProof, modeDormant, modeIdle, modeStrike]

theorem modeRequest_refused {d : Dev} {t : Nat} (ack : Bool) (hMode : t ≠ d.mode) (hBar : d.modeBar t ≠ 0) :
    d.modeRequest t ack = d.modeRefuse (d.modeBar t) := by
  rw [Dev.modeRequest, if_neg fun h => hMode h.1]
  split
  · rename_i h0
    exact absurd h0 hBar
  · rfl

theorem modeRequest_begun {d : Dev} {t : Nat} (ack : Bool) (hMode : t ≠ d.mode) (hBar : d.modeBar t = 0) :
    d.modeRequest t ack = d.beginMode t ack := by
  rw [Dev.modeRequest, if_neg fun h => hMode h.1]
  split
  · rfl
  · rename_i h0
    exact absurd hBar h0

/-- A transition toward a mode has begun. -/
def Dev.modeBegun (d : Dev) (t : Nat) : Dev :=
  ((d.setFld powerBase Reg.MODE_STATUS.TARGET t).setFld powerBase Reg.MODE_STATUS.CHANGING 1).atStage 1

section
variable {d : Dev} {t : Nat}

theorem modeBegun_status (ht : t < 16) : (d.modeBegun t).modeStatus = (d.mode, 1) ∧ (d.modeBegun t).modeTarget = t := by
  constructor
  · rw [Dev.modeStatus, Dev.modeBegun, Dev.atStage, fld_modPower, fld_modPower, fld_setFld_clear (by decide), fld_setFld_clear (by decide),
      fld_setFld_lt (by decide) (by decide), Dev.mode]
  · rw [Dev.modeTarget, Dev.modeBegun, Dev.atStage, fld_modPower, fld_setFld_clear (by decide), fld_setFld_lt (by decide) ht]

theorem modeBegun_rail : SameRail d (d.modeBegun t) :=
  ((sameRail_setFld (by decide) (by decide) (by decide) (by decide)).trans
    (sameRail_setFld (by decide) (by decide) (by decide) (by decide))).trans (sameRail_atStage _ _)

theorem modeBegun_leaves : (d.modeBegun t).power = { d.power with stage := 1 } ∧ OnlyParts [.regs, .power] d (d.modeBegun t) ∧
    (d.modeBegun t).quiet = d.quiet := by
  refine ⟨rfl, by simp [Dev.modeBegun, Dev.atStage], ?_⟩
  rw [Dev.modeBegun, Dev.atStage, quiet_modPower, quiet_setFld _ _ _ _ (by decide), quiet_setFld _ _ _ _ (by decide)]

end

/-- ROLL has a voltage. -/
theorem vset_roll (d : Dev) : d.vset modeRoll = some ((d.vset modeRoll).getD 0) := rfl

/-- What a voltage that the regulator takes leaves. -/
def Dev.voltAsked (d : Dev) (mv : Nat) (why : VoutWhy) : Dev :=
  (d.setFld powerBase Reg.PMB_STATUS.PMB_ERR 0).modPower fun p => { p with voutMv := mv, voutReq := some { mv := mv, why := why } }

theorem vout_taken {d : Dev} (cur mv : Nat) (why : VoutWhy) (hEn : d.flag powerBase Reg.PMB_CFG.EN = true)
    (hProof : d.proving (serialBase 2) = false) (hNone : d.power.voutReq = none) :
    d.vout cur mv why true = (d.voltAsked mv why, true) := by
  rw [Dev.vout, hEn, hProof, hNone]
  rfl

theorem vout_failed {d : Dev} (cur mv : Nat) (why : VoutWhy) (hEn : d.flag powerBase Reg.PMB_CFG.EN = true) :
    d.vout cur mv why false = (d.pmbFail, false) := by
  rw [Dev.vout, hEn]
  rfl

theorem beginMode_roll (d : Dev) (ack : Bool) : d.beginMode modeRoll ack =
    let e := d.modeBegun modeRoll
    let r := e.vout e.vfab ((e.vset modeRoll).getD 0) .before ack
    if e.vfab < (e.vset modeRoll).getD 0 then (if r.2 then r.1.modeStep modeSteps else r.1.modeBack refRail) else e.modeStep modeSteps := by
  unfold Dev.beginMode
  rfl

/-- ROLL from another running mode, at a voltage that already suffices. -/
theorem beginMode_suffices {d : Dev} {ack : Bool} (hVolt : (d.vset modeRoll).getD 0 ≤ d.vfab) (hMode : d.mode ≠ modeIdle)
    (hNone : d.power.voutReq = none) : d.beginMode modeRoll ack = (d.modeBegun modeRoll).atStage 4 := by
  have hRail := modeBegun_rail (d := d) (t := modeRoll)
  have hStep := modeStep_roll (modeBegun_status (d := d) (t := modeRoll) (by decide)).2 (opens_of_mode (by rw [hRail.mode]; exact hMode)) rfl hNone
  have hNot : ¬(d.modeBegun modeRoll).vfab < ((d.modeBegun modeRoll).vset modeRoll).getD 0 := by
    rw [hRail.vfab, hRail.vset]
    exact Nat.not_lt.mpr hVolt
  rw [beginMode_roll]
  exact (if_neg hNot).trans hStep

section
variable {d : Dev} (hVolt : d.vfab < (d.vset modeRoll).getD 0) (hEn : d.flag powerBase Reg.PMB_CFG.EN = true)
include hVolt hEn

/-- One that the regulator takes waits for its settling. -/
theorem beginMode_waits (hProof : d.proving (serialBase 2) = false) (hNone : d.power.voutReq = none) :
    d.beginMode modeRoll true = (d.modeBegun modeRoll).voltAsked ((d.vset modeRoll).getD 0) .before := by
  have hRail := modeBegun_rail (d := d) (t := modeRoll)
  have hLt : (d.modeBegun modeRoll).vfab < ((d.modeBegun modeRoll).vset modeRoll).getD 0 := by
    rw [hRail.vfab, hRail.vset]
    exact hVolt
  have hVout := vout_taken (d := d.modeBegun modeRoll) (d.modeBegun modeRoll).vfab (((d.modeBegun modeRoll).vset modeRoll).getD 0) .before
    (by rw [hRail.enabled, hEn]) (by rw [hRail.proving, hProof]) hNone
  rw [beginMode_roll]
  dsimp only
  rw [if_pos hLt, hVout, hRail.vset, if_pos rfl]
  exact modeStep_waits 4 rfl rfl

omit hVolt hEn in
theorem quiet_pmbFail (d : Dev) : d.pmbFail.quiet = d.quiet := by
  rw [Dev.pmbFail, quiet_raise _ _ _ (by decide), quiet_setFld _ _ _ _ (by decide)]

/-- One that the regulator does not take ends it. -/
theorem beginMode_fails : d.beginMode modeRoll false = (d.modeBegun modeRoll).pmbFail.modeBack refRail := by
  have hRail := modeBegun_rail (d := d) (t := modeRoll)
  have hLt : (d.modeBegun modeRoll).vfab < ((d.modeBegun modeRoll).vset modeRoll).getD 0 := by
    rw [hRail.vfab, hRail.vset]
    exact hVolt
  have hVout := vout_failed (d := d.modeBegun modeRoll) (d.modeBegun modeRoll).vfab (((d.modeBegun modeRoll).vset modeRoll).getD 0) .before
    (by rw [hRail.enabled, hEn])
  rw [beginMode_roll]
  dsimp only
  rw [if_pos hLt, hVout, if_neg Bool.false_ne_true]

end

/-- PMB_ERR and PMB_FAIL of a request that fails. -/
theorem pmbFail_shows (d : Dev) : d.pmbFail.fld powerBase Reg.PMB_STATUS.PMB_ERR = 1 ∧ d.pmbFail.fld powerBase Reg.MODE_EVENT.PMB_FAIL = 1 := by
  constructor
  · rw [Dev.pmbFail, Dev.raise, fld_setFld_clear (by decide), fld_setFld_lt (by decide) (by decide)]
  · rw [Dev.pmbFail, fld_raise_same (by decide) (by decide)]

theorem modeBack_keeps {d : Dev} {code : Nat} {f : Fld} (h : f.off ≠ Reg.MODE_STATUS.off ∧ Reg.MODE_EVENT.REFUSED.clear f) :
    (d.modeBack code).fld powerBase f = d.fld powerBase f := by
  have hStatus : Reg.MODE_STATUS.REFUSE.clear f ∧ Reg.MODE_STATUS.CHANGING.clear f := by
    have hOff : ¬Reg.MODE_STATUS.off = f.off := fun k => h.1 k.symm
    constructor <;> simp [Fld.clear, show Reg.MODE_STATUS.REFUSE.off = Reg.MODE_STATUS.off from rfl,
      show Reg.MODE_STATUS.CHANGING.off = Reg.MODE_STATUS.off from rfl, hOff]
  rw [Dev.modeBack, Dev.modeRefuse, Dev.raise, fld_setFld_clear h.2, fld_setFld_clear hStatus.1, fld_setFld_clear hStatus.2, fld_modPower]

/-! ## Accesses of MODE_REQ -/

section
variable {s : State} {path : Fin 8} {t : Fin 16} {ack : Bool} (hq : s.dev.quiet = true) (hReach : s.dev.reached path modeReqAddr = true)
include hq hReach

theorem modeReq_completes {P : Dev → Prop} {e : Dev} (he : (s.dev.requested t).modeRequest t ack = e) (hQuiet : e.quiet = s.dev.quiet)
    (hP : P (e.finish path stOk 0)) : Completes (.modeReq path t ack) s P := by
  refine completes_quiet (f := opModeReq path t ack) rfl ?_ ?_
  · rw [opModeReq, viaCtl_reached hReach, quiet_finish]
    exact he ▸ hQuiet.trans hq
  · rw [opModeReq, viaCtl_reached hReach]
    exact he ▸ hP

theorem modeReq_same (hMode : t.val = s.dev.mode) (hStart : t.val ≠ modeStart) :
    Completes (.modeReq path t ack) s fun e =>
      e.answered path stOk 0 ∧ OnlyParts [.regs, .ctl] s.dev e ∧ OnlyRegs [modeReqAddr] s.dev e := by
  obtain ⟨hStatus, hParts, hQuiet⟩ := requested_leaves s.dev t
  have hKept : (s.dev.requested t).mode = s.dev.mode := congrArg Prod.fst hStatus
  refine modeReq_completes hq hReach (e := s.dev.requested t) ?_ hQuiet ⟨finish_answered .., ?_, ?_⟩
  · rw [Dev.modeRequest, if_pos ⟨hMode.trans hKept.symm, hStart⟩]
  · simpa using hParts.mono (by simp)
  · simp [Dev.requested, modeReqAddr, Reg.MODE_REQ.TARGET, Reg.MODE_REQ.off]

theorem modeReq_barred (hMode : t.val ≠ s.dev.mode) (hBar : s.dev.modeBar t ≠ 0) {P : Dev → Prop}
    (hP : P (((s.dev.requested t).modeRefuse (s.dev.modeBar t)).finish path stOk 0)) : Completes (.modeReq path t ack) s P := by
  obtain ⟨hStatus, _, hQuiet⟩ := requested_leaves s.dev t
  have hKept : (s.dev.requested t).mode = s.dev.mode := congrArg Prod.fst hStatus
  have hBar' := modeBar_requested s.dev t
  refine modeReq_completes hq hReach (modeRequest_refused ack (by rwa [hKept]) (by rwa [hBar'])) ?_ (by rwa [hBar'])
  rw [Dev.modeRefuse, quiet_raise _ _ _ (by decide), quiet_setFld _ _ _ _ (by decide), hQuiet]

theorem modeReq_refused (hMode : t.val ≠ s.dev.mode) (hStill : s.dev.fld powerBase Reg.MODE_STATUS.CHANGING = 0) (hBar : s.dev.modeBar t ≠ 0) :
    Completes (.modeReq path t ack) s fun e => ModeRefused s.dev (s.dev.modeBar t) e ∧ e.power = s.dev.power := by
  obtain ⟨hStatus, hParts, _⟩ := requested_leaves s.dev t
  refine modeReq_barred hq hReach hMode hBar ⟨(modeRefuse_refused (modeBar_lt _ _) ?_ (hParts.mono (by simp))).finish, rfl⟩
  rw [hStatus, Dev.modeStatus, hStill, Dev.mode]

theorem modeReq_busy (hMode : t.val ≠ s.dev.mode) (hStage : s.dev.power.stage ≠ 0) :
    Completes (.modeReq path t ack) s fun e =>
      e.modeStatus = s.dev.modeStatus ∧
      e.fld powerBase Reg.MODE_STATUS.REFUSE = (if t.val = modeStart ∨ modeProof < t.val then refFrom else refBusy) ∧
      e.power = s.dev.power ∧ OnlyParts [.regs, .ctl] s.dev e := by
  obtain ⟨hStatus, hParts, _⟩ := requested_leaves s.dev t
  have hBar := modeBar_changing (t := t) hStage
  have hCode : s.dev.modeBar t ≠ 0 := by
    rw [hBar]
    split <;> decide
  refine modeReq_barred hq hReach hMode hCode ⟨?_, ?_, rfl, ?_⟩
  · rw [← hStatus]
    simp (disch := decide) only [Dev.modeStatus, fld_finish, Dev.modeRefuse, Dev.raise, fld_setFld_clear]
  · rw [fld_finish, Dev.modeRefuse, Dev.raise, fld_setFld_clear (by decide), fld_setFld_lt (by decide) (modeBar_lt _ _), hBar]
  · simpa [Dev.modeRefuse] using hParts.mono (by simp)

/-- A transition toward ROLL has begun. -/
def RollBegun (d : Dev) (p : PowerRec) (e : Dev) : Prop :=
  e.modeStatus = (d.mode, 1) ∧ e.modeTarget = modeRoll ∧ e.power = p ∧ OnlyParts [.regs, .ctl, .power] d e

section
variable (hRoll : t.val = modeRoll) (hRuns : runningMode s.dev.mode = true) (hOther : s.dev.mode ≠ modeRoll)
  (hImage : s.dev.load.verified ≠ none) (hStage : s.dev.power.stage = 0) (hNone : s.dev.power.voutReq = none)
include hRoll hRuns hOther hImage hStage

theorem modeReq_begins {P : Dev → Prop} {e : Dev} (he : (s.dev.requested modeRoll).beginMode modeRoll ack = e) (hQuiet : e.quiet = s.dev.quiet)
    (hP : P (e.finish path stOk 0)) : Completes (.modeReq path t ack) s P := by
  obtain ⟨hStatus, _, _⟩ := requested_leaves s.dev t
  have hKept : (s.dev.requested t).mode = s.dev.mode := congrArg Prod.fst hStatus
  refine modeReq_completes hq hReach ?_ hQuiet hP
  rw [modeRequest_begun ack (by rw [hKept, hRoll]; exact hOther.symm)
    (by rw [modeBar_requested, hRoll]; exact modeBar_roll hRuns hImage hStage), hRoll]
  exact he

omit hReach hq hRoll hOther hImage hStage in
theorem requested_running : SameRail s.dev (s.dev.requested modeRoll) ∧ (s.dev.requested modeRoll).mode ≠ modeIdle := by
  have hRail : SameRail s.dev (s.dev.requested modeRoll) := sameRail_setFld (by decide) (by decide) (by decide) (by decide)
  refine ⟨hRail, fun h => ?_⟩
  rw [hRail.mode] at h
  rw [h] at hRuns
  exact absurd hRuns (by decide)

omit hq hReach hRoll hRuns hOther hImage hStage in
/-- What has begun of a transition toward ROLL, once the access has ended. -/
theorem rollBegun_finish {p : PowerRec} {e : Dev} (hRail : SameRail s.dev (s.dev.requested modeRoll))
    (hFld : ∀ f : Fld, f.off = Reg.MODE_STATUS.off → e.fld powerBase f = ((s.dev.requested modeRoll).modeBegun modeRoll).fld powerBase f)
    (hPower : e.power = p) (hParts : OnlyParts [.regs, .power] ((s.dev.requested modeRoll).modeBegun modeRoll) e) :
    RollBegun s.dev p (e.finish path stOk 0) := by
  obtain ⟨hStatus, hTarget⟩ := modeBegun_status (d := s.dev.requested modeRoll) (t := modeRoll) (by decide)
  obtain ⟨_, hBegun, _⟩ := modeBegun_leaves (d := s.dev.requested modeRoll) (t := modeRoll)
  refine ⟨?_, ?_, hPower, ?_⟩
  · rw [← hRail.mode, ← hStatus, Dev.modeStatus, Dev.modeStatus, fld_finish, fld_finish, hFld _ rfl, hFld _ rfl]
  · rw [← hTarget, Dev.modeTarget, Dev.modeTarget, fld_finish, hFld _ rfl]
  · rw [onlyParts_finish _ _ _ _ (by simp)]
    exact (((requested_leaves s.dev modeRoll).2.1.mono (by simp)).trans (hBegun.mono (by simp))).trans (hParts.mono (by simp))

include hNone

theorem modeReq_roll_suffices (hVolt : (s.dev.vset modeRoll).getD 0 ≤ s.dev.vfab) :
    Completes (.modeReq path t ack) s (RollBegun s.dev { s.dev.power with stage := 4 }) := by
  obtain ⟨hRail, hIdle⟩ := requested_running hRuns
  obtain ⟨_, _, hQuiet⟩ := modeBegun_leaves (d := s.dev.requested modeRoll) (t := modeRoll)
  refine modeReq_begins hq hReach hRoll hRuns hOther hImage hStage
    (beginMode_suffices (by rw [hRail.vset, hRail.vfab]; exact hVolt) hIdle hNone)
    (hQuiet.trans (requested_leaves s.dev modeRoll).2.2) (rollBegun_finish hRail (fun _ _ => rfl) rfl ?_)
  simp [Dev.atStage]

section
variable (hVolt : s.dev.vfab < (s.dev.vset modeRoll).getD 0) (hEn : s.dev.flag powerBase Reg.PMB_CFG.EN = true)
  (hProof : s.dev.proving (serialBase 2) = false)
include hVolt hEn hProof

theorem modeReq_roll_waits :
    Completes (.modeReq path t true) s (RollBegun s.dev
      { s.dev.power with
        stage := 1, voutMv := (s.dev.vset modeRoll).getD 0, voutReq := some { mv := (s.dev.vset modeRoll).getD 0, why := .before } }) := by
  obtain ⟨hRail, _⟩ := requested_running hRuns
  obtain ⟨_, _, hQuiet⟩ := modeBegun_leaves (d := s.dev.requested modeRoll) (t := modeRoll)
  have hBegin := beginMode_waits (d := s.dev.requested modeRoll) (by rw [hRail.vset, hRail.vfab]; exact hVolt) (by rw [hRail.enabled, hEn])
    (by rw [hRail.proving, hProof]) hNone
  rw [hRail.vset] at hBegin
  refine modeReq_begins hq hReach hRoll hRuns hOther hImage hStage hBegin ?_ (rollBegun_finish hRail (fun f hf => ?_) rfl ?_)
  · rw [Dev.voltAsked, quiet_modPower, quiet_setFld _ _ _ _ (by decide), hQuiet]
    exact (requested_leaves s.dev modeRoll).2.2
  · rw [Dev.voltAsked, fld_modPower, fld_setFld_other (by rw [hf]; decide)]
  · simp [Dev.voltAsked]

omit hProof hNone in
theorem modeReq_roll_fails :
    Completes (.modeReq path t false) s fun e =>
      ModeRefused s.dev refRail e ∧ e.fld powerBase Reg.PMB_STATUS.PMB_ERR = 1 ∧ e.fld powerBase Reg.MODE_EVENT.PMB_FAIL = 1 := by
  obtain ⟨hRail, _⟩ := requested_running hRuns
  obtain ⟨_, hBegun, hQuiet⟩ := modeBegun_leaves (d := s.dev.requested modeRoll) (t := modeRoll)
  have hBegin := beginMode_fails (d := s.dev.requested modeRoll) (by rw [hRail.vset, hRail.vfab]; exact hVolt) (by rw [hRail.enabled, hEn])
  obtain ⟨hErr, hFail⟩ := pmbFail_shows ((s.dev.requested modeRoll).modeBegun modeRoll)
  have hMode : ((s.dev.requested modeRoll).modeBegun modeRoll).pmbFail.mode = s.dev.mode := by
    rw [Dev.mode, Dev.pmbFail, Dev.raise, fld_setFld_clear (by decide), fld_setFld_clear (by decide), ← Dev.mode,
      (modeBegun_rail (d := s.dev.requested modeRoll) (t := modeRoll)).mode, hRail.mode]
  refine modeReq_begins hq hReach hRoll hRuns hOther hImage hStage hBegin ?_
    ⟨(modeBack_refused (by decide) hMode ?_).finish, ?_, ?_⟩
  · rw [quiet_modeBack, quiet_pmbFail, hQuiet]
    exact (requested_leaves s.dev modeRoll).2.2
  · simpa [Dev.pmbFail] using (((requested_leaves s.dev modeRoll).2.1.mono (by simp)).trans (hBegun.mono (by simp)) :
      OnlyParts [.regs, .ctl, .power] s.dev ((s.dev.requested modeRoll).modeBegun modeRoll))
  · rw [fld_finish, modeBack_keeps (by decide), hErr]
  · rw [fld_finish, modeBack_keeps (by decide), hFail]

end

end

end

end Sys2Proof.Machine

/-! # Voltages that settle, entries into a mode, and wakes (R421, R423, R430) -/

namespace Sys2Proof.Machine

set_option Elab.async false

/-! ## The voltage settles -/

section
variable {s : State} {x : Nat} (hq : s.dev.quiet = true) (hReq : s.dev.power.voutReq = some { mv := x, why := .before })
  (hStage : s.dev.power.stage = 1)
include hq hReq hStage

/-- The wait for a voltage is over. -/
def Dev.voltDone (d : Dev) : Dev := d.modPower fun p => { p with voutReq := none }

omit hq in
theorem opPmbusSettleDone_changing (settled : Bool) :
    opPmbusSettleDone settled s.dev = if settled then s.dev.voltDone.modeStep modeSteps else s.dev.voltDone.modeBack refRail := by
  have hChanging : s.dev.voltDone.changing = true := by
    show (s.dev.power.stage != 0) = true
    rw [hStage]
    rfl
  rw [opPmbusSettleDone, hReq]
  exact if_pos ⟨rfl, hChanging⟩

theorem settleDone_goesOn (hTarget : s.dev.modeTarget = modeRoll) (hMode : s.dev.mode ≠ modeIdle) :
    Completes (.pmbusSettleDone true) s fun e =>
      e.power = { s.dev.power with voutReq := none, stage := 4 } ∧ OnlyParts [.power] s.dev e := by
  have hOp : opPmbusSettleDone true s.dev = s.dev.voltDone.atStage 4 :=
    (opPmbusSettleDone_changing hReq hStage true).trans (modeStep_roll (d := s.dev.voltDone) hTarget (opens_of_mode hMode) hStage rfl)
  refine completes_quiet (f := opPmbusSettleDone true) rfl ?_ ?_
  · rw [hOp, Dev.atStage, Dev.voltDone, quiet_modPower, quiet_modPower, hq]
  · rw [hOp]
    exact ⟨rfl, by simp [Dev.atStage, Dev.voltDone]⟩

theorem settleDone_fails : Completes (.pmbusSettleDone false) s fun e =>
    ModeRefused s.dev refRail e ∧ e.power = { s.dev.power with voutReq := none, stage := 0 } := by
  have hOp : opPmbusSettleDone false s.dev = s.dev.voltDone.modeBack refRail := opPmbusSettleDone_changing hReq hStage false
  refine completes_quiet (f := opPmbusSettleDone false) rfl ?_ ?_
  · rw [hOp, quiet_modeBack, Dev.voltDone, quiet_modPower, hq]
  · rw [hOp]
    exact ⟨modeBack_refused (by decide) rfl (by simp [Dev.voltDone]), rfl⟩

end

/-! ## ROLL is entered -/

theorem takeStaged_cases (d : Dev) : d.takeStaged = d ∨ d.load.opened = true ∧ ∃ f, d.takeStaged = d.modUnits f := by
  unfold Dev.takeStaged
  by_cases h : (d.runMode && d.load.opened) = true
  · rw [if_pos h]
    rw [Bool.and_eq_true] at h
    exact .inr ⟨h.2, _, rfl⟩
  · rw [if_neg h]
    exact .inl rfl

/-- MODE takes ROLL, and the watchdog begins anew. -/
def Dev.rollEntered (d : Dev) : Dev :=
  (((d.atStage 0).setFld powerBase Reg.MODE_STATUS.CHANGING 0).setMode modeRoll).modKryup fun k => { k with wdgTicks := 0 }

theorem rollEntered_leaves (d : Dev) :
    d.rollEntered.modeStatus = (modeRoll, 0) ∧ d.rollEntered.fld powerBase Reg.MODE_EVENT.ENTERED = 1 ∧
      OnlyParts [.regs, .power, .kryup] d d.rollEntered ∧ d.rollEntered.quiet = d.quiet ∧
      OnlyRegs [powerBase + Reg.MODE_STATUS.MODE.off, powerBase + Reg.MODE_EVENT.ENTERED.off] d d.rollEntered ∧
      ∀ m, d.rollEntered.vset m = d.vset m := by
  refine ⟨?_, ?_, by simp [Dev.rollEntered, Dev.setMode, Dev.atStage], ?_, ?_, fun m => ?_⟩
  · refine Prod.ext ?_ ?_
    · rw [Dev.modeStatus, Dev.rollEntered, fld_modKryup, Dev.setMode, Dev.raise, fld_setFld_clear (by decide),
        fld_setFld_lt (by decide) (by decide)]
    · rw [Dev.modeStatus, Dev.rollEntered, fld_modKryup, fld_modKryup, Dev.setMode, Dev.raise]
      dsimp only
      rw [fld_setFld_clear (g := Reg.MODE_STATUS.CHANGING) (by decide), fld_setFld_clear (g := Reg.MODE_STATUS.CHANGING) (by decide),
        fld_setFld_lt (by decide) (by decide)]
  · rw [Dev.rollEntered, fld_modKryup, Dev.setMode, fld_raise_same (by decide) (by decide)]
  · rw [Dev.rollEntered, quiet_modKryup _ _ rfl, Dev.setMode, quiet_raise _ _ _ (by decide), quiet_setFld _ _ _ _ (by decide),
      quiet_setFld _ _ _ _ (by decide), Dev.atStage, quiet_modPower]
  · simp [Dev.rollEntered, Dev.setMode, Dev.atStage, Reg.MODE_STATUS.CHANGING, Reg.MODE_STATUS.MODE]
  · show (((d.atStage 0).setFld powerBase Reg.MODE_STATUS.CHANGING 0).setMode modeRoll).vset m = _
    rw [Dev.setMode, Dev.raise, vset_setFld rfl (by decide) (by decide), vset_setFld rfl (by decide) (by decide),
      vset_setFld rfl (by decide) (by decide)]
    rfl

theorem enterMode_roll {d : Dev} (ack : Bool) (hTarget : d.modeTarget = modeRoll) (hMode : d.mode ≠ modeProof)
    (hVolt : d.vfab ≤ (d.vset modeRoll).getD 0) (hFree : d.load.requested = false) : d.enterMode ack = d.rollEntered.takeStaged := by
  have hTake : d.rollEntered.takeRequest = d.rollEntered.takeStaged := by
    have hKept : d.rollEntered.takeStaged.load.requested = false := by
      rcases takeStaged_cases d.rollEntered with h | ⟨_, f, h⟩ <;> rw [h] <;> exact hFree
    rw [Dev.takeRequest, hKept]
    simp
  have hVset : d.rollEntered.takeStaged.vset modeRoll = d.vset modeRoll := by
    rcases takeStaged_cases d.rollEntered with h | ⟨_, f, h⟩ <;> rw [h]
    · exact (rollEntered_leaves d).2.2.2.2.2 modeRoll
    · exact (rollEntered_leaves d).2.2.2.2.2 modeRoll
  have hEnter : d.enterMode ack =
      match d.rollEntered.takeRequest.vset modeRoll with
      | some mv => if mv < d.vfab then (d.rollEntered.takeRequest.vout d.vfab mv .after ack).1 else d.rollEntered.takeRequest
      | none => d.rollEntered.takeRequest := by
    unfold Dev.enterMode
    rw [hTarget]
    simp only [if_neg hMode]
    rfl
  rw [hEnter, hTake, hVset, vset_roll d]
  exact if_neg (Nat.not_lt.mpr hVolt)

theorem modeEntered_roll {s : State} {ack : Bool} (hq : s.dev.quiet = true) (hStage : s.dev.power.stage = 4)
    (hTarget : s.dev.modeTarget = modeRoll) (hMode : s.dev.mode ≠ modeProof) (hVolt : s.dev.vfab ≤ (s.dev.vset modeRoll).getD 0)
    (hFree : s.dev.load.requested = false) :
    Completes (.modeEntered ack) s fun e =>
      e.modeStatus = (modeRoll, 0) ∧ e.fld powerBase Reg.MODE_EVENT.ENTERED = 1 ∧ e.power = { s.dev.power with stage := 0 } ∧
      e.kryup = { s.dev.kryup with wdgTicks := 0 } ∧ OnlyParts [.regs, .units, .power, .kryup] s.dev e ∧
      (s.dev.load.opened = false → e.units = s.dev.units) ∧
      OnlyRegs [powerBase + Reg.MODE_STATUS.MODE.off, powerBase + Reg.MODE_EVENT.ENTERED.off] s.dev e := by
  have hOp : opModeEntered ack s.dev = s.dev.rollEntered.takeStaged := by
    rw [opModeEntered, if_pos hStage, enterMode_roll ack hTarget hMode hVolt hFree]
  obtain ⟨hStatus, hEntered, hParts, hQuiet, hRegs, _⟩ := rollEntered_leaves s.dev
  refine completes_quiet (f := opModeEntered ack) rfl ?_ ?_ <;> rw [hOp] <;>
    rcases takeStaged_cases s.dev.rollEntered with h | ⟨hOpened, f, h⟩ <;> rw [h]
  · exact hQuiet.trans hq
  · exact hQuiet.trans hq
  · exact ⟨hStatus, hEntered, rfl, rfl, hParts.mono (by simp), fun _ => rfl, hRegs⟩
  · refine ⟨hStatus, hEntered, rfl, rfl, (hParts.mono (by simp)).trans (by simp), fun hClosed => ?_, hRegs⟩
    exact absurd (hOpened.symm.trans hClosed) (by decide)

/-! ## READ_IOUT -/

section
variable {s : State} (hq : s.dev.quiet = true) (hOn : s.dev.domainOn 1 = true) (hEn : s.dev.flag powerBase Reg.PMB_CFG.EN = true)
include hOn hEn

/-- The Tick of a reading is kept. -/
def Dev.ioutRead (d : Dev) : Dev := d.modPower fun p => { p with ioutTick := d.tick }

theorem opReadIout_due {ack : Bool} {amps : BitVec 16} (hProof : s.dev.proving (serialBase 2) = false)
    (hDue : s.dev.power.ioutTick + 64 ≤ s.dev.tick) :
    opReadIout ack amps s.dev = if ack then s.dev.ioutRead.setFld powerBase Reg.PMB_STATUS.IOUT amps.toNat else s.dev.ioutRead.pmbFail := by
  have hKept : s.dev.ioutRead.proving (serialBase 2) = false := hProof
  rw [opReadIout, hOn, hEn, if_neg (by simpa using hDue)]
  show (if ack && !s.dev.ioutRead.proving (serialBase 2) then s.dev.ioutRead.setFld powerBase Reg.PMB_STATUS.IOUT amps.toNat
    else s.dev.ioutRead.pmbFail) = _
  rw [hKept, Bool.not_false, Bool.and_true]

include hq

theorem readIout_stored {amps : BitVec 16} (hProof : s.dev.proving (serialBase 2) = false)
    (hDue : s.dev.power.ioutTick + 64 ≤ s.dev.tick) :
    Completes (.readIout true amps) s fun e =>
      e.fld powerBase Reg.PMB_STATUS.IOUT = amps.toNat ∧
      (e.power = { s.dev.power with ioutTick := s.dev.tick } ∧ OnlyParts [.regs, .power] s.dev e) ∧
      OnlyRegs [powerBase + Reg.PMB_STATUS.IOUT.off] s.dev e := by
  refine completes_quiet (f := opReadIout true amps) rfl ?_ ?_ <;> rw [opReadIout_due hOn hEn hProof hDue, if_pos rfl]
  · rw [quiet_setFld _ _ _ _ (by decide), Dev.ioutRead, quiet_modPower, hq]
  · exact ⟨fld_setFld_lt (by decide) amps.isLt, ⟨rfl, by simp [Dev.ioutRead]⟩, by simp [Dev.ioutRead]⟩

theorem readIout_failed {amps : BitVec 16} (hProof : s.dev.proving (serialBase 2) = false)
    (hDue : s.dev.power.ioutTick + 64 ≤ s.dev.tick) :
    Completes (.readIout false amps) s fun e =>
      e.fld powerBase Reg.PMB_STATUS.PMB_ERR = 1 ∧ e.fld powerBase Reg.MODE_EVENT.PMB_FAIL = 1 ∧
      e.power = { s.dev.power with ioutTick := s.dev.tick } ∧ OnlyParts [.regs, .power] s.dev e := by
  refine completes_quiet (f := opReadIout false amps) rfl ?_ ?_ <;> rw [opReadIout_due hOn hEn hProof hDue, if_neg Bool.false_ne_true]
  · rw [quiet_pmbFail, Dev.ioutRead, quiet_modPower, hq]
  · obtain ⟨hErr, hFail⟩ := pmbFail_shows s.dev.ioutRead
    exact ⟨hErr, hFail, rfl, by simp [Dev.pmbFail, Dev.ioutRead]⟩

omit hOn hEn in
theorem readIout_early {ack : Bool} {amps : BitVec 16} (hEarly : s.dev.tick < s.dev.power.ioutTick + 64) :
    Completes (.readIout ack amps) s fun e => e = s.dev := by
  have hOp : opReadIout ack amps s.dev = s.dev := by
    rw [opReadIout, if_pos]
    simp [hEarly]
  exact completes_quiet (f := opReadIout ack amps) rfl (by rw [hOp, hq]) hOp

end

/-! ## VSET -/

/-- The address of VSET_A, or of VSET_B. -/
def vsetAddr (b : Bool) : Nat := powerBase + (if b then Reg.VSET_B.off else Reg.VSET_A.off)

theorem storeRw_regs (d : Dev) (a : Nat) (w : Word) : { d with regs := (d.storeRw a w).regs } = d.storeRw a w := by
  rcases storeRw_cases d a w with h | ⟨v, h⟩ <;> rw [h]
  rfl

/-- A store of VSET leaves what else the voltage follows. -/
theorem storeVset_leaves (d : Dev) (b : Bool) (v : Word) :
    (d.storeRw (vsetAddr b) v).power = d.power ∧ (d.storeRw (vsetAddr b) v).quiet = d.quiet ∧
      (d.storeRw (vsetAddr b) v).mode = d.mode ∧
      (d.storeRw (vsetAddr b) v).flag powerBase Reg.PMB_CFG.EN = d.flag powerBase Reg.PMB_CFG.EN ∧
      (d.storeRw (vsetAddr b) v).proving (serialBase 2) = d.proving (serialBase 2) := by
  have hApart : ∀ b, rootBase + Reg.IRQ_CTRL.off ≠ vsetAddr b ∧ powerBase + Reg.MODE_STATUS.MODE.off ≠ vsetAddr b ∧
      powerBase + Reg.PMB_CFG.EN.off ≠ vsetAddr b ∧ serialBase 2 + Reg.CTRL.PROOF_EN.off ≠ vsetAddr b ∧
      serialBase 2 + Reg.STATE.SELF.off ≠ vsetAddr b := by decide
  obtain ⟨hIrq, hMode, hEn, hProof, hSelf⟩ := hApart b
  rcases storeRw_cases d (vsetAddr b) v with h | ⟨w, h⟩ <;> rw [h]
  · exact ⟨rfl, rfl, rfl, rfl, rfl⟩
  · refine ⟨rfl, quiet_setReg _ _ _ hIrq, ?_, ?_, proving_setReg hProof hSelf⟩
    · rw [Dev.mode, Dev.fld, reg_setReg, if_neg hMode]
      rfl
    · rw [Dev.flag, Dev.fld, reg_setReg, if_neg hEn]
      rfl

/-- VSET as a write of it stores it covers the mode in force. -/
def Dev.vsetCovers (d : Dev) (b : Bool) : Prop := if b then d.mode = modeProof ∨ d.mode = modeAssured else 2 ≤ d.mode ∧ d.mode ≤ 5

theorem vsetWrite_eq (d : Dev) (b : Bool) (v : Word) (ack : Bool) : d.vsetWrite b v ack =
    match (d.storeRw (vsetAddr b) v).vset d.mode with
    | some mv => if (if b then d.mode == modeProof || d.mode == modeAssured else decide (modeIdle ≤ d.mode ∧ d.mode ≤ modeSurge))
        then ((d.storeRw (vsetAddr b) v).vout d.vfab mv .vset ack).1 else d.storeRw (vsetAddr b) v
    | none => d.storeRw (vsetAddr b) v := rfl

theorem vsetCovers_iff (d : Dev) (b : Bool) :
    (if b then d.mode == modeProof || d.mode == modeAssured else decide (modeIdle ≤ d.mode ∧ d.mode ≤ modeSurge)) = true ↔ d.vsetCovers b := by
  cases b
  · exact decide_eq_true_iff
  · simp [Dev.vsetCovers]

theorem vsetWrite_stored {d : Dev} {b : Bool} {v : Word} {ack : Bool} (h : ¬d.vsetCovers b) :
    d.vsetWrite b v ack = d.storeRw (vsetAddr b) v := by
  rw [vsetWrite_eq]
  split
  · exact if_neg (mt (vsetCovers_iff d b).mp h)
  · rfl

/-- The modes that VSET covers have a voltage. -/
theorem vset_covered {d : Dev} {b : Bool} (h : d.vsetCovers b) (e : Dev) : e.vset d.mode = some ((e.vset d.mode).getD 0) := by
  have hModes : d.mode ∈ [modeIdle, modeStrike, modeRoll, modeSurge, modeAssured, modeProof] := by
    cases b
    · obtain ⟨h2, h5⟩ : 2 ≤ d.mode ∧ d.mode ≤ 5 := h
      have : d.mode = 2 ∨ d.mode = 3 ∨ d.mode = 4 ∨ d.mode = 5 := by omega
      rcases this with k | k | k | k <;> simp [k, modeIdle, modeStrike, modeRoll, modeSurge, modeAssured, modeProof]
    · obtain k | k : d.mode = modeProof ∨ d.mode = modeAssured := h <;> simp [k]
  generalize d.mode = m at hModes
  simp only [List.mem_cons, List.not_mem_nil, or_false] at hModes
  rcases hModes with rfl | rfl | rfl | rfl | rfl | rfl <;> rfl

theorem vsetWrite_asked {d : Dev} {b : Bool} {v : Word} (h : d.vsetCovers b) (hEn : d.flag powerBase Reg.PMB_CFG.EN = true)
    (hProof : d.proving (serialBase 2) = false) (hNone : d.power.voutReq = none) :
    d.vsetWrite b v true = (d.storeRw (vsetAddr b) v).voltAsked (((d.storeRw (vsetAddr b) v).vset d.mode).getD 0) .vset := by
  obtain ⟨hPower, _, _, hFlag, hProving⟩ := storeVset_leaves d b v
  rw [vsetWrite_eq, vset_covered h]
  refine (if_pos ((vsetCovers_iff d b).mpr h)).trans ?_
  rw [vout_taken _ _ _ (by rw [hFlag, hEn]) (by rw [hProving, hProof]) (by rw [hPower, hNone])]
  rfl

section
variable {s : State} {path : Fin 8} {b : Bool} {v : Word} (hq : s.dev.quiet = true) (hReach : s.dev.reached path (vsetAddr b) = true)
include hq hReach

theorem vsetWrite_elsewhere {ack : Bool} (h : ¬s.dev.vsetCovers b) : Completes (.vsetWrite path b v ack) s fun e =>
    e = { s.dev with regs := e.regs, ctl := e.ctl } ∧ e = { s.dev.storeRw (vsetAddr b) v with ctl := e.ctl } ∧ e.answered path stOk 0 := by
  have hOp := vsetWrite_stored (v := v) (ack := ack) h
  refine completes_viaWord (f := fun d => d.vsetWrite b v ack) rfl hReach ?_ ?_
  · rw [hOp, (storeVset_leaves s.dev b v).2.1, hq]
  · rw [hOp]
    refine ⟨?_, rfl, finish_answered ..⟩
    rw [← storeRw_regs s.dev]
    rfl

theorem vsetWrite_covers (h : s.dev.vsetCovers b) (hEn : s.dev.flag powerBase Reg.PMB_CFG.EN = true)
    (hProof : s.dev.proving (serialBase 2) = false) (hNone : s.dev.power.voutReq = none) :
    Completes (.vsetWrite path b v true) s fun e =>
      e.power = { s.dev.power with
        voutMv := (e.vset s.dev.mode).getD 0, voutReq := some { mv := (e.vset s.dev.mode).getD 0, why := .vset } } ∧
      e.reg (vsetAddr b) = (s.dev.storeRw (vsetAddr b) v).reg (vsetAddr b) ∧ e.answered path stOk 0 ∧
      OnlyParts [.regs, .ctl, .power] s.dev e := by
  obtain ⟨hPower, hQuiet, _, _, _⟩ := storeVset_leaves s.dev b v
  have hOp := vsetWrite_asked (v := v) h hEn hProof hNone
  have hApart : ∀ b, vsetAddr b ≠ powerBase + Reg.PMB_STATUS.PMB_ERR.off := by decide
  refine completes_viaWord (f := fun d => d.vsetWrite b v true) rfl hReach ?_ ?_
  · rw [hOp, Dev.voltAsked, quiet_modPower, quiet_setFld _ _ _ _ (by decide), hQuiet, hq]
  · have hVset (mv : Nat) (m : Nat) : (((s.dev.storeRw (vsetAddr b) v).voltAsked mv .vset).finish path stOk 0).vset m =
        (s.dev.storeRw (vsetAddr b) v).vset m :=
      vset_setFld (d := s.dev.storeRw (vsetAddr b) v) (n := 0) (f := Reg.PMB_STATUS.PMB_ERR) rfl (by decide) (by decide) m
    rw [hOp]
    refine ⟨?_, ?_, finish_answered .., ?_⟩
    · rw [hVset, finish_power, Dev.voltAsked, modPower_power, setFld_power, hPower]
    · rw [reg_finish, Dev.voltAsked, reg_modPower, reg_setFld, if_neg (hApart b)]
    · simpa [Dev.voltAsked] using (storeRw_frame s.dev (vsetAddr b) v).1.mono (by simp)

end

/-! ## Requests for domains -/

/-- What requests for domains change: the domain controller's registers and records, and no domain's ON is withdrawn. -/
structure DomainsAsked (d e : Dev) : Prop where
  parts : OnlyParts [.regs, .power] d e
  below : ∀ a < pdBase, e.reg a = d.reg a
  kept : ∀ k, d.fld pdBase (Reg.PD.ON.elem k) = 1 → e.fld pdBase (Reg.PD.ON.elem k) = 1

theorem DomainsAsked.trans {c d e : Dev} (h1 : DomainsAsked c d) (h2 : DomainsAsked d e) : DomainsAsked c e :=
  ⟨h1.parts.trans h2.parts, fun a ha => (h2.below a ha).trans (h1.below a ha), fun k h => h2.kept k (h1.kept k h)⟩

theorem DomainsAsked.refl (d : Dev) : DomainsAsked d d := ⟨by simp, fun _ _ => rfl, fun _ h => h⟩

/-- A domain's ON set to 1. -/
def Dev.askOn (d : Dev) (k : Nat) : Dev := d.setFld pdBase (Reg.PD.ON.elem k) 1

theorem fld_askOn_same (d : Dev) (k : Nat) : (d.askOn k).fld pdBase (Reg.PD.ON.elem k) = 1 :=
  fld_setFld_lt (f := Reg.PD.ON.elem k) (by rw [show (Reg.PD.ON.elem k).fits = Reg.PD.ON.fits from rfl]; decide)
    (by rw [show (Reg.PD.ON.elem k).width = Reg.PD.ON.width from rfl]; decide)

theorem domainsAsked_askOn (d : Dev) (k : Nat) : DomainsAsked d (d.askOn k) := by
  refine ⟨by simp [Dev.askOn], fun a ha => ?_, fun j h => ?_⟩
  · rw [Dev.askOn, reg_setFld, if_neg (by omega)]
  · by_cases hj : j = k
    · rw [hj, fld_askOn_same]
    · rw [Dev.askOn, fld_setFld_other (by simp only [Fld.elem, Reg.PD.ON]; omega), h]

theorem domainsAsked_modPower (d : Dev) (f : PowerRec → PowerRec) : DomainsAsked d (d.modPower f) := ⟨by simp, fun _ _ => rfl, fun _ h => h⟩

theorem domainsAsked_setPd (d : Dev) (k st : Nat) : DomainsAsked d (d.setPd k st) := by
  refine ⟨by simp [Dev.setPd], fun a ha => ?_, fun j h => ?_⟩
  · rw [Dev.setPd, reg_setFld, if_neg (by omega)]
  · rw [← h]
    by_cases hj : j = k
    · rw [hj]
      exact fld_setFld_apart rfl (by decide : Reg.PD.STATE.apart Reg.PD.ON)
    · exact fld_setFld_other (by simp only [Fld.elem, Reg.PD.ON, Reg.PD.STATE]; omega)

theorem domainsAsked_beginRamp (d : Dev) (k : Nat) : DomainsAsked d (d.beginRamp k) := by
  unfold Dev.beginRamp
  split
  · exact (domainsAsked_setPd d k pdRamping).trans (domainsAsked_modPower _ _)
  · exact domainsAsked_modPower _ _

theorem domainsAsked_foldl {α : Type} {f : Dev → α → Dev} (hf : ∀ d x, DomainsAsked d (f d x)) (l : List α) (d : Dev) :
    DomainsAsked d (l.foldl f d) := by
  induction l generalizing d with
  | nil => exact .refl d
  | cons x xs ih => exact (hf d x).trans (ih _)

theorem domainsAsked_requestOn (n : Nat) (d : Dev) (k : Nat) : DomainsAsked d (d.requestOn n k) := by
  induction n generalizing d k with
  | zero => exact .refl d
  | succ n ih =>
    rw [Dev.requestOn]
    have hPrereqs := domainsAsked_foldl (fun d p => ih d p) (domainPrereqs k) d
    split
    · exact hPrereqs.trans ((domainsAsked_askOn _ k).trans (domainsAsked_beginRamp _ k))
    · exact hPrereqs

/-- A domain that is turned on with its prerequisites. -/
def Dev.askDomain (d : Dev) (k : Nat) : Dev := (d.askOn k).requestOn domainDepth k

theorem domainsAsked_askDomain (d : Dev) (k : Nat) : DomainsAsked d (d.askDomain k) :=
  (domainsAsked_askOn d k).trans (domainsAsked_requestOn _ _ _)

/-- Every domain of a list is on request afterwards. -/
theorem each_askDomain (l : List Nat) (d : Dev) : ∀ k ∈ l, (d.each l Dev.askDomain).fld pdBase (Reg.PD.ON.elem k) = 1 := by
  induction l generalizing d with
  | nil => exact fun k hk => absurd hk List.not_mem_nil
  | cons j js ih =>
    intro k hk
    rcases List.mem_cons.mp hk with rfl | hTail
    · refine (domainsAsked_foldl domainsAsked_askDomain js (d.askDomain k)).kept k ?_
      exact (domainsAsked_requestOn _ _ _).kept k (fld_askOn_same d k)
    · exact ih _ k hTail

/-! ## A wake from DORMANT -/

theorem fioStart_starts (d : Dev) : NetsStay d d.fioStart ∧ d.fioStart.clk.fio = .starting ∧ ∀ a, powerBase ≤ a → d.fioStart.reg a = d.reg a := by
  refine ⟨((netsStay_modClk rfl rfl rfl rfl).trans (netsStay_setFld (.inr (by decide)) (by decide))).trans (showSources_stay _), rfl,
    fun a ha => ?_⟩
  have hShow (c : Dev) : c.showSources.reg a = c.reg a := by
    have hApart (f : Fld) (hf : f.off < 0x1000) : ¬a = clkBase + f.off := by
      simp only [powerBase, clkBase] at ha ⊢
      omega
    unfold Dev.showSources
    dsimp only
    rw [reg_setFld, if_neg (hApart _ (by decide)), reg_setFld, if_neg (hApart _ (by decide)), reg_setFld, if_neg (hApart _ (by decide)),
      reg_setFld, if_neg (hApart _ (by decide))]
  rw [Dev.fioStart, hShow, reg_setFld, if_neg, reg_modClk]
  simp only [powerBase, monitorBase, monFio, Reg.MON_STATUS.RUNNING] at ha ⊢
  omega

/-- START as a wake source enters it. -/
def Dev.woken (d : Dev) : Dev := (d.raise powerBase Reg.MODE_EVENT.WAKE).setMode modeStart

theorem woken_leaves (d : Dev) : d.woken.modeStatus = (modeStart, d.fld powerBase Reg.MODE_STATUS.CHANGING) ∧
    d.woken.fld powerBase Reg.MODE_EVENT.WAKE = 1 ∧ OnlyParts [.regs] d d.woken ∧ d.woken.quiet = d.quiet := by
  refine ⟨Prod.ext ?_ ?_, ?_, by simp [Dev.woken, Dev.setMode], ?_⟩
  · rw [Dev.modeStatus, Dev.woken, Dev.setMode, Dev.raise, fld_setFld_clear (by decide), fld_setFld_lt (by decide) (by decide)]
  · rw [Dev.modeStatus, Dev.woken, Dev.setMode, Dev.raise, Dev.raise]
    dsimp only
    rw [fld_setFld_clear (g := Reg.MODE_STATUS.CHANGING) (by decide), fld_setFld_clear (g := Reg.MODE_STATUS.CHANGING) (by decide),
      fld_setFld_clear (g := Reg.MODE_STATUS.CHANGING) (by decide)]
  · rw [Dev.woken, Dev.setMode, Dev.raise, fld_setFld_clear (by decide), fld_setFld_clear (by decide),
      fld_raise_same (by decide) (by decide)]
  · rw [Dev.woken, Dev.setMode, quiet_raise _ _ _ (by decide), quiet_setFld _ _ _ _ (by decide), quiet_raise _ _ _ (by decide)]

/-- The start runs from step 3. -/
structure Woken (d e : Dev) : Prop where
  status : e.modeStatus = (modeStart, d.fld powerBase Reg.MODE_STATUS.CHANGING)
  event : e.fld powerBase Reg.MODE_EVENT.WAKE = 1
  load : e.load = { d.load with step := .fio }
  fio : e.clk.fio = .starting
  domains : ∀ k ∈ startDomains, e.fld pdBase (Reg.PD.ON.elem k) = 1
  parts : OnlyParts [.regs, .clk, .load, .power] d e
  quiet : e.quiet = d.quiet

theorem wake_enabled {d : Dev} {en : Fld} (hMode : d.mode = modeDormant) (hEn : d.flag powerBase en = true) : Woken d (d.wake en) := by
  obtain ⟨hStatus, hEvent, hParts, hQuiet⟩ := woken_leaves d
  generalize hf : (d.woken.each startDomains Dev.askDomain).modLoad (fun l => { l with step := .fio }) = f
  have hWake : d.wake en = f.fioStart := by
    rw [Dev.wake, if_pos ⟨hMode, hEn⟩, ← hf]
    rfl
  have hAsked : DomainsAsked d.woken (d.woken.each startDomains Dev.askDomain) := domainsAsked_foldl domainsAsked_askDomain _ _
  obtain ⟨hNets, hFio, hRegs⟩ := fioStart_starts f
  have hFld (b : Nat) (g : Fld) (hb : powerBase ≤ b) : f.fioStart.fld b g = f.fld b g := by
    rw [Dev.fld, hRegs _ (by omega), Dev.fld]
  have hPower (g : Fld) (hg : g.off < 0x1000) : f.fioStart.fld powerBase g = d.woken.fld powerBase g := by
    rw [hFld _ _ (Nat.le_refl _), ← hf, fld_modLoad, Dev.fld, hAsked.below _ (by simp only [powerBase, pdBase]; omega), Dev.fld]
  have hFParts : OnlyParts [.regs, .load, .power] d f := by
    rw [← hf]
    refine (hParts.mono (by simp)).trans ?_
    simpa using hAsked.parts.mono (by simp)
  have hLoad : f.load = { d.load with step := .fio } := by
    rw [← hf, modLoad_load, hAsked.parts .load (by simp), hParts .load (by simp)]
  rw [hWake]
  refine ⟨?_, (hPower _ (by decide)).trans hEvent, ?_, hFio, fun k hk => ?_, ?_, ?_⟩
  · rw [← hStatus, Dev.modeStatus, hPower _ (by decide), hPower _ (by decide), Dev.modeStatus]
  · rw [← hLoad]
    exact hNets.parts .load (by simp)
  · rw [hFld _ _ (by decide), ← hf, fld_modLoad]
    exact each_askDomain _ _ k hk
  · exact (hFParts.mono (by simp)).trans (hNets.parts.mono (by simp))
  · rw [hNets.quiet, ← hf, quiet_modLoad, ← hQuiet]
    exact quiet_congr (hAsked.parts .kryup (by simp)) (hAsked.parts .clk (by simp)) (hAsked.below _ (by decide))
      (by rw [hAsked.parts .stack (by simp)])

theorem Woken.completes {c : Instr} {s : State} {f : Dev → Dev} {P : Dev → Prop} (he : exec c s = onDev f s) (hq : s.dev.quiet = true)
    (h : Woken s.dev (f s.dev))
    (hP : ∀ e : Dev, e.modeStatus = (modeStart, s.dev.fld powerBase Reg.MODE_STATUS.CHANGING) → e.fld powerBase Reg.MODE_EVENT.WAKE = 1 →
      e.load = { s.dev.load with step := .fio } → e.clk.fio = .starting → (∀ k ∈ startDomains, e.fld pdBase (Reg.PD.ON.elem k) = 1) →
      OnlyParts [.regs, .clk, .load, .power] s.dev e → P e) : Completes c s P :=
  completes_quiet he (h.quiet.trans hq) (hP _ h.status h.event h.load h.fio h.domains h.parts)

/-- Settles O53, a clause each: requests by `modeReq_…`, their voltages by `settleDone_…`, entries by `modeEntered_roll`, and a wake by
`wake_enabled`. -/
theorem modesAreEnteredAndLeft : Obligations.ModesAreEnteredAndLeft := by
  unfold Obligations.ModesAreEnteredAndLeft
  intro s path t ack b amps v hquiet d w status refused fits mv begun
  have hq : s.dev.quiet = true := hquiet
  refine ⟨fun hReach => ⟨modeReq_same hq hReach, fun hMode _ hStill hBar => modeReq_refused hq hReach hMode hStill hBar,
      fun hMode hStage => modeReq_busy hq hReach hMode hStage, fun hRoll hFits hNone => ?_⟩,
    fun x hReq hStage hTarget hMode => ⟨settleDone_goesOn hq hReq hStage hTarget hMode, settleDone_fails hq hReq hStage⟩,
    fun hStage hTarget hMode hVolt hFree => modeEntered_roll hq hStage hTarget hMode hVolt hFree,
    fun hOn hEn hProof => ⟨?_, readIout_early hq⟩, ?_⟩
  · obtain ⟨hRuns, hOther, hImage, hStage⟩ := hFits
    exact ⟨modeReq_roll_suffices hq hReach hRoll hRuns hOther hImage hStage hNone, fun hVolt hEn hProof =>
      ⟨modeReq_roll_waits hq hReach hRoll hRuns hOther hImage hStage hNone hVolt hEn hProof,
        modeReq_roll_fails hq hReach hRoll hRuns hOther hImage hStage hVolt hEn⟩⟩
  · intro hDue
    exact ⟨readIout_stored hq hOn hEn hProof hDue, readIout_failed hq hOn hEn hProof hDue⟩
  · constructor
    · intro a covers hReach
      exact ⟨vsetWrite_elsewhere hq hReach, fun hCovers hEn hProof hNone => vsetWrite_covers hq hReach hCovers hEn hProof hNone⟩
    · intro hMode wakes
      have hWakes {c : Instr} {f : Dev → Dev} (he : exec c s = onDev f s) (h : Woken s.dev (f s.dev)) : Completes c s wakes :=
        h.completes he hq fun e h1 h2 h3 h4 h5 h6 => ⟨h1, h2, h3, h4, h5, h6⟩
      refine ⟨fun hEn => hWakes (f := opWakeN) rfl (wake_enabled hMode hEn), fun hEn => hWakes (f := opSpi1CsWake) rfl (wake_enabled hMode hEn),
        fun hEn hDue => hWakes (f := opDormTimer) rfl ?_, fun hOff => ?_⟩
      · have hOp : opDormTimer s.dev = s.dev.wake Reg.PWR_CFG.WAKE_TICK_EN := if_pos hDue
        rw [hOp]
        exact wake_enabled hMode hEn
      · have hOp : opWakeN s.dev = s.dev := by
          rw [opWakeN, Dev.wake, if_neg fun h => ?_]
          rw [hOff] at h
          exact Bool.false_ne_true h.2
        exact completes_quiet (f := opWakeN) rfl (by rw [hOp, hq]) hOp

end Sys2Proof.Machine

/-! # Power domains (R424 to R427) -/

namespace Sys2Proof.Machine

set_option Elab.async false

/-! ## A domain's register -/

/-- The address of PDd. -/
def pdAddr (k : Nat) : Nat := pdBase + (Reg.PD.ON.elem k).off

theorem pdAddr_eq (k : Nat) : pdAddr k = pdBase + 0x100 + 4 * k := by
  simp only [pdAddr, Fld.elem, Reg.PD.ON]
  omega

/-- The fields of PDd. -/
def pdFlds : List Fld := [Reg.PD.ON, Reg.PD.STATE, Reg.PD.PGOOD, Reg.PD.HELD]

theorem pdFlds_off {f : Fld} (hf : f ∈ pdFlds) : f.off = Reg.PD.off ∧ f.fits ∧ 0 < f.width := by
  simp only [pdFlds, List.mem_cons, List.not_mem_nil, or_false] at hf
  rcases hf with rfl | rfl | rfl | rfl <;> decide

theorem pdFld_addr {f : Fld} (hf : f ∈ pdFlds) (k : Nat) : pdBase + (f.elem k).off = pdAddr k := by
  have hOff : (f.elem k).off = (Reg.PD.ON.elem k).off := congrArg (· + 4 * k) (pdFlds_off hf).1
  rw [hOff, pdAddr]

section
variable {d : Dev} {f g : Fld} {j k n : Nat} (hf : f ∈ pdFlds)
include hf

theorem fld_setPdFld_same (hn : n < 2 ^ f.width) : (d.setFld pdBase (f.elem k) n).fld pdBase (f.elem k) = n :=
  fld_setFld_lt (f := f.elem k) (pdFlds_off hf).2.1 hn

theorem fld_setPdFld_apart (hg : g ∈ pdFlds) (h : f.apart g) : (d.setFld pdBase (f.elem k) n).fld pdBase (g.elem j) = d.fld pdBase (g.elem j) := by
  have hOff : g.off = f.off := (pdFlds_off hg).1.trans (pdFlds_off hf).1.symm
  by_cases hj : j = k
  · subst hj
    exact fld_setFld_apart (by simp only [Fld.elem, hOff]) h
  · exact fld_setFld_other (by simp only [Fld.elem]; omega)

theorem fld_setPdFld_other (hg : g ∈ pdFlds) (h : j ≠ k) : (d.setFld pdBase (f.elem k) n).fld pdBase (g.elem j) = d.fld pdBase (g.elem j) := by
  have hOff : g.off = f.off := (pdFlds_off hg).1.trans (pdFlds_off hf).1.symm
  exact fld_setFld_other (by simp only [Fld.elem]; omega)

theorem reg_setPdFld {a : Nat} (ha : a ≠ pdAddr k) : (d.setFld pdBase (f.elem k) n).reg a = d.reg a := by
  rw [reg_setFld, pdFld_addr hf, if_neg ha]

omit hf in
theorem quiet_setPdFld : (d.setFld pdBase (f.elem k) n).quiet = d.quiet := by
  have hBelow : rootBase + Reg.IRQ_CTRL.off < pdBase := by decide
  exact quiet_setFld _ _ _ _ (by omega)

end

theorem pd_reg {d e : Dev} {k : Nat} (h : e.reg (pdAddr k) = d.reg (pdAddr k)) {f : Fld} (hf : f ∈ pdFlds) :
    e.fld pdBase (f.elem k) = d.fld pdBase (f.elem k) := by
  rw [Dev.fld, pdFld_addr hf, h, Dev.fld, pdFld_addr hf]

/-! ## A request and its prerequisites -/

/-- The height of a domain in the order of R424: a prerequisite stands lower. -/
def domainHeight (k : Nat) : Nat :=
  if k = 0 then 0 else if k = 1 then 1 else if k = 3 ∨ k = 4 then 3 else if k < 32 then 2 else if k < 36 then 3 else 4

theorem domainPrereqs_lower {k p : Nat} (hk : k < 40) (hp : p ∈ domainPrereqs k) : p < 40 ∧ domainHeight p < domainHeight k := by
  have hAll : ∀ k : Fin 40, ∀ p ∈ domainPrereqs k, p < 40 ∧ domainHeight p < domainHeight k := by decide
  exact hAll ⟨k, hk⟩ p hp

/-- Requests for domains of a set: those that are off may be asked for, and nothing else changes. -/
structure Ramps (R : Nat → Prop) (d e : Dev) : Prop where
  parts : OnlyParts [.regs, .power] d e
  regs : ∀ a, (∀ j, R j → d.pd j = pdOff → a ≠ pdAddr j) → e.reg a = d.reg a
  ticks : ∀ j, ¬(R j ∧ d.pd j = pdOff) → e.power.rampTick.look j = d.power.rampTick.look j
  power : e.power = { d.power with rampTick := e.power.rampTick, waiting := e.power.waiting }

section
variable {R : Nat → Prop} {c d e : Dev}

theorem Ramps.refl (d : Dev) : Ramps R d d := ⟨by simp, fun _ _ => rfl, fun _ _ => rfl, rfl⟩

theorem Ramps.kept (h : Ramps R d e) {j : Nat} (hj : ¬(R j ∧ d.pd j = pdOff)) : e.reg (pdAddr j) = d.reg (pdAddr j) := by
  refine h.regs _ fun i hi hOff hEq => hj ?_
  rw [pdAddr_eq, pdAddr_eq] at hEq
  obtain rfl : j = i := by omega
  exact ⟨hi, hOff⟩

theorem Ramps.pd (h : Ramps R d e) {j : Nat} (hj : ¬(R j ∧ d.pd j = pdOff)) : e.pd j = d.pd j :=
  pd_reg (h.kept hj) (f := Reg.PD.STATE) (by simp [pdFlds])

/-- No domain goes off. -/
theorem Ramps.off (h : Ramps R d e) {j : Nat} (hj : e.pd j = pdOff) : d.pd j = pdOff := by
  by_contra hOn
  exact hOn ((h.pd fun k => hOn k.2).symm.trans hj)

theorem Ramps.trans (h1 : Ramps R c d) (h2 : Ramps R d e) : Ramps R c e := by
  refine ⟨h1.parts.trans h2.parts, fun a ha => ?_, fun j hj => ?_, ?_⟩
  · rw [h2.regs a fun j hR hOff => ha j hR (h1.off hOff), h1.regs a ha]
  · rw [h2.ticks j fun h => hj ⟨h.1, h1.off h.2⟩, h1.ticks j hj]
  · rw [h2.power, h1.power]

theorem Ramps.mono {S : Nat → Prop} (h : Ramps R d e) (hRS : ∀ j, R j → S j) : Ramps S d e :=
  ⟨h.parts, fun a ha => h.regs a fun j hR hOff => ha j (hRS j hR) hOff, fun j hj => h.ticks j fun k => hj ⟨hRS j k.1, k.2⟩, h.power⟩

theorem ramps_setPdFld {f : Fld} (hf : f ∈ pdFlds) {k n : Nat} (hR : R k) (hOff : d.pd k = pdOff) : Ramps R d (d.setFld pdBase (f.elem k) n) :=
  ⟨by simp, fun _ ha => reg_setPdFld hf (ha k hR hOff), fun _ _ => rfl, rfl⟩

end

/-- The Tick of a domain's request, kept from the first. -/
def Dev.noteRamp (d : Dev) (k : Nat) (w : List Nat) : Dev :=
  d.modPower fun p => { p with rampTick := p.rampTick.put k (p.rampTick.at k d.tick), waiting := w }

theorem ramps_noteRamp {R : Nat → Prop} {c d : Dev} {k : Nat} (w : List Nat) (h : Ramps R c d) (hR : R k) (hOff : c.pd k = pdOff) :
    Ramps R c (d.noteRamp k w) := by
  refine ⟨by simpa [Dev.noteRamp] using h.parts, h.regs, fun j hj => ?_, ?_⟩
  · have hjk : j ≠ k := fun hEq => hj ⟨hEq ▸ hR, hEq ▸ hOff⟩
    rw [← h.ticks j hj, Dev.noteRamp, modPower_power, SMap.look_put_other _ hjk]
  · rw [Dev.noteRamp, modPower_power, h.power]

theorem beginRamp_eq (d : Dev) (k : Nat) : d.beginRamp k =
    if (domainPrereqs k).all d.domainOn then (d.setPd k pdRamping).noteRamp k (d.power.waiting.filter (· != k))
    else d.noteRamp k (if d.power.waiting.contains k then d.power.waiting else d.power.waiting ++ [k]) := rfl

theorem ramps_beginRamp {R : Nat → Prop} {d : Dev} {k : Nat} (hR : R k) (hOff : d.pd k = pdOff) :
    Ramps R d ((d.askOn k).beginRamp k) := by
  have hAsk : Ramps R d (d.askOn k) := ramps_setPdFld (by simp [pdFlds]) hR hOff
  have hStill : (d.askOn k).pd k = pdOff := by
    rw [← hOff]
    exact fld_setPdFld_apart (by simp [pdFlds]) (by simp [pdFlds]) (by decide)
  rw [beginRamp_eq]
  split
  · exact ramps_noteRamp _ (hAsk.trans (ramps_setPdFld (by simp [pdFlds]) hR hStill)) hR hOff
  · exact ramps_noteRamp _ hAsk hR hOff

theorem ramps_foldl {R : Nat → Prop} {f : Dev → Nat → Dev} (l : List Nat) (hf : ∀ d, ∀ p ∈ l, Ramps R d (f d p)) (d : Dev) :
    Ramps R d (l.foldl f d) := by
  induction l generalizing d with
  | nil => exact .refl d
  | cons x xs ih => exact (hf d x List.mem_cons_self).trans (ih (fun d p hp => hf d p (List.mem_cons_of_mem _ hp)) _)

/-- Domains that stand lower than a domain. -/
def below (k : Nat) (j : Nat) : Prop := j < 40 ∧ domainHeight j < domainHeight k

theorem ramps_prereqs {n k : Nat} (hk : k < 40)
    (ih : ∀ (d : Dev) (p : Nat), p < 40 → Ramps (fun j => j = p ∨ below p j) d (d.requestOn n p)) (d : Dev) :
    Ramps (below k) d ((domainPrereqs k).foldl (fun d p => d.requestOn n p) d) := by
  refine ramps_foldl _ (fun d p hp => ?_) d
  obtain ⟨hLt, hLower⟩ := domainPrereqs_lower hk hp
  refine (ih d p hLt).mono fun j hj => ?_
  rcases hj with rfl | ⟨hjLt, hjLower⟩
  · exact ⟨hLt, hLower⟩
  · exact ⟨hjLt, Nat.lt_trans hjLower hLower⟩

theorem ramps_requestOn (n : Nat) (d : Dev) (k : Nat) (hk : k < 40) : Ramps (fun j => j = k ∨ below k j) d (d.requestOn n k) := by
  induction n generalizing d k with
  | zero => exact .refl d
  | succ n ih =>
    have hPrereqs := (ramps_prereqs hk ih d).mono (S := fun j => j = k ∨ below k j) fun _ h => .inr h
    rw [Dev.requestOn]
    split
    · rename_i hOff
      exact hPrereqs.trans (ramps_beginRamp (.inl rfl) (eq_of_beq hOff))
    · exact hPrereqs

/-- A domain asked for whose prerequisites are on. -/
def Dev.ramped (d : Dev) (k : Nat) : Dev := ((d.askOn k).setPd k pdRamping).noteRamp k (d.power.waiting.filter (· != k))

theorem beginRamp_ramped {d : Dev} {k : Nat} (hOn : (domainPrereqs k).all (d.askOn k).domainOn = true) :
    (d.askOn k).beginRamp k = d.ramped k := by
  rw [beginRamp_eq, if_pos hOn]
  rfl

theorem ramped_leaves (d : Dev) (k : Nat) : (d.ramped k).pd k = pdRamping ∧ (d.ramped k).fld pdBase (Reg.PD.ON.elem k) = 1 ∧
    (d.ramped k).power.rampTick.look k = some (d.power.rampTick.at k d.tick) ∧ (d.ramped k).power.waiting.contains k = false := by
  have hOn : ((d.askOn k).setPd k pdRamping).fld pdBase (Reg.PD.ON.elem k) = 1 := by
    rw [Dev.setPd, fld_setPdFld_apart (by simp [pdFlds]) (by simp [pdFlds]) (by decide), fld_askOn_same]
  have hState : ((d.askOn k).setPd k pdRamping).pd k = pdRamping := fld_setPdFld_same (by simp [pdFlds]) (by decide)
  refine ⟨?_, ?_, ?_, by simp [Dev.ramped, Dev.noteRamp]⟩
  · rw [Dev.pd, Dev.ramped, Dev.noteRamp, fld_modPower, ← Dev.pd, hState]
  · rw [Dev.ramped, Dev.noteRamp, fld_modPower, hOn]
  · rw [Dev.ramped, Dev.noteRamp, modPower_power, SMap.look_put_same, Dev.setPd, setFld_power, Dev.askOn, setFld_power, Dev.tick, setFld_clk,
      setFld_clk, Dev.tick]

theorem pd_askOn (d : Dev) (j k : Nat) : (d.askOn k).pd j = d.pd j :=
  fld_setPdFld_apart (f := Reg.PD.ON) (g := Reg.PD.STATE) (by simp [pdFlds]) (by simp [pdFlds]) (by decide)

section
variable {d c : Dev} {k : Nat} (hk : k < 40) (hOff : d.pd k = pdOff) (hOn : (domainPrereqs k).all d.domainOn = true)
  (h : Ramps (below k) d c)
include hk hOff hOn h

omit hk hOn in
/-- Requests for lower domains leave a domain off, and those on stay so. -/
theorem Ramps.ready (hOn : (domainPrereqs k).all d.domainOn = true) :
    c.pd k = pdOff ∧ (domainPrereqs k).all (c.askOn k).domainOn = true ∧ c.power.rampTick.at k c.tick = d.power.rampTick.at k d.tick := by
  have hNotBelow : ¬(below k k ∧ d.pd k = pdOff) := fun h => Nat.lt_irrefl _ h.1.2
  refine ⟨(h.pd hNotBelow).trans hOff, ?_, ?_⟩
  · rw [List.all_eq_true] at hOn ⊢
    intro p hp
    have hp2 : d.pd p = pdOn := eq_of_beq (hOn p hp)
    refine beq_iff_eq.mpr ?_
    rw [pd_askOn, h.pd fun hLow => absurd (hLow.2.symm.trans hp2) (by decide), hp2]
  · have hTick : c.tick = d.tick := congrArg ClockRec.tick (h.parts .clk (by simp))
    rw [hTick]
    unfold SMap.at
    rw [h.ticks k hNotBelow]

end

/-- A domain that is off and whose prerequisites are on ramps. -/
theorem requestOn_ramping {d : Dev} {k : Nat} (n : Nat) (hk : k < 40) (hOff : d.pd k = pdOff) (hOn : (domainPrereqs k).all d.domainOn = true) :
    ∃ c, Ramps (below k) d c ∧ d.requestOn (n + 1) k = c.ramped k := by
  have hPrereqs := ramps_prereqs hk (n := n) (fun d p hp => ramps_requestOn n d p hp) d
  refine ⟨_, hPrereqs, ?_⟩
  obtain ⟨hStill, hAll, _⟩ := hPrereqs.ready hOff hOn
  rw [Dev.requestOn, if_pos (beq_iff_eq.mpr hStill)]
  exact beginRamp_ramped hAll

/-- No transition goes on where none runs. -/
theorem modeStep_rest {d : Dev} (h : d.power.stage = 0) : d.modeStep modeSteps = d := by
  rw [modeSteps, Dev.modeStep]
  simp only [h]

theorem Ramps.quiet {R : Nat → Prop} {d e : Dev} (h : Ramps R d e) : e.quiet = d.quiet := by
  have hIrq (j : Nat) : rootBase + Reg.IRQ_CTRL.off ≠ pdAddr j := by
    have hBelow : rootBase + Reg.IRQ_CTRL.off < pdBase := by decide
    rw [pdAddr_eq]
    omega
  have hStack : e.stack = d.stack := h.parts .stack (by simp)
  exact quiet_congr (h.parts .kryup (by simp)) (h.parts .clk (by simp)) (h.regs _ fun j _ _ => hIrq j) (by rw [hStack])

/-! ## Writes of PDd.ON -/

section
variable {s : State} {path : Fin 8} {k : Fin 40} (hq : s.dev.quiet = true) (hStage : s.dev.power.stage = 0)
  (hReach : s.dev.reached path (pdAddr k) = true)
include hq hStage hReach

theorem pdWrite_completes {on : Bool} {e : Dev} {P : Dev → Prop} (he : s.dev.pdWrite k on = e) (hPower : e.power.stage = s.dev.power.stage)
    (hQuiet : e.quiet = s.dev.quiet) (hP : P (e.finish path stOk 0)) : Completes (.pdWrite path k on) s P := by
  have hOp : (s.dev.pdWrite k on).modeStep modeSteps = e := by
    rw [he]
    exact modeStep_rest (hPower.trans hStage)
  unfold pdAddr at hReach
  refine completes_quiet (f := opPdWrite path k on) rfl ?_ ?_
  · rw [opPdWrite, viaCtl_reached hReach, quiet_finish, hOp, hQuiet, hq]
  · rw [opPdWrite, viaCtl_reached hReach, hOp]
    exact hP

theorem pdWrite_ramps (hOff : s.dev.pd k = pdOff) (hOn : (domainPrereqs k).all s.dev.domainOn = true) :
    Completes (.pdWrite path k true) s fun e =>
      e.fld pdBase (Reg.PD.ON.elem k) = 1 ∧ e.pd k = pdRamping ∧ e.power.rampTick.look k = some (s.dev.power.rampTick.at k s.dev.tick) ∧
      e.power.waiting.contains k.val = false ∧ e.power = { s.dev.power with rampTick := e.power.rampTick, waiting := e.power.waiting } ∧
      (∀ j : Fin 40, s.dev.pd j ≠ pdOff →
        e.reg (pdAddr j) = s.dev.reg (pdAddr j) ∧ e.power.rampTick.look j = s.dev.power.rampTick.look j) ∧
      e.answered path stOk 0 ∧ OnlyParts [.regs, .ctl, .power] s.dev e ∧ OnlyRegs ((List.range 40).map pdAddr) s.dev e := by
  have hAsk : Ramps (fun j => j = k ∨ below k j) s.dev (s.dev.askOn k) := ramps_setPdFld (by simp [pdFlds]) (.inl rfl) hOff
  have hOffAsk : (s.dev.askOn k).pd k = pdOff := (pd_askOn _ _ _).trans hOff
  have hOnAsk : (domainPrereqs k).all (s.dev.askOn k).domainOn = true := by
    rw [List.all_eq_true] at hOn ⊢
    intro p hp
    rw [← hOn p hp, Dev.domainOn, Dev.domainOn, pd_askOn]
  obtain ⟨c, hLower, hReq⟩ := requestOn_ramping 5 k.isLt hOffAsk hOnAsk
  obtain ⟨_, _, hTick⟩ := hLower.ready hOffAsk hOnAsk
  have hAll := hAsk.trans (ramps_requestOn 6 (s.dev.askOn k) k k.isLt)
  obtain ⟨hRamping, hOne, hLook, hWaiting⟩ := ramped_leaves c k
  rw [hReq] at hAll
  rw [hTick] at hLook
  refine pdWrite_completes hq hStage hReach (e := c.ramped k) hReq (by rw [hAll.power]) hAll.quiet
    ⟨?_, ?_, hLook, hWaiting, hAll.power, fun j hj => ⟨?_, hAll.ticks j fun h => hj h.2⟩, finish_answered .., ?_, fun a ha => ?_⟩
  · rw [fld_finish, hOne]
  · rw [Dev.pd, fld_finish, ← Dev.pd, hRamping]
  · rw [reg_finish, hAll.kept fun h => hj h.2]
  · simpa using hAll.parts.mono (by simp)
  · rw [reg_finish]
    refine hAll.regs a fun j hR _ hEq => ha (List.mem_map.mpr ⟨j, List.mem_range.mpr ?_, hEq.symm⟩)
    rcases hR with rfl | hR
    · exact k.isLt
    · exact hR.1

theorem pdWrite_refused (h : k.val < 2 ∨ s.dev.dependentOn k = true) :
    Completes (.pdWrite path k false) s fun e =>
      e.fld pdBase Reg.PD_EVENT.DEP_REJECT = 1 ∧ e.answered path stOk 0 ∧ OnlyParts [.regs, .ctl] s.dev e ∧
      OnlyRegs [pdBase + Reg.PD_EVENT.DEP_REJECT.off] s.dev e := by
  have hOp : s.dev.pdWrite k false = s.dev.raise pdBase Reg.PD_EVENT.DEP_REJECT := by
    rw [Dev.pdWrite, if_neg Bool.false_ne_true, if_pos (by simpa using h)]
  refine pdWrite_completes hq hStage hReach hOp rfl (quiet_raise _ _ _ (by decide)) ⟨?_, finish_answered .., by simp, by simp⟩
  rw [fld_finish, fld_raise_same (by decide) (by decide)]

end

end Sys2Proof.Machine

/-! # Domains of one unit: power that comes and goes (R424 to R427) -/

namespace Sys2Proof.Machine

set_option Elab.async false

/-! ## What the loss of one unit's power spares -/

/-- Below a unit's window nothing changes but STATE and EVENT of units, and the records of power, clocks, Kryup and the stack stay. -/
structure Spares (b : Nat) (d e : Dev) : Prop where
  power : e.power = d.power
  kryup : e.kryup = d.kryup
  clk : e.clk = d.clk
  stack : e.stack = d.stack
  low : ∀ a < b, a % 0x1000 ≠ Reg.STATE.off → a % 0x1000 ≠ Reg.EVENT.off → e.reg a = d.reg a

/-- The unit's own sequencer stands as well. -/
def SparesUnit (b : Nat) (d e : Dev) : Prop := Spares b d e ∧ e.ust b = d.ust b

section
variable {b : Nat} {c d e : Dev}

theorem Spares.trans (h1 : Spares b c d) (h2 : Spares b d e) : Spares b c e :=
  ⟨h2.power.trans h1.power, h2.kryup.trans h1.kryup, h2.clk.trans h1.clk, h2.stack.trans h1.stack,
    fun a ha hs he => (h2.low a ha hs he).trans (h1.low a ha hs he)⟩

theorem SparesUnit.trans (h1 : SparesUnit b c d) (h2 : SparesUnit b d e) : SparesUnit b c e := ⟨h1.1.trans h2.1, h2.2.trans h1.2⟩

theorem SparesUnit.refl (d : Dev) : SparesUnit b d d := ⟨⟨rfl, rfl, rfl, rfl, fun _ _ _ _ => rfl⟩, rfl⟩

/-- A change of no register and of none of the records spared. -/
theorem sparesUnit_of_parts {l : List Part} (h : OnlyParts l d e) (hl : ∀ p ∈ [Part.regs, .power, .kryup, .clk, .stack], p ∉ l) :
    SparesUnit b d e := by
  have hRegs : e.regs = d.regs := h .regs (hl _ (by simp))
  have hReg (a : Nat) : e.reg a = d.reg a := by rw [Dev.reg, hRegs, Dev.reg]
  refine ⟨⟨h .power (hl _ (by simp)), h .kryup (hl _ (by simp)), h .clk (hl _ (by simp)), h .stack (hl _ (by simp)), fun a _ _ _ => hReg a⟩, ?_⟩
  rw [Dev.ust, Dev.fld, hReg, Dev.ust, Dev.fld]

/-- A register written from the unit's own ones on. -/
theorem sparesUnit_setReg {a : Nat} {v : Word} (h : b + Reg.STATE.off < a) : SparesUnit b d (d.setReg a v) := by
  refine ⟨⟨rfl, rfl, rfl, rfl, fun a' ha _ _ => ?_⟩, ?_⟩
  · rw [reg_setReg, if_neg (by omega)]
  · rw [Dev.ust, Dev.fld, reg_setReg, if_neg (show b + Reg.STATE.SELF.off ≠ a from Nat.ne_of_lt h), Dev.ust, Dev.fld]

theorem sparesUnit_setFld {u n : Nat} {f : Fld} (h : b + Reg.STATE.off < u + f.off) : SparesUnit b d (d.setFld u f n) :=
  sparesUnit_setReg h

/-- The proof of a unit is over. -/
theorem sparesUnit_proof (m : SMap ProofRec) : SparesUnit b d { d with proof := m } := by
  refine sparesUnit_of_parts (l := [.proof]) (fun p hp => ?_) (by decide)
  cases p <;> first | rfl | exact absurd (by simp) hp

theorem sparesUnit_each {α : Type} {f : Dev → α → Dev} (hf : ∀ d x, SparesUnit b d (f d x)) (l : List α) (d : Dev) :
    SparesUnit b d (d.each l f) := by
  induction l generalizing d with
  | nil => exact .refl d
  | cons x xs ih => exact (hf d x).trans (ih _)

theorem Spares.quiet (hb : 0x1000 ≤ b) (h : Spares b d e) : e.quiet = d.quiet :=
  quiet_congr h.kryup h.clk (h.low _ (Nat.lt_of_lt_of_le (by decide) hb) (by decide) (by decide)) (by rw [h.stack])

theorem Spares.pdFld (hb : 0x32000 ≤ b) (h : Spares b d e) {k : Nat} (hk : k < 40) {f : Fld} (hf : f ∈ pdFlds) :
    e.fld pdBase (f.elem k) = d.fld pdBase (f.elem k) := by
  refine pd_reg (h.low _ ?_ ?_ ?_) hf <;> simp only [pdAddr_eq, pdBase, Reg.STATE.off, Reg.EVENT.off] <;> omega

end

/-! ## The configuration controller's storage -/

section
variable {d : Dev}

theorem spares_plates {n : Nat} {f : Fld} (h : 0x28 ≤ f.off) : SparesUnit configBase d (d.setFld configBase f n) :=
  sparesUnit_setFld (by simp only [Reg.STATE.off]; omega)

theorem spares_slotAbandon (g s : Nat) : SparesUnit configBase d (d.slotAbandon g s) :=
  spares_plates (by simp only [Reg.PSLOT_G.off]; omega)

theorem spares_modPlates (f : PlateRec → PlateRec) : SparesUnit configBase d (d.modPlates f) :=
  sparesUnit_of_parts (parts_modPlates d f) (by decide)

theorem spares_plateAbandon (d : Dev) : SparesUnit configBase d d.plateAbandon := by
  have hData (d : Dev) : SparesUnit configBase d (d.setData none) := by
    unfold Dev.setData
    exact (spares_modPlates _).trans (spares_plates (by decide))
  have hUnpend (d : Dev) (g : Nat) : SparesUnit configBase d (d.unpend g) := by
    unfold Dev.unpend
    refine (spares_modPlates _).trans (spares_plates ?_)
    simp only [Fld.elem, Reg.PSLOT_G.PENDING]
    omega
  have hEnd (d : Dev) : SparesUnit configBase d ((d.setData none).modPlates fun p => { p with stream := [], reloads := [] }).unpendAll := by
    unfold Dev.unpendAll
    exact ((hData d).trans (spares_modPlates _)).trans (sparesUnit_each hUnpend _ _)
  unfold Dev.plateAbandon
  have hFill (s : Nat) : SparesUnit configBase d ((d.setStage s stageEmpty).setStageInfo s (d.stagePlate s) 0) := by
    refine (spares_plates (Nat.le_of_ble_eq_true rfl)).trans ((spares_plates ?_).trans (spares_plates ?_))
    · simp only [Fld.elem, Reg.STAGE_INFO.PLATE]
      omega
    · simp only [Fld.elem, Reg.STAGE_INFO.VALID]
      omega
  refine SparesUnit.trans ?_ (hEnd _)
  split
  · exact hFill _
  · exact hFill _
  · refine sparesUnit_each (fun d g => ?_) _ _
    split
    · exact spares_slotAbandon _ _
    · exact .refl d
  · exact spares_slotAbandon _ _
  · exact .refl d

end

/-! ## The units of CONFIG, CRYPTO and STRIKE -/

/-- A domain that holds one unit alone, and that unit. -/
def SingleDomain (k b : Nat) : Prop := k = 2 ∧ b = configBase ∨ k = 5 ∧ b = cryptoBase ∨ k = 7 ∧ b = strikeBase

theorem SingleDomain.facts {k b : Nat} (h : SingleDomain k b) :
    domainUnits k = [b] ∧ k < 32 ∧ k ≠ 3 ∧ k ≠ 4 ∧ Hard b ∧ 0x32000 ≤ b ∧ b < 0x300000 ∧ b ≠ formeBase ∧
      (unitOf b).blk ∈ [Blk.config, .crypto, .strike] := by
  rcases h with ⟨rfl, rfl⟩ | ⟨rfl, rfl⟩ | ⟨rfl, rfl⟩ <;> exact ⟨rfl, by decide, by decide, by decide, ⟨rfl, by decide⟩, by decide, by decide, by decide, by decide⟩

/-- What holds of the unit holds of the domain's units. -/
theorem SingleDomain.all {k b : Nat} (hs : SingleDomain k b) {P : Nat → Prop} (h : P b) : ∀ c ∈ domainUnits k, P c := by
  intro c hc
  rw [hs.facts.1, List.mem_singleton] at hc
  exact hc ▸ h

/-- No user unit has logic in such a domain. -/
theorem domainUsers_none (d : Dev) {k : Nat} (hk : k < 32) : d.domainUsers k = [] := by
  have hNot (u : UserUnit) : u.domains.contains k = false := by
    rw [← Bool.not_eq_true, List.contains_iff_mem]
    unfold UserUnit.domains
    simp only [List.append_eq, List.mem_append, List.mem_map, List.mem_filter, List.mem_range]
    rintro (⟨q, _, hq⟩ | ⟨q, _, hq⟩) <;> omega
  unfold Dev.domainUsers
  rw [List.filter_eq_nil_iff.mpr fun e _ => by rw [hNot]; simp]
  rfl

theorem parts_modUser (d : Dev) (u : Nat) (f : UserUnit → UserUnit) : OnlyParts [.units] d (d.modUser u f) := by
  unfold Dev.modUser
  split
  · intro p hp
    cases p <;> first | rfl | exact absurd (by simp) hp
  · simp

section
variable {k b : Nat} (hs : SingleDomain k b) (d : Dev)
include hs

theorem single_kinds : b = configBase ∨ b = cryptoBase ∨ b = strikeBase := by
  rcases hs with ⟨_, h⟩ | ⟨_, h⟩ | ⟨_, h⟩ <;> simp [h]

theorem spares_discardWork : SparesUnit b d (d.discardWork b) := by
  rcases single_kinds hs with rfl | rfl | rfl
  · show SparesUnit configBase d (if d.plates.pending.items == [] then d.plateAbandon
      else d.plateAbandon.raise configBase Reg.PLATE_EVENT.CANCELLED)
    split
    · exact spares_plateAbandon d
    · exact (spares_plateAbandon d).trans (spares_plates (by decide))
  · show SparesUnit cryptoBase d (d.refuseReqs cryptoBase)
    unfold Dev.refuseReqs
    exact sparesUnit_of_parts (parts_modExt d _) (by decide)
  · exact .refl d

theorem spares_fenceNotes (f : Fld) (u : Nat) : SparesUnit b d (d.fenceNotes u f) := by
  have hLt := hs.facts.2.2.2.2.2.2.1
  have hTile (layer : Nat) (d : Dev) (c : Nat) : SparesUnit b d (d.tileRaise layer c f) := by
    unfold Dev.tileRaise
    dsimp only
    split
    · exact .refl d
    · exact sparesUnit_setFld (by simp only [columnBase, Reg.STATE.off]; omega)
  exact (sparesUnit_each (hTile 2) _ d).trans (sparesUnit_each (hTile 4) _ _)

theorem spares_releaseBack : SparesUnit b d (d.releaseBack b) := by
  have hUser (d : Dev) (f : UserUnit → UserUnit) : SparesUnit b d (d.modUser b f) :=
    sparesUnit_of_parts (parts_modUser d b f) (by decide)
  have hDrop : d.dropRequest b = d := if_neg fun h => hs.facts.2.2.2.2.2.2.2.1 h.1
  have hInit : SparesUnit b d (d.loadInit b) := by
    unfold Dev.loadInit
    exact sparesUnit_of_parts (parts_modFabric d _) (by decide)
  have hHeld := (hInit.trans (spares_fenceNotes hs (d.loadInit b) Reg.TILE_EVENT.FENCE_ENGAGED b)).trans
    (hUser _ fun u => { u with rel := .held, relTarget := none, readySeen := false })
  unfold Dev.releaseBack
  rw [hDrop]
  dsimp only
  split
  · exact hHeld
  · exact hHeld
  · exact hUser _ _
  · exact .refl d

omit hs in
theorem spares_resetRegs : SparesUnit b d (d.resetRegs (powerLost b)) := by
  have hKept (a : Nat) (ha : a < b + 0x2C) : (d.resetRegs (powerLost b)).reg a = d.reg a := by
    have hNot : powerLost b a = false := by
      unfold powerLost
      rw [decide_eq_false (by omega)]
      rfl
    rw [reg_resetRegs, hNot]
    rfl
  refine ⟨⟨rfl, rfl, rfl, rfl, fun a ha _ _ => hKept a (by omega)⟩, ?_⟩
  rw [Dev.ust, Dev.fld, hKept _ (by simp only [Reg.STATE.SELF]; omega), Dev.ust, Dev.fld]

theorem spares_powerLostRecord : SparesUnit b d (d.powerLostRecord b) := by
  have hProof : SparesUnit b d { d with proof := d.proof.del b } := sparesUnit_proof _
  have hReset : SparesUnit b d (d.resetRecord b) := by
    rcases single_kinds hs with rfl | rfl | rfl
    · exact hProof.trans (spares_plateAbandon _)
    · exact hProof
    · exact hProof
  have hRepair : repairShown b Reg.MEM_STATUS.off = false := by
    rcases single_kinds hs with rfl | rfl | rfl <;> decide
  unfold Dev.powerLostRecord
  rw [hRepair]
  exact hReset

theorem spares_stateHook (o n : UState) : SparesUnit b d (d.stateHook b o n) := by
  rcases single_kinds hs with rfl | rfl | rfl
  · exact .refl d
  · exact .refl d
  · have hHook : d.stateHook strikeBase o n = (match n with
        | .running | .degraded => d.proofHook strikeBase n
        | _ => (d.proofHook strikeBase n).busySees busyState) := rfl
    have hProof : SparesUnit strikeBase d (d.proofHook strikeBase n) := by
      have hFld (d : Dev) (f : Fld) (v : Nat) : SparesUnit strikeBase d (d.setFld (strikeBase + 0x200) f v) :=
        sparesUnit_setFld (by simp only [Reg.STATE.off]; omega)
      unfold Dev.proofHook
      rw [show proofOff strikeBase = some 0x200 from by decide]
      dsimp only
      split
      · exact .refl d
      · split
        · exact (sparesUnit_setReg (by simp only [Reg.STATE.off]; omega)).trans (sparesUnit_proof _)
        · exact .refl d
        · exact .refl d
        · exact hFld _ _ _
        · exact ((hFld _ _ _).trans (hFld _ _ _)).trans (hFld _ _ _)
    have hBusy (d : Dev) : SparesUnit strikeBase d (d.busySees busyState) := by
      unfold Dev.busySees
      exact sparesUnit_of_parts (parts_modStrike d _) (by decide)
    rw [hHook]
    split
    · exact hProof
    · exact hProof
    · exact hProof.trans (hBusy _)

/-- A change of the unit's state. -/
theorem spares_setUst (u : UState) : Spares b d (d.setUst b u) ∧ (d.setUst b u).ust b = u := by
  obtain ⟨_, _, _, _, hHard, _, _, _, _⟩ := hs.facts
  by_cases hu : d.ust b = u
  · rw [Dev.setUst, if_pos hu]
    exact ⟨(SparesUnit.refl d).1, hu⟩
  · have hSelf : Spares b d (d.setFld b Reg.STATE.SELF u.code) := by
      refine ⟨rfl, rfl, rfl, rfl, fun a ha _ _ => ?_⟩
      rw [reg_setFld, if_neg (by omega)]
    have hEntered (d : Dev) : Spares b d (d.entered b u) := by
      have hParts := entered_parts d b u
      refine ⟨hParts .power (by simp), hParts .kryup (by simp), hParts .clk (by simp), hParts .stack (by simp), fun a ha _ _ => ?_⟩
      exact reg_entered d b u a (by omega)
    have hRefresh (d : Dev) (n : Nat) : Spares b d (d.refresh n b) := by
      have hParts := refresh_parts n d b
      exact ⟨hParts .power (by simp), hParts .kryup (by simp), hParts .clk (by simp), hParts .stack (by simp),
        fun a _ hState hEvent => reg_refresh n d b hHard a hState hEvent⟩
    have hHook := spares_stateHook hs ((d.setFld b Reg.STATE.SELF u.code).entered b u) (d.ust b) u
    rw [Dev.setUst, if_neg hu]
    refine ⟨((hSelf.trans (hEntered _)).trans hHook.1).trans (hRefresh _ _), ?_⟩
    rw [ust_refresh _ hHard, hHook.2, ust_entered]

/-- The unit enters OFF. -/
theorem spares_unitOff : Spares b d (d.unitOff b) ∧ (d.unitOff b).ust b = .off := by
  by_cases hOff : d.ust b = .off
  · rw [Dev.unitOff, hOff]
    exact ⟨(SparesUnit.refl d).1, hOff⟩
  · obtain ⟨c, hWork, hUnit⟩ : ∃ c, SparesUnit b d c ∧ d.unitOff b =
        ((((c.releaseBack b).cancelSeq b).resetRegs (powerLost b)).powerLostRecord b).setUst b .off := by
      unfold Dev.unitOff
      split
      · rename_i h
        exact absurd h hOff
      · split
        · exact ⟨_, spares_discardWork hs d, rfl⟩
        · exact ⟨_, spares_discardWork hs d, rfl⟩
        · exact ⟨_, spares_discardWork hs d, rfl⟩
        · exact ⟨d, .refl d, rfl⟩
    have hCancel (d : Dev) : SparesUnit b d (d.cancelSeq b) := by
      unfold Dev.cancelSeq
      exact sparesUnit_of_parts (parts_modUnits d _) (by decide)
    have hBefore := (((hWork.trans (spares_releaseBack hs c)).trans (hCancel _)).trans (spares_resetRegs _)).trans
      (spares_powerLostRecord hs _)
    obtain ⟨hAfter, hUst⟩ := spares_setUst hs ((((c.releaseBack b).cancelSeq b).resetRegs (powerLost b)).powerLostRecord b) .off
    rw [hUnit]
    exact ⟨hBefore.1.trans hAfter, hUst⟩

/-- The domain loses its power. -/
theorem spares_domainLost : Spares b d (d.domainLost k) ∧ (d.domainLost k).ust b = .off := by
  obtain ⟨hUnits, hLt, _⟩ := hs.facts
  have hStorage (d : Dev) : SparesUnit b d (d.storageLost k) := by
    rcases hs with ⟨rfl, rfl⟩ | ⟨rfl, rfl⟩ | ⟨rfl, rfl⟩
    · exact spares_plateAbandon d
    · exact sparesUnit_of_parts (parts_modExt d fun x => { x with slots := {} }) (by decide)
    · exact sparesUnit_of_parts (parts_modStrike d fun s =>
        { s with capA := {}, capB := {}, holdCap := 16, busySeen := 0, busyLeft := 0, refused := false, driven := false }) (by decide)
  have hLost : d.domainLost k = (d.unitOff b).storageLost k := by
    rw [Dev.domainLost, Dev.unitsLost, domainUsers_none d hLt, hUnits]
    rfl
  obtain ⟨hSpares, hOff⟩ := spares_unitOff hs d
  rw [hLost]
  exact ⟨hSpares.trans (hStorage _).1, (hStorage _).2.trans hOff⟩

end

/-! ## PDd as a domain is turned off, fails or turns on -/

/-- The Tick of a domain's request and its place among those that wait are forgotten. -/
def Dev.forgetRamp (d : Dev) (k : Nat) : Dev :=
  d.modPower fun p => { p with rampTick := p.rampTick.del k, waiting := p.waiting.filter (· != k) }

/-- PDd of a domain that is turned off. -/
def Dev.pdEnds (d : Dev) (k : Nat) : Dev :=
  ((((d.setPd k pdOff).setFld pdBase (Reg.PD.ON.elem k) 0).setFld pdBase (Reg.PD.HELD.elem k) 0).setFld pdBase
    (Reg.PD.PGOOD.elem k) 0).forgetRamp k

theorem ust_setPdFld {d : Dev} {b k n : Nat} {f : Fld} (hb : 0x32000 ≤ b) (hk : k < 40) (hf : f ∈ pdFlds) :
    (d.setFld pdBase (f.elem k) n).ust b = d.ust b := by
  have hAddr := pdFld_addr hf k
  have hEq := pdAddr_eq k
  rw [Dev.ust, fld_setFld_other, Dev.ust]
  rw [hAddr, hEq]
  simp only [pdBase]
  omega

theorem pdEnds_leaves (d : Dev) {k : Nat} (hk : k < 40) :
    (d.pdEnds k).fld pdBase (Reg.PD.ON.elem k) = 0 ∧ (d.pdEnds k).pd k = pdOff ∧ (d.pdEnds k).fld pdBase (Reg.PD.PGOOD.elem k) = 0 ∧
      (∀ b, 0x32000 ≤ b → (d.pdEnds k).ust b = d.ust b) ∧ (d.pdEnds k).quiet = d.quiet ∧
      (d.pdEnds k).power = { d.power with rampTick := d.power.rampTick.del k, waiting := d.power.waiting.filter (· != k) } := by
  have hOn : Reg.PD.ON ∈ pdFlds := by simp [pdFlds]
  have hState : Reg.PD.STATE ∈ pdFlds := by simp [pdFlds]
  have hGood : Reg.PD.PGOOD ∈ pdFlds := by simp [pdFlds]
  have hHeld : Reg.PD.HELD ∈ pdFlds := by simp [pdFlds]
  refine ⟨?_, ?_, ?_, fun b hb => ?_, ?_, rfl⟩
  · rw [Dev.pdEnds, Dev.forgetRamp, fld_modPower, fld_setPdFld_apart hGood hOn (by decide), fld_setPdFld_apart hHeld hOn (by decide),
      fld_setPdFld_same hOn (by decide)]
  · rw [Dev.pd, Dev.pdEnds, Dev.forgetRamp, fld_modPower, fld_setPdFld_apart hGood hState (by decide),
      fld_setPdFld_apart hHeld hState (by decide), fld_setPdFld_apart hOn hState (by decide), Dev.setPd, fld_setPdFld_same hState (by decide)]
  · rw [Dev.pdEnds, Dev.forgetRamp, fld_modPower, fld_setPdFld_same hGood (by decide)]
  · rw [Dev.pdEnds, Dev.forgetRamp, ust_modPower, ust_setPdFld hb hk hGood, ust_setPdFld hb hk hHeld, ust_setPdFld hb hk hOn, Dev.setPd, ust_setPdFld hb hk hState]
  · rw [Dev.pdEnds, Dev.forgetRamp, quiet_modPower, quiet_setPdFld, quiet_setPdFld, quiet_setPdFld, Dev.setPd, quiet_setPdFld]

/-- PDd of a domain in FAULT. -/
def Dev.pdFaults (d : Dev) (k : Nat) : Dev := ((d.setPd k pdFault).setFld pdBase (Reg.PD.PGOOD.elem k) 0).forgetRamp k

theorem pdFaults_leaves (d : Dev) {k : Nat} (hk : k < 40) :
    (d.pdFaults k).fld pdBase (Reg.PD.ON.elem k) = d.fld pdBase (Reg.PD.ON.elem k) ∧ (d.pdFaults k).pd k = pdFault ∧
      (d.pdFaults k).fld pdBase (Reg.PD.PGOOD.elem k) = 0 ∧ (∀ b, 0x32000 ≤ b → (d.pdFaults k).ust b = d.ust b) ∧
      (d.pdFaults k).quiet = d.quiet ∧
      (d.pdFaults k).power = { d.power with rampTick := d.power.rampTick.del k, waiting := d.power.waiting.filter (· != k) } ∧
      OnlyParts [.regs, .power] d (d.pdFaults k) ∧ OnlyRegs [pdAddr k] d (d.pdFaults k) := by
  have hOn : Reg.PD.ON ∈ pdFlds := by simp [pdFlds]
  have hState : Reg.PD.STATE ∈ pdFlds := by simp [pdFlds]
  have hGood : Reg.PD.PGOOD ∈ pdFlds := by simp [pdFlds]
  refine ⟨?_, ?_, ?_, fun b hb => ?_, ?_, rfl, by simp [Dev.pdFaults, Dev.forgetRamp, Dev.setPd], fun a ha => ?_⟩
  · rw [Dev.pdFaults, Dev.forgetRamp, fld_modPower, fld_setPdFld_apart hGood hOn (by decide), Dev.setPd,
      fld_setPdFld_apart hState hOn (by decide)]
  · rw [Dev.pd, Dev.pdFaults, Dev.forgetRamp, fld_modPower, fld_setPdFld_apart hGood hState (by decide), Dev.setPd,
      fld_setPdFld_same hState (by decide)]
  · rw [Dev.pdFaults, Dev.forgetRamp, fld_modPower, fld_setPdFld_same hGood (by decide)]
  · rw [Dev.pdFaults, Dev.forgetRamp, ust_modPower, ust_setPdFld hb hk hGood, Dev.setPd, ust_setPdFld hb hk hState]
  · rw [Dev.pdFaults, Dev.forgetRamp, quiet_modPower, quiet_setPdFld, Dev.setPd, quiet_setPdFld]
  · have hNot : a ≠ pdAddr k := fun h => ha (List.mem_singleton.mpr h)
    rw [Dev.pdFaults, Dev.forgetRamp, reg_modPower, reg_setPdFld hGood hNot, Dev.setPd, reg_setPdFld hState hNot]

/-! ## A domain of one unit is turned off -/

theorem pdWrite_off {s : State} {path : Fin 8} {k : Fin 40} {b : Nat} (hq : s.dev.quiet = true) (hStage : s.dev.power.stage = 0)
    (hReach : s.dev.reached path (pdAddr k) = true) (hs : SingleDomain k b) (hFree : s.dev.dependentOn k = false)
    (hOn : s.dev.pd k = pdOn) :
    Completes (.pdWrite path k false) s fun e =>
      e.fld pdBase (Reg.PD.ON.elem k) = 0 ∧ e.pd k = pdOff ∧ e.fld pdBase (Reg.PD.PGOOD.elem k) = 0 ∧ (∀ b ∈ domainUnits k, e.ust b = .off) ∧
      (e.power.rampTick.look k = none ∧ e.power.waiting = s.dev.power.waiting.filter (· != k.val)) ∧ e.answered path stOk 0 := by
  obtain ⟨_, hLt, h3, h4, _, hLow, _, _, _⟩ := hs.facts
  have hTwo : ¬k.val < 2 := by
    rcases hs with ⟨h, _⟩ | ⟨h, _⟩ | ⟨h, _⟩ <;> omega
  have hYields : s.dev.domainYields k = s.dev.domainLost k := by
    rw [Dev.domainYields, if_neg (by omega), Dev.domainLost]
  have hOp : s.dev.pdWrite k false = (s.dev.domainLost k).pdEnds k := by
    rw [Dev.pdWrite, if_neg Bool.false_ne_true, if_neg (by simp [hTwo, hFree]), Dev.turnOff]
    simp only [h3, h4, or_self, false_and, if_false, hOn, show ¬pdOn = pdOff by decide, hYields]
    rfl
  obtain ⟨hSpares, hUnit⟩ := spares_domainLost hs s.dev
  obtain ⟨hZero, hOff, hGood, hUst, hQuiet, hPower⟩ := pdEnds_leaves (s.dev.domainLost k) k.isLt
  rw [hSpares.power] at hPower
  refine pdWrite_completes hq hStage hReach hOp (by rw [hPower]) (hQuiet.trans (hSpares.quiet (by omega)))
    ⟨?_, ?_, ?_, ?_, ⟨?_, ?_⟩, finish_answered ..⟩
  · rw [fld_finish, hZero]
  · rw [Dev.pd, fld_finish, ← Dev.pd, hOff]
  · rw [fld_finish, hGood]
  · exact hs.all (by rw [Dev.ust, fld_finish, ← Dev.ust, hUst b hLow, hUnit])
  · rw [finish_power, hPower, SMap.look_del_same]
  · rw [finish_power, hPower]

/-! ## A domain fails -/

/-- The events of the domain controller that tell of a failure. -/
def failEvents : List Fld := [Reg.PD_EVENT.RAMP_FAIL, Reg.PD_EVENT.PG_LOST]

theorem failEvents_fit {f : Fld} (hf : f ∈ failEvents) : f.off = 0x1A0 ∧ f.fits ∧ 0 < f.width := by
  simp only [failEvents, List.mem_cons, List.not_mem_nil, or_false] at hf
  rcases hf with rfl | rfl <;> decide

/-- A domain's fault and its event, before Kryup hears of it. -/
def Dev.pdFails (d : Dev) (k : Nat) (f : Fld) : Dev := (d.pdFaults k).raise pdBase f

section
variable {d e : Dev} {k : Nat} {f : Fld} (hk : k < 40) (hf : f ∈ failEvents)
include hk hf

theorem pdFails_leaves (hq : d.quiet = true) : (d.pdFails k f).quiet = true ∧ (d.pdFails k f).latched causeDomain = d.latched causeDomain ∧
    (d.pdFails k f).power = { d.power with rampTick := d.power.rampTick.del k, waiting := d.power.waiting.filter (· != k) } := by
  obtain ⟨_, _, _, _, hQuiet, hPower, _, hRegs⟩ := pdFaults_leaves d hk
  obtain ⟨hOff, _, _⟩ := failEvents_fit hf
  have hEq := pdAddr_eq k
  refine ⟨?_, ?_, hPower⟩
  · have hIrq : rootBase + Reg.IRQ_CTRL.off < pdBase := by decide
    rw [Dev.pdFails, quiet_raise _ _ _ (by omega), hQuiet, hq]
  · have hApart : kryupBase + Reg.CAUSE_PEND.LATCH.off < pdBase := by decide
    rw [Dev.latched, Dev.pdFails, reg_raise, if_neg (by omega), hRegs _ (by rw [List.mem_singleton]; omega), Dev.latched]

/-- What a failure shows, whatever Kryup's own registers then do. -/
theorem pdFails_shows (hRegs : OnlyRegs [kryupBase + Reg.KRY_STATUS.HOLD.off] (d.pdFails k f) e) :
    e.pd k = pdFault ∧ e.fld pdBase (Reg.PD.PGOOD.elem k) = 0 ∧ e.fld pdBase f = 1 ∧
      e.fld pdBase (Reg.PD.ON.elem k) = d.fld pdBase (Reg.PD.ON.elem k) ∧ ∀ b, 0x32000 ≤ b → e.ust b = d.ust b := by
  obtain ⟨hOn, hFault, hGood, hUst, _, _, _, _⟩ := pdFaults_leaves d hk
  obtain ⟨hOff, hFits, hWidth⟩ := failEvents_fit hf
  have hReg (a : Nat) (ha : pdBase ≤ a) : e.reg a = (d.pdFails k f).reg a := by
    refine hRegs a fun h => ?_
    have hLow : kryupBase + Reg.KRY_STATUS.HOLD.off < pdBase := by decide
    rw [List.mem_singleton] at h
    omega
  have hPd {g : Fld} (hg : g ∈ pdFlds) : e.fld pdBase (g.elem k) = (d.pdFaults k).fld pdBase (g.elem k) := by
    have hAddr := pdFld_addr hg k
    have hEq := pdAddr_eq k
    rw [Dev.fld, hReg _ (by omega), ← Dev.fld, Dev.pdFails, Dev.raise, fld_setFld_other (by omega)]
  refine ⟨(hPd (by simp [pdFlds])).trans hFault, (hPd (by simp [pdFlds])).trans hGood, ?_, (hPd (by simp [pdFlds])).trans hOn, fun b hb => ?_⟩
  · rw [Dev.fld, hReg _ (by omega), ← Dev.fld, Dev.pdFails, fld_raise_same hFits hWidth]
  · have hBase : pdBase + 0x1000 = 0x32000 := rfl
    have hApart : b + Reg.STATE.SELF.off ≠ pdBase + f.off := by
      rw [hOff]
      omega
    rw [← hUst b hb, Dev.ust, Dev.fld, hReg _ (by omega), Dev.pdFails, reg_raise, if_neg hApart, ← Dev.fld, ← Dev.ust]

end

/-- A domain that fails offers POWER_DOMAIN, whose latch is set; `d` is the machine once the domain's storage is lost. -/
theorem domainFails_completes {c : Instr} {s : State} {g : Dev → Dev} {k : Nat} {f : Fld} {P : Dev → Prop} {d : Dev} (hk : k < 40)
    (hf : f ∈ failEvents) (he : exec c s = onDev g s) (hg : g s.dev = s.dev.domainFails k f)
    (hFault : s.dev.domainFault k = d.pdFaults k) (hq : d.quiet = true) (hStage : d.power.stage = 0) (hLatched : d.latched causeDomain = true)
    (hP : ∀ e : Dev, e.power = (d.pdFails k f).power → OnlyParts [.regs, .kryup] (d.pdFails k f) e →
      OnlyRegs [kryupBase + Reg.KRY_STATUS.HOLD.off] (d.pdFails k f) e → P e) : Completes c s P := by
  obtain ⟨hQuiet, hLatch, hPower⟩ := pdFails_leaves hk hf hq
  have hOp : g s.dev = (d.pdFails k f).offer causeDomain (BitVec.ofNat 32 k) := by
    rw [hg, Dev.domainFails, hFault, modeStep_rest]
    · rfl
    · show (d.pdFails k f).power.stage = 0
      rw [hPower, hStage]
  obtain ⟨_, _, hParts, hRegs⟩ := arrivesAgain_leaves (hLatch.trans hLatched)
  refine (completes_iff he).mpr ?_
  rw [hOp, settle_offer_latched hQuiet (hLatch.trans hLatched)]
  exact hP _ (hParts .power (by simp)) hParts hRegs

section
variable {s : State} {k : Fin 40} (hq : s.dev.quiet = true) (hStage : s.dev.power.stage = 0) (hLatched : s.dev.latched causeDomain = true)
include hq hStage hLatched

theorem rampFail_faults (hRamping : s.dev.pd k = pdRamping) (hLate : s.dev.power.rampTick.at k s.dev.tick + 4 ≤ s.dev.tick) :
    Completes (.rampFail k) s fun e =>
      e.pd k = pdFault ∧ e.fld pdBase (Reg.PD.PGOOD.elem k) = 0 ∧ e.fld pdBase Reg.PD_EVENT.RAMP_FAIL = 1 ∧
      e.fld pdBase (Reg.PD.ON.elem k) = s.dev.fld pdBase (Reg.PD.ON.elem k) ∧
      (e.power.rampTick.look k = none ∧ e.power.waiting = s.dev.power.waiting.filter (· != k.val)) ∧
      OnlyParts [.regs, .power, .kryup] s.dev e ∧
      OnlyRegs [pdAddr k, pdBase + Reg.PD_EVENT.DEP_REJECT.off, kryupBase + Reg.KRY_STATUS.HOLD.off] s.dev e := by
  have hEvent : Reg.PD_EVENT.RAMP_FAIL ∈ failEvents := by simp [failEvents]
  have hFault : s.dev.domainFault k = s.dev.pdFaults k := by
    unfold Dev.domainFault
    rw [if_neg (by rw [hRamping]; decide)]
    rfl
  have hOp : opRampFail k s.dev = s.dev.domainFails k Reg.PD_EVENT.RAMP_FAIL := by
    rw [opRampFail, Dev.coming, if_pos (by simp [hRamping, hLate])]
  obtain ⟨_, _, hPower⟩ := pdFails_leaves k.isLt hEvent hq
  obtain ⟨_, _, _, _, _, _, hParts, hRegs⟩ := pdFaults_leaves s.dev k.isLt
  refine domainFails_completes (g := opRampFail k) k.isLt hEvent rfl hOp hFault hq hStage hLatched fun e hP hE hR => ?_
  obtain ⟨hFaulted, hGood, hRaised, hOn, _⟩ := pdFails_shows k.isLt hEvent hR
  refine ⟨hFaulted, hGood, hRaised, hOn, ⟨by rw [hP, hPower, SMap.look_del_same], by rw [hP, hPower]⟩, ?_, fun a ha => ?_⟩
  · refine OnlyParts.trans ?_ (hE.mono (by simp))
    simpa [Dev.pdFails] using hParts.mono (by simp)
  · simp only [List.mem_cons, List.not_mem_nil, or_false, not_or] at ha
    obtain ⟨hPd, hEv, hKryup⟩ := ha
    rw [hR a (by rw [List.mem_singleton]; exact hKryup), Dev.pdFails, reg_raise, if_neg (show ¬a = pdBase + Reg.PD_EVENT.RAMP_FAIL.off from hEv), hRegs a (by rw [List.mem_singleton]; exact hPd)]

theorem pgLost_faults {b : Nat} (hs : SingleDomain k b) (hOn : s.dev.pd k = pdOn) :
    Completes (.pgLost k) s fun e =>
      e.pd k = pdFault ∧ e.fld pdBase (Reg.PD.PGOOD.elem k) = 0 ∧ e.fld pdBase Reg.PD_EVENT.PG_LOST = 1 ∧
      e.fld pdBase (Reg.PD.ON.elem k) = s.dev.fld pdBase (Reg.PD.ON.elem k) ∧ (∀ b ∈ domainUnits k, e.ust b = .off) ∧
      (e.power.rampTick.look k = none ∧ e.power.waiting = s.dev.power.waiting.filter (· != k.val)) := by
  obtain ⟨_, _, _, _, _, hLow, _, _, _⟩ := hs.facts
  have hEvent : Reg.PD_EVENT.PG_LOST ∈ failEvents := by simp [failEvents]
  have hFault : s.dev.domainFault k = (s.dev.domainLost k).pdFaults k := by
    unfold Dev.domainFault
    rw [if_pos hOn]
    rfl
  have hOp : opPgLost k s.dev = s.dev.domainFails k Reg.PD_EVENT.PG_LOST := if_pos hOn
  obtain ⟨hSpares, hUnit⟩ := spares_domainLost hs s.dev
  have hQuiet : (s.dev.domainLost k).quiet = true := (hSpares.quiet (by omega)).trans hq
  have hLatch : (s.dev.domainLost k).latched causeDomain = true := by
    have hApart : kryupBase + Reg.CAUSE_PEND.LATCH.off < 0x32000 := by decide
    rw [Dev.latched, hSpares.low _ (by omega) (by decide) (by decide), ← Dev.latched, hLatched]
  obtain ⟨_, _, hPower⟩ := pdFails_leaves k.isLt hEvent hQuiet
  refine domainFails_completes (g := opPgLost k) k.isLt hEvent rfl hOp hFault hQuiet (by rw [hSpares.power, hStage]) hLatch fun e hP hE hR => ?_
  obtain ⟨hFaulted, hGood, hRaised, hOnKept, hUst⟩ := pdFails_shows k.isLt hEvent hR
  refine ⟨hFaulted, hGood, hRaised, ?_, hs.all ((hUst b hLow).trans hUnit), by rw [hP, hPower, SMap.look_del_same], by rw [hP, hPower, hSpares.power]⟩
  rw [hOnKept, hSpares.pdFld hLow k.isLt (by simp [pdFlds])]

end

/-! ## A domain of one unit turns on -/

/-- What comes back with a domain leaves its unit as it was. -/
structure ComesBack (b : Nat) (d e : Dev) : Prop where
  spares : SparesUnit b d e
  units : e.units = d.units
  enable : e.fld b Reg.CTRL.ENABLE = d.fld b Reg.CTRL.ENABLE

theorem ComesBack.trans {b : Nat} {c d e : Dev} (h1 : ComesBack b c d) (h2 : ComesBack b d e) : ComesBack b c e :=
  ⟨h1.spares.trans h2.spares, h2.units.trans h1.units, h2.enable.trans h1.enable⟩

theorem comesBack_keys (d : Dev) (s : Nat) (v : Word) : ComesBack cryptoBase d (d.setReg (cryptoBase + 0x800 + 4 * s) v) := by
  refine ⟨sparesUnit_setReg (by simp only [Reg.STATE.off]; omega), rfl, ?_⟩
  rw [Dev.fld, reg_setReg, if_neg (by simp only [Reg.CTRL.ENABLE]; omega), Dev.fld]

theorem comesBack_foldl {α : Type} {b : Nat} {f : Dev → α → Dev} (hf : ∀ d x, ComesBack b d (f d x)) (l : List α) (d : Dev) :
    ComesBack b d (l.foldl f d) := by
  induction l generalizing d with
  | nil => exact ⟨.refl d, rfl, rfl⟩
  | cons x xs ih => exact (hf d x).trans (ih _)

theorem comesBack_domainBack {k b : Nat} (hs : SingleDomain k b) (d : Dev) : ComesBack b d (d.domainBack k) := by
  rcases hs with ⟨rfl, rfl⟩ | ⟨rfl, rfl⟩ | ⟨rfl, rfl⟩
  · exact ⟨.refl d, rfl, rfl⟩
  · show ComesBack cryptoBase d d.fillKeys
    unfold Dev.fillKeys
    refine ComesBack.trans ?_ (comesBack_foldl (fun d s => comesBack_keys d s _) _ _)
    exact ⟨sparesUnit_of_parts (parts_modExt d _) (by decide), rfl, rfl⟩
  · show ComesBack strikeBase d d.driveStrike
    unfold Dev.driveStrike
    split
    · exact ⟨sparesUnit_of_parts (parts_modStrike d _) (by decide), rfl, rfl⟩
    · exact ⟨.refl d, rfl, rfl⟩

/-- A unit without a standing cause and with ENABLE at 0 is STOPPED when its domain turns on. -/
theorem unitOn_stopped {d : Dev} {k b : Nat} (hs : SingleDomain k b) (hOff : d.ust b = .off) (hStands : d.units.standing.num b = 0)
    (hEnable : d.fld b Reg.CTRL.ENABLE = 0) : Spares b d (d.unitOn b) ∧ (d.unitOn b).ust b = .stopped := by
  have hCauses : d.causesLeft b = 0 := by
    have hShell : (unitOf b).blk ≠ .shell := hs.facts.2.2.2.2.1.2
    rw [Dev.causesLeft, hStands, Dev.shellCauses, if_neg hShell]
    rfl
  have hOn : d.unitOn b = d.setUst b .stopped := by
    rw [Dev.unitOn, if_pos hOff, hCauses]
    simp [Dev.flag, hEnable]
  rw [hOn]
  exact spares_setUst hs d .stopped

/-- PDd of a domain that has reached power-good. -/
def Dev.pdGood (d : Dev) (k : Nat) : Dev :=
  ((d.setPd k pdOn).setFld pdBase (Reg.PD.PGOOD.elem k) 1).modPower fun p => { p with rampTick := p.rampTick.del k }

theorem pdGood_leaves (d : Dev) {k : Nat} (hk : k < 40) :
    (d.pdGood k).pd k = pdOn ∧ (d.pdGood k).fld pdBase (Reg.PD.PGOOD.elem k) = 1 ∧
      (∀ b, 0x32000 ≤ b → (d.pdGood k).ust b = d.ust b ∧ (d.pdGood k).fld b Reg.CTRL.ENABLE = d.fld b Reg.CTRL.ENABLE) ∧
      (d.pdGood k).quiet = d.quiet ∧ (d.pdGood k).units = d.units ∧
      (d.pdGood k).power = { d.power with rampTick := d.power.rampTick.del k } := by
  have hState : Reg.PD.STATE ∈ pdFlds := by simp [pdFlds]
  have hGood : Reg.PD.PGOOD ∈ pdFlds := by simp [pdFlds]
  refine ⟨?_, ?_, fun b hb => ⟨?_, ?_⟩, ?_, rfl, rfl⟩
  · rw [Dev.pd, Dev.pdGood, fld_modPower, fld_setPdFld_apart hGood hState (by decide), Dev.setPd, fld_setPdFld_same hState (by decide)]
  · rw [Dev.pdGood, fld_modPower, fld_setPdFld_same hGood (by decide)]
  · rw [Dev.pdGood, ust_modPower, ust_setPdFld hb hk hGood, Dev.setPd, ust_setPdFld hb hk hState]
  · have hApart {f : Fld} (hf : f ∈ pdFlds) : b + Reg.CTRL.ENABLE.off ≠ pdBase + (f.elem k).off := by
      have hBase : pdBase + 0x1000 = 0x32000 := rfl
      rw [pdFld_addr hf, pdAddr_eq]
      omega
    rw [Dev.pdGood, fld_modPower, fld_setFld_other (hApart hGood), Dev.setPd, fld_setFld_other (hApart hState)]
  · rw [Dev.pdGood, quiet_modPower, quiet_setPdFld, Dev.setPd, quiet_setPdFld]

theorem domainGood_single {d : Dev} {k b : Nat} (hs : SingleDomain k b) (hRamping : d.pd k = pdRamping)
    (hFree : (((d.pdGood k).domainBack k).unitOn b).power.waiting = []) :
    d.domainGood k = ((d.pdGood k).domainBack k).unitOn b := by
  obtain ⟨hUnits, hLt, _⟩ := hs.facts
  have hGood : d.domainGood k =
      ((((d.pdGood k).domainBack k).each (domainUnits k) Dev.unitOn).each
        ((((d.pdGood k).domainBack k).each (domainUnits k) Dev.unitOn).domainUsers k) fun d b => if d.powered b then d.unitOn b else d).each
        ((((d.pdGood k).domainBack k).each (domainUnits k) Dev.unitOn).each
        ((((d.pdGood k).domainBack k).each (domainUnits k) Dev.unitOn).domainUsers k)
          fun d b => if d.powered b then d.unitOn b else d).power.waiting
        fun d w => if (domainPrereqs w).contains k then d.beginRamp w else d := if_pos hRamping
  rw [hGood, hUnits, domainUsers_none _ hLt]
  show (((d.pdGood k).domainBack k).unitOn b).each (((d.pdGood k).domainBack k).unitOn b).power.waiting _ = _
  rw [hFree]
  rfl

theorem powerGood_single {s : State} {k : Fin 40} {b : Nat} (hq : s.dev.quiet = true) (hStage : s.dev.power.stage = 0)
    (hs : SingleDomain k b) (hRamping : s.dev.pd k = pdRamping) (hFree : s.dev.power.waiting = [])
    (hUnit : ∀ b ∈ domainUnits k, s.dev.ust b = .off ∧ s.dev.units.standing.num b = 0 ∧ s.dev.fld b Reg.CTRL.ENABLE = 0) :
    Completes (.powerGood k) s fun e =>
      e.pd k = pdOn ∧ e.fld pdBase (Reg.PD.PGOOD.elem k) = 1 ∧ (∀ b ∈ domainUnits k, e.ust b = .stopped) ∧
      e.power.rampTick.look k = none ∧ e.power.waiting = s.dev.power.waiting.filter (· != k.val) := by
  obtain ⟨hUnits, hLt, _, _, _, hLow, _, _, _⟩ := hs.facts
  obtain ⟨hOff, hStands, hEnable⟩ := hUnit b (by rw [hUnits]; exact List.mem_singleton.mpr rfl)
  obtain ⟨hOn, hGood, hKept, hQuiet, hKeptUnits, hPower⟩ := pdGood_leaves s.dev k.isLt
  have hBack := comesBack_domainBack hs (s.dev.pdGood k)
  obtain ⟨hSpares, hStopped⟩ := unitOn_stopped hs (d := (s.dev.pdGood k).domainBack k)
    (by rw [hBack.spares.2, (hKept b hLow).1, hOff]) (by rw [hBack.units, hKeptUnits, hStands]) (by rw [hBack.enable, (hKept b hLow).2, hEnable])
  have hAll := hBack.spares.1.trans hSpares
  have hPowerE : (((s.dev.pdGood k).domainBack k).unitOn b).power = { s.dev.power with rampTick := s.dev.power.rampTick.del k } :=
    hAll.power.trans hPower
  have hOp : opPowerGood k s.dev = ((s.dev.pdGood k).domainBack k).unitOn b := by
    have hQuadrant (d : Dev) : d.quadrantUp k = d := if_pos (by simp [hLt])
    rw [opPowerGood, if_pos hRamping, hQuadrant, domainGood_single hs hRamping (by rw [hPowerE, hFree]), modeStep_rest (by rw [hPowerE, hStage])]
  refine completes_quiet (f := opPowerGood k) rfl ?_ ?_ <;> rw [hOp]
  · rw [hAll.quiet (by omega), hQuiet, hq]
  · refine ⟨?_, ?_, hs.all hStopped, by rw [hPowerE, SMap.look_del_same], by rw [hPowerE, hFree]; rfl⟩
    · rw [← hOn]
      exact hAll.pdFld hLow k.isLt (f := Reg.PD.STATE) (by simp [pdFlds])
    · rw [← hGood]
      exact hAll.pdFld hLow k.isLt (f := Reg.PD.PGOOD) (by simp [pdFlds])

/-- CONFIG, CRYPTO and STRIKE hold one unit each. -/
theorem singleDomain_of {k : Nat} (h : k = 2 ∨ k = 5 ∨ k = 7) : ∃ b, SingleDomain k b := by
  rcases h with h | h | h
  · exact ⟨_, .inl ⟨h, rfl⟩⟩
  · exact ⟨_, .inr (.inl ⟨h, rfl⟩)⟩
  · exact ⟨_, .inr (.inr ⟨h, rfl⟩)⟩

/-- Settles O54: a request asks for domains that are off, in the order of R424 (`Ramps`); a domain of one unit comes and goes with it
(`Spares`); and a failure sets PDd and is offered to a latch already set. -/
theorem domainsTurnOnOffAndFail : Obligations.DomainsTurnOnOffAndFail := by
  unfold Obligations.DomainsTurnOnOffAndFail
  intro s path k hquiet hStage d pdAt on off forgets single
  have hq : s.dev.quiet = true := hquiet
  refine ⟨fun hReach => ⟨pdWrite_ramps hq hStage hReach, pdWrite_refused hq hStage hReach, fun hSingle hFree hOn => ?_⟩,
    fun hSingle hRamping hFree hUnit => ?_, fun hLatched => ⟨rampFail_faults hq hStage hLatched, fun hSingle hOn => ?_⟩⟩
  · obtain ⟨b, hs⟩ := singleDomain_of hSingle
    exact pdWrite_off hq hStage hReach hs hFree hOn
  · obtain ⟨b, hs⟩ := singleDomain_of hSingle
    exact powerGood_single hq hStage hs hRamping hFree hUnit
  · obtain ⟨b, hs⟩ := singleDomain_of hSingle
    exact pgLost_faults hq hStage hLatched hs hOn

end Sys2Proof.Machine

/-! # Peal's slices and the phases of a relief (R470 to R474) -/

namespace Sys2Proof.Machine

set_option Elab.async false

/-! ## A bank copied -/

theorem lookItem_below {α : Type} {b k : Nat} {l : List (Nat × α)} (h : risingFrom (some b) l) (hk : k ≤ b) : lookItem k l = none := by
  induction l generalizing b with
  | nil => rfl
  | cons e t ih =>
    obtain ⟨j, v⟩ := e
    simp only [risingFrom, Bool.and_eq_true, decide_eq_true_iff] at h
    rw [lookItem, if_neg (by omega)]
    exact ih h.2 (by omega)

/-- The bytes of a bank put at another bank's places. -/
def copyRun (dst : Nat) (l : List (Nat × Byte)) (m : SMap Byte) : SMap Byte := l.foldl (fun b e => b.put (dst * 2 ^ 19 + e.1 % 2 ^ 19) e.2) m

theorem look_copyRun {src dst x : Nat} {l : List (Nat × Byte)} (lo : Option Nat) (hl : risingFrom lo l) (hs : ∀ e ∈ l, e.1 / 2 ^ 19 = src)
    (m : SMap Byte) :
    (copyRun dst l m).look x = if x / 2 ^ 19 = dst then (lookItem (src * 2 ^ 19 + x % 2 ^ 19) l).or (m.look x) else m.look x := by
  induction l generalizing m lo with
  | nil => simp [copyRun, lookItem]
  | cons e t ih =>
    obtain ⟨k, v⟩ := e
    have hTail : risingFrom (some k) t := by
      simp only [risingFrom, Bool.and_eq_true] at hl
      exact hl.2
    have hk : k / 2 ^ 19 = src := hs (k, v) List.mem_cons_self
    have hRun : copyRun dst ((k, v) :: t) m = copyRun dst t (m.put (dst * 2 ^ 19 + k % 2 ^ 19) v) := rfl
    rw [hRun, ih (some k) hTail fun e he => hs e (List.mem_cons_of_mem _ he)]
    by_cases hx : x / 2 ^ 19 = dst
    · rw [if_pos hx, if_pos hx, lookItem]
      by_cases hEq : src * 2 ^ 19 + x % 2 ^ 19 = k
      · have hPlace : x = dst * 2 ^ 19 + k % 2 ^ 19 := by omega
        rw [if_pos hEq, lookItem_below hTail (Nat.le_of_eq hEq), hPlace, SMap.look_put_same]
        rfl
      · rw [if_neg hEq, SMap.look_put_other _ (by omega)]
    · rw [if_neg hx, if_neg hx, SMap.look_put_other _ (by omega)]

/-- What the reads of a bank that is copied leave. -/
structure BankRead (d e : Dev) : Prop where
  parts : OnlyParts [.regs, .mem] d e
  bytes : e.mem.bytes = d.mem.bytes
  relief : e.mem.relief = d.mem.relief
  quiet : e.quiet = d.quiet

theorem BankRead.trans {c d e : Dev} (h1 : BankRead c d) (h2 : BankRead d e) : BankRead c e :=
  ⟨h1.parts.trans h2.parts, h2.bytes.trans h1.bytes, h2.relief.trans h1.relief, h2.quiet.trans h1.quiet⟩

theorem BankRead.refl (d : Dev) : BankRead d d := ⟨by simp, rfl, rfl, rfl⟩

theorem columnBase_ge (l c o : Nat) : columnBase 0 0 ≤ columnBase l c + o := by
  simp only [columnBase, Nat.zero_mul, Nat.add_zero, Nat.add_assoc, Nat.le_add_right]

theorem irq_ne_column (l c o : Nat) : rootBase + Reg.IRQ_CTRL.off ≠ columnBase l c + o :=
  Nat.ne_of_lt (Nat.lt_of_lt_of_le (by decide) (columnBase_ge l c o))

theorem bankRead_setReg (d : Dev) {a : Nat} (v : Word) (ha : rootBase + Reg.IRQ_CTRL.off ≠ a) : BankRead d (d.setReg a v) :=
  ⟨by simp, by rw [setReg_mem], by rw [setReg_mem], quiet_setReg _ _ _ ha⟩

theorem bankRead_setFld (d : Dev) (l c n : Nat) (f : Fld) : BankRead d (d.setFld (columnBase l c) f n) :=
  bankRead_setReg d _ (irq_ne_column l c f.off)

theorem bankRead_noteRead (d : Dev) (w p src : Nat) : BankRead d (d.noteRead w p src) := by
  have hCount (f g : Fld) : BankRead d ((d.count (columnBase 1 (wordColumn w)) f).raise (columnBase 1 (wordColumn w)) g) :=
    (bankRead_setFld d 1 _ _ f).trans (bankRead_setFld _ 1 _ _ g)
  have hLog (d : Dev) (r : Bool) : BankRead d (d.logDed w r src) := by
    unfold Dev.logDed
    dsimp only
    split
    · exact .refl d
    · exact bankRead_setReg d _ (irq_ne_column _ _ _)
  unfold Dev.noteRead Dev.readOver
  dsimp only
  split
  · split
    · exact hCount _ _
    · exact (hCount Reg.MEM_SEC_COUNT.COUNT Reg.MEM_EVENT.SEC).trans ⟨by simp [Dev.countSec], rfl, rfl, quiet_modMem ..⟩
  · split
    · exact (hCount _ _).trans (hLog _ _)
    · exact .refl d

theorem bankRead_each (d : Dev) (l : List Nat) (f : Nat → Nat) (src : Nat) : BankRead d (d.each l fun d p => d.noteRead (f p) p src) := by
  induction l generalizing d with
  | nil => exact .refl d
  | cons p ps ih => exact (bankRead_noteRead d _ p src).trans (ih _)

theorem bankByte_div {k a : Nat} (ha : a < 2 ^ 19) : (k * 2 ^ 19 + a) / 2 ^ 19 = k := by omega
theorem bankByte_mod {k a : Nat} (ha : a < 2 ^ 19) : (k * 2 ^ 19 + a) % 2 ^ 19 = a := by omega

/-- A bank copied: the other bank holds its bytes, no other byte changes, and reliefs stand. -/
theorem copyBank_leaves {d : Dev} (src dst home : Nat) (hWf : d.memWf = true) :
    (∀ k a, a < 2 ^ 19 → (d.copyBank src dst home).mem.bytes.at (k * 2 ^ 19 + a) 0 =
      d.mem.bytes.at ((if k = dst then src else k) * 2 ^ 19 + a) 0) ∧
    (d.copyBank src dst home).mem.relief = d.mem.relief ∧ (d.copyBank src dst home).quiet = d.quiet ∧
    OnlyParts [.regs, .mem] d (d.copyBank src dst home) := by
  have hRead := bankRead_each d (d.mem.err.keys.filter fun p => p / 16384 == src) (fun p => home * 16384 + p % 16384) srcScrub
  unfold Dev.copyBank
  generalize d.each (d.mem.err.keys.filter fun p => p / 16384 == src) (fun d p => d.noteRead (home * 16384 + p % 16384) p srcScrub) = c at hRead
  refine ⟨fun k a ha => ?_, hRead.relief, (quiet_modMem ..).trans hRead.quiet, by simpa using hRead.parts⟩
  have hRising : risingFrom none (c.mem.bytes.items.filter fun e => e.1 / 2 ^ 19 == src) := by
    rw [hRead.bytes]
    refine risingFrom_filter _ _ _ ?_
    unfold Dev.memWf SMap.wf at hWf
    rw [Bool.and_eq_true] at hWf
    exact hWf.1
  have hLook := look_copyRun (dst := dst) (x := k * 2 ^ 19 + a) none hRising
    (fun e he => eq_of_beq (List.mem_filter.mp he).2) (c.mem.bytes.keep fun a => a / 2 ^ 19 != dst)
  rw [bankByte_div ha, bankByte_mod ha, SMap.look_keep, bankByte_div ha] at hLook
  rw [lookItem_keep (fun x => x / 2 ^ 19 == src)] at hLook
  rw [bankByte_div ha, beq_self_eq_true, if_pos rfl] at hLook
  show ((copyRun dst _ _).look (k * 2 ^ 19 + a)).getD 0 = _
  rw [hLook, ← hRead.bytes]
  by_cases hk : k = dst
  · subst hk
    simp [SMap.at, SMap.look]
  · simp [hk, SMap.at]

/-! ## The phases of a relief -/

/-- MEM_STATUS as it shows a relief, and what else that leaves. -/
theorem showRelief_leaves (d : Dev) (g bank : Nat) (on : Bool) :
    (d.showRelief g bank on).fld (columnBase 1 (bank / 8)) Reg.MEM_STATUS.RELIEF_ACTIVE = bit01 on ∧
    (d.showRelief g bank on).fld (columnBase 1 (bank / 8)) Reg.MEM_STATUS.RELIEF_BANK = (if on then bank % 8 else 0) ∧
    (d.showRelief g bank on).quiet = d.quiet ∧ OnlyParts [.regs] d (d.showRelief g bank on) := by
  have hApart (f : Fld) : columnBase 1 (bank / 8) + f.off ≠ stctlBase + Reg.PEAL_STATUS.off :=
    Nat.ne_of_gt (Nat.lt_of_lt_of_le (by decide) (columnBase_ge 1 (bank / 8) f.off))
  have hLt : (if on then bank % 8 else 0) < 8 := by
    split
    · exact Nat.mod_lt _ (by decide)
    · decide
  refine ⟨?_, ?_, ?_, by simp [Dev.showRelief]⟩
  · rw [Dev.showRelief, fld_setFld_other (hApart _), fld_setFld_clear (by decide), fld_setFld_lt (by decide) (by cases on <;> decide)]
  · rw [Dev.showRelief, fld_setFld_other (hApart _), fld_setFld_lt (by decide) hLt]
  · rw [Dev.showRelief, quiet_setFld _ _ _ _ (show rootBase + Reg.IRQ_CTRL.off ≠ stctlBase + Reg.PEAL_STATUS.off by decide),
      quiet_setFld _ _ _ _ (irq_ne_column _ _ _), quiet_setFld _ _ _ _ (irq_ne_column _ _ _)]

/-- A relief's record changes. -/
def Dev.putRelief (d : Dev) (g : Nat) (r : Relief) : Dev := d.modMem fun m => { m with relief := m.relief.put g r }

theorem bank_ne_relief {bank : Nat} (g : Nat) (h : bank < 2048) : bank ≠ reliefNumber g := by
  unfold reliefNumber
  omega

/-- SPARE_ROWS and SPARE_BL as they show a bank's spares, and what that leaves. -/
theorem showSpares_leaves (d : Dev) (bank : Nat) : (d.showSpares bank).mem = d.mem ∧ (d.showSpares bank).quiet = d.quiet ∧
    (d.showSpares bank).fld stctlBase Reg.PEAL_FAIL_COUNT.COUNT = d.fld stctlBase Reg.PEAL_FAIL_COUNT.COUNT := by
  have hApart (o : Nat) : stctlBase + Reg.PEAL_FAIL_COUNT.COUNT.off ≠ columnBase 1 (bank / 8) + o :=
    Nat.ne_of_lt (Nat.lt_of_lt_of_le (by decide) (columnBase_ge 1 (bank / 8) o))
  have hSet (c : Dev) (f : Fld) (n : Nat) : (c.setFld (columnBase 1 (bank / 8)) f n).mem = c.mem ∧
      (c.setFld (columnBase 1 (bank / 8)) f n).quiet = c.quiet ∧
      (c.setFld (columnBase 1 (bank / 8)) f n).fld stctlBase Reg.PEAL_FAIL_COUNT.COUNT = c.fld stctlBase Reg.PEAL_FAIL_COUNT.COUNT :=
    ⟨setReg_mem .., quiet_setFld _ _ _ _ (irq_ne_column _ _ _), fld_setFld_other (hApart _)⟩
  rw [Dev.showSpares]
  split
  · exact ⟨rfl, rfl, rfl⟩
  · refine ⟨?_, ?_, ?_⟩
    · rw [(hSet _ _ _).1, (hSet _ _ _).1]
    · rw [(hSet _ _ _).2.1, (hSet _ _ _).2.1]
    · rw [(hSet _ _ _).2.2, (hSet _ _ _).2.2]

/-- A spare row taken. -/
theorem takeSpare_row {d : Dev} {bank row : Nat} (hFree : (d.sparesUsed bank false).length = 0) :
    ∃ e, d.takeSpare bank false row = (e, true) ∧ row ∈ e.sparesUsed bank false ∧ e.quiet = d.quiet ∧
      e.fld stctlBase Reg.PEAL_FAIL_COUNT.COUNT = d.fld stctlBase Reg.PEAL_FAIL_COUNT.COUNT := by
  obtain ⟨hMem, hQuiet, hFld⟩ := showSpares_leaves
    (d.modMem fun m => { m with remapped := m.remapped.put bank (row :: d.sparesUsed bank false) }) bank
  refine ⟨_, ?_, ?_, hQuiet.trans (quiet_modMem ..), hFld.trans (fld_modMem ..)⟩
  · rw [Dev.takeSpare]
    dsimp only
    rw [if_pos (by rw [hFree]; decide)]
    rfl
  · rw [Dev.sparesUsed, hMem]
    simp [SMap.at]

/-- Peal finds a fault. -/
theorem pealFail_leaves (d : Dev) : d.pealFail.fld stctlBase Reg.PEAL_EVENT.FAIL = 1 ∧
    d.pealFail.fld stctlBase Reg.PEAL_FAIL_COUNT.COUNT =
      satAdd (2 ^ Reg.PEAL_FAIL_COUNT.COUNT.width - 1) (d.fld stctlBase Reg.PEAL_FAIL_COUNT.COUNT) 1 ∧
    d.pealFail.quiet = d.quiet ∧ d.pealFail.mem = d.mem := by
  refine ⟨?_, ?_, ?_, rfl⟩
  · rw [Dev.pealFail, Dev.count, Dev.countBy, fld_setFld_clear (by decide), fld_raise_same (by decide) (by decide)]
  · rw [Dev.pealFail, Dev.count, fld_countBy_same (by decide), Dev.raise, fld_setFld_clear (by decide)]
  · rw [Dev.pealFail, Dev.count, quiet_countBy _ _ _ _ (by decide), quiet_raise _ _ _ (by decide)]

/-- A relief that ends. -/
theorem endRelief_leaves (d : Dev) (g : Nat) (r : Relief) :
    (d.endRelief g r).mem = { d.mem with relief := d.mem.relief.del g } ∧
    (d.endRelief g r).fld (columnBase 1 (r.bank / 8)) Reg.MEM_STATUS.RELIEF_ACTIVE = 0 ∧ (d.endRelief g r).quiet = d.quiet ∧
    OnlyParts [.regs, .mem, .heat] d (d.endRelief g r) := by
  obtain ⟨hActive, _, hQuiet, hParts⟩ := showRelief_leaves (d.modMem fun m => { m with relief := m.relief.del g }) g r.bank false
  have hMem := hParts .mem (by simp)
  have hAll : OnlyParts [.regs, .mem, .heat] d ((d.modMem fun m => { m with relief := m.relief.del g }).showRelief g r.bank false) :=
    OnlyParts.trans (by simp) (hParts.mono (by simp))
  unfold Dev.endRelief
  dsimp only
  split
  · rw [Dev.freeToken, quiet_modHeat, fld_modHeat]
    exact ⟨hMem, hActive, hQuiet, by simpa using hAll⟩
  · exact ⟨hMem, hActive, hQuiet, hAll⟩

section
variable {s : State} {g : Fin 16} {r : Relief} (hq : s.dev.quiet = true) (hLook : s.dev.mem.relief.look g = some r)
  (hLasts : r.permanent = false) (hCool : bitOf (s.dev.heat.colStep.num (r.bank / 8)) 0 = false) (hBank : r.bank < 2048)
include hLook hLasts hCool

/-- What a phase's end does, by the phase. -/
theorem opReliefPhaseEnd_eq (faults : List (Bool × Fin 2128)) : opReliefPhaseEnd g faults s.dev =
    if r.phase = 0 then ((s.dev.copyBank r.bank (reliefNumber g) r.bank).putRelief g { r with phase := 1 }).showRelief g r.bank true
    else if r.phase = 1 then
      (if ((s.dev.zeroBank r.bank).reliefFaults r.bank faults).2
        then ((s.dev.zeroBank r.bank).reliefFaults r.bank faults).1.putRelief g { r with phase := 2 }
        else ((((((s.dev.zeroBank r.bank).reliefFaults r.bank faults).1.reliefForGood r.bank).raise (columnBase 1 (r.bank / 8))
          Reg.MEM_EVENT.BANK_DEAD).repLog (repWord 5 (r.bank / 8) (r.bank % 8) 0) originPeal repApplied).setFld stctlBase
          ⟨Reg.PEAL_STATUS.off, g, 1⟩ 0).modeStep modeSteps)
    else ((s.dev.copyBank (reliefNumber g) r.bank r.bank).endRelief g r).modeStep modeSteps := by
  unfold opReliefPhaseEnd
  rw [hLook]
  dsimp only
  rw [if_neg (by simp [hLasts, hCool])]
  rfl

include hq hBank

theorem reliefPhase_copyOut (hPhase : r.phase = 0) (hWf : s.dev.memWf = true) :
    Completes (.reliefPhaseEnd g []) s fun e =>
      e.mem.relief.look g = some { r with phase := 1 } ∧
      (∀ a, a < 2 ^ 19 → e.mem.bytes.at (reliefNumber g * 2 ^ 19 + a) 0 = s.dev.mem.bytes.at (r.bank * 2 ^ 19 + a) 0 ∧
        e.mem.bytes.at (r.bank * 2 ^ 19 + a) 0 = s.dev.mem.bytes.at (r.bank * 2 ^ 19 + a) 0) ∧
      e.fld (columnBase 1 (r.bank / 8)) Reg.MEM_STATUS.RELIEF_ACTIVE = 1 ∧
      e.fld (columnBase 1 (r.bank / 8)) Reg.MEM_STATUS.RELIEF_BANK = r.bank % 8 ∧ OnlyParts [.regs, .mem] s.dev e := by
  have hNe := bank_ne_relief g hBank
  have hOp := (opReliefPhaseEnd_eq hLook hLasts hCool []).trans (if_pos hPhase)
  obtain ⟨hBytes, hRelief, hQuiet, hParts⟩ := copyBank_leaves r.bank (reliefNumber g) r.bank hWf
  obtain ⟨hActive, hNumber, hQuietShow, hPartsShow⟩ := showRelief_leaves
    ((s.dev.copyBank r.bank (reliefNumber g) r.bank).putRelief g { r with phase := 1 }) g r.bank true
  refine completes_quiet (f := opReliefPhaseEnd g []) rfl ?_ ?_ <;> rw [hOp]
  · rw [hQuietShow, Dev.putRelief, quiet_modMem, hQuiet, hq]
  · have hMem := hPartsShow .mem (by simp)
    simp only [Part.same] at hMem
    rw [hMem]
    refine ⟨by simp [Dev.putRelief], fun a ha => ⟨?_, ?_⟩, hActive, hNumber, ?_⟩
    · exact (hBytes (reliefNumber g) a ha).trans (by rw [if_pos rfl])
    · exact (hBytes r.bank a ha).trans (by rw [if_neg hNe])
    · exact (OnlyParts.trans hParts (by simp [Dev.putRelief])).trans (hPartsShow.mono (by simp))

theorem reliefPhase_march (hPhase : r.phase = 1) :
    Completes (.reliefPhaseEnd g []) s fun e =>
      e.mem.relief.look g = some { r with phase := 2 } ∧
      (∀ a, a < 2 ^ 19 → e.mem.bytes.at (r.bank * 2 ^ 19 + a) 0 = 0 ∧
        e.mem.bytes.at (reliefNumber g * 2 ^ 19 + a) 0 = s.dev.mem.bytes.at (reliefNumber g * 2 ^ 19 + a) 0) ∧ OnlyParts [.mem] s.dev e := by
  have hNe := bank_ne_relief g hBank
  have hOp : opReliefPhaseEnd g [] s.dev = (s.dev.zeroBank r.bank).putRelief g { r with phase := 2 } := by
    rw [opReliefPhaseEnd_eq hLook hLasts hCool, if_neg (by omega), if_pos hPhase]
    rfl
  refine completes_quiet (f := opReliefPhaseEnd g []) rfl ?_ ?_ <;> rw [hOp]
  · rw [Dev.putRelief, quiet_modMem, Dev.zeroBank, quiet_modMem, hq]
  · refine ⟨by simp [Dev.putRelief], fun a ha => ⟨?_, ?_⟩, by simp [Dev.putRelief, Dev.zeroBank]⟩
    · exact (zeroBank_byte ..).trans (by rw [bankByte_div ha, if_pos rfl])
    · exact (zeroBank_byte ..).trans (by rw [bankByte_div ha, if_neg hNe.symm])

omit hBank in
theorem reliefPhase_marchFault (hPhase : r.phase = 1) (row : Fin 2128) (hFree : (s.dev.sparesUsed r.bank false).length = 0) :
    Completes (.reliefPhaseEnd g [(false, row)]) s fun e =>
      e.mem.relief.look g = some { r with phase := 2 } ∧ row.val ∈ e.sparesUsed r.bank false ∧ e.fld stctlBase Reg.PEAL_EVENT.FAIL = 1 ∧
      Counted stctlBase Reg.PEAL_FAIL_COUNT.COUNT 1 s.dev e := by
  obtain ⟨e, hTake, hUsed, hQuiet, hFld⟩ := takeSpare_row (d := s.dev.zeroBank r.bank) (row := row) hFree
  have hFaults : (s.dev.zeroBank r.bank).reliefFaults r.bank [(false, row)] =
      ((e.repLog (repWord 3 (r.bank / 8) (r.bank % 8) row) originPeal repApplied).pealFail, true) := by
    unfold Dev.reliefFaults
    rw [List.foldl_cons, List.foldl_nil]
    dsimp only
    rw [hTake]
    rfl
  have hOp : opReliefPhaseEnd g [(false, row)] s.dev =
      ((e.repLog (repWord 3 (r.bank / 8) (r.bank % 8) row) originPeal repApplied).pealFail).putRelief g { r with phase := 2 } := by
    rw [opReliefPhaseEnd_eq hLook hLasts hCool, if_neg (by omega), if_pos hPhase, hFaults, if_pos rfl]
  obtain ⟨hFail, hCount, hQuietFail, hMem⟩ := pealFail_leaves (e.repLog (repWord 3 (r.bank / 8) (r.bank % 8) row) originPeal repApplied)
  refine completes_quiet (f := opReliefPhaseEnd g [(false, row)]) rfl ?_ ?_ <;> rw [hOp]
  · rw [Dev.putRelief, quiet_modMem, hQuietFail, Dev.repLog, quiet_modTest, hQuiet, Dev.zeroBank, quiet_modMem, hq]
  · refine ⟨by simp [Dev.putRelief], ?_, ?_, ?_⟩
    · rw [Dev.sparesUsed, Dev.putRelief, modMem_mem, hMem]
      exact hUsed
    · rw [Dev.putRelief, fld_modMem, hFail]
    · rw [Counted, Dev.putRelief, fld_modMem, hCount, Dev.repLog, fld_modTest, hFld, Dev.zeroBank, fld_modMem]

omit hBank in
theorem reliefPhase_copyBack (hPhase : r.phase = 2) (hStage : s.dev.power.stage = 0) (hWf : s.dev.memWf = true) :
    Completes (.reliefPhaseEnd g []) s fun e =>
      e.mem.relief.look g = none ∧ (∀ a, a < 2 ^ 19 → e.mem.bytes.at (r.bank * 2 ^ 19 + a) 0 = s.dev.mem.bytes.at (reliefNumber g * 2 ^ 19 + a) 0) ∧
      e.fld (columnBase 1 (r.bank / 8)) Reg.MEM_STATUS.RELIEF_ACTIVE = 0 ∧ OnlyParts [.regs, .mem, .heat] s.dev e := by
  obtain ⟨hBytes, _, hQuiet, hParts⟩ := copyBank_leaves (reliefNumber g) r.bank r.bank hWf
  generalize hc : s.dev.copyBank (reliefNumber g) r.bank r.bank = c at hBytes hQuiet hParts
  obtain ⟨hMem, hActive, hQuietEnd, hPartsEnd⟩ := endRelief_leaves c g r
  have hOp : opReliefPhaseEnd g [] s.dev = c.endRelief g r := by
    rw [opReliefPhaseEnd_eq hLook hLasts hCool, if_neg (by omega), if_neg (by omega), hc]
    refine modeStep_rest ?_
    rw [hPartsEnd .power (by simp), hParts .power (by simp), hStage]
  refine completes_quiet (f := opReliefPhaseEnd g []) rfl ?_ ?_ <;> rw [hOp]
  · rw [hQuietEnd, hQuiet, hq]
  · refine ⟨by rw [hMem, SMap.look_del_same], fun a ha => ?_, hActive, (hParts.mono (by simp)).trans hPartsEnd⟩
    rw [hMem]
    exact (hBytes r.bank a ha).trans (by rw [if_pos rfl])

end

/-! ## Slices -/

/-- The conditions under which Peal takes a slice of a kind in a column. -/
def Dev.pealMay (d : Dev) (c : Nat) (kind : Nat) : Prop :=
  d.runs stctlBase = true ∧ d.flag stctlBase Reg.PEAL_CTRL.EN = true ∧ bitOf (d.fld stctlBase Reg.PEAL_CTRL.KIND_EN) (kind - 1) = true ∧
    d.pealPermits (groupOf c) = true ∧ d.holdsToken c .peal = true ∧ bitOf (d.heat.colStep.num c) 0 = false

/-- A slice begins: the token is free, and PEAL_STATUS names the slice. -/
def Dev.sliceBegun (d : Dev) (c kind : Nat) : Dev :=
  ((d.freeToken c).setFld stctlBase Reg.PEAL_STATUS.KIND kind).setFld stctlBase Reg.PEAL_STATUS.COLUMN c

/-- A slice ends, and perhaps its tour. -/
def Dev.sliceEnded (d : Dev) (tour late : Bool) : Dev :=
  (if tour then d.count stctlBase Reg.PEAL_TOUR_COUNT.COUNT else d).raiseIf late stctlBase Reg.PEAL_EVENT.TOUR_LATE

theorem opPealSlice_taken {d : Dev} {c : Fin 256} {work : PealWork} (tour late : Bool) (h : d.pealMay c (pealKind work))
    (hFits : d.pealFits c work = true) :
    opPealSlice c work tour late d = ((d.sliceBegun c (pealKind work)).pealRun c work).sliceEnded tour late := by
  obtain ⟨hRuns, hEn, hKind, hPermits, hToken, hCool⟩ := h
  unfold opPealSlice
  simp only [hRuns, hEn, hKind, hPermits, hToken, hCool, hFits, Bool.and_self, Bool.not_false, if_true]
  rfl

/-- What a slice shows beside its work. -/
structure SliceTaken (d : Dev) (c kind : Nat) (tour late : Bool) (e : Dev) : Prop where
  kind : e.fld stctlBase Reg.PEAL_STATUS.KIND = kind
  column : e.fld stctlBase Reg.PEAL_STATUS.COLUMN = c
  heat : e.heat = { d.heat with token := d.heat.token.del c }
  counted : Counted stctlBase Reg.PEAL_TOUR_COUNT.COUNT (bit01 tour) d e
  late : late = true → e.fld stctlBase Reg.PEAL_EVENT.TOUR_LATE = 1

/-- A field that counts nothing more stands. -/
theorem satAdd_fld_zero (d : Dev) (b : Nat) (f : Fld) : satAdd (2 ^ f.width - 1) (d.fld b f) 0 = d.fld b f :=
  if_pos (Nat.le_sub_one_of_lt (bitsOf_lt ..))

/-- What a slice does to a field that its end leaves. -/
theorem fld_sliceEnded (d : Dev) (tour late : Bool) {f : Fld} (h1 : Reg.PEAL_TOUR_COUNT.COUNT.clear f) (h2 : Reg.PEAL_EVENT.TOUR_LATE.clear f) :
    (d.sliceEnded tour late).fld stctlBase f = d.fld stctlBase f := by
  cases tour <;> cases late
  · rfl
  · exact fld_setFld_clear h2
  · exact fld_setFld_clear h1
  · exact (fld_setFld_clear h2).trans (fld_setFld_clear h1)

/-- A slice whose work leaves PEAL_STATUS and the tours' count. -/
theorem sliceTaken_of {d x : Dev} {c kind : Nat} (tour late : Bool) (hc : c < 256) (hk : kind < 8)
    (hFld : ∀ f ∈ [Reg.PEAL_STATUS.KIND, Reg.PEAL_STATUS.COLUMN, Reg.PEAL_TOUR_COUNT.COUNT],
      x.fld stctlBase f = (d.sliceBegun c kind).fld stctlBase f)
    (hHeat : x.heat = (d.sliceBegun c kind).heat) : SliceTaken d c kind tour late (x.sliceEnded tour late) := by
  refine ⟨?_, ?_, ?_, ?_, fun hLate => ?_⟩
  · rw [fld_sliceEnded _ _ _ (by decide) (by decide), hFld _ (by simp), Dev.sliceBegun, fld_setFld_clear (by decide), fld_setFld_lt (by decide) hk]
  · rw [fld_sliceEnded _ _ _ (by decide) (by decide), hFld _ (by simp), Dev.sliceBegun, fld_setFld_lt (by decide) hc]
  · have hSame : (x.sliceEnded tour late).heat = x.heat := by cases tour <;> cases late <;> rfl
    rw [hSame, hHeat]
    rfl
  · have hOld : x.fld stctlBase Reg.PEAL_TOUR_COUNT.COUNT = d.fld stctlBase Reg.PEAL_TOUR_COUNT.COUNT := by
      rw [hFld _ (by simp), Dev.sliceBegun, fld_setFld_clear (by decide), fld_setFld_clear (by decide), Dev.freeToken, fld_modHeat]
    have hLate (y : Dev) : (y.raiseIf late stctlBase Reg.PEAL_EVENT.TOUR_LATE).fld stctlBase Reg.PEAL_TOUR_COUNT.COUNT =
        y.fld stctlBase Reg.PEAL_TOUR_COUNT.COUNT := by
      cases late
      · rfl
      · exact fld_setFld_clear (by decide)
    rw [Counted, Dev.sliceEnded, hLate, ← hOld]
    cases tour
    · exact (satAdd_fld_zero ..).symm
    · exact fld_countBy_same (by decide)
  · rw [Dev.sliceEnded, hLate]
    exact fld_raise_same (by decide) (by decide)

theorem quiet_sliceBegun (d : Dev) (c kind : Nat) : (d.sliceBegun c kind).quiet = d.quiet := by
  rw [Dev.sliceBegun, quiet_setFld _ _ _ _ (by decide), quiet_setFld _ _ _ _ (by decide), Dev.freeToken, quiet_modHeat]

theorem quiet_sliceEnded (d : Dev) (tour late : Bool) : (d.sliceEnded tour late).quiet = d.quiet := by
  have hTour : (d.count stctlBase Reg.PEAL_TOUR_COUNT.COUNT).quiet = d.quiet := quiet_countBy _ _ _ _ (by decide)
  cases tour <;> cases late
  · rfl
  · exact quiet_raise _ _ _ (by decide)
  · exact hTour
  · exact (quiet_raise _ _ _ (by decide)).trans hTour

theorem sliceBegun_parts (d : Dev) (c kind : Nat) : OnlyParts [.regs, .heat] d (d.sliceBegun c kind) := by
  simp [Dev.sliceBegun, Dev.freeToken]

theorem sliceEnded_parts (d : Dev) (tour late : Bool) : OnlyParts [.regs] d (d.sliceEnded tour late) := by
  cases tour <;> cases late <;> simp [Dev.sliceEnded, Dev.raiseIf]

section
variable {s : State} {c : Fin 256} (hq : s.dev.quiet = true) (tour late : Bool)
include hq

/-- A slice of a relief (R472). -/
theorem pealSlice_relief {bank : Fin 8} (hMay : s.dev.pealMay c 1) (hFits : s.dev.pealFits c (.relief bank) = true) :
    Completes (.pealSlice c (.relief bank) tour late) s fun e =>
      SliceTaken s.dev c 1 tour late e ∧
      e.mem = { s.dev.mem with relief := s.dev.mem.relief.put (groupOf c) { bank := c * 8 + bank } } ∧
      OnlyParts [.regs, .mem, .heat] s.dev e := by
  have hOp := opPealSlice_taken tour late hMay hFits
  have hBegun := sliceBegun_parts s.dev c 1
  change opPealSlice c (.relief bank) tour late s.dev = ((s.dev.sliceBegun c 1).putRelief (groupOf c) { bank := c * 8 + bank }).sliceEnded tour late
    at hOp
  have hRun : OnlyParts [.mem] (s.dev.sliceBegun c 1) ((s.dev.sliceBegun c 1).putRelief (groupOf c) { bank := c * 8 + bank }) := by
    simp [Dev.putRelief]
  have hEnd := sliceEnded_parts ((s.dev.sliceBegun c 1).putRelief (groupOf c) { bank := c * 8 + bank }) tour late
  refine completes_quiet (f := opPealSlice c (.relief bank) tour late) rfl ?_ ?_ <;> rw [hOp]
  · rw [quiet_sliceEnded, Dev.putRelief, quiet_modMem, quiet_sliceBegun, hq]
  · refine ⟨sliceTaken_of tour late c.isLt (by decide) (fun f _ => by rw [Dev.putRelief, fld_modMem]) (hRun .heat (by simp)), ?_, ?_⟩
    · have hMem := hEnd .mem (by simp)
      have hMemBegun := hBegun .mem (by simp)
      simp only [Part.same] at hMem hMemBegun
      rw [hMem, Dev.putRelief, modMem_mem, hMemBegun]
    · exact ((hBegun.mono (by simp)).trans (hRun.mono (by simp))).trans (hEnd.mono (by simp))

/-- A slice that tests a free relief bank (R472, R473). -/
theorem pealSlice_reliefTest {bad : Bool} (hMay : s.dev.pealMay c 2) (hFree : s.dev.reliefFree (groupOf c) = true) :
    Completes (.pealSlice c (.reliefTest bad) tour late) s fun e =>
      SliceTaken s.dev c 2 tour late e ∧
      (bad = true → e.test.reliefBad.look (groupOf c) = some 1 ∧ e.fld stctlBase Reg.PEAL_EVENT.FAIL = 1 ∧
        Counted stctlBase Reg.PEAL_FAIL_COUNT.COUNT 1 s.dev e) ∧
      OnlyParts [.regs, .heat, .test] s.dev e := by
  have hOp := opPealSlice_taken (work := .reliefTest bad) tour late hMay hFree
  have hBegun := sliceBegun_parts s.dev c 2
  have hEnd := sliceEnded_parts ((s.dev.sliceBegun c 2).pealRun c (.reliefTest bad)) tour late
  have hRun : OnlyParts [.regs, .test] (s.dev.sliceBegun c 2) ((s.dev.sliceBegun c 2).pealRun c (.reliefTest bad)) := by
    cases bad <;> simp [Dev.pealRun, Dev.pealFail]
  change opPealSlice c (.reliefTest bad) tour late s.dev = ((s.dev.sliceBegun c 2).pealRun c (.reliefTest bad)).sliceEnded tour late at hOp
  refine completes_quiet (f := opPealSlice c (.reliefTest bad) tour late) rfl ?_ ?_ <;> rw [hOp]
  · rw [quiet_sliceEnded]
    cases bad
    · exact (quiet_sliceBegun ..).trans hq
    · rw [Dev.pealRun, if_pos rfl, (pealFail_leaves _).2.2.1, quiet_modTest, quiet_sliceBegun, hq]
  · refine ⟨sliceTaken_of tour late c.isLt (by decide) ?_ (hRun .heat (by simp)), fun hBad => ?_, ?_⟩
    · intro f hf
      cases bad
      · rfl
      · have hApart : Reg.PEAL_EVENT.FAIL.clear f ∧ Reg.PEAL_FAIL_COUNT.COUNT.clear f := by
          revert f
          decide
        rw [Dev.pealRun, if_pos rfl, Dev.pealFail, Dev.count, Dev.countBy, fld_setFld_clear hApart.2, Dev.raise, fld_setFld_clear hApart.1,
          fld_modTest]
    · subst hBad
      obtain ⟨hFail, hCount, -, -⟩ := pealFail_leaves
        ((s.dev.sliceBegun c 2).modTest fun t => { t with reliefBad := t.reliefBad.put (groupOf c) 1 })
      have hTest := hEnd .test (by simp)
      simp only [Part.same] at hTest
      refine ⟨?_, ?_, ?_⟩
      · rw [hTest, Dev.pealRun, if_pos rfl]
        exact SMap.look_put_same ..
      · rw [fld_sliceEnded _ _ _ (by decide) (by decide), Dev.pealRun, if_pos rfl, hFail]
      · rw [Counted, fld_sliceEnded _ _ _ (by decide) (by decide), Dev.pealRun, if_pos rfl, hCount, fld_modTest, Dev.sliceBegun,
          fld_setFld_clear (by decide), fld_setFld_clear (by decide), Dev.freeToken, fld_modHeat]
    · exact ((hBegun.mono (by simp)).trans (hRun.mono (by simp))).trans (hEnd.mono (by simp))

end

/-- Settles O57: a slice's work leaves what the slice shows; a relief's phases copy, clear and return one bank, found by the byte's bank. -/
theorem pealRelievesBanks : Obligations.PealRelievesBanks := by
  unfold Obligations.PealRelievesBanks
  intro s c bank tour late bad g r hQuiet
  have hq : s.dev.quiet = true := hQuiet
  refine ⟨fun hMay hFits => ?_, fun hMay hFree => ?_, fun hLook hLasts hBank hCanon hCool => ?_⟩
  · obtain ⟨t, hExec, hPending, ⟨h1, h2, h3, h4, h5⟩, hRest⟩ := pealSlice_relief hq tour late hMay hFits
    exact ⟨t, hExec, hPending, ⟨h1, h2, h3, h4, h5⟩, hRest⟩
  · obtain ⟨t, hExec, hPending, ⟨h1, h2, h3, h4, h5⟩, hRest⟩ := pealSlice_reliefTest (bad := bad) hq tour late hMay hFree
    exact ⟨t, hExec, hPending, ⟨h1, h2, h3, h4, h5⟩, hRest⟩
  · have hWf : s.dev.memWf = true := by
      unfold Dev.canonical at hCanon
      rw [Bool.and_eq_true, Bool.and_eq_true] at hCanon
      exact hCanon.1.2
    exact ⟨fun hPhase => reliefPhase_copyOut hq hLook hLasts hCool hBank hPhase hWf,
      fun hPhase => ⟨reliefPhase_march hq hLook hLasts hCool hBank hPhase,
        fun row hFree => reliefPhase_marchFault hq hLook hLasts hCool hPhase row hFree⟩,
      fun hPhase hStage => reliefPhase_copyBack hq hLook hLasts hCool hPhase hStage hWf⟩

end Sys2Proof.Machine

/-! # What a lane transmits (R160, R164, R168 to R175) -/

namespace Sys2Proof.Machine

set_option Elab.async false

/-! ## Control blocks -/

/-- Blocks sent change the scrambler, the line and the count toward the next QUAD. -/
theorem foldl_send_eq (i : Nat) (pol : Bool) (bs : List (Bool × Payload)) (l : LinkRec) :
    ∃ scr line count, bs.foldl (fun l b => l.send i pol b.1 b.2) l = { l with scr := scr, line := line, txCount := count } := by
  induction bs generalizing l with
  | nil => exact ⟨l.scr, l.line, l.txCount, rfl⟩
  | cons b bs ih =>
    obtain ⟨scr, line, count, h⟩ : ∃ scr line count, l.send i pol b.1 b.2 = { l with scr := scr, line := line, txCount := count } := by
      unfold LinkRec.send
      dsimp only
      split
      · exact ⟨_, _, _, rfl⟩
      · exact ⟨_, _, _, rfl⟩
    obtain ⟨scr', line', count', h'⟩ := ih (l.send i pol b.1 b.2)
    refine ⟨scr', line', count', ?_⟩
    rw [List.foldl_cons, h', h]

theorem send_short {l : LinkRec} {i : Nat} {pol control : Bool} {p : Payload} (h : ¬i ≤ l.txCount + 1) :
    l.send i pol control p = { l.put pol control p with txCount := l.txCount + 1 } := if_neg h

theorem send_due {l : LinkRec} {i : Nat} {pol control : Bool} {p : Payload} (h : i ≤ l.txCount + 1) :
    l.send i pol control p = { (l.put pol control p).put pol true (BitVec.ofNat 64 ctlQuad) with txCount := 0 } := if_pos h

/-- The transmitter after one control block. -/
def Dev.afterControl (d : Dev) (n : Nat) (p : Payload) : LinkRec :=
  { (d.link n).send (quadInterval (d.fld (laneBase n) Reg.TX_QUAD.INTERVAL)) (d.txPol n) true p with lastTx := some (.control p) }

theorem sendControl_leaves {d : Dev} {n : Nat} (p : Payload) (hOut : d.looped n = false) :
    (d.sendControl n p).link n = d.afterControl n p ∧ (d.sendControl n p).quiet = d.quiet ∧ OnlyParts [.links] d (d.sendControl n p) := by
  rw [Dev.sendControl, hOut, if_neg (by decide), Dev.sendBlocks]
  refine ⟨?_, ?_, ?_⟩
  · rw [link_modLink_same, link_modLink_same]
    rfl
  · rw [quiet_modLink, quiet_modLink]
  · simp

/-- What is sent next and what waits, after one control block. -/
theorem afterControl_kept (d : Dev) (n : Nat) (p : Payload) :
    (d.afterControl n p).lastTx = some (.control p) ∧ (d.afterControl n p).txQueue = (d.link n).txQueue :=
  ⟨rfl, (send_kept ..).txQueue⟩

/-- ANNOUNCE begins anew (R160, R166). -/
theorem beginAnnounce_leaves (d : Dev) (n : Nat) :
    (d.beginAnnounce n).nego n = negoAnnouncing ∧ (d.beginAnnounce n).version n = d.version n ∧
    (d.beginAnnounce n).fld (laneBase n) Reg.LINK_STATE.SEEN_TX = 0 ∧ (d.beginAnnounce n).fld (laneBase n) Reg.LINK_STATE.ANNOUNCE_TX = 1 ∧
    ((d.beginAnnounce n).link n).lastAnn = none ∧ OnlyParts [.regs, .links] d (d.beginAnnounce n) ∧
    OnlyWindow (laneBase n) d (d.beginAnnounce n) := by
  unfold Dev.beginAnnounce
  dsimp only
  generalize hc : d.modLink n _ = c
  have hLast : (c.link n).lastAnn = none := by rw [← hc, link_modLink_same]
  have hReg : c.reg = d.reg := by rw [← hc]; rfl
  have hParts : OnlyParts [.links] d c := by rw [← hc]; simp
  have hFlds := ((((LinkStep.refl n [Reg.LINK_STATE.SEEN_TX, Reg.LINK_STATE.SEEN_RX, Reg.LINK_STATE.ANNOUNCE_TX, Reg.LINK_STATE.NEGO] c).setFld
    (by simp : Reg.LINK_STATE.SEEN_TX ∈ _) 0).setFld (by simp : Reg.LINK_STATE.SEEN_RX ∈ _) 0).setFld
    (by simp : Reg.LINK_STATE.ANNOUNCE_TX ∈ _) 1).setFld (by simp : Reg.LINK_STATE.NEGO ∈ _) negoAnnouncing
  have hSent := (LinkStep.refl n [] (((((c.setFld (laneBase n) Reg.LINK_STATE.SEEN_TX 0).setFld (laneBase n)
    Reg.LINK_STATE.SEEN_RX 0).setFld (laneBase n) Reg.LINK_STATE.ANNOUNCE_TX 1)).setNego n negoAnnouncing)).sendAnnounce
  have hAll := hFlds.trans (hSent.mono (by simp))
  have hWindow := hAll.window (by decide)
  have hSame (f : Fld) := hSent.flds f (by simp)
  refine ⟨?_, ?_, ?_, ?_, ?_, ?_, ?_⟩
  · rw [Dev.nego, hSame, Dev.setNego, fld_setFld_lt (by decide) (by decide)]
  · rw [Dev.version, hAll.flds _ (by decide), Dev.fld, hReg, Dev.version, Dev.fld]
  · rw [hSame, Dev.setNego, fld_setFld_clear (by decide), fld_setFld_clear (by decide), fld_setFld_clear (by decide),
      fld_setFld_lt (by decide) (by decide)]
  · rw [hSame, Dev.setNego, fld_setFld_clear (by decide), fld_setFld_lt (by decide) (by decide)]
  · rw [hAll.link.lastAnn, hLast]
  · exact (hParts.mono (by simp)).trans hAll.parts
  · intro a ha
    rw [hWindow a ha, hReg]

theorem loopEnd_step (d : Dev) (n : Nat) : LinkStep n [Reg.LINK_STATE.LOOPED, Reg.LINK_EVENT.PROOF_EXITED] d (d.loopEnd n) :=
  .ite (((LinkStep.refl n _ d).setFld (by simp) 0).raise (by simp)) (.refl _ _ _)

section
variable {s : State} {n : Fin 144} (hq : s.dev.quiet = true)
include hq

theorem announceTransmit_sends (hSends : s.dev.fld (laneBase n) Reg.LINK_STATE.ANNOUNCE_TX = 1) (hOut : s.dev.looped n = false) :
    Completes (.announceTransmit n) s fun e =>
      e.link n = s.dev.afterControl n (s.dev.announceBlock n) ∧ OnlyParts [.links] s.dev e := by
  obtain ⟨hLink, hQuiet, hParts⟩ := sendControl_leaves (s.dev.announceBlock n) hOut
  have hOp : opAnnounceTransmit n s.dev = s.dev.sendControl n (s.dev.announceBlock n) := by
    rw [opAnnounceTransmit, Dev.flag, hSends]
    exact if_pos rfl
  refine completes_quiet (f := opAnnounceTransmit n) rfl ?_ ?_ <;> rw [hOp]
  · rw [hQuiet, hq]
  · exact ⟨hLink, hParts⟩

theorem creditTransmit_sends (hVer : 0x11 ≤ s.dev.version n) (hOut : s.dev.looped n = false) (hF : (s.dev.link n).rxLimF < 2 ^ 16)
    (hM : (s.dev.link n).rxLimM < 2 ^ 16) :
    Completes (.creditTransmit n) s fun e =>
      (e.link n).lastTx = some (.control (withChk (ctlCredit + (s.dev.link n).rxLimF * 2 ^ 8 + (s.dev.link n).rxLimM * 2 ^ 24))) ∧
      (e.link n).creditDue = false ∧ OnlyParts [.links] s.dev e := by
  obtain ⟨hLink, hQuiet, hParts⟩ := sendControl_leaves
    (withChk (ctlCredit + (s.dev.link n).rxLimF * 2 ^ 8 + (s.dev.link n).rxLimM * 2 ^ 24)) hOut
  have hOp : opCreditTransmit n s.dev =
      (s.dev.sendControl n (withChk (ctlCredit + (s.dev.link n).rxLimF * 2 ^ 8 + (s.dev.link n).rxLimM * 2 ^ 24))).modLink n fun l =>
        { l with creditDue := false } := by
    rw [opCreditTransmit, hOut, if_neg (by simp; omega)]
    dsimp only
    rw [Nat.mod_eq_of_lt hF, Nat.mod_eq_of_lt hM]
  refine completes_quiet (f := opCreditTransmit n) rfl ?_ ?_ <;> rw [hOp]
  · rw [quiet_modLink, hQuiet, hq]
  · rw [link_modLink_same, hLink]
    exact ⟨rfl, rfl, by simpa using hParts⟩

theorem markTransmit_sends (hEn : s.dev.fld (laneBase n) Reg.LINK_CTRL.MARK_TX_EN = 1) (hVer : s.dev.version n ≠ 0)
    (hOut : s.dev.looped n = false) (hDue : s.dev.now % 2 ^ s.dev.fld (laneBase n) Reg.LINK_CTRL.MARK_PERIOD = 0) :
    Completes (.markTransmit n) s fun e =>
      (e.link n).lastTx = some (.control (withChk (ctlMark + s.dev.now * 2 ^ 8))) ∧ OnlyParts [.links] s.dev e := by
  obtain ⟨hLink, hQuiet, hParts⟩ := sendControl_leaves (withChk (ctlMark + s.dev.now * 2 ^ 8)) hOut
  have hOp : opMarkTransmit n s.dev = s.dev.sendControl n (withChk (ctlMark + s.dev.now * 2 ^ 8)) := by
    rw [opMarkTransmit, Dev.flag, hEn, hDue]
    exact if_pos (by simp [hVer])
  refine completes_quiet (f := opMarkTransmit n) rfl ?_ ?_ <;> rw [hOp]
  · rw [hQuiet, hq]
  · exact ⟨by rw [hLink, (afterControl_kept ..).1], hParts⟩

/-- PROOF_ON and PROOF_OFF send a PROOF with their ACTION (R175). -/
theorem proofCommand_sends {c : Instr} {path : Fin 8} {f : Fld} (action : Nat)
    (he : exec c s = onDev (fun d => d.viaCtl path (linkCtrlAddr n) [(f, 1)] fun d => d.proofSend n action) s)
    (hReach : s.dev.reached path (linkCtrlAddr n) = true) (hAgreed : s.dev.agreed n featProof = true) (hOut : s.dev.looped n = false) :
    Completes c s fun e =>
      (e.link n).lastTx = some (.control (withChk (ctlProof + action * 2 ^ 8))) ∧ e.answered path stOk 0 ∧
      OnlyParts [.ctl, .links] s.dev e := by
  obtain ⟨hLink, hQuiet, hParts⟩ := sendControl_leaves (withChk (ctlProof + action * 2 ^ 8)) hOut
  have hSend : s.dev.proofSend n action = s.dev.sendControl n (withChk (ctlProof + action * 2 ^ 8)) := if_pos hAgreed
  refine completes_viaWord he hReach ?_ ?_ <;> rw [hSend]
  · rw [hQuiet, hq]
  · refine ⟨?_, finish_answered .., ?_⟩
    · show ((s.dev.sendControl n _).link n).lastTx = _
      rw [hLink, (afterControl_kept ..).1]
    · simpa using hParts.mono (m := [.ctl, .links]) (by simp)

/-! ## Negotiation -/

theorem announceTimeout_assumes (hNego : s.dev.nego n = negoAnnouncing) (hSeen : (s.dev.link n).annSeen = false)
    (hEmpty : (s.dev.link n).txQueue = []) :
    Completes (.announceTimeout n) s fun e =>
      e.nego n = negoAssumed ∧ e.version n = 0x10 ∧ e.fld (laneBase n) Reg.LINK_STATE.ANNOUNCE_TX = 0 ∧
      e.fld (laneBase n) Reg.LINK_EVENT.ASSUMED_1_0 = 1 ∧ e.reg (laneBase n + Reg.AGREED_FEAT.FEATURES.off) = 0 ∧
      OnlyParts [.regs, .links] s.dev e ∧ OnlyWindow (laneBase n) s.dev e := by
  have hOp : opAnnounceTimeout n s.dev =
      (((((s.dev.setNego n negoAssumed).setFld (laneBase n) Reg.LINK_STATE.ANNOUNCE_TX 0).raise (laneBase n)
        Reg.LINK_EVENT.ASSUMED_1_0).setFld (laneBase n) Reg.LINK_VER.NEGOTIATED 0x10).setReg
        (laneBase n + Reg.AGREED_FEAT.FEATURES.off) 0).txPurge n := by
    rw [opAnnounceTimeout, hNego, hSeen]
    exact if_pos ⟨rfl, rfl⟩
  generalize hc : ((((s.dev.setNego n negoAssumed).setFld (laneBase n) Reg.LINK_STATE.ANNOUNCE_TX 0).raise (laneBase n)
    Reg.LINK_EVENT.ASSUMED_1_0).setFld (laneBase n) Reg.LINK_VER.NEGOTIATED 0x10).setReg
    (laneBase n + Reg.AGREED_FEAT.FEATURES.off) 0 = c at hOp
  have hStep : LinkStep n [Reg.LINK_STATE.NEGO, Reg.LINK_STATE.ANNOUNCE_TX, Reg.LINK_EVENT.ASSUMED_1_0, Reg.LINK_VER.NEGOTIATED,
      Reg.AGREED_FEAT.FEATURES] s.dev c := by
    rw [← hc]
    exact (((((LinkStep.refl n _ s.dev).setFld (by simp) _).setFld (by simp) _).raise (by simp)).setFld (by simp) _).setReg
      (by simp) rfl rfl _
  have hPurge : LinkStep n [] c (c.txPurge n) := (LinkStep.refl n [] c).txPurge (hStep.link.txQueue.trans hEmpty)
  have hFld (f : Fld) : (c.txPurge n).fld (laneBase n) f = c.fld (laneBase n) f := hPurge.flds f (by simp)
  have hReg (a : Nat) : (c.txPurge n).reg a = c.reg a := hPurge.regs a (by simp)
  have hAll : LinkStep n _ s.dev (c.txPurge n) := hStep.trans (hPurge.mono (by simp))
  have hWindow := hAll.window (by decide)
  have hAgreed {d : Dev} {f : Fld} (hf : Reg.AGREED_FEAT.FEATURES.off ≠ f.off) :
      (d.setReg (laneBase n + Reg.AGREED_FEAT.FEATURES.off) 0).fld (laneBase n) f = d.fld (laneBase n) f := by
    rw [Dev.fld, reg_setReg, if_neg (by omega), Dev.fld]
  refine completes_quiet (f := opAnnounceTimeout n) rfl ?_ ?_ <;> rw [hOp]
  · rw [quiet_of_lane_window hAll.parts hWindow, hq]
  · rw [Dev.nego, Dev.version, hFld, hFld, hFld, hFld, hReg]
    refine ⟨?_, ?_, ?_, ?_, ?_, hAll.parts, hWindow⟩ <;> rw [← hc]
    · rw [hAgreed (by decide), fld_setFld_clear (by decide), Dev.raise, fld_setFld_clear (by decide), fld_setFld_clear (by decide),
        Dev.setNego, fld_setFld_lt (by decide) (by decide)]
    · rw [hAgreed (by decide), fld_setFld_lt (by decide) (by decide)]
    · rw [hAgreed (by decide), fld_setFld_clear (by decide), Dev.raise, fld_setFld_clear (by decide), fld_setFld_lt (by decide) (by decide)]
    · rw [hAgreed (by decide), fld_setFld_clear (by decide), fld_raise_same (by decide) (by decide)]
    · rw [reg_setReg, if_pos rfl]

theorem renegotiate_announces {path : Fin 8} (hReach : s.dev.reached path (linkCtrlAddr n) = true) (hNego : s.dev.nego n ≠ negoDown)
    (hVer : s.dev.version n ≠ 0) :
    Completes (.renegotiate path n) s fun e =>
      e.nego n = negoAnnouncing ∧ e.version n = s.dev.version n ∧ e.fld (laneBase n) Reg.LINK_STATE.SEEN_TX = 0 ∧
      e.fld (laneBase n) Reg.LINK_STATE.ANNOUNCE_TX = 1 ∧ (e.link n).lastAnn = none ∧ e.answered path stOk 0 ∧
      OnlyParts [.regs, .ctl, .links] s.dev e ∧ OnlyWindow (laneBase n) s.dev e := by
  have hLoop := loopEnd_step s.dev n
  have hSame : (s.dev.loopEnd n).version n = s.dev.version n := hLoop.flds _ (by decide)
  have hOp : s.dev.renegotiate n = (s.dev.loopEnd n).beginAnnounce n := by
    rw [Dev.renegotiate]
    dsimp only
    rw [if_neg hNego, if_neg (by rw [hSame]; exact hVer)]
  obtain ⟨hAnn, hKept, hTx, hOn, hLast, hParts, hWindow⟩ := beginAnnounce_leaves (s.dev.loopEnd n) n
  have hPartsAll := hLoop.parts.trans hParts
  have hWindowAll : OnlyWindow (laneBase n) s.dev ((s.dev.loopEnd n).beginAnnounce n) := fun a ha =>
    (hWindow a ha).trans (hLoop.window (by decide) a ha)
  refine completes_viaWord (f := fun d => d.renegotiate n) rfl hReach ?_ ?_ <;> rw [hOp]
  · rw [quiet_of_lane_window hPartsAll hWindowAll, hq]
  · rw [Dev.nego, Dev.version, fld_finish, fld_finish, fld_finish, fld_finish]
    exact ⟨hAnn, hKept.trans hSame, hTx, hOn, hLast, finish_answered .., by simpa using hPartsAll.mono (m := [.regs, .ctl, .links]) (by simp),
      fun a ha => hWindowAll a ha⟩

end

/-! ## Messages -/

/-- The one waiting message begins where credit allows it. -/
theorem opMessageTransmit_one {d : Dev} {n : Fin 144} {t : TxMsg} (hOne : (d.link n).txQueue = [t]) :
    opMessageTransmit n [] d = if d.txAllowed n t.msg then d.transmit n t else d := by
  rw [opMessageTransmit, Dev.withPorts, if_pos rfl, hOne]
  cases h : d.txAllowed n t.msg <;> simp [txBest, h]

/-- What the lane's record holds once a message has left that waited alone. -/
structure Leaves (n : Nat) (m : Msg) (isF isM : Bool) (d e : Dev) : Prop where
  queue : (e.link n).txQueue = []
  last : (e.link n).lastTx = some (.message (somOf m) m.body (eomOf (d.version n) (somOf m) m.body))
  consF : (e.link n).consF = if isF then ((d.link n).consF + msgUnits m.body.length) % 2 ^ 16 else (d.link n).consF
  consM : (e.link n).consM = if isM then ((d.link n).consM + msgUnits m.body.length) % 2 ^ 16 else (d.link n).consM
  parts : OnlyParts [.links] d e
  quiet : e.quiet = d.quiet

/-- A numbered and shaped message leaves: its blocks, and then its end. -/
def Dev.leaves (d : Dev) (n : Nat) (first t : TxMsg) : Dev :=
  (d.sendBlocks n ((true, somOf t.msg) :: (t.msg.body.map fun p => (false, p)) ++
    [(true, eomOf (d.version n) (somOf t.msg) t.msg.body)])).modLink n fun l =>
    { l with
      txQueue := l.txQueue.erase first
      lastTx := some (.message (somOf t.msg) t.msg.body (eomOf (d.version n) (somOf t.msg) t.msg.body))
      consF := if creditClass t.msg.typ = .f then (l.consF + msgUnits t.msg.body.length) % 2 ^ 16 else l.consF
      consM := if creditClass t.msg.typ = .m then (l.consM + msgUnits t.msg.body.length) % 2 ^ 16 else l.consM
      mgmtTags := if t.msg.typ = msgMgmtResp ∧ t.orig = .mgmt then l.mgmtTags.erase (t.msg.route % 256) else l.mgmtTags }

theorem leaves_alone {d : Dev} {n : Nat} {first : TxMsg} (t : TxMsg) (hOne : (d.link n).txQueue = [first]) (hWait : (d.link n).mgmtWait = []) :
    Leaves n t.msg (decide (creditClass t.msg.typ = .f)) (decide (creditClass t.msg.typ = .m)) d (d.leaves n first t) ∧
    ((d.leaves n first t).link n).mgmtWait = [] := by
  unfold Dev.leaves Dev.sendBlocks
  obtain ⟨scr, line, count, hSend⟩ := foldl_send_eq (quadInterval (d.fld (laneBase n) Reg.TX_QUAD.INTERVAL)) (d.txPol n)
    ((true, somOf t.msg) :: (t.msg.body.map fun p => (false, p)) ++ [(true, eomOf (d.version n) (somOf t.msg) t.msg.body)]) (d.link n)
  refine ⟨⟨?_, ?_, ?_, ?_, ?_, ?_⟩, ?_⟩
  · rw [link_modLink_same, link_modLink_same, hSend]
    show (d.link n).txQueue.erase first = []
    rw [hOne]
    exact List.erase_cons_head ..
  · rw [link_modLink_same]
  · rw [link_modLink_same, link_modLink_same, hSend]
    simp only [decide_eq_true_eq]
  · rw [link_modLink_same, link_modLink_same, hSend]
    simp only [decide_eq_true_eq]
  · simp
  · rw [quiet_modLink, quiet_modLink]
  · rw [link_modLink_same, link_modLink_same, hSend]
    exact hWait

theorem link_count (d : Dev) (b n : Nat) (f : Fld) : (d.count b f).link n = d.link n := by
  rw [Dev.link, count_links, Dev.link]

theorem mgmtServe_none {d : Dev} {n : Nat} (h : (d.link n).mgmtWait = []) : d.mgmtServe n = d := by
  rw [Dev.mgmtServe, h]
  rfl

section
variable {s : State} {n : Fin 144} {t : TxMsg} (hq : s.dev.quiet = true) (hOne : (s.dev.link n).txQueue = [t])
  (hWait : (s.dev.link n).mgmtWait = [])
include hq hOne hWait

theorem messageTransmit_event (hOrig : t.orig = .eventNotice) (hTyp : t.msg.typ = msgEvent) (hOut : s.dev.looped n = false)
    (hCredit : msgUnits t.msg.body.length ≤ ((s.dev.link n).limitM + 2 ^ 16 - (s.dev.link n).consM % 2 ^ 16) % 2 ^ 16) :
    Completes (.messageTransmit n []) s fun e =>
      Leaves n { t.msg with route := s.dev.ctl.eventSeq } false true
        (s.dev.modCtl fun c => { c with eventSeq := (c.eventSeq + 1) % 2 ^ 16 }) e := by
  obtain ⟨m, orig⟩ := t
  change orig = _ at hOrig
  change m.typ = _ at hTyp
  subst hOrig
  have hAllow : s.dev.txAllowed n m = true := by
    simp only [Dev.txAllowed, hTyp, show creditClass msgEvent = .m from by decide, hOut, Bool.not_false, Bool.true_and, decide_eq_true_eq]
    exact hCredit
  obtain ⟨hLeaves, hNone⟩ := leaves_alone (d := s.dev.modCtl fun c => { c with eventSeq := (c.eventSeq + 1) % 2 ^ 16 }) (first := ⟨m, .eventNotice⟩)
    ⟨{ m with route := s.dev.ctl.eventSeq }, .eventNotice⟩ hOne hWait
  have hShaped : (s.dev.modCtl fun c => { c with eventSeq := (c.eventSeq + 1) % 2 ^ 16 }).shaped n { m with route := s.dev.ctl.eventSeq } =
      { m with route := s.dev.ctl.eventSeq } := if_neg (by rw [hTyp]; simp [msgEvent, msgAccept])
  have hOp : opMessageTransmit n [] s.dev = (s.dev.modCtl fun c => { c with eventSeq := (c.eventSeq + 1) % 2 ^ 16 }).leaves n ⟨m, .eventNotice⟩
      ⟨{ m with route := s.dev.ctl.eventSeq }, .eventNotice⟩ := by
    rw [opMessageTransmit_one hOne, hAllow, if_pos rfl, Dev.transmit, Dev.numbered]
    dsimp only
    rw [hShaped]
    exact mgmtServe_none hNone
  refine completes_quiet (f := opMessageTransmit n []) rfl ?_ ?_ <;> rw [hOp]
  · rw [hLeaves.quiet, quiet_modCtl, hq]
  · simpa [hTyp, show creditClass msgEvent = .m from by decide] using hLeaves

theorem messageTransmit_fragment {i : Fin 16} (hOrig : t.orig = .engine i) (hTyp : t.msg.typ = msgFragment) (hOut : s.dev.looped n = false)
    (hCredit : msgUnits t.msg.body.length ≤ ((s.dev.link n).limitF + 2 ^ 16 - (s.dev.link n).consF % 2 ^ 16) % 2 ^ 16) :
    Completes (.messageTransmit n []) s fun e =>
      ∃ c, Leaves n t.msg true false s.dev c ∧ e = c.count (ringBase i) Reg.FRAG_COUNT.COUNT := by
  obtain ⟨m, orig⟩ := t
  change orig = _ at hOrig
  change m.typ = _ at hTyp
  subst hOrig
  have hAllow : s.dev.txAllowed n m = true := by
    simp only [Dev.txAllowed, hTyp, show creditClass msgFragment = .f from by decide, hOut, Bool.not_false, Bool.true_and, decide_eq_true_eq]
    exact hCredit
  obtain ⟨hLeaves, hNone⟩ := leaves_alone (d := s.dev) (first := ⟨m, .engine i⟩) ⟨m, .engine i⟩ hOne hWait
  have hShaped : s.dev.shaped n m = m := if_neg (by rw [hTyp]; simp [msgFragment, msgAccept])
  have hEnd (d : Dev) : d.txEnd n (.engine i) true = d.count (ringBase i) Reg.FRAG_COUNT.COUNT := by rw [Dev.txEnd, if_pos rfl]
  have hApart : rootBase + Reg.IRQ_CTRL.off ≠ ringBase i + Reg.FRAG_COUNT.COUNT.off := by
    simp only [ringBase, rootBase, Reg.IRQ_CTRL.off, Reg.FRAG_COUNT.COUNT]
    omega
  have hOp : opMessageTransmit n [] s.dev = (s.dev.leaves n ⟨m, .engine i⟩ ⟨m, .engine i⟩).count (ringBase i) Reg.FRAG_COUNT.COUNT := by
    rw [opMessageTransmit_one hOne, hAllow, if_pos rfl, Dev.transmit, Dev.numbered]
    dsimp only
    rw [hShaped]
    change ((s.dev.leaves n ⟨m, .engine i⟩ ⟨m, .engine i⟩).txEnd n (.engine i) true).mgmtServe n = _
    rw [hEnd, mgmtServe_none (by rw [link_count]; exact hNone)]
  refine completes_quiet (f := opMessageTransmit n []) rfl ?_ ?_ <;> rw [hOp]
  · rw [Dev.count, quiet_countBy _ _ _ _ hApart, hLeaves.quiet, hq]
  · exact ⟨_, by simpa [hTyp, show creditClass msgFragment = .f from by decide] using hLeaves, rfl⟩

omit hWait in
theorem messageTransmit_waits (hTyp : t.msg.typ = msgMgmtResp) (hLoop : s.dev.looped n = true) :
    Completes (.messageTransmit n []) s fun e => e = s.dev := by
  have hWaits : s.dev.txAllowed n t.msg = false := by
    simp only [Dev.txAllowed, hTyp, show creditClass msgMgmtResp = .m from by decide, hLoop, Bool.not_true, Bool.false_and]
  have hOp : opMessageTransmit n [] s.dev = s.dev := by
    rw [opMessageTransmit_one hOne, hWaits, if_neg (by decide)]
  refine completes_quiet (f := opMessageTransmit n []) rfl ?_ ?_ <;> rw [hOp]
  exact hq

end

/-- Settles O27: a control block changes the transmitter and the line alone, and a message that waits alone leaves as its origin says. -/
theorem laneTransmits : Obligations.LaneTransmits := by
  unfold Obligations.LaneTransmits
  intro s path n hQuiet b l sends quadDue scr
  have hq : s.dev.quiet = true := hQuiet
  refine ⟨fun hSends hOut => ?_, announceTimeout_assumes hq, fun hReach => ⟨renegotiate_announces hq hReach, fun hAgreed hOut => ⟨?_, ?_⟩⟩,
    creditTransmit_sends hq, markTransmit_sends hq, fun t hOne hWait => ⟨fun hOrig hTyp hOut hCredit => ?_,
      fun i hOrig hTyp hOut hCredit => ?_, fun hTyp _ hLoop => messageTransmit_waits hq hOne hTyp hLoop⟩⟩
  · obtain ⟨t, hExec, hPending, hLink, hParts⟩ := announceTransmit_sends hq hSends hOut
    refine ⟨t, hExec, hPending, ?_, ?_, fun hDue => ?_, fun hDue => ?_, hParts⟩
    · show (t.dev.link n).lastTx = _
      rw [hLink, (afterControl_kept ..).1]
    · rw [hLink, (afterControl_kept ..).2]
    · have hNone : ¬quadInterval (s.dev.fld (laneBase n) Reg.TX_QUAD.INTERVAL) ≤ (s.dev.link n).txCount + 1 := of_decide_eq_false hDue
      have hSend : s.dev.afterControl n (s.dev.announceBlock n) =
          { (s.dev.link n).put (s.dev.txPol n) true (s.dev.announceBlock n) with
            txCount := (s.dev.link n).txCount + 1, lastTx := some (.control (s.dev.announceBlock n)) } := by
        rw [Dev.afterControl, send_short hNone]
      rw [hLink, hSend]
      exact ⟨rfl, rfl, rfl⟩
    · have hSome : quadInterval (s.dev.fld (laneBase n) Reg.TX_QUAD.INTERVAL) ≤ (s.dev.link n).txCount + 1 := of_decide_eq_true hDue
      have hSend : s.dev.afterControl n (s.dev.announceBlock n) =
          { ((s.dev.link n).put (s.dev.txPol n) true (s.dev.announceBlock n)).put (s.dev.txPol n) true (BitVec.ofNat 64 ctlQuad) with
            txCount := 0, lastTx := some (.control (s.dev.announceBlock n)) } := by
        rw [Dev.afterControl, send_due hSome]
      rw [hLink, hSend]
      exact ⟨rfl, rfl⟩
  · exact proofCommand_sends (f := Reg.LINK_CTRL.PROOF_ON) hq 1 rfl hReach hAgreed hOut
  · exact proofCommand_sends (f := Reg.LINK_CTRL.PROOF_OFF) hq 2 rfl hReach hAgreed hOut
  · obtain ⟨u, hExec, hPending, hLeaves⟩ := messageTransmit_event hq hOne hWait hOrig hTyp hOut hCredit
    exact ⟨u, hExec, hPending, ⟨hLeaves.queue, hLeaves.last⟩, hLeaves.parts .ctl (by simp), hLeaves.consM, hLeaves.consF,
      (show OnlyParts [.ctl, .links] s.dev _ by simp).trans (hLeaves.parts.mono (by simp))⟩
  · obtain ⟨u, hExec, hPending, c, hLeaves, hCount⟩ := messageTransmit_fragment hq hOne hWait hOrig hTyp hOut hCredit
    have hReg (a : Nat) : c.reg a = s.dev.reg a := by
      have hRegs : c.regs = s.dev.regs := hLeaves.parts .regs (by simp)
      rw [Dev.reg, hRegs, Dev.reg]
    refine ⟨u, hExec, hPending, ?_⟩
    rw [hCount]
    refine ⟨?_, ?_, ?_, ?_, ?_, ?_⟩
    · show ((c.count (ringBase i) Reg.FRAG_COUNT.COUNT).link n).txQueue = [] ∧ ((c.count (ringBase i) Reg.FRAG_COUNT.COUNT).link n).lastTx = _
      rw [link_count]
      exact ⟨hLeaves.queue, hLeaves.last⟩
    · rw [link_count]
      exact hLeaves.consF
    · rw [link_count]
      exact hLeaves.consM
    · rw [Counted, Dev.count, fld_countBy_same (by decide), Dev.fld, hReg, Dev.fld]
    · exact (hLeaves.parts.mono (by simp)).trans (by simp)
    · exact OnlyRegs.trans (fun a _ => hReg a) (by simp)

end Sys2Proof.Machine

/-! # The crossing keeper's counts, registers and reference (R39, R42, R44, R52, R58, R59, R399) -/

namespace Sys2Proof.Machine

set_option Elab.async false

/-! ## Lateness, ARM and reads -/

theorem decideLate_counts {s : State} (hq : s.dev.quiet = true) (hCount : s.dev.counting = true) (hLat : s.dev.latL ≠ 0) :
    Completes .decideLate s fun e =>
      Counted keeperBase Reg.DECIDE_LATE_COUNT.COUNT 1 s.dev e ∧ e.fld keeperBase Reg.KEEP_EVENT.DECIDE_LATE = 1 ∧ OnlyParts [.regs] s.dev e ∧
      OnlyRegs [keeperBase + Reg.DECIDE_LATE_COUNT.COUNT.off, keeperBase + Reg.KEEP_EVENT.DECIDE_LATE.off] s.dev e := by
  have hOp : opDecideLate s.dev = (s.dev.count keeperBase Reg.DECIDE_LATE_COUNT.COUNT).raise keeperBase Reg.KEEP_EVENT.DECIDE_LATE := by
    rw [opDecideLate, hCount]
    exact if_pos (by simp [hLat])
  refine completes_quiet (f := opDecideLate) rfl ?_ ?_ <;> rw [hOp]
  · rw [quiet_raise _ _ _ (by decide), Dev.count, quiet_countBy _ _ _ _ (by decide), hq]
  · refine ⟨?_, fld_raise_same (by decide) (by decide), by simp, by simp⟩
    rw [Counted, Dev.raise, fld_setFld_clear (by decide), Dev.count, fld_countBy_same (by decide)]

theorem arm_arms {s : State} {path : Fin 8} (hq : s.dev.quiet = true) (hReach : s.dev.reached path keepCtrlAddr = true) :
    Completes (.arm path) s fun e =>
      e.fld keeperBase Reg.KEEP_STATUS.ARMED = 1 ∧ e.answered path stOk 0 ∧ OnlyParts [.regs, .ctl] s.dev e ∧
      OnlyRegs [keeperBase + Reg.KEEP_STATUS.ARMED.off] s.dev e := by
  refine completes_viaWord (f := Dev.armNow) rfl hReach ?_ ⟨?_, finish_answered .., by simp [Dev.armNow], by simp [Dev.armNow]⟩
  · rw [Dev.armNow, quiet_setFld _ _ _ _ (by decide), hq]
  · rw [fld_finish, Dev.armNow, fld_setFld_lt (by decide) (by decide)]

/-- A read of the low half answers it and captures the whole value (R39, R412). -/
theorem readLo_captures {c : Instr} {s : State} {path : Fin 8} {addr code v : Nat} {f : Dev → Nat}
    (he : exec c s = onDev (fun d => d.viaRead path addr fun d => d.readLo path code (f d)) s) (hv : f s.dev = v) (hq : s.dev.quiet = true)
    (hReach : s.dev.reached path addr = true) :
    Completes c s fun e =>
      e.answered path stOk (BitVec.ofNat 32 v) ∧ e.ctl.capture.num (path * 4 + code) = v ∧ OnlyParts [.ctl] s.dev e := by
  subst hv
  refine completes_quiet he ?_ ?_ <;> rw [viaRead_reached hReach]
  · exact hq
  · refine ⟨finish_answered .., ?_, ?_⟩
    · show (SMap.put _ _ _).num _ = _
      rw [SMap.num, SMap.at, SMap.look_put_same]
      rfl
    · simp [Dev.readLo]

/-! ## The ratio -/

/-- A ratio stored, with RATIO_ERR. -/
def Dev.ratioStored (d : Dev) (n xb err : Nat) : Dev :=
  ((d.setFld keeperBase Reg.KEEP_STATUS.RATIO_ERR err).setFld keeperBase Reg.KEEP_RATIO.N n).setFld keeperBase Reg.KEEP_RATIO.XB_MUL xb

theorem ratioStored_leaves (d : Dev) {n xb err : Nat} (hn : n < 32) (hx : xb < 256) (he : err < 2) :
    (d.ratioStored n xb err).fld keeperBase Reg.KEEP_RATIO.N = n ∧ (d.ratioStored n xb err).fld keeperBase Reg.KEEP_RATIO.XB_MUL = xb ∧
    (d.ratioStored n xb err).fld keeperBase Reg.KEEP_STATUS.RATIO_ERR = err ∧ OnlyParts [.regs] d (d.ratioStored n xb err) ∧
    OnlyRegs [keeperBase + Reg.KEEP_STATUS.RATIO_ERR.off, keeperBase + Reg.KEEP_RATIO.N.off] d (d.ratioStored n xb err) ∧
    (d.ratioStored n xb err).quiet = d.quiet := by
  have hMem : keeperBase + Reg.KEEP_RATIO.XB_MUL.off ∈ [keeperBase + Reg.KEEP_STATUS.RATIO_ERR.off, keeperBase + Reg.KEEP_RATIO.N.off] := by
    decide
  unfold Dev.ratioStored
  refine ⟨?_, fld_setFld_lt (by decide) hx, ?_, by simp, ?_, ?_⟩
  · rw [fld_setFld_clear (by decide), fld_setFld_lt (by decide) hn]
  · rw [fld_setFld_clear (by decide), fld_setFld_clear (by decide), fld_setFld_lt (by decide) he]
  · rw [onlyRegs_setFld hMem]
    simp
  · rw [quiet_setFld _ _ _ _ (by decide), quiet_setFld _ _ _ _ (by decide), quiet_setFld _ _ _ _ (by decide)]

/-- N as it is stored (R8). -/
def storedN (n : Nat) : Nat := if 4 ≤ n ∧ n ≤ 16 then n else 8

/-- The reference that a ratio asked for is judged by. -/
def Dev.judgedRef (d : Dev) : Nat := if d.clk.rootRef = 3 then d.fld keeperBase Reg.KEEP_CTRL.REF_SEL else d.clk.rootRef

theorem storedN_lt {n : Nat} : storedN n < 32 := by
  unfold storedN
  split <;> omega

/-- A quiet machine holds no change, so that a change dropped changes nothing. -/
theorem dropChange_quiet {d e : Dev} (hq : d.quiet = true) (hClk : e.clk = d.clk) : (e.modClk fun c => { c with changeHeld := false }) = e := by
  obtain ⟨-, hHeld, -, -, -⟩ := d.quiet_iff.mp hq
  have hHeld' : e.clk.changeHeld = false := by rw [hClk, hHeld]
  show { e with clk := { e.clk with changeHeld := false } } = e
  rw [← hHeld']

/-- What follows a ratio that has been stored. -/
def Dev.ratioFollows (d e : Dev) (n xb : Nat) : Dev :=
  if !d.ratioOk d.judgedRef (storedN n) xb || e.clk.rootRef == 3 ||
      (storedN n == e.clk.ratioN && (d.judgedRef == refCross || xb == e.clk.ratioXb)) then
    e.modClk fun c => { c with changeHeld := false }
  else if e.formeActive then e.modClk fun c => { c with changeHeld := true }
  else e.askChange d.judgedRef false

theorem askRatio_eq (d : Dev) (n xb : Nat) :
    d.askRatio n xb = d.ratioFollows (d.ratioStored (storedN n) xb (bit01 !d.ratioOk d.judgedRef (storedN n) xb)) n xb := rfl

/-- A ratio that is not taken up is stored alone. -/
theorem askRatio_stored {d : Dev} {n xb : Nat} (hq : d.quiet = true)
    (h : d.ratioOk d.judgedRef (storedN n) xb = false ∨ d.clk.rootRef = 3) :
    d.askRatio n xb = d.ratioStored (storedN n) xb (bit01 !d.ratioOk d.judgedRef (storedN n) xb) := by
  have hClk : (d.ratioStored (storedN n) xb (bit01 !d.ratioOk d.judgedRef (storedN n) xb)).clk = d.clk := by simp [Dev.ratioStored]
  rw [askRatio_eq, Dev.ratioFollows, hClk, if_pos, dropChange_quiet hq hClk]
  obtain h | h := h
  · rw [h]
    rfl
  · rw [h]
    simp

/-- A ratio that the forme in service makes wait. -/
theorem askRatio_held {d : Dev} {n xb : Nat} (hOk : d.ratioOk d.judgedRef (storedN n) xb = true) (hRef : d.clk.rootRef ≠ 3)
    (hActive : d.formeActive = true)
    (hNew : ¬(storedN n = d.clk.ratioN ∧ (d.clk.rootRef = refCross ∨ xb = d.clk.ratioXb))) :
    d.askRatio n xb = (d.ratioStored (storedN n) xb 0).modClk fun c => { c with changeHeld := true } := by
  have hJudged : d.judgedRef = d.clk.rootRef := if_neg hRef
  have hClk : (d.ratioStored (storedN n) xb 0).clk = d.clk := by simp [Dev.ratioStored]
  have hForme : (d.ratioStored (storedN n) xb 0).formeActive = true := by
    rw [← hActive, Dev.formeActive, Dev.ust, Dev.ratioStored, fld_setFld_other (by decide), fld_setFld_other (by decide),
      fld_setFld_other (by decide)]
    rfl
  rw [askRatio_eq, hOk, show bit01 (!true) = 0 from rfl, Dev.ratioFollows, hOk, hJudged, hClk, if_neg (by simpa [hRef] using hNew),
    if_pos hForme]

/-- A change that waits for the forme begins at no end of a command while the forme is in service (R399). -/
theorem settle_heldActive {d : Dev} (hq : d.quiet = true) (hActive : d.formeActive = true) :
    (d.modClk fun c => { c with changeHeld := true }).settle = d.modClk fun c => { c with changeHeld := true } := by
  obtain ⟨hDue, -, hDown, hIrq, -⟩ := d.quiet_iff.mp hq
  have hRests : (d.modClk fun c => { c with changeHeld := true }).formeRests = false := by
    unfold Dev.formeActive at hActive
    unfold Dev.formeRests
    rw [ust_modClk]
    cases h : d.ust formeBase <;> simp_all [UState.active]
  have hHeld : (d.modClk fun c => { c with changeHeld := true }).heldChange = d.modClk fun c => { c with changeHeld := true } := by
    rw [Dev.heldChange, hRests]
    simp
  unfold Dev.settle
  rw [loopsFall_none (by simpa using hDown), Dev.takeDue, if_pos (by simpa using hDue), hHeld]
  exact irqUpdate_off hIrq

/-! ## The obligation -/

/-- Settles O5: counts and reads leave the rest, and a ratio is stored before the grade's limit and the forme decide what follows. -/
theorem keeperCountsLatenessAndChecksRatios : Obligations.KeeperCountsLatenessAndChecksRatios := by
  unfold Obligations.KeeperCountsLatenessAndChecksRatios
  refine ⟨⟨fun s hq => decideLate_counts hq, fun s path hQuiet => ?_⟩, ?_⟩
  · have hq : s.dev.quiet = true := hQuiet
    refine ⟨arm_arms hq, fun hReach => readLo_captures (f := Dev.now) rfl rfl hq hReach,
      fun hReach => readLo_captures (f := fun d => d.keeper.lastBreach) rfl rfl hq hReach, fun hReach => ?_, fun hReach => ?_⟩
    · have h := readLo_captures (c := .cycLoRead path false) (f := fun d => d.clk.regCyc.toNat) rfl rfl hq hReach
      rwa [BitVec.ofNat_toNat] at h
    · have h := readLo_captures (c := .cycLoRead path true) (f := fun d => d.clk.trunkCyc.toNat) rfl rfl hq hReach
      rwa [BitVec.ofNat_toNat] at h
  · intro s path n xb hQuiet hReach m ref stored
    have hq : s.dev.quiet = true := hQuiet
    have hStored (err : Nat) (he : err < 2) : (s.dev.ratioStored m xb err).quiet = true ∧
        stored err ((s.dev.ratioStored m xb err).finish path stOk 0) := by
      obtain ⟨hN, hXb, hErr, hParts, hRegs, hKept⟩ := ratioStored_leaves s.dev (n := m) storedN_lt xb.isLt he
      refine ⟨hKept.trans hq, hN, hXb, hErr, finish_answered .., ?_, hRegs⟩
      simpa using hParts.mono (m := [.regs, .ctl, .clk]) (by simp)
    have hClk (err : Nat) : ((s.dev.ratioStored m xb err).finish path stOk 0).clk = s.dev.clk := by simp [Dev.ratioStored]
    refine ⟨fun hOver => ?_, fun hOk hNone => ?_, fun hOk hRef hActive hNew => ?_⟩
    · have hAsk : s.dev.askRatio n xb = s.dev.ratioStored m xb 1 := by
        rw [askRatio_stored hq (.inl hOver), show s.dev.ratioOk s.dev.judgedRef (storedN n) xb = false from hOver]
        rfl
      refine completes_viaWord (f := fun d => d.askRatio n xb) rfl hReach ?_ ?_ <;> rw [hAsk]
      · exact (hStored 1 (by decide)).1
      · exact ⟨(hStored 1 (by decide)).2, hClk 1⟩
    · have hAsk : s.dev.askRatio n xb = s.dev.ratioStored m xb 0 := by
        rw [askRatio_stored hq (.inr hNone), show s.dev.ratioOk s.dev.judgedRef (storedN n) xb = true from hOk]
        rfl
      refine completes_viaWord (f := fun d => d.askRatio n xb) rfl hReach ?_ ?_ <;> rw [hAsk]
      · exact (hStored 0 (by decide)).1
      · exact ⟨(hStored 0 (by decide)).2, hClk 0⟩
    · have hJudged : s.dev.judgedRef = ref := rfl
      have hAsk : s.dev.askRatio n xb = (s.dev.ratioStored m xb 0).modClk fun c => { c with changeHeld := true } :=
        askRatio_held hOk hRef hActive hNew
      obtain ⟨hQuietStored, hShown⟩ := hStored 0 (by decide)
      have hForme : ((s.dev.ratioStored m xb 0).finish path stOk 0).formeActive = true := by
        rw [← hActive, Dev.formeActive, ust_finish, Dev.ust, Dev.ratioStored, fld_setFld_other (by decide), fld_setFld_other (by decide),
          fld_setFld_other (by decide)]
        rfl
      have hOp : opKeepRatioWrite path n xb s.dev =
          ((s.dev.ratioStored m xb 0).finish path stOk 0).modClk fun c => { c with changeHeld := true } := by
        rw [opKeepRatioWrite, viaCtl_reached hReach, hAsk]
        rfl
      refine completes_any (f := opKeepRatioWrite path n xb) rfl ?_
      rw [hOp, settle_heldActive (by rw [quiet_finish]; exact hQuietStored) hForme]
      obtain ⟨h1, h2, h3, h4, h5, h6⟩ := hShown
      refine ⟨⟨h1, h2, h3, h4, ?_, h6⟩, ?_⟩
      · simpa using h5
      · rw [modClk_clk, hClk]

end Sys2Proof.Machine

/-! # The roots' reference is left and found again (R58, R59, R399) -/

namespace Sys2Proof.Machine

set_option Elab.async false

/-! ## The standby root seeks a reference -/

theorem pll_ne {r o a : Nat} (ho : o < 0x1000) (ha : a < 0x21000 ∨ 0x23000 ≤ a) (hr : r ≤ 1) : pllBase r + o ≠ a := by
  unfold pllBase
  omega

/-- A root that seeks a reference, with the trunk's sequencer at RELOCK. -/
theorem seekFirst_leaves {d : Dev} {c : Relock} (hRoot : c.root ≤ 1) (hRef : c.ref < 4) :
    (d.seekFirst c).clk = { d.clk with relock := some c, trunk := { d.clk.trunk with state := .relock } } ∧
    (d.seekFirst c).fld (pllBase c.root) Reg.PLL_STATUS.REF = c.ref ∧ (d.seekFirst c).fld (pllBase c.root) Reg.PLL_STATUS.LOCK = 0 ∧
    (d.seekFirst c).fld keeperBase Reg.KEEP_CTRL.REF_SEL = d.fld keeperBase Reg.KEEP_CTRL.REF_SEL ∧
    (d.seekFirst c).quiet = d.quiet ∧ OnlyParts [.regs, .clk] d (d.seekFirst c) := by
  have hPll (e : Dev) (f : Fld) (n : Nat) (hf : f.off < 0x1000) :
      (e.setFld clkBase Reg.CLK_STATUS.TRUNK_SEQ n).fld (pllBase c.root) f = e.fld (pllBase c.root) f :=
    fld_setFld_other (pll_ne hf (by decide) hRoot)
  have hKeep (e : Dev) (f : Fld) (n : Nat) (hf : f.off < 0x1000) :
      (e.setFld (pllBase c.root) f n).fld keeperBase Reg.KEEP_CTRL.REF_SEL = e.fld keeperBase Reg.KEEP_CTRL.REF_SEL :=
    fld_setFld_other (pll_ne hf (by decide) hRoot).symm
  have hQuiet (e : Dev) (f : Fld) (n : Nat) (hf : f.off < 0x1000) : (e.setFld (pllBase c.root) f n).quiet = e.quiet :=
    quiet_setFld _ _ _ _ (pll_ne hf (by decide) hRoot).symm
  have hClk : (d.rootSeeks c.root c.ref).clk = d.clk := by simp [Dev.rootSeeks]
  refine ⟨?_, ?_, ?_, ?_, ?_, ?_⟩
  · rw [Dev.seekFirst, Dev.setSeq, if_pos rfl, setFld_clk, modClk_clk, modClk_clk, hClk]
  · rw [Dev.seekFirst, Dev.setSeq, if_pos rfl, hPll _ _ _ (by decide), fld_modClk, fld_modClk, Dev.rootSeeks, fld_setFld_lt (by decide) hRef]
  · rw [Dev.seekFirst, Dev.setSeq, if_pos rfl, hPll _ _ _ (by decide), fld_modClk, fld_modClk, Dev.rootSeeks, fld_setFld_clear (by decide),
      fld_setFld_clear (by decide), fld_setFld_clear (by decide), fld_setFld_lt (by decide) (by decide)]
  · rw [Dev.seekFirst, Dev.setSeq, if_pos rfl, fld_setFld_other (by decide), fld_modClk, fld_modClk, Dev.rootSeeks, hKeep _ _ _ (by decide),
      hKeep _ _ _ (by decide), hKeep _ _ _ (by decide), hKeep _ _ _ (by decide)]
  · rw [Dev.seekFirst, Dev.setSeq, if_pos rfl, quiet_setFld _ _ _ _ (by decide), quiet_modClk _ _ rfl rfl, quiet_modClk _ _ rfl rfl,
      Dev.rootSeeks, hQuiet _ _ _ (by decide), hQuiet _ _ _ (by decide), hQuiet _ _ _ (by decide), hQuiet _ _ _ (by decide)]
  · simp [Dev.seekFirst, Dev.setSeq, Dev.rootSeeks]

/-- A change of the reference that the standby root can begin. -/
structure CanSeek (d : Dev) (ref : Nat) : Prop where
  free : d.clk.trunk.state = .run
  fromRoot : d.netSrc true = .loop
  roots : d.activeRoot ≤ 1
  other : d.pllOk d.standbyRoot = true
  fits : d.ratioOk ref d.ratioWanted.1 d.ratioWanted.2 = true

/-- The change that the standby root begins. -/
def Dev.seekOf (d : Dev) (ref : Nat) : Relock :=
  { ref := ref, n := d.ratioWanted.1, xb := d.ratioWanted.2, root := d.standbyRoot, tick := d.tick }

/-- What shows that the standby root of the machine before seeks a reference. -/
structure Seeks (d : Dev) (ref : Nat) (e : Dev) : Prop where
  state : e.clk.trunk.state = .relock
  shownRef : e.fld (pllBase d.standbyRoot) Reg.PLL_STATUS.REF = ref
  unlocked : e.fld (pllBase d.standbyRoot) Reg.PLL_STATUS.LOCK = 0
  relock : e.clk.relock = some (d.seekOf ref)

theorem ratioOk_congr {d e : Dev} (hKeeper : e.keeper = d.keeper) (hClk : e.clk = d.clk) (hIdent : e.ident = d.ident) (hMode : e.mode = d.mode)
    (ref n xb : Nat) : e.ratioOk ref n xb = d.ratioOk ref n xb := by
  unfold Dev.ratioOk Dev.ratioKHz Dev.crossFreq Dev.fabLimit
  rw [hKeeper, hClk, hIdent, hMode]

/-- A field of the keeper is nothing that the limit hangs on. -/
theorem ratioOk_setKeeper (d : Dev) (f : Fld) (v ref n xb : Nat) (hf : f.off < 0x1000) :
    (d.setFld keeperBase f v).ratioOk ref n xb = d.ratioOk ref n xb := by
  refine ratioOk_congr (setFld_keeper ..) (setFld_clk ..) (setFld_ident ..) (fld_setFld_other ?_) ref n xb
  simp only [powerBase, keeperBase, Reg.MODE_STATUS.MODE]
  omega

/-- RATIO_ERR is nothing that the roots are judged by. -/
theorem beginChange_seeks {d : Dev} {ref : Nat} (up : Bool) (h : CanSeek d ref) :
    d.beginChange ref up = (d.setFld keeperBase Reg.KEEP_STATUS.RATIO_ERR 0).seekFirst (d.seekOf ref) := by
  obtain ⟨-, hRoot, hRoots, hOther, hFits⟩ := h
  have hActive : (d.setFld keeperBase Reg.KEEP_STATUS.RATIO_ERR 0).activeRoot = d.activeRoot := fld_setFld_clear (by decide)
  have hStandby : (d.setFld keeperBase Reg.KEEP_STATUS.RATIO_ERR 0).standbyRoot = d.standbyRoot := by
    rw [Dev.standbyRoot, hActive, Dev.standbyRoot]
  have hLe : d.standbyRoot ≤ 1 := Nat.sub_le 1 _
  have hSrc : (d.setFld keeperBase Reg.KEEP_STATUS.RATIO_ERR 0).netSrc true = .loop := by
    rw [← hRoot, Dev.netSrc, fld_setFld_other (by decide), Dev.netSrc]
  have hOk : (d.setFld keeperBase Reg.KEEP_STATUS.RATIO_ERR 0).pllOk d.standbyRoot = true := by
    have hSame (f : Fld) (hf : f.off < 0x1000) :
        (d.setFld keeperBase Reg.KEEP_STATUS.RATIO_ERR 0).fld (pllBase d.standbyRoot) f = d.fld (pllBase d.standbyRoot) f :=
      fld_setFld_other (pll_ne hf (by decide) hLe)
    rw [← hOther, Dev.pllOk, Dev.runs, Dev.ust, Dev.flag, hSame _ (by decide), hSame _ (by decide)]
    rfl
  have hFits' : (d.setFld keeperBase Reg.KEEP_STATUS.RATIO_ERR 0).ratioOk ref d.ratioWanted.1 d.ratioWanted.2 = true :=
    (ratioOk_setKeeper _ _ _ _ _ _ (by decide)).trans hFits
  unfold Dev.beginChange Dev.seekOf
  dsimp only
  revert hFits hFits'
  generalize d.ratioWanted = w
  obtain ⟨n, xb⟩ := w
  intro hFits hFits'
  dsimp only at hFits hFits'
  rw [hFits, show bit01 (!true) = 0 from rfl]
  rw [show (if true = true then (n, xb) else (d.clk.ratioN, d.clk.ratioXb)) = (n, xb) from rfl]
  dsimp only
  rw [hFits', hSrc, hStandby, hOk]
  rfl

/-- What a change that the standby root begins leaves. -/
theorem seeks_beginChange {d : Dev} {ref : Nat} (up : Bool) (h : CanSeek d ref) (hRef : ref < 4) :
    Seeks d ref (d.beginChange ref up) ∧
    (d.beginChange ref up).fld keeperBase Reg.KEEP_CTRL.REF_SEL = d.fld keeperBase Reg.KEEP_CTRL.REF_SEL ∧
    (d.beginChange ref up).quiet = d.quiet ∧ OnlyParts [.regs, .clk] d (d.beginChange ref up) := by
  obtain ⟨hClk, hShown, hLock, hSel, hQuiet, hParts⟩ := seekFirst_leaves (d := d.setFld keeperBase Reg.KEEP_STATUS.RATIO_ERR 0)
    (c := d.seekOf ref) (Nat.sub_le 1 _) hRef
  rw [beginChange_seeks up h]
  refine ⟨⟨by rw [hClk], hShown, hLock, by rw [hClk]⟩, ?_, ?_, OnlyParts.trans (by simp) hParts⟩
  · rw [hSel, fld_setFld_clear (by decide)]
  · rw [hQuiet, quiet_setFld _ _ _ _ (by decide)]

theorem askChange_free {d : Dev} {ref : Nat} (up : Bool) (h : CanSeek d ref) : d.askChange ref up = d.beginChange ref up :=
  if_neg (not_not_intro h.free)

/-- REF_SEL, a field of the keeper, is nothing that a change hangs on. -/
theorem canSeek_refSel {d : Dev} {ref v : Nat} (h : CanSeek d ref) :
    CanSeek (d.setFld keeperBase Reg.KEEP_CTRL.REF_SEL v) ref ∧
    (d.setFld keeperBase Reg.KEEP_CTRL.REF_SEL v).seekOf ref = d.seekOf ref := by
  have hStandby : (d.setFld keeperBase Reg.KEEP_CTRL.REF_SEL v).standbyRoot = d.standbyRoot := by
    rw [Dev.standbyRoot, Dev.activeRoot, fld_setFld_clear (by decide)]
    rfl
  have hWanted : (d.setFld keeperBase Reg.KEEP_CTRL.REF_SEL v).ratioWanted = d.ratioWanted := by
    unfold Dev.ratioWanted Dev.formeActive Dev.ust
    rw [fld_setFld_other (by decide), fld_setFld_clear (by decide), fld_setFld_clear (by decide), setFld_clk]
  obtain ⟨hFree, hRoot, hRoots, hOther, hFits⟩ := h
  refine ⟨⟨hFree, ?_, ?_, ?_, ?_⟩, ?_⟩
  · rw [← hRoot, Dev.netSrc, fld_setFld_other (by decide), Dev.netSrc]
  · rwa [Dev.activeRoot, fld_setFld_clear (by decide)]
  · have hSame (f : Fld) (hf : f.off < 0x1000) :
        (d.setFld keeperBase Reg.KEEP_CTRL.REF_SEL v).fld (pllBase d.standbyRoot) f = d.fld (pllBase d.standbyRoot) f :=
      fld_setFld_other (pll_ne hf (by decide) (Nat.sub_le 1 _))
    rw [hStandby, ← hOther, Dev.pllOk, Dev.runs, Dev.ust, Dev.flag, hSame _ (by decide), hSame _ (by decide)]
    rfl
  · rw [hWanted, ratioOk_setKeeper _ _ _ _ _ _ (by decide)]
    exact hFits
  · rw [Dev.seekOf, hWanted, hStandby]
    rfl

section
variable {s : State} {path : Fin 8} (hq : s.dev.quiet = true)
include hq

theorem relock_seeks (h : CanSeek s.dev refCross) (hReach : s.dev.reached path keepCtrlAddr = true) :
    Completes (.relock path) s fun e =>
      Seeks s.dev refCross e ∧ e.answered path stOk 0 ∧ OnlyParts [.regs, .ctl, .clk] s.dev e := by
  obtain ⟨⟨h1, h2, h3, h4⟩, -, hQuiet, hParts⟩ := seeks_beginChange true h (by decide)
  have hOp : s.dev.relockNow = s.dev.beginChange refCross true := askChange_free true h
  refine completes_viaWord (f := Dev.relockNow) rfl hReach ?_ ?_ <;> rw [hOp]
  · rw [hQuiet, hq]
  · exact ⟨⟨h1, h2, h3, h4⟩, finish_answered .., by simpa using hParts.mono (m := [.regs, .ctl, .clk]) (by simp)⟩

theorem refSelWrite_seeks {xb : Bool} (h : CanSeek s.dev (bit01 xb)) (hReach : s.dev.reached path keepCtrlAddr = true)
    (hNew : s.dev.fld keeperBase Reg.KEEP_CTRL.REF_SEL ≠ bit01 xb) :
    Completes (.refSelWrite path xb) s fun e =>
      Seeks s.dev (bit01 xb) e ∧ e.fld keeperBase Reg.KEEP_CTRL.REF_SEL = bit01 xb ∧ e.answered path stOk 0 ∧
      OnlyParts [.regs, .ctl, .clk] s.dev e := by
  obtain ⟨hCan, hSame⟩ := canSeek_refSel (v := bit01 xb) h
  have hStandby : (s.dev.setFld keeperBase Reg.KEEP_CTRL.REF_SEL (bit01 xb)).standbyRoot = s.dev.standbyRoot := congrArg Relock.root hSame
  obtain ⟨⟨h1, h2, h3, h4⟩, hSel, hQuiet, hParts⟩ := seeks_beginChange false hCan (by cases xb <;> decide)
  rw [hStandby] at h2 h3
  rw [hSame] at h4
  have hOp : s.dev.refSel (bit01 xb) = (s.dev.setFld keeperBase Reg.KEEP_CTRL.REF_SEL (bit01 xb)).beginChange (bit01 xb) false := by
    rw [Dev.refSel, if_neg hNew, ← askChange_free false hCan]
    cases xb <;> rfl
  refine completes_viaWord (f := fun d => d.refSel (bit01 xb)) rfl hReach ?_ ?_ <;> rw [hOp]
  · rw [hQuiet, quiet_setFld _ _ _ _ (by decide), hq]
  · refine ⟨⟨h1, h2, h3, h4⟩, ?_, finish_answered .., ?_⟩
    · rw [fld_finish, hSel, fld_setFld_lt (by decide) (by cases xb <;> decide)]
    · have hAll := OnlyParts.trans (l := [.regs, .clk]) (show OnlyParts _ s.dev _ by simp) hParts
      simpa using hAll.mono (m := [.regs, .ctl, .clk]) (by simp)

theorem holdoverExpiry_seeks {t : Nat} (h : CanSeek s.dev refXb) (hHold : s.dev.keeper.holdoverTick = some t) (hDue : t + 64 ≤ s.dev.tick) :
    Completes .holdoverExpiry s fun e =>
      Seeks s.dev refXb e ∧ e.keeper = { s.dev.keeper with holdoverTick := none } ∧ OnlyParts [.regs, .keeper, .clk] s.dev e := by
  have hCan : CanSeek (s.dev.modKeeper fun k => { k with holdoverTick := none }) refXb := ⟨h.free, h.fromRoot, h.roots, h.other, h.fits⟩
  obtain ⟨⟨h1, h2, h3, h4⟩, -, hQuiet, hParts⟩ := seeks_beginChange false hCan (by decide)
  have hOp : opHoldoverExpiry s.dev = (s.dev.modKeeper fun k => { k with holdoverTick := none }).beginChange refXb false := by
    rw [opHoldoverExpiry, hHold]
    exact if_pos ⟨hDue, h.free, by rw [h.fromRoot]; decide⟩
  refine completes_quiet (f := opHoldoverExpiry) rfl ?_ ?_ <;> rw [hOp]
  · rw [hQuiet, quiet_modKeeper, hq]
  · refine ⟨⟨h1, h2, h3, h4⟩, hParts .keeper (by simp), ?_⟩
    exact OnlyParts.trans (by simp) (hParts.mono (by simp))

/-! ## Loss and return of CROSS_CLK -/

theorem crossBack_shows {kHz : Nat} (hEdges : kHz ≠ 0) (hOn : s.dev.clkOn = true) (hLost : s.dev.keeper.crossKHz = 0)
    (hOnce : s.dev.keeper.lastKHz ≠ 0) :
    Completes (.crossBack kHz) s fun e =>
      e.fld keeperBase Reg.KEEP_EVENT.CROSS_BACK = 1 ∧ e.keeper = { s.dev.keeper with crossKHz := kHz } ∧
      e.kryup = { s.dev.kryup with crossLost := false } ∧ OnlyParts [.regs, .keeper, .kryup] s.dev e ∧
      OnlyRegs [keeperBase + Reg.KEEP_EVENT.CROSS_BACK.off] s.dev e := by
  have hOp : opCrossBack kHz s.dev = ((s.dev.modKeeper fun k => { k with crossKHz := kHz }).modKryup fun k =>
      { k with crossLost := false }).raise keeperBase Reg.KEEP_EVENT.CROSS_BACK := by
    rw [opCrossBack, if_neg hEdges]
    refine if_pos ?_
    rw [decide_eq_true ⟨hLost, hOnce⟩]
    exact hOn
  refine completes_quiet (f := opCrossBack kHz) rfl ?_ ?_ <;> rw [hOp]
  · rw [quiet_raise _ _ _ (by decide), quiet_modKryup, quiet_modKeeper, hq]
    rfl
  · exact ⟨fld_raise_same (by decide) (by decide), by simp, by simp, by simp, by simp⟩

end

/-- The roots' HOLDOVER. -/
theorem holdRoots_leaves (d : Dev) (v : Nat) :
    OnlyParts [.regs] d (d.holdRoots v) ∧ (d.holdRoots v).quiet = d.quiet ∧
    (∀ a, a < 0x21000 ∨ 0x23000 ≤ a → (d.holdRoots v).reg a = d.reg a) := by
  have hOne (e : Dev) (r : Nat) (hr : r ≤ 1) :
      let e' := if e.pllOk r then e.setFld (pllBase r) Reg.PLL_STATUS.HOLDOVER v else e
      OnlyParts [.regs] e e' ∧ e'.quiet = e.quiet ∧ (∀ a, a < 0x21000 ∨ 0x23000 ≤ a → e'.reg a = e.reg a) := by
    dsimp only
    split
    · refine ⟨by simp, quiet_setFld _ _ _ _ (pll_ne (by decide) (by decide) hr).symm, fun a ha => ?_⟩
      rw [reg_setFld, if_neg (pll_ne (by decide) ha hr).symm]
    · exact ⟨by simp, rfl, fun _ _ => rfl⟩
  obtain ⟨hParts0, hQuiet0, hReg0⟩ := hOne d 0 (by decide)
  obtain ⟨hParts1, hQuiet1, hReg1⟩ := hOne _ 1 (by decide)
  exact ⟨hParts0.trans hParts1, hQuiet1.trans hQuiet0, fun a ha => (hReg1 a ha).trans (hReg0 a ha)⟩

/-- CROSS_CLK lost by roots that followed it, before Kryup is told. -/
def Dev.entersHoldover (d : Dev) : Dev :=
  (((((d.modKeeper fun k => { k with crossKHz := 0, lastKHz := if k.crossKHz = 0 then k.lastKHz else k.crossKHz }).raise keeperBase
    Reg.KEEP_EVENT.CROSS_LOST).setFld keeperBase Reg.KEEP_STATUS.HOLDOVER 1).holdRoots 1).modKeeper fun k =>
    { k with holdoverTick := some d.tick }).modKryup fun k => { k with crossLost := true }

theorem opCrossLost_follows {d : Dev} (hOn : d.clkOn = true) (hEdges : d.keeper.crossKHz ≠ 0)
    (hFollows : ∃ r ∈ [0, 1], d.pllOk r = true ∧ d.fld (pllBase r) Reg.PLL_STATUS.REF = refCross)
    (hHold : d.fld keeperBase Reg.KEEP_STATUS.HOLDOVER = 0) :
    ∃ w, opCrossLost d = d.entersHoldover.offer causeCrossLost w := by
  have hAny : ([0, 1].any fun r => d.pllOk r && d.fld (pllBase r) Reg.PLL_STATUS.REF == refCross) = true := by
    rw [List.any_eq_true]
    obtain ⟨r, hr, hOk, hRef⟩ := hFollows
    exact ⟨r, hr, by rw [hOk, hRef]; rfl⟩
  unfold opCrossLost
  dsimp only
  rw [hOn, hAny, Dev.flag, hHold, if_pos (by simp [hEdges])]
  exact ⟨_, rfl⟩

theorem entersHoldover_leaves (d : Dev) (hEdges : d.keeper.crossKHz ≠ 0) :
    d.entersHoldover.fld keeperBase Reg.KEEP_EVENT.CROSS_LOST = 1 ∧ d.entersHoldover.fld keeperBase Reg.KEEP_STATUS.HOLDOVER = 1 ∧
    d.entersHoldover.keeper = { d.keeper with crossKHz := 0, lastKHz := d.keeper.crossKHz, holdoverTick := some d.tick } ∧
    d.entersHoldover.kryup = { d.kryup with crossLost := true } ∧ d.entersHoldover.quiet = d.quiet ∧
    (∀ c, d.entersHoldover.latched c = d.latched c) ∧ OnlyParts [.regs, .keeper, .kryup] d d.entersHoldover := by
  unfold Dev.entersHoldover
  generalize hx : ((d.modKeeper fun k => { k with crossKHz := 0, lastKHz := if k.crossKHz = 0 then k.lastKHz else k.crossKHz }).raise keeperBase
    Reg.KEEP_EVENT.CROSS_LOST).setFld keeperBase Reg.KEEP_STATUS.HOLDOVER 1 = x
  obtain ⟨hParts, hQuiet, hReg⟩ := holdRoots_leaves x 1
  have hFld (f : Fld) (hf : f.off < 0x1000) : (x.holdRoots 1).fld keeperBase f = x.fld keeperBase f := by
    rw [Dev.fld, hReg _ (by simp only [keeperBase]; omega), Dev.fld]
  have hKeeper : (x.holdRoots 1).keeper = x.keeper := hParts .keeper (by simp)
  have hKryup : (x.holdRoots 1).kryup = x.kryup := hParts .kryup (by simp)
  refine ⟨?_, ?_, ?_, ?_, ?_, fun c => ?_, ?_⟩
  · rw [fld_modKryup, fld_modKeeper, hFld _ (by decide), ← hx, fld_setFld_clear (by decide), fld_raise_same (by decide) (by decide)]
  · rw [fld_modKryup, fld_modKeeper, hFld _ (by decide), ← hx, fld_setFld_lt (by decide) (by decide)]
  · rw [modKryup_keeper, modKeeper_keeper, hKeeper, ← hx, setFld_keeper, raise_keeper, modKeeper_keeper, if_neg hEdges]
  · rw [modKryup_kryup, modKeeper_kryup, hKryup, ← hx, setFld_kryup, raise_kryup, modKeeper_kryup]
  · rw [quiet_modKryup _ _ rfl, quiet_modKeeper, hQuiet, ← hx, quiet_setFld _ _ _ _ (by decide), quiet_raise _ _ _ (by decide),
      quiet_modKeeper]
  · rw [Dev.latched, reg_modKryup, reg_modKeeper, hReg _ (by decide), ← hx, reg_setFld, if_neg (by decide), reg_raise, if_neg (by decide),
      reg_modKeeper, Dev.latched]
  · have hx' : OnlyParts [.regs, .keeper, .kryup] d x := by
      rw [← hx]
      simp
    simpa using hx'.trans (hParts.mono (by simp))

theorem crossLost_holds {s : State} (hq : s.dev.quiet = true) (hOn : s.dev.clkOn = true) (hEdges : s.dev.keeper.crossKHz ≠ 0)
    (hFollows : ∃ r ∈ [0, 1], s.dev.pllOk r = true ∧ s.dev.fld (pllBase r) Reg.PLL_STATUS.REF = refCross)
    (hHold : s.dev.fld keeperBase Reg.KEEP_STATUS.HOLDOVER = 0) (hLatched : s.dev.latched causeCrossLost = true) :
    Completes .crossLost s fun e =>
      e.fld keeperBase Reg.KEEP_EVENT.CROSS_LOST = 1 ∧ e.fld keeperBase Reg.KEEP_STATUS.HOLDOVER = 1 ∧
      e.keeper = { s.dev.keeper with crossKHz := 0, lastKHz := s.dev.keeper.crossKHz, holdoverTick := some s.dev.tick } ∧
      e.kryup.crossLost = true ∧ OnlyParts [.regs, .keeper, .kryup] s.dev e := by
  obtain ⟨w, hOp⟩ := opCrossLost_follows hOn hEdges hFollows hHold
  obtain ⟨hLost, hHolds, hKeeper, hKryup, hQuiet, hLatch, hParts⟩ := entersHoldover_leaves s.dev hEdges
  have hSet : s.dev.entersHoldover.latched causeCrossLost = true := (hLatch _).trans hLatched
  obtain ⟨hNoted, -, hPartsAgain, hRegs⟩ := arrivesAgain_leaves hSet
  have hFld (f : Fld) (hf : f.off < 0x1000) :
      (s.dev.entersHoldover.arrivesAgain causeCrossLost).fld keeperBase f = s.dev.entersHoldover.fld keeperBase f := by
    rw [Dev.fld, hRegs _ (by simp only [keeperBase, kryupBase, Reg.KRY_STATUS.HOLD, List.mem_singleton]; omega), Dev.fld]
  refine completes_any (f := opCrossLost) rfl ?_
  rw [hOp, settle_offer_latched (hQuiet.trans hq) hSet]
  refine ⟨?_, ?_, ?_, ?_, hParts.trans (hPartsAgain.mono (by simp))⟩
  · rw [hFld _ (by decide), hLost]
  · rw [hFld _ (by decide), hHolds]
  · exact (hPartsAgain .keeper (by simp)).trans hKeeper
  · rw [hNoted, hKryup]

/-- Settles O6: a change begins with the other root where it can, and a loss of CROSS_CLK puts what followed it in holdover. -/
theorem referenceIsLeftAndFoundAgain : Obligations.ReferenceIsLeftAndFoundAgain := by
  unfold Obligations.ReferenceIsLeftAndFoundAgain
  refine ⟨fun s path xb hQuiet _ hFree hRoot hRoots hOther => ?_, fun s hQuiet hOn hEdges hFollows hHold hLatched =>
    crossLost_holds hQuiet hOn hEdges hFollows hHold hLatched, fun s kHz hQuiet hEdges hOn hLost hOnce => crossBack_shows hQuiet hEdges hOn hLost hOnce⟩
  have hq : s.dev.quiet = true := hQuiet
  have hCan {ref : Nat} (hFits : s.dev.ratioOk ref s.dev.ratioWanted.1 s.dev.ratioWanted.2 = true) : CanSeek s.dev ref :=
    ⟨hFree, hRoot, hRoots, hOther, hFits⟩
  refine ⟨fun hReach hFits => ?_, fun hReach hFits hNew => ?_, fun t hHold hDue hFits => ?_⟩
  · obtain ⟨u, hExec, hPending, ⟨h1, h2, h3, h4⟩, hRest⟩ := relock_seeks hq (hCan hFits) hReach
    exact ⟨u, hExec, hPending, ⟨h1, h2, h3, h4⟩, hRest⟩
  · obtain ⟨u, hExec, hPending, ⟨h1, h2, h3, h4⟩, hRest⟩ := refSelWrite_seeks hq (hCan hFits) hReach hNew
    exact ⟨u, hExec, hPending, ⟨h1, h2, h3, h4⟩, hRest⟩
  · obtain ⟨u, hExec, hPending, ⟨h1, h2, h3, h4⟩, hRest⟩ := holdoverExpiry_seeks hq (hCan hFits) hHold hDue
    exact ⟨u, hExec, hPending, ⟨h1, h2, h3, h4⟩, hRest⟩

end Sys2Proof.Machine

/-! # Crossing edges (R38, R40, R42, R43, R45, R53, R55, R56, R400, R401) -/

namespace Sys2Proof.Machine

set_option Elab.async false

/-! ## Steps taken for each of a list -/

theorem each_keeps {α : Type} {P : Dev → Prop} {f : Dev → α → Dev} (hStep : ∀ d x, P d → P (f d x)) (l : List α) {d : Dev} (h : P d) :
    P (d.each l f) := by
  induction l generalizing d with
  | nil => exact h
  | cons x xs ih => exact ih (hStep d x h)

/-! ## The crossing that begins -/

/-- The keeper when a crossing has begun. -/
def KeeperRec.begun (k : KeeperRec) (now latL : Nat) (half : Bool) : KeeperRec :=
  { k with now := now, released := false, breachNow := false, swallowed := {}, topP := {}, holds := {}, rowHalf := half
           notReadyLeft := k.notReadyLeft - 1, breaches := k.breaches.filter fun j => decide (crossSub now j ≤ latL) }

/-- A crossing begins, and the fence cells of cycling groups follow. -/
def Dev.crossingBegun (d : Dev) (dest : Nat) (half : Bool) : Dev :=
  ((d.beginCrossing dest).modKeeper fun k => { k with rowHalf := half }).each
    ((d.beginCrossing dest).modKeeper fun k => { k with rowHalf := half }).plates.cycling.keys fun e g => e.fenceUpdate d g

theorem crossingBegun_leaves (d : Dev) (dest : Nat) (half : Bool) :
    (d.crossingBegun dest half).keeper = d.keeper.begun dest d.latL half ∧
    (d.crossingBegun dest half).fabric = { d.fabric with cycle := {}, fences := (d.crossingBegun dest half).fabric.fences } ∧
    OnlyParts [.keeper, .fabric] d (d.crossingBegun dest half) ∧ (d.crossingBegun dest half).quiet = d.quiet := by
  refine each_keeps (P := fun e => e.keeper = d.keeper.begun dest d.latL half ∧
    e.fabric = { d.fabric with cycle := {}, fences := e.fabric.fences } ∧ OnlyParts [.keeper, .fabric] d e ∧ e.quiet = d.quiet) ?_ _ ?_
  · rintro e g ⟨hKeeper, hFabric, hParts, hQuiet⟩
    refine ⟨hKeeper, ?_, ?_, hQuiet⟩
    · have hMove : (e.fenceUpdate d g).fabric = { e.fabric with fences := (e.fenceUpdate d g).fabric.fences } := rfl
      exact hMove.trans (by rw [hFabric])
    · simpa [Dev.fenceUpdate, Dev.fenceMove] using hParts
  · exact ⟨rfl, rfl, by simp [Dev.beginCrossing], rfl⟩

/-- A crossing's beginning changes the keeper and the fabric alone. -/
theorem crossingBegun_eq (d : Dev) (dest : Nat) (half : Bool) : ∃ k f, d.crossingBegun dest half = { d with keeper := k, fabric := f } := by
  refine each_keeps (P := fun e => ∃ k f, e = { d with keeper := k, fabric := f }) ?_ _ ⟨_, _, rfl⟩
  rintro e g ⟨k, f, rfl⟩
  exact ⟨_, _, rfl⟩

/-! ## Pulses swallowed -/

/-- The counter of swallowed pulses. -/
def swallowAddr : Nat := damperBase + Reg.DMP_SWALLOW_COUNT.COUNT.off

/-- What the counting of swallowed pulses leaves. -/
structure SwallowKept (d e : Dev) : Prop where
  keeper : ∃ a b, e.keeper = { d.keeper with swallowed := a, topP := b }
  parts : OnlyParts [.regs, .keeper] d e
  regs : OnlyRegs [swallowAddr] d e
  quiet : e.quiet = d.quiet

theorem SwallowKept.refl (d : Dev) : SwallowKept d d := ⟨⟨_, _, rfl⟩, by simp, by simp, rfl⟩

theorem SwallowKept.fld {d e : Dev} (h : SwallowKept d e) {b : Nat} {f : Fld} (hf : b + f.off ≠ swallowAddr) : e.fld b f = d.fld b f := by
  rw [Dev.fld, h.regs _ (by simpa using hf), Dev.fld]

theorem SwallowKept.groupP {d e : Dev} (h : SwallowKept d e) (g : Nat) : e.groupP g = d.groupP g := by
  have hPower : e.power = d.power := h.parts .power (by simp)
  have hHeat : e.heat = d.heat := h.parts .heat (by simp)
  have hClk : e.clk = d.clk := h.parts .clk (by simp)
  have hStrike : e.strike = d.strike := h.parts .strike (by simp)
  have hOwn (g : Nat) : e.ownLevel g = d.ownLevel g := by rw [Dev.ownLevel, hPower, Dev.ownLevel]
  have hLevel : e.dampLevel g = d.dampLevel g := by
    unfold Dev.dampLevel
    simp only [hOwn, h.fld (show damperBase + Reg.DMP_ACTIVE.WIDE.off ≠ swallowAddr by decide)]
  have hCfg (level : Nat) : e.fld damperBase (if level = 1 then Reg.DMP_CFG.P1 else Reg.DMP_CFG.P2) =
      d.fld damperBase (if level = 1 then Reg.DMP_CFG.P1 else Reg.DMP_CFG.P2) := by
    split
    · exact h.fld (by decide)
    · exact h.fld (by decide)
  unfold Dev.groupP Dev.dampP Dev.swallowMax Dev.decisionGroup
  rw [hLevel, hCfg, hHeat, hClk, hStrike]

/-- The pulses of one group, where no group decides. -/
def Dev.swallowOne (d : Dev) (g : Nat) : Dev :=
  if d.groupP g = 0 then d
  else (d.modKeeper fun k => { k with swallowed := k.swallowed.put g (d.groupP g), topP := k.topP.put g (d.groupP g) }).countBy damperBase
    Reg.DMP_SWALLOW_COUNT.COUNT (d.groupP g)

theorem swallowOne_kept {d e : Dev} (h : SwallowKept d e) (g : Nat) : SwallowKept d (e.swallowOne g) := by
  unfold Dev.swallowOne
  split
  · exact h
  · obtain ⟨⟨a, b, hKeeper⟩, hParts, hRegs, hQuiet⟩ := h
    refine ⟨⟨a.put g (e.groupP g), b.put g (e.groupP g), ?_⟩, by simpa using hParts, ?_, ?_⟩
    · rw [countBy_keeper, modKeeper_keeper, hKeeper]
    · rw [onlyRegs_countBy (by simp [swallowAddr])]
      simpa using hRegs
    · rw [quiet_countBy _ _ _ _ (by decide), quiet_modKeeper, hQuiet]

theorem swallowOne_num (d : Dev) (g h : Nat) (hZero : d.keeper.swallowed.num g = 0) :
    (d.swallowOne g).keeper.swallowed.num h = if h = g then d.groupP g else d.keeper.swallowed.num h := by
  unfold Dev.swallowOne
  split
  · rename_i hNone
    split
    · rename_i hEq
      rw [hEq, hZero, hNone]
    · rfl
  · rw [countBy_keeper, modKeeper_keeper]
    show (SMap.put _ _ _).num h = _
    rw [SMap.num, SMap.at]
    split
    · rename_i hEq
      rw [hEq, SMap.look_put_same]
      rfl
    · rename_i hNe
      rw [SMap.look_put_other _ hNe]
      rfl

theorem each_swallowOne (d : Dev) (l : List Nat) (hNodup : l.Nodup) {e : Dev} (h : SwallowKept d e)
    (hZero : ∀ g ∈ l, e.keeper.swallowed.num g = 0) :
    SwallowKept d (e.each l Dev.swallowOne) ∧
    ∀ g, (e.each l Dev.swallowOne).keeper.swallowed.num g = if g ∈ l then d.groupP g else e.keeper.swallowed.num g := by
  induction l generalizing e with
  | nil => exact ⟨h, fun g => by simp [Dev.each]⟩
  | cons x xs ih =>
    obtain ⟨hNew, hRest⟩ := List.nodup_cons.mp hNodup
    have hNum (g : Nat) := swallowOne_num e x g (hZero x (by simp))
    obtain ⟨hKept, hAll⟩ := ih hRest (swallowOne_kept h x) fun g hg => by
      rw [hNum, if_neg (by rintro rfl; exact hNew hg), hZero g (by simp [hg])]
    refine ⟨hKept, fun g => (hAll g).trans ?_⟩
    rw [hNum, h.groupP]
    by_cases hx : g = x
    · simp [hx, hNew]
    · simp [hx]

/-- Where no group decides, no budget is exceeded. -/
theorem checkBudget_none {d : Dev} (hNone : d.strike.groups = []) (g : Nat) : d.checkBudget g = d := by
  have hGroup : d.decisionGroup g = false := by rw [Dev.decisionGroup, hNone]; rfl
  rw [Dev.checkBudget, hGroup]
  rfl

theorem swallow_none {d : Dev} (hNone : d.strike.groups = []) : d.swallow = d.each (List.range 16) Dev.swallowOne := by
  have hStep (l : List Nat) (e : Dev) (hGroups : e.strike.groups = []) : (e.each l fun d g =>
      if d.groupP g = 0 then d
      else ((d.modKeeper fun k => { k with swallowed := k.swallowed.put g (d.groupP g), topP := k.topP.put g (d.groupP g) }).countBy
        damperBase Reg.DMP_SWALLOW_COUNT.COUNT (d.groupP g)).checkBudget g) = e.each l Dev.swallowOne := by
    induction l generalizing e with
    | nil => rfl
    | cons x xs ih =>
      have hOne : (if e.groupP x = 0 then e
          else ((e.modKeeper fun k => { k with swallowed := k.swallowed.put x (e.groupP x), topP := k.topP.put x (e.groupP x) }).countBy
            damperBase Reg.DMP_SWALLOW_COUNT.COUNT (e.groupP x)).checkBudget x) = e.swallowOne x := by
        rw [checkBudget_none (by simpa using hGroups)]
        rfl
      have hKept : (e.swallowOne x).strike = e.strike := (swallowOne_kept (.refl e) x).parts .strike (by simp)
      rw [Dev.each, List.foldl_cons, hOne]
      exact ih _ (by rw [hKept]; exact hGroups)
  exact hStep _ _ hNone

/-! ## The edge of a running trunk -/

/-- SYNC_VALUE. -/
def Dev.syncValue (d : Dev) : Nat :=
  (d.reg (keeperBase + Reg.SYNC_VALUE_LO.VALUE_LO.off)).toNat + d.fld keeperBase Reg.SYNC_VALUE_HI.VALUE_HI * 2 ^ 32

theorem sampleSync_eq (d : Dev) : d.sampleSync =
    if d.fld keeperBase Reg.KEEP_CTRL.SYNC_SRC = 1 ∧ d.syncLevel = true then d.modKeeper fun k => { k with pendingSync := some d.syncValue }
    else d := by
  unfold Dev.sampleSync
  by_cases hSrc : d.fld keeperBase Reg.KEEP_CTRL.SYNC_SRC = 1 <;> cases hLevel : d.syncLevel <;> simp [hSrc, Dev.syncValue]

theorem sampleSync_leaves (d : Dev) :
    d.sampleSync.keeper.pendingSync =
      (if d.fld keeperBase Reg.KEEP_CTRL.SYNC_SRC = 1 ∧ d.syncLevel = true then some d.syncValue else d.keeper.pendingSync) ∧
    OnlyParts [.keeper] d d.sampleSync ∧ d.sampleSync.quiet = d.quiet ∧ (∀ g, d.sampleSync.groupP g = d.groupP g) ∧
    (∀ a, d.sampleSync.reg a = d.reg a) ∧ d.sampleSync.keeper = { d.keeper with pendingSync := d.sampleSync.keeper.pendingSync } := by
  rw [sampleSync_eq]
  split
  · exact ⟨rfl, by simp, rfl, fun _ => rfl, fun _ => rfl, rfl⟩
  · exact ⟨rfl, by simp, rfl, fun _ => rfl, fun _ => rfl, rfl⟩

/-- The machine at an edge of the running trunk with nothing else due. -/
structure PlainEdge (d : Dev) : Prop where
  runs : d.clk.trunk.state = .run
  released : d.keeper.released = true
  pending : d.plates.pending = {}

/-- What is due at the end of an edge beside the pulses swallowed: a swap of the roots, a decision, a warm reset's end. -/
structure PlainEnd (d : Dev) : Prop where
  swap : d.clk.swapPending = false
  strikeOff : d.domainOn 7 = false
  groups : d.strike.groups = []
  warm : d.kryup.warm = false

theorem PlainEnd.of {d e : Dev} (h : PlainEnd d) (hSwap : e.clk.swapPending = d.clk.swapPending) (hPd : e.reg (pdAddr 7) = d.reg (pdAddr 7))
    (hStrike : e.strike = d.strike) (hKryup : e.kryup = d.kryup) : PlainEnd e where
  swap := hSwap.trans h.swap
  strikeOff := by
    have hAddr : pdBase + (Reg.PD.STATE.elem 7).off = pdAddr 7 := pdFld_addr (by simp [pdFlds]) 7
    rw [← h.strikeOff, Dev.domainOn, Dev.pd, Dev.fld, hAddr, hPd, ← hAddr]
    rfl
  groups := by rw [hStrike, h.groups]
  warm := by rw [hKryup, h.warm]

/-! CROSS_SYNC's level hangs on no part of the machine that the crossing changes. -/

section
variable (d : Dev) (k : KeeperRec) (f : FabricRec) (c : ClockRec)

theorem reaches_crossing (n b : Nat) : Dev.reaches n { d with keeper := k, fabric := f, clk := c } b = Dev.reaches n d b := by
  induction n generalizing b with
  | zero => rfl
  | succ n ih =>
    rw [Dev.reaches, Dev.reaches, show Dev.parent { d with keeper := k, fabric := f, clk := c } b = d.parent b from rfl]
    cases d.parent b with
    | none => rfl
    | some q =>
      dsimp only
      rw [ih]
      rfl

theorem irqLow_crossing : ({ d with keeper := k, fabric := f, clk := c }).irqLow = d.irqLow := by
  have hReach (b : Nat) := reaches_crossing d k f c d.depth b
  have hOwn (b : Nat) : Dev.ownEvent { d with keeper := k, fabric := f, clk := c } b = d.ownEvent b := rfl
  unfold Dev.irqLow Dev.rootRaises
  dsimp only
  rw [show Dev.depth { d with keeper := k, fabric := f, clk := c } = d.depth from rfl]
  simp only [hReach, hOwn]
  rfl

theorem funcLevel_crossing (p : Nat) : ({ d with keeper := k, fabric := f, clk := c }).funcLevel p = d.funcLevel p := by
  unfold Dev.funcLevel
  rw [irqLow_crossing]
  rfl

theorem syncLevel_crossing : ({ d with keeper := k, fabric := f, clk := c }).syncLevel = d.syncLevel := by
  unfold Dev.syncLevel Dev.padLevel
  simp only [funcLevel_crossing]
  rfl

end

/-- The end of an edge, after the sync sample. -/
def Dev.edgeTail (d : Dev) (a b : DpSample) : Dev :=
  let d := if d.clk.swapPending then
      let d := d.modClk fun c => { c with swapPending := false }
      if d.standbyAligned && d.pllOk d.standbyRoot then
        let o := d.activeRoot
        ((d.setActive d.standbyRoot).setFld (pllBase o) Reg.PLL_STATUS.ALIGNED (bit01 (d.pllOk o))).raise clkBase
          Reg.CLK_EVENT.ROOT_SWAPPED
      else d
    else d
  let d := d.swallow.fenceBreach
  let d := if d.domainOn 7 then (d.strikeLoop.strikePresent.strikeUnit).strikeCapture false a b else d
  if d.kryup.warm && !d.kryup.warmHeld then
    d.modKryup fun k => { k with warm := false }
  else d

/-- An edge from where its number is known. -/
def Dev.edgeAfter (d : Dev) (next dest cycles : Nat) (a b : DpSample) : Dev :=
  let d := d.modClk fun c => { c with trunkCyc := c.trunkCyc + BitVec.ofNat 64 cycles }
  let half := d.nextHalf (dest != next)
  let d := if dest = next then d else d.shiftBreaches next dest
  let d := d.crossingBegun dest half
  let d := if dest = next then d else d.jump dest
  d.sampleSync.edgeTail a b

theorem missRelease_released {d : Dev} (h : d.keeper.released = true) : d.missRelease = d := by
  rw [Dev.missRelease, h]
  simp

theorem breach_none {d : Dev} (h : d.strike.groups = []) : d.breach = d := by
  rw [Dev.breach, h]
  simp

theorem fenceBreach_none {d : Dev} (h : d.strike.groups = []) : d.fenceBreach = d := by
  rw [Dev.fenceBreach, breach_none h, ite_self]

theorem runningEdge_eq {d : Dev} (h : PlainEdge d) (cycles : Nat) (a b : DpSample) :
    d.runningEdge cycles a b = d.syncApply.1.edgeAfter (crossAdd d.now 1) d.syncApply.2 cycles a b := by
  have hStopped : d.trunkStopped = false := by rw [Dev.trunkStopped, h.runs]
  have hSwitch : d.switchesDue = d := by
    rw [Dev.switchesDue, h.pending]
    rfl
  unfold Dev.runningEdge
  rw [hStopped]
  dsimp only
  rw [show (if false = true then d else d.switchesDue) = d from hSwitch, missRelease_released h.released]
  rfl

theorem swallow_kept {d : Dev} (hNone : d.strike.groups = []) : SwallowKept d d.swallow := by
  rw [swallow_none hNone]
  exact each_keeps (P := SwallowKept d) (fun e g he => swallowOne_kept he g) _ (.refl d)

theorem edgeTail_plain {d : Dev} (h : PlainEnd d) (a b : DpSample) : d.edgeTail a b = d.swallow := by
  have hSwallow := swallow_kept h.groups
  have hEnd : PlainEnd d.swallow := h.of (by rw [hSwallow.parts .clk (by simp)]) (hSwallow.regs _ (by decide)) (hSwallow.parts .strike (by simp))
    (hSwallow.parts .kryup (by simp))
  unfold Dev.edgeTail
  dsimp only
  simp only [h.swap, Bool.false_eq_true, if_false, fenceBreach_none hEnd.groups, hEnd.strikeOff, hEnd.warm, Bool.false_and]

/-! ## The edge whose number follows on -/

/-- What an edge leaves whose number follows on. -/
structure EdgeBegins (d : Dev) (now cycles : Nat) (e : Dev) : Prop where
  now : e.keeper.now = now
  released : e.keeper.released = false
  breachNow : e.keeper.breachNow = false
  holds : e.keeper.holds = {}
  pending : e.keeper.pendingSync =
    if d.fld keeperBase Reg.KEEP_CTRL.SYNC_SRC = 1 ∧ d.syncLevel = true then some d.syncValue else d.keeper.pendingSync
  swallowed : ∀ g, g < 16 → e.keeper.swallowed.num g = d.groupP g
  clk : e.clk = { d.clk with trunkCyc := d.clk.trunkCyc + BitVec.ofNat 64 cycles }
  fabric : e.fabric = { d.fabric with cycle := {}, fences := e.fabric.fences }
  parts : OnlyParts [.regs, .keeper, .clk, .fabric] d e
  regs : OnlyRegs [swallowAddr] d e
  quiet : e.quiet = d.quiet

theorem edgeAfter_next {d : Dev} (h : PlainEnd d) (next cycles : Nat) (a b : DpSample) :
    EdgeBegins d next cycles (d.edgeAfter next next cycles a b) := by
  unfold Dev.edgeAfter
  dsimp only
  rw [if_pos rfl, if_pos rfl]
  generalize Dev.nextHalf _ _ = half
  obtain ⟨hKeeper, hFabric, hParts, hQuiet⟩ := crossingBegun_leaves
    (d.modClk fun c => { c with trunkCyc := c.trunkCyc + BitVec.ofNat 64 cycles }) next half
  obtain ⟨k, f, hEq⟩ := crossingBegun_eq (d.modClk fun c => { c with trunkCyc := c.trunkCyc + BitVec.ofNat 64 cycles }) next half
  generalize (d.modClk fun c => { c with trunkCyc := c.trunkCyc + BitVec.ofNat 64 cycles }).crossingBegun next half = y
    at hKeeper hFabric hParts hQuiet hEq
  have hEq' : y = { d with keeper := k, fabric := f, clk := { d.clk with trunkCyc := d.clk.trunkCyc + BitVec.ofNat 64 cycles } } := hEq
  have hLevel : y.syncLevel = d.syncLevel := by rw [hEq', syncLevel_crossing]
  have hRegs (a : Nat) : y.reg a = d.reg a := by rw [hEq']; rfl
  have hClk : y.clk = { d.clk with trunkCyc := d.clk.trunkCyc + BitVec.ofNat 64 cycles } := by rw [hEq']
  have hEndY : PlainEnd y := h.of (by rw [hClk]) (hRegs _) (by rw [hEq']) (by rw [hEq'])
  have hPY (g : Nat) : y.groupP g = d.groupP g := by rw [hEq']; rfl
  have hPartsY : OnlyParts [.regs, .keeper, .clk, .fabric] d y := OnlyParts.trans (by simp) (hParts.mono (by simp))
  have hQuietY : y.quiet = d.quiet := hQuiet
  have hValue : y.syncValue = d.syncValue := by rw [hEq']; rfl
  have hSrc : y.fld keeperBase Reg.KEEP_CTRL.SYNC_SRC = d.fld keeperBase Reg.KEEP_CTRL.SYNC_SRC := by rw [hEq']; rfl
  have hPendY : y.keeper.pendingSync = d.keeper.pendingSync := by rw [hKeeper]; rfl
  obtain ⟨hPend, hSampleParts, hSampleQuiet, hSampleP, hSampleReg, hSampleKeeper⟩ := sampleSync_leaves y
  rw [hLevel, hSrc, hValue, hPendY] at hPend
  generalize y.sampleSync = z at hPend hSampleParts hSampleQuiet hSampleP hSampleReg hSampleKeeper
  have hEndZ : PlainEnd z := hEndY.of (by rw [hSampleParts .clk (by simp)]) (hSampleReg _) (hSampleParts .strike (by simp))
    (hSampleParts .kryup (by simp))
  rw [edgeTail_plain hEndZ]
  obtain ⟨⟨p, q, hSwKeeper⟩, hSwParts, hSwRegs, hSwQuiet⟩ := swallow_kept hEndZ.groups
  obtain ⟨-, hNum⟩ := each_swallowOne z (List.range 16) List.nodup_range (.refl _) fun g _ => by
    rw [hSampleKeeper, hKeeper]
    rfl
  rw [← swallow_none hEndZ.groups] at hNum
  refine ⟨?_, ?_, ?_, ?_, ?_, fun g hg => ?_, ?_, ?_, ?_, ?_, ?_⟩
  · rw [hSwKeeper, hSampleKeeper, hKeeper]
    rfl
  · rw [hSwKeeper, hSampleKeeper, hKeeper]
    rfl
  · rw [hSwKeeper, hSampleKeeper, hKeeper]
    rfl
  · rw [hSwKeeper, hSampleKeeper, hKeeper]
    rfl
  · rw [hSwKeeper, ← hPend]
  · rw [hNum, if_pos (List.mem_range.mpr hg), hSampleP, hPY]
  · rw [hSwParts .clk (by simp), hSampleParts .clk (by simp), hClk]
  · have hFab : z.swallow.fabric = y.fabric := (hSwParts .fabric (by simp)).trans (hSampleParts .fabric (by simp))
    rw [hFab, hFabric]
    rfl
  · exact (hPartsY.trans (hSampleParts.mono (by simp))).trans (hSwParts.mono (by simp))
  · exact fun a ha => (hSwRegs a ha).trans ((hSampleReg a).trans (hRegs a))
  · rw [hSwQuiet, hSampleQuiet, hQuietY]

/-! ## Sync values -/

/-- A waiting sync value is used up. -/
def Dev.syncUsed (d : Dev) : Dev := d.modKeeper fun k => { k with pendingSync := none }

/-- What a sync value does in a mode (R42, R43). -/
def Dev.syncActs (d : Dev) (v next : Nat) : Nat → Dev × Nat
  | 0 =>
    if d.flag keeperBase Reg.KEEP_STATUS.ARMED then
      if v = next then (d.setFld keeperBase Reg.KEEP_STATUS.ARMED 0, next)
      else ((d.setFld keeperBase Reg.KEEP_STATUS.ARMED 0).raise keeperBase Reg.KEEP_EVENT.CROSS_JUMP, v)
    else if v = next then (d, next)
    else (d.raise keeperBase Reg.KEEP_EVENT.SYNC_SLIP, next)
  | 1 =>
    if v = next then (d, next)
    else ((d.raise keeperBase Reg.KEEP_EVENT.SYNC_SLIP).raise keeperBase Reg.KEEP_EVENT.CROSS_JUMP, v)
  | _ => if v = next then (d, next) else (d.raise keeperBase Reg.KEEP_EVENT.SYNC_SLIP, next)

section
variable {d : Dev} {v : Nat} (hRuns : d.clk.trunk.state = .run) (hWaits : d.keeper.pendingSync = some v)
include hRuns hWaits

theorem syncApply_waiting :
    d.syncApply = d.syncUsed.syncActs v (crossAdd d.now 1) (d.syncUsed.fld keeperBase Reg.KEEP_CTRL.SYNC_MODE) := by
  have hStopped : ¬d.syncUsed.trunkStopped = true := by
    rw [Dev.trunkStopped, Dev.syncUsed, modKeeper_clk, hRuns]
    decide
  unfold Dev.syncApply
  rw [hWaits]
  exact if_neg hStopped

theorem syncApply_armed (hMode : d.fld keeperBase Reg.KEEP_CTRL.SYNC_MODE = 0) (hArmed : d.fld keeperBase Reg.KEEP_STATUS.ARMED = 1) :
    d.syncApply =
      if v = crossAdd d.now 1 then (d.syncUsed.setFld keeperBase Reg.KEEP_STATUS.ARMED 0, crossAdd d.now 1)
      else ((d.syncUsed.setFld keeperBase Reg.KEEP_STATUS.ARMED 0).raise keeperBase Reg.KEEP_EVENT.CROSS_JUMP, v) := by
  have hFlag : d.syncUsed.flag keeperBase Reg.KEEP_STATUS.ARMED = true := by
    rw [Dev.flag, Dev.syncUsed, fld_modKeeper, hArmed]
    rfl
  rw [syncApply_waiting hRuns hWaits, show d.syncUsed.fld keeperBase Reg.KEEP_CTRL.SYNC_MODE = 0 from hMode, Dev.syncActs, if_pos hFlag]

theorem syncApply_slips (hMode : d.fld keeperBase Reg.KEEP_CTRL.SYNC_MODE = 2) (hOther : v ≠ crossAdd d.now 1) :
    d.syncApply = (d.syncUsed.raise keeperBase Reg.KEEP_EVENT.SYNC_SLIP, crossAdd d.now 1) := by
  rw [syncApply_waiting hRuns hWaits, show d.syncUsed.fld keeperBase Reg.KEEP_CTRL.SYNC_MODE = 2 from hMode]
  exact if_neg hOther

end

/-! ## Jumps -/

/-- Nothing below the lanes' registers has changed, and beside registers the lanes' and the rings' records alone. -/
structure LowKept (d e : Dev) : Prop where
  low : ∀ a, a < 0x100000 → e.reg a = d.reg a
  parts : OnlyParts [.regs, .lanes, .rings] d e
  quiet : e.quiet = d.quiet

theorem LowKept.refl (d : Dev) : LowKept d d := ⟨fun _ _ => rfl, by simp, rfl⟩

theorem LowKept.trans {c d e : Dev} (h1 : LowKept c d) (h2 : LowKept d e) : LowKept c e :=
  ⟨fun a ha => (h2.low a ha).trans (h1.low a ha), h1.parts.trans h2.parts, h2.quiet.trans h1.quiet⟩

theorem lowKept_setFld (d : Dev) {b : Nat} (f : Fld) (v : Nat) (hb : 0x100000 ≤ b) : LowKept d (d.setFld b f v) := by
  refine ⟨fun a ha => ?_, by simp, quiet_setFld _ _ _ _ ?_⟩
  · rw [reg_setFld, if_neg (by omega)]
  · simp only [rootBase, Reg.IRQ_CTRL.off]
    omega

theorem lowKept_countBy (d : Dev) {b : Nat} (f : Fld) (k : Nat) (hb : 0x100000 ≤ b) : LowKept d (d.countBy b f k) :=
  lowKept_setFld d f _ hb

theorem laneBase_high (n : Nat) : 0x100000 ≤ laneBase n := by
  unfold laneBase
  omega

theorem ringBase_high (n : Nat) : 0x100000 ≤ ringBase n := by
  unfold ringBase
  omega

theorem flushHeld_lowKept (d : Dev) (n : Nat) : LowKept d (d.flushHeld n) := by
  have hLane : LowKept d (d.modLane n fun r => { r with held := [] }) := ⟨fun _ _ => rfl, by simp, rfl⟩
  exact (hLane.trans (lowKept_countBy _ _ _ (laneBase_high n))).trans (lowKept_setFld _ _ _ (laneBase_high n))

theorem jumpFlush_lowKept (d : Dev) (e dest : Nat) : LowKept d (d.jumpFlush e dest) := by
  have hEngine (c : Dev) (f : EngineRec → EngineRec) : LowKept c (c.modEngine e f) := ⟨fun _ _ => rfl, by simp, rfl⟩
  have hRaise (c : Dev) (f : Fld) : LowKept c (c.raise (ringBase e) f) := lowKept_setFld _ _ _ (ringBase_high e)
  have hRaiseIf (c : Dev) (p : Bool) (f : Fld) : LowKept c (c.raiseIf p (ringBase e) f) := by
    unfold Dev.raiseIf
    split
    · exact hRaise c f
    · exact .refl c
  unfold Dev.jumpFlush
  dsimp only
  split
  · exact .refl d
  · exact (((lowKept_countBy _ _ _ (ringBase_high e)).trans (hRaiseIf _ _ _)).trans (hEngine _ _)).trans (hRaise _ _)

theorem jump_lowKept {d : Dev} (hNone : d.plates.pending = {}) (dest : Nat) :
    ∃ e, LowKept d e ∧ d.jump dest = e.modKeeper fun k => { k with notReadyLeft := e.latL } := by
  have hLanes : LowKept d (d.each d.alignLanes fun d n => d.flushHeld n) :=
    each_keeps (P := LowKept d) (fun e n he => he.trans (flushHeld_lowKept e n)) _ (.refl d)
  have hRings : LowKept d ((d.each d.alignLanes fun d n => d.flushHeld n).each (List.range 16) fun d e => d.jumpFlush e dest) :=
    each_keeps (P := LowKept d) (fun e n he => he.trans (jumpFlush_lowKept e n dest)) _ hLanes
  refine ⟨_, hRings, ?_⟩
  have hPlates : ((d.each d.alignLanes fun d n => d.flushHeld n).each (List.range 16) fun d e => d.jumpFlush e dest).plates.pending = {} := by
    rw [hRings.parts .plates (by simp), hNone]
  unfold Dev.jump
  dsimp only
  rw [hPlates]
  rfl

/-- What an edge leaves whose number jumps. -/
structure EdgeJumps (d : Dev) (now : Nat) (e : Dev) : Prop where
  now : e.keeper.now = now
  pending : e.keeper.pendingSync = d.keeper.pendingSync
  notReady : e.keeper.notReadyLeft = d.latL
  flds : ∀ f : Fld, f.off < 0x1000 → e.fld keeperBase f = d.fld keeperBase f
  quiet : e.quiet = d.quiet

theorem edgeAfter_jump {d : Dev} (h : PlainEnd d) (hPending : d.plates.pending = {}) (hSrc : d.fld keeperBase Reg.KEEP_CTRL.SYNC_SRC = 0)
    {next dest : Nat} (hOther : dest ≠ next) (cycles : Nat) (a b : DpSample) : EdgeJumps d dest (d.edgeAfter next dest cycles a b) := by
  unfold Dev.edgeAfter
  dsimp only
  rw [if_neg hOther, if_neg hOther]
  generalize Dev.nextHalf _ _ = half
  generalize hc : (d.modClk fun c => { c with trunkCyc := c.trunkCyc + BitVec.ofNat 64 cycles }).shiftBreaches next dest = c
  have hcLat : c.latL = d.latL := by rw [← hc]; rfl
  obtain ⟨hKeeper, -, hParts, hQuiet⟩ := crossingBegun_leaves c dest half
  obtain ⟨k, f, hEq⟩ := crossingBegun_eq c dest half
  generalize c.crossingBegun dest half = y at hKeeper hParts hQuiet hEq
  have hRegs (a : Nat) : y.reg a = d.reg a := by rw [hEq, ← hc]; rfl
  have hEndY : PlainEnd y := h.of (by rw [hEq, ← hc]; rfl) (hRegs _) (by rw [hEq, ← hc]; rfl) (by rw [hEq, ← hc]; rfl)
  obtain ⟨z, hLow, hJump⟩ := jump_lowKept (d := y) (by rw [hEq, ← hc]; exact hPending) dest
  rw [hJump]
  have hKeepZ : z.keeper = y.keeper := hLow.parts .keeper (by simp)
  have hLatZ : z.latL = d.latL := by rw [Dev.latL, Dev.fld, hLow.low _ (by decide), hRegs]; rfl
  have hEndZ : PlainEnd (z.modKeeper fun k => { k with notReadyLeft := z.latL }) :=
    hEndY.of (by rw [modKeeper_clk, hLow.parts .clk (by simp)]) (hLow.low _ (by decide)) (by rw [modKeeper_strike, hLow.parts .strike (by simp)])
      (by rw [modKeeper_kryup, hLow.parts .kryup (by simp)])
  have hSample : (z.modKeeper fun k => { k with notReadyLeft := z.latL }).sampleSync = z.modKeeper fun k => { k with notReadyLeft := z.latL } := by
    rw [sampleSync_eq, fld_modKeeper, Dev.fld, hLow.low _ (by decide), hRegs, ← Dev.fld, hSrc, if_neg (by simp)]
  rw [hSample, edgeTail_plain hEndZ]
  obtain ⟨⟨p, q, hSwKeeper⟩, hSwParts, hSwRegs, hSwQuiet⟩ := swallow_kept hEndZ.groups
  refine ⟨?_, ?_, ?_, fun f hf => ?_, ?_⟩
  · rw [hSwKeeper, modKeeper_keeper, hKeepZ, hKeeper]
    rfl
  · rw [hSwKeeper, modKeeper_keeper, hKeepZ, hKeeper, ← hc]
    rfl
  · rw [hSwKeeper, modKeeper_keeper, ← hLatZ]
  · rw [Dev.fld, hSwRegs _ (by simp only [List.mem_singleton, swallowAddr, damperBase, keeperBase, Reg.DMP_SWALLOW_COUNT.COUNT]; omega),
      reg_modKeeper, hLow.low _ (by simp only [keeperBase]; omega), hRegs, Dev.fld]
  · rw [hSwQuiet, quiet_modKeeper, hLow.quiet, hQuiet, ← hc]
    rfl

/-! ## The command -/

theorem opCrossingEdge_run {d : Dev} {a b : DpSample} (hCount : d.counting = true) (hRuns : d.clk.trunk.state = .run) :
    opCrossingEdge a b d = d.runningEdge d.clk.ratioN a b := by
  unfold Dev.counting at hCount
  rw [Bool.and_eq_true] at hCount
  have hSrc : d.netSrc true ≠ .none := by
    have hCode : d.fld clkBase Reg.CLK_STATUS.TRUNK_SRC ≠ 3 := by simpa using hCount.2
    have hLt : d.fld clkBase Reg.CLK_STATUS.TRUNK_SRC < 4 := bitsOf_lt ..
    unfold Dev.netSrc
    rw [if_pos rfl]
    generalize d.fld clkBase Reg.CLK_STATUS.TRUNK_SRC = x at hCode hLt
    interval_cases x <;> simp_all [NetSrc.ofCode]
  unfold opCrossingEdge
  rw [hCount.1]
  dsimp only
  rw [hRuns]
  dsimp only
  rw [if_neg hSrc]
  rfl

section
variable {s : State} {a b : DpSample} (hq : s.dev.quiet = true) (hCount : s.dev.counting = true) (hEdge : PlainEdge s.dev)
  (hEnd : PlainEnd s.dev)
include hq hCount hEdge hEnd

theorem crossingEdge_follows (hNone : s.dev.keeper.pendingSync = none) :
    Completes (.crossingEdge a b) s fun e => EdgeBegins s.dev ((s.dev.now + 1) % 2 ^ 48) s.dev.clk.ratioN e := by
  have hSync : s.dev.syncApply = (s.dev, crossAdd s.dev.now 1) := by
    unfold Dev.syncApply
    rw [hNone]
  have hOp : opCrossingEdge a b s.dev = s.dev.edgeAfter (crossAdd s.dev.now 1) (crossAdd s.dev.now 1) s.dev.clk.ratioN a b := by
    rw [opCrossingEdge_run hCount hEdge.runs, runningEdge_eq hEdge, hSync]
  have hBegins := edgeAfter_next hEnd (crossAdd s.dev.now 1) s.dev.clk.ratioN a b
  refine completes_quiet (f := opCrossingEdge a b) rfl ?_ ?_ <;> rw [hOp]
  · rw [hBegins.quiet, hq]
  · exact hBegins

variable {v : Nat} (hWaits : s.dev.keeper.pendingSync = some v) (hSrc : s.dev.fld keeperBase Reg.KEEP_CTRL.SYNC_SRC = 0)
include hWaits hSrc

omit hq hEnd hWaits hSrc in
/-- An edge whose sync value does not change the number: what it writes of the keeper is that value's. -/
theorem crossingEdge_syncs {x : Dev} (hSync : s.dev.syncApply = (x, crossAdd s.dev.now 1)) (hx : PlainEnd x) (hQuiet : x.quiet = true)
    (hPend : x.keeper.pendingSync = none) (hSrcX : x.fld keeperBase Reg.KEEP_CTRL.SYNC_SRC = 0)
    (hParts : OnlyParts [.regs, .keeper, .clk, .fabric] s.dev x) :
    Completes (.crossingEdge a b) s fun e =>
      e.now = (s.dev.now + 1) % 2 ^ 48 ∧ (∀ f : Fld, f.off < 0x1000 → e.fld keeperBase f = x.fld keeperBase f) ∧
      e.keeper.pendingSync = none ∧ OnlyParts [.regs, .keeper, .clk, .fabric] s.dev e := by
  have hOp : opCrossingEdge a b s.dev = x.edgeAfter (crossAdd s.dev.now 1) (crossAdd s.dev.now 1) s.dev.clk.ratioN a b := by
    rw [opCrossingEdge_run hCount hEdge.runs, runningEdge_eq hEdge, hSync]
  have hBegins := edgeAfter_next hx (crossAdd s.dev.now 1) s.dev.clk.ratioN a b
  refine completes_quiet (f := opCrossingEdge a b) rfl ?_ ?_ <;> rw [hOp]
  · rw [hBegins.quiet, hQuiet]
  · refine ⟨hBegins.now, fun f hf => ?_, ?_, hParts.trans hBegins.parts⟩
    · rw [Dev.fld, hBegins.regs _ (by simp only [List.mem_singleton, swallowAddr, damperBase, keeperBase, Reg.DMP_SWALLOW_COUNT.COUNT]; omega),
        Dev.fld]
    · rw [hBegins.pending, hSrcX, hPend, if_neg (by simp)]

theorem crossingEdge_agrees (hMode : s.dev.fld keeperBase Reg.KEEP_CTRL.SYNC_MODE = 0) (hArmed : s.dev.fld keeperBase Reg.KEEP_STATUS.ARMED = 1)
    (hSame : v = (s.dev.now + 1) % 2 ^ 48) :
    Completes (.crossingEdge a b) s fun e =>
      e.now = (s.dev.now + 1) % 2 ^ 48 ∧ e.fld keeperBase Reg.KEEP_STATUS.ARMED = 0 ∧ e.keeper.pendingSync = none ∧
      OnlyParts [.regs, .keeper, .clk, .fabric] s.dev e := by
  have hSync := syncApply_armed hEdge.runs hWaits hMode hArmed
  rw [if_pos (show v = crossAdd s.dev.now 1 from hSame)] at hSync
  have hx : PlainEnd (s.dev.syncUsed.setFld keeperBase Reg.KEEP_STATUS.ARMED 0) :=
    hEnd.of rfl (by rw [reg_setFld, if_neg (by decide)]; rfl) rfl rfl
  obtain ⟨t, hExec, hPending, hNow, hFld, hRest⟩ := crossingEdge_syncs (a := a) (b := b) hCount hEdge hSync hx
    (by rw [quiet_setFld _ _ _ _ (by decide), Dev.syncUsed, quiet_modKeeper, hq]) rfl (by rw [fld_setFld_clear (by decide)]; exact hSrc)
    (by simp [Dev.syncUsed])
  refine ⟨t, hExec, hPending, hNow, ?_, hRest⟩
  rw [hFld _ (by decide), fld_setFld_lt (by decide) (by decide)]

theorem crossingEdge_slips (hMode : s.dev.fld keeperBase Reg.KEEP_CTRL.SYNC_MODE = 2) (hOther : v ≠ (s.dev.now + 1) % 2 ^ 48) :
    Completes (.crossingEdge a b) s fun e =>
      e.now = (s.dev.now + 1) % 2 ^ 48 ∧ e.fld keeperBase Reg.KEEP_EVENT.SYNC_SLIP = 1 ∧
      e.fld keeperBase Reg.KEEP_STATUS.ARMED = s.dev.fld keeperBase Reg.KEEP_STATUS.ARMED ∧
      e.keeper.pendingSync = none ∧ OnlyParts [.regs, .keeper, .clk, .fabric] s.dev e := by
  have hSync := syncApply_slips hEdge.runs hWaits hMode hOther
  have hx : PlainEnd (s.dev.syncUsed.raise keeperBase Reg.KEEP_EVENT.SYNC_SLIP) :=
    hEnd.of rfl (by rw [reg_raise, if_neg (by decide)]; rfl) rfl rfl
  obtain ⟨t, hExec, hPending, hNow, hFld, hRest⟩ := crossingEdge_syncs (a := a) (b := b) hCount hEdge hSync hx
    (by rw [quiet_raise _ _ _ (by decide), Dev.syncUsed, quiet_modKeeper, hq]) rfl
    (by rw [Dev.raise, fld_setFld_clear (by decide)]; exact hSrc) (by simp [Dev.syncUsed])
  refine ⟨t, hExec, hPending, hNow, ?_, ?_, hRest⟩
  · rw [hFld _ (by decide), fld_raise_same (by decide) (by decide)]
  · rw [hFld _ (by decide), Dev.raise, fld_setFld_clear (by decide)]
    rfl

theorem crossingEdge_jumps (hMode : s.dev.fld keeperBase Reg.KEEP_CTRL.SYNC_MODE = 0) (hArmed : s.dev.fld keeperBase Reg.KEEP_STATUS.ARMED = 1)
    (hOther : v ≠ (s.dev.now + 1) % 2 ^ 48) :
    Completes (.crossingEdge a b) s fun e =>
      e.now = v ∧ e.fld keeperBase Reg.KEEP_STATUS.ARMED = 0 ∧ e.fld keeperBase Reg.KEEP_EVENT.CROSS_JUMP = 1 ∧
      e.keeper.notReadyLeft = s.dev.latL ∧ e.keeper.pendingSync = none := by
  have hSync := syncApply_armed hEdge.runs hWaits hMode hArmed
  rw [if_neg (show ¬v = crossAdd s.dev.now 1 from hOther)] at hSync
  generalize hx : (s.dev.syncUsed.setFld keeperBase Reg.KEEP_STATUS.ARMED 0).raise keeperBase Reg.KEEP_EVENT.CROSS_JUMP = x at hSync
  have hEndX : PlainEnd x := by
    rw [← hx]
    exact hEnd.of rfl (by rw [reg_raise, if_neg (by decide), reg_setFld, if_neg (by decide)]; rfl) rfl rfl
  have hSrcX : x.fld keeperBase Reg.KEEP_CTRL.SYNC_SRC = 0 := by
    rw [← hx, Dev.raise, fld_setFld_clear (by decide), fld_setFld_clear (by decide)]
    exact hSrc
  have hJumps := edgeAfter_jump (next := crossAdd s.dev.now 1) hEndX (by rw [← hx]; exact hEdge.pending) hSrcX hOther s.dev.clk.ratioN a b
  have hOp : opCrossingEdge a b s.dev = x.edgeAfter (crossAdd s.dev.now 1) v s.dev.clk.ratioN a b := by
    rw [opCrossingEdge_run hCount hEdge.runs, runningEdge_eq hEdge, hSync]
  refine completes_quiet (f := opCrossingEdge a b) rfl ?_ ?_ <;> rw [hOp]
  · rw [hJumps.quiet, ← hx, quiet_raise _ _ _ (by decide), quiet_setFld _ _ _ _ (by decide), Dev.syncUsed, quiet_modKeeper, hq]
  · refine ⟨hJumps.now, ?_, ?_, ?_, ?_⟩
    · rw [hJumps.flds _ (by decide), ← hx, Dev.raise, fld_setFld_clear (by decide), fld_setFld_lt (by decide) (by decide)]
    · rw [hJumps.flds _ (by decide), ← hx, fld_raise_same (by decide) (by decide)]
    · rw [hJumps.notReady, ← hx, Dev.latL, Dev.raise, fld_setFld_clear (by decide), fld_setFld_clear (by decide)]
      rfl
    · rw [hJumps.pending, ← hx]
      rfl

end

/-! ## An edge that a stop of the trunk spans -/

/-- A breach of a forme with decision groups that is not offered (R55, R56). -/
theorem breach_counts {d : Dev} (hGroups : d.strike.groups ≠ []) (hLat : d.latL ≠ 0) (hFirst : d.keeper.breachNow = false)
    (hOffer : d.breachOffered = false) :
    d.breach = ((d.modKeeper fun k => { k with breachNow := true, lastBreach := k.now, breaches := k.now :: k.breaches }).count keeperBase
      Reg.BREACH_COUNT.COUNT).raise keeperBase Reg.KEEP_EVENT.LATENCY_BREACH := by
  have hMode : (((d.modKeeper fun k => { k with breachNow := true, lastBreach := k.now, breaches := k.now :: k.breaches }).count keeperBase
      Reg.BREACH_COUNT.COUNT).raise keeperBase Reg.KEEP_EVENT.LATENCY_BREACH).breachOffered = false := by
    rw [← hOffer]
    unfold Dev.breachOffered Dev.mode
    rw [Dev.raise, fld_setFld_other (by decide), Dev.count, Dev.countBy, fld_setFld_other (by decide), fld_modKeeper]
  unfold Dev.breach
  rw [if_neg (by simp [hGroups, hLat, hFirst])]
  dsimp only
  rw [hMode]
  rfl

theorem crossingEdge_spanned {s : State} {a b : DpSample} (hq : s.dev.quiet = true) (hCount : s.dev.counting = true)
    (hStop : s.dev.clk.trunk.state = .switching) (hFrom : s.dev.edgesFrom s.dev.clk.trunk.target s.dev.targetRef = true)
    (hReleased : s.dev.keeper.released = true) (hStrike : s.dev.domainOn 7 = false) (hGroups : s.dev.strike.groups ≠ []) (hLat : s.dev.latL ≠ 0)
    (hOffer : s.dev.breachOffered = false) :
    Completes (.crossingEdge a b) s fun e =>
      e.now = (s.dev.now + 1) % 2 ^ 48 ∧ e.keeper.lastBreach = e.now ∧ e.keeper.breachNow = true ∧
      e.keeper.pendingSync = none ∧ e.keeper.released = false ∧ e.fabric = { s.dev.fabric with cycle := {} } ∧
      Counted keeperBase Reg.BREACH_COUNT.COUNT 1 s.dev e ∧
      e.fld keeperBase Reg.KEEP_EVENT.LATENCY_BREACH = 1 ∧ OnlyParts [.regs, .keeper, .strike, .fabric] s.dev e ∧
      OnlyRegs [keeperBase + Reg.BREACH_COUNT.COUNT.off, keeperBase + Reg.KEEP_EVENT.LATENCY_BREACH.off] s.dev e := by
  have hStopped : s.dev.trunkStopped = true := by rw [Dev.trunkStopped, hStop]
  generalize hy : (s.dev.beginCrossing (crossAdd s.dev.now 1)).modKeeper (fun k => { k with pendingSync := none }) = y
  have hBreach : y.breach = ((y.modKeeper fun k => { k with breachNow := true, lastBreach := k.now, breaches := k.now :: k.breaches }).count
      keeperBase Reg.BREACH_COUNT.COUNT).raise keeperBase Reg.KEEP_EVENT.LATENCY_BREACH :=
    breach_counts (by rw [← hy]; exact hGroups) (by rw [← hy]; exact hLat) (by rw [← hy]; rfl) (by rw [← hy]; exact hOffer)
  have hStatic : y.breach.strikeStatic false = y.breach := by
    have hOff : y.breach.domainOn 7 = false := by
      rw [hBreach, Dev.domainOn, Dev.pd, Dev.raise, fld_setFld_other (by decide), Dev.count, Dev.countBy, fld_setFld_other (by decide), ← hy]
      exact hStrike
    rw [Dev.strikeStatic, hOff]
    exact if_pos rfl
  obtain ⟨f, hCapture⟩ : ∃ f, y.breach.strikeCapture true {} {} = y.breach.modStrike f := by
    unfold Dev.strikeCapture
    exact ⟨_, rfl⟩
  have hOp : opCrossingEdge a b s.dev = y.breach.modStrike f := by
    unfold Dev.counting at hCount
    rw [Bool.and_eq_true] at hCount
    unfold opCrossingEdge
    rw [hCount.1]
    dsimp only
    rw [hStop]
    refine Eq.trans (if_pos hFrom) ?_
    unfold Dev.spannedEdge
    rw [hStopped, if_pos rfl, missRelease_released hReleased, hy]
    dsimp only
    rw [hStatic, hCapture]
  refine completes_quiet (f := opCrossingEdge a b) rfl ?_ ?_ <;> rw [hOp, hBreach]
  · rw [quiet_modStrike, quiet_raise _ _ _ (by decide), Dev.count, quiet_countBy _ _ _ _ (by decide), quiet_modKeeper, ← hy]
    exact hq
  · have hReg (a : Nat) : y.reg a = s.dev.reg a := by rw [← hy]; rfl
    have hKeeper : (((((y.modKeeper fun k => { k with breachNow := true, lastBreach := k.now, breaches := k.now :: k.breaches }).count
        keeperBase Reg.BREACH_COUNT.COUNT).raise keeperBase Reg.KEEP_EVENT.LATENCY_BREACH).modStrike f)).keeper =
        { y.keeper with breachNow := true, lastBreach := y.keeper.now, breaches := y.keeper.now :: y.keeper.breaches } := by
      rw [modStrike_keeper, raise_keeper, count_keeper, modKeeper_keeper]
    have hFabric : (((((y.modKeeper fun k => { k with breachNow := true, lastBreach := k.now, breaches := k.now :: k.breaches }).count
        keeperBase Reg.BREACH_COUNT.COUNT).raise keeperBase Reg.KEEP_EVENT.LATENCY_BREACH).modStrike f)).fabric = y.fabric := by
      rw [modStrike_fabric, raise_fabric, count_fabric, modKeeper_fabric]
    have hNow : y.keeper.now = (s.dev.now + 1) % 2 ^ 48 := by rw [← hy]; rfl
    refine ⟨?_, ?_, ?_, ?_, ?_, ?_, ?_, ?_, ?_, ?_⟩
    · rw [Dev.now, hKeeper]
      exact hNow
    · rw [Dev.now, hKeeper]
    · rw [hKeeper]
    · rw [hKeeper, ← hy]
      rfl
    · rw [hKeeper, ← hy]
      rfl
    · rw [hFabric, ← hy]
      rfl
    · rw [Counted, fld_modStrike, Dev.raise, fld_setFld_clear (by decide), Dev.count, fld_countBy_same (by decide), fld_modKeeper, Dev.fld,
        hReg, Dev.fld]
    · rw [fld_modStrike, fld_raise_same (by decide) (by decide)]
    · rw [← hy]
      simp [Dev.beginCrossing]
    · refine OnlyRegs.trans (fun a _ => hReg a) ?_
      simp

/-- Settles O7: where nothing else is due, an edge counts, begins its crossing and uses a waiting sync value; one that a stop spans is a breach. -/
theorem edgesBeginCrossings : Obligations.EdgesBeginCrossings := by
  unfold Obligations.EdgesBeginCrossings
  refine ⟨⟨?_, ?_⟩, fun s a b hQuiet hCount hStop hFrom hReleased hStrike hGroups hLat hOffer =>
    crossingEdge_spanned hQuiet hCount hStop hFrom hReleased hStrike hGroups hLat hOffer⟩
  · intro s a b hQuiet hCount hRuns hReleased hNone hSwap hPending hStrike hGroups hWarm value
    obtain ⟨t, hExec, hQueue, hBegins⟩ := crossingEdge_follows (a := a) (b := b) hQuiet hCount ⟨hRuns, hReleased, hPending⟩
      ⟨hSwap, hStrike, hGroups, hWarm⟩ hNone
    refine ⟨t, hExec, hQueue, hBegins.now, hBegins.released, hBegins.breachNow, hBegins.holds, ?_, fun g => hBegins.swallowed g g.isLt,
      hBegins.clk, hBegins.fabric, hBegins.parts, hBegins.regs⟩
    rw [hBegins.pending, hNone]
    rfl
  · intro s a b v hQuiet hCount hRuns hReleased hWaits hSwap hPending hStrike hGroups hWarm hSrc next mode armed
    have hEdge : PlainEdge s.dev := ⟨hRuns, hReleased, hPending⟩
    have hEnd : PlainEnd s.dev := ⟨hSwap, hStrike, hGroups, hWarm⟩
    exact ⟨crossingEdge_agrees hQuiet hCount hEdge hEnd hWaits hSrc, crossingEdge_jumps hQuiet hCount hEdge hEnd hWaits hSrc,
      crossingEdge_slips hQuiet hCount hEdge hEnd hWaits hSrc⟩

end Sys2Proof.Machine

/-! # Records of an image that are taken (R338, R340 to R344, R350 to R358, R364) -/

namespace Sys2Proof.Machine

set_option Elab.async false

/-! ## A record is counted and taken -/

/-- The loader's record once a record of the image has been counted. -/
def LoadRec.seen (l : LoadRec) (streaming : Bool) (r : List Word) : LoadRec :=
  { l with words := if streaming then l.words.drop r.length else l.words
           index := l.index + 1, body := l.body ++ r
           badIndex := if l.badIndex.isNone ∧ (recordHead r).index ≠ l.index then some (recordHead r).index else l.badIndex }

theorem recordSeen_leaves (d : Dev) (r : List Word) :
    (d.recordSeen r).load = d.load.seen d.streaming r ∧ OnlyParts [.regs, .load] d (d.recordSeen r) ∧
    OnlyRegs [rootBase + Reg.LD_BYTES.BYTES.off] d (d.recordSeen r) ∧ (d.recordSeen r).quiet = d.quiet := by
  unfold Dev.recordSeen Dev.takeWords
  dsimp only
  cases h : d.streaming
  · rw [if_neg (by decide), quiet_modLoad, quiet_countBy _ _ _ _ (by decide), modLoad_load, countBy_load]
    exact ⟨rfl, by simp, by simp, rfl⟩
  · rw [if_pos rfl, quiet_modLoad, quiet_modLoad, modLoad_load, modLoad_load]
    exact ⟨rfl, by simp, by simp, rfl⟩

/-- A record whose checks its payload passes is judged by the rest of them alone. -/
theorem recordCause_checked {d : Dev} {img : Image} {r : List Word} {place need : Nat} {check : List Word → Nat}
    (hCheck : check ((d.payload img r).getD []) = 0) :
    d.recordCause img r place need check = d.recordCause img r place need fun _ => 0 := by
  unfold Dev.recordCause
  dsimp only
  rw [hCheck]

section
variable {d : Dev} {flash : List Word} {img : Image} {r : List Word} {kind need : Nat} {place : RecHead → Image → Nat}
  {check : RecHead → List Word → Image → Nat} {take : RecHead → List Word → Image → Dev → Dev}

theorem onRecord_good (hNext : d.nextRecord flash = some (img, r)) (hKind : (recordHead r).kind = kind)
    (hGood : d.recordCause img r (place (recordHead r) img) need (fun p => check (recordHead r) p img) = 0) :
    d.onRecord flash kind place need check take = take (recordHead r) ((d.payload img r).getD []) img (d.recordSeen r) := by
  unfold Dev.onRecord
  rw [hNext]
  dsimp only
  rw [if_neg (not_not_intro hKind), hGood]
  exact if_neg (by simp)

theorem onRecord_none (hNext : d.nextRecord flash = none) : d.onRecord flash kind place need check take = d := by
  unfold Dev.onRecord
  rw [hNext]

theorem onRecord_other (hNext : d.nextRecord flash = some (img, r)) (hKind : (recordHead r).kind ≠ kind) :
    d.onRecord flash kind place need check take = d := by
  unfold Dev.onRecord
  rw [hNext]
  exact if_pos hKind

end

/-- What a record leaves that changes the loader's record alone. -/
def RecordLeft (d : Dev) (l : LoadRec) (e : Dev) : Prop :=
  e.load = l ∧ OnlyParts [.regs, .load] d e ∧ OnlyRegs [rootBase + Reg.LD_BYTES.BYTES.off] d e

section
variable {s : State} {c : Instr} {flash : List Word} {img : Image} {r : List Word} {op : List Word → Dev → Dev} (hq : s.dev.quiet = true)
  (he : exec c s = onDev (op flash) s)
include hq he

/-- A record that is taken completes with the loader's record changed. -/
theorem completes_taken {f : LoadRec → LoadRec} {l : LoadRec} (hOp : op flash s.dev = (s.dev.recordSeen r).modLoad f)
    (hl : l = f (s.dev.load.seen s.dev.streaming r)) : Completes c s (RecordLeft s.dev l) := by
  obtain ⟨hLoad, hParts, hRegs, hQuiet⟩ := recordSeen_leaves s.dev r
  refine completes_quiet he ?_ ?_ <;> rw [hOp]
  · rw [quiet_modLoad, hQuiet, hq]
  · exact ⟨by rw [modLoad_load, hLoad, hl], by simpa using hParts, by simpa using hRegs⟩

theorem completes_untaken (hOp : op flash s.dev = s.dev) : Completes c s fun e => e = s.dev := by
  refine completes_quiet he ?_ ?_ <;> rw [hOp]
  exact hq

end

/-! ## Galleys -/

/-- Fence events of tiles. -/
def Dev.tilesRaise (d : Dev) (layer : Nat) (l : List Nat) (f : Fld) : Dev := d.each l fun d c => d.tileRaise layer c f

theorem irq_ne_tile (layer c : Nat) (f : Fld) : rootBase + Reg.IRQ_CTRL.off ≠ columnBase layer c + f.off := irq_ne_column layer c f.off

theorem columnBase_window (l c : Nat) : columnBase l c % 0x1000 = 0 := by
  unfold columnBase
  omega

/-- What fence events of tiles leave: states stand, and an event that is set stays set. -/
structure TilesNoted (d e : Dev) : Prop where
  parts : OnlyParts [.regs] d e
  quiet : e.quiet = d.quiet
  ust : ∀ l c, e.ust (columnBase l c) = d.ust (columnBase l c)
  stay : ∀ l c, d.fld (columnBase l c) Reg.TILE_EVENT.FENCE_ENGAGED = 1 → e.fld (columnBase l c) Reg.TILE_EVENT.FENCE_ENGAGED = 1

theorem TilesNoted.refl (d : Dev) : TilesNoted d d := ⟨by simp, rfl, fun _ _ => rfl, fun _ _ h => h⟩

theorem TilesNoted.trans {c d e : Dev} (h1 : TilesNoted c d) (h2 : TilesNoted d e) : TilesNoted c e :=
  ⟨h1.parts.trans h2.parts, h2.quiet.trans h1.quiet, fun l x => (h2.ust l x).trans (h1.ust l x), fun l x h => h2.stay l x (h1.stay l x h)⟩

theorem tileRaise_noted (d : Dev) (layer c : Nat) : TilesNoted d (d.tileRaise layer c Reg.TILE_EVENT.FENCE_ENGAGED) ∧
    (d.ust (columnBase layer c) ≠ .off →
      (d.tileRaise layer c Reg.TILE_EVENT.FENCE_ENGAGED).fld (columnBase layer c) Reg.TILE_EVENT.FENCE_ENGAGED = 1) := by
  have hWin := columnBase_window
  unfold Dev.tileRaise
  dsimp only
  split
  · rename_i hOff
    exact ⟨.refl d, fun h => absurd hOff h⟩
  · refine ⟨⟨by simp, quiet_raise _ _ _ (irq_ne_tile _ _ _), fun l x => ?_, fun l x h => ?_⟩, fun _ => fld_raise_same (by decide) (by decide)⟩
    · have hNe : columnBase l x + Reg.STATE.SELF.off ≠ columnBase layer c + Reg.TILE_EVENT.FENCE_ENGAGED.off := by
        have h1 := hWin l x
        have h2 := hWin layer c
        simp only [Reg.STATE.SELF, Reg.TILE_EVENT.FENCE_ENGAGED]
        omega
      rw [Dev.ust, Dev.raise, fld_setFld_other hNe, Dev.ust]
    · by_cases hEq : columnBase l x = columnBase layer c
      · rw [hEq, fld_raise_same (by decide) (by decide)]
      · rw [Dev.raise, fld_setFld_other (by omega), h]

/-- Fence events of tiles of a layer: those of tiles with power are set. -/
theorem tilesRaise_noted (layer : Nat) (l : List Nat) (d : Dev) :
    TilesNoted d (d.tilesRaise layer l Reg.TILE_EVENT.FENCE_ENGAGED) ∧
    (∀ c ∈ l, d.ust (columnBase layer c) ≠ .off →
      (d.tilesRaise layer l Reg.TILE_EVENT.FENCE_ENGAGED).fld (columnBase layer c) Reg.TILE_EVENT.FENCE_ENGAGED = 1) := by
  induction l generalizing d with
  | nil => exact ⟨.refl d, by simp⟩
  | cons x xs ih =>
    obtain ⟨hOne, hSet⟩ := tileRaise_noted d layer x
    obtain ⟨hRest, hAll⟩ := ih (d.tileRaise layer x Reg.TILE_EVENT.FENCE_ENGAGED)
    refine ⟨hOne.trans hRest, fun c hc hOn => ?_⟩
    obtain rfl | hc := List.mem_cons.mp hc
    · exact hRest.stay _ _ (hSet hOn)
    · exact hAll c hc (by rw [hOne.ust]; exact hOn)

section
variable {s : State} {flash : List Word} {img : Image} {r : List Word} (hq : s.dev.quiet = true)
  (hNext : s.dev.nextRecord flash = some (img, r))
include hq hNext

theorem completes_record {c : Instr} {op : List Word → Dev → Dev} (he : exec c s = onDev (op flash) s) {kind place need : Nat}
    {check : List Word → Nat} {placeOf : RecHead → Image → Nat} {checkOf : RecHead → List Word → Image → Nat}
    {take : RecHead → List Word → Image → Dev → Dev} (hOp : op flash s.dev = s.dev.onRecord flash kind placeOf need checkOf take)
    (hKind : (recordHead r).kind = kind) (hGood : s.dev.recordCause img r place need check = 0) (hPlace : placeOf (recordHead r) img = place)
    (hCheck : checkOf (recordHead r) ((s.dev.payload img r).getD []) img = check ((s.dev.payload img r).getD [])) {f : LoadRec → LoadRec}
    {l : LoadRec} (hTake : take (recordHead r) ((s.dev.payload img r).getD []) img (s.dev.recordSeen r) = (s.dev.recordSeen r).modLoad f)
    (hl : l = f (s.dev.load.seen s.dev.streaming r)) : Completes c s (RecordLeft s.dev l) := by
  subst hPlace
  have hSame : s.dev.recordCause img r (placeOf (recordHead r) img) need (fun p => checkOf (recordHead r) p img) = 0 := by
    rw [← hGood]
    unfold Dev.recordCause
    dsimp only
    rw [hCheck]
  exact completes_taken hq he (by rw [hOp, onRecord_good hNext hKind hSame, hTake]) hl

end

/-- The declaration that a GALLEY_OPEN makes. -/
def Dev.openedDecl (d : Dev) (h : RecHead) (p : List Word) : Decl :=
  { base := h.unit, galleyId := (galleyOf p).galleyId, parent := d.load.openUnits.headD 0, sort := (galleyOf p).sort
    withPrev := (galleyOf p).withPrev, decision := (galleyOf p).decision, thermal := h.thermal, initPresent := h.initPresent, fence := h.fence
    userKind := (galleyOf p).userKind, occL2 := maskColumns (galleyOf p).occL2, occL4 := maskColumns (galleyOf p).occL4, index := h.index }

/-- The fences of a unit's tiles engage as its galley opens, where the unit is new. -/
def Dev.openTiles (d : Dev) (h : RecHead) (u : Decl) : Dev :=
  if h.unit = formeBase ∨ d.units.user.has h.unit = true then d
  else (d.tilesRaise 2 u.occL2 Reg.TILE_EVENT.FENCE_ENGAGED).tilesRaise 4 u.occL4 Reg.TILE_EVENT.FENCE_ENGAGED

/-- The loader's record once a galley is open. -/
def LoadRec.galleyOpened (l : LoadRec) (img : Image) (u : Decl) : LoadRec :=
  { l with image := some { img with decls := img.decls ++ [u] }, openUnits := u.base :: l.openUnits }

section
variable {s : State} {flash : List Word} {img : Image} {r : List Word} (hq : s.dev.quiet = true)
  (hNext : s.dev.nextRecord flash = some (img, r))
include hNext

theorem opGalleyOpen_full (hFull : partialImage img.colophon = false) (hKind : (recordHead r).kind = 0x01)
    (hGood : s.dev.recordCause img r (s.dev.openPlace (recordHead r) img) 80 (fun p => s.dev.openCause (recordHead r) p img) = 0) :
    opGalleyOpen flash s.dev = (((s.dev.recordSeen r).unlessAgain fun d =>
      d.openTiles (recordHead r) (s.dev.openedDecl (recordHead r) ((s.dev.payload img r).getD [])))).modLoad fun l =>
        l.galleyOpened img (s.dev.openedDecl (recordHead r) ((s.dev.payload img r).getD [])) := by
  unfold opGalleyOpen
  rw [onRecord_good hNext hKind hGood]
  dsimp only
  rw [hFull, if_neg (by simp)]
  rw [show (s.dev.recordSeen r).load.openUnits = s.dev.load.openUnits by rw [(recordSeen_leaves s.dev r).1]; rfl]
  rfl

include hq

theorem galleyOpen_known (hFull : partialImage img.colophon = false) (hKind : (recordHead r).kind = 0x01)
    (hGood : s.dev.recordCause img r (s.dev.openPlace (recordHead r) img) 80 (fun p => s.dev.openCause (recordHead r) p img) = 0)
    (hKnown : (recordHead r).unit = formeBase ∨ s.dev.units.user.has (recordHead r).unit = true ∨ s.dev.load.mode = .reapply) :
    Completes (.galleyOpen flash) s (RecordLeft s.dev ((s.dev.load.seen s.dev.streaming r).galleyOpened img
      (s.dev.openedDecl (recordHead r) ((s.dev.payload img r).getD [])))) := by
  obtain ⟨hLoad, hParts, -, -⟩ := recordSeen_leaves s.dev r
  refine completes_taken (op := opGalleyOpen) (r := r) hq rfl
    (f := fun l => l.galleyOpened img (s.dev.openedDecl (recordHead r) ((s.dev.payload img r).getD []))) ?_ rfl
  rw [opGalleyOpen_full hNext hFull hKind hGood]
  have hNoTiles : ((s.dev.recordSeen r).unlessAgain fun d =>
      d.openTiles (recordHead r) (s.dev.openedDecl (recordHead r) ((s.dev.payload img r).getD []))) = s.dev.recordSeen r := by
    unfold Dev.unlessAgain Dev.openTiles
    split
    · rfl
    · rename_i hMode
      refine if_pos ?_
      rw [hParts .units (by simp)]
      obtain h | h | h := hKnown
      · exact .inl h
      · exact .inr h
      · exact absurd (show (s.dev.recordSeen r).load.mode = .reapply by rw [hLoad]; exact h) hMode
  rw [hNoTiles]

theorem galleyOpen_new (hFull : partialImage img.colophon = false) (hKind : (recordHead r).kind = 0x01)
    (hGood : s.dev.recordCause img r (s.dev.openPlace (recordHead r) img) 80 (fun p => s.dev.openCause (recordHead r) p img) = 0)
    (hForme : (recordHead r).unit ≠ formeBase) (hNew : s.dev.units.user.has (recordHead r).unit = false) (hMode : s.dev.load.mode ≠ .reapply)
    {u : Decl} (hu : u = s.dev.openedDecl (recordHead r) ((s.dev.payload img r).getD [])) :
    Completes (.galleyOpen flash) s fun e =>
      e.load = (s.dev.load.seen s.dev.streaming r).galleyOpened img u ∧ OnlyParts [.regs, .load] s.dev e ∧
      (∀ c ∈ u.occL2, s.dev.ust (columnBase 2 c) ≠ .off → e.fld (columnBase 2 c) Reg.TILE_EVENT.FENCE_ENGAGED = 1) ∧
      (∀ c ∈ u.occL4, s.dev.ust (columnBase 4 c) ≠ .off → e.fld (columnBase 4 c) Reg.TILE_EVENT.FENCE_ENGAGED = 1) := by
  obtain ⟨hLoad, hParts, hRegs, hQuiet⟩ := recordSeen_leaves s.dev r
  have hOp := opGalleyOpen_full hNext hFull hKind hGood
  rw [← hu] at hOp
  have hTiles : ((s.dev.recordSeen r).unlessAgain fun d => d.openTiles (recordHead r) u) =
      ((s.dev.recordSeen r).tilesRaise 2 u.occL2 Reg.TILE_EVENT.FENCE_ENGAGED).tilesRaise 4 u.occL4 Reg.TILE_EVENT.FENCE_ENGAGED := by
    unfold Dev.unlessAgain Dev.openTiles
    rw [if_neg (by rw [hLoad]; exact hMode)]
    dsimp only
    rw [hParts .units (by simp), hNew, if_neg (by simp [hForme])]
  rw [hTiles] at hOp
  have hUst (l c : Nat) : (s.dev.recordSeen r).ust (columnBase l c) = s.dev.ust (columnBase l c) := by
    have hNe : columnBase l c + Reg.STATE.SELF.off ≠ rootBase + Reg.LD_BYTES.BYTES.off :=
      Nat.ne_of_gt (Nat.lt_of_lt_of_le (by decide) (columnBase_ge l c _))
    rw [Dev.ust, Dev.fld, hRegs _ (by simpa using hNe)]
    rfl
  obtain ⟨h2, hSet2⟩ := tilesRaise_noted 2 u.occL2 (s.dev.recordSeen r)
  obtain ⟨h4, hSet4⟩ := tilesRaise_noted 4 u.occL4 ((s.dev.recordSeen r).tilesRaise 2 u.occL2 Reg.TILE_EVENT.FENCE_ENGAGED)
  have hBoth := h2.trans h4
  refine completes_quiet (f := opGalleyOpen flash) rfl ?_ ?_ <;> rw [hOp]
  · rw [quiet_modLoad, hBoth.quiet, hQuiet, hq]
  · refine ⟨?_, ?_, fun c hc hOn => ?_, fun c hc hOn => ?_⟩
    · rw [modLoad_load, hBoth.parts .load (by simp), hLoad]
    · simpa using hParts.trans (hBoth.parts.mono (by simp))
    · rw [fld_modLoad]
      exact h4.stay _ _ (hSet2 c hc (by rw [hUst]; exact hOn))
    · rw [fld_modLoad]
      exact hSet4 c hc (by rw [h2.ust, hUst]; exact hOn)

/-- An optional record of a kind that the T7 does not implement is skipped (R342). -/
theorem optionalRecord_skipped (hKind : 0x80 ≤ (recordHead r).kind) (hCrc : (recordHead r).crcOk = true)
    (hLength : lengthBad (recordHead r) = false) (hFormat : img.colophon.fmtMajor ≠ 2) (hInside : s.dev.outside = false)
    (hSort : s.dev.inSort img = false) :
    Completes (.optionalRecord flash) s (RecordLeft s.dev (s.dev.load.seen s.dev.streaming r)) := by
  refine completes_taken (op := opOptionalRecord) (r := r) (f := fun l => l) hq rfl ?_ rfl
  have hUnknown : knownKinds.contains (recordHead r).kind = false := by
    generalize (recordHead r).kind = k at hKind
    simp only [knownKinds, List.contains_eq_mem, decide_eq_false_iff_not, List.mem_cons, List.not_mem_nil, or_false]
    omega
  unfold opOptionalRecord
  rw [hNext]
  dsimp only
  rw [hUnknown, if_neg (by decide), hCrc, hLength, hInside, hSort, decide_eq_false (by omega : ¬(recordHead r).kind < 0x80)]
  have hMajor : (img.colophon.fmtMajor == 2) = false := by simpa using hFormat
  rw [hMajor]
  exact if_neg (by simp [firstCause])

end

/-! ## The kinds, each by its placement, its checks and what it takes -/

/-- The placement of GALLEY_CLOSE. -/
def Dev.closePlace (d : Dev) (h : RecHead) (_ : Image) : Nat := if d.load.openUnits.head? = some h.unit then 0 else ldNesting

theorem opGalleyClose_eq (flash : List Word) (d : Dev) :
    opGalleyClose flash d = d.onRecord flash 0x02 d.closePlace 0 (fun _ _ _ => 0) fun _ _ _ d =>
      d.modLoad fun l => { l with openUnits := l.openUnits.drop 1 } := rfl

/-- The check of THERMAL_MAP. -/
def thermalCheck (_ : RecHead) (p : List Word) (_ : Image) : Nat :=
  firstCause [(!(hotOf p).1.all evenColumn || (hotOf p).2.any evenColumn, ldThermal)]

theorem opThermalMap_eq (flash : List Word) (d : Dev) :
    opThermalMap flash d = d.onRecord flash 0x16 (fun h img => d.depthOne h 0 true img.thermal.isSome img) 64 thermalCheck fun _ p img d =>
      d.setImage { img with thermal := some (hotOf p) } := rfl

/-- The check of LATENCY. -/
def latencyCheck (_ : RecHead) (p : List Word) (img : Image) : Nat := ((latencyDeclOf p).map fun l => latencyCause l img).getD ldLength

theorem opLatency_eq (flash : List Word) (d : Dev) :
    opLatency flash d = d.onRecord flash 0x18 (fun h img => d.depthOne h keeperBase true img.latency.isSome img) 16 latencyCheck fun h p img d =>
      d.setImage { img with latency := (latencyDeclOf p).map fun l => (h.index, l) } := by
  unfold opLatency
  dsimp only
  congr 1
  funext _ p img
  unfold latencyCheck
  cases latencyDeclOf p <;> rfl

section
variable {s : State} {flash : List Word} {img : Image} {r : List Word} (hq : s.dev.quiet = true)
  (hNext : s.dev.nextRecord flash = some (img, r))
include hq hNext

theorem galleyClose_closes (hHead : s.dev.load.openUnits.head? = some (recordHead r).unit) (hKind : (recordHead r).kind = 0x02)
    (hGood : s.dev.recordCause img r 0 0 (fun _ => 0) = 0) :
    Completes (.galleyClose flash) s
      (RecordLeft s.dev { s.dev.load.seen s.dev.streaming r with openUnits := s.dev.load.openUnits.drop 1 }) :=
  completes_record hq hNext (op := opGalleyClose) rfl (opGalleyClose_eq flash s.dev) hKind hGood (if_pos hHead) rfl
    (f := fun l => { l with openUnits := l.openUnits.drop 1 }) rfl rfl

/-- A kind that only changes the image being read. -/
theorem completes_imageRecord {c : Instr} {op : List Word → Dev → Dev} (he : exec c s = onDev (op flash) s) {kind place need : Nat}
    {check : List Word → Nat} {placeOf : RecHead → Image → Nat} {checkOf : RecHead → List Word → Image → Nat}
    {takes : RecHead → List Word → Image → Image}
    (hOp : op flash s.dev = s.dev.onRecord flash kind placeOf need checkOf fun h p img d => d.setImage (takes h p img))
    (hKind : (recordHead r).kind = kind) (hGood : s.dev.recordCause img r place need check = 0) (hPlace : placeOf (recordHead r) img = place)
    (hCheck : checkOf (recordHead r) ((s.dev.payload img r).getD []) img = check ((s.dev.payload img r).getD [])) {i : Image}
    (hTakes : takes (recordHead r) ((s.dev.payload img r).getD []) img = i) :
    Completes c s (RecordLeft s.dev { s.dev.load.seen s.dev.streaming r with image := some i }) := by
  subst hTakes
  exact completes_record hq hNext he hOp hKind hGood hPlace hCheck
    (f := fun l => { l with image := some (takes (recordHead r) ((s.dev.payload img r).getD []) img) }) rfl rfl

theorem pinTable_kept (hKind : (recordHead r).kind = 0x12)
    (hGood : s.dev.recordCause img r (s.dev.depthOne (recordHead r) pinsBase true img.pins.isSome img) 0 (fun p => pinCause (pinsOf p)) = 0) :
    Completes (.pinTable flash) s (RecordLeft s.dev { s.dev.load.seen s.dev.streaming r with
      image := some { img with pins := some (pinsOf ((s.dev.payload img r).getD [])) } }) :=
  completes_imageRecord hq hNext (op := opPinTable) (takes := fun _ p img => { img with pins := some (pinsOf p) }) rfl rfl hKind hGood
    rfl rfl rfl

theorem unitSettings_kept {pairs : List (Nat × Word)} (hKind : (recordHead r).kind = 0x13)
    (hGood : s.dev.recordCause img r (s.dev.settingsPlace (recordHead r) img) 4 (fun p => settingsCause (recordHead r) p img) = 0)
    (hPairs : settingPairs (((s.dev.payload img r).getD []).drop 1) = some pairs) :
    Completes (.unitSettings flash) s (RecordLeft s.dev { s.dev.load.seen s.dev.streaming r with
      image := some { img with settings := img.settings ++
        [{ index := (recordHead r).index, base := (recordHead r).unit, major := reqMajor ((s.dev.payload img r).getD [])
           minor := reqMinor ((s.dev.payload img r).getD []), pairs := pairs }] } }) :=
  completes_imageRecord hq hNext (op := opUnitSettings)
    (takes := fun h p img => { img with settings := img.settings ++
      [{ index := h.index, base := h.unit, major := reqMajor p, minor := reqMinor p, pairs := (settingPairs (p.drop 1)).getD [] }] })
    rfl rfl hKind hGood rfl rfl (by rw [hPairs, Option.getD_some])

theorem ringMap_kept {secs : List RingSection} (hKind : (recordHead r).kind = 0x14)
    (hGood : s.dev.recordCause img r (s.dev.depthOne (recordHead r) 0 true false img) 0 (fun p => ringCause (recordHead r) p img) = 0)
    (hSecs : ringsOf ((s.dev.payload img r).getD []) = some secs) :
    Completes (.ringMap flash) s (RecordLeft s.dev { s.dev.load.seen s.dev.streaming r with
      image := some { img with rings := img.rings ++ secs.map fun x => ((recordHead r).index, x) } }) :=
  completes_imageRecord hq hNext (op := opRingMap)
    (takes := fun h p img => { img with rings := img.rings ++ ((ringsOf p).getD []).map fun x => (h.index, x) })
    rfl rfl hKind hGood rfl rfl (by rw [hSecs, Option.getD_some])

theorem memoryPreload_kept {pre : List Preload} (hKind : (recordHead r).kind = 0x15)
    (hGood : s.dev.recordCause img r (s.dev.depthOne (recordHead r) 0 false false img) 0 (fun p => preloadCause (recordHead r) p img) = 0)
    (hPre : preloadsOf ((s.dev.payload img r).getD []) = some pre) :
    Completes (.memoryPreload flash) s (RecordLeft s.dev { s.dev.load.seen s.dev.streaming r with
      image := some { img with preloads := img.preloads ++ pre.map fun x => ((recordHead r).index, x) } }) :=
  completes_imageRecord hq hNext (op := opMemoryPreload)
    (takes := fun h p img => { img with preloads := img.preloads ++ ((preloadsOf p).getD []).map fun x => (h.index, x) })
    rfl rfl hKind hGood rfl rfl (by rw [hPre, Option.getD_some])

theorem thermalMap_kept (hKind : (recordHead r).kind = 0x16)
    (hGood : s.dev.recordCause img r (s.dev.depthOne (recordHead r) 0 true img.thermal.isSome img) 64 (fun _ => 0) = 0)
    (hL2 : (hotOf ((s.dev.payload img r).getD [])).1.all evenColumn = true)
    (hL4 : (hotOf ((s.dev.payload img r).getD [])).2.any evenColumn = false) :
    Completes (.thermalMap flash) s (RecordLeft s.dev { s.dev.load.seen s.dev.streaming r with
      image := some { img with thermal := some (hotOf ((s.dev.payload img r).getD [])) } }) :=
  completes_imageRecord hq hNext (op := opThermalMap) (takes := fun _ p img => { img with thermal := some (hotOf p) }) rfl
    (opThermalMap_eq ..) hKind hGood rfl (by unfold thermalCheck; rw [hL2, hL4]; decide) rfl

theorem latency_kept {lat : LatencyDecl} (hKind : (recordHead r).kind = 0x18)
    (hGood : s.dev.recordCause img r (s.dev.depthOne (recordHead r) keeperBase true img.latency.isSome img) 16 (fun _ => 0) = 0)
    (hLat : latencyDeclOf ((s.dev.payload img r).getD []) = some lat) (hCause : latencyCause lat img = 0) :
    Completes (.latency flash) s (RecordLeft s.dev { s.dev.load.seen s.dev.streaming r with
      image := some { img with latency := some ((recordHead r).index, lat) } }) :=
  completes_imageRecord hq hNext (op := opLatency)
    (takes := fun h p img => { img with latency := (latencyDeclOf p).map fun l => (h.index, l) }) rfl
    (opLatency_eq ..) hKind hGood rfl (by unfold latencyCheck; rw [hLat, Option.map_some, Option.getD_some]; exact hCause)
    (by rw [hLat, Option.map_some])

end

/-- Settles O42: a record that passes its checks is counted and then taken by its kind, and what it says is kept until the end. -/
theorem imageRecordsAreTaken : Obligations.ImageRecordsAreTaken := by
  unfold Obligations.ImageRecordsAreTaken
  intro s flash img r hQuiet d h p good seen counted left kept g u opened
  have hq : s.dev.quiet = true := hQuiet
  refine ⟨fun hNext => completes_untaken (op := opGalleyClose) hq rfl ((opGalleyClose_eq ..).trans (onRecord_none hNext)),
    fun hNext hKind => completes_untaken (op := opGalleyClose) hq rfl ((opGalleyClose_eq ..).trans (onRecord_other hNext hKind)),
    fun hNext hFull => ⟨fun good => ?_, fun hHead good => galleyClose_closes hq hNext hHead good.1 good.2,
      fun good => pinTable_kept hq hNext good.1 good.2,
      fun _ good hPairs => unitSettings_kept hq hNext good.1 good.2 hPairs,
      fun _ good hSecs => ringMap_kept hq hNext good.1 good.2 hSecs,
      fun _ good hPre => memoryPreload_kept hq hNext good.1 good.2 hPre,
      fun good hL2 hL4 => thermalMap_kept hq hNext good.1 good.2 hL2 hL4,
      fun _ good hLat hCause => latency_kept hq hNext good.1 good.2 hLat hCause,
      optionalRecord_skipped hq hNext⟩⟩
  obtain ⟨hKind, hGood⟩ := good
  exact ⟨galleyOpen_known hq hNext hFull hKind hGood, fun hForme hNew hMode => galleyOpen_new hq hNext hFull hKind hGood hForme hNew hMode rfl⟩

end Sys2Proof.Machine

/-! # Management over a trunk lane (R156 to R158) -/

namespace Sys2Proof.Machine

set_option Elab.async false

/-! ## A message that arrives whole reaches its consumer -/

/-- A link record whose transmitter alone has sent on. -/
def LinkRec.sentOn (k l : LinkRec) : Prop :=
  ∃ scr line count last, l = { k with scr := scr, line := line, txCount := count, lastTx := last }

theorem LinkRec.sentOn.refl (k : LinkRec) : k.sentOn k := ⟨_, _, _, _, rfl⟩

theorem LinkRec.sentOn.trans {j k l : LinkRec} (h1 : j.sentOn k) (h2 : k.sentOn l) : j.sentOn l := by
  obtain ⟨_, _, _, _, rfl⟩ := h1
  obtain ⟨_, _, _, _, rfl⟩ := h2
  exact ⟨_, _, _, _, rfl⟩

/-- What a lane that hears a message leaves until the message is whole: all but its receiver, and what the far-end loop sends again. -/
structure Heard (n : Nat) (d e : Dev) : Prop where
  parts : OnlyParts [.lanes, .links] d e
  link : (d.link n).sentOn (e.link n)

theorem Heard.refl (n : Nat) (d : Dev) : Heard n d d := ⟨by simp, .refl _⟩

theorem Heard.trans {n : Nat} {c d e : Dev} (h1 : Heard n c d) (h2 : Heard n d e) : Heard n c e :=
  ⟨h1.parts.trans h2.parts, h1.link.trans h2.link⟩

theorem OnlyParts.reg_eq {l : List Part} {d e : Dev} (h : OnlyParts l d e) (hl : Part.regs ∉ l) (a : Nat) : e.reg a = d.reg a := by
  rw [Dev.reg, h .regs hl, Dev.reg]

theorem OnlyParts.fld_eq {l : List Part} {d e : Dev} (h : OnlyParts l d e) (hl : Part.regs ∉ l) (b : Nat) (f : Fld) : e.fld b f = d.fld b f := by
  rw [Dev.fld, h.reg_eq hl, Dev.fld]

theorem OnlyParts.quiet_eq {l : List Part} {d e : Dev} (h : OnlyParts l d e) (h1 : Part.kryup ∉ l) (h2 : Part.clk ∉ l) (h3 : Part.regs ∉ l)
    (h4 : Part.stack ∉ l) : e.quiet = d.quiet :=
  quiet_congr (h .kryup h1) (h .clk h2) (h.reg_eq h3 _) (by rw [h .stack h4])

/-- A block that the far-end loop may send again. -/
theorem retransmit_heard (d : Dev) (n : Nat) (control : Bool) (p : Payload) :
    OnlyParts [.links] d (d.retransmit n (.block control p)) ∧ Heard n d (d.retransmit n (.block control p)) := by
  have hParts : OnlyParts [.links] d (d.retransmit n (.block control p)) := by
    unfold Dev.retransmit Dev.sendBlocks
    split
    · simp
    · dsimp only
      split <;> simp
  refine ⟨hParts, hParts.mono (by simp), ?_⟩
  unfold Dev.retransmit
  split
  · exact .refl _
  · dsimp only
    split
    · rw [link_modLink_same]
      exact ⟨_, _, _, _, rfl⟩
    · rw [Dev.sendBlocks, link_modLink_same, link_modLink_same]
      obtain ⟨scr, line, count, h⟩ := foldl_send_eq (quadInterval (d.fld (laneBase n) Reg.TX_QUAD.INTERVAL)) (d.txPol n) [(control, p)] (d.link n)
      rw [h]
      exact ⟨_, _, _, _, rfl⟩

/-- The receiver of a lane moves on. -/
theorem receives_heard (d : Dev) (n : Nat) (f : LaneRec → LaneRec) : Heard n d (d.modLane n f) := ⟨by simp, .refl _⟩

/-- The lane's receiver after a block, where the lane runs no proof loop. -/
theorem ebOut_block {d : Dev} {n : Nat} (control : Bool) (p : Payload) (hProof : d.proving (laneBase n) = false) :
    ∃ e, Heard n d e ∧ (e.lane n).rx = (d.lane n).rx ∧ d.ebOut n (.block control p) = e.rxItem n (.block control p) := by
  obtain ⟨hLinks, hHeard⟩ := retransmit_heard d n control p
  refine ⟨_, hHeard, by rw [Dev.lane, hLinks .lanes (by simp), Dev.lane], ?_⟩
  unfold Dev.ebOut
  dsimp only
  rw [proving_congr (fun a => hHeard.parts.reg_eq (by simp) a) (laneBase n), hProof]
  exact if_neg (by decide)

theorem Heard.proving {n : Nat} {d e : Dev} (h : Heard n d e) (b : Nat) : e.proving b = d.proving b :=
  proving_congr (fun a => h.parts.reg_eq (by simp) a) b

/-- A message whose SOM and first blocks have been received. -/
def Dev.rxFrom (d : Dev) (n : Nat) (som : Payload) (data : List Payload) : RxMsg :=
  { som := som, data := data, cross := d.now, ver := d.version n, feat := d.fld (laneBase n) Reg.AGREED_FEAT.FEATURES }

theorem Heard.now {n : Nat} {d e : Dev} (h : Heard n d e) : e.now = d.now := by
  unfold Dev.now
  rw [h.parts .keeper (by simp)]

theorem Heard.rxFrom {n : Nat} {d e : Dev} (h : Heard n d e) (som : Payload) (data : List Payload) : e.rxFrom n som data = d.rxFrom n som data := by
  unfold Dev.rxFrom Dev.version
  rw [h.now, h.parts.fld_eq (by simp), h.parts.fld_eq (by simp)]

/-- A SOM between messages opens one. -/
theorem ebOut_som {d : Dev} {n : Nat} {p : Payload} (hProof : d.proving (laneBase n) = false) (hOut : (d.lane n).rx = .outside)
    (hSom : ctlType p = ctlSom) (hChk : chkOk p = true) :
    Heard n d (d.ebOut n (.block true p)) ∧ ((d.ebOut n (.block true p)).lane n).rx = .inside (d.rxFrom n p []) := by
  obtain ⟨e, hHeard, hRx, hEb⟩ := ebOut_block true p hProof
  rw [hOut] at hRx
  have hBreak : e.rxBreak n = e.modLane n fun r => { r with rx := .outside } := by
    unfold Dev.rxBreak
    rw [hRx]
  have hOpen := hHeard.trans (receives_heard e n fun r => { r with rx := .outside })
  have hStep : d.ebOut n (.block true p) = (e.modLane n fun r => { r with rx := .outside }).modLane n fun r => { r with rx := .inside (d.rxFrom n p []) } := by
    rw [hEb, ← hOpen.rxFrom]
    unfold Dev.rxItem
    rw [hRx]
    dsimp only
    rw [if_pos hSom, Dev.somBlock, hBreak]
    exact if_pos hChk
  rw [hStep]
  refine ⟨hOpen.trans (receives_heard ..), ?_⟩
  rw [lane_modLane_same]

/-- Data blocks join the message being received. -/
theorem ebOut_data {n : Nat} {r : RxMsg} (ps : List Payload) {d : Dev} (hProof : d.proving (laneBase n) = false)
    (hIn : (d.lane n).rx = .inside r) :
    Heard n d (d.each (ps.map (.block false)) fun d i => d.ebOut n i) ∧
    ((d.each (ps.map (.block false)) fun d i => d.ebOut n i).lane n).rx = .inside { r with data := r.data ++ ps } := by
  induction ps generalizing d r with
  | nil => exact ⟨.refl n d, by simpa [Dev.each] using hIn⟩
  | cons p ps ih =>
    obtain ⟨e, hHeard, hRx, hEb⟩ := ebOut_block false p hProof
    rw [hIn] at hRx
    have hStep : d.ebOut n (.block false p) = e.modLane n fun l => { l with rx := .inside { r with data := r.data ++ [p] } } := by
      rw [hEb]
      unfold Dev.rxItem
      rw [hRx]
    have hNext := hHeard.trans (receives_heard e n fun l => { l with rx := .inside { r with data := r.data ++ [p] } })
    obtain ⟨hRest, hEnd⟩ := ih (d := e.modLane n fun l => { l with rx := .inside { r with data := r.data ++ [p] } })
      (r := { r with data := r.data ++ [p] }) (by rw [hNext.proving, hProof]) (by rw [lane_modLane_same])
    rw [List.map_cons, Dev.each, List.foldl_cons, hStep]
    refine ⟨hNext.trans hRest, hEnd.trans ?_⟩
    simp

/-- A whole message that the lane takes is handed on as received good. -/
theorem messageIn_taken {d : Dev} {n typ : Nat} {m : WireMsg} (h : d.takes n typ m = true) :
    ∃ e, Heard n d e ∧ d.messageIn n typ m = e.messageGood n (d.rxFrom n m.som m.data) := by
  simp only [Dev.takes, Dev.between, Bool.and_eq_true, decide_eq_true_eq, beq_iff_eq] at h
  obtain ⟨⟨⟨⟨⟨⟨⟨⟨⟨⟨hListens, hOut⟩, hSom⟩, hTyp⟩, hChk⟩, hEom⟩, hOk⟩, -⟩, -⟩, -⟩, -⟩ := h
  have hProof : d.proving (laneBase n) = false := by
    simp only [Dev.listens, Bool.and_eq_true, Bool.not_eq_true'] at hListens
    exact hListens.2
  obtain ⟨hFirst, hFirstRx⟩ := ebOut_som hProof hOut hSom hChk
  generalize hc : d.ebOut n (.block true m.som) = c at hFirst hFirstRx
  obtain ⟨hData, hDataRx⟩ := ebOut_data m.data (by rw [hFirst.proving, hProof]) hFirstRx
  generalize hb : (c.each (m.data.map (.block false)) fun d i => d.ebOut n i) = b at hData hDataRx
  have hAll := hFirst.trans hData
  obtain ⟨e, hLast, hLastRx, hEb⟩ := ebOut_block true m.eom (n := n) (d := b) (by rw [hAll.proving, hProof])
  rw [hDataRx] at hLastRx
  refine ⟨e.modLane n fun r => { r with rx := .outside }, (hAll.trans hLast).trans (receives_heard ..), ?_⟩
  have hItems : d.messageIn n typ m = b.ebOut n (.block true m.eom) := by
    unfold Dev.messageIn wireItems
    rw [hListens, if_pos (by rw [Bool.true_and, beq_iff_eq]; exact hTyp), ← hb, ← hc]
    simp only [Dev.each, List.foldl_cons, List.foldl_append, List.foldl_nil]
  rw [hItems, hEb]
  unfold Dev.rxItem
  rw [hLastRx]
  dsimp only
  rw [if_neg (by rw [hEom]; decide), if_pos hEom]
  exact if_pos hOk

/-! ## Management messages received good -/

/-- The machine once the receive buffer holds the units of a message, where they are credited. -/
def Dev.credited (d : Dev) (n typ len : Nat) : Dev := if 0x11 ≤ d.version n then d.creditTake n typ len else d

theorem Heard.ust {n : Nat} {d e : Dev} (h : Heard n d e) (b : Nat) : e.ust b = d.ust b := by
  rw [Dev.ust, h.parts.fld_eq (by simp), Dev.ust]

theorem room_sentOn {k l : LinkRec} (h : k.sentOn l) (c : CreditClass) : l.room c = k.room c := by
  obtain ⟨_, _, _, _, rfl⟩ := h
  cases c <;> rfl

/-- A message that the lane takes passes every check, and goes where its type sends it. -/
theorem messageGood_taken {d e : Dev} {n typ : Nat} {m : WireMsg} (h : d.takes n typ m = true) (hHeard : Heard n d e) :
    e.messageGood n (d.rxFrom n m.som m.data) = (e.credited n typ (somLen m.som)).deliver n (extendStamp d.now (somStamp m.som))
      (d.fld (laneBase n) Reg.AGREED_FEAT.FEATURES) { typ := typ, stamp := somStamp m.som, route := somRoute m.som, body := m.data } := by
  simp only [Dev.takes, Bool.and_eq_true, Bool.or_eq_true, decide_eq_true_eq, beq_iff_eq, Bool.not_eq_true', decide_eq_false_iff_not] at h
  obtain ⟨⟨⟨⟨⟨⟨⟨⟨⟨-, -⟩, hTyp⟩, -⟩, -⟩, -⟩, hTakes⟩, hLen⟩, hRoom⟩, hDrain⟩ := h
  subst hTyp
  have hVer : e.version n = d.version n := hHeard.parts.fld_eq (by simp) _ _
  unfold Dev.messageGood Dev.rxFrom Dev.credited
  dsimp only
  rw [hTakes, hLen, room_sentOn hHeard.link, hHeard.ust, hVer]
  have hCalm : ¬((!isTrunk n && decide (d.ust (laneBase n) = .draining)) = true) := by
    obtain hTrunk | hRest := hDrain
    · simp [hTrunk]
    · simp [hRest]
  have hFits : ¬(0x11 ≤ d.version n ∧ (d.link n).room (creditClass (somType m.som)) < msgUnits (somLen m.som)) := by
    obtain hOld | hFits := hRoom
    · omega
    · omega
  rw [if_neg (by simpa using hCalm), if_neg (by decide), if_neg (by simp), if_neg hFits]
  exact if_pos rfl

/-! ## The access of a request -/

theorem OnlyParts.eq_lanesLinks {d e : Dev} (h : OnlyParts [.lanes, .links] d e) : e = { d with lanes := e.lanes, links := e.links } := by
  have hAll (p : Part) (hp : p ∉ [Part.lanes, .links]) := h p hp
  have h1 := hAll .free (by simp)
  have h2 := hAll .regs (by simp)
  have h3 := hAll .units (by simp)
  have h4 := hAll .ctl (by simp)
  have h5 := hAll .stack (by simp)
  have h6 := hAll .keeper (by simp)
  have h7 := hAll .clk (by simp)
  have h8 := hAll .ident (by simp)
  have h9 := hAll .groups (by simp)
  have h10 := hAll .fabric (by simp)
  have h11 := hAll .plates (by simp)
  have h12 := hAll .mem (by simp)
  have h13 := hAll .rings (by simp)
  have h14 := hAll .strike (by simp)
  have h15 := hAll .ext (by simp)
  have h16 := hAll .load (by simp)
  have h17 := hAll .power (by simp)
  have h18 := hAll .heat (by simp)
  have h19 := hAll .kryup (by simp)
  have h20 := hAll .test (by simp)
  have h21 := hAll .proof (by simp)
  have h22 := hAll .pins (by simp)
  cases e
  simp only [Part.same] at *
  subst_vars
  rfl

theorem Heard.wake_eq {n : Nat} {d e : Dev} (h : Heard n d e) (path a : Nat) :
    e.admission path a = d.admission path a ∧ e.awake path a = d.awake path a := by
  rw [h.parts.eq_lanesLinks]
  exact ⟨rfl, rfl⟩

theorem domainsAsked_holdOn (d : Dev) (k : Nat) : DomainsAsked d (d.holdOn k) := by
  have hHeld : DomainsAsked d (d.setFld pdBase (Reg.PD.HELD.elem k) 1) := by
    refine ⟨by simp, fun a ha => by rw [reg_setFld, if_neg (by omega)], fun j h => ?_⟩
    rw [← h]
    by_cases hj : j = k
    · rw [hj]
      exact fld_setFld_apart rfl (by decide : Reg.PD.HELD.apart Reg.PD.ON)
    · exact fld_setFld_other (by simp only [Fld.elem, Reg.PD.ON, Reg.PD.HELD]; omega)
  exact hHeld.trans (domainsAsked_requestOn _ _ _)

/-- The wake that an access raises touches power alone; there is none where the access needs none. -/
theorem wakeFor_leaves (d : Dev) (path a : Nat) :
    OnlyParts [.regs, .power] d (d.wakeFor path a) ∧ (d.wakeFor path a).quiet = d.quiet ∧
    (d.admission path a ≠ stOk ∨ d.awake path a = true → d.wakeFor path a = d) := by
  unfold Dev.wakeFor Dev.awake
  split
  · exact ⟨by simp, rfl, fun _ => rfl⟩
  · rename_i hAdmitted
    split
    · rename_i hWindow
      obtain ⟨hParts, hBelow, -⟩ := domainsAsked_holdOn d 6
      refine ⟨hParts, quiet_congr (hParts .kryup (by simp)) (hParts .clk (by simp)) (hBelow _ (by decide)) (by rw [hParts .stack (by simp)]), ?_⟩
      rintro (h | h)
      · exact absurd h hAdmitted
      · simp only [Bool.and_eq_true, Bool.not_eq_true'] at hWindow
        simp [hWindow.1, hWindow.2] at h
    · split
      · rename_i hGated
        split
        · exact ⟨by simp, rfl, fun _ => rfl⟩
        · refine ⟨by simp, quiet_modPower _ _, ?_⟩
          rintro (h | h)
          · exact absurd h hAdmitted
          · simp [hGated] at h
      · exact ⟨by simp, rfl, fun _ => rfl⟩

/-! ## Requests (R156) -/

/-- The request that a message is. -/
def requestOf (typ route : Nat) (body : List Payload) : MgmtReq :=
  { tag := bitsOf route 0 8, write := typ == msgMgmtWrite, count := bitsOf route 8 6 + 1, addr := (body.getD 0 0).toNat % 2 ^ 32
    fixed := bitOf (body.getD 0 0).toNat 32, data := unpackWords (body.drop 1), err := 0, len := body.length }

/-- The link record once a request is being performed. -/
def LinkRec.performing (l : LinkRec) (q : MgmtReq) : LinkRec :=
  { l with mgmtWait := [], mgmtTags := l.mgmtTags ++ [q.tag], mgmtJob := some { req := q } }

/-- The request that waits alone is taken up where there is room for its response. -/
theorem mgmtServe_one {d : Dev} {n : Nat} {q : MgmtReq} (hJob : (d.link n).mgmtJob = none) (hWait : (d.link n).mgmtWait = [q])
    (hErr : q.err = 0) (hRoom : msgUnits q.respLen ≤ (d.link n).roomM) :
    d.mgmtServe n = ((d.modLink n fun l => { l with mgmtWait := [] }).modLink n fun l => { l with mgmtJob := some { req := q } }).enqueue
      (({ req := q } : MgmtJob).access n d.tick) := by
  rw [Dev.mgmtServe, hWait, show [q].length = 0 + 1 from rfl, Dev.mgmtPump]
  dsimp only
  rw [hJob, hWait]
  dsimp only
  rw [if_pos hRoom, if_neg (by simp [hErr])]
  rfl

/-- A request with room for its response, and none before it, has its first word's access wait. -/
theorem mgmtArrive_first {d : Dev} {n typ route : Nat} {body : List Payload} (hDrain : d.ust (laneBase n) ≠ .draining)
    (hTag : (d.link n).mgmtTags.contains (bitsOf route 0 8) = false) (hJob : (d.link n).mgmtJob = none) (hWait : (d.link n).mgmtWait = [])
    (hRoom : msgUnits (requestOf typ route body).respLen ≤ (d.link n).roomM) :
    ∃ e, OnlyParts [.links] d e ∧ e.link n = (d.link n).performing (requestOf typ route body) ∧
      d.mgmtArrive n typ route true body = e.enqueue ((({ req := requestOf typ route body } : MgmtJob)).access n d.tick) := by
  have hErr : (if d.ust (laneBase n) = .draining then 0x10 else if !true then 0x11
      else if (d.link n).mgmtTags.contains (bitsOf route 0 8) then 0x12 else 0 : Nat) = 0 := by
    rw [if_neg hDrain, if_neg (by decide), hTag, if_neg (by decide)]
  have hArrive : d.mgmtArrive n typ route true body = (d.modLink n fun l => { l with
      mgmtWait := l.mgmtWait ++ [requestOf typ route body], mgmtTags := l.mgmtTags ++ [bitsOf route 0 8] }).mgmtServe n := by
    unfold Dev.mgmtArrive
    dsimp only
    rw [hErr]
    rfl
  generalize hc : (d.modLink n fun l => { l with
      mgmtWait := l.mgmtWait ++ [requestOf typ route body], mgmtTags := l.mgmtTags ++ [bitsOf route 0 8] }) = c at hArrive
  have hParts : OnlyParts [.links] d c := by rw [← hc]; simp
  have hLink : c.link n = { d.link n with mgmtWait := [requestOf typ route body], mgmtTags := (d.link n).mgmtTags ++ [bitsOf route 0 8] } := by
    rw [← hc, link_modLink_same, hWait]
    rfl
  have hTick : c.tick = d.tick := by unfold Dev.tick; rw [hParts .clk (by simp)]
  have hServe := mgmtServe_one (d := c) (n := n) (by rw [hLink]; exact hJob) (by rw [hLink]) rfl (by rw [hLink]; exact hRoom)
  rw [hTick] at hServe
  refine ⟨_, hParts.trans (by simp), ?_, hArrive.trans hServe⟩
  rw [link_modLink_same, link_modLink_same, hLink]
  rfl

/-- The units of a message touch the lane's receive credit alone. -/
theorem credited_leaves (d : Dev) (n typ len : Nat) : OnlyParts [.links] d (d.credited n typ len) ∧
    ∃ f m, (d.credited n typ len).link n = { d.link n with rxGotF := f, rxGotM := m } := by
  unfold Dev.credited Dev.creditTake
  split
  · split
    · exact ⟨by simp, _, _, rfl⟩
    · exact ⟨by simp, _, _, link_modLink_same ..⟩
    · exact ⟨by simp, _, _, link_modLink_same ..⟩
  · exact ⟨by simp, _, _, rfl⟩

/-- The machine that has received a message whole, which waits for its consumer. -/
structure Arrived (n : Nat) (d e : Dev) : Prop where
  parts : OnlyParts [.lanes, .links] d e
  link : ∃ scr line count last f m,
    e.link n = { d.link n with scr := scr, line := line, txCount := count, lastTx := last, rxGotF := f, rxGotM := m }

theorem messageIn_arrives {d : Dev} {n typ : Nat} {m : WireMsg} (h : d.takes n typ m = true) :
    ∃ e, Arrived n d e ∧ d.messageIn n typ m = e.deliver n (extendStamp d.now (somStamp m.som))
      (d.fld (laneBase n) Reg.AGREED_FEAT.FEATURES) { typ := typ, stamp := somStamp m.som, route := somRoute m.som, body := m.data } := by
  obtain ⟨e, hHeard, hIn⟩ := messageIn_taken h
  obtain ⟨hParts, f, g, hLink⟩ := credited_leaves e n typ (somLen m.som)
  obtain ⟨scr, line, count, last, hSent⟩ := hHeard.link
  exact ⟨_, ⟨hHeard.parts.trans (hParts.mono (by simp)), scr, line, count, last, f, g, by rw [hLink, hSent]⟩,
    hIn.trans (messageGood_taken h hHeard)⟩

theorem Arrived.eq {n : Nat} {d e : Dev} (h : Arrived n d e) : e = { d with lanes := e.lanes, links := e.links } := h.parts.eq_lanesLinks

/-- What a message that the lane takes says of its length. -/
theorem takes_length {d : Dev} {n typ : Nat} {m : WireMsg} (h : d.takes n typ m = true) :
    lenRight typ m.data.length (somRoute m.som) = true := by
  simp only [Dev.takes, messageOk, Bool.and_eq_true, beq_iff_eq] at h
  obtain ⟨⟨⟨⟨⟨-, ⟨hData, -⟩, -⟩, -⟩, hLen⟩, -⟩, -⟩ := h
  rw [hData]
  exact hLen

theorem unpackWords_head (p : Payload) (ps : List Payload) : (unpackWords (p :: ps)).getD 0 0 = BitVec.ofNat 32 p.toNat := rfl

/-- The word that the first access of a request carries. -/
theorem requestData {typ route : Nat} {body : List Payload} (hLen : lenRight typ body.length route = true)
    (hTyp : typ = msgMgmtRead ∨ typ = msgMgmtWrite) :
    (requestOf typ route body).data.getD 0 0 = if typ = msgMgmtWrite then BitVec.ofNat 32 (body.getD 1 0).toNat else 0 := by
  obtain rfl | rfl := hTyp
  · have hOne : body.length = 1 := by simpa [lenRight, msgMgmtRead, msgPrimitive, msgDecision, msgAccept, msgFragment, msgEvent] using hLen
    obtain ⟨p, rfl⟩ := List.length_eq_one_iff.mp hOne
    rfl
  · have hTwo : body.length = 1 + (bitsOf route 8 6 + 1 + 1) / 2 := by
      simpa [lenRight, msgMgmtRead, msgPrimitive, msgDecision, msgAccept, msgFragment, msgEvent, msgMgmtWrite] using hLen
    match body, hTwo with
    | [], h => rw [List.length_nil] at h; omega
    | [_], h => simp at h
    | _ :: q :: qs, _ => exact unpackWords_head q qs

/-- The first access of a request on a trunk lane. -/
def Dev.firstAccess (d : Dev) (n typ : Nat) (m : WireMsg) : Access :=
  { path := 1, write := typ == msgMgmtWrite, addr := (m.data.getD 0 0).toNat % 2 ^ 32
    data := if typ = msgMgmtWrite then BitVec.ofNat 32 (m.data.getD 1 0).toNat else 0, lane := some n, since := d.tick }

section
variable {s : State} {n typ : Nat} {m : WireMsg} (hq : s.dev.quiet = true) (hTakes : s.dev.takes n typ m = true)
  (hTyp : typ = msgMgmtRead ∨ typ = msgMgmtWrite)
include hq hTakes hTyp

theorem request_waits {c : Instr} (he : exec c s = onDev (fun d => d.messageIn n typ m) s)
    (hDrain : s.dev.ust (laneBase n) ≠ .draining)
    (hTag : (s.dev.link n).mgmtTags.contains (somRoute m.som % 256) = false) (hJob : (s.dev.link n).mgmtJob = none)
    (hWait : (s.dev.link n).mgmtWait = [])
    (hRoom : msgUnits (if typ = msgMgmtWrite then 1 else 1 + (somRoute m.som / 256 % 64 + 1 + 1) / 2) ≤ (s.dev.link n).roomM) :
    Completes c s fun e =>
      e.ctl = { s.dev.ctl with waiting := s.dev.ctl.waiting ++ [s.dev.firstAccess n typ m] } ∧
      (e.link n).mgmtTags = (s.dev.link n).mgmtTags ++ [somRoute m.som % 256] ∧
      (s.dev.admission 1 ((m.data.getD 0 0).toNat % 2 ^ 32) ≠ stOk ∨ s.dev.awake 1 ((m.data.getD 0 0).toNat % 2 ^ 32) = true →
        OnlyParts [.ctl, .lanes, .links] s.dev e) := by
  obtain ⟨e, hArrived, hIn⟩ := messageIn_arrives hTakes
  obtain ⟨scr, line, count, last, f, g, hLink⟩ := hArrived.link
  have hTagEq : bitsOf (somRoute m.som) 0 8 = somRoute m.som % 256 := by simp [bitsOf]
  have hCount : bitsOf (somRoute m.som) 8 6 = somRoute m.som / 256 % 64 := by simp [bitsOf, Nat.shiftRight_eq_div_pow]
  have hDeliver : s.dev.messageIn n typ m = e.mgmtArrive n typ (somRoute m.som) true m.data := by
    rw [hIn]
    obtain rfl | rfl := hTyp <;> rfl
  have hFits : msgUnits (requestOf typ (somRoute m.som) m.data).respLen ≤ (e.link n).roomM := by
    rw [hLink]
    refine le_trans (le_of_eq ?_) hRoom
    unfold requestOf MgmtReq.respLen
    dsimp only
    rw [hCount]
    simp
  obtain ⟨b, hParts, hDone, hFirst⟩ := mgmtArrive_first (d := e) (n := n) (typ := typ) (route := somRoute m.som) (body := m.data)
    (by rw [Dev.ust, hArrived.parts.fld_eq (by simp)]; exact hDrain) (by rw [hLink, hTagEq]; exact hTag) (by rw [hLink]; exact hJob)
    (by rw [hLink]; exact hWait) hFits
  have hBoth : OnlyParts [.lanes, .links] s.dev b := hArrived.parts.trans (hParts.mono (by simp))
  have hTick : e.tick = s.dev.tick := by unfold Dev.tick; rw [hArrived.parts .clk (by simp)]
  have hAccess : (({ req := requestOf typ (somRoute m.som) m.data } : MgmtJob)).access n e.tick = s.dev.firstAccess n typ m := by
    unfold MgmtJob.access Dev.firstAccess
    dsimp only
    rw [requestData (takes_length hTakes) hTyp, hTick]
    simp [requestOf]
  rw [hAccess] at hFirst
  have hOp : s.dev.messageIn n typ m = b.enqueue (s.dev.firstAccess n typ m) := hDeliver.trans hFirst
  have hSince : { s.dev.firstAccess n typ m with since := b.tick } = s.dev.firstAccess n typ m := by
    unfold Dev.tick
    rw [hBoth .clk (by simp)]
    rfl
  obtain ⟨hWake, hCalm, hNone⟩ := wakeFor_leaves b 1 ((m.data.getD 0 0).toNat % 2 ^ 32)
  have hEnq : b.enqueue (s.dev.firstAccess n typ m) =
      (b.wakeFor 1 ((m.data.getD 0 0).toNat % 2 ^ 32)).modCtl fun c => { c with waiting := c.waiting ++ [s.dev.firstAccess n typ m] } := by
    rw [Dev.enqueue, hSince]
    rfl
  rw [hEnq] at hOp
  obtain ⟨hAdmission, hAwake⟩ : b.admission 1 ((m.data.getD 0 0).toNat % 2 ^ 32) = s.dev.admission 1 ((m.data.getD 0 0).toNat % 2 ^ 32) ∧
      b.awake 1 ((m.data.getD 0 0).toNat % 2 ^ 32) = s.dev.awake 1 ((m.data.getD 0 0).toNat % 2 ^ 32) := by
    rw [hBoth.eq_lanesLinks]
    exact ⟨rfl, rfl⟩
  rw [hAdmission, hAwake] at hNone
  refine completes_quiet he ?_ ?_ <;> rw [hOp]
  · rw [quiet_modCtl, hCalm, hBoth.quiet_eq (by simp) (by simp) (by simp) (by simp), hq]
  · refine ⟨?_, ?_, fun h => ?_⟩
    · rw [modCtl_ctl, hWake .ctl (by simp), hBoth .ctl (by simp)]
    · rw [Dev.link, modCtl_links, hWake .links (by simp), ← Dev.link, hDone, hLink, ← hTagEq]
      rfl
    · rw [hNone h]
      exact (hBoth.mono (by simp)).trans (by simp)

end

/-! ## The remote requester (R158) -/

/-- A field of a register at an offset leaves the registers at others. -/
theorem reg_setFld_off {d : Dev} {b a o v : Nat} {f : Fld} (h : a ≠ b + o) (hf : f.off = o) : (d.setFld b f v).reg a = d.reg a := by
  rw [reg_setFld, hf, if_neg h]

theorem fld_setFld_off {d : Dev} {b o v : Nat} {f g : Fld} (h : g.off ≠ o) (hf : f.off = o) : (d.setFld b f v).fld b g = d.fld b g :=
  fld_setFld_other (by omega)

/-- A remote request ends with its status. -/
theorem remoteEnd_leaves (d : Dev) (n : Nat) {st : Nat} (hSt : st < 256) :
    (d.remoteEnd n st).fld (laneBase n) Reg.REM_STATUS.STATUS = st ∧ (d.remoteEnd n st).fld (laneBase n) Reg.REM_STATUS.BUSY = 0 ∧
    (d.remoteEnd n st).fld (laneBase n) Reg.REM_STATUS.DONE = 1 ∧ (d.remoteEnd n st).fld (laneBase n) Reg.LINK_EVENT.REM_DONE = 1 ∧
    OnlyParts [.regs] d (d.remoteEnd n st) ∧
    OnlyRegs [laneBase n + Reg.REM_STATUS.BUSY.off, laneBase n + Reg.LINK_EVENT.REM_DONE.off] d (d.remoteEnd n st) ∧
    (d.remoteEnd n st).quiet = d.quiet := by
  unfold Dev.remoteEnd
  dsimp only
  refine ⟨?_, ?_, ?_, fld_raise_same (by decide) (by decide), by simp, ?_, ?_⟩
  · rw [Dev.raise, fld_setFld_clear (by decide), fld_setFld_clear (by decide), fld_setFld_clear (by decide), fld_setFld_lt (by decide) hSt]
  · rw [Dev.raise, fld_setFld_clear (by decide), fld_setFld_clear (by decide), fld_setFld_lt (by decide) (by decide)]
  · rw [Dev.raise, fld_setFld_clear (by decide), fld_setFld_lt (by decide) (by decide)]
  · intro a ha
    simp only [List.mem_cons, List.not_mem_nil, or_false, not_or] at ha
    obtain ⟨h1, h2⟩ := ha
    rw [Dev.raise, reg_setFld_off h2, reg_setFld_off h1, reg_setFld_off h1, reg_setFld_off h1] <;> rfl
  · rw [quiet_laneRaise, quiet_laneFld, quiet_laneFld, quiet_laneFld]

theorem noResponse_ends {s : State} (k : Fin 16) (hq : s.dev.quiet = true) (hBusy : s.dev.fld (laneBase (128 + k)) Reg.REM_STATUS.BUSY = 1)
    (hLate : (s.dev.link (128 + k)).remTick + s.dev.fld (laneBase (128 + k)) Reg.REM_CTRL.TIMEOUT ≤ s.dev.tick) :
    Completes (.noResponse k) s fun e =>
      e.fld (laneBase (128 + k)) Reg.REM_STATUS.STATUS = 0x20 ∧ e.fld (laneBase (128 + k)) Reg.REM_STATUS.BUSY = 0 ∧
      e.fld (laneBase (128 + k)) Reg.REM_STATUS.DONE = 1 ∧ e.fld (laneBase (128 + k)) Reg.LINK_EVENT.REM_DONE = 1 ∧ OnlyParts [.regs] s.dev e ∧
      OnlyRegs [laneBase (128 + k) + Reg.REM_STATUS.BUSY.off, laneBase (128 + k) + Reg.LINK_EVENT.REM_DONE.off] s.dev e := by
  obtain ⟨hStatus, hIdle, hDone, hEvent, hParts, hRegs, hQuiet⟩ := remoteEnd_leaves s.dev (128 + k) (st := 0x20) (by decide)
  have hOp : opNoResponse k s.dev = s.dev.remoteEnd (128 + k) 0x20 := by
    unfold opNoResponse Dev.flag
    dsimp only
    rw [hBusy, decide_eq_true hLate]
    exact if_pos rfl
  refine completes_quiet (f := opNoResponse k) rfl ?_ ?_ <;> rw [hOp]
  · rw [hQuiet, hq]
  · exact ⟨hStatus, hIdle, hDone, hEvent, hParts, hRegs⟩

theorem creditBack_leaves (d : Dev) (n typ len : Nat) : OnlyParts [.links] d (d.creditBack n typ len) ∧
    ((d.creditBack n typ len).link n).remWrite = (d.link n).remWrite := by
  unfold Dev.creditBack
  dsimp only
  split
  · exact ⟨by simp, rfl⟩
  · split
    · exact ⟨by simp, rfl⟩
    · exact ⟨by simp, by rw [link_modLink_same]⟩
    · exact ⟨by simp, by rw [link_modLink_same]⟩

/-- The word of a response to a read. -/
def Dev.readWord (d : Dev) (n : Nat) (body : List Payload) : Dev :=
  if (d.link n).remWrite || body.length < 2 then d else d.setReg (laneBase n + Reg.REM_RDATA.DATA.off) (BitVec.ofNat 32 (body.getD 1 0).toNat)

theorem readWord_leaves (d : Dev) (n : Nat) (body : List Payload) :
    ((d.link n).remWrite = false → 2 ≤ body.length →
      (d.readWord n body).reg (laneBase n + Reg.REM_RDATA.DATA.off) = BitVec.ofNat 32 (body.getD 1 0).toNat) ∧
    OnlyParts [.regs] d (d.readWord n body) ∧ OnlyRegs [laneBase n + Reg.REM_RDATA.DATA.off] d (d.readWord n body) ∧
    (d.readWord n body).quiet = d.quiet := by
  unfold Dev.readWord
  split
  · rename_i hNone
    refine ⟨fun hRead hTwo => ?_, by simp, by simp, rfl⟩
    rw [hRead, Bool.false_or, decide_eq_true_eq] at hNone
    omega
  · exact ⟨fun _ _ => by rw [reg_setReg, if_pos rfl], by simp, by simp, quiet_laneReg _ _ _ _⟩

/-- A response of the outstanding request ends it. -/
theorem response_ends {s : State} {n : Fin 144} {m : WireMsg} (hq : s.dev.quiet = true) (hTakes : s.dev.takes n msgMgmtResp m = true)
    (hBusy : s.dev.fld (laneBase n) Reg.REM_STATUS.BUSY = 1) (hTag : s.dev.fld (laneBase n) Reg.REM_STATUS.TAG = somRoute m.som % 256) :
    Completes (.mgmtResp n m) s fun e =>
      e.fld (laneBase n) Reg.REM_STATUS.BUSY = 0 ∧ e.fld (laneBase n) Reg.REM_STATUS.DONE = 1 ∧ e.fld (laneBase n) Reg.LINK_EVENT.REM_DONE = 1 ∧
      e.fld (laneBase n) Reg.REM_STATUS.STATUS = (m.data.getD 0 0).toNat % 256 ∧
      ((s.dev.link n).remWrite = false → 2 ≤ m.data.length →
        e.reg (laneBase n + Reg.REM_RDATA.DATA.off) = BitVec.ofNat 32 (m.data.getD 1 0).toNat) ∧
      OnlyParts [.regs, .lanes, .links] s.dev e ∧
      OnlyRegs [laneBase n + Reg.REM_STATUS.BUSY.off, laneBase n + Reg.LINK_EVENT.REM_DONE.off, laneBase n + Reg.REM_RDATA.DATA.off] s.dev e := by
  obtain ⟨e, hArrived, hIn⟩ := messageIn_arrives hTakes
  obtain ⟨scr, line, count, last, f, g, hLink⟩ := hArrived.link
  obtain ⟨hBack, hWrite⟩ := creditBack_leaves e n msgMgmtResp m.data.length
  generalize hc : e.creditBack n msgMgmtResp m.data.length = c at hBack hWrite
  have hParts : OnlyParts [.lanes, .links] s.dev c := hArrived.parts.trans (hBack.mono (by simp))
  obtain ⟨hWord, hWordParts, hWordRegs, hWordQuiet⟩ := readWord_leaves c n m.data
  have hStatus : bitsOf (m.data.getD 0 0).toNat 0 8 = (m.data.getD 0 0).toNat % 256 := by simp [bitsOf]
  have hTagEq : bitsOf (somRoute m.som) 0 8 = somRoute m.som % 256 := by simp [bitsOf]
  obtain ⟨hEndStatus, hIdle, hDone, hEvent, hEndParts, hEndRegs, hEndQuiet⟩ := remoteEnd_leaves (c.readWord n m.data) n
    (st := (m.data.getD 0 0).toNat % 256) (Nat.mod_lt _ (by decide))
  have hOp : opMgmtResp n m s.dev = (c.readWord n m.data).remoteEnd n ((m.data.getD 0 0).toNat % 256) := by
    rw [opMgmtResp, hIn, ← hStatus]
    have hDeliver : e.deliver n (extendStamp s.dev.now (somStamp m.som)) (s.dev.fld (laneBase n) Reg.AGREED_FEAT.FEATURES)
        { typ := msgMgmtResp, stamp := somStamp m.som, route := somRoute m.som, body := m.data } = e.mgmtResponse n (somRoute m.som) m.data := rfl
    rw [hDeliver]
    unfold Dev.mgmtResponse Dev.flag
    dsimp only
    rw [hc, hParts.fld_eq (by simp), hParts.fld_eq (by simp), hBusy, hTag, hTagEq]
    exact if_pos (by simp)
  have hFar : laneBase n + Reg.REM_RDATA.DATA.off ∉ [laneBase n + Reg.REM_STATUS.BUSY.off, laneBase n + Reg.LINK_EVENT.REM_DONE.off] := by
    simp [Reg.REM_RDATA.DATA, Reg.REM_STATUS.BUSY, Reg.LINK_EVENT.REM_DONE]
  refine completes_quiet (f := opMgmtResp n m) rfl ?_ ?_ <;> rw [hOp]
  · rw [hEndQuiet, hWordQuiet, hParts.quiet_eq (by simp) (by simp) (by simp) (by simp), hq]
  · refine ⟨hIdle, hDone, hEvent, hEndStatus, fun hRead hTwo => ?_, ?_, fun a ha => ?_⟩
    · rw [hEndRegs _ hFar, hWord (by rw [hWrite, hLink]; exact hRead) hTwo]
    · exact (hParts.mono (by simp)).trans ((hWordParts.mono (by simp)).trans (hEndParts.mono (by simp)))
    · rw [hEndRegs a (by simp at ha ⊢; exact ⟨ha.1, ha.2.1⟩), hWordRegs a (by simp at ha ⊢; exact ha.2.2), hParts.reg_eq (by simp)]

/-- REM_CTRL as a write of it with GO leaves it. -/
def Dev.remCtrl (d : Dev) (n : Nat) (write : Bool) (timeout : BitVec 16) : Dev :=
  (d.setFld (laneBase n) Reg.REM_CTRL.WRITE (bit01 write)).setFld (laneBase n) Reg.REM_CTRL.TIMEOUT timeout.toNat

theorem remCtrl_leaves (d : Dev) (n : Nat) (write : Bool) (timeout : BitVec 16) :
    (d.remCtrl n write timeout).fld (laneBase n) Reg.REM_CTRL.WRITE = bit01 write ∧
    (d.remCtrl n write timeout).fld (laneBase n) Reg.REM_CTRL.TIMEOUT = timeout.toNat ∧
    OnlyParts [.regs] d (d.remCtrl n write timeout) ∧ OnlyRegs [laneBase n + Reg.REM_CTRL.off] d (d.remCtrl n write timeout) ∧
    (d.remCtrl n write timeout).quiet = d.quiet := by
  unfold Dev.remCtrl
  refine ⟨?_, fld_setFld_lt (by decide) timeout.isLt, by simp, fun a ha => ?_, by rw [quiet_laneFld, quiet_laneFld]⟩
  · rw [fld_setFld_clear (by decide), fld_setFld_lt (by decide) (by cases write <;> decide)]
  · have hNe : a ≠ laneBase n + Reg.REM_CTRL.off := by simpa using ha
    rw [reg_setFld_off hNe, reg_setFld_off hNe] <;> rfl

/-- The message of a remote request. -/
def Dev.requestSent (d : Dev) (n : Nat) (write : Bool) : Msg :=
  { typ := if write then msgMgmtWrite else msgMgmtRead, stamp := Config.freeAt d.free 0 % 2 ^ 16, route := (d.link n).nextTag
    body := if write then [BitVec.ofNat 64 (d.fld (laneBase n) Reg.REM_ADDR.ADDR * 4), BitVec.ofNat 64 (d.fld (laneBase n) Reg.REM_WDATA.DATA)]
      else [BitVec.ofNat 64 (d.fld (laneBase n) Reg.REM_ADDR.ADDR * 4)] }

/-- The requester of a remote request that leaves. -/
def Dev.requesting (d : Dev) (n : Nat) (write : Bool) : Dev :=
  (((d.drew.modLink n fun l => { l with nextTag := ((d.link n).nextTag + 1) % 256, remTick := d.tick, remWrite := write }).setFld (laneBase n)
    Reg.REM_STATUS.TAG (d.link n).nextTag).setFld (laneBase n) Reg.REM_STATUS.BUSY 1).setFld (laneBase n) Reg.REM_STATUS.STATUS 0

theorem remGo_requests {d : Dev} {n : Nat} {write : Bool} (hBusy : d.fld (laneBase n) Reg.REM_STATUS.BUSY = 0)
    (hVer : 0x20 ≤ d.version n) (hMgmt : d.agreed n featMgmt = true) (hWrite : d.fld (laneBase n) Reg.REM_CTRL.WRITE = bit01 write) :
    d.remGo n = (d.requesting n write).modLink n fun l => { l with txQueue := l.txQueue ++
      [{ msg := d.requestSent n write, orig := .remote (d.link n).nextTag }] } := by
  have hFlag : d.flag (laneBase n) Reg.REM_CTRL.WRITE = write := by
    unfold Dev.flag
    rw [hWrite]
    cases write <;> rfl
  have hEnqueue : d.remGo n = (d.requesting n write).txEnqueue n { msg := d.requestSent n write, orig := .remote (d.link n).nextTag } := by
    unfold Dev.remGo
    dsimp only
    rw [Dev.flag, hBusy, if_neg (by decide), hMgmt, if_neg (by simp; omega), hFlag]
    rfl
  have hKeeps (f : Fld) (hf : f.off ≠ Reg.REM_STATUS.BUSY.off) : (d.requesting n write).fld (laneBase n) f = d.fld (laneBase n) f := by
    unfold Dev.requesting
    rw [fld_setFld_off hf, fld_setFld_off hf, fld_setFld_off hf] <;> rfl
  have hCarries : (d.requesting n write).txBarred n (d.requestSent n write) = false := by
    have hBit : bitOf (d.fld (laneBase n) Reg.AGREED_FEAT.FEATURES) featMgmt = true := hMgmt
    have hNew : 0x20 ≤ d.fld (laneBase n) Reg.LINK_VER.NEGOTIATED := hVer
    unfold Dev.txBarred Dev.carries Dev.version
    rw [hKeeps _ (by decide), hKeeps _ (by decide)]
    cases write <;> simp [Dev.requestSent, carriesAt, creditClass, msgMgmtRead, msgMgmtWrite, msgMgmtResp, msgHit, msgPrimitive, msgDecision,
      msgAccept, msgFragment, hBit] <;> omega
  rw [hEnqueue, Dev.txEnqueue, hCarries]
  exact if_neg (by decide)

theorem requesting_leaves (d : Dev) (n : Nat) (write : Bool) :
    (d.requesting n write).fld (laneBase n) Reg.REM_STATUS.BUSY = 1 ∧
    ((d.link n).nextTag < 256 → (d.requesting n write).fld (laneBase n) Reg.REM_STATUS.TAG = (d.link n).nextTag) ∧
    ((d.requesting n write).link n).nextTag = ((d.link n).nextTag + 1) % 256 ∧
    ((d.requesting n write).link n).txQueue = (d.link n).txQueue ∧ OnlyParts [.free, .regs, .links] d (d.requesting n write) ∧
    OnlyRegs [laneBase n + Reg.REM_STATUS.off] d (d.requesting n write) ∧ (d.requesting n write).quiet = d.quiet := by
  unfold Dev.requesting
  refine ⟨?_, fun hTag => ?_, ?_, ?_, by simp, fun a ha => ?_, ?_⟩
  · rw [fld_setFld_clear (by decide), fld_setFld_lt (by decide) (by decide)]
  · rw [fld_setFld_clear (by decide), fld_setFld_clear (by decide), fld_setFld_lt (by decide) hTag]
  · rw [Dev.link, setFld_links, setFld_links, setFld_links, ← Dev.link, link_modLink_same]
  · rw [Dev.link, setFld_links, setFld_links, setFld_links, ← Dev.link, link_modLink_same]
    rfl
  · have hNe : a ≠ laneBase n + Reg.REM_STATUS.off := by simpa using ha
    rw [reg_setFld_off hNe, reg_setFld_off hNe, reg_setFld_off hNe] <;> rfl
  · rw [quiet_laneFld, quiet_laneFld, quiet_laneFld, quiet_modLink, quiet_drew]

theorem agreed_onlyRegs {d e : Dev} {n : Nat} (h : OnlyRegs [laneBase n + Reg.REM_CTRL.off] d e) {f : Fld} (hf : f.off ≠ Reg.REM_CTRL.off) :
    e.fld (laneBase n) f = d.fld (laneBase n) f := by
  rw [Dev.fld, h _ (by simpa using hf), Dev.fld]

/-- GO of a remote requester. -/
theorem remGo_ends {s : State} {path : Fin 8} (k : Fin 16) {write : Bool} {timeout : BitVec 16} (hq : s.dev.quiet = true)
    (hReach : s.dev.reached path (laneBase (128 + k) + Reg.REM_CTRL.off) = true) {P : Dev → Prop} {e : Dev}
    (hGo : (s.dev.remCtrl (128 + k) write timeout).remGo (128 + k) = e) (hQuiet : e.quiet = s.dev.quiet) (hP : P (e.finish path stOk 0)) :
    Completes (.remGo path k write timeout) s P := by
  refine completes_viaWord (f := fun d => (d.remCtrl (128 + k) write timeout).remGo (128 + k)) rfl hReach ?_ ?_
  · rw [hGo, hQuiet, hq]
  · rw [hGo]
    exact hP

/-- What GO shows of REM_CTRL, whatever becomes of the request. -/
theorem remCtrl_shown (d : Dev) {e : Dev} {n path : Nat} {write : Bool} {timeout : BitVec 16}
    (h : ∀ f : Fld, f.off = Reg.REM_CTRL.off → e.fld (laneBase n) f = (d.remCtrl n write timeout).fld (laneBase n) f) :
    (e.finish path stOk 0).fld (laneBase n) Reg.REM_CTRL.WRITE = bit01 write ∧
    (e.finish path stOk 0).fld (laneBase n) Reg.REM_CTRL.TIMEOUT = timeout.toNat ∧ (e.finish path stOk 0).answered path stOk 0 := by
  obtain ⟨hWrite, hTimeout, -⟩ := remCtrl_leaves d n write timeout
  exact ⟨by rw [fld_finish, h _ rfl, hWrite], by rw [fld_finish, h _ rfl, hTimeout], finish_answered ..⟩

theorem Completes.imp {c : Instr} {s : State} {P Q : Dev → Prop} (h : Completes c s P) (hPQ : ∀ e, P e → Q e) : Completes c s Q := by
  obtain ⟨t, hStep, hPending, hP⟩ := h
  exact ⟨t, hStep, hPending, hPQ _ hP⟩

section
variable {s : State} {path : Fin 8} (k : Fin 16) (write : Bool) (timeout : BitVec 16) (hq : s.dev.quiet = true)
  (hReach : s.dev.reached path (laneBase (128 + k) + Reg.REM_CTRL.off) = true)
include hq hReach

theorem remGo_rejected (hBusy : s.dev.fld (laneBase (128 + k)) Reg.REM_STATUS.BUSY = 1) :
    Completes (.remGo path k write timeout) s fun e =>
      (e.fld (laneBase (128 + k)) Reg.REM_CTRL.WRITE = bit01 write ∧ e.fld (laneBase (128 + k)) Reg.REM_CTRL.TIMEOUT = timeout.toNat ∧
        e.answered path stOk 0) ∧
      e.fld (laneBase (128 + k)) Reg.LINK_EVENT.REM_REJECT = 1 ∧
      e.reg (laneBase (128 + k) + Reg.REM_STATUS.off) = s.dev.reg (laneBase (128 + k) + Reg.REM_STATUS.off) ∧
      OnlyParts [.regs, .ctl] s.dev e := by
  obtain ⟨-, -, hParts, hRegs, hQuiet⟩ := remCtrl_leaves s.dev (128 + k) write timeout
  have hGo : (s.dev.remCtrl (128 + k) write timeout).remGo (128 + k) =
      (s.dev.remCtrl (128 + k) write timeout).raise (laneBase (128 + k)) Reg.LINK_EVENT.REM_REJECT := by
    unfold Dev.remGo Dev.flag
    dsimp only
    rw [agreed_onlyRegs hRegs (by decide), hBusy]
    exact if_pos rfl
  refine remGo_ends k hq hReach hGo (by rw [quiet_laneRaise, hQuiet]) ⟨remCtrl_shown s.dev fun f hf => ?_, ?_, ?_, ?_⟩
  · exact fld_setFld_off (o := Reg.LINK_EVENT.REM_REJECT.off) (by rw [hf]; decide) rfl
  · rw [fld_finish, fld_raise_same (by decide) (by decide)]
  · rw [reg_finish, Dev.raise, reg_setFld_off (o := Reg.LINK_EVENT.REM_REJECT.off) (by simp [Reg.REM_STATUS.off, Reg.LINK_EVENT.REM_REJECT]) rfl,
      hRegs _ (by simp [Reg.REM_STATUS.off, Reg.REM_CTRL.off])]
  · simpa using hParts.mono (by simp)

theorem remGo_notSent (hBusy : s.dev.fld (laneBase (128 + k)) Reg.REM_STATUS.BUSY = 0)
    (hOld : s.dev.version (128 + k) < 0x20 ∨ s.dev.agreed (128 + k) featMgmt = false) :
    Completes (.remGo path k write timeout) s fun e =>
      (e.fld (laneBase (128 + k)) Reg.REM_CTRL.WRITE = bit01 write ∧ e.fld (laneBase (128 + k)) Reg.REM_CTRL.TIMEOUT = timeout.toNat ∧
        e.answered path stOk 0) ∧
      e.fld (laneBase (128 + k)) Reg.REM_STATUS.STATUS = 0x21 ∧ e.fld (laneBase (128 + k)) Reg.REM_STATUS.DONE = 1 ∧
      e.fld (laneBase (128 + k)) Reg.REM_STATUS.BUSY = 0 ∧ e.fld (laneBase (128 + k)) Reg.LINK_EVENT.REM_DONE = 1 ∧
      OnlyParts [.regs, .ctl] s.dev e := by
  obtain ⟨-, -, hParts, hRegs, hQuiet⟩ := remCtrl_leaves s.dev (128 + k) write timeout
  obtain ⟨hStatus, hIdle, hDone, hEvent, hEndParts, hEndRegs, hEndQuiet⟩ :=
    remoteEnd_leaves (s.dev.remCtrl (128 + k) write timeout) (128 + k) (st := 0x21) (by decide)
  have hGo : (s.dev.remCtrl (128 + k) write timeout).remGo (128 + k) = (s.dev.remCtrl (128 + k) write timeout).remoteEnd (128 + k) 0x21 := by
    unfold Dev.remGo Dev.flag Dev.version Dev.agreed
    dsimp only
    rw [agreed_onlyRegs hRegs (by decide), agreed_onlyRegs hRegs (by decide), agreed_onlyRegs hRegs (by decide), hBusy, if_neg (by decide)]
    refine if_pos ?_
    obtain h | h := hOld
    · rw [decide_eq_true (show s.dev.fld (laneBase (128 + k)) Reg.LINK_VER.NEGOTIATED < 0x20 from h), Bool.true_or]
    · rw [show bitOf (s.dev.fld (laneBase (128 + k)) Reg.AGREED_FEAT.FEATURES) featMgmt = false from h, Bool.not_false, Bool.or_true]
  refine remGo_ends k hq hReach hGo (by rw [hEndQuiet, hQuiet]) ⟨remCtrl_shown s.dev fun f hf => ?_, ?_, ?_, ?_, ?_, ?_⟩
  · rw [Dev.fld, hEndRegs _ (by rw [hf]; simp [Reg.REM_CTRL.off, Reg.REM_STATUS.BUSY, Reg.LINK_EVENT.REM_DONE]), Dev.fld]
  · rw [fld_finish, hStatus]
  · rw [fld_finish, hDone]
  · rw [fld_finish, hIdle]
  · rw [fld_finish, hEvent]
  · simpa using (hParts.mono (by simp)).trans (hEndParts.mono (by simp))

theorem remGo_sent (hBusy : s.dev.fld (laneBase (128 + k)) Reg.REM_STATUS.BUSY = 0)
    (hMgmt : s.dev.agreed (128 + k) featMgmt = true) (hVer : 0x20 ≤ s.dev.version (128 + k)) :
    Completes (.remGo path k write timeout) s fun e =>
      (e.fld (laneBase (128 + k)) Reg.REM_CTRL.WRITE = bit01 write ∧ e.fld (laneBase (128 + k)) Reg.REM_CTRL.TIMEOUT = timeout.toNat ∧
        e.answered path stOk 0) ∧
      ((s.dev.link (128 + k)).nextTag < 256 →
        e.fld (laneBase (128 + k)) Reg.REM_STATUS.BUSY = 1 ∧ e.fld (laneBase (128 + k)) Reg.REM_STATUS.TAG = (s.dev.link (128 + k)).nextTag ∧
        (e.link (128 + k)).nextTag = ((s.dev.link (128 + k)).nextTag + 1) % 256 ∧
        (e.link (128 + k)).txQueue.map (fun t => (t.msg.typ, t.msg.route, t.msg.body.headD 0)) =
          (s.dev.link (128 + k)).txQueue.map (fun t => (t.msg.typ, t.msg.route, t.msg.body.headD 0)) ++
            [(if write then msgMgmtWrite else msgMgmtRead, (s.dev.link (128 + k)).nextTag,
              BitVec.ofNat 64 (s.dev.fld (laneBase (128 + k)) Reg.REM_ADDR.ADDR * 4))] ∧
        OnlyParts [.free, .regs, .ctl, .links] s.dev e) := by
  obtain ⟨hWrite, -, hParts, hRegs, hQuiet⟩ := remCtrl_leaves s.dev (128 + k) write timeout
  generalize hc : s.dev.remCtrl (128 + k) write timeout = c at hWrite hParts hRegs hQuiet
  have hSame {f : Fld} (hf : f.off ≠ Reg.REM_CTRL.off) := agreed_onlyRegs hRegs (f := f) hf
  have hLink : c.link (128 + k) = s.dev.link (128 + k) := by rw [Dev.link, hParts .links (by simp), Dev.link]
  have hGo := remGo_requests (d := c) (n := 128 + k) (write := write) (by rw [hSame (by decide), hBusy])
    (by rw [Dev.version, hSame (by decide)]; exact hVer) (by rw [Dev.agreed, hSame (by decide)]; exact hMgmt) hWrite
  have hAddr : c.fld (laneBase (128 + k)) Reg.REM_ADDR.ADDR = s.dev.fld (laneBase (128 + k)) Reg.REM_ADDR.ADDR := hSame (by decide)
  have hBody : (c.requestSent (128 + k) write).body.headD 0 = BitVec.ofNat 64 (s.dev.fld (laneBase (128 + k)) Reg.REM_ADDR.ADDR * 4) := by
    rw [← hAddr]
    cases write <;> rfl
  obtain ⟨hOut, hTag, hNext, hQueue, hReqParts, hReqRegs, hReqQuiet⟩ := requesting_leaves c (128 + k) write
  rw [hLink] at hTag hNext hQueue
  refine remGo_ends k hq hReach ((congrArg (fun x => x.remGo (128 + k.val)) hc).trans hGo) (by rw [quiet_modLink, hReqQuiet, hQuiet])
    ⟨remCtrl_shown s.dev fun f hf => ?_, fun hSmall => ⟨?_, ?_, ?_, ?_, ?_⟩⟩
  · rw [fld_modLink, Dev.fld, hReqRegs _ (by rw [hf]; simp [Reg.REM_CTRL.off, Reg.REM_STATUS.off]), hc, Dev.fld]
  · rw [fld_finish, fld_modLink, hOut]
  · rw [fld_finish, fld_modLink, hTag hSmall]
  · rw [Dev.link, finish_links, ← Dev.link, link_modLink_same, hNext]
  · rw [Dev.link, finish_links, ← Dev.link, link_modLink_same, hQueue, List.map_append, List.map_singleton, hBody, ← hLink]
    rfl
  · simpa using (hParts.mono (by simp)).trans (hReqParts.mono (by simp))

end

/-- Settles O26: a message that the lane takes reaches its consumer with its units counted; a request has its first word's access wait,
and a remote request ends or leaves as GO finds the requester. -/
theorem managementOverTrunkLanes : Obligations.ManagementOverTrunkLanes := by
  unfold Obligations.ManagementOverTrunkLanes
  intro s k m hq n b l tag count idle first
  have hn : n.val = 128 + k.val := rfl
  refine ⟨fun hTakes idle hRoom => ?_, fun hTakes idle hRoom => ?_, fun hTakes hBusy hTag => response_ends hq hTakes hBusy hTag, ?_,
    noResponse_ends k hq⟩
  · obtain ⟨hJob, hWait, hTags, hDrain⟩ := idle
    exact request_waits hq hTakes (.inl rfl) rfl hDrain hTags hJob hWait hRoom
  · obtain ⟨hJob, hWait, hTags, hDrain⟩ := idle
    exact request_waits hq hTakes (.inr rfl) rfl hDrain hTags hJob hWait (by rw [if_pos rfl]; exact hRoom)
  · intro path write timeout hReach
    have hBit : s.dev.fld (laneBase (128 + k)) Reg.REM_STATUS.BUSY < 2 := bitsOf_lt _ _ _
    obtain hBusy | hBusy : s.dev.fld (laneBase (128 + k)) Reg.REM_STATUS.BUSY = 1 ∨ s.dev.fld (laneBase (128 + k)) Reg.REM_STATUS.BUSY = 0 := by
      omega
    · refine (remGo_rejected k write timeout hq hReach hBusy).imp fun e h => ?_
      obtain ⟨⟨hWrite, hTimeout, hAnswer⟩, hRejected⟩ := h
      exact ⟨hWrite, hTimeout, hAnswer, fun _ => hRejected, fun h => absurd (hBusy.symm.trans h) (by decide),
        fun h => absurd (hBusy.symm.trans h) (by decide)⟩
    · by_cases hServed : 0x20 ≤ s.dev.version (128 + k) ∧ s.dev.agreed (128 + k) featMgmt = true
      · obtain ⟨hVer, hMgmt⟩ := hServed
        refine (remGo_sent k write timeout hq hReach hBusy hMgmt hVer).imp fun e h => ?_
        obtain ⟨⟨hWrite, hTimeout, hAnswer⟩, hSent⟩ := h
        exact ⟨hWrite, hTimeout, hAnswer, fun h => absurd (hBusy.symm.trans h) (by decide),
          fun _ h => absurd (hMgmt.symm.trans h) (by decide), fun _ _ _ hSmall => hSent hSmall⟩
      · refine (remGo_notSent k write timeout hq hReach hBusy ?_).imp fun e h => ?_
        · rw [not_and_or, Bool.not_eq_true, Nat.not_le] at hServed
          exact hServed
        · obtain ⟨⟨hWrite, hTimeout, hAnswer⟩, hNotSent⟩ := h
          exact ⟨hWrite, hTimeout, hAnswer, fun h => absurd (hBusy.symm.trans h) (by decide), fun _ _ => hNotSent,
            fun _ hMgmt hVer => absurd ⟨hVer, hMgmt⟩ hServed⟩

end Sys2Proof.Machine

/-! # Memory controllers and regions (R313, R327 to R330, R336) -/

namespace Sys2Proof.Machine

set_option Elab.async false

/-! ## A controller as a unit -/

theorem mc_facts (w : Fin 2) : Hard (mcBase w) ∧ (unitOf (mcBase w)).blk = .mc ∧ proofOff (mcBase w) = some 0x200 ∧ mcBase w ≠ formeBase ∧
    (unitOf (mcBase w)).blk ≠ .root := by
  revert w
  have h : ∀ w : Fin 2, (mcBase w % 0x1000 = 0 ∧ (unitOf (mcBase w)).blk ≠ .shell) ∧ (unitOf (mcBase w)).blk = .mc ∧
      proofOff (mcBase w) = some 0x200 ∧ mcBase w ≠ formeBase ∧ (unitOf (mcBase w)).blk ≠ .root := by decide
  exact h

theorem mcBase_low (w : Fin 2) (f : Fld) (hf : f.off < 0x1000) : mcBase w + f.off < columnBase 0 0 := by
  have := w.isLt
  simp only [mcBase, columnBase]
  omega

theorem irq_ne_mc (w o : Nat) : rootBase + Reg.IRQ_CTRL.off ≠ mcBase w + o := by
  simp only [mcBase, rootBase, Reg.IRQ_CTRL.off]
  omega

theorem quiet_mcFld (d : Dev) (w : Nat) (f : Fld) (v : Nat) : (d.setFld (mcBase w) f v).quiet = d.quiet :=
  quiet_setFld _ _ _ _ (irq_ne_mc w f.off)

theorem quiet_mcRaise (d : Dev) (w : Nat) (f : Fld) : (d.raise (mcBase w) f).quiet = d.quiet := quiet_mcFld d w f 1

/-- A controller that runs or is degraded does nothing beside the state table. -/
theorem mc_hook_run (d : Dev) (w : Fin 2) (old : UState) {new : UState} (h : new = .running ∨ new = .degraded) :
    d.stateHook (mcBase w) old new = d := by
  obtain ⟨-, hBlk, -, -, -⟩ := mc_facts w
  have hProof : d.proofHook (mcBase w) new = d := by
    unfold Dev.proofHook
    split
    · rfl
    · split
      · rfl
      · obtain rfl | rfl := h <;> rfl
  unfold Dev.stateHook
  dsimp only
  rw [hBlk, hProof]

/-- A controller moves to RUNNING or DEGRADED. -/
theorem mc_setUst {d : Dev} (w : Fin 2) {u : UState} (hu : d.ust (mcBase w) ≠ u) (hRun : u = .running ∨ u = .degraded) :
    (d.setUst (mcBase w) u).ust (mcBase w) = u ∧ OnlyParts [.regs] d (d.setUst (mcBase w) u) ∧ OnlyStates [] d (d.setUst (mcBase w) u) :=
  setUst_run (hardAbove_of_hard (mc_facts w).1) hu hRun fun _ _ => mc_hook_run _ w _ hRun

/-- A register of a controller that is neither STATE nor EVENT, where only those of units have changed. -/
theorem OnlyStates.mcFld {d e : Dev} (h : OnlyStates [] d e) (w : Fin 2) {f : Fld} (hf : 0x100 ≤ f.off) (hf' : f.off < 0x1000) :
    e.fld (mcBase w) f = d.fld (mcBase w) f := by
  have hBase := (mc_facts w).1.1
  rw [Dev.fld, h _ (by simp) (by simp only [Reg.STATE.STATE]; omega) (by simp only [Reg.EVENT.FAULT]; omega), Dev.fld]

/-! ## Lines and what fills them -/

theorem extLine_congr {d e : Dev} (h : e.ext = d.ext) (n : Nat) : e.extLine n = d.extLine n := by
  unfold Dev.extLine Dev.extFill
  rw [h]

/-- A line put at a place, and the lines at others. -/
theorem extLine_putLine (d : Dev) (n m : Nat) (l : ExtLine) : (d.putLine n l).extLine m = if m = n then l else d.extLine m := by
  have hFill : (d.putLine n l).extFill m = d.extFill m := rfl
  have hExt : (d.putLine n l).extLine m = ((d.putLine n l).ext.lines.look m).getD (fillLine (d.extFill m) m) := rfl
  have hOld : d.extLine m = (d.ext.lines.look m).getD (fillLine (d.extFill m) m) := rfl
  rw [hExt, hOld]
  have hPut : ((d.ext.lines.put n l).look m).getD (fillLine (d.extFill m) m) =
      if m = n then l else (d.ext.lines.look m).getD (fillLine (d.extFill m) m) := by
    split
    · rename_i h
      rw [h, SMap.look_put_same, Option.getD_some]
    · rename_i h
      rw [SMap.look_put_other _ h]
  unfold Dev.putLine
  rw [modExt_ext]
  dsimp only
  split
  · rename_i k3 hZeros
    exact SMap.at_set d.ext.lines n m _ l _ fun h => by rw [h, hZeros]
  · exact hPut

theorem look_foldl_put {α : Type} (l : List Nat) (v : α) (m : SMap α) (k : Nat) :
    (l.foldl (fun m c => m.put c v) m).look k = if k ∈ l then some v else m.look k := by
  induction l generalizing m with
  | nil => simp
  | cons x xs ih =>
    rw [List.foldl_cons, ih]
    by_cases hIn : k ∈ xs
    · simp [hIn]
    · by_cases hx : k = x
      · simp [hx]
      · simp [hIn, hx, SMap.look_put_other _ hx]

/-- What the lines of some channels hold once those are filled. -/
theorem extLine_fillExt (d : Dev) (chans : List Nat) (f : ExtFill) (n : Nat) :
    (d.fillExt chans f).extLine n = if extChannel (64 * n) ∈ chans then fillLine f n else d.extLine n := by
  unfold Dev.extLine Dev.extFill Dev.fillExt
  rw [modExt_ext]
  dsimp only
  rw [SMap.look_keep, SMap.at, look_foldl_put]
  by_cases h : extChannel (64 * n) ∈ chans
  · rw [if_pos h, if_pos h, if_neg (by simp [h])]
    rfl
  · rw [if_neg h, if_neg h, if_pos (by simp [h])]
    rfl

/-! ## The end of training (R327, R328) -/

/-- The devices of a controller as INIT has them filled. -/
def Dev.mcFilled (d : Dev) (w : Nat) : Dev :=
  if d.ext.retained.mem w then d
  else if d.initMode w = 1 then (d.fillExt (mcChannels w) (.poison (d.free + 1))).drew
  else if d.initMode w = 2 then d.fillExt (mcChannels w) (.zeros (d.keys 0).k3)
  else d

theorem mem_mcChannels (w n : Nat) : extChannel (64 * n) ∈ mcChannels w ↔ extController (64 * n) = w := by
  have : extChannel (64 * n) < 16 := bitsOf_lt _ _ _
  simp only [mcChannels, List.mem_map, List.mem_range, extController]
  constructor
  · rintro ⟨c, _, _⟩
    omega
  · intro h
    exact ⟨extChannel (64 * n) % 8, by omega, by omega⟩

/-- What the fill leaves: the lines of the controller, as INIT selects, unless they were retained. -/
structure McFilled (w n : Nat) (d e : Dev) : Prop where
  poison : extController (64 * n) = w → d.ext.retained.mem w = false → d.initMode w = 1 → (e.extLine n).state = linePoison
  zeros : extController (64 * n) = w → d.ext.retained.mem w = false → d.initMode w = 2 → e.extLine n = { tag := lineTag (d.keys 0).k3 0 n 0 }
  found : extController (64 * n) = w → d.ext.retained.mem w = false → d.initMode w ≠ 1 → d.initMode w ≠ 2 → e.extLine n = d.extLine n
  other : extController (64 * n) ≠ w ∨ d.ext.retained.mem w = true → e.extLine n = d.extLine n

theorem mcFilled_parts (d : Dev) (w : Nat) : OnlyParts [.free, .ext] d (d.mcFilled w) := by
  unfold Dev.mcFilled Dev.fillExt
  split
  · simp
  · split
    · simp
    · split <;> simp

theorem mcFilled_lines (d : Dev) (w n : Nat) : McFilled w n d (d.mcFilled w) := by
  unfold Dev.mcFilled
  by_cases hKept : d.ext.retained.mem w = true
  · rw [if_pos hKept]
    exact ⟨fun _ h => by simp [hKept] at h, fun _ h => by simp [hKept] at h, fun _ h => by simp [hKept] at h, fun _ => rfl⟩
  · rw [if_neg hKept]
    have hOther (f : ExtFill) (h : extController (64 * n) ≠ w ∨ d.ext.retained.mem w = true) :
        (d.fillExt (mcChannels w) f).extLine n = d.extLine n := by
      rw [extLine_fillExt, if_neg]
      rw [mem_mcChannels]
      exact h.resolve_right hKept
    split
    · rename_i hOne
      have hDrew : ((d.fillExt (mcChannels w) (.poison (d.free + 1))).drew).extLine n =
          (d.fillExt (mcChannels w) (.poison (d.free + 1))).extLine n := extLine_congr rfl n
      refine ⟨fun hMine _ _ => ?_, fun _ _ h => ?_, fun _ _ h => absurd hOne h, fun h => hDrew.trans (hOther _ h)⟩
      · rw [hDrew, extLine_fillExt, if_pos ((mem_mcChannels w n).mpr hMine)]
        rfl
      · omega
    · rename_i hOne
      split
      · rename_i hTwo
        refine ⟨fun _ _ h => absurd h hOne, fun hMine _ _ => ?_, fun _ _ _ h => absurd hTwo h, hOther _⟩
        rw [extLine_fillExt, if_pos ((mem_mcChannels w n).mpr hMine)]
        rfl
      · rename_i hTwo
        exact ⟨fun _ _ h => absurd h hOne, fun _ _ h => absurd h hTwo, fun _ _ _ _ => rfl, fun _ => rfl⟩

/-- The controller's status once all its channels have trained. -/
def Dev.mcTrained (d : Dev) (w : Nat) : Dev := (d.setFld (mcBase w) Reg.MC_STATUS.TRAINED 255).setFld (mcBase w) Reg.MC_STATUS.FAULTED 0

theorem mcTrained_leaves (d : Dev) (w : Nat) :
    (d.mcTrained w).fld (mcBase w) Reg.MC_STATUS.TRAINED = 255 ∧ (d.mcTrained w).fld (mcBase w) Reg.MC_STATUS.FAULTED = 0 ∧
    OnlyParts [.regs] d (d.mcTrained w) ∧ (∀ f : Fld, f.off ≠ Reg.MC_STATUS.off → (d.mcTrained w).fld (mcBase w) f = d.fld (mcBase w) f) ∧
    (d.mcTrained w).initMode w = d.initMode w ∧ (d.mcTrained w).quiet = d.quiet := by
  have hApart (f : Fld) (hf : f.off ≠ Reg.MC_STATUS.off) : (d.mcTrained w).fld (mcBase w) f = d.fld (mcBase w) f := by
    unfold Dev.mcTrained
    rw [fld_setFld_off hf, fld_setFld_off hf] <;> rfl
  have hCfg : (d.mcTrained w).reg (mcBase w + Reg.MC_CFG.off) = d.reg (mcBase w + Reg.MC_CFG.off) := by
    have hNe : mcBase w + Reg.MC_CFG.off ≠ mcBase w + Reg.MC_STATUS.off := by simp [Reg.MC_CFG.off, Reg.MC_STATUS.off]
    unfold Dev.mcTrained
    rw [reg_setFld_off hNe, reg_setFld_off hNe] <;> rfl
  refine ⟨?_, ?_, by simp [Dev.mcTrained], hApart, ?_, ?_⟩
  · rw [Dev.mcTrained, fld_setFld_clear (by decide), fld_setFld_lt (by decide) (by decide)]
  · rw [Dev.mcTrained, fld_setFld_lt (by decide) (by decide)]
  · unfold Dev.initMode Dev.mcCfg
    rw [hApart _ (by decide), hCfg]
    rfl
  · rw [Dev.mcTrained, quiet_mcFld, quiet_mcFld]

/-- The controller once its devices are as INIT leaves them. -/
def Dev.mcInitialised (d : Dev) (w : Nat) : Dev :=
  (((d.mcTrained w).mcFilled w).modExt fun x => { x with retained := x.retained.del w }).raise (mcBase w) Reg.MC_EVENT.INIT_DONE

theorem mcChannels_trained : ∀ w : Fin 2, ((mcChannels w).filter fun c => (255 : BitVec 8).getLsbD (c % 8)) = mcChannels w := by decide

theorem opMcInitDone_all {d : Dev} (w : Fin 2) (hStart : d.ust (mcBase w) = .starting) (hLock : d.clk.mpllLock = true)
    (hProof : d.proving (mcBase w) = false) : opMcInitDone w 255 d = (d.mcInitialised w).ready (mcBase w) := by
  obtain ⟨-, -, -, hApart, -, -⟩ := mcTrained_leaves d w
  have hProof' : (d.mcTrained w).proving (mcBase w) = false := by
    rw [← hProof]
    unfold Dev.proving Dev.proofDepth Dev.flag Dev.ust
    rw [hApart _ (by decide), hApart _ (by decide), hApart _ (by decide)]
  unfold opMcInitDone
  dsimp only
  rw [hStart, hLock, if_pos (by simp), if_neg (by decide), mcChannels_trained]
  rw [show ((d.setFld (mcBase w) Reg.MC_STATUS.TRAINED (255 : BitVec 8).toNat).setFld (mcBase w) Reg.MC_STATUS.FAULTED (255 - (255 : BitVec 8).toNat)) =
    d.mcTrained w from rfl, hProof']
  rfl

theorem mcInit_all {s : State} (w : Fin 2) (n : Nat) (hq : s.dev.quiet = true) (hStart : s.dev.ust (mcBase w) = .starting)
    (hLock : s.dev.clk.mpllLock = true) (hProof : s.dev.proving (mcBase w) = false) (hLoss : s.dev.units.loss.mem (mcBase w) = false) :
    Completes (.mcInitDone w 255) s fun e =>
      e.ust (mcBase w) = .running ∧ e.fld (mcBase w) Reg.MC_STATUS.TRAINED = 255 ∧ e.fld (mcBase w) Reg.MC_STATUS.FAULTED = 0 ∧
      e.fld (mcBase w) Reg.MC_EVENT.INIT_DONE = 1 ∧ e.ext.retained.mem w = false ∧ McFilled w n s.dev e ∧ OnlyParts [.free, .regs, .ext] s.dev e := by
  obtain ⟨hTrained, hFaulted, hParts, hApart, hMode, hQuiet⟩ := mcTrained_leaves s.dev w
  have hFillParts := mcFilled_parts (s.dev.mcTrained w) w
  have hFill := mcFilled_lines (s.dev.mcTrained w) w n
  have hExt : (s.dev.mcTrained w).ext = s.dev.ext := hParts .ext (by simp)
  have hOp := opMcInitDone_all w hStart hLock hProof
  generalize hc : (s.dev.mcTrained w).mcFilled w = c at hFillParts hFill
  have hInit : s.dev.mcInitialised w = (c.modExt fun x => { x with retained := x.retained.del w }).raise (mcBase w) Reg.MC_EVENT.INIT_DONE := by
    rw [Dev.mcInitialised, hc]
  have hFld (f : Fld) : c.fld (mcBase w) f = (s.dev.mcTrained w).fld (mcBase w) f := hFillParts.fld_eq (by simp) _ _
  have hKept (f : Fld) (hf : f.off ≠ Reg.MC_EVENT.INIT_DONE.off) : (s.dev.mcInitialised w).fld (mcBase w) f = (s.dev.mcTrained w).fld (mcBase w) f := by
    rw [hInit, Dev.raise, fld_setFld_off hf rfl, fld_modExt, hFld]
  have hInitParts : OnlyParts [.free, .regs, .ext] s.dev (s.dev.mcInitialised w) := by
    rw [hInit]
    simpa using (hParts.mono (by simp)).trans (hFillParts.mono (by simp))
  have hStill : (s.dev.mcInitialised w).ust (mcBase w) = .starting := by
    rw [Dev.ust, hKept _ (by decide), hApart _ (by decide), ← Dev.ust, hStart]
  have hReady : (s.dev.mcInitialised w).ready (mcBase w) = (s.dev.mcInitialised w).setUst (mcBase w) .running := by
    unfold Dev.ready
    rw [if_pos hStill, hInitParts .units (by simp), hLoss]
    rfl
  obtain ⟨hRun, hRunParts, hRunRegs⟩ := mc_setUst w (d := s.dev.mcInitialised w) (u := .running) (by rw [hStill]; decide) (.inl rfl)
  have hRunExt : ((s.dev.mcInitialised w).setUst (mcBase w) .running).ext = { c.ext with retained := c.ext.retained.del w } := by
    rw [hRunParts .ext (by simp), hInit]
    rfl
  have hLine : ((s.dev.mcInitialised w).setUst (mcBase w) .running).extLine n = c.extLine n := by
    unfold Dev.extLine Dev.extFill
    rw [hRunExt]
  have hLineFound : (s.dev.mcTrained w).extLine n = s.dev.extLine n := extLine_congr hExt n
  have hKeys : (s.dev.mcTrained w).keys 0 = s.dev.keys 0 := by rw [Dev.keys, hExt, Dev.keys]
  obtain ⟨hPoison, hZeros, hFound, hOther⟩ := hFill
  rw [hExt, hMode] at hPoison hZeros hFound
  rw [hExt] at hOther
  rw [hKeys] at hZeros
  rw [hLineFound] at hFound hOther
  refine completes_quiet (f := opMcInitDone w 255) rfl ?_ ?_ <;> rw [hOp, hReady]
  · have hInitQuiet : (s.dev.mcInitialised w).quiet = s.dev.quiet := by
      rw [hInit, quiet_mcRaise, quiet_modExt, hFillParts.quiet_eq (by simp) (by simp) (by simp) (by simp), hQuiet]
    rw [quiet_of_onlyStates (hRunParts.mono (by simp)) hRunRegs (by simp), hInitQuiet, hq]
  · refine ⟨hRun, ?_, ?_, ?_, ?_, ⟨?_, ?_, ?_, ?_⟩, hInitParts.trans (hRunParts.mono (by simp))⟩
    · rw [hRunRegs.mcFld w (by decide) (by decide), hKept _ (by decide), hTrained]
    · rw [hRunRegs.mcFld w (by decide) (by decide), hKept _ (by decide), hFaulted]
    · rw [hRunRegs.mcFld w (by decide) (by decide), hInit, fld_raise_same (by decide) (by decide)]
    · rw [hRunExt]
      unfold SMap.mem SMap.num SMap.at
      rw [SMap.look_del_same]
      rfl
    · rw [hLine]
      exact hPoison
    · rw [hLine]
      exact hZeros
    · rw [hLine]
      exact hFound
    · rw [hLine]
      exact hOther

/-! ## A start that fails (R328) -/

/-- What the withdrawal of a release leaves: registers below the tiles stand. -/
structure BelowTiles (d e : Dev) : Prop where
  parts : OnlyParts [.regs, .units, .fabric] d e
  low : ∀ a < columnBase 0 0, e.reg a = d.reg a

theorem BelowTiles.refl (d : Dev) : BelowTiles d d := ⟨by simp, fun _ _ => rfl⟩

theorem BelowTiles.trans {c d e : Dev} (h1 : BelowTiles c d) (h2 : BelowTiles d e) : BelowTiles c e :=
  ⟨h1.parts.trans h2.parts, fun a ha => (h2.low a ha).trans (h1.low a ha)⟩

theorem belowTiles_modUser (d : Dev) (b : Nat) (f : UserUnit → UserUnit) : BelowTiles d (d.modUser b f) :=
  ⟨(parts_modUser d b f).mono (by simp), fun a _ => (parts_modUser d b f).reg_eq (by simp) a⟩

theorem belowTiles_fenceNotes (d : Dev) (b : Nat) (f : Fld) : BelowTiles d (d.fenceNotes b f) := by
  have hTile (layer : Nat) (d : Dev) (c : Nat) : BelowTiles d (d.tileRaise layer c f) := by
    unfold Dev.tileRaise
    dsimp only
    split
    · exact .refl d
    · exact ⟨by simp, fun a ha => by rw [reg_raise, if_neg (Nat.ne_of_lt (Nat.lt_of_lt_of_le ha (columnBase_ge layer c f.off)))]⟩
  have hEach (layer : Nat) (l : List Nat) (d : Dev) : BelowTiles d (d.each l fun d c => d.tileRaise layer c f) := by
    induction l generalizing d with
    | nil => exact .refl d
    | cons x xs ih => exact (hTile layer d x).trans (ih _)
  exact (hEach 2 _ d).trans (hEach 4 _ _)

theorem belowTiles_releaseBack (d : Dev) {b : Nat} (hb : b ≠ formeBase) : BelowTiles d (d.releaseBack b) := by
  have hDrop : d.dropRequest b = d := if_neg fun h => hb h.1
  have hInit : BelowTiles d (d.loadInit b) := ⟨by simp [Dev.loadInit], fun _ _ => rfl⟩
  have hHeld := (hInit.trans (belowTiles_fenceNotes (d.loadInit b) b Reg.TILE_EVENT.FENCE_ENGAGED)).trans
    (belowTiles_modUser _ b fun u => { u with rel := .held, relTarget := none, readySeen := false })
  unfold Dev.releaseBack
  rw [hDrop]
  dsimp only
  split
  · exact hHeld
  · exact hHeld
  · exact belowTiles_modUser ..
  · exact .refl d

/-- A controller's own proof loop ends with its service. -/
theorem mc_hook_faulted (d : Dev) (w : Fin 2) (old : UState) :
    OnlyParts [.regs] d (d.stateHook (mcBase w) old .faulted) ∧
    ∀ a, a ≠ mcBase w + 0x200 + Reg.PRF_STATUS.off → (d.stateHook (mcBase w) old .faulted).reg a = d.reg a := by
  obtain ⟨-, hBlk, hOff, -, -⟩ := mc_facts w
  have hHook : d.stateHook (mcBase w) old .faulted = d.proofHook (mcBase w) .faulted := by
    unfold Dev.stateHook
    dsimp only
    rw [hBlk]
  rw [hHook]
  unfold Dev.proofHook
  rw [hOff]
  dsimp only
  split
  · exact ⟨by simp, fun _ _ => rfl⟩
  · exact ⟨by simp, fun a ha => by rw [reg_setFld_off ha, reg_setFld_off ha, reg_setFld_off ha] <;> rfl⟩

/-- A controller moves to FAULTED: its registers beside CTRL, STATE, EVENT and PRF_STATUS stand. -/
theorem mc_setUst_faulted {d : Dev} (w : Fin 2) (hu : d.ust (mcBase w) ≠ .faulted) :
    (d.setUst (mcBase w) .faulted).ust (mcBase w) = .faulted ∧ OnlyParts [.regs] d (d.setUst (mcBase w) .faulted) ∧
    OnlyStates [mcBase w + Reg.CTRL.ENABLE.off, mcBase w + 0x200 + Reg.PRF_STATUS.off] d (d.setUst (mcBase w) .faulted) := by
  obtain ⟨hHard, -, -, -, -⟩ := mc_facts w
  unfold Dev.setUst
  rw [if_neg hu]
  generalize hs : d.setFld (mcBase w) Reg.STATE.SELF UState.faulted.code = s
  have hEnter : s.entered (mcBase w) .faulted = s.setFld (mcBase w) Reg.CTRL.ENABLE 0 := rfl
  have hSelf : (s.entered (mcBase w) .faulted).ust (mcBase w) = .faulted := by rw [← hs]; exact ust_entered d (mcBase w) .faulted
  rw [hEnter] at hSelf ⊢
  obtain ⟨hHookParts, hHookRegs⟩ := mc_hook_faulted (s.setFld (mcBase w) Reg.CTRL.ENABLE 0) w (d.ust (mcBase w))
  generalize (s.setFld (mcBase w) Reg.CTRL.ENABLE 0).stateHook (mcBase w) (d.ust (mcBase w)) .faulted = h at hHookParts hHookRegs
  refine ⟨?_, ?_, fun a ha hState hEvent => ?_⟩
  · rw [ust_refresh _ hHard, ← hSelf, Dev.ust, Dev.fld, hHookRegs _ (by simp [Reg.STATE.SELF, Reg.PRF_STATUS.off]), Dev.ust, Dev.fld]
  · refine OnlyParts.trans ?_ (hHookParts.trans (refresh_parts _ _ _))
    rw [← hs]
    simp
  · simp only [List.mem_cons, List.not_mem_nil, or_false, not_or] at ha
    obtain ⟨hCtrl, hPrf⟩ := ha
    have hBase := hHard.1
    rw [reg_refresh _ _ _ hHard a hState hEvent, hHookRegs a hPrf, reg_setFld_off hCtrl rfl, ← hs,
      reg_setFld_off (o := Reg.STATE.SELF.off) (fun h => hState (by rw [h]; simp only [Reg.STATE.SELF, Reg.STATE.STATE]; omega)) rfl]

/-- FAULT bits of a controller: those it names are set, and its EVENT.FAULT. -/
theorem mc_faultBits {d : Dev} (w : Fin 2) (mask : Nat) (hMask : bitOf mask 1 = true) :
    (d.faultBits (mcBase w) mask).fld (mcBase w) Reg.FAULT.START_FAIL = 1 ∧ OnlyParts [.regs] d (d.faultBits (mcBase w) mask) ∧
    (∀ a, a ≠ mcBase w + Reg.FAULT.START_FAIL.off → a ≠ mcBase w + Reg.EVENT.FAULT.off → (d.faultBits (mcBase w) mask).reg a = d.reg a) := by
  unfold Dev.faultBits
  refine ⟨?_, by simp, fun a h1 h2 => ?_⟩
  · rw [Dev.raise, fld_setFld_clear (by decide), fld_setReg_same]
    refine Nat.eq_of_testBit_eq fun i => ?_
    rw [testBit_fget, BitVec.getLsbD_or, BitVec.getLsbD_ofNat]
    cases i with
    | zero =>
      have hBit : mask.testBit 1 = true := hMask
      simp [Reg.FAULT.START_FAIL, hBit]
    | succ i => simp [Reg.FAULT.START_FAIL, Nat.testBit_succ]
  · rw [Dev.raise, reg_setFld_off h2 rfl, reg_setReg, if_neg h1]

/-- No channel has trained: the controller's status, and the loss. -/
def Dev.mcUntrained (d : Dev) (w : Nat) : Dev :=
  ((d.setFld (mcBase w) Reg.MC_STATUS.FAULTED 255).raise (mcBase w) Reg.MC_EVENT.CH_FAULT).modUnits fun r => { r with loss := r.loss.setNum (mcBase w) 1 }

theorem mcUntrained_leaves (d : Dev) (w : Nat) :
    (d.mcUntrained w).fld (mcBase w) Reg.MC_STATUS.FAULTED = 255 ∧ (d.mcUntrained w).fld (mcBase w) Reg.MC_EVENT.CH_FAULT = 1 ∧
    (d.mcUntrained w).ust (mcBase w) = d.ust (mcBase w) ∧ (d.mcUntrained w).quiet = d.quiet := by
  unfold Dev.mcUntrained
  refine ⟨?_, ?_, ?_, ?_⟩
  · rw [fld_modUnits, Dev.raise, fld_setFld_clear (by decide), fld_setFld_lt (by decide) (by decide)]
  · rw [fld_modUnits, fld_raise_same (by decide) (by decide)]
  · rw [Dev.ust, fld_modUnits, Dev.raise, fld_setFld_clear (by decide), fld_setFld_clear (by decide), Dev.ust]
  · rw [quiet_modUnits, quiet_mcRaise, quiet_mcFld]

/-- A STARTING controller whose start fails. -/
theorem mc_startFail {d : Dev} (w : Fin 2) (hStart : d.ust (mcBase w) = .starting) :
    d.startFail (mcBase w) (2 ^ 9) = (((d.releaseBack (mcBase w)).cancelSeq (mcBase w)).faultBits (mcBase w) (2 ^ 9 ||| faultStartFail)).setUst
      (mcBase w) .faulted := by
  have hShell : (unitOf (mcBase w)).blk ≠ .shell := (mc_facts w).1.2
  unfold Dev.startFail Dev.fatal Dev.pulseDiscard
  dsimp only
  rw [hStart, if_neg hShell, if_neg (by decide)]

theorem mcInit_none {s : State} (w : Fin 2) (hq : s.dev.quiet = true) (hStart : s.dev.ust (mcBase w) = .starting)
    (hLock : s.dev.clk.mpllLock = true) :
    Completes (.mcInitDone w 0) s fun e =>
      e.ust (mcBase w) = .faulted ∧ e.fld (mcBase w) Reg.MC_STATUS.FAULTED = 255 ∧ e.fld (mcBase w) Reg.MC_EVENT.CH_FAULT = 1 ∧
      e.fld (mcBase w) Reg.FAULT.START_FAIL = 1 := by
  obtain ⟨hHard, -, -, hForme, -⟩ := mc_facts w
  obtain ⟨hAll, hEvent, hUst, hQuiet⟩ := mcUntrained_leaves s.dev w
  have hOp : opMcInitDone w 0 s.dev = (s.dev.mcUntrained w).startFail (mcBase w) (2 ^ 9) := by
    have hLose : ((s.dev.setFld (mcBase w) Reg.MC_STATUS.FAULTED 255).raise (mcBase w) Reg.MC_EVENT.CH_FAULT).lose (mcBase w) = s.dev.mcUntrained w := by
      rw [Dev.lose]
      exact if_neg fun h => absurd (hStart.symm.trans (hUst.symm.trans h)) (by decide)
    unfold opMcInitDone
    dsimp only
    rw [hStart, hLock, if_pos (by simp), if_pos rfl, hLose]
  rw [hStart] at hUst
  rw [mc_startFail w hUst] at hOp
  generalize s.dev.mcUntrained w = c at hAll hEvent hUst hQuiet hOp
  obtain ⟨hBackParts, hBackLow⟩ := belowTiles_releaseBack c hForme
  have hCancel : OnlyParts [.regs, .units, .fabric] c ((c.releaseBack (mcBase w)).cancelSeq (mcBase w)) := by
    unfold Dev.cancelSeq
    simpa using hBackParts
  have hCancelReg (a : Nat) (ha : a < columnBase 0 0) : ((c.releaseBack (mcBase w)).cancelSeq (mcBase w)).reg a = c.reg a := hBackLow a ha
  generalize (c.releaseBack (mcBase w)).cancelSeq (mcBase w) = b at hCancel hCancelReg hOp
  obtain ⟨hFail, hBitsParts, hBitsRegs⟩ := mc_faultBits (d := b) w (2 ^ 9 ||| faultStartFail) (by decide)
  generalize hf : b.faultBits (mcBase w) (2 ^ 9 ||| faultStartFail) = f at hFail hBitsParts hBitsRegs hOp
  have hKept (g : Fld) (h1 : g.off < 0x1000) (h2 : g.off ≠ Reg.FAULT.START_FAIL.off) (h3 : g.off ≠ Reg.EVENT.FAULT.off) :
      f.fld (mcBase w) g = c.fld (mcBase w) g := by
    rw [Dev.fld, hBitsRegs _ (by omega) (by omega), hCancelReg _ (mcBase_low w g h1), Dev.fld]
  have hStill : f.ust (mcBase w) = .starting := by rw [Dev.ust, hKept _ (by decide) (by decide) (by decide), ← Dev.ust, hUst]
  obtain ⟨hFaulted, hEndParts, hEndRegs⟩ := mc_setUst_faulted w (d := f) (by rw [hStill]; decide)
  have hEnd (g : Fld) (h1 : g.off < 0x200) (h2 : g.off ≠ Reg.CTRL.ENABLE.off) (h3 : g.off ≠ Reg.STATE.STATE.off) (h4 : g.off ≠ Reg.EVENT.FAULT.off) :
      (f.setUst (mcBase w) .faulted).fld (mcBase w) g = f.fld (mcBase w) g := by
    have hBase := hHard.1
    simp only [Reg.STATE.STATE, Reg.EVENT.FAULT] at h3 h4
    rw [Dev.fld, hEndRegs _ (by simp only [List.mem_cons, List.not_mem_nil, or_false, not_or]; omega)
      (by simp only [Reg.STATE.STATE]; omega) (by simp only [Reg.EVENT.FAULT]; omega), Dev.fld]
  refine completes_quiet (f := opMcInitDone w 0) rfl ?_ ?_ <;> rw [hOp]
  · have hNe : rootBase + Reg.IRQ_CTRL.off ∉ [mcBase w + Reg.CTRL.ENABLE.off, mcBase w + 0x200 + Reg.PRF_STATUS.off] := by
      simp only [List.mem_cons, List.not_mem_nil, or_false, not_or]
      exact ⟨irq_ne_mc _ _, by rw [Nat.add_assoc]; exact irq_ne_mc _ _⟩
    rw [quiet_of_onlyStates (hEndParts.mono (by simp)) hEndRegs hNe]
    rw [quiet_congr (hBitsParts .kryup (by simp)) (hBitsParts .clk (by simp)) (hBitsRegs _ (irq_ne_mc _ _) (irq_ne_mc _ _))
      (by rw [hBitsParts .stack (by simp)])]
    rw [quiet_congr (hCancel .kryup (by simp)) (hCancel .clk (by simp)) (hCancelReg _ (by decide)) (by rw [hCancel .stack (by simp)]), hQuiet, hq]
  · refine ⟨hFaulted, ?_, ?_, ?_⟩
    · rw [hEnd _ (by decide) (by decide) (by decide) (by decide), hKept _ (by decide) (by decide) (by decide), hAll]
    · rw [hEnd _ (by decide) (by decide) (by decide) (by decide), hKept _ (by decide) (by decide) (by decide), hEvent]
    · rw [hEnd _ (by decide) (by decide) (by decide) (by decide), hFail]

/-! ## Retraining rounds (R329) -/

/-- What a retraining round does to one channel. -/
def Dev.retrainStep (d : Dev) (w : Nat) (failed : BitVec 8) (c : Nat) : Dev :=
  if bitOf (d.fld (mcBase w) Reg.MC_STATUS.FAULTED) c then d
  else if failed.getLsbD c then
    if d.ext.retrainBad.mem (8 * w + c) then (d.count (mcBase w) Reg.MC_RETRAIN_COUNT.COUNT).faultChannel w c
    else (d.count (mcBase w) Reg.MC_RETRAIN_COUNT.COUNT).modExt fun x => { x with retrainBad := x.retrainBad.put (8 * w + c) 1 }
  else d.modExt fun x => { x with retrainBad := x.retrainBad.del (8 * w + c) }

theorem opMcRetrain_served {d : Dev} {w : Fin 2} (failed : BitVec 8) (hRun : d.ust (mcBase w) = .running) :
    opMcRetrain w failed d = d.each (List.range 8) fun d c => d.retrainStep w failed c := by
  unfold opMcRetrain Dev.runs
  dsimp only
  rw [hRun]
  exact if_pos rfl

/-- A round leaves registers, and what is known of a channel, while other channels train well. -/
structure RetrainKept (ch : Nat) (d e : Dev) : Prop where
  parts : OnlyParts [.ext] d e
  bad : e.ext.retrainBad.mem ch = d.ext.retrainBad.mem ch

theorem RetrainKept.trans {ch : Nat} {c d e : Dev} (h1 : RetrainKept ch c d) (h2 : RetrainKept ch d e) : RetrainKept ch c e :=
  ⟨h1.parts.trans h2.parts, h2.bad.trans h1.bad⟩

theorem retrainStep_well (d : Dev) (w : Nat) {failed : BitVec 8} {x ch : Nat} (hGood : failed.getLsbD x = false) (hx : ch ≠ 8 * w + x) :
    RetrainKept ch d (d.retrainStep w failed x) := by
  unfold Dev.retrainStep
  split
  · exact ⟨by simp, rfl⟩
  · rw [if_neg (by simp [hGood])]
    refine ⟨by simp, ?_⟩
    rw [modExt_ext]
    unfold SMap.mem SMap.num SMap.at
    rw [SMap.look_del_other _ hx]

theorem retrainSteps_well (w : Nat) {failed : BitVec 8} {ch : Nat} (l : List Nat) (hGood : ∀ x ∈ l, failed.getLsbD x = false ∧ ch ≠ 8 * w + x)
    (d : Dev) : RetrainKept ch d (d.each l fun d c => d.retrainStep w failed c) := by
  induction l generalizing d with
  | nil => exact ⟨by simp [Dev.each], rfl⟩
  | cons x xs ih =>
    obtain ⟨hBit, hNe⟩ := hGood x (List.mem_cons_self ..)
    exact (retrainStep_well d w hBit hNe).trans (ih (fun y hy => hGood y (List.mem_cons_of_mem _ hy)) _)

theorem channels_around : ∀ c : Fin 8, List.range 8 = List.range c ++ c.val :: List.range' (c + 1) (7 - c) := by decide

theorem failed_one : ∀ c x : Fin 8, (BitVec.ofNat 8 (2 ^ c.val)).getLsbD x = decide (x = c) := by decide

/-- A round in which one channel alone fails: the others leave all but what is remembered of them. -/
theorem retrain_one {d : Dev} {w : Fin 2} (c : Fin 8) (hRun : d.ust (mcBase w) = .running) :
    ∃ a e, RetrainKept (8 * w + c) d a ∧ RetrainKept (8 * w + c) (a.retrainStep w (BitVec.ofNat 8 (2 ^ c.val)) c) e ∧
      opMcRetrain w (BitVec.ofNat 8 (2 ^ c.val)) d = e := by
  have hGood (x : Nat) (hx : x < 8) (hNe : x ≠ c.val) :
      (BitVec.ofNat 8 (2 ^ c.val)).getLsbD x = false ∧ 8 * w.val + c.val ≠ 8 * w.val + x := by
    have h := failed_one c ⟨x, hx⟩
    refine ⟨h.trans (decide_eq_false fun h => hNe (congrArg Fin.val h)), by omega⟩
  have hBefore := retrainSteps_well w.val (failed := BitVec.ofNat 8 (2 ^ c.val)) (ch := 8 * w.val + c.val) (List.range c.val)
    (fun x hx => hGood x (by have := List.mem_range.mp hx; omega) (by have := List.mem_range.mp hx; omega)) d
  refine ⟨_, _, hBefore, retrainSteps_well w.val (failed := BitVec.ofNat 8 (2 ^ c.val)) (List.range' (c + 1) (7 - c)) (fun x hx => ?_) _, ?_⟩
  · rw [List.mem_range'_1] at hx
    exact hGood x (by omega) (by omega)
  · rw [opMcRetrain_served _ hRun, channels_around c]
    simp only [Dev.each, List.foldl_append, List.foldl_cons]

section
variable {s : State} {w : Fin 2} {c : Fin 8} (hq : s.dev.quiet = true) (hRun : s.dev.ust (mcBase w) = .running)
  (hServed : bitOf (s.dev.fld (mcBase w) Reg.MC_STATUS.FAULTED) c = false)
include hq hRun hServed

theorem retrain_first (hFirst : s.dev.ext.retrainBad.mem (8 * w + c) = false) :
    Completes (.mcRetrain w (BitVec.ofNat 8 (2 ^ c.val))) s fun e =>
      e.ext.retrainBad.mem (8 * w + c) = true ∧ Counted (mcBase w) Reg.MC_RETRAIN_COUNT.COUNT 1 s.dev e ∧ OnlyParts [.regs, .ext] s.dev e ∧
      OnlyRegs [mcBase w + Reg.MC_RETRAIN_COUNT.COUNT.off] s.dev e := by
  obtain ⟨a, e, ⟨hBefore, hBad⟩, ⟨hAfter, hEnd⟩, hOp⟩ := retrain_one c hRun
  have hFailed := (failed_one c c).trans (decide_eq_true rfl)
  have hStep : a.retrainStep w (BitVec.ofNat 8 (2 ^ c.val)) c =
      (a.count (mcBase w) Reg.MC_RETRAIN_COUNT.COUNT).modExt fun x => { x with retrainBad := x.retrainBad.put (8 * w + c) 1 } := by
    unfold Dev.retrainStep
    rw [hBefore.fld_eq (by simp), hServed, if_neg (by decide), if_pos hFailed, hBad, hFirst]
    exact if_neg (by decide)
  rw [hStep] at hAfter hEnd
  have hReg (i : Nat) : e.reg i = (a.count (mcBase w) Reg.MC_RETRAIN_COUNT.COUNT).reg i := hAfter.reg_eq (by simp) i
  refine completes_quiet (f := opMcRetrain w (BitVec.ofNat 8 (2 ^ c.val))) rfl ?_ ?_ <;> rw [hOp]
  · rw [hAfter.quiet_eq (by simp) (by simp) (by simp) (by simp), quiet_modExt, quiet_count _ _ _ (irq_ne_mc _ _),
      hBefore.quiet_eq (by simp) (by simp) (by simp) (by simp), hq]
  · refine ⟨?_, ?_, ?_, fun i hi => ?_⟩
    · rw [hEnd, modExt_ext]
      unfold SMap.mem SMap.num SMap.at
      rw [SMap.look_put_same]
      rfl
    · rw [Counted, Dev.fld, hReg, ← Dev.fld, Dev.count, fld_countBy_same (by decide), hBefore.fld_eq (by simp)]
    · exact OnlyParts.trans ((hBefore.mono (by simp)).trans (by simp)) (hAfter.mono (by simp))
    · rw [hReg, reg_count, if_neg (by simpa using hi), hBefore.reg_eq (by simp)]

/-- A channel that fails a second round in a row. -/
def Dev.channelLost (d : Dev) (w c : Nat) : Dev :=
  (((d.count (mcBase w) Reg.MC_RETRAIN_COUNT.COUNT).setFld (mcBase w) ⟨Reg.MC_STATUS.FAULTED.off, 8 + c, 1⟩ 1).raise (mcBase w)
    Reg.MC_EVENT.CH_FAULT).modUnits fun r => { r with loss := r.loss.setNum (mcBase w) 1 }

omit hq hRun hServed in
theorem channelLost_leaves (d : Dev) (w : Nat) (c : Fin 8) :
    bitOf ((d.channelLost w c).fld (mcBase w) Reg.MC_STATUS.FAULTED) c = true ∧
    (d.channelLost w c).fld (mcBase w) Reg.MC_EVENT.CH_FAULT = 1 ∧
    Counted (mcBase w) Reg.MC_RETRAIN_COUNT.COUNT 1 d (d.channelLost w c) ∧ (d.channelLost w c).ust (mcBase w) = d.ust (mcBase w) ∧
    (d.channelLost w c).quiet = d.quiet := by
  unfold Dev.channelLost
  refine ⟨?_, ?_, ?_, ?_, ?_⟩
  · rw [fld_modUnits, Dev.raise, fld_setFld_clear (by decide), bitOf, Dev.fld, testBit_fget,
      show mcBase w + Reg.MC_STATUS.FAULTED.off = mcBase w + (⟨Reg.MC_STATUS.FAULTED.off, 8 + c, 1⟩ : Fld).off from rfl, reg_setFld, if_pos rfl,
      getLsbD_fset]
    have := c.isLt
    rw [if_pos (by simp [Reg.MC_STATUS.FAULTED]; omega)]
    simp [Reg.MC_STATUS.FAULTED]
  · rw [fld_modUnits, fld_raise_same (by decide) (by decide)]
  · rw [Counted, fld_modUnits, Dev.raise, fld_setFld_off (o := Reg.MC_EVENT.CH_FAULT.off) (by decide) rfl,
      fld_setFld_off (f := ⟨Reg.MC_STATUS.FAULTED.off, 8 + c, 1⟩) (o := Reg.MC_STATUS.FAULTED.off) (by decide) rfl, Dev.count, fld_countBy_same (by decide)]
  · rw [Dev.ust, fld_modUnits, Dev.raise, fld_setFld_off (o := Reg.MC_EVENT.CH_FAULT.off) (by decide) rfl,
      fld_setFld_off (f := ⟨Reg.MC_STATUS.FAULTED.off, 8 + c, 1⟩) (o := Reg.MC_STATUS.FAULTED.off) (by decide) rfl, Dev.count, Dev.countBy,
      fld_setFld_off (o := Reg.MC_RETRAIN_COUNT.COUNT.off) (by decide) rfl, Dev.ust]
  · rw [quiet_modUnits, quiet_mcRaise, quiet_mcFld, quiet_count _ _ _ (irq_ne_mc _ _)]

theorem retrain_second (hAgain : s.dev.ext.retrainBad.mem (8 * w + c) = true) :
    Completes (.mcRetrain w (BitVec.ofNat 8 (2 ^ c.val))) s fun e =>
      bitOf (e.fld (mcBase w) Reg.MC_STATUS.FAULTED) c = true ∧ e.fld (mcBase w) Reg.MC_EVENT.CH_FAULT = 1 ∧
      Counted (mcBase w) Reg.MC_RETRAIN_COUNT.COUNT 1 s.dev e ∧ e.ust (mcBase w) = .degraded := by
  obtain ⟨a, e, ⟨hBefore, hBad⟩, ⟨hAfter, -⟩, hOp⟩ := retrain_one c hRun
  have hFailed := (failed_one c c).trans (decide_eq_true rfl)
  obtain ⟨hFaulted, hEvent, hCount, hUst, hQuiet⟩ := channelLost_leaves a w c
  have hUstA : a.ust (mcBase w) = .running := by rw [Dev.ust, hBefore.fld_eq (by simp), ← Dev.ust, hRun]
  rw [hUstA] at hUst
  have hStep : a.retrainStep w (BitVec.ofNat 8 (2 ^ c.val)) c = (a.channelLost w c).setUst (mcBase w) .degraded := by
    unfold Dev.retrainStep
    rw [hBefore.fld_eq (by simp), hServed, if_neg (by decide), if_pos hFailed, hBad, hAgain, if_pos rfl]
    exact if_pos hUst
  rw [hStep] at hAfter
  obtain ⟨hDegraded, hParts, hRegs⟩ := mc_setUst w (d := a.channelLost w c) (u := .degraded) (by rw [hUst]; decide) (.inr rfl)
  have hFld (f : Fld) : e.fld (mcBase w) f = ((a.channelLost w c).setUst (mcBase w) .degraded).fld (mcBase w) f := hAfter.fld_eq (by simp) _ _
  refine completes_quiet (f := opMcRetrain w (BitVec.ofNat 8 (2 ^ c.val))) rfl ?_ ?_ <;> rw [hOp]
  · rw [hAfter.quiet_eq (by simp) (by simp) (by simp) (by simp), quiet_of_onlyStates (hParts.mono (by simp)) hRegs (by simp), hQuiet,
      hBefore.quiet_eq (by simp) (by simp) (by simp) (by simp), hq]
  · refine ⟨?_, ?_, ?_, ?_⟩
    · rw [hFld, hRegs.mcFld w (by decide) (by decide), hFaulted]
    · rw [hFld, hRegs.mcFld w (by decide) (by decide), hEvent]
    · rw [Counted, hFld, hRegs.mcFld w (by decide) (by decide), hCount, hBefore.fld_eq (by simp)]
    · rw [Dev.ust, hFld, ← Dev.ust, hDegraded]

end

/-! ## The scrub and the devices' temperature (R330) -/

/-- A single flip that the scrub meets is mended and counted. -/
theorem mcScrub_mends {s : State} {w : Fin 2} {c : Fin 8} {n : Nat} (hq : s.dev.quiet = true) (hMine : extController (64 * n) = w)
    (hSeen : 64 * n < s.dev.visible) (hChan : extChannel (64 * n) % 8 = c) (hRun : s.dev.ust (mcBase w) = .running)
    (hServed : bitOf (s.dev.fld (mcBase w) Reg.MC_STATUS.FAULTED) c = false) (hEn : s.dev.mcScrub (mcBase w) Reg.MC_SCRUB.EN = true)
    (hFlip : (s.dev.extLine n).check = dsCorrected) :
    Completes (.mcScrubLine n {}) s fun e =>
      e.extLine n = (s.dev.extLine n).mended ∧ Counted (mcBase w) Reg.MC_SEC_COUNT.COUNT 1 s.dev e ∧
      e.fld (mcBase w) Reg.MC_EVENT.SEC = 1 ∧ OnlyParts [.regs, .ext] s.dev e ∧
      OnlyRegs [mcBase w + Reg.MC_SEC_COUNT.COUNT.off, mcBase w + Reg.MC_EVENT.SEC.off] s.dev e := by
  have hOp : opMcScrubLine n {} s.dev = ((s.dev.putLine n (s.dev.extLine n).mended).count (mcBase w) Reg.MC_SEC_COUNT.COUNT).raise
      (mcBase w) Reg.MC_EVENT.SEC := by
    unfold opMcScrubLine Dev.runs
    dsimp only
    rw [hMine, hChan, hRun, hServed, hEn, decide_eq_true hSeen, if_pos (by simp)]
    rw [show s.dev.wearLine n {} = s.dev from if_pos ⟨rfl, rfl⟩, hFlip, if_neg (by decide), if_pos rfl]
    unfold Dev.extNote
    dsimp only
    rw [if_pos rfl, hMine]
  refine completes_quiet (f := opMcScrubLine n {}) rfl ?_ ?_ <;> rw [hOp]
  · rw [quiet_mcRaise, quiet_count _ _ _ (irq_ne_mc _ _), Dev.putLine, quiet_modExt, hq]
  · refine ⟨?_, ?_, fld_raise_same (by decide) (by decide), by simp [Dev.putLine], fun a ha => ?_⟩
    · rw [extLine_congr (d := s.dev.putLine n (s.dev.extLine n).mended) (by rw [raise_ext, count_ext]), extLine_putLine, if_pos rfl]
    · rw [Counted, Dev.raise, fld_setFld_clear (by decide), Dev.count, fld_countBy_same (by decide), Dev.putLine, fld_modExt]
    · simp only [List.mem_cons, List.not_mem_nil, or_false, not_or] at ha
      rw [reg_raise, if_neg ha.2, reg_count, if_neg ha.1, Dev.putLine, reg_modExt]

theorem dramHot_noted {s : State} {w : Fin 2} {rate : Nat} (hq : s.dev.quiet = true) (hRun : s.dev.ust (mcBase w) = .running) (hHot : 8 < rate) :
    Completes (.dramHot w rate) s fun e =>
      e.fld (mcBase w) Reg.MC_EVENT.DRAM_HOT = 1 ∧ e.ext = { s.dev.ext with refresh := s.dev.ext.refresh.put w rate } ∧
      OnlyParts [.regs, .ext] s.dev e ∧ OnlyRegs [mcBase w + Reg.MC_EVENT.DRAM_HOT.off] s.dev e := by
  have hOp : opDramHot w rate s.dev = (s.dev.modExt fun x => { x with refresh := x.refresh.put w rate }).raise (mcBase w) Reg.MC_EVENT.DRAM_HOT := by
    unfold opDramHot Dev.runs
    dsimp only
    rw [hRun, if_pos (by simp), decide_eq_true hHot]
    rfl
  refine completes_quiet (f := opDramHot w rate) rfl ?_ ?_ <;> rw [hOp]
  · rw [quiet_mcRaise, quiet_modExt, hq]
  · refine ⟨fld_raise_same (by decide) (by decide), by rw [raise_ext, modExt_ext], by simp, fun a ha => ?_⟩
    rw [reg_raise, if_neg (by simpa using ha), reg_modExt]

/-! ## Region registers (R313, R336) -/

theorem region_unit : ∀ (r : Fin 16) (k : Fin 4), unitAt (regionAddr r k) = some (unitOf cryptoBase) ∧
    ((unitOf cryptoBase).rowAt (regionAddr r k - (unitOf cryptoBase).base)).map (·.rw) = some (if k.val ≤ 2 then 0xFFFFFFFF else 0xC000FFFF) := by
  decide +kernel

theorem presented_crypto (d : Dev) (off : Nat) : d.presented (unitOf cryptoBase) off = some (2 ^ 32 - 1) := by
  have hLayout (major : Nat) : olderLayout (unitOf cryptoBase) major = [] := by
    have hBlk : (unitOf cryptoBase).blk = .crypto := by decide
    unfold olderLayout
    split
    · rfl
    · rw [hBlk]
  unfold Dev.presented
  rw [hLayout]
  rfl

/-- The bits of a region register that a write stores. -/
def regionMask (k : Nat) : Word := if k ≤ 2 then 0xFFFFFFFF else 0xC000FFFF

theorem regionMask_eq : ∀ k : Fin 4, (BitVec.ofNat 32 (if k.val ≤ 2 then 0xFFFFFFFF else 0xC000FFFF) &&&
    BitVec.ofNat 32 ((some (2 ^ 32 - 1)).getD 0)) = regionMask k := by decide

/-- A write of a register stores the bits of its row that the presented version lays out. -/
theorem storeRw_row {d : Dev} {a : Nat} {v m : Word} {u : Unit} {row : RegRow} (hUnit : unitAt a = some u) (hRow : u.rowAt (a - u.base) = some row)
    (hMask : BitVec.ofNat 32 row.rw &&& BitVec.ofNat 32 ((d.presented u (a - u.base)).getD 0) = m) :
    d.storeRw a v = d.setReg a ((d.reg a &&& ~~~m) ||| (v &&& m)) := by
  unfold Dev.storeRw
  rw [hUnit]
  dsimp only
  rw [hRow]
  dsimp only
  rw [hMask]

theorem storeRw_region (d : Dev) (r : Fin 16) (k : Fin 4) (v : Word) :
    d.storeRw (regionAddr r k) v =
      d.setReg (regionAddr r k) ((d.reg (regionAddr r k) &&& ~~~regionMask k) ||| (v &&& regionMask k)) := by
  obtain ⟨hUnit, hRow⟩ := region_unit r k
  obtain ⟨row, hAt, hRw⟩ := Option.map_eq_some_iff.mp hRow
  refine storeRw_row hUnit hAt ?_
  rw [presented_crypto, hRw]
  exact regionMask_eq k

/-- A field that a mask covers takes the written value. -/
theorem fget_masked {x v m : Word} {f : Fld} (h : ∀ i < f.width, m.getLsbD (f.lo + i) = true) :
    fget ((x &&& ~~~m) ||| (v &&& m)) f = fget v f := by
  refine Nat.eq_of_testBit_eq fun i => ?_
  rw [testBit_fget, testBit_fget]
  by_cases hi : i < f.width
  · simp [hi, h i hi]
  · simp [hi]

section
variable {s : State} {path : Fin 8} {r : Fin 16} {k : Fin 4} {v : Word} (hq : s.dev.quiet = true)
  (hReach : s.dev.reached path (regionAddr r k) = true)
include hq hReach

theorem region_stored (hRest : s.dev.ust cryptoBase = .stopped) :
    Completes (.regionWrite path r k v) s fun e =>
      (k.val ≤ 2 → e.reg (regionAddr r k) = v) ∧
      (k.val = 3 → ∀ f ∈ [Reg.REG_LBN_HI.EN, Reg.REG_LBN_HI.SECTOR, Reg.REG_LBN_HI.LBN_HI], fget (e.reg (regionAddr r k)) f = fget v f) ∧
      e.answered path stOk 0 ∧ OnlyParts [.regs, .ctl] s.dev e ∧ OnlyRegs [regionAddr r k] s.dev e := by
  have hOp : s.dev.regionWrite (regionAddr r k) v =
      s.dev.setReg (regionAddr r k) ((s.dev.reg (regionAddr r k) &&& ~~~regionMask k) ||| (v &&& regionMask k)) := by
    rw [← storeRw_region]
    unfold Dev.regionWrite Dev.atRest
    rw [hRest]
    exact if_pos rfl
  have hIrq : rootBase + Reg.IRQ_CTRL.off ≠ regionAddr r k := by
    simp only [regionAddr, cryptoBase, rootBase, Reg.IRQ_CTRL.off, Reg.REG_BASE.off]
    omega
  refine completes_viaWord (f := fun d => d.regionWrite (regionAddr r k) v) rfl hReach ?_ ?_ <;> rw [hOp]
  · rw [quiet_setReg _ _ _ hIrq, hq]
  · refine ⟨fun hk => ?_, fun hk f hf => ?_, finish_answered .., by simp, fun a ha => ?_⟩
    · rw [reg_finish, reg_setReg, if_pos rfl, regionMask, if_pos hk, show (0xFFFFFFFF : Word) = BitVec.allOnes 32 by decide, BitVec.not_allOnes, BitVec.and_zero,
        BitVec.and_allOnes, BitVec.zero_or]
    · rw [reg_finish, reg_setReg, if_pos rfl]
      refine fget_masked ?_
      rw [hk]
      revert f
      decide
    · rw [reg_finish, reg_setReg, if_neg (by simpa using ha)]

theorem region_rejected (hRun : s.dev.runs cryptoBase = true) :
    Completes (.regionWrite path r k v) s fun e =>
      e.reg (regionAddr r k) = s.dev.reg (regionAddr r k) ∧ e.fld cryptoBase Reg.EVENT.CTRL_REJECT = 1 ∧ e.answered path stOk 0 ∧
      OnlyParts [.regs, .ctl] s.dev e ∧ OnlyRegs [cryptoBase + Reg.EVENT.CTRL_REJECT.off] s.dev e := by
  have hOp : s.dev.regionWrite (regionAddr r k) v = s.dev.raise cryptoBase Reg.EVENT.CTRL_REJECT := by
    unfold Dev.runs at hRun
    unfold Dev.regionWrite Dev.atRest
    cases hU : s.dev.ust cryptoBase <;> simp [hU] at hRun <;> exact if_neg (by decide)
  have hFar : regionAddr r k ≠ cryptoBase + Reg.EVENT.CTRL_REJECT.off := by
    simp only [regionAddr, Reg.EVENT.CTRL_REJECT, Reg.REG_BASE.off]
    omega
  refine completes_viaWord (f := fun d => d.regionWrite (regionAddr r k) v) rfl hReach ?_ ?_ <;> rw [hOp]
  · rw [quiet_raise _ _ _ (by decide), hq]
  · refine ⟨?_, ?_, finish_answered .., by simp, fun a ha => ?_⟩
    · rw [reg_finish, reg_raise, if_neg hFar]
    · rw [fld_finish, fld_raise_same (by decide) (by decide)]
    · rw [reg_finish, reg_raise, if_neg (by simpa using ha)]

end

/-- Settles O40: each event of a controller by the channels and lines it names, and a region register by whether the engine rests. -/
theorem controllersAndRegions : Obligations.ControllersAndRegions := by
  unfold Obligations.ControllersAndRegions
  intro s path w c r k n rate value hq d b ch served once v line
  refine ⟨fun hStart hLock hProof hLoss _ => ?_, fun hStart hLock => mcInit_none w hq hStart hLock, fun hServed _ => ?_,
    fun hMine hSeen hChan hServed hEn hFlip => mcScrub_mends hq hMine hSeen hChan hServed.1 hServed.2 hEn hFlip,
    fun hServed hHot => dramHot_noted hq hServed.1 hHot,
    fun hReach => ⟨fun hRest => region_stored hq hReach hRest, fun hRun => region_rejected hq hReach hRun⟩⟩
  · refine (mcInit_all w n hq hStart hLock hProof hLoss).imp fun e h => ?_
    obtain ⟨hRun, hTrained, hFaulted, hDone, hRetained, ⟨hPoison, hZeros, hFound, hOther⟩, hParts⟩ := h
    exact ⟨hRun, hTrained, hFaulted, hDone, hRetained,
      fun hMine hLost => ⟨hPoison hMine hLost, hZeros hMine hLost, hFound hMine hLost⟩, hOther, hParts⟩
  · exact ⟨retrain_first hq hServed.1 hServed.2, retrain_second hq hServed.1 hServed.2⟩

end Sys2Proof.Machine

/-! # Reads of data space over a base port that nothing befalls (R94, R240, R248, R321) -/

namespace Sys2Proof.Machine

set_option Elab.async false

/-! ## A row word -/

theorem viaBits_nil (bundle : Nat) : viaBits [] bundle = 0 := rfl

theorem noteMeet_nothing (d : Dev) (c : Nat) (b : Bool) : d.noteMeet c {} b = d := if_pos ⟨rfl, rfl⟩

/-- A base-port read that meets nothing: refused where the word is barred, and else the bank is taken and the word read. -/
theorem readTo_nothing {d : Dev} {x : BaseTo} (hm : d.meetsNothing) :
    d.readTo x = if d.toBarred x then (d, memRefused, 0) else (d.bankTaken x.bank).readOver x.word x.place x.src 0 := by
  unfold Dev.readTo
  rw [nextMeet_nothing x hm]
  dsimp only
  rw [if_neg (by decide : ¬2 ≤ ({} : PortFound).parity), wearTo_nil, viaBits_nil]
  simp only [noteMeet_nothing]

/-- A word without an error reads as it is, and nothing is recorded. -/
theorem readOver_good {d : Dev} {w p src : Nat} (h : d.wordCheck p = memOk) : d.readOver w p src 0 = (d, memOk, d.wordData p) := by
  have hErr : errStatus (d.mem.err.at p 0 ^^^ 0) = memOk := by
    rw [show (d.mem.err.at p 0 ^^^ (0 : BitVec 266)) = d.mem.err.at p 0 from BitVec.xor_zero]
    exact h
  unfold Dev.readOver
  dsimp only
  rw [hErr, if_neg (by decide), if_neg (by decide)]

/-- The status of a read is what SEC-DED finds. -/
theorem readOver_status (d : Dev) (w p src : Nat) : (d.readOver w p src 0).2.1 = d.wordCheck p := by
  have hErr : (d.mem.err.at p 0 ^^^ (0 : BitVec 266)) = d.mem.err.at p 0 := BitVec.xor_zero
  unfold Dev.readOver Dev.wordCheck
  dsimp only
  rw [hErr]
  split
  · rfl
  · split <;> rfl

theorem wordCheck_bankTaken (d : Dev) (bank p : Nat) : (d.bankTaken bank).wordCheck p = d.wordCheck p := rfl

/-! ## Half a line of the memory die -/

/-- The halves that the mask of a 32-byte access names. -/
theorem halfNeed (i : Nat) (hi : i < 2) : bitsOf ((2 ^ 32 - 1) * 2 ^ (32 * i)) (32 * i) 32 ≠ 0 ∧
    bitsOf ((2 ^ 32 - 1) * 2 ^ (32 * i)) (32 * (1 - i)) 32 = 0 := by
  obtain rfl | rfl : i = 0 ∨ i = 1 := by omega
  · decide
  · decide

theorem lineHalf_low (u v : RowWord) : lineHalf (u ++ v) 0 = v := by
  unfold lineHalf
  exact BitVec.extractLsb'_append_eq_right

theorem lineHalf_high (u v : RowWord) : lineHalf (u ++ v) 1 = u := by
  unfold lineHalf
  exact BitVec.extractLsb'_append_eq_left

theorem dsWorse_ok_left {x : Nat} : dsWorse (dsOfMem memOk) (dsOfMem x) = dsOfMem x := by
  unfold dsWorse
  rw [if_pos (by decide)]
  split
  · exact Nat.max_eq_right (Nat.zero_le _)
  · rfl

theorem dsWorse_ok_right {x : Nat} : dsWorse (dsOfMem x) (dsOfMem memOk) = dsOfMem x := by
  unfold dsWorse
  split
  · rw [if_pos (by decide)]
    exact Nat.max_eq_left (Nat.zero_le _)
  · rfl

/-- A 32-byte read of the memory die reads one row word. -/
theorem dsRead32_memory {d : Dev} {cls a : Nat} (hBar : d.dsBar cls a = none) (hIn : d.dsTarget (dsOffset a / 64 * 64) = .memory) :
    d.dsRead32 cls a = ((d.baseRead (dsUser cls) (dsOffset a / 64 * 64 / 32 + a / 32 % 2)).1,
      dsOfMem (d.baseRead (dsUser cls) (dsOffset a / 64 * 64 / 32 + a / 32 % 2)).2.1,
      (d.baseRead (dsUser cls) (dsOffset a / 64 * 64 / 32 + a / 32 % 2)).2.2) := by
  unfold Dev.dsRead32 Dev.dsRead
  dsimp only
  rw [hBar]
  dsimp only
  rw [hIn]
  dsimp only
  obtain h | h : a / 32 % 2 = 0 ∨ a / 32 % 2 = 1 := by omega
  · rw [h]
    obtain ⟨hUsed, hOther⟩ := halfNeed 0 (by decide)
    rw [if_neg hUsed, if_pos hOther, dsWorse_ok_right, lineHalf_low]
  · rw [h]
    obtain ⟨hUsed, hOther⟩ := halfNeed 1 (by decide)
    rw [if_pos hOther, if_neg hUsed, dsWorse_ok_left, lineHalf_high]

/-! ## Registers that no read of data space consults -/

/-- Only registers of the configuration controller differ. -/
structure ConfigApart (d e : Dev) : Prop where
  parts : OnlyParts [.regs] d e
  window : OnlyWindow configBase d e

section
variable {d e : Dev} (h : ConfigApart d e)
include h

theorem ConfigApart.fld {b : Nat} {f : Fld} (hf : ¬(configBase ≤ b + f.off ∧ b + f.off < configBase + 0x1000)) : e.fld b f = d.fld b f := by
  rw [Dev.fld, h.window _ hf, Dev.fld]

theorem ConfigApart.column (l c : Nat) (f : Fld) : e.fld (columnBase l c) f = d.fld (columnBase l c) f := by
  refine h.fld ?_
  simp only [columnBase, configBase]
  omega

theorem ConfigApart.proving_column (l c : Nat) : e.proving (columnBase l c) = d.proving (columnBase l c) := by
  unfold Dev.proving Dev.proofDepth Dev.flag Dev.ust
  rw [h.column, h.column, h.column]

theorem ConfigApart.baseBarred (x : Bool) (w : Nat) : e.baseBarred x w = d.baseBarred x w := by
  unfold Dev.baseBarred Dev.memBarred Dev.columnBarred Dev.bankDead Dev.fenced Dev.ust
  rw [h.proving_column, h.column, h.column, h.parts .kryup (by simp), h.parts .stack (by simp)]

theorem ConfigApart.toWord (u : BaseUser) (w : Nat) : e.toWord u w = d.toWord u w := by
  unfold Dev.toWord
  rw [physWord_congr (h.parts .mem (by simp))]

theorem ConfigApart.visible : e.visible = d.visible := by
  have hReg : e.reg (mcBase 0 + Reg.MC_CFG.off) = d.reg (mcBase 0 + Reg.MC_CFG.off) := h.window _ (by decide)
  unfold Dev.visible Dev.chanBytes Dev.mcCfg
  rw [hReg, h.parts .ext (by simp)]

theorem ConfigApart.dsTarget (a : Nat) : e.dsTarget a = d.dsTarget a := by
  unfold Dev.dsTarget
  rw [h.visible]

theorem ConfigApart.dsBar (cls a : Nat) : e.dsBar cls a = d.dsBar cls a := by
  unfold Dev.dsBar
  rw [h.dsTarget]

theorem ConfigApart.crypto {f : Fld} (hf : f.off < 0x1000) : e.fld cryptoBase f = d.fld cryptoBase f := by
  refine h.fld ?_
  simp only [cryptoBase, configBase]
  omega

theorem ConfigApart.mc (w : Nat) (f : Fld) : e.fld (mcBase w) f = d.fld (mcBase w) f := by
  refine h.fld ?_
  simp only [mcBase, configBase]
  omega

theorem ConfigApart.extRefused (v : Nat) (x : Bool) : e.extRefused v x = d.extRefused v x := by
  unfold Dev.extRefused Dev.serves Dev.runs Dev.proving Dev.proofDepth Dev.flag Dev.ust
  dsimp only
  rw [h.parts .kryup (by simp), h.crypto (by decide), h.mc, h.mc, h.mc, h.mc]

theorem ConfigApart.slotState {k : Nat} (hk : k < 16) : e.slotState k = d.slotState k := by
  unfold Dev.slotState
  rw [h.window]
  simp only [cryptoBase, configBase, Reg.KEY_SLOT.off]
  omega

theorem ConfigApart.keyRefused (cls : Nat) {k : Nat} (hk : k < 16) : e.keyRefused cls k = d.keyRefused cls k := by
  have hReg : e.reg (cryptoBase + Reg.KEY_SLOT.off + 4 * k) = d.reg (cryptoBase + Reg.KEY_SLOT.off + 4 * k) := by
    rw [h.window]
    simp only [cryptoBase, configBase, Reg.KEY_SLOT.off]
    omega
  unfold Dev.keyRefused
  rw [h.slotState (by omega), h.slotState hk, hReg, h.parts .ext (by simp)]

theorem ConfigApart.extBar (cls v : Nat) {k : Nat} (hk : k < 16) (x : Bool) : e.extBar cls k v x = d.extBar cls k v x := by
  unfold Dev.extBar
  rw [h.extRefused, h.keyRefused cls hk]

theorem ConfigApart.tweak (v : Nat) : e.tweak v = d.tweak v := by
  have hFld (f : Fld) (r : Nat) (hf : f.off + 16 * r < 0x1000) : e.fld cryptoBase (f.shift (16 * r)) = d.fld cryptoBase (f.shift (16 * r)) :=
    h.crypto hf
  have hHolds : ∀ r ∈ List.range 16, e.regionHolds v r = d.regionHolds v r := by
    intro r hr
    have := List.mem_range.mp hr
    unfold Dev.regionHolds Dev.flag
    rw [hFld Reg.REG_BASE.BASE r (show 0x200 + 16 * r < 0x1000 by omega), hFld Reg.REG_SIZE.SIZE r (show 0x204 + 16 * r < 0x1000 by omega),
      hFld Reg.REG_LBN_HI.EN r (show 0x20C + 16 * r < 0x1000 by omega)]
  have hFind : (List.range 16).find? (e.regionHolds v) = (List.range 16).find? (d.regionHolds v) := by
    rw [← List.head?_filter, ← List.head?_filter, List.filter_congr hHolds]
  unfold Dev.tweak
  rw [hFind]
  split
  · rename_i r hr
    have := List.mem_range.mp (List.mem_of_find?_eq_some hr)
    unfold Dev.flag
    rw [hFld Reg.REG_BASE.BASE r (show 0x200 + 16 * r < 0x1000 by omega), hFld Reg.REG_LBN_LO.LBN_LO r (show 0x208 + 16 * r < 0x1000 by omega),
      hFld Reg.REG_LBN_HI.LBN_HI r (show 0x20C + 16 * r < 0x1000 by omega), hFld Reg.REG_LBN_HI.SECTOR r (show 0x20C + 16 * r < 0x1000 by omega)]
  · rfl

theorem ConfigApart.decrypt (k v : Nat) (l : ExtLine) : e.decrypt k v l = d.decrypt k v l := by
  unfold Dev.decrypt Dev.crypt Dev.keys
  rw [h.tweak, h.parts .ext (by simp)]

end

end Sys2Proof.Machine

/-! # A read of data space answers alike where only the configuration controller's registers differ -/

namespace Sys2Proof.Machine

set_option Elab.async false

theorem dsOfMem_ok {st : Nat} (h : dsOfMem st = dsOk) : st = memOk := by
  by_contra hst
  unfold dsOfMem at h
  rw [if_neg hst] at h
  split at h
  · exact absurd h (by decide)
  · split at h <;> exact absurd h (by decide)

theorem bankTaken_same {d e : Dev} {bank : Nat} (h : d.bankTaken bank = d) (hMem : e.mem = d.mem) (hStack : e.stack = d.stack) :
    e.bankTaken bank = e := by
  have hM : (d.bankTaken bank).mem = d.mem := congrArg Dev.mem h
  have hS : (d.bankTaken bank).stack = d.stack := congrArg Dev.stack h
  have hM' : (e.bankTaken bank).mem = e.mem := by
    unfold Dev.bankTaken at hM ⊢
    simp only [modStack_mem, modMem_mem] at hM ⊢
    rw [hMem]
    exact hM
  have hS' : (e.bankTaken bank).stack = e.stack := by
    unfold Dev.bankTaken at hS ⊢
    simp only [modStack_stack, modMem_stack] at hS ⊢
    rw [hStack]
    exact hS
  calc e.bankTaken bank = { e with mem := (e.bankTaken bank).mem, stack := (e.bankTaken bank).stack } := rfl
    _ = e := by rw [hM', hS']

/-- The decode never ends an access with OK. -/
theorem dsBar_ne_ok (d : Dev) (cls a : Nat) : d.dsBar cls a ≠ some dsOk := by
  unfold Dev.dsBar
  dsimp only
  cases d.dsTarget (dsOffset a) with
  | nowhere => exact fun h => absurd (Option.some.inj h) (by decide)
  | external v => exact Option.some_ne_none _ ∘ Eq.symm
  | memory =>
    dsimp only
    split
    · exact Option.some_ne_none _ ∘ Eq.symm
    · split <;> exact fun h => absurd (Option.some.inj h) (by decide)

/-- The line of an address that the decode lets pass lies somewhere. -/
theorem dsTarget_of_line {d : Dev} {cls a : Nat} (h : d.dsBar cls a = none) : d.dsTarget (dsOffset a / 64 * 64) ≠ .nowhere := by
  have hSome : d.dsTarget (dsOffset a) ≠ .nowhere := by
    intro hNo
    unfold Dev.dsBar at h
    dsimp only at h
    rw [hNo] at h
    cases h
  intro hNo
  unfold Dev.dsTarget at hSome hNo
  rw [extFirst] at hSome hNo
  split at hNo
  · cases hNo
  · split at hNo
    · cases hNo
    · rename_i hBelow hIn
      rw [if_neg (by omega), if_neg (by omega)] at hSome
      exact hSome rfl

section
variable {d e : Dev} (h : ConfigApart d e)
include h

/-- A good base-port read that leaves the machine as it is answers the same after such a change. -/
theorem ConfigApart.baseRead {u : BaseUser} {w : Nat} (hMeets : d.stack.meets = []) (hSame : (d.baseRead u w).1 = d)
    (hGood : dsOfMem (d.baseRead u w).2.1 = dsOk) : e.baseRead u w = (e, memOk, (d.baseRead u w).2.2) := by
  have hMem : e.mem = d.mem := h.parts .mem (by simp)
  have hStack : e.stack = d.stack := h.parts .stack (by simp)
  have hBarred : e.toBarred (d.toWord u w) = d.toBarred (d.toWord u w) := by
    unfold Dev.toBarred Dev.toWord
    dsimp only
    rw [if_neg Bool.false_ne_true, if_neg Bool.false_ne_true, h.baseBarred]
  have hD : d.baseRead u w = if d.toBarred (d.toWord u w) then (d, memRefused, 0) else
      (d.bankTaken (d.toWord u w).bank).readOver (d.toWord u w).word (d.toWord u w).place (d.toWord u w).src 0 :=
    readTo_nothing (.inl hMeets)
  have hE : e.baseRead u w = if e.toBarred (e.toWord u w) then (e, memRefused, 0) else
      (e.bankTaken (e.toWord u w).bank).readOver (e.toWord u w).word (e.toWord u w).place (e.toWord u w).src 0 :=
    readTo_nothing (.inl (by rw [hStack]; exact hMeets))
  rw [h.toWord] at hE
  generalize d.toWord u w = x at hD hE hBarred
  rw [hBarred] at hE
  cases hBar : d.toBarred x with
  | true =>
    rw [hD, hBar, if_pos rfl] at hGood
    exact absurd (show memRefused = memOk from dsOfMem_ok hGood) (by decide)
  | false =>
    rw [hBar, if_neg (by decide)] at hD hE
    have hOk : d.wordCheck x.place = memOk := by
      rw [hD, readOver_status, wordCheck_bankTaken] at hGood
      exact dsOfMem_ok hGood
    have hOk' : e.wordCheck x.place = memOk := by
      unfold Dev.wordCheck at hOk ⊢
      rw [hMem]
      exact hOk
    rw [readOver_good (d := d.bankTaken x.bank) hOk] at hD
    rw [readOver_good (d := e.bankTaken x.bank) hOk'] at hE
    rw [hD] at hSame ⊢
    rw [hE, bankTaken_same hSame hMem hStack, wordData_congr hMem]
    rfl

/-- So does a good read of a line of LPDDR5X. -/
theorem ConfigApart.extRead {cls k v : Nat} (hk : k < 16) (hGood : (d.extRead cls k v {}).2.1 = dsOk) :
    e.extRead cls k v {} = (e, dsOk, (d.extRead cls k v {}).2.2) := by
  have hExt : e.ext = d.ext := h.parts .ext (by simp)
  have hVerify : e.verify k v (e.extLine (v / 64)) = d.verify k v (d.extLine (v / 64)) := by
    unfold Dev.verify Dev.keys
    rw [extLine_congr hExt, hExt]
  have hWear (x : Dev) : x.wearLine (v / 64) {} = x := if_pos ⟨rfl, rfl⟩
  unfold Dev.extRead at hGood ⊢
  rw [h.extBar cls v hk]
  cases hBar : d.extBar cls k v with
  | some st =>
    rw [hBar] at hGood
    unfold Dev.extBar at hBar
    split at hBar
    · cases hBar
      exact absurd (show dsRefused = dsOk from hGood) (by decide)
    · split at hBar
      · cases hBar
        exact absurd (show dsKey = dsOk from hGood) (by decide)
      · cases hBar
  | none =>
    rw [hBar] at hGood
    dsimp only at hGood ⊢
    rw [hWear] at hGood
    rw [hWear, hWear, hVerify, hGood, if_neg (by decide), h.decrypt, extLine_congr hExt]
    rfl

/-- A good read of 32 bytes of data space that leaves the machine as it is answers the same after such a change. -/
theorem ConfigApart.dsRead32 {cls a : Nat} {w : RowWord} (hMeets : d.stack.meets = []) (hRead : d.dsRead32 cls a = (d, dsOk, w)) :
    e.dsRead32 cls a = (e, dsOk, w) := by
  cases hBar : d.dsBar cls a with
  | some st =>
    unfold Dev.dsRead32 Dev.dsRead at hRead
    dsimp only at hRead
    rw [hBar] at hRead
    have hSt : st = dsOk := congrArg (·.2.1) hRead
    subst hSt
    exact absurd hBar (dsBar_ne_ok d cls a)
  | none =>
    cases hTo : d.dsTarget (dsOffset a / 64 * 64) with
    | external v =>
      have hAt (x : Dev) (hb : x.dsBar cls a = none) (ht : x.dsTarget (dsOffset a / 64 * 64) = .external v) :
          x.dsRead32 cls a = ((x.extRead cls (dsKeyOf a) v {}).1, (x.extRead cls (dsKeyOf a) v {}).2.1,
            lineHalf (x.extRead cls (dsKeyOf a) v {}).2.2 (a / 32 % 2)) := by
        unfold Dev.dsRead32 Dev.dsRead
        dsimp only
        rw [hb]
        dsimp only
        rw [ht]
      have hk : dsKeyOf a < 16 := bitsOf_lt a 52 4
      rw [hAt d hBar hTo] at hRead
      have hGood : (d.extRead cls (dsKeyOf a) v {}).2.1 = dsOk := congrArg (·.2.1) hRead
      rw [hAt e (by rw [h.dsBar, hBar]) (by rw [h.dsTarget, hTo]), h.extRead hk hGood]
      exact congrArg (fun x => (e, dsOk, x)) (congrArg (·.2.2) hRead)
    | memory =>
      rw [dsRead32_memory hBar hTo] at hRead
      have hSame := congrArg (·.1) hRead
      have hGood := congrArg (·.2.1) hRead
      have hWord := congrArg (·.2.2) hRead
      dsimp only at hSame hGood hWord
      rw [dsRead32_memory (by rw [h.dsBar, hBar]) (by rw [h.dsTarget, hTo]), h.baseRead hMeets hSame hGood, hWord]
      rfl
    | nowhere =>
      exact absurd hTo (dsTarget_of_line hBar)

end

end Sys2Proof.Machine

/-! # Plate commands that pass their checks (R206 to R216) -/

namespace Sys2Proof.Machine

set_option Elab.async false

/-! ## Changes within the configuration controller -/

/-- Only plates and registers of the configuration controller differ. -/
structure InPlates (d e : Dev) : Prop where
  parts : OnlyParts [.regs, .plates] d e
  window : OnlyWindow configBase d e

theorem InPlates.refl (d : Dev) : InPlates d d := ⟨by simp, fun _ _ => rfl⟩

theorem InPlates.setFld {d e : Dev} (h : InPlates d e) {f : Fld} {n : Nat} (hf : f.off < 0x1000) : InPlates d (e.setFld configBase f n) := by
  refine ⟨by simpa using h.parts, fun a ha => ?_⟩
  rw [reg_setFld, if_neg (by omega)]
  exact h.window a ha

theorem InPlates.modPlates {d e : Dev} (h : InPlates d e) (f : PlateRec → PlateRec) : InPlates d (e.modPlates f) :=
  ⟨by simpa using h.parts, h.window⟩

theorem InPlates.each {α : Type} {d e : Dev} {l : List α} {f : Dev → α → Dev} (h : InPlates d e)
    (hStep : ∀ x g, g ∈ l → InPlates d x → InPlates d (f x g)) : InPlates d (e.each l f) := by
  induction l generalizing e with
  | nil => exact h
  | cons g gs ih => exact ih (hStep e g List.mem_cons_self h) fun x k hk => hStep x k (List.mem_cons_of_mem g hk)

theorem InPlates.setData {d e : Dev} (h : InPlates d e) (c : Option DataCmd) : InPlates d (e.setData c) :=
  (h.modPlates _).setFld (by decide)

theorem InPlates.beginFill {d e : Dev} (h : InPlates d e) (t : Fin 4) (n : Nat) : InPlates d (e.beginFill t n) := by
  have hInfo (f : Fld) (hf : f.off = 0x130) : (f.elem t.val).off < 0x1000 := by
    simp only [Fld.elem, hf]
    omega
  exact ((h.setFld (f := ⟨Reg.STAGE_STATE.off, 2 * t, 2⟩) (show 0x128 < 0x1000 by decide)).setFld (hInfo _ rfl)).setFld (hInfo _ rfl)

/-! ## A command for each group of the mask -/

theorem mem_maskGroups {m g : Nat} : g ∈ maskGroups m ↔ g < 16 ∧ bitOf m g = true := by
  simp [maskGroups, List.mem_filter]

/-- What one step sets up for its element, and the other steps leave, holds for each element in the end. -/
theorem each_sets {α : Type} {l : List α} {f : Dev → α → Dev} {I : Dev → Prop} {R : α → Dev → Prop} {d : Dev} (hI : I d)
    (hStep : ∀ x g, g ∈ l → I x → I (f x g) ∧ R g (f x g)) (hKeep : ∀ x g k, g ∈ l → k ∈ l → I x → R k x → R k (f x g)) :
    I (d.each l f) ∧ ∀ g ∈ l, R g (d.each l f) := by
  induction l generalizing d with
  | nil => exact ⟨hI, fun g hg => absurd hg List.not_mem_nil⟩
  | cons k ks ih =>
    obtain ⟨hNext, hSet⟩ := hStep d k List.mem_cons_self hI
    obtain ⟨hEnd, hAll⟩ := ih hNext (fun x g hg => hStep x g (List.mem_cons_of_mem k hg))
      fun x g j hg hj => hKeep x g j (List.mem_cons_of_mem k hg) (List.mem_cons_of_mem k hj)
    refine ⟨hEnd, fun g hg => ?_⟩
    obtain rfl | hg := List.mem_cons.mp hg
    · have hStays (m : List α) (hm : ∀ y ∈ m, y ∈ ks) (x : Dev) (hx : I x) (hr : R g x) : R g (x.each m f) := by
        induction m generalizing x with
        | nil => exact hr
        | cons y ys ihm =>
          have hy := List.mem_cons_of_mem g (hm y List.mem_cons_self)
          exact ihm (fun z hz => hm z (List.mem_cons_of_mem y hz)) _ (hStep x y hy hx).1
            (hKeep x y g hy List.mem_cons_self hx hr)
      exact hStays ks (fun _ hy => hy) _ hNext hSet
    · exact hAll g hg

/-! ## The PCMD word -/

/-- Where PCMD holds a command, and nothing else has changed. -/
structure PcmdHeld (op plate : Nat) (t p : Fin 4) (d x : Dev) : Prop where
  parts : OnlyParts [.regs] d x
  regs : OnlyRegs [configBase + Reg.PCMD.off] d x
  op : x.fld configBase Reg.PCMD.OP = op
  plate : x.fld configBase Reg.PCMD.PLATE = plate
  stage : x.fld configBase Reg.PCMD.STAGE_SLOT = t
  slot : x.fld configBase Reg.PCMD.PLATE_SLOT = p

theorem pcmd_row : unitAt (configBase + Reg.PCMD.off) = some (unitOf configBase) ∧
    ((unitOf configBase).rowAt (configBase + Reg.PCMD.off - (unitOf configBase).base)).map (·.rw) = some 0xFFF33 := by decide +kernel

theorem presented_config (d : Dev) (off : Nat) : d.presented (unitOf configBase) off = some (2 ^ 32 - 1) := by
  have hLayout (major : Nat) : olderLayout (unitOf configBase) major = [] := by
    have hBlk : (unitOf configBase).blk = .config := by decide
    unfold olderLayout
    split
    · rfl
    · rw [hBlk]
  unfold Dev.presented
  rw [hLayout]
  rfl

theorem pcmdWord_fields {op : Nat} (hOp : op < 8) (plate : Byte) (t p : Fin 4) :
    fget (pcmdWord op plate t p) Reg.PCMD.OP = op ∧ fget (pcmdWord op plate t p) Reg.PCMD.PLATE = plate.toNat ∧
    fget (pcmdWord op plate t p) Reg.PCMD.STAGE_SLOT = t ∧ fget (pcmdWord op plate t p) Reg.PCMD.PLATE_SLOT = p ∧
    fget (pcmdWord op plate t p) Reg.PCMD.GO = 1 := by
  have hPlate := plate.isLt
  simp only [fget, pcmdWord, bitsOf, Reg.PCMD.OP, Reg.PCMD.PLATE, Reg.PCMD.STAGE_SLOT, Reg.PCMD.PLATE_SLOT, Reg.PCMD.GO, BitVec.toNat_ofNat,
    Nat.shiftRight_eq_div_pow]
  omega

theorem held_store (d : Dev) {op : Nat} (hOp : op < 8) (plate : Byte) (t p : Fin 4) :
    PcmdHeld op plate.toNat t p d (d.storeRw (configBase + Reg.PCMD.off) (pcmdWord op plate t p)) := by
  obtain ⟨hUnit, hRow⟩ := pcmd_row
  obtain ⟨row, hAt, hRw⟩ := Option.map_eq_some_iff.mp hRow
  obtain ⟨hOpF, hPlateF, hStageF, hSlotF, -⟩ := pcmdWord_fields hOp plate t p
  rw [storeRw_row (m := 0xFFF33) hUnit hAt (by rw [presented_config, hRw]; decide)]
  generalize pcmdWord op plate t p = w at hOpF hPlateF hStageF hSlotF
  have hGet (f : Fld) (hf : f.off = Reg.PCMD.off) (hBits : ∀ i < f.width, (0xFFF33 : Word).getLsbD (f.lo + i) = true) :
      (d.setReg (configBase + Reg.PCMD.off) ((d.reg (configBase + Reg.PCMD.off) &&& ~~~(0xFFF33 : Word)) ||| (w &&& 0xFFF33))).fld configBase f =
        fget w f := by
    rw [Dev.fld, hf, reg_setReg, if_pos rfl, fget_masked hBits]
  exact ⟨by simp, by simp, (hGet _ rfl (by decide)).trans hOpF, (hGet _ rfl (by decide)).trans hPlateF,
    (hGet _ rfl (by decide)).trans hStageF, (hGet _ rfl (by decide)).trans hSlotF⟩

section
variable {op plate : Nat} {t p : Fin 4} {d x : Dev} (h : PcmdHeld op plate t p d x)
include h

theorem PcmdHeld.reg_eq {a : Nat} (ha : a ≠ 0x40104) : x.reg a = d.reg a :=
  h.regs a fun hm => ha (List.mem_singleton.mp hm)

theorem PcmdHeld.fld_eq {b : Nat} {f : Fld} (hf : b + f.off ≠ 0x40104) : x.fld b f = d.fld b f := by
  rw [Dev.fld, h.reg_eq hf, Dev.fld]

theorem PcmdHeld.ust_eq {b : Nat} (hb : b + Reg.STATE.SELF.off ≠ 0x40104) : x.ust b = d.ust b := by
  rw [Dev.ust, h.fld_eq hb, Dev.ust]

theorem PcmdHeld.mask : x.pcmdMask = d.pcmdMask := h.fld_eq (by decide)

theorem PcmdHeld.plates : x.plates = d.plates := h.parts .plates (by simp)

theorem PcmdHeld.stack : x.stack = d.stack := h.parts .stack (by simp)

theorem PcmdHeld.stageSt (k : Nat) : x.stageSt k = d.stageSt k := h.fld_eq (show 0x40000 + 0x128 ≠ 0x40104 by decide)

theorem PcmdHeld.stageAt {k : Nat} {f : Fld} (hf : f.off = 0x130) : x.fldAt configBase f k = d.fldAt configBase f k := by
  refine h.fld_eq ?_
  simp only [Fld.elem, hf, configBase]
  omega

theorem PcmdHeld.pslot (g k : Nat) : x.pslot g k = d.pslot g k := by
  refine h.fld_eq ?_
  simp only [configBase, Reg.PSLOT_G.off]
  omega

theorem PcmdHeld.pslotPlate (g k : Nat) : x.pslotPlate g k = d.pslotPlate g k := by
  refine h.fld_eq ?_
  simp only [configBase, Reg.PSLOT_ID_G.off]
  omega

theorem PcmdHeld.reloadReads (k : Nat) : x.reloadReads k = d.reloadReads k := by
  have hSource (g s : Nat) : x.reloadSource g s = d.reloadSource g s := by
    unfold Dev.reloadSource Dev.stagePlate Dev.stageValid
    simp only [h.stageSt, h.pslotPlate, h.stageAt (f := Reg.STAGE_INFO.PLATE) rfl, h.stageAt (f := Reg.STAGE_INFO.VALID) rfl]
  unfold Dev.reloadReads
  simp only [hSource, h.plates]

theorem PcmdHeld.inForce (g k : Nat) : x.inForce g k = d.inForce g k := by
  have hLast : x.fldAt configBase Reg.PSLOT_G.IN_FORCE g = d.fldAt configBase Reg.PSLOT_G.IN_FORCE g := by
    refine h.fld_eq ?_
    simp only [Fld.elem, configBase, Reg.PSLOT_G.IN_FORCE]
    omega
  unfold Dev.inForce Dev.forceList
  rw [hLast, h.plates]

theorem PcmdHeld.switchTarget : x.switchTarget = d.switchTarget := by
  unfold Dev.switchTarget
  rw [h.reg_eq (by decide), h.fld_eq (by decide)]

theorem PcmdHeld.targetOk (n : Nat) : x.targetOk n = d.targetOk n := by
  unfold Dev.targetOk Dev.now
  rw [h.parts .keeper (by simp)]

theorem PcmdHeld.slotUsable (g k : Nat) : x.slotUsable g k = d.slotUsable g k := by
  have hBits (n s : Nat) : x.tileBits n s = d.tileBits n s := by
    unfold Dev.tileBits Dev.frameActs
    rw [h.plates]
  have hDead (c s : Nat) : x.usesDead c s = d.usesDead c s := by
    unfold Dev.usesDead Dev.slotBlank Dev.owner
    simp only [hBits, h.plates, h.stack]
  unfold Dev.slotUsable
  simp only [h.pslot, hDead]

theorem PcmdHeld.groupFaulted (g : Nat) : x.groupFaulted g = d.groupFaulted g := by
  have hUst (l c : Nat) : x.ust (columnBase l c) = d.ust (columnBase l c) := by
    refine h.ust_eq ?_
    simp only [columnBase, Reg.STATE.SELF]
    omega
  unfold Dev.groupFaulted Dev.fenced
  simp only [hUst, h.stack]

theorem PcmdHeld.fastFabric : x.fastFabric = d.fastFabric := by
  unfold Dev.fastFabric Dev.fabricKHz
  rw [h.fld_eq (by decide), h.parts .clk (by simp)]

theorem PcmdHeld.holdRefused (g : Nat) : x.holdRefused g = d.holdRefused g := by
  unfold Dev.holdRefused
  rw [h.fastFabric, h.fld_eq (by decide), h.parts .strike (by simp)]

theorem PcmdHeld.cycleList : x.cycleList = d.cycleList := by
  unfold Dev.cycleList Dev.flag
  rw [h.fld_eq (by decide), h.fld_eq (by decide)]

theorem PcmdHeld.runs (hRun : d.runs configBase = true) : x.runs configBase = true := by
  unfold Dev.runs at hRun ⊢
  rw [h.ust_eq (by decide)]
  exact hRun

theorem PcmdHeld.apart : ConfigApart d x := by
  refine ⟨h.parts, fun a ha => h.reg_eq ?_⟩
  rintro rfl
  exact ha (by decide)

end

/-! ## The command that PCMD holds -/

/-- A command whose every group passes is performed, and STATUS is OK. -/
theorem checked_passes {d : Dev} {check : Nat → Nat} (run : Dev → Dev) (h : ∀ g ∈ maskGroups d.pcmdMask, check g = pstOk) :
    d.checked check run = (run d).pcmdStatus pstOk 0 := by
  have hNone : (maskGroups d.pcmdMask).find? (fun g => check g != pstOk) = none := by
    refine List.find?_eq_none.mpr fun g hg => ?_
    rw [h g hg]
    decide
  unfold Dev.checked
  rw [hNone]

/-- The machine after a command shows what the command left. -/
structure Shown (y e : Dev) : Prop where
  plates : e.plates = y.plates
  fld : ∀ f : Fld, f.off ≠ 0x10C → e.fld configBase f = y.fld configBase f
  busy : e.fld configBase Reg.PCMD_STATUS.DATA_BUSY = y.fld configBase Reg.PCMD_STATUS.DATA_BUSY

theorem shown_status (y : Dev) (path : Nat) : Shown y ((y.pcmdStatus pstOk 0).finish path stOk 0) := by
  refine ⟨rfl, fun f hf => ?_, ?_⟩
  · rw [fld_finish, Dev.pcmdStatus, fld_setFld_off hf rfl, fld_setFld_off hf rfl]
  · rw [fld_finish, Dev.pcmdStatus, fld_setFld_clear (by decide), fld_setFld_clear (by decide)]

section
variable {s : State} {path : Fin 8} {t p : Fin 4} (hq : s.dev.quiet = true) (hReach : s.dev.reached path (configBase + Reg.PCMD.off) = true)
include hq hReach

/-- A plate command that is performed leaves what it did, STATUS OK, and nothing outside the configuration controller changed. -/
theorem pcmd_completes {c : Instr} {op : Nat} {plate : Byte} {Q : Dev → Prop}
    (he : exec c s = onDev (fun d => d.pcmdBy path (pcmdWord op plate t p)) s) (hOp : op < 8)
    (hCmd : ∀ x, PcmdHeld op plate.toNat t p s.dev x → ∃ y, x.pcmdGo = y.pcmdStatus pstOk 0 ∧ InPlates x y ∧ ∀ e, Shown y e → Q e) :
    Completes c s fun e => Q e ∧ e.fld configBase Reg.PCMD_STATUS.STATUS = pstOk ∧ e.answered path stOk 0 ∧ OnlyWindow configBase s.dev e ∧
      OnlyParts [.regs, .ctl, .plates] s.dev e := by
  obtain ⟨y, hGo, hIn, hQ⟩ := hCmd _ (held_store s.dev hOp plate t p)
  have hHeld := held_store s.dev hOp plate t p
  have hWrite : s.dev.pcmdWrite (pcmdWord op plate t p) = y.pcmdStatus pstOk 0 := by
    unfold Dev.pcmdWrite
    obtain ⟨-, -, -, -, hGoF⟩ := pcmdWord_fields hOp plate t p
    rw [hGoF]
    exact (if_pos rfl).trans hGo
  generalize s.dev.storeRw (configBase + Reg.PCMD.off) (pcmdWord op plate t p) = x at hIn hHeld
  have hStatus : InPlates x (y.pcmdStatus pstOk 0) := (hIn.setFld (by decide)).setFld (by decide)
  have hParts : OnlyParts [.regs, .plates] s.dev (y.pcmdStatus pstOk 0) :=
    (hHeld.parts.mono (by simp)).trans hStatus.parts
  have hWindow : OnlyWindow configBase s.dev (y.pcmdStatus pstOk 0) :=
    fun a ha => (hStatus.window a ha).trans (hHeld.apart.window a ha)
  refine completes_viaWord (f := fun d => d.pcmdWrite (pcmdWord op plate t p)) he hReach ?_ ?_ <;> rw [hWrite]
  · rw [quiet_congr (hParts .kryup (by simp)) (hParts .clk (by simp)) (hWindow _ (by decide)) (by rw [hParts .stack (by simp)]), hq]
  · refine ⟨hQ _ (shown_status y path), ?_, finish_answered .., hWindow, ?_⟩
    · rw [fld_finish, Dev.pcmdStatus, fld_setFld_clear (by decide), fld_setFld_same (by decide)]
      rfl
    · exact (onlyParts_finish _ _ _ _ (by simp)).mpr (hParts.mono (by simp))

end

end Sys2Proof.Machine

/-! # The seven plate commands (R206 to R216) -/

namespace Sys2Proof.Machine

set_option Elab.async false

/-- The command of an OP code. -/
def Dev.pcmdRun (d : Dev) (op t p : Nat) : Dev :=
  match op with
  | 1 => d.cmdFillLp t
  | 2 => d.cmdFillStream t
  | 3 => d.cmdStage t p
  | 4 => d.cmdSwitch p
  | 5 => d.cmdCycle
  | 6 => d.cmdCancel
  | 7 => d.cmdClear p
  | _ => d.pcmdStatus pstBadArg ((maskGroups d.pcmdMask).headD 0)

theorem pcmdGo_held {op plate : Nat} {t p : Fin 4} {d x : Dev} (h : PcmdHeld op plate t p d x) (hRun : d.runs configBase = true)
    (hArg : op = 2 ∨ d.pcmdMask ≠ 0) : x.pcmdGo = x.pcmdRun op t p := by
  unfold Dev.pcmdGo Dev.pcmdRun
  rw [h.op, h.stage, h.slot, h.runs hRun, h.mask]
  dsimp only
  rw [if_neg (by decide), if_neg (by tauto)] <;> rfl

/-! ## Fills -/

theorem stageField_fits : ∀ t : Fin 4, (⟨Reg.STAGE_STATE.off, 2 * t.val, 2⟩ : Fld).fits := by decide

theorem stageInfo_off (t : Nat) {f : Fld} (hf : f.off = 0x130) : (f.elem t).off ≠ 0x10C ∧ (f.elem t).off ≠ 0x128 := by
  simp only [Fld.elem, hf]
  omega

/-- A stage slot that is cleared and filling, with the data command that fills it. -/
theorem beginFill_shows (x : Dev) (t : Fin 4) (n : Nat) (c : DataCmd) :
    ((x.beginFill t n).setData (some c)).stageSt t = stageFilling ∧ ((x.beginFill t n).setData (some c)).stageValid t = 0 ∧
    ((x.beginFill t n).setData (some c)).plates.dataCmd = some c ∧
    ((x.beginFill t n).setData (some c)).fld configBase Reg.PCMD_STATUS.DATA_BUSY = 1 := by
  refine ⟨?_, ?_, rfl, ?_⟩
  · unfold Dev.setData Dev.beginFill Dev.setStageInfo Dev.setStage Dev.stageSt
    rw [fld_setFld_off (show 0x128 ≠ 0x10C by decide) rfl, fld_modPlates, fld_setFld_off (stageInfo_off t (f := Reg.STAGE_INFO.VALID) rfl).2.symm rfl,
      fld_setFld_off (stageInfo_off t (f := Reg.STAGE_INFO.PLATE) rfl).2.symm rfl, fld_setFld_same (stageField_fits t)]
    rfl
  · unfold Dev.setData Dev.beginFill Dev.setStageInfo Dev.stageValid Dev.fldAt
    rw [fld_setFld_off (stageInfo_off t rfl).1 rfl, fld_modPlates,
      fld_setFld_same (show (Reg.STAGE_INFO.VALID.elem t).fits from (by decide : Reg.STAGE_INFO.VALID.fits = true))]
    rfl
  · unfold Dev.setData
    rw [fld_setFld_same (by decide)]
    rfl

/-- FILL_LP with the address of its store. -/
def Dev.fillFrom (d : Dev) (slot base : Nat) : Dev :=
  if d.dataBusy then d.pcmdStatus pstBusy ((maskGroups d.pcmdMask).headD 0)
  else if d.reloadReads slot then d.pcmdStatus pstSlotState ((maskGroups d.pcmdMask).headD 0)
  else
    let (d, st, w) := d.dsRead32 clsConfig base
    let plate := d.fld configBase Reg.PCMD.PLATE
    let ok := dsDone st && bitsOf w.toNat 0 8 == plate
    d.checked (fun g => if ok && bitOf w.toNat (16 + g) then pstOk else pstNotReady) fun d =>
      (d.beginFill slot plate).setData (some (.fillLp slot d.pcmdMask base))

theorem cmdFillLp_eq (d : Dev) (slot : Nat) : d.cmdFillLp slot = d.fillFrom slot
    ((d.reg (configBase + Reg.STAGE_SRC_LO.off)).toNat / 2 ^ 12 * 2 ^ 12 + d.fld configBase Reg.STAGE_SRC_HI.ADDR_HI * 2 ^ 32) := rfl

/-- FILL_LP of a store whose first word is read well checks each group against that word. -/
theorem fillFrom_reads {d : Dev} {slot base : Nat} {w : RowWord} (hFree : d.plates.dataCmd = none) (hReads : d.reloadReads slot = false)
    (hRead : d.dsRead32 clsConfig base = (d, dsOk, w)) :
    d.fillFrom slot base = d.checked (fun g => if (dsDone dsOk && bitsOf w.toNat 0 8 == d.fld configBase Reg.PCMD.PLATE) && bitOf w.toNat (16 + g) then pstOk else pstNotReady)
      fun x => (x.beginFill slot (d.fld configBase Reg.PCMD.PLATE)).setData (some (.fillLp slot x.pcmdMask base)) := by
  have hBusy : ¬d.dataBusy = true := by
    unfold Dev.dataBusy
    rw [hFree]
    exact Bool.false_ne_true
  have hClear : ¬d.reloadReads slot = true := by
    rw [hReads]
    exact Bool.false_ne_true
  unfold Dev.fillFrom
  rw [if_neg hBusy, if_neg hClear, hRead]

/-- What a machine shows after a fill has begun. -/
def Filling (t : Fin 4) (c : DataCmd) (e : Dev) : Prop :=
  e.stageSt t = stageFilling ∧ e.stageValid t = 0 ∧ e.plates.dataCmd = some c ∧ e.fld configBase Reg.PCMD_STATUS.DATA_BUSY = 1

theorem filling_shown {x e : Dev} {t : Fin 4} {n : Nat} {c : DataCmd} (hPlates : e.plates.dataCmd = some c)
    (hFld : ∀ f : Fld, f.off ≠ 0x10C → e.fld configBase f = ((x.beginFill t n).setData (some c)).fld configBase f)
    (hBusy : e.fld configBase Reg.PCMD_STATUS.DATA_BUSY = ((x.beginFill t n).setData (some c)).fld configBase Reg.PCMD_STATUS.DATA_BUSY) :
    Filling t c e := by
  obtain ⟨hSt, hValid, -, hRuns⟩ := beginFill_shows x t n c
  generalize (x.beginFill t n).setData (some c) = y at hFld hBusy hSt hValid hRuns
  have hState : (⟨Reg.STAGE_STATE.off, 2 * t.val, 2⟩ : Fld).off ≠ 0x10C := show Reg.STAGE_STATE.off ≠ 0x10C by decide
  exact ⟨(hFld _ hState).trans hSt, (hFld _ (stageInfo_off t rfl).1).trans hValid, hPlates, hBusy.trans hRuns⟩

section
variable {s : State} {path : Fin 8} {plate : Byte} {t p : Fin 4} (hq : s.dev.quiet = true)
  (hReach : s.dev.reached path (configBase + Reg.PCMD.off) = true) (hRun : s.dev.runs configBase = true)
include hq hReach hRun

theorem fillLp_accepted {w : RowWord} {base : Nat} (hFree : s.dev.plates.dataCmd = none) (hReads : s.dev.reloadReads t = false)
    (hMask : s.dev.pcmdMask ≠ 0)
    (hBase : base = (s.dev.reg (configBase + Reg.STAGE_SRC_LO.off)).toNat / 2 ^ 12 * 2 ^ 12 + s.dev.fld configBase Reg.STAGE_SRC_HI.ADDR_HI * 2 ^ 32)
    (hRead : s.dev.dsRead32 clsConfig base = (s.dev, dsOk, w)) (hPlate : bitsOf w.toNat 0 8 = plate.toNat)
    (hGroups : ∀ g ∈ maskGroups s.dev.pcmdMask, bitOf w.toNat (16 + g) = true) :
    Completes (.fillLp path plate t p) s fun e => Filling t (.fillLp t s.dev.pcmdMask base) e ∧
      e.fld configBase Reg.PCMD_STATUS.STATUS = pstOk ∧ e.answered path stOk 0 ∧ OnlyWindow configBase s.dev e ∧
      OnlyParts [.regs, .ctl, .plates] s.dev e := by
  obtain ⟨-, -, -, -, hMeets⟩ := s.dev.quiet_iff.mp hq
  refine pcmd_completes (op := 1) (plate := plate) (t := t) (p := p) hq hReach rfl (by decide) fun x hx => ?_
  refine ⟨(x.beginFill t plate.toNat).setData (some (.fillLp t s.dev.pcmdMask base)), ?_, ((InPlates.refl x).beginFill t _).setData _,
    fun e hS => filling_shown (x := x) (n := plate.toNat) (by rw [hS.plates]; exact (beginFill_shows ..).2.2.1) hS.fld hS.busy⟩
  have hCmd : x.cmdFillLp t = x.fillFrom t base := by
    rw [cmdFillLp_eq, hx.reg_eq (by decide), hx.fld_eq (by decide), ← hBase]
  rw [fillFrom_reads (w := w) (hx.plates ▸ hFree) ((hx.reloadReads t).trans hReads) (hx.apart.dsRead32 hMeets hRead), hx.plate] at hCmd
  rw [pcmdGo_held hx hRun (.inr hMask)]
  refine Eq.trans hCmd ?_
  rw [checked_passes _ fun g hg => ?_, hx.mask]
  rw [hPlate, hGroups g (hx.mask ▸ hg)]
  simp [dsDone]

theorem fillStream_accepted (hFree : s.dev.plates.dataCmd = none) (hReads : s.dev.reloadReads t = false) :
    Completes (.fillStream path plate t p) s fun e => Filling t (.fillStream t) e ∧
      e.fld configBase Reg.PCMD_STATUS.STATUS = pstOk ∧ e.answered path stOk 0 ∧ OnlyWindow configBase s.dev e ∧
      OnlyParts [.regs, .ctl, .plates] s.dev e := by
  refine pcmd_completes (op := 2) (plate := plate) (t := t) (p := p) hq hReach rfl (by decide) fun x hx => ?_
  refine ⟨((x.beginFill t 0).setData (some (.fillStream t))).modPlates fun q => { q with stream := [] }, ?_,
    (((InPlates.refl x).beginFill t _).setData _).modPlates _,
    fun e hS => filling_shown (x := x) (n := 0) (by rw [hS.plates]; rfl)
      (fun f hf => by rw [hS.fld f hf, fld_modPlates]) (by rw [hS.busy, fld_modPlates])⟩
  rw [pcmdGo_held hx hRun (.inl rfl)]
  show x.cmdFillStream t = _
  unfold Dev.cmdFillStream Dev.dataBusy
  rw [hx.plates, hFree, hx.reloadReads, hReads, if_neg (by decide), if_neg (by decide)]

end

/-! ## Plate slots -/

theorem slotField_fits : ∀ p : Fin 4, ∀ g : Nat, (⟨Reg.PSLOT_G.off + 4 * g, 4 * p.val, 3⟩ : Fld).fits ∧
    (⟨Reg.PSLOT_ID_G.off + 4 * g, 8 * p.val, 8⟩ : Fld).fits := by
  intro p g
  simp only [Fld.fits, decide_eq_true_eq]
  omega

theorem pslot_setPslot (z : Dev) (p : Fin 4) (g k st : Nat) : (z.setPslot g p st).pslot k p = if k = g then st % 8 else z.pslot k p := by
  unfold Dev.pslot Dev.setPslot
  split
  · next h =>
    rw [h, fld_setFld_same (slotField_fits p g).1]
    rfl
  · next h =>
    refine fld_setFld_other ?_
    simp only [Reg.PSLOT_G.off]
    omega

theorem pslotPlate_setPslotPlate (z : Dev) (p : Fin 4) (g k n : Nat) :
    (z.setPslotPlate g p n).pslotPlate k p = if k = g then n % 256 else z.pslotPlate k p := by
  unfold Dev.pslotPlate Dev.setPslotPlate
  split
  · next h =>
    rw [h, fld_setFld_same (slotField_fits p g).2]
    rfl
  · next h =>
    refine fld_setFld_other ?_
    simp only [Reg.PSLOT_ID_G.off]
    omega

theorem pslot_setPslotPlate (z : Dev) (p q : Nat) {g k : Nat} (hk : k < 16) (n : Nat) : (z.setPslotPlate g p n).pslot k q = z.pslot k q := by
  refine fld_setFld_other ?_
  simp only [Reg.PSLOT_ID_G.off, Reg.PSLOT_G.off]
  omega

theorem pslotPlate_setPslot (z : Dev) (p q : Nat) {g k : Nat} (hg : g < 16) (n : Nat) : (z.setPslot g p n).pslotPlate k q = z.pslotPlate k q := by
  refine fld_setFld_other ?_
  simp only [Reg.PSLOT_ID_G.off, Reg.PSLOT_G.off]
  omega

theorem InPlates.setPslot {d e : Dev} (h : InPlates d e) {g p n : Nat} (hg : g < 16) : InPlates d (e.setPslot g p n) := by
  refine h.setFld ?_
  simp only [Reg.PSLOT_G.off]
  omega

theorem InPlates.setPslotPlate {d e : Dev} (h : InPlates d e) {g p n : Nat} (hg : g < 16) : InPlates d (e.setPslotPlate g p n) := by
  refine h.setFld ?_
  simp only [Reg.PSLOT_ID_G.off]
  omega

theorem lt_of_mem_maskGroups {m g : Nat} (h : g ∈ maskGroups m) : g < 16 := (mem_maskGroups.mp h).1

theorem slot_off {g : Nat} (n w : Nat) : (⟨Reg.PSLOT_G.off + 4 * g, n, w⟩ : Fld).off ≠ 0x10C ∧ (⟨Reg.PSLOT_ID_G.off + 4 * g, n, w⟩ : Fld).off ≠ 0x10C := by
  simp only [Reg.PSLOT_G.off, Reg.PSLOT_ID_G.off]
  omega

/-- STAGE for one group (R212). -/
def Dev.stageGroup (d : Dev) (p plate g : Nat) : Dev := (d.setPslot g p slotLoading).setPslotPlate g p plate

theorem stageGroups_leave (x : Dev) (p : Fin 4) {plate : Nat} (hPlate : plate < 256) (m : Nat) :
    (InPlates x (x.each (maskGroups m) fun z g => z.stageGroup p plate g) ∧ (x.each (maskGroups m) fun z g => z.stageGroup p plate g).plates = x.plates) ∧
    ∀ g ∈ maskGroups m, (x.each (maskGroups m) fun z g => z.stageGroup p plate g).pslot g p = slotLoading ∧
      (x.each (maskGroups m) fun z g => z.stageGroup p plate g).pslotPlate g p = plate := by
  refine each_sets (I := fun z => InPlates x z ∧ z.plates = x.plates) (R := fun g z => z.pslot g p = slotLoading ∧ z.pslotPlate g p = plate)
    ⟨InPlates.refl x, rfl⟩ (fun z g hg hI => ?_) fun z g k hg hk _ hR => ?_
  · have hg16 := lt_of_mem_maskGroups hg
    refine ⟨⟨(hI.1.setPslot hg16).setPslotPlate hg16, hI.2⟩, ?_, ?_⟩ <;> unfold Dev.stageGroup
    · rw [pslot_setPslotPlate _ _ _ hg16, pslot_setPslot, if_pos rfl]
      rfl
    · rw [pslotPlate_setPslotPlate, if_pos rfl, Nat.mod_eq_of_lt hPlate]
  · obtain ⟨hState, hShown⟩ := hR
    unfold Dev.stageGroup
    rw [pslot_setPslotPlate _ _ _ (lt_of_mem_maskGroups hk), pslot_setPslot, pslotPlate_setPslotPlate, pslotPlate_setPslot _ _ _ (lt_of_mem_maskGroups hg)]
    refine ⟨?_, ?_⟩ <;> split
    · rfl
    · exact hState
    · exact Nat.mod_eq_of_lt hPlate
    · exact hShown

/-- CLEAR for one group (R215). -/
def Dev.clearGroup (d : Dev) (p g : Nat) : Dev :=
  if d.pslot g p = slotFaulted then (d.setPslot g p slotEmpty).conflictEnds g p else d

/-- What CLEAR makes of a slot's state. -/
def clearedSlot (st : Nat) : Nat := if st = slotFaulted then slotEmpty else st

theorem clearGroup_pslot (z : Dev) (p : Fin 4) (g k : Nat) :
    (z.clearGroup p g).pslot k p = if k = g then clearedSlot (z.pslot k p) else z.pslot k p := by
  have hFld (y : Dev) (f : PlateRec → PlateRec) : (y.modPlates f).pslot k p = y.pslot k p := rfl
  unfold Dev.clearGroup Dev.conflictEnds clearedSlot
  by_cases hk : k = g
  · subst hk
    rw [if_pos rfl]
    split
    · rw [hFld, pslot_setPslot, if_pos rfl]
      rfl
    · rfl
  · rw [if_neg hk]
    split
    · rw [hFld, pslot_setPslot, if_neg hk]
    · rfl

theorem clearedSlot_idem (st : Nat) : clearedSlot (clearedSlot st) = clearedSlot st := by
  by_cases h : st = slotFaulted
  · rw [h]
    decide
  · have hKept : clearedSlot st = st := if_neg h
    rw [hKept, hKept]

theorem clearGroups_leave (x : Dev) (p : Fin 4) (m : Nat) :
    InPlates x (x.each (maskGroups m) fun z g => z.clearGroup p g) ∧
    ∀ g ∈ maskGroups m, (x.each (maskGroups m) fun z g => z.clearGroup p g).pslot g p = clearedSlot (x.pslot g p) := by
  refine (each_sets (l := maskGroups m) (f := fun z g => Dev.clearGroup z p g) (d := x)
    (I := fun z => InPlates x z ∧ ∀ g, clearedSlot (z.pslot g p) = clearedSlot (x.pslot g p))
    (R := fun g z => z.pslot g p = clearedSlot (x.pslot g p)) ⟨InPlates.refl x, fun _ => rfl⟩ (fun z g hg hI => ?_)
    fun z g k _ _ _ hR => ?_).imp And.left id
  · refine ⟨⟨?_, fun k => ?_⟩, ?_⟩
    · unfold Dev.clearGroup Dev.conflictEnds
      split
      · exact (hI.1.setPslot (lt_of_mem_maskGroups hg)).modPlates _
      · exact hI.1
    · rw [clearGroup_pslot]
      split
      · rw [clearedSlot_idem, hI.2]
      · exact hI.2 k
    · rw [clearGroup_pslot, if_pos rfl, hI.2]
  · rw [clearGroup_pslot, hR]
    split
    · exact clearedSlot_idem _
    · rfl

/-! ## Pending switches -/

theorem pendField (g k : Nat) : (Reg.PSLOT_G.PENDING.elem g).fits ∧ (Reg.PSLOT_G.PENDING.elem g).off ≠ 0x10C ∧
    (k ≠ g → (Reg.PSLOT_G.PENDING.elem k).off ≠ (Reg.PSLOT_G.PENDING.elem g).off) := by
  refine ⟨show Reg.PSLOT_G.PENDING.fits from by decide, ?_, ?_⟩ <;> simp only [Fld.elem, Reg.PSLOT_G.PENDING] <;> omega

theorem fldAt_setPending (z : Dev) (g k : Nat) {n : Nat} (hn : n < 2) :
    (z.setFld configBase (Reg.PSLOT_G.PENDING.elem g) n).fldAt configBase Reg.PSLOT_G.PENDING k =
      if k = g then n else z.fldAt configBase Reg.PSLOT_G.PENDING k := by
  unfold Dev.fldAt
  split
  · next h =>
    rw [h, fld_setFld_same (pendField g g).1]
    exact Nat.mod_eq_of_lt hn
  · next h => exact fld_setFld_off ((pendField g k).2.2 h) rfl

theorem InPlates.setPending {d e : Dev} (h : InPlates d e) {g n : Nat} (hg : g < 16) :
    InPlates d (e.setFld configBase (Reg.PSLOT_G.PENDING.elem g) n) := by
  refine h.setFld ?_
  simp only [Fld.elem, Reg.PSLOT_G.PENDING]
  omega

theorem pend_leaves (x : Dev) (q : PendSwitch) : InPlates x (x.pend q) ∧
    ∀ g ∈ maskGroups x.pcmdMask, (x.pend q).plates.pending.look g = some q ∧ (x.pend q).fldAt configBase Reg.PSLOT_G.PENDING g = 1 := by
  refine each_sets (I := InPlates x) (R := fun g z => z.plates.pending.look g = some q ∧ z.fldAt configBase Reg.PSLOT_G.PENDING g = 1)
    (InPlates.refl x) (fun z g hg hI => ?_) fun z g k _ _ _ hR => ?_
  · refine ⟨(hI.modPlates _).setPending (lt_of_mem_maskGroups hg), SMap.look_put_same .., ?_⟩
    rw [fldAt_setPending _ _ _ (by decide), if_pos rfl]
  · obtain ⟨hLook, hShown⟩ := hR
    refine ⟨?_, ?_⟩
    · rw [setFld_plates, modPlates_plates]
      by_cases hk : k = g
      · rw [hk]
        exact SMap.look_put_same ..
      · exact (SMap.look_put_other _ hk _).trans hLook
    · rw [fldAt_setPending _ _ _ (by decide)]
      split
      · rfl
      · exact hShown

theorem unpend_look (l : List Nat) (x : Dev) (g : Nat) :
    (x.each l Dev.unpend).plates.pending.look g = if g ∈ l then none else x.plates.pending.look g := by
  induction l generalizing x with
  | nil => rfl
  | cons k ks ih =>
    have hOne : (x.unpend k).plates.pending.look g = if g = k then none else x.plates.pending.look g := by
      unfold Dev.unpend
      rw [setFld_plates, modPlates_plates]
      split
      · next h =>
        rw [h]
        exact SMap.look_del_same ..
      · next h => exact SMap.look_del_other _ h
    have hRest : (x.each (k :: ks) Dev.unpend).plates.pending.look g = _ := (ih (x.unpend k)).trans (by rw [hOne])
    rw [hRest]
    by_cases hk : g = k <;> by_cases hks : g ∈ ks <;> simp [hk, hks]

theorem unpend_leaves (x : Dev) (m : Nat) : InPlates x (x.each (maskGroups m) Dev.unpend) ∧
    ∀ g ∈ maskGroups m, (x.each (maskGroups m) Dev.unpend).fldAt configBase Reg.PSLOT_G.PENDING g = 0 := by
  refine each_sets (I := InPlates x) (R := fun g z => z.fldAt configBase Reg.PSLOT_G.PENDING g = 0)
    (InPlates.refl x) (fun z g hg hI => ⟨(hI.modPlates _).setPending (lt_of_mem_maskGroups hg), ?_⟩) fun z g k _ _ _ hR => ?_ <;>
    unfold Dev.unpend <;> rw [fldAt_setPending _ _ _ (by decide)]
  · exact if_pos rfl
  · split
    · rfl
    · exact hR

end Sys2Proof.Machine

/-! # The plate commands settled (R206 to R216) -/

namespace Sys2Proof.Machine

set_option Elab.async false

section
variable {s : State} {path : Fin 8} {plate : Byte} {t p : Fin 4} (hq : s.dev.quiet = true)
  (hReach : s.dev.reached path (configBase + Reg.PCMD.off) = true) (hRun : s.dev.runs configBase = true) (hMask : s.dev.pcmdMask ≠ 0)
include hq hReach hRun hMask

theorem plateStage_accepted (hFree : s.dev.plates.dataCmd = none) (hReady : s.dev.stageSt t = stageReady)
    (hMap : s.dev.mapReleased (s.dev.stagePlate t) = true)
    (hGroups : ∀ g ∈ maskGroups s.dev.pcmdMask, bitOf (s.dev.stageValid t) g = true ∧ s.dev.pslot g p ≠ slotLoading ∧
      s.dev.pslot g p ≠ slotActive ∧ p.val ∉ (s.dev.plates.pending.at g {}).list) :
    Completes (.plateStage path plate t p) s fun e =>
      ((∀ g ∈ maskGroups s.dev.pcmdMask, e.pslot g p = slotLoading ∧ e.pslotPlate g p = s.dev.stagePlate t) ∧
        e.plates = { s.dev.plates with dataCmd := some (.stage t p s.dev.pcmdMask) } ∧ e.fld configBase Reg.PCMD_STATUS.DATA_BUSY = 1) ∧
      e.fld configBase Reg.PCMD_STATUS.STATUS = pstOk ∧ e.answered path stOk 0 ∧ OnlyWindow configBase s.dev e ∧
      OnlyParts [.regs, .ctl, .plates] s.dev e := by
  refine pcmd_completes (op := 3) (plate := plate) (t := t) (p := p) hq hReach rfl (by decide) fun x hx => ?_
  have hPlate : x.stagePlate t = s.dev.stagePlate t := hx.stageAt rfl
  obtain ⟨⟨hIn, hKept⟩, hSlots⟩ := stageGroups_leave x p (plate := s.dev.stagePlate t) (bitsOf_lt _ _ 8) s.dev.pcmdMask
  refine ⟨(x.each (maskGroups s.dev.pcmdMask) fun z g => z.stageGroup p (s.dev.stagePlate t) g).setData (some (.stage t p s.dev.pcmdMask)), ?_,
    hIn.setData _, fun e hS => ⟨fun g hg => ?_, ?_, ?_⟩⟩
  · rw [pcmdGo_held hx hRun (.inr hMask)]
    show x.cmdStage t p = _
    unfold Dev.cmdStage
    dsimp only
    rw [checked_passes _ fun g hg => ?_, hPlate, hx.mask]
    · rfl
    · obtain ⟨hValid, hLoading, hActive, hPending⟩ := hGroups g (hx.mask ▸ hg)
      have hValidX : x.stageValid t = s.dev.stageValid t := hx.stageAt rfl
      have hMapX : x.mapReleased (x.stagePlate t) = true := by
        unfold Dev.mapReleased at hMap ⊢
        rw [hPlate, hx.plates, hx.parts .load (by simp)]
        exact hMap
      unfold Dev.dataBusy
      rw [hMapX, hValidX, hValid, hx.plates, hFree, hx.stageSt, hReady, hx.pslot]
      simp [firstFail, hLoading, hActive, hPending]
  · obtain ⟨hState, hNum⟩ := hSlots g hg
    unfold Dev.pslot at hState ⊢
    unfold Dev.pslotPlate at hNum ⊢
    unfold Dev.setData at hS
    rw [hS.fld _ (slot_off _ _).1, hS.fld _ (slot_off _ _).2, fld_setFld_off (slot_off _ _).1 rfl, fld_setFld_off (slot_off _ _).2 rfl]
    exact ⟨hState, hNum⟩
  · rw [hS.plates, Dev.setData, setFld_plates, modPlates_plates, hKept, hx.plates]
  · rw [hS.busy, Dev.setData, fld_setFld_same (by decide)]
    rfl

/-- A switch or cycle start that PCMD gives and every group lets pass is pending in each. -/
theorem pend_accepted {c : Instr} {op : Nat} {q : PendSwitch} (he : exec c s = onDev (fun d => d.pcmdBy path (pcmdWord op plate t p)) s)
    (hOp : op < 8) (hCmd : ∀ x, PcmdHeld op plate.toNat t p s.dev x → x.pcmdRun op t p = (x.pend q).pcmdStatus pstOk 0) :
    Completes c s fun e => (∀ g ∈ maskGroups s.dev.pcmdMask, e.plates.pending.look g = some q ∧ e.fldAt configBase Reg.PSLOT_G.PENDING g = 1) ∧
      e.fld configBase Reg.PCMD_STATUS.STATUS = pstOk ∧ e.answered path stOk 0 ∧ OnlyWindow configBase s.dev e ∧
      OnlyParts [.regs, .ctl, .plates] s.dev e := by
  refine pcmd_completes (op := op) (plate := plate) (t := t) (p := p) hq hReach he hOp fun x hx => ?_
  obtain ⟨hIn, hPend⟩ := pend_leaves x q
  refine ⟨x.pend q, (pcmdGo_held hx hRun (.inr hMask)).trans (hCmd x hx), hIn, fun e hS g hg => ?_⟩
  obtain ⟨hLook, hShown⟩ := hPend g (by rwa [hx.mask])
  exact ⟨by rw [hS.plates, hLook], (hS.fld _ (pendField g g).2.1).trans hShown⟩

/-- What a switch to some slots needs of a group (R216, R217, R220). -/
def Dev.switchReady (d : Dev) (l : List Nat) : Prop :=
  d.targetOk d.switchTarget = true ∧ ∀ g ∈ maskGroups d.pcmdMask,
    (∀ x ∈ l, d.slotUsable g x = true) ∧ d.plates.pending.look g = none ∧ d.groupFaulted g = false ∧ d.holdRefused g = false

omit hq hReach hRun hMask in
theorem switchChecks_pass {op n : Nat} {x : Dev} (hx : PcmdHeld op n t p s.dev x) {l : List Nat} (h : s.dev.switchReady l) {g : Nat}
    (hg : g ∈ maskGroups x.pcmdMask) : x.switchChecks l g = [(false, pstLate), (false, pstSlotState), (false, pstPending), (false, pstFaultedGroup), (false, pstHoldBudget)] := by
  obtain ⟨hTarget, hAll⟩ := h
  obtain ⟨hUsable, hPending, hFaulted, hHold⟩ := hAll g (hx.mask ▸ hg)
  have hNone : (l.any fun k => !x.slotUsable g k) = false := by
    simp only [List.any_eq_false, hx.slotUsable]
    intro k hk
    simp [hUsable k hk]
  have hHas : x.plates.pending.has g = false := by
    rw [hx.plates]
    unfold SMap.has
    rw [hPending]
    rfl
  unfold Dev.switchChecks
  rw [hx.switchTarget, hx.targetOk, hTarget, hNone, hHas, hx.groupFaulted, hFaulted, hx.holdRefused, hHold]
  rfl

theorem plateSwitch_accepted (h : s.dev.switchReady [p.val]) :
    Completes (.plateSwitch path plate t p) s fun e =>
      (∀ g ∈ maskGroups s.dev.pcmdMask, e.plates.pending.look g = some { target := s.dev.switchTarget, list := [p.val] } ∧
        e.fldAt configBase Reg.PSLOT_G.PENDING g = 1) ∧
      e.fld configBase Reg.PCMD_STATUS.STATUS = pstOk ∧ e.answered path stOk 0 ∧ OnlyWindow configBase s.dev e ∧
      OnlyParts [.regs, .ctl, .plates] s.dev e := by
  refine pend_accepted (op := 4) hq hReach hRun hMask rfl (by decide) fun x hx => ?_
  show x.cmdSwitch p = _
  unfold Dev.cmdSwitch
  rw [checked_passes _ fun g hg => ?_, hx.switchTarget]
  rw [switchChecks_pass hx h hg]
  rfl

theorem plateCycle_accepted (h : s.dev.switchReady s.dev.cycleList) (hOk : s.dev.cycleOk s.dev.cycleList (s.dev.fld configBase Reg.PCYCLE.K) = true)
    (hMode : s.dev.mode = modeRoll ∨ s.dev.mode = modeSurge) (hClock : s.dev.fastFabric = false) :
    Completes (.plateCycle path plate t p) s fun e =>
      (∀ g ∈ maskGroups s.dev.pcmdMask, e.plates.pending.look g =
          some { cycle := true, target := s.dev.switchTarget, list := s.dev.cycleList, k := s.dev.fld configBase Reg.PCYCLE.K } ∧
        e.fldAt configBase Reg.PSLOT_G.PENDING g = 1) ∧
      e.fld configBase Reg.PCMD_STATUS.STATUS = pstOk ∧ e.answered path stOk 0 ∧ OnlyWindow configBase s.dev e ∧
      OnlyParts [.regs, .ctl, .plates] s.dev e := by
  refine pend_accepted (op := 5) hq hReach hRun hMask rfl (by decide) fun x hx => ?_
  have hK : x.fld configBase Reg.PCYCLE.K = s.dev.fld configBase Reg.PCYCLE.K := hx.fld_eq (by decide)
  show x.cmdCycle = _
  unfold Dev.cmdCycle
  dsimp only
  rw [checked_passes _ fun g hg => ?_, hx.switchTarget, hx.cycleList, hK]
  have hOkX : x.cycleOk s.dev.cycleList (s.dev.fld configBase Reg.PCYCLE.K) = true := by
    unfold Dev.cycleOk at hOk ⊢
    rw [hx.parts .clk (by simp)]
    exact hOk
  have hModeX : (x.mode != modeRoll && x.mode != modeSurge) = false := by
    rw [show x.mode = s.dev.mode from hx.fld_eq (by decide)]
    obtain hMode | hMode := hMode <;> rw [hMode] <;> rfl
  rw [hx.cycleList, hK, switchChecks_pass hx h hg, hOkX, hModeX, hx.fastFabric, hClock]
  rfl

theorem plateCancel_accepted :
    Completes (.plateCancel path plate t p) s fun e =>
      ((∀ g : Fin 16, e.plates.pending.look g = if bitOf s.dev.pcmdMask g then none else s.dev.plates.pending.look g) ∧
        ∀ g ∈ maskGroups s.dev.pcmdMask, e.fldAt configBase Reg.PSLOT_G.PENDING g = 0) ∧
      e.fld configBase Reg.PCMD_STATUS.STATUS = pstOk ∧ e.answered path stOk 0 ∧ OnlyWindow configBase s.dev e ∧
      OnlyParts [.regs, .ctl, .plates] s.dev e := by
  refine pcmd_completes (op := 6) (plate := plate) (t := t) (p := p) hq hReach rfl (by decide) fun x hx => ?_
  obtain ⟨hIn, hShown⟩ := unpend_leaves x s.dev.pcmdMask
  refine ⟨x.each (maskGroups s.dev.pcmdMask) Dev.unpend, ?_, hIn, fun e hS => ⟨fun g => ?_, fun g hg => ?_⟩⟩
  · rw [pcmdGo_held hx hRun (.inr hMask)]
    show x.cmdCancel = _
    unfold Dev.cmdCancel
    rw [checked_passes _ fun g _ => rfl, hx.mask]
  · have hMem : (g.val ∈ maskGroups s.dev.pcmdMask) ↔ bitOf s.dev.pcmdMask g = true := by
      rw [mem_maskGroups]
      exact and_iff_right g.isLt
    rw [hS.plates, unpend_look, hx.plates]
    simp only [hMem]
  · exact (hS.fld _ (pendField g g).2.1).trans (hShown g hg)

theorem plateClear_accepted (hGroups : ∀ g ∈ maskGroups s.dev.pcmdMask, s.dev.inForce g p = false ∧ s.dev.pslot g p ≠ slotLoading) :
    Completes (.plateClear path plate t p) s fun e =>
      (∀ g ∈ maskGroups s.dev.pcmdMask, e.pslot g p = if s.dev.pslot g p = slotFaulted then slotEmpty else s.dev.pslot g p) ∧
      e.fld configBase Reg.PCMD_STATUS.STATUS = pstOk ∧ e.answered path stOk 0 ∧ OnlyWindow configBase s.dev e ∧
      OnlyParts [.regs, .ctl, .plates] s.dev e := by
  refine pcmd_completes (op := 7) (plate := plate) (t := t) (p := p) hq hReach rfl (by decide) fun x hx => ?_
  obtain ⟨hIn, hSlots⟩ := clearGroups_leave x p s.dev.pcmdMask
  refine ⟨x.each (maskGroups s.dev.pcmdMask) fun z g => z.clearGroup p g, ?_, hIn, fun e hS g hg => ?_⟩
  · rw [pcmdGo_held hx hRun (.inr hMask)]
    show x.cmdClear p = _
    unfold Dev.cmdClear
    rw [checked_passes _ fun g hg => ?_, hx.mask]
    · rfl
    · obtain ⟨hForce, hLoading⟩ := hGroups g (hx.mask ▸ hg)
      rw [hx.inForce, hForce, hx.pslot]
      simp [hLoading]
  · have hCleared := hSlots g hg
    rw [hx.pslot] at hCleared
    unfold Dev.pslot at hCleared ⊢
    rw [hS.fld _ (slot_off _ _).1]
    exact hCleared

end

/-- Settles O29: the PCMD word is stored, every group of the mask passes the command's checks, and each takes its effect. -/
theorem plateCommandsAreAccepted : Obligations.PlateCommandsAreAccepted := by
  unfold Obligations.PlateCommandsAreAccepted
  intro s path plate t p hq b d mask base free ready done filling pended hReach hRun
  refine ⟨fun w hFree hMask hRead hPlate hGroups => ?_, fun hFree => ?_, fun hFree hMask hReady hMap hGroups => ?_,
    fun hMask hReady => ?_, fun hMask hReady hOk hMode hClock => ?_, fun hMask => ?_, fun hMask hGroups => ?_⟩
  · refine (fillLp_accepted (p := p) hq hReach hRun hFree.1 hFree.2 hMask rfl hRead hPlate hGroups).imp fun e he => ?_
    obtain ⟨⟨hSt, hValid, hData, hBusy⟩, hOk, hAnswer, hWindow, hParts⟩ := he
    exact ⟨hSt, hValid, hData, hBusy, ⟨hOk, hAnswer, hWindow⟩, hParts⟩
  · refine (fillStream_accepted (plate := plate) (p := p) hq hReach hRun hFree.1 hFree.2).imp fun e he => ?_
    obtain ⟨⟨hSt, hValid, hData, hBusy⟩, hOk, hAnswer, hWindow, hParts⟩ := he
    exact ⟨hSt, hValid, hData, hBusy, ⟨hOk, hAnswer, hWindow⟩, hParts⟩
  · refine (plateStage_accepted (plate := plate) hq hReach hRun hMask hFree.1 hReady hMap hGroups).imp fun e he => ?_
    obtain ⟨⟨hSlots, hPlates, hBusy⟩, hOk, hAnswer, hWindow, hParts⟩ := he
    exact ⟨hSlots, hPlates, hBusy, ⟨hOk, hAnswer, hWindow⟩, hParts⟩
  · refine (plateSwitch_accepted (plate := plate) (t := t) hq hReach hRun hMask hReady).imp fun e he => ?_
    obtain ⟨hPend, hOk, hAnswer, hWindow, hParts⟩ := he
    exact ⟨hPend, ⟨hOk, hAnswer, hWindow⟩, hParts⟩
  · refine (plateCycle_accepted (plate := plate) (t := t) (p := p) hq hReach hRun hMask hReady hOk hMode hClock).imp fun e he => ?_
    obtain ⟨hPend, hOk, hAnswer, hWindow, hParts⟩ := he
    exact ⟨hPend, ⟨hOk, hAnswer, hWindow⟩, hParts⟩
  · refine (plateCancel_accepted (plate := plate) (t := t) (p := p) hq hReach hRun hMask).imp fun e he => ?_
    obtain ⟨⟨hLook, hShown⟩, hOk, hAnswer, hWindow, hParts⟩ := he
    exact ⟨hLook, hShown, ⟨hOk, hAnswer, hWindow⟩, hParts⟩
  · refine (plateClear_accepted (plate := plate) (t := t) hq hReach hRun hMask hGroups).imp fun e he => ?_
    obtain ⟨hSlots, hOk, hAnswer, hWindow, hParts⟩ := he
    exact ⟨hSlots, ⟨hOk, hAnswer, hWindow⟩, hParts⟩

end Sys2Proof.Machine

/-! # Writes of data space over base ports that nothing befalls (R94, R248) -/

namespace Sys2Proof.Machine

set_option Elab.async false

/-! ## Bytes of numbers and words -/

theorem getLsbD_byteOf (n i j : Nat) : (byteOf n i).getLsbD j = (decide (j < 8) && n.testBit (8 * i + j)) := by
  simp [byteOf, BitVec.getLsbD_ofNat, Nat.testBit_shiftRight]

theorem byteOf_mod {n k i : Nat} (h : i < k) : byteOf (n % 2 ^ (8 * k)) i = byteOf n i := by
  refine BitVec.eq_of_getLsbD_eq fun j hj => ?_
  rw [getLsbD_byteOf, getLsbD_byteOf, Nat.testBit_mod_two_pow]
  simp [show 8 * i + j < 8 * k by omega]

theorem byteOf_ofBytes (l : List Byte) (i : Nat) : byteOf (ofBytes l) i = l.getD i 0 := by
  induction l generalizing i with
  | nil => simp [ofBytes, byteOf]
  | cons b t ih =>
    have hb := b.isLt
    cases i with
    | zero =>
      refine BitVec.eq_of_toNat_eq ?_
      simp only [ofBytes, byteOf, Nat.mul_zero, Nat.shiftRight_zero, BitVec.toNat_ofNat, List.getD_cons_zero]
      omega
    | succ i =>
      rw [List.getD_cons_succ, ← ih i, ofBytes, byteOf, byteOf, Nat.shiftRight_eq_div_pow, Nat.shiftRight_eq_div_pow,
        show 2 ^ (8 * (i + 1)) = 256 * 2 ^ (8 * i) by rw [Nat.mul_add, Nat.pow_add]; omega, ← Nat.div_div_eq_div_mul]
      congr 2
      omega

/-- The bytes of a word put together from its bytes. -/
theorem byteOf_word (f : Nat → Byte) {i : Nat} (hi : i < 32) :
    byteOf (BitVec.ofNat 256 (ofBytes ((List.range 32).map f))).toNat i = f i := by
  rw [BitVec.toNat_ofNat, show 2 ^ 256 = 2 ^ (8 * 32) by rfl, byteOf_mod hi, byteOf_ofBytes]
  simp [hi]

theorem byteOf_wordData (d : Dev) (p : Nat) {i : Nat} (hi : i < 32) : byteOf (d.wordData p).toNat i = d.mem.bytes.at (32 * p + i) 0 :=
  byteOf_word _ hi

theorem byteOf_lineHalf (l : Line) (h : Nat) {i : Nat} (hi : i < 32) : byteOf (lineHalf l h).toNat i = byteOf l.toNat (32 * h + i) := by
  refine BitVec.eq_of_getLsbD_eq fun j hj => ?_
  rw [getLsbD_byteOf, getLsbD_byteOf, ← BitVec.getLsbD, ← BitVec.getLsbD, lineHalf, BitVec.getLsbD_extractLsb']
  simp only [hj, decide_true, Bool.true_and]
  rw [show 256 * h + (8 * i + j) = 8 * (32 * h + i) + j by omega]
  simp [show 8 * i + j < 256 by omega]

/-! ## A write into a row word -/

/-- What a word holds once the bytes under a mask are replaced. -/
def mergedWord (old v : RowWord) (mask : Nat) : RowWord := if mask % 2 ^ 32 = fullMask then v else mergeBytes old v mask

theorem byteOf_mergedWord (old v : RowWord) (mask : Nat) {i : Nat} (hi : i < 32) :
    byteOf (mergedWord old v mask).toNat i = if bitOf mask i then byteOf v.toNat i else byteOf old.toNat i := by
  unfold mergedWord
  split
  · next h =>
    have hBit : bitOf mask i = true := by
      have hMod : (mask % 2 ^ 32).testBit i = true := by
        rw [h, fullMask, Nat.testBit_two_pow_sub_one, decide_eq_true hi]
      rw [Nat.testBit_mod_two_pow] at hMod
      exact (Bool.and_eq_true_iff.mp hMod).2
    rw [if_pos hBit]
  · exact byteOf_word _ hi

theorem wordData_bankTaken (d : Dev) (bank p : Nat) : (d.bankTaken bank).wordData p = d.wordData p := rfl

/-- A write of some bytes of a good word that nothing bars is performed, and its status is OK. -/
theorem writeTo_good {d : Dev} {x : BaseTo} {mask : Nat} (v : RowWord) (hm : d.meetsNothing) (hb : d.toBarred x = false)
    (hMask : mask % 2 ^ 32 ≠ 0) (hGood : d.wordCheck x.place = memOk) :
    d.writeTo x mask v = ((d.bankTaken x.bank).putWord x.place (mergedWord (d.wordData x.place) v mask), memOk) := by
  have hPut : (d.bankTaken x.bank).putTo x mask v =
      ((d.bankTaken x.bank).putWord x.place (mergedWord (d.wordData x.place) v mask), memOk) := by
    have hTaken : (d.bankTaken x.bank).wordCheck x.place = memOk := hGood
    have hOld : (d.bankTaken x.bank).wordRead x.place = d.wordData x.place := by
      unfold Dev.wordRead
      rw [hTaken, if_neg (by decide), wordData_bankTaken]
    unfold Dev.putTo mergedWord
    split
    · rfl
    · dsimp only
      rw [hTaken, hOld, if_neg (by decide), Dev.noteRead, readOver_good hTaken]
  unfold Dev.writeTo
  rw [hb, if_neg (by decide), if_neg hMask, nextMeet_nothing x hm]
  dsimp only
  rw [if_neg (by decide : ¬2 ≤ ({} : PortFound).parity), wearTo_nil, hPut]
  dsimp only
  rw [viaWritten_nothing]

/-- Only what the memory dies hold differs, and no word has an error that had none. -/
structure MemWrote (d e : Dev) : Prop where
  parts : OnlyParts [.mem] d e
  relief : e.mem.relief = d.mem.relief
  checks : ∀ p, d.wordCheck p = memOk → e.wordCheck p = memOk

theorem MemWrote.refl (d : Dev) : MemWrote d d := ⟨by simp, rfl, fun _ h => h⟩

theorem MemWrote.trans {d e f : Dev} (h : MemWrote d e) (g : MemWrote e f) : MemWrote d f :=
  ⟨h.parts.trans g.parts, g.relief.trans h.relief, fun p hp => g.checks p (h.checks p hp)⟩

theorem MemWrote.bankTaken {d : Dev} (hMeets : d.stack.meets = []) (bank : Nat) : MemWrote d (d.bankTaken bank) := by
  refine ⟨?_, rfl, fun _ h => h⟩
  have hStack : (d.bankTaken bank).stack = d.stack := by
    show { d.stack with meets := [] } = d.stack
    rw [← hMeets]
  have hTwo : OnlyParts [.stack, .mem] d (d.bankTaken bank) := by simp [Dev.bankTaken]
  exact hTwo.drop hStack

theorem MemWrote.putWord (d : Dev) (p : Nat) (v : RowWord) : MemWrote d (d.putWord p v) := by
  refine ⟨by simp [Dev.putWord], rfl, fun q hq => ?_⟩
  by_cases h : q = p
  · rw [h]
    exact putWord_wordCheck p v
  · unfold Dev.wordCheck at hq ⊢
    have hErr : (d.putWord p v).mem.err.at q 0 = d.mem.err.at q 0 := by
      show (d.mem.err.del p).at q 0 = _
      unfold SMap.at
      rw [SMap.look_del_other _ h]
    rw [hErr]
    exact hq

section
variable {d e : Dev} (h : MemWrote d e)
include h

theorem MemWrote.meets : e.stack.meets = d.stack.meets := by rw [h.parts .stack (by simp)]

theorem MemWrote.physWord (w : Nat) : e.physWord w = d.physWord w := by
  unfold Dev.physWord Dev.relieved
  rw [h.relief]

theorem MemWrote.reg (a : Nat) : e.reg a = d.reg a := h.parts.reg_eq (by simp) a

theorem MemWrote.baseBarred (x : Bool) (w : Nat) : e.baseBarred x w = d.baseBarred x w := by
  have hFld (b : Nat) (f : Fld) : e.fld b f = d.fld b f := h.parts.fld_eq (by simp) b f
  unfold Dev.baseBarred Dev.memBarred Dev.columnBarred Dev.bankDead Dev.fenced Dev.proving Dev.proofDepth Dev.flag Dev.ust
  simp only [hFld]
  rw [h.parts .kryup (by simp), h.parts .stack (by simp)]

end

/-- A base port's word that nothing bars and that holds no error. -/
def Dev.wordGood (d : Dev) (w : Nat) : Prop := d.baseBarred false w = false ∧ d.wordCheck (d.physWord w) = memOk

theorem MemWrote.wordGood {d e : Dev} (h : MemWrote d e) {w : Nat} (hGood : d.wordGood w) : e.wordGood w :=
  ⟨(h.baseBarred _ _).trans hGood.1, by rw [h.physWord]; exact h.checks _ hGood.2⟩

theorem toBarred_toWord (d : Dev) (u : BaseUser) (w : Nat) : d.toBarred (d.toWord u w) = d.baseBarred false w :=
  if_neg Bool.false_ne_true

/-- A base-port write of some bytes of a good word replaces those and no others. -/
theorem baseWrite_good {d : Dev} {u : BaseUser} {w mask : Nat} (v : RowWord) (hMeets : d.stack.meets = []) (hGood : d.wordGood w) :
    ∃ e, d.baseWrite u w mask v = (e, memOk) ∧ MemWrote d e ∧
      ∀ a, e.mem.bytes.at a 0 = if a / 32 = d.physWord w ∧ bitOf mask (a % 32) = true then byteOf v.toNat (a % 32) else d.mem.bytes.at a 0 := by
  by_cases hMask : mask % 2 ^ 32 = 0
  · refine ⟨d, ?_, .refl d, fun a => ?_⟩
    · unfold Dev.baseWrite Dev.writeTo
      rw [toBarred_toWord, hGood.1, if_neg (by decide), if_pos hMask]
    · have hClear : bitOf mask (a % 32) = false := by
        have hBit : (mask % 2 ^ 32).testBit (a % 32) = false := by rw [hMask, Nat.zero_testBit]
        rw [Nat.testBit_mod_two_pow, decide_eq_true (Nat.mod_lt _ (by decide)), Bool.true_and] at hBit
        exact hBit
      rw [hClear, if_neg (by simp)]
  · refine ⟨_, writeTo_good v (.inl hMeets) ((toBarred_toWord d u w).trans hGood.1) hMask hGood.2,
      (MemWrote.bankTaken hMeets _).trans (.putWord _ _ _), fun a => ?_⟩
    have hTaken : (d.bankTaken (d.toWord u w).bank).mem.bytes = d.mem.bytes := rfl
    rw [putWord_byte, byteOf_mergedWord _ _ _ (Nat.mod_lt _ (by decide)), byteOf_wordData _ _ (Nat.mod_lt _ (by decide)), hTaken]
    show (if a / 32 = d.physWord w then _ else _) = _
    by_cases hAt : a / 32 = d.physWord w
    · have hPlace : 32 * (d.toWord u w).place + a % 32 = a := by
        show 32 * d.physWord w + a % 32 = a
        rw [← hAt]
        omega
      rw [if_pos hAt, hPlace]
      simp only [hAt, true_and]
    · rw [if_neg hAt, if_neg fun k => hAt k.1]

theorem bitOf_bitsOf (n lo : Nat) {w i : Nat} (hi : i < w) : bitOf (bitsOf n lo w) i = bitOf n (lo + i) := by
  unfold bitOf bitsOf
  rw [Nat.testBit_mod_two_pow, Nat.testBit_shiftRight, decide_eq_true hi, Bool.true_and]

/-- The decode lets an address of the memory die pass. -/
theorem inDie_decode {d : Dev} {cls a : Nat} (hIn : a < 2 ^ 30) :
    d.dsBar cls a = none ∧ dsOffset a = a ∧ d.dsTarget (a / 64 * 64) = .memory := by
  have hOff : dsOffset a = a := Nat.mod_eq_of_lt (Nat.lt_trans hIn (by decide))
  have hKey : dsKeyOf a = 0 := by
    unfold dsKeyOf bitsOf
    rw [Nat.shiftRight_eq_div_pow, Nat.div_eq_of_lt (Nat.lt_trans hIn (by decide)), Nat.zero_mod]
  have hTarget {x : Nat} (hx : x < 2 ^ 30) : d.dsTarget x = .memory := if_pos hx
  refine ⟨?_, hOff, hTarget (by omega)⟩
  unfold Dev.dsBar
  dsimp only
  rw [hOff, hTarget hIn, hKey]
  exact if_pos rfl

/-- A write of bytes of a line of the memory die whose two words are good replaces those and no others. -/
theorem dsWrite_line {d : Dev} {cls a mask : Nat} (data : Line) (hMeets : d.stack.meets = []) (hIn : a < 2 ^ 30)
    (hGood : ∀ i < 2, d.wordGood (2 * (a / 64) + i)) (hMask : mask % 2 ^ 64 ≠ 0) :
    ∃ e, d.dsWrite cls a mask false data {} = (e, dsOk) ∧ MemWrote d e ∧
      ∀ x, e.mem.bytes.at x 0 =
        if x / 32 = d.physWord (2 * (a / 64) + 1) ∧ bitOf mask (32 + x % 32) = true then byteOf data.toNat (32 + x % 32)
        else if x / 32 = d.physWord (2 * (a / 64)) ∧ bitOf mask (x % 32) = true then byteOf data.toNat (x % 32)
        else d.mem.bytes.at x 0 := by
  obtain ⟨hBar, hOff, hTarget⟩ := inDie_decode (d := d) (cls := cls) hIn
  have hLine : a / 64 * 64 / 32 = 2 * (a / 64) := by omega
  obtain ⟨e0, hW0, hM0, hB0⟩ := baseWrite_good (u := dsUser cls) (mask := bitsOf mask 0 32) (lineHalf data 0) hMeets (hGood 0 (by decide))
  obtain ⟨e1, hW1, hM1, hB1⟩ := baseWrite_good (u := dsUser cls) (mask := bitsOf mask 32 32) (lineHalf data 1) (hM0.meets.trans hMeets)
    (hM0.wordGood (hGood 1 (by decide)))
  refine ⟨e1, ?_, hM0.trans hM1, fun x => ?_⟩
  · unfold Dev.dsWrite
    dsimp only
    rw [if_neg hMask, hBar, hOff]
    dsimp only
    rw [hTarget]
    dsimp only
    rw [hLine, show 2 * (a / 64) = 2 * (a / 64) + 0 from rfl, hW0]
    dsimp only
    rw [Nat.add_zero, hW1]
    rfl
  · have hx : x % 32 < 32 := Nat.mod_lt _ (by decide)
    rw [hB1, hB0, hM0.physWord, bitOf_bitsOf _ _ hx, bitOf_bitsOf _ _ hx, byteOf_lineHalf _ _ hx, byteOf_lineHalf _ _ hx, Nat.add_zero,
      Nat.zero_add]
    simp only [Nat.mul_one, Nat.add_zero]

/-- The place of a byte of the memory die. -/
def Dev.bytePlace (d : Dev) (a : Nat) : Nat := 32 * d.physWord (a / 32) + a % 32

theorem relieved_some {d : Dev} {bank g : Nat} (h : d.relieved bank = some g) : ∃ r, d.mem.relief.look g = some r ∧ r.bank = bank := by
  unfold Dev.relieved at h
  dsimp only at h
  split at h
  · next r hr =>
    split at h
    · next hBank =>
      obtain rfl := Option.some.inj h
      exact ⟨r, hr, hBank.1⟩
    · cases h
  · cases h

theorem physWord_cases (d : Dev) (w : Nat) : (d.physWord w = w) ∨ ∃ g r, d.physWord w = reliefWord g (wordRow w) (w % 8) ∧
    d.mem.relief.look g = some r ∧ r.bank = wordBank w := by
  cases h : d.relieved (wordBank w) with
  | none =>
    refine .inl ?_
    unfold Dev.physWord
    rw [h]
  | some g =>
    obtain ⟨r, hr, hBank⟩ := relieved_some h
    refine .inr ⟨g, r, ?_, hr, hBank⟩
    unfold Dev.physWord
    rw [h]

/-- Different words of the die lie in different places. -/
theorem physWord_inj {d : Dev} {v w : Nat} (hv : v < 2 ^ 25) (hw : w < 2 ^ 25) (h : d.physWord v = d.physWord w) : v = w := by
  obtain hV | ⟨g, r, hV, hr, hBank⟩ := physWord_cases d v <;> obtain hW | ⟨g', r', hW, hr', hBank'⟩ := physWord_cases d w <;> rw [hV, hW] at h
  · exact h
  · unfold reliefWord at h
    omega
  · unfold reliefWord at h
    omega
  · unfold reliefWord wordRow at h
    have hg : g = g' := by omega
    have hSame : wordBank v = wordBank w := by
      rw [← hBank, ← hBank', Option.some.inj (hr.symm.trans (hg ▸ hr'))]
    unfold wordBank at hSame
    omega

/-- A write of bytes of a line of the memory die whose two words are good, by the places of the bytes. -/
theorem dsWrite_bytes {d : Dev} {cls a mask : Nat} (data : Line) (hMeets : d.stack.meets = []) (hIn : a < 2 ^ 30)
    (hGood : ∀ i < 2, d.wordGood (2 * (a / 64) + i)) (hMask : mask % 2 ^ 64 ≠ 0) :
    ∃ e, d.dsWrite cls a mask false data {} = (e, dsOk) ∧ MemWrote d e ∧
      (∀ i < 64, bitOf mask i = true → e.mem.bytes.at (d.bytePlace (a / 64 * 64 + i)) 0 = byteOf data.toNat i) ∧
      ∀ x, (∀ i < 64, bitOf mask i = true → x ≠ d.bytePlace (a / 64 * 64 + i)) → e.mem.bytes.at x 0 = d.mem.bytes.at x 0 := by
  obtain ⟨e, hW, hM, hB⟩ := dsWrite_line (cls := cls) data hMeets hIn hGood hMask
  have hApart : d.physWord (2 * (a / 64)) ≠ d.physWord (2 * (a / 64) + 1) := fun h => by
    have := physWord_inj (by omega) (by omega) h
    omega
  refine ⟨e, hW, hM, fun i hi hBit => ?_, fun x hx => ?_⟩
  · rw [hB]
    unfold Dev.bytePlace
    obtain hLow | hHigh : i < 32 ∨ 32 ≤ i := by omega
    · rw [show (a / 64 * 64 + i) / 32 = 2 * (a / 64) by omega, show (a / 64 * 64 + i) % 32 = i by omega,
        show (32 * d.physWord (2 * (a / 64)) + i) / 32 = d.physWord (2 * (a / 64)) by omega,
        show (32 * d.physWord (2 * (a / 64)) + i) % 32 = i by omega, if_neg fun h => hApart h.1, if_pos ⟨rfl, hBit⟩]
    · rw [show (a / 64 * 64 + i) / 32 = 2 * (a / 64) + 1 by omega, show (a / 64 * 64 + i) % 32 = i - 32 by omega,
        show (32 * d.physWord (2 * (a / 64) + 1) + (i - 32)) / 32 = d.physWord (2 * (a / 64) + 1) by omega,
        show (32 * d.physWord (2 * (a / 64) + 1) + (i - 32)) % 32 = i - 32 by omega, show 32 + (i - 32) = i by omega, if_pos ⟨rfl, hBit⟩]
  · rw [hB, if_neg, if_neg]
    · rintro ⟨hAt, hBit⟩
      refine hx (x % 32) (by omega) hBit ?_
      unfold Dev.bytePlace
      rw [show (a / 64 * 64 + x % 32) / 32 = 2 * (a / 64) by omega, ← hAt]
      omega
    · rintro ⟨hAt, hBit⟩
      refine hx (32 + x % 32) (by omega) hBit ?_
      unfold Dev.bytePlace
      rw [show (a / 64 * 64 + (32 + x % 32)) / 32 = 2 * (a / 64) + 1 by omega, ← hAt]
      omega

/-- A read of a good word by 32 bytes answers it, and the bank has been granted. -/
theorem dsRead32_good {d : Dev} {cls a : Nat} (hMeets : d.stack.meets = []) (hIn : a < 2 ^ 30) (hGood : d.wordGood (a / 32)) :
    ∃ e, d.dsRead32 cls a = (e, dsOk, d.wordData (d.physWord (a / 32))) ∧ MemWrote d e ∧ e.mem.bytes = d.mem.bytes := by
  obtain ⟨hBar, hOff, hTarget⟩ := inDie_decode (d := d) (cls := cls) hIn
  have hRead : d.baseRead (dsUser cls) (a / 32) =
      (d.bankTaken (d.toWord (dsUser cls) (a / 32)).bank, memOk, d.wordData (d.physWord (a / 32))) := by
    unfold Dev.baseRead
    rw [readTo_nothing (.inl hMeets), toBarred_toWord, hGood.1, if_neg (by decide)]
    exact readOver_good (d := d.bankTaken (d.toWord (dsUser cls) (a / 32)).bank) hGood.2
  refine ⟨_, ?_, MemWrote.bankTaken hMeets (d.toWord (dsUser cls) (a / 32)).bank, rfl⟩
  rw [dsRead32_memory hBar (by rw [hOff]; exact hTarget), hOff, show a / 64 * 64 / 32 + a / 32 % 2 = a / 32 by omega, hRead]
  rfl

end Sys2Proof.Machine

/-! # Movers run descriptors (R332 to R334) -/

namespace Sys2Proof.Machine

set_option Elab.async false

/-! ## A fill within one line, and STAT -/

/-- The bytes that a mask of `n` bytes from `o` on names. -/
theorem bitOf_run (n o i : Nat) : bitOf ((2 ^ n - 1) * 2 ^ o) i = decide (o ≤ i ∧ i < o + n) := by
  unfold bitOf
  rw [Nat.testBit_mul_two_pow, Nat.testBit_two_pow_sub_one]
  by_cases h1 : o ≤ i
  · by_cases h2 : i - o < n
    · simp [h1, h2, show i < o + n by omega]
    · simp [h1, h2, show ¬i < o + n by omega]
  · simp [h1]

theorem run_ne_zero {n o : Nat} (hn : 0 < n) (ho : o < 64) : (2 ^ n - 1) * 2 ^ o % 2 ^ 64 ≠ 0 := by
  intro h
  have hBit : ((2 ^ n - 1) * 2 ^ o % 2 ^ 64).testBit o = true := by
    have hRun := bitOf_run n o o
    unfold bitOf at hRun
    rw [Nat.testBit_mod_two_pow, hRun]
    simp [ho, hn]
  rw [h, Nat.zero_testBit] at hBit
  cases hBit

/-- A byte of a number that has been moved up by whole bytes. -/
theorem byteOf_shifted {k : Nat} (n o : Nat) {i : Nat} (hi : i < k) (ho : o ≤ i) :
    byteOf (BitVec.ofNat (8 * k) (n * 2 ^ (8 * o))).toNat i = byteOf n (i - o) := by
  rw [BitVec.toNat_ofNat, byteOf_mod hi]
  refine BitVec.eq_of_getLsbD_eq fun j hj => ?_
  rw [getLsbD_byteOf, getLsbD_byteOf, Nat.testBit_mul_two_pow]
  simp [show 8 * o ≤ 8 * i + j by omega, show 8 * i + j - 8 * o = 8 * (i - o) + j by omega]

theorem byteOf_fillBytes (word : Nat) {i : Nat} (hi : i < 64) : byteOf (fillBytes word 0) i = byteOf word (i % 4) := by
  unfold fillBytes
  rw [byteOf_ofBytes]
  simp [hi]

/-- A transfer that fills bytes of one line of the memory die. -/
theorem moverRun_line {q : MoverDesc} {d : Dev} (f : Nat) (hMeets : d.stack.meets = []) (hFill : q.fill = true) (hLen : 0 < q.len)
    (hLine : q.dst % 64 + q.len ≤ 64) (hIn : q.dst + q.len ≤ 2 ^ 30) (hGood : ∀ i < 2, d.wordGood (2 * (q.dst / 64) + i)) :
    ∃ e, Dev.moverRun q (f + 2) d 0 = (e, true, q.len) ∧ MemWrote d e ∧
      (∀ i < q.len, e.mem.bytes.at (d.bytePlace (q.dst + i)) 0 = byteOf q.src (i % 4)) ∧
      ∀ x, (∀ i < q.len, x ≠ d.bytePlace (q.dst + i)) → e.mem.bytes.at x 0 = d.mem.bytes.at x 0 := by
  obtain ⟨e, hW, hM, hSet, hKept⟩ := dsWrite_bytes (cls := clsMover) (mask := (2 ^ q.len - 1) * 2 ^ (q.dst % 64))
    (BitVec.ofNat 512 (fillBytes q.src 0 * 2 ^ (8 * (q.dst % 64)))) hMeets (by omega : q.dst < 2 ^ 30) hGood (run_ne_zero hLen (by omega))
  have hAt (i : Nat) : q.dst / 64 * 64 + (q.dst % 64 + i) = q.dst + i := by omega
  refine ⟨e, ?_, hM, fun i hi => ?_, fun x hx => hKept x fun i hi hBit => ?_⟩
  · unfold Dev.moverRun
    dsimp only
    rw [if_neg (by omega), hFill, Nat.add_zero, Nat.sub_zero, Nat.min_eq_right (by omega)]
    rw [if_pos rfl]
    dsimp only
    rw [if_neg (by decide), Nat.add_zero q.dst, hW]
    dsimp only
    rw [if_pos (by decide), Nat.zero_add]
    unfold Dev.moverRun
    rw [if_pos (Nat.le_refl _)]
  · have hByte := hSet (q.dst % 64 + i) (by omega) (by rw [bitOf_run]; simp [hi])
    rw [hAt, byteOf_shifted (k := 64) _ _ (by omega) (by omega), Nat.add_sub_cancel_left, byteOf_fillBytes _ (by omega)] at hByte
    exact hByte
  · rw [bitOf_run, decide_eq_true_eq] at hBit
    have hPlace := hx (i - q.dst % 64) (by omega)
    rwa [show q.dst + (i - q.dst % 64) = q.dst / 64 * 64 + i by omega] at hPlace

/-- STAT is written into byte 31 of a descriptor in the memory die. -/
theorem moverStat_line {d : Dev} {desc : Nat} (st : Nat) (hMeets : d.stack.meets = []) (hAligned : desc % 32 = 0) (hIn : desc < 2 ^ 30)
    (hGood : ∀ i < 2, d.wordGood (2 * (desc / 64) + i)) :
    ∃ e, d.moverStat desc st = (e, dsOk) ∧ MemWrote d e ∧ e.mem.bytes.at (d.bytePlace (desc + 31)) 0 = BitVec.ofNat 8 st ∧
      ∀ x, x ≠ d.bytePlace (desc + 31) → e.mem.bytes.at x 0 = d.mem.bytes.at x 0 := by
  have hMask : 2 ^ (desc % 64 + 31) = (2 ^ 1 - 1) * 2 ^ (desc % 64 + 31) := (Nat.one_mul _).symm
  obtain ⟨e, hW, hM, hSet, hKept⟩ := dsWrite_bytes (cls := clsMover) (mask := (2 ^ 1 - 1) * 2 ^ (desc % 64 + 31))
    (BitVec.ofNat 512 (st * 2 ^ (8 * (desc % 64 + 31)))) hMeets hIn hGood (run_ne_zero (by decide) (by omega))
  have hAt : desc / 64 * 64 + (desc % 64 + 31) = desc + 31 := by omega
  refine ⟨e, ?_, hM, ?_, fun x hx => hKept x fun i hi hBit => ?_⟩
  · unfold Dev.moverStat
    dsimp only
    rw [hMask]
    exact hW
  · have hByte := hSet (desc % 64 + 31) (by omega) (by rw [bitOf_run]; simp)
    rw [hAt, byteOf_shifted (k := 64) _ _ (by omega) (Nat.le_refl _), Nat.sub_self] at hByte
    rw [hByte]
    simp [byteOf]
  · rw [bitOf_run, decide_eq_true_eq] at hBit
    rw [show i = desc % 64 + 31 by omega, hAt]
    exact hx

/-! ## The chain -/

theorem moverBase_window (m : Fin 8) : rootBase + Reg.IRQ_CTRL.off < moverBase m ∧ moverBase m + 0x1000 ≤ columnBase 0 0 := by
  revert m
  decide

/-- Only registers of one mover's window, what the memory dies hold and the chains may differ. -/
structure MoverLeft (m : Fin 8) (d e : Dev) : Prop where
  parts : OnlyParts [.regs, .mem, .ext] d e
  window : OnlyWindow (moverBase m) d e

section
variable {m : Fin 8} {d e : Dev}

theorem MoverLeft.refl (m : Fin 8) (d : Dev) : MoverLeft m d d := ⟨by simp, fun _ _ => rfl⟩

theorem MoverLeft.setFld (h : MoverLeft m d e) {f : Fld} {n : Nat} (hf : f.off < 0x1000) : MoverLeft m d (e.setFld (moverBase m) f n) := by
  refine ⟨by simpa using h.parts, fun a ha => ?_⟩
  rw [reg_setFld, if_neg (by omega)]
  exact h.window a ha

theorem MoverLeft.modExt (h : MoverLeft m d e) (f : ExtRec → ExtRec) : MoverLeft m d (e.modExt f) := ⟨by simpa using h.parts, h.window⟩

theorem MoverLeft.wrote {f : Dev} (h : MoverLeft m d e) (g : MemWrote e f) : MoverLeft m d f :=
  ⟨h.parts.trans (g.parts.mono (by simp)), fun a ha => (g.reg a).trans (h.window a ha)⟩

theorem MoverLeft.raiseIf (h : MoverLeft m d e) (c : Bool) {f : Fld} (hf : f.off < 0x1000) : MoverLeft m d (e.raiseIf c (moverBase m) f) := by
  unfold Dev.raiseIf
  split
  · exact h.setFld hf
  · exact h

theorem MoverLeft.moverStop (h : MoverLeft m d e) : MoverLeft m d (e.moverStop m) := (h.modExt _).setFld (by decide)

theorem MoverLeft.quiet (h : MoverLeft m d e) : e.quiet = d.quiet := by
  have := moverBase_window m
  exact quiet_congr (h.parts .kryup (by simp)) (h.parts .clk (by simp)) (h.window _ (by omega)) (by rw [h.parts .stack (by simp)])

/-- A count of the mover's leaves every word as good as it was. -/
theorem wordGood_countBy {f : Fld} {n w : Nat} (hf : f.off < 0x1000) (h : d.wordGood w) : (d.countBy (moverBase m) f n).wordGood w := by
  have hWindow := moverBase_window m
  have hFld (l c : Nat) (g : Fld) : (d.countBy (moverBase m) f n).fld (columnBase l c) g = d.fld (columnBase l c) g := by
    have := columnBase_ge l c g.off
    unfold Dev.fld
    rw [reg_countBy, if_neg (by omega)]
  have hBarred : (d.countBy (moverBase m) f n).baseBarred false w = d.baseBarred false w := by
    unfold Dev.baseBarred Dev.memBarred Dev.columnBarred Dev.bankDead Dev.fenced Dev.proving Dev.proofDepth Dev.flag Dev.ust
    simp only [hFld]
    rfl
  exact ⟨hBarred.trans h.1, h.2⟩

end

/-- What the end of a chain shows: stopped, with an event and perhaps the descriptor's own. -/
theorem moverStop_shows (d : Dev) (m : Fin 8) : (d.moverStop m).ext.chains.look m = none ∧ (d.moverStop m).fld (moverBase m) Reg.MV_STATUS.BUSY = 0 := by
  refine ⟨SMap.look_del_same .., ?_⟩
  unfold Dev.moverStop
  rw [fld_setFld_same (by decide)]
  rfl

/-- A descriptor that ends well is the chain's last (R332). -/
def Dev.chainDone (d : Dev) (m : Nat) (irq : Bool) : Dev :=
  ((d.raiseIf irq (moverBase m) Reg.MV_EVENT.DESC_DONE).moverStop m).raise (moverBase m) Reg.MV_EVENT.CHAIN_DONE

/-- A descriptor ends the chain with an error (R334). -/
def Dev.chainErr (d : Dev) (m : Nat) (irq : Bool) (err : Nat) : Dev :=
  (d.raiseIf irq (moverBase m) Reg.MV_EVENT.DESC_DONE).moverErr m err

section
variable {m : Fin 8} {c : Chain} {d d1 : Dev} {w : RowWord} (hChain : d.ext.chains.look m = some c) (hRun : d.runs (moverBase m) = true)
  (hRead : d.dsRead32 clsMover c.desc = (d1, dsOk, w))
include hChain hRun hRead

/-- A descriptor whose transfer ends well, whose STAT is written and that is the last ends the chain. -/
theorem descriptorEnd_done {d2 d3 : Dev} {q : MoverDesc} {n : Nat} (hDesc : moverDesc (d1.fld (moverBase m) Reg.UNIT_VER.MAJOR) w = q)
    (hBar : q.bar = none) (hMoved : Dev.moverRun q (q.len / 64 + 2) d1 0 = (d2, true, n))
    (hStat : (d2.countBy (moverBase m) Reg.MV_BYTES_COUNT.COUNT n).moverStat c.desc mvOk = (d3, dsOk)) (hLast : q.last = true) :
    opDescriptorEnd m [] d = d3.chainDone m q.irq := by
  unfold opDescriptorEnd Dev.withPorts
  rw [if_pos rfl]
  dsimp only
  rw [hChain]
  dsimp only
  rw [hRun, if_neg (by simp), hRead]
  dsimp only
  rw [if_neg (by decide), hDesc, hBar]
  dsimp only
  rw [hMoved]
  dsimp only
  have hRes : (if (decide (mvOk = mvOk) && !dsDone dsOk) = true then mvBusError else mvOk) = mvOk := by decide
  rw [if_pos rfl, hStat]
  dsimp only
  rw [hRes, if_neg (not_not_intro rfl), if_pos hLast]
  rfl

/-- A descriptor that is barred ends the chain with its status, which STAT shows. -/
theorem descriptorEnd_barred {d2 : Dev} {q : MoverDesc} {r : Nat} (hDesc : moverDesc (d1.fld (moverBase m) Reg.UNIT_VER.MAJOR) w = q)
    (hBar : q.bar = some r) (hErr : r ≠ mvOk) (hStat : d1.moverStat c.desc r = (d2, dsOk)) :
    opDescriptorEnd m [] d = d2.chainErr m q.irq r := by
  unfold opDescriptorEnd Dev.withPorts
  rw [if_pos rfl]
  dsimp only
  rw [hChain]
  dsimp only
  rw [hRun, if_neg (by simp), hRead]
  dsimp only
  rw [if_neg (by decide), hDesc, hBar]
  dsimp only
  have hRes : (if (decide (r = mvOk) && !dsDone dsOk) = true then mvBusError else r) = r := by simp [hErr]
  rw [hStat]
  dsimp only
  rw [hRes, if_pos hErr]
  rfl

end

end Sys2Proof.Machine

/-! # The mover's commands settled (R332 to R334) -/

namespace Sys2Proof.Machine

set_option Elab.async false

section
variable {m : Fin 8} {d3 : Dev} {irq : Bool}

theorem chainDone_mem : (d3.chainDone m irq).mem = d3.mem := by
  unfold Dev.chainDone Dev.raiseIf
  split <;> rfl

theorem chainErr_mem (err : Nat) : (d3.chainErr m irq err).mem = d3.mem := by
  unfold Dev.chainErr Dev.raiseIf
  split <;> rfl

theorem chainDone_chains : (d3.chainDone m irq).ext.chains.look m = none := by
  unfold Dev.chainDone Dev.raise
  rw [setFld_ext]
  exact (moverStop_shows _ m).1

theorem chainErr_chains (err : Nat) : (d3.chainErr m irq err).ext.chains.look m = none := by
  unfold Dev.chainErr Dev.moverErr Dev.raise
  rw [setFld_ext, setFld_ext]
  exact (moverStop_shows _ m).1

/-- What a chain that is done shows. -/
theorem chainDone_shows : (d3.chainDone m irq).fld (moverBase m) Reg.MV_STATUS.BUSY = 0 ∧
    (d3.chainDone m irq).fld (moverBase m) Reg.MV_EVENT.CHAIN_DONE = 1 ∧
    (irq = true → (d3.chainDone m irq).fld (moverBase m) Reg.MV_EVENT.DESC_DONE = 1) ∧
    (d3.chainDone m irq).fld (moverBase m) Reg.MV_BYTES_COUNT.COUNT = d3.fld (moverBase m) Reg.MV_BYTES_COUNT.COUNT := by
  unfold Dev.chainDone
  refine ⟨?_, fld_raise_same (by decide) (by decide), fun hIrq => ?_, ?_⟩ <;> unfold Dev.raise
  · rw [fld_setFld_clear (by decide)]
    exact (moverStop_shows _ m).2
  · rw [fld_setFld_clear (by decide), Dev.moverStop, fld_setFld_clear (by decide), fld_modExt, hIrq]
    exact fld_raise_same (by decide) (by decide)
  · rw [fld_setFld_clear (by decide), Dev.moverStop, fld_setFld_clear (by decide), fld_modExt, Dev.raiseIf]
    split
    · exact fld_setFld_clear (by decide)
    · rfl

/-- What a chain that an error ends shows. -/
theorem chainErr_shows {err : Nat} (hErr : err < 256) : (d3.chainErr m irq err).fld (moverBase m) Reg.MV_STATUS.ERR = err ∧
    (d3.chainErr m irq err).fld (moverBase m) Reg.MV_STATUS.BUSY = 0 ∧ (d3.chainErr m irq err).fld (moverBase m) Reg.MV_EVENT.CHAIN_ERR = 1 := by
  unfold Dev.chainErr Dev.moverErr
  refine ⟨?_, ?_, fld_raise_same (by decide) (by decide)⟩ <;> unfold Dev.raise <;> rw [fld_setFld_clear (by decide)]
  · rw [fld_setFld_same (by decide)]
    exact Nat.mod_eq_of_lt hErr
  · rw [fld_setFld_clear (by decide)]
    exact (moverStop_shows _ m).2

theorem MoverLeft.chainDone {d : Dev} (h : MoverLeft m d d3) : MoverLeft m d (d3.chainDone m irq) :=
  ((h.raiseIf irq (by decide)).moverStop).setFld (by decide)

theorem MoverLeft.chainErr {d : Dev} (h : MoverLeft m d d3) (err : Nat) : MoverLeft m d (d3.chainErr m irq err) :=
  (((h.raiseIf irq (by decide)).moverStop).setFld (by decide)).setFld (by decide)

end

section
variable {s : State} {m : Fin 8} {c : Chain} {q : MoverDesc} (hq : s.dev.quiet = true) (hChain : s.dev.ext.chains.look m = some c)
  (hRun : s.dev.runs (moverBase m) = true) (hAligned : c.desc % 32 = 0) (hIn : c.desc < 2 ^ 30)
  (hGood : ∀ i < 2, s.dev.wordGood (2 * (c.desc / 64) + i))
  (hDesc : q = moverDesc (s.dev.fld (moverBase m) Reg.UNIT_VER.MAJOR) (s.dev.wordData (s.dev.physWord (c.desc / 32))))
include hq hChain hRun hAligned hIn hGood hDesc

omit hq hChain hRun hAligned hIn hDesc in
theorem wordGood_half : s.dev.wordGood (c.desc / 32) := by
  have h := hGood (c.desc / 32 % 2) (Nat.mod_lt _ (by decide))
  rwa [show 2 * (c.desc / 64) + c.desc / 32 % 2 = c.desc / 32 by omega] at h

/-- A last descriptor that fills bytes of one line of the memory die. -/
theorem descriptorEnd_fills (hBar : q.bar = none) (hFill : q.fill = true) (hLast : q.last = true) (hLine : q.dst % 64 + q.len ≤ 64)
    (hDst : q.dst + q.len ≤ 2 ^ 30) (hApart : q.dst / 64 ≠ c.desc / 64) (hGoodDst : ∀ i < 2, s.dev.wordGood (2 * (q.dst / 64) + i)) :
    Completes (.descriptorEnd m []) s fun e =>
      (∀ i < q.len, e.mem.bytes.at (s.dev.bytePlace (q.dst + i)) 0 = byteOf q.src (i % 4)) ∧
      e.mem.bytes.at (s.dev.bytePlace (c.desc + 31)) 0 = 0 ∧
      (∀ a, (∀ i < q.len, a ≠ s.dev.bytePlace (q.dst + i)) → a ≠ s.dev.bytePlace (c.desc + 31) →
        e.mem.bytes.at a 0 = s.dev.mem.bytes.at a 0) ∧
      Counted (moverBase m) Reg.MV_BYTES_COUNT.COUNT q.len s.dev e ∧ e.fld (moverBase m) Reg.MV_STATUS.BUSY = 0 ∧
      e.fld (moverBase m) Reg.MV_EVENT.CHAIN_DONE = 1 ∧ (q.irq = true → e.fld (moverBase m) Reg.MV_EVENT.DESC_DONE = 1) ∧
      e.ext.chains.look m = none ∧ OnlyParts [.regs, .mem, .ext] s.dev e ∧ OnlyWindow (moverBase m) s.dev e := by
  obtain ⟨-, -, -, -, hMeets⟩ := s.dev.quiet_iff.mp hq
  have hLen : 0 < q.len := by
    by_contra h
    unfold MoverDesc.bar at hBar
    rw [if_pos (.inl (by omega))] at hBar
    cases hBar
  obtain ⟨d1, hRead, hM1, hB1⟩ := dsRead32_good (cls := clsMover) hMeets hIn (wordGood_half hGood)
  have hPlace (a : Nat) : d1.bytePlace a = s.dev.bytePlace a := by
    unfold Dev.bytePlace
    rw [hM1.physWord]
  obtain ⟨d2, hMoved, hM2, hSet, hKept⟩ := moverRun_line (q.len / 64) (hM1.meets.trans hMeets) hFill hLen hLine hDst
    fun i hi => hM1.wordGood (hGoodDst i hi)
  have hPlace2 (a : Nat) : (d2.countBy (moverBase m) Reg.MV_BYTES_COUNT.COUNT q.len).bytePlace a = s.dev.bytePlace a := by
    rw [← hPlace]
    unfold Dev.bytePlace
    rw [← hM2.physWord]
    rfl
  obtain ⟨d3, hStat, hM3, hStatByte, hStatKept⟩ := moverStat_line (d := d2.countBy (moverBase m) Reg.MV_BYTES_COUNT.COUNT q.len) mvOk
    ((hM2.meets.trans hM1.meets).trans hMeets) hAligned hIn
    fun i hi => wordGood_countBy (by decide) (hM2.wordGood (hM1.wordGood (hGood i hi)))
  have hVersion : moverDesc (d1.fld (moverBase m) Reg.UNIT_VER.MAJOR) (s.dev.wordData (s.dev.physWord (c.desc / 32))) = q := by
    rw [hM1.parts.fld_eq (by simp), hDesc]
  have hEnd := descriptorEnd_done hChain hRun hRead hVersion hBar hMoved hStat hLast
  have hLeft : MoverLeft m s.dev d3 := ((((MoverLeft.refl m s.dev).wrote hM1).wrote hM2).setFld (by decide)).wrote hM3
  rw [hPlace2] at hStatByte hStatKept
  simp only [hPlace, hB1] at hSet hKept
  have hFar (i : Nat) (hi : i < q.len) : s.dev.bytePlace (q.dst + i) ≠ s.dev.bytePlace (c.desc + 31) := by
    intro h
    unfold Dev.bytePlace at h
    have hWord := physWord_inj (d := s.dev) (v := (q.dst + i) / 32) (w := (c.desc + 31) / 32) (by omega) (by omega) (by omega)
    omega
  obtain ⟨hBusy, hDone, hIrq, hCount⟩ := chainDone_shows (m := m) (d3 := d3) (irq := q.irq)
  refine completes_quiet (f := opDescriptorEnd m []) rfl ?_ ?_ <;> rw [hEnd]
  · rw [hLeft.chainDone.quiet, hq]
  · refine ⟨fun i hi => ?_, ?_, fun a ha hne => ?_, ?_, hBusy, hDone, hIrq, chainDone_chains, hLeft.chainDone.parts, hLeft.chainDone.window⟩
    · rw [chainDone_mem, hStatKept _ (hFar i hi)]
      exact hSet i hi
    · rw [chainDone_mem, hStatByte]
      rfl
    · rw [chainDone_mem, hStatKept _ hne]
      exact hKept a ha
    · unfold Counted
      rw [hCount, hM3.parts.fld_eq (by simp), fld_countBy_same (by decide), hM2.parts.fld_eq (by simp), hM1.parts.fld_eq (by simp)]

/-- A descriptor that names a key ends the chain with KEY in its STAT. -/
theorem descriptorEnd_keyed (hBar : q.bar = some mvKey) :
    Completes (.descriptorEnd m []) s fun e =>
      e.mem.bytes.at (s.dev.bytePlace (c.desc + 31)) 0 = BitVec.ofNat 8 mvKey ∧
      (∀ a, a ≠ s.dev.bytePlace (c.desc + 31) → e.mem.bytes.at a 0 = s.dev.mem.bytes.at a 0) ∧
      e.fld (moverBase m) Reg.MV_STATUS.ERR = mvKey ∧ e.fld (moverBase m) Reg.MV_STATUS.BUSY = 0 ∧
      e.fld (moverBase m) Reg.MV_EVENT.CHAIN_ERR = 1 ∧ e.ext.chains.look m = none := by
  obtain ⟨-, -, -, -, hMeets⟩ := s.dev.quiet_iff.mp hq
  obtain ⟨d1, hRead, hM1, hB1⟩ := dsRead32_good (cls := clsMover) hMeets hIn (wordGood_half hGood)
  have hPlace (a : Nat) : d1.bytePlace a = s.dev.bytePlace a := by
    unfold Dev.bytePlace
    rw [hM1.physWord]
  obtain ⟨d2, hStat, hM2, hStatByte, hStatKept⟩ := moverStat_line mvKey (hM1.meets.trans hMeets) hAligned hIn
    fun i hi => hM1.wordGood (hGood i hi)
  have hVersion : moverDesc (d1.fld (moverBase m) Reg.UNIT_VER.MAJOR) (s.dev.wordData (s.dev.physWord (c.desc / 32))) = q := by
    rw [hM1.parts.fld_eq (by simp), hDesc]
  have hEnd := descriptorEnd_barred hChain hRun hRead hVersion hBar (by decide) hStat
  have hLeft : MoverLeft m s.dev d2 := ((MoverLeft.refl m s.dev).wrote hM1).wrote hM2
  rw [hPlace] at hStatByte hStatKept
  obtain ⟨hErr, hBusy, hEvent⟩ := chainErr_shows (m := m) (d3 := d2) (irq := q.irq) (err := mvKey) (by decide)
  refine completes_quiet (f := opDescriptorEnd m []) rfl ?_ ?_ <;> rw [hEnd]
  · rw [(hLeft.chainErr mvKey).quiet, hq]
  · refine ⟨?_, fun a ha => ?_, hErr, hBusy, hEvent, chainErr_chains mvKey⟩
    · rw [chainErr_mem, hStatByte]
    · rw [chainErr_mem, hStatKept a ha, hB1]

end

theorem irq_ne_mover (m : Fin 8) : rootBase + Reg.IRQ_CTRL.off ≠ moverBase m + Reg.MV_STATUS.BUSY.off := by
  have := moverBase_window m
  omega

section
variable {s : State} {path m : Fin 8} (hq : s.dev.quiet = true) (hReach : s.dev.reached path (moverBase m + Reg.MV_CTRL.GO.off) = true)
include hq hReach

theorem moverGo_starts (hFree : s.dev.ext.chains.look m = none) (hRun : s.dev.runs (moverBase m) = true) :
    Completes (.moverGo path m) s fun e =>
      e.ext = { s.dev.ext with chains := s.dev.ext.chains.put m { desc :=
        (s.dev.reg (moverBase m + Reg.MV_DESC_LO.ADDR_LO.off)).toNat + s.dev.fld (moverBase m) Reg.MV_DESC_HI.ADDR_HI * 2 ^ 32 } } ∧
      e.fld (moverBase m) Reg.MV_STATUS.BUSY = 1 ∧ e.answered path stOk 0 ∧ OnlyParts [.regs, .ctl, .ext] s.dev e ∧
      OnlyRegs [moverBase m + Reg.MV_STATUS.BUSY.off] s.dev e := by
  have hIrq := irq_ne_mover m
  generalize hStart : (s.dev.reg (moverBase m + Reg.MV_DESC_LO.ADDR_LO.off)).toNat + s.dev.fld (moverBase m) Reg.MV_DESC_HI.ADDR_HI * 2 ^ 32 = a
  have hOp : s.dev.moverGo m = (s.dev.modExt fun x => { x with chains := x.chains.put m { desc := a } }).setFld (moverBase m) Reg.MV_STATUS.BUSY 1 := by
    unfold Dev.moverGo SMap.has
    dsimp only
    rw [hFree, hRun, if_neg (by decide), hStart]
  refine completes_quiet (f := opMoverGo path m) rfl ?_ ?_ <;> unfold opMoverGo <;> rw [viaCtl_reached hReach, hOp]
  · rw [quiet_finish, quiet_setFld _ _ _ _ hIrq, quiet_modExt, hq]
  · refine ⟨by rw [finish_ext, setFld_ext, modExt_ext], ?_, finish_answered .., by simp, by simp⟩
    rw [fld_finish, fld_setFld_same (by decide)]
    rfl

theorem moverGo_rejected {c : Chain} (hChain : s.dev.ext.chains.look m = some c) :
    Completes (.moverGo path m) s fun e =>
      e.fld (moverBase m) Reg.MV_STATUS.ERR = mvRejected ∧ e.answered path stOk 0 ∧ OnlyParts [.regs, .ctl] s.dev e ∧
      OnlyRegs [moverBase m + Reg.MV_STATUS.BUSY.off] s.dev e := by
  have hIrq := irq_ne_mover m
  have hOp : s.dev.moverGo m = s.dev.setFld (moverBase m) Reg.MV_STATUS.ERR mvRejected := by
    unfold Dev.moverGo SMap.has
    dsimp only
    rw [hChain]
    exact if_pos rfl
  refine completes_quiet (f := opMoverGo path m) rfl ?_ ?_ <;> unfold opMoverGo <;> rw [viaCtl_reached hReach, hOp]
  · rw [quiet_finish, quiet_setFld _ _ _ _ (show _ ≠ moverBase m + Reg.MV_STATUS.ERR.off from hIrq), hq]
  · refine ⟨?_, finish_answered .., by simp, ?_⟩
    · rw [fld_finish, fld_setFld_same (by decide)]
      rfl
    · exact (onlyRegs_setFld (f := Reg.MV_STATUS.ERR) (List.mem_singleton_self _)).mpr (onlyRegs_refl _ _)

end

/-- Settles O41: GO by whether a chain runs, and the descriptor's end by what the descriptor read asks for. -/
theorem moversRunDescriptors : Obligations.MoversRunDescriptors := by
  unfold Obligations.MoversRunDescriptors
  intro s path m c q hq d b start place good word
  refine ⟨fun hReach => ⟨moverGo_starts hq hReach, moverGo_rejected hq hReach⟩, fun hChain hRun hAligned hIn hGood hDesc => ⟨?_, ?_⟩⟩
  · exact fun hBar hFill hLast hLine hDst hApart hGoodDst =>
      descriptorEnd_fills hq hChain hRun hAligned hIn hGood hDesc hBar hFill hLast hLine hDst hApart hGoodDst
  · exact fun hBar => descriptorEnd_keyed hq hChain hRun hAligned hIn hGood hDesc hBar

end Sys2Proof.Machine

/-! # Requests at a fabric data port (R312 to R326) -/

namespace Sys2Proof.Machine

set_option Elab.async false

/-! ## A machine with another queue at its data ports -/

/-- The machine with other queues of outstanding requests. -/
def Dev.withQueue (d : Dev) (Q : SMap (List FdpReq)) : Dev := d.modExt fun x => { x with fdpQueue := Q }

section
variable (d : Dev) (Q : SMap (List FdpReq))

theorem withQueue_extRefused (v : Nat) (b : Bool) : (d.withQueue Q).extRefused v b = d.extRefused v b := rfl
theorem withQueue_keyRefused (cls k : Nat) : (d.withQueue Q).keyRefused cls k = d.keyRefused cls k := rfl
theorem withQueue_visible : (d.withQueue Q).visible = d.visible := rfl
theorem withQueue_dsTarget (a : Nat) : (d.withQueue Q).dsTarget a = d.dsTarget a := rfl
theorem withQueue_dsBar (cls a : Nat) : (d.withQueue Q).dsBar cls a = d.dsBar cls a := rfl
theorem withQueue_extLine (n : Nat) : (d.withQueue Q).extLine n = d.extLine n := rfl
theorem withQueue_verify (k v : Nat) (l : ExtLine) : (d.withQueue Q).verify k v l = d.verify k v l := rfl
theorem withQueue_decrypt (k v : Nat) (l : ExtLine) : (d.withQueue Q).decrypt k v l = d.decrypt k v l := rfl
theorem withQueue_sealLine (k v : Nat) (st : BitVec 4) (x : Line) : (d.withQueue Q).sealLine k v st x = d.sealLine k v st x := rfl
theorem withQueue_groupClocked (g : Nat) : (d.withQueue Q).groupClocked g = d.groupClocked g := rfl

end

/-! ## A request that is served at once -/

/-- The queues once a request has been taken and has left its port's queue. -/
def Dev.fdpTaken (d : Dev) (port : Nat) (r : FdpReq) : Dev := d.withQueue ((d.ext.fdpQueue.set port [] [r]).set port [] [])

theorem fdpTaken_look (d : Dev) (port : Nat) (r : FdpReq) : (d.fdpTaken port r).ext.fdpQueue.look port = none := by
  show (((d.ext.fdpQueue.set port [] [r])).set port [] []).look port = none
  unfold SMap.set
  rw [if_pos rfl]
  exact SMap.look_del_same ..

/-- What a request does once its turn has come. -/
def Dev.fdpActs (d : Dev) (port : Nat) (r : FdpReq) : Dev :=
  if r.write then
    (d.dsWrite clsFdp r.addr r.ben r.poison r.data {} true).1.fdpEnd port (d.dsWrite clsFdp r.addr r.ben r.poison r.data {} true).2 0
  else
    (d.dsRead clsFdp r.addr (2 ^ 64 - 1) {} true).1.fdpEnd port (d.dsRead clsFdp r.addr (2 ^ 64 - 1) {} true).2.1
      (d.dsRead clsFdp r.addr (2 ^ 64 - 1) {} true).2.2

/-- A request at a port that can take it, whose unit serves it, completes at once. -/
theorem fdpRequest_served {d : Dev} {port v : Nat} {r : FdpReq} (hReady : d.fdpReady port = true)
    (hLive : d.portLive (portTiles (quadrantGroup port)) portData = true) (hNone : d.fdpWaiting port = [])
    (hTarget : d.dsTarget (dsOffset r.addr) = .external v) (hServed : d.extRefused v = false) (hFound : r.found = {}) (hNew : r.refused = false) :
    d.fdpRequest port r = (d.fdpTaken port r).fdpActs port r := by
  have hWarm : d.kryup.warm = false := by
    unfold Dev.extRefused at hServed
    dsimp only at hServed
    simp only [Bool.or_eq_false_iff] at hServed
    exact hServed.1.1.1.1
  have hClocked : d.groupClocked (quadrantGroup port) = true := by
    unfold Dev.fdpReady at hReady
    exact (Bool.and_eq_true_iff.mp hReady).1
  have hSame : ({ r with refused := d.kryup.warm || (d.extRefused v && !(r.write && r.ben % 2 ^ 64 == 0)) } : FdpReq) = r := by
    rw [hServed, hWarm]
    cases r
    simp_all
  have hWaits : (d.withQueue (d.ext.fdpQueue.set port [] [r])).fdpWaiting port = [r] := by
    show (d.ext.fdpQueue.set port [] [r]).at port [] = [r]
    rw [SMap.at_set _ _ _ _ _ _ fun _ => rfl, if_pos rfl]
  have hServe : (d.withQueue (d.ext.fdpQueue.set port [] [r])).fdpServe port r = (d.fdpTaken port r).fdpActs port r := by
    unfold Dev.fdpServe
    dsimp only
    rw [hWaits, hNew, hFound]
    show (if (false || d.kryup.warm) = true then _ else _) = _
    rw [hWarm, if_neg (by decide)]
    unfold Dev.withPorts
    rw [if_pos rfl]
    rfl
  unfold Dev.fdpRequest
  rw [hReady, hLive, if_pos (by decide)]
  dsimp only
  rw [hTarget]
  dsimp only
  rw [hSame, hNone, List.nil_append, hFound, if_neg Bool.false_ne_true]
  change Dev.fdpComplete (d.withQueue (d.ext.fdpQueue.set port [] [r])) port = _
  unfold Dev.fdpComplete
  rw [withQueue_groupClocked, hClocked, if_pos rfl, hWaits]
  exact hServe

/-! ## Accesses to a line of LPDDR5X that nothing turns away -/

/-- The data-space address of a line of LPDDR5X under a key. -/
def lineAddr (k n : Nat) : Nat := k * 2 ^ 52 + extFirst + 64 * n

theorem lineAddr_fits {k n : Nat} (hk : k < 16) (hn : 64 * n < 2 ^ 37) : (BitVec.ofNat 56 (lineAddr k n)).toNat = lineAddr k n := by
  rw [BitVec.toNat_ofNat]
  refine Nat.mod_eq_of_lt ?_
  unfold lineAddr extFirst
  omega

theorem lineAddr_offset {k n : Nat} (hn : 64 * n < 2 ^ 37) : dsOffset (lineAddr k n) = extFirst + 64 * n := by
  unfold dsOffset lineAddr extFirst
  omega

theorem lineAddr_key {k n : Nat} (hk : k < 16) (hn : 64 * n < 2 ^ 37) : dsKeyOf (lineAddr k n) = k := by
  unfold dsKeyOf bitsOf lineAddr extFirst
  rw [Nat.shiftRight_eq_div_pow]
  omega

theorem lineAddr_target {d : Dev} {n : Nat} (hIn : 64 * n < d.visible) : d.dsTarget (extFirst + 64 * n) = .external (64 * n) := by
  have hFar : ¬extFirst + 64 * n < 2 ^ 30 := by
    unfold extFirst
    omega
  unfold Dev.dsTarget
  rw [if_neg hFar, if_pos ⟨Nat.le_add_right _ _, Nat.add_lt_add_left hIn _⟩, Nat.add_sub_cancel_left]

theorem dsBar_external {d : Dev} {cls a v : Nat} (h : d.dsTarget (dsOffset a) = .external v) : d.dsBar cls a = none := by
  unfold Dev.dsBar
  dsimp only
  rw [h]

theorem line_aligned (n : Nat) : (extFirst + 64 * n) / 64 * 64 = extFirst + 64 * n := by
  unfold extFirst
  omega

/-- The decode of the address of a line. -/
theorem lineAddr_decode {d : Dev} {a n : Nat} (hOff : dsOffset a = extFirst + 64 * n) (hIn : 64 * n < d.visible) :
    d.dsTarget (dsOffset a / 64 * 64) = .external (64 * n) ∧ d.dsTarget (dsOffset a) = .external (64 * n) := by
  rw [hOff, line_aligned]
  exact ⟨lineAddr_target hIn, lineAddr_target hIn⟩

/-- An access that a unit serves when it is new is served when it was accepted before, too. -/
theorem extRefused_accepted {d : Dev} {v : Nat} (h : d.extRefused v = false) : d.extRefused v true = false := by
  unfold Dev.extRefused Dev.serves at h ⊢
  simp only [Bool.or_eq_false_iff, Bool.not_eq_false', Bool.false_and, Bool.or_false] at h ⊢
  obtain ⟨⟨⟨⟨hWarm, hCrypto⟩, hMc⟩, hProof⟩, hChan⟩ := h
  exact ⟨⟨⟨⟨hWarm, by rw [hCrypto]; rfl⟩, by rw [hMc]; rfl⟩, hProof⟩, hChan⟩

section
variable {d : Dev} {cls k v : Nat} {b : Bool}

theorem extBar_open (h : d.extRefused v b = false) (hKey : d.keyRefused cls k = false) : d.extBar cls k v b = none := by
  unfold Dev.extBar
  rw [h, hKey, if_neg Bool.false_ne_true, if_neg Bool.false_ne_true]

theorem extBar_keyed (h : d.extRefused v b = false) (hKey : d.keyRefused cls k = true) : d.extBar cls k v b = some dsKey := by
  unfold Dev.extBar
  rw [h, hKey, if_neg Bool.false_ne_true, if_pos rfl]

theorem wearLine_nothing (n : Nat) : d.wearLine n {} = d := if_pos ⟨rfl, rfl⟩

/-- A read that nothing bars, of a line that needs no mending, answers by what the line verifies as. -/
theorem extRead_found {st : Nat} (hBar : d.extBar cls k v b = none) (hSt : d.verify k v (d.extLine (v / 64)) = st) (hNot : st ≠ dsCorrected) :
    d.extRead cls k v {} b = (d.extNote cls k v st, st, if dsDone st then d.decrypt k v (d.extLine (v / 64)) else 0) := by
  unfold Dev.extRead
  rw [hBar]
  dsimp only
  rw [wearLine_nothing, hSt, if_neg hNot]

theorem extRead_barred {st : Nat} (hBar : d.extBar cls k v b = some st) : d.extRead cls k v {} b = (d.extNote cls k v st, st, 0) := by
  unfold Dev.extRead
  rw [hBar]

theorem extWriteFull_open (hBar : d.extBar cls k v b = none) (poison : Bool) (data : Line) :
    d.extWriteFull cls k v poison data b = (d.putLine (v / 64) (d.sealLine k v (if poison then linePoison else lineGood) data), dsOk) := by
  unfold Dev.extWriteFull
  rw [hBar]

theorem extWritePart_found {st mask : Nat} {data : Line} (hBar : d.extBar cls k v b = none) (hSt : d.verify k v (d.extLine (v / 64)) = st) :
    d.extWritePart cls k v mask data {} b =
      ((if dsDone st then d.putLine (v / 64) (d.sealLine k v lineGood (mergeLine (d.decrypt k v (d.extLine (v / 64))) data mask)) else d).extNote cls k v st, st) := by
  unfold Dev.extWritePart
  rw [hBar]
  dsimp only
  rw [wearLine_nothing, hSt]

theorem dsRead_external {a need : Nat} (hBar : d.dsBar cls a = none) (hTo : d.dsTarget (dsOffset a / 64 * 64) = .external v) :
    d.dsRead cls a need {} b = d.extRead cls (dsKeyOf a) v {} b := by
  unfold Dev.dsRead
  dsimp only
  rw [hBar]
  dsimp only
  rw [hTo]

theorem dsWrite_external {a mask : Nat} {poison : Bool} {data : Line} (hMask : mask % 2 ^ 64 ≠ 0) (hBar : d.dsBar cls a = none)
    (hTo : d.dsTarget (dsOffset a / 64 * 64) = .external v) :
    d.dsWrite cls a mask poison data {} b = if mask % 2 ^ 64 = 2 ^ 64 - 1 then d.extWriteFull cls (dsKeyOf a) v poison data b
      else d.extWritePart cls (dsKeyOf a) v mask data {} b := by
  unfold Dev.dsWrite
  dsimp only
  rw [if_neg hMask, hBar]
  dsimp only
  rw [hTo]

end

/-! ## What an access records -/

theorem extNote_ok (d : Dev) (cls k v : Nat) : d.extNote cls k v dsOk = d := by
  unfold Dev.extNote
  rw [if_neg (by decide), if_neg (by decide), if_neg (by decide), if_neg (by decide), if_neg (by decide)]

theorem extNote_key (d : Dev) (cls k v : Nat) :
    d.extNote cls k v dsKey = (d.count cryptoBase Reg.KEY_REFUSE_COUNT.COUNT).raise cryptoBase Reg.CRY_EVENT.KEY := by
  unfold Dev.extNote
  rw [if_neg (by decide), if_pos rfl]

theorem extNote_poison (d : Dev) (cls k v : Nat) :
    d.extNote cls k v dsPoison = (d.count cryptoBase Reg.POISON_COUNT.COUNT).raise cryptoBase Reg.CRY_EVENT.POISON := by
  unfold Dev.extNote
  rw [if_neg (by decide), if_neg (by decide), if_pos rfl]

/-- An access whose failure is a cause is logged, and offers it. -/
def Dev.alarmed (d : Dev) (cls k v st cause : Nat) : Dev :=
  (d.cryLog cls k v st).offer cause ((d.cryLog cls k v st).reg (cryptoBase + Reg.CRY_LOG_INFO.off))

theorem extNote_tag (d : Dev) (cls k v : Nat) :
    d.extNote cls k v dsTag = ((d.count cryptoBase Reg.TAG_FAIL_COUNT.COUNT).raise cryptoBase Reg.CRY_EVENT.TAG).alarmed cls k v dsTag 0x0A := by
  unfold Dev.extNote
  rw [if_neg (by decide), if_neg (by decide), if_neg (by decide), if_pos rfl]
  rfl

theorem extNote_uncorr (d : Dev) (cls k v : Nat) :
    d.extNote cls k v dsUncorr = (((d.count (mcBase (extController v)) Reg.MC_DED_COUNT.COUNT).raise (mcBase (extController v)) Reg.MC_EVENT.DED).raiseIf
      (cls != clsScrub) cryptoBase Reg.CRY_EVENT.UNCORR).alarmed cls k v dsUncorr 0x0B := by
  unfold Dev.extNote
  rw [if_neg (by decide), if_neg (by decide), if_neg (by decide), if_neg (by decide), if_pos rfl]
  rfl

/-- A line verifies as OK, corrected, poison, uncorrectable, or with a wrong tag. -/
theorem verify_cases (d : Dev) (k v : Nat) (l : ExtLine) :
    dsDone (d.verify k v l) = true ∨ d.verify k v l = dsPoison ∨ d.verify k v l = dsUncorr ∨ d.verify k v l = dsTag := by
  unfold Dev.verify ExtLine.verify
  split
  · exact .inr (.inl rfl)
  · split
    · exact .inr (.inr (.inl rfl))
    · next hUncorr =>
      split
      · exact .inr (.inr (.inr rfl))
      · refine .inl ?_
        unfold ExtLine.check at hUncorr ⊢
        split
        · next h => exact absurd (if_pos h) hUncorr
        · split <;> rfl

end Sys2Proof.Machine

/-! # Fabric data ports settled (R312 to R326) -/

namespace Sys2Proof.Machine

set_option Elab.async false

/-- A port's access has ended, its queue is empty, and no other line has changed. -/
def FdpEnds (port n st : Nat) (x : Line) (d e : Dev) : Prop :=
  e.ext.fdp.look port = some { status := st, data := x, acks := (d.ext.fdp.at port {}).acks + 1 } ∧
  e.ext.fdpQueue.look port = none ∧ ∀ m, m ≠ n → e.extLine m = d.extLine m

theorem fdpEnd_ends {port n st : Nat} {x : Line} {d y : Dev} (hFdp : y.ext.fdp = d.ext.fdp) (hQueue : y.ext.fdpQueue.look port = none)
    (hLines : ∀ m, m ≠ n → y.extLine m = d.extLine m) : FdpEnds port n st x d (y.fdpEnd port st x) := by
  refine ⟨?_, hQueue, hLines⟩
  unfold Dev.fdpEnd
  rw [modExt_ext, ← hFdp]
  exact SMap.look_put_same ..

theorem extLine_fdpEnd (d : Dev) (port st : Nat) (x : Line) (n : Nat) : (d.fdpEnd port st x).extLine n = d.extLine n := rfl

theorem FdpEnds.congr {port n st : Nat} {x : Line} {d e f : Dev} (h : FdpEnds port n st x d e) (hExt : f.ext = e.ext) : FdpEnds port n st x d f := by
  obtain ⟨hFdp, hQueue, hLines⟩ := h
  exact ⟨hExt ▸ hFdp, hExt ▸ hQueue, fun m hm => (extLine_congr hExt m).trans (hLines m hm)⟩

/-! ## Accesses that a line, or its key, fails -/

/-- Registers that only units of the memory controllers and the crypto engine hold may differ. -/
structure MemNoted (d e : Dev) : Prop where
  parts : OnlyParts [.regs] d e
  low : ∀ a < mcBase 0, e.reg a = d.reg a

theorem MemNoted.refl (d : Dev) : MemNoted d d := ⟨by simp, fun _ _ => rfl⟩

theorem MemNoted.setReg {d e : Dev} (h : MemNoted d e) {a : Nat} {v : Word} (ha : mcBase 0 ≤ a) : MemNoted d (e.setReg a v) := by
  refine ⟨by simpa using h.parts, fun c hc => ?_⟩
  rw [reg_setReg, if_neg (by omega)]
  exact h.low c hc

theorem MemNoted.setFld {d e : Dev} (h : MemNoted d e) {b n : Nat} {f : Fld} (hb : mcBase 0 ≤ b) : MemNoted d (e.setFld b f n) :=
  h.setReg (Nat.le_trans hb (Nat.le_add_right _ _))

theorem MemNoted.cryLog {d e : Dev} (h : MemNoted d e) (cls k v st : Nat) : MemNoted d (e.cryLog cls k v st) := by
  unfold Dev.cryLog
  split
  · exact h
  · exact (h.setReg (by decide)).setReg (by decide)

theorem MemNoted.quiet {d e : Dev} (h : MemNoted d e) : e.quiet = d.quiet :=
  quiet_congr (h.parts .kryup (by simp)) (h.parts .clk (by simp)) (h.low _ (by decide)) (by rw [h.parts .stack (by simp)])

theorem MemNoted.latched {d e : Dev} (h : MemNoted d e) (c : Nat) : e.latched c = d.latched c := by
  unfold Dev.latched
  rw [h.low _ (by decide)]

theorem mcBase_ge (w : Nat) : mcBase 0 ≤ mcBase w := by
  unfold mcBase
  omega

/-- CRY_LOG leaves the counters and events of the crypto engine. -/
theorem cryLog_fld (d : Dev) (cls k v st : Nat) {f : Fld} (h1 : f.off ≠ 0x104) (h2 : f.off ≠ 0x108) :
    (d.cryLog cls k v st).fld cryptoBase f = d.fld cryptoBase f := by
  unfold Dev.cryLog
  split
  · rfl
  · rw [fld_setReg_other (show cryptoBase + f.off ≠ cryptoBase + Reg.CRY_LOG_INFO.off from fun h => h2 (Nat.add_left_cancel h)), fld_setReg_other (show cryptoBase + f.off ≠ cryptoBase + Reg.CRY_LOG_ADDR.off from fun h => h1 (Nat.add_left_cancel h))]

theorem fdpEnd_quiet (d : Dev) (port st : Nat) (x : Line) : (d.fdpEnd port st x).quiet = d.quiet := quiet_modExt _ _

/-- The cause that a failed access offers finds its latch set. -/
theorem alarmed_settles {z : Dev} {cls k v st cause port : Nat} (hq : z.quiet = true) (hl : z.latched cause = true) :
    ((z.alarmed cls k v st cause).fdpEnd port st 0).settle = ((z.cryLog cls k v st).fdpEnd port st 0).arrivesAgain cause := by
  have hNoted := (MemNoted.refl z).cryLog cls k v st
  unfold Dev.alarmed
  generalize z.cryLog cls k v st = y at hNoted
  generalize y.reg (cryptoBase + Reg.CRY_LOG_INFO.off) = w
  have hComm : (y.offer cause w).fdpEnd port st 0 = (y.fdpEnd port st 0).offer cause w := rfl
  rw [hComm]
  exact settle_offer_latched (by rw [fdpEnd_quiet, hNoted.quiet, hq]) ((hNoted.latched cause).trans hl)

theorem fdpEnd_parts (d : Dev) (port st : Nat) (x : Line) : OnlyParts [.ext] d (d.fdpEnd port st x) := by simp [Dev.fdpEnd]

/-- What an alarm leaves: the port's answer, and registers that the fault's count and log do not name. -/
theorem alarmed_leaves {d z : Dev} {cls k v st cause port : Nat} (hz : MemNoted d z) (hq : d.quiet = true) (hl : d.latched cause = true) :
    ∃ e, ((z.alarmed cls k v st cause).fdpEnd port st 0).settle = e ∧ e.ext = (d.fdpEnd port st 0).ext ∧
      (∀ f : Fld, f.off ≠ 0x104 → f.off ≠ 0x108 → e.fld cryptoBase f = z.fld cryptoBase f) ∧ OnlyParts [.regs, .ext, .kryup] d e := by
  refine ⟨_, alarmed_settles (hz.quiet.trans hq) ((hz.latched cause).trans hl), ?_, fun f h1 h2 => ?_, ?_⟩
  · have hExt : (((z.cryLog cls k v st).fdpEnd port st 0).arrivesAgain cause).ext = ((z.cryLog cls k v st).fdpEnd port st 0).ext :=
      arrivesAgain_parts _ _ .ext (by simp)
    rw [hExt, Dev.fdpEnd, modExt_ext, (hz.cryLog cls k v st).parts .ext (by simp), Dev.fdpEnd, modExt_ext]
  · rw [← cryLog_fld z cls k v st h1 h2]
    unfold Dev.fld
    rw [reg_arrivesAgain _ _ _ (by simp only [cryptoBase, kryupBase, Reg.CAUSE_PEND.LATCH]; omega)
      (by simp only [cryptoBase, kryupBase, Reg.KRY_STATUS.HOLD]; omega)]
    rfl
  · exact (((hz.cryLog cls k v st).parts.mono (by simp)).trans ((fdpEnd_parts _ port st 0).mono (by simp))).trans ((arrivesAgain_parts _ cause).mono (by simp))

/-- An access that a line fails ends with the line's status; the failure is counted, and nothing else of memory changes. -/
theorem fdp_fails {d : Dev} {cls k v st port : Nat} (hq : d.quiet = true) (hTag : d.latched 0x0A = true) (hUncorr : d.latched 0x0B = true)
    (hSt : st = dsPoison ∨ st = dsUncorr ∨ st = dsTag) :
    ∃ e, ((d.extNote cls k v st).fdpEnd port st 0).settle = e ∧ e.ext = (d.fdpEnd port st 0).ext ∧
      (st = dsTag → Counted cryptoBase Reg.TAG_FAIL_COUNT.COUNT 1 d e ∧ e.fld cryptoBase Reg.CRY_EVENT.TAG = 1) ∧
      (st = dsPoison → Counted cryptoBase Reg.POISON_COUNT.COUNT 1 d e ∧ e.fld cryptoBase Reg.CRY_EVENT.POISON = 1) ∧
      OnlyParts [.regs, .ext, .kryup] d e := by
  obtain rfl | rfl | rfl := hSt
  · rw [extNote_poison]
    have hNoted : MemNoted d ((d.count cryptoBase Reg.POISON_COUNT.COUNT).raise cryptoBase Reg.CRY_EVENT.POISON) :=
      ((MemNoted.refl d).setFld (by decide)).setFld (by decide)
    refine ⟨_, settle_of_quiet (by rw [fdpEnd_quiet, hNoted.quiet, hq]), ?_, fun h => absurd h (by decide), fun _ => ⟨?_, ?_⟩, ?_⟩
    · rw [Dev.fdpEnd, modExt_ext, hNoted.parts .ext (by simp), Dev.fdpEnd, modExt_ext]
    · unfold Counted Dev.fdpEnd Dev.raise Dev.count
      rw [fld_modExt, fld_setFld_clear (by decide), fld_countBy_same (by decide)]
    · unfold Dev.fdpEnd
      rw [fld_modExt]
      exact fld_raise_same (by decide) (by decide)
    · exact (hNoted.parts.mono (by simp)).trans ((fdpEnd_parts _ port dsPoison 0).mono (by simp))
  · rw [extNote_uncorr]
    have hNoted : MemNoted d (((d.count (mcBase (extController v)) Reg.MC_DED_COUNT.COUNT).raise (mcBase (extController v)) Reg.MC_EVENT.DED).raiseIf
        (cls != clsScrub) cryptoBase Reg.CRY_EVENT.UNCORR) := by
      have hCounted : MemNoted d ((d.count (mcBase (extController v)) Reg.MC_DED_COUNT.COUNT).raise (mcBase (extController v)) Reg.MC_EVENT.DED) :=
        ((MemNoted.refl d).setFld (mcBase_ge _)).setFld (mcBase_ge _)
      unfold Dev.raiseIf
      split
      · exact hCounted.setFld (by decide)
      · exact hCounted
    obtain ⟨e, hSettle, hExt, -, hParts⟩ := alarmed_leaves (cls := cls) (k := k) (v := v) (st := dsUncorr) (port := port) hNoted hq hUncorr
    exact ⟨e, hSettle, hExt, fun h => absurd h (by decide), fun h => absurd h (by decide), hParts⟩
  · rw [extNote_tag]
    have hNoted : MemNoted d ((d.count cryptoBase Reg.TAG_FAIL_COUNT.COUNT).raise cryptoBase Reg.CRY_EVENT.TAG) :=
      ((MemNoted.refl d).setFld (by decide)).setFld (by decide)
    obtain ⟨e, hSettle, hExt, hFld, hParts⟩ := alarmed_leaves (cls := cls) (k := k) (v := v) (st := dsTag) (port := port) hNoted hq hTag
    refine ⟨e, hSettle, hExt, fun _ => ⟨?_, ?_⟩, fun h => absurd h (by decide), hParts⟩
    · unfold Counted
      rw [hFld _ (by decide) (by decide)]
      unfold Dev.raise Dev.count
      rw [fld_setFld_clear (by decide), fld_countBy_same (by decide)]
    · rw [hFld _ (by decide) (by decide)]
      exact fld_raise_same (by decide) (by decide)

/-! ## The port's commands -/

section
variable {s : State} {port : Fin 4} {k : Fin 16} {n : Nat} {addr : BitVec 56} (hq : s.dev.quiet = true)
  (hOff : dsOffset addr.toNat = extFirst + 64 * n) (hKeyOf : dsKeyOf addr.toNat = k) (hIn : 64 * n < s.dev.visible)
  (hReady : s.dev.fdpReady port = true) (hNone : s.dev.fdpWaiting port = [])
  (hLive : s.dev.portLive (portTiles (quadrantGroup port)) portData = true) (hServed : s.dev.extRefused (64 * n) = false)
include hq hOff hKeyOf hIn hReady hNone hLive hServed

omit hq hKeyOf in
/-- A read at the port is the engine's read. -/
theorem fdpRead_eq : ∃ d2, (∃ Q, d2 = s.dev.withQueue Q) ∧ d2.ext.fdpQueue.look port = none ∧
    opFdpRead port addr {} s.dev = (d2.extRead clsFdp (dsKeyOf addr.toNat) (64 * n) {} true).1.fdpEnd port
      (d2.extRead clsFdp (dsKeyOf addr.toNat) (64 * n) {} true).2.1 (d2.extRead clsFdp (dsKeyOf addr.toNat) (64 * n) {} true).2.2 := by
  obtain ⟨hLine, hTarget⟩ := lineAddr_decode hOff hIn
  refine ⟨s.dev.fdpTaken port { addr := addr.toNat, found := {} }, ⟨_, rfl⟩, fdpTaken_look .., ?_⟩
  unfold opFdpRead
  rw [fdpRequest_served hReady hLive hNone hTarget hServed rfl rfl]
  have hRead : (s.dev.fdpTaken port { addr := addr.toNat, found := {} }).dsRead clsFdp addr.toNat (2 ^ 64 - 1) {} true =
      (s.dev.fdpTaken port { addr := addr.toNat, found := {} }).extRead clsFdp (dsKeyOf addr.toNat) (64 * n) {} true :=
    dsRead_external (dsBar_external hTarget) hLine
  unfold Dev.fdpActs
  dsimp only
  rw [if_neg Bool.false_ne_true, hRead]

omit hq hKeyOf in
/-- A write at the port is the engine's write. -/
theorem fdpWrite_eq {ben : Nat} {poison : Bool} {data : Line} (hBen : ben % 2 ^ 64 ≠ 0) :
    ∃ d2, (∃ Q, d2 = s.dev.withQueue Q) ∧ d2.ext.fdpQueue.look port = none ∧ ∀ y st,
      (if ben % 2 ^ 64 = 2 ^ 64 - 1 then d2.extWriteFull clsFdp (dsKeyOf addr.toNat) (64 * n) poison data true
        else d2.extWritePart clsFdp (dsKeyOf addr.toNat) (64 * n) ben data {} true) = (y, st) →
      s.dev.fdpRequest port { write := true, addr := addr.toNat, ben := ben, poison := poison, data := data, found := {} } = y.fdpEnd port st 0 := by
  obtain ⟨hLine, hTarget⟩ := lineAddr_decode hOff hIn
  refine ⟨s.dev.fdpTaken port { write := true, addr := addr.toNat, ben := ben, poison := poison, data := data, found := {} }, ⟨_, rfl⟩,
    fdpTaken_look .., fun y st hWrite => ?_⟩
  rw [fdpRequest_served hReady hLive hNone hTarget hServed rfl rfl]
  have hDs := dsWrite_external (d := s.dev.fdpTaken port { write := true, addr := addr.toNat, ben := ben, poison := poison, data := data, found := {} })
    (cls := clsFdp) (poison := poison) (data := data) (b := true) hBen (dsBar_external hTarget) hLine
  rw [hWrite] at hDs
  unfold Dev.fdpActs
  dsimp only
  rw [if_pos rfl, hDs]

omit hOff hKeyOf hIn hReady hNone hLive hServed in
/-- A line that a write replaces, and the others. -/
theorem putLine_ends {d2 : Dev} {Q : SMap (List FdpReq)} (h2 : d2 = s.dev.withQueue Q) (hLook : d2.ext.fdpQueue.look port = none) (l : ExtLine) :
    FdpEnds port n dsOk 0 s.dev ((d2.putLine n l).fdpEnd port dsOk 0) ∧ ((d2.putLine n l).fdpEnd port dsOk 0).extLine n = l ∧
    OnlyParts [.ext] s.dev ((d2.putLine n l).fdpEnd port dsOk 0) ∧ ((d2.putLine n l).fdpEnd port dsOk 0).quiet = true := by
  subst h2
  refine ⟨fdpEnd_ends rfl hLook fun m hm => ?_, ?_, ?_, ?_⟩
  · rw [extLine_putLine, if_neg hm]
    rfl
  · exact (extLine_putLine _ n n l).trans (if_pos rfl)
  · simp [Dev.fdpEnd, Dev.putLine, Dev.withQueue]
  · rw [fdpEnd_quiet, Dev.putLine, quiet_modExt, Dev.withQueue, quiet_modExt, hq]

theorem fdpFullWrite_stores (data : Line) (poison : Bool) (hKey : s.dev.keyRefused clsFdp k = false) :
    Completes (.fdpFullWrite port addr data poison {}) s fun e =>
      FdpEnds port n dsOk 0 s.dev e ∧ e.extLine n = s.dev.sealLine k (64 * n) (if poison then linePoison else lineGood) data ∧
      (e.extLine n).state = (if poison then linePoison else lineGood) ∧ (k = 0 → (e.extLine n).data = data) ∧ OnlyParts [.ext] s.dev e := by
  obtain ⟨d2, ⟨Q, h2⟩, hLook, hEq⟩ := fdpWrite_eq (port := port) hOff hIn hReady hNone hLive hServed (ben := 2 ^ 64 - 1) (poison := poison)
    (data := data) (by decide)
  have hBar : d2.extBar clsFdp (dsKeyOf addr.toNat) (64 * n) true = none := by
    rw [h2, hKeyOf]
    exact extBar_open (extRefused_accepted hServed) hKey
  have hLineNo : 64 * n / 64 = n := by omega
  have hOp := hEq _ _ ((if_pos rfl).trans (extWriteFull_open hBar poison data))
  rw [hLineNo, hKeyOf, show d2.sealLine k (64 * n) (if poison then linePoison else lineGood) data =
    s.dev.sealLine k (64 * n) (if poison then linePoison else lineGood) data by rw [h2]; rfl] at hOp
  obtain ⟨hEnds, hLine, hParts, hQuiet⟩ := putLine_ends hq h2 hLook
    (s.dev.sealLine k (64 * n) (if poison then linePoison else lineGood) data)
  refine completes_quiet (f := opFdpFullWrite port addr data poison {}) rfl ?_ ?_ <;> unfold opFdpFullWrite <;> rw [hOp]
  · exact hQuiet
  · refine ⟨hEnds, hLine, by rw [hLine]; rfl, fun hk => ?_, hParts⟩
    rw [hLine, hk]
    rfl

theorem fdpRead_good (hKey : s.dev.keyRefused clsFdp k = false) (hFound : s.dev.verify k (64 * n) (s.dev.extLine n) = dsOk) :
    Completes (.fdpRead port addr {}) s fun e =>
      FdpEnds port n dsOk (s.dev.decrypt k (64 * n) (s.dev.extLine n)) s.dev e ∧
      (k = 0 → s.dev.decrypt k (64 * n) (s.dev.extLine n) = (s.dev.extLine n).data) ∧ e.extLine n = s.dev.extLine n ∧
      OnlyParts [.ext] s.dev e := by
  obtain ⟨d2, ⟨Q, h2⟩, hLook, hEq⟩ := fdpRead_eq (port := port) hOff hIn hReady hNone hLive hServed
  have hBar : d2.extBar clsFdp k (64 * n) true = none := by
    rw [h2]
    exact extBar_open (extRefused_accepted hServed) hKey
  have hLineNo : 64 * n / 64 = n := by omega
  have hVerify : d2.verify k (64 * n) (d2.extLine (64 * n / 64)) = dsOk := by
    rw [h2, hLineNo]
    exact hFound
  rw [hKeyOf, extRead_found hBar hVerify (by decide), extNote_ok, hLineNo] at hEq
  have hOp : opFdpRead port addr {} s.dev = d2.fdpEnd port dsOk (s.dev.decrypt k (64 * n) (s.dev.extLine n)) := by
    rw [hEq]
    dsimp only
    rw [if_pos (by decide), h2]
    rfl
  refine completes_quiet (f := opFdpRead port addr {}) rfl ?_ ?_ <;> rw [hOp]
  · rw [fdpEnd_quiet, h2, Dev.withQueue, quiet_modExt, hq]
  · subst h2
    refine ⟨fdpEnd_ends rfl hLook fun _ _ => rfl, fun hk => ?_, rfl, ?_⟩
    · rw [hk]
      rfl
    · simp [Dev.fdpEnd, Dev.withQueue]

omit hq in
/-- A partial write at the port, by what the line verifies as. -/
theorem fdpPartialWrite_eq {ben : BitVec 64} (data : Line) (hKey : s.dev.keyRefused clsFdp k = false) (hSome : ben ≠ 0)
    (hAll : ben ≠ BitVec.allOnes 64) {st : Nat} (hFound : s.dev.verify k (64 * n) (s.dev.extLine n) = st) :
    ∃ d2, (∃ Q, d2 = s.dev.withQueue Q) ∧ d2.ext.fdpQueue.look port = none ∧
      opFdpPartialWrite port addr ben data {} s.dev = ((if dsDone st then d2.putLine n (s.dev.sealLine k (64 * n) lineGood
        (mergeLine (s.dev.decrypt k (64 * n) (s.dev.extLine n)) data ben.toNat)) else d2).extNote clsFdp k (64 * n) st).fdpEnd port st 0 := by
  have hMod : ben.toNat % 2 ^ 64 = ben.toNat := Nat.mod_eq_of_lt ben.isLt
  have hNonzero : ben.toNat % 2 ^ 64 ≠ 0 := by
    rw [hMod]
    exact fun h => hSome (BitVec.eq_of_toNat_eq h)
  have hPart : ben.toNat % 2 ^ 64 ≠ 2 ^ 64 - 1 := by
    rw [hMod]
    exact fun h => hAll (BitVec.eq_of_toNat_eq (h.trans BitVec.toNat_allOnes.symm))
  obtain ⟨d2, ⟨Q, h2⟩, hLook, hEq⟩ := fdpWrite_eq (port := port) hOff hIn hReady hNone hLive hServed (poison := false) (data := data) hNonzero
  have hLineNo : 64 * n / 64 = n := by omega
  have hBar : d2.extBar clsFdp (dsKeyOf addr.toNat) (64 * n) true = none := by
    rw [h2, hKeyOf]
    exact extBar_open (extRefused_accepted hServed) hKey
  have hVerify : d2.verify (dsKeyOf addr.toNat) (64 * n) (d2.extLine (64 * n / 64)) = st := by
    rw [h2, hKeyOf, hLineNo]
    exact hFound
  have hOp := hEq _ _ ((if_neg hPart).trans (extWritePart_found hBar hVerify))
  rw [hLineNo, hKeyOf] at hOp
  have hSame : d2.sealLine k (64 * n) lineGood (mergeLine (d2.decrypt k (64 * n) (d2.extLine n)) data ben.toNat) =
      s.dev.sealLine k (64 * n) lineGood (mergeLine (s.dev.decrypt k (64 * n) (s.dev.extLine n)) data ben.toNat) := by
    rw [h2, withQueue_sealLine, withQueue_decrypt, withQueue_extLine]
  rw [hSame] at hOp
  exact ⟨d2, ⟨Q, h2⟩, hLook, hOp⟩

theorem fdpPartialWrite_merges {ben : BitVec 64} (data : Line) (hKey : s.dev.keyRefused clsFdp k = false)
    (hFound : s.dev.verify k (64 * n) (s.dev.extLine n) = dsOk) (hSome : ben ≠ 0) (hAll : ben ≠ BitVec.allOnes 64) :
    Completes (.fdpPartialWrite port addr ben data {}) s fun e =>
      FdpEnds port n dsOk 0 s.dev e ∧
      e.extLine n = s.dev.sealLine k (64 * n) lineGood (mergeLine (s.dev.decrypt k (64 * n) (s.dev.extLine n)) data ben.toNat) ∧
      OnlyParts [.ext] s.dev e := by
  obtain ⟨d2, ⟨Q, h2⟩, hLook, hOp⟩ := fdpPartialWrite_eq (port := port) hOff hKeyOf hIn hReady hNone hLive hServed data hKey hSome hAll hFound
  rw [if_pos (by decide), extNote_ok] at hOp
  obtain ⟨hEnds, hLine, hParts, hQuiet⟩ := putLine_ends (port := port) hq h2 hLook
    (s.dev.sealLine k (64 * n) lineGood (mergeLine (s.dev.decrypt k (64 * n) (s.dev.extLine n)) data ben.toNat))
  refine completes_quiet (f := opFdpPartialWrite port addr ben data {}) rfl ?_ ?_ <;> rw [hOp]
  · exact hQuiet
  · exact ⟨hEnds, hLine, hParts⟩

omit hOff hKeyOf hIn hReady hNone hLive hServed in
/-- A failed access at the port: what the end of `fdp_fails` says of the machine before the request. -/
theorem fdpFailed_ends {d2 : Dev} {Q : SMap (List FdpReq)} {v st : Nat} (h2 : d2 = s.dev.withQueue Q) (hLook : d2.ext.fdpQueue.look port = none)
    (hTag : s.dev.latched 0x0A = true) (hUncorr : s.dev.latched 0x0B = true) (hSt : st = dsPoison ∨ st = dsUncorr ∨ st = dsTag) :
    ∃ e, ((d2.extNote clsFdp k v st).fdpEnd port st 0).settle = e ∧ FdpEnds port n st 0 s.dev e ∧ e.extLine n = s.dev.extLine n ∧
      (st = dsTag → Counted cryptoBase Reg.TAG_FAIL_COUNT.COUNT 1 s.dev e ∧ e.fld cryptoBase Reg.CRY_EVENT.TAG = 1) ∧
      (st = dsPoison → Counted cryptoBase Reg.POISON_COUNT.COUNT 1 s.dev e ∧ e.fld cryptoBase Reg.CRY_EVENT.POISON = 1) ∧
      OnlyParts [.regs, .ext, .kryup] s.dev e := by
  have hQuiet : d2.quiet = true := by rw [h2, Dev.withQueue, quiet_modExt, hq]
  have hParts2 : OnlyParts [.ext] s.dev d2 := by
    rw [h2]
    simp [Dev.withQueue]
  have hLatch (c : Nat) : d2.latched c = s.dev.latched c := by
    unfold Dev.latched
    rw [hParts2.reg_eq (by simp)]
  obtain ⟨e, hSettle, hExt, hTagged, hPoisoned, hParts⟩ := fdp_fails (cls := clsFdp) (k := k) (v := v) (st := st) (port := port) hQuiet
    ((hLatch _).trans hTag) ((hLatch _).trans hUncorr) hSt
  have hEnds : FdpEnds port n st 0 s.dev (d2.fdpEnd port st 0) := by
    subst h2
    exact fdpEnd_ends rfl hLook fun _ _ => rfl
  have hCount (f : Fld) : Counted cryptoBase f 1 d2 e → Counted cryptoBase f 1 s.dev e := by
    intro h
    unfold Counted at h ⊢
    rw [h, hParts2.fld_eq (by simp)]
  refine ⟨e, hSettle, hEnds.congr hExt, ?_, fun h => (hTagged h).imp_left (hCount _), fun h => (hPoisoned h).imp_left (hCount _),
    (hParts2.mono (by simp)).trans hParts⟩
  rw [extLine_congr hExt, h2]
  rfl

theorem fdpRead_fails {st : Nat} (hKey : s.dev.keyRefused clsFdp k = false) (hFound : s.dev.verify k (64 * n) (s.dev.extLine n) = st)
    (hNot : dsDone st = false) (hTag : s.dev.latched 0x0A = true) (hUncorr : s.dev.latched 0x0B = true) :
    Completes (.fdpRead port addr {}) s fun e =>
      FdpEnds port n st 0 s.dev e ∧ e.extLine n = s.dev.extLine n ∧
      (st = dsTag → Counted cryptoBase Reg.TAG_FAIL_COUNT.COUNT 1 s.dev e ∧ e.fld cryptoBase Reg.CRY_EVENT.TAG = 1) ∧
      (st = dsPoison → Counted cryptoBase Reg.POISON_COUNT.COUNT 1 s.dev e ∧ e.fld cryptoBase Reg.CRY_EVENT.POISON = 1) ∧
      OnlyParts [.regs, .ext, .kryup] s.dev e := by
  obtain ⟨d2, ⟨Q, h2⟩, hLook, hEq⟩ := fdpRead_eq (port := port) hOff hIn hReady hNone hLive hServed
  have hBar : d2.extBar clsFdp k (64 * n) true = none := by
    rw [h2]
    exact extBar_open (extRefused_accepted hServed) hKey
  have hVerify : d2.verify k (64 * n) (d2.extLine (64 * n / 64)) = st := by
    rw [h2, show 64 * n / 64 = n by omega]
    exact hFound
  have hSt : st = dsPoison ∨ st = dsUncorr ∨ st = dsTag := by
    obtain h | h := verify_cases s.dev k (64 * n) (s.dev.extLine n) <;> rw [hFound] at h
    · rw [hNot] at h
      cases h
    · exact h
  have hNotMended : st ≠ dsCorrected := by
    rintro rfl
    cases hNot
  rw [hKeyOf, extRead_found hBar hVerify hNotMended] at hEq
  dsimp only at hEq
  rw [if_neg (by rw [hNot]; exact Bool.false_ne_true)] at hEq
  obtain ⟨e, hSettle, hRest⟩ := fdpFailed_ends (port := port) (k := k) (n := n) (v := 64 * n) hq h2 hLook hTag hUncorr hSt
  refine completes_any (f := opFdpRead port addr {}) rfl ?_
  rw [hEq, hSettle]
  exact hRest

theorem fdpPartialWrite_fails {st : Nat} {ben : BitVec 64} (data : Line) (hKey : s.dev.keyRefused clsFdp k = false)
    (hFound : s.dev.verify k (64 * n) (s.dev.extLine n) = st) (hNot : dsDone st = false) (hTag : s.dev.latched 0x0A = true)
    (hUncorr : s.dev.latched 0x0B = true) (hSome : ben ≠ 0) (hAll : ben ≠ BitVec.allOnes 64) :
    Completes (.fdpPartialWrite port addr ben data {}) s fun e => FdpEnds port n st 0 s.dev e ∧ e.extLine n = s.dev.extLine n := by
  obtain ⟨d2, ⟨Q, h2⟩, hLook, hOp⟩ := fdpPartialWrite_eq (port := port) hOff hKeyOf hIn hReady hNone hLive hServed data hKey hSome hAll hFound
  have hSt : st = dsPoison ∨ st = dsUncorr ∨ st = dsTag := by
    obtain h | h := verify_cases s.dev k (64 * n) (s.dev.extLine n) <;> rw [hFound] at h
    · rw [hNot] at h
      cases h
    · exact h
  rw [if_neg (by rw [hNot]; exact Bool.false_ne_true)] at hOp
  obtain ⟨e, hSettle, hEnds, hLine, -⟩ := fdpFailed_ends (port := port) (k := k) (n := n) (v := 64 * n) hq h2 hLook hTag hUncorr hSt
  refine completes_any (f := opFdpPartialWrite port addr ben data {}) rfl ?_
  rw [hOp, hSettle]
  exact ⟨hEnds, hLine⟩

theorem fdpRead_keyed (hKey : s.dev.keyRefused clsFdp k = true) :
    Completes (.fdpRead port addr {}) s fun e =>
      FdpEnds port n dsKey 0 s.dev e ∧ e.extLine n = s.dev.extLine n ∧ Counted cryptoBase Reg.KEY_REFUSE_COUNT.COUNT 1 s.dev e ∧
      e.fld cryptoBase Reg.CRY_EVENT.KEY = 1 ∧ OnlyParts [.regs, .ext] s.dev e := by
  obtain ⟨d2, ⟨Q, h2⟩, hLook, hEq⟩ := fdpRead_eq (port := port) hOff hIn hReady hNone hLive hServed
  have hBar : d2.extBar clsFdp k (64 * n) true = some dsKey := by
    rw [h2]
    exact extBar_keyed (extRefused_accepted hServed) hKey
  rw [hKeyOf, extRead_barred hBar, extNote_key] at hEq
  have hParts2 : OnlyParts [.ext] s.dev d2 := by
    rw [h2]
    simp [Dev.withQueue]
  have hNoted : MemNoted d2 ((d2.count cryptoBase Reg.KEY_REFUSE_COUNT.COUNT).raise cryptoBase Reg.CRY_EVENT.KEY) :=
    ((MemNoted.refl d2).setFld (by decide)).setFld (by decide)
  have hExt := hNoted.parts .ext (by simp)
  refine completes_quiet (f := opFdpRead port addr {}) rfl ?_ ?_ <;> rw [hEq]
  · rw [fdpEnd_quiet, hNoted.quiet, h2, Dev.withQueue, quiet_modExt, hq]
  · refine ⟨fdpEnd_ends ?_ ?_ fun m _ => ?_, ?_, ?_, ?_, ?_⟩
    · rw [hExt, h2]
      rfl
    · rw [hExt]
      exact hLook
    · rw [extLine_congr hExt, h2]
      rfl
    · rw [extLine_fdpEnd, extLine_congr hExt, h2, withQueue_extLine]
    · unfold Counted Dev.fdpEnd Dev.raise Dev.count
      rw [fld_modExt, fld_setFld_clear (by decide), fld_countBy_same (by decide), hParts2.fld_eq (by simp)]
    · unfold Dev.fdpEnd
      rw [fld_modExt]
      exact fld_raise_same (by decide) (by decide)
    · exact ((hParts2.mono (by simp)).trans (hNoted.parts.mono (by simp))).trans ((fdpEnd_parts _ port dsKey 0).mono (by simp))

end

/-- A port whose clock does not run, or with 16 requests outstanding, takes nothing. -/
theorem fdpRead_untaken {s : State} {port : Fin 4} {addr : BitVec 56} (hq : s.dev.quiet = true) (h : s.dev.fdpReady port = false) :
    Completes (.fdpRead port addr {}) s fun e => e = s.dev := by
  have hOp : opFdpRead port addr {} s.dev = s.dev := by
    unfold opFdpRead Dev.fdpRequest
    rw [h]
    exact if_neg Bool.false_ne_true
  exact completes_quiet (f := opFdpRead port addr {}) rfl (by rw [hOp]; exact hq) hOp

/-- Settles O39: a request at a port that can take it is performed at once, and ends by what the key and the line let pass. -/
theorem fabricDataPortsReachLines : Obligations.FabricDataPortsReachLines := by
  unfold Obligations.FabricDataPortsReachLines
  intro s port k n ben data poison hq d addr v l state found ends
  refine ⟨fdpRead_untaken hq, fun hIn hMax hTag hUncorr hReady hNone hLive => ?_⟩
  have hLow : 64 * n < 2 ^ 37 := Nat.lt_of_lt_of_le hIn hMax
  have hAddr : addr = BitVec.ofNat 56 (lineAddr k n) := rfl
  have hFits : addr.toNat = lineAddr k n := by rw [hAddr, lineAddr_fits k.isLt hLow]
  have hOff : dsOffset addr.toNat = extFirst + 64 * n := by rw [hFits, lineAddr_offset hLow]
  have hKeyOf : dsKeyOf addr.toNat = k := by rw [hFits, lineAddr_key k.isLt hLow]
  generalize addr = a at hOff hKeyOf
  refine ⟨fun hServed hKey => ⟨?_, fun hFound => ⟨?_, fun hSome hAll => ?_⟩, fun hNot => ⟨?_, fun hSome hAll => ?_⟩⟩, fun hServed hKey => ?_⟩
  · exact fdpFullWrite_stores hq hOff hKeyOf hIn hReady hNone hLive hServed data poison hKey
  · exact fdpRead_good hq hOff hKeyOf hIn hReady hNone hLive hServed hKey hFound
  · exact fdpPartialWrite_merges hq hOff hKeyOf hIn hReady hNone hLive hServed data hKey hFound hSome hAll
  · exact fdpRead_fails hq hOff hKeyOf hIn hReady hNone hLive hServed hKey rfl hNot hTag hUncorr
  · exact fdpPartialWrite_fails hq hOff hKeyOf hIn hReady hNone hLive hServed data hKey rfl hNot hTag hUncorr hSome hAll
  · exact fdpRead_keyed hq hOff hKeyOf hIn hReady hNone hLive hServed hKey

end Sys2Proof.Machine

/-! # Slots on their way into rings (R259, R264, R267, R268, R271) -/

namespace Sys2Proof.Machine

set_option Elab.async false

/-! ## A slot stored in an OPEN ring of the memory die -/

/-- The descriptor after a slot has been written, over slot AGE where the ring is full (R271). -/
def Desc.written (x : Desc) (now : Nat) : Desc :=
  let y := { x with wr := (x.wr + 1) % 2 ^ 32 }
  if decide (x.cap ≤ x.occ) = true then { y with age := (x.age + 1) % 2 ^ 32, premValid := true, premLast := now } else y

/-- The machine after the writer has put a slot into its place and moved the ring on. -/
def Dev.slotStored (d : Dev) (r : Nat) (w : RowWord) (bank p : Nat) : Dev :=
  ((((d.bankTaken bank).putWord p w).putDesc r ((d.desc r).written d.now)).seeBusy (ringEngine r)).when
    (decide ((d.desc r).cap ≤ (d.desc r).occ)) fun d => d.premLoss (ringEngine r)

theorem engine_modEngine (d : Dev) (e i : Nat) (f : EngineRec → EngineRec) :
    (d.modEngine e f).engine i = if i = e then f (d.engine e) else d.engine i := by
  rw [Dev.engine, Dev.modEngine, SMap.at_set _ _ _ _ _ _ fun _ => rfl]
  rfl

theorem engine_congr {d e : Dev} (h : e.rings = d.rings) (i : Nat) : e.engine i = d.engine i := by rw [Dev.engine, h, Dev.engine]

/-- A tree of which no word is struck takes its updates unseen (R281, R283). -/
theorem treeUpdate_unstruck {d : Dev} {r : Nat} (h : (d.engine (ringEngine r)).upset = {}) : d.treeUpdate r = d := by
  unfold Dev.treeUpdate
  dsimp only
  rw [h]
  exact if_pos (by cases (d.engine (ringEngine r)).frozen.isSome <;> rfl)

theorem setDesc_unstruck {d : Dev} {r : Nat} (x : Desc) (h : (d.engine (ringEngine r)).upset = {}) : d.setDesc r x = d.putDesc r x := by
  unfold Dev.setDesc
  dsimp only
  split
  · rfl
  · exact treeUpdate_unstruck h

/-- A slot's write into an OPEN ring of the memory die that nothing bars. -/
theorem ringWrite_stored {d : Dev} {r : Nat} {w : RowWord} {x : Desc} (hx : d.desc r = x) (hm : d.meetsNothing)
    (hFlush : (d.engine (ringEngine r)).flushing = false) (hOpen : x.state = .opened) (hIn : x.slotAddr x.wr < 2 ^ 30)
    (hBar : d.baseBarred false (x.slotAddr x.wr / 32) = false) (hTree : (d.engine (ringEngine r)).upset = {}) :
    d.ringWrite r w = d.slotStored r w (d.toWord .ring (x.slotAddr x.wr / 32)).bank (d.physWord (x.slotAddr x.wr / 32)) := by
  obtain ⟨-, hOff, -⟩ := inDie_decode (d := d) (cls := clsRing) hIn
  have hKey : dsKeyOf (x.slotAddr x.wr) = 0 := by
    unfold dsKeyOf bitsOf
    rw [Nat.shiftRight_eq_div_pow, Nat.div_eq_of_lt (Nat.lt_trans hIn (by decide)), Nat.zero_mod]
  have hDie : ringInDie (x.slotAddr x.wr) = true := by
    unfold ringInDie
    rw [hOff, hKey, decide_eq_true hIn]
    rfl
  have hPut := slotPut_inDie w hm hDie (by rw [hOff, toBarred_toWord]; exact hBar)
  unfold Dev.slotPut at hPut
  rw [hOff] at hPut
  have hEnd : slotEnd (ringInDie (x.slotAddr x.wr)) memOk = some true := by
    rw [hDie]
    rfl
  subst hx
  have hSet (y : Desc) := setDesc_unstruck (d := (d.bankTaken (d.toWord .ring ((d.desc r).slotAddr (d.desc r).wr / 32)).bank).putWord
    (d.physWord ((d.desc r).slotAddr (d.desc r).wr / 32)) w) y hTree
  unfold Dev.ringWrite
  rw [flushFirst_idle hFlush]
  dsimp only
  rw [if_neg (not_not_intro hOpen), hOff, hPut]
  dsimp only
  rw [hEnd]
  dsimp only
  unfold Dev.slotStored Desc.written Dev.when
  dsimp only
  rw [hSet]
  rfl

section
variable (d : Dev) (r : Nat) (w : RowWord) (bank p : Nat)

theorem when_premLoss_parts (c : Bool) (e : Nat) : OnlyParts [.regs] d (d.when c fun d => d.premLoss e) := by
  unfold Dev.when
  split
  · simp [Dev.premLoss]
  · simp

theorem slotStored_mem : (d.slotStored r w bank p).mem = ((d.bankTaken bank).putWord p w).mem := by
  unfold Dev.slotStored
  rw [when_premLoss_parts _ _ _ .mem (by simp), seeBusy_parts _ _ .mem (by simp)]
  rfl

theorem slotStored_rings : (d.slotStored r w bank p).rings = (d.putDesc r ((d.desc r).written d.now)).rings := by
  unfold Dev.slotStored
  rw [when_premLoss_parts _ _ _ .rings (by simp), seeBusy_parts _ _ .rings (by simp)]
  rfl

theorem slotStored_desc (i : Nat) : (d.slotStored r w bank p).desc i = if i = r then (d.desc r).written d.now else d.desc i := by
  rw [desc_congr (slotStored_rings d r w bank p), desc_putDesc]

theorem slotStored_engine (i : Nat) : (d.slotStored r w bank p).engine i = d.engine i :=
  (engine_congr (slotStored_rings d r w bank p) i).trans rfl

theorem slotStored_parts : OnlyParts [.stack, .regs, .mem, .rings, .strike] d (d.slotStored r w bank p) := by
  have hPut : OnlyParts [.stack, .regs, .mem, .rings, .strike] d (((d.bankTaken bank).putWord p w).putDesc r ((d.desc r).written d.now)) := by
    simp [Dev.bankTaken, Dev.putWord, Dev.putDesc]
  exact (hPut.trans ((seeBusy_parts _ _).mono (by simp))).trans ((when_premLoss_parts _ _ _).mono (by simp))

theorem slotStored_stack : (d.slotStored r w bank p).stack = { d.stack with meets := [] } := by
  unfold Dev.slotStored
  rw [when_premLoss_parts _ _ _ .stack (by simp), seeBusy_parts _ _ .stack (by simp)]
  rfl

theorem slotStored_reg {i : Nat} (h1 : i ≠ ringBase (ringEngine r) + Reg.PREM_LOSS_COUNT.COUNT.off)
    (h2 : i ≠ ringBase (ringEngine r) + Reg.ENG_EVENT.PREM_LOSS.off) : (d.slotStored r w bank p).reg i = d.reg i := by
  unfold Dev.slotStored Dev.when
  split
  · unfold Dev.premLoss
    rw [reg_raise, if_neg h2, reg_count, if_neg h1, seeBusy_reg]
    rfl
  · rw [seeBusy_reg]
    rfl

theorem slotStored_loss (h : (d.desc r).cap ≤ (d.desc r).occ) :
    Counted (ringBase (ringEngine r)) Reg.PREM_LOSS_COUNT.COUNT 1 d (d.slotStored r w bank p) ∧
      (d.slotStored r w bank p).fld (ringBase (ringEngine r)) Reg.ENG_EVENT.PREM_LOSS = 1 := by
  unfold Dev.slotStored Dev.when
  rw [if_pos (decide_eq_true h)]
  refine ⟨?_, fld_raise_same (by decide) (by decide)⟩
  unfold Counted Dev.premLoss Dev.raise
  rw [fld_setFld_clear (by decide), Dev.count, fld_countBy_same (by decide), Dev.fld, seeBusy_reg]
  rfl

theorem slotStored_wordData : (d.slotStored r w bank p).wordData p = w ∧ ∀ y, y ≠ p → (d.slotStored r w bank p).wordData y = d.wordData y := by
  refine ⟨?_, fun y hy => ?_⟩ <;> rw [wordData_congr (slotStored_mem d r w bank p)]
  · exact wordData_putWord_same _ p w
  · rw [putWord_wordData hy]
    rfl

variable {d r} in
/-- An OPEN ring that takes a slot is not DEAD, nor does another ring become so. -/
theorem noneDead_slotStored {e : Nat} (hOpen : (d.desc r).state = .opened) (h : d.noneDead e) : (d.slotStored r w bank p).noneDead e := by
  simp only [Dev.noneDead, List.any_eq_false, beq_iff_eq, Dev.ringsOf, List.mem_map, List.mem_filter] at h ⊢
  rintro l ⟨i, ⟨hi, he⟩, rfl⟩
  have hId : ringId e (ringLocal i) = i := by
    simp only [ringEngine, ringId, ringLocal] at he ⊢
    omega
  rw [hId, slotStored_desc]
  split
  · unfold Desc.written
    dsimp only
    split <;> simp [hOpen]
  · rename_i hne
    rw [slotStored_rings] at hi
    obtain hir | hi := mem_keys_set hi
    · exact absurd hir hne
    · simpa [hId] using h (ringLocal i) ⟨i, ⟨hi, he⟩, rfl⟩

end

end Sys2Proof.Machine

/-! # Pushes, writes, episodes and gap slots settled (R259, R264, R267, R268, R271) -/

namespace Sys2Proof.Machine

set_option Elab.async false

theorem ringBase_irq (e n : Nat) : rootBase + Reg.IRQ_CTRL.off ≠ ringBase e + n := by
  simp only [rootBase, ringBase, Reg.IRQ_CTRL.off]
  omega

theorem seeBusy_quiet (d : Dev) (e : Nat) : (d.seeBusy e).quiet = d.quiet := by
  have h := seeBusy_parts d e
  exact quiet_congr (h .kryup (by simp)) (h .clk (by simp)) (seeBusy_reg d e _) (by rw [h .stack (by simp)])

/-! ## Pushes -/

section
variable {s : State} {port : Fin 32} {e : Fin 16} {l : Fin 16384} {cross : BitVec 48} {tag : Byte} {late : Bool} {data : BitVec 192}

theorem ringId_toNat (e : Fin 16) (l : Fin 16384) : (BitVec.ofNat 18 (ringId e l)).toNat = ringId e l := by
  simp only [ringId, BitVec.toNat_ofNat]
  omega

theorem ringLocal_ringId (e : Fin 16) (l : Fin 16384) : ringLocal (ringId e l) = l := by
  simp only [ringLocal, ringId]
  omega

/-- The requests of a push port are live. -/
def Dev.pushLive (d : Dev) (port : Nat) : Bool :=
  d.portLive [(groupColumns (port / 2)).headD 0 * 2, (groupColumns (port / 2)).headD 0 * 2 + 1] (portPush + port % 2)

/-- A slot that a push brings. -/
def pushWord (cross : BitVec 48) (tag : Byte) (late : Bool) (data : BitVec 192) : RowWord :=
  slotWord cross.toNat late false false false tag.toNat data.toNat

variable (hq : s.dev.quiet = true) (hLive : s.dev.pushLive port = true) (hWarm : s.dev.kryup.warm = false)
  (hRun : s.dev.runs (ringBase e) = true)
include hLive hWarm hRun

/-- A push to a running engine acts by the state of its ring. -/
theorem opPush_open (hOpen : (s.dev.desc (ringId e l)).state = .opened) :
    opPush port (BitVec.ofNat 18 (ringId e l)) cross tag late data s.dev = s.dev.fifoOffer (ringId e l) cross.toNat [pushWord cross tag late data] := by
  unfold Dev.pushLive at hLive
  unfold opPush pushWord
  dsimp only
  rw [hLive, if_neg (by decide), ringId_toNat, ringEngine_ringId, hWarm, hRun, if_neg (by decide), hOpen]

theorem opPush_closed (hClosed : (s.dev.desc (ringId e l)).state = .closed) :
    opPush port (BitVec.ofNat 18 (ringId e l)) cross tag late data s.dev =
      ((s.dev.modRings fun g => { g with pushErr := g.pushErr.put port (2 * 2 ^ 18 + ringId e l) }).count (ringBase e) Reg.PUSH_ERR_COUNT.COUNT).raise
        (ringBase e) Reg.ENG_EVENT.PUSH_ERR := by
  have hOn : ∀ f : RingRec → RingRec, (s.dev.modRings f).ust (ringBase e) ≠ .off := by
    intro f hOff
    have hOff' : s.dev.ust (ringBase e) = .off := hOff
    unfold Dev.runs at hRun
    rw [hOff'] at hRun
    cases hRun
  unfold Dev.pushLive at hLive
  unfold opPush
  dsimp only
  rw [hLive, if_neg (by decide), ringId_toNat, ringEngine_ringId, hWarm, hRun, if_neg (by decide), hClosed]
  dsimp only
  rw [if_neg (hOn _)]

include hq

theorem push_enters (hOpen : (s.dev.desc (ringId e l)).state = .opened) (hRoom : (s.dev.engine e).fifo.length < 4096) :
    Completes (.push port (BitVec.ofNat 18 (ringId e l)) cross tag late data) s fun t =>
      t.engine e = { s.dev.engine e with fifo := (s.dev.engine e).fifo ++ [{ ring := l, word := pushWord cross tag late data }] } ∧
      t.rings.desc = s.dev.rings.desc ∧ OnlyParts [.rings, .strike] s.dev t := by
  have hOp : opPush port (BitVec.ofNat 18 (ringId e l)) cross tag late data s.dev =
      (s.dev.modEngine e fun g => { g with fifo := g.fifo ++ [{ ring := l, word := pushWord cross tag late data }] }).seeBusy e := by
    rw [opPush_open hLive hWarm hRun hOpen]
    unfold Dev.fifoOffer
    dsimp only
    rw [ringEngine_ringId, ringLocal_ringId]
    exact if_pos (by simpa using hRoom)
  refine completes_quiet (f := opPush port (BitVec.ofNat 18 (ringId e l)) cross tag late data) rfl ?_ ?_ <;> rw [hOp]
  · rw [seeBusy_quiet]
    exact hq
  · refine ⟨?_, by rw [seeBusy_rings]; rfl, ?_⟩
    · rw [engine_congr (seeBusy_rings _ _), engine_modEngine, if_pos rfl]
    · exact (show OnlyParts [.rings, .strike] s.dev (s.dev.modEngine e _) by simp).trans ((seeBusy_parts _ _).mono (by simp))

theorem push_overflows (hOpen : (s.dev.desc (ringId e l)).state = .opened) (hFull : (s.dev.engine e).fifo.length = 4096)
    (hGap : (s.dev.engine e).gap = .closed) (hRecord : (s.dev.engine e).record.count = 0) :
    Completes (.push port (BitVec.ofNat 18 (ringId e l)) cross tag late data) s fun t =>
      t.engine e = { s.dev.engine e with gap := .opened, record := { rings := [l.val], count := 1, oldest := cross.toNat, newest := cross.toNat } } ∧
      Counted (ringBase e) Reg.FIFO_DISC_COUNT.COUNT 1 s.dev t ∧ t.fld (ringBase e) Reg.ENG_EVENT.OVERFLOW = 1 ∧
      OnlyParts [.regs, .rings] s.dev t ∧
      OnlyRegs [ringBase e + Reg.FIFO_DISC_COUNT.COUNT.off, ringBase e + Reg.ENG_EVENT.OVERFLOW.off] s.dev t := by
  have hOp : opPush port (BitVec.ofNat 18 (ringId e l)) cross tag late data s.dev =
      ((s.dev.countBy (ringBase e) Reg.FIFO_DISC_COUNT.COUNT 1).raise (ringBase e) Reg.ENG_EVENT.OVERFLOW).modEngine e fun g =>
        { g with gap := .opened, record := g.record.add l 1 cross.toNat } := by
    rw [opPush_open hLive hWarm hRun hOpen]
    unfold Dev.fifoOffer
    dsimp only
    rw [ringEngine_ringId, ringLocal_ringId, if_neg (by simp [hFull])]
    unfold Dev.fifoDiscard
    dsimp only
    rw [hGap]
    rfl
  refine completes_quiet (f := opPush port (BitVec.ofNat 18 (ringId e l)) cross tag late data) rfl ?_ ?_ <;> rw [hOp]
  · have hQuiet (d : Dev) (f : EngineRec → EngineRec) : (d.modEngine e f).quiet = d.quiet := rfl
    rw [hQuiet, quiet_raise _ _ _ (ringBase_irq e _), quiet_countBy _ _ _ _ (ringBase_irq e _), hq]
  · have hReg (d : Dev) (f : EngineRec → EngineRec) (a : Nat) : (d.modEngine e f).reg a = d.reg a := rfl
    have hFld (d : Dev) (f : EngineRec → EngineRec) (b : Nat) (g : Fld) : (d.modEngine e f).fld b g = d.fld b g := rfl
    refine ⟨?_, ?_, ?_, by simp, fun a ha => ?_⟩
    · rw [engine_modEngine, if_pos rfl]
      have hAdd : (s.dev.engine e).record.add l 1 cross.toNat = { rings := [l.val], count := 1, oldest := cross.toNat, newest := cross.toNat } :=
        if_pos hRecord
      have hEngine := engine_congr ((raise_rings (d := s.dev.countBy (ringBase e) Reg.FIFO_DISC_COUNT.COUNT 1) (ringBase e) Reg.ENG_EVENT.OVERFLOW).trans
        (countBy_rings ..)) e
      rw [hEngine, hAdd]
    · unfold Counted Dev.raise
      rw [hFld, fld_setFld_clear (by decide), fld_countBy_same (by decide)]
    · rw [hFld]
      exact fld_raise_same (by decide) (by decide)
    · simp only [List.mem_cons, List.not_mem_nil, or_false, not_or] at ha
      rw [hReg, reg_raise, if_neg ha.2, reg_countBy, if_neg ha.1]

theorem push_refused (hClosed : (s.dev.desc (ringId e l)).state = .closed) :
    Completes (.push port (BitVec.ofNat 18 (ringId e l)) cross tag late data) s fun t =>
      t.rings.pushErr.look port = some (2 * 2 ^ 18 + ringId e l) ∧ t.engine e = s.dev.engine e ∧
      Counted (ringBase e) Reg.PUSH_ERR_COUNT.COUNT 1 s.dev t ∧ t.fld (ringBase e) Reg.ENG_EVENT.PUSH_ERR = 1 ∧
      OnlyParts [.regs, .rings] s.dev t ∧
      OnlyRegs [ringBase e + Reg.PUSH_ERR_COUNT.COUNT.off, ringBase e + Reg.ENG_EVENT.PUSH_ERR.off] s.dev t := by
  have hOp := opPush_closed (port := port) (cross := cross) (tag := tag) (late := late) (data := data) hLive hWarm hRun hClosed
  generalize 2 * 2 ^ 18 + ringId e l = code at hOp ⊢
  refine completes_quiet (f := opPush port (BitVec.ofNat 18 (ringId e l)) cross tag late data) rfl ?_ ?_ <;> rw [hOp]
  · rw [quiet_raise _ _ _ (ringBase_irq e _), quiet_count _ _ _ (ringBase_irq e _), quiet_modRings, hq]
  · refine ⟨?_, ?_, ?_, fld_raise_same (by decide) (by decide), by simp, fun a ha => ?_⟩
    · rw [raise_rings, count_rings, modRings_rings]
      exact SMap.look_put_same ..
    · refine (engine_congr ((raise_rings ..).trans (count_rings ..)) e).trans ?_
      rw [Dev.engine, modRings_rings]
      rfl
    · unfold Counted Dev.raise Dev.count
      rw [fld_setFld_clear (by decide), fld_countBy_same (by decide), fld_modRings]
    · simp only [List.mem_cons, List.not_mem_nil, or_false, not_or] at ha
      rw [reg_raise, if_neg ha.2, reg_count, if_neg ha.1, reg_modRings]

end

/-! ## The slot at the head of a FIFO -/

section
variable {s : State} {e : Fin 16} {l : Fin 16384} (hq : s.dev.quiet = true)
include hq

theorem slotWrite_stores {w : RowWord} {rest : List RingSlot} {x : Desc} (hx : s.dev.desc (ringId e l) = x) (hWorks : s.dev.ringWorks e = true)
    (hFifo : (s.dev.engine e).fifo = { ring := l, word := w } :: rest) (hFlush : (s.dev.engine e).flushing = false)
    (hOpen : x.state = .opened) (hIn : x.slotAddr x.wr < 2 ^ 30) (hBar : s.dev.baseBarred false (x.slotAddr x.wr / 32) = false)
    (hDead : s.dev.noneDead e) (hTree : (s.dev.engine e).upset = {}) :
    Completes (.slotWrite e false {} []) s fun t =>
      t.wordData (s.dev.physWord (x.slotAddr x.wr / 32)) = w ∧
      (∀ y, y ≠ s.dev.physWord (x.slotAddr x.wr / 32) → t.wordData y = s.dev.wordData y) ∧ (t.engine e).fifo = rest ∧
      t.desc (ringId e l) = x.written s.dev.now ∧
      (x.cap ≤ x.occ → Counted (ringBase e) Reg.PREM_LOSS_COUNT.COUNT 1 s.dev t ∧ t.fld (ringBase e) Reg.ENG_EVENT.PREM_LOSS = 1) ∧
      OnlyParts [.regs, .mem, .rings, .strike] s.dev t ∧
      OnlyRegs [ringBase e + Reg.PREM_LOSS_COUNT.COUNT.off, ringBase e + Reg.ENG_EVENT.PREM_LOSS.off] s.dev t := by
  have hEngine := engine_slotTaken s.dev e rest
  have hTaken : (s.dev.slotTaken e rest).desc (ringId e l) = x := hx
  have hWrite := ringWrite_stored (d := s.dev.slotTaken e rest) (r := ringId e l) (w := w) hTaken (.inr rfl)
    (by rw [ringEngine_ringId, hEngine]; exact hFlush) hOpen hIn hBar (by rw [ringEngine_ringId, hEngine]; exact hTree)
  have hPlace : (s.dev.slotTaken e rest).physWord (x.slotAddr x.wr / 32) = s.dev.physWord (x.slotAddr x.wr / 32) := rfl
  rw [hPlace] at hWrite
  generalize ((s.dev.slotTaken e rest).toWord .ring (x.slotAddr x.wr / 32)).bank = bank at hWrite
  generalize s.dev.physWord (x.slotAddr x.wr / 32) = p at hWrite ⊢
  generalize hZ : (s.dev.slotTaken e rest).slotStored (ringId e l) w bank p = z at hWrite
  have hMet : z.stack.met = [] := by
    rw [← hZ, slotStored_stack]
    rfl
  have hAlive : (z.writerDone s.dev.stack).noneDead e := by
    rw [noneDead_congr (show (z.writerDone s.dev.stack).rings = z.rings from rfl), ← hZ]
    exact noneDead_slotStored _ _ _ (by rw [hTaken]; exact hOpen) hDead
  have hOp : opSlotWrite e false {} [] s.dev = z.writerDone s.dev.stack := by
    rw [opSlotWrite_head hFifo hWorks, hWrite, portsOut_none _ hMet, ringLoss_noneDead hAlive]
  have hStack : (z.writerDone s.dev.stack).stack = s.dev.stack := by
    rw [Dev.writerDone, modStack_stack, ← hZ, slotStored_stack]
    rfl
  have hParts : OnlyParts [.regs, .mem, .rings, .strike] s.dev (z.writerDone s.dev.stack) := by
    have hTakenParts : OnlyParts [.stack, .regs, .mem, .rings, .strike] s.dev (s.dev.slotTaken e rest) := (slotTaken_parts s.dev e rest).mono (by simp)
    have hStored := hTakenParts.trans (slotStored_parts (s.dev.slotTaken e rest) (ringId e l) w bank p)
    rw [hZ] at hStored
    exact OnlyParts.drop (p := .stack) (by simpa [Dev.writerDone] using hStored) hStack
  have hReg {a : Nat} (h1 : a ≠ ringBase e + Reg.PREM_LOSS_COUNT.COUNT.off) (h2 : a ≠ ringBase e + Reg.ENG_EVENT.PREM_LOSS.off) :
      (z.writerDone s.dev.stack).reg a = s.dev.reg a := by
    rw [Dev.writerDone, reg_modStack, ← hZ, slotStored_reg _ _ _ _ _ (by rwa [ringEngine_ringId]) (by rwa [ringEngine_ringId]), reg_slotTaken]
  obtain ⟨hWord, hOther⟩ := slotStored_wordData (s.dev.slotTaken e rest) (ringId e l) w bank p
  have hLoss := slotStored_loss (s.dev.slotTaken e rest) (ringId e l) w bank p
  rw [hZ] at hWord hOther hLoss
  rw [hTaken, ringEngine_ringId] at hLoss
  refine completes_quiet (f := opSlotWrite e false {} []) rfl ?_ ?_ <;> rw [hOp]
  · rw [quiet_congr (hParts .kryup (by simp)) (hParts .clk (by simp)) (hReg (ringBase_irq e _) (ringBase_irq e _)) (by rw [hStack]), hq]
  · refine ⟨hWord, hOther, ?_, ?_, hLoss, hParts, fun a ha => ?_⟩
    · rw [engine_congr (show (z.writerDone s.dev.stack).rings = z.rings from rfl), ← hZ, slotStored_engine, hEngine]
    · rw [desc_congr (show (z.writerDone s.dev.stack).rings = z.rings from rfl), ← hZ, slotStored_desc, if_pos rfl, hTaken]
      rfl
    · simp only [List.mem_cons, List.not_mem_nil, or_false, not_or] at ha
      exact hReg ha.1 ha.2

/-! ## Episodes -/

theorem gapRecord_handed (hGap : (s.dev.engine e).gap = .opened) (hRoom : (s.dev.engine e).fifo.length ≤ s.dev.resumeAt e) :
    Completes (.gapRecordHandoff e) s fun t =>
      t.engine e = { s.dev.engine e with gap := .writing, writing := (s.dev.engine e).record, record := {} } ∧ OnlyParts [.rings] s.dev t := by
  have hOp : opGapRecordHandoff e s.dev = s.dev.modEngine e fun r => { r with gap := .writing, writing := r.record, record := {} } := if_pos ⟨hGap, hRoom⟩
  refine completes_quiet (f := opGapRecordHandoff e) rfl ?_ ?_ <;> rw [hOp]
  · exact hq
  · exact ⟨by rw [engine_modEngine, if_pos rfl], by simp⟩

/-- The engine's gap writer is done with its record. -/
def Dev.gapDone (d : Dev) (e : Nat) : Dev :=
  (d.drew.modEngine e fun r => { r with writing := {}, gap := if r.record.count = 0 then .closed else .opened }).raise (ringBase e)
    Reg.ENG_EVENT.GAP_WRITTEN

omit hq in
theorem gapDone_desc (d : Dev) : (d.gapDone e).rings.desc = d.rings.desc := by
  unfold Dev.gapDone
  rw [raise_rings]
  rfl

theorem gapWritten_ends {x : Desc} (hx : s.dev.desc (ringId e l) = x) (hGap : (s.dev.engine e).gap = .writing) (hWorks : s.dev.ringWorks e = true)
    (hRings : (s.dev.engine e).writing.rings = [l.val]) (hFlush : (s.dev.engine e).flushing = false) (hOpen : x.state = .opened)
    (hIn : x.slotAddr x.wr < 2 ^ 30) (hBar : s.dev.baseBarred false (x.slotAddr x.wr / 32) = false) (hRoom : x.occ < x.cap)
    (hDead : s.dev.noneDead e) (hTree : (s.dev.engine e).upset = {}) :
    Completes (.gapWritten e [] []) s fun t =>
      (∃ o, t.wordData (s.dev.physWord (x.slotAddr x.wr / 32)) = (s.dev.engine e).writing.slot o) ∧
      (t.desc (ringId e l)).wr = (x.wr + 1) % 2 ^ 32 ∧ (t.engine e).writing = {} ∧
      (t.engine e).gap = (if (s.dev.engine e).record.count = 0 then .closed else .opened) ∧
      t.fld (ringBase e) Reg.ENG_EVENT.GAP_WRITTEN = 1 ∧ OnlyParts [.free, .regs, .mem, .rings, .strike] s.dev t := by
  obtain ⟨-, -, -, -, hMeets⟩ := s.dev.quiet_iff.mp hq
  have hWrite := ringWrite_stored (d := s.dev) (r := ringId e l) (w := (s.dev.engine e).writing.slot (Config.freeAt s.dev.free l)) hx (.inl hMeets)
    (by rw [ringEngine_ringId]; exact hFlush) hOpen hIn hBar (by rw [ringEngine_ringId]; exact hTree)
  generalize (s.dev.toWord .ring (x.slotAddr x.wr / 32)).bank = bank at hWrite
  generalize s.dev.physWord (x.slotAddr x.wr / 32) = p at hWrite ⊢
  generalize hSlot : (s.dev.engine e).writing.slot (Config.freeAt s.dev.free l) = w at hWrite
  generalize hZ : s.dev.slotStored (ringId e l) w bank p = z at hWrite
  have hDone : (z.gapDone e).noneDead e := by
    have hZDead : z.noneDead e := by
      rw [← hZ]
      exact noneDead_slotStored _ _ _ (by rw [hx]; exact hOpen) hDead
    unfold Dev.noneDead Dev.ringsOf Dev.desc at hZDead ⊢
    rw [gapDone_desc]
    exact hZDead
  have hEach : (s.dev.each [l.val] fun d k => d.ringWrite (ringId e k) ((s.dev.engine e).writing.slot (Config.freeAt d.free k))) = z := by
    rw [← hWrite, ← hSlot]
    rfl
  have hOp : opGapWritten e [] [] s.dev = z.gapDone e := by
    unfold opGapWritten
    dsimp only
    rw [if_pos ⟨hGap, hWorks⟩]
    unfold Dev.treeStruck Dev.withPorts
    rw [if_pos rfl, if_pos rfl, hRings]
    dsimp only
    rw [hEach]
    exact ringLoss_noneDead hDone
  have hReg {a : Nat} (h1 : a ≠ ringBase e + Reg.PREM_LOSS_COUNT.COUNT.off) (h2 : a ≠ ringBase e + Reg.ENG_EVENT.PREM_LOSS.off) :
      z.reg a = s.dev.reg a := by
    rw [← hZ, slotStored_reg _ _ _ _ _ (by rwa [ringEngine_ringId]) (by rwa [ringEngine_ringId])]
  have hStack : z.stack = s.dev.stack := by
    rw [← hZ, slotStored_stack, ← hMeets]
  have hParts : OnlyParts [.regs, .mem, .rings, .strike] s.dev z := by
    rw [← hZ]
    exact OnlyParts.drop (p := .stack) (slotStored_parts s.dev (ringId e l) w bank p) (by rw [hZ]; exact hStack)
  have hDoneParts : OnlyParts [.free, .regs, .mem, .rings, .strike] z (z.gapDone e) := by simp [Dev.gapDone]
  have hAll := (hParts.mono (by simp)).trans hDoneParts
  have hEngine : (z.gapDone e).engine e =
      { s.dev.engine e with writing := {}, gap := if (s.dev.engine e).record.count = 0 then .closed else .opened } := by
    unfold Dev.gapDone
    rw [engine_congr (raise_rings ..), engine_modEngine, if_pos rfl]
    have hKept : z.drew.engine e = s.dev.engine e := by
      show z.engine e = _
      rw [← hZ, slotStored_engine]
    rw [hKept]
  obtain ⟨hWord, -⟩ := slotStored_wordData s.dev (ringId e l) w bank p
  refine completes_quiet (f := opGapWritten e [] []) rfl ?_ ?_ <;> rw [hOp]
  · have hIrq : (z.gapDone e).reg (rootBase + Reg.IRQ_CTRL.off) = s.dev.reg (rootBase + Reg.IRQ_CTRL.off) := by
      unfold Dev.gapDone
      rw [reg_raise, if_neg (ringBase_irq e _), ← hReg (ringBase_irq e _) (ringBase_irq e _)]
      rfl
    rw [quiet_congr (hAll .kryup (by simp)) (hAll .clk (by simp)) hIrq (by rw [hDoneParts .stack (by simp), hStack]), hq]
  · refine ⟨⟨Config.freeAt s.dev.free l, ?_⟩, ?_, by rw [hEngine], by rw [hEngine], fld_raise_same (by decide) (by decide), hAll⟩
    · have hMem : (z.gapDone e).mem = z.mem := by
        unfold Dev.gapDone
        rw [raise_mem]
        rfl
      rw [hSlot, wordData_congr hMem, ← hZ]
      exact hWord
    · have hDesc : (z.gapDone e).desc (ringId e l) = x.written s.dev.now := by
        unfold Dev.desc
        rw [gapDone_desc, ← hx, ← hZ]
        exact (slotStored_desc s.dev (ringId e l) w bank p (ringId e l)).trans (if_pos rfl)
      rw [hDesc]
      unfold Desc.written
      dsimp only
      rw [if_neg (by simpa using hRoom)]

end

theorem written_eq (x : Desc) (now : Nat) : x.written now =
    { x with wr := (x.wr + 1) % 2 ^ 32, age := if decide (x.cap ≤ x.occ) = true then (x.age + 1) % 2 ^ 32 else x.age,
             premValid := x.premValid || decide (x.cap ≤ x.occ), premLast := if decide (x.cap ≤ x.occ) = true then now else x.premLast } := by
  unfold Desc.written
  dsimp only
  by_cases h : x.cap ≤ x.occ <;> simp [h]

/-- Settles O35: pushes by the state of the ring and the room in the FIFO, the write at WR, and the two ends of an episode. -/
theorem slotsEnterRings : Obligations.SlotsEnterRings := by
  unfold Obligations.SlotsEnterRings
  intro s port e l cross tag late data hq b d g corner live r x ring w
  refine ⟨fun hLive hWarm hRun => ⟨push_enters hq hLive hWarm hRun, push_overflows hq hLive hWarm hRun, push_refused hq hLive hWarm hRun⟩,
    fun rest hWorks hFifo hFlush hOpen _ _ _ hIn hBar hDead hTree => ?_, gapRecord_handed hq,
    fun hGap hWorks hRings hFlush hOpen _ hIn hBar hRoom hDead hTree =>
      gapWritten_ends hq rfl hGap hWorks hRings hFlush hOpen hIn hBar hRoom hDead hTree⟩
  intro p full
  refine (slotWrite_stores hq rfl hWorks hFifo hFlush hOpen hIn hBar hDead hTree).imp fun t ht => ?_
  obtain ⟨hWord, hOther, hRest, hDesc, hLoss, hParts, hRegs⟩ := ht
  exact ⟨hWord, hOther, hRest, hDesc.trans (written_eq x d.now), fun hFull => hLoss (of_decide_eq_true hFull), hParts, hRegs⟩

end Sys2Proof.Machine

/-! # Block lock by commands, QUADs and the scrambler (R128, R132 to R134, R137) -/

namespace Sys2Proof.Machine

set_option Elab.async false

/-! ## The descrambler undoes the scrambler (R128) -/

/-- The scrambler after the first bits of a payload. -/
def scrambled (mem : BitVec 58) (p : Payload) (k : Nat) : BitVec 58 × Nat := (List.range k).foldl (fun s i => scrambleBit s i p) (mem, 0)

/-- The descrambler after the first bits of a payload. -/
def descrambled (mem : BitVec 58) (q : Payload) (k : Nat) : BitVec 58 × Nat := (List.range k).foldl (fun s i => descrambleBit s i q) (mem, 0)

theorem scrambled_succ (mem : BitVec 58) (p : Payload) (k : Nat) : scrambled mem p (k + 1) = scrambleBit (scrambled mem p k) k p := by
  rw [scrambled, List.range_succ, List.foldl_append]
  rfl

theorem descrambled_succ (mem : BitVec 58) (q : Payload) (k : Nat) :
    descrambled mem q (k + 1) = descrambleBit (descrambled mem q k) k q := by
  rw [descrambled, List.range_succ, List.foldl_append]
  rfl

theorem scrambled_lt (mem : BitVec 58) (p : Payload) (k : Nat) : (scrambled mem p k).2 < 2 ^ k := by
  induction k with
  | zero => exact Nat.one_pos
  | succ k ih =>
    rw [scrambled_succ, Nat.pow_succ]
    unfold scrambleBit bit01
    dsimp only
    split <;> omega

/-- A later bit leaves those sent before it. -/
theorem scrambled_testBit (mem : BitVec 58) (p : Payload) {i k : Nat} (h : i < k) :
    (scrambled mem p (k + 1)).2.testBit i = (scrambled mem p k).2.testBit i := by
  rw [scrambled_succ]
  unfold scrambleBit
  dsimp only
  rw [Nat.mul_comm, Nat.add_comm, Nat.testBit_two_pow_mul_add _ (scrambled_lt mem p k), if_pos h]

/-- The bit that the scrambler sends at a place. -/
theorem scrambled_last (mem : BitVec 58) (p : Payload) (k : Nat) :
    (scrambled mem p (k + 1)).2.testBit k = ((p.getLsbD k ^^ (scrambled mem p k).1.getLsbD 38) ^^ (scrambled mem p k).1.getLsbD 57) := by
  rw [scrambled_succ]
  unfold scrambleBit
  dsimp only
  rw [Nat.mul_comm, Nat.add_comm, Nat.testBit_two_pow_mul_add _ (scrambled_lt mem p k), if_neg (Nat.lt_irrefl k), Nat.sub_self]
  cases (p.getLsbD k ^^ (scrambled mem p k).1.getLsbD 38) ^^ (scrambled mem p k).1.getLsbD 57 <;> rfl

/-- Bit for bit the descrambler keeps the scrambler's memory and recovers the payload. -/
theorem descrambled_scrambled (mem : BitVec 58) (p q : Payload) (k : Nat)
    (hq : ∀ i < k, q.getLsbD i = (scrambled mem p k).2.testBit i) :
    descrambled mem q k = ((scrambled mem p k).1, p.toNat % 2 ^ k) := by
  induction k with
  | zero => rw [Nat.pow_zero, Nat.mod_one]; rfl
  | succ k ih =>
    have hFirst := ih fun i hi => by rw [hq i (Nat.lt_succ_of_lt hi), scrambled_testBit mem p hi]
    have hBit := (hq k (Nat.lt_succ_self k)).trans (scrambled_last mem p k)
    have hBack : ((q.getLsbD k ^^ (scrambled mem p k).1.getLsbD 38) ^^ (scrambled mem p k).1.getLsbD 57) = p.getLsbD k := by
      rw [hBit]
      cases p.getLsbD k <;> cases (scrambled mem p k).1.getLsbD 38 <;> cases (scrambled mem p k).1.getLsbD 57 <;> rfl
    have hNumber : p.toNat % 2 ^ k + bit01 (p.getLsbD k) * 2 ^ k = p.toNat % 2 ^ (k + 1) := by
      have hOf : bit01 (p.getLsbD k) = p.toNat / 2 ^ k % 2 := by
        rw [← BitVec.testBit_toNat, Nat.testBit_eq_decide_div_mod_eq]
        obtain h | h := Nat.mod_two_eq_zero_or_one (p.toNat / 2 ^ k) <;> rw [h] <;> rfl
      rw [hOf, Nat.mod_pow_succ, Nat.mul_comm]
    rw [descrambled_succ, hFirst, scrambled_succ]
    unfold descrambleBit scrambleBit
    dsimp only
    rw [hBack, hBit, hNumber]

/-- A receiver whose memory agrees with the transmitter's gets each payload back. -/
theorem descramble_scramble (mem : BitVec 58) (p : Payload) : descramble mem (scramble mem p).2 = ((scramble mem p).1, p) := by
  have hBits : ∀ i < 64, (scramble mem p).2.getLsbD i = (scrambled mem p 64).2.testBit i := fun i hi => by
    show (BitVec.ofNat 64 (scrambled mem p 64).2).getLsbD i = _
    rw [BitVec.getLsbD_ofNat, decide_eq_true hi, Bool.true_and]
  have h := descrambled_scrambled mem p (scramble mem p).2 64 hBits
  show ((descrambled mem (scramble mem p).2 64).1, BitVec.ofNat 64 (descrambled mem (scramble mem p).2 64).2) = _
  rw [h, Nat.mod_eq_of_lt p.isLt, BitVec.ofNat_toNat]
  rfl

/-! ## QUADs (R134, R137) -/

/-- Blocks short of the interval pass without a QUAD. -/
theorem foldl_send_short (i : Nat) (pol : Bool) (b : Bool × Payload) (k : Nat) (l : LinkRec) (h : l.txCount + k < i) :
    ((List.replicate k b).foldl (fun l b => l.send i pol b.1 b.2) l).txCount = l.txCount + k := by
  induction k generalizing l with
  | zero => rfl
  | succ k ih =>
    rw [List.replicate_succ, List.foldl_cons, send_short (by omega), ih _ (by dsimp only [LinkRec.put]; omega)]
    dsimp only [LinkRec.put]
    omega

/-- The IDLEs that bring a transmitter to its QUAD. -/
theorem foldl_send_quad (i : Nat) (pol : Bool) (b : Bool × Payload) (l : LinkRec) :
    ∃ k, (List.replicate (max 1 (i - l.txCount)) b).foldl (fun l b => l.send i pol b.1 b.2) l =
      { (k : LinkRec).put pol true (BitVec.ofNat 64 ctlQuad) with txCount := 0 } := by
  obtain ⟨m, hm⟩ : ∃ m, max 1 (i - l.txCount) = m + 1 := ⟨max 1 (i - l.txCount) - 1, by omega⟩
  rw [hm, List.replicate_succ', List.foldl_append]
  generalize hBefore : (List.replicate m b).foldl (fun l b => l.send i pol b.1 b.2) l = k
  have hCount : i ≤ k.txCount + 1 := by
    cases m with
    | zero => rw [← hBefore]; show i ≤ l.txCount + 1; omega
    | succ m => rw [← hBefore, foldl_send_short _ _ _ _ _ (by omega)]; omega
  exact ⟨k.put pol b.1 b.2, send_due hCount⟩

theorem quadTransmit_sends {s : State} {n : Fin 144} (hq : s.dev.quiet = true) (hTx : s.dev.fld (laneBase n) Reg.LANE_STATUS.TX_ACTIVE = 1)
    (hLoop : s.dev.looped n = false) :
    Completes (.quadTransmit n) s fun e =>
      (e.link n).lastTx = some (.control (BitVec.ofNat 64 ctlQuad)) ∧ (e.link n).txCount = 0 ∧
      (∃ mem, (e.link n).line = lineBits (s.dev.txPol n) 2 (scramble mem (BitVec.ofNat 64 ctlQuad)).2) ∧
      (e.link n).txQueue = (s.dev.link n).txQueue ∧ OnlyParts [.links] s.dev e := by
  have hOp : opQuadTransmit n s.dev = (s.dev.sendBlocks n (List.replicate
      (max 1 (quadInterval (s.dev.fld (laneBase n) Reg.TX_QUAD.INTERVAL) - (s.dev.link n).txCount)) (true, BitVec.ofNat 64 ctlIdle))).modLink n
      fun l => { l with lastTx := some (.control (BitVec.ofNat 64 ctlQuad)) } := by
    unfold opQuadTransmit
    rw [show s.dev.flag (laneBase n) Reg.LANE_STATUS.TX_ACTIVE = true from by unfold Dev.flag; rw [hTx]; rfl, hLoop, if_neg (by decide)]
  obtain ⟨k, hQuad⟩ := foldl_send_quad (quadInterval (s.dev.fld (laneBase n) Reg.TX_QUAD.INTERVAL)) (s.dev.txPol n)
    (true, BitVec.ofNat 64 ctlIdle) (s.dev.link n)
  obtain ⟨scr, line, count, hKept⟩ := foldl_send_eq (quadInterval (s.dev.fld (laneBase n) Reg.TX_QUAD.INTERVAL)) (s.dev.txPol n)
    (List.replicate (max 1 (quadInterval (s.dev.fld (laneBase n) Reg.TX_QUAD.INTERVAL) - (s.dev.link n).txCount)) (true, BitVec.ofNat 64 ctlIdle))
    (s.dev.link n)
  have hLink : (opQuadTransmit n s.dev).link n = { ((k : LinkRec).put (s.dev.txPol n) true (BitVec.ofNat 64 ctlQuad)) with
      txCount := 0, lastTx := some (.control (BitVec.ofNat 64 ctlQuad)) } := by
    rw [hOp, Dev.sendBlocks, link_modLink_same, link_modLink_same, hQuad]
  refine completes_quiet (f := opQuadTransmit n) rfl ?_ ⟨by rw [hLink], by rw [hLink], ⟨k.scr, by rw [hLink]; rfl⟩, ?_, ?_⟩
  · rw [hOp, Dev.sendBlocks, quiet_modLink, quiet_modLink]
    exact hq
  · rw [hOp, Dev.sendBlocks, link_modLink_same, link_modLink_same, hKept]
  · rw [hOp, Dev.sendBlocks]
    simp

theorem quadMissing_shows {s : State} {n : Fin 144} (hq : s.dev.quiet = true) (hLock : s.dev.blkState n = blkLocked)
    (hLong : 4096 < (s.dev.lane n).sinceQuad) :
    Completes (.quadMissing n) s fun e =>
      e.fld (laneBase n) Reg.BLK_EVENT.QUAD_MISSING = 1 ∧ e.lane n = { s.dev.lane n with sinceQuad := (s.dev.lane n).sinceQuad - 4096 } ∧
      OnlyParts [.regs, .lanes] s.dev e ∧ OnlyRegs [laneBase n + Reg.BLK_EVENT.QUAD_MISSING.off] s.dev e := by
  have hOp : opQuadMissing n s.dev = (s.dev.raise (laneBase n) Reg.BLK_EVENT.QUAD_MISSING).modLane n fun r =>
      { r with sinceQuad := r.sinceQuad - 4096 } := if_pos ⟨hLock, hLong⟩
  refine completes_quiet (f := opQuadMissing n) rfl (by rw [hOp, quiet_modLane, quiet_laneRaise]; exact hq) ?_
  rw [hOp]
  refine ⟨?_, by rw [lane_modLane_same, lane_raise], by simp, by simp⟩
  rw [fld_modLane, fld_raise_same (by decide) (by decide)]

/-! ## The hunt's limit and the commands of SLIP (R132, R133) -/

/-- SLIP left for HUNT. -/
theorem slipToHunt_leaves (d : Dev) (n : Nat) :
    (d.slipToHunt n).blkState n = blkHunt ∧ ((d.slipToHunt n).lane n).huntCount = 0 ∧ (d.slipToHunt n).quiet = d.quiet ∧
    (∀ f : Fld, f.off ≠ Reg.BLK_STATE.off → (d.slipToHunt n).fld (laneBase n) f = d.fld (laneBase n) f) ∧
    OnlyParts [.regs, .lanes] d (d.slipToHunt n) ∧ OnlyRegs [laneBase n + Reg.BLK_STATE.STATE.off] d (d.slipToHunt n) := by
  have hEnds : (d.slipEnds n).quiet = d.quiet ∧ OnlyParts [.regs, .lanes] d (d.slipEnds n) ∧ ∀ a, (d.slipEnds n).reg a = d.reg a := by
    unfold Dev.slipEnds
    split
    · exact ⟨quiet_modLane .., by simp, fun _ => rfl⟩
    · exact ⟨rfl, by simp, fun _ => rfl⟩
  obtain ⟨hQuiet, hParts, hRegs⟩ := hEnds
  refine ⟨?_, by rw [Dev.slipToHunt, lane_modLane_same], ?_, fun f hf => ?_, ?_, fun a ha => ?_⟩
  · rw [Dev.slipToHunt, Dev.blkState, fld_modLane, Dev.setBlk, fld_setFld_lt (by decide) (by decide)]
  · rw [Dev.slipToHunt, quiet_modLane, Dev.setBlk, quiet_laneFld, hQuiet]
  · rw [Dev.slipToHunt, fld_modLane, Dev.setBlk, fld_setFld_off hf rfl, Dev.fld, hRegs, Dev.fld]
  · exact hParts.trans (by simp [Dev.slipToHunt, Dev.setBlk])
  · rw [Dev.slipToHunt, reg_modLane, Dev.setBlk, reg_setFld, if_neg (by simpa using ha), hRegs]

/-- BLK_STATE after a write of FORCE_MANUAL. -/
def Dev.manualState (d : Dev) (n : Nat) (v : Bool) : Nat :=
  if d.fld (laneBase n) Reg.BLK_CTRL.FORCE_MANUAL = bit01 v then d.blkState n
  else if v ∧ d.blkState n = blkHunt then blkSlip
  else if !v ∧ d.blkState n = blkSlip then blkHunt else d.blkState n

theorem flag_bit01 {x : Nat} (h : x < 2) (v : Bool) : x = bit01 v ↔ (x != 0) = v := by
  obtain rfl | rfl : x = 0 ∨ x = 1 := by omega
  all_goals cases v <;> decide

theorem forceManual_leaves (d : Dev) (n : Nat) (v : Bool) :
    (d.forceManual n v).fld (laneBase n) Reg.BLK_CTRL.FORCE_MANUAL = bit01 v ∧ (d.forceManual n v).blkState n = d.manualState n v ∧
    (d.forceManual n v).quiet = d.quiet ∧ OnlyParts [.regs, .lanes] d (d.forceManual n v) ∧
    OnlyRegs [laneBase n + Reg.BLK_CTRL.FORCE_MANUAL.off, laneBase n + Reg.BLK_STATE.STATE.off] d (d.forceManual n v) := by
  have hSame := flag_bit01 (x := d.fld (laneBase n) Reg.BLK_CTRL.FORCE_MANUAL) (Nat.mod_lt _ (by decide)) v
  have hFlag : d.flag (laneBase n) Reg.BLK_CTRL.FORCE_MANUAL = (d.fld (laneBase n) Reg.BLK_CTRL.FORCE_MANUAL != 0) := by unfold Dev.flag; rfl
  unfold Dev.forceManual
  dsimp only
  generalize hSet : d.setFld (laneBase n) Reg.BLK_CTRL.FORCE_MANUAL (bit01 v) = c
  have hForce : c.fld (laneBase n) Reg.BLK_CTRL.FORCE_MANUAL = bit01 v := by
    rw [← hSet, fld_setFld_lt (by decide) (by cases v <;> decide)]
  have hState : c.blkState n = d.blkState n := by
    rw [← hSet, Dev.blkState, fld_setFld_off (o := Reg.BLK_CTRL.off) (by decide) rfl, Dev.blkState]
  have hQuiet : c.quiet = d.quiet := by rw [← hSet, quiet_laneFld]
  have hParts : OnlyParts [.regs, .lanes] d c := by rw [← hSet]; simp
  have hRegs : OnlyRegs [laneBase n + Reg.BLK_CTRL.FORCE_MANUAL.off, laneBase n + Reg.BLK_STATE.STATE.off] d c := by rw [← hSet]; simp
  rw [hFlag, hState]
  unfold Dev.manualState
  split
  · rename_i hOn
    rw [Bool.and_eq_true, Bool.and_eq_true, Bool.not_eq_true', beq_iff_eq] at hOn
    obtain ⟨⟨rfl, hOld⟩, hHunt⟩ := hOn
    have hNew : ¬d.fld (laneBase n) Reg.BLK_CTRL.FORCE_MANUAL = bit01 true := fun h => by rw [hSame.mp h] at hOld; exact absurd hOld (by decide)
    rw [if_neg hNew, if_pos ⟨rfl, hHunt⟩]
    refine ⟨?_, ?_, by rw [quiet_modLane, Dev.setBlk, quiet_laneFld, hQuiet], hParts.trans (by simp [Dev.setBlk]),
      hRegs.trans (by simp [Dev.setBlk])⟩
    · rw [fld_modLane, Dev.setBlk, fld_setFld_off (o := Reg.BLK_STATE.off) (by decide) rfl, hForce]
    · rw [Dev.blkState, fld_modLane, Dev.setBlk, fld_setFld_lt (by decide) (by decide)]
  · rename_i hOn
    split
    · rename_i hOff
      rw [Bool.and_eq_true, Bool.and_eq_true, Bool.not_eq_true', beq_iff_eq] at hOff
      obtain ⟨⟨rfl, hOld⟩, hSlip⟩ := hOff
      have hNew : ¬d.fld (laneBase n) Reg.BLK_CTRL.FORCE_MANUAL = bit01 false := fun h => by rw [hSame.mp h] at hOld; exact absurd hOld (by decide)
      obtain ⟨hHunt, -, hQ, hKept, hP, hR⟩ := slipToHunt_leaves c n
      rw [if_neg hNew, if_neg (by simp), if_pos ⟨rfl, hSlip⟩]
      exact ⟨(hKept _ (by decide)).trans hForce, hHunt, hQ.trans hQuiet, hParts.trans hP, hRegs.trans (hR.mono (by simp))⟩
    · rename_i hOff
      refine ⟨hForce, ?_, hQuiet, hParts, hRegs⟩
      rw [hState]
      split
      · rfl
      · rename_i hNew
        rw [hSame] at hNew
        rw [if_neg, if_neg]
        · rintro ⟨hv, hSlip⟩
          refine hOff ?_
          cases v <;> simp_all
        · rintro ⟨hv, hHunt⟩
          refine hOn ?_
          cases v <;> simp_all

section
variable {s : State} {n : Fin 144} (hq : s.dev.quiet = true)

include hq

theorem huntExpired_slips (hHunt : s.dev.blkState n = blkHunt) (hLimit : s.dev.fld (laneBase n) Reg.BLK_HUNT_LIMIT.LIMIT ≠ 0)
    (hReached : s.dev.fld (laneBase n) Reg.BLK_HUNT_LIMIT.LIMIT ≤ (s.dev.lane n).huntCount) :
    Completes (.huntExpired n) s fun e =>
      e.blkState n = blkSlip ∧ e.fld (laneBase n) Reg.BLK_EVENT.HUNT_EXPIRED = 1 ∧ OnlyParts [.regs, .lanes] s.dev e ∧
      OnlyRegs [laneBase n + Reg.BLK_STATE.STATE.off, laneBase n + Reg.BLK_EVENT.LOCK.off] s.dev e := by
  have hOp : opHuntExpired n s.dev = ((s.dev.setBlk n blkSlip).raise (laneBase n) Reg.BLK_EVENT.HUNT_EXPIRED).modLane n fun r =>
      { r with slipSince := s.dev.tick } :=
    if_pos ⟨hHunt, hLimit, hReached⟩
  refine completes_quiet (f := opHuntExpired n) rfl (by rw [hOp, quiet_modLane, quiet_laneRaise, Dev.setBlk, quiet_laneFld]; exact hq) ?_
  rw [hOp]
  refine ⟨?_, ?_, by simp [Dev.setBlk], by simp [Dev.setBlk, Reg.BLK_EVENT.HUNT_EXPIRED, Reg.BLK_EVENT.LOCK]⟩
  · rw [Dev.blkState, fld_modLane, Dev.raise, fld_setFld_clear (by decide), Dev.setBlk, fld_setFld_lt (by decide) (by decide)]
  · rw [fld_modLane, fld_raise_same (by decide) (by decide)]

variable {path : Fin 8} (hReach : s.dev.reached path (blkCtrlAddr n) = true)
include hReach

/-- A write of BLK_CTRL that has its effect. -/
theorem blkCtrl_completes {c : Instr} {l : List (Fld × Nat)} {f : Dev → Dev} {e : Dev} {P : Dev → Prop}
    (hExec : exec c s = onDev (fun d => d.viaCtl path (blkCtrlAddr n) l f) s) (he : f s.dev = e) (hQuiet : e.quiet = s.dev.quiet)
    (hP : P (e.finish path stOk 0)) : Completes c s P :=
  completes_viaWord hExec hReach (by rw [he, hQuiet]; exact hq) (by rw [he]; exact hP)

/-- BITSLIP or REHUNT where it cannot act (R133). -/
theorem blkReject_completes {c : Instr} {l : List (Fld × Nat)} {f : Dev → Dev} {P : Dev → Prop}
    (hExec : exec c s = onDev (fun d => d.viaCtl path (blkCtrlAddr n) l f) s)
    (he : f s.dev = s.dev.raise (laneBase n) Reg.BLK_EVENT.BLK_REJECT)
    (hP : ∀ e, e.fld (laneBase n) Reg.BLK_EVENT.BLK_REJECT = 1 ∧ e.answered path stOk 0 ∧ OnlyParts [.regs, .ctl] s.dev e ∧
      OnlyRegs [laneBase n + Reg.BLK_EVENT.BLK_REJECT.off] s.dev e → P e) : Completes c s P :=
  blkCtrl_completes hq hReach hExec he (quiet_laneRaise ..)
    (hP _ ⟨by rw [fld_finish, fld_raise_same (by decide) (by decide)], finish_answered .., by simp, by simp⟩)

theorem bitslip_completes :
    Completes (.bitslip path n) s (fun e =>
      (s.dev.blkState n = blkSlip →
        e.fld (laneBase n) Reg.BLK_STATUS.OFFSET = (s.dev.fld (laneBase n) Reg.BLK_STATUS.OFFSET + 1) % 66 ∧
        e.fld (laneBase n) Reg.BLK_STATUS.RUN = 0 ∧ e.answered path stOk 0 ∧ OnlyParts [.regs, .ctl] s.dev e ∧
        OnlyRegs [laneBase n + Reg.BLK_STATUS.RUN.off] s.dev e) ∧
      (s.dev.blkState n ≠ blkSlip → e.fld (laneBase n) Reg.BLK_EVENT.BLK_REJECT = 1 ∧ e.answered path stOk 0 ∧
        OnlyParts [.regs, .ctl] s.dev e ∧ OnlyRegs [laneBase n + Reg.BLK_EVENT.BLK_REJECT.off] s.dev e)) := by
  by_cases hSlip : s.dev.blkState n = blkSlip
  · refine blkCtrl_completes hq hReach (f := fun d => d.bitslip n) rfl (if_pos hSlip) (by rw [quiet_laneFld, quiet_laneFld])
      ⟨fun _ => ⟨?_, ?_, finish_answered .., by simp, ?_⟩, fun h => absurd hSlip h⟩
    · rw [fld_finish, fld_setFld_clear (by decide),
        fld_setFld_lt (by decide) (Nat.lt_trans (Nat.mod_lt _ (by decide)) (by decide : 66 < 2 ^ Reg.BLK_STATUS.OFFSET.width))]
    · rw [fld_finish, fld_setFld_lt (by decide) (by decide)]
    · simp [Reg.BLK_STATUS.OFFSET, Reg.BLK_STATUS.RUN]
  · exact blkReject_completes hq hReach (f := fun d => d.bitslip n) rfl (if_neg hSlip) fun _ h => ⟨fun k => absurd k hSlip, fun _ => h⟩

theorem rehunt_completes :
    Completes (.rehunt path n) s (fun e =>
      (s.dev.blkState n = blkSlip → s.dev.fld (laneBase n) Reg.BLK_CTRL.FORCE_MANUAL = 0 →
        e.blkState n = blkHunt ∧ (e.lane n).huntCount = 0 ∧ e.answered path stOk 0 ∧
        OnlyParts [.regs, .ctl, .lanes] s.dev e ∧ OnlyRegs [laneBase n + Reg.BLK_STATE.STATE.off] s.dev e) ∧
      (s.dev.blkState n ≠ blkSlip ∨ s.dev.fld (laneBase n) Reg.BLK_CTRL.FORCE_MANUAL = 1 →
        e.fld (laneBase n) Reg.BLK_EVENT.BLK_REJECT = 1 ∧ e.answered path stOk 0 ∧
        OnlyParts [.regs, .ctl] s.dev e ∧ OnlyRegs [laneBase n + Reg.BLK_EVENT.BLK_REJECT.off] s.dev e)) := by
  have hFlag : s.dev.flag (laneBase n) Reg.BLK_CTRL.FORCE_MANUAL = (s.dev.fld (laneBase n) Reg.BLK_CTRL.FORCE_MANUAL != 0) := by unfold Dev.flag; rfl
  by_cases hCan : s.dev.blkState n = blkSlip ∧ s.dev.fld (laneBase n) Reg.BLK_CTRL.FORCE_MANUAL = 0
  · obtain ⟨hState, hCount, hQuiet, -, hParts, hRegs⟩ := slipToHunt_leaves s.dev n
    have hBack : s.dev.rehunt n = s.dev.slipToHunt n := by
      unfold Dev.rehunt
      dsimp only
      rw [hFlag, hCan.1, hCan.2]
      exact if_pos rfl
    refine blkCtrl_completes hq hReach (f := fun d => d.rehunt n) rfl hBack hQuiet
      ⟨fun _ _ => ⟨by rw [Dev.blkState, fld_finish]; exact hState, by rw [lane_finish]; exact hCount, finish_answered .., ?_, ?_⟩, fun h => ?_⟩
    · rw [onlyParts_finish _ _ _ _ (by simp)]
      exact hParts.mono (by simp)
    · rw [onlyRegs_finish]
      exact hRegs
    · obtain hNot | hForce := h
      · exact absurd hCan.1 hNot
      · exact absurd (hForce.symm.trans hCan.2) (by decide)
  · refine blkReject_completes hq hReach (f := fun d => d.rehunt n) rfl (if_neg fun h => hCan ?_) fun _ h =>
      ⟨fun hSlip hAuto => absurd ⟨hSlip, hAuto⟩ hCan, fun _ => h⟩
    rw [hFlag] at h
    simpa using h

theorem forceManualWrite_completes (v : Bool) :
    Completes (.forceManualWrite path n v) s fun e =>
      e.fld (laneBase n) Reg.BLK_CTRL.FORCE_MANUAL = bit01 v ∧ e.answered path stOk 0 ∧
      e.blkState n = (if s.dev.fld (laneBase n) Reg.BLK_CTRL.FORCE_MANUAL = bit01 v then s.dev.blkState n
        else if v ∧ s.dev.blkState n = blkHunt then blkSlip
        else if !v ∧ s.dev.blkState n = blkSlip then blkHunt else s.dev.blkState n) ∧
      OnlyParts [.regs, .ctl, .lanes] s.dev e ∧
      OnlyRegs [laneBase n + Reg.BLK_CTRL.FORCE_MANUAL.off, laneBase n + Reg.BLK_STATE.STATE.off] s.dev e := by
  obtain ⟨hForce, hState, hQuiet, hParts, hRegs⟩ := forceManual_leaves s.dev n v
  refine blkCtrl_completes hq hReach (f := fun d => d.forceManual n v) (e := s.dev.forceManual n v) rfl rfl hQuiet
    ⟨hForce, finish_answered .., hState, ?_, hRegs⟩
  rw [onlyParts_finish _ _ _ _ (by simp)]
  exact hParts.mono (by simp)

end

end Sys2Proof.Machine

/-! # Blocks received in HUNT and LOCKED (R129 to R131, R136) -/

namespace Sys2Proof.Machine

set_option Elab.async false

/-! ## What a loss of messages touches (R151, R152) -/

/-- What the messages lost in a lane's receiver leave: the lane's registers but for the count of CRC errors and the link's events, its
waiting messages, the causes and the clocks. -/
structure LossNoted (n : Nat) (d e : Dev) : Prop where
  regs : ∀ a < columnBase 0 0, a ≠ laneBase n + Reg.CRC_ERR_COUNT.COUNT.off → a ≠ laneBase n + Reg.LINK_EVENT.LOSS.off → e.reg a = d.reg a
  queue : (e.link n).txQueue = (d.link n).txQueue
  kryup : e.kryup = d.kryup
  clk : e.clk = d.clk
  meets : e.stack.meets = []

section
variable {n : Nat} {d e : Dev}

theorem LossNoted.refl (hMeets : d.stack.meets = []) : LossNoted n d d := ⟨fun _ _ _ _ => rfl, rfl, rfl, rfl, hMeets⟩

theorem LossNoted.quiet (h : LossNoted n d e) (hMeets : d.stack.meets = []) : e.quiet = d.quiet :=
  quiet_congr h.kryup h.clk (h.regs _ (by decide) (irq_ne_lane n _) (irq_ne_lane n _)) (h.meets.trans hMeets.symm)

theorem LossNoted.fld (h : LossNoted n d e) {f : Fld} (hLow : laneBase n + f.off < columnBase 0 0)
    (h1 : f.off ≠ Reg.CRC_ERR_COUNT.off) (h2 : f.off ≠ Reg.LINK_EVENT.off) :
    e.fld (laneBase n) f = d.fld (laneBase n) f := by
  rw [Dev.fld, h.regs _ hLow (fun k => h1 (Nat.add_left_cancel k)) (fun k => h2 (Nat.add_left_cancel k)), Dev.fld]

/-- A change of registers that lie elsewhere. -/
theorem LossNoted.onlyRegs (h : LossNoted n d e) {e' : Dev} (hParts : OnlyParts [.regs] e e')
    (hRegs : ∀ a < columnBase 0 0, a ≠ laneBase n + Reg.CRC_ERR_COUNT.COUNT.off → a ≠ laneBase n + Reg.LINK_EVENT.LOSS.off → e'.reg a = e.reg a) :
    LossNoted n d e' := by
  have hLinks : e'.links = e.links := hParts .links (by simp)
  have hStack : e'.stack = e.stack := hParts .stack (by simp)
  refine ⟨fun a h0 h1 h2 => (hRegs a h0 h1 h2).trans (h.regs a h0 h1 h2), ?_, (hParts .kryup (by simp)).trans h.kryup,
    (hParts .clk (by simp)).trans h.clk, by rw [hStack, h.meets]⟩
  rw [Dev.link, hLinks]
  exact h.queue

theorem LossNoted.column (h : LossNoted n d e) (l c v : Nat) (f : Fld) : LossNoted n d (e.setFld (columnBase l c) f v) :=
  h.onlyRegs (by simp) fun a hLow _ _ => by rw [reg_setFld, if_neg (Nat.ne_of_lt (Nat.lt_of_lt_of_le hLow (columnBase_ge l c f.off)))]

theorem LossNoted.modMem (h : LossNoted n d e) (f : MemRec → MemRec) : LossNoted n d (e.modMem f) :=
  ⟨h.regs, h.queue, h.kryup, h.clk, h.meets⟩

theorem LossNoted.modLane (h : LossNoted n d e) (k : Nat) (f : LaneRec → LaneRec) : LossNoted n d (e.modLane k f) :=
  ⟨h.regs, h.queue, h.kryup, h.clk, h.meets⟩

theorem LossNoted.modLink (h : LossNoted n d e) {f : LinkRec → LinkRec} (hf : (f (e.link n)).txQueue = (e.link n).txQueue) :
    LossNoted n d (e.modLink n f) :=
  ⟨h.regs, by rw [link_modLink_same, hf, h.queue], h.kryup, h.clk, h.meets⟩

theorem LossNoted.laneFld (h : LossNoted n d e) {f : Fld} (hf : f.off = Reg.CRC_ERR_COUNT.off ∨ f.off = Reg.LINK_EVENT.off) (v : Nat) :
    LossNoted n d (e.setFld (laneBase n) f v) :=
  h.onlyRegs (by simp) fun a _ h1 h2 => by
    rw [reg_setFld, if_neg]
    obtain hf | hf := hf
    · rw [hf]; exact h1
    · rw [hf]; exact h2

theorem LossNoted.noteRead (h : LossNoted n d e) (w p src : Nat) : LossNoted n d (e.noteRead w p src) := by
  have hLog {e : Dev} (h : LossNoted n d e) (r : Bool) : LossNoted n d (e.logDed w r src) := by
    unfold Dev.logDed
    dsimp only
    split
    · exact h
    · exact h.onlyRegs (by simp) fun a hLow _ _ => by
        rw [reg_setReg, if_neg (Nat.ne_of_lt (Nat.lt_of_lt_of_le hLow (columnBase_ge 1 _ _)))]
  have hSec : LossNoted n d (e.countSec (wordColumn w)) :=
    (h.column 1 (wordColumn w) _ Reg.MEM_SEC_COUNT.COUNT).column 1 (wordColumn w) 1 Reg.MEM_EVENT.SEC
  unfold Dev.noteRead Dev.readOver
  dsimp only
  split
  · split
    · exact hSec
    · dsimp only
      exact hSec.modMem _
  · split
    · exact hLog ((h.column 1 (wordColumn w) _ Reg.MEM_DED_COUNT.COUNT).column 1 (wordColumn w) 1 Reg.MEM_EVENT.DED) _
    · exact h

theorem LossNoted.putWord (h : LossNoted n d e) (p : Nat) (v : RowWord) : LossNoted n d (e.putWord p v) := h.modMem _

theorem LossNoted.baseWrite (h : LossNoted n d e) (u : BaseUser) (w mask : Nat) (v : RowWord) :
    LossNoted n d (e.baseWrite u w mask v).1 := by
  have hTaken (bank : Nat) : LossNoted n d (e.bankTaken bank) := ⟨h.regs, h.queue, h.kryup, h.clk, rfl⟩
  unfold Dev.baseWrite Dev.writeTo
  split
  · exact h
  · split
    · exact h
    · rw [nextMeet_nothing _ (.inl h.meets)]
      dsimp only
      rw [if_neg (by decide), wearTo_nil, viaWritten_nothing]
      unfold Dev.putTo
      split
      · exact (hTaken _).putWord ..
      · dsimp only
        split
        · exact (hTaken _).noteRead ..
        · exact ((hTaken _).noteRead ..).putWord ..

theorem LossNoted.addGap (h : LossNoted n d e) (g : GapRange) : LossNoted n d (e.addGap n g) := by
  unfold Dev.addGap Dev.rewriteGaps
  dsimp only
  split
  · refine each_keeps (fun c x hc => ?_) _ (h.modLane ..)
    split
    · exact hc.baseWrite ..
    · exact hc
  · exact h.modLane ..

theorem LossNoted.creditDrop (h : LossNoted n d e) (ver typ len : Nat) : LossNoted n d (e.creditDrop n ver typ len) := by
  have hTake : LossNoted n d (e.creditTake n typ len) := by
    unfold Dev.creditTake
    split
    · exact h
    · exact h.modLink rfl
    · exact h.modLink rfl
  have hBack {e : Dev} (h : LossNoted n d e) : LossNoted n d (e.creditBack n typ len) := by
    unfold Dev.creditBack
    dsimp only
    split
    · exact h
    · split
      · exact h
      · exact h.modLink rfl
      · exact h.modLink rfl
  unfold Dev.creditDrop
  split
  · exact hBack hTake
  · exact h

theorem LossNoted.crcFail (h : LossNoted n d e) (ver : Nat) (som : Payload) (cross : Nat) : LossNoted n d (e.crcFail n ver som cross) := by
  have hNoted : LossNoted n d (((e.count (laneBase n) Reg.CRC_ERR_COUNT.COUNT).raise (laneBase n) Reg.LINK_EVENT.LOSS).creditDrop n ver
      (somType som) (somLen som)) :=
    ((h.laneFld (f := Reg.CRC_ERR_COUNT.COUNT) (.inl rfl) _).laneFld (f := Reg.LINK_EVENT.LOSS) (.inr rfl) 1).creditDrop ..
  unfold Dev.crcFail
  dsimp only
  split
  · exact hNoted.addGap _
  · exact hNoted

end

/-! ## Block lock is lost (R130, R131) -/

theorem lane_low (n : Fin 144) (f : Fld) (hf : f.off < 0x1000) : laneBase n + f.off < columnBase 0 0 := by
  have := n.isLt
  simp only [laneBase, columnBase]
  omega

/-- The registers of a link that loss of lock writes. -/
def downOffs : List Nat := [Reg.LINK_STATE.off, Reg.LINK_EVENT.off, Reg.LINK_VER.off, Reg.AGREED_FEAT.off]

theorem loopEnd_leaves (d : Dev) (n : Nat) :
    (∀ f : Fld, f.off ∉ downOffs → (d.loopEnd n).fld (laneBase n) f = d.fld (laneBase n) f) ∧
    (d.loopEnd n).quiet = d.quiet ∧ (d.loopEnd n).links = d.links := by
  unfold Dev.loopEnd
  dsimp only
  split
  · refine ⟨fun f hf => ?_, by rw [quiet_laneRaise, quiet_laneFld], by rw [raise_links, setFld_links]⟩
    simp only [downOffs, List.mem_cons, List.not_mem_nil, or_false, not_or] at hf
    obtain ⟨hState, hEvent, -, -⟩ := hf
    rw [Dev.raise, fld_setFld_off hEvent rfl, fld_setFld_off hState rfl]
  · exact ⟨fun _ _ => rfl, rfl, rfl⟩

/-- A link's registers show negotiation down. -/
def Dev.downShown (d : Dev) (n : Nat) : Dev :=
  (((d.setFld (laneBase n) Reg.LINK_STATE.NEGO 0).setFld (laneBase n) Reg.LINK_STATE.ANNOUNCE_TX 0).setFld (laneBase n)
    Reg.LINK_VER.NEGOTIATED 0).setFld (laneBase n) Reg.AGREED_FEAT.FEATURES 0

/-- What negotiation and management had in hand is forgotten. -/
def Dev.linkForgets (d : Dev) (n : Nat) : Dev :=
  (d.modLink n fun l => { l with lastAnn := none, annSeen := false, mgmtWait := [], mgmtJob := none, mgmtTags := [] }).modCtl
    fun c => c.forgetLane n

theorem linkDown_eq (d : Dev) (n : Nat) : d.linkDown n = (((d.loopEnd n).downShown n).linkForgets n).txPurge n := by
  unfold Dev.linkDown
  dsimp only
  rw [setReg_eq_setFld (f := Reg.AGREED_FEAT.FEATURES) rfl rfl]
  rfl

theorem downShown_leaves (d : Dev) (n : Nat) :
    (d.downShown n).version n = 0 ∧ (∀ f : Fld, f.off ∉ downOffs → (d.downShown n).fld (laneBase n) f = d.fld (laneBase n) f) ∧
    (d.downShown n).quiet = d.quiet ∧ (d.downShown n).links = d.links := by
  unfold Dev.downShown
  refine ⟨?_, fun f hf => ?_, by rw [quiet_laneFld, quiet_laneFld, quiet_laneFld, quiet_laneFld],
    by rw [setFld_links, setFld_links, setFld_links, setFld_links]⟩
  · rw [Dev.version, fld_setFld_off (o := Reg.AGREED_FEAT.off) (by decide) rfl, fld_setFld_lt (by decide) (by decide)]
  · simp only [downOffs, List.mem_cons, List.not_mem_nil, or_false, not_or] at hf
    obtain ⟨hState, -, hVer, hAgreed⟩ := hf
    rw [fld_setFld_off hAgreed rfl, fld_setFld_off hVer rfl, fld_setFld_off hState rfl, fld_setFld_off hState rfl]

theorem linkForgets_leaves (d : Dev) (n : Nat) :
    (∀ f : Fld, (d.linkForgets n).fld (laneBase n) f = d.fld (laneBase n) f) ∧ (d.linkForgets n).quiet = d.quiet ∧
    ((d.linkForgets n).link n).txQueue = (d.link n).txQueue := by
  unfold Dev.linkForgets
  refine ⟨fun _ => rfl, by rw [quiet_modCtl, quiet_modLink], ?_⟩
  show ((d.modLink n fun l => { l with lastAnn := none, annSeen := false, mgmtWait := [], mgmtJob := none, mgmtTags := [] }).link n).txQueue = _
  rw [link_modLink_same]

/-- Negotiation is down: no version is in force. -/
theorem linkDown_leaves {d : Dev} {n : Nat} (hQueue : (d.link n).txQueue = []) :
    (d.linkDown n).version n = 0 ∧
    (∀ f : Fld, f.off ∉ downOffs → (d.linkDown n).fld (laneBase n) f = d.fld (laneBase n) f) ∧ (d.linkDown n).quiet = d.quiet := by
  obtain ⟨hEndFld, hEndQuiet, hEndLinks⟩ := loopEnd_leaves d n
  obtain ⟨hVersion, hDownFld, hDownQuiet, hDownLinks⟩ := downShown_leaves (d.loopEnd n) n
  obtain ⟨hFld, hQuiet, hKept⟩ := linkForgets_leaves ((d.loopEnd n).downShown n) n
  rw [linkDown_eq]
  generalize ((d.loopEnd n).downShown n).linkForgets n = y at hFld hQuiet hKept ⊢
  have hNone : (y.link n).txQueue = [] := by rw [hKept, Dev.link, hDownLinks, hEndLinks]; exact hQueue
  have hPurge := (LinkStep.refl n [] y).txPurge hNone
  have hPurged (f : Fld) : (y.txPurge n).fld (laneBase n) f = ((d.loopEnd n).downShown n).fld (laneBase n) f :=
    (hPurge.flds f (by simp)).trans (hFld f)
  refine ⟨(hPurged _).trans hVersion, fun f hf => (hPurged f).trans ((hDownFld f hf).trans (hEndFld f hf)), ?_⟩
  rw [quiet_of_lane_window hPurge.parts (hPurge.window (by simp)), hQuiet, hDownQuiet, hEndQuiet]

/-- A lane's receiver emptied. -/
def Dev.rxEmptied (d : Dev) (n : Nat) (lost : List EbMessage) : Dev :=
  ((d.modLane n fun r => { r with rx := .outside, eb := [] }).each lost fun d m => d.crcFail n m.ver m.som m.cross).modLane n fun r =>
    { r with evidence := none, lastStamp := none, winPos := 0, winBad := 0, sinceQuad := 0 }

theorem rxEmptied_noted {d : Dev} (n : Nat) (lost : List EbMessage) (hMeets : d.stack.meets = []) : LossNoted n d (d.rxEmptied n lost) :=
  LossNoted.modLane (each_keeps (fun _ _ hc => hc.crcFail ..) _ ((LossNoted.refl hMeets).modLane ..)) ..

/-- A lane that hunts anew. -/
theorem beginHunt_leaves (d : Dev) (n : Nat) :
    (d.beginHunt n false).blkState n = blkHunt ∧
    (∀ f : Fld, f.off ≠ Reg.BLK_STATE.off → f.off ≠ Reg.BLK_STATUS.off → (d.beginHunt n false).fld (laneBase n) f = d.fld (laneBase n) f) ∧
    (d.beginHunt n false).quiet = d.quiet ∧ (d.beginHunt n false).links = d.links := by
  unfold Dev.beginHunt
  dsimp only
  rw [if_neg (by decide), Dev.setBlk]
  refine ⟨?_, fun f h1 h2 => ?_, by rw [quiet_modLane, quiet_laneFld, quiet_laneFld], by rw [modLane_links, setFld_links, setFld_links]⟩
  · rw [Dev.blkState, fld_modLane, fld_setFld_off (o := Reg.BLK_STATUS.off) (by decide) rfl, fld_setFld_lt (by decide) (by decide)]
  · rw [fld_modLane, fld_setFld_off h2 rfl, fld_setFld_off h1 rfl]

/-- The loss of lock is counted and shown. -/
def Dev.lossCounted (d : Dev) (n : Nat) : Dev := (d.count (laneBase n) Reg.LOCK_LOSS_COUNT.COUNT).raise (laneBase n) Reg.BLK_EVENT.LOCK_LOST

/-- The receiver is emptied, and the buffer shows it. -/
def Dev.lossEmptied (d : Dev) (n : Nat) (lost : List EbMessage) : Dev :=
  ((d.lossCounted n).rxEmptied n lost).setFld (laneBase n) Reg.BLK_STATUS.EB_OCC 0

theorem lossCounted_leaves (d : Dev) (n : Nat) :
    Counted (laneBase n) Reg.LOCK_LOSS_COUNT.COUNT 1 d (d.lossCounted n) ∧
    (∀ f : Fld, f.off ≠ Reg.LOCK_LOSS_COUNT.off → f.off ≠ Reg.BLK_EVENT.off → (d.lossCounted n).fld (laneBase n) f = d.fld (laneBase n) f) ∧
    (d.lossCounted n).quiet = d.quiet ∧ (d.lossCounted n).links = d.links ∧ (d.lossCounted n).stack = d.stack := by
  unfold Dev.lossCounted
  refine ⟨?_, fun f h1 h2 => ?_, by rw [quiet_laneRaise, Dev.count, Dev.countBy, quiet_laneFld], by rw [raise_links, count_links],
    by rw [raise_stack, count_stack]⟩
  · rw [Counted, Dev.raise, fld_setFld_off (o := Reg.BLK_EVENT.off) (by decide) rfl, Dev.count, fld_countBy_same (by decide)]
  · rw [Dev.raise, fld_setFld_off h2 rfl, Dev.count, Dev.countBy, fld_setFld_off h1 rfl]

/-- The registers that the emptying of a receiver writes. -/
def emptiedOffs : List Nat := [Reg.CRC_ERR_COUNT.off, Reg.LINK_EVENT.off, Reg.BLK_STATUS.off]

theorem lossEmptied_leaves {d : Dev} (n : Fin 144) (lost : List EbMessage) (hQuiet : d.quiet = true) :
    (∀ f : Fld, f.off < 0x1000 → f.off ∉ emptiedOffs → (d.lossEmptied n lost).fld (laneBase n) f = (d.lossCounted n).fld (laneBase n) f) ∧
    (d.lossEmptied n lost).quiet = true ∧ ((d.lossEmptied n lost).link n).txQueue = (d.link n).txQueue := by
  obtain ⟨-, -, hCountQuiet, hLinks, hStack⟩ := lossCounted_leaves d n
  have hMeets : (d.lossCounted n).stack.meets = [] := by rw [hStack]; exact (d.quiet_iff.mp hQuiet).2.2.2.2
  have hNoted := rxEmptied_noted n lost hMeets
  unfold Dev.lossEmptied
  refine ⟨fun f hLow hf => ?_, ?_, ?_⟩
  · simp only [emptiedOffs, List.mem_cons, List.not_mem_nil, or_false, not_or] at hf
    obtain ⟨hCrc, hLink, hStatus⟩ := hf
    rw [fld_setFld_off hStatus rfl]
    exact hNoted.fld (lane_low n f hLow) hCrc hLink
  · rw [quiet_laneFld, hNoted.quiet hMeets, hCountQuiet]
    exact hQuiet
  · rw [Dev.link, setFld_links]
    refine hNoted.queue.trans ?_
    rw [Dev.link, hLinks]
    rfl

/-- Loss of block lock in a lane that nothing waits in: it hunts, the loss is counted, and no version is in force. -/
theorem lockLost_leaves {d : Dev} (n : Fin 144) (hQuiet : d.quiet = true) (hLock : d.blkState n = blkLocked)
    (hQueue : (d.link n).txQueue = []) (hAuto : d.fld (laneBase n) Reg.BLK_CTRL.FORCE_MANUAL = 0) :
    (d.lockLost n).blkState n = blkHunt ∧ Counted (laneBase n) Reg.LOCK_LOSS_COUNT.COUNT 1 d (d.lockLost n) ∧
    (d.lockLost n).fld (laneBase n) Reg.HDR_ERR_COUNT.COUNT = d.fld (laneBase n) Reg.HDR_ERR_COUNT.COUNT ∧
    (d.lockLost n).version n = 0 ∧ (d.lockLost n).quiet = true := by
  obtain ⟨hCounted, hCountFld, -, -, -⟩ := lossCounted_leaves d n
  obtain ⟨hEmptyFld, hEmptyQuiet, hEmptyQueue⟩ := lossEmptied_leaves n (d.rxMessages n) hQuiet
  obtain ⟨hHunt, hHuntFld, hHuntQuiet, hHuntLinks⟩ := beginHunt_leaves (d.lossEmptied n (d.rxMessages n)) n
  have hManual : (d.lossEmptied n (d.rxMessages n)).flag (laneBase n) Reg.BLK_CTRL.FORCE_MANUAL = false := by
    rw [Dev.flag, hEmptyFld _ (by decide) (by decide), hCountFld _ (by decide) (by decide), hAuto]
    rfl
  have hOp : d.lockLost n = ((d.lossEmptied n (d.rxMessages n)).beginHunt n false).linkDown n := by
    rw [← hManual]
    exact if_pos hLock
  have hNone : ((((d.lossEmptied n (d.rxMessages n)).beginHunt n false)).link n).txQueue = [] := by
    rw [Dev.link, hHuntLinks]
    exact hEmptyQueue.trans hQueue
  obtain ⟨hVersion, hDownFld, hDownQuiet⟩ := linkDown_leaves hNone
  rw [hOp]
  refine ⟨(hDownFld _ (by decide)).trans hHunt, ?_, ?_, hVersion, by rw [hDownQuiet, hHuntQuiet]; exact hEmptyQuiet⟩
  · rw [Counted, hDownFld _ (by decide), hHuntFld _ (by decide) (by decide), hEmptyFld _ (by decide) (by decide)]
    exact hCounted
  · rw [hDownFld _ (by decide), hHuntFld _ (by decide) (by decide), hEmptyFld _ (by decide) (by decide), hCountFld _ (by decide) (by decide)]

/-! ## A block received (R129) -/

/-- The lane inverts what it receives (R126). -/
def Dev.rxPol (d : Dev) (n : Nat) : Bool := fget (d.lane n).cfg Reg.LANE_CFG.RX_POL == 1

/-- The payload as it comes from the line. -/
def Dev.linePayload (d : Dev) (n : Nat) (p : Payload) : Payload := if d.rxPol n then ~~~p else p

/-- The header as it comes from the line. -/
def Dev.lineHeader (d : Dev) (n : Nat) (h : BitVec 2) : BitVec 2 := if d.rxPol n then ~~~h else h

def validHeader (h : BitVec 2) : Bool := h == 1#2 || h == 2#2

theorem validHeader_line (d : Dev) (n : Nat) (h : BitVec 2) : validHeader (d.lineHeader n h) = decide ¬(h = 0 ∨ h = 3) := by
  unfold Dev.lineHeader
  have hTable : ∀ (x : Bool) (h : BitVec 2), validHeader (if x = true then ~~~h else h) = decide ¬(h = 0 ∨ h = 3) := by decide
  exact hTable _ h

/-- The descrambler has taken a payload. -/
def Dev.descrambles (d : Dev) (n : Nat) (p : Payload) : Dev :=
  d.modLane n fun r => { r with descr := (descramble (d.lane n).descr (d.linePayload n p)).1 }

/-- A block of a lane that receives in service. -/
theorem blockReceive_open {d : Dev} {n : Fin 144} (h : BitVec 2) (p : Payload) (reads : Fin 16)
    (hActive : (d.ust (laneBase n)).active = true) (hDepth : d.proofDepth (laneBase n) = none) (hReady : d.signalReady n = true)
    (hGroup : d.groupLocked n = true) (hIdle : d.blkState n ≠ blkIdle) :
    opBlockReceive n h p reads d =
      if d.blkState n = blkLocked then (d.descrambles n p).lockedBlock n (validHeader (d.lineHeader n h))
        (.block (d.lineHeader n h == 2#2) (descramble (d.lane n).descr (d.linePayload n p)).2) reads
      else (d.descrambles n p).huntBlock n (validHeader (d.lineHeader n h)) := by
  have hIdle' : (d.blkState n == blkIdle) = false := beq_false_of_ne hIdle
  unfold opBlockReceive
  simp only [hActive, hDepth, hReady, hGroup, hIdle']
  rfl

end Sys2Proof.Machine

/-! # Block lock found and held, and the elastic buffer (R129, R130, R136) -/

namespace Sys2Proof.Machine

set_option Elab.async false

/-! ## A lane as a unit -/

theorem laneBase_facts (n : Fin 144) : Hard (laneBase n) ∧ ((unitOf (laneBase n)).blk = .hitLane ∨ (unitOf (laneBase n)).blk = .trunkLane) := by
  revert n
  have h : ∀ n : Fin 144, (laneBase n % 0x1000 = 0 ∧ (unitOf (laneBase n)).blk ≠ .shell) ∧
      ((unitOf (laneBase n)).blk = .hitLane ∨ (unitOf (laneBase n)).blk = .trunkLane) := by decide +kernel
  exact h

/-- A lane that runs or is degraded does nothing beside the state table. -/
theorem lane_hook_run (d : Dev) (n : Fin 144) (old : UState) {new : UState} (h : new = .running ∨ new = .degraded) :
    d.stateHook (laneBase n) old new = d := by
  obtain ⟨-, hBlk⟩ := laneBase_facts n
  have hProof : d.proofHook (laneBase n) new = d := by
    unfold Dev.proofHook
    split
    · rfl
    · split
      · rfl
      · obtain rfl | rfl := h <;> rfl
  have hStays : (old.active && !new.active) = false := by obtain rfl | rfl := h <;> simp [UState.active]
  have hNew : new ≠ .draining := by obtain rfl | rfl := h <;> decide
  unfold Dev.stateHook
  dsimp only
  obtain hBlk | hBlk := hBlk
  all_goals rw [hBlk, hProof, hStays]; exact if_neg hNew

/-- A lane becomes ready: beside STATE and EVENT its registers stand. -/
theorem lane_ready (d : Dev) (n : Fin 144) :
    (∀ f : Fld, 0x100 ≤ f.off → f.off < 0x1000 → (d.ready (laneBase n)).fld (laneBase n) f = d.fld (laneBase n) f) ∧
    (d.ready (laneBase n)).quiet = d.quiet := by
  have hBase := (laneBase_facts n).1.1
  unfold Dev.ready
  split
  · rename_i hStart
    generalize hTo : (if d.units.loss.mem (laneBase n) = true then UState.degraded else UState.running) = u
    have hRun : u = .running ∨ u = .degraded := by
      rw [← hTo]
      split
      · exact .inr rfl
      · exact .inl rfl
    have hMoves : d.ust (laneBase n) ≠ u := by
      rw [hStart]
      obtain rfl | rfl := hRun <;> decide
    obtain ⟨-, hParts, hStates⟩ := setUst_run (hardAbove_of_hard (laneBase_facts n).1) hMoves hRun fun _ _ => lane_hook_run _ n _ hRun
    refine ⟨fun f hf hf' => ?_, quiet_of_onlyStates (hParts.mono (by simp)) hStates (by simp)⟩
    rw [Dev.fld, hStates _ (by simp) (by simp only [Reg.STATE.STATE]; omega) (by simp only [Reg.EVENT.FAULT]; omega), Dev.fld]
  · exact ⟨fun _ _ _ => rfl, rfl⟩

/-- The registers of a link that an ANNOUNCE begins with. -/
def beginFlds : List Fld := [Reg.LINK_STATE.SEEN_TX, Reg.LINK_STATE.SEEN_RX, Reg.LINK_STATE.ANNOUNCE_TX, Reg.LINK_STATE.NEGO]

theorem beginAnnounce_kept (d : Dev) (n : Nat) :
    (∀ f : Fld, f.off ≠ Reg.LINK_STATE.off → (d.beginAnnounce n).fld (laneBase n) f = d.fld (laneBase n) f) ∧
    (d.beginAnnounce n).quiet = d.quiet := by
  unfold Dev.beginAnnounce
  dsimp only
  generalize hc : d.modLink n _ = c
  have hFld (f : Fld) : c.fld (laneBase n) f = d.fld (laneBase n) f := by rw [← hc]; rfl
  have hQuiet : c.quiet = d.quiet := by rw [← hc, quiet_modLink]
  have hAll : LinkStep n beginFlds c (((((c.setFld (laneBase n) Reg.LINK_STATE.SEEN_TX 0).setFld (laneBase n)
      Reg.LINK_STATE.SEEN_RX 0).setFld (laneBase n) Reg.LINK_STATE.ANNOUNCE_TX 1)).setNego n negoAnnouncing |>.sendAnnounce n) :=
    (((((LinkStep.refl n _ c).setFld (by simp [beginFlds]) 0).setFld (by simp [beginFlds]) 0).setFld (by simp [beginFlds]) 1).setFld
      (by simp [beginFlds]) negoAnnouncing).sendAnnounce
  refine ⟨fun f hf => (hAll.flds f fun g hg => ?_).trans (hFld f), (quiet_of_lane_window hAll.parts (hAll.window (by decide))).trans hQuiet⟩
  have hOff : ∀ g ∈ beginFlds, g.off = Reg.LINK_STATE.off := by decide
  simp [Fld.clear, hOff g hg, Ne.symm hf]

/-- Negotiation begins with block lock: only the link's registers and its record change. -/
theorem negoLock_kept (d : Dev) (n : Nat) :
    (∀ f : Fld, f.off ∉ downOffs → (d.negoLock n).fld (laneBase n) f = d.fld (laneBase n) f) ∧ (d.negoLock n).quiet = d.quiet := by
  obtain ⟨hFld, hQuiet⟩ := beginAnnounce_kept (d.setFld (laneBase n) Reg.LINK_VER.NEGOTIATED 0x10) n
  unfold Dev.negoLock
  dsimp only
  split
  · exact ⟨fun _ _ => rfl, rfl⟩
  · refine ⟨fun f hf => ?_, by rw [hQuiet, quiet_laneFld]⟩
    simp only [downOffs, List.mem_cons, List.not_mem_nil, or_false, not_or] at hf
    obtain ⟨hState, -, hVer, -⟩ := hf
    rw [hFld f hState, fld_setFld_off hVer rfl]

/-- Block lock as the lane's registers show it, before negotiation. -/
def Dev.lockShown (d : Dev) (n : Nat) : Dev :=
  ((((d.setBlk n blkLocked).setFld (laneBase n) Reg.BLK_STATUS.RUN 64).raise (laneBase n) Reg.BLK_EVENT.LOCK).modLane n fun r =>
    { r with eb := [idleItem, idleItem], winPos := 0, winBad := 0, sinceQuad := 0, evidence := none, lastStamp := none, rx := .outside }).showOcc n

theorem lockShown_leaves (d : Dev) (n : Nat) :
    (d.lockShown n).blkState n = blkLocked ∧ (d.lockShown n).fld (laneBase n) Reg.BLK_EVENT.LOCK = 1 ∧ (d.lockShown n).quiet = d.quiet := by
  unfold Dev.lockShown Dev.showOcc Dev.setBlk
  refine ⟨?_, ?_, by rw [quiet_laneFld, quiet_modLane, quiet_laneRaise, quiet_laneFld, quiet_laneFld]⟩
  · rw [Dev.blkState, fld_setFld_off (o := Reg.BLK_STATUS.off) (by decide) rfl, fld_modLane, Dev.raise,
      fld_setFld_off (o := Reg.BLK_EVENT.off) (by decide) rfl, fld_setFld_off (o := Reg.BLK_STATUS.off) (by decide) rfl,
      fld_setFld_lt (by decide) (by decide)]
  · rw [fld_setFld_off (o := Reg.BLK_STATUS.off) (by decide) rfl, fld_modLane, fld_raise_same (by decide) (by decide)]

theorem lockGained_leaves {d : Dev} (n : Fin 144) (hHunt : d.blkState n = blkHunt) :
    (d.lockGained n).blkState n = blkLocked ∧ (d.lockGained n).fld (laneBase n) Reg.BLK_EVENT.LOCK = 1 ∧ (d.lockGained n).quiet = d.quiet := by
  have hEnds : d.slipEnds n = d := if_neg (by rw [hHunt]; decide)
  have hOp : d.lockGained n = ((d.lockShown n).negoLock n).ready (laneBase n) := by
    unfold Dev.lockGained
    dsimp only
    rw [hEnds]
    rfl
  obtain ⟨hState, hEvent, hQuiet⟩ := lockShown_leaves d n
  obtain ⟨hNegoFld, hNegoQuiet⟩ := negoLock_kept (d.lockShown n) n
  obtain ⟨hReadyFld, hReadyQuiet⟩ := lane_ready ((d.lockShown n).negoLock n) n
  rw [hOp]
  refine ⟨?_, ?_, by rw [hReadyQuiet, hNegoQuiet, hQuiet]⟩
  · rw [Dev.blkState, hReadyFld _ (by decide) (by decide), hNegoFld _ (by decide)]
    exact hState
  · rw [hReadyFld _ (by decide) (by decide), hNegoFld _ (by decide), hEvent]

/-! ## Blocks received in HUNT (R129) -/

/-- A block's update known, the command completes. -/
theorem blockReceive_completes {s : State} {n : Fin 144} {p : Payload} {reads : Fin 16} {h : BitVec 2} {e : Dev} {P : Dev → Prop} (he : opBlockReceive n h p reads s.dev = e) (hQuiet : e.quiet = true)
    (hP : P e) : Completes (.blockReceive n h p reads) s P :=
  completes_quiet (f := opBlockReceive n h p reads) rfl (by rw [he]; exact hQuiet) (by rw [he]; exact hP)

section
variable {s : State} {n : Fin 144} {p : Payload} {reads : Fin 16} (hq : s.dev.quiet = true)
  (hActive : (s.dev.ust (laneBase n)).active = true) (hDepth : s.dev.proofDepth (laneBase n) = none)
  (hReady : s.dev.signalReady n = true) (hGroup : s.dev.groupLocked n = true)
include hq hActive hDepth hReady hGroup

theorem blockReceive_hunt (h : BitVec 2) (hHunt : s.dev.blkState n = blkHunt) :
    Completes (.blockReceive n h p reads) s fun e =>
      ((h = 0 ∨ h = 3) → e.fld (laneBase n) Reg.BLK_STATUS.RUN = 0 ∧
        e.fld (laneBase n) Reg.BLK_STATUS.OFFSET = (s.dev.fld (laneBase n) Reg.BLK_STATUS.OFFSET + 1) % 66 ∧
        (e.lane n).huntCount = (s.dev.lane n).huntCount + 1 ∧ OnlyParts [.regs, .lanes] s.dev e ∧
        OnlyRegs [laneBase n + Reg.BLK_STATUS.RUN.off] s.dev e) ∧
      (¬(h = 0 ∨ h = 3) → s.dev.fld (laneBase n) Reg.BLK_STATUS.RUN < 63 →
        e.fld (laneBase n) Reg.BLK_STATUS.RUN = s.dev.fld (laneBase n) Reg.BLK_STATUS.RUN + 1 ∧
        e.fld (laneBase n) Reg.BLK_STATUS.OFFSET = s.dev.fld (laneBase n) Reg.BLK_STATUS.OFFSET ∧ OnlyParts [.regs, .lanes] s.dev e ∧
        OnlyRegs [laneBase n + Reg.BLK_STATUS.RUN.off] s.dev e) ∧
      (¬(h = 0 ∨ h = 3) → s.dev.fld (laneBase n) Reg.BLK_STATUS.RUN = 63 → e.blkState n = blkLocked ∧
        e.fld (laneBase n) Reg.BLK_EVENT.LOCK = 1) := by
  have hOpen := blockReceive_open h p reads hActive hDepth hReady hGroup (by rw [hHunt]; decide)
  rw [if_neg (by rw [hHunt]; decide), validHeader_line] at hOpen
  have hStill : (s.dev.descrambles n p).blkState n = blkHunt := hHunt
  generalize hCount : ((s.dev.descrambles n p).modLane n fun r => { r with huntCount := r.huntCount + 1 }) = c
  have hFld (f : Fld) : c.fld (laneBase n) f = s.dev.fld (laneBase n) f := by rw [← hCount]; rfl
  have hLane : (c.lane n).huntCount = (s.dev.lane n).huntCount + 1 := by
    rw [← hCount, lane_modLane_same, Dev.descrambles, lane_modLane_same]
  have hQuiet : c.quiet = true := by rw [← hCount, Dev.descrambles, quiet_modLane, quiet_modLane]; exact hq
  have hParts : OnlyParts [.regs, .lanes] s.dev c := by rw [← hCount, Dev.descrambles]; simp
  have hRegs : OnlyRegs [laneBase n + Reg.BLK_STATUS.RUN.off] s.dev c := by rw [← hCount, Dev.descrambles]; simp
  have hState : c.blkState n = blkHunt := by rw [Dev.blkState, hFld]; exact hHunt
  by_cases hBad : h = 0 ∨ h = 3
  · have hOp : opBlockReceive n h p reads s.dev = (c.setFld (laneBase n) Reg.BLK_STATUS.RUN 0).setFld (laneBase n) Reg.BLK_STATUS.OFFSET
        (((c.setFld (laneBase n) Reg.BLK_STATUS.RUN 0).fld (laneBase n) Reg.BLK_STATUS.OFFSET + 1) % 66) := by
      rw [hOpen, ← hCount]
      unfold Dev.huntBlock
      dsimp only
      rw [hStill, decide_eq_false (not_not.mpr hBad)]
      rfl
    refine blockReceive_completes hOp (by rw [quiet_laneFld, quiet_laneFld, hQuiet])
      ⟨fun _ => ⟨?_, ?_, by rw [lane_setFld, lane_setFld]; exact hLane, hParts.trans (by simp), hRegs.trans (by simp [Reg.BLK_STATUS.OFFSET, Reg.BLK_STATUS.RUN])⟩,
        fun hNot => absurd hBad hNot, fun hNot => absurd hBad hNot⟩
    · rw [fld_setFld_clear (by decide), fld_setFld_lt (by decide) (by decide)]
    · rw [fld_setFld_lt (by decide) (Nat.lt_trans (Nat.mod_lt _ (by decide)) (by decide : 66 < 2 ^ Reg.BLK_STATUS.OFFSET.width)),
        fld_setFld_clear (by decide), hFld]
  · have hOp : opBlockReceive n h p reads s.dev = if c.fld (laneBase n) Reg.BLK_STATUS.RUN + 1 = 64 then c.lockGained n
        else c.setFld (laneBase n) Reg.BLK_STATUS.RUN (c.fld (laneBase n) Reg.BLK_STATUS.RUN + 1) := by
      rw [hOpen, ← hCount]
      unfold Dev.huntBlock
      dsimp only
      rw [hStill, decide_eq_true hBad]
      rfl
    by_cases hLast : c.fld (laneBase n) Reg.BLK_STATUS.RUN + 1 = 64
    · rw [if_pos hLast] at hOp
      obtain ⟨hLocked, hEvent, hGainQuiet⟩ := lockGained_leaves n hState
      rw [hFld] at hLast
      exact blockReceive_completes hOp (hGainQuiet.trans hQuiet)
        ⟨fun k => absurd k hBad, fun _ hRun => by omega, fun _ _ => ⟨hLocked, hEvent⟩⟩
    · rw [if_neg hLast] at hOp
      refine blockReceive_completes hOp (by rw [quiet_laneFld, hQuiet])
        ⟨fun k => absurd k hBad, fun _ hRun => ⟨?_, ?_, hParts.trans (by simp), hRegs.trans (by simp)⟩, fun _ hRun => ?_⟩
      · have hWide : s.dev.fld (laneBase n) Reg.BLK_STATUS.RUN + 1 < 2 ^ Reg.BLK_STATUS.RUN.width := Nat.lt_of_lt_of_le (Nat.succ_lt_succ hRun) (by decide)
        rw [hFld, fld_setFld_lt (by decide) hWide]
      · rw [fld_setFld_clear (by decide), hFld]
      · rw [hFld] at hLast
        omega

/-! ## Blocks received in LOCKED (R130, R136) -/

/-- The sixteenth invalid header of a window. -/
theorem blockReceive_lost {h : BitVec 2} (hLock : s.dev.blkState n = blkLocked) (hBad : h = 0 ∨ h = 3)
    (hWindow : 15 ≤ (s.dev.lane n).winBad) (hQueue : (s.dev.link n).txQueue = [])
    (hAuto : s.dev.fld (laneBase n) Reg.BLK_CTRL.FORCE_MANUAL = 0) :
    Completes (.blockReceive n h p reads) s fun e =>
      e.blkState n = blkHunt ∧ Counted (laneBase n) Reg.LOCK_LOSS_COUNT.COUNT 1 s.dev e ∧
      Counted (laneBase n) Reg.HDR_ERR_COUNT.COUNT 1 s.dev e ∧ e.version n = 0 := by
  have hOpen := blockReceive_open h p reads hActive hDepth hReady hGroup (by rw [hLock]; decide)
  rw [if_pos hLock, validHeader_line, decide_eq_false (not_not.mpr hBad)] at hOpen
  generalize hCount : (s.dev.descrambles n p).count (laneBase n) Reg.HDR_ERR_COUNT.COUNT = c
  have hOp : opBlockReceive n h p reads s.dev = c.lockLost n := by
    have hSixteen : (!false && decide (16 ≤ ((s.dev.descrambles n p).lane n).winBad + bit01 !false)) = true := by
      rw [Dev.descrambles, lane_modLane_same]
      simpa [bit01] using hWindow
    rw [hOpen, ← hCount]
    unfold Dev.lockedBlock
    dsimp only
    exact if_pos hSixteen
  have hFld (f : Fld) (hf : f.off ≠ Reg.HDR_ERR_COUNT.off) : c.fld (laneBase n) f = s.dev.fld (laneBase n) f := by
    rw [← hCount, Dev.count, Dev.countBy, fld_setFld_off hf rfl]
    rfl
  have hQuiet : c.quiet = true := by
    rw [← hCount, Dev.count, Dev.countBy, quiet_laneFld, Dev.descrambles, quiet_modLane]
    exact hq
  have hNone : (c.link n).txQueue = [] := by
    rw [← hCount, Dev.link, count_links]
    exact hQueue
  obtain ⟨hHunt, hLoss, hHdr, hVersion, hAfter⟩ := lockLost_leaves n hQuiet (by rw [Dev.blkState, hFld _ (by decide)]; exact hLock) hNone
    (by rw [hFld _ (by decide), hAuto])
  refine blockReceive_completes hOp hAfter ⟨hHunt, ?_, ?_, hVersion⟩
  · rw [Counted, hLoss, hFld _ (by decide)]
  · rw [Counted, hHdr, ← hCount, Dev.count, fld_countBy_same (by decide)]
    rfl

end

/-! ## The elastic buffer takes a block (R136) -/

/-- A buffer whose head is no QUAD is not trimmed. -/
theorem ebTrim_head {d : Dev} {n : Nat} (k : Nat) (h : (d.lane n).eb.head?.any EbItem.isQuad = false) : d.ebTrim k n = d := by
  cases k with
  | zero => rfl
  | succ k =>
    unfold Dev.ebTrim
    split
    · rename_i i t hItems
      rw [hItems] at h
      have hHead : i.isQuad = false := h
      rw [hHead]
      exact if_neg (by simp)
    · rfl

/-- A lane whose buffer has taken a block. -/
def Dev.ebTakes (d : Dev) (n : Nat) (i : EbItem) : Dev :=
  (d.modLane n fun r => { r with sinceQuad := if i.isQuad then 0 else r.sinceQuad + 1 }).modLane n fun r => { r with eb := r.eb ++ [i] }

theorem ebWrite_room {d : Dev} {n : Nat} (i : EbItem) (hRoom : (d.lane n).eb.length < 8) (hHead : (d.lane n).eb.head?.any EbItem.isQuad = false)
    (hSome : (d.lane n).eb ≠ []) : d.ebWrite n i = d.ebTakes n i := by
  have hFull : ¬8 ≤ ((d.modLane n fun r => { r with sinceQuad := if i.isQuad then 0 else r.sinceQuad + 1 }).lane n).eb.length := by
    rw [lane_modLane_same]
    exact Nat.not_le.mpr hRoom
  have hFirst : ((d.ebTakes n i).lane n).eb.head?.any EbItem.isQuad = false := by
    rw [Dev.ebTakes, lane_modLane_same, lane_modLane_same]
    dsimp only
    rw [List.head?_append_of_ne_nil _ hSome]
    exact hHead
  unfold Dev.ebWrite
  dsimp only
  rw [if_neg hFull]
  exact ebTrim_head 8 hFirst

theorem ebTakes_leaves (d : Dev) (n : Nat) (i : EbItem) :
    ((d.ebTakes n i).lane n).eb = (d.lane n).eb ++ [i] ∧ ((d.ebTakes n i).lane n).descr = (d.lane n).descr ∧
    (d.ebTakes n i).quiet = d.quiet ∧ OnlyParts [.lanes] d (d.ebTakes n i) := by
  unfold Dev.ebTakes
  refine ⟨by rw [lane_modLane_same, lane_modLane_same], by rw [lane_modLane_same, lane_modLane_same], by rw [quiet_modLane, quiet_modLane],
    by simp⟩

theorem blockReceive_buffered {s : State} {n : Fin 144} {h : BitVec 2} {p : Payload} (hq : s.dev.quiet = true)
    (hActive : (s.dev.ust (laneBase n)).active = true) (hDepth : s.dev.proofDepth (laneBase n) = none)
    (hReady : s.dev.signalReady n = true) (hGroup : s.dev.groupLocked n = true) (hLock : s.dev.blkState n = blkLocked)
    (hPol : fget (s.dev.lane n).cfg Reg.LANE_CFG.RX_POL = 0) (hGood : h = 1 ∨ h = 2) (hRoom : (s.dev.lane n).eb.length < 8)
    (hHead : (s.dev.lane n).eb.head?.any EbItem.isQuad = false) (hSome : (s.dev.lane n).eb ≠ []) :
    Completes (.blockReceive n h p 0) s fun e =>
      (e.lane n).eb = (s.dev.lane n).eb ++ [.block (h == 2) (descramble (s.dev.lane n).descr p).2] ∧
      (e.lane n).descr = (descramble (s.dev.lane n).descr p).1 ∧
      e.fld (laneBase n) Reg.BLK_STATUS.EB_OCC = (s.dev.lane n).eb.length + 1 ∧ OnlyParts [.regs, .lanes] s.dev e ∧
      OnlyRegs [laneBase n + Reg.BLK_STATUS.EB_OCC.off] s.dev e := by
  have hPlain : s.dev.rxPol n = false := by rw [Dev.rxPol, hPol]; rfl
  have hHeader : s.dev.lineHeader n h = h := by rw [Dev.lineHeader, hPlain]; exact if_neg Bool.false_ne_true
  have hPayload : s.dev.linePayload n p = p := by rw [Dev.linePayload, hPlain]; exact if_neg Bool.false_ne_true
  have hValid : validHeader h = true := by obtain rfl | rfl := hGood <;> decide
  have hOpen := blockReceive_open h p 0 hActive hDepth hReady hGroup (by rw [hLock]; decide)
  rw [if_pos hLock, hHeader, hPayload, hValid] at hOpen
  generalize hItem : EbItem.block (h == 2#2) (descramble (s.dev.lane n).descr p).2 = i at hOpen ⊢
  generalize hWindow : ((s.dev.descrambles n p).modLane n fun r => { r with
      winPos := if decide (((s.dev.descrambles n p).lane n).winPos + 1 = 64) = true then 0 else ((s.dev.descrambles n p).lane n).winPos + 1
      winBad := if decide (((s.dev.descrambles n p).lane n).winPos + 1 = 64) = true then 0
        else ((s.dev.descrambles n p).lane n).winBad + bit01 !true }) = c
  have hEb : (c.lane n).eb = (s.dev.lane n).eb := by rw [← hWindow, lane_modLane_same, Dev.descrambles, lane_modLane_same]
  have hDescr : (c.lane n).descr = (descramble (s.dev.lane n).descr p).1 := by
    rw [← hWindow, lane_modLane_same, Dev.descrambles, lane_modLane_same, hPayload]
  have hQuiet : c.quiet = true := by rw [← hWindow, Dev.descrambles, quiet_modLane, quiet_modLane]; exact hq
  have hParts : OnlyParts [.lanes] s.dev c := by rw [← hWindow, Dev.descrambles]; simp
  have hOp : opBlockReceive n h p 0 s.dev = (c.ebTakes n i).showOcc n := by
    rw [hOpen, ← ebWrite_room i (by rw [hEb]; exact hRoom) (by rw [hEb]; exact hHead) (by rw [hEb]; exact hSome), ← hWindow]
    rfl
  obtain ⟨hTaken, hKept, hTakenQuiet, hTakenParts⟩ := ebTakes_leaves c n i
  have hLength : ((c.ebTakes n i).lane n).eb.length = (s.dev.lane n).eb.length + 1 := by
    rw [hTaken, hEb, List.length_append]
    rfl
  have hAll := hParts.trans hTakenParts
  refine blockReceive_completes hOp (by rw [Dev.showOcc, quiet_laneFld, hTakenQuiet, hQuiet]) ⟨?_, ?_, ?_, ?_, ?_⟩
  · rw [Dev.showOcc, lane_setFld, hTaken, hEb]
  · rw [Dev.showOcc, lane_setFld, hKept, hDescr]
  · have hWide : (s.dev.lane n).eb.length + 1 < 2 ^ Reg.BLK_STATUS.EB_OCC.width := Nat.lt_of_lt_of_le (Nat.succ_lt_succ hRoom) (by decide)
    rw [Dev.showOcc, hLength, fld_setFld_lt (by decide) hWide]
  · exact (hAll.mono (by simp)).trans (by simp [Dev.showOcc])
  · intro a ha
    rw [Dev.showOcc, reg_setFld, if_neg (by simpa using ha), hAll.reg_eq (by simp)]

/-- Settles O22: each command of block lock is traced to the registers and records it leaves; loss of lock through the messages it loses,
and the descrambler by keeping its memory that of the scrambler bit for bit. -/
theorem blockLockAndElasticBuffer : Obligations.BlockLockAndElasticBuffer := by
  refine ⟨fun s path n p reads hq => ⟨?_, ?_, ?_, fun hReach => ⟨?_, ?_, fun v => ?_⟩⟩, fun s n h p hq => ⟨?_, ?_, ?_, ?_⟩⟩
  · rintro h ⟨hActive, hDepth, hReady, hGroup⟩ hHunt
    exact blockReceive_hunt hq hActive hDepth hReady hGroup h hHunt
  · rintro h ⟨hActive, hDepth, hReady, hGroup⟩ hLock hBad hWindow hQueue hAuto
    exact blockReceive_lost hq hActive hDepth hReady hGroup hLock hBad hWindow hQueue hAuto
  · exact huntExpired_slips hq
  · exact bitslip_completes hq hReach
  · exact rehunt_completes hq hReach
  · exact forceManualWrite_completes hq hReach v
  · exact blockReceive_buffered hq
  · exact quadTransmit_sends hq
  · exact fun mem => descramble_scramble mem p
  · exact quadMissing_shows hq

end Sys2Proof.Machine

/-! # Row ports: what grants them, and what a row answers (R233 to R242, R248) -/

namespace Sys2Proof.Machine

set_option Elab.async false

/-! ## A request at a bank (R236, R237) -/

/-- A row port asks. -/
def rowAsker (upper : Bool) : Asker := if upper then .upper else .lower

/-- The other row port of the bank asks too. -/
def rowRival (upper : Bool) (x : BankCycle) : Bool := if upper then x.lower else x.upper

/-- The bank's turn as the request finds it. -/
def Dev.turnFound (d : Dev) (k : Nat) (x : BankCycle) : Bool := !x.calm && d.mem.turn.mem k

/-- The bank's turn after a row port's request. -/
def Dev.turnLeft (d : Dev) (k : Nat) (upper : Bool) (x : BankCycle) (go : Bool) : Bool :=
  if rowRival upper x then (if go then !upper else d.turnFound k x) else false

theorem mem_setNum (m : SMap Nat) (k : Nat) (v : Bool) : (m.setNum k (bit01 v)).mem k = v := by
  rw [SMap.mem, SMap.num_setNum, if_pos rfl]
  cases v <;> rfl

theorem mem_del (m : SMap Nat) (k : Nat) : (m.del k).mem k = false := by
  rw [SMap.mem, SMap.num, SMap.at, SMap.look_del_same]
  rfl

/-- A record with another turn of its banks. -/
def Dev.withTurn (d : Dev) (t : SMap Nat) : Dev := d.modMem fun m => { m with turn := t }

/-- The bank's turn is forgotten after a calm row cycle. -/
def Dev.turnCalmed (d : Dev) (k : Nat) (x : BankCycle) : Dev := if x.calm then d.withTurn (d.mem.turn.del k) else d

theorem turnCalmed_turn (d : Dev) (k : Nat) (x : BankCycle) : (d.turnCalmed k x).mem.turn.mem k = d.turnFound k x := by
  unfold Dev.turnCalmed Dev.turnFound
  cases x.calm
  · rfl
  · exact mem_del _ _

/-- The bank grants a row port's request. -/
def Dev.rowGranted (d : Dev) (c bank : Nat) (upper : Bool) (x : BankCycle) : Bool :=
  (d.turnCalmed (c * 8 + bank) x).bankGrants c bank (rowAsker upper) x

/-- What a row port's request leaves. -/
def Dev.rowAsked (d : Dev) (c bank : Nat) (upper : Bool) (x : BankCycle) : Dev :=
  d.withTurn ((d.turnCalmed (c * 8 + bank) x).mem.turn.setNum (c * 8 + bank)
    (bit01 (d.turnLeft (c * 8 + bank) upper x (d.rowGranted c bank upper x))))

/-- A request changes nothing but the turn of its bank. -/
theorem asks_row (d : Dev) (c : Nat) {bank : Nat} (hBank : bank < 8) (upper : Bool) (x : BankCycle) :
    d.asks c bank (rowAsker upper) x = (d.rowAsked c bank upper x, d.rowGranted c bank upper x) := by
  have hNumber : bankNumber c bank = c * 8 + bank := if_neg (by omega)
  have hSame (t : SMap Nat) : (d.turnCalmed (c * 8 + bank) x).withTurn t = d.withTurn t := by
    unfold Dev.turnCalmed
    cases x.calm <;> rfl
  have hTurn (go : Bool) : (bothRows (rowAsker upper) x && (if go = true ∧ rowAsker upper = .lower then true
      else if go = true ∧ rowAsker upper = .upper then false else (d.turnCalmed (c * 8 + bank) x).mem.turn.mem (c * 8 + bank))) =
      d.turnLeft (c * 8 + bank) upper x go := by
    rw [turnCalmed_turn]
    unfold Dev.turnLeft bothRows rowAsker rowRival
    cases upper <;> cases go <;> cases x.lower <;> cases x.upper <;> simp
  unfold Dev.asks Dev.rowAsked Dev.rowGranted
  rw [hNumber]
  dsimp only
  rw [← hSame, ← hTurn]
  rfl

theorem rowAsked_turn (d : Dev) (c bank : Nat) (upper : Bool) (x : BankCycle) :
    (d.rowAsked c bank upper x).mem.turn.mem (c * 8 + bank) =
      d.turnLeft (c * 8 + bank) upper x (d.rowGranted c bank upper x) := mem_setNum _ _ _

/-! ## What a bank grants (R236 to R238) -/

section
variable {d : Dev} {c bank : Nat} {x : BankCycle} (upper : Bool)

/-- A base-port request in the second class at the bank. -/
def Dev.baseAbove (d : Dev) (c bank : Nat) (x : BankCycle) : Bool :=
  match (basePick x.base).filter fun a => a.bank == bank with | some a => d.promoted c a | none => false

/-- What a row port is granted at a bank that no operation holds and that is not in twin mode. -/
theorem rowGranted_eq (hBank : bank < 8) (hBusy : x.busy = false) (hTwin : (bank == 7 && d.mem.twin.mem c) = false) :
    d.rowGranted c bank upper x =
      (!(d.rpHold c bank x || d.baseAbove c bank x) && (!rowRival upper x || d.turnFound (c * 8 + bank) x == upper)) := by
  have hTurn := turnCalmed_turn d (c * 8 + bank) x
  have hCalmed : ∃ t, d.turnCalmed (c * 8 + bank) x = d.withTurn t := by
    unfold Dev.turnCalmed
    split
    · exact ⟨_, rfl⟩
    · exact ⟨_, rfl⟩
  obtain ⟨t, hSame⟩ := hCalmed
  unfold Dev.rowGranted
  rw [hSame] at hTurn ⊢
  have hNumber : bankNumber c bank = c * 8 + bank := if_neg (by omega)
  have hTwin' : (bank == 7 && (d.withTurn t).mem.twin.mem c) = false := hTwin
  have hHold : (d.withTurn t).rpHold c bank x = d.rpHold c bank x := rfl
  cases upper
  · show (!x.busy && ((bank == 7 && (d.withTurn t).mem.twin.mem c) || !((d.withTurn t).rpHold c bank x || d.baseAbove c bank x) &&
      (!x.upper || !(d.withTurn t).mem.turn.mem (bankNumber c bank)))) = _
    rw [hBusy, hTwin', hHold, hNumber, hTurn]
    cases d.turnFound (c * 8 + bank) x <;> rfl
  · show (!x.busy && ((bank == 7 && (d.withTurn t).mem.twin.mem c) || !((d.withTurn t).rpHold c bank x || d.baseAbove c bank x) &&
      (!x.lower || (d.withTurn t).mem.turn.mem (bankNumber c bank)))) = _
    rw [hBusy, hTwin', hHold, hNumber, hTurn]
    cases d.turnFound (c * 8 + bank) x <;> rfl

end

/-! ## A row port's access (R233, R239) -/

/-- What a row port's access changes beside the words of its row: the turn of the bank and the port's answer. -/
def Dev.rowAnswer (d : Dev) (c bank : Nat) (upper : Bool) (x : BankCycle) (st : Nat) (ws : List RowWord) : Dev :=
  (d.rowAsked c bank upper x).rowEnd c upper st ws

section
variable {d : Dev} {c bank row : Nat} {upper : Bool} {x : BankCycle} {f : Dev → Nat → Dev × Nat × List RowWord} (reserved : Bool)

theorem rowAccess_dead (hLive : d.portLive [c * 2 + bit01 upper] portRow = false) :
    d.rowAccess c upper bank row reserved { cycle := x } f = d := by
  unfold Dev.rowAccess
  rw [hLive]
  rfl

variable (hBank : bank < 8) (hLive : d.portLive [c * 2 + bit01 upper] portRow = true)
include hBank hLive

theorem rowAccess_waits (hGo : d.rowGranted c bank upper x = false) :
    d.rowAccess c upper bank row reserved { cycle := x } f = d.rowAsked c bank upper x := by
  have hAsk : d.asks c bank (if upper = true then .upper else .lower) x = (d.rowAsked c bank upper x, false) :=
    (asks_row d c hBank upper x).trans (by rw [hGo])
  unfold Dev.rowAccess
  dsimp only
  rw [hLive, if_neg (by decide), hAsk]
  rfl

variable (hGo : d.rowGranted c bank upper x = true)
include hGo

theorem rowAccess_barred (hBar : d.rowBar c bank (wordIndex c bank row 0) reserved {} = some memRefused) :
    d.rowAccess c upper bank row reserved { cycle := x } f = d.rowAnswer c bank upper x memRefused [] := by
  have hSame : (d.rowAsked c bank upper x).rowBar c bank (wordIndex c bank row 0) reserved { cycle := x } = some memRefused := hBar
  have hAsk : d.asks c bank (if upper = true then .upper else .lower) x = (d.rowAsked c bank upper x, true) :=
    (asks_row d c hBank upper x).trans (by rw [hGo])
  unfold Dev.rowAccess
  dsimp only
  rw [hLive, if_neg (by decide), hAsk]
  dsimp only
  rw [if_neg (by decide), hSame]
  dsimp only
  rw [if_neg (by simp)]
  rfl

theorem rowAccess_open (hBar : d.rowBar c bank (wordIndex c bank row 0) reserved {} = none) {e : Dev} {st : Nat} {ws : List RowWord}
    (hf : f (d.rowAsked c bank upper x) (wordIndex c bank row 0) = (e, st, ws)) :
    d.rowAccess c upper bank row reserved { cycle := x } f = e.rowEnd c upper st ws := by
  have hSame : (d.rowAsked c bank upper x).rowBar c bank (wordIndex c bank row 0) reserved { cycle := x } = none := hBar
  have hWear : (d.rowAsked c bank upper x).wearRow (wordIndex c bank row 0) [] = d.rowAsked c bank upper x := rfl
  have hAsk : d.asks c bank (if upper = true then .upper else .lower) x = (d.rowAsked c bank upper x, true) :=
    (asks_row d c hBank upper x).trans (by rw [hGo])
  unfold Dev.rowAccess
  dsimp only
  rw [hLive, if_neg (by decide), hAsk]
  dsimp only
  rw [if_neg (by decide), hSame]
  dsimp only
  rw [if_neg (by simp), hWear, hf]

end

/-! ## The words of a row -/

/-- The place of a word of a row. -/
def Dev.rowPlace (d : Dev) (w i : Nat) : Nat := d.physWord (w + i)

/-- What the reading of words leaves: the column's registers apart, only what the memory tracks. -/
structure RowNoted (c : Nat) (d e : Dev) : Prop where
  parts : OnlyParts [.regs, .mem] d e
  window : OnlyWindow (columnBase 1 c) d e
  bytes : e.mem.bytes = d.mem.bytes
  err : e.mem.err = d.mem.err
  relief : e.mem.relief = d.mem.relief
  turn : e.mem.turn = d.mem.turn

section
variable {c : Nat} {d e : Dev}

theorem RowNoted.refl (c : Nat) (d : Dev) : RowNoted c d d := ⟨by simp, fun _ _ => rfl, rfl, rfl, rfl, rfl⟩

theorem RowNoted.trans {f : Dev} (h1 : RowNoted c d e) (h2 : RowNoted c e f) : RowNoted c d f :=
  ⟨h1.parts.trans h2.parts, fun a ha => (h2.window a ha).trans (h1.window a ha), h2.bytes.trans h1.bytes, h2.err.trans h1.err,
    h2.relief.trans h1.relief, h2.turn.trans h1.turn⟩

theorem RowNoted.setReg (d : Dev) {c o : Nat} (ho : o < 0x1000) (v : Word) : RowNoted c d (d.setReg (columnBase 1 c + o) v) := by
  refine ⟨by simp, fun a ha => ?_, by rw [setReg_mem], by rw [setReg_mem], by rw [setReg_mem], by rw [setReg_mem]⟩
  rw [reg_setReg, if_neg]
  rintro rfl
  exact ha ⟨Nat.le_add_right .., Nat.add_lt_add_left ho _⟩

theorem RowNoted.setFld (d : Dev) {c : Nat} {f : Fld} (ho : f.off < 0x1000) (v : Nat) : RowNoted c d (d.setFld (columnBase 1 c) f v) :=
  .setReg d ho _

theorem RowNoted.quiet (h : RowNoted c d e) : e.quiet = d.quiet := by
  have hStack : e.stack = d.stack := h.parts .stack (by simp)
  refine quiet_congr (h.parts .kryup (by simp)) (h.parts .clk (by simp)) (h.window _ fun k => ?_) (by rw [hStack])
  exact absurd k.1 (Nat.not_le.mpr (Nat.lt_of_lt_of_le (by decide) (columnBase_ge 1 c 0)))

theorem RowNoted.physWord (h : RowNoted c d e) (w : Nat) : e.physWord w = d.physWord w := by
  unfold Dev.physWord Dev.relieved
  rw [h.relief]

theorem RowNoted.wordCheck (h : RowNoted c d e) (p : Nat) : e.wordCheck p = d.wordCheck p := by
  unfold Dev.wordCheck
  rw [h.err]

theorem RowNoted.wordData (h : RowNoted c d e) (p : Nat) : e.wordData p = d.wordData p := by
  unfold Dev.wordData
  rw [h.bytes]

theorem RowNoted.wordRead (h : RowNoted c d e) (p : Nat) : e.wordRead p = d.wordRead p := by
  unfold Dev.wordRead Dev.wordStored
  rw [h.wordCheck, h.wordData, h.err]

end

theorem wordCheck_cases (d : Dev) (p : Nat) : d.wordCheck p = memOk ∨ d.wordCheck p = memCorrected ∨ d.wordCheck p = memUncorr := by
  unfold Dev.wordCheck errStatus
  split
  · exact .inl rfl
  · exact .inr (.inl rfl)
  · exact .inr (.inr rfl)

/-- A corrected word is tracked, for its row and for its write-back (R240, R250). -/
def Dev.tracks (d : Dev) (stored : BitVec 266) (w p : Nat) : Dev :=
  if stored = 0 then d
  else d.modMem fun m =>
    { m with tracked := m.tracked.put (p / 16384) (trackRow (m.tracked.at (p / 16384) []) (wordRow w)), corr := m.corr.put p w }

/-- An uncorrectable word is counted and logged (R240). -/
def Dev.countDed (d : Dev) (w p src : Nat) : Dev :=
  ((d.count (columnBase 1 (wordColumn w)) Reg.MEM_DED_COUNT.COUNT).raise (columnBase 1 (wordColumn w)) Reg.MEM_EVENT.DED).logDed w
    (decide (p ≠ w)) src

theorem tracks_noted (d : Dev) (stored : BitVec 266) (c w p : Nat) : RowNoted c d (d.tracks stored w p) := by
  unfold Dev.tracks
  split
  · exact .refl c d
  · exact ⟨by simp, fun _ _ => rfl, rfl, rfl, rfl, rfl⟩

theorem tracks_fld (d : Dev) (stored : BitVec 266) (w p b : Nat) (f : Fld) : (d.tracks stored w p).fld b f = d.fld b f := by
  unfold Dev.tracks
  split <;> rfl

theorem countSec_noted (d : Dev) (c : Nat) :
    RowNoted c d (d.countSec c) ∧ Counted (columnBase 1 c) Reg.MEM_SEC_COUNT.COUNT 1 d (d.countSec c) ∧
    (d.countSec c).fld (columnBase 1 c) Reg.MEM_DED_COUNT.COUNT = d.fld (columnBase 1 c) Reg.MEM_DED_COUNT.COUNT := by
  unfold Dev.countSec
  refine ⟨(RowNoted.setFld d (by decide) _).trans (.setFld _ (by decide) 1), ?_, ?_⟩
  · rw [Counted, Dev.raise, fld_setFld_off (o := Reg.MEM_EVENT.off) (by decide) rfl, Dev.count, fld_countBy_same (by decide)]
  · rw [Dev.raise, fld_setFld_off (o := Reg.MEM_EVENT.off) (by decide) rfl, Dev.count, Dev.countBy,
      fld_setFld_off (o := Reg.MEM_SEC_COUNT.off) (by decide) rfl]

theorem logDed_noted (d : Dev) {c w : Nat} (hw : wordColumn w = c) (r : Bool) (src : Nat) :
    RowNoted c d (d.logDed w r src) ∧
    (∀ f : Fld, f.off ≠ Reg.MEM_DED_LOG.off → (d.logDed w r src).fld (columnBase 1 c) f = d.fld (columnBase 1 c) f) := by
  unfold Dev.logDed
  dsimp only
  rw [hw]
  split
  · exact ⟨.refl c d, fun _ _ => rfl⟩
  · refine ⟨.setReg d (by decide) _, fun f hf => ?_⟩
    rw [Dev.fld, reg_setReg, if_neg fun k => hf (Nat.add_left_cancel k), Dev.fld]

theorem countDed_noted (d : Dev) {c w : Nat} (hw : wordColumn w = c) (p src : Nat) :
    RowNoted c d (d.countDed w p src) ∧ Counted (columnBase 1 c) Reg.MEM_DED_COUNT.COUNT 1 d (d.countDed w p src) ∧
    (d.countDed w p src).fld (columnBase 1 c) Reg.MEM_SEC_COUNT.COUNT = d.fld (columnBase 1 c) Reg.MEM_SEC_COUNT.COUNT := by
  obtain ⟨hNoted, hFld⟩ := logDed_noted ((d.count (columnBase 1 c) Reg.MEM_DED_COUNT.COUNT).raise (columnBase 1 c) Reg.MEM_EVENT.DED) hw
    (decide (p ≠ w)) src
  unfold Dev.countDed
  rw [hw]
  refine ⟨((RowNoted.setFld d (by decide) _).trans (.setFld _ (by decide) 1)).trans hNoted, ?_, ?_⟩
  · rw [Counted, hFld _ (by decide), Dev.raise, fld_setFld_off (o := Reg.MEM_EVENT.off) (by decide) rfl, Dev.count,
      fld_countBy_same (by decide)]
  · rw [hFld _ (by decide), Dev.raise, fld_setFld_off (o := Reg.MEM_EVENT.off) (by decide) rfl, Dev.count, Dev.countBy,
      fld_setFld_off (o := Reg.MEM_DED_COUNT.off) (by decide) rfl]

theorem readOver_corrected {d : Dev} {w p src : Nat} (h : d.wordCheck p = memCorrected) :
    d.readOver w p src 0 = ((d.countSec (wordColumn w)).tracks (d.mem.err.at p 0) w p, memCorrected, d.wordData p) := by
  have hXor : d.mem.err.at p 0 ^^^ (0 : BitVec 266) = d.mem.err.at p 0 := BitVec.xor_zero
  have hSt : errStatus (d.mem.err.at p 0) = memCorrected := h
  unfold Dev.readOver
  dsimp only
  rw [hXor, hSt, if_pos rfl]
  show ((d.countSec (wordColumn w)).tracks (d.mem.err.at p 0) w p, memCorrected,
    ((d.countSec (wordColumn w)).tracks (d.mem.err.at p 0) w p).wordData p) = _
  rw [((countSec_noted d _).1.trans (tracks_noted _ _ _ w p)).wordData]

theorem readOver_uncorrectable {d : Dev} {w p src : Nat} (h : d.wordCheck p = memUncorr) :
    d.readOver w p src 0 = (d.countDed w p src, memUncorr, d.wordStored p) := by
  have hXor : d.mem.err.at p 0 ^^^ (0 : BitVec 266) = d.mem.err.at p 0 := BitVec.xor_zero
  have hSt : errStatus (d.mem.err.at p 0) = memUncorr := h
  unfold Dev.readOver
  dsimp only
  rw [hXor, hSt, if_neg (by decide), if_pos rfl]
  rfl

/-- One word read: its status and what it holds, corrected where it can be. -/
theorem readOver_word (d : Dev) (w p src : Nat) : (d.readOver w p src 0).2 = (d.wordCheck p, d.wordRead p) := by
  unfold Dev.wordRead
  obtain h | h | h := wordCheck_cases d p
  · rw [readOver_good h, h, if_neg (by decide)]
  · rw [readOver_corrected h, h, if_neg (by decide)]
  · rw [readOver_uncorrectable h, h, if_pos rfl]

/-- One where a word's status is the one given. -/
def Dev.isStatus (d : Dev) (st p : Nat) : Nat := if d.wordCheck p = st then 1 else 0

/-- What one word read leaves, and how it counts. -/
theorem readOver_noted (d : Dev) {c w : Nat} (hw : wordColumn w = c) (p src : Nat) :
    RowNoted c d (d.readOver w p src 0).1 ∧
    Counted (columnBase 1 c) Reg.MEM_SEC_COUNT.COUNT (d.isStatus memCorrected p) d (d.readOver w p src 0).1 ∧
    Counted (columnBase 1 c) Reg.MEM_DED_COUNT.COUNT (d.isStatus memUncorr p) d (d.readOver w p src 0).1 := by
  have hNone (f : Fld) : Counted (columnBase 1 c) f 0 d d := (satAdd_fld_zero d _ f).symm
  unfold Dev.isStatus
  obtain h | h | h := wordCheck_cases d p
  · rw [readOver_good h, h, if_neg (by decide), if_neg (by decide)]
    exact ⟨.refl c d, hNone _, hNone _⟩
  · obtain ⟨hNoted, hSec, hDed⟩ := countSec_noted d c
    rw [readOver_corrected h, h, if_pos rfl, if_neg (by decide), hw]
    refine ⟨hNoted.trans (tracks_noted ..), ?_, ?_⟩
    · rw [Counted, tracks_fld]
      exact hSec
    · rw [Counted, tracks_fld, hDed]
      exact hNone _
  · obtain ⟨hNoted, hDed, hSec⟩ := countDed_noted d hw p src
    rw [readOver_uncorrectable h, h, if_neg (by decide), if_pos rfl]
    refine ⟨hNoted, ?_, hDed⟩
    rw [Counted, hSec]
    exact hNone _

/-! ## A row read over a row port -/

theorem satAdd_satAdd (m a j k : Nat) : satAdd m (satAdd m a j) k = satAdd m a (j + k) := by
  unfold satAdd
  split <;> split <;> split <;> omega

theorem Counted.trans {b j k : Nat} {f : Fld} {c d e : Dev} (h1 : Counted b f j c d) (h2 : Counted b f k d e) : Counted b f (j + k) c e := by
  rw [Counted, h2, h1, satAdd_satAdd]

/-- Words of a row read in turn. -/
def Dev.readWords (d : Dev) (w src : Nat) (l : List Nat) : Dev × List (Nat × RowWord) :=
  l.foldl (fun (s : Dev × List (Nat × RowWord)) i =>
    ((s.1.readOver (w + i) (s.1.physWord (w + i)) src 0).1, s.2 ++ [(s.1.readOver (w + i) (s.1.physWord (w + i)) src 0).2])) (d, [])

theorem readRow_words (d : Dev) (w src : Nat) : d.readRow w src [] = d.readWords w src (List.range 8) := rfl

theorem readWords_append (d : Dev) (w src : Nat) (l : List Nat) (i : Nat) :
    d.readWords w src (l ++ [i]) =
      (((d.readWords w src l).1.readOver (w + i) ((d.readWords w src l).1.physWord (w + i)) src 0).1,
        (d.readWords w src l).2 ++ [((d.readWords w src l).1.readOver (w + i) ((d.readWords w src l).1.physWord (w + i)) src 0).2]) := by
  unfold Dev.readWords
  rw [List.foldl_append]
  rfl

/-- How many of the words listed have a status. -/
def Dev.statusCount (d : Dev) (w st : Nat) (l : List Nat) : Nat := (l.filter fun i => d.wordCheck (d.physWord (w + i)) == st).length

theorem statusCount_append (d : Dev) (w st : Nat) (l : List Nat) (i : Nat) :
    d.statusCount w st (l ++ [i]) = d.statusCount w st l + d.isStatus st (d.physWord (w + i)) := by
  unfold Dev.statusCount Dev.isStatus
  rw [List.filter_append, List.length_append, List.filter_singleton]
  congr 1
  by_cases h : d.wordCheck (d.physWord (w + i)) = st
  · rw [if_pos h, h, beq_self_eq_true]
    rfl
  · rw [if_neg h, beq_false_of_ne h]
    rfl

/-- Words of one column read in turn: what they answer, what they leave, and how they count. -/
theorem readWords_read (d : Dev) {c w : Nat} (src k : Nat) (hw : ∀ i < k, wordColumn (w + i) = c) :
    (d.readWords w src (List.range k)).2 =
      ((List.range k).map fun i => (d.wordCheck (d.physWord (w + i)), d.wordRead (d.physWord (w + i)))) ∧
    RowNoted c d (d.readWords w src (List.range k)).1 ∧
    Counted (columnBase 1 c) Reg.MEM_SEC_COUNT.COUNT (d.statusCount w memCorrected (List.range k)) d (d.readWords w src (List.range k)).1 ∧
    Counted (columnBase 1 c) Reg.MEM_DED_COUNT.COUNT (d.statusCount w memUncorr (List.range k)) d (d.readWords w src (List.range k)).1 := by
  induction k with
  | zero => exact ⟨rfl, .refl c d, (satAdd_fld_zero d _ _).symm, (satAdd_fld_zero d _ _).symm⟩
  | succ k ih =>
    obtain ⟨hWords, hNoted, hSec, hDed⟩ := ih fun i hi => hw i (Nat.lt_succ_of_lt hi)
    rw [List.range_succ, readWords_append, statusCount_append, statusCount_append]
    generalize d.readWords w src (List.range k) = r at hWords hNoted hSec hDed ⊢
    obtain ⟨hStep, hStepSec, hStepDed⟩ := readOver_noted r.1 (hw k (Nat.lt_succ_self k)) (r.1.physWord (w + k)) src
    have hStatus (st : Nat) : r.1.isStatus st (r.1.physWord (w + k)) = d.isStatus st (d.physWord (w + k)) := by
      rw [Dev.isStatus, hNoted.physWord, hNoted.wordCheck, Dev.isStatus]
    rw [hStatus] at hStepSec hStepDed
    refine ⟨?_, hNoted.trans hStep, hSec.trans hStepSec, hDed.trans hStepDed⟩
    rw [hWords, readOver_word, hNoted.physWord, hNoted.wordCheck, hNoted.wordRead, List.map_append]
    rfl

/-- The status of a row read. -/
def Dev.rowStatusOf (d : Dev) (w : Nat) : Nat :=
  if d.statusCount w memUncorr (List.range 8) ≠ 0 then memUncorr
  else if d.statusCount w memCorrected (List.range 8) ≠ 0 then memCorrected else memOk

theorem any_status (d : Dev) (w st : Nat) (l : List Nat) :
    ((l.map fun i => (d.wordCheck (d.physWord (w + i)), d.wordRead (d.physWord (w + i)))).any fun x => x.1 == st) = true ↔
      d.statusCount w st l ≠ 0 := by
  unfold Dev.statusCount
  rw [List.any_map, Ne, List.length_eq_zero_iff, List.filter_eq_nil_iff]
  simp

theorem rowStatus_read (d : Dev) (w : Nat) :
    rowStatus ((List.range 8).map fun i => (d.wordCheck (d.physWord (w + i)), d.wordRead (d.physWord (w + i)))) = d.rowStatusOf w := by
  unfold rowStatus Dev.rowStatusOf
  simp only [any_status]

end Sys2Proof.Machine

/-! # Row ports: writes, tallies and their answers (R233 to R242) -/

namespace Sys2Proof.Machine

set_option Elab.async false

/-! ## The words of a row put together (R231) -/

/-- The digits of a number, put together again. -/
theorem foldr_digits (b k n : Nat) : ((List.range k).map fun i => n / b ^ i % b).foldr (fun x a => x + b * a) 0 = n % b ^ k := by
  induction k generalizing n with
  | zero => rw [Nat.pow_zero, Nat.mod_one]; rfl
  | succ k ih =>
    have hTail : ((List.range k).map fun i => n / b ^ (i + 1) % b) = (List.range k).map fun i => n / b / b ^ i % b :=
      List.map_congr_left fun i _ => by rw [Nat.pow_succ', Nat.div_div_eq_div_mul]
    rw [List.range_succ_eq_map, List.map_cons, List.map_map, List.foldr_cons]
    show n / b ^ 0 % b + b * ((List.range k).map fun i => n / b ^ (i + 1) % b).foldr (fun x a => x + b * a) 0 = _
    rw [hTail, ih, Nat.pow_zero, Nat.div_one, Nat.pow_succ', Nat.mod_mul]

theorem rowOf_rowWordOf (r : Row) : rowOf ((List.range 8).map (rowWordOf r)) = r := by
  have hDigit (i : Nat) : (rowWordOf r i).toNat = r.toNat / (2 ^ 256) ^ i % 2 ^ 256 := by
    unfold rowWordOf
    rw [BitVec.extractLsb'_toNat, Nat.shiftRight_eq_div_pow, Nat.pow_mul]
  have hSum : ((List.range 8).map (rowWordOf r)).foldr (fun w n => w.toNat + 2 ^ 256 * n) 0 = r.toNat % (2 ^ 256) ^ 8 := by
    rw [← foldr_digits (2 ^ 256) 8 r.toNat, List.foldr_map, List.foldr_map]
    simp only [hDigit]
  unfold rowOf
  rw [hSum, ← Nat.pow_mul]
  exact BitVec.eq_of_toNat_eq (by rw [BitVec.toNat_ofNat, Nat.mod_mod, Nat.mod_eq_of_lt r.isLt])

/-! ## The tally's residues (R241, R242) -/

theorem tallyPredict_residue {width x y : Nat} (sat : Bool) : tallyPredict width sat x y = tallyAdd width sat x y % 7 := by
  unfold tallyPredict tallyAdd
  generalize 2 ^ width = m
  split
  · omega
  · split
    · rfl
    · omega

/-- An adder that makes no error agrees with its predictions. -/
theorem tallyAgrees_sums (wide sat : Bool) (old vec : Nat) : tallyAgrees wide sat old vec (tallySums wide sat old vec []) = true := by
  unfold tallyAgrees
  rw [List.all_eq_true]
  intro i hi
  have hSum : (tallySums wide sat old vec []).getD i 0 =
      tallyAdd (tallyWidth wide) sat (bitsOf old (tallyWidth wide * i) (tallyWidth wide)) (bitsOf vec (tallyWidth wide * i) (tallyWidth wide)) := by
    unfold tallySums
    rw [List.getD_eq_getElem?_getD, List.getElem?_map, List.getElem?_range (List.mem_range.mp hi)]
    rfl
  rw [hSum, beq_iff_eq]
  exact tallyPredict_residue sat

/-! ## Words of a row written (R235) -/

/-- Words of a row stored in turn. -/
def Dev.putWords (d : Dev) (w : Nat) (g : Nat → RowWord) (l : List Nat) : Dev := d.each l fun d i => d.putWord (d.physWord (w + i)) (g i)

/-- What the storing of words at places leaves. -/
structure RowPut (d e : Dev) (at_ : Nat → Nat) (g : Nat → RowWord) (l : List Nat) : Prop where
  wrote : MemWrote d e
  turn : e.mem.turn = d.mem.turn
  stored : ∀ i ∈ l, e.wordData (at_ i) = g i ∧ e.wordCheck (at_ i) = memOk
  others : ∀ p, (∀ i ∈ l, p ≠ at_ i) → e.wordData p = d.wordData p

/-- Words stored at distinct places hold what was stored. -/
theorem putWords_put (d : Dev) (w : Nat) (g : Nat → RowWord) (l : List Nat) (hNodup : l.Nodup)
    (hApart : ∀ i ∈ l, ∀ j ∈ l, d.physWord (w + i) = d.physWord (w + j) → i = j) :
    RowPut d (d.putWords w g l) (fun i => d.physWord (w + i)) g l := by
  induction l generalizing d with
  | nil => exact ⟨.refl d, rfl, fun _ h => absurd h List.not_mem_nil, fun _ _ => rfl⟩
  | cons i l ih =>
    obtain ⟨hNot, hRest⟩ := List.nodup_cons.mp hNodup
    have hFirst := MemWrote.putWord d (d.physWord (w + i)) (g i)
    have hPlace (j : Nat) : (d.putWord (d.physWord (w + i)) (g i)).physWord (w + j) = d.physWord (w + j) := hFirst.physWord _
    obtain ⟨hWrote, hTurn, hStored, hOthers⟩ := ih (d.putWord (d.physWord (w + i)) (g i)) hRest fun x hx y hy h =>
      hApart x (List.mem_cons_of_mem _ hx) y (List.mem_cons_of_mem _ hy) (by rwa [hPlace, hPlace] at h)
    simp only [hPlace] at hStored hOthers
    show RowPut d ((d.putWord (d.physWord (w + i)) (g i)).putWords w g l) _ _ _
    refine ⟨hFirst.trans hWrote, hTurn, fun j hj => ?_, fun p hp => ?_⟩
    · obtain rfl | hj := List.mem_cons.mp hj
      · refine ⟨?_, hWrote.checks _ (putWord_wordCheck _ _)⟩
        rw [hOthers _ fun k hk h => hNot (hApart j List.mem_cons_self k (List.mem_cons_of_mem _ hk) h ▸ hk), wordData_putWord_same]
      · exact hStored j hj
    · rw [hOthers p fun j hj => hp j (List.mem_cons_of_mem _ hj), putWord_wordData (hp i List.mem_cons_self)]

theorem writeRow_words (d : Dev) (c : Nat) (upper : Bool) (w mask : Nat) (data : Row) :
    d.writeRow c upper w mask data [] = d.putWords w (rowWordOf data) ((List.range 8).filter fun i => bitOf mask i) := by
  have hOne (d : Dev) (i : Nat) : (if errStatus (viaBits [] i) = memCorrected
      then (d.writeOver (d.physWord (w + i)) (rowWordOf data i) (viaBits [] i)).countSec c
      else d.writeOver (d.physWord (w + i)) (rowWordOf data i) (viaBits [] i)) = d.putWord (d.physWord (w + i)) (rowWordOf data i) := by
    rw [viaBits_nil, errStatus_zero, if_neg (by decide)]
    unfold Dev.writeOver
    rw [errStatus_zero]
    exact if_neg (by decide)
  unfold Dev.writeRow Dev.putWords
  simp only [hOne]
  rfl

/-- The words of a row lie apart. -/
theorem rowWords_apart (d : Dev) (c : Fin 256) (bank : Fin 8) (row : Fin 2048) {i j : Nat} (hi : i < 8) (hj : j < 8)
    (h : d.physWord (wordIndex c bank row 0 + i) = d.physWord (wordIndex c bank row 0 + j)) : i = j := by
  have hBound : wordIndex c bank row 0 + 8 ≤ 2 ^ 25 := by
    have := c.isLt
    have := bank.isLt
    have := row.isLt
    unfold wordIndex
    omega
  have := physWord_inj (by omega) (by omega) h
  omega

theorem rowWords_column (c : Fin 256) (bank : Fin 8) (row : Fin 2048) {i : Nat} (hi : i < 8) :
    wordColumn (wordIndex c bank row 0 + i) = c := by
  have := bank.isLt
  have := row.isLt
  unfold wordColumn wordIndex
  omega

/-- A row written under a mask. -/
theorem writeRow_put (d : Dev) (c : Fin 256) (upper : Bool) (bank : Fin 8) (row : Fin 2048) (mask : Nat) (data : Row) :
    RowPut d (d.writeRow c upper (wordIndex c bank row 0) mask data []) (fun i => d.physWord (wordIndex c bank row 0 + i)) (rowWordOf data)
      ((List.range 8).filter fun i => bitOf mask i) := by
  rw [writeRow_words]
  refine putWords_put d _ _ _ (List.nodup_range.filter _) fun i hi j hj h => ?_
  exact rowWords_apart d c bank row (List.mem_range.mp (List.mem_filter.mp hi).1) (List.mem_range.mp (List.mem_filter.mp hj).1) h

/-! ## The machine that a request leaves -/

section
variable (d : Dev) (c bank : Nat) (upper : Bool) (x : BankCycle)

theorem rowAsked_parts : OnlyParts [.mem] d (d.rowAsked c bank upper x) := by
  unfold Dev.rowAsked Dev.withTurn
  simp

theorem rowAsked_quiet : (d.rowAsked c bank upper x).quiet = d.quiet := quiet_modMem ..

theorem rowAsked_wordData (p : Nat) : (d.rowAsked c bank upper x).wordData p = d.wordData p := rfl

theorem rowAsked_wordCheck (p : Nat) : (d.rowAsked c bank upper x).wordCheck p = d.wordCheck p := rfl

theorem rowAsked_wordRead (p : Nat) : (d.rowAsked c bank upper x).wordRead p = d.wordRead p := rfl

theorem rowAsked_physWord (w : Nat) : (d.rowAsked c bank upper x).physWord w = d.physWord w := rfl

/-- A row port's access has completed with a status and words, and the bank's turn is what the request left. -/
def RowAnswered (st : Nat) (ws : List RowWord) (e : Dev) : Prop :=
  e.mem.rowOut.look (2 * c + bit01 upper) = some { status := st, words := ws } ∧
    e.mem.turn.mem (c * 8 + bank) = d.turnLeft (c * 8 + bank) upper x (d.rowGranted c bank upper x)

theorem rowEnd_answered {e : Dev} (hTurn : e.mem.turn = (d.rowAsked c bank upper x).mem.turn) (st : Nat) (ws : List RowWord) :
    RowAnswered d c bank upper x st ws (e.rowEnd c upper st ws) := by
  refine ⟨SMap.look_put_same .., ?_⟩
  show e.mem.turn.mem _ = _
  rw [hTurn]
  exact rowAsked_turn d c bank upper x

end

theorem rowEnd_parts (d : Dev) (c : Nat) (upper : Bool) (st : Nat) (ws : List RowWord) : OnlyParts [.mem] d (d.rowEnd c upper st ws) := by
  unfold Dev.rowEnd
  simp

theorem rowEnd_quiet (d : Dev) (c : Nat) (upper : Bool) (st : Nat) (ws : List RowWord) : (d.rowEnd c upper st ws).quiet = d.quiet :=
  quiet_modMem ..

theorem rowEnd_wordData (d : Dev) (c : Nat) (upper : Bool) (st : Nat) (ws : List RowWord) (p : Nat) :
    (d.rowEnd c upper st ws).wordData p = d.wordData p := rfl

theorem rowEnd_wordCheck (d : Dev) (c : Nat) (upper : Bool) (st : Nat) (ws : List RowWord) (p : Nat) :
    (d.rowEnd c upper st ws).wordCheck p = d.wordCheck p := rfl

/-! ## Reads (R235, R239) -/

section
variable {s : State} {c : Fin 256} {upper : Bool} {bank : Fin 8} {row : Fin 2048} {x : BankCycle} (hq : s.dev.quiet = true)

/-- What memory holds is as it was. -/
def MemKept (d e : Dev) : Prop := e.mem.bytes = d.mem.bytes ∧ e.mem.err = d.mem.err

include hq

theorem rowRead_dead (hLive : s.dev.portLive [c.val * 2 + bit01 upper] portRow = false) :
    Completes (.rowRead c upper bank row false { cycle := x }) s fun e => e = s.dev := by
  have hOp : opRowRead c upper bank row false { cycle := x } s.dev = s.dev := rowAccess_dead false hLive
  exact completes_quiet (f := opRowRead c upper bank row false { cycle := x }) rfl (by rw [hOp]; exact hq) hOp

variable (hLive : s.dev.portLive [c.val * 2 + bit01 upper] portRow = true)
include hLive

theorem rowRead_waits (hGo : s.dev.rowGranted c bank upper x = false) :
    Completes (.rowRead c upper bank row false { cycle := x }) s fun e =>
      MemKept s.dev e ∧ e.mem.turn.mem (c * 8 + bank) = s.dev.turnLeft (c * 8 + bank) upper x (s.dev.rowGranted c bank upper x) ∧
      e.mem.rowOut = s.dev.mem.rowOut ∧ OnlyParts [.mem] s.dev e := by
  have hOp : opRowRead c upper bank row false { cycle := x } s.dev = s.dev.rowAsked c bank upper x :=
    rowAccess_waits false bank.isLt hLive hGo
  refine completes_quiet (f := opRowRead c upper bank row false { cycle := x }) rfl (by rw [hOp, rowAsked_quiet]; exact hq) ?_
  rw [hOp]
  exact ⟨⟨rfl, rfl⟩, rowAsked_turn .., rfl, rowAsked_parts _ _ _ _ _⟩

variable (hGo : s.dev.rowGranted c bank upper x = true)
include hGo

theorem rowRead_refused {reserved : Bool} (hBar : s.dev.rowBar c bank (wordIndex c bank row 0) reserved {} = some memRefused) :
    Completes (.rowRead c upper bank row reserved { cycle := x }) s fun e =>
      RowAnswered s.dev c bank upper x memRefused [] e ∧ MemKept s.dev e ∧ OnlyParts [.mem] s.dev e := by
  have hOp : opRowRead c upper bank row reserved { cycle := x } s.dev = (s.dev.rowAsked c bank upper x).rowEnd c upper memRefused [] :=
    rowAccess_barred reserved bank.isLt hLive hGo hBar
  refine completes_quiet (f := opRowRead c upper bank row reserved { cycle := x }) rfl
    (by rw [hOp, rowEnd_quiet, rowAsked_quiet]; exact hq) ?_
  rw [hOp]
  exact ⟨rowEnd_answered _ _ _ _ _ rfl _ _, ⟨rfl, rfl⟩, (rowAsked_parts _ _ _ _ _).trans (rowEnd_parts _ _ _ _ _)⟩

variable (hBar : s.dev.rowBar c bank (wordIndex c bank row 0) false {} = none)
include hBar

theorem rowRead_reads :
    Completes (.rowRead c upper bank row false { cycle := x }) s fun e =>
      RowAnswered s.dev c bank upper x (s.dev.rowStatusOf (wordIndex c bank row 0))
        ((List.range 8).map fun i => s.dev.wordRead (s.dev.physWord (wordIndex c bank row 0 + i))) e ∧
      Counted (columnBase 1 c) Reg.MEM_SEC_COUNT.COUNT (s.dev.statusCount (wordIndex c bank row 0) memCorrected (List.range 8)) s.dev e ∧
      Counted (columnBase 1 c) Reg.MEM_DED_COUNT.COUNT (s.dev.statusCount (wordIndex c bank row 0) memUncorr (List.range 8)) s.dev e ∧
      MemKept s.dev e ∧ OnlyParts [.regs, .mem] s.dev e ∧ OnlyWindow (columnBase 1 c) s.dev e := by
  obtain ⟨hWords, hNoted, hSec, hDed⟩ := readWords_read (s.dev.rowAsked c bank upper x) (c := c) (w := wordIndex c bank row 0)
    (if upper then srcUpper else srcLower) 8 fun i hi => rowWords_column c bank row hi
  rw [← readRow_words] at hWords hNoted hSec hDed
  have hOp : opRowRead c upper bank row false { cycle := x } s.dev =
      ((s.dev.rowAsked c bank upper x).readRow (wordIndex c bank row 0) (if upper then srcUpper else srcLower) []).1.rowEnd c upper
        (s.dev.rowStatusOf (wordIndex c bank row 0))
        ((List.range 8).map fun i => s.dev.wordRead (s.dev.physWord (wordIndex c bank row 0 + i))) := by
    refine rowAccess_open false bank.isLt hLive hGo hBar ?_
    dsimp only
    rw [hWords, rowStatus_read, List.map_map]
    rfl
  refine completes_quiet (f := opRowRead c upper bank row false { cycle := x }) rfl ?_ ?_
  · rw [hOp, rowEnd_quiet, hNoted.quiet, rowAsked_quiet]
    exact hq
  · rw [hOp]
    generalize ((s.dev.rowAsked c bank upper x).readRow (wordIndex c bank row 0) (if upper then srcUpper else srcLower) []).1 = e
      at hNoted hSec hDed ⊢
    refine ⟨rowEnd_answered _ _ _ _ _ hNoted.turn _ _, hSec, hDed, ⟨hNoted.bytes, hNoted.err⟩, ?_, hNoted.window⟩
    exact (((rowAsked_parts _ _ _ _ _).mono (by simp)).trans hNoted.parts).trans ((rowEnd_parts _ _ _ _ _).mono (by simp))

/-! ## Writes (R235) -/

/-- A row whose words under a mask are stored, and no other word. -/
def RowStored (d : Dev) (w mask : Nat) (data : Row) (e : Dev) : Prop :=
  (∀ i < 8, bitOf mask i = true → e.wordData (d.physWord (w + i)) = rowWordOf data i ∧ e.wordCheck (d.physWord (w + i)) = memOk) ∧
  ∀ p, (∀ i < 8, bitOf mask i = true → p ≠ d.physWord (w + i)) → e.wordData p = d.wordData p

omit hq hLive hGo hBar in
/-- A row written after a request, and the access completed. -/
theorem rowEnd_stored (d : Dev) (mask : Nat) (data : Row) (st : Nat) :
    RowStored d (wordIndex c bank row 0) mask data
      (((d.rowAsked c bank upper x).writeRow c upper (wordIndex c bank row 0) mask data []).rowEnd c upper st []) := by
  obtain ⟨-, -, hStored, hOthers⟩ := writeRow_put (d.rowAsked c bank upper x) c upper bank row mask data
  refine ⟨fun i hi hBit => hStored i (List.mem_filter.mpr ⟨List.mem_range.mpr hi, hBit⟩), fun p hp => hOthers p fun i hi => ?_⟩
  obtain ⟨hRange, hBit⟩ := List.mem_filter.mp hi
  exact hp i (List.mem_range.mp hRange) hBit

omit hq hLive hGo hBar in
theorem rowEnd_wrote (d : Dev) (mask : Nat) (data : Row) (st : Nat) :
    RowAnswered d c bank upper x st []
      (((d.rowAsked c bank upper x).writeRow c upper (wordIndex c bank row 0) mask data []).rowEnd c upper st []) ∧
    OnlyParts [.mem] d (((d.rowAsked c bank upper x).writeRow c upper (wordIndex c bank row 0) mask data []).rowEnd c upper st []) := by
  obtain ⟨hWrote, hTurn, -, -⟩ := writeRow_put (d.rowAsked c bank upper x) c upper bank row mask data
  exact ⟨rowEnd_answered _ _ _ _ _ hTurn _ _, ((rowAsked_parts _ _ _ _ _).trans hWrote.parts).trans (rowEnd_parts _ _ _ _ _)⟩

omit hLive hGo hBar in
theorem rowEnd_wrote_quiet (mask : Nat) (data : Row) (st : Nat) :
    ((((s.dev.rowAsked c bank upper x).writeRow c upper (wordIndex c bank row 0) mask data []).rowEnd c upper st [])).quiet = true := by
  have hWrote := (writeRow_put (s.dev.rowAsked c bank upper x) c upper bank row mask data).wrote
  rw [rowEnd_quiet, hWrote.parts.quiet_eq (by simp) (by simp) (by simp) (by simp), rowAsked_quiet]
  exact hq

theorem rowWrite_writes (mask : BitVec 8) (data : Row) :
    Completes (.rowWrite c upper bank row mask data { cycle := x }) s fun e =>
      RowAnswered s.dev c bank upper x memOk [] e ∧ RowStored s.dev (wordIndex c bank row 0) mask.toNat data e ∧ OnlyParts [.mem] s.dev e := by
  have hOp : opRowWrite c upper bank row mask data { cycle := x } s.dev =
      ((s.dev.rowAsked c bank upper x).writeRow c upper (wordIndex c bank row 0) mask.toNat data []).rowEnd c upper memOk [] :=
    rowAccess_open false bank.isLt hLive hGo hBar rfl
  obtain ⟨hAnswered, hParts⟩ := rowEnd_wrote (c := c) (upper := upper) (bank := bank) (row := row) (x := x) s.dev mask.toNat data memOk
  refine completes_quiet (f := opRowWrite c upper bank row mask data { cycle := x }) rfl (by rw [hOp]; exact rowEnd_wrote_quiet hq ..) ?_
  rw [hOp]
  exact ⟨hAnswered, rowEnd_stored .., hParts⟩

end

end Sys2Proof.Machine

/-! # Row tallies (R241, R242) -/

namespace Sys2Proof.Machine

set_option Elab.async false

/-- A row of good words is read as it is, and nothing is recorded. -/
theorem readWords_good {d : Dev} {w : Nat} (src k : Nat) (hGood : ∀ i < k, d.wordCheck (d.physWord (w + i)) = memOk) :
    d.readWords w src (List.range k) = (d, (List.range k).map fun i => (memOk, d.wordData (d.physWord (w + i)))) := by
  induction k with
  | zero => rfl
  | succ k ih =>
    rw [List.range_succ, readWords_append, ih fun i hi => hGood i (Nat.lt_succ_of_lt hi), readOver_good (hGood k (Nat.lt_succ_self k)),
      List.map_append]
    rfl

/-- A vector that no via changes arrives as it was sent. -/
theorem arrives_nil (vec : Row) : arrives vec [] = vec := by
  have hWord (i : Nat) : (if errStatus (viaBits [] i) = memUncorr then rowWordOf vec i ^^^ (viaBits [] i).truncate 256 else rowWordOf vec i) =
      rowWordOf vec i := by
    rw [viaBits_nil, errStatus_zero]
    exact if_neg (by decide)
  unfold arrives
  simp only [hWord]
  exact rowOf_rowWordOf vec

/-- The counters that a row holds. -/
def Dev.rowCounters (d : Dev) (w : Nat) : Nat := (rowOf ((List.range 8).map fun i => d.wordData (d.physWord (w + i)))).toNat

section
variable {s : State} {c : Fin 256} {upper : Bool} {bank : Fin 8} {row : Fin 2048} {x : BankCycle} (hq : s.dev.quiet = true)
  (hLive : s.dev.portLive [c.val * 2 + bit01 upper] portRow = true) (hGo : s.dev.rowGranted c bank upper x = true)
  (hBar : s.dev.rowBar c bank (wordIndex c bank row 0) false {} = none)
  (hGood : ∀ i < 8, s.dev.wordCheck (s.dev.physWord (wordIndex c bank row 0 + i)) = memOk)
  (wide sat : Bool) (vec : Row) (slips : List (Nat × Nat))
include hLive hGo hBar hGood

/-- A tally of good words, by the counters that the adder leaves. -/
theorem opRowTally_good :
    opRowTally c upper bank row wide sat vec slips { cycle := x } s.dev =
      if tallyAgrees wide sat (s.dev.rowCounters (wordIndex c bank row 0)) vec.toNat
          (tallySums wide sat (s.dev.rowCounters (wordIndex c bank row 0)) vec.toNat slips) = true
      then (((s.dev.rowAsked c bank upper x).writeRow c upper (wordIndex c bank row 0) 0xFF
        (tallyRow wide (tallySums wide sat (s.dev.rowCounters (wordIndex c bank row 0)) vec.toNat slips)) []).rowEnd c upper memOk [])
      else ((((s.dev.rowAsked c bank upper x).count (columnBase 1 c) Reg.RT_RES_COUNT.COUNT).raise (columnBase 1 c)
        Reg.MEM_EVENT.RT_RES_ERR).rowEnd c upper memResErr []) := by
  have hRead : (s.dev.rowAsked c bank upper x).readRow (wordIndex c bank row 0) (if upper then srcUpper else srcLower) [] =
      (s.dev.rowAsked c bank upper x,
        (List.range 8).map fun i => (memOk, s.dev.wordData (s.dev.physWord (wordIndex c bank row 0 + i)))) :=
    (readRow_words _ _ _).trans (readWords_good _ 8 hGood)
  have hNone : ((List.range 8).filter fun i => errStatus (viaBits [] i) == memCorrected) = [] := by
    simp only [viaBits_nil, errStatus_zero]
    rfl
  have hOld : (rowOf (((List.range 8).map fun i => (memOk, s.dev.wordData (s.dev.physWord (wordIndex c bank row 0 + i)))).map (·.2))).toNat =
      s.dev.rowCounters (wordIndex c bank row 0) := by
    rw [List.map_map]
    rfl
  by_cases hAgrees : tallyAgrees wide sat (s.dev.rowCounters (wordIndex c bank row 0)) vec.toNat
      (tallySums wide sat (s.dev.rowCounters (wordIndex c bank row 0)) vec.toNat slips) = true
  · rw [if_pos hAgrees]
    refine rowAccess_open false bank.isLt hLive hGo hBar ?_
    dsimp only
    rw [arrives_nil, hRead]
    dsimp only
    rw [hNone, hOld, hAgrees]
    rfl
  · rw [if_neg hAgrees]
    refine rowAccess_open false bank.isLt hLive hGo hBar ?_
    dsimp only
    rw [arrives_nil, hRead]
    dsimp only
    rw [hNone, hOld, eq_false_of_ne_true hAgrees]
    rfl

include hq

theorem rowTally_adds :
    Completes (.rowTally c upper bank row wide sat vec [] { cycle := x }) s fun e =>
      RowAnswered s.dev c bank upper x memOk [] e ∧
      RowStored s.dev (wordIndex c bank row 0) 0xFF
        (tallyRow wide (tallySums wide sat (s.dev.rowCounters (wordIndex c bank row 0)) vec.toNat [])) e ∧
      OnlyParts [.mem] s.dev e := by
  have hOp := opRowTally_good hLive hGo hBar hGood wide sat vec []
  rw [if_pos (tallyAgrees_sums ..)] at hOp
  obtain ⟨hAnswered, hParts⟩ := rowEnd_wrote (c := c) (upper := upper) (bank := bank) (row := row) (x := x) s.dev 0xFF
    (tallyRow wide (tallySums wide sat (s.dev.rowCounters (wordIndex c bank row 0)) vec.toNat [])) memOk
  refine completes_quiet (f := opRowTally c upper bank row wide sat vec [] { cycle := x }) rfl
    (by rw [hOp]; exact rowEnd_wrote_quiet hq ..) ?_
  rw [hOp]
  exact ⟨hAnswered, rowEnd_stored .., hParts⟩

theorem rowTally_disagrees
    (hWrong : tallyAgrees wide sat (s.dev.rowCounters (wordIndex c bank row 0)) vec.toNat
      (tallySums wide sat (s.dev.rowCounters (wordIndex c bank row 0)) vec.toNat slips) = false) :
    Completes (.rowTally c upper bank row wide sat vec slips { cycle := x }) s fun e =>
      RowAnswered s.dev c bank upper x memResErr [] e ∧ Counted (columnBase 1 c) Reg.RT_RES_COUNT.COUNT 1 s.dev e ∧
      e.fld (columnBase 1 c) Reg.MEM_EVENT.RT_RES_ERR = 1 ∧ MemKept s.dev e ∧ OnlyParts [.regs, .mem] s.dev e ∧
      OnlyRegs [columnBase 1 c + Reg.RT_RES_COUNT.COUNT.off, columnBase 1 c + Reg.MEM_EVENT.RT_RES_ERR.off] s.dev e := by
  have hOp := opRowTally_good hLive hGo hBar hGood wide sat vec slips
  rw [if_neg (by rw [hWrong]; decide)] at hOp
  have hNoted : RowNoted c (s.dev.rowAsked c bank upper x) (((s.dev.rowAsked c bank upper x).count (columnBase 1 c)
      Reg.RT_RES_COUNT.COUNT).raise (columnBase 1 c) Reg.MEM_EVENT.RT_RES_ERR) :=
    (RowNoted.setFld _ (by decide) _).trans (.setFld _ (by decide) 1)
  have hAskedRegs : OnlyRegs [] s.dev (s.dev.rowAsked c bank upper x) := fun a _ => (rowAsked_parts _ _ _ _ _).reg_eq (by simp) a
  have hAskedFld (f : Fld) : (s.dev.rowAsked c bank upper x).fld (columnBase 1 c) f = s.dev.fld (columnBase 1 c) f :=
    (rowAsked_parts _ _ _ _ _).fld_eq (by simp) _ f
  refine completes_quiet (f := opRowTally c upper bank row wide sat vec slips { cycle := x }) rfl ?_ ?_
  · rw [hOp, rowEnd_quiet, hNoted.quiet, rowAsked_quiet]
    exact hq
  · rw [hOp]
    refine ⟨rowEnd_answered _ _ _ _ _ hNoted.turn _ _, ?_, ?_, ⟨hNoted.bytes, hNoted.err⟩, ?_, ?_⟩
    · show Dev.fld _ _ _ = _
      rw [Dev.rowEnd, fld_modMem, Dev.raise, fld_setFld_off (o := Reg.MEM_EVENT.off) (by decide) rfl, Dev.count,
        fld_countBy_same (by decide), hAskedFld]
    · rw [Dev.rowEnd, fld_modMem, fld_raise_same (by decide) (by decide)]
    · exact (((rowAsked_parts _ _ _ _ _).mono (by simp)).trans hNoted.parts).trans ((rowEnd_parts _ _ _ _ _).mono (by simp))
    · exact (hAskedRegs.mono (by simp)).trans (by simp [Dev.rowEnd])

end

theorem byte_bits : ∀ i : Fin 8, bitOf 0xFF i = true := by decide

/-- Settles O32: a row port's request is followed from the bank's arbiter to its answer; reads and writes by induction on the words of the
row, and a tally by the residues of its counters. -/
theorem rowPortsReadWriteAndTally : Obligations.RowPortsReadWriteAndTally := by
  intro s c upper bank row x hq
  have hGoEq : (s.dev.asks c bank (if upper = true then Asker.upper else Asker.lower) x).2 = s.dev.rowGranted c bank upper x :=
    congrArg Prod.snd (asks_row s.dev c bank.isLt upper x)
  dsimp only
  rw [hGoEq]
  refine ⟨fun hBusy hTwin => ?_, fun hLive => rowRead_dead hq hLive, fun hLive hGo => rowRead_waits hq hLive hGo,
    fun hLive hGo hBar => rowRead_refused hq hLive hGo hBar, fun hLive hGo => ?_, fun hLive hGo hBar => ⟨?_, fun mask data => ?_, ?_⟩⟩
  · have hShared : (bank.val == 7 && s.dev.mem.twin.mem c) = false := by
      by_cases hSeven : bank.val = 7
      · rw [hTwin hSeven, Bool.and_false]
      · rw [beq_false_of_ne hSeven, Bool.false_and]
    rw [rowGranted_eq upper bank.isLt hBusy hShared]
    refine ⟨fun hBase hHold => ?_, fun hHold => ?_, fun a hBase hBank hPromoted => ?_⟩
    · have hAbove : s.dev.baseAbove c bank x = false := by rw [Dev.baseAbove, hBase]; rfl
      rw [hHold, hAbove]
      rfl
    · rw [hHold]
      rfl
    · have hAbove : s.dev.baseAbove c bank x = true := by
        have hPick : (basePick [a]).filter (fun b => b.bank == bank.val) = some a := by
          show Option.filter _ (some a) = _
          rw [Option.filter_some, hBank, beq_self_eq_true, if_pos rfl]
        rw [Dev.baseAbove, hBase, hPick]
        exact hPromoted
      rw [hAbove, Bool.or_true]
      rfl
  · have hReserved : s.dev.rowBar c bank (wordIndex c bank row 0) true {} = some memRefused := by
      rw [Dev.rowBar, Bool.or_true]
      exact if_pos rfl
    exact rowRead_refused hq hLive hGo hReserved
  · exact rowRead_reads hq hLive hGo hBar
  · exact (rowWrite_writes hq hLive hGo hBar mask data).imp fun e ⟨hAnswer, ⟨hStored, hOthers⟩, hParts⟩ => ⟨hAnswer, hStored, hOthers, hParts⟩
  · refine fun wide sat vec slips hGood => ⟨?_, fun hWrong => rowTally_disagrees hq hLive hGo hBar hGood wide sat vec slips hWrong⟩
    rintro rfl
    refine (rowTally_adds hq hLive hGo hBar hGood wide sat vec).imp fun e ⟨hAnswer, ⟨hStored, hOthers⟩, hParts⟩ =>
      ⟨hAnswer, fun i hi => (hStored i hi (byte_bits ⟨i, hi⟩)).1, hOthers, hParts⟩

end Sys2Proof.Machine

/-! # Records that are stored as they arrive, and one that fails (R345 to R349, R356, R362, R363) -/

namespace Sys2Proof.Machine

set_option Elab.async false

/-! ## What a record that is taken leaves -/

section
variable {s : State} {flash : List Word} {img : Image} {r : List Word}

/-- A record that passes its checks completes with what its kind makes of it, in a machine that stays quiet. -/
theorem completes_stored (hq : s.dev.quiet = true) (hNext : s.dev.nextRecord flash = some (img, r)) {c : Instr} {op : List Word → Dev → Dev}
    (he : exec c s = onDev (op flash) s) {kind place need : Nat} {check : List Word → Nat} {placeOf : RecHead → Image → Nat}
    {checkOf : RecHead → List Word → Image → Nat} {take : RecHead → List Word → Image → Dev → Dev} {P : Dev → Prop}
    (hOp : op flash s.dev = s.dev.onRecord flash kind placeOf need checkOf take) (hKind : (recordHead r).kind = kind)
    (hGood : s.dev.recordCause img r place need check = 0) (hPlace : placeOf (recordHead r) img = place)
    (hCheck : (fun p => checkOf (recordHead r) p img) = check)
    (hTake : (take (recordHead r) ((s.dev.payload img r).getD []) img (s.dev.recordSeen r)).quiet = s.dev.quiet ∧
      P (take (recordHead r) ((s.dev.payload img r).getD []) img (s.dev.recordSeen r))) : Completes c s P := by
  subst hPlace hCheck
  refine completes_quiet he ?_ ?_ <;> rw [hOp, onRecord_good hNext hKind hGood]
  · rw [hTake.1, hq]
  · exact hTake.2

end

/-! ## INIT values -/

/-- The values of lines set in turn. -/
def setLines (l : List (Nat × Word)) (m : SMap Nat) : SMap Nat := l.foldl (fun m x => m.setNum x.1 x.2.toNat) m

theorem num_setLines_other {l : List (Nat × Word)} {k : Nat} (hk : k ∉ l.map (·.1)) (m : SMap Nat) : (setLines l m).num k = m.num k := by
  induction l generalizing m with
  | nil => rfl
  | cons x xs ih =>
    simp only [List.map_cons, List.mem_cons, not_or] at hk
    exact (ih hk.2 _).trans (by rw [SMap.num_setNum, if_neg hk.1])

theorem num_setLines_mem {l : List (Nat × Word)} (hNodup : (l.map (·.1)).Nodup) {x : Nat × Word} (hx : x ∈ l) (m : SMap Nat) :
    (setLines l m).num x.1 = x.2.toNat := by
  induction l generalizing m with
  | nil => cases hx
  | cons y ys ih =>
    obtain ⟨hNot, hRest⟩ := List.nodup_cons.mp hNodup
    obtain rfl | hx := List.mem_cons.mp hx
    · exact (num_setLines_other hNot _).trans (by rw [SMap.num_setNum, if_pos rfl])
    · exact ih hRest hx _

/-- The lines of an entry with the words that it gives them. -/
def entryValues (e : InitEntry) : List (Nat × Word) := (entryLines e).zip e.words

theorem entryValues_lines (e : InitEntry) : (entryValues e).map (·.1) = entryLines e :=
  List.map_fst_zip (by simp [entryLines])

theorem entryLines_nodup (e : InitEntry) : (entryLines e).Nodup := by
  refine List.Nodup.map (fun i j h => ?_) List.nodup_range
  simp only [lineKey] at h
  omega

theorem entryValues_mem (e : InitEntry) {i : Nat} (hi : i < e.words.length) :
    (lineKey (e.column * 2 + e.die) (e.first + i), e.words.getD i 0) ∈ entryValues e := by
  have hLen : i < (entryValues e).length := by simp [entryValues, entryLines, hi]
  have hGet : (entryValues e)[i] = (lineKey (e.column * 2 + e.die) (e.first + i), e.words.getD i 0) := by
    simp [entryValues, entryLines, hi]
  exact hGet ▸ List.getElem_mem hLen

/-- What the loader keeps of a record whose contents are stored at once. -/
def RecordCounted (d : Dev) (r : List Word) (e : Dev) : Prop :=
  e.load.index = d.load.index + 1 ∧ e.load.body = d.load.body ++ r ∧ e.load.openUnits = d.load.openUnits

theorem recordCounted_of_load {d e : Dev} {r : List Word} {img : Image}
    (h : e.load = { d.load.seen d.streaming r with image := some img }) : RecordCounted d r e := by
  unfold RecordCounted
  rw [h]
  exact ⟨rfl, rfl, rfl⟩

theorem recordSeen_setImage (d : Dev) (r : List Word) (img : Image) :
    ((d.recordSeen r).setImage img).load = { d.load.seen d.streaming r with image := some img } := by
  rw [Dev.setImage, modLoad_load, (recordSeen_leaves d r).1]

theorem recordSeen_mode (d : Dev) (r : List Word) : (d.recordSeen r).load.mode = d.load.mode := by
  rw [(recordSeen_leaves d r).1]
  rfl

/-- What a record of INIT values adds to the image. -/
def initImage (own : Nat) (h : RecHead) (entries : List InitEntry) (img : Image) : Image :=
  { img with initUsed := img.initUsed ++ (entries.flatMap entryLines).map fun l => (own, l)
             formeInit := img.formeInit ++ if own = formeBase then entries.map fun e => (h.index, e.die, e.column) else [] }

/-- The INIT store with the values of the entries. -/
def Dev.initFilled (d : Dev) (entries : List InitEntry) : Dev :=
  d.modFabric fun f => { f with initStore := entries.foldl (fun m e => setLines (entryValues e) m) f.initStore }

theorem opInitValues_eq (flash : List Word) (d : Dev) :
    opInitValues flash d = d.onRecord flash 0x11 (fun h _ => firstCause [(d.outside, ldPlacement), (h.unit != 0, ldUnit)]) 0 d.initCause
      fun h p img d => (d.setImage (initImage (d.load.openUnits.headD 0) h ((initOf p).getD []) img)).unlessAgain fun d =>
        d.initFilled ((initOf p).getD []) := rfl

section
variable {s : State} {flash : List Word} {img : Image} {r : List Word} (hq : s.dev.quiet = true)
  (hNext : s.dev.nextRecord flash = some (img, r)) (hOnce : s.dev.load.mode ≠ .reapply)
include hq hNext hOnce

theorem initValues_stored {init : InitEntry} (hOut : s.dev.outside = false) (hUnit : (recordHead r).unit = 0)
    (hKind : (recordHead r).kind = 0x11)
    (hGood : s.dev.recordCause img r 0 0 (fun p => s.dev.initCause (recordHead r) p img) = 0)
    (hInit : initOf ((s.dev.payload img r).getD []) = some [init]) :
    Completes (.initValues flash) s fun e =>
      (∀ i < init.words.length, e.fabric.initStore.num (lineKey (init.column * 2 + init.die) (init.first + i)) = (init.words.getD i 0).toNat) ∧
      (∀ k, k ∉ entryLines init → e.fabric.initStore.num k = s.dev.fabric.initStore.num k) ∧ RecordCounted s.dev r e ∧
      OnlyParts [.regs, .fabric, .load] s.dev e ∧ OnlyRegs [rootBase + Reg.LD_BYTES.BYTES.off] s.dev e := by
  obtain ⟨-, hParts, hRegs, hQuiet⟩ := recordSeen_leaves s.dev r
  have hPlace : firstCause [(s.dev.outside, ldPlacement), ((recordHead r).unit != 0, ldUnit)] = 0 := by
    rw [hOut, hUnit]
    rfl
  refine completes_stored (op := opInitValues) hq hNext rfl (opInitValues_eq flash s.dev) hKind hGood hPlace rfl ?_
  rw [hInit, Option.getD_some]
  generalize hSet : (s.dev.recordSeen r).setImage _ = x
  have hLoad : ∃ i, x.load = { s.dev.load.seen s.dev.streaming r with image := some i } := ⟨_, hSet ▸ recordSeen_setImage ..⟩
  obtain ⟨i, hLoad⟩ := hLoad
  have hx : OnlyParts [.regs, .fabric, .load] s.dev x := by
    have h : OnlyParts [.regs, .fabric, .load] s.dev (s.dev.recordSeen r) := hParts.mono (by decide)
    rw [← hSet]
    simpa [Dev.setImage] using h
  have hFabric : x.fabric = s.dev.fabric := by
    rw [← hSet, Dev.setImage, modLoad_fabric]
    exact hParts .fabric (by decide)
  have hxRegs : OnlyRegs [rootBase + Reg.LD_BYTES.BYTES.off] s.dev x := by
    rw [← hSet]
    simpa [Dev.setImage] using hRegs
  have hxQuiet : x.quiet = s.dev.quiet := by rw [← hSet, Dev.setImage, quiet_modLoad, hQuiet]
  have hMode : ¬x.load.mode = .reapply := by
    rw [hLoad]
    exact hOnce
  rw [Dev.unlessAgain, if_neg hMode]
  unfold Dev.initFilled
  refine ⟨by rw [quiet_modFabric, hxQuiet], fun i hi => ?_, fun k hk => ?_, recordCounted_of_load hLoad, by simpa using hx, by simpa using hxRegs⟩
  · exact num_setLines_mem (entryValues_lines init ▸ entryLines_nodup init) (entryValues_mem init hi) _
  · refine (num_setLines_other (l := entryValues init) (by rwa [entryValues_lines]) _).trans ?_
    rw [hFabric]

/-! ## Drive maps -/

theorem driveMap_stored {plate digest : Nat} {owners : List (Nat × List Nat)} (hKind : (recordHead r).kind = 0x17)
    (hGood : s.dev.recordCause img r (s.dev.depthOne (recordHead r) 0 false false img) 36 (fun p => s.dev.driveCause (recordHead r) p img) = 0)
    (hDrives : drivesOf img ((s.dev.payload img r).getD []) = some (plate, digest, owners)) :
    Completes (.driveMap flash) s fun e =>
      e.plates.driveMaps.look plate = some { owners := owners.foldl (fun m x => m.put x.1 x.2) ({} : SMap (List Nat)), digest := digest } ∧
      RecordCounted s.dev r e ∧ OnlyParts [.regs, .plates, .load] s.dev e ∧ OnlyRegs [rootBase + Reg.LD_BYTES.BYTES.off] s.dev e := by
  obtain ⟨-, hParts, hRegs, hQuiet⟩ := recordSeen_leaves s.dev r
  refine completes_stored (op := opDriveMap) hq hNext rfl rfl hKind hGood rfl rfl ?_
  dsimp only
  rw [hDrives]
  dsimp only
  have hMode : ¬((s.dev.recordSeen r).setImage { img with drives := img.drives ++ [plate] }).load.mode = .reapply := by
    rw [recordSeen_setImage]
    exact hOnce
  rw [Dev.unlessAgain, if_neg hMode]
  refine ⟨by rw [quiet_modPlates, Dev.setImage, quiet_modLoad, hQuiet], ?_, ?_, ?_, ?_⟩
  · rw [modPlates_plates, SMap.look_put_same]
  · refine recordCounted_of_load (img := { img with drives := img.drives ++ [plate] }) ?_
    rw [modPlates_load, recordSeen_setImage]
  · have h : OnlyParts [.regs, .plates, .load] s.dev (s.dev.recordSeen r) := hParts.mono (by decide)
    simpa [Dev.setImage] using h
  · simpa [Dev.setImage] using hRegs

end

/-! ## Plates -/

theorem putSegment_parts (d : Dev) (slot : Nat) (seg : Nat × Nat) (ws : List RowWord) : OnlyParts [.plates] d (d.putSegment slot seg ws) := by
  unfold Dev.putSegment
  split <;> simp

theorem putPlate_parts (d : Dev) (slot : Nat) (l : List ((Nat × Nat) × List RowWord)) : OnlyParts [.plates] d (d.putPlate slot l) :=
  each_keeps (P := OnlyParts [.plates] d) (fun e x h => h.trans (putSegment_parts e slot x.1 x.2)) l (onlyParts_refl _ d)

/-- A segment goes to the same place in every machine with the same plates and fences. -/
theorem putSegment_plates {d e : Dev} (hPlates : e.plates = d.plates) (hStack : e.stack = d.stack) (slot : Nat) (seg : Nat × Nat)
    (ws : List RowWord) : (e.putSegment slot seg ws).plates = (d.putSegment slot seg ws).plates := by
  have hFenced : e.fenced seg.1 = d.fenced seg.1 := by simp only [Dev.fenced, hStack]
  unfold Dev.putSegment
  rw [hFenced]
  split
  · exact hPlates
  · rw [modPlates_plates, modPlates_plates, hPlates]

theorem putPlate_plates (slot : Nat) (l : List ((Nat × Nat) × List RowWord)) {d e : Dev} (hPlates : e.plates = d.plates)
    (hStack : e.stack = d.stack) : (e.putPlate slot l).plates = (d.putPlate slot l).plates := by
  induction l generalizing d e with
  | nil => exact hPlates
  | cons x xs ih =>
    have hPart (c : Dev) : (c.putSegment slot x.1 x.2).stack = c.stack := putSegment_parts c slot x.1 x.2 .stack (by decide)
    exact ih (putSegment_plates hPlates hStack slot x.1 x.2) ((hPart e).trans (hStack.trans (hPart d).symm))

/-- A stage slot that is READY with its plate and groups. -/
def Dev.stageFilled (d : Dev) (slot plate valid : Nat) : Dev := (d.setStage slot stageReady).setStageInfo slot plate valid

theorem stageFilled_shows (d : Dev) {slot plate valid : Nat} (hSlot : slot < 4) (hPlate : plate < 2 ^ 8) (hValid : valid < 2 ^ 16) :
    (d.stageFilled slot plate valid).stageSt slot = stageReady ∧ (d.stageFilled slot plate valid).stagePlate slot = plate ∧
    (d.stageFilled slot plate valid).stageValid slot = valid := by
  refine ⟨?_, ?_, ?_⟩
  · unfold Dev.stageFilled Dev.setStageInfo Dev.setStage Dev.stageSt
    rw [fld_setFld_off (stageInfo_off slot (f := Reg.STAGE_INFO.VALID) rfl).2.symm rfl,
      fld_setFld_off (stageInfo_off slot (f := Reg.STAGE_INFO.PLATE) rfl).2.symm rfl, fld_setFld_same (stageField_fits ⟨slot, hSlot⟩)]
    rfl
  · unfold Dev.stageFilled Dev.setStageInfo Dev.stagePlate Dev.fldAt
    rw [fld_setFld_apart (f := Reg.STAGE_INFO.VALID.elem slot) (g := Reg.STAGE_INFO.PLATE.elem slot) rfl
        (show Reg.STAGE_INFO.VALID.apart Reg.STAGE_INFO.PLATE = true by decide),
      fld_setFld_lt (show (Reg.STAGE_INFO.PLATE.elem slot).fits from (by decide : Reg.STAGE_INFO.PLATE.fits = true)) hPlate]
  · unfold Dev.stageFilled Dev.setStageInfo Dev.stageValid Dev.fldAt
    rw [fld_setFld_lt (show (Reg.STAGE_INFO.VALID.elem slot).fits from (by decide : Reg.STAGE_INFO.VALID.fits = true)) hValid]

theorem stageFilled_parts (d : Dev) (slot plate valid : Nat) : OnlyParts [.regs] d (d.stageFilled slot plate valid) := by
  simp [Dev.stageFilled, Dev.setStageInfo, Dev.setStage]

theorem stageFilled_quiet (d : Dev) (slot plate valid : Nat) : (d.stageFilled slot plate valid).quiet = d.quiet := by
  have hNe (f : Fld) : rootBase + Reg.IRQ_CTRL.off ≠ configBase + f.off := by simp only [rootBase, Reg.IRQ_CTRL.off, configBase]; omega
  rw [Dev.stageFilled, Dev.setStageInfo, Dev.setStage, quiet_setFld _ _ _ _ (hNe _), quiet_setFld _ _ _ _ (hNe _), quiet_setFld _ _ _ _ (hNe _)]

theorem plateFrames_stored {s : State} {flash : List Word} {img : Image} {r : List Word} (hq : s.dev.quiet = true)
    (hNext : s.dev.nextRecord flash = some (img, r)) (hOnce : s.dev.load.mode ≠ .reapply) (hKind : (recordHead r).kind = 0x10)
    (hGood : s.dev.recordCause img r (s.dev.platePlace (recordHead r) img) 68 (fun p => s.dev.plateCause (recordHead r) p img) = 0) {p : PlateBody}
    (hp : p = plateOf ((s.dev.payload img r).getD [])) (hStays : p.resident = false) :
    Completes (.plateFrames flash []) s fun e =>
      e.stageSt p.stage = stageReady ∧ e.stagePlate p.stage = p.plate ∧ e.stageValid p.stage = p.groups.toNat ∧
      e.plates.stageFrames = (s.dev.putPlate p.stage ((plateFrames p).getD [])).plates.stageFrames ∧
      RecordCounted s.dev r e ∧ OnlyParts [.regs, .plates, .load] s.dev e := by
  obtain ⟨-, hParts, -, hQuiet⟩ := recordSeen_leaves s.dev r
  have hFits : p.stage < 4 ∧ p.plate < 2 ^ 8 := by
    rw [hp]
    exact ⟨bitsOf_lt _ 8 2, bitsOf_lt _ 0 8⟩
  refine completes_stored (op := fun f => opPlateFrames f []) hq hNext rfl rfl hKind hGood rfl rfl ?_
  dsimp only
  rw [← hp]
  have hMode (i : Image) : ¬((s.dev.recordSeen r).setImage i).load.mode = .reapply := by
    rw [recordSeen_setImage]
    exact hOnce
  rw [if_neg (hMode _), hStays, if_pos (by decide)]
  generalize hSet : (s.dev.recordSeen r).setImage _ = x
  generalize hPut : x.putPlate p.stage ((plateFrames p).getD []) = y
  have hx : OnlyParts [.regs, .plates, .load] s.dev x := by
    have h : OnlyParts [.regs, .plates, .load] s.dev (s.dev.recordSeen r) := hParts.mono (by decide)
    rw [← hSet]
    simpa [Dev.setImage] using h
  have hxy : OnlyParts [.plates] x y := hPut ▸ putPlate_parts _ _ _
  have hye : OnlyParts [.regs] y (y.stageFilled p.stage p.plate p.groups.toNat) := stageFilled_parts _ _ _ _
  obtain ⟨hSt, hPlate, hValid⟩ := stageFilled_shows y hFits.1 hFits.2 p.groups.isLt
  have hxPlates : x.plates = s.dev.plates := by
    rw [← hSet, Dev.setImage, modLoad_plates]
    exact hParts .plates (by decide)
  change (y.stageFilled p.stage p.plate p.groups.toNat).quiet = _ ∧ _
  refine ⟨?_, hSt, hPlate, hValid, ?_, ?_, (hx.trans (hxy.mono (by decide))).trans (hye.mono (by decide))⟩
  · have hy : y.quiet = x.quiet := quiet_congr (hxy .kryup (by decide)) (hxy .clk (by decide))
      (by rw [Dev.reg, show y.regs = x.regs from hxy .regs (by decide), Dev.reg]) (by rw [show y.stack = x.stack from hxy .stack (by decide)])
    rw [stageFilled_quiet, hy, ← hSet, Dev.setImage, quiet_modLoad, hQuiet]
  · change (y.stageFilled p.stage p.plate p.groups.toNat).plates.stageFrames = _
    rw [show (y.stageFilled p.stage p.plate p.groups.toNat).plates = y.plates from hye .plates (by decide), ← hPut,
      putPlate_plates p.stage _ hxPlates (hx .stack (by decide))]
  · have hLoad : (y.stageFilled p.stage p.plate p.groups.toNat).load = x.load :=
      (show _ = y.load from hye .load (by decide)).trans (hxy .load (by decide))
    obtain ⟨i, hi⟩ : ∃ i, x.load = { s.dev.load.seen s.dev.streaming r with image := some i } := ⟨_, hSet ▸ recordSeen_setImage ..⟩
    exact recordCounted_of_load (hLoad.trans hi)

end Sys2Proof.Machine

/-! # Loads that are rejected, and the signature that stands before the records (R362, R363, R375, R376) -/

namespace Sys2Proof.Machine

set_option Elab.async false

/-! ## What a rejection takes back -/

/-- Only plates, the INIT store and registers from the configuration controller's on differ. -/
structure Undone (d e : Dev) : Prop where
  parts : OnlyParts [.regs, .plates, .fabric] d e
  low : ∀ a < configBase, e.reg a = d.reg a

theorem Undone.refl (d : Dev) : Undone d d := ⟨by simp, fun _ _ => rfl⟩

theorem Undone.setFld {d e : Dev} (h : Undone d e) (f : Fld) (n : Nat) : Undone d (e.setFld configBase f n) := by
  refine ⟨by simpa using h.parts, fun a ha => ?_⟩
  rw [reg_setFld, if_neg (by omega)]
  exact h.low a ha

theorem Undone.modPlates {d e : Dev} (h : Undone d e) (f : PlateRec → PlateRec) : Undone d (e.modPlates f) :=
  ⟨by simpa using h.parts, h.low⟩

theorem Undone.modFabric {d e : Dev} (h : Undone d e) (f : FabricRec → FabricRec) : Undone d (e.modFabric f) :=
  ⟨by simpa using h.parts, h.low⟩

theorem undoStreamed_undone (d : Dev) : Undone d d.undoStreamed := by
  unfold Dev.undoStreamed
  split
  · exact .refl d
  · dsimp only
    split
    · exact .refl d
    · refine ((each_keeps (P := Undone d) (fun e p h => ?_) _ (.refl d)).modFabric _).modPlates _
      have hStage := ((h.setFld ⟨Reg.STAGE_STATE.off, 2 * p.stage, 2⟩ stageEmpty).setFld (Reg.STAGE_INFO.PLATE.elem p.stage) p.plate).setFld
        (Reg.STAGE_INFO.VALID.elem p.stage) 0
      split
      · refine each_keeps (P := Undone d) (fun x g hx => ?_) _ hStage
        split
        · exact hx.setFld _ _
        · exact (hx.setFld _ _).modPlates _
      · exact hStage

/-- The loader shows a rejection with the INDEX of a record (R375). -/
def Dev.showsRejectAt (d : Dev) (cause index : Nat) : Dev :=
  (((d.ldState ldRejected).setFld rootBase Reg.LD_STATUS.CAUSE cause).setFld rootBase Reg.LD_INDEX.INDEX index).raise rootBase
    Reg.LD_EVENT.REJECTED

/-- A load has been rejected with a cause and an INDEX, and is over. -/
def RejectedAt (cause index : Nat) (e : Dev) : Prop :=
  e.fld rootBase Reg.LD_STATUS.STATE = ldRejected ∧ e.fld rootBase Reg.LD_STATUS.CAUSE = cause ∧
    e.fld rootBase Reg.LD_INDEX.INDEX = index ∧ e.fld rootBase Reg.LD_EVENT.REJECTED = 1 ∧ e.load.mode = .idle

theorem showsRejectAt_shows {d : Dev} {cause index : Nat} (hMode : d.load.mode = .idle) (hc : cause < 256) (hi : index < 2 ^ 32) :
    RejectedAt cause index (d.showsRejectAt cause index) := by
  refine ⟨?_, ?_, ?_, fld_raise_same (by decide) (by decide), hMode⟩
  · rw [Dev.showsRejectAt, Dev.raise, fld_setFld_clear (by decide), fld_setFld_clear (by decide), fld_setFld_clear (by decide), Dev.ldState,
      fld_setFld_lt (by decide) (by decide)]
  · rw [Dev.showsRejectAt, Dev.raise, fld_setFld_clear (by decide), fld_setFld_clear (by decide), fld_setFld_lt (by decide) hc]
  · rw [Dev.showsRejectAt, Dev.raise, fld_setFld_clear (by decide), fld_setFld_lt (by decide) hi]

theorem showsRejectAt_quiet (d : Dev) (cause index : Nat) : (d.showsRejectAt cause index).quiet = d.quiet := by
  rw [Dev.showsRejectAt, quiet_raise _ _ _ (by decide), quiet_setFld _ _ _ _ (by decide), quiet_setFld _ _ _ _ (by decide), Dev.ldState,
    quiet_setFld _ _ _ _ (by decide)]

theorem ust_showsRejectAt (d : Dev) (cause index : Nat) : (d.showsRejectAt cause index).ust formeBase = d.ust formeBase := by
  unfold Dev.ust
  rw [Dev.showsRejectAt, Dev.raise, fld_setFld_other (by decide), fld_setFld_other (by decide), fld_setFld_other (by decide), Dev.ldState,
    fld_setFld_other (by decide)]

/-- No user unit is declared, and the forme is not starting: nothing waits for the load. -/
def Dev.awaitsNone (d : Dev) : Prop := d.units.user.keys = [] ∧ d.ust formeBase ≠ .starting

theorem awaitsNone_user {d : Dev} (h : d.awaitsNone) (b : Nat) (f : UserUnit → UserUnit) : d.modUser b f = d := by
  have hItems : d.units.user.items = [] := List.map_eq_nil_iff.mp h.1
  have hLook : d.units.user.look b = none := by
    unfold SMap.look
    rw [hItems]
    rfl
  unfold Dev.modUser
  rw [hLook]

/-- With nothing that waits, a rejected load fails no unit and bars none. -/
theorem loadingFails_none {d : Dev} (h : d.awaitsNone) (part : Bool) : d.loadingFails part = d := by
  have hOnly : (formeBase :: d.units.user.keys).eraseDups = [formeBase] := by
    rw [h.1]
    decide
  have hFails : (d.each (((formeBase :: d.units.user.keys).eraseDups).filter fun b => (d.user b).rel == .loading) fun d b =>
      if d.ust b = .starting then d.startFail b 0 else d) = d := by
    refine each_fixed fun b hb => ?_
    obtain rfl : b = formeBase := List.mem_singleton.mp (hOnly ▸ (List.mem_filter.mp hb).1)
    exact if_neg h.2
  unfold Dev.loadingFails
  dsimp only
  rw [hFails]
  split
  · exact each_fixed fun b _ => awaitsNone_user h b _
  · rfl

/-- A load that nothing waits for is rejected. -/
theorem imageReject_rejects {d : Dev} (h : d.awaitsNone) {cause index : Nat} (hc : cause < 256) (hi : index < 2 ^ 32) :
    RejectedAt cause index (d.imageReject cause index) ∧ (d.imageReject cause index).load.image = none ∧
      (d.imageReject cause index).quiet = d.quiet := by
  have hUndone := undoStreamed_undone d
  have hShown : (d.undoStreamed.closeLoad.showsRejectAt cause index).awaitsNone := by
    constructor
    · change d.undoStreamed.units.user.keys = []
      rw [show d.undoStreamed.units = d.units from hUndone.parts .units (by decide)]
      exact h.1
    · rw [ust_showsRejectAt, Dev.ust, Dev.closeLoad, fld_setFld_other (by decide), fld_modLoad, Dev.fld, hUndone.low _ (by decide)]
      exact h.2
  have hReject : d.imageReject cause index = d.undoStreamed.closeLoad.showsRejectAt cause index := by
    have hFails := loadingFails_none hShown
    unfold Dev.imageReject
    dsimp only
    split
    · rfl
    · exact hFails _
  rw [hReject]
  refine ⟨showsRejectAt_shows rfl hc hi, rfl, ?_⟩
  rw [showsRejectAt_quiet, closeLoad_quiet]
  exact quiet_congr (hUndone.parts .kryup (by decide)) (hUndone.parts .clk (by decide)) (hUndone.low _ (by decide))
    (by rw [show d.undoStreamed.stack = d.stack from hUndone.parts .stack (by decide)])

/-- A command that rejects a load that nothing waits for. -/
theorem completes_rejected {s : State} {c : Instr} {f : Dev → Dev} {d : Dev} (hq : s.dev.quiet = true) (he : exec c s = onDev f s)
    {cause index : Nat} (hf : f s.dev = d.imageReject cause index) (hd : d.quiet = s.dev.quiet) (h : d.awaitsNone) (hc : cause < 256)
    (hi : index < 2 ^ 32) : Completes c s fun e => RejectedAt cause index e ∧ e.load.image = none := by
  obtain ⟨hShown, hImage, hQuiet⟩ := imageReject_rejects h hc hi
  refine completes_quiet he ?_ ?_ <;> rw [hf]
  · rw [hQuiet, hd, hq]
  · exact ⟨hShown, hImage⟩

/-! ## Words of the image are taken -/

theorem satAdd_le (m n k : Nat) : satAdd m n k ≤ m := by
  unfold satAdd
  split
  · assumption
  · exact Nat.le_refl m

theorem takeWords_leaves (d : Dev) (n : Nat) :
    (d.takeWords n).load = { d.load with words := if d.streaming then d.load.words.drop n else d.load.words } ∧
    OnlyParts [.regs, .load] d (d.takeWords n) ∧ OnlyRegs [rootBase + Reg.LD_BYTES.BYTES.off] d (d.takeWords n) ∧
    (d.takeWords n).quiet = d.quiet := by
  unfold Dev.takeWords
  cases h : d.streaming
  · rw [if_neg (by decide), quiet_countBy _ _ _ _ (by decide), countBy_load]
    exact ⟨rfl, by simp, by simp, rfl⟩
  · rw [if_pos rfl, quiet_modLoad, modLoad_load]
    exact ⟨rfl, by simp, by simp, rfl⟩

theorem awaitsNone_of_taken {d e : Dev} (hParts : OnlyParts [.regs, .load] d e) (hRegs : OnlyRegs [rootBase + Reg.LD_BYTES.BYTES.off] d e)
    (h : d.awaitsNone) : e.awaitsNone := by
  refine ⟨?_, ?_⟩
  · rw [show e.units = d.units from hParts .units (by decide)]
    exact h.1
  · rw [Dev.ust, Dev.fld, hRegs _ (by decide)]
    exact h.2

section
variable {s : State} {flash : List Word} {img : Image} {r : List Word} (hq : s.dev.quiet = true)
include hq

/-! ## A record with a wrong CRC -/

theorem galleyClose_rejects (hNext : s.dev.nextRecord flash = some (img, r)) (hKind : (recordHead r).kind = 0x02)
    (hCrc : (recordHead r).crcOk = false) (hWait : s.dev.awaitsNone) :
    Completes (.galleyClose flash) s fun e => RejectedAt ldRecordCrc (recordHead r).index e ∧ e.load.image = none := by
  obtain ⟨-, hParts, hRegs, hQuiet⟩ := recordSeen_leaves s.dev r
  have hCause (place : Nat) : s.dev.recordCause img r place 0 (fun _ => 0) = ldRecordCrc := by
    unfold Dev.recordCause
    dsimp only
    rw [hCrc]
    rfl
  refine completes_rejected (f := opGalleyClose flash) hq rfl ?_ hQuiet (awaitsNone_of_taken hParts hRegs hWait) (by decide)
    (BitVec.isLt _)
  unfold opGalleyClose Dev.onRecord
  rw [hNext]
  dsimp only
  rw [if_neg (not_not_intro hKind), hCause, if_pos (by decide)]

/-! ## The colophon -/

theorem colophon_rejects (hWords : colophonWords ≤ (s.dev.imageWords flash).length) (hImage : s.dev.load.image = none)
    (hMode : s.dev.load.mode ≠ .idle) (hMagic : (colophonOf ((s.dev.imageWords flash).take colophonWords)).magic ≠ 0x4B4E46)
    (hWait : s.dev.awaitsNone) : Completes (.colophon flash) s (RejectedAt ldMagic noIndex) := by
  obtain ⟨-, hParts, hRegs, hQuiet⟩ := takeWords_leaves s.dev colophonWords
  have hCause : s.dev.colophonCause (colophonOf ((s.dev.imageWords flash).take colophonWords)) = ldMagic := by
    have hBne : ((colophonOf ((s.dev.imageWords flash).take colophonWords)).magic != 0x4B4E46) = true := bne_iff_ne.mpr hMagic
    unfold Dev.colophonCause
    dsimp only
    rw [hBne]
    rfl
  refine (completes_rejected (f := opColophon flash) hq rfl ?_ hQuiet (awaitsNone_of_taken hParts hRegs hWait) (by decide) (by decide)).imp
    fun e h => h.1
  have hShort : ¬(s.dev.load.mode = .idle ∨ s.dev.load.image.isSome = true ∨
      ((s.dev.imageWords flash).take colophonWords).length < colophonWords) := by
    rw [hImage, List.length_take, Nat.min_eq_left hWords]
    simp [hMode]
  unfold opColophon
  dsimp only
  rw [if_neg hShort, hCause, if_pos (by decide)]

/-! ## The signature -/

omit hq in
theorem signature_taken (hImage : s.dev.load.image = some img) (hSigned : s.dev.load.signed = false)
    (hWords : blockWords ≤ (s.dev.imageWords flash).length) (hEnded : s.dev.streaming = true → s.dev.load.ended = true) :
    opSignature flash {} s.dev =
      if !s.dev.keyHeld img.colophon.signer (wordBytes ((s.dev.imageWords flash).take blockWords)) then
        (s.dev.takeWords blockWords).imageReject ldSigner noIndex
      else if !blockSigns (wordBytes ((s.dev.imageWords flash).take blockWords)) (wordBytes s.dev.load.head) then
        (s.dev.takeWords blockWords).imageReject ldSignature noIndex
      else if s.dev.load.ended then ((s.dev.takeWords blockWords).modLoad fun l => { l with signed := true }).endLoad {}
      else (s.dev.takeWords blockWords).modLoad fun l => { l with signed := true } := by
  obtain ⟨hLoad, hParts, -, -⟩ := takeWords_leaves s.dev blockWords
  have hStands : ¬(s.dev.load.signed = true ∨ ((s.dev.imageWords flash).take blockWords).length < blockWords ∨
      (s.dev.streaming && !s.dev.load.ended) = true) := by
    rw [hSigned, List.length_take, Nat.min_eq_left hWords]
    cases h : s.dev.streaming <;> simp_all
  have hHeld (i : Nat) (l : List Nat) : (s.dev.takeWords blockWords).keyHeld i l = s.dev.keyHeld i l := by
    unfold Dev.keyHeld
    rw [show (s.dev.takeWords blockWords).ident = s.dev.ident from hParts .ident (by decide)]
  have hHead : (s.dev.takeWords blockWords).load.head = s.dev.load.head := by rw [hLoad]
  have hEnd : ((s.dev.takeWords blockWords).modLoad fun l => { l with signed := true }).load.ended = s.dev.load.ended := by
    rw [modLoad_load, hLoad]
  unfold opSignature
  rw [hImage]
  dsimp only
  rw [if_neg hStands, hHeld, hHead, hEnd]

section
variable (hImage : s.dev.load.image = some img) (hSigned : s.dev.load.signed = false)
    (hWords : blockWords ≤ (s.dev.imageWords flash).length)
include hImage hSigned hWords

theorem signature_unheld (hEnded : s.dev.streaming = true → s.dev.load.ended = true)
    (hKey : s.dev.keyHeld img.colophon.signer (wordBytes ((s.dev.imageWords flash).take blockWords)) = false) (hWait : s.dev.awaitsNone) :
    Completes (.signature flash {}) s (RejectedAt ldSigner noIndex) := by
  obtain ⟨-, hParts, hRegs, hQuiet⟩ := takeWords_leaves s.dev blockWords
  refine (completes_rejected (f := opSignature flash {}) hq rfl ?_ hQuiet (awaitsNone_of_taken hParts hRegs hWait) (by decide)
    (by decide)).imp fun e h => h.1
  rw [signature_taken hImage hSigned hWords hEnded, hKey, if_pos (by decide)]

theorem signature_wrong (hEnded : s.dev.streaming = true → s.dev.load.ended = true)
    (hKey : s.dev.keyHeld img.colophon.signer (wordBytes ((s.dev.imageWords flash).take blockWords)) = true)
    (hSigns : blockSigns (wordBytes ((s.dev.imageWords flash).take blockWords)) (wordBytes s.dev.load.head) = false)
    (hWait : s.dev.awaitsNone) : Completes (.signature flash {}) s (RejectedAt ldSignature noIndex) := by
  obtain ⟨-, hParts, hRegs, hQuiet⟩ := takeWords_leaves s.dev blockWords
  refine (completes_rejected (f := opSignature flash {}) hq rfl ?_ hQuiet (awaitsNone_of_taken hParts hRegs hWait) (by decide)
    (by decide)).imp fun e h => h.1
  rw [signature_taken hImage hSigned hWords hEnded, hKey, if_neg (by decide), hSigns, if_pos (by decide)]

theorem signature_right (hSpi : s.dev.streaming = false) (hEnded : s.dev.load.ended = false)
    (hKey : s.dev.keyHeld img.colophon.signer (wordBytes ((s.dev.imageWords flash).take blockWords)) = true)
    (hSigns : blockSigns (wordBytes ((s.dev.imageWords flash).take blockWords)) (wordBytes s.dev.load.head) = true) :
    Completes (.signature flash {}) s fun e =>
      e.load = { s.dev.load with signed := true } ∧ Counted rootBase Reg.LD_BYTES.BYTES (4 * blockWords) s.dev e ∧
        OnlyParts [.regs, .load] s.dev e ∧ OnlyRegs [rootBase + Reg.LD_BYTES.BYTES.off] s.dev e := by
  obtain ⟨hLoad, hParts, hRegs, hQuiet⟩ := takeWords_leaves s.dev blockWords
  have hOp : opSignature flash {} s.dev = (s.dev.takeWords blockWords).modLoad fun l => { l with signed := true } := by
    rw [signature_taken hImage hSigned hWords (by rw [hSpi]; simp), hKey, if_neg (by decide), hSigns, if_neg (by decide), hEnded,
      if_neg (by decide)]
  have hCounted : Counted rootBase Reg.LD_BYTES.BYTES (4 * blockWords) s.dev (s.dev.takeWords blockWords) := by
    rw [Dev.takeWords, hSpi, if_neg (by decide)]
    unfold Counted Dev.countBy
    exact fld_setFld_lt (by decide) (Nat.lt_of_le_of_lt (satAdd_le _ _ _) (by decide))
  refine completes_quiet (f := opSignature flash {}) rfl ?_ ?_ <;> rw [hOp]
  · rw [quiet_modLoad, hQuiet, hq]
  · refine ⟨?_, hCounted, by simpa using hParts, by simpa using hRegs⟩
    rw [modLoad_load, hLoad, hSpi]
    rfl

end

end

end Sys2Proof.Machine

/-! # The colophon that is accepted, and END of an image whose signature is to come or whose digest is wrong (R338, R360, R362, R376) -/

namespace Sys2Proof.Machine

set_option Elab.async false

/-! ## What is withdrawn -/

/-- What the withdrawal of an image takes away before it clears registers: registers from the configuration controller's on, and what
units, lanes, plates and the fabric hold. -/
structure Withdrawing (d e : Dev) : Prop where
  parts : OnlyParts [.regs, .fabric, .units, .lanes, .plates] d e
  low : ∀ a < configBase, e.reg a = d.reg a
  store : e.fabric.initStore = d.fabric.initStore

section
variable {d e : Dev} (h : Withdrawing d e)

theorem Withdrawing.refl (d : Dev) : Withdrawing d d := ⟨by simp, fun _ _ => rfl, rfl⟩

include h

theorem Withdrawing.setFld {b : Nat} {f : Fld} (n : Nat) (hb : configBase ≤ b + f.off) : Withdrawing d (e.setFld b f n) := by
  refine ⟨by simpa using h.parts, fun a ha => ?_, h.store⟩
  rw [reg_setFld, if_neg (by omega)]
  exact h.low a ha

theorem Withdrawing.config (f : Fld) (n : Nat) : Withdrawing d (e.setFld configBase f n) := h.setFld n (Nat.le_add_right _ _)

theorem Withdrawing.modPlates (f : PlateRec → PlateRec) : Withdrawing d (e.modPlates f) := ⟨by simpa using h.parts, h.low, h.store⟩

theorem Withdrawing.modUser (b : Nat) (f : UserUnit → UserUnit) : Withdrawing d (e.modUser b f) := by
  have hParts := parts_modUser e b f
  have hRegs : (e.modUser b f).regs = e.regs := hParts .regs (by decide)
  refine ⟨h.parts.trans (hParts.mono (by decide)), fun a ha => ?_, ?_⟩
  · rw [Dev.reg, hRegs]
    exact h.low a ha
  · rw [show (e.modUser b f).fabric = e.fabric from hParts .fabric (by decide)]
    exact h.store

theorem Withdrawing.loadInit (b : Nat) : Withdrawing d (e.loadInit b) := by
  refine ⟨?_, h.low, h.store⟩
  unfold Dev.loadInit
  simpa using h.parts

theorem Withdrawing.fenceNotes (b : Nat) (f : Fld) : Withdrawing d (e.fenceNotes b f) := by
  have hTile (layer : Nat) (x : Dev) (c : Nat) (hx : Withdrawing d x) : Withdrawing d (x.tileRaise layer c f) := by
    unfold Dev.tileRaise
    dsimp only
    split
    · exact hx
    · exact hx.setFld 1 (by simp only [columnBase, configBase]; omega)
  exact each_keeps (P := Withdrawing d) (hTile 4) _ (each_keeps (P := Withdrawing d) (hTile 2) _ h)

theorem Withdrawing.toLoading (b : Nat) : Withdrawing d (e.toLoading b) := by
  unfold Dev.toLoading
  dsimp only
  split
  · exact ((h.fenceNotes b _).loadInit b).modUser b _
  · exact (h.loadInit b).modUser b _

theorem Withdrawing.flushHeld (n : Nat) : Withdrawing d (e.flushHeld n) := by
  have hHigh (f : Fld) : configBase ≤ laneBase n + f.off := by
    simp only [configBase, laneBase]
    omega
  have hMod (g : LaneRec → LaneRec) : Withdrawing d (e.modLane n g) := ⟨by simpa using h.parts, h.low, h.store⟩
  exact ((hMod _).setFld _ (hHigh _)).setFld _ (hHigh _)

theorem Withdrawing.unpend (g : Nat) : Withdrawing d (e.unpend g) := (h.modPlates _).config _ _

theorem Withdrawing.dropForce : Withdrawing d e.dropForce := by
  unfold Dev.dropForce
  refine (each_keeps (P := Withdrawing d) (fun x g hx => ?_) _ (each_keeps (P := Withdrawing d) (fun x g hx => hx.unpend g) _ h)).modPlates _
  refine ((each_keeps (P := Withdrawing d) (fun y t hy => ?_) _ hx).config _ _).config _ _
  split
  · exact hy.config _ _
  · exact hy

end

/-- What is left once an image has been withdrawn. -/
structure Withdrawn (d e : Dev) : Prop where
  parts : OnlyParts [.regs, .fabric, .units, .lanes, .plates, .strike, .load] d e
  quiet : e.quiet = d.quiet
  source : e.reg (rootBase + Reg.LD_STATUS.off) = d.reg (rootBase + Reg.LD_STATUS.off)
  latency : e.reg (keeperBase + Reg.LATENCY.off) = 0
  strike : e.reg (strikeBase + Reg.STK_SRC.off) = 0
  maps : e.plates.driveMaps = {}
  store : e.fabric.initStore = {}
  load : e.load = { d.load with verified := none, released := none, target := none, opened := false, partPlates := {} }

theorem withdraw_withdrawn (d : Dev) : Withdrawn d d.withdraw := by
  have hBegun : Withdrawing (d.modFabric fun f => { f with initStore := {} }) (d.modFabric fun f => { f with initStore := {} }) := .refl _
  have hUnits := (each_keeps (P := Withdrawing _) (fun x b hx => hx.toLoading b) d.units.user.keys hBegun).dropForce
  unfold Dev.withdraw
  dsimp only
  generalize hx : (((d.modFabric fun f => { f with initStore := {} }).each
    (d.modFabric fun f => { f with initStore := {} }).units.user.keys Dev.toLoading).dropForce) = x
  have hLanes := each_keeps (P := Withdrawing (d.modFabric fun f => { f with initStore := {} })) (fun x n hx => hx.flushHeld n) x.lanes.keys
    (hx ▸ hUnits)
  generalize x.each x.lanes.keys Dev.flushHeld = y at hLanes ⊢
  have hParts : OnlyParts [.regs, .fabric, .units, .lanes, .plates, .strike, .load] d y :=
    ((parts_modFabric d _).mono (by decide)).trans (hLanes.parts.mono (by decide))
  have hLow (a : Nat) (ha : a < configBase) : y.reg a = d.reg a := hLanes.low a ha
  refine ⟨by simpa using hParts, ?_, ?_, ?_, ?_, rfl, hLanes.store, ?_⟩
  · refine quiet_congr (hParts .kryup (by decide)) (hParts .clk (by decide)) ?_ (by
      change y.stack.meets = _
      rw [show y.stack = d.stack from hParts .stack (by decide)])
    simp only [reg_modLoad, reg_modPlates, reg_modStrike, reg_setReg]
    exact hLow _ (by decide)
  · simp only [reg_modLoad, reg_modPlates, reg_modStrike, reg_setReg]
    exact hLow _ (by decide)
  · simp only [reg_modLoad, reg_modPlates, reg_modStrike, reg_setReg]
    rfl
  · simp only [reg_modLoad, reg_modPlates, reg_modStrike, reg_setReg]
    rfl
  · have hLoad : y.load = d.load := hLanes.parts .load (by decide)
    simp only [modLoad_load, modPlates_load, modStrike_load, setReg_load, hLoad]

end Sys2Proof.Machine

/-! # The colophon that opens the records, and the END that does not end the load well (R338, R360, R362) -/

namespace Sys2Proof.Machine

set_option Elab.async false

/-! ## A colophon that is accepted -/

/-- The records are open under a colophon. -/
def Dev.recordsOpen (d : Dev) (c : Colophon) (head : List Word) : Dev :=
  (d.setFld rootBase Reg.LD_STATUS.PARTIAL 0).modLoad fun l =>
    { l with head := head, image := some { colophon := c, source := d.fld rootBase Reg.LD_STATUS.SOURCE }, signed := c.sigOffset == 0 }

section
variable {s : State} {flash : List Word} {c : Colophon} (hq : s.dev.quiet = true)

theorem opColophon_accepted (hc : c = colophonOf ((s.dev.imageWords flash).take colophonWords))
    (hWords : colophonWords ≤ (s.dev.imageWords flash).length) (hImage : s.dev.load.image = none) (hCause : s.dev.colophonCause c = 0)
    (hWhole : partialImage c = false) (hMode : s.dev.load.mode = .stream) :
    opColophon flash s.dev = ((s.dev.takeWords colophonWords).withdraw).recordsOpen c ((s.dev.imageWords flash).take colophonWords) := by
  obtain ⟨hLoad, -, -, -⟩ := takeWords_leaves s.dev colophonWords
  have hOpen : ¬(s.dev.load.mode = .idle ∨ s.dev.load.image.isSome = true ∨
      ((s.dev.imageWords flash).take colophonWords).length < colophonWords) := by
    rw [hImage, hMode, List.length_take, Nat.min_eq_left hWords]
    simp
  have hFresh : ¬(partialImage c = true ∨ (s.dev.takeWords colophonWords).load.mode = .reapply) := by
    rw [hWhole, hLoad, hMode]
    simp
  unfold opColophon
  dsimp only
  rw [if_neg hOpen, ← hc, hCause, if_neg (by decide), if_neg hFresh, hWhole]
  rfl

include hq in
theorem colophon_accepted (hc : c = colophonOf ((s.dev.imageWords flash).take colophonWords))
    (hWords : colophonWords ≤ (s.dev.imageWords flash).length) (hImage : s.dev.load.image = none) (hCause : s.dev.colophonCause c = 0)
    (hWhole : partialImage c = false) (hMode : s.dev.load.mode = .stream) :
    Completes (.colophon flash) s fun e =>
      e.load.image = some { colophon := c, source := s.dev.fld rootBase Reg.LD_STATUS.SOURCE } ∧
      e.load.words = s.dev.load.words.drop colophonWords ∧ e.load.head = (s.dev.imageWords flash).take colophonWords ∧
      e.load.signed = (c.sigOffset == 0) ∧
      e.load.verified = none ∧ e.load.released = none ∧ e.fld rootBase Reg.LD_STATUS.PARTIAL = 0 ∧
      e.reg (keeperBase + Reg.LATENCY.off) = 0 ∧ e.reg (strikeBase + Reg.STK_SRC.off) = 0 ∧
      e.plates.driveMaps = {} ∧ e.fabric.initStore = {} := by
  obtain ⟨hLoad, -, hRegs, hQuiet⟩ := takeWords_leaves s.dev colophonWords
  have hStreams : s.dev.streaming = true := by
    rw [Dev.streaming, hMode]
    rfl
  have hOut := withdraw_withdrawn (s.dev.takeWords colophonWords)
  generalize hx : (s.dev.takeWords colophonWords).withdraw = x at hOut
  have hSource : x.fld rootBase Reg.LD_STATUS.SOURCE = s.dev.fld rootBase Reg.LD_STATUS.SOURCE := by
    rw [Dev.fld, show rootBase + Reg.LD_STATUS.SOURCE.off = rootBase + Reg.LD_STATUS.off from rfl, hOut.source, hRegs _ (by decide)]
    rfl
  refine completes_quiet (f := opColophon flash) rfl ?_ ?_ <;> rw [opColophon_accepted hc hWords hImage hCause hWhole hMode, hx, Dev.recordsOpen]
  · rw [quiet_modLoad, quiet_setFld _ _ _ _ (by decide), hOut.quiet, hQuiet, hq]
  · simp only [modLoad_load, setFld_load, hOut.load, hLoad, hStreams, hSource, reg_modLoad, fld_modLoad, reg_setFld]
    refine ⟨trivial, rfl, trivial, trivial, trivial, trivial, ?_, ?_, ?_, hOut.maps, hOut.store⟩
    · exact fld_setFld_lt (by decide) (by decide)
    · exact hOut.latency
    · exact hOut.strike

end

/-! ## END -/

/-- The machine once END has been counted. -/
def Dev.endSeen (d : Dev) (r : List Word) : Dev := (d.recordSeen r).modLoad fun l => { l with ended := true }

section
variable {s : State} {flash : List Word} {img : Image} {r : List Word} (hNext : s.dev.nextRecord flash = some (img, r))

theorem nextRecord_image (hNext : s.dev.nextRecord flash = some (img, r)) : s.dev.load.image = some img := by
  unfold Dev.nextRecord at hNext
  split at hNext
  · cases hNext
  · rename_i i hi
    split at hNext
    · cases hNext
    · obtain ⟨a, -, ha⟩ := Option.map_eq_some_iff.mp hNext
      rw [hi, (Prod.mk.inj ha).1]

theorem endSeen_load (d : Dev) (r : List Word) : (d.endSeen r).load = { d.load.seen d.streaming r with ended := true } := by
  rw [Dev.endSeen, modLoad_load, (recordSeen_leaves d r).1]

theorem endSeen_leaves (d : Dev) (r : List Word) : OnlyParts [.regs, .load] d (d.endSeen r) ∧
    OnlyRegs [rootBase + Reg.LD_BYTES.BYTES.off] d (d.endSeen r) ∧ (d.endSeen r).quiet = d.quiet := by
  obtain ⟨-, hParts, hRegs, hQuiet⟩ := recordSeen_leaves d r
  exact ⟨by simpa [Dev.endSeen] using hParts, by simpa [Dev.endSeen] using hRegs, by rw [Dev.endSeen, quiet_modLoad, hQuiet]⟩

include hNext

/-- END in its place is counted, and ends the load where the image is signed or needs no signature. -/
theorem opEndRecord_taken (hKind : (recordHead r).kind = 0x7F) (hUnit : (recordHead r).unit = 0) (hIndex : s.dev.load.index ≠ 0)
    (hDepth : s.dev.loadDepth = 0) (hGood : s.dev.recordCause img r 0 0 (fun _ => 0) = 0) :
    opEndRecord flash {} s.dev = if s.dev.load.signed then (s.dev.endSeen r).endLoad {} else s.dev.endSeen r := by
  have hPlace : firstCause [(s.dev.load.index == 0, ldPlacement), (s.dev.loadDepth != 0, ldNesting), ((recordHead r).unit != 0, ldUnit)] = 0 := by
    rw [hDepth, hUnit, beq_false_of_ne hIndex]
    rfl
  have hTaken : opEndRecord flash {} s.dev = if (s.dev.endSeen r).load.signed then (s.dev.endSeen r).endLoad {} else s.dev.endSeen r := by
    unfold opEndRecord
    exact onRecord_good (place := fun h _ => firstCause [(s.dev.load.index == 0, ldPlacement), (s.dev.loadDepth != 0, ldNesting), (h.unit != 0, ldUnit)])
      (check := fun _ _ _ => 0) hNext hKind (by rw [hPlace]; exact hGood)
  rw [hTaken, endSeen_load]
  rfl

theorem end_waits (hq : s.dev.quiet = true) (hKind : (recordHead r).kind = 0x7F) (hUnit : (recordHead r).unit = 0)
    (hIndex : s.dev.load.index ≠ 0) (hDepth : s.dev.loadDepth = 0) (hGood : s.dev.recordCause img r 0 0 (fun _ => 0) = 0)
    (hMode : s.dev.load.mode = .stream) (hSigned : s.dev.load.signed = false) :
    Completes (.endRecord flash {}) s fun e =>
      e.load.ended = true ∧ e.load.image = some img ∧ e.load.index = s.dev.load.index + 1 ∧
        e.load.words = s.dev.load.words.drop r.length ∧ OnlyParts [.load] s.dev e := by
  have hStreams : s.dev.streaming = true := by
    rw [Dev.streaming, hMode]
    rfl
  have hParts : OnlyParts [.load] s.dev (s.dev.endSeen r) := by
    unfold Dev.endSeen Dev.recordSeen Dev.takeWords
    rw [if_pos hStreams]
    simp
  refine completes_quiet (f := opEndRecord flash {}) rfl ?_ ?_ <;>
    rw [opEndRecord_taken hNext hKind hUnit hIndex hDepth hGood, hSigned, if_neg (by decide)]
  · rw [(endSeen_leaves s.dev r).2.2, hq]
  · rw [endSeen_load, hStreams]
    exact ⟨rfl, nextRecord_image hNext, rfl, rfl, hParts⟩

theorem end_wrongDigest (hq : s.dev.quiet = true) (hKind : (recordHead r).kind = 0x7F) (hUnit : (recordHead r).unit = 0)
    (hIndex : s.dev.load.index ≠ 0) (hDepth : s.dev.loadDepth = 0) (hGood : s.dev.recordCause img r 0 0 (fun _ => 0) = 0)
    (hLast : s.dev.load.index < 2 ^ 32) (hSigned : s.dev.load.signed = true) (hOrder : (s.dev.endSeen r).load.badIndex = none)
    (hCount : img.colophon.recordCount = s.dev.load.index + 1)
    (hLen : img.colophon.imageLen = 4 * (colophonWords + (s.dev.endSeen r).load.body.length))
    (hDigest : img.colophon.digest ≠ bigNum (sha384 (wordBytes (s.dev.endSeen r).load.body))) (hWait : s.dev.awaitsNone) :
    Completes (.endRecord flash {}) s (RejectedAt ldDigest s.dev.load.index) := by
  obtain ⟨hParts, hRegs, hQuiet⟩ := endSeen_leaves s.dev r
  have hAt : (s.dev.endSeen r).load.index = s.dev.load.index + 1 := by
    rw [endSeen_load]
    rfl
  have hImage : (s.dev.endSeen r).load.image = some img := by
    rw [endSeen_load]
    exact nextRecord_image hNext
  have hCounts : ¬((s.dev.endSeen r).load.badIndex.isSome = true ∨ img.colophon.recordCount ≠ (s.dev.endSeen r).load.index ∨
      img.colophon.imageLen ≠ 4 * (colophonWords + (s.dev.endSeen r).load.body.length)) := by
    rw [hOrder, hAt]
    simp [hCount, hLen]
  have hCause : (s.dev.endSeen r).endCause img = (ldDigest, s.dev.load.index) := by
    unfold Dev.endCause
    dsimp only
    rw [if_neg hCounts, if_pos hDigest, hAt]
    rfl
  refine (completes_rejected (f := opEndRecord flash {}) hq rfl ?_ hQuiet (awaitsNone_of_taken hParts hRegs hWait) (by decide) hLast).imp
    fun e h => h.1
  rw [opEndRecord_taken hNext hKind hUnit hIndex hDepth hGood, hSigned, if_pos rfl]
  unfold Dev.endLoad
  rw [hImage]
  dsimp only
  rw [hCause]
  exact if_pos (show ldDigest ≠ 0 by decide)

end

end Sys2Proof.Machine

/-! # What the start of units leaves aside: Kryup, the clocks, the verified image, the decision galleys and the records of user units -/

namespace Sys2Proof.Machine

set_option Elab.async false

/-- Kryup, the clocks, the verified image, the decision galleys and the records of user units are as they were. -/
structure Aside (d e : Dev) : Prop where
  kryup : e.kryup = d.kryup
  clk : e.clk = d.clk
  verified : e.load.verified = d.load.verified
  galleys : e.strike.galleys = d.strike.galleys
  user : e.units.user = d.units.user

theorem Aside.refl (d : Dev) : Aside d d := ⟨rfl, rfl, rfl, rfl, rfl⟩

theorem Aside.trans {c d e : Dev} (h1 : Aside c d) (h2 : Aside d e) : Aside c e :=
  ⟨h2.kryup.trans h1.kryup, h2.clk.trans h1.clk, h2.verified.trans h1.verified, h2.galleys.trans h1.galleys, h2.user.trans h1.user⟩

/-! ## Updates -/

section
variable {d e : Dev}

/-- A change of none of these parts. -/
theorem Aside.parts {c : Dev} (h : Aside d c) {l : List Part} (hParts : OnlyParts l c e)
    (hl : ∀ p ∈ [Part.kryup, .clk, .load, .strike, .units], p ∉ l) : Aside d e := by
  refine h.trans ⟨hParts .kryup (hl _ (by simp)), hParts .clk (hl _ (by simp)), ?_, ?_, ?_⟩
  · rw [show e.load = c.load from hParts .load (hl _ (by simp))]
  · rw [show e.strike = c.strike from hParts .strike (hl _ (by simp))]
  · rw [show e.units = c.units from hParts .units (hl _ (by simp))]

variable (h : Aside d e)
include h

theorem Aside.setReg (a : Nat) (v : Word) : Aside d (e.setReg a v) := ⟨h.kryup, h.clk, h.verified, h.galleys, h.user⟩
theorem Aside.setFld (b : Nat) (f : Fld) (n : Nat) : Aside d (e.setFld b f n) := h.setReg _ _
theorem Aside.raise (b : Nat) (f : Fld) : Aside d (e.raise b f) := h.setReg _ _
theorem Aside.countBy (b : Nat) (f : Fld) (k : Nat) : Aside d (e.countBy b f k) := h.setReg _ _
theorem Aside.count (b : Nat) (f : Fld) : Aside d (e.count b f) := h.setReg _ _
theorem Aside.faultBits (b m : Nat) : Aside d (e.faultBits b m) := (h.setReg _ _).raise _ _
theorem Aside.modLane (n : Nat) (f : LaneRec → LaneRec) : Aside d (e.modLane n f) := ⟨h.kryup, h.clk, h.verified, h.galleys, h.user⟩
theorem Aside.modLink (n : Nat) (f : LinkRec → LinkRec) : Aside d (e.modLink n f) := ⟨h.kryup, h.clk, h.verified, h.galleys, h.user⟩
theorem Aside.modCtl (f : CtlRec → CtlRec) : Aside d (e.modCtl f) := ⟨h.kryup, h.clk, h.verified, h.galleys, h.user⟩
theorem Aside.modMem (f : MemRec → MemRec) : Aside d (e.modMem f) := ⟨h.kryup, h.clk, h.verified, h.galleys, h.user⟩
theorem Aside.modStack (f : StackRec → StackRec) : Aside d (e.modStack f) := ⟨h.kryup, h.clk, h.verified, h.galleys, h.user⟩
theorem Aside.modExt (f : ExtRec → ExtRec) : Aside d (e.modExt f) := ⟨h.kryup, h.clk, h.verified, h.galleys, h.user⟩
theorem Aside.modPins (f : PinRec → PinRec) : Aside d (e.modPins f) := ⟨h.kryup, h.clk, h.verified, h.galleys, h.user⟩
theorem Aside.modPlates (f : PlateRec → PlateRec) : Aside d (e.modPlates f) := ⟨h.kryup, h.clk, h.verified, h.galleys, h.user⟩
theorem Aside.modFabric (f : FabricRec → FabricRec) : Aside d (e.modFabric f) := ⟨h.kryup, h.clk, h.verified, h.galleys, h.user⟩
theorem Aside.modPower (f : PowerRec → PowerRec) : Aside d (e.modPower f) := ⟨h.kryup, h.clk, h.verified, h.galleys, h.user⟩
theorem Aside.modEngine (n : Nat) (f : EngineRec → EngineRec) : Aside d (e.modEngine n f) := ⟨h.kryup, h.clk, h.verified, h.galleys, h.user⟩
theorem Aside.drew : Aside d e.drew := ⟨h.kryup, h.clk, h.verified, h.galleys, h.user⟩
theorem Aside.proof (m : SMap ProofRec) : Aside d { e with proof := m } := ⟨h.kryup, h.clk, h.verified, h.galleys, h.user⟩

/-- A change of the units' timers and sequences. -/
theorem Aside.modUnits {f : UnitsRec → UnitsRec} (hf : (f e.units).user = e.units.user) : Aside d (e.modUnits f) :=
  ⟨h.kryup, h.clk, h.verified, h.galleys, hf.trans h.user⟩

/-- A change of the loader's record but for the verified image. -/
theorem Aside.modLoad {f : LoadRec → LoadRec} (hf : (f e.load).verified = e.load.verified) : Aside d (e.modLoad f) :=
  ⟨h.kryup, h.clk, hf.trans h.verified, h.galleys, h.user⟩

/-- A change of the Strike Port's record but for the decision galleys. -/
theorem Aside.modStrike {f : StrikeRec → StrikeRec} (hf : (f e.strike).galleys = e.strike.galleys) : Aside d (e.modStrike f) :=
  ⟨h.kryup, h.clk, h.verified, hf.trans h.galleys, h.user⟩

theorem Aside.raiseIf (c : Bool) (b : Nat) (f : Fld) : Aside d (e.raiseIf c b f) := by
  unfold Dev.raiseIf
  split
  · exact h.raise _ _
  · exact h

theorem Aside.each {α : Type} (l : List α) {f : Dev → α → Dev} (hf : ∀ x a, Aside d x → Aside d (f x a)) : Aside d (e.each l f) :=
  each_keeps hf l h

omit h in
theorem Aside.ite {c : Prop} [Decidable c] {x y : Dev} (hx : Aside d x) (hy : Aside d y) : Aside d (if c then x else y) := by
  split
  · exact hx
  · exact hy

/-! ## Words of the memory dies -/

theorem Aside.readOver (w p src : Nat) (via : BitVec 266) : Aside d (e.readOver w p src via).1 := by
  have hSec : Aside d (e.countSec (wordColumn w)) := (h.count _ _).raise _ _
  unfold Dev.readOver
  dsimp only
  split
  · split
    · exact hSec
    · dsimp only
      exact hSec.modMem _
  · split
    · unfold Dev.logDed
      exact .ite ((h.count _ _).raise _ _) (((h.count _ _).raise _ _).setReg _ _)
    · exact h

theorem Aside.asks (c bank : Nat) (me : Asker) (x : BankCycle) : Aside d (e.asks c bank me x).1 := by
  unfold Dev.asks
  dsimp only
  exact .modMem (.ite (h.modMem _) h) _

theorem Aside.awaitBank (x : BaseTo) (n : Nat) (l : List PortFound) : Aside d (e.awaitBank x n l).1 := by
  induction l generalizing e n with
  | nil => exact h.asks ..
  | cons f t ih =>
    unfold Dev.awaitBank
    dsimp only
    generalize (if x.relief = true then 8 else wordBank x.word % 8) = bank
    have hAsks := h.asks (wordColumn x.word) bank (.base { user := x.user, waited := n }) f.cycle
    split
    · exact hAsks
    · exact ih hAsks _

theorem Aside.noteMeet (c : Nat) (f : PortFound) (k : Bool) : Aside d (e.noteMeet c f k) := .ite h (h.modStack _)

theorem Aside.putTo (x : BaseTo) (mask : Nat) (v : RowWord) : Aside d (e.putTo x mask v).1 := by
  have hPut {c : Dev} (hc : Aside d c) (p : Nat) (v : RowWord) : Aside d (c.putWord p v) := hc.modMem _
  have hRead : Aside d (e.noteRead x.word x.place x.src) := h.readOver ..
  unfold Dev.putTo
  split
  · exact hPut h _ _
  · dsimp only
    split
    · exact hRead
    · exact hPut hRead _ _

theorem Aside.wearTo (x : BaseTo) (l : List (Nat × Nat)) : Aside d (e.wearTo x l) := by
  have hAt (place : Nat → Nat) : Aside d (e.wearAt place l) := h.each _ fun _ _ hc => hc.modMem _
  unfold Dev.wearTo
  exact .ite (hAt _) (hAt _)

theorem Aside.viaWritten (x : BaseTo) (st : Nat) (f : PortFound) : Aside d (e.viaWritten x st f) := by
  unfold Dev.viaWritten
  dsimp only
  exact .ite (((h.noteMeet ..).count _ _).raise _ _) (.ite ((h.noteMeet ..).modMem _) (h.noteMeet ..))

theorem Aside.baseWrite (u : BaseUser) (w mask : Nat) (v : RowWord) : Aside d (e.baseWrite u w mask v).1 := by
  have hNext (x : BaseTo) : Aside d (e.nextMeet x).1 := by
    unfold Dev.nextMeet
    dsimp only
    exact (h.awaitBank x 0 e.stack.meets).modStack _
  unfold Dev.baseWrite Dev.writeTo
  split
  · exact h
  · split
    · exact h
    · dsimp only
      split
      · exact (hNext _).noteMeet ..
      · exact (((hNext _).wearTo ..).putTo ..).viaWritten ..

/-! ## Lanes -/

theorem Aside.addGap (n : Nat) (g : GapRange) : Aside d (e.addGap n g) := by
  unfold Dev.addGap Dev.rewriteGaps
  dsimp only
  split
  · refine (h.modLane _ _).each _ fun c x hc => ?_
    split
    · exact hc.baseWrite ..
    · exact hc
  · exact h.modLane _ _

theorem Aside.creditDrop (n ver typ len : Nat) : Aside d (e.creditDrop n ver typ len) := by
  have hTake : Aside d (e.creditTake n typ len) := by
    unfold Dev.creditTake
    split
    · exact h
    · exact h.modLink _ _
    · exact h.modLink _ _
  have hBack {x : Dev} (hx : Aside d x) : Aside d (x.creditBack n typ len) := by
    unfold Dev.creditBack
    dsimp only
    split
    · exact hx
    · split
      · exact hx
      · exact hx.modLink _ _
      · exact hx.modLink _ _
  exact .ite (hBack hTake) h

theorem Aside.crcFail (n ver : Nat) (som : Payload) (cross : Nat) : Aside d (e.crcFail n ver som cross) := by
  have hNoted := ((h.count (laneBase n) Reg.CRC_ERR_COUNT.COUNT).raise (laneBase n) Reg.LINK_EVENT.LOSS).creditDrop n ver (somType som)
    (somLen som)
  exact .ite (hNoted.addGap ..) hNoted

theorem Aside.txqStatus (n w st : Nat) : Aside d (e.txqStatus n w st) := by
  unfold Dev.txqStatus
  dsimp only
  have hWord := (h.baseWrite .laneQueue w (2 ^ 10)
    (BitVec.ofNat 256 ((e.wordRead (e.physWord w)).toNat - bitsOf (e.wordRead (e.physWord w)).toNat 80 2 * 2 ^ 80 + st * 2 ^ 80)))
  split
  · exact (hWord.modLink _ _).baseWrite ..
  · exact hWord.modLink _ _

theorem Aside.txEnd (n : Nat) (o : Originator) (sent : Bool) : Aside d (e.txEnd n o sent) := by
  unfold Dev.txEnd
  split
  · exact .ite (h.count _ _) ((h.count _ _).raise _ _)
  · exact h.txqStatus ..
  · exact .ite ((((h.setFld _ _ _).setFld _ _ _).setFld _ _ _).raise _ _) h
  · exact h
  · exact h

theorem Aside.loopEnd (n : Nat) : Aside d (e.loopEnd n) := .ite ((h.setFld _ _ _).raise _ _) h

theorem Aside.linkDown (n : Nat) : Aside d (e.linkDown n) := by
  have hShown := ((((h.loopEnd n).setFld (laneBase n) Reg.LINK_STATE.NEGO 0).setFld (laneBase n) Reg.LINK_STATE.ANNOUNCE_TX 0).setFld
    (laneBase n) Reg.LINK_VER.NEGOTIATED 0).setFld (laneBase n) Reg.AGREED_FEAT.FEATURES 0
  rw [linkDown_eq]
  exact (((hShown.modLink _ _).modCtl _).modLink _ _).each _ fun _ _ hc => hc.txEnd ..

theorem Aside.txDiscard (n : Nat) : Aside d (e.txDiscard n) := (h.modLink _ _).each _ fun _ _ hc => hc.txEnd ..

theorem Aside.rxDrop (n : Nat) (lost : List EbMessage) : Aside d (e.rxDrop n lost) :=
  (((h.modLane _ _).each _ fun _ _ hc => hc.crcFail ..).modLane _ _).setFld _ _ _

theorem Aside.flushHeld (n : Nat) : Aside d (e.flushHeld n) := ((h.modLane _ _).countBy _ _ _).setFld _ _ _

theorem Aside.laneLeaves (n : Nat) : Aside d (e.laneLeaves n) := by
  have hFlush := (((h.flushHeld n).countBy (laneBase n) Reg.LATE_COUNT.COUNT
    ((e.rxMessages n).filter fun m => e.onHardPath n m).length).setFld (laneBase n) Reg.ALIGN_STATUS.LAST 3).rxDrop n
      ((e.rxMessages n).filter fun m => !e.onHardPath n m)
  exact ((((hFlush.setFld _ _ _).setFld _ _ _).linkDown n).txDiscard n).setFld _ _ _ |>.setFld _ _ _

theorem Aside.showRate (n : Nat) : Aside d (e.showRate n) := (h.setFld _ _ _).setFld _ _ _

theorem Aside.beginHunt (n : Nat) (slip : Bool) : Aside d (e.beginHunt n slip) := by
  unfold Dev.beginHunt Dev.setBlk
  exact ((h.setFld _ _ _).setFld _ _ _).modLane _ _

theorem Aside.laneStart (n : Nat) : Aside d (e.laneStart n) := by
  have hHunt {x : Dev} (hx : Aside d x) : Aside d ((x.showRate n).beginHunt n (x.flag (laneBase n) Reg.BLK_CTRL.FORCE_MANUAL)) :=
    (hx.showRate n).beginHunt n _
  unfold Dev.laneStart
  dsimp only
  refine .setFld (.ite (.setFld (.ite (.setFld ?_ _ _ _) ?_) _ _ _) (.ite (.setFld ?_ _ _ _) ?_)) _ _ _ <;>
  · refine hHunt ?_
    exact .ite (.setFld (.modLink (.raiseIf (.modLane (h.modLane _ _) _ _) _ _ _) _ _) _ _ _)
      (.modLink (.raiseIf (.modLane (h.modLane _ _) _ _) _ _ _) _ _)

end

end Sys2Proof.Machine

/-! # The start of a unit disturbs neither Kryup nor the clocks nor the verified image (R67, R72, R380) -/

namespace Sys2Proof.Machine

set_option Elab.async false

/-! ## States of units and bits of registers -/

/-- A field keeps its value where another field is written whose bits lie apart, in the same register or not. -/
theorem fld_setFld_bits {d : Dev} {b c n : Nat} {f g : Fld} (h : f.apart g) : (d.setFld b f n).fld c g = d.fld c g := by
  unfold Dev.fld
  rw [reg_setFld]
  split
  · rename_i hAt
    rw [fget_fset_apart h, hAt]
  · rfl

/-- The galleys above a unit take notice of its state, and no unit's own sequencer moves. -/
theorem refresh_ust (n : Nat) (d : Dev) (b c : Nat) : (d.refresh n b).ust c = d.ust c := by
  induction n generalizing d b with
  | zero => rfl
  | succ n ih =>
    have hStep : ((d.setFld b Reg.STATE.STATE (d.aggregate b).code).raise b Reg.EVENT.STATE_CHANGE).ust c = d.ust c := by
      rw [Dev.ust, Dev.raise, fld_setFld_bits (by decide), fld_setFld_bits (by decide), Dev.ust]
    unfold Dev.refresh
    dsimp only
    split
    · rfl
    · split
      · exact hStep
      · exact (ih _ _).trans hStep

/-- Units whose work in hand, when it is discarded, may be written to memory or ends with tests or plates. -/
def workBlks : List Blk := [.mover, .ring, .stctl, .config]

theorem stateHook_work {d : Dev} {b : Nat} (hb : (unitOf b).blk ∈ workBlks) (old new : UState) : (d.stateHook b old new).ust b = d.ust b := by
  have hProof : d.proofHook b new = d := by
    have hOff : proofOff b = none := by
      unfold proofOff
      simp only [workBlks, List.mem_cons, List.not_mem_nil, or_false] at hb
      rcases hb with hb | hb | hb | hb <;> simp only [hb]
    unfold Dev.proofHook
    rw [hOff]
  unfold Dev.stateHook
  simp only [workBlks, List.mem_cons, List.not_mem_nil, or_false] at hb
  rcases hb with hb | hb | hb | hb <;> simp only [hb, hProof]
  unfold Dev.seeBusy
  split <;> rfl

theorem setUst_work {d : Dev} {b : Nat} (hb : (unitOf b).blk ∈ workBlks) (u : UState) : (d.setUst b u).ust b = u := by
  unfold Dev.setUst
  split
  · assumption
  · rw [refresh_ust, stateHook_work hb, ust_entered]

/-! ## A change of state -/

section
variable {d e : Dev} (h : Aside d e)
include h

theorem Aside.refresh (n b : Nat) : Aside d (e.refresh n b) := h.parts (refresh_parts n e b) (by decide)

theorem Aside.entered (b : Nat) (u : UState) : Aside d (e.entered b u) := by
  unfold Dev.entered
  split
  · exact (h.setFld _ _ _).modUnits rfl
  · exact h.setFld _ _ _
  · exact .ite (((h.setFld _ _ _).setFld _ _ _).modUnits rfl) (h.setFld _ _ _)
  · exact h.modUnits rfl
  · exact h

theorem Aside.fenceNotes (b : Nat) (f : Fld) : Aside d (e.fenceNotes b f) := by
  have hTile (layer : Nat) (x : Dev) (c : Nat) (hx : Aside d x) : Aside d (x.tileRaise layer c f) := .ite hx (hx.raise _ _)
  exact (h.each _ (hTile 2)).each _ (hTile 4)

theorem Aside.loadInit (b : Nat) : Aside d (e.loadInit b) := by
  unfold Dev.loadInit
  exact h.modFabric _

theorem Aside.seeBusy (n : Nat) : Aside d (e.seeBusy n) := .ite (h.modStrike rfl) h

theorem Aside.proofHook (b : Nat) (u : UState) : Aside d (e.proofHook b u) := by
  unfold Dev.proofHook
  split
  · exact h
  · split
    · exact h
    · split
      · exact (h.setReg _ _).proof _
      · exact h
      · exact h
      · exact h.setFld _ _ _
      · exact ((h.setFld _ _ _).setFld _ _ _).setFld _ _ _

theorem Aside.bankHook (b : Nat) (old new : UState) : Aside d (e.bankHook b old new) := by
  unfold Dev.bankHook
  dsimp only
  exact .ite (h.modPins _) (.ite (h.modPins _) h)

/-- A loop that does not leave service tells the clocks nothing. -/
theorem Aside.stateHook {b : Nat} {old new : UState} (hPll : (unitOf b).blk = .pll → old.active = false ∨ new.active = true) :
    Aside d (e.stateHook b old new) := by
  have hp := h.proofHook b new
  unfold Dev.stateHook
  dsimp only
  split
  · exact .ite (hp.laneLeaves _) (.ite (hp.loopEnd _) hp)
  · exact .ite (hp.laneLeaves _) (.ite (hp.loopEnd _) hp)
  · rename_i hb
    have hStays : ¬(old.active && !new.active) = true := by
      rcases hPll hb with hx | hx <;> simp [hx]
    rw [if_neg hStays]
    exact hp
  · exact hp.seeBusy _
  · exact hp.bankHook ..
  · split
    · exact hp
    · exact hp
    · exact hp.modStrike rfl
  · exact .ite (hp.fenceNotes ..) hp
  · exact hp

theorem Aside.setUst {b : Nat} {u : UState} (hPll : (unitOf b).blk = .pll → (e.ust b).active = false ∨ u.active = true) :
    Aside d (e.setUst b u) := by
  unfold Dev.setUst
  exact .ite h ((((h.setFld _ _ _).entered b u).stateHook hPll).refresh _ _)

/-! ## What a start calls upon -/

theorem Aside.requestOn (n k : Nat) : Aside d (e.requestOn n k) := by
  induction n generalizing e k with
  | zero => exact h
  | succ n ih =>
    have hBefore (l : List Nat) : ∀ {x : Dev}, Aside d x → Aside d (l.foldl (fun d p => Dev.requestOn n d p) x) := by
      induction l with
      | nil => exact fun hx => hx
      | cons p ps ihl => exact fun hx => ihl (ih hx p)
    have hRamp {x : Dev} (hx : Aside d x) : Aside d ((x.setFld pdBase (Reg.PD.ON.elem k) 1).beginRamp k) := by
      unfold Dev.beginRamp
      exact .ite (((hx.setFld _ _ _).setFld _ _ _).modPower _) ((hx.setFld _ _ _).modPower _)
    unfold Dev.requestOn
    dsimp only
    exact .ite (hRamp (hBefore _ h)) (hBefore _ h)

theorem Aside.enableOff (b : Nat) : Aside d (e.enableOff b) := by
  unfold Dev.enableOff Dev.holdOn
  split
  · exact (h.setFld _ _ _).requestOn _ _
  · exact h

theorem Aside.groupStart (g : Nat) : Aside d (e.groupStart g) :=
  ((((h.setFld _ _ _).setFld _ _ _).setFld _ _ _).setFld _ _ _).each _ fun _ _ hc => hc.showRate _

theorem Aside.densityMoved (w old new : Nat) : Aside d (e.densityMoved w old new) := .ite h (h.modExt _).drew

theorem Aside.mcStart (w : Nat) : Aside d (e.mcStart w) := by
  have hCfg {x : Dev} (hx : Aside d x) (f : ExtRec → ExtRec) (b : Nat) : Aside d
      ((((x.modExt f).modUnits fun r => { r with loss := r.loss.del b }).setFld b Reg.MC_STATUS.SELF_REFRESH 0).setFld b
        Reg.MC_STATUS.TRAINED 0 |>.setFld b Reg.MC_STATUS.FAULTED 0) :=
    ((((hx.modExt f).modUnits rfl).setFld _ _ _).setFld _ _ _).setFld _ _ _
  unfold Dev.mcStart
  dsimp only
  split
  · exact hCfg (h.densityMoved ..) _ _
  · exact hCfg h _ _

theorem Aside.rebuild (n : Nat) : Aside d (e.rebuild n) := (h.modEngine _ _).seeBusy _

/-- Work that is discarded without a word to memory. -/
theorem Aside.discardWork {b : Nat} (hb : (unitOf b).blk ∉ workBlks) : Aside d (e.discardWork b) := by
  have hLine {x : Dev} (hx : Aside d x) (n : Nat) (l : ExtLine) : Aside d (x.putLine n l) := hx.modExt _
  unfold Dev.discardWork
  split
  · exact h.laneLeaves _
  · exact h.laneLeaves _
  · rename_i hBlk; exact absurd (by rw [hBlk]; decide) hb
  · refine Aside.modExt ?_ _
    unfold Dev.loopLines
    dsimp only
    exact .ite (h.each _ fun _ _ hc => hLine hc _ _) h
  · exact h.modExt _
  · rename_i hBlk; exact absurd (by rw [hBlk]; decide) hb
  · rename_i hBlk; exact absurd (by rw [hBlk]; decide) hb
  · exact h.parts (parts_modSerial e _ _) (by decide)
  · exact .ite (h.modPins _) h
  · rename_i hBlk; exact absurd (by rw [hBlk]; decide) hb
  · exact h

end

end Sys2Proof.Machine

/-! # Units start without disturbing the loaded image (R67, R72, R377 to R382) -/

namespace Sys2Proof.Machine

set_option Elab.async false

/-! ## What a start disturbs not -/

/-- Kryup, the clocks, the verified image and the decision galleys are as they were, and a user unit that was HELD still is. -/
structure Undisturbed (d e : Dev) : Prop where
  kryup : e.kryup = d.kryup
  clk : e.clk = d.clk
  verified : e.load.verified = d.load.verified
  galleys : e.strike.galleys = d.strike.galleys
  held : ∀ b, (d.user b).rel = .held → (e.user b).rel = .held

theorem Aside.undisturbed {d e : Dev} (h : Aside d e) : Undisturbed d e :=
  ⟨h.kryup, h.clk, h.verified, h.galleys, fun b hb => by rwa [Dev.user, h.user]⟩

theorem Undisturbed.refl (d : Dev) : Undisturbed d d := (Aside.refl d).undisturbed

theorem Undisturbed.trans {c d e : Dev} (h1 : Undisturbed c d) (h2 : Undisturbed d e) : Undisturbed c e :=
  ⟨h2.kryup.trans h1.kryup, h2.clk.trans h1.clk, h2.verified.trans h1.verified, h2.galleys.trans h1.galleys,
    fun b hb => h2.held b (h1.held b hb)⟩

theorem Undisturbed.aside {c d e : Dev} (h : Undisturbed c d) (h2 : Aside d e) : Undisturbed c e := h.trans h2.undisturbed

theorem Undisturbed.ite {d x y : Dev} {c : Prop} [Decidable c] (hx : c → Undisturbed d x) (hy : ¬c → Undisturbed d y) :
    Undisturbed d (if c then x else y) := by
  split
  · rename_i hc
    exact hx hc
  · rename_i hc
    exact hy hc

theorem user_modUser (d : Dev) (b c : Nat) (f : UserUnit → UserUnit) :
    (d.modUser b f).user c = d.user c ∨ (d.modUser b f).user c = f (d.user c) := by
  unfold Dev.modUser
  split
  · rename_i u hu
    by_cases hc : c = b
    · subst hc
      right
      have hNow : d.user c = u := by
        rw [Dev.user, SMap.at, hu]
        rfl
      rw [hNow]
      show ((d.units.user.put c (f u)).at c {}) = f u
      rw [SMap.at, SMap.look_put_same]
      rfl
    · left
      show ((d.units.user.put b (f u)).at c {}) = d.units.user.at c {}
      rw [SMap.at, SMap.look_put_other _ hc, SMap.at]
  · exact .inl rfl

section
variable {d e : Dev} (h : Undisturbed d e)
include h

theorem Undisturbed.modUser (b : Nat) {f : UserUnit → UserUnit} (hf : ∀ u, u.rel = .held → (f u).rel = .held) :
    Undisturbed d (e.modUser b f) := by
  have hParts := parts_modUser e b f
  refine h.trans ⟨hParts .kryup (by decide), hParts .clk (by decide), ?_, ?_, fun c hc => ?_⟩
  · rw [show (e.modUser b f).load = e.load from hParts .load (by decide)]
  · rw [show (e.modUser b f).strike = e.strike from hParts .strike (by decide)]
  · obtain hSame | hMade := user_modUser e b c f
    · rw [hSame, hc]
    · rw [hMade]
      exact hf _ hc

/-! ## A start that fails -/

theorem Undisturbed.releaseBack (b : Nat) : Undisturbed d (e.releaseBack b) := by
  have hDrop : Undisturbed d (e.dropRequest b) := h.aside (.ite ((Aside.refl e).modLoad rfl) (.refl e))
  have hBack : Undisturbed d ((((e.dropRequest b).loadInit b).fenceNotes b Reg.TILE_EVENT.FENCE_ENGAGED).modUser b
      fun u => { u with rel := .held, relTarget := none, readySeen := false }) :=
    (hDrop.aside (((Aside.refl _).loadInit b).fenceNotes b _)).modUser b fun _ _ => rfl
  unfold Dev.releaseBack
  dsimp only
  split
  · exact hBack
  · exact hBack
  · exact hDrop.modUser b fun _ hu => hu
  · exact hDrop

theorem Undisturbed.failed {b mask : Nat} (hb : (unitOf b).blk ≠ .pll) :
    Undisturbed d ((((e.releaseBack b).cancelSeq b).faultBits b mask).setUst b .faulted) := by
  refine (h.releaseBack b).aside (.setUst (.faultBits (.modUnits (.refl _) ?_) _ _) fun hPll => absurd hPll hb)
  rfl

theorem Undisturbed.fatal {b : Nat} (mask : Nat) (hb : (unitOf b).blk ≠ .pll) (hWork : e.ust b = .starting ∨ (unitOf b).blk ∉ workBlks) :
    Undisturbed d (e.fatal b mask) := by
  have hPulse : Aside e (e.pulseDiscard b) := .ite ((Aside.refl e).modUnits rfl) (.refl e)
  have hOn : Aside e (if e.ust b = .off then e else e.pulseDiscard b) := .ite (.refl e) hPulse
  have hx : Undisturbed d (if e.ust b = .off then e else e.pulseDiscard b) := h.aside hOn
  unfold Dev.fatal
  dsimp only
  generalize (if e.ust b = .off then e else e.pulseDiscard b) = x at hx
  have hDiscards (hNot : e.ust b ≠ .starting) :
      Undisturbed d (((((x.discardWork b).releaseBack b).cancelSeq b).faultBits b mask).setUst b .faulted) :=
    (hx.aside ((Aside.refl x).discardWork (hWork.resolve_left hNot))).failed hb
  split
  · exact hx
  · exact hx.aside ((Aside.refl x).faultBits _ _)
  · rename_i hState
    exact hDiscards (by rw [hState]; decide)
  · rename_i hState
    exact hDiscards (by rw [hState]; decide)
  · rename_i hState
    exact hDiscards (by rw [hState]; decide)
  · exact hx.failed hb

theorem Undisturbed.startHook (b : Nat) : Undisturbed d (e.startHook b) := by
  have hSame := Aside.refl e
  have hForme : Undisturbed d (if e.load.opened then
      if (e.user b).rel = .held then
        e.modUser b fun u => { u with relTarget := if e.runMode then some (crossAdd e.now e.lead) else none, readySeen := false }
      else e
    else if b = formeBase then
      e.modLoad fun l =>
        { l with requested := true
                 target := if e.runMode && l.verified.isSome && l.target.isNone then some (crossAdd e.now e.lead) else l.target }
    else e) :=
    .ite (fun _ => .ite (fun _ => h.modUser b fun _ hu => hu) fun _ => h) fun _ => .ite (fun _ => h.aside (hSame.modLoad rfl)) fun _ => h
  unfold Dev.startHook
  split
  · exact hForme
  · exact hForme
  · exact h.aside (hSame.laneStart _)
  · exact h.aside (hSame.laneStart _)
  · exact h.aside (hSame.groupStart _)
  · exact h.aside (hSame.mcStart _)
  · exact h.aside (hSame.setFld _ _ _)
  · exact h.aside ((hSame.modUnits rfl).rebuild _)
  · exact .ite (fun _ => h.aside ((hSame.modMem _).setFld _ _ _)) fun _ => h
  · exact h

end

/-! ## ENABLE -/

/-- Units whose start begins with something of their own that may touch their registers are none of those whose work is written out. -/
theorem startHook_work {d : Dev} {b : Nat} (hb : (unitOf b).blk ∈ workBlks) : (d.startHook b).ust b = d.ust b := by
  have hNone (n : Nat) (x : Dev) : (x.seeBusy n).ust b = x.ust b := by
    unfold Dev.seeBusy
    split <;> rfl
  simp only [workBlks, List.mem_cons, List.not_mem_nil, or_false] at hb
  unfold Dev.startHook
  rcases hb with hb | hb | hb | hb <;> simp only [hb]
  exact hNone _ _

theorem startBar_none {d : Dev} {b : Nat} (hb : (unitOf b).blk ∈ Blk.pll :: workBlks) : d.startBar b = none := by
  simp only [workBlks, List.mem_cons, List.not_mem_nil, or_false] at hb
  unfold Dev.startBar
  rcases hb with hb | hb | hb | hb | hb <;> simp only [hb]

/-- A unit that enters STARTING, with what it brings of its own or the cause that bars it. -/
def Dev.begun (d : Dev) (b : Nat) : Dev :=
  let x := (d.setFld b Reg.CTRL.ENABLE 1).setUst b .starting
  match d.startBar b with
  | some mask => x.startFail b mask
  | none => x.startHook b

theorem begun_undisturbed (d : Dev) (b : Nat) : Undisturbed d (d.begun b) := by
  have hSet : Undisturbed d ((d.setFld b Reg.CTRL.ENABLE 1).setUst b .starting) :=
    (((Aside.refl d).setFld b Reg.CTRL.ENABLE 1).setUst fun _ => .inr rfl).undisturbed
  unfold Dev.begun
  dsimp only
  split
  · rename_i mask hBar
    have hNot : (unitOf b).blk ∉ Blk.pll :: workBlks := fun hb => by
      rw [startBar_none hb] at hBar
      cases hBar
    exact hSet.fatal _ (fun hb => hNot (hb ▸ List.mem_cons_self)) (.inr fun hb => hNot (List.mem_cons_of_mem _ hb))
  · exact hSet.startHook b

theorem begun_work {d : Dev} {b : Nat} (hb : (unitOf b).blk ∈ workBlks) : (d.begun b).ust b = .starting := by
  unfold Dev.begun
  dsimp only
  rw [startBar_none (List.mem_cons_of_mem _ hb)]
  exact (startHook_work hb).trans (setUst_work hb _)

theorem begun_pll {d : Dev} {b : Nat} (hb : (unitOf b).blk = .pll) : (d.begun b).units.user = d.units.user := by
  have hSet : Aside d ((d.setFld b Reg.CTRL.ENABLE 1).setUst b .starting) :=
    ((Aside.refl d).setFld b Reg.CTRL.ENABLE 1).setUst fun _ => .inr rfl
  have hHook (x : Dev) : (x.startHook b).units = x.units := by
    unfold Dev.startHook
    rw [hb]
    rfl
  unfold Dev.begun
  dsimp only
  rw [startBar_none (hb ▸ List.mem_cons_self)]
  exact (congrArg UnitsRec.user (hHook _)).trans hSet.user

/-- A unit that has begun, and fails where its image is bad. -/
def Dev.begunWell (d : Dev) (b : Nat) : Dev :=
  if ((d.begun b).units.user.at b {}).badImage then (d.begun b).startFail b 0 else d.begun b

theorem begunWell_undisturbed {d : Dev} {b : Nat} (hImage : (unitOf b).blk = .pll → (d.user b).badImage = false) :
    Undisturbed d (d.begunWell b) := by
  refine .ite (fun hBad => ?_) fun _ => begun_undisturbed d b
  refine (begun_undisturbed d b).fatal _ (fun hb => ?_) ?_
  · rw [begun_pll hb] at hBad
    have := hImage hb
    rw [Dev.user, hBad] at this
    cases this
  · by_cases hb : (unitOf b).blk ∈ workBlks
    · exact .inl (begun_work hb)
    · exact .inr hb

theorem enable_stopped {d : Dev} {b : Nat} (n : Nat) (hb : d.ust b = .stopped) : Dev.enable (n + 1) d b =
    if d.startBarred b then d.ctrlReject b
    else if (d.begunWell b).isGalley b && !(d.begunWell b).seqWaits b && ((d.begunWell b).ust b = .starting) then
      ((((d.begunWell b).modUnits fun r => { r with seq := r.seq.put b {} }).steps b).getD 0 []).foldl
        (fun d c => if (unitOf c).isPrivileged then d else Dev.enable n d c)
        ((d.begunWell b).modUnits fun r => { r with seq := r.seq.put b {} })
    else d.begunWell b := by
  rw [Dev.enable, hb]
  rfl

theorem enable_undisturbed (n : Nat) {d : Dev} {b : Nat} (hImage : (unitOf b).blk = .pll → (d.user b).badImage = false) :
    Undisturbed d (Dev.enable n d b) := by
  induction n generalizing d b with
  | zero => exact .refl d
  | succ n ih =>
    have hSame := Aside.refl d
    have hReject : Undisturbed d (d.ctrlReject b) := (hSame.parts (parts_ctrlReject d b) (by decide)).undisturbed
    have hChildren (l : List Nat) : ∀ {x : Dev}, Undisturbed d x →
        Undisturbed d (l.foldl (fun d c => if (unitOf c).isPrivileged then d else Dev.enable n d c) x) := by
      induction l with
      | nil => exact fun hx => hx
      | cons c cs ihl =>
        refine fun {x} hx => ihl (.ite (fun _ => hx) fun hOpen => hx.trans (ih fun hb => ?_))
        exact absurd (by unfold Unit.isPrivileged; rw [hb]) hOpen
    by_cases hStopped : d.ust b = .stopped
    · rw [enable_stopped n hStopped]
      have hWell := begunWell_undisturbed hImage
      exact .ite (fun _ => hReject) fun _ => .ite (fun _ => hChildren _ (hWell.aside ((Aside.refl _).modUnits rfl))) fun _ => hWell
    · unfold Dev.enable
      split
      · exact ((hSame.setFld _ _ _).enableOff _).undisturbed
      · rename_i hState
        exact absurd hState hStopped
      · exact (hSame.setFld _ _ _).undisturbed
      · exact (hSame.setFld _ _ _).undisturbed
      · exact (hSame.setFld _ _ _).undisturbed
      · exact hReject

end Sys2Proof.Machine

/-! # The units of a verified image take their places (R343, R344, R369, R382) -/

namespace Sys2Proof.Machine

set_option Elab.async false

/-! ## A unit's domain is on -/

theorem faultBits_ust (d : Dev) (b m : Nat) : (d.faultBits b m).ust b = d.ust b := by
  rw [Dev.ust, Dev.faultBits, Dev.raise, fld_setFld_off (o := Reg.EVENT.off) (by decide) rfl,
    fld_setReg_other fun hAt => absurd (Nat.add_left_cancel hAt) (by decide), Dev.ust]

theorem unitOn_undisturbed {d : Dev} {b : Nat} (hImage : (unitOf b).blk = .pll → (d.user b).badImage = false) :
    Undisturbed d (d.unitOn b) := by
  have hSame := Aside.refl d
  unfold Dev.unitOn
  refine .ite (fun hOff => ?_) fun _ => .refl d
  have hActive : (d.ust b).active = false := by
    rw [hOff]
    rfl
  have hStopped : Aside d (d.setUst b .stopped) := hSame.setUst fun _ => .inl hActive
  refine .ite (fun _ => ((hSame.faultBits _ _).setUst fun _ => .inl ?_).undisturbed) fun _ => ?_
  · rw [faultBits_ust]
    exact hActive
  · refine .ite (fun _ => hStopped.undisturbed.trans (enable_undisturbed _ fun hb => ?_)) fun _ => hStopped.undisturbed
    rw [Dev.user, hStopped.user]
    exact hImage hb

/-! ## A unit takes its place -/

/-- The record of a unit of the image. -/
def Dev.declRecord (d : Dev) (decls : List Decl) (u : Decl) : UserUnit :=
  { unitId := if u.base != formeBase then userUnitId u else 0, caps := u.userKind * 2 ^ 16, childTable := tableOf decls u.base
    initPresent := u.initPresent, occL2 := unitColumns decls u 0, occL4 := unitColumns decls u 1, rel := .held
    relTarget := if d.load.opened && d.runMode && decide (d.ust u.base = .starting) then some (crossAdd d.now d.lead) else none }

/-- The unit's record and the registers that show it. -/
def Dev.placed (d : Dev) (decls : List Decl) (u : Decl) : Dev :=
  let shell := u.base != formeBase
  let r := d.declRecord decls u
  let d := d.modUnits fun x => { x with user := x.user.put u.base r }
  let d := if shell then
      (d.setReg (u.base + Reg.UNIT_ID.KIND.off) (BitVec.ofNat 32 r.unitId)).setReg (u.base + Reg.UNIT_CAPS.SPECIFIC.off)
        (BitVec.ofNat 32 r.caps)
    else d
  let d := d.setReg (u.base + Reg.CHILD_INFO.COUNT.off)
    (BitVec.ofNat 32 ((tableOf decls u.base).length % 2 ^ 16 * 2 ^ 16 + if !shell || !u.sort then 0x40 else 0))
  if shell then d.loadInit u.base else d

/-- A unit in its place, with its domain on. -/
def Dev.placedOn (d : Dev) (decls : List Decl) (u : Decl) : Dev :=
  if u.base != formeBase && (d.placed decls u).powered u.base then (d.placed decls u).unitOn u.base else d.placed decls u

theorem declare_eq (d : Dev) (decls : List Decl) (u : Decl) : d.declare decls u =
    if (d.placedOn decls u).shellCauses u.base = 0 ∨ (d.placedOn decls u).ust u.base = .off ∨ (d.placedOn decls u).ust u.base = .faulted then
      d.placedOn decls u
    else (d.placedOn decls u).fatal u.base ((d.placedOn decls u).shellCauses u.base) := rfl

/-- The user records with that of a new unit. -/
def Dev.recorded (d : Dev) (b : Nat) (r : UserUnit) : Dev := d.modUnits fun x => { x with user := x.user.put b r }

theorem user_recorded (d : Dev) (b c : Nat) (r : UserUnit) : (d.recorded b r).user c = if c = b then r else d.user c := by
  show ((d.units.user.put b r).at c {}) = _
  split
  · rename_i hc
    rw [hc, SMap.at, SMap.look_put_same]
    rfl
  · rename_i hc
    rw [SMap.at, SMap.look_put_other _ hc]
    rfl

theorem recorded_undisturbed (d : Dev) (b : Nat) {r : UserUnit} (hr : r.rel = .held) : Undisturbed d (d.recorded b r) := by
  refine ⟨rfl, rfl, rfl, rfl, fun c hc => ?_⟩
  rw [user_recorded]
  split
  · exact hr
  · exact hc

theorem placed_aside (d : Dev) (decls : List Decl) (u : Decl) : Aside (d.recorded u.base (d.declRecord decls u)) (d.placed decls u) := by
  have hShown {x : Dev} (hx : Aside (d.recorded u.base (d.declRecord decls u)) x) (v : Word) :
      Aside (d.recorded u.base (d.declRecord decls u)) (if u.base != formeBase then (x.setReg (u.base + Reg.CHILD_INFO.COUNT.off) v).loadInit u.base
        else x.setReg (u.base + Reg.CHILD_INFO.COUNT.off) v) := .ite ((hx.setReg _ _).loadInit _) (hx.setReg _ _)
  exact hShown (.ite (((Aside.refl _).setReg _ _).setReg _ _) (.refl _)) _

theorem placedOn_undisturbed (d : Dev) (decls : List Decl) (u : Decl) :
    Undisturbed (d.recorded u.base (d.declRecord decls u)) (d.placedOn decls u) := by
  have hPlaced := placed_aside d decls u
  refine .ite (fun _ => hPlaced.undisturbed.trans (unitOn_undisturbed fun _ => ?_)) fun _ => hPlaced.undisturbed
  rw [Dev.user, hPlaced.user]
  show ((d.recorded u.base (d.declRecord decls u)).user u.base).badImage = false
  rw [user_recorded, if_pos rfl]
  rfl

/-- A unit that takes its place is HELD, and so are those that were. -/
theorem declare_undisturbed (d : Dev) (decls : List Decl) (u : Decl) :
    Undisturbed d (d.declare decls u) ∧ ((d.declare decls u).user u.base).rel = .held := by
  have hRest : Undisturbed (d.recorded u.base (d.declRecord decls u)) (d.declare decls u) := by
    rw [declare_eq]
    refine .ite (fun _ => placedOn_undisturbed d decls u) fun hCause => ?_
    have hShell : (unitOf u.base).blk = .shell := by
      by_contra hNot
      exact hCause (.inl (if_neg hNot))
    exact (placedOn_undisturbed d decls u).fatal _ (by rw [hShell]; decide) (.inr (by rw [hShell]; decide))
  refine ⟨(recorded_undisturbed d u.base rfl).trans hRest, hRest.held _ ?_⟩
  rw [user_recorded, if_pos rfl]
  rfl

theorem declares_undisturbed (decls l : List Decl) (d : Dev) :
    Undisturbed d (d.each l fun d u => d.declare decls u) ∧ ∀ u ∈ l, ((d.each l fun d u => d.declare decls u).user u.base).rel = .held := by
  induction l generalizing d with
  | nil => exact ⟨.refl d, fun u hu => absurd hu List.not_mem_nil⟩
  | cons v vs ih =>
    obtain ⟨hOne, hHeld⟩ := declare_undisturbed d decls v
    obtain ⟨hRest, hAll⟩ := ih (d.declare decls v)
    refine ⟨hOne.trans hRest, fun u hu => ?_⟩
    obtain rfl | hu := List.mem_cons.mp hu
    · exact hRest.held _ hHeld
    · exact hAll u hu

/-- What the units of an image leave once all have taken their places. -/
structure AllPlaced (decls : List Decl) (d e : Dev) : Prop where
  kryup : e.kryup = d.kryup
  clk : e.clk = d.clk
  verified : e.load.verified = d.load.verified
  galleys : e.strike.galleys = d.strike.galleys
  held : ∀ u ∈ decls, (e.user u.base).rel = .held

theorem declareAll_placed (d : Dev) (decls : List Decl) : AllPlaced decls d (d.declareAll decls decls) := by
  have hGone : (d.undeclare decls).kryup = d.kryup ∧ (d.undeclare decls).clk = d.clk ∧ (d.undeclare decls).load = d.load ∧
      (d.undeclare decls).strike = d.strike := by
    have hRegs := each_keeps (P := OnlyParts [.regs] d) (f := fun d b => d.resetRegs fun a => decide (b ≤ a ∧ a < b + 0x1000))
      (fun x b hx => hx.trans (parts_resetRegs x _)) (d.units.user.keys.filter fun b => b != formeBase && !decls.any fun u => u.base == b)
      (onlyParts_refl _ d)
    exact ⟨hRegs .kryup (by decide), hRegs .clk (by decide), hRegs .load (by decide), hRegs .strike (by decide)⟩
  obtain ⟨hKryup, hClk, hLoad, hStrike⟩ := hGone
  have hAll : (decls.filter fun u => decls.any fun v => v.base == u.base) = decls :=
    List.filter_eq_self.mpr fun u hu => List.any_eq_true.mpr ⟨u, hu, beq_self_eq_true _⟩
  obtain ⟨hPlaced, hHeld⟩ := declares_undisturbed decls decls (d.undeclare decls)
  unfold Dev.declareAll
  dsimp only
  rw [hAll]
  generalize (d.undeclare decls).each decls (fun d u => d.declare decls u) = x at hPlaced hHeld ⊢
  have hShown : Aside x (x.each decls.reverse fun d u => d.refresh d.depth u.base) := (Aside.refl x).each _ fun _ _ hc => hc.refresh _ _
  have hEnd := hPlaced.aside hShown
  exact ⟨hEnd.kryup.trans hKryup, hEnd.clk.trans hClk, hEnd.verified.trans (by rw [hLoad]), hEnd.galleys.trans (by rw [hStrike]),
    fun u hu => hShown.undisturbed.held _ (hHeld u hu)⟩

end Sys2Proof.Machine

/-! # END of a whole image, and the obligation on stored records, colophons and ends (R360, R362, R369) -/

namespace Sys2Proof.Machine

set_option Elab.async false

/-! ## A staged release keeps the units HELD -/

/-- A user unit that may be given the crossing of its staged release. -/
def Dev.stagedUnit (d : Dev) (e : Nat × UserUnit) : Nat × UserUnit :=
  if e.2.rel = .held ∧ d.ust e.1 = .starting ∧ e.2.relTarget = none then (e.1, { e.2 with relTarget := some (crossAdd d.now d.lead) }) else e

theorem stagedUnit_keeps (d : Dev) (e : Nat × UserUnit) : (d.stagedUnit e).1 = e.1 ∧ (d.stagedUnit e).2.rel = e.2.rel := by
  unfold Dev.stagedUnit
  split <;> exact ⟨rfl, rfl⟩

theorem takeStaged_rel (d : Dev) (b : Nat) : (d.takeStaged.user b).rel = (d.user b).rel := by
  have hLook (l : List (Nat × UserUnit)) : ((lookItem b (l.map d.stagedUnit)).getD {}).rel = ((lookItem b l).getD {}).rel := by
    induction l with
    | nil => rfl
    | cons e es ih =>
      obtain ⟨hKey, hRel⟩ := stagedUnit_keeps d e
      generalize hMade : d.stagedUnit e = m at hKey hRel
      obtain ⟨k, u⟩ := e
      obtain ⟨k', u'⟩ := m
      dsimp only at hKey hRel
      rw [List.map_cons, hMade, lookItem, lookItem, hKey]
      split
      · exact hRel
      · exact ih
  unfold Dev.takeStaged
  split
  · exact hLook d.units.user.items
  · rfl

/-! ## The load ends well -/

/-- The loader shows that the load verified, and stands idle. -/
def Dev.loadEndsWell (d : Dev) : Dev := d.showVerified.closeLoad.enterIdle.takeRequest

/-- What such an end leaves. -/
structure EndsWell (d e : Dev) : Prop where
  kryup : e.kryup = d.kryup
  clk : e.clk = d.clk
  verified : e.load.verified = d.load.verified
  mode : e.load.mode = .idle
  image : e.load.image = none
  galleys : e.strike.galleys = d.strike.galleys
  held : ∀ b, (e.user b).rel = (d.user b).rel
  state : e.fld rootBase Reg.LD_STATUS.STATE = ldVerified
  loaded : e.fld rootBase Reg.LD_EVENT.LOADED = 1

theorem showVerified_shows (d : Dev) : EndsWell d d.showVerified.closeLoad := by
  have hShown : ((d.ldState ldVerified).raise rootBase Reg.LD_EVENT.LOADED).fld rootBase Reg.LD_STATUS.STATE = ldVerified ∧
      ((d.ldState ldVerified).raise rootBase Reg.LD_EVENT.LOADED).fld rootBase Reg.LD_EVENT.LOADED = 1 := by
    refine ⟨?_, fld_raise_same (by decide) (by decide)⟩
    rw [Dev.raise, fld_setFld_clear (by decide), Dev.ldState, fld_setFld_lt (by decide) (by decide)]
  have hBoot (v : Nat) (x : Dev) : (x.setFld rootBase Reg.BOOT_INFO.ENTRY v).fld rootBase Reg.LD_STATUS.STATE = x.fld rootBase Reg.LD_STATUS.STATE ∧
      (x.setFld rootBase Reg.BOOT_INFO.ENTRY v).fld rootBase Reg.LD_EVENT.LOADED = x.fld rootBase Reg.LD_EVENT.LOADED :=
    ⟨fld_setFld_clear (by decide), fld_setFld_clear (by decide)⟩
  have hParts : OnlyParts [.regs] d d.showVerified := by
    unfold Dev.showVerified
    dsimp only
    split <;> simp [Dev.ldState]
  have hRegs : d.showVerified.fld rootBase Reg.LD_STATUS.STATE = ldVerified ∧ d.showVerified.fld rootBase Reg.LD_EVENT.LOADED = 1 := by
    unfold Dev.showVerified
    dsimp only
    split
    · rw [(hBoot _ _).1, (hBoot _ _).2]
      exact hShown
    · exact hShown
  generalize d.showVerified = x at hParts hRegs
  have hUser (b : Nat) : x.user b = d.user b := by rw [Dev.user, show x.units = d.units from hParts .units (by decide), Dev.user]
  refine ⟨hParts .kryup (by decide), hParts .clk (by decide), ?_, rfl, rfl, ?_, fun b => ?_, ?_, ?_⟩
  · show x.load.verified = _
    rw [show x.load = d.load from hParts .load (by decide)]
  · show x.strike.galleys = _
    rw [show x.strike = d.strike from hParts .strike (by decide)]
  · exact congrArg UserUnit.rel (hUser b)
  · rw [Dev.closeLoad, fld_setFld_clear (by decide), fld_modLoad]
    exact hRegs.1
  · rw [Dev.closeLoad, fld_setFld_clear (by decide), fld_modLoad]
    exact hRegs.2

theorem EndsWell.idle {d e : Dev} (h : EndsWell d e) : EndsWell d e.enterIdle := by
  have hMode (n : Nat) (f : Fld) (hf : f.off ∈ [Reg.LD_STATUS.off, Reg.LD_EVENT.LOADED.off]) : (e.setMode n).fld rootBase f = e.fld rootBase f := by
    have hNe (g : Fld) (hg : g.off < 0x1000) : rootBase + f.off ≠ powerBase + g.off := by
      have hLow : f.off < 0x1000 := by
        simp only [List.mem_cons, List.not_mem_nil, or_false] at hf
        rcases hf with hf | hf <;> rw [hf] <;> decide
      simp only [rootBase, powerBase]
      omega
    rw [Dev.setMode, Dev.raise, fld_setFld_other (hNe _ (by decide)), fld_setFld_other (hNe _ (by decide))]
  unfold Dev.enterIdle
  split
  · exact ⟨h.kryup, h.clk, h.verified, h.mode, h.image, h.galleys, h.held, (hMode _ _ (by decide)).trans h.state,
      (hMode _ _ (by decide)).trans h.loaded⟩
  · exact h

theorem EndsWell.request {d e : Dev} (h : EndsWell d e) : EndsWell d e.takeRequest := by
  have hStaged : EndsWell d e.takeStaged := by
    have hRel := takeStaged_rel e
    have hParts : OnlyParts [.units] e e.takeStaged := by
      unfold Dev.takeStaged
      split <;> simp
    have hFld (f : Fld) : e.takeStaged.fld rootBase f = e.fld rootBase f := by
      rw [Dev.fld, Dev.reg, show e.takeStaged.regs = e.regs from hParts .regs (by decide), Dev.fld, Dev.reg]
    have hLoad : e.takeStaged.load = e.load := hParts .load (by decide)
    refine ⟨(hParts .kryup (by decide)).trans h.kryup, (hParts .clk (by decide)).trans h.clk, by rw [hLoad, h.verified], by rw [hLoad, h.mode],
      by rw [hLoad, h.image], ?_, fun b => (hRel b).trans (h.held b), (hFld _).trans h.state, (hFld _).trans h.loaded⟩
    rw [show e.takeStaged.strike = e.strike from hParts .strike (by decide), h.galleys]
  unfold Dev.takeRequest
  dsimp only
  generalize e.takeStaged = x at hStaged
  split
  · exact ⟨hStaged.kryup, hStaged.clk, hStaged.verified, hStaged.mode, hStaged.image, hStaged.galleys, hStaged.held, hStaged.state, hStaged.loaded⟩
  · exact hStaged

theorem loadEndsWell_leaves (d : Dev) : EndsWell d d.loadEndsWell := ((showVerified_shows d).idle).request

end Sys2Proof.Machine

/-! # A whole image verifies (R357, R358, R362, R369) -/

namespace Sys2Proof.Machine

set_option Elab.async false

/-! ## The image that is applied -/

section
variable {d : Dev} {img : Image} {i : Nat} {l : LatencyDecl} (hWhole : partialImage img.colophon = false)
include hWhole

theorem mergedDecls_whole (d : Dev) : d.mergedDecls img = img.decls := by
  unfold Dev.mergedDecls
  rw [hWhole]
  rfl

theorem latencyOf_whole (d : Dev) : d.latencyOf img = img.latency := by
  unfold Dev.latencyOf
  rw [hWhole]
  rfl

theorem takeDecisions_leaves (hLat : img.latency = some (i, l)) (decls : List Decl) :
    (d.takeDecisions img decls).strike.galleys = (decisionUnits decls l).map (·.base) ∧
      OnlyParts [.regs, .strike, .heat] d (d.takeDecisions img decls) := by
  unfold Dev.takeDecisions
  rw [latencyOf_whole hWhole, hLat]
  dsimp only
  exact ⟨rfl, by simp⟩

/-- The checks of the whole image, the ratio apart, hang on the loader's released image and the drive maps alone. -/
theorem wholeCause_congr {e : Dev} (hPlates : e.plates = d.plates) (n : Nat) : e.wholeCause img n = d.wholeCause img n := by
  have hHot (x : Dev) : x.hotColumns img = img.thermal.getD ([], []) := by
    unfold Dev.hotColumns
    rw [hWhole]
    rfl
  unfold Dev.wholeCause
  dsimp only
  rw [mergedDecls_whole hWhole, mergedDecls_whole hWhole, latencyOf_whole hWhole, latencyOf_whole hWhole, hHot, hHot, hPlates]

/-- What the end of a load that is verified leaves. -/
structure Verified (img : Image) (l : LatencyDecl) (d e : Dev) : Prop where
  kryup : e.kryup = d.kryup
  clk : e.clk = d.clk
  verified : e.load.verified = some img
  mode : e.load.mode = .idle
  image : e.load.image = none
  state : e.fld rootBase Reg.LD_STATUS.STATE = ldVerified
  loaded : e.fld rootBase Reg.LD_EVENT.LOADED = 1
  galleys : e.strike.galleys = (decisionUnits img.decls l).map (·.base)
  held : ∀ u ∈ img.decls, (e.user u.base).rel = .held

theorem imageVerified_verified (hLat : img.latency = some (i, l)) (hOnce : d.load.mode ≠ .reapply) (hPins : img.pins = none) :
    Verified img l d (d.imageVerified img) := by
  have hOp : d.imageVerified img =
      (((d.takeDecisions img img.decls).keepImage img img.decls).declareAll img.decls img.decls).loadEndsWell := by
    unfold Dev.imageVerified
    rw [if_neg hOnce, mergedDecls_whole hWhole, hPins]
    rfl
  obtain ⟨hGalleys, hParts⟩ := takeDecisions_leaves (d := d) hWhole hLat img.decls
  have hKept : (d.takeDecisions img img.decls).keepImage img img.decls =
      (d.takeDecisions img img.decls).modLoad fun l => { l with verified := some img } := by
    unfold Dev.keepImage
    rw [hWhole]
    rfl
  have hPlaced := declareAll_placed ((d.takeDecisions img img.decls).modLoad fun l => { l with verified := some img }) img.decls
  rw [hOp, hKept]
  generalize hx : ((d.takeDecisions img img.decls).modLoad fun l => { l with verified := some img }).declareAll img.decls img.decls = x at hPlaced
  have hEnd := loadEndsWell_leaves x
  exact ⟨hEnd.kryup.trans (hPlaced.kryup.trans (hParts .kryup (by decide))), hEnd.clk.trans (hPlaced.clk.trans (hParts .clk (by decide))),
    hEnd.verified.trans hPlaced.verified, hEnd.mode, hEnd.image, hEnd.state, hEnd.loaded, hEnd.galleys.trans (hPlaced.galleys.trans hGalleys),
    fun u hu => (hEnd.held _).trans (hPlaced.held u hu)⟩

/-! ## Step 5 -/

/-- The machine as its ratio is the one that the image needs. -/
def Dev.ratioKept (d : Dev) (l : LatencyDecl) : Dev := d.ratioStored (storedN l.n) l.xbMul 0

omit hWhole in
theorem askRatio_kept (hq : d.quiet = true) (hRef : d.clk.rootRef ≠ 3) (hOk : d.ratioOk d.clk.rootRef l.n l.xbMul = true)
    (hN : l.n = d.clk.ratioN) (hXb : l.xbMul = d.clk.ratioXb) : d.askRatio l.n l.xbMul = d.ratioKept l := by
  have hStored : storedN l.n = l.n := by
    have hFits : 4 ≤ l.n ∧ l.n ≤ 16 ∧ 1 ≤ l.xbMul ∧ l.xbMul ≤ 50 ∧ d.ratioKHz d.clk.rootRef l.n l.xbMul ≤ d.fabLimit := of_decide_eq_true hOk
    exact if_pos ⟨hFits.1, hFits.2.1⟩
  have hJudged : d.judgedRef = d.clk.rootRef := if_neg hRef
  have hClk : (d.ratioStored (storedN l.n) l.xbMul 0).clk = d.clk := by simp [Dev.ratioStored]
  rw [askRatio_eq, hJudged, hStored, hOk, show bit01 (!true) = 0 from rfl, Dev.ratioFollows, ← hStored, hClk, if_pos, dropChange_quiet hq hClk]
  · rfl
  · have hSame : storedN d.clk.ratioN = d.clk.ratioN := hN ▸ hStored
    rw [hN, hXb]
    simp [hSame]

theorem finishLoad_verified (hq : d.quiet = true) (hImage : d.load.image = some img) (hMode : d.load.mode = .stream) {last : Nat}
    (hCause : d.wholeCause img last = (0, 0)) (hLat : img.latency = some (i, l)) (hRef : d.clk.rootRef ≠ 3)
    (hOk : d.ratioOk d.clk.rootRef l.n l.xbMul = true) (hN : l.n = d.clk.ratioN) (hXb : l.xbMul = d.clk.ratioXb) (hActs : img.acts = [])
    (hPins : img.pins = none) : Verified img l d (d.finishLoad last {}) := by
  have hFits : 4 ≤ l.n ∧ l.n ≤ 16 ∧ 1 ≤ l.xbMul ∧ l.xbMul ≤ 50 ∧ d.ratioKHz d.clk.rootRef l.n l.xbMul ≤ d.fabLimit := of_decide_eq_true hOk
  obtain ⟨-, -, hErr, hParts, -, -⟩ := ratioStored_leaves d (n := storedN l.n) (xb := l.xbMul) (err := 0) storedN_lt (by omega) (by decide)
  have hRatio : d.imageRatio img = d.ratioKept l := by
    unfold Dev.imageRatio
    rw [hLat]
    exact (if_neg (by rw [hMode]; decide)).trans (askRatio_kept hq hRef hOk hN hXb)
  change (d.ratioKept l).fld keeperBase Reg.KEEP_STATUS.RATIO_ERR = 0 at hErr
  change OnlyParts [.regs] d (d.ratioKept l) at hParts
  have hRefused : (d.ratioKept l).ratioRefused img = false := by
    unfold Dev.ratioRefused Dev.flag
    rw [hErr]
    simp
  have hLoad : (d.ratioKept l).load = d.load := hParts .load (by decide)
  have hApplied : (d.ratioKept l).applyImage img {} = { dev := d.ratioKept l } := by
    unfold Dev.applyImage
    rw [hActs]
    simp
  have hOp : d.finishLoad last {} = (d.ratioKept l).imageVerified img := by
    unfold Dev.finishLoad
    rw [hImage]
    dsimp only
    rw [hCause]
    dsimp only
    rw [if_neg (by decide), hRatio, hRefused, if_neg (by decide)]
    unfold Dev.withPorts
    rw [if_pos rfl]
    dsimp only
    rw [hApplied]
    dsimp only
    rw [hLoad, hMode, if_neg (by decide)]
  have hEnd := imageVerified_verified (d := d.ratioKept l) hWhole hLat (by rw [hLoad, hMode]; decide) hPins
  rw [hOp]
  exact { hEnd with kryup := hEnd.kryup.trans (hParts .kryup (by decide)), clk := hEnd.clk.trans (hParts .clk (by decide)) }

end

/-! ## What follows the command -/

theorem irqUpdate_parts (d : Dev) : OnlyParts [.ctl, .links] d d.irqUpdate := by
  have hEvent (x : Dev) : OnlyParts [.ctl, .links] x x.sendEvent := by
    unfold Dev.sendEvent Dev.txEnqueue
    dsimp only
    split
    · split
      · exact onlyParts_refl _ x
      · exact (parts_modLink x _ _).mono (by decide)
    · exact onlyParts_refl _ x
  have hCtl (x : Dev) (f : CtlRec → CtlRec) : OnlyParts [.ctl, .links] x (x.modCtl f) := (parts_modCtl x f).mono (by decide)
  unfold Dev.irqUpdate
  dsimp only
  split
  · split
    · exact ((hCtl d _).trans (hEvent _)).trans (hCtl _ _)
    · exact hCtl d _
  · exact onlyParts_refl _ d

/-- Nothing follows a command that offers no cause and takes no loop from under a net but the notice of an event. -/
theorem settle_parts {d : Dev} (hDue : d.kryup.due = []) (hHeld : d.clk.changeHeld = false) (hDown : d.clk.loopsDown = []) :
    OnlyParts [.ctl, .links] d d.settle := by
  unfold Dev.settle
  rw [loopsFall_none hDown, Dev.takeDue, if_pos hDue, heldChange_none hHeld]
  exact irqUpdate_parts d

theorem Verified.settled {img : Image} {l : LatencyDecl} {d e : Dev} (h : Verified img l d e) (hq : d.quiet = true) : Verified img l d e.settle := by
  obtain ⟨hDue, hHeld, hDown, -, -⟩ := d.quiet_iff.mp hq
  have hParts := settle_parts (d := e) (by rw [h.kryup, hDue]) (by rw [h.clk, hHeld]) (by rw [h.clk, hDown])
  have hLoad : e.settle.load = e.load := hParts .load (by decide)
  have hFld (f : Fld) : e.settle.fld rootBase f = e.fld rootBase f := by
    rw [Dev.fld, Dev.reg, show e.settle.regs = e.regs from hParts .regs (by decide), Dev.fld, Dev.reg]
  refine ⟨(hParts .kryup (by decide)).trans h.kryup, (hParts .clk (by decide)).trans h.clk, by rw [hLoad, h.verified], by rw [hLoad, h.mode],
    by rw [hLoad, h.image], (hFld _).trans h.state, (hFld _).trans h.loaded, ?_, fun u hu => ?_⟩
  · rw [show e.settle.strike = e.strike from hParts .strike (by decide), h.galleys]
  · rw [Dev.user, show e.settle.units = e.units from hParts .units (by decide)]
    exact h.held u hu

/-! ## The obligation -/

section
variable {s : State} {flash : List Word} {img : Image} {r : List Word} {i : Nat} {l : LatencyDecl}

theorem end_verifies (hq : s.dev.quiet = true) (hNext : s.dev.nextRecord flash = some (img, r)) (hKind : (recordHead r).kind = 0x7F)
    (hUnit : (recordHead r).unit = 0) (hIndex : s.dev.load.index ≠ 0) (hDepth : s.dev.loadDepth = 0)
    (hGood : s.dev.recordCause img r 0 0 (fun _ => 0) = 0) (hSigned : s.dev.load.signed = true)
    (hEnd : (s.dev.endSeen r).endCause img = (0, s.dev.load.index)) (hMode : s.dev.load.mode = .stream)
    (hWhole : partialImage img.colophon = false) (hCause : s.dev.wholeCause img s.dev.load.index = (0, 0)) (hLat : img.latency = some (i, l))
    (hRef : s.dev.clk.rootRef ≠ 3) (hOk : s.dev.ratioOk s.dev.clk.rootRef l.n l.xbMul = true) (hN : l.n = s.dev.clk.ratioN)
    (hXb : l.xbMul = s.dev.clk.ratioXb) (hActs : img.acts = []) (hPins : img.pins = none) :
    Completes (.endRecord flash {}) s fun e =>
      e.load.verified = some img ∧ e.load.mode = .idle ∧ e.load.image = none ∧ e.fld rootBase Reg.LD_STATUS.STATE = ldVerified ∧
        e.fld rootBase Reg.LD_EVENT.LOADED = 1 ∧ e.strike.galleys = (decisionUnits img.decls l).map (·.base) ∧
        ∀ u ∈ img.decls, (e.user u.base).rel = .held := by
  obtain ⟨hParts, hRegs, hQuiet⟩ := endSeen_leaves s.dev r
  have hLoad := endSeen_load s.dev r
  have hClk : (s.dev.endSeen r).clk = s.dev.clk := hParts .clk (by decide)
  have hModeReg : (s.dev.endSeen r).mode = s.dev.mode := by
    unfold Dev.mode Dev.fld
    rw [hRegs _ (by decide)]
  have hImage : (s.dev.endSeen r).load.image = some img := by
    rw [hLoad]
    exact nextRecord_image hNext
  have hFinish := finishLoad_verified (d := s.dev.endSeen r) (last := s.dev.load.index) hWhole (hQuiet.trans hq) hImage
    (by rw [hLoad]; exact hMode) ((wholeCause_congr hWhole (hParts .plates (by decide)) _).trans hCause) hLat (by rw [hClk]; exact hRef)
    (by rw [ratioOk_congr (hParts .keeper (by decide)) hClk (hParts .ident (by decide)) hModeReg, hClk]; exact hOk)
    (by rw [hClk]; exact hN) (by rw [hClk]; exact hXb) hActs hPins
  refine completes_any (f := opEndRecord flash {}) rfl ?_
  rw [opEndRecord_taken hNext hKind hUnit hIndex hDepth hGood, hSigned, if_pos rfl]
  unfold Dev.endLoad
  rw [hImage]
  dsimp only
  rw [hEnd]
  dsimp only
  rw [if_neg (by decide)]
  have hSettled := hFinish.settled (hQuiet.trans hq)
  exact ⟨hSettled.verified, hSettled.mode, hSettled.image, hSettled.state, hSettled.loaded, hSettled.galleys, hSettled.held⟩

end

/-- Settles O43: a record stored as it arrives is counted and kept, a rejection takes back what was streamed, and END of a whole image declares
its units, none of which a start can make disturb Kryup, the clocks or the image just verified. -/
theorem storedRecordsColophonAndEnd : Obligations.StoredRecordsColophonAndEnd := by
  unfold Obligations.StoredRecordsColophonAndEnd
  refine ⟨fun s flash img r init plate digest owners hQuiet => ?_, fun s flash img r i l hQuiet => ?_⟩
  · have hq : s.dev.quiet = true := hQuiet
    intro d h ws p again lines good counted hNext
    refine ⟨fun hOut hUnit hGood hInit hOnce => initValues_stored hq hNext hOnce hOut hUnit hGood.1 hGood.2 hInit,
      fun hGood hDrives hOnce => driveMap_stored hq hNext hOnce hGood.1 hGood.2 hDrives,
      fun hGood hOnce hStays => plateFrames_stored hq hNext hOnce hGood.1 hGood.2 rfl hStays,
      fun hKind hCrc hKeys hForme => (galleyClose_rejects hq hNext hKind hCrc ⟨hKeys, hForme⟩).imp fun e he => ?_⟩
    obtain ⟨⟨hState, hCause, hIndex, hEvent, hMode⟩, hImage⟩ := he
    exact ⟨hState, hCause, hIndex, hEvent, hImage, hMode⟩
  · have hq : s.dev.quiet = true := hQuiet
    intro d ws c block rejected calm last read signer
    refine ⟨fun hWords hImage => ⟨fun hCause hWhole hMode => colophon_accepted hq rfl hWords hImage hCause hWhole hMode,
        fun hMode hMagic hCalm => colophon_rejects hq hWords hImage hMode hMagic hCalm⟩,
      fun hNext hKind hUnit hIndex hDepth hGood hLast => ⟨fun hMode hSigned => end_waits hNext hq hKind hUnit hIndex hDepth hGood hMode hSigned,
        fun hSigned hOrder hCount hLen hDigest hCalm =>
          end_wrongDigest hNext hq hKind hUnit hIndex hDepth hGood hLast hSigned hOrder hCount hLen hDigest hCalm,
        fun hSigned hEnd hMode hWhole hCause hLat hRef hOk hN hXb hActs hPins _ _ =>
          end_verifies hq hNext hKind hUnit hIndex hDepth hGood hSigned hEnd hMode hWhole hCause hLat hRef hOk hN hXb hActs hPins⟩,
      fun hImage hSigned hWords hEnded => ⟨fun hKey hCalm => signature_unheld hq hImage hSigned hWords hEnded hKey hCalm,
        fun hKey hSigns hCalm => signature_wrong hq hImage hSigned hWords hEnded hKey hSigns hCalm,
        fun hSpi hOpen hKey hSigns => signature_right hq hImage hSigned hWords hSpi hOpen hKey hSigns⟩⟩

end Sys2Proof.Machine

/-! # The one form of the stores, kept by the operations on the state, on memory, pins, plates, links and rings -/

namespace Sys2Proof.Machine

set_option Elab.async false

/-- The T7's stores have their one form: what `Dev.canonical` decides, part by part. -/
structure Dev.Canon (d : Dev) : Prop where
  regs : d.regs.wf resetValue = true
  bytes : d.memWf = true
  lines : d.ext.lines.rising = true

theorem canonical_iff {d : Dev} : d.canonical = true ↔ d.Canon := by
  simp only [Dev.canonical, Bool.and_eq_true]
  exact ⟨fun ⟨⟨hr, hb⟩, hl⟩ => ⟨hr, hb, hl⟩, fun h => ⟨⟨h.regs, h.bytes⟩, h.lines⟩⟩

section Combinators
variable {α β : Type} {c : Prop} {_ : Decidable c} {a b d : Dev}

theorem Dev.Canon.ite (ha : a.Canon) (hb : b.Canon) : (if c then a else b).Canon := by
  split
  · exact ha
  · exact hb

theorem Dev.Canon.iteFst {p q : Dev × β} (hp : p.1.Canon) (hq : q.1.Canon) : (if c then p else q).1.Canon := by
  split
  · exact hp
  · exact hq

theorem Dev.Canon.foldl {f : Dev → α → Dev} {l : List α} (h : d.Canon) (hf : ∀ d x, d.Canon → (f d x).Canon) :
    (l.foldl f d).Canon :=
  List.foldlRecOn (motive := Dev.Canon) l f h fun d hd x _ => hf d x hd

theorem Dev.Canon.foldlFst {f : Dev × β → α → Dev × β} {l : List α} {p : Dev × β} (h : p.1.Canon)
    (hf : ∀ p x, p.1.Canon → (f p x).1.Canon) :
    (l.foldl f p).1.Canon :=
  List.foldlRecOn (motive := fun p : Dev × β => p.1.Canon) l f h fun p hp x _ => hf p x hp

theorem Dev.Canon.pair {x : β} (h : d.Canon) : (d, x).1.Canon := h

theorem Dev.Canon.of_eq {p : Dev × β} {x : β} (hq : p = (d, x)) (h : p.1.Canon) : d.Canon := by
  subst hq
  exact h

/-- A fold whose value is told by an equation; a step is told by one too, so that no check runs it. -/
theorem Dev.Canon.of_foldl {f : Dev × β → α → Dev × β} {l : List α} {p : Dev × β} {x : β} (hq : l.foldl f p = (d, x))
    (h : p.1.Canon) (hf : ∀ p x q, f p x = q → p.1.Canon → q.1.Canon) :
    d.Canon :=
  .of_eq hq (.foldlFst h fun p x => hf p x _ rfl)

end Combinators

section
variable {d : Dev}

/-! ## Machine/Ops -/

theorem Dev.Canon.setReg {a : Nat} {v : Word} (h : d.Canon) : (d.setReg a v).Canon :=
  ⟨regs_wf_setReg h.regs, h.bytes, h.lines⟩

theorem Dev.Canon.setFld {b : Nat} {f : Fld} {n : Nat} (h : d.Canon) : (d.setFld b f n).Canon := h.setReg

theorem Dev.Canon.raise {b : Nat} {f : Fld} (h : d.Canon) : (d.raise b f).Canon := h.setFld

theorem Dev.Canon.raiseIf {c : Bool} {b : Nat} {f : Fld} (h : d.Canon) : (d.raiseIf c b f).Canon := .ite h.raise h

theorem Dev.Canon.countBy {b : Nat} {f : Fld} {k : Nat} (h : d.Canon) : (d.countBy b f k).Canon := h.setFld

theorem Dev.Canon.count {b : Nat} {f : Fld} (h : d.Canon) : (d.count b f).Canon := h.countBy

theorem Dev.Canon.when {c : Bool} {f : Dev → Dev} (h : d.Canon) (hf : ∀ e, e.Canon → (f e).Canon) : (d.when c f).Canon :=
  .ite (hf _ h) h

theorem Dev.Canon.resetRegs {p : Nat → Bool} (h : d.Canon) : (d.resetRegs p).Canon :=
  ⟨regs_wf_resetRegs h.regs, h.bytes, h.lines⟩

theorem Dev.Canon.drew (h : d.Canon) : d.drew.Canon := ⟨h.regs, h.bytes, h.lines⟩

theorem Dev.Canon.faultBits {b mask : Nat} (h : d.Canon) : (d.faultBits b mask).Canon := h.setReg.raise

theorem Dev.Canon.eventBits {b mask : Nat} (h : d.Canon) : (d.eventBits b mask).Canon := h.setReg

theorem Dev.Canon.ctrlReject {b : Nat} (h : d.Canon) : (d.ctrlReject b).Canon := h.raise

theorem Dev.Canon.modLane {n : Nat} {f : LaneRec → LaneRec} (h : d.Canon) : (d.modLane n f).Canon := ⟨h.regs, h.bytes, h.lines⟩

theorem Dev.Canon.modLink {n : Nat} {f : LinkRec → LinkRec} (h : d.Canon) : (d.modLink n f).Canon := ⟨h.regs, h.bytes, h.lines⟩

theorem Dev.Canon.modGroup {g : Nat} {f : GroupRec → GroupRec} (h : d.Canon) : (d.modGroup g f).Canon :=
  ⟨h.regs, h.bytes, h.lines⟩

theorem Dev.Canon.modEngine {e : Nat} {f : EngineRec → EngineRec} (h : d.Canon) : (d.modEngine e f).Canon :=
  ⟨h.regs, h.bytes, h.lines⟩

theorem Dev.Canon.modSerial {i : Nat} {f : SerialRec → SerialRec} (h : d.Canon) : (d.modSerial i f).Canon :=
  ⟨h.regs, h.bytes, h.lines⟩

theorem Dev.Canon.modProof {b : Nat} {f : ProofRec → ProofRec} (h : d.Canon) : (d.modProof b f).Canon :=
  ⟨h.regs, h.bytes, h.lines⟩

theorem Dev.Canon.modPower {f : PowerRec → PowerRec} (h : d.Canon) : (d.modPower f).Canon := ⟨h.regs, h.bytes, h.lines⟩

theorem Dev.Canon.modKeeper {f : KeeperRec → KeeperRec} (h : d.Canon) : (d.modKeeper f).Canon := ⟨h.regs, h.bytes, h.lines⟩

theorem Dev.Canon.modClk {f : ClockRec → ClockRec} (h : d.Canon) : (d.modClk f).Canon := ⟨h.regs, h.bytes, h.lines⟩

theorem Dev.Canon.modPlates {f : PlateRec → PlateRec} (h : d.Canon) : (d.modPlates f).Canon := ⟨h.regs, h.bytes, h.lines⟩

theorem Dev.Canon.modMem {f : MemRec → MemRec} (h : d.Canon) (hf : ∀ m, (f m).bytes = m.bytes) : (d.modMem f).Canon :=
  ⟨h.regs, modMem_wf (hf _) h.bytes, h.lines⟩

theorem Dev.Canon.modMemKeep {f : MemRec → MemRec} (h : d.Canon) (hf : ∀ m, m.bytes.wf (fun _ => 0) → (f m).bytes.wf fun _ => 0) :
    (d.modMem f).Canon :=
  ⟨h.regs, hf _ h.bytes, h.lines⟩

theorem Dev.Canon.modExt {f : ExtRec → ExtRec} (h : d.Canon) (hf : ∀ x, (f x).lines = x.lines) : (d.modExt f).Canon :=
  ⟨h.regs, h.bytes, (congrArg SMap.rising (hf _)).trans h.lines⟩

theorem Dev.Canon.modStrike {f : StrikeRec → StrikeRec} (h : d.Canon) : (d.modStrike f).Canon := ⟨h.regs, h.bytes, h.lines⟩

theorem Dev.Canon.modLoad {f : LoadRec → LoadRec} (h : d.Canon) : (d.modLoad f).Canon := ⟨h.regs, h.bytes, h.lines⟩

theorem Dev.Canon.modHeat {f : HeatRec → HeatRec} (h : d.Canon) : (d.modHeat f).Canon := ⟨h.regs, h.bytes, h.lines⟩

theorem Dev.Canon.modKryup {f : KryupRec → KryupRec} (h : d.Canon) : (d.modKryup f).Canon := ⟨h.regs, h.bytes, h.lines⟩

theorem Dev.Canon.modTest {f : TestRec → TestRec} (h : d.Canon) : (d.modTest f).Canon := ⟨h.regs, h.bytes, h.lines⟩

theorem Dev.Canon.modPins {f : PinRec → PinRec} (h : d.Canon) : (d.modPins f).Canon := ⟨h.regs, h.bytes, h.lines⟩

theorem Dev.Canon.modCtl {f : CtlRec → CtlRec} (h : d.Canon) : (d.modCtl f).Canon := ⟨h.regs, h.bytes, h.lines⟩

theorem Dev.Canon.modUnits {f : UnitsRec → UnitsRec} (h : d.Canon) : (d.modUnits f).Canon := ⟨h.regs, h.bytes, h.lines⟩

theorem Dev.Canon.modStack {f : StackRec → StackRec} (h : d.Canon) : (d.modStack f).Canon := ⟨h.regs, h.bytes, h.lines⟩

theorem Dev.Canon.modFabric {f : FabricRec → FabricRec} (h : d.Canon) : (d.modFabric f).Canon := ⟨h.regs, h.bytes, h.lines⟩

theorem Dev.Canon.modRings {f : RingRec → RingRec} (h : d.Canon) : (d.modRings f).Canon := ⟨h.regs, h.bytes, h.lines⟩

theorem Dev.Canon.modUser {b : Nat} {f : UserUnit → UserUnit} (h : d.Canon) : (d.modUser b f).Canon := by
  unfold Dev.modUser
  split
  · exact ⟨h.regs, h.bytes, h.lines⟩
  · exact h

theorem Dev.Canon.each {α : Type} {l : List α} {f : Dev → α → Dev} (h : d.Canon) (hf : ∀ e x, e.Canon → (f e x).Canon) :
    (d.each l f).Canon :=
  .foldl h hf

/-! ## Machine/Domains -/

theorem Dev.Canon.setPd {k st : Nat} (h : d.Canon) : (d.setPd k st).Canon := h.setFld

theorem Dev.Canon.beginRamp {k : Nat} (h : d.Canon) : (d.beginRamp k).Canon := .ite h.setPd.modPower h.modPower

theorem Dev.Canon.requestOn {n k : Nat} (h : d.Canon) : (Dev.requestOn n d k).Canon := by
  induction n generalizing d k with
  | zero => exact h
  | succ n ih =>
    have hp : ((domainPrereqs k).foldl (fun d p => Dev.requestOn n d p) d).Canon := .foldl h fun _ _ => ih
    exact .ite hp.setFld.beginRamp hp

theorem Dev.Canon.holdOn {k : Nat} (h : d.Canon) : (d.holdOn k).Canon := h.setFld.requestOn

theorem Dev.Canon.busySees {bit : Nat} (h : d.Canon) : (d.busySees bit).Canon := h.modStrike

theorem Dev.Canon.offer {cause : Nat} {detail : Word} (h : d.Canon) : (d.offer cause detail).Canon := h.modKryup

theorem Dev.Canon.breach (h : d.Canon) : d.breach.Canon := .ite h (.ite h.modKeeper.count.raise.offer h.modKeeper.count.raise)

theorem Dev.Canon.checkBudget {g : Nat} (h : d.Canon) : (d.checkBudget g).Canon := by
  unfold Dev.checkBudget
  exact .ite h.raise.breach h

theorem Dev.Canon.freeToken {c : Nat} (h : d.Canon) : (d.freeToken c).Canon := h.modHeat

/-! ## Machine/MemOps -/

theorem Dev.Canon.putWord {p : Nat} {v : RowWord} (h : d.Canon) : (d.putWord p v).Canon :=
  ⟨h.regs, putWord_wf p v h.bytes, h.lines⟩

theorem Dev.Canon.logDed {w : Nat} {relief : Bool} {src : Nat} (h : d.Canon) : (d.logDed w relief src).Canon := by
  unfold Dev.logDed
  exact .ite h h.setReg

theorem Dev.Canon.countSec {c : Nat} (h : d.Canon) : (d.countSec c).Canon := h.count.raise

theorem Dev.Canon.readOver {w p src : Nat} {via : BitVec 266} (h : d.Canon) : (d.readOver w p src via).1.Canon := by
  unfold Dev.readOver
  exact .iteFst (.pair (.ite h.countSec (.modMem h.countSec fun _ => rfl))) (.iteFst (.pair h.count.raise.logDed) (.pair h))

theorem Dev.Canon.noteRead {w p src : Nat} (h : d.Canon) : (d.noteRead w p src).Canon := h.readOver

theorem Dev.Canon.copyBank {src dst home : Nat} (h : d.Canon) : (d.copyBank src dst home).Canon := by
  have hr (l : List Nat) : (d.each l fun d p => d.noteRead (home * 16384 + p % 16384) p srcScrub).Canon :=
    .each h fun _ _ => .noteRead
  exact ⟨(hr _).regs, copyBank_wf src dst home h.bytes, (hr _).lines⟩

theorem Dev.Canon.zeroBank {bank : Nat} (h : d.Canon) : (d.zeroBank bank).Canon :=
  ⟨h.regs, zeroBank_wf bank h.bytes, h.lines⟩

theorem Dev.Canon.showRelief {g bank : Nat} {on : Bool} (h : d.Canon) : (d.showRelief g bank on).Canon := by
  unfold Dev.showRelief
  exact h.setFld.setFld.setFld

theorem Dev.Canon.endRelief {g : Nat} {r : Relief} (h : d.Canon) : (d.endRelief g r).Canon := by
  unfold Dev.endRelief
  exact .ite (.freeToken (.showRelief (.modMem h fun _ => rfl))) (.showRelief (.modMem h fun _ => rfl))

theorem Dev.Canon.windUp {g : Nat} (h : d.Canon) : (d.windUp g).Canon := by
  unfold Dev.windUp
  split
  · exact h
  · exact .ite h (.ite h.endRelief (.modMem h fun _ => rfl))

theorem Dev.Canon.stopTests (h : d.Canon) : d.stopTests.Canon := .modTest (.each h (fun _ _ => .windUp))

theorem Dev.Canon.asks {c bank : Nat} {me : Asker} {x : BankCycle} (h : d.Canon) : (d.asks c bank me x).1.Canon := by
  unfold Dev.asks
  exact .pair (.modMem (.ite (.modMem h fun _ => rfl) h) fun _ => rfl)

theorem Dev.Canon.wearAt {place : Nat → Nat} {upsets : List (Nat × Nat)} (h : d.Canon) : (d.wearAt place upsets).Canon :=
  .each h fun _ _ h' => .modMem h' fun _ => rfl

theorem Dev.Canon.wearRow {w : Nat} {upsets : List (Nat × Nat)} (h : d.Canon) : (d.wearRow w upsets).Canon := h.wearAt

theorem Dev.Canon.awaitBank {x : BaseTo} {n : Nat} {l : List PortFound} (h : d.Canon) : (d.awaitBank x n l).1.Canon := by
  induction l generalizing d n with
  | nil => exact .pair h.asks
  | cons f t ih =>
    rw [Dev.awaitBank]
    split
    rename_i d₁ _ hq₁
    have h₁ : d₁.Canon := .of_eq hq₁ h.asks
    exact .iteFst (.pair h₁) (ih h₁)

theorem Dev.Canon.nextMeet {x : BaseTo} (h : d.Canon) : (d.nextMeet x).1.Canon := by
  unfold Dev.nextMeet
  split
  rename_i d₁ _ _ hq₁
  have h₁ : d₁.Canon := .of_eq hq₁ h.awaitBank
  exact .pair h₁.modStack

theorem Dev.Canon.noteMeet {c : Nat} {f : PortFound} {corrected : Bool} (h : d.Canon) : (d.noteMeet c f corrected).Canon :=
  .ite h h.modStack

theorem Dev.Canon.wearTo {x : BaseTo} {upsets : List (Nat × Nat)} (h : d.Canon) : (d.wearTo x upsets).Canon :=
  .ite h.wearAt h.wearRow

theorem Dev.Canon.readTo {x : BaseTo} (h : d.Canon) : (d.readTo x).1.Canon := by
  unfold Dev.readTo
  refine .iteFst (.pair h) ?_
  extract_lets
  split
  rename_i d₁ _ hq₁
  have h₁ : d₁.Canon := .of_eq hq₁ h.nextMeet
  refine .iteFst (.pair h₁.noteMeet) ?_
  split
  rename_i d₂ _ _ hq₂
  have h₂ : d₂.Canon := .of_eq hq₂ h₁.wearTo.readOver
  exact .pair h₂.noteMeet

theorem Dev.Canon.baseRead {u : BaseUser} {w : Nat} (h : d.Canon) : (d.baseRead u w).1.Canon := h.readTo

theorem Dev.Canon.viaWritten {x : BaseTo} {st : Nat} {f : PortFound} (h : d.Canon) : (d.viaWritten x st f).Canon := by
  unfold Dev.viaWritten
  exact .ite h.noteMeet.countSec (.ite (.modMem h.noteMeet fun _ => rfl) h.noteMeet)

theorem Dev.Canon.putTo {x : BaseTo} {mask : Nat} {v : RowWord} (h : d.Canon) : (d.putTo x mask v).1.Canon :=
  .iteFst (.pair h.putWord) (.iteFst (.pair h.noteRead) (.pair h.noteRead.putWord))

theorem Dev.Canon.writeTo {x : BaseTo} {mask : Nat} {v : RowWord} (h : d.Canon) : (d.writeTo x mask v).1.Canon := by
  unfold Dev.writeTo
  refine .iteFst (.pair h) ?_
  refine .iteFst (.pair h) ?_
  split
  rename_i d₁ _ hq₁
  have h₁ : d₁.Canon := .of_eq hq₁ h.nextMeet
  refine .iteFst (.pair h₁.noteMeet) ?_
  split
  rename_i d₂ _ hq₂
  have h₂ : d₂.Canon := .of_eq hq₂ h₁.wearTo.putTo
  exact .pair h₂.viaWritten

theorem Dev.Canon.baseWrite {u : BaseUser} {w mask : Nat} {v : RowWord} (h : d.Canon) : (d.baseWrite u w mask v).1.Canon :=
  h.writeTo

/-! ## Machine/PinOps -/

theorem Dev.Canon.setPinCfg {p : Nat} {f : Fld} {v : Nat} (h : d.Canon) : (d.setPinCfg p f v).Canon := h.setFld

theorem Dev.Canon.setMux {p f : Nat} (h : d.Canon) : (d.setMux p f).Canon := .ite h.raise (.setFld (.ite h h.modPins))

theorem Dev.Canon.muxWrite {k : Nat} {w : Word} (h : d.Canon) : (d.muxWrite k w).Canon := .each h fun _ _ => .setMux

theorem Dev.Canon.showBank {b : Nat} (h : d.Canon) : (d.showBank b).Canon := h.setFld.setFld

theorem Dev.Canon.setHs {p v : Nat} (h : d.Canon) : (d.setHs p v).Canon := by
  unfold Dev.setHs
  exact .setPinCfg (.ite h.modPins h)

theorem Dev.Canon.pinCfgWrite {p : Nat} {w : Word} (h : d.Canon) : (d.pinCfgWrite p w).Canon := by
  unfold Dev.pinCfgWrite
  exact .ite h.setPinCfg.setPinCfg.setPinCfg.setPinCfg.setHs.setPinCfg h.setPinCfg.setPinCfg.setPinCfg.setPinCfg.setHs.raise

theorem Dev.Canon.driveStrike (h : d.Canon) : d.driveStrike.Canon := .ite h.modStrike h

theorem Dev.Canon.pinsStart (h : d.Canon) : d.pinsStart.Canon := by
  unfold Dev.pinsStart
  exact .each (.each h (fun _ _ => .showBank)) fun _ _ => .setHs

theorem Dev.Canon.applyPins {l : List PinEntry} (h : d.Canon) : (d.applyPins l).Canon := by
  unfold Dev.applyPins
  exact .modLoad (.each h (fun _ _ h' => h'.setMux.setPinCfg.setHs))

theorem Dev.Canon.bankHook {b : Nat} {old new : UState} (h : d.Canon) : (d.bankHook b old new).Canon := by
  unfold Dev.bankHook
  exact .ite h.modPins (.ite h.modPins h)

/-! ## Machine/PlateOps -/

theorem Dev.Canon.setPslot {g s st : Nat} (h : d.Canon) : (d.setPslot g s st).Canon := h.setFld

theorem Dev.Canon.setPslotPlate {g s p : Nat} (h : d.Canon) : (d.setPslotPlate g s p).Canon := h.setFld

theorem Dev.Canon.setStage {s st : Nat} (h : d.Canon) : (d.setStage s st).Canon := h.setFld

theorem Dev.Canon.setStageInfo {s plate valid : Nat} (h : d.Canon) : (d.setStageInfo s plate valid).Canon := h.setFld.setFld

theorem Dev.Canon.slotGood {g s : Nat} (h : d.Canon) : (d.slotGood g s).Canon := h.setPslot

theorem Dev.Canon.slotAbandon {g s : Nat} (h : d.Canon) : (d.slotAbandon g s).Canon := h.setPslot

theorem Dev.Canon.stageInvalid {s g : Nat} (h : d.Canon) : (d.stageInvalid s g).Canon := by
  unfold Dev.stageInvalid
  exact .ite (.ite h.setFld.setStage h.setFld) h

theorem Dev.Canon.setData {c : Option DataCmd} (h : d.Canon) : (d.setData c).Canon := h.modPlates.setFld

theorem Dev.Canon.unpend {g : Nat} (h : d.Canon) : (d.unpend g).Canon := h.modPlates.setFld

theorem Dev.Canon.unpendAll (h : d.Canon) : d.unpendAll.Canon := .each h fun _ _ => .unpend

theorem Dev.Canon.plateAbandon (h : d.Canon) : d.plateAbandon.Canon := by
  unfold Dev.plateAbandon
  extract_lets d₁
  have h₁ : d₁.Canon := by
    unfold d₁
    split
    · exact h.setStage.setStageInfo
    · exact h.setStage.setStageInfo
    · exact .each h fun _ _ h' => .ite h'.slotAbandon h'
    · exact h.slotAbandon
    · exact h
  exact h₁.setData.modPlates.unpendAll

theorem Dev.Canon.slotsLost {g : Nat} (h : d.Canon) : (d.slotsLost g).Canon := by
  unfold Dev.slotsLost
  exact .modPlates (.setFld (.setFld (.each h (fun _ _ => .setPslot))))

/-! ## Machine/Fabric -/

theorem Dev.Canon.loadInit {b : Nat} (h : d.Canon) : (d.loadInit b).Canon := by
  unfold Dev.loadInit
  exact h.modFabric

theorem Dev.Canon.zeroTallies {b : Nat} (h : d.Canon) : (d.zeroTallies b).Canon := h.modFabric

theorem Dev.Canon.fenceMove {before : Dev} {edge : Bool} {g : Nat} (h : d.Canon) : (d.fenceMove before edge g).Canon := by
  unfold Dev.fenceMove
  exact h.modFabric

theorem Dev.Canon.fenceUpdate {before : Dev} {g : Nat} (h : d.Canon) : (d.fenceUpdate before g).Canon := h.fenceMove

/-! ## Machine/LinkOps -/

theorem Dev.Canon.sendBlocks {n : Nat} {bs : List (Bool × Payload)} (h : d.Canon) : (d.sendBlocks n bs).Canon := by
  unfold Dev.sendBlocks
  exact h.modLink

theorem Dev.Canon.sendControl {n : Nat} {p : Payload} (h : d.Canon) : (d.sendControl n p).Canon := .ite h h.sendBlocks.modLink

theorem Dev.Canon.txqStatus {n w st : Nat} (h : d.Canon) : (d.txqStatus n w st).Canon := by
  unfold Dev.txqStatus
  extract_lets
  split
  extract_lets
  split
  · exact h.baseWrite.modLink.baseWrite
  · exact h.baseWrite.modLink

theorem Dev.Canon.remoteEnd {n status : Nat} (h : d.Canon) : (d.remoteEnd n status).Canon := by
  unfold Dev.remoteEnd
  exact h.setFld.setFld.setFld.raise

theorem Dev.Canon.txEnd {n : Nat} {o : Originator} {sent : Bool} (h : d.Canon) : (d.txEnd n o sent).Canon := by
  unfold Dev.txEnd
  split
  · exact .ite h.count h.count.raise
  · exact h.txqStatus
  · exact .ite h.remoteEnd h
  · exact h
  · exact h

theorem Dev.Canon.txEnqueue {n : Nat} {t : TxMsg} (h : d.Canon) : (d.txEnqueue n t).Canon := .ite h.txEnd h.modLink

theorem Dev.Canon.txPurge {n : Nat} (h : d.Canon) : (d.txPurge n).Canon := by
  unfold Dev.txPurge
  exact .each h.modLink fun _ _ => .txEnd

theorem Dev.Canon.txDiscard {n : Nat} (h : d.Canon) : (d.txDiscard n).Canon := by
  unfold Dev.txDiscard
  exact .each h.modLink fun _ _ => .txEnd

theorem Dev.Canon.showFill {n : Nat} (h : d.Canon) : (d.showFill n).Canon := h.setFld

theorem Dev.Canon.flushHeld {n : Nat} (h : d.Canon) : (d.flushHeld n).Canon := by
  unfold Dev.flushHeld
  exact h.modLane.countBy.showFill

theorem Dev.Canon.rewriteGaps {n : Nat} (h : d.Canon) : (d.rewriteGaps n).Canon := by
  unfold Dev.rewriteGaps
  exact .ite (.each h (fun _ _ h' => .ite h'.baseWrite h')) h

theorem Dev.Canon.addGap {n : Nat} {g : GapRange} (h : d.Canon) : (d.addGap n g).Canon := h.modLane.rewriteGaps

theorem Dev.Canon.orphan {n : Nat} (h : d.Canon) : (d.orphan n).Canon := by
  unfold Dev.orphan
  exact h.count.raise.addGap

theorem Dev.Canon.creditBack {n typ len : Nat} (h : d.Canon) : (d.creditBack n typ len).Canon := by
  unfold Dev.creditBack
  refine .ite h ?_
  extract_lets
  split
  · exact h
  · exact h.modLink
  · exact h.modLink

theorem Dev.Canon.creditTake {n typ len : Nat} (h : d.Canon) : (d.creditTake n typ len).Canon := by
  unfold Dev.creditTake
  split
  · exact h
  · exact h.modLink
  · exact h.modLink

theorem Dev.Canon.creditDrop {n ver typ len : Nat} (h : d.Canon) : (d.creditDrop n ver typ len).Canon :=
  .ite h.creditTake.creditBack h

theorem Dev.Canon.crcFail {n ver : Nat} {som : Payload} {cross : Nat} (h : d.Canon) : (d.crcFail n ver som cross).Canon := by
  unfold Dev.crcFail
  exact .ite h.count.raise.creditDrop.addGap h.count.raise.creditDrop

theorem Dev.Canon.rxBreak {n : Nat} (h : d.Canon) : (d.rxBreak n).Canon := by
  unfold Dev.rxBreak
  split
  · exact h.modLane.crcFail
  · exact h.modLane

theorem Dev.Canon.loopEnd {n : Nat} (h : d.Canon) : (d.loopEnd n).Canon := by
  unfold Dev.loopEnd
  exact .ite h.setFld.raise h

theorem Dev.Canon.linkDown {n : Nat} (h : d.Canon) : (d.linkDown n).Canon := by
  unfold Dev.linkDown
  exact h.loopEnd.setFld.setFld.setFld.setReg.modLink.modCtl.txPurge

theorem Dev.Canon.setBlk {n st : Nat} (h : d.Canon) : (d.setBlk n st).Canon := h.setFld

theorem Dev.Canon.beginHunt {n : Nat} {slip : Bool} (h : d.Canon) : (d.beginHunt n slip).Canon := by
  unfold Dev.beginHunt
  exact h.setBlk.setFld.modLane

theorem Dev.Canon.rxDrop {n : Nat} {lost : List EbMessage} (h : d.Canon) : (d.rxDrop n lost).Canon :=
  .setFld (.modLane (.each h.modLane (fun _ _ => .crcFail)))

theorem Dev.Canon.lockLost {n : Nat} (h : d.Canon) : (d.lockLost n).Canon := by
  unfold Dev.lockLost
  exact .ite h.count.raise.rxDrop.beginHunt.linkDown h.setFld

theorem Dev.Canon.laneLeaves {n : Nat} (h : d.Canon) : (d.laneLeaves n).Canon := by
  unfold Dev.laneLeaves
  exact h.flushHeld.countBy.setFld.rxDrop.setBlk.setFld.linkDown.txDiscard.setFld.setFld

/-! ## Machine/ExtOps -/

theorem Dev.Canon.putLine {n : Nat} {l : ExtLine} (h : d.Canon) : (d.putLine n l).Canon := by
  refine ⟨h.regs, h.bytes, ?_⟩
  unfold Dev.putLine Dev.modExt
  dsimp only
  split
  · exact SMap.rising_set _ _ _ h.lines
  · exact SMap.rising_put _ _ h.lines

theorem Dev.Canon.wearLine {n : Nat} {f : Found} (h : d.Canon) : (d.wearLine n f).Canon := .ite h h.putLine

theorem Dev.Canon.cryLog {cls k v st : Nat} (h : d.Canon) : (d.cryLog cls k v st).Canon := .ite h h.setReg.setReg

theorem Dev.Canon.extNote {cls k v st : Nat} (h : d.Canon) : (d.extNote cls k v st).Canon := by
  unfold Dev.extNote
  exact .ite h.count.raise (.ite h.count.raise (.ite h.count.raise (.ite h.count.raise.cryLog.offer (.ite
      h.count.raise.raiseIf.cryLog.offer h))))

theorem Dev.Canon.extRead {cls k v : Nat} {f : Found} {accepted : Bool} (h : d.Canon) : (d.extRead cls k v f accepted).1.Canon := by
  unfold Dev.extRead
  split
  · exact .pair h.extNote
  · exact .pair (.extNote (.ite h.wearLine.putLine h.wearLine))

theorem Dev.Canon.extWriteFull {cls k v : Nat} {poison : Bool} {data : Line} {accepted : Bool} (h : d.Canon) :
    (d.extWriteFull cls k v poison data accepted).1.Canon := by
  unfold Dev.extWriteFull
  split
  · exact .pair h.extNote
  · exact .pair h.putLine

theorem Dev.Canon.extWritePart {cls k v mask : Nat} {data : Line} {f : Found} {accepted : Bool} (h : d.Canon) :
    (d.extWritePart cls k v mask data f accepted).1.Canon := by
  unfold Dev.extWritePart
  split
  · exact .pair h.extNote
  · exact .pair (.extNote (.ite h.wearLine.putLine h.wearLine))

theorem Dev.Canon.dsRead {cls addr need : Nat} {f : Found} {accepted : Bool} (h : d.Canon) :
    (d.dsRead cls addr need f accepted).1.Canon := by
  unfold Dev.dsRead
  extract_lets a half
  have hh {d : Dev} {i : Nat} (h : d.Canon) : (half d i).1.Canon := .iteFst (.pair h) h.baseRead
  split
  · exact .pair h
  · split
    · exact h.extRead
    · split
      rename_i d₁ _ _ hq₁
      have h₁ : d₁.Canon := .of_eq hq₁ (hh h)
      split
      rename_i d₂ _ _ hq₂
      have h₂ : d₂.Canon := .of_eq hq₂ (hh h₁)
      exact .pair h₂

theorem Dev.Canon.dsWrite {cls addr mask : Nat} {poison : Bool} {data : Line} {f : Found} {accepted : Bool} (h : d.Canon) :
    (d.dsWrite cls addr mask poison data f accepted).1.Canon := by
  unfold Dev.dsWrite
  refine .iteFst (.pair h) ?_
  split
  · exact .pair h
  · split
    · exact .iteFst h.extWriteFull h.extWritePart
    · split
      rename_i d₁ _ hq₁
      have h₁ : d₁.Canon := .of_eq hq₁ h.baseWrite
      split
      rename_i d₂ _ hq₂
      have h₂ : d₂.Canon := .of_eq hq₂ h₁.baseWrite
      exact .pair h₂

theorem Dev.Canon.dsRead32 {cls addr : Nat} (h : d.Canon) : (d.dsRead32 cls addr).1.Canon := by
  unfold Dev.dsRead32
  extract_lets
  split
  rename_i d₁ _ _ hq₁
  have h₁ : d₁.Canon := .of_eq hq₁ h.dsRead
  exact .pair h₁

theorem Dev.Canon.dsWrite32 {cls addr : Nat} {w : RowWord} (h : d.Canon) : (d.dsWrite32 cls addr w).1.Canon := by
  unfold Dev.dsWrite32
  exact h.dsWrite

theorem Dev.Canon.fillExt {chans : List Nat} {f : ExtFill} (h : d.Canon) : (d.fillExt chans f).Canon :=
  ⟨h.regs, h.bytes, SMap.rising_keep _ h.lines⟩

theorem Dev.Canon.extLost {w : Nat} (h : d.Canon) : (d.extLost w).Canon := .drew (.modExt h.fillExt fun _ => rfl)

theorem risingFrom_map {α : Type} {f : Nat × α → Nat × α} (hf : ∀ e, (f e).1 = e.1) (l : List (Nat × α)) (lo : Option Nat) :
    risingFrom lo (l.map f) = risingFrom lo l := by
  induction l generalizing lo with
  | nil => rfl
  | cons e t ih =>
    obtain ⟨k, v⟩ := e
    have hk := hf (k, v)
    rcases he : f (k, v) with ⟨k', v'⟩
    rw [he] at hk
    subst hk
    simp only [List.map_cons, he, risingFrom, ih]

theorem Dev.Canon.densityMoved {w old new : Nat} (h : d.Canon) : (d.densityMoved w old new).Canon := by
  refine .ite h (.drew ⟨h.regs, h.bytes, ?_⟩)
  refine (risingFrom_map (fun e => ?_) _ none).trans (risingFrom_filter _ _ none h.lines)
  split <;> rfl

theorem Dev.Canon.loopLines {w : Nat} {poison : Bool} (h : d.Canon) : (d.loopLines w poison).Canon := by
  unfold Dev.loopLines
  split
  exact .ite (.each h (fun _ _ => .putLine)) h

theorem Dev.Canon.extRetain {w : Nat} (h : d.Canon) : (d.extRetain w).Canon := .ite (.modExt h fun _ => rfl) h

theorem Dev.Canon.moverStop {m : Nat} (h : d.Canon) : (d.moverStop m).Canon := .setFld (.modExt h fun _ => rfl)

theorem Dev.Canon.moverErr {m err : Nat} (h : d.Canon) : (d.moverErr m err).Canon := h.moverStop.setFld.raise

theorem Dev.Canon.moverStat {desc st : Nat} (h : d.Canon) : (d.moverStat desc st).1.Canon := by
  unfold Dev.moverStat
  exact h.dsWrite

theorem Dev.Canon.moverAbort {m : Nat} (h : d.Canon) : (d.moverAbort m).Canon := by
  unfold Dev.moverAbort
  split
  · exact h.moverStat.raiseIf.moverErr
  · exact h

theorem Dev.Canon.refuseReqs {b : Nat} (h : d.Canon) : (d.refuseReqs b).Canon := .modExt h fun _ => rfl

/-! ## Machine/RingOps -/

theorem Dev.Canon.putDesc {r : Nat} {x : Desc} (h : d.Canon) : (d.putDesc r x).Canon := h.modRings

theorem Dev.Canon.seeBusy {e : Nat} (h : d.Canon) : (d.seeBusy e).Canon := .ite h.busySees h

theorem Dev.Canon.rebuild {e : Nat} (h : d.Canon) : (d.rebuild e).Canon := by
  unfold Dev.rebuild
  exact h.modEngine.seeBusy

theorem Dev.Canon.treeStruck {e : Nat} {l : List TreeUpset} (h : d.Canon) : (d.treeStruck e l).Canon := .ite h h.modEngine

theorem Dev.Canon.nodeUpdate {e k : Nat} (h : d.Canon) : (d.nodeUpdate e k).Canon := by
  unfold Dev.nodeUpdate
  extract_lets
  split
  · exact h
  · exact .ite h.modEngine.count.raise h.modEngine.modEngine.count.raise.faultBits.seeBusy

theorem Dev.Canon.treeUpdate {r : Nat} (h : d.Canon) : (d.treeUpdate r).Canon := by
  unfold Dev.treeUpdate
  exact .ite h (.each h (fun _ _ h' => .ite h' h'.nodeUpdate))

theorem Dev.Canon.setDesc {r : Nat} {x : Desc} (h : d.Canon) : (d.setDesc r x).Canon := by
  unfold Dev.setDesc
  exact .ite h.putDesc h.putDesc.treeUpdate

theorem Dev.Canon.nodeRebuild {e k : Nat} (h : d.Canon) : (d.nodeRebuild e k).Canon := by
  unfold Dev.nodeRebuild
  exact .ite h h.modEngine

theorem Dev.Canon.treeCycle {e : Nat} (h : d.Canon) : (d.treeCycle e).Canon := .each h fun _ _ => .nodeRebuild

theorem Dev.Canon.ringDead {r : Nat} (h : d.Canon) : (d.ringDead r).Canon := by
  unfold Dev.ringDead
  exact .ite h (.ite h.setDesc.raise.faultBits h.setDesc.raise.faultBits.setReg)

theorem Dev.Canon.descDead {r : Nat} (h : d.Canon) : (d.descDead r).Canon := h.count.ringDead

theorem Dev.Canon.flushRing {r : Nat} (h : d.Canon) : (d.flushRing r).Canon := by
  unfold Dev.flushRing
  exact h.setDesc.modEngine

theorem Dev.Canon.flushFirst {r : Nat} (h : d.Canon) : (d.flushFirst r).Canon := by
  unfold Dev.flushFirst
  exact .ite h.flushRing h

theorem Dev.Canon.jumpFlush {e dest : Nat} (h : d.Canon) : (d.jumpFlush e dest).Canon := by
  unfold Dev.jumpFlush
  exact .ite h h.countBy.raiseIf.modEngine.raise

theorem Dev.Canon.fifoDiscard {e ring n cross : Nat} (h : d.Canon) : (d.fifoDiscard e ring n cross).Canon := by
  unfold Dev.fifoDiscard
  exact h.countBy.raiseIf.modEngine

theorem Dev.Canon.fifoOffer {ring cross : Nat} {ws : List RowWord} (h : d.Canon) : (d.fifoOffer ring cross ws).Canon := by
  unfold Dev.fifoOffer
  exact .ite h.modEngine.seeBusy h.fifoDiscard

theorem Dev.Canon.premLoss {e : Nat} (h : d.Canon) : (d.premLoss e).Canon := by
  unfold Dev.premLoss
  exact h.count.raise

theorem Dev.Canon.slotLost {e : Nat} (h : d.Canon) : (d.slotLost e).Canon := by
  unfold Dev.slotLost
  exact h.count.raise.faultBits

theorem Dev.Canon.ringWrite {r : Nat} {w : RowWord} (h : d.Canon) : (d.ringWrite r w).Canon := by
  unfold Dev.ringWrite
  refine .ite h.flushFirst ?_
  extract_lets
  split
  rename_i d₁ _ hq₁
  have h₁ : d₁.Canon := .of_eq hq₁ (.iteFst h.flushFirst.baseWrite h.flushFirst.dsWrite32)
  split
  · exact .ite h₁.setDesc.seeBusy.premLoss h₁.setDesc.seeBusy
  · exact h₁.ringDead.slotLost
  · exact h₁.slotLost

theorem Dev.Canon.directHit {n cross : Nat} {early late : Bool} {route : Nat} {body : List Payload} (h : d.Canon) :
    (d.directHit n cross early late route body).Canon := by
  unfold Dev.directHit
  exact .ite h (.ite h.count (.ite h (.ite h.fifoOffer (.ite h h.countBy))))

theorem Dev.Canon.acceptTo {e : Nat} {a : Accept} (h : d.Canon) : (d.acceptTo e a).Canon := by
  unfold Dev.acceptTo
  exact .ite h (.ite h.modEngine.seeBusy h.count.raise)

theorem Dev.Canon.rqWrites {base size pos : Nat} {l : List RowWord} (h : d.Canon) : (d.rqWrites base size pos l).1.Canon := by
  induction l generalizing d pos with
  | nil => exact h
  | cons w t ih =>
    unfold Dev.rqWrites
    split
    rename_i d₁ _ hq₁
    have h₁ : d₁.Canon := .of_eq hq₁ h.dsWrite32
    exact .iteFst (ih h₁) (.pair h₁)

/-- The body takes the place of the function before it is applied: the kernel would run one to compare it with the other. -/
theorem Dev.Canon.rqEntry {e : Nat} {f : Frag} (h : d.Canon) : (d.rqEntry e f).Canon := by
  generalize hg : @Dev.rqEntry = g
  generalize hp : g d e f = p
  delta Dev.rqEntry at hg
  subst hg
  beta_reduce at hp
  extract_lets b base wr head at hp
  split at hp
  rename_i d₁ _ hq₁
  have h₁ : d₁.Canon := .of_eq hq₁ h.rqWrites
  exact hp ▸ .ite h₁.setFld.count h₁.count.raise

theorem Dev.Canon.fragOut {e : Nat} {f : Frag} (h : d.Canon) : (d.fragOut e f).Canon := by
  unfold Dev.fragOut
  split
  · exact h.txEnqueue.drew
  · exact h.modEngine

theorem Dev.Canon.ringDiscard {e : Nat} (h : d.Canon) : (d.ringDiscard e).Canon := by
  unfold Dev.ringDiscard
  extract_lets b r n _ _ d₁ d₂
  have h₁ : d₁.Canon := h.countBy.countBy.raiseIf.modEngine
  have h₂ : d₂.Canon := by
    unfold d₂
    split
    · exact h₁
    · exact h₁.fragOut
  exact .each h₂.modEngine fun _ _ h' => .ite h'.rqEntry h'

theorem Dev.Canon.ringReset {e : Nat} (h : d.Canon) : (d.ringReset e).Canon := h.modRings

end

end Sys2Proof.Machine

/-! # The one form of the stores, kept by what units, power, resets, causes and clocks do -/

namespace Sys2Proof.Machine

set_option Elab.async false

section
variable {d : Dev}

/-! ## Machine/Hooks -/

theorem Dev.Canon.pulseDiscard {b : Nat} (h : d.Canon) : (d.pulseDiscard b).Canon := .ite h.modUnits h

theorem Dev.Canon.pulseReset {b : Nat} (h : d.Canon) : (d.pulseReset b).Canon := .ite h.modUnits h

theorem Dev.Canon.discardWork {b : Nat} (h : d.Canon) : (d.discardWork b).Canon := by
  unfold Dev.discardWork
  split
  · exact h.laneLeaves
  · exact h.laneLeaves
  · exact h.moverAbort
  · exact h.loopLines.refuseReqs
  · exact h.refuseReqs
  · exact h.ringDiscard
  · exact h.stopTests
  · exact h.modSerial
  · exact .ite h.modPins h
  · exact .ite h.plateAbandon h.plateAbandon.raise
  · exact h

theorem Dev.Canon.tileRaise {layer c : Nat} {f : Fld} (h : d.Canon) : (d.tileRaise layer c f).Canon := by
  unfold Dev.tileRaise
  exact .ite h h.raise

theorem Dev.Canon.fenceNotes {b : Nat} {f : Fld} (h : d.Canon) : (d.fenceNotes b f).Canon := by
  unfold Dev.fenceNotes
  exact .each (.each h (fun _ _ => .tileRaise)) fun _ _ => .tileRaise

theorem Dev.Canon.dropRequest {b : Nat} (h : d.Canon) : (d.dropRequest b).Canon := .ite h.modLoad h

theorem Dev.Canon.releaseBack {b : Nat} (h : d.Canon) : (d.releaseBack b).Canon := by
  unfold Dev.releaseBack
  extract_lets
  split
  · exact h.dropRequest.loadInit.fenceNotes.modUser
  · exact h.dropRequest.loadInit.fenceNotes.modUser
  · exact h.dropRequest.modUser
  · exact h.dropRequest

theorem Dev.Canon.showRate {n : Nat} (h : d.Canon) : (d.showRate n).Canon := by
  unfold Dev.showRate
  extract_lets
  split
  exact h.setFld.setFld

theorem Dev.Canon.laneStart {n : Nat} (h : d.Canon) : (d.laneStart n).Canon := by
  unfold Dev.laneStart
  extract_lets b _ bad _ d₁ d₂ _ d₃ d₄
  have h₁ : d₁.Canon := h.modLane.modLane.raiseIf.modLink
  have h₂ : d₂.Canon := .ite h₁.setFld h₁
  have h₃ : d₃.Canon := .ite h₂.showRate.beginHunt.setFld h₂.showRate.beginHunt
  have h₄ : d₄.Canon := .ite h₃.setFld h₃
  exact h₄.setFld

theorem Dev.Canon.groupStart {g : Nat} (h : d.Canon) : (d.groupStart g).Canon := by
  unfold Dev.groupStart
  exact .each h.setFld.setFld.setFld.setFld fun _ _ => .showRate

theorem Dev.Canon.mcStart {w : Nat} (h : d.Canon) : (d.mcStart w).Canon := by
  unfold Dev.mcStart
  extract_lets b capacity d₁ d₂
  have h₁ : d₁.Canon := by
    unfold d₁
    split
    · exact h.densityMoved
    · exact h
  have h₂ : d₂.Canon := .modUnits (.modExt h₁ fun _ => rfl)
  exact h₂.setFld.setFld.setFld

theorem Dev.Canon.proofHook {b : Nat} {new : UState} (h : d.Canon) : (d.proofHook b new).Canon := by
  unfold Dev.proofHook
  split
  · exact h
  · refine .ite h ?_
    extract_lets far gen src
    have hs : src.Canon := h.setReg
    split
    · exact ⟨hs.regs, hs.bytes, hs.lines⟩
    · exact h
    · exact h
    · exact h.setFld
    · exact h.setFld.setFld.setFld

theorem Dev.Canon.stateHook {b : Nat} {old new : UState} (h : d.Canon) : (d.stateHook b old new).Canon := by
  unfold Dev.stateHook
  extract_lets
  split
  · exact .ite h.proofHook.laneLeaves (.ite h.proofHook.loopEnd h.proofHook)
  · exact .ite h.proofHook.laneLeaves (.ite h.proofHook.loopEnd h.proofHook)
  · exact .ite (.setReg (.when h.proofHook (fun _ => .modClk))) h.proofHook
  · exact h.proofHook.seeBusy
  · exact h.proofHook.bankHook
  · split
    · exact h.proofHook
    · exact h.proofHook
    · exact h.proofHook.busySees
  · exact .ite h.proofHook.fenceNotes h.proofHook
  · exact h.proofHook

theorem Dev.Canon.startHook {b : Nat} (h : d.Canon) : (d.startHook b).Canon := by
  unfold Dev.startHook
  split
  · exact .ite (.ite h.modUser h) (.ite h.modLoad h)
  · exact .ite (.ite h.modUser h) (.ite h.modLoad h)
  · exact h.laneStart
  · exact h.laneStart
  · exact h.groupStart
  · exact h.mcStart
  · exact h.setFld
  · exact h.modUnits.rebuild
  · exact .ite (.setFld (.modMem h fun _ => rfl)) h
  · exact h

theorem Dev.Canon.drainHook {b : Nat} (h : d.Canon) : (d.drainHook b).Canon := .ite (.each h (fun _ _ => .windUp)) h

theorem Dev.Canon.enableOff {b : Nat} (h : d.Canon) : (d.enableOff b).Canon := by
  unfold Dev.enableOff
  split
  · exact h.holdOn
  · exact h

theorem Dev.Canon.resetRecord {b : Nat} (h : d.Canon) : (d.resetRecord b).Canon := by
  unfold Dev.resetRecord
  extract_lets d₁
  have h₁ : d₁.Canon := ⟨h.regs, h.bytes, h.lines⟩
  split
  · exact .modUser (.loadInit (.ite h₁.fenceNotes h₁))
  · exact h₁.dropRequest.modUser
  · exact ⟨h₁.regs, h₁.bytes, h₁.lines⟩
  · exact ⟨h₁.regs, h₁.bytes, h₁.lines⟩
  · exact .modExt h₁ fun _ => rfl
  · exact h₁.modSerial
  · exact h₁.showBank
  · exact h₁.modGroup
  · exact h₁.modPins
  · exact h₁.setReg.setFld.setFld.modKeeper.modCtl
  · exact h₁.plateAbandon
  · exact .each h₁ fun _ _ h' => h'.setFld.setFld
  · exact .ite h₁.setFld h₁.setFld.setFld
  · exact h₁.modUnits.ringReset
  · exact .ite (.setFld (.modMem h₁ fun _ => rfl)) h₁
  · exact h₁

theorem Dev.Canon.powerLostRecord {b : Nat} (h : d.Canon) : (d.powerLostRecord b).Canon := by
  unfold Dev.powerLostRecord
  exact .ite h.resetRecord.setReg h.resetRecord

/-! ## Machine/Units -/

theorem Dev.Canon.refresh {n b : Nat} (h : d.Canon) : (Dev.refresh n d b).Canon := by
  induction n generalizing d b with
  | zero => exact h
  | succ n ih =>
    refine .ite h ?_
    split
    · exact h.setFld.raise
    · exact ih h.setFld.raise

theorem Dev.Canon.entered {b : Nat} {u : UState} (h : d.Canon) : (d.entered b u).Canon := by
  unfold Dev.entered
  split
  · exact h.setFld.modUnits
  · exact h.setFld
  · exact .ite h.setFld.setFld.modUnits h.setFld
  · exact h.modUnits
  · exact h

theorem Dev.Canon.setUst {b : Nat} {u : UState} (h : d.Canon) : (d.setUst b u).Canon := .ite h h.setFld.entered.stateHook.refresh

theorem Dev.Canon.cancelSeq {b : Nat} (h : d.Canon) : (d.cancelSeq b).Canon := h.modUnits

theorem Dev.Canon.fatal {b mask : Nat} (h : d.Canon) : (d.fatal b mask).Canon := by
  unfold Dev.fatal
  extract_lets s d₁
  have h₁ : d₁.Canon := .ite h h.pulseDiscard
  clear_value s
  split
  · exact h₁
  · exact h₁.faultBits
  · exact h₁.discardWork.releaseBack.cancelSeq.faultBits.setUst
  · exact h₁.discardWork.releaseBack.cancelSeq.faultBits.setUst
  · exact h₁.discardWork.releaseBack.cancelSeq.faultBits.setUst
  · exact h₁.releaseBack.cancelSeq.faultBits.setUst

theorem Dev.Canon.fatalStanding {b mask : Nat} (h : d.Canon) : (d.fatalStanding b mask).Canon := h.modUnits.fatal

theorem Dev.Canon.startFail {b mask : Nat} (h : d.Canon) : (d.startFail b mask).Canon := h.fatal

theorem Dev.Canon.lose {b : Nat} (h : d.Canon) : (d.lose b).Canon := by
  unfold Dev.lose
  exact .ite h.modUnits.setUst h.modUnits

theorem Dev.Canon.ready {b : Nat} (h : d.Canon) : (d.ready b).Canon := .ite h.setUst h

theorem Dev.Canon.empty {b : Nat} (h : d.Canon) : (d.empty b).Canon := .ite h.cancelSeq.setUst h

theorem Dev.Canon.expire {b : Nat} (h : d.Canon) : (d.expire b).Canon :=
  .ite h.discardWork.pulseDiscard.cancelSeq.faultBits.setUst h

theorem Dev.Canon.forceExpire {n b : Nat} (h : d.Canon) : (Dev.forceExpire n d b).Canon := by
  induction n generalizing d b with
  | zero => exact h
  | succ n ih =>
    refine .ite h ?_
    extract_lets d₁
    have h₁ : d₁.Canon := .ite (.foldl h fun _ _ => ih) h
    split
    · exact h₁.releaseBack.setUst.expire
    · exact h₁.releaseBack.setUst.expire
    · exact h₁.releaseBack.setUst.expire
    · exact h₁.expire

theorem Dev.Canon.limitExpired {b : Nat} (h : d.Canon) : (d.limitExpired b).Canon :=
  .ite (.expire (.ite (.foldl h (fun _ _ => .forceExpire)) h)) h

theorem Dev.Canon.enable {n b : Nat} (h : d.Canon) : (Dev.enable n d b).Canon := by
  induction n generalizing d b with
  | zero => exact h
  | succ n ih =>
    unfold Dev.enable
    split
    · exact h.setFld.enableOff
    · refine .ite h.ctrlReject ?_
      extract_lets bar d₁ d₂ d₃ d₄
      have h₂ : d₂.Canon := by
        unfold d₂
        clear_value bar
        split
        · exact h.setFld.setUst.startFail
        · exact h.setFld.setUst.startHook
      have h₃ : d₃.Canon := .ite h₂.startFail h₂
      exact .ite (.foldl h₃.modUnits fun _ _ h' => .ite h' (ih h')) h₃
    · exact h.setFld
    · exact h.setFld
    · exact h.setFld
    · exact h.ctrlReject

theorem Dev.Canon.beginSeq {b : Nat} (h : d.Canon) : (d.beginSeq b).Canon :=
  .ite (.each h.modUnits (fun _ _ h' => .ite h' h'.enable)) h

theorem Dev.Canon.drain {n b : Nat} (h : d.Canon) : (Dev.drain n d b).Canon := by
  induction n generalizing d b with
  | zero => exact h
  | succ n ih =>
    have hs {d : Dev} {l : List Nat} (h : d.Canon) :
        (l.foldl (fun d c => if (unitOf c).isPrivileged then d else Dev.drain n d c) d).Canon :=
      .foldl h fun _ _ h' => .ite h' (ih h')
    unfold Dev.drain
    split
    · exact h.setFld.setFld
    · exact .ite (hs h.releaseBack.setUst.drainHook.modUnits) h.releaseBack.setUst.drainHook
    · exact .ite (hs h.releaseBack.setUst.drainHook.modUnits) h.releaseBack.setUst.drainHook
    · exact .ite (hs h.releaseBack.setUst.drainHook.modUnits) h.releaseBack.setUst.drainHook
    · exact h
    · exact h.setFld.setFld

theorem Dev.Canon.advance {b : Nat} (h : d.Canon) : (d.advance b).Canon := by
  unfold Dev.advance
  split
  · exact h
  · refine .ite h ?_
    refine .ite (.ite (.ite h.empty h) (.each h.modUnits (fun _ _ h' => .ite h' h'.drain))) ?_
    exact .ite h.cancelSeq.setFld.setUst (.ite (.each h.modUnits (fun _ _ h' => .ite h' h'.enable)) (.ite h h.cancelSeq.ready))

theorem Dev.Canon.clearColumn {b : Nat} (h : d.Canon) : (d.clearColumn b).Canon := .ite (.each h (fun _ _ => .setReg)) h

theorem Dev.Canon.resetSelf {b : Nat} (h : d.Canon) : (d.resetSelf b).Canon := by
  unfold Dev.resetSelf
  extract_lets s d₁ d₂ _ d₃
  have h₁ : d₁.Canon := by
    unfold d₁
    clear_value s
    split
    · exact h.discardWork
    · exact h.discardWork
    · exact h.discardWork
    · exact h
  have h₂ : d₂.Canon := h₁.cancelSeq.resetRegs.resetRecord.pulseReset
  have h₃ : d₃.Canon := h₂.setFld.setFld.clearColumn.setReg.setReg
  clear_value s
  split
  · exact h₃
  · exact h₃
  · exact .ite h₃.setUst h₃.faultBits.setUst

theorem Dev.Canon.reset {n b : Nat} (h : d.Canon) : (Dev.reset n d b).Canon := by
  induction n generalizing d b with
  | zero => exact h
  | succ n ih => exact .resetSelf (.ite (.foldl h fun _ _ h' => .ite h' (ih h')) h)

theorem Dev.Canon.unitOff {b : Nat} (h : d.Canon) : (d.unitOff b).Canon := by
  unfold Dev.unitOff
  split
  · exact h
  · extract_lets d₁
    have h₁ : d₁.Canon := by
      unfold d₁
      split
      · exact h.discardWork
      · exact h.discardWork
      · exact h.discardWork
      · exact h
    exact h₁.releaseBack.cancelSeq.resetRegs.powerLostRecord.setUst

theorem Dev.Canon.unitOn {b : Nat} (h : d.Canon) : (d.unitOn b).Canon :=
  .ite (.ite h.faultBits.setUst (.ite h.setUst.enable h.setUst)) h

theorem Dev.Canon.isolate {b : Nat} (h : d.Canon) : (d.isolate b).Canon := .ite h.setUst h

theorem Dev.Canon.unisolate {b : Nat} (h : d.Canon) : (d.unisolate b).Canon := .ite h.resetRegs.resetRecord.setUst h

theorem Dev.Canon.setProof {n b en depth : Nat} (h : d.Canon) : (Dev.setProof n d b en depth).Canon := by
  induction n generalizing d b en depth with
  | zero => exact h
  | succ n ih =>
    have hs : ((d.setFld b Reg.CTRL.PROOF_EN en).setFld b Reg.CTRL.PROOF_DEPTH depth).Canon := h.setFld.setFld
    exact .ite (.ite h h.ctrlReject) (.ite (.foldl hs fun _ _ h' => .ite (ih h') (ih h')) hs)

theorem Dev.Canon.drainWrite {b : Nat} {req : Bool} (h : d.Canon) : (d.drainWrite b req).Canon :=
  .ite h.ctrlReject (.ite (.empty (.ite h.drain.setFld h.drain)) (.ite h.drain.setFld h.drain))

theorem Dev.Canon.ctrlWrite {b : Nat} {w : Word} (h : d.Canon) : (d.ctrlWrite b w).Canon := by
  unfold Dev.ctrlWrite
  refine .ite h ?_
  refine .ite h.ctrlReject ?_
  exact .ite (.drainWrite (.setProof (.ite h.reset h))) (.ite (.enable (.setProof (.ite h.reset h))) (.ite (.setFld (.setProof (.ite
      h.reset h))) (.setProof (.ite h.reset h))))

theorem Dev.Canon.dropAbsent {b major : Nat} (h : d.Canon) : (d.dropAbsent b major).Canon := .each h fun _ _ => .setReg

theorem Dev.Canon.versionWrite {b : Nat} {w : Word} (h : d.Canon) : (d.versionWrite b w).Canon := by
  unfold Dev.versionWrite
  extract_lets
  split
  · exact .ite h.setFld.setFld.setFld.setFld.dropAbsent h.raise
  · exact h.raise

/-! ## Machine/LoadOps -/

theorem Dev.Canon.ldState {st : Nat} (h : d.Canon) : (d.ldState st).Canon := h.setFld

theorem Dev.Canon.closeLoad (h : d.Canon) : d.closeLoad.Canon := h.modLoad.setFld

theorem Dev.Canon.undoStreamed (h : d.Canon) : d.undoStreamed.Canon := by
  unfold Dev.undoStreamed
  split
  · exact h
  · exact .ite h (.modPlates (.modFabric (.each h fun _ _ h' => .ite (.each h'.setStage.setStageInfo fun _ _ h₂ =>
      .ite h₂.setPslot h₂.setPslot.modPlates) h'.setStage.setStageInfo)))

theorem Dev.Canon.loadingFails {part : Bool} (h : d.Canon) : (d.loadingFails part).Canon := by
  unfold Dev.loadingFails
  exact .ite (.each (.each h (fun _ _ h' => .ite h'.startFail h')) (fun _ _ => .modUser)) (.each h (fun _ _ h' => .ite h'.startFail h'))

theorem Dev.Canon.imageReject {cause index : Nat} (h : d.Canon) : (d.imageReject cause index).Canon := by
  unfold Dev.imageReject
  exact .ite h.undoStreamed.closeLoad.ldState.setFld.setFld.raise h.undoStreamed.closeLoad.ldState.setFld.setFld.raise.loadingFails

theorem Dev.Canon.toLoading {b : Nat} (h : d.Canon) : (d.toLoading b).Canon := by
  unfold Dev.toLoading
  exact .modUser (.loadInit (.ite h.fenceNotes h))

theorem Dev.Canon.dropForce (h : d.Canon) : d.dropForce.Canon := by
  unfold Dev.dropForce
  exact .modPlates (.each h.unpendAll (fun _ _ h' => .setFld (.setFld (.each h' (fun _ _ h₂ => .ite h₂.setPslot h₂)))))

theorem Dev.Canon.withdraw (h : d.Canon) : d.withdraw.Canon := by
  unfold Dev.withdraw
  exact .modLoad (.modPlates (.modStrike (.setReg (.setReg (.setReg (.setReg (.each (.dropForce (.each h.modFabric (fun _ _ =>
      .toLoading))) (fun _ _ => .flushHeld))))))))

theorem Dev.Canon.beginLoad {mode : LoadMode} {source path : Nat} {spi : Bool} (h : d.Canon) :
    (d.beginLoad mode source path spi).Canon := by
  unfold Dev.beginLoad
  exact h.modLoad.ldState.setFld.setFld.setFld.setFld

theorem Dev.Canon.ldOpen {path : Nat} (h : d.Canon) : (d.ldOpen path).Canon := .ite h.raise h.beginLoad

theorem Dev.Canon.ldAbort (h : d.Canon) : d.ldAbort.Canon := .ite h h.imageReject

theorem Dev.Canon.ldReapply {path : Nat} (h : d.Canon) : (d.ldReapply path).Canon := by
  unfold Dev.ldReapply
  refine .ite h.raise ?_
  split
  · exact h
  · exact h.beginLoad

theorem Dev.Canon.ldCtrl {path : Nat} {w : Word} (h : d.Canon) : (d.ldCtrl path w).Canon := by
  unfold Dev.ldCtrl
  extract_lets _ d₁ d₂
  have h₁ : d₁.Canon := .ite h.setFld.ldAbort h.setFld
  have h₂ : d₂.Canon := .ite h₁.ldReapply h₁
  exact .ite h₂.ldOpen h₂

theorem Dev.Canon.ldData {path : Nat} {w : Word} (h : d.Canon) : (d.ldData path w).Canon :=
  .ite h.setReg (.ite h.raise h.setReg.countBy.modLoad)

theorem Dev.Canon.takeWords {n : Nat} (h : d.Canon) : (d.takeWords n).Canon := .ite h.modLoad h.countBy

/-! ## Machine/Power -/

theorem Dev.Canon.fillKeys (h : d.Canon) : d.fillKeys.Canon := by
  unfold Dev.fillKeys
  exact .foldl (.modExt h fun _ => rfl) fun _ _ => .setReg

theorem Dev.Canon.zeroise (h : d.Canon) : d.zeroise.Canon := by
  unfold Dev.zeroise
  exact .ite (.foldl (.modExt (.raise (.modExt h fun _ => rfl)) fun _ => rfl) (fun _ _ => .setReg)) (.raise (.modExt h fun _ => rfl))

theorem Dev.Canon.storageLost {k : Nat} (h : d.Canon) : (d.storageLost k).Canon := by
  unfold Dev.storageLost
  refine .ite (⟨h.regs, h.bytes, h.lines⟩) ?_
  refine .ite h.modCtl.resetRegs.modLoad.modTest ?_
  refine .ite h.plateAbandon ?_
  refine .ite h.modStrike ?_
  refine .ite (.ite h h.extLost) ?_
  refine .ite (.modExt h fun _ => rfl) ?_
  refine .ite (⟨h.regs, h.bytes, h.lines⟩) ?_
  refine .ite (.modMemKeep h fun _ => SMap.wf_keep _) ?_
  exact .ite (.each h.modPlates (fun _ _ h' => .each h' (fun _ _ => .stageInvalid))) (.ite (.modFabric (.modPlates (.each h (fun _ _ =>
      .slotsLost)))) h)

theorem Dev.Canon.unitsLost {k : Nat} (h : d.Canon) : (d.unitsLost k).Canon :=
  .each (.each h (fun _ _ => .unitOff)) fun _ _ => .unitOff

theorem Dev.Canon.domainLost {k : Nat} (h : d.Canon) : (d.domainLost k).Canon := h.unitsLost.storageLost

theorem Dev.Canon.domainYields {k : Nat} (h : d.Canon) : (d.domainYields k).Canon := by
  unfold Dev.domainYields
  exact .storageLost (.ite (.each h.unitsLost (fun _ _ => .fenceMove)) h.unitsLost)

theorem Dev.Canon.turnOff {k : Nat} (h : d.Canon) : (d.turnOff k).Canon := by
  unfold Dev.turnOff
  exact .modPower (.setFld (.setFld (.setFld (.setPd (.ite (.ite h.extRetain h) (.domainYields (.ite h.extRetain h)))))))

theorem Dev.Canon.domainBack {k : Nat} (h : d.Canon) : (d.domainBack k).Canon :=
  .ite h.setFld (.ite h.fillKeys (.ite h.setFld (.ite h.modGroup.setFld (.ite h.pinsStart (.ite h.driveStrike h)))))

theorem Dev.Canon.domainGood {k : Nat} (h : d.Canon) : (d.domainGood k).Canon :=
  .ite (.each (.each (.each h.setPd.setFld.modPower.domainBack (fun _ _ => .unitOn)) (fun _ _ h' => .ite h'.unitOn h')) (fun _ _ h' =>
    .ite h'.beginRamp h')) h

theorem Dev.Canon.domainFault {k : Nat} (h : d.Canon) : (d.domainFault k).Canon := by
  unfold Dev.domainFault
  exact .modPower (.setFld (.setPd (.ite h.domainLost h)))

/-! ## Machine/Resets -/

theorem Dev.Canon.showLatches (h : d.Canon) : d.showLatches.Canon := h.setFld.setFld

theorem Dev.Canon.setLatch {c : Nat} {v : Bool} (h : d.Canon) : (d.setLatch c v).Canon := h.setFld

theorem Dev.Canon.kryLog {c : Nat} {detail : Word} (h : d.Canon) : (d.kryLog c detail).Canon := by
  unfold Dev.kryLog
  exact h.modKryup.setReg

theorem Dev.Canon.loadPolicy {ws : List Word} (h : d.Canon) : (d.loadPolicy ws).Canon := .foldl h fun _ _ => .setReg

theorem Dev.Canon.burnRepair {w : Word} (h : d.Canon) : (d.burnRepair w).Canon := by
  unfold Dev.burnRepair
  exact .ite h.setReg.modPins h.setReg.raise

theorem Dev.Canon.kryWrite {p : Nat × Word} (h : d.Canon) : (d.kryWrite p).Canon := by
  unfold Dev.kryWrite
  refine .ite h.burnRepair ?_
  split
  · exact h.setReg
  · exact h

theorem Dev.Canon.kryupStart (h : d.Canon) : (d.kryupStart).1.Canon := by
  unfold Dev.kryupStart
  extract_lets d₁
  have h₁ : d₁.Canon := by
    unfold d₁
    split
    · exact .ite (.each h (fun _ _ => .kryWrite)) h
    · exact h
  split
  rename_i d₂ _ _ hq₂
  have h₂ : d₂.Canon := by
    refine .of_eq hq₂ (.iteFst ?_ (.pair h₁))
    split
    · exact .pair h₁.modKryup.setFld.setFld.setFld
    · extract_lets d₃ d₄
      have h₃ : d₃.Canon := .setFld (.each h₁.modKryup.setFld fun _ _ => .kryWrite)
      exact .pair (.ite h₃.modKryup h₃)
  exact .pair (.ite h₂.loadPolicy.setFld (.ite h₂.setFld.modKryup.setFld.modClk h₂.setFld))

theorem Dev.Canon.showIdent (h : d.Canon) : d.showIdent.Canon := by
  unfold Dev.showIdent
  exact h.setFld.setFld.setFld.setFld.setFld.setFld.setFld

theorem Dev.Canon.deviceReset {last cause : Nat} (h : d.Canon) : (d.deviceReset last cause).1.Canon := by
  unfold Dev.deviceReset
  extract_lets tripped trip k submitted d₁ src n₁ n₂ n₃ n₄ n₅ n₆
  have h₁ : d₁.Canon := .foldl h fun _ _ h' => .ite h' h'.extLost
  have h₂ : n₁.Canon := ⟨rfl, rfl, h₁.lines⟩
  have h₃ : n₃.Canon := h₂.showIdent.setReg
  have h₄ : n₄.Canon := .ite h₃.setFld h₃
  exact h₄.setFld.setFld.setFld.setFld.kryupStart

theorem Dev.Canon.warmUnit {b : Nat} (h : d.Canon) : (d.warmUnit b).Canon := by
  unfold Dev.warmUnit
  extract_lets s d₁ d₂
  have h₁ : d₁.Canon := by
    unfold d₁
    clear_value s
    split
    · exact h.discardWork
    · exact h.discardWork
    · exact h.discardWork
    · exact h
  have h₂ : d₂.Canon := h₁.clearColumn.cancelSeq.resetRecord.resetRegs
  exact .ite h₂ (.ite h₂.setFld.refresh h₂.setFld.faultBits.setUst)

theorem Dev.Canon.warmReset (h : d.Canon) : d.warmReset.Canon := by
  unfold Dev.warmReset
  refine .ite h ?_
  extract_lets _ d₁ _ _ d₂ d₃
  have h₁ : d₁.Canon := .each h.countBy fun _ _ => .warmUnit
  have h₂ : d₂.Canon := h₁.modCtl.modKryup.setFld.setFld
  have h₃ : d₃.Canon := .ite h₂.setFld h₂.imageReject
  exact h₃.raise

/-! ## Machine/Causes -/

theorem Dev.Canon.sendAlarms {cause : Nat} {detail : Word} (h : d.Canon) : (d.sendAlarms cause detail).Canon :=
  .ite h (.each h (fun _ _ h' => .ite h'.sendControl h'))

theorem Dev.Canon.resetDomains {mask : Nat} (h : d.Canon) : (d.resetDomains mask).Canon := by
  unfold Dev.resetDomains
  exact .each (.each h (fun _ _ h' => .ite h'.raise h'.turnOff)) fun _ _ h' => .ite h'.requestOn h'

theorem Dev.Canon.causeActions {cause : Nat} {detail : Word} (h : d.Canon) : (d.causeActions cause detail).Canon := by
  unfold Dev.causeActions
  exact .ite (.zeroise (.ite (.sendAlarms (.ite h.kryLog h)) (.ite h.kryLog h))) (.ite (.sendAlarms (.ite h.kryLog h)) (.ite h.kryLog
      h))

theorem Dev.Canon.raiseCauses {n : Nat} {cs : List (Nat × Word)} (h : d.Canon) : (Dev.raiseCauses n d cs).Canon := by
  induction n generalizing d cs with
  | zero => exact h
  | succ n ih =>
    unfold Dev.raiseCauses
    extract_lets _ d₁ d₂
    have h₁ : d₁.Canon := .each h fun _ _ h' => h'.setLatch.modKryup
    have h₂ : d₂.Canon := .showLatches (.each h₁ fun _ _ => .causeActions)
    split
    · split
      rename_i d₃ _ hq₃
      have h₃ : d₃.Canon := .of_eq hq₃ h₂.deviceReset
      split
      · exact ih h₃
      · exact h₃
    · exact .ite h₂.warmReset (.each h₂ fun _ _ => .resetDomains)

theorem Dev.Canon.raiseCause {cause detail : Nat} (h : d.Canon) : (d.raiseCause cause detail).Canon := h.raiseCauses

theorem Dev.Canon.resetDevice {last : Nat} (h : d.Canon) : (d.resetDevice last).Canon := by
  unfold Dev.resetDevice
  split
  rename_i d₁ _ hq₁
  have h₁ : d₁.Canon := .of_eq hq₁ h.deviceReset
  split
  · exact h₁.raiseCause
  · exact h₁

/-! ## Machine/Events -/

theorem Dev.Canon.sendEvent (h : d.Canon) : d.sendEvent.Canon := by
  unfold Dev.sendEvent
  exact .ite h.txEnqueue h

theorem Dev.Canon.irqUpdate (h : d.Canon) : d.irqUpdate.Canon := .ite (.ite h.modCtl.sendEvent.modCtl h.modCtl) h

/-! ## Machine/ClockOps -/

theorem Dev.Canon.showSources (h : d.Canon) : d.showSources.Canon := by
  unfold Dev.showSources
  exact h.setFld.setFld.setFld.setFld

theorem Dev.Canon.fioStart (h : d.Canon) : d.fioStart.Canon := h.modClk.setFld.showSources

theorem Dev.Canon.setActive {r : Nat} (h : d.Canon) : (d.setActive r).Canon := h.setFld.setFld

theorem Dev.Canon.rootSeeks {r ref : Nat} (h : d.Canon) : (d.rootSeeks r ref).Canon := h.setFld.setFld.setFld.setFld

theorem Dev.Canon.pllLost {p : Nat} (h : d.Canon) : (d.pllLost p).Canon := by
  unfold Dev.pllLost
  exact .fatal (.setFld (.ite h.count h))

theorem Dev.Canon.setSeq {trunk : Bool} {q : NetSeq} (h : d.Canon) : (d.setSeq trunk q).Canon :=
  .ite h.modClk.setFld h.modClk.setFld

theorem Dev.Canon.setSrc {trunk : Bool} {s : NetSrc} (h : d.Canon) : (d.setSrc trunk s).Canon := h.setFld

theorem Dev.Canon.netMove {n : Nat} {trunk : Bool} (h : d.Canon) : (Dev.netMove n d trunk).Canon := by
  induction n generalizing d trunk with
  | zero => exact h
  | succ n ih =>
    exact .ite h (.ite (.raiseIf (.setSeq (.setSrc (.ite h.setActive h)))) (.ite h.setSeq (.ite h (ih (.setSeq (.ite h.modClk h))))))

theorem Dev.Canon.netRequest {trunk : Bool} {dest : NetSrc} (h : d.Canon) : (d.netRequest trunk dest).Canon := h.setSeq

theorem Dev.Canon.netTrip {trunk : Bool} {s : NetSrc} (h : d.Canon) : (d.netTrip trunk s).Canon := by
  unfold Dev.netTrip
  extract_lets
  split
  · exact .ite (.netRequest (.ite h.modClk h)) h
  · exact .ite (.netRequest (.ite h.modClk h)) h
  · exact .ite (.setSeq (.ite h.modClk h)) h
  · exact .ite (.netMove (.setSeq (.ite h.modClk h))) h
  · exact .ite (.netMove (.setSeq (.ite h.modClk h))) h
  · exact h

theorem Dev.Canon.fioWaiters {stable : Bool} (h : d.Canon) : (d.fioWaiters stable).Canon :=
  .foldl h fun _ _ h' => .ite h'.setSrc.setSeq.raiseIf h'

theorem Dev.Canon.retune {ref n xb : Nat} (h : d.Canon) : (d.retune ref n xb).Canon := by
  unfold Dev.retune
  exact .ite h (.setFld (.modKeeper (.modClk (.each h (fun _ _ => .rootSeeks)))))

theorem Dev.Canon.seekFirst {c : Relock} (h : d.Canon) : (d.seekFirst c).Canon := h.rootSeeks.modClk.setSeq

theorem Dev.Canon.beginChange {ref : Nat} {up : Bool} (h : d.Canon) : (d.beginChange ref up).Canon := by
  unfold Dev.beginChange
  extract_lets
  split
  refine .ite h.setFld ?_
  refine .ite (.ite h.setFld.seekFirst (.ite h.setFld.modClk.netRequest h.setFld.raise)) ?_
  refine .ite h.setFld.retune ?_
  split
  · exact h.setFld.seekFirst
  · exact h.setFld.raise

theorem Dev.Canon.askChange {ref : Nat} {up : Bool} (h : d.Canon) : (d.askChange ref up).Canon := .ite h.raise h.beginChange

theorem Dev.Canon.askRatio {asked xb : Nat} (h : d.Canon) : (d.askRatio asked xb).Canon := by
  unfold Dev.askRatio
  exact .ite h.setFld.setFld.setFld.modClk (.ite h.setFld.setFld.setFld.modClk h.setFld.setFld.setFld.askChange)

theorem Dev.Canon.rootsMoved (h : d.Canon) : d.rootsMoved.Canon := by
  unfold Dev.rootsMoved
  split
  · exact h
  · extract_lets o d₁
    have h₁ : d₁.Canon := .ite h (.ite h.setFld (.ite h.rootSeeks h))
    exact .ite h₁.raiseIf.modClk.setFld h₁.raiseIf.modClk.setFld.modKeeper.setFld

theorem Dev.Canon.clockFault {inst : Nat} (h : d.Canon) : (d.clockFault inst).Canon := h.offer

theorem Dev.Canon.abandonChange (h : d.Canon) : d.abandonChange.Canon := .ite h.modClk.setSeq h

theorem Dev.Canon.rootDown {a : Nat} (h : d.Canon) : (d.rootDown a).Canon :=
  .ite h.setActive.raise.offer.breach (.breach (.ite (.offer (.ite h h.abandonChange.netTrip)) (.clockFault (.ite h
    h.abandonChange.netTrip))))

theorem Dev.Canon.idleRootDown {r : Nat} (h : d.Canon) : (d.idleRootDown r).Canon := by
  unfold Dev.idleRootDown
  exact .clockFault (.ite (.netTrip (.raiseIf (.ite h.abandonChange h))) (.raiseIf (.ite h.abandonChange h)))

theorem Dev.Canon.loopsFall (h : d.Canon) : d.loopsFall.Canon :=
  .ite h (.each h.modClk (fun _ _ h' => .ite h' (.ite h'.netTrip.clockFault h'.rootDown)))

theorem Dev.Canon.heldChange (h : d.Canon) : d.heldChange.Canon := .ite h.modClk.beginChange h

theorem Dev.Canon.takeDue (h : d.Canon) : d.takeDue.Canon := .ite h h.modKryup.raiseCauses.modKryup

theorem Dev.Canon.settle (h : d.Canon) : d.settle.Canon := h.loopsFall.takeDue.heldChange.irqUpdate

end

end Sys2Proof.Machine

/-! # The one form of the stores, kept by columns, control space, pins, repair and plates -/

namespace Sys2Proof.Machine

set_option Elab.async false

section
variable {d : Dev}

/-! ## Machine/Columns -/

theorem Dev.Canon.colEach {c : Nat} {f : Dev → Nat → Dev} (h : d.Canon) (hf : ∀ e x, e.Canon → (f e x).Canon) :
    (d.colEach c f).Canon :=
  .each h hf

theorem Dev.Canon.colBit {c bit : Nat} (h : d.Canon) : (d.colBit c bit).Canon := .colEach h fun _ _ => .faultBits

theorem Dev.Canon.colLose {c bit : Nat} (h : d.Canon) : (d.colLose c bit).Canon := .colEach h fun _ _ h' => h'.faultBits.lose

theorem Dev.Canon.colFatal {c bit : Nat} (h : d.Canon) : (d.colFatal c bit).Canon :=
  .colEach h fun _ _ h' => h'.faultBits.fatalStanding.refresh

theorem Dev.Canon.fenceColumn {c kind galleyCause : Nat} (h : d.Canon) : (d.fenceColumn c kind galleyCause).Canon := by
  unfold Dev.fenceColumn
  exact .each (.ite h.modStack (.ite (.breach (.foldl h.modStack (fun _ _ => .tileRaise))) (.foldl h.modStack (fun _ _ =>
      .tileRaise)))) fun _ _ => .fatal

theorem Dev.Canon.repLog {w0 origin result : Nat} (h : d.Canon) : (d.repLog w0 origin result).Canon := by
  unfold Dev.repLog
  exact h.modTest

theorem Dev.Canon.clocksLost {c : Nat} (h : d.Canon) : (d.clocksLost c).Canon := by
  unfold Dev.clocksLost
  exact h.setFld.raise.fenceColumn.colFatal

theorem Dev.Canon.clockViaFail {c : Nat} (h : d.Canon) : (d.clockViaFail c).Canon := by
  unfold Dev.clockViaFail
  extract_lets
  split
  · exact h.setFld.setFld.setFld.fenceColumn.raise.colBit.repLog
  · exact h.setFld.clocksLost.repLog

theorem Dev.Canon.portLost {c cls : Nat} (h : d.Canon) : (d.portLost c cls).Canon := by
  unfold Dev.portLost
  exact h.setFld.raise.fenceColumn.colFatal

theorem Dev.Canon.viaOpen {c cls bundle via : Nat} (h : d.Canon) : (d.viaOpen c cls bundle via).Canon := by
  unfold Dev.viaOpen
  exact h.modStack

theorem Dev.Canon.spareRules {c cls bundle : Nat} (h : d.Canon) : (d.spareRules c cls bundle).Canon := by
  unfold Dev.spareRules
  exact .ite h (.ite (.ite h h.setFld.setFld.raise.colLose) h.portLost)

theorem Dev.Canon.sparesAtRelease (h : d.Canon) : d.sparesAtRelease.Canon := .each h fun _ _ => .spareRules

theorem Dev.Canon.viaTake {c cls bundle via : Nat} (h : d.Canon) : (d.viaTake c cls bundle via).1.Canon := by
  unfold Dev.viaTake
  exact .iteFst (.pair (.ite h.modStack.setFld.setFld h.modStack.setFld)) (.pair h.viaOpen)

theorem Dev.Canon.viaFailedBy {origin c cls bundle via : Nat} (h : d.Canon) : (d.viaFailedBy origin c cls bundle via).Canon := by
  unfold Dev.viaFailedBy
  refine .ite h.modStack ?_
  split
  rename_i d₁ _ hq₁
  have h₁ : d₁.Canon := .of_eq hq₁ h.modStack.viaTake
  exact .ite h₁.repLog.setReg.raise h₁.repLog.spareRules

theorem Dev.Canon.viaFailed {c cls bundle via : Nat} (h : d.Canon) : (d.viaFailed c cls bundle via).Canon := h.viaFailedBy

theorem Dev.Canon.viaError {c cls bundle via : Nat} (h : d.Canon) : (d.viaError c cls bundle via).Canon := by
  unfold Dev.viaError
  exact .ite h.modStack.viaFailed h.modStack

theorem Dev.Canon.viaErrors {c cls : Nat} {vias : List (Nat × Nat)} {corrected : Nat → Bool} (h : d.Canon) :
    (d.viaErrors c cls vias corrected).Canon :=
  .each h fun _ _ => .viaError

theorem Dev.Canon.parityFail {c : Nat} (h : d.Canon) : (d.parityFail c).Canon := h.raise.colBit

theorem Dev.Canon.portsIn {ports : List PortFound} (h : d.Canon) : (d.portsIn ports).Canon := h.modStack

theorem Dev.Canon.portsOut {old : StackRec} (h : d.Canon) : (d.portsOut old).Canon :=
  .each h.modStack (fun _ _ h' => .viaErrors (.ite h'.parityFail h'))

theorem Dev.Canon.withPorts {ports : List PortFound} {f : Dev → Dev} (h : d.Canon) (hf : ∀ e, e.Canon → (f e).Canon) :
    (d.withPorts ports f).Canon :=
  .ite (hf _ h) (.portsOut (hf _ h.portsIn))

theorem Dev.Canon.bankDies {c bank : Nat} (h : d.Canon) : (d.bankDies c bank).Canon := by
  unfold Dev.bankDies
  exact .ite h h.setFld.raise.colLose

theorem Dev.Canon.showSpares {bank : Nat} (h : d.Canon) : (d.showSpares bank).Canon := .ite h h.setFld.setFld

theorem Dev.Canon.takeSpare {bank pos : Nat} {line : Bool} (h : d.Canon) : (d.takeSpare bank line pos).1.Canon := by
  unfold Dev.takeSpare
  refine .iteFst (.pair (.showSpares (.modMem h fun _ => ?_))) (.pair h)
  split <;> rfl

/-! ## Machine/Ctl -/

theorem Dev.Canon.complete {path st : Nat} {data : Word} (h : d.Canon) : (d.complete path st data).Canon := h.modCtl

theorem Dev.Canon.finish {path st : Nat} {data : Word} (h : d.Canon) : (d.finish path st data).Canon := h.modCtl

theorem Dev.Canon.accErr {path addr : Nat} (h : d.Canon) : (d.accErr path addr).Canon := by
  unfold Dev.accErr
  exact .ite h.setReg h.setReg.setReg

theorem Dev.Canon.refuse {path addr st : Nat} (h : d.Canon) : (d.refuse path addr st).Canon := h.accErr.finish

theorem Dev.Canon.perform {path addr : Nat} {f : Dev → Dev × Nat × Word} (h : d.Canon) (hf : ∀ e, e.Canon → (f e).1.Canon) :
    (d.perform path addr f).Canon := by
  unfold Dev.perform
  refine .ite h.refuse ?_
  refine .ite h.accErr.finish ?_
  split
  rename_i d₁ _ _ hq₁
  have h₁ : d₁.Canon := .of_eq hq₁ (hf _ h)
  exact .finish (.ite h₁ h₁.accErr)

theorem Dev.Canon.wakeFor {path addr : Nat} (h : d.Canon) : (d.wakeFor path addr).Canon := by
  unfold Dev.wakeFor
  refine .ite h ?_
  refine .ite h.holdOn ?_
  split
  · exact .ite h h.modPower
  · exact h

theorem Dev.Canon.enqueue {a : Access} (h : d.Canon) : (d.enqueue a).Canon := h.wakeFor.modCtl

theorem Dev.Canon.arrive {a : Access} {f : Dev → Dev × Nat × Word} (h : d.Canon) (hf : ∀ e, e.Canon → (f e).1.Canon) :
    (d.arrive a f).Canon :=
  .ite (.perform h hf) h.enqueue

theorem Dev.Canon.viaRead {path addr : Nat} {f : Dev → Dev × Nat × Word} (h : d.Canon) (hf : ∀ e, e.Canon → (f e).1.Canon) :
    (d.viaRead path addr f).Canon :=
  .arrive h hf

theorem Dev.Canon.viaWord {path addr : Nat} {w : Word} {f : Dev → Dev} (h : d.Canon) (hf : ∀ e, e.Canon → (f e).Canon) :
    (d.viaWord path addr w f).Canon :=
  .arrive h (fun _ h' => .pair (hf _ h'))

theorem Dev.Canon.viaCtl {path addr : Nat} {l : List (Fld × Nat)} {f : Dev → Dev} (h : d.Canon)
    (hf : ∀ e, e.Canon → (f e).Canon) :
    (d.viaCtl path addr l f).Canon :=
  .viaWord h hf

theorem Dev.Canon.kwCause {path addr : Nat} (h : d.Canon) : (d.kwCause path addr).Canon := h.raiseCause

theorem Dev.Canon.viaKw {path addr : Nat} {w : Word} {f : Dev → Dev} (h : d.Canon) (hf : ∀ e, e.Canon → (f e).Canon) :
    (d.viaKw path addr w f).Canon :=
  .arrive h (fun _ h' => .iteFst (.pair (hf _ h')) (.pair h'.kwCause))

theorem Dev.Canon.storeRw {addr : Nat} {w : Word} (h : d.Canon) : (d.storeRw addr w).Canon := by
  unfold Dev.storeRw
  split
  · exact h
  · split
    · exact h
    · exact h.setReg

/-! ## Machine/PinCmds -/

theorem Dev.Canon.pinSense {p : Nat} {old : Bool} (h : d.Canon) : (d.pinSense p old).Canon := by
  unfold Dev.pinSense
  exact .ite h.setFld h

theorem Dev.Canon.pinChange {l : List Nat} {f : Dev → Dev} (h : d.Canon) (hf : ∀ e, e.Canon → (f e).Canon) :
    (d.pinChange l f).Canon := by
  unfold Dev.pinChange
  exact .each (hf _ h) fun _ _ => .pinSense

theorem Dev.Canon.opPinIrq {p : Fin 320} {level : Bool} (h : d.Canon) : (opPinIrq p level d).Canon :=
  .pinChange h fun _ => .modPins

theorem Dev.Canon.opPinMuxWrite {path : Fin 8} {k : Fin 40} {value : Word} (h : d.Canon) : (opPinMuxWrite path k value d).Canon :=
  .viaWord h (fun _ h' => .pinChange h' (fun _ => .muxWrite))

theorem Dev.Canon.opVccioLoss {b : Fin 8} (h : d.Canon) : (opVccioLoss b d).Canon :=
  .ite h (.raise (.showBank (.ite (.modStrike (.each h.modPower (fun _ _ => .setHs))) (.each h.modPower (fun _ _ => .setHs)))))

theorem Dev.Canon.opVccioGood {b : Fin 8} {level : Fin 3} (h : d.Canon) : (opVccioGood b level d).Canon := by
  unfold Machine.opVccioGood
  refine .ite h ?_
  refine .ite (.ite h.driveStrike h) ?_
  exact .ite (.each (.ite h.modPower.showBank.raise.driveStrike h.modPower.showBank.raise) (fun _ _ => .setHs)) (.ite
      h.modPower.showBank.raise.driveStrike h.modPower.showBank.raise)

theorem Dev.Canon.opSpi1Frame {bytes : List Byte} (h : d.Canon) : (opSpi1Frame bytes d).Canon := by
  unfold Machine.opSpi1Frame
  refine .ite h ?_
  split
  · exact h.raise
  · exact .ite (.ite h.raise h.enqueue) (.ite (.ite h.raise h.enqueue) h.raise)

theorem Dev.Canon.opJtagDebug {addr data : Word} {write go : Bool} (h : d.Canon) : (opJtagDebug addr data write go d).Canon := by
  unfold Machine.opJtagDebug
  exact .ite h.modPins.enqueue h.modPins

theorem Dev.Canon.setJtag {j : JtagInstr} (h : d.Canon) : (d.setJtag j).Canon := h.modPins

theorem Dev.Canon.setBoundary {cells : List (Fin 340 × Fin 3)} (h : d.Canon) : (d.setBoundary cells).Canon := h.modPins

theorem Dev.Canon.jtagChange {f : Dev → Dev} (h : d.Canon) (hf : ∀ e, e.Canon → (f e).Canon) : (d.jtagChange f).Canon :=
  .pinChange h hf

theorem Dev.Canon.opExtest {cells : List (Fin 340 × Fin 3)} (h : d.Canon) : (opExtest cells d).Canon :=
  .jtagChange h fun _ h' => h'.setBoundary.setJtag

theorem Dev.Canon.opIdcode (h : d.Canon) : (opIdcode d).Canon := .jtagChange h fun _ => .setJtag

theorem Dev.Canon.opSamplePreload {cells : List (Fin 340 × Fin 3)} (h : d.Canon) : (opSamplePreload cells d).Canon :=
  .jtagChange h fun _ h' => h'.setBoundary.setJtag

theorem Dev.Canon.opClamp (h : d.Canon) : (opClamp d).Canon := .jtagChange h fun _ => .setJtag

theorem Dev.Canon.opHighz (h : d.Canon) : (opHighz d).Canon := .jtagChange h fun _ => .setJtag

theorem Dev.Canon.opExtestPulse (h : d.Canon) : (opExtestPulse d).Canon := .jtagChange h fun _ => .setJtag

theorem Dev.Canon.opExtestTrain (h : d.Canon) : (opExtestTrain d).Canon := .jtagChange h fun _ => .setJtag

theorem Dev.Canon.opBypass (h : d.Canon) : (opBypass d).Canon := .jtagChange h fun _ => .setJtag

theorem Dev.Canon.serGo {i : Nat} (h : d.Canon) : (d.serGo i).Canon := by
  unfold Dev.serGo
  exact .ite h (.ite h.raise h.modSerial)

theorem Dev.Canon.serCmdWrite {i : Nat} {w : Word} (h : d.Canon) : (d.serCmdWrite i w).Canon := by
  unfold Dev.serCmdWrite
  exact .ite h.setReg.serGo h.setReg

theorem Dev.Canon.opSerCmd {path : Fin 8} {i : Fin 6} {value : Word} (h : d.Canon) : (opSerCmd path i value d).Canon :=
  .viaWord h fun _ => .serCmdWrite

theorem Dev.Canon.serPush {i : Nat} {x : RxByte} (h : d.Canon) : (d.serPush i x).Canon := by
  unfold Dev.serPush
  exact .ite h.raise h.modSerial.raise

theorem Dev.Canon.opSerCmdDone {i : Fin 6} {sent : Nat} {got : List Byte} {err arb : Bool} (h : d.Canon) :
    (opSerCmdDone i sent got err arb d).Canon := by
  unfold Machine.opSerCmdDone
  exact .ite h (.raiseIf (.raiseIf (.raise (.each h.modSerial (fun _ _ => .serPush)))))

theorem Dev.Canon.serTx {i : Nat} {x : Byte} (h : d.Canon) : (d.serTx i x).Canon := by
  unfold Dev.serTx
  exact .ite h.setFld.raise h.setFld.modSerial

theorem Dev.Canon.opSerTxWrite {path : Fin 8} {i : Fin 6} {x : Byte} (h : d.Canon) : (opSerTxWrite path i x d).Canon :=
  .viaWord h fun _ => .serTx

theorem Dev.Canon.serRx {i : Nat} (h : d.Canon) : (d.serRx i).1.Canon := by
  unfold Dev.serRx
  split
  · exact .pair h
  · exact .pair h.modSerial

theorem Dev.Canon.opSerRxRead {path : Fin 8} {i : Fin 6} (h : d.Canon) : (opSerRxRead path i d).Canon := by
  unfold Machine.opSerRxRead
  refine .viaRead h fun _ h' => ?_
  split
  rename_i d₁ _ hq₁
  have h₁ : d₁.Canon := .of_eq hq₁ h'.serRx
  exact .pair h₁

theorem Dev.Canon.opSerialByteReceived {i : Fin 6} {x : Byte} {bad : Bool} (h : d.Canon) :
    (opSerialByteReceived i x bad d).Canon :=
  .ite h (.ite (.ite h h.serPush) h.serPush.raiseIf)

theorem Dev.Canon.opSerialByteSent {i : Fin 6} (h : d.Canon) : (opSerialByteSent i d).Canon := by
  unfold Machine.opSerialByteSent
  refine .ite h ?_
  split
  · exact h
  · exact .raiseIf (.ite h.modSerial.serPush h.modSerial)

theorem Dev.Canon.flashWord {a : Nat} (h : d.Canon) : (d.flashWord a).1.Canon :=
  .iteFst (.pair h) (.iteFst (.pair h.drew) (.iteFst (.pair h) (.pair h)))

theorem Dev.Canon.flGo (h : d.Canon) : d.flGo.Canon := by
  unfold Dev.flGo
  exact .ite h h.modPins.setFld

theorem Dev.Canon.flBy {path op : Nat} (h : d.Canon) : (d.flBy path op).Canon := .viaCtl h fun _ h' => h'.setFld.flGo

theorem Dev.Canon.opFlashRead {path : Fin 8} (h : d.Canon) : (opFlashRead path d).Canon := h.flBy

theorem Dev.Canon.opFlashProgram {path : Fin 8} (h : d.Canon) : (opFlashProgram path d).Canon := h.flBy

theorem Dev.Canon.opEraseSector {path : Fin 8} (h : d.Canon) : (opEraseSector path d).Canon := h.flBy

theorem Dev.Canon.opFlCmdDone {fail : Bool} (h : d.Canon) : (opFlCmdDone fail d).Canon := by
  unfold Machine.opFlCmdDone
  extract_lets
  split
  · exact h
  · refine .ite h.modPins.setFld.setFld ?_
    refine .ite h.modPins.setFld.setFld ?_
    refine .ite ?_ (.ite h.modPins.setFld.modPins.setFld h.modPins.setFld.modPins.setFld)
    split
    rename_i d₁ _ hq₁
    have h₁ : d₁.Canon := .of_eq hq₁ h.modPins.setFld.flashWord
    exact h₁.setReg.setFld

/-! ## Machine/Repair -/

theorem Dev.Canon.takeFrameSpare {key row : Nat} (h : d.Canon) : (d.takeFrameSpare key row).1.Canon := by
  unfold Dev.takeFrameSpare
  exact .iteFst (.pair h.modTest) (.pair h.modTest)

theorem Dev.Canon.shaftTake {c bundle via : Nat} (h : d.Canon) : (d.shaftTake c bundle via).1.Canon := by
  unfold Dev.shaftTake
  exact .iteFst (.pair h) (.iteFst (.pair h.modStack.setFld.setFld) (.pair h.modStack.setFld.setFld))

theorem Dev.Canon.clockViaMark {c via : Nat} (h : d.Canon) : (d.clockViaMark c via).1.Canon := by
  unfold Dev.clockViaMark
  refine .iteFst (.pair h) ?_
  extract_lets
  split
  · exact .pair h.setFld.setFld.setFld
  · exact .pair h.setFld.clocksLost

theorem Dev.Canon.reliefForGood {bank : Nat} (h : d.Canon) : (d.reliefForGood bank).Canon := by
  unfold Dev.reliefForGood
  exact .setFld (.setFld (.modMem h fun _ => rfl))

theorem Dev.Canon.repApply {w0 : Nat} (h : d.Canon) : (d.repApply w0).1.Canon := by
  unfold Dev.repApply
  extract_lets c sub pos bundle via bank spare
  have hs (line : Bool) : (spare line).1.Canon := by
    refine .iteFst (.pair h) ?_
    split
    rename_i d₁ _ hq₁
    have h₁ : d₁.Canon := .of_eq hq₁ h.takeSpare
    exact .pair h₁
  clear_value spare
  split
  · refine .iteFst (.iteFst (.pair h) ?_) (.iteFst h.shaftTake (.pair h))
    split
    rename_i d₁ _ hq₁
    have h₁ : d₁.Canon := .of_eq hq₁ h.viaTake
    exact .pair h₁
  · exact .iteFst h.clockViaMark (.pair h)
  · exact hs false
  · exact hs true
  · exact .iteFst (.pair h.reliefForGood) (.pair h)
  · refine .iteFst (.pair h) ?_
    split
    rename_i d₁ _ hq₁
    have h₁ : d₁.Canon := .of_eq hq₁ h.takeFrameSpare
    exact .pair h₁
  · exact .pair h.modHeat
  · exact .pair h.modTest
  · exact .pair h

theorem Dev.Canon.repair {origin w0 : Nat} (h : d.Canon) : (d.repair origin w0).1.Canon := by
  unfold Dev.repair
  split
  rename_i d₁ _ hq₁
  have h₁ : d₁.Canon := .of_eq hq₁ h.repApply
  exact .pair h₁.repLog

theorem Dev.Canon.applyMaps {mapBad : Bool} (h : d.Canon) : (d.applyMaps mapBad).Canon :=
  .ite h (.ite (.raise (.each h.modStack (fun _ _ => .repair))) (.each (.each h.modStack (fun _ _ => .repair)) (fun _ _ => .repair)))

theorem Dev.Canon.bistEntry {origin w0 : Nat} (h : d.Canon) : (d.bistEntry origin w0).1.Canon := by
  unfold Dev.bistEntry
  split
  rename_i d₁ _ hq₁
  have h₁ : d₁.Canon := .of_eq hq₁ h.repair
  exact .iteFst (.pair h₁.fenceColumn.colFatal) (.iteFst (.pair h₁) (.iteFst (.iteFst (.pair h₁.reliefForGood.repLog) (.pair
      h₁.bankDies)) (.iteFst (.pair h₁.modTest) (.pair h₁))))

theorem Dev.Canon.bistEntries {origin : Nat} {l : List Nat} (h : d.Canon) : (d.bistEntries origin l).1.Canon := by
  unfold Dev.bistEntries
  refine .foldlFst (.pair h) fun ⟨e, _⟩ _ h' => ?_
  have he : e.Canon := h'
  exact he.bistEntry

theorem Dev.Canon.logicFault {c : Nat} (h : d.Canon) : (d.logicFault c).Canon := h.fenceColumn.colFatal

/-! ## Machine/Plates -/

theorem Dev.Canon.plateFault {c : Nat} (h : d.Canon) : (d.plateFault c).Canon := .each h fun _ _ => .fatal

theorem Dev.Canon.faultSlot {g s : Nat} (h : d.Canon) : (d.faultSlot g s).Canon := h.setPslot

theorem Dev.Canon.driveLog {c shaft slot src : Nat} (h : d.Canon) : (d.driveLog c shaft slot src).Canon :=
  .foldl h (fun _ _ h' => .ite h' (.ite h'.raise h'.raise.setFld.setFld.setFld.setFld))

theorem Dev.Canon.driveConflict {c shaft slot src : Nat} (h : d.Canon) : (d.driveConflict c shaft slot src).Canon := by
  unfold Dev.driveConflict
  exact .ite h (.ite h.driveLog.modPlates.faultSlot.plateFault h.driveLog.modPlates.faultSlot)

theorem Dev.Canon.strikeOwners {c slot : Nat} {struck : List (Nat × Nat)} (h : d.Canon) : (d.strikeOwners c slot struck).Canon :=
  h.modPlates

theorem Dev.Canon.opDriveConflict {c : Fin 256} {shafts : List (Fin 1024)} (h : d.Canon) : (opDriveConflict c shafts d).Canon := by
  unfold Machine.opDriveConflict
  split
  · exact h.strikeOwners.driveConflict
  · exact h

theorem Dev.Canon.dedFound {c row slot die : Nat} {stage : Bool} (h : d.Canon) : (d.dedFound c row slot die stage).Canon := by
  unfold Dev.dedFound
  exact .ite h.count.raise h.count.raise.setFld.setFld.setFld.setFld.setFld.setFld

theorem Dev.Canon.plateDed {c slot die row : Nat} (h : d.Canon) : (d.plateDed c slot die row).Canon := by
  unfold Dev.plateDed
  refine .ite h.dedFound ?_
  extract_lets d₁ galleys d₂
  have h₁ : d₁.Canon := h.dedFound.faultSlot.modPlates
  have h₂ : d₂.Canon := .ite h₁.plateFault h₁
  exact .ite h₂ (.ite (.ite h₂ h₂.modPlates) (.ite h₂ (.ite h₂.raise (.ite h₂ h₂.modPlates))))

theorem Dev.Canon.reloadFails {g s : Nat} (h : d.Canon) : (d.reloadFails g s).Canon := h.modPlates.raise

theorem Dev.Canon.stageDed {c slot row : Nat} (h : d.Canon) : (d.stageDed c slot row).Canon := h.dedFound.stageInvalid

theorem Dev.Canon.pcmdStatus {st g : Nat} (h : d.Canon) : (d.pcmdStatus st g).Canon := h.setFld.setFld

theorem Dev.Canon.checked {check : Nat → Nat} {run : Dev → Dev} (h : d.Canon) (hrun : ∀ e, e.Canon → (run e).Canon) :
    (d.checked check run).Canon := by
  unfold Dev.checked
  split
  · exact h.pcmdStatus
  · exact .pcmdStatus (hrun _ h)

theorem Dev.Canon.pend {p : PendSwitch} (h : d.Canon) : (d.pend p).Canon := .each h fun _ _ h' => h'.modPlates.setFld

theorem Dev.Canon.beginFill {s plate : Nat} (h : d.Canon) : (d.beginFill s plate).Canon := h.setStage.setStageInfo

theorem Dev.Canon.cmdFillLp {slot : Nat} (h : d.Canon) : (d.cmdFillLp slot).Canon := by
  unfold Dev.cmdFillLp
  refine .ite h.pcmdStatus ?_
  refine .ite h.pcmdStatus ?_
  split
  rename_i d₁ _ _ hq₁
  have h₁ : d₁.Canon := .of_eq hq₁ h.dsRead32
  exact .checked h₁ fun _ h' => h'.beginFill.setData

theorem Dev.Canon.cmdFillStream {slot : Nat} (h : d.Canon) : (d.cmdFillStream slot).Canon :=
  .ite h.pcmdStatus (.ite h.pcmdStatus h.beginFill.setData.modPlates.pcmdStatus)

theorem Dev.Canon.cmdStage {sslot pslot : Nat} (h : d.Canon) : (d.cmdStage sslot pslot).Canon := by
  unfold Dev.cmdStage
  exact .checked h (fun _ h' => .setData (.each h' (fun _ _ h₂ => h₂.setPslot.setPslotPlate)))

theorem Dev.Canon.cmdSwitch {slot : Nat} (h : d.Canon) : (d.cmdSwitch slot).Canon := .checked h fun _ => .pend

theorem Dev.Canon.cmdCycle (h : d.Canon) : d.cmdCycle.Canon := by
  unfold Dev.cmdCycle
  exact .checked h fun _ => .pend

theorem Dev.Canon.cmdCancel (h : d.Canon) : d.cmdCancel.Canon := .checked h (fun _ h' => .each h' (fun _ _ => .unpend))

theorem Dev.Canon.conflictEnds {g s : Nat} (h : d.Canon) : (d.conflictEnds g s).Canon := by
  unfold Dev.conflictEnds
  exact h.modPlates

theorem Dev.Canon.cmdClear {slot : Nat} (h : d.Canon) : (d.cmdClear slot).Canon :=
  .checked h (fun _ h' => .each h' (fun _ _ h₂ => .ite h₂.setPslot.conflictEnds h₂))

theorem Dev.Canon.pcmdGo (h : d.Canon) : d.pcmdGo.Canon := by
  unfold Dev.pcmdGo
  extract_lets op
  refine .ite h.pcmdStatus ?_
  refine .ite h.pcmdStatus ?_
  clear_value op
  split
  · exact h.cmdFillLp
  · exact h.cmdFillStream
  · exact h.cmdStage
  · exact h.cmdSwitch
  · exact h.cmdCycle
  · exact h.cmdCancel
  · exact h.cmdClear
  · exact h.pcmdStatus

theorem Dev.Canon.pcmdWrite {w : Word} (h : d.Canon) : (d.pcmdWrite w).Canon := by
  unfold Dev.pcmdWrite
  exact .ite h.storeRw.pcmdGo h.storeRw

theorem Dev.Canon.pcmdBy {path : Nat} {w : Word} (h : d.Canon) : (d.pcmdBy path w).Canon := .viaWord h fun _ => .pcmdWrite

theorem Dev.Canon.opFillLp {path : Fin 8} {plate : Byte} {sslot pslot : Fin 4} (h : d.Canon) :
    (opFillLp path plate sslot pslot d).Canon :=
  h.pcmdBy

theorem Dev.Canon.opFillStream {path : Fin 8} {plate : Byte} {sslot pslot : Fin 4} (h : d.Canon) :
    (opFillStream path plate sslot pslot d).Canon :=
  h.pcmdBy

theorem Dev.Canon.opPlateStage {path : Fin 8} {plate : Byte} {sslot pslot : Fin 4} (h : d.Canon) :
    (opPlateStage path plate sslot pslot d).Canon :=
  h.pcmdBy

theorem Dev.Canon.opPlateSwitch {path : Fin 8} {plate : Byte} {sslot pslot : Fin 4} (h : d.Canon) :
    (opPlateSwitch path plate sslot pslot d).Canon :=
  h.pcmdBy

theorem Dev.Canon.opPlateCycle {path : Fin 8} {plate : Byte} {sslot pslot : Fin 4} (h : d.Canon) :
    (opPlateCycle path plate sslot pslot d).Canon :=
  h.pcmdBy

theorem Dev.Canon.opPlateCancel {path : Fin 8} {plate : Byte} {sslot pslot : Fin 4} (h : d.Canon) :
    (opPlateCancel path plate sslot pslot d).Canon :=
  h.pcmdBy

theorem Dev.Canon.opPlateClear {path : Fin 8} {plate : Byte} {sslot pslot : Fin 4} (h : d.Canon) :
    (opPlateClear path plate sslot pslot d).Canon :=
  h.pcmdBy

theorem Dev.Canon.putSegment {slot : Nat} {seg : Nat × Nat} {ws : List RowWord} (h : d.Canon) : (d.putSegment slot seg ws).Canon :=
  .ite h h.modPlates

/-- The body takes the place of the function before it is applied: the kernel would run one to compare it with the other. -/
theorem Dev.Canon.readSegment {base : Nat} {seg : Nat × Nat} (h : d.Canon) : (d.readSegment base seg).1.Canon := by
  generalize hf : @Dev.readSegment = f
  generalize hp : f d base seg = p
  delta Dev.readSegment at hf
  subst hf
  beta_reduce at hp
  extract_lets start at hp
  split at hp
  rename_i d₁ _ _ hq₁
  have h₁ : d₁.Canon := by
    refine .of_foldl hq₁ h fun x _ q hq hx => ?_
    split at hq
    rename_i d₂ _ _ hq₂
    have h₂ : d₂.Canon := .of_eq hq₂ hx.dsRead32
    exact hq ▸ h₂
  exact hp ▸ h₁

/-- The body takes the place of the function before it is applied: the kernel would run one to compare it with the other. -/
theorem Dev.Canon.fillGroup {slot base g : Nat} (h : d.Canon) : (d.fillGroup slot base g).1.Canon := by
  generalize hf : @Dev.fillGroup = f
  generalize hp : f d slot base g = p
  delta Dev.fillGroup at hf
  subst hf
  beta_reduce at hp
  extract_lets crcAt at hp
  split at hp
  rename_i d₁ _ _ hq₁
  have h₁ : d₁.Canon := .of_eq hq₁ h.dsRead32
  extract_lets want at hp
  split at hp
  rename_i d₂ _ _ hq₂
  have h₂ : d₂.Canon := by
    refine .of_foldl hq₂ h₁ fun x _ q hq hx => ?_
    split at hq
    rename_i d₃ _ _ hq₃
    have h₃ : d₃.Canon := .of_eq hq₃ hx.readSegment
    exact hq ▸ h₃.putSegment
  exact hp ▸ h₂

theorem Dev.Canon.fillEnds {slot plate valid : Nat} {failed : Bool} (h : d.Canon) : (d.fillEnds slot plate valid failed).Canon := by
  unfold Dev.fillEnds
  exact h.setStage.setStageInfo.setData.raiseIf

theorem Dev.Canon.fillMeets {met : List (Fin 256 × FillPort × PortFound)} (h : d.Canon) : (d.fillMeets met).Canon :=
  .each h (fun _ _ h' => .viaErrors (.ite h'.parityFail h'))

theorem Dev.Canon.opFillDone {met : List (Fin 256 × FillPort × PortFound)} (h : d.Canon) : (opFillDone met d).Canon := by
  unfold Machine.opFillDone
  split
  · extract_lets
    split
    rename_i d₁ _ hq₁
    have h₁ : d₁.Canon := by
      refine .of_eq hq₁ (.foldlFst (.pair h.fillMeets) fun _ _ h' => ?_)
      split
      rename_i d₂ _ hq₂
      have h₂ : d₂.Canon := .of_eq hq₂ h'.fillGroup
      exact .pair h₂
    exact h₁.fillEnds.raise
  · exact h

theorem Dev.Canon.putPlate {slot : Nat} {l : List ((Nat × Nat) × List RowWord)} (h : d.Canon) : (d.putPlate slot l).Canon :=
  .each h fun _ _ => .putSegment

theorem Dev.Canon.pstreamWrite {w : Word} (h : d.Canon) : (d.pstreamWrite w).Canon := by
  unfold Dev.pstreamWrite
  split
  · extract_lets d₁ ws d₂
    have h₁ : d₁.Canon := h.setReg.modPlates
    have h₂ : d₂.Canon := h₁.modPlates
    split
    · exact h₁
    · refine .ite h₁ ?_
      split
      · exact h₂.putPlate.fillEnds.raise
      · exact h₂.fillEnds
  · exact h.raise

theorem Dev.Canon.opPstreamDataWrite {path : Fin 8} {value : Word} (h : d.Canon) : (opPstreamDataWrite path value d).Canon :=
  .viaWord h fun _ => .pstreamWrite

theorem Dev.Canon.cfgNotes {c : Nat} {seen : PlateSeen} {errs : List (Nat × BitVec 266)} (h : d.Canon) :
    (d.cfgNotes c seen errs).Canon := by
  unfold Dev.cfgNotes
  exact .each (.ite h h.parityFail) fun _ _ => .viaErrors

theorem Dev.Canon.secFound {errs : List (Nat × BitVec 266)} (h : d.Canon) : (d.secFound errs).Canon := by
  unfold Dev.secFound
  exact h.countBy.raiseIf

theorem Dev.Canon.copyColumn {c sslot pslot : Nat} {seen : PlateSeen} {errs : List (Nat × BitVec 266)} (h : d.Canon) :
    (d.copyColumn c sslot pslot seen errs).Canon :=
  h.modPlates

theorem Dev.Canon.loadColumn {c sslot pslot plate : Nat} {seen : PlateSeen} (h : d.Canon) :
    (d.loadColumn c sslot pslot plate seen).1.Canon := by
  unfold Dev.loadColumn
  refine .iteFst (.pair h) ?_
  extract_lets d₁ errs d₂ d₃ d₄ differ d₅
  have h₂ : d₂.Canon := h.modPlates.copyColumn.cfgNotes.secFound
  have h₄ : d₄.Canon := .strikeOwners (.each h₂ fun _ _ => .stageDed)
  refine .pair (d := d₅) ?_
  unfold d₅
  clear_value differ
  split
  · exact h₄.driveLog.modPlates
  · exact h₄

theorem Dev.Canon.loadGroup {g sslot pslot plate : Nat} {seen : List (Nat × PlateSeen)} (h : d.Canon) :
    (d.loadGroup g sslot pslot plate seen).1.Canon := by
  unfold Dev.loadGroup
  refine .foldlFst (.pair h.conflictEnds) fun _ _ h' => ?_
  split
  rename_i d₁ _ hq₁
  have h₁ : d₁.Canon := .of_eq hq₁ h'.loadColumn
  exact .pair h₁

theorem Dev.Canon.opStageDone {seen : List (Nat × PlateSeen)} (h : d.Canon) : (opStageDone seen d).Canon := by
  unfold Machine.opStageDone
  split
  · refine .ite ?_ h
    extract_lets
    split
    rename_i d₁ _ hq₁
    have h₁ : d₁.Canon := by
      refine .of_eq hq₁ (.foldlFst (.pair h) fun _ _ h' => .iteFst ?_ (.pair h'))
      split
      rename_i d₂ _ hq₂
      have h₂ : d₂.Canon := .of_eq hq₂ h'.loadGroup
      exact .iteFst (.pair h₂.slotGood) (.pair h₂.faultSlot)
    exact .raise (.raiseIf (.setData (.each h₁ (fun _ _ => .freeToken))))
  · exact h

theorem Dev.Canon.opPlateReload (h : d.Canon) : (opPlateReload d).Canon := by
  unfold Machine.opPlateReload
  split
  · exact h
  · refine .ite h ?_
    refine .ite h.modPlates ?_
    split
    · exact h.modPlates.setData
    · exact h.modPlates.reloadFails

theorem Dev.Canon.reenable {b : Nat} (h : d.Canon) : (d.reenable b).Canon := h.ctrlWrite

theorem Dev.Canon.opReloadDone {seen : PlateSeen} (h : d.Canon) : (opReloadDone seen d).Canon := by
  unfold Machine.opReloadDone
  split
  · refine .ite ?_ h
    extract_lets
    split
    rename_i d₁ _ hq₁
    have h₁ : d₁.Canon := .of_eq hq₁ h.loadColumn
    extract_lets _ d₂
    have h₂ : d₂.Canon := .ite h₁.freeToken.setData.modPlates h₁.freeToken.setData
    refine .ite ?_ h₂.reloadFails
    split
    · exact h₂.modPlates.raise
    · exact .each h₂.slotGood.raise fun _ _ => .reenable
  · exact h

theorem Dev.Canon.awaitAdmission {g : Nat} (h : d.Canon) : (d.awaitAdmission g).Canon := h.modPower

theorem Dev.Canon.switchTo {g : Nat} {p : PendSwitch} (h : d.Canon) : (d.switchTo g p).Canon := by
  unfold Dev.switchTo
  extract_lets _ old first d₁ d₂ _ d₃ _ d₄
  have h₁ : d₁.Canon := .each h fun _ _ h' => .ite h'.setPslot h'
  have h₂ : d₂.Canon := .each h₁ fun _ _ => .setPslot
  have h₃ : d₃.Canon := h₂.setFld.setFld.modPlates
  have h₄ : d₄.Canon := .ite h₃.fenceUpdate.modKeeper.checkBudget h₃.fenceUpdate
  exact .ite h₄.awaitAdmission h₄

theorem Dev.Canon.switchDue {g : Nat} (h : d.Canon) : (d.switchDue g).Canon := by
  unfold Dev.switchDue
  split
  · exact h
  · exact .ite h (.ite h.unpend.raise (.ite h.unpend h.unpend.switchTo.raise))

theorem Dev.Canon.switchesDue (h : d.Canon) : d.switchesDue.Canon := .each h fun _ _ => .switchDue

theorem Dev.Canon.opPlateSwitchAtT {g : Fin 16} (h : d.Canon) : (opPlateSwitchAtT g d).Canon := h.switchDue

theorem Dev.Canon.scrubStage {c die slot first : Nat} {seen : PlateSeen} (h : d.Canon) :
    (d.scrubStage c die slot first seen).Canon := by
  unfold Dev.scrubStage
  exact .each h.modPlates.modPlates.secFound fun _ _ => .stageDed

theorem Dev.Canon.scrubPlate {c die slot first : Nat} {seen : PlateSeen} (h : d.Canon) :
    (d.scrubPlate c die slot first seen).Canon := by
  unfold Dev.scrubPlate
  exact .each (.each h.modPlates.strikeOwners.modPlates.cfgNotes.secFound (fun _ _ => .plateDed)) fun _ _ => .driveConflict

theorem Dev.Canon.opPlateScrubSlot {c : Fin 256} {upper stage : Bool} {slot : Fin 4} {first : Fin 2592} {seen : PlateSeen}
    (h : d.Canon) :
    (opPlateScrubSlot c upper stage slot first seen d).Canon := by
  unfold Machine.opPlateScrubSlot
  exact .ite (.ite h.freeToken.scrubStage h.freeToken.scrubPlate) h

end

end Sys2Proof.Machine

/-! # The one form of the stores, kept by lanes, the fabric, LPDDR5X, blocks and messages -/

namespace Sys2Proof.Machine

set_option Elab.async false

section
variable {d : Dev}

/-! ## Machine/Lanes -/

theorem Dev.Canon.pllCfgWrite {g : Nat} {w : Word} (h : d.Canon) : (d.pllCfgWrite g w).Canon := by
  unfold Dev.pllCfgWrite
  exact .ite h.storeRw h.raise

theorem Dev.Canon.opLgPllCfgWrite {path : Fin 8} {g : Fin 18} {value : Word} (h : d.Canon) :
    (opLgPllCfgWrite path g value d).Canon :=
  .viaWord h fun _ => .pllCfgWrite

theorem Dev.Canon.opLgPllLock {g : Fin 18} {band : Fin 16} (h : d.Canon) : (opLgPllLock g band d).Canon := by
  unfold Machine.opLgPllLock
  refine .ite ?_ h
  extract_lets _ d₁
  have h₁ : d₁.Canon := .each h.setFld.setFld.setFld.setFld fun _ _ => .showRate
  exact .ite (.ready (.each h₁.modLoad.modGroup (fun _ _ => .enable))) h₁.beginSeq

theorem Dev.Canon.opLgLockTimeout {g : Fin 18} (h : d.Canon) : (opLgLockTimeout g d).Canon := by
  unfold Machine.opLgLockTimeout
  exact .ite h.startFail h

theorem Dev.Canon.opRefLost {g : Fin 18} {pll : Bool} (h : d.Canon) : (opRefLost g pll d).Canon := by
  unfold Machine.opRefLost
  refine .ite (.ite h h.modGroup) ?_
  extract_lets d₁ _ d₂
  have h₁ : d₁.Canon := .ite h.raise h.modGroup.setFld.raise
  have h₂ : d₂.Canon := .each h₁.setFld.setFld fun _ _ => .showRate
  split
  · exact .fatal (.each h₂ (fun _ _ => .fatal))
  · exact .fatal (.each h₂ (fun _ _ => .fatal))
  · exact .fatal (.each h₂ (fun _ _ => .fatal))
  · exact h₂

theorem Dev.Canon.opRefBack {g : Fin 18} {kHz : Nat} (h : d.Canon) : (opRefBack g kHz d).Canon := by
  unfold Machine.opRefBack
  exact .ite (.ite h.modGroup h.modGroup.setFld.raise) h

theorem Dev.Canon.eyeAbort {n : Nat} (h : d.Canon) : (d.eyeAbort n).Canon := by
  unfold Dev.eyeAbort
  extract_lets
  split
  · exact h
  · exact h.setFld.setFld.modLane
  · exact h.modLane
  · exact h.setFld.setFld.setFld.modLane

theorem Dev.Canon.signalDrops {n : Nat} (h : d.Canon) : (d.signalDrops n).Canon := by
  unfold Dev.signalDrops
  exact .ite h.eyeAbort h.eyeAbort.lockLost

theorem Dev.Canon.opLosSet {n : Fin 144} (h : d.Canon) : (opLosSet n d).Canon := by
  unfold Machine.opLosSet
  exact .ite h.setFld.raise.signalDrops h

theorem Dev.Canon.opLosClear {n : Fin 144} (h : d.Canon) : (opLosClear n d).Canon := by
  unfold Machine.opLosClear
  exact .ite h.setFld.raise.modLane h

theorem Dev.Canon.opCdrLock {n : Fin 144} {peak : Fin 32} (h : d.Canon) : (opCdrLock n peak d).Canon := by
  unfold Machine.opCdrLock
  exact .ite (.ite h.setFld.setFld h.setFld) h

theorem Dev.Canon.opCdrUnlock {n : Fin 144} (h : d.Canon) : (opCdrUnlock n d).Canon := by
  unfold Machine.opCdrUnlock
  exact .ite h.setFld.raise.signalDrops h

theorem Dev.Canon.opLaneStartTimeout {n : Fin 144} (h : d.Canon) : (opLaneStartTimeout n d).Canon := by
  unfold Machine.opLaneStartTimeout
  exact .ite h.startFail h

theorem Dev.Canon.tapMoves {n k : Nat} {up : Bool} (h : d.Canon) : (d.tapMoves n k up).Canon := by
  unfold Dev.tapMoves
  exact .ite h.modLane (.ite h.modLane h.setFld.raise)

theorem Dev.Canon.opDfeTapStep {n : Fin 128} {k : Fin 13} {gain : Int} (h : d.Canon) : (opDfeTapStep n k gain d).Canon :=
  .ite h (.ite h.modLane.tapMoves (.ite h.modLane.tapMoves h.modLane))

theorem Dev.Canon.opCtleAdaptStep {n : Fin 144} {up : Bool} (h : d.Canon) : (opCtleAdaptStep n up d).Canon := by
  unfold Machine.opCtleAdaptStep
  exact .ite h (.ite (.ite h.setFld h) (.ite h.setFld.modLane h))

theorem Dev.Canon.snapTaps {n : Nat} (h : d.Canon) : (d.snapTaps n).Canon := by
  unfold Dev.snapTaps
  exact .setFld (.each h (fun _ _ h' => h'.setFld.setFld))

theorem Dev.Canon.dfeCtrlWrite {n : Nat} {write : Dev → Dev} (h : d.Canon) (hwrite : ∀ e, e.Canon → (write e).Canon) :
    (d.dfeCtrlWrite n write).Canon := by
  unfold Dev.dfeCtrlWrite
  exact .each (hwrite _ h) fun _ _ h' => .ite h' h'.modLane

theorem Dev.Canon.opSnap {path : Fin 8} {n : Fin 144} (h : d.Canon) : (opSnap path n d).Canon := .viaCtl h fun _ => .snapTaps

theorem Dev.Canon.dfeLoad {n tap : Nat} {value : BitVec 8} (h : d.Canon) : (d.dfeLoad n tap value).Canon := by
  unfold Dev.dfeLoad
  exact .ite h.setFld.setFld.modLane h.setFld.setFld.raise

theorem Dev.Canon.opDfeLoad {path : Fin 8} {n : Fin 144} {tap : Fin 16} {value : BitVec 8} (h : d.Canon) :
    (opDfeLoad path n tap value d).Canon :=
  .viaCtl h fun _ => .dfeLoad

theorem Dev.Canon.firWrite {n pre post : Nat} (h : d.Canon) : (d.firWrite n pre post).Canon := by
  unfold Dev.firWrite
  exact .ite h.setFld.setFld.raise (.ite h.setFld.setFld.modLane.setFld h.setFld.setFld)

theorem Dev.Canon.ampWrite {n : Nat} (h : d.Canon) : (d.ampWrite n).Canon := by
  unfold Dev.ampWrite
  exact .ite h.modLane h

theorem Dev.Canon.opTxFirWrite {path : Fin 8} {n : Fin 144} {pre : Fin 16} {post : Fin 32} (h : d.Canon) :
    (opTxFirWrite path n pre post d).Canon :=
  .viaCtl h fun _ => .firWrite

theorem Dev.Canon.eyeBegin {n : Nat} (h : d.Canon) : (d.eyeBegin n).Canon := h.setReg.modLane

theorem Dev.Canon.eyeStart {n : Nat} (h : d.Canon) : (d.eyeStart n).Canon := by
  unfold Dev.eyeStart
  extract_lets
  split
  · exact h.modLane.eyeBegin
  · exact h.modLane
  · exact h.raise
  · exact h.raise

theorem Dev.Canon.opEyeStart {path : Fin 8} {n : Fin 144} {dwell : Fin 16} {voff : BitVec 8} {phase : BitVec 6} (h : d.Canon) :
    (opEyeStart path n dwell voff phase d).Canon := by
  unfold Machine.opEyeStart
  exact .viaCtl h fun _ h' => h'.setReg.eyeStart

theorem Dev.Canon.opEyeDone {n : Fin 144} {errors : Nat} (h : d.Canon) : (opEyeDone n errors d).Canon := by
  unfold Machine.opEyeDone
  extract_lets
  split
  · exact h
  · exact .ite h h.setFld.setFld.raise.modLane
  · exact h.modLane
  · exact h.eyeBegin

/-! ## Machine/Receive -/

theorem Dev.Canon.setNego {n st : Nat} (h : d.Canon) : (d.setNego n st).Canon := h.setFld

theorem Dev.Canon.sendAnnounce {n : Nat} (h : d.Canon) : (d.sendAnnounce n).Canon := h.sendControl

theorem Dev.Canon.beginAnnounce {n : Nat} (h : d.Canon) : (d.beginAnnounce n).Canon := by
  unfold Dev.beginAnnounce
  exact h.modLink.setFld.setFld.setFld.setNego.sendAnnounce

theorem Dev.Canon.negoLock {n : Nat} (h : d.Canon) : (d.negoLock n).Canon := by
  unfold Dev.negoLock
  exact .ite h h.setFld.beginAnnounce

theorem Dev.Canon.renegotiate {n : Nat} (h : d.Canon) : (d.renegotiate n).Canon := by
  unfold Dev.renegotiate
  exact .ite h (.beginAnnounce (.ite h.loopEnd.setFld h.loopEnd))

theorem Dev.Canon.creditReset {n : Nat} (h : d.Canon) : (d.creditReset n).Canon := by
  unfold Dev.creditReset
  exact h.modLink

theorem Dev.Canon.acceptPair {n : Nat} {p : Payload} (h : d.Canon) : (d.acceptPair n p).Canon := by
  unfold Dev.acceptPair
  extract_lets b hi' lo feats l old _ d₁ d₂
  have h₁ : d₁.Canon := h.setFld.setFld.setReg.setFld
  have h₂ : d₂.Canon := .ite h₁.raise.setFld.sendAnnounce h₁
  split
  · exact .txPurge (.ite h₂.setNego.raiseIf.raiseIf.setFld.setReg.creditReset h₂.setNego.raiseIf.raiseIf.setFld.setReg)
  · exact .txPurge (.setReg (.setFld (.ite h₂.setNego.raiseIf.creditReset h₂.setNego.raiseIf)))

theorem Dev.Canon.announce {n : Nat} {p : Payload} (h : d.Canon) : (d.announce n p).Canon := by
  unfold Dev.announce
  refine .ite h ?_
  extract_lets seen pair _ d₁
  have h₁ : d₁.Canon := .ite h.modLink.raiseIf.acceptPair h.modLink.raiseIf
  exact .ite (.ite h₁.setFld (.ite h₁ h₁.setFld.sendAnnounce)) h₁

theorem Dev.Canon.alignInsert {n x : Nat} {m : Msg} (h : d.Canon) : (d.alignInsert n x m).Canon := by
  unfold Dev.alignInsert
  extract_lets
  split
  · exact h.count
  · exact h.count.raise
  · exact h.modLane.showFill

theorem Dev.Canon.stamped {n x : Nat} (h : d.Canon) : (d.stamped n x).Canon := by
  unfold Dev.stamped
  exact h.modLane

theorem Dev.Canon.toPort {n x : Nat} {m : Msg} (h : d.Canon) : (d.toPort n x m).Canon := by
  unfold Dev.toPort
  exact .ite h.count.raise.creditBack h.modLink

theorem Dev.Canon.mgmtRespond {n : Nat} {q : MgmtReq} {st index : Nat} {got : List Word} (h : d.Canon) :
    (d.mgmtRespond n q st index got).Canon := by
  unfold Dev.mgmtRespond
  exact .ite h.drew.creditBack.modLink h.drew.creditBack.txEnqueue

theorem Dev.Canon.mgmtPump {k n : Nat} (h : d.Canon) : (Dev.mgmtPump k d n).Canon := by
  induction k generalizing d n with
  | zero => exact h
  | succ k ih =>
    unfold Dev.mgmtPump
    dsimp only
    split
    · exact .ite (.ite (ih h.modLink.mgmtRespond) h.modLink.modLink.enqueue) h
    · exact h

theorem Dev.Canon.mgmtServe {n : Nat} (h : d.Canon) : (d.mgmtServe n).Canon := h.mgmtPump

theorem Dev.Canon.mgmtWord {n st : Nat} {w : Word} (h : d.Canon) : (d.mgmtWord n st w).Canon := by
  unfold Dev.mgmtWord
  split
  · exact h
  · exact .ite h.modLink.mgmtRespond.mgmtServe (.ite h.modLink.enqueue h.modLink.mgmtRespond.mgmtServe)

theorem Dev.Canon.mgmtArrive {n typ route : Nat} {lenOk : Bool} {body : List Payload} (h : d.Canon) :
    (d.mgmtArrive n typ route lenOk body).Canon := by
  unfold Dev.mgmtArrive
  exact h.modLink.mgmtServe

theorem Dev.Canon.mgmtResponse {n route : Nat} {body : List Payload} (h : d.Canon) : (d.mgmtResponse n route body).Canon := by
  unfold Dev.mgmtResponse
  exact .ite (.remoteEnd (.ite h.creditBack h.creditBack.setReg)) h.creditBack.count.raise

theorem Dev.Canon.protoErr {n : Nat} (h : d.Canon) : (d.protoErr n).Canon := by
  unfold Dev.protoErr
  exact h.count.raise

theorem Dev.Canon.controlMsg {n x : Nat} {m : Msg} (h : d.Canon) : (d.controlMsg n x m).Canon :=
  .ite h.creditBack.renegotiate (.ite h.creditBack.count h.toPort)

theorem Dev.Canon.deliver {n x feat : Nat} {m : Msg} (h : d.Canon) : (d.deliver n x feat m).Canon := by
  unfold Dev.deliver
  refine .ite (.ite h.stamped.toPort h.directHit.alignInsert.stamped) ?_
  refine .ite (.stamped (.ite h.alignInsert h.toPort)) ?_
  exact .ite (.stamped (.ite h.alignInsert h.toPort)) (.ite (.each h (fun _ _ => .acceptTo)) (.ite h.mgmtArrive (.ite h.mgmtResponse
      (.ite h.controlMsg h.toPort))))

theorem Dev.Canon.messageGood {n : Nat} {r : RxMsg} (h : d.Canon) : (d.messageGood n r).Canon := by
  unfold Dev.messageGood
  refine .ite h.count.creditDrop ?_
  exact .ite h.protoErr.creditDrop (.ite h.protoErr.creditDrop (.ite h.protoErr (.ite (.deliver (.ite h.creditTake h)) (.mgmtArrive
      (.protoErr (.ite h.creditTake h))))))

theorem Dev.Canon.markBlock {n : Nat} {p : Payload} (h : d.Canon) : (d.markBlock n p).Canon :=
  .ite h.protoErr (.ite h.stamped.modKeeper h.stamped)

theorem Dev.Canon.creditBlock {n : Nat} {p : Payload} (h : d.Canon) : (d.creditBlock n p).Canon :=
  .ite h.protoErr h.modLink.mgmtServe

theorem Dev.Canon.alarmReceived {n : Nat} {p : Payload} (h : d.Canon) : (d.alarmReceived n p).Canon := by
  unfold Dev.alarmReceived
  exact .ite h.setFld.setFld.raise.raiseCause h.protoErr

theorem Dev.Canon.proofBlock {n : Nat} {p : Payload} (h : d.Canon) : (d.proofBlock n p).Canon := by
  unfold Dev.proofBlock
  exact .ite h.loopEnd (.ite h.raise (.ite (.ite h.setFld.raise.txPurge h.raise) h))

theorem Dev.Canon.controlBlock {n : Nat} {p : Payload} (h : d.Canon) : (d.controlBlock n p).Canon := by
  unfold Dev.controlBlock
  exact .ite h (.ite h.announce (.ite (.ite h.markBlock h.count) (.ite (.ite h.creditBlock h.count) (.ite (.ite h.proofBlock h.count)
      (.ite (.ite h.alarmReceived h.count) h.count)))))

theorem Dev.Canon.somBlock {n : Nat} {p : Payload} (h : d.Canon) : (d.somBlock n p).Canon := by
  unfold Dev.somBlock
  exact .ite h.rxBreak.modLane h.rxBreak.count.orphan.modLane

theorem Dev.Canon.rxItem {n : Nat} {i : EbItem} (h : d.Canon) : (d.rxItem n i).Canon := by
  unfold Dev.rxItem
  split
  · exact h.rxBreak
  · exact h
  · exact h.orphan
  · exact h.modLane
  · exact h
  · exact h.orphan
  · exact .ite h.somBlock (.ite (.ite h.modLane.messageGood h.modLane.crcFail) h.controlBlock)
  · exact .ite h.modLane (.ite h h.controlBlock)
  · exact .ite h.somBlock (.ite h.orphan h.controlBlock)

/-! ## Machine/FabricCycle -/

theorem Dev.Canon.noteResErr {before : Dev} {t : Nat} (h1 : d.Canon) : (before.noteResErr d t).Canon := by
  unfold Dev.noteResErr
  extract_lets b errs
  clear_value errs
  split
  · exact h1
  · exact .ite h1 (.ite h1.countBy.raise h1.countBy.raise.setReg)

theorem Dev.Canon.pinsFollow (h : d.Canon) : d.pinsFollow.Canon := by
  unfold Dev.pinsFollow
  exact .ite h (.pinChange h (fun _ => .modPins))

theorem Dev.Canon.fabricEdge {slips : Nat → List (Fin 24 × BitVec 56)} (h : d.Canon) : (d.fabricEdge slips).Canon := by
  unfold Dev.fabricEdge
  exact .each (.each h.modFabric (fun _ _ => .fenceUpdate)) fun _ _ => .noteResErr

theorem Dev.Canon.fabricCycle {slips : Nat → List (Fin 24 × BitVec 56)} (h : d.Canon) : (d.fabricCycle slips).Canon :=
  .ite (.each h.switchesDue.fabricEdge.pinsFollow (fun _ _ => .treeCycle)) h

theorem Dev.Canon.opResErr {c : Fin 256} {upper : Bool} {slips : List (Fin 24 × BitVec 56)} (h : d.Canon) :
    (opResErr c upper slips d).Canon :=
  h.fabricCycle

/-! ## Machine/ExtCmds -/

theorem Dev.Canon.fdpEnd {port st : Nat} {data : Line} (h : d.Canon) : (d.fdpEnd port st data).Canon := .modExt h fun _ => rfl

theorem Dev.Canon.fdpServe {port : Nat} {r : FdpReq} (h : d.Canon) : (d.fdpServe port r).Canon := by
  unfold Dev.fdpServe
  extract_lets d₁
  have h₁ : d₁.Canon := .modExt h fun _ => rfl
  refine .ite h₁.fdpEnd ?_
  refine .withPorts h₁ fun _ h' => ?_
  refine .ite ?_ ?_
  · split
    rename_i d₁ _ hq₁
    have h₁ : d₁.Canon := .of_eq hq₁ h'.dsWrite
    exact h₁.fdpEnd
  · split
    rename_i d₂ _ _ hq₂
    have h₂ : d₂.Canon := .of_eq hq₂ h'.dsRead
    exact h₂.fdpEnd

theorem Dev.Canon.fdpComplete {port : Nat} (h : d.Canon) : (d.fdpComplete port).Canon := .ite (.foldl h (fun _ _ => .fdpServe)) h

theorem Dev.Canon.fdpRequest {port : Nat} {r : FdpReq} (h : d.Canon) : (d.fdpRequest port r).Canon :=
  .ite (.ite (.modExt h fun _ => rfl) (.fdpComplete (.modExt h fun _ => rfl))) h

theorem Dev.Canon.opFdpRead {port : Fin 4} {addr : BitVec 56} {found : Found} (h : d.Canon) :
    (opFdpRead port addr found d).Canon :=
  h.fdpRequest

theorem Dev.Canon.opFdpFullWrite {port : Fin 4} {addr : BitVec 56} {data : Line} {poison : Bool} {found : Found} (h : d.Canon) :
    (opFdpFullWrite port addr data poison found d).Canon :=
  h.fdpRequest

theorem Dev.Canon.opFdpPartialWrite {port : Fin 4} {addr : BitVec 56} {ben : BitVec 64} {data : Line} {found : Found}
    (h : d.Canon) :
    (opFdpPartialWrite port addr ben data found d).Canon :=
  h.fdpRequest

theorem Dev.Canon.opMcInitDone {w : Fin 2} {trained : BitVec 8} (h : d.Canon) : (opMcInitDone w trained d).Canon := by
  unfold Machine.opMcInitDone
  refine .ite ?_ h
  refine .ite h.setFld.raise.lose.startFail ?_
  extract_lets _ kept mode chans d₁ d₂ d₃
  have h₁ : d₁.Canon := .ite h.setFld.setFld (.ite h.setFld.setFld.fillExt.drew (.ite h.setFld.setFld.fillExt h.setFld.setFld))
  have h₂ : d₂.Canon := .raise (.modExt h₁ fun _ => rfl)
  have h₃ : d₃.Canon := .ite h₂ h₂.raise.lose
  exact h₃.ready

theorem Dev.Canon.faultChannel {w c : Nat} (h : d.Canon) : (d.faultChannel w c).Canon := by
  unfold Dev.faultChannel
  exact h.setFld.raise.lose

theorem Dev.Canon.opMcRetrain {w : Fin 2} {failed : BitVec 8} (h : d.Canon) : (opMcRetrain w failed d).Canon := by
  unfold Machine.opMcRetrain
  exact .ite (.each h (fun _ _ h' => .ite h' (.ite (.ite h'.count.faultChannel (.modExt h'.count fun _ => rfl)) (.modExt h' fun _ =>
      rfl)))) h

theorem Dev.Canon.opMcScrubLine {line : Nat} {found : Found} (h : d.Canon) : (opMcScrubLine line found d).Canon := by
  unfold Machine.opMcScrubLine
  exact .ite (.ite h.wearLine (.ite h.wearLine.putLine.extNote (.extNote (.ite h.wearLine.putLine h.wearLine)))) h

theorem Dev.Canon.opDramHot {w : Fin 2} {rate : Nat} (h : d.Canon) : (opDramHot w rate d).Canon := by
  unfold Machine.opDramHot
  exact .ite (.raiseIf (.modExt h fun _ => rfl)) h

theorem Dev.Canon.regionWrite {a : Nat} {w : Word} (h : d.Canon) : (d.regionWrite a w).Canon := .ite h.storeRw h.ctrlReject

theorem Dev.Canon.opRegionWrite {path : Fin 8} {r : Fin 16} {k : Fin 4} {value : Word} (h : d.Canon) :
    (opRegionWrite path r k value d).Canon :=
  .viaWord h fun _ => .regionWrite

theorem Dev.Canon.moverGo {m : Nat} (h : d.Canon) : (d.moverGo m).Canon := by
  unfold Dev.moverGo
  exact .ite h.setFld (.setFld (.modExt h fun _ => rfl))

theorem Dev.Canon.opMoverGo {path m : Fin 8} (h : d.Canon) : (opMoverGo path m d).Canon := .viaCtl h fun _ => .moverGo

theorem Dev.Canon.moverFetch {a n : Nat} (h : d.Canon) : (d.moverFetch a n).1.Canon := by
  unfold Dev.moverFetch
  extract_lets
  split
  rename_i d₁ _ _ hq₁
  have h₁ : d₁.Canon := .of_eq hq₁ h.dsRead
  refine .iteFst (.pair h₁) ?_
  refine .iteFst (.pair h₁) ?_
  split
  rename_i d₂ _ _ hq₂
  have h₂ : d₂.Canon := .of_eq hq₂ h₁.dsRead
  exact .pair h₂

theorem Dev.Canon.moverRun {m : MoverDesc} {f done : Nat} (h : d.Canon) : (Dev.moverRun m f d done).1.Canon := by
  induction f generalizing d done with
  | zero => exact h
  | succ f ih =>
    unfold Dev.moverRun
    refine .iteFst (.pair h) ?_
    extract_lets
    split
    rename_i d₁ _ _ hq₁
    have h₁ : d₁.Canon := .of_eq hq₁ (.iteFst (.pair h) h.moverFetch)
    refine .iteFst (.pair h₁) ?_
    split
    rename_i d₂ _ hq₂
    have h₂ : d₂.Canon := .of_eq hq₂ h₁.dsWrite
    exact .iteFst (ih h₂) (.pair h₂)

theorem Dev.Canon.opDescriptorEnd {m : Fin 8} {ports : List PortFound} (h : d.Canon) : (opDescriptorEnd m ports d).Canon := by
  unfold Machine.opDescriptorEnd
  refine .withPorts h fun e he => ?_
  extract_lets b
  split
  · exact he
  · refine .ite he ?_
    split
    rename_i d₁ _ _ hq₁
    have h₁ : d₁.Canon := .of_eq hq₁ he.dsRead32
    refine .ite h₁.moverErr ?_
    extract_lets q
    split
    rename_i d₂ _ hq₂
    have h₂ : d₂.Canon := by
      refine .of_eq hq₂ ?_
      split
      · exact .pair h₁
      · split
        rename_i d₃ _ _ hq₃
        have h₃ : d₃.Canon := .of_eq hq₃ h₁.moverRun
        exact .pair h₃.countBy
    split
    rename_i d₃ _ hq₃
    have h₃ : d₃.Canon := .of_eq hq₃ h₂.moverStat
    exact .ite h₃.raiseIf.moverErr (.ite h₃.raiseIf.moverStop.raise (.ite h₃.raiseIf.moverStop (.modExt h₃.raiseIf fun _ => rfl)))

/-! ## Machine/Blocks -/

theorem Dev.Canon.proofLog {o info : Nat} (h : d.Canon) : (d.proofLog o info).Canon := .ite h h.setFld.raise

theorem Dev.Canon.proofCheck {n : Nat} {p : Payload} (h : d.Canon) : (d.proofCheck n p).Canon := by
  unfold Dev.proofCheck
  exact .ite (.ite h.modProof.setFld h.modProof) (.proofLog (.countBy (.ite h.modProof.setFld h.modProof)))

theorem Dev.Canon.proofBlocks {n : Nat} {tx : Bool} (h : d.Canon) : (d.proofBlocks n tx).Canon := by
  unfold Dev.proofBlocks
  exact .ite h.modProof.count h.modProof

theorem Dev.Canon.slipEnds {n : Nat} (h : d.Canon) : (d.slipEnds n).Canon := .ite h.modLane h

theorem Dev.Canon.showOcc {n : Nat} (h : d.Canon) : (d.showOcc n).Canon := h.setFld

theorem Dev.Canon.lockGained {n : Nat} (h : d.Canon) : (d.lockGained n).Canon := by
  unfold Dev.lockGained
  exact h.slipEnds.setBlk.setFld.raise.modLane.showOcc.negoLock.ready

theorem Dev.Canon.huntBlock {n : Nat} {valid : Bool} (h : d.Canon) : (d.huntBlock n valid).Canon := by
  unfold Dev.huntBlock
  exact .ite (.ite (.lockGained (.ite h.modLane h)) (.setFld (.ite h.modLane h))) (.ite (.setFld (.setFld (.ite h.modLane h))) (.setFld
      (.ite h.modLane h)))

theorem Dev.Canon.ebOverflow {n : Nat} {i : EbItem} (h : d.Canon) : (d.ebOverflow n i).Canon := by
  unfold Dev.ebOverflow
  exact .ite (.each h.raise.count.modLane.modLane (fun _ _ => .crcFail)) h.raise.count.modLane

theorem Dev.Canon.ebTrim {k n : Nat} (h : d.Canon) : (Dev.ebTrim k d n).Canon := by
  induction k generalizing d n with
  | zero => exact h
  | succ k ih =>
    unfold Dev.ebTrim
    split
    · exact .ite (ih h.modLane.count) h
    · exact h

theorem Dev.Canon.ebWrite {n : Nat} {i : EbItem} (h : d.Canon) : (d.ebWrite n i).Canon := by
  unfold Dev.ebWrite
  exact .ite h.modLane.ebOverflow h.modLane.modLane.ebTrim

theorem Dev.Canon.retransmit {n : Nat} {i : EbItem} (h : d.Canon) : (d.retransmit n i).Canon := by
  unfold Dev.retransmit
  refine .ite h ?_
  split
  · exact .ite h.modLink h.sendBlocks.modLink
  · exact h.drew.sendBlocks.modLink

theorem Dev.Canon.ebOut {n : Nat} {i : EbItem} (h : d.Canon) : (d.ebOut n i).Canon := by
  unfold Dev.ebOut
  refine .ite ?_ h.retransmit.rxItem
  split
  · exact h.retransmit.proofCheck
  · exact .ite h.retransmit.controlBlock h.retransmit
  · exact h.retransmit

theorem Dev.Canon.ebRead {k n : Nat} (h : d.Canon) : (Dev.ebRead k d n).Canon := by
  induction k generalizing d n with
  | zero => exact h
  | succ k ih =>
    unfold Dev.ebRead
    split
    · exact h
    · exact ih h.count.retransmit
    · exact ih h.modLane.ebOut.ebTrim

theorem Dev.Canon.lockedBlock {n : Nat} {valid : Bool} {i : EbItem} {reads : Nat} (h : d.Canon) :
    (d.lockedBlock n valid i reads).Canon := by
  unfold Dev.lockedBlock
  exact .ite (.lockLost (.ite h h.count)) (.showOcc (.ebRead (.ebWrite (.modLane (.ite h h.count)))))

theorem Dev.Canon.injectBlock {n : Nat} {p : Payload} (h : d.Canon) : (d.injectBlock n p).1.Canon := by
  unfold Dev.injectBlock
  exact .iteFst (.pair h.modProof.drew) (.pair h)

theorem Dev.Canon.opBlockReceive {n : Fin 144} {header : BitVec 2} {payload : Payload} {reads : Fin 16} (h : d.Canon) :
    (opBlockReceive n header payload reads d).Canon := by
  unfold Machine.opBlockReceive
  refine .ite h ?_
  extract_lets d₁
  have h₁ : d₁.Canon := .ite h.proofBlocks h
  split
  rename_i d₂ _ hq₂
  have h₂ : d₂.Canon := .of_eq hq₂ (.iteFst h₁.injectBlock (.pair h₁))
  extract_lets d₃
  have h₃ : d₃.Canon := .ite h₂.modLink h₂
  split
  exact .ite (.lockedBlock (.ite h₃.modLane.proofBlocks h₃.modLane)) h₃.modLane.huntBlock

theorem Dev.Canon.opHuntExpired {n : Fin 144} (h : d.Canon) : (opHuntExpired n d).Canon := by
  unfold Machine.opHuntExpired
  exact .ite h.setBlk.raise.modLane h

theorem Dev.Canon.bitslip {n : Nat} (h : d.Canon) : (d.bitslip n).Canon := by
  unfold Dev.bitslip
  exact .ite h.setFld.setFld h.raise

theorem Dev.Canon.slipToHunt {n : Nat} (h : d.Canon) : (d.slipToHunt n).Canon := h.slipEnds.setBlk.modLane

theorem Dev.Canon.rehunt {n : Nat} (h : d.Canon) : (d.rehunt n).Canon := by
  unfold Dev.rehunt
  exact .ite h.slipToHunt h.raise

theorem Dev.Canon.forceManual {n : Nat} {v : Bool} (h : d.Canon) : (d.forceManual n v).Canon := by
  unfold Dev.forceManual
  exact .ite h.setFld.setBlk.modLane (.ite h.setFld.slipToHunt h.setFld)

theorem Dev.Canon.opBitslip {path : Fin 8} {n : Fin 144} (h : d.Canon) : (opBitslip path n d).Canon := .viaCtl h fun _ => .bitslip

theorem Dev.Canon.opRehunt {path : Fin 8} {n : Fin 144} (h : d.Canon) : (opRehunt path n d).Canon := .viaCtl h fun _ => .rehunt

theorem Dev.Canon.opForceManualWrite {path : Fin 8} {n : Fin 144} {value : Bool} (h : d.Canon) :
    (opForceManualWrite path n value d).Canon :=
  .viaCtl h fun _ => .forceManual

theorem Dev.Canon.opQuadTransmit {n : Fin 144} (h : d.Canon) : (opQuadTransmit n d).Canon := .ite h h.sendBlocks.modLink

theorem Dev.Canon.opQuadMissing {n : Fin 144} (h : d.Canon) : (opQuadMissing n d).Canon := .ite h.raise.modLane h

/-! ## Machine/Molmevo -/

theorem Dev.Canon.blockIn {n typ : Nat} {p : Payload} (h : d.Canon) : (d.blockIn n typ p).Canon := .ite h.ebOut h

theorem Dev.Canon.opMark {n : Fin 144} {block : Payload} (h : d.Canon) : (opMark n block d).Canon := h.blockIn

theorem Dev.Canon.opAnnounce {n : Fin 144} {block : Payload} (h : d.Canon) : (opAnnounce n block d).Canon := h.blockIn

theorem Dev.Canon.opCredit {n : Fin 144} {block : Payload} (h : d.Canon) : (opCredit n block d).Canon := h.blockIn

theorem Dev.Canon.opProof {n : Fin 144} {block : Payload} (h : d.Canon) : (opProof n block d).Canon := h.blockIn

theorem Dev.Canon.opAlarm {n : Fin 144} {block : Payload} (h : d.Canon) : (opAlarm n block d).Canon := h.blockIn

theorem Dev.Canon.messageIn {n typ : Nat} {m : WireMsg} (h : d.Canon) : (d.messageIn n typ m).Canon :=
  .ite (.each h (fun _ _ => .ebOut)) h

theorem Dev.Canon.echo {n : Nat} {m : WireMsg} (h : d.Canon) : (d.echo n m).Canon := by
  unfold Dev.echo
  exact .ite (.ite (.count (.ite h.modProof.setFld.count h.modProof.setFld)) (.proofLog (.count (.drew (.count (.ite
      h.modProof.setFld.count h.modProof.setFld)))))) h

theorem Dev.Canon.opHit {n : Fin 144} {m : WireMsg} (h : d.Canon) : (opHit n m d).Canon := .ite h.echo h.messageIn

theorem Dev.Canon.opPrimitive {n : Fin 144} {m : WireMsg} (h : d.Canon) : (opPrimitive n m d).Canon := h.messageIn

theorem Dev.Canon.opDecision {n : Fin 144} {m : WireMsg} (h : d.Canon) : (opDecision n m d).Canon := h.messageIn

theorem Dev.Canon.opAccept {n : Fin 144} {m : WireMsg} (h : d.Canon) : (opAccept n m d).Canon := h.messageIn

theorem Dev.Canon.opFragment {n : Fin 144} {m : WireMsg} (h : d.Canon) : (opFragment n m d).Canon := h.messageIn

theorem Dev.Canon.opMgmtRead {n : Fin 144} {m : WireMsg} (h : d.Canon) : (opMgmtRead n m d).Canon := h.messageIn

theorem Dev.Canon.opMgmtWrite {n : Fin 144} {m : WireMsg} (h : d.Canon) : (opMgmtWrite n m d).Canon := h.messageIn

theorem Dev.Canon.opMgmtResp {n : Fin 144} {m : WireMsg} (h : d.Canon) : (opMgmtResp n m d).Canon := h.messageIn

theorem Dev.Canon.opEventMessage {n : Fin 144} {m : WireMsg} (h : d.Canon) : (opEventMessage n m d).Canon := h.messageIn

theorem Dev.Canon.opControl {n : Fin 144} {m : WireMsg} (h : d.Canon) : (opControl n m d).Canon := h.messageIn

theorem Dev.Canon.opAnnounceTransmit {n : Fin 144} (h : d.Canon) : (opAnnounceTransmit n d).Canon := .ite h.sendAnnounce h

theorem Dev.Canon.opAnnounceTimeout {n : Fin 144} (h : d.Canon) : (opAnnounceTimeout n d).Canon := by
  unfold Machine.opAnnounceTimeout
  exact .ite h.setNego.setFld.raise.setFld.setReg.txPurge h

theorem Dev.Canon.opRenegotiate {path : Fin 8} {n : Fin 144} (h : d.Canon) : (opRenegotiate path n d).Canon :=
  .viaCtl h fun _ => .renegotiate

theorem Dev.Canon.opCreditTransmit {n : Fin 144} (h : d.Canon) : (opCreditTransmit n d).Canon := .ite h h.sendControl.modLink

theorem Dev.Canon.numbered {t : TxMsg} (h : d.Canon) : (d.numbered t).1.Canon := by
  unfold Dev.numbered
  split
  · exact .pair h.modCtl
  · exact .pair h

theorem Dev.Canon.transmit {n : Nat} {first : TxMsg} (h : d.Canon) : (d.transmit n first).Canon := by
  unfold Dev.transmit
  split
  rename_i d₁ _ hq₁
  have h₁ : d₁.Canon := .of_eq hq₁ h.numbered
  exact h₁.sendBlocks.modLink.txEnd.mgmtServe

theorem Dev.Canon.opMessageTransmit {n : Fin 144} {ports : List PortFound} (h : d.Canon) : (opMessageTransmit n ports d).Canon := by
  unfold Machine.opMessageTransmit
  refine .withPorts h fun _ h' => ?_
  split
  · exact h'.transmit
  · exact h'

theorem Dev.Canon.opMarkTransmit {n : Fin 144} (h : d.Canon) : (opMarkTransmit n d).Canon := by
  unfold Machine.opMarkTransmit
  exact .ite h.sendControl h

theorem Dev.Canon.proofSend {n action : Nat} (h : d.Canon) : (d.proofSend n action).Canon := .ite h.sendControl h

theorem Dev.Canon.opProofOn {path : Fin 8} {n : Fin 144} (h : d.Canon) : (opProofOn path n d).Canon :=
  .viaCtl h fun _ => .proofSend

theorem Dev.Canon.opProofOff {path : Fin 8} {n : Fin 144} (h : d.Canon) : (opProofOff path n d).Canon :=
  .viaCtl h fun _ => .proofSend

theorem Dev.Canon.remGo {n : Nat} (h : d.Canon) : (d.remGo n).Canon := by
  unfold Dev.remGo
  exact .ite h.raise (.ite h.remoteEnd h.drew.modLink.setFld.setFld.setFld.txEnqueue)

theorem Dev.Canon.opRemGo {path : Fin 8} {n : Fin 16} {write : Bool} {timeout : BitVec 16} (h : d.Canon) :
    (opRemGo path n write timeout d).Canon := by
  unfold Machine.opRemGo
  exact .viaCtl h fun _ h' => h'.setFld.setFld.remGo

theorem Dev.Canon.opNoResponse {n : Fin 16} (h : d.Canon) : (opNoResponse n d).Canon := by
  unfold Machine.opNoResponse
  exact .ite h.remoteEnd h

/-! ## Machine/Ports -/

theorem Dev.Canon.frameWrites {u : BaseUser} {w : Nat} {l : List RowWord} (h : d.Canon) : (d.frameWrites u w l).1.Canon := by
  induction l generalizing d w with
  | nil => exact h
  | cons v t ih =>
    unfold Dev.frameWrites
    split
    rename_i d₁ _ hq₁
    have h₁ : d₁.Canon := .of_eq hq₁ h.baseWrite
    exact .iteFst (.pair (ih h₁)) (.pair h₁)

theorem Dev.Canon.deliverFrame {n k st : Nat} {held : List Held} (h : d.Canon) : (d.deliverFrame n k st held).Canon := by
  unfold Dev.deliverFrame
  extract_lets
  split
  extract_lets
  split
  rename_i d₁ _ hq₁
  have h₁ : d₁.Canon := .of_eq hq₁ h.countBy.raiseIf.frameWrites
  exact .ite (.ite h₁ h₁.modLane) (.raise (.countBy (.ite h₁ h₁.modLane)))

theorem Dev.Canon.releaseLane {n k : Nat} (h : d.Canon) : (d.releaseLane n k).Canon := by
  unfold Dev.releaseLane
  exact .ite h (.ite h.setFld.modLane.showFill (.ite h.setFld.modLane.showFill.countBy h.setFld.modLane.showFill.deliverFrame))

theorem Dev.Canon.opRelease {ports : List PortFound} (h : d.Canon) : (opRelease ports d).Canon :=
  .ite h (.withPorts h.modKeeper (fun _ h' => .each h' (fun _ _ => .releaseLane)))

theorem Dev.Canon.queueWrites {w : Nat} {l : List RowWord} (h : d.Canon) : (d.queueWrites w l).1.Canon := by
  unfold Dev.queueWrites
  exact .pair h.frameWrites

theorem Dev.Canon.queueRead {n : Nat} (h : d.Canon) : (d.queueRead n).1.Canon := by
  unfold Dev.queueRead
  split
  · exact .pair h
  · extract_lets
    split
    rename_i d₁ _ _ hq₁
    have h₁ : d₁.Canon := .of_eq hq₁ h.baseRead
    exact .iteFst (.pair h₁.modLink) (.pair h₁)

theorem Dev.Canon.queueEntry {n : Nat} {m : Held} (h : d.Canon) : (d.queueEntry n m).1.Canon := by
  unfold Dev.queueEntry
  extract_lets
  split
  rename_i d₁ _ hq₁
  have h₁ : d₁.Canon := .of_eq hq₁ h.queueRead
  split
  · exact .pair h₁
  · split
    · exact .pair h₁
    · extract_lets
      split
      rename_i d₂ _ hq₂
      have h₂ : d₂.Canon := .of_eq hq₂ h₁.queueWrites
      refine .iteFst (.pair h₂) ?_
      split
      rename_i d₃ _ hq₃
      have h₃ : d₃.Canon := .of_eq hq₃ h₂.queueWrites
      refine .iteFst (.pair h₃) ?_
      split
      rename_i d₄ _ hq₄
      have h₄ : d₄.Canon := .of_eq hq₄ (.iteFst h₃.queueWrites (.pair h₃))
      exact .iteFst (.pair h₄) (.pair h₄.modLink)

theorem Dev.Canon.queueTry {n i : Nat} {l : List Held} (h : d.Canon) : (d.queueTry n i l).Canon := by
  induction l generalizing d i with
  | nil => exact h
  | cons x t ih =>
    unfold Dev.queueTry
    extract_lets
    split
    rename_i d₁ _ hq₁
    have h₁ : d₁.Canon := .of_eq hq₁ h.queueEntry
    exact .ite h₁.modLink.creditBack (.ite h₁.modLink.count.raise (ih h₁))

theorem Dev.Canon.opReceiveQueueWrite {n : Fin 144} {ports : List PortFound} (h : d.Canon) :
    (opReceiveQueueWrite n ports d).Canon :=
  .withPorts h fun _ => .queueTry

theorem Dev.Canon.readBody {w k : Nat} (h : d.Canon) : (d.readBody w k).1.Canon := by
  induction k generalizing d w with
  | zero => exact h
  | succ k ih =>
    unfold Dev.readBody
    split
    rename_i d₁ _ _ hq₁
    have h₁ : d₁.Canon := .of_eq hq₁ h.baseRead
    exact .iteFst (.pair (ih h₁)) (.pair h₁)

theorem Dev.Canon.sendEntries {k n : Nat} (h : d.Canon) : (Dev.sendEntries k d n).Canon := by
  induction k generalizing d n with
  | zero => exact h
  | succ k ih =>
    unfold Dev.sendEntries
    extract_lets
    split
    rename_i d₁ _ _ hq₁
    have h₁ : d₁.Canon := .of_eq hq₁ h.baseRead
    refine .ite h₁ (.ite (.ite h₁ (ih h₁.modLink)) (.ite h₁ ?_))
    split
    rename_i d₂ _ hq₂
    have h₂ : d₂.Canon := .of_eq hq₂ h₁.readBody
    split
    · exact h₂
    · exact ih h₂.modLink.txEnqueue

theorem Dev.Canon.opSendQueueExamine {n : Fin 144} {ports : List PortFound} (h : d.Canon) : (opSendQueueExamine n ports d).Canon := by
  unfold Machine.opSendQueueExamine
  exact .ite (.withPorts h (fun _ => .sendEntries)) h

end

end Sys2Proof.Machine

/-! # The one form of the stores, kept by crossing edges, clocks, memory commands and modes -/

namespace Sys2Proof.Machine

set_option Elab.async false

section
variable {d : Dev}

/-! ## Machine/Edge -/

theorem Dev.Canon.missRelease (h : d.Canon) : d.missRelease.Canon :=
  .ite h (.each h (fun _ _ h' => .ite h' h'.modLane.countBy.showFill.raise))

theorem Dev.Canon.syncApply (h : d.Canon) : (d.syncApply).1.Canon := by
  unfold Dev.syncApply
  extract_lets
  split
  · exact .pair h
  · refine .iteFst (.pair h.modKeeper) ?_
    split
    · exact .iteFst (.iteFst (.pair h.modKeeper.setFld) (.pair h.modKeeper.setFld.raise)) (.iteFst (.pair h.modKeeper) (.pair
        h.modKeeper.raise))
    · exact .iteFst (.pair h.modKeeper) (.pair h.modKeeper.raise.raise)
    · exact .iteFst (.pair h.modKeeper) (.pair h.modKeeper.raise)

theorem Dev.Canon.jump {dest : Nat} (h : d.Canon) : (d.jump dest).Canon := by
  unfold Dev.jump
  exact .modKeeper (.ite (.each (.each h (fun _ _ => .flushHeld)) (fun _ _ => .jumpFlush)) (.raise (.unpendAll (.each (.each h (fun _ _
      => .flushHeld)) (fun _ _ => .jumpFlush)))))

theorem Dev.Canon.shiftBreaches {next dest : Nat} (h : d.Canon) : (d.shiftBreaches next dest).Canon := h.modKeeper

theorem Dev.Canon.sampleSync (h : d.Canon) : d.sampleSync.Canon := .ite h.modKeeper h

theorem Dev.Canon.beginCrossing {now : Nat} (h : d.Canon) : (d.beginCrossing now).Canon := h.modFabric.modKeeper

theorem Dev.Canon.swallow (h : d.Canon) : d.swallow.Canon := .each h fun _ _ h' => .ite h' h'.modKeeper.countBy.checkBudget

theorem Dev.Canon.fenceBreach (h : d.Canon) : d.fenceBreach.Canon := .ite h.breach h

theorem Dev.Canon.showBusy {src : Nat} (h : d.Canon) : (d.showBusy src).1.Canon := by
  unfold Dev.showBusy
  exact .pair (.setFld (.ite (.count (.ite h.modStrike.setFld.raise h.modStrike)) (.ite h.modStrike.setFld.raise h.modStrike)))

theorem Dev.Canon.countStatus {st : Nat} (h : d.Canon) : (d.countStatus st).Canon := by
  unfold Dev.countStatus
  extract_lets b was _ d₁
  have h₁ : d₁.Canon := .ite h.setFld.raise h.setFld
  exact .ite h₁.count.raise (.ite h₁.count.raise (.ite h₁.count.raise (.ite h₁.count.raise h₁)))

theorem Dev.Canon.disagree {k : Nat} (h : d.Canon) : (d.disagree k).Canon := by
  unfold Dev.disagree
  exact .ite h.count.raise h.count.raise.setReg

theorem Dev.Canon.showWord {k st word : Nat} (h : d.Canon) : (d.showWord k st word).Canon := h.setReg.setFld

theorem Dev.Canon.strikePresent (h : d.Canon) : d.strikePresent.Canon := by
  unfold Dev.strikePresent
  extract_lets
  split
  rename_i d₁ _ hq₁
  have h₁ : d₁.Canon := .of_eq hq₁ h.showBusy
  exact .ite (.setFld (.showWord (.ite h₁.countStatus.disagree h₁.countStatus))) (.showWord (.ite h₁.countStatus.disagree
      h₁.countStatus))

theorem Dev.Canon.strikeStatic {first : Bool} (h : d.Canon) : (d.strikeStatic first).Canon := by
  unfold Dev.strikeStatic
  refine .ite h ?_
  exact .ite (.showWord (.count (.setFld (.modStrike (.ite h.countStatus h.countStatus.setFld.raise))))) (.count (.setFld (.modStrike
      (.ite h.countStatus h.countStatus.setFld.raise))))

theorem Dev.Canon.strikeCapture {stopped : Bool} {a b : DpSample} (h : d.Canon) : (d.strikeCapture stopped a b).Canon := by
  unfold Dev.strikeCapture
  exact h.modStrike

theorem Dev.Canon.strikeUnit (h : d.Canon) : d.strikeUnit.Canon := by
  unfold Dev.strikeUnit
  split
  · exact .ite h.ready h.startFail
  · exact h.empty
  · exact h

theorem Dev.Canon.strikeLoop (h : d.Canon) : d.strikeLoop.Canon := .ite h.modProof.count h

theorem Dev.Canon.runningEdge {cycles : Nat} {a b : DpSample} (h : d.Canon) : (d.runningEdge cycles a b).Canon := by
  unfold Dev.runningEdge
  extract_lets
  split
  rename_i d₁ _ hq₁
  have h₁ : d₁.Canon := .of_eq hq₁ (.syncApply (.missRelease (.ite h h.switchesDue)))
  extract_lets d₂ half d₃ before d₄ d₅ d₆ d₇ d₈ o d₉ d₁₀ d₁₁
  have h₃ : d₃.Canon := .ite h₁.modClk h₁.modClk.shiftBreaches
  have h₅ : d₅.Canon := .each h₃.beginCrossing.modKeeper fun _ _ => .fenceUpdate
  have h₇ : d₇.Canon := .sampleSync (.ite h₅ h₅.jump)
  have h₉ : d₉.Canon := .ite (.ite h₇.modClk.setActive.setFld.raise h₇.modClk) h₇
  have h₁₀ : d₁₀.Canon := h₉.swallow.fenceBreach
  have h₁₁ : d₁₁.Canon := .ite h₁₀.strikeLoop.strikePresent.strikeUnit.strikeCapture h₁₀
  exact .ite h₁₁.modKryup h₁₁

theorem Dev.Canon.spannedEdge {first : Bool} (h : d.Canon) : (d.spannedEdge first).Canon := by
  unfold Dev.spannedEdge
  exact .strikeCapture (.strikeStatic (.breach (.modKeeper (.beginCrossing (.missRelease (.ite h h.switchesDue))))))

theorem Dev.Canon.stopEdge (h : d.Canon) : d.stopEdge.Canon := by
  unfold Dev.stopEdge
  extract_lets d₁ q d₂ d₃
  have h₂ : d₂.Canon := h.modClk.spannedEdge.setSeq
  have h₃ : d₃.Canon := by
    unfold d₃
    split
    · exact .ite h₂.rootSeeks.modClk h₂
    · exact h₂
  exact h₃.netMove

theorem Dev.Canon.restartEdge {lost : Nat} {a b : DpSample} (h : d.Canon) : (d.restartEdge lost a b).Canon := by
  unfold Dev.restartEdge
  exact .raise (.setSeq (.runningEdge (.ite (.setFld (.setFld (.setFld (.ite h.rootsMoved h)))) (.setFld (.setFld (.ite h.rootsMoved
      h))))))

theorem Dev.Canon.opCrossingEdge {a b : DpSample} (h : d.Canon) : (opCrossingEdge a b d).Canon := by
  unfold Machine.opCrossingEdge
  refine .ite h ?_
  extract_lets
  split
  · exact h.runningEdge
  · exact h.runningEdge
  · exact .ite h.stopEdge (.ite h.spannedEdge.setSeq h)
  · exact .ite h.spannedEdge h

theorem Dev.Canon.opDecideLate (h : d.Canon) : (opDecideLate d).Canon := .ite h.count.raise h

theorem Dev.Canon.loopSample {err : Nat} (h : d.Canon) : (d.loopSample err).Canon := by
  unfold Dev.loopSample
  exact .ite h.count.setFld (.ite h.count (.ite h.count.count h.count.count.setReg))

theorem Dev.Canon.opStkAccSample {acc : Bool} {type : Fin 16} {num : BitVec 12} (h : d.Canon) :
    (opStkAccSample acc type num d).Canon := by
  unfold Machine.opStkAccSample
  refine .ite h ?_
  extract_lets
  split
  · exact .ite h.modStrike h.modStrike.loopSample
  · exact .ite h.modStrike (.ite h.modStrike.count.raise.modStrike (.each h.modStrike.count.setReg.setReg (fun _ _ => .acceptTo)))

/-! ## Machine/Clocks -/

theorem Dev.Canon.holdRoots {v : Nat} (h : d.Canon) : (d.holdRoots v).Canon := .foldl h fun _ _ h' => .ite h'.setFld h'

theorem Dev.Canon.opCrossLost (h : d.Canon) : (opCrossLost d).Canon := by
  unfold Machine.opCrossLost
  exact .ite h.modKeeper.raise.setFld.holdRoots.modKeeper.modKryup.offer h.modKeeper

theorem Dev.Canon.opHoldoverExpiry (h : d.Canon) : (opHoldoverExpiry d).Canon := by
  unfold Machine.opHoldoverExpiry
  split
  · exact h
  · exact .ite h.modKeeper.beginChange h

theorem Dev.Canon.opCrossBack {kHz : Nat} (h : d.Canon) : (opCrossBack kHz d).Canon := .ite h h.modKeeper.modKryup.raiseIf

theorem Dev.Canon.armNow (h : d.Canon) : d.armNow.Canon := h.setFld

theorem Dev.Canon.relockNow (h : d.Canon) : d.relockNow.Canon := h.askChange

theorem Dev.Canon.refSel {v : Nat} (h : d.Canon) : (d.refSel v).Canon := .ite h h.setFld.askChange

theorem Dev.Canon.opArm {path : Fin 8} (h : d.Canon) : (opArm path d).Canon := .viaCtl h fun _ => .armNow

theorem Dev.Canon.opRelock {path : Fin 8} (h : d.Canon) : (opRelock path d).Canon := .viaCtl h fun _ => .relockNow

theorem Dev.Canon.opRefSelWrite {path : Fin 8} {xb : Bool} (h : d.Canon) : (opRefSelWrite path xb d).Canon :=
  .viaCtl h fun _ => .refSel

theorem Dev.Canon.opKeepRatioWrite {path : Fin 8} {n : Fin 32} {xbMul : Fin 256} (h : d.Canon) :
    (opKeepRatioWrite path n xbMul d).Canon :=
  .viaCtl h fun _ => .askRatio

theorem Dev.Canon.readLo {path code v : Nat} (h : d.Canon) : (d.readLo path code v).1.Canon := by
  unfold Dev.readLo
  exact .pair h.modCtl

theorem Dev.Canon.opCrossNowLoRead {path : Fin 8} (h : d.Canon) : (opCrossNowLoRead path d).Canon := .viaRead h fun _ => .readLo

theorem Dev.Canon.opLastBreachLoRead {path : Fin 8} (h : d.Canon) : (opLastBreachLoRead path d).Canon :=
  .viaRead h fun _ => .readLo

theorem Dev.Canon.opCycLoRead {path : Fin 8} {trunk : Bool} (h : d.Canon) : (opCycLoRead path trunk d).Canon :=
  .ite (.viaRead h (fun _ => .readLo)) (.viaRead h (fun _ => .readLo))

theorem Dev.Canon.cpllLost (h : d.Canon) : d.cpllLost.Canon := h.pllLost.netTrip

theorem Dev.Canon.tickMoves {from_ : Nat} (h : d.Canon) : (d.tickMoves from_).Canon :=
  .ite h (.ite h.setFld.raise (.ite h.setFld h))

theorem Dev.Canon.tripEffects {m : Nat} (h : d.Canon) : (d.tripEffects m).Canon :=
  .ite h.tickMoves (.ite (.ite h h.modClk.netTrip.netTrip.tickMoves) (.ite h.modClk.cpllLost (.ite h.modClk.holdRoots h.modClk)))

theorem Dev.Canon.monTrip {m : Nat} {dead : Bool} {kHz : Nat} (h : d.Canon) : (d.monTrip m dead kHz).Canon := by
  unfold Dev.monTrip
  exact .ite h h.setFld.setFld.count.setFld.modClk.tripEffects.showSources.clockFault

theorem Dev.Canon.opMonitorTrip {m : Fin 4} {dead : Bool} {kHz : Nat} (h : d.Canon) : (opMonitorTrip m dead kHz d).Canon :=
  .ite h.monTrip h

theorem Dev.Canon.measure {m kHz : Nat} (h : d.Canon) : (d.measure m kHz).Canon := by
  unfold Dev.measure
  exact .ite h (.ite h.setFld.modClk (.ite h.monTrip h.setFld))

theorem Dev.Canon.opSourceBack {m : Fin 4} {kHz : Nat} (h : d.Canon) : (opSourceBack m kHz d).Canon := by
  unfold Machine.opSourceBack
  exact .ite h.modClk.setFld.setFld.modClk.raise.showSources h

theorem Dev.Canon.mpllLost (h : d.Canon) : d.mpllLost.Canon := by
  unfold Dev.mpllLost
  exact .foldl h.modClk (fun _ _ h' => .ite (.each h' (fun _ _ => .faultChannel)) h')

theorem Dev.Canon.opPllUnlock {mem : Bool} (h : d.Canon) : (opPllUnlock mem d).Canon :=
  .ite h (.ite (.ite h.mpllLost.clockFault h) (.ite h.cpllLost.clockFault h))

theorem Dev.Canon.opRootFail (h : d.Canon) : (opRootFail d).Canon := by
  unfold Machine.opRootFail
  exact .ite h (.ite h.pllLost.rootDown h.pllLost.idleRootDown)

theorem Dev.Canon.opStandbyRootFail (h : d.Canon) : (opStandbyRootFail d).Canon := by
  unfold Machine.opStandbyRootFail
  exact .ite h h.pllLost.idleRootDown

theorem Dev.Canon.cmdReject (h : d.Canon) : d.cmdReject.Canon := h.raise

theorem Dev.Canon.rootSwap (h : d.Canon) : d.rootSwap.Canon := .ite h.modClk h.cmdReject

theorem Dev.Canon.trunkGo (h : d.Canon) : d.trunkGo.Canon := by
  unfold Dev.trunkGo
  refine .ite h.cmdReject ?_
  refine .ite ?_ (.ite (.ite h.netRequest h.cmdReject) h.cmdReject)
  refine .ite h.cmdReject ?_
  refine .ite h.beginChange ?_
  refine .ite h.cmdReject ?_
  split
  · exact h.modClk.netRequest
  · exact h.cmdReject

theorem Dev.Canon.regGo (h : d.Canon) : d.regGo.Canon := by
  unfold Dev.regGo
  exact .ite h.netRequest h.cmdReject

theorem Dev.Canon.clkCmdWrite {w : Word} (h : d.Canon) : (d.clkCmdWrite w).Canon := by
  unfold Dev.clkCmdWrite
  extract_lets _ d₁ d₂
  have h₁ : d₁.Canon := .ite h.setFld.setFld.rootSwap h.setFld.setFld
  have h₂ : d₂.Canon := .ite h₁.trunkGo h₁
  exact .ite h₂.regGo h₂

theorem Dev.Canon.clkCmdBy {path : Nat} {l : List (Fld × Nat)} (h : d.Canon) : (d.clkCmdBy path l).Canon :=
  .viaCtl h fun _ => .clkCmdWrite

theorem Dev.Canon.opRootSwap {path : Fin 8} (h : d.Canon) : (opRootSwap path d).Canon := h.clkCmdBy

theorem Dev.Canon.opTrunkGo {path : Fin 8} {dest : Fin 4} (h : d.Canon) : (opTrunkGo path dest d).Canon := h.clkCmdBy

theorem Dev.Canon.opRegGo {path : Fin 8} {dest : Fin 2} (h : d.Canon) : (opRegGo path dest d).Canon := h.clkCmdBy

theorem Dev.Canon.opRelockStandbyLock {locked : Bool} (h : d.Canon) : (opRelockStandbyLock locked d).Canon := by
  unfold Machine.opRelockStandbyLock
  split
  · exact h
  · exact .ite h (.ite h.setFld.netRequest (.ite h.abandonChange.raise.fatal h))

theorem Dev.Canon.opNetStop {trunk : Bool} (h : d.Canon) : (opNetStop trunk d).Canon := by
  unfold Machine.opNetStop
  exact .ite h (.ite h.stopEdge h.setSeq.netMove)

theorem Dev.Canon.opSwitchForced {trunk : Bool} (h : d.Canon) : (opSwitchForced trunk d).Canon := by
  unfold Machine.opSwitchForced
  exact .ite (.netMove (.setSeq (.ite h.raise.spannedEdge h.raise))) h

theorem Dev.Canon.regRestart (h : d.Canon) : d.regRestart.Canon := by
  unfold Dev.regRestart
  exact .raise (.setSeq (.ite h.modClk.setFld.setFld h.modClk.setFld))

theorem Dev.Canon.opNetRestart {trunk : Bool} {lost : Nat} {a b : DpSample} (h : d.Canon) :
    (opNetRestart trunk lost a b d).Canon :=
  .ite h (.ite h.regRestart (.ite h h.restartEdge))

theorem Dev.Canon.opFioRetry (h : d.Canon) : (opFioRetry d).Canon := .ite h.fioStart h

/-! ## Machine/MemCmds -/

theorem Dev.Canon.rowEnd {c : Nat} {upper : Bool} {st : Nat} {ws : List RowWord} (h : d.Canon) : (d.rowEnd c upper st ws).Canon :=
  .modMem h fun _ => rfl

theorem Dev.Canon.rowAccess {c : Nat} {upper : Bool} {bank row : Nat} {reserved : Bool} {found : PortFound}
    {f : Dev → Nat → Dev × Nat × List RowWord} (h : d.Canon) (hf : ∀ e x, e.Canon → (f e x).1.Canon) :
    (d.rowAccess c upper bank row reserved found f).Canon := by
  unfold Dev.rowAccess
  refine .ite h ?_
  split
  rename_i d₁ _ hq₁
  have h₁ : d₁.Canon := .of_eq hq₁ h.asks
  refine .ite h₁ ?_
  extract_lets w bar d₂
  have h₂ : d₂.Canon := .ite h₁.parityFail h₁
  clear_value bar
  split
  · exact h₂.rowEnd
  · split
    rename_i d₃ _ _ hq₃
    have h₃ : d₃.Canon := .of_eq hq₃ (hf _ _ h₂.wearRow)
    exact h₃.rowEnd

theorem Dev.Canon.readRow {w src : Nat} {vias : List (Nat × Nat)} (h : d.Canon) : (d.readRow w src vias).1.Canon := by
  unfold Dev.readRow
  refine .foldlFst (.pair h) fun ⟨e, _⟩ _ h' => ?_
  have he : e.Canon := h'
  exact he.readOver

theorem Dev.Canon.rowVias {c : Nat} {upper : Bool} {vias : List (Nat × Nat)} {l : List (Nat × RowWord)} (h : d.Canon) :
    (d.rowVias c upper vias l).Canon :=
  h.viaErrors

theorem Dev.Canon.opRowRead {c : Fin 256} {upper : Bool} {bank : Fin 8} {row : Fin 2048} {reserved : Bool} {found : PortFound}
    (h : d.Canon) :
    (opRowRead c upper bank row reserved found d).Canon := by
  unfold Machine.opRowRead
  refine .rowAccess h fun _ _ h' => ?_
  split
  rename_i d₁ _ hq₁
  have h₁ : d₁.Canon := .of_eq hq₁ h'.readRow
  exact .pair h₁.rowVias

theorem Dev.Canon.writeOver {p : Nat} {v : RowWord} {via : BitVec 266} (h : d.Canon) : (d.writeOver p v via).Canon := by
  unfold Dev.writeOver
  exact .ite (.modMem h.putWord fun _ => rfl) h.putWord

theorem Dev.Canon.writeRow {c : Nat} {upper : Bool} {w mask : Nat} {data : Row} {vias : List (Nat × Nat)} (h : d.Canon) :
    (d.writeRow c upper w mask data vias).Canon := by
  unfold Dev.writeRow
  exact .viaErrors (.each h (fun _ _ h' => .ite h'.writeOver.countSec h'.writeOver))

theorem Dev.Canon.opRowWrite {c : Fin 256} {upper : Bool} {bank : Fin 8} {row : Fin 2048} {mask : BitVec 8} {data : Row}
    {found : PortFound} (h : d.Canon) :
    (opRowWrite c upper bank row mask data found d).Canon :=
  .rowAccess h fun _ _ h' => .pair h'.writeRow

theorem Dev.Canon.opRowTally {c : Fin 256} {upper : Bool} {bank : Fin 8} {row : Fin 2048} {wide sat : Bool} {sent : Row}
    {slips : List (Nat × Nat)} {found : PortFound} (h : d.Canon) :
    (opRowTally c upper bank row wide sat sent slips found d).Canon := by
  unfold Machine.opRowTally
  refine .rowAccess h fun e w he => ?_
  extract_lets vec one
  split
  rename_i d₁ _ hq₁
  have h₁ : d₁.Canon := .of_eq hq₁ he.readRow
  extract_lets d₂ d₃
  have h₂ : d₂.Canon := .each h₁ fun _ _ => .countSec
  have h₃ : d₃.Canon := h₂.viaErrors
  exact .iteFst (.pair h₃.count.raise) (.iteFst (.pair h₃) (.pair h₃.writeRow))

theorem Dev.Canon.twinEnd {c : Nat} {portB : Bool} {st : Nat} {ws : List RowWord} (h : d.Canon) :
    (d.twinEnd c portB st ws).Canon := by
  unfold Dev.twinEnd
  exact .ite (.raise (.count (.modMem h fun _ => rfl))) (.modMem h fun _ => rfl)

theorem Dev.Canon.opTwinRead {c : Fin 256} {portB : Bool} {row : Fin 2048} {word : Fin 8} {meet : TwinMeet}
    {upsets : List (Nat × Nat)} (h : d.Canon) :
    (opTwinRead c portB row word meet upsets d).Canon := by
  unfold Machine.opTwinRead
  extract_lets w normal
  have hn : (normal d).Canon := by
    unfold normal
    extract_lets d₁
    have h₁ : d₁.Canon := h.wearRow
    split
    rename_i d₂ _ _ hq₂
    have h₂ : d₂.Canon := .of_eq hq₂ h₁.readOver
    exact h₂.twinEnd
  refine .ite h (.ite h.twinEnd ?_)
  split
  · exact hn
  · exact hn
  · exact h.twinEnd.drew
  · exact hn
  · exact h.twinEnd
  · exact h.twinEnd
  · exact h.twinEnd
  · exact h.twinEnd

theorem Dev.Canon.opTwinWrite {c : Fin 256} {portB : Bool} {row : Fin 2048} {word : Fin 8} {data : RowWord} {meet : TwinMeet}
    (h : d.Canon) :
    (opTwinWrite c portB row word data meet d).Canon := by
  unfold Machine.opTwinWrite
  refine .ite h ?_
  refine .ite h.twinEnd ?_
  split
  · exact h.putWord.twinEnd
  · exact h.putWord.twinEnd
  · exact h.putWord.twinEnd
  · exact h.twinEnd

theorem Dev.Canon.baseEnd {c st : Nat} {ws : List RowWord} (h : d.Canon) : (d.baseEnd c st ws).Canon := .modMem h fun _ => rfl

theorem Dev.Canon.baseAccess {c w : Nat} {user : BaseUser} {waited : Nat} {found : PortFound}
    {f : Dev → Dev × Nat × List RowWord} (h : d.Canon) (hf : ∀ e, e.Canon → (f e).1.Canon) :
    (d.baseAccess c w user waited found f).Canon := by
  unfold Dev.baseAccess
  split
  rename_i d₁ _ hq₁
  have h₁ : d₁.Canon := .of_eq hq₁ h.asks
  refine .ite h₁ ?_
  refine .ite h₁.baseEnd ?_
  extract_lets d₂
  have h₂ : d₂.Canon := .ite h₁.parityFail h₁
  refine .ite h₂.baseEnd ?_
  split
  rename_i d₃ _ _ hq₃
  have h₃ : d₃.Canon := .of_eq hq₃ (hf _ h₂.wearRow)
  exact h₃.baseEnd

theorem Dev.Canon.opBasePortRead {c : Fin 256} {bank : Fin 8} {row : Fin 2048} {word : Fin 8} {user : BaseUser} {waited : Nat}
    {found : PortFound} (h : d.Canon) :
    (opBasePortRead c bank row word user waited found d).Canon := by
  unfold Machine.opBasePortRead
  refine .baseAccess h fun _ h' => ?_
  split
  rename_i d₁ _ _ hq₁
  have h₁ : d₁.Canon := .of_eq hq₁ h'.readOver
  exact .pair h₁.viaErrors

theorem Dev.Canon.opBasePortWrite {c : Fin 256} {bank : Fin 8} {row : Fin 2048} {word : Fin 8} {ben : BitVec 32} {data : RowWord}
    {user : BaseUser} {waited : Nat} {found : PortFound} (h : d.Canon) :
    (opBasePortWrite c bank row word ben data user waited found d).Canon := by
  unfold Machine.opBasePortWrite
  refine .ite h.baseEnd ?_
  refine .baseAccess h fun _ h' => ?_
  extract_lets one d₁
  have h₁ : d₁.Canon := .ite h'.countSec.viaErrors h'
  split
  rename_i d₂ _ hq₂
  have h₂ : d₂.Canon := .of_eq hq₂ h₁.putTo
  exact .pair (.ite (.modMem h₂ fun _ => rfl) h₂)

theorem Dev.Canon.opViaCountDecay (h : d.Canon) : (opViaCountDecay d).Canon := h.modStack

theorem Dev.Canon.opCorrectedWriteback {word : Nat} {cycle : BankCycle} (h : d.Canon) :
    (opCorrectedWriteback word cycle d).Canon := by
  unfold Machine.opCorrectedWriteback
  split
  · split
    rename_i d₁ _ hq₁
    have h₁ : d₁.Canon := .of_eq hq₁ h.asks
    exact .ite (.modMem h₁ fun _ => rfl) h₁
  · exact h

theorem Dev.Canon.passStep {c row : Nat} (h : d.Canon) : (d.passStep c row).Canon := by
  unfold Dev.passStep
  split
  exact .modMem h fun _ => rfl

theorem Dev.Canon.opMemScrubAccess {c : Fin 256} {bank : Fin 9} {row : Fin 2048} {upsets : List (Nat × Nat)} {cycle : BankCycle}
    (h : d.Canon) :
    (opMemScrubAccess c bank row upsets cycle d).Canon := by
  unfold Machine.opMemScrubAccess
  refine .ite ?_ h
  split
  rename_i d₁ _ hq₁
  have h₁ : d₁.Canon := .of_eq hq₁ h.asks
  exact .ite h₁ (.ite (.each h₁.freeToken.wearAt (fun _ _ => .readOver)) (.ite h₁.freeToken.passStep
      h₁.freeToken.passStep.wearRow.readRow))

theorem Dev.Canon.opScrubLate {c : Fin 256} (h : d.Canon) : (opScrubLate c d).Canon := by
  unfold Machine.opScrubLate
  refine .ite h ?_
  extract_lets d₁
  have h₁ : d₁.Canon := .modMem h fun _ => rfl
  split
  · exact h₁
  · exact .ite h₁.raise h

theorem Dev.Canon.opRowRemap {c : Fin 256} {bank : Fin 9} {row : Fin 2048} {cycle : BankCycle} (h : d.Canon) :
    (opRowRemap c bank row cycle d).Canon := by
  unfold Machine.opRowRemap
  refine .ite ?_ h
  split
  rename_i d₁ _ hq₁
  have h₁ : d₁.Canon := .of_eq hq₁ h.asks
  refine .ite h₁ ?_
  split
  rename_i d₂ _ hq₂
  have h₂ : d₂.Canon := .of_eq hq₂ h₁.takeSpare
  exact .ite (.repLog (.raise (.each (.modMem (.each h₂ (fun _ _ => .noteRead)) fun _ => rfl) (fun _ _ h' => .ite (.modMem h' fun _ =>
      rfl) h')))) h₂.raise

theorem Dev.Canon.opBankInit {q : Fin 4} (h : d.Canon) : (opBankInit q d).Canon := by
  unfold Machine.opBankInit
  exact .ite (.each (.modMemKeep h fun _ => SMap.wf_keep _) (fun _ _ => .setFld)) h

theorem Dev.Canon.marchGo {c mode banks : Nat} (h : d.Canon) : (d.marchGo c mode banks).Canon := by
  unfold Dev.marchGo
  exact .ite h.setFld.setFld.raise (.setFld (.modMem h.setFld.setFld fun _ => rfl))

theorem Dev.Canon.opMarchGo {path : Fin 8} {c : Fin 256} {mode : Bool} {banks : BitVec 8} (h : d.Canon) :
    (opMarchGo path c mode banks d).Canon :=
  .viaCtl h fun _ => .marchGo

theorem Dev.Canon.opMarchDone {c : Fin 256} {faults : List (Fin 8 × Bool × Fin 2128)} (h : d.Canon) :
    (opMarchDone c faults d).Canon := by
  unfold Machine.opMarchDone
  extract_lets b d₁
  split
  · exact h
  · refine .ite h ?_
    have h₁ : d₁.Canon := .setFld (.modMem h fun _ => rfl)
    extract_lets d₀
    have h₀ : d₀.Canon := .ite (.each h₁ fun _ _ => .zeroBank) h₁
    split
    rename_i d₂ _ hq₂
    have h₂ : d₂.Canon := by
      refine .of_eq hq₂ (.foldlFst (.pair h₀) fun ⟨e, _⟩ _ h' => ?_)
      have he : e.Canon := h'
      exact .pair he.takeSpare.repLog
    exact .each h₂.setFld.setFld.raise.raiseIf fun _ _ => .bankDies

theorem Dev.Canon.opClockViaFail {c : Fin 256} (h : d.Canon) : (opClockViaFail c d).Canon := .ite h h.clockViaFail

theorem Dev.Canon.opClockViaRestart {c : Fin 256} (h : d.Canon) : (opClockViaRestart c d).Canon := by
  unfold Machine.opClockViaRestart
  exact .ite (.ite (.modStack (.foldl h.setFld (fun _ _ => .tileRaise))) h.setFld) h

/-! ## Machine/ModeOps -/

theorem Dev.Canon.openGroup {g : Nat} (h : d.Canon) : (d.openGroup g).Canon := by
  unfold Dev.openGroup
  exact h.modFabric

theorem Dev.Canon.gateColumns (h : d.Canon) : d.gateColumns.Canon := h.modFabric.modPower

theorem Dev.Canon.queueGroup {g : Nat} (h : d.Canon) : (d.queueGroup g).Canon := .ite h h.modPower

theorem Dev.Canon.pmbFail (h : d.Canon) : d.pmbFail.Canon := h.setFld.raise

theorem Dev.Canon.vout {cur mv : Nat} {why : VoutWhy} {ack : Bool} (h : d.Canon) : (d.vout cur mv why ack).1.Canon :=
  .iteFst (.iteFst (.pair h.pmbFail) (.pair h)) (.iteFst (.pair h.pmbFail) (.pair h.setFld.modPower))

theorem Dev.Canon.modeRefuse {code : Nat} (h : d.Canon) : (d.modeRefuse code).Canon := h.setFld.raise

theorem Dev.Canon.modeBack {code : Nat} (h : d.Canon) : (d.modeBack code).Canon := h.modPower.setFld.modeRefuse

theorem Dev.Canon.openForme (h : d.Canon) : d.openForme.Canon := by
  unfold Dev.openForme
  exact .each h fun _ _ h' => .ite h'.setFld.requestOn h'

theorem Dev.Canon.queueForme (h : d.Canon) : d.queueForme.Canon := .each h fun _ _ h' => .ite h'.queueGroup h'

theorem Dev.Canon.modeStep {n : Nat} (h : d.Canon) : (Dev.modeStep n d).Canon := by
  induction n generalizing d with
  | zero => exact h
  | succ n ih =>
    unfold Dev.modeStep
    extract_lets
    split
    · split
      · exact h
      · exact ih (.modPower (.ite (.each h fun _ _ => .windUp) (.ite (.each h fun _ _ => .windUp) h)))
    · exact .ite h (ih (.modPower (.ite h.openForme h)))
    · exact .ite (.ite h.queueForme h) (ih (.modPower (.ite h.queueForme h)))
    · exact h

theorem Dev.Canon.beginMode {t : Nat} {ack : Bool} (h : d.Canon) : (d.beginMode t ack).Canon := by
  unfold Dev.beginMode
  extract_lets
  split
  · refine .ite ?_ h.setFld.setFld.modPower.modeStep
    split
    rename_i d₁ _ hq₁
    have h₁ : d₁.Canon := .of_eq hq₁ h.setFld.setFld.modPower.vout
    exact .ite h₁.modeStep h₁.modeBack
  · exact h.setFld.setFld.modPower.modeStep

theorem Dev.Canon.modeRequest {t : Nat} {ack : Bool} (h : d.Canon) : (d.modeRequest t ack).Canon := by
  unfold Dev.modeRequest
  refine .ite h ?_
  split
  · exact h.beginMode
  · exact h.modeRefuse

theorem Dev.Canon.setMode {m : Nat} (h : d.Canon) : (d.setMode m).Canon := h.setFld.raise

theorem Dev.Canon.sleep (h : d.Canon) : d.sleep.Canon := by
  unfold Dev.sleep
  extract_lets held d₁ d₂ d₃ n d₄
  have h₁ : d₁.Canon := .each h fun _ _ => .turnOff
  have h₃ : d₃.Canon := h₁.resetRegs.setFld.setFld
  exact ⟨h₃.regs, rfl, h₃.lines⟩

theorem Dev.Canon.leaveProof (h : d.Canon) : d.leaveProof.Canon := by
  unfold Dev.leaveProof
  exact .each h.modUnits fun _ _ => .drain

theorem Dev.Canon.takeStaged (h : d.Canon) : d.takeStaged.Canon := .ite h.modUnits h

theorem Dev.Canon.takeRequest (h : d.Canon) : d.takeRequest.Canon := by
  unfold Dev.takeRequest
  exact .ite h.takeStaged.modLoad h.takeStaged

theorem Dev.Canon.enterMode {ack : Bool} (h : d.Canon) : (d.enterMode ack).Canon := by
  unfold Dev.enterMode
  extract_lets t old cur _ _ d₁ d₂ d₃
  have h₁ : d₁.Canon := .ite h.modPower.setFld.setMode.modKryup.takeRequest h.modPower.setFld.setMode.gateColumns
  have h₂ : d₂.Canon := .ite h₁.leaveProof h₁
  have h₃ : d₃.Canon := by
    unfold d₃
    split
    · exact .ite h₂.vout h₂
    · exact h₂
  exact .ite h₃.sleep h₃

theorem Dev.Canon.beginStart (h : d.Canon) : d.beginStart.Canon := by
  unfold Dev.beginStart
  exact .fioStart (.modLoad (.each h (fun _ _ h' => h'.setFld.requestOn)))

theorem Dev.Canon.wake {en : Fld} (h : d.Canon) : (d.wake en).Canon := .ite h.raise.setMode.beginStart h

theorem Dev.Canon.enterIdle (h : d.Canon) : d.enterIdle.Canon := .ite h.setMode.gateColumns.modLoad h

/-! ## Machine/Modes -/

theorem Dev.Canon.opModeReq {path : Fin 8} {target : Fin 16} {ack : Bool} (h : d.Canon) : (opModeReq path target ack d).Canon :=
  .viaCtl h fun _ h' => h'.setFld.modeRequest

theorem Dev.Canon.opModeEntered {ack : Bool} (h : d.Canon) : (opModeEntered ack d).Canon := .ite h.enterMode h

theorem Dev.Canon.opPmbusSettleDone {settled : Bool} (h : d.Canon) : (opPmbusSettleDone settled d).Canon := by
  unfold Machine.opPmbusSettleDone
  split
  · exact h
  · exact .ite (.ite h.modPower.modeStep h.modPower.modeBack) h.modPower

theorem Dev.Canon.opReadIout {ack : Bool} {amps : BitVec 16} (h : d.Canon) : (opReadIout ack amps d).Canon :=
  .ite h (.ite h.modPower.setFld h.modPower.pmbFail)

theorem Dev.Canon.vsetWrite {b : Bool} {value : Word} {ack : Bool} (h : d.Canon) : (d.vsetWrite b value ack).Canon := by
  unfold Dev.vsetWrite
  extract_lets
  split
  · exact .ite h.storeRw.vout h.storeRw
  · exact h.storeRw

theorem Dev.Canon.opVsetWrite {path : Fin 8} {b : Bool} {value : Word} {ack : Bool} (h : d.Canon) :
    (opVsetWrite path b value ack d).Canon :=
  .viaWord h fun _ => .vsetWrite

theorem Dev.Canon.opWakeN (h : d.Canon) : (opWakeN d).Canon := h.wake

theorem Dev.Canon.opSpi1CsWake (h : d.Canon) : (opSpi1CsWake d).Canon := h.wake

theorem Dev.Canon.opDormTimer (h : d.Canon) : (opDormTimer d).Canon := .ite h.wake h

theorem Dev.Canon.pdWrite {k : Nat} {on : Bool} (h : d.Canon) : (d.pdWrite k on).Canon :=
  .ite h.setFld.requestOn (.ite h.raise h.turnOff)

theorem Dev.Canon.opPdWrite {path : Fin 8} {k : Fin 40} {on : Bool} (h : d.Canon) : (opPdWrite path k on d).Canon :=
  .viaCtl h fun _ h' => h'.pdWrite.modeStep

theorem Dev.Canon.quadrantUp {k : Nat} (h : d.Canon) : (d.quadrantUp k).Canon :=
  .ite h (.each h (fun _ _ h' => .ite h'.queueGroup h'))

theorem Dev.Canon.opPowerGood {k : Fin 40} (h : d.Canon) : (opPowerGood k d).Canon := .ite h.domainGood.quadrantUp.modeStep h

theorem Dev.Canon.domainFails {k : Nat} {f : Fld} (h : d.Canon) : (d.domainFails k f).Canon := h.domainFault.raise.offer.modeStep

theorem Dev.Canon.opRampFail {k : Fin 40} (h : d.Canon) : (opRampFail k d).Canon := .ite h.domainFails h

theorem Dev.Canon.opPgLost {k : Fin 40} (h : d.Canon) : (opPgLost k d).Canon := .ite h.domainFails h

theorem Dev.Canon.showEpisodes (h : d.Canon) : d.showEpisodes.Canon := h.setFld

theorem Dev.Canon.dampRise {g level remain : Nat} {began : BitVec 64} (h : d.Canon) : (d.dampRise g level remain began).Canon := by
  unfold Dev.dampRise
  exact .each h.modPower.showEpisodes fun _ _ h' => .ite h' h'.modKeeper.countBy.checkBudget

theorem Dev.Canon.dampLog {g layer : Nat} {two : Bool} (h : d.Canon) : (d.dampLog g layer two).Canon := .ite h h.setReg

theorem Dev.Canon.opDroopSense {c : Fin 256} {layer : Fin 5} {sensor : Fin 4} {two : Bool} {remain : Nat} (h : d.Canon) :
    (opDroopSense c layer sensor two remain d).Canon := by
  unfold Machine.opDroopSense
  refine .ite h ?_
  split
  · exact h.raise.count.raiseIf.dampLog.dampRise
  · exact .ite h h.raiseIf.dampRise

theorem Dev.Canon.opDroopSensorClear {g : Fin 16} {one : Bool} (h : d.Canon) : (opDroopSensorClear g one d).Canon := by
  unfold Machine.opDroopSensorClear
  split
  · exact .ite h.modPower h
  · exact h

theorem Dev.Canon.opEpisodeEnd {g : Fin 16} (h : d.Canon) : (opEpisodeEnd g d).Canon := by
  unfold Machine.opEpisodeEnd
  split
  · exact .ite h (.showEpisodes (.ite h.modPower.setFld h.modPower))
  · exact h

theorem Dev.Canon.opWidened {g : Fin 16} (h : d.Canon) : (opWidened g d).Canon := by
  unfold Machine.opWidened
  exact .ite h h.setFld.showEpisodes.raise.count.offer

theorem Dev.Canon.opGroupAdmit (h : d.Canon) : (opGroupAdmit d).Canon := by
  unfold Machine.opGroupAdmit
  split
  · exact h.modPower.openGroup.modeStep
  · exact h

end

end Sys2Proof.Machine

/-! # The one form of the stores, kept by the governor, Kryup, self-test, start and proof loops -/

namespace Sys2Proof.Machine

set_option Elab.async false

section
variable {d : Dev}

/-! ## Machine/Heat -/

theorem Dev.Canon.opBackgroundGrant {c : Fin 256} {paced : BitVec 6} {tally : Bool} (h : d.Canon) :
    (opBackgroundGrant c paced tally d).Canon := by
  unfold Machine.opBackgroundGrant
  refine .ite h ?_
  refine .ite h.modHeat ?_
  split
  · exact h.modHeat
  · exact h.modHeat

theorem Dev.Canon.governColumn {c : Nat} (h : d.Canon) : (d.governColumn c).Canon := by
  unfold Dev.governColumn
  exact .ite h.modHeat.raiseIf.raiseIf.modHeat.raise h.modHeat.raiseIf.raiseIf

theorem Dev.Canon.govern (h : d.Canon) : d.govern.Canon := by
  have hc : (d.each (List.range 256) Dev.governColumn).Canon := .each h fun _ _ => .governColumn
  rw [Dev.govern.eq_1]
  split
  exact .ite hc.raiseIf.modHeat.raiseIf.setFld.setFld.setFld.offer hc.raiseIf.modHeat.raiseIf.setFld.setFld.setFld

theorem Dev.Canon.notePeak {u : Nat} (h : d.Canon) : (d.notePeak u).Canon := by
  unfold Dev.notePeak
  exact .ite h.setFld h

theorem Dev.Canon.opGovernorPTAdjust {g : Fin 16} (h : d.Canon) : (opGovernorPTAdjust g d).Canon := by
  unfold Machine.opGovernorPTAdjust
  split
  · exact h
  · exact .ite h (.ite h.modHeat.modHeat (.ite h.modHeat.modHeat.setFld h.modHeat))

theorem Dev.Canon.opThermalTrip {layer : Fin 5} {c : Fin 256} (h : d.Canon) : (opThermalTrip layer c d).Canon :=
  .ite h h.setFld.raise.setFld.offer

theorem Dev.Canon.opTick {common : BitVec 9} {temps : List (Fin 2560 × BitVec 9)} {regCycles : Nat} {freqs : List (Fin 4 × Nat)}
    (h : d.Canon) :
    (opTick common temps regCycles freqs d).Canon := by
  unfold Machine.opTick
  extract_lets _ d₁ readings _ d₂ d₃
  have h₁ : d₁.Canon := .each h.modClk fun _ _ => .measure
  have h₂ : d₂.Canon := .govern (.each h₁.modHeat (fun _ _ => .notePeak))
  have h₃ : d₃.Canon := .ite h₂.offer h₂
  exact .ite h₃.modKryup h₃

/-! ## Machine/Kryup -/

theorem Dev.Canon.opSupply {rail : Fin 19} (h : d.Canon) : (opSupply rail d).Canon := .ite h (.offer (.ite h.extLost.extLost h))

theorem Dev.Canon.opCauseLatchClear {c : Fin 17} (h : d.Canon) : (opCauseLatchClear c d).Canon := by
  unfold Machine.opCauseLatchClear
  exact .ite h.setLatch.showLatches h

theorem Dev.Canon.opWatchdogKick (h : d.Canon) : (opWatchdogKick d).Canon := .ite h.modStrike.modKryup h

theorem Dev.Canon.opWatchdog (h : d.Canon) : (opWatchdog d).Canon := .ite h.offer h

theorem Dev.Canon.emptyProp {st : Nat} (h : d.Canon) : (d.emptyProp st).Canon := h.modKryup.setFld.setFld

theorem Dev.Canon.propOpen (h : d.Canon) : d.propOpen.Canon := h.emptyProp

theorem Dev.Canon.propSubmit (h : d.Canon) : d.propSubmit.Canon := .ite h.setFld h

theorem Dev.Canon.propDiscard (h : d.Canon) : d.propDiscard.Canon := .ite h.emptyProp h

theorem Dev.Canon.propData {w : Word} (h : d.Canon) : (d.propData w).Canon := by
  unfold Dev.propData
  exact .ite h.setReg h.setReg.modKryup.setFld

theorem Dev.Canon.propCtrl {w : Word} (h : d.Canon) : (d.propCtrl w).Canon := by
  unfold Dev.propCtrl
  exact .ite (.propOpen (.ite (.propSubmit (.ite h.propDiscard h)) (.ite h.propDiscard h))) (.ite (.propSubmit (.ite h.propDiscard h))
      (.ite h.propDiscard h))

theorem Dev.Canon.opPropOpen {path : Fin 8} (h : d.Canon) : (opPropOpen path d).Canon := .viaCtl h fun _ => .propOpen

theorem Dev.Canon.opPropDataWrite {path : Fin 8} {value : Word} (h : d.Canon) : (opPropDataWrite path value d).Canon :=
  .viaWord h fun _ => .propData

theorem Dev.Canon.opPropSubmit {path : Fin 8} (h : d.Canon) : (opPropSubmit path d).Canon := .viaCtl h fun _ => .propSubmit

theorem Dev.Canon.opPropDiscard {path : Fin 8} (h : d.Canon) : (opPropDiscard path d).Canon := .viaCtl h fun _ => .propDiscard

theorem Dev.Canon.opResetN (h : d.Canon) : (opResetN d).Canon := .ite h h.resetDevice

theorem Dev.Canon.rstReq {path key : Nat} {device warm : Bool} (h : d.Canon) : (d.rstReq path key device warm).Canon :=
  .ite h.kwCause (.ite h.setFld.resetDevice (.ite h.setFld.warmReset h.setFld))

theorem Dev.Canon.opRstReqDevice {path : Fin 8} {key : Byte} (h : d.Canon) : (opRstReqDevice path key d).Canon :=
  .viaCtl h fun _ => .rstReq

theorem Dev.Canon.opRstReqWarm {path : Fin 8} {key : Byte} (h : d.Canon) : (opRstReqWarm path key d).Canon :=
  .viaCtl h fun _ => .rstReq

/-! ## Machine/SelfTest -/

theorem Dev.Canon.bistGo (h : d.Canon) : d.bistGo.Canon := .ite h.modTest h.raise

theorem Dev.Canon.opBistCmd {path : Fin 8} {b0 : Bool} {groups : BitVec 16} (h : d.Canon) : (opBistCmd path b0 groups d).Canon :=
  .viaCtl h fun _ h' => h'.setFld.setFld.bistGo

theorem Dev.Canon.bistGroup {g : Nat} (h : d.Canon) : (d.bistGroup g).Canon := by
  unfold Dev.bistGroup
  exact .modPlates (.each (.each h.zeroBank (fun _ _ h' => .each h' (fun _ _ => .zeroBank))) (fun _ _ h' => h'.setPslot.setPslotPlate))

theorem Dev.Canon.bistBase (h : d.Canon) : d.bistBase.Canon := .each (⟨h.regs, h.bytes, h.lines⟩) fun _ _ => .modLane

theorem Dev.Canon.serviceEntry {w0 : Nat} (h : d.Canon) : (d.serviceEntry w0).1.Canon := .iteFst (.pair h.repLog) h.bistEntry

theorem Dev.Canon.bistReport {tested fail : Nat} {b0Fail : Bool} {ms : Nat} (h : d.Canon) :
    (d.bistReport tested fail b0Fail ms).Canon := by
  unfold Dev.bistReport
  exact .setFld (.setFld (.ite h.setFld.setFld h.setFld))

theorem Dev.Canon.opBistDone {entries : List Word} {logic : List (Fin 256)} {b0 : Bool} {ms : Nat} (h : d.Canon) :
    (opBistDone entries logic b0 ms d).Canon := by
  unfold Machine.opBistDone
  split
  · exact h
  · extract_lets d₁ named cols
    have h₁ : d₁.Canon := h.modTest
    split
    rename_i d₂ _ hq₂
    have h₂ : d₂.Canon := .of_eq hq₂ (.foldlFst (.pair h₁) fun _ _ h' => .pair h'.serviceEntry)
    extract_lets d₃ d₄ d₅ d₆ d₇
    have h₃ : d₃.Canon := .each h₂ fun _ _ => .logicFault
    have h₅ : d₅.Canon := .each h₃.bistReport fun _ _ => .bistGroup
    have h₆ : d₆.Canon := .ite h₅ (.each h₅ fun _ _ h' => h'.setStage.setStageInfo)
    have h₇ : d₇.Canon := .ite h₆.bistBase h₆
    exact h₇.raise

theorem Dev.Canon.pealFail (h : d.Canon) : d.pealFail.Canon := h.raise.count

theorem Dev.Canon.pealAnalogue (h : d.Canon) : d.pealAnalogue.Canon := h.pealFail.raise

theorem Dev.Canon.pealRow {c sub row : Nat} {ded : Dev → Dev} (h : d.Canon) (hded : ∀ e, e.Canon → (ded e).Canon) :
    (d.pealRow c sub row ded).Canon := by
  unfold Dev.pealRow
  split
  rename_i d₁ _ hq₁
  have h₁ : d₁.Canon := .of_eq hq₁ h.takeFrameSpare
  exact .ite (hded _ h₁.repLog.pealFail) h₁.repLog.pealFail

theorem Dev.Canon.pealThermal {layer c i : Nat} (h : d.Canon) : (d.pealThermal layer c i).Canon := by
  unfold Dev.pealThermal
  exact .ite h (.ite h.modTest h.modTest.modHeat.repLog.pealAnalogue)

theorem Dev.Canon.droopExclude {layer c i : Nat} (h : d.Canon) : (d.droopExclude layer c i).Canon :=
  .ite h (.ite h.modTest.colLose h.modTest)

theorem Dev.Canon.pealRun {c : Nat} {w : PealWork} (h : d.Canon) : (d.pealRun c w).Canon := by
  unfold Dev.pealRun
  split
  · exact .modMem h fun _ => rfl
  · exact .ite h.modTest.pealFail h
  · exact .each h fun _ _ h' => .pealRow h' fun _ h₂ => .ite h₂.plateDed h₂
  · exact .each h fun _ _ h' => .pealRow h' fun _ h₂ => .ite h₂.stageDed h₂
  · exact .ite h.modTest.repLog.pealFail h
  · extract_lets located d₁ free d₂ owned unowned d₃
    have h₁ : d₁.Canon := .each h fun _ _ h' => h'.viaFailedBy.pealFail
    have h₂ : d₂.Canon := .each h₁ fun _ _ h' => h'.modStack.pealFail
    have h₃ : d₃.Canon := by
      refine .each h₂ fun e _ he => .ite he.repLog.pealFail ?_
      split
      rename_i e₁ _ hq₁
      have he₁ : e₁.Canon := .of_eq hq₁ he.shaftTake
      exact he₁.repLog.pealFail
    exact .each h₃ fun _ _ h' => .ite h' h'.setFld.repLog.pealFail
  · exact .ite h.pealAnalogue h
  · exact .ite h.droopExclude.pealAnalogue h
  · exact h.pealThermal
  · exact h.modLane
  · exact .ite h.pealAnalogue h

theorem Dev.Canon.opPealSlice {c : Fin 256} {work : PealWork} {tour late : Bool} (h : d.Canon) :
    (opPealSlice c work tour late d).Canon := by
  unfold Machine.opPealSlice
  exact .ite (.raiseIf (.ite h.freeToken.setFld.setFld.pealRun.count h.freeToken.setFld.setFld.pealRun)) h

theorem Dev.Canon.reliefFaults {bank : Nat} {faults : List (Bool × Fin 2128)} (h : d.Canon) :
    (d.reliefFaults bank faults).1.Canon := by
  unfold Dev.reliefFaults
  refine .foldlFst (.pair h) fun _ _ h' => ?_
  split
  rename_i d₁ _ hq₁
  have h₁ : d₁.Canon := .of_eq hq₁ h'.takeSpare
  exact .pair h₁.repLog.pealFail

theorem Dev.Canon.opReliefPhaseEnd {g : Fin 16} {faults : List (Bool × Fin 2128)} (h : d.Canon) :
    (opReliefPhaseEnd g faults d).Canon := by
  unfold Machine.opReliefPhaseEnd
  split
  · exact h
  · refine .ite h ?_
    refine .ite (.showRelief (.modMem h.copyBank fun _ => rfl)) ?_
    refine .ite ?_ h.copyBank.endRelief.modeStep
    split
    rename_i d₁ _ hq₁
    have h₁ : d₁.Canon := .of_eq hq₁ h.zeroBank.reliefFaults
    exact .ite (.modMem h₁ fun _ => rfl) h₁.reliefForGood.raise.repLog.setFld.modeStep

theorem Dev.Canon.privGo (h : d.Canon) : d.privGo.Canon := by
  unfold Dev.privGo
  split
  · exact .ite h.isolate.modTest h.raise
  · exact h.raise

theorem Dev.Canon.opPealPriv {path : Fin 8} {target : Fin 4} (h : d.Canon) : (opPealPriv path target d).Canon :=
  .viaCtl h fun _ h' => h'.setFld.privGo

theorem Dev.Canon.opPrivDone {fail : Bool} (h : d.Canon) : (opPrivDone fail d).Canon := by
  unfold Machine.opPrivDone
  split
  · exact h
  · exact h.unisolate.modTest.setFld.raise

theorem Dev.Canon.repStatus {st : Nat} (h : d.Canon) : (d.repStatus st).Canon := h.setFld

theorem Dev.Canon.repGo (h : d.Canon) : d.repGo.Canon := by
  unfold Dev.repGo
  refine .ite h.repStatus ?_
  split
  · exact .ite h.repStatus h.modTest.repStatus
  · exact .ite h.repStatus h.modTest.repStatus
  · exact .ite h.repStatus (.ite h.repStatus h.modTest.repStatus)
  · exact .ite h.repStatus (.ite h.repStatus h.modTest.repStatus)
  · exact h.repStatus

theorem Dev.Canon.repBy {path op index : Nat} (h : d.Canon) : (d.repBy path op index).Canon :=
  .viaCtl h fun _ h' => h'.setFld.setFld.repGo

theorem Dev.Canon.opRepCommit {path : Fin 8} {index : Fin 4096} (h : d.Canon) : (opRepCommit path index d).Canon := h.repBy

theorem Dev.Canon.opRepCommitAll {path : Fin 8} {index : Fin 4096} (h : d.Canon) : (opRepCommitAll path index d).Canon := h.repBy

theorem Dev.Canon.opRepRemove {path : Fin 8} {index : Fin 4096} (h : d.Canon) : (opRepRemove path index d).Canon := h.repBy

theorem Dev.Canon.opRepErase {path : Fin 8} {index : Fin 4096} (h : d.Canon) : (opRepErase path index d).Canon := h.repBy

theorem Dev.Canon.opRepCmdDone {flashErr : Bool} (h : d.Canon) : (opRepCmdDone flashErr d).Canon := by
  unfold Machine.opRepCmdDone
  split
  · exact h
  · exact h.modTest.repStatus

theorem Dev.Canon.opRepFuseWrite {path : Fin 8} {value : Word} (h : d.Canon) : (opRepFuseWrite path value d).Canon :=
  .viaKw h fun _ => .burnRepair

/-! ## Machine/Start -/

theorem Dev.Canon.powerCycled {step : BootStep} {clk : ClockRec} (h : d.Canon) : (d.powerCycled step clk).Canon := by
  unfold Dev.powerCycled
  exact ⟨rfl, rfl, h.extLost.extLost.lines⟩

theorem Dev.Canon.opVccAoLoss {long : Bool} (h : d.Canon) : (opVccAoLoss long d).Canon := by
  unfold Machine.opVccAoLoss
  exact .ite (.powerCycled (.ite h h.drew)) (.modStrike (.each (.ite h h.drew) (fun _ _ => .setHs)))

theorem Dev.Canon.opPowerOn {xaFreq xaWait xbWait : Fin 8} (h : d.Canon) : (opPowerOn xaFreq xaWait xbWait d).Canon :=
  .ite h h.powerCycled.showIdent.kryupStart

theorem Dev.Canon.opSuppliesGood {rails : BitVec 19} {vccio : BitVec 16} (h : d.Canon) : (opSuppliesGood rails vccio d).Canon :=
  .ite h (.ite h.modPower.driveStrike h.modPower.driveStrike.setFld.beginStart)

theorem Dev.Canon.readBoot (h : d.Canon) : d.readBoot.Canon := by
  unfold Dev.readBoot
  exact .ite h.setFld.setFld.setFld.modLoad.modClk.setFld.setFld.setFld.requestOn h.setFld.setFld.setFld.modLoad.modClk.setFld.setFld

theorem Dev.Canon.opFioStable {c0 c1 : Nat} (h : d.Canon) : (opFioStable c0 c1 d).Canon := by
  unfold Machine.opFioStable
  exact .ite h (.ite h.modClk.showSources.fioWaiters.raiseIf.setSrc (.ite h.modClk.showSources.fioWaiters.raiseIf.readBoot
      h.modClk.showSources.fioWaiters.raiseIf))

theorem Dev.Canon.opFioStartTimeout (h : d.Canon) : (opFioStartTimeout d).Canon := .ite h.modClk.showSources.fioWaiters h

theorem Dev.Canon.bootLanes (h : d.Canon) : d.bootLanes.Canon := by
  unfold Dev.bootLanes
  exact .enable (.modGroup (.modLoad (.each h.setReg (fun _ _ => .storeRw))))

theorem Dev.Canon.startLoops (h : d.Canon) : d.startLoops.Canon := by
  unfold Dev.startLoops
  exact .ite (.bootLanes (.each h.modLoad (fun _ _ h' => .ite h'.enable h'))) (.each h.modLoad (fun _ _ h' => .ite h'.enable h'))

theorem Dev.Canon.opCrystalDelayDone {xb : Bool} {kHz : Nat} (h : d.Canon) : (opCrystalDelayDone xb kHz d).Canon := by
  unfold Machine.opCrystalDelayDone
  exact .ite h (.ite (.startLoops (.ite h.modClk.showSources h.modClk.showSources.monTrip)) (.ite h.modClk.showSources
      h.modClk.showSources.monTrip))

theorem Dev.Canon.loopsDone {mapBad : Bool} (h : d.Canon) : (d.loopsDone mapBad).Canon := by
  unfold Dev.loopsDone
  refine .ite h ?_
  extract_lets d₁
  have h₁ : d₁.Canon := by
    unfold d₁
    split
    · extract_lets
      split
      exact h.setActive.modClk.setSrc.setFld.setFld.setFld
    · exact h.setSrc
  exact h₁.setSrc.applyMaps.modLoad

theorem Dev.Canon.adoptRoot {r : Nat} (h : d.Canon) : (d.adoptRoot r).Canon := by
  unfold Dev.adoptRoot
  extract_lets
  split
  exact h.setActive.modClk

theorem Dev.Canon.opPllLock {p : Fin 4} {mapBad : Bool} (h : d.Canon) : (opPllLock p mapBad d).Canon := by
  unfold Machine.opPllLock
  refine .ite h ?_
  refine .ite (.ite h h.modClk) ?_
  split
  · exact .ite h (.ite h.setFld.ready.netMove (.loopsDone (.ite (.adoptRoot (.ite h.setFld.ready.setFld h.setFld.ready)) (.ite
      h.setFld.ready.setFld h.setFld.ready))))
  · exact .ite h (.ite h.setFld.ready.netMove (.loopsDone (.ite (.adoptRoot (.ite h.setFld.ready.setFld h.setFld.ready)) (.ite
      h.setFld.ready.setFld h.setFld.ready))))
  · exact .ite h (.ite h.setFld.ready.netMove (.loopsDone (.ite (.adoptRoot (.ite h.setFld.ready.setFld h.setFld.ready)) (.ite
      h.setFld.ready.setFld h.setFld.ready))))
  · exact h

theorem Dev.Canon.opPllLockTimeout {p : Fin 4} {mapBad : Bool} (h : d.Canon) : (opPllLockTimeout p mapBad d).Canon := by
  unfold Machine.opPllLockTimeout
  refine .ite h ?_
  refine .ite (.ite h (.each h (fun _ _ h' => .ite h'.startFail h'))) ?_
  split
  · exact .ite h (.ite h.modClk.raise.pllLost.setSeq.netMove.clockFault h.rootSeeks.modClk)
  · exact .ite h.startFail.loopsDone h

theorem Dev.Canon.opBootBistDone {entries : List Word} {logic : List (Fin 256)} {droop : List (Fin 5 × Fin 256 × Fin 4)}
    {b0 : Bool} {ms : Nat} (h : d.Canon) :
    (opBootBistDone entries logic droop b0 ms d).Canon := by
  unfold Machine.opBootBistDone
  refine .ite h ?_
  split
  rename_i d₁ _ hq₁
  have h₁ : d₁.Canon := .of_eq hq₁ h.bistEntries
  exact .modLoad (.setFld (.bistReport (.each (.each h₁ (fun _ _ => .logicFault)) (fun _ _ => .droopExclude))))

theorem Dev.Canon.noSource (h : d.Canon) : d.noSource.Canon := by
  unfold Dev.noSource
  exact h.modLoad.ldState.setFld.setFld.raise

theorem Dev.Canon.readSpi0 {source : Nat} {tables : Bool} (h : d.Canon) : (d.readSpi0 source tables).Canon := by
  unfold Dev.readSpi0
  exact .beginLoad (.modLoad (.ite (.ite h.setFld h.raise) h))

theorem Dev.Canon.opBootSourceTry {tables : Bool} (h : d.Canon) : (opBootSourceTry tables d).Canon := by
  unfold Machine.opBootSourceTry
  refine .ite h ?_
  split
  · exact h.noSource
  · exact .ite h.modLoad.readSpi0 h.modLoad.ldState.setFld.modLoad

theorem Dev.Canon.opTrunkWaitExpiry (h : d.Canon) : (opTrunkWaitExpiry d).Canon := by
  unfold Machine.opTrunkWaitExpiry
  extract_lets
  split
  · exact .ite h.modLoad h
  · exact h

theorem Dev.Canon.opWarmResetEnd (h : d.Canon) : (opWarmResetEnd d).Canon := .ite h (.ite h.modKryup.bootLanes h.modKryup)

/-! ## Machine/Proof -/

theorem Dev.Canon.prfWrite {unit o : Nat} {w : Word} (h : d.Canon) : (d.prfWrite unit o w).Canon := by
  unfold Dev.prfWrite
  exact .ite h.storeRw.modProof h.storeRw

theorem Dev.Canon.opProofInject {path : Fin 8} {unit : Nat} (h : d.Canon) : (opProofInject path unit d).Canon := by
  unfold Machine.opProofInject
  split
  · exact h
  · exact .viaCtl h fun _ => .prfWrite

theorem Dev.Canon.opProofSyncLoss {n : Fin 144} (h : d.Canon) : (opProofSyncLoss n d).Canon := by
  unfold Machine.opProofSyncLoss
  exact .ite h.setFld.count.modProof h

theorem setEach_wf (l : List (Nat × Byte)) {m : SMap Byte} (h : m.wf fun _ => 0) :
    (l.foldl (fun m e => m.set e.1 0 e.2) m).wf fun _ => 0 := by
  induction l generalizing m with
  | nil => exact h
  | cons e t ih => exact ih (SMap.wf_set _ _ h)

theorem Dev.Canon.scanConnected (h : d.Canon) : (d.scanConnected).Canon :=
  .foldl ⟨SMap.wf_keep _ h.regs, setEach_wf _ rfl, h.lines⟩ fun _ _ h' => .ite h' h'.setReg

theorem Dev.Canon.opScanEnter (h : d.Canon) : (opScanEnter d).Canon := by
  unfold Machine.opScanEnter
  exact .ite (.scanConnected (.setFld (.setJtag (.modExt h.raiseCause.zeroise fun _ => rfl)))) h.setJtag.count

end

end Sys2Proof.Machine

/-! # The one form of the stores, kept by images, release, rings, accesses, units and idle time -/

namespace Sys2Proof.Machine

set_option Elab.async false

section
variable {d : Dev}

/-! ## Machine/Image -/

theorem Dev.Canon.opColophon {flash : List Word} (h : d.Canon) : (opColophon flash d).Canon := by
  unfold Machine.opColophon
  exact .ite h (.ite h.takeWords.imageReject (.modLoad (.setFld (.ite h.takeWords h.takeWords.withdraw))))

theorem Dev.Canon.recordSeen {r : List Word} (h : d.Canon) : (d.recordSeen r).Canon := by
  unfold Dev.recordSeen
  exact h.takeWords.modLoad

theorem Dev.Canon.onRecord {flash : List Word} {kind : Nat} {place : RecHead → Image → Nat} {need : Nat}
    {check : RecHead → List Word → Image → Nat} {take : RecHead → List Word → Image → Dev → Dev} (h : d.Canon)
    (htake : ∀ r ws img e, e.Canon → (take r ws img e).Canon) :
    (d.onRecord flash kind place need check take).Canon := by
  unfold Dev.onRecord
  split
  · exact h
  · exact .ite h (.ite h.recordSeen.imageReject (htake _ _ _ _ h.recordSeen))

theorem Dev.Canon.setImage {img : Image} (h : d.Canon) : (d.setImage img).Canon := h.modLoad

theorem Dev.Canon.unlessAgain {f : Dev → Dev} (h : d.Canon) (hf : ∀ e, e.Canon → (f e).Canon) : (d.unlessAgain f).Canon :=
  .ite h (hf _ h)

theorem Dev.Canon.partialBegins {b : Nat} (h : d.Canon) : (d.partialBegins b).Canon := by
  unfold Dev.partialBegins
  exact .each h.modFabric fun _ _ => .toLoading

theorem Dev.Canon.opGalleyOpen {flash : List Word} (h : d.Canon) : (opGalleyOpen flash d).Canon := by
  unfold Machine.opGalleyOpen
  exact .onRecord h (fun _ _ _ _ h' => .modLoad (.setImage (.unlessAgain (.ite (.unlessAgain h' (fun _ => .partialBegins)) h') (fun _
      h₂ => .ite h₂ (.each (.each h₂ (fun _ _ => .tileRaise)) (fun _ _ => .tileRaise))))))

theorem Dev.Canon.opGalleyClose {flash : List Word} (h : d.Canon) : (opGalleyClose flash d).Canon := by
  unfold Machine.opGalleyClose
  exact .onRecord h fun _ _ _ _ => .modLoad

theorem Dev.Canon.loadResident {p : PlateBody} {slot : Nat} {part : Bool} {seen : List (Nat × PlateSeen)} (h : d.Canon) :
    (d.loadResident p slot part seen).1.Canon := by
  unfold Dev.loadResident
  refine .foldlFst (.pair h) fun _ _ h' => ?_
  split
  rename_i d₁ _ hq₁
  have h₁ : d₁.Canon := .of_eq hq₁ h'.loadGroup
  exact .pair (.ite h₁.setPslotPlate.setPslot.modPlates.setFld.setPslot h₁.setPslotPlate.setPslot)

theorem Dev.Canon.opPlateFrames {flash : List Word} {seen : List (Nat × PlateSeen)} (h : d.Canon) :
    (opPlateFrames flash seen d).Canon := by
  unfold Machine.opPlateFrames
  refine .onRecord h fun _ _ _ _ h' => ?_
  refine .ite h'.setImage ?_
  extract_lets _ d₁
  have h₁ : d₁.Canon := h'.setImage.putPlate.setStage.setStageInfo
  refine .ite h₁ ?_
  split
  rename_i d₂ _ hq₂
  have h₂ : d₂.Canon := .of_eq hq₂ h₁.loadResident
  exact .ite h₂ h₂.imageReject

theorem Dev.Canon.opInitValues {flash : List Word} (h : d.Canon) : (opInitValues flash d).Canon := by
  unfold Machine.opInitValues
  exact .onRecord h (fun _ _ _ _ h' => .unlessAgain h'.setImage (fun _ => .modFabric))

theorem Dev.Canon.opPinTable {flash : List Word} (h : d.Canon) : (opPinTable flash d).Canon :=
  .onRecord h fun _ _ _ _ => .setImage

theorem Dev.Canon.opUnitSettings {flash : List Word} (h : d.Canon) : (opUnitSettings flash d).Canon :=
  .onRecord h fun _ _ _ _ => .setImage

theorem Dev.Canon.opRingMap {flash : List Word} (h : d.Canon) : (opRingMap flash d).Canon := .onRecord h fun _ _ _ _ => .setImage

theorem Dev.Canon.opMemoryPreload {flash : List Word} (h : d.Canon) : (opMemoryPreload flash d).Canon :=
  .onRecord h fun _ _ _ _ => .setImage

theorem Dev.Canon.opThermalMap {flash : List Word} (h : d.Canon) : (opThermalMap flash d).Canon := by
  unfold Machine.opThermalMap
  exact .onRecord h fun _ _ _ _ => .setImage

theorem Dev.Canon.opDriveMap {flash : List Word} (h : d.Canon) : (opDriveMap flash d).Canon := by
  unfold Machine.opDriveMap
  refine .onRecord h fun _ _ _ _ h' => ?_
  split
  · exact h'
  · exact .unlessAgain h'.setImage (fun _ => .modPlates)

theorem Dev.Canon.opLatency {flash : List Word} (h : d.Canon) : (opLatency flash d).Canon := by
  unfold Machine.opLatency
  exact .onRecord h fun _ _ _ _ => .setImage

theorem Dev.Canon.opOptionalRecord {flash : List Word} (h : d.Canon) : (opOptionalRecord flash d).Canon := by
  unfold Machine.opOptionalRecord
  split
  · exact h
  · exact .ite h (.ite h.recordSeen.imageReject h.recordSeen)

/-! ## Machine/Release -/

theorem Dev.Canon.ldCtrlBy {path : Nat} {f : Fld} (h : d.Canon) : (d.ldCtrlBy path f).Canon := .viaCtl h fun _ => .ldCtrl

theorem Dev.Canon.opLdOpen {path : Fin 8} (h : d.Canon) : (opLdOpen path d).Canon := h.ldCtrlBy

theorem Dev.Canon.opLoadAbort {path : Fin 8} (h : d.Canon) : (opLoadAbort path d).Canon := h.ldCtrlBy

theorem Dev.Canon.opReapply {path : Fin 8} (h : d.Canon) : (opReapply path d).Canon := h.ldCtrlBy

theorem Dev.Canon.opLdDataWrite {path : Fin 8} {value : Word} (h : d.Canon) : (opLdDataWrite path value d).Canon :=
  .viaWord h fun _ => .ldData

theorem Dev.Canon.opLoadTimeout (h : d.Canon) : (opLoadTimeout d).Canon := by
  unfold Machine.opLoadTimeout
  exact .ite h.imageReject h

theorem Dev.Canon.releaseMain {b : Nat} (h : d.Canon) : (d.releaseMain b).Canon := by
  unfold Dev.releaseMain
  exact .ite h.loadInit.zeroTallies.modUser h.loadInit.zeroTallies.modUser.fenceNotes

theorem Dev.Canon.releaseHeld {b : Nat} (h : d.Canon) : (d.releaseHeld b).Canon := .ite h.modUser h

theorem Dev.Canon.showRelease {img : Image} (h : d.Canon) : (d.showRelease img).Canon := by
  unfold Dev.showRelease
  exact h.setFld.setFld.setFld.setFld.setReg.setReg.ldState.raise

theorem Dev.Canon.releaseForme {img : Image} (h : d.Canon) : (d.releaseForme img).Canon := by
  unfold Dev.releaseForme
  extract_lets _ _ _ d₁ d₂ d₃
  have h₁ : d₁.Canon := .each h.modLoad.releaseMain (fun _ _ h' => .ite (.ite h'.releaseMain h') h'.releaseHeld)
  have h₂ : d₂.Canon := .each h₁ fun _ _ h' => .ite h'.modPower.openGroup h'
  have h₃ : d₃.Canon := .each h₂ fun _ _ => .fenceUpdate
  exact h₃.sparesAtRelease.showRelease.beginSeq

theorem Dev.Canon.opMainPathRelease (h : d.Canon) : (opMainPathRelease d).Canon := by
  unfold Machine.opMainPathRelease
  split
  · exact .ite h h.releaseForme
  · exact h

theorem Dev.Canon.opStagedOutputs {unit : Nat} (h : d.Canon) : (opStagedOutputs unit d).Canon := by
  unfold Machine.opStagedOutputs
  extract_lets
  split
  · exact h
  · exact .ite h (.ite h.startFail (.each (.fenceNotes (.modUser (.modLoad (.each h (fun _ _ => .switchTo))))) (fun _ _ =>
      .fenceUpdate)))

theorem Dev.Canon.passStage {unit gap : Nat} (h : d.Canon) : (d.passStage unit gap).Canon := by
  unfold Dev.passStage
  exact h.modUser

theorem Dev.Canon.opStagedWriteEnables {unit : Nat} (h : d.Canon) : (opStagedWriteEnables unit d).Canon := by
  unfold Machine.opStagedWriteEnables
  exact .ite h h.passStage.modUser

theorem Dev.Canon.opStagedReset {unit : Nat} (h : d.Canon) : (opStagedReset unit d).Canon := by
  unfold Machine.opStagedReset
  exact .ite h (.ite h.loadInit.zeroTallies.passStage.modUser.beginSeq (.ite h.loadInit.zeroTallies.passStage.modUser.ready
      h.loadInit.zeroTallies.passStage.modUser))

/-! ## Machine/RingCmds -/

theorem Dev.Canon.ringLoss {e : Nat} (h : d.Canon) : (d.ringLoss e).Canon := .ite h.lose h

theorem Dev.Canon.meetDesc {r : Nat} {bad : Bool} (h : d.Canon) : (d.meetDesc r bad).Canon := .ite h.descDead.ringLoss h

theorem Dev.Canon.opPush {port : Fin 32} {ring : BitVec 18} {cross : BitVec 48} {tag : Byte} {late : Bool} {data : BitVec 192}
    (h : d.Canon) :
    (opPush port ring cross tag late data d).Canon := by
  unfold Machine.opPush
  refine .ite h ?_
  refine .ite (.ite h.modRings h.modRings.count.raise) ?_
  split
  · exact .ite h.modRings h.modRings.count.raise
  · exact .ite h.modRings h.modRings.count.raise
  · exact h.fifoOffer

theorem Dev.Canon.opGapRecordHandoff {e : Fin 16} (h : d.Canon) : (opGapRecordHandoff e d).Canon := by
  unfold Machine.opGapRecordHandoff
  exact .ite h.modEngine h

theorem Dev.Canon.opGapWritten {e : Fin 16} {ports : List PortFound} {tree : List TreeUpset} (h : d.Canon) :
    (opGapWritten e ports tree d).Canon := by
  unfold Machine.opGapWritten
  exact .ite (.ringLoss (.raise (.modEngine (.drew (.withPorts h.treeStruck (fun _ h' => .each h' (fun _ _ => .ringWrite))))))) h

theorem Dev.Canon.opSlotWrite {e : Fin 16} {descBad : Bool} {port : PortFound} {tree : List TreeUpset} (h : d.Canon) :
    (opSlotWrite e descBad port tree d).Canon := by
  unfold Machine.opSlotWrite
  split
  · exact h
  · exact .ite (.ringLoss (.withPorts h.modEngine.treeStruck.meetDesc (fun _ => .ringWrite))) h

theorem Dev.Canon.sweepRing {r : Nat} (h : d.Canon) : (d.sweepRing r).Canon := by
  unfold Dev.sweepRing
  exact .ite h.setDesc h

theorem Dev.Canon.opSweepVisit {e : Fin 16} {descBad : Bool} {tree : List TreeUpset} (h : d.Canon) :
    (opSweepVisit e descBad tree d).Canon := by
  unfold Machine.opSweepVisit
  refine .ite ?_ h
  split
  · exact .ite h.modEngine.treeStruck.meetDesc.sweepRing h.modEngine.treeStruck.meetDesc
  · exact h

theorem Dev.Canon.opFlushDone {e : Fin 16} {tree : List TreeUpset} (h : d.Canon) : (opFlushDone e tree d).Canon := by
  unfold Machine.opFlushDone
  exact .ite (.modEngine (.each h.treeStruck (fun _ _ => .flushRing))) h

theorem Dev.Canon.openRing {e ring : Nat} (h : d.Canon) : (d.openRing e ring).1.Canon := by
  unfold Dev.openRing
  exact .iteFst (.pair h) (.iteFst (.pair h) (.iteFst (.pair h) (.iteFst (.pair h) (.pair h.setDesc))))

theorem Dev.Canon.closeRing {e ring : Nat} (h : d.Canon) : (d.closeRing e ring).Canon := h.setDesc

theorem Dev.Canon.ringGo {e op ring : Nat} (h : d.Canon) : (d.ringGo e op ring).Canon := by
  unfold Dev.ringGo
  extract_lets
  split
  rename_i d₁ _ hq₁
  have h₁ : d₁.Canon := by
    refine .of_eq hq₁ ?_
    split
    · exact h.setFld.setFld.openRing
    · exact .pair h.setFld.setFld.closeRing
    · exact .pair h.setFld.setFld.rebuild
    · exact .pair h.setFld.setFld
  exact h₁.setFld

theorem Dev.Canon.ringCmd {path e op ring : Nat} (h : d.Canon) : (d.ringCmd path e op ring).Canon := .viaCtl h fun _ => .ringGo

theorem Dev.Canon.opOpenRing {path : Fin 8} {e : Fin 16} {ring : Fin 16384} (h : d.Canon) : (opOpenRing path e ring d).Canon :=
  h.ringCmd

theorem Dev.Canon.opCloseRing {path : Fin 8} {e : Fin 16} {ring : Fin 16384} (h : d.Canon) : (opCloseRing path e ring d).Canon :=
  h.ringCmd

theorem Dev.Canon.opRebuild {path : Fin 8} {e : Fin 16} (h : d.Canon) : (opRebuild path e d).Canon := h.ringCmd

theorem Dev.Canon.opRebuildDone {e : Fin 16} (h : d.Canon) : (opRebuildDone e d).Canon := .ite h.modEngine.raise.ready h

theorem Dev.Canon.scan {e r : Nat} {a : Accept} {stop : Option Nat} {n : Nat} {s : Scan} (h : d.Canon) :
    (Dev.scan e r a stop n d s).1.Canon := by
  induction n generalizing d s with
  | zero => exact h
  | succ n ih =>
    unfold Dev.scan
    extract_lets
    split
    rename_i d₁ _ _ hq₁
    have h₁ : d₁.Canon := .of_eq hq₁ (.iteFst h.baseRead h.dsRead32)
    split
    · exact .iteFst (.pair h₁) (ih h₁)
    · exact .pair h₁.count.raise.ringDead
    · exact ih h₁.count.raise

theorem Dev.Canon.extractGroup {e : Nat} {a : Accept} {bad : List Nat} {g : Nat} (h : d.Canon) :
    (d.extractGroup e a bad g).1.Canon := by
  unfold Dev.extractGroup
  extract_lets inGroup old d₁ visit
  have h₁ : d₁.Canon := .each h fun _ _ => .descDead
  split
  rename_i d₂ _ _ hq₂
  have h₂ : d₂.Canon := by
    refine .of_eq hq₂ (.foldlFst (.pair h₁) fun ⟨e, _, _⟩ _ h' => ?_)
    have he : e.Canon := h'
    exact .pair he.flushFirst.scan
  exact .pair h₂.drew

theorem Dev.Canon.opExtract {e : Fin 16} {bad : List Nat} {ports : List PortFound} (h : d.Canon) :
    (opExtract e bad ports d).Canon := by
  unfold Machine.opExtract
  refine .withPorts h fun d₀ h₀ => ?_
  extract_lets r
  split
  · exact h₀
  · refine .ite ?_ h₀
    extract_lets d₁ groups
    have h₁ : d₁.Canon := h₀.modEngine
    split
    rename_i d₂ _ hq₂
    have h₂ : d₂.Canon := by
      refine .of_eq hq₂ (.foldlFst (.pair h₁) fun ⟨e, _⟩ _ h' => ?_)
      have he : e.Canon := h'
      exact .pair he.extractGroup
    exact .ringLoss (.ite h₂.modEngine.count h₂.modEngine)

theorem Dev.Canon.opFragmentSend {e : Fin 16} (h : d.Canon) : (opFragmentSend e d).Canon := by
  unfold Machine.opFragmentSend
  split
  · exact h
  · exact .ite (.ite h.modEngine.fragOut.count h.modEngine.fragOut) h

theorem Dev.Canon.opReadoutQueueWrite {e : Fin 16} {ports : List PortFound} (h : d.Canon) :
    (opReadoutQueueWrite e ports d).Canon := by
  unfold Machine.opReadoutQueueWrite
  refine .withPorts h fun _ h' => ?_
  split
  · exact h'
  · exact .ite (.ite h'.modEngine.rqEntry.count h'.modEngine.rqEntry) h'

/-! ## Machine/Access -/

theorem Dev.Canon.plainWrite {u : Unit} {off : Nat} {w : Word} (h : d.Canon) : (d.plainWrite u off w).Canon := by
  unfold Dev.plainWrite
  split
  · exact h
  · exact h.setReg

theorem Dev.Canon.laneWrite {u : Unit} {off : Nat} {w : Word} (h : d.Canon) : (d.laneWrite u off w).Canon := by
  unfold Dev.laneWrite
  refine .ite h.firWrite ?_
  refine .ite h.plainWrite.ampWrite ?_
  refine .ite (.ite h.plainWrite.setFld h.plainWrite) ?_
  refine .ite (.when (.dfeCtrlWrite h (fun _ => .plainWrite)) (fun _ => .snapTaps)) ?_
  refine .ite (.ite h.plainWrite.dfeLoad h.plainWrite) ?_
  refine .ite (.when h.plainWrite (fun _ => .eyeStart)) ?_
  refine .ite (.when (.when h.forceManual (fun _ => .bitslip)) (fun _ => .rehunt)) ?_
  refine .ite (.when (.when (.when h.plainWrite (fun _ => .renegotiate)) (fun _ => .proofSend)) (fun _ => .proofSend)) ?_
  exact .ite (.when h.plainWrite (fun _ => .remGo)) (.ite h.prfWrite h.plainWrite)

theorem Dev.Canon.gpioWrite {u : Unit} {off : Nat} {w : Word} (h : d.Canon) : (d.gpioWrite u off w).Canon := by
  unfold Dev.gpioWrite
  exact .ite (.pinChange h (fun _ => .pinCfgWrite)) (.pinChange h (fun _ => .plainWrite))

theorem Dev.Canon.stctlWrite {u : Unit} {off : Nat} {w : Word} (h : d.Canon) : (d.stctlWrite u off w).Canon := by
  unfold Dev.stctlWrite
  refine .ite (.when h.plainWrite (fun _ => .bistGo)) ?_
  exact .ite (.ite h.plainWrite (.each h.plainWrite (fun _ _ => .windUp))) (.ite (.when h.plainWrite (fun _ => .privGo)) (.ite (.when
      h.plainWrite (fun _ => .repGo)) h.plainWrite))

theorem Dev.Canon.keeperWrite {u : Unit} {off : Nat} {w : Word} (h : d.Canon) : (d.keeperWrite u off w).Canon :=
  .ite (.when (.when h.plainWrite.refSel (fun _ => .armNow)) (fun _ => .relockNow)) (.ite h.askRatio h.plainWrite)

theorem Dev.Canon.kryupWrite {path : Nat} {u : Unit} {off : Nat} {w : Word} (h : d.Canon) : (d.kryupWrite path u off w).Canon :=
  .ite h.rstReq (.ite h.propCtrl (.ite h.propData h.plainWrite))

theorem Dev.Canon.serialWrite {u : Unit} {off : Nat} {w : Word} (h : d.Canon) : (d.serialWrite u off w).Canon :=
  .ite h.serTx (.ite h.serCmdWrite (.ite h.setReg h.plainWrite))

theorem Dev.Canon.columnWrite {u : Unit} {off : Nat} {w : Word} (h : d.Canon) : (d.columnWrite u off w).Canon :=
  .ite h.marchGo (.ite h.prfWrite h.plainWrite)

theorem Dev.Canon.faultWrite {u : Unit} {w : Word} (h : d.Canon) : (d.faultWrite u w).Canon := by
  unfold Dev.faultWrite
  exact .ite (.each h.plainWrite (fun _ _ => .setReg)) h.plainWrite

theorem Dev.Canon.effectWrite {path : Nat} {u : Unit} {off : Nat} {w : Word} {m : AccessMeet} (h : d.Canon) :
    (d.effectWrite path u off w m).Canon := by
  unfold Dev.effectWrite
  refine .ite h.ctrlWrite ?_
  refine .ite h.versionWrite ?_
  refine .ite h.faultWrite ?_
  refine .ite h.plainWrite ?_
  extract_lets
  split
  · exact .ite (.ite h.plainWrite.modCtl h.plainWrite) (.ite h.ldCtrl (.ite h.ldData h.plainWrite))
  · exact h.kryupWrite
  · exact .ite h.clkCmdWrite h.plainWrite
  · exact h.keeperWrite
  · exact .ite (.when h.plainWrite (fun _ => .modeRequest)) (.ite h.vsetWrite (.ite h.vsetWrite h.plainWrite))
  · exact .ite h.pdWrite.modeStep h.plainWrite
  · exact .ite h.pcmdWrite (.ite h.pstreamWrite h.plainWrite)
  · exact .ite (.pinChange h (fun _ => .muxWrite)) h.plainWrite
  · exact h.gpioWrite
  · exact h.serialWrite
  · exact .ite (.when h.plainWrite (fun _ => .flGo)) h.plainWrite
  · exact .ite (.ite h.plainWrite.busySees h.plainWrite) (.ite h.prfWrite h.plainWrite)
  · exact h.stctlWrite
  · exact .ite h.prfWrite h.plainWrite
  · exact .ite h.regionWrite h.plainWrite
  · exact .ite (.when h.plainWrite (fun _ => .moverGo)) h.plainWrite
  · exact h.laneWrite
  · exact h.laneWrite
  · exact .ite h.pllCfgWrite h.plainWrite
  · exact .ite (.ite h.ringGo h.plainWrite) h.plainWrite.seeBusy
  · exact h.columnWrite
  · exact h.plainWrite

theorem Dev.Canon.writeReg {path addr : Nat} {w : Word} {m : AccessMeet} (h : d.Canon) : (d.writeReg path addr w m).1.Canon := by
  unfold Dev.writeReg
  split
  · exact .pair h
  · exact .iteFst (.iteFst (.pair h.kwCause) (.iteFst (.pair h.ctrlWrite) (.pair h.kryWrite))) (.pair h.effectWrite)

theorem Dev.Canon.pairRead {path : Nat} {u : Unit} {off : Nat} {w : Word} (h : d.Canon) : (d.pairRead path u off w).1.Canon := by
  unfold Dev.pairRead
  split
  · exact .pair h
  · exact .iteFst (.pair h.modCtl) (.pair h)

theorem Dev.Canon.readReg {path addr : Nat} (h : d.Canon) : (d.readReg path addr).1.Canon := by
  unfold Dev.readReg
  refine .iteFst (.pair h) ?_
  split
  · exact .pair h
  · extract_lets
    split
    · exact .iteFst (.pair h) (.pair h)
    · refine .iteFst h.readLo ?_
      refine .iteFst (.pair h) ?_
      refine .iteFst h.readLo ?_
      refine .iteFst (.pair h) ?_
      refine .iteFst h.readLo ?_
      refine .iteFst (.pair h) ?_
      refine .iteFst h.readLo ?_
      refine .iteFst (.pair h) ?_
      refine .iteFst ?_ ?_
      · split
        rename_i d₁ _ hq₁
        have h₁ : d₁.Canon := .of_eq hq₁ h.serRx
        exact .pair h₁
      · refine .iteFst (.pair h) ?_
        extract_lets
        split
        rename_i d₂ _ hq₂
        have h₂ : d₂.Canon := .of_eq hq₂ h.pairRead
        exact .pair (.ite h₂ h₂.setReg)

theorem Dev.Canon.winDone {win path : Nat} {stat : Option Nat} (h : d.Canon) : (d.winDone win path stat).Canon := by
  unfold Dev.winDone
  extract_lets b ctrl d₁
  have h₁ : d₁.Canon := by
    unfold d₁
    split
    · exact h.setReg
    · exact h
  exact .ite (.ite h₁.setReg.setReg h₁.setReg) h₁

theorem Dev.Canon.dirWrite {a : Nat} {w : Word} (h : d.Canon) : (d.dirWrite a w).Canon :=
  .ite h.modRings (.ite h.setDesc (.ite h.setDesc h.raise))

theorem Dev.Canon.checkWrite {x : BaseTo} {data : Word} (h : d.Canon) : (d.checkWrite x data).1.Canon := by
  unfold Dev.checkWrite
  refine .iteFst (.pair h) ?_
  extract_lets
  split
  rename_i d₁ _ hq₁
  have h₁ : d₁.Canon := .of_eq hq₁ h.nextMeet
  exact .iteFst (.pair h₁.noteMeet) (.pair (.modMem h₁.wearTo.noteMeet fun _ => rfl))

theorem Dev.Canon.testAccess {a : Nat} {write : Bool} {data : Word} (h : d.Canon) : (d.testAccess a write data).1.Canon := by
  unfold Dev.testAccess
  refine .iteFst h.checkWrite ?_
  refine .iteFst ?_ ?_
  · split
    rename_i d₁ _ hq₁
    have h₁ : d₁.Canon := .of_eq hq₁ h.writeTo
    exact .pair h₁
  · extract_lets
    split
    rename_i d₂ _ _ hq₂
    have h₂ : d₂.Canon := .of_eq hq₂ h.readTo
    exact .iteFst (.pair h₂) (.iteFst (.pair h₂) (.pair h₂))

theorem Dev.Canon.winData {win path : Nat} {write : Bool} {data : Word} {m : AccessMeet} (h : d.Canon) :
    (d.winData win path write data m).1.Canon := by
  unfold Dev.winData
  refine .iteFst (.iteFst (.pair h.dirWrite.winDone) (.pair h.winDone)) ?_
  refine .iteFst (.pair h.winDone) ?_
  split
  rename_i d₁ _ _ hq₁
  have h₁ : d₁.Canon := .of_eq hq₁ h.portsIn.testAccess
  exact .pair h₁.portsOut.winDone

theorem Dev.Canon.winAccess {path addr : Nat} {write : Bool} {data : Word} {m : AccessMeet} (h : d.Canon) :
    (d.winAccess path addr write data m).1.Canon := by
  unfold Dev.winAccess
  exact .iteFst h.winData (.iteFst (.pair h.setReg) (.pair h))

theorem Dev.Canon.tellLane {a : Access} (h : d.Canon) : (d.tellLane a).Canon := by
  unfold Dev.tellLane
  split
  · exact h
  · exact h.mgmtWord

theorem Dev.Canon.debugIssue {a : Access} (h : d.Canon) : (d.debugIssue a).Canon := .ite h.winDone.finish.tellLane h.modCtl

theorem Dev.Canon.access {a : Access} {m : AccessMeet} (h : d.Canon) : (d.access a m).Canon := by
  unfold Dev.access
  refine .ite h.debugIssue ?_
  refine .ite h.accErr.finish.tellLane ?_
  refine .tellLane ?_
  refine .perform h fun _ h' => ?_
  refine .iteFst h'.winAccess ?_
  refine .iteFst ?_ h'.readReg
  split
  rename_i d₁ _ hq₁
  have h₁ : d₁.Canon := .of_eq hq₁ h'.writeReg
  exact .pair h₁

theorem Dev.Canon.popAccess {path : Nat} (h : d.Canon) : (d.popAccess path).Canon := h.modCtl

theorem Dev.Canon.opCtrlGrant {m : AccessMeet} (h : d.Canon) : (opCtrlGrant m d).Canon := by
  unfold Machine.opCtrlGrant
  split
  · exact h
  · exact h.popAccess.modCtl.access

theorem Dev.Canon.present {a : Access} {m : AccessMeet} (h : d.Canon) : (d.present a m).Canon := .ite h.modCtl.access h.enqueue

theorem Dev.Canon.opRegisterWrite {path : Fin 8} {addr value : Word} {m : AccessMeet} (h : d.Canon) :
    (opRegisterWrite path addr value m d).Canon :=
  h.present

theorem Dev.Canon.opRcFieldRead {path : Fin 8} {addr : Word} {m : AccessMeet} (h : d.Canon) :
    (opRcFieldRead path addr m d).Canon :=
  h.present

theorem Dev.Canon.opAccessTimeout {path : Fin 8} (h : d.Canon) : (opAccessTimeout path d).Canon := by
  unfold Machine.opAccessTimeout
  extract_lets
  split
  · exact .ite h.modCtl.accErr.complete.tellLane h
  · split
    · exact .ite h.popAccess.accErr.complete.tellLane h
    · exact h

theorem Dev.Canon.opClockGateWake {unit : Nat} (h : d.Canon) : (opClockGateWake unit d).Canon := by
  unfold Machine.opClockGateWake
  exact .ite (.queueGroup (.each h (fun _ _ => .holdOn))) (.each h (fun _ _ => .holdOn))

theorem Dev.Canon.opFmReq {port : Fin 4} {write : Bool} {addr : BitVec 30} {data : Word} (h : d.Canon) :
    (opFmReq port write addr data d).Canon := by
  unfold Machine.opFmReq
  exact .ite h (.ite h.enqueue h)

theorem Dev.Canon.opDirWinAccess {path : Fin 8} {write : Bool} {data : Word} (h : d.Canon) :
    (opDirWinAccess path write data d).Canon :=
  h.present

theorem Dev.Canon.opTreeWinRead {path : Fin 8} {rebuilt : Bool} (h : d.Canon) : (opTreeWinRead path rebuilt d).Canon := h.present

theorem Dev.Canon.opTestWinAccess {path : Fin 8} {write : Bool} {data : Word} {port : PortFound} (h : d.Canon) :
    (opTestWinAccess path write data port d).Canon :=
  h.present

theorem Dev.Canon.opDebugWinAccess {path : Fin 8} {write : Bool} {data : Word} (h : d.Canon) :
    (opDebugWinAccess path write data d).Canon :=
  h.present

theorem Dev.Canon.opDebugWinDone {path : Fin 8} {found : Found} (h : d.Canon) : (opDebugWinDone path found d).Canon := by
  unfold Machine.opDebugWinDone
  split
  · exact h
  · refine .withPorts h.modCtl fun e he => ?_
    split
    rename_i d₁ _ _ hq₁
    have h₁ : d₁.Canon := by
      refine .of_eq hq₁ (.iteFst ?_ ?_)
      · split
        rename_i d₂ _ hq₂
        exact .pair (.of_eq hq₂ he.dsWrite)
      · split
        rename_i d₂ _ _ hq₂
        exact .pair (.of_eq hq₂ he.dsRead)
    exact h₁.winDone.complete.tellLane

theorem Dev.Canon.opEventRepeat (h : d.Canon) : (opEventRepeat d).Canon := by
  unfold Machine.opEventRepeat
  exact .ite h.sendEvent.modCtl h

/-! ## Machine/Finish -/

theorem Dev.Canon.imageRatio {img : Image} (h : d.Canon) : (d.imageRatio img).Canon := by
  unfold Dev.imageRatio
  split
  · exact .ite h h.askRatio
  · exact h

theorem Dev.Canon.settingWrite {b off : Nat} {w : Word} {m : AccessMeet} (h : d.Canon) : (d.settingWrite b off w m).Canon :=
  .ite (.ite h.storeRw h) (.ite h (.ite h h.effectWrite))

theorem Dev.Canon.ringDirWrite {a : Nat} {w : Word} (h : d.Canon) : (d.ringDirWrite a w).Canon := .ite h.dirWrite h

/-! A load that applies its records keeps them: record by record, and value by value within one. -/

theorem applied_foldl_canon {α : Type} {f : Applied → α → Applied} {l : List α} {x : Applied} (h : x.dev.Canon)
    (hf : ∀ x e, x.dev.Canon → (f x e).dev.Canon) : (l.foldl f x).dev.Canon :=
  List.foldlRecOn (motive := fun x : Applied => x.dev.Canon) l f h fun x hx e _ => hf x e hx

theorem Applied.present_canon {x : Applied} {s : Settings} (h : x.dev.Canon) : (x.present s).dev.Canon := by
  unfold Applied.present
  extract_lets d₁ _
  have h₁ : d₁.Canon := h.versionWrite
  split
  · exact h₁
  · exact h₁

theorem Applied.settings_canon {x : Applied} {m : AccessMeet} {s : Settings} (h : x.dev.Canon) : (x.settings m s).dev.Canon := by
  refine applied_foldl_canon (present_canon h) fun y _ hy => ?_
  split
  · exact hy.settingWrite
  · exact hy

theorem Applied.ring_canon {x : Applied} {index : Nat} {e : Nat × Nat × Nat} (h : x.dev.Canon) : (x.ring index e).dev.Canon := by
  unfold Applied.ring
  split
  · exact h
  · extract_lets n d₁ d₂
    have h₁ : d₁.Canon := h.ringDirWrite.ringDirWrite
    have h₂ : d₂.Canon := h₁.ringGo
    split
    · exact h₁
    · split
      · exact h₂
      · exact h₂

theorem Applied.ringSection_canon {x : Applied} {index : Nat} {r : RingSection} (h : x.dev.Canon) :
    (x.ringSection index r).dev.Canon := by
  cases r with
  | rings l => exact applied_foldl_canon h fun _ _ => ring_canon
  | chanMap first es => exact .each h fun _ _ => .ringDirWrite
  | other => exact h

theorem Applied.preload_canon {x : Applied} {index : Nat} {p : Preload} (h : x.dev.Canon) : (x.preload index p).dev.Canon := by
  refine applied_foldl_canon h fun y _ hy => ?_
  split
  · exact hy
  · extract_lets w
    split
    rename_i d₁ _ hq₁
    have h₁ : d₁.Canon := .of_eq hq₁ hy.writeTo
    extract_lets
    split
    · exact h₁
    · exact h₁

theorem Applied.act_canon {x : Applied} {m : AccessMeet} {e : Nat × Act} (h : x.dev.Canon) : (x.act m e).dev.Canon := by
  unfold Applied.act
  split
  · exact h
  · split
    · exact settings_canon h
    · exact ringSection_canon h
    · exact preload_canon h

theorem Dev.Canon.applyImage {img : Image} {m : AccessMeet} (h : d.Canon) : (d.applyImage img m).dev.Canon :=
  applied_foldl_canon h fun _ _ => Applied.act_canon

theorem Dev.Canon.undo {x : Applied} (h : x.dev.Canon) : x.undo.Canon :=
  .each (.each (.each (.each h fun _ _ => .zeroBank) fun _ _ => .closeRing) fun _ _ => .setReg) fun _ _ h' => h'.setReg.setReg

theorem Dev.Canon.declare {decls : List Decl} {u : Decl} (h : d.Canon) : (d.declare decls u).Canon := by
  unfold Dev.declare
  extract_lets kids shell waits r _ d₁ table _ d₂ d₃
  have h₁ : d₁.Canon := .ite h.modUnits.setReg.setReg h.modUnits
  have h₂ : d₂.Canon := .ite h₁.setReg.loadInit h₁.setReg
  have h₃ : d₃.Canon := .ite h₂.unitOn h₂
  exact .ite h₃ h₃.fatal

theorem Dev.Canon.undeclare {decls : List Decl} (h : d.Canon) : (d.undeclare decls).Canon := by
  unfold Dev.undeclare
  exact .modUnits (.each h (fun _ _ => .resetRegs))

theorem Dev.Canon.declareAll {decls fresh : List Decl} (h : d.Canon) : (d.declareAll decls fresh).Canon := by
  unfold Dev.declareAll
  exact .each (.each h.undeclare (fun _ _ => .declare)) fun _ _ => .refresh

theorem Dev.Canon.takeDecisions {img : Image} {decls : List Decl} (h : d.Canon) : (d.takeDecisions img decls).Canon := by
  unfold Dev.takeDecisions
  split
  · exact h
  · exact h.setReg.modStrike.modHeat

theorem Dev.Canon.keepImage {img : Image} {decls : List Decl} (h : d.Canon) : (d.keepImage img decls).Canon :=
  .ite h.modLoad h.modLoad

theorem Dev.Canon.showVerified (h : d.Canon) : d.showVerified.Canon := by
  unfold Dev.showVerified
  exact .ite h.ldState.raise.setFld h.ldState.raise

theorem Dev.Canon.imageVerified {img : Image} (h : d.Canon) : (d.imageVerified img).Canon := by
  unfold Dev.imageVerified
  refine .ite h.ldState.raise.closeLoad ?_
  extract_lets decls' _ d₁ d₂
  have h₁ : d₁.Canon := h.takeDecisions.keepImage.declareAll
  have h₂ : d₂.Canon := by
    unfold d₂
    split
    · exact h₁.applyPins
    · exact h₁
  exact h₂.showVerified.closeLoad.enterIdle.takeRequest

theorem Dev.Canon.finishLoad {last : Nat} {m : AccessMeet} (h : d.Canon) : (d.finishLoad last m).Canon := by
  unfold Dev.finishLoad
  split
  · exact h
  · split
    refine .ite h.imageReject ?_
    extract_lets d₁
    have h₁ : d₁.Canon := h.imageRatio
    refine .ite h₁.imageReject (.withPorts h₁ fun e he => ?_)
    extract_lets x
    have hx : x.dev.Canon := he.applyImage
    refine .ite (.undo hx) ?_
    split
    · exact (Dev.Canon.undo hx).imageReject
    · exact hx.imageVerified

theorem Dev.Canon.endLoad {m : AccessMeet} (h : d.Canon) : (d.endLoad m).Canon := by
  unfold Dev.endLoad
  split
  · exact h
  · split
    exact .ite h.imageReject h.finishLoad

theorem Dev.Canon.opEndRecord {flash : List Word} {m : AccessMeet} (h : d.Canon) : (opEndRecord flash m d).Canon := by
  unfold Machine.opEndRecord
  exact .onRecord h fun _ _ _ _ h' => .ite h'.modLoad.endLoad h'.modLoad

theorem Dev.Canon.opSignature {flash : List Word} {m : AccessMeet} (h : d.Canon) : (opSignature flash m d).Canon := by
  unfold Machine.opSignature
  split
  · exact h
  · exact .ite h (.ite h.takeWords.imageReject (.ite h.takeWords.imageReject (.ite h.takeWords.modLoad.endLoad h.takeWords.modLoad)))

/-! ## Machine/UnitCmds -/

theorem Dev.Canon.ctrlBy {path b : Nat} {w : Word} (h : d.Canon) : (d.ctrlBy path b w).Canon := by
  unfold Dev.ctrlBy
  split
  · exact .viaKw h fun _ => .ctrlWrite
  · exact .viaKw h fun _ => .ctrlWrite
  · exact .viaWord h fun _ => .ctrlWrite

theorem Dev.Canon.opEnable {path : Fin 8} {unit : Nat} (h : d.Canon) : (opEnable path unit d).Canon := h.ctrlBy

theorem Dev.Canon.opDrainReq {path : Fin 8} {unit : Nat} {req : Bool} (h : d.Canon) : (opDrainReq path unit req d).Canon :=
  h.ctrlBy

theorem Dev.Canon.opUnitReset {path : Fin 8} {unit : Nat} {enable : Bool} (h : d.Canon) : (opUnitReset path unit enable d).Canon :=
  h.ctrlBy

theorem Dev.Canon.opProofSet {path : Fin 8} {unit : Nat} {en : Bool} {depth : Fin 4} (h : d.Canon) :
    (opProofSet path unit en depth d).Canon :=
  h.ctrlBy

theorem Dev.Canon.opGalleyStepAdvance {unit : Nat} (h : d.Canon) : (opGalleyStepAdvance unit d).Canon := .ite h.advance h

theorem Dev.Canon.opUnitReady {unit : Nat} (h : d.Canon) : (opUnitReady unit d).Canon := .ite h.ready h

theorem Dev.Canon.opUnitEmpty {unit : Nat} (h : d.Canon) : (opUnitEmpty unit d).Canon := by
  unfold Machine.opUnitEmpty
  refine .ite h ?_
  split
  · exact .ite h.loopLines.empty h
  · exact h.empty

theorem Dev.Canon.opDrainLimitExpiry {unit : Nat} (h : d.Canon) : (opDrainLimitExpiry unit d).Canon := by
  unfold Machine.opDrainLimitExpiry
  exact .ite h.limitExpired h

theorem Dev.Canon.opVersionSelWrite {path : Fin 8} {unit : Nat} {value : Word} (h : d.Canon) :
    (opVersionSelWrite path unit value d).Canon :=
  .viaWord h fun _ => .versionWrite

theorem Dev.Canon.opUReady {unit : Nat} (h : d.Canon) : (opUReady unit d).Canon := by
  unfold Machine.opUReady
  refine .ite ?_ h
  split
  · exact h.ready
  · exact h.modUser
  · exact h

theorem Dev.Canon.opUEmpty {unit : Nat} (h : d.Canon) : (opUEmpty unit d).Canon := .ite h.empty h

theorem Dev.Canon.opUFault {unit : Nat} {bits : BitVec 8} (h : d.Canon) : (opUFault unit bits d).Canon :=
  .ite (.ite (.ite h h.faultBits) h.fatal) h

theorem Dev.Canon.opUEvent {unit : Nat} {bits : BitVec 7} (h : d.Canon) : (opUEvent unit bits d).Canon := .ite h.eventBits h

theorem Dev.Canon.opULoss {unit : Nat} {level : Bool} (h : d.Canon) : (opULoss unit level d).Canon :=
  .ite (.ite h.lose h.modUnits) h

/-! ## Machine/Idle -/

theorem Dev.Canon.mcLoop {w : Nat} (h : d.Canon) : (d.mcLoop w).Canon := by
  unfold Dev.mcLoop
  extract_lets
  split
  exact .ite h (.ite (.proofLog (.count (.setFld (.count (.count (.modProof (.ite h.putLine h))))))) (.setFld (.count (.count
      (.modProof (.ite h.putLine h))))))

theorem Dev.Canon.viaLoop {c : Nat} (h : d.Canon) : (d.viaLoop c).Canon := by
  unfold Dev.viaLoop
  refine .ite h ?_
  split
  extract_lets found _ d₁
  have h₁ : d₁.Canon := h.modProof.drew.countBy.count
  clear_value found
  split
  · exact h₁.setFld.countBy.proofLog
  · exact h₁.setFld.countBy

theorem Dev.Canon.viaLoops (h : d.Canon) : d.viaLoops.Canon := .ite (.each h (fun _ _ => .viaLoop)) h

theorem Dev.Canon.opIdle (h : d.Canon) : (opIdle d).Canon := by
  unfold Machine.opIdle
  exact .viaLoops (.each (.fabricCycle (.each h (fun _ _ => .fdpComplete))) (fun _ _ => .mcLoop))

end

end Sys2Proof.Machine

/-! # Every step keeps the one form of the stores -/

namespace Sys2Proof.Machine

set_option Elab.async false

/-- A command that updates the machine, and what follows every update, keep the one form where the update does. -/
theorem onDev_canon {f : Dev → Dev} {s t : State} (h : (f s.dev).Canon) (he : onDev f s = .next t) : t.dev.Canon := by
  obtain rfl : { s with dev := (f s.dev).settle } = t := Host.Outcome.next.inj he
  exact h.settle

/-- Each command is the update of its operation. -/
theorem exec_canon {i : Instr} {s t : State} (h : s.dev.Canon) (he : exec i s = .next t) : t.dev.Canon := by
  cases i with
  | crossingEdge => exact onDev_canon h.opCrossingEdge he
  | release => exact onDev_canon h.opRelease he
  | decideLate => exact onDev_canon h.opDecideLate he
  | crossLost => exact onDev_canon h.opCrossLost he
  | holdoverExpiry => exact onDev_canon h.opHoldoverExpiry he
  | crossBack => exact onDev_canon h.opCrossBack he
  | arm => exact onDev_canon h.opArm he
  | relock => exact onDev_canon h.opRelock he
  | keepRatioWrite => exact onDev_canon h.opKeepRatioWrite he
  | crossNowLoRead => exact onDev_canon h.opCrossNowLoRead he
  | lastBreachLoRead => exact onDev_canon h.opLastBreachLoRead he
  | cycLoRead => exact onDev_canon h.opCycLoRead he
  | unitEnable => exact onDev_canon h.opEnable he
  | drainReq => exact onDev_canon h.opDrainReq he
  | unitReset => exact onDev_canon h.opUnitReset he
  | proofSet => exact onDev_canon h.opProofSet he
  | galleyStepAdvance => exact onDev_canon h.opGalleyStepAdvance he
  | unitReady => exact onDev_canon h.opUnitReady he
  | unitEmpty => exact onDev_canon h.opUnitEmpty he
  | drainLimitExpiry => exact onDev_canon h.opDrainLimitExpiry he
  | versionSelWrite => exact onDev_canon h.opVersionSelWrite he
  | uReady => exact onDev_canon h.opUReady he
  | uEmpty => exact onDev_canon h.opUEmpty he
  | uFault => exact onDev_canon h.opUFault he
  | uEvent => exact onDev_canon h.opUEvent he
  | uLoss => exact onDev_canon h.opULoss he
  | registerWrite => exact onDev_canon h.opRegisterWrite he
  | rcFieldRead => exact onDev_canon h.opRcFieldRead he
  | ctrlGrant => exact onDev_canon h.opCtrlGrant he
  | accessTimeout => exact onDev_canon h.opAccessTimeout he
  | clockGateWake => exact onDev_canon h.opClockGateWake he
  | fmReq => exact onDev_canon h.opFmReq he
  | dirWinAccess => exact onDev_canon h.opDirWinAccess he
  | treeWinRead => exact onDev_canon h.opTreeWinRead he
  | testWinAccess => exact onDev_canon h.opTestWinAccess he
  | debugWinAccess => exact onDev_canon h.opDebugWinAccess he
  | debugWinDone => exact onDev_canon h.opDebugWinDone he
  | eventRepeat => exact onDev_canon h.opEventRepeat he
  | lgPllCfgWrite => exact onDev_canon h.opLgPllCfgWrite he
  | lgPllLock => exact onDev_canon h.opLgPllLock he
  | lgLockTimeout => exact onDev_canon h.opLgLockTimeout he
  | refLost => exact onDev_canon h.opRefLost he
  | refBack => exact onDev_canon h.opRefBack he
  | laneStartTimeout => exact onDev_canon h.opLaneStartTimeout he
  | losSet => exact onDev_canon h.opLosSet he
  | losClear => exact onDev_canon h.opLosClear he
  | cdrLock => exact onDev_canon h.opCdrLock he
  | cdrUnlock => exact onDev_canon h.opCdrUnlock he
  | dfeTapStep => exact onDev_canon h.opDfeTapStep he
  | ctleAdaptStep => exact onDev_canon h.opCtleAdaptStep he
  | snap => exact onDev_canon h.opSnap he
  | dfeLoad => exact onDev_canon h.opDfeLoad he
  | txFirWrite => exact onDev_canon h.opTxFirWrite he
  | eyeStart => exact onDev_canon h.opEyeStart he
  | eyeDone => exact onDev_canon h.opEyeDone he
  | blockReceive => exact onDev_canon h.opBlockReceive he
  | huntExpired => exact onDev_canon h.opHuntExpired he
  | bitslip => exact onDev_canon h.opBitslip he
  | rehunt => exact onDev_canon h.opRehunt he
  | forceManualWrite => exact onDev_canon h.opForceManualWrite he
  | quadTransmit => exact onDev_canon h.opQuadTransmit he
  | quadMissing => exact onDev_canon h.opQuadMissing he
  | mark => exact onDev_canon h.opMark he
  | announce => exact onDev_canon h.opAnnounce he
  | credit => exact onDev_canon h.opCredit he
  | proof => exact onDev_canon h.opProof he
  | alarm => exact onDev_canon h.opAlarm he
  | hit => exact onDev_canon h.opHit he
  | primitive => exact onDev_canon h.opPrimitive he
  | decision => exact onDev_canon h.opDecision he
  | accept => exact onDev_canon h.opAccept he
  | fragment => exact onDev_canon h.opFragment he
  | mgmtRead => exact onDev_canon h.opMgmtRead he
  | mgmtWrite => exact onDev_canon h.opMgmtWrite he
  | mgmtResp => exact onDev_canon h.opMgmtResp he
  | eventMessage => exact onDev_canon h.opEventMessage he
  | control => exact onDev_canon h.opControl he
  | announceTransmit => exact onDev_canon h.opAnnounceTransmit he
  | announceTimeout => exact onDev_canon h.opAnnounceTimeout he
  | renegotiate => exact onDev_canon h.opRenegotiate he
  | creditTransmit => exact onDev_canon h.opCreditTransmit he
  | messageTransmit => exact onDev_canon h.opMessageTransmit he
  | markTransmit => exact onDev_canon h.opMarkTransmit he
  | proofOn => exact onDev_canon h.opProofOn he
  | proofOff => exact onDev_canon h.opProofOff he
  | remGo => exact onDev_canon h.opRemGo he
  | noResponse => exact onDev_canon h.opNoResponse he
  | resErr => exact onDev_canon h.opResErr he
  | driveConflict => exact onDev_canon h.opDriveConflict he
  | receiveQueueWrite => exact onDev_canon h.opReceiveQueueWrite he
  | sendQueueExamine => exact onDev_canon h.opSendQueueExamine he
  | fillLp => exact onDev_canon h.opFillLp he
  | fillStream => exact onDev_canon h.opFillStream he
  | plateStage => exact onDev_canon h.opPlateStage he
  | plateSwitch => exact onDev_canon h.opPlateSwitch he
  | plateCycle => exact onDev_canon h.opPlateCycle he
  | plateCancel => exact onDev_canon h.opPlateCancel he
  | plateClear => exact onDev_canon h.opPlateClear he
  | pstreamDataWrite => exact onDev_canon h.opPstreamDataWrite he
  | fillDone => exact onDev_canon h.opFillDone he
  | stageDone => exact onDev_canon h.opStageDone he
  | plateSwitchAtT => exact onDev_canon h.opPlateSwitchAtT he
  | plateScrubSlot => exact onDev_canon h.opPlateScrubSlot he
  | plateReload => exact onDev_canon h.opPlateReload he
  | reloadDone => exact onDev_canon h.opReloadDone he
  | rowRead => exact onDev_canon h.opRowRead he
  | rowWrite => exact onDev_canon h.opRowWrite he
  | rowTally => exact onDev_canon h.opRowTally he
  | twinRead => exact onDev_canon h.opTwinRead he
  | twinWrite => exact onDev_canon h.opTwinWrite he
  | basePortRead => exact onDev_canon h.opBasePortRead he
  | basePortWrite => exact onDev_canon h.opBasePortWrite he
  | viaCountDecay => exact onDev_canon h.opViaCountDecay he
  | correctedWriteback => exact onDev_canon h.opCorrectedWriteback he
  | memScrubAccess => exact onDev_canon h.opMemScrubAccess he
  | scrubLate => exact onDev_canon h.opScrubLate he
  | rowRemap => exact onDev_canon h.opRowRemap he
  | bankInit => exact onDev_canon h.opBankInit he
  | marchGo => exact onDev_canon h.opMarchGo he
  | marchDone => exact onDev_canon h.opMarchDone he
  | clockViaFail => exact onDev_canon h.opClockViaFail he
  | clockViaRestart => exact onDev_canon h.opClockViaRestart he
  | push => exact onDev_canon h.opPush he
  | gapRecordHandoff => exact onDev_canon h.opGapRecordHandoff he
  | gapWritten => exact onDev_canon h.opGapWritten he
  | slotWrite => exact onDev_canon h.opSlotWrite he
  | sweepVisit => exact onDev_canon h.opSweepVisit he
  | flushDone => exact onDev_canon h.opFlushDone he
  | openRing => exact onDev_canon h.opOpenRing he
  | closeRing => exact onDev_canon h.opCloseRing he
  | rebuild => exact onDev_canon h.opRebuild he
  | rebuildDone => exact onDev_canon h.opRebuildDone he
  | extract => exact onDev_canon h.opExtract he
  | fragmentSend => exact onDev_canon h.opFragmentSend he
  | readoutQueueWrite => exact onDev_canon h.opReadoutQueueWrite he
  | stkAccSample => exact onDev_canon h.opStkAccSample he
  | fdpRead => exact onDev_canon h.opFdpRead he
  | fdpFullWrite => exact onDev_canon h.opFdpFullWrite he
  | fdpPartialWrite => exact onDev_canon h.opFdpPartialWrite he
  | mcInitDone => exact onDev_canon h.opMcInitDone he
  | mcRetrain => exact onDev_canon h.opMcRetrain he
  | mcScrubLine => exact onDev_canon h.opMcScrubLine he
  | moverGo => exact onDev_canon h.opMoverGo he
  | descriptorEnd => exact onDev_canon h.opDescriptorEnd he
  | regionWrite => exact onDev_canon h.opRegionWrite he
  | colophon => exact onDev_canon h.opColophon he
  | signature => exact onDev_canon h.opSignature he
  | galleyOpen => exact onDev_canon h.opGalleyOpen he
  | galleyClose => exact onDev_canon h.opGalleyClose he
  | plateFrames => exact onDev_canon h.opPlateFrames he
  | initValues => exact onDev_canon h.opInitValues he
  | pinTable => exact onDev_canon h.opPinTable he
  | unitSettings => exact onDev_canon h.opUnitSettings he
  | ringMap => exact onDev_canon h.opRingMap he
  | memoryPreload => exact onDev_canon h.opMemoryPreload he
  | thermalMap => exact onDev_canon h.opThermalMap he
  | driveMap => exact onDev_canon h.opDriveMap he
  | latency => exact onDev_canon h.opLatency he
  | optionalRecord => exact onDev_canon h.opOptionalRecord he
  | endRecord => exact onDev_canon h.opEndRecord he
  | powerOn => exact onDev_canon h.opPowerOn he
  | suppliesGood => exact onDev_canon h.opSuppliesGood he
  | fioStable => exact onDev_canon h.opFioStable he
  | fioStartTimeout => exact onDev_canon h.opFioStartTimeout he
  | crystalDelayDone => exact onDev_canon h.opCrystalDelayDone he
  | pllLock => exact onDev_canon h.opPllLock he
  | pllLockTimeout => exact onDev_canon h.opPllLockTimeout he
  | bootBistDone => exact onDev_canon h.opBootBistDone he
  | bootSourceTry => exact onDev_canon h.opBootSourceTry he
  | trunkWaitExpiry => exact onDev_canon h.opTrunkWaitExpiry he
  | ldOpen => exact onDev_canon h.opLdOpen he
  | loadAbort => exact onDev_canon h.opLoadAbort he
  | reapply => exact onDev_canon h.opReapply he
  | ldDataWrite => exact onDev_canon h.opLdDataWrite he
  | loadTimeout => exact onDev_canon h.opLoadTimeout he
  | mainPathRelease => exact onDev_canon h.opMainPathRelease he
  | stagedOutputs => exact onDev_canon h.opStagedOutputs he
  | stagedWriteEnables => exact onDev_canon h.opStagedWriteEnables he
  | stagedReset => exact onDev_canon h.opStagedReset he
  | resetN => exact onDev_canon h.opResetN he
  | rstReqDevice => exact onDev_canon h.opRstReqDevice he
  | rstReqWarm => exact onDev_canon h.opRstReqWarm he
  | warmResetEnd => exact onDev_canon h.opWarmResetEnd he
  | monitorTrip => exact onDev_canon h.opMonitorTrip he
  | sourceBack => exact onDev_canon h.opSourceBack he
  | pllUnlock => exact onDev_canon h.opPllUnlock he
  | rootFail => exact onDev_canon h.opRootFail he
  | standbyRootFail => exact onDev_canon h.opStandbyRootFail he
  | rootSwap => exact onDev_canon h.opRootSwap he
  | trunkGo => exact onDev_canon h.opTrunkGo he
  | regGo => exact onDev_canon h.opRegGo he
  | relockStandbyLock => exact onDev_canon h.opRelockStandbyLock he
  | netStop => exact onDev_canon h.opNetStop he
  | switchForced => exact onDev_canon h.opSwitchForced he
  | netRestart => exact onDev_canon h.opNetRestart he
  | fioRetry => exact onDev_canon h.opFioRetry he
  | tick => exact onDev_canon h.opTick he
  | modeReq => exact onDev_canon h.opModeReq he
  | modeEntered => exact onDev_canon h.opModeEntered he
  | pmbusSettleDone => exact onDev_canon h.opPmbusSettleDone he
  | readIout => exact onDev_canon h.opReadIout he
  | wakeN => exact onDev_canon h.opWakeN he
  | spi1CsWake => exact onDev_canon h.opSpi1CsWake he
  | dormTimer => exact onDev_canon h.opDormTimer he
  | pdWrite => exact onDev_canon h.opPdWrite he
  | powerGood => exact onDev_canon h.opPowerGood he
  | rampFail => exact onDev_canon h.opRampFail he
  | pgLost => exact onDev_canon h.opPgLost he
  | droopSense => exact onDev_canon h.opDroopSense he
  | episodeEnd => exact onDev_canon h.opEpisodeEnd he
  | widened => exact onDev_canon h.opWidened he
  | groupAdmit => exact onDev_canon h.opGroupAdmit he
  | backgroundGrant => exact onDev_canon h.opBackgroundGrant he
  | governorPTAdjust => exact onDev_canon h.opGovernorPTAdjust he
  | thermalTrip => exact onDev_canon h.opThermalTrip he
  | supply => exact onDev_canon h.opSupply he
  | causeLatchClear => exact onDev_canon h.opCauseLatchClear he
  | watchdogKick => exact onDev_canon h.opWatchdogKick he
  | watchdog => exact onDev_canon h.opWatchdog he
  | propOpen => exact onDev_canon h.opPropOpen he
  | propDataWrite => exact onDev_canon h.opPropDataWrite he
  | propSubmit => exact onDev_canon h.opPropSubmit he
  | propDiscard => exact onDev_canon h.opPropDiscard he
  | bistCmd => exact onDev_canon h.opBistCmd he
  | bistDone => exact onDev_canon h.opBistDone he
  | pealSlice => exact onDev_canon h.opPealSlice he
  | reliefPhaseEnd => exact onDev_canon h.opReliefPhaseEnd he
  | pealPriv => exact onDev_canon h.opPealPriv he
  | privDone => exact onDev_canon h.opPrivDone he
  | repCommit => exact onDev_canon h.opRepCommit he
  | repCommitAll => exact onDev_canon h.opRepCommitAll he
  | repRemove => exact onDev_canon h.opRepRemove he
  | repErase => exact onDev_canon h.opRepErase he
  | repCmdDone => exact onDev_canon h.opRepCmdDone he
  | repFuseWrite => exact onDev_canon h.opRepFuseWrite he
  | scanEnter => exact onDev_canon h.opScanEnter he
  | proofInject => exact onDev_canon h.opProofInject he
  | proofSyncLoss => exact onDev_canon h.opProofSyncLoss he
  | pinMuxWrite => exact onDev_canon h.opPinMuxWrite he
  | pinIrq => exact onDev_canon h.opPinIrq he
  | vccioLoss => exact onDev_canon h.opVccioLoss he
  | spi1Frame => exact onDev_canon h.opSpi1Frame he
  | jtagDebug => exact onDev_canon h.opJtagDebug he
  | extest => exact onDev_canon h.opExtest he
  | idcode => exact onDev_canon h.opIdcode he
  | samplePreload => exact onDev_canon h.opSamplePreload he
  | clamp => exact onDev_canon h.opClamp he
  | highz => exact onDev_canon h.opHighz he
  | extestPulse => exact onDev_canon h.opExtestPulse he
  | extestTrain => exact onDev_canon h.opExtestTrain he
  | bypass => exact onDev_canon h.opBypass he
  | serCmd => exact onDev_canon h.opSerCmd he
  | serCmdDone => exact onDev_canon h.opSerCmdDone he
  | serTxWrite => exact onDev_canon h.opSerTxWrite he
  | serRxRead => exact onDev_canon h.opSerRxRead he
  | serialByteReceived => exact onDev_canon h.opSerialByteReceived he
  | flashRead => exact onDev_canon h.opFlashRead he
  | flashProgram => exact onDev_canon h.opFlashProgram he
  | eraseSector => exact onDev_canon h.opEraseSector he
  | flCmdDone => exact onDev_canon h.opFlCmdDone he
  | vccioGood => exact onDev_canon h.opVccioGood he
  | vccAoLoss => exact onDev_canon h.opVccAoLoss he
  | droopSensorClear => exact onDev_canon h.opDroopSensorClear he
  | refSelWrite => exact onDev_canon h.opRefSelWrite he
  | vsetWrite => exact onDev_canon h.opVsetWrite he
  | dramHot => exact onDev_canon h.opDramHot he
  | serialByteSent => exact onDev_canon h.opSerialByteSent he

theorem step_canon {s t : State} (h : s.dev.Canon) (he : step s = .next t) : t.dev.Canon := by
  rcases hp : s.pending with _ | ⟨i, rest⟩
  · exact onDev_canon h.opIdle ((step_nil hp).symm.trans he)
  · exact exec_canon (s := { s with pending := rest }) h ((step_cons hp).symm.trans he)

/-- Settles O4, by one lemma for each operation of the machine, of which a command, or idle time, is one, and the settling
of the machine that follows it. -/
theorem stepKeepsStoresCanonical : Obligations.StepKeepsStoresCanonical := by
  unfold Obligations.StepKeepsStoresCanonical
  intro s t hs he
  exact canonical_iff.mpr (step_canon (canonical_iff.mp hs) he)

end Sys2Proof.Machine
